-- ==== Sys2Proof/Word.lean ====
section
/-!
DEFINITION. Sys2Proof/Word.lean: the words of the module. R3: little-endian, bit 0 least significant.
-/
namespace Sys2Proof

/-- A byte of memory. -/
abbrev Byte := BitVec 8
/-- A 16-bit word. -/
abbrev Half := BitVec 16
/-- A 32-bit word: an instruction word, a 32-bit register. -/
abbrev Word := BitVec 32
/-- A 64-bit word: a data register, an instant of R5. -/
abbrev Dword := BitVec 64

end Sys2Proof
end

