-- ==== Sys2Proof/Types.lean ====
section
/-!
DEFINITION. Sys2Proof/Types.lean: the operands of the commands. Numbered parts are Fin of their count (R12, R13);
what the outside world supplies with an event (a measurement, a verdict, a frame, a flit) is data of its own type.
-/
namespace Sys2Proof

abbrev CoreId := Fin 32
abbrev PortId := Fin 1024
abbrev BlockId := Fin 32
abbrev RegionId := Fin 4
abbrev ClockId := Fin 512
abbrev LgId := Fin 8
abbrev LinkId := Fin 16
abbrev ChanId := Fin 16
abbrev DieId := Fin 8
abbrev SliceId := Fin 16
/-- A host queue pair; 4 is the side-band's own pair (R404). -/
abbrev PairId := Fin 5
abbrev SlotId := Fin 8
abbrev GateId := Fin 48
/-- A side-band session: 0 the UART console, 1 to 4 the Ethernet sessions (R402). -/
abbrev SbId := Fin 5
abbrev DReg := Fin 32
abbrev FReg := Fin 32
abbrev KReg := Fin 16

/-- The master of an access (R22): its ID, whether a core's ip held SYS when it issued (R279). -/
structure Writer where
  master : BitVec 6
  sys : Bool
  /-- the epoch the access presents (R159) -/
  epoch : BitVec 6 := 0
  /-- the source node, of a request from the mesh (R22) -/
  node : BitVec 12 := 0
  deriving DecidableEq, Repr

/-- A write to register space (R6, R21): who, with which epoch (R159), at which offset, 8 bytes or 4, the value. -/
structure RegWrite where
  by_ : Writer
  epoch : BitVec 6
  off : BitVec 28
  wide : Bool
  value : BitVec 64
  deriving DecidableEq, Repr

/-- What the Rook finds on an image (R409): the signature's check, the security version, the digest. -/
structure Verdict where
  sigOk : Bool
  version : BitVec 32
  digest : BitVec 256
  deriving DecidableEq, Repr

/-- One read of the carrier descriptor EEPROM (R421); `strap` is the TWIN_POS strap, none when open. -/
structure DescRead where
  answered : Bool
  bytes : List Byte
  strap : Option Bool
  deriving DecidableEq, Repr

/-- The conditions the Goose watches (R401). -/
inductive Watch where
  | feedA (ok : Bool) | feedB (ok : Bool) | holdup (ok : Bool)
  | inlet (high : Bool) | die (high : Bool) | heartbeat (ok : Bool)
  deriving DecidableEq, Repr

/-- The header of a side-band message (R402, R403): its sequence, its type byte where that is none of the table's, whether the CRC-32 of the UART's
frame is right, whether the client's certificate on Ethernet chains to the enrolled trust anchor. -/
structure SbHead where
  seq : BitVec 16
  odd : Option (BitVec 8) := none
  crcOk : Bool := true
  certOk : Bool := true
  deriving DecidableEq, Repr

/-- The sequence number of a message, which its reply echoes. -/
def SbHead.toNat (h : SbHead) : Nat := h.seq.toNat

/-- The type byte of a message that the Goose does not know. -/
def SbHead.unknown (h : SbHead) : Option Nat := h.odd.bind (fun t => if 1 ≤ t.toNat ∧ t.toNat ≤ 0x0D then none else some t.toNat)

/-- A debug token (R414): whether its signature verifies, the challenge it binds, its scope and duration. -/
structure DbgToken where
  sigOk : Bool
  byMbazoko : Bool
  identity : BitVec 256
  challenge : BitVec 128
  scope : BitVec 2
  seconds : BitVec 17
  deriving DecidableEq, Repr

/-- The 10 MHz input at a 1PPS edge (R114): whether it is there, and its rate against the module oscillator's, in 2^-32. -/
structure Clk10 where
  present : Bool
  rate : BitVec 32
  deriving DecidableEq, Repr

/-- What an election of a grandmaster rests on (R111): the node, whether it is a candidate, whether the grandmaster before it has
left the federation. -/
structure Election where
  node : BitVec 12
  candidate : Bool
  left : Bool
  deriving DecidableEq, Repr

/-- What debug may do (R290, R414). -/
inductive DebugAcc where
  | load (addr : BitVec 64) (size : Fin 9)
  | store (addr : BitVec 64) (data : List Byte)
  | halt (c : CoreId)
  | resume (c : CoreId)
  | step (c : CoreId)
  | extest
  /-- the port's own registers -/
  | idcode
  | bypass
  deriving DecidableEq, Repr

/-- The Rook's lifecycle states (R410). -/
inductive Lifecycle where
  | provisioned | owned | returned | decommissioned
  deriving DecidableEq, Repr

/-- A quadrature sample: the new levels of A and B (R49). -/
structure Quad where
  a : Bool
  b : Bool
  deriving DecidableEq, Repr

/-- A level the sampler of a port in pulse mode sees, and how many sample periods of 16.67 ns it lasts (R48). -/
structure Pulse where
  port : PortId
  high : Bool
  periods : Nat
  deriving DecidableEq, Repr

/-- The junction temperatures of a reading, in 1/16 °C (R468): the main die's, and those of the port dies read with it (R61). -/
structure Junctions where
  main : BitVec 16
  dies : List (DieId × BitVec 16)
  deriving DecidableEq, Repr

/-- A HART frame as its modem delimits it (R98): its characters and the conditions met on the way. -/
structure HartFrame where
  chars : List Byte
  parity : Bool
  framing : Bool
  carrierLost : Bool
  start : BitVec 64
  deriving DecidableEq, Repr

/-- An Ethernet frame from its destination address, without the FCS. -/
structure EthFrame where
  bytes : List Byte
  fcsOk : Bool
  deriving DecidableEq, Repr

/-- The ring index firmware may write (R95, R104). -/
inductive FwRing where
  | linkRxCons | linkTxProd | hartRxCons | hartTxProd
  deriving DecidableEq, Repr

/-- One slot of a pair word (R172, R177). -/
structure ShortOp where
  op : BitVec 5
  a : BitVec 5
  b : BitVec 5
  deriving DecidableEq, Repr

/-- The symbol errors of a frame as (symbol, error value) (R261, R262). -/
abbrev FrameErr := List (Fin 80 × BitVec 8)

/-- An error found in a memory array: of a slice at a lookup (R239), or of the 8-byte word at a local address of core scratch, region scratch
or code store, corrected or not (R241, R249, R250). -/
inductive SliceFault where
  | dataCorrected | dataUncorrectable | parity (way : Fin 16) | stateParity
  | word (addr : BitVec 52) (lost : Bool)
  deriving DecidableEq, Repr

/-- A line read from DRAM for a slice: its symbol errors, and the core whose L1 miss asked for it, if one did (R238). -/
structure LineFill where
  errs : FrameErr
  core : Option CoreId
  deriving DecidableEq, Repr

/-- What meets the entry of a level (R219, R225, R455): an error in its spill, an event source that reaches the core's distributor before the
first handler word issues, and the cores whose requests are taken in the same cycle. -/
structure EntrySpill where
  err : Bool
  late : Option (BitVec 8)
  same : BitVec 32
  deriving DecidableEq, Repr

/-- The passes of a sweep (R162, R271). -/
inductive SweepPass where
  | dram | coreScratch (c : CoreId) | regionScratch (g : RegionId) | cores
  deriving DecidableEq, Repr

/-- The end of a pass, with the symbol errors of the frames the DRAM pass read, by line (R272). -/
structure PassEnd where
  pass : SweepPass
  errs : List (BitVec 30 × FrameErr)
  deriving DecidableEq, Repr

/-- The entry registers whose write changes the pending copy (R283). -/
inductive EntryReg where
  | base | top | masters
  deriving DecidableEq, Repr

/-- A BAR of the host interface (R350). -/
inductive Bar where
  | bar0 | bar2 | bar4
  deriving DecidableEq, Repr

/-- How a host read completes (R351). -/
inductive HostStatus where
  | ok | unsupported | abort
  deriving DecidableEq, Repr

/-- The host resets (R352). -/
inductive HostResetKind where
  | perst | d3hot | linkDown | flr
  deriving DecidableEq, Repr

/-- What a configuration request does with a 32-bit register of configuration space, by its number: a read, or a write of the bytes that are
enabled (R349, by the PCI Express specification it names). -/
inductive ConfigAcc where
  | read (reg : BitVec 10)
  | write (reg : BitVec 10) (data : BitVec 32) (enables : BitVec 4)
  deriving DecidableEq, Repr

/-- A configuration request of the host (R392). -/
structure ConfigReq where
  tag : BitVec 16
  acc : ConfigAcc
  deriving DecidableEq, Repr

/-- A flit's header and payload (R303): every field of the layout. -/
structure Flit where
  dst : BitVec 12
  src : BitVec 12
  vc : BitVec 2
  ftype : BitVec 6
  deadline : BitVec 40
  tid : BitVec 16
  epoch : BitVec 6
  tags : BitVec 4
  follow : BitVec 5
  hops : BitVec 6
  phase : Bool
  status : BitVec 8
  late : Bool
  poison : Bool
  payload : BitVec 512
  deriving DecidableEq, Repr

/-- What PMD training of a link has measured (R298, R327): the SNR of each lane of its lane group, in 0.25 dB. -/
structure Training where
  link : LinkId
  snr : List Byte
  deriving DecidableEq, Repr

/-- What comes with a block (R302, R327): the codewords FEC corrected, and the latest block of this module's that the peer acknowledges. -/
structure BlockNote where
  corrected : Nat
  acked : Option Nat
  deriving DecidableEq, Repr

/-- The hello of a link (R299). -/
structure Hello where
  vmax : BitVec 8
  vmin : BitVec 8
  node : BitVec 12
  fed : BitVec 32
  lg : BitVec 3
  lk : BitVec 1
  v1Member : Bool
  highMember : Bool
  reqAttest : Bool
  nonce : BitVec 128
  deriving DecidableEq, Repr

/-- What the two Rooks find of each other (R413); `peerAccepts` is the peer's verdict on this module, `ephemeral` its ephemeral public key. -/
structure PeerEvidence where
  certOk : Bool
  sigOk : Bool
  owned : Bool
  owner : BitVec 256
  svn : BitVec 32
  peerAccepts : Bool
  ephemeral : BitVec 512
  deriving DecidableEq, Repr

/-- A MEMBER flit (R304, R315, R442): a member's own entry on its way to the root, the flooded membership, a
duplicate found by the root, a device fault notice, or the members lost with a link on their way to the root. -/
inductive MemberMsg where
  | claim (node : BitVec 12) (identity : BitVec 256) (v2 : Bool) (hops : BitVec 8)
  | flood (members : List (BitVec 12 × Bool))
  | duplicate (node : BitVec 12) (identity : BitVec 256)
  | notice (node : BitVec 12) (cause : BitVec 8) (down : Bool)
  | leave (gone : List (BitVec 12 × BitVec 256))
  deriving DecidableEq, Repr

/-- A GOP flit (R316 to R320): up toward the root or down from it; a subtree's report says whether it holds a participant. -/
inductive GopMsg where
  | barUp (b : BitVec 4) (any : Bool) | barRelease (b : BitVec 4)
  | bcUp (src : BitVec 12) (data : List Byte) | bcDown (src : BitVec 12) (data : List Byte)
  | snapUp (src : BitVec 12) | snapAt (t : BitVec 64) | snapRefused (dst : BitVec 12)
  | resetUp (src : BitVec 12) | resetAt (t : BitVec 64)
  | abandon
  deriving DecidableEq, Repr

/-- A heartbeat of the twin (R428). -/
structure Heartbeat where
  seq : BitVec 32
  role : BitVec 8
  ready : Bool
  release : Bool
  castle : Bool
  ack : Bool
  fault : Bool
  move : BitVec 32
  pass : BitVec 32
  h : BitVec 64
  now : BitVec 64
  deriving DecidableEq, Repr

/-- A MIRROR flit's content (R429): codes, clock states, check results, window lines, the end of a pass. -/
inductive MirrorMsg where
  | codes (l : List (PortId × BitVec 16 × BitVec 2))
  | clock (n : ClockId) (fallen holding safe : Bool) (block : BlockId) (mask : BitVec 32)
  | check (p : PortId) (pass : Bool) (ohms : BitVec 24)
  | line (addr : BitVec 52) (data : BitVec 512)
  | passEnd (pass : BitVec 32)
  | full
  deriving DecidableEq, Repr

end Sys2Proof
end

