-- ==== Sys2Proof/Syntax.lean ====
section
/-!
DEFINITION. Sys2Proof/Syntax.lean: the commands of the module, one constructor for each row of the command table
(spec/opcode_table.json), in the table's order. A row has no bits; its operands are what the spec says it is given.
-/
namespace Sys2Proof

/-- A command. -/
inductive Instr where
  /-- POWER_GOOD (R392): A feed comes into range and the power stage regulates, which starts the start-up sequence
  at t0. -/
  | powerGood
  /-- PRECHARGE_DONE (R417): Both presence contacts are mated and the input capacitance is charged, so the power
  stage switches from PRE_A/PRE_B to the feeds. -/
  | prechargeDone
  /-- HOLDUP_CHARGED (R417): The hold-up store reaches 20 ms of energy at 190 W and HOLDUP_OK becomes 1. -/
  | holdupCharged
  /-- GOOSE_RUNNING (R392): The Goose starts from its mask ROM and reads the always-on time keeper (t1). -/
  | gooseRunning
  /-- SPINE_POWER_ON (R463): The spine domain is powered at step 2 of the power-on order. -/
  | spinePowerOn
  /-- ROOK_FIRMWARE_VERIFIED (R408): The Rook boot ROM verifies a Rook firmware copy and starts it, or sets BOOT 7
  if neither copy verifies. -/
  | rookFirmwareVerified (v0 v1 : Verdict)
  /-- SHEEPDOG_START (R392): The Sheepdog firmware is verified and started from its slot, and MBX_STATE becomes 1
  (t4). -/
  | sheepdogStart (va vb : Verdict)
  /-- CARRIER_DESCRIPTOR_READ (R421): At t5 the module reads the carrier descriptor up to three times and accepts
  it or records DESC_ERR. -/
  | carrierDescriptorRead (reads : List DescRead) (verdicts : List (SlotId × Verdict))
  /-- POSITION_1_CLAIM_TIMEOUT (R426): A position-1 standby that still sees no peer claim 250 ms after its t5
  becomes primary. -/
  | position1ClaimTimeout
  /-- LAMB_SERVICE (R397): At t6 the Sheepdog sets the ports from the settled move for lamb service, and this
  counts as a configuration commit for those settings. -/
  | lambService
  /-- DRAM_SUPPLIES_UP (R264): The DRAM supplies reach regulation and the devices are reset and initialised (t1).
  -/
  | dramSuppliesUp
  /-- DRAM_TRAINING_DONE (R264): Training of every sub-channel ends, TRAINED is set and EV196 is raised (t2). -/
  | dramTrainingDone (failed : BitVec 8)
  /-- TRAINING_RETRY (R266): The controllers retry training after a failure, twice at most. -/
  | trainingRetry (failed : BitVec 8)
  /-- DRAM_FILL_DONE (R264): Every frame has been written with zeros and tag 0, READY becomes 1 and EV196 is raised
  (t3). -/
  | dramFillDone
  /-- CODE_SECTOR_CHECK (R393): The CODE sectors of the settled move are checked against their digests at t8. -/
  | codeSectorCheck
  /-- SECTOR_REPROGRAM_DONE (R393): A CODE sector that failed its digest has been reprogrammed from its slot. -/
  | sectorReprogramDone (g : RegionId) (sector : Fin 128)
  /-- FULL_SERVICE (R394): At C_f the settled move takes effect in full, the cores leave reset and MBX_STATE
  becomes 3. -/
  | fullService
  /-- GOOSE_WATCH_CHANGE (R401): A condition the Goose watches (feeds, hold-up, temperatures) changes state, so it
  logs an entry and raises EV248. -/
  | gooseWatchChange (what : Watch)
  /-- SHEEPDOG_HEARTBEAT_TIMEOUT (R401): The Sheepdog gives no heartbeat for 2 s, so the Goose sets MBX_STATE 4 and
  may restart the Sheepdog once. -/
  | sheepdogHeartbeatTimeout
  /-- TIME_KEEPER_SECOND (R400): At each full second of TB_NOW in full service the time keeper is set from TB_NOW.
  -/
  | timeKeeperSecond
  /-- GOOSE_RESTART (R401): The Goose restarts through its watchdog or a loss of the always-on domain, which
  releases the side-band lock. -/
  | gooseRestart (domainLost : Bool)
  /-- HELLO (R403): A side-band HELLO message opens a session and returns the protocol version run. -/
  | hello (sess : SbId) (major minor : BitVec 8) (seq : SbHead)
  /-- STATUS (R403): A side-band STATUS message returns BOOT, MBX_STATE, lifecycle, feeds, temperatures, node ID
  and settled move. -/
  | status (sess : SbId) (seq : SbHead)
  /-- LOG_READ (R493): A side-band LOG_READ pops up to 16 Goose log entries with the lost count and clears the
  count. -/
  | logRead (sess : SbId) (seq : SbHead)
  /-- SIDEBAND_TIME_GET (R403): A side-band TIME_GET returns the time keeper and TB_NOW. -/
  | sidebandTimeGet (sess : SbId) (seq : SbHead)
  /-- TIME_SET (R406): A side-band TIME_SET sets the time keeper, or acts as a time step when the main side is up.
  -/
  | timeSet (sess : SbId) (seq : SbHead) (token : BitVec 32) (t : BitVec 64)
  /-- SIDEBAND_REG_READ (R403): A side-band REG_READ reads a register as master 33. -/
  | sidebandRegRead (sess : SbId) (seq : SbHead) (off : BitVec 28) (wide : Bool)
  /-- SIDEBAND_SIG_READ (R403): A side-band SIG_READ reads up to 32 signal records through their gates as master
  33. -/
  | sidebandSigRead (sess : SbId) (seq : SbHead) (ids : List (BitVec 26))
  /-- RELAY (R404): A side-band RELAY message carries one mailbox command to the Sheepdog on the side-band pair. -/
  | relay (sess : SbId) (seq : SbHead) (slot : List Byte) (payload : List Byte) (v : Verdict)
  /-- POWER (R406): A side-band POWER message switches the main side off, after applying PORT_SAFE, or on. -/
  | power (sess : SbId) (seq : SbHead) (token : BitVec 32) (on : Bool)
  /-- RESET (R403): A side-band RESET message requests a device reset or a reset of region g. -/
  | reset (sess : SbId) (seq : SbHead) (token : BitVec 32) (region : Option RegionId)
  /-- FW_RECOVER (R407): A side-band FW_RECOVER streams a Sheepdog image to the Rook while MBX_STATE is 4 and
  restarts the Sheepdog from it. -/
  | fwRecover (sess : SbId) (seq : SbHead) (image : List Byte) (v : Verdict)
  /-- ATTEST (R412): A side-band ATTEST returns fresh Rook evidence over a client nonce. -/
  | attest (sess : SbId) (seq : SbHead) (nonce : BitVec 256)
  /-- DEBUG_AUTH (R414): A side-band DEBUG_AUTH passes a debug challenge or token to the Rook. -/
  | debugAuth (sess : SbId) (seq : SbHead) (tok : Option DbgToken)
  /-- DEBUG_CHALLENGE_READ (R414): A read of ROOK_DBG_CHAL0 issues a new debug challenge. -/
  | debugChallengeRead
  /-- DEBUG_TOKEN (R414): A signed debug token submitted through the 1149.1 port is verified and sets the debug
  scope, or sets DBG_REFUSED. -/
  | debugToken (tok : DbgToken)
  /-- DEBUG_AUTH_EXPIRY (R414): The duration of a debug authorisation ends and the scope returns to none. -/
  | debugAuthExpiry
  /-- DEBUG_ACCESS (R290): Debug performs a load, store, core halt or single step under its scope and the gates. -/
  | debugAccess (acc : DebugAcc)
  /-- LIFECYCLE_TRANSITION (R410): A signed enrolment or release command moves the Rook to another lifecycle state
  and erases its link keys. -/
  | lifecycleTransition (dest : Lifecycle) (owner : BitVec 256) (sigOk : Bool)
  /-- REGISTER_WRITE (R6): A write to a register that has no row of its own acts according to its field types. -/
  | registerWrite (a : RegWrite)
  /-- COUNTER_CLEAR (R63): A write of any value to a counter register sets it to 0. -/
  | counterClear (a : RegWrite)
  /-- ST_FIELD_WRITE (R380): A direct write to an ST field stages it, or is ignored and sets ST_REFUSED. -/
  | stFieldWrite (a : RegWrite)
  /-- CONFIG_COMMIT (R382): At the commit instant C every staged value takes effect together, EV237 is raised and
  CFG_COMMIT_TIME is set. -/
  | configCommit
  /-- FRONT_END_RECONFIGURED (R31): The port front end is reconfigured for the new mode and range (t1), and the
  edge sampler starts low. -/
  | frontEndReconfigured (p : PortId)
  /-- NETCHK (R28): A write of 1 to PORT_DIAG_CTRL.NETCHK starts a network check of the port. -/
  | netchk (w : Writer) (p : PortId)
  /-- NETWORK_CHECK_DONE (R28): A 2 ms network check ends, stores the measured resistance and passes the port or
  forces it off with MISMATCH. -/
  | networkCheckDone (p : PortId) (ohms : BitVec 24)
  /-- T1L_LINK_UP (R31): The T1L PMA reports the link up with a compliant partner and LINK_UP is set. -/
  | t1lLinkUp (p : PortId) (full : Bool) (sqi : BitVec 3)
  /-- T1L_LINK_DOWN (R52): The T1L PMA loses link status, which clears LINK_UP and sets LINKDOWN. -/
  | t1lLinkDown (p : PortId)
  /-- TRANSITION_END (R32): The chain settling time after t2 ends, so TRANSITION returns to 0 (t5). -/
  | transitionEnd (p : PortId)
  /-- PULSE_EDGE (R48): A filtered rising edge is counted and timestamped in pulse mode. -/
  | pulseEdge (p : Pulse)
  /-- QUADRATURE_TRANSITION (R49): An A or B transition updates the x4 quadrature count, or is counted as an
  illegal transition. -/
  | quadratureTransition (p : PortId) (q : Quad)
  /-- DISCRETE_CHANGE (R50): The input state changes and a stable interval begins, with its timestamp. -/
  | discreteChange (p : PortId) (high : Bool)
  /-- DISCRETE_CHANGE_CONFIRMED (R50): A discrete change has stayed stable for DEBOUNCE µs and is confirmed. -/
  | discreteChangeConfirmed (p : PortId)
  /-- OPEN_WIRE_DETECTED (R43): The loop current stays below 0.2 mA for 1 ms, so open wire is reported. -/
  | openWireDetected (p : PortId) (present : Bool)
  /-- OUTPUT_DEVIATION (R44): The read-back has differed from the drive for more than 1 ms, so OUTDEV is set. -/
  | outputDeviation (p : PortId) (present : Bool)
  /-- OVERRANGE (R38): The raw converter code saturates, which sets OVERRANGE and the sticky fault bit. -/
  | overrange (p : PortId) (present : Bool)
  /-- DIAGNOSTIC_SCAN (R52): At each scan interval the port block runs the voltage open-wire test and the leakage
  check. -/
  | diagnosticScan (b : BlockId) (moved : BitVec 32) (ohms : List (Fin 32 × BitVec 24))
  /-- HART_CARRIER_DETECT (R45): The HART carrier crosses its detect or clear threshold. -/
  | hartCarrierDetect (p : PortId) (mvpp : Nat)
  /-- HART_RECEIVE_FRAME (R98): A HART frame completes by its byte count and is placed in the HART receive ring, or
  dropped if the ring is full. -/
  | hartReceiveFrame (p : PortId) (fr : HartFrame)
  /-- HART_GAP_TIMEOUT (R98): A gap of more than two character times ends a HART receive frame early. -/
  | hartGapTimeout (p : PortId) (fr : HartFrame)
  /-- HART_TRANSMIT_FRAME (R99): The modem takes a HART transmit slot and starts the frame when its port is free,
  or writes a refusal result. -/
  | hartTransmitFrame (g : RegionId)
  /-- HART_TRANSMIT_DONE (R99): A HART transmit frame ends and its result is written, and the slot is released in
  ring order. -/
  | hartTransmitDone (p : PortId)
  /-- T1L_FRAME_RECEIVE (R47): A link-mode MAC receives a frame and drops it if it is bad or passes it timestamped
  to the field switch. -/
  | t1lFrameReceive (p : PortId) (fr : EthFrame)
  /-- TDR_START (R53): A write of 1 to PORT_TDR_CTRL.START starts a reflectometry run, or refuses it with TDRREJ.
  -/
  | tdrStart (w : Writer) (p : PortId)
  /-- TDR_ABORT (R54): A write of 1 to PORT_TDR_CTRL.ABORT ends a reflectometry run early with ABORTED. -/
  | tdrAbort (w : Writer) (p : PortId)
  /-- TDR_RUN_END (R54): A reflectometry run completes, writes PORT_TDR_RESULT and sets TDRDONE. -/
  | tdrRunEnd (p : PortId) (points : List (BitVec 16))
  /-- TDRDONE_RELEASE (R54): A write of 1 to TDRDONE releases the reflectometry buffer. -/
  | tdrdoneRelease (w : Writer) (p : PortId)
  /-- DIE_LINK_LOSS (R51): A port die receives no valid frame for 10 µs and applies PORT_SAFE to its outputs. -/
  | dieLinkLoss (d : DieId)
  /-- MAIN_DIE_LINK_LOSS (R51): The main die declares a port die's link lost at L, clears DIE_LINK, records block
  faults and starts the HELD interval. -/
  | mainDieLinkLoss (d : DieId)
  /-- DIE_LINK_RETURN (R51): Valid frames flow both ways again, so DIE_LINK becomes 1 and DIE_LOST 0. -/
  | dieLinkReturn (d : DieId)
  /-- HOLDT_EXPIRY (R80): The HOLDT interval after a die loss ends, and later records take quality 0x07. -/
  | holdtExpiry (b : BlockId)
  /-- SWITCH_FORWARD (R55): The field switch receives a frame and forwards it under the VLAN and forwarding tables,
  or drops it with a count. -/
  | switchForward (ingress : Fin 1033) (fr : EthFrame)
  /-- ENTRY_AGEOUT (R56): A learned forwarding entry ages out after AGE × 10 s without traffic. -/
  | entryAgeout (e : Fin 8192)
  /-- FSW_TBL_READ (R59): An FSW_TBL_CMD OP 0 reads the table entry in effect into FSW_TBL_DATA. -/
  | fswTblRead (w : Writer) (space : Bool) (index : BitVec 13)
  /-- FSW_TBL_STAGE_WRITE (R56): An FSW_TBL_CMD OP 1 stages a table entry from FSW_TBL_DATA. -/
  | fswTblStageWrite (w : Writer) (space : Bool) (index : BitVec 13)
  /-- FSW_TBL_STAGE_INVALIDATE (R56): An FSW_TBL_CMD OP 2 stages the invalidation of a table entry. -/
  | fswTblStageInvalidate (w : Writer) (space : Bool) (index : BitVec 13)
  /-- TABLE_COMMAND_COMPLETE (R59): A field-switch table command completes and BUSY clears. -/
  | tableCommandComplete
  /-- LINK_TRANSMIT_SLOT (R97): The switch takes a firmware frame from the link transmit ring, sends or discards
  it, and writes its result. -/
  | linkTransmitSlot (g : RegionId)
  /-- RING_INDEX_WRITE (R95): Firmware advances a frame ring index, and a backward or overrunning write is ignored
  with RING_ERR. -/
  | ringIndexWrite (w : Writer) (g : RegionId) (ring : FwRing) (index : BitVec 16)
  /-- CHAIN_OUTPUT (R71): A decimation chain output for sampling instant T becomes available at T plus the group
  delay. -/
  | chainOutput (p : PortId) (chainB : Bool) (t : BitVec 64) (code : BitVec 32)
  /-- COMMIT_CAPTURE (R89): At T − 1,000 ns the commit engine reads the block's output records and decides each
  pending one. -/
  | commitCapture (b : BlockId) (t : BitVec 64)
  /-- COMMIT_APPLY (R89): At T every port with a new code applies it in the same 60 MHz clock. -/
  | commitApply (b : BlockId) (t : BitVec 64)
  /-- COMMIT_STATUS_WRITE (R89): The commit engine writes the output status records after the DAC has settled (t3).
  -/
  | commitStatusWrite (b : BlockId) (t : BitVec 64)
  /-- STEPPED_COMMIT_APPLY (R490): After a step of TB_NOW, the captured codes are applied 1,000 ns of TB_MONO after
  the capture. -/
  | steppedCommitApply (b : BlockId)
  /-- PPS_EDGE (R114): A 1PPS rising edge gives the offset for SRC 3 or 4 and increments TB_PPS_SEC. -/
  | ppsEdge (clk10 : Clk10)
  /-- TB_PHASE_WRITE (R113): A write to TB_PHASE slews or steps TB_NOW by DELTA and counts as a sync interval. -/
  | tbPhaseWrite (w : Writer) (delta : BitVec 32)
  /-- TB_STEP_WRITE (R108): A write to TB_STEP steps TB_NOW when the time base is unlocked or SRC is 0, or sets
  STEP_REFUSED. -/
  | tbStepWrite (w : Writer) (t : BitVec 64)
  /-- TB_FREQ_WRITE (R113): A write to TB_FREQ sets the clamped rate offset when SRC is 2, and is ignored
  otherwise. -/
  | tbFreqWrite (w : Writer) (adj : BitVec 32)
  /-- HOLDOVER_START (R110): No sync interval arrives for four nominal intervals, so HOLDOVER becomes 1. -/
  | holdoverStart
  /-- HOLD_EXPIRY (R110): The HOLD seconds of holdover elapse and LOCKED becomes 0. -/
  | holdExpiry
  /-- GRANDMASTER_ELECTION (R111): A new federation grandmaster is chosen after the old one leaves. -/
  | grandmasterElection (e : Election)
  /-- TIME_PROBE_SEND (R112): Every 250 µs each link sends a time probe to measure its round trip. -/
  | timeProbeSend (l : LinkId)
  /-- TIME_PROBE (R325): A TIME_PROBE flit arrives and is answered with a TIME_ECHO. -/
  | timeProbe (l : LinkId) (f : Flit)
  /-- TIME_ECHO (R325): A TIME_ECHO flit arrives and gives the link's round trip and one-way delay. -/
  | timeEcho (l : LinkId) (f : Flit)
  /-- TIME_SYNC (R325): A TIME_SYNC flit arrives from the parent, carrying grandmaster time and correction, and is
  forwarded with its residence added. -/
  | timeSync (l : LinkId) (f : Flit)
  /-- SLOT_INSTANT (R116): An instant T of a schedule slot occurs, giving commit instants and chess-clock source
  0x100 + s. -/
  | slotInstant (sl : SlotId) (t : BitVec 64)
  /-- SLOT_EVENT (R117): At T + D the slot raises EV(224 + s). -/
  | slotEvent (sl : SlotId) (t : BitVec 64)
  /-- CLOCK_START_ARRIVAL (R121): A start occurrence reaches a chess clock and acts according to its mode. -/
  | clockStartArrival (n : ClockId)
  /-- CLOCK_STOP_ARRIVAL (R121): A stop occurrence reaches a chess clock and stops it, in time or early. -/
  | clockStopArrival (n : ClockId)
  /-- FLAG_FALL (R124): A running clock's elapsed time reaches LIMIT + 1 ns, so the flag falls, is reported and its
  action proceeds. -/
  | flagFall (n : ClockId)
  /-- CLK_CMD_START (R120): A write of 1 to CLK_CMD.START is a software start arrival. -/
  | clkCmdStart (w : Writer) (n : ClockId)
  /-- CLK_CMD_STOP (R120): A write of 1 to CLK_CMD.STOP is a software stop arrival. -/
  | clkCmdStop (w : Writer) (n : ClockId)
  /-- CLK_CMD_RELEASE (R126): A write of 1 to CLK_CMD.RELEASE releases the clock's hold or safe on its bound ports.
  -/
  | clkCmdRelease (w : Writer) (n : ClockId)
  /-- PAIR (R177): A pair word issues both short-op slots together. -/
  | pair (c : CoreId) (a b : ShortOp)
  /-- ADD (R178): ADD writes rs1 + rs2 to rd. -/
  | add (c : CoreId) (rd rs1 rs2 : DReg)
  /-- SUB (R178): SUB writes rs1 − rs2 to rd. -/
  | sub (c : CoreId) (rd rs1 rs2 : DReg)
  /-- AND (R178): AND writes the bitwise AND of rs1 and rs2. -/
  | and (c : CoreId) (rd rs1 rs2 : DReg)
  /-- OR (R178): OR writes the bitwise OR of rs1 and rs2. -/
  | or (c : CoreId) (rd rs1 rs2 : DReg)
  /-- XOR (R178): XOR writes the bitwise XOR of rs1 and rs2. -/
  | xor (c : CoreId) (rd rs1 rs2 : DReg)
  /-- SLL (R178): SLL shifts rs1 left by rs2[5:0]. -/
  | sll (c : CoreId) (rd rs1 rs2 : DReg)
  /-- SRL (R178): SRL shifts rs1 right logically by rs2[5:0]. -/
  | srl (c : CoreId) (rd rs1 rs2 : DReg)
  /-- SRA (R178): SRA shifts rs1 right arithmetically by rs2[5:0]. -/
  | sra (c : CoreId) (rd rs1 rs2 : DReg)
  /-- SLT (R178): SLT sets rd to 1 if rs1 < rs2 signed. -/
  | slt (c : CoreId) (rd rs1 rs2 : DReg)
  /-- SLTU (R178): SLTU sets rd to 1 if rs1 < rs2 unsigned. -/
  | sltu (c : CoreId) (rd rs1 rs2 : DReg)
  /-- MIN (R178): MIN writes the signed minimum. -/
  | min (c : CoreId) (rd rs1 rs2 : DReg)
  /-- MAX (R178): MAX writes the signed maximum. -/
  | max (c : CoreId) (rd rs1 rs2 : DReg)
  /-- MINU (R178): MINU writes the unsigned minimum. -/
  | minu (c : CoreId) (rd rs1 rs2 : DReg)
  /-- MAXU (R178): MAXU writes the unsigned maximum. -/
  | maxu (c : CoreId) (rd rs1 rs2 : DReg)
  /-- MUL (R178): MUL writes the low 64 bits of the product. -/
  | mul (c : CoreId) (rd rs1 rs2 : DReg)
  /-- MULH (R178): MULH writes the high 64 bits of the signed product. -/
  | mulh (c : CoreId) (rd rs1 rs2 : DReg)
  /-- MULHU (R178): MULHU writes the high 64 bits of the unsigned product. -/
  | mulhu (c : CoreId) (rd rs1 rs2 : DReg)
  /-- DIV (R178): DIV writes the signed quotient toward zero, as a blocking instruction. -/
  | div (c : CoreId) (rd rs1 rs2 : DReg)
  /-- DIVU (R178): DIVU writes the unsigned quotient. -/
  | divu (c : CoreId) (rd rs1 rs2 : DReg)
  /-- REM (R178): REM writes the signed remainder. -/
  | rem (c : CoreId) (rd rs1 rs2 : DReg)
  /-- REMU (R178): REMU writes the unsigned remainder. -/
  | remu (c : CoreId) (rd rs1 rs2 : DReg)
  /-- ADDI (R178): ADDI adds a sign-extended imm14. -/
  | addi (c : CoreId) (rd rs1 : DReg) (imm : BitVec 14)
  /-- SLTI (R178): SLTI compares signed with a sign-extended imm14. -/
  | slti (c : CoreId) (rd rs1 : DReg) (imm : BitVec 14)
  /-- SLTIU (R178): SLTIU compares unsigned with a sign-extended imm14. -/
  | sltiu (c : CoreId) (rd rs1 : DReg) (imm : BitVec 14)
  /-- ANDI (R178): ANDI ANDs with a zero-extended imm14. -/
  | andi (c : CoreId) (rd rs1 : DReg) (imm : BitVec 14)
  /-- ORI (R178): ORI ORs with a zero-extended imm14. -/
  | ori (c : CoreId) (rd rs1 : DReg) (imm : BitVec 14)
  /-- XORI (R178): XORI XORs with a zero-extended imm14. -/
  | xori (c : CoreId) (rd rs1 : DReg) (imm : BitVec 14)
  /-- SLLI (R178): SLLI shifts left by imm14[5:0]. -/
  | slli (c : CoreId) (rd rs1 : DReg) (sh : BitVec 6)
  /-- SRLI (R178): SRLI shifts right logically by imm14[5:0]. -/
  | srli (c : CoreId) (rd rs1 : DReg) (sh : BitVec 6)
  /-- SRAI (R178): SRAI shifts right arithmetically by imm14[5:0]. -/
  | srai (c : CoreId) (rd rs1 : DReg) (sh : BitVec 6)
  /-- INSI (R178): INSI.n inserts imm14 at bit 14n of rs1. -/
  | insi (c : CoreId) (n : Fin 5) (rd rs1 : DReg) (imm : BitVec 14)
  /-- BEQ (R186): BEQ branches if rs1 equals rs2. -/
  | beq (c : CoreId) (rs1 rs2 : DReg) (off : BitVec 14)
  /-- BNE (R186): BNE branches if rs1 differs from rs2. -/
  | bne (c : CoreId) (rs1 rs2 : DReg) (off : BitVec 14)
  /-- BLT (R186): BLT branches if rs1 < rs2 signed. -/
  | blt (c : CoreId) (rs1 rs2 : DReg) (off : BitVec 14)
  /-- BGE (R186): BGE branches if rs1 ≥ rs2 signed. -/
  | bge (c : CoreId) (rs1 rs2 : DReg) (off : BitVec 14)
  /-- BLTU (R186): BLTU branches if rs1 < rs2 unsigned. -/
  | bltu (c : CoreId) (rs1 rs2 : DReg) (off : BitVec 14)
  /-- BGEU (R186): BGEU branches if rs1 ≥ rs2 unsigned. -/
  | bgeu (c : CoreId) (rs1 rs2 : DReg) (off : BitVec 14)
  /-- J (R186): J moves the ip cursor by offset24 × 4. -/
  | j (c : CoreId) (off : BitVec 24)
  /-- LOOP (R187): LOOP sets up hardware loop n with its start, end and count, or skips the body. -/
  | loop (c : CoreId) (n : Fin 4) (rs1 : DReg) (imm : BitVec 14)
  /-- REP (R192): REP repeats the next word d[rs1] times. -/
  | rep (c : CoreId) (rs1 : DReg) (target : BitVec 32)
  /-- LDB (R181): LDB loads a sign-extended byte. -/
  | ldb (c : CoreId) (r : DReg) (kb : KReg) (off : BitVec 15)
  /-- LDBU (R181): LDBU loads a zero-extended byte. -/
  | ldbu (c : CoreId) (r : DReg) (kb : KReg) (off : BitVec 15)
  /-- LDH (R181): LDH loads a sign-extended halfword. -/
  | ldh (c : CoreId) (r : DReg) (kb : KReg) (off : BitVec 15)
  /-- LDHU (R181): LDHU loads a zero-extended halfword. -/
  | ldhu (c : CoreId) (r : DReg) (kb : KReg) (off : BitVec 15)
  /-- LDW (R181): LDW loads a sign-extended word. -/
  | ldw (c : CoreId) (r : DReg) (kb : KReg) (off : BitVec 15)
  /-- LDWU (R181): LDWU loads a zero-extended word. -/
  | ldwu (c : CoreId) (r : DReg) (kb : KReg) (off : BitVec 15)
  /-- LDD (R181): LDD loads 8 bytes. -/
  | ldd (c : CoreId) (r : DReg) (kb : KReg) (off : BitVec 15)
  /-- LDF (R181): LDF loads 8 bytes into an f register. -/
  | ldf (c : CoreId) (r : FReg) (kb : KReg) (off : BitVec 15)
  /-- STB (R181): STB stores one byte. -/
  | stb (c : CoreId) (r : DReg) (kb : KReg) (off : BitVec 15)
  /-- STH (R181): STH stores two bytes. -/
  | sth (c : CoreId) (r : DReg) (kb : KReg) (off : BitVec 15)
  /-- STW (R181): STW stores four bytes. -/
  | stw (c : CoreId) (r : DReg) (kb : KReg) (off : BitVec 15)
  /-- STD (R181): STD stores eight bytes. -/
  | std (c : CoreId) (r : DReg) (kb : KReg) (off : BitVec 15)
  /-- STF (R181): STF stores an f register. -/
  | stf (c : CoreId) (r : FReg) (kb : KReg) (off : BitVec 15)
  /-- LDK (R151): LDK loads a 16-byte granule with its tag into a key register. -/
  | ldk (c : CoreId) (kd : KReg) (kb : KReg) (off : BitVec 15)
  /-- STK (R151): STK stores a key with its tag into a granule. -/
  | stk (c : CoreId) (ks : KReg) (kb : KReg) (off : BitVec 15)
  /-- LDU_W (R182): LDU.W loads an unaligned word, split into two accesses if needed. -/
  | lduW (c : CoreId) (r : DReg) (kb : KReg) (off : BitVec 15)
  /-- LDU_D (R182): LDU.D loads an unaligned doubleword, split into two accesses if needed. -/
  | lduD (c : CoreId) (r : DReg) (kb : KReg) (off : BitVec 15)
  /-- STU_W (R183): STU.W stores an unaligned word in one or two parts, tracking SPLIT. -/
  | stuW (c : CoreId) (r : DReg) (kb : KReg) (off : BitVec 15)
  /-- STU_D (R183): STU.D stores an unaligned doubleword in one or two parts, tracking SPLIT. -/
  | stuD (c : CoreId) (r : DReg) (kb : KReg) (off : BitVec 15)
  /-- AMOADD (R185): AMOADD atomically adds v and returns the old value. -/
  | amoadd (c : CoreId) (wide : Bool) (rd : DReg) (v : KReg) (ks : KReg)
  /-- AMOSWP (R185): AMOSWP atomically swaps in v and returns the old value. -/
  | amoswp (c : CoreId) (wide : Bool) (rd : DReg) (v : KReg) (ks : KReg)
  /-- CAS (R185): CAS atomically compares and swaps. -/
  | cas (c : CoreId) (wide : Bool) (rd : DReg) (v : KReg) (ks : KReg)
  /-- KCAS (R185): KCAS atomically compares a granule with its tag and swaps in a key. -/
  | kcas (c : CoreId) (kd ks kt : KReg)
  /-- KMOVE (R143): KMOVE copies a key unchanged. -/
  | kmove (c : CoreId) (kd ks : KReg)
  /-- KADD (R138): KADD moves a key's cursor, clearing the tag if the result leaves the window. -/
  | kadd (c : CoreId) (kd ks : KReg) (rs : DReg)
  /-- KBOUND (R142): KBOUND sets exact bounds from the cursor for a length. -/
  | kbound (c : CoreId) (kd ks : KReg) (rs : DReg)
  /-- KBOUNDR (R142): KBOUNDR sets rounded bounds from the cursor for a length. -/
  | kboundr (c : CoreId) (kd ks : KReg) (rs : DReg)
  /-- KRIGHTS (R143): KRIGHTS ANDs a key's rights with a mask. -/
  | krights (c : CoreId) (kd ks : KReg) (rs : DReg)
  /-- KLOC (R143): KLOC narrows a key's locality. -/
  | kloc (c : CoreId) (kd ks : KReg) (rs : DReg)
  /-- KSEAL (R144): KSEAL seals a key with a type taken from a seal key. -/
  | kseal (c : CoreId) (kd ks kt : KReg)
  /-- KUNSEAL (R144): KUNSEAL unseals a software-sealed key with a matching seal key. -/
  | kunseal (c : CoreId) (kd ks kt : KReg)
  /-- KREEPOCH (R143): KREEPOCH sets a key's epoch, with SYS required in ip. -/
  | kreepoch (c : CoreId) (kd ks : KReg) (rs : DReg)
  /-- KTEST (R147): KTEST writes 1 if one key is a subset of another. -/
  | ktest (c : CoreId) (rd : DReg) (ks kt : KReg)
  /-- KGET (R146): KGET writes a field of a key to a d register. -/
  | kget (c : CoreId) (rd : DReg) (ks : KReg) (f : Fin 12)
  /-- JK (R145): JK loads ip from a key, invoking it if it is an entry key. -/
  | jk (c : CoreId) (ks : KReg)
  /-- JKL (R145): JKL jumps through a key and writes a sealed link key. -/
  | jkl (c : CoreId) (kd ks : KReg)
  /-- MCPY (R194): MCPY copies count bytes between key cursors in chunks. -/
  | mcpy (c : CoreId) (kd ks : KReg) (rs : DReg)
  /-- MSET (R194): MSET fills count bytes with a byte value. -/
  | mset (c : CoreId) (kd : KReg) (rv : KReg) (rs : DReg)
  /-- CTXSAVE_LO (R200): CTXSAVE.LO writes the LO half of level n's context and the LINK key. -/
  | ctxsaveLo (c : CoreId) (kl kb : KReg) (n : BitVec 5)
  /-- CTXSAVE_HI (R200): CTXSAVE.HI writes level n's keys, and its FP state if it owns it. -/
  | ctxsaveHi (c : CoreId) (kb : KReg) (n : BitVec 5)
  /-- CTXLOAD_LO (R200): CTXLOAD.LO loads level n's resume ip, STATUS, loop and d registers and returns LINK. -/
  | ctxloadLo (c : CoreId) (kd kb : KReg) (n : BitVec 5)
  /-- CTXLOAD_HI (R200): CTXLOAD.HI loads level n's keys, and its FP state if it was saved. -/
  | ctxloadHi (c : CoreId) (kb : KReg) (n : BitVec 5)
  /-- FADD (R204): FADD adds two FP values. -/
  | fadd (c : CoreId) (single : Bool) (fd fs1 fs2 : FReg)
  /-- FSUB (R204): FSUB subtracts two FP values. -/
  | fsub (c : CoreId) (single : Bool) (fd fs1 fs2 : FReg)
  /-- FMUL (R204): FMUL multiplies two FP values. -/
  | fmul (c : CoreId) (single : Bool) (fd fs1 fs2 : FReg)
  /-- FMA (R204): FMA computes fd + fs1 × fs2 with one rounding. -/
  | fma (c : CoreId) (single : Bool) (fd fs1 fs2 : FReg)
  /-- FDIV (R204): FDIV divides, as a blocking instruction. -/
  | fdiv (c : CoreId) (single : Bool) (fd fs1 fs2 : FReg)
  /-- FSQRT (R204): FSQRT takes the square root, as a blocking instruction. -/
  | fsqrt (c : CoreId) (single : Bool) (fd fs1 : FReg)
  /-- FMIN (R204): FMIN writes minimumNumber. -/
  | fmin (c : CoreId) (single : Bool) (fd fs1 fs2 : FReg)
  /-- FMAX (R204): FMAX writes maximumNumber. -/
  | fmax (c : CoreId) (single : Bool) (fd fs1 fs2 : FReg)
  /-- FMOV (R204): FMOV copies an f register. -/
  | fmov (c : CoreId) (fd fs1 : FReg)
  /-- FNEG (R204): FNEG flips the sign. -/
  | fneg (c : CoreId) (fd fs1 : FReg)
  /-- FABS (R204): FABS clears the sign. -/
  | fabs (c : CoreId) (fd fs1 : FReg)
  /-- FCMP_EQ (R204): FCMP.EQ compares for equality. -/
  | fcmpEq (c : CoreId) (single : Bool) (rd : DReg) (fs1 fs2 : FReg)
  /-- FCMP_LT (R204): FCMP.LT compares less-than, signalling NV on NaN. -/
  | fcmpLt (c : CoreId) (single : Bool) (rd : DReg) (fs1 fs2 : FReg)
  /-- FCMP_LE (R204): FCMP.LE compares less-or-equal, signalling NV on NaN. -/
  | fcmpLe (c : CoreId) (single : Bool) (rd : DReg) (fs1 fs2 : FReg)
  /-- FCMP_UN (R204): FCMP.UN tests for unordered operands. -/
  | fcmpUn (c : CoreId) (single : Bool) (rd : DReg) (fs1 fs2 : FReg)
  /-- FCVT_D_L (R204): FCVT.D.L converts a signed integer to FP. -/
  | fcvtDL (c : CoreId) (single : Bool) (fd : FReg) (rs1 : DReg)
  /-- FCVT_L_D (R204): FCVT.L.D converts FP to a saturating signed integer. -/
  | fcvtLD (c : CoreId) (single : Bool) (rd : DReg) (fs1 : FReg)
  /-- FCVT_D_S (R204): FCVT.D.S converts binary32 to binary64. -/
  | fcvtDS (c : CoreId) (fd fs1 : FReg)
  /-- FCVT_S_D (R204): FCVT.S.D converts binary64 to binary32. -/
  | fcvtSD (c : CoreId) (fd fs1 : FReg)
  /-- FMV_X (R204): FMV.X moves FP bits to a d register. -/
  | fmvX (c : CoreId) (rd : DReg) (fs1 : FReg)
  /-- FMV_F (R204): FMV.F moves d register bits to an f register. -/
  | fmvF (c : CoreId) (fd : FReg) (rs1 : DReg)
  /-- SRD (R171): SRD reads a system register. -/
  | srd (c : CoreId) (rd : DReg) (num : BitVec 12)
  /-- SWR (R171): SWR writes a system register. -/
  | swr (c : CoreId) (rs1 : DReg) (num : BitVec 12)
  /-- FENCE (R205): FENCE waits until every earlier access of the core has been acknowledged. -/
  | fence (c : CoreId)
  /-- GATE_SYNC (R283): GATE.SYNC waits until this core's entry applies and epoch advances have taken effect. -/
  | gateSync (c : CoreId)
  /-- EWAIT (R213): EWAIT suspends issue until a wake condition. -/
  | ewait (c : CoreId)
  /-- EWAIT_WAKE (R213): A source routed to the current level becomes pending and ends an EWAIT. -/
  | ewaitWake (c : CoreId)
  /-- ERET (R214): ERET returns from the current level and resumes or enters the next level. -/
  | eret (c : CoreId)
  /-- BANKRD (R202): BANKRD reads one register of another level's bank. -/
  | bankrd (c : CoreId) (rd : BitVec 5) (n : BitVec 5) (sel : BitVec 9)
  /-- BANKWR (R202): BANKWR writes one register of another level's bank. -/
  | bankwr (c : CoreId) (rd : BitVec 5) (n : BitVec 5) (sel : BitVec 9)
  /-- TRAP (R221): TRAP raises the trap exception with its code. -/
  | trap (c : CoreId) (code : BitVec 14)
  /-- INTERRUPT_ENTRY (R218): The highest pending level is taken: issue freezes, any spill runs, the bank switches
  and the handler's first word issues. -/
  | interruptEntry (c : CoreId) (spill : EntrySpill)
  /-- EVENT_LATCH (R230): A delivered event source is latched pending at its level in a core's distributor. -/
  | eventLatch (c : CoreId) (src : BitVec 8)
  /-- EVD_DOORBELL (R230): A write to EVD_DOORBELL.RING raises the core's doorbell source EV(c). -/
  | evdDoorbell (w : Writer) (c : CoreId)
  /-- EVD_PEND_CLEAR (R455): A W1C write to EVD_PEND clears pending sources and claims first-claim sources. -/
  | evdPendClear (w : Writer) (c : CoreId) (k : Fin 8) (bits : BitVec 32)
  /-- STORE_ACKNOWLEDGE (R209): A target acknowledges a store-buffer entry or refuses it, raising an imprecise
  store access exception. -/
  | storeAcknowledge (c : CoreId)
  /-- LOAD_RESPONSE (R220): A load, atomic or KCAS response returns from its target and writes the issuing level's
  register, or raises its fault. -/
  | loadResponse (c : CoreId)
  /-- L1_MISS_FILL (R233): The whole 64-byte line of an L1 miss arrives and is filled into the cache. -/
  | l1MissFill (c : CoreId) (fetch : Bool) (line : BitVec 46) (epoch : BitVec 6)
  /-- SLICE_MISS_FILL (R236): A line read from DRAM fills a slice after any dirty victim has been accepted. -/
  | sliceMissFill (line : BitVec 30) (fill : LineFill) (fault : Option SliceFault)
  /-- VICTIM_WRITE_ACCEPTED (R236): The memory controller accepts a dirty victim write, which releases the held
  fill and accesses. -/
  | victimWriteAccepted (sl : SliceId)
  /-- CONVERSION_DONE (R242): A region scratch conversion ends: the added window is mapped, CONV_DONE is set and
  EV(232 + g) is raised. -/
  | conversionDone (g : RegionId)
  /-- WAY_POWER_DOWN_DONE (R243): A way entering power-down has been cleaned and invalidated, its power is removed
  and PD_BUSY clears. -/
  | wayPowerDownDone (g : RegionId)
  /-- CLEAN (R245): A range engine CLEAN writes dirty lines of the range to DRAM. -/
  | clean (w : Writer) (g : RegionId)
  /-- CLEAN_INVAL (R245): A range engine CLEAN_INVAL cleans the lines of the range and removes them from every
  cache. -/
  | cleanInval (w : Writer) (g : RegionId)
  /-- INVAL (R245): A range engine INVAL removes the lines of the range without write-back, if DISCARD is set. -/
  | inval (w : Writer) (g : RegionId) (discard : Bool)
  /-- WARM (R245): A range engine WARM reads the lines of the range into their slices. -/
  | warm (w : Writer) (g : RegionId)
  /-- ZERO (R245): A range engine ZERO sets the lines of the range to zeros and tag 0 without reading DRAM. -/
  | zero (w : Writer) (g : RegionId)
  /-- RANGE_OP_DONE (R246): A range operation completes or stops at a refused line, which sets DONE and raises
  EV(232 + g). -/
  | rangeOpDone (g : RegionId)
  /-- CS_ERASE (R250): CS_CMD OP 1 starts erasing a code store sector. -/
  | csErase (w : Writer) (g : RegionId)
  /-- CS_PROGRAM (R250): CS_CMD OP 2 starts programming a code store row from CS_DATA. -/
  | csProgram (w : Writer) (g : RegionId)
  /-- CS_COMMAND_DONE (R251): A code store erase or program completes, with the row verified and L1 copies
  invalidated. -/
  | csCommandDone (g : RegionId) (verified : Bool)
  /-- REFRESH (R267): An all-bank refresh runs at each tREFI. -/
  | refresh (sub : Fin 8)
  /-- ZQ_CALIBRATION (R267): ZQ calibration and DQS tracking run every 128 ms. -/
  | zqCalibration (sub : Fin 8)
  /-- PATROL_SCRUB (R268): The patrol scrubber reads the next frame, rewrites it if correctable, and raises EV194
  at the end of a pass. -/
  | patrolScrub (errs : FrameErr)
  /-- DRAM_TEMPERATURE (R270): The hottest DRAM device crosses a threshold, changing refresh, throttling or
  reporting a device fault. -/
  | dramTemperature (t : BitVec 8) (sub : BitVec 3) (dev : BitVec 3)
  /-- SWEEP_START (R271): A write of 1 to MEM_SWP_CTRL.START starts a sweep, or discards or refuses it. -/
  | sweepStart (w : Writer) (hold : Bool) (keep : BitVec 6) (rate : BitVec 2)
  /-- SWEEP_PASS_DONE (R271): A sweep pass ends, and when all have ended PASSES_DONE is set and EV195 is raised. -/
  | sweepPassDone (pass : PassEnd)
  /-- SWEEP_RELEASE (R273): A write of 1 to MEM_SWP_CTRL.RELEASE completes a held sweep and updates swept epochs.
  -/
  | sweepRelease (w : Writer)
  /-- GATE_ENT_PENDING_WRITE (R283): A write to GATE_ENT_BASE, TOP or MASTERS changes only the entry's pending
  copy. -/
  | gateEntPendingWrite (w : Writer) (gate : GateId) (e : Fin 256) (which : EntryReg) (v : BitVec 64)
  /-- GATE_ENT_APPLY (R283): A write to GATE_ENT_CTRL applies the whole entry at every instance of its gate, or is
  refused for overlap or lock. -/
  | gateEntApply (w : Writer) (gate : GateId) (e : Fin 256) (ctrl : BitVec 32)
  /-- EPOCH_ADVANCE (R287): A write of 1 to GATE_ENT_EPOCH.ADVANCE advances the entry's epoch, or sets ADV_REFUSED.
  -/
  | epochAdvance (w : Writer) (gate : GateId) (e : Fin 256)
  /-- GATE_VQ_POP (R292): A write of 1 to GATE_VQ_POP removes the head violation record. -/
  | gateVqPop (w : Writer)
  /-- LANE_SIGNAL_DETECT (R298): Signal is detected and the clock recovered on every lane of a link (t1). -/
  | laneSignalDetect (l : LinkId)
  /-- PMD_TRAINING_DONE (R298): PMD link training of a link completes (t2). -/
  | pmdTrainingDone (x : Training)
  /-- FEC_LOCK (R298): PCS alignment and FEC lock are reached and the link enters hello (t3). -/
  | fecLock (l : LinkId)
  /-- LINK_HELLO (R299): The peer's hello arrives, the version is chosen or the link is refused with a reason. -/
  | linkHello (l : LinkId) (h : Hello)
  /-- ATTESTATION_DONE (R300): The Rooks' attestation and key agreement end, so the link goes up, opens or is
  refused. -/
  | attestationDone (l : LinkId) (e : PeerEvidence)
  /-- LINK_USABLE (R298): The link is counted in membership and becomes usable by routes (t6). -/
  | linkUsable (l : LinkId)
  /-- BRINGUP_TIMEOUT (R298): A bring-up step misses its bound, so the link returns to t0 and counts a retrain. -/
  | bringupTimeout (l : LinkId)
  /-- RETRAIN (R298): A write of 1 to MESH_LG_CTRL.RETRAIN restarts bring-up of both links of a lane group. -/
  | retrain (w : Writer) (lg : LgId)
  /-- LINK_LOST (R298): A link drops and returns to training, moving its routes to the alternative links. -/
  | linkLost (l : LinkId)
  /-- BLOCK_RECEIVE (R302): An encrypted block arrives and is acknowledged, or discarded and re-requested on a tag
  or FEC failure. -/
  | blockReceive (l : LinkId) (tagOk fecOk : Bool) (x : BlockNote)
  /-- RESEND_REQUEST (R302): A receiver's request makes the sender resend from the failed block onward. -/
  | resendRequest (l : LinkId) (block : Nat)
  /-- KEY_RENEWAL (R301): After 2^32 blocks or 1 hour the Rooks agree a new link key, which takes over at a block
  boundary. -/
  | keyRenewal (l : LinkId)
  /-- FLIT_FORWARD (R309): A flit for another node is routed to its primary or alternative link, or refused. -/
  | flitForward (l : LinkId) (f : Flit) (data : List Flit)
  /-- RD (R311): An RD request arrives at its home, is checked as master 56 and answered with RDRESP or NACK. -/
  | rd (l : LinkId) (f : Flit)
  /-- WR (R311): A WR request with its data flit arrives at its home and is performed and acknowledged. -/
  | wr (l : LinkId) (f : Flit) (data : Flit)
  /-- ATOM (R311): An ATOM request is performed at the home slice and answered with the old value. -/
  | atom (l : LinkId) (f : Flit)
  /-- KCAS_FLIT (R311): A KCAS request is performed at the home and answered with the old key. -/
  | kcasFlit (l : LinkId) (f : Flit)
  /-- RDRUN (R304): An RDRUN request reads 1 to 16 lines at the home and answers with RUNRESP. -/
  | rdrun (l : LinkId) (f : Flit)
  /-- WRRUN (R304): A WRRUN request writes 1 to 16 lines at the home and is acknowledged. -/
  | wrrun (l : LinkId) (f : Flit) (data : List Flit)
  /-- RDRESP (R311): An RDRESP arrives at the requester and completes its load, with deadline checks. -/
  | rdresp (l : LinkId) (f : Flit)
  /-- RUNRESP (R343): A RUNRESP arrives with line data for a transfer channel's RDRUN. -/
  | runresp (l : LinkId) (f : Flit) (data : List Flit)
  /-- ACK (R311): An ACK arrives and completes a store, atomic or KCAS at the requester. -/
  | ack (l : LinkId) (f : Flit)
  /-- NACK (R311): A NACK arrives and makes the requester raise an access fault with its kind. -/
  | nack (l : LinkId) (f : Flit)
  /-- REQUEST_TIMEOUT (R311): A remote request has no response within MESH_RTO and fails with kind 0x21. -/
  | requestTimeout (tid : BitVec 16)
  /-- MEMBER (R315): A MEMBER flit arrives, updating membership toward the root or flooding it to members. -/
  | member (l : LinkId) (m : MemberMsg)
  /-- GOP (R316): A GOP flit of a barrier, broadcast, snapshot or reset arrives and moves the global operation on.
  -/
  | gop (l : LinkId) (m : GopMsg)
  /-- BARRIER_ARRIVE (R317): MESH_GOP_CMD OP 1 arrives at barrier b. -/
  | barrierArrive (w : Writer) (b : BitVec 4)
  /-- BROADCAST (R318): MESH_GOP_CMD OP 2 sends a broadcast message to the root. -/
  | broadcast (w : Writer) (len : BitVec 6)
  /-- SNAPSHOT (R319): MESH_GOP_CMD OP 3 asks the root for a federation snapshot. -/
  | snapshot (w : Writer)
  /-- FEDERATION_RESET (R320): MESH_GOP_CMD OP 4 asks the root for a federation reset. -/
  | federationReset (w : Writer)
  /-- SNAPSHOT_INSTANT (R319): At T_s each v2 member starts copying its signal records to MESH_SNAP_BASE. -/
  | snapshotInstant
  /-- SNAPSHOT_COPY_DONE (R319): The snapshot copy ends, MESH_SNAP_TIME is written and EV170 is raised. -/
  | snapshotCopyDone
  /-- FEDERATION_RESET_INSTANT (R320): At T_r a member with GRESET_EN performs a device reset, and others raise
  EV171. -/
  | federationResetInstant
  /-- MESH_BC_RX_POP (R328): A write of 1 to MESH_BC_RX_POP removes the head broadcast message. -/
  | meshBcRxPop (w : Writer)
  /-- ETH (R322): An ETH flit frame tunnelled over a link arrives and enters the field switch. -/
  | eth (l : LinkId) (fr : EthFrame)
  /-- GATE_CONTROL_ENTRY (R323): An IEEE 802.1Qbv gate control list interval begins and sets which queues are open.
  -/
  | gateControlEntry (lg : LgId) (e : Fin 64)
  /-- MX_PROD_WRITE (R333): Firmware advances MX_PROD to post matrix descriptors. -/
  | mxProdWrite (w : Writer) (g : RegionId) (index : BitVec 16)
  /-- MATRIX_JOB_START (R333): An enabled matrix engine reads the next descriptor and starts the job. -/
  | matrixJobStart (g : RegionId)
  /-- MATRIX_JOB_DONE (R333): A matrix job ends, writes STATUS and CYCLES, advances MX_CONS and may raise EV(172 +
  g) and stop. -/
  | matrixJobDone (g : RegionId)
  /-- MX_ENABLE (R340): A write to MX_CTRL.ENABLE lets the engine take jobs, or stops it after the running job. -/
  | mxEnable (w : Writer) (g : RegionId) (en : Bool)
  /-- MX_RESUME (R333): A write of 1 to MX_CTRL.RESUME leaves STOPPED. -/
  | mxResume (w : Writer) (g : RegionId)
  /-- MX_ABORT (R340): A write of 1 to MX_CTRL.ABORT ends the running job after its tile with ABORTED. -/
  | mxAbort (w : Writer) (g : RegionId)
  /-- XFR_START (R341): A write of 1 to XFR_CH_CMD.START runs the descriptor chain from XFR_CH_HEAD. -/
  | xfrStart (w : Writer) (n : ChanId)
  /-- XFR_ABORT (R344): A write of 1 to XFR_CH_CMD.ABORT stops the channel after its chunks in flight. -/
  | xfrAbort (w : Writer) (n : ChanId)
  /-- TRANSFER_CHUNK_DONE (R342): A transfer chunk's write is acknowledged and DONE advances, or a refusal stops
  the descriptor. -/
  | transferChunkDone (n : ChanId)
  /-- DESCRIPTOR_DONE (R346): A transfer descriptor ends, STATUS and DONE are written, and the channel continues or
  ends. -/
  | descriptorDone (n : ChanId)
  /-- HOST_READ (R351): A host read through a BAR is checked as master 54 and completed, or completed with
  Completer Abort. -/
  | hostRead (bar : Bar) (off : BitVec 32) (size : Fin 65)
  /-- HOST_WRITE (R351): A host posted write through a BAR is performed, or discarded and reported. -/
  | hostWrite (bar : Bar) (off : BitVec 32) (data : List Byte)
  /-- DOORBELL (R355): A write to MBX_Q_CMD_PROD rings pair q's doorbell and raises EV(216 + q), or sets RING_ERR.
  -/
  | doorbell (q : PairId) (index : BitVec 16)
  /-- COMPLETION_CONSUME (R355): The host advances MBX_Q_CPL_CONS and frees completion slots. -/
  | completionConsume (q : PairId) (index : BitVec 16)
  /-- HOST_RESET (R352): An FLR, D3hot, link loss or PERST# closes every host session and resets the pair
  registers. -/
  | hostReset (kind : HostResetKind)
  /-- LEASE_EXPIRY (R362): The lease of a host or side-band configuration lock expires and the lock is released. -/
  | leaseExpiry
  /-- COALESCING_WINDOW_END (R366): An interrupt coalescing window ends and one message is sent for the completions
  written in it. -/
  | coalescingWindowEnd (q : PairId)
  /-- FW_OUTBOX_POST (R371): Firmware advances MBX_FW_OUT_PROD, which raises MSI-X vector 6. -/
  | fwOutboxPost (w : Writer) (q : PairId) (index : BitVec 16)
  /-- SESSION_OPEN (R356): Opens a session on the pair at a negotiated protocol version. -/
  | sessionOpen (q : PairId)
  /-- SESSION_CLOSE (R356): Completes and then closes the pair's session, invalidating its handles. -/
  | sessionClose (q : PairId)
  /-- NOP (R365): Echoes its payload. -/
  | nop (q : PairId)
  /-- INFO (R354): Returns the information page. -/
  | info (q : PairId)
  /-- LOCK_ACQUIRE (R362): Grants or renews the configuration lock, or reports the holder. -/
  | lockAcquire (q : PairId)
  /-- LOCK_RELEASE (R362): Releases the configuration lock with its token. -/
  | lockRelease (q : PairId)
  /-- LOCK_STATUS (R362): Returns the lock holder and lease end. -/
  | lockStatus (q : PairId)
  /-- IMG_BEGIN (R365): Opens a configuration image upload handle. -/
  | imgBegin (q : PairId)
  /-- IMG_WRITE (R365): Writes image bytes at an offset of the upload. -/
  | imgWrite (q : PairId)
  /-- IMG_STAGE (R376): Verifies and stages the uploaded image into a slot, on every member if it is FEDERATED. -/
  | imgStage (q : PairId) (v : Verdict)
  /-- IMG_COMMIT (R382): Commits the staged image at a chosen instant. -/
  | imgCommit (q : PairId)
  /-- IMG_DISCARD (R380): Discards the staged image. -/
  | imgDiscard (q : PairId)
  /-- TAKEBACK (R388): Takes the module back n moves along the history chain. -/
  | takeback (q : PairId)
  /-- HISTORY (R378): Returns the scoresheet entries, newest first. -/
  | history (q : PairId)
  /-- SIG_OPEN (R365): Opens a signal set handle after checking each record's gate. -/
  | sigOpen (q : PairId)
  /-- SIG_READ (R365): Returns the records of a signal set. -/
  | sigRead (q : PairId)
  /-- OUT_OPEN (R365): Opens an output set handle after checking each output record's gate. -/
  | outOpen (q : PairId)
  /-- OUT_WRITE (R365): Writes output record entries, each followed by a FENCE and a new sequence. -/
  | outWrite (q : PairId)
  /-- SIG_CLOSE (R365): Closes a signal or output set handle. -/
  | sigClose (q : PairId)
  /-- WIN_OPEN (R360): Maps a BAR4 bulk window onto a global range. -/
  | winOpen (q : PairId)
  /-- WIN_CLOSE (R360): Closes a bulk window. -/
  | winClose (q : PairId)
  /-- EVT_SUBSCRIBE (R366): Subscribes an event source to an MSI-X vector. -/
  | evtSubscribe (q : PairId)
  /-- EVT_UNSUBSCRIBE (R366): Removes an event subscription. -/
  | evtUnsubscribe (q : PairId)
  /-- MSG_FW (R361): Delivers a message to the firmware inbox and raises EV(220 + q). -/
  | msgFw (q : PairId)
  /-- MSG_READ (R361): Returns and drains firmware outbox messages. -/
  | msgRead (q : PairId)
  /-- DIAG_PORT (R365): Returns status, fault and network check of a range of ports. -/
  | diagPort (q : PairId)
  /-- DIAG_TDR (R365): Runs reflectometry on a port and returns the result and buffer. -/
  | diagTdr (q : PairId)
  /-- DIAG_ERRLOG (R365): Pops violation records and returns the memory error record. -/
  | diagErrlog (q : PairId)
  /-- REG_READ (R365): Reads a register through gate 13 as master 54. -/
  | regRead (q : PairId)
  /-- TIME_GET (R365): Returns TB_NOW, TB_MONO and TB_STATUS. -/
  | timeGet (q : PairId)
  /-- TIME_STEP (R108): Steps TB_NOW as a TB_STEP write, or completes with STATE. -/
  | timeStep (q : PairId)
  /-- TIME_PHASE (R113): Applies a phase correction as a TB_PHASE write. -/
  | timePhase (q : PairId)
  /-- TWIN_STATUS (R365): Returns the twin role and link state. -/
  | twinStatus (q : PairId)
  /-- CASTLE (R433): Proposes a castling at an instant and ends at hand-over or refusal. -/
  | castle (q : PairId)
  /-- FW_BEGIN (R365): Opens a firmware upload handle. -/
  | fwBegin (q : PairId)
  /-- FW_WRITE (R365): Writes firmware image bytes at an offset of the upload. -/
  | fwWrite (q : PairId)
  /-- FW_ACTIVATE (R367): Has the Rook verify the firmware and writes it as TRIAL into the idle slot. -/
  | fwActivate (q : PairId)
  /-- FW_RESTART (R367): Completes and then restarts the Sheepdog. -/
  | fwRestart (q : PairId)
  /-- FW_CONFIRM (R368): Makes a TRIAL firmware slot ACTIVE. -/
  | fwConfirm (q : PairId)
  /-- FW_STATUS (R368): Returns the state and version of each firmware slot. -/
  | fwStatus (q : PairId)
  /-- SHEEPDOG_RESTART (R368): The Sheepdog restarts: MBX_STATE reads 5, sessions close and a host lock is
  released. -/
  | sheepdogRestart
  /-- SHEEPDOG_READY (R368): The restarted Sheepdog reaches MBX_STATE 3. -/
  | sheepdogReady
  /-- TRIAL_TIMEOUT (R368): A TRIAL image misses its 10 s start or 60 s confirm and the Sheepdog restarts from the
  other slot. -/
  | trialTimeout
  /-- FEDERATED_IMAGE_RECEIVE (R377): A member receives a FEDERATED image over the mesh, takes its lock for the
  federation and stages it or refuses. -/
  | federatedImageReceive (from_ : BitVec 12) (image : List Byte) (slot : SlotId) (v : Verdict)
  /-- MEMBER_STAGING_ANSWER (R377): A member's staging answer reaches the originator, which completes IMG_STAGE or
  discards everywhere. -/
  | memberStagingAnswer (node : BitVec 12) (ok : Bool)
  /-- FEDERATION_HOLD_TIMEOUT (R377): 600 s pass after staging with no PREPARE, so the member discards the image
  and releases its federation hold. -/
  | federationHoldTimeout
  /-- PREPARE (R381): A PREPARE reaches a member, which programs CODE sectors, copies CAL sections and checks
  staged values. -/
  | prepare (move : BitVec 32) (digest : BitVec 256)
  /-- PREPARE_DONE (R381): A member's prepare ends and it answers ready or refused. -/
  | prepareDone
  /-- MEMBER_ANSWER (R382): A prepare answer reaches the originator, which chooses C and sends COMMIT or ABORT when
  all have answered. -/
  | memberAnswer (node : BitVec 12) (reason : BitVec 8)
  /-- ANSWER_TIMEOUT (R382): A member is silent 60 s after PREPARE and counts as refused. -/
  | answerTimeout (node : BitVec 12)
  /-- COMMIT_MESSAGE (R384): COMMIT(C) reaches a member, which schedules C or commits late at the next 100 µs
  multiple. -/
  | commitMessage (at_ : BitVec 64)
  /-- ABORT_MESSAGE (R382): An ABORT reaches a member, which returns to R380 with the image still staged. -/
  | abortMessage (discard : Bool)
  /-- GATE_SECTION_APPLY (R383): After C the FSW entries take effect and the Sheepdog applies the GATE sections
  (t5). -/
  | gateSectionApply
  /-- COMMIT_REPORT (R382): A member's committed move is reported to the originator (t6). -/
  | commitReport (node : BitVec 12) (move : BitVec 32) (late : Bool)
  /-- ORPHAN_TIMEOUT (R384): A prepared member receives neither COMMIT nor ABORT within 90 s and aborts with
  ORPHAN. -/
  | orphanTimeout
  /-- PROBATION_END (R386): C + PROB_MS arrives, which settles the move or fails it for a missing ACCEPT. -/
  | probationEnd
  /-- TAKEBACK_REQUEST (R387): A failed probation requests an automatic take-back of the previous settled move. -/
  | takebackRequest (member : Option (BitVec 12))
  /-- COMMIT_DIRECT_VALUES (R391): CFG_CMD OP 1 commits the direct values as a LOCAL move. -/
  | commitDirectValues (w : Writer)
  /-- CFG_DISCARD (R390): CFG_CMD OP 2 discards the staged values. -/
  | cfgDiscard (w : Writer)
  /-- ACCEPT (R386): CFG_CMD OP 3 ends probation at once with success. -/
  | accept (w : Writer)
  /-- REJECT (R386): CFG_CMD OP 4 fails the probation. -/
  | reject (w : Writer)
  /-- CFG_TAKEBACK (R388): CFG_CMD OP 5 takes back MOVES moves. -/
  | cfgTakeback (w : Writer) (moves : BitVec 3)
  /-- PRESENCE_MATE (R419): PRES_A and PRES_B are both mated and presence is established. -/
  | presenceMate
  /-- PRESENCE_LOSS (R435): A presence contact breaks and the module runs its loss response with outputs off. -/
  | presenceLoss (b : Bool)
  /-- FEED_LOSS (R435): Both feeds stay below 16.0 V for 50 µs and the module runs its loss response. -/
  | feedLoss
  /-- LOSS_STANDBY_TIMEOUT (R435): A twin primary's standby has not claimed by t0 + 1 ms, so every output goes off.
  -/
  | lossStandbyTimeout
  /-- HOLDUP_END (R435): Hold-up ends and every contact goes to high impedance. -/
  | holdupEnd
  /-- TWIN_CLAIM_TIMEOUT (R423): No heartbeat has been sent for 30 µs, so the claim driver releases TWIN_CLAIM. -/
  | twinClaimTimeout
  /-- PEER_CLAIM_CHANGE (R424): TWIN_PEER_CLAIM changes and the port dies enable or release drive. -/
  | peerClaimChange (asserted : Bool)
  /-- PEER_CLAIM_LOST_TAKEOVER (R434): A ready standby has seen the peer claim deasserted for 2 µs and schedules a
  take-over at H. -/
  | peerClaimLostTakeover
  /-- HEARTBEAT_SEND (R428): Every 10 µs a twin module sends a HEARTBEAT flit, which retriggers its claim driver.
  -/
  | heartbeatSend
  /-- HEARTBEAT (R428): A HEARTBEAT flit arrives from the twin, carrying role, flags, castling proposal or
  acknowledgement. -/
  | heartbeat (hb : Heartbeat)
  /-- HEARTBEAT_LOSS (R428): Three expected heartbeats are missing, so LOSS is set and EV244 is raised. -/
  | heartbeatLoss
  /-- MIRROR (R429): A MIRROR flit arrives and the standby stores the mirrored state or writes window lines. -/
  | mirror (m : MirrorMsg)
  /-- TWIN_SYNC_START (R427): With both twins in full service and the link attested, synchronisation of the standby
  starts. -/
  | twinSyncStart
  /-- TWIN_SYNC_COMMIT (R427): The standby commits the primary's settled image as a take-back once it has verified.
  -/
  | twinSyncCommit (scores image : List Byte) (slot : SlotId) (v : Verdict)
  /-- TWIN_READY (R427): Synchronisation is done and the standby is locked, so it sets READY and raises EV244. -/
  | twinReady
  /-- MIRROR_PASS (R430): At an MSLOT instant the primary starts a window mirror pass if the previous one has
  ended. -/
  | mirrorPass
  /-- MIRROR_PASS_END (R430): A window mirror pass has written every line and TWIN_MIR_PASS advances. -/
  | mirrorPassEnd
  /-- TWIN_CMD_CASTLE (R433): A write of 1 to TWIN_CMD.CASTLE proposes a castling at TWIN_CASTLE_AT. -/
  | twinCmdCastle (w : Writer)
  /-- HANDOVER_CLAIM (R432): At H − 2 µs the standby asserts TWIN_CLAIM and the primary releases its outputs and
  claim. -/
  | handoverClaim
  /-- HANDOVER (R432): At H the new primary takes ROLE primary and applies its codes in one clock. -/
  | handover
  /-- CASTLING_DONE (R432): The DAC settles after H, TWIN_LAST_H is set, CASTLED is set and EV245 is raised. -/
  | castlingDone
  /-- EJECT_PRESS (R436): The eject switch is pressed, so EJECT_REQ is set, EV244 raised and castling may be
  proposed. -/
  | ejectPress
  /-- EJECT_HOLD_TIMEOUT (R436): The eject switch stays pressed for 5 s and the module enters removal. -/
  | ejectHoldTimeout
  /-- REMOVE (R436): A write of 1 to TWIN_CMD.REMOVE enters removal. -/
  | remove (w : Writer)
  /-- CANCEL_EJECT (R436): A write of 1 to TWIN_CMD.CANCEL_EJECT clears the eject request. -/
  | cancelEject (w : Writer)
  /-- ESCALATION (R441): A fault count exceeds its limit in the window, raising a fresh region or device fault. -/
  | escalation (region : Option RegionId) (blocks : Bool)
  /-- RELEASE (R443): A write to FLT_CMD.RELEASE ends a region's hold or safe. -/
  | release (w : Writer) (g : RegionId)
  /-- RELEASE_D (R444): A write to FLT_CMD.RELEASE_D ends a device safe action. -/
  | releaseD (w : Writer)
  /-- CORE_RESET (R449): FLT_RST kind 1 resets a core cell. -/
  | coreReset (w : Writer) (c : CoreId)
  /-- PORT_RESET (R449): FLT_RST kind 2 resets a port through the mode-change sequence. -/
  | portReset (w : Writer) (p : PortId)
  /-- LANE_RESET (R449): FLT_RST kind 3 returns a lane's link to training. -/
  | laneReset (w : Writer) (l : Fin 32)
  /-- SLICE_RESET (R449): FLT_RST kind 4 cleans and invalidates a slice and clears its parity state. -/
  | sliceReset (w : Writer) (sl : SliceId)
  /-- PIPELINE_RESET (R449): FLT_RST kind 5 restarts a sample pipeline. -/
  | pipelineReset (w : Writer) (b : BlockId)
  /-- TRANSFER_CHANNEL_RESET (R449): FLT_RST kind 6 stops a transfer channel with ABORTED. -/
  | transferChannelReset (w : Writer) (n : ChanId)
  /-- CORE_BLOCK_RESET (R449): FLT_RST kind 7 resets the four cores of a core block. -/
  | coreBlockReset (w : Writer) (k : Fin 8)
  /-- PORT_BLOCK_RESET (R449): FLT_RST kind 8 resets the 32 ports of a port block. -/
  | portBlockReset (w : Writer) (b : BlockId)
  /-- LANE_GROUP_RESET (R449): FLT_RST kind 9 resets the four lanes of a lane group. -/
  | laneGroupReset (w : Writer) (lg : LgId)
  /-- REGION_RESET (R451): FLT_RST kind 10 starts a region reset, stopping the region's masters and unmapping its
  targets. -/
  | regionReset (w : Writer) (g : RegionId)
  /-- DEVICE_RESET (R452): FLT_RST kind 11 resets the device, releasing TWIN_CLAIM and restarting from t1 of
  start-up. -/
  | deviceReset (w : Writer)
  /-- REGION_RESET_ZEROED (R451): The region's memories are zeroed and its gates, clocks and engines are at reset
  values (t4). -/
  | regionResetZeroed (g : RegionId)
  /-- REGION_RESTART (R451): At C_r the region's ST fields take effect, port die frames resume and its cores leave
  reset. -/
  | regionRestart (g : RegionId)
  /-- REGION_GATE_REAPPLY (R451): The Sheepdog re-applies the region's GATE sections and FLT_RGN_STATE returns to
  0. -/
  | regionGateReapply (g : RegionId)
  /-- AUTOMATIC_CELL_RESET (R450): In federated mode a halted core cell is reset 1 ms after its halt. -/
  | automaticCellReset (c : CoreId)
  /-- FLT_Q_POP (R457): A write of 1 to FLT_Q_POP removes the head fault record. -/
  | fltQPop (w : Writer)
  /-- EVR_SW (R453): A write to EVR_SW raises software sources EV252 to EV255. -/
  | evrSw (w : Writer) (bits : BitVec 4)
  /-- DOMAIN_WAKE_DONE (R461): A domain's wake time ends and its contents become usable. -/
  | domainWakeDone (d : Fin 66)
  /-- DOMAIN_FAULT (R462): A domain misses regulation or trips overcurrent, so it is switched off, marked in
  PWR_DOM_FAULT and EV243 is raised. -/
  | domainFault (d : Fin 66)
  /-- TEMPERATURE_SAMPLE (R468): Every 10 ms the inlet and junction temperatures are read and the throttle step is
  updated. -/
  | temperatureSample (inlet : BitVec 16) (junction : Junctions)
  /-- FEED_RANGE_CHANGE (R472): A feed enters or leaves 18 to 60 V and EV240 is raised. -/
  | feedRangeChange (b : Bool) (v : BitVec 12)
  /-- PWR_INPUT_WRITE (R473): Any write to PWR_INPUT clears the peak draw. -/
  | pwrInputWrite (w : Writer)
  /-- ILLEGAL_OPCODE (R173): A fetched word with a reserved major, function or short op, or bit 0 set in a pair,
  raises an illegal-opcode fault and performs nothing. -/
  | illegalOpcode (c : CoreId) (word : BitVec 32)
  /-- INSTRUCTION_FETCH_FAULT (R141): The fetch of the next word through ip fails its key check, alignment or
  target and raises the fault on the word it would have supplied. -/
  | instructionFetchFault (c : CoreId)
  /-- CREDIT_RETURN (R308): A credit returns to a sender when its flit leaves the receiver's buffer, letting a
  stalled VC send again. -/
  | creditReturn (l : LinkId) (vc : Fin 4)
  /-- COMMIT_REPORT_TIMEOUT (R386): At C + 1 s a member of a FEDERATED move that has not reported its committed
  move fails the probation at the originator. -/
  | commitReportTimeout
  /-- SPINE_PARITY_ERROR (R439): A parity error in a spine unit raises a device-level fault with cause 0x0D. -/
  | spineParityError (unit : BitVec 64)
  /-- EJECT_RELEASE (R436): The eject switch is released, which clears CAR_STATUS.EJECT and stops the 5 s hold
  toward removal. -/
  | ejectRelease
  /-- PEER_PRESENCE_CHANGE (R437): TWIN_PEER_PRES changes as the peer module is inserted or withdrawn, updating
  TWIN_STATUS.PEER_PRES. -/
  | peerPresenceChange (present : Bool)
  /-- SIDEBAND_SESSION_CLOSE (R404): A side-band session closes and EV249 is raised. -/
  | sidebandSessionClose (sess : SbId)
  /-- HOST_LINK_RETURN (R352): The PCI Express link returns to L0 or an FLR completes, after which the Sheepdog
  accepts new sessions within 10 ms. -/
  | hostLinkReturn
  /-- CONFIGURATION_REQUEST (R392): A PCI Express configuration request reaches the endpoint and is answered, with
  Configuration Request Retry Status until t6. -/
  | configurationRequest (req : ConfigReq)
  /-- ROOK_VERIFICATION_DONE (R367): The Rook finishes verifying an uploaded image, after which FW_ACTIVATE writes
  the TRIAL slot or completes with VERIFY. -/
  | rookVerificationDone (v : Verdict)
  /-- ETHERNET_PORT_LINK_CHANGE (R322): An Ethernet-mode lane group's port goes up or down after Clause 73
  auto-negotiation, changing MESH_LG_STATUS.ETH_UP. -/
  | ethernetPortLinkChange (lg : LgId) (up : Bool)
  /-- EGRESS_FRAME_TRANSMIT (R55): A frame leaves an egress queue of the field switch, freeing its buffer and
  taking its transmit timestamp. -/
  | egressFrameTransmit (member : Fin 1033)
  /-- SLEW_COMPLETE (R108): The outstanding time correction has been slewed out and TB_STATUS.SLEWING returns to 0.
  -/
  | slewComplete
  /-- CHAIN_SETTLING_END (R72): A chain's settling time after a commit ends and SETTLING_A or SETTLING_B clears. -/
  | chainSettlingEnd (p : PortId) (chainB : Bool)
  /-- TIME_KEEPER_COUNT_LOST (R400): The time keeper's storage capacitor is exhausted after 72 h without a feed and
  the keeper loses its count. -/
  | timeKeeperCountLost
  deriving DecidableEq, Repr

end Sys2Proof
end

