-- ==== Sys2Proof/Decode.lean ====
section
/-!
DEFINITION. Sys2Proof/Decode.lean: the command a word of the table's bits spells. No row of the command table gives
bits, so no word spells a command. (The words of the Lurik cores are in Machine/Lurik.lean.)
-/
namespace Sys2Proof

/-- The command spelled by `nbits` bits `w`: none, since no row of the table gives bits. -/
def decodeTableWord (_nbits _w : Nat) : Option Instr := none

end Sys2Proof
end

