-- ==== Sys2Proof/Config.lean ====
section
/-!
DEFINITION. Sys2Proof/Config.lean: what the spec leaves to the implementation, as constants with no body, and the
free values, constants without a body applied to the counter Mod.freeCtr or to the operands they belong to.
No proof can see a value of any of them.
-/
namespace Sys2Proof.Config

/-- Whether tininess is detected after rounding; IEEE 754-2019, which R203 names, leaves it to the part. -/
opaque tinyAfterRounding : Bool
/-- Whether infinity times zero plus a quiet NaN signals invalid in FMA; IEEE 754-2019 leaves it to the part. -/
opaque fmaQuietInvalid : Bool
/-- The input of a record during a mode change whose source has none (R73 gives no x for it): x in the low 64 bits, the
raw field above. -/
opaque noSource : Nat → BitVec 96
/-- Lock tokens (R362): the spec gives no value. -/
opaque lockToken : Nat → BitVec 32
/-- Debug challenges (R414), 16 bytes: the spec gives no value. -/
opaque challenge : Nat → BitVec 128
/-- Identity signatures and evidence (R411, R412): the spec gives no value. -/
opaque evidence : Nat → BitVec 512
/-- The word at a place of a reflectometry buffer after a run that ended early (R54): undefined. -/
opaque tdrWord : Nat → Nat → BitVec 16
/-- A code store byte after a power loss in an operation on its sector (R251), undefined, or after a program that failed
its verification (R250), not stated. -/
opaque codeStoreByte : Nat → Nat → BitVec 8
/-- The IDCODE of the IEEE 1149.1 port (R414): the spec gives no value. -/
opaque idcode : BitVec 32
/-- The X.509 certificate of the device identity key (R411): the spec gives no value. -/
opaque identityCert : List Byte
/-- An ephemeral P-256 public key of the Rook (R413): the spec gives no value. -/
opaque ephemeral : Nat → BitVec 512
/-- HKDF-SHA-256 over the ECDH secret of the two ephemeral keys and over the two nonces (R413): this side's first. -/
opaque linkKey : BitVec 512 → BitVec 512 → BitVec 128 → BitVec 128 → BitVec 256
/-- The key of a new agreement of the Rooks (R301): the spec gives no value. -/
opaque renewedKey : Nat → BitVec 256
/-- The master a patrol read refused before READY is reported under (R265): R22 gives the patrol scrubber no master ID. -/
opaque patrolMaster : BitVec 6
/-- Hello nonces (R413): the spec gives no value. -/
opaque linkNonce : Nat → BitVec 128
/-- The payload of a GOP, MEMBER or MIRROR flit for its message (R304): no layout is given. -/
opaque gopBits : GopMsg → BitVec 512
opaque memberBits : MemberMsg → BitVec 512
opaque mirrorBits : MirrorMsg → BitVec 512
/-- The AES-256-GCM tag of a block for its key, the nonce and the flits (R301). -/
opaque gcmTag : BitVec 256 → BitVec 96 → List (BitVec 640) → BitVec 128
/-- A byte of an upload that no IMG_WRITE or FW_WRITE has written, as an image that is taken from it holds it: not stated. -/
opaque uploadByte : Nat → Nat → BitVec 8
/-- The firmware version of a Sheepdog image (R354, R368), whose layout the spec does not give. -/
opaque fwVersion : List Byte → BitVec 32
/-- Subsystem IDs of the PCI Express endpoint: the spec gives none (R349). -/
opaque pciSubsystem : BitVec 32
/-- The Link Status register of the endpoint: the rate and width it trained at (R349). -/
opaque pciLink : BitVec 16
/-- The draw at the feeds, its peak, and the energy of the hold-up store as they are measured (R473). -/
opaque feedDraw : Nat → BitVec 32
opaque holdupEnergy : Nat → BitVec 32
/-- Cycles a matrix job's operands outside its own region scratch add (R338), or a job that fails takes: no formula. -/
opaque mxStall : Nat → BitVec 32
/-- Whether ALPHA multiplies the element of A, rounded, before the fused multiply-add of GEMM or GEMV, or that of B (R334, R335): which one
is not stated. The argument tells binary32. -/
opaque mxAlphaOnA : Bool → Bool
/-- Whether x - ALPHA × (H × x + g) of PGSTEP is rounded once, or the product first: not stated (R335). -/
opaque mxPgOnce : Bool → Bool
/-- The tile a matrix engine is at when an ABORT reaches it (R340): a matter of timing. -/
opaque mxTileAt : Nat → BitVec 64

/-- The register pairs of a schema 3 REG section as BV1024 registers, and the other sections' parameter and content (R379), none where a value
has no equivalent: the spec gives the BV256's fields no layout. -/
opaque convertPairs : List Byte → Option (List (Nat × Nat))
opaque convertSection : Nat → Nat → List Byte → Option (Nat × List Byte)
/-- The Rook's countersignature of a LOCAL image, over its build digest: the spec gives no value. -/
opaque localSig : List Byte → BitVec 512

end Sys2Proof.Config
end

