-- ==== Sys2Proof/Machine/Bits.lean ====
section
/-!
DEFINITION. Sys2Proof/Machine/Bits.lean: bit fields, sign extension, byte order and counters.
-/
namespace Sys2Proof.Machine

/-- Bits [lo + w - 1 : lo] of a number. -/
def bitsOf (n lo w : Nat) : Nat := (n >>> lo) % 2 ^ w

/-- A number with bits [lo + w - 1 : lo] replaced by `v`. -/
def withBits (n lo w v : Nat) : Nat :=
  n % 2 ^ lo + (v % 2 ^ w) * 2 ^ lo + (n >>> (lo + w)) * 2 ^ (lo + w)

/-- Bit `i` of a number. -/
def bitAt (n i : Nat) : Bool := bitsOf n i 1 == 1

/-- A truth value as a one-bit number. -/
def b2n (b : Bool) : Nat := if b then 1 else 0

/-- Counters saturate at 0xFFFF_FFFF (R104, R128, R252, R291, R326, R347, R437, R457, R473). -/
def satAdd32 (n k : Nat) : Nat := Nat.min (n + k) 0xFFFFFFFF

/-- The signed value of the low `w` bits of a number. -/
def signedOf (w n : Nat) : Int :=
  let v := n % 2 ^ w
  if v < 2 ^ (w - 1) then (v : Int) else (v : Int) - (2 ^ w : Nat)

/-- The low `w` bits of an integer. -/
def wrapTo (w : Nat) (z : Int) : Nat := (z % ((2 ^ w : Nat) : Int)).toNat

/-- An integer clamped to the signed range of `w` bits, as its low `w` bits. -/
def clampTo (w : Nat) (z : Int) : Nat :=
  let hi : Int := (2 ^ (w - 1) : Nat) - 1
  let lo : Int := - ((2 ^ (w - 1) : Nat) : Int)
  wrapTo w (if z > hi then hi else if z < lo then lo else z)

/-- The `k` bytes of a number, least significant first (R3). -/
def leBytes : Nat → Nat → List Byte
  | 0, _ => []
  | k + 1, n => BitVec.ofNat 8 n :: leBytes k (n / 256)

/-- The number of a list of bytes, least significant first (R3). -/
def ofLeBytes : List Byte → Nat
  | [] => 0
  | b :: bs => b.toNat + 256 * ofLeBytes bs

/-- One bit of the CRC-32 of IEEE 802.3, least significant bit first. -/
def crcBit (c : Nat) : Nat := if c % 2 = 1 then (c / 2) ^^^ 0xEDB88320 else c / 2

/-- One byte of it. -/
def crcByte (c : Nat) (b : Byte) : Nat := crcBit (crcBit (crcBit (crcBit (crcBit (crcBit (crcBit (crcBit (c ^^^ b.toNat))))))))

/-- CRC-32 of IEEE 802.3. -/
def crc32 (l : List Byte) : Nat := (l.foldl crcByte 0xFFFFFFFF) ^^^ 0xFFFFFFFF

/-- The numbers 0 to n - 1. -/
def upTo (n : Nat) : List Nat := List.range n

/-- The numbers a to a + n - 1. -/
def span (a n : Nat) : List Nat := (List.range n).map (a + ·)

/-- The indices below `n` whose bit of `w` is set. -/
def setBits (n w : Nat) : List Nat := (List.range n).filter (bitAt w)

/-- The smallest multiple of `p` at or after `t`; `t` itself for p = 0. -/
def nextMultiple (p t : Nat) : Nat := if p = 0 then t else ((t + p - 1) / p) * p

/-- Whether a producer index may move from `prod` to `new` with the consumer at `cons` (R95). -/
def prodMoves (prod cons new slots : Nat) : Bool :=
  let ahead := fun (i : Nat) => (i + 65536 - cons) % 65536
  decide (ahead prod ≤ ahead new) && decide (ahead new ≤ slots)

/-- Whether a consumer index may move from `cons` to `new` with the producer at `prod` (R95). -/
def consMoves (prod cons new : Nat) : Bool :=
  decide ((new + 65536 - cons) % 65536 ≤ (prod + 65536 - cons) % 65536)

/-- A mask of the numbers below `n` that satisfy a test. -/
def maskOf (n : Nat) (f : Nat → Bool) : Nat := (upTo n).foldl (fun a j => if f j then a + 2 ^ j else a) 0

end Sys2Proof.Machine
end

