-- ==== Sys2Proof/Machine/RegMap.lean ====
section
/-!
DEFINITION. Sys2Proof/Machine/RegMap.lean: every register of the module, from the register tables of the spec
(R61 to R63, R101 to R104, R129 to R132, R230, R252 to R254, R274, R291 to R294, R326 to R329, R347, R348,
R369 to R371, R390, R415, R437, R457, R473) at the offsets of R19, with each field's place, type and reset value.
The registers of BAR0 (R369, R370) stand at offsets from 0x1000_0000, outside register space.
-/
namespace Sys2Proof.Machine

/-- The registers, by the spec's names; an array is one name with an instance number. -/
inductive Reg where
  | PBLK_ID | PBLK_CARRIER | PBLK_FAULT_SUM | PBLK_LINK_UP | PBLK_CLASS | PBLK_CTRL | PBLK_TDR_OWNER | PBLK_TEMP
  | PORT_MODE | PORT_THRESH | PORT_FILTER | PORT_SAFE | PORT_LINK_CTRL | PORT_HART_CTRL | PORT_DIAG_CTRL
  | PORT_TDR_CTRL | PORT_STATUS | PORT_FAULT | PORT_FAULT_EN | PORT_NETCHK | PORT_COUNT_LO | PORT_COUNT_HI
  | PORT_LINK_ERR | PORT_RAW | PORT_OUT | PORT_TDR_RESULT | FSW_CTRL | FSW_STATUS | FSW_TBL_CMD | FSW_TBL_DATA
  | FSW_DROP_VLAN | FSW_DROP_FULL | FSW_DROP_NOLINK | FSW_DROP_BUF | SPL_BLK_ID | SPL_BLK_CTRL | SPL_BLK_DR
  | SPL_BLK_LOAD | SPL_BLK_STATUS | SPL_BLK_OUT_PEND | SPL_PORT_CHA | SPL_PORT_CHB | SPL_PORT_OGAIN
  | SPL_PORT_OOFFSET | SPL_PORT_PULSE | SPL_PORT_STATUS | SPL_REC_CTRL | SPL_REC_HYST | SPL_REC_GAIN
  | SPL_REC_OFFSET | SPL_REC_SCALE | SPL_REC_BIAS | SPL_REC_LIM_HH | SPL_REC_LIM_H | SPL_REC_LIM_L | SPL_REC_LIM_LL
  | SPL_REC_RATE | SPL_REC_CUT | SPL_RGN_CAL | SPL_RGN_LRX_PROD | SPL_RGN_LRX_CONS | SPL_RGN_LRX_DROP
  | SPL_RGN_LTX_PROD | SPL_RGN_LTX_CONS | SPL_RGN_LTX_ERR | SPL_RGN_HRX_PROD | SPL_RGN_HRX_CONS | SPL_RGN_HRX_DROP
  | SPL_RGN_HTX_PROD | SPL_RGN_HTX_CONS | SPL_RGN_STATUS | SPL_RGN_OUT_LATE | SPL_RGN_OUT_REFUSED | TB_CTRL
  | TB_STATUS | TB_GM_NODE | TB_OFFSET | TB_NOW | TB_MONO | TB_FREQ | TB_PHASE | TB_STEP | TB_PPS_SEC
  | TB_PPS_DELAY | TB_DL_LATE_RX | TB_DL_LATE_TX | TB_STEP_LAST | TB_ASYM | SCH_PERIOD | SCH_DELAY | SCH_NEXT
  | SCH_COUNT | SCH_STATUS | CLK_GSTATUS | CLK_FALL_SUM | CLK_CTRL | CLK_SRC | CLK_LIMIT | CLK_MIN | CLK_BIND
  | CLK_BIND_MASK | CLK_CMD | CLK_STATUS | CLK_FALLS | CLK_ELAPSED | CLK_FALL_TIME | EVD_ID | EVD_DOORBELL
  | EVD_STATUS | EVD_LAST | EVD_SRC | EVD_PEND | SC_RGN_CTRL | SC_RGN_SCRATCH | SC_RGN_WAYPD | SC_RGN_STATUS
  | SC_RNG_BASE | SC_RNG_LEN | SC_RNG_CMD | SC_RNG_STATUS | SC_RNG_COUNT | SC_RNG_SKIPPED | SC_RNG_FAIL | SC_SL_CE
  | SC_SL_ERR | SC_SL_ERR_ADDR | SC_SL_ERR_LOC | CS_CMD | CS_ADDR | CS_STATUS | CS_ERASES | CS_DATA | MEM_STATUS
  | MEM_TEMP | MEM_PATROL_CTRL | MEM_PATROL_POS | MEM_PATROL_PASSES | MEM_CE_THR | MEM_ERR_STATUS | MEM_ERR_DEVMASK
  | MEM_ERR_ADDR | MEM_ERR_TIME | MEM_CE_COUNT | MEM_UE_COUNT | MEM_SWP_NODE | MEM_SWP_LO | MEM_SWP_HI
  | MEM_SWP_CTRL | MEM_SWP_STATUS | MEM_SWP_POS | MEM_SWP_CLEARED | GATE_VQ_STATUS | GATE_VQ_POP | GATE_VQ_LOST
  | GATE_UNMAPPED_COUNT | GATE_VQ_HEAD | GATE_G_ID | GATE_G_CTRL | GATE_G_STATUS | GATE_G_COUNT | GATE_ENT_BASE
  | GATE_ENT_TOP | GATE_ENT_MASTERS | GATE_ENT_CTRL | GATE_ENT_EPOCH | MESH_LG_CTRL | MESH_LG_STATUS | MESH_LG_VCW
  | MESH_LINK_STATUS | MESH_LINK_CRED | MESH_LINK_CRED2 | MESH_LG_FEC_CORR | MESH_LG_FEC_UNC | MESH_LG_AUTH_FAIL
  | MESH_LG_RESEND | MESH_LG_RETRAINS | MESH_LG_LANE | MESH_TSN_CTRL | MESH_TSN_BASE | MESH_TSN_CYCLE
  | MESH_TSN_CBS | MESH_TSN_GCL | MESH_CTRL | MESH_FED_ID | MESH_STATUS | MESH_RTO | MESH_DL | MESH_ERR
  | MESH_ERR_COUNT | MESH_GOP_CMD | MESH_GOP_STATUS | MESH_BAR_PART | MESH_BAR_DONE | MESH_SNAP_BASE
  | MESH_SNAP_LEAD | MESH_SNAP_TIME | MESH_BC_TX | MESH_BC_RX_STATUS | MESH_BC_RX_POP | MESH_BC_RX_HEAD
  | MESH_BC_RX_DATA | MESH_MEMBER | MESH_ROUTE | MX_CTRL | MX_STATUS | MX_RING_BASE | MX_RING_SIZE | MX_PROD
  | MX_CONS | MX_FAIL | MX_JOBS | MX_CYCLES | XFR_CH_HEAD | XFR_CH_CMD | XFR_CH_STATUS | XFR_CH_CUR | XFR_CH_DONE
  | XFR_CH_FAIL | MBX_ID | MBX_STATE | MBX_LOCK | MBX_INTR_COAL | MBX_HOST_ERR | MBX_Q_CMD_PROD | MBX_Q_CMD_CONS
  | MBX_Q_CPL_PROD | MBX_Q_CPL_CONS | MBX_Q_STATUS | MBX_FW_IN_PROD | MBX_FW_IN_CONS | MBX_FW_OUT_PROD
  | MBX_FW_OUT_CONS | CFG_STATUS | CFG_MOVE_SETTLED | CFG_MOVE_PROB | CFG_MOVE_STAGED | CFG_CMD | CFG_COMMIT_AT
  | CFG_COMMIT_TIME | CFG_PROB_END | CFG_REACH | CFG_PROB_FALLS | CFG_PROB_VIOL | CFG_SVIEW_ADDR | CFG_SVIEW_DATA
  | CFG_DEVICE | CFG_SLOT_STATE | CFG_SLOT_MOVE | ROOK_STATUS | ROOK_ID | ROOK_OWNER | ROOK_SVN | ROOK_DBG
  | ROOK_DBG_LEFT | ROOK_DBG_CHAL | ROOK_ALERT | GOOSE_CTRL | GOOSE_STATUS | CAR_STATUS | TWIN_CTRL | TWIN_STATUS
  | TWIN_CMD | TWIN_CASTLE_AT | TWIN_LAST_H | TWIN_HB_MISS | TWIN_MIR_PASS | TWIN_MIR_BASE | TWIN_MIR_LEN
  | FLT_CTRL | FLT_ESC | FLT_ESC_WIN | FLT_RGN_ACT | FLT_DEV_ACT | FLT_CMD | FLT_RST | FLT_RST_STATUS
  | FLT_RGN_STATE | FLT_Q_STATUS | FLT_Q_POP | FLT_Q_LOST | FLT_Q_HEAD | FLT_SUM_CELL | FLT_SUM_BLOCK
  | FLT_FED_LAST | EVR_ROUTE_LO | EVR_ROUTE_HI | EVR_SW | EVR_UNROUTED | EVR_LAST_CLAIM | PWR_DOM_EN0 | PWR_DOM_EN1
  | PWR_DOM_STATE | PWR_DOM_FAULT | PWR_FEED | PWR_INPUT | PWR_HOLDUP | PWR_TEMP | PWR_THR_CTRL | PWR_THR_STATUS
  | PWR_THR_TIME
  deriving DecidableEq, Repr

/-- The access types of R6. -/
inductive FTy where
  | rw | ro | wo | w1c | rwl | st
  deriving DecidableEq, Repr

/-- A field of a register: its place, type, reset value and reserved encodings (R7) as inclusive ranges. -/
structure Field where
  lo : Nat
  width : Nat
  ty : FTy
  reset : Nat
  resv : List (Nat × Nat)
  deriving DecidableEq, Repr

/-- A named field: the register and its bits. -/
structure Fld where
  reg : Reg
  lo : Nat
  width : Nat
  deriving DecidableEq, Repr

/-- The number of entries of gate `n` (R275); 0 for an unassigned gate. -/
def gateEntries (n : Nat) : Nat :=
  if n = 0 then 256
  else if n ≤ 8 then 32
  else if n ≤ 13 then 128
  else if n = 14 then 32
  else if 16 ≤ n ∧ n < 48 then 16
  else 0

/-- The fields of each register. -/
def Reg.fields : Reg → List Field
  | .PBLK_ID => [⟨0, 5, .ro, 0, []⟩, ⟨5, 3, .ro, 0, []⟩, ⟨8, 2, .ro, 0, []⟩]
  | .PBLK_CARRIER => [⟨0, 1, .ro, 0, []⟩, ⟨1, 1, .ro, 0, []⟩, ⟨2, 1, .ro, 0, []⟩, ⟨3, 1, .ro, 0, []⟩]
  | .PBLK_FAULT_SUM => [⟨0, 32, .ro, 0, []⟩]
  | .PBLK_LINK_UP => [⟨0, 32, .ro, 0, []⟩]
  | .PBLK_CLASS => [⟨0, 4, .ro, 0, []⟩, ⟨4, 4, .ro, 0, []⟩, ⟨8, 4, .ro, 0, []⟩, ⟨12, 4, .ro, 0, []⟩, ⟨16, 4, .ro, 0, []⟩, ⟨20, 4, .ro, 0, []⟩, ⟨24, 4, .ro, 0, []⟩, ⟨28, 4, .ro, 0, []⟩]
  | .PBLK_CTRL => [⟨0, 1, .st, 0, []⟩, ⟨8, 8, .st, 0x64, []⟩]
  | .PBLK_TDR_OWNER => [⟨0, 5, .ro, 0, []⟩, ⟨5, 1, .ro, 0, []⟩]
  | .PBLK_TEMP => [⟨0, 16, .ro, 0, []⟩]
  | .PORT_MODE => [⟨0, 4, .st, 0, [(11, 15)]⟩, ⟨4, 2, .st, 0, []⟩]
  | .PORT_THRESH => [⟨0, 16, .st, 0x4000, []⟩, ⟨16, 16, .st, 0x2000, []⟩]
  | .PORT_FILTER => [⟨0, 8, .st, 0, []⟩, ⟨8, 8, .st, 0, []⟩]
  | .PORT_SAFE => [⟨0, 16, .st, 0, []⟩, ⟨16, 2, .st, 2, [(3, 3)]⟩]
  | .PORT_LINK_CTRL => [⟨0, 2, .st, 0, [(3, 3)]⟩, ⟨4, 12, .st, 1, []⟩]
  | .PORT_HART_CTRL => [⟨0, 1, .st, 0, []⟩, ⟨4, 4, .st, 5, []⟩]
  | .PORT_DIAG_CTRL => [⟨0, 1, .rw, 0, []⟩, ⟨1, 1, .wo, 0, []⟩]
  | .PORT_TDR_CTRL => [⟨0, 1, .wo, 0, []⟩, ⟨1, 1, .wo, 0, []⟩, ⟨4, 4, .rw, 0, []⟩]
  | .PORT_STATUS => [⟨0, 4, .ro, 0, []⟩, ⟨4, 1, .ro, 0, []⟩, ⟨5, 1, .ro, 0, []⟩, ⟨6, 2, .ro, 0, []⟩, ⟨8, 1, .ro, 0, []⟩, ⟨9, 1, .ro, 0, []⟩, ⟨10, 1, .ro, 0, []⟩, ⟨11, 1, .ro, 0, []⟩, ⟨12, 3, .ro, 0, []⟩, ⟨15, 1, .ro, 0, []⟩, ⟨16, 1, .ro, 0, []⟩, ⟨17, 1, .ro, 0, []⟩, ⟨18, 1, .ro, 0, []⟩, ⟨19, 1, .ro, 0, []⟩, ⟨20, 1, .ro, 0, []⟩, ⟨21, 1, .w1c, 0, []⟩]
  | .PORT_FAULT => [⟨0, 1, .w1c, 0, []⟩, ⟨1, 1, .w1c, 0, []⟩, ⟨2, 1, .w1c, 0, []⟩, ⟨3, 1, .w1c, 0, []⟩, ⟨4, 1, .w1c, 0, []⟩, ⟨5, 1, .w1c, 0, []⟩, ⟨6, 1, .w1c, 0, []⟩, ⟨7, 1, .w1c, 0, []⟩]
  | .PORT_FAULT_EN => [⟨0, 8, .rw, 0x3f, []⟩]
  | .PORT_NETCHK => [⟨0, 24, .ro, 0, []⟩, ⟨24, 1, .ro, 0, []⟩]
  | .PORT_COUNT_LO => [⟨0, 32, .ro, 0, []⟩]
  | .PORT_COUNT_HI => [⟨0, 32, .ro, 0, []⟩]
  | .PORT_LINK_ERR => [⟨0, 32, .ro, 0, []⟩]
  | .PORT_RAW => [⟨0, 32, .ro, 0, []⟩]
  | .PORT_OUT => [⟨0, 16, .ro, 0, []⟩]
  | .PORT_TDR_RESULT => [⟨0, 14, .ro, 0, []⟩, ⟨14, 1, .ro, 0, []⟩, ⟨15, 1, .ro, 0, []⟩]
  | .FSW_CTRL => [⟨0, 1, .st, 0, []⟩, ⟨1, 1, .st, 0, []⟩, ⟨8, 8, .st, 0x1e, []⟩]
  | .FSW_STATUS => [⟨0, 14, .ro, 0, []⟩, ⟨16, 1, .ro, 0, []⟩, ⟨17, 1, .w1c, 0, []⟩]
  | .FSW_TBL_CMD => [⟨0, 13, .wo, 0, []⟩, ⟨13, 1, .wo, 0, []⟩, ⟨16, 2, .wo, 0, [(3, 3)]⟩]
  | .FSW_TBL_DATA => [⟨0, 32, .rw, 0, []⟩]
  | .FSW_DROP_VLAN => [⟨0, 32, .ro, 0, []⟩]
  | .FSW_DROP_FULL => [⟨0, 32, .ro, 0, []⟩]
  | .FSW_DROP_NOLINK => [⟨0, 32, .ro, 0, []⟩]
  | .FSW_DROP_BUF => [⟨0, 32, .ro, 0, []⟩]
  | .SPL_BLK_ID => [⟨0, 5, .ro, 0, []⟩, ⟨5, 2, .ro, 0, []⟩]
  | .SPL_BLK_CTRL => [⟨0, 1, .st, 0, []⟩, ⟨1, 3, .st, 0, []⟩, ⟨4, 1, .st, 0, []⟩, ⟨5, 1, .st, 0, []⟩, ⟨8, 8, .st, 0xa, []⟩]
  | .SPL_BLK_DR => [⟨0, 25, .st, 0, []⟩]
  | .SPL_BLK_LOAD => [⟨0, 16, .ro, 0, []⟩, ⟨16, 16, .ro, 0, []⟩]
  | .SPL_BLK_STATUS => [⟨0, 1, .w1c, 0, []⟩, ⟨1, 1, .w1c, 0, []⟩, ⟨2, 1, .ro, 0, []⟩, ⟨3, 1, .ro, 0, []⟩]
  | .SPL_BLK_OUT_PEND => [⟨0, 32, .ro, 0, []⟩]
  | .SPL_PORT_CHA => [⟨0, 25, .st, 0, [(1, 19), (20000001, 33554431)]⟩, ⟨25, 1, .st, 0, []⟩]
  | .SPL_PORT_CHB => [⟨0, 25, .st, 0, [(1, 19), (20000001, 33554431)]⟩, ⟨25, 1, .st, 0, []⟩]
  | .SPL_PORT_OGAIN => [⟨0, 64, .st, 0x3ff0000000000000, []⟩]
  | .SPL_PORT_OOFFSET => [⟨0, 64, .st, 0, []⟩]
  | .SPL_PORT_PULSE => [⟨0, 16, .st, 0x3e8, []⟩]
  | .SPL_PORT_STATUS => [⟨0, 1, .ro, 0, []⟩, ⟨1, 1, .ro, 0, []⟩, ⟨2, 1, .ro, 0, []⟩, ⟨3, 1, .ro, 0, []⟩, ⟨4, 1, .ro, 0, []⟩]
  | .SPL_REC_CTRL => [⟨0, 4, .st, 0, [(8, 15)]⟩, ⟨4, 2, .st, 0, []⟩, ⟨6, 2, .st, 0, [(2, 3)]⟩, ⟨8, 8, .st, 0, []⟩, ⟨16, 1, .st, 0, []⟩, ⟨17, 1, .st, 0, []⟩, ⟨18, 1, .st, 0, []⟩, ⟨19, 1, .st, 0, []⟩, ⟨20, 1, .st, 0, []⟩, ⟨21, 1, .st, 0, []⟩, ⟨22, 1, .st, 0, []⟩]
  | .SPL_REC_HYST => [⟨0, 32, .st, 0, []⟩]
  | .SPL_REC_GAIN => [⟨0, 64, .st, 0x3ff0000000000000, []⟩]
  | .SPL_REC_OFFSET => [⟨0, 64, .st, 0, []⟩]
  | .SPL_REC_SCALE => [⟨0, 64, .st, 0x3ff0000000000000, []⟩]
  | .SPL_REC_BIAS => [⟨0, 64, .st, 0, []⟩]
  | .SPL_REC_LIM_HH => [⟨0, 32, .st, 0, []⟩]
  | .SPL_REC_LIM_H => [⟨0, 32, .st, 0, []⟩]
  | .SPL_REC_LIM_L => [⟨0, 32, .st, 0, []⟩]
  | .SPL_REC_LIM_LL => [⟨0, 32, .st, 0, []⟩]
  | .SPL_REC_RATE => [⟨0, 32, .st, 0, []⟩]
  | .SPL_REC_CUT => [⟨0, 32, .st, 0, []⟩]
  | .SPL_RGN_CAL => [⟨0, 1, .st, 0, []⟩]
  | .SPL_RGN_LRX_PROD => [⟨0, 16, .ro, 0, []⟩]
  | .SPL_RGN_LRX_CONS => [⟨0, 16, .rw, 0, []⟩]
  | .SPL_RGN_LRX_DROP => [⟨0, 32, .ro, 0, []⟩]
  | .SPL_RGN_LTX_PROD => [⟨0, 16, .rw, 0, []⟩]
  | .SPL_RGN_LTX_CONS => [⟨0, 16, .ro, 0, []⟩]
  | .SPL_RGN_LTX_ERR => [⟨0, 32, .ro, 0, []⟩]
  | .SPL_RGN_HRX_PROD => [⟨0, 16, .ro, 0, []⟩]
  | .SPL_RGN_HRX_CONS => [⟨0, 16, .rw, 0, []⟩]
  | .SPL_RGN_HRX_DROP => [⟨0, 32, .ro, 0, []⟩]
  | .SPL_RGN_HTX_PROD => [⟨0, 16, .rw, 0, []⟩]
  | .SPL_RGN_HTX_CONS => [⟨0, 16, .ro, 0, []⟩]
  | .SPL_RGN_STATUS => [⟨0, 1, .w1c, 0, []⟩, ⟨1, 1, .w1c, 0, []⟩]
  | .SPL_RGN_OUT_LATE => [⟨0, 32, .ro, 0, []⟩]
  | .SPL_RGN_OUT_REFUSED => [⟨0, 32, .ro, 0, []⟩]
  | .TB_CTRL => [⟨0, 3, .st, 0, [(5, 7)]⟩, ⟨3, 1, .st, 0, []⟩, ⟨8, 8, .st, 0x28, []⟩, ⟨16, 8, .st, 0xa, []⟩]
  | .TB_STATUS => [⟨0, 1, .ro, 1, []⟩, ⟨1, 1, .ro, 0, []⟩, ⟨2, 1, .ro, 0, []⟩, ⟨3, 1, .ro, 0, []⟩, ⟨4, 1, .w1c, 0, []⟩, ⟨5, 1, .w1c, 0, []⟩, ⟨6, 1, .w1c, 0, []⟩, ⟨7, 1, .ro, 0, []⟩, ⟨8, 8, .ro, 0xff, []⟩, ⟨16, 3, .ro, 0, []⟩, ⟨19, 1, .ro, 0, []⟩]
  | .TB_GM_NODE => [⟨0, 12, .ro, 0xfff, []⟩]
  | .TB_OFFSET => [⟨0, 32, .ro, 0, []⟩]
  | .TB_NOW => [⟨0, 64, .ro, 0, []⟩]
  | .TB_MONO => [⟨0, 64, .ro, 0, []⟩]
  | .TB_FREQ => [⟨0, 32, .rw, 0, []⟩]
  | .TB_PHASE => [⟨0, 32, .wo, 0, []⟩]
  | .TB_STEP => [⟨0, 64, .wo, 0, []⟩]
  | .TB_PPS_SEC => [⟨0, 40, .rw, 0, []⟩]
  | .TB_PPS_DELAY => [⟨0, 16, .st, 0, []⟩]
  | .TB_DL_LATE_RX => [⟨0, 32, .ro, 0, []⟩]
  | .TB_DL_LATE_TX => [⟨0, 32, .ro, 0, []⟩]
  | .TB_STEP_LAST => [⟨0, 64, .ro, 0, []⟩]
  | .TB_ASYM => [⟨0, 16, .st, 0, []⟩, ⟨16, 1, .st, 0, []⟩]
  | .SCH_PERIOD => [⟨0, 25, .st, 0, [(1, 99), (20000001, 33554431)]⟩]
  | .SCH_DELAY => [⟨0, 25, .st, 0, []⟩]
  | .SCH_NEXT => [⟨0, 64, .ro, 0, []⟩]
  | .SCH_COUNT => [⟨0, 32, .ro, 0, []⟩]
  | .SCH_STATUS => [⟨0, 1, .ro, 0, []⟩]
  | .CLK_GSTATUS => [⟨0, 1, .w1c, 0, []⟩, ⟨1, 2, .ro, 0, []⟩, ⟨3, 9, .ro, 0, []⟩]
  | .CLK_FALL_SUM => [⟨0, 32, .ro, 0, []⟩]
  | .CLK_CTRL => [⟨0, 3, .st, 0, [(5, 7)]⟩, ⟨4, 3, .st, 0, [(6, 7)]⟩, ⟨7, 1, .st, 0, []⟩, ⟨8, 1, .st, 0, []⟩]
  | .CLK_SRC => [⟨0, 9, .st, 0x1ff, [(298, 510)]⟩, ⟨16, 9, .st, 0x1ff, [(298, 510)]⟩]
  | .CLK_LIMIT => [⟨0, 40, .st, 0, []⟩]
  | .CLK_MIN => [⟨0, 40, .st, 0, []⟩]
  | .CLK_BIND => [⟨0, 5, .st, 0, []⟩]
  | .CLK_BIND_MASK => [⟨0, 32, .st, 0, []⟩]
  | .CLK_CMD => [⟨0, 1, .wo, 0, []⟩, ⟨1, 1, .wo, 0, []⟩, ⟨2, 1, .wo, 0, []⟩]
  | .CLK_STATUS => [⟨0, 1, .ro, 0, []⟩, ⟨1, 1, .w1c, 0, []⟩, ⟨2, 1, .w1c, 0, []⟩, ⟨3, 1, .w1c, 0, []⟩, ⟨4, 1, .ro, 0, []⟩, ⟨5, 1, .w1c, 0, []⟩]
  | .CLK_FALLS => [⟨0, 32, .ro, 0, []⟩]
  | .CLK_ELAPSED => [⟨0, 40, .ro, 0, []⟩]
  | .CLK_FALL_TIME => [⟨0, 64, .ro, 0, []⟩]
  | .EVD_ID => [⟨0, 5, .ro, 0, []⟩]
  | .EVD_DOORBELL => [⟨0, 1, .wo, 0, []⟩]
  | .EVD_STATUS => [⟨0, 4, .ro, 0, []⟩, ⟨4, 1, .ro, 0, []⟩, ⟨5, 1, .ro, 0, []⟩]
  | .EVD_LAST => [⟨0, 8, .ro, 0, []⟩, ⟨8, 1, .ro, 0, []⟩]
  | .EVD_SRC => [⟨0, 4, .rw, 0, [(9, 15)]⟩, ⟨8, 4, .rw, 0, [(9, 15)]⟩, ⟨16, 4, .rw, 0, [(9, 15)]⟩, ⟨24, 4, .rw, 0, [(9, 15)]⟩, ⟨4, 1, .rw, 0, []⟩, ⟨12, 1, .rw, 0, []⟩, ⟨20, 1, .rw, 0, []⟩, ⟨28, 1, .rw, 0, []⟩]
  | .EVD_PEND => [⟨0, 32, .w1c, 0, []⟩]
  | .SC_RGN_CTRL => [⟨0, 2, .st, 1, []⟩]
  | .SC_RGN_SCRATCH => [⟨0, 4, .st, 0, [(9, 15)]⟩]
  | .SC_RGN_WAYPD => [⟨0, 16, .st, 0, []⟩]
  | .SC_RGN_STATUS => [⟨0, 4, .ro, 0, []⟩, ⟨4, 1, .ro, 0, []⟩, ⟨5, 1, .w1c, 0, []⟩, ⟨6, 1, .ro, 0, []⟩, ⟨7, 1, .w1c, 0, []⟩, ⟨8, 1, .ro, 0, []⟩]
  | .SC_RNG_BASE => [⟨0, 52, .rw, 0, []⟩]
  | .SC_RNG_LEN => [⟨0, 64, .rw, 0, []⟩]
  | .SC_RNG_CMD => [⟨0, 3, .rw, 0, [(0, 0), (6, 7)]⟩, ⟨3, 1, .rw, 0, []⟩, ⟨4, 1, .wo, 0, []⟩]
  | .SC_RNG_STATUS => [⟨0, 1, .ro, 0, []⟩, ⟨1, 1, .w1c, 0, []⟩, ⟨2, 1, .w1c, 0, []⟩, ⟨3, 1, .w1c, 0, []⟩, ⟨4, 2, .ro, 0, []⟩, ⟨8, 6, .ro, 0, []⟩]
  | .SC_RNG_COUNT => [⟨0, 32, .ro, 0, []⟩]
  | .SC_RNG_SKIPPED => [⟨0, 32, .ro, 0, []⟩]
  | .SC_RNG_FAIL => [⟨0, 52, .ro, 0, []⟩]
  | .SC_SL_CE => [⟨0, 32, .ro, 0, []⟩]
  | .SC_SL_ERR => [⟨0, 1, .w1c, 0, []⟩, ⟨1, 1, .w1c, 0, []⟩, ⟨2, 1, .w1c, 0, []⟩]
  | .SC_SL_ERR_ADDR => [⟨0, 36, .ro, 0, []⟩]
  | .SC_SL_ERR_LOC => [⟨0, 11, .ro, 0, []⟩, ⟨16, 4, .ro, 0, []⟩]
  | .CS_CMD => [⟨0, 2, .wo, 0, [(0, 0), (3, 3)]⟩]
  | .CS_ADDR => [⟨5, 18, .rw, 0, []⟩]
  | .CS_STATUS => [⟨0, 1, .ro, 0, []⟩, ⟨1, 1, .w1c, 0, []⟩, ⟨2, 1, .w1c, 0, []⟩, ⟨3, 2, .ro, 0, []⟩, ⟨5, 1, .w1c, 0, []⟩]
  | .CS_ERASES => [⟨0, 16, .ro, 0, []⟩]
  | .CS_DATA => [⟨0, 32, .rw, 0, []⟩]
  | .MEM_STATUS => [⟨0, 1, .ro, 0, []⟩, ⟨1, 1, .ro, 0, []⟩, ⟨2, 1, .ro, 0, []⟩, ⟨3, 1, .ro, 0, []⟩, ⟨4, 1, .ro, 0, []⟩, ⟨8, 8, .ro, 0, []⟩]
  | .MEM_TEMP => [⟨0, 8, .ro, 0, []⟩, ⟨8, 3, .ro, 0, []⟩, ⟨11, 3, .ro, 0, []⟩]
  | .MEM_PATROL_CTRL => [⟨0, 8, .st, 0x18, []⟩]
  | .MEM_PATROL_POS => [⟨6, 30, .ro, 0, []⟩]
  | .MEM_PATROL_PASSES => [⟨0, 32, .ro, 0, []⟩]
  | .MEM_CE_THR => [⟨0, 16, .rw, 0x10, []⟩]
  | .MEM_ERR_STATUS => [⟨0, 1, .w1c, 0, []⟩, ⟨1, 1, .w1c, 0, []⟩, ⟨2, 1, .w1c, 0, []⟩, ⟨3, 3, .ro, 0, []⟩, ⟨8, 4, .ro, 0, []⟩, ⟨12, 3, .ro, 0, []⟩]
  | .MEM_ERR_DEVMASK => [⟨0, 5, .ro, 0, []⟩]
  | .MEM_ERR_ADDR => [⟨6, 30, .ro, 0, []⟩]
  | .MEM_ERR_TIME => [⟨0, 64, .ro, 0, []⟩]
  | .MEM_CE_COUNT => [⟨0, 32, .ro, 0, []⟩]
  | .MEM_UE_COUNT => [⟨0, 32, .ro, 0, []⟩]
  | .MEM_SWP_NODE => [⟨0, 12, .rw, 0, []⟩]
  | .MEM_SWP_LO => [⟨0, 52, .rw, 0, []⟩]
  | .MEM_SWP_HI => [⟨0, 52, .rw, 0, []⟩]
  | .MEM_SWP_CTRL => [⟨0, 6, .rw, 0, []⟩, ⟨6, 1, .rw, 0, []⟩, ⟨8, 2, .rw, 0, [(3, 3)]⟩, ⟨16, 1, .wo, 0, []⟩, ⟨17, 1, .wo, 0, []⟩]
  | .MEM_SWP_STATUS => [⟨0, 1, .ro, 0, []⟩, ⟨1, 1, .ro, 0, []⟩, ⟨2, 1, .w1c, 0, []⟩, ⟨3, 1, .w1c, 0, []⟩, ⟨4, 1, .w1c, 0, []⟩]
  | .MEM_SWP_POS => [⟨6, 30, .ro, 0, []⟩]
  | .MEM_SWP_CLEARED => [⟨0, 32, .ro, 0, []⟩]
  | .GATE_VQ_STATUS => [⟨0, 7, .ro, 0, []⟩, ⟨8, 1, .w1c, 0, []⟩]
  | .GATE_VQ_POP => [⟨0, 1, .wo, 0, []⟩]
  | .GATE_VQ_LOST => [⟨0, 32, .ro, 0, []⟩]
  | .GATE_UNMAPPED_COUNT => [⟨0, 32, .ro, 0, []⟩]
  | .GATE_VQ_HEAD => [⟨0, 64, .ro, 0, []⟩]
  | .GATE_G_ID => [⟨0, 6, .ro, 0, []⟩, ⟨8, 10, .ro, 0, []⟩]
  | .GATE_G_CTRL => [⟨0, 1, .rwl, 1, []⟩, ⟨1, 1, .rwl, 1, []⟩, ⟨31, 1, .rwl, 0, []⟩]
  | .GATE_G_STATUS => [⟨0, 1, .w1c, 0, []⟩, ⟨1, 1, .w1c, 0, []⟩, ⟨8, 10, .ro, 0, []⟩]
  | .GATE_G_COUNT => [⟨0, 32, .ro, 0, []⟩]
  | .GATE_ENT_BASE => [⟨4, 48, .rwl, 0, []⟩]
  | .GATE_ENT_TOP => [⟨4, 48, .rwl, 0, []⟩]
  | .GATE_ENT_MASTERS => [⟨0, 61, .rwl, 0, []⟩]
  | .GATE_ENT_CTRL => [⟨0, 1, .rwl, 0, []⟩, ⟨1, 1, .rwl, 0, []⟩, ⟨2, 1, .rwl, 0, []⟩, ⟨3, 1, .rwl, 0, []⟩, ⟨4, 1, .rwl, 0, []⟩, ⟨5, 2, .rwl, 0, []⟩, ⟨7, 1, .rwl, 0, []⟩, ⟨8, 2, .rwl, 0, [(3, 3)]⟩, ⟨10, 1, .ro, 0, []⟩, ⟨11, 1, .rwl, 0, []⟩, ⟨12, 12, .rwl, 0, []⟩]
  | .GATE_ENT_EPOCH => [⟨0, 6, .ro, 1, []⟩, ⟨8, 6, .ro, 1, []⟩, ⟨16, 1, .wo, 0, []⟩, ⟨17, 1, .w1c, 0, []⟩]
  | .MESH_LG_CTRL => [⟨0, 2, .st, 0, []⟩, ⟨2, 2, .st, 0, [(3, 3)]⟩, ⟨4, 3, .st, 3, [(7, 7)]⟩, ⟨7, 1, .st, 1, []⟩, ⟨8, 1, .st, 0, []⟩, ⟨9, 1, .wo, 0, []⟩]
  | .MESH_LG_STATUS => [⟨0, 4, .ro, 0, []⟩, ⟨4, 4, .ro, 0, []⟩, ⟨8, 1, .ro, 0, []⟩]
  | .MESH_LG_VCW => [⟨0, 8, .st, 1, []⟩, ⟨8, 8, .st, 4, []⟩]
  | .MESH_LINK_STATUS => [⟨0, 3, .ro, 0, []⟩, ⟨3, 1, .ro, 0, []⟩, ⟨4, 3, .ro, 0, []⟩, ⟨7, 12, .ro, 0, []⟩, ⟨19, 3, .ro, 0, []⟩, ⟨22, 1, .ro, 0, []⟩]
  | .MESH_LINK_CRED => [⟨0, 13, .st, 0, []⟩, ⟨16, 13, .st, 0, []⟩]
  | .MESH_LINK_CRED2 => [⟨0, 13, .st, 0, []⟩, ⟨16, 13, .st, 0, []⟩]
  | .MESH_LG_FEC_CORR => [⟨0, 32, .ro, 0, []⟩]
  | .MESH_LG_FEC_UNC => [⟨0, 32, .ro, 0, []⟩]
  | .MESH_LG_AUTH_FAIL => [⟨0, 32, .ro, 0, []⟩]
  | .MESH_LG_RESEND => [⟨0, 32, .ro, 0, []⟩]
  | .MESH_LG_RETRAINS => [⟨0, 32, .ro, 0, []⟩]
  | .MESH_LG_LANE => [⟨0, 8, .ro, 0, []⟩]
  | .MESH_TSN_CTRL => [⟨0, 1, .st, 0, []⟩, ⟨1, 7, .st, 1, []⟩]
  | .MESH_TSN_BASE => [⟨0, 64, .st, 0, []⟩]
  | .MESH_TSN_CYCLE => [⟨0, 32, .st, 0, []⟩]
  | .MESH_TSN_CBS => [⟨0, 32, .st, 0, []⟩]
  | .MESH_TSN_GCL => [⟨0, 8, .st, 0xff, []⟩, ⟨8, 24, .st, 0, []⟩]
  | .MESH_CTRL => [⟨0, 12, .st, 0xfff, []⟩, ⟨12, 1, .st, 0, []⟩, ⟨13, 1, .st, 0, []⟩]
  | .MESH_FED_ID => [⟨0, 32, .st, 0, []⟩]
  | .MESH_STATUS => [⟨0, 12, .ro, 0, []⟩, ⟨12, 1, .ro, 0, []⟩, ⟨13, 1, .ro, 0, []⟩, ⟨14, 1, .w1c, 0, []⟩, ⟨15, 1, .w1c, 0, []⟩]
  | .MESH_RTO => [⟨0, 16, .st, 0x3e8, []⟩]
  | .MESH_DL => [⟨0, 24, .st, 0, []⟩]
  | .MESH_ERR => [⟨0, 7, .w1c, 0, []⟩]
  | .MESH_ERR_COUNT => [⟨0, 32, .ro, 0, []⟩]
  | .MESH_GOP_CMD => [⟨0, 3, .wo, 0, [(0, 0), (5, 7)]⟩, ⟨4, 4, .wo, 0, []⟩, ⟨8, 6, .wo, 0, []⟩]
  | .MESH_GOP_STATUS => [⟨0, 1, .ro, 0, []⟩, ⟨1, 1, .w1c, 0, []⟩, ⟨2, 1, .w1c, 0, []⟩, ⟨3, 1, .w1c, 0, []⟩, ⟨4, 1, .w1c, 0, []⟩, ⟨5, 1, .w1c, 0, []⟩]
  | .MESH_BAR_PART => [⟨0, 16, .st, 0, []⟩]
  | .MESH_BAR_DONE => [⟨0, 16, .w1c, 0, []⟩]
  | .MESH_SNAP_BASE => [⟨6, 46, .st, 0, []⟩]
  | .MESH_SNAP_LEAD => [⟨0, 24, .st, 0x4e20, []⟩]
  | .MESH_SNAP_TIME => [⟨0, 64, .ro, 0, []⟩]
  | .MESH_BC_TX => [⟨0, 32, .rw, 0, []⟩]
  | .MESH_BC_RX_STATUS => [⟨0, 5, .ro, 0, []⟩, ⟨8, 1, .w1c, 0, []⟩]
  | .MESH_BC_RX_POP => [⟨0, 1, .wo, 0, []⟩]
  | .MESH_BC_RX_HEAD => [⟨0, 12, .ro, 0, []⟩, ⟨16, 6, .ro, 0, []⟩]
  | .MESH_BC_RX_DATA => [⟨0, 32, .ro, 0, []⟩]
  | .MESH_MEMBER => [⟨0, 32, .ro, 0, []⟩]
  | .MESH_ROUTE => [⟨0, 4, .st, 0, []⟩, ⟨4, 1, .st, 0, []⟩, ⟨5, 1, .st, 0, []⟩, ⟨8, 4, .st, 0, []⟩, ⟨12, 1, .st, 0, []⟩, ⟨13, 1, .st, 0, []⟩]
  | .MX_CTRL => [⟨0, 1, .rw, 0, []⟩, ⟨1, 1, .wo, 0, []⟩, ⟨2, 1, .wo, 0, []⟩]
  | .MX_STATUS => [⟨0, 1, .ro, 0, []⟩, ⟨1, 1, .ro, 0, []⟩, ⟨8, 8, .ro, 0, []⟩]
  | .MX_RING_BASE => [⟨7, 45, .rw, 0, []⟩]
  | .MX_RING_SIZE => [⟨0, 9, .rw, 0, [(257, 511)]⟩]
  | .MX_PROD => [⟨0, 16, .rw, 0, []⟩]
  | .MX_CONS => [⟨0, 16, .ro, 0, []⟩]
  | .MX_FAIL => [⟨0, 64, .ro, 0, []⟩]
  | .MX_JOBS => [⟨0, 32, .ro, 0, []⟩]
  | .MX_CYCLES => [⟨0, 32, .ro, 0, []⟩]
  | .XFR_CH_HEAD => [⟨6, 46, .rw, 0, []⟩]
  | .XFR_CH_CMD => [⟨0, 1, .wo, 0, []⟩, ⟨1, 1, .wo, 0, []⟩]
  | .XFR_CH_STATUS => [⟨0, 1, .ro, 0, []⟩, ⟨1, 1, .w1c, 0, []⟩, ⟨2, 1, .w1c, 0, []⟩, ⟨3, 1, .w1c, 0, []⟩, ⟨8, 8, .ro, 0, []⟩, ⟨16, 8, .ro, 0, []⟩]
  | .XFR_CH_CUR => [⟨6, 46, .ro, 0, []⟩]
  | .XFR_CH_DONE => [⟨0, 64, .ro, 0, []⟩]
  | .XFR_CH_FAIL => [⟨0, 64, .ro, 0, []⟩]
  | .MBX_ID => [⟨0, 16, .ro, 0x1024, []⟩, ⟨16, 8, .ro, 2, []⟩, ⟨24, 8, .ro, 0, []⟩]
  | .MBX_STATE => [⟨0, 3, .ro, 0, []⟩, ⟨3, 1, .ro, 0, []⟩, ⟨4, 1, .ro, 0, []⟩]
  | .MBX_LOCK => [⟨0, 3, .ro, 0, []⟩]
  | .MBX_INTR_COAL => [⟨0, 16, .rw, 0, []⟩]
  | .MBX_HOST_ERR => [⟨0, 1, .w1c, 0, []⟩, ⟨1, 1, .w1c, 0, []⟩, ⟨2, 1, .w1c, 0, []⟩]
  | .MBX_Q_CMD_PROD => [⟨0, 16, .rw, 0, []⟩]
  | .MBX_Q_CMD_CONS => [⟨0, 16, .ro, 0, []⟩]
  | .MBX_Q_CPL_PROD => [⟨0, 16, .ro, 0, []⟩]
  | .MBX_Q_CPL_CONS => [⟨0, 16, .rw, 0, []⟩]
  | .MBX_Q_STATUS => [⟨0, 1, .ro, 0, []⟩, ⟨1, 1, .ro, 0, []⟩, ⟨2, 1, .w1c, 0, []⟩]
  | .MBX_FW_IN_PROD => [⟨0, 16, .ro, 0, []⟩]
  | .MBX_FW_IN_CONS => [⟨0, 16, .rw, 0, []⟩]
  | .MBX_FW_OUT_PROD => [⟨0, 16, .rw, 0, []⟩]
  | .MBX_FW_OUT_CONS => [⟨0, 16, .ro, 0, []⟩]
  | .CFG_STATUS => [⟨0, 1, .ro, 0, []⟩, ⟨1, 1, .ro, 0, []⟩, ⟨2, 1, .ro, 0, []⟩, ⟨3, 1, .ro, 0, []⟩, ⟨4, 1, .ro, 0, []⟩, ⟨5, 1, .ro, 0, []⟩, ⟨6, 1, .w1c, 0, []⟩, ⟨7, 1, .w1c, 0, []⟩, ⟨8, 1, .w1c, 0, []⟩, ⟨9, 1, .w1c, 0, []⟩, ⟨10, 1, .w1c, 0, []⟩, ⟨16, 8, .ro, 0, []⟩]
  | .CFG_MOVE_SETTLED => [⟨0, 32, .ro, 0, []⟩]
  | .CFG_MOVE_PROB => [⟨0, 32, .ro, 0, []⟩]
  | .CFG_MOVE_STAGED => [⟨0, 32, .ro, 0, []⟩]
  | .CFG_CMD => [⟨0, 3, .wo, 0, [(0, 0), (6, 7)]⟩, ⟨4, 3, .wo, 0, []⟩]
  | .CFG_COMMIT_AT => [⟨0, 64, .rw, 0, []⟩]
  | .CFG_COMMIT_TIME => [⟨0, 64, .ro, 0, []⟩]
  | .CFG_PROB_END => [⟨0, 64, .ro, 0, []⟩]
  | .CFG_REACH => [⟨0, 3, .ro, 0, []⟩]
  | .CFG_PROB_FALLS => [⟨0, 32, .ro, 0, []⟩]
  | .CFG_PROB_VIOL => [⟨0, 32, .ro, 0, []⟩]
  | .CFG_SVIEW_ADDR => [⟨2, 26, .rw, 0, []⟩]
  | .CFG_SVIEW_DATA => [⟨0, 32, .ro, 0, []⟩]
  | .CFG_DEVICE => [⟨0, 1, .st, 0, []⟩]
  | .CFG_SLOT_STATE => [⟨0, 3, .ro, 0, []⟩, ⟨3, 1, .ro, 0, []⟩, ⟨4, 1, .ro, 0, []⟩]
  | .CFG_SLOT_MOVE => [⟨0, 32, .ro, 0, []⟩]
  | .ROOK_STATUS => [⟨0, 3, .ro, 1, []⟩, ⟨3, 1, .ro, 0, []⟩, ⟨4, 4, .ro, 0, []⟩, ⟨8, 1, .ro, 0, []⟩, ⟨9, 1, .ro, 0, []⟩, ⟨10, 1, .ro, 0, []⟩]
  | .ROOK_ID => [⟨0, 32, .ro, 0, []⟩]
  | .ROOK_OWNER => [⟨0, 32, .ro, 0, []⟩]
  | .ROOK_SVN => [⟨0, 6, .ro, 0, []⟩, ⟨8, 6, .ro, 0, []⟩, ⟨16, 6, .ro, 0, []⟩]
  | .ROOK_DBG => [⟨0, 2, .ro, 0, []⟩]
  | .ROOK_DBG_LEFT => [⟨0, 17, .ro, 0, []⟩]
  | .ROOK_DBG_CHAL => [⟨0, 32, .ro, 0, []⟩]
  | .ROOK_ALERT => [⟨0, 1, .w1c, 0, []⟩, ⟨1, 1, .w1c, 0, []⟩, ⟨2, 1, .w1c, 0, []⟩, ⟨4, 4, .ro, 0, []⟩]
  | .GOOSE_CTRL => [⟨0, 1, .rw, 0, []⟩]
  | .GOOSE_STATUS => [⟨0, 1, .ro, 0, []⟩, ⟨1, 3, .ro, 0, []⟩, ⟨4, 1, .ro, 0, []⟩, ⟨5, 1, .ro, 0, []⟩]
  | .CAR_STATUS => [⟨0, 1, .ro, 0, []⟩, ⟨1, 1, .ro, 0, []⟩, ⟨2, 1, .ro, 0, []⟩, ⟨3, 1, .ro, 0, []⟩, ⟨4, 1, .ro, 0, []⟩, ⟨5, 1, .ro, 0, []⟩, ⟨6, 1, .ro, 0, []⟩, ⟨7, 1, .w1c, 0, []⟩, ⟨8, 4, .ro, 0, []⟩, ⟨12, 1, .w1c, 0, []⟩]
  | .TWIN_CTRL => [⟨0, 3, .st, 0, []⟩, ⟨4, 3, .st, 0, []⟩, ⟨7, 1, .st, 0, []⟩, ⟨8, 1, .st, 1, []⟩, ⟨9, 1, .st, 0, []⟩]
  | .TWIN_STATUS => [⟨0, 2, .ro, 0, []⟩, ⟨2, 1, .ro, 0, []⟩, ⟨3, 1, .ro, 0, []⟩, ⟨4, 1, .ro, 0, []⟩, ⟨5, 1, .ro, 0, []⟩, ⟨6, 1, .ro, 0, []⟩, ⟨7, 1, .w1c, 0, []⟩, ⟨8, 1, .w1c, 0, []⟩, ⟨9, 1, .w1c, 0, []⟩, ⟨10, 3, .ro, 0, []⟩, ⟨13, 2, .ro, 0, []⟩, ⟨15, 1, .ro, 0, []⟩]
  | .TWIN_CMD => [⟨0, 1, .wo, 0, []⟩, ⟨1, 1, .wo, 0, []⟩, ⟨2, 1, .wo, 0, []⟩]
  | .TWIN_CASTLE_AT => [⟨0, 64, .rw, 0, []⟩]
  | .TWIN_LAST_H => [⟨0, 64, .ro, 0, []⟩]
  | .TWIN_HB_MISS => [⟨0, 32, .ro, 0, []⟩]
  | .TWIN_MIR_PASS => [⟨0, 32, .ro, 0, []⟩]
  | .TWIN_MIR_BASE => [⟨6, 46, .st, 0, []⟩]
  | .TWIN_MIR_LEN => [⟨6, 17, .st, 0, []⟩]
  | .FLT_CTRL => [⟨0, 1, .st, 1, []⟩]
  | .FLT_ESC => [⟨0, 8, .st, 0, []⟩, ⟨8, 8, .st, 0, []⟩, ⟨16, 8, .st, 0, []⟩]
  | .FLT_ESC_WIN => [⟨0, 16, .st, 0x3e8, []⟩]
  | .FLT_RGN_ACT => [⟨0, 2, .st, 0, []⟩, ⟨2, 2, .st, 0, []⟩, ⟨4, 2, .st, 0, []⟩, ⟨6, 2, .st, 0, []⟩]
  | .FLT_DEV_ACT => [⟨0, 2, .st, 0, []⟩]
  | .FLT_CMD => [⟨0, 4, .wo, 0, []⟩, ⟨4, 1, .wo, 0, []⟩]
  | .FLT_RST => [⟨0, 4, .wo, 0, [(0, 0), (12, 15)]⟩, ⟨16, 10, .wo, 0, []⟩]
  | .FLT_RST_STATUS => [⟨0, 1, .w1c, 0, []⟩]
  | .FLT_RGN_STATE => [⟨0, 2, .ro, 0, []⟩, ⟨2, 2, .ro, 0, []⟩, ⟨4, 2, .ro, 0, []⟩, ⟨6, 2, .ro, 0, []⟩]
  | .FLT_Q_STATUS => [⟨0, 7, .ro, 0, []⟩, ⟨8, 1, .w1c, 0, []⟩]
  | .FLT_Q_POP => [⟨0, 1, .wo, 0, []⟩]
  | .FLT_Q_LOST => [⟨0, 32, .ro, 0, []⟩]
  | .FLT_Q_HEAD => [⟨0, 64, .ro, 0, []⟩]
  | .FLT_SUM_CELL => [⟨0, 32, .ro, 0, []⟩]
  | .FLT_SUM_BLOCK => [⟨0, 32, .ro, 0, []⟩]
  | .FLT_FED_LAST => [⟨0, 12, .ro, 0, []⟩, ⟨16, 8, .ro, 0, []⟩]
  | .EVR_ROUTE_LO => [⟨0, 32, .st, 0, []⟩]
  | .EVR_ROUTE_HI => [⟨0, 1, .st, 0, []⟩, ⟨1, 1, .st, 0, []⟩, ⟨2, 1, .st, 0, []⟩]
  | .EVR_SW => [⟨0, 4, .wo, 0, []⟩]
  | .EVR_UNROUTED => [⟨0, 32, .ro, 0, []⟩]
  | .EVR_LAST_CLAIM => [⟨0, 8, .ro, 0, []⟩, ⟨8, 5, .ro, 0, []⟩, ⟨13, 1, .ro, 0, []⟩]
  | .PWR_DOM_EN0 => [⟨0, 32, .st, 0xffffffff, []⟩]
  | .PWR_DOM_EN1 => [⟨0, 4, .st, 0xf, []⟩, ⟨4, 8, .st, 0xff, []⟩, ⟨12, 8, .st, 0xff, []⟩]
  | .PWR_DOM_STATE => [⟨0, 32, .ro, 0, []⟩]
  | .PWR_DOM_FAULT => [⟨0, 32, .w1c, 0, []⟩]
  | .PWR_FEED => [⟨0, 12, .ro, 0, []⟩, ⟨12, 1, .ro, 0, []⟩, ⟨16, 12, .ro, 0, []⟩, ⟨28, 1, .ro, 0, []⟩]
  | .PWR_INPUT => [⟨0, 12, .ro, 0, []⟩, ⟨16, 12, .ro, 0, []⟩]
  | .PWR_HOLDUP => [⟨0, 16, .ro, 0, []⟩]
  | .PWR_TEMP => [⟨0, 16, .ro, 0, []⟩, ⟨16, 16, .ro, 0, []⟩]
  | .PWR_THR_CTRL => [⟨0, 8, .st, 0, []⟩]
  | .PWR_THR_STATUS => [⟨0, 3, .ro, 0, []⟩, ⟨8, 8, .ro, 0, []⟩, ⟨16, 1, .ro, 0, []⟩, ⟨17, 1, .ro, 0, []⟩]
  | .PWR_THR_TIME => [⟨0, 32, .ro, 0, []⟩]

/-- Where a register stands: its offset, its dimensions as (stride, count) outermost first, its bytes. -/
structure Place where
  off : Nat
  dims : List (Nat × Nat)
  bytes : Nat
  deriving DecidableEq, Repr

/-- The place of each register (R19 and the layouts named above). -/
def Reg.place : Reg → Place
  | .PBLK_ID => ⟨0x800000, [(65536, 32)], 4⟩
  | .PBLK_CARRIER => ⟨0x800004, [(65536, 32)], 4⟩
  | .PBLK_FAULT_SUM => ⟨0x800008, [(65536, 32)], 4⟩
  | .PBLK_LINK_UP => ⟨0x80000c, [(65536, 32)], 4⟩
  | .PBLK_CLASS => ⟨0x800010, [(65536, 32), (4, 4)], 4⟩
  | .PBLK_CTRL => ⟨0x800020, [(65536, 32)], 4⟩
  | .PBLK_TDR_OWNER => ⟨0x800024, [(65536, 32)], 4⟩
  | .PBLK_TEMP => ⟨0x800028, [(65536, 32)], 4⟩
  | .PORT_MODE => ⟨0x801000, [(65536, 32), (128, 32)], 4⟩
  | .PORT_THRESH => ⟨0x801004, [(65536, 32), (128, 32)], 4⟩
  | .PORT_FILTER => ⟨0x801008, [(65536, 32), (128, 32)], 4⟩
  | .PORT_SAFE => ⟨0x80100c, [(65536, 32), (128, 32)], 4⟩
  | .PORT_LINK_CTRL => ⟨0x801010, [(65536, 32), (128, 32)], 4⟩
  | .PORT_HART_CTRL => ⟨0x801014, [(65536, 32), (128, 32)], 4⟩
  | .PORT_DIAG_CTRL => ⟨0x801018, [(65536, 32), (128, 32)], 4⟩
  | .PORT_TDR_CTRL => ⟨0x80101c, [(65536, 32), (128, 32)], 4⟩
  | .PORT_STATUS => ⟨0x801020, [(65536, 32), (128, 32)], 4⟩
  | .PORT_FAULT => ⟨0x801024, [(65536, 32), (128, 32)], 4⟩
  | .PORT_FAULT_EN => ⟨0x801028, [(65536, 32), (128, 32)], 4⟩
  | .PORT_NETCHK => ⟨0x80102c, [(65536, 32), (128, 32)], 4⟩
  | .PORT_COUNT_LO => ⟨0x801030, [(65536, 32), (128, 32)], 4⟩
  | .PORT_COUNT_HI => ⟨0x801034, [(65536, 32), (128, 32)], 4⟩
  | .PORT_LINK_ERR => ⟨0x801038, [(65536, 32), (128, 32)], 4⟩
  | .PORT_RAW => ⟨0x80103c, [(65536, 32), (128, 32)], 4⟩
  | .PORT_OUT => ⟨0x801040, [(65536, 32), (128, 32)], 4⟩
  | .PORT_TDR_RESULT => ⟨0x801044, [(65536, 32), (128, 32)], 4⟩
  | .FSW_CTRL => ⟨0xc80000, [], 4⟩
  | .FSW_STATUS => ⟨0xc80004, [], 4⟩
  | .FSW_TBL_CMD => ⟨0xc80008, [], 4⟩
  | .FSW_TBL_DATA => ⟨0xc80010, [(4, 4)], 4⟩
  | .FSW_DROP_VLAN => ⟨0xc80020, [], 4⟩
  | .FSW_DROP_FULL => ⟨0xc80024, [], 4⟩
  | .FSW_DROP_NOLINK => ⟨0xc80028, [], 4⟩
  | .FSW_DROP_BUF => ⟨0xc8002c, [], 4⟩
  | .SPL_BLK_ID => ⟨0xa00000, [(65536, 32)], 4⟩
  | .SPL_BLK_CTRL => ⟨0xa00004, [(65536, 32)], 4⟩
  | .SPL_BLK_DR => ⟨0xa00008, [(65536, 32)], 4⟩
  | .SPL_BLK_LOAD => ⟨0xa0000c, [(65536, 32)], 4⟩
  | .SPL_BLK_STATUS => ⟨0xa00010, [(65536, 32)], 4⟩
  | .SPL_BLK_OUT_PEND => ⟨0xa00014, [(65536, 32)], 4⟩
  | .SPL_PORT_CHA => ⟨0xa00400, [(65536, 32), (32, 32)], 4⟩
  | .SPL_PORT_CHB => ⟨0xa00404, [(65536, 32), (32, 32)], 4⟩
  | .SPL_PORT_OGAIN => ⟨0xa00408, [(65536, 32), (32, 32)], 8⟩
  | .SPL_PORT_OOFFSET => ⟨0xa00410, [(65536, 32), (32, 32)], 8⟩
  | .SPL_PORT_PULSE => ⟨0xa00418, [(65536, 32), (32, 32)], 4⟩
  | .SPL_PORT_STATUS => ⟨0xa0041c, [(65536, 32), (32, 32)], 4⟩
  | .SPL_REC_CTRL => ⟨0xa01000, [(65536, 32), (1024, 32), (64, 16)], 4⟩
  | .SPL_REC_HYST => ⟨0xa01004, [(65536, 32), (1024, 32), (64, 16)], 4⟩
  | .SPL_REC_GAIN => ⟨0xa01008, [(65536, 32), (1024, 32), (64, 16)], 8⟩
  | .SPL_REC_OFFSET => ⟨0xa01010, [(65536, 32), (1024, 32), (64, 16)], 8⟩
  | .SPL_REC_SCALE => ⟨0xa01018, [(65536, 32), (1024, 32), (64, 16)], 8⟩
  | .SPL_REC_BIAS => ⟨0xa01020, [(65536, 32), (1024, 32), (64, 16)], 8⟩
  | .SPL_REC_LIM_HH => ⟨0xa01028, [(65536, 32), (1024, 32), (64, 16)], 4⟩
  | .SPL_REC_LIM_H => ⟨0xa0102c, [(65536, 32), (1024, 32), (64, 16)], 4⟩
  | .SPL_REC_LIM_L => ⟨0xa01030, [(65536, 32), (1024, 32), (64, 16)], 4⟩
  | .SPL_REC_LIM_LL => ⟨0xa01034, [(65536, 32), (1024, 32), (64, 16)], 4⟩
  | .SPL_REC_RATE => ⟨0xa01038, [(65536, 32), (1024, 32), (64, 16)], 4⟩
  | .SPL_REC_CUT => ⟨0xa0103c, [(65536, 32), (1024, 32), (64, 16)], 4⟩
  | .SPL_RGN_CAL => ⟨0xa0f000, [(524288, 4)], 4⟩
  | .SPL_RGN_LRX_PROD => ⟨0xa0f010, [(524288, 4)], 4⟩
  | .SPL_RGN_LRX_CONS => ⟨0xa0f014, [(524288, 4)], 4⟩
  | .SPL_RGN_LRX_DROP => ⟨0xa0f018, [(524288, 4)], 4⟩
  | .SPL_RGN_LTX_PROD => ⟨0xa0f020, [(524288, 4)], 4⟩
  | .SPL_RGN_LTX_CONS => ⟨0xa0f024, [(524288, 4)], 4⟩
  | .SPL_RGN_LTX_ERR => ⟨0xa0f028, [(524288, 4)], 4⟩
  | .SPL_RGN_HRX_PROD => ⟨0xa0f030, [(524288, 4)], 4⟩
  | .SPL_RGN_HRX_CONS => ⟨0xa0f034, [(524288, 4)], 4⟩
  | .SPL_RGN_HRX_DROP => ⟨0xa0f038, [(524288, 4)], 4⟩
  | .SPL_RGN_HTX_PROD => ⟨0xa0f040, [(524288, 4)], 4⟩
  | .SPL_RGN_HTX_CONS => ⟨0xa0f044, [(524288, 4)], 4⟩
  | .SPL_RGN_STATUS => ⟨0xa0f050, [(524288, 4)], 4⟩
  | .SPL_RGN_OUT_LATE => ⟨0xa0f060, [(524288, 4)], 4⟩
  | .SPL_RGN_OUT_REFUSED => ⟨0xa0f064, [(524288, 4)], 4⟩
  | .TB_CTRL => ⟨0x500000, [], 4⟩
  | .TB_STATUS => ⟨0x500004, [], 4⟩
  | .TB_GM_NODE => ⟨0x500008, [], 4⟩
  | .TB_OFFSET => ⟨0x50000c, [], 4⟩
  | .TB_NOW => ⟨0x500010, [], 8⟩
  | .TB_MONO => ⟨0x500018, [], 8⟩
  | .TB_FREQ => ⟨0x500020, [], 4⟩
  | .TB_PHASE => ⟨0x500024, [], 4⟩
  | .TB_STEP => ⟨0x500028, [], 8⟩
  | .TB_PPS_SEC => ⟨0x500030, [], 8⟩
  | .TB_PPS_DELAY => ⟨0x500038, [], 4⟩
  | .TB_DL_LATE_RX => ⟨0x500040, [], 4⟩
  | .TB_DL_LATE_TX => ⟨0x500044, [], 4⟩
  | .TB_STEP_LAST => ⟨0x500048, [], 8⟩
  | .TB_ASYM => ⟨0x500080, [(4, 8)], 4⟩
  | .SCH_PERIOD => ⟨0x500100, [(32, 8)], 4⟩
  | .SCH_DELAY => ⟨0x500104, [(32, 8)], 4⟩
  | .SCH_NEXT => ⟨0x500108, [(32, 8)], 8⟩
  | .SCH_COUNT => ⟨0x500110, [(32, 8)], 4⟩
  | .SCH_STATUS => ⟨0x500114, [(32, 8)], 4⟩
  | .CLK_GSTATUS => ⟨0x600000, [], 4⟩
  | .CLK_FALL_SUM => ⟨0x600100, [(4, 16)], 4⟩
  | .CLK_CTRL => ⟨0x601000, [(64, 512)], 4⟩
  | .CLK_SRC => ⟨0x601004, [(64, 512)], 4⟩
  | .CLK_LIMIT => ⟨0x601008, [(64, 512)], 8⟩
  | .CLK_MIN => ⟨0x601010, [(64, 512)], 8⟩
  | .CLK_BIND => ⟨0x601018, [(64, 512)], 4⟩
  | .CLK_BIND_MASK => ⟨0x60101c, [(64, 512)], 4⟩
  | .CLK_CMD => ⟨0x601020, [(64, 512)], 4⟩
  | .CLK_STATUS => ⟨0x601024, [(64, 512)], 4⟩
  | .CLK_FALLS => ⟨0x601028, [(64, 512)], 4⟩
  | .CLK_ELAPSED => ⟨0x601030, [(64, 512)], 8⟩
  | .CLK_FALL_TIME => ⟨0x601038, [(64, 512)], 8⟩
  | .EVD_ID => ⟨0x100000, [(4096, 32)], 4⟩
  | .EVD_DOORBELL => ⟨0x100004, [(4096, 32)], 4⟩
  | .EVD_STATUS => ⟨0x100008, [(4096, 32)], 4⟩
  | .EVD_LAST => ⟨0x100040, [(4096, 32), (4, 9)], 4⟩
  | .EVD_SRC => ⟨0x100100, [(4096, 32), (4, 64)], 4⟩
  | .EVD_PEND => ⟨0x100200, [(4096, 32), (4, 8)], 4⟩
  | .SC_RGN_CTRL => ⟨0x301000, [(4096, 4)], 4⟩
  | .SC_RGN_SCRATCH => ⟨0x301004, [(4096, 4)], 4⟩
  | .SC_RGN_WAYPD => ⟨0x301008, [(4096, 4)], 4⟩
  | .SC_RGN_STATUS => ⟨0x30100c, [(4096, 4)], 4⟩
  | .SC_RNG_BASE => ⟨0x301010, [(4096, 4)], 8⟩
  | .SC_RNG_LEN => ⟨0x301018, [(4096, 4)], 8⟩
  | .SC_RNG_CMD => ⟨0x301020, [(4096, 4)], 4⟩
  | .SC_RNG_STATUS => ⟨0x301024, [(4096, 4)], 4⟩
  | .SC_RNG_COUNT => ⟨0x301028, [(4096, 4)], 4⟩
  | .SC_RNG_SKIPPED => ⟨0x30102c, [(4096, 4)], 4⟩
  | .SC_RNG_FAIL => ⟨0x301030, [(4096, 4)], 8⟩
  | .SC_SL_CE => ⟨0x308000, [(256, 16)], 4⟩
  | .SC_SL_ERR => ⟨0x308004, [(256, 16)], 4⟩
  | .SC_SL_ERR_ADDR => ⟨0x308008, [(256, 16)], 8⟩
  | .SC_SL_ERR_LOC => ⟨0x308010, [(256, 16)], 4⟩
  | .CS_CMD => ⟨0x30c000, [(256, 4)], 4⟩
  | .CS_ADDR => ⟨0x30c004, [(256, 4)], 4⟩
  | .CS_STATUS => ⟨0x30c008, [(256, 4)], 4⟩
  | .CS_ERASES => ⟨0x30c00c, [(256, 4)], 4⟩
  | .CS_DATA => ⟨0x30c020, [(256, 4), (4, 8)], 4⟩
  | .MEM_STATUS => ⟨0x400000, [], 4⟩
  | .MEM_TEMP => ⟨0x400004, [], 4⟩
  | .MEM_PATROL_CTRL => ⟨0x400010, [], 4⟩
  | .MEM_PATROL_POS => ⟨0x400018, [], 8⟩
  | .MEM_PATROL_PASSES => ⟨0x400020, [], 4⟩
  | .MEM_CE_THR => ⟨0x400024, [], 4⟩
  | .MEM_ERR_STATUS => ⟨0x400030, [], 4⟩
  | .MEM_ERR_DEVMASK => ⟨0x400034, [], 4⟩
  | .MEM_ERR_ADDR => ⟨0x400038, [], 8⟩
  | .MEM_ERR_TIME => ⟨0x400040, [], 8⟩
  | .MEM_CE_COUNT => ⟨0x400080, [(4, 8)], 4⟩
  | .MEM_UE_COUNT => ⟨0x4000a0, [(4, 8)], 4⟩
  | .MEM_SWP_NODE => ⟨0x400100, [], 4⟩
  | .MEM_SWP_LO => ⟨0x400108, [], 8⟩
  | .MEM_SWP_HI => ⟨0x400110, [], 8⟩
  | .MEM_SWP_CTRL => ⟨0x400118, [], 4⟩
  | .MEM_SWP_STATUS => ⟨0x40011c, [], 4⟩
  | .MEM_SWP_POS => ⟨0x400120, [], 8⟩
  | .MEM_SWP_CLEARED => ⟨0x400128, [], 4⟩
  | .GATE_VQ_STATUS => ⟨0x200000, [], 4⟩
  | .GATE_VQ_POP => ⟨0x200004, [], 4⟩
  | .GATE_VQ_LOST => ⟨0x200008, [], 4⟩
  | .GATE_UNMAPPED_COUNT => ⟨0x20000c, [], 4⟩
  | .GATE_VQ_HEAD => ⟨0x200010, [(8, 4)], 8⟩
  | .GATE_G_ID => ⟨0x210000, [(16384, 48)], 4⟩
  | .GATE_G_CTRL => ⟨0x210004, [(16384, 48)], 4⟩
  | .GATE_G_STATUS => ⟨0x210008, [(16384, 48)], 4⟩
  | .GATE_G_COUNT => ⟨0x21000c, [(16384, 48)], 4⟩
  | .GATE_ENT_BASE => ⟨0x210100, [(16384, 48), (32, 256)], 8⟩
  | .GATE_ENT_TOP => ⟨0x210108, [(16384, 48), (32, 256)], 8⟩
  | .GATE_ENT_MASTERS => ⟨0x210110, [(16384, 48), (32, 256)], 8⟩
  | .GATE_ENT_CTRL => ⟨0x210118, [(16384, 48), (32, 256)], 4⟩
  | .GATE_ENT_EPOCH => ⟨0x21011c, [(16384, 48), (32, 256)], 4⟩
  | .MESH_LG_CTRL => ⟨0xc00000, [(65536, 8)], 4⟩
  | .MESH_LG_STATUS => ⟨0xc00004, [(65536, 8)], 4⟩
  | .MESH_LG_VCW => ⟨0xc00008, [(65536, 8)], 4⟩
  | .MESH_LINK_STATUS => ⟨0xc00010, [(65536, 8), (4, 2)], 4⟩
  | .MESH_LINK_CRED => ⟨0xc00020, [(65536, 8), (8, 2)], 4⟩
  | .MESH_LINK_CRED2 => ⟨0xc00024, [(65536, 8), (8, 2)], 4⟩
  | .MESH_LG_FEC_CORR => ⟨0xc00040, [(65536, 8)], 4⟩
  | .MESH_LG_FEC_UNC => ⟨0xc00044, [(65536, 8)], 4⟩
  | .MESH_LG_AUTH_FAIL => ⟨0xc00048, [(65536, 8)], 4⟩
  | .MESH_LG_RESEND => ⟨0xc0004c, [(65536, 8)], 4⟩
  | .MESH_LG_RETRAINS => ⟨0xc00050, [(65536, 8)], 4⟩
  | .MESH_LG_LANE => ⟨0xc00060, [(65536, 8), (4, 4)], 4⟩
  | .MESH_TSN_CTRL => ⟨0xc00100, [(65536, 8)], 4⟩
  | .MESH_TSN_BASE => ⟨0xc00108, [(65536, 8)], 8⟩
  | .MESH_TSN_CYCLE => ⟨0xc00110, [(65536, 8)], 4⟩
  | .MESH_TSN_CBS => ⟨0xc00140, [(65536, 8), (4, 8)], 4⟩
  | .MESH_TSN_GCL => ⟨0xc00200, [(65536, 8), (4, 64)], 4⟩
  | .MESH_CTRL => ⟨0xc90000, [], 4⟩
  | .MESH_FED_ID => ⟨0xc90004, [], 4⟩
  | .MESH_STATUS => ⟨0xc90008, [], 4⟩
  | .MESH_RTO => ⟨0xc9000c, [], 4⟩
  | .MESH_DL => ⟨0xc90010, [], 4⟩
  | .MESH_ERR => ⟨0xc90014, [], 4⟩
  | .MESH_ERR_COUNT => ⟨0xc90018, [], 4⟩
  | .MESH_GOP_CMD => ⟨0xc90020, [], 4⟩
  | .MESH_GOP_STATUS => ⟨0xc90024, [], 4⟩
  | .MESH_BAR_PART => ⟨0xc90028, [], 4⟩
  | .MESH_BAR_DONE => ⟨0xc9002c, [], 4⟩
  | .MESH_SNAP_BASE => ⟨0xc90030, [], 8⟩
  | .MESH_SNAP_LEAD => ⟨0xc90038, [], 4⟩
  | .MESH_SNAP_TIME => ⟨0xc90040, [], 8⟩
  | .MESH_BC_TX => ⟨0xc90080, [(4, 8)], 4⟩
  | .MESH_BC_RX_STATUS => ⟨0xc900a0, [], 4⟩
  | .MESH_BC_RX_POP => ⟨0xc900a4, [], 4⟩
  | .MESH_BC_RX_HEAD => ⟨0xc900c0, [], 4⟩
  | .MESH_BC_RX_DATA => ⟨0xc900c4, [(4, 8)], 4⟩
  | .MESH_MEMBER => ⟨0xc90400, [(4, 128)], 4⟩
  | .MESH_ROUTE => ⟨0xca0000, [(4, 4095)], 4⟩
  | .MX_CTRL => ⟨0xd00000, [(65536, 4)], 4⟩
  | .MX_STATUS => ⟨0xd00004, [(65536, 4)], 4⟩
  | .MX_RING_BASE => ⟨0xd00008, [(65536, 4)], 8⟩
  | .MX_RING_SIZE => ⟨0xd00010, [(65536, 4)], 4⟩
  | .MX_PROD => ⟨0xd00014, [(65536, 4)], 4⟩
  | .MX_CONS => ⟨0xd00018, [(65536, 4)], 4⟩
  | .MX_FAIL => ⟨0xd00020, [(65536, 4)], 8⟩
  | .MX_JOBS => ⟨0xd00028, [(65536, 4)], 4⟩
  | .MX_CYCLES => ⟨0xd0002c, [(65536, 4)], 4⟩
  | .XFR_CH_HEAD => ⟨0xe00000, [(256, 16)], 8⟩
  | .XFR_CH_CMD => ⟨0xe00008, [(256, 16)], 4⟩
  | .XFR_CH_STATUS => ⟨0xe0000c, [(256, 16)], 4⟩
  | .XFR_CH_CUR => ⟨0xe00010, [(256, 16)], 8⟩
  | .XFR_CH_DONE => ⟨0xe00018, [(256, 16)], 8⟩
  | .XFR_CH_FAIL => ⟨0xe00020, [(256, 16)], 8⟩
  | .MBX_ID => ⟨0x10000000, [], 4⟩
  | .MBX_STATE => ⟨0x10000004, [], 4⟩
  | .MBX_LOCK => ⟨0x10000008, [], 4⟩
  | .MBX_INTR_COAL => ⟨0x1000000c, [], 4⟩
  | .MBX_HOST_ERR => ⟨0x10000010, [], 4⟩
  | .MBX_Q_CMD_PROD => ⟨0x10000100, [(32, 4)], 4⟩
  | .MBX_Q_CMD_CONS => ⟨0x10000104, [(32, 4)], 4⟩
  | .MBX_Q_CPL_PROD => ⟨0x10000108, [(32, 4)], 4⟩
  | .MBX_Q_CPL_CONS => ⟨0x1000010c, [(32, 4)], 4⟩
  | .MBX_Q_STATUS => ⟨0x10000110, [(32, 4)], 4⟩
  | .MBX_FW_IN_PROD => ⟨0xf00000, [(256, 4)], 4⟩
  | .MBX_FW_IN_CONS => ⟨0xf00004, [(256, 4)], 4⟩
  | .MBX_FW_OUT_PROD => ⟨0xf00008, [(256, 4)], 4⟩
  | .MBX_FW_OUT_CONS => ⟨0xf0000c, [(256, 4)], 4⟩
  | .CFG_STATUS => ⟨0x1000000, [], 4⟩
  | .CFG_MOVE_SETTLED => ⟨0x1000004, [], 4⟩
  | .CFG_MOVE_PROB => ⟨0x1000008, [], 4⟩
  | .CFG_MOVE_STAGED => ⟨0x100000c, [], 4⟩
  | .CFG_CMD => ⟨0x1000010, [], 4⟩
  | .CFG_COMMIT_AT => ⟨0x1000018, [], 8⟩
  | .CFG_COMMIT_TIME => ⟨0x1000020, [], 8⟩
  | .CFG_PROB_END => ⟨0x1000028, [], 8⟩
  | .CFG_REACH => ⟨0x1000030, [], 4⟩
  | .CFG_PROB_FALLS => ⟨0x1000034, [], 4⟩
  | .CFG_PROB_VIOL => ⟨0x1000038, [], 4⟩
  | .CFG_SVIEW_ADDR => ⟨0x1000040, [], 4⟩
  | .CFG_SVIEW_DATA => ⟨0x1000044, [], 4⟩
  | .CFG_DEVICE => ⟨0x1000050, [], 4⟩
  | .CFG_SLOT_STATE => ⟨0x1000080, [(8, 8)], 4⟩
  | .CFG_SLOT_MOVE => ⟨0x1000084, [(8, 8)], 4⟩
  | .ROOK_STATUS => ⟨0x1200000, [], 4⟩
  | .ROOK_ID => ⟨0x1200010, [(4, 8)], 4⟩
  | .ROOK_OWNER => ⟨0x1200030, [(4, 8)], 4⟩
  | .ROOK_SVN => ⟨0x1200050, [], 4⟩
  | .ROOK_DBG => ⟨0x1200060, [], 4⟩
  | .ROOK_DBG_LEFT => ⟨0x1200064, [], 4⟩
  | .ROOK_DBG_CHAL => ⟨0x1200070, [(4, 4)], 4⟩
  | .ROOK_ALERT => ⟨0x1200080, [], 4⟩
  | .GOOSE_CTRL => ⟨0x1200100, [], 4⟩
  | .GOOSE_STATUS => ⟨0x1200104, [], 4⟩
  | .CAR_STATUS => ⟨0x1000, [], 4⟩
  | .TWIN_CTRL => ⟨0x1004, [], 4⟩
  | .TWIN_STATUS => ⟨0x1008, [], 4⟩
  | .TWIN_CMD => ⟨0x100c, [], 4⟩
  | .TWIN_CASTLE_AT => ⟨0x1010, [], 8⟩
  | .TWIN_LAST_H => ⟨0x1018, [], 8⟩
  | .TWIN_HB_MISS => ⟨0x1020, [], 4⟩
  | .TWIN_MIR_PASS => ⟨0x1024, [], 4⟩
  | .TWIN_MIR_BASE => ⟨0x1040, [(8, 8)], 8⟩
  | .TWIN_MIR_LEN => ⟨0x1080, [(4, 8)], 4⟩
  | .FLT_CTRL => ⟨0x3000, [], 4⟩
  | .FLT_ESC => ⟨0x3004, [], 4⟩
  | .FLT_ESC_WIN => ⟨0x3008, [], 4⟩
  | .FLT_RGN_ACT => ⟨0x3010, [], 4⟩
  | .FLT_DEV_ACT => ⟨0x3014, [], 4⟩
  | .FLT_CMD => ⟨0x3018, [], 4⟩
  | .FLT_RST => ⟨0x3020, [], 4⟩
  | .FLT_RST_STATUS => ⟨0x3024, [], 4⟩
  | .FLT_RGN_STATE => ⟨0x3028, [], 4⟩
  | .FLT_Q_STATUS => ⟨0x3040, [], 4⟩
  | .FLT_Q_POP => ⟨0x3044, [], 4⟩
  | .FLT_Q_LOST => ⟨0x3048, [], 4⟩
  | .FLT_Q_HEAD => ⟨0x3050, [(8, 4)], 8⟩
  | .FLT_SUM_CELL => ⟨0x3080, [(8, 4)], 4⟩
  | .FLT_SUM_BLOCK => ⟨0x3084, [(8, 4)], 4⟩
  | .FLT_FED_LAST => ⟨0x30b0, [], 4⟩
  | .EVR_ROUTE_LO => ⟨0x180000, [(8, 256)], 4⟩
  | .EVR_ROUTE_HI => ⟨0x180004, [(8, 256)], 4⟩
  | .EVR_SW => ⟨0x180800, [], 4⟩
  | .EVR_UNROUTED => ⟨0x180804, [], 4⟩
  | .EVR_LAST_CLAIM => ⟨0x180808, [], 4⟩
  | .PWR_DOM_EN0 => ⟨0x1100000, [], 4⟩
  | .PWR_DOM_EN1 => ⟨0x1100004, [], 4⟩
  | .PWR_DOM_STATE => ⟨0x1100010, [(4, 3)], 4⟩
  | .PWR_DOM_FAULT => ⟨0x1100020, [(4, 3)], 4⟩
  | .PWR_FEED => ⟨0x1100030, [], 4⟩
  | .PWR_INPUT => ⟨0x1100034, [], 4⟩
  | .PWR_HOLDUP => ⟨0x1100038, [], 4⟩
  | .PWR_TEMP => ⟨0x1100040, [], 4⟩
  | .PWR_THR_CTRL => ⟨0x1100048, [], 4⟩
  | .PWR_THR_STATUS => ⟨0x110004c, [], 4⟩
  | .PWR_THR_TIME => ⟨0x1100050, [], 4⟩

/-- Reset values that depend on the instance (R61, R101, R230, R293, R327, R456). -/
def Reg.resetBy : Reg → Nat → Option Nat
  | .PBLK_ID, i => some (i + (i / 4) * 32 + (i / 8) * 256)
  | .SPL_BLK_ID, i => some (i + (i / 8) * 32)
  | .EVD_ID, i => some (i)
  | .GATE_G_ID, i => some (i + gateEntries i * 256)
  | .MESH_LINK_CRED, i => some (if i % 2 = 0 then 1024 + 1024 * 65536 else 0)
  | .MESH_LINK_CRED2, i => some (if i % 2 = 0 then 64 + 4440 * 65536 else 0)
  | .EVR_ROUTE_LO, i => some (if i < 32 then 2 ^ i else 0)
  | .EVR_ROUTE_HI, i => some (if (192 ≤ i ∧ i ≤ 199) ∨ (236 ≤ i ∧ i ≤ 251) then 2 else 0)
  | _, _ => none

/-- The reset value of instance `i` of a register: its fields' reset values. -/
def Reg.resetVal (r : Reg) (i : Nat) : Nat :=
  match r.resetBy i with
  | some v => v
  | none => r.fields.foldl (fun a f => a + f.reset * 2 ^ f.lo) 0

/-- Every register, in the order of the chapters. -/
def allRegs : List Reg :=
  [.PBLK_ID, .PBLK_CARRIER, .PBLK_FAULT_SUM, .PBLK_LINK_UP, .PBLK_CLASS, .PBLK_CTRL, .PBLK_TDR_OWNER, .PBLK_TEMP, .PORT_MODE, .PORT_THRESH, .PORT_FILTER, .PORT_SAFE, .PORT_LINK_CTRL, .PORT_HART_CTRL, .PORT_DIAG_CTRL, .PORT_TDR_CTRL, .PORT_STATUS, .PORT_FAULT, .PORT_FAULT_EN, .PORT_NETCHK, .PORT_COUNT_LO, .PORT_COUNT_HI, .PORT_LINK_ERR, .PORT_RAW, .PORT_OUT, .PORT_TDR_RESULT, .FSW_CTRL, .FSW_STATUS, .FSW_TBL_CMD, .FSW_TBL_DATA, .FSW_DROP_VLAN, .FSW_DROP_FULL, .FSW_DROP_NOLINK, .FSW_DROP_BUF, .SPL_BLK_ID, .SPL_BLK_CTRL, .SPL_BLK_DR, .SPL_BLK_LOAD, .SPL_BLK_STATUS, .SPL_BLK_OUT_PEND, .SPL_PORT_CHA, .SPL_PORT_CHB, .SPL_PORT_OGAIN, .SPL_PORT_OOFFSET, .SPL_PORT_PULSE, .SPL_PORT_STATUS, .SPL_REC_CTRL, .SPL_REC_HYST, .SPL_REC_GAIN, .SPL_REC_OFFSET, .SPL_REC_SCALE, .SPL_REC_BIAS, .SPL_REC_LIM_HH, .SPL_REC_LIM_H, .SPL_REC_LIM_L, .SPL_REC_LIM_LL, .SPL_REC_RATE, .SPL_REC_CUT, .SPL_RGN_CAL, .SPL_RGN_LRX_PROD] ++
  [.SPL_RGN_LRX_CONS, .SPL_RGN_LRX_DROP, .SPL_RGN_LTX_PROD, .SPL_RGN_LTX_CONS, .SPL_RGN_LTX_ERR, .SPL_RGN_HRX_PROD, .SPL_RGN_HRX_CONS, .SPL_RGN_HRX_DROP, .SPL_RGN_HTX_PROD, .SPL_RGN_HTX_CONS, .SPL_RGN_STATUS, .SPL_RGN_OUT_LATE, .SPL_RGN_OUT_REFUSED, .TB_CTRL, .TB_STATUS, .TB_GM_NODE, .TB_OFFSET, .TB_NOW, .TB_MONO, .TB_FREQ, .TB_PHASE, .TB_STEP, .TB_PPS_SEC, .TB_PPS_DELAY, .TB_DL_LATE_RX, .TB_DL_LATE_TX, .TB_STEP_LAST, .TB_ASYM, .SCH_PERIOD, .SCH_DELAY, .SCH_NEXT, .SCH_COUNT, .SCH_STATUS, .CLK_GSTATUS, .CLK_FALL_SUM, .CLK_CTRL, .CLK_SRC, .CLK_LIMIT, .CLK_MIN, .CLK_BIND, .CLK_BIND_MASK, .CLK_CMD, .CLK_STATUS, .CLK_FALLS, .CLK_ELAPSED, .CLK_FALL_TIME, .EVD_ID, .EVD_DOORBELL, .EVD_STATUS, .EVD_LAST, .EVD_SRC, .EVD_PEND, .SC_RGN_CTRL, .SC_RGN_SCRATCH, .SC_RGN_WAYPD, .SC_RGN_STATUS, .SC_RNG_BASE, .SC_RNG_LEN, .SC_RNG_CMD, .SC_RNG_STATUS] ++
  [.SC_RNG_COUNT, .SC_RNG_SKIPPED, .SC_RNG_FAIL, .SC_SL_CE, .SC_SL_ERR, .SC_SL_ERR_ADDR, .SC_SL_ERR_LOC, .CS_CMD, .CS_ADDR, .CS_STATUS, .CS_ERASES, .CS_DATA, .MEM_STATUS, .MEM_TEMP, .MEM_PATROL_CTRL, .MEM_PATROL_POS, .MEM_PATROL_PASSES, .MEM_CE_THR, .MEM_ERR_STATUS, .MEM_ERR_DEVMASK, .MEM_ERR_ADDR, .MEM_ERR_TIME, .MEM_CE_COUNT, .MEM_UE_COUNT, .MEM_SWP_NODE, .MEM_SWP_LO, .MEM_SWP_HI, .MEM_SWP_CTRL, .MEM_SWP_STATUS, .MEM_SWP_POS, .MEM_SWP_CLEARED, .GATE_VQ_STATUS, .GATE_VQ_POP, .GATE_VQ_LOST, .GATE_UNMAPPED_COUNT, .GATE_VQ_HEAD, .GATE_G_ID, .GATE_G_CTRL, .GATE_G_STATUS, .GATE_G_COUNT, .GATE_ENT_BASE, .GATE_ENT_TOP, .GATE_ENT_MASTERS, .GATE_ENT_CTRL, .GATE_ENT_EPOCH, .MESH_LG_CTRL, .MESH_LG_STATUS, .MESH_LG_VCW, .MESH_LINK_STATUS, .MESH_LINK_CRED, .MESH_LINK_CRED2, .MESH_LG_FEC_CORR, .MESH_LG_FEC_UNC, .MESH_LG_AUTH_FAIL, .MESH_LG_RESEND, .MESH_LG_RETRAINS, .MESH_LG_LANE, .MESH_TSN_CTRL, .MESH_TSN_BASE, .MESH_TSN_CYCLE] ++
  [.MESH_TSN_CBS, .MESH_TSN_GCL, .MESH_CTRL, .MESH_FED_ID, .MESH_STATUS, .MESH_RTO, .MESH_DL, .MESH_ERR, .MESH_ERR_COUNT, .MESH_GOP_CMD, .MESH_GOP_STATUS, .MESH_BAR_PART, .MESH_BAR_DONE, .MESH_SNAP_BASE, .MESH_SNAP_LEAD, .MESH_SNAP_TIME, .MESH_BC_TX, .MESH_BC_RX_STATUS, .MESH_BC_RX_POP, .MESH_BC_RX_HEAD, .MESH_BC_RX_DATA, .MESH_MEMBER, .MESH_ROUTE, .MX_CTRL, .MX_STATUS, .MX_RING_BASE, .MX_RING_SIZE, .MX_PROD, .MX_CONS, .MX_FAIL, .MX_JOBS, .MX_CYCLES, .XFR_CH_HEAD, .XFR_CH_CMD, .XFR_CH_STATUS, .XFR_CH_CUR, .XFR_CH_DONE, .XFR_CH_FAIL, .MBX_ID, .MBX_STATE, .MBX_LOCK, .MBX_INTR_COAL, .MBX_HOST_ERR, .MBX_Q_CMD_PROD, .MBX_Q_CMD_CONS, .MBX_Q_CPL_PROD, .MBX_Q_CPL_CONS, .MBX_Q_STATUS, .MBX_FW_IN_PROD, .MBX_FW_IN_CONS, .MBX_FW_OUT_PROD, .MBX_FW_OUT_CONS, .CFG_STATUS, .CFG_MOVE_SETTLED, .CFG_MOVE_PROB, .CFG_MOVE_STAGED, .CFG_CMD, .CFG_COMMIT_AT, .CFG_COMMIT_TIME, .CFG_PROB_END] ++
  [.CFG_REACH, .CFG_PROB_FALLS, .CFG_PROB_VIOL, .CFG_SVIEW_ADDR, .CFG_SVIEW_DATA, .CFG_DEVICE, .CFG_SLOT_STATE, .CFG_SLOT_MOVE, .ROOK_STATUS, .ROOK_ID, .ROOK_OWNER, .ROOK_SVN, .ROOK_DBG, .ROOK_DBG_LEFT, .ROOK_DBG_CHAL, .ROOK_ALERT, .GOOSE_CTRL, .GOOSE_STATUS, .CAR_STATUS, .TWIN_CTRL, .TWIN_STATUS, .TWIN_CMD, .TWIN_CASTLE_AT, .TWIN_LAST_H, .TWIN_HB_MISS, .TWIN_MIR_PASS, .TWIN_MIR_BASE, .TWIN_MIR_LEN, .FLT_CTRL, .FLT_ESC, .FLT_ESC_WIN, .FLT_RGN_ACT, .FLT_DEV_ACT, .FLT_CMD, .FLT_RST, .FLT_RST_STATUS, .FLT_RGN_STATE, .FLT_Q_STATUS, .FLT_Q_POP, .FLT_Q_LOST, .FLT_Q_HEAD, .FLT_SUM_CELL, .FLT_SUM_BLOCK, .FLT_FED_LAST, .EVR_ROUTE_LO, .EVR_ROUTE_HI, .EVR_SW, .EVR_UNROUTED, .EVR_LAST_CLAIM, .PWR_DOM_EN0, .PWR_DOM_EN1, .PWR_DOM_STATE, .PWR_DOM_FAULT, .PWR_FEED, .PWR_INPUT, .PWR_HOLDUP, .PWR_TEMP, .PWR_THR_CTRL, .PWR_THR_STATUS, .PWR_THR_TIME]

/-! The named fields. -/
namespace F
def PBLK_ID_BLOCK : Fld := ⟨.PBLK_ID, 0, 5⟩
def PBLK_ID_DIE : Fld := ⟨.PBLK_ID, 5, 3⟩
def PBLK_ID_REGION : Fld := ⟨.PBLK_ID, 8, 2⟩
def PBLK_CARRIER_DESC_OK : Fld := ⟨.PBLK_CARRIER, 0, 1⟩
def PBLK_CARRIER_TWIN : Fld := ⟨.PBLK_CARRIER, 1, 1⟩
def PBLK_CARRIER_STANDBY : Fld := ⟨.PBLK_CARRIER, 2, 1⟩
def PBLK_CARRIER_DIE_LINK : Fld := ⟨.PBLK_CARRIER, 3, 1⟩
def PBLK_FAULT_SUM_PORT : Fld := ⟨.PBLK_FAULT_SUM, 0, 32⟩
def PBLK_LINK_UP_PORT : Fld := ⟨.PBLK_LINK_UP, 0, 32⟩
def PBLK_CLASS_CLASS (j : Nat) : Fld := ⟨.PBLK_CLASS, 0 + 4 * j, 4⟩
def PBLK_CTRL_SCAN_EN : Fld := ⟨.PBLK_CTRL, 0, 1⟩
def PBLK_CTRL_SCAN : Fld := ⟨.PBLK_CTRL, 8, 8⟩
def PBLK_TDR_OWNER_PORT : Fld := ⟨.PBLK_TDR_OWNER, 0, 5⟩
def PBLK_TDR_OWNER_VALID : Fld := ⟨.PBLK_TDR_OWNER, 5, 1⟩
def PBLK_TEMP_TEMP : Fld := ⟨.PBLK_TEMP, 0, 16⟩
def PORT_MODE_MODE : Fld := ⟨.PORT_MODE, 0, 4⟩
def PORT_MODE_RANGE : Fld := ⟨.PORT_MODE, 4, 2⟩
def PORT_THRESH_HIGH : Fld := ⟨.PORT_THRESH, 0, 16⟩
def PORT_THRESH_LOW : Fld := ⟨.PORT_THRESH, 16, 16⟩
def PORT_FILTER_DEBOUNCE : Fld := ⟨.PORT_FILTER, 0, 8⟩
def PORT_FILTER_MINPULSE : Fld := ⟨.PORT_FILTER, 8, 8⟩
def PORT_SAFE_SAFE_CODE : Fld := ⟨.PORT_SAFE, 0, 16⟩
def PORT_SAFE_ACTION : Fld := ⟨.PORT_SAFE, 16, 2⟩
def PORT_LINK_CTRL_AMPL : Fld := ⟨.PORT_LINK_CTRL, 0, 2⟩
def PORT_LINK_CTRL_PVID : Fld := ⟨.PORT_LINK_CTRL, 4, 12⟩
def PORT_HART_CTRL_ROLE : Fld := ⟨.PORT_HART_CTRL, 0, 1⟩
def PORT_HART_CTRL_PREAMBLE : Fld := ⟨.PORT_HART_CTRL, 4, 4⟩
def PORT_DIAG_CTRL_OPEN : Fld := ⟨.PORT_DIAG_CTRL, 0, 1⟩
def PORT_DIAG_CTRL_NETCHK : Fld := ⟨.PORT_DIAG_CTRL, 1, 1⟩
def PORT_TDR_CTRL_START : Fld := ⟨.PORT_TDR_CTRL, 0, 1⟩
def PORT_TDR_CTRL_ABORT : Fld := ⟨.PORT_TDR_CTRL, 1, 1⟩
def PORT_TDR_CTRL_AVG : Fld := ⟨.PORT_TDR_CTRL, 4, 4⟩
def PORT_STATUS_EFF_MODE : Fld := ⟨.PORT_STATUS, 0, 4⟩
def PORT_STATUS_CARRIER_OK : Fld := ⟨.PORT_STATUS, 4, 1⟩
def PORT_STATUS_MISMATCH : Fld := ⟨.PORT_STATUS, 5, 1⟩
def PORT_STATUS_MISREASON : Fld := ⟨.PORT_STATUS, 6, 2⟩
def PORT_STATUS_TRANSITION : Fld := ⟨.PORT_STATUS, 8, 1⟩
def PORT_STATUS_STANDBY : Fld := ⟨.PORT_STATUS, 9, 1⟩
def PORT_STATUS_LINK_UP : Fld := ⟨.PORT_STATUS, 10, 1⟩
def PORT_STATUS_AMPL_2V4 : Fld := ⟨.PORT_STATUS, 11, 1⟩
def PORT_STATUS_SQI : Fld := ⟨.PORT_STATUS, 12, 3⟩
def PORT_STATUS_HART_CD : Fld := ⟨.PORT_STATUS, 15, 1⟩
def PORT_STATUS_OPEN : Fld := ⟨.PORT_STATUS, 16, 1⟩
def PORT_STATUS_OVERRANGE : Fld := ⟨.PORT_STATUS, 17, 1⟩
def PORT_STATUS_LEAK : Fld := ⟨.PORT_STATUS, 18, 1⟩
def PORT_STATUS_OUTDEV : Fld := ⟨.PORT_STATUS, 19, 1⟩
def PORT_STATUS_TDRBUSY : Fld := ⟨.PORT_STATUS, 20, 1⟩
def PORT_STATUS_TDRDONE : Fld := ⟨.PORT_STATUS, 21, 1⟩
def PORT_FAULT_MISMATCH : Fld := ⟨.PORT_FAULT, 0, 1⟩
def PORT_FAULT_OPEN : Fld := ⟨.PORT_FAULT, 1, 1⟩
def PORT_FAULT_OVERRANGE : Fld := ⟨.PORT_FAULT, 2, 1⟩
def PORT_FAULT_LEAK : Fld := ⟨.PORT_FAULT, 3, 1⟩
def PORT_FAULT_OUTDEV : Fld := ⟨.PORT_FAULT, 4, 1⟩
def PORT_FAULT_LINKDOWN : Fld := ⟨.PORT_FAULT, 5, 1⟩
def PORT_FAULT_QERR : Fld := ⟨.PORT_FAULT, 6, 1⟩
def PORT_FAULT_TDRREJ : Fld := ⟨.PORT_FAULT, 7, 1⟩
def PORT_FAULT_EN_EN : Fld := ⟨.PORT_FAULT_EN, 0, 8⟩
def PORT_NETCHK_OHMS : Fld := ⟨.PORT_NETCHK, 0, 24⟩
def PORT_NETCHK_PASS : Fld := ⟨.PORT_NETCHK, 24, 1⟩
def PORT_COUNT_LO_COUNT : Fld := ⟨.PORT_COUNT_LO, 0, 32⟩
def PORT_COUNT_HI_COUNT : Fld := ⟨.PORT_COUNT_HI, 0, 32⟩
def PORT_LINK_ERR_ERR : Fld := ⟨.PORT_LINK_ERR, 0, 32⟩
def PORT_RAW_CODE : Fld := ⟨.PORT_RAW, 0, 32⟩
def PORT_OUT_CODE : Fld := ⟨.PORT_OUT, 0, 16⟩
def PORT_TDR_RESULT_INDEX : Fld := ⟨.PORT_TDR_RESULT, 0, 14⟩
def PORT_TDR_RESULT_NEG : Fld := ⟨.PORT_TDR_RESULT, 14, 1⟩
def PORT_TDR_RESULT_ABORTED : Fld := ⟨.PORT_TDR_RESULT, 15, 1⟩
def FSW_CTRL_ENABLE : Fld := ⟨.FSW_CTRL, 0, 1⟩
def FSW_CTRL_LEARN : Fld := ⟨.FSW_CTRL, 1, 1⟩
def FSW_CTRL_AGE : Fld := ⟨.FSW_CTRL, 8, 8⟩
def FSW_STATUS_USED : Fld := ⟨.FSW_STATUS, 0, 14⟩
def FSW_STATUS_BUSY : Fld := ⟨.FSW_STATUS, 16, 1⟩
def FSW_STATUS_CMDLOST : Fld := ⟨.FSW_STATUS, 17, 1⟩
def FSW_TBL_CMD_INDEX : Fld := ⟨.FSW_TBL_CMD, 0, 13⟩
def FSW_TBL_CMD_SPACE : Fld := ⟨.FSW_TBL_CMD, 13, 1⟩
def FSW_TBL_CMD_OP : Fld := ⟨.FSW_TBL_CMD, 16, 2⟩
def FSW_TBL_DATA_DATA : Fld := ⟨.FSW_TBL_DATA, 0, 32⟩
def FSW_DROP_VLAN_COUNT : Fld := ⟨.FSW_DROP_VLAN, 0, 32⟩
def FSW_DROP_FULL_COUNT : Fld := ⟨.FSW_DROP_FULL, 0, 32⟩
def FSW_DROP_NOLINK_COUNT : Fld := ⟨.FSW_DROP_NOLINK, 0, 32⟩
def FSW_DROP_BUF_COUNT : Fld := ⟨.FSW_DROP_BUF, 0, 32⟩
def SPL_BLK_ID_BLOCK : Fld := ⟨.SPL_BLK_ID, 0, 5⟩
def SPL_BLK_ID_REGION : Fld := ⟨.SPL_BLK_ID, 5, 2⟩
def SPL_BLK_CTRL_ENABLE : Fld := ⟨.SPL_BLK_CTRL, 0, 1⟩
def SPL_BLK_CTRL_CSLOT : Fld := ⟨.SPL_BLK_CTRL, 1, 3⟩
def SPL_BLK_CTRL_COMMIT_EN : Fld := ⟨.SPL_BLK_CTRL, 4, 1⟩
def SPL_BLK_CTRL_FRAME_EV : Fld := ⟨.SPL_BLK_CTRL, 5, 1⟩
def SPL_BLK_CTRL_HOLDT : Fld := ⟨.SPL_BLK_CTRL, 8, 8⟩
def SPL_BLK_DR_PERIOD : Fld := ⟨.SPL_BLK_DR, 0, 25⟩
def SPL_BLK_LOAD_LOAD : Fld := ⟨.SPL_BLK_LOAD, 0, 16⟩
def SPL_BLK_LOAD_STAGED : Fld := ⟨.SPL_BLK_LOAD, 16, 16⟩
def SPL_BLK_STATUS_PREP_FAIL : Fld := ⟨.SPL_BLK_STATUS, 0, 1⟩
def SPL_BLK_STATUS_FRAME : Fld := ⟨.SPL_BLK_STATUS, 1, 1⟩
def SPL_BLK_STATUS_DIE_LOST : Fld := ⟨.SPL_BLK_STATUS, 2, 1⟩
def SPL_BLK_STATUS_NOCOMMIT : Fld := ⟨.SPL_BLK_STATUS, 3, 1⟩
def SPL_BLK_OUT_PEND_PORT : Fld := ⟨.SPL_BLK_OUT_PEND, 0, 32⟩
def SPL_PORT_CHA_PERIOD : Fld := ⟨.SPL_PORT_CHA, 0, 25⟩
def SPL_PORT_CHA_TYPE : Fld := ⟨.SPL_PORT_CHA, 25, 1⟩
def SPL_PORT_CHB_PERIOD : Fld := ⟨.SPL_PORT_CHB, 0, 25⟩
def SPL_PORT_CHB_TYPE : Fld := ⟨.SPL_PORT_CHB, 25, 1⟩
def SPL_PORT_OGAIN_OGAIN : Fld := ⟨.SPL_PORT_OGAIN, 0, 64⟩
def SPL_PORT_OOFFSET_OOFFSET : Fld := ⟨.SPL_PORT_OOFFSET, 0, 64⟩
def SPL_PORT_PULSE_ZTIMEOUT : Fld := ⟨.SPL_PORT_PULSE, 0, 16⟩
def SPL_PORT_STATUS_SETTLING_A : Fld := ⟨.SPL_PORT_STATUS, 0, 1⟩
def SPL_PORT_STATUS_SETTLING_B : Fld := ⟨.SPL_PORT_STATUS, 1, 1⟩
def SPL_PORT_STATUS_OUT_PENDING : Fld := ⟨.SPL_PORT_STATUS, 2, 1⟩
def SPL_PORT_STATUS_OUT_HELD : Fld := ⟨.SPL_PORT_STATUS, 3, 1⟩
def SPL_PORT_STATUS_OUT_SAFE : Fld := ⟨.SPL_PORT_STATUS, 4, 1⟩
def SPL_REC_CTRL_SOURCE : Fld := ⟨.SPL_REC_CTRL, 0, 4⟩
def SPL_REC_CTRL_CAL : Fld := ⟨.SPL_REC_CTRL, 4, 2⟩
def SPL_REC_CTRL_CONV : Fld := ⟨.SPL_REC_CTRL, 6, 2⟩
def SPL_REC_CTRL_SLOT : Fld := ⟨.SPL_REC_CTRL, 8, 8⟩
def SPL_REC_CTRL_LL_EN : Fld := ⟨.SPL_REC_CTRL, 16, 1⟩
def SPL_REC_CTRL_L_EN : Fld := ⟨.SPL_REC_CTRL, 17, 1⟩
def SPL_REC_CTRL_H_EN : Fld := ⟨.SPL_REC_CTRL, 18, 1⟩
def SPL_REC_CTRL_HH_EN : Fld := ⟨.SPL_REC_CTRL, 19, 1⟩
def SPL_REC_CTRL_RATE_EN : Fld := ⟨.SPL_REC_CTRL, 20, 1⟩
def SPL_REC_CTRL_NE43_EN : Fld := ⟨.SPL_REC_CTRL, 21, 1⟩
def SPL_REC_CTRL_EVT : Fld := ⟨.SPL_REC_CTRL, 22, 1⟩
def SPL_REC_HYST_HYST : Fld := ⟨.SPL_REC_HYST, 0, 32⟩
def SPL_REC_GAIN_GAIN : Fld := ⟨.SPL_REC_GAIN, 0, 64⟩
def SPL_REC_OFFSET_OFFSET : Fld := ⟨.SPL_REC_OFFSET, 0, 64⟩
def SPL_REC_SCALE_SCALE : Fld := ⟨.SPL_REC_SCALE, 0, 64⟩
def SPL_REC_BIAS_BIAS : Fld := ⟨.SPL_REC_BIAS, 0, 64⟩
def SPL_REC_LIM_HH_LIM_HH : Fld := ⟨.SPL_REC_LIM_HH, 0, 32⟩
def SPL_REC_LIM_H_LIM_H : Fld := ⟨.SPL_REC_LIM_H, 0, 32⟩
def SPL_REC_LIM_L_LIM_L : Fld := ⟨.SPL_REC_LIM_L, 0, 32⟩
def SPL_REC_LIM_LL_LIM_LL : Fld := ⟨.SPL_REC_LIM_LL, 0, 32⟩
def SPL_REC_RATE_RATE : Fld := ⟨.SPL_REC_RATE, 0, 32⟩
def SPL_REC_CUT_CUT : Fld := ⟨.SPL_REC_CUT, 0, 32⟩
def SPL_RGN_CAL_BANK : Fld := ⟨.SPL_RGN_CAL, 0, 1⟩
def SPL_RGN_LRX_PROD_INDEX : Fld := ⟨.SPL_RGN_LRX_PROD, 0, 16⟩
def SPL_RGN_LRX_CONS_INDEX : Fld := ⟨.SPL_RGN_LRX_CONS, 0, 16⟩
def SPL_RGN_LRX_DROP_COUNT : Fld := ⟨.SPL_RGN_LRX_DROP, 0, 32⟩
def SPL_RGN_LTX_PROD_INDEX : Fld := ⟨.SPL_RGN_LTX_PROD, 0, 16⟩
def SPL_RGN_LTX_CONS_INDEX : Fld := ⟨.SPL_RGN_LTX_CONS, 0, 16⟩
def SPL_RGN_LTX_ERR_COUNT : Fld := ⟨.SPL_RGN_LTX_ERR, 0, 32⟩
def SPL_RGN_HRX_PROD_INDEX : Fld := ⟨.SPL_RGN_HRX_PROD, 0, 16⟩
def SPL_RGN_HRX_CONS_INDEX : Fld := ⟨.SPL_RGN_HRX_CONS, 0, 16⟩
def SPL_RGN_HRX_DROP_COUNT : Fld := ⟨.SPL_RGN_HRX_DROP, 0, 32⟩
def SPL_RGN_HTX_PROD_INDEX : Fld := ⟨.SPL_RGN_HTX_PROD, 0, 16⟩
def SPL_RGN_HTX_CONS_INDEX : Fld := ⟨.SPL_RGN_HTX_CONS, 0, 16⟩
def SPL_RGN_STATUS_RING_ERR : Fld := ⟨.SPL_RGN_STATUS, 0, 1⟩
def SPL_RGN_STATUS_ACTIVE_WR : Fld := ⟨.SPL_RGN_STATUS, 1, 1⟩
def SPL_RGN_OUT_LATE_COUNT : Fld := ⟨.SPL_RGN_OUT_LATE, 0, 32⟩
def SPL_RGN_OUT_REFUSED_COUNT : Fld := ⟨.SPL_RGN_OUT_REFUSED, 0, 32⟩
def TB_CTRL_SRC : Fld := ⟨.TB_CTRL, 0, 3⟩
def TB_CTRL_GM : Fld := ⟨.TB_CTRL, 3, 1⟩
def TB_CTRL_LOCK_THR : Fld := ⟨.TB_CTRL, 8, 8⟩
def TB_CTRL_HOLD : Fld := ⟨.TB_CTRL, 16, 8⟩
def TB_STATUS_LOCKED : Fld := ⟨.TB_STATUS, 0, 1⟩
def TB_STATUS_HOLDOVER : Fld := ⟨.TB_STATUS, 1, 1⟩
def TB_STATUS_SRC_OK : Fld := ⟨.TB_STATUS, 2, 1⟩
def TB_STATUS_IS_GM : Fld := ⟨.TB_STATUS, 3, 1⟩
def TB_STATUS_GM_CONFLICT : Fld := ⟨.TB_STATUS, 4, 1⟩
def TB_STATUS_STEPPED : Fld := ⟨.TB_STATUS, 5, 1⟩
def TB_STATUS_STEP_REFUSED : Fld := ⟨.TB_STATUS, 6, 1⟩
def TB_STATUS_SLEWING : Fld := ⟨.TB_STATUS, 7, 1⟩
def TB_STATUS_HOPS : Fld := ⟨.TB_STATUS, 8, 8⟩
def TB_STATUS_PARENT : Fld := ⟨.TB_STATUS, 16, 3⟩
def TB_STATUS_PARENT_VALID : Fld := ⟨.TB_STATUS, 19, 1⟩
def TB_GM_NODE_NODE : Fld := ⟨.TB_GM_NODE, 0, 12⟩
def TB_OFFSET_OFFSET : Fld := ⟨.TB_OFFSET, 0, 32⟩
def TB_NOW_TIME : Fld := ⟨.TB_NOW, 0, 64⟩
def TB_MONO_TIME : Fld := ⟨.TB_MONO, 0, 64⟩
def TB_FREQ_ADJ : Fld := ⟨.TB_FREQ, 0, 32⟩
def TB_PHASE_DELTA : Fld := ⟨.TB_PHASE, 0, 32⟩
def TB_STEP_TIME : Fld := ⟨.TB_STEP, 0, 64⟩
def TB_PPS_SEC_SEC : Fld := ⟨.TB_PPS_SEC, 0, 40⟩
def TB_PPS_DELAY_DELAY : Fld := ⟨.TB_PPS_DELAY, 0, 16⟩
def TB_DL_LATE_RX_COUNT : Fld := ⟨.TB_DL_LATE_RX, 0, 32⟩
def TB_DL_LATE_TX_COUNT : Fld := ⟨.TB_DL_LATE_TX, 0, 32⟩
def TB_STEP_LAST_DELTA : Fld := ⟨.TB_STEP_LAST, 0, 64⟩
def TB_ASYM_ASYM : Fld := ⟨.TB_ASYM, 0, 16⟩
def TB_ASYM_CAL : Fld := ⟨.TB_ASYM, 16, 1⟩
def SCH_PERIOD_PERIOD : Fld := ⟨.SCH_PERIOD, 0, 25⟩
def SCH_DELAY_DELAY : Fld := ⟨.SCH_DELAY, 0, 25⟩
def SCH_NEXT_TIME : Fld := ⟨.SCH_NEXT, 0, 64⟩
def SCH_COUNT_COUNT : Fld := ⟨.SCH_COUNT, 0, 32⟩
def SCH_STATUS_ACTIVE : Fld := ⟨.SCH_STATUS, 0, 1⟩
def CLK_GSTATUS_PREP_FAIL : Fld := ⟨.CLK_GSTATUS, 0, 1⟩
def CLK_GSTATUS_REASON : Fld := ⟨.CLK_GSTATUS, 1, 2⟩
def CLK_GSTATUS_CLOCK : Fld := ⟨.CLK_GSTATUS, 3, 9⟩
def CLK_FALL_SUM_FALLEN : Fld := ⟨.CLK_FALL_SUM, 0, 32⟩
def CLK_CTRL_MODE : Fld := ⟨.CLK_CTRL, 0, 3⟩
def CLK_CTRL_ACTION : Fld := ⟨.CLK_CTRL, 4, 3⟩
def CLK_CTRL_AUTOREL : Fld := ⟨.CLK_CTRL, 7, 1⟩
def CLK_CTRL_EV_EN : Fld := ⟨.CLK_CTRL, 8, 1⟩
def CLK_SRC_START : Fld := ⟨.CLK_SRC, 0, 9⟩
def CLK_SRC_STOP : Fld := ⟨.CLK_SRC, 16, 9⟩
def CLK_LIMIT_LIMIT : Fld := ⟨.CLK_LIMIT, 0, 40⟩
def CLK_MIN_MIN : Fld := ⟨.CLK_MIN, 0, 40⟩
def CLK_BIND_BLOCK : Fld := ⟨.CLK_BIND, 0, 5⟩
def CLK_BIND_MASK_MASK : Fld := ⟨.CLK_BIND_MASK, 0, 32⟩
def CLK_CMD_START : Fld := ⟨.CLK_CMD, 0, 1⟩
def CLK_CMD_STOP : Fld := ⟨.CLK_CMD, 1, 1⟩
def CLK_CMD_RELEASE : Fld := ⟨.CLK_CMD, 2, 1⟩
def CLK_STATUS_RUNNING : Fld := ⟨.CLK_STATUS, 0, 1⟩
def CLK_STATUS_FALLEN : Fld := ⟨.CLK_STATUS, 1, 1⟩
def CLK_STATUS_EARLY : Fld := ⟨.CLK_STATUS, 2, 1⟩
def CLK_STATUS_RESTART_LOST : Fld := ⟨.CLK_STATUS, 3, 1⟩
def CLK_STATUS_HOLDING : Fld := ⟨.CLK_STATUS, 4, 1⟩
def CLK_STATUS_CONFIG_STOP : Fld := ⟨.CLK_STATUS, 5, 1⟩
def CLK_FALLS_COUNT : Fld := ⟨.CLK_FALLS, 0, 32⟩
def CLK_ELAPSED_TIME : Fld := ⟨.CLK_ELAPSED, 0, 40⟩
def CLK_FALL_TIME_TIME : Fld := ⟨.CLK_FALL_TIME, 0, 64⟩
def EVD_ID_CORE : Fld := ⟨.EVD_ID, 0, 5⟩
def EVD_DOORBELL_RING : Fld := ⟨.EVD_DOORBELL, 0, 1⟩
def EVD_STATUS_LEVEL : Fld := ⟨.EVD_STATUS, 0, 4⟩
def EVD_STATUS_HALTED : Fld := ⟨.EVD_STATUS, 4, 1⟩
def EVD_STATUS_WAITING : Fld := ⟨.EVD_STATUS, 5, 1⟩
def EVD_LAST_SOURCE : Fld := ⟨.EVD_LAST, 0, 8⟩
def EVD_LAST_VALID : Fld := ⟨.EVD_LAST, 8, 1⟩
def EVD_SRC_LEVEL (j : Nat) : Fld := ⟨.EVD_SRC, 0 + 8 * j, 4⟩
def EVD_SRC_EN (j : Nat) : Fld := ⟨.EVD_SRC, 4 + 8 * j, 1⟩
def EVD_PEND_PEND : Fld := ⟨.EVD_PEND, 0, 32⟩
def SC_RGN_CTRL_PF_DEPTH : Fld := ⟨.SC_RGN_CTRL, 0, 2⟩
def SC_RGN_SCRATCH_WAYS : Fld := ⟨.SC_RGN_SCRATCH, 0, 4⟩
def SC_RGN_WAYPD_MASK : Fld := ⟨.SC_RGN_WAYPD, 0, 16⟩
def SC_RGN_STATUS_WAYS_EFF : Fld := ⟨.SC_RGN_STATUS, 0, 4⟩
def SC_RGN_STATUS_CONV_BUSY : Fld := ⟨.SC_RGN_STATUS, 4, 1⟩
def SC_RGN_STATUS_CONV_DONE : Fld := ⟨.SC_RGN_STATUS, 5, 1⟩
def SC_RGN_STATUS_PD_BUSY : Fld := ⟨.SC_RGN_STATUS, 6, 1⟩
def SC_RGN_STATUS_PREP_FAIL : Fld := ⟨.SC_RGN_STATUS, 7, 1⟩
def SC_RGN_STATUS_REASON : Fld := ⟨.SC_RGN_STATUS, 8, 1⟩
def SC_RNG_BASE_BASE : Fld := ⟨.SC_RNG_BASE, 0, 52⟩
def SC_RNG_LEN_LEN : Fld := ⟨.SC_RNG_LEN, 0, 64⟩
def SC_RNG_CMD_OP : Fld := ⟨.SC_RNG_CMD, 0, 3⟩
def SC_RNG_CMD_DISCARD : Fld := ⟨.SC_RNG_CMD, 3, 1⟩
def SC_RNG_CMD_START : Fld := ⟨.SC_RNG_CMD, 4, 1⟩
def SC_RNG_STATUS_BUSY : Fld := ⟨.SC_RNG_STATUS, 0, 1⟩
def SC_RNG_STATUS_DONE : Fld := ⟨.SC_RNG_STATUS, 1, 1⟩
def SC_RNG_STATUS_CMDLOST : Fld := ⟨.SC_RNG_STATUS, 2, 1⟩
def SC_RNG_STATUS_ERR : Fld := ⟨.SC_RNG_STATUS, 3, 1⟩
def SC_RNG_STATUS_REASON : Fld := ⟨.SC_RNG_STATUS, 4, 2⟩
def SC_RNG_STATUS_MASTER : Fld := ⟨.SC_RNG_STATUS, 8, 6⟩
def SC_RNG_COUNT_COUNT : Fld := ⟨.SC_RNG_COUNT, 0, 32⟩
def SC_RNG_SKIPPED_COUNT : Fld := ⟨.SC_RNG_SKIPPED, 0, 32⟩
def SC_RNG_FAIL_ADDR : Fld := ⟨.SC_RNG_FAIL, 0, 52⟩
def SC_SL_CE_COUNT : Fld := ⟨.SC_SL_CE, 0, 32⟩
def SC_SL_ERR_UE : Fld := ⟨.SC_SL_ERR, 0, 1⟩
def SC_SL_ERR_TAG_PE : Fld := ⟨.SC_SL_ERR, 1, 1⟩
def SC_SL_ERR_DIRTY_LOST : Fld := ⟨.SC_SL_ERR, 2, 1⟩
def SC_SL_ERR_ADDR_ADDR : Fld := ⟨.SC_SL_ERR_ADDR, 0, 36⟩
def SC_SL_ERR_LOC_SET : Fld := ⟨.SC_SL_ERR_LOC, 0, 11⟩
def SC_SL_ERR_LOC_WAY : Fld := ⟨.SC_SL_ERR_LOC, 16, 4⟩
def CS_CMD_OP : Fld := ⟨.CS_CMD, 0, 2⟩
def CS_ADDR_ROW : Fld := ⟨.CS_ADDR, 5, 18⟩
def CS_STATUS_BUSY : Fld := ⟨.CS_STATUS, 0, 1⟩
def CS_STATUS_DONE : Fld := ⟨.CS_STATUS, 1, 1⟩
def CS_STATUS_ERR : Fld := ⟨.CS_STATUS, 2, 1⟩
def CS_STATUS_REASON : Fld := ⟨.CS_STATUS, 3, 2⟩
def CS_STATUS_CMDLOST : Fld := ⟨.CS_STATUS, 5, 1⟩
def CS_ERASES_COUNT : Fld := ⟨.CS_ERASES, 0, 16⟩
def CS_DATA_DATA : Fld := ⟨.CS_DATA, 0, 32⟩
def MEM_STATUS_TRAINED : Fld := ⟨.MEM_STATUS, 0, 1⟩
def MEM_STATUS_READY : Fld := ⟨.MEM_STATUS, 1, 1⟩
def MEM_STATUS_TRAIN_FAIL : Fld := ⟨.MEM_STATUS, 2, 1⟩
def MEM_STATUS_REFRESH_2X : Fld := ⟨.MEM_STATUS, 3, 1⟩
def MEM_STATUS_THROTTLE : Fld := ⟨.MEM_STATUS, 4, 1⟩
def MEM_STATUS_FAILMASK : Fld := ⟨.MEM_STATUS, 8, 8⟩
def MEM_TEMP_TEMP : Fld := ⟨.MEM_TEMP, 0, 8⟩
def MEM_TEMP_SUBCH : Fld := ⟨.MEM_TEMP, 8, 3⟩
def MEM_TEMP_DEVICE : Fld := ⟨.MEM_TEMP, 11, 3⟩
def MEM_PATROL_CTRL_PERIOD : Fld := ⟨.MEM_PATROL_CTRL, 0, 8⟩
def MEM_PATROL_POS_LINE : Fld := ⟨.MEM_PATROL_POS, 6, 30⟩
def MEM_PATROL_PASSES_COUNT : Fld := ⟨.MEM_PATROL_PASSES, 0, 32⟩
def MEM_CE_THR_THR : Fld := ⟨.MEM_CE_THR, 0, 16⟩
def MEM_ERR_STATUS_CE : Fld := ⟨.MEM_ERR_STATUS, 0, 1⟩
def MEM_ERR_STATUS_UE : Fld := ⟨.MEM_ERR_STATUS, 1, 1⟩
def MEM_ERR_STATUS_OVERFLOW : Fld := ⟨.MEM_ERR_STATUS, 2, 1⟩
def MEM_ERR_STATUS_SOURCE : Fld := ⟨.MEM_ERR_STATUS, 3, 3⟩
def MEM_ERR_STATUS_SYMBOLS : Fld := ⟨.MEM_ERR_STATUS, 8, 4⟩
def MEM_ERR_STATUS_SUBCH : Fld := ⟨.MEM_ERR_STATUS, 12, 3⟩
def MEM_ERR_DEVMASK_DEV : Fld := ⟨.MEM_ERR_DEVMASK, 0, 5⟩
def MEM_ERR_ADDR_LINE : Fld := ⟨.MEM_ERR_ADDR, 6, 30⟩
def MEM_ERR_TIME_TIME : Fld := ⟨.MEM_ERR_TIME, 0, 64⟩
def MEM_CE_COUNT_COUNT : Fld := ⟨.MEM_CE_COUNT, 0, 32⟩
def MEM_UE_COUNT_COUNT : Fld := ⟨.MEM_UE_COUNT, 0, 32⟩
def MEM_SWP_NODE_NODE : Fld := ⟨.MEM_SWP_NODE, 0, 12⟩
def MEM_SWP_LO_LO : Fld := ⟨.MEM_SWP_LO, 0, 52⟩
def MEM_SWP_HI_HI : Fld := ⟨.MEM_SWP_HI, 0, 52⟩
def MEM_SWP_CTRL_KEEP : Fld := ⟨.MEM_SWP_CTRL, 0, 6⟩
def MEM_SWP_CTRL_HOLD : Fld := ⟨.MEM_SWP_CTRL, 6, 1⟩
def MEM_SWP_CTRL_RATE : Fld := ⟨.MEM_SWP_CTRL, 8, 2⟩
def MEM_SWP_CTRL_START : Fld := ⟨.MEM_SWP_CTRL, 16, 1⟩
def MEM_SWP_CTRL_RELEASE : Fld := ⟨.MEM_SWP_CTRL, 17, 1⟩
def MEM_SWP_STATUS_ACTIVE : Fld := ⟨.MEM_SWP_STATUS, 0, 1⟩
def MEM_SWP_STATUS_PASSES_DONE : Fld := ⟨.MEM_SWP_STATUS, 1, 1⟩
def MEM_SWP_STATUS_DONE : Fld := ⟨.MEM_SWP_STATUS, 2, 1⟩
def MEM_SWP_STATUS_CMDLOST : Fld := ⟨.MEM_SWP_STATUS, 3, 1⟩
def MEM_SWP_STATUS_ERR : Fld := ⟨.MEM_SWP_STATUS, 4, 1⟩
def MEM_SWP_POS_LINE : Fld := ⟨.MEM_SWP_POS, 6, 30⟩
def MEM_SWP_CLEARED_COUNT : Fld := ⟨.MEM_SWP_CLEARED, 0, 32⟩
def GATE_VQ_STATUS_COUNT : Fld := ⟨.GATE_VQ_STATUS, 0, 7⟩
def GATE_VQ_STATUS_OVERFLOW : Fld := ⟨.GATE_VQ_STATUS, 8, 1⟩
def GATE_VQ_POP_POP : Fld := ⟨.GATE_VQ_POP, 0, 1⟩
def GATE_VQ_LOST_COUNT : Fld := ⟨.GATE_VQ_LOST, 0, 32⟩
def GATE_UNMAPPED_COUNT_COUNT : Fld := ⟨.GATE_UNMAPPED_COUNT, 0, 32⟩
def GATE_VQ_HEAD_DATA : Fld := ⟨.GATE_VQ_HEAD, 0, 64⟩
def GATE_G_ID_GATE : Fld := ⟨.GATE_G_ID, 0, 6⟩
def GATE_G_ID_ENTRIES : Fld := ⟨.GATE_G_ID, 8, 10⟩
def GATE_G_CTRL_PRIV_DEFAULT : Fld := ⟨.GATE_G_CTRL, 0, 1⟩
def GATE_G_CTRL_EV_EN : Fld := ⟨.GATE_G_CTRL, 1, 1⟩
def GATE_G_CTRL_LOCK : Fld := ⟨.GATE_G_CTRL, 31, 1⟩
def GATE_G_STATUS_OVERLAP : Fld := ⟨.GATE_G_STATUS, 0, 1⟩
def GATE_G_STATUS_LOCKED_WR : Fld := ⟨.GATE_G_STATUS, 1, 1⟩
def GATE_G_STATUS_LAST_ENTRY : Fld := ⟨.GATE_G_STATUS, 8, 10⟩
def GATE_G_COUNT_COUNT : Fld := ⟨.GATE_G_COUNT, 0, 32⟩
def GATE_ENT_BASE_BASE : Fld := ⟨.GATE_ENT_BASE, 4, 48⟩
def GATE_ENT_TOP_TOP : Fld := ⟨.GATE_ENT_TOP, 4, 48⟩
def GATE_ENT_MASTERS_MASTERS : Fld := ⟨.GATE_ENT_MASTERS, 0, 61⟩
def GATE_ENT_CTRL_EN : Fld := ⟨.GATE_ENT_CTRL, 0, 1⟩
def GATE_ENT_CTRL_RD : Fld := ⟨.GATE_ENT_CTRL, 1, 1⟩
def GATE_ENT_CTRL_WR : Fld := ⟨.GATE_ENT_CTRL, 2, 1⟩
def GATE_ENT_CTRL_FETCH : Fld := ⟨.GATE_ENT_CTRL, 3, 1⟩
def GATE_ENT_CTRL_ATOM : Fld := ⟨.GATE_ENT_CTRL, 4, 1⟩
def GATE_ENT_CTRL_KEEPLOC : Fld := ⟨.GATE_ENT_CTRL, 5, 2⟩
def GATE_ENT_CTRL_EPOCH_EN : Fld := ⟨.GATE_ENT_CTRL, 7, 1⟩
def GATE_ENT_CTRL_CLASS : Fld := ⟨.GATE_ENT_CTRL, 8, 2⟩
def GATE_ENT_CTRL_LOCK : Fld := ⟨.GATE_ENT_CTRL, 10, 1⟩
def GATE_ENT_CTRL_NODE_EN : Fld := ⟨.GATE_ENT_CTRL, 11, 1⟩
def GATE_ENT_CTRL_NODE : Fld := ⟨.GATE_ENT_CTRL, 12, 12⟩
def GATE_ENT_EPOCH_EPOCH : Fld := ⟨.GATE_ENT_EPOCH, 0, 6⟩
def GATE_ENT_EPOCH_SWEPT : Fld := ⟨.GATE_ENT_EPOCH, 8, 6⟩
def GATE_ENT_EPOCH_ADVANCE : Fld := ⟨.GATE_ENT_EPOCH, 16, 1⟩
def GATE_ENT_EPOCH_ADV_REFUSED : Fld := ⟨.GATE_ENT_EPOCH, 17, 1⟩
def MESH_LG_CTRL_MODE : Fld := ⟨.MESH_LG_CTRL, 0, 2⟩
def MESH_LG_CTRL_RATE : Fld := ⟨.MESH_LG_CTRL, 2, 2⟩
def MESH_LG_CTRL_SPLIT : Fld := ⟨.MESH_LG_CTRL, 4, 3⟩
def MESH_LG_CTRL_REQ_ATTEST : Fld := ⟨.MESH_LG_CTRL, 7, 1⟩
def MESH_LG_CTRL_V1_OK : Fld := ⟨.MESH_LG_CTRL, 8, 1⟩
def MESH_LG_CTRL_RETRAIN : Fld := ⟨.MESH_LG_CTRL, 9, 1⟩
def MESH_LG_STATUS_SIGNAL : Fld := ⟨.MESH_LG_STATUS, 0, 4⟩
def MESH_LG_STATUS_LOCK : Fld := ⟨.MESH_LG_STATUS, 4, 4⟩
def MESH_LG_STATUS_ETH_UP : Fld := ⟨.MESH_LG_STATUS, 8, 1⟩
def MESH_LG_VCW_W0 : Fld := ⟨.MESH_LG_VCW, 0, 8⟩
def MESH_LG_VCW_W3 : Fld := ⟨.MESH_LG_VCW, 8, 8⟩
def MESH_LINK_STATUS_STATE : Fld := ⟨.MESH_LINK_STATUS, 0, 3⟩
def MESH_LINK_STATUS_V2 : Fld := ⟨.MESH_LINK_STATUS, 3, 1⟩
def MESH_LINK_STATUS_REASON : Fld := ⟨.MESH_LINK_STATUS, 4, 3⟩
def MESH_LINK_STATUS_PEER : Fld := ⟨.MESH_LINK_STATUS, 7, 12⟩
def MESH_LINK_STATUS_PEER_LG : Fld := ⟨.MESH_LINK_STATUS, 19, 3⟩
def MESH_LINK_STATUS_ATTESTED : Fld := ⟨.MESH_LINK_STATUS, 22, 1⟩
def MESH_LINK_CRED_VC0 : Fld := ⟨.MESH_LINK_CRED, 0, 13⟩
def MESH_LINK_CRED_VC1 : Fld := ⟨.MESH_LINK_CRED, 16, 13⟩
def MESH_LINK_CRED2_VC2 : Fld := ⟨.MESH_LINK_CRED2, 0, 13⟩
def MESH_LINK_CRED2_VC3 : Fld := ⟨.MESH_LINK_CRED2, 16, 13⟩
def MESH_LG_FEC_CORR_COUNT : Fld := ⟨.MESH_LG_FEC_CORR, 0, 32⟩
def MESH_LG_FEC_UNC_COUNT : Fld := ⟨.MESH_LG_FEC_UNC, 0, 32⟩
def MESH_LG_AUTH_FAIL_COUNT : Fld := ⟨.MESH_LG_AUTH_FAIL, 0, 32⟩
def MESH_LG_RESEND_COUNT : Fld := ⟨.MESH_LG_RESEND, 0, 32⟩
def MESH_LG_RETRAINS_COUNT : Fld := ⟨.MESH_LG_RETRAINS, 0, 32⟩
def MESH_LG_LANE_SNR : Fld := ⟨.MESH_LG_LANE, 0, 8⟩
def MESH_TSN_CTRL_QBV_EN : Fld := ⟨.MESH_TSN_CTRL, 0, 1⟩
def MESH_TSN_CTRL_GCL_LEN : Fld := ⟨.MESH_TSN_CTRL, 1, 7⟩
def MESH_TSN_BASE_TIME : Fld := ⟨.MESH_TSN_BASE, 0, 64⟩
def MESH_TSN_CYCLE_NS : Fld := ⟨.MESH_TSN_CYCLE, 0, 32⟩
def MESH_TSN_CBS_SLOPE : Fld := ⟨.MESH_TSN_CBS, 0, 32⟩
def MESH_TSN_GCL_GATES : Fld := ⟨.MESH_TSN_GCL, 0, 8⟩
def MESH_TSN_GCL_INTERVAL : Fld := ⟨.MESH_TSN_GCL, 8, 24⟩
def MESH_CTRL_NODE : Fld := ⟨.MESH_CTRL, 0, 12⟩
def MESH_CTRL_ENABLE : Fld := ⟨.MESH_CTRL, 12, 1⟩
def MESH_CTRL_GRESET_EN : Fld := ⟨.MESH_CTRL, 13, 1⟩
def MESH_FED_ID_FED : Fld := ⟨.MESH_FED_ID, 0, 32⟩
def MESH_STATUS_MEMBERS : Fld := ⟨.MESH_STATUS, 0, 12⟩
def MESH_STATUS_V1_PRESENT : Fld := ⟨.MESH_STATUS, 12, 1⟩
def MESH_STATUS_ROOT : Fld := ⟨.MESH_STATUS, 13, 1⟩
def MESH_STATUS_DUP : Fld := ⟨.MESH_STATUS, 14, 1⟩
def MESH_STATUS_PREP_FAIL : Fld := ⟨.MESH_STATUS, 15, 1⟩
def MESH_RTO_TIMEOUT : Fld := ⟨.MESH_RTO, 0, 16⟩
def MESH_DL_CORE_NS : Fld := ⟨.MESH_DL, 0, 24⟩
def MESH_ERR_KIND : Fld := ⟨.MESH_ERR, 0, 7⟩
def MESH_ERR_COUNT_COUNT : Fld := ⟨.MESH_ERR_COUNT, 0, 32⟩
def MESH_GOP_CMD_OP : Fld := ⟨.MESH_GOP_CMD, 0, 3⟩
def MESH_GOP_CMD_ID : Fld := ⟨.MESH_GOP_CMD, 4, 4⟩
def MESH_GOP_CMD_LEN : Fld := ⟨.MESH_GOP_CMD, 8, 6⟩
def MESH_GOP_STATUS_BUSY : Fld := ⟨.MESH_GOP_STATUS, 0, 1⟩
def MESH_GOP_STATUS_DONE : Fld := ⟨.MESH_GOP_STATUS, 1, 1⟩
def MESH_GOP_STATUS_ABORTED : Fld := ⟨.MESH_GOP_STATUS, 2, 1⟩
def MESH_GOP_STATUS_REFUSED : Fld := ⟨.MESH_GOP_STATUS, 3, 1⟩
def MESH_GOP_STATUS_LATE : Fld := ⟨.MESH_GOP_STATUS, 4, 1⟩
def MESH_GOP_STATUS_CMDLOST : Fld := ⟨.MESH_GOP_STATUS, 5, 1⟩
def MESH_BAR_PART_PART : Fld := ⟨.MESH_BAR_PART, 0, 16⟩
def MESH_BAR_DONE_DONE : Fld := ⟨.MESH_BAR_DONE, 0, 16⟩
def MESH_SNAP_BASE_BASE : Fld := ⟨.MESH_SNAP_BASE, 6, 46⟩
def MESH_SNAP_LEAD_LEAD : Fld := ⟨.MESH_SNAP_LEAD, 0, 24⟩
def MESH_SNAP_TIME_TIME : Fld := ⟨.MESH_SNAP_TIME, 0, 64⟩
def MESH_BC_TX_DATA : Fld := ⟨.MESH_BC_TX, 0, 32⟩
def MESH_BC_RX_STATUS_COUNT : Fld := ⟨.MESH_BC_RX_STATUS, 0, 5⟩
def MESH_BC_RX_STATUS_OVERFLOW : Fld := ⟨.MESH_BC_RX_STATUS, 8, 1⟩
def MESH_BC_RX_POP_POP : Fld := ⟨.MESH_BC_RX_POP, 0, 1⟩
def MESH_BC_RX_HEAD_SRC : Fld := ⟨.MESH_BC_RX_HEAD, 0, 12⟩
def MESH_BC_RX_HEAD_LEN : Fld := ⟨.MESH_BC_RX_HEAD, 16, 6⟩
def MESH_BC_RX_DATA_DATA : Fld := ⟨.MESH_BC_RX_DATA, 0, 32⟩
def MESH_MEMBER_MEMBER : Fld := ⟨.MESH_MEMBER, 0, 32⟩
def MESH_ROUTE_LINK : Fld := ⟨.MESH_ROUTE, 0, 4⟩
def MESH_ROUTE_VALID : Fld := ⟨.MESH_ROUTE, 4, 1⟩
def MESH_ROUTE_PHASE : Fld := ⟨.MESH_ROUTE, 5, 1⟩
def MESH_ROUTE_ALT : Fld := ⟨.MESH_ROUTE, 8, 4⟩
def MESH_ROUTE_ALT_VALID : Fld := ⟨.MESH_ROUTE, 12, 1⟩
def MESH_ROUTE_ALT_PHASE : Fld := ⟨.MESH_ROUTE, 13, 1⟩
def MX_CTRL_ENABLE : Fld := ⟨.MX_CTRL, 0, 1⟩
def MX_CTRL_RESUME : Fld := ⟨.MX_CTRL, 1, 1⟩
def MX_CTRL_ABORT : Fld := ⟨.MX_CTRL, 2, 1⟩
def MX_STATUS_BUSY : Fld := ⟨.MX_STATUS, 0, 1⟩
def MX_STATUS_STOPPED : Fld := ⟨.MX_STATUS, 1, 1⟩
def MX_STATUS_LAST : Fld := ⟨.MX_STATUS, 8, 8⟩
def MX_RING_BASE_BASE : Fld := ⟨.MX_RING_BASE, 7, 45⟩
def MX_RING_SIZE_SLOTS : Fld := ⟨.MX_RING_SIZE, 0, 9⟩
def MX_PROD_INDEX : Fld := ⟨.MX_PROD, 0, 16⟩
def MX_CONS_INDEX : Fld := ⟨.MX_CONS, 0, 16⟩
def MX_FAIL_ADDR : Fld := ⟨.MX_FAIL, 0, 64⟩
def MX_JOBS_COUNT : Fld := ⟨.MX_JOBS, 0, 32⟩
def MX_CYCLES_CYCLES : Fld := ⟨.MX_CYCLES, 0, 32⟩
def XFR_CH_HEAD_ADDR : Fld := ⟨.XFR_CH_HEAD, 6, 46⟩
def XFR_CH_CMD_START : Fld := ⟨.XFR_CH_CMD, 0, 1⟩
def XFR_CH_CMD_ABORT : Fld := ⟨.XFR_CH_CMD, 1, 1⟩
def XFR_CH_STATUS_BUSY : Fld := ⟨.XFR_CH_STATUS, 0, 1⟩
def XFR_CH_STATUS_DONE : Fld := ⟨.XFR_CH_STATUS, 1, 1⟩
def XFR_CH_STATUS_ERR : Fld := ⟨.XFR_CH_STATUS, 2, 1⟩
def XFR_CH_STATUS_CMDLOST : Fld := ⟨.XFR_CH_STATUS, 3, 1⟩
def XFR_CH_STATUS_CODE : Fld := ⟨.XFR_CH_STATUS, 8, 8⟩
def XFR_CH_STATUS_SUB : Fld := ⟨.XFR_CH_STATUS, 16, 8⟩
def XFR_CH_CUR_ADDR : Fld := ⟨.XFR_CH_CUR, 6, 46⟩
def XFR_CH_DONE_BYTES : Fld := ⟨.XFR_CH_DONE, 0, 64⟩
def XFR_CH_FAIL_ADDR : Fld := ⟨.XFR_CH_FAIL, 0, 64⟩
def MBX_ID_DEVICE : Fld := ⟨.MBX_ID, 0, 16⟩
def MBX_ID_PROTO_MAJ : Fld := ⟨.MBX_ID, 16, 8⟩
def MBX_ID_PROTO_MIN : Fld := ⟨.MBX_ID, 24, 8⟩
def MBX_STATE_STATE : Fld := ⟨.MBX_STATE, 0, 3⟩
def MBX_STATE_SLOT : Fld := ⟨.MBX_STATE, 3, 1⟩
def MBX_STATE_TRIAL : Fld := ⟨.MBX_STATE, 4, 1⟩
def MBX_LOCK_HOLDER : Fld := ⟨.MBX_LOCK, 0, 3⟩
def MBX_INTR_COAL_US : Fld := ⟨.MBX_INTR_COAL, 0, 16⟩
def MBX_HOST_ERR_ABORT : Fld := ⟨.MBX_HOST_ERR, 0, 1⟩
def MBX_HOST_ERR_WR_LOST : Fld := ⟨.MBX_HOST_ERR, 1, 1⟩
def MBX_HOST_ERR_REMOTE : Fld := ⟨.MBX_HOST_ERR, 2, 1⟩
def MBX_Q_CMD_PROD_INDEX : Fld := ⟨.MBX_Q_CMD_PROD, 0, 16⟩
def MBX_Q_CMD_CONS_INDEX : Fld := ⟨.MBX_Q_CMD_CONS, 0, 16⟩
def MBX_Q_CPL_PROD_INDEX : Fld := ⟨.MBX_Q_CPL_PROD, 0, 16⟩
def MBX_Q_CPL_CONS_INDEX : Fld := ⟨.MBX_Q_CPL_CONS, 0, 16⟩
def MBX_Q_STATUS_OPEN : Fld := ⟨.MBX_Q_STATUS, 0, 1⟩
def MBX_Q_STATUS_V1 : Fld := ⟨.MBX_Q_STATUS, 1, 1⟩
def MBX_Q_STATUS_RING_ERR : Fld := ⟨.MBX_Q_STATUS, 2, 1⟩
def MBX_FW_IN_PROD_INDEX : Fld := ⟨.MBX_FW_IN_PROD, 0, 16⟩
def MBX_FW_IN_CONS_INDEX : Fld := ⟨.MBX_FW_IN_CONS, 0, 16⟩
def MBX_FW_OUT_PROD_INDEX : Fld := ⟨.MBX_FW_OUT_PROD, 0, 16⟩
def MBX_FW_OUT_CONS_INDEX : Fld := ⟨.MBX_FW_OUT_CONS, 0, 16⟩
def CFG_STATUS_SETTLED : Fld := ⟨.CFG_STATUS, 0, 1⟩
def CFG_STATUS_PROBATION : Fld := ⟨.CFG_STATUS, 1, 1⟩
def CFG_STATUS_STAGED : Fld := ⟨.CFG_STATUS, 2, 1⟩
def CFG_STATUS_DELTA : Fld := ⟨.CFG_STATUS, 3, 1⟩
def CFG_STATUS_PREPARED : Fld := ⟨.CFG_STATUS, 4, 1⟩
def CFG_STATUS_COMMIT_PENDING : Fld := ⟨.CFG_STATUS, 5, 1⟩
def CFG_STATUS_ST_REFUSED : Fld := ⟨.CFG_STATUS, 6, 1⟩
def CFG_STATUS_REFUSED : Fld := ⟨.CFG_STATUS, 7, 1⟩
def CFG_STATUS_TAKEN_BACK : Fld := ⟨.CFG_STATUS, 8, 1⟩
def CFG_STATUS_ORPHAN : Fld := ⟨.CFG_STATUS, 9, 1⟩
def CFG_STATUS_CMD_REFUSED : Fld := ⟨.CFG_STATUS, 10, 1⟩
def CFG_STATUS_REASON : Fld := ⟨.CFG_STATUS, 16, 8⟩
def CFG_MOVE_SETTLED_MOVE : Fld := ⟨.CFG_MOVE_SETTLED, 0, 32⟩
def CFG_MOVE_PROB_MOVE : Fld := ⟨.CFG_MOVE_PROB, 0, 32⟩
def CFG_MOVE_STAGED_MOVE : Fld := ⟨.CFG_MOVE_STAGED, 0, 32⟩
def CFG_CMD_OP : Fld := ⟨.CFG_CMD, 0, 3⟩
def CFG_CMD_MOVES : Fld := ⟨.CFG_CMD, 4, 3⟩
def CFG_COMMIT_AT_TIME : Fld := ⟨.CFG_COMMIT_AT, 0, 64⟩
def CFG_COMMIT_TIME_TIME : Fld := ⟨.CFG_COMMIT_TIME, 0, 64⟩
def CFG_PROB_END_TIME : Fld := ⟨.CFG_PROB_END, 0, 64⟩
def CFG_REACH_MOVES : Fld := ⟨.CFG_REACH, 0, 3⟩
def CFG_PROB_FALLS_COUNT : Fld := ⟨.CFG_PROB_FALLS, 0, 32⟩
def CFG_PROB_VIOL_COUNT : Fld := ⟨.CFG_PROB_VIOL, 0, 32⟩
def CFG_SVIEW_ADDR_OFFSET : Fld := ⟨.CFG_SVIEW_ADDR, 2, 26⟩
def CFG_SVIEW_DATA_DATA : Fld := ⟨.CFG_SVIEW_DATA, 0, 32⟩
def CFG_DEVICE_HIERARCHY_MODE : Fld := ⟨.CFG_DEVICE, 0, 1⟩
def CFG_SLOT_STATE_STATE : Fld := ⟨.CFG_SLOT_STATE, 0, 3⟩
def CFG_SLOT_STATE_LOCAL : Fld := ⟨.CFG_SLOT_STATE, 3, 1⟩
def CFG_SLOT_STATE_CONVERTED : Fld := ⟨.CFG_SLOT_STATE, 4, 1⟩
def CFG_SLOT_MOVE_MOVE : Fld := ⟨.CFG_SLOT_MOVE, 0, 32⟩
def ROOK_STATUS_LIFECYCLE : Fld := ⟨.ROOK_STATUS, 0, 3⟩
def ROOK_STATUS_OWNER : Fld := ⟨.ROOK_STATUS, 3, 1⟩
def ROOK_STATUS_BOOT : Fld := ⟨.ROOK_STATUS, 4, 4⟩
def ROOK_STATUS_SD_SLOT : Fld := ⟨.ROOK_STATUS, 8, 1⟩
def ROOK_STATUS_RK_COPY : Fld := ⟨.ROOK_STATUS, 9, 1⟩
def ROOK_STATUS_CFG_OK : Fld := ⟨.ROOK_STATUS, 10, 1⟩
def ROOK_ID_DIGEST : Fld := ⟨.ROOK_ID, 0, 32⟩
def ROOK_OWNER_DIGEST : Fld := ⟨.ROOK_OWNER, 0, 32⟩
def ROOK_SVN_ROOK : Fld := ⟨.ROOK_SVN, 0, 6⟩
def ROOK_SVN_SHEEPDOG : Fld := ⟨.ROOK_SVN, 8, 6⟩
def ROOK_SVN_CONFIG : Fld := ⟨.ROOK_SVN, 16, 6⟩
def ROOK_DBG_SCOPE : Fld := ⟨.ROOK_DBG, 0, 2⟩
def ROOK_DBG_LEFT_SECONDS : Fld := ⟨.ROOK_DBG_LEFT, 0, 17⟩
def ROOK_DBG_CHAL_CHAL : Fld := ⟨.ROOK_DBG_CHAL, 0, 32⟩
def ROOK_ALERT_VERIFY_FAIL : Fld := ⟨.ROOK_ALERT, 0, 1⟩
def ROOK_ALERT_LINK_REJECT : Fld := ⟨.ROOK_ALERT, 1, 1⟩
def ROOK_ALERT_DBG_REFUSED : Fld := ⟨.ROOK_ALERT, 2, 1⟩
def ROOK_ALERT_REASON : Fld := ⟨.ROOK_ALERT, 4, 4⟩
def GOOSE_CTRL_AUTORESTART : Fld := ⟨.GOOSE_CTRL, 0, 1⟩
def GOOSE_STATUS_TIME_INVALID : Fld := ⟨.GOOSE_STATUS, 0, 1⟩
def GOOSE_STATUS_SESSIONS : Fld := ⟨.GOOSE_STATUS, 1, 3⟩
def GOOSE_STATUS_FEED_A : Fld := ⟨.GOOSE_STATUS, 4, 1⟩
def GOOSE_STATUS_FEED_B : Fld := ⟨.GOOSE_STATUS, 5, 1⟩
def CAR_STATUS_PRES_A : Fld := ⟨.CAR_STATUS, 0, 1⟩
def CAR_STATUS_PRES_B : Fld := ⟨.CAR_STATUS, 1, 1⟩
def CAR_STATUS_DESC_OK : Fld := ⟨.CAR_STATUS, 2, 1⟩
def CAR_STATUS_TWIN : Fld := ⟨.CAR_STATUS, 3, 1⟩
def CAR_STATUS_POSITION : Fld := ⟨.CAR_STATUS, 4, 1⟩
def CAR_STATUS_HOLDUP_OK : Fld := ⟨.CAR_STATUS, 5, 1⟩
def CAR_STATUS_EJECT : Fld := ⟨.CAR_STATUS, 6, 1⟩
def CAR_STATUS_EJECT_REQ : Fld := ⟨.CAR_STATUS, 7, 1⟩
def CAR_STATUS_DESC_ERR : Fld := ⟨.CAR_STATUS, 8, 4⟩
def CAR_STATUS_CLASS_RSV : Fld := ⟨.CAR_STATUS, 12, 1⟩
def TWIN_CTRL_CSLOT : Fld := ⟨.TWIN_CTRL, 0, 3⟩
def TWIN_CTRL_MSLOT : Fld := ⟨.TWIN_CTRL, 4, 3⟩
def TWIN_CTRL_MIR_EN : Fld := ⟨.TWIN_CTRL, 7, 1⟩
def TWIN_CTRL_EJECT_CASTLE : Fld := ⟨.TWIN_CTRL, 8, 1⟩
def TWIN_CTRL_TAKE : Fld := ⟨.TWIN_CTRL, 9, 1⟩
def TWIN_STATUS_ROLE : Fld := ⟨.TWIN_STATUS, 0, 2⟩
def TWIN_STATUS_CLAIM : Fld := ⟨.TWIN_STATUS, 2, 1⟩
def TWIN_STATUS_PEER_CLAIM : Fld := ⟨.TWIN_STATUS, 3, 1⟩
def TWIN_STATUS_PEER_PRES : Fld := ⟨.TWIN_STATUS, 4, 1⟩
def TWIN_STATUS_LINK_UP : Fld := ⟨.TWIN_STATUS, 5, 1⟩
def TWIN_STATUS_READY : Fld := ⟨.TWIN_STATUS, 6, 1⟩
def TWIN_STATUS_LOSS : Fld := ⟨.TWIN_STATUS, 7, 1⟩
def TWIN_STATUS_CASTLED : Fld := ⟨.TWIN_STATUS, 8, 1⟩
def TWIN_STATUS_REFUSED : Fld := ⟨.TWIN_STATUS, 9, 1⟩
def TWIN_STATUS_REASON : Fld := ⟨.TWIN_STATUS, 10, 3⟩
def TWIN_STATUS_SYNC : Fld := ⟨.TWIN_STATUS, 13, 2⟩
def TWIN_STATUS_MIR_TRUNC : Fld := ⟨.TWIN_STATUS, 15, 1⟩
def TWIN_CMD_CASTLE : Fld := ⟨.TWIN_CMD, 0, 1⟩
def TWIN_CMD_REMOVE : Fld := ⟨.TWIN_CMD, 1, 1⟩
def TWIN_CMD_CANCEL_EJECT : Fld := ⟨.TWIN_CMD, 2, 1⟩
def TWIN_CASTLE_AT_TIME : Fld := ⟨.TWIN_CASTLE_AT, 0, 64⟩
def TWIN_LAST_H_TIME : Fld := ⟨.TWIN_LAST_H, 0, 64⟩
def TWIN_HB_MISS_COUNT : Fld := ⟨.TWIN_HB_MISS, 0, 32⟩
def TWIN_MIR_PASS_PASS : Fld := ⟨.TWIN_MIR_PASS, 0, 32⟩
def TWIN_MIR_BASE_BASE : Fld := ⟨.TWIN_MIR_BASE, 6, 46⟩
def TWIN_MIR_LEN_LEN : Fld := ⟨.TWIN_MIR_LEN, 6, 17⟩
def FLT_CTRL_NOTICE : Fld := ⟨.FLT_CTRL, 0, 1⟩
def FLT_ESC_CELL_N : Fld := ⟨.FLT_ESC, 0, 8⟩
def FLT_ESC_BLOCK_N : Fld := ⟨.FLT_ESC, 8, 8⟩
def FLT_ESC_RGN_N : Fld := ⟨.FLT_ESC, 16, 8⟩
def FLT_ESC_WIN_MS : Fld := ⟨.FLT_ESC_WIN, 0, 16⟩
def FLT_RGN_ACT_ACT (j : Nat) : Fld := ⟨.FLT_RGN_ACT, 0 + 2 * j, 2⟩
def FLT_DEV_ACT_ACT : Fld := ⟨.FLT_DEV_ACT, 0, 2⟩
def FLT_CMD_RELEASE : Fld := ⟨.FLT_CMD, 0, 4⟩
def FLT_CMD_RELEASE_D : Fld := ⟨.FLT_CMD, 4, 1⟩
def FLT_RST_KIND : Fld := ⟨.FLT_RST, 0, 4⟩
def FLT_RST_INDEX : Fld := ⟨.FLT_RST, 16, 10⟩
def FLT_RST_STATUS_ABSORBED : Fld := ⟨.FLT_RST_STATUS, 0, 1⟩
def FLT_RGN_STATE_STATE (j : Nat) : Fld := ⟨.FLT_RGN_STATE, 0 + 2 * j, 2⟩
def FLT_Q_STATUS_COUNT : Fld := ⟨.FLT_Q_STATUS, 0, 7⟩
def FLT_Q_STATUS_OVERFLOW : Fld := ⟨.FLT_Q_STATUS, 8, 1⟩
def FLT_Q_POP_POP : Fld := ⟨.FLT_Q_POP, 0, 1⟩
def FLT_Q_LOST_COUNT : Fld := ⟨.FLT_Q_LOST, 0, 32⟩
def FLT_Q_HEAD_DATA : Fld := ⟨.FLT_Q_HEAD, 0, 64⟩
def FLT_SUM_CELL_COUNT : Fld := ⟨.FLT_SUM_CELL, 0, 32⟩
def FLT_SUM_BLOCK_COUNT : Fld := ⟨.FLT_SUM_BLOCK, 0, 32⟩
def FLT_FED_LAST_NODE : Fld := ⟨.FLT_FED_LAST, 0, 12⟩
def FLT_FED_LAST_CAUSE : Fld := ⟨.FLT_FED_LAST, 16, 8⟩
def EVR_ROUTE_LO_CORES : Fld := ⟨.EVR_ROUTE_LO, 0, 32⟩
def EVR_ROUTE_HI_FIRST : Fld := ⟨.EVR_ROUTE_HI, 0, 1⟩
def EVR_ROUTE_HI_SD : Fld := ⟨.EVR_ROUTE_HI, 1, 1⟩
def EVR_ROUTE_HI_GOOSE : Fld := ⟨.EVR_ROUTE_HI, 2, 1⟩
def EVR_SW_RAISE : Fld := ⟨.EVR_SW, 0, 4⟩
def EVR_UNROUTED_COUNT : Fld := ⟨.EVR_UNROUTED, 0, 32⟩
def EVR_LAST_CLAIM_SOURCE : Fld := ⟨.EVR_LAST_CLAIM, 0, 8⟩
def EVR_LAST_CLAIM_CORE : Fld := ⟨.EVR_LAST_CLAIM, 8, 5⟩
def EVR_LAST_CLAIM_VALID : Fld := ⟨.EVR_LAST_CLAIM, 13, 1⟩
def PWR_DOM_EN0_CORE : Fld := ⟨.PWR_DOM_EN0, 0, 32⟩
def PWR_DOM_EN1_MX : Fld := ⟨.PWR_DOM_EN1, 0, 4⟩
def PWR_DOM_EN1_LG : Fld := ⟨.PWR_DOM_EN1, 4, 8⟩
def PWR_DOM_EN1_PDIE : Fld := ⟨.PWR_DOM_EN1, 12, 8⟩
def PWR_DOM_STATE_ON : Fld := ⟨.PWR_DOM_STATE, 0, 32⟩
def PWR_DOM_FAULT_FAULT : Fld := ⟨.PWR_DOM_FAULT, 0, 32⟩
def PWR_FEED_VA : Fld := ⟨.PWR_FEED, 0, 12⟩
def PWR_FEED_A_OK : Fld := ⟨.PWR_FEED, 12, 1⟩
def PWR_FEED_VB : Fld := ⟨.PWR_FEED, 16, 12⟩
def PWR_FEED_B_OK : Fld := ⟨.PWR_FEED, 28, 1⟩
def PWR_INPUT_W : Fld := ⟨.PWR_INPUT, 0, 12⟩
def PWR_INPUT_PEAK : Fld := ⟨.PWR_INPUT, 16, 12⟩
def PWR_HOLDUP_ENERGY : Fld := ⟨.PWR_HOLDUP, 0, 16⟩
def PWR_TEMP_INLET : Fld := ⟨.PWR_TEMP, 0, 16⟩
def PWR_TEMP_JUNCTION : Fld := ⟨.PWR_TEMP, 16, 16⟩
def PWR_THR_CTRL_LANE_SHED : Fld := ⟨.PWR_THR_CTRL, 0, 8⟩
def PWR_THR_STATUS_STEP : Fld := ⟨.PWR_THR_STATUS, 0, 3⟩
def PWR_THR_STATUS_SHED : Fld := ⟨.PWR_THR_STATUS, 8, 8⟩
def PWR_THR_STATUS_OVERTEMP : Fld := ⟨.PWR_THR_STATUS, 16, 1⟩
def PWR_THR_STATUS_CRITICAL : Fld := ⟨.PWR_THR_STATUS, 17, 1⟩
def PWR_THR_TIME_MS : Fld := ⟨.PWR_THR_TIME, 0, 32⟩
end F

end Sys2Proof.Machine
end

