-- ==== Sys2Proof/Machine/Table.lean ====
section
/-!
DEFINITION. Sys2Proof/Machine/Table.lean: sparse tables, the one form in which the model holds memories,
register files and numbered parts. A table is a list of (key, value) pairs with keys strictly rising and no
entry equal to the default of its key; a key with no entry reads as its default.
-/
namespace Sys2Proof.Machine

/-- A sparse table over natural-number keys. -/
abbrev Tbl (α : Type) := List (Nat × α)

/-- The value at key `k`, the default `d` where the table has no entry. -/
def Tbl.get {α : Type} (d : α) : Tbl α → Nat → α
  | [], _ => d
  | (k', v) :: t, k => if k' = k then v else Tbl.get d t k

/-- The table without the entries of key `k`. -/
def Tbl.erase {α : Type} (t : Tbl α) (k : Nat) : Tbl α :=
  t.filter (fun e => e.1 != k)

/-- The table with an entry put before the first entry of a greater key. -/
def Tbl.insert {α : Type} (k : Nat) (v : α) : Tbl α → Tbl α
  | [] => [(k, v)]
  | (k', v') :: t => if k < k' then (k, v) :: (k', v') :: t else (k', v') :: Tbl.insert k v t

/-- The table with `v` at key `k`; writing the default `d` removes the entry. -/
def Tbl.set {α : Type} [DecidableEq α] (d : α) (t : Tbl α) (k : Nat) (v : α) : Tbl α :=
  if v = d then Tbl.erase t k else Tbl.insert k v (Tbl.erase t k)

/-- The entry at key `k`, if the table has one. -/
def Tbl.look {α : Type} : Tbl α → Nat → Option α
  | [], _ => none
  | (k', v) :: t, k => if k' = k then some v else Tbl.look t k

/-- The table with `v` at key `k`, for a table without a default. -/
def Tbl.put {α : Type} (t : Tbl α) (k : Nat) (v : α) : Tbl α := Tbl.insert k v (Tbl.erase t k)

/-- The keys the table lists. -/
def Tbl.keys {α : Type} (t : Tbl α) : List Nat := t.map Prod.fst

/-- Keys strictly rising. -/
def Tbl.sorted {α : Type} : Tbl α → Bool
  | [] => true
  | [_] => true
  | (k, _) :: (k', v') :: t => k < k' && Tbl.sorted ((k', v') :: t)

/-- The canonical form: keys strictly rising, no entry equal to the default of its key. -/
def Tbl.wf {α : Type} [DecidableEq α] (d : Nat → α) (t : Tbl α) : Bool :=
  Tbl.sorted t && t.all (fun e => !decide (e.2 = d e.1))

end Sys2Proof.Machine
end

