-- ==== Sys2Proof/Machine/Parts.lean ====
section
/-!
DEFINITION. Sys2Proof/Machine/Parts.lean: the parts of the module's state that are not registers, as plain data.
Instants and durations are numbers of nanoseconds; TB_NOW instants are those of R5.
-/
namespace Sys2Proof.Machine

/-- A window of instants [from, to), still open when `till` is none. -/
structure Window where
  from_ : Nat
  till : Option Nat
  deriving DecidableEq, Repr

/-- Where a port stands in the mode-change sequence (R31): not in one, before t1, in the network check of t2, past t2. -/
inductive PortPhase where
  | idle | reconf | check | run
  deriving DecidableEq, Repr

/-- A confirmed discrete change (R50). -/
structure DiscChange where
  at_ : Nat
  confirmed : Nat
  high : Bool
  deriving DecidableEq, Repr

/-- What a port's sampler counted and confirmed in a spell that ended at an instant, its counter's value included (R73, R75, R489). -/
structure PortSpell where
  till : Nat
  count : Nat
  edges : List (Nat × Int)
  qerrs : List Nat
  disc : List DiscChange
  deriving DecidableEq, Repr

/-- A field port beyond its registers. -/
structure Port where
  phase : PortPhase := .idle
  /-- the effective mode before the change under way -/
  oldEff : Nat := 0
  /-- the last network check failed (R26, R28) -/
  failed : Bool := false
  /-- a network check outside a mode change is running -/
  checking : Bool := false
  /-- t3 of R31 is awaited: no output committed at or after t2 -/
  awaitT3 : Bool := false
  /-- t5 of R31 is awaited, and its instant -/
  awaitT5 : Bool := false
  t5 : Nat := 0
  /-- a value has been committed in the present mode (R34) -/
  committed : Bool := false
  /-- the output or transmit stage drives the contacts -/
  driving : Bool := false
  /-- the windows of mode changes (R35) and of checks and open-wire tests (R80 row 13), newest first -/
  changes : List Window := []
  tests : List Window := []
  /-- the coding resistance of the last passed check -/
  passOhms : Nat := 0
  /-- counted edges and steps since the counter was last 0, newest first (R48, R49, R489) -/
  edges : List (Nat × Int) := []
  /-- instants of quadrature errors, newest first -/
  qerrs : List Nat := []
  /-- the sampler's levels of A and B (R488) -/
  levelA : Bool := false
  levelB : Bool := false
  /-- a discrete change in its stable interval: new state and first sample -/
  pendDisc : Option (Bool × Nat) := none
  /-- confirmed discrete changes, newest first -/
  disc : List DiscChange := []
  /-- earlier spells of the sampler, newest first, for records of instants in them that are written later (R71) -/
  spells : List PortSpell := []
  /-- the HART transmit slot in transmission, the instant of its start bit and the length of its preamble -/
  hartTx : Option (Nat × Nat × Nat) := none
  /-- the instant at which the reflectometry run under way began -/
  tdrFrom : Option Nat := none
  deriving DecidableEq, Repr

/-- A port die's link (R51): the die's own isolation, the main die's view. -/
structure Die where
  /-- the die has isolated itself and no commit instant has passed since its link returned -/
  isolated : Bool := false
  /-- the die hears the main die -/
  hears : Bool := false
  /-- L, while the main die holds the link lost -/
  lostAt : Option Nat := none
  /-- the link itself has failed, one way or both, and has not returned since -/
  cut : Bool := false
  deriving DecidableEq, Repr

/-- A signal record (R81). -/
structure SigRec where
  value : BitVec 64 := 0
  time : Nat := 0
  raw : BitVec 32 := 0
  quality : BitVec 8 := 0
  flags : BitVec 8 := 0
  seq : BitVec 16 := 0
  status : BitVec 32 := 0
  deriving DecidableEq, Repr

/-- What a pipeline keeps of a record beside it: the value last written with class GOOD or UNCERTAIN, whether one was
written since the last configuration commit (R79), the end of its chain's settling (R72). -/
structure RecAux where
  prev : Option (BitVec 64) := none
  sinceCommit : Bool := false
  deriving DecidableEq, Repr

/-- An output status record (R86). -/
structure OutStat where
  value : BitVec 64 := 0
  time : Nat := 0
  seq : BitVec 16 := 0
  code : BitVec 16 := 0
  result : BitVec 32 := 0
  deriving DecidableEq, Repr

/-- A record consumed at a capture and not yet reported (R89, R490). -/
structure Captured where
  at_ : Nat
  /-- TB_MONO at the capture -/
  mono : Nat
  /-- the code to apply; none for SAFEREQ, REFUSED and INVALID -/
  code : Option Nat
  safe : Bool
  value : BitVec 64
  seq : BitVec 16
  result : Nat
  overridden : Bool
  stepped : Bool
  applied : Bool
  deriving DecidableEq, Repr

/-- A schedule slot beyond its registers (R109, R116 to R118). -/
structure Slot where
  /-- the latest instant yielded -/
  last : Option Nat := none
  /-- commits that changed it, newest first: instant, PERIOD and DELAY before it -/
  changes : List (Nat × Nat × Nat) := []
  /-- instants yielded whose events are to be raised -/
  events : List Nat := []
  deriving DecidableEq, Repr

/-- The arrivals of one nanosecond at a chess clock, which are evaluated together (R121): TB_MONO, the start of the interval that ran before
them, RESTART_LOST before them, and which have come. -/
structure Arrivals where
  at_ : Nat
  was : Option Nat
  lost : Bool
  start : Bool
  stop : Bool
  deriving DecidableEq, Repr

/-- A chess clock beyond its registers (R119 to R126). -/
structure Clk where
  /-- TB_MONO at the start of the running interval -/
  start : Option Nat := none
  /-- the ports it holds or drives safe: block, mask, safe -/
  hold : Option (Nat × Nat × Bool) := none
  /-- the arrivals of the nanosecond last evaluated -/
  together : Option Arrivals := none
  /-- TB_MONO of a release written while an occurrence was on its way to the clock (R126) -/
  relAt : Option Nat := none
  deriving DecidableEq, Repr

/-- A forwarding-table entry (R64); `used` is TB_MONO of its last traffic. -/
structure FwdEntry where
  bits : BitVec 128 := 0
  used : Nat := 0
  deriving DecidableEq, Repr

/-- A frame waiting at a field-switch egress (R55): priority, tag, bytes, and the transmit slot that asked for its
timestamp as (region, slot). -/
structure QFrame where
  prio : Nat
  bytes : List Byte
  ts : Option (Nat × Nat)
  deriving DecidableEq, Repr

/-- A fault record (R445). -/
structure FaultRec where
  time : Nat
  detail : Nat
  level : Nat
  cause : Nat
  index : Nat
  unit : Nat
  action : Nat
  source : Nat
  master : Nat
  node : Nat
  move : Nat
  deriving DecidableEq, Repr

/-- A violation record (R289). -/
structure VioRec where
  addr : Nat
  time : Nat
  kind : Nat
  master : Nat
  gate : Nat
  access : Nat
  entry : Nat
  size : Nat
  epoch : Nat
  region : Nat
  deriving DecidableEq, Repr

/-- What a Goose log entry reports (R401, R403, R445, R454, R471, R435). -/
inductive GooseWhat where
  | watch (w : Watch) | fault (r : FaultRec) | event (n : Nat) | loss | critical
  deriving DecidableEq, Repr

/-- A Goose log entry with the time keeper's instant (R493). -/
structure GooseEntry where
  time : Nat
  what : GooseWhat
  deriving DecidableEq, Repr

/-- The pending copy of a gate entry (R283). -/
structure PendEnt where
  base : Nat
  top : Nat
  masters : Nat
  deriving DecidableEq, Repr

/-- The stages of link bring-up before STATE 2 (R298). -/
inductive BringUp where
  | waiting | signal | trained | locked
  deriving DecidableEq, Repr

/-- What crosses a mesh or twin link: a flit, or a message of its own type (R303, R304). -/
inductive Parcel where
  | flit (f : Flit)
  | gop (g : GopMsg)
  | member (x : MemberMsg)
  | heartbeat (h : Heartbeat)
  | mirror (x : MirrorMsg)
  deriving DecidableEq, Repr

/-- A parcel that waits for a credit of its virtual channel, and the link in whose receive buffer it stands. -/
structure Queued where
  vc : Nat
  what : Parcel
  origin : Option Nat
  deriving DecidableEq, Repr

/-- What leaves on a link beside its flits: a credit of a virtual channel (R308), the acknowledgement of a block and the request for one to
be sent again (R302), the check that ends a block (R301), the notice that this side refused the link (R299). -/
inductive Wire where
  | credit (l vc : Nat)
  | ack (l n : Nat)
  | again (l n : Nat)
  | sealed (l n : Nat) (check : BitVec 128)
  | refused (l reason : Nat)
  deriving DecidableEq, Repr

/-- A request in service at this home (R306): the link it came over, its source and TID, the virtual channels of credits kept for it. -/
structure Serv where
  link : Nat
  src : Nat
  tid : Nat
  owed : List Nat
  deriving DecidableEq, Repr

/-- A run of another node that this module sent over a v1 link as single lines (R314): whether it reads, its source, TID and home, the lines
still to be answered, what has come, and whether one was refused. -/
structure RunConv where
  reads : Bool
  src : Nat
  tid : Nat
  home : Nat
  lines : Nat
  got : List Flit
  failed : Bool
  deriving DecidableEq, Repr

/-- A mesh link beyond its registers. -/
structure Link where
  stage : BringUp := .waiting
  /-- t6 reached: counted in membership, usable by routes -/
  usable : Bool := false
  peerReqAttest : Bool := false
  /-- consecutive tag failures (R302) -/
  tagFails : Nat := 0
  blocksTx : Nat := 0
  blocksRx : Nat := 0
  /-- blocks sent and not acknowledged, oldest first -/
  replay : List (Nat × List Parcel) := []
  /-- credits in use on each virtual channel (R307) -/
  used : List Nat := [0, 0, 0, 0]
  /-- flits waiting for a credit, by virtual channel, oldest first -/
  waiting : List Queued := []
  /-- at the output, which of VC 0 and VC 3 has the turn, and how many flits of it are left (R305) -/
  turn : Nat × Nat := (0, 0)
  /-- the key in use, TB_MONO and the two counts of blocks when it took over (R301) -/
  keyGen : Nat := 0
  key : BitVec 256 := 0
  /-- the nonces of the two hellos and the Rook's ephemeral public key (R413) -/
  nonce : BitVec 128 := 0
  peerNonce : BitVec 128 := 0
  ephemeral : BitVec 512 := 0
  keySince : Nat := 0
  keyTx : Nat := 0
  keyRx : Nat := 0
  /-- the one-way delay of the last round trip, 2^-16 ns (R112) -/
  delay : Int := 0
  /-- whether a time probe is under way -/
  probe : Option Nat := none
  /-- hops to the grandmaster over this link, as its TIME_SYNC flits tell (R111) -/
  gmHops : Option Nat := none
  /-- the neighbour sends this module its MEMBER flits (R315): it is a child in the tree of R111 -/
  child : Bool := false
  deriving DecidableEq, Repr

/-- A member this module has heard of (R315): its node ID, identity digest and version, its hops from the root as it told, and the link its entry
came over. -/
structure MemberEntry where
  node : Nat
  ident : Nat
  v2 : Bool
  hops : Nat
  link : Nat
  deriving DecidableEq, Repr

/-- Who awaits the response to a mesh request (R311). -/
inductive Requester where
  | core (c : Nat)
  /-- a store of a core, acknowledged by its ACK (R209) -/
  | coreStore (c : Nat)
  | channel (n : Nat)
  | mailbox (q : Nat)
  | host
  /-- a posted write of the host (R360) -/
  | hostWrite
  deriving DecidableEq, Repr

/-- An outstanding request (R311); `via` is the link it was sent on, none while it is held (R310). `lines` are lines still
to come of a run sent as single reads over a v1 link, and what has come (R314). -/
structure MeshReq where
  tid : Nat
  via : Option Nat
  node : Nat
  addr : Nat
  size : Nat
  deadline : Nat
  who : Requester
  /-- TB_MONO when it was sent, for MESH_RTO -/
  since : Nat
  lines : Nat
  got : List Flit
  /-- its virtual channel -/
  vc : Nat
  /-- the link it was sent on has dropped since (R310) -/
  lost : Bool := false
  deriving DecidableEq, Repr

/-- What the configuration stores of a federation, and of a twin pair, say to each other (R377, R382, R384, R387, R425). -/
inductive StoreMsg where
  | image (slot : Nat) (bytes : List Byte)
  | staged (ok : Bool)
  | discard
  | prepare (move digest : Nat)
  | answer (reason : Nat)
  | commit (at_ : Nat)
  | abort
  | report (move : Nat) (late : Bool)
  | takeback (move : Nat)
  /-- a twin's synchronisation: the scoresheet's entries, the slot and the image (R427) -/
  | sync (scores : List Byte) (slot : Nat) (image : List Byte)
  deriving DecidableEq, Repr

/-- What has left the module. -/
inductive Out where
  | flit (l : Nat) (f : Flit)
  | member (l : Nat) (m : MemberMsg)
  | gop (l : Nat) (m : GopMsg)
  | eth (member : Nat) (bytes : List Byte)
  | hart (port : Nat) (bytes : List Byte)
  | msix (vector : Nat)
  | hostRead (data : List Byte) (status : HostStatus)
  | config (tag : Nat) (retry : Bool) (data : Nat)
  | sideband (sess : Nat) (type seq status : Nat) (payload : List Byte)
  | debug (data : List Byte) (refused : Bool)
  | heartbeat (hb : Heartbeat)
  | mirror (m : MirrorMsg)
  /-- to a member, or to the originator -/
  | federate (node : Option Nat) (x : StoreMsg)
  /-- what a Rook sends its peer (R413): the certificate, the statement over the peer's nonce, the ephemeral public key -/
  | evidence (l : Nat) (cert statement : List Byte) (ephemeral : BitVec 512)
  | hello (l : Nat) (h : Hello)
  deriving DecidableEq, Repr

end Sys2Proof.Machine
end

