-- ==== Sys2Proof/Machine/Mod.lean ====
section
/-!
DEFINITION. Sys2Proof/Machine/Mod.lean: the module's state, everything but the queue of waiting commands.
-/
namespace Sys2Proof.Machine

/-- Membership and global operations (R315 to R320). -/
structure Fed where
  /-- members heard of by their own MEMBER flits -/
  ids : List MemberEntry := []
  /-- members that run v1 -/
  v1s : List Nat := []
  /-- barriers this module has arrived at -/
  arrived : List Nat := []
  /-- barrier reports heard from child links: barrier, link, whether a participant is there -/
  reports : List (Nat × Nat × Bool) := []
  /-- barriers reported to the parent -/
  reported : List Nat := []
  /-- own operation in flight: its OP -/
  own : Option Nat := none
  /-- received broadcasts, oldest first: source and bytes -/
  bc : List (Nat × List Byte) := []
  snapAt : Option Nat := none
  /-- the copy of T_s has been taken and its end is awaited -/
  snapBusy : Bool := false
  resetAt : Option Nat := none
  /-- at the root: the end of the last snapshot's guard interval -/
  snapGuard : Nat := 0
  deriving DecidableEq, Repr

/-- The twin's agreement and mirror, and the loss response (R423 to R436). Instants are TB_MONO but for H. -/
structure Twin where
  /-- heartbeats sent, and the instants of the last sent and the last received -/
  hbSeq : Nat := 0
  hbLast : Option Nat := none
  hbRecv : Option Nat := none
  /-- flags to send with the next heartbeats -/
  release : Bool := false
  propose : Option Nat := none
  ackNext : Bool := false
  faultNext : Bool := false
  /-- a standby's own request has gone out: the primary's heartbeats since, and the instant asked for -/
  asked : Option (Nat × Nat) := none
  /-- the agreed hand-over instant H -/
  agreed : Option Nat := none
  /-- H was taken up because the peer's claim had gone, with no agreement (R434) -/
  byLoss : Bool := false
  /-- TB_MONO of the last heartbeat before READY was cleared by the loss of heartbeats or of the link alone (R427, R434) -/
  wasReady : Option Nat := none
  /-- what the mirror had held (1) or safe (2) at ports, in force since the hand-over (R432) -/
  forced : Tbl Nat := []
  /-- the standby has claimed for it, and the hand-over has happened -/
  claimed : Bool := false
  handed : Bool := false
  /-- when TWIN_PEER_CLAIM was last deasserted -/
  peerFell : Option Nat := none
  /-- mirrored codes by port: code; 0 none, 1 held, 2 safe, 3 at high impedance -/
  codes : Tbl (Nat × Nat) := []
  /-- mirrored clock states by clock: fallen, holding, safe, block, mask -/
  clocks : Tbl (Bool × Bool × Bool × Nat × Nat) := []
  /-- at a primary: the number of the window pass under way -/
  pass : Option Nat := none
  /-- at a standby: whether every line of the present pass was written; what of the synchronisation has come -/
  passGood : Bool := true
  passSeen : Bool := false
  fullSeen : Bool := false
  /-- when the eject switch was pressed, and a castling asked for by it -/
  ejectAt : Option Nat := none
  castleOnEject : Bool := false
  /-- a loss response under way: presence loss or feed loss, and since when -/
  loss : Option (Bool × Nat) := none
  /-- what a loss response has done to the outputs (R435): 0 nothing yet, 1 PORT_SAFE, 2 off -/
  lossAct : Nat := 0
  /-- removal has been entered since power good -/
  removed : Bool := false
  deriving DecidableEq, Repr

/-- The start-up phases as the commands of R392 mark them, and the supplies. -/
structure Phase where
  powered : Bool := false
  precharged : Bool := false
  gooseUp : Bool := false
  spineUp : Bool := false
  sheepdogUp : Bool := false
  /-- the CODE sectors still to be reprogrammed: region, sector -/
  reprogram : List (Nat × Nat) := []
  checked : Bool := false
  full : Bool := false
  /-- TB_MONO at t5, for R426 -/
  t5 : Nat := 0
  t5done : Bool := false
  /-- from t5: the slot of the move the module starts with, none with no settled move; whether it is a history move that
  becomes settled at C_f -/
  slot : Option Nat := none
  back : Bool := false
  /-- a position-1 module took the standby role with no claim in sight (R426 case 4) and none has been seen since -/
  claimWait : Bool := false
  /-- the side-band's POWER holds the main side off (R403) -/
  held : Bool := false
  deriving DecidableEq, Repr

/-- What a handle stands for (R358). -/
inductive Held where
  /-- signal records: node, port, record, epoch presented -/
  | signals (l : List (Nat × Nat × Nat × Nat))
  /-- output records: port, epoch presented -/
  | outputs (l : List (Nat × Nat))
  | window (w : Nat)
  | subscription (src vector : Nat)
  | image
  | firmware
  deriving DecidableEq, Repr

/-- A session of a pair (R356); pair 4 is the side-band's own (R404). -/
structure Sess where
  isOpen : Bool := false
  major : Nat := 0
  minor : Nat := 0
  gen : Nat := 0
  handles : List (Nat × Held) := []
  deriving DecidableEq, Repr

/-- A bulk window (R360). -/
structure Win where
  q : Nat
  handle : Nat
  base : Nat
  len : Nat
  wr : Bool
  /-- the gate entries the window relies on as it was opened: the base, the top and the epoch of each (R359) -/
  epochs : List (Nat × Nat × Nat)
  deriving DecidableEq, Repr

/-- The configuration lock (R362). -/
structure Lock where
  holder : Nat := 0
  token : Nat := 0
  leaseEnd : Option Nat := none
  /-- the side-band session that holds it -/
  sess : Nat := 0
  deriving DecidableEq, Repr

/-- An upload (R365): its handle, declared size and the bytes written so far. -/
structure Upload where
  handle : Nat
  size : Nat
  bytes : List (Nat × BitVec 8)
  deriving DecidableEq, Repr

/-- A command taken and not completed (R352, R355): pair, ring index, opcode, tag, NOIRQ, handle, response place. -/
structure LongCmd where
  q : Nat
  slot : Nat
  opcode : Nat
  tag : Nat
  noirq : Bool
  handle : Nat
  respOff : Nat
  respMax : Nat
  arg : Nat
  sess : Nat
  deriving DecidableEq, Repr

/-- Reads for a SIG_READ, or for a host read through a window when there is no command, of which some go to other nodes
(R359, R360): each part's TID and what has come. -/
structure Gather where
  cmd : Option LongCmd
  parts : List (Nat × Option (List (BitVec 8)))
  deriving DecidableEq, Repr

/-- A relayed command that waits (R404): side-band session, sequence, slot, payload. -/
structure Relayed where
  sess : Nat
  seq : Nat
  slot : List (BitVec 8)
  payload : List (BitVec 8)
  deriving DecidableEq, Repr

/-- The states of a Sheepdog firmware slot (R368). -/
inductive FwState where
  | empty | active | trial | reverted | invalid
  deriving DecidableEq, Repr

/-- A Sheepdog firmware slot. -/
structure FwSlot where
  st : FwState
  version : Nat
  svn : Nat
  digest : Nat
  /-- the image the slot holds (R367) -/
  image : List Byte := []
  deriving DecidableEq, Repr

/-- The host link (R349, R352, R366). -/
structure HostIf where
  up : Bool := false
  /-- MSI-X table words and pending bits -/
  table : Tbl Nat := []
  pba : List Nat := []
  /-- open coalescing windows: pair, TB_MONO of its end, whether a completion waits -/
  windows : List (Nat × Nat × Bool) := []
  /-- the registers of configuration space that are not at their reset values (R349) -/
  pci : Tbl Nat := []
  deriving DecidableEq, Repr

/-- The scoresheet's events (R378). -/
inductive ScoreWhat where
  | staging | commit | probationEnd | takeback | discard
  deriving DecidableEq, Repr

/-- A scoresheet entry (R378). -/
structure Score where
  move : Nat
  what : ScoreWhat
  time : Nat
  party : Nat
  reason : Nat
  deriving DecidableEq, Repr

/-- What a commit in progress commits (R382, R387, R388, R391). -/
inductive CommitKind where
  | image | direct | manual | automatic | sync
  deriving DecidableEq, Repr

/-- A commit or take-back in progress (R382, R384). -/
structure Commit where
  kind : CommitKind
  move : Nat
  digest : Nat
  slot : Nat
  /-- slots passed over by a manual take-back, the settled one included -/
  passed : List Nat
  /-- the instant named; 0 = earliest -/
  named : Nat
  /-- this module is the originator -/
  origin : Bool
  party : Nat
  /-- members whose answer is awaited, and those that must report -/
  waiting : List Nat
  members : List Nat
  /-- own prepare: none while it runs, then its reason (0 ready) -/
  own : Option Nat
  /-- reason and node of the first refusal -/
  refusal : Option (Nat × Nat)
  /-- C once chosen -/
  at_ : Option Nat
  late : Bool
  /-- TB_MONO when it was accepted, or its PREPARE arrived -/
  since : Nat
  deriving DecidableEq, Repr

/-- A probation (R386). -/
structure Probation where
  move : Nat
  slot : Nat
  ends : Nat
  falls : Nat
  viol : Nat
  flags : Nat
  federated : Bool
  origin : Bool
  /-- members that have not reported their commit -/
  unreported : List Nat
  members : List Nat
  accepted : Bool
  failed : Bool
  /-- who ended it: a REJECT's party, else the store itself -/
  party : Nat := 6
  /-- a member's request for take-back has gone to the originator -/
  asked : Bool := false
  deriving DecidableEq, Repr

/-- What a commit leaves to its t5 (R382, R56). -/
structure GateDue where
  slot : Nat
  fwd : Tbl (Option (BitVec 128))
  vlan : Tbl (Option (BitVec 128))
  deriving DecidableEq, Repr

/-- The configuration store (R372 to R391). -/
structure Cfg where
  /-- image bytes of each slot -/
  images : Tbl (List Byte) := []
  /-- entries newest first, at most 256 -/
  scores : List Score := []
  highest : Nat := 0
  /-- history slots, newest first, within reach -/
  history : List Nat := []
  commit : Option Commit := none
  probation : Option Probation := none
  /-- members whose staging answer is awaited (R377) -/
  staging : List Nat := []
  stagingRefused : Option Nat := none
  /-- the staged image was staged by this module's own command -/
  ownStage : Bool := false
  /-- at the originator of a move with other members that settled after probation: that probation, and the slot settled before, 8 for none -/
  settledFed : Option (Probation × Nat) := none
  /-- the instant of a federation hold's end -/
  fedHold : Option Nat := none
  /-- what awaits t5: the slot whose GATE sections are to be applied, forwarding and VLAN entries -/
  gateDue : Option GateDue := none
  deriving DecidableEq, Repr

/-- The Rook (R408 to R414). -/
structure Rook where
  life : Lifecycle := .provisioned
  anchor : Bool := false
  /-- the challenge still unused -/
  chal : Option Nat := none
  /-- end of the debug authorisation -/
  dbgEnd : Option Nat := none
  /-- digest and security version of the Rook firmware started -/
  rookDigest : Nat := 0
  rookSvn : Nat := 0
  deriving DecidableEq, Repr

/-- The Goose (R400 to R407, R493). -/
structure Goose where
  keeper : Nat := 0
  invalid : Bool := false
  /-- oldest first, at most 256 -/
  log : List GooseEntry := []
  lost : Nat := 0
  /-- open side-band sessions -/
  sessions : List Nat := []
  restarted : Bool := false
  deriving DecidableEq, Repr

/-- A key: its 128 bits (R134) and its tag. -/
structure Key where
  bits : BitVec 128 := 0
  tag : Bool := false
  deriving DecidableEq, Repr

/-- The registers of one level (R168, R212, R223): its bank, its resume ip, its CAUSE, FIP and FADDR. -/
structure Bank where
  d : Tbl (BitVec 64) := []
  k : Tbl Key := []
  ls : Tbl (BitVec 64) := []
  le : Tbl (BitVec 64) := []
  lc : Tbl (BitVec 64) := []
  /-- STATUS without LEVEL, which is the bank's own (R228); MASK is 7 at reset -/
  status : BitVec 64 := 0x70000
  ip : Key := {}
  cause : BitVec 64 := 0
  fip : BitVec 64 := 0
  faddr : BitVec 64 := 0
  deriving DecidableEq, Repr

/-- The FP state of a level out of the registers (R227). -/
structure FpState where
  f : Tbl (BitVec 64) := []
  fpcsr : BitVec 32 := 0
  deriving DecidableEq, Repr

/-- An exception pending at a level (R222, R224). -/
structure PendExc where
  level : Nat
  cause : BitVec 64
  fip : BitVec 64
  faddr : BitVec 64
  deriving DecidableEq, Repr

/-- A store-buffer entry (R209): effective address, bytes, a key's tag for STK, the epoch, the storing word's cursor,
level and privilege, for a pair whether slot B stores; its TID once its request has gone to another node. -/
structure StoreEnt where
  ea : Nat
  data : List Byte
  keyTag : Option Bool
  epoch : Nat
  word : BitVec 64
  level : Nat
  sys : Bool
  slot : Option Bool
  sent : Option Nat
  /-- the high part of an STU (R182, R288) -/
  high : Bool
  deriving DecidableEq, Repr

/-- A pair whose memory op is answered later (R177): that op, whether it is slot B's, the results of the slots computed from the operands at
issue (file 0 d or 1 f, register, value), and the flag bits of slots A and B with whether an enabled one is among them. -/
structure PairWait where
  op : ShortOp
  inB : Bool
  outs : List (Nat × Nat × Nat)
  flags : List (Nat × Bool × Bool)
  names : List (Nat × Nat)
  deriving DecidableEq, Repr

/-- What the response to a core's access at another node is for (R220, R311): a load of `size` bytes, an LDU of which
some bytes have come and a part may be still to send (address, length, epoch of its key), a short-op pair, a key load, an atomic, a KCAS,
a store that holds issue (R224), a chunk of MCPY or MSET (source key register, none for MSET), a granule of a context
instruction (function, level, key register kb, other key register, granules done). -/
inductive LoadKind where
  | int (rd size : Nat) (signed : Bool)
  | ldu (rd size : Nat) (acc : List Byte) (rest : Option (Nat × Nat × Nat))
  | stu (high : Bool)
  | fp (fd : Nat)
  | pair (x : PairWait)
  | key (kd : Nat) (lk : Bool)
  | atomic (rd size : Nat)
  | kcas (kd : Nat)
  | store
  | chunk (kd : Nat) (src : Option Nat) (rs n : Nat) (desc wr : Bool)
  | ctx (fn n kb other : Nat) (got : List (List Byte × Bool))
  deriving DecidableEq, Repr

/-- An outstanding access of a core at another node: its TID, the level and key of the ip of the word that issued it, its
effective address, the count register of a REP it repeats under, the level's loop counts and LACT before the word, and
the response once it has come (bytes, tags of its line, poison) or its fault kind. -/
structure Wait where
  tid : Nat
  kind : LoadKind
  level : Nat
  word : Key
  ea : Nat
  rep : Option Nat
  lc : Tbl (BitVec 64)
  lact : Nat
  resp : Option (List Byte × Nat × Bool)
  fault : Option Nat
  /-- an earlier word of its level has faulted: the word issues again, so a fault of this access is not raised (R220) -/
  moot : Bool
  deriving DecidableEq, Repr

/-- An entry of a level whose first handler word has not issued (R219): the level it left, TB_MONO of the entry, whether its spill moved a bank, and
the request it took: an exception, or an event with the EVD_LAST of the level before it. -/
structure Entry where
  left : Nat
  at_ : Nat
  spilled : Bool
  exc : Option PendExc
  src : Option (Nat × Nat × Bool)
  deriving DecidableEq, Repr

/-- A Lurik core (R168 to R230). Levels are 0 to 7, and 8 for M. -/
structure Core where
  inReset : Bool := true
  halted : Bool := false
  haltAt : Nat := 0
  /-- debug has halted it, and lets it issue one word (R290) -/
  debugHalt : Bool := false
  debugStep : Bool := false
  waiting : Bool := false
  /-- a word of it executes -/
  word : Bool := false
  /-- the entry of the current level, while it may still be superseded (R219) -/
  entry : Option Entry := none
  level : Nat := 0
  active : List Nat := [0]
  /-- the present ip of the current level -/
  ip : Key := {}
  banks : Tbl Bank := []
  f : Tbl (BitVec 64) := []
  fpcsr : BitVec 32 := 0
  fpImages : Tbl FpState := []
  fpres : Nat := 15
  bankPin : Nat := 0
  excLevel : Nat := 0x8888888880
  /-- the level each general bank holds; 15 none -/
  resident : List Nat := [0, 1, 2, 3, 4, 5]
  /-- sources pending with the level each was latched at (R230) -/
  pendEv : List (Nat × Nat) := []
  pendExc : List PendExc := []
  sb : List StoreEnt := []
  /-- the MCPY that an issue has begun and not ended: its level, its word's cursor, and whether it descends (R195) -/
  copy : Option (Nat × Nat × Bool) := none
  /-- levels, with the STU's cursor, at which the low part of an STU was refused before its high part stood in the store buffer (R288) -/
  stuLost : List (Nat × Nat) := []
  waits : List Wait := []
  /-- faults that came back for words of levels that were not current: raised when the level next runs (R220) -/
  due : List PendExc := []
  btb : Tbl Nat := []
  /-- L1 lines by line address with the epoch of their fill, most recent first (R232, R284) -/
  l1d : List (Nat × Nat) := []
  l1i : List (Nat × Nat) := []
  /-- TB_MONO when the core left reset, and words retired since (R171) -/
  cyc0 : Nat := 0
  retired : Nat := 0
  /-- EVD_LAST: last source taken, by level (R230) -/
  last : Tbl (Nat × Bool) := []
  deriving DecidableEq, Repr

/-- A system cache line (R235 to R239): its way, the 64 bytes, tags, dirty and poison bits, the cores with a copy. -/
structure Line where
  way : Nat
  data : BitVec 512
  tags : BitVec 4
  dirty : Bool
  poison : Bool
  present : Nat
  deriving DecidableEq, Repr

/-- A line read ahead into a side buffer (R238). -/
structure SideLine where
  line : Nat
  data : BitVec 512
  tags : BitVec 4
  poison : Bool
  deriving DecidableEq, Repr

/-- A range operation started and not yet done (R245, R246): the line its gate refused, if any. -/
structure RangeOp where
  op : Nat
  fail : Option Nat
  deriving DecidableEq, Repr

/-- A tag sweep under way (R162, R271), with its start in TB_MONO. -/
structure Sweep where
  node : Nat
  lo : Nat
  hi : Nat
  keep : Nat
  hold : Bool
  rate : Nat
  start : Nat
  done : List SweepPass
  deriving DecidableEq, Repr

/-- The line the DRAM pass has come to at its nominal rate: 0.4 lines a nanosecond at RATE 0, doubled with each RATE (R271, R274). -/
def Sweep.position (w : Sweep) (now : Nat) : Nat := Nat.min (2 ^ 30 - 1) ((now - w.start) * 2 ^ w.rate * 2 / 5)

/-- A matrix engine's running job: its slot and descriptor address, its descriptor's bytes and the tags of its four keys,
and how it ends (R330 to R340): code, subcode, FP flags, what MX_FAIL records, the count of R338 where it has one, with whether its cycles are
exactly those. -/
structure MxJob where
  slot : Nat
  addr : Nat
  desc : List Byte
  tags : List Bool
  code : Nat
  sub : Nat
  flags : Nat
  fail : Option Nat
  cycles : Option (Nat × Bool)
  /-- after an ABORT: the tiles the job still performs, from its first on (R340) -/
  tiles : Option Nat := none
  deriving DecidableEq, Repr

/-- What a transfer channel's remote request came to. -/
inductive XfrResp where
  | data (d : List Byte) (tags : Nat) (poison : Bool) | acked | failed (code sub : Nat)
  deriving DecidableEq, Repr

/-- A transfer channel's running descriptor (R341 to R346): its address and bytes, the tags of its two keys, the bytes
written, the outstanding request with what it came to and whether it writes, an abort asked for, the deadline since its
first request, and how it ends once that is known: code, subcode, refused address. -/
structure XfrRun where
  addr : Nat
  desc : List Byte
  tags : List Bool
  done : Nat
  tid : Option Nat
  resp : Option XfrResp
  writing : Bool
  aborting : Bool
  deadline : Option Nat
  fin : Option (Nat × Nat × Option Nat)
  deriving DecidableEq, Repr

/-- The whole module but the queue of waiting commands. -/
structure Mod where
  -- registers and the staging view
  regs : Tbl (BitVec 64) := []
  /-- of the registers that records are judged by at their sampling instant (R80, R81, R9): instants of changes and the values
  before them, newest first, by register and instance -/
  past : Tbl (List (Nat × BitVec 64)) := []
  staged : Tbl (BitVec 64) := []
  /-- values in effect of ST registers of a region under reset that its registers do not show: held at reset from t4 of R451, or
  committed during the reset (R448) -/
  parked : Tbl (BitVec 64) := []
  /-- regions in whose reset a configuration commit has fallen (R448, R461) -/
  resetCommits : List Nat := []
  stageImage : Bool := false
  freeCtr : Nat := 0
  -- time
  now : Nat := 0
  mono : Nat := 0
  corr : Int := 0
  acc : Int := 0
  goodIv : Nat := 0
  badIv : Nat := 0
  /-- spans of instants, first and end, that steps of TB_NOW skipped (R109) -/
  skips : List (Nat × Nat) := []
  /-- TB_MONO when holdover began, and of the last sync interval or change of source (R110) -/
  holdFrom : Nat := 0
  lastSync : Nat := 0
  /-- the rate of the 10 MHz input against the module oscillator, in 2^-32 (R114) -/
  rate10 : Int := 0
  /-- occurrences on their way to the chess clocks (R120, R121): clock, start or stop, TB_MONO of the source, oldest first -/
  heard : List (Nat × Bool × Nat) := []
  /-- TB_NOW when a running clock's time came, where TB_MONO has passed it (R124) -/
  fallNow : Tbl Nat := []
  /-- TB_NOW at the latest arrival, 30 ns after its source, of an occurrence still on its way to a chess clock, by TB_MONO (R121, R124) -/
  heardNow : Tbl Nat := []
  slots : Tbl Slot := []
  clks : Tbl Clk := []
  -- ports, pipelines, field switch
  ports : Tbl Port := []
  dies : Tbl Die := []
  recs : Tbl SigRec := []
  recAux : Tbl RecAux := []
  ostat : Tbl OutStat := []
  outSeq : Tbl Nat := []
  captured : Tbl (Option Captured) := []
  lastCapture : Tbl Nat := []
  /-- the latest commit instant of a block whose t3 has come, by block (R120) -/
  lastDone : Tbl Nat := []
  settleEnd : Tbl Nat := []
  /-- the latest sampling instant each chain has yielded (R109), by port × 2 + chain -/
  chainLast : Tbl Nat := []
  tdrBuf : Tbl (List (BitVec 16)) := []
  fwd : Tbl FwdEntry := []
  fwdStage : Tbl (Option (BitVec 128)) := []
  vlan : Tbl (BitVec 128) := []
  vlanStage : Tbl (Option (BitVec 128)) := []
  egress : Tbl (List QFrame) := []
  /-- HART transmit indices finished and not released; link transmit slots taken beyond the consumer index; link
  transmit indices finished and not released, by region -/
  htxDone : Tbl (List Nat) := []
  ltxTaken : Tbl Nat := []
  ltxDone : Tbl (List Nat) := []
  -- memories
  mem : List Host.Cell := []
  tags : Tbl Bool := []
  dramPoison : Tbl Bool := []
  /-- words of core scratch, region scratch and code store that hold an uncorrectable error, by address / 8 (R241, R249, R250) -/
  spoiled : Tbl Bool := []
  lines : Tbl Line := []
  plru : Tbl Nat := []
  side : Tbl (List SideLine) := []
  victims : Tbl (List (Nat × Line)) := []
  held : Tbl (List SideLine) := []
  rng : Tbl (Option RangeOp) := []
  /-- the ways being cleaned for power-down, by region (R243) -/
  pdWays : Tbl Nat := []
  csRun : Tbl (Option (Nat × Nat × BitVec 256)) := []
  csErases : Tbl Nat := []
  trainTries : Nat := 0
  dramUp : Bool := false
  /-- a DRAM device stands at 105 °C, not yet 3 K below it (R270) -/
  dramHot : Bool := false
  sweep : Option Sweep := none
  -- gates, faults and events
  gatePend : Tbl (Option PendEnt) := []
  vq : List VioRec := []
  fq : List FaultRec := []
  sdFaults : List FaultRec := []
  sdEvents : List Nat := []
  inFlight : List (Nat × Nat) := []
  escCell : List (Nat × Nat) := []
  escBlock : List (Nat × Nat) := []
  escRgn : List Nat := []
  escDue : List (Option Nat × Bool × Nat) := []
  rgnAct : Tbl Nat := []
  devSafe : Bool := false
  rgnPhase : Tbl Nat := []
  federated : Bool := false
  -- cores
  cores : Tbl Core := []
  -- mesh
  links : Tbl Link := []
  req : List MeshReq := []
  serving : List Serv := []
  runs : List RunConv := []
  /-- requests held until earlier ones to their destination complete (R310) -/
  heldReqs : List (Nat × List Flit) := []
  nextTid : Nat := 0
  fed : Fed := {}
  /-- credit-based shapers by egress × 8 + queue: credit in 10^-6 bit, TB_MONO when it stood so (R323) -/
  cbs : Tbl (Int × Nat) := []
  -- engines
  mx : Tbl (Option MxJob) := []
  xfr : Tbl (Option XfrRun) := []
  -- host and Sheepdog
  host : HostIf := {}
  sess : Tbl Sess := []
  wins : Tbl (Option Win) := []
  lock : Lock := {}
  imgUp : Option Upload := none
  fwUp : Option Upload := none
  long : List LongCmd := []
  gathers : List Gather := []
  relays : List Relayed := []
  /-- the pair whose command the Sheepdog began last (R355) -/
  served : Nat := 4
  fwA : FwSlot := ⟨.active, 0x2000000, 0, 0, []⟩
  fwB : FwSlot := ⟨.empty, 0, 0, 0, []⟩
  runB : Bool := false
  trialWait : Bool := false
  cfg : Cfg := {}
  -- start-up, Goose, Rook, carrier, twin, power
  phase : Phase := {}
  goose : Goose := {}
  rook : Rook := {}
  desc : List Byte := []
  laneMax : List Nat := []
  twin : Twin := {}
  waking : List (Nat × Nat) := []
  domRetry : List Nat := []
  -- what has left the module, newest first
  sent : List Out := []
  wire : List Wire := []
  deriving DecidableEq, Repr

end Sys2Proof.Machine
end

