-- ==== Sys2Proof/Machine/Ops.lean ====
section
/-!
DEFINITION. Sys2Proof/Machine/Ops.lean: the named operations every family is built on: registers and their fields,
counters, time, event sources, the Goose's log, free values, what leaves the module.
-/
namespace Sys2Proof.Machine

/-! ### Registers -/

/-- The key of instance `i` of a register in the register file. -/
def regKey (r : Reg) (i : Nat) : Nat := i * 512 + r.ctorIdx

/-- The value in effect of instance `i` of a register. -/
def Mod.reg (m : Mod) (r : Reg) (i : Nat) : Nat :=
  (Tbl.get (BitVec.ofNat 64 (r.resetVal i)) m.regs (regKey r i)).toNat

/-- The registers a record depends on at its sampling instant, which lies a group delay before the record is written (R9, R71, R80,
R81): their past values are kept. -/
def Reg.traced (r : Reg) : Bool :=
  match r with
  | .PORT_STATUS | .PORT_MODE | .SPL_PORT_CHA | .SPL_PORT_CHB | .TB_STATUS | .TWIN_STATUS | .CFG_MOVE_PROB | .CFG_MOVE_SETTLED | .SPL_BLK_CTRL | .SPL_BLK_DR | .SPL_PORT_PULSE | .SPL_REC_CTRL
  | .SPL_REC_HYST | .SPL_REC_GAIN | .SPL_REC_OFFSET | .SPL_REC_SCALE | .SPL_REC_BIAS | .SPL_REC_LIM_HH | .SPL_REC_LIM_H | .SPL_REC_LIM_L
  | .SPL_REC_LIM_LL | .SPL_REC_RATE | .SPL_REC_CUT | .SPL_RGN_CAL => true
  | _ => false

/-- A register's value in effect replaced; a traced register's value before is kept with the instant. -/
def Mod.setReg (m : Mod) (r : Reg) (i v : Nat) : Mod :=
  let d := BitVec.ofNat 64 (r.resetVal i)
  let k := regKey r i
  { m with
    regs := Tbl.set d m.regs k (BitVec.ofNat 64 v)
    past := if r.traced && Tbl.get d m.regs k != BitVec.ofNat 64 v then Tbl.put m.past k ((m.now, Tbl.get d m.regs k) :: Tbl.get [] m.past k)
      else m.past }

/-- The value at instant `t` of a register that now holds `cur`, from its past. -/
def valueAt (cur : BitVec 64) (t : Nat) : List (Nat × BitVec 64) → BitVec 64
  | [] => cur
  | (c, old) :: rest => if t < c then valueAt old t rest else cur

/-- A field in effect. -/
def Mod.rd (m : Mod) (f : Fld) (i : Nat := 0) : Nat := bitsOf (m.reg f.reg i) f.lo f.width

/-- The module with the traced registers as they stood at instant `t`. -/
def Mod.asAt (m : Mod) (t : Nat) : Mod :=
  { m with regs := m.past.foldl (fun regs e =>
      let d := BitVec.ofNat 64 ((allRegs.getD (e.1 % 512) .PBLK_ID).resetVal (e.1 / 512))
      Tbl.set d regs e.1 (valueAt (Tbl.get d regs e.1) t e.2)) m.regs }

/-- A one-bit field in effect. -/
def Mod.flag (m : Mod) (f : Fld) (i : Nat := 0) : Bool := m.rd f i == 1

/-- A field in effect replaced. -/
def Mod.wr (m : Mod) (f : Fld) (i v : Nat) : Mod := m.setReg f.reg i (withBits (m.reg f.reg i) f.lo f.width v)

/-- A one-bit field set or cleared. -/
def Mod.put (m : Mod) (f : Fld) (i : Nat) (b : Bool) : Mod := m.wr f i (b2n b)

/-- A saturating 32-bit counter incremented. -/
def Mod.count (m : Mod) (f : Fld) (i : Nat := 0) (k : Nat := 1) : Mod := m.wr f i (satAdd32 (m.rd f i) k)

/-- The value in effect of a register, one that a region reset holds back included (R448). -/
def Mod.inEffect (m : Mod) (r : Reg) (i : Nat) : Nat :=
  match Tbl.look m.parked (regKey r i) with
  | some v => v.toNat
  | none => m.reg r i

/-- The staged value of a register before direct writes: its value in effect, or its reset value while an image is
staged (R374, R380). -/
def Mod.stagedBase (m : Mod) (r : Reg) (i : Nat) : Nat := if m.stageImage then r.resetVal i else m.inEffect r i

/-- The mask of a register's ST fields. -/
def Reg.stMask (r : Reg) : Nat :=
  r.fields.foldl (fun a f => if f.ty = .st then a ||| ((2 ^ f.width - 1) <<< f.lo) else a) 0

/-- The staging view of a register (R380): ST fields staged, every other field in effect. -/
def Mod.stagedReg (m : Mod) (r : Reg) (i : Nat) : Nat :=
  let st := (Tbl.get (BitVec.ofNat 64 (m.stagedBase r i)) m.staged (regKey r i)).toNat
  let mask := r.stMask
  (st &&& mask) ||| (m.reg r i &&& ((2 ^ 64 - 1) ^^^ mask))

/-- A staged field. -/
def Mod.staged' (m : Mod) (f : Fld) (i : Nat := 0) : Nat := bitsOf (m.stagedReg f.reg i) f.lo f.width

/-- A register's staged value replaced. -/
def Mod.setStaged (m : Mod) (r : Reg) (i v : Nat) : Mod :=
  let base := BitVec.ofNat 64 (m.stagedBase r i)
  { m with staged := Tbl.set base m.staged (regKey r i) (BitVec.ofNat 64 v) }

/-- A staged field replaced. -/
def Mod.stage (m : Mod) (f : Fld) (i v : Nat) : Mod :=
  m.setStaged f.reg i (withBits (m.stagedReg f.reg i) f.lo f.width v)

/-- Nothing staged: every staged value equals its value in effect (R380). -/
def Mod.unstage (m : Mod) : Mod := { m with staged := [], stageImage := false, fwdStage := [], vlanStage := [] }

/-- Whether a commit or take-back is in progress (R380, R384). -/
def Mod.committing (m : Mod) : Bool := m.cfg.commit.isSome

/-- Whether a direct write of a master stages (R380). -/
def Mod.mayStage (m : Mod) (master : Nat) : Bool :=
  !m.stageImage && (m.rd F.MBX_LOCK_HOLDER == 0 || master == 32) && !m.committing

/-- Repeats a change over a list, left to right. -/
def Mod.each {α : Type} (m : Mod) (l : List α) (f : Mod → α → Mod) : Mod := l.foldl f m

/-- A change made when a condition holds. -/
def Mod.iff (m : Mod) (c : Bool) (f : Mod → Mod) : Mod := if c then f m else m

/-! ### Parts -/

def Mod.port (m : Mod) (p : Nat) : Port := Tbl.get {} m.ports p
def Mod.setPort (m : Mod) (p : Nat) (v : Port) : Mod := { m with ports := Tbl.set {} m.ports p v }
def Mod.die (m : Mod) (d : Nat) : Die := Tbl.get {} m.dies d
def Mod.setDie (m : Mod) (d : Nat) (v : Die) : Mod := { m with dies := Tbl.set {} m.dies d v }
def Mod.core (m : Mod) (c : Nat) : Core := Tbl.get {} m.cores c
def Mod.setCore (m : Mod) (c : Nat) (v : Core) : Mod := { m with cores := Tbl.set {} m.cores c v }
def Mod.clk (m : Mod) (n : Nat) : Clk := Tbl.get {} m.clks n
def Mod.setClk (m : Mod) (n : Nat) (v : Clk) : Mod := { m with clks := Tbl.set {} m.clks n v }
def Mod.slot (m : Mod) (n : Nat) : Slot := Tbl.get {} m.slots n
def Mod.setSlot (m : Mod) (n : Nat) (v : Slot) : Mod := { m with slots := Tbl.set {} m.slots n v }
def Mod.link (m : Mod) (l : Nat) : Link := Tbl.get {} m.links l
def Mod.setLink (m : Mod) (l : Nat) (v : Link) : Mod := { m with links := Tbl.set {} m.links l v }
def Mod.session (m : Mod) (q : Nat) : Sess := Tbl.get {} m.sess q
def Mod.setSess (m : Mod) (q : Nat) (v : Sess) : Mod := { m with sess := Tbl.set {} m.sess q v }
def Mod.sigRec (m : Mod) (k : Nat) : SigRec := Tbl.get {} m.recs k
def Mod.setRec (m : Mod) (k : Nat) (v : SigRec) : Mod := { m with recs := Tbl.set {} m.recs k v }
def Mod.capture (m : Mod) (p : Nat) : Option Captured := Tbl.get none m.captured p
def Mod.setCapture (m : Mod) (p : Nat) (v : Option Captured) : Mod := { m with captured := Tbl.set none m.captured p v }

/-! ### Time -/

/-- The rate limit of R108, ±200 ppm, in units of 2^-32 (R113). -/
def slewLimit : Int := 858993

/-- The source that disciplines TB_NOW (R107): SRC, taken as 0 at a grandmaster that is no candidate (R111, DEDUCED, log 81). -/
def Mod.tbSrc (m : Mod) : Nat :=
  if m.flag F.TB_STATUS_IS_GM && !m.flag F.TB_CTRL_GM then 0 else m.rd F.TB_CTRL_SRC

/-- The rate offset in 2^-32: TB_FREQ with source 2 (R113), the 10 MHz input's with source 3 (R114). -/
def Mod.freqAdj (m : Mod) : Int :=
  match m.tbSrc with
  | 2 => signedOf 32 (m.rd F.TB_FREQ_ADJ)
  | 3 => m.rate10
  | _ => 0

/-- What `d` nanoseconds of the module oscillator add to TB_NOW and its fraction (R105, R108), in 2^-32 ns, and the part of it that is
outstanding correction slewed out within the limit. -/
def Mod.gain (m : Mod) (d : Nat) : Int × Int :=
  let adj := m.freqAdj
  let room : Int := if m.corr ≥ 0 then (slewLimit - adj) * d else (slewLimit + adj) * d
  let mag : Int := if (m.corr.natAbs : Int) ≤ room then m.corr.natAbs else room
  let c : Int := if m.corr ≥ 0 then mag else -mag
  (m.acc + adj * d + c, c)

/-- TB_NOW after `d` nanoseconds of the module oscillator. -/
def Mod.nowAfter (m : Mod) (d : Nat) : Nat := (m.now + (d : Int) + (m.gain d).1 / 4294967296).toNat

/-- MODE of a clock, 0 before full service (R397). -/
def Mod.clkMode (m : Mod) (n : Nat) : Nat := if m.phase.full then m.rd F.CLK_CTRL_MODE n else 0

/-- The instant of TB_MONO at which a running clock's flag falls, none for a clock that is off or stopped (R121). -/
def Mod.clkDue (m : Mod) (n : Nat) : Option Nat :=
  let md := m.clkMode n
  match (m.clk n).start with
  | some t => if md = 1 ∨ md = 2 ∨ md = 3 then some (t + m.rd F.CLK_LIMIT_LIMIT n + 1) else none
  | none => none

/-- The clocks whose time comes within `d` nanoseconds, each with TB_NOW then (R124). -/
def Mod.fallsWithin (m : Mod) (d : Nat) : List (Nat × Nat) :=
  m.clks.filterMap (fun e => match m.clkDue e.1 with
    | some t => if m.mono < t ∧ t ≤ m.mono + d then some (e.1, m.nowAfter (t - m.mono)) else none
    | none => none)

/-- The latest arrivals within `d` nanoseconds of occurrences on their way to clocks, each with TB_NOW then (R121, R124). -/
def Mod.heardWithin (m : Mod) (d : Nat) : List (Nat × Nat) :=
  m.heard.filterMap (fun e => let t := e.2.2 + 30
    if m.mono < t ∧ t ≤ m.mono + d then some (t, m.nowAfter (t - m.mono)) else none)

/-- `d` nanoseconds of the module oscillator pass (R105, R108): TB_MONO counts each, the Goose's keeper as well, TB_NOW runs at the rate offset
and slews out the outstanding correction within the limit; `corr` is the correction left, in 2^-32 ns. -/
def Mod.advance (m : Mod) (d : Nat) : Mod :=
  { m with
    mono := m.mono + d
    goose := { m.goose with keeper := m.goose.keeper + d }
    now := m.nowAfter d
    acc := (m.gain d).1 % 4294967296
    corr := m.corr - (m.gain d).2
    fallNow := (m.fallsWithin d).foldl (fun t e => Tbl.put t e.1 e.2) m.fallNow
    heardNow := (m.heardWithin d).foldl (fun t e => Tbl.put t e.1 e.2) m.heardNow }

/-- Time runs until TB_MONO has reached `t`. -/
def Mod.toMono (m : Mod) (t : Nat) : Mod := if t ≤ m.mono then m else m.advance (t - m.mono)

/-- Time runs until TB_NOW has reached `t`, in at most `k` runs, each a little shorter than what TB_NOW lacks so that no rate within the limits
of R108 and R113 carries it past `t`. -/
def Mod.runNow (t : Nat) : Nat → Mod → Mod
  | 0, m => m
  | k + 1, m =>
    if t ≤ m.now then m
    else
      let gap := t - m.now
      Mod.runNow t k (m.advance (if gap = 1 then 1 else gap - 1 - gap / 2000))

/-- Time runs until TB_NOW has reached `t`. -/
def Mod.toNow (m : Mod) (t : Nat) : Mod := Mod.runNow t 32 m

/-! ### Free values, what leaves the module -/

/-- The index of the next free value, and the counter moved past it. -/
def Mod.fresh (m : Mod) : Nat × Mod := (m.freeCtr, { m with freeCtr := m.freeCtr + 1 })

/-- Something leaves the module. -/
def Mod.emit (m : Mod) (o : Out) : Mod := { m with sent := o :: m.sent }

/-! ### Containers and identity -/

def portBlock (p : Nat) : Nat := p / 32
def portDie (p : Nat) : Nat := p / 128
def portRegion (p : Nat) : Nat := p / 256
def blockRegion (b : Nat) : Nat := b / 8
def coreRegion (c : Nat) : Nat := c / 8
def clockRegion (n : Nat) : Nat := n / 128
/-- The ports of block `b`. -/
def blockPorts (b : Nat) : List Nat := span (32 * b) 32

/-- This module's own node ID (R18, R425): NODE in effect, with the twin position in a twin carrier. -/
def Mod.node (m : Mod) : Nat :=
  let n := m.rd F.MESH_CTRL_NODE
  if n = 0xFFF then 0xFFF
  else if m.flag F.CAR_STATUS_TWIN && m.flag F.CAR_STATUS_POSITION then
    (if n = 4094 then 0xFFF else n ^^^ 1) else n

/-- The move in effect: the one on probation, else the settled one. -/
def Mod.moveNow (m : Mod) : Nat :=
  if m.rd F.CFG_MOVE_PROB_MOVE ≠ 0 then m.rd F.CFG_MOVE_PROB_MOVE else m.rd F.CFG_MOVE_SETTLED_MOVE

/-- Whether region `g` is between t1 and C_r of a region reset (R451). -/
def Mod.rgnDown (m : Mod) (g : Nat) : Bool := let p := Tbl.get 0 m.rgnPhase g; p == 1 || p == 2

/-- Whether a power domain is powered (R458). -/
def Mod.domPowered (m : Mod) (d : Nat) : Bool := bitAt (m.rd F.PWR_DOM_STATE_ON (d / 32)) (d % 32)

/-- Whether a power domain is on and its wake time over, so that its contents are usable (R458, R461). -/
def Mod.domOn (m : Mod) (d : Nat) : Bool := m.domPowered d && !m.waking.any (fun e => e.1 == d)

/-- A power domain marked on or off. -/
def Mod.setDom (m : Mod) (d : Nat) (on : Bool) : Mod :=
  m.wr F.PWR_DOM_STATE_ON (d / 32) (withBits (m.rd F.PWR_DOM_STATE_ON (d / 32)) (d % 32) 1 (b2n on))

/-- Whether the module is the standby of a twin (R426), or a twin port die that may not drive (R424). -/
def Mod.isStandby (m : Mod) : Bool := m.rd F.TWIN_STATUS_ROLE == 2

/-- Whether output and transmit stages may drive (R30, R424, R436). -/
def Mod.mayDrive (m : Mod) : Bool :=
  if m.flag F.CAR_STATUS_TWIN then
    m.flag F.TWIN_STATUS_CLAIM && !m.flag F.TWIN_STATUS_PEER_CLAIM && !m.isStandby
  else true

/-- Whether the ports behave as those of a standby (R30): on a standby, and in a twin wherever they may not drive (R424). -/
def Mod.asStandby (m : Mod) : Bool := m.isStandby || !m.mayDrive

/-! ### Events -/

/-- The region of an event source (R454); none for a source of no region. -/
def sourceRegion (n : Nat) : Option Nat :=
  if n < 32 then some (n / 8)
  else if n < 96 then some ((n - 32) / 2 / 8)
  else if n < 160 then some ((n - 96) / 16)
  else if n < 168 then some ((n - 160) / 2)
  else if 172 ≤ n ∧ n < 176 then some (n - 172)
  else if 201 ≤ n ∧ n < 213 then some ((n - 201) % 4)
  else if 232 ≤ n ∧ n < 236 then some (n - 232)
  else none

/-- Whether core `c` would latch source `n` (R230, R454, R456): its EN, its reset, its power. -/
def Mod.latches (m : Mod) (c n : Nat) : Bool :=
  m.flag (F.EVD_SRC_EN (n % 4)) (c * 64 + n / 4) && !(m.core c).inReset && !m.rgnDown (c / 8) && m.domOn c

/-- A word of the MSI-X table: vector control, the last of four, masks its vector at reset (PCI Express, R369). -/
def Mod.msixWord (m : Mod) (i : Nat) : Nat := Tbl.get (if i % 4 = 3 then 1 else 0) m.host.table i

/-! ### Configuration space (R349)

A header of type 0 with the capabilities that R349 names, by the PCI Express Base Specification 5.0 that it names; where the capabilities
lie, below 0x100, is the model's choice (PRESUMED, log entry 86). -/

/-- A 32-bit register of configuration space at reset. -/
def pciReset (i : Nat) : Nat :=
  match i with
  | 0 => 0x10241EB7 | 1 => 0x00100000 | 2 => 0x11800001
  | 4 => 0x4 | 6 => 0x4 | 8 => 0xC
  | 11 => Config.pciSubsystem.toNat | 13 => 0x40
  | 16 => 0x00035001
  | 20 => 0x003F7011 | 21 => 0x2000 | 22 => 0x3000
  | 28 => 0x00020010 | 29 => 0x10008002 | 30 => 0x2000 | 31 => 0x85 | 32 => Config.pciLink.toNat * 65536
  | 64 => 0x00020001 | 67 => 0x00062030 | 69 => 0x2000
  | _ => 0

/-- The bits of a register of configuration space that a write sets: the command register, the BARs' addresses, the power state, MSI-X's
enable and mask, the device and link controls, AER's masks and severities. -/
def pciWritable (i : Nat) : Nat :=
  match i with
  | 1 => 0x146 | 3 => 0xFF
  | 4 => 0xFFFFC000 | 5 => 0xFFFFFFFF | 6 => 0xFFF00000 | 7 => 0xFFFFFFFF | 9 => 0xFFFFFFFF
  | 15 => 0xFF | 17 => 0x3 | 20 => 0xC0000000 | 30 => 0x70EF | 32 => 0x40
  | 66 => 0x001FF030 | 67 => 0x001FF030 | 69 => 0x31C1
  | _ => 0

/-- The bits that a write of 1 clears: the status registers. -/
def pciClears (i : Nat) : Nat :=
  match i with
  | 1 => 0xF9000000 | 30 => 0x000F0000 | 65 => 0x001FF030 | 68 => 0x31C1
  | _ => 0

/-- A register of configuration space: what no write changes is as at reset. -/
def Mod.pciReg (m : Mod) (i : Nat) : Nat :=
  let live := pciWritable i ||| pciClears i
  (Tbl.get (pciReset i) m.host.pci i &&& live) ||| (pciReset i &&& (0xFFFFFFFF - live))

/-- A register of configuration space given a value. -/
def Mod.setPci (m : Mod) (i v : Nat) : Mod := { m with host := { m.host with pci := Tbl.set (pciReset i) m.host.pci i v } }

/-- Whether MSI-X is enabled and the function not masked. -/
def Mod.msixOn (m : Mod) : Bool := bitsOf (m.pciReg 20) 30 2 == 2

/-- Whether the endpoint claims accesses to its BARs: memory space enable. -/
def Mod.memOn (m : Mod) : Bool := bitAt (m.pciReg 1) 1

/-- One MSI-X message (R366); a masked vector sets its pending bit. -/
def Mod.msix (m : Mod) (v : Nat) : Mod :=
  if !m.host.up then m
  else if bitAt (m.msixWord (4 * v + 3)) 0 || !m.msixOn then
    { m with host := { m.host with pba := if m.host.pba.contains v then m.host.pba else v :: m.host.pba } }
  else m.emit (.msix v)

/-- The vectors of live subscriptions to source `n` (R366). -/
def Mod.subscribed (m : Mod) (n : Nat) : List Nat :=
  (List.range 4).flatMap (fun q => (m.session q).handles.filterMap (fun h => match h.2 with
    | .subscription src v => if src = n then some v else none
    | _ => none)) |>.eraseDups

/-- An occurrence of a chess-clock source (R120) sets out for the clocks that name it. -/
def Mod.occur (m : Mod) (code : Nat) : Mod :=
  { m with heard := m.heard ++ m.regs.flatMap (fun e =>
      let v := e.2.toNat
      if e.1 % 512 = Reg.CLK_SRC.ctorIdx then
        (if bitsOf v 16 9 = code then [(e.1 / 512, false, m.mono)] else []) ++ (if bitsOf v 0 9 = code then [(e.1 / 512, true, m.mono)] else [])
      else []) }

/-- A raising of source `n` without the Goose (R454): to the chess clocks, to the routed cores, to the Sheepdog, to host subscriptions;
counted when nothing takes it. -/
def Mod.deliver (m : Mod) (n : Nat) : Mod :=
  let m := m.occur n
  let cores := setBits 32 (m.rd F.EVR_ROUTE_LO_CORES n)
  let sd := m.flag F.EVR_ROUTE_HI_SD n
  let goose := m.flag F.EVR_ROUTE_HI_GOOSE n && n != 248 && n != 249
  let m := { m with inFlight := m.inFlight ++ cores.map (fun c => (c, n)) }
  let m := m.iff sd (fun m => { m with sdEvents := m.sdEvents ++ [n] })
  let m := (m.subscribed n).foldl Mod.msix m
  m.iff (!(cores.any (fun c => m.latches c n)) && !sd && !goose) (fun m => m.count F.EVR_UNROUTED_COUNT)

/-- An entry in the Goose's log (R493), which raises EV248 (R401) while the spine is up. -/
def Mod.gooseLog (m : Mod) (w : GooseWhat) : Mod :=
  let e : GooseEntry := ⟨m.goose.keeper, w⟩
  let full := m.goose.log.length ≥ 256
  let g : Goose := { m.goose with
    log := (if full then m.goose.log.drop 1 else m.goose.log) ++ [e]
    lost := if full then Nat.min (m.goose.lost + 1) 0xFFFF else m.goose.lost }
  { m with goose := g }.iff m.phase.spineUp (fun m => m.deliver 248)

/-- A raising of source `n` (R453, R454). A source of a region under reset raises no event (R451). -/
def Mod.raise (m : Mod) (n : Nat) : Mod :=
  if (match sourceRegion n with
    | some g => m.rgnDown g
    | none => false) then m
  else
    let m := m.deliver n
    m.iff (m.flag F.EVR_ROUTE_HI_GOOSE n && n != 248 && n != 249) (fun m => m.gooseLog (.event n))

/-- MBX_STATE changes (R369), which raises vector 4. -/
def Mod.setMbxState (m : Mod) (v : Nat) : Mod :=
  if m.rd F.MBX_STATE_STATE = v then m else (m.wr F.MBX_STATE_STATE 0 v).msix 4

/-- MBX_STATE with all its fields, SLOT naming the slot that runs: vector 4 where any of them changes. -/
def Mod.mbxShow (m : Mod) (state : Nat) (trial : Bool) : Mod :=
  let m' := ((m.wr F.MBX_STATE_STATE 0 state).put F.MBX_STATE_SLOT 0 m.runB).put F.MBX_STATE_TRIAL 0 trial
  m'.iff (m'.reg .MBX_STATE 0 != m.reg .MBX_STATE 0) (fun m => m.msix 4)

/-- A bit of MBX_HOST_ERR is set (R351), which raises vector 7. -/
def Mod.hostErr (m : Mod) (f : Fld) : Mod := (m.put f 0 true).msix 7

end Sys2Proof.Machine
end

