-- ==== Sys2Proof/Machine/Mem.lean ====
section
/-!
DEFINITION. Sys2Proof/Machine/Mem.lean: the bytes of the local memories (R16) as cells in one canonical form, and the
places of the local memory map.
-/
namespace Sys2Proof.Machine

/-! ### The local memory map (R16) -/

def dramTop : Nat := 0x1000000000
def codeBase (g : Nat) : Nat := 0x1000000000 + g * 0x800000
def rgnScratch (g : Nat) : Nat := 0x1010000000 + g * 0x400000
def coreScratch (c : Nat) : Nat := 0x1020000000 + c * 0x20000
def signalBase (g : Nat) : Nat := 0x1030000000 + g * 0x200000
def regBase : Nat := 0x1040000000
def mailboxBase : Nat := 0x1050000000

/-- The targets of the local memory map, with the region, core or offset an address falls in; none where unmapped (R17). -/
inductive Target where
  | dram | code (g : Nat) | scratch (g off : Nat) | coreScratch (c : Nat) | signal (g off : Nat) | regs (off : Nat)
  | mailbox (off : Nat) | none
  deriving DecidableEq, Repr

/-- Where a local address falls (R16). -/
def targetOf (a : Nat) : Target :=
  if a < dramTop then .dram
  else if a < 0x1002000000 then .code ((a - dramTop) / 0x800000)
  else if 0x1010000000 ≤ a ∧ a < 0x1011000000 then .scratch ((a - 0x1010000000) / 0x400000) ((a - 0x1010000000) % 0x400000)
  else if 0x1020000000 ≤ a ∧ a < 0x1020400000 then .coreScratch ((a - 0x1020000000) / 0x20000)
  else if 0x1030000000 ≤ a ∧ a < 0x1030800000 then .signal ((a - 0x1030000000) / 0x200000) ((a - 0x1030000000) % 0x200000)
  else if 0x1040000000 ≤ a ∧ a < 0x1050000000 then .regs (a - regBase)
  else if 0x1050000000 ≤ a ∧ a < 0x1050100000 then .mailbox (a - mailboxBase)
  else .none

/-! ### Cells -/

/-- What a byte nothing has written reads as: an erased code store byte is 0xFF (R251); all else is 0 (R67, R249, R265). -/
def memDefault (a : Nat) : Byte := if dramTop ≤ a ∧ a < 0x1002000000 then 0xFF else 0

/-- The byte at a local address. -/
def cellGet (mem : List Host.Cell) (a : Nat) : Byte := Tbl.get (memDefault a) mem a

/-- A byte written at a local address. -/
def cellSet (mem : List Host.Cell) (a : Nat) (v : Byte) : List Host.Cell := Tbl.set (memDefault a) mem a v

/-- The canonical form of the cells. -/
def Memory.wf (mem : List Host.Cell) : Bool := Tbl.wf memDefault mem

/-- Bytes written from a local address upward. -/
def cellsSet (mem : List Host.Cell) (a : Nat) : List Byte → List Host.Cell
  | [] => mem
  | b :: bs => cellsSet (cellSet mem a b) (a + 1) bs

/-- `n` bytes from a local address upward. -/
def cellsGet (mem : List Host.Cell) (a n : Nat) : List Byte := (List.range n).map (fun i => cellGet mem (a + i))

/-- The cells in [a, a + n) back at what an unwritten byte reads as. -/
def cellsClear (mem : List Host.Cell) (a n : Nat) : List Host.Cell := mem.filter (fun e => e.1 < a || a + n ≤ e.1)

/-! ### Over the module -/

def Mod.bytes (m : Mod) (a n : Nat) : List Byte := cellsGet m.mem a n
def Mod.setBytes (m : Mod) (a : Nat) (bs : List Byte) : Mod := { m with mem := cellsSet m.mem a bs }
/-- A little-endian value of `n` bytes (R3). -/
def Mod.num (m : Mod) (a n : Nat) : Nat := ofLeBytes (m.bytes a n)
def Mod.setNum (m : Mod) (a n v : Nat) : Mod := m.setBytes a (leBytes n v)
/-- The tag bit of the granule at a local address, granules being of 16 bytes (R159). -/
def Mod.tag (m : Mod) (a : Nat) : Bool := Tbl.get false m.tags (a / 16)
def Mod.setTag (m : Mod) (a : Nat) (t : Bool) : Mod := { m with tags := Tbl.set false m.tags (a / 16) t }
/-- Whether a word with an uncorrectable error lies in [a, a + n) (R241, R249, R250). -/
def Mod.spoiledIn (m : Mod) (a n : Nat) : Bool := m.spoiled.any (fun e => e.1 * 8 < a + n && a < e.1 * 8 + 8)
/-- Bytes that hold an uncorrectable error together: a whole line of region scratch, which is poisoned (R239, R241), else a word of 8. -/
def spoilUnit (a : Nat) : Nat :=
  match targetOf a with
  | .scratch _ _ => 64
  | _ => 8

/-- An uncorrectable error at an address (R239, R241, R249, R250). -/
def Mod.spoil (m : Mod) (a : Nat) : Mod :=
  let u := spoilUnit a
  { m with spoiled := (upTo (u / 8)).foldl (fun t i => Tbl.set false t ((a - a % u) / 8 + i) true) m.spoiled }

/-- What lies whole in [a, a + n), words or scratch lines, holds good data again. -/
def Mod.unspoil (m : Mod) (a n : Nat) : Mod :=
  { m with spoiled := m.spoiled.filter (fun e =>
      let u := spoilUnit (e.1 * 8)
      let b := e.1 * 8 - e.1 * 8 % u
      b < a || a + n < b + u) }
/-- A range of memory zeroed with tags 0. -/
def Mod.zeroRange (m : Mod) (a n : Nat) : Mod :=
  { m with mem := cellsClear m.mem a n, tags := m.tags.filter (fun e => e.1 * 16 < a || a + n ≤ e.1 * 16) }.unspoil a n

end Sys2Proof.Machine
end

