-- ==== Sys2Proof/Machine/CacheBase.lean ====
section
/-!
DEFINITION. Sys2Proof/Machine/CacheBase.lean: frames of the DRAM, the slices of the system cache and the L1 copies
(R231 to R239, R255 to R263). A line is named by its number, local address div 64. An L1 cache never holds data that its
home slice or the code store does not hold (R232, R234), so only the presence of its lines and their epochs are kept.
-/
namespace Sys2Proof.Machine

/-! ### Frames -/

/-- A DRAM line as its frame decodes (R258, R259). -/
def Mod.frame (m : Mod) (ln : Nat) : SideLine :=
  ⟨ln, BitVec.ofNat 512 (m.num (64 * ln) 64),
   BitVec.ofNat 4 (b2n (m.tag (64 * ln)) + 2 * b2n (m.tag (64 * ln + 16)) + 4 * b2n (m.tag (64 * ln + 32)) + 8 * b2n (m.tag (64 * ln + 48))),
   Tbl.get false m.dramPoison ln⟩

/-- A frame written to DRAM. -/
def Mod.putFrame (m : Mod) (ln : Nat) (data : BitVec 512) (tags : BitVec 4) (poison : Bool) : Mod :=
  let m := m.setNum (64 * ln) 64 data.toNat
  let m := m.each (upTo 4) (fun m j => m.setTag (64 * ln + 16 * j) (bitAt tags.toNat j))
  { m with dramPoison := Tbl.set false m.dramPoison ln poison }

/-! ### The place of a line -/

/-- The home slice of a line (R235). -/
def sliceOf (ln : Nat) : Nat :=
  let a := ln * 64
  bitsOf a 6 4 ^^^ bitsOf a 10 4 ^^^ bitsOf a 14 4 ^^^ bitsOf a 18 4 ^^^ bitsOf a 22 4 ^^^ bitsOf a 26 4 ^^^ bitsOf a 30 4 ^^^ bitsOf a 34 2

/-- The set of a line (R235). -/
def setOf (ln : Nat) : Nat := ln % 2048

/-- Whether way `w` of the slices of region `g` may be allocated (R237): neither converted nor powered down. -/
def Mod.allocatable (m : Mod) (g w : Nat) : Bool :=
  decide (w < 16 - m.rd F.SC_RGN_SCRATCH_WAYS g) && !bitAt (m.rd F.SC_RGN_WAYPD_MASK g) w

/-! ### L1 copies -/

/-- A core's copies of a line removed. -/
def Mod.l1Drop (m : Mod) (c ln : Nat) : Mod :=
  let k := m.core c
  m.setCore c { k with l1d := k.l1d.filter (·.1 != ln), l1i := k.l1i.filter (·.1 != ln) }

/-- A core's data copy of a line removed. -/
def Mod.l1dDrop (m : Mod) (c ln : Nat) : Mod :=
  let k := m.core c
  m.setCore c { k with l1d := k.l1d.filter (·.1 != ln) }

/-- Every L1 copy of a line removed, but the data copy of core `keep` (R234). -/
def Mod.l1Invalidate (m : Mod) (ln : Nat) (keep : Option Nat := none) : Mod :=
  let m := m.each (Tbl.keys m.cores) (fun m c =>
    if keep = some c then
      let k := m.core c
      m.setCore c { k with l1i := k.l1i.filter (·.1 != ln) }
    else m.l1Drop c ln)
  match Tbl.look m.lines ln with
  | some l =>
    let kept := match keep with
      | some c => if bitAt l.present c then 2 ^ c else 0
      | none => 0
    { m with lines := Tbl.put m.lines ln { l with present := kept } }
  | none => m

/-- A line put first in an L1 set of four ways (R232): the least recently used way of the set goes. -/
def l1Touch (l : List (Nat × Nat)) (ln epoch : Nat) : List (Nat × Nat) :=
  let same := (l.filter (fun e => e.1 != ln && e.1 % 128 == ln % 128)).take 3
  let other := l.filter (fun e => e.1 % 128 != ln % 128)
  (ln, epoch) :: (same ++ other)

/-- A line of an L1 used: it is the most recent of its set and keeps its epoch (R232, R284). -/
def l1Used (l : List (Nat × Nat)) (ln : Nat) : List (Nat × Nat) := l1Touch l ln (((l.find? (·.1 == ln)).map Prod.snd).getD 0)

/-! ### Replacement -/

/-- The ways under node `n` of the tree at depth `k` (the root is node 1 at depth 0). -/
def nodeWays (n k : Nat) : List Nat := span (n * 2 ^ (4 - k) - 16) (2 ^ (4 - k))

/-- The walk of a set's tree (R237) from node `n` with `fuel` levels left. -/
def plruWalk (bits : Nat) (ok : Nat → Bool) : Nat → Nat → Nat
  | 0, n => n - 16
  | k + 1, n =>
    let right := bitAt bits (n - 1)
    let pick := if right then 2 * n + 1 else 2 * n
    let other := if right then 2 * n else 2 * n + 1
    let next := if (nodeWays pick (4 - k)).any ok then pick else other
    plruWalk bits ok k next

/-- The pointers on the path of a way set to point away from it. -/
def plruTouch (bits w : Nat) : Nat :=
  (upTo 4).foldl (fun b d =>
    let n := (16 + w) / 2 ^ (4 - d)
    let child := (16 + w) / 2 ^ (3 - d)
    withBits b (n - 1) 1 (1 - child % 2)) bits

/-- The key of a set in the table of trees. -/
def setKey (ln : Nat) : Nat := sliceOf ln * 2048 + setOf ln

/-- The lines of the set of `ln`. -/
def Mod.setLines (m : Mod) (ln : Nat) : List (Nat × Line) :=
  m.lines.filter (fun e => sliceOf e.1 == sliceOf ln && setOf e.1 == setOf ln)

/-- The way an allocation for `ln` takes (R237), with the line it displaces. -/
def Mod.victimOf (m : Mod) (ln : Nat) : Nat × Option (Nat × Line) :=
  let ls := m.setLines ln
  let g := sliceOf ln / 4
  let ok := fun w => m.allocatable g w
  match (upTo 16).find? (fun w => ok w && !(ls.any (fun e => e.2.way == w))) with
  | some w => (w, none)
  | none =>
    let w := plruWalk (Tbl.get 0 m.plru (setKey ln)) ok 4 1
    (w, ls.find? (fun e => e.2.way == w))

/-- A hit or allocation of a way updates the tree (R237). -/
def Mod.touchWay (m : Mod) (ln w : Nat) : Mod :=
  { m with plru := Tbl.set 0 m.plru (setKey ln) (plruTouch (Tbl.get 0 m.plru (setKey ln)) w) }

/-! ### Cleaning and removing lines -/

/-- A line written to DRAM if dirty; it stays valid and clean (R245 CLEAN). -/
def Mod.cleanLine (m : Mod) (ln : Nat) : Mod :=
  match Tbl.look m.lines ln with
  | some l =>
    if l.dirty then
      let m := m.putFrame ln l.data l.tags l.poison
      { m with lines := Tbl.put m.lines ln { l with dirty := false } }
    else m
  | none => m

/-- The side-buffer copy of a line removed (R238). -/
def Mod.sideDrop (m : Mod) (ln : Nat) : Mod :=
  { m with side := Tbl.set [] m.side (sliceOf ln) ((Tbl.get [] m.side (sliceOf ln)).filter (·.line != ln)) }

/-- A line removed from its slice, its side buffer and every L1, without write-back. -/
def Mod.dropLine (m : Mod) (ln : Nat) : Mod :=
  let m := (m.l1Invalidate ln).sideDrop ln
  { m with lines := Tbl.erase m.lines ln }

/-- The dirty victims sent from slice `s` are accepted by the memory controller, and the fills they held complete (R236). -/
def Mod.acceptVictims (m : Mod) (s : Nat) : Mod :=
  let m := m.each (Tbl.get [] m.victims s) (fun m v => m.putFrame v.1 v.2.data v.2.tags v.2.poison)
  let fills := Tbl.get [] m.held s
  let m := { m with victims := Tbl.set [] m.victims s [], held := Tbl.set [] m.held s [] }
  m.each fills (fun m f =>
    if (Tbl.look m.lines f.line).isSome then m
    else
      let (w, old) := m.victimOf f.line
      let m := match old with
        | some (o, l) => (m.iff l.dirty (fun m => m.putFrame o l.data l.tags l.poison)).dropLine o
        | none => m
      let m := m.touchWay f.line w
      { m with lines := Tbl.put m.lines f.line ⟨w, f.data, f.tags, false, f.poison, 0⟩ })

/-- A line allocated in its slice with given contents; a dirty victim is written back on the way (R236, R237). -/
def Mod.allocate (m : Mod) (ln : Nat) (data : BitVec 512) (tags : BitVec 4) (dirty poison : Bool) : Mod :=
  let (w, old) := m.victimOf ln
  let m := match old with
    | some (o, _) => (m.cleanLine o).dropLine o
    | none => m
  let m := m.touchWay ln w
  { m with lines := Tbl.put m.lines ln ⟨w, data, tags, dirty, poison, 0⟩ }

/-- A demand access brings a line into its slice: a hit, a side-buffer promotion (R238), or a read of its frame. -/
def Mod.bring (m : Mod) (ln : Nat) : Mod :=
  let m := m.acceptVictims (sliceOf ln)
  match Tbl.look m.lines ln with
  | some l => m.touchWay ln l.way
  | none =>
    match (Tbl.get [] m.side (sliceOf ln)).find? (·.line == ln) with
    | some f => (m.sideDrop ln).allocate ln f.data f.tags false f.poison
    | none =>
      let f := m.frame ln
      m.allocate ln f.data f.tags false f.poison

/-- Prefetch of a line into its side buffer (R238). -/
def Mod.prefetch (m : Mod) (ln : Nat) : Mod :=
  let buf := Tbl.get [] m.side (sliceOf ln)
  if ln * 64 ≥ dramTop || (Tbl.look m.lines ln).isSome || buf.any (·.line == ln) ||
     (Tbl.get [] m.held (sliceOf ln)).any (·.line == ln) || (Tbl.get [] m.victims (sliceOf ln)).any (·.1 == ln) then m
  else { m with side := Tbl.set [] m.side (sliceOf ln) ((if buf.length ≥ 16 then buf.drop 1 else buf) ++ [m.frame ln]) }

/-- The lines after one that a core's L1 miss did not find in its slice are read ahead (R238). -/
def Mod.prefetchAfter (m : Mod) (c ln : Nat) : Mod :=
  m.iff m.sweep.isNone (fun m => m.each (span (ln + 1) (m.rd F.SC_RGN_CTRL_PF_DEPTH (coreRegion c))) Mod.prefetch)

/-- A core's L1 miss on a DRAM line: the slice is read, and prefetches follow a slice miss (R238). -/
def Mod.missLine (m : Mod) (c ln : Nat) : Mod :=
  let absent := (Tbl.look m.lines ln).isNone && !((Tbl.get [] m.side (sliceOf ln)).any (·.line == ln))
  (m.bring ln).iff absent (fun m => m.prefetchAfter c ln)

/-- A core's L1 copy of a line filled with its epoch (R284); a DRAM line's presence bit is set (R234). -/
def Mod.l1Fill (m : Mod) (c ln epoch : Nat) (fetch : Bool) : Mod :=
  let k := m.core c
  let m := m.setCore c (if fetch then { k with l1i := l1Touch k.l1i ln epoch } else { k with l1d := l1Touch k.l1d ln epoch })
  match Tbl.look m.lines ln with
  | some l => { m with lines := Tbl.put m.lines ln { l with present := l.present ||| 2 ^ (c + if fetch then 32 else 0) } }
  | none => m

/-! ### DRAM accesses through the slices -/

/-- The tags of a line after its granules touched by [lo, lo + n) lose theirs, or after one is written (R160). -/
def tagsAfter (tags : BitVec 4) (lo n : Nat) (key : Option Bool) : BitVec 4 :=
  (upTo 4).foldl (fun t j =>
    if 16 * j < lo + n ∧ lo < 16 * j + 16 then BitVec.ofNat 4 (withBits t.toNat j 1 (b2n (key.getD false))) else t) tags

/-- The bytes [lo, lo + n) of a line's data replaced. -/
def dataAfter (d : BitVec 512) (lo : Nat) (bs : List Byte) : BitVec 512 :=
  BitVec.ofNat 512 (withBits d.toNat (8 * lo) (8 * bs.length) (ofLeBytes bs))

/-- A write of bytes within one DRAM line (R234, R236): whole lines allocate without a read and clear poison. -/
def Mod.writeLine (m : Mod) (a : Nat) (bs : List Byte) (key : Option Bool) (writer : Option Nat) : Mod :=
  let ln := a / 64
  let m := (m.acceptVictims (sliceOf ln)).l1Invalidate ln writer
  if bs.length = 64 ∧ a % 64 = 0 then
    let m := m.sideDrop ln
    let d := BitVec.ofNat 512 (ofLeBytes bs)
    match Tbl.look m.lines ln with
    | some l => { m.touchWay ln l.way with lines := Tbl.put m.lines ln { l with data := d, tags := tagsAfter 0 0 64 none, dirty := true, poison := false } }
    | none => m.allocate ln d 0 true false
  else
    let m := (m.sideDrop ln).bring ln
    match Tbl.look m.lines ln with
    | some l => { m with lines := Tbl.put m.lines ln { l with data := dataAfter l.data (a % 64) bs, tags := tagsAfter l.tags (a % 64) bs.length key, dirty := true } }
    | none => m

/-- The pieces of [a, a + n) within single lines, as (address, length). -/
def linePieces : Nat → Nat → Nat → List (Nat × Nat)
  | 0, _, _ => []
  | k + 1, a, n => if n = 0 then [] else
    let here := Nat.min n (64 - a % 64)
    (a, here) :: linePieces k (a + here) (n - here)

/-- A line as its slice or side buffer holds it, else as its frame reads, without allocation (R272, R344). -/
def Mod.lineNow (m : Mod) (ln : Nat) : SideLine :=
  match Tbl.look m.lines ln with
  | some l => ⟨ln, l.data, l.tags, l.poison⟩
  | none => match (Tbl.get [] m.victims (sliceOf ln)).find? (·.1 == ln) with
    | some v => ⟨ln, v.2.data, v.2.tags, v.2.poison⟩
    | none => m.frame ln

/-- The bytes of a line. -/
def SideLine.bytes (l : SideLine) : List Byte := leBytes 64 l.data.toNat

/-! ### Slices -/

/-- The lines slice `s` holds. -/
def Mod.sliceLines (m : Mod) (s : Nat) : List Nat := (Tbl.keys m.lines).filter (fun ln => sliceOf ln == s)

/-- A slice reset (R449): every line cleaned and removed, parity state cleared. -/
def Mod.sliceReset (m : Mod) (s : Nat) : Mod :=
  let m := m.acceptVictims s
  let m := m.each (m.sliceLines s) (fun m ln => (m.cleanLine ln).dropLine ln)
  let m := { m with side := Tbl.set [] m.side s [], plru := m.plru.filter (fun e => e.1 / 2048 != s) }
  m.setReg .SC_SL_ERR s 0

/-- Way `w` of the slices of region `g` cleaned and emptied (R242, R243). -/
def Mod.emptyWay (m : Mod) (g w : Nat) : Mod :=
  let ls := (m.lines.filter (fun e => sliceOf e.1 / 4 == g && e.2.way == w)).map Prod.fst
  let m := m.each (span (4 * g) 4) Mod.acceptVictims
  m.each ls (fun m ln => (m.cleanLine ln).dropLine ln)

/-- The L1 copies of a core dropped, with their presence bits (R449, R451). -/
def Mod.l1Clear (m : Mod) (c : Nat) : Mod :=
  let k := m.core c
  let m := m.setCore c { k with l1d := [], l1i := [] }
  { m with lines := m.lines.map (fun e => (e.1, { e.2 with present := withBits (withBits e.2.present c 1 0) (c + 32) 1 0 })) }

end Sys2Proof.Machine
end

