-- ==== Sys2Proof/Machine/FaultRec.lean ====
section
/-!
DEFINITION. Sys2Proof/Machine/FaultRec.lean: fault records (R445, R446) and the faults of cells and blocks, which take
no action of their own (R438 to R441).
-/
namespace Sys2Proof.Machine

/-- The fault controller a record belongs to (R438): a region's, or 4 for the device's. -/
def FaultRec.home (r : FaultRec) : Nat :=
  match r.unit with
  | 0 => r.index / 8
  | 1 => r.index / 256
  | 2 => r.index / 8
  | 3 => r.index / 4
  | 4 => r.index / 8
  | 6 => r.index / 2
  | 7 => r.index / 8
  | 8 => r.index / 2
  | 9 => r.index
  | 11 => Nat.min r.index 4
  | _ => 4

/-- Whether a record that arrives in the cycle of `x`, at its controller, stands before it (R440): a higher level, then a lower cause, then a
lower index. What a fault brings about, an escalation or a reset, is no fault received in its cycle. Faults of one instant of TB_NOW are taken
as those of one cycle (DESIGN CHOICE, log entry 87). -/
def FaultRec.before (r x : FaultRec) : Bool :=
  r.time == x.time && r.home == x.home && r.cause != 0x0B && r.cause != 0x10 && x.cause != 0x0B && x.cause != 0x10 &&
  (decide (x.level < r.level) || (r.level == x.level &&
    (decide (r.cause < x.cause) || (r.cause == x.cause && decide (r.index < x.index)))))

/-- An entry for a record put into a list whose entries hold records, or none: at its end, but before the first of those of its cycle that it
precedes. -/
def placeRec {α : Type} (recOf : α → Option FaultRec) (r : FaultRec) (e : α) (q : List α) : List α :=
  let k := (q.reverse.takeWhile (fun x => (recOf x).all (fun y => y.time == r.time))).length
  let cycle := q.drop (q.length - k)
  let goesFirst := fun (x : α) => (recOf x).any r.before
  q.take (q.length - k) ++ (cycle.takeWhile (fun x => !goesFirst x) ++ e :: cycle.dropWhile (fun x => !goesFirst x))

/-- A record put into a queue. -/
def insertRec (r : FaultRec) (q : List FaultRec) : List FaultRec := placeRec some r r q

/-- The fault record of a Goose log entry, if it is one. -/
def GooseEntry.faultRec? (e : GooseEntry) : Option FaultRec :=
  match e.what with
  | .fault r => some r
  | _ => none

/-- A fault in the Goose's log, in its place among those of its cycle. -/
def Mod.gooseFault (m : Mod) (r : FaultRec) : Mod :=
  let m := m.gooseLog (.fault r)
  { m with goose := { m.goose with log := placeRec GooseEntry.faultRec? r ⟨m.goose.keeper, .fault r⟩ m.goose.log.dropLast } }

/-- A fault record appended to the queue, copied to the Sheepdog, logged by the Goose from region level up and for every
reset, and noticed by EV255 (R445). With the spine down the Goose alone receives it. -/
def Mod.record (m : Mod) (r : FaultRec) : Mod :=
  if !m.phase.spineUp then m.gooseFault r
  else
    let full := m.fq.length ≥ 64
    let m := if full then (m.put F.FLT_Q_STATUS_OVERFLOW 0 true).count F.FLT_Q_LOST_COUNT else { m with fq := insertRec r m.fq }
    let m := { m with sdFaults := insertRec r m.sdFaults }
    let m := m.iff (decide (r.level ≥ 2) || r.cause == 0x10) (fun m => m.gooseFault r)
    m.iff (m.flag F.FLT_CTRL_NOTICE && !full) (fun m => m.raise 255)

/-- A record at this instant. -/
def Mod.faultRec (m : Mod) (level cause index unit action detail : Nat) (source : Nat := 0xFFFF) (master : Nat := 0xFF) : FaultRec :=
  ⟨m.now, detail, level, cause, index, unit, action, source, master, m.node, m.moveNow⟩

/-- The escalation window in nanoseconds (R441, R457). -/
def Mod.escWindow (m : Mod) : Nat := Nat.max 1 (m.rd F.FLT_ESC_WIN_MS) * 1000000

/-- The entries of a list of instants that still lie in the escalation window. -/
def Mod.inWindow (m : Mod) (t : Nat) : Bool := decide (m.mono < t + m.escWindow)

/-- A cell fault counted toward its region's escalation (R441); region 4, the spine, counts toward none (R494). -/
def Mod.countCell (m : Mod) (g : Nat) : Mod :=
  if g ≥ 4 then m
  else
    let l := (g, m.mono) :: m.escCell.filter (fun e => m.inWindow e.2)
    let n := (l.filter (fun e => e.1 == g)).length
    let m := { m with escCell := l }
    let lim := m.rd F.FLT_ESC_CELL_N
    m.iff (lim ≠ 0 && decide (n > lim)) (fun m => { m with escDue := m.escDue ++ [(some g, false, n)] })

/-- A block fault counted toward its region's escalation (R441). -/
def Mod.countBlock (m : Mod) (g : Nat) : Mod :=
  let l := (g, m.mono) :: m.escBlock.filter (fun e => m.inWindow e.2)
  let n := (l.filter (fun e => e.1 == g)).length
  let m := { m with escBlock := l }
  let lim := m.rd F.FLT_ESC_BLOCK_N
  m.iff (lim ≠ 0 && decide (n > lim)) (fun m => { m with escDue := m.escDue ++ [(some g, true, n)] })

/-- A region fault counted toward the device's escalation (R441). -/
def Mod.countRegion (m : Mod) : Mod :=
  let l := m.mono :: m.escRgn.filter m.inWindow
  let m := { m with escRgn := l }
  let lim := m.rd F.FLT_ESC_RGN_N
  m.iff (lim ≠ 0 && decide (l.length > lim)) (fun m => { m with escDue := m.escDue ++ [(none, false, l.length)] })

/-- A cell fault of region `g` (4 for the spine): recorded in standalone mode, counted in federated mode; absorbed in a
region under reset (R439, R440). -/
def Mod.cellFault (m : Mod) (g cause index unit detail : Nat) (master : Nat := 0xFF) : Mod :=
  if g < 4 && m.rgnDown g then m.record (m.faultRec 0 cause index unit 5 detail 0xFFFF master)
  else
    let m := if m.federated then m.iff (g < 4) (fun m => m.count F.FLT_SUM_CELL_COUNT g)
      else m.record (m.faultRec 0 cause index unit 0 detail 0xFFFF master)
    m.countCell g

/-- A block fault of region `g` (R439, R440). -/
def Mod.blockFault (m : Mod) (g cause index unit detail : Nat) (source : Nat := 0xFFFF) : Mod :=
  if m.rgnDown g then m.record (m.faultRec 1 cause index unit 5 detail source)
  else
    let m := if m.federated then m.count F.FLT_SUM_BLOCK_COUNT g
      else m.record (m.faultRec 1 cause index unit 0 detail source)
    m.countBlock g

/-- The region a register-space offset's instance belongs to; 4 for the spine. -/
def regHome (off : Nat) : Nat :=
  if 0x100000 ≤ off ∧ off < 0x120000 then (off - 0x100000) / 0x1000 / 8
  else if 0x301000 ≤ off ∧ off < 0x305000 then (off - 0x301000) / 0x1000
  else if 0x308000 ≤ off ∧ off < 0x309000 then (off - 0x308000) / 0x100 / 4
  else if 0x30C000 ≤ off ∧ off < 0x30C400 then (off - 0x30C000) / 0x100
  else if 0x601000 ≤ off ∧ off < 0x609000 then (off - 0x601000) / 0x40 / 128
  else if 0x800000 ≤ off ∧ off < 0xC00000 then off % 0x200000 / 0x10000 / 8
  else if 0xC00000 ≤ off ∧ off < 0xC80000 then (off - 0xC00000) / 0x10000 / 2
  else if 0xD00000 ≤ off ∧ off < 0xD40000 then (off - 0xD00000) / 0x10000
  else 4

/-- A write of a reserved encoding at a register-space offset (R7, R494). -/
def Mod.reservedWrite (m : Mod) (off master : Nat) : Mod := m.cellFault (regHome off) 0x02 (regHome off) 11 off master

/-- A fault record as bytes (R445). -/
def FaultRec.bytes (r : FaultRec) : List Byte :=
  leBytes 8 r.time ++ leBytes 8 r.detail ++ leBytes 1 r.level ++ leBytes 1 r.cause ++ leBytes 2 r.index ++ leBytes 1 r.unit ++
  leBytes 1 r.action ++ leBytes 2 r.source ++ leBytes 1 r.master ++ leBytes 1 0 ++ leBytes 2 r.node ++ leBytes 4 r.move

end Sys2Proof.Machine
end

