-- ==== Sys2Proof/Machine/Keys.lean ====
section
/-!
DEFINITION. Sys2Proof/Machine/Keys.lean: keys (R133 to R167): their fields, bounds, checks and derivations, and the
match of a sweep.
-/
namespace Sys2Proof.Machine

/-! ### Fields (R133) -/

def Key.field (k : Key) (lo w : Nat) : Nat := bitsOf k.bits.toNat lo w
def Key.withField (k : Key) (lo w v : Nat) : Key := { k with bits := BitVec.ofNat 128 (withBits k.bits.toNat lo w v) }
def Key.cursor (k : Key) : Nat := k.field 0 64
def Key.b (k : Key) : Nat := k.field 64 16
def Key.l (k : Key) : Nat := k.field 80 16
def Key.e (k : Key) : Nat := k.field 96 6
def Key.epoch (k : Key) : Nat := k.field 102 6
def Key.loc (k : Key) : Nat := k.field 108 2
def Key.otype (k : Key) : Nat := k.field 110 8
def Key.rights (k : Key) : Nat := k.field 118 10

/-! ### Rights (R134), as RIGHTS masks -/

def rLD : Nat := 0x001
def rST : Nat := 0x002
def rEX : Nat := 0x004
def rLK : Nat := 0x008
def rSK : Nat := 0x010
def rSKL : Nat := 0x020
def rSEAL : Nat := 0x040
def rUNSEAL : Nat := 0x080
def rSYS : Nat := 0x100
def rINV : Nat := 0x200

def Key.has (k : Key) (mask : Nat) : Bool := k.rights &&& mask == mask

/-! ### Key fault subcodes (R140) -/

def kfTAG : Nat := 1
def kfSEALED : Nat := 2
def kfRIGHTS : Nat := 3
def kfBOUNDS : Nat := 4
def kfUNREP : Nat := 5
def kfMONOTONE : Nat := 6
def kfLOCALITY : Nat := 7
def kfOTYPE : Nat := 8
def kfALIGN : Nat := 9
def kfTAGSTORE : Nat := 10
def kfSYS : Nat := 11

/-! ### Bounds (R137) -/

/-- The OTYPEs R135 reserves. -/
def otypeReserved (o : Nat) : Bool := (decide (0xF0 ≤ o) && decide (o ≤ 0xFD)) || o == 0xFF

/-- Whether a key's fields decode (the first line of R137 without the tag). -/
def Key.fieldsOk (k : Key) : Bool := decide (k.e ≤ 48) && k.loc != 3 && !otypeReserved k.otype

/-- Whether a key counts as tagged (R137). -/
def Key.live (k : Key) : Bool := k.tag && k.fieldsOk

def Key.win (k : Key) : Nat := 2 ^ (k.e + 16)

def Key.base (k : Key) : Int :=
  let w := k.win
  let c := k.cursor
  let base : Int := ((c - c % w + k.b * 2 ^ k.e : Nat) : Int)
  if base > c then base - w else base

def Key.top (k : Key) : Int := k.base + ((k.l * 2 ^ k.e : Nat) : Int)
/-- The clipped bounds [lo, hi). -/
def Key.lo (k : Key) : Nat := k.base.toNat
def Key.hi (k : Key) : Nat := Nat.min k.top.toNat (2 ^ 64)

/-- The key with its cursor moved to c' (R138). -/
def Key.moveTo (k : Key) (c' : Int) : Key :=
  let keep := k.live && decide (0 ≤ c') && decide (c' < ((2 ^ 64 : Nat) : Int)) && decide (k.base ≤ c') && decide (c' < k.base + (k.win : Int))
  { (k.withField 0 64 (wrapTo 64 c')) with tag := keep }

def Key.advance (k : Key) (d : Int) : Key := k.moveTo ((k.cursor : Int) + d)

/-! ### Access (R139) -/

/-- The rank of a locality (R136). -/
def locRank (l : Nat) : Nat := l

/-- The node field of an effective address. -/
def eaNode (ea : Nat) : Nat := bitsOf ea 52 12

/-- The check of R139 for `s` bytes at an offset: the effective address, or the first failing subcode. A size of 0
skips the bounds (R167). -/
def Key.check (k : Key) (node : Nat) (off : Int) (s rights : Nat) : Except Nat Nat :=
  let ea := (k.cursor : Int) + off
  let a := wrapTo 64 ea
  if !k.live then .error kfTAG
  else if k.otype ≠ 0 then .error kfSEALED
  else if !k.has rights then .error kfRIGHTS
  else if k.loc ≠ 0 && eaNode a ≠ 0xFFF && eaNode a ≠ node then .error kfLOCALITY
  else if s ≠ 0 && !(decide ((k.lo : Int) ≤ ea) && decide (ea + s ≤ (k.hi : Int))) then .error kfBOUNDS
  else .ok a

/-! ### Derivations (R142 to R148) -/

/-- The loop of R142: the smallest exponent at which the range fits, with its rounded ends. -/
def kboundFit (b0 t0 : Nat) : Nat → Nat → Nat × Nat × Nat
  | 0, e => (e, b0, t0)
  | fuel + 1, e =>
    let b := b0 - b0 % 2 ^ e
    let t := t0 + (2 ^ e - t0 % 2 ^ e) % 2 ^ e
    if (t - b) / 2 ^ e ≤ 0xFFFF then (e, b, t) else kboundFit b0 t0 fuel (e + 1)

/-- KBOUND (`exact`) and KBOUNDR (R142). -/
def Key.bound (k : Key) (len : Nat) (exact_ : Bool) : Except Nat Key :=
  if !k.live then .error kfTAG
  else if k.otype ≠ 0 then .error kfSEALED
  else
    let b0 := k.cursor
    let t0 := b0 + len
    if b0 < k.lo ∨ t0 > k.hi then .error kfMONOTONE
    else
      let (e, b, t) := kboundFit b0 t0 64 0
      if e > 48 then .error kfUNREP
      else if exact_ && (b ≠ b0 || t ≠ t0) then .error kfUNREP
      else if b < k.lo ∨ t > k.hi then .error kfMONOTONE
      else .ok { ((k.withField 96 6 e).withField 64 16 (b / 2 ^ e)).withField 80 16 ((t - b) / 2 ^ e) with tag := true }

/-- KRIGHTS (R143). -/
def Key.narrowRights (k : Key) (mask : Nat) : Except Nat Key :=
  if !k.live then .error kfTAG
  else if k.otype ≠ 0 then .error kfSEALED
  else .ok (k.withField 118 10 (k.rights &&& mask))

/-- KLOC (R143). -/
def Key.narrowLoc (k : Key) (l : Nat) : Except Nat Key :=
  if !k.live then .error kfTAG
  else if k.otype ≠ 0 then .error kfSEALED
  else if l = 3 ∨ locRank l < locRank k.loc then .error kfMONOTONE
  else .ok (k.withField 108 2 l)

/-- The requirements on a seal key (R144): tagged, unsealed, with a right, its cursor in bounds for one byte. -/
def Key.sealKey (kt : Key) (right : Nat) : Except Nat Unit :=
  if !kt.live then .error kfTAG
  else if kt.otype ≠ 0 then .error kfSEALED
  else if !kt.has right then .error kfRIGHTS
  else if kt.cursor < kt.lo ∨ kt.cursor + 1 > kt.hi then .error kfBOUNDS
  else .ok ()

/-- KSEAL (R143, R144). -/
def Key.seal (ks kt : Key) : Except Nat Key :=
  if !ks.live then .error kfTAG
  else if ks.otype ≠ 0 then .error kfSEALED
  else match kt.sealKey rSEAL with
    | .error e => .error e
    | .ok () =>
      let t := kt.cursor
      if !((decide (1 ≤ t) && decide (t ≤ 0xEF)) || t == 0xFE) then .error kfOTYPE
      else if t = 0xFE ∧ !ks.has rEX then .error kfRIGHTS
      else
        let k := ks.withField 110 8 t
        .ok (if t = 0xFE then k.withField 118 10 (k.rights ||| rINV) else k)

/-- KUNSEAL (R143, R144). -/
def Key.unseal (ks kt : Key) : Except Nat Key :=
  if !ks.live then .error kfTAG
  else if ks.otype = 0 ∨ ks.otype > 0xEF then .error kfOTYPE
  else match kt.sealKey rUNSEAL with
    | .error e => .error e
    | .ok () =>
      if kt.cursor ≠ ks.otype then .error kfOTYPE
      else .ok ((ks.withField 110 8 0).withField 108 2 (Nat.max ks.loc kt.loc))

/-- KREEPOCH without its SYS check (R143). -/
def Key.reepoch (k : Key) (e : Nat) : Except Nat Key :=
  if !k.live then .error kfTAG else .ok (k.withField 102 6 e)

/-- KADD (R143). -/
def Key.add (k : Key) (d : Nat) : Except Nat Key :=
  if k.live && k.otype ≠ 0 then .error kfSEALED else .ok (k.advance (signedOf 64 d))

/-- The new ip of JK and JKL (R145). -/
def Key.jump (k : Key) : Except Nat Key :=
  if !k.live then .error kfTAG
  else if k.otype = 0 then (if k.has rEX then .ok k else .error kfRIGHTS)
  else if k.otype = 0xFE then
    (if k.has rINV then .ok ((k.withField 110 8 0).withField 118 10 (k.rights &&& 0x1FF)) else .error kfRIGHTS)
  else .error kfSEALED

/-- The link key of JKL (R145): the ip advanced by 4, sealed as an entry key. -/
def Key.link (ip : Key) : Key :=
  let k := ip.advance 4
  (k.withField 110 8 0xFE).withField 118 10 (k.rights ||| rINV)

/-- KGET (R146). -/
def Key.get (k : Key) (f : Nat) : Nat :=
  let ones := 2 ^ 64 - 1
  match f with
  | 0 => k.cursor
  | 1 => if k.fieldsOk then k.lo else 0
  | 2 => if k.fieldsOk then Nat.min (k.hi - k.lo) ones else 0
  | 3 => if k.fieldsOk then Nat.min k.hi ones else 0
  | 4 => if k.fieldsOk then wrapTo 64 ((k.cursor : Int) - k.base) else 0
  | 5 => k.rights
  | 6 => k.otype
  | 7 => k.loc
  | 8 => k.epoch
  | 9 => k.e
  | 10 => b2n k.tag
  | _ => k.field 64 64

/-- KTEST (R147). -/
def Key.test (ks kt : Key) : Bool :=
  ks.live && kt.live && decide (kt.lo ≤ ks.lo) && decide (ks.hi ≤ kt.hi) && (ks.rights &&& kt.rights == ks.rights) &&
  decide (locRank kt.loc ≤ locRank ks.loc) && ks.otype == kt.otype && (ks.epoch == kt.epoch || kt.epoch == 0)

/-! ### Root keys (R149, R395) -/

/-- A root key with the given rights and cursor. -/
def rootKey (rights cursor : Nat) : Key :=
  ⟨BitVec.ofNat 128 (cursor + 0xFFFF * 2 ^ 80 + 48 * 2 ^ 96 + rights * 2 ^ 118), true⟩

/-- The reset vector of core `c` (R395). -/
def resetVector (c : Nat) : Nat := 0xFFF0001000000000 + (c / 8) * 0x800000 + (c % 8) * 0x10

/-! ### Keys as bytes -/

def Key.bytes (k : Key) : List Byte := leBytes 16 k.bits.toNat
def Key.ofBytes (bs : List Byte) (tag : Bool) : Key := ⟨BitVec.ofNat 128 (ofLeBytes bs), tag⟩

/-! ### Sweeps (R162, R163) -/

/-- Whether the bounds of a key meet [lo, hi) of a node. -/
def Key.meets (k : Key) (node lo hi : Nat) : Bool :=
  decide (Nat.max k.lo (node * 2 ^ 52 + lo) < Nat.min k.hi (node * 2 ^ 52 + hi))

/-- Whether a sweep matches a key (R162); `own` is this module's ID. -/
def Sweep.matches (w : Sweep) (own : Nat) (k : Key) : Bool :=
  k.live && k.epoch != 0 && k.epoch != w.keep &&
  (k.meets w.node w.lo w.hi || (w.node == own && k.meets 0xFFF w.lo w.hi))

/-- A key as it is written or sent while a sweep is active (R163). -/
def Mod.filterKey (m : Mod) (k : Key) : Key :=
  match m.sweep with
  | some w => if w.matches m.node k then { k with tag := false } else k
  | none => k

/-- A key as it leaves the module (R157), `attested` being the state of its link. -/
def Mod.keyLeaves (m : Mod) (attested : Bool) (k : Key) : Bool :=
  (m.filterKey k).live && k.loc == 0 && decide (k.hi ≤ 0xFFF0000000000000) && attested

/-- A key as it arrives from the mesh (R158, R163). -/
def Mod.keyArrives (m : Mod) (attested : Bool) (k : Key) : Key :=
  let k := { k with tag := k.tag && attested && k.loc == 0 && k.fieldsOk }
  m.filterKey k

end Sys2Proof.Machine
end

