-- ==== Sys2Proof/Machine/RegFile.lean ====
section
/-!
DEFINITION. Sys2Proof/Machine/RegFile.lean: the decoding of register-space offsets (R19, R20) and the effect of a write on
the fields of a register, reserved encodings kept out (R6, R7).
-/
namespace Sys2Proof.Machine

/-- The instance an offset falls in by a register's dimensions, outermost first, and the byte within the register. -/
def instAt : List (Nat × Nat) → Nat → Nat → Option (Nat × Nat)
  | [], off, i => some (i, off)
  | (stride, count) :: rest, off, i =>
    if off / stride < count then instAt rest (off % stride) (i * count + off / stride) else none

/-- The register at an offset: its name, its instance, the byte within it. -/
def regAt (off : Nat) : Option (Reg × Nat × Nat) :=
  allRegs.findSome? (fun r =>
    let p := r.place
    if off < p.off then none
    else match instAt p.dims (off - p.off) 0 with
      | some (i, b) => if b < p.bytes then some (r, i, b) else none
      | none => none)

/-- The offset of an instance of a register within its dimensions: `instAt` read the other way. -/
def dimsOff : List (Nat × Nat) → Nat → Nat
  | [], _ => 0
  | (stride, _) :: rest, i =>
    let inner := rest.foldl (fun a d => a * d.2) 1
    stride * (i / inner) + dimsOff rest (i % inner)

/-- The offset of instance `i` of a register. -/
def Reg.offset (r : Reg) (i : Nat) : Nat := r.place.off + dimsOff r.place.dims i

/-- The registers by their number. -/
def regNo (k : Nat) : Reg := allRegs.getD k .PBLK_ID

/-- Encodings reserved in some instances of a field alone: MODE 3 on a lane group other than 7 (R324), MODE 10 on an odd
port (R27). -/
def resvHere (r : Reg) (i lo v : Nat) : Bool :=
  (r == .MESH_LG_CTRL && lo == 0 && v == 3 && i != 7) || (r == .PORT_MODE && lo == 0 && v == 10 && i % 2 == 1)

/-- Whether a value is a reserved encoding of a field. -/
def Field.reserved (f : Field) (r : Reg) (i v : Nat) : Bool :=
  f.resv.any (fun e => decide (e.1 ≤ v) && decide (v ≤ e.2)) || resvHere r i f.lo v

/-- The mask of the fields of some types. -/
def Reg.maskOf (r : Reg) (t : FTy → Bool) : Nat :=
  r.fields.foldl (fun a f => if t f.ty then a ||| ((2 ^ f.width - 1) <<< f.lo) else a) 0

/-- The fields of some types take their bits of `v` under `mask`; a field offered a reserved encoding keeps its value. The
new value, and whether any field did. -/
def Reg.take (r : Reg) (i : Nat) (t : FTy → Bool) (old v mask : Nat) : Nat × Bool :=
  let mix := (old &&& ((2 ^ 64 - 1) ^^^ mask)) ||| (v &&& mask)
  r.fields.foldl (fun a f =>
    let here := ((2 ^ f.width - 1) <<< f.lo) &&& mask != 0
    let x := bitsOf mix f.lo f.width
    if t f.ty && here then
      if f.reserved r i x then (a.1, true) else (withBits a.1 f.lo f.width x, a.2)
    else a) (old, false)

/-- The mask of `n` bytes from byte `b` of a register, and a value moved there. -/
def byteMask (b n : Nat) : Nat := (2 ^ (8 * n) - 1) <<< (8 * b)

end Sys2Proof.Machine
end

