-- ==== Sys2Proof/Machine/Gates.lean ====
section
/-!
DEFINITION. Sys2Proof/Machine/Gates.lean: the gates (R275 to R294, R491, R492): the tests of an access in their order,
violation reports, the entries' pending copies, applies, locks and epochs.
-/
namespace Sys2Proof.Machine

/-- What an access does (R281, R289). -/
inductive AccKind where
  | load | store | fetch | atomic | keyStore
  /-- range engine lines: WARM, and INVAL or ZERO -/
  | rangeRead | rangeWrite
  deriving DecidableEq, Repr

/-- An access on its way to a target (R22, R159, R276). -/
structure Acc where
  master : Nat
  /-- a core's ip held SYS -/
  sys : Bool
  epoch : Nat
  /-- the source node, for master 56 -/
  node : Nat
  addr : Nat
  size : Nat
  kind : AccKind
  deriving DecidableEq, Repr

/-- The access code of a violation record (R289). -/
def AccKind.code : AccKind → Nat
  | .load => 0
  | .store => 1
  | .fetch => 2
  | .atomic => 3
  | .keyStore => 4
  | .rangeRead => 5
  | .rangeWrite => 5

/-- The rights an access needs (R281), as a mask over RD 1, WR 2, FETCH 4, ATOM 8. -/
def AccKind.needs : AccKind → Nat
  | .load => 1
  | .store => 2
  | .fetch => 4
  | .atomic => 11
  | .keyStore => 2
  | .rangeRead => 1
  | .rangeWrite => 2

/-- Whether an access may change what it reaches. -/
def AccKind.writes : AccKind → Bool
  | .store => true
  | .atomic => true
  | .keyStore => true
  | .rangeWrite => true
  | _ => false

/-! ### Gates and their entries -/

/-- The gate in front of a target (R275); 15 for an address outside every target (R492). -/
def gateOf (t : Target) : Nat :=
  match t with
  | .dram => 0
  | .code g => 1 + g
  | .scratch g _ => 5 + g
  | .signal g _ => 9 + g
  | .regs _ => 13
  | .mailbox _ => 14
  | .coreScratch c => 16 + c
  | .none => 15

/-- The region of a gate (R289): 4 for the spine. -/
def gateRegion (n : Nat) : Nat :=
  if 1 ≤ n ∧ n ≤ 12 then (n - 1) % 4 else if 16 ≤ n ∧ n < 48 then (n - 16) / 8 else 4

/-- The number of an entry among all entries. -/
def entIx (gate e : Nat) : Nat := gate * 256 + e

/-- The enabled entries of a gate: an entry not listed in the register file is at reset, disabled. -/
def Mod.gateEnabled (m : Mod) (gate : Nat) : List Nat :=
  m.regs.filterMap (fun r =>
    let i := r.1 / 512
    if r.1 % 512 = Reg.GATE_ENT_CTRL.ctorIdx ∧ i / 256 = gate ∧ r.2.getLsbD 0 then some (i % 256) else none)

def Mod.entBase (m : Mod) (gate e : Nat) : Nat := 16 * m.rd F.GATE_ENT_BASE_BASE (entIx gate e)
def Mod.entTop (m : Mod) (gate e : Nat) : Nat := 16 * m.rd F.GATE_ENT_TOP_TOP (entIx gate e)

/-- The enabled entry that contains a byte (R278, R285). -/
def Mod.entryAt (m : Mod) (gate a : Nat) : Option Nat :=
  (m.gateEnabled gate).find? (fun e => decide (m.entBase gate e ≤ a) && decide (a < m.entTop gate e))

/-- The rights an entry grants, as the mask of `AccKind.needs`. -/
def Mod.entRights (m : Mod) (gate e : Nat) : Nat :=
  let i := entIx gate e
  m.rd F.GATE_ENT_CTRL_RD i + 2 * m.rd F.GATE_ENT_CTRL_WR i + 4 * m.rd F.GATE_ENT_CTRL_FETCH i + 8 * m.rd F.GATE_ENT_CTRL_ATOM i

/-- The rights of the default map at a gate (R279). -/
def defaultRights (gate : Nat) : Nat :=
  if gate = 0 then 15
  else if gate ≤ 4 then 5
  else if gate ≤ 8 then 11
  else if 16 ≤ gate then 15
  else 3

/-- Whether the debug authorisation grants an access: scope 1 loads only, scope 2 stores as well (R414). -/
def Mod.dbgGrants (m : Mod) (k : AccKind) : Bool :=
  match m.rd F.ROOK_DBG_SCOPE with
  | 1 => k == .load
  | 2 => true
  | _ => false

/-- Whether an access is privileged at a gate (R279): a core with SYS in ip, the Sheepdog, the Goose at gates 13 and
14, debug as the Rook's scope grants it (R414). -/
def Mod.privAt (m : Mod) (q : Acc) (gate : Nat) : Bool :=
  if q.master < 32 then q.sys
  else if q.master = 32 then true
  else if q.master = 33 then gate == 13 || gate == 14
  else if q.master = 55 then m.dbgGrants q.kind
  else false

/-- The test of one byte (R277 from kind 0x0A on, R281): the kind of the first test that fails with the entry. -/
def Mod.byteTest (m : Mod) (q : Acc) (gate a : Nat) : Option (Nat × Nat) :=
  match m.entryAt gate a with
  | some e =>
    let i := entIx gate e
    if !bitAt (m.rd F.GATE_ENT_MASTERS_MASTERS i) q.master then
      some (if q.master = 55 && !m.dbgGrants q.kind then 0x0A else 0x0B, e)
    else if q.master = 56 && m.flag F.GATE_ENT_CTRL_NODE_EN i && m.rd F.GATE_ENT_CTRL_NODE i ≠ q.node then some (0x0C, e)
    else if q.kind.needs &&& m.entRights gate e ≠ q.kind.needs then some (0x0D, e)
    else if m.flag F.GATE_ENT_CTRL_EPOCH_EN i && q.epoch ≠ 0 && q.epoch ≠ m.rd F.GATE_ENT_EPOCH_EPOCH i then some (0x0E, e)
    else none
  | none =>
    if !(m.flag F.GATE_G_CTRL_PRIV_DEFAULT gate && m.privAt q gate) then some (0x0A, 0xFFFF)
    else if q.kind.needs &&& defaultRights gate ≠ q.kind.needs then some (0x0D, 0xFFFF)
    else none

/-! ### The tests before the entries -/

/-- Register-space offsets that R20 leaves unmapped. -/
def regUnmapped (off : Nat) : Bool := (decide (0x700000 ≤ off) && decide (off < 0x800000)) || decide (0x1400000 ≤ off)

/-- Whether [a, a + n) meets [lo, hi). -/
def meetsRange (a n lo hi : Nat) : Bool := decide (a < hi) && decide (lo < a + n)

/-- Whether an access lies in a mapped part of its target (R16, R17, R20, R66, R241, R451, R460). -/
def Mod.mapped (m : Mod) (t : Target) (size : Nat) : Bool :=
  match t with
  | .dram => true
  | .code g => !m.rgnDown g && m.domOn (40 + g)
  | .scratch g off => !m.rgnDown g && decide (off + size ≤ m.rd F.SC_RGN_STATUS_WAYS_EFF g * 0x80000)
  | .coreScratch c => !m.rgnDown (c / 8) && m.domOn c
  | .signal g off => !m.rgnDown g && m.domOn (40 + g) && !meetsRange off size 0x3C000 0x40000
  | .regs off => !regUnmapped off
  | .mailbox _ => true
  | .none => false

/-- The tests 0x01 to 0x09 of R277. -/
def Mod.targetTest (m : Mod) (q : Acc) (t : Target) : Option Nat :=
  if !m.mapped t q.size then some 0x01
  else match t with
    | .dram => if m.flag F.MEM_STATUS_READY then none else some 0x03
    | .code g =>
      if q.kind.writes then some 0x05
      else match Tbl.get none m.csRun g with
        | some (_, row, _) =>
          if (q.addr - codeBase g) / 0x10000 ≤ row / 2048 ∧ row / 2048 ≤ (q.addr + q.size - 1 - codeBase g) / 0x10000 then some 0x06 else none
        | none => none
    | .scratch _ _ => none
    | .coreScratch c => if meetsRange (q.addr - coreScratch c) q.size 0x1E000 0x20000 then some 0x04 else none
    | .signal g off =>
      if q.kind = .atomic then some 0x07
      else if q.kind.writes && meetsRange off q.size (0x1C0000 + m.rd F.SPL_RGN_CAL_BANK g * 0x20000) (0x1C0000 + m.rd F.SPL_RGN_CAL_BANK g * 0x20000 + 0x20000) then some 0x08
      else if q.kind.writes && q.master ≠ 57 + g && (meetsRange off q.size 0 0x20000 || meetsRange off q.size 0x22000 0x24000) then some 0x09
      else none
    | .regs _ =>
      if !((q.size = 4 || q.size = 8) && q.addr % q.size = 0) then some 0x02
      else if q.kind = .atomic then some 0x07
      else none
    | .mailbox _ => if q.kind = .atomic then some 0x07 else none
    | .none => some 0x01

/-- Whether the fixed rule admits an access without entries (R280). -/
def fixedAdmit (q : Acc) (t : Target) : Bool :=
  match t with
  | .signal g _ => q.master == 57 + g
  | _ => false

/-- A gate's answer: none if it admits the access, else the kind and entry of the first refused byte (R277, R278). -/
def Mod.gateTest (m : Mod) (q : Acc) : Option (Nat × Nat) :=
  let t := targetOf q.addr
  match m.targetTest q t with
  | some k => some (k, 0xFFFF)
  | none =>
    if fixedAdmit q t then none
    else (List.range q.size).findSome? (fun i => m.byteTest q (gateOf t) (q.addr + i))

/-! ### Violation reports (R289, R492) -/

/-- A violation report appended to the queue, counted and raised. -/
def Mod.report (m : Mod) (v : VioRec) : Mod :=
  let full := m.vq.length ≥ 64
  let m := if full then (m.put F.GATE_VQ_STATUS_OVERFLOW 0 true).count F.GATE_VQ_LOST_COUNT else { m with vq := m.vq ++ [v] }
  let m := m.iff (m.rd F.CFG_MOVE_PROB_MOVE ≠ 0) (fun m => m.count F.CFG_PROB_VIOL_COUNT)
  if v.gate = 15 then (m.count F.GATE_UNMAPPED_COUNT_COUNT).raise 215
  else
    let m := m.count F.GATE_G_COUNT_COUNT v.gate
    m.iff (m.flag F.GATE_G_CTRL_EV_EN v.gate) (fun m => m.raise (if v.gate < 15 then 200 + v.gate else 215))

/-- The report of a refused access; a store to the active calibration bank sets ACTIVE_WR of its region (R78). -/
def Mod.violate (m : Mod) (q : Acc) (kind entry : Nat) : Mod :=
  let gate := gateOf (targetOf q.addr)
  let m := m.iff (kind == 0x08) (fun m => m.put F.SPL_RGN_STATUS_ACTIVE_WR (gateRegion gate) true)
  m.report ⟨(if q.master = 56 then q.node else m.node) * 2 ^ 52 + q.addr, m.now, kind, q.master, gate,
    q.kind.code + (if m.privAt q gate then 128 else 0), entry, q.size, q.epoch, gateRegion gate⟩

/-- An access checked at its gate: refused accesses are reported. -/
def Mod.passGate (m : Mod) (q : Acc) : Mod × Option Nat :=
  match m.gateTest q with
  | none => (m, none)
  | some (k, e) => (m.violate q k e, some k)

/-- An access of the Sheepdog's own, master 32, at its gate (R276). -/
def Mod.sdPass (m : Mod) (a n : Nat) (k : AccKind) : Mod × Option Nat := m.passGate ⟨32, false, 0, 0, a, n, k⟩

/-- The Sheepdog's accesses to a register, in whole. -/
def sdReg (r : Reg) (i : Nat) (k : AccKind) : Nat × Nat × AccKind := (regBase + r.offset i, r.place.bytes, k)

/-- Bytes that the Sheepdog writes to mailbox memory, a line at a time: a line that gate 14 refuses is reported and not written (R276). -/
def Mod.sdWrite (m : Mod) (a : Nat) (bs : List Byte) : Mod :=
  m.each (linePieces ((a % 64 + bs.length + 63) / 64) a bs.length) (fun m p =>
    match m.sdPass p.1 p.2 .store with
    | (m, none) => m.setBytes p.1 ((bs.drop (p.1 - a)).take p.2)
    | (m, some _) => m)

/-- A register write of the Sheepdog's: what it does, if gate 13 admits it (R276). -/
def Mod.sdRegWrite (m : Mod) (r : Reg) (i : Nat) (f : Mod → Mod) : Mod :=
  match m.sdPass (regBase + r.offset i) r.place.bytes .store with
  | (m, none) => f m
  | (m, some _) => m

/-! ### Tags kept (R152, R282) -/

/-- Whether the gate keeps the tag of a stored key of a locality at an address. -/
def Mod.keepsTag (m : Mod) (a loc : Nat) : Bool :=
  let gate := gateOf (targetOf a)
  match m.entryAt gate a with
  | none => true
  | some e =>
    let i := entIx gate e
    let keep := m.rd F.GATE_ENT_CTRL_KEEPLOC i
    let byKeep := match keep with
      | 0 => true
      | 1 => decide (loc ≤ 1)
      | 2 => loc == 0
      | _ => false
    let remote := bitAt (m.rd F.GATE_ENT_MASTERS_MASTERS i) 56 && m.flag F.GATE_ENT_CTRL_RD i
    byKeep && (!remote || loc == 0)

/-! ### Entry writes (R283 to R287) -/

/-- The pending copy of an entry: the applied values where nothing else was written. -/
def Mod.entPend (m : Mod) (gate e : Nat) : PendEnt :=
  let i := entIx gate e
  (Tbl.get none m.gatePend i).getD ⟨m.reg .GATE_ENT_BASE i, m.reg .GATE_ENT_TOP i, m.reg .GATE_ENT_MASTERS i⟩

/-- Whether an access is privileged at gate 13, for the report of an entry write (R289). -/
def Mod.privWriter (m : Mod) (master : Nat) (sys : Bool) : Bool :=
  m.privAt ⟨master, sys, 0, 0, 0, 0, .store⟩ 13

/-- The report of a refused entry write: kind 0x0F or 0x10, access code 6. -/
def Mod.entReport (m : Mod) (kind gate e size : Nat) (w : Writer) (addr : Nat) : Mod :=
  m.report ⟨(if w.master = 56 then w.node.toNat else m.node) * 2 ^ 52 + addr, m.now, kind, w.master.toNat, gate,
    6 + (if m.privWriter w.master.toNat w.sys then 128 else 0), e, size, w.epoch.toNat, gateRegion gate⟩

/-- The address of a register of an entry (R291). -/
def entAddr (gate e off : Nat) : Nat := regBase + 0x200000 + 0x10000 + 0x4000 * gate + 0x100 + 0x20 * e + off

/-- A write to a locked entry is ignored and reported (R286). -/
def Mod.lockedWrite (m : Mod) (gate e off size : Nat) (w : Writer) : Mod :=
  let m := (m.put F.GATE_G_STATUS_LOCKED_WR gate true).wr F.GATE_G_STATUS_LAST_ENTRY gate e
  m.entReport 0x10 gate e size w (entAddr gate e off)

/-- The offset of an entry register. -/
def entRegOff : EntryReg → Nat
  | .base => 0
  | .top => 8
  | .masters => 16

/-- A write to BASE, TOP or MASTERS changes the pending copy (R283). `part` is the first byte of the register the access wrote and how many. -/
def Mod.entWrite (m : Mod) (w : Writer) (gate e : Nat) (which : EntryReg) (v : Nat) (part : Nat × Nat := (0, 8)) : Mod :=
  let i := entIx gate e
  if e ≥ gateEntries gate then m
  else if m.flag F.GATE_ENT_CTRL_LOCK i then m.lockedWrite gate e (entRegOff which + part.1) part.2 w
  else
    let p := m.entPend gate e
    let p := match which with
      | .base => { p with base := bitsOf v 4 48 * 16 }
      | .top => { p with top := bitsOf v 4 48 * 16 }
      | .masters => { p with masters := bitsOf v 0 61 }
    { m with gatePend := Tbl.set none m.gatePend i (some p) }

/-- Every L1 line of every core dropped (R284). -/
def Mod.l1ClearAll (m : Mod) : Mod := m.each (upTo 32) Mod.l1Clear

/-- Whether applying [base, top) to entry `e` would overlap another enabled entry of the gate (R285). -/
def Mod.wouldOverlap (m : Mod) (gate e base top : Nat) : Bool :=
  decide (base < top) && (m.gateEnabled gate).any (fun e' =>
    e' != e && decide (Nat.max base (m.entBase gate e') < Nat.min top (m.entTop gate e')))

/-- A write to CTRL applies the entry (R283, R285, R286); CLASS 3 is reserved: the class stays and the write is reported (R7). -/
def Mod.entApply (m : Mod) (w : Writer) (gate e ctrl : Nat) : Mod :=
  let i := entIx gate e
  if e ≥ gateEntries gate then m
  else if m.flag F.GATE_ENT_CTRL_LOCK i then m.lockedWrite gate e 24 4 w
  else
    let m := m.iff (bitsOf ctrl 8 2 == 3) (fun m => m.reservedWrite (entAddr gate e 24 - regBase) w.master.toNat)
    let p := m.entPend gate e
    let en := bitAt ctrl 0
    if en && m.wouldOverlap gate e p.base p.top then
      let m := (m.put F.GATE_G_STATUS_OVERLAP gate true).wr F.GATE_G_STATUS_LAST_ENTRY gate e
      m.entReport 0x0F gate e 4 w (entAddr gate e 24)
    else
      let cls := if bitsOf ctrl 8 2 = 3 then m.rd F.GATE_ENT_CTRL_CLASS i else bitsOf ctrl 8 2
      let v := withBits (withBits (bitsOf ctrl 0 24) 8 2 cls) 10 1 (b2n (en && cls != 0))
      let m := m.iff (gate ≤ 4) Mod.l1ClearAll
      let m := ((m.setReg .GATE_ENT_BASE i p.base).setReg .GATE_ENT_TOP i p.top).setReg .GATE_ENT_MASTERS i p.masters
      { m.setReg .GATE_ENT_CTRL i v with gatePend := Tbl.set none m.gatePend i none }

/-- Whether an entry of a gate overlaps the range of the active sweep on this module (R161). A sweep set up for another node's range overlaps no entry here,
while node 0xFFF counts as this module (DESIGN CHOICE, log entry 90). -/
def Mod.sweepOver (m : Mod) (gate e : Nat) : Bool :=
  match m.sweep with
  | some w => (w.node == m.node || w.node == 0xFFF) && decide (Nat.max (m.entBase gate e) w.lo < Nat.min (m.entTop gate e) w.hi)
  | none => false

/-- The epoch after an epoch (R161): 1 to 63, never 0. -/
def nextEpoch (e : Nat) : Nat := if e = 63 then 1 else e + 1

/-- A write of 1 to ADVANCE (R161, R287); advances at gates 0 to 4 empty the L1 caches (R284). -/
def Mod.epochAdvance (m : Mod) (gate e : Nat) : Mod :=
  let i := entIx gate e
  if e ≥ gateEntries gate then m
  else
    let next := nextEpoch (m.rd F.GATE_ENT_EPOCH_EPOCH i)
    if next = m.rd F.GATE_ENT_EPOCH_SWEPT i || m.sweepOver gate e then m.put F.GATE_ENT_EPOCH_ADV_REFUSED i true
    else
      let m := m.iff (gate ≤ 4) Mod.l1ClearAll
      m.wr F.GATE_ENT_EPOCH_EPOCH i next

/-- The entries of a gate cleared (R275, R286): disabled, locks off, epochs and swept epochs 1, GATE_G_CTRL unlocked. -/
def Mod.gateClear (m : Mod) (gate : Nat) : Mod :=
  let isEnt := fun (k : Nat) =>
    (k % 512 == Reg.GATE_ENT_BASE.ctorIdx || k % 512 == Reg.GATE_ENT_TOP.ctorIdx || k % 512 == Reg.GATE_ENT_MASTERS.ctorIdx ||
     k % 512 == Reg.GATE_ENT_CTRL.ctorIdx || k % 512 == Reg.GATE_ENT_EPOCH.ctorIdx) && k / 512 / 256 == gate
  let m := { m with regs := m.regs.filter (fun r => !isEnt r.1), gatePend := m.gatePend.filter (fun r => r.1 / 256 != gate) }
  m.put F.GATE_G_CTRL_LOCK gate false

/-- A gate that loses power with its domain (R458): its registers at their reset values, its entries cleared. -/
def Mod.gateOff (m : Mod) (gate : Nat) : Mod :=
  (m.gateClear gate).each [Reg.GATE_G_CTRL, .GATE_G_STATUS, .GATE_G_COUNT] (fun m r => m.setReg r gate (r.resetVal gate))

/-- The head of the violation queue removed (R292); nothing when empty. -/
def Mod.vqPop (m : Mod) : Mod := { m with vq := m.vq.drop 1 }

/-- A violation record as bytes (R289). -/
def VioRec.bytes (v : VioRec) : List Byte :=
  leBytes 8 v.addr ++ leBytes 8 v.time ++ leBytes 1 v.kind ++ leBytes 1 v.master ++ leBytes 1 v.gate ++ leBytes 1 v.access ++
  leBytes 2 v.entry ++ leBytes 1 v.size ++ leBytes 1 v.epoch ++ leBytes 1 v.region ++ leBytes 7 0

end Sys2Proof.Machine
end

