-- ==== Sys2Proof/Machine/Access.lean ====
section
/-!
DEFINITION. Sys2Proof/Machine/Access.lean: what an admitted access does at a target other than register space
(R66, R81, R86, R153, R154, R231 to R238, R250).
-/
namespace Sys2Proof.Machine

/-! ### Signal memory (R66, R81, R86) -/

/-- A signal record as its 32 bytes (R81). -/
def SigRec.bytes (r : SigRec) : List Byte :=
  leBytes 8 r.value.toNat ++ leBytes 8 r.time ++ leBytes 4 r.raw.toNat ++ leBytes 1 r.quality.toNat ++ leBytes 1 r.flags.toNat ++
  leBytes 2 r.seq.toNat ++ leBytes 4 r.status.toNat ++ leBytes 4 0

/-- An output status record as its 32 bytes (R86). -/
def OutStat.bytes (o : OutStat) : List Byte :=
  leBytes 8 o.value.toNat ++ leBytes 8 o.time ++ leBytes 2 o.seq.toNat ++ leBytes 2 o.code.toNat ++ leBytes 4 o.result.toNat ++ leBytes 8 0

/-- The byte at an offset of region `g`'s signal memory. -/
def Mod.sigByte (m : Mod) (g off : Nat) : Byte :=
  if off < 0x20000 then
    ((m.sigRec ((g * 256 + off / 0x200) * 16 + off % 0x200 / 0x20)).bytes.getD (off % 0x20) 0)
  else if 0x22000 ≤ off ∧ off < 0x24000 then
    ((Tbl.get {} m.ostat (g * 256 + (off - 0x22000) / 0x20)).bytes.getD (off % 0x20) 0)
  else cellGet m.mem (signalBase g + off)

/-- `n` bytes of signal memory. -/
def Mod.sigBytes (m : Mod) (g off n : Nat) : List Byte := (List.range n).map (fun i => m.sigByte g (off + i))

/-- A signal memory zeroed (R67, R451). -/
def Mod.sigZero (m : Mod) (g : Nat) : Mod :=
  let m := m.zeroRange (signalBase g) 0x200000
  { m with recs := m.recs.filter (fun e => e.1 / 4096 != g), recAux := m.recAux.filter (fun e => e.1 / 4096 != g),
           ostat := m.ostat.filter (fun e => e.1 / 256 != g) }

/-! ### Reads -/

/-- What a read gave: its bytes, and whether they come from a poisoned line (R239, R263). -/
structure Got where
  data : List Byte
  poison : Bool
  deriving DecidableEq, Repr

/-- The bytes of a DRAM read within one line, through its slice (R231, R235). -/
def Mod.dramRead (m : Mod) (a n : Nat) : Mod × Got :=
  let m := m.bring (a / 64)
  let l := m.lineNow (a / 64)
  (m, ⟨(l.bytes.drop (a % 64)).take n, l.poison⟩)

/-- An admitted read of `n` bytes within one target. -/
def Mod.rawRead (m : Mod) (a n : Nat) : Mod × Got :=
  match targetOf a with
  | .dram => (linePieces 3 a n).foldl (fun r p =>
      let (m, g) := r.1.dramRead p.1 p.2
      (m, ⟨r.2.data ++ g.data, r.2.poison || g.poison⟩)) (m, ⟨[], false⟩)
  | .signal g off => (m, ⟨m.sigBytes g off n, false⟩)
  | .regs _ => (m, ⟨List.replicate n 0, false⟩)
  | .none => (m, ⟨List.replicate n 0, false⟩)
  | _ => (m, ⟨m.bytes a n, m.spoiledIn a n⟩)

/-- Whether a target stores tags (R150). -/
def storesTags (t : Target) : Bool :=
  match t with
  | .dram => true
  | .scratch _ _ => true
  | .coreScratch _ => true
  | _ => false

/-- The tag of the granule at a local address as a read finds it. -/
def Mod.tagAt (m : Mod) (a : Nat) : Bool :=
  match targetOf a with
  | .dram => bitAt (m.lineNow (a / 64)).tags.toNat (a % 64 / 16)
  | .scratch _ _ => m.tag a
  | .coreScratch _ => m.tag a
  | _ => false

/-- The key in the granule at a local address. -/
def Mod.keyAt (m : Mod) (a : Nat) : Mod × Key × Bool :=
  let (m, g) := m.rawRead a 16
  (m, Key.ofBytes g.data (m.tagAt a), g.poison)

/-! ### Writes -/

/-- An admitted write within one target: bytes, and for a key store its tag; every granule touched otherwise loses its
tag (R153). `writer` is the core whose own data copy the write updates (R234). -/
def Mod.rawWrite (m : Mod) (a : Nat) (bs : List Byte) (key : Option Bool) (writer : Option Nat) : Mod :=
  match targetOf a with
  | .dram => (linePieces 3 a bs.length).foldl (fun m p => m.writeLine p.1 ((bs.drop (p.1 - a)).take p.2) key writer) m
  | .code _ => m
  | .regs _ => m
  | .none => m
  | .signal _ _ => m.setBytes a bs
  | .mailbox _ => m.setBytes a bs
  | _ =>
    let m := (m.setBytes a bs).unspoil a bs.length
    let first := a / 16
    let last := (a + bs.length - 1) / 16
    m.each (span first (last + 1 - first)) (fun m gr => m.setTag (16 * gr) (key.getD false))

end Sys2Proof.Machine
end

