-- ==== Sys2Proof/Machine/CoreBase.lean ====
section
/-!
DEFINITION. Sys2Proof/Machine/CoreBase.lean: what the Lurik families share: levels and banks, STATUS, leaving reset,
entering a level, exceptions, double faults, lazy FP (R168 to R171, R212 to R230).
-/
namespace Sys2Proof.Machine

/-- Level M, as levels are numbered in registers. -/
def levelM : Nat := 8

/-! ### Banks (R168, R215) -/

def Core.bank (k : Core) (l : Nat) : Bank := Tbl.get {} k.banks l
def Core.setBank (k : Core) (l : Nat) (b : Bank) : Core := { k with banks := Tbl.set {} k.banks l b }

/-- d register `r` of a level; d0 reads as 0. -/
def Core.d (k : Core) (l r : Nat) : Nat := if r = 0 then 0 else (Tbl.get 0 (k.bank l).d r).toNat
/-- d register `r` of a level written; writes to d0 are discarded. -/
def Core.setD (k : Core) (l r v : Nat) : Core :=
  if r = 0 then k else
    let b := k.bank l
    k.setBank l { b with d := Tbl.set 0 b.d r (BitVec.ofNat 64 v) }
def Core.k (k : Core) (l r : Nat) : Key := Tbl.get {} (k.bank l).k r
def Core.setK (k : Core) (l r : Nat) (v : Key) : Core :=
  let b := k.bank l
  k.setBank l { b with k := Tbl.set {} b.k r v }
/-- Loop registers of a level: 0 LS, 1 LE, 2 LC. -/
def Core.loopReg (k : Core) (l which n : Nat) : Nat :=
  let b := k.bank l
  (Tbl.get 0 (if which = 0 then b.ls else if which = 1 then b.le else b.lc) n).toNat
def Core.setLoopReg (k : Core) (l which n v : Nat) : Core :=
  let b := k.bank l
  let v := BitVec.ofNat 64 v
  k.setBank l (if which = 0 then { b with ls := Tbl.set 0 b.ls n v } else if which = 1 then { b with le := Tbl.set 0 b.le n v } else { b with lc := Tbl.set 0 b.lc n v })

/-! ### STATUS (R169, R228) -/

/-- STATUS of a level, with LEVEL. -/
def Core.status (k : Core) (l : Nat) : Nat := withBits (k.bank l).status.toNat 24 4 l
def Core.stField (k : Core) (l lo w : Nat) : Nat := bitsOf (k.bank l).status.toNat lo w
def Core.setSt (k : Core) (l lo w v : Nat) : Core :=
  let b := k.bank l
  k.setBank l { b with status := BitVec.ofNat 64 (withBits b.status.toNat lo w v) }
def Core.lact (k : Core) (l n : Nat) : Bool := k.stField l n 1 == 1
def Core.split (k : Core) (l : Nat) : Bool := k.stField l 4 1 == 1
def Core.mask (k : Core) (l : Nat) : Nat := k.stField l 16 3

/-- A write of STATUS (R228): LEVEL and the reserved bits keep their values, FPOWN can only be cleared, which discards
the level's FP state (R227). -/
def Core.writeStatus (k : Core) (l v : Nat) (fpown : Bool := true) : Core :=
  let own := k.stField l 22 1 == 1
  let keep := if fpown then own && bitAt v 22 else own
  let b := k.bank l
  let s := withBits (withBits (withBits (withBits b.status.toNat 0 5 v) 16 3 (bitsOf v 16 3)) 19 3 (bitsOf v 19 3)) 22 1 (b2n keep)
  let k := k.setBank l { b with status := BitVec.ofNat 64 s }
  if own && !keep then
    { k with fpImages := Tbl.set {} k.fpImages l {}, fpres := if k.fpres = l then 15 else k.fpres }
  else k

/-- Whether the current ip holds SYS. -/
def Core.sys (k : Core) : Bool := k.ip.live && k.ip.has rSYS

/-! ### Leaving reset (R149, R212, R395) -/

/-- Core `c` as it leaves reset at TB_MONO `t`: level 0 with the root keys, ip a copy of k1. -/
def freshCore (c t : Nat) : Core :=
  let k1 := rootKey 0x10D (resetVector c)
  let k : Core := { inReset := false, ip := k1, cyc0 := t }
  ((k.setK 0 1 k1).setK 0 2 (rootKey 0x03B 0)).setK 0 3 (rootKey 0x0C0 0)

/-- The distributor of core `c` at its reset values (R230, R449). -/
def Mod.evdClear (m : Mod) (c : Nat) : Mod :=
  { m with regs := m.regs.filter (fun r => !(r.1 % 512 == Reg.EVD_SRC.ctorIdx && r.1 / 512 / 64 == c)),
           inFlight := m.inFlight.filter (·.1 != c) }

/-- Core `c` and its cell into reset (R249, R275, R449): L1 caches, distributor, scratch and gate cleared; what it had
outstanding on the mesh is forgotten. -/
def Mod.coreEnterReset (m : Mod) (c : Nat) : Mod :=
  let m := (m.l1Clear c).evdClear c
  let m := m.setCore c {}
  let m := { m with req := m.req.filter (fun r => r.who != Requester.core c && r.who != Requester.coreStore c) }
  (m.zeroRange (coreScratch c) 0x20000).gateClear (16 + c)

/-- Whether cores may be out of reset: in full service, with a move in effect (R393, R398). -/
def Mod.coresRun (m : Mod) : Bool := m.phase.full && m.moveNow != 0

/-- Core `c` leaves reset, if it is powered and the cores run. -/
def Mod.coreLeaveReset (m : Mod) (c : Nat) : Mod :=
  if m.coresRun && m.domOn c && !m.rgnDown (c / 8) then m.setCore c (freshCore c m.mono) else m

/-- A reset of core cell `c` (R449). -/
def Mod.coreReset (m : Mod) (c : Nat) : Mod := (m.coreEnterReset c).coreLeaveReset c

/-! ### Pinning and residence (R215 to R217) -/

def Core.pinned (k : Core) (l : Nat) : Bool := decide (l < 8) && bitAt k.bankPin l

/-- The victim of a spill for level `l` (R217). -/
def Core.victim (k : Core) (l : Nat) : Option Nat :=
  let cand := (upTo 8).filter (fun v => k.resident.contains v && !k.pinned v && v != l)
  match cand.find? (fun v => !k.active.contains v) with
  | some v => some v
  | none => cand.head?

/-- Level `l` made resident (R216). -/
def Core.makeResident (k : Core) (l : Nat) : Core :=
  if l ≥ 8 || k.resident.contains l then k
  else if k.resident.contains 15 then { k with resident := k.resident.replace 15 l }
  else match k.victim l with
    | some v => { k with resident := k.resident.replace v l }
    | none => k

/-! ### Entering and leaving levels (R213, R214, R218, R223) -/

/-- The fields of CAUSE (R223). -/
def causeOf (code sub : Nat) (pair slotB : Bool) (from_ orig source : Nat) (lost : Bool) : Nat :=
  code + sub % 256 * 2 ^ 8 + b2n pair * 2 ^ 16 + b2n slotB * 2 ^ 17 + from_ * 2 ^ 18 + orig * 2 ^ 22 + source * 2 ^ 30 + b2n lost * 2 ^ 38

/-- Whether an outstanding access is abandoned when its level is preempted (R220): LDU and the context instructions. -/
def LoadKind.abandoned (k : LoadKind) : Bool :=
  match k with
  | .ldu _ _ _ _ => true
  | .ctx _ _ _ _ _ => true
  | _ => false

/-- Level `l` is entered: the current level's resume ip is kept, a copy it had begun abandoned (R196), CAUSE, FIP and FADDR of `l` written. -/
def Core.enter (k : Core) (l cause fip faddr : Nat) : Core :=
  let k := { k with waits := k.waits.filter (fun w => !(w.level == k.level && w.kind.abandoned)) }
  let cur := k.bank k.level
  let k := k.setBank k.level { cur with ip := k.ip }
  let k := k.makeResident l
  let b := k.bank l
  let k := k.setBank l { b with cause := BitVec.ofNat 64 cause, fip := BitVec.ofNat 64 fip, faddr := BitVec.ofNat 64 faddr }
  { k with level := l, active := l :: k.active.filter (· != l), ip := (k.bank l).ip, waiting := false, entry := none, copy := none }

/-- The resume ip of a level, its ip if it is current. -/
def Core.ipOf (k : Core) (l : Nat) : Key := if l = k.level then k.ip else (k.bank l).ip

/-- The highest of a list of levels, 0 for none. -/
def maxLevel (ls : List Nat) : Nat := ls.foldl Nat.max 0

/-- The current level, which is not 0, returns: its resume ip is set past the ERET, it is active no more, and the highest level still active
becomes current with its resume ip (R214). -/
def Core.quit (k : Core) : Core :=
  let b := k.bank k.level
  let k := k.setBank k.level { b with ip := k.ip.advance 4 }
  let act := k.active.filter (· != k.level)
  let l := maxLevel act
  { k with active := act, level := l, ip := (k.bank l).ip }

/-- The return from the current level, which is not 0, to a level that resumes (R214). -/
def Core.leave (k : Core) : Core := k.quit.makeResident k.quit.level

/-- The handler level of an exception code (R222). -/
def Core.handler (k : Core) (code : Nat) : Nat := bitsOf k.excLevel (4 * code) 4

/-- Whether level `h` may take a request over a level (R213, R222). -/
def Core.takes (k : Core) (h l : Nat) : Bool := decide (h > l) && (h == levelM || decide (h > k.mask l))

/-- A double fault (R226): issue stops, the core halts and reports a cell fault with FIP of level M. -/
def Mod.doubleFault (m : Mod) (c : Nat) : Mod :=
  let k := m.core c
  let m := m.setCore c { k with halted := true, haltAt := m.mono, word := false }
  m.cellFault (coreRegion c) 0x01 c 0 (k.bank levelM).fip.toNat

/-! ### Spills (R216, R217, R225) -/

/-- The place of the bank image of a level in its core's spill area (R216). -/
def bankImage (c l : Nat) : Nat := coreScratch c + 0x1E000 + l * 0x240

/-- Whether the spill that brings level `l` to a bank fails: a bank must be filled, and its image holds an uncorrectable error, the spill meets
one (`err`), or core scratch has no power (R225). -/
def Mod.spillFails (m : Mod) (c l : Nat) (err : Bool := false) : Bool :=
  decide (l < 8) && !(m.core c).resident.contains l && (err || m.spoiledIn (bankImage c l) 0x240 || !m.domOn c)

/-- The bank image that bringing level `l` to a bank writes holds good data again. -/
def Mod.spilled (m : Mod) (c l : Nat) : Mod :=
  let k := m.core c
  if l ≥ 8 || k.resident.contains l || k.resident.contains 15 then m
  else match k.victim l with
    | some v => m.unspoil (bankImage c v) 0x240
    | none => m

/-- The resume ip of level `l` without its tag, in the image and, if the level is current, in ip (R225). -/
def Core.untagIp (k : Core) (l : Nat) : Core :=
  let b := k.bank l
  let k := k.setBank l { b with ip := { b.ip with tag := false } }
  if k.level = l then { k with ip := { k.ip with tag := false } } else k

/-- A failed spill: M is entered instead of level `l`, whose resume ip loses its tag (R225). The image whose rows met the error counts as read and
written again: the next entry of the level finds what firmware has put there, or the missing tag (DEDUCED, log entry 82). -/
def Mod.spillFailure (m : Mod) (c l fip : Nat) : Mod :=
  (m.unspoil (bankImage c l) 0x240).setCore c (((m.core c).untagIp l).enter levelM (causeOf 0x0A 0 false false l 0 0 false) fip 0)

/-- The entry of level `l` from level `left` noted: until its first word issues a higher request supersedes it (R219). -/
def Mod.noteEntry (m : Mod) (c left l : Nat) (spilled : Bool) (exc : Option PendExc) (src : Option (Nat × Nat × Bool)) : Mod :=
  let k := m.core c
  if l = levelM then m else m.setCore c { k with entry := some ⟨left, m.mono, spilled, exc, src⟩ }

/-- Level `l` entered with its spill (R218, R225) for a synchronous exception. -/
def Mod.enterLevel (m : Mod) (c l cause fip faddr : Nat) (err : Bool := false) : Mod :=
  if m.spillFails c l err then m.spillFailure c l fip
  else
    let k := m.core c
    ((m.spilled c l).setCore c (k.enter l cause fip faddr)).noteEntry c k.level l (!k.resident.contains l)
      (some ⟨l, BitVec.ofNat 64 cause, BitVec.ofNat 64 fip, BitVec.ofNat 64 faddr⟩) none

/-- A precise exception of the current level's word, whose cursor is `fip` (R221 to R223): taken at once at its handler
level, escalated to M otherwise, or a double fault. FADDR of an escalated one is 0. -/
def Mod.coreExc (m : Mod) (c code sub faddr fip : Nat) (pair : Bool := false) (slotB : Bool := false) : Mod :=
  let m := m.setCore c { m.core c with word := false }
  let k := m.core c
  let h := k.handler code
  if k.level = levelM then m.doubleFault c
  else if k.takes h k.level then
    m.enterLevel c h (causeOf code sub pair slotB k.level 0 0 false) fip faddr
  else if k.active.contains levelM then m.doubleFault c
  else m.enterLevel c levelM (causeOf 0x0B sub pair slotB k.level code 0 false) fip 0

/-- An imprecise exception of a word of level `l` (R222, R224), `slot` naming the slot of a pair: it waits at its handler level or, escalated, at
M; a further one of the same code only sets LOST. -/
def Mod.coreImprecise (m : Mod) (c l code sub fip faddr : Nat) (slot : Option Bool := none) : Mod :=
  let k := m.core c
  let h := k.handler code
  let esc := !decide (h > l)
  if l = levelM || (esc && k.active.contains levelM) then m.doubleFault c
  else
    let at_ := if esc then levelM else h
    let cd := if esc then 0x0B else code
    let orig := if esc then code else 0
    let same := fun (e : PendExc) => e.level == at_ && bitsOf e.cause.toNat 0 8 == cd && bitsOf e.cause.toNat 22 8 == orig
    if k.pendExc.any same then
      m.setCore c { k with pendExc := k.pendExc.map (fun e => if same e then { e with cause := e.cause ||| BitVec.ofNat 64 (2 ^ 38) } else e) }
    else
      m.setCore c { k with pendExc := k.pendExc ++ [⟨at_, BitVec.ofNat 64 (causeOf cd sub slot.isSome (slot.getD false) l orig 0 false), BitVec.ofNat 64 fip, BitVec.ofNat 64 (if esc then 0 else faddr)⟩] }

/-! ### Lazy FP (R227) -/

/-- The FP state made the level's own before it issues an FP instruction. -/
def Core.fpOwn (k : Core) (l : Nat) : Core :=
  if k.fpres = l then k.setSt l 22 1 1
  else
    let old := k.fpres
    let k := if old ≤ 8 && k.stField old 22 1 == 1 then { k with fpImages := Tbl.set {} k.fpImages old ⟨k.f, k.fpcsr⟩ } else k
    let new : FpState := if k.stField l 22 1 == 1 then Tbl.get {} k.fpImages l else {}
    { k with f := new.f, fpcsr := new.fpcsr, fpres := l }.setSt l 22 1 1

/-- The FP state of a level wherever it lies. -/
def Core.fpOf (k : Core) (l : Nat) : FpState := if k.fpres = l then ⟨k.f, k.fpcsr⟩ else Tbl.get {} k.fpImages l

/-- The FP state of a level written wherever it lies, and owned. -/
def Core.setFpOf (k : Core) (l : Nat) (s : FpState) : Core :=
  (if k.fpres = l then { k with f := s.f, fpcsr := s.fpcsr } else { k with fpImages := Tbl.set {} k.fpImages l s }).setSt l 22 1 1

def FpState.get (s : FpState) (r : Nat) : Nat := (Tbl.get 0 s.f r).toNat
def FpState.put (s : FpState) (r v : Nat) : FpState := { s with f := Tbl.set 0 s.f r (BitVec.ofNat 64 v) }

/-- An f register of a level. -/
def Core.fr (k : Core) (l r : Nat) : Nat := (k.fpOf l).get r
def Core.setFr (k : Core) (l r v : Nat) : Core := k.setFpOf l ((k.fpOf l).put r v)

/-! ### Events at a distributor (R213, R230, R455) -/

/-- The level EVD_SRC gives a source at a core. -/
def Mod.evdLevel (m : Mod) (c n : Nat) : Nat := m.rd (F.EVD_SRC_LEVEL (n % 4)) (c * 64 + n / 4)

/-- A delivered source is latched pending at its level (R230); a core in reset or unpowered, or a source with EN 0,
latches nothing. -/
def Mod.evdLatch (m : Mod) (c n : Nat) : Mod :=
  let k := m.core c
  if m.latches c n && !(k.pendEv.any (·.1 == n)) then
    m.setCore c { k with pendEv := k.pendEv ++ [(n, m.evdLevel c n)] }
  else m

/-- A source on its way to a core reaches its distributor. -/
def Mod.evdArrive (m : Mod) (c n : Nat) : Mod :=
  if m.inFlight.contains (c, n) then ({ m with inFlight := m.inFlight.erase (c, n) }).evdLatch c n else m

/-- A source is no longer pending at a core. -/
def Mod.evdUnpend (m : Mod) (c n : Nat) : Mod :=
  let k := m.core c
  m.setCore c { k with pendEv := k.pendEv.filter (·.1 != n) }

/-- A first-claim source is granted to core `c` (R455): its bits at all other cores are cleared. -/
def Mod.claim (m : Mod) (c n : Nat) : Mod :=
  if m.flag F.EVR_ROUTE_HI_FIRST n then
    let m := m.each ((upTo 32).filter (· != c)) (fun m c' => m.evdUnpend c' n)
    let m := { m with inFlight := m.inFlight.filter (fun e => e.2 != n) }
    ((m.wr F.EVR_LAST_CLAIM_SOURCE 0 n).wr F.EVR_LAST_CLAIM_CORE 0 c).put F.EVR_LAST_CLAIM_VALID 0 true
  else m

/-- Whether core `c` may claim a first-claim source that is pending there for level `l` (R455): it is in neither reset nor halt, and the source is
not masked. A source of the current level's own number, which ends an EWAIT (R213), counts as not masked (DEDUCED, log entry 87). -/
def Mod.mayClaim (m : Mod) (c l : Nat) : Bool :=
  let k := m.core c
  !k.inReset && !k.halted && m.domOn c && !m.rgnDown (c / 8) && (l == levelM || l == k.level || decide (k.mask k.level < l))

/-- A write of ones to EVD_PENDk (R230); for a first-claim source it is the claim of a core that may claim it (R455). -/
def Mod.evdPendClear (m : Mod) (c k bits : Nat) : Mod :=
  m.each (setBits 32 bits) (fun m j =>
    let n := 32 * k + j
    match (m.core c).pendEv.find? (·.1 == n) with
    | some e => (m.evdUnpend c n).iff (m.mayClaim c e.2) (fun m => m.claim c n)
    | none => m)

end Sys2Proof.Machine
end

