-- ==== Sys2Proof/Machine/LinkOut.lean ====
section
/-!
DEFINITION. Sys2Proof/Machine/LinkOut.lean: what leaves on a mesh or twin link: the flit's layout, credits, the virtual channels'
arbitration, blocks (R301 to R308, R112, R157, R163, R325).
-/
namespace Sys2Proof.Machine

/-! ### Flits (R303) -/

/-- The header of a flit, in the places of its table. -/
def flitHeader (f : Flit) : BitVec 128 :=
  BitVec.ofNat 128 (f.dst.toNat + f.src.toNat * 2 ^ 12 + f.vc.toNat * 2 ^ 24 + f.ftype.toNat * 2 ^ 26 + f.tags.toNat * 2 ^ 32 + f.deadline.toNat * 2 ^ 36 +
    f.tid.toNat * 2 ^ 76 + f.epoch.toNat * 2 ^ 92 + f.follow.toNat * 2 ^ 98 + f.hops.toNat * 2 ^ 103 + f.status.toNat * 2 ^ 109 + b2n f.late * 2 ^ 117 +
    b2n f.poison * 2 ^ 118 + b2n f.phase * 2 ^ 119)

/-- A flit as its 80 bytes: the header in bytes 0 to 15, the payload in bytes 16 to 79. -/
def flitBits (f : Flit) : BitVec 640 := f.payload ++ flitHeader f

/-- The flit that 80 bytes hold. -/
def flitOf (x : BitVec 640) : Flit :=
  let n := x.toNat
  let at_ := fun (w lo : Nat) => BitVec.ofNat w (n >>> lo)
  ⟨at_ 12 0, at_ 12 12, at_ 2 24, at_ 6 26, at_ 40 36, at_ 16 76, at_ 6 92, at_ 4 32, at_ 5 98, at_ 6 103, bitAt n 119, at_ 8 109, bitAt n 117, bitAt n 118, at_ 512 128⟩

/-- The bytes of a heartbeat (R428). -/
def heartbeatBytes (h : Heartbeat) : List Byte :=
  leBytes 4 h.seq.toNat ++ leBytes 1 h.role.toNat ++
  leBytes 1 (b2n h.ready + 2 * b2n h.release + 4 * b2n h.castle + 8 * b2n h.ack + 16 * b2n h.fault) ++ leBytes 2 0 ++
  leBytes 4 h.move.toNat ++ leBytes 4 h.pass.toNat ++ leBytes 8 h.h.toNat ++ leBytes 8 h.now.toNat ++ leBytes 32 0

/-! ### Parcels -/

/-- Type and virtual channel (R304). -/
def Parcel.kind : Parcel → Nat × Nat
  | .flit f => (f.ftype.toNat, f.vc.toNat)
  | .gop _ => (0x23, 2)
  | .member _ => (0x24, 2)
  | .heartbeat _ => (0x25, 2)
  | .mirror _ => (0x31, 3)

/-- A parcel's first flit on link `l`. The layout of a GOP, MEMBER or MIRROR payload is not stated: it is a free value of the message
(log 83). -/
def Parcel.head (m : Mod) (l : Nat) (p : Parcel) : Flit :=
  let own := fun (pay : BitVec 512) => (⟨BitVec.ofNat 12 (m.rd F.MESH_LINK_STATUS_PEER l), BitVec.ofNat 12 m.node, BitVec.ofNat 2 p.kind.2,
    BitVec.ofNat 6 p.kind.1, 0, 0, 0, 0, 0, 1, false, 0, false, false, pay⟩ : Flit)
  match p with
  | .flit f => f
  | .gop g => own (Config.gopBits g)
  | .member x => own (Config.memberBits x)
  | .heartbeat h => own (BitVec.ofNat 512 (ofLeBytes (heartbeatBytes h)))
  | .mirror (.line a d) => { own (Config.mirrorBits (.line a d)) with follow := 1 }
  | .mirror x => own (Config.mirrorBits x)

/-- The flits of a parcel on link `l`; a mirrored line follows its MIRROR flit as a data flit. -/
def Parcel.flits (m : Mod) (l : Nat) (p : Parcel) : List Flit :=
  let h := p.head m l
  match p with
  | .mirror (.line _ d) => [h, { h with ftype := 0x10, follow := 0, payload := d }]
  | _ => [h]

/-- What of a parcel is seen outside. -/
def Parcel.out (l : Nat) : Parcel → Out
  | .flit f => .flit l f
  | .gop g => .gop l g
  | .member x => .member l x
  | .heartbeat h => .heartbeat h
  | .mirror x => .mirror x

/-! ### Sending (R305, R307, R308) -/

/-- The credits of a virtual channel of a link. -/
def Mod.credits (m : Mod) (l vc : Nat) : Nat :=
  match vc with
  | 0 => m.rd F.MESH_LINK_CRED_VC0 l
  | 1 => m.rd F.MESH_LINK_CRED_VC1 l
  | 2 => m.rd F.MESH_LINK_CRED2_VC2 l
  | _ => m.rd F.MESH_LINK_CRED2_VC3 l

/-- Something of a link's own leaves: a credit, an acknowledgement, a request for a block, the end of a block. -/
def Mod.signal (m : Mod) (x : Wire) : Mod := { m with wire := x :: m.wire }

/-- `n` credits of a virtual channel go back to the sender: their flits have left the receive buffer (R308). -/
def Mod.giveCredits (m : Mod) (l vc n : Nat) : Mod := m.each (upTo n) (fun m _ => m.signal (.credit l vc))

/-- The tags a flit leaves with on link `l` (R157, R163). -/
def Mod.tagsOut (m : Mod) (l : Nat) (f : Flit) : BitVec 4 :=
  if f.tags = 0 then 0
  else BitVec.ofNat 4 ((upTo 4).foldl (fun t j =>
    if f.tags.getLsbD j && m.keyLeaves (m.flag F.MESH_LINK_STATUS_ATTESTED l) (Key.ofBytes (((leBytes 64 f.payload.toNat).drop (16 * j)).take 16) true)
    then t + 2 ^ j else t) 0)

/-- A parcel sent again: a flit's tags pass the filter anew (R163). -/
def Mod.tagsAgain (m : Mod) (l : Nat) : Parcel → Parcel
  | .flit f => .flit { f with tags := m.tagsOut l f }
  | x => x

/-- A payload's 64-bit field at bit `lo` replaced. -/
def payField (p : BitVec 512) (lo v : Nat) : BitVec 512 := BitVec.ofNat 512 (withBits p.toNat lo 64 v)

/-- A flit as it leaves: its tags, and the instants and the residence that time flits carry (R112, R325). A TIME_SYNC that waits to be
forwarded holds its correction less TB_MONO of its arrival, in 2^-16 ns. -/
def Mod.stamped (m : Mod) (l : Nat) (f : Flit) : Flit :=
  let f := { f with tags := m.tagsOut l f }
  match f.ftype.toNat with
  | 0x20 => { f with payload := payField f.payload 0 m.now }
  | 0x21 => { f with payload := payField f.payload 128 m.now }
  | 0x22 => { f with payload := payField f.payload 88 (bitsOf f.payload.toNat 88 64 + 65536 * m.mono) }
  | _ => f

def Mod.stampedParcel (m : Mod) (l : Nat) : Parcel → Parcel
  | .flit f => .flit (m.stamped l f)
  | x => x

/-- A waiting parcel leaves on link `l`: credits used, its place in the receive buffer it came to given back, a probe's departure noted. -/
def Mod.depart (m : Mod) (l : Nat) (w : Queued) : Mod × Parcel :=
  let p := m.stampedParcel l w.what
  let k := m.link l
  let n := (p.flits m l).length
  let k := { k with waiting := k.waiting.erase w, used := k.used.set w.vc (k.used.getD w.vc 0 + n), probe := if p.kind.1 = 0x20 then some m.now else k.probe }
  let m := (m.setLink l k).emit (p.out l)
  match w.origin with
  | some o => (m.giveCredits o w.vc n, p)
  | none => (m, p)

/-- Whether the next parcel of a virtual channel may leave: its oldest one, while credits are held. -/
def Mod.mayLeave (m : Mod) (l vc : Nat) : Option Queued :=
  match (m.link l).waiting.find? (·.vc == vc) with
  | none => none
  | some w => if (m.link l).used.getD vc 0 + (w.what.flits m l).length ≤ m.credits l vc then some w else none

/-- The weight of VC 0 or VC 3 at a link's output; 0 is treated as 1. -/
def Mod.weight (m : Mod) (l vc : Nat) : Nat :=
  Nat.max 1 (if vc = 0 then m.rd F.MESH_LG_VCW_W0 (l / 2) else m.rd F.MESH_LG_VCW_W3 (l / 2))

/-- The parcel served next at an output (R305): VC 2 first, then VC 1, then VC 0 and VC 3 by weighted round robin; and how much of whose
turn is left. -/
def Mod.arbitrate (m : Mod) (l : Nat) : Option (Queued × Nat × Nat) :=
  let (who, left) := (m.link l).turn
  let other := 3 - who
  let take := fun (vc left : Nat) (w : Queued) => some (w, vc, left - (w.what.flits m l).length)
  match m.mayLeave l 2, m.mayLeave l 1, m.mayLeave l who, m.mayLeave l other with
  | some w, _, _, _ => some (w, who, left)
  | none, some w, _, _ => some (w, who, left)
  | none, none, some w, none => take who left w
  | none, none, none, some w => take other (m.weight l other) w
  | none, none, some w, some x => if left = 0 then take other (m.weight l other) x else take who left w
  | none, none, none, none => none

/-- What can leave on a link leaves, `fuel` parcels at most; the parcels in order. -/
def Mod.drainLink (m : Mod) (l : Nat) : Nat → Mod × List Parcel
  | 0 => (m, [])
  | fuel + 1 => match m.arbitrate l with
    | none => (m, [])
    | some (w, who, left) =>
      let (m, p) := (m.setLink l { m.link l with turn := (who, left) }).depart l w
      let (m, ps) := m.drainLink l fuel
      (m, p :: ps)

/-- The check that closes a block: the GCM tag under the link's key with the count of blocks as its nonce (R301), or an open link's CRC-32
(R302). The value of the cipher is not modelled (log 83). -/
def Mod.sealOf (m : Mod) (l n : Nat) (fs : List Flit) : BitVec 128 :=
  if m.flag F.MESH_LINK_STATUS_ATTESTED l then Config.gcmTag (m.link l).key (BitVec.ofNat 96 n) (fs.map flitBits)
  else BitVec.ofNat 128 (crc32 (fs.flatMap (fun f => leBytes 80 (flitBits f).toNat)))

/-- A block of parcels is closed and kept until it is acknowledged (R301, R302). -/
def Mod.closeBlock (m : Mod) (l : Nat) (ps : List Parcel) : Mod :=
  let k := m.link l
  let n := k.blocksTx + 1
  (m.setLink l { k with blocksTx := n, replay := k.replay ++ [(n, ps)] }).signal (.sealed l n (m.sealOf l n (ps.flatMap (Parcel.flits m l))))

/-- Parcels grouped into blocks of at most 16 flits, `open_` being the block under way and its flits. -/
def Mod.blocks (m : Mod) (l : Nat) (open_ : List Parcel) (flits : Nat) : List Parcel → Mod
  | [] => if open_.isEmpty then m else m.closeBlock l open_
  | p :: ps =>
    let n := (p.flits m l).length
    if flits + n > 16 then (m.closeBlock l open_).blocks l [p] n ps else m.blocks l (open_ ++ [p]) (flits + n) ps

/-- What can leave on a link leaves in blocks; with nothing more to send the last one is closed at once. -/
def Mod.pump (m : Mod) (l : Nat) : Mod :=
  let (m, ps) := m.drainLink l (m.link l).waiting.length
  m.blocks l [] 0 ps

/-- Parcels put in the queues of a link, back to back, and sent as far as credits go; `origin` is the link whose receive buffer holds them. -/
def Mod.sendParcels (m : Mod) (l : Nat) (origin : Option Nat) (ps : List Parcel) : Mod :=
  (m.setLink l { m.link l with waiting := (m.link l).waiting ++ ps.map (fun p => ⟨p.kind.2, p, origin⟩) }).pump l

/-- A flit of this module leaves on a link in arrival order of its channel, at once while a credit is held. -/
def Mod.sendFlit (m : Mod) (l : Nat) (f : Flit) : Mod := m.sendParcels l none [.flit f]

/-! ### The twin link (R324) -/

/-- The lanes of link `k` of a lane group for a SPLIT code. -/
def splitLanes (split k : Nat) : Nat :=
  match split, k with
  | 1, 0 => 1
  | 2, 0 => 2
  | 3, 0 => 4
  | 4, 0 => 2
  | 4, 1 => 2
  | 5, 0 => 1
  | 5, 1 => 1
  | 6, 0 => 2
  | 6, 1 => 1
  | _, _ => 0

def Mod.lgMode (m : Mod) (n : Nat) : Nat := m.rd F.MESH_LG_CTRL_MODE n

/-- Whether a link is the twin link: of lane group 7 in MODE 3, in a twin carrier. -/
def Mod.isTwinLink (m : Mod) (l : Nat) : Bool := m.lgMode (l / 2) == 3 && m.flag F.CAR_STATUS_TWIN && l / 2 == 7

/-- Whether a link exists in the configuration in effect: MODE 3 gives none outside a twin carrier. -/
def Mod.linkThere (m : Mod) (l : Nat) : Bool :=
  let n := l / 2
  (m.lgMode n == 1 || m.isTwinLink l) && splitLanes (m.rd F.MESH_LG_CTRL_SPLIT n) (l % 2) != 0

/-- The twin link. -/
def Mod.twinLink (m : Mod) : Option Nat := (upTo 16).find? (fun l => m.isTwinLink l && m.linkThere l)

/-- A parcel to the twin's other module. -/
def Mod.toTwin (m : Mod) (p : Parcel) : Mod :=
  match m.twinLink with
  | some l => m.sendParcels l none [p]
  | none => m

/-- State mirrored by a twin primary to its standby (R429). -/
def Mod.mirror (m : Mod) (x : MirrorMsg) : Mod :=
  if m.rd F.TWIN_STATUS_ROLE == 1 && m.flag F.TWIN_STATUS_LINK_UP then m.toTwin (.mirror x) else m

end Sys2Proof.Machine
end

