-- ==== Sys2Proof/Machine/FedBase.lean ====
section
/-!
DEFINITION. Sys2Proof/Machine/FedBase.lean: lane groups and their links, the tree of R111, membership and the global
operations that travel it (R295, R296, R315 to R320, R324).
-/
namespace Sys2Proof.Machine

/-! ### Links of a lane group (R295, R296, R422, R470) -/

/-- The lanes of a link, as a mask over the four lanes of its group: link 2n from lane 0 on, link 2n + 1 from lane 2 on. -/
def splitMask (split k : Nat) : Nat := (2 ^ splitLanes split k - 1) * (if k = 0 then 1 else 4)

/-- The rate lane group `n` runs at: RATE 1 while it is shed. -/
def Mod.lgRate (m : Mod) (n : Nat) : Nat := if bitAt (m.rd F.PWR_THR_STATUS_SHED) n then 1 else m.rd F.MESH_LG_CTRL_RATE n
/-- Whether lane group `n` may train: powered, in full service, not in removal or reset, and no faster than the carrier's
maximum (R398, R422, R436, R451, R460). -/
def Mod.lgTrains (m : Mod) (n : Nat) : Bool :=
  let mx := m.laneMax.getD n 3
  m.domOn (48 + n) && m.phase.full && m.rd F.TWIN_STATUS_ROLE != 3 && !m.rgnDown (n / 2) && mx != 3 && decide (mx ≤ m.rd F.MESH_LG_CTRL_RATE n)

def Mod.linkState (m : Mod) (l : Nat) : Nat := m.rd F.MESH_LINK_STATUS_STATE l
/-- A link's state changes (R298), which raises its lane group's event. -/
def Mod.setLinkState (m : Mod) (l v : Nat) : Mod :=
  if m.linkState l = v then m else (m.wr F.MESH_LINK_STATUS_STATE l v).raise (160 + l / 2)

/-- A link's lanes set in a field of MESH_LG_STATUS. -/
def Mod.laneBits (m : Mod) (f : Fld) (l : Nat) : Mod :=
  let n := l / 2
  m.wr f n (m.rd f n ||| splitMask (m.rd F.MESH_LG_CTRL_SPLIT n) (l % 2))

/-- Lanes of a lane group show neither signal nor lock; those of an Ethernet port that is up do (R322, R327). -/
def Mod.lanesDark (m : Mod) (n mask : Nat) : Mod :=
  let off := fun (m : Mod) (f : Fld) => m.wr f n (m.rd f n - (m.rd f n &&& mask))
  if m.lgMode n == 2 && m.flag F.MESH_LG_STATUS_ETH_UP n then m else off (off m F.MESH_LG_STATUS_SIGNAL) F.MESH_LG_STATUS_LOCK

/-- An Ethernet port without power, in reset or barred goes down with its four lanes (R322, R327). -/
def Mod.ethDown (m : Mod) (n : Nat) : Mod :=
  if m.flag F.MESH_LG_STATUS_ETH_UP n then
    (((m.put F.MESH_LG_STATUS_ETH_UP n false).wr F.MESH_LG_STATUS_SIGNAL n 0).wr F.MESH_LG_STATUS_LOCK n 0).raise (160 + n)
  else m

/-- Whether a link can carry a channel (R300, R309). -/
def Mod.linkCarries (m : Mod) (l vc : Nat) : Bool :=
  (m.link l).usable && !m.isTwinLink l && (m.linkState l == 4 || (decide (vc ≥ 2) && m.linkState l == 5))

/-! ### The tree of R111 and R316 -/

/-- The link toward the time parent: of its lane group, the first over which the grandmaster is HOPS links away. -/
def Mod.parentLink (m : Mod) : Option Nat :=
  if !m.flag F.TB_STATUS_PARENT_VALID then none
  else
    let n := m.rd F.TB_STATUS_PARENT
    [2 * n, 2 * n + 1].find? (fun l => m.linkCarries l 2 && (m.link l).gmHops == some (m.rd F.TB_STATUS_HOPS))

/-- The links toward children. -/
def Mod.childLinks (m : Mod) : List Nat := (upTo 16).filter (fun l => (m.link l).child && m.linkCarries l 2)

/-- Whether this module is the root: the grandmaster (R316). -/
def Mod.isRoot (m : Mod) : Bool := m.flag F.TB_STATUS_IS_GM

/-- A GOP message up to the parent, or down to every child. -/
def Mod.gopUp (m : Mod) (g : GopMsg) : Mod :=
  match m.parentLink with
  | some l => m.sendParcels l none [.gop g]
  | none => m
def Mod.gopDown (m : Mod) (g : GopMsg) : Mod := m.each m.childLinks (fun m l => m.sendParcels l none [.gop g])
/-- A MEMBER message likewise. -/
def Mod.memberUp (m : Mod) (x : MemberMsg) : Mod :=
  match m.parentLink with
  | some l => m.sendParcels l none [.member x]
  | none => m
def Mod.memberDown (m : Mod) (x : MemberMsg) : Mod := m.each m.childLinks (fun m l => m.sendParcels l none [.member x])

/-! ### Barriers (R317) -/

/-- Whether this module is a member (R315). -/
def Mod.isMember (m : Mod) : Bool := m.flag F.MESH_CTRL_ENABLE && m.node != 0xFFF

/-- Whether this module participates in a barrier. -/
def Mod.barPart (m : Mod) (b : Nat) : Bool := bitAt (m.rd F.MESH_BAR_PART_PART) b

/-- Whether every participant of the subtree has arrived at barrier `b`, and whether there is any. -/
def Mod.barReady (m : Mod) (b : Nat) : Bool × Bool :=
  let part := m.barPart b
  let kids := m.childLinks.map (fun l => m.fed.reports.find? (fun r => r.1 == b && r.2.1 == l))
  ((!part || m.fed.arrived.contains b) && kids.all Option.isSome, part || kids.any (fun r => (r.map (fun x => x.2.2)).getD false))

/-- A member that is not the root reports barrier `b` once its subtree is complete. -/
def Mod.barReport (m : Mod) (b : Nat) : Mod :=
  let (ready, any) := m.barReady b
  if ready && !m.isRoot && !m.fed.reported.contains b && m.parentLink.isSome then
    { m with fed := { m.fed with reported := b :: m.fed.reported } }.gopUp (.barUp (BitVec.ofNat 4 b) any)
  else m

/-- The own operation ends, done or not. -/
def Mod.gopEnd (m : Mod) (op : Nat) (done : Bool) : Mod :=
  if m.fed.own = some op then
    (({ m with fed := { m.fed with own := none } }).put F.MESH_GOP_STATUS_BUSY 0 false).iff done (fun m => m.put F.MESH_GOP_STATUS_DONE 0 true)
  else m

/-- The release of barrier `b` at this module. -/
def Mod.barRelease (m : Mod) (b : Nat) : Mod :=
  let was := m.fed.arrived.contains b
  let m := { m with fed := { m.fed with arrived := m.fed.arrived.filter (· != b), reports := m.fed.reports.filter (·.1 != b),
                                        reported := m.fed.reported.filter (· != b) } }
  let m := m.gopDown (.barRelease (BitVec.ofNat 4 b))
  let m := m.iff (m.barPart b) (fun m =>
    (m.wr F.MESH_BAR_DONE_DONE 0 (m.rd F.MESH_BAR_DONE_DONE ||| 2 ^ b)).raise 168)
  (m.iff was (fun m => m.gopEnd 1 true)).barReport b

/-- Barrier `b` moves on as far as this module knows. -/
def Mod.barCheck (m : Mod) (b : Nat) : Mod :=
  if m.isRoot then
    let (ready, any) := m.barReady b
    if ready && any then m.barRelease b else m
  else m.barReport b

/-- Every barrier is looked at again, with nothing counted as reported: the tree has changed. -/
def Mod.barAgain (m : Mod) : Mod :=
  let m := { m with fed := { m.fed with reported := [] } }
  if m.isMember then m.each (upTo 16) Mod.barCheck else m

/-! ### Abandoned operations (R316) -/

/-- The operations in flight are abandoned here; a member with a part in one sets ABORTED and raises EV168. -/
def Mod.gopAbandon (m : Mod) : Mod :=
  let part := m.fed.own.isSome || (m.fed.snapAt.isSome && !m.fed.snapBusy) || m.fed.resetAt.isSome
  let m := { m with fed := { m.fed with arrived := [], reports := [], reported := [], own := none,
                                        snapAt := if m.fed.snapBusy then m.fed.snapAt else none, resetAt := none } }
  let m := m.put F.MESH_GOP_STATUS_BUSY 0 false
  (m.iff part (fun m => (m.put F.MESH_GOP_STATUS_ABORTED 0 true).raise 168)).barAgain

/-! ### Membership (R315) -/

/-- The Rook identity digest (R411), as one number. -/
def Mod.identity (m : Mod) : Nat := (upTo 8).foldl (fun a n => a + m.rd F.ROOK_ID_DIGEST n * 2 ^ (32 * n)) 0

/-- The bits of a member list in word `n` of the member registers. -/
def memberWord (l : List (Nat × Bool)) (n : Nat) : Nat :=
  l.foldl (fun a e => if e.1 / 32 = n then a ||| 2 ^ (e.1 % 32) else a) 0

/-- The membership as this module now knows it; a change raises EV171 and abandons what is in flight. -/
def Mod.setMembers (m : Mod) (l : List (Nat × Bool)) : Mod :=
  let l := l.filter (fun e => e.1 < 4095)
  let same := (upTo 128).all (fun n => m.rd F.MESH_MEMBER_MEMBER n == memberWord l n)
  let count := ((upTo 128).map (fun n => (setBits 32 (memberWord l n)).length)).sum
  let v1 := l.any (fun e => !e.2)
  let m := { m with fed := { m.fed with v1s := (l.filter (fun (e : Nat × Bool) => !e.2)).map Prod.fst } }
  let m := m.each (upTo 128) (fun m n => m.wr F.MESH_MEMBER_MEMBER n (memberWord l n))
  let m := (m.wr F.MESH_STATUS_MEMBERS 0 count).put F.MESH_STATUS_V1_PRESENT 0 v1
  if same then m else (m.raise 171).gopAbandon

/-- The root's list of members: itself and those that reported. -/
def Mod.rootList (m : Mod) : List (Nat × Bool) :=
  (if m.isMember then [(m.node, true)] else []) ++ m.fed.ids.map (fun e => (e.node, e.v2))

/-- The root takes its list as the membership and floods it. -/
def Mod.flood (m : Mod) : Mod :=
  let l := m.rootList
  (m.setMembers l).memberDown (.flood (l.map (fun e => (BitVec.ofNat 12 e.1, e.2))))

/-- A member's own entry goes toward the root. -/
def Mod.memberClaim (m : Mod) : Mod :=
  if !m.isMember then m
  else if m.isRoot then m.flood
  else m.memberUp (.claim (BitVec.ofNat 12 m.node) (BitVec.ofNat 256 m.identity) true (BitVec.ofNat 8 (m.rd F.TB_STATUS_HOPS)))

/-- The entries of the members behind this one go toward the root again: their way there has changed. -/
def Mod.subtreeClaim (m : Mod) : Mod :=
  m.each m.fed.ids (fun m e => m.memberUp (.claim (BitVec.ofNat 12 e.node) (BitVec.ofNat 256 e.ident) e.v2 (BitVec.ofNat 8 e.hops)))

/-- The root's second look at node IDs, as it takes over: of two identities under one, the member that joined first stays. -/
def Mod.refuseDuplicates (m : Mod) : Mod :=
  let dup := fun (e : MemberEntry) => e.node == m.node || (m.fed.ids.find? (·.node == e.node)).any (·.ident != e.ident)
  { m with fed := { m.fed with ids := m.fed.ids.filter (fun e => !dup e) } }.each (m.fed.ids.filter dup) (fun m e =>
    m.sendParcels e.link none [.member (.duplicate (BitVec.ofNat 12 e.node) (BitVec.ofNat 256 e.ident))])

/-- The link over which the grandmaster is the fewest hops away, the lowest of equal ones, and those hops (R111). -/
def Mod.bestParent (m : Mod) : Option (Nat × Nat) :=
  (upTo 16).foldl (fun (b : Option (Nat × Nat)) l =>
    match (m.link l).gmHops with
    | some h => if m.linkCarries l 2 && b.all (fun x => decide (h < x.2)) then some (l, h) else b
    | none => b) none

/-- The time parent follows what the links tell of the grandmaster (R111); a new parent is told of this module and of the members behind it,
and barriers are looked at again. -/
def Mod.reparent (m : Mod) : Mod :=
  if m.isRoot then m
  else match m.bestParent with
  | none => m.iff (m.flag F.TB_STATUS_PARENT_VALID) (fun m => (m.put F.TB_STATUS_PARENT_VALID 0 false).wr F.TB_STATUS_HOPS 0 0xFF)
  | some (l, h) =>
    let new := m.parentLink != some l
    let m := ((m.put F.TB_STATUS_PARENT_VALID 0 true).wr F.TB_STATUS_PARENT 0 (l / 2)).wr F.TB_STATUS_HOPS 0 h
    m.iff new (fun m => (m.setLink l { m.link l with child := false }).memberClaim.subtreeClaim.barAgain)

/-- Whether a node is a member, as known here. -/
def Mod.knowsMember (m : Mod) (d : Nat) : Bool := bitAt (m.rd F.MESH_MEMBER_MEMBER (d / 32)) (d % 32)

/-- The members that reported over a link are gone: the root floods what remains, any other module tells the root. -/
def Mod.childGone (m : Mod) (l : Nat) : Mod :=
  let gone := m.fed.ids.filter (fun e => e.link == l)
  let m := { m with fed := { m.fed with ids := m.fed.ids.filter (fun e => e.link != l), reports := m.fed.reports.filter (fun r => r.2.1 != l) } }
  if gone.isEmpty then m
  else if m.isRoot then m.flood
  else m.memberUp (.leave (gone.map (fun e => (BitVec.ofNat 12 e.node, BitVec.ofNat 256 e.ident))))

end Sys2Proof.Machine
end

