-- ==== Sys2Proof/Machine/MbxBase.lean ====
section
/-!
DEFINITION. Sys2Proof/Machine/MbxBase.lean: completions of mailbox commands, their interrupts, long commands (R355, R363,
R364, R366, R404).
-/
namespace Sys2Proof.Machine

/-! ### Status codes (R364) -/
def stOK : Nat := 0x0000
def stNOSESSION : Nat := 0x0001
def stVERSION : Nat := 0x0002
def stBADOP : Nat := 0x0003
def stBADARG : Nat := 0x0004
def stBADHANDLE : Nat := 0x0005
def stPAYLOAD : Nat := 0x0006
def stRESPSIZE : Nat := 0x0007
def stNOLOCK : Nat := 0x0008
def stLOCKED : Nat := 0x0009
def stACCESS : Nat := 0x000A
def stNORES : Nat := 0x000B
def stBUSY : Nat := 0x000C
def stSTATE : Nat := 0x000D
def stUNSUPPORTED : Nat := 0x000E
def stREMOTE : Nat := 0x000F
def stVERIFY : Nat := 0x0010
def stCONFIG : Nat := 0x0011
def stTIMEOUT : Nat := 0x0012
def stABORTED : Nat := 0x0013

/-- How a command ends: status, handle (none for the command's own), detail, the 32 result bytes' front, the response. -/
structure Answer where
  status : Nat := 0
  handle : Option Nat := none
  detail : Nat := 0
  results : List Byte := []
  resp : List Byte := []
  deriving DecidableEq, Repr

/-- An answer of a status with a detail. -/
def answer (status detail : Nat) : Answer := { status := status, detail := detail }

/-! ### The places of a pair (R353) -/

def cmdSlot (q i : Nat) : Nat := mailboxBase + 0x10000 + 0x8000 * q + 64 * (i % 256)
def cplSlot (q i : Nat) : Nat := mailboxBase + 0x14000 + 0x8000 * q + 64 * (i % 256)
def payArea (q : Nat) : Nat := mailboxBase + 0x40000 + 0x20000 * q
def inboxSlot (q i : Nat) : Nat := mailboxBase + 0xC0000 + 0x4000 * q + 1024 * (i % 16)
def outboxSlot (q i : Nat) : Nat := mailboxBase + 0xD0000 + 0x4000 * q + 1024 * (i % 16)

/-- Bytes cut or filled with zeros to a length. -/
def padTo (n : Nat) (l : List Byte) : List Byte := l.take n ++ List.replicate (n - l.length) 0

/-! ### Completions (R363, R366) -/

/-- The message of a completion of pair `q`, sent or coalesced. -/
def Mod.cplMessage (m : Mod) (q : Nat) : Mod :=
  if m.rd F.MBX_INTR_COAL_US = 0 then m.msix q
  else if m.host.windows.any (·.1 == q) then
    { m with host := { m.host with windows := m.host.windows.map (fun w => if w.1 = q then (q, w.2.1, true) else w) } }
  else { m.msix q with host := { (m.msix q).host with windows := (q, m.mono + 1000 * m.rd F.MBX_INTR_COAL_US, false) :: m.host.windows } }

/-- The bytes of a completion slot. -/
def Mod.cplBytes (m : Mod) (c : LongCmd) (a : Answer) (status : Nat) : List Byte :=
  leBytes 4 c.tag ++ leBytes 2 c.opcode ++ leBytes 2 status ++ leBytes 4 (a.handle.getD c.handle) ++ leBytes 4 a.resp.length ++
  leBytes 4 a.detail ++ leBytes 2 (if c.q < 4 then c.slot else 0) ++ leBytes 2 0 ++ leBytes 8 m.now ++ padTo 32 a.results

/-- The bytes of response a command has room for (R363, R404). -/
def LongCmd.room (c : LongCmd) : Nat := if c.q = 4 then Nat.min c.respMax 960 else c.respMax

/-- A command completes: the response, the completion, its index and message; a relayed one's reply leaves with the
Goose (R404). -/
def Mod.complete (m : Mod) (c : LongCmd) (a : Answer) : Mod :=
  let status := if a.status = stOK ∧ a.resp.length > c.room then stRESPSIZE else a.status
  let bytes := m.cplBytes c a status
  let resp := a.resp.take c.room
  if c.q < 4 then
    let m := m.sdWrite (payArea c.q + c.respOff) resp
    let i := m.rd F.MBX_Q_CPL_PROD_INDEX c.q
    let m := (m.setBytes (cplSlot c.q i) bytes).wr F.MBX_Q_CPL_PROD_INDEX c.q ((i + 1) % 65536)
    m.iff (!c.noirq) (fun m => m.cplMessage c.q)
  else if c.q = 4 then m.emit (.sideband c.sess 0x08 c.slot 0 (bytes ++ resp))
  else m.emit (.sideband c.sess 0x07 c.slot a.status a.resp)

/-- A long command of an opcode ends, if one is under way. -/
def Mod.finishLong (m : Mod) (opcode : Nat) (a : Answer) : Mod :=
  match m.long.find? (·.opcode == opcode) with
  | some c => ({ m with long := m.long.erase c }).complete c a
  | none => m

/-- A long command begins: it is kept until its end. -/
def Mod.beginLong (m : Mod) (c : LongCmd) : Mod := { m with long := m.long ++ [c] }

end Sys2Proof.Machine
end

