-- ==== Sys2Proof/Machine/LinkBase.lean ====
section
/-!
DEFINITION. Sys2Proof/Machine/LinkBase.lean: the end of a link, sending, routing, requests (R298 to R311, R314).
-/
namespace Sys2Proof.Machine

/-! ### Castlings that come to nothing (R433) -/

/-- A castling is refused: REFUSED, REASON and EV245. -/
def Mod.castleRefuse (m : Mod) (reason : Nat) : Mod :=
  ((m.put F.TWIN_STATUS_REFUSED 0 true).wr F.TWIN_STATUS_REASON 0 reason).raise 245

/-- A proposal, or a standby's request, that can no longer be agreed goes, as one refused, and with it the removal that was to follow: its CASTLE
completes with STATE (DESIGN CHOICE, log entry 70). -/
def Mod.proposalLost (m : Mod) (reason : Nat) : Mod :=
  if m.twin.propose.isNone && m.twin.asked.isNone then m
  else
    let m := { m with twin := { m.twin with propose := none, asked := none, castleOnEject := false } }
    (m.castleRefuse reason).finishLong 0x0702 (answer stSTATE (m.rd F.MBX_STATE_STATE))

/-! ### The end of a link (R298, R299, R427) -/

/-- The twin link's end (R427): readiness goes, synchronisation starts again when it returns, no proposal waits for it; the heartbeats' loss is declared in its time
(R428). -/
def Mod.twinLinkDown (m : Mod) : Mod :=
  let was := m.flag F.TWIN_STATUS_LINK_UP
  let ready := if m.isStandby && m.flag F.TWIN_STATUS_READY then m.twin.hbRecv else m.twin.wasReady
  let m := (m.put F.TWIN_STATUS_LINK_UP 0 false).put F.TWIN_STATUS_READY 0 false
  let m := m.wr F.TWIN_STATUS_SYNC 0 0
  let m := { m with twin := { m.twin with pass := none, passGood := true, passSeen := false, fullSeen := false, wasReady := ready } }
  (m.iff was (fun m => m.raise 244)).proposalLost 5

/-- A link is no longer usable: what waited on it or was not acknowledged is lost, its members are gone, and so is the
parent behind it. -/
def Mod.linkDrop (m : Mod) (l : Nat) : Mod :=
  let child := (m.link l).child
  let m := m.setLink l {}
  let m := { m with req := m.req.map (fun (r : MeshReq) => if r.via = some l then { r with lost := true } else r) }
  let m := (m.put F.MESH_LINK_STATUS_ATTESTED l false).wr F.MESH_LINK_STATUS_REASON l 0
  let m := m.lanesDark (l / 2) (splitMask (m.rd F.MESH_LG_CTRL_SPLIT (l / 2)) (l % 2))
  let m := m.reparent
  let m := m.iff (m.isTwinLink l || (m.flag F.TWIN_STATUS_LINK_UP && m.twinLink.isNone)) Mod.twinLinkDown
  m.iff child (fun m => m.childGone l)

/-- A link at t0 of R298, or down where it may not train. -/
def Mod.linkStart (m : Mod) (l : Nat) : Mod :=
  (m.linkDrop l).setLinkState l (if m.linkThere l && m.lgTrains (l / 2) then 1 else 0)

/-- A link refused with a reason, which the peer is told (R299, R300). -/
def Mod.linkRefuse (m : Mod) (l reason : Nat) : Mod :=
  (((m.linkDrop l).signal (.refused l reason)).wr F.MESH_LINK_STATUS_REASON l reason).setLinkState l 6

/-- Both links of a lane group at t0: no lane shows what it showed under another SPLIT, and an Ethernet port that may not train is down. -/
def Mod.lgStart (m : Mod) (n : Nat) : Mod :=
  let m := m.iff (!m.lgTrains n) (fun m => m.ethDown n)
  ((m.lanesDark n 15).linkStart (2 * n)).linkStart (2 * n + 1)

/-! ### Refusals (R309) -/

/-- A refused or discarded flit: MESH_ERR and its count. -/
def Mod.meshErr (m : Mod) (kind : Nat) : Mod :=
  let m := m.iff (decide (0x20 ≤ kind) && decide (kind ≤ 0x26)) (fun m =>
    m.wr F.MESH_ERR_KIND 0 (m.rd F.MESH_ERR_KIND ||| 2 ^ (kind - 0x20)))
  m.count F.MESH_ERR_COUNT_COUNT

/-! ### Credits (R306, R308) -/

/-- Whether a request's response still waits to leave. -/
def Mod.answerWaits (m : Mod) (src tid : Nat) : Bool :=
  (upTo 16).any (fun l => (m.link l).waiting.any (fun w => match w.what with
    | .flit f => f.dst.toNat == src && f.tid.toNat == tid && decide (0x10 ≤ f.ftype.toNat) && decide (f.ftype.toNat ≤ 0x14)
    | _ => false))

/-- Requests in service whose responses have left complete: the credits they kept go back, and each lets one more of its lane group's go. -/
def Mod.serviceEnds (m : Mod) : Mod :=
  let gone := m.serving.filter (fun e => !m.answerWaits e.src e.tid)
  let m := { m with serving := m.serving.filter (fun e => m.answerWaits e.src e.tid) }
  m.each gone (fun m e =>
    let m := m.each e.owed (fun m vc => m.giveCredits e.link vc 1)
    if (m.serving.filter (fun x => x.link / 2 == e.link / 2)).length > 256 then m
    else match m.serving.find? (fun x => x.link / 2 == e.link / 2 && x.owed.contains 0) with
      | none => m
      | some x => { m with serving := m.serving.map (fun y => if y = x then { y with owed := y.owed.erase 0 } else y) }.giveCredits x.link 0 1)

/-- A request comes into service at its home: beyond 256 of a lane group its credit is kept until one completes, and a WRRUN keeps its flits'
credits until its ACK has gone. -/
def Mod.serviceBegins (m : Mod) (l : Nat) (f : Flit) (n : Nat) : Mod :=
  let busy := (m.serving.filter (fun x => x.link / 2 == l / 2)).length
  let keep := f.ftype.toNat = 6 ∨ busy ≥ 256
  let m := { m with serving := m.serving ++ [⟨l, f.src.toNat, f.tid.toNat, if keep then List.replicate n f.vc.toNat else []⟩] }
  if keep then m else m.giveCredits l f.vc.toNat n

/-- A credit comes back (R308): what waited for it leaves. -/
def Mod.creditReturn (m : Mod) (l vc : Nat) : Mod :=
  let k := m.link l
  ((m.setLink l { k with used := k.used.set vc (k.used.getD vc 0 - 1) }).pump l).serviceEnds

/-! ### Routing (R309) -/

/-- Whether a link runs v1. -/
def Mod.isV1 (m : Mod) (l : Nat) : Bool := !m.flag F.MESH_LINK_STATUS_V2 l

/-- The way of a flit toward node `d`: its link and that link's phase, or the refusal's kind. A `run` crosses a v1 link as single lines, which
are of VC 0 (R314). -/
def Mod.route (m : Mod) (d vc hops : Nat) (phase : Bool) (run : Bool := false) : Except Nat (Nat × Bool) :=
  if m.node = 0xFFF then .error 0x20
  else
    let cand := (if m.flag F.MESH_ROUTE_VALID d then [(m.rd F.MESH_ROUTE_LINK d, m.flag F.MESH_ROUTE_PHASE d)] else []) ++
      (if m.flag F.MESH_ROUTE_ALT_VALID d then [(m.rd F.MESH_ROUTE_ALT d, m.flag F.MESH_ROUTE_ALT_PHASE d)] else [])
    let use := cand.filter (fun e => m.linkCarries e.1 (if run && m.isV1 e.1 then 0 else vc))
    match use.find? (fun e => !(phase && !e.2)) with
    | some e => if hops + 1 ≥ 64 then .error 0x24 else .ok e
    | none => .error (if use.isEmpty then 0x20 else 0x25)

/-- Whether a flit is a request. -/
def isRequest (t : Nat) : Bool := decide (1 ≤ t) && decide (t ≤ 6)
/-- The local address a request's payload carries (R304). -/
def flitAddr (f : Flit) : Nat := bitsOf f.payload.toNat 0 52
/-- Its size in bytes, and the number of lines of a run. -/
def flitSize (f : Flit) : Nat := bitsOf f.payload.toNat 64 8
def flitLines (f : Flit) : Nat := bitsOf f.payload.toNat 72 8

/-- Whether a flit begins a run. -/
def isRun (f : Flit) : Bool := f.ftype == 0x05 || f.ftype == 0x06

/-- The single-line requests a run becomes on a v1 link (R314). -/
def singleLines (f : Flit) (data : List Flit) : List Flit :=
  let a := flitAddr f
  (upTo (flitLines f)).flatMap (fun i =>
    let head : Flit := { f with ftype := if f.ftype = 0x05 then 0x01 else 0x02, vc := 0, follow := if f.ftype = 0x05 then 0 else 1,
                                payload := BitVec.ofNat 512 (a + 64 * i + 64 * 2 ^ 64 + (if f.ftype = 0x05 then 0 else (2 ^ 64 - 1) * 2 ^ 128)) }
    if f.ftype = 0x05 then [head] else match data[i]? with
      | some d => [head, { d with vc := 0 }]
      | none => [head])

/-- A flit with the flits that follow it sent on a link back to back, as a v1 link needs them; `origin` is the link they came over. -/
def Mod.sendOn (m : Mod) (l : Nat) (ph : Bool) (f : Flit) (data : List Flit) (origin : Option Nat) : Mod :=
  let cross := fun (x : Flit) => { x with hops := x.hops + 1, phase := x.phase || ph }
  let v1 := m.isV1 l
  let f := if v1 then { f with deadline := 0, late := false } else f
  if v1 && isRun f then
    let m := match origin with
      | some o => m.giveCredits o f.vc.toNat (1 + data.length)
      | none => m
    m.sendParcels l none ((singleLines f data).map (fun x => .flit (cross x)))
  else m.sendParcels l origin ((f :: data).map (fun x => .flit (cross x)))

/-- A run of another node that goes on over a v1 link is noted, so that the answers to its lines can be put together (R314). -/
def Mod.convertRun (m : Mod) (l : Nat) (f : Flit) : Mod :=
  m.iff (m.isV1 l && isRun f) (fun m =>
    { m with runs := m.runs ++ [⟨f.ftype == 0x05, f.src.toNat, f.tid.toNat, f.dst.toNat, flitLines f, [], false⟩] })

/-- Whether a request may not go to a v1 node over a v1 link (R314): it, or a line of its run, lies at or above 2^48. -/
def Mod.v1Refuses (m : Mod) (l : Nat) (f : Flit) : Bool :=
  m.isV1 l && isRequest f.ftype.toNat && decide (flitAddr f + (if isRun f then 64 * (flitLines f - 1) else 0) ≥ 2 ^ 48)

/-- A NACK for a refused request (R309). -/
def nackOf (node : Nat) (f : Flit) (kind : Nat) : Flit :=
  ⟨f.src, BitVec.ofNat 12 node, 1, 0x14, 0, f.tid, f.epoch, 0, 0, 0, false, BitVec.ofNat 8 kind, false, false, 0⟩

/-- A response of this module sent toward its requester. -/
def Mod.respond (m : Mod) (f : Flit) (data : List Flit) : Mod :=
  match m.route f.dst.toNat f.vc.toNat 0 false with
  | .ok (l, ph) => m.sendOn l ph f data none
  | .error k => m.meshErr k

/-- A flit that came over link `o` for another node (R309): on its way, or refused, a request with a NACK. -/
def Mod.forward (m : Mod) (o : Nat) (f : Flit) (data : List Flit) : Mod :=
  let refuse := fun (m : Mod) (k : Nat) =>
    let m := (m.meshErr k).giveCredits o f.vc.toNat (1 + data.length)
    m.iff (isRequest f.ftype.toNat) (fun m => m.respond (nackOf m.node f k) [])
  match m.route f.dst.toNat f.vc.toNat f.hops.toNat f.phase (isRun f) with
  | .error k => refuse m k
  | .ok (l, ph) => if m.v1Refuses l f then refuse m 0x23 else (m.convertRun l f).sendOn l ph f data (some o)

/-! ### Requests (R310 to R312) -/

/-- A transaction ID no outstanding request has. -/
def Mod.freshTid (m : Mod) : Nat :=
  match (upTo (m.req.length + 1)).find? (fun i => !(m.req.any (fun r => r.tid == (m.nextTid + i) % 65536))) with
  | some i => (m.nextTid + i) % 65536
  | none => m.nextTid

/-- The core behind a requester, which may have several requests outstanding. -/
def Requester.core? : Requester → Option Nat
  | .core c => some c
  | .coreStore c => some c
  | _ => none

/-- Whether two requesters are one master (R312). -/
def Requester.sameMaster (a b : Requester) : Bool := a == b || (a.core?.isSome && a.core? == b.core?)

/-- Whether a request of VC 0 that would leave by link `l` waits for some of those `earlier` to its node: for the same master's that another
link took or that are held, so that they arrive in the order they were issued (R312); and by the alternative, for each one whose link failed
after taking it (R310). -/
def Mod.waitsFor (m : Mod) (who : Requester) (node l : Nat) (earlier : List MeshReq) : Bool :=
  let primary := m.flag F.MESH_ROUTE_VALID node && m.rd F.MESH_ROUTE_LINK node == l
  earlier.any (fun r => r.node == node && r.via != some l && (r.who.sameMaster who || (!primary && (r.lost || r.via.isNone))))

/-- Whether a new request is held. -/
def Mod.holdsRequest (m : Mod) (who : Requester) (node vc l : Nat) : Bool := vc == 0 && m.waitsFor who node l m.req

/-- A request leaves for another node (R311): its TID, or the kind it is refused with. -/
def Mod.request (m : Mod) (who : Requester) (node ftype a size epoch deadline : Nat) (payload : BitVec 512) (tags : BitVec 4)
    (data : List Flit) : Mod × Except Nat Nat :=
  let vc := if ftype = 0x06 then 3 else 0
  match m.route node vc 0 false (ftype == 0x05 || ftype == 0x06) with
  | .error k => (m.meshErr k, .error k)
  | .ok (l, ph) =>
    let tid := m.freshTid
    let run := ftype = 0x05 ∨ ftype = 0x06
    let pay := payload ||| BitVec.ofNat 512 (a % 2 ^ 52 + (if run then 0 else size % 256) * 2 ^ 64 + (if run then size / 64 else 0) * 2 ^ 72)
    let f : Flit := ⟨BitVec.ofNat 12 node, BitVec.ofNat 12 m.node, BitVec.ofNat 2 vc, BitVec.ofNat 6 ftype, BitVec.ofNat 40 deadline, BitVec.ofNat 16 tid,
      BitVec.ofNat 6 epoch, tags, BitVec.ofNat 5 data.length, 0, false, 0, false, false, pay⟩
    let data := data.map (fun d => { d with tid := BitVec.ofNat 16 tid, vc := BitVec.ofNat 2 vc })
    if m.v1Refuses l f then (m.meshErr 0x23, .error 0x23)
    else
      let held := m.holdsRequest who node vc l
      let lines := if run && m.isV1 l then size / 64 else 1
      let m := { m with req := m.req ++ [MeshReq.mk tid (if held then none else some l) node a size deadline who m.mono lines [] vc false], nextTid := (tid + 1) % 65536 }
      if held then ({ m with heldReqs := m.heldReqs ++ [(tid, f :: data)] }, .ok tid)
      else (m.sendOn l ph f data none, .ok tid)

/-- The requests to a node held behind others go out, in their order, once none of those before them holds them (R310, R312). -/
def Mod.releaseHeld (m : Mod) (node : Nat) : Mod :=
  match m.route node 0 0 false with
  | .error _ => m
  | .ok (l, ph) =>
      m.each m.heldReqs (fun m h =>
        match m.req.find? (fun r => r.tid == h.1 && r.node == node) with
        | none => m
        | some r =>
          if m.waitsFor r.who node l (m.req.takeWhile (fun x => x.tid != h.1)) then m
          else
          let m := { m with heldReqs := m.heldReqs.filter (·.1 != h.1), req := m.req.map (fun r => if r.tid = h.1 then { r with via := some l } else r) }
          match h.2 with
          | f :: data => m.sendOn l ph f data none
          | [] => m)

/-- Every node's held requests that may go out do: a link has become usable. -/
def Mod.releaseAll (m : Mod) : Mod := m.each ((m.req.filter (fun r => r.via.isNone)).map (·.node)).eraseDups Mod.releaseHeld

/-- A request is over: it leaves the table, and what it held back goes out. -/
def Mod.endRequest (m : Mod) (tid : Nat) : Mod :=
  match m.req.find? (·.tid == tid) with
  | none => m
  | some r => ({ m with req := m.req.filter (·.tid != tid), heldReqs := m.heldReqs.filter (·.1 != tid) }).releaseHeld r.node

end Sys2Proof.Machine
end

