-- ==== Sys2Proof/Machine/EngineBase.lean ====
section
/-!
DEFINITION. Sys2Proof/Machine/EngineBase.lean: what the matrix engines and the transfer channels share (R330 to R333,
R340, R341, R344 to R348): reading descriptors, their keys, the writes of their command registers.
-/
namespace Sys2Proof.Machine

/-- The name of R332's status codes. -/
def esOK : Nat := 0
def esKEY : Nat := 1
def esACCESS : Nat := 2
def esDESC : Nat := 3
def esOVERLAP : Nat := 4
def esREMOTE : Nat := 5
def esNOTPD : Nat := 6
def esABORTED : Nat := 7
def esMEMERR : Nat := 8
def esMESH : Nat := 9

/-- The master of a matrix engine and of a transfer channel (R22). -/
def mxMaster (g : Nat) : Nat := 50 + g
def xfrMaster (n : Nat) : Nat := 34 + n

/-- Whether a descriptor may lie at a local address (R330). -/
def descPlace (a n : Nat) : Bool :=
  let ok := fun (t : Target) => match t with
    | .dram => true
    | .scratch _ _ => true
    | .coreScratch _ => true
    | _ => false
  ok (targetOf a) && ok (targetOf (a + n - 1))

/-- The global address of a local one. -/
def Mod.globalAddr (m : Mod) (a : Nat) : Nat := m.node * 2 ^ 52 + a

/-- The lines of an access checked in order, up to the first refused one: its kind and address. -/
def Mod.passLines (m : Mod) (q : Acc) : List (Nat × Nat) → Mod × Option (Nat × Nat)
  | [] => (m, none)
  | p :: rest => match m.passGate { q with addr := p.1, size := p.2 } with
    | (m, some k) => (m, some (k, p.1))
    | (m, none) => m.passLines q rest

/-- A descriptor of `n` bytes read whole with the tags of its granules, through an active sweep's filter (R163, R330), in accesses of one line: its
bytes and tags, or the status code, subcode and failing local address. -/
def Mod.engineDesc (m : Mod) (master a n : Nat) : Mod × Except (Nat × Nat × Option Nat) (List Byte × List Bool) :=
  if !descPlace a n then (m, .error (esDESC, 0, none))
  else
    match m.passLines ⟨master, false, 0, 0, a, n, .load⟩ (linePieces 3 a n) with
    | (m, some (k, at_)) => (m, .error (esACCESS, k, some at_))
    | (m, none) =>
      let (m, g) := m.rawRead a n
      if g.poison then (m, .error (esMEMERR, 0, some a))
      else (m, .ok (g.data, (upTo (n / 16)).map (fun i => (m.filterKey (Key.ofBytes ((g.data.drop (16 * i)).take 16) (m.tagAt (a + 16 * i)))).tag)))

/-- A little-endian field of a descriptor. -/
def descField (d : List Byte) (off n : Nat) : Nat := ofLeBytes ((d.drop off).take n)

/-- The key at an offset of a descriptor, filtered by an active sweep (R163). -/
def Mod.descKey (m : Mod) (d : List Byte) (tags : List Bool) (off : Nat) : Key :=
  m.filterKey (Key.ofBytes ((d.drop off).take 16) (tags.getD (off / 16) false))

/-- A local effective address written by an engine to a descriptor it has read. -/
def Mod.engineWrite (m : Mod) (master a : Nat) (bs : List Byte) : Mod :=
  match m.passGate ⟨master, false, 0, 0, a, bs.length, .store⟩ with
  | (m, some _) => m
  | (m, none) => m.rawWrite a bs none none

/-! ### Matrix engine registers (R333, R340, R347) -/

def Mod.mxJob (m : Mod) (g : Nat) : Option MxJob := Tbl.get none m.mx g
def Mod.setMxJob (m : Mod) (g : Nat) (j : Option MxJob) : Mod := { m with mx := Tbl.set none m.mx g j }

/-- A write of MX_PROD: ignored with RING_ERR of the region where R95 forbids it. -/
def Mod.mxProd (m : Mod) (g i : Nat) : Mod :=
  if prodMoves (m.rd F.MX_PROD_INDEX g) (m.rd F.MX_CONS_INDEX g) i (m.rd F.MX_RING_SIZE_SLOTS g) then m.wr F.MX_PROD_INDEX g i
  else m.put F.SPL_RGN_STATUS_RING_ERR g true

/-- A write of ENABLE. -/
def Mod.mxEnable (m : Mod) (g : Nat) (en : Bool) : Mod := m.put F.MX_CTRL_ENABLE g en

/-- A write of 1 to RESUME. -/
def Mod.mxResume (m : Mod) (g : Nat) : Mod := m.put F.MX_STATUS_STOPPED g false

/-- A write of 1 to ABORT: the running job ends with ABORTED after its current tile, which is free. One whose descriptor's read was refused keeps that
ending (R330). -/
def Mod.mxAbort (m : Mod) (g : Nat) : Mod :=
  match m.mxJob g with
  | some j =>
    let (k, m') := m.fresh
    if j.code = esOK then m'.setMxJob g (some { j with code := esABORTED, sub := 0, cycles := none, tiles := some ((Config.mxTileAt k).toNat + 1) })
    else m
  | none => m

/-- Matrix engine `g` at its reset values (R451). -/
def Mod.mxReset (m : Mod) (g : Nat) : Mod :=
  let rs : List Reg := [.MX_CTRL, .MX_STATUS, .MX_RING_BASE, .MX_RING_SIZE, .MX_PROD, .MX_CONS, .MX_FAIL, .MX_JOBS, .MX_CYCLES]
  (m.each rs (fun m r => m.setReg r g (r.resetVal g))).setMxJob g none

/-! ### Transfer channel registers (R341, R344, R345, R348) -/

def Mod.xfrRun (m : Mod) (n : Nat) : Option XfrRun := Tbl.get none m.xfr n
def Mod.setXfr (m : Mod) (n : Nat) (r : Option XfrRun) : Mod := { m with xfr := Tbl.set none m.xfr n r }

/-- How a descriptor just read stands (R331, R332, R345): at its end already, or to be run. -/
def Mod.xfrCheck (m : Mod) (d : List Byte) (tags : List Bool) : Option (Nat × Nat × Option Nat) :=
  let next := descField d 0x28 8
  let flags := descField d 0x34 2
  let len := descField d 0x20 8
  if next % 64 ≠ 0 ∨ next ≥ 2 ^ 52 ∨ flags > 1 then some (esDESC, 0, none)
  else match (m.descKey d tags 0).check m.node 0 len rLD, (m.descKey d tags 16).check m.node 0 len rST with
    | .error e, _ => some (esKEY, e, none)
    | .ok _, .error e => some (esKEY, e, none)
    | .ok _, .ok _ => if len = 0 then some (esOK, 0, none) else none

/-- A channel takes the descriptor at a local address. -/
def Mod.xfrTake (m : Mod) (n a : Nat) : Mod :=
  let m := (m.wr F.XFR_CH_CUR_ADDR n (a / 64)).wr F.XFR_CH_DONE_BYTES n 0
  match m.engineDesc (xfrMaster n) a 64 with
  | (m, .error e) => m.setXfr n (some ⟨a, [], [], 0, none, none, false, false, none, some (e.1, e.2.1, e.2.2.map m.globalAddr)⟩)
  | (m, .ok (d, tags)) =>
    m.setXfr n (some ⟨a, d, tags, 0, none, none, false, false, none, m.xfrCheck d tags⟩)

/-- A write of 1 to START; lamb service withholds the engine (R398). -/
def Mod.xfrStart (m : Mod) (n : Nat) : Mod :=
  if !m.phase.full then m
  else if m.flag F.XFR_CH_STATUS_BUSY n then m.put F.XFR_CH_STATUS_CMDLOST n true
  else (m.put F.XFR_CH_STATUS_BUSY n true).xfrTake n (64 * m.rd F.XFR_CH_HEAD_ADDR n)

/-- A write of 1 to ABORT, and the reset of a channel (R449): it stops once nothing is in flight. -/
def Mod.xfrAbort (m : Mod) (n : Nat) : Mod :=
  match m.xfrRun n with
  | none => m
  | some r =>
    m.setXfr n (some { r with aborting := true, fin := if r.fin.isNone && r.tid.isNone then some (esABORTED, 0, none) else r.fin })

end Sys2Proof.Machine
end

