-- ==== Sys2Proof/Machine/PortBase.lean ====
section
/-!
DEFINITION. Sys2Proof/Machine/PortBase.lean: what the port families share (R23 to R35, R51, R93): classes and effective
modes, the mode-change sequence, the PORT_SAFE action, holds, die isolation, port faults.
-/
namespace Sys2Proof.Machine

/-! ### Classes and modes -/

/-- The modes a network class permits (R25); a reserved class is NONE. -/
def classModes (c : Nat) : List Nat :=
  match c with
  | 1 => [0, 1]
  | 2 => [0, 2, 3, 6]
  | 3 => [0, 4, 5]
  | 4 => [0, 2, 3, 4, 5, 6, 8, 9]
  | 5 => [0, 6, 8]
  | 6 => [0, 7, 8, 9]
  | 7 => [0, 7, 8, 10]
  | 8 => [0, 1, 2, 3, 6]
  | _ => [0]

/-- The coding resistor of a class in ohms (R25); none for open. -/
def classOhms (c : Nat) : Option Nat :=
  match c with
  | 1 => some 4990
  | 2 => some 10000
  | 3 => some 20000
  | 4 => some 40200
  | 5 => some 80600
  | 6 => some 162000
  | 7 => some 324000
  | 8 => some 649000
  | _ => none

/-- Whether a measured coding resistance passes the network check of a class (R28). -/
def ohmsPass (c ohms : Nat) : Bool :=
  match classOhms c with
  | some r => decide (20 * (if ohms ≥ r then ohms - r else r - ohms) ≤ r)
  | none => decide (ohms ≥ 1000000)

/-- The modes that drive an output. -/
def isOutMode (e : Nat) : Bool := e == 4 || e == 5 || e == 9

def Mod.effMode (m : Mod) (p : Nat) : Nat := m.rd F.PORT_STATUS_EFF_MODE p
def Mod.portClass (m : Mod) (p : Nat) : Nat := m.rd (F.PBLK_CLASS_CLASS (p % 8)) (p / 8)

/-- Whether an odd port is claimed by its even port's mode 10 (R27). -/
def Mod.claimed (m : Mod) (p : Nat) : Bool := p % 2 == 1 && m.rd F.PORT_MODE_MODE (p - 1) == 10

/-- The other port of a pair. -/
def pairOf (p : Nat) : Nat := if p % 2 = 0 then p + 1 else p - 1

/-- The first two cases of R26 for a mode, as the MISREASON they give; a failed check gives its own whatever the class permits (R28). -/
def Mod.modeBar (m : Mod) (p mode : Nat) : Option Nat :=
  if (m.port p).failed then some 1
  else if !(classModes (m.portClass p)).contains mode then some 0
  else none

/-- The effective mode of a port and the mismatch reason, if any (R26, R27, R29). -/
def Mod.effOf (m : Mod) (p : Nat) : Nat × Option Nat :=
  let mode := if m.claimed p then 10 else m.rd F.PORT_MODE_MODE p
  if !m.flag F.CAR_STATUS_DESC_OK || (m.die (portDie p)).isolated then (0, none)
  else if mode = 10 then
    match m.modeBar p 10, m.modeBar (pairOf p) 10 with
    | some r, _ => (0, some r)
    | none, some _ => (0, some 2)
    | none, none => (10, none)
  else match m.modeBar p mode with
    | some r => (0, some r)
    | none => (mode, none)

/-! ### Faults of a port -/

/-- A sticky PORT_FAULT bit set by a detection, and the block's fault event if enabled (R52). -/
def Mod.portFault (m : Mod) (p bit : Nat) : Mod :=
  let m := m.setReg .PORT_FAULT p (withBits (m.reg .PORT_FAULT p) bit 1 1)
  m.iff (bitAt (m.rd F.PORT_FAULT_EN_EN p) bit) (fun m => m.raise (33 + 2 * portBlock p))

/-- MISMATCH and MISREASON as R26 and R27 give them. Once MISMATCH is 0 again MISREASON keeps the last reason (DESIGN CHOICE, log
entry 79: the spec does not say what it reads then). -/
def Mod.setMismatch (m : Mod) (p : Nat) (r : Option Nat) : Mod :=
  match r with
  | none => m.put F.PORT_STATUS_MISMATCH p false
  | some k =>
    let was := m.flag F.PORT_STATUS_MISMATCH p
    let m := (m.put F.PORT_STATUS_MISMATCH p true).wr F.PORT_STATUS_MISREASON p k
    m.iff (!was) (fun m => m.portFault p 0)

/-! ### Windows -/

/-- The newest window opened at an instant. -/
def openWin (l : List Window) (t : Nat) : List Window := ⟨t, none⟩ :: l

/-- Every open window closed at an instant: one lies under later windows that have their ends. -/
def closeWin (l : List Window) (t : Nat) : List Window :=
  l.map (fun w => match w.till with
    | none => { w with till := some t }
    | some _ => w)

/-- The newest window ended at an instant, whether it was open or had an end. -/
def endWin (l : List Window) (t : Nat) : List Window :=
  match l with
  | [] => []
  | w :: rest => { w with till := some t } :: rest

/-- Every window cut at an instant that it has not ended before. -/
def cutWin (l : List Window) (t : Nat) : List Window :=
  l.map (fun w => match w.till with
    | none => { w with till := some t }
    | some e => { w with till := some (Nat.min e t) })

/-- Whether an instant lies in one of the windows. -/
def inWindows (l : List Window) (t : Nat) : Bool :=
  l.any (fun w => decide (w.from_ ≤ t) && (match w.till with
    | none => true
    | some e => decide (t < e)))

/-! ### Settling -/

/-- The period of chain A or B of a port in nanoseconds, 0 for a chain that is off (R69). -/
def Mod.chainPeriod (m : Mod) (p : Nat) (b : Bool) : Nat :=
  50 * (if b then m.rd F.SPL_PORT_CHB_PERIOD p else m.rd F.SPL_PORT_CHA_PERIOD p)

def Mod.chainType (m : Mod) (p : Nat) (b : Bool) : Nat :=
  if b then m.rd F.SPL_PORT_CHB_TYPE p else m.rd F.SPL_PORT_CHA_TYPE p

/-- Settling time of a chain (R70). -/
def Mod.chainSettle (m : Mod) (p : Nat) (b : Bool) : Nat :=
  (if m.chainType p b = 0 then 3 else 24) * m.chainPeriod p b

/-- Group delay of a chain at DC (R70), in nanoseconds. -/
def Mod.chainDelay (m : Mod) (p : Nat) (b : Bool) : Nat :=
  if m.chainType p b = 0 then m.chainPeriod p b / 2 else 12 * m.chainPeriod p b

/-- The effective modes in which a source is valid (R73). -/
def sourceModes (src p : Nat) : List Nat :=
  match src with
  | 1 | 2 => [2, 3, 4, 5, 6]
  | 3 => if p % 2 = 0 then [7, 10] else [7]
  | 4 | 5 => [7]
  | 6 => [8, 9]
  | 7 => if p % 2 = 0 then [10] else []
  | _ => []

/-- Whether record `k` of port p = k / 16 has instants (R74). -/
def Mod.recLive (m : Mod) (k : Nat) : Bool :=
  let src := m.rd F.SPL_REC_CTRL_SOURCE k
  src != 0 && m.chainPeriod (k / 16) (src == 2) != 0 && m.flag F.SPL_BLK_CTRL_ENABLE (portBlock (k / 16))

/-- The settling time that R32 adds to t2 for an effective mode. -/
def Mod.settleOf (m : Mod) (p mode : Nat) : Nat :=
  if mode = 0 ∨ mode = 1 ∨ mode = 9 then 0
  else
    match (span (16 * p) 16).find? (fun k => m.recLive k &&
      (sourceModes (m.rd F.SPL_REC_CTRL_SOURCE k) p).contains mode &&
      (if mode = 4 ∨ mode = 5 then decide (m.rd F.SPL_REC_CTRL_SOURCE k ≤ 2) else true)) with
    | some k => m.chainSettle p (m.rd F.SPL_REC_CTRL_SOURCE k == 2)
    | none => 0

/-! ### Reflectometry, learned entries, HART frames given up -/

/-- The DIAG_TDR whose run on port `p` has ended completes (R365). -/
def Mod.tdrAnswer (m : Mod) (p : Nat) (ok : Bool) : Mod :=
  match m.long.find? (fun c => c.opcode == 0x0502 && c.arg == p) with
  | none => m
  | some c =>
    let buf := Tbl.get [] m.tdrBuf (portBlock p)
    let a : Answer := if ok then { resp := leBytes 4 (m.reg .PORT_TDR_RESULT p) ++ buf.flatMap (fun w => leBytes 2 w.toNat) } else answer stABORTED 0
    ({ m with long := m.long.erase c }).complete c a

/-- A reflectometry run ends early (R54): TDRDONE with ABORTED, the buffer's words undefined. INDEX and NEG keep what the run before left
(DESIGN CHOICE, log entry 79: R54 gives ABORTED alone). -/
def Mod.tdrAbort (m : Mod) (p : Nat) : Mod :=
  match (m.port p).tdrFrom with
  | none => m
  | some _ =>
    let (k, m) := m.fresh
    let m := m.setPort p { m.port p with tdrFrom := none }
    let m := { m with tdrBuf := Tbl.set [] m.tdrBuf (portBlock p) ((List.range 16384).map (Config.tdrWord k)) }
    (((m.put F.PORT_STATUS_TDRBUSY p false).put F.PORT_STATUS_TDRDONE p true).put F.PORT_TDR_RESULT_ABORTED p true).tdrAnswer p false

/-- A field of a forwarding entry (R64). -/
def FwdEntry.fld (e : FwdEntry) (lo w : Nat) : Nat := bitsOf e.bits.toNat lo w

/-- FSW_STATUS.USED counts the valid forwarding entries. -/
def Mod.fswCount (m : Mod) : Mod :=
  m.wr F.FSW_STATUS_USED 0 (m.fwd.filter (fun e => e.2.fld 60 1 == 1)).length

/-- The switch removes the entries it learned from a port (R31). -/
def Mod.fwdForget (m : Mod) (p : Nat) : Mod :=
  ({ m with fwd := m.fwd.filter (fun e => !(e.2.fld 60 1 == 1 && e.2.fld 61 1 == 0 && e.2.fld 74 3 == 0 && e.2.fld 64 10 == p)) }).fswCount

/-- The HART transmit slot with ring index `i` of region `g` (R66). -/
def htxSlot (g i : Nat) : Nat := signalBase g + 0x24000 + (i % 64) * 512

/-- Finished indices at the front of a transmit ring are released (R95): the new consumer index and what stays. -/
def releaseFront : Nat → Nat → List Nat → Nat × List Nat
  | 0, cons, done => (cons, done)
  | k + 1, cons, done => if done.contains cons then releaseFront k ((cons + 1) % 65536) (done.filter (· != cons)) else (cons, done)

/-- A HART transmit slot has its result and is released in ring order (R95, R99). -/
def Mod.htxFinish (m : Mod) (g i result : Nat) : Mod :=
  let m := m.setNum (htxSlot g i + 4) 2 result
  let (c, done) := releaseFront 64 (m.rd F.SPL_RGN_HTX_CONS_INDEX g) (i :: Tbl.get [] m.htxDone g)
  { m.wr F.SPL_RGN_HTX_CONS_INDEX g c with htxDone := Tbl.set [] m.htxDone g done }

/-- The HART frame in transmission on a port is aborted by a mode change (R99, result 4). -/
def Mod.hartAbort (m : Mod) (p : Nat) : Mod :=
  match (m.port p).hartTx with
  | none => m
  | some (i, _, _) => (m.setPort p { m.port p with hartTx := none }).htxFinish (portRegion p) i 4

/-! ### Drive -/

/-- The DAC code of a port replaced and its stage on (R41). -/
def Mod.drive (m : Mod) (p code : Nat) : Mod :=
  let m := m.wr F.PORT_OUT_CODE p code
  m.setPort p { m.port p with driving := true }

/-- What a port's output contacts carry (R30, R423, R424): its code while its stage is on and the module may drive, else
high impedance. -/
def Mod.contact (m : Mod) (p : Nat) : Option Nat :=
  if (m.port p).driving && m.mayDrive then some (m.rd F.PORT_OUT_CODE p) else none

/-- The contacts at high impedance. PORT_OUT.CODE keeps the last code driven (DESIGN CHOICE, log entry 79: R62 does not say what it reads
then). -/
def Mod.hiZ (m : Mod) (p : Nat) : Mod := m.setPort p { m.port p with driving := false }

/-- The PORT_SAFE action of an output port (R51, R34): hold drives the code last committed, and code 0 while nothing has been
committed in the mode. Outputs that a loss response has put off stay off (R435). -/
def Mod.applySafe (m : Mod) (p : Nat) : Mod :=
  if m.twin.lossAct = 2 then m.hiZ p
  else match m.rd F.PORT_SAFE_ACTION p with
  | 0 => m.drive p (if (m.port p).committed then m.rd F.PORT_OUT_CODE p else 0)
  | 1 => m.drive p (m.rd F.PORT_SAFE_SAFE_CODE p)
  | _ => m.hiZ p

/-! ### The mode-change sequence -/

/-- A captured code that an event has overtaken (R490): it is not driven; APPLIED and SAFEREQ become OVERRIDDEN. -/
def Mod.overtake (m : Mod) (p : Nat) : Mod :=
  match m.capture p with
  | some c => if c.applied then m else m.setCapture p (some { c with overridden := true })
  | none => m

/-- Whether an odd port of a quadrature pair is past t2 while its even port is not, so that its t5 is not known yet (R32). -/
def Mod.waitsForEven (m : Mod) (p : Nat) : Bool :=
  m.effMode p == 10 && p % 2 == 1 && ((m.port (p - 1)).phase == .reconf || (m.port (p - 1)).phase == .check)

/-- TRANSITION ends once its conditions are met (R32): the sequence is past t2, t3 has passed for an output mode, t5 has come. -/
def Mod.portMaybeEnd (m : Mod) (p : Nat) : Mod :=
  let q := m.port p
  if q.phase = .run && !q.awaitT3 && !m.waitsForEven p && decide (q.t5 ≤ m.now) then
    (m.setPort p { q with phase := .idle, awaitT5 := false }).put F.PORT_STATUS_TRANSITION p false
  else m

/-- Conditions the new effective mode does not detect are no longer present (R52), and its modem's carrier is gone (R45). An OPEN bit set
in a loop mode stays 1 in mode 6 or 8, as in a change back, until the new mode's test has run (DESIGN CHOICE, log entry 79). -/
def Mod.clearDiag (m : Mod) (p e : Nat) : Mod :=
  let off := fun (m : Mod) (f : Fld) (modes : List Nat) => m.iff (!modes.contains e) (fun m => m.put f p false)
  let m := off (off m F.PORT_STATUS_OPEN [2, 3, 6, 8]) F.PORT_STATUS_OVERRANGE [2, 3, 6]
  let m := off (off m F.PORT_STATUS_OUTDEV [4, 5, 9]) F.PORT_STATUS_HART_CD [3, 5]
  m.iff (e == 0) (fun m => m.put F.PORT_STATUS_LEAK p false)

/-- The 64-bit counter of a port. -/
def Mod.counter (m : Mod) (p : Nat) : Nat := m.rd F.PORT_COUNT_LO_COUNT p + m.rd F.PORT_COUNT_HI_COUNT p * 2 ^ 32

/-- What the sampler has counted and confirmed up to now is kept as a spell. -/
def Mod.endSpell (m : Mod) (p : Nat) : Mod :=
  let q := m.port p
  if q.edges.isEmpty && q.qerrs.isEmpty && q.disc.isEmpty && m.counter p == 0 then m
  else m.setPort p { q with spells := ⟨m.now, m.counter p, q.edges, q.qerrs, q.disc⟩ :: q.spells }

/-- The counter of R48 and R49 set to 0 (R489), and the error counter of the mode (R62). -/
def Mod.zeroCount (m : Mod) (p : Nat) : Mod :=
  let m := m.endSpell p
  let m := ((m.setReg .PORT_COUNT_LO p 0).setReg .PORT_COUNT_HI p 0).setReg .PORT_LINK_ERR p 0
  m.setPort p { m.port p with edges := [], qerrs := [] }

/-- The sequence stops with effective mode off (R31, R32); the counters start again (R489), and a link port's link is gone. The quality
interval of R35 of a change that stops here, that another overtakes or that an isolation ends is over, whatever t5 it had: DESIGN CHOICE, log
entry 79, R35 knows no t5 of such a change. -/
def Mod.portStop (m : Mod) (p : Nat) : Mod :=
  let m := m.iff (m.effMode p == 1) (fun m => (m.fwdForget p).put F.PORT_STATUS_LINK_UP p false)
  let q := m.port p
  let m := m.setPort p { q with phase := .idle, awaitT3 := false, awaitT5 := false, checking := false, driving := false,
                                changes := cutWin q.changes m.now, tests := closeWin q.tests m.now }
  let m := (m.zeroCount p).clearDiag p 0
  (m.wr F.PORT_STATUS_EFF_MODE p 0).put F.PORT_STATUS_TRANSITION p false

/-- t0 of R31 for a change to effective mode `new`, or of range alone. A check that NETCHK began goes on where the new sequence runs none
itself and the new mode is none of 4, 5 and 9. A change committed before t2 of a change from off takes the mode entered as the old one, so
that no network check runs any more (DESIGN CHOICE, log entry 79: R31 does not say). -/
def Mod.portBegin (m : Mod) (p new : Nat) : Mod :=
  let old := m.effMode p
  let m := ((m.tdrAbort p).hartAbort p).overtake p
  let m := m.iff (old = 1) (fun m => (m.fwdForget p).put F.PORT_STATUS_LINK_UP p false)
  let m := m.iff (old ≠ new) (fun m => (m.zeroCount p).clearDiag p new)
  let q := m.port p
  let m := m.setPort p { q with phase := .reconf, oldEff := old, driving := false, awaitT3 := isOutMode new,
                                awaitT5 := true, committed := if old = new then q.committed else false,
                                checking := q.checking && old != 0 && !isOutMode new,
                                changes := openWin (cutWin q.changes m.now) m.now,
                                tests := if q.checking && old != 0 && !isOutMode new then q.tests else closeWin q.tests m.now }
  (m.wr F.PORT_STATUS_EFF_MODE p new).put F.PORT_STATUS_TRANSITION p true

/-- The bumpless changes of R33. -/
def bumpless (a b : Nat) : Bool := (a == 2 && b == 3) || (a == 3 && b == 2) || (a == 4 && b == 5) || (a == 5 && b == 4)

/-- The effective mode follows its causes (R26, R27): a new one is entered through R31, or through R33. -/
def Mod.portReeval (m : Mod) (p : Nat) (rangeChanged : Bool := false) : Mod :=
  let (e, r) := m.effOf p
  let old := m.effMode p
  let m := m.setMismatch p r
  if e = old && !rangeChanged then m
  else if bumpless old e && !rangeChanged then
    (((m.hartAbort p).zeroCount p).clearDiag p e).wr F.PORT_STATUS_EFF_MODE p e
  else m.portBegin p e

/-- t5 of a port's mode change known (R32): the end of the quality interval of R35, and of TRANSITION if it has come. -/
def Mod.portT5 (m : Mod) (p t5 : Nat) : Mod :=
  let q := m.port p
  (m.setPort p { q with t5 := t5, changes := endWin q.changes t5 }).portMaybeEnd p

/-- t2 of R31: the ends of the transition and of the quality interval are fixed (R32). The odd port of a quadrature pair takes the
t5 of its even port, and waits for it where the even port has not reached its t2. -/
def Mod.portT2 (m : Mod) (p : Nat) : Mod :=
  let e := m.effMode p
  let m := m.setPort p { m.port p with phase := .run }
  if m.waitsForEven p then m
  else
    let t5 := if e == 10 && p % 2 == 1 then (m.port (p - 1)).t5 else m.now + m.settleOf p e
    let m := m.portT5 p t5
    m.iff (e == 10 && p % 2 == 0 && m.effMode (p + 1) == 10 && (m.port (p + 1)).phase == .run) (fun m => m.portT5 (p + 1) t5)

/-- The sampler of a port starts low (R488); that of the odd port of a quadrature pair is channel B, whose level its even port holds. -/
def Mod.samplerLow (m : Mod) (p e : Nat) : Mod :=
  let m := m.endSpell p
  let m := m.setPort p { m.port p with levelA := false, pendDisc := none, disc := [] }
  m.iff (e == 10 && p % 2 == 1) (fun m => m.setPort (p - 1) { m.port (p - 1) with levelB := false })

/-- t1 of R31: a change to off ends; the sampler starts low (R488), and so does the read-back state of mode 9 (DESIGN CHOICE, log
entry 79: R488 names modes 7, 8 and 10 only); an output port takes its PORT_SAFE action (R34);
the network check follows if the port comes from off and does not behave as a standby's (R28, R30, R424). -/
def Mod.portT1 (m : Mod) (p : Nat) : Mod :=
  let e := m.effMode p
  let q := m.port p
  if e = 0 then
    (m.setPort p { q with phase := .idle, awaitT5 := false, t5 := m.now, changes := cutWin q.changes m.now }).put F.PORT_STATUS_TRANSITION p false
  else
    let m := m.iff (e == 7 || e == 8 || e == 9 || e == 10) (fun m => m.samplerLow p e)
    let m := m.iff (isOutMode e) (fun m => m.applySafe p)
    if q.oldEff = 0 && !m.asStandby then
      let q := m.port p
      m.setPort p { q with phase := .check, tests := openWin q.tests m.now }
    else m.portT2 p

/-- The coding resistance as PORT_NETCHK holds it (R62). -/
def ohmsReg (ohms : Nat) : Nat := if ohms ≥ 1000000 then 0xFFFFFF else ohms

/-- A port of a quadrature pair goes off because its partner's check failed (R27): where its own sequence has not had its network
check yet, it stops as at t2 with the check still to end, and that check gives it its own reason if it fails; where its change has not ended
otherwise, whatever mode it came from, its sequence stops with its partner's (R31, R32); else it leaves mode 10 through R31. -/
def Mod.pairStop (m : Mod) (p : Nat) : Mod :=
  let q := m.port p
  if q.oldEff = 0 && (q.phase = .reconf || q.phase = .check) then
    let m := m.portStop p
    let q := m.port p
    (m.setPort p { q with checking := true, tests := openWin q.tests m.now }).setMismatch p (some 2)
  else if q.phase ≠ .idle then (m.portStop p).setMismatch p (some 2)
  else m.portReeval p

/-- A network check of a port ends with a measured resistance (R28), whether inside R31 or outside it. -/
def Mod.checkDone (m : Mod) (p ohms : Nat) : Mod :=
  let q := m.port p
  if q.phase ≠ .check && !q.checking then m
  else
    let pass := ohmsPass (m.portClass p) ohms
    let m := (m.wr F.PORT_NETCHK_OHMS p (ohmsReg ohms)).put F.PORT_NETCHK_PASS p pass
    let m := m.setPort p { q with failed := !pass, checking := false, tests := closeWin q.tests m.now,
                                  passOhms := if pass then ohms else q.passOhms }
    let m := m.mirror (.check (Fin.ofNat 1024 p) pass (BitVec.ofNat 24 (ohmsReg ohms)))
    if q.phase = .check then
      if pass then m.portT2 p
      else
        let m := (m.portStop p).setMismatch p (some 1)
        m.iff (m.effMode (pairOf p) == 10) (fun m => m.pairStop (pairOf p))
    else
      let m := m.portReeval p
      m.iff (m.claimed (Nat.max p (pairOf p))) (fun m => m.portReeval (pairOf p))

/-! ### A configuration commit at the ports -/

/-- Whether a port's die link is up again after an isolation, so that a commit instant ends it (R51); none does while CRITICAL (R471). -/
def Mod.dieReturns (m : Mod) (d : Nat) : Bool :=
  (m.die d).isolated && (m.die d).hears && (m.die d).lostAt.isNone && !m.rgnDown (d / 2) && !m.flag F.PWR_THR_STATUS_CRITICAL

/-- Every port runs its network check as the carrier descriptor is accepted (R28, R29), but on a module that behaves as a standby (R30, R424)
and on a die that is not heard. That a twin primary whose TWIN_CLAIM is not asserted yet runs none then, and none later for it, is the model's
choice (DESIGN CHOICE, log entry 79: R28 has every port run it, R424 bars it). -/
def Mod.checkAll (m : Mod) : Mod :=
  m.iff (!m.asStandby) (fun m => m.each (upTo 1024) (fun m p =>
    let q := m.port p
    m.iff (!(m.die (portDie p)).isolated && q.phase == .idle && !q.checking)
      (fun m => m.setPort p { q with checking := true, tests := openWin q.tests m.now })))

/-- The mode a port asks for: its own, or 10 where its even port claims it (R27). -/
def Mod.modeAsked (m : Mod) (p : Nat) : Nat := if m.claimed p then 10 else m.rd F.PORT_MODE_MODE p

/-- Whether a port would leave off for the mode asked for, a failed check left aside (R28): a mode other than off that its class
permits, and for mode 10 the class of its pair's other port too. -/
def Mod.mayLeaveOff (m : Mod) (p : Nat) : Bool :=
  let mode := m.modeAsked p
  mode != 0 && (classModes (m.portClass p)).contains mode && (mode != 10 || (classModes (m.portClass (pairOf p))).contains 10)

/-- A configuration commit instant at the ports (R9, R31), given for each port the mode asked for and the range before
it: a port about to leave off forgets an earlier failed check, since R31 runs a new one; a port that stays off, its MODE off or
barred by its class, runs none and keeps it. DESIGN CHOICE, log entry 79: R26 does not say when a failed check stops counting. -/
def Mod.portsCommit (m : Mod) (old : List (Nat × Nat × Nat)) : Mod :=
  let m := m.each old (fun m o =>
    m.iff (o.2.1 != m.modeAsked o.1 && m.effMode o.1 == 0 && m.mayLeaveOff o.1) (fun m => m.setPort o.1 { m.port o.1 with failed := false }))
  m.each old (fun m o => m.portReeval o.1 (o.2.2 != m.rd F.PORT_MODE_RANGE o.1 && !(m.die (portDie o.1)).isolated))

/-! ### Isolation of a port die (R51) -/

/-- The action of a port die that has lost the main die, at one of its ports. -/
def Mod.isolatePort (m : Mod) (p : Nat) : Mod :=
  let out := isOutMode (m.effMode p)
  let m := ((m.tdrAbort p).hartAbort p).overtake p
  let m := (if out then m.applySafe p else m.hiZ p)
  let q := m.port p
  let m := m.setPort p { q with phase := .idle, awaitT3 := false, awaitT5 := false, checking := false,
                                changes := cutWin q.changes m.now, tests := closeWin q.tests m.now }
  let m := (m.zeroCount p).clearDiag p 0
  let m := m.put F.PORT_STATUS_LINK_UP p false
  ((m.wr F.PORT_STATUS_EFF_MODE p 0).put F.PORT_STATUS_TRANSITION p false).setMismatch p none

/-- A die's link as PBLK_CARRIER and SPL_BLK_STATUS show it. -/
def Mod.linkShow (m : Mod) (d : Nat) (up : Bool) : Mod :=
  m.each (span (4 * d) 4) (fun m b => (m.put F.PBLK_CARRIER_DIE_LINK b up).put F.SPL_BLK_STATUS_DIE_LOST b (!up))

/-- The main die hears die `d`, and the die the main die. -/
def Mod.dieHears (m : Mod) (d : Nat) : Mod := (m.setDie d { m.die d with hears := true, lostAt := none }).linkShow d true

/-- The ports of die `d`. -/
def diePorts (d : Nat) : List Nat := span (128 * d) 128

/-- Port die `d` isolates itself (R51). -/
def Mod.isolateDie (m : Mod) (d : Nat) : Mod :=
  let m := m.setDie d { m.die d with isolated := true, hears := false }
  m.each (diePorts d) Mod.isolatePort

/-- A port of a die that has returned: the drive of its isolation ends, and an earlier failed check counts no more where a new one runs. -/
def Mod.portReturn (m : Mod) (p : Nat) : Mod :=
  let q := m.port p
  m.setPort p { q with driving := false, failed := q.failed && !m.mayLeaveOff p }

/-- A commit instant at a die that has returned: each port runs R31 from off, both of a quadrature pair from the state of both. -/
def Mod.dieCommit (m : Mod) (d : Nat) : Mod :=
  if !m.dieReturns d then m
  else
    let m := m.setDie d { m.die d with isolated := false }
    (m.each (diePorts d) Mod.portReturn).each (diePorts d) (fun m p => m.portReeval p)

/-! ### Holds and safe actions over ports (R93, R126, R443, R444) -/

/-- The chess clocks that hold or drive safe the ports of a block: (mask, safe). -/
def Mod.clockHolds (m : Mod) (b : Nat) : List (Nat × Bool) :=
  m.clks.filterMap (fun e => match e.2.hold with
    | some (b', mask, safe) => if b' = b then some (mask, safe) else none
    | none => none)

/-- Whether a chess clock holds a port. -/
def Mod.clockHeld (m : Mod) (p : Nat) : Bool :=
  (m.clockHolds (portBlock p)).any (fun h => bitAt h.1 (p % 32) && !h.2)

/-- Whether a chess clock drives a port safe. -/
def Mod.clockSafe (m : Mod) (p : Nat) : Bool :=
  (m.clockHolds (portBlock p)).any (fun h => bitAt h.1 (p % 32) && h.2)

/-- Whether a port's output is under a hold or safe action of any kind (R90, R490): of a chess clock, to which any port may be bound, or, an
output port, of its region or the device (R443, R444), of a mirror (R432), of a loss response (R435) or of removal (R436). -/
def Mod.outBarred (m : Mod) (p : Nat) : Bool :=
  m.clockHeld p || m.clockSafe p || (isOutMode (m.effMode p) &&
    (Tbl.get 0 m.rgnAct (portRegion p) != 0 || m.devSafe || Tbl.get 0 m.twin.forced p != 0 || m.twin.lossAct != 0 || m.rd F.TWIN_STATUS_ROLE == 3))

/-- OUT_HELD and OUT_SAFE of a port (R93); a port under both is under safe (R440). -/
def Mod.showHold (m : Mod) (p : Nat) : Mod :=
  let safe := m.clockSafe p
  (m.put F.SPL_PORT_STATUS_OUT_HELD p (m.clockHeld p && !safe)).put F.SPL_PORT_STATUS_OUT_SAFE p safe

/-- What holds a port's output for the mirror (R429): 2 a safe action, 1 a hold, 0 neither; 3 where neither does and its contacts are at
high impedance (DESIGN CHOICE, log entry 69). -/
def Mod.mirrorState (m : Mod) (p : Nat) : Nat :=
  let act := Nat.max (Tbl.get 0 m.rgnAct (portRegion p)) (Tbl.get 0 m.twin.forced p)
  if m.clockSafe p || act == 2 || m.devSafe then 2 else if m.clockHeld p || act == 1 then 1 else if (m.port p).driving then 0 else 3

/-- The DAC codes in effect of a list's output ports, with what holds them, mirrored to the standby (R429). -/
def Mod.mirrorCodes (m : Mod) (ps : List Nat) : Mod :=
  let l := ps.filter (fun p => isOutMode (m.effMode p))
  let state := m.mirrorState
  if l.isEmpty then m else m.mirror (.codes (l.map (fun p => (Fin.ofNat 1024 p, BitVec.ofNat 16 (m.rd F.PORT_OUT_CODE p), BitVec.ofNat 2 (state p)))))

/-- Every output port of a list takes its PORT_SAFE action at once. -/
def Mod.safePorts (m : Mod) (ps : List Nat) : Mod :=
  m.each ps (fun m p => (m.overtake p).iff (isOutMode (m.effMode p)) (fun m => m.applySafe p))

/-- The ports of region `g`. -/
def regionPorts (g : Nat) : List Nat := span (256 * g) 256

/-- NOCOMMIT of a block (R88): COMMIT_EN 0, or a slot without a period. It reads its reset value 0 from a device start to the first commit
(DESIGN CHOICE, log entry 79: R88 sets it and the table resets it). -/
def Mod.showNoCommit (m : Mod) (b : Nat) : Mod :=
  m.put F.SPL_BLK_STATUS_NOCOMMIT b (!m.flag F.SPL_BLK_CTRL_COMMIT_EN b || m.rd F.SCH_PERIOD_PERIOD (m.rd F.SPL_BLK_CTRL_CSLOT b) == 0)

/-- A hold (1) or safe (2) of region `g` by a region fault (R443). -/
def Mod.regionAct (m : Mod) (g act : Nat) : Mod :=
  let m := { m with rgnAct := Tbl.set 0 m.rgnAct g (Nat.max act (Tbl.get 0 m.rgnAct g)) }
  let m := m.iff (m.rd (F.FLT_RGN_STATE_STATE g) == 0) (fun m => m.wr (F.FLT_RGN_STATE_STATE g) 0 1)
  if act = 2 then m.safePorts (regionPorts g) else m.each (regionPorts g) Mod.overtake

/-- The device's safe action (R444). -/
def Mod.deviceSafe (m : Mod) : Mod := ({ m with devSafe := true }).safePorts (upTo 1024)

end Sys2Proof.Machine
end

