-- ==== Sys2Proof/Machine/TimeBase.lean ====
section
/-!
DEFINITION. Sys2Proof/Machine/TimeBase.lean: the time base (R105 to R114): steps, sync intervals, lock and holdover, the
firmware's writes; slots (R116 to R118); the failure of a probation (R386).
-/
namespace Sys2Proof.Machine

/-! ### Probation (R386) -/

/-- The move on probation fails. -/
def Mod.probFail (m : Mod) : Mod :=
  match m.cfg.probation with
  | some p => { m with cfg := { m.cfg with probation := some { p with failed := true } } }
  | none => m

/-- Whether the probation has failed: a failure marked, or a count above its limit. -/
def Mod.probFailed (m : Mod) : Bool :=
  match m.cfg.probation with
  | some p => p.failed || (p.falls != 0xFFFF && decide (m.rd F.CFG_PROB_FALLS_COUNT > p.falls)) ||
      (p.viol != 0xFFFF && decide (m.rd F.CFG_PROB_VIOL_COUNT > p.viol))
  | none => false

/-- The failure of a probation with a bit of PROB_FLAGS set. -/
def Mod.probFailIf (m : Mod) (bit : Nat) : Mod :=
  match m.cfg.probation with
  | some p => m.iff (bitAt p.flags bit) Mod.probFail
  | none => m

/-! ### Lock (R110) -/

/-- LOCKED set or cleared; a move on probation that needs it fails when it is lost (R386), and a standby is ready no longer (R427). -/
def Mod.setLocked (m : Mod) (v : Bool) : Mod :=
  (m.put F.TB_STATUS_LOCKED 0 v).iff (!v && m.flag F.TB_STATUS_LOCKED) (fun m =>
    ({ m.probFailIf 2 with twin := { m.twin with wasReady := none } }).iff (m.isStandby && m.flag F.TWIN_STATUS_READY) (fun m =>
      (m.put F.TWIN_STATUS_READY 0 false).raise 244))

/-- LOCK_THR, 0 treated as 1. -/
def Mod.lockThr (m : Mod) : Nat := Nat.max 1 (m.rd F.TB_CTRL_LOCK_THR)

/-! ### Steps (R108, R109) -/

/-- The spans skipped once TB_NOW steps from `a` to `b`: a forward step skips what lies between, and what a backward step takes TB_NOW
back before is to come again. -/
def skipsAfter (a b : Nat) (l : List (Nat × Nat)) : List (Nat × Nat) :=
  if a < b then (a + 1, b) :: l
  else (l.map (fun e => (e.1, Nat.min e.2 b))).filter (fun e => decide (e.1 < e.2))

/-- Whether a step of TB_NOW skipped an instant. -/
def Mod.skipped (m : Mod) (t : Nat) : Bool := m.skips.any (fun e => decide (e.1 ≤ t) && decide (t < e.2))

/-- TB_NOW steps to `t`: outstanding correction dropped, STEP_LAST and STEPPED, LOCKED cleared unless SRC is 0, the interval
counts zero, captures not yet applied marked (R490). -/
def Mod.stepTime (m : Mod) (t : Nat) : Mod :=
  let d : Int := (t : Int) - (m.now : Int)
  let m := { m with now := t, corr := 0, acc := 0, goodIv := 0, badIv := 0, skips := skipsAfter m.now t m.skips,
                    captured := m.captured.map (fun (e : Nat × Option Captured) => (e.1, e.2.map (fun (c : Captured) => if m.now < c.at_ then { c with stepped := true } else c))) }
  let m := (m.wr F.TB_STEP_LAST_DELTA 0 (wrapTo 64 d)).put F.TB_STATUS_STEPPED 0 true
  m.iff (m.tbSrc ≠ 0) (fun m => m.setLocked false)

/-- The outstanding correction replaced by `d` nanoseconds (R108). -/
def Mod.correct (m : Mod) (d : Int) : Mod := { m with corr := d * 4294967296 }

/-- A write of TB_STEP. -/
def Mod.tbStep (m : Mod) (t : Nat) : Mod :=
  if !m.flag F.TB_STATUS_LOCKED || m.tbSrc = 0 then m.stepTime t else m.put F.TB_STATUS_STEP_REFUSED 0 true

/-! ### Sync intervals (R108, R110) -/

/-- A sync interval delivers an offset, local minus source. Intervals that come to nothing, holdover and its end leave the run of good or bad
intervals as it is (DESIGN CHOICE, log entry 81: R110 names steps and changes of SRC alone). -/
def Mod.syncOffset (m : Mod) (off : Int) : Mod :=
  let m := ((m.wr F.TB_OFFSET_OFFSET 0 (clampTo 32 off)).put F.TB_STATUS_HOLDOVER 0 false).put F.TB_STATUS_SRC_OK 0 true
  let good := decide (off.natAbs ≤ m.lockThr)
  let bad := decide (off.natAbs > 2 * m.lockThr)
  let m := { m with goodIv := if good then m.goodIv + 1 else 0, badIv := if bad then m.badIv + 1 else 0, lastSync := m.mono }
  if !m.flag F.TB_STATUS_LOCKED && decide (off.natAbs > 1000) then m.stepTime ((m.now : Int) - off).toNat
  else
    let m := m.correct (-off)
    if m.goodIv ≥ 16 then m.setLocked true
    else if m.badIv ≥ 2 then m.setLocked false
    else m

/-- A write of TB_PHASE (R113). -/
def Mod.tbPhase (m : Mod) (delta : Int) : Mod :=
  match m.tbSrc with
  | 0 => m.correct delta
  | 2 => m.syncOffset (-delta)
  | _ => m

/-- A write of TB_FREQ (R113), clamped. -/
def Mod.tbFreq (m : Mod) (adj : Nat) : Mod :=
  if m.tbSrc = 2 then
    let a := signedOf 32 adj
    m.wr F.TB_FREQ_ADJ 0 (wrapTo 32 (if a > slewLimit then slewLimit else if a < -slewLimit then -slewLimit else a))
  else m

/-- The nominal interval of a source (R107); none is given for a source that firmware writes. -/
def nominalSync (src : Nat) : Nat :=
  match src with
  | 1 => 250000
  | 3 => 1000000000
  | 4 => 1000000000
  | _ => 0

/-- TB_MONO when four nominal intervals have passed without a sync interval. -/
def Mod.missAt (m : Mod) : Nat := m.lastSync + 4 * nominalSync m.tbSrc

/-- Holdover begins; HOLD 0 clears LOCKED at once. -/
def Mod.holdover (m : Mod) : Mod :=
  if m.tbSrc = 0 || m.flag F.TB_STATUS_HOLDOVER then m
  else
    let m := ({ m with holdFrom := m.mono }.put F.TB_STATUS_HOLDOVER 0 true).put F.TB_STATUS_SRC_OK 0 false
    m.iff (m.rd F.TB_CTRL_HOLD = 0) (fun m => m.setLocked false)

/-- The source delivers no sync interval for four nominal intervals. -/
def Mod.syncMissing (m : Mod) : Mod :=
  if m.tbSrc = 0 || m.flag F.TB_STATUS_HOLDOVER then m else (m.toMono m.missAt).holdover

/-- The source of TB_NOW was `old` before a commit or an election (R110): the interval counts start again. -/
def Mod.srcCommit (m : Mod) (old : Nat) : Mod :=
  if m.tbSrc = old then m
  else
    let m := { m with goodIv := 0, badIv := 0, lastSync := m.mono, rate10 := 0 }.put F.TB_STATUS_SRC_OK 0 false
    if m.tbSrc = 0 then m.setLocked true
    else (m.setLocked false).put F.TB_STATUS_HOLDOVER 0 false

/-! ### Schedule slots (R116 to R118) -/

/-- The settings, PERIOD and DELAY, that govern instant `t` of a slot that now has `cur`: those in effect 1,000 ns before it (R118). -/
def settingsAt (cur : Nat × Nat) (t : Nat) : List (Nat × Nat × Nat) → Nat × Nat
  | [] => cur
  | (c, old) :: rest => if t < c + 1000 then settingsAt old t rest else cur

/-- The settings of slot `sl` in effect. -/
def Mod.slotSet (m : Mod) (sl : Nat) : Nat × Nat := (m.rd F.SCH_PERIOD_PERIOD sl, m.rd F.SCH_DELAY_DELAY sl)

/-- The period in nanoseconds that governs instant `t` of a slot, 0 for none (R118). -/
def Mod.slotPeriod (m : Mod) (sl t : Nat) : Nat := 50 * (settingsAt (m.slotSet sl) t (m.slot sl).changes).1

/-- The delay of the event of instant `t` of a slot (R117, R118). -/
def Mod.slotDelay (m : Mod) (sl t : Nat) : Nat :=
  let p := m.slotPeriod sl t
  if p = 0 then 0 else 50 * (settingsAt (m.slotSet sl) t (m.slot sl).changes).2 % p

/-- Whether a slot may yield instant `t` (R109, R116). -/
def Mod.slotYields (m : Mod) (sl t : Nat) : Bool :=
  let p := m.slotPeriod sl t
  p != 0 && t % p == 0 && !m.skipped t && (match (m.slot sl).last with
    | some l => decide (l < t)
    | none => true)

/-- The first multiple of a period from `a` on, none for period 0. -/
def firstFrom (p a : Nat) : Option Nat := if p = 0 then none else some (nextMultiple (50 * p) a)

/-- The first instant from `a` on of a slot that now has period `cur`. -/
def nextInstant (cur a : Nat) : List (Nat × Nat × Nat) → Option Nat
  | [] => firstFrom cur a
  | (c, p, _) :: rest => match nextInstant p a rest with
    | some t => if t < c + 1000 then some t else firstFrom cur (Nat.max a (c + 1000))
    | none => firstFrom cur (Nat.max a (c + 1000))

/-- The first instant of a slot after the latest it yielded, none for a slot without instants (SCH_NEXT). -/
def Mod.slotNext (m : Mod) (sl : Nat) : Option Nat :=
  let a := Nat.max m.now (match (m.slot sl).last with
    | some l => l + 1
    | none => 0)
  nextInstant (m.rd F.SCH_PERIOD_PERIOD sl) a (m.slot sl).changes

/-- Slot settings at a commit instant, given what was in effect before (R118). -/
def Mod.slotCommit (m : Mod) (sl period delay : Nat) : Mod :=
  if m.slotSet sl = (period, delay) then m
  else m.setSlot sl { m.slot sl with changes := (m.now, period, delay) :: (m.slot sl).changes }

end Sys2Proof.Machine
end

