-- ==== Sys2Proof/Machine/TwinBase.lean ====
section
/-!
DEFINITION. Sys2Proof/Machine/TwinBase.lean: the castling grid, castling proposals, claims and removal (R423, R432, R433,
R436).
-/
namespace Sys2Proof.Machine

/-! ### The castling grid (R432) -/

/-- The period of the castling grid in nanoseconds. -/
def Mod.gridPeriod (m : Mod) : Nat :=
  let p := m.rd F.SCH_PERIOD_PERIOD (m.rd F.TWIN_CTRL_CSLOT)
  if 100 ≤ p ∧ p ≤ 3200 then 50 * p else 25000

/-- The first grid instant at or after `t`. -/
def Mod.firstGrid (m : Mod) (t : Nat) : Nat := nextMultiple m.gridPeriod t

/-! ### Proposals (R433) -/

/-- Why a castling for instant `at_` is refused, 0 if it is not. -/
def Mod.castleBar (m : Mod) (at_ : Nat) : Nat :=
  let role := m.rd F.TWIN_STATUS_ROLE
  if !m.flag F.CAR_STATUS_TWIN || role = 0 || role = 3 || !m.flag F.TWIN_STATUS_PEER_PRES then 1
  else if !m.flag F.TWIN_STATUS_LINK_UP then 5
  else if !m.flag F.TWIN_STATUS_READY then 2
  else if m.cfg.commit.isSome then 3
  else if m.twin.agreed.isSome || m.twin.propose.isSome || m.twin.asked.isSome then 6
  else if at_ ≠ 0 ∧ (at_ % m.gridPeriod ≠ 0 ∨ at_ < m.now + 20000) then 4
  else 0

/-- A request for castling at an instant, 0 for the earliest: whether it is proposed. It goes out with the next
heartbeats; a primary's proposal names H, a standby's request the instant asked for. -/
def Mod.castleRequest (m : Mod) (at_ : Nat) : Mod × Bool :=
  match m.castleBar at_ with
  | 0 =>
    let h := if at_ = 0 && !m.isStandby then m.firstGrid (m.now + 20000) else at_
    ({ m with twin := { m.twin with propose := some h } }, true)
  | r => (m.castleRefuse r, false)

/-! ### Drive (R30, R424) -/

/-- A network check under way on a port that behaves as a standby's from now on does not go on (R30): inside R31 the sequence passes its t2
without it. -/
def Mod.checkStop (m : Mod) (p : Nat) : Mod :=
  let q := m.port p
  if q.phase = .check then (m.setPort p { q with tests := closeWin q.tests m.now }).portT2 p
  else if q.checking then m.setPort p { q with checking := false, tests := closeWin q.tests m.now }
  else m

/-- Port dies that may no longer drive behave as those of a standby: transmissions, reflectometry and network checks stop, links are down. -/
def Mod.dieRelease (m : Mod) : Mod :=
  m.each (upTo 1024) (fun m p =>
    (((m.tdrAbort p).hartAbort p).checkStop p).iff (m.effMode p == 1) (fun m => m.put F.PORT_STATUS_LINK_UP p false))

/-- What follows at the ports after a change of claims or role, `was` telling whether they could drive before. -/
def Mod.driveFollow (m : Mod) (was : Bool) : Mod := m.iff (was && !m.mayDrive) Mod.dieRelease

/-- A change of claims or role with what follows at the ports. -/
def Mod.driveChange (m : Mod) (f : Mod → Mod) : Mod := (f m).driveFollow m.mayDrive

/-! ### Claims and removal (R423, R436) -/

/-- The claim is released. -/
def Mod.unclaim (m : Mod) : Mod := m.put F.TWIN_STATUS_CLAIM 0 false

/-- Removal is entered, which only a new power good leaves: nothing that was to change the role goes on. -/
def Mod.enterRemoval (m : Mod) : Mod :=
  if m.rd F.TWIN_STATUS_ROLE = 3 then m
  else
    let m := { m with twin := { m.twin with removed := true, propose := none, asked := none, agreed := none, byLoss := false, claimed := false,
                                            handed := false },
                      phase := { m.phase with claimWait := false } }
    let m := m.safePorts (upTo 1024)
    let m := m.driveChange (fun m => (m.wr F.TWIN_STATUS_ROLE 0 3).unclaim)
    m.each (upTo 8) Mod.lgStart

/-- A castling proposed from the eject switch or a CASTLE write (R433, R436). -/
def Mod.twinCastle (m : Mod) : Mod := (m.castleRequest (m.rd F.TWIN_CASTLE_AT_TIME)).1

/-- A write of 1 to REMOVE (R436); a primary that castles on its eject request enters removal once CASTLED instead, and so does a module whose
castling is agreed, since nothing cancels that (R433; DESIGN CHOICE, log entry 70). -/
def Mod.twinRemove (m : Mod) : Mod :=
  if m.twin.castleOnEject then m
  else if m.twin.agreed.isSome && !m.twin.byLoss then { m with twin := { m.twin with castleOnEject := true } }
  else m.enterRemoval

/-- A write of 1 to CANCEL_EJECT. -/
def Mod.cancelEject (m : Mod) : Mod :=
  if m.rd F.TWIN_STATUS_ROLE = 3 then m
  else { m with twin := { m.twin with castleOnEject := false } }.put F.CAR_STATUS_EJECT_REQ 0 false

end Sys2Proof.Machine
end

