-- ==== Sys2Proof/Machine/Faults.lean ====
section
/-!
DEFINITION. Sys2Proof/Machine/Faults.lean: region and device faults with their actions (R441 to R444), resets of cells,
blocks, regions and the device (R447 to R452).
-/
namespace Sys2Proof.Machine

/-! ### Containers (R12, R13) -/

/-- The kinds of FLT_RST with the number of containers of each. -/
def resetCount (kind : Nat) : Nat :=
  match kind with
  | 1 => 32
  | 2 => 1024
  | 3 => 32
  | 4 => 16
  | 5 => 32
  | 6 => 16
  | 7 => 8
  | 8 => 32
  | 9 => 8
  | 10 => 4
  | 11 => 1
  | _ => 0

/-- The region a container lies in, none for a transfer channel and the device. -/
def resetRegion (kind i : Nat) : Option Nat :=
  match kind with
  | 1 => some (i / 8)
  | 2 => some (i / 256)
  | 3 => some (i / 8)
  | 4 => some (i / 4)
  | 5 => some (i / 8)
  | 7 => some (i / 2)
  | 8 => some (i / 8)
  | 9 => some (i / 2)
  | 10 => some i
  | _ => none

/-- The level and unit of a reset's record (R445). -/
def resetUnit (kind : Nat) : Nat × Nat :=
  match kind with
  | 1 => (0, 0)
  | 2 => (0, 1)
  | 3 => (0, 2)
  | 4 => (0, 3)
  | 5 => (0, 4)
  | 6 => (0, 5)
  | 7 => (1, 6)
  | 8 => (1, 7)
  | 9 => (1, 8)
  | 10 => (2, 9)
  | _ => (3, 10)

/-- The record at the start of a reset (R446): requester 0 FLT_RST, 1 fault action, 2 Goose, 3 federation, 4 automatic. -/
def Mod.resetRecord (m : Mod) (kind i requester : Nat) (master : Nat := 0xFF) : Mod :=
  let (lv, u) := resetUnit kind
  m.record (m.faultRec lv 0x10 i u 3 requester 0xFFFF master)

/-! ### Registers that are not configuration -/

/-- A register back at its reset value but for its ST fields (R448, R451). -/
def Mod.resetNonSt (m : Mod) (r : Reg) (i : Nat) : Mod :=
  let mask := r.stMask
  m.setReg r i ((m.reg r i &&& mask) ||| (r.resetVal i &&& ((2 ^ 64 - 1) ^^^ mask)))

/-! ### Cells (R449) -/

/-- A port: effective mode off, then R31 into the mode in effect, its partner in a quadrature pair with it. The die of an isolated port holds
it at its PORT_SAFE action with effective mode off already (R51, R471). -/
def Mod.portReset (m : Mod) (p : Nat) : Mod :=
  if (m.die (portDie p)).isolated then m
  else
    let m := ((m.tdrAbort p).hartAbort p).overtake p
    let m := m.portStop p
    let m := (m.setPort p { m.port p with failed := false }).portReeval p
    m.iff (m.claimed (Nat.max p (pairOf p))) (fun m => m.portReeval (pairOf p))

/-- The link a lane belongs to (R296), none for a lane outside its lane group's links. -/
def Mod.laneLink (m : Mod) (l : Nat) : Option Nat :=
  let n := l / 4
  let s := m.rd F.MESH_LG_CTRL_SPLIT n
  if bitAt (splitMask s 0) (l % 4) then some (2 * n) else if bitAt (splitMask s 1) (l % 4) then some (2 * n + 1) else none

/-- A lane: its link returns to t0 of R298. -/
def Mod.laneReset (m : Mod) (l : Nat) : Mod :=
  match m.laneLink l with
  | some k => m.linkStart k
  | none => m

/-- A sample pipeline restarts with the configuration in effect: what it kept of its records and outputs goes. DIE_LOST and NOCOMMIT show
what holds still. -/
def Mod.pipeReset (m : Mod) (b : Nat) : Mod :=
  let m := { m with recAux := m.recAux.filter (fun e => e.1 / 512 != b), captured := m.captured.filter (fun e => portBlock e.1 != b),
                    lastCapture := Tbl.set 0 m.lastCapture b 0 }
  let m := (m.resetNonSt .SPL_BLK_STATUS b).put F.SPL_BLK_STATUS_DIE_LOST b (m.die (b / 4)).lostAt.isSome
  m.showNoCommit b

/-- One cell reset (R449). -/
def Mod.cellReset (m : Mod) (kind i : Nat) : Mod :=
  match kind with
  | 1 => m.coreReset i
  | 2 => m.portReset i
  | 3 => m.laneReset i
  | 4 => m.sliceReset i
  | 5 => m.pipeReset i
  | 6 => m.xfrAbort i
  | 7 => m.each (span (4 * i) 4) Mod.coreReset
  | 8 => m.each (blockPorts i) Mod.portReset
  | 9 => m.lgStart i
  | _ => m

/-! ### Region reset (R451) -/

/-- The registers of region `g`'s pipelines that are not configuration, back at reset. -/
def Mod.pipesReset (m : Mod) (g : Nat) : Mod :=
  let m := m.each (span (8 * g) 8) (fun m b => (m.pipeReset b).resetNonSt .SPL_BLK_LOAD b)
  let m := m.each (regionPorts g) (fun m p => m.resetNonSt .SPL_PORT_STATUS p)
  let rs : List Reg := [.SPL_RGN_LRX_PROD, .SPL_RGN_LRX_CONS, .SPL_RGN_LRX_DROP, .SPL_RGN_LTX_PROD, .SPL_RGN_LTX_CONS, .SPL_RGN_LTX_ERR,
    .SPL_RGN_HRX_PROD, .SPL_RGN_HRX_CONS, .SPL_RGN_HRX_DROP, .SPL_RGN_HTX_PROD, .SPL_RGN_HTX_CONS, .SPL_RGN_STATUS, .SPL_RGN_OUT_LATE,
    .SPL_RGN_OUT_REFUSED]
  let m := m.each rs (fun m r => m.resetNonSt r g)
  { m with outSeq := m.outSeq.filter (fun e => portRegion e.1 != g), htxDone := Tbl.set [] m.htxDone g [], ltxDone := Tbl.set [] m.ltxDone g [],
           ltxTaken := Tbl.set 0 m.ltxTaken g 0, settleEnd := m.settleEnd.filter (fun e => e.1 / 512 != g) }

/-! ### Configuration that a reset holds back (R448, R451) -/

/-- Whether the ST fields of region `g` wait for its restart: it is under reset, or its common domain has no power. -/
def Mod.rgnHeld (m : Mod) (g : Nat) : Bool := decide (g < 4) && (m.rgnDown g || (m.phase.t5done && !m.domPowered (40 + g)))

/-- The register and instance of a key, and its region, 4 for the spine. -/
def keyHome (k : Nat) : Nat := regHome ((regNo (k % 512)).offset (k / 512))

/-- A register's ST fields take the values of `v`; those of a register whose region waits for its restart are kept for that instant. -/
def Mod.setSt (m : Mod) (k v : Nat) : Mod :=
  if m.rgnHeld (keyHome k) then { m with parked := Tbl.put m.parked k (BitVec.ofNat 64 v) }
  else m.setReg (regNo (k % 512)) (k / 512) v

/-- Whether a register belongs to a region's chess clocks or pipelines, whose ST fields a region reset takes to reset values (R451 t4). -/
def Reg.zeroedWithRegion (r : Reg) : Bool :=
  let o := r.place.off
  (decide (0x601000 ≤ o) && decide (o < 0x609000)) || (decide (0xA00000 ≤ o) && decide (o < 0xC00000))

/-- The ST fields of region `g`'s chess clocks and pipelines at reset values, what they held kept for the restart. -/
def Mod.parkRegion (m : Mod) (g : Nat) : Mod :=
  m.each (Tbl.keys m.regs) (fun m k =>
    let r := regNo (k % 512)
    let i := k / 512
    if r.zeroedWithRegion && r.stMask != 0 && keyHome k == g then
      let m := match Tbl.look m.parked k with
        | some _ => m
        | none => { m with parked := Tbl.put m.parked k (BitVec.ofNat 64 (m.reg r i)) }
      m.setReg r i ((r.resetVal i &&& r.stMask) ||| (m.reg r i &&& ((2 ^ 64 - 1) ^^^ r.stMask)))
    else m)

/-- The ST fields of region `g` take their values in effect. -/
def Mod.unparkRegion (m : Mod) (g : Nat) : Mod :=
  let mine := m.parked.filter (fun e => keyHome e.1 == g)
  let m := { m with parked := m.parked.filter (fun e => keyHome e.1 != g) }
  m.each mine (fun m e =>
    let r := regNo (e.1 % 512)
    let i := e.1 / 512
    m.setReg r i ((e.2.toNat &&& r.stMask) ||| (m.reg r i &&& ((2 ^ 64 - 1) ^^^ r.stMask))))

/-- A chess clock back at reset (R451); the ports it held are released. -/
def Mod.clkReset (m : Mod) (n : Nat) : Mod :=
  let h := (m.clk n).hold
  let m := { m with clks := Tbl.erase m.clks n }
  let rs : List Reg := [.CLK_STATUS, .CLK_FALLS, .CLK_ELAPSED, .CLK_FALL_TIME]
  let m := m.each rs (fun m r => m.setReg r n (r.resetVal n))
  match h with
  | some (b, _, _) => m.each (blockPorts b) Mod.showHold
  | none => m

/-- t0 to t3: the masters of the region stop, its links drop, its targets become unmapped, its port dies take R51. -/
def Mod.regionReset (m : Mod) (g requester : Nat) (master : Nat := 0xFF) : Mod :=
  let m := m.resetRecord 10 g requester master
  let m := m.wr (F.FLT_RGN_STATE_STATE g) 0 2
  let m := { m with rgnPhase := Tbl.set 0 m.rgnPhase g 1, rgnAct := Tbl.set 0 m.rgnAct g 0 }
  let m := m.each (span (8 * g) 8) (fun m c =>
    let m := (m.l1Clear c).setCore c {}
    { m with req := m.req.filter (fun r => r.who != Requester.core c && r.who != Requester.coreStore c) })
  let m := m.setMxJob g none
  let m := (m.lgStart (2 * g)).lgStart (2 * g + 1)
  let die := fun (m : Mod) (d : Nat) => m.iff (m.domOn (56 + d)) (fun m => m.isolateDie d)
  die (die m (2 * g)) (2 * g + 1)

/-- t4: memories zeroed, gate entries cleared, the region's clocks, engine, range engine and pipelines at reset values. -/
def Mod.regionZeroed (m : Mod) (g : Nat) : Mod :=
  let m := m.each (span (8 * g) 8) Mod.coreEnterReset
  let m := (m.zeroRange (rgnScratch g) 0x400000).sigZero g
  let m := ((m.gateClear (1 + g)).gateClear (5 + g)).gateClear (9 + g)
  let m := m.each (span (128 * g) 128) Mod.clkReset
  let m := ((m.mxReset g).parkRegion g).pipesReset g
  let rs : List Reg := [.SC_RNG_BASE, .SC_RNG_LEN, .SC_RNG_CMD, .SC_RNG_STATUS, .SC_RNG_COUNT, .SC_RNG_SKIPPED, .SC_RNG_FAIL]
  let m := m.each rs (fun m r => m.setReg r g (r.resetVal g))
  { m with rng := Tbl.set none m.rng g none, rgnPhase := Tbl.set 0 m.rgnPhase g 2 }

/-- t5: the restart instant C_r. A die whose link has not failed is heard again, and its ports leave off. -/
def Mod.regionRestart (m : Mod) (g : Nat) : Mod :=
  let m := m.toNow (nextMultiple 100000 m.now)
  let m := { m with rgnPhase := Tbl.set 0 m.rgnPhase g 3 }
  let m := m.wr (F.FLT_RGN_STATE_STATE g) 0 3
  let m := m.iff (!m.rgnHeld g) (fun m => m.unparkRegion g)
  let die := fun (m : Mod) (d : Nat) =>
    m.iff (m.domOn (56 + d)) (fun m => (m.iff (!(m.die d).cut) (fun m => m.dieHears d)).dieCommit d)
  let m := die (die m (2 * g)) (2 * g + 1)
  let m := m.each (span (8 * g) 8) Mod.coreLeaveReset
  (m.lgStart (2 * g)).lgStart (2 * g + 1)

/-! ### Device reset (R452) -/

/-- The configuration store at a device start (R393): what flash holds; a move on probation counts as failed, a prepared
state and direct values are gone. -/
def Cfg.atStart (c : Cfg) : Cfg :=
  { images := c.images, scores := c.scores, highest := c.highest, history := c.history, ownStage := c.ownStage }

/-- The code of a lifecycle state (R410). -/
def lifeCode (x : Lifecycle) : Nat :=
  match x with
  | .provisioned => 1
  | .owned => 2
  | .returned => 3
  | .decommissioned => 4

/-- The registers a device reset leaves: the Goose's, the Rook's identity, owner and minimum versions, the descriptor's
(R420), the feed, hold-up and temperature monitors of the always-on domain, slot states in flash, the codes of the port
dies, which are not reset. -/
def keptAtReset : List Reg :=
  [.GOOSE_CTRL, .GOOSE_STATUS, .ROOK_ID, .ROOK_OWNER, .ROOK_SVN, .PBLK_CLASS, .PBLK_CARRIER, .CAR_STATUS, .PORT_OUT, .PWR_FEED, .PWR_HOLDUP,
   .PWR_TEMP, .CFG_SLOT_STATE, .CFG_SLOT_MOVE, .CFG_MOVE_SETTLED, .CFG_MOVE_STAGED, .CS_ERASES]

/-- A move on probation at a device start: its slot becomes taken back (R393); a LOCAL move not yet committed leaves its
slot empty (R391). -/
def Mod.probAtStart (m : Mod) : Mod :=
  let m := match m.cfg.commit with
    | some c => if c.kind = CommitKind.direct ∧ c.slot < 8 then
        ((m.setReg .CFG_SLOT_STATE c.slot 0).setReg .CFG_SLOT_MOVE c.slot 0)
      else m
    | none => m
  match m.cfg.probation with
  | some p =>
    let e : Score := ⟨p.move, .probationEnd, m.now, 6, 0⟩
    { m.wr F.CFG_SLOT_STATE_STATE p.slot 5 with cfg := { m.cfg with scores := (e :: m.cfg.scores).take 256 } }
  | none => m

/-- The module as it starts again from t1 of R392: memories, registers and parts at reset but for what lives outside the
main die or in flash. -/
def Mod.atStart (m : Mod) : Mod :=
  let m := m.probAtStart
  let ts := m.rd F.CFG_MOVE_STAGED_MOVE ≠ 0
  let keep := keptAtReset.map Reg.ctorIdx
  let n : Mod :=
    { regs := m.regs.filter (fun e => keep.contains (e.1 % 512)), staged := if ts then m.staged else [], stageImage := ts && m.stageImage,
      fwdStage := if ts then m.fwdStage else [], vlanStage := if ts then m.vlanStage else [],
      freeCtr := m.freeCtr, now := m.now, ports := m.ports, dies := m.dies,
      mem := m.mem.filter (fun e => decide (dramTop ≤ e.1) && decide (e.1 < 0x1002000000)), csErases := m.csErases,
      cfg := m.cfg.atStart, fwA := m.fwA, fwB := m.fwB, runB := m.runB,
      twin := { ejectAt := m.twin.ejectAt.map (fun _ => 0), loss := m.twin.loss.map (fun x => (x.1, 0)), removed := m.twin.removed },
      goose := m.goose, rook := { m.rook with chal := none, dbgEnd := none }, desc := m.desc, laneMax := m.laneMax,
      lock := if m.lock.holder = 5 then { m.lock with leaseEnd := m.lock.leaseEnd.map (fun t => t - m.mono) } else {},
      phase := { powered := m.phase.powered, precharged := m.phase.precharged, gooseUp := m.phase.gooseUp, held := m.phase.held },
      sent := m.sent }
  let n := (n.put F.TWIN_STATUS_PEER_CLAIM 0 (m.flag F.TWIN_STATUS_PEER_CLAIM)).put F.TWIN_STATUS_PEER_PRES 0 (m.flag F.TWIN_STATUS_PEER_PRES)
  let n := n.wr F.ROOK_STATUS_BOOT 0 (if m.phase.gooseUp then 1 else 0)
  let n := (n.wr F.ROOK_STATUS_LIFECYCLE 0 (lifeCode m.rook.life)).put F.ROOK_STATUS_OWNER 0 m.rook.anchor
  let n := n.each (upTo 32) (fun n b => n.put F.PBLK_CARRIER_DIE_LINK b false)
  let n := n.wr F.MBX_LOCK_HOLDER 0 n.lock.holder
  (n.put F.CFG_STATUS_SETTLED 0 (m.rd F.CFG_MOVE_SETTLED_MOVE ≠ 0)).put F.CFG_STATUS_STAGED 0 ts

/-- A device reset (R452), refused while CRITICAL with the junction at 105 °C or more (R471); staged values are kept (R448). -/
def Mod.deviceReset (m : Mod) (requester : Nat) (master : Nat := 0xFF) : Mod :=
  if m.flag F.PWR_THR_STATUS_CRITICAL && decide (signedOf 16 (m.rd F.PWR_TEMP_JUNCTION) ≥ 1680) then m
  else
    let m := m.resetRecord 11 0 requester master
    let n := ((m.each (upTo 8) Mod.isolateDie).unclaim).atStart
    { n with staged := m.staged, stageImage := m.stageImage, fwdStage := m.fwdStage, vlanStage := m.vlanStage }

/-! ### Requests (R447) -/

/-- Whether a container lies in a region being reset. -/
def Mod.inReset (m : Mod) (kind i : Nat) : Bool :=
  match resetRegion kind i with
  | some g => m.rgnDown g
  | none => false

/-- A reset requested: absorbed inside a container already being reset. -/
def Mod.requestReset (m : Mod) (kind i requester : Nat) (master : Nat := 0xFF) : Mod :=
  if i ≥ resetCount kind then m
  else if m.inReset kind i then m.put F.FLT_RST_STATUS_ABSORBED 0 true
  else if kind = 11 then m.deviceReset requester master
  else if kind = 10 then m.regionReset i requester master
  else (m.resetRecord kind i requester master).cellReset kind i

/-! ### Faults of regions and the device (R439 to R444) -/

/-- A region fault of region `g`. -/
def Mod.regionFault (m : Mod) (g cause detail : Nat) (source : Nat := 0xFFFF) : Mod :=
  if m.rgnDown g then m.record (m.faultRec 2 cause g 9 5 detail source)
  else
    let act := m.rd (F.FLT_RGN_ACT_ACT g) 0
    let m := ((m.record (m.faultRec 2 cause g 9 act detail source)).probFailIf 0).countRegion
    match act with
    | 0 => m
    | 3 => m.regionReset g 1
    | a => m.regionAct g a

/-- The fault notice of a device fault in federated mode (R442). -/
def Mod.faultNotice (m : Mod) (cause : Nat) : Mod :=
  let x := fun (down : Bool) => MemberMsg.notice (BitVec.ofNat 12 m.node) (BitVec.ofNat 8 cause) down
  if !m.federated then m else if m.isRoot then m.memberDown (x true) else m.memberUp (x false)

/-- A device fault. -/
def Mod.deviceFault (m : Mod) (cause detail : Nat) (source : Nat := 0xFFFF) : Mod :=
  let act := m.rd F.FLT_DEV_ACT_ACT
  let mayCastle := act == 3 && m.rd F.TWIN_STATUS_ROLE == 1
  let bar := if mayCastle then m.castleBar 0 else 0
  let shown := if act = 2 then 3 else if act = 3 then (if mayCastle && bar == 0 then 4 else 3) else if act = 1 then 2 else act
  let m := ((m.record (m.faultRec 3 cause 0 10 shown detail source)).probFailIf 0).faultNotice cause
  let m := { m with twin := { m.twin with faultNext := true } }
  match act with
  | 0 => m
  | 1 => (m.deviceSafe)
  | 2 => m.deviceSafe.deviceReset 1
  | _ =>
    if mayCastle then
      match m.castleRequest 0 with
      | (m, true) => m
      | (m, false) => m.deviceSafe.deviceReset 1
    else m.deviceSafe.deviceReset 1

/-- A region's hold or safe released (R443). -/
def Mod.releaseRegion (m : Mod) (g : Nat) : Mod :=
  let m := { m with rgnAct := Tbl.set 0 m.rgnAct g 0, twin := { m.twin with forced := m.twin.forced.filter (fun e => portRegion e.1 != g) } }
  m.iff (m.rd (F.FLT_RGN_STATE_STATE g) == 1) (fun m => m.wr (F.FLT_RGN_STATE_STATE g) 0 0)

/-- The device's safe released (R444). -/
def Mod.releaseDevice (m : Mod) : Mod :=
  { m with devSafe := false, twin := { m.twin with forced := m.twin.forced.filter (fun e => e.2 != 2) } }

/-! ### The region of a register (R494) -/

/-- A write of FLT_RST (R447, R457): a privileged master's request; an INDEX outside the range of its KIND is a reserved
encoding. -/
def Mod.fltRst (m : Mod) (w : Writer) (kind index : Nat) : Mod :=
  if index ≥ resetCount kind then m.reservedWrite (Reg.place .FLT_RST).off w.master.toNat
  else if m.privWriter w.master.toNat w.sys then m.requestReset kind index 0 w.master.toNat
  else m

end Sys2Proof.Machine
end

