-- ==== Sys2Proof/Machine/ClockBase.lean ====
section
/-!
DEFINITION. Sys2Proof/Machine/ClockBase.lean: the chess clocks (R119 to R126): arrivals, flag falls with their actions,
releases, commits.
-/
namespace Sys2Proof.Machine

/-! ### Holds (R126) -/

/-- The ports a clock held are released by it. -/
def Mod.clkRelease (m : Mod) (n : Nat) : Mod :=
  match (m.clk n).hold with
  | none => m
  | some (b, _, _) =>
    let m := (m.setClk n { m.clk n with hold := none }).put F.CLK_STATUS_HOLDING n false
    m.each (blockPorts b) Mod.showHold

/-- The bound ports of a clock held or driven safe, as its settings bind them now; ports it held under another bind are released. -/
def Mod.clkImpose (m : Mod) (n : Nat) (safe : Bool) (b mask : Nat) : Mod :=
  if mask = 0 then m
  else
    let ps := (setBits 32 mask).map (32 * b + ·)
    let m := match (m.clk n).hold with
      | some (b', mask', _) => m.iff (b' != b || mask' != mask) (fun m => m.clkRelease n)
      | none => m
    let m := (m.setClk n { m.clk n with hold := some (b, mask, safe) }).put F.CLK_STATUS_HOLDING n true
    let m := if safe then m.safePorts ps else m.each ps Mod.overtake
    m.each (blockPorts b) Mod.showHold

/-! ### Flag falls (R124, R125) -/

/-- The action of a flag fall, its hold or safe cancelled by a release before t4 (R126); on a twin standby every action is report only. -/
def Mod.clkAction (m : Mod) (n : Nat) (cancelled : Bool) : Mod :=
  let g := clockRegion n
  let src := 96 + n / 8
  let bind := fun (safe : Bool) => if cancelled then m else m.clkImpose n safe (m.rd F.CLK_BIND_BLOCK n) (m.rd F.CLK_BIND_MASK_MASK n)
  if m.isStandby then m
  else match m.rd F.CLK_CTRL_ACTION n with
    | 1 => bind false
    | 2 => bind true
    | 3 => m.regionFault g 0x06 n src
    | 4 => m.deviceFault 0x07 n src
    | 5 => if !m.flag F.CAR_STATUS_TWIN then m.deviceFault 0x07 n src else (m.castleRequest 0).1
    | _ => m

/-- A clock's state mirrored to the standby (R429). -/
def Mod.clkMirror (m : Mod) (n : Nat) : Mod :=
  let h := (m.clk n).hold.getD (0, 0, false)
  m.mirror (.clock (Fin.ofNat 512 n) (m.flag F.CLK_STATUS_FALLEN n) (m.flag F.CLK_STATUS_HOLDING n) h.2.2 (Fin.ofNat 32 h.1) (BitVec.ofNat 32 h.2.1))

/-- TB_NOW at `t1` of TB_MONO, at which clock `n` fell (R124). -/
def Mod.fallTime (m : Mod) (n t1 : Nat) : Nat :=
  let past := (Tbl.look m.heardNow t1).getD (m.now - (m.mono - t1))
  match Tbl.look m.fallNow n with
  | some t => if m.clkDue n = some t1 then t else past
  | none => past

/-- CLK_ELAPSED reads 0 after a fall of mode 4, to which no interval runs (DESIGN CHOICE, log entry 81). The flag of clock `n` falls at TB_MONO `t1`, `early` for a stop before MIN, `cancelled` for one whose hold a release cancels. -/
def Mod.clkFall (m : Mod) (n t1 : Nat) (early cancelled : Bool) : Mod :=
  let k := m.clk n
  let el := match k.start with
    | some t => t1 - t
    | none => 0
  let at_ := m.fallTime n t1
  let cancelled := cancelled || k.relAt.any (fun r => decide (t1 < r) && decide (r < t1 + 1000))
  let m := { m.setClk n { k with start := none, relAt := none } with fallNow := Tbl.erase m.fallNow n }
  let m := ((m.put F.CLK_STATUS_RUNNING n false).wr F.CLK_ELAPSED_TIME n el).put F.CLK_STATUS_FALLEN n true
  let m := m.iff early (fun m => m.put F.CLK_STATUS_EARLY n true)
  let m := (m.wr F.CLK_FALL_TIME_TIME n at_).count F.CLK_FALLS_COUNT n
  let m := m.iff (m.rd F.CFG_MOVE_PROB_MOVE ≠ 0) (fun m => m.count F.CFG_PROB_FALLS_COUNT)
  let m := m.iff (m.flag F.CLK_CTRL_EV_EN n) (fun m => m.raise (96 + n / 8))
  (m.clkAction n cancelled).clkMirror n

/-- A fall due by `a` of TB_MONO has happened before anything else reaches the clock. -/
def Mod.clkSettle (m : Mod) (n a : Nat) : Mod :=
  match m.clkDue n with
  | some t => if t ≤ a then m.clkFall n t false false else m
  | none => m

/-- A release by firmware (R126): one that arrives after t1 and before t4, at most 1 µs later, cancels the hold or safe of that fall, that of an
arrival included which is still on its way. Where a fall is brought about at its t1 its t4 is taken at once, so a release comes after it
(DESIGN CHOICE, log entry 81). -/
def Mod.clkCmdRelease (m : Mod) (n : Nat) : Mod :=
  let m := m.iff (m.heard.any (fun e => e.1 == n)) (fun m => m.setClk n { m.clk n with relAt := some m.mono })
  match m.clkDue n with
  | some t => if t < m.mono ∧ m.mono < t + 1000 then (m.clkRelease n).clkFall n t false true else (m.clkSettle n m.mono).clkRelease n
  | none => m.clkRelease n

/-! ### Arrivals (R121), each at instant `a` of TB_MONO -/

/-- A clock stops in time: AUTOREL releases its ports (R126). -/
def Mod.clkStopped (m : Mod) (n t0 a : Nat) : Mod :=
  let m := { m.setClk n { m.clk n with start := none } with fallNow := Tbl.erase m.fallNow n }
  let m := (m.put F.CLK_STATUS_RUNNING n false).wr F.CLK_ELAPSED_TIME n (a - t0)
  m.iff (m.flag F.CLK_CTRL_AUTOREL n) (fun m => m.clkRelease n)

/-- A stop arrival at a clock that runs since `t0`. -/
def Mod.clkStopRun (m : Mod) (n t0 a : Nat) : Mod :=
  if m.clkMode n = 3 ∧ a - t0 < m.rd F.CLK_MIN_MIN n then m.clkFall n a true false else m.clkStopped n t0 a

/-- The clock begins an interval. -/
def Mod.clkBegin (m : Mod) (n a : Nat) : Mod :=
  ({ m.setClk n { m.clk n with start := some a } with fallNow := Tbl.erase m.fallNow n }).put F.CLK_STATUS_RUNNING n true

/-- The arrivals at a clock in the nanosecond `a`, before one more is evaluated. -/
def Mod.clkTogether (m : Mod) (n a : Nat) : Arrivals :=
  let first : Arrivals := ⟨a, (m.clk n).start, m.flag F.CLK_STATUS_RESTART_LOST n, false, false⟩
  match (m.clk n).together with
  | some x => if x.at_ = a then x else first
  | none => first

/-- A start arrival: the starts of one nanosecond are one, after a stop of the same nanosecond where the clock ran before them, and before it
where it stood. -/
def Mod.clkStart (m : Mod) (n a : Nat) : Mod :=
  let m := m.clkSettle n a
  match m.clkMode n with
  | 0 => m
  | 4 => m.clkFall n a false false
  | md =>
    let x := m.clkTogether n a
    if x.start then m
    else
      let m := m.setClk n { m.clk n with together := some { x with start := true } }
      match x.was, x.stop with
      | some _, false => if md = 2 then m.clkBegin n a else m.put F.CLK_STATUS_RESTART_LOST n true
      | none, true => (m.clkBegin n a).clkStopRun n a a
      | _, _ => m.clkBegin n a

/-- A stop arrival: the stops of one nanosecond are one; one that comes after the start of its nanosecond at a clock that ran is evaluated
before that start. -/
def Mod.clkStop (m : Mod) (n a : Nat) : Mod :=
  let m := m.clkSettle n a
  match m.clkMode n with
  | 0 => m
  | 4 => m
  | _ =>
    let x := m.clkTogether n a
    if x.stop then m
    else
      let m := m.setClk n { m.clk n with together := some { x with stop := true } }
      match x.was, x.start with
      | none, false => m
      | none, true => m.clkStopRun n a a
      | some t, false => m.clkStopRun n t a
      | some t, true =>
        let m := (m.setClk n { m.clk n with start := some t }).put F.CLK_STATUS_RESTART_LOST n x.lost
        (m.clkStopRun n t a).clkBegin n a

/-! ### Software (R120, R126, R132) -/

/-- A software START or STOP is an occurrence of source 0x128, which reaches the clock 10 to 30 ns later as every other does (R121). -/
def Mod.clkCmdStart (m : Mod) (n : Nat) : Mod :=
  if m.rd F.CLK_SRC_START n = 0x128 then { m with heard := m.heard ++ [(n, true, m.mono)] } else m
@[inherit_doc Mod.clkCmdStart]
def Mod.clkCmdStop (m : Mod) (n : Nat) : Mod :=
  if m.rd F.CLK_SRC_STOP n = 0x128 then { m with heard := m.heard ++ [(n, false, m.mono)] } else m

/-! ### Commits (R123) -/

/-- Falls due by now have happened before a commit changes what they are judged by. -/
def Mod.clocksSettle (m : Mod) : Mod := m.each (Tbl.keys m.clks) (fun m n => m.clkSettle n m.mono)

/-- A commit instant at a clock, given MODE and the sources before it. -/
def Mod.clkCommit (m : Mod) (n mode start stop : Nat) : Mod :=
  match (m.clk n).start with
  | none => m
  | some t =>
    if m.rd F.CLK_CTRL_MODE n ≠ mode ∨ m.rd F.CLK_SRC_START n ≠ start ∨ m.rd F.CLK_SRC_STOP n ≠ stop then
      let m := m.setClk n { m.clk n with start := none, together := none }
      ((m.put F.CLK_STATUS_RUNNING n false).wr F.CLK_ELAPSED_TIME n (m.mono - t)).put F.CLK_STATUS_CONFIG_STOP n true
    else if m.mono - t > m.rd F.CLK_LIMIT_LIMIT n then m.clkFall n m.mono false false
    else m

/-- What R122 finds wrong with a clock's staged settings, as the REASON of CLK_GSTATUS. -/
def Mod.clkRefuses (m : Mod) (n : Nat) : Option Nat :=
  let mode := m.staged' F.CLK_CTRL_MODE n
  let act := m.staged' F.CLK_CTRL_ACTION n
  let lim := m.staged' F.CLK_LIMIT_LIMIT n
  if (mode = 1 ∨ mode = 2 ∨ mode = 3) ∧ lim = 0 then some 0
  else if (act = 1 ∨ act = 2) ∧ m.staged' F.CLK_BIND_MASK_MASK n ≠ 0 ∧ blockRegion (m.staged' F.CLK_BIND_BLOCK n) ≠ clockRegion n then some 1
  else if mode = 3 ∧ m.staged' F.CLK_MIN_MIN n > lim then some 2
  else none

/-- The clocks' check at prepare (R122): the first clock refused is shown. -/
def Mod.clkPrepare (m : Mod) : Mod × Bool :=
  match (upTo 512).findSome? (fun n => (m.clkRefuses n).map (fun r => (n, r))) with
  | some (n, r) => (((m.put F.CLK_GSTATUS_PREP_FAIL 0 true).wr F.CLK_GSTATUS_REASON 0 r).wr F.CLK_GSTATUS_CLOCK 0 n, false)
  | none => (m, true)

end Sys2Proof.Machine
end

