-- ==== Sys2Proof/Machine/Sha.lean ====
section
/-!
DEFINITION. Sys2Proof/Machine/Sha.lean: SHA-256 (FIPS 180-4), by which build digests are made (R372, R391). Its constants are the standard's
own derivation: the first 32 bits of the fractional parts of square and cube roots of the first primes.
-/
namespace Sys2Proof.Machine

/-- The primes below 312, the first 64. -/
def smallPrimes : List Nat := (upTo 312).filter (fun n => decide (2 ≤ n) && (upTo 18).all (fun d => d < 2 || n == d || n % d != 0))

/-- The largest number below `2 ^ bits`, above `from_`, whose `k`-th power is at most `x`, found bit by bit. -/
def rootFrom (k x : Nat) : Nat → Nat → Nat
  | 0, from_ => from_
  | bit + 1, from_ => rootFrom k x bit (if (from_ + 2 ^ bit) ^ k ≤ x then from_ + 2 ^ bit else from_)

/-- The first 32 bits of the fractional part of a prime's `k`-th root. -/
def rootFraction (k p : Nat) : Nat := rootFrom k (p * 2 ^ (32 * k)) 40 0 % 2 ^ 32

/-- The constants of the 64 rounds. -/
def roundConstants : List Nat := smallPrimes.map (rootFraction 3)

/-- What is chained from block to block: the last four words of each of a block's two sequences, newest first. -/
structure Chain where
  upper : List Nat
  lower : List Nat
  deriving DecidableEq, Repr

/-- The value chained into the first block. -/
def Chain.start : Chain :=
  let roots := (smallPrimes.take 8).map (rootFraction 2)
  ⟨roots.take 4, roots.drop 4⟩

/-- The exclusive or of a 32-bit word rotated right by each of `turns`. -/
def rotations (turns : List Nat) (x : Nat) : Nat :=
  turns.foldl (fun acc n => acc ^^^ (x / 2 ^ n + x % 2 ^ n * 2 ^ (32 - n))) 0

/-- Bit by bit, `y` where `x` is 1 and `z` where it is 0. -/
def choose (x y z : Nat) : Nat := z ^^^ (x &&& (y ^^^ z))

/-- Bit by bit, what at least two of three words hold. -/
def majority (x y z : Nat) : Nat := (x &&& y) ||| (z &&& (x ||| y))

/-- The schedule of a block lengthened by `n` words; it is held newest first. -/
def schedule : Nat → List Nat → List Nat
  | 0, ws => ws
  | n + 1, ws =>
    let at_ := fun i => ws.getD (i - 1) 0
    let near := rotations [17, 19] (at_ 2) ^^^ at_ 2 / 2 ^ 10
    let far := rotations [7, 18] (at_ 15) ^^^ at_ 15 / 2 ^ 3
    schedule n ((near + at_ 7 + far + at_ 16) % 2 ^ 32 :: ws)

/-- One round, with its constant and its schedule word added up in `kw`. -/
def Chain.round (c : Chain) (kw : Nat) : Chain :=
  let u := fun i => c.upper.getD i 0
  let l := fun i => c.lower.getD i 0
  let mix := l 3 + rotations [6, 11, 25] (l 0) + choose (l 0) (l 1) (l 2) + kw
  let top := mix + rotations [2, 13, 22] (u 0) + majority (u 0) (u 1) (u 2)
  ⟨top % 2 ^ 32 :: c.upper.take 3, (u 3 + mix) % 2 ^ 32 :: c.lower.take 3⟩

/-- Bytes as words, four each and the most significant first. -/
def beWords (n : Nat) (bs : List Byte) : List Nat := (upTo n).map (fun i => ofLeBytes ((bs.drop (4 * i)).take 4).reverse)

/-- A block of 64 bytes taken into the chained value. -/
def Chain.block (c : Chain) (bs : List Byte) : Chain :=
  let words := (schedule 48 (beWords 16 bs).reverse).reverse
  let r := (List.zipWith (· + ·) roundConstants words).foldl Chain.round c
  let add := List.zipWith (fun x y => (x + y) % 2 ^ 32)
  ⟨add c.upper r.upper, add c.lower r.lower⟩

/-- The message with its padding: a 1 bit, zeros to 8 bytes short of a block's end, and its length in bits. -/
def padded (msg : List Byte) : List Byte :=
  msg ++ 0x80 :: List.replicate (63 - (msg.length + 8) % 64) 0 ++ (leBytes 8 (8 * msg.length)).reverse

/-- The SHA-256 digest of a message, its 32 bytes in order. -/
def sha256 (msg : List Byte) : List Byte :=
  let bs := padded msg
  let c := (upTo (bs.length / 64)).foldl (fun c i => c.block ((bs.drop (64 * i)).take 64)) Chain.start
  (c.upper ++ c.lower).flatMap (fun x => (leBytes 4 x).reverse)

end Sys2Proof.Machine
end

