-- ==== Sys2Proof/Machine/SwitchBase.lean ====
section
/-!
DEFINITION. Sys2Proof/Machine/SwitchBase.lean: the frame rings of signal memory (R95 to R99) and the field switch (R55 to
R59, R64, R65).
-/
namespace Sys2Proof.Machine

/-! ### Rings (R95) -/

/-- A frame of a port has been placed in a receive ring (R85): FRAME, and the data-ready event while FRAME_EV is 1. -/
def Mod.frameQueued (m : Mod) (p : Nat) : Mod :=
  let b := portBlock p
  (m.put F.SPL_BLK_STATUS_FRAME b true).iff (m.flag F.SPL_BLK_CTRL_FRAME_EV b) (fun m => m.raise (32 + 2 * b))

/-- A write of the firmware's index of a ring: moved, or ignored with RING_ERR. -/
def Mod.ringWrite (m : Mod) (g : Nat) (ring : FwRing) (i : Nat) : Mod :=
  let err := fun (m : Mod) => m.put F.SPL_RGN_STATUS_RING_ERR g true
  match ring with
  | .linkRxCons => if consMoves (m.rd F.SPL_RGN_LRX_PROD_INDEX g) (m.rd F.SPL_RGN_LRX_CONS_INDEX g) i then m.wr F.SPL_RGN_LRX_CONS_INDEX g i else err m
  | .hartRxCons => if consMoves (m.rd F.SPL_RGN_HRX_PROD_INDEX g) (m.rd F.SPL_RGN_HRX_CONS_INDEX g) i then m.wr F.SPL_RGN_HRX_CONS_INDEX g i else err m
  | .linkTxProd => if prodMoves (m.rd F.SPL_RGN_LTX_PROD_INDEX g) (m.rd F.SPL_RGN_LTX_CONS_INDEX g) i 256 then m.wr F.SPL_RGN_LTX_PROD_INDEX g i else err m
  | .hartTxProd => if prodMoves (m.rd F.SPL_RGN_HTX_PROD_INDEX g) (m.rd F.SPL_RGN_HTX_CONS_INDEX g) i 64 then m.wr F.SPL_RGN_HTX_PROD_INDEX g i else err m

/-- How far an index is ahead of another. -/
def ringAhead (i cons : Nat) : Nat := (i + 65536 - cons) % 65536

/-! ### HART rings (R98, R99) -/

/-- A received HART frame placed in its region's ring, or dropped. -/
def Mod.hartReceive (m : Mod) (p : Nat) (fr : HartFrame) (gap : Bool) : Mod :=
  let g := portRegion p
  let e := m.effMode p
  if (e ≠ 3 ∧ e ≠ 5) ∨ !m.phase.full ∨ m.rgnDown g ∨ fr.chars.length = 0 then m
  else
    let prod := m.rd F.SPL_RGN_HRX_PROD_INDEX g
    if ringAhead prod (m.rd F.SPL_RGN_HRX_CONS_INDEX g) = 128 then m.count F.SPL_RGN_HRX_DROP_COUNT g
    else
      let a := signalBase g + 0x2C000 + (prod % 128) * 512
      let len := Nat.min fr.chars.length 496
      let st := b2n fr.parity + 2 * b2n fr.framing + 4 * b2n gap + 8 * b2n fr.carrierLost + 16 * b2n (decide (fr.chars.length > 496))
      let m := ((m.setNum a 2 len).setNum (a + 2) 2 p).setNum (a + 4) 2 st
      let m := (m.setNum (a + 8) 8 fr.start.toNat).setBytes (a + 16) (fr.chars.take 496)
      (m.wr F.SPL_RGN_HRX_PROD_INDEX g ((prod + 1) % 65536)).frameQueued p

/-- The transmit indices of region `g` from consumer to producer. -/
def Mod.htxWaiting (m : Mod) (g : Nat) : List Nat :=
  let cons := m.rd F.SPL_RGN_HTX_CONS_INDEX g
  (upTo (ringAhead (m.rd F.SPL_RGN_HTX_PROD_INDEX g) cons)).map (fun k => (cons + k) % 65536)

/-- The port field of a transmit slot. -/
def Mod.htxPort (m : Mod) (g i : Nat) : Nat := m.num (htxSlot g i + 2) 2

/-- The first slot the modems can take now: neither finished nor in transmission, for a free port with no earlier slot of
that port still waiting; a slot naming a port outside the region waits for none. -/
def Mod.htxNext (m : Mod) (g : Nat) : List Nat → List Nat → Option Nat
  | [], _ => none
  | i :: rest, seen =>
    let p := m.htxPort g i
    if (Tbl.get [] m.htxDone g).contains i then m.htxNext g rest seen
    else if p / 256 ≠ g then some i
    else if seen.contains p then m.htxNext g rest seen
    else match (m.port p).hartTx with
      | some _ => m.htxNext g rest (p :: seen)
      | none => some i

/-- A slot taken: a refusal's result, or the frame starts. The delimiter's start bit follows the preamble of 11-bit
characters at 1,200 bit/s (R45). -/
def Mod.htxTake (m : Mod) (g i : Nat) : Mod :=
  let a := htxSlot g i
  let p := m.htxPort g i
  let len := m.num a 2
  let e := m.effMode p
  if p / 256 ≠ g then m.htxFinish g i 6
  else if len = 0 then m.htxFinish g i 3
  else if len > 496 then m.htxFinish g i 5
  else if (e ≠ 3 ∧ e ≠ 5) ∨ !m.phase.full ∨ m.asStandby then m.htxFinish g i 2
  else
    let pre := Nat.max 5 (m.rd F.PORT_HART_CTRL_PREAMBLE p)
    m.setPort p { m.port p with hartTx := some (i, m.now + pre * 11 * 1000000000 / 1200, pre) }

/-- A transmitted frame ends (R99): result 1 with the instant of the delimiter's start bit. -/
def Mod.htxDone' (m : Mod) (p : Nat) : Mod :=
  match (m.port p).hartTx with
  | none => m
  | some (i, t, pre) =>
    let g := portRegion p
    let a := htxSlot g i
    let m := m.emit (.hart p (List.replicate pre 0xFF ++ m.bytes (a + 16) (m.num a 2)))
    let m := m.setPort p { m.port p with hartTx := none }
    (m.setNum (a + 8) 8 t).htxFinish g i 1

/-! ### The tables of the switch (R55, R56, R64, R65) -/

/-- A forwarding entry; the default is not valid. -/
def Mod.fwdEnt (m : Mod) (e : Nat) : FwdEntry := Tbl.get {} m.fwd e

def FwdEntry.valid (e : FwdEntry) : Bool := e.fld 60 1 == 1
def FwdEntry.static (e : FwdEntry) : Bool := e.fld 61 1 == 1

/-- A word of the VLAN table. -/
def Mod.vlanWord (m : Mod) (i : Nat) : Nat := (Tbl.get 0 m.vlan i).toNat

/-- The VLAN entry of a VID, the lowest where several valid entries have it (DESIGN CHOICE, log entry 80). -/
def Mod.vlanOf (m : Mod) (vid : Nat) : Option Nat :=
  m.vlan.findSome? (fun e => if e.1 % 32 = 0 ∧ bitAt e.2.toNat 12 ∧ bitsOf e.2.toNat 0 12 = vid then some (e.1 / 32) else none)

/-- Whether a switch member is in VLAN entry `v`. -/
def Mod.vlanHas (m : Mod) (v k : Nat) : Bool := bitAt (m.vlanWord (v * 32 + 1 + k / 128)) (k % 128)

/-- The valid forwarding entry of an address and VID. -/
def Mod.fwdFind (m : Mod) (mac vid : Nat) : Option (Nat × FwdEntry) :=
  m.fwd.find? (fun e => e.2.valid && e.2.fld 0 48 == mac && e.2.fld 48 12 == vid)

/-- A learned entry's bits for an ingress. -/
def learnedBits (mac vid ingress : Nat) : BitVec 128 :=
  let (kind, dest) := if ingress < 1024 then (0, ingress) else if ingress < 1032 then (1, ingress - 1024) else (2, 0)
  BitVec.ofNat 128 (mac + vid * 2 ^ 48 + 2 ^ 60 + dest * 2 ^ 64 + kind * 2 ^ 74)

/-- A source address learned (R56): a static entry stands, a learned one is renewed, a free place is taken, or none is. -/
def Mod.learn (m : Mod) (mac vid ingress : Nat) : Mod :=
  if !m.flag F.FSW_CTRL_LEARN || bitAt mac 40 then m
  else
    let ent : FwdEntry := { bits := learnedBits mac vid ingress, used := m.mono }
    match m.fwdFind mac vid with
    | some (i, e) => if e.static then m else { m with fwd := Tbl.set {} m.fwd i ent }
    | none =>
      match (upTo 8192).find? (fun i => !(m.fwdEnt i).valid) with
      | some i => ({ m with fwd := Tbl.set {} m.fwd i ent }).fswCount
      | none => m.count F.FSW_DROP_FULL_COUNT

/-! ### Forwarding -/

/-- The bytes an egress queue holds at most (R57). -/
def egressLimit (k : Nat) : Nat := if k < 1024 then 16384 else 262144

/-- Whether a destination has a link (R57, R322). -/
def Mod.memberUp' (m : Mod) (k : Nat) : Bool :=
  if k < 1024 then m.effMode k == 1 && m.flag F.PORT_STATUS_LINK_UP k
  else
    let n := k - 1024
    if m.lgMode n = 2 then m.flag F.MESH_LG_STATUS_ETH_UP n
    else if m.lgMode n = 1 then (m.link (2 * n)).usable && m.linkState (2 * n) == 4
    else false

/-- Whether a frame holds an event message of IEEE 1588 or IEEE 802.1AS: message types 0 to 3 over Ethernet, or UDP port 319 over IPv4 or
IPv6 (PRESUMED, log entry 39: the standards' encodings). -/
def eventMessage (bs : List Byte) : Bool :=
  let at_ := fun (i : Nat) => (bs.getD i 0).toNat
  let h := if at_ 12 = 0x81 ∧ at_ 13 = 0 then 16 else 12
  let etype := at_ h * 256 + at_ (h + 1)
  let eventPort := fun (udp : Nat) => at_ (udp + 2) * 256 + at_ (udp + 3) == 319
  (etype == 0x88F7 && decide (at_ (h + 2) % 16 < 4)) ||
  (etype == 0x0800 && at_ (h + 2) / 16 == 4 && at_ (h + 11) == 17 && eventPort (h + 2 + at_ (h + 2) % 16 * 4)) ||
  (etype == 0x86DD && at_ (h + 2) / 16 == 6 && at_ (h + 8) == 17 && eventPort (h + 42))

/-- The receive timestamp of a frame that comes in now: of every frame at a link-mode port (R47), and with SRC 2 of an event message at a
lane group in Ethernet mode (R113). -/
def Mod.rxStamp (m : Mod) (ingress : Nat) (bs : List Byte) : Option Nat :=
  if ingress < 1024 then some m.now
  else if m.lgMode (ingress - 1024) = 2 ∧ m.tbSrc = 2 ∧ eventMessage bs then some m.now
  else none

/-- A frame put in the firmware's receive ring of the region of its ingress (R96). A region under reset takes none, which counts as a full
queue does (DESIGN CHOICE, log entry 80: R57 has no drop without a count and names no counter for it). -/
def Mod.toFirmware (m : Mod) (ingress vid pcp : Nat) (tagged : Bool) (fr : EthFrame) : Mod :=
  let g := if ingress < 1024 then portRegion ingress else (ingress - 1024) / 2
  let stamp := m.rxStamp ingress fr.bytes
  if ingress ≥ 1032 then m
  else if m.rgnDown g then m.count F.FSW_DROP_BUF_COUNT
  else
    let prod := m.rd F.SPL_RGN_LRX_PROD_INDEX g
    if ringAhead prod (m.rd F.SPL_RGN_LRX_CONS_INDEX g) = 512 then (m.count F.FSW_DROP_BUF_COUNT).count F.SPL_RGN_LRX_DROP_COUNT g
    else
      let a := signalBase g + 0x40000 + (prod % 512) * 2048
      let m := ((m.setNum a 2 fr.bytes.length).setNum (a + 2) 2 ingress).setNum (a + 4) 2 (vid + pcp * 8192)
      let m := (m.setNum (a + 6) 2 (b2n tagged + 2 * b2n stamp.isSome)).setNum (a + 8) 8 (stamp.getD 0)
      let m := (m.setBytes (a + 16) fr.bytes).wr F.SPL_RGN_LRX_PROD_INDEX g ((prod + 1) % 65536)
      m.iff (decide (ingress < 1024)) (fun m => m.frameQueued ingress)

/-! ### Gates and shapers (R323) -/

/-- Whether a lane group's gate control list runs. -/
def Mod.qbvRuns (m : Mod) (n : Nat) : Bool := m.lgMode n == 2 && m.flag F.MESH_TSN_CTRL_QBV_EN n && m.rd F.MESH_TSN_CYCLE_NS n != 0

/-- Where TB_NOW stands in the cycle of a lane group's gate control list. -/
def Mod.gatePhase (m : Mod) (n : Nat) : Nat :=
  (((m.now : Int) - (m.rd F.MESH_TSN_BASE_TIME n : Int)) % (m.rd F.MESH_TSN_CYCLE_NS n : Int)).toNat

/-- The entries of a lane group's gate control list that begin within the cycle: start, end and gates. The last one lasts to the end of the
cycle, which cuts every entry. -/
def Mod.gateList (m : Mod) (n : Nat) : List (Nat × Nat × Nat) :=
  let cycle := m.rd F.MESH_TSN_CYCLE_NS n
  let len := Nat.max 1 (Nat.min 64 (m.rd F.MESH_TSN_CTRL_GCL_LEN n))
  ((upTo len).foldl (fun (r : Nat × List (Nat × Nat × Nat)) i =>
    let stop := if i + 1 = len then cycle else Nat.min cycle (r.1 + m.rd F.MESH_TSN_GCL_INTERVAL (n * 64 + i))
    if r.1 < cycle then (stop, r.2 ++ [(r.1, stop, m.rd F.MESH_TSN_GCL_GATES (n * 64 + i))]) else r) (0, [])).2

/-- Whether a queue's gate never closes. -/
def Mod.gateAlways (m : Mod) (n q : Nat) : Bool := (m.gateList n).all (fun e => bitAt e.2.2 q)

/-- How long from now the gate of a queue that some entry closes stays open, 0 while it is closed. -/
def Mod.gateLeft (m : Mod) (n q : Nat) : Nat :=
  let cycle := m.rd F.MESH_TSN_CYCLE_NS n
  let p := m.gatePhase n
  let l := m.gateList n
  let ahead := (l ++ l.map (fun e => (e.1 + cycle, e.2.1 + cycle, e.2.2)) ++ l.map (fun e => (e.1 + 2 * cycle, e.2.1 + 2 * cycle, e.2.2))).filter (fun e => decide (p < e.2.1))
  (ahead.takeWhile (fun e => bitAt e.2.2 q)).foldl (fun _ e => e.2.1 - p) 0

/-- The rate of a lane group's Ethernet port in Gbit/s (R322). -/
def Mod.ethGbps (m : Mod) (n : Nat) : Nat :=
  match m.lgRate n with
  | 0 => 400
  | 1 => 200
  | _ => 100

/-- The nanoseconds a frame of `b` bytes with its FCS takes at an Ethernet port, its preamble included (PRESUMED, log 84). -/
def Mod.frameNs (m : Mod) (n b : Nat) : Nat := (8 * (b + 8) + m.ethGbps n - 1) / m.ethGbps n

/-- Whether a frame of `b` bytes with its FCS may start in a queue of a destination as far as gates go (R323): its gate is open until the
frame has ended. -/
def Mod.gateOpen (m : Mod) (k q b : Nat) : Bool :=
  if k < 1024 || !m.qbvRuns (k - 1024) || m.gateAlways (k - 1024) q then true else decide (m.frameNs (k - 1024) b ≤ m.gateLeft (k - 1024) q)

/-- The slope of a queue's credit-based shaper in kbit/s, which is 10^-6 bit in a nanosecond; 0 for none. -/
def Mod.cbsSlope (m : Mod) (k q : Nat) : Nat := if k < 1024 || m.lgMode (k - 1024) ≠ 2 then 0 else m.rd F.MESH_TSN_CBS_SLOPE ((k - 1024) * 8 + q)

/-- A shaped queue's credit now, in 10^-6 bit: it grows with the slope while frames wait, and up to 0 without (IEEE 802.1Qav). -/
def Mod.cbsCredit (m : Mod) (k q : Nat) (waits : Bool) : Int :=
  let e := Tbl.get (0, 0) m.cbs (k * 8 + q)
  let c : Int := e.1 + ((m.cbsSlope k q * (m.mono - e.2) : Nat) : Int)
  if waits then c else if c < 0 then c else if e.1 < 0 then 0 else e.1

/-- A shaped queue's credit taken to now and changed by `d`; without waiting frames no credit above 0 is kept. -/
def Mod.cbsMove (m : Mod) (k q : Nat) (was now : Bool) (d : Int) : Mod :=
  if m.cbsSlope k q = 0 then m
  else
    let c := m.cbsCredit k q was + d
    { m with cbs := Tbl.set (0, 0) m.cbs (k * 8 + q) (if !now && decide (0 < c) then 0 else c, m.mono) }

/-- Whether a queue's shaper lets a frame start. -/
def Mod.cbsOpen (m : Mod) (k q : Nat) : Bool := m.cbsSlope k q == 0 || decide (0 ≤ m.cbsCredit k q true)

/-- The frame an egress sends next: of the highest priority, the oldest, among the queues whose gate and shaper let it start. -/
def Mod.egressPick (m : Mod) (k : Nat) (q : List QFrame) : Option QFrame :=
  ((List.range 8).reverse).findSome? (fun pr => (q.find? (fun x => x.prio == pr)).bind (fun x =>
    if m.gateOpen k pr (x.bytes.length + 4) && m.cbsOpen k pr then some x else none))

/-! ### Forwarding -/

/-- A frame queued at one destination, or dropped with its count (R57): whether it was queued. -/
def Mod.toMember (m : Mod) (ingress k vid pcp : Nat) (tagged : Bool) (fr : EthFrame) (ts : Option (Nat × Nat)) : Mod × Bool :=
  if k = 1032 then (m.toFirmware ingress vid pcp tagged fr, false)
  else if !m.memberUp' k then (m.count F.FSW_DROP_NOLINK_COUNT, false)
  else
    let q := Tbl.get [] m.egress k
    if (q.map (fun x => x.bytes.length)).sum + fr.bytes.length > egressLimit k then (m.count F.FSW_DROP_BUF_COUNT, false)
    else
      let waits := q.any (·.prio == pcp)
      ({ m.cbsMove k pcp waits true 0 with egress := Tbl.set [] m.egress k (q ++ [⟨pcp, fr.bytes, ts⟩]) }, true)

/-- Where a frame of a VLAN goes (R55): its destinations, or dropped, by the VLAN rules or by an entry of DKIND 4. -/
def Mod.destinations (m : Mod) (ingress v vid mac : Nat) : Option (List Nat) :=
  let one := fun (k : Nat) => if m.vlanHas v k then some (if k = ingress then [] else [k]) else none
  match m.fwdFind mac vid with
  | none => some ((upTo 1033).filter (fun k => k != ingress && m.vlanHas v k))
  | some (_, e) =>
    match e.fld 74 3 with
    | 0 => one (e.fld 64 10)
    | 1 => one (1024 + e.fld 64 3)
    | 2 => one 1032
    | 3 =>
      let grp := e.fld 64 8
      some ((upTo 1033).filter (fun k => k != ingress && m.vlanHas v k && m.vlanHas grp k))
    | _ => none

/-- VID, PCP and whether tagged, from a frame's own 802.1Q tag or from defaults (R55, R97); a tag with VID 0 carries a
priority alone. -/
def tagOf (bs : List Byte) (vid pcp : Nat) : Nat × Nat × Bool :=
  let at_ := fun (i : Nat) => (bs.getD i 0).toNat
  if at_ 12 = 0x81 ∧ at_ 13 = 0 ∧ bs.length ≥ 16 then
    let tci := at_ 14 * 256 + at_ 15
    (if tci % 4096 = 0 then vid else tci % 4096, tci / 8192, true)
  else (vid, pcp, false)

/-- The address of 6 bytes, most significant first, as an entry's MAC. -/
def macAt (bs : List Byte) (off : Nat) : Nat := ((bs.drop off).take 6).foldl (fun a b => a * 256 + b.toNat) 0

/-- The use of a learned entry by traffic holds off its ageing. -/
def Mod.touchFwd (m : Mod) (mac vid : Nat) : Mod :=
  match m.fwdFind mac vid with
  | some (i, e) => if e.static then m else { m with fwd := Tbl.set {} m.fwd i { e with used := m.mono } }
  | none => m

/-- A frame in the switch: whether it was queued at some egress. `direct` names the only destination (R97). A frame that an entry of
DKIND 4 drops, or that has no destination but its own ingress, counts as one that the VLAN rules drop does (DESIGN CHOICE, log entry 80: R57
has no drop without a count and names no counter for these). A frame whose source finds no free entry goes where its destination's entry
says, and is flooded where that has none (DESIGN CHOICE, log entry 80: R56 says that its forwarding proceeds by flooding). -/
def Mod.switchFrame (m : Mod) (ingress vid pcp : Nat) (tagged : Bool) (fr : EthFrame) (direct : Option Nat) (ts : Option (Nat × Nat)) : Mod × Bool :=
  let drop := (m.count F.FSW_DROP_VLAN_COUNT, false)
  match m.vlanOf vid with
  | none => drop
  | some v =>
    if !m.vlanHas v ingress then drop
    else
      let mac := macAt fr.bytes 0
      let m := (m.learn (macAt fr.bytes 6) vid ingress).touchFwd mac vid
      let dests := match direct with
        | some k => if m.vlanHas v k then some [k] else none
        | none => m.destinations ingress v vid mac
      match dests with
      | none => (m.count F.FSW_DROP_VLAN_COUNT, false)
      | some [] => (m.count F.FSW_DROP_VLAN_COUNT, false)
      | some l => l.foldl (fun r k =>
          let (m, q) := r.1.toMember ingress k vid pcp tagged fr ts
          (m, r.2 || q)) (m, false)

/-- Whether frames can come in at an ingress: by a port or lane group that has its link (R47, R322), or by a link of one that tunnels. -/
def Mod.ingressUp (m : Mod) (k : Nat) : Bool :=
  if k < 1024 || m.lgMode (k - 1024) ≠ 1 then m.memberUp' k
  else [2 * (k - 1024), 2 * (k - 1024) + 1].any (fun l => (m.link l).usable && (m.linkState l == 4 || m.linkState l == 5))

/-- Whether a frame is one a member's MAC takes (R47, R322): 64 to 1,522 bytes, its FCS among them, which is right. -/
def frameGood (fr : EthFrame) : Bool := fr.fcsOk && decide (60 ≤ fr.bytes.length) && decide (fr.bytes.length ≤ 1518)

/-- A frame received by the switch from a port or a lane group (R55). An untagged frame of a lane group is given VID 0 (DESIGN CHOICE,
log entry 80: R55 gives a VID to an untagged frame from a port only). While ENABLE is 0 the frame is dropped, and counted as one that the
VLAN rules drop (DESIGN CHOICE, log entry 80). A frame that the MAC does not take is dropped there (R47, R322), and a member without its
link, which a lane group in MODE 0 or 3 never has (R322), brings none. -/
def Mod.switchReceive (m : Mod) (ingress : Nat) (fr : EthFrame) : Mod :=
  if ingress ≥ 1032 || !frameGood fr || !m.ingressUp ingress then m
  else if !m.flag F.FSW_CTRL_ENABLE then m.count F.FSW_DROP_VLAN_COUNT
  else
    let (vid, pcp, tagged) := tagOf fr.bytes (if ingress < 1024 then m.rd F.PORT_LINK_CTRL_PVID ingress else 0) 0
    (m.switchFrame ingress vid pcp tagged fr none none).1

/-! ### Firmware frames (R97) -/

/-- A link transmit slot has its result and is released in ring order (R95). -/
def Mod.ltxFinish (m : Mod) (g i : Nat) : Mod :=
  let old := m.rd F.SPL_RGN_LTX_CONS_INDEX g
  let (c, done) := releaseFront 256 old (i :: Tbl.get [] m.ltxDone g)
  { m.wr F.SPL_RGN_LTX_CONS_INDEX g c with
    ltxDone := Tbl.set [] m.ltxDone g done, ltxTaken := Tbl.set 0 m.ltxTaken g (Tbl.get 0 m.ltxTaken g - ringAhead c old) }

/-- The link transmit slot with ring index `i`. -/
def ltxSlot (g i : Nat) : Nat := signalBase g + 0x140000 + (i % 256) * 2048

/-- The switch takes the next slot of region `g`. -/
def Mod.ltxTake (m : Mod) (g : Nat) : Mod :=
  let cons := m.rd F.SPL_RGN_LTX_CONS_INDEX g
  let taken := Tbl.get 0 m.ltxTaken g
  if !m.flag F.FSW_CTRL_ENABLE || m.rgnDown g || ringAhead (m.rd F.SPL_RGN_LTX_PROD_INDEX g) cons ≤ taken then m
  else
    let i := (cons + taken) % 65536
    let a := ltxSlot g i
    let m := { m with ltxTaken := Tbl.set 0 m.ltxTaken g (taken + 1) }
    let len := m.num a 2
    let bs := m.bytes (a + 16) (Nat.min len 1522)
    let egr := m.num (a + 2) 2
    let vp := m.num (a + 4) 2
    let (vid, pcp, tagged) := tagOf bs (vp % 4096) (vp / 8192)
    let direct := if bitAt egr 15 then some (egr % 2048) else none
    let result := fun (m : Mod) (r : Nat) => m.setNum (a + 7) 1 r
    let tooFar := match direct with
      | some k => decide (k ≥ 1032)
      | none => false
    if len = 0 then (result m 4).ltxFinish g i
    else if len > 1518 ∨ (!tagged ∧ len > 1514) then ((result m 2).count F.SPL_RGN_LTX_ERR_COUNT g).ltxFinish g i
    else if tooFar then ((result m 3).count F.SPL_RGN_LTX_ERR_COUNT g).ltxFinish g i
    else
      let fr : EthFrame := ⟨bs ++ List.replicate (60 - bs.length) 0, true⟩
      let req := bitAt (m.num (a + 6) 1) 0
      let (m, sent) := m.switchFrame 1032 vid pcp tagged fr direct (if req then some (g, i) else none)
      let m := result m 1
      if req && sent then m
      else (m.iff req (fun m => m.setNum (a + 8) 8 0)).ltxFinish g i

/-! ### Egress (R55, R97, R322, R323) -/

/-- A frame with the FCS its egress appends (R97): the CRC-32 of IEEE 802.3 over it, least significant byte first (PRESUMED, log
entry 39). -/
def withFcs (bytes : List Byte) : List Byte := bytes ++ leBytes 4 (crc32 bytes)

/-- A frame of `bytes`, its FCS included, as ETH flits for link `l` (R322): its length in the first TID. -/
def ethFlits (m : Mod) (l : Nat) (bytes : List Byte) : List Flit :=
  let b := bytes.length
  let n := (b + 63) / 64
  (upTo n).map (fun i =>
    ⟨BitVec.ofNat 12 (m.rd F.MESH_LINK_STATUS_PEER l), BitVec.ofNat 12 m.node, 3, 0x30, 0, BitVec.ofNat 16 (if i = 0 then b else 0), 0, 0,
      BitVec.ofNat 5 (if i = 0 then n - 1 else 0), 1, false, 0, false,
      false, BitVec.ofNat 512 (ofLeBytes ((bytes.drop (64 * i)).take 64))⟩)

/-- The transmit slot that asked for a frame's timestamp gets it at the first egress. -/
def Mod.stampSlot (m : Mod) (ts : Option (Nat × Nat)) : Mod :=
  match ts with
  | none => m
  | some (g, i) =>
    let m := { m with egress := m.egress.map (fun (e : Nat × List QFrame) => (e.1, e.2.map (fun (x : QFrame) => if x.ts = some (g, i) then { x with ts := none } else x))) }
    (m.setNum (ltxSlot g i + 8) 8 m.now).ltxFinish g i

/-- A frame leaves an egress queue. -/
def Mod.egressSend (m : Mod) (k : Nat) : Mod :=
  let q := Tbl.get [] m.egress k
  if k ≥ 1032 || !m.memberUp' k then m
  else match m.egressPick k q with
    | none => m
    | some x =>
      let m := { m with egress := Tbl.set [] m.egress k (q.erase x) }
      let m := m.cbsMove k x.prio true ((q.erase x).any (·.prio == x.prio)) (-((8000000 * (x.bytes.length + 4) : Nat) : Int))
      let m := if k ≥ 1024 && m.lgMode (k - 1024) == 1 then m.sendParcels (2 * (k - 1024)) none ((ethFlits m (2 * (k - 1024)) (withFcs x.bytes)).map .flit)
        else m.emit (.eth k (withFcs x.bytes))
      m.stampSlot x.ts

/-! ### Table commands (R56, R59, R64, R65) -/

/-- A forwarding entry as it can be staged (R56, R64): static, its age field and reserved bits 0. DEST bits that the DKIND does not use are kept
as they were given and read back (DESIGN CHOICE, log entry 80: R64 has software give them as 0). -/
def fwdBits (data : Nat) : Nat := withBits (withBits (withBits (data % 2 ^ 77) 61 1 1) 62 2 0) 96 32 0

/-- A word of the VLAN table without its reserved bits (R65): VID and VALID in word 0, members 0 to 1,032 in words 1 to 9. -/
def vlanBits (index data : Nat) : Nat :=
  let w := index % 32
  if w = 0 then data % 2 ^ 13 else if w < 9 then data % 2 ^ 128 else if w = 9 then data % 2 ^ 9 else 0

/-- A table entry staged (R56, OP 1), its reserved bits 0. -/
def Mod.stageEntry (m : Mod) (space : Bool) (index : Nat) (data : BitVec 128) : Mod :=
  if space then { m with vlanStage := Tbl.set none m.vlanStage index (some (BitVec.ofNat 128 (vlanBits index data.toNat))) }
  else { m with fwdStage := Tbl.set none m.fwdStage index (some (BitVec.ofNat 128 (fwdBits data.toNat))) }

/-- An entry offered by master `w`: staged as ST fields are (R56, R380), ignored with ST_REFUSED where direct writes may not stage; an entry
with a reserved DKIND is kept out and reported (R7). -/
def Mod.stageOffer (m : Mod) (w : Writer) (space : Bool) (index : Nat) (data : BitVec 128) : Mod :=
  if !m.mayStage w.master.toNat then m.put F.CFG_STATUS_ST_REFUSED 0 true
  else if !space && decide (5 ≤ bitsOf data.toNat 74 3) then m.cellFault 4 0x02 4 11 (Reg.place .FSW_TBL_CMD).off w.master.toNat
  else m.stageEntry space index data

/-- A write of FSW_TBL_CMD: what it does unless a command is in progress. A learned entry's AGE_LEFT is AGE less the whole units of 10 s
without traffic; OP 2 in the VLAN table stages word 0 of the entry as 0, whichever word INDEX names, and leaves the members (DESIGN
CHOICE, log entry 80, both). -/
def Mod.tblCmd (m : Mod) (w : Writer) (op : Nat) (space : Bool) (index : Nat) : Mod :=
  if m.flag F.FSW_STATUS_BUSY then m.put F.FSW_STATUS_CMDLOST 0 true
  else
    let data : BitVec 128 := BitVec.ofNat 128 ((upTo 4).foldl (fun a n => a + m.rd F.FSW_TBL_DATA_DATA n * 2 ^ (32 * n)) 0)
    let m := m.put F.FSW_STATUS_BUSY 0 true
    match op with
    | 0 =>
      let v := if space then m.vlanWord index
        else
          let e := m.fwdEnt index
          let age := m.rd F.FSW_CTRL_AGE
          if e.valid && !e.static then withBits e.bits.toNat 96 16 (age - (m.mono - e.used) / 10000000000) else e.bits.toNat
      m.each (upTo 4) (fun m n => m.wr F.FSW_TBL_DATA_DATA n (bitsOf v (32 * n) 32))
    | 1 => m.stageOffer w space index data
    | _ =>
      if !m.mayStage w.master.toNat then m.put F.CFG_STATUS_ST_REFUSED 0 true
      else if space then { m with vlanStage := Tbl.set none m.vlanStage (index / 32 * 32) (some 0) }
      else { m with fwdStage := Tbl.set none m.fwdStage index (some 0) }

/-- The staged table entries take effect (R56); members of a group keep their order of words. A static entry committed for an address and
VID that a learned entry holds at another index leaves that entry, and the lower index is the one found (DESIGN CHOICE, log entry 80). -/
def Mod.tablesCommit (m : Mod) : Mod :=
  let m := m.each m.fwdStage (fun m e => match e.2 with
    | some b => { m with fwd := Tbl.set {} m.fwd e.1 { bits := b, used := 0 } }
    | none => m)
  let m := m.each m.vlanStage (fun m e => match e.2 with
    | some b => { m with vlan := Tbl.set 0 m.vlan e.1 b }
    | none => m)
  ({ m with fwdStage := [], vlanStage := [] }).fswCount

/-- A learned entry without traffic for AGE × 10 s goes (R56). -/
def Mod.ageOut (m : Mod) (i : Nat) : Mod :=
  let e := m.fwdEnt i
  let age := m.rd F.FSW_CTRL_AGE
  if age = 0 || !e.valid || e.static then m
  else
    let m := m.toMono (e.used + age * 10000000000)
    ({ m with fwd := Tbl.set {} m.fwd i {} }).fswCount

end Sys2Proof.Machine
end

