-- ==== Sys2Proof/Machine/ImageBase.lean ====
section
/-!
DEFINITION. Sys2Proof/Machine/ImageBase.lean: configuration images (R372 to R374, R379, R391): their header and sections,
their checks, the values they stage, the image of a LOCAL move.
-/
namespace Sys2Proof.Machine

/-! ### Header (R372) -/

/-- A number of `n` bytes at an offset of an image. -/
def imgN (im : List Byte) (off n : Nat) : Nat := ofLeBytes ((im.drop off).take n)

def imgMove (im : List Byte) : Nat := imgN im 0x08 4
def imgFederated (im : List Byte) : Bool := bitAt (imgN im 0x0C 4) 0
def imgProbMs (im : List Byte) : Nat := imgN im 0x18 4
def imgDigest (im : List Byte) : Nat := imgN im 0x40 32

/-- The node IDs an image names (R372); none for this module only. -/
def imgMembers (im : List Byte) : List Nat :=
  (upTo (imgN im 0x24 2)).map (fun k => imgN im (imgN im 0x2C 4 + 2 * k) 2)

/-! ### Sections (R373) -/

/-- A section: type, parameter, content. -/
structure Sect where
  ty : Nat
  param : Nat
  data : List Byte
  deriving DecidableEq, Repr

/-- The sections of an image, in table order. -/
def imgSects (im : List Byte) : List Sect :=
  (upTo (imgN im 0x14 2)).map (fun k =>
    let e := 256 + 16 * k
    ⟨imgN im e 2, imgN im (e + 2) 2, (im.drop (imgN im (e + 4) 4)).take (imgN im (e + 8) 4)⟩)

/-- The pieces of `n` bytes of a section's content. -/
def Sect.items (s : Sect) (n : Nat) : List (List Byte) :=
  (upTo (s.data.length / n)).map (fun k => (s.data.drop (n * k)).take n)

/-- The register pairs of an image: offset and value. -/
def imgPairs (im : List Byte) : List (Nat × Nat) :=
  ((imgSects im).filter (·.ty == 1)).flatMap (fun s => (s.items 8).map (fun b => (imgN b 0 4, imgN b 4 4)))

/-- The code store sectors of an image: region, sector, bytes. -/
def imgCode (im : List Byte) : List (Nat × Nat × List Byte) :=
  ((imgSects im).filter (·.ty == 2)).flatMap (fun s =>
    (s.items 0x10000).zipIdx.map (fun (b, k) => (bitsOf s.param 0 2, bitsOf s.param 8 7 + k, b)))

/-- The calibration banks of an image: region, bytes. -/
def imgCal (im : List Byte) : List (Nat × List Byte) :=
  ((imgSects im).filter (·.ty == 3)).map (fun s => (s.param, s.data))

/-- The field-switch entries of an image: VLAN space, index, entry. -/
def imgFsw (im : List Byte) : List (Bool × Nat × BitVec 128) :=
  ((imgSects im).filter (·.ty == 4)).flatMap (fun s => (s.items 20).map (fun b =>
    (bitAt (imgN b 16 4) 13, bitsOf (imgN b 16 4) 0 13, BitVec.ofNat 128 (imgN b 0 16))))

/-- A gate entry of an image: gate, entry, and the values of BASE, TOP, MASTERS and CTRL. -/
structure GateItem where
  gate : Nat
  entry : Nat
  base : Nat
  top : Nat
  masters : Nat
  ctrl : Nat
  deriving DecidableEq, Repr

def imgGates (im : List Byte) : List GateItem :=
  ((imgSects im).filter (·.ty == 5)).flatMap (fun s => (s.items 36).map (fun b =>
    ⟨s.param, imgN b 32 4, bitsOf (imgN b 0 8) 4 48 * 16, bitsOf (imgN b 8 8) 4 48 * 16, bitsOf (imgN b 16 8) 0 61, imgN b 24 4⟩))

/-! ### Checks (R372, R373, R382) -/

/-- Whether a REG pair names a register with an ST field and sets no other bit. -/
def pairOk (off v : Nat) : Bool :=
  off % 4 == 0 && (match regAt off with
    | some (r, _, b) =>
      let mask := (r.stMask >>> (8 * b)) % 2 ^ 32
      mask != 0 && v &&& (0xFFFFFFFF - mask) == 0
    | none => false)

/-- Whether a section has a type of R373 and fits it. -/
def Sect.ok (s : Sect) : Bool :=
  match s.ty with
  | 1 => s.param == 0 && s.data.length % 8 == 0
  | 2 => s.data.length % 0x10000 == 0 && withBits (withBits s.param 0 2 0) 8 7 0 == 0 &&
      decide (bitsOf s.param 8 7 + s.data.length / 0x10000 ≤ 128)
  | 3 => decide (s.param < 4) && s.data.length == 0x20000
  | 4 => s.param == 0 && s.data.length % 20 == 0 && (s.items 20).all (fun b => decide (imgN b 16 4 < 0x4000))
  | 5 => s.data.length % 36 == 0 && (s.items 36).all (fun b => decide (imgN b 32 4 < gateEntries s.param))
  | 0xFF => s.param == 0
  | _ => false

/-- Whether the section table stands: reserved words 0, every section inside the image. -/
def imgTableOk (im : List Byte) : Bool :=
  (upTo (imgN im 0x14 2)).all (fun k =>
    let e := 256 + 16 * k
    imgN im (e + 12) 4 == 0 && decide (imgN im (e + 4) 4 + imgN im (e + 8) 4 ≤ im.length))

/-- What the build digest is over (R372): header bytes 0x000 to 0x03F and the sections; the signature trailer signs the digest. -/
def imgDigested (im : List Byte) : List Byte := im.take 0x40 ++ ((imgSects im).filter (·.ty != 0xFF)).flatMap Sect.data

/-- Whether an image's build digest is that of its bytes. -/
def imgDigestOk (im : List Byte) : Bool := imgDigest im == ofLeBytes (sha256 (imgDigested im))

/-- Whether an image has the structure of R372 and R373, its digest apart. -/
def imgShape (im : List Byte) : Bool :=
  let n := imgN im
  let cnt := n 0x14 2
  decide (256 + 16 * cnt ≤ im.length) && n 0 4 == 0x49435642 && n 4 2 == 4 && n 6 2 == 256 && decide (n 0x0C 4 < 2) &&
  n 0x10 4 == im.length && decide (im.length ≤ 0x10000000) && decide (1 ≤ cnt) && decide (cnt ≤ 64) &&
  decide (imgProbMs im ≤ 86400000) && (!imgFederated im || decide (2000 ≤ imgProbMs im)) && decide (n 0x20 4 < 8) &&
  decide (n 0x24 2 ≤ 4095) && (n 0x24 2 == 0 || decide (n 0x2C 4 + 2 * n 0x24 2 ≤ im.length)) && n 0x30 4 == 0x1024 &&
  ((im.drop 0x60).take 0xA0).all (· == 0) && imgTableOk im && (imgSects im).all Sect.ok &&
  ((imgSects im).filter (·.ty == 0xFF)).length == 1 && (imgPairs im).all (fun p => pairOk p.1 p.2)

/-- Whether an image is well formed (R372, R373). -/
def imgOk (im : List Byte) : Bool := imgShape im && imgDigestOk im

/-! ### The values an image stages (R374) -/

/-- A register pair staged; a field given a reserved encoding keeps its staged value (R7). -/
def Mod.stagePair (m : Mod) (off v : Nat) : Mod :=
  match regAt off with
  | some (r, i, b) => m.setStaged r i (r.take i (· == .st) (m.stagedReg r i) (v <<< (8 * b)) (byteMask b 4)).1
  | none => m

/-- Whether an entry of an image is one the switch takes: a forwarding entry with a reserved DKIND is not (R7, R64). -/
def fswTaken (e : Bool × Nat × BitVec 128) : Bool := e.1 || decide (bitsOf e.2.2.toNat 74 3 < 5)

/-- The staging view of an image: every ST field at its value there or at reset, its field-switch entries staged. -/
def Mod.stageValues (m : Mod) (im : List Byte) : Mod :=
  let m := { m.unstage with stageImage := true }
  let m := m.each (imgPairs im) (fun m p => m.stagePair p.1 p.2)
  m.each ((imgFsw im).filter fswTaken) (fun m e => m.stageEntry e.1 e.2.1 e.2.2)

/-- The register-space offsets at which an image's staging offers a reserved encoding (R7). -/
def imgReserved (im : List Byte) : List Nat :=
  ((imgPairs im).filter (fun p => match regAt p.1 with
    | some (r, i, b) => (r.take i (· == .st) 0 (p.2 <<< (8 * b)) (byteMask b 4)).2
    | none => false)).map Prod.fst ++
  ((imgFsw im).filter (fun e => !fswTaken e)).map (fun _ => (Reg.place .FSW_TBL_CMD).off)

/-- The staging view, to be put back after an image's values stood in it. -/
structure View where
  staged : Tbl (BitVec 64)
  image : Bool
  fwd : Tbl (Option (BitVec 128))
  vlan : Tbl (Option (BitVec 128))
  deriving DecidableEq, Repr

def Mod.view (m : Mod) : View := ⟨m.staged, m.stageImage, m.fwdStage, m.vlanStage⟩

def Mod.setView (m : Mod) (v : View) : Mod :=
  { m with staged := v.staged, stageImage := v.image, fwdStage := v.fwd, vlanStage := v.vlan }

/-- The other calibration bank of each region an image brings one for is staged (R381). -/
def Mod.stageBanks (m : Mod) (im : List Byte) : Mod :=
  m.each (imgCal im) (fun m c => m.stage F.SPL_RGN_CAL_BANK c.1 (1 - m.rd F.SPL_RGN_CAL_BANK c.1))

/-- Whether the code store holds an image's sectors (R388, R393). -/
def Mod.codeMatches (m : Mod) (im : List Byte) : Bool :=
  (imgCode im).all (fun s => m.bytes (codeBase s.1 + 0x10000 * s.2.1) 0x10000 == s.2.2)

/-! ### LOCAL images (R391) -/

/-- The register pairs of the staging view: every 32-bit register with an ST field that is not at reset. -/
def Mod.viewPairs (m : Mod) : List (Nat × Nat) :=
  let keys := ((Tbl.keys m.regs) ++ (Tbl.keys m.staged).filter (fun k => (Tbl.look m.regs k).isNone) ++
    (Tbl.keys m.parked).filter (fun k => (Tbl.look m.regs k).isNone && (Tbl.look m.staged k).isNone))
  keys.flatMap (fun k =>
    let r := regNo (k % 512)
    let i := k / 512
    let v := m.stagedReg r i &&& r.stMask
    let z := r.resetVal i &&& r.stMask
    (upTo (r.place.bytes / 4)).filterMap (fun w =>
      if bitsOf v (32 * w) 32 = bitsOf z (32 * w) 32 then none else some (r.offset i + 4 * w, bitsOf v (32 * w) 32)))

/-- An image laid out (R372): its first 64 bytes for its section count, size and member list offset; its digest, computed where none is given;
its members, sections and signature trailer. -/
def imgBuild (head : Nat → Nat → Nat → List Byte) (digest : Option (List Byte)) (members : List Nat) (body : List Sect)
    (sig : List Byte → List Byte) : List Byte :=
  let cnt := body.length + 1
  let mem := 256 + 16 * cnt
  let start := mem + 2 * members.length
  let stop := body.foldl (fun a s => a + s.data.length) start
  let dig := fun (h : List Byte) => digest.getD (sha256 (h ++ body.flatMap Sect.data))
  let len := (sig []).length
  let table := (body.foldl (fun (a : List Byte × Nat) s =>
    (a.1 ++ leBytes 2 s.ty ++ leBytes 2 s.param ++ leBytes 4 a.2 ++ leBytes 4 s.data.length ++ leBytes 4 0, a.2 + s.data.length)) ([], start)).1 ++
    leBytes 2 0xFF ++ leBytes 2 0 ++ leBytes 4 stop ++ leBytes 4 len ++ leBytes 4 0
  let h := head cnt (stop + len) (if members.isEmpty then 0 else mem)
  h ++ dig h ++ List.replicate 160 0 ++ table ++ members.flatMap (leBytes 2) ++ body.flatMap Sect.data ++ sig (dig h)

/-- The image of a LOCAL move: the sections of the settled move with a REG section from the staging view, member count 0,
PROB_MS 0, the Rook's countersignature. -/
def Mod.localImage (m : Mod) (move : Nat) (settled : Option (List Byte)) : List Byte :=
  let reg : Sect := ⟨1, 0, m.viewPairs.flatMap (fun p => leBytes 4 p.1 ++ leBytes 4 p.2)⟩
  let old := match settled with
    | some im => (imgSects im).filter (fun s => s.ty != 1 && s.ty != 0xFF)
    | none => []
  imgBuild (fun cnt total mem =>
    leBytes 4 0x49435642 ++ leBytes 2 4 ++ leBytes 2 256 ++ leBytes 4 move ++ leBytes 4 0 ++ leBytes 4 total ++
    leBytes 2 cnt ++ leBytes 2 0 ++ leBytes 4 0 ++ leBytes 2 0xFFFF ++ leBytes 2 0xFFFF ++ leBytes 4 0 ++ leBytes 2 0 ++ leBytes 2 0 ++
    leBytes 4 0 ++ leBytes 4 mem ++ leBytes 4 0x1024 ++ List.replicate 12 0) none [] (reg :: old)
    (fun d => leBytes 64 (Config.localSig d).toNat)

/-! ### Schema 3 images (R379) -/

/-- Whether an offset belongs to a port block or pipeline of ports 0 to 255, or to neither. -/
def keepsPort (off : Nat) : Bool := decide (off < 0x800000) || decide (0xC00000 ≤ off) || decide (off % 0x200000 / 0x10000 < 8)

/-- A section of a schema 3 image as the native one has it: ports above 255 take reset values; none where a field has no equivalent. -/
def sect3 (s : Sect) : Option Sect :=
  if s.ty = 1 then
    (Config.convertPairs s.data).map (fun l => ⟨1, 0, (l.filter (fun p => keepsPort p.1)).flatMap (fun p => leBytes 4 p.1 ++ leBytes 4 p.2)⟩)
  else if 2 ≤ s.ty ∧ s.ty ≤ 5 then (Config.convertSection s.ty s.param s.data).map (fun e => ⟨s.ty, e.1, e.2⟩)
  else none

/-- Every section converted, in order, or none. -/
def sects3 : List Sect → Option (List Sect)
  | [] => some []
  | s :: l => match sect3 s, sects3 l with
    | some x, some y => some (x :: y)
    | _, _ => none

/-- A 10-bit node ID widened. -/
def node3 (n : Nat) : Nat := if n % 1024 = 0x3FF then 0xFFF else n % 1024

/-- The native image a schema 3 image is converted to; its build digest and signature stay those of the schema 3 image. -/
def convert3 (im : List Byte) : Option (List Byte) :=
  if im.length < 256 + 16 * imgN im 0x14 2 then none
  else match sects3 ((imgSects im).filter (·.ty != 0xFF)) with
  | none => none
  | some body =>
    some (imgBuild (fun cnt total mem =>
      im.take 4 ++ leBytes 2 4 ++ (im.drop 6).take 10 ++ leBytes 4 total ++ leBytes 2 cnt ++ (im.drop 0x16).take 0x16 ++
      leBytes 4 mem ++ leBytes 4 0x1024 ++ (im.drop 0x34).take 12) (some ((im.drop 0x40).take 32)) ((imgMembers im).map node3) body
      (fun _ => ((imgSects im).filter (·.ty == 0xFF)).flatMap Sect.data))

end Sys2Proof.Machine
end

