-- ==== Sys2Proof/Machine/FrameCode.lean ====
section
/-!
DEFINITION. Sys2Proof/Machine/FrameCode.lean: the place of a DRAM line (R256), the 80 symbols of its frame (R258, R259), the RS(80,65) code
over GF(2^8) and its bounded-distance decoder (R260, R261). A symbol is a number below 256; a word of the code lists its symbols from symbol 0,
the coefficient of x^79, on.
-/
namespace Sys2Proof.Machine

/-! ### The place of a line (R256) -/

/-- The sub-channel of a line. -/
def subChannel (ln : Nat) : Nat := bitsOf ln 0 3 ^^^ bitsOf ln 14 3
/-- The column address of a line's burst. -/
def burstColumn (ln : Nat) : Nat := 16 * bitsOf ln 3 6
/-- The bank group of a line. -/
def bankGroup (ln : Nat) : Nat := bitsOf ln 9 3 ^^^ bitsOf ln 17 3
/-- The bank of a line within its bank group. -/
def bankOf (ln : Nat) : Nat := bitsOf ln 12 2
/-- The row of a line. -/
def rowOf (ln : Nat) : Nat := bitsOf ln 14 16

/-! ### The place of a symbol (R258) -/

/-- The device that carries a symbol. -/
def symbolDevice (s : Nat) : Nat := s / 16
/-- The DQ line of that device. -/
def symbolLine (s : Nat) : Nat := s % 16 / 2
/-- The beat that carries bit `b` of a symbol. -/
def symbolBeat (s b : Nat) : Nat := 8 * (s % 2) + b

/-! ### The field (R260) -/

/-- A field element times the root α of x^8 + x^4 + x^3 + x^2 + 1. -/
def gfDouble (a : Nat) : Nat := if a ≥ 128 then (2 * a) ^^^ 0x11D else 2 * a

/-- The product of two field elements, the second taken bit by bit. -/
def gfMulBits : Nat → Nat → Nat → Nat
  | 0, _, _ => 0
  | k + 1, a, b => (if b % 2 = 1 then a else 0) ^^^ gfMulBits k (gfDouble a) (b / 2)

def gfMul (a b : Nat) : Nat := gfMulBits 8 a b

/-- α^n. -/
def alphaPow : Nat → Nat
  | 0 => 1
  | n + 1 => gfDouble (alphaPow n)

/-- a^n. -/
def gfPow (a : Nat) : Nat → Nat
  | 0 => 1
  | n + 1 => gfMul a (gfPow a n)

/-- The inverse of an element that is not 0. -/
def gfInv (a : Nat) : Nat := gfPow a 254

/-- The value at `x` of a polynomial whose highest coefficient comes first. -/
def gfEval (p : List Nat) (x : Nat) : Nat := p.foldl (fun a c => gfMul a x ^^^ c) 0

/-! ### The code (R260) -/

/-- g(x) = (x - α^0)(x - α^1) … (x - α^14), its highest coefficient first. -/
def rsGenerator : List Nat :=
  (upTo 15).foldl (fun g j => List.zipWith (· ^^^ ·) (g ++ [0]) (0 :: g.map (gfMul (alphaPow j)))) [1]

/-- The 15 check bytes of 65 symbols: the remainder of their polynomial times x^15 modulo g. -/
def rsCheck (msg : List Nat) : List Nat :=
  msg.foldl (fun r s =>
    let f := s ^^^ r.headD 0
    List.zipWith (· ^^^ ·) (r.drop 1 ++ [0]) ((rsGenerator.drop 1).map (gfMul f))) (List.replicate 15 0)

/-- The metadata byte of a frame (R259). -/
def frameMeta (tags : BitVec 4) (poison : Bool) : Nat := tags.toNat + 16 * b2n poison

/-- The 80 symbols of a frame (R258). -/
def frameSymbols (data : BitVec 512) (tags : BitVec 4) (poison : Bool) : List Nat :=
  let msg := (leBytes 64 data.toNat).map BitVec.toNat ++ [frameMeta tags poison]
  msg ++ rsCheck msg

/-! ### The decoder (R261) -/

/-- The 15 syndromes of a word: its values at α^0 to α^14, all 0 for a codeword. -/
def rsSyndromes (w : List Nat) : List Nat := (upTo 15).map (fun j => gfEval w (alphaPow j))

/-- A word with symbol errors added. -/
def withErrors (w : List Nat) (es : List (Nat × Nat)) : List Nat :=
  es.foldl (fun w e => w.set e.1 (w.getD e.1 0 ^^^ e.2)) w

/-- The state of the search for the error locator: the locator and the previous one, lowest coefficient first, the number of errors assumed, the
steps since the previous one and the discrepancy it was left with. -/
structure Locator where
  cur : List Nat
  old : List Nat
  errs : Nat
  since : Nat
  disc : Nat

/-- One step of the Berlekamp and Massey search over syndrome `n`. -/
def Locator.step (syn : List Nat) (l : Locator) (n : Nat) : Locator :=
  let d := (upTo (l.errs + 1)).foldl (fun a i => if i ≤ n then a ^^^ gfMul (l.cur.getD i 0) (syn.getD (n - i) 0) else a) 0
  if d = 0 then { l with since := l.since + 1 }
  else
    let q := gfMul d (gfInv l.disc)
    let new := (upTo 16).map (fun i => l.cur.getD i 0 ^^^ (if i < l.since then 0 else gfMul q (l.old.getD (i - l.since) 0)))
    if 2 * l.errs ≤ n then ⟨new, l.cur, n + 1 - l.errs, 1, d⟩ else { l with cur := new, since := l.since + 1 }

/-- The error locator of 15 syndromes. -/
def rsLocator (syn : List Nat) : Locator := (upTo 15).foldl (Locator.step syn) ⟨[1], [1], 0, 1, 1⟩

/-- The correction of a word whose syndromes are `syn`: at most seven symbols with the value to add to each, after which every syndrome is 0;
none where no such correction exists. -/
def rsDecode (syn : List Nat) : Option (List (Nat × Nat)) :=
  let l := rsLocator syn
  let at_ := fun (p : List Nat) (x : Nat) => gfEval p.reverse x
  let omega := (upTo 15).map (fun n => (upTo (n + 1)).foldl (fun a i => a ^^^ gfMul (l.cur.getD i 0) (syn.getD (n - i) 0)) 0)
  let slope := (upTo 15).map (fun i => if i % 2 = 0 then l.cur.getD (i + 1) 0 else 0)
  let found := (upTo 80).filterMap (fun s =>
    let x := alphaPow (79 - s)
    let y := alphaPow (176 + s)
    if at_ l.cur y = 0 then some (s, gfMul x (gfMul (at_ omega y) (gfInv (at_ slope y)))) else none)
  let right := (upTo 15).all (fun j => found.foldl (fun a e => a ^^^ gfMul e.2 (alphaPow (j * (79 - e.1)))) 0 == syn.getD j 0)
  if found.length ≤ 7 && right then some found else none

end Sys2Proof.Machine
end

