-- ==== Sys2Proof/Machine/MemBase.lean ====
section
/-!
DEFINITION. Sys2Proof/Machine/MemBase.lean: errors of frames and slices (R239, R261 to R263, R269), conversions and way
power-down (R242 to R244), the range engines (R245 to R247), the code stores (R250, R251), the tag sweeper (R162 to R164,
R271 to R273), DRAM bring-up (R264, R266).
-/
namespace Sys2Proof.Machine

/-! ### Error records (R269) -/

/-- The error record captures, or sets OVERFLOW. -/
def Mod.memRecord (m : Mod) (ln source symbols devs : Nat) (unc : Bool) : Mod :=
  let ce := m.flag F.MEM_ERR_STATUS_CE
  let ue := m.flag F.MEM_ERR_STATUS_UE
  if (!ce && !ue) || (unc && ce && !ue) then
    let m := (m.put F.MEM_ERR_STATUS_CE 0 (!unc)).put F.MEM_ERR_STATUS_UE 0 unc
    let m := ((m.wr F.MEM_ERR_STATUS_SOURCE 0 source).wr F.MEM_ERR_STATUS_SYMBOLS 0 symbols).wr F.MEM_ERR_STATUS_SUBCH 0 (subChannel ln)
    ((m.wr F.MEM_ERR_DEVMASK_DEV 0 devs).wr F.MEM_ERR_ADDR_LINE 0 ln).wr F.MEM_ERR_TIME_TIME 0 m.now
  else m.put F.MEM_ERR_STATUS_OVERFLOW 0 true

/-- A corrected frame: counted, with EV192 at each multiple of MEM_CE_THR, and recorded. -/
def Mod.frameCorrected (m : Mod) (ln source symbols devs : Nat) : Mod :=
  let n := subChannel ln
  let old := m.rd F.MEM_CE_COUNT_COUNT n
  let m := m.count F.MEM_CE_COUNT_COUNT n
  let new := m.rd F.MEM_CE_COUNT_COUNT n
  let m := m.iff (new != old && new % Nat.max 1 (m.rd F.MEM_CE_THR_THR) == 0) (fun m => m.raise 192)
  m.memRecord ln source symbols devs false

/-- An uncorrectable frame (R263): counted, recorded, EV193. -/
def Mod.frameLost (m : Mod) (ln source : Nat) : Mod :=
  ((m.count F.MEM_UE_COUNT_COUNT (subChannel ln)).raise 193).memRecord ln source 8 0 true

/-- The symbol errors of a frame, one value a symbol, those without effect left out. -/
def symbolErrors (e : FrameErr) : List (Nat × Nat) :=
  (upTo 80).filterMap (fun s =>
    let v := ((e.filter (fun x => x.1.val == s)).map (fun x => x.2.toNat)).foldl (· ^^^ ·) 0
    if v = 0 then none else some (s, v))

/-- The devices of a list of symbols, one bit each. -/
def symbolDevices (es : List (Nat × Nat)) : Nat := maskOf 5 (fun d => es.any (fun x => symbolDevice x.1 == d))

/-- A line as 80 symbols carry it (R258, R259). -/
def lineOfSymbols (ln : Nat) (w : List Nat) : SideLine :=
  ⟨ln, BitVec.ofNat 512 (ofLeBytes ((w.take 64).map (BitVec.ofNat 8))), BitVec.ofNat 4 (w.getD 64 0), bitAt (w.getD 64 0) 4⟩

/-- A frame read with symbol errors (R261 to R263): up to 7 corrected and rewritten, 8 uncorrectable. More are what the decoder makes of the word
it receives: uncorrectable, or a codeword at most 7 symbols away, delivered wrong, rewritten and reported as corrected. -/
def Mod.readFrame (m : Mod) (ln : Nat) (errs : FrameErr) (source : Nat) : Mod × SideLine :=
  let es := symbolErrors errs
  let f := m.frame ln
  let lost := fun (m : Mod) =>
    let d := es.foldl (fun (a : Nat) x => if x.1 < 64 then a ^^^ (x.2 * 2 ^ (8 * x.1)) else a) f.data.toNat
    let m := (m.putFrame ln (BitVec.ofNat 512 d) 0 true).frameLost ln source
    (m, ⟨ln, BitVec.ofNat 512 d, 0, true⟩)
  if es.length = 0 then (m, f)
  else if es.length ≤ 7 then (m.frameCorrected ln source es.length (symbolDevices es), f)
  else if es.length = 8 then lost m
  else
    let word := withErrors (frameSymbols f.data f.tags f.poison) es
    match rsDecode (rsSyndromes word) with
    | none => lost m
    | some fixed =>
      let got := lineOfSymbols ln (withErrors word fixed)
      if fixed.isEmpty then (m, got)
      else ((m.putFrame ln got.data got.tags got.poison).frameCorrected ln source fixed.length (symbolDevices fixed), got)

/-! ### Slice errors (R239, R253) -/

/-- The place of an error in a slice's registers. -/
def Mod.sliceErrAt (m : Mod) (ln way : Nat) : Mod :=
  (m.wr F.SC_SL_ERR_LOC_SET (sliceOf ln) (setOf ln)).wr F.SC_SL_ERR_LOC_WAY (sliceOf ln) way

/-- The cell fault of a slice, with SC_SL_ERR_LOC. -/
def Mod.sliceCellFault (m : Mod) (s : Nat) : Mod := m.cellFault (s / 4) 0x03 s 3 (m.reg .SC_SL_ERR_LOC s)

/-- The lines of the set of `ln` in the failed ways go, the others are written back. -/
def Mod.parityFault (m : Mod) (ln : Nat) (failed : Nat → Bool) (way : Nat) : Mod :=
  let s := sliceOf ln
  let ls := m.setLines ln
  let lost := ls.any (fun e => failed e.2.way && e.2.dirty)
  let m := m.each ls (fun m e => if failed e.2.way then m.dropLine e.1 else m.cleanLine e.1)
  let m := ((m.put F.SC_SL_ERR_TAG_PE s true).wr F.SC_SL_ERR_ADDR_ADDR s 0).sliceErrAt ln way
  let m := (m.raise 193).sliceCellFault s
  m.iff lost (fun m => (m.put F.SC_SL_ERR_DIRTY_LOST s true).deviceFault 0x08 s)

/-- The slice, set and way of offset `o` of region `g`'s scratch window (R241). -/
def scratchPlace (g o : Nat) : Nat × Nat × Nat := (4 * g + o / 64 % 4, o / 256 % 2048, 15 - o / 524288)

/-- An error in the word at a local address of region scratch, core scratch or code store (R239, R241, R249, R250): a corrected one is counted
where a slice holds the word and gives EV192 in a scratch, an uncorrectable one leaves the word without good data and gives EV193 in a scratch.
An erased row of a code store has none. -/
def Mod.wordFault (m : Mod) (a : Nat) (lost : Bool) : Mod :=
  let bad := m.spoil a
  match targetOf a with
  | .scratch g off =>
    if !m.mapped (.scratch g off) 1 then m
    else
      let (s, set, way) := scratchPlace g off
      let at_ := fun (m : Mod) => (m.wr F.SC_SL_ERR_LOC_SET s set).wr F.SC_SL_ERR_LOC_WAY s way
      if lost then (((at_ ((bad.put F.SC_SL_ERR_UE s true).wr F.SC_SL_ERR_ADDR_ADDR s (a - a % 64))).raise 193).sliceCellFault s)
      else (at_ (m.count F.SC_SL_CE_COUNT s)).raise 192
  | .coreScratch _ => if lost then bad.raise 193 else m.raise 192
  | .code _ => if lost && m.bytes (a - a % 32) 32 != List.replicate 32 0xFF then bad else m
  | _ => m

/-- A slice error found at a lookup of a line, or an error of another array. -/
def Mod.sliceFault (m : Mod) (ln : Nat) (x : SliceFault) : Mod :=
  let s := sliceOf ln
  match x with
  | .word a lost => m.wordFault a.toNat lost
  | .dataCorrected =>
    match Tbl.look m.lines ln with
    | some l => ((m.count F.SC_SL_CE_COUNT s).sliceErrAt ln l.way).raise 192
    | none => m
  | .dataUncorrectable =>
    match Tbl.look m.lines ln with
    | some l =>
      let m := { m with lines := Tbl.put m.lines ln { l with poison := true } }
      let m := ((m.put F.SC_SL_ERR_UE s true).wr F.SC_SL_ERR_ADDR_ADDR s (64 * ln)).sliceErrAt ln l.way
      (m.raise 193).sliceCellFault s
    | none => m
  | .parity w => m.parityFault ln (fun v => v == w.val) w
  | .stateParity => m.parityFault ln (fun _ => true) 0

/-- A line read from DRAM fills its slice; a dirty victim goes to the controller first and the fill is held (R236). Where a core's L1 miss asked
for it, the lines after it are prefetched (R238). -/
def Mod.sliceFill (m : Mod) (ln : Nat) (fill : LineFill) : Mod :=
  let s := sliceOf ln
  if !m.flag F.MEM_STATUS_READY || (Tbl.look m.lines ln).isSome || (Tbl.get [] m.held s).any (·.line == ln) ||
     (Tbl.get [] m.victims s).any (·.1 == ln) then m
  else if (Tbl.get [] m.side s).any (·.line == ln) then m.bring ln
  else
    let (m, f) := m.readFrame ln fill.errs 0
    let m := match fill.core with
      | some c => m.prefetchAfter c ln
      | none => m
    match m.victimOf ln with
    | (_, some (o, l)) =>
      if l.dirty then
        let m := (m.l1Invalidate o).dropLine o
        { m with victims := Tbl.set [] m.victims s (Tbl.get [] m.victims s ++ [(o, l)]), held := Tbl.set [] m.held s (Tbl.get [] m.held s ++ [f]) }
      else m.allocate ln f.data f.tags false f.poison
    | (_, none) => m.allocate ln f.data f.tags false f.poison

/-! ### Conversion and way power-down (R242 to R244) -/

/-- A commit instant at the scratch and power-down settings of region `g`, given WAYS and MASK before it. A running conversion takes a new value
in and stays busy to its end (R242); a way that leaves power-down is invalid, whether or not it was cleaned yet (R243). -/
def Mod.waysCommit (m : Mod) (g oldWays oldMask : Nat) : Mod :=
  let w := m.rd F.SC_RGN_SCRATCH_WAYS g
  let eff := m.rd F.SC_RGN_STATUS_WAYS_EFF g
  let busy := m.flag F.SC_RGN_STATUS_CONV_BUSY g
  let m := if w = oldWays then m
    else
      let gone := if busy then span (16 - oldWays) (oldWays - Nat.max w eff) else []
      let m := m.each gone (fun m v => m.emptyWay g v)
      let m := if w < eff then (m.zeroRange (rgnScratch g + w * 0x80000) ((eff - w) * 0x80000)).wr F.SC_RGN_STATUS_WAYS_EFF g w else m
      m.put F.SC_RGN_STATUS_CONV_BUSY g (busy || decide (w > eff))
  let mask := m.rd F.SC_RGN_WAYPD_MASK g
  let m := m.each (setBits 16 (oldMask &&& (0xFFFF - mask))) (fun m v => m.emptyWay g v)
  let clean := (Tbl.get 0 m.pdWays g &&& mask) ||| (mask &&& (0xFFFF - oldMask))
  m.iff (mask != oldMask) (fun m => ({ m with pdWays := Tbl.set 0 m.pdWays g clean }).put F.SC_RGN_STATUS_PD_BUSY g (clean != 0))

/-- A conversion ends: the ways added, if any are left, are written back, emptied, zeroed and mapped. -/
def Mod.conversionDone (m : Mod) (g : Nat) : Mod :=
  if !m.flag F.SC_RGN_STATUS_CONV_BUSY g then m
  else
    let w := m.rd F.SC_RGN_SCRATCH_WAYS g
    let eff := m.rd F.SC_RGN_STATUS_WAYS_EFF g
    let m := m.each (span (16 - w) (w - eff)) (fun m v => m.emptyWay g v)
    let m := m.zeroRange (rgnScratch g + eff * 0x80000) ((w - eff) * 0x80000)
    let m := ((m.wr F.SC_RGN_STATUS_WAYS_EFF g w).put F.SC_RGN_STATUS_CONV_BUSY g false).put F.SC_RGN_STATUS_CONV_DONE g true
    m.raise (232 + g)

/-- The ways entering power-down have been cleaned and invalidated. -/
def Mod.powerDownDone (m : Mod) (g : Nat) : Mod :=
  if !m.flag F.SC_RGN_STATUS_PD_BUSY g then m
  else
    let m := m.each (setBits 16 (Tbl.get 0 m.pdWays g)) (fun m v => m.emptyWay g v)
    ({ m with pdWays := Tbl.set 0 m.pdWays g 0 }).put F.SC_RGN_STATUS_PD_BUSY g false

/-- What R244 finds wrong with a region's staged settings. -/
def Mod.waysRefuse (m : Mod) (g : Nat) : Option Nat :=
  let w := m.staged' F.SC_RGN_SCRATCH_WAYS g
  let mask := m.staged' F.SC_RGN_WAYPD_MASK g
  let conv := fun (v : Nat) => decide (16 - w ≤ v)
  if (upTo 16).any (fun v => conv v && bitAt mask v) then some 0
  else if (upTo 16).all (fun v => conv v || bitAt mask v) then some 1
  else none

/-- The system cache's check at prepare (R244). -/
def Mod.waysPrepare (m : Mod) : Mod × Bool :=
  (upTo 4).foldl (fun r g => match r.1.waysRefuse g with
    | some k => ((r.1.put F.SC_RGN_STATUS_PREP_FAIL g true).wr F.SC_RGN_STATUS_REASON g k, false)
    | none => r) (m, true)

/-! ### Range engines (R245 to R247) -/

/-- One line of a range operation started by `w`, checked with its master ID and source node and with epoch 0: `none` where its gate refuses it, else whether it was processed (not skipped). -/
def Mod.rngLine (m : Mod) (w : Writer) (op ln : Nat) : Mod × Option Bool :=
  let a := 64 * ln
  let gated := fun (m : Mod) (k : AccKind) (f : Mod → Mod) => match m.passGate ⟨w.master.toNat, w.sys, 0, w.node.toNat, a, 64, k⟩ with
    | (m, some _) => (m, none)
    | (m, none) => (f m, some true)
  match targetOf a with
  | .dram =>
    match op with
    | 1 => (((m.acceptVictims (sliceOf ln)).cleanLine ln).sideDrop ln, some true)
    | 2 => (((m.acceptVictims (sliceOf ln)).cleanLine ln).dropLine ln, some true)
    | 3 => gated m .rangeWrite (fun m => (m.acceptVictims (sliceOf ln)).dropLine ln)
    | 4 => gated m .rangeRead (fun m => (m.sideDrop ln).bring ln)
    | _ => gated m .rangeWrite (fun m => m.writeLine a (List.replicate 64 0) none none)
  | .scratch g off =>
    if !m.mapped (.scratch g off) 64 then (m, some false)
    else if op = 5 then gated m .rangeWrite (fun m => m.zeroRange a 64)
    else (m, some true)
  | _ => (m, some false)

/-- The lines of a range in ascending order: processed, skipped, the line refused. -/
def Mod.rngLoop (m : Mod) (w : Writer) (op : Nat) : Nat → Nat → Nat → Nat → Mod × Nat × Nat × Option Nat
  | 0, _, done, skip => (m, done, skip, none)
  | n + 1, ln, done, skip =>
    match m.rngLine w op ln with
    | (m, none) => (m, done, skip, some ln)
    | (m, some true) => m.rngLoop w op n (ln + 1) (done + 1) skip
    | (m, some false) => m.rngLoop w op n (ln + 1) done (skip + 1)

/-- A range operation ends at once with its event, or refused with a REASON. -/
def Mod.rngRefuse (m : Mod) (g reason : Nat) : Mod :=
  ((m.put F.SC_RNG_STATUS_ERR g true).wr F.SC_RNG_STATUS_REASON g reason).put F.SC_RNG_STATUS_DONE g true

/-- A write of 1 to START of region `g` (R246). -/
def Mod.rngStart (m : Mod) (w : Writer) (g op : Nat) (discard : Bool) : Mod :=
  if m.flag F.SC_RNG_STATUS_BUSY g then m.put F.SC_RNG_STATUS_CMDLOST g true
  else
    let m := m.iff (1 ≤ op && op ≤ 5) (fun m => (m.wr F.SC_RNG_CMD_OP g op).put F.SC_RNG_CMD_DISCARD g discard)
    let m := ((m.wr F.SC_RNG_STATUS_MASTER g w.master.toNat).wr F.SC_RNG_COUNT_COUNT g 0).wr F.SC_RNG_SKIPPED_COUNT g 0
    let base := m.rd F.SC_RNG_BASE_BASE g
    let len := m.rd F.SC_RNG_LEN_LEN g
    if len = 0 then (m.put F.SC_RNG_STATUS_DONE g true).raise (232 + g)
    else if op = 0 ∨ op > 5 then m.rngRefuse g 3
    else if op = 3 ∧ !discard then m.rngRefuse g 1
    else if op = 5 ∧ (base % 64 ≠ 0 ∨ len % 64 ≠ 0) then m.rngRefuse g 2
    else
      let first := base / 64
      let last := (base + len - 1) / 64
      let top := Nat.min last (2 ^ 46 - 1)
      let (m, done, skip, fail) := m.rngLoop w op (top + 1 - first) first 0 0
      let skip := if fail.isNone then skip + (last - top) else skip
      let m := (m.wr F.SC_RNG_COUNT_COUNT g (satAdd32 0 done)).wr F.SC_RNG_SKIPPED_COUNT g (satAdd32 0 skip)
      ({ m with rng := Tbl.set none m.rng g (some ⟨op, fail⟩) }).put F.SC_RNG_STATUS_BUSY g true

/-- A range operation completes or has stopped at a refused line. -/
def Mod.rngDone (m : Mod) (g : Nat) : Mod :=
  match Tbl.get none m.rng g with
  | none => m
  | some r =>
    let m := ({ m with rng := Tbl.set none m.rng g none }).put F.SC_RNG_STATUS_BUSY g false
    let m := match r.fail with
      | some ln => ((m.wr F.SC_RNG_FAIL_ADDR g (64 * ln)).put F.SC_RNG_STATUS_ERR g true).wr F.SC_RNG_STATUS_REASON g 0
      | none => m
    (m.put F.SC_RNG_STATUS_DONE g true).raise (232 + g)

/-! ### Code stores (R250, R251) -/

/-- The row in CS_DATA. -/
def Mod.csRow (m : Mod) (g : Nat) : BitVec 256 :=
  BitVec.ofNat 256 ((upTo 8).foldl (fun a n => a + m.rd F.CS_DATA_DATA (g * 8 + n) * 2 ^ (32 * n)) 0)

/-- A command refused. -/
def Mod.csRefuse (m : Mod) (g reason : Nat) : Mod :=
  ((m.put F.CS_STATUS_ERR g true).wr F.CS_STATUS_REASON g reason).put F.CS_STATUS_DONE g true

/-- A write of CS_CMD of region `g`; nothing starts during a loss response (R435). -/
def Mod.csCmd (m : Mod) (g op : Nat) : Mod :=
  if m.flag F.CS_STATUS_BUSY g then m.put F.CS_STATUS_CMDLOST g true
  else if m.twin.loss.isSome then m
  else
    let row := m.rd F.CS_ADDR_ROW g
    let data := m.csRow g
    let run := fun (m : Mod) => ({ m with csRun := Tbl.set none m.csRun g (some (op, row, data)) }).put F.CS_STATUS_BUSY g true
    match op with
    | 1 => run m
    | 2 =>
      let old := m.num (codeBase g + 32 * row) 32
      if data.toNat &&& (2 ^ 256 - 1 - old) ≠ 0 then m.csRefuse g 0 else run m
    | _ => m.csRefuse g 2

/-- The L1 copies of the code store lines in [a, a + n) go. -/
def Mod.codeDrop (m : Mod) (a n : Nat) : Mod :=
  let out := fun (l : List (Nat × Nat)) => l.filter (fun e => 64 * e.1 + 64 ≤ a || a + n ≤ 64 * e.1)
  { m with cores := m.cores.map (fun (e : Nat × Core) => (e.1, { e.2 with l1d := out e.2.l1d, l1i := out e.2.l1i })) }

/-- A sector erased, its erases counted. -/
def Mod.csErased (m : Mod) (g sector : Nat) : Mod :=
  let a := codeBase g + 0x10000 * sector
  let k := g * 128 + sector
  { (m.zeroRange a 0x10000).codeDrop a 0x10000 with csErases := Tbl.set 0 m.csErases k (Nat.min 0xFFFF (Tbl.get 0 m.csErases k + 1)) }

/-- A command of the code store of region `g` ends; what a row that fails its verification holds is a free value. -/
def Mod.csDone (m : Mod) (g : Nat) (verified : Bool) : Mod :=
  match Tbl.get none m.csRun g with
  | none => m
  | some (op, row, data) =>
    let m := ({ m with csRun := Tbl.set none m.csRun g none }).put F.CS_STATUS_BUSY g false
    let a := codeBase g + 32 * row
    let m := if op = 1 then m.csErased g (row / 2048)
      else if verified then ((m.setNum a 32 data.toNat).codeDrop a 32).unspoil a 32
      else
        let (k, m) := m.fresh
        ((m.unspoil a 32).setBytes a ((upTo 32).map (Config.codeStoreByte k))).codeDrop a 32
    let m := m.iff (op == 2 && !verified) (fun m => (m.put F.CS_STATUS_ERR g true).wr F.CS_STATUS_REASON g 1)
    m.put F.CS_STATUS_DONE g true

/-! ### DRAM bring-up and temperature (R264, R266, R270) -/

/-- A training of every sub-channel ends. -/
def Mod.trained (m : Mod) (failed : Nat) : Mod :=
  if failed = 0 then
    (((m.put F.MEM_STATUS_TRAINED 0 true).put F.MEM_STATUS_TRAIN_FAIL 0 false).wr F.MEM_STATUS_FAILMASK 0 0).raise 196
  else
    let m := ((m.put F.MEM_STATUS_TRAIN_FAIL 0 true).wr F.MEM_STATUS_FAILMASK 0 failed).raise 196
    m.deviceFault 0x0A (m.reg .MEM_STATUS 0)

/-- The start-up fill ends: every frame zero, tags 0, no poison. -/
def Mod.dramFilled (m : Mod) : Mod :=
  let m := m.zeroRange 0 dramTop
  let m := { m with dramPoison := [], lines := [], plru := [], side := [], victims := [], held := [] }
  (m.put F.MEM_STATUS_READY 0 true).raise 196

/-- A report of the hottest device. -/
def Mod.dramTemp (m : Mod) (t : Int) (raw sub dev : Nat) : Mod :=
  let m := ((m.wr F.MEM_TEMP_TEMP 0 raw).wr F.MEM_TEMP_SUBCH 0 sub).wr F.MEM_TEMP_DEVICE 0 dev
  let m := if t > 85 then m.put F.MEM_STATUS_REFRESH_2X 0 true else if t ≤ 82 then m.put F.MEM_STATUS_REFRESH_2X 0 false else m
  let was := m.flag F.MEM_STATUS_THROTTLE
  let m := if t > 95 then (m.put F.MEM_STATUS_THROTTLE 0 true).iff (!was) (fun m => m.raise 197)
    else if t ≤ 92 then m.put F.MEM_STATUS_THROTTLE 0 false else m
  if t ≥ 105 then (if m.dramHot then m else { m with dramHot := true }.deviceFault 0x09 (m.reg .MEM_TEMP 0))
  else if t ≤ 102 then { m with dramHot := false } else m

/-- The patrol scrubber at its next frame (R268); before READY its read performs nothing and is reported (R265). -/
def Mod.patrol (m : Mod) (errs : FrameErr) : Mod :=
  if m.rd F.MEM_PATROL_CTRL_PERIOD = 0 then m
  else if !m.flag F.MEM_STATUS_READY then
    m.violate ⟨Config.patrolMaster.toNat, true, 0, 0, 64 * m.rd F.MEM_PATROL_POS_LINE, 64, .load⟩ 0x03 0xFFFF
  else
    let ln := m.rd F.MEM_PATROL_POS_LINE
    let m := if Tbl.get false m.dramPoison ln then m else (m.readFrame ln errs 1).1
    let next := (ln + 1) % 2 ^ 30
    let m := m.wr F.MEM_PATROL_POS_LINE 0 next
    m.iff (next == 0) (fun m => (m.count F.MEM_PATROL_PASSES_COUNT).raise 194)

/-! ### The tag sweeper (R162 to R164, R271 to R273) -/

/-- Every pass of a sweep. -/
def allPasses : List SweepPass :=
  .dram :: .cores :: ((List.finRange 32).map SweepPass.coreScratch ++ (List.finRange 4).map SweepPass.regionScratch)

/-- The gate entries wholly inside the range, with the kept epoch, take it as swept epoch (R164), where the range is on this module: a sweep set up for
another node changes none, one for node 0xFFF does (DESIGN CHOICE, log entry 90). -/
def Mod.sweptEpochs (m : Mod) (w : Sweep) : Mod :=
  if w.node ≠ m.node ∧ w.node ≠ 0xFFF then m
  else
    let is := m.regs.filterMap (fun e => if e.1 % 512 = Reg.GATE_ENT_TOP.ctorIdx then some (e.1 / 512) else none)
    m.each is (fun m i =>
      let b := 16 * m.rd F.GATE_ENT_BASE_BASE i
      let t := 16 * m.rd F.GATE_ENT_TOP_TOP i
      if b < t ∧ w.lo ≤ b ∧ t ≤ w.hi ∧ m.rd F.GATE_ENT_EPOCH_EPOCH i = w.keep then m.wr F.GATE_ENT_EPOCH_SWEPT i w.keep else m)

/-- A sweep completes. -/
def Mod.sweepComplete (m : Mod) (w : Sweep) : Mod :=
  let m := ({ m with sweep := none }.put F.MEM_SWP_STATUS_ACTIVE 0 false).put F.MEM_SWP_STATUS_DONE 0 true
  (m.raise 195).sweptEpochs w

/-- A write of 1 to START; before READY it performs nothing and is reported (R265); RATE 3 is a reserved encoding (R274). -/
def Mod.sweepStart (m : Mod) (wr : Writer) (hold : Bool) (keep rate : Nat) : Mod :=
  if !m.flag F.MEM_STATUS_READY then m.violate ⟨wr.master.toNat, wr.sys, 0, wr.node.toNat, 0, 64, .load⟩ 0x03 0xFFFF
  else
    let m := m.iff (rate == 3) (fun m => m.reservedWrite (Reg.place .MEM_SWP_CTRL).off wr.master.toNat)
    let rate := if rate = 3 then m.rd F.MEM_SWP_CTRL_RATE else rate
    let m := ((m.wr F.MEM_SWP_CTRL_KEEP 0 keep).put F.MEM_SWP_CTRL_HOLD 0 hold).wr F.MEM_SWP_CTRL_RATE 0 rate
    let lo := m.rd F.MEM_SWP_LO_LO
    let hi := m.rd F.MEM_SWP_HI_HI
    if m.sweep.isSome then m.put F.MEM_SWP_STATUS_CMDLOST 0 true
    else if keep = 0 then m.put F.MEM_SWP_STATUS_ERR 0 true
    else if lo ≥ hi then
      (((m.wr F.MEM_SWP_CLEARED_COUNT 0 0).put F.MEM_SWP_STATUS_PASSES_DONE 0 true).put F.MEM_SWP_STATUS_DONE 0 true).raise 195
    else
      let w : Sweep := ⟨m.rd F.MEM_SWP_NODE_NODE, lo, hi, keep, hold, rate, m.mono, []⟩
      let m := { m with sweep := some w, side := [] }
      let m := ((m.put F.MEM_SWP_STATUS_ACTIVE 0 true).put F.MEM_SWP_STATUS_PASSES_DONE 0 false)
      (m.wr F.MEM_SWP_CLEARED_COUNT 0 0).wr F.MEM_SWP_POS_LINE 0 0

/-- A key checked by the sweep: with its tag cleared if matched. -/
def Mod.swept (m : Mod) (w : Sweep) (k : Key) : Key := if w.matches m.node k then { k with tag := false } else k

/-- One line in its slice checked: matched tags cleared, its L1 copies gone. -/
def Mod.sweepLine (m : Mod) (w : Sweep) (ln : Nat) : Mod :=
  match Tbl.look m.lines ln with
  | none => m
  | some l =>
    let hit := (upTo 4).filter (fun j => w.matches m.node ⟨BitVec.ofNat 128 (bitsOf l.data.toNat (128 * j) 128), bitAt l.tags.toNat j⟩)
    if hit.isEmpty then m
    else
      let tags := hit.foldl (fun t j => withBits t j 1 0) l.tags.toNat
      let m := (m.count F.MEM_SWP_CLEARED_COUNT 0 hit.length).l1Invalidate ln
      match Tbl.look m.lines ln with
      | some l => { m with lines := Tbl.put m.lines ln { l with tags := BitVec.ofNat 4 tags, dirty := true } }
      | none => m

/-- The tagged granules of memory cells in [a, b) checked, but for lines present in a slice. -/
def Mod.sweepCells (m : Mod) (w : Sweep) (a b : Nat) : Mod :=
  let gs := (m.tags.map Prod.fst).filter (fun g => decide (a ≤ 16 * g) && decide (16 * g < b) && (Tbl.look m.lines (g / 4)).isNone)
  m.each gs (fun m g =>
    if w.matches m.node (Key.ofBytes (m.bytes (16 * g) 16) true) then (m.setTag (16 * g) false).count F.MEM_SWP_CLEARED_COUNT else m)

/-- A key register file checked. -/
def Mod.sweepKeys (m : Mod) (w : Sweep) (t : Tbl Key) : Tbl Key := t.map (fun (e : Nat × Key) => (e.1, m.swept w e.2))

/-- How many tagged keys of a list a sweep matches. -/
def Mod.sweepCount (m : Mod) (w : Sweep) (l : List Key) : Nat := (l.filter (w.matches m.node)).length

/-- The keys a descriptor holds: the tags that stay set. -/
def Mod.sweepTags (m : Mod) (w : Sweep) (d : List Byte) (tags : List Bool) : List Bool :=
  (upTo tags.length).map (fun i => (m.swept w (Key.ofBytes ((d.drop (16 * i)).take 16) (tags.getD i false))).tag)

/-- The tags of granules that came from another node for an address, with those of matched keys cleared. -/
def Mod.sweepCame (m : Mod) (w : Sweep) (ea : Nat) (d : List Byte) (tags : Nat) : Nat :=
  (upTo 4).foldl (fun t j =>
    let o := 16 * j - ea % 64
    if ea % 64 ≤ 16 * j ∧ o + 16 ≤ d.length ∧ bitAt tags j ∧ w.matches m.node (Key.ofBytes ((d.drop o).take 16) true) then withBits t j 1 0 else t) tags

/-- An awaited access checked: its word's key, and the keys that have come for it. -/
def Mod.sweepWait (m : Mod) (w : Sweep) (x : Wait) : Wait :=
  { x with word := m.swept w x.word, resp := x.resp.map (fun r => (r.1, m.sweepCame w x.ea r.1 r.2.1, r.2.2)), kind := (match x.kind with
    | .ctx fn n kb other got => .ctx fn n kb other (got.map (fun g => (g.1, (m.swept w (Key.ofBytes g.1 g.2)).tag)))
    | k => k) }

/-- A store of a key in a store buffer checked. -/
def Mod.sweepStore (m : Mod) (w : Sweep) (e : StoreEnt) : StoreEnt := { e with keyTag := e.keyTag.map (fun t => (m.swept w (Key.ofBytes e.data t)).tag) }

/-- A core checked: ip, every bank, and the keys on their way to or from it. -/
def Mod.sweepCore (m : Mod) (w : Sweep) (k : Core) : Core :=
  { k with ip := m.swept w k.ip, banks := k.banks.map (fun b => (b.1, { b.2 with ip := m.swept w b.2.ip, k := m.sweepKeys w b.2.k })), waits := k.waits.map (m.sweepWait w), sb := k.sb.map (m.sweepStore w) }

/-- How many tags a check of a core clears: ip, banks, the store buffer, and what has come for awaited accesses. -/
def Mod.sweepLoss (m : Mod) (w : Sweep) (k : Core) : Nat :=
  m.sweepCount w (k.ip :: k.banks.flatMap (fun (e : Nat × Bank) => e.2.ip :: e.2.k.map Prod.snd)) +
  m.sweepCount w (k.sb.map (fun e => Key.ofBytes e.data (e.keyTag.getD false))) +
  (k.waits.map (fun x => (match x.resp with
    | some r => (setBits 4 r.2.1).length - (setBits 4 (m.sweepCame w x.ea r.1 r.2.1)).length
    | none => 0) + (match x.kind with
    | .ctx _ _ _ _ got => m.sweepCount w (got.map (fun g => Key.ofBytes g.1 g.2))
    | _ => 0))).sum

/-- What a transfer channel holds of an answer, checked: a granule of a key table it has still to write (R162, R346). -/
def Mod.sweepAnswer (m : Mod) (w : Sweep) (r : XfrRun) : Option XfrResp :=
  r.resp.map (fun x => match x with
    | .data d t p => .data d (m.sweepCame w 0 d t) p
    | x => x)

/-- The register pass: every bank and ip of every core, transfer channels, matrix engines. -/
def Mod.sweepCores (m : Mod) (w : Sweep) : Mod :=
  let n := (m.cores.map (fun (e : Nat × Core) => m.sweepLoss w e.2)).sum
  let cores := m.cores.map (fun (e : Nat × Core) => (e.1, m.sweepCore w e.2))
  let lost := fun (old new : List Bool) => ((old.zip new).filter (fun p => p.1 && !p.2)).length
  let xs := m.xfr.map (fun (e : Nat × Option XfrRun) => (e.1, e.2.map (fun (r : XfrRun) => { r with tags := m.sweepTags w r.desc r.tags, resp := m.sweepAnswer w r })))
  let mxs := m.mx.map (fun (e : Nat × Option MxJob) => (e.1, e.2.map (fun (j : MxJob) => { j with tags := m.sweepTags w j.desc j.tags })))
  let nx := (m.xfr.map (fun (e : Nat × Option XfrRun) => match e.2 with
    | some r => lost r.tags (m.sweepTags w r.desc r.tags) + (match r.resp, m.sweepAnswer w r with
      | some (.data _ t _), some (.data _ t' _) => (setBits 4 t).length - (setBits 4 t').length
      | _, _ => 0)
    | none => 0)).sum
  let nm := (m.mx.map (fun (e : Nat × Option MxJob) => match e.2 with
    | some j => lost j.tags (m.sweepTags w j.desc j.tags)
    | none => 0)).sum
  ({ m with cores := cores, xfr := xs, mx := mxs }).count F.MEM_SWP_CLEARED_COUNT 0 (n + nx + nm)

/-- The DRAM pass (R271, R272): lines present in a slice are checked there, every other frame is read, one that is uncorrectable losing its
tags with SOURCE sweeper. -/
def Mod.sweepDram (m : Mod) (w : Sweep) (errs : List (BitVec 30 × FrameErr)) : Mod :=
  let m := m.each (upTo 16) Mod.acceptVictims
  let m := m.each (Tbl.keys m.lines) (fun m ln => m.sweepLine w ln)
  let m := m.each errs (fun m e => if (Tbl.look m.lines e.1.toNat).isSome then m else (m.readFrame e.1.toNat e.2 2).1)
  (m.sweepCells w 0 dramTop).wr F.MEM_SWP_POS_LINE 0 (2 ^ 30 - 1)

/-- A pass of the active sweep ends, with its work done; the last ends the passes (R273). -/
def Mod.sweepPass (m : Mod) (x : PassEnd) : Mod :=
  let p := x.pass
  match m.sweep with
  | none => m
  | some w =>
    if w.done.contains p then m
    else
      let m := match p with
        | .dram => m.sweepDram w x.errs
        | .coreScratch c => m.sweepCells w (coreScratch c) (coreScratch c + 0x20000)
        | .regionScratch g => m.sweepCells w (rgnScratch g) (rgnScratch g + 0x400000)
        | .cores => m.sweepCores w
      let w := { w with done := p :: w.done }
      let m := { m with sweep := some w }
      if allPasses.all (fun x => w.done.contains x) then
        let m := (m.put F.MEM_SWP_STATUS_PASSES_DONE 0 true).raise 195
        if w.hold then m else m.sweepComplete w
      else m

/-- A write of 1 to RELEASE. -/
def Mod.sweepRelease (m : Mod) : Mod :=
  match m.sweep with
  | some w => if m.flag F.MEM_SWP_STATUS_PASSES_DONE && w.hold then m.sweepComplete w else m.put F.MEM_SWP_STATUS_CMDLOST 0 true
  | none => m.iff (!m.flag F.MEM_SWP_STATUS_PASSES_DONE) (fun m => m.put F.MEM_SWP_STATUS_CMDLOST 0 true)

end Sys2Proof.Machine
end

