-- ==== Sys2Proof/Machine/MeshBase.lean ====
section
/-!
DEFINITION. Sys2Proof/Machine/MeshBase.lean: what register writes and commits start in the mesh: bring-up again (R298), global
operations (R316 to R320), the broadcast queue (R318), the credit check (R307), a change of the mesh settings.
-/
namespace Sys2Proof.Machine

/-! ### Broadcasts (R318) -/

/-- A message placed in the receive queue, or dropped when it is full; the originator's own one completes its operation. -/
def Mod.bcDeliver (m : Mod) (src : Nat) (data : List Byte) : Mod :=
  let m := if m.fed.bc.length ≥ 16 then m.put F.MESH_BC_RX_STATUS_OVERFLOW 0 true
    else ({ m with fed := { m.fed with bc := m.fed.bc ++ [(src, data)] } }).raise 169
  m.iff (src == m.node) (fun m => m.gopEnd 2 true)

/-- The root's flood of a message, which it receives itself. -/
def Mod.bcFlood (m : Mod) (src : Nat) (data : List Byte) : Mod :=
  (m.bcDeliver src data).gopDown (.bcDown (BitVec.ofNat 12 src) data)

/-- A write of 1 to MESH_BC_RX_POP. -/
def Mod.bcPop (m : Mod) : Mod := { m with fed := { m.fed with bc := m.fed.bc.drop 1 } }

/-! ### Snapshots (R319) -/

/-- One line of the snapshot copy: the region's signal records, written as master 56 with this module's node. -/
def Mod.snapLine (m : Mod) (i : Nat) : Mod × Bool :=
  let a := 64 * m.rd F.MESH_SNAP_BASE_BASE + 64 * i
  match m.passGate ⟨56, false, 0, m.node, a, 64, .store⟩ with
  | (m, some _) => (m, false)
  | (m, none) =>
    if targetOf a = .dram then (m.rawWrite a (m.sigBytes (i / 2048) (i % 2048 * 64) 64) none none, true) else (m, false)

/-- Lines `i` on of the copy, `fuel` of them at most: whether all were admitted. -/
def Mod.snapLines (m : Mod) (i : Nat) : Nat → Mod × Bool
  | 0 => (m, true)
  | fuel + 1 => match m.snapLine i with
    | (m, true) => m.snapLines (i + 1) fuel
    | (m, false) => (m, false)

/-- The copy of T_s, 512 KiB: it ends at its first refused line. -/
def Mod.snapCopy (m : Mod) : Mod :=
  match m.snapLines 0 8192 with
  | (m, true) => { m with fed := { m.fed with snapBusy := true } }
  | (m, false) =>
    let m := ({ m with fed := { m.fed with snapAt := none } }).put F.MESH_GOP_STATUS_REFUSED 0 true
    (m.raise 170).gopEnd 3 false

/-- T_s arrives: the copy waits for it, or is taken at once and late. -/
def Mod.snapSet (m : Mod) (t : Nat) : Mod :=
  let m := { m with fed := { m.fed with snapAt := some t } }
  if t < m.now then (m.put F.MESH_GOP_STATUS_LATE 0 true).snapCopy else m

/-- The root's instant: its TB_NOW plus MESH_SNAP_LEAD. -/
def Mod.leadInstant (m : Mod) : Nat := m.now + m.rd F.MESH_SNAP_LEAD_LEAD

/-- A snapshot refused by the root, at its originator. -/
def Mod.snapRefuse (m : Mod) : Mod := (m.put F.MESH_GOP_STATUS_REFUSED 0 true).gopEnd 3 false

/-- A snapshot asked of the root. -/
def Mod.snapRoot (m : Mod) (src : Nat) : Mod :=
  if m.now < m.fed.snapGuard then
    if src = m.node then m.snapRefuse else m.gopDown (.snapRefused (BitVec.ofNat 12 src))
  else
    let t := m.leadInstant
    let m := { m with fed := { m.fed with snapGuard := t + 25000 } }
    (m.gopDown (.snapAt (BitVec.ofNat 64 t))).snapSet t

/-! ### Federation reset (R320) -/

/-- A federation reset asked of the root. -/
def Mod.resetRoot (m : Mod) : Mod :=
  let t := m.leadInstant
  { m.gopDown (.resetAt (BitVec.ofNat 64 t)) with fed := { m.fed with resetAt := some t } }

/-! ### Commands (R316) -/

/-- An own operation begins. -/
def Mod.gopBegin (m : Mod) (op : Nat) : Mod :=
  ({ m with fed := { m.fed with own := some op } }).put F.MESH_GOP_STATUS_BUSY 0 true

/-- A write of MESH_GOP_CMD: its operation, or discarded while one is in flight. -/
def Mod.gopCmd (m : Mod) (op id len : Nat) : Mod :=
  if m.flag F.MESH_GOP_STATUS_BUSY then m.put F.MESH_GOP_STATUS_CMDLOST 0 true
  else match op with
  | 1 =>
    if !m.barPart id then m.put F.MESH_GOP_STATUS_REFUSED 0 true
    else
      let m := m.gopBegin 1
      ({ m with fed := { m.fed with arrived := id :: m.fed.arrived, reported := m.fed.reported.filter (· != id) } }).barCheck id
  | 2 =>
    let data := ((upTo 8).flatMap (fun n => leBytes 4 (m.rd F.MESH_BC_TX_DATA n))).take len
    let m := m.gopBegin 2
    if m.isRoot then m.bcFlood m.node data else m.gopUp (.bcUp (BitVec.ofNat 12 m.node) data)
  | 3 =>
    let m := m.gopBegin 3
    if m.isRoot then m.snapRoot m.node else m.gopUp (.snapUp (BitVec.ofNat 12 m.node))
  | 4 =>
    let m := m.gopBegin 4
    if m.isRoot then m.resetRoot else m.gopUp (.resetUp (BitVec.ofNat 12 m.node))
  | _ => m

/-! ### Prepare and commit (R298, R307, R315) -/

/-- The staged slots of a link's four channels. -/
def Mod.stagedSlots (m : Mod) (l : Nat) : List Nat :=
  [m.staged' F.MESH_LINK_CRED_VC0 l, m.staged' F.MESH_LINK_CRED_VC1 l, m.staged' F.MESH_LINK_CRED2_VC2 l, m.staged' F.MESH_LINK_CRED2_VC3 l]

/-- Whether the staged credits of lane group `n` stand. -/
def Mod.creditsOk (m : Mod) (n : Nat) : Bool :=
  let mode := m.staged' F.MESH_LG_CTRL_MODE n
  let active := fun (k : Nat) => (mode == 1 || mode == 3) && splitLanes (m.staged' F.MESH_LG_CTRL_SPLIT n) k != 0
  let ok := fun (k : Nat) => !active k || (m.stagedSlots (2 * n + k)).all (fun c => decide (8 ≤ c))
  decide ((m.stagedSlots (2 * n)).sum + (m.stagedSlots (2 * n + 1)).sum ≤ 6552) && ok 0 && ok 1

/-- The mesh's check at prepare. -/
def Mod.meshPrepare (m : Mod) : Mod × Bool :=
  if (upTo 8).all m.creditsOk then (m, true) else (m.put F.MESH_STATUS_PREP_FAIL 0 true, false)

/-- What of the mesh a commit compares: the settings of a lane group that its links train with. -/
def Mod.lgSettings (m : Mod) (n : Nat) : List Nat :=
  [m.reg .MESH_LG_CTRL n, m.rd F.MESH_CTRL_NODE, m.rd F.MESH_FED_ID_FED]

/-- A module outside the federation knows no grandmaster and is none (R111): its time base follows its own SRC. -/
def Mod.leaveGrandmaster (m : Mod) : Mod :=
  let src := m.tbSrc
  let m := ((m.wr F.TB_GM_NODE_NODE 0 0xFFF).put F.TB_STATUS_IS_GM 0 false).put F.TB_STATUS_PARENT_VALID 0 false
  (m.wr F.TB_STATUS_HOPS 0 0xFF).srcCommit src

/-- A commit's effect on the mesh, `old` being the module before it: lane groups whose settings changed and refused links train
again, membership follows ENABLE and NODE, and the root hears of a node that ceases; barriers follow PART; what new credits let go leaves. -/
def Mod.meshCommit (m old : Mod) : Mod :=
  let m := m.each (upTo 8) (fun m n =>
    if m.lgSettings n ≠ old.lgSettings n then
      let m := m.iff (m.lgMode n != 2) (fun m => m.put F.MESH_LG_STATUS_ETH_UP n false)
      m.lgStart n
    else
      let again := fun (m : Mod) (l : Nat) => m.iff (m.linkState l == 6) (fun m => m.linkStart l)
      again (again m (2 * n)) (2 * n + 1))
  let m := m.iff (m.isMember != old.isMember || m.node != old.node) (fun m =>
    if m.isRoot then m.flood
    else
      let m := m.iff old.isMember (fun m => m.memberUp (.leave [(BitVec.ofNat 12 old.node, BitVec.ofNat 256 old.identity)]))
      if m.isMember then m.memberClaim else m.setMembers [])
  let m := m.iff (m.isMember != old.isMember) (fun m => m.put F.MESH_STATUS_ROOT 0 (m.isRoot && m.isMember))
  let m := m.iff (old.isMember && !m.isMember) Mod.leaveGrandmaster
  let m := m.iff (m.rd F.MESH_BAR_PART_PART != old.rd F.MESH_BAR_PART_PART) Mod.barAgain
  (m.each (upTo 16) Mod.pump).serviceEnds

end Sys2Proof.Machine
end

