-- ==== Sys2Proof/Machine/Float.lean ====
section
/-!
DEFINITION. Sys2Proof/Machine/Float.lean: IEEE 754-2019 binary64 and binary32 (R203), by exact arithmetic on a
sign, an integer significand and a power of two, rounded once at the end.
-/
namespace Sys2Proof.Machine

/-- A binary format: exponent width and fraction width. -/
structure Fmt where
  ew : Nat
  mw : Nat
  deriving DecidableEq, Repr

/-- binary64 -/
def fmt64 : Fmt := ⟨11, 52⟩
/-- binary32 -/
def fmt32 : Fmt := ⟨8, 23⟩

/-- The rounding directions of FPCSR.RM (R170). -/
inductive Rm where
  | near | zero | down | up
  deriving DecidableEq, Repr

/-- The exception flags, in the order NX, UF, OF, DZ, NV of FPCSR (R170). -/
structure FFlags where
  nx : Bool := false
  uf : Bool := false
  of : Bool := false
  dz : Bool := false
  nv : Bool := false
  deriving DecidableEq, Repr

/-- The union of two sets of flags. -/
def FFlags.or (a b : FFlags) : FFlags :=
  ⟨a.nx || b.nx, a.uf || b.uf, a.of || b.of, a.dz || b.dz, a.nv || b.nv⟩

/-- A decoded number: a NaN, an infinity, or (-1)^neg × m × 2^e. -/
inductive FVal where
  | nan (signalling : Bool)
  | inf (neg : Bool)
  | num (neg : Bool) (m : Nat) (e : Int)
  deriving DecidableEq, Repr

/-- The exponent of the least bit of a subnormal number. -/
def Fmt.qmin (f : Fmt) : Int := 3 - (2 ^ (f.ew - 1) : Nat) - (f.mw + 1 : Nat)

/-- The bits of positive infinity. -/
def Fmt.infBits (f : Fmt) : Nat := (2 ^ f.ew - 1) * 2 ^ f.mw

/-- The canonical quiet NaN of R203. -/
def Fmt.qnan (f : Fmt) : Nat := f.infBits + 2 ^ (f.mw - 1)

/-- The sign bit's weight. -/
def Fmt.signBit (f : Fmt) : Nat := 2 ^ (f.ew + f.mw)

/-- Bits with a sign. -/
def Fmt.signed (f : Fmt) (neg : Bool) (b : Nat) : Nat := if neg then f.signBit + b else b

/-- The value of a bit pattern. -/
def Fmt.decode (f : Fmt) (b : Nat) : FVal :=
  let neg := bitAt b (f.ew + f.mw)
  let be := bitsOf b f.mw f.ew
  let fr := bitsOf b 0 f.mw
  if be = 2 ^ f.ew - 1 then
    if fr = 0 then .inf neg else .nan (!(bitAt fr (f.mw - 1)))
  else if be = 0 then .num neg fr f.qmin
  else .num neg (2 ^ f.mw + fr) (f.qmin + (be - 1 : Nat))

/-- The number of bits of `m`. -/
def bitLen (m : Nat) : Nat := if m = 0 then 0 else Nat.log2 m + 1

/-- Whether a significand whose dropped part compares with one half as `cmp` is rounded up. -/
def roundsUp (rm : Rm) (neg odd inexact : Bool) (cmp : Ordering) : Bool :=
  match rm with
  | .near => match cmp with
    | .lt => false
    | .eq => odd
    | .gt => true
  | .zero => false
  | .down => neg && inexact
  | .up => !neg && inexact

/-- The integer nearest (in the direction `rm`) to (m + part) × 2^(-s), with part in (0, 1) when `sticky`, and whether it differs. -/
def roundShift (rm : Rm) (neg : Bool) (m s : Nat) (sticky : Bool) : Nat × Bool :=
  let q := m >>> s
  let r := m % 2 ^ s
  let inexact := r != 0 || sticky
  let cmp : Ordering :=
    if s = 0 then .lt
    else if r > 2 ^ (s - 1) then .gt
    else if r = 2 ^ (s - 1) then (if sticky then .gt else .eq)
    else .lt
  (if roundsUp rm neg (q % 2 == 1) inexact cmp then q + 1 else q, inexact)

/-- (-1)^neg × (m + part) × 2^e rounded to the format, with part in (0, 1) when `sticky`; `m` must then have at
least two bits more than the format's precision. -/
def Fmt.round (f : Fmt) (rm : Rm) (neg : Bool) (m : Nat) (e : Int) (sticky : Bool := false) : Nat × FFlags :=
  if m = 0 && !sticky then (f.signed neg 0, {}) else
  let p : Int := (f.mw + 1 : Nat)
  let q0 : Int := e + (bitLen m : Int) - p
  let q : Int := if q0 < f.qmin then f.qmin else q0
  let r : Nat × Bool :=
    if q ≤ e then (m * 2 ^ (e - q).toNat, sticky) else roundShift rm neg m (q - e).toNat sticky
  let packed := (q - f.qmin).toNat * 2 ^ f.mw + r.1
  let tinyBefore := decide (q0 < f.qmin)
  let tinyAfter :=
    tinyBefore &&
      (let r' := if q0 ≤ e then (m, false) else roundShift rm neg m (q0 - e).toNat sticky
       decide (q0 + 1 < f.qmin) || decide (r'.1 < 2 ^ (f.mw + 1)))
  let tiny := if Config.tinyAfterRounding then tinyAfter else tinyBefore
  if packed ≥ f.infBits then
    let toInf := match rm with
      | .near => true
      | .zero => false
      | .down => neg
      | .up => !neg
    (f.signed neg (if toInf then f.infBits else f.infBits - 1), { nx := true, of := true })
  else (f.signed neg packed, { nx := r.2, uf := r.2 && tiny })

/-- The invalid result. -/
def Fmt.invalid (f : Fmt) : Nat × FFlags := (f.qnan, { nv := true })

/-- The NaN result of operands of which one is a NaN: invalid if one signals. -/
def Fmt.nanOf (f : Fmt) (a b : FVal) : Nat × FFlags :=
  (f.qnan, { nv := a == .nan true || b == .nan true })

/-- The exact sum of two numbers, as a sign and significand at the lower exponent. -/
def exactAdd (rm : Rm) (n1 : Bool) (m1 : Nat) (e1 : Int) (n2 : Bool) (m2 : Nat) (e2 : Int) : Bool × Nat × Int :=
  let e := if e1 ≤ e2 then e1 else e2
  let a : Int := (m1 * 2 ^ (e1 - e).toNat : Nat)
  let b : Int := (m2 * 2 ^ (e2 - e).toNat : Nat)
  let s := (if n1 then -a else a) + (if n2 then -b else b)
  if s = 0 then
    ((if n1 == n2 then n1 else rm == .down), 0, e)
  else (s < 0, s.natAbs, e)

/-- Addition. -/
def Fmt.add (f : Fmt) (rm : Rm) (a b : Nat) : Nat × FFlags :=
  match f.decode a, f.decode b with
  | .nan x, y => f.nanOf (.nan x) y
  | x, .nan y => f.nanOf x (.nan y)
  | .inf n1, .inf n2 => if n1 == n2 then (f.signed n1 f.infBits, {}) else f.invalid
  | .inf n, _ => (f.signed n f.infBits, {})
  | _, .inf n => (f.signed n f.infBits, {})
  | .num n1 m1 e1, .num n2 m2 e2 =>
    let r := exactAdd rm n1 m1 e1 n2 m2 e2
    f.round rm r.1 r.2.1 r.2.2

/-- The bits with the sign inverted. -/
def Fmt.neg (f : Fmt) (b : Nat) : Nat := if bitAt b (f.ew + f.mw) then b - f.signBit else b + f.signBit

/-- The bits with the sign cleared. -/
def Fmt.abs (f : Fmt) (b : Nat) : Nat := b % f.signBit

/-- Whether a bit pattern is a NaN. -/
def Fmt.isNaN (f : Fmt) (b : Nat) : Bool := match f.decode b with
  | .nan _ => true
  | _ => false

/-- Whether a bit pattern is a finite number. -/
def Fmt.isFinite (f : Fmt) (b : Nat) : Bool := match f.decode b with
  | .num _ _ _ => true
  | _ => false

/-- Subtraction. A NaN subtrahend stays as it is. -/
def Fmt.sub (f : Fmt) (rm : Rm) (a b : Nat) : Nat × FFlags :=
  f.add rm a (if f.isNaN b then b else f.neg b)

/-- Multiplication. -/
def Fmt.mul (f : Fmt) (rm : Rm) (a b : Nat) : Nat × FFlags :=
  match f.decode a, f.decode b with
  | .nan x, y => f.nanOf (.nan x) y
  | x, .nan y => f.nanOf x (.nan y)
  | .inf n1, .inf n2 => (f.signed (n1 != n2) f.infBits, {})
  | .inf n1, .num n2 m _ => if m = 0 then f.invalid else (f.signed (n1 != n2) f.infBits, {})
  | .num n1 m _, .inf n2 => if m = 0 then f.invalid else (f.signed (n1 != n2) f.infBits, {})
  | .num n1 m1 e1, .num n2 m2 e2 => f.round rm (n1 != n2) (m1 * m2) (e1 + e2)

/-- c + a × b with one rounding (R204, FMA). -/
def Fmt.fma (f : Fmt) (rm : Rm) (c a b : Nat) : Nat × FFlags :=
  let va := f.decode a
  let vb := f.decode b
  let vc := f.decode c
  let sig := va == .nan true || vb == .nan true || vc == .nan true
  let badMul : Bool := match va, vb with
    | .inf _, .num _ m _ => m == 0
    | .num _ m _, .inf _ => m == 0
    | _, _ => false
  if f.isNaN a || f.isNaN b || f.isNaN c then
    (f.qnan, { nv := sig || (badMul && Config.fmaQuietInvalid) })
  else if badMul then f.invalid
  else match va, vb, vc with
    | .num n1 m1 e1, .num n2 m2 e2, .num n3 m3 e3 =>
      let r := exactAdd rm n3 m3 e3 (n1 != n2) (m1 * m2) (e1 + e2)
      f.round rm r.1 r.2.1 r.2.2
    | .num _ _ _, .num _ _ _, .inf n => (f.signed n f.infBits, {})
    | x, y, z =>
      let sgn : FVal → Bool := fun v => match v with
        | .inf n => n
        | .num n _ _ => n
        | .nan _ => false
      let np := sgn x != sgn y
      match z with
      | .inf n => if n == np then (f.signed n f.infBits, {}) else f.invalid
      | _ => (f.signed np f.infBits, {})

/-- Division. -/
def Fmt.div (f : Fmt) (rm : Rm) (a b : Nat) : Nat × FFlags :=
  match f.decode a, f.decode b with
  | .nan x, y => f.nanOf (.nan x) y
  | x, .nan y => f.nanOf x (.nan y)
  | .inf _, .inf _ => f.invalid
  | .inf n1, .num n2 _ _ => (f.signed (n1 != n2) f.infBits, {})
  | .num n1 _ _, .inf n2 => (f.signed (n1 != n2) 0, {})
  | .num n1 m1 e1, .num n2 m2 e2 =>
    if m2 = 0 then
      if m1 = 0 then f.invalid else (f.signed (n1 != n2) f.infBits, { dz := true })
    else if m1 = 0 then (f.signed (n1 != n2) 0, {})
    else
      let sh := 2 * f.mw + 8
      let n := m1 * 2 ^ sh
      f.round rm (n1 != n2) (n / m2) (e1 - e2 - (sh : Int)) (n % m2 != 0)

/-- The integer square root by bits: the greatest r below 2^k with r × r ≤ n, from the bits already found. -/
def sqrtBits (n : Nat) : Nat → Nat → Nat
  | 0, r => r
  | k + 1, r =>
    let r' := r + 2 ^ k
    sqrtBits n k (if r' * r' ≤ n then r' else r)

/-- The integer square root. -/
def isqrt (n : Nat) : Nat := sqrtBits n (bitLen n / 2 + 1) 0

/-- Square root. -/
def Fmt.sqrt (f : Fmt) (rm : Rm) (a : Nat) : Nat × FFlags :=
  match f.decode a with
  | .nan s => (f.qnan, { nv := s })
  | .inf true => f.invalid
  | .inf false => (f.infBits, {})
  | .num neg m e =>
    if m = 0 then (f.signed neg 0, {})
    else if neg then f.invalid
    else
      let k := 2 * f.mw + 8
      let sh : Nat := if (e - (k : Int)) % 2 = 0 then k else k + 1
      let n := m * 2 ^ sh
      let r := isqrt n
      f.round rm false r ((e - (sh : Int)) / 2) (r * r != n)

/-- How two numbers compare; none when unordered. -/
def Fmt.cmp (f : Fmt) (a b : Nat) : Option Ordering :=
  match f.decode a, f.decode b with
  | .nan _, _ => none
  | _, .nan _ => none
  | .inf n1, .inf n2 => some (if n1 == n2 then .eq else if n1 then .lt else .gt)
  | .inf n, _ => some (if n then .lt else .gt)
  | _, .inf n => some (if n then .gt else .lt)
  | .num n1 m1 e1, .num n2 m2 e2 =>
    let e := if e1 ≤ e2 then e1 else e2
    let x : Int := (m1 * 2 ^ (e1 - e).toNat : Nat)
    let y : Int := (m2 * 2 ^ (e2 - e).toNat : Nat)
    let x := if n1 then -x else x
    let y := if n2 then -y else y
    some (if x < y then .lt else if x = y then .eq else .gt)

/-- Ordered comparisons of values, false on NaN. -/
def Fmt.lt (f : Fmt) (a b : Nat) : Bool := f.cmp a b == some .lt
def Fmt.eq (f : Fmt) (a b : Nat) : Bool := f.cmp a b == some .eq
def Fmt.le (f : Fmt) (a b : Nat) : Bool := f.lt a b || f.eq a b

/-- minimumNumber (`wantMax` false) and maximumNumber of IEEE 754-2019; -0 is below +0. -/
def Fmt.minMaxNum (f : Fmt) (wantMax : Bool) (a b : Nat) : Nat × FFlags :=
  let nv := f.decode a == .nan true || f.decode b == .nan true
  if f.isNaN a then (if f.isNaN b then f.qnan else b, { nv := nv })
  else if f.isNaN b then (a, { nv := nv })
  else
    let less := match f.cmp a b with
      | some .lt => true
      | some .gt => false
      | _ => bitAt a (f.ew + f.mw)
    ((if less != wantMax then a else b), {})

/-- An integer as a number of the format. -/
def Fmt.ofInt (f : Fmt) (rm : Rm) (z : Int) : Nat × FFlags := f.round rm (decide (z < 0)) z.natAbs 0

/-- A number rounded to an integer, clamped to a range; NaN gives `onNaN` (R204, FCVT.L.D). -/
def Fmt.toIntIn (f : Fmt) (rm : Rm) (lo hi onNaN : Int) (a : Nat) : Int × FFlags :=
  match f.decode a with
  | .nan _ => (onNaN, { nv := true })
  | .inf n => ((if n then lo else hi), { nv := true })
  | .num neg m e =>
    let r : Nat × Bool :=
      if 0 ≤ e then (m * 2 ^ e.toNat, false) else roundShift rm neg m (-e).toNat false
    let z : Int := if neg then -(r.1 : Int) else r.1
    if z < lo then (lo, { nv := true })
    else if z > hi then (hi, { nv := true })
    else (z, { nx := r.2 })

/-- A number of format `f` in format `g`. -/
def Fmt.convert (f g : Fmt) (rm : Rm) (a : Nat) : Nat × FFlags :=
  match f.decode a with
  | .nan s => (g.qnan, { nv := s })
  | .inf n => (g.signed n g.infBits, {})
  | .num neg m e => g.round rm neg m e

/-- binary64 operations rounding to nearest even, as the pipelines compute (R76). -/
def dAdd (a b : Nat) : Nat := (fmt64.add .near a b).1
def dSub (a b : Nat) : Nat := (fmt64.sub .near a b).1
def dMul (a b : Nat) : Nat := (fmt64.mul .near a b).1
def dDiv (a b : Nat) : Nat := (fmt64.div .near a b).1
def dSqrt (a : Nat) : Nat := (fmt64.sqrt .near a).1
def dOfInt (z : Int) : Nat := (fmt64.ofInt .near z).1
/-- n / d in binary64, rounded once. -/
def dRatio (z : Int) (d : Nat) : Nat :=
  if d = 0 then fmt64.qnan
  else (fmt64.round .near (decide (z < 0)) (z.natAbs * 2 ^ 160 / d) (-160) (z.natAbs * 2 ^ 160 % d != 0)).1
/-- A binary32 value as binary64. -/
def dOfSingle (a : Nat) : Nat := (fmt32.convert fmt64 .near a).1

end Sys2Proof.Machine
end

