-- ==== Sys2Proof/Machine/State.lean ====
section
/-!
DEFINITION. Sys2Proof/Machine/State.lean: the machine's state: the module and the queue of the commands that wait,
the reasons a step can stop, and the state right after reset.
-/
namespace Sys2Proof.Machine

/-- The module with its queue of waiting commands, first in, first out. -/
structure State where
  pending : List Instr := []
  mod : Mod := {}
  deriving DecidableEq, Repr

/-- Faults: none. Every error the spec describes is an effect on the module's state (R7, R279, R440, R453); nobody
raises a fault. -/
inductive Fault where
  deriving DecidableEq, Repr

/-- Refusals. -/
inductive Refusal where
  /-- Raised by an arm of `exec` whose command has no meaning yet; safe, since nothing is claimed of it. -/
  | notModelled (mnemonic : String)
  deriving DecidableEq, Repr

/-- The module without supply, before POWER_GOOD (R392): every register at its reset value, no command waiting. -/
def State.reset : State := {}

/-- A command that completes with an effect on the module alone. -/
def State.act (s : State) (f : Mod → Mod) : Host.Outcome State Fault Refusal := .next { s with mod := f s.mod }

end Sys2Proof.Machine
end

