-- ==== Sys2Proof/Machine/PortOps.lean ====
section
/-!
DEFINITION. Sys2Proof/Machine/PortOps.lean: the meanings of the commands of the field ports (R23 to R54), of their frame rings
(R95 to R99) and of the field switch (R55 to R59).
-/
namespace Sys2Proof.Machine

/-! ### Mode changes and checks -/

/-- FRONT_END_RECONFIGURED (R31): t1. -/
def execFrontEndReconfigured (p : PortId) (s : State) : Host.Outcome State Fault Refusal :=
  s.act (fun m => if (m.port p).phase = .reconf then m.portT1 p else m)

/-- A write of 1 to NETCHK (R28, R30, R62): the check runs outside modes 4, 5 and 9, on a port of a die that is heard and not
already in a check; where the mode change under way has its own check still to come, that one serves. -/
def Mod.netchk (m : Mod) (p : Nat) : Mod :=
  let q := m.port p
  let coming := q.phase = .check || q.checking || (q.phase = .reconf && q.oldEff = 0 && m.effMode p != 0)
  if isOutMode (m.effMode p) || m.asStandby || (m.die (portDie p)).isolated || coming then m
  else m.setPort p { q with checking := true, tests := openWin q.tests m.now }

/-- NETCHK (R28). -/
def execNetchk (_w : Writer) (p : PortId) (s : State) : Host.Outcome State Fault Refusal := s.act (fun m => m.netchk p)

/-- NETWORK_CHECK_DONE (R28). -/
def execNetworkCheckDone (p : PortId) (ohms : BitVec 24) (s : State) : Host.Outcome State Fault Refusal :=
  s.act (fun m => m.checkDone p ohms.toNat)

/-- TRANSITION_END (R32): t5. -/
def execTransitionEnd (p : PortId) (s : State) : Host.Outcome State Fault Refusal :=
  s.act (fun m => if (m.port p).phase = .run then (m.toNow (m.port p).t5).portMaybeEnd p else m)

/-! ### Link mode (R46, R47, R52) -/

/-- The link of a port comes up, at 2.4 Vpp or 1.0 Vpp, a forced amplitude standing. -/
def Mod.t1lUp (m : Mod) (p : Nat) (full : Bool) (sqi : Nat) : Mod :=
  let q := m.port p
  if m.effMode p ≠ 1 ∨ q.phase = .reconf ∨ q.phase = .check ∨ m.asStandby ∨ q.tdrFrom.isSome then m
  else
    let amp := match m.rd F.PORT_LINK_CTRL_AMPL p with
      | 1 => true
      | 2 => false
      | _ => full
    ((m.put F.PORT_STATUS_LINK_UP p true).put F.PORT_STATUS_AMPL_2V4 p amp).wr F.PORT_STATUS_SQI p sqi

/-- T1L_LINK_UP (R31). -/
def execT1lLinkUp (p : PortId) (full : Bool) (sqi : BitVec 3) (s : State) : Host.Outcome State Fault Refusal :=
  s.act (fun m => m.t1lUp p full sqi.toNat)

/-- The link of a port is lost after having been up. AMPL_2V4 and SQI keep what the last link had (DESIGN CHOICE, log entry 79: the spec does
not say what they read without a link). -/
def Mod.t1lDown (m : Mod) (p : Nat) : Mod :=
  if m.flag F.PORT_STATUS_LINK_UP p then (m.put F.PORT_STATUS_LINK_UP p false).portFault p 5 else m

/-- T1L_LINK_DOWN (R52). -/
def execT1lLinkDown (p : PortId) (s : State) : Host.Outcome State Fault Refusal := s.act (fun m => m.t1lDown p)

/-- A frame at the MAC of a port with its link up (R47): counted and dropped if bad, else passed to the switch. -/
def Mod.t1lFrame (m : Mod) (p : Nat) (fr : EthFrame) : Mod :=
  if m.effMode p ≠ 1 ∨ !m.flag F.PORT_STATUS_LINK_UP p then m
  else
    if !frameGood fr then m.count F.PORT_LINK_ERR_ERR p
    else m.switchReceive p fr

/-- T1L_FRAME_RECEIVE (R47). -/
def execT1lFrameReceive (p : PortId) (fr : EthFrame) (s : State) : Host.Outcome State Fault Refusal := s.act (fun m => m.t1lFrame p fr)

/-! ### Pulse, quadrature and discrete modes (R48 to R50) -/

/-- A step of the counter at this instant. -/
def Mod.countStep (m : Mod) (p : Nat) (d : Int) : Mod :=
  let v := wrapTo 64 ((m.counter p : Int) + d)
  let m := (m.wr F.PORT_COUNT_LO_COUNT p v).wr F.PORT_COUNT_HI_COUNT p (v / 2 ^ 32)
  m.setPort p { m.port p with edges := (m.now, d) :: (m.port p).edges }

/-- The sampler of a port in pulse mode sees a level that lasts for some sample periods (R48): one shorter than MINPULSE, at least
one period, is ignored; the rise of the filtered level is counted and timestamped. None is counted before t1 (R489). -/
def Mod.pulseEdge (m : Mod) (p : Nat) (high : Bool) (periods : Nat) : Mod :=
  let q := m.port p
  if m.effMode p ≠ 7 ∨ q.phase = .reconf ∨ periods < Nat.max 1 (m.rd F.PORT_FILTER_MINPULSE p) ∨ high = q.levelA then m
  else
    let m := m.setPort p { q with levelA := high }
    if high then m.countStep p 1 else m

/-- PULSE_EDGE (R48). -/
def execPulseEdge (p : Pulse) (s : State) : Host.Outcome State Fault Refusal :=
  s.act (fun m => m.pulseEdge p.port p.high p.periods)

/-- New levels of A and B (R49): a single change counts up when A leads, a change of both is a quadrature error. A channel whose port is
between t0 and t1 of a change gives no level (R488, R489); while that is the even port, whose counter it is, nothing counts. -/
def Mod.quadrature (m : Mod) (p : Nat) (a b : Bool) : Mod :=
  let q := m.port p
  if m.effMode p ≠ 10 ∨ p % 2 = 1 then m
  else
    let blindA := q.phase == .reconf
    let blindB := (m.port (p + 1)).phase == .reconf
    let a := if blindA then q.levelA else a
    let b := if blindB then q.levelB else b
    let ca := a != q.levelA
    let cb := b != q.levelB
    let m := m.setPort p { q with levelA := a, levelB := b }
    if blindA then m
    else if ca && cb then
      let m := m.setPort p { m.port p with qerrs := m.now :: q.qerrs }
      (m.count F.PORT_LINK_ERR_ERR p).portFault p 6
    else if ca then m.countStep p (if a != q.levelB then 1 else -1)
    else if cb then m.countStep p (if b == q.levelA then 1 else -1)
    else m

/-- QUADRATURE_TRANSITION (R49). -/
def execQuadratureTransition (p : PortId) (q : Quad) (s : State) : Host.Outcome State Fault Refusal := s.act (fun m => m.quadrature p q.a q.b)

/-- The debounce time of a port in nanoseconds: none in discrete-out mode. -/
def Mod.debounce (m : Mod) (p : Nat) : Nat := if m.effMode p = 8 then m.rd F.PORT_FILTER_DEBOUNCE p * 1000 else 0

/-- A pending change whose stable interval has passed is confirmed. -/
def Mod.settleDisc (m : Mod) (p : Nat) : Mod :=
  let q := m.port p
  match q.pendDisc with
  | some (h, t) =>
    if t + m.debounce p ≤ m.now then m.setPort p { q with pendDisc := none, disc := ⟨t, t + m.debounce p, h⟩ :: q.disc } else m
  | none => m

/-- The state last confirmed: low where none has been (R488). -/
def Port.discState (q : Port) : Bool := match q.disc with
  | c :: _ => c.high
  | [] => false

/-- The input's state changes: a stable interval begins, or the one that ran ends without a change. -/
def Mod.discreteChange (m : Mod) (p : Nat) (high : Bool) : Mod :=
  let e := m.effMode p
  if (e ≠ 8 ∧ e ≠ 9) ∨ (m.port p).phase = .reconf then m
  else
    let m := m.settleDisc p
    let q := m.port p
    if high = q.discState then m.setPort p { q with pendDisc := none, levelA := high }
    else
      let m := m.setPort p { q with levelA := high, pendDisc := match q.pendDisc with
        | some x => some x
        | none => some (high, m.now) }
      m.settleDisc p

/-- DISCRETE_CHANGE (R50). -/
def execDiscreteChange (p : PortId) (high : Bool) (s : State) : Host.Outcome State Fault Refusal := s.act (fun m => m.discreteChange p high)

/-- DISCRETE_CHANGE_CONFIRMED (R50). -/
def execDiscreteChangeConfirmed (p : PortId) (s : State) : Host.Outcome State Fault Refusal :=
  s.act (fun m => match (m.port p).pendDisc with
    | some (_, t) => (m.toNow (t + m.debounce p)).settleDisc p
    | none => m)

/-! ### Diagnostics (R43, R44, R52) -/

/-- A condition of a port appears or goes in the effective modes given: its status bit, and once as it appears its sticky bit. -/
def Mod.condition (m : Mod) (p : Nat) (f : Fld) (bit : Nat) (modes : List Nat) (present : Bool) : Mod :=
  if !modes.contains (m.effMode p) then m
  else
    let was := m.flag f p
    (m.put f p present).iff (present && !was) (fun m => m.portFault p bit)

/-- OPEN_WIRE_DETECTED (R43). -/
def execOpenWireDetected (p : PortId) (present : Bool) (s : State) : Host.Outcome State Fault Refusal :=
  s.act (fun m => m.condition p F.PORT_STATUS_OPEN 1 [2, 3] present)

/-- OUTPUT_DEVIATION (R44, R50). -/
def execOutputDeviation (p : PortId) (present : Bool) (s : State) : Host.Outcome State Fault Refusal :=
  s.act (fun m => m.condition p F.PORT_STATUS_OUTDEV 4 [4, 5, 9] present)

/-- OVERRANGE (R38). -/
def execOverrange (p : PortId) (present : Bool) (s : State) : Host.Outcome State Fault Refusal :=
  s.act (fun m => m.condition p F.PORT_STATUS_OVERRANGE 2 [2, 3, 6] present)

/-- The voltage open-wire test of a port in a scan: 100 µs of test current, open if the input moved by more than 5 % of range. The
class in the table's "6, 8 (VIN class)" is taken to limit mode 8 alone (DEDUCED, log entry 79). -/
def Mod.scanOpen (m : Mod) (p : Nat) (moved : Bool) : Mod :=
  let e := m.effMode p
  if m.flag F.PORT_DIAG_CTRL_OPEN p && (e == 6 || (e == 8 && m.portClass p == 5)) then
    let q := m.port p
    let m := m.setPort p { q with tests := ⟨m.now, some (m.now + 100000)⟩ :: q.tests }
    m.condition p F.PORT_STATUS_OPEN 1 [6, 8] moved
  else m

/-- The leakage check of a port in a scan: the coding resistance has drifted by more than 5 % from the last passed check. A port that
has passed none yet is not judged, and PORT_NETCHK.OHMS takes the readings of network checks alone (DESIGN CHOICE, log entry 79). -/
def Mod.scanLeak (m : Mod) (p ohms : Nat) : Mod :=
  let r := (m.port p).passOhms
  if m.effMode p = 0 ∨ m.asStandby ∨ r = 0 then m
  else m.condition p F.PORT_STATUS_LEAK 3 [1, 2, 3, 4, 5, 6, 7, 8, 9, 10] (decide (20 * (if ohms ≥ r then ohms - r else r - ohms) > r))

/-- DIAGNOSTIC_SCAN (R52): `moved` is the result of each port's open-wire test, `ohms` the coding resistances read. -/
def execDiagnosticScan (b : BlockId) (moved : BitVec 32) (ohms : List (Fin 32 × BitVec 24)) (s : State) : Host.Outcome State Fault Refusal :=
  s.act (fun m =>
    if !m.flag F.PBLK_CTRL_SCAN_EN b || (m.die (b / 4)).isolated then m
    else
      let m := m.each (upTo 32) (fun m i => m.scanOpen (32 * b + i) (bitAt moved.toNat i))
      m.each ohms (fun m o => m.scanLeak (32 * b + o.1) o.2.toNat))

/-! ### HART (R45, R98, R99) -/

/-- HART_CARRIER_DETECT (R45): set above 120 mV p-p, cleared below 80. -/
def execHartCarrierDetect (p : PortId) (mvpp : Nat) (s : State) : Host.Outcome State Fault Refusal :=
  s.act (fun m =>
    let e := m.effMode p
    if e ≠ 3 ∧ e ≠ 5 then m
    else if mvpp > 120 then m.put F.PORT_STATUS_HART_CD p true
    else if mvpp < 80 then m.put F.PORT_STATUS_HART_CD p false
    else m)

/-- HART_RECEIVE_FRAME (R98). -/
def execHartReceiveFrame (p : PortId) (fr : HartFrame) (s : State) : Host.Outcome State Fault Refusal := s.act (fun m => m.hartReceive p fr false)

/-- HART_GAP_TIMEOUT (R98). -/
def execHartGapTimeout (p : PortId) (fr : HartFrame) (s : State) : Host.Outcome State Fault Refusal := s.act (fun m => m.hartReceive p fr true)

/-- HART_TRANSMIT_FRAME (R99). -/
def execHartTransmitFrame (g : RegionId) (s : State) : Host.Outcome State Fault Refusal :=
  s.act (fun m => if m.rgnDown g then m else match m.htxNext g (m.htxWaiting g) [] with
    | some i => m.htxTake g i
    | none => m)

/-- HART_TRANSMIT_DONE (R99). -/
def execHartTransmitDone (p : PortId) (s : State) : Host.Outcome State Fault Refusal := s.act (fun m => m.htxDone' p)

/-! ### Reflectometry (R53, R54) -/

/-- A write of 1 to PORT_TDR_CTRL.START: ignored outside full service, which alone has reflectometry (R398). A TDRDONE of an earlier run
is cleared as the new one starts (DESIGN CHOICE, log entry 79). -/
def Mod.tdrStart (m : Mod) (p : Nat) : Mod :=
  let b := portBlock p
  let other := m.flag F.PBLK_TDR_OWNER_VALID b && m.rd F.PBLK_TDR_OWNER_PORT b != p % 32
  if !m.phase.full then m
  else if (m.effMode p ≠ 0 ∧ m.effMode p ≠ 1) ∨ m.asStandby ∨ other then m.portFault p 7
  else if (m.port p).tdrFrom.isSome then m
  else
    let m := m.t1lDown p
    let m := m.setPort p { m.port p with tdrFrom := some m.now }
    let m := (m.wr F.PBLK_TDR_OWNER_PORT b (p % 32)).put F.PBLK_TDR_OWNER_VALID b true
    (m.put F.PORT_STATUS_TDRBUSY p true).put F.PORT_STATUS_TDRDONE p false

/-- TDR_START (R53). -/
def execTdrStart (_w : Writer) (p : PortId) (s : State) : Host.Outcome State Fault Refusal := s.act (fun m => m.tdrStart p)

/-- TDR_ABORT (R54). -/
def execTdrAbort (_w : Writer) (p : PortId) (s : State) : Host.Outcome State Fault Refusal := s.act (fun m => m.tdrAbort p)

/-- The index and value of the largest reflection beyond index 64: of equal ones the lowest, and index 65 where all are zero (DESIGN CHOICE, log
entry 79: R54 does not say). -/
def largestPoint : List (BitVec 16) → Nat → Nat × Int → Nat × Int
  | [], _, best => best
  | v :: rest, j, best =>
    largestPoint rest (j + 1) (if j > 64 ∧ v.toInt.natAbs > best.2.natAbs then (j, v.toInt) else best)

/-- A run ends after 16 × 2^AVG × 20 µs. AVG is read at the end of the run (DESIGN CHOICE, log entry 79: firmware may change it while
the run lasts). -/
def Mod.tdrEnd (m : Mod) (p : Nat) (points : List (BitVec 16)) : Mod :=
  match (m.port p).tdrFrom with
  | none => m
  | some t =>
    let m := m.toNow (t + 320000 * 2 ^ Nat.min 8 (m.rd F.PORT_TDR_CTRL_AVG p))
    let m := m.setPort p { m.port p with tdrFrom := none }
    let pts := points.take 16384
    let (j, v) := largestPoint pts 0 (65, 0)
    let m := { m with tdrBuf := Tbl.set [] m.tdrBuf (portBlock p) pts }
    let m := ((m.wr F.PORT_TDR_RESULT_INDEX p j).put F.PORT_TDR_RESULT_NEG p (decide (v < 0))).put F.PORT_TDR_RESULT_ABORTED p false
    ((m.put F.PORT_STATUS_TDRBUSY p false).put F.PORT_STATUS_TDRDONE p true).tdrAnswer p true

/-- TDR_RUN_END (R54). -/
def execTdrRunEnd (p : PortId) (points : List (BitVec 16)) (s : State) : Host.Outcome State Fault Refusal := s.act (fun m => m.tdrEnd p points)

/-- A write of 1 to TDRDONE. PBLK_TDR_OWNER.PORT keeps the last owner while VALID is 0 (DESIGN CHOICE, log entry 79: R61 does not say what it
reads then). -/
def Mod.tdrRelease (m : Mod) (p : Nat) : Mod :=
  if m.flag F.PORT_STATUS_TDRDONE p then
    let b := portBlock p
    let m := m.put F.PORT_STATUS_TDRDONE p false
    m.iff (m.rd F.PBLK_TDR_OWNER_PORT b == p % 32) (fun m => m.put F.PBLK_TDR_OWNER_VALID b false)
  else m

/-- TDRDONE_RELEASE (R54). -/
def execTdrdoneRelease (_w : Writer) (p : PortId) (s : State) : Host.Outcome State Fault Refusal := s.act (fun m => m.tdrRelease p)

/-! ### Port-die links (R51, R80) -/

/-- DIE_LINK_LOSS (R51): the die's own watch. -/
def execDieLinkLoss (d : DieId) (s : State) : Host.Outcome State Fault Refusal :=
  s.act (fun m =>
    let m := if (m.die d).isolated then m.setDie d { m.die d with hears := false } else m.isolateDie d
    m.setDie d { m.die d with cut := (m.die d).cut || m.domPowered (56 + d) })

/-- The main die declares a die's link lost (R51). -/
def Mod.mainDieLoss (m : Mod) (d : Nat) : Mod :=
  if (m.die d).lostAt.isSome then m
  else
    let m := m.setDie d { m.die d with lostAt := some m.now, cut := (m.die d).cut || m.domPowered (56 + d) }
    m.each (span (4 * d) 4) (fun m b =>
      ((m.put F.PBLK_CARRIER_DIE_LINK b false).put F.SPL_BLK_STATUS_DIE_LOST b true).blockFault (blockRegion b) 0x04 b 7 d)

/-- MAIN_DIE_LINK_LOSS (R51). -/
def execMainDieLinkLoss (d : DieId) (s : State) : Host.Outcome State Fault Refusal := s.act (fun m => m.mainDieLoss d)

/-- Valid frames flow both ways (R51); those of a region under reset resume at its restart (R451). -/
def Mod.dieLinkUp (m : Mod) (d : Nat) : Mod :=
  let m := m.setDie d { m.die d with cut := false }
  if m.rgnDown (d / 2) || !m.domOn (56 + d) then m
  else m.dieHears d

/-- DIE_LINK_RETURN (R51). -/
def execDieLinkReturn (d : DieId) (s : State) : Host.Outcome State Fault Refusal := s.act (fun m => m.dieLinkUp d)

/-- The end of a block's HELD interval, none while its die's link is not lost (R80). -/
def Mod.heldEnd (m : Mod) (b : Nat) : Option Nat :=
  (m.die (b / 4)).lostAt.map (fun l => l + m.rd F.SPL_BLK_CTRL_HOLDT b * 1000000)

/-- HOLDT_EXPIRY (R80): the instant from which records of the block take row 3. -/
def execHoldtExpiry (b : BlockId) (s : State) : Host.Outcome State Fault Refusal :=
  s.act (fun m => match m.heldEnd b with
    | some t => m.toNow t
    | none => m)

/-! ### Frames and the switch (R55 to R59, R95 to R97) -/

/-- SWITCH_FORWARD (R55): the switch has a frame from an ingress. -/
def execSwitchForward (ingress : Fin 1033) (fr : EthFrame) (s : State) : Host.Outcome State Fault Refusal :=
  s.act (fun m => m.switchReceive ingress fr)

/-- ENTRY_AGEOUT (R56). -/
def execEntryAgeout (e : Fin 8192) (s : State) : Host.Outcome State Fault Refusal := s.act (fun m => m.ageOut e)

/-- FSW_TBL_READ (R56, R59). -/
def execFswTblRead (w : Writer) (space : Bool) (index : BitVec 13) (s : State) : Host.Outcome State Fault Refusal :=
  s.act (fun m => m.tblCmd w 0 space index.toNat)

/-- FSW_TBL_STAGE_WRITE (R56, R59). -/
def execFswTblStageWrite (w : Writer) (space : Bool) (index : BitVec 13) (s : State) : Host.Outcome State Fault Refusal :=
  s.act (fun m => m.tblCmd w 1 space index.toNat)

/-- FSW_TBL_STAGE_INVALIDATE (R56, R59). -/
def execFswTblStageInvalidate (w : Writer) (space : Bool) (index : BitVec 13) (s : State) : Host.Outcome State Fault Refusal :=
  s.act (fun m => m.tblCmd w 2 space index.toNat)

/-- TABLE_COMMAND_COMPLETE (R59). -/
def execTableCommandComplete (s : State) : Host.Outcome State Fault Refusal := s.act (fun m => m.put F.FSW_STATUS_BUSY 0 false)

/-- EGRESS_FRAME_TRANSMIT (R55, R97). -/
def execEgressFrameTransmit (member : Fin 1033) (s : State) : Host.Outcome State Fault Refusal := s.act (fun m => m.egressSend member)

/-- LINK_TRANSMIT_SLOT (R97). -/
def execLinkTransmitSlot (g : RegionId) (s : State) : Host.Outcome State Fault Refusal := s.act (fun m => m.ltxTake g)

/-- RING_INDEX_WRITE (R95). -/
def execRingIndexWrite (_w : Writer) (g : RegionId) (ring : FwRing) (index : BitVec 16) (s : State) : Host.Outcome State Fault Refusal :=
  s.act (fun m => m.ringWrite g ring index.toNat)

end Sys2Proof.Machine
end

