-- ==== Sys2Proof/Machine/PipeBase.lean ====
section
/-!
DEFINITION. Sys2Proof/Machine/PipeBase.lean: the sample pipelines (R69 to R85): inputs of records, calibration, limits, quality,
the writing of records, load, and what a configuration commit does to them.
-/
namespace Sys2Proof.Machine

/-! ### Inputs (R73, R75) -/

/-- NaN as records hold it. -/
def recNaN : Nat := 0x7FF8000000000000

/-- The saturation of the raw code (R38). -/
def codeMax : Int := 10066328

/-- A raw code within its saturation limits. -/
def clampCode (z : Int) : Int := if z > codeMax then codeMax else if z < -codeMax then -codeMax else z

/-- The full scale of a RANGE in volts, f64 (R38). -/
def rangeVolts (r : Nat) : Nat :=
  match r with
  | 0 => 0x4024000000000000
  | 1 => 0x4004000000000000
  | 2 => 0x3FE4000000000000
  | _ => 0x3FB4000000000000

/-- The range a port measures with: range 1 in modes 2 and 3 (R43). -/
def Mod.portRange (m : Mod) (p : Nat) : Nat :=
  let e := m.effMode p
  if e = 2 ∨ e = 3 then 1 else m.rd F.PORT_MODE_RANGE p

/-- V of a converter code: code × range / 8,388,607. -/
def voltsOf (range : Nat) (code : Int) : Nat := dDiv (dMul (dOfInt code) (rangeVolts range)) (dOfInt 8388607)

/-- x of a converter source in an effective mode. -/
def converterX (mode range : Nat) (code : Int) : Nat :=
  let v := voltsOf range code
  if mode = 2 ∨ mode = 3 then dMul (dOfInt 20) v
  else if mode = 4 ∨ mode = 5 then dMul (dOfInt 40) v
  else v

/-- The oldest of a list of spells, newest first, that had not ended at `t`; `cur` where all had. -/
def spellAt (cur : PortSpell) (t : Nat) : List PortSpell → PortSpell
  | [] => cur
  | s :: rest => if t < s.till then spellAt s t rest else cur

/-- The spell of a port's sampler that instant `t` lies in. -/
def Mod.spell (m : Mod) (p t : Nat) : PortSpell :=
  let q := m.port p
  spellAt ⟨m.now, m.counter p, q.edges, q.qerrs, q.disc⟩ t q.spells

/-- A counter's value at instant `t`: what it came to in its spell less what was counted after `t`. -/
def Mod.counterAt (m : Mod) (p t : Nat) : Int :=
  let s := m.spell p t
  let later : Int := ((s.edges.filter (fun e => decide (e.1 > t))).map Prod.snd).foldl (· + ·) 0
  let v := wrapTo 64 ((s.count : Int) - later)
  if m.effMode p = 10 then signedOf 64 v else v

/-- Instants of edges seen at or before `t`, newest first. -/
def Mod.edgesAt (m : Mod) (p t : Nat) : List Nat := ((m.spell p t).edges.filter (fun e => decide (e.1 ≤ t))).map Prod.fst

/-- n / d counted per second of nanoseconds, f64. -/
def perSecond (n : Int) (ns : Int) : Nat := dDiv (dOfInt (n * 1000000000)) (dOfInt ns)

/-- Frequency at `t` over (t - P, t] (R75), and whether quality 0x45 applies. -/
def Mod.frequency (m : Mod) (p t P : Nat) : Nat × Bool :=
  let seen := m.edgesAt p t
  let inside := seen.filter (fun e => decide (e + P > t))
  match inside, seen with
  | tn :: (x :: rest), _ => (perSecond ((x :: rest).length) ((tn : Int) - (((x :: rest).getLast?).getD 0 : Nat)), false)
  | _, tb :: ta :: _ =>
    let z := m.rd F.SPL_PORT_PULSE_ZTIMEOUT p
    if z = 0 ∨ t - tb > z * 1000000 then (0, true) else (perSecond 1 ((tb : Int) - (ta : Int)), false)
  | _, _ => (0, true)

/-- The state last confirmed at or before `t`, and how many changes were confirmed in (t - P, t] (R50). -/
def Mod.discreteAt (m : Mod) (p t P : Nat) : Bool × Nat :=
  let l := (m.spell p t).disc
  let st := match l.find? (fun c => decide (c.confirmed ≤ t)) with
    | some c => c.high
    | none => false
  (st, (l.filter (fun c => decide (c.confirmed ≤ t) && decide (c.confirmed + P > t))).length)

/-- The input of a record: x, the raw field, and whether no recent edges gave it. -/
structure RecIn where
  x : Nat
  raw : Nat
  noEdges : Bool
  deriving DecidableEq, Repr

/-- The input of a source at instant `t` with grid period `P`; `code` is the chain's code. -/
def Mod.sourceIn (m : Mod) (p src t P : Nat) (code : Int) : RecIn :=
  let e := m.effMode p
  match src with
  | 1 => ⟨converterX e (m.portRange p) code, wrapTo 32 code, false⟩
  | 2 => ⟨converterX e (m.portRange p) code, wrapTo 32 code, false⟩
  | 3 =>
    let c := m.counterAt p t
    ⟨dOfInt c, wrapTo 32 c, false⟩
  | 4 =>
    let (f, z) := m.frequency p t P
    ⟨f, ((m.edgesAt p t).filter (fun x => decide (x + P > t))).length, z⟩
  | 5 =>
    let (f, z) := m.frequency p t P
    ⟨if f = 0 then 0 else dDiv (dOfInt 1) f, ((m.edgesAt p t).filter (fun x => decide (x + P > t))).length, z⟩
  | 6 =>
    let (st, n) := m.discreteAt p t P
    ⟨dOfInt (b2n st), n, false⟩
  | _ =>
    let d := signedOf 64 (wrapTo 64 (m.counterAt p t - m.counterAt p (t - P)))
    ⟨perSecond d P, wrapTo 32 d, false⟩

/-! ### Calibration (R76, R77) -/

/-- An f64 of calibration slot `s` of the active bank of region `g`. -/
def Mod.slotF64 (m : Mod) (g s off : Nat) : Nat := m.num (signalBase g + 0x1C0000 + m.rd F.SPL_RGN_CAL_BANK g * 0x20000 + s * 0x200 + off) 8

/-- c of R76, whether x lies outside the table, whether the table slot is invalid. -/
def Mod.calibrate (m : Mod) (k x : Nat) : Nat × Bool × Bool :=
  let g := k / 4096
  let s := m.rd F.SPL_REC_CTRL_SLOT k
  match m.rd F.SPL_REC_CTRL_CAL k with
  | 0 => (x, false, false)
  | 1 => (dAdd (dMul (m.rd F.SPL_REC_GAIN_GAIN k) x) (m.rd F.SPL_REC_OFFSET_OFFSET k), false, false)
  | 2 =>
    let a := fun (i : Nat) => m.slotF64 g s (8 * i)
    let step := fun (acc i : Nat) => dAdd (a i) (dMul x acc)
    (step (step (step (step (step (a 5) 4) 3) 2) 1) 0, false, false)
  | _ =>
    let x0 := m.slotF64 g s 0
    let dx := m.slotF64 g s 8
    let u := dDiv (dSub x x0) dx
    let i := (fmt64.toIntIn .down 0 31 0 u).1.toNat
    let y := fun (j : Nat) => m.slotF64 g s (0x10 + 8 * j)
    let c := dAdd (y i) (dMul (dSub u (dOfInt i)) (dSub (y (i + 1)) (y i)))
    (c, fmt64.lt u 0 || fmt64.lt (dOfInt 32) u, !fmt64.isFinite x0 || !fmt64.isFinite dx || fmt64.le dx 0)

/-- v of R76 from c. -/
def Mod.convert (m : Mod) (k c : Nat) : Nat :=
  let scale := m.rd F.SPL_REC_SCALE_SCALE k
  let bias := m.rd F.SPL_REC_BIAS_BIAS k
  if m.rd F.SPL_REC_CTRL_CONV k = 1 then
    let cut := (fmt64.minMaxNum true (dOfSingle (m.rd F.SPL_REC_CUT_CUT k)) 0).1
    if fmt64.le c cut then bias else dAdd (dMul scale (dSqrt c)) bias
  else dAdd (dMul scale c) bias

/-! ### Limit flags (R79) -/

/-- A flag set below or above a limit with hysteresis: its new value. -/
def limitFlag (v lim hyst : Nat) (high was : Bool) : Bool :=
  if high then (if fmt64.lt lim v then true else if fmt64.le v (dSub lim hyst) then false else was)
  else (if fmt64.lt v lim then true else if fmt64.le (dAdd lim hyst) v then false else was)

/-- Flags 0 to 4 of a record of class GOOD or UNCERTAIN. -/
def Mod.limits (m : Mod) (k v P prev : Nat) : Nat :=
  let h := dOfSingle (m.rd F.SPL_REC_HYST_HYST k)
  let hyst := if fmt64.lt h 0 then 0 else h
  let lim := fun (f : Fld) => dOfSingle (m.rd f k)
  let aux := Tbl.get {} m.recAux k
  let rate := match aux.sinceCommit, aux.prev with
    | true, some vp =>
      let r := dOfSingle (m.rd F.SPL_REC_RATE_RATE k)
      if fmt64.le r 0 then !fmt64.eq v vp.toNat else fmt64.lt (dMul r (dRatio P 1000000000)) (fmt64.abs (dSub v vp.toNat))
    | _, _ => false
  b2n (limitFlag v (lim F.SPL_REC_LIM_LL_LIM_LL) hyst false (bitAt prev 0)) + 2 * b2n (limitFlag v (lim F.SPL_REC_LIM_L_LIM_L) hyst false (bitAt prev 1)) +
  4 * b2n (limitFlag v (lim F.SPL_REC_LIM_H_LIM_H) hyst true (bitAt prev 2)) + 8 * b2n (limitFlag v (lim F.SPL_REC_LIM_HH_LIM_HH) hyst true (bitAt prev 3)) +
  16 * b2n rate

/-- Flags 5 and 6 (NE 43), from x in mA: 0 where R79's table does not apply for the effective mode or source, and kept where x is no number
(DESIGN CHOICE, log entry 79: the table states neither). -/
def Mod.ne43 (m : Mod) (k x prev : Nat) (have_ : Bool) : Nat :=
  let e := m.effMode (k / 16)
  let src := m.rd F.SPL_REC_CTRL_SOURCE k
  if !m.flag F.SPL_REC_CTRL_NE43_EN k then 0
  else if !have_ then prev &&& 0x60
  else if (2 ≤ e ∧ e ≤ 5) ∧ (src = 1 ∨ src = 2) then
    if fmt64.isNaN x then prev &&& 0x60
    else 32 * b2n (fmt64.lt x 0x400CCCCCCCCCCCCD) + 64 * b2n (fmt64.lt 0x4035000000000000 x)
  else 0

/-- The enables of flags 0 to 4. -/
def Mod.limitEnables (m : Mod) (k : Nat) : Nat := bitsOf (m.reg .SPL_REC_CTRL k) 16 5

/-! ### Quality (R80) -/

/-- Whether a record's chain output at `t` was not delivered, the port die's link being lost at L: nothing the die sent came
in the 10 µs before L. -/
def Mod.undelivered (m : Mod) (k t : Nat) : Bool :=
  let p := k / 16
  match (m.die (portDie p)).lostAt with
  | some l => decide (t + m.chainDelay p (m.rd F.SPL_REC_CTRL_SOURCE k == 2) + 10000 > l)
  | none => false

/-- Whether a record's source is valid in its port's effective mode (R73). -/
def Mod.sourceValid (m : Mod) (k : Nat) : Bool := (sourceModes (m.rd F.SPL_REC_CTRL_SOURCE k) (k / 16)).contains (m.effMode (k / 16))

/-- What the rows of R80 need beside the state. -/
structure QualIn where
  code : Int
  ne43 : Bool
  calBad : Bool
  outside : Bool
  noEdges : Bool

/-- The quality of record `k` at instant `t` with grid period `P`: the first row that holds, the registers being those of `t`. -/
def Mod.quality (m : Mod) (k t P : Nat) (i : QualIn) : Nat :=
  let p := k / 16
  let q := m.port p
  let e := m.effMode p
  let src := m.rd F.SPL_REC_CTRL_SOURCE k
  let conv := src == 1 || src == 2
  let lost := m.undelivered k t
  if inWindows q.changes t then 0x41
  else if lost && decide (t < ((m.heldEnd (portBlock p)).getD 0)) then 0x81
  else if lost then 0x07
  else if e = 0 then 0x01
  else if !m.sourceValid k then 0x0A
  else if m.flag F.PORT_STATUS_OPEN p then 0x02
  else if m.flag F.PORT_STATUS_OVERRANGE p || (conv && (e == 2 || e == 3 || e == 6) && decide (i.code.natAbs ≥ codeMax.natAbs)) then 0x03
  else if (m.spell p t).qerrs.any (fun x => decide (x ≤ t) && decide (x + P > t)) then 0x08
  else if m.flag F.PORT_STATUS_OUTDEV p && ((conv && (e == 4 || e == 5)) || (src == 6 && e == 9)) then 0x05
  else if i.ne43 then 0x04
  else if i.calBad then 0x06
  else if m.flag F.PORT_STATUS_LEAK p then 0x47
  else if inWindows q.tests t then 0x43
  else if decide (t < Tbl.get 0 m.settleEnd (p * 2 + b2n (src == 2))) then 0x42
  else if i.outside then 0x44
  else if i.noEdges then 0x45
  else if !m.flag F.TB_STATUS_LOCKED then 0x46
  else 0xC0

/-! ### Records (R74, R81) -/

/-- Record `k` written with a quality, value, raw field, instant and NE 43 flags: limits, judged by R76's v, sequence and status follow, with
the registers of `w`. -/
def Mod.putRecord (m w : Mod) (k t P q value v raw ne : Nat) : Mod :=
  let p := k / 16
  let old := m.sigRec k
  let prev := old.flags.toNat
  let judged := q / 64 = 1 ∨ q / 64 = 3
  let low := if judged then w.limits k v P prev else prev % 32
  let fl := (low &&& w.limitEnables k) + ne
  let fl := if fl = prev % 128 then fl else fl + 128
  let st := w.effMode p + 16 * w.rd F.SPL_RGN_CAL_BANK (portRegion p) + 32 * b2n w.isStandby + 256 * (w.moveNow % 256) + 65536 * w.rd F.SPL_REC_CTRL_SOURCE k
  let m := m.setRec k ⟨BitVec.ofNat 64 value, t, BitVec.ofNat 32 raw, BitVec.ofNat 8 q, BitVec.ofNat 8 fl, old.seq + 1, BitVec.ofNat 32 st⟩
  if judged then { m with recAux := Tbl.set {} m.recAux k ⟨some (BitVec.ofNat 64 value), true⟩ } else m

/-- Record `k` at an instant of its grid: input, calibration, quality and status with mode, range, conditions and settings as they stood
at that instant (R9, R71, R80, R81). -/
def Mod.recordAt (m : Mod) (k t : Nat) (code : Int) : Mod :=
  let p := k / 16
  let w := m.asAt t
  let src := w.rd F.SPL_REC_CTRL_SOURCE k
  let P := w.chainPeriod p (src == 2)
  let (i, m) : RecIn × Mod :=
    if w.sourceValid k then (w.sourceIn p src t P code, m)
    else if inWindows (m.port p).changes t then
      let (n, m) := m.fresh
      let w := (Config.noSource n).toNat
      (⟨w % 2 ^ 64, w / 2 ^ 64, false⟩, m)
    else (⟨recNaN, 0, false⟩, m)
  let (c, outside, bad) := w.calibrate k i.x
  let v := w.convert k c
  let prev := m.sigRec k
  let ne := w.ne43 k i.x prev.flags.toNat (!w.undelivered k t || inWindows (m.port p).changes t)
  let q := w.quality k t P ⟨code, ne != 0, bad || !fmt64.isFinite v, outside, i.noEdges⟩
  match q with
  | 0x81 => m.putRecord w k t P q prev.value.toNat v 0 ne
  | 0x07 => m.putRecord w k t P q recNaN v 0 ne
  | 0x01 => m.putRecord w k t P q recNaN v 0 ne
  | 0x0A => m.putRecord w k t P q recNaN v 0 ne
  | 0x45 => m.putRecord w k t P q 0 v i.raw ne
  | _ => m.putRecord w k t P q v v i.raw ne

/-- Record `k` as it loses its instants at a commit (R74). -/
def Mod.recordEnds (m : Mod) (k : Nat) : Mod :=
  m.putRecord m k m.now 0 0x0A recNaN recNaN 0 (m.ne43 k recNaN (m.sigRec k).flags.toNat false)

/-! ### Chain outputs and data-ready (R71, R83, R85) -/

/-- The records of a port on chain A or B. -/
def Mod.chainRecords (m : Mod) (p : Nat) (b : Bool) : List Nat :=
  (span (16 * p) 16).filter (fun k => m.recLive k && (m.rd F.SPL_REC_CTRL_SOURCE k == 2) == b)

/-- The records a chain's output for instant `t` is for: those that had the instant and have not ended since (R74). -/
def Mod.dueRecords (m : Mod) (p : Nat) (b : Bool) (t : Nat) : List Nat :=
  ((m.asAt t).chainRecords p b).filter m.recLive

/-- The records of a block that count for data-ready at `t`, by the settings of `t` (R9, R85). -/
def Mod.dueEvt (m : Mod) (b t : Nat) : List Nat :=
  let w := m.asAt t
  (span (512 * b) 512).filter (fun k => w.flag F.SPL_REC_CTRL_EVT k && w.recLive k &&
    t % w.chainPeriod (k / 16) (w.rd F.SPL_REC_CTRL_SOURCE k == 2) == 0)

/-- A chain's output for instant `t` has reached the pipeline, a group delay after it by the chain's setting at `t` (R9, R71): its records are
written, and the last of the block's EVT records due at `t` raises data-ready. PORT_RAW holds the last output of either chain, and keeps it
while both are off (DESIGN CHOICE, log entry 79). -/
def Mod.chainOutput (m : Mod) (p : Nat) (b : Bool) (t : Nat) (code : Int) : Mod :=
  let w := m.asAt t
  let P := w.chainPeriod p b
  let last := Tbl.look m.chainLast (p * 2 + b2n b)
  let blk := portBlock p
  let fresh := match last with
    | some l => decide (l < t)
    | none => true
  if P = 0 ∨ t % P ≠ 0 ∨ m.skipped t ∨ !fresh ∨ m.rgnDown (portRegion p) ∨ !m.domOn (40 + portRegion p) then m
  else
    let m := (m.toNow (t + w.chainDelay p b)).settleDisc p
    let m := { m with chainLast := Tbl.put m.chainLast (p * 2 + b2n b) t }
    let code := clampCode code
    let m := m.iff ((m.die (portDie p)).lostAt.isNone) (fun m => m.wr F.PORT_RAW_CODE p (wrapTo 32 code))
    let ks := m.dueRecords p b t
    let m := m.each ks (fun m k => m.recordAt k t code)
    let dr := w.rd F.SPL_BLK_DR_PERIOD blk
    m.iff ((dr == 0 || t % (50 * dr) == 0) && ks.any (fun k => w.flag F.SPL_REC_CTRL_EVT k) &&
        (m.dueEvt blk t).all (fun k => decide (t ≤ (m.sigRec k).time)))
      (fun m => m.raise (32 + 2 * blk))

/-! ### Load (R84) -/

/-- The sum of two fractions. -/
def addFrac (a b : Nat × Nat) : Nat × Nat :=
  let n := a.1 * b.2 + b.1 * a.2
  let d := a.2 * b.2
  let g := Nat.gcd n d
  if g = 0 then (n, d) else (n / g, d / g)

/-- The load of a block in records/s as a fraction, in effect or staged. -/
def Mod.load (m : Mod) (b : Nat) (st : Bool) : Nat × Nat :=
  let rd := fun (f : Fld) (i : Nat) => if st then m.staged' f i else m.rd f i
  if rd F.SPL_BLK_CTRL_ENABLE b = 0 then (0, 1)
  else (span (512 * b) 512).foldl (fun a k =>
    let src := rd F.SPL_REC_CTRL_SOURCE k
    let per := if src = 2 then rd F.SPL_PORT_CHB_PERIOD (k / 16) else rd F.SPL_PORT_CHA_PERIOD (k / 16)
    if src = 0 ∨ per = 0 then a else addFrac a (20000000, per)) (0, 1)

/-- A load in thousands of records/s, rounded up. -/
def loadK (l : Nat × Nat) : Nat := (l.1 + 1000 * l.2 - 1) / (1000 * l.2)

/-- The pipelines' check at prepare (R84): every block refused is shown. -/
def Mod.pipePrepare (m : Mod) : Mod × Bool :=
  let bad := (upTo 32).filter (fun b => let l := m.load b true; decide (l.1 > 8000000 * l.2))
  (m.each bad (fun m b => m.put F.SPL_BLK_STATUS_PREP_FAIL b true), bad.isEmpty)

/-! ### Commits (R72, R74, R78, R79, R88) -/

/-- The instances of a register not at their reset value. -/
def Mod.insts (m : Mod) (r : Reg) : List Nat :=
  m.regs.filterMap (fun e => if e.1 % 512 = r.ctorIdx then some (e.1 / 512) else none)

/-- A commit instant at a chain whose setting changed: its records settle (R72), which SETTLING shows. The settling that a change of range
or effective mode brings (R70) is shown by TRANSITION alone (DESIGN CHOICE, log entry 79: R102 does not say). -/
def Mod.chainCommit (m : Mod) (old : Mod) (p : Nat) (b : Bool) : Mod :=
  let r : Reg := if b then .SPL_PORT_CHB else .SPL_PORT_CHA
  if m.reg r p = old.reg r p then m
  else
    let m := { m with settleEnd := Tbl.set 0 m.settleEnd (p * 2 + b2n b) (m.now + m.chainSettle p b) }
    m.put (if b then F.SPL_PORT_STATUS_SETTLING_B else F.SPL_PORT_STATUS_SETTLING_A) p (m.chainSettle p b != 0)

/-- A commit instant at the pipelines, given the module before it. A record whose instant lies before the commit and that is written after it
counts as one since the commit, with RATE 0 on itself (DESIGN CHOICE, log entry 79: R79 does not say). -/
def Mod.pipesCommit (m : Mod) (old : Mod) : Mod :=
  let m := m.each (old.insts .SPL_PORT_CHA ++ m.insts .SPL_PORT_CHA) (fun m p => m.chainCommit old p false)
  let m := m.each (old.insts .SPL_PORT_CHB ++ m.insts .SPL_PORT_CHB) (fun m p => m.chainCommit old p true)
  let m := { m with recAux := m.recAux.map (fun (e : Nat × RecAux) => (e.1, { e.2 with sinceCommit := false })) }
  m.each (upTo 32) Mod.showNoCommit

/-- The records that lose their instants at a commit, `old` being the module before it: written once, with the move now in effect (R74, R81). -/
def Mod.recordsEnd (m old : Mod) : Mod :=
  m.each ((old.insts .SPL_REC_CTRL).filter (fun k => old.recLive k && !m.recLive k)) Mod.recordEnds

/-- The pipelines of region `g` at its restart, `old` being the module before it: its chains settle. -/
def Mod.pipesRestart (m old : Mod) (g : Nat) : Mod :=
  let m := m.each (regionPorts g) (fun m p => (m.chainCommit old p false).chainCommit old p true)
  m.each (span (8 * g) 8) Mod.showNoCommit

end Sys2Proof.Machine
end

