-- ==== Sys2Proof/Machine/ConfigBase.lean ====
section
/-!
DEFINITION. Sys2Proof/Machine/ConfigBase.lean: the configuration store up to the commit instant: staging, discards, the
lock, prepares and their answers, the choice of C, probation, take-backs, CFG_CMD (R362, R375 to R391, R408, R409).
-/
namespace Sys2Proof.Machine

/-! ### Parties (R378) -/

/-- The side-band, firmware and the store itself as originating parties; a pair is its number. -/
def partySideband : Nat := 4
def partyFirmware : Nat := 5
def partyAutomatic : Nat := 6

/-! ### Slots and the scoresheet (R375, R376, R378) -/

/-- A scoresheet entry; its move number counts as recorded, that of a refused staging too (R375). -/
def Mod.score (m : Mod) (move : Nat) (what : ScoreWhat) (party reason : Nat) : Mod :=
  { m with cfg := { m.cfg with scores := (⟨move, what, m.now, party, reason⟩ :: m.cfg.scores).take 256, highest := Nat.max m.cfg.highest move } }

/-- The party a lock's holder is: pair 0 to 3 by holder 1 to 4, the side-band by 5. -/
def holderParty (h : Nat) : Nat := if h = 5 then partySideband else if 1 ≤ h ∧ h ≤ 4 then h - 1 else partyAutomatic

/-- The party a write of CFG_CMD is for: the Sheepdog carries out the holder's commands. -/
def Mod.cmdParty (m : Mod) (master : Nat) : Nat :=
  if master = 32 ∧ m.lock.holder ≠ 0 then holderParty m.lock.holder else partyFirmware

/-- The code of an event in HISTORY. -/
def ScoreWhat.code : ScoreWhat → Nat
  | .staging => 0
  | .commit => 1
  | .probationEnd => 2
  | .takeback => 3
  | .discard => 4

/-- A scoresheet entry as its 32 bytes. -/
def Score.bytes (e : Score) : List Byte :=
  leBytes 4 e.move ++ leBytes 1 e.what.code ++ leBytes 1 e.party ++ leBytes 1 e.reason ++ leBytes 1 0 ++ leBytes 8 e.time ++
  List.replicate 16 0

/-- The image of a slot. -/
def Mod.image (m : Mod) (slot : Nat) : List Byte := Tbl.get [] m.cfg.images slot

/-- A slot's state. -/
def Mod.slotState (m : Mod) (slot : Nat) : Nat := m.rd F.CFG_SLOT_STATE_STATE slot

/-- The slot in a state, if one is. -/
def Mod.slotIn (m : Mod) (st : Nat) : Option Nat := (upTo 8).find? (fun n => m.slotState n == st)

/-- A slot emptied. -/
def Mod.slotClear (m : Mod) (slot : Nat) : Mod :=
  let m := (m.setReg .CFG_SLOT_STATE slot 0).setReg .CFG_SLOT_MOVE slot 0
  { m with cfg := { m.cfg with images := Tbl.erase m.cfg.images slot } }

/-- A history slot gives up its move: older moves are out of reach. -/
def Mod.slotFree (m : Mod) (slot : Nat) : Mod :=
  if m.cfg.history.contains slot then
    let older := (m.cfg.history.dropWhile (· != slot)).drop 1
    let m := m.each older (fun m n => m.wr F.CFG_SLOT_STATE_STATE n 6)
    ({ m with cfg := { m.cfg with history := m.cfg.history.takeWhile (· != slot) } }).slotClear slot
  else m.slotClear slot

/-- An image put into a slot as staged. -/
def Mod.slotFill (m : Mod) (slot move : Nat) (im : List Byte) (isLocal conv : Bool) : Mod :=
  let m := m.slotFree slot
  let m := ((m.wr F.CFG_SLOT_STATE_STATE slot 1).put F.CFG_SLOT_STATE_LOCAL slot isLocal).put F.CFG_SLOT_STATE_CONVERTED slot conv
  let m := m.wr F.CFG_SLOT_MOVE_MOVE slot move
  { m with cfg := { m.cfg with images := Tbl.put m.cfg.images slot im } }

/-- Take-back reach (R388). -/
def Mod.reachSlots (m : Mod) : List Nat := (m.cfg.history.takeWhile (fun n => m.codeMatches (m.image n))).take 7

/-! ### Direct values (R380) -/

/-- Whether direct values differ from those in effect. -/
def Mod.delta (m : Mod) : Bool := !m.stageImage && !(m.staged.isEmpty && m.fwdStage.isEmpty && m.vlanStage.isEmpty)

/-- Whether the staging view belongs to a commit in progress. -/
def Mod.viewBusy (m : Mod) : Bool :=
  match m.cfg.commit with
  | some c => c.kind = .image || c.kind = .direct
  | none => false

/-- Direct values discarded, unless they are being committed. -/
def Mod.dropDirect (m : Mod) (party : Nat) : Mod :=
  if m.stageImage || m.viewBusy then m else (m.iff m.delta (fun m => m.score 0 .discard party 0)).unstage

/-! ### Refusals (R389) -/

/-- A refused staging, prepare or commit shown. -/
def Mod.cfgReason (m : Mod) (reason : Nat) : Mod := m.wr F.CFG_STATUS_REASON 0 reason

/-- A refused prepare, commit or take-back. -/
def Mod.cfgRefused (m : Mod) (move : Nat) (what : ScoreWhat) (party reason : Nat) : Mod :=
  ((m.put F.CFG_STATUS_REFUSED 0 true).cfgReason reason).score move what party reason

/-- A refused staging recorded (R378). -/
def Mod.stageRefused (m : Mod) (move party reason : Nat) : Mod := m.score move .staging party reason

/-! ### The Rook's verdict on an image (R409, R410) -/

/-- Why the Rook refuses an item, 0 if it does not: its signature over the digest, then its security version. -/
def Mod.rookReason (m : Mod) (min : Fld) (v : Verdict) (digestOk : Bool) : Nat :=
  if !v.sigOk || !digestOk then 1 else if v.version.toNat < m.rd min then 2 else 0

/-- A refusal shown (R415). -/
def Mod.rookRefuse (m : Mod) (reason : Nat) : Mod :=
  ((m.put F.ROOK_ALERT_VERIFY_FAIL 0 true).wr F.ROOK_ALERT_REASON 0 reason).raise 246

/-- An accepted item raises its minimum. -/
def Mod.rookAccept (m : Mod) (min : Fld) (v : Verdict) : Mod := m.wr min 0 (Nat.max (m.rd min) (Nat.min 63 v.version.toNat))

/-- The Rook's verdict on a configuration image: the refusal reason, 0 for none. The signed digest is the image's, and, of an image held as it
was built, that of its bytes. -/
def Mod.rookConfig (m : Mod) (im : List Byte) (built : Bool) (v : Verdict) : Mod × Nat :=
  let r := if m.rook.life ≠ .owned then 3
    else m.rookReason F.ROOK_SVN_CONFIG v (v.digest.toNat == imgDigest im && (!built || imgDigestOk im))
  if r = 0 then (m.rookAccept F.ROOK_SVN_CONFIG v, 0) else (m.rookRefuse r, r)

/-! ### Staging (R374 to R377, R379) -/

/-- The peer a twin primary's configuration goes to as well (R425). -/
def Mod.twinPeer (m : Mod) : Option Nat :=
  if m.rd F.TWIN_STATUS_ROLE == 1 && m.flag F.TWIN_STATUS_PEER_PRES && m.flag F.TWIN_STATUS_LINK_UP then some (m.node ^^^ 1) else none

/-- The standby that a twin primary's prepares wait for, whether or not the twin link is up (R425). -/
def Mod.twinStandby (m : Mod) : Option Nat :=
  if m.rd F.TWIN_STATUS_ROLE == 1 && m.flag F.CAR_STATUS_TWIN && m.flag F.TWIN_STATUS_PEER_PRES then some (m.node ^^^ 1) else none

/-- Whether a node ID is this module's, or its pair's: naming either of a pair names both (R425). -/
def Mod.isOurs (m : Mod) (n : Nat) : Bool := n == m.node || (m.flag F.CAR_STATUS_TWIN && n == m.node ^^^ 1)

/-- The other members that a FEDERATED image names. -/
def Mod.named (m : Mod) (im : List Byte) : List Nat :=
  (if imgFederated im then (imgMembers im).filter (fun n => !m.isOurs n) else []).eraseDups

/-- The other members an image is staged on: those it names, and a twin's standby that the link reaches. -/
def Mod.others (m : Mod) (im : List Byte) : List Nat := m.named im ++ m.twinPeer.toList

/-- The other members that prepare a move: those its image names, and a twin's standby. -/
def Mod.parties (m : Mod) (im : List Byte) : List Nat := m.named im ++ m.twinStandby.toList

/-- Whether a member runs v1 (R377). -/
def Mod.nodeV1 (m : Mod) (n : Nat) : Bool := m.fed.v1s.contains n

/-- Whether what is sent to a node leaves: a twin's other module is reached by the twin link alone. -/
def Mod.reaches (m : Mod) (n : Nat) : Bool := !(m.flag F.CAR_STATUS_TWIN && n == m.node ^^^ 1) || m.flag F.TWIN_STATUS_LINK_UP

/-- What leaves to other configuration stores. -/
def Mod.tellAll (m : Mod) (l : List Nat) (x : StoreMsg) : Mod := m.each (l.filter m.reaches) (fun m n => m.emit (.federate (some n) x))

/-- The staged image gone from its slot and from the staging view; members are told by the originator. -/
def Mod.discardImage (m : Mod) (party : Nat) : Mod :=
  if m.rd F.CFG_MOVE_STAGED_MOVE = 0 then m
  else match m.slotIn 1 with
    | none => m
    | some slot =>
      let im := m.image slot
      let others := if m.cfg.ownStage then (m.others im).filter (fun n => !m.nodeV1 n) else m.twinPeer.toList
      let m := m.tellAll others .discard
      let waiting := !m.cfg.staging.isEmpty
      let m := m.score (m.rd F.CFG_MOVE_STAGED_MOVE) .discard party 0
      let m := (((m.slotClear slot).put F.CFG_STATUS_STAGED 0 false).wr F.CFG_MOVE_STAGED_MOVE 0 0).unstage
      let m := { m with cfg := { m.cfg with staging := [], stagingRefused := none, ownStage := false } }
      m.iff waiting (fun m => m.finishLong 0x0112 (answer stABORTED 0))

/-- An image staged into a slot: the status and detail of a refusal, none when staged. The verdict is the Rook's, which checks the digest of a
schema 3 image over its bytes before conversion (R379). -/
def Mod.stageOwn (m : Mod) (im : List Byte) (slot : Nat) (v : Verdict) (party : Nat) : Mod × Option (Nat × Nat) :=
  let st := m.slotState slot
  let inUse := match m.cfg.commit with
    | some c => c.slot == slot
    | none => false
  let refuse := fun (m : Mod) (r : Nat) => ((m.cfgReason r).stageRefused (imgMove im) party r, some (stCONFIG, r))
  if (1 ≤ st && st ≤ 3) || inUse || m.viewBusy || m.twin.loss.isSome then refuse (m.dropDirect party) 0x0C
  else
    let m := if m.stageImage then m.discardImage party else m.dropDirect party
    let schema := imgN im 4 2
    if (schema ≠ 3 ∧ !imgOk im) ∨ (schema = 3 ∧ imgN im 0 4 ≠ 0x49435642) then refuse m 0x0F
    else match m.rookConfig im (schema == 3) v with
      | (m, r + 1) => (m.stageRefused (imgMove im) party (r + 1), some (stVERIFY, r + 1))
      | (m, 0) =>
        let native := if schema = 3 then (convert3 im).bind (fun x => if imgShape x then some x else none) else some im
        match native with
        | none => refuse m 0x0E
        | some x =>
          let move := imgMove x
          if move ≤ m.cfg.highest then refuse m 0x0D
          else
            let m := m.slotFill slot move x false (schema == 3)
            let m := (m.put F.CFG_STATUS_STAGED 0 true).wr F.CFG_MOVE_STAGED_MOVE 0 move
            (((m.stageValues x).each (imgReserved x) (fun m off => m.reservedWrite off 32)).score move .staging party 0, none)

/-- An image staged at the originator: it goes to every other member, whose answers are awaited. -/
def Mod.stageEverywhere (m : Mod) (im : List Byte) (slot : Nat) (v : Verdict) (party : Nat) : Mod × Option (Nat × Nat) :=
  match m.stageOwn im slot v party with
  | (m, some e) => (m, some e)
  | (m, none) =>
    let l := (m.others (m.image slot)).filter (fun n => !m.nodeV1 n)
    (({ m with cfg := { m.cfg with staging := l, stagingRefused := none, ownStage := true } }).tellAll l (.image slot im), none)

/-- The staging ends at the originator once every member has answered. -/
def Mod.stagingSettle (m : Mod) : Mod :=
  if !m.cfg.staging.isEmpty then m
  else match m.cfg.stagingRefused with
    | none => m.finishLong 0x0112 { results := leBytes 4 (m.rd F.CFG_MOVE_STAGED_MOVE) }
    | some n =>
      let m := ((m.cfgReason 0x09).stageRefused (m.rd F.CFG_MOVE_STAGED_MOVE) (holderParty m.lock.holder) 0x09).discardImage partyAutomatic
      m.finishLong 0x0112 (answer stCONFIG (0x09 + n * 256))

/-- A member's staging answer. -/
def Mod.stagingAnswer (m : Mod) (node : Nat) (ok : Bool) : Mod :=
  if !m.cfg.staging.contains node then m
  else
    let refused := if m.cfg.stagingRefused.isNone && !ok then some node else m.cfg.stagingRefused
    ({ m with cfg := { m.cfg with staging := m.cfg.staging.erase node, stagingRefused := refused } }).stagingSettle

/-! ### The lock (R362, R380, R388) -/

/-- The lock in another party's hands: direct values go unless they are being committed, and an image staged
under a released lock goes unless its commit was accepted. -/
def Mod.setLock (m : Mod) (l : Lock) (keepImage : Bool := false) : Mod :=
  let old := m.lock.holder
  let m := { m with lock := l }
  if l.holder = old then m
  else
    let m := (m.wr F.MBX_LOCK_HOLDER 0 l.holder).msix 5
    let m := m.dropDirect (holderParty (if l.holder = 0 then old else l.holder))
    let m := m.iff (l.holder == 0 && m.stageImage && !m.viewBusy && !keepImage) (fun m => m.discardImage (holderParty old))
    m.iff (old == 5 || l.holder == 5) (fun m => m.raise 249)

/-- The lock released. -/
def Mod.freeLock (m : Mod) (keepImage : Bool := false) : Mod := m.setLock {} keepImage

/-- A federation hold released; the image goes with it unless it is kept or committed (R377). -/
def Mod.endHold (m : Mod) (keepImage : Bool) : Mod :=
  if m.lock.holder = 6 then ({ m with cfg := { m.cfg with fedHold := none } }).freeLock keepImage else m

/-- The hold taken for a staged image ends where that image's commit is refused; any other move's leaves it (R377). -/
def Mod.endHoldOf (m : Mod) (move : Nat) : Mod := m.iff (m.rd F.CFG_MOVE_STAGED_MOVE == move) (fun m => m.endHold true)

/-- Whether a kind of commit is that of the staged image, with which a federation hold ends (R377). -/
def CommitKind.isImage (k : CommitKind) : Bool := k == .image

/-! ### Prepare (R381, R383) -/

/-- Whether an entry of a GATE section differs from a locked entry. -/
def Mod.gateLocked (m : Mod) (e : GateItem) : Bool := m.flag F.GATE_ENT_CTRL_LOCK (entIx e.gate e.entry)

def Mod.gateSame (m : Mod) (e : GateItem) : Bool :=
  let i := entIx e.gate e.entry
  let cls := if bitsOf e.ctrl 8 2 = 3 then m.rd F.GATE_ENT_CTRL_CLASS i else bitsOf e.ctrl 8 2
  let want := withBits (withBits (bitsOf e.ctrl 0 24) 8 2 cls) 10 1 (b2n (bitAt e.ctrl 0 && cls != 0))
  m.reg .GATE_ENT_BASE i == e.base && m.reg .GATE_ENT_TOP i == e.top && m.reg .GATE_ENT_MASTERS i == e.masters &&
    m.reg .GATE_ENT_CTRL i == want

/-- The code store sectors that the settled move and the move on probation name. -/
def Mod.codeInUse (m : Mod) : List (Nat × Nat) :=
  ((m.slotIn 3).toList ++ (m.slotIn 2).toList).flatMap (fun n => (imgCode (m.image n)).map (fun s => (s.1, s.2.1)))

/-- Code store sectors programmed. -/
def Mod.program (m : Mod) (l : List (Nat × Nat × List Byte)) : Mod :=
  m.each l (fun m s => (m.csErased s.1 s.2.1).setBytes (codeBase s.1 + 0x10000 * s.2.1) s.2.2)

/-- Calibration sections copied to the inactive banks. -/
def Mod.copyCal (m : Mod) (im : List Byte) : Mod :=
  m.each (imgCal im) (fun m c => m.setBytes (signalBase c.1 + 0x1C0000 + 0x20000 * (1 - m.rd F.SPL_RGN_CAL_BANK c.1)) c.2)

/-- Every block's check of its staged values, the lowest reason of those that refuse; 0 when none does. -/
def Mod.checkStaged (m : Mod) (gates : List GateItem) : Mod × Nat :=
  let (m, pipes) := m.pipePrepare
  let (m, clocks) := m.clkPrepare
  let (m, cache) := m.waysPrepare
  let (m, mesh) := m.meshPrepare
  let locked := gates.any (fun e => m.gateLocked e && !m.gateSame e)
  (m, if !pipes then 1 else if !clocks then 2 else if !cache then 3 else if !mesh then 4 else if locked then 6 else 0)

/-- The prepare of a commit in progress: 0 ready, else its reason. A take-back programs what does not match (R388, R427), but for one whose C
comes in a loss response, in which no code store operation starts (R435). -/
def Mod.prepare (m : Mod) (c : Commit) : Mod × Nat :=
  let im := m.image c.slot
  match c.kind with
  | .direct => m.checkStaged (match m.slotIn 3 with
    | some n => imgGates (m.image n)
    | none => [])
  | .image =>
    let used := m.codeInUse
    let clash := (imgCode im).any (fun s => used.contains (s.1, s.2.1))
    let m := (m.iff (!clash) (fun m => m.program (imgCode im))).copyCal im
    let (m, r) := (m.stageBanks im).checkStaged (imgGates im)
    (m, if r = 0 ∨ (clash ∧ r > 5) then (if clash then 5 else 0) else r)
  | _ =>
    let m := m.iff m.twin.loss.isNone (fun m =>
      m.program ((imgCode im).filter (fun s => m.bytes (codeBase s.1 + 0x10000 * s.2.1) 0x10000 != s.2.2)))
    let v := m.view
    let (m, r) := (((m.copyCal im).stageValues im).stageBanks im).checkStaged (imgGates im)
    (m.setView v, if c.kind = .manual then r else 0)

/-! ### Commits and take-backs in progress (R382, R384, R387, R388, R391) -/

def Mod.setCommit (m : Mod) (c : Option Commit) : Mod := { m with cfg := { m.cfg with commit := c } }

/-- The opcode whose command a kind of commit ends (R365). -/
def CommitKind.opcode : CommitKind → Nat
  | .image => 0x0113
  | .manual => 0x0115
  | _ => 0

/-- What the scoresheet calls a kind of commit. -/
def CommitKind.what : CommitKind → ScoreWhat
  | .image => .commit
  | .direct => .commit
  | _ => .takeback

/-- A commit begins at its originator: PREPARE to every other member. -/
def Mod.commitBegin (m : Mod) (kind : CommitKind) (move digest slot : Nat) (passed : List Nat) (named party : Nat)
    (others : List Nat) (at_ : Option Nat) : Mod :=
  let m := m.setCommit (some { kind := kind, move := move, digest := digest, slot := slot, passed := passed, named := named, origin := true, party := party, waiting := others, members := others, own := none, refusal := none, at_ := at_, late := false, since := m.mono })
  let m := (m.put F.CFG_STATUS_PREPARED 0 false).tellAll others (.prepare move digest)
  match at_ with
  | some c => (m.tellAll others (.commit c)).put F.CFG_STATUS_COMMIT_PENDING 0 true
  | none => m

/-- A commit or take-back does not take place: the staged image's own values are staged again, without the banks of its prepare; a LOCAL slot
is emptied again. -/
def Mod.commitEnd (m : Mod) (c : Commit) : Mod :=
  let m := ((m.setCommit none).put F.CFG_STATUS_PREPARED 0 false).put F.CFG_STATUS_COMMIT_PENDING 0 false
  let m := m.iff (c.kind = .image && m.slotState c.slot == 1) (fun m => m.stageValues (m.image c.slot))
  m.iff (c.kind = .direct && decide (c.slot < 8)) (fun m => m.slotClear c.slot)

/-- A refusal at the originator: ABORT to the others, the reason shown and recorded, the command ended. -/
def Mod.commitRefuse (m : Mod) (c : Commit) (reason node : Nat) : Mod :=
  let m := (m.tellAll c.members .abort).commitEnd c
  let m := m.cfgRefused c.move c.kind.what c.party reason
  m.finishLong c.kind.opcode (answer stCONFIG (if reason = 9 then 9 + node * 256 else reason))

/-- The slot of a LOCAL move (R391). -/
def Mod.localSlot (m : Mod) : Nat :=
  match (m.slotIn 0) with
  | some n => n
  | none =>
    match (upTo 8).find? (fun n => m.slotState n == 5 || m.slotState n == 6 || m.slotState n == 7) with
    | some n => n
    | none => m.cfg.history.getLast?.getD 8

/-- t3 of R382: with every answer in, the originator chooses C or refuses; a member answers its originator. No member refuses an automatic
take-back (R387). -/
def Mod.commitDecide (m : Mod) : Mod :=
  match m.cfg.commit with
  | none => m
  | some c =>
    if c.own.isNone || !c.waiting.isEmpty || c.at_.isSome then m
    else if !c.origin then
      match (if c.kind = .automatic then none else c.refusal) with
      | some (r, _) =>
        let m := ((m.tellAll c.members .abort).emit (.federate none (.answer r))).commitEnd c
        (m.cfgRefused c.move c.kind.what c.party r).iff c.kind.isImage (fun m => m.endHold true)
      | none => (m.put F.CFG_STATUS_PREPARED 0 true).emit (.federate none (.answer 0))
    else match c.refusal with
      | some (r, n) => m.commitRefuse c r n
      | none =>
        if c.named ≠ 0 ∧ c.named < m.now + 10000000 then m.commitRefuse c 0x08 0
        else
          let at_ := nextMultiple 100000 (if c.named = 0 then m.now + 10000000 else c.named)
          let m := m.setCommit (some { c with at_ := some at_ })
          (m.tellAll c.members (.commit at_)).put F.CFG_STATUS_COMMIT_PENDING 0 true

/-- The image that holds a LOCAL move's slot at the end of an accepted prepare (R391). -/
def Mod.localWrite (m : Mod) (c : Commit) : Mod × Commit :=
  let slot := m.localSlot
  let im := m.localImage c.move ((m.slotIn 3).map m.image)
  (m.slotFill slot c.move im true false, { c with slot := slot, digest := imgDigest im })

/-- A module's own prepare ends (t2 of R382). -/
def Mod.prepareDone (m : Mod) : Mod :=
  match m.cfg.commit with
  | none => m
  | some c =>
    if c.own.isSome || m.twin.loss.isSome then m
    else
      let (m, r) := m.prepare c
      let (m, c) := if r = 0 ∧ c.kind = .direct then m.localWrite c else (m, c)
      let c := { c with own := some r, refusal := if r ≠ 0 && c.refusal.isNone then some (r, m.node) else c.refusal }
      (m.setCommit (some c)).commitDecide

/-- An answer, or the silence that stands for one, reaches the originator, or a twin primary from its standby (R382, R425). -/
def Mod.memberAnswer (m : Mod) (node reason : Nat) : Mod :=
  match m.cfg.commit with
  | none => m
  | some c =>
    if !c.waiting.contains node then m
    else
      let shown := if reason = 0x0A ∨ reason = 0x0B then reason else 9
      let c := { c with waiting := c.waiting.erase node, refusal := if reason ≠ 0 && c.refusal.isNone then some (shown, node) else c.refusal }
      (m.setCommit (some c)).commitDecide

/-- The slots a manual take-back to a history slot passes over, the settled one first (R388). -/
def Mod.passedTo (m : Mod) (slot : Nat) : List Nat := (m.slotIn 3).toList ++ m.cfg.history.takeWhile (· != slot)

/-- A PREPARE reaches a member (R382, R384): what it commits is the staged image or a history move; anything else differs. A member on the
probation of another's move takes that of a lower move, which no image staged since has, as its automatic take-back, and one for move 0 can only
be one: no member refuses it (R387; DEDUCED, log entry 28, as PREPARE does not tell). -/
def Mod.prepareArrives (m : Mod) (move digest : Nat) : Mod :=
  let answer := fun (m : Mod) (r : Nat) => m.emit (.federate none (.answer r))
  let is := fun (n : Nat) => m.rd F.CFG_SLOT_MOVE_MOVE n == move && imgDigest (m.image n) == digest
  let take := fun (m : Mod) (kind : CommitKind) (slot : Nat) (passed : List Nat) =>
    let peer := m.twinStandby.toList
    let m := m.setCommit (some { kind := kind, move := move, digest := digest, slot := slot, passed := passed, named := 0, origin := false, party := partyAutomatic, waiting := peer, members := peer, own := none, refusal := none, at_ := none, late := false, since := m.mono })
    (m.iff kind.isImage (fun m => { m with cfg := { m.cfg with fedHold := none } })).tellAll peer (.prepare move digest)
  if m.twin.loss.isSome then m
  else if m.committing then
    match m.cfg.commit with
    | some c => if c.move = move ∧ c.digest = digest then m else (answer m 0x0A).endHoldOf move
    | none => m
  else
    let other := (((m.slotIn 1).filter is).map (fun n => (CommitKind.image, n, ([] : List Nat)))).orElse (fun _ =>
      (m.reachSlots.find? is).map (fun n => (CommitKind.manual, n, m.passedTo n)))
    match m.cfg.probation with
    | some p =>
      if !p.origin && decide (move < p.move) then take m .automatic ((m.slotIn 3).getD 8) []
      else (answer (m.cfgRefused move .commit partyAutomatic 0x07) 0x07).endHoldOf move
    | none => match other with
      | some (kind, n, passed) => take m kind n passed
      | none => if move = 0 then take m .automatic 8 (m.slotIn 3).toList else (answer m 0x0B).endHoldOf move

/-- COMMIT(C) reaches a member (R384): one that comes after C − 1,000 ns is late. One that does not wait for the member's answer is that of an
automatic take-back, of a move that this member has settled (R387). -/
def Mod.commitArrives (m : Mod) (at_ : Nat) : Mod :=
  match m.cfg.commit with
  | none => m
  | some c =>
    let early := c.kind = .manual && (c.own.isNone || !c.waiting.isEmpty)
    let c := if early then { c with kind := .automatic } else c
    if c.origin || c.at_.isSome || (c.own != some 0 && c.kind != .automatic) then m
    else
      let late := decide (m.now + 1000 > at_)
      let at' := if late then nextMultiple 100000 (m.now + 1) else at_
      let m := m.setCommit (some { c with at_ := some at', late := late })
      ((m.tellAll c.members (.commit at')).put F.CFG_STATUS_PREPARED 0 false).put F.CFG_STATUS_COMMIT_PENDING 0 true

/-- ABORT reaches a member: the image stays staged, a federation hold ends. -/
def Mod.abortArrives (m : Mod) : Mod :=
  match m.cfg.commit with
  | none => m
  | some c => if c.origin || c.at_.isSome then m else ((m.tellAll c.members .abort).commitEnd c).iff c.kind.isImage (fun m => m.endHold true)

/-- A prepared member that hears nothing for 90 s (R384). -/
def Mod.orphan (m : Mod) : Mod :=
  match m.cfg.commit with
  | none => m
  | some c =>
    if c.origin || c.at_.isSome || c.own != some 0 then m
    else ((m.commitEnd c).put F.CFG_STATUS_ORPHAN 0 true).endHold true

/-! ### The commands (R382, R384, R386, R388, R391) -/

/-- Why a commit or manual take-back is refused at once, 0 if it is not. -/
def Mod.commitBar (m : Mod) : Nat := if m.committing then 0x11 else if m.cfg.probation.isSome then 0x07 else 0

/-- A commit of the staged image asked for: whether it was accepted, else the reason. -/
def Mod.commitImage (m : Mod) (slot named party : Nat) : Mod × Nat :=
  let move := m.rd F.CFG_MOVE_STAGED_MOVE
  match m.commitBar with
  | 0 => (m.commitBegin .image move (imgDigest (m.image slot)) slot [] named party (m.parties (m.image slot)) none, 0)
  | r => (m.cfgRefused move .commit party r, r)

/-- The direct values' commit (CFG_CMD OP 1). A twin's standby has no direct values of its own: it takes no part. -/
def Mod.commitDirect (m : Mod) (party : Nat) : Mod :=
  if !m.delta then m
  else
    let move := m.cfg.highest + 1
    match m.commitBar with
    | 0 => m.commitBegin .direct move 0 8 [] (m.rd F.CFG_COMMIT_AT_TIME) party [] none
    | r => m.cfgRefused move .commit party r

/-- A manual take-back of `n` moves asked for: 0 if accepted, else the reason. -/
def Mod.takeBack (m : Mod) (n party : Nat) : Mod × Nat :=
  let reach := m.reachSlots
  let r := if m.commitBar ≠ 0 then m.commitBar else if n > reach.length then 0x10 else 0
  let from_ := m.rd F.CFG_MOVE_SETTLED_MOVE
  if r ≠ 0 then (m.cfgRefused from_ .takeback party r, r)
  else
    let slot := reach.getD (n - 1) 0
    let others := ((m.passedTo slot).flatMap (fun s => m.named (m.image s)) ++ m.twinStandby.toList).eraseDups
    (m.commitBegin .manual (m.rd F.CFG_SLOT_MOVE_MOVE slot) (imgDigest (m.image slot)) slot (m.passedTo slot) 0 party others none, 0)

/-- An automatic take-back to a slot begins at the originator (R387), 10 ms ahead. With no move settled before, the ST fields return to reset;
slot 8 stands for that. -/
def Mod.takeBackAuto (m : Mod) (slot move : Nat) (passed members : List Nat) : Mod :=
  m.commitBegin .automatic move (imgDigest (m.image slot)) slot passed 0 partyAutomatic members (some (nextMultiple 100000 (m.now + 10000000)))

/-- That of the move on probation, for the settled one. -/
def Mod.probBack (m : Mod) (p : Probation) (party : Nat) : Mod :=
  (m.probFail.score p.move .probationEnd party 0).takeBackAuto ((m.slotIn 3).getD 8) (m.rd F.CFG_MOVE_SETTLED_MOVE) [] p.members

/-- A member asks its originator, and a standby its primary, to take back (R387), once. -/
def Mod.askTakeBack (m : Mod) (p : Probation) : Mod :=
  if p.asked then m
  else
    let m := m.score p.move .probationEnd p.party 0
    ({ m with cfg := { m.cfg with probation := some { p with failed := true, asked := true } } }).emit (.federate none (.takeback p.move))

/-- Where the move settled before the federated one, which this originator has settled too, still is: its slot, 8 for none (R376, R387). -/
def Mod.backSlot (m : Mod) (n : Nat) : Option (Probation × Nat) :=
  match m.cfg.settledFed with
  | some (p, k) =>
    if p.members.contains n && m.rd F.CFG_MOVE_SETTLED_MOVE == p.move && (k == 8 || m.cfg.history.head? == some k) then some (p, k) else none
  | none => none

/-- A failed probation's request (R387): at the originator take-back begins, also of a move that it has settled before a member's failure; a
member asks its originator, for itself and for its standby. -/
def Mod.takeBackRequest (m : Mod) (member : Option Nat) : Mod :=
  if m.committing || m.twin.loss.isSome then m
  else match m.cfg.probation, member with
    | some p, some n => if !p.members.contains n then m else if p.origin then m.probBack p partyAutomatic else m.askTakeBack p
    | some p, none => if !m.probFailed then m else if p.origin then m.probBack p p.party else m.askTakeBack p
    | none, some n => match m.backSlot n with
      | some (p, k) => m.takeBackAuto k (if k < 8 then m.rd F.CFG_SLOT_MOVE_MOVE k else 0) [p.slot] p.members
      | none => m
    | none, none => m

/-- A move settles (R386): the settled move before it becomes history. -/
def Mod.settleMove (m : Mod) (move slot : Nat) : Mod :=
  let m := match m.slotIn 3 with
    | some old => { m.wr F.CFG_SLOT_STATE_STATE old 4 with cfg := { (m.wr F.CFG_SLOT_STATE_STATE old 4).cfg with history := old :: m.cfg.history } }
    | none => m
  let m := (m.wr F.CFG_SLOT_STATE_STATE slot 3).put F.CFG_STATUS_SETTLED 0 true
  { (m.wr F.CFG_MOVE_SETTLED_MOVE 0 move).raise 239 with cfg := { ((m.wr F.CFG_MOVE_SETTLED_MOVE 0 move).raise 239).cfg with settledFed := none } }

/-- Nothing is on probation any more. -/
def Mod.probClear (m : Mod) : Mod :=
  let m := ((m.put F.CFG_STATUS_PROBATION 0 false).wr F.CFG_MOVE_PROB_MOVE 0 0).wr F.CFG_PROB_END_TIME 0 0
  { m with cfg := { m.cfg with probation := none } }

/-- A probation ends with success; the originator keeps who its members were, whose own may still fail (R387). -/
def Mod.probSettle (m : Mod) (p : Probation) (party : Nat) : Mod :=
  let prev := (m.slotIn 3).getD 8
  let m := (m.probClear.score p.move .probationEnd party 0).settleMove p.move p.slot
  m.iff (p.origin && !p.members.isEmpty) (fun m => { m with cfg := { m.cfg with settledFed := some (p, prev) } })

/-- ACCEPT (R386). -/
def Mod.accept (m : Mod) (party : Nat) : Mod :=
  match m.cfg.probation with
  | none => m
  | some p => if m.probFailed || m.committing then m else m.probSettle p party

/-- REJECT (R386). -/
def Mod.reject (m : Mod) (party : Nat) : Mod :=
  match m.cfg.probation with
  | none => m
  | some p => if m.probFailed then m else { m with cfg := { m.cfg with probation := some { p with failed := true, party := party } } }

/-- C + PROB_MS arrives (R386). -/
def Mod.probEnd (m : Mod) : Mod :=
  match m.cfg.probation with
  | none => m
  | some p =>
    let m := m.toNow p.ends
    if m.probFailed || m.committing then m
    else if bitAt p.flags 1 then m.probFail
    else m.probSettle p partyAutomatic

/-- A discard: the staged image and direct values (CFG_CMD OP 2, IMG_DISCARD). -/
def Mod.discard (m : Mod) (party : Nat) : Mod :=
  if m.viewBusy then m else if m.stageImage then m.discardImage party else m.dropDirect party

/-- A write of CFG_CMD (R388, R390, R391); only the Sheepdog's acts while the lock is held. A standby's does nothing (R425), nor one in a loss of
power (R435). -/
def Mod.cfgCmd (m : Mod) (master op moves : Nat) : Mod :=
  let party := m.cmdParty master
  if master ≠ 32 ∧ m.rd F.MBX_LOCK_HOLDER ≠ 0 then m.put F.CFG_STATUS_CMD_REFUSED 0 true
  else if m.isStandby || m.twin.loss.isSome then m
  else match op with
    | 1 => m.commitDirect party
    | 2 => m.discard party
    | 3 => m.accept party
    | 4 => m.reject party
    | 5 => if moves = 0 then m.reservedWrite (Reg.place .CFG_CMD).off master else (m.takeBack moves party).1
    | _ => m

/-- The firmware slot that runs, and the other (R367). -/
def Mod.fwRuns (m : Mod) : FwSlot := if m.runB then m.fwB else m.fwA
def Mod.fwIdle (m : Mod) : FwSlot := if m.runB then m.fwA else m.fwB
def Mod.setFwRuns (m : Mod) (x : FwSlot) : Mod := if m.runB then { m with fwB := x } else { m with fwA := x }
def Mod.setFwIdle (m : Mod) (x : FwSlot) : Mod := if m.runB then { m with fwA := x } else { m with fwB := x }

/-! ### Evidence (R412) -/

/-- Fresh evidence over a nonce: the statement, then its signature, a free value. -/
def Mod.evidence (m : Mod) (nonce : Nat) : Mod × List Byte :=
  let (k, m) := m.fresh
  let digest := match m.slotIn 3 with
    | some n => imgDigest (m.image n)
    | none => 0
  let owner := (upTo 8).flatMap (fun n => leBytes 4 (m.rd F.ROOK_OWNER_DIGEST n))
  (m, leBytes 32 nonce ++ leBytes 8 m.now ++ leBytes 4 (lifeCode m.rook.life) ++ owner ++ leBytes 32 m.rook.rookDigest ++ leBytes 4 m.rook.rookSvn ++
    leBytes 32 m.fwRuns.digest ++ leBytes 4 m.fwRuns.svn ++ leBytes 4 (m.rd F.CFG_MOVE_SETTLED_MOVE) ++ leBytes 32 digest ++
    leBytes 64 (Config.evidence k).toNat)

end Sys2Proof.Machine
end

