-- ==== Sys2Proof/Machine/FaultOps.lean ====
section
/-!
DEFINITION. Sys2Proof/Machine/FaultOps.lean: the meanings of the commands of fault containment (R438 to R457).
-/
namespace Sys2Proof.Machine

/-- An escalated fault that a count has made due (R441): a region's, from its cell or block faults, or the device's. -/
def Mod.escalation (m : Mod) (region : Option Nat) (blocks : Bool) : Mod :=
  match m.escDue.find? (fun e => e.1 == region && (region.isNone || e.2.1 == blocks)) with
  | none => m
  | some e =>
    let m := { m with escDue := m.escDue.erase e }
    match region with
    | some g => m.regionFault g 0x0B e.2.2
    | none => m.deviceFault 0x0B e.2.2

/-- ESCALATION (R441). -/
def execEscalation (region : Option RegionId) (blocks : Bool) (s : State) : Host.Outcome State Fault Refusal :=
  s.act (fun m => m.escalation (region.map Fin.val) blocks)

/-- RELEASE (R443). -/
def execRelease (_w : Writer) (g : RegionId) (s : State) : Host.Outcome State Fault Refusal := s.act (fun m => m.releaseRegion g)

/-- RELEASE_D (R444). -/
def execReleaseD (_w : Writer) (s : State) : Host.Outcome State Fault Refusal := s.act Mod.releaseDevice

/-- CORE_RESET (R449): FLT_RST kind 1. -/
def execCoreReset (w : Writer) (c : CoreId) (s : State) : Host.Outcome State Fault Refusal :=
  s.act (fun m => m.fltRst w 1 c)

/-- PORT_RESET (R449): FLT_RST kind 2. -/
def execPortReset (w : Writer) (p : PortId) (s : State) : Host.Outcome State Fault Refusal :=
  s.act (fun m => m.fltRst w 2 p)

/-- LANE_RESET (R449): FLT_RST kind 3. -/
def execLaneReset (w : Writer) (l : Fin 32) (s : State) : Host.Outcome State Fault Refusal :=
  s.act (fun m => m.fltRst w 3 l)

/-- SLICE_RESET (R449): FLT_RST kind 4. -/
def execSliceReset (w : Writer) (sl : SliceId) (s : State) : Host.Outcome State Fault Refusal :=
  s.act (fun m => m.fltRst w 4 sl)

/-- PIPELINE_RESET (R449): FLT_RST kind 5. -/
def execPipelineReset (w : Writer) (b : BlockId) (s : State) : Host.Outcome State Fault Refusal :=
  s.act (fun m => m.fltRst w 5 b)

/-- TRANSFER_CHANNEL_RESET (R449): FLT_RST kind 6. -/
def execTransferChannelReset (w : Writer) (n : ChanId) (s : State) : Host.Outcome State Fault Refusal :=
  s.act (fun m => m.fltRst w 6 n)

/-- CORE_BLOCK_RESET (R449): FLT_RST kind 7. -/
def execCoreBlockReset (w : Writer) (k : Fin 8) (s : State) : Host.Outcome State Fault Refusal :=
  s.act (fun m => m.fltRst w 7 k)

/-- PORT_BLOCK_RESET (R449): FLT_RST kind 8. -/
def execPortBlockReset (w : Writer) (b : BlockId) (s : State) : Host.Outcome State Fault Refusal :=
  s.act (fun m => m.fltRst w 8 b)

/-- LANE_GROUP_RESET (R449): FLT_RST kind 9. -/
def execLaneGroupReset (w : Writer) (lg : LgId) (s : State) : Host.Outcome State Fault Refusal :=
  s.act (fun m => m.fltRst w 9 lg)

/-- REGION_RESET (R451): FLT_RST kind 10, up to t3. -/
def execRegionReset (w : Writer) (g : RegionId) (s : State) : Host.Outcome State Fault Refusal :=
  s.act (fun m => m.fltRst w 10 g)

/-- DEVICE_RESET (R452): FLT_RST kind 11. -/
def execDeviceReset (w : Writer) (s : State) : Host.Outcome State Fault Refusal :=
  s.act (fun m => m.fltRst w 11 0)

/-- REGION_RESET_ZEROED (R451 t4). -/
def execRegionResetZeroed (g : RegionId) (s : State) : Host.Outcome State Fault Refusal :=
  s.act (fun m => m.iff (Tbl.get 0 m.rgnPhase g == 1) (fun m => m.regionZeroed g))

/-- AUTOMATIC_CELL_RESET (R450): a core halted in federated mode, 1 ms after its halt. -/
def execAutomaticCellReset (c : CoreId) (s : State) : Host.Outcome State Fault Refusal :=
  s.act (fun m =>
    let k := m.core c
    if m.federated && k.halted then (m.toMono (k.haltAt + 1000000)).requestReset 1 c 4 else m)

/-- FLT_Q_POP (R457): the head record removed; no effect when empty. -/
def execFltQPop (_w : Writer) (s : State) : Host.Outcome State Fault Refusal :=
  s.act (fun m => { m with fq := m.fq.drop 1 })

/-- The software sources raised (R453): bit j raises EV(252 + j). -/
def Mod.evrSw (m : Mod) (bits : Nat) : Mod := m.each (setBits 4 bits) (fun m j => m.raise (252 + j))

/-- EVR_SW (R453). -/
def execEvrSw (_w : Writer) (bits : BitVec 4) (s : State) : Host.Outcome State Fault Refusal := s.act (fun m => m.evrSw bits.toNat)

/-- SPINE_PARITY_ERROR (R439): a device fault with the failing unit's code. -/
def execSpineParityError (unit : BitVec 64) (s : State) : Host.Outcome State Fault Refusal :=
  s.act (fun m => m.deviceFault 0x0D unit.toNat)

end Sys2Proof.Machine
end

