-- ==== Sys2Proof/Machine/PipeOps.lean ====
section
/-!
DEFINITION. Sys2Proof/Machine/PipeOps.lean: the meanings of the commands of the sample pipelines and the output commit engines
(R71 to R93, R490).
-/
namespace Sys2Proof.Machine

/-- CHAIN_OUTPUT (R71, R73 to R83). -/
def execChainOutput (p : PortId) (chainB : Bool) (t : BitVec 64) (code : BitVec 32) (s : State) : Host.Outcome State Fault Refusal :=
  s.act (fun m => m.chainOutput p chainB t.toNat code.toInt)

/-- CHAIN_SETTLING_END (R72). -/
def execChainSettlingEnd (p : PortId) (chainB : Bool) (s : State) : Host.Outcome State Fault Refusal :=
  s.act (fun m =>
    let k := p * 2 + b2n chainB
    let m := m.toNow (Tbl.get 0 m.settleEnd k)
    m.put (if chainB then F.SPL_PORT_STATUS_SETTLING_B else F.SPL_PORT_STATUS_SETTLING_A) p false)

/-! ### Output commit (R86 to R92) -/

/-- The output record of a port. -/
def outRecord (p : Nat) : Nat := signalBase (portRegion p) + 0x20000 + (p % 256) * 0x20

/-- Whether a port's output record is pending (R87). -/
def Mod.outPending (m : Mod) (p : Nat) : Bool := m.num (outRecord p + 16) 2 != Tbl.get 0 m.outSeq p

/-- The result bits of an output status record (R86). -/
def rAPPLIED : Nat := 1
def rCLAMPED : Nat := 2
def rLATE : Nat := 4
def rREFUSED : Nat := 8
def rINVALID : Nat := 16
def rSAFEREQ : Nat := 32
def rOVERRIDDEN : Nat := 64

/-- A DAC code from an exact or infinite value for an effective mode: rounded half to even, clamped, and whether clamping
changed it. -/
def outCode (mode x : Nat) : Nat × Bool :=
  let hi : Int := if mode = 9 then 1 else 32767
  let z := (fmt64.toIntIn .near (-65536) 65536 0 x).1
  if z > hi then (hi.toNat, true) else if z < 0 then (0, true) else (z.toNat, false)

/-- What an output record asks for at a capture (R90, from the third case on): result bits, the code to drive. -/
def Mod.outAsk (m : Mod) (p value flags : Nat) : Nat × Option Nat :=
  let e := m.effMode p
  if !isOutMode e then (rREFUSED, none)
  else if bitAt flags 1 then (rSAFEREQ, none)
  else
    let x := if bitAt flags 0 then value else dAdd (dMul value (m.rd F.SPL_PORT_OGAIN_OGAIN p)) (m.rd F.SPL_PORT_OOFFSET_OOFFSET p)
    if fmt64.isNaN value || fmt64.isNaN x then (rINVALID, none)
    else
      let (c, cl) := outCode e x
      (rAPPLIED + (if cl then rCLAMPED else 0), some c)

/-- The capture for instant `t` at one port; `prev` is the block's commit instant before it. -/
def Mod.capturePort (m : Mod) (p t prev : Nat) : Mod :=
  let a := outRecord p
  let seq := m.num (a + 16) 2
  let target := m.num (a + 8) 8
  let q := m.port p
  if seq = Tbl.get 0 m.outSeq p ∨ (target ≠ 0 ∧ target > t) ∨ q.phase = .reconf ∨ q.phase = .check ∨ m.outBarred p then m
  else
    let value := m.num a 8
    let (r, code) := m.outAsk p value (m.num (a + 18) 2)
    let late := target ≠ 0 ∧ prev ≥ target
    let r := if late then r + rLATE else r
    let m := { m with outSeq := Tbl.set 0 m.outSeq p seq }
    let g := portRegion p
    let m := m.iff (bitAt r 2) (fun m => m.count F.SPL_RGN_OUT_LATE_COUNT g)
    let m := m.iff (bitAt r 3 || bitAt r 4) (fun m => m.count F.SPL_RGN_OUT_REFUSED_COUNT g)
    m.setCapture p (some ⟨t, m.mono, code, bitAt r 5, BitVec.ofNat 64 value, BitVec.ofNat 16 seq, r, false, false, false⟩)

/-- Whether a block has commit instant `t` (R88), not yet captured (R109). -/
def Mod.commitsAt (m : Mod) (b t : Nat) : Bool :=
  let sl := m.rd F.SPL_BLK_CTRL_CSLOT b
  let P := m.slotPeriod sl t
  m.phase.full && m.flag F.SPL_BLK_CTRL_COMMIT_EN b && P != 0 && t % P == 0 && !m.skipped t && decide (Tbl.get 0 m.lastCapture b < t) &&
  !m.rgnDown (blockRegion b) && m.domOn (40 + blockRegion b)

/-- t0 of R89: the capture for `t`, 1,000 ns before it. -/
def Mod.captureBlock (m : Mod) (b t : Nat) : Mod :=
  if !m.commitsAt b t then m
  else
    let m := m.toNow (t - 1000)
    let prev := Tbl.get 0 m.lastCapture b
    let m := { m with lastCapture := Tbl.set 0 m.lastCapture b t }
    m.each (blockPorts b) (fun m p => m.capturePort p t prev)

/-- COMMIT_CAPTURE (R89, R90). -/
def execCommitCapture (b : BlockId) (t : BitVec 64) (s : State) : Host.Outcome State Fault Refusal := s.act (fun m => m.captureBlock b t.toNat)

/-- A captured record at its instant: driven, its PORT_SAFE action applied, or overridden (R90, R490). -/
def Mod.applyPort (m : Mod) (p : Nat) (c : Captured) : Mod :=
  let m := if c.overridden then m
    else match c.code with
      | some k =>
        let m := m.drive p k
        m.setPort p { m.port p with committed := true }
      | none => if c.safe then m.applySafe p else m
  let r := if c.overridden && (bitAt c.result 0 || c.safe) then withBits (c.result + rOVERRIDDEN) 0 1 0 else c.result
  m.setCapture p (some { c with applied := true, code := some (m.rd F.PORT_OUT_CODE p), result := r })

/-- The commit instant ends the wait of R31's t3 at the ports past t2. -/
def Mod.commitPassed (m : Mod) (p : Nat) : Mod :=
  let q := m.port p
  if q.phase = .run && q.awaitT3 then (m.setPort p { q with awaitT3 := false }).portMaybeEnd p else m

/-- The captured records of a block for which `ok` holds are applied, all in one clock. -/
def Mod.applyBlock (m : Mod) (b : Nat) (ok : Captured → Bool) : Mod :=
  m.each (blockPorts b) (fun m p => match m.capture p with
    | some c => if !c.applied && ok c then m.applyPort p c else m
    | none => m)

/-- COMMIT_APPLY (R89, R91): t2 of the instant last captured. -/
def execCommitApply (b : BlockId) (t : BitVec 64) (s : State) : Host.Outcome State Fault Refusal :=
  s.act (fun m =>
    if Tbl.get 0 m.lastCapture b ≠ t.toNat ∨ t = 0 then m
    else
      let m := (m.toNow t.toNat).applyBlock b (fun c => c.at_ == t.toNat && !c.stepped)
      m.each (blockPorts b) Mod.commitPassed)

/-- STEPPED_COMMIT_APPLY (R490): 1,000 ns of TB_MONO after the capture, at the next edge of the 60 MHz clock, which has three in every
50 ns of TB_NOW (R106). -/
def execSteppedCommitApply (b : BlockId) (s : State) : Host.Outcome State Fault Refusal :=
  s.act (fun m =>
    match (blockPorts b).findSome? (fun p => (m.capture p).bind (fun c => if c.stepped && !c.applied then some c else none)) with
    | none => m
    | some c0 =>
      let m := m.toMono (c0.mono + 1000)
      let m := (m.toNow (((3 * m.now + 49) / 50 * 50 + 2) / 3)).applyBlock b (fun c => c.stepped)
      m.each (blockPorts b) Mod.commitPassed)

/-- t3 of R89 at one port: the output status record. -/
def Mod.statusPort (m : Mod) (p t : Nat) : Mod :=
  match m.capture p with
  | some c =>
    if c.applied && c.at_ == t then
      let st : OutStat := ⟨c.value, t, c.seq, BitVec.ofNat 16 (c.code.getD 0), BitVec.ofNat 32 c.result⟩
      ({ m with ostat := Tbl.set {} m.ostat p st }).setCapture p none
    else m
  | none => m

/-- COMMIT_STATUS_WRITE (R89, R120, R429): once for each commit instant, it is the chess-clock source "commit done". -/
def execCommitStatusWrite (b : BlockId) (t : BitVec 64) (s : State) : Host.Outcome State Fault Refusal :=
  s.act (fun m =>
    let applied := (blockPorts b).any (fun p => (m.capture p).any (fun c => c.applied && c.at_ == t.toNat))
    let done := Tbl.get 0 m.lastCapture b == t.toNat && Tbl.get 0 m.lastDone b != t.toNat && (applied || decide (t.toNat ≤ m.now))
    let m := (m.each (blockPorts b) (fun m p => m.statusPort p t.toNat)).mirrorCodes (blockPorts b)
    m.iff done (fun m => { m with lastDone := Tbl.set 0 m.lastDone b t.toNat }.occur (0x108 + b)))

end Sys2Proof.Machine
end

