-- ==== Sys2Proof/Machine/Bus.lean ====
section
/-!
DEFINITION. Sys2Proof/Machine/Bus.lean: reads and writes of register space (R6 to R9, R19 to R21, R494): what each register
reads as and what a write of it does.
-/
namespace Sys2Proof.Machine

/-! ### Reads -/

/-- Word `i` of 8 bytes of a queue's head, 0 when the queue is empty (R292, R457). -/
def headWord (bs : Option (List Byte)) (i : Nat) : Nat := ofLeBytes (((bs.getD []).drop (8 * i)).take 8)

/-- A new debug challenge (R414): its value is free. -/
def Mod.newChallenge (m : Mod) : Mod :=
  let (k, m) := m.fresh
  let c := (Config.challenge k).toNat
  let m := { m with rook := { m.rook with chal := some c } }
  m.each (upTo 4) (fun m n => m.wr F.ROOK_DBG_CHAL_CHAL n (bitsOf c (32 * n) 32))

/-- The seconds of debug authorisation left, a part of a second counting as one. -/
def Mod.dbgLeft (m : Mod) : Nat :=
  match m.rook.dbgEnd with
  | some t => (t - m.mono + 999999999) / 1000000000
  | none => 0

/-- The value a register reads as where it is not simply the value it holds; none for a register that is. A LOAD or STAGED figure that does not
fit its 16 bits reads modulo 65,536 (DESIGN CHOICE, log entry 79: R84 does not say). -/
def Mod.shown (m : Mod) (r : Reg) (i : Nat) : Option Nat :=
  match r with
  | .PBLK_FAULT_SUM => some (maskOf 32 (fun j => m.reg .PORT_FAULT (32 * i + j) != 0))
  | .PBLK_CARRIER => some (m.reg .PBLK_CARRIER i % 16 / 8 * 8 + b2n (m.flag F.CAR_STATUS_DESC_OK) + 2 * b2n (m.flag F.CAR_STATUS_TWIN) + 4 * b2n m.isStandby)
  | .PORT_STATUS => some (withBits (withBits (m.reg .PORT_STATUS i) 4 1 (b2n (m.flag F.CAR_STATUS_DESC_OK))) 9 1 (b2n m.isStandby))
  | .PBLK_LINK_UP => some (maskOf 32 (fun j => m.effMode (32 * i + j) == 1 && m.flag F.PORT_STATUS_LINK_UP (32 * i + j)))
  | .CLK_FALL_SUM => some (maskOf 32 (fun j => m.flag F.CLK_STATUS_FALLEN (32 * i + j)))
  | .TB_NOW => some m.now
  | .TB_MONO => some m.mono
  | .TB_STATUS => some (withBits (m.reg .TB_STATUS 0) 7 1 (b2n (m.corr != 0)))
  | .SCH_NEXT => some ((m.slotNext i).getD 0)
  | .SCH_STATUS => some (b2n (m.slotNext i).isSome)
  | .CLK_ELAPSED => match (m.clk i).start with
    | some t => some (m.mono - t % 2 ^ 40)
    | none => none
  | .GATE_VQ_STATUS => some (withBits (m.reg .GATE_VQ_STATUS 0) 0 7 m.vq.length)
  | .GATE_VQ_HEAD => some (headWord (m.vq.head?.map VioRec.bytes) i)
  | .FLT_Q_STATUS => some (withBits (m.reg .FLT_Q_STATUS 0) 0 7 m.fq.length)
  | .FLT_Q_HEAD => some (headWord (m.fq.head?.map FaultRec.bytes) i)
  | .MESH_BC_RX_STATUS => some (withBits (m.reg .MESH_BC_RX_STATUS 0) 0 5 m.fed.bc.length)
  | .MESH_BC_RX_HEAD => some (match m.fed.bc.head? with
    | some (src, d) => src + d.length * 65536
    | none => 0)
  | .MESH_BC_RX_DATA => some (match m.fed.bc.head? with
    | some (_, d) => ofLeBytes ((d.drop (4 * i)).take 4)
    | none => 0)
  | .EVD_STATUS =>
    let k := m.core i
    some (k.level + (if k.halted then 16 else 0) + (if k.waiting then 32 else 0))
  | .EVD_PEND => some (maskOf 32 (fun j => (m.core (i / 8)).pendEv.any (fun e => e.1 == 32 * (i % 8) + j)))
  | .EVD_LAST =>
    let e := Tbl.get (0, false) (m.core (i / 9)).last (i % 9)
    some (e.1 + (if e.2 then 256 else 0))
  | .MEM_SWP_POS => match m.sweep with
    | some w => if w.done.contains .dram then none else some (64 * w.position m.mono)
    | none => none
  | .SPL_BLK_OUT_PEND => some (maskOf 32 (fun j => m.outPending (32 * i + j)))
  | .SPL_PORT_STATUS => some (withBits (m.reg .SPL_PORT_STATUS i) 2 1 (b2n (m.outPending i)))
  | .SPL_BLK_LOAD => some (loadK (m.load i false) % 65536 + loadK (m.load i true) % 65536 * 65536)
  | .CS_ERASES => some (Tbl.get 0 m.csErases (i * 128 + m.rd F.CS_ADDR_ROW i / 2048))
  | .CFG_STATUS => some (withBits (m.reg .CFG_STATUS 0) 3 1 (b2n m.delta))
  | .CFG_REACH => some m.reachSlots.length
  | .CFG_DEVICE => some (b2n m.federated)
  | .ROOK_DBG_LEFT => some m.dbgLeft
  | .GOOSE_STATUS => some (withBits (m.reg .GOOSE_STATUS 0) 1 3 m.goose.sessions.length)
  | .GATE_G_ID => if gateEntries i = 0 then some 0 else none
  | .GATE_G_CTRL => if gateEntries i = 0 then some 0 else none
  | .GATE_ENT_EPOCH => if i % 256 ≥ gateEntries (i / 256) then some 0 else none
  | _ => none

/-- The fields of a register that read as they stand; WO fields read 0. -/
def Reg.readMask (r : Reg) : Nat := r.maskOf (fun t => t != .wo)

/-- The staging view of the 32-bit register at an offset (R380): staged ST fields over what the register reads as. -/
def Mod.sview (m : Mod) (off : Nat) : Nat :=
  match regAt off with
  | some (.CFG_SVIEW_DATA, _, _) => 0
  | some (r, i, b) =>
    let v := ((m.shown r i).getD (m.reg r i)) &&& r.readMask
    let st := r.stMask
    bitsOf ((v &&& ((2 ^ 64 - 1) ^^^ st)) ||| (m.stagedReg r i &&& st)) (8 * b) 32
  | none => 0

/-- What the bytes of a block hold that are no register: the descriptor copy (R422) and the reflectometry buffers (R54). -/
def Mod.plainAt (m : Mod) (off n : Nat) : Nat :=
  if 0x2000 ≤ off ∧ off < 0x2600 then ofLeBytes ((m.desc.drop (off - 0x2000)).take n)
  else if 0x800000 ≤ off ∧ off < 0xA00000 ∧ off % 0x10000 ≥ 0x8000 then
    let buf := Tbl.get [] m.tdrBuf ((off - 0x800000) / 0x10000)
    let j := (off % 0x10000 - 0x8000) / 2
    (upTo (n / 2)).foldl (fun a k => a + (buf.getD (j + k) 0).toNat * 65536 ^ k) 0
  else 0

/-- The matrix engine whose registers an offset lies in (R460). -/
def mxOf (off : Nat) : Option Nat := if 0xD00000 ≤ off ∧ off < 0xD40000 then some ((off - 0xD00000) / 0x10000) else none

/-- Whether the block at an offset is without power, so that it reads 0 and ignores writes (R460). -/
def Mod.regOff (m : Mod) (off : Nat) : Bool :=
  match mxOf off with
  | some g => !m.domOn (44 + g)
  | none => false

/-- The power monitors at a read of theirs (R473): the draw, at most the 190 W of R464, with the highest since the peak was cleared; the energy
stored, at least 3.8 J of it while HOLDUP_OK is 1 outside a loss response (R417). -/
def Mod.measure (m : Mod) (r : Reg) : Mod :=
  match r with
  | .PWR_INPUT =>
    let (k, m) := m.fresh
    let v := (Config.feedDraw k).toNat
    let w := v % 65536 % 1901
    (m.wr F.PWR_INPUT_W 0 w).wr F.PWR_INPUT_PEAK 0 (Nat.max (m.rd F.PWR_INPUT_PEAK) (Nat.max w (v / 65536 % 1901)))
  | .PWR_HOLDUP =>
    let (k, m) := m.fresh
    let v := (Config.holdupEnergy k).toNat
    m.wr F.PWR_HOLDUP_ENERGY 0 (if m.twin.loss.isSome then v % 65536 else if m.flag F.CAR_STATUS_HOLDUP_OK then 380 + v % (65536 - 380) else v % 380)
  | _ => m

/-- `n` bytes of register space within one register or between registers. -/
def Mod.readPart (m : Mod) (off n : Nat) : Mod × Nat :=
  match regAt off with
  | some (.CFG_SVIEW_DATA, _, _) => (m, m.sview (4 * m.rd F.CFG_SVIEW_ADDR_OFFSET))
  | some (r, i, b) =>
    let m := (m.iff (r == .ROOK_DBG_CHAL && i == 0) Mod.newChallenge).measure r
    (m, bitsOf (((m.shown r i).getD (m.reg r i)) &&& r.readMask) (8 * b) (8 * n))
  | none => (m, m.plainAt off n)

/-- Whether 8 bytes at an offset lie in one 64-bit register. -/
def wideReg (off : Nat) : Bool :=
  match regAt off with
  | some (r, _, b) => decide (b + 8 ≤ r.place.bytes)
  | none => false

/-- An admitted read of register space: 4 or 8 bytes, aligned (R21). Two 32-bit registers are read lower first. -/
def Mod.regLoad (m : Mod) (_master off size : Nat) : Mod × Nat :=
  if m.regOff off then (m, 0)
  else if size = 8 ∧ !wideReg off then
    let (m, lo) := m.readPart off 4
    let (m, hi) := m.readPart (off + 4) 4
    (m, lo + hi * 2 ^ 32)
  else m.readPart off size

/-! ### Writes -/

/-- The counters that a write of any value sets to 0 (R63, R104, R128, R252, R274, R291, R326, R347, R437, R457, R473). -/
def Reg.isCounter (r : Reg) : Bool :=
  [Reg.FSW_DROP_VLAN, .FSW_DROP_FULL, .FSW_DROP_NOLINK, .FSW_DROP_BUF, .SPL_RGN_LRX_DROP, .SPL_RGN_LTX_ERR, .SPL_RGN_HRX_DROP,
   .SPL_RGN_OUT_LATE, .SPL_RGN_OUT_REFUSED, .TB_DL_LATE_RX, .TB_DL_LATE_TX, .CLK_FALLS, .SC_SL_CE, .SC_RNG_COUNT, .SC_RNG_SKIPPED,
   .MEM_PATROL_PASSES, .MEM_CE_COUNT, .MEM_UE_COUNT, .MEM_SWP_CLEARED, .GATE_VQ_LOST, .GATE_UNMAPPED_COUNT, .GATE_G_COUNT,
   .MESH_LG_FEC_CORR, .MESH_LG_FEC_UNC, .MESH_LG_AUTH_FAIL, .MESH_LG_RESEND, .MESH_LG_RETRAINS, .MESH_ERR_COUNT, .MX_JOBS,
   .TWIN_HB_MISS, .FLT_Q_LOST, .FLT_SUM_CELL, .FLT_SUM_BLOCK, .EVR_UNROUTED, .PWR_THR_TIME].contains r

/-- A write of the outbox producer (R361, R371): ignored where R95 forbids it, else vector 6. -/
def Mod.fwOut (m : Mod) (q i : Nat) : Mod :=
  if prodMoves (m.rd F.MBX_FW_OUT_PROD_INDEX q) (m.rd F.MBX_FW_OUT_CONS_INDEX q) i 16 then (m.wr F.MBX_FW_OUT_PROD_INDEX q i).msix 6 else m

/-- A write of the inbox consumer. -/
def Mod.fwIn (m : Mod) (q i : Nat) : Mod :=
  if consMoves (m.rd F.MBX_FW_IN_PROD_INDEX q) (m.rd F.MBX_FW_IN_CONS_INDEX q) i then m.wr F.MBX_FW_IN_CONS_INDEX q i else m

/-- The peak draw cleared (R473). -/
def Mod.clearPeak (m : Mod) : Mod := m.wr F.PWR_INPUT_PEAK 0 0

/-- A write of ones to GATE_ENT_EPOCH: ADV_REFUSED is cleared before ADVANCE acts. -/
def Mod.epochWrite (m : Mod) (gate e v : Nat) : Mod :=
  if e ≥ gateEntries gate then m
  else
    let m := m.iff (bitAt v 17) (fun m => m.put F.GATE_ENT_EPOCH_ADV_REFUSED (entIx gate e) false)
    m.iff (bitAt v 16) (fun m => m.epochAdvance gate e)

/-- A write of GATE_G_CTRL (R6, R8): nothing once locked; both fields and the lock in one access. -/
def Mod.gateCtrl (m : Mod) (gate v mask : Nat) : Mod :=
  if gateEntries gate = 0 || m.flag F.GATE_G_CTRL_LOCK gate then m
  else m.setReg .GATE_G_CTRL gate (Reg.take .GATE_G_CTRL gate (· == .rwl) (m.reg .GATE_G_CTRL gate) v mask).1

/-- The registers that are written whole by an operation of their own. -/
def Mod.writeWhole (m : Mod) (w : Writer) (r : Reg) (i v mask : Nat) : Option Mod :=
  let merged := fun (old : Nat) => (old &&& ((2 ^ 64 - 1) ^^^ mask)) ||| (v &&& mask)
  let gate := i / 256
  let e := i % 256
  let part := if mask % 2 ^ 32 = 0 then (4, 4) else if mask < 2 ^ 32 then (0, 4) else (0, 8)
  match r with
  | .GATE_ENT_BASE => some (m.entWrite w gate e .base (merged (m.entPend gate e).base) part)
  | .GATE_ENT_TOP => some (m.entWrite w gate e .top (merged (m.entPend gate e).top) part)
  | .GATE_ENT_MASTERS => some (m.entWrite w gate e .masters (merged (m.entPend gate e).masters) part)
  | .GATE_ENT_CTRL => some (m.entApply w gate e v)
  | .GATE_ENT_EPOCH => some (m.epochWrite gate e v)
  | .GATE_G_CTRL => some (m.gateCtrl i v mask)
  | .SPL_RGN_LRX_CONS => some (m.ringWrite i .linkRxCons (v % 65536))
  | .SPL_RGN_LTX_PROD => some (m.ringWrite i .linkTxProd (v % 65536))
  | .SPL_RGN_HRX_CONS => some (m.ringWrite i .hartRxCons (v % 65536))
  | .SPL_RGN_HTX_PROD => some (m.ringWrite i .hartTxProd (v % 65536))
  | .MX_PROD => some (m.mxProd i (v % 65536))
  | .MBX_FW_IN_CONS => some (m.fwIn i (v % 65536))
  | .MBX_FW_OUT_PROD => some (m.fwOut i (v % 65536))
  | .TB_FREQ => some (m.tbFreq (v % 2 ^ 32))
  | .TB_PHASE => some (m.tbPhase (signedOf 32 v))
  | .TB_STEP => some (m.tbStep (v &&& mask))
  | .EVD_PEND => some (m.evdPendClear (i / 8) (i % 8) (v &&& mask))
  | .EVD_DOORBELL => some (m.iff (bitAt v 0) (fun m => m.raise i))
  | .FLT_RST => some (m.fltRst w (bitsOf v 0 4) (bitsOf v 16 10))
  | .PORT_STATUS => some (m.iff (bitAt v 21) (fun m => m.tdrRelease i))
  | .SC_RNG_CMD => if bitAt v 4 && m.flag F.SC_RNG_STATUS_BUSY i then some (m.put F.SC_RNG_STATUS_CMDLOST i true) else none
  | .PWR_INPUT => some m.clearPeak
  | .MX_RING_BASE => if m.flag F.MX_CTRL_ENABLE i then some m else none
  | .MX_RING_SIZE => if m.flag F.MX_CTRL_ENABLE i then some m else none
  | _ => none

/-- A write of MESH_GOP_CMD: LEN above 32 in a broadcast is taken as a reserved encoding. -/
def Mod.gopWrite (m : Mod) (w : Writer) (v : Nat) : Mod :=
  let op := bitsOf v 0 3
  if op = 2 ∧ bitsOf v 8 6 > 32 then m.reservedWrite (Reg.place .MESH_GOP_CMD).off w.master.toNat
  else if 1 ≤ op ∧ op ≤ 4 then m.gopCmd op (bitsOf v 4 4) (bitsOf v 8 6) else m

/-- What the WO fields written do once the rest of the access has taken effect. With several command bits in one write the lower bit acts
first, so that START with ABORT starts a run and aborts it (DESIGN CHOICE, log entry 31). -/
def Mod.writeActs (m : Mod) (w : Writer) (r : Reg) (i v : Nat) : Mod :=
  let on := bitAt v
  match r with
  | .PORT_DIAG_CTRL => m.iff (on 1) (fun m => m.netchk i)
  | .PORT_TDR_CTRL => (m.iff (on 0) (fun m => m.tdrStart i)).iff (on 1) (fun m => m.tdrAbort i)
  | .FSW_TBL_CMD => m.iff (bitsOf v 16 2 != 3) (fun m => m.tblCmd w (bitsOf v 16 2) (on 13) (bitsOf v 0 13))
  | .CLK_CMD => ((m.iff (on 0) (fun m => m.clkCmdStart i)).iff (on 1) (fun m => m.clkCmdStop i)).iff (on 2) (fun m => m.clkCmdRelease i)
  | .SC_RNG_CMD => m.iff (on 4) (fun m => m.rngStart w i (bitsOf v 0 3) (on 3))
  | .CS_CMD => m.csCmd i (bitsOf v 0 2)
  | .MEM_SWP_CTRL =>
    (m.iff (on 16) (fun m => m.sweepStart w (on 6) (bitsOf v 0 6) (m.rd F.MEM_SWP_CTRL_RATE))).iff (on 17) Mod.sweepRelease
  | .GATE_VQ_POP => m.iff (on 0) Mod.vqPop
  | .MESH_LG_CTRL => m.iff (on 9) (fun m => m.lgStart i)
  | .MESH_GOP_CMD => m.gopWrite w v
  | .MESH_BC_RX_POP => m.iff (on 0) Mod.bcPop
  | .MX_CTRL => (m.iff (on 1) (fun m => m.mxResume i)).iff (on 2) (fun m => m.mxAbort i)
  | .XFR_CH_CMD => (m.iff (on 0) (fun m => m.xfrStart i)).iff (on 1) (fun m => m.xfrAbort i)
  | .CFG_CMD => m.cfgCmd w.master.toNat (bitsOf v 0 3) (bitsOf v 4 3)
  | .TWIN_CMD => ((m.iff (on 0) Mod.twinCastle).iff (on 1) Mod.twinRemove).iff (on 2) Mod.cancelEject
  | .FLT_CMD => (m.each ((upTo 4).filter on) (fun m g => m.releaseRegion g)).iff (on 4) Mod.releaseDevice
  | .FLT_Q_POP => m.iff (on 0) (fun m => { m with fq := m.fq.drop 1 })
  | .EVR_SW => m.evrSw (bitsOf v 0 4)
  | _ => m

/-- Whether `mask` meets a field of some types. -/
def Reg.touches (r : Reg) (t : FTy → Bool) (mask : Nat) : Bool := (r.maskOf t) &&& mask != 0

/-- What a write leaves of an ST register's offered value `x`: MODE 3 of lane group 7 is reserved too where the carrier is no twin carrier
(R324), and whether it was met. -/
def Mod.ordinaryLane (m : Mod) (r : Reg) (i old x : Nat) : Nat × Bool :=
  if r == .MESH_LG_CTRL && i == 7 && x % 4 == 3 && old % 4 != 3 && !m.flag F.CAR_STATUS_TWIN then (withBits x 0 2 (old % 4), true) else (x, false)

/-- The ST fields of a write: staged, or refused with ST_REFUSED (R380). Whether a reserved encoding was met. -/
def Mod.writeSt (m : Mod) (w : Writer) (r : Reg) (i v mask : Nat) : Mod × Bool :=
  if !r.touches (· == .st) mask then (m, false)
  else if m.mayStage w.master.toNat then
    let old := m.stagedReg r i
    let (x, bad) := r.take i (· == .st) old v mask
    let (x, twin) := m.ordinaryLane r i old x
    (m.setStaged r i x, bad || twin)
  else (m.put F.CFG_STATUS_ST_REFUSED 0 true, false)

/-- A write to one register: `v` in place under `mask`. -/
def Mod.writeReg (m : Mod) (w : Writer) (r : Reg) (i off v mask : Nat) : Mod :=
  if r.isCounter then m.setReg r i 0
  else match m.writeWhole w r i v mask with
    | some m => m
    | none =>
      let (m, bad) := m.writeSt w r i v mask
      let (x, badRw) := r.take i (· == .rw) (m.reg r i) v mask
      let ones := (r.maskOf (· == .w1c)) &&& v &&& mask
      let m := m.setReg r i (x &&& ((2 ^ 64 - 1) ^^^ ones))
      let badWo := (r.take i (· == .wo) 0 v mask).2
      (m.iff (bad || badRw || badWo) (fun m => m.reservedWrite off w.master.toNat)).writeActs w r i (v &&& mask)

/-- `n` bytes written within one register; offsets of no register ignore them (R20). -/
def Mod.writePart (m : Mod) (w : Writer) (off n v : Nat) : Mod :=
  match regAt off with
  | some (r, i, b) => m.writeReg w r i off ((v % 2 ^ (8 * n)) <<< (8 * b)) (byteMask b n)
  | none => m

/-- An admitted write of register space: 4 or 8 bytes, aligned (R21). Two 32-bit registers are written lower first. -/
def Mod.regStore (m : Mod) (w : Writer) (off size value : Nat) : Mod :=
  if m.regOff off then m
  else if size = 8 ∧ !wideReg off then (m.writePart w off 4 value).writePart w (off + 4) 4 (value >>> 32)
  else m.writePart w off size value

end Sys2Proof.Machine
end

