-- ==== Sys2Proof/Machine/CoreMem.lean ====
section
/-!
DEFINITION. Sys2Proof/Machine/CoreMem.lean: the memory accesses of a Lurik core: instruction fetch, loads, the store
buffer, atomics, key stores (R139 to R141, R150 to R158, R179 to R185, R209 to R211, R224, R284, R311).
-/
namespace Sys2Proof.Machine

/-- A precise exception of a word: code, subcode, effective address. -/
structure Exc where
  code : Nat
  sub : Nat
  ea : Nat
  deriving DecidableEq, Repr

/-- Whether an effective address lies on this module (R18). -/
def Mod.isLocal (m : Mod) (ea : Nat) : Bool := eaNode ea == 0xFFF || eaNode ea == m.node

/-- An effective address as the store buffer compares it (R209): the self alias and the own ID are one. -/
def Mod.resolve (m : Mod) (ea : Nat) : Nat := if m.isLocal ea then 0xFFF * 2 ^ 52 + ea % 2 ^ 52 else ea

/-- A core's access at a gate. -/
def coreAcc (c : Nat) (sys : Bool) (epoch a n : Nat) (kind : AccKind) : Acc := ⟨c, sys, epoch, 0, a, n, kind⟩

/-- DEADLINE of a core's request (R312): the low 40 bits of its instant, 0 for none. -/
def Mod.coreDeadline (m : Mod) : Nat :=
  if m.rd F.MESH_DL_CORE_NS = 0 then 0 else (m.now + m.rd F.MESH_DL_CORE_NS) % 2 ^ 40

/-! ### Fetch (R141, R311) -/

/-- Whether a core's L1 holds a line for an epoch (R284). -/
def l1Hit (l : List (Nat × Nat)) (ln epoch : Nat) : Bool :=
  l.any (fun e => e.1 == ln && (epoch == 0 || e.2 == epoch))

/-- Whether a target's lines may stand in an L1 cache (R231). -/
def Target.cached (t : Target) : Bool :=
  match t with
  | .dram => true
  | .code _ => true
  | _ => false

/-- What an L1 miss brings: the line of DRAM into its slice, and, where the core's gate takes the line whole and it is not poisoned, the whole line
into the cache (R233, R238, R284). A code store line comes with its words in error, which a later hit on them meets. -/
def Mod.l1Miss (m : Mod) (c ln epoch : Nat) (sys fetch : Bool) : Mod :=
  let m := m.iff (decide (64 * ln < dramTop)) (fun m => m.missLine c ln)
  let bad := decide (64 * ln < dramTop) && (m.lineNow ln).poison
  m.iff (!bad && (m.gateTest (coreAcc c sys epoch (64 * ln) 64 (if fetch then .fetch else .load))).isNone) (fun m => m.l1Fill c ln epoch fetch)

/-- The fault the fetch of the word at ip meets, if any: key check, alignment, target, memory error. A refusal by a gate is
reported; a hit makes its line the most recent of its set, and a miss fills the line (R232, R233). -/
def Mod.fetchFault (m : Mod) (c : Nat) : Mod × Option Exc :=
  let k := m.core c
  let cur := k.ip.cursor
  match k.ip.check m.node 0 4 rEX with
  | .error s => (m, some ⟨0x02, s, cur⟩)
  | .ok ea =>
    if cur % 4 ≠ 0 then (m, some ⟨0x02, kfALIGN, cur⟩)
    else if !m.isLocal ea then (m.meshErr 0x26, some ⟨0x05, 0x26, ea⟩)
    else
      let a := ea % 2 ^ 52
      let cached := (targetOf a).cached
      if cached && l1Hit k.l1i (a / 64) k.ip.epoch then
        (m.setCore c { k with l1i := l1Used k.l1i (a / 64) }, if decide (dramTop ≤ a) && m.spoiledIn a 4 then some ⟨0x09, 0, ea⟩ else none)
      else
        match m.passGate (coreAcc c k.sys k.ip.epoch a 4 .fetch) with
        | (m, some kind) => (m, some ⟨0x05, kind, ea⟩)
        | (m, none) =>
          let m := m.iff cached (fun m => m.l1Miss c (a / 64) k.ip.epoch k.sys true)
          let bad := if a < dramTop then (m.lineNow (a / 64)).poison else m.spoiledIn a 4
          if bad then (m, some ⟨0x09, 0, ea⟩) else (m, none)

/-! ### Loads -/

/-- A local load of a core at an admitted or cached place (R231 to R234, R284): its bytes, the granule's tag, or its fault. -/
def Mod.coreLoadAt (m : Mod) (c ea n epoch : Nat) (sys : Bool) : Mod × Except Exc (List Byte × Bool) :=
  let a := ea % 2 ^ 52
  let ln := a / 64
  let k := m.core c
  let t := targetOf a
  if t.cached && l1Hit k.l1d ln epoch then
    let m := m.setCore c { k with l1d := l1Used k.l1d ln }
    let bs := if a < dramTop then ((m.lineNow ln).bytes.drop (a % 64)).take n else m.bytes a n
    if decide (dramTop ≤ a) && m.spoiledIn a n then (m, .error ⟨0x09, 0, ea⟩) else (m, .ok (bs, m.tagAt a))
  else
    match m.passGate (coreAcc c sys epoch a n .load) with
    | (m, some kind) => (m, .error ⟨0x04, kind, ea⟩)
    | (m, none) =>
      match t with
      | .regs off =>
        let (m, v) := m.regLoad c off n
        (m, .ok (leBytes n v, false))
      | .dram =>
        let m := m.l1Miss c ln epoch sys false
        let l := m.lineNow ln
        if l.poison then (m, .error ⟨0x09, 0, ea⟩)
        else (m, .ok ((l.bytes.drop (a % 64)).take n, bitAt l.tags.toNat (a % 64 / 16)))
      | .code _ =>
        let m := m.l1Miss c ln epoch sys false
        if m.spoiledIn a n then (m, .error ⟨0x09, 0, ea⟩) else (m, .ok (m.bytes a n, false))
      | _ =>
        let (m, g) := m.rawRead a n
        if g.poison then (m, .error ⟨0x09, 0, ea⟩) else (m, .ok (g.data, m.tagAt a))

/-! ### The store buffer (R209, R210) -/

/-- Whether two byte ranges meet. -/
def overlap (a n b k : Nat) : Bool := decide (a < b + k) && decide (b < a + n)

/-- The locality of a tagged key that is 16 bytes of data. -/
def locOfBytes (bs : List Byte) : Nat := (Key.ofBytes bs true).loc

/-- A local store of a core performed at its target (R153, R232, R234, R282, R163); the refusal's kind otherwise. -/
def Mod.storeLocal (m : Mod) (c a : Nat) (data : List Byte) (key : Option Bool) (epoch : Nat) (sys : Bool) : Mod × Option Nat :=
  let kind : AccKind := if key.isSome && storesTags (targetOf a) then .keyStore else .store
  match m.passGate (coreAcc c sys epoch a data.length kind) with
  | (m, some k) => (m, some k)
  | (m, none) =>
    match targetOf a with
    | .regs off => (m.regStore { master := BitVec.ofNat 6 c, sys := sys, epoch := BitVec.ofNat 6 epoch } off data.length (ofLeBytes data), none)
    | _ =>
      let key := key.map (fun t => (m.filterKey (Key.ofBytes data t)).live && m.keepsTag a (locOfBytes data))
      let m := m.iff (decide (a < dramTop) && ((m.core c).l1d.any (·.1 == a / 64))) (fun m => m.setCore c { m.core c with l1d := l1Used (m.core c).l1d (a / 64) })
      (m.rawWrite a data key (some c), none)

/-- A WR request for bytes within one line (R304): the data flit carries them at their positions with the granule tags. -/
def Mod.sendStore (m : Mod) (who : Requester) (ea : Nat) (data : List Byte) (tags : Nat) (epoch deadline : Nat) : Mod × Except Nat Nat :=
  let a := ea % 2 ^ 52
  let lo := a % 64
  let mask := (2 ^ data.length - 1) * 2 ^ lo
  let line : BitVec 512 := BitVec.ofNat 512 (ofLeBytes data * 2 ^ (8 * lo))
  let df : Flit := ⟨BitVec.ofNat 12 (eaNode ea), BitVec.ofNat 12 m.node, 0, 0x10, 0, 0, 0, BitVec.ofNat 4 tags, 0, 0, false, 0, false, false, line⟩
  m.request who (eaNode ea) 0x02 a data.length epoch deadline (BitVec.ofNat 512 (mask * 2 ^ 128)) 0 [df]

/-- The tags of a key store's data flit (R157). -/
def Mod.storeTags (m : Mod) (ea : Nat) (data : List Byte) (key : Option Bool) : Nat :=
  match key with
  | some t => if m.keyLeaves true (Key.ofBytes data t) then 2 ^ (ea % 64 / 16) else 0
  | none => 0

/-- The high part that stands in the store buffer behind the low part `e` of the same STU, from entry `i` on. -/
def Core.highOf (k : Core) (i : Nat) (e : StoreEnt) : Option StoreEnt :=
  match (k.sb.drop i).find? (fun x => x.level == e.level && x.word == e.word) with
  | some x => if x.high && !e.high then some x else none
  | none => none

/-- Whether `e`, which stood before entry `i`, is the low part of an STU whose high part is not in the store buffer yet: its level's resume ip is at the
word, with SPLIT set (R183), and no later store of the word is there. -/
def Core.splitLow (k : Core) (i : Nat) (e : StoreEnt) : Bool :=
  k.split e.level && !e.high && (k.ipOf e.level).cursor == e.word.toNat && !(k.sb.drop i).any (fun x => x.level == e.level && x.word == e.word)

/-- The mark of a refused low part at the current level gone. -/
def Core.stuFresh (k : Core) : Core := { k with stuLost := k.stuLost.filter (fun x => x.1 != k.level) }

/-- Whether the low part of the STU at ip was refused before the high part could follow it into the buffer. -/
def Core.stuRefused (k : Core) : Bool := k.stuLost.contains (k.level, k.ip.cursor)

/-- A store of core `c` is refused: the imprecise store access exception (R224), and the high part of an STU whose low part it was is not
performed, whether it stands in the buffer or is still to come (R288). The store has already left its place `i` in the buffer. -/
def Mod.storeRefused (m : Mod) (c i : Nat) (e : StoreEnt) (kind : Nat) : Mod :=
  let k := m.core c
  let m := match k.highOf i e with
    | some x => m.setCore c { k with sb := k.sb.erase x }
    | none => m.iff (k.splitLow i e) (fun m => m.setCore c { k with stuLost := (e.level, e.word.toNat) :: k.stuLost.filter (fun x => x.1 != e.level) })
  m.coreImprecise c e.level 0x06 kind e.word.toNat e.ea e.slot

/-- Whether the low part of the same STU still awaits its acknowledgement: its high part goes after it (R288). -/
def Core.lowAwaited (k : Core) (i : Nat) (e : StoreEnt) : Bool :=
  e.high && (k.sb.take i).any (fun x => x.level == e.level && x.word == e.word && !x.high && x.sent.isSome)

/-- Entry `i` of a core's store buffer goes to its target (R209): a local one is performed and acknowledged, a refusal
raises the imprecise store access exception; one for another node is sent. -/
def Mod.performStore (m : Mod) (c i : Nat) : Mod :=
  match (m.core c).sb[i]? with
  | none => m
  | some e =>
    let drop := fun (m : Mod) => m.setCore c { m.core c with sb := (m.core c).sb.eraseIdx i }
    let fail := fun (m : Mod) (kind : Nat) => (drop m).storeRefused c i e kind
    if e.sent.isSome || (m.core c).lowAwaited i e then m
    else if m.isLocal e.ea then
      match m.storeLocal c (e.ea % 2 ^ 52) e.data e.keyTag e.epoch e.sys with
      | (m, none) => drop m
      | (m, some kind) => fail m kind
    else
      match m.sendStore (.coreStore c) e.ea e.data (m.storeTags e.ea e.data e.keyTag) e.epoch m.coreDeadline with
      | (m, .ok tid) => m.setCore c { m.core c with sb := (m.core c).sb.set i { e with sent := some tid } }
      | (m, .error kind) => fail m kind

/-- The first entry that has not gone to its target. -/
def Core.nextStore (k : Core) : Option Nat := k.sb.findIdx? (fun e => e.sent.isNone)

/-- Up to `fuel` entries go to their targets in program order. -/
def Mod.drainStores (m : Mod) (c : Nat) : Nat → Mod
  | 0 => m
  | fuel + 1 => match (m.core c).nextStore with
    | some i => (m.performStore c i).drainStores c fuel
    | none => m

/-- The store buffer drained as far as this module can: only stores whose acknowledgement is awaited remain. -/
def Mod.drain (m : Mod) (c : Nat) : Mod := m.drainStores c 8

/-- What a load finds in the store buffer (R210). -/
inductive SbHit where
  | miss
  | forward (data : List Byte) (tag : Bool)
  | blocked
  deriving DecidableEq, Repr

/-- The store-buffer check of a load; a key load takes only an STK entry of its granule. -/
def Mod.sbCheck (m : Mod) (c ea n : Nat) (keyLoad : Bool) : SbHit :=
  let a := m.resolve ea
  let hits := (m.core c).sb.filter (fun e => overlap (m.resolve e.ea) e.data.length a n)
  match hits.getLast? with
  | none => .miss
  | some e =>
    let b := m.resolve e.ea
    if b ≤ a ∧ a + n ≤ b + e.data.length ∧ (!keyLoad ∨ e.keyTag.isSome) then .forward ((e.data.drop (a - b)).take n) (e.keyTag.getD false)
    else .blocked

/-- What a core's read gives: bytes and tag now, a fault, a request that has left the core, or no progress yet. -/
inductive ReadOut where
  | got (m : Mod) (data : List Byte) (tag : Bool)
  | fault (m : Mod) (e : Exc)
  | sent (m : Mod) (tid : Nat)
  | hold (m : Mod)
  deriving DecidableEq, Repr

/-- A core's read of `n` bytes within one line (R210, R311); LDK is a read of 16 bytes of which the tag is used. -/
def Mod.coreRead (m : Mod) (c ea n epoch : Nat) (sys : Bool) (keyLoad : Bool := false) : ReadOut :=
  let go := fun (m : Mod) =>
    if m.isLocal ea then
      match m.coreLoadAt c ea n epoch sys with
      | (m, .ok (d, t)) => .got m d t
      | (m, .error e) => .fault m e
    else
      match m.request (.core c) (eaNode ea) 0x01 (ea % 2 ^ 52) n epoch m.coreDeadline 0 0 [] with
      | (m, .ok tid) => .sent m tid
      | (m, .error kind) => .fault m ⟨0x04, kind, ea⟩
  match m.sbCheck c ea n keyLoad with
  | .miss => go m
  | .forward d t => .got m d t
  | .blocked =>
    let m := m.drain c
    match m.sbCheck c ea n keyLoad with
    | .miss => go m
    | _ => .hold m

/-- What becomes of a core's store: in the buffer or done, a precise fault, sent with issue held, no room yet. -/
inductive StoreOut where
  | done (m : Mod)
  | fault (m : Mod) (e : Exc)
  | sent (m : Mod) (tid : Nat)
  | hold (m : Mod)
  deriving DecidableEq, Repr

/-- A core's checked store (R209): into the buffer, making room if it is full; with PS set it is performed at once behind
the earlier ones, and a refusal is precise (R224). `slot` names the slot of a pair that stores, `high` marks the high part of an STU, which is not
performed where its low part has been refused (R288). -/
def Mod.coreStore (m : Mod) (c ea : Nat) (data : List Byte) (key : Option Bool) (epoch : Nat) (slot : Option Bool := none) (high : Bool := false) : StoreOut :=
  let k := m.core c
  let lost := fun (m : Mod) => high && (m.core c).stuRefused
  if k.stField k.level 21 1 = 1 then
    let m := m.drain c
    if lost m then .done (m.setCore c (m.core c).stuFresh)
    else if !(m.core c).sb.isEmpty then .hold m
    else if m.isLocal ea then
      match m.storeLocal c (ea % 2 ^ 52) data key epoch k.sys with
      | (m, none) => .done m
      | (m, some kind) => .fault m ⟨0x06, kind, ea⟩
    else
      match m.sendStore (.core c) ea data (m.storeTags ea data key) epoch m.coreDeadline with
      | (m, .ok tid) => .sent m tid
      | (m, .error kind) => .fault m ⟨0x06, kind, ea⟩
  else
    let m := if k.sb.length ≥ 8 then (match k.nextStore with
      | some i => m.performStore c i
      | none => m) else m
    let k := m.core c
    if lost m then .done (m.setCore c k.stuFresh)
    else if k.sb.length ≥ 8 then .hold m
    else .done (m.setCore c { k with sb := k.sb ++ [⟨ea, data, key, epoch, BitVec.ofNat 64 k.ip.cursor, k.level, k.sys, slot, none, high⟩] })

/-! ### Key stores and key loads (R151, R152) -/

/-- Whether an effective address lies in the scratch of core `c` on this module. -/
def Mod.ownScratch (m : Mod) (c ea : Nat) : Bool :=
  m.isLocal ea && targetOf (ea % 2 ^ 52) == .coreScratch c

/-- Whether the target of an effective address stores tags, an unmapped one counting as not (R151). -/
def Mod.tagTarget (m : Mod) (ea : Nat) : Bool :=
  let t := targetOf (ea % 2 ^ 52)
  storesTags t && (!m.isLocal ea || m.mapped t 16)

/-- The faults of storing a key through kb that the master decides (R151, R152). -/
def Mod.keyStoreFault (m : Mod) (c ea : Nat) (kb k : Key) : Option Nat :=
  if !k.live then none
  else if !m.tagTarget ea then some kfTAGSTORE
  else if k.loc = 2 && !(kb.has rSKL && m.ownScratch c ea) then some kfLOCALITY
  else none

/-- The fault of storing a key by a context instruction, which stores stack-local keys wherever tags are stored (R152, R199). -/
def Mod.savedKeyFault (m : Mod) (ea : Nat) (k : Key) : Option Nat := if k.live && !m.tagTarget ea then some kfTAGSTORE else none

/-- The key a context instruction loads, stack-local or not, through a key that holds LK (R152, R163, R200). -/
def Mod.restoredKey (m : Mod) (data : List Byte) (tag : Bool) : Key :=
  let k := Key.ofBytes data tag
  m.filterKey { k with tag := k.live }

/-- The tag a key takes as it is loaded through kb by LDK or KCAS (R151, R152, R158, R163). -/
def Mod.loadedKey (m : Mod) (c ea : Nat) (kb : Key) (data : List Byte) (tag : Bool) : Key :=
  let k := Key.ofBytes data (tag && kb.has rLK)
  let k := if k.live && !(k.loc == 2 && !m.ownScratch c ea) then k else { k with tag := false }
  m.filterKey k

/-! ### Atomics (R184, R185) -/

/-- A local atomic of a core: the old bytes, with `f` giving the new ones, none for no write. The issuing core's copy of the
line goes. -/
def Mod.coreAtomic (m : Mod) (c ea n epoch : Nat) (sys : Bool) (f : List Byte → Option (List Byte)) : Mod × Except Exc (List Byte) :=
  let a := ea % 2 ^ 52
  match m.passGate (coreAcc c sys epoch a n .atomic) with
  | (m, some kind) => (m, .error ⟨0x04, kind, ea⟩)
  | (m, none) =>
    let m := m.l1dDrop c (a / 64)
    let (m, g) := m.rawRead a n
    if g.poison then (m, .error ⟨0x09, 0, ea⟩)
    else match f g.data with
      | some new => (m.rawWrite a new none none, .ok g.data)
      | none => (m, .ok g.data)

/-- A granule's tag set where its target stores tags. -/
def Mod.setTagAt (m : Mod) (a : Nat) (t : Bool) : Mod :=
  match targetOf a with
  | .dram => match Tbl.look m.lines (a / 64) with
    | some l => { m with lines := Tbl.put m.lines (a / 64) { l with tags := BitVec.ofNat 4 (withBits l.tags.toNat (a % 64 / 16) 1 (b2n t)) } }
    | none => m
  | .scratch _ _ => m.setTag a t
  | .coreScratch _ => m.setTag a t
  | _ => m

end Sys2Proof.Machine
end

