-- ==== Sys2Proof/Machine/Lurik.lean ====
section
/-!
DEFINITION. Sys2Proof/Machine/Lurik.lean: the words of the Lurik cores (R172 to R174 and the tables they name): what a
word decodes to, and the word of each core instruction.
-/
namespace Sys2Proof.Machine

/-! ### Formats (R172) -/

def wordA (major rd rs1 rs2 fn : Nat) : Nat := major * 2 ^ 24 + rd * 2 ^ 19 + rs1 * 2 ^ 14 + rs2 * 2 ^ 9 + fn
def wordI (major rd rs1 imm : Nat) : Nat := major * 2 ^ 24 + rd * 2 ^ 19 + rs1 * 2 ^ 14 + imm
def wordM (major r kb off : Nat) : Nat := major * 2 ^ 24 + r * 2 ^ 19 + kb * 2 ^ 15 + off
def wordK (major kd ks rs fn : Nat) : Nat := major * 2 ^ 24 + kd * 2 ^ 20 + ks * 2 ^ 16 + rs * 2 ^ 11 + fn

/-- The register a five-bit field names. -/
def reg5 (w lo : Nat) : Fin 32 := ⟨bitsOf w lo 5, Nat.mod_lt _ (by decide)⟩
/-- The key register a four-bit field names. -/
def reg4 (w lo : Nat) : Fin 16 := ⟨bitsOf w lo 4, Nat.mod_lt _ (by decide)⟩
/-- The loop a two-bit field names. -/
def reg2 (w lo : Nat) : Fin 4 := ⟨bitsOf w lo 2, Nat.mod_lt _ (by decide)⟩

/-- A slot of a pair (R172, R177). -/
def slotWord (s : ShortOp) : Nat := s.op.toNat * 2 ^ 10 + s.a.toNat * 2 ^ 5 + s.b.toNat

/-- The slot at a place of a pair word. -/
def slotAt (w lo : Nat) : ShortOp := ⟨BitVec.ofNat 5 (w / 2 ^ (lo + 10)), BitVec.ofNat 5 (w / 2 ^ (lo + 5)), BitVec.ofNat 5 (w / 2 ^ lo)⟩

/-- Whether a slot holds no reserved op and no field that is unused and not 0 (R173, R177). -/
def slotLegal (s : ShortOp) : Bool := decide (s.op.toNat < 30) && (s.op.toNat != 0 || (s.a == 0 && s.b == 0))

/-! ### Encoding -/

/-- The word of a core instruction; 0, which is always illegal (R173), for any other command. -/
def encodeWord (i : Instr) : Nat :=
  match i with
  | .pair _ a b => 2 ^ 31 + slotWord a * 2 ^ 16 + slotWord b * 2
  | .add _ rd rs1 rs2 => wordA 0x1 rd.val rs1.val rs2.val 0x0
  | .sub _ rd rs1 rs2 => wordA 0x1 rd.val rs1.val rs2.val 0x1
  | .and _ rd rs1 rs2 => wordA 0x1 rd.val rs1.val rs2.val 0x2
  | .or _ rd rs1 rs2 => wordA 0x1 rd.val rs1.val rs2.val 0x3
  | .xor _ rd rs1 rs2 => wordA 0x1 rd.val rs1.val rs2.val 0x4
  | .sll _ rd rs1 rs2 => wordA 0x1 rd.val rs1.val rs2.val 0x5
  | .srl _ rd rs1 rs2 => wordA 0x1 rd.val rs1.val rs2.val 0x6
  | .sra _ rd rs1 rs2 => wordA 0x1 rd.val rs1.val rs2.val 0x7
  | .slt _ rd rs1 rs2 => wordA 0x1 rd.val rs1.val rs2.val 0x8
  | .sltu _ rd rs1 rs2 => wordA 0x1 rd.val rs1.val rs2.val 0x9
  | .min _ rd rs1 rs2 => wordA 0x1 rd.val rs1.val rs2.val 0xa
  | .max _ rd rs1 rs2 => wordA 0x1 rd.val rs1.val rs2.val 0xb
  | .minu _ rd rs1 rs2 => wordA 0x1 rd.val rs1.val rs2.val 0xc
  | .maxu _ rd rs1 rs2 => wordA 0x1 rd.val rs1.val rs2.val 0xd
  | .mul _ rd rs1 rs2 => wordA 0x1 rd.val rs1.val rs2.val 0x10
  | .mulh _ rd rs1 rs2 => wordA 0x1 rd.val rs1.val rs2.val 0x11
  | .mulhu _ rd rs1 rs2 => wordA 0x1 rd.val rs1.val rs2.val 0x12
  | .div _ rd rs1 rs2 => wordA 0x1 rd.val rs1.val rs2.val 0x14
  | .divu _ rd rs1 rs2 => wordA 0x1 rd.val rs1.val rs2.val 0x15
  | .rem _ rd rs1 rs2 => wordA 0x1 rd.val rs1.val rs2.val 0x16
  | .remu _ rd rs1 rs2 => wordA 0x1 rd.val rs1.val rs2.val 0x17
  | .addi _ rd rs1 imm => wordI 0x2 rd.val rs1.val imm.toNat
  | .andi _ rd rs1 imm => wordI 0x3 rd.val rs1.val imm.toNat
  | .ori _ rd rs1 imm => wordI 0x4 rd.val rs1.val imm.toNat
  | .xori _ rd rs1 imm => wordI 0x5 rd.val rs1.val imm.toNat
  | .slti _ rd rs1 imm => wordI 0x6 rd.val rs1.val imm.toNat
  | .sltiu _ rd rs1 imm => wordI 0x7 rd.val rs1.val imm.toNat
  | .slli _ rd rs1 sh => wordI 0x8 rd.val rs1.val sh.toNat
  | .srli _ rd rs1 sh => wordI 0x9 rd.val rs1.val sh.toNat
  | .srai _ rd rs1 sh => wordI 0xa rd.val rs1.val sh.toNat
  | .insi _ n rd rs1 imm => wordI (0xb + n.val) rd.val rs1.val imm.toNat
  | .beq _ rs1 rs2 off => wordI 0x10 rs1.val rs2.val off.toNat
  | .bne _ rs1 rs2 off => wordI 0x11 rs1.val rs2.val off.toNat
  | .blt _ rs1 rs2 off => wordI 0x12 rs1.val rs2.val off.toNat
  | .bge _ rs1 rs2 off => wordI 0x13 rs1.val rs2.val off.toNat
  | .bltu _ rs1 rs2 off => wordI 0x14 rs1.val rs2.val off.toNat
  | .bgeu _ rs1 rs2 off => wordI 0x15 rs1.val rs2.val off.toNat
  | .j _ off => 0x16 * 2 ^ 24 + off.toNat
  | .loop _ n rs1 imm => wordI 0x17 n.val rs1.val imm.toNat
  | .rep _ rs1 _ => wordI 0x18 0 rs1.val 0
  | .ldb _ r kb off => wordM 0x20 r.val kb.val off.toNat
  | .ldbu _ r kb off => wordM 0x21 r.val kb.val off.toNat
  | .ldh _ r kb off => wordM 0x22 r.val kb.val off.toNat
  | .ldhu _ r kb off => wordM 0x23 r.val kb.val off.toNat
  | .ldw _ r kb off => wordM 0x24 r.val kb.val off.toNat
  | .ldwu _ r kb off => wordM 0x25 r.val kb.val off.toNat
  | .ldd _ r kb off => wordM 0x26 r.val kb.val off.toNat
  | .ldf _ r kb off => wordM 0x27 r.val kb.val off.toNat
  | .stb _ r kb off => wordM 0x28 r.val kb.val off.toNat
  | .sth _ r kb off => wordM 0x29 r.val kb.val off.toNat
  | .stw _ r kb off => wordM 0x2a r.val kb.val off.toNat
  | .std _ r kb off => wordM 0x2b r.val kb.val off.toNat
  | .stf _ r kb off => wordM 0x2c r.val kb.val off.toNat
  | .lduW _ r kb off => wordM 0x30 r.val kb.val off.toNat
  | .lduD _ r kb off => wordM 0x31 r.val kb.val off.toNat
  | .stuW _ r kb off => wordM 0x32 r.val kb.val off.toNat
  | .stuD _ r kb off => wordM 0x33 r.val kb.val off.toNat
  | .ldk _ k kb off => wordM 0x2d k.val kb.val off.toNat
  | .stk _ k kb off => wordM 0x2e k.val kb.val off.toNat
  | .kmove _ kd ks => wordK 0x40 kd.val ks.val 0 0x0
  | .kadd _ kd ks rs => wordK 0x40 kd.val ks.val rs.val 0x1
  | .kbound _ kd ks rs => wordK 0x40 kd.val ks.val rs.val 0x2
  | .kboundr _ kd ks rs => wordK 0x40 kd.val ks.val rs.val 0x3
  | .krights _ kd ks rs => wordK 0x40 kd.val ks.val rs.val 0x4
  | .kloc _ kd ks rs => wordK 0x40 kd.val ks.val rs.val 0x5
  | .kreepoch _ kd ks rs => wordK 0x40 kd.val ks.val rs.val 0x8
  | .kseal _ kd ks kt => wordK 0x40 kd.val ks.val kt.val 0x6
  | .kunseal _ kd ks kt => wordK 0x40 kd.val ks.val kt.val 0x7
  | .ktest _ rd ks kt => wordK 0x40 kt.val ks.val rd.val 0x9
  | .kget _ rd ks f => wordK 0x40 0 ks.val rd.val (0x10 + f.val)
  | .jk _ ks => wordK 0x40 0 ks.val 0 0x20
  | .jkl _ kd ks => wordK 0x40 kd.val ks.val 0 0x21
  | .amoadd _ wide rd v ks => wordK 0x41 v.val ks.val rd.val (0x0 + b2n wide)
  | .amoswp _ wide rd v ks => wordK 0x41 v.val ks.val rd.val (0x2 + b2n wide)
  | .cas _ wide rd v ks => wordK 0x41 v.val ks.val rd.val (0x4 + b2n wide)
  | .kcas _ kd ks kt => wordK 0x41 kd.val ks.val kt.val 0x6
  | .mcpy _ kd ks rs => wordK 0x42 kd.val ks.val rs.val 0x0
  | .mset _ kd rv rs => wordK 0x42 kd.val rv.val rs.val 0x1
  | .ctxsaveLo _ kl kb n => wordK 0x43 kl.val kb.val n.toNat 0x0
  | .ctxsaveHi _ kb n => wordK 0x43 0 kb.val n.toNat 0x1
  | .ctxloadLo _ kd kb n => wordK 0x43 kd.val kb.val n.toNat 0x2
  | .ctxloadHi _ kb n => wordK 0x43 0 kb.val n.toNat 0x3
  | .fadd _ single fd fs1 fs2 => wordA 0x50 fd.val fs1.val fs2.val (0x0 + 256 * b2n single)
  | .fsub _ single fd fs1 fs2 => wordA 0x50 fd.val fs1.val fs2.val (0x1 + 256 * b2n single)
  | .fmul _ single fd fs1 fs2 => wordA 0x50 fd.val fs1.val fs2.val (0x2 + 256 * b2n single)
  | .fma _ single fd fs1 fs2 => wordA 0x50 fd.val fs1.val fs2.val (0x3 + 256 * b2n single)
  | .fdiv _ single fd fs1 fs2 => wordA 0x50 fd.val fs1.val fs2.val (0x4 + 256 * b2n single)
  | .fmin _ single fd fs1 fs2 => wordA 0x50 fd.val fs1.val fs2.val (0x6 + 256 * b2n single)
  | .fmax _ single fd fs1 fs2 => wordA 0x50 fd.val fs1.val fs2.val (0x7 + 256 * b2n single)
  | .fcmpEq _ single rd fs1 fs2 => wordA 0x50 rd.val fs1.val fs2.val (0x10 + 256 * b2n single)
  | .fcmpLt _ single rd fs1 fs2 => wordA 0x50 rd.val fs1.val fs2.val (0x11 + 256 * b2n single)
  | .fcmpLe _ single rd fs1 fs2 => wordA 0x50 rd.val fs1.val fs2.val (0x12 + 256 * b2n single)
  | .fcmpUn _ single rd fs1 fs2 => wordA 0x50 rd.val fs1.val fs2.val (0x13 + 256 * b2n single)
  | .fsqrt _ single fd fs1 => wordA 0x50 fd.val fs1.val 0 (0x5 + 256 * b2n single)
  | .fcvtDL _ single fd fs1 => wordA 0x50 fd.val fs1.val 0 (0x20 + 256 * b2n single)
  | .fcvtLD _ single fd fs1 => wordA 0x50 fd.val fs1.val 0 (0x21 + 256 * b2n single)
  | .fmov _ fd fs1 => wordA 0x50 fd.val fs1.val 0 0x8
  | .fneg _ fd fs1 => wordA 0x50 fd.val fs1.val 0 0x9
  | .fabs _ fd fs1 => wordA 0x50 fd.val fs1.val 0 0xa
  | .fcvtDS _ fd fs1 => wordA 0x50 fd.val fs1.val 0 0x22
  | .fcvtSD _ fd fs1 => wordA 0x50 fd.val fs1.val 0 0x23
  | .fmvX _ fd fs1 => wordA 0x50 fd.val fs1.val 0 0x24
  | .fmvF _ fd fs1 => wordA 0x50 fd.val fs1.val 0 0x25
  | .srd _ rd num => wordI 0x60 rd.val 0 num.toNat
  | .swr _ rs1 num => wordI 0x61 0 rs1.val num.toNat
  | .fence _ => wordA 0x62 0 0 0 0x0
  | .gateSync _ => wordA 0x62 0 0 0 0x1
  | .ewait _ => wordA 0x62 0 0 0 0x2
  | .eret _ => wordA 0x62 0 0 0 0x3
  | .bankrd _ rd n sel => wordA 0x63 rd.toNat n.toNat 0 sel.toNat
  | .bankwr _ rd n sel => wordA 0x64 rd.toNat n.toNat 0 sel.toNat
  | .trap _ code => wordI 0x65 0 0 code.toNat
  | _ => 0

/-! ### Decoding -/

/-- The integer register ops (R178). -/
def decodeInt (c : CoreId) (w : Nat) : Option Instr :=
    match bitsOf w 0 9 with
    | 0x0 => some (.add c (reg5 w 19) (reg5 w 14) (reg5 w 9))
    | 0x1 => some (.sub c (reg5 w 19) (reg5 w 14) (reg5 w 9))
    | 0x2 => some (.and c (reg5 w 19) (reg5 w 14) (reg5 w 9))
    | 0x3 => some (.or c (reg5 w 19) (reg5 w 14) (reg5 w 9))
    | 0x4 => some (.xor c (reg5 w 19) (reg5 w 14) (reg5 w 9))
    | 0x5 => some (.sll c (reg5 w 19) (reg5 w 14) (reg5 w 9))
    | 0x6 => some (.srl c (reg5 w 19) (reg5 w 14) (reg5 w 9))
    | 0x7 => some (.sra c (reg5 w 19) (reg5 w 14) (reg5 w 9))
    | 0x8 => some (.slt c (reg5 w 19) (reg5 w 14) (reg5 w 9))
    | 0x9 => some (.sltu c (reg5 w 19) (reg5 w 14) (reg5 w 9))
    | 0xa => some (.min c (reg5 w 19) (reg5 w 14) (reg5 w 9))
    | 0xb => some (.max c (reg5 w 19) (reg5 w 14) (reg5 w 9))
    | 0xc => some (.minu c (reg5 w 19) (reg5 w 14) (reg5 w 9))
    | 0xd => some (.maxu c (reg5 w 19) (reg5 w 14) (reg5 w 9))
    | 0x10 => some (.mul c (reg5 w 19) (reg5 w 14) (reg5 w 9))
    | 0x11 => some (.mulh c (reg5 w 19) (reg5 w 14) (reg5 w 9))
    | 0x12 => some (.mulhu c (reg5 w 19) (reg5 w 14) (reg5 w 9))
    | 0x14 => some (.div c (reg5 w 19) (reg5 w 14) (reg5 w 9))
    | 0x15 => some (.divu c (reg5 w 19) (reg5 w 14) (reg5 w 9))
    | 0x16 => some (.rem c (reg5 w 19) (reg5 w 14) (reg5 w 9))
    | 0x17 => some (.remu c (reg5 w 19) (reg5 w 14) (reg5 w 9))
    | _ => none

/-- The key operations, JK and JKL (R186). -/
def decodeKey (c : CoreId) (w : Nat) : Option Instr :=
    match bitsOf w 0 11 with
    | 0x0 => if bitsOf w 11 5 = 0 then some (.kmove c (reg4 w 20) (reg4 w 16)) else none
    | 0x1 => some (.kadd c (reg4 w 20) (reg4 w 16) (reg5 w 11))
    | 0x2 => some (.kbound c (reg4 w 20) (reg4 w 16) (reg5 w 11))
    | 0x3 => some (.kboundr c (reg4 w 20) (reg4 w 16) (reg5 w 11))
    | 0x4 => some (.krights c (reg4 w 20) (reg4 w 16) (reg5 w 11))
    | 0x5 => some (.kloc c (reg4 w 20) (reg4 w 16) (reg5 w 11))
    | 0x8 => some (.kreepoch c (reg4 w 20) (reg4 w 16) (reg5 w 11))
    | 0x6 => if bitsOf w 15 1 = 0 then some (.kseal c (reg4 w 20) (reg4 w 16) (reg4 w 11)) else none
    | 0x7 => if bitsOf w 15 1 = 0 then some (.kunseal c (reg4 w 20) (reg4 w 16) (reg4 w 11)) else none
    | 0x9 => some (.ktest c (reg5 w 11) (reg4 w 16) (reg4 w 20))
    | 0x10 => if bitsOf w 20 4 = 0 then some (.kget c (reg5 w 11) (reg4 w 16) 0) else none
    | 0x11 => if bitsOf w 20 4 = 0 then some (.kget c (reg5 w 11) (reg4 w 16) 1) else none
    | 0x12 => if bitsOf w 20 4 = 0 then some (.kget c (reg5 w 11) (reg4 w 16) 2) else none
    | 0x13 => if bitsOf w 20 4 = 0 then some (.kget c (reg5 w 11) (reg4 w 16) 3) else none
    | 0x14 => if bitsOf w 20 4 = 0 then some (.kget c (reg5 w 11) (reg4 w 16) 4) else none
    | 0x15 => if bitsOf w 20 4 = 0 then some (.kget c (reg5 w 11) (reg4 w 16) 5) else none
    | 0x16 => if bitsOf w 20 4 = 0 then some (.kget c (reg5 w 11) (reg4 w 16) 6) else none
    | 0x17 => if bitsOf w 20 4 = 0 then some (.kget c (reg5 w 11) (reg4 w 16) 7) else none
    | 0x18 => if bitsOf w 20 4 = 0 then some (.kget c (reg5 w 11) (reg4 w 16) 8) else none
    | 0x19 => if bitsOf w 20 4 = 0 then some (.kget c (reg5 w 11) (reg4 w 16) 9) else none
    | 0x1a => if bitsOf w 20 4 = 0 then some (.kget c (reg5 w 11) (reg4 w 16) 10) else none
    | 0x1b => if bitsOf w 20 4 = 0 then some (.kget c (reg5 w 11) (reg4 w 16) 11) else none
    | 0x20 => if bitsOf w 20 4 = 0 && bitsOf w 11 5 = 0 then some (.jk c (reg4 w 16)) else none
    | 0x21 => if bitsOf w 11 5 = 0 then some (.jkl c (reg4 w 20) (reg4 w 16)) else none
    | _ => none

/-- The atomics (R185). -/
def decodeAtomic (c : CoreId) (w : Nat) : Option Instr :=
    match bitsOf w 0 11 with
    | 0x0 => some (.amoadd c false (reg5 w 11) (reg4 w 20) (reg4 w 16))
    | 0x1 => some (.amoadd c true (reg5 w 11) (reg4 w 20) (reg4 w 16))
    | 0x2 => some (.amoswp c false (reg5 w 11) (reg4 w 20) (reg4 w 16))
    | 0x3 => some (.amoswp c true (reg5 w 11) (reg4 w 20) (reg4 w 16))
    | 0x4 => some (.cas c false (reg5 w 11) (reg4 w 20) (reg4 w 16))
    | 0x5 => some (.cas c true (reg5 w 11) (reg4 w 20) (reg4 w 16))
    | 0x6 => if bitsOf w 15 1 = 0 then some (.kcas c (reg4 w 20) (reg4 w 16) (reg4 w 11)) else none
    | _ => none

/-- MCPY and MSET (R194). -/
def decodeCopy (c : CoreId) (w : Nat) : Option Instr :=
    match bitsOf w 0 11 with
    | 0x0 => some (.mcpy c (reg4 w 20) (reg4 w 16) (reg5 w 11))
    | 0x1 => some (.mset c (reg4 w 20) (reg4 w 16) (reg5 w 11))
    | _ => none

/-- The context instructions (R198). -/
def decodeCtx (c : CoreId) (w : Nat) : Option Instr :=
    match bitsOf w 0 11 with
    | 0x0 => some (.ctxsaveLo c (reg4 w 20) (reg4 w 16) (BitVec.ofNat 5 (w / 2 ^ 11)))
    | 0x1 => if bitsOf w 20 4 = 0 then some (.ctxsaveHi c (reg4 w 16) (BitVec.ofNat 5 (w / 2 ^ 11))) else none
    | 0x2 => some (.ctxloadLo c (reg4 w 20) (reg4 w 16) (BitVec.ofNat 5 (w / 2 ^ 11)))
    | 0x3 => if bitsOf w 20 4 = 0 then some (.ctxloadHi c (reg4 w 16) (BitVec.ofNat 5 (w / 2 ^ 11))) else none
    | _ => none

/-- The floating-point operations (R204). -/
def decodeFp (c : CoreId) (w : Nat) : Option Instr :=
    match bitsOf w 0 9 with
    | 0x0 => some (.fadd c false (reg5 w 19) (reg5 w 14) (reg5 w 9))
    | 0x100 => some (.fadd c true (reg5 w 19) (reg5 w 14) (reg5 w 9))
    | 0x1 => some (.fsub c false (reg5 w 19) (reg5 w 14) (reg5 w 9))
    | 0x101 => some (.fsub c true (reg5 w 19) (reg5 w 14) (reg5 w 9))
    | 0x2 => some (.fmul c false (reg5 w 19) (reg5 w 14) (reg5 w 9))
    | 0x102 => some (.fmul c true (reg5 w 19) (reg5 w 14) (reg5 w 9))
    | 0x3 => some (.fma c false (reg5 w 19) (reg5 w 14) (reg5 w 9))
    | 0x103 => some (.fma c true (reg5 w 19) (reg5 w 14) (reg5 w 9))
    | 0x4 => some (.fdiv c false (reg5 w 19) (reg5 w 14) (reg5 w 9))
    | 0x104 => some (.fdiv c true (reg5 w 19) (reg5 w 14) (reg5 w 9))
    | 0x6 => some (.fmin c false (reg5 w 19) (reg5 w 14) (reg5 w 9))
    | 0x106 => some (.fmin c true (reg5 w 19) (reg5 w 14) (reg5 w 9))
    | 0x7 => some (.fmax c false (reg5 w 19) (reg5 w 14) (reg5 w 9))
    | 0x107 => some (.fmax c true (reg5 w 19) (reg5 w 14) (reg5 w 9))
    | 0x10 => some (.fcmpEq c false (reg5 w 19) (reg5 w 14) (reg5 w 9))
    | 0x110 => some (.fcmpEq c true (reg5 w 19) (reg5 w 14) (reg5 w 9))
    | 0x11 => some (.fcmpLt c false (reg5 w 19) (reg5 w 14) (reg5 w 9))
    | 0x111 => some (.fcmpLt c true (reg5 w 19) (reg5 w 14) (reg5 w 9))
    | 0x12 => some (.fcmpLe c false (reg5 w 19) (reg5 w 14) (reg5 w 9))
    | 0x112 => some (.fcmpLe c true (reg5 w 19) (reg5 w 14) (reg5 w 9))
    | 0x13 => some (.fcmpUn c false (reg5 w 19) (reg5 w 14) (reg5 w 9))
    | 0x113 => some (.fcmpUn c true (reg5 w 19) (reg5 w 14) (reg5 w 9))
    | 0x5 => if bitsOf w 9 5 = 0 then some (.fsqrt c false (reg5 w 19) (reg5 w 14)) else none
    | 0x105 => if bitsOf w 9 5 = 0 then some (.fsqrt c true (reg5 w 19) (reg5 w 14)) else none
    | 0x20 => if bitsOf w 9 5 = 0 then some (.fcvtDL c false (reg5 w 19) (reg5 w 14)) else none
    | 0x120 => if bitsOf w 9 5 = 0 then some (.fcvtDL c true (reg5 w 19) (reg5 w 14)) else none
    | 0x21 => if bitsOf w 9 5 = 0 then some (.fcvtLD c false (reg5 w 19) (reg5 w 14)) else none
    | 0x121 => if bitsOf w 9 5 = 0 then some (.fcvtLD c true (reg5 w 19) (reg5 w 14)) else none
    | 0x8 => if bitsOf w 9 5 = 0 then some (.fmov c (reg5 w 19) (reg5 w 14)) else none
    | 0x9 => if bitsOf w 9 5 = 0 then some (.fneg c (reg5 w 19) (reg5 w 14)) else none
    | 0xa => if bitsOf w 9 5 = 0 then some (.fabs c (reg5 w 19) (reg5 w 14)) else none
    | 0x22 => if bitsOf w 9 5 = 0 then some (.fcvtDS c (reg5 w 19) (reg5 w 14)) else none
    | 0x23 => if bitsOf w 9 5 = 0 then some (.fcvtSD c (reg5 w 19) (reg5 w 14)) else none
    | 0x24 => if bitsOf w 9 5 = 0 then some (.fmvX c (reg5 w 19) (reg5 w 14)) else none
    | 0x25 => if bitsOf w 9 5 = 0 then some (.fmvF c (reg5 w 19) (reg5 w 14)) else none
    | _ => none

/-- FENCE, GATE.SYNC, EWAIT and ERET (R205). -/
def decodeSys (c : CoreId) (w : Nat) : Option Instr :=
    match bitsOf w 0 9 with
    | 0x0 => if bitsOf w 9 15 = 0 then some (.fence c) else none
    | 0x1 => if bitsOf w 9 15 = 0 then some (.gateSync c) else none
    | 0x2 => if bitsOf w 9 15 = 0 then some (.ewait c) else none
    | 0x3 => if bitsOf w 9 15 = 0 then some (.eret c) else none
    | _ => none

/-- What a word decodes to (R172 to R174), `next` being the word after it, the target of a REP (R192); none where the
word raises illegal opcode, subcode reserved. -/
def decodeWord (c : CoreId) (w : Nat) (next : BitVec 32) : Option Instr :=
  if bitsOf w 31 1 = 1 then
    let a := slotAt w 16
    let b := slotAt w 1
    if bitsOf w 0 1 = 0 && slotLegal a && slotLegal b then some (.pair c a b) else none
  else
    match bitsOf w 24 7 with
    | 0x1 => decodeInt c w
    | 0x2 => some (.addi c (reg5 w 19) (reg5 w 14) (BitVec.ofNat 14 w))
    | 0x3 => some (.andi c (reg5 w 19) (reg5 w 14) (BitVec.ofNat 14 w))
    | 0x4 => some (.ori c (reg5 w 19) (reg5 w 14) (BitVec.ofNat 14 w))
    | 0x5 => some (.xori c (reg5 w 19) (reg5 w 14) (BitVec.ofNat 14 w))
    | 0x6 => some (.slti c (reg5 w 19) (reg5 w 14) (BitVec.ofNat 14 w))
    | 0x7 => some (.sltiu c (reg5 w 19) (reg5 w 14) (BitVec.ofNat 14 w))
    | 0x8 => if bitsOf w 6 8 = 0 then some (.slli c (reg5 w 19) (reg5 w 14) (BitVec.ofNat 6 w)) else none
    | 0x9 => if bitsOf w 6 8 = 0 then some (.srli c (reg5 w 19) (reg5 w 14) (BitVec.ofNat 6 w)) else none
    | 0xa => if bitsOf w 6 8 = 0 then some (.srai c (reg5 w 19) (reg5 w 14) (BitVec.ofNat 6 w)) else none
    | 0xb => some (.insi c 0 (reg5 w 19) (reg5 w 14) (BitVec.ofNat 14 w))
    | 0xc => some (.insi c 1 (reg5 w 19) (reg5 w 14) (BitVec.ofNat 14 w))
    | 0xd => some (.insi c 2 (reg5 w 19) (reg5 w 14) (BitVec.ofNat 14 w))
    | 0xe => some (.insi c 3 (reg5 w 19) (reg5 w 14) (BitVec.ofNat 14 w))
    | 0xf => if bitsOf w 8 6 = 0 then some (.insi c 4 (reg5 w 19) (reg5 w 14) (BitVec.ofNat 14 w)) else none
    | 0x10 => some (.beq c (reg5 w 19) (reg5 w 14) (BitVec.ofNat 14 w))
    | 0x11 => some (.bne c (reg5 w 19) (reg5 w 14) (BitVec.ofNat 14 w))
    | 0x12 => some (.blt c (reg5 w 19) (reg5 w 14) (BitVec.ofNat 14 w))
    | 0x13 => some (.bge c (reg5 w 19) (reg5 w 14) (BitVec.ofNat 14 w))
    | 0x14 => some (.bltu c (reg5 w 19) (reg5 w 14) (BitVec.ofNat 14 w))
    | 0x15 => some (.bgeu c (reg5 w 19) (reg5 w 14) (BitVec.ofNat 14 w))
    | 0x16 => some (.j c (BitVec.ofNat 24 w))
    | 0x17 => if bitsOf w 21 3 = 0 && bitsOf w 0 14 ≠ 0 then some (.loop c (reg2 w 19) (reg5 w 14) (BitVec.ofNat 14 w)) else none
    | 0x18 => if bitsOf w 19 5 = 0 && bitsOf w 0 14 = 0 then some (.rep c (reg5 w 14) next) else none
    | 0x20 => some (.ldb c (reg5 w 19) (reg4 w 15) (BitVec.ofNat 15 w))
    | 0x21 => some (.ldbu c (reg5 w 19) (reg4 w 15) (BitVec.ofNat 15 w))
    | 0x22 => some (.ldh c (reg5 w 19) (reg4 w 15) (BitVec.ofNat 15 w))
    | 0x23 => some (.ldhu c (reg5 w 19) (reg4 w 15) (BitVec.ofNat 15 w))
    | 0x24 => some (.ldw c (reg5 w 19) (reg4 w 15) (BitVec.ofNat 15 w))
    | 0x25 => some (.ldwu c (reg5 w 19) (reg4 w 15) (BitVec.ofNat 15 w))
    | 0x26 => some (.ldd c (reg5 w 19) (reg4 w 15) (BitVec.ofNat 15 w))
    | 0x27 => some (.ldf c (reg5 w 19) (reg4 w 15) (BitVec.ofNat 15 w))
    | 0x28 => some (.stb c (reg5 w 19) (reg4 w 15) (BitVec.ofNat 15 w))
    | 0x29 => some (.sth c (reg5 w 19) (reg4 w 15) (BitVec.ofNat 15 w))
    | 0x2a => some (.stw c (reg5 w 19) (reg4 w 15) (BitVec.ofNat 15 w))
    | 0x2b => some (.std c (reg5 w 19) (reg4 w 15) (BitVec.ofNat 15 w))
    | 0x2c => some (.stf c (reg5 w 19) (reg4 w 15) (BitVec.ofNat 15 w))
    | 0x2d => if bitsOf w 23 1 = 0 then some (.ldk c (reg4 w 19) (reg4 w 15) (BitVec.ofNat 15 w)) else none
    | 0x2e => if bitsOf w 23 1 = 0 then some (.stk c (reg4 w 19) (reg4 w 15) (BitVec.ofNat 15 w)) else none
    | 0x30 => some (.lduW c (reg5 w 19) (reg4 w 15) (BitVec.ofNat 15 w))
    | 0x31 => some (.lduD c (reg5 w 19) (reg4 w 15) (BitVec.ofNat 15 w))
    | 0x32 => some (.stuW c (reg5 w 19) (reg4 w 15) (BitVec.ofNat 15 w))
    | 0x33 => some (.stuD c (reg5 w 19) (reg4 w 15) (BitVec.ofNat 15 w))
    | 0x40 => decodeKey c w
    | 0x41 => decodeAtomic c w
    | 0x42 => decodeCopy c w
    | 0x43 => decodeCtx c w
    | 0x50 => decodeFp c w
    | 0x60 => if bitsOf w 14 5 = 0 && bitsOf w 12 2 = 0 then some (.srd c (reg5 w 19) (BitVec.ofNat 12 w)) else none
    | 0x61 => if bitsOf w 19 5 = 0 && bitsOf w 12 2 = 0 then some (.swr c (reg5 w 14) (BitVec.ofNat 12 w)) else none
    | 0x62 => decodeSys c w
    | 0x63 => if bitsOf w 9 5 = 0 then some (.bankrd c (BitVec.ofNat 5 (w / 2 ^ 19)) (BitVec.ofNat 5 (w / 2 ^ 14)) (BitVec.ofNat 9 w)) else none
    | 0x64 => if bitsOf w 9 5 = 0 then some (.bankwr c (BitVec.ofNat 5 (w / 2 ^ 19)) (BitVec.ofNat 5 (w / 2 ^ 14)) (BitVec.ofNat 9 w)) else none
    | 0x65 => if bitsOf w 14 10 = 0 then some (.trap c (BitVec.ofNat 14 w)) else none
    | _ => none

/-! ### Short ops (R176, R177) -/

/-- A register as R175 and R176 compare them: file 0 d, 1 f, 2 k, 3 FPCSR. -/
abbrev RegName := Nat × Nat

end Sys2Proof.Machine

namespace Sys2Proof
open Machine

def ShortOp.n (s : ShortOp) : Nat := s.op.toNat
def ShortOp.ra (s : ShortOp) : Nat := s.a.toNat
def ShortOp.rb (s : ShortOp) : Nat := s.b.toNat
/-- sext(b) -/
def ShortOp.imm (s : ShortOp) : Int := signedOf 5 s.b.toNat
/-- The key register and the post-increment of a short memory op. -/
def ShortOp.kr (s : ShortOp) : Nat := s.b.toNat % 16
def ShortOp.post (s : ShortOp) : Bool := bitAt s.b.toNat 4
def ShortOp.isMem (s : ShortOp) : Bool := decide (24 ≤ s.n) && decide (s.n ≤ 27)
def ShortOp.isLoad (s : ShortOp) : Bool := s.n == 24 || s.n == 26
def ShortOp.isArith (s : ShortOp) : Bool := decide (21 ≤ s.n) && decide (s.n ≤ 23)
def ShortOp.isFp (s : ShortOp) : Bool := (decide (18 ≤ s.n) && decide (s.n ≤ 23)) || s.n == 26 || s.n == 27
def ShortOp.isBranch (s : ShortOp) : Bool := s.n == 28 || s.n == 29

/-- The registers a short op reads. -/
def ShortOp.reads (s : ShortOp) : List RegName :=
  let n := s.n
  if n = 1 then [(0, s.rb)]
  else if (2 ≤ n ∧ n ≤ 10) ∨ n = 16 ∨ n = 17 then [(0, s.ra), (0, s.rb)]
  else if n = 11 ∨ n = 13 ∨ n = 14 ∨ n = 15 ∨ n = 28 ∨ n = 29 then [(0, s.ra)]
  else if 18 ≤ n ∧ n ≤ 20 then [(1, s.rb)]
  else if 21 ≤ n ∧ n ≤ 23 then [(1, s.ra), (1, s.rb)]
  else if n = 24 ∨ n = 26 then [(2, s.kr)]
  else if n = 25 then [(0, s.ra), (2, s.kr)]
  else if n = 27 then [(1, s.ra), (2, s.kr)]
  else []

/-- The registers a short op writes; d0 is never counted. -/
def ShortOp.writes (s : ShortOp) : List RegName :=
  let n := s.n
  let key := if s.isMem && s.post then [(2, s.kr)] else []
  let dst :=
    if (1 ≤ n ∧ n ≤ 17) ∨ n = 24 then (if s.ra = 0 then [] else [(0, s.ra)])
    else if (18 ≤ n ∧ n ≤ 23) ∨ n = 26 then [(1, s.ra)]
    else []
  dst ++ key

end Sys2Proof

namespace Sys2Proof.Machine

/-! ### The registers of a word (R175, R193) -/

/-- The registers a slot of a pair reads or writes; the arithmetic ops set flags of FPCSR. -/
def slotUses (s : ShortOp) : List RegName := s.reads ++ s.writes ++ (if s.isArith then [(3, 0)] else [])

end Sys2Proof.Machine

namespace Sys2Proof
open Machine

/-- The registers a word reads or writes (R175); the target of a REP is a word of its own. -/
def Instr.uses (i : Instr) : List RegName :=
  match i with
  | .pair _ a b => slotUses a ++ slotUses b
  | .add _ d rs1 rs2 => [(0, d), (0, rs1), (0, rs2)]
  | .sub _ d rs1 rs2 => [(0, d), (0, rs1), (0, rs2)]
  | .and _ d rs1 rs2 => [(0, d), (0, rs1), (0, rs2)]
  | .or _ d rs1 rs2 => [(0, d), (0, rs1), (0, rs2)]
  | .xor _ d rs1 rs2 => [(0, d), (0, rs1), (0, rs2)]
  | .sll _ d rs1 rs2 => [(0, d), (0, rs1), (0, rs2)]
  | .srl _ d rs1 rs2 => [(0, d), (0, rs1), (0, rs2)]
  | .sra _ d rs1 rs2 => [(0, d), (0, rs1), (0, rs2)]
  | .slt _ d rs1 rs2 => [(0, d), (0, rs1), (0, rs2)]
  | .sltu _ d rs1 rs2 => [(0, d), (0, rs1), (0, rs2)]
  | .min _ d rs1 rs2 => [(0, d), (0, rs1), (0, rs2)]
  | .max _ d rs1 rs2 => [(0, d), (0, rs1), (0, rs2)]
  | .minu _ d rs1 rs2 => [(0, d), (0, rs1), (0, rs2)]
  | .maxu _ d rs1 rs2 => [(0, d), (0, rs1), (0, rs2)]
  | .mul _ d rs1 rs2 => [(0, d), (0, rs1), (0, rs2)]
  | .mulh _ d rs1 rs2 => [(0, d), (0, rs1), (0, rs2)]
  | .mulhu _ d rs1 rs2 => [(0, d), (0, rs1), (0, rs2)]
  | .div _ d rs1 rs2 => [(0, d), (0, rs1), (0, rs2)]
  | .divu _ d rs1 rs2 => [(0, d), (0, rs1), (0, rs2)]
  | .rem _ d rs1 rs2 => [(0, d), (0, rs1), (0, rs2)]
  | .remu _ d rs1 rs2 => [(0, d), (0, rs1), (0, rs2)]
  | .addi _ d rs1 _ => [(0, d), (0, rs1)]
  | .andi _ d rs1 _ => [(0, d), (0, rs1)]
  | .ori _ d rs1 _ => [(0, d), (0, rs1)]
  | .xori _ d rs1 _ => [(0, d), (0, rs1)]
  | .slti _ d rs1 _ => [(0, d), (0, rs1)]
  | .sltiu _ d rs1 _ => [(0, d), (0, rs1)]
  | .slli _ d rs1 _ => [(0, d), (0, rs1)]
  | .srli _ d rs1 _ => [(0, d), (0, rs1)]
  | .srai _ d rs1 _ => [(0, d), (0, rs1)]
  | .insi _ _ d rs1 _ => [(0, d), (0, rs1)]
  | .beq _ rs1 rs2 _ => [(0, rs1), (0, rs2)]
  | .bne _ rs1 rs2 _ => [(0, rs1), (0, rs2)]
  | .blt _ rs1 rs2 _ => [(0, rs1), (0, rs2)]
  | .bge _ rs1 rs2 _ => [(0, rs1), (0, rs2)]
  | .bltu _ rs1 rs2 _ => [(0, rs1), (0, rs2)]
  | .bgeu _ rs1 rs2 _ => [(0, rs1), (0, rs2)]
  | .loop _ _ rs1 _ => [(0, rs1)]
  | .rep _ rs1 _ => [(0, rs1)]
  | .ldb _ r kb _ => [(0, r), (2, kb)]
  | .ldbu _ r kb _ => [(0, r), (2, kb)]
  | .ldh _ r kb _ => [(0, r), (2, kb)]
  | .ldhu _ r kb _ => [(0, r), (2, kb)]
  | .ldw _ r kb _ => [(0, r), (2, kb)]
  | .ldwu _ r kb _ => [(0, r), (2, kb)]
  | .ldd _ r kb _ => [(0, r), (2, kb)]
  | .stb _ r kb _ => [(0, r), (2, kb)]
  | .sth _ r kb _ => [(0, r), (2, kb)]
  | .stw _ r kb _ => [(0, r), (2, kb)]
  | .std _ r kb _ => [(0, r), (2, kb)]
  | .lduW _ r kb _ => [(0, r), (2, kb)]
  | .lduD _ r kb _ => [(0, r), (2, kb)]
  | .stuW _ r kb _ => [(0, r), (2, kb)]
  | .stuD _ r kb _ => [(0, r), (2, kb)]
  | .ldf _ r kb _ => [(1, r), (2, kb)]
  | .stf _ r kb _ => [(1, r), (2, kb)]
  | .ldk _ k kb _ => [(2, k), (2, kb)]
  | .stk _ k kb _ => [(2, k), (2, kb)]
  | .kmove _ kd ks => [(2, kd), (2, ks)]
  | .kadd _ kd ks rs => [(2, kd), (2, ks), (0, rs)]
  | .kbound _ kd ks rs => [(2, kd), (2, ks), (0, rs)]
  | .kboundr _ kd ks rs => [(2, kd), (2, ks), (0, rs)]
  | .krights _ kd ks rs => [(2, kd), (2, ks), (0, rs)]
  | .kloc _ kd ks rs => [(2, kd), (2, ks), (0, rs)]
  | .kreepoch _ kd ks rs => [(2, kd), (2, ks), (0, rs)]
  | .kseal _ kd ks kt => [(2, kd), (2, ks), (2, kt)]
  | .kunseal _ kd ks kt => [(2, kd), (2, ks), (2, kt)]
  | .ktest _ d ks kt => [(0, d), (2, ks), (2, kt)]
  | .kget _ d ks _ => [(0, d), (2, ks)]
  | .jk _ ks => [(2, ks)]
  | .jkl _ kd ks => [(2, kd), (2, ks)]
  | .amoadd _ _ d v ks => [(0, d), (0, v), (2, ks)]
  | .amoswp _ _ d v ks => [(0, d), (0, v), (2, ks)]
  | .cas _ _ d v ks => [(0, d), (0, v), (2, ks)]
  | .kcas _ kd ks kt => [(2, kd), (2, ks), (2, kt)]
  | .mcpy _ kd ks rs => [(2, kd), (2, ks), (0, rs)]
  | .mset _ kd rv rs => [(2, kd), (0, rv), (0, rs)]
  | .ctxsaveLo _ kl kb _ => [(2, kl), (2, kb)]
  | .ctxsaveHi _ kb _ => [(2, kb)]
  | .ctxloadLo _ kd kb _ => [(2, kd), (2, kb)]
  | .ctxloadHi _ kb _ => [(2, kb)]
  | .fadd _ _ fd fs1 fs2 => [(1, fd), (1, fs1), (1, fs2), (3, 0)]
  | .fsub _ _ fd fs1 fs2 => [(1, fd), (1, fs1), (1, fs2), (3, 0)]
  | .fmul _ _ fd fs1 fs2 => [(1, fd), (1, fs1), (1, fs2), (3, 0)]
  | .fma _ _ fd fs1 fs2 => [(1, fd), (1, fs1), (1, fs2), (3, 0)]
  | .fdiv _ _ fd fs1 fs2 => [(1, fd), (1, fs1), (1, fs2), (3, 0)]
  | .fmin _ _ fd fs1 fs2 => [(1, fd), (1, fs1), (1, fs2), (3, 0)]
  | .fmax _ _ fd fs1 fs2 => [(1, fd), (1, fs1), (1, fs2), (3, 0)]
  | .fcmpEq _ _ d fs1 fs2 => [(0, d), (1, fs1), (1, fs2), (3, 0)]
  | .fcmpLt _ _ d fs1 fs2 => [(0, d), (1, fs1), (1, fs2), (3, 0)]
  | .fcmpLe _ _ d fs1 fs2 => [(0, d), (1, fs1), (1, fs2), (3, 0)]
  | .fcmpUn _ _ d fs1 fs2 => [(0, d), (1, fs1), (1, fs2), (3, 0)]
  | .fsqrt _ _ fd fs1 => [(1, fd), (1, fs1), (3, 0)]
  | .fcvtDL _ _ fd rs1 => [(1, fd), (0, rs1), (3, 0)]
  | .fcvtLD _ _ d fs1 => [(0, d), (1, fs1), (3, 0)]
  | .fmov _ fd fs1 => [(1, fd), (1, fs1)]
  | .fneg _ fd fs1 => [(1, fd), (1, fs1)]
  | .fabs _ fd fs1 => [(1, fd), (1, fs1)]
  | .fcvtDS _ fd fs1 => [(1, fd), (1, fs1), (3, 0)]
  | .fcvtSD _ fd fs1 => [(1, fd), (1, fs1), (3, 0)]
  | .fmvX _ d fs1 => [(0, d), (1, fs1)]
  | .fmvF _ fd rs1 => [(1, fd), (0, rs1)]
  | .srd _ d num => (0, d.val) :: (if num = 1 then [(3, 0)] else [])
  | .swr _ rs1 num => (0, rs1.val) :: (if num = 1 then [(3, 0)] else [])
  | .bankrd _ r _ sel => [(if sel.toNat < 0x40 then 0 else 2, r.toNat)]
  | .bankwr _ r _ sel => [(if sel.toNat < 0x40 then 0 else 2, r.toNat)]
  | _ => []

end Sys2Proof

namespace Sys2Proof.Machine

/-- The registers a REP and its target name (R192). -/
def repUses (c : CoreId) (rs1 : DReg) (target : BitVec 32) : List RegName :=
  (0, rs1.val) :: (match decodeWord c target.toNat 0 with
  | some i => i.uses
  | none => [])

end Sys2Proof.Machine
end

