-- ==== Sys2Proof/Machine/CoreIssue.lean ====
section
/-!
DEFINITION. Sys2Proof/Machine/CoreIssue.lean: how a Lurik core issues and completes a word, and the bodies of the
instructions (R168 to R205). A body acts at the current level; what it leaves says how the word ends.
-/
namespace Sys2Proof.Machine

/-- How a word ends: completed in sequence, completed by a transfer of control, a precise exception (at ip, or at another
cursor), its request has left the core and it goes on in sequence or at another ip, or no completion yet (the word issues
again). -/
inductive IOut where
  | seq (m : Mod)
  | jump (m : Mod) (ip : Key)
  | exc (m : Mod) (e : Exc) (pair slotB : Bool)
  | excAt (m : Mod) (e : Exc) (fip : Nat) (pair slotB : Bool)
  | sent (m : Mod)
  | sentJump (m : Mod) (ip : Key)
  | stay (m : Mod)
  deriving DecidableEq, Repr

/-- A body: what a word does on core `c` at its current level. -/
abbrev Body := Mod → Nat → IOut

/-! ### Completion (R171, R188, R189) -/

/-- The loop-end evaluation of the word at `a` (R188), from loop n - 1 down. -/
def loopEnd (l a : Nat) : Nat → Core → Core × Option Nat
  | 0, k => (k, none)
  | n + 1, k =>
    if k.lact l n && k.loopReg l 1 n == a then
      if k.loopReg l 2 n > 1 then (k.setLoopReg l 2 n (k.loopReg l 2 n - 1), some (k.loopReg l 0 n))
      else loopEnd l a n ((k.setLoopReg l 2 n 0).setSt l n 1 0)
    else loopEnd l a n k

/-- ip after a word that completed without transferring control. The issue of a copy of its level is over (R195). -/
def Core.next (k : Core) : Core :=
  let (k, t) := loopEnd k.level k.ip.cursor 4 { k with word := false, copy := k.copy.filter (fun x => x.1 != k.level) }
  match t with
  | some a => { k with ip := k.ip.moveTo a }
  | none => { k with ip := k.ip.advance 4 }

/-- One more word completed. -/
def Core.retire (k : Core) : Core := { k with retired := k.retired + 1, word := false }

/-- Whether a core issues words at all. -/
def Mod.canIssue (m : Mod) (c : Nat) : Bool :=
  let k := m.core c
  !k.inReset && !k.halted && (!k.debugHalt || k.debugStep) && !k.waiting && m.domOn c && !m.rgnDown (c / 8)

/-- The registers an awaited access will write; none where its word holds issue until the answer (R175, R182, R196, R201, R224). -/
def LoadKind.writes (x : LoadKind) : Option (List RegName) :=
  match x with
  | .int rd _ _ => some (if rd = 0 then [] else [(0, rd)])
  | .atomic rd _ => some (if rd = 0 then [] else [(0, rd)])
  | .fp fd => some [(1, fd)]
  | .key kd _ => some [(2, kd)]
  | .kcas kd => some [(2, kd)]
  | .pair x => if x.op.isLoad then some x.names else none
  | _ => none

/-- Whether an awaited access of the current level keeps a word that names these registers from issuing: one of them is still to be written,
or the word in question holds issue, as every repetition under a REP does (R175, R206). -/
def Core.barred (k : Core) (uses : List RegName) : Bool :=
  k.waits.any (fun w => w.level == k.level && (w.rep.isSome || (match w.kind.writes with
    | some rs => uses.any (fun r => rs.contains r)
    | none => true)))

/-- Whether a register of another level is still to be written by an awaited access (R175, R220). -/
def Core.awaits (k : Core) (l : Nat) : Bool := k.waits.any (fun w => w.level == l && l != k.level)

/-- The module a word leaves, before its end is brought about. -/
def IOut.mod : IOut → Mod
  | .seq m => m
  | .jump m _ => m
  | .exc m _ _ _ => m
  | .excAt m _ _ _ _ => m
  | .sent m => m
  | .sentJump m _ => m
  | .stay m => m

/-- The end of the word at cursor `w` of core `c`. A core that a store of the word, or a drain for it, has reset begins afresh: the word has no
end (R449). -/
def settle (c w : Nat) (o : IOut) : Mod :=
  if !(o.mod.core c).word then o.mod
  else match o with
  | .seq m => m.setCore c (m.core c).next.retire
  | .jump m ip => m.setCore c { (m.core c).retire with ip := ip }
  | .exc m e pair slotB => m.coreExc c e.code e.sub e.ea w pair slotB
  | .excAt m e fip pair slotB => m.coreExc c e.code e.sub e.ea fip pair slotB
  | .sent m => m.setCore c (m.core c).next
  | .sentJump m ip => m.setCore c { m.core c with ip := ip, word := false }
  | .stay m => m.setCore c { m.core c with word := false }

/-- A word of the core begins to execute. -/
def Core.begin (k : Core) : Core := { k with word := true }

/-- A word is taken up: debug's single step is used up (R290), and the entry of the level can no longer be superseded (R219). -/
def Core.unstep (k : Core) : Core := { k.begin with debugStep := false, entry := none }

/-- SPLIT of the current level cleared, as by every word but an STU (R183). -/
def Core.unsplit (k : Core) : Core := k.setSt k.level 4 1 0

/-- The word at ip, which names the registers `uses`, issues with a body (R141, R173, R175, R183, R188, R220). `stu` marks LDU's counterpart
STU, which alone keeps SPLIT. -/
def Mod.issue (m : Mod) (c : Nat) (uses : List RegName) (body : Body) (stu : Bool := false) : Mod :=
  if !m.canIssue c || (m.core c).barred uses then m
  else
    let m := m.setCore c (m.core c).unstep
    let k := m.core c
    let w := k.ip.cursor
    match k.due.find? (·.level == k.level) with
    | some d =>
      let m := m.setCore c { k with due := k.due.filter (·.level != k.level), word := false }
      if d.fip.toNat = w ∨ d.fip.toNat = w + 4 then
        m.coreExc c (bitsOf d.cause.toNat 0 8) (bitsOf d.cause.toNat 8 8) d.faddr.toNat d.fip.toNat (bitsOf d.cause.toNat 16 1 == 1) (bitsOf d.cause.toNat 17 1 == 1)
      else m
    | none =>
      match m.fetchFault c with
      | (m, some e) => m.coreExc c e.code e.sub e.ea w
      | (m, none) =>
        if !(m.core c).word then m
        else settle c (m.core c).ip.cursor (body (if stu then m else m.setCore c (m.core c).unsplit) c)

/-- Whether core `c` must wait with a word that needs its store buffer empty: stores are left in it, or the drain has reset the core (R211, R449). -/
def Mod.holdsWord (m : Mod) (c : Nat) : Bool := !(m.core c).sb.isEmpty || !(m.core c).word

/-! ### Registers of the current level -/

def Mod.cd (m : Mod) (c r : Nat) : Nat := let k := m.core c; k.d k.level r
def Mod.setCd (m : Mod) (c r v : Nat) : Mod := let k := m.core c; m.setCore c (k.setD k.level r v)
def Mod.ck (m : Mod) (c r : Nat) : Key := let k := m.core c; k.k k.level r
/-- A key register of the current level written, through an active sweep's filter (R163). -/
def Mod.setCk (m : Mod) (c r : Nat) (v : Key) : Mod := let k := m.core c; m.setCore c (k.setK k.level r (m.filterKey v))

/-- An illegal-opcode fault with its subcode (R173). -/
def illegal (m : Mod) (sub : Nat) : IOut := .exc m ⟨0x01, sub, 0⟩ false false
/-- A key fault with its subcode (R140). -/
def keyFault (m : Mod) (sub : Nat) (ea : Nat := 0) : IOut := .exc m ⟨0x02, sub, ea⟩ false false

/-! ### Integer operations (R178) -/

/-- The two-operand integer operations. -/
inductive Alu where
  | add | sub | and | or | xor | sll | srl | sra | slt | sltu | min | max | minu | maxu | mul | mulh | mulhu
  | div | divu | rem | remu
  deriving DecidableEq, Repr

/-- The result of an integer operation on 64-bit operands (R178). -/
def Alu.result (o : Alu) (a b : Nat) : Nat :=
  let sa := signedOf 64 a
  let sb := signedOf 64 b
  match o with
  | .add => (a + b) % 2 ^ 64
  | .sub => wrapTo 64 ((a : Int) - b)
  | .and => a &&& b
  | .or => a ||| b
  | .xor => a ^^^ b
  | .sll => (a <<< (b % 64)) % 2 ^ 64
  | .srl => a >>> (b % 64)
  | .sra => wrapTo 64 (sa >>> (b % 64))
  | .slt => b2n (decide (sa < sb))
  | .sltu => b2n (decide (a < b))
  | .min => if sa < sb then a else b
  | .max => if sa < sb then b else a
  | .minu => if a < b then a else b
  | .maxu => if a < b then b else a
  | .mul => (a * b) % 2 ^ 64
  | .mulh => wrapTo 64 ((sa * sb) / ((2 ^ 64 : Nat) : Int))
  | .mulhu => (a * b) / 2 ^ 64
  | .div => if b = 0 then 2 ^ 64 - 1 else wrapTo 64 (Int.tdiv sa sb)
  | .divu => if b = 0 then 2 ^ 64 - 1 else a / b
  | .rem => if b = 0 then a else wrapTo 64 (Int.tmod sa sb)
  | .remu => if b = 0 then a else a % b

/-- rd = rs1 op rs2. -/
def bodyAlu (o : Alu) (rd rs1 rs2 : Nat) : Body := fun m c => .seq (m.setCd c rd (o.result (m.cd c rs1) (m.cd c rs2)))
/-- rd = rs1 op imm, the immediate already extended to 64 bits. -/
def bodyAluImm (o : Alu) (rd rs1 imm : Nat) : Body := fun m c => .seq (m.setCd c rd (o.result (m.cd c rs1) imm))
/-- A field sign-extended to 64 bits. -/
def sext (w v : Nat) : Nat := wrapTo 64 (signedOf w v)

/-- INSI.n (R178). -/
def bodyInsi (n rd rs1 imm : Nat) : Body := fun m c =>
  if n = 4 && decide (imm ≥ 256) then illegal m 1
  else .seq (m.setCd c rd (withBits (m.cd c rs1) (14 * n) (if n = 4 then 8 else 14) imm % 2 ^ 64))

/-! ### Control transfer (R186 to R193) -/

/-- The comparisons of the conditional branches. -/
inductive Cmp where
  | eq | ne | lt | ge | ltu | geu
  deriving DecidableEq, Repr

def Cmp.holds (o : Cmp) (a b : Nat) : Bool :=
  match o with
  | .eq => a == b
  | .ne => a != b
  | .lt => decide (signedOf 64 a < signedOf 64 b)
  | .ge => decide (signedOf 64 b ≤ signedOf 64 a)
  | .ltu => decide (a < b)
  | .geu => decide (b ≤ a)

/-- The branch target buffer after a branch word (R207): outside timed mode a taken branch writes its entry, one not taken
removes it. -/
def Core.btbAfter (k : Core) (cur target : Nat) (taken : Bool) : Core :=
  if k.stField k.level 19 1 = 1 then k
  else
    let i := bitsOf cur 2 6
    let tagBits := cur / 256
    if taken then { k with btb := Tbl.put k.btb i (tagBits * 2 ^ 64 + target) }
    else match Tbl.look k.btb i with
      | some e => if e / 2 ^ 64 = tagBits then { k with btb := Tbl.erase k.btb i } else k
      | none => k

/-- The active loops whose body a taken branch leaves are deactivated (R189). -/
def Core.leaveLoops (k : Core) (target : Nat) : Core :=
  (upTo 4).foldl (fun k n =>
    if k.lact k.level n && (decide (target < k.loopReg k.level 0 n) || decide (k.loopReg k.level 1 n < target)) then k.setSt k.level n 1 0 else k) k

/-- A taken branch or jump by a number of words (R186). -/
def takeBranch (m : Mod) (c : Nat) (words : Int) : IOut :=
  let k := m.core c
  let ip := k.ip.advance (4 * words)
  let k := (k.btbAfter k.ip.cursor ip.cursor true).leaveLoops ip.cursor
  .jump (m.setCore c k) ip

/-- B.cond. -/
def bodyBranch (o : Cmp) (rs1 rs2 off : Nat) : Body := fun m c =>
  if o.holds (m.cd c rs1) (m.cd c rs2) then takeBranch m c (signedOf 14 off)
  else
    let k := m.core c
    .seq (m.setCore c (k.btbAfter k.ip.cursor 0 false))

/-- J. -/
def bodyJ (off : Nat) : Body := fun m c => takeBranch m c (signedOf 24 off)

/-- LOOP (R187). -/
def bodyLoop (n rs1 imm : Nat) : Body := fun m c =>
  let k := m.core c
  let l := k.level
  let w := k.ip.cursor
  let le := (w + 4 * imm) % 2 ^ 64
  if imm = 0 then illegal m 1
  else if (upTo 4).any (fun j => k.lact l j && (decide (j ≥ n) || decide (k.loopReg l 1 j < w + 4 * imm))) then illegal m 4
  else
    let cnt := k.d l rs1
    let k := ((k.setLoopReg l 0 n (w + 4)).setLoopReg l 1 n le).setLoopReg l 2 n cnt
    if cnt = 0 then .jump (m.setCore c k) (k.ip.advance (4 * imm + 4))
    else .jump (m.setCore c (k.setSt l n 1 1)) (k.ip.advance 4)

/-- JK (R145). -/
def bodyJk (ks : Nat) : Body := fun m c =>
  match (m.ck c ks).jump with
  | .ok ip => .jump m (m.filterKey ip)
  | .error e => keyFault m e

/-- JKL (R145). -/
def bodyJkl (kd ks : Nat) : Body := fun m c =>
  match (m.ck c ks).jump with
  | .ok ip => .jump (m.setCk c kd (m.core c).ip.link) (m.filterKey ip)
  | .error e => keyFault m e

/-! ### Key operations (R143 to R147) -/

/-- A key operation that writes kd or raises a key fault. -/
def keyOp (m : Mod) (c kd : Nat) (r : Except Nat Key) : IOut :=
  match r with
  | .ok k => .seq (m.setCk c kd k)
  | .error e => keyFault m e

def bodyKmove (kd ks : Nat) : Body := fun m c => let k := m.ck c ks; .seq (m.setCk c kd { k with tag := k.live })
def bodyKadd (kd ks rs : Nat) : Body := fun m c => keyOp m c kd ((m.ck c ks).add (m.cd c rs))
def bodyKbound (ex : Bool) (kd ks rs : Nat) : Body := fun m c => keyOp m c kd ((m.ck c ks).bound (m.cd c rs) ex)
def bodyKrights (kd ks rs : Nat) : Body := fun m c => keyOp m c kd ((m.ck c ks).narrowRights (m.cd c rs % 1024))
def bodyKloc (kd ks rs : Nat) : Body := fun m c => keyOp m c kd ((m.ck c ks).narrowLoc (m.cd c rs % 4))
def bodyKseal (kd ks kt : Nat) : Body := fun m c => keyOp m c kd ((m.ck c ks).seal (m.ck c kt))
def bodyKunseal (kd ks kt : Nat) : Body := fun m c => keyOp m c kd ((m.ck c ks).unseal (m.ck c kt))
def bodyKreepoch (kd ks rs : Nat) : Body := fun m c =>
  if !(m.core c).sys then keyFault m kfSYS else keyOp m c kd ((m.ck c ks).reepoch (m.cd c rs % 64))
def bodyKtest (rd ks kt : Nat) : Body := fun m c => .seq (m.setCd c rd (b2n ((m.ck c ks).test (m.ck c kt))))
def bodyKget (rd ks f : Nat) : Body := fun m c => .seq (m.setCd c rd ((m.ck c ks).get f))

/-! ### Loads and stores (R179 to R183) -/

/-- A word's request has left the core: the response is awaited for the level that issued it. -/
def Mod.await (m : Mod) (c tid : Nat) (kind : LoadKind) (ea : Nat) : Mod :=
  let k := m.core c
  m.setCore c { k with waits := k.waits ++ [⟨tid, kind, k.level, k.ip, ea, none, (k.bank k.level).lc, k.stField k.level 0 4, none, none, false⟩] }

/-- The offset of an M-format access (R180). -/
def offM (off s : Nat) : Int := signedOf 15 off * s

/-- Bytes as a register value, sign-extended from their size if `signed`. -/
def extended (bs : List Byte) (signed : Bool) : Nat :=
  let v := ofLeBytes bs
  if signed then sext (8 * bs.length) v else v

/-- A data load of `s` bytes through kb (R139, R180). -/
def bodyLoad (s : Nat) (signed : Bool) (rd kb off : Nat) : Body := fun m c =>
  let k := m.ck c kb
  match k.check m.node (offM off s) s rLD with
  | .error e => keyFault m e (wrapTo 64 ((k.cursor : Int) + offM off s))
  | .ok ea =>
    if ea % s ≠ 0 then .exc m ⟨0x03, 0, ea⟩ false false
    else match m.coreRead c ea s k.epoch (m.core c).sys with
      | .got m d _ => .seq (m.setCd c rd (extended d signed))
      | .fault m e => .exc m e false false
      | .sent m tid => .sent (m.await c tid (.int rd s signed) ea)
      | .hold m => .stay m

/-- A data store of the low `s` bytes of a value through kb. -/
def storeValue (m : Mod) (c s v kb off : Nat) : IOut :=
  let k := m.ck c kb
  match k.check m.node (offM off s) s rST with
  | .error e => keyFault m e (wrapTo 64 ((k.cursor : Int) + offM off s))
  | .ok ea =>
    if ea % s ≠ 0 then .exc m ⟨0x03, 0, ea⟩ false false
    else match m.coreStore c ea (leBytes s v) none k.epoch with
      | .done m => .seq m
      | .fault m e => .exc m e false false
      | .sent m tid => .sent (m.await c tid .store ea)
      | .hold m => .stay m

def bodyStore (s r kb off : Nat) : Body := fun m c => storeValue m c s (m.cd c r) kb off

/-- The FP state made the current level's own (R227). -/
def Mod.fpOwn (m : Mod) (c : Nat) : Mod := let k := m.core c; m.setCore c (k.fpOwn k.level)
def Mod.cf (m : Mod) (c r : Nat) : Nat := let k := m.core c; k.fr k.level r
def Mod.setCf (m : Mod) (c r v : Nat) : Mod := let k := m.core c; m.setCore c (k.setFr k.level r v)

def bodyLdf (fd kb off : Nat) : Body := fun m c =>
  let m := m.fpOwn c
  let k := m.ck c kb
  match k.check m.node (offM off 8) 8 rLD with
  | .error e => keyFault m e (wrapTo 64 ((k.cursor : Int) + offM off 8))
  | .ok ea =>
    if ea % 8 ≠ 0 then .exc m ⟨0x03, 0, ea⟩ false false
    else match m.coreRead c ea 8 k.epoch (m.core c).sys with
      | .got m d _ => .seq (m.setCf c fd (ofLeBytes d))
      | .fault m e => .exc m e false false
      | .sent m tid => .sent (m.await c tid (.fp fd) ea)
      | .hold m => .stay m

def bodyStf (fs kb off : Nat) : Body := fun m c => let m := m.fpOwn c; storeValue m c 8 (m.cf c fs) kb off

/-- LDK (R151). -/
def bodyLdk (kd kb off : Nat) : Body := fun m c =>
  let k := m.ck c kb
  match k.check m.node (offM off 16) 16 rLD with
  | .error e => keyFault m e (wrapTo 64 ((k.cursor : Int) + offM off 16))
  | .ok ea =>
    if ea % 16 ≠ 0 then keyFault m kfALIGN ea
    else match m.coreRead c ea 16 k.epoch (m.core c).sys true with
      | .got m d t => .seq (m.setCk c kd (m.loadedKey c ea k d t))
      | .fault m e => .exc m e false false
      | .sent m tid => .sent (m.await c tid (.key kd (k.has rLK)) ea)
      | .hold m => .stay m

/-- STK (R151, R152, R163). -/
def bodyStk (ks kb off : Nat) : Body := fun m c =>
  let k := m.ck c kb
  let v := m.ck c ks
  match k.check m.node (offM off 16) 16 (if v.live then rST ||| rSK else rST) with
  | .error e => keyFault m e (wrapTo 64 ((k.cursor : Int) + offM off 16))
  | .ok ea =>
    if ea % 16 ≠ 0 then keyFault m kfALIGN ea
    else match m.keyStoreFault c ea k v with
      | some e => keyFault m e ea
      | none => match m.coreStore c ea v.bytes (some v.live) k.epoch with
        | .done m => .seq m
        | .fault m e => .exc m e false false
        | .sent m tid => .sent (m.await c tid .store ea)
        | .hold m => .stay m

/-- The parts of an LDU or STU (R182): (address, length). -/
def unalignedParts (ea s : Nat) : (Nat × Nat) × Option (Nat × Nat) :=
  if ea % s = 0 then ((ea, s), none) else ((ea, s - ea % s), some (ea + s - ea % s, ea % s))

/-- LDU (R182). -/
def bodyLdu (s rd kb off : Nat) : Body := fun m c =>
  let k := m.ck c kb
  match k.check m.node (signedOf 15 off) s rLD with
  | .error e => keyFault m e (wrapTo 64 ((k.cursor : Int) + signedOf 15 off))
  | .ok ea =>
    let sys := (m.core c).sys
    let (lo, hi) := unalignedParts ea s
    match m.coreRead c lo.1 lo.2 k.epoch sys with
    | .fault m e => .exc m e false false
    | .hold m => .stay m
    | .sent m tid => .stay (m.await c tid (.ldu rd s [] (hi.map (fun h => (h.1, h.2, k.epoch)))) lo.1)
    | .got m d _ =>
      match hi with
      | none => .seq (m.setCd c rd (extended d (s == 4)))
      | some h => match m.coreRead c h.1 h.2 k.epoch sys with
        | .got m d2 _ => .seq (m.setCd c rd (extended (d ++ d2) (s == 4)))
        | .fault m e => .exc m e false false
        | .hold m => .stay m
        | .sent m tid => .stay (m.await c tid (.ldu rd s d none) h.1)

/-- STU (R182, R183). -/
def bodyStu (s r kb off : Nat) : Body := fun m c =>
  let k := m.ck c kb
  let kc := m.core c
  match k.check m.node (signedOf 15 off) s rST with
  | .error e => keyFault m e (wrapTo 64 ((k.cursor : Int) + signedOf 15 off))
  | .ok ea =>
    let bs := leBytes s (m.cd c r)
    let done := fun (m : Mod) => m.setCore c ((m.core c).setSt kc.level 4 1 0)
    let fin := fun (o : StoreOut) => match o with
      | .done m => IOut.seq (done m)
      | .fault m e => .exc m e false false
      | .sent m tid => .sent (m.await c tid (.stu true) (match (unalignedParts ea s).2 with
        | some h => h.1
        | none => ea))
      | .hold m => .stay m
    let (lo, hi) := unalignedParts ea s
    match hi with
    | none => fin (m.coreStore c ea bs none k.epoch)
    | some h =>
      let high := fun (m : Mod) => fin (m.coreStore c h.1 (bs.drop lo.2) none k.epoch none true)
      if kc.split kc.level then high m
      else match (m.setCore c kc.stuFresh).coreStore c lo.1 (bs.take lo.2) none k.epoch with
        | .done m => high (m.setCore c ((m.core c).setSt kc.level 4 1 1))
        | .fault m e => .exc m e false false
        | .hold m => .stay m
        | .sent m tid => .stay (m.await c tid (.stu false) lo.1)

/-! ### Atomics (R184, R185) -/

/-- The functions of the data atomics. -/
inductive Amo where
  | add | swap | cas
  deriving DecidableEq, Repr

/-- The value an atomic writes, if any: `old` and `v` in `8 n` bits, `cmp` the compare value. -/
def Amo.write (o : Amo) (n old v cmp : Nat) : Option Nat :=
  match o with
  | .add => some ((old + v) % 2 ^ (8 * n))
  | .swap => some (v % 2 ^ (8 * n))
  | .cas => if old = cmp % 2 ^ (8 * n) then some (v % 2 ^ (8 * n)) else none

/-- The function byte of an ATOM request (R185, R304). -/
def Amo.code (o : Amo) (wide : Bool) : Nat :=
  (match o with
  | .add => 0
  | .swap => 2
  | .cas => 4) + b2n wide

/-- AMOADD, AMOSWP and CAS at the cursor of ks. The store buffer empties first (R211). -/
def bodyAtomic (o : Amo) (wide : Bool) (rd v ks : Nat) : Body := fun m c =>
  let n := if wide then 8 else 4
  let k := m.ck c ks
  match k.check m.node 0 n (rLD ||| rST) with
  | .error e => keyFault m e k.cursor
  | .ok ea =>
    if ea % n ≠ 0 then .exc m ⟨0x03, 0, ea⟩ false false
    else
      let m := m.drain c
      if m.holdsWord c then .stay m
      else
        let val := m.cd c v
        let cmp := m.cd c rd
        if m.isLocal ea then
          match m.coreAtomic c ea n k.epoch (m.core c).sys (fun old => (o.write n (ofLeBytes old) val cmp).map (leBytes n)) with
          | (m, .ok old) => .seq (m.setCd c rd (extended old (!wide)))
          | (m, .error e) => .exc m e false false
        else
          match (m.l1dDrop c (ea % 2 ^ 52 / 64)).request (.core c) (eaNode ea) 0x03 (ea % 2 ^ 52) n k.epoch m.coreDeadline
              (BitVec.ofNat 512 (o.code wide * 2 ^ 72 + val * 2 ^ 128 + cmp * 2 ^ 192)) 0 [] with
          | (m, .ok tid) => .sent (m.await c tid (.atomic rd n) ea)
          | (m, .error kind) => .exc m ⟨0x04, kind, ea⟩ false false

/-- KCAS (R151, R152, R185). -/
def bodyKcas (kd ks kt : Nat) : Body := fun m c =>
  let k := m.ck c ks
  let new := m.ck c kt
  let old := m.ck c kd
  match k.check m.node 0 16 (rLD ||| rST ||| rLK ||| rSK) with
  | .error e => keyFault m e k.cursor
  | .ok ea =>
    if ea % 16 ≠ 0 then keyFault m kfALIGN ea
    else if !m.tagTarget ea then keyFault m kfTAGSTORE ea
    else match m.keyStoreFault c ea k new with
    | some e => keyFault m e ea
    | none =>
      let m := m.drain c
      if m.holdsWord c then .stay m
      else if m.isLocal ea then
        let a := ea % 2 ^ 52
        match m.passGate (coreAcc c (m.core c).sys k.epoch a 16 .atomic) with
        | (m, some kind) => .exc m ⟨0x04, kind, ea⟩ false false
        | (m, none) =>
          let m := m.l1dDrop c (a / 64)
          let (m, g) := m.rawRead a 16
          let tag := m.tagAt a
          if g.poison then .exc m ⟨0x09, 0, ea⟩ false false
          else
            let hit := Key.ofBytes g.data tag == { old with tag := old.live }
            let keep := (m.filterKey new).live && m.keepsTag a new.loc
            let m := m.iff hit (fun m => m.rawWrite a new.bytes (some keep) none)
            .seq (m.setCk c kd (m.loadedKey c ea k g.data tag))
      else
        let tags := 2 * b2n (m.keyLeaves true old) + 4 * b2n (m.keyLeaves true new)
        match (m.l1dDrop c (ea % 2 ^ 52 / 64)).request (.core c) (eaNode ea) 0x04 (ea % 2 ^ 52) 16 k.epoch m.coreDeadline
            (BitVec.ofNat 512 (old.bits.toNat * 2 ^ 128 + new.bits.toNat * 2 ^ 256)) (BitVec.ofNat 4 tags) [] with
        | (m, .ok tid) => .sent (m.await c tid (.kcas kd) ea)
        | (m, .error kind) => .exc m ⟨0x04, kind, ea⟩ false false

/-! ### MCPY and MSET (R155, R194 to R196), one chunk an issue -/

/-- The length of the next chunk of `n` bytes toward `dst`: within one 64-byte line of the destination, and of the source
where it must be read in one request. -/
def chunkUp (dst src n : Nat) (oneSrc : Bool) : Nat :=
  let d := Nat.min n (64 - dst % 64)
  if oneSrc then Nat.min d (64 - src % 64) else d

/-- The length of the last chunk below `dstEnd` and `srcEnd`. -/
def chunkDown (dstEnd srcEnd n : Nat) (oneSrc : Bool) : Nat :=
  let last := fun (e : Nat) => if e % 64 = 0 then 64 else e % 64
  let d := Nat.min n (last dstEnd)
  if oneSrc then Nat.min d (last srcEnd) else d

/-- A gate's answer to an access of a chunk: register space accepts none, so what its gate would admit is refused with kind 0x02 (R196). -/
def Mod.chunkTest (m : Mod) (q : Acc) : Option (Nat × Nat) :=
  match m.gateTest q, targetOf q.addr with
  | none, .regs _ => some (0x02, 0xFFFF)
  | r, _ => r

/-- An access of a chunk checked at its gate: a refused one is reported. -/
def Mod.chunkGate (m : Mod) (q : Acc) : Mod × Option Nat :=
  match m.chunkTest q with
  | none => (m, none)
  | some (k, e) => (m.violate q k e, some k)

/-- A chunk's source read, in one read a target (R491), each checked whole by its gate: its bytes with the tag of every
granule it covers whole, or the first refused part's kind and local address. -/
def Mod.chunkRead (m : Mod) (q : Acc) : Mod × Except (Nat × Nat) (List Byte × Bool) :=
  let cut := 64 - q.addr % 64
  let t2 := targetOf (q.addr + q.size - 1)
  let sameTarget := gateOf (targetOf q.addr) == gateOf t2
  if q.size ≤ cut || sameTarget then
    match m.chunkGate q with
    | (m, some k) => (m, .error (k, q.addr))
    | (m, none) =>
      let (m, g) := m.rawRead q.addr q.size
      (m, .ok (g.data, g.poison))
  else
    let hi := { q with addr := q.addr + cut, size := q.size - cut }
    match m.chunkTest { q with size := cut }, m.chunkTest hi with
    | some (k, e), _ => (m.violate { q with size := cut } k e, .error (k, q.addr))
    | none, some (k, e) => (m.violate hi k e, .error (k, hi.addr))
    | none, none =>
      let (m, g1) := m.rawRead q.addr cut
      let (m, g2) := m.rawRead (q.addr + cut) (q.size - cut)
      (m, .ok (g1.data ++ g2.data, g1.poison || g2.poison))

/-- The granules of a chunk that may keep tags (R155): whole destination granules read from whole aligned source granules,
as offsets in the chunk. -/
def chunkGranules (src dst n : Nat) : List Nat :=
  if src % 16 ≠ dst % 16 then []
  else
    let first := (16 - dst % 16) % 16
    (upTo 5).filterMap (fun i => let o := first + 16 * i; if o + 16 ≤ n then some o else none)

/-- The tag a copied granule keeps (R155, R152, R163). -/
def Mod.copyTag (m : Mod) (c dstEa : Nat) (lk sk skl : Bool) (key : Key) : Bool :=
  (m.filterKey key).live && lk && sk && (key.loc != 2 || (skl && m.ownScratch c dstEa))

/-- A local chunk write by a core: bytes, then the tags kept. -/
def Mod.chunkWrite (m : Mod) (c : Nat) (sys : Bool) (epoch ea : Nat) (data : List Byte) (keep : List Nat) : Mod × Option Nat :=
  let a := ea % 2 ^ 52
  match m.chunkGate (coreAcc c sys epoch a data.length .store) with
  | (m, some k) => (m, some k)
  | (m, none) =>
    let m := m.rawWrite a data none (some c)
    (m.each keep (fun m o =>
      let k := Key.ofBytes ((data.drop o).take 16) true
      m.iff (m.keepsTag (a + o) k.loc) (fun m => m.setTagAt (a + o) true)), none)

/-- The progress of a completed chunk (R195). -/
def Mod.chunkProgress (m : Mod) (c kd : Nat) (src : Option Nat) (rs n : Nat) (desc : Bool) : Mod :=
  let m := m.setCd c rs (m.cd c rs - n)
  if desc then m
  else
    let m := m.setCk c kd ((m.ck c kd).advance n)
    match src with
    | some ks => m.setCk c ks ((m.ck c ks).advance n)
    | none => m

/-- A chunk's write toward the destination, local or remote, after which the copy completes or issues again. -/
def chunkOut (m : Mod) (c kd : Nat) (src : Option Nat) (rs n : Nat) (desc : Bool) (dst epoch : Nat) (data : List Byte) (keep : List Nat) : IOut :=
  let sys := (m.core c).sys
  if m.isLocal dst then
    match m.chunkWrite c sys epoch dst data keep with
    | (m, some kind) => .exc m ⟨0x06, kind, dst⟩ false false
    | (m, none) =>
      let m := m.chunkProgress c kd src rs n desc
      if m.cd c rs = 0 then .seq m else .stay m
  else
    let tags := keep.foldl (fun t o => if m.keyLeaves true (Key.ofBytes ((data.drop o).take 16) true) then t ||| 2 ^ ((dst % 64 + o) / 16) else t) 0
    match m.sendStore (.core c) dst data tags epoch m.coreDeadline with
    | (m, .ok tid) => .stay (m.await c tid (.chunk kd src rs n desc true) dst)
    | (m, .error kind) => .exc m ⟨0x06, kind, dst⟩ false false

/-- The granules of a local chunk whose tags are kept. -/
def Mod.keptGranules (m : Mod) (c srcA dst n : Nat) (data : List Byte) (lk sk skl : Bool) : List Nat :=
  (chunkGranules srcA dst n).filter (fun o =>
    m.copyTag c (dst + o) lk sk skl (Key.ofBytes ((data.drop o).take 16) (m.tagAt (srcA % 2 ^ 52 + o))))

/-- Whether a copy of `n` bytes from `src` to `dst` descends: the direction that the present issue of the word has chosen, chosen now where this is its
first chunk (R195). -/
def Core.descends (k : Core) (src dst n : Nat) : Bool :=
  match k.copy with
  | some (l, w, desc) => if l = k.level ∧ w = k.ip.cursor then desc else decide (src < dst) && decide (dst < src + n)
  | none => decide (src < dst) && decide (dst < src + n)

/-- MCPY. The key fault of ks is raised where both keys fail (DESIGN CHOICE, log entry 89). -/
def bodyMcpy (kd ks rs : Nat) : Body := fun m c =>
  let m := m.drain c
  if m.holdsWord c then .stay m
  else
    let d := m.ck c kd
    let s := m.ck c ks
    let n := m.cd c rs
    match s.check m.node 0 n rLD, d.check m.node 0 n rST with
    | .error e, _ => keyFault m e s.cursor
    | .ok _, .error e => keyFault m e d.cursor
    | .ok src, .ok dst =>
      if n = 0 then .seq m
      else if kd = ks then .seq ((m.setCk c kd (d.advance n)).setCd c rs 0)
      else
        let desc := (m.core c).descends src dst n
        let m := m.setCore c { m.core c with copy := some ((m.core c).level, (m.core c).ip.cursor, desc) }
        let remote := !m.isLocal src
        let len := if desc then chunkDown (dst + n) (src + n) n remote else chunkUp dst src n remote
        let so := if desc then src + n - len else src
        let do_ := if desc then dst + n - len else dst
        let sys := (m.core c).sys
        if remote then
          match m.request (.core c) (eaNode so) 0x01 (so % 2 ^ 52) len s.epoch m.coreDeadline 0 0 [] with
          | (m, .ok tid) => .stay (m.await c tid (.chunk kd (some ks) rs len desc false) so)
          | (m, .error kind) => .exc m ⟨0x04, kind, so⟩ false false
        else
          match m.chunkRead (coreAcc c sys s.epoch (so % 2 ^ 52) len .load) with
          | (m, .error (kind, a)) => .exc m ⟨0x04, kind, so - so % 2 ^ 52 + a⟩ false false
          | (m, .ok (data, poison)) =>
            if poison then .exc m ⟨0x09, 0, so⟩ false false
            else
              let keep := m.keptGranules c so do_ len data (s.has rLK) (d.has rSK) (d.has rSKL)
              chunkOut m c kd (some ks) rs len desc do_ d.epoch data keep

/-- MSET. -/
def bodyMset (kd rv rs : Nat) : Body := fun m c =>
  let m := m.drain c
  if m.holdsWord c then .stay m
  else
    let d := m.ck c kd
    let n := m.cd c rs
    match d.check m.node 0 n rST with
    | .error e => keyFault m e d.cursor
    | .ok dst =>
      if n = 0 then .seq m
      else
        let len := chunkUp dst 0 n false
        chunkOut m c kd none rs len false dst d.epoch (List.replicate len (BitVec.ofNat 8 (m.cd c rv))) []

end Sys2Proof.Machine
end

