-- ==== Sys2Proof/Machine/CoreFp.lean ====
section
/-!
DEFINITION. Sys2Proof/Machine/CoreFp.lean: the floating-point bodies of a Lurik core and the short-op pairs
(R176, R177, R203, R204, R224, R227).
-/
namespace Sys2Proof.Machine

/-! ### Floating point (R203, R204) -/

/-- The direction FPCSR.RM names (R170). -/
def rmOf (n : Nat) : Rm := if n = 1 then .zero else if n = 2 then .down else if n = 3 then .up else .near

/-- The direction of core `c`. -/
def Mod.rm (m : Mod) (c : Nat) : Rm := rmOf (bitsOf (m.core c).fpcsr.toNat 0 3)

/-- Flags as the bits NX, UF, OF, DZ, NV of FPCSR[7:3]. -/
def FFlags.bits (f : FFlags) : Nat := b2n f.nx + 2 * b2n f.uf + 4 * b2n f.of + 8 * b2n f.dz + 16 * b2n f.nv

/-- The high half of a boxed binary32. -/
def boxHigh : Nat := 0xFFFFFFFF * 2 ^ 32
/-- A binary32 result boxed in its f register. -/
def box (v : Nat) : Nat := boxHigh + v % 2 ^ 32
/-- A binary32 operand: the quiet NaN if it is not boxed. -/
def unbox (v : Nat) : Nat := if v / 2 ^ 32 = 0xFFFFFFFF then v % 2 ^ 32 else fmt32.qnan

/-- The format of an operation. -/
def fmtOf (single : Bool) : Fmt := if single then fmt32 else fmt64
/-- The operand an f register gives. -/
def Mod.fopnd (m : Mod) (c : Nat) (single : Bool) (r : Nat) : Nat := if single then unbox (m.cf c r) else m.cf c r
/-- The register value of a result. -/
def fres (single : Bool) (v : Nat) : Nat := if single then box v else v

/-- What an FP operation gives: its destination, an f or a d register, its value, its flags. -/
structure FpEff where
  toD : Bool
  dst : Nat
  val : Nat
  fl : FFlags
  deriving DecidableEq, Repr

/-- The operations of two f operands and one f result. -/
inductive Fop where
  | add | sub | mul | div | min | max
  deriving DecidableEq, Repr

def Fop.result (o : Fop) (f : Fmt) (rm : Rm) (a b : Nat) : Nat × FFlags :=
  match o with
  | .add => f.add rm a b
  | .sub => f.sub rm a b
  | .mul => f.mul rm a b
  | .div => f.div rm a b
  | .min => f.minMaxNum false a b
  | .max => f.minMaxNum true a b

/-- The comparisons of FCMP. -/
inductive Fcmp where
  | eq | lt | le | un
  deriving DecidableEq, Repr

/-- A comparison's result: LT and LE signal invalid on any NaN, EQ and UN on a signalling one. -/
def Fcmp.result (o : Fcmp) (f : Fmt) (a b : Nat) : Nat × FFlags :=
  let sig := f.decode a == .nan true || f.decode b == .nan true
  let any := f.isNaN a || f.isNaN b
  match o with
  | .eq => (b2n (f.eq a b), { nv := sig })
  | .lt => (b2n (f.lt a b), { nv := any })
  | .le => (b2n (f.le a b), { nv := any })
  | .un => (b2n any, { nv := sig })

/-- The flags an operation signals whose enables are set. -/
def Mod.enabledFlags (m : Mod) (c : Nat) (fl : FFlags) : Nat := fl.bits &&& bitsOf (m.core c).fpcsr.toNat 8 5

/-- Whether an operation traps precisely (R224). -/
def Mod.fpTraps (m : Mod) (c : Nat) (fl : FFlags) : Bool :=
  let k := m.core c
  k.stField k.level 20 1 == 1 && m.enabledFlags c fl != 0

/-- The result and flags of an operation written, an enabled flag recorded as an imprecise exception (R203, R224). -/
def Mod.fpWrite (m : Mod) (c fip : Nat) (e : FpEff) : Mod :=
  let m := if e.toD then m.setCd c e.dst e.val else m.setCf c e.dst e.val
  let k := m.core c
  let m := m.setCore c { k with fpcsr := k.fpcsr ||| BitVec.ofNat 32 (e.fl.bits * 8) }
  if m.enabledFlags c e.fl ≠ 0 then m.coreImprecise c k.level 0x07 0 fip 0 else m

/-- An FP body, from what its operation gives once the FP state is the level's own. -/
def bodyFp (f : Mod → Nat → FpEff) : Body := fun m c =>
  let m := m.fpOwn c
  let e := f m c
  if m.fpTraps c e.fl then .exc m ⟨0x07, 0, 0⟩ false false
  else .seq (m.fpWrite c (m.core c).ip.cursor e)

/-- FADD, FSUB, FMUL, FDIV, FMIN, FMAX. -/
def effFop (o : Fop) (single : Bool) (fd fs1 fs2 : Nat) (m : Mod) (c : Nat) : FpEff :=
  let r := o.result (fmtOf single) (m.rm c) (m.fopnd c single fs1) (m.fopnd c single fs2)
  ⟨false, fd, fres single r.1, r.2⟩
/-- FMA: fd = fd + fs1 × fs2. -/
def effFma (single : Bool) (fd fs1 fs2 : Nat) (m : Mod) (c : Nat) : FpEff :=
  let r := (fmtOf single).fma (m.rm c) (m.fopnd c single fd) (m.fopnd c single fs1) (m.fopnd c single fs2)
  ⟨false, fd, fres single r.1, r.2⟩
/-- FSQRT. -/
def effSqrt (single : Bool) (fd fs1 : Nat) (m : Mod) (c : Nat) : FpEff :=
  let r := (fmtOf single).sqrt (m.rm c) (m.fopnd c single fs1)
  ⟨false, fd, fres single r.1, r.2⟩
/-- FMOV, FNEG, FABS: 0, 1, 2. -/
def effMove (fn fd fs1 : Nat) (m : Mod) (c : Nat) : FpEff :=
  let a := m.cf c fs1
  ⟨false, fd, (if fn = 0 then a else if fn = 1 then fmt64.neg a else fmt64.abs a), {}⟩
/-- FCMP. -/
def effCmp (o : Fcmp) (single : Bool) (rd fs1 fs2 : Nat) (m : Mod) (c : Nat) : FpEff :=
  let r := o.result (fmtOf single) (m.fopnd c single fs1) (m.fopnd c single fs2)
  ⟨true, rd, r.1, r.2⟩
/-- FCVT.D.L. -/
def effOfInt (single : Bool) (fd rs1 : Nat) (m : Mod) (c : Nat) : FpEff :=
  let r := (fmtOf single).ofInt (m.rm c) (signedOf 64 (m.cd c rs1))
  ⟨false, fd, fres single r.1, r.2⟩
/-- FCVT.L.D. -/
def effToInt (single : Bool) (rd fs1 : Nat) (m : Mod) (c : Nat) : FpEff :=
  let hi : Int := ((2 ^ 63 : Nat) : Int)
  let r := (fmtOf single).toIntIn (m.rm c) (-hi) (hi - 1) 0 (m.fopnd c single fs1)
  ⟨true, rd, wrapTo 64 r.1, r.2⟩
/-- FCVT.D.S. -/
def effToDouble (fd fs1 : Nat) (m : Mod) (c : Nat) : FpEff :=
  let r := fmt32.convert fmt64 (m.rm c) (m.fopnd c true fs1)
  ⟨false, fd, r.1, r.2⟩
/-- FCVT.S.D. -/
def effToSingle (fd fs1 : Nat) (m : Mod) (c : Nat) : FpEff :=
  let r := fmt64.convert fmt32 (m.rm c) (m.cf c fs1)
  ⟨false, fd, box r.1, r.2⟩
/-- FMV.X. -/
def effMvX (rd fs1 : Nat) (m : Mod) (c : Nat) : FpEff := ⟨true, rd, m.cf c fs1, {}⟩
/-- FMV.F. -/
def effMvF (fd rs1 : Nat) (m : Mod) (c : Nat) : FpEff := ⟨false, fd, m.cd c rs1, {}⟩

/-! ### Short ops (R176, R177) -/

/-- Whether a pair is illegal (R176). -/
def illegalPair (a b : ShortOp) : Bool :=
  a.writes.any (fun r => b.reads.contains r) || a.writes.any (fun r => b.writes.contains r) ||
  (a.isMem && b.isMem) || (a.isArith && b.isArith) || a.isBranch

/-- What a slot that is no memory op does: d and f results, flags, a taken branch in words. -/
structure SlotEff where
  d : Option (Nat × Nat) := none
  f : Option (Nat × Nat) := none
  fl : FFlags := {}
  branch : Option (Option Int) := none
  deriving DecidableEq, Repr

/-- The integer operation of a short op. -/
def shortAlu (n : Nat) : Alu :=
  if n = 2 ∨ n = 11 then .add else if n = 3 then .sub else if n = 4 then .and else if n = 5 then .or
  else if n = 6 then .xor else if n = 7 ∨ n = 13 then .sll else if n = 8 ∨ n = 14 then .srl
  else if n = 9 ∨ n = 15 then .sra else if n = 10 then .mul else if n = 16 then .slt else .sltu

/-- The effect of a slot (R177), from the operands at issue. -/
def Mod.slotEff (m : Mod) (c : Nat) (s : ShortOp) : SlotEff :=
  let n := s.n
  let a := m.cd c s.ra
  let b := m.cd c s.rb
  if n = 1 then { d := some (s.ra, b) }
  else if (2 ≤ n ∧ n ≤ 10) ∨ n = 16 ∨ n = 17 then { d := some (s.ra, (shortAlu n).result a b) }
  else if n = 11 then { d := some (s.ra, (shortAlu n).result a (wrapTo 64 s.imm)) }
  else if n = 12 then { d := some (s.ra, wrapTo 64 s.imm) }
  else if 13 ≤ n ∧ n ≤ 15 then { d := some (s.ra, (shortAlu n).result a s.rb) }
  else if 18 ≤ n ∧ n ≤ 20 then { f := some (s.ra, (effMove (n - 18) s.ra s.rb m c).val) }
  else if 21 ≤ n ∧ n ≤ 23 then
    let e := effFop (if n = 21 then .add else if n = 22 then .sub else .mul) false s.ra s.ra s.rb m c
    { f := some (s.ra, e.val), fl := e.fl }
  else if n = 28 then { branch := some (if a ≠ 0 then some s.imm else none) }
  else if n = 29 then { branch := some (if a = 0 then some s.imm else none) }
  else {}

/-- The results of a slot written at level `l`. -/
def Mod.slotWrite (m : Mod) (c l : Nat) (e : SlotEff) : Mod :=
  let k := m.core c
  let k := match e.d with
    | some (r, v) => k.setD l r v
    | none => k
  let k := match e.f with
    | some (r, v) => k.setFr l r v
    | none => k
  m.setCore c k

/-- Flag bits set in the FPCSR of level `l`; an enabled one among them is imprecise (R203, R224). -/
def Mod.slotFlags (m : Mod) (c l fip bits : Nat) (enabled slotB : Bool) : Mod :=
  if bits = 0 then m
  else
    let k := m.core c
    let s := k.fpOf l
    let m := m.setCore c (k.setFpOf l { s with fpcsr := s.fpcsr ||| BitVec.ofNat 32 (bits * 8) })
    if enabled then m.coreImprecise c l 0x07 0 fip 0 (some slotB) else m

/-- The check of a short memory op: its effective address, or its fault. -/
def Mod.slotCheck (m : Mod) (c : Nat) (s : ShortOp) : Except Exc Nat :=
  let k := m.ck c s.kr
  match k.check m.node 0 8 (if s.isLoad then rLD else rST) with
  | .error e => .error ⟨0x02, e, k.cursor⟩
  | .ok ea => if ea % 8 ≠ 0 then .error ⟨0x03, 0, ea⟩ else .ok ea

/-- The results of a completed short memory op at level `l`: a loaded value, the post-increment. -/
def Mod.slotMemDone (m : Mod) (c l : Nat) (s : ShortOp) (data : List Byte) : Mod :=
  let k := m.core c
  let k := if s.n = 24 then k.setD l s.ra (ofLeBytes data) else if s.n = 26 then k.setFr l s.ra (ofLeBytes data) else k
  let k := if s.post then k.setK l s.kr (m.filterKey ((k.k l s.kr).advance 8)) else k
  m.setCore c k

/-- What a pair whose memory op `s` is answered later keeps until then (R177, R220). -/
def Mod.pairWait (m : Mod) (c : Nat) (a b s : ShortOp) (inB : Bool) (ea eb : SlotEff) : PairWait :=
  let out := fun (e : SlotEff) => (e.d.map (fun x => (0, x.1, x.2))).toList ++ (e.f.map (fun x => (1, x.1, x.2))).toList
  let fl := fun (e : SlotEff) (inB : Bool) => (e.fl.bits, m.enabledFlags c e.fl != 0, inB)
  ⟨s, inB, out ea ++ out eb, [fl ea false, fl eb true], a.writes ++ b.writes ++ (if a.isArith || b.isArith then [(3, 0)] else [])⟩

/-- The results a pair kept are written at level `l`, and its flags set (R177, R203, R220). -/
def Mod.pairDone (m : Mod) (c l fip : Nat) (x : PairWait) : Mod :=
  let m := m.each x.outs (fun m o => m.setCore c (if o.1 = 0 then (m.core c).setD l o.2.1 o.2.2 else (m.core c).setFr l o.2.1 o.2.2))
  m.each x.flags (fun m f => m.slotFlags c l fip f.1 f.2.1 f.2.2)

/-- PAIR (R176, R177): both slots read, a fault of either stops both, then both write. -/
def bodyPair (a b : ShortOp) : Body := fun m c =>
  if !slotLegal a then .exc m ⟨0x01, 1, 0⟩ true false
  else if !slotLegal b then .exc m ⟨0x01, 1, 0⟩ true true
  else if illegalPair a b then .exc m ⟨0x01, 2, 0⟩ true false
  else
    let m := m.iff (a.isFp || b.isFp) (fun m => m.fpOwn c)
    let w := (m.core c).ip.cursor
    let l := (m.core c).level
    let ea := m.slotEff c a
    let eb := m.slotEff c b
    let fpA := m.fpTraps c ea.fl
    let fpB := m.fpTraps c eb.fl
    let finish := fun (m : Mod) =>
      ((m.slotWrite c l ea).slotWrite c l eb |>.slotFlags c l w ea.fl.bits (m.enabledFlags c ea.fl != 0) false).slotFlags c l w eb.fl.bits
        (m.enabledFlags c eb.fl != 0) true
    let close := fun (m : Mod) (sent : Bool) =>
      match eb.branch with
      | some (some n) =>
        (match takeBranch m c n with
        | .jump m ip => if sent then .sentJump m ip else .jump m ip
        | o => o)
      | some none =>
        let k := m.core c
        let m := m.setCore c (k.btbAfter k.ip.cursor 0 false)
        if sent then .sent m else .seq m
      | none => if sent then IOut.sent m else .seq m
    let mem := if a.isMem then some (a, false) else if b.isMem then some (b, true) else none
    match mem with
    | none =>
      if fpA then .exc m ⟨0x07, 0, 0⟩ true false
      else if fpB then .exc m ⟨0x07, 0, 0⟩ true true
      else close (finish m) false
    | some (s, inB) =>
      match m.slotCheck c s with
      | .error e => if inB && fpA then .exc m ⟨0x07, 0, 0⟩ true false else .exc m e true inB
      | .ok adr =>
        if fpA then .exc m ⟨0x07, 0, 0⟩ true false
        else if fpB then .exc m ⟨0x07, 0, 0⟩ true true
        else
          let epoch := (m.ck c s.kr).epoch
          if s.isLoad then
            match m.coreRead c adr 8 epoch (m.core c).sys with
            | .got m d _ => close ((finish m).slotMemDone c l s d) false
            | .fault m e => .exc m e true inB
            | .hold m => .stay m
            | .sent m tid => close (m.await c tid (.pair (m.pairWait c a b s inB ea eb)) adr) true
          else
            let v := if s.n = 25 then m.cd c s.ra else m.cf c s.ra
            match m.coreStore c adr (leBytes 8 v) none epoch (some inB) with
            | .done m => close ((finish m).slotMemDone c l s []) false
            | .fault m e => .exc m e true inB
            | .hold m => .stay m
            | .sent m tid => close (m.await c tid (.pair (m.pairWait c a b s inB ea eb)) adr) true

end Sys2Proof.Machine
end

