-- ==== Sys2Proof/Machine/CoreSys.lean ====
section
/-!
DEFINITION. Sys2Proof/Machine/CoreSys.lean: the system, bank and context bodies of a Lurik core (R171, R190, R191,
R197 to R202, R205, R213 to R215, R222, R223, R227 to R229).
-/
namespace Sys2Proof.Machine

/-! ### System registers (R171, R229) -/

/-- The bits of a list of levels. -/
def levelBits (ls : List Nat) : Nat := ls.foldl (fun a l => a ||| 2 ^ l) 0

/-- The levels of a core with something pending (R212). -/
def Core.pendingLevels (k : Core) : List Nat := k.pendEv.map Prod.snd ++ k.pendExc.map PendExc.level

/-- Which of CAUSE, FIP and FADDR of which level a number names (R229). -/
def excRegOf (num cur : Nat) : Option (Nat × Nat) :=
  if 0x101 ≤ num ∧ num ≤ 0x103 then some (cur, num - 0x101)
  else if 0x200 ≤ num ∧ num < 0x290 ∧ num % 16 < 3 then some ((num - 0x200) / 16, num % 16)
  else none

def Core.excReg (k : Core) (l r : Nat) : Nat :=
  let b := k.bank l
  (if r = 0 then b.cause else if r = 1 then b.fip else b.faddr).toNat
def Core.setExcReg (k : Core) (l r v : Nat) : Core :=
  let b := k.bank l
  k.setBank l (if r = 0 then { b with cause := BitVec.ofNat 64 (v % 2 ^ 39) } else if r = 1 then { b with fip := BitVec.ofNat 64 v } else { b with faddr := BitVec.ofNat 64 v })

/-- The value of a system register that the module's time is not part of; none for a number no chapter defines. -/
def Core.sysReg (k : Core) (num : Nat) : Option Nat :=
  let l := k.level
  if num = 0x001 then some k.fpcsr.toNat
  else if num = 0x002 then some (k.stField l 0 5)
  else if 0x010 ≤ num ∧ num ≤ 0x01B then some (k.loopReg l ((num - 0x10) / 4) (num % 4))
  else if num = 0x021 then some k.retired
  else if num = 0x100 then some (k.status l)
  else if num = 0x110 then some k.bankPin
  else if num = 0x111 then some k.excLevel
  else if num = 0x112 then some (levelBits k.pendingLevels)
  else if num = 0x113 then some (levelBits k.active)
  else if num = 0x114 then some (k.resident.reverse.foldl (fun a b => a * 16 + b) 0)
  else if num = 0x115 then some k.fpres
  else if num = 0x120 then some 0
  else (excRegOf num l).map (fun e => k.excReg e.1 e.2)

/-- CYCLE (R171): core cycles of 1.6 GHz since the core left reset. -/
def Mod.cycles (m : Mod) (c : Nat) : Nat := (m.mono - (m.core c).cyc0) * 8 / 5

/-- SRD (R171). -/
def bodySrd (rd num : Nat) : Body := fun m c =>
  if num ≥ 0x100 && !(m.core c).sys then illegal m 3
  else
    let m := m.iff (num == 0x001) (fun m => m.fpOwn c)
    if num = 0x020 then .seq (m.setCd c rd (m.cycles c % 2 ^ 64))
    else match (m.core c).sysReg num with
      | some v => .seq (m.setCd c rd (v % 2 ^ 64))
      | none => illegal m 7

/-- A reserved encoding written to a field of a core's system register is kept out and reported (R7, R494). -/
def Mod.sysReserved (m : Mod) (c num : Nat) : Mod := m.cellFault (coreRegion c) 0x02 (coreRegion c) 0 num c

/-- A write of EXC_LEVEL (R222): fields with values 9 to 15 keep theirs. -/
def excLevelAfter (old v : Nat) : Nat :=
  (upTo 9).foldl (fun a i =>
    let c := i + 1
    let h := bitsOf v (4 * c) 4
    if h ≤ 8 then withBits a (4 * c) 4 h else a) old

/-- The number of bits set in BANK_PIN. -/
def pinCount (v : Nat) : Nat := (setBits 8 v).length

/-- Level `l` made resident in core `c` by a spill: the victim's image holds good data again, and a failed read-in costs the level the tag of its
resume ip (R215, R217, R225). -/
def Mod.bringIn (m : Mod) (c l : Nat) : Mod :=
  let bad := m.spillFails c l
  let m := (m.spilled c l).setCore c ((m.core c).makeResident l)
  if bad then (m.unspoil (bankImage c l) 0x240).setCore c ((m.core c).untagIp l) else m

/-- BANK_PIN written (R215): the bank of a level pinned no longer is spilled at once, the current level's excepted, and newly pinned levels become
resident. (That an unpinned level leaves its bank empty until the next entry is the model's reading, log entry 82.) -/
def Mod.pin (m : Mod) (c v : Nat) : Mod :=
  let k := m.core c
  let gone := (upTo 8).filter (fun l => k.pinned l && !bitAt v l && l != k.level && k.resident.contains l)
  let m := m.setCore c { k with bankPin := v % 256, resident := k.resident.map (fun l => if gone.contains l then 15 else l) }
  (m.each gone (fun m l => m.unspoil (bankImage c l) 0x240)).each (setBits 8 v) (fun m l => m.bringIn c l)

/-- SWR (R171, R190, R191, R215, R222, R228, R229). -/
def bodySwr (rs1 num : Nat) : Body := fun m c =>
  let k := m.core c
  let l := k.level
  let v := m.cd c rs1
  if num ≥ 0x100 && !k.sys then illegal m 3
  else if num = 0x001 then
    let m := m.fpOwn c
    let k := m.core c
    let bad := decide (bitsOf v 0 3 ≥ 4)
    let v := if bad then withBits v 0 3 k.fpcsr.toNat else v
    .seq ((m.setCore c { k with fpcsr := BitVec.ofNat 32 (v % 2 ^ 13) }).iff bad (fun m => m.sysReserved c num))
  else if num = 0x002 then .seq (m.setCore c (k.setSt l 0 4 v))
  else if 0x010 ≤ num ∧ num ≤ 0x017 then
    (if k.lact l (num % 4) then illegal m 5 else .seq (m.setCore c (k.setLoopReg l ((num - 0x10) / 4) (num % 4) v)))
  else if 0x018 ≤ num ∧ num ≤ 0x01B then .seq (m.setCore c (k.setLoopReg l 2 (num % 4) v))
  else if num = 0x100 then .seq (m.setCore c (k.writeStatus l v))
  else if num = 0x110 then
    (if pinCount v > 4 || k.active.any (fun a => a != l && a != 0) then illegal m 7 else .seq (m.pin c v))
  else if num = 0x111 then
    let bad := (upTo 9).any (fun i => decide (bitsOf v (4 * (i + 1)) 4 > 8))
    .seq ((m.setCore c { k with excLevel := excLevelAfter k.excLevel v }).iff bad (fun m => m.sysReserved c num))
  else if num = 0x120 then .seq (m.setCore c { k with btb := [] })
  else match excRegOf num l with
    | some (n, r) => .seq (m.setCore c (k.setExcReg n r v))
    | none => illegal m 7

/-! ### Ordering and waiting (R205, R213) -/

/-- Every access of a core acknowledged: its store buffer empty and nothing awaited. -/
def Core.quiet (k : Core) : Bool := k.sb.isEmpty && k.waits.isEmpty

/-- FENCE, and GATE.SYNC, whose entry applies and epoch advances take effect here as they are written. -/
def bodyFence : Body := fun m c =>
  let m := m.drain c
  if (m.core c).quiet then .seq m else .stay m

/-- Whether a source pending at the current level ends an EWAIT (R213). -/
def Core.wakes (k : Core) : Bool := k.pendEv.any (fun e => e.2 == k.level)

/-- EWAIT. -/
def bodyEwait : Body := fun m c =>
  let k := m.core c
  .seq (m.setCore c { k with waiting := !k.wakes })

/-- The request of level `l` taken: an exception before an event, events in ascending source number (R213); a failed spill enters M instead,
and the request stays pending (R225). -/
def Mod.takeLevel (m : Mod) (c l : Nat) (err : Bool := false) : Mod :=
  let k := m.core c
  if m.spillFails c l err then m.spillFailure c l k.ip.cursor
  else
    match k.pendExc.find? (·.level == l) with
    | some e => ((m.spilled c l).setCore c ({ k with pendExc := k.pendExc.erase e }.enter l e.cause.toNat e.fip.toNat e.faddr.toNat)).noteEntry c k.level l
        (!k.resident.contains l) (some e) none
    | none =>
      let srcs := (k.pendEv.filter (·.2 == l)).map Prod.fst
      match srcs.head? with
      | none => m
      | some n0 =>
        let n := srcs.foldl Nat.min n0
        let before := Tbl.get (0, false) k.last l
        let k := { k with pendEv := k.pendEv.filter (·.1 != n), last := Tbl.set (0, false) k.last l (n, true) }
        (((m.spilled c l).setCore c (k.enter l (causeOf 0 0 false false k.level 0 n false) k.ip.cursor 0)).noteEntry c k.level l (!k.resident.contains l)
          none (some (n, before))).claim c n

/-- The source that the request of level `l` takes: the lowest one pending there, none where an exception is pending (R213). -/
def Core.nextSource (k : Core) (l : Nat) : Option Nat :=
  if k.pendExc.any (·.level == l) then none
  else
    let srcs := (k.pendEv.filter (·.2 == l)).map Prod.fst
    srcs.head?.map (fun n => srcs.foldl Nat.min n)

/-- Whether the highest pending level may be taken over the current one (R213). -/
def Core.calls (k : Core) : Bool := !k.pendingLevels.isEmpty && k.takes (maxLevel k.pendingLevels) k.level

/-- Whether core `c` can act at all. -/
def Mod.coreRuns (m : Mod) (c : Nat) : Bool :=
  let k := m.core c
  !k.inReset && !k.halted && !k.debugHalt && m.domOn c && !m.rgnDown (c / 8)

/-- Whether core `c'` is about to take source `n`. -/
def Mod.claims (m : Mod) (c' n : Nat) : Bool :=
  m.coreRuns c' && (m.core c').calls && (m.core c').nextSource (maxLevel (m.core c').pendingLevels) == some n

/-- Core `c` before an ERET's take: of the first-claim sources it would take, those are denied, and their bits cleared, which a core of a lower number is
about to take; its claim stands no later than the ERET's own, whose t3 lies 3 cycles after its issue (R214, R218, R455). -/
def Mod.denyClaims (m : Mod) (c : Nat) : Nat → Mod
  | 0 => m
  | fuel + 1 =>
    match if (m.core c).calls then (m.core c).nextSource (maxLevel (m.core c).pendingLevels) else none with
    | some n => if m.flag F.EVR_ROUTE_HI_FIRST n && (upTo c).any (fun c' => m.claims c' n) then (m.evdUnpend c n).denyClaims c fuel else m
    | none => m

/-- ERET (R214): the highest remaining level resumes, unless a request is taken over it first. -/
def bodyEret : Body := fun m c =>
  let k := m.core c
  if !k.sys then illegal m 3
  else if k.level = 0 then .jump m (k.ip.advance 4)
  else
    let m := (m.setCore c k.quit).denyClaims c 256
    let k := m.core c
    let m := if k.calls then m.takeLevel c (maxLevel k.pendingLevels)
      else if m.spillFails c k.level then m.spillFailure c k.level k.ip.cursor
      else (m.spilled c k.level).setCore c (k.makeResident k.level)
    .jump m (m.core c).ip

/-- TRAP (R205, R221): the resume ip is the word after. -/
def bodyTrap : Body := fun m c =>
  let k := m.core c
  .excAt (m.setCore c { k with ip := k.ip.advance 4 }) ⟨0x08, 0, 0⟩ k.ip.cursor false false

/-! ### Bank access (R202) -/

/-- Whether a selector is assigned. -/
def selOk (sel : Nat) : Bool := decide (sel < 0x2D) || (decide (0x40 ≤ sel) && decide (sel ≤ 0x50))

/-- The checks common to BANKRD and BANKWR: the illegal-opcode subcode, if any. -/
def Core.bankFault (k : Core) (r n sel : Nat) : Option Nat :=
  if !selOk sel || (decide (sel ≥ 0x40) && decide (r ≥ 16)) then some 1
  else if !k.sys then some 3
  else if n > 8 || (sel == 0x50 && n == k.level) then some 8
  else none

/-- Whether the register of level `n` that a selector names is still to be written by an awaited access (R175, R220). -/
def Core.selAwaited (k : Core) (n sel : Nat) : Bool :=
  k.awaits n || (n == k.level && k.barred (if sel < 0x20 then [(0, sel)] else if 0x40 ≤ sel ∧ sel < 0x50 then [(2, sel - 0x40)] else []))

/-- BANKRD. -/
def bodyBankrd (r n sel : Nat) : Body := fun m c =>
  let k := m.core c
  match k.bankFault r n sel with
  | some e => illegal m e
  | none =>
    if k.selAwaited n sel then .stay m
    else if sel < 0x20 then .seq (m.setCd c r (k.d n sel))
    else if sel < 0x2C then .seq (m.setCd c r (k.loopReg n ((sel - 0x20) / 4) (sel % 4)))
    else if sel = 0x2C then .seq (m.setCd c r (k.status n))
    else if sel < 0x50 then .seq (m.setCk c r (k.k n (sel - 0x40)))
    else .seq (m.setCk c r (k.bank n).ip)

/-- A level's resume ip replaced, through an active sweep's filter. -/
def Mod.setResume (m : Mod) (c n : Nat) (v : Key) : Mod :=
  let k := m.core c
  m.setCore c (k.setBank n { k.bank n with ip := m.filterKey v })

/-- BANKWR. -/
def bodyBankwr (r n sel : Nat) : Body := fun m c =>
  let k := m.core c
  let v := m.cd c r
  match k.bankFault r n sel with
  | some e => illegal m e
  | none =>
    if k.selAwaited n sel then .stay m
    else if sel < 0x20 then .seq (m.setCore c (k.setD n sel v))
    else if sel < 0x2C then .seq (m.setCore c (k.setLoopReg n ((sel - 0x20) / 4) (sel % 4) v))
    else if sel = 0x2C then .seq (m.setCore c (k.writeStatus n v))
    else if sel < 0x50 then .seq (m.setCore c (k.setK n (sel - 0x40) (m.filterKey (m.ck c r))))
    else .seq (m.setResume c n (m.ck c r))

/-! ### Context save and load (R197 to R201) -/

/-- The granules of a half of the save area, in order: LO from the LINK, HI from k0, its FLAGS granule last; the FP granules
only with `fp`. -/
def ctxOffsets (hi fp : Bool) : List Nat :=
  if hi then (upTo 16).map (fun i => 0x190 + 16 * i) ++ (if fp then (upTo 16).map (fun i => 0x290 + 16 * i) else []) ++ [0x390]
  else (upTo 25).map (fun i => 16 * i)

/-- Two 64-bit words as a granule. -/
def granule (a b : Nat) : List Byte := leBytes 8 a ++ leBytes 8 b

/-- What a save writes at a granule: its bytes, or the key. -/
def Core.ctxGranule (k : Core) (n off : Nat) (link : Key) : List Byte ⊕ Key :=
  let two := fun (f : Nat → Nat) (i : Nat) => Sum.inl (granule (f i) (f (i + 1)))
  let own := k.stField n 22 1 == 1
  if off = 0 then .inr link
  else if off = 0x10 then .inr (k.bank n).ip
  else if off = 0x20 then .inl (granule (k.status n) 0)
  else if off < 0x90 then two (fun i => k.loopReg n (i / 4) (i % 4)) ((off - 0x30) / 8)
  else if off < 0x190 then two (k.d n) ((off - 0x90) / 8)
  else if off < 0x290 then .inr (k.k n ((off - 0x190) / 16))
  else if off < 0x390 then two (k.fr n) ((off - 0x290) / 8)
  else if own then .inl (granule (k.fpOf n).fpcsr.toNat 1)
  else .inl (granule 0 0)

/-- The checks of R199, in their order: the fault, or the address of the area. -/
def Mod.ctxCheck (m : Mod) (c kb n rights : Nat) : Except Exc Nat :=
  let k := m.core c
  let b := m.ck c kb
  let bad := fun (s : Nat) => Except.error (Exc.mk 0x02 s b.cursor)
  if !k.sys then .error ⟨0x01, 3, 0⟩
  else if n > 8 || n == k.level then .error ⟨0x01, 8, 0⟩
  else if !b.live then bad kfTAG
  else if b.otype ≠ 0 then bad kfSEALED
  else if b.cursor % 16 ≠ 0 then bad kfALIGN
  else if b.cursor < b.lo ∨ b.cursor + 928 > b.hi then bad kfBOUNDS
  else if !b.has rights then bad kfRIGHTS
  else if b.loc ≠ 0 && !m.isLocal b.cursor then bad kfLOCALITY
  else .ok b.cursor

/-- The granules of a save from one on; a granule for another node is awaited. -/
def ctxSaveFrom (c fn n kb other area : Nat) (done : List (List Byte × Bool)) : List Nat → Mod → IOut
  | [], m => .seq m
  | o :: rest, m =>
    let k := m.core c
    let b := m.ck c kb
    let ea := area + o
    let g := k.ctxGranule n o (m.ck c other)
    let (bytes, key, bad) := match g with
      | .inl bs => (bs, none, none)
      | .inr v => (v.bytes, some v.live, m.savedKeyFault ea v)
    match bad with
    | some e => .exc m ⟨0x02, e, ea⟩ false false
    | none =>
      if m.isLocal ea then
        match m.storeLocal c (ea % 2 ^ 52) bytes key b.epoch k.sys with
        | (m, none) => ctxSaveFrom c fn n kb other area (done ++ [([], false)]) rest m
        | (m, some kind) => .exc m ⟨0x06, kind, ea⟩ false false
      else match m.sendStore (.core c) ea bytes (m.storeTags ea bytes key) b.epoch m.coreDeadline with
        | (m, .ok tid) => .stay (m.await c tid (.ctx fn n kb other done) ea)
        | (m, .error kind) => .exc m ⟨0x06, kind, ea⟩ false false

/-- CTXSAVE.LO and CTXSAVE.HI: functions 0 and 1. -/
def bodyCtxsave (fn other kb n : Nat) : Body := fun m c =>
  match m.ctxCheck c kb n (rST ||| rSK ||| rSKL) with
  | .error e => .exc m e false false
  | .ok area =>
    let m := m.drain c
    if m.holdsWord c || (m.core c).awaits n then .stay m
    else ctxSaveFrom c fn n kb other area [] (ctxOffsets (fn == 1) ((m.core c).stField n 22 1 == 1)) m

/-- The granules a load reads: FLAGS before the FP granules. -/
def ctxReads (hi : Bool) : List Nat :=
  if hi then (upTo 16).map (fun i => 0x190 + 16 * i) ++ [0x390] else ctxOffsets false false

/-- The word of 8 bytes at an offset of what was read. -/
def ctxWord (offs : List Nat) (got : List (List Byte × Bool)) (off : Nat) : Nat :=
  match (offs.zip got).find? (fun e => e.1 == off - off % 16) with
  | some e => ofLeBytes ((e.2.1.drop (off % 16)).take 8)
  | none => 0

/-- The key at an offset of what was read (R152, R200). -/
def Mod.ctxKey (m : Mod) (offs : List Nat) (got : List (List Byte × Bool)) (off : Nat) : Key :=
  match (offs.zip got).find? (fun e => e.1 == off) with
  | some e => m.restoredKey e.2.1 e.2.2
  | none => {}

/-- The registers of level `n` written once every read has succeeded (R200, R201); a reserved rounding mode is kept out and reported (R7, R170). -/
def Mod.ctxLoaded (m : Mod) (c fn n kd : Nat) (got : List (List Byte × Bool)) : Mod :=
  let k := m.core c
  if fn = 2 then
    let offs := ctxReads false
    let w := ctxWord offs got
    let k := k.setBank n { k.bank n with ip := m.ctxKey offs got 0x10 }
    let k := k.writeStatus n (w 0x20) false
    let k := (upTo 12).foldl (fun k i => k.setLoopReg n (i / 4) (i % 4) (w (0x30 + 8 * i))) k
    let k := (upTo 32).foldl (fun k i => k.setD n i (w (0x90 + 8 * i))) k
    let link := m.ctxKey offs got 0
    m.setCore c (k.setK k.level kd link)
  else
    let fp := ctxReads true ++ (upTo 16).map (fun i => 0x290 + 16 * i)
    let w := ctxWord fp got
    let k := (upTo 16).foldl (fun k i => k.setK n i (m.ctxKey fp got (0x190 + 16 * i))) k
    if bitAt (w 0x398) 0 then
      let bad := decide (bitsOf (w 0x390) 0 3 ≥ 4)
      let csr := if bad then withBits (w 0x390) 0 3 (k.fpOf n).fpcsr.toNat else w 0x390
      let img : FpState := (upTo 32).foldl (fun s i => s.put i (w (0x290 + 8 * i))) { fpcsr := BitVec.ofNat 32 (csr % 2 ^ 13) }
      (m.setCore c (k.setFpOf n img)).iff bad (fun m => m.sysReserved c 0x001)
    else
      m.setCore c (k.writeStatus n (withBits (k.status n) 22 1 0))

/-- The granules of a load from one on; the FP granules follow when FLAGS says so. -/
def ctxLoadFrom (c fn n kb kd area : Nat) : Nat → List (List Byte × Bool) → Mod → IOut
  | 0, got, m => .seq (m.ctxLoaded c fn n kd got)
  | fuel + 1, got, m =>
    let base := ctxReads (fn == 3)
    let more := fn == 3 && decide (got.length ≥ 17) && bitAt (ctxWord base got 0x398) 0
    let offs := base ++ (if more then (upTo 16).map (fun i => 0x290 + 16 * i) else [])
    match offs[got.length]? with
    | none => .seq (m.ctxLoaded c fn n kd got)
    | some o =>
      match m.coreRead c (area + o) 16 (m.ck c kb).epoch (m.core c).sys true with
      | .got m d t => ctxLoadFrom c fn n kb kd area fuel (got ++ [(d, t)]) m
      | .fault m e => .exc m e false false
      | .hold m => .stay m
      | .sent m tid => .stay (m.await c tid (.ctx fn n kb kd got) (area + o))

/-- CTXLOAD.LO and CTXLOAD.HI: functions 2 and 3. -/
def bodyCtxload (fn kd kb n : Nat) : Body := fun m c =>
  match m.ctxCheck c kb n (rLD ||| rLK) with
  | .error e => .exc m e false false
  | .ok area =>
    let m := m.drain c
    if m.holdsWord c || (m.core c).awaits n then .stay m
    else ctxLoadFrom c fn n kb kd area 40 [] m

/-- A context instruction goes on when the answer for a granule at another node has come. -/
def ctxResume (c fn n kb other area : Nat) (got : List (List Byte × Bool)) (m : Mod) : IOut :=
  if fn < 2 then
    ctxSaveFrom c fn n kb other area got ((ctxOffsets (fn == 1) ((m.core c).stField n 22 1 == 1)).drop got.length) m
  else ctxLoadFrom c fn n kb other area 40 got m

end Sys2Proof.Machine
end

