-- ==== Sys2Proof/Machine/CoreRep.lean ====
section
/-!
DEFINITION. Sys2Proof/Machine/CoreRep.lean: REP (R192, R193).
-/
namespace Sys2Proof.Machine

/-- The body of a target REP may repeat (R193); none for every other command. -/
def repBody (i : Instr) : Option Body :=
  match i with
  | .add _ rd rs1 rs2 => some (bodyAlu .add rd rs1 rs2)
  | .sub _ rd rs1 rs2 => some (bodyAlu .sub rd rs1 rs2)
  | .and _ rd rs1 rs2 => some (bodyAlu .and rd rs1 rs2)
  | .or _ rd rs1 rs2 => some (bodyAlu .or rd rs1 rs2)
  | .xor _ rd rs1 rs2 => some (bodyAlu .xor rd rs1 rs2)
  | .sll _ rd rs1 rs2 => some (bodyAlu .sll rd rs1 rs2)
  | .srl _ rd rs1 rs2 => some (bodyAlu .srl rd rs1 rs2)
  | .sra _ rd rs1 rs2 => some (bodyAlu .sra rd rs1 rs2)
  | .slt _ rd rs1 rs2 => some (bodyAlu .slt rd rs1 rs2)
  | .sltu _ rd rs1 rs2 => some (bodyAlu .sltu rd rs1 rs2)
  | .min _ rd rs1 rs2 => some (bodyAlu .min rd rs1 rs2)
  | .max _ rd rs1 rs2 => some (bodyAlu .max rd rs1 rs2)
  | .minu _ rd rs1 rs2 => some (bodyAlu .minu rd rs1 rs2)
  | .maxu _ rd rs1 rs2 => some (bodyAlu .maxu rd rs1 rs2)
  | .mul _ rd rs1 rs2 => some (bodyAlu .mul rd rs1 rs2)
  | .mulh _ rd rs1 rs2 => some (bodyAlu .mulh rd rs1 rs2)
  | .mulhu _ rd rs1 rs2 => some (bodyAlu .mulhu rd rs1 rs2)
  | .div _ rd rs1 rs2 => some (bodyAlu .div rd rs1 rs2)
  | .divu _ rd rs1 rs2 => some (bodyAlu .divu rd rs1 rs2)
  | .rem _ rd rs1 rs2 => some (bodyAlu .rem rd rs1 rs2)
  | .remu _ rd rs1 rs2 => some (bodyAlu .remu rd rs1 rs2)
  | .addi _ rd rs1 imm => some (bodyAluImm .add rd rs1 (sext 14 imm.toNat))
  | .slti _ rd rs1 imm => some (bodyAluImm .slt rd rs1 (sext 14 imm.toNat))
  | .sltiu _ rd rs1 imm => some (bodyAluImm .sltu rd rs1 (sext 14 imm.toNat))
  | .andi _ rd rs1 imm => some (bodyAluImm .and rd rs1 imm.toNat)
  | .ori _ rd rs1 imm => some (bodyAluImm .or rd rs1 imm.toNat)
  | .xori _ rd rs1 imm => some (bodyAluImm .xor rd rs1 imm.toNat)
  | .slli _ rd rs1 sh => some (bodyAluImm .sll rd rs1 sh.toNat)
  | .srli _ rd rs1 sh => some (bodyAluImm .srl rd rs1 sh.toNat)
  | .srai _ rd rs1 sh => some (bodyAluImm .sra rd rs1 sh.toNat)
  | .insi _ n rd rs1 imm => some (bodyInsi n rd rs1 imm.toNat)
  | .ldb _ r kb off => some (bodyLoad 1 true r kb off.toNat)
  | .ldbu _ r kb off => some (bodyLoad 1 false r kb off.toNat)
  | .ldh _ r kb off => some (bodyLoad 2 true r kb off.toNat)
  | .ldhu _ r kb off => some (bodyLoad 2 false r kb off.toNat)
  | .ldw _ r kb off => some (bodyLoad 4 true r kb off.toNat)
  | .ldwu _ r kb off => some (bodyLoad 4 false r kb off.toNat)
  | .ldd _ r kb off => some (bodyLoad 8 false r kb off.toNat)
  | .ldf _ r kb off => some (bodyLdf r kb off.toNat)
  | .stb _ r kb off => some (bodyStore 1 r kb off.toNat)
  | .sth _ r kb off => some (bodyStore 2 r kb off.toNat)
  | .stw _ r kb off => some (bodyStore 4 r kb off.toNat)
  | .std _ r kb off => some (bodyStore 8 r kb off.toNat)
  | .stf _ r kb off => some (bodyStf r kb off.toNat)
  | .ldk _ kd kb off => some (bodyLdk kd kb off.toNat)
  | .stk _ ks kb off => some (bodyStk ks kb off.toNat)
  | .kmove _ kd ks => some (bodyKmove kd ks)
  | .kadd _ kd ks rs => some (bodyKadd kd ks rs)
  | .kbound _ kd ks rs => some (bodyKbound true kd ks rs)
  | .kboundr _ kd ks rs => some (bodyKbound false kd ks rs)
  | .krights _ kd ks rs => some (bodyKrights kd ks rs)
  | .kloc _ kd ks rs => some (bodyKloc kd ks rs)
  | .kseal _ kd ks kt => some (bodyKseal kd ks kt)
  | .kunseal _ kd ks kt => some (bodyKunseal kd ks kt)
  | .kreepoch _ kd ks rs => some (bodyKreepoch kd ks rs)
  | .ktest _ rd ks kt => some (bodyKtest rd ks kt)
  | .kget _ rd ks f => some (bodyKget rd ks f)
  | .fadd _ single fd fs1 fs2 => some (bodyFp (effFop .add single fd fs1 fs2))
  | .fsub _ single fd fs1 fs2 => some (bodyFp (effFop .sub single fd fs1 fs2))
  | .fmul _ single fd fs1 fs2 => some (bodyFp (effFop .mul single fd fs1 fs2))
  | .fdiv _ single fd fs1 fs2 => some (bodyFp (effFop .div single fd fs1 fs2))
  | .fmin _ single fd fs1 fs2 => some (bodyFp (effFop .min single fd fs1 fs2))
  | .fmax _ single fd fs1 fs2 => some (bodyFp (effFop .max single fd fs1 fs2))
  | .fma _ single fd fs1 fs2 => some (bodyFp (effFma single fd fs1 fs2))
  | .fsqrt _ single fd fs1 => some (bodyFp (effSqrt single fd fs1))
  | .fmov _ fd fs1 => some (bodyFp (effMove 0 fd fs1))
  | .fneg _ fd fs1 => some (bodyFp (effMove 1 fd fs1))
  | .fabs _ fd fs1 => some (bodyFp (effMove 2 fd fs1))
  | .fcmpEq _ single rd fs1 fs2 => some (bodyFp (effCmp .eq single rd fs1 fs2))
  | .fcmpLt _ single rd fs1 fs2 => some (bodyFp (effCmp .lt single rd fs1 fs2))
  | .fcmpLe _ single rd fs1 fs2 => some (bodyFp (effCmp .le single rd fs1 fs2))
  | .fcmpUn _ single rd fs1 fs2 => some (bodyFp (effCmp .un single rd fs1 fs2))
  | .fcvtDL _ single fd rs1 => some (bodyFp (effOfInt single fd rs1))
  | .fcvtLD _ single rd fs1 => some (bodyFp (effToInt single rd fs1))
  | .fcvtDS _ fd fs1 => some (bodyFp (effToDouble fd fs1))
  | .fcvtSD _ fd fs1 => some (bodyFp (effToSingle fd fs1))
  | .fmvX _ rd fs1 => some (bodyFp (effMvX rd fs1))
  | .fmvF _ fd rs1 => some (bodyFp (effMvF fd rs1))
  | .pair _ a b => if a.isBranch || b.isBranch then none else some (bodyPair a b)
  | _ => none

/-- The end of one repetition on core `c`: the count, and ip at the target if it was the last, else at REP. -/
def repDone (m : Mod) (c rs1 : Nat) (rep : Key) : IOut :=
  if !(m.core c).word then .stay m
  else
    let m := (m.setCd c rs1 (m.cd c rs1 - 1))
    let m := m.setCore c { m.core c with retired := (m.core c).retired + 1 }
    if m.cd c rs1 = 0 then .seq m else .stay (m.setCore c { m.core c with ip := rep })

/-- REP: one repetition of the target word (R192). -/
def bodyRep (rs1 target : Nat) : Body := fun m c =>
  let k := m.core c
  let w := k.ip.cursor
  let rep := k.ip
  let was := k.waits
  let at_ := fun (m : Mod) => m.setCore c { m.core c with ip := rep.advance 4 }
  let back := fun (m : Mod) => if (m.core c).word then m.setCore c { m.core c with ip := rep } else m
  let i := decodeWord ⟨c % 32, Nat.mod_lt _ (by decide)⟩ target 0
  let body := i.bind repBody
  if (upTo 4).any (fun n => k.lact k.level n && k.loopReg k.level 1 n == w) then illegal m 6
  else if (match i with
    | some x => body.isNone || x.uses.contains (0, rs1)
    | none => false) then illegal m 6
  else if k.d k.level rs1 = 0 then .seq (at_ m)
  else
    match (at_ m).fetchFault c with
    | (m, some e) => .excAt (back m) e (w + 4) false false
    | (m, none) =>
      if !(m.core c).word then .stay m
      else match body with
      | some b =>
        (match b m c with
        | .seq m => repDone m c rs1 rep
        | .exc m e pair slotB => .excAt (back m) e (w + 4) pair slotB
        | .sent m =>
          let k := m.core c
          .stay (m.setCore c { k with ip := rep, waits := k.waits.map (fun x => if was.contains x then x else { x with word := rep, rep := some rs1 }) })
        | .stay m => .stay (back m)
        | o => o)
      | none => .excAt (back m) ⟨0x01, 1, 0⟩ (w + 4) (bitAt target 31) (bitAt target 31 && slotLegal (slotAt target 16))

end Sys2Proof.Machine
end

