-- ==== Sys2Proof/Machine/Branches.lean ====
section
/-!
DEFINITION. Sys2Proof/Machine/Branches.lean: the meanings of the branches, jumps, loops and REP (R186 to R193): each issues its word on its core.
-/
namespace Sys2Proof.Machine

/-- BEQ rs1, rs2, offset14 (R186, R189). -/
def execBeq (c : CoreId) (rs1 rs2 : DReg) (off : BitVec 14) (s : State) : Host.Outcome State Fault Refusal :=
  s.act (fun m => m.issue c (Instr.uses (.beq c rs1 rs2 off)) (bodyBranch .eq rs1 rs2 off.toNat))

/-- BNE rs1, rs2, offset14 (R186, R189). -/
def execBne (c : CoreId) (rs1 rs2 : DReg) (off : BitVec 14) (s : State) : Host.Outcome State Fault Refusal :=
  s.act (fun m => m.issue c (Instr.uses (.bne c rs1 rs2 off)) (bodyBranch .ne rs1 rs2 off.toNat))

/-- BLT rs1, rs2, offset14 (R186, R189). -/
def execBlt (c : CoreId) (rs1 rs2 : DReg) (off : BitVec 14) (s : State) : Host.Outcome State Fault Refusal :=
  s.act (fun m => m.issue c (Instr.uses (.blt c rs1 rs2 off)) (bodyBranch .lt rs1 rs2 off.toNat))

/-- BGE rs1, rs2, offset14 (R186, R189). -/
def execBge (c : CoreId) (rs1 rs2 : DReg) (off : BitVec 14) (s : State) : Host.Outcome State Fault Refusal :=
  s.act (fun m => m.issue c (Instr.uses (.bge c rs1 rs2 off)) (bodyBranch .ge rs1 rs2 off.toNat))

/-- BLTU rs1, rs2, offset14 (R186, R189). -/
def execBltu (c : CoreId) (rs1 rs2 : DReg) (off : BitVec 14) (s : State) : Host.Outcome State Fault Refusal :=
  s.act (fun m => m.issue c (Instr.uses (.bltu c rs1 rs2 off)) (bodyBranch .ltu rs1 rs2 off.toNat))

/-- BGEU rs1, rs2, offset14 (R186, R189). -/
def execBgeu (c : CoreId) (rs1 rs2 : DReg) (off : BitVec 14) (s : State) : Host.Outcome State Fault Refusal :=
  s.act (fun m => m.issue c (Instr.uses (.bgeu c rs1 rs2 off)) (bodyBranch .geu rs1 rs2 off.toNat))

/-- J offset24 (R186, R189). -/
def execJ (c : CoreId) (off : BitVec 24) (s : State) : Host.Outcome State Fault Refusal :=
  s.act (fun m => m.issue c (Instr.uses (.j c off)) (bodyJ off.toNat))

/-- JK (R145). -/
def execJk (c : CoreId) (ks : KReg) (s : State) : Host.Outcome State Fault Refusal :=
  s.act (fun m => m.issue c (Instr.uses (.jk c ks)) (bodyJk ks))

/-- JKL (R145). -/
def execJkl (c : CoreId) (kd ks : KReg) (s : State) : Host.Outcome State Fault Refusal :=
  s.act (fun m => m.issue c (Instr.uses (.jkl c kd ks)) (bodyJkl kd ks))

/-- LOOP n, rs1, imm14 (R187). -/
def execLoop (c : CoreId) (n : Fin 4) (rs1 : DReg) (imm : BitVec 14) (s : State) : Host.Outcome State Fault Refusal :=
  s.act (fun m => m.issue c (Instr.uses (.loop c n rs1 imm)) (bodyLoop n rs1 imm.toNat))

/-- REP, one repetition an issue (R192, R193). -/
def execRep (c : CoreId) (rs1 : DReg) (target : BitVec 32) (s : State) : Host.Outcome State Fault Refusal :=
  s.act (fun m => m.issue c (repUses c rs1 target) (bodyRep rs1 target.toNat))

end Sys2Proof.Machine
end

