-- ==== Sys2Proof/Machine/MeshOps.lean ====
section
/-!
DEFINITION. Sys2Proof/Machine/MeshOps.lean: the meanings of the mesh's commands that touch no target of an access: bring-up
(R298 to R300), blocks (R301, R302), credits and forwarding (R307 to R309), time (R111, R112, R325), membership and global
operations (R315 to R320), Ethernet (R322, R323).
-/
namespace Sys2Proof.Machine

/-! ### Bring-up (R298 to R300) -/

/-- The stage of a link in training. -/
def Mod.linkStage (m : Mod) (l : Nat) (now next : BringUp) (f : Mod → Mod) : Mod :=
  let k := m.link l
  if m.linkState l = 1 ∧ k.stage = now then f (m.setLink l { k with stage := next }) else m

/-- LANE_SIGNAL_DETECT (R298 t1). -/
def execLaneSignalDetect (l : LinkId) (s : State) : Host.Outcome State Fault Refusal :=
  s.act (fun m => m.linkStage l .waiting .signal (fun m => m.laneBits F.MESH_LG_STATUS_SIGNAL l))

/-- Lanes of a lane group show what training measured (R327). -/
def Mod.lanesTrained (m : Mod) (n mask : Nat) (snr : List (BitVec 8)) : Mod :=
  m.each (setBits 4 mask) (fun m i => m.wr F.MESH_LG_LANE_SNR (n * 4 + i) ((snr.getD i 0).toNat))

/-- PMD_TRAINING_DONE (R298 t2): a link's lanes, or the four of an Ethernet port (R322), show what training measured. -/
def execPmdTrainingDone (x : Training) (s : State) : Host.Outcome State Fault Refusal :=
  s.act (fun m =>
    let n := x.link / 2
    if m.lgMode n = 2 then m.iff (m.lgTrains n) (fun m => m.lanesTrained n 15 x.snr)
    else m.linkStage x.link .signal .trained (fun m => m.lanesTrained n (splitMask (m.rd F.MESH_LG_CTRL_SPLIT n) (x.link % 2)) x.snr))

/-- The lowest version this module offers (R299). -/
def Mod.vLow (m : Mod) (lg : Nat) : Nat := if m.flag F.MESH_LG_CTRL_V1_OK lg then 1 else 2
/-- Whether the federation known here has a member above 1022. -/
def Mod.highMember (m : Mod) : Bool := (span 1023 3072).any m.knowsMember

/-- This module's hello. -/
def Mod.helloOf (m : Mod) (l : Nat) : Hello :=
  ⟨2, BitVec.ofNat 8 (m.vLow (l / 2)), BitVec.ofNat 12 m.node, BitVec.ofNat 32 (m.rd F.MESH_FED_ID_FED), BitVec.ofNat 3 (l / 2),
    BitVec.ofNat 1 (l % 2), m.flag F.MESH_STATUS_V1_PRESENT, m.highMember, m.flag F.MESH_LG_CTRL_REQ_ATTEST (l / 2), (m.link l).nonce⟩

/-- A nonce for a link's hello (R413). -/
def Mod.helloNonce (m : Mod) (l : Nat) : Mod :=
  let (k, m) := m.fresh
  m.setLink l { m.link l with nonce := Config.linkNonce k }

/-- FEC_LOCK (R298 t3): the link enters hello. -/
def execFecLock (l : LinkId) (s : State) : Host.Outcome State Fault Refusal :=
  s.act (fun m => m.linkStage l .trained .locked (fun m =>
    let m := m.helloNonce l
    ((m.laneBits F.MESH_LG_STATUS_LOCK l).setLinkState l 2).emit (.hello l (m.helloOf l))))

/-- The version a link runs, none without a common one. -/
def Mod.linkVersion (m : Mod) (l : Nat) (h : Hello) : Option Nat :=
  let hi := Nat.min 2 h.vmax.toNat
  if Nat.max (m.vLow (l / 2)) h.vmin.toNat ≤ hi then some hi else none

/-- The reason of the first case of R299 that refuses a link, on this side or on the peer's, 0 for none. -/
def Mod.helloRefuses (m : Mod) (l : Nat) (h : Hello) : Nat :=
  match m.linkVersion l h with
  | none => 1
  | some v =>
    if v < 2 && (decide (m.node > 1022) || decide (h.node.toNat > 1022) || m.highMember || h.highMember || m.lgRate (l / 2) == 0) then 2
    else if v ≥ 2 && (decide (h.node.toNat > 1022) && m.flag F.MESH_STATUS_V1_PRESENT || decide (m.node > 1022) && h.v1Member) then 2
    else if h.node.toNat = m.node then 3
    else if h.fed.toNat ≠ m.rd F.MESH_FED_ID_FED then 5
    else if m.node = 0xFFF ∨ h.node.toNat = 0xFFF then 6
    else 0

/-- The peer's hello: the link is refused, or goes on to attestation, for which the Rook sends its certificate, its evidence over the peer's nonce
and an ephemeral key (R413). -/
def Mod.helloIn (m : Mod) (l : Nat) (h : Hello) : Mod :=
  if m.linkState l ≠ 2 then m
  else
    let r := m.helloRefuses l h
    let m := ((m.wr F.MESH_LINK_STATUS_PEER l h.node.toNat).wr F.MESH_LINK_STATUS_PEER_LG l h.lg.toNat).put F.MESH_LINK_STATUS_V2 l
      (m.linkVersion l h == some 2)
    if r ≠ 0 then m.linkRefuse l r
    else
      let (k, m) := m.fresh
      let eph := Config.ephemeral k
      let m := (m.setLink l { m.link l with peerReqAttest := h.reqAttest, peerNonce := h.nonce, ephemeral := eph }).setLinkState l 3
      let (m, e) := m.evidence h.nonce.toNat
      m.emit (.evidence l Config.identityCert e eph)

/-- LINK_HELLO (R299). -/
def execLinkHello (l : LinkId) (h : Hello) (s : State) : Host.Outcome State Fault Refusal := s.act (fun m => m.helloIn l h)

/-- The owner key digest, as one number. -/
def Mod.owner (m : Mod) : Nat := (upTo 8).foldl (fun a n => a + m.rd F.ROOK_OWNER_DIGEST n * 2 ^ (32 * n)) 0

/-- Whether this Rook accepts its peer (R413). -/
def Mod.acceptsPeer (m : Mod) (e : PeerEvidence) : Bool :=
  e.certOk && e.sigOk && e.owned && m.rook.life == .owned && e.owner.toNat == m.owner && decide (m.rd F.ROOK_SVN_SHEEPDOG ≤ e.svn.toNat)

/-- The end of attestation: the link goes up, opens or is refused. -/
def Mod.attestDone (m : Mod) (l : Nat) (e : PeerEvidence) : Mod :=
  if m.linkState l ≠ 3 then m
  else
    let own := m.acceptsPeer e
    let m := m.iff (!own) (fun m => (m.put F.ROOK_ALERT_LINK_REJECT 0 true).raise 246)
    if own && e.peerAccepts then
      let m := ((m.put F.MESH_LINK_STATUS_ATTESTED l true).setLink l { m.link l with keyGen := 1, key := Config.linkKey (m.link l).ephemeral e.ephemeral (m.link l).nonce (m.link l).peerNonce, keySince := m.mono, keyTx := (m.link l).blocksTx, keyRx := (m.link l).blocksRx }).setLinkState l 4
      m.iff (m.isTwinLink l) (fun m => (m.put F.TWIN_STATUS_LINK_UP 0 true).raise 244)
    else if !m.flag F.MESH_LG_CTRL_REQ_ATTEST (l / 2) && !(m.link l).peerReqAttest then m.setLinkState l 5
    else m.linkRefuse l 4

/-- ATTESTATION_DONE (R300, R413). -/
def execAttestationDone (l : LinkId) (e : PeerEvidence) (s : State) : Host.Outcome State Fault Refusal := s.act (fun m => m.attestDone l e)

/-- Whether a link is in STATE 4 or 5. -/
def Mod.linkUp (m : Mod) (l : Nat) : Bool := m.linkState l == 4 || m.linkState l == 5

/-- A link counted in membership and usable by routes. -/
def Mod.linkUsable (m : Mod) (l : Nat) : Mod :=
  if m.linkUp l then (m.setLink l { m.link l with usable := true }).releaseAll else m

/-- LINK_USABLE (R298 t6). -/
def execLinkUsable (l : LinkId) (s : State) : Host.Outcome State Fault Refusal := s.act (fun m => m.linkUsable l)

/-- A bring-up step missed its bound. -/
def Mod.bringTimeout (m : Mod) (l : Nat) : Mod :=
  let st := m.linkState l
  if st = 1 ∨ st = 2 ∨ st = 3 ∨ (m.linkUp l ∧ !(m.link l).usable) then (m.linkStart l).count F.MESH_LG_RETRAINS_COUNT (l / 2) else m

/-- BRINGUP_TIMEOUT (R298). -/
def execBringupTimeout (l : LinkId) (s : State) : Host.Outcome State Fault Refusal := s.act (fun m => m.bringTimeout l)

/-- RETRAIN (R298). -/
def execRetrain (_w : Writer) (lg : LgId) (s : State) : Host.Outcome State Fault Refusal := s.act (fun m => m.lgStart lg)

/-- A link drops; a refused one stays refused. -/
def Mod.linkLost (m : Mod) (l : Nat) : Mod := if m.linkState l = 0 ∨ m.linkState l = 6 then m else m.linkStart l

/-- LINK_LOST (R298). -/
def execLinkLost (l : LinkId) (s : State) : Host.Outcome State Fault Refusal := s.act (fun m => m.linkLost l)

/-! ### Blocks and credits (R301, R302, R308) -/

/-- A block arrives: acknowledged, or asked for again; three tag failures in a row take the link back to t0. What comes with a good block is
what the peer has acknowledged. -/
def Mod.blockIn (m : Mod) (l : Nat) (tagOk fecOk : Bool) (x : BlockNote) : Mod :=
  if !m.linkUp l then m
  else
    let n := l / 2
    let m := m.count F.MESH_LG_FEC_CORR_COUNT n x.corrected
    let k := m.link l
    let again := fun (m : Mod) => m.signal (.again l (k.blocksRx + 1))
    if !fecOk then again (m.count F.MESH_LG_FEC_UNC_COUNT n)
    else if tagOk then
      (m.setLink l { k with tagFails := 0, blocksRx := k.blocksRx + 1,
                            replay := k.replay.filter (fun e => x.acked.all (fun a => decide (a < e.1))) }).signal (.ack l (k.blocksRx + 1))
    else
      let m := (m.count F.MESH_LG_AUTH_FAIL_COUNT n).setLink l { k with tagFails := k.tagFails + 1 }
      if k.tagFails + 1 ≥ 3 then ((m.linkStart l).raise 246).blockFault (n / 2) 0x05 n 8 l else again m

/-- BLOCK_RECEIVE (R302). -/
def execBlockReceive (l : LinkId) (tagOk fecOk : Bool) (x : BlockNote) (s : State) : Host.Outcome State Fault Refusal :=
  s.act (fun m => m.blockIn l tagOk fecOk x)

/-- A receiver asks for a block again: the blocks before it are acknowledged, it and the later ones are sent again. -/
def Mod.resend (m : Mod) (l block : Nat) : Mod :=
  if !m.linkUp l then m
  else
    let k := m.link l
    let again := k.replay.filter (fun e => block ≤ e.1)
    let again := again.map (fun e => (e.1, e.2.map (m.tagsAgain l)))
    let m := (m.setLink l { k with replay := again }).count F.MESH_LG_RESEND_COUNT (l / 2) again.length
    m.each again (fun m e =>
      (m.each e.2 (fun m p => m.emit (p.out l))).signal (.sealed l e.1 (m.sealOf l e.1 (e.2.flatMap (Parcel.flits m l)))))

/-- RESEND_REQUEST (R302). -/
def execResendRequest (l : LinkId) (block : Nat) (s : State) : Host.Outcome State Fault Refusal := s.act (fun m => m.resend l block)

/-- Whether 2^32 blocks have gone either way since an attested link's key took over (R301). -/
def Link.keyWorn (k : Link) : Bool := decide (k.keyTx + 2 ^ 32 ≤ k.blocksTx) || decide (k.keyRx + 2 ^ 32 ≤ k.blocksRx)

/-- An attested link takes a new key, after 2^32 blocks or else when the key is an hour old; traffic goes on. -/
def Mod.keyRenew (m : Mod) (l : Nat) : Mod :=
  if m.linkState l ≠ 4 then m
  else
    let k := m.link l
    let m := if k.keyWorn then m else m.toMono (k.keySince + 3600000000000)
    let (i, m) := m.fresh
    m.setLink l { k with keyGen := k.keyGen + 1, key := Config.renewedKey i, keySince := m.mono, keyTx := k.blocksTx, keyRx := k.blocksRx }

/-- KEY_RENEWAL (R301). -/
def execKeyRenewal (l : LinkId) (s : State) : Host.Outcome State Fault Refusal := s.act (fun m => m.keyRenew l)

/-- CREDIT_RETURN (R308). -/
def execCreditReturn (l : LinkId) (vc : Fin 4) (s : State) : Host.Outcome State Fault Refusal :=
  s.act (fun m => if m.linkUp l then m.creditReturn l vc else m)

/-! ### Forwarding (R304, R309) -/

/-- The flit types of R304. -/
def flitTypes : List Nat := [0x01, 0x02, 0x03, 0x04, 0x05, 0x06, 0x10, 0x11, 0x12, 0x13, 0x14, 0x20, 0x21, 0x22, 0x23, 0x24, 0x25, 0x30, 0x31]

/-- A request that came over open link `l` is answered with a NACK of kind 0x22 (R300). -/
def Mod.openRefuse (m : Mod) (l : Nat) (f : Flit) (n : Nat) : Mod :=
  ((m.meshErr 0x22).giveCredits l f.vc.toNat n).respond (nackOf m.node f 0x22) []

/-- A flit as it comes over a link: an open link's arriving tags are cleared (R158, R300). -/
def Mod.untag (m : Mod) (l : Nat) (f : Flit) : Flit := if m.linkState l = 5 then { f with tags := 0 } else f

/-- Whether a link brings a flit of a virtual channel: an open one only those of VC 2 and VC 3 (R300). -/
def Mod.brings (m : Mod) (l vc : Nat) : Bool := m.linkUp l && (m.linkState l == 4 || decide (2 ≤ vc))

/-- A flit that is not for this module goes on; a reserved type is discarded and counted. -/
def Mod.flitIn (m : Mod) (l : Nat) (f : Flit) (data : List Flit) : Mod :=
  if !m.linkUp l then m
  else if !flitTypes.contains f.ftype.toNat then (m.meshErr 0).giveCredits l f.vc.toNat 1
  else if f.dst.toNat = m.node then m
  else if m.linkState l = 5 && isRequest f.ftype.toNat then m.openRefuse l f (1 + data.length)
  else if !m.brings l f.vc.toNat then m
  else m.forward l (m.untag l f) (data.map (m.untag l))

/-- FLIT_FORWARD (R309). -/
def execFlitForward (l : LinkId) (f : Flit) (data : List Flit) (s : State) : Host.Outcome State Fault Refusal := s.act (fun m => m.flitIn l f data)

/-! ### Time (R111, R112, R325) -/

/-- A time flit to the neighbour on a link. -/
def Mod.timeFlit (m : Mod) (l t pay : Nat) : Flit :=
  ⟨BitVec.ofNat 12 (m.rd F.MESH_LINK_STATUS_PEER l), BitVec.ofNat 12 m.node, 2, BitVec.ofNat 6 t, 0, 0, 0, 0, 0, 1, false, 0, false, false, BitVec.ofNat 512 pay⟩

/-- The payload of TIME_SYNC, its fields one after another. -/
def syncPay (gm hops t : Nat) (corr : Int) : Nat := gm + hops % 256 * 2 ^ 16 + t % 2 ^ 64 * 2 ^ 24 + wrapTo 64 corr * 2 ^ 88

/-- Every 250 µs a link measures its round trip; the grandmaster's time leaves with it. Its instants are put in as it leaves. -/
def Mod.probeSend (m : Mod) (l : Nat) : Mod :=
  if !(m.link l).usable then m
  else
    let m := m.sendFlit l (m.timeFlit l 0x20 0)
    m.iff (m.isRoot && !m.isTwinLink l) (fun m => m.sendFlit l (m.timeFlit l 0x22 (syncPay m.node 0 m.now (-65536 * m.mono))))

/-- TIME_PROBE_SEND (R112). -/
def execTimeProbeSend (l : LinkId) (s : State) : Host.Outcome State Fault Refusal := s.act (fun m => m.probeSend l)

/-- TIME_PROBE (R325): answered with the instants of its arrival and of the echo's departure. -/
def execTimeProbe (l : LinkId) (f : Flit) (s : State) : Host.Outcome State Fault Refusal :=
  s.act (fun m => if (m.link l).usable then
    (m.giveCredits l 2 1).sendFlit l (m.timeFlit l 0x21 (bitsOf f.payload.toNat 0 64 + m.now % 2 ^ 64 * 2 ^ 64)) else m)

/-- An echo of the probe under way gives the hop's one-way delay. -/
def Mod.echoIn (m : Mod) (l : Nat) (f : Flit) : Mod :=
  let m := m.iff (m.link l).usable (fun m => m.giveCredits l 2 1)
  let k := m.link l
  let t1 := bitsOf f.payload.toNat 0 64
  let t2 := bitsOf f.payload.toNat 64 64
  let t3 := bitsOf f.payload.toNat 128 64
  if k.usable && k.probe == some t1 then
    let rt : Int := ((m.now : Int) - t1) - ((t3 : Int) - t2)
    m.setLink l { k with probe := none, delay := rt * 32768 + signedOf 16 (m.rd F.TB_ASYM_ASYM (l / 2)) * 65536 }
  else m

/-- TIME_ECHO (R112, R325). -/
def execTimeEcho (l : LinkId) (f : Flit) (s : State) : Host.Outcome State Fault Refusal := s.act (fun m => m.echoIn l f)

/-- The grandmaster's time from a neighbour (R111): the best neighbour is the parent, whose time this module takes with source 1 and passes
on with the link's delay and its own residence added (R112). -/
def Mod.syncIn (m : Mod) (l : Nat) (f : Flit) : Mod :=
  let p := f.payload.toNat
  let hops := Nat.min (bitsOf p 16 8 + 1) 255
  if !m.linkCarries l 2 then m
  else
    let m := m.giveCredits l 2 1
    if m.isRoot || bitsOf p 0 16 ≠ m.rd F.TB_GM_NODE_NODE then m
    else
      let m := (m.setLink l { m.link l with gmHops := some hops }).reparent
      if m.parentLink ≠ some l then m
      else
        let t := bitsOf p 24 64
        let corr := signedOf 64 (bitsOf p 88 64) + (m.link l).delay
        let m := m.iff (m.tbSrc = 1) (fun m => m.syncOffset ((m.now : Int) - ((t : Int) + corr / 65536)))
        m.each (upTo 16) (fun m k => m.iff (k != l && m.linkCarries k 2) (fun m =>
          m.sendFlit k (m.timeFlit k 0x22 (syncPay (bitsOf p 0 16) hops t (corr - 65536 * m.mono)))))

/-- TIME_SYNC (R111, R325). -/
def execTimeSync (l : LinkId) (f : Flit) (s : State) : Host.Outcome State Fault Refusal := s.act (fun m => m.syncIn l f)

/-- Whether R111 can choose a node as grandmaster, as far as this module knows: the candidate with the lowest node ID, or with no candidate
the member with the lowest. -/
def Mod.electable (m : Mod) (e : Election) : Bool :=
  let node := e.node.toNat
  let old := m.rd F.TB_GM_NODE_NODE
  let gm := m.flag F.TB_CTRL_GM
  m.isMember && node != 0xFFF && (node == m.node || m.knowsMember node) &&
  (if e.candidate then (!gm || decide (node ≤ m.node)) && (node != m.node || gm)
   else !gm && decide (node ≤ m.node) && (upTo node).all (fun d => !m.knowsMember d || e.left && d == old))

/-- A grandmaster is chosen: a change of root abandons what is in flight, and when the old one has left, members that take its time go into
holdover. -/
def Mod.elect (m : Mod) (e : Election) : Mod :=
  let node := e.node.toNat
  let old := m.rd F.TB_GM_NODE_NODE
  let src := m.tbSrc
  if !m.electable e then m
  else
    let own := node == m.node
    let m := ((m.wr F.TB_GM_NODE_NODE 0 node).put F.TB_STATUS_IS_GM 0 own).put F.MESH_STATUS_ROOT 0 own
    let m := m.iff (m.flag F.TB_CTRL_GM && !own) (fun m => m.put F.TB_STATUS_GM_CONFLICT 0 true)
    let m := m.srcCommit src
    if old = node then m
    else
      let m := m.each (upTo 16) (fun m l => m.setLink l { m.link l with gmHops := none })
      let m := (m.put F.TB_STATUS_PARENT_VALID 0 false).wr F.TB_STATUS_HOPS 0 (if own then 0 else 0xFF)
      let m := m.gopAbandon
      let m := m.iff own (fun m => m.refuseDuplicates.flood)
      m.iff (m.tbSrc == 1 && e.left) Mod.holdover

/-- GRANDMASTER_ELECTION (R111). -/
def execGrandmasterElection (e : Election) (s : State) : Host.Outcome State Fault Refusal := s.act (fun m => m.elect e)

/-! ### Membership (R315, R442) -/

/-- A member's own entry from a child: toward the root, which keeps the first identity under a node ID. -/
def Mod.claimIn (m : Mod) (l : Nat) (node : BitVec 12) (ident : BitVec 256) (v2 : Bool) (hops : BitVec 8) : Mod :=
  let m := m.setLink l { m.link l with child := true }
  let known := m.fed.ids.find? (fun e => e.node == node.toNat)
  let add := fun (m : Mod) =>
    { m with fed := { m.fed with ids := m.fed.ids.filter (fun (e : MemberEntry) => !(e.node == node.toNat && e.ident == ident.toNat)) ++
                                        [MemberEntry.mk node.toNat ident.toNat v2 hops.toNat l] } }
  if !m.isRoot then (add m).memberUp (.claim node ident v2 hops)
  else if node.toNat = m.node && ident.toNat ≠ m.identity then m.sendParcels l none [.member (.duplicate node ident)]
  else match known with
    | some e => if e.ident = ident.toNat then (add m).flood else m.sendParcels l none [.member (.duplicate node ident)]
    | none => (add m).flood

/-- The flooded membership: taken and passed on. -/
def Mod.floodIn (m : Mod) (l : List (BitVec 12 × Bool)) : Mod :=
  (m.setMembers (l.map (fun e => (e.1.toNat, e.2)))).memberDown (.flood l)

/-- A duplicate found by the root: every link of the other member is refused, and that module sets DUP. -/
def Mod.duplicateIn (m : Mod) (node : BitVec 12) (ident : BitVec 256) : Mod :=
  if node.toNat = m.node && ident.toNat = m.identity then
    (m.put F.MESH_STATUS_DUP 0 true).each (upTo 16) (fun m l => m.iff (m.linkThere l && !m.isTwinLink l) (fun m => m.linkRefuse l 3))
  else m.memberDown (.duplicate node ident)

/-- A device fault notice: toward the root, which floods it; every other member records it. -/
def Mod.noticeIn (m : Mod) (node : BitVec 12) (cause : BitVec 8) (down : Bool) : Mod :=
  let act := fun (m : Mod) =>
    if node.toNat = m.node || !m.federated then m
    else
      let m := (m.wr F.FLT_FED_LAST_NODE 0 node.toNat).wr F.FLT_FED_LAST_CAUSE 0 cause.toNat
      (m.record { m.faultRec 4 0x0E 0 10 0 cause.toNat with node := node.toNat }).raise 171
  if down || m.isRoot then (act m).memberDown (.notice node cause true) else m.memberUp (.notice node cause false)

/-- Members have left, as a child tells: those known by their identity to be behind its link are gone. -/
def Mod.leaveIn (m : Mod) (l : Nat) (left : List (BitVec 12 × BitVec 256)) : Mod :=
  let gone := left.filter (fun x => m.fed.ids.any (fun e => e.node == x.1.toNat && e.ident == x.2.toNat && e.link == l))
  let m := { m with fed := { m.fed with ids := m.fed.ids.filter (fun (e : MemberEntry) => !(e.link == l && gone.contains (BitVec.ofNat 12 e.node, BitVec.ofNat 256 e.ident))) } }
  if gone.isEmpty then m else if m.isRoot then m.flood else m.memberUp (.leave gone)

/-- A MEMBER flit on a link. -/
def Mod.memberIn (m : Mod) (l : Nat) (x : MemberMsg) : Mod :=
  let fromParent := m.parentLink == some l
  let m := m.iff (m.linkCarries l 2) (fun m => m.giveCredits l 2 1)
  if !m.linkCarries l 2 || !m.isMember then m
  else match x with
  | .claim node ident v2 hops => if fromParent then m else m.claimIn l node ident v2 hops
  | .flood l => if fromParent then m.floodIn l else m
  | .duplicate node ident => if fromParent then m.duplicateIn node ident else m
  | .notice node cause down => if fromParent == down then m.noticeIn node cause down else m
  | .leave gone => if fromParent then m else m.leaveIn l gone

/-- MEMBER (R315, R442). -/
def execMember (l : LinkId) (x : MemberMsg) (s : State) : Host.Outcome State Fault Refusal := s.act (fun m => m.memberIn l x)

/-! ### Global operations (R316 to R320) -/

/-- A GOP flit on its way up, from a child. -/
def Mod.gopUpIn (m : Mod) (l : Nat) (g : GopMsg) : Mod :=
  let m := m.setLink l { m.link l with child := true }
  match g with
  | .barUp b any =>
    let bn := b.toNat
    { m with fed := { m.fed with reports := (bn, l, any) :: m.fed.reports.filter (fun r => !(r.1 == bn && r.2.1 == l)) } }.barCheck bn
  | .bcUp src data => if m.isRoot then m.bcFlood src.toNat data else m.gopUp g
  | .snapUp src => if m.isRoot then m.snapRoot src.toNat else m.gopUp g
  | .resetUp _ => if m.isRoot then m.resetRoot else m.gopUp g
  | _ => m

/-- A GOP flit on its way down, from the parent. -/
def Mod.gopDownIn (m : Mod) (g : GopMsg) : Mod :=
  match g with
  | .barRelease b => m.barRelease b.toNat
  | .bcDown src data => (m.bcDeliver src.toNat data).gopDown g
  | .snapAt t => (m.gopDown g).snapSet t.toNat
  | .snapRefused dst => if dst.toNat = m.node then m.snapRefuse else m.gopDown g
  | .resetAt t => { m.gopDown g with fed := { m.fed with resetAt := some t.toNat } }
  | .abandon => (m.gopDown g).gopAbandon
  | _ => m

/-- A GOP flit on a link. -/
def Mod.gopIn (m : Mod) (l : Nat) (g : GopMsg) : Mod :=
  let m := m.iff (m.linkCarries l 2) (fun m => m.giveCredits l 2 1)
  if !m.linkCarries l 2 || !m.isMember then m
  else if m.parentLink = some l then m.gopDownIn g else m.gopUpIn l g

/-- GOP (R316). -/
def execGop (l : LinkId) (g : GopMsg) (s : State) : Host.Outcome State Fault Refusal := s.act (fun m => m.gopIn l g)

/-- BARRIER_ARRIVE (R317). -/
def execBarrierArrive (_w : Writer) (b : BitVec 4) (s : State) : Host.Outcome State Fault Refusal := s.act (fun m => m.gopCmd 1 b.toNat 0)

/-- BROADCAST (R318); the model takes a LEN above 32 as a reserved encoding, which starts nothing (R7). -/
def execBroadcast (w : Writer) (len : BitVec 6) (s : State) : Host.Outcome State Fault Refusal :=
  s.act (fun m => if len.toNat ≤ 32 then m.gopCmd 2 0 len.toNat
    else m.cellFault 4 0x02 4 11 (Reg.place .MESH_GOP_CMD).off w.master.toNat)

/-- SNAPSHOT (R319). -/
def execSnapshot (_w : Writer) (s : State) : Host.Outcome State Fault Refusal := s.act (fun m => m.gopCmd 3 0 0)

/-- FEDERATION_RESET (R320). -/
def execFederationReset (_w : Writer) (s : State) : Host.Outcome State Fault Refusal := s.act (fun m => m.gopCmd 4 0 0)

/-- T_s comes: the copy is taken. -/
def Mod.snapNow (m : Mod) : Mod :=
  match m.fed.snapAt with
  | some t => if m.fed.snapBusy then m else (m.toNow t).snapCopy
  | none => m

/-- SNAPSHOT_INSTANT (R319). -/
def execSnapshotInstant (s : State) : Host.Outcome State Fault Refusal := s.act Mod.snapNow

/-- The copy ends. -/
def Mod.snapDone (m : Mod) : Mod :=
  match m.fed.snapAt with
  | some t =>
    if m.fed.snapBusy then
      let m := { m with fed := { m.fed with snapAt := none, snapBusy := false } }
      ((m.wr F.MESH_SNAP_TIME_TIME 0 t).raise 170).gopEnd 3 true
    else m
  | none => m

/-- SNAPSHOT_COPY_DONE (R319). -/
def execSnapshotCopyDone (s : State) : Host.Outcome State Fault Refusal := s.act Mod.snapDone

/-- T_r comes. -/
def Mod.fedResetNow (m : Mod) : Mod :=
  match m.fed.resetAt with
  | some t =>
    let m := { m.toNow t with fed := { m.fed with resetAt := none } }
    let m := m.gopEnd 4 true
    if m.flag F.MESH_CTRL_GRESET_EN then m.deviceReset 3 else m.raise 171
  | none => m

/-- FEDERATION_RESET_INSTANT (R320). -/
def execFederationResetInstant (s : State) : Host.Outcome State Fault Refusal := s.act Mod.fedResetNow

/-- MESH_BC_RX_POP (R328). -/
def execMeshBcRxPop (_w : Writer) (s : State) : Host.Outcome State Fault Refusal := s.act Mod.bcPop

/-! ### Ethernet (R322, R323) -/

/-- ETH (R322): a tunnelled frame enters the switch with the ingress of its lane group. -/
def execEth (l : LinkId) (fr : EthFrame) (s : State) : Host.Outcome State Fault Refusal :=
  s.act (fun m => if (m.link l).usable && m.lgMode (l.val / 2) == 1 && m.linkUp l then
    (m.giveCredits l 3 ((fr.bytes.length + 67) / 64)).switchReceive (1024 + l.val / 2) fr else m)

/-- An interval of a lane group's gate control list begins: time runs to its start in the present cycle or the next. -/
def Mod.gateEntry (m : Mod) (n i : Nat) : Mod :=
  if !m.qbvRuns n then m
  else match (m.gateList n)[i]? with
    | none => m
    | some g => m.toNow (m.now + (m.rd F.MESH_TSN_CYCLE_NS n + g.1 - m.gatePhase n) % m.rd F.MESH_TSN_CYCLE_NS n)

/-- GATE_CONTROL_ENTRY (R323). -/
def execGateControlEntry (lg : LgId) (i : Fin 64) (s : State) : Host.Outcome State Fault Refusal := s.act (fun m => m.gateEntry lg i)

/-- An Ethernet-mode lane group's port goes up or down, with its four lanes. -/
def Mod.ethChange (m : Mod) (n : Nat) (up : Bool) : Mod :=
  if m.lgMode n ≠ 2 || (up && !m.lgTrains n) || m.flag F.MESH_LG_STATUS_ETH_UP n == up then m
  else
    let lanes := if up then 15 else 0
    (((m.put F.MESH_LG_STATUS_ETH_UP n up).wr F.MESH_LG_STATUS_SIGNAL n lanes).wr F.MESH_LG_STATUS_LOCK n lanes).raise (160 + n)

/-- ETHERNET_PORT_LINK_CHANGE (R322). -/
def execEthernetPortLinkChange (lg : LgId) (up : Bool) (s : State) : Host.Outcome State Fault Refusal := s.act (fun m => m.ethChange lg up)

end Sys2Proof.Machine
end

