-- ==== Sys2Proof/Machine/MeshServe.lean ====
section
/-!
DEFINITION. Sys2Proof/Machine/MeshServe.lean: requests of other nodes performed at their home (R127, R156 to R158, R304, R311,
R312): checked by the gate as master 56 with the flit's source and epoch, then performed like local accesses.
-/
namespace Sys2Proof.Machine

/-- The access of a request at its gate. -/
def flitAcc (f : Flit) (a n : Nat) (kind : AccKind) : Acc := ⟨56, false, f.epoch.toNat, f.src.toNat, a, n, kind⟩

/-- Whether an instant whose low 40 bits are `d` lies before now, 0 meaning none (R127). -/
def Mod.pastDeadline (m : Mod) (d : Nat) : Bool :=
  d != 0 && decide (2 ^ 39 < (d + 2 ^ 40 - m.now % 2 ^ 40) % 2 ^ 40)

/-- Whether a request that came over a link is served late: a v1 link carries no deadline (R314). -/
def Mod.servedLate (m : Mod) (l : Nat) (f : Flit) : Bool := !m.isV1 l && m.pastDeadline f.deadline.toNat

/-- The tags of the granules a read of a line covers, as they leave the module (R157); what their link asks is looked at
as they leave. -/
def Mod.leavingTags (m : Mod) (a n : Nat) : Nat :=
  (upTo 4).foldl (fun t j =>
    let g := a - a % 64 + 16 * j
    if a ≤ g ∧ g + 16 ≤ a + n ∧ m.tagAt g ∧ m.keyLeaves true (m.keyAt g).2.1 then t + 2 ^ j else t) 0

/-- The granules of [a, a + n) whose arriving data carries a key that stays a key (R158, R163), as offsets from `a`. -/
def Mod.arrivingKeys (m : Mod) (attested : Bool) (a : Nat) (data : List Byte) (tags : Nat) : List Nat :=
  (upTo 4).filterMap (fun j =>
    let g := a - a % 64 + 16 * j
    if a ≤ g ∧ g + 16 ≤ a + data.length ∧ bitAt tags j ∧
      (m.keyArrives attested (Key.ofBytes ((data.drop (g - a)).take 16) true)).tag then some (g - a) else none)

/-- An admitted write of bytes within one line by a master that is no core, its keys stored where the gate keeps them
(R282). -/
def Mod.storeAs (m : Mod) (master a : Nat) (data : List Byte) (keys : List Nat) (epoch node : Nat := 0) : Mod :=
  match targetOf a with
  | .regs off => m.regStore ⟨BitVec.ofNat 6 master, false, BitVec.ofNat 6 epoch, BitVec.ofNat 12 node⟩ off data.length (ofLeBytes data)
  | _ =>
    let m := m.rawWrite a data none none
    m.each keys (fun m o =>
      m.iff (m.keepsTag (a + o) (locOfBytes ((data.drop o).take 16))) (fun m => m.setTagAt (a + o) true))

/-- An admitted read of bytes within one target by a master that is no core. -/
def Mod.loadAs (m : Mod) (master a n : Nat) : Mod × Got :=
  match targetOf a with
  | .regs off =>
    let (m, v) := m.regLoad master off n
    (m, ⟨leBytes n v, false⟩)
  | _ => m.rawRead a n

/-- The header of a response to a request. -/
def Mod.answerTo (m : Mod) (f : Flit) (t vc status : Nat) (late : Bool) : Flit :=
  ⟨f.src, BitVec.ofNat 12 m.node, BitVec.ofNat 2 vc, BitVec.ofNat 6 t, 0, f.tid, f.epoch, 0, 0, 0, false, BitVec.ofNat 8 status, late, false, 0⟩

/-- Bytes at their positions in a line, as a payload. -/
def linePay (a : Nat) (d : List Byte) : BitVec 512 := BitVec.ofNat 512 (ofLeBytes d * 2 ^ (8 * (a % 64)))

/-- The bytes of a line's payload at an address. -/
def payBytes (p : BitVec 512) (a n : Nat) : List Byte := ((leBytes 64 p.toNat).drop (a % 64)).take n

/-- Whether a request covers bytes of one line. -/
def oneLine (f : Flit) : Bool :=
  let n := flitSize f
  decide (1 ≤ n) && decide (n ≤ 64) && decide (flitAddr f % 64 + n ≤ 64)

/-- Whether a run covers 1 to 16 whole consecutive lines. -/
def wholeRun (f : Flit) : Bool := flitAddr f % 64 == 0 && decide (1 ≤ flitLines f) && decide (flitLines f ≤ 16)

/-- A request that has come over a link: passed on when it is for another node, refused on an open link, else served;
`serve` is told whether it is late. -/
def Mod.arrive (m : Mod) (l : Nat) (f : Flit) (data : List Flit) (t : Nat) (serve : Mod → Bool → Mod) : Mod :=
  if !m.linkUp l || f.ftype.toNat ≠ t then m
  else if m.linkState l = 5 then m.openRefuse l f (1 + data.length)
  else if f.dst.toNat ≠ m.node then m.forward l f data
  else
    let m := m.serviceBegins l f (1 + data.length)
    let late := m.servedLate l f
    (serve (m.iff late (fun m => m.count F.TB_DL_LATE_RX_COUNT)) late).serviceEnds

/-- A request refused by its gate. -/
def Mod.nackHome (m : Mod) (f : Flit) (kind : Nat) (late : Bool) : Mod := m.respond { nackOf m.node f kind with late := late } []

/-! ### Single lines -/

/-- RD: the bytes with the tags of the granules read whole. -/
def Mod.serveRd (m : Mod) (f : Flit) (late : Bool) : Mod :=
  let a := flitAddr f
  let n := flitSize f
  if !oneLine f then m
  else match m.passGate (flitAcc f a n .load) with
  | (m, some k) => m.nackHome f k late
  | (m, none) =>
    let (m, g) := m.loadAs 56 a n
    let tags := m.leavingTags a n
    m.respond { m.answerTo f 0x11 1 0 late with payload := linePay a g.data, tags := BitVec.ofNat 4 tags, poison := g.poison } []

/-- RD (R311). -/
def execRd (l : LinkId) (f : Flit) (s : State) : Host.Outcome State Fault Refusal :=
  s.act (fun m => m.arrive l f [] 0x01 (fun m late => m.serveRd f late))

/-- The runs of bytes a WR's mask names: offset and length from its address. -/
def maskRuns (mask n : Nat) : List (Nat × Nat) :=
  ((upTo n).foldl (fun (r : List (Nat × Nat)) i =>
    if !bitAt mask i then r
    else match r with
      | (o, k) :: t => if o + k = i then (o, k + 1) :: t else (i, 1) :: r
      | [] => [(i, 1)]) []).reverse

/-- WR: the bytes its mask names are written. -/
def Mod.serveWr (m : Mod) (l : Nat) (f data : Flit) (late : Bool) : Mod :=
  let a := flitAddr f
  let n := flitSize f
  if !oneLine f then m
  else
    let bs := payBytes data.payload a n
    let runs := maskRuns (bitsOf f.payload.toNat 128 64 >>> (a % 64)) n
    let keys := m.arrivingKeys (m.flag F.MESH_LINK_STATUS_ATTESTED l) a bs data.tags.toNat
    match m.passGate (flitAcc f a n (if keys.isEmpty then .store else .keyStore)) with
    | (m, some k) => m.nackHome f k late
    | (m, none) =>
      let m := match targetOf a with
        | .regs _ => m.iff (runs == [(0, n)]) (fun m => m.storeAs 56 a bs [] f.epoch.toNat f.src.toNat)
        | _ => m.each runs (fun m r =>
          m.storeAs 56 (a + r.1) ((bs.drop r.1).take r.2)
            ((keys.filter (fun o => decide (r.1 ≤ o) && decide (o + 16 ≤ r.1 + r.2))).map (· - r.1)))
      m.respond (m.answerTo f 0x13 1 0 late) []

/-- WR (R311). -/
def execWr (l : LinkId) (f : Flit) (data : Flit) (s : State) : Host.Outcome State Fault Refusal :=
  s.act (fun m => m.arrive l f [data] 0x02 (fun m late => m.serveWr l f data late))

/-! ### Atomics (R184, R185) -/

/-- The operation of an ATOM's function byte, with its width. -/
def amoOf (fn : Nat) : Option (Amo × Bool) :=
  match fn with
  | 0 => some (.add, false)
  | 1 => some (.add, true)
  | 2 => some (.swap, false)
  | 3 => some (.swap, true)
  | 4 => some (.cas, false)
  | 5 => some (.cas, true)
  | _ => none

/-- ATOM: one indivisible read and write; its answer is the old value. A poisoned line is read and not written. -/
def Mod.serveAtom (m : Mod) (f : Flit) (late : Bool) : Mod :=
  let a := flitAddr f
  let p := f.payload.toNat
  match amoOf (bitsOf p 72 8) with
  | none => m
  | some (o, wide) =>
    let n := if wide then 8 else 4
    if flitSize f ≠ n ∨ a % n ≠ 0 then m
    else match m.passGate (flitAcc f a n .atomic) with
    | (m, some k) => m.nackHome f k late
    | (m, none) =>
      let (m, g) := m.rawRead a n
      let m := match o.write n (ofLeBytes g.data) (bitsOf p 128 64) (bitsOf p 192 64) with
        | some v => m.iff (!g.poison) (fun m => m.rawWrite a (leBytes n v) none none)
        | none => m
      m.respond { m.answerTo f 0x13 1 0 late with payload := BitVec.ofNat 512 (ofLeBytes g.data), poison := g.poison } []

/-- ATOM (R311). -/
def execAtom (l : LinkId) (f : Flit) (s : State) : Host.Outcome State Fault Refusal :=
  s.act (fun m => m.arrive l f [] 0x03 (fun m late => m.serveAtom f late))

/-- KCAS: the granule becomes the new key if it equals the compare key, bits and tag; its answer is the old key. -/
def Mod.serveKcas (m : Mod) (l : Nat) (f : Flit) (late : Bool) : Mod :=
  let a := flitAddr f
  let p := f.payload.toNat
  let att := m.flag F.MESH_LINK_STATUS_ATTESTED l
  if a % 16 ≠ 0 then m
  else match m.passGate (flitAcc f a 16 .atomic) with
  | (m, some k) => m.nackHome f k late
  | (m, none) =>
    let cmp := m.keyArrives att ⟨BitVec.ofNat 128 (bitsOf p 128 128), f.tags.getLsbD 1⟩
    let new := m.keyArrives att ⟨BitVec.ofNat 128 (bitsOf p 256 128), f.tags.getLsbD 2⟩
    let (m, old, poison) := m.keyAt a
    let m := m.iff (!poison && old == cmp) (fun m => m.rawWrite a new.bytes (some (new.tag && m.keepsTag a new.loc)) none)
    let tag := b2n (m.keyLeaves true old)
    m.respond { m.answerTo f 0x13 1 0 late with payload := BitVec.ofNat 512 old.bits.toNat, tags := BitVec.ofNat 4 tag, poison := poison } []

/-- KCAS_FLIT (R311). -/
def execKcasFlit (l : LinkId) (f : Flit) (s : State) : Host.Outcome State Fault Refusal :=
  s.act (fun m => m.arrive l f [] 0x04 (fun m late => m.serveKcas l f late))

/-! ### Runs -/

/-- The lines of an RDRUN from address `a` on: their data, or the kind of the first refused one. -/
def Mod.readRun (m : Mod) (f : Flit) (a : Nat) : Nat → Mod × Except Nat (List (BitVec 512 × Nat × Bool))
  | 0 => (m, .ok [])
  | k + 1 => match m.passGate (flitAcc f a 64 .load) with
    | (m, some e) => (m, .error e)
    | (m, none) =>
      let (m, g) := m.loadAs 56 a 64
      let t := m.leavingTags a 64
      match m.readRun f (a + 64) k with
      | (m, .error e) => (m, .error e)
      | (m, .ok r) => (m, .ok ((linePay a g.data, t, g.poison) :: r))

/-- RDRUN: the lines come back in one RUNRESP and the data flits after it. -/
def Mod.serveRdrun (m : Mod) (f : Flit) (late : Bool) : Mod :=
  if !wholeRun f then m
  else match m.readRun f (flitAddr f) (flitLines f) with
  | (m, .error k) => m.nackHome f k late
  | (m, .ok ls) =>
    let flit := fun (t : Nat) (x : BitVec 512 × Nat × Bool) =>
      { m.answerTo f t 3 0 late with payload := x.1, tags := BitVec.ofNat 4 x.2.1, poison := x.2.2 }
    match ls with
    | [] => m
    | x :: xs => m.respond { flit 0x12 x with follow := BitVec.ofNat 5 xs.length } (xs.map (flit 0x10))

/-- RDRUN (R304, R311). -/
def execRdrun (l : LinkId) (f : Flit) (s : State) : Host.Outcome State Fault Refusal :=
  s.act (fun m => m.arrive l f [] 0x05 (fun m late => m.serveRdrun f late))

/-- The lines of a WRRUN written in order: the kind of the first refused one, after which nothing is written. -/
def Mod.writeRun (m : Mod) (l : Nat) (f : Flit) (a : Nat) : List Flit → Mod × Option Nat
  | [] => (m, none)
  | d :: ds =>
    let bs := leBytes 64 d.payload.toNat
    let keys := m.arrivingKeys (m.flag F.MESH_LINK_STATUS_ATTESTED l) a bs d.tags.toNat
    match m.passGate (flitAcc f a 64 (if keys.isEmpty then .store else .keyStore)) with
    | (m, some k) => (m, some k)
    | (m, none) => (m.storeAs 56 a bs keys).writeRun l f (a + 64) ds

/-- WRRUN: acknowledged once written, or refused with the lines before the refused one written. -/
def Mod.serveWrrun (m : Mod) (l : Nat) (f : Flit) (data : List Flit) (late : Bool) : Mod :=
  if !wholeRun f || data.length ≠ flitLines f then m
  else match m.writeRun l f (flitAddr f) data with
  | (m, some k) => m.nackHome f k late
  | (m, none) => m.respond (m.answerTo f 0x13 1 0 late) []

/-- WRRUN (R304, R311). -/
def execWrrun (l : LinkId) (f : Flit) (data : List Flit) (s : State) : Host.Outcome State Fault Refusal :=
  s.act (fun m => m.arrive l f data 0x06 (fun m late => m.serveWrrun l f data late))

end Sys2Proof.Machine
end

