-- ==== Sys2Proof/Machine/Engines.lean ====
section
/-!
DEFINITION. Sys2Proof/Machine/Engines.lean: the matrix engines and the transfer channels at work (R330 to R346).
-/
namespace Sys2Proof.Machine

/-! ### Arithmetic (R335) -/

/-- A number on its way, with the flags gathered so far. -/
abbrev FNum := Nat × FFlags

/-- acc + a × b, rounded once. -/
def FNum.fma (f : Fmt) (acc : FNum) (a b : Nat) : FNum := let r := f.fma .near acc.1 a b; (r.1, acc.2.or r.2)
/-- acc / b. -/
def FNum.div (f : Fmt) (acc : FNum) (b : Nat) : FNum := let r := f.div .near acc.1 b; (r.1, acc.2.or r.2)
/-- A sum of products in ascending order, from a start. -/
def FNum.dot (f : Fmt) (start : FNum) (l : List (Nat × Nat)) : FNum := l.foldl (fun acc p => acc.fma f p.1 p.2) start

/-- 1 in a format. -/
def Fmt.one (f : Fmt) : Nat := (2 ^ (f.ew - 1) - 1) * 2 ^ f.mw

/-- The factors of a product with ALPHA. -/
def mxFactors (single : Bool) (alpha a b : Nat) : Nat × Nat × FFlags :=
  let r := (fmtOf single).mul .near alpha (if Config.mxAlphaOnA single then a else b)
  if Config.mxAlphaOnA single then (r.1, b, r.2) else (a, r.1, r.2)

/-- ALPHA × Σ a b + BETA × c: from BETA × c rounded once, or from 0. -/
def mxElement (single : Bool) (alpha beta : Nat) (c : Option Nat) (l : List (Nat × Nat)) : FNum :=
  let f := fmtOf single
  let start : FNum := match c with
    | some c => f.mul .near beta c
    | none => (0, {})
  l.foldl (fun acc p =>
    let x := mxFactors single alpha p.1 p.2
    FNum.fma f (acc.1, acc.2.or x.2.2) x.1 x.2.1) start

/-- The values and the gathered flags of a list. -/
def gather (l : List FNum) : List Nat × FFlags := (l.map Prod.fst, l.foldl (fun a x => a.or x.2) {})

/-- Element (i, j) of a column-major array of `r` rows. -/
def el (a : List Nat) (r i j : Nat) : Nat := a.getD (j * r + i) 0

/-- Forward substitution of one column: `a` holds L, of `n` rows. -/
def solveDown (f : Fmt) (a : List Nat) (n : Nat) (b : List Nat) : List FNum :=
  (upTo n).foldl (fun xs i =>
    let acc := FNum.dot f (b.getD i 0, {}) ((upTo i).map (fun k => (f.neg (el a n i k), (xs.getD k (0, {})).1)))
    xs ++ [acc.div f (el a n i i)]) []

/-- Backward substitution of one column with the transpose of L. -/
def solveUp (f : Fmt) (a : List Nat) (n : Nat) (b : List Nat) : List FNum :=
  (upTo n).foldl (fun xs s =>
    let i := n - 1 - s
    let acc := FNum.dot f (b.getD i 0, {}) ((upTo s).map (fun k => (f.neg (el a n (i + 1 + k) i), (xs.getD k (0, {})).1)))
    acc.div f (el a n i i) :: xs) []

/-- Column `j` of the Cholesky factor from the columns before it, rows `j` to `n - 1`; at a pivot not above 0 the flags of forming it. -/
def cholColumn (f : Fmt) (a : List Nat) (n j : Nat) (cols : List (List FNum)) : Except FFlags (List FNum) :=
  let l := fun (i k : Nat) => ((cols.getD k []).getD (i - k) (0, {})).1
  let sub := fun (i : Nat) => FNum.dot f (el a n i j, {}) ((upTo j).map (fun k => (f.neg (l i k), l j k)))
  let p := sub j
  if f.lt 0 p.1 then
    let r := f.sqrt .near p.1
    let d : FNum := (r.1, p.2.or r.2)
    .ok (d :: (upTo (n - 1 - j)).map (fun s => (sub (j + 1 + s)).div f d.1))
  else .error p.2

/-- The columns of the factor up to the first bad pivot, with its column and flags. -/
def cholColumns (f : Fmt) (a : List Nat) (n : Nat) : List (List FNum) × Option (Nat × FFlags) :=
  (upTo n).foldl (fun (r : List (List FNum) × Option (Nat × FFlags)) j =>
    match r with
    | (cols, none) => match cholColumn f a n j cols with
      | .ok c => (cols ++ [c], none)
      | .error fl => (cols, some (j, fl))
    | r => r) ([], none)

/-- One step of PGSTEP: `h` of n × n, `lim` holds lo and then hi. -/
def pgStep (single : Bool) (alpha : Nat) (h g lim : List Nat) (n : Nat) (x : List Nat) : List FNum :=
  let f := fmtOf single
  (upTo n).map (fun i =>
    let s := FNum.dot f (g.getD i 0, {}) ((upTo n).map (fun k => (el h n i k, x.getD k 0)))
    let p := f.mul .near alpha s.1
    let q := f.sub .near (x.getD i 0) p.1
    let d := if Config.mxPgOnce single then f.fma .near (x.getD i 0) (f.neg alpha) s.1 else (q.1, p.2.or q.2)
    let lo := f.minMaxNum true (lim.getD i 0) d.1
    let hi := f.minMaxNum false (lim.getD (n + i) 0) lo.1
    (hi.1, ((s.2.or d.2).or lo.2).or hi.2))

/-! ### Matrix descriptors (R333, R334, R337 to R339) -/

/-- A matrix descriptor's fields. -/
structure MxDesc where
  op : Nat
  single : Bool
  ta : Bool
  tb : Bool
  irq : Bool
  flagsOk : Bool
  m : Nat
  n : Nat
  k : Nat
  lda : Nat
  ldb : Nat
  ldc : Nat
  alpha : Nat
  beta : Nat
  deriving DecidableEq, Repr

def mxDesc (d : List Byte) : MxDesc :=
  let fl := descField d 1 1
  let single := bitAt fl 0
  let num := fun (off : Nat) => descField d off (if single then 4 else 8)
  ⟨descField d 0 1, single, bitAt fl 1, bitAt fl 2, bitAt fl 3, decide (fl < 16), descField d 0x10 4, descField d 0x14 4, descField d 0x18 4,
    descField d 0x20 4, descField d 0x24 4, descField d 0x28 4, num 0x30, num 0x38⟩

/-- An operand: the offset of its key, stored rows and columns, leading dimension, and whether it is read and written. -/
structure Opnd where
  key : Nat
  r : Nat
  c : Nat
  ld : Nat
  rd : Bool
  wr : Bool
  deriving DecidableEq, Repr

/-- The operands of a job (R334), vectors as single columns; an output that is not read needs ST alone. -/
def MxDesc.operands (d : MxDesc) (betaZero : Bool) : List Opnd :=
  match d.op with
  | 1 =>
    let ar := if d.ta then d.k else d.m
    let ac := if d.ta then d.m else d.k
    let br := if d.tb then d.n else d.k
    let bc := if d.tb then d.k else d.n
    [⟨0x40, ar, ac, d.lda, true, false⟩, ⟨0x50, br, bc, d.ldb, true, false⟩, ⟨0x60, d.m, d.n, d.ldc, !betaZero, true⟩]
  | 2 => [⟨0x40, d.m, d.n, d.lda, true, false⟩, ⟨0x50, d.n, 1, d.n, true, false⟩, ⟨0x60, d.m, 1, d.m, !betaZero, true⟩]
  | 3 => [⟨0x40, d.n, d.n, d.lda, true, true⟩]
  | 4 => [⟨0x40, d.n, d.n, d.lda, true, false⟩, ⟨0x50, d.n, d.m, d.ldb, true, true⟩]
  | 5 => [⟨0x40, d.n, d.n, d.lda, true, false⟩, ⟨0x50, d.n, 1, d.n, true, true⟩, ⟨0x60, d.n, 1, d.n, true, false⟩, ⟨0x70, 2 * d.n, 1, 2 * d.n, true, false⟩]
  | _ => []

/-- Whether OP, FLAGS and the leading dimensions stand (R332, R334). -/
def MxDesc.ok (d : MxDesc) : Bool :=
  decide (1 ≤ d.op) && decide (d.op ≤ 5) && d.flagsOk && (!d.ta || d.op == 1 || d.op == 4) && (!d.tb || d.op == 1) &&
  (d.operands false).all (fun o => decide (o.r ≤ o.ld))

/-- The jobs that access nothing (R339). -/
def MxDesc.empty (d : MxDesc) : Bool :=
  match d.op with
  | 1 => d.m == 0 || d.n == 0
  | 2 => d.m == 0
  | 3 => d.n == 0
  | 4 => d.n == 0 || d.m == 0
  | _ => d.n == 0 || d.k == 0

/-- The engine cycles of R338. -/
def MxDesc.cycles (d : MxDesc) : Nat :=
  let up := fun (a b : Nat) => (a + b - 1) / b
  let t := fun (x : Nat) => up x 8
  let v := fun (x : Nat) => if d.single then up x 16 else t x
  let s := if d.single then 2 else 1
  32 + match d.op with
  | 1 => v d.m * t d.n * (d.k + 4)
  | 2 => up (d.m * d.n) (32 * s) + v d.m
  | 3 => 12 * d.n + up (d.n ^ 3) (192 * s)
  | 4 => 8 * d.n + up (d.n ^ 2 * d.m) (128 * s)
  | _ => d.k * (up (d.n ^ 2) (32 * s) + v d.n + 16)

/-- An operand's extent (R331), 0 where the job does not access it. -/
def Opnd.extent (o : Opnd) (e : Nat) : Nat := if o.r = 0 ∨ o.c = 0 then 0 else ((o.c - 1) * o.ld + o.r) * e

/-- How a job or a descriptor ends: code, subcode, address or column. -/
abbrev Ending := Nat × Nat × Option Nat

/-- The checks before any operand access (R331, R332, R336, R337), and the operands' local addresses. -/
def Mod.mxCheck (m : Mod) (d : MxDesc) (desc : List Byte) (tags : List Bool) : Except Ending (List (Opnd × Nat × Nat)) :=
  let e := if d.single then 4 else 8
  let betaZero := (fmtOf d.single).eq d.beta 0
  if !d.ok then .error (esDESC, 0, none)
  else
    let ops := (d.operands betaZero).map (fun o => (o, m.descKey desc tags o.key))
    let size := fun (o : Opnd) => if d.empty then 0 else o.extent e
    if ops.any (fun p => size p.1 != 0 && p.2.cursor % e != 0) then .error (esDESC, 0, none)
    else match ops.findSome? (fun p => match p.2.check m.node 0 (size p.1) ((if p.1.rd then rLD else 0) ||| (if p.1.wr then rST else 0)) with
      | .error s => some s
      | .ok _ => none) with
    | some s => .error (esKEY, s, none)
    | none =>
      let used := ops.filter (fun p => size p.1 != 0)
      if used.any (fun p => !m.isLocal p.2.cursor) then .error (esREMOTE, 0, none)
      else
        let place := fun (p : Opnd × Key) => p.2.cursor % 2 ^ 52
        let meet := fun (p q : Opnd × Key) => p.1.key != q.1.key && overlap (place p) (size p.1) (place q) (size q.1)
        let bad := match d.op with
          | 3 => false
          | 1 => used.any (fun p => p.1.wr && used.any (meet p))
          | 2 => used.any (fun p => p.1.wr && used.any (meet p))
          | _ => used.any (fun p => used.any (meet p))
        if bad then .error (esOVERLAP, 0, none)
        else .ok (used.map (fun p => (p.1, place p, p.2.epoch)))

/-! ### Operand accesses -/

/-- The pieces of [a, a + n) within lines. -/
def lineCuts (a n : Nat) : List (Nat × Nat) := linePieces (n / 64 + 2) a n

/-- [a, a + n) read line by line. -/
def Mod.mxLoad (m : Mod) (g epoch a n : Nat) : Mod × Except Ending (List Byte) :=
  (lineCuts a n).foldl (fun r p => match r with
    | (m, .error e) => (m, .error e)
    | (m, .ok bs) => match m.passGate ⟨mxMaster g, false, epoch, 0, p.1, p.2, .load⟩ with
      | (m, some k) => (m, .error (esACCESS, k, some (m.globalAddr p.1)))
      | (m, none) =>
        let (m, got) := m.loadAs (mxMaster g) p.1 p.2
        if got.poison then (m, .error (esMEMERR, 0, none)) else (m, .ok (bs ++ got.data))) (m, .ok [])

/-- Bytes written from `a` on line by line, without tags (R153). -/
def Mod.mxStore (m : Mod) (g epoch a : Nat) (bs : List Byte) : Mod × Except Ending Unit :=
  (lineCuts a bs.length).foldl (fun r p => match r with
    | (m, .error e) => (m, .error e)
    | (m, .ok ()) => match m.passGate ⟨mxMaster g, false, epoch, 0, p.1, p.2, .store⟩ with
      | (m, some k) => (m, .error (esACCESS, k, some (m.globalAddr p.1)))
      | (m, none) => (m.storeAs (mxMaster g) p.1 ((bs.drop (p.1 - a)).take p.2) [], .ok ())) (m, .ok ())

/-- How a job at work stops: its ending, with the flags gathered so far. -/
abbrev Stop := Ending × FFlags

/-- An access of a job that has gathered flags. -/
def withFlags {α : Type} (fl : FFlags) (x : Mod × Except Ending α) : Mod × Except Stop α :=
  match x with
  | (m, .error e) => (m, .error (e, fl))
  | (m, .ok a) => (m, .ok a)

/-- A step of a job that only goes on where the one before succeeded. -/
def andThen {ε α β : Type} (x : Mod × Except ε α) (f : Mod → α → Mod × Except ε β) : Mod × Except ε β :=
  match x with
  | (m, .error e) => (m, .error e)
  | (m, .ok a) => f m a

/-- Bytes as numbers of `e` bytes. -/
def numsOf (e : Nat) (bs : List Byte) : List Nat := (upTo (bs.length / e)).map (fun i => descField bs (i * e) e)
/-- Numbers as bytes. -/
def numBytes (e : Nat) (l : List Nat) : List Byte := l.flatMap (leBytes e)

/-- Rows `i` on, to the end, of the columns of an operand from `j` on, `k` of them, one list. -/
def Mod.mxCols (m : Mod) (g e : Nat) (p : Opnd × Nat × Nat) (j k : Nat) (from_ : Nat → Nat) : Mod × Except Ending (List Nat) :=
  (span j k).foldl (fun r j => andThen r (fun m l =>
    let i := from_ j
    andThen (m.mxLoad g p.2.2 (p.2.1 + (j * p.1.ld + i) * e) ((p.1.r - i) * e)) (fun m bs => (m, .ok (l ++ List.replicate i 0 ++ numsOf e bs))))) (m, .ok [])

/-- A whole operand. -/
def Mod.mxAll (m : Mod) (g e : Nat) (p : Opnd × Nat × Nat) : Mod × Except Ending (List Nat) := m.mxCols g e p 0 p.1.c (fun _ => 0)

/-- Runs of bytes, those that lie end to end joined. -/
def joinRuns (l : List (Nat × List Byte)) : List (Nat × List Byte) :=
  l.foldr (fun r acc => match acc with
    | (a, bs) :: rest => if r.1 + r.2.length = a then (r.1, r.2 ++ bs) :: rest else r :: acc
    | [] => [r]) []

/-- The tiles of `n` columns, 8 wide, or of `n` rows, `h` high: the first and how many. -/
def tilesOf (h n : Nat) : List (Nat × Nat) := (upTo ((n + h - 1) / h)).map (fun t => (h * t, Nat.min h (n - h * t)))

/-- The rows of a tile of FP32 or FP64. -/
def tileRows (single : Bool) : Nat := if single then 16 else 8

/-- The elements of an output's tile: column and row, from row `first` of each column on. -/
def tileCells (cols rows : Nat × Nat) (first : Nat → Nat) : List (Nat × Nat × Nat) :=
  (span cols.1 cols.2).map (fun j => let i := Nat.max rows.1 (first j); (j, i, rows.1 + rows.2 - i))

/-- A tile of an output written, a whole line where the tile covers it (R337). `val` gives its elements by column and row. -/
def Mod.mxPutTile (m : Mod) (g : Nat) (single : Bool) (p : Opnd × Nat × Nat) (cells : List (Nat × Nat × Nat)) (val : Nat → Nat → FNum) : Mod × Except Ending Unit :=
  let e := if single then 4 else 8
  let runs := cells.map (fun c => (p.2.1 + (c.1 * p.1.ld + c.2.1) * e, numBytes e ((span c.2.1 c.2.2).map (fun i => (val c.1 i).1))))
  (joinRuns (runs.filter (fun r => !r.2.isEmpty))).foldl (fun r b => andThen r (fun m _ => m.mxStore g p.2.2 b.1 b.2)) (m, .ok ())

/-- The row tiles of a column tile written in order, with the flags of their elements, the first `lim` of them where a limit stands. -/
def Mod.mxPutTiles (m : Mod) (g : Nat) (single : Bool) (p : Opnd × Nat × Nat) (cols : Nat × Nat) (first : Nat → Nat) (val : Nat → Nat → FNum)
    (lim : Option Nat) (fl : FFlags) : Mod × Except Stop FFlags :=
  let rows := tilesOf (tileRows single) p.1.r
  ((lim.map rows.take).getD rows).foldl (fun r rt => andThen r (fun m fl =>
    let cells := tileCells cols rt first
    let fl := cells.foldl (fun a c => (span c.2.1 c.2.2).foldl (fun a i => a.or (val c.1 i).2) a) fl
    andThen (withFlags fl (m.mxPutTile g single p cells val)) (fun m _ => (m, .ok fl)))) (m, .ok fl)

/-- The tiles left of a limit before column tile `t` of an output. -/
def limitAt (lim : Option Nat) (single : Bool) (p : Opnd × Nat × Nat) (col : Nat) : Option Nat :=
  lim.map (· - col / 8 * (tilesOf (tileRows single) p.1.r).length)

/-- A job over the column tiles of an operand in place, of which it performs the first `lim` tiles where a limit stands: `f` gives the new
columns from their old values. -/
def Mod.mxTiles (m : Mod) (g : Nat) (single : Bool) (p : Opnd × Nat × Nat) (load : Bool) (lim : Option Nat) (f : Nat → List Nat → List FNum) :
    Mod × Except Stop FFlags :=
  (tilesOf 8 p.1.c).foldl (fun r t => andThen r (fun m fl =>
    let left := limitAt lim single p t.1
    if left = some 0 then (m, .ok fl)
    else andThen (withFlags fl (if load then m.mxCols g (if single then 4 else 8) p t.1 t.2 (fun _ => 0) else (m, .ok []))) (fun m old =>
      let cols := (upTo t.2).map (fun s => f (t.1 + s) ((old.drop (s * p.1.r)).take p.1.r))
      m.mxPutTiles g single p t (fun _ => 0) (fun j i => (cols.getD (j - t.1) []).getD i (0, {})) left fl))) (m, .ok {})

/-! ### The jobs -/

/-- GEMM and GEMV, whose operands A and B are accessed only where the inner dimension is not 0. -/
def Mod.mxProduct (m : Mod) (g : Nat) (d : MxDesc) (ops : List (Opnd × Nat × Nat)) (lim : Option Nat) : Mod × Except Stop FFlags :=
  let e := if d.single then 4 else 8
  let inner := if d.op = 1 then d.k else d.n
  let find := fun (k : Nat) => ops.find? (fun p => p.1.key == k)
  let read := fun (m : Mod) (k : Nat) => match find k with
    | some p => withFlags {} (m.mxAll g e p)
    | none => (m, .ok [])
  match find 0x60 with
  | none => (m, .ok {})
  | some out =>
    andThen (read m 0x40) (fun m a => andThen (read m 0x50) (fun m b =>
      m.mxTiles g d.single out out.1.rd lim (fun j old => (upTo d.m).map (fun i =>
        mxElement d.single d.alpha d.beta (if out.1.rd then some (old.getD i 0) else none) ((upTo inner).map (fun k =>
          (if d.ta then el a d.k k i else el a d.m i k,
           if d.op = 2 then b.getD k 0 else if d.tb then el b d.n j k else el b d.k k j)))))))

/-- CHOL. -/
def Mod.mxChol (m : Mod) (g : Nat) (d : MxDesc) (p : Opnd × Nat × Nat) (lim : Option Nat) : Mod × Except Stop FFlags :=
  let e := if d.single then 4 else 8
  andThen (withFlags {} (m.mxCols g e p 0 d.n id)) (fun m a =>
    let (cols, bad) := cholColumns (fmtOf d.single) a d.n
    andThen ((tilesOf 8 cols.length).foldl (fun r t => andThen r (fun m fl =>
      m.mxPutTiles g d.single p t id (fun j i => (cols.getD j []).getD (i - j) (0, {})) (limitAt lim d.single p t.1) fl)) (m, .ok {})) (fun m fl =>
      let cut := lim.any (fun n => decide (n ≤ (tilesOf 8 cols.length).length * (tilesOf (tileRows d.single) p.1.r).length))
      match bad with
      | some (j, last) => if cut then (m, .ok fl) else (m, .error ((esNOTPD, 0, some j), fl.or last))
      | none => (m, .ok fl)))

/-- TRSM. -/
def Mod.mxTrsm (m : Mod) (g : Nat) (d : MxDesc) (l b : Opnd × Nat × Nat) (lim : Option Nat) : Mod × Except Stop FFlags :=
  let e := if d.single then 4 else 8
  let f := fmtOf d.single
  andThen (withFlags {} (m.mxCols g e l 0 d.n id)) (fun m a =>
    m.mxTiles g d.single b true lim (fun _ old => if d.ta then solveUp f a d.n old else solveDown f a d.n old))

/-- PGSTEP. -/
def Mod.mxPg (m : Mod) (g : Nat) (d : MxDesc) (h x gv lim : Opnd × Nat × Nat) (stop : Option Nat) : Mod × Except Stop FFlags :=
  let all := fun (m : Mod) (p : Opnd × Nat × Nat) => withFlags {} (m.mxAll g (if d.single then 4 else 8) p)
  andThen (all m h) (fun m h => andThen (all m x) (fun m x0 => andThen (all m gv) (fun m gv => andThen (all m lim) (fun m lim =>
    let v := (upTo d.k).foldl (fun (r : List FNum) _ =>
      ((pgStep d.single d.alpha h gv lim d.n (r.map Prod.fst)).zip r).map (fun y => (y.1.1, y.1.2.or y.2.2))) (x0.map (fun b => (b, {})))
    m.mxPutTiles g d.single x (0, 1) (fun _ => 0) (fun _ i => v.getD i (0, {})) stop {}))))

/-- A checked job with its operands; an aborted one performs its first `lim` tiles. -/
def Mod.mxWork (m : Mod) (g : Nat) (d : MxDesc) (ops : List (Opnd × Nat × Nat)) (lim : Option Nat) : Mod × Except Stop FFlags :=
  if d.empty then (m, .ok {})
  else match d.op, ops with
  | 3, [p] => m.mxChol g d p lim
  | 4, [l, b] => m.mxTrsm g d l b lim
  | 5, [h, x, gv, l] => m.mxPg g d h x gv l lim
  | _, ops => m.mxProduct g d ops lim

/-- Whether a job takes exactly the cycles of R338: its descriptor and every operand in the engine's own region scratch. -/
def mxOwn (g addr e : Nat) (ops : List (Opnd × Nat × Nat)) : Bool :=
  let own := fun (a n : Nat) => decide (rgnScratch g ≤ a) && decide (a + n ≤ rgnScratch g + 0x400000)
  own addr 128 && ops.all (fun p => own p.2.1 (p.1.extent e))

/-- Whether a dimension of 0 lets R339 give a job's cycles wherever its operands lie. -/
def MxDesc.timed (d : MxDesc) : Bool := d.empty || (d.op == 1 && d.k == 0) || (d.op == 2 && d.n == 0)

/-- A job run to its end, or to the tile at which an ABORT ends it: its code, subcode, flags, failing address or column, and its count by R338
where it has completed or has met a pivot that is not positive. -/
def Mod.mxRunJob (m : Mod) (g : Nat) (j : MxJob) : Mod × MxJob :=
  let d := mxDesc j.desc
  match m.mxCheck d j.desc j.tags with
  | .error (c, s, a) => (m, { j with code := c, sub := s, fail := a })
  | .ok ops =>
    let count := some (d.cycles, d.timed || mxOwn g j.addr (if d.single then 4 else 8) ops)
    match m.mxWork g d ops j.tiles with
    | (m, .error ((c, s, a), fl)) => (m, { j with code := c, sub := s, flags := fl.bits, fail := a, cycles := if c = esNOTPD then count else none })
    | (m, .ok fl) =>
      if j.tiles.isSome then (m, { j with flags := fl.bits })
      else (m, { j with code := esOK, sub := 0, flags := fl.bits, cycles := count })

/-- A job's operand accesses, made unless its descriptor's read has ended it already. -/
def Mod.mxWorked (m : Mod) (g : Nat) (j : MxJob) : Mod × MxJob :=
  if j.code = esOK ∨ j.tiles.isSome then m.mxRunJob g j else (m, j)

/-! ### Matrix engine commands -/

/-- A write to a register of matrix engine `g`, ignored while the engine is off (R460). -/
def Mod.mxWrite (m : Mod) (g : Nat) (f : Mod → Mod) : Mod := m.iff (m.domOn (44 + g)) f

/-- MX_PROD_WRITE (R333, R95). -/
def execMxProdWrite (_w : Writer) (g : RegionId) (index : BitVec 16) (s : State) : Host.Outcome State Fault Refusal :=
  s.act (fun m => m.mxWrite g (fun m => m.mxProd g index.toNat))

/-- An enabled engine with a posted descriptor takes it; one whose read fails ends with that. -/
def Mod.mxStart (m : Mod) (g : Nat) : Mod :=
  let slots := m.rd F.MX_RING_SIZE_SLOTS g
  let cons := m.rd F.MX_CONS_INDEX g
  if !m.flag F.MX_CTRL_ENABLE g || m.flag F.MX_STATUS_STOPPED g || (m.mxJob g).isSome || !m.domOn (44 + g) || m.rgnDown g ||
      slots == 0 || m.rd F.MX_PROD_INDEX g == cons then m
  else
    let slot := cons % slots
    let a := 128 * m.rd F.MX_RING_BASE_BASE g + 128 * slot
    let m := m.put F.MX_STATUS_BUSY g true
    match m.engineDesc (mxMaster g) a 128 with
    | (m, .error (c, s, ad)) => m.setMxJob g (some ⟨slot, a, [], [], c, s, 0, ad.map m.globalAddr, none, none⟩)
    | (m, .ok (d, tags)) => m.setMxJob g (some ⟨slot, a, d, tags, esOK, 0, 0, none, none, none⟩)

/-- MATRIX_JOB_START (R333). -/
def execMatrixJobStart (g : RegionId) (s : State) : Host.Outcome State Fault Refusal := s.act (fun m => m.mxStart g)

/-- The cycles of a job: its count by R338 and R339, with free stalls added where an operand or the ring lies elsewhere; a free value for a job
that has no count, or whose cycles do not fit CYCLES. -/
def Mod.mxCycles (m : Mod) (j : MxJob) : Mod × Nat :=
  let (k, m') := m.fresh
  let free := (Config.mxStall k).toNat
  match j.cycles with
  | some (c, true) => if c < 2 ^ 32 then (m, c) else (m', free)
  | some (c, false) => (m', if c + free < 2 ^ 32 then c + free else free)
  | none => (m', free)

/-- The running job ends: its operands are accessed here, unless its descriptor's read has ended it already; STATUS and CYCLES are written, the consumer index advances. -/
def Mod.mxDone (m : Mod) (g : Nat) : Mod :=
  match m.mxJob g with
  | none => m
  | some j =>
    let (m, j) := m.mxWorked g j
    let (m, cyc) := m.mxCycles j
    let m := m.iff (descPlace j.addr 128) (fun m =>
      m.engineWrite (mxMaster g) (j.addr + 4) (leBytes 4 (j.code + j.sub * 256 + j.flags * 65536) ++ leBytes 4 cyc))
    let m := m.iff j.fail.isSome (fun m => m.wr F.MX_FAIL_ADDR g (j.fail.getD 0))
    let m := ((m.wr F.MX_CONS_INDEX g ((m.rd F.MX_CONS_INDEX g + 1) % 65536)).count F.MX_JOBS_COUNT g).wr F.MX_CYCLES_CYCLES g cyc
    let m := ((m.put F.MX_STATUS_BUSY g false).wr F.MX_STATUS_LAST g j.code).setMxJob g none
    let m := m.iff (j.code != esOK) (fun m => m.put F.MX_STATUS_STOPPED g true)
    m.iff ((mxDesc j.desc).irq || j.code != esOK) (fun m => m.raise (172 + g))

/-- MATRIX_JOB_DONE (R333). -/
def execMatrixJobDone (g : RegionId) (s : State) : Host.Outcome State Fault Refusal := s.act (fun m => m.mxDone g)

/-- MX_ENABLE (R340). -/
def execMxEnable (_w : Writer) (g : RegionId) (en : Bool) (s : State) : Host.Outcome State Fault Refusal := s.act (fun m => m.mxWrite g (fun m => m.mxEnable g en))

/-- MX_RESUME (R333). -/
def execMxResume (_w : Writer) (g : RegionId) (s : State) : Host.Outcome State Fault Refusal := s.act (fun m => m.mxWrite g (fun m => m.mxResume g))

/-- MX_ABORT (R340). -/
def execMxAbort (_w : Writer) (g : RegionId) (s : State) : Host.Outcome State Fault Refusal := s.act (fun m => m.mxWrite g (fun m => m.mxAbort g))

/-! ### Transfer channels (R341 to R346) -/

/-- XFR_START (R341). -/
def execXfrStart (_w : Writer) (n : ChanId) (s : State) : Host.Outcome State Fault Refusal := s.act (fun m => m.xfrStart n)

/-- XFR_ABORT (R344). -/
def execXfrAbort (_w : Writer) (n : ChanId) (s : State) : Host.Outcome State Fault Refusal := s.act (fun m => m.xfrAbort n)

/-- A descriptor's next chunk: its source and destination addresses and its length, none when all is copied. -/
structure Chunk where
  src : Nat
  dst : Nat
  n : Nat
  deriving DecidableEq, Repr

/-- The next chunk (R342): descending where the resolved local ranges overlap. A remote source is read a line at a time. -/
def Mod.xfrChunk (m : Mod) (r : XfrRun) : Option Chunk :=
  let src := (m.descKey r.desc r.tags 0).cursor
  let dst := (m.descKey r.desc r.tags 16).cursor
  let len := descField r.desc 0x20 8
  let left := len - r.done
  if left = 0 then none
  else
    let desc := m.isLocal src && m.isLocal dst && overlap (src % 2 ^ 52) len (dst % 2 ^ 52) len
    let one := !m.isLocal src
    if desc then
      let n := chunkDown (dst + left) (src + left) left one
      some ⟨src + left - n, dst + left - n, n⟩
    else
      let n := chunkUp (dst + r.done) (src + r.done) left one
      some ⟨src + r.done, dst + r.done, n⟩

/-- The global address of an effective address. -/
def Mod.globalEa (m : Mod) (ea : Nat) : Nat := if m.isLocal ea then m.globalAddr (ea % 2 ^ 52) else ea

/-- A descriptor ends. -/
def Mod.xfrEnd (m : Mod) (n : Nat) (r : XfrRun) (e : Ending) : Mod := m.setXfr n (some { r with tid := none, resp := none, fin := some e })

/-- The code of a failed request (R343): a gate's kind, or the mesh's. -/
def xfrFailure (kind : Nat) : Nat := if kind ≥ 0x20 then esMESH else esACCESS

/-- Whether both keys of a descriptor stand; a sweep that clears one ends it with KEY, subcode TAG (R331, R162). -/
def Mod.xfrKeysLive (m : Mod) (r : XfrRun) : Bool := (m.descKey r.desc r.tags 0).live && (m.descKey r.desc r.tags 16).live

/-- A chunk is at its destination: DONE advances, and the descriptor ends with its last. -/
def Mod.xfrAdvance (m : Mod) (n : Nat) (r : XfrRun) (k : Nat) : Mod :=
  let r := { r with done := r.done + k, tid := none, resp := none }
  let m := (m.wr F.XFR_CH_DONE_BYTES n r.done).setXfr n (some r)
  if !m.xfrKeysLive r then m.xfrEnd n r (esKEY, kfTAG, none)
  else if r.done ≥ descField r.desc 0x20 8 then m.xfrEnd n r (esOK, 0, none)
  else if r.aborting then m.xfrEnd n r (esABORTED, 0, none)
  else m

/-- The granules of a chunk whose tags are kept (R155). -/
def Mod.xfrKeeps (m : Mod) (r : XfrRun) (c : Chunk) (data : List Byte) (tag : Nat → Bool) : List Nat :=
  let ks := m.descKey r.desc r.tags 0
  let kd := m.descKey r.desc r.tags 16
  (chunkGranules c.src c.dst c.n).filter (fun o =>
    let k := m.filterKey (Key.ofBytes ((data.drop o).take 16) (tag o))
    k.live && k.loc != 2 && ks.has rLK && kd.has rSK)

/-- DEADLINE of a channel's requests (R343): its descriptor's first request plus DL_NS. -/
def Mod.xfrDeadline (m : Mod) (r : XfrRun) : Nat :=
  let d := descField r.desc 0x30 4
  match r.deadline with
  | some t => t
  | none => if d = 0 then 0 else (m.now + d) % 2 ^ 40

/-- A request of a channel leaves, or ends the descriptor. -/
def Mod.xfrSend (m : Mod) (n : Nat) (r : XfrRun) (ea : Nat) (writing : Bool) (x : Mod × Except Nat Nat) : Mod :=
  match x with
  | (m', .ok tid) => m'.setXfr n (some { r with tid := some tid, resp := none, writing := writing, deadline := some (m.xfrDeadline r) })
  | (m', .error kind) => m'.xfrEnd n r (esMESH, kind, some ea)

/-- A chunk's data goes to its destination: written at once, or sent; a whole line travels by WRRUN. -/
def Mod.xfrPut (m : Mod) (n : Nat) (r : XfrRun) (c : Chunk) (data : List Byte) (keep : List Nat) : Mod :=
  let kd := m.descKey r.desc r.tags 16
  if m.isLocal c.dst then
    let a := c.dst % 2 ^ 52
    match m.chunkGate ⟨xfrMaster n, false, kd.epoch, 0, a, c.n, .store⟩ with
    | (m, some k) => m.xfrEnd n r (esACCESS, k, some (m.globalAddr a))
    | (m, none) => (m.storeAs (xfrMaster n) a data keep).xfrAdvance n r c.n
  else
    let tags := keep.foldl (fun t o => if m.keyLeaves true (Key.ofBytes ((data.drop o).take 16) true) then t ||| 2 ^ ((c.dst % 64 + o) / 16) else t) 0
    let dl := m.xfrDeadline r
    if c.n = 64 then
      let df : Flit := ⟨BitVec.ofNat 12 (eaNode c.dst), BitVec.ofNat 12 m.node, 3, 0x10, 0, 0, 0, BitVec.ofNat 4 tags, 0, 0, false, 0, false, false, linePay 0 data⟩
      m.xfrSend n r c.dst true (m.request (.channel n) (eaNode c.dst) 0x06 (c.dst % 2 ^ 52) 64 kd.epoch dl 0 0 [df])
    else m.xfrSend n r c.dst true (m.sendStore (.channel n) c.dst data tags kd.epoch dl)

/-- A chunk's source is read, or asked for by RDRUN. -/
def Mod.xfrGet (m : Mod) (n : Nat) (r : XfrRun) (c : Chunk) : Mod :=
  let ks := m.descKey r.desc r.tags 0
  if m.isLocal c.src then
    let a := c.src % 2 ^ 52
    match m.chunkRead ⟨xfrMaster n, false, ks.epoch, 0, a, c.n, .load⟩ with
    | (m, .error (k, at_)) => m.xfrEnd n r (esACCESS, k, some (m.globalAddr at_))
    | (m, .ok (data, poison)) =>
      if poison then m.xfrEnd n r (esMEMERR, 0, none)
      else m.xfrPut n r c data (m.xfrKeeps r c data (fun o => m.tagAt (a + o)))
  else
    let line := c.src - c.src % 64
    m.xfrSend n r c.src false (m.request (.channel n) (eaNode c.src) 0x05 (line % 2 ^ 52) 64 ks.epoch (m.xfrDeadline r) 0 0 [])

/-- What a channel does next for its running descriptor; a key whose tag a sweep has cleared ends it (R331). -/
def Mod.xfrStep (m : Mod) (n : Nat) : Mod :=
  match m.xfrRun n with
  | none => m
  | some r =>
    match r.fin, m.xfrChunk r with
    | some _, _ => m
    | none, none => m.xfrEnd n r (esOK, 0, none)
    | none, some c =>
      match r.tid, r.resp with
      | some _, none => m
      | some _, some (.failed _ kind) => m.xfrEnd n r (xfrFailure kind, kind, some (if r.writing then c.dst else c.src))
      | some _, some .acked => m.xfrAdvance n r c.n
      | some _, some (.data d tags poison) =>
        if !m.xfrKeysLive r then m.xfrEnd n r (esKEY, kfTAG, none)
        else if poison then m.xfrEnd n r (esMEMERR, 0, none)
        else
          let data := (d.drop (c.src % 64)).take c.n
          m.xfrPut n { r with tid := none, resp := none } c data (m.xfrKeeps r c data (fun o => bitAt tags ((c.src % 64 + o) / 16)))
      | none, _ =>
        if r.aborting then m.xfrEnd n r (esABORTED, 0, none)
        else if !m.xfrKeysLive r then m.xfrEnd n r (esKEY, kfTAG, none)
        else m.xfrGet n r c

/-- TRANSFER_CHUNK_DONE (R342 to R344). -/
def execTransferChunkDone (n : ChanId) (s : State) : Host.Outcome State Fault Refusal := s.act (fun m => m.xfrStep n)

/-- A descriptor ends: STATUS and DONE are written, and the channel goes on at NEXT, ends or stops. -/
def Mod.xfrDone (m : Mod) (n : Nat) : Mod :=
  match m.xfrRun n with
  | none => m
  | some r =>
    match r.fin with
    | none => m
    | some (c, sub, a) =>
      let m := m.iff (descPlace r.addr 64) (fun m => m.engineWrite (xfrMaster n) (r.addr + 0x36) (leBytes 2 (c + 256 * sub) ++ leBytes 8 r.done))
      let m := ((m.wr F.XFR_CH_STATUS_CODE n c).wr F.XFR_CH_STATUS_SUB n sub).wr F.XFR_CH_DONE_BYTES n r.done
      let m := m.iff a.isSome (fun m => m.wr F.XFR_CH_FAIL_ADDR n (a.getD 0))
      let next := descField r.desc 0x28 8
      let goesOn := c == esOK && next != 0
      let m := m.iff ((c == esOK && bitAt (descField r.desc 0x34 2) 0) || !goesOn) (fun m => m.raise (176 + n))
      if goesOn then
        let m := m.xfrTake n next
        m.iff r.aborting (fun m => m.xfrAbort n)
      else
        let m := (m.setXfr n none).put F.XFR_CH_STATUS_BUSY n false
        if c = esOK then m.put F.XFR_CH_STATUS_DONE n true else m.put F.XFR_CH_STATUS_ERR n true

/-- DESCRIPTOR_DONE (R346). -/
def execDescriptorDone (n : ChanId) (s : State) : Host.Outcome State Fault Refusal := s.act (fun m => m.xfrDone n)

end Sys2Proof.Machine
end

