-- ==== Sys2Proof/Machine/MbxOps.lean ====
section
/-!
DEFINITION. Sys2Proof/Machine/MbxOps.lean: how the Sheepdog serves mailbox commands (R355 to R366, R398, R404): slots and
their checks, sessions, handles, the lock's token, reads that go to other nodes.
-/
namespace Sys2Proof.Machine

/-! ### Slots (R363) -/

/-- A command as its slot gives it, with its payload where that lies in its area. -/
structure Cmd where
  lc : LongCmd
  flags : Nat
  payLen : Nat
  payOff : Nat
  rsv : Nat
  args : List Byte
  payload : List Byte
  deriving DecidableEq, Repr

/-- An argument of `n` bytes at A+`off`. -/
def Cmd.arg (c : Cmd) (off n : Nat) : Nat := ofLeBytes ((c.args.drop off).take n)
/-- A number of `n` bytes at an offset of the payload. -/
def Cmd.pay (c : Cmd) (off n : Nat) : Nat := ofLeBytes ((c.payload.drop off).take n)

/-- A command from the bytes of its slot; a relayed one's payload comes beside it. -/
def cmdOf (q index sess : Nat) (b : List Byte) (payload : List Byte) : Cmd :=
  let n := fun (off k : Nat) => ofLeBytes ((b.drop off).take k)
  ⟨⟨q, index, n 0 2, n 4 4, bitAt (n 2 2) 0, n 8 4, n 0x14 4, n 0x18 4, 0, sess⟩, n 2 2, n 0x0C 4, n 0x10 4, n 0x1C 4, padTo 32 ((b.drop 0x20).take 32), payload⟩

/-- Whether a range lies in a pair's payload area at a multiple of 8. -/
def inArea (off n : Nat) : Bool := off % 8 == 0 && decide (off + n ≤ 0x20000)

/-- The first waiting command of a pair; pair 4 is the side-band's (R404). -/
def Mod.front (m : Mod) (q : Nat) : Option Cmd :=
  if q = 4 then m.relays.head?.map (fun r => cmdOf 4 r.seq r.sess r.slot r.payload)
  else
    let i := m.rd F.MBX_Q_CMD_CONS_INDEX q
    if m.rd F.MBX_Q_CMD_PROD_INDEX q = i then none
    else
      let c := cmdOf q i 0 (m.bytes (cmdSlot q i) 64) []
      some (if inArea c.payOff c.payLen then { c with payload := m.bytes (payArea q + c.payOff) c.payLen } else c)

/-- The first waiting command of a pair taken: the pair is the one served last. -/
def Mod.takeFront (m : Mod) (q : Nat) : Mod :=
  let m := { m with served := q }
  if q = 4 then { m with relays := m.relays.drop 1 }
  else m.wr F.MBX_Q_CMD_CONS_INDEX q ((m.rd F.MBX_Q_CMD_CONS_INDEX q + 1) % 65536)

/-- The commands that write the configuration flash: none starts during a loss response (R435). -/
def flashOps : List Nat := [0x0112, 0x0113, 0x0115, 0x0803]

/-- Whether the Sheepdog may begin a command of a pair (R355): it serves, nothing time-bounded runs, no long command holds
the pair, a completion slot is free. -/
def Mod.mayBegin (m : Mod) (q : Nat) : Bool :=
  let st := m.rd F.MBX_STATE_STATE
  (st == 2 || st == 3) && !(m.gathers.any (fun g => match g.cmd with
    | some c => decide (c.q < 5)
    | none => false)) && !(m.long.any (·.q == q)) &&
  (q == 4 || decide ((m.rd F.MBX_Q_CPL_PROD_INDEX q + 65536 - m.rd F.MBX_Q_CPL_CONS_INDEX q) % 65536 < 256))

/-- Whether a pair has a command that the Sheepdog may begin: the write of a flash is put off during a loss response (R435). -/
def Mod.waits (m : Mod) (q : Nat) : Bool :=
  m.mayBegin q && (match m.front q with
    | some c => !(m.twin.loss.isSome && flashOps.contains c.lc.opcode)
    | none => false)

/-- Whether it is a pair's turn in the round robin (R355): no pair between the one served last and this one has a command waiting. -/
def Mod.turn (m : Mod) (q : Nat) : Bool := (((upTo 5).map (fun i => (m.served + 1 + i) % 5)).takeWhile (· != q)).all (fun p => !m.waits p)

/-! ### What each command takes (R357, R365, R398, R404) -/

/-- What a command names: its argument bytes as offset and length, whether it needs the token, takes a handle, a payload, has
a response, is served in lamb service, in 1.x sessions, on the side-band's pair. -/
structure CmdSpec where
  args : List (Nat × Nat) := []
  token : Bool := false
  handle : Bool := false
  pay : Bool := false
  resp : Bool := false
  lamb : Bool := false
  v1 : Bool := true
  side : Bool := true
  deriving DecidableEq, Repr

/-- The commands of R365. -/
def cmdSpec (op : Nat) : Option CmdSpec :=
  match op with
  | 0x0001 => some { args := [(0, 2)], lamb := true }
  | 0x0002 => some { lamb := true }
  | 0x0003 => some { pay := true, resp := true, lamb := true }
  | 0x0004 => some { resp := true, lamb := true }
  | 0x0101 => some { args := [(4, 2)], lamb := true }
  | 0x0102 => some { args := [(0, 4)], token := true, lamb := true }
  | 0x0103 => some { lamb := true }
  | 0x0110 => some { args := [(0, 4)] }
  | 0x0111 => some { args := [(0, 4)], handle := true, pay := true }
  | 0x0112 => some { args := [(0, 4), (4, 1)], token := true, handle := true }
  | 0x0113 => some { args := [(0, 4), (8, 8)], token := true }
  | 0x0114 => some { args := [(0, 4)], token := true }
  | 0x0115 => some { args := [(0, 4), (4, 1)], token := true }
  | 0x0116 => some { resp := true, lamb := true }
  | 0x0201 => some { pay := true, lamb := true }
  | 0x0202 => some { handle := true, resp := true, lamb := true }
  | 0x0203 => some { pay := true }
  | 0x0204 => some { args := [(0, 8)], handle := true, pay := true }
  | 0x0205 => some { handle := true, lamb := true }
  | 0x0301 => some { args := [(0, 8), (8, 4), (12, 1)], v1 := false, side := false }
  | 0x0302 => some { handle := true, v1 := false, side := false }
  | 0x0401 => some { args := [(0, 2)], lamb := true, side := false }
  | 0x0402 => some { handle := true, lamb := true, side := false }
  | 0x0403 => some { pay := true, v1 := false, side := false }
  | 0x0404 => some { args := [(0, 1)], resp := true, v1 := false, side := false }
  | 0x0501 => some { args := [(0, 4)], resp := true, lamb := true }
  | 0x0502 => some { args := [(0, 3)], resp := true }
  | 0x0503 => some { args := [(0, 1)], resp := true, lamb := true }
  | 0x0504 => some { args := [(0, 5)], lamb := true }
  | 0x0601 => some { lamb := true }
  | 0x0602 => some { args := [(0, 4), (8, 8)], token := true }
  | 0x0603 => some { args := [(0, 4), (8, 4)], token := true }
  | 0x0701 => some { lamb := true }
  | 0x0702 => some { args := [(0, 4), (8, 8)], token := true, v1 := false }
  | 0x0801 => some { args := [(0, 4)], v1 := false }
  | 0x0802 => some { args := [(0, 4)], handle := true, pay := true, v1 := false }
  | 0x0803 => some { args := [(0, 4)], token := true, handle := true, v1 := false }
  | 0x0804 => some { args := [(0, 4)], token := true, v1 := false }
  | 0x0805 => some { v1 := false }
  | 0x0806 => some { lamb := true, v1 := false }
  | _ => none

/-- The faulty fields every command shares, by offset. -/
def Cmd.faults (c : Cmd) (s : CmdSpec) : List Nat :=
  let named := fun (i : Nat) => s.args.any (fun a => decide (a.1 ≤ i) && decide (i < a.1 + a.2))
  (if c.flags > 1 then [0x02] else []) ++ (if c.lc.handle ≠ 0 && !s.handle then [0x08] else []) ++
  (if c.payLen ≠ 0 && !s.pay then [0x0C] else []) ++ (if c.rsv ≠ 0 then [0x1C] else []) ++
  (upTo 32).filterMap (fun i => if c.args.getD i 0 ≠ 0 && !named i then some (0x20 + i) else none)

/-- The least of a list. -/
def least (l : List Nat) : Option Nat :=
  match l with
  | [] => none
  | x :: xs => some (xs.foldl Nat.min x)

/-- Whether the lock's token comes from its holder (R362, R404). -/
def Mod.tokenOk (m : Mod) (c : LongCmd) (token : Nat) : Bool :=
  m.lock.holder == c.q + 1 && (c.q != 4 || m.lock.sess == c.sess) && m.lock.token == token

/-- Why a command completes before it acts, `more` being its own faulty fields. -/
def Mod.barred (m : Mod) (c : Cmd) (more : List Nat) : Option Answer :=
  let op := c.lc.opcode
  let q := c.lc.q
  let s := m.session q
  let st := m.rd F.MBX_STATE_STATE
  if op ≠ 0x0001 && !s.isOpen then some (answer stNOSESSION 0)
  else match cmdSpec op with
  | none => some (answer stBADOP 0)
  | some k =>
    if (st = 2 && !k.lamb) || (0x0112 ≤ op && op ≤ 0x0115 && m.isStandby) then some (answer stSTATE st)
    else if (s.isOpen && s.major = 1 && !k.v1) || (q = 4 && !k.side) then some (answer stUNSUPPORTED 0)
    else match least (c.faults k ++ more) with
    | some f => some (answer stBADARG f)
    | none =>
      let payBad := c.payLen ≠ 0 && (if q = 4 then decide (960 < c.payLen) || c.payload.length != c.payLen else !inArea c.payOff c.payLen)
      let respBad := k.resp && q ≠ 4 && !inArea c.lc.respOff c.lc.respMax
      if payBad || respBad then some (answer stPAYLOAD 0)
      else if k.token && !m.tokenOk c.lc (c.arg 0 4) then some (answer stNOLOCK m.lock.holder)
      else none

/-- A command completes. -/
def Mod.reply (m : Mod) (c : Cmd) (a : Answer) : Mod := m.complete c.lc a

/-- A command taken from its ring runs, or completes at once. -/
def Mod.runCmd (m : Mod) (c : Cmd) (more : Mod → Cmd → List Nat) (body : Mod → Cmd → Mod) : Mod :=
  match m.barred c (more m c) with
  | some a => m.reply c a
  | none => body m c

/-- The Sheepdog begins the first command of a pair in its turn if it is `op`; an unknown one ends with BADOP. -/
def Mod.mailbox (m : Mod) (q op : Nat) (more : Mod → Cmd → List Nat) (body : Mod → Cmd → Mod) : Mod :=
  if !m.mayBegin q || !m.turn q || (m.twin.loss.isSome && flashOps.contains op) then m
  else match m.front q with
  | none => m
  | some c => if c.lc.opcode ≠ op && (cmdSpec c.lc.opcode).isSome then m else (m.takeFront q).runCmd c more body

/-- No further faulty field. -/
def noFaults : Mod → Cmd → List Nat := fun _ _ => []

/-! ### Sessions and handles (R356, R358) -/

/-- The session of a pair closes. -/
def Mod.closeSession (m : Mod) (q : Nat) : Mod :=
  let s := m.session q
  if !s.isOpen then m
  else
    let has := fun (x : Held) => s.handles.any (fun h => h.2 == x)
    let m := { m with
      wins := m.wins.map (fun (e : Nat × Option Win) => (e.1, e.2.bind (fun w => if w.q = q then none else some w)))
      imgUp := if has .image then none else m.imgUp
      fwUp := if has .firmware then none else m.fwUp
      gathers := m.gathers.filter (fun g => match g.cmd with
        | some c => c.q != q
        | none => true)
      relays := if q = 4 then [] else m.relays }
    let m := m.setSess q { gen := s.gen }
    let m := m.iff (decide (q < 4)) (fun m =>
      ((m.put F.MBX_Q_STATUS_OPEN q false).put F.MBX_Q_STATUS_V1 q false).wr F.MBX_Q_CMD_CONS_INDEX q (m.rd F.MBX_Q_CMD_PROD_INDEX q))
    m.iff (decide (q < 4) && m.lock.holder == q + 1) (fun m => m.freeLock)

/-- A session opens on a pair. -/
def Mod.openSession (m : Mod) (q major minor : Nat) : Mod :=
  let m := m.closeSession q
  let m := m.setSess q ⟨true, major, minor, ((m.session q).gen + 1) % 1024, []⟩
  m.iff (decide (q < 4)) (fun m => (m.put F.MBX_Q_STATUS_OPEN q true).put F.MBX_Q_STATUS_V1 q (major == 1))

/-- The handles of a kind held by all sessions. -/
def Mod.heldCount (m : Mod) (p : Held → Bool) : Nat := ((upTo 5).map (fun q => ((m.session q).handles.filter (fun h => p h.2)).length)).sum

/-- A new handle for a pair's session, none if it holds 4,096. -/
def Mod.newHandle (m : Mod) (q kind : Nat) (x : Held) : Option (Mod × Nat) :=
  let s := m.session q
  if s.handles.length ≥ 4096 then none
  else match (upTo 4096).find? (fun i => !(s.handles.any (fun h => h.1 % 4096 == i))) with
  | none => none
  | some i =>
    let h := kind * 2 ^ 28 + (q % 4) * 2 ^ 26 + s.gen * 2 ^ 16 + i
    some (m.setSess q { s with handles := s.handles ++ [(h, x)] }, h)

/-- What a handle of a pair's session stands for. -/
def Mod.heldBy (m : Mod) (c : Cmd) : Option Held := ((m.session c.lc.q).handles.find? (·.1 == c.lc.handle)).map Prod.snd

/-- A handle given up. -/
def Mod.dropHandle (m : Mod) (c : Cmd) : Mod :=
  let s := m.session c.lc.q
  m.setSess c.lc.q { s with handles := s.handles.filter (·.1 != c.lc.handle) }

/-- A command that opens a handle completes with it, or with NORES. -/
def Mod.replyHandle (m : Mod) (c : Cmd) (kind : Nat) (x : Held) (results : List Byte) (f : Mod → Mod) : Mod :=
  match m.newHandle c.lc.q kind x with
  | none => m.reply c (answer stNORES 0)
  | some (m, h) => (f m).reply c { handle := some h, results := results }

/-! ### Accesses for handles (R359) -/

/-- An access of the mailbox unit for the host. -/
def hostAcc (epoch a n : Nat) (kind : AccKind) : Acc := ⟨54, false, epoch, 0, a, n, kind⟩

/-- The epoch of the entry that holds an address, 0 where none does. -/
def Mod.epochAt (m : Mod) (a : Nat) : Nat :=
  let g := gateOf (targetOf a)
  match m.entryAt g a with
  | some e => m.rd F.GATE_ENT_EPOCH_EPOCH (entIx g e)
  | none => 0

/-- The test of a range of any length: the lowest refused byte, with the kind and the entry. An entry's rights change only at its ends. -/
def Mod.rangeTest (m : Mod) (q : Acc) : Option (Nat × Nat × Nat) :=
  let t := targetOf q.addr
  let g := gateOf t
  match m.targetTest q t with
  | some k => some (q.addr, k, 0xFFFF)
  | none =>
    let ends := (m.gateEnabled g).flatMap (fun e => [m.entBase g e, m.entTop g e])
    let places := q.addr :: ends.filter (fun a => decide (q.addr ≤ a) && decide (a < q.addr + q.size))
    let bad := places.filterMap (fun a => (m.byteTest q g a).map (fun r => (a, r)))
    bad.foldl (fun (b : Option (Nat × Nat × Nat)) x => match b with
      | some y => if x.1 < y.1 then some x else b
      | none => some x) none

/-- The part of an access within the line of one of its bytes. -/
def Acc.lineOf (q : Acc) (a : Nat) : Acc :=
  let lo := Nat.max q.addr (a - a % 64)
  { q with addr := lo, size := Nat.min (a - a % 64 + 64) (q.addr + q.size) - lo }

/-- The end of a command whose access was refused: by a gate, or on the mesh. -/
def refusedBy (kind : Nat) : Answer := if kind ≥ 0x20 then answer stREMOTE kind else answer stACCESS kind

/-- The local address of a signal record of a port. -/
def recAddr (port r : Nat) : Nat := signalBase (port / 256) + port % 256 * 0x200 + r * 0x20
/-- The local address of an output record. -/
def outAddr (port : Nat) : Nat := signalBase (port / 256) + 0x20000 + port % 256 * 0x20

/-- Reads of which some go to other nodes begin: `places` are effective addresses with their epochs, read as the mailbox unit or the Goose (R405). -/
def Mod.gatherBegin (m : Mod) (who : Requester) (cmd : Option LongCmd) (places : List (Nat × Nat × Nat)) (master : Nat := 54) : Mod × Except Nat Gather :=
  places.foldl (fun r p => match r with
    | (m, .error k) => (m, .error k)
    | (m, .ok g) =>
      let (ea, n, epoch) := p
      if m.isLocal ea then
        match m.passGate { hostAcc epoch (ea % 2 ^ 52) n .load with master := master } with
        | (m, some k) => (m, .error k)
        | (m, none) =>
          let (m, got) := m.loadAs master (ea % 2 ^ 52) n
          (m, if got.poison then .error 0 else .ok { g with parts := g.parts ++ [(0, some got.data)] })
      else match m.request who (eaNode ea) 0x01 (ea % 2 ^ 52) n epoch 0 0 0 [] with
        | (m, .ok tid) => (m, .ok { g with parts := g.parts ++ [(tid, none)] })
        | (m, .error k) => (m, .error k)) (m, .ok ⟨cmd, []⟩)

/-- The bytes of reads that are complete. -/
def Gather.all (g : Gather) : Option (List Byte) :=
  if g.parts.all (fun p => p.2.isSome) then some (g.parts.flatMap (fun p => p.2.getD [])) else none

/-- A host read that fails (R351): Completer Abort. -/
def Mod.hostAbort (m : Mod) : Mod :=
  (((m.hostErr F.MBX_HOST_ERR_ABORT).setPci 1 (m.pciReg 1 ||| 2 ^ 27)).setPci 65 (m.pciReg 65 ||| 2 ^ 15)).emit (.hostRead [] .abort)

/-- A host read completes with Unsupported Request, which AER records (R349, R351). -/
def Mod.hostUnsupported (m : Mod) : Mod := (m.setPci 65 (m.pciReg 65 ||| 2 ^ 20)).emit (.hostRead [] .unsupported)

/-- Reads come to their end, or wait. -/
def Mod.gatherEnd (m : Mod) (g : Gather) : Mod :=
  match g.all, g.cmd with
  | none, _ => { m with gathers := m.gathers ++ [g] }
  | some d, some c => m.complete c { resp := d }
  | some d, none => m.emit (.hostRead d .ok)

/-- Reads fail. -/
def Mod.gatherFail (m : Mod) (cmd : Option LongCmd) (kind : Nat) (remote : Bool) : Mod :=
  match cmd with
  | some c => m.complete c (refusedBy kind)
  | none => (m.iff remote (fun m => m.hostErr F.MBX_HOST_ERR_REMOTE)).hostAbort

/-- The answer to a part: its bytes, or the kind it failed with. -/
def Mod.gatherAnswer (m : Mod) (tid : Nat) (r : Except Nat (List Byte)) : Mod :=
  match m.gathers.find? (fun g => g.parts.any (fun p => p.1 == tid && p.2.isNone)) with
  | none => m
  | some g =>
    let m := { m with gathers := m.gathers.erase g }
    match r with
    | .error k => m.gatherFail g.cmd k true
    | .ok d => m.gatherEnd { g with parts := g.parts.map (fun p => if p.1 = tid ∧ p.2.isNone then (tid, some d) else p) }

end Sys2Proof.Machine
end

