-- ==== Sys2Proof/Machine/PowerBase.lean ====
section
/-!
DEFINITION. Sys2Proof/Machine/PowerBase.lean: the power domains: what switching one off and on does (R458 to R463).
-/
namespace Sys2Proof.Machine

/-- The parent of a domain (R458). -/
def domParent (d : Nat) : Option Nat :=
  if d < 32 then some (40 + d / 8)
  else if d < 40 then some (40 + (d - 32) / 2)
  else if d < 44 then none
  else if d < 48 then some (40 + (d - 44))
  else if d < 56 then some (40 + (d - 48) / 2)
  else if d < 64 then some (40 + (d - 56) / 2)
  else none

/-- Its wake time in nanoseconds. -/
def domWake (d : Nat) : Nat :=
  1000 * (if d < 32 then 20 else if d < 40 then 50 else if d < 44 then 100 else if d < 48 then 10 else if d < 56 then 200
          else if d < 64 then 2000 else 300000)

/-- The domains that firmware switches (R460). -/
def fwDomains : List Nat := upTo 32 ++ span 44 20

/-- The domains with a parent. -/
def domChildren (d : Nat) : List Nat := (upTo 66).filter (fun x => domParent x == some d)

/-- EN of a domain in effect (R460, R473); the controller's own are wanted on. -/
def Mod.domEn (m : Mod) (d : Nat) : Bool :=
  if d < 32 then bitAt (m.rd F.PWR_DOM_EN0_CORE) d
  else if 44 ≤ d ∧ d < 48 then bitAt (m.rd F.PWR_DOM_EN1_MX) (d - 44)
  else if 48 ≤ d ∧ d < 56 then bitAt (m.rd F.PWR_DOM_EN1_LG) (d - 48)
  else if 56 ≤ d ∧ d < 64 then bitAt (m.rd F.PWR_DOM_EN1_PDIE) (d - 56)
  else true

/-- Whether a domain's parent has power. -/
def Mod.parentOn (m : Mod) (d : Nat) : Bool :=
  match domParent d with
  | some p => m.domPowered p
  | none => true

/-- Power applied to a domain: its wake time begins. Nothing wakes while CRITICAL (R471). -/
def Mod.domApply (m : Mod) (d : Nat) : Mod :=
  if m.domPowered d || !m.parentOn d || m.flag F.PWR_THR_STATUS_CRITICAL then m
  else { m.setDom d true with waking := m.waking ++ [(d, m.mono + domWake d)] }

/-! ### Switching off (R460, R462) -/

/-- A port without power: high impedance with no PORT_SAFE action, effective mode off under the die-link case of R26. -/
def Mod.portDark (m : Mod) (p : Nat) : Mod :=
  let m := ((m.tdrAbort p).hartAbort p).overtake p
  let m := m.iff (m.effMode p == 1) (fun m => (m.fwdForget p).put F.PORT_STATUS_LINK_UP p false)
  let m := ((m.portStop p).zeroCount p).setMismatch p none
  m.setReg .PORT_OUT p (Reg.resetVal .PORT_OUT p)

/-- A port die without power: its link is lost. -/
def Mod.dieDark (m : Mod) (d : Nat) : Mod :=
  let m := (m.setDie d { m.die d with isolated := true, hears := false, lostAt := some m.now, cut := false }).linkShow d false
  m.each (diePorts d) Mod.portDark

/-- Whether a local address lies in region scratch held by slice pair `k` (R241). -/
def inSlicePair (k a : Nat) : Bool :=
  match targetOf a with
  | .scratch g off => (4 * g + off / 64 % 4) / 2 == k
  | _ => false

/-- The region scratch of a slice pair loses its bytes and its tags with its power (R150). -/
def Mod.scratchLost (m : Mod) (k : Nat) : Mod :=
  { m with mem := m.mem.filter (fun e => !inSlicePair k e.1), tags := m.tags.filter (fun e => !inSlicePair k (16 * e.1)),
           spoiled := m.spoiled.filter (fun e => !inSlicePair k (8 * e.1)) }

/-- What a domain's contents do as it goes off, its children already off. Region scratch in a slice pair without power stays mapped and reads 0
(DESIGN CHOICE, log entry 60: the spec says of it that no tag survives). -/
def Mod.domContents (m : Mod) (d : Nat) : Mod :=
  if d < 32 then ((m.drain d).coreEnterReset d).gateOff (16 + d)
  else if d < 40 then
    let m := ((m.sliceReset (2 * (d - 32))).sliceReset (2 * (d - 32) + 1)).scratchLost (d - 32)
    (m.put F.MEM_STATUS_READY 0 false).put F.MEM_STATUS_TRAINED 0 false
  else if d < 44 then
    let g := d - 40
    let ph := Tbl.get 0 m.rgnPhase g
    let m := (m.regionZeroed g).each [1 + g, 5 + g, 9 + g] Mod.gateOff
    { m with rgnPhase := Tbl.set 0 m.rgnPhase g ph }
  else if d < 48 then ((m.mxAbort (d - 44)).mxDone (d - 44)).mxReset (d - 44)
  else if d < 56 then m
  else if d < 64 then m.dieDark (d - 56)
  else { (m.put F.MEM_STATUS_READY 0 false).put F.MEM_STATUS_TRAINED 0 false with dramUp := false }

/-- One domain switched off; the links of a lane group drop. -/
def Mod.domOff1 (m : Mod) (d : Nat) : Mod :=
  if !m.domPowered d then m
  else
    let m := m.domContents d
    let m := { m.setDom d false with waking := m.waking.filter (·.1 != d) }
    m.iff (decide (48 ≤ d) && decide (d < 56)) (fun m => m.lgStart (d - 48))

/-- A domain switched off with the domains it is parent of. -/
def Mod.domOff (m : Mod) (d : Nat) : Mod := (m.each (domChildren d) Mod.domOff1).domOff1 d

/-! ### Switching on (R461) -/

/-- Whether start-up has reached the step of a domain (R463). -/
def Mod.domStage (m : Mod) (d : Nat) : Bool :=
  if d < 32 then m.phase.full
  else if d < 40 then m.dramUp
  else if d < 44 then m.phase.t5done
  else if d < 56 then m.phase.full
  else if d < 64 then m.phase.t5done
  else m.phase.powered

/-- A domain's wake time is over: its contents are at their reset values and usable. -/
def Mod.domReady (m : Mod) (d : Nat) : Mod :=
  let m := { m with waking := m.waking.filter (·.1 != d) }
  if d < 32 then
    let m := m.coreEnterReset d
    m.iff m.coresRun (fun m => (m.toNow (nextMultiple 100000 m.now)).coreLeaveReset d)
  else if d < 40 then m
  else if d < 44 then
    let g := d - 40
    let ph := Tbl.get 0 m.rgnPhase g
    let m := m.regionZeroed g
    let m := { m with rgnPhase := Tbl.set 0 m.rgnPhase g ph }
    let m := m.iff (!m.rgnHeld g) (fun m => m.unparkRegion g)
    m.each (domChildren d) (fun m x => m.iff (m.domEn x && m.domStage x) (fun m => m.domApply x))
  else if d < 48 then m.mxReset (d - 44)
  else if d < 56 then m.lgStart (d - 48)
  else if d < 64 then (m.dieHears (d - 56)).dieCommit (d - 56)
  else m

/-! ### Commits (R460 to R462) -/

/-- The region of a firmware-switched domain, whose reset delays a commit's switching (R461). -/
def domRegion (d : Nat) : Nat := ((domParent d).getD 40) - 40

/-- A domain follows its EN, as it was before a commit and is after it; a faulted one is tried again. One whose step of start-up has not come
stays off (R463). -/
def Mod.domFollow (m : Mod) (was : Bool) (d : Nat) : Mod :=
  let en := m.domEn d
  if m.rgnDown (domRegion d) then m
  else if was && !en then m.domOff d
  else if en && (!was || m.domRetry.contains d) && m.domStage d then { m with domRetry := m.domRetry.erase d }.domApply d
  else m

/-- A commit at the power controller, `old` being the module before it. -/
def Mod.powerCommit (m old : Mod) : Mod := m.each fwDomains (fun m d => m.domFollow (old.domEn d) d)

/-- The domains of a region follow their EN at its restart where a commit has fallen in its reset: one that the commit switches off goes off,
one that it switches on, or tries again after a fault, is applied (R461, R462). -/
def Mod.powerRestart (m : Mod) (g : Nat) : Mod :=
  if !m.resetCommits.contains g then m
  else
    ({ m with resetCommits := m.resetCommits.filter (· != g) }).each (fwDomains.filter (fun d => domRegion d == g)) (fun m d =>
      let en := m.domEn d
      if en == m.domPowered d || (en && !m.domStage d) then m
      else if en then ({ m with domRetry := m.domRetry.erase d }).domApply d
      else m.domOff d)

/-! ### Lane shedding (R470) -/

/-- The lane groups shed at throttle step `s`. -/
def Mod.shedMask (m : Mod) (s : Nat) : Nat :=
  maskOf 8 (fun n => bitAt (m.rd F.PWR_THR_CTRL_LANE_SHED) n && m.rd F.MESH_LG_CTRL_RATE n == 0 &&
    (decide (4 ≤ s) || (bitAt (m.rd F.PWR_THR_STATUS_SHED) n && decide (1 < s))))

/-- Shedding follows the step and the settings: a lane group's links start again as it begins and ends. -/
def Mod.shedFollow (m : Mod) : Mod :=
  let old := m.rd F.PWR_THR_STATUS_SHED
  let new := m.shedMask (m.rd F.PWR_THR_STATUS_STEP)
  (m.wr F.PWR_THR_STATUS_SHED 0 new).each ((upTo 8).filter (fun n => bitAt old n != bitAt new n)) Mod.lgStart

end Sys2Proof.Machine
end

