-- ==== Sys2Proof/Machine/ConfigOps.lean ====
section
/-!
DEFINITION. Sys2Proof/Machine/ConfigOps.lean: writes to registers, the commit instant, what the configuration stores say to
each other, probation and take-back (R6, R9, R374 to R391).
-/
namespace Sys2Proof.Machine

/-! ### Writes to register space (R6, R21, R380) -/

/-- A write on its way to register space: checked by gate 13, then performed where the register is of the kind meant. -/
def Mod.busWrite (m : Mod) (a : RegWrite) (p : Reg → Bool) : Mod :=
  let off := a.off.toNat
  let n := if a.wide then 8 else 4
  if !((regAt off).all (fun x => p x.1)) then m
  else match m.passGate ⟨a.by_.master.toNat, a.by_.sys, a.epoch.toNat, a.by_.node.toNat, regBase + off, n, .store⟩ with
    | (m, some _) => m
    | (m, none) => m.regStore { a.by_ with epoch := a.epoch } off n a.value.toNat

/-! ### The commit instant (R9, R382) -/

/-- Every ST field takes its staged value; in a region under reset it waits for the restart (R448). -/
def Mod.takeStaged (m : Mod) : Mod :=
  let keys := if m.stageImage then Tbl.keys m.regs ++ Tbl.keys m.staged ++ Tbl.keys m.parked else Tbl.keys m.staged
  m.each keys (fun m k =>
    let r := regNo (k % 512)
    m.iff (r.stMask != 0) (fun m => m.setSt k (m.stagedReg r (k / 512))))

/-- The staging view in effect at the present instant at every block; staged table entries wait for t5. -/
def Mod.commitValues (m : Mod) : Mod :=
  let old := m
  let m := { m with resetCommits := m.resetCommits ++ (upTo 4).filter (fun g => m.rgnDown g && !m.resetCommits.contains g) }
  let ports := (upTo 1024).map (fun p => (p, old.modeAsked p, old.rd F.PORT_MODE_RANGE p))
  let m := { m.takeStaged with staged := [], stageImage := false }
  let m := (m.portsCommit ports).each (upTo 8) Mod.dieCommit
  let m := m.pipesCommit old
  let m := m.each (upTo 8) (fun m sl => m.slotCommit sl (old.rd F.SCH_PERIOD_PERIOD sl) (old.rd F.SCH_DELAY_DELAY sl))
  let m := m.srcCommit old.tbSrc
  let m := m.each (upTo 4) (fun m g => m.waysCommit g (old.rd F.SC_RGN_SCRATCH_WAYS g) (old.rd F.SC_RGN_WAYPD_MASK g))
  ((m.powerCommit old).meshCommit old).shedFollow

/-- The chess clocks follow a commit last, `old` being the module before it: a fall at C counts in the new move's probation (R122, R386). -/
def Mod.clocksCommit (m old : Mod) : Mod :=
  m.each (Tbl.keys m.clks) (fun m n => m.clkCommit n (old.rd F.CLK_CTRL_MODE n) (old.rd F.CLK_SRC_START n) (old.rd F.CLK_SRC_STOP n))

/-- Cores that still wait for a first move leave reset at its commit instant (R393). -/
def Mod.firstMove (m : Mod) (was : Nat) : Mod :=
  m.iff (was == 0 && m.moveNow != 0) (fun m => m.each (upTo 32) (fun m c => m.iff (m.core c).inReset (fun m => m.coreLeaveReset c)))

/-- A committed move begins its probation, or settles (R386). -/
def Mod.moveBegins (m : Mod) (c : Commit) (at_ : Nat) : Mod :=
  let im := m.image c.slot
  let ms := imgProbMs im
  if ms = 0 then m.settleMove c.move c.slot
  else
    let ends := at_ + ms * 1000000
    let p : Probation := { move := c.move, slot := c.slot, ends := ends, falls := imgN im 0x1C 2, viol := imgN im 0x1E 2,
                           flags := imgN im 0x20 4, federated := imgFederated im, origin := c.origin,
                           unreported := if imgFederated im && c.origin then c.members else [], members := c.members, accepted := false, failed := false }
    let m := (m.wr F.CFG_SLOT_STATE_STATE c.slot 2).put F.CFG_STATUS_PROBATION 0 true
    let m := (m.wr F.CFG_MOVE_PROB_MOVE 0 c.move).wr F.CFG_PROB_END_TIME 0 ends
    { m with cfg := { m.cfg with probation := some p } }

/-- A take-back's move is the settled one; slot 8 stands for none. -/
def Mod.settledIn (m : Mod) (slot move : Nat) : Mod :=
  let m := { m with cfg := { m.cfg with settledFed := none } }
  let m := m.iff (decide (slot < 8)) (fun m => m.wr F.CFG_SLOT_STATE_STATE slot 3)
  (m.put F.CFG_STATUS_SETTLED 0 (decide (slot < 8))).wr F.CFG_MOVE_SETTLED_MOVE 0 (if slot < 8 then move else 0)

/-- The history move of a slot is settled; those passed over are taken back (R388). -/
def Mod.settleBack (m : Mod) (c : Commit) : Mod :=
  let m := m.each c.passed (fun m n => m.wr F.CFG_SLOT_STATE_STATE n 5)
  { m with cfg := { m.cfg with history := (m.cfg.history.dropWhile (· != c.slot)).drop 1 } }.settledIn c.slot c.move

/-- What a commit does to the store's own state. An automatic take-back ends the probation of a member that has not found the failure itself
(R378), or takes back the move that this module has settled already (R387). -/
def Mod.storeCommit (m : Mod) (c : Commit) (at_ : Nat) : Mod :=
  match c.kind with
  | .image =>
    let m := { m with cfg := { m.cfg with ownStage := false } }
    let m := (m.put F.CFG_STATUS_STAGED 0 false).wr F.CFG_MOVE_STAGED_MOVE 0 0
    (m.score c.move .commit c.party 0).moveBegins c at_
  | .direct => (m.score c.move .commit c.party 0).settleMove c.move c.slot
  | .manual => ((m.score c.move .takeback c.party 0).settleBack c).raise 238
  | .automatic =>
    let m := match m.cfg.probation with
      | some p => (m.wr F.CFG_SLOT_STATE_STATE p.slot 5).iff (!c.origin && !p.asked) (fun m => m.score p.move .probationEnd partyAutomatic 0)
      | none => m.iff (!c.passed.isEmpty) (fun m => m.settleBack c)
    ((m.score c.move .takeback c.party 0).probClear.put F.CFG_STATUS_TAKEN_BACK 0 true).raise 238
  | .sync =>
    (m.settledIn c.slot c.move).iff (m.rd F.TWIN_STATUS_SYNC == 1) (fun m => m.wr F.TWIN_STATUS_SYNC 0 2)

/-- Whether a kind of commit brings its own values and leaves a staged image staged. -/
def CommitKind.isBack (k : CommitKind) : Bool :=
  match k with
  | .image => false
  | .direct => false
  | _ => true

/-- t4 of R382: at C every staged value takes effect. A take-back brings its slot's values, and what is staged stays staged. -/
def Mod.commitNow (m : Mod) (c : Commit) (at_ : Nat) : Mod :=
  let old := m
  let keep := m.view
  let was := m.moveNow
  let m := m.iff c.kind.isBack (fun m => (m.stageValues (m.image c.slot)).stageBanks (m.image c.slot))
  let m := m.commitValues
  let m := { m with cfg := { m.cfg with gateDue := some ⟨c.slot, m.fwdStage, m.vlanStage⟩ }, fwdStage := [], vlanStage := [] }
  let m := m.iff (c.kind.isBack && keep.image) (fun m => m.setView keep)
  let m := ((m.setCommit none).put F.CFG_STATUS_PREPARED 0 false).put F.CFG_STATUS_COMMIT_PENDING 0 false
  let m := ((m.wr F.CFG_COMMIT_TIME_TIME 0 at_).wr F.CFG_PROB_FALLS_COUNT 0 0).wr F.CFG_PROB_VIOL_COUNT 0 0
  let m := (((m.raise 237).storeCommit c at_).recordsEnd old).firstMove was
  let m := m.iff (!c.origin) (fun m => (m.emit (.federate none (.report c.move c.late))).iff c.kind.isImage (fun m => m.endHold true))
  let m := match c.kind with
    | .image => m.finishLong 0x0113 { results := leBytes 8 at_ }
    | .manual => m.finishLong 0x0115 { results := leBytes 4 c.move }
    | _ => m
  m.clocksCommit old

/-- A commit whose instant is chosen takes effect; an automatic take-back not yet prepared is prepared first. -/
def Mod.commitDue (m : Mod) : Mod :=
  match m.cfg.commit with
  | none => m
  | some c => match c.at_ with
    | none => m
    | some t =>
      let m := (m.toNow t).clocksSettle
      let m := if c.own.isNone then (m.prepare c).1 else m
      m.commitNow c t

/-- The entries of a GATE section applied by the Sheepdog in order, each write through gate 13 (R276); identical locked ones are skipped, and the writes of one that has come to differ
meet its lock (R283, R286, R383). -/
def Mod.applyGates (m : Mod) (l : List GateItem) : Mod :=
  let w : Writer := { master := 32, sys := false }
  m.each l (fun m e =>
    if m.gateLocked e && m.gateSame e then m
    else
      let i := entIx e.gate e.entry
      let m := m.sdRegWrite .GATE_ENT_BASE i (fun m => m.entWrite w e.gate e.entry .base e.base)
      let m := m.sdRegWrite .GATE_ENT_TOP i (fun m => m.entWrite w e.gate e.entry .top e.top)
      let m := m.sdRegWrite .GATE_ENT_MASTERS i (fun m => m.entWrite w e.gate e.entry .masters e.masters)
      m.sdRegWrite .GATE_ENT_CTRL i (fun m => m.entApply w e.gate e.entry e.ctrl))

/-- t5 of R382: field-switch entries take effect, GATE sections are applied. -/
def Mod.gateSections (m : Mod) : Mod :=
  match m.cfg.gateDue with
  | none => m
  | some d =>
    let keep := (m.fwdStage, m.vlanStage)
    let m := { m with cfg := { m.cfg with gateDue := none }, fwdStage := d.fwd, vlanStage := d.vlan }
    let m := { m.tablesCommit with fwdStage := keep.1, vlanStage := keep.2 }
    m.applyGates (imgGates (m.image d.slot))

/-- The slot of the move in effect. -/
def Mod.slotNow (m : Mod) : Option Nat :=
  match m.slotIn 2 with
  | some n => some n
  | none => m.slotIn 3

/-- t6 of R451: the region's GATE sections applied again. -/
def Mod.gateReapply (m : Mod) (g : Nat) : Mod :=
  if Tbl.get 0 m.rgnPhase g ≠ 3 then m
  else
    let mine := fun (k : Nat) => k == 1 + g || k == 5 + g || k == 9 + g || (decide (16 + 8 * g ≤ k) && decide (k < 24 + 8 * g))
    let m := match m.slotNow with
      | some n => m.applyGates ((imgGates (m.image n)).filter (fun e => mine e.gate))
      | none => m
    { m with rgnPhase := Tbl.set 0 m.rgnPhase g 0 }.wr (F.FLT_RGN_STATE_STATE g) 0 0

/-! ### Staging over the federation and in a twin pair (R377, R425) -/

/-- A member's staging ends: the originator hears it; a refusal leaves nothing staged and frees the lock. -/
def Mod.memberStaged (m : Mod) (ok : Bool) : Mod :=
  let m := m.iff (!ok) (fun m => (m.discardImage partyAutomatic).endHold true)
  m.emit (.federate none (.staged ok))

/-- An image arrives from its originator; a standby takes its primary's without a lock, and leaves any other's to its primary (R425). One that
names neither ID of the pair is not taken. -/
def Mod.imageArrives (m : Mod) (from_ : Nat) (im : List Byte) (slot : Nat) (v : Verdict) : Mod :=
  let fromTwin := m.isStandby && from_ == m.node ^^^ 1
  if m.isStandby && !fromTwin then m
  else if !fromTwin && (m.lock.holder ≠ 0 || !(imgMembers im).any m.isOurs) then m.emit (.federate none (.staged false))
  else
    let m := m.iff (!fromTwin) (fun m => m.setLock { holder := 6 })
    match m.stageOwn im slot v partyAutomatic with
    | (m, some _) => (m.endHold true).emit (.federate none (.staged false))
    | (m, none) =>
      let m := m.iff (!fromTwin) (fun m => { m with cfg := { m.cfg with fedHold := some (m.mono + 600000000000) } })
      match m.twinPeer with
      | some p => { m with cfg := { m.cfg with staging := [p], stagingRefused := none } }.tellAll [p] (.image slot im)
      | none => m.memberStaged true

/-- A member's answer to a staging, at its originator or at a twin primary that is itself a member. -/
def Mod.stagingHeard (m : Mod) (node : Nat) (ok : Bool) : Mod :=
  if m.cfg.ownStage then m.stagingAnswer node ok
  else if !m.cfg.staging.contains node then m
  else { m with cfg := { m.cfg with staging := [] } }.memberStaged ok

/-- The originator discards the image (R377), or a twin's primary does. -/
def Mod.discardHeard (m : Mod) : Mod :=
  if m.viewBusy || m.cfg.ownStage then m
  else if m.lock.holder = 6 ∨ m.isStandby then (m.discardImage partyAutomatic).endHold true
  else m

/-- 600 s after a staging with no PREPARE. -/
def Mod.holdTimeout (m : Mod) : Mod :=
  match m.cfg.fedHold with
  | some t => ((m.toMono t).discardImage partyAutomatic).endHold true
  | none => m

/-! ### Reports of a federation's members (R382, R384, R386) -/

/-- A member's committed move reaches the originator: a late one fails the probation. -/
def Mod.commitReport (m : Mod) (node move : Nat) (late : Bool) : Mod :=
  match m.cfg.probation with
  | some p =>
    if p.move ≠ move || !p.unreported.contains node then m
    else { m with cfg := { m.cfg with probation := some { p with unreported := p.unreported.erase node, failed := p.failed || late } } }
  | none => m

/-- C + 1 s with a member that has not reported. -/
def Mod.reportTimeout (m : Mod) : Mod :=
  match m.cfg.probation with
  | some p =>
    let m := m.toNow (m.rd F.CFG_COMMIT_TIME_TIME + 1000000000)
    m.iff (!p.unreported.isEmpty) Mod.probFail
  | none => m

/-- A member's silence for 60 s after its PREPARE counts as refusal. -/
def Mod.answerTimeout (m : Mod) (node : Nat) : Mod :=
  match m.cfg.commit with
  | some c => if c.waiting.contains node then (m.toMono (c.since + 60000000000)).memberAnswer node 9 else m
  | none => m

/-- 90 s after a PREPARE with neither COMMIT nor ABORT. -/
def Mod.orphanTimeout (m : Mod) : Mod :=
  match m.cfg.commit with
  | some c => if c.origin || c.at_.isSome then m else (m.toMono (c.since + 90000000000)).orphan
  | none => m

/-! ### The rows -/

/-- REGISTER_WRITE (R6, R494). -/
def execRegisterWrite (a : RegWrite) (s : State) : Host.Outcome State Fault Refusal := s.act (fun m => m.busWrite a (fun _ => true))

/-- COUNTER_CLEAR (R63 and the other register maps). -/
def execCounterClear (a : RegWrite) (s : State) : Host.Outcome State Fault Refusal := s.act (fun m => m.busWrite a Reg.isCounter)

/-- ST_FIELD_WRITE (R380). -/
def execStFieldWrite (a : RegWrite) (s : State) : Host.Outcome State Fault Refusal := s.act (fun m => m.busWrite a (fun r => r.stMask != 0))

/-- CONFIG_COMMIT (R382). -/
def execConfigCommit (s : State) : Host.Outcome State Fault Refusal := s.act Mod.commitDue

/-- GATE_SECTION_APPLY (R383). -/
def execGateSectionApply (s : State) : Host.Outcome State Fault Refusal := s.act Mod.gateSections

/-- REGION_GATE_REAPPLY (R451). -/
def execRegionGateReapply (g : RegionId) (s : State) : Host.Outcome State Fault Refusal := s.act (fun m => m.gateReapply g)

/-- C_r of region `g` (R451 t5): its ST fields take their values in effect, its dies and cores go on, and its pipelines, clocks, ways, links and
power domains follow (R448, R461). -/
def Mod.restartRegion (m : Mod) (g : Nat) : Mod :=
  let n := (m.regionRestart g).pipesRestart m g
  let n := n.waysCommit g (m.rd F.SC_RGN_SCRATCH_WAYS g) (m.rd F.SC_RGN_WAYPD_MASK g)
  ((n.powerRestart g).meshCommit m).shedFollow

/-- REGION_RESTART (R451 t5, R461). -/
def execRegionRestart (g : RegionId) (s : State) : Host.Outcome State Fault Refusal :=
  s.act (fun m => m.iff (Tbl.get 0 m.rgnPhase g == 2) (fun m => m.restartRegion g))

/-- FEDERATED_IMAGE_RECEIVE (R377). -/
def execFederatedImageReceive (from_ : BitVec 12) (image : List Byte) (slot : SlotId) (v : Verdict) (s : State) : Host.Outcome State Fault Refusal :=
  s.act (fun m => m.imageArrives from_.toNat image slot v)

/-- MEMBER_STAGING_ANSWER (R377). -/
def execMemberStagingAnswer (node : BitVec 12) (ok : Bool) (s : State) : Host.Outcome State Fault Refusal :=
  s.act (fun m => m.stagingHeard node.toNat ok)

/-- FEDERATION_HOLD_TIMEOUT (R377). -/
def execFederationHoldTimeout (s : State) : Host.Outcome State Fault Refusal := s.act Mod.holdTimeout

/-- PREPARE (R382, R384). -/
def execPrepare (move : BitVec 32) (digest : BitVec 256) (s : State) : Host.Outcome State Fault Refusal :=
  s.act (fun m => m.prepareArrives move.toNat digest.toNat)

/-- PREPARE_DONE (R381). -/
def execPrepareDone (s : State) : Host.Outcome State Fault Refusal := s.act Mod.prepareDone

/-- MEMBER_ANSWER (R382). -/
def execMemberAnswer (node : BitVec 12) (reason : BitVec 8) (s : State) : Host.Outcome State Fault Refusal :=
  s.act (fun m => m.memberAnswer node.toNat reason.toNat)

/-- ANSWER_TIMEOUT (R382). -/
def execAnswerTimeout (node : BitVec 12) (s : State) : Host.Outcome State Fault Refusal := s.act (fun m => m.answerTimeout node.toNat)

/-- COMMIT_MESSAGE (R382, R384). -/
def execCommitMessage (at_ : BitVec 64) (s : State) : Host.Outcome State Fault Refusal := s.act (fun m => m.commitArrives at_.toNat)

/-- ABORT_MESSAGE (R382), or the discard of a staged image (R377). -/
def execAbortMessage (discard : Bool) (s : State) : Host.Outcome State Fault Refusal :=
  s.act (fun m => if discard then m.discardHeard else m.abortArrives)

/-- COMMIT_REPORT (R382, R384). -/
def execCommitReport (node : BitVec 12) (move : BitVec 32) (late : Bool) (s : State) : Host.Outcome State Fault Refusal :=
  s.act (fun m => m.commitReport node.toNat move.toNat late)

/-- COMMIT_REPORT_TIMEOUT (R386). -/
def execCommitReportTimeout (s : State) : Host.Outcome State Fault Refusal := s.act Mod.reportTimeout

/-- ORPHAN_TIMEOUT (R384). -/
def execOrphanTimeout (s : State) : Host.Outcome State Fault Refusal := s.act Mod.orphanTimeout

/-- PROBATION_END (R386). -/
def execProbationEnd (s : State) : Host.Outcome State Fault Refusal := s.act Mod.probEnd

/-- TAKEBACK_REQUEST (R387): this module's own, or a member's. -/
def execTakebackRequest (member : Option (BitVec 12)) (s : State) : Host.Outcome State Fault Refusal :=
  s.act (fun m => m.takeBackRequest (member.map BitVec.toNat))

/-- COMMIT_DIRECT_VALUES (R391): CFG_CMD OP 1. -/
def execCommitDirectValues (w : Writer) (s : State) : Host.Outcome State Fault Refusal := s.act (fun m => m.cfgCmd w.master.toNat 1 0)

/-- CFG_DISCARD (R390): CFG_CMD OP 2. -/
def execCfgDiscard (w : Writer) (s : State) : Host.Outcome State Fault Refusal := s.act (fun m => m.cfgCmd w.master.toNat 2 0)

/-- ACCEPT (R386): CFG_CMD OP 3. -/
def execAccept (w : Writer) (s : State) : Host.Outcome State Fault Refusal := s.act (fun m => m.cfgCmd w.master.toNat 3 0)

/-- REJECT (R386): CFG_CMD OP 4. -/
def execReject (w : Writer) (s : State) : Host.Outcome State Fault Refusal := s.act (fun m => m.cfgCmd w.master.toNat 4 0)

/-- CFG_TAKEBACK (R388): CFG_CMD OP 5. -/
def execCfgTakeback (w : Writer) (moves : BitVec 3) (s : State) : Host.Outcome State Fault Refusal :=
  s.act (fun m => m.cfgCmd w.master.toNat 5 moves.toNat)

end Sys2Proof.Machine
end

