-- ==== Sys2Proof/Machine/CoreEvents.lean ====
section
/-!
DEFINITION. Sys2Proof/Machine/CoreEvents.lean: the meanings of the events of a Lurik core: level entry, event delivery,
responses, acknowledgements, fills, faults of a fetch, resets (R209, R212 to R230, R233, R449, R450, R455).
-/
namespace Sys2Proof.Machine

/-! ### Level entry (R213, R218, R223, R225) -/

/-- A source that reaches the distributor while level `l` is being entered and is above it: the spill under way ends, a request of a pinned level or
M finding `l` resident and one of an unpinned level taking the bank for its own level (R219). -/
def Mod.supersede (m : Mod) (c l l' : Nat) : Mod :=
  let k := m.core c
  if l' = levelM || k.pinned l' then (m.spilled c l).setCore c (k.makeResident l)
  else if k.resident.contains l || k.resident.contains l' || k.resident.contains 15 || m.spillFails c l' then m
  else match k.victim l with
    | some v => (m.spilled c l).setCore c { k with resident := k.resident.replace v l' }
    | none => m

/-- Core cycles since TB_MONO was `t` (R103). -/
def Mod.cyclesSince (m : Mod) (t : Nat) : Nat := (m.mono - t) * 8 / 5

/-- Whether a higher request supersedes the entry of the current level: it is pending before the first handler word's t11, 12 core cycles from t0,
or 48 for an unpinned level (R218, R219). -/
def Mod.superseding (m : Mod) (c : Nat) : Bool :=
  let k := m.core c
  match k.entry with
  | none => false
  | some e => decide (k.level < maxLevel k.pendingLevels) && decide (m.cyclesSince e.at_ < if k.pinned k.level then 12 else 48)

/-- The entry of the current level undone for a request of level `l'` (R219): the request it took is pending again, the level it left is current,
and an unpinned level takes over the spill that is under way until t5, 40 core cycles from t0. One that comes after t5 makes a spill of its own,
for which the superseded level is resident like any other. -/
def Mod.undoEntry (m : Mod) (c l' : Nat) : Mod :=
  let k := m.core c
  let l := k.level
  match k.entry with
  | none => m
  | some e =>
    let takes := e.spilled && decide (m.cyclesSince e.at_ < 40) && decide (l' < 8) && !k.pinned l' && !k.resident.contains l' && !m.spillFails c l'
    let k := { k with level := e.left, active := k.active.filter (· != l), ip := (k.bank e.left).ip, entry := none,
                      resident := if takes then k.resident.replace l l' else k.resident,
                      pendExc := e.exc.toList ++ k.pendExc }
    m.setCore c (match e.src with
      | some (n, before) => { k with pendEv := k.pendEv ++ [(n, l)], last := Tbl.set (0, false) k.last l before }
      | none => k)

/-- The first-claim source that core `c` would claim by its entry while a core of a lower number claims it in the same cycle (R455), `same` being
the cores whose t3 is in that cycle. -/
def Mod.deniedClaim (m : Mod) (c same : Nat) : Option Nat :=
  match (m.core c).nextSource (maxLevel (m.core c).pendingLevels) with
  | none => none
  | some n =>
    let wins := (upTo c).any (fun c' => bitAt same c' && m.claims c' n)
    if m.flag F.EVR_ROUTE_HI_FIRST n && wins then some n else none

/-- The highest pending level entered, once it may be taken (R213, R218): a source that becomes the highest before the first handler word issues
supersedes it (R219). -/
def Mod.enterHighest (m : Mod) (c : Nat) (x : EntrySpill) : Mod :=
  if !(m.core c).calls then m
  else
    let l := maxLevel (m.core c).pendingLevels
    let m := match x.late with
      | some n => m.evdArrive c n.toNat
      | none => m
    let l' := maxLevel (m.core c).pendingLevels
    if l' > l && (m.core c).takes l' (m.core c).level then
      (if m.spillFails c l x.err then m else m.supersede c l l').takeLevel c l' x.err
    else m.takeLevel c l x.err

/-- The highest request of core `c` taken, if it may be (R213): one that supersedes an entry finds it undone (R219), and a claim that a lower core
number wins in the same cycle is denied, which clears its bit and enters nothing (R455). -/
def Mod.interruptEntry (m : Mod) (c : Nat) (x : EntrySpill) : Mod :=
  if !m.coreRuns c then m
  else
    let m := m.iff (m.superseding c) (fun m => m.undoEntry c (maxLevel (m.core c).pendingLevels))
    match m.deniedClaim c x.same.toNat with
    | some n => m.iff (m.core c).calls (fun m => m.evdUnpend c n)
    | none => m.enterHighest c x

/-- INTERRUPT_ENTRY (R218, R219, R225, R455). -/
def execInterruptEntry (c : CoreId) (spill : EntrySpill) (s : State) : Host.Outcome State Fault Refusal :=
  s.act (fun m => m.interruptEntry c spill)

/-- EVENT_LATCH (R230): a delivered source reaches the distributor. -/
def execEventLatch (c : CoreId) (src : BitVec 8) (s : State) : Host.Outcome State Fault Refusal :=
  s.act (fun m => m.evdArrive c src.toNat)

/-- EVD_DOORBELL (R230): a write of 1 to RING raises the core's doorbell source. -/
def Mod.evdDoorbell (m : Mod) (c : Nat) : Mod := m.raise c

def execEvdDoorbell (_w : Writer) (c : CoreId) (s : State) : Host.Outcome State Fault Refusal :=
  s.act (fun m => m.evdDoorbell c)

/-- EVD_PEND_CLEAR (R230). -/
def execEvdPendClear (_w : Writer) (c : CoreId) (k : Fin 8) (bits : BitVec 32) (s : State) : Host.Outcome State Fault Refusal :=
  s.act (fun m => m.evdPendClear c k bits.toNat)

/-- EWAIT_WAKE (R213): a source routed to the current level's own number is pending. -/
def execEwaitWake (c : CoreId) (s : State) : Host.Outcome State Fault Refusal :=
  s.act (fun m =>
    let k := m.core c
    m.iff (k.waiting && k.wakes && m.coreRuns c) (fun m => m.setCore c { k with waiting := false }))

/-! ### The store buffer (R209) -/

/-- STORE_ACKNOWLEDGE: the oldest store not yet at its target reaches it; a refusal is the imprecise store access
exception. -/
def execStoreAcknowledge (c : CoreId) (s : State) : Host.Outcome State Fault Refusal :=
  s.act (fun m => match (m.core c).nextStore with
    | some i => m.performStore c i
    | none => m)

/-! ### Responses (R220, R311) -/

/-- A change made as if level `l` were current, with ip at `ip`. -/
def Core.atLevel (k : Core) (l : Nat) (ip : Key) (f : Core → Core) : Core :=
  let k' := f { k with level := l, ip := ip }
  if l = k.level then k'
  else ({ k' with level := k.level, ip := k.ip }).setBank l { k'.bank l with ip := k'.ip }

/-- The accesses that core `k` awaits for words of level `l` issued after the access `tid`, marked as such whose words issue again. -/
def Core.mootAfter (k : Core) (l tid : Nat) : Core :=
  let i := k.waits.findIdx (fun w => w.tid == tid)
  { k with waits := k.waits.take i ++ (k.waits.drop i).map (fun w => if w.level = l then { w with moot := true } else w) }

/-- The fault of an awaited access (R220, R221): the level's ip goes back to the word; raised at once at the current level,
else when the level next runs, in place of the fault of a later word. -/
def Mod.waitFault (m : Mod) (c : Nat) (w : Wait) (e : Exc) : Mod :=
  let k := m.core c
  let k := k.setBank w.level { k.bank w.level with lc := w.lc }
  let k := k.setSt w.level 0 4 w.lact
  let fip := w.word.cursor + (if w.rep.isSome then 4 else 0)
  let (pr, sb) := match w.kind with
    | .pair x => (true, x.inB)
    | _ => (false, false)
  let word := m.filterKey w.word
  if w.level = k.level then (m.setCore c { k with ip := word }).coreExc c e.code e.sub e.ea fip pr sb
  else
    let k := k.setBank w.level { k.bank w.level with ip := word }
    m.setCore c { k with due := k.due.filter (·.level != w.level) ++ [⟨w.level, BitVec.ofNat 64 (causeOf e.code e.sub pr sb w.level 0 0 false), BitVec.ofNat 64 fip, BitVec.ofNat 64 e.ea⟩] }

/-- The code an access of this kind faults with. -/
def LoadKind.code (k : LoadKind) : Nat :=
  match k with
  | .store => 0x06
  | .stu _ => 0x06
  | .pair x => if x.op.isLoad then 0x04 else 0x06
  | .chunk _ _ _ _ _ wr => if wr then 0x06 else 0x04
  | .ctx fn _ _ _ _ => if fn < 2 then 0x06 else 0x04
  | _ => 0x04

/-- A word of level `l` completed by its response: one more word, and a repetition under REP counted. -/
def Mod.waitDone (m : Mod) (c : Nat) (w : Wait) : Mod :=
  let k := (m.core c).retire
  match w.rep with
  | none => m.setCore c k
  | some r =>
    let n := k.d w.level r - 1
    let k := k.setD w.level r n
    m.setCore c (if n = 0 && (k.ipOf w.level).cursor == w.word.cursor then k.atLevel w.level ((k.ipOf w.level).advance 4) (fun k => k.next.retire) else k)

/-- The word of core `c` whose answer has come goes on. -/
def Mod.begin (m : Mod) (c : Nat) : Mod := m.setCore c (m.core c).begin

/-- Core `c` of `m` back at the level and ip it had in `k`, if nothing has reset it. -/
def Mod.backTo (m : Mod) (c : Nat) (k : Core) : Mod :=
  if (m.core c).word then m.setCore c { m.core c with level := k.level, ip := k.ip, word := false } else m

/-- The word of an awaited access goes on at its level `w.level`, current or not, with a body that is one chunk of a copy (R196, R220): a level that is
preempted completes it in its own registers, and its fault is raised when the level next runs. -/
def Mod.chunkGoes (m : Mod) (c : Nat) (w : Wait) (b : Body) : Mod :=
  let k := m.core c
  if w.level = k.level then settle c w.word.cursor (b (m.begin c) c)
  else
    let o := b (m.setCore c { k with level := w.level, ip := w.word, word := true }) c
    let m := o.mod.backTo c k
    match o with
    | .exc _ e _ _ => m.waitFault c w e
    | .seq _ =>
      let k := m.core c
      let ip := k.ipOf w.level
      m.setCore c (if ip.cursor = w.word.cursor then k.atLevel w.level ip (fun k => k.next.retire) else k.retire)
    | _ => m

/-- A value written to a d register of a level by its awaited word. -/
def Mod.waitD (m : Mod) (c : Nat) (w : Wait) (r v : Nat) : Mod := (m.setCore c ((m.core c).setD w.level r v)).waitDone c w

/-- The bytes of an awaited access arrive: the registers of the issuing level are written, or the word goes on. -/
def Mod.waitData (m : Mod) (c : Nat) (w : Wait) (d : List Byte) (tags : Nat) : Mod :=
  let k := m.core c
  let tag := bitAt tags (w.ea % 64 / 16)
  let cur := w.word.cursor
  match w.kind with
  | .int rd s signed => m.waitD c w rd (extended (d.take s) signed)
  | .atomic rd s => m.waitD c w rd (extended (d.take s) (s == 4))
  | .fp fd => (m.setCore c (k.setFr w.level fd (ofLeBytes (d.take 8)))).waitDone c w
  | .key kd lk =>
    let v := m.loadedKey c w.ea { (rootKey (if lk then rLK else 0) 0) with tag := true } d tag
    (m.setCore c (k.setK w.level kd v)).waitDone c w
  | .kcas kd =>
    let v := m.loadedKey c w.ea { (rootKey rLK 0) with tag := true } d tag
    (m.setCore c (k.setK w.level kd v)).waitDone c w
  | .store => m.waitDone c w
  | .pair x => ((m.pairDone c w.level (cur + (if w.rep.isSome then 4 else 0)) x).slotMemDone c w.level x.op d).waitDone c w
  | .stu high => if high then (m.setCore c (k.setSt w.level 4 1 0)).waitDone c w else m.setCore c (k.setSt w.level 4 1 1)
  | .ldu rd s acc rest =>
    if w.level ≠ k.level then m
    else match rest with
      | none => settle c cur (.seq ((m.begin c).setCd c rd (extended (acc ++ d) (s == 4))))
      | some (ea, n, epoch) =>
        match m.coreRead c ea n epoch k.sys with
        | .got m d2 _ => settle c cur (.seq ((m.begin c).setCd c rd (extended (acc ++ d ++ d2) (s == 4))))
        | .fault m e => m.coreExc c e.code e.sub e.ea cur
        | .hold m => m
        | .sent m tid => m.await c tid (.ldu rd s (acc ++ d) none) ea
  | .chunk kd src rs n desc wr =>
    if wr then
      let k := k.setD w.level rs (k.d w.level rs - n)
      let k := if desc then k else
        let k := k.setK w.level kd (m.filterKey ((k.k w.level kd).advance n))
        match src with
        | some ks => k.setK w.level ks (m.filterKey ((k.k w.level ks).advance n))
        | none => k
      let ip := k.ipOf w.level
      let m := m.setCore c k
      if k.d w.level rs = 0 && ip.cursor == w.word.cursor then m.setCore c (k.atLevel w.level ip (fun k => k.next.retire)) else m
    else
      m.chunkGoes c w (fun m c =>
        let dk := m.ck c kd
        let cnt := m.cd c rs
        let dst := if desc then dk.cursor + cnt - n else dk.cursor
        let keep := (chunkGranules w.ea dst n).filter (fun o =>
          bitAt tags ((w.ea + o) % 64 / 16) && m.copyTag c (dst + o) (match src with
            | some ks => (m.ck c ks).has rLK
            | none => false) (dk.has rSK) (dk.has rSKL) (Key.ofBytes ((d.drop o).take 16) true))
        chunkOut m c kd src rs n desc dst dk.epoch (d.take n) keep)
  | .ctx fn n kb other got =>
    if w.level ≠ k.level then m
    else settle c cur (ctxResume c fn n kb other (m.ck c kb).cursor (got ++ [(d, tag)]) (m.begin c))

/-- LOAD_RESPONSE (R220): the first answer that has come for a core's outstanding access reaches it. -/
def Mod.loadResponse (m : Mod) (c : Nat) : Mod :=
  let k := m.core c
  match k.waits.find? (fun w => w.resp.isSome || w.fault.isSome) with
  | none => m
  | some w =>
    let bad := w.fault.isSome || w.resp.any (fun r => r.2.2)
    let k := if bad then k.mootAfter w.level w.tid else k
    let m := m.setCore c { k with waits := k.waits.filter (·.tid != w.tid) }
    if bad && w.moot then m
    else match w.fault, w.resp with
    | some f, _ => m.waitFault c w ⟨w.kind.code, f, w.ea⟩
    | none, some (d, tags, poison) =>
      if poison then m.waitFault c w ⟨0x09, 0, w.ea⟩ else m.waitData c w d tags
    | none, none => m

def execLoadResponse (c : CoreId) (s : State) : Host.Outcome State Fault Refusal :=
  s.act (fun m => m.loadResponse c)

/-! ### Fills and faults of a fetch (R141, R173, R233) -/

/-- L1_MISS_FILL (R233): the whole line of a miss arrives. -/
def execL1MissFill (c : CoreId) (fetch : Bool) (line : BitVec 46) (epoch : BitVec 6) (s : State) : Host.Outcome State Fault Refusal :=
  s.act (fun m =>
    let ln := line.toNat
    let a := 64 * ln
    let q := coreAcc c (m.core c).sys epoch.toNat a 64 (if fetch then .fetch else .load)
    if !(targetOf a).cached || (m.core c).inReset || (m.gateTest q).isSome then m else m.l1Miss c ln epoch.toNat (m.core c).sys fetch)

/-- ILLEGAL_OPCODE (R173): a word that decodes to nothing, or an illegal pair, at ip. -/
def execIllegalOpcode (c : CoreId) (word : BitVec 32) (s : State) : Host.Outcome State Fault Refusal :=
  s.act (fun m =>
    let w := word.toNat
    match decodeWord c w 0 with
    | none => m.issue c [] (fun m _ => .exc m ⟨0x01, 1, 0⟩ (bitAt w 31) (bitAt w 31 && slotLegal (slotAt w 16)))
    | some (.pair _ a b) => if illegalPair a b then m.issue c [] (bodyPair a b) else m
    | some _ => m)

/-- INSTRUCTION_FETCH_FAULT (R141, R221): the fetch of the word at ip fails. -/
def execInstructionFetchFault (c : CoreId) (s : State) : Host.Outcome State Fault Refusal :=
  s.act (fun m =>
    if !m.canIssue c || (m.core c).barred [] then m
    else
      let w := (m.core c).ip.cursor
      match m.fetchFault c with
      | (m', some e) => m'.coreExc c e.code e.sub e.ea w
      | (_, none) => m)

end Sys2Proof.Machine
end

