-- ==== Sys2Proof/Machine/FpOps.lean ====
section
/-!
DEFINITION. Sys2Proof/Machine/FpOps.lean: the meanings of the floating-point operations and pairs (R176, R177, R203, R204): each issues its word on its core.
-/
namespace Sys2Proof.Machine

/-- A pair word (R176, R177). -/
def execPair (c : CoreId) (a b : ShortOp) (s : State) : Host.Outcome State Fault Refusal :=
  s.act (fun m => m.issue c (Instr.uses (.pair c a b)) (bodyPair a b))

/-- FADD (R203, R204). -/
def execFadd (c : CoreId) (single : Bool) (fd fs1 fs2 : FReg) (s : State) : Host.Outcome State Fault Refusal :=
  s.act (fun m => m.issue c (Instr.uses (.fadd c single fd fs1 fs2)) (bodyFp (effFop .add single fd fs1 fs2)))

/-- FSUB (R203, R204). -/
def execFsub (c : CoreId) (single : Bool) (fd fs1 fs2 : FReg) (s : State) : Host.Outcome State Fault Refusal :=
  s.act (fun m => m.issue c (Instr.uses (.fsub c single fd fs1 fs2)) (bodyFp (effFop .sub single fd fs1 fs2)))

/-- FMUL (R203, R204). -/
def execFmul (c : CoreId) (single : Bool) (fd fs1 fs2 : FReg) (s : State) : Host.Outcome State Fault Refusal :=
  s.act (fun m => m.issue c (Instr.uses (.fmul c single fd fs1 fs2)) (bodyFp (effFop .mul single fd fs1 fs2)))

/-- FMA, one rounding (R203, R204). -/
def execFma (c : CoreId) (single : Bool) (fd fs1 fs2 : FReg) (s : State) : Host.Outcome State Fault Refusal :=
  s.act (fun m => m.issue c (Instr.uses (.fma c single fd fs1 fs2)) (bodyFp (effFma single fd fs1 fs2)))

/-- FDIV (R203, R204). -/
def execFdiv (c : CoreId) (single : Bool) (fd fs1 fs2 : FReg) (s : State) : Host.Outcome State Fault Refusal :=
  s.act (fun m => m.issue c (Instr.uses (.fdiv c single fd fs1 fs2)) (bodyFp (effFop .div single fd fs1 fs2)))

/-- FSQRT (R203, R204). -/
def execFsqrt (c : CoreId) (single : Bool) (fd fs1 : FReg) (s : State) : Host.Outcome State Fault Refusal :=
  s.act (fun m => m.issue c (Instr.uses (.fsqrt c single fd fs1)) (bodyFp (effSqrt single fd fs1)))

/-- FMIN (R203, R204). -/
def execFmin (c : CoreId) (single : Bool) (fd fs1 fs2 : FReg) (s : State) : Host.Outcome State Fault Refusal :=
  s.act (fun m => m.issue c (Instr.uses (.fmin c single fd fs1 fs2)) (bodyFp (effFop .min single fd fs1 fs2)))

/-- FMAX (R203, R204). -/
def execFmax (c : CoreId) (single : Bool) (fd fs1 fs2 : FReg) (s : State) : Host.Outcome State Fault Refusal :=
  s.act (fun m => m.issue c (Instr.uses (.fmax c single fd fs1 fs2)) (bodyFp (effFop .max single fd fs1 fs2)))

/-- FMOV (R204). -/
def execFmov (c : CoreId) (fd fs1 : FReg) (s : State) : Host.Outcome State Fault Refusal :=
  s.act (fun m => m.issue c (Instr.uses (.fmov c fd fs1)) (bodyFp (effMove 0 fd fs1)))

/-- FNEG (R204). -/
def execFneg (c : CoreId) (fd fs1 : FReg) (s : State) : Host.Outcome State Fault Refusal :=
  s.act (fun m => m.issue c (Instr.uses (.fneg c fd fs1)) (bodyFp (effMove 1 fd fs1)))

/-- FABS (R204). -/
def execFabs (c : CoreId) (fd fs1 : FReg) (s : State) : Host.Outcome State Fault Refusal :=
  s.act (fun m => m.issue c (Instr.uses (.fabs c fd fs1)) (bodyFp (effMove 2 fd fs1)))

/-- FCMP.EQ (R204). -/
def execFcmpEq (c : CoreId) (single : Bool) (rd : DReg) (fs1 fs2 : FReg) (s : State) : Host.Outcome State Fault Refusal :=
  s.act (fun m => m.issue c (Instr.uses (.fcmpEq c single rd fs1 fs2)) (bodyFp (effCmp .eq single rd fs1 fs2)))

/-- FCMP.LT (R204). -/
def execFcmpLt (c : CoreId) (single : Bool) (rd : DReg) (fs1 fs2 : FReg) (s : State) : Host.Outcome State Fault Refusal :=
  s.act (fun m => m.issue c (Instr.uses (.fcmpLt c single rd fs1 fs2)) (bodyFp (effCmp .lt single rd fs1 fs2)))

/-- FCMP.LE (R204). -/
def execFcmpLe (c : CoreId) (single : Bool) (rd : DReg) (fs1 fs2 : FReg) (s : State) : Host.Outcome State Fault Refusal :=
  s.act (fun m => m.issue c (Instr.uses (.fcmpLe c single rd fs1 fs2)) (bodyFp (effCmp .le single rd fs1 fs2)))

/-- FCMP.UN (R204). -/
def execFcmpUn (c : CoreId) (single : Bool) (rd : DReg) (fs1 fs2 : FReg) (s : State) : Host.Outcome State Fault Refusal :=
  s.act (fun m => m.issue c (Instr.uses (.fcmpUn c single rd fs1 fs2)) (bodyFp (effCmp .un single rd fs1 fs2)))

/-- FCVT.D.L (R204). -/
def execFcvtDL (c : CoreId) (single : Bool) (fd : FReg) (rs1 : DReg) (s : State) : Host.Outcome State Fault Refusal :=
  s.act (fun m => m.issue c (Instr.uses (.fcvtDL c single fd rs1)) (bodyFp (effOfInt single fd rs1)))

/-- FCVT.L.D (R204). -/
def execFcvtLD (c : CoreId) (single : Bool) (rd : DReg) (fs1 : FReg) (s : State) : Host.Outcome State Fault Refusal :=
  s.act (fun m => m.issue c (Instr.uses (.fcvtLD c single rd fs1)) (bodyFp (effToInt single rd fs1)))

/-- FCVT.D.S (R204). -/
def execFcvtDS (c : CoreId) (fd fs1 : FReg) (s : State) : Host.Outcome State Fault Refusal :=
  s.act (fun m => m.issue c (Instr.uses (.fcvtDS c fd fs1)) (bodyFp (effToDouble fd fs1)))

/-- FCVT.S.D (R204). -/
def execFcvtSD (c : CoreId) (fd fs1 : FReg) (s : State) : Host.Outcome State Fault Refusal :=
  s.act (fun m => m.issue c (Instr.uses (.fcvtSD c fd fs1)) (bodyFp (effToSingle fd fs1)))

/-- FMV.X (R204). -/
def execFmvX (c : CoreId) (rd : DReg) (fs1 : FReg) (s : State) : Host.Outcome State Fault Refusal :=
  s.act (fun m => m.issue c (Instr.uses (.fmvX c rd fs1)) (bodyFp (effMvX rd fs1)))

/-- FMV.F (R204). -/
def execFmvF (c : CoreId) (fd : FReg) (rs1 : DReg) (s : State) : Host.Outcome State Fault Refusal :=
  s.act (fun m => m.issue c (Instr.uses (.fmvF c fd rs1)) (bodyFp (effMvF fd rs1)))

end Sys2Proof.Machine
end

