-- ==== Sys2Proof/Machine/MbxCmds.lean ====
section
/-!
DEFINITION. Sys2Proof/Machine/MbxCmds.lean: the mailbox commands (R356 to R368, R376 to R388, R433), one meaning each, and
the same commands relayed from the side-band (R404).
-/
namespace Sys2Proof.Machine

/-! ### Sessions, echo, information -/

def Mod.doSessionOpen (m : Mod) (c : Cmd) : Mod :=
  let major := c.arg 0 1
  let minor := c.arg 1 1
  if major ≠ 1 ∧ major ≠ 2 then m.reply c (answer stVERSION 2)
  else
    let run := if major = 2 then Nat.min minor (m.rd F.MBX_ID_PROTO_MIN) else Nat.min minor 3
    let m := m.openSession c.lc.q major run
    m.reply c { results := leBytes 1 major ++ leBytes 1 run ++ leBytes 2 (m.session c.lc.q).gen }

/-- The completion comes before the close. -/
def Mod.doSessionClose (m : Mod) (c : Cmd) : Mod := (m.reply c {}).closeSession c.lc.q

def Mod.doNop (m : Mod) (c : Cmd) : Mod := m.reply c { resp := c.payload }

/-- Several accesses of the Sheepdog's, up to the first that its gate refuses. -/
def Mod.sdPasses (m : Mod) (l : List (Nat × Nat × AccKind)) : Mod × Option Nat :=
  l.foldl (fun r x => match r with
    | (m, some k) => (m, some k)
    | (m, none) => m.sdPass x.1 x.2.1 x.2.2) (m, none)

/-- Accesses of the Sheepdog that a command makes: it goes on if their gates admit them all, else ends with ACCESS. -/
def Mod.asSheepdog (m : Mod) (c : Cmd) (l : List (Nat × Nat × AccKind)) (body : Mod → Mod) : Mod :=
  match m.sdPasses l with
  | (m, some k) => m.reply c (answer stACCESS k)
  | (m, none) => body m

/-- The lines of a range of mailbox memory. -/
def mailLines (a n : Nat) (k : AccKind) : List (Nat × Nat × AccKind) := (upTo (n / 64)).map (fun i => (a + 64 * i, 64, k))

def Mod.doInfo (m : Mod) (c : Cmd) : Mod := m.asSheepdog c (mailLines mailboxBase 128 .load) (fun m => m.reply c { resp := m.bytes mailboxBase 128 })

/-! ### The lock (R362) -/

/-- The end of the lease as an instant, 0 without one. -/
def Mod.leaseInstant (m : Mod) : Nat :=
  match m.lock.leaseEnd with
  | some t => m.now + (t - m.mono)
  | none => 0

def fLockAcquire (_m : Mod) (c : Cmd) : List Nat := if c.arg 4 2 > 3600 then [0x24] else []

/-- A new token: not zero. -/
def Mod.newToken (m : Mod) : Mod × Nat :=
  let (k, m) := m.fresh
  let t := (Config.lockToken k).toNat
  (m, if t = 0 then 1 else t)

def Mod.doLockAcquire (m : Mod) (c : Cmd) : Mod :=
  let own := c.lc.q + 1
  let mine := m.lock.holder == own && (c.lc.q != 4 || m.lock.sess == c.lc.sess)
  let lease := if c.arg 4 2 = 0 then 60 else c.arg 4 2
  if m.lock.holder ≠ 0 && !mine then m.reply c (answer stLOCKED m.lock.holder)
  else
    let (m, tok) := if mine then (m, m.lock.token) else m.newToken
    let m := m.setLock ⟨own, tok, some (m.mono + lease * 1000000000), c.lc.sess⟩
    m.reply c { results := leBytes 4 tok ++ leBytes 4 0 ++ leBytes 8 m.leaseInstant }

def Mod.doLockRelease (m : Mod) (c : Cmd) : Mod := m.freeLock.reply c {}

def Mod.doLockStatus (m : Mod) (c : Cmd) : Mod :=
  m.reply c { results := leBytes 4 m.lock.holder ++ leBytes 4 0 ++ leBytes 8 m.leaseInstant }

/-! ### Uploads and images (R365, R376 to R388) -/

/-- Whether a size lies outside 1 to a limit. -/
def sizeFault (c : Cmd) (limit : Nat) : List Nat := if c.arg 0 4 = 0 ∨ c.arg 0 4 > limit then [0x20] else []

/-- Bytes put into an upload. -/
def Upload.write (u : Upload) (off : Nat) (d : List Byte) : Upload :=
  { u with bytes := d.zipIdx.foldl (fun t (b, i) => Tbl.put t (off + i) b) u.bytes }

/-- The image an upload makes: bytes never written are free values. -/
def Mod.uploaded (m : Mod) (u : Upload) : Mod × List Byte :=
  if u.bytes.length = u.size then (m, u.bytes.map Prod.snd)
  else
    let (k, m) := m.fresh
    (m, (List.range u.size).map (fun i => (Tbl.look u.bytes i).getD (Config.uploadByte k i)))

/-- An upload of the session of a command, which the command may name by its handle. -/
def Mod.ownUpload (m : Mod) (c : Cmd) (u : Option Upload) : Option Upload :=
  u.bind (fun u => if (m.session c.lc.q).handles.any (·.1 == u.handle) && (c.lc.handle == 0 || c.lc.handle == u.handle) then some u else none)

/-- Bytes outside the declared size. -/
def writeFault (c : Cmd) (u : Option Upload) : List Nat :=
  match u with
  | some u => if c.payLen ≠ 0 ∧ c.arg 0 4 + c.payLen > u.size then [0x20] else []
  | none => []

def fImgBegin (_m : Mod) (c : Cmd) : List Nat := sizeFault c 0x10000000

def Mod.doImgBegin (m : Mod) (c : Cmd) : Mod :=
  if m.imgUp.isSome then m.reply c (answer stBUSY 0)
  else m.replyHandle c 5 .image [] (fun m =>
    { m with imgUp := (((m.session c.lc.q).handles.find? (fun h => h.2 == .image)).map (fun h => Upload.mk h.1 (c.arg 0 4) [])) })

def fImgWrite (m : Mod) (c : Cmd) : List Nat := writeFault c (m.ownUpload c m.imgUp)

def Mod.doImgWrite (m : Mod) (c : Cmd) : Mod :=
  match m.ownUpload c m.imgUp with
  | none => m.reply c (answer stBADHANDLE 0)
  | some u => ({ m with imgUp := some (u.write (c.arg 0 4) c.payload) }).reply c {}

def fImgStage (_m : Mod) (c : Cmd) : List Nat := if c.arg 4 1 > 7 then [0x24] else []

/-- Staging ends once every member has answered (R377). -/
def Mod.doImgStage (m : Mod) (c : Cmd) (v : Verdict) : Mod :=
  match m.ownUpload c m.imgUp with
  | none => m.reply c (answer stBADHANDLE 0)
  | some u =>
    let (m, im) := m.uploaded u
    match m.stageEverywhere im (c.arg 4 1) v c.lc.q with
    | (m, some (st, d)) => m.reply c (answer st d)
    | (m, none) =>
      if m.cfg.staging.isEmpty then m.reply c { results := leBytes 4 (m.rd F.CFG_MOVE_STAGED_MOVE) } else m.beginLong c.lc

/-- The commit's end completes the command. -/
def Mod.doImgCommit (m : Mod) (c : Cmd) : Mod :=
  match m.slotIn 1 with
  | none => m.reply c (answer stSTATE (m.rd F.MBX_STATE_STATE))
  | some slot =>
    if !m.cfg.staging.isEmpty then m.reply c (answer stSTATE (m.rd F.MBX_STATE_STATE))
    else match m.commitImage slot (c.arg 8 8) c.lc.q with
    | (m, 0) => m.beginLong c.lc
    | (m, r) => m.reply c (answer stCONFIG r)

def Mod.doImgDiscard (m : Mod) (c : Cmd) : Mod :=
  if m.viewBusy then m.reply c (answer stCONFIG 0x11) else (m.discardImage c.lc.q).reply c {}

def fTakeback (_m : Mod) (c : Cmd) : List Nat := if c.arg 4 1 = 0 ∨ c.arg 4 1 > 7 then [0x24] else []

/-- An accepted take-back discards a staged image; its end completes the command. -/
def Mod.doTakeback (m : Mod) (c : Cmd) : Mod :=
  match m.takeBack (c.arg 4 1) c.lc.q with
  | (m, 0) => (m.discardImage c.lc.q).beginLong c.lc
  | (m, r) => m.reply c (answer stCONFIG r)

def Mod.doHistory (m : Mod) (c : Cmd) : Mod := m.reply c { resp := m.cfg.scores.flatMap Score.bytes }

/-! ### Signals and outputs -/

/-- A signal ID: node, port and record; none for one its session cannot name (R68, R357). -/
def sigPlace (v1 : Bool) (id : Nat) : Option (Nat × Nat × Nat) :=
  if v1 then
    if id ≥ 2 ^ 22 then none
    else
      let node := bitsOf id 12 10
      some (if node = 0x3FF then 0xFFF else node, bitsOf id 4 8, bitsOf id 0 4)
  else if id ≥ 2 ^ 26 then none
  else some (bitsOf id 14 12, bitsOf id 4 10, bitsOf id 0 4)

/-- Whether a command's session runs 1.x. -/
def Mod.runsV1 (m : Mod) (c : Cmd) : Bool := (m.session c.lc.q).major == 1

/-- The faults of a list of `n`-byte items of which there must be 1 to `most`. -/
def listFaults (c : Cmd) (n most : Nat) (bad : Nat → Bool) : List Nat :=
  (if c.payLen = 0 ∨ c.payLen % n ≠ 0 ∨ c.payLen > n * most then [0x0C] else []) ++
  (upTo (c.payload.length / n)).filterMap (fun i => if bad (c.pay (n * i) n) then some (0x80000000 + n * i) else none)

def fSigOpen (m : Mod) (c : Cmd) : List Nat := listFaults c 4 1024 (fun id => (sigPlace (m.runsV1 c) id).isNone)

/-- The enabled entries that a range of local addresses meets: their bases, tops and epochs (R359). -/
def Mod.rangeEpochs (m : Mod) (ea n : Nat) : List (Nat × Nat × Nat) :=
  let a := ea % 2 ^ 52
  let g := gateOf (targetOf a)
  if !m.isLocal ea then []
  else ((m.gateEnabled g).filter (fun e => meetsRange a n (m.entBase g e) (m.entTop g e))).map (fun e =>
    (m.entBase g e, m.entTop g e, m.rd F.GATE_ENT_EPOCH_EPOCH (entIx g e)))

/-- The epoch a window's access presents at a local address: the one that the entry which held the address then had as the window was opened,
whatever entry holds it now (R359). -/
def Win.epochAt (w : Win) (a : Nat) : Nat :=
  match w.epochs.find? (fun e => decide (e.1 ≤ a) && decide (a < e.2.1)) with
  | some e => e.2.2
  | none => 0

/-- A place checked for a handle, whose entry's own epoch its accesses are to present: the kind of its refusal, or that epoch. A refusal is reported as that of its first
refused line (DESIGN CHOICE, log entry 85). A place at another node is checked there with each access. -/
def Mod.authority (m : Mod) (ea n : Nat) (kind : AccKind) : Mod × Except Nat Nat :=
  if !m.isLocal ea then (m, .ok 0)
  else
    let a := ea % 2 ^ 52
    let e := m.epochAt a
    match m.rangeTest (hostAcc 0 a n kind) with
    | none => (m, .ok e)
    | some (b, k, en) => (m.violate ((hostAcc e a n kind).lineOf b) k en, .error k)

/-- Several places checked, up to the first refusal. -/
def Mod.authorities (m : Mod) (l : List Nat) (kind : AccKind) : Mod × Except Nat (List Nat) :=
  l.foldl (fun r ea => match r with
    | (m, .error k) => (m, .error k)
    | (m, .ok es) => match m.authority ea 32 kind with
      | (m, .error k) => (m, .error k)
      | (m, .ok e) => (m, .ok (es ++ [e]))) (m, .ok [])

def Mod.doSigOpen (m : Mod) (c : Cmd) : Mod :=
  let ids := (upTo (c.payload.length / 4)).filterMap (fun i => sigPlace (m.runsV1 c) (c.pay (4 * i) 4))
  match m.authorities (ids.map (fun p => p.1 * 2 ^ 52 + recAddr p.2.1 p.2.2)) .load with
  | (m, .error k) => m.reply c (answer stACCESS k)
  | (m, .ok es) => m.replyHandle c 1 (.signals ((ids.zip es).map (fun p => (p.1.1, p.1.2.1, p.1.2.2, p.2)))) [] id

/-- Every record in one access, those of other nodes by request. -/
def Mod.doSigRead (m : Mod) (c : Cmd) : Mod :=
  match m.heldBy c with
  | some (.signals l) =>
    match m.gatherBegin (.mailbox c.lc.q) (some c.lc) (l.map (fun p => (p.1 * 2 ^ 52 + recAddr p.2.1 p.2.2.1, 32, p.2.2.2))) with
    | (m, .error k) => m.gatherFail (some c.lc) k false
    | (m, .ok g) => m.gatherEnd g
  | _ => m.reply c (answer stBADHANDLE 0)

def fOutOpen (m : Mod) (c : Cmd) : List Nat := listFaults c 2 256 (fun p => decide (p ≥ (if m.runsV1 c then 256 else 1024)))

def Mod.doOutOpen (m : Mod) (c : Cmd) : Mod :=
  let ports := (upTo (c.payload.length / 2)).map (fun i => c.pay (2 * i) 2)
  match m.authorities (ports.map (fun p => 0xFFF * 2 ^ 52 + outAddr p)) .store with
  | (m, .error k) => m.reply c (answer stACCESS k)
  | (m, .ok es) => m.replyHandle c 2 (.outputs (ports.zip es)) [] id

/-- How many entries of a list come before the first whose index lies outside a set of `k` outputs. -/
def entriesBefore (c : Cmd) (k : Nat) : Nat := ((upTo (c.payload.length / 16)).takeWhile (fun i => decide (c.pay (16 * i) 2 < k))).length

/-- Faulty flags and reserved fields of the entries the command reaches (R364): it changes nothing then. -/
def fOutWrite (m : Mod) (c : Cmd) : List Nat :=
  let n := match m.heldBy c with
    | some (.outputs l) => entriesBefore c l.length
    | _ => c.payload.length / 16
  (if c.payLen % 16 ≠ 0 then [0x0C] else []) ++ (upTo n).flatMap (fun i =>
    (if c.pay (16 * i + 2) 2 > 3 then [0x80000000 + 16 * i + 2] else []) ++ (if c.pay (16 * i + 4) 4 ≠ 0 then [0x80000000 + 16 * i + 4] else []))

/-- A store for a handle: the kind of its refusal. -/
def Mod.hostPut (m : Mod) (epoch a : Nat) (d : List Byte) : Mod × Option Nat :=
  match m.passGate (hostAcc epoch a d.length .store) with
  | (m, some k) => (m, some k)
  | (m, none) => (m.storeAs 54 a d [], none)

/-- One entry: value and target, flags, then the sequence after the present one. -/
def Mod.outEntry (m : Mod) (port epoch value target flags : Nat) : Mod × Option Nat :=
  let a := outAddr port
  match m.hostPut epoch a (leBytes 8 value ++ leBytes 8 target) with
  | (m, some k) => (m, some k)
  | (m, none) => match m.hostPut epoch (a + 0x12) (leBytes 2 flags) with
    | (m, some k) => (m, some k)
    | (m, none) => m.hostPut epoch (a + 0x10) (leBytes 2 ((m.num (a + 0x10) 2 + 1) % 65536))

/-- The entries from `i` on, `k` of them: how many were written, and how the first bad one ends the command. -/
def Mod.outEntries (m : Mod) (c : Cmd) (ports : List (Nat × Nat)) (i : Nat) : Nat → Mod × Nat × Option Answer
  | 0 => (m, i, none)
  | k + 1 =>
    let at_ := 16 * i
    let idx := c.pay at_ 2
    let flags := c.pay (at_ + 2) 2
    match ports[idx]? with
    | none => (m, i, some (answer stBADARG (0x80000000 + at_)))
    | some (p, e) => match m.outEntry p e (c.pay (at_ + 8) 8) (c.arg 0 8) flags with
      | (m, some kind) => (m, i, some (answer stACCESS kind))
      | (m, none) => m.outEntries c ports (i + 1) k

/-- The first store of the entries a command reaches that its gate refuses (R364: nothing is written then). -/
def Mod.outRefused (m : Mod) (c : Cmd) (ports : List (Nat × Nat)) : Option Acc :=
  ((upTo (entriesBefore c ports.length)).flatMap (fun i =>
    let p := ports.getD (c.pay (16 * i) 2) (0, 0)
    let a := outAddr p.1
    [hostAcc p.2 a 16 .store, hostAcc p.2 (a + 0x12) 2 .store, hostAcc p.2 (a + 0x10) 2 .store])).find? (fun q => (m.gateTest q).isSome)

def Mod.doOutWrite (m : Mod) (c : Cmd) : Mod :=
  match m.heldBy c with
  | some (.outputs ports) =>
    match m.outRefused c ports with
    | some q => (m.passGate q).1.reply c { answer stACCESS (((m.passGate q).2).getD 0) with results := leBytes 4 0 }
    | none => match m.outEntries c ports 0 (c.payload.length / 16) with
    | (m, n, e) => m.reply c { (e.getD {}) with results := leBytes 4 n }
  | _ => m.reply c (answer stBADHANDLE 0)

/-- A handle of a kind given up. -/
def Mod.closeHandle (m : Mod) (c : Cmd) (p : Held → Bool) : Mod :=
  match m.heldBy c with
  | some h => if p h then (m.dropHandle c).reply c {} else m.reply c (answer stBADHANDLE 0)
  | none => m.reply c (answer stBADHANDLE 0)

def Mod.doSigClose (m : Mod) (c : Cmd) : Mod :=
  m.closeHandle c (fun h => match h with
    | .signals _ => true
    | .outputs _ => true
    | _ => false)

/-! ### Windows, subscriptions, messages -/

/-- Whether a range of local addresses lies in one row of the memory map that a window may show. -/
def windowRow (a n : Nat) : Bool :=
  let g := gateOf (targetOf a)
  g == gateOf (targetOf (a + n - 1)) && g != 13 && g != 14 && g != 15 &&
  !(decide (16 ≤ g) && meetsRange (a - coreScratch (g - 16)) n 0x1E000 0x20000)

def fWinOpen (_m : Mod) (c : Cmd) : List Nat :=
  let base := c.arg 0 8
  let len := c.arg 8 4
  let lenBad := len % 4096 ≠ 0 || len = 0 || decide (len > 0x10000000)
  (if base % 4096 ≠ 0 || (!lenBad && !windowRow (base % 2 ^ 52) len) then [0x20] else []) ++ (if lenBad then [0x28] else []) ++
  (if c.arg 12 1 ≠ 1 ∧ c.arg 12 1 ≠ 3 then [0x2C] else [])

/-- The lowest free window. -/
def Mod.freeWindow (m : Mod) : Option Nat := (upTo 16).find? (fun w => (Tbl.get none m.wins w).isNone)

def Mod.doWinOpen (m : Mod) (c : Cmd) : Mod :=
  let base := c.arg 0 8
  let len := c.arg 8 4
  let wr := c.arg 12 1 == 3
  match m.authority base len .load with
  | (m, .error k) => m.reply c (answer stACCESS k)
  | (m, .ok e) => match (if wr then m.authority base len .store else (m, .ok e)) with
    | (m, .error k) => m.reply c (answer stACCESS k)
    | (m, .ok _) => match m.freeWindow with
      | none => m.reply c (answer stNORES 0)
      | some w => m.replyHandle c 3 (.window w) (leBytes 4 w) (fun m =>
          let h := (((m.session c.lc.q).handles.find? (fun h => h.2 == .window w)).map Prod.fst).getD 0
          { m with wins := Tbl.set none m.wins w (some ⟨c.lc.q, h, base, len, wr, m.rangeEpochs base len⟩) })

def Mod.doWinClose (m : Mod) (c : Cmd) : Mod :=
  match m.heldBy c with
  | some (.window w) => (({ m with wins := Tbl.set none m.wins w none }).dropHandle c).reply c {}
  | _ => m.reply c (answer stBADHANDLE 0)

def fSubscribe (_m : Mod) (c : Cmd) : List Nat := if c.arg 1 1 < 8 ∨ c.arg 1 1 > 63 then [0x21] else []

/-- Whether something held is a subscription. -/
def Held.isSub (h : Held) : Bool :=
  match h with
  | .subscription _ _ => true
  | _ => false

def Mod.doSubscribe (m : Mod) (c : Cmd) : Mod :=
  if m.heldCount Held.isSub ≥ 256 then m.reply c (answer stNORES 0)
  else m.replyHandle c 4 (.subscription (c.arg 0 1) (c.arg 1 1)) [] id

def Mod.doUnsubscribe (m : Mod) (c : Cmd) : Mod := m.closeHandle c Held.isSub

def fMsgFw (_m : Mod) (c : Cmd) : List Nat := if c.payLen > 1008 then [0x0C] else []

def Mod.doMsgFw (m : Mod) (c : Cmd) : Mod :=
  let q := c.lc.q
  let i := m.rd F.MBX_FW_IN_PROD_INDEX q
  if (i + 65536 - m.rd F.MBX_FW_IN_CONS_INDEX q) % 65536 ≥ 16 then m.reply c (answer stNORES 0)
  else m.asSheepdog c (mailLines (inboxSlot q i) 1024 .store) (fun m =>
    let m := m.setBytes (inboxSlot q i) (leBytes 2 c.payload.length ++ leBytes 2 q ++ leBytes 4 0 ++ leBytes 8 m.now ++ c.payload)
    ((m.wr F.MBX_FW_IN_PROD_INDEX q ((i + 1) % 65536)).raise (220 + q)).reply c {})

/-- Messages are taken only where the response holds them (R364). -/
def Mod.doMsgRead (m : Mod) (c : Cmd) : Mod :=
  let q := c.lc.q
  let i := m.rd F.MBX_FW_OUT_CONS_INDEX q
  let n := Nat.min (c.arg 0 1) ((m.rd F.MBX_FW_OUT_PROD_INDEX q + 65536 - i) % 65536)
  m.asSheepdog c ((upTo n).flatMap (fun k => mailLines (outboxSlot q (i + k)) 1024 .load)) (fun m =>
    (m.iff (decide (1024 * n ≤ c.lc.room)) (fun m => m.wr F.MBX_FW_OUT_CONS_INDEX q ((i + n) % 65536))).reply c
      { resp := (upTo n).flatMap (fun k => m.bytes (outboxSlot q (i + k)) 1024) })

/-! ### Diagnosis, registers, time -/

/-- How many ports a session can name. -/
def Mod.portLimit (m : Mod) (c : Cmd) : Nat := if m.runsV1 c then 256 else 1024

def fDiagPort (m : Mod) (c : Cmd) : List Nat :=
  let first := c.arg 0 2
  if c.arg 2 2 = 0 ∨ first + c.arg 2 2 ≤ m.portLimit c then [] else if first ≥ m.portLimit c then [0x20] else [0x22]

/-- Registers as the Sheepdog reads them, master 32 at gate 13 (R276): their bytes in order, or the kind of the first refusal. -/
def Mod.sdRead (m : Mod) (l : List (Reg × Nat)) : Mod × Except Nat (List Byte) :=
  l.foldl (fun r x => match r with
    | (m, .error k) => (m, .error k)
    | (m, .ok bs) =>
      let off := x.1.offset x.2
      let n := x.1.place.bytes
      match m.sdPass (regBase + off) n .load with
      | (m, some k) => (m, .error k)
      | (m, none) =>
        let (m, v) := m.regLoad 32 off n
        (m, .ok (bs ++ leBytes n v))) (m, .ok [])

/-- What DIAG_PORT answers of the ports from `p` on, `n` of them. -/
def diagRegs (p n : Nat) : List (Reg × Nat) := (span p n).flatMap (fun p => [(.PORT_STATUS, p), (.PORT_FAULT, p), (.PORT_NETCHK, p)])

def Mod.doDiagPort (m : Mod) (c : Cmd) : Mod :=
  match m.sdRead (diagRegs (c.arg 0 2) (c.arg 2 2)) with
  | (m, .error k) => m.reply c (answer stACCESS k)
  | (m, .ok bs) => m.reply c { resp := bs }

def fDiagTdr (m : Mod) (c : Cmd) : List Nat := (if c.arg 0 2 ≥ m.portLimit c then [0x20] else []) ++ (if c.arg 2 1 > 15 then [0x22] else [])

/-- The run's end completes the command; a run that R53 refuses ends it with STATE. -/
def Mod.doDiagTdr (m : Mod) (c : Cmd) : Mod :=
  let p := c.arg 0 2
  if (m.port p).tdrFrom.isSome then m.reply c (answer stBUSY 0)
  else m.asSheepdog c [sdReg .PORT_TDR_CTRL p .store] (fun m =>
    let m := m.tdrStart p
    if (m.port p).tdrFrom.isSome then (m.wr F.PORT_TDR_CTRL_AVG p (c.arg 2 1)).beginLong { c.lc with arg := p } else m.reply c (answer stSTATE (m.rd F.MBX_STATE_STATE)))

/-- The memory error record (R269) as its registers stand. -/
def Mod.memErrBytes (m : Mod) : List Byte :=
  leBytes 4 (m.reg .MEM_ERR_STATUS 0) ++ leBytes 4 (m.reg .MEM_ERR_DEVMASK 0) ++ leBytes 8 (m.reg .MEM_ERR_ADDR 0) ++ leBytes 8 (m.reg .MEM_ERR_TIME 0)

/-- The registers DIAG_ERRLOG touches: the heads and the pop where it takes records, then the memory error record's. -/
def errlogRegs (pops : Bool) : List (Nat × Nat × AccKind) :=
  (if pops then (upTo 4).map (fun i => sdReg .GATE_VQ_HEAD i .load) ++ [sdReg .GATE_VQ_POP 0 .store] else []) ++
  [Reg.MEM_ERR_STATUS, .MEM_ERR_DEVMASK, .MEM_ERR_ADDR, .MEM_ERR_TIME].map (fun r => sdReg r 0 .load)

/-- Records are popped only where the response holds them (R364). -/
def Mod.doErrlog (m : Mod) (c : Cmd) : Mod :=
  let n := c.arg 0 1
  m.asSheepdog c (errlogRegs (!(m.vq.take n).isEmpty)) (fun m =>
    let resp := (m.vq.take n).flatMap VioRec.bytes ++ m.memErrBytes
    (m.iff (decide (resp.length ≤ c.lc.room)) (fun m => { m with vq := m.vq.drop n })).reply c { resp := resp })

def fRegRead (_m : Mod) (c : Cmd) : List Nat :=
  (if c.arg 0 4 ≥ 0x10000000 then [0x20] else []) ++ (if c.arg 4 1 ≠ 4 ∧ c.arg 4 1 ≠ 8 then [0x24] else [])

def Mod.doRegRead (m : Mod) (c : Cmd) : Mod :=
  let off := c.arg 0 4
  let n := c.arg 4 1
  match m.passGate (hostAcc 0 (regBase + off) n .load) with
  | (m, some k) => m.reply c (answer stACCESS k)
  | (m, none) =>
    let (m, v) := m.regLoad 54 off n
    m.reply c { results := leBytes 8 v }

def Mod.doTimeGet (m : Mod) (c : Cmd) : Mod :=
  match m.sdRead [(.TB_NOW, 0), (.TB_MONO, 0), (.TB_STATUS, 0)] with
  | (m, .error k) => m.reply c (answer stACCESS k)
  | (m, .ok bs) => m.reply c { results := bs }

def Mod.doTimeStep (m : Mod) (c : Cmd) : Mod :=
  let refused := m.flag F.TB_STATUS_LOCKED && m.tbSrc != 0
  m.asSheepdog c [sdReg .TB_STEP 0 .store] (fun m =>
    (m.tbStep (c.arg 8 8)).reply c (if refused then answer stSTATE (m.rd F.MBX_STATE_STATE) else {}))

def Mod.doTimePhase (m : Mod) (c : Cmd) : Mod :=
  let v := signedOf 32 (c.arg 8 4)
  if v = 0 then m.reply c {} else m.asSheepdog c [sdReg .TB_PHASE 0 .store] (fun m => (m.tbPhase v).reply c {})

/-! ### Twin and firmware (R367, R368, R433) -/

def Mod.doTwinStatus (m : Mod) (c : Cmd) : Mod :=
  match m.sdRead [(.TWIN_STATUS, 0)] with
  | (m, .error k) => m.reply c (answer stACCESS k)
  | (m, .ok bs) =>
    let fld := fun (f : Fld) => leBytes 1 (bitsOf (ofLeBytes bs) f.lo f.width)
    m.reply c { results := fld F.TWIN_STATUS_ROLE ++ fld F.TWIN_STATUS_LINK_UP }

/-- The hand-over completes the command. -/
def Mod.doCastle (m : Mod) (c : Cmd) : Mod :=
  match m.castleRequest (c.arg 8 8) with
  | (m, true) => m.beginLong c.lc
  | (m, false) => m.reply c (answer stSTATE (m.rd F.MBX_STATE_STATE))

def fFwBegin (_m : Mod) (c : Cmd) : List Nat := sizeFault c 0x800000

def Mod.doFwBegin (m : Mod) (c : Cmd) : Mod :=
  if m.fwUp.isSome then m.reply c (answer stBUSY 0)
  else m.replyHandle c 6 .firmware [] (fun m =>
    { m with fwUp := (((m.session c.lc.q).handles.find? (fun h => h.2 == .firmware)).map (fun h => Upload.mk h.1 (c.arg 0 4) [])) })

def fFwWrite (m : Mod) (c : Cmd) : List Nat := writeFault c (m.ownUpload c m.fwUp)

def Mod.doFwWrite (m : Mod) (c : Cmd) : Mod :=
  match m.ownUpload c m.fwUp with
  | none => m.reply c (answer stBADHANDLE 0)
  | some u => ({ m with fwUp := some (u.write (c.arg 0 4) c.payload) }).reply c {}

/-- The Rook's verification completes the command. -/
def Mod.doFwActivate (m : Mod) (c : Cmd) : Mod :=
  match m.fwUp with
  | none => m.reply c (answer stBADHANDLE 0)
  | some u =>
    if c.lc.handle ≠ u.handle || !((m.session c.lc.q).handles.any (·.1 == u.handle)) then m.reply c (answer stBADHANDLE 0)
    else if m.long.any (·.opcode == 0x0803) then m.reply c (answer stBUSY 0)
    else m.beginLong c.lc

/-- The state of a firmware slot as FW_STATUS gives it. -/
def FwState.code : FwState → Nat
  | .empty => 0
  | .active => 1
  | .trial => 2
  | .reverted => 3
  | .invalid => 4

def Mod.doFwStatus (m : Mod) (c : Cmd) : Mod :=
  m.reply c { results := leBytes 1 m.fwA.st.code ++ leBytes 1 m.fwB.st.code ++ leBytes 2 0 ++ leBytes 4 m.fwA.version ++ leBytes 4 m.fwB.version }

def Mod.doFwConfirm (m : Mod) (c : Cmd) : Mod :=
  if m.trialWait && m.fwRuns.st == .trial then
    let m := (m.setFwRuns { m.fwRuns with st := .active }).put F.MBX_STATE_TRIAL 0 false
    (({ m with trialWait := false }).msix 4).reply c {}
  else m.reply c (answer stSTATE (m.rd F.MBX_STATE_STATE))

/-- The Sheepdog restarts from its slots (R367), a TRIAL slot first: MBX_STATE 5. -/
def Mod.sdBoot (m : Mod) : Mod :=
  let m := if m.fwIdle.st = .trial then { m with runB := !m.runB } else m
  let m := { m with trialWait := m.fwRuns.st == FwState.trial }
  (m.mbxShow 5 m.trialWait).put F.ROOK_STATUS_SD_SLOT 0 m.runB

/-- A Sheepdog restart (R368): service stops, sessions close, a host-held lock is released. -/
def Mod.sheepdogRestart (m : Mod) : Mod :=
  let m := { m with long := [] }.sdBoot.each (upTo 5) Mod.closeSession
  m.iff (decide (1 ≤ m.lock.holder) && decide (m.lock.holder ≤ 4)) (fun m => m.freeLock)

def Mod.doFwRestart (m : Mod) (c : Cmd) : Mod := (m.reply c {}).sheepdogRestart

/-! ### The rows -/

/-- SESSION_OPEN (R356). -/
def execSessionOpen (q : PairId) (s : State) : Host.Outcome State Fault Refusal :=
  s.act (fun m => m.mailbox q 0x0001 noFaults Mod.doSessionOpen)

/-- SESSION_CLOSE (R356). -/
def execSessionClose (q : PairId) (s : State) : Host.Outcome State Fault Refusal :=
  s.act (fun m => m.mailbox q 0x0002 noFaults Mod.doSessionClose)

/-- NOP (R365). -/
def execNop (q : PairId) (s : State) : Host.Outcome State Fault Refusal :=
  s.act (fun m => m.mailbox q 0x0003 noFaults Mod.doNop)

/-- INFO (R354, R365). -/
def execInfo (q : PairId) (s : State) : Host.Outcome State Fault Refusal :=
  s.act (fun m => m.mailbox q 0x0004 noFaults Mod.doInfo)

/-- LOCK_ACQUIRE (R362). -/
def execLockAcquire (q : PairId) (s : State) : Host.Outcome State Fault Refusal :=
  s.act (fun m => m.mailbox q 0x0101 fLockAcquire Mod.doLockAcquire)

/-- LOCK_RELEASE (R362). -/
def execLockRelease (q : PairId) (s : State) : Host.Outcome State Fault Refusal :=
  s.act (fun m => m.mailbox q 0x0102 noFaults Mod.doLockRelease)

/-- LOCK_STATUS (R365). -/
def execLockStatus (q : PairId) (s : State) : Host.Outcome State Fault Refusal :=
  s.act (fun m => m.mailbox q 0x0103 noFaults Mod.doLockStatus)

/-- IMG_BEGIN (R365). -/
def execImgBegin (q : PairId) (s : State) : Host.Outcome State Fault Refusal :=
  s.act (fun m => m.mailbox q 0x0110 fImgBegin Mod.doImgBegin)

/-- IMG_WRITE (R365). -/
def execImgWrite (q : PairId) (s : State) : Host.Outcome State Fault Refusal :=
  s.act (fun m => m.mailbox q 0x0111 fImgWrite Mod.doImgWrite)

/-- IMG_STAGE (R376, R377). -/
def execImgStage (q : PairId) (v : Verdict) (s : State) : Host.Outcome State Fault Refusal :=
  s.act (fun m => m.mailbox q 0x0112 fImgStage (fun m c => m.doImgStage c v))

/-- IMG_COMMIT (R382). -/
def execImgCommit (q : PairId) (s : State) : Host.Outcome State Fault Refusal :=
  s.act (fun m => m.mailbox q 0x0113 noFaults Mod.doImgCommit)

/-- IMG_DISCARD (R380). -/
def execImgDiscard (q : PairId) (s : State) : Host.Outcome State Fault Refusal :=
  s.act (fun m => m.mailbox q 0x0114 noFaults Mod.doImgDiscard)

/-- TAKEBACK (R388). -/
def execTakeback (q : PairId) (s : State) : Host.Outcome State Fault Refusal :=
  s.act (fun m => m.mailbox q 0x0115 fTakeback Mod.doTakeback)

/-- HISTORY (R378). -/
def execHistory (q : PairId) (s : State) : Host.Outcome State Fault Refusal :=
  s.act (fun m => m.mailbox q 0x0116 noFaults Mod.doHistory)

/-- SIG_OPEN (R359, R365). -/
def execSigOpen (q : PairId) (s : State) : Host.Outcome State Fault Refusal :=
  s.act (fun m => m.mailbox q 0x0201 fSigOpen Mod.doSigOpen)

/-- SIG_READ (R82, R359). -/
def execSigRead (q : PairId) (s : State) : Host.Outcome State Fault Refusal :=
  s.act (fun m => m.mailbox q 0x0202 noFaults Mod.doSigRead)

/-- OUT_OPEN (R359, R365). -/
def execOutOpen (q : PairId) (s : State) : Host.Outcome State Fault Refusal :=
  s.act (fun m => m.mailbox q 0x0203 fOutOpen Mod.doOutOpen)

/-- OUT_WRITE (R87, R365). -/
def execOutWrite (q : PairId) (s : State) : Host.Outcome State Fault Refusal :=
  s.act (fun m => m.mailbox q 0x0204 fOutWrite Mod.doOutWrite)

/-- SIG_CLOSE (R365). -/
def execSigClose (q : PairId) (s : State) : Host.Outcome State Fault Refusal :=
  s.act (fun m => m.mailbox q 0x0205 noFaults Mod.doSigClose)

/-- WIN_OPEN (R360). -/
def execWinOpen (q : PairId) (s : State) : Host.Outcome State Fault Refusal :=
  s.act (fun m => m.mailbox q 0x0301 fWinOpen Mod.doWinOpen)

/-- WIN_CLOSE (R360). -/
def execWinClose (q : PairId) (s : State) : Host.Outcome State Fault Refusal :=
  s.act (fun m => m.mailbox q 0x0302 noFaults Mod.doWinClose)

/-- EVT_SUBSCRIBE (R365, R366). -/
def execEvtSubscribe (q : PairId) (s : State) : Host.Outcome State Fault Refusal :=
  s.act (fun m => m.mailbox q 0x0401 fSubscribe Mod.doSubscribe)

/-- EVT_UNSUBSCRIBE (R365). -/
def execEvtUnsubscribe (q : PairId) (s : State) : Host.Outcome State Fault Refusal :=
  s.act (fun m => m.mailbox q 0x0402 noFaults Mod.doUnsubscribe)

/-- MSG_FW (R361). -/
def execMsgFw (q : PairId) (s : State) : Host.Outcome State Fault Refusal :=
  s.act (fun m => m.mailbox q 0x0403 fMsgFw Mod.doMsgFw)

/-- MSG_READ (R361). -/
def execMsgRead (q : PairId) (s : State) : Host.Outcome State Fault Refusal :=
  s.act (fun m => m.mailbox q 0x0404 noFaults Mod.doMsgRead)

/-- DIAG_PORT (R365). -/
def execDiagPort (q : PairId) (s : State) : Host.Outcome State Fault Refusal :=
  s.act (fun m => m.mailbox q 0x0501 fDiagPort Mod.doDiagPort)

/-- DIAG_TDR (R54, R365). -/
def execDiagTdr (q : PairId) (s : State) : Host.Outcome State Fault Refusal :=
  s.act (fun m => m.mailbox q 0x0502 fDiagTdr Mod.doDiagTdr)

/-- DIAG_ERRLOG (R289, R365). -/
def execDiagErrlog (q : PairId) (s : State) : Host.Outcome State Fault Refusal :=
  s.act (fun m => m.mailbox q 0x0503 noFaults Mod.doErrlog)

/-- REG_READ (R365). -/
def execRegRead (q : PairId) (s : State) : Host.Outcome State Fault Refusal :=
  s.act (fun m => m.mailbox q 0x0504 fRegRead Mod.doRegRead)

/-- TIME_GET (R365). -/
def execTimeGet (q : PairId) (s : State) : Host.Outcome State Fault Refusal :=
  s.act (fun m => m.mailbox q 0x0601 noFaults Mod.doTimeGet)

/-- TIME_STEP (R108, R365). -/
def execTimeStep (q : PairId) (s : State) : Host.Outcome State Fault Refusal :=
  s.act (fun m => m.mailbox q 0x0602 noFaults Mod.doTimeStep)

/-- TIME_PHASE (R113, R365). -/
def execTimePhase (q : PairId) (s : State) : Host.Outcome State Fault Refusal :=
  s.act (fun m => m.mailbox q 0x0603 noFaults Mod.doTimePhase)

/-- TWIN_STATUS (R365). -/
def execTwinStatus (q : PairId) (s : State) : Host.Outcome State Fault Refusal :=
  s.act (fun m => m.mailbox q 0x0701 noFaults Mod.doTwinStatus)

/-- CASTLE (R433). -/
def execCastle (q : PairId) (s : State) : Host.Outcome State Fault Refusal :=
  s.act (fun m => m.mailbox q 0x0702 noFaults Mod.doCastle)

/-- FW_BEGIN (R365). -/
def execFwBegin (q : PairId) (s : State) : Host.Outcome State Fault Refusal :=
  s.act (fun m => m.mailbox q 0x0801 fFwBegin Mod.doFwBegin)

/-- FW_WRITE (R365). -/
def execFwWrite (q : PairId) (s : State) : Host.Outcome State Fault Refusal :=
  s.act (fun m => m.mailbox q 0x0802 fFwWrite Mod.doFwWrite)

/-- FW_ACTIVATE (R367). -/
def execFwActivate (q : PairId) (s : State) : Host.Outcome State Fault Refusal :=
  s.act (fun m => m.mailbox q 0x0803 noFaults Mod.doFwActivate)

/-- FW_RESTART (R367, R368). -/
def execFwRestart (q : PairId) (s : State) : Host.Outcome State Fault Refusal :=
  s.act (fun m => m.mailbox q 0x0804 noFaults Mod.doFwRestart)

/-- FW_CONFIRM (R368). -/
def execFwConfirm (q : PairId) (s : State) : Host.Outcome State Fault Refusal :=
  s.act (fun m => m.mailbox q 0x0805 noFaults Mod.doFwConfirm)

/-- FW_STATUS (R368). -/
def execFwStatus (q : PairId) (s : State) : Host.Outcome State Fault Refusal :=
  s.act (fun m => m.mailbox q 0x0806 noFaults Mod.doFwStatus)

/-- The faulty fields a command finds of its own. -/
def moreFaults (op : Nat) : Mod → Cmd → List Nat :=
  match op with
  | 0x0101 => fLockAcquire
  | 0x0110 => fImgBegin
  | 0x0111 => fImgWrite
  | 0x0112 => fImgStage
  | 0x0115 => fTakeback
  | 0x0201 => fSigOpen
  | 0x0203 => fOutOpen
  | 0x0204 => fOutWrite
  | 0x0301 => fWinOpen
  | 0x0401 => fSubscribe
  | 0x0403 => fMsgFw
  | 0x0501 => fDiagPort
  | 0x0502 => fDiagTdr
  | 0x0504 => fRegRead
  | 0x0801 => fFwBegin
  | 0x0802 => fFwWrite
  | _ => noFaults

/-- What a command does once nothing bars it. -/
def cmdBody (op : Nat) (v : Verdict) : Mod → Cmd → Mod :=
  match op with
  | 0x0001 => Mod.doSessionOpen
  | 0x0002 => Mod.doSessionClose
  | 0x0003 => Mod.doNop
  | 0x0004 => Mod.doInfo
  | 0x0101 => Mod.doLockAcquire
  | 0x0102 => Mod.doLockRelease
  | 0x0103 => Mod.doLockStatus
  | 0x0110 => Mod.doImgBegin
  | 0x0111 => Mod.doImgWrite
  | 0x0112 => fun m c => m.doImgStage c v
  | 0x0113 => Mod.doImgCommit
  | 0x0114 => Mod.doImgDiscard
  | 0x0115 => Mod.doTakeback
  | 0x0116 => Mod.doHistory
  | 0x0201 => Mod.doSigOpen
  | 0x0202 => Mod.doSigRead
  | 0x0203 => Mod.doOutOpen
  | 0x0204 => Mod.doOutWrite
  | 0x0205 => Mod.doSigClose
  | 0x0301 => Mod.doWinOpen
  | 0x0302 => Mod.doWinClose
  | 0x0401 => Mod.doSubscribe
  | 0x0402 => Mod.doUnsubscribe
  | 0x0403 => Mod.doMsgFw
  | 0x0404 => Mod.doMsgRead
  | 0x0501 => Mod.doDiagPort
  | 0x0502 => Mod.doDiagTdr
  | 0x0503 => Mod.doErrlog
  | 0x0504 => Mod.doRegRead
  | 0x0601 => Mod.doTimeGet
  | 0x0602 => Mod.doTimeStep
  | 0x0603 => Mod.doTimePhase
  | 0x0701 => Mod.doTwinStatus
  | 0x0702 => Mod.doCastle
  | 0x0801 => Mod.doFwBegin
  | 0x0802 => Mod.doFwWrite
  | 0x0803 => Mod.doFwActivate
  | 0x0804 => Mod.doFwRestart
  | 0x0805 => Mod.doFwConfirm
  | 0x0806 => Mod.doFwStatus
  | _ => fun m c => m.reply c (answer stBADOP 0)

end Sys2Proof.Machine
end

