-- ==== Sys2Proof/Machine/MeshDone.lean ====
section
/-!
DEFINITION. Sys2Proof/Machine/MeshDone.lean: responses to this module's own requests, and requests that have none within
MESH_RTO (R127, R309, R311, R343).
-/
namespace Sys2Proof.Machine

/-- What a request came to: bytes of its place with the tags of its line and poison, a write done, a failure's kind. -/
inductive Came where
  | data (d : List Byte) (tags : Nat) (poison : Bool)
  | done (old : List Byte) (tag : Bool)
  | failed (kind : Nat)
  deriving DecidableEq, Repr

/-- Whether a request is answered by an ACK. -/
def Mod.wantsAck (m : Mod) (r : MeshReq) : Bool :=
  match r.who with
  | .core c => (m.core c).waits.any (fun w => w.tid == r.tid && (match w.kind with
    | .atomic _ _ => true
    | .kcas _ => true
    | .chunk _ _ _ _ _ wr => wr
    | .ctx fn _ _ _ _ => decide (fn < 2)
    | .stu _ => true
    | .pair x => !x.op.isLoad
    | .store => true
    | _ => false))
  | .coreStore _ => true
  | .channel n => match m.xfrRun n with
    | some x => x.writing
    | none => true
  | .mailbox _ => false
  | .host => false
  | .hostWrite => true

/-- An outstanding access of a core has its answer. -/
def Mod.waitCame (m : Mod) (c tid : Nat) (x : Came) : Mod :=
  let k := m.core c
  m.setCore c { k with waits := k.waits.map (fun w =>
    if w.tid ≠ tid then w
    else match x with
      | .data d t p => { w with resp := some (d, t, p) }
      | .done old tag => { w with resp := some (old, if tag then 2 ^ (w.ea % 64 / 16) else 0, false) }
      | .failed kind => { w with fault := some kind }) }

/-- A store of a core is acknowledged, or refused: the imprecise store access exception (R209, R224). -/
def Mod.storeCame (m : Mod) (c tid : Nat) (x : Came) : Mod :=
  match (m.core c).sb.find? (fun e => e.sent == some tid) with
  | none => m
  | some e =>
    let i := (m.core c).sb.findIdx (· == e)
    let m := m.setCore c { m.core c with sb := (m.core c).sb.erase e }
    match x with
    | .failed kind => m.storeRefused c i e kind
    | _ => m

/-- A transfer channel's request is answered (R343). -/
def Mod.channelCame (m : Mod) (n tid : Nat) (x : Came) : Mod :=
  match m.xfrRun n with
  | none => m
  | some r =>
    if r.tid ≠ some tid then m
    else m.setXfr n (some { r with resp := some (match x with
      | .data d t p => .data d t p
      | .done _ _ => .acked
      | .failed k => .failed 0 k) })

/-- What a request came to reaches its requester; a write of the host that fails is recorded only (R351). -/
def Mod.came (m : Mod) (r : MeshReq) (x : Came) : Mod :=
  match r.who with
  | .core c => m.waitCame c r.tid x
  | .coreStore c => m.storeCame c r.tid x
  | .channel n => m.channelCame n r.tid x
  | .hostWrite => match x with
    | .failed _ => m.hostErr F.MBX_HOST_ERR_REMOTE
    | _ => m
  | _ => m.gatherAnswer r.tid (match x with
    | .data d _ p => if p then .error 0 else .ok d
    | .done _ _ => .ok []
    | .failed k => .error k)

/-- The tags of a line that stay as it arrives (R158, R163). -/
def Mod.keptTags (m : Mod) (attested : Bool) (line : BitVec 512) (tags : Nat) : Nat :=
  (upTo 4).foldl (fun t j =>
    if bitAt tags j && (m.keyArrives attested (Key.ofBytes (((leBytes 64 line.toNat).drop (16 * j)).take 16) true)).tag then t + 2 ^ j else t) 0

/-- The answer to a whole run from the answers to its lines (R314). -/
def RunConv.answer (r : RunConv) : Option (Flit × List Flit) :=
  match r.got with
  | [] => none
  | f :: rest =>
    if !r.reads then some (f, [])
    else some ({ f with ftype := 0x12, vc := 3, follow := BitVec.ofNat 5 rest.length },
      rest.map (fun x => { x with ftype := 0x10, vc := 3 }))

/-- A response for another node that came over link `l`: one of a run this module sent as single lines waits for the others, and a refusal
ends the run for its requester; any other goes on. -/
def Mod.passOn (m : Mod) (l : Nat) (f : Flit) (data : List Flit) : Mod :=
  match m.runs.find? (fun r => r.src == f.dst.toNat && r.tid == f.tid.toNat && r.home == f.src.toNat) with
  | none => m.forward l f data
  | some r =>
    let m := m.giveCredits l f.vc.toNat (1 + data.length)
    let nack := f.ftype.toNat = 0x14
    let r' := { r with lines := r.lines - 1, got := r.got ++ [f], failed := r.failed || nack }
    let m := { m with runs := if r'.lines = 0 then m.runs.erase r else m.runs.map (fun x => if x = r then r' else x) }
    if nack && !r.failed then m.respond f []
    else if r'.failed || r'.lines ≠ 0 then m
    else match r'.answer with
      | some (g, ds) => m.respond g ds
      | none => m

/-- A response that has come over a link: passed on when it is for another node, discarded when nothing waits for its TID,
counted when it is late, of which the chess clocks hear (R120, R127). -/
def Mod.answered (m : Mod) (l : Nat) (f : Flit) (data : List Flit) (t : Nat) (ok : Mod → MeshReq → Bool) (serve : Mod → MeshReq → Mod) : Mod :=
  if !m.brings l f.vc.toNat || f.ftype.toNat ≠ t then m
  else if f.dst.toNat ≠ m.node then m.passOn l (m.untag l f) (data.map (m.untag l))
  else
    let m := m.giveCredits l f.vc.toNat (1 + data.length)
    match m.req.find? (fun r => r.tid == f.tid.toNat && r.via.isSome) with
    | none => m
    | some r =>
      if !ok m r then m
      else serve (m.iff (f.late || m.pastDeadline r.deadline) (fun m => (m.count F.TB_DL_LATE_TX_COUNT).occur 0x129)) r

/-- Lines of a request come: it ends with the last one awaited. -/
def Mod.linesCame (m : Mod) (l : Nat) (r : MeshReq) (fs : List Flit) : Mod :=
  let got := r.got ++ fs
  if got.length < r.lines then { m with req := m.req.map (fun x => if x.tid = r.tid then { x with got := got } else x) }
  else
    let att := m.flag F.MESH_LINK_STATUS_ATTESTED l
    let m := m.endRequest r.tid
    match got with
    | [] => m
    | f :: _ =>
      let d := (got.flatMap (fun g => leBytes 64 g.payload.toNat)).drop (r.addr % 64)
      m.came r (.data (d.take r.size) (m.keptTags att f.payload f.tags.toNat) (got.any (·.poison)))

/-- RDRESP (R311). -/
def execRdresp (l : LinkId) (f : Flit) (s : State) : Host.Outcome State Fault Refusal :=
  s.act (fun m => m.answered l f [] 0x11 (fun m r => !m.wantsAck r) (fun m r => m.linesCame l r [f]))

/-- RUNRESP (R343). -/
def execRunresp (l : LinkId) (f : Flit) (data : List Flit) (s : State) : Host.Outcome State Fault Refusal :=
  s.act (fun m => m.answered l f data 0x12 (fun m r => !m.wantsAck r) (fun m r => m.linesCame l r (f :: data)))

/-- The old value an ACK carries, for the atomics, and whether the old key keeps its tag. A run sent as single lines ends with the last ACK
(R314). -/
def Mod.ackCame (m : Mod) (l : Nat) (r : MeshReq) (f : Flit) : Mod :=
  let att := m.flag F.MESH_LINK_STATUS_ATTESTED l
  let old := leBytes 16 f.payload.toNat
  let tag := f.tags.getLsbD 0 && (m.keyArrives att (Key.ofBytes old true)).tag
  if 1 < r.lines then { m with req := m.req.map (fun x => if x.tid = r.tid then { x with lines := x.lines - 1 } else x) }
  else
    let m := m.endRequest r.tid
    if f.poison then m.came r (.data old 0 true) else m.came r (.done old tag)

/-- ACK (R311). -/
def execAck (l : LinkId) (f : Flit) (s : State) : Host.Outcome State Fault Refusal :=
  s.act (fun m => m.answered l f [] 0x13 Mod.wantsAck (fun m r => m.ackCame l r f))

/-- NACK (R311). -/
def execNack (l : LinkId) (f : Flit) (s : State) : Host.Outcome State Fault Refusal :=
  s.act (fun m => m.answered l f [] 0x14 (fun _ _ => true) (fun m r => (m.endRequest r.tid).came r (.failed f.status.toNat)))

/-- MESH_RTO, in ns; 0 is treated as 1 µs. -/
def Mod.rto (m : Mod) : Nat := Nat.max 1 (m.rd F.MESH_RTO_TIMEOUT) * 1000

/-- REQUEST_TIMEOUT (R311): a request with no response fails with kind 0x21. -/
def execRequestTimeout (tid : BitVec 16) (s : State) : Host.Outcome State Fault Refusal :=
  s.act (fun m => match m.req.find? (·.tid == tid.toNat) with
    | none => m
    | some r => (((m.toMono (r.since + m.rto)).meshErr 0x21).endRequest r.tid).came r (.failed 0x21))

end Sys2Proof.Machine
end

