-- ==== Sys2Proof/Machine/HostOps.lean ====
section
/-!
DEFINITION. Sys2Proof/Machine/HostOps.lean: the host link: reads and writes through the BARs, doorbells, host resets, the lock's
lease, interrupt coalescing, the firmware exchange, and the Sheepdog's restarts (R349 to R371).
-/
namespace Sys2Proof.Machine

/-- Whether the endpoint serves accesses: its link is up, from lamb service on (R392). -/
def Mod.hostServed (m : Mod) : Bool := m.host.up && decide (4 ≤ m.rd F.ROOK_STATUS_BOOT) && decide (m.rd F.ROOK_STATUS_BOOT ≤ 6)

/-! ### BAR0 (R351, R369, R370) -/

/-- The registers of BAR0 as offsets of the register file's own numbering. -/
def bar0Base : Nat := 0x10000000

/-- Whether an access to BAR0 is 4 or 8 bytes wide and naturally aligned. -/
def bar0Ok (off n : Nat) : Bool := (n == 4 || n == 8) && off % n == 0 && decide (off + n ≤ 0x4000)

/-- 4 bytes of BAR0. -/
def Mod.bar0Word (m : Mod) (off : Nat) : Nat :=
  if 0x2000 ≤ off ∧ off < 0x2400 then m.msixWord ((off - 0x2000) / 4)
  else if off = 0x3000 ∨ off = 0x3004 then maskOf 32 (fun j => m.host.pba.contains (j + 32 * ((off - 0x3000) / 4)))
  else (m.readPart (bar0Base + off) 4).2

/-- The pending vectors that nothing masks any more are sent. -/
def Mod.msixRelease (m : Mod) : Mod :=
  if !m.msixOn then m
  else m.each (m.host.pba.filter (fun v => !bitAt (m.msixWord (4 * v + 3)) 0)) (fun m v =>
    { m with host := { m.host with pba := m.host.pba.filter (· != v) } }.emit (.msix v))

/-- A word of the MSI-X table written; a pending vector that is unmasked is sent. -/
def Mod.msixWrite (m : Mod) (i v : Nat) : Mod :=
  { m with host := { m.host with table := Tbl.set (if i % 4 = 3 then 1 else 0) m.host.table i v } }.msixRelease

/-- A write of MBX_Q_CMD_PROD (R355): the doorbell, or RING_ERR; ignored while the Sheepdog restarts (R368). -/
def Mod.doorbell (m : Mod) (q i : Nat) : Mod :=
  if q ≥ 4 || m.rd F.MBX_STATE_STATE = 5 then m
  else if prodMoves (m.rd F.MBX_Q_CMD_PROD_INDEX q) (m.rd F.MBX_Q_CMD_CONS_INDEX q) i 256 then
    (m.wr F.MBX_Q_CMD_PROD_INDEX q i).raise (216 + q)
  else m.put F.MBX_Q_STATUS_RING_ERR q true

/-- A write of MBX_Q_CPL_CONS (R355). -/
def Mod.cplConsume (m : Mod) (q i : Nat) : Mod :=
  if q ≥ 4 then m
  else if consMoves (m.rd F.MBX_Q_CPL_PROD_INDEX q) (m.rd F.MBX_Q_CPL_CONS_INDEX q) i then m.wr F.MBX_Q_CPL_CONS_INDEX q i
  else m.put F.MBX_Q_STATUS_RING_ERR q true

/-- 4 bytes of BAR0 written. -/
def Mod.bar0Put (m : Mod) (off v : Nat) : Mod :=
  if 0x2000 ≤ off ∧ off < 0x2400 then m.msixWrite ((off - 0x2000) / 4) v
  else if 0x2400 ≤ off then m
  else match regAt (bar0Base + off) with
    | some (.MBX_Q_CMD_PROD, q, _) => m.doorbell q (v % 65536)
    | some (.MBX_Q_CPL_CONS, q, _) => m.cplConsume q (v % 65536)
    | _ => m.writePart { master := 54, sys := false } (bar0Base + off) 4 v

/-! ### Bulk windows (R351, R360) -/

/-- The window a BAR4 access lies in, whole. -/
def Mod.windowAt (m : Mod) (off n : Nat) : Option Win :=
  match Tbl.get none m.wins (off / 2 ^ 28) with
  | some w => if off % 2 ^ 28 + n ≤ w.len then some w else none
  | none => none

/-- An access through BAR4 where nothing is mapped. -/
def Mod.windowReport (m : Mod) (off n access : Nat) : Mod :=
  m.report ⟨m.node * 2 ^ 52 + off, m.now, 0x01, 54, 15, access, 0xFFFF, n, 0, 4⟩

/-- The parts of a range that lie in one line each, up to `fuel`. -/
def lineParts (ea n : Nat) : Nat → List (Nat × Nat)
  | 0 => []
  | fuel + 1 =>
    let k := Nat.min n (64 - ea % 64)
    if n = 0 then [] else (ea, k) :: lineParts (ea + k) (n - k) fuel

/-- A read through a window: some lines may come from other nodes (R359). -/
def Mod.windowRead (m : Mod) (w : Win) (off n : Nat) : Mod :=
  let places := (lineParts (w.base + off % 2 ^ 28) n 3).map (fun p => (p.1, p.2, if m.isLocal p.1 then w.epochAt (p.1 % 2 ^ 52) else 0))
  match m.gatherBegin .host none places with
  | (m, .error k) => m.gatherFail none k (decide (0x20 ≤ k))
  | (m, .ok g) => m.gatherEnd g

/-- Bytes of one line written through a window; a write to another node is done once it is posted. -/
def Mod.windowPut (m : Mod) (w : Win) (ea : Nat) (d : List Byte) : Mod :=
  if m.isLocal ea then
    match m.passGate (hostAcc (w.epochAt (ea % 2 ^ 52)) (ea % 2 ^ 52) d.length .store) with
    | (m, some _) => m.hostErr F.MBX_HOST_ERR_WR_LOST
    | (m, none) => m.storeAs 54 (ea % 2 ^ 52) d []
  else match m.sendStore .hostWrite ea d 0 0 0 with
    | (m, .ok _) => m
    | (m, .error _) => m.hostErr F.MBX_HOST_ERR_REMOTE

/-- A write through a window. -/
def Mod.windowWrite (m : Mod) (w : Win) (off : Nat) (d : List Byte) : Mod :=
  let ea := w.base + off % 2 ^ 28
  if !w.wr then (m.violate (hostAcc (w.epochAt (ea % 2 ^ 52)) (ea % 2 ^ 52) d.length .store) 0x0D 0xFFFF).hostErr F.MBX_HOST_ERR_WR_LOST
  else m.each (lineParts ea d.length 3) (fun m p => m.windowPut w p.1 ((d.drop (p.1 - ea)).take p.2))

/-! ### Reads and writes of the host (R350, R351) -/

/-- A host read. -/
def Mod.hostRead (m : Mod) (bar : Bar) (off n : Nat) : Mod :=
  if !m.hostServed || n = 0 then m
  else if !m.memOn then m.hostUnsupported
  else match bar with
    | .bar0 =>
      if !bar0Ok off n then m.hostUnsupported
      else m.emit (.hostRead (leBytes 4 (m.bar0Word off) ++ (if n = 8 then leBytes 4 (m.bar0Word (off + 4)) else [])) .ok)
    | .bar2 =>
      if off + n > 0x100000 then m.hostUnsupported
      else match m.passGate (hostAcc 0 (mailboxBase + off) n .load) with
        | (m, some _) => m.hostAbort
        | (m, none) => m.emit (.hostRead (m.bytes (mailboxBase + off) n) .ok)
    | .bar4 => match m.windowAt off n with
      | some w => m.windowRead w off n
      | none => (m.windowReport off n 0).hostAbort

/-- HOST_READ (R351). -/
def execHostRead (bar : Bar) (off : BitVec 32) (size : Fin 65) (s : State) : Host.Outcome State Fault Refusal :=
  s.act (fun m => m.hostRead bar off.toNat size)

/-- A host write. -/
def Mod.hostWrite (m : Mod) (bar : Bar) (off : Nat) (d : List Byte) : Mod :=
  let n := d.length
  if !m.hostServed || n = 0 || n > 64 then m
  else if !m.memOn then m.setPci 65 (m.pciReg 65 ||| 2 ^ 20)
  else match bar with
    | .bar0 =>
      if !bar0Ok off n then (m.hostErr F.MBX_HOST_ERR_WR_LOST).setPci 65 (m.pciReg 65 ||| 2 ^ 20)
      else
        let v := ofLeBytes d
        (m.bar0Put off (v % 2 ^ 32)).iff (n == 8) (fun m => m.bar0Put (off + 4) (v / 2 ^ 32))
    | .bar2 =>
      if off + n > 0x100000 then m.hostErr F.MBX_HOST_ERR_WR_LOST
      else match m.passGate (hostAcc 0 (mailboxBase + off) n .store) with
        | (m, some _) => m.hostErr F.MBX_HOST_ERR_WR_LOST
        | (m, none) => m.setBytes (mailboxBase + off) d
    | .bar4 => match m.windowAt off n with
      | some w => m.windowWrite w off d
      | none => (m.windowReport off n 1).hostErr F.MBX_HOST_ERR_WR_LOST

/-- HOST_WRITE (R351). -/
def execHostWrite (bar : Bar) (off : BitVec 32) (data : List Byte) (s : State) : Host.Outcome State Fault Refusal :=
  s.act (fun m => m.hostWrite bar off.toNat data)

/-- DOORBELL (R355). -/
def execDoorbell (q : PairId) (index : BitVec 16) (s : State) : Host.Outcome State Fault Refusal :=
  s.act (fun m => m.doorbell q index.toNat)

/-- COMPLETION_CONSUME (R355). -/
def execCompletionConsume (q : PairId) (index : BitVec 16) (s : State) : Host.Outcome State Fault Refusal :=
  s.act (fun m => m.cplConsume q index.toNat)

/-! ### Host resets (R352) -/

/-- The registers of a pair at their reset values. -/
def Mod.pairReset (m : Mod) (q : Nat) : Mod :=
  m.each [Reg.MBX_Q_CMD_PROD, .MBX_Q_CMD_CONS, .MBX_Q_CPL_PROD, .MBX_Q_CPL_CONS, .MBX_Q_STATUS] (fun m r => m.setReg r q (r.resetVal q))

/-- A host reset: what the host commands had under way ends without a completion; a reflectometry run is aborted. -/
def Mod.hostReset (m : Mod) : Mod :=
  let runs := m.long.filter (fun c => c.opcode == 0x0502 && decide (c.q < 4))
  let m := { m with long := m.long.filter (fun c => decide (4 ≤ c.q)) }
  let m := m.each runs (fun m c => m.tdrAbort c.arg)
  let m := (m.each (upTo 4) Mod.closeSession).each (upTo 4) Mod.pairReset
  { m with host := {}, gathers := m.gathers.filter (fun g => match g.cmd with
      | some c => decide (4 ≤ c.q)
      | none => false) }

/-- A host reset of a kind: D3hot is shown as the power state (R349). -/
def Mod.hostResetBy (m : Mod) (k : HostResetKind) : Mod := m.hostReset.iff (k == .d3hot) (fun m => m.setPci 17 3)

/-- HOST_RESET (R352): the four kinds do the same but for the power state. -/
def execHostReset (kind : HostResetKind) (s : State) : Host.Outcome State Fault Refusal := s.act (fun m => m.hostResetBy kind)

/-! ### Configuration requests (R349, R392) -/

/-- A register after a write of its enabled bytes: a payload size above 512 bytes, a read request size above 4,096 bytes and the power states
D1 and D2 are not taken. -/
def Mod.pciTake (m : Mod) (i v bytes : Nat) : Nat :=
  let old := m.pciReg i
  let w := pciWritable i &&& bytes
  let x := ((old &&& (0xFFFFFFFF - w)) ||| (v &&& w)) &&& (0xFFFFFFFF - (v &&& bytes &&& pciClears i))
  let keep := fun (lo n : Nat) (x : Nat) => withBits x lo n (bitsOf old lo n)
  match i with
  | 17 => if bitsOf x 0 2 = 1 ∨ bitsOf x 0 2 = 2 then keep 0 2 x else x
  | 30 =>
    let x := if bitsOf x 5 3 > 2 then keep 5 3 x else x
    if bitsOf x 12 3 > 5 then keep 12 3 x else x
  | _ => x

/-- A configuration write: a function level reset and D3hot are host resets (R352), the return to D0 leaves configuration space at reset. -/
def Mod.pciWrite (m : Mod) (i v bytes : Nat) : Mod :=
  let was := bitsOf (m.pciReg 17) 0 2
  let x := m.pciTake i v bytes
  let m := m.setPci i x
  if i = 30 ∧ bitAt (v &&& bytes) 15 then m.hostResetBy .flr
  else if i = 17 ∧ was = 0 ∧ bitsOf x 0 2 = 3 then m.hostResetBy .d3hot
  else if i = 17 ∧ was = 3 ∧ bitsOf x 0 2 = 0 then { m with host := { m.host with pci := [] } }
  else if i = 20 then m.msixRelease
  else m

/-- The bits of the enabled bytes of a configuration write. -/
def enabledBits (e : BitVec 4) : Nat := (upTo 4).foldl (fun a i => if e.getLsbD i then a + 255 * 256 ^ i else a) 0

/-- CONFIGURATION_REQUEST (R349, R392): answered from t4, with Configuration Request Retry Status until t6. -/
def execConfigurationRequest (req : ConfigReq) (s : State) : Host.Outcome State Fault Refusal :=
  s.act (fun m => m.iff m.phase.sheepdogUp (fun m =>
    if m.rd F.ROOK_STATUS_BOOT < 4 then m.emit (.config req.tag.toNat true 0)
    else match req.acc with
      | .read r => m.emit (.config req.tag.toNat false (m.pciReg r.toNat))
      | .write r v e => (m.emit (.config req.tag.toNat false 0)).pciWrite r.toNat v.toNat (enabledBits e)))

/-- HOST_LINK_RETURN (R352, R392): the endpoint answers from t4 on. -/
def execHostLinkReturn (s : State) : Host.Outcome State Fault Refusal :=
  s.act (fun m => m.iff m.phase.sheepdogUp (fun m => { m with host := { m.host with up := true } }))

/-! ### The lease, coalescing, the firmware outbox (R361, R362, R366) -/

/-- LEASE_EXPIRY (R362). -/
def execLeaseExpiry (s : State) : Host.Outcome State Fault Refusal :=
  s.act (fun m => match m.lock.leaseEnd with
    | some t => (m.toMono t).freeLock
    | none => m)

/-- COALESCING_WINDOW_END (R366): one message for the completions written in the window. -/
def execCoalescingWindowEnd (q : PairId) (s : State) : Host.Outcome State Fault Refusal :=
  s.act (fun m => match m.host.windows.find? (·.1 == q.val) with
    | some w =>
      let m := m.toMono w.2.1
      { m with host := { m.host with windows := m.host.windows.erase w } }.iff w.2.2 (fun m => m.msix q)
    | none => m)

/-- FW_OUTBOX_POST (R361, R371). -/
def execFwOutboxPost (_w : Writer) (q : PairId) (index : BitVec 16) (s : State) : Host.Outcome State Fault Refusal :=
  s.act (fun m => m.iff (decide (q.val < 4)) (fun m => m.fwOut q index.toNat))

/-! ### The Sheepdog's starts (R354, R367, R368) -/

/-- The information page rewritten (R354). -/
def Mod.infoPage (m : Mod) : Mod :=
  let page := [2, 0, 1, 0] ++ leBytes 4 m.fwRuns.version ++ leBytes 1 (b2n m.runB) ++ leBytes 7 0 ++ leBytes 2 m.node ++ leBytes 6 0 ++
    (upTo 8).flatMap (fun n => leBytes 4 (m.rd F.ROOK_ID_DIGEST n)) ++ leBytes 8 0 ++ leBytes 4 (m.rd F.CFG_MOVE_SETTLED_MOVE)
  m.setBytes mailboxBase page

/-- SHEEPDOG_RESTART (R368). -/
def execSheepdogRestart (s : State) : Host.Outcome State Fault Refusal :=
  s.act (fun m => m.iff (m.phase.sheepdogUp && m.rd F.MBX_STATE_STATE != 5) Mod.sheepdogRestart)

/-- The state the Sheepdog serves in: full service, lamb service, or booting. -/
def Mod.serviceState (m : Mod) : Nat := if m.phase.full then 3 else if 4 ≤ m.rd F.ROOK_STATUS_BOOT then 2 else 1

/-- SHEEPDOG_READY (R368): the restarted Sheepdog serves again. -/
def execSheepdogReady (s : State) : Host.Outcome State Fault Refusal :=
  s.act (fun m => m.iff (m.rd F.MBX_STATE_STATE == 5) (fun m => { m.infoPage.setMbxState m.serviceState with goose := { m.goose with restarted := false } }))

/-- TRIAL_TIMEOUT (R368): a TRIAL image that did not serve or was not confirmed in time; the other slot starts. -/
def execTrialTimeout (s : State) : Host.Outcome State Fault Refusal :=
  s.act (fun m =>
    if m.trialWait && m.fwRuns.st == .trial then
      let m := m.setFwRuns { m.fwRuns with st := .reverted }
      { m with runB := !m.runB }.sheepdogRestart
    else m)

/-- ROOK_VERIFICATION_DONE (R367): a refused image leaves the slots alone; an accepted one is written to the slot that does not
run, which becomes TRIAL. -/
def execRookVerificationDone (v : Verdict) (s : State) : Host.Outcome State Fault Refusal :=
  s.act (fun m => match m.long.find? (·.opcode == 0x0803), m.fwUp with
    | some _, some u =>
      if m.twin.loss.isSome then m else
      let r := m.rookReason F.ROOK_SVN_SHEEPDOG v true
      if r ≠ 0 then (m.rookRefuse r).finishLong 0x0803 (answer stVERIFY r)
      else
        let (m, image) := (m.rookAccept F.ROOK_SVN_SHEEPDOG v).uploaded u
        (m.setFwIdle ⟨.trial, (Config.fwVersion image).toNat, v.version.toNat, v.digest.toNat, image⟩).finishLong 0x0803 {}
    | _, _ => m)

end Sys2Proof.Machine
end

