-- ==== Sys2Proof/Machine/MemOps.lean ====
section
/-!
DEFINITION. Sys2Proof/Machine/MemOps.lean: the meanings of the commands of the caches, the range engines, the code stores, the
DRAM, the sweeper and the gates (R231 to R292).
-/
namespace Sys2Proof.Machine

/-! ### Slices -/

/-- SLICE_MISS_FILL (R236, R239): a fault found at the lookup first, then the fill of an absent line. -/
def execSliceMissFill (line : BitVec 30) (fill : LineFill) (fault : Option SliceFault) (s : State) : Host.Outcome State Fault Refusal :=
  s.act (fun m =>
    let m := match fault with
      | some x => m.sliceFault line.toNat x
      | none => m
    m.sliceFill line.toNat fill)

/-- VICTIM_WRITE_ACCEPTED (R236). -/
def execVictimWriteAccepted (sl : SliceId) (s : State) : Host.Outcome State Fault Refusal := s.act (fun m => m.acceptVictims sl)

/-- CONVERSION_DONE (R242). -/
def execConversionDone (g : RegionId) (s : State) : Host.Outcome State Fault Refusal := s.act (fun m => m.conversionDone g)

/-- WAY_POWER_DOWN_DONE (R243). -/
def execWayPowerDownDone (g : RegionId) (s : State) : Host.Outcome State Fault Refusal := s.act (fun m => m.powerDownDone g)

/-! ### Range engines -/

/-- CLEAN (R245). -/
def execClean (w : Writer) (g : RegionId) (s : State) : Host.Outcome State Fault Refusal := s.act (fun m => m.rngStart w g 1 false)

/-- CLEAN_INVAL (R245). -/
def execCleanInval (w : Writer) (g : RegionId) (s : State) : Host.Outcome State Fault Refusal := s.act (fun m => m.rngStart w g 2 false)

/-- INVAL (R245). -/
def execInval (w : Writer) (g : RegionId) (discard : Bool) (s : State) : Host.Outcome State Fault Refusal := s.act (fun m => m.rngStart w g 3 discard)

/-- WARM (R245). -/
def execWarm (w : Writer) (g : RegionId) (s : State) : Host.Outcome State Fault Refusal := s.act (fun m => m.rngStart w g 4 false)

/-- ZERO (R245). -/
def execZero (w : Writer) (g : RegionId) (s : State) : Host.Outcome State Fault Refusal := s.act (fun m => m.rngStart w g 5 false)

/-- RANGE_OP_DONE (R246). -/
def execRangeOpDone (g : RegionId) (s : State) : Host.Outcome State Fault Refusal := s.act (fun m => m.rngDone g)

/-! ### Code stores -/

/-- CS_ERASE (R250). -/
def execCsErase (_w : Writer) (g : RegionId) (s : State) : Host.Outcome State Fault Refusal := s.act (fun m => m.csCmd g 1)

/-- CS_PROGRAM (R250). -/
def execCsProgram (_w : Writer) (g : RegionId) (s : State) : Host.Outcome State Fault Refusal := s.act (fun m => m.csCmd g 2)

/-- CS_COMMAND_DONE (R250, R251). -/
def execCsCommandDone (g : RegionId) (verified : Bool) (s : State) : Host.Outcome State Fault Refusal := s.act (fun m => m.csDone g verified)

/-! ### DRAM -/

/-- REFRESH (R267): it delays accesses of its sub-channel and changes nothing that is held. -/
def execRefresh (_sub : Fin 8) (s : State) : Host.Outcome State Fault Refusal := s.act id

/-- ZQ_CALIBRATION (R267): as REFRESH. -/
def execZqCalibration (_sub : Fin 8) (s : State) : Host.Outcome State Fault Refusal := s.act id

/-- PATROL_SCRUB (R268). -/
def execPatrolScrub (errs : FrameErr) (s : State) : Host.Outcome State Fault Refusal := s.act (fun m => m.patrol errs)

/-- DRAM_TEMPERATURE (R270). -/
def execDramTemperature (t : BitVec 8) (sub dev : BitVec 3) (s : State) : Host.Outcome State Fault Refusal :=
  s.act (fun m => m.dramTemp t.toInt t.toNat sub.toNat dev.toNat)

/-- Slice pairs whose region has power come on once the DRAM rails are up (R463). -/
def Mod.slicesOn (m : Mod) : Mod := m.each (span 32 8) (fun m d => m.iff (m.dramUp && m.domPowered (40 + (d - 32) / 2) && !m.domRetry.contains d)
  (fun m => m.setDom d true))

/-- t1 of R264: the DRAM rails are on. A fault of one leaves them off, as training that failed does (R462). -/
def Mod.dramSupplied (m : Mod) : Mod :=
  if m.phase.spineUp && !m.dramUp && !m.flag F.PWR_THR_STATUS_CRITICAL && !m.domRetry.any (fun d => decide (64 ≤ d)) then ({ (m.setDom 64 true).setDom 65 true with dramUp := true }).slicesOn else m

/-- DRAM_SUPPLIES_UP (R264): t1. -/
def execDramSuppliesUp (s : State) : Host.Outcome State Fault Refusal := s.act Mod.dramSupplied

/-- Whether the DRAM rails and the slice pairs have power: a fault in one of them leaves DRAM unusable (R462). -/
def Mod.dramPower (m : Mod) : Bool := m.dramUp && (span 32 8 ++ [64, 65]).all m.domPowered

/-- DRAM_TRAINING_DONE (R264, R266): t2. -/
def execDramTrainingDone (failed : BitVec 8) (s : State) : Host.Outcome State Fault Refusal :=
  s.act (fun m => if !m.dramPower || m.flag F.MEM_STATUS_TRAINED || m.flag F.MEM_STATUS_TRAIN_FAIL then m else m.trained failed.toNat)

/-- TRAINING_RETRY (R266): twice at most after a failure. -/
def execTrainingRetry (failed : BitVec 8) (s : State) : Host.Outcome State Fault Refusal :=
  s.act (fun m => if !m.dramPower || !m.flag F.MEM_STATUS_TRAIN_FAIL || decide (m.trainTries ≥ 2) then m else { m with trainTries := m.trainTries + 1 }.trained failed.toNat)

/-- Lamb service with DRAM ready is phase 5 of R392. -/
def Mod.bootDram (m : Mod) : Mod :=
  m.iff (m.rd F.ROOK_STATUS_BOOT == 4 && m.flag F.MEM_STATUS_READY) (fun m => m.wr F.ROOK_STATUS_BOOT 0 5)

/-- DRAM_FILL_DONE (R264): t3. -/
def execDramFillDone (s : State) : Host.Outcome State Fault Refusal :=
  s.act (fun m => if m.dramPower && m.flag F.MEM_STATUS_TRAINED && !m.flag F.MEM_STATUS_READY then m.dramFilled.bootDram else m)

/-! ### The sweeper -/

/-- SWEEP_START (R271). -/
def execSweepStart (w : Writer) (hold : Bool) (keep : BitVec 6) (rate : BitVec 2) (s : State) : Host.Outcome State Fault Refusal :=
  s.act (fun m => m.sweepStart w hold keep.toNat rate.toNat)

/-- SWEEP_PASS_DONE (R271 to R273). -/
def execSweepPassDone (pass : PassEnd) (s : State) : Host.Outcome State Fault Refusal := s.act (fun m => m.sweepPass pass)

/-- SWEEP_RELEASE (R273). -/
def execSweepRelease (_w : Writer) (s : State) : Host.Outcome State Fault Refusal := s.act Mod.sweepRelease

/-! ### Gates -/

/-- GATE_ENT_PENDING_WRITE (R283). -/
def execGateEntPendingWrite (w : Writer) (gate : GateId) (e : Fin 256) (which : EntryReg) (v : BitVec 64) (s : State) :
    Host.Outcome State Fault Refusal :=
  s.act (fun m => m.entWrite w gate e which v.toNat)

/-- GATE_ENT_APPLY (R283, R285, R286). -/
def execGateEntApply (w : Writer) (gate : GateId) (e : Fin 256) (ctrl : BitVec 32) (s : State) : Host.Outcome State Fault Refusal :=
  s.act (fun m => m.entApply w gate e ctrl.toNat)

/-- EPOCH_ADVANCE (R161, R287). -/
def execEpochAdvance (_w : Writer) (gate : GateId) (e : Fin 256) (s : State) : Host.Outcome State Fault Refusal := s.act (fun m => m.epochAdvance gate e)

/-- GATE_VQ_POP (R292). -/
def execGateVqPop (_w : Writer) (s : State) : Host.Outcome State Fault Refusal := s.act Mod.vqPop

end Sys2Proof.Machine
end

