-- ==== Sys2Proof/Machine/TwinOps.lean ====
section
/-!
DEFINITION. Sys2Proof/Machine/TwinOps.lean: the twin: presence and feed loss, claims, heartbeats, mirror, synchronisation,
castling, eject and removal (R417 to R437).
-/
namespace Sys2Proof.Machine

/-! ### Readiness -/

/-- READY as TWIN_STATUS shows it; a change raises EV244. -/
def Mod.twinReady (m : Mod) (v : Bool) : Mod :=
  if m.flag F.TWIN_STATUS_READY = v then m
  else ({ m.put F.TWIN_STATUS_READY 0 v with twin := { m.twin with wasReady := none } }).raise 244

/-- The twin's other module as a node (R425). -/
def Mod.peerNode (m : Mod) : Nat := m.node ^^^ 1

/-! ### Heartbeats (R423, R428) -/

/-- Whether a module of a twin pair sends heartbeats: from t6 on, while its Sheepdog runs and it is not in removal. -/
def Mod.beats (m : Mod) : Bool :=
  m.flag F.CAR_STATUS_TWIN && (m.rd F.TWIN_STATUS_ROLE == 1 || m.isStandby) && decide (4 ≤ m.rd F.ROOK_STATUS_BOOT) && m.rd F.MBX_STATE_STATE != 4

/-- The heartbeat a module would send now. -/
def Mod.heartbeatOf (m : Mod) : Heartbeat :=
  { seq := BitVec.ofNat 32 (m.twin.hbSeq + 1), role := BitVec.ofNat 8 (m.rd F.TWIN_STATUS_ROLE), ready := m.isStandby && m.flag F.TWIN_STATUS_READY,
    release := m.twin.release, castle := m.twin.propose.isSome, ack := m.twin.ackNext, fault := m.twin.faultNext,
    move := BitVec.ofNat 32 m.moveNow, pass := BitVec.ofNat 32 (m.rd F.TWIN_MIR_PASS_PASS),
    h := BitVec.ofNat 64 (m.twin.propose.getD (m.twin.agreed.getD 0)), now := BitVec.ofNat 64 m.now }

/-- A heartbeat sent: it goes out over the twin link while that is up, and retriggers a primary's claim. A standby's own
request has then reached the primary. -/
def Mod.hbSend (m : Mod) : Mod :=
  if !m.beats then m
  else
    let m := m.iff (m.flag F.TWIN_STATUS_LINK_UP) (fun m =>
      let m := m.toTwin (.heartbeat m.heartbeatOf)
      let gone := m.isStandby && m.twin.propose.isSome
      { m with twin := { m.twin with ackNext := false, faultNext := false, propose := if gone then none else m.twin.propose,
                                     asked := if gone then m.twin.propose.map (fun h => (0, h)) else m.twin.asked } })
    let m := { m with twin := { m.twin with hbSeq := m.twin.hbSeq + 1, hbLast := some m.mono } }
    m.iff (m.rd F.TWIN_STATUS_ROLE == 1) (fun m => m.put F.TWIN_STATUS_CLAIM 0 true)

/-- HEARTBEAT_SEND (R423, R428): 10 µs after the last. -/
def execHeartbeatSend (s : State) : Host.Outcome State Fault Refusal :=
  s.act (fun m => match m.twin.hbLast with
    | some t => (m.toMono (t + 10000)).hbSend
    | none => m.hbSend)

/-- TWIN_CLAIM_TIMEOUT (R423): 30 µs without a heartbeat sent. -/
def execTwinClaimTimeout (s : State) : Host.Outcome State Fault Refusal :=
  s.act (fun m => match m.twin.hbLast with
    | some t => if m.flag F.TWIN_STATUS_CLAIM then (m.toMono (t + 30000)).driveChange Mod.unclaim else m
    | none => m)

/-- A standby's request to castle at an instant comes to nothing at the primary. No heartbeat carries the REASON: it is that of R433's table
which the standby finds itself, and a commit pending at the primary, the one it cannot see, where it finds none (DEDUCED, log entry 70). -/
def Mod.castleDenied (m : Mod) (at_ : Nat) : Mod :=
  match ({ m with twin := { m.twin with asked := none } }).castleBar at_ with
  | 0 => m.proposalLost 3
  | r => m.proposalLost r

/-- Whether a standby was ready up to a claim's fall that followed the last heartbeat within 31 µs, so that only the end of the heartbeats has
cleared READY since (R423, R434). -/
def Mod.readyToFall (m : Mod) : Bool :=
  match m.twin.wasReady, m.twin.peerFell with
  | some t, some f => decide (f ≤ t + 31000)
  | _, _ => false

/-- A standby that is ready takes over at the first grid instant 5 µs from now on (R434), `loss` where its peer's claim is gone. -/
def Mod.takeOver (m : Mod) (loss : Bool) : Mod :=
  if m.isStandby && (m.flag F.TWIN_STATUS_READY || (loss && m.readyToFall)) && m.twin.agreed.isNone then
    { m with twin := { m.twin with agreed := some (m.firstGrid (m.now + 5000)), byLoss := loss, asked := none } }
  else m

/-- A heartbeat at a primary: its standby's readiness, request and acknowledgement. A proposal ends unacknowledged where the standby is not
ready or H has come. -/
def Mod.hbAtPrimary (m : Mod) (hb : Heartbeat) : Mod :=
  let m := (m.twinReady hb.ready).iff (hb.ready && m.rd F.TWIN_STATUS_SYNC == 2) (fun m => m.wr F.TWIN_STATUS_SYNC 0 3)
  let m := m.iff hb.castle (fun m => (m.castleRequest hb.h.toNat).1)
  match m.twin.propose with
  | some h =>
    if hb.ack then { m with twin := { m.twin with propose := none, agreed := some h } }
    else m.iff (!hb.ready || decide (h ≤ m.now)) (fun m => m.proposalLost 2)
  | none => m

/-- A heartbeat at a standby: the primary's proposal is acknowledged, while H − 2 µs is still to come, its release taken up. -/
def Mod.hbAtStandby (m : Mod) (hb : Heartbeat) : Mod :=
  let ready := m.flag F.TWIN_STATUS_READY
  let m := m.iff (hb.castle && ready && m.twin.agreed.isNone && decide (m.now + 2000 ≤ hb.h.toNat)) (fun m =>
    { m with twin := { m.twin with agreed := some hb.h.toNat, byLoss := false, ackNext := true, asked := none } })
  let m := m.iff hb.release (fun m => m.takeOver false)
  match m.twin.asked with
  | some (k, h) => if k ≥ 2 then m.castleDenied h else { m with twin := { m.twin with asked := some (k + 1, h) } }
  | none => m

/-- `n` flits of a channel that came over the twin link have left its receive buffer (R308). -/
def Mod.fromTwin (m : Mod) (vc n : Nat) : Mod :=
  match m.twinLink with
  | some l => m.giveCredits l vc n
  | none => m

/-- HEARTBEAT (R428, R433, R434). -/
def execHeartbeat (hb : Heartbeat) (s : State) : Host.Outcome State Fault Refusal :=
  s.act (fun m =>
    if !m.flag F.TWIN_STATUS_LINK_UP then m
    else
      let m := { m.fromTwin 2 1 with twin := { m.twin with hbRecv := some m.mono } }
      if m.rd F.TWIN_STATUS_ROLE = 1 ∧ hb.role = 2 then m.hbAtPrimary hb
      else if m.isStandby ∧ hb.role = 1 then m.hbAtStandby hb
      else m)

/-- HEARTBEAT_LOSS (R427, R428): 31 µs after the last one received. -/
def execHeartbeatLoss (s : State) : Host.Outcome State Fault Refusal :=
  s.act (fun m => match m.twin.hbRecv with
    | none => m
    | some t =>
      let m := m.toMono (t + 31000)
      let m := { m with twin := { m.twin with hbRecv := none, wasReady := if m.isStandby && m.flag F.TWIN_STATUS_READY then some t else m.twin.wasReady } }
      ((((m.put F.TWIN_STATUS_LOSS 0 true).put F.TWIN_STATUS_READY 0 false).count F.TWIN_HB_MISS_COUNT 0 3).raise 244).proposalLost 2)

/-! ### The peer's pins (R424, R434, R437) -/

/-- The module is standby from now on: it is ready again only after a new synchronisation. -/
def Mod.becomeStandby (m : Mod) : Mod :=
  let m := (m.wr F.TWIN_STATUS_ROLE 0 2).wr F.TWIN_STATUS_SYNC 0 0
  { m.put F.TWIN_STATUS_READY 0 false with
    twin := { m.twin with codes := [], clocks := [], forced := [], passSeen := false, fullSeen := false, release := false, wasReady := none } }

/-- A primary gives up drive, claim and role for hand-over instant `h` (R432 t2). -/
def Mod.giveUp (m : Mod) (h : Nat) : Mod :=
  let m := m.driveChange (fun m => m.unclaim.becomeStandby)
  { m with twin := { m.twin with agreed := some h, byLoss := false, claimed := true, handed := true, propose := none } }

/-- Whether a primary has let its peer take over with no agreement (R434): it has sent RELEASE, or its claim has fallen for want of
heartbeats. -/
def Mod.letGo (m : Mod) : Bool :=
  m.flag F.CAR_STATUS_TWIN && m.rd F.TWIN_STATUS_ROLE == 1 && m.twin.agreed.isNone &&
  (m.twin.release || (!m.flag F.TWIN_STATUS_CLAIM && m.twin.hbLast.isSome))

/-- TWIN_PEER_CLAIM changes. A claim that returns keeps a standby that would take over for want of it, and has not claimed, standby; the claim of
a standby that takes over from this primary comes at H - 2 µs (R432 t1), H being then the first grid instant from 2 µs after it. -/
def Mod.peerClaim (m : Mod) (asserted : Bool) : Mod :=
  let drop := asserted && m.isStandby && m.twin.byLoss && !m.twin.claimed
  let m := { m with twin := { m.twin with peerFell := if asserted then none else some m.mono, agreed := if drop then none else m.twin.agreed,
                                          byLoss := m.twin.byLoss && !drop },
                    phase := { m.phase with claimWait := m.phase.claimWait && !asserted } }
  let m := m.driveChange (fun m => m.put F.TWIN_STATUS_PEER_CLAIM 0 asserted)
  m.iff (asserted && m.letGo) (fun m => m.giveUp (m.firstGrid (m.now + 2000)))

/-- PEER_CLAIM_CHANGE (R424, R434). -/
def execPeerClaimChange (asserted : Bool) (s : State) : Host.Outcome State Fault Refusal :=
  s.act (fun m => if m.flag F.TWIN_STATUS_PEER_CLAIM = asserted then m else m.peerClaim asserted)

/-- TWIN_PEER_CLAIM has been deasserted for 2 µs, `t` being when it fell. -/
def Mod.claimGone (m : Mod) (t : Nat) : Mod :=
  let m := (m.toMono (t + 2000)).takeOver true
  { m with twin := { m.twin with peerFell := none } }

/-- PEER_CLAIM_LOST_TAKEOVER (R434). -/
def execPeerClaimLostTakeover (s : State) : Host.Outcome State Fault Refusal :=
  s.act (fun m => match m.twin.peerFell with
    | some t => if m.flag F.TWIN_STATUS_PEER_CLAIM then m else m.claimGone t
    | none => m)

/-- PEER_PRESENCE_CHANGE (R433, R437). -/
def execPeerPresenceChange (present : Bool) (s : State) : Host.Outcome State Fault Refusal :=
  s.act (fun m => (m.put F.TWIN_STATUS_PEER_PRES 0 present).iff (!present) (fun m => m.proposalLost 1))

/-! ### Mirroring (R429, R430) -/

/-- A mirrored network check result taken by the standby (R30). -/
def Mod.mirrorCheck (m : Mod) (p ohms : Nat) (pass : Bool) : Mod :=
  let m := (m.wr F.PORT_NETCHK_OHMS p ohms).put F.PORT_NETCHK_PASS p pass
  let m := (m.setPort p { m.port p with failed := !pass, passOhms := if pass then ohms else (m.port p).passOhms }).portReeval p
  m.iff (m.claimed (Nat.max p (pairOf p))) (fun m => m.portReeval (pairOf p))

/-- A mirrored window line, written as master 56 with the primary as source and every tag cleared. -/
def Mod.mirrorLine (m : Mod) (a : Nat) (data : List Byte) : Mod :=
  match m.passGate ⟨56, false, 0, m.peerNode, a, 64, .store⟩ with
  | (m, some _) => { m with twin := { m.twin with passGood := false } }
  | (m, none) => m.storeAs 56 a data []

/-- What a MIRROR flit does at the standby. -/
def Mod.mirrored (m : Mod) (x : MirrorMsg) : Mod :=
  match x with
  | .codes l =>
    { m with twin := { m.twin with codes := l.foldl (fun t e => Tbl.put t e.1.val (e.2.1.toNat, e.2.2.toNat)) m.twin.codes } }
  | .clock n fallen holding safe b mask =>
    { m with twin := { m.twin with clocks := Tbl.put m.twin.clocks n.val (fallen, holding, safe, b.val, mask.toNat) } }
  | .check p pass ohms => m.mirrorCheck p ohms.toNat pass
  | .line a data => m.mirrorLine a.toNat (leBytes 64 data.toNat)
  | .passEnd n =>
    let good := m.twin.passGood
    let m := { m with twin := { m.twin with passGood := true, passSeen := m.twin.passSeen || good } }
    m.iff good (fun m => m.wr F.TWIN_MIR_PASS_PASS 0 n.toNat)
  | .full => { m with twin := { m.twin with fullSeen := true } }

/-- MIRROR (R429, R430). -/
def execMirror (x : MirrorMsg) (s : State) : Host.Outcome State Fault Refusal :=
  s.act (fun m => m.iff (m.flag F.TWIN_STATUS_LINK_UP) (fun m =>
    (m.fromTwin 3 (match x with
      | .line _ _ => 2
      | _ => 1)).iff m.isStandby (fun m => m.mirrored x)))

/-- The lines of the windows in order, 4 MiB of them at most. -/
def Mod.mirrorLines (m : Mod) : List Nat :=
  ((upTo 8).flatMap (fun n => (upTo (m.rd F.TWIN_MIR_LEN_LEN n)).map (fun i => 64 * (m.rd F.TWIN_MIR_BASE_BASE n + i)))).take 65536

/-- The read of a line of a pass, made as a snapshot's copy is (R430, R319): as master 56 with this module's node. -/
def Mod.mirrorRead (m : Mod) (a : Nat) : Acc := ⟨56, false, 0, m.node, a, 64, .load⟩

/-- Whether the line's gate admits that read. -/
def Mod.mirrorAdmits (m : Mod) (a : Nat) : Bool := (m.gateTest (m.mirrorRead a)).isNone

/-- One line of a pass read and sent. -/
def Mod.mirrorSend (m : Mod) (a : Nat) : Mod :=
  let (m, g) := m.loadAs 56 a 64
  m.mirror (.line (BitVec.ofNat 52 a) (BitVec.ofNat 512 (ofLeBytes g.data)))

/-- The first instant of a slot from now on by its settings in effect, none for a slot without instants. -/
def Mod.slotComing (m : Mod) (sl : Nat) : Option Nat := nextInstant (m.rd F.SCH_PERIOD_PERIOD sl) m.now (m.slot sl).changes

/-- A pass of the windows begins at the next instant of MSLOT unless the previous one still runs. A line its gate refuses ends the pass,
unfinished, with the report (R288). -/
def Mod.passBegin (m : Mod) : Mod :=
  let total := ((upTo 8).map (fun n => m.rd F.TWIN_MIR_LEN_LEN n)).sum
  match m.slotComing (m.rd F.TWIN_CTRL_MSLOT) with
  | none => m
  | some t =>
  if m.rd F.TWIN_STATUS_ROLE ≠ 1 ∨ !m.flag F.TWIN_CTRL_MIR_EN ∨ !m.flag F.TWIN_STATUS_LINK_UP ∨ m.twin.pass.isSome then m
  else
    let m := m.toNow t
    let lines := m.mirrorLines
    let sent := lines.takeWhile m.mirrorAdmits
    let m := m.put F.TWIN_STATUS_MIR_TRUNC 0 (decide (total > 65536))
    let m := { m with twin := { m.twin with pass := some ((m.rd F.TWIN_MIR_PASS_PASS + 1) % 2 ^ 32) } }
    let m := m.each sent Mod.mirrorSend
    match lines.drop sent.length with
    | [] => m
    | a :: _ =>
      let m := (m.passGate (m.mirrorRead a)).1
      { m with twin := { m.twin with pass := none } }

/-- MIRROR_PASS (R430). -/
def execMirrorPass (s : State) : Host.Outcome State Fault Refusal := s.act Mod.passBegin

/-- MIRROR_PASS_END (R430). -/
def execMirrorPassEnd (s : State) : Host.Outcome State Fault Refusal :=
  s.act (fun m => match m.twin.pass with
    | some n =>
      let m := { m with twin := { m.twin with pass := none } }
      (m.wr F.TWIN_MIR_PASS_PASS 0 n).mirror (.passEnd (BitVec.ofNat 32 n))
    | none => m)

/-! ### Synchronisation (R427) -/

/-- The full mirror of the port state. -/
def Mod.fullMirror (m : Mod) : Mod :=
  let m := (m.mirrorCodes (upTo 1024)).each (Tbl.keys m.clks) Mod.clkMirror
  let m := m.each (upTo 1024) (fun m p => m.iff (m.reg .PORT_NETCHK p != 0) (fun m =>
    m.mirror (.check (Fin.ofNat 1024 p) (m.flag F.PORT_NETCHK_PASS p) (BitVec.ofNat 24 (m.rd F.PORT_NETCHK_OHMS p)))))
  m.mirror .full

/-- Synchronisation starts: the primary sends its scoresheet, settled image and full mirror; with no move settled (R393) no image and slot 8
(DESIGN CHOICE, log entry 69). -/
def Mod.syncStart (m : Mod) : Mod :=
  if !m.phase.full || !m.flag F.TWIN_STATUS_LINK_UP || m.rd F.TWIN_STATUS_SYNC != 0 then m
  else if m.isStandby then
    ({ m with twin := { m.twin with passSeen := false, fullSeen := false } }).wr F.TWIN_STATUS_SYNC 0 1
  else if m.rd F.TWIN_STATUS_ROLE ≠ 1 ∨ m.cfg.probation.isSome ∨ m.committing then m
  else
    let slot := (m.slotIn 3).getD 8
    let m := m.emit (.federate (some m.peerNode) (.sync (m.cfg.scores.flatMap Score.bytes) slot (m.image slot)))
    m.fullMirror.wr F.TWIN_STATUS_SYNC 0 2

/-- TWIN_SYNC_START (R427). -/
def execTwinSyncStart (s : State) : Host.Outcome State Fault Refusal := s.act Mod.syncStart

/-- The event a scoresheet code stands for. -/
def scoreWhat (n : Nat) : ScoreWhat :=
  match n with
  | 0 => .staging
  | 1 => .commit
  | 2 => .probationEnd
  | 3 => .takeback
  | _ => .discard

/-- Scoresheet entries from their bytes. -/
def scoresOf (b : List Byte) : List Score :=
  ((upTo (b.length / 32)).map (fun i => ⟨imgN b (32 * i) 4, scoreWhat (imgN b (32 * i + 4) 1), imgN b (32 * i + 8) 8, imgN b (32 * i + 5) 1, imgN b (32 * i + 6) 1⟩)).take 256

/-- The primary's scoresheet and settled image at the standby, once the Rook has verified it: every slot erased, the image in
the primary's slot, its commit at the next multiple of 100 µs. Reserved encodings in it are reported as at a staging (R7). With no image there
is nothing to verify or store, and the commit is one to the reset values (log entry 69). -/
def Mod.syncCommit (m : Mod) (scores im : List Byte) (slot : Nat) (v : Verdict) : Mod :=
  if !m.isStandby || m.rd F.TWIN_STATUS_SYNC != 1 || !m.flag F.TWIN_STATUS_LINK_UP || m.twin.loss.isSome then m
  else match (if im.isEmpty then (m, 0) else m.rookConfig im false v) with
  | (m, _ + 1) => m
  | (m, 0) =>
    let m := ((m.probClear.unstage).each (upTo 8) Mod.slotClear).setCommit none
    let m := (m.put F.CFG_STATUS_STAGED 0 false).wr F.CFG_MOVE_STAGED_MOVE 0 0
    let l := scoresOf scores
    let m := { m with cfg := { m.cfg with scores := l, highest := l.foldl (fun (a : Nat) (e : Score) => Nat.max a e.move) (imgMove im), history := [], staging := [], stagingRefused := none, ownStage := false } }
    let m := m.iff (!im.isEmpty) (fun m =>
      (m.slotFill slot (imgMove im) im false (!imgDigestOk im)).each (imgReserved im) (fun m off => m.reservedWrite off 32))
    let slot := if im.isEmpty then 8 else slot
    let c : Commit := { kind := .sync, move := imgMove im, digest := imgDigest im, slot := slot, passed := [], named := 0, origin := true, party := partyAutomatic, waiting := [], members := [], own := none, refusal := none, at_ := some (nextMultiple 100000 m.now), late := false, since := m.mono }
    (m.setCommit (some c)).put F.CFG_STATUS_COMMIT_PENDING 0 true

/-- TWIN_SYNC_COMMIT (R427); CONFIG_COMMIT follows at its instant. -/
def execTwinSyncCommit (scores image : List Byte) (slot : SlotId) (v : Verdict) (s : State) : Host.Outcome State Fault Refusal :=
  s.act (fun m => m.syncCommit scores image slot v)

/-- Whether a standby has all that synchronisation brings. -/
def Mod.syncDone (m : Mod) : Bool :=
  m.isStandby && m.flag F.TWIN_STATUS_LINK_UP && m.flag F.TB_STATUS_LOCKED && m.twin.hbRecv.isSome &&
  (m.rd F.TWIN_STATUS_SYNC == 3 || (m.rd F.TWIN_STATUS_SYNC == 2 && m.twin.fullSeen && (m.twin.passSeen || !m.flag F.TWIN_CTRL_MIR_EN)))

/-- TWIN_READY (R427). -/
def execTwinReady (s : State) : Host.Outcome State Fault Refusal :=
  s.act (fun m => if m.syncDone && !m.flag F.TWIN_STATUS_READY then (m.wr F.TWIN_STATUS_SYNC 0 3).twinReady true else m)

/-! ### Castling (R432 to R434) -/

/-- TWIN_CMD_CASTLE (R433). -/
def execTwinCmdCastle (_w : Writer) (s : State) : Host.Outcome State Fault Refusal := s.act Mod.twinCastle

/-- t1 and t2: at H - 2 µs the standby claims, and the primary gives up drive, claim and role. -/
def Mod.handClaim (m : Mod) : Mod :=
  match m.twin.agreed with
  | none => m
  | some h =>
    if m.twin.claimed then m
    else if m.isStandby then
      let m := (m.toNow (h - 2000)).put F.TWIN_STATUS_CLAIM 0 true
      { m with twin := { m.twin with claimed := true } }
    else if m.rd F.TWIN_STATUS_ROLE = 1 then
      (m.toNow (h - 2000)).giveUp h
    else m

/-- HANDOVER_CLAIM (R432). -/
def execHandoverClaim (s : State) : Host.Outcome State Fault Refusal := s.act Mod.handClaim

/-- A mirrored clock state imposed on the same clock and ports (R429). -/
def Mod.takeClock (m : Mod) (n : Nat) (fallen holding safe : Bool) (b mask : Nat) : Mod :=
  let m := m.iff fallen (fun m => m.put F.CLK_STATUS_FALLEN n true)
  m.iff holding (fun m => m.clkImpose n safe b mask)

/-- A mirrored code applied to an output port, as one committed there; high impedance where the primary had its contacts so. -/
def Mod.takeCode (m : Mod) (p code state : Nat) : Mod :=
  m.iff (isOutMode (m.effMode p)) (fun m =>
    let m := (m.overtake p).drive p code
    if state = 3 then m.hiZ p else m.setPort p { m.port p with committed := true })

/-- A hold (1) or safe (2) of the mirror that no mirrored clock accounts for stays in force at a port, until the region or the device it came
from is released (DESIGN CHOICE, log entry 69). -/
def Mod.takeState (m : Mod) (p state : Nat) : Mod :=
  if (state ≠ 1 ∧ state ≠ 2) || m.clockHeld p || m.clockSafe p then m
  else
    let m := { m with twin := { m.twin with forced := Tbl.put m.twin.forced p state } }
    m.iff (state == 2) (fun m => m.safePorts [p])

/-- What the mirror holds takes effect: codes where TAKE is 0 and no loss response acts on the outputs (R435), clock states, holds and safes. -/
def Mod.takeMirror (m : Mod) : Mod :=
  let m := m.iff (!m.flag F.TWIN_CTRL_TAKE && m.twin.lossAct == 0) (fun m => m.each m.twin.codes (fun m e => m.takeCode e.1 e.2.1 e.2.2))
  let m := m.each m.twin.clocks (fun m e => match e with
    | (n, fallen, holding, safe, b, mask) => m.takeClock n fallen holding safe b mask)
  m.each m.twin.codes (fun m e => m.takeState e.1 e.2.2)

/-- t3: the standby is primary; its ports apply their codes in one clock. -/
def Mod.handOver (m : Mod) (h : Nat) : Mod :=
  let m := ((m.toNow h).wr F.TWIN_STATUS_ROLE 0 1).takeMirror
  let m := (m.wr F.TWIN_STATUS_SYNC 0 0).put F.TWIN_STATUS_READY 0 false
  { m with twin := { m.twin with handed := true, byLoss := false, wasReady := none, codes := [], clocks := [], passGood := true } }

/-- HANDOVER (R432): at H; the CASTLE command that asked for it completes. -/
def execHandover (s : State) : Host.Outcome State Fault Refusal :=
  s.act (fun m => match m.twin.agreed with
    | some h =>
      if !m.twin.claimed then m
      else
        let m := if m.twin.handed then m.toNow h else m.handOver h
        m.finishLong 0x0702 { results := leBytes 8 h }
    | none => m)

/-- t4: TWIN_LAST_H, CASTLED and EV245 on both; an ejected primary enters removal (R436). -/
def Mod.castled (m : Mod) : Mod :=
  match m.twin.agreed with
  | some h =>
    if !m.twin.handed then m
    else
      let m := m.toNow (h + 1000)
      let eject := m.twin.castleOnEject
      let m := { m with twin := { m.twin with agreed := none, claimed := false, handed := false, asked := none, castleOnEject := false } }
      let m := ((m.wr F.TWIN_LAST_H_TIME 0 h).put F.TWIN_STATUS_CASTLED 0 true).raise 245
      m.iff eject Mod.enterRemoval
  | none => m

/-- CASTLING_DONE (R432, R436). -/
def execCastlingDone (s : State) : Host.Outcome State Fault Refusal := s.act Mod.castled

/-! ### Eject and removal (R436) -/

/-- A primary with a ready standby and EJECT_CASTLE asks for a castling on its eject request. -/
def Mod.ejectCastle (m : Mod) : Mod :=
  if m.rd F.TWIN_STATUS_ROLE = 1 ∧ m.flag F.TWIN_STATUS_READY ∧ m.flag F.TWIN_CTRL_EJECT_CASTLE then
    let r := m.castleRequest 0
    { r.1 with twin := { r.1.twin with castleOnEject := r.2 } }
  else m

/-- The eject switch pressed. -/
def Mod.ejectPress (m : Mod) : Mod :=
  let m := ((m.put F.CAR_STATUS_EJECT 0 true).put F.CAR_STATUS_EJECT_REQ 0 true).raise 244
  ({ m with twin := { m.twin with ejectAt := some m.mono } }).ejectCastle

/-- EJECT_PRESS (R436). -/
def execEjectPress (s : State) : Host.Outcome State Fault Refusal := s.act Mod.ejectPress

/-- EJECT_RELEASE (R436). -/
def execEjectRelease (s : State) : Host.Outcome State Fault Refusal :=
  s.act (fun m => { m.put F.CAR_STATUS_EJECT 0 false with twin := { m.twin with ejectAt := none } })

/-- EJECT_HOLD_TIMEOUT (R436): the switch pressed for 5 s. -/
def execEjectHoldTimeout (s : State) : Host.Outcome State Fault Refusal :=
  s.act (fun m => match m.twin.ejectAt with
    | some t =>
      let m := m.toMono (t + 5000000000)
      m.iff (m.flag F.CAR_STATUS_EJECT_REQ) Mod.twinRemove
    | none => m)

/-- REMOVE (R436). -/
def execRemove (_w : Writer) (s : State) : Host.Outcome State Fault Refusal := s.act Mod.twinRemove

/-- CANCEL_EJECT (R436). -/
def execCancelEject (_w : Writer) (s : State) : Host.Outcome State Fault Refusal := s.act Mod.cancelEject

/-! ### Presence and the loss response (R419, R435) -/

/-- PRESENCE_MATE (R419). -/
def execPresenceMate (s : State) : Host.Outcome State Fault Refusal :=
  s.act (fun m => (m.put F.CAR_STATUS_PRES_A 0 true).put F.CAR_STATUS_PRES_B 0 true)

/-- A loss response acts on every output, and on those of later commits (R435): 1 PORT_SAFE, 2 off. -/
def Mod.lossOutputs (m : Mod) (act : Nat) : Mod :=
  let m := { m with twin := { m.twin with lossAct := Nat.max m.twin.lossAct act } }
  if act = 2 then m.each (upTo 1024) (fun m p => (m.overtake p).hiZ p) else m.safePorts (upTo 1024)

/-- t0 to t4: a primary with a ready standby sends RELEASE and drives on until that has claimed; any other module's outputs
take their PORT_SAFE action, or go off where presence is lost, be it in the response to a loss of the feeds. The time keeper is saved from TB_NOW
while the spine runs (R400). -/
def Mod.lossStart (m : Mod) (presence : Bool) : Mod :=
  if !m.phase.powered then m
  else match m.twin.loss with
  | some (before, t) =>
    if before || !presence then m
    else
      let m := { m with twin := { m.twin with loss := some (true, t) } }
      m.iff (!(m.twin.release && m.rd F.TWIN_STATUS_ROLE == 1)) (fun m => m.lossOutputs 2)
  | none =>
    let m := { m with twin := { m.twin with loss := some (presence, m.mono) } }
    let m := if m.rd F.TWIN_STATUS_ROLE = 1 ∧ m.flag F.TWIN_STATUS_READY then ({ m with twin := { m.twin with release := true } }).hbSend
      else m.lossOutputs (if presence then 2 else 1)
    let m := (m.iff m.phase.spineUp (fun m => { m.raise 240 with goose := { m.goose with keeper := m.now } })).gooseLog .loss
    m

/-- PRESENCE_LOSS (R419, R435): PRES_A, or PRES_B, breaks. -/
def execPresenceLoss (b : Bool) (s : State) : Host.Outcome State Fault Refusal :=
  s.act (fun m => (m.put (if b then F.CAR_STATUS_PRES_B else F.CAR_STATUS_PRES_A) 0 false).lossStart true)

/-- FEED_LOSS (R435). -/
def execFeedLoss (s : State) : Host.Outcome State Fault Refusal := s.act (fun m => m.lossStart false)

/-- LOSS_STANDBY_TIMEOUT (R435 t3): 1 ms after the loss. -/
def execLossStandbyTimeout (s : State) : Host.Outcome State Fault Refusal :=
  s.act (fun m => match m.twin.loss with
    | some (_, t) =>
      let m := m.toMono (t + 1000000)
      m.iff (m.rd F.TWIN_STATUS_ROLE == 1 && !m.flag F.TWIN_STATUS_PEER_CLAIM) (fun m => m.lossOutputs 2)
    | none => m)

/-- The sectors on which code store operations run have undefined contents (R251). -/
def Mod.csLost (m : Mod) : Mod :=
  m.each (upTo 4) (fun m g => match Tbl.get none m.csRun g with
    | some (_, row, _) =>
      let (k, m) := m.fresh
      { m.setBytes (codeBase g + 0x10000 * (row / 2048)) ((upTo 0x10000).map (Config.codeStoreByte k)) with csRun := Tbl.set none m.csRun g none }
    | none => m)

/-- The registers that outlast a loss of power: the Rook's identity, owner and minimum versions, what configuration flash
holds, the presence contacts. -/
def keptUnpowered : List Reg := [.ROOK_ID, .ROOK_OWNER, .ROOK_SVN, .CFG_SLOT_STATE, .CFG_SLOT_MOVE, .CFG_MOVE_SETTLED, .CFG_MOVE_STAGED]

/-- The always-on domain without power: the Goose's log, count and sessions are gone (R493); the keeper counts on. -/
def Mod.gooseOff (m : Mod) : Mod :=
  { m with goose := { keeper := m.goose.keeper, invalid := m.goose.invalid } }

/-- The module without power: what flash and the always-on domain's capacitor hold stays; the Goose runs on from a feed that is good (R459). -/
def Mod.powerDown (m : Mod) : Mod :=
  let fed := m.flag F.PWR_FEED_A_OK || m.flag F.PWR_FEED_B_OK
  let n := m.csLost.unclaim.atStart
  let keep := (if fed then [Reg.GOOSE_CTRL, .GOOSE_STATUS, .PWR_FEED, .PWR_TEMP] ++ keptUnpowered else keptUnpowered).map Reg.ctorIdx
  let n := { n with regs := n.regs.filter (fun e => keep.contains (e.1 % 512)), ports := [], dies := [], desc := [], laneMax := [], twin := {},
                    phase := { gooseUp := fed && m.phase.gooseUp }, lock := {}, rook := { m.rook with chal := none, dbgEnd := none } }
  let n := (n.put F.CAR_STATUS_PRES_A 0 (m.flag F.CAR_STATUS_PRES_A)).put F.CAR_STATUS_PRES_B 0 (m.flag F.CAR_STATUS_PRES_B)
  let n := (n.wr F.ROOK_STATUS_LIFECYCLE 0 (lifeCode m.rook.life)).put F.ROOK_STATUS_OWNER 0 m.rook.anchor
  let n := n.put F.GOOSE_STATUS_TIME_INVALID 0 m.goose.invalid
  n.iff (!fed) Mod.gooseOff

/-- HOLDUP_END (R435 t5). -/
def execHoldupEnd (s : State) : Host.Outcome State Fault Refusal :=
  s.act (fun m => m.iff m.twin.loss.isSome (fun m => m.powerDown))

end Sys2Proof.Machine
end

