-- ==== Sys2Proof/Machine/StartOps.lean ====
section
/-!
DEFINITION. Sys2Proof/Machine/StartOps.lean: start-up: power good, the Rook's and the Sheepdog's starts, the carrier descriptor,
lamb service, full service (R392 to R399, R408, R417 to R422, R426, R463).
-/
namespace Sys2Proof.Machine

/-! ### Supplies, Goose and spine (R392, R400, R417, R459, R463) -/

/-- POWER_GOOD (R392, R417): t0. -/
def execPowerGood (s : State) : Host.Outcome State Fault Refusal :=
  s.act (fun m =>
    if m.phase.precharged && !m.phase.powered && (m.flag F.PWR_FEED_A_OK || m.flag F.PWR_FEED_B_OK) then
      { m.wr F.ROOK_STATUS_BOOT 0 0 with phase := { m.phase with powered := true } }
    else m)

/-- PRECHARGE_DONE (R417): both presence contacts mated. -/
def execPrechargeDone (s : State) : Host.Outcome State Fault Refusal :=
  s.act (fun m => m.iff (m.flag F.CAR_STATUS_PRES_A && m.flag F.CAR_STATUS_PRES_B) (fun m => { m with phase := { m.phase with precharged := true } }))

/-- HOLDUP_CHARGED (R417): 20 ms of energy at 190 W. -/
def execHoldupCharged (s : State) : Host.Outcome State Fault Refusal :=
  s.act (fun m => m.iff m.phase.powered (fun m => (m.put F.CAR_STATUS_HOLDUP_OK 0 true).wr F.PWR_HOLDUP_ENERGY 0 380))

/-- GOOSE_RUNNING (R392): t1; a Goose that a feed has kept running takes part at once (R459). -/
def execGooseRunning (s : State) : Host.Outcome State Fault Refusal :=
  s.act (fun m => if m.phase.powered && (!m.phase.gooseUp || m.rd F.ROOK_STATUS_BOOT == 0) then { m.wr F.ROOK_STATUS_BOOT 0 1 with phase := { m.phase with gooseUp := true } } else m)

/-- TB_MONO counts from 0 again (R105): what is timed by it counts from here. -/
def Mod.monoZero (m : Mod) : Mod :=
  { m with mono := 0, lock := { m.lock with leaseEnd := m.lock.leaseEnd.map (fun t => t - m.mono) },
           twin := { m.twin with ejectAt := m.twin.ejectAt.map (fun _ => 0), loss := m.twin.loss.map (fun x => (x.1, 0)) } }

/-- The spine comes up, but not after the Rook's chain has failed (R408, R410): TB_NOW is loaded from the time keeper, 0 from one that has lost its count. -/
def Mod.spineOn (m : Mod) : Mod :=
  if !m.phase.gooseUp || m.phase.spineUp || m.phase.held || m.rd F.ROOK_STATUS_BOOT == 7 then m
  else
    let t := if m.goose.invalid then 0 else m.goose.keeper
    { m.monoZero with now := t, skips := [(0, t)], phase := { m.phase with spineUp := true } }

/-- SPINE_POWER_ON (R400, R459, R463). -/
def execSpinePowerOn (s : State) : Host.Outcome State Fault Refusal := s.act Mod.spineOn

/-! ### Verification of firmware (R367, R408, R409) -/

/-- A copy of the Rook firmware checked by the boot ROM, and started if it verifies. -/
def Mod.rookTry (m : Mod) (copy : Bool) (v : Verdict) : Mod × Bool :=
  match m.rookReason F.ROOK_SVN_ROOK v true with
  | 0 =>
    let m := (m.rookAccept F.ROOK_SVN_ROOK v).put F.ROOK_STATUS_RK_COPY 0 copy
    ({ m with rook := { m.rook with rookDigest := v.digest.toNat, rookSvn := v.version.toNat } }.wr F.ROOK_STATUS_BOOT 0 2, true)
  | r => (m.rookRefuse r, false)

/-- Neither copy verifies: BOOT 7, the spine stays in reset. -/
def Mod.rookFails (m : Mod) : Mod := { m.freeLock.wr F.ROOK_STATUS_BOOT 0 7 with phase := { m.phase with spineUp := false } }

/-- The first copy that verifies starts; a decommissioned module runs no image. -/
def Mod.rookStart (m : Mod) (v0 v1 : Verdict) : Mod :=
  if !m.phase.spineUp || m.rd F.ROOK_STATUS_BOOT != 1 then m
  else if m.rook.life = .decommissioned then m.rookFails
  else match m.rookTry false v0 with
    | (m, true) => m
    | (m, false) => match m.rookTry true v1 with
      | (m, true) => m
      | (m, false) => m.rookFails

/-- ROOK_FIRMWARE_VERIFIED (R408): t3. -/
def execRookFirmwareVerified (v0 v1 : Verdict) (s : State) : Host.Outcome State Fault Refusal := s.act (fun m => m.rookStart v0 v1)

/-- A Sheepdog slot checked; a refused one becomes INVALID. -/
def Mod.sdTry (m : Mod) (b : Bool) (v : Verdict) : Mod × Bool :=
  let m := { m with runB := b }
  let x := m.fwRuns
  if x.st = .empty ∨ x.st = .invalid then (m, false)
  else match m.rookReason F.ROOK_SVN_SHEEPDOG v true with
    | 0 => ((m.rookAccept F.ROOK_SVN_SHEEPDOG v).setFwRuns { x with svn := v.version.toNat, digest := v.digest.toNat }, true)
    | r => ((m.setFwRuns { x with st := .invalid }).rookRefuse r, false)

/-- An entry of gate 14 set, applied and locked by the Sheepdog. -/
def Mod.mbxEntry (m : Mod) (e base len masters rights : Nat) : Mod :=
  let w : Writer := { master := 32, sys := false }
  let a := mailboxBase + base
  (((m.entWrite w 14 e .base a).entWrite w 14 e .top (a + len)).entWrite w 14 e .masters masters).entApply w 14 e (1 + rights + 2 * 256)

/-- Gate 14 as the Sheepdog sets it up (R353): entries of CLASS 2 for the host's ranges and the firmware exchange range. -/
def Mod.mailboxGate (m : Mod) : Mod :=
  let host := 2 ^ 54 + 2 ^ 32
  let m := m.mbxEntry 0 0 0x1000 host 2
  let m := m.each (upTo 4) (fun m q => (m.mbxEntry (1 + 2 * q) (0x10000 + 0x8000 * q) 0x4000 host 6).mbxEntry (2 + 2 * q) (0x14000 + 0x8000 * q) 0x4000 host 2)
  (m.mbxEntry 9 0x40000 0x80000 host 6).mbxEntry 10 0xC0000 0x20000 (2 ^ 33 - 1) 6

/-- The Sheepdog runs from its slot: MBX_STATE 1. -/
def Mod.sdRuns (m : Mod) : Mod :=
  let trial := m.fwRuns.st == .trial
  let m := { m with trialWait := trial, phase := { m.phase with sheepdogUp := true }, goose := { m.goose with restarted := false } }
  let m := m.put F.ROOK_STATUS_SD_SLOT 0 m.runB
  ((m.wr F.ROOK_STATUS_BOOT 0 3).mbxShow 1 trial).mailboxGate.infoPage

/-- The Sheepdog's slots in order: a TRIAL one first, else the one that ran; the other if it is refused. -/
def Mod.sdStart (m : Mod) (va vb : Verdict) : Mod :=
  if m.rd F.ROOK_STATUS_BOOT ≠ 2 then m
  else
    let first := if m.fwIdle.st = .trial then !m.runB else m.runB
    let v := fun (b : Bool) => if b then vb else va
    match m.sdTry first (v first) with
    | (m, true) => m.sdRuns
    | (m, false) => match m.sdTry (!first) (v (!first)) with
      | (m, true) => m.sdRuns
      | (m, false) => (m.wr F.ROOK_STATUS_BOOT 0 7).setMbxState 4 |>.freeLock

/-- SHEEPDOG_START (R367, R392, R393): t4. -/
def execSheepdogStart (va vb : Verdict) (s : State) : Host.Outcome State Fault Refusal := s.act (fun m => m.sdStart va vb)

/-! ### The carrier descriptor (R420 to R422) -/

/-- The first failing check of a read, 0 for none. -/
def descErr (r : DescRead) : Nat :=
  let b := padTo 0x600 r.bytes
  if !r.answered then 1
  else if imgN b 0 4 ≠ 0x44435642 then 2
  else if imgN b 4 2 ≠ 2 then 3
  else if imgN b 6 2 ≠ 0x600 then 4
  else if imgN b 0x5FC 4 ≠ crc32 (b.take 0x5FC) then 5
  else if imgN b 8 1 ≠ 1 ∧ imgN b 8 1 ≠ 2 then 6
  else if imgN b 0xC 4 ≠ 0x1024 then 7
  else if (imgN b 8 1 == 2) != r.strap.isSome then 8
  else 0

/-- The read that decides: the first that passes, else the last of three. -/
def descRead (l : List DescRead) : DescRead :=
  let l := l.take 3
  (l.find? (fun r => descErr r == 0)).getD (l.getLast?.getD ⟨false, [], none⟩)

/-- The class of a port in a descriptor. -/
def descClass (b : List Byte) (p : Nat) : Nat := bitsOf (imgN b (0x40 + p / 2) 1) (4 * (p % 2)) 4

/-- An accepted descriptor's declarations. -/
def Mod.descTake (m : Mod) (b : List Byte) (strap : Option Bool) : Mod :=
  let m := m.each (upTo 1024) (fun m p => m.wr (F.PBLK_CLASS_CLASS (p % 8)) (p / 8) (descClass b p))
  let m := m.iff ((upTo 1024).any (fun p => decide (8 < descClass b p))) (fun m => m.put F.CAR_STATUS_CLASS_RSV 0 true)
  let m := { m with laneMax := (upTo 8).map (fun n => imgN b (0x20 + n) 1) }
  ((m.put F.CAR_STATUS_DESC_OK 0 true).put F.CAR_STATUS_TWIN 0 (imgN b 8 1 == 2)).put F.CAR_STATUS_POSITION 0 (strap == some true)

/-- The reads of a power good: accepted, or DESC_ERR and EV244; TWIN_POS is read with them (R482). A start without a new power good does not read again. -/
def Mod.descStep (m : Mod) (l : List DescRead) : Mod :=
  if m.flag F.CAR_STATUS_DESC_OK || m.rd F.CAR_STATUS_DESC_ERR != 0 then m
  else
    let r := descRead l
    let b := if r.answered then padTo 0x600 r.bytes else []
    let m := { m with desc := b }
    if descErr r = 0 then m.descTake b r.strap
    else ((m.put F.CAR_STATUS_POSITION 0 (r.strap == some true)).wr F.CAR_STATUS_DESC_ERR 0 (descErr r)).raise 244

/-! ### The move the module starts with (R393, R396, R408, R409) -/

/-- The Rook's check of the move in a slot at t5. -/
def Mod.slotVerify (m : Mod) (l : List (SlotId × Verdict)) (slot : Nat) : Mod × Bool :=
  let v := ((l.find? (fun e => e.1.val == slot)).map Prod.snd).getD ⟨false, 0, 0⟩
  match m.rookConfig (m.image slot) (!m.flag F.CFG_SLOT_STATE_CONVERTED slot) v with
  | (m, 0) => (m, true)
  | (m, _ + 1) => (m.wr F.CFG_SLOT_STATE_STATE slot 7, false)

/-- The first of a list of slots that verifies, with the slots after it; those before it become invalid. -/
def Mod.firstGood (m : Mod) (l : List (SlotId × Verdict)) : List Nat → Mod × Option (Nat × List Nat)
  | [] => (m, none)
  | n :: rest => match m.slotVerify l n with
    | (m, true) => (m, some (n, rest))
    | (m, false) => m.firstGood l rest

/-- No move is settled until a history move settles at C_f. -/
def Mod.unsettle (m : Mod) : Mod := (m.put F.CFG_STATUS_SETTLED 0 false).wr F.CFG_MOVE_SETTLED_MOVE 0 0

/-- The settled move, or the newest history move that verifies where it does not. -/
def Mod.pickMove (m : Mod) (l : List (SlotId × Verdict)) : Mod :=
  match m.slotIn 3 with
  | none => m
  | some n => match m.slotVerify l n with
    | (m, true) => { m.put F.ROOK_STATUS_CFG_OK 0 true with phase := { m.phase with slot := some n, back := false } }
    | (m, false) => match m.unsettle.firstGood l m.cfg.history with
      | (m, some (k, rest)) => { m with phase := { m.phase with slot := some k, back := true }, cfg := { m.cfg with history := rest } }
      | (m, none) => { m with cfg := { m.cfg with history := [] } }

/-- The staging view of the move the module starts with; of reset values without one. -/
def Mod.startView (m : Mod) : Mod :=
  match m.phase.slot with
  | some n => m.stageValues (m.image n)
  | none => { m.unstage with stageImage := true }

/-- Calibration sections into bank 0, the GATE sections of gates 9 to 12 applied. -/
def Mod.startSections (m : Mod) : Mod :=
  match m.phase.slot with
  | some n =>
    let im := m.image n
    let m := m.each (imgCal im) (fun m c => m.setBytes (signalBase c.1 + 0x1C0000) c.2)
    m.applyGates ((imgGates im).filter (fun e => decide (9 ≤ e.gate) && decide (e.gate ≤ 12)))
  | none => m

/-- Region commons and the port dies that `en` enables have power; the dies hear the main die. -/
def Mod.startDomains (m : Mod) (en : Nat) : Mod :=
  if m.flag F.PWR_THR_STATUS_CRITICAL then m
  else
    let m := (m.each (span 40 4) (fun m d => m.setDom d true)).slicesOn
    m.each (upTo 8) (fun m d =>
      if bitAt en d then (m.setDom (56 + d) true).dieHears d
      else (m.setDie d { m.die d with isolated := true, hears := false, lostAt := some m.now }).linkShow d false)

/-- The role a module takes at t5 (R426), and whether it waits for a claim (case 4). -/
def Mod.roleAt (m : Mod) : Nat × Bool :=
  if m.twin.removed then (3, false)
  else if !m.flag F.CAR_STATUS_TWIN then (0, false)
  else if !m.flag F.TWIN_STATUS_PEER_PRES then (1, false)
  else if m.flag F.TWIN_STATUS_PEER_CLAIM then (2, false)
  else if !m.flag F.CAR_STATUS_POSITION then (1, false)
  else (2, true)

/-- t5. -/
def Mod.startT5 (m : Mod) (reads : List DescRead) (verdicts : List (SlotId × Verdict)) : Mod :=
  if m.rd F.ROOK_STATUS_BOOT ≠ 3 ∨ m.phase.t5done then m
  else
    let m := ((m.descStep reads).pickMove verdicts).startSections
    let v := m.startView
    let m := { m with federated := v.staged' F.CFG_DEVICE_HIERARCHY_MODE == 1 }
    let m := m.startDomains (v.staged' F.PWR_DOM_EN1_PDIE)
    let (r, w) := m.roleAt
    let m := { m.wr F.TWIN_STATUS_ROLE 0 r with phase := { m.phase with t5 := m.mono, t5done := true, claimWait := w } }
    m.iff (m.flag F.CAR_STATUS_DESC_OK) Mod.checkAll

/-- CARRIER_DESCRIPTOR_READ (R392 t5, R393, R396, R420 to R422, R426, R463). -/
def execCarrierDescriptorRead (reads : List DescRead) (verdicts : List (SlotId × Verdict)) (s : State) : Host.Outcome State Fault Refusal :=
  s.act (fun m => m.startT5 reads verdicts)

/-- POSITION_1_CLAIM_TIMEOUT (R426): 250 ms after t5. -/
def execPosition1ClaimTimeout (s : State) : Host.Outcome State Fault Refusal :=
  s.act (fun m =>
    if m.phase.claimWait then
      { (m.toMono (m.phase.t5 + 250000000)).wr F.TWIN_STATUS_ROLE 0 1 with phase := { (m.toMono (m.phase.t5 + 250000000)).phase with claimWait := false } }
    else m)

/-! ### Lamb service (R397) -/

/-- Whether a register belongs to the ports and pipelines. -/
def lambReg (r : Reg) : Bool := decide (0x800000 ≤ r.place.off) && decide (r.place.off < 0xC00000)

/-- The modes of lamb service: 3 as 2, 1 off; no block commits; the calibration bank is the one loaded at t5, bank 0. -/
def lambTrim (r : Reg) (v : Nat) : Nat :=
  let trim := fun (f : Fld) (x : Nat) => withBits v f.lo f.width x
  match r with
  | .PORT_MODE => match bitsOf v F.PORT_MODE_MODE.lo F.PORT_MODE_MODE.width with
    | 3 => trim F.PORT_MODE_MODE 2
    | 1 => trim F.PORT_MODE_MODE 0
    | _ => v
  | .SPL_BLK_CTRL => trim F.SPL_BLK_CTRL_COMMIT_EN 0
  | .SPL_RGN_CAL => trim F.SPL_RGN_CAL_BANK 0
  | _ => v

/-- The settled values that lamb service applies: ports, pipelines, a 1PPS time source. -/
def Mod.lambValues (m : Mod) : Mod :=
  let v := m.startView
  let m := m.each (Tbl.keys v.staged) (fun m k =>
    let r := regNo (k % 512)
    m.iff (lambReg r) (fun m => m.setSt k (lambTrim r (v.stagedReg r (k / 512)))))
  let src := v.staged' F.TB_CTRL_SRC
  m.iff (src == 3 || src == 4) (fun m => (m.setReg .TB_CTRL 0 (v.stagedReg .TB_CTRL 0)).setReg .TB_PPS_DELAY 0 (v.stagedReg .TB_PPS_DELAY 0))

/-- t6: a configuration commit for the settings of lamb service. -/
def Mod.lambService (m : Mod) : Mod :=
  if m.rd F.ROOK_STATUS_BOOT ≠ 3 ∨ !m.phase.t5done then m
  else
    let old := m
    let m := { m with resetCommits := m.resetCommits ++ (upTo 4).filter (fun g => m.rgnDown g && !m.resetCommits.contains g) }
    let ports := (upTo 1024).map (fun p => (p, old.modeAsked p, old.rd F.PORT_MODE_RANGE p))
    let m := ((m.lambValues.portsCommit ports).each (upTo 8) Mod.dieCommit).pipesCommit old
    let m := m.each ((upTo 16384).filter (fun k => !m.recLive k)) Mod.recordEnds
    let m := m.srcCommit old.tbSrc
    ((m.wr F.ROOK_STATUS_BOOT 0 4).setMbxState 2).bootDram

/-- LAMB_SERVICE (R397): t6. -/
def execLambService (s : State) : Host.Outcome State Fault Refusal := s.act Mod.lambService

/-! ### Full service (R393 to R395, R399) -/

/-- The CODE sectors of the starting move that the code store does not hold. -/
def Mod.badSectors (m : Mod) : List (Nat × Nat × List Byte) :=
  match m.phase.slot with
  | some n => (imgCode (m.image n)).filter (fun s => m.bytes (codeBase s.1 + 0x10000 * s.2.1) 0x10000 != s.2.2)
  | none => []

/-- t8. -/
def Mod.codeCheck (m : Mod) : Mod :=
  if m.rd F.ROOK_STATUS_BOOT ≠ 5 ∨ m.phase.checked then m
  else { m with phase := { m.phase with checked := true, reprogram := m.badSectors.map (fun s => (s.1, s.2.1)) } }

/-- CODE_SECTOR_CHECK (R392, R393): t8. -/
def execCodeSectorCheck (s : State) : Host.Outcome State Fault Refusal := s.act Mod.codeCheck

/-- A sector that failed has been reprogrammed from its slot. -/
def Mod.reprogrammed (m : Mod) (g sector : Nat) : Mod :=
  if !m.phase.reprogram.contains (g, sector) || m.twin.loss.isSome then m
  else
    let m := m.program (m.badSectors.filter (fun s => s.1 == g && s.2.1 == sector))
    { m with phase := { m.phase with reprogram := m.phase.reprogram.filter (· != (g, sector)) } }

/-- SECTOR_REPROGRAM_DONE (R393). -/
def execSectorReprogramDone (g : RegionId) (sector : Fin 128) (s : State) : Host.Outcome State Fault Refusal :=
  s.act (fun m => m.reprogrammed g sector)

/-- Cores, matrix engines and lane groups have power before C_f; the commit switches off those the move disables. -/
def Mod.serviceDomains (m : Mod) : Mod :=
  m.each (upTo 32 ++ span 44 12) (fun m d => m.iff (m.parentOn d) (fun m => m.setDom d true))

/-- A history move used in place of a settled move that failed settles at C_f, as an automatic take-back (R393). -/
def Mod.startSettle (m : Mod) : Mod :=
  match m.phase.slot with
  | some n =>
    if !m.phase.back then m
    else
      let move := m.rd F.CFG_SLOT_MOVE_MOVE n
      let m := (m.wr F.CFG_SLOT_STATE_STATE n 3).put F.CFG_STATUS_SETTLED 0 true
      let m := ((m.wr F.CFG_MOVE_SETTLED_MOVE 0 move).score move .takeback partyAutomatic 0).raise 238
      { m with phase := { m.phase with back := false } }
  | none => m

/-- C_f. -/
def Mod.fullService (m : Mod) : Mod :=
  if m.rd F.ROOK_STATUS_BOOT ≠ 5 ∨ !m.phase.checked ∨ !m.phase.reprogram.isEmpty ∨ !m.flag F.MEM_STATUS_READY then m
  else
    let m := m.toNow (nextMultiple 100000 m.now)
    let old := m
    let keep := m.view
    let m := { m with phase := { m.phase with full := true } }.serviceDomains
    let m := m.startView.commitValues
    let due := m.phase.slot.map (fun n => GateDue.mk n m.fwdStage m.vlanStage)
    let m := (({ m with cfg := { m.cfg with gateDue := due } }.setView keep).startSettle).recordsEnd old
    let m := m.each (upTo 8) Mod.lgStart
    let m := m.each (upTo 32) Mod.coreLeaveReset
    ((m.wr F.ROOK_STATUS_BOOT 0 6).iff (m.rd F.MBX_STATE_STATE == 2) (fun m => m.setMbxState 3)).clocksCommit old

/-- FULL_SERVICE (R394, R395, R399): t9. -/
def execFullService (s : State) : Host.Outcome State Fault Refusal := s.act Mod.fullService

end Sys2Proof.Machine
end

