-- ==== Sys2Proof/Machine/GooseOps.lean ====
section
/-!
DEFINITION. Sys2Proof/Machine/GooseOps.lean: the Goose: its watch, log, time keeper and restart, and the side-band's messages
(R400 to R407, R493).
-/
namespace Sys2Proof.Machine

/-! ### Watch and time keeper (R400, R401) -/

/-- GOOSE_WATCH_CHANGE (R401). -/
def execGooseWatchChange (what : Watch) (s : State) : Host.Outcome State Fault Refusal :=
  s.act (fun m =>
    if !m.phase.gooseUp then m
    else
      let m := match what with
        | .feedA ok => m.put F.GOOSE_STATUS_FEED_A 0 ok
        | .feedB ok => m.put F.GOOSE_STATUS_FEED_B 0 ok
        | _ => m
      m.gooseLog (.watch what))

/-- A silent Sheepdog (R401, R406): MBX_STATE 4, no lock; a device fault (R439); one restart where AUTORESTART asks for it. -/
def Mod.sdSilent (m : Mod) : Mod :=
  if !m.phase.sheepdogUp || m.rd F.MBX_STATE_STATE == 4 then m
  else
    let m := ((m.setMbxState 4).gooseLog (.watch (.heartbeat false))).freeLock
    let m := m.deviceFault 0x0C (m.reg .MBX_STATE 0)
    if m.phase.sheepdogUp && m.flag F.GOOSE_CTRL_AUTORESTART && !m.goose.restarted then
      ({ m with goose := { m.goose with restarted := true } }).sheepdogRestart
    else m

/-- SHEEPDOG_HEARTBEAT_TIMEOUT (R401): 2 s without a heartbeat. -/
def execSheepdogHeartbeatTimeout (s : State) : Host.Outcome State Fault Refusal := s.act Mod.sdSilent

/-- TIME_KEEPER_SECOND (R400): at a full second of TB_NOW in full service. -/
def execTimeKeeperSecond (s : State) : Host.Outcome State Fault Refusal :=
  s.act (fun m =>
    if m.phase.full then
      let m := m.toNow (nextMultiple 1000000000 m.now)
      { m with goose := { m.goose with keeper := m.now } }
    else m)

/-- The time keeper loses its count. -/
def Mod.keeperLost (m : Mod) : Mod :=
  if m.flag F.PWR_FEED_A_OK || m.flag F.PWR_FEED_B_OK then m
  else { m.put F.GOOSE_STATUS_TIME_INVALID 0 true with goose := { m.goose with keeper := 0, invalid := true } }

/-- TIME_KEEPER_COUNT_LOST (R400): 72 h without a feed. -/
def execTimeKeeperCountLost (s : State) : Host.Outcome State Fault Refusal := s.act Mod.keeperLost

/-! ### Sessions (R402, R404) -/

/-- EV249 where the spine runs. -/
def Mod.sessionEvent (m : Mod) : Mod := m.iff m.phase.spineUp (fun m => m.raise 249)

/-- A side-band session ends: its relayed commands go, and the lock if it holds it. -/
def Mod.sbClose (m : Mod) (sess : Nat) : Mod :=
  if !m.goose.sessions.contains sess then m
  else
    let m := { m with goose := { m.goose with sessions := m.goose.sessions.filter (· != sess) }, relays := m.relays.filter (·.sess != sess) }
    (m.iff (m.lock.holder == 5 && m.lock.sess == sess) (fun m => m.freeLock)).sessionEvent

/-- SIDEBAND_SESSION_CLOSE (R362, R404). -/
def execSidebandSessionClose (sess : SbId) (s : State) : Host.Outcome State Fault Refusal := s.act (fun m => m.sbClose sess)

/-- The Goose restarts: side-band sessions and lock go; log and lost count only with the always-on domain. -/
def Mod.gooseRestart (m : Mod) (domainLost : Bool) : Mod :=
  let m := (m.each (upTo 5) Mod.sbClose).closeSession 4
  let m := m.iff (m.lock.holder == 5) (fun m => m.freeLock)
  if domainLost then
    { m.setReg .GOOSE_CTRL 0 (Reg.resetVal .GOOSE_CTRL 0) with goose := { keeper := m.goose.keeper, invalid := m.goose.invalid } }
  else { m with goose := { m.goose with restarted := false } }

/-- GOOSE_RESTART (R362, R401, R493). -/
def execGooseRestart (domainLost : Bool) (s : State) : Host.Outcome State Fault Refusal := s.act (fun m => m.gooseRestart domainLost)

/-! ### Messages (R403, R406) -/

/-- A reply. -/
def Mod.sbReply (m : Mod) (sess type seq status : Nat) (payload : List Byte := []) : Mod := m.emit (.sideband sess type seq status payload)

/-- What a message needs of the main side. -/
inductive Need where
  | nothing | spine | main
  deriving DecidableEq, Repr

/-- Whether what a message needs is up: the spine with its Rook, or the main side with its Sheepdog started. -/
def Mod.sbUp (m : Mod) (n : Need) : Bool :=
  match n with
  | .nothing => true
  | .spine => m.phase.spineUp && decide (2 ≤ m.rd F.ROOK_STATUS_BOOT)
  | .main => m.phase.spineUp && m.phase.sheepdogUp

/-- Whether a message reaches the Goose: a frame of the UART with a bad CRC is dropped (R402). -/
def Mod.sbHears (m : Mod) (sess : Nat) (h : SbHead) : Bool := m.phase.gooseUp && (sess != 0 || h.crcOk)

/-- Whether the Goose opens a session: on Ethernet, for a client certificate that chains to the enrolled trust anchor (R402). -/
def Mod.sbAccepts (m : Mod) (sess : Nat) (h : SbHead) : Bool := m.sbHears sess h && (sess == 0 || (m.rook.anchor && h.certOk))

/-- A message of a type the Goose does not know: BADOP, before a HELLO as any other (R403). -/
def Mod.sbOdd (m : Mod) (sess type seq : Nat) : Mod :=
  m.sbReply sess type seq (if m.goose.sessions.contains sess then stBADOP else stNOSESSION)

/-- A message of a session served by the Goose: the UART's carries the observe class only. -/
def Mod.sbServe (m : Mod) (sess type : Nat) (h : SbHead) (control : Bool) (need : Need) (f : Mod → Mod) : Mod :=
  if !m.sbHears sess h then m
  else match h.unknown with
  | some t => m.sbOdd sess t h.toNat
  | none =>
    if !m.goose.sessions.contains sess then m.sbReply sess type h.toNat stNOSESSION
    else if control && sess == 0 then m.sbReply sess type h.toNat stBADOP
    else if !m.sbUp need then m.sbReply sess type h.toNat stSTATE
    else f m

/-- Whether no lock can exist: the Sheepdog has failed or the main side is off (R406). -/
def Mod.noLock (m : Mod) : Bool := !m.phase.spineUp || m.rd F.MBX_STATE_STATE == 4

/-- Whether a session's token is good for POWER, RESET and TIME_SET. -/
def Mod.sbToken (m : Mod) (sess token : Nat) : Bool :=
  m.noLock || (m.lock.holder == 5 && m.lock.sess == sess && m.lock.token == token)

/-- HELLO (R402 to R404): protocol 1.0. -/
def execHello (sess : SbId) (major _minor : BitVec 8) (seq : SbHead) (s : State) : Host.Outcome State Fault Refusal :=
  s.act (fun m =>
    if !m.sbAccepts sess seq then m
    else match seq.unknown with
    | some t => m.sbOdd sess t seq.toNat
    | none =>
      if major ≠ 1 then m.sbReply sess 0x01 seq.toNat stVERSION
      else
      let new := !m.goose.sessions.contains sess.val
      let m := m.iff new (fun m => ({ m with goose := { m.goose with sessions := m.goose.sessions ++ [sess.val] } }).sessionEvent)
      m.sbReply sess 0x01 seq.toNat stOK [1, 0])

/-- What STATUS returns. -/
def Mod.sbStatus (m : Mod) : List Byte :=
  leBytes 1 (m.rd F.ROOK_STATUS_BOOT) ++ leBytes 1 (m.rd F.MBX_STATE_STATE) ++ leBytes 1 (lifeCode m.rook.life) ++
  leBytes 1 (b2n (m.flag F.GOOSE_STATUS_FEED_A) + 2 * b2n (m.flag F.GOOSE_STATUS_FEED_B)) ++
  leBytes 2 (m.rd F.PWR_TEMP_INLET) ++ leBytes 2 (m.rd F.PWR_TEMP_JUNCTION) ++ leBytes 2 m.node ++ leBytes 2 (b2n m.goose.invalid) ++
  leBytes 4 (m.rd F.CFG_MOVE_SETTLED_MOVE)

/-- STATUS (R403). -/
def execStatus (sess : SbId) (seq : SbHead) (s : State) : Host.Outcome State Fault Refusal :=
  s.act (fun m => m.sbServe sess 0x02 seq false .nothing (fun m => m.sbReply sess 0x02 seq.toNat stOK m.sbStatus))

/-- What a watched condition is called in a log entry, and its state. -/
def watchCode (w : Watch) : Nat × Nat :=
  match w with
  | .feedA x => (0, b2n x)
  | .feedB x => (1, b2n x)
  | .holdup x => (2, b2n x)
  | .inlet x => (3, b2n x)
  | .die x => (4, b2n x)
  | .heartbeat x => (5, b2n x)

/-- A log entry as 48 bytes: its time, what it is, and its fault record or its condition. -/
def GooseEntry.bytes (e : GooseEntry) : List Byte :=
  leBytes 8 e.time ++ (match e.what with
    | .watch w => leBytes 4 0 ++ leBytes 2 (watchCode w).1 ++ leBytes 2 (watchCode w).2 ++ List.replicate 32 0
    | .fault r => leBytes 8 1 ++ r.bytes
    | .event n => leBytes 4 2 ++ leBytes 4 n ++ List.replicate 32 0
    | .loss => leBytes 8 3 ++ List.replicate 32 0
    | .critical => leBytes 8 4 ++ List.replicate 32 0)

/-- LOG_READ: up to 16 entries leave the log, the lost count starts again. -/
def Mod.logRead (m : Mod) (sess seq : Nat) : Mod :=
  let l := m.goose.log.take 16
  let p := leBytes 2 m.goose.lost ++ leBytes 2 l.length ++ leBytes 4 0 ++ l.flatMap GooseEntry.bytes
  ({ m with goose := { m.goose with log := m.goose.log.drop 16, lost := 0 } }).sbReply sess 0x03 seq stOK p

/-- LOG_READ (R403, R493). -/
def execLogRead (sess : SbId) (seq : SbHead) (s : State) : Host.Outcome State Fault Refusal :=
  s.act (fun m => m.sbServe sess 0x03 seq false .nothing (fun m => m.logRead sess seq.toNat))

/-- SIDEBAND_TIME_GET (R403). -/
def execSidebandTimeGet (sess : SbId) (seq : SbHead) (s : State) : Host.Outcome State Fault Refusal :=
  s.act (fun m => m.sbServe sess 0x04 seq false .nothing (fun m =>
    m.sbReply sess 0x04 seq.toNat stOK (leBytes 8 m.goose.keeper ++ (if m.phase.spineUp then leBytes 8 m.now else []))))

/-- TIME_SET: the keeper, and as TIME_STEP where the main side is up. -/
def Mod.timeSet (m : Mod) (sess seq t : Nat) : Mod :=
  let keep := fun (m : Mod) => { m.put F.GOOSE_STATUS_TIME_INVALID 0 false with goose := { m.goose with keeper := t, invalid := false } }
  if m.noLock then (keep m).sbReply sess 0x05 seq stOK
  else if m.flag F.TB_STATUS_LOCKED && m.tbSrc != 0 then (m.tbStep t).sbReply sess 0x05 seq stSTATE
  else ((keep m).tbStep t).sbReply sess 0x05 seq stOK

/-- TIME_SET (R403, R406). -/
def execTimeSet (sess : SbId) (seq : SbHead) (token : BitVec 32) (t : BitVec 64) (s : State) : Host.Outcome State Fault Refusal :=
  s.act (fun m => m.sbServe sess 0x05 seq true .nothing (fun m =>
    if m.sbToken sess token.toNat then m.timeSet sess seq.toNat t.toNat else m.sbReply sess 0x05 seq.toNat stNOLOCK))

/-- REG_READ as master 33. -/
def Mod.sbRegRead (m : Mod) (sess seq off n : Nat) : Mod :=
  match m.passGate ⟨33, false, 0, 0, regBase + off, n, .load⟩ with
  | (m, some k) => m.sbReply sess 0x06 seq stACCESS (leBytes 4 k)
  | (m, none) =>
    let (m, v) := m.regLoad 33 off n
    m.sbReply sess 0x06 seq stOK (leBytes 8 v)

/-- SIDEBAND_REG_READ (R403, R405). -/
def execSidebandRegRead (sess : SbId) (seq : SbHead) (off : BitVec 28) (wide : Bool) (s : State) : Host.Outcome State Fault Refusal :=
  s.act (fun m => m.sbServe sess 0x06 seq false .main (fun m => m.sbRegRead sess seq.toNat off.toNat (if wide then 8 else 4)))

/-- SIG_READ as master 33; records of other nodes are read there. -/
def Mod.sbSigRead (m : Mod) (sess seq : Nat) (ids : List Nat) : Mod :=
  if ids.length = 0 || ids.length > 32 then m.sbReply sess 0x07 seq stBADARG
  else
    let c : LongCmd := ⟨5, seq, 0, 0, true, 0, 0, 1024, 0, sess⟩
    let places := (ids.filterMap (sigPlace false)).map (fun p => (p.1 * 2 ^ 52 + recAddr p.2.1 p.2.2, 32, 0))
    match m.gatherBegin (.mailbox 5) (some c) places 33 with
    | (m, .error k) => m.gatherFail (some c) k false
    | (m, .ok g) => m.gatherEnd g

/-- SIDEBAND_SIG_READ (R403, R405). -/
def execSidebandSigRead (sess : SbId) (seq : SbHead) (ids : List (BitVec 26)) (s : State) : Host.Outcome State Fault Refusal :=
  s.act (fun m => m.sbServe sess 0x07 seq false .main (fun m => m.sbSigRead sess seq.toNat (ids.map BitVec.toNat)))

/-- RELAY: the command runs at once where the side-band's pair is free, else it waits its turn. -/
def Mod.relay (m : Mod) (sess seq : Nat) (slot payload : List Byte) (v : Verdict) : Mod :=
  let st := m.rd F.MBX_STATE_STATE
  if st ≠ 2 ∧ st ≠ 3 then m.sbReply sess 0x08 seq stSTATE
  else
    let c := cmdOf 4 seq sess slot payload
    let op := c.lc.opcode
    if m.relays.isEmpty && m.mayBegin 4 && m.turn 4 && !(m.twin.loss.isSome && flashOps.contains op) then
      { m with served := 4 }.runCmd c (moreFaults op) (cmdBody op v)
    else { m with relays := m.relays ++ [⟨sess, seq, slot, payload⟩] }

/-- RELAY (R404). -/
def execRelay (sess : SbId) (seq : SbHead) (slot payload : List Byte) (v : Verdict) (s : State) : Host.Outcome State Fault Refusal :=
  s.act (fun m => m.sbServe sess 0x08 seq true .main (fun m => m.relay sess seq.toNat slot payload v))

/-- POWER: with the main side off no lock can exist (R406); off applies every output's PORT_SAFE action through the port dies and leaves the main side without power; on is a
new start from t3 on. -/
def Mod.mainPower (m : Mod) (on : Bool) : Mod :=
  if on then { m with phase := { m.phase with held := false } }
  else
    let m := { m.freeLock with phase := { m.phase with held := true } }
    ((m.each (upTo 8) Mod.isolateDie).unclaim).atStart

/-- POWER (R403, R406). -/
def execPower (sess : SbId) (seq : SbHead) (token : BitVec 32) (on : Bool) (s : State) : Host.Outcome State Fault Refusal :=
  s.act (fun m => m.sbServe sess 0x09 seq true .nothing (fun m =>
    if m.sbToken sess token.toNat then (m.sbReply sess 0x09 seq.toNat stOK).mainPower on else m.sbReply sess 0x09 seq.toNat stNOLOCK))

/-- RESET: the device, or a region, on request of the Goose. With the spine down every region is in reset already; a device reset still starts
the module again, where the Rook's chain had failed (R408). -/
def Mod.sbReset (m : Mod) (region : Option Nat) : Mod :=
  match region with
  | some g => m.iff m.phase.spineUp (fun m => m.requestReset 10 g 2 33)
  | none => m.requestReset 11 0 2 33

/-- RESET (R403, R406, R447). -/
def execReset (sess : SbId) (seq : SbHead) (token : BitVec 32) (region : Option RegionId) (s : State) : Host.Outcome State Fault Refusal :=
  s.act (fun m => m.sbServe sess 0x0A seq true .nothing (fun m =>
    if m.sbToken sess token.toNat then (m.sbReply sess 0x0A seq.toNat stOK).sbReset (region.map Fin.val) else m.sbReply sess 0x0A seq.toNat stNOLOCK))

/-- FW_RECOVER: the image verified by the Rook goes to the slot that does not run, and the Sheepdog starts from it. -/
def Mod.fwRecover (m : Mod) (sess seq : Nat) (image : List Byte) (v : Verdict) : Mod :=
  if m.rd F.MBX_STATE_STATE ≠ 4 then m.sbReply sess 0x0B seq stSTATE
  else match m.rookReason F.ROOK_SVN_SHEEPDOG v true with
  | 0 =>
    let m := (m.rookAccept F.ROOK_SVN_SHEEPDOG v).setFwIdle ⟨.trial, (Config.fwVersion image).toNat, v.version.toNat, v.digest.toNat, image⟩
    let m := m.sbReply sess 0x0B seq stOK
    if m.phase.sheepdogUp then m.sheepdogRestart else m.wr F.ROOK_STATUS_BOOT 0 2
  | r => (m.rookRefuse r).sbReply sess 0x0B seq stVERIFY (leBytes 4 r)

/-- FW_RECOVER (R403, R407). -/
def execFwRecover (sess : SbId) (seq : SbHead) (image : List Byte) (v : Verdict) (s : State) : Host.Outcome State Fault Refusal :=
  s.act (fun m => m.sbServe sess 0x0B seq true .spine (fun m => m.fwRecover sess seq.toNat image v))

end Sys2Proof.Machine
end

