-- ==== Sys2Proof/Machine/Integer.lean ====
section
/-!
DEFINITION. Sys2Proof/Machine/Integer.lean: the meanings of the integer operations (R178): each issues its word on its core.
-/
namespace Sys2Proof.Machine

/-- ADD rd, rs1, rs2 (R178). -/
def execAdd (c : CoreId) (rd rs1 rs2 : DReg) (s : State) : Host.Outcome State Fault Refusal :=
  s.act (fun m => m.issue c (Instr.uses (.add c rd rs1 rs2)) (bodyAlu .add rd rs1 rs2))

/-- SUB rd, rs1, rs2 (R178). -/
def execSub (c : CoreId) (rd rs1 rs2 : DReg) (s : State) : Host.Outcome State Fault Refusal :=
  s.act (fun m => m.issue c (Instr.uses (.sub c rd rs1 rs2)) (bodyAlu .sub rd rs1 rs2))

/-- AND rd, rs1, rs2 (R178). -/
def execAnd (c : CoreId) (rd rs1 rs2 : DReg) (s : State) : Host.Outcome State Fault Refusal :=
  s.act (fun m => m.issue c (Instr.uses (.and c rd rs1 rs2)) (bodyAlu .and rd rs1 rs2))

/-- OR rd, rs1, rs2 (R178). -/
def execOr (c : CoreId) (rd rs1 rs2 : DReg) (s : State) : Host.Outcome State Fault Refusal :=
  s.act (fun m => m.issue c (Instr.uses (.or c rd rs1 rs2)) (bodyAlu .or rd rs1 rs2))

/-- XOR rd, rs1, rs2 (R178). -/
def execXor (c : CoreId) (rd rs1 rs2 : DReg) (s : State) : Host.Outcome State Fault Refusal :=
  s.act (fun m => m.issue c (Instr.uses (.xor c rd rs1 rs2)) (bodyAlu .xor rd rs1 rs2))

/-- SLL rd, rs1, rs2 (R178). -/
def execSll (c : CoreId) (rd rs1 rs2 : DReg) (s : State) : Host.Outcome State Fault Refusal :=
  s.act (fun m => m.issue c (Instr.uses (.sll c rd rs1 rs2)) (bodyAlu .sll rd rs1 rs2))

/-- SRL rd, rs1, rs2 (R178). -/
def execSrl (c : CoreId) (rd rs1 rs2 : DReg) (s : State) : Host.Outcome State Fault Refusal :=
  s.act (fun m => m.issue c (Instr.uses (.srl c rd rs1 rs2)) (bodyAlu .srl rd rs1 rs2))

/-- SRA rd, rs1, rs2 (R178). -/
def execSra (c : CoreId) (rd rs1 rs2 : DReg) (s : State) : Host.Outcome State Fault Refusal :=
  s.act (fun m => m.issue c (Instr.uses (.sra c rd rs1 rs2)) (bodyAlu .sra rd rs1 rs2))

/-- SLT rd, rs1, rs2 (R178). -/
def execSlt (c : CoreId) (rd rs1 rs2 : DReg) (s : State) : Host.Outcome State Fault Refusal :=
  s.act (fun m => m.issue c (Instr.uses (.slt c rd rs1 rs2)) (bodyAlu .slt rd rs1 rs2))

/-- SLTU rd, rs1, rs2 (R178). -/
def execSltu (c : CoreId) (rd rs1 rs2 : DReg) (s : State) : Host.Outcome State Fault Refusal :=
  s.act (fun m => m.issue c (Instr.uses (.sltu c rd rs1 rs2)) (bodyAlu .sltu rd rs1 rs2))

/-- MIN rd, rs1, rs2 (R178). -/
def execMin (c : CoreId) (rd rs1 rs2 : DReg) (s : State) : Host.Outcome State Fault Refusal :=
  s.act (fun m => m.issue c (Instr.uses (.min c rd rs1 rs2)) (bodyAlu .min rd rs1 rs2))

/-- MAX rd, rs1, rs2 (R178). -/
def execMax (c : CoreId) (rd rs1 rs2 : DReg) (s : State) : Host.Outcome State Fault Refusal :=
  s.act (fun m => m.issue c (Instr.uses (.max c rd rs1 rs2)) (bodyAlu .max rd rs1 rs2))

/-- MINU rd, rs1, rs2 (R178). -/
def execMinu (c : CoreId) (rd rs1 rs2 : DReg) (s : State) : Host.Outcome State Fault Refusal :=
  s.act (fun m => m.issue c (Instr.uses (.minu c rd rs1 rs2)) (bodyAlu .minu rd rs1 rs2))

/-- MAXU rd, rs1, rs2 (R178). -/
def execMaxu (c : CoreId) (rd rs1 rs2 : DReg) (s : State) : Host.Outcome State Fault Refusal :=
  s.act (fun m => m.issue c (Instr.uses (.maxu c rd rs1 rs2)) (bodyAlu .maxu rd rs1 rs2))

/-- MUL rd, rs1, rs2 (R178). -/
def execMul (c : CoreId) (rd rs1 rs2 : DReg) (s : State) : Host.Outcome State Fault Refusal :=
  s.act (fun m => m.issue c (Instr.uses (.mul c rd rs1 rs2)) (bodyAlu .mul rd rs1 rs2))

/-- MULH rd, rs1, rs2 (R178). -/
def execMulh (c : CoreId) (rd rs1 rs2 : DReg) (s : State) : Host.Outcome State Fault Refusal :=
  s.act (fun m => m.issue c (Instr.uses (.mulh c rd rs1 rs2)) (bodyAlu .mulh rd rs1 rs2))

/-- MULHU rd, rs1, rs2 (R178). -/
def execMulhu (c : CoreId) (rd rs1 rs2 : DReg) (s : State) : Host.Outcome State Fault Refusal :=
  s.act (fun m => m.issue c (Instr.uses (.mulhu c rd rs1 rs2)) (bodyAlu .mulhu rd rs1 rs2))

/-- DIV rd, rs1, rs2 (R178). -/
def execDiv (c : CoreId) (rd rs1 rs2 : DReg) (s : State) : Host.Outcome State Fault Refusal :=
  s.act (fun m => m.issue c (Instr.uses (.div c rd rs1 rs2)) (bodyAlu .div rd rs1 rs2))

/-- DIVU rd, rs1, rs2 (R178). -/
def execDivu (c : CoreId) (rd rs1 rs2 : DReg) (s : State) : Host.Outcome State Fault Refusal :=
  s.act (fun m => m.issue c (Instr.uses (.divu c rd rs1 rs2)) (bodyAlu .divu rd rs1 rs2))

/-- REM rd, rs1, rs2 (R178). -/
def execRem (c : CoreId) (rd rs1 rs2 : DReg) (s : State) : Host.Outcome State Fault Refusal :=
  s.act (fun m => m.issue c (Instr.uses (.rem c rd rs1 rs2)) (bodyAlu .rem rd rs1 rs2))

/-- REMU rd, rs1, rs2 (R178). -/
def execRemu (c : CoreId) (rd rs1 rs2 : DReg) (s : State) : Host.Outcome State Fault Refusal :=
  s.act (fun m => m.issue c (Instr.uses (.remu c rd rs1 rs2)) (bodyAlu .remu rd rs1 rs2))

/-- ADDI: imm14 sign-extended (R178). -/
def execAddi (c : CoreId) (rd rs1 : DReg) (imm : BitVec 14) (s : State) : Host.Outcome State Fault Refusal :=
  s.act (fun m => m.issue c (Instr.uses (.addi c rd rs1 imm)) (bodyAluImm .add rd rs1 (sext 14 imm.toNat)))

/-- SLTI: imm14 sign-extended (R178). -/
def execSlti (c : CoreId) (rd rs1 : DReg) (imm : BitVec 14) (s : State) : Host.Outcome State Fault Refusal :=
  s.act (fun m => m.issue c (Instr.uses (.slti c rd rs1 imm)) (bodyAluImm .slt rd rs1 (sext 14 imm.toNat)))

/-- SLTIU: imm14 sign-extended (R178). -/
def execSltiu (c : CoreId) (rd rs1 : DReg) (imm : BitVec 14) (s : State) : Host.Outcome State Fault Refusal :=
  s.act (fun m => m.issue c (Instr.uses (.sltiu c rd rs1 imm)) (bodyAluImm .sltu rd rs1 (sext 14 imm.toNat)))

/-- ANDI: imm14 zero-extended (R178). -/
def execAndi (c : CoreId) (rd rs1 : DReg) (imm : BitVec 14) (s : State) : Host.Outcome State Fault Refusal :=
  s.act (fun m => m.issue c (Instr.uses (.andi c rd rs1 imm)) (bodyAluImm .and rd rs1 imm.toNat))

/-- ORI: imm14 zero-extended (R178). -/
def execOri (c : CoreId) (rd rs1 : DReg) (imm : BitVec 14) (s : State) : Host.Outcome State Fault Refusal :=
  s.act (fun m => m.issue c (Instr.uses (.ori c rd rs1 imm)) (bodyAluImm .or rd rs1 imm.toNat))

/-- XORI: imm14 zero-extended (R178). -/
def execXori (c : CoreId) (rd rs1 : DReg) (imm : BitVec 14) (s : State) : Host.Outcome State Fault Refusal :=
  s.act (fun m => m.issue c (Instr.uses (.xori c rd rs1 imm)) (bodyAluImm .xor rd rs1 imm.toNat))

/-- SLLI by imm14[5:0] (R178). -/
def execSlli (c : CoreId) (rd rs1 : DReg) (sh : BitVec 6) (s : State) : Host.Outcome State Fault Refusal :=
  s.act (fun m => m.issue c (Instr.uses (.slli c rd rs1 sh)) (bodyAluImm .sll rd rs1 sh.toNat))

/-- SRLI by imm14[5:0] (R178). -/
def execSrli (c : CoreId) (rd rs1 : DReg) (sh : BitVec 6) (s : State) : Host.Outcome State Fault Refusal :=
  s.act (fun m => m.issue c (Instr.uses (.srli c rd rs1 sh)) (bodyAluImm .srl rd rs1 sh.toNat))

/-- SRAI by imm14[5:0] (R178). -/
def execSrai (c : CoreId) (rd rs1 : DReg) (sh : BitVec 6) (s : State) : Host.Outcome State Fault Refusal :=
  s.act (fun m => m.issue c (Instr.uses (.srai c rd rs1 sh)) (bodyAluImm .sra rd rs1 sh.toNat))

/-- INSI.n (R178). -/
def execInsi (c : CoreId) (n : Fin 5) (rd rs1 : DReg) (imm : BitVec 14) (s : State) : Host.Outcome State Fault Refusal :=
  s.act (fun m => m.issue c (Instr.uses (.insi c n rd rs1 imm)) (bodyInsi n rd rs1 imm.toNat))

end Sys2Proof.Machine
end

