-- ==== Sys2Proof/Machine/KeyOps.lean ====
section
/-!
DEFINITION. Sys2Proof/Machine/KeyOps.lean: the meanings of the key operations (R142 to R147, R186): each issues its word on its core.
-/
namespace Sys2Proof.Machine

/-- KMOVE (R143). -/
def execKmove (c : CoreId) (kd ks : KReg) (s : State) : Host.Outcome State Fault Refusal :=
  s.act (fun m => m.issue c (Instr.uses (.kmove c kd ks)) (bodyKmove kd ks))

/-- KADD (R143). -/
def execKadd (c : CoreId) (kd ks : KReg) (rs : DReg) (s : State) : Host.Outcome State Fault Refusal :=
  s.act (fun m => m.issue c (Instr.uses (.kadd c kd ks rs)) (bodyKadd kd ks rs))

/-- KBOUND (R142). -/
def execKbound (c : CoreId) (kd ks : KReg) (rs : DReg) (s : State) : Host.Outcome State Fault Refusal :=
  s.act (fun m => m.issue c (Instr.uses (.kbound c kd ks rs)) (bodyKbound true kd ks rs))

/-- KBOUNDR (R142). -/
def execKboundr (c : CoreId) (kd ks : KReg) (rs : DReg) (s : State) : Host.Outcome State Fault Refusal :=
  s.act (fun m => m.issue c (Instr.uses (.kboundr c kd ks rs)) (bodyKbound false kd ks rs))

/-- KRIGHTS (R143). -/
def execKrights (c : CoreId) (kd ks : KReg) (rs : DReg) (s : State) : Host.Outcome State Fault Refusal :=
  s.act (fun m => m.issue c (Instr.uses (.krights c kd ks rs)) (bodyKrights kd ks rs))

/-- KLOC (R143). -/
def execKloc (c : CoreId) (kd ks : KReg) (rs : DReg) (s : State) : Host.Outcome State Fault Refusal :=
  s.act (fun m => m.issue c (Instr.uses (.kloc c kd ks rs)) (bodyKloc kd ks rs))

/-- KSEAL (R143, R144). -/
def execKseal (c : CoreId) (kd ks kt : KReg) (s : State) : Host.Outcome State Fault Refusal :=
  s.act (fun m => m.issue c (Instr.uses (.kseal c kd ks kt)) (bodyKseal kd ks kt))

/-- KUNSEAL (R143, R144). -/
def execKunseal (c : CoreId) (kd ks kt : KReg) (s : State) : Host.Outcome State Fault Refusal :=
  s.act (fun m => m.issue c (Instr.uses (.kunseal c kd ks kt)) (bodyKunseal kd ks kt))

/-- KREEPOCH (R143). -/
def execKreepoch (c : CoreId) (kd ks : KReg) (rs : DReg) (s : State) : Host.Outcome State Fault Refusal :=
  s.act (fun m => m.issue c (Instr.uses (.kreepoch c kd ks rs)) (bodyKreepoch kd ks rs))

/-- KTEST (R147). -/
def execKtest (c : CoreId) (rd : DReg) (ks kt : KReg) (s : State) : Host.Outcome State Fault Refusal :=
  s.act (fun m => m.issue c (Instr.uses (.ktest c rd ks kt)) (bodyKtest rd ks kt))

/-- KGET (R146). -/
def execKget (c : CoreId) (rd : DReg) (ks : KReg) (f : Fin 12) (s : State) : Host.Outcome State Fault Refusal :=
  s.act (fun m => m.issue c (Instr.uses (.kget c rd ks f)) (bodyKget rd ks f))

end Sys2Proof.Machine
end

