-- ==== Sys2Proof/Machine/LoadsStores.lean ====
section
/-!
DEFINITION. Sys2Proof/Machine/LoadsStores.lean: the meanings of the loads, stores, atomics, block copy and fill (R179 to R185, R194 to R196): each issues its word on its core.
-/
namespace Sys2Proof.Machine

/-- LDB r, [kb + offset15 × 1] (R180, R181). -/
def execLdb (c : CoreId) (r : DReg) (kb : KReg) (off : BitVec 15) (s : State) : Host.Outcome State Fault Refusal :=
  s.act (fun m => m.issue c (Instr.uses (.ldb c r kb off)) (bodyLoad 1 true r kb off.toNat))

/-- LDBU r, [kb + offset15 × 1] (R180, R181). -/
def execLdbu (c : CoreId) (r : DReg) (kb : KReg) (off : BitVec 15) (s : State) : Host.Outcome State Fault Refusal :=
  s.act (fun m => m.issue c (Instr.uses (.ldbu c r kb off)) (bodyLoad 1 false r kb off.toNat))

/-- LDH r, [kb + offset15 × 2] (R180, R181). -/
def execLdh (c : CoreId) (r : DReg) (kb : KReg) (off : BitVec 15) (s : State) : Host.Outcome State Fault Refusal :=
  s.act (fun m => m.issue c (Instr.uses (.ldh c r kb off)) (bodyLoad 2 true r kb off.toNat))

/-- LDHU r, [kb + offset15 × 2] (R180, R181). -/
def execLdhu (c : CoreId) (r : DReg) (kb : KReg) (off : BitVec 15) (s : State) : Host.Outcome State Fault Refusal :=
  s.act (fun m => m.issue c (Instr.uses (.ldhu c r kb off)) (bodyLoad 2 false r kb off.toNat))

/-- LDW r, [kb + offset15 × 4] (R180, R181). -/
def execLdw (c : CoreId) (r : DReg) (kb : KReg) (off : BitVec 15) (s : State) : Host.Outcome State Fault Refusal :=
  s.act (fun m => m.issue c (Instr.uses (.ldw c r kb off)) (bodyLoad 4 true r kb off.toNat))

/-- LDWU r, [kb + offset15 × 4] (R180, R181). -/
def execLdwu (c : CoreId) (r : DReg) (kb : KReg) (off : BitVec 15) (s : State) : Host.Outcome State Fault Refusal :=
  s.act (fun m => m.issue c (Instr.uses (.ldwu c r kb off)) (bodyLoad 4 false r kb off.toNat))

/-- LDD r, [kb + offset15 × 8] (R180, R181). -/
def execLdd (c : CoreId) (r : DReg) (kb : KReg) (off : BitVec 15) (s : State) : Host.Outcome State Fault Refusal :=
  s.act (fun m => m.issue c (Instr.uses (.ldd c r kb off)) (bodyLoad 8 false r kb off.toNat))

/-- LDF (R181). -/
def execLdf (c : CoreId) (r : FReg) (kb : KReg) (off : BitVec 15) (s : State) : Host.Outcome State Fault Refusal :=
  s.act (fun m => m.issue c (Instr.uses (.ldf c r kb off)) (bodyLdf r kb off.toNat))

/-- STB: the low 1 bytes of r (R180, R181). -/
def execStb (c : CoreId) (r : DReg) (kb : KReg) (off : BitVec 15) (s : State) : Host.Outcome State Fault Refusal :=
  s.act (fun m => m.issue c (Instr.uses (.stb c r kb off)) (bodyStore 1 r kb off.toNat))

/-- STH: the low 2 bytes of r (R180, R181). -/
def execSth (c : CoreId) (r : DReg) (kb : KReg) (off : BitVec 15) (s : State) : Host.Outcome State Fault Refusal :=
  s.act (fun m => m.issue c (Instr.uses (.sth c r kb off)) (bodyStore 2 r kb off.toNat))

/-- STW: the low 4 bytes of r (R180, R181). -/
def execStw (c : CoreId) (r : DReg) (kb : KReg) (off : BitVec 15) (s : State) : Host.Outcome State Fault Refusal :=
  s.act (fun m => m.issue c (Instr.uses (.stw c r kb off)) (bodyStore 4 r kb off.toNat))

/-- STD: the low 8 bytes of r (R180, R181). -/
def execStd (c : CoreId) (r : DReg) (kb : KReg) (off : BitVec 15) (s : State) : Host.Outcome State Fault Refusal :=
  s.act (fun m => m.issue c (Instr.uses (.std c r kb off)) (bodyStore 8 r kb off.toNat))

/-- STF (R181). -/
def execStf (c : CoreId) (r : FReg) (kb : KReg) (off : BitVec 15) (s : State) : Host.Outcome State Fault Refusal :=
  s.act (fun m => m.issue c (Instr.uses (.stf c r kb off)) (bodyStf r kb off.toNat))

/-- LDK (R151, R181). -/
def execLdk (c : CoreId) (kd : KReg) (kb : KReg) (off : BitVec 15) (s : State) : Host.Outcome State Fault Refusal :=
  s.act (fun m => m.issue c (Instr.uses (.ldk c kd kb off)) (bodyLdk kd kb off.toNat))

/-- STK (R151, R152, R181). -/
def execStk (c : CoreId) (ks : KReg) (kb : KReg) (off : BitVec 15) (s : State) : Host.Outcome State Fault Refusal :=
  s.act (fun m => m.issue c (Instr.uses (.stk c ks kb off)) (bodyStk ks kb off.toNat))

/-- LDU.W (R182). -/
def execLduW (c : CoreId) (r : DReg) (kb : KReg) (off : BitVec 15) (s : State) : Host.Outcome State Fault Refusal :=
  s.act (fun m => m.issue c (Instr.uses (.lduW c r kb off)) (bodyLdu 4 r kb off.toNat))

/-- LDU.D (R182). -/
def execLduD (c : CoreId) (r : DReg) (kb : KReg) (off : BitVec 15) (s : State) : Host.Outcome State Fault Refusal :=
  s.act (fun m => m.issue c (Instr.uses (.lduD c r kb off)) (bodyLdu 8 r kb off.toNat))

/-- STU.W (R182, R183). -/
def execStuW (c : CoreId) (r : DReg) (kb : KReg) (off : BitVec 15) (s : State) : Host.Outcome State Fault Refusal :=
  s.act (fun m => m.issue c (Instr.uses (.stuW c r kb off)) (bodyStu 4 r kb off.toNat) true)

/-- STU.D (R182, R183). -/
def execStuD (c : CoreId) (r : DReg) (kb : KReg) (off : BitVec 15) (s : State) : Host.Outcome State Fault Refusal :=
  s.act (fun m => m.issue c (Instr.uses (.stuD c r kb off)) (bodyStu 8 r kb off.toNat) true)

/-- AMOADD.W and AMOADD.D (R184, R185). -/
def execAmoadd (c : CoreId) (wide : Bool) (rd : DReg) (v : KReg) (ks : KReg) (s : State) : Host.Outcome State Fault Refusal :=
  s.act (fun m => m.issue c (Instr.uses (.amoadd c wide rd v ks)) (bodyAtomic .add wide rd v ks))

/-- AMOSWP.W and AMOSWP.D (R184, R185). -/
def execAmoswp (c : CoreId) (wide : Bool) (rd : DReg) (v : KReg) (ks : KReg) (s : State) : Host.Outcome State Fault Refusal :=
  s.act (fun m => m.issue c (Instr.uses (.amoswp c wide rd v ks)) (bodyAtomic .swap wide rd v ks))

/-- CAS.W and CAS.D (R184, R185). -/
def execCas (c : CoreId) (wide : Bool) (rd : DReg) (v : KReg) (ks : KReg) (s : State) : Host.Outcome State Fault Refusal :=
  s.act (fun m => m.issue c (Instr.uses (.cas c wide rd v ks)) (bodyAtomic .cas wide rd v ks))

/-- KCAS (R151, R152, R185). -/
def execKcas (c : CoreId) (kd ks kt : KReg) (s : State) : Host.Outcome State Fault Refusal :=
  s.act (fun m => m.issue c (Instr.uses (.kcas c kd ks kt)) (bodyKcas kd ks kt))

/-- MCPY, one chunk an issue (R194 to R196). -/
def execMcpy (c : CoreId) (kd ks : KReg) (rs : DReg) (s : State) : Host.Outcome State Fault Refusal :=
  s.act (fun m => m.issue c (Instr.uses (.mcpy c kd ks rs)) (bodyMcpy kd ks rs))

/-- MSET, one chunk an issue (R194 to R196). -/
def execMset (c : CoreId) (kd : KReg) (rv : KReg) (rs : DReg) (s : State) : Host.Outcome State Fault Refusal :=
  s.act (fun m => m.issue c (Instr.uses (.mset c kd rv rs)) (bodyMset kd rv rs))

end Sys2Proof.Machine
end

