-- ==== Sys2Proof/Machine/PowerOps.lean ====
section
/-!
DEFINITION. Sys2Proof/Machine/PowerOps.lean: the meanings of the commands of power domains, feeds and temperature (R458 to
R473).
-/
namespace Sys2Proof.Machine

/-! ### Domains -/

/-- The wake time of a domain ends (R461). -/
def Mod.wakeDone (m : Mod) (d : Nat) : Mod :=
  match m.waking.find? (fun e => e.1 == d) with
  | some e => (m.toMono e.2).domReady d
  | none => m

/-- DOMAIN_WAKE_DONE (R461). -/
def execDomainWakeDone (d : Fin 66) (s : State) : Host.Outcome State Fault Refusal := s.act (fun m => m.wakeDone d)

/-- A region common domain goes off by a fault: its port dies take R51, everything else it is parent of goes off with it. -/
def Mod.commonFault (m : Mod) (d : Nat) : Mod :=
  let g := d - 40
  let dies := [2 * g, 2 * g + 1]
  let m := m.each dies (fun m x => m.iff (m.domOn (56 + x)) (fun m => m.isolateDie x))
  let m := m.each dies (fun m x => { (m.linkShow x false).setDom (56 + x) false with waking := m.waking.filter (·.1 != 56 + x) })
  m.domOff d

/-- Whether a DRAM rail has been given power and is on its way to regulation (R463, step 4). -/
def Mod.railWaking (m : Mod) (d : Nat) : Bool :=
  decide (64 ≤ d) && m.phase.spineUp && !m.dramUp && !m.flag F.PWR_THR_STATUS_CRITICAL && !m.domRetry.contains d

/-- A domain that misses regulation or trips its overcurrent limit (R462). -/
def Mod.domFault (m : Mod) (d : Nat) : Mod :=
  if !m.domPowered d && !m.railWaking d then m
  else
    let m := if 40 ≤ d ∧ d < 44 then m.commonFault d else m.domOff d
    let m := m.wr F.PWR_DOM_FAULT_FAULT (d / 32) (withBits (m.rd F.PWR_DOM_FAULT_FAULT (d / 32)) (d % 32) 1 1)
    { m.raise 243 with domRetry := if m.domRetry.contains d then m.domRetry else d :: m.domRetry }

/-- DOMAIN_FAULT (R462). -/
def execDomainFault (d : Fin 66) (s : State) : Host.Outcome State Fault Refusal := s.act (fun m => m.domFault d)

/-! ### Temperature (R468 to R471) -/

/-- The throttle step after a reading of the inlet in 1/16 °C: up to k at 55 + 2.5 k °C, down to k - 1 below 54 + 2.5 k °C. -/
def nextStep (s : Nat) (t : Int) : Nat :=
  let up := Nat.min 6 ((t - 880) / 40).toNat
  let down := Nat.min 6 ((t - 864) / 40).toNat
  if s < up then up else if down < s then down else s

/-- The throttle step follows the inlet. -/
def Mod.throttle (m : Mod) (t : Int) : Mod :=
  let s := m.rd F.PWR_THR_STATUS_STEP
  let n := nextStep s t
  if n = s then m else ((m.wr F.PWR_THR_STATUS_STEP 0 n).raise 241).shedFollow

/-- The domains that CRITICAL switches off: all but port dies and region commons. -/
def criticalOff : List Nat := upTo 40 ++ span 44 12 ++ [64, 65]

/-- Junction at 125 °C: the port dies apply their PORT_SAFE actions, the domains go off, the Goose logs it. -/
def Mod.critical (m : Mod) : Mod :=
  let m := (m.put F.PWR_THR_STATUS_CRITICAL 0 true).raise 242
  let m := m.each (upTo 8) (fun m d => m.iff (m.domOn (56 + d)) (fun m => m.isolateDie d))
  (m.each criticalOff Mod.domOff).gooseLog .critical

/-- A reading of both temperatures, in 1/16 °C, 10 ms after the one before; PBLK_TEMP of the blocks of a port die read with them is
that die's (DESIGN CHOICE, log entry 60: the spec does not say when it is read). -/
def Mod.tempSample (m : Mod) (inlet junction : Int) (dies : List (DieId × BitVec 16)) : Mod :=
  let m := (m.wr F.PWR_TEMP_INLET 0 (wrapTo 16 inlet)).wr F.PWR_TEMP_JUNCTION 0 (wrapTo 16 junction)
  let m := m.each dies (fun m d => m.each (span (4 * d.1.val) 4) (fun m b => m.wr F.PBLK_TEMP_TEMP b d.2.toNat))
  if !m.phase.spineUp then m
  else
    let m := m.iff (decide (1 ≤ m.rd F.PWR_THR_STATUS_STEP)) (fun m => m.count F.PWR_THR_TIME_MS 0 10)
    let m := m.throttle inlet
    let hot := decide (inlet > 1120) || decide (junction ≥ 1760)
    let was := m.flag F.PWR_THR_STATUS_OVERTEMP
    let m := (m.put F.PWR_THR_STATUS_OVERTEMP 0 hot).iff (hot && !was) (fun m => m.raise 242)
    m.iff (decide (junction ≥ 2000) && !m.flag F.PWR_THR_STATUS_CRITICAL) Mod.critical

/-- TEMPERATURE_SAMPLE (R468 to R471). -/
def execTemperatureSample (inlet : BitVec 16) (junction : Junctions) (s : State) : Host.Outcome State Fault Refusal :=
  s.act (fun m => m.tempSample inlet.toInt junction.main.toInt junction.dies)

/-! ### Feeds (R472, R473) -/

/-- A feed's voltage in 25 mV units: in range from 18 to 60 V. -/
def feedOk (v : Nat) : Bool := decide (720 ≤ v) && decide (v ≤ 2400)

/-- A feed's reading. -/
def Mod.feedReading (m : Mod) (b : Bool) (v : Nat) : Mod :=
  let fok := if b then F.PWR_FEED_B_OK else F.PWR_FEED_A_OK
  let was := m.flag fok
  let ok := feedOk v
  let m := (m.wr (if b then F.PWR_FEED_VB else F.PWR_FEED_VA) 0 v).put fok 0 ok
  let m := m.put (if b then F.GOOSE_STATUS_FEED_B else F.GOOSE_STATUS_FEED_A) 0 ok
  m.iff (ok != was && m.phase.spineUp) (fun m => m.raise 240)

/-- FEED_RANGE_CHANGE (R472): feed A, or B, reads a voltage. -/
def execFeedRangeChange (b : Bool) (v : BitVec 12) (s : State) : Host.Outcome State Fault Refusal :=
  s.act (fun m => m.feedReading b v.toNat)

/-- PWR_INPUT_WRITE (R473). -/
def execPwrInputWrite (_w : Writer) (s : State) : Host.Outcome State Fault Refusal := s.act Mod.clearPeak

end Sys2Proof.Machine
end

