-- ==== Sys2Proof/Machine/RookOps.lean ====
section
/-!
DEFINITION. Sys2Proof/Machine/RookOps.lean: the Rook's evidence, lifecycle and debug authorisation, and what debug does with it
(R290, R410 to R414).
-/
namespace Sys2Proof.Machine

/-! ### Evidence for a client (R412) -/

/-- ATTEST; without its identity key a decommissioned module makes no evidence. -/
def Mod.attest (m : Mod) (sess seq nonce : Nat) : Mod :=
  if m.rook.life = .decommissioned then m.sbReply sess 0x0C seq stSTATE
  else
    let (m, e) := m.evidence nonce
    m.sbReply sess 0x0C seq stOK e

/-- ATTEST (R403, R412). -/
def execAttest (sess : SbId) (seq : SbHead) (nonce : BitVec 256) (s : State) : Host.Outcome State Fault Refusal :=
  s.act (fun m => m.sbServe sess 0x0C seq false .spine (fun m => m.attest sess seq.toNat nonce.toNat))

/-! ### Debug authorisation (R414) -/

/-- The debug scope; a change raises EV250. -/
def Mod.setScope (m : Mod) (v : Nat) : Mod :=
  if m.rd F.ROOK_DBG_SCOPE = v then m else (m.wr F.ROOK_DBG_SCOPE 0 v).raise 250

/-- The end of a debug authorisation. -/
def Mod.dbgOver (m : Mod) : Mod := ({ m with rook := { m.rook with dbgEnd := none } }).setScope 0

/-- Whether a token verifies: its signer by the lifecycle, what it binds, its scope and duration. -/
def Mod.tokenGood (m : Mod) (t : DbgToken) : Bool :=
  let identity := (upTo 8).foldl (fun a n => a + m.rd F.ROOK_ID_DIGEST n * 2 ^ (32 * n)) 0
  t.sigOk && (match m.rook.life with
    | .owned => !t.byMbazoko
    | .returned => t.byMbazoko
    | _ => false) &&
  t.identity.toNat == identity && m.rook.chal == some t.challenge.toNat && t.scope != 3 && decide (1 ≤ t.seconds.toNat) && decide (t.seconds.toNat ≤ 86400)

/-- A token: it uses up its challenge. -/
def Mod.debugToken (m : Mod) (t : DbgToken) : Mod :=
  let good := m.tokenGood t
  let m := { m with rook := { m.rook with chal := none } }
  if good then ({ m with rook := { m.rook with dbgEnd := some (m.mono + t.seconds.toNat * 1000000000) } }).setScope t.scope.toNat
  else (m.put F.ROOK_ALERT_DBG_REFUSED 0 true).raise 247

/-- The challenge as 16 bytes. -/
def Mod.challengeBytes (m : Mod) : List Byte := (upTo 4).flatMap (fun n => leBytes 4 (m.rd F.ROOK_DBG_CHAL_CHAL n))

/-- DEBUG_AUTH: a challenge for a message without a token, else the verdict on the token. -/
def Mod.debugAuth (m : Mod) (sess seq : Nat) (tok : Option DbgToken) : Mod :=
  match tok with
  | none => m.newChallenge.sbReply sess 0x0D seq stOK m.newChallenge.challengeBytes
  | some t => (m.debugToken t).sbReply sess 0x0D seq (if m.tokenGood t then stOK else stVERIFY)

/-- DEBUG_AUTH (R403, R414). -/
def execDebugAuth (sess : SbId) (seq : SbHead) (tok : Option DbgToken) (s : State) : Host.Outcome State Fault Refusal :=
  s.act (fun m => m.sbServe sess 0x0D seq true .spine (fun m => m.debugAuth sess seq.toNat tok))

/-- DEBUG_CHALLENGE_READ (R414): through the IEEE 1149.1 port. -/
def execDebugChallengeRead (s : State) : Host.Outcome State Fault Refusal :=
  s.act (fun m => m.iff (m.sbUp .spine) (fun m => m.newChallenge.emit (.debug m.newChallenge.challengeBytes false)))

/-- DEBUG_TOKEN (R414): through the IEEE 1149.1 port. -/
def execDebugToken (tok : DbgToken) (s : State) : Host.Outcome State Fault Refusal :=
  s.act (fun m => m.iff (m.sbUp .spine) (fun m => m.debugToken tok))

/-- DEBUG_AUTH_EXPIRY (R414). -/
def execDebugAuthExpiry (s : State) : Host.Outcome State Fault Refusal :=
  s.act (fun m => match m.rook.dbgEnd with
    | some t => (m.toMono t).dbgOver
    | none => m)

/-! ### Debug accesses (R279, R290, R414) -/

/-- A refused debug access. -/
def Mod.dbgRefuse (m : Mod) : Mod := (m.raise 251).emit (.debug [] true)

/-- A load by debug. -/
def Mod.dbgLoad (m : Mod) (a n : Nat) : Mod :=
  match m.passGate ⟨55, false, 0, 0, a, n, .load⟩ with
  | (m, some _) => m.dbgRefuse
  | (m, none) =>
    let (m, g) := m.loadAs 55 a n
    m.emit (.debug g.data false)

/-- A store by debug. -/
def Mod.dbgStore (m : Mod) (a : Nat) (d : List Byte) : Mod :=
  match m.passGate ⟨55, false, 0, 0, a, d.length, .store⟩ with
  | (m, some _) => m.dbgRefuse
  | (m, none) => (m.storeAs 55 a d []).emit (.debug [] false)

/-- An act on a core, under scope 2. -/
def Mod.dbgCore (m : Mod) (c : Nat) (f : Core → Core) : Mod :=
  if m.rd F.ROOK_DBG_SCOPE = 2 then (m.setCore c (f (m.core c))).emit (.debug [] false) else m.dbgRefuse

/-- A debug access. IDCODE and BYPASS come with scope 1. Boundary scan that drives contacts is refused while a carrier's descriptor is accepted. -/
def Mod.debugAccess (m : Mod) (x : DebugAcc) : Mod :=
  match x with
  | .load a n => if n.val = 0 then m else m.dbgLoad a.toNat n
  | .store a d => if d.length = 0 ∨ d.length > 8 then m else m.dbgStore a.toNat d
  | .halt c => m.dbgCore c (fun k => { k with debugHalt := true, debugStep := false, copy := none })
  | .resume c => m.dbgCore c (fun k => { k with debugHalt := false, debugStep := false })
  | .step c => m.dbgCore c (fun k => { k with debugStep := k.debugHalt })
  | .extest => if m.flag F.CAR_STATUS_DESC_OK || m.rd F.ROOK_DBG_SCOPE != 2 then m.dbgRefuse else m.emit (.debug [] false)
  | .idcode => if m.rd F.ROOK_DBG_SCOPE = 0 then m.dbgRefuse else m.emit (.debug (leBytes 4 Config.idcode.toNat) false)
  | .bypass => if m.rd F.ROOK_DBG_SCOPE = 0 then m.dbgRefuse else m.emit (.debug [] false)

/-- DEBUG_ACCESS (R290, R414). -/
def execDebugAccess (acc : DebugAcc) (s : State) : Host.Outcome State Fault Refusal :=
  s.act (fun m => m.iff m.phase.spineUp (fun m => m.debugAccess acc))

/-! ### Lifecycle (R410) -/

/-- The arrows of R410. -/
def lifeArrow (a b : Lifecycle) : Bool :=
  match a, b with
  | .provisioned, .owned => true
  | .provisioned, .returned => true
  | .owned, .provisioned => true
  | .owned, .decommissioned => true
  | .returned, .decommissioned => true
  | _, _ => false

/-- The Rook's link keys go: every attested link starts again. -/
def Mod.linkKeysErase (m : Mod) : Mod :=
  m.each ((upTo 16).filter (fun l => m.flag F.MESH_LINK_STATUS_ATTESTED l)) Mod.linkStart

/-- The owner enrolled, or gone. -/
def Mod.setOwner (m : Mod) (owner : Nat) (on : Bool) : Mod :=
  let m := m.each (upTo 8) (fun m n => m.wr F.ROOK_OWNER_DIGEST n (if on then bitsOf owner (32 * n) 32 else 0))
  { m.put F.ROOK_STATUS_OWNER 0 on with rook := { m.rook with anchor := on } }

/-- What RETURNED erases beside the owner's enrolment: DRAM, scratch, configuration slots. -/
def Mod.eraseAll (m : Mod) : Mod :=
  let m := { m.zeroRange 0 dramTop with dramPoison := [], lines := [], plru := [], side := [], victims := [], held := [] }
  let m := m.each (upTo 4) (fun m g => m.zeroRange (rgnScratch g) 0x400000)
  let m := m.each (upTo 32) (fun m c => m.zeroRange (coreScratch c) 0x20000)
  let m := (m.probClear.unstage).each (upTo 8) Mod.slotClear
  let m := (((m.put F.CFG_STATUS_STAGED 0 false).wr F.CFG_MOVE_STAGED_MOVE 0 0).put F.CFG_STATUS_SETTLED 0 false).wr F.CFG_MOVE_SETTLED_MOVE 0 0
  { m with cfg := { m.cfg with history := [], staging := [], stagingRefused := none, ownStage := false } }

/-- A decommissioned module: no image runs, its outputs take their PORT_SAFE actions, only the Goose serves. -/
def Mod.decommission (m : Mod) : Mod := (((m.freeLock.each (upTo 8) Mod.isolateDie).unclaim).atStart).rookFails

/-- A transition that its signatures carry. -/
def Mod.lifeMove (m : Mod) (dest : Lifecycle) (owner : Nat) : Mod :=
  let m := { m with rook := { m.rook with life := dest } }.wr F.ROOK_STATUS_LIFECYCLE 0 (lifeCode dest)
  let m := m.linkKeysErase.dbgOver
  match dest with
  | .owned => m.setOwner owner true
  | .provisioned => m.setOwner 0 false
  | .returned => (m.setOwner 0 false).eraseAll
  | .decommissioned => m.decommission

/-- LIFECYCLE_TRANSITION (R410). -/
def execLifecycleTransition (dest : Lifecycle) (owner : BitVec 256) (sigOk : Bool) (s : State) : Host.Outcome State Fault Refusal :=
  s.act (fun m =>
    if !m.sbUp .spine || !lifeArrow m.rook.life dest then m
    else if !sigOk then m.rookRefuse 1
    else m.lifeMove dest owner.toNat)

end Sys2Proof.Machine
end

