-- ==== Sys2Proof/Machine/SysOps.lean ====
section
/-!
DEFINITION. Sys2Proof/Machine/SysOps.lean: the meanings of the system, ordering, bank and context instructions (R171, R197 to R202, R205): each issues its word on its core.
-/
namespace Sys2Proof.Machine

/-- SRD (R171, R229). -/
def execSrd (c : CoreId) (rd : DReg) (num : BitVec 12) (s : State) : Host.Outcome State Fault Refusal :=
  s.act (fun m => m.issue c (Instr.uses (.srd c rd num)) (bodySrd rd num.toNat))

/-- SWR (R171, R190, R191, R229). -/
def execSwr (c : CoreId) (rs1 : DReg) (num : BitVec 12) (s : State) : Host.Outcome State Fault Refusal :=
  s.act (fun m => m.issue c (Instr.uses (.swr c rs1 num)) (bodySwr rs1 num.toNat))

/-- FENCE (R205). -/
def execFence (c : CoreId) (s : State) : Host.Outcome State Fault Refusal :=
  s.act (fun m => m.issue c (Instr.uses (.fence c)) (bodyFence))

/-- GATE.SYNC (R205): the applies and epoch advances of this model take effect as they are written. -/
def execGateSync (c : CoreId) (s : State) : Host.Outcome State Fault Refusal :=
  s.act (fun m => m.issue c (Instr.uses (.gateSync c)) (bodyFence))

/-- EWAIT (R205, R213). -/
def execEwait (c : CoreId) (s : State) : Host.Outcome State Fault Refusal :=
  s.act (fun m => m.issue c (Instr.uses (.ewait c)) (bodyEwait))

/-- ERET (R205, R214). -/
def execEret (c : CoreId) (s : State) : Host.Outcome State Fault Refusal :=
  s.act (fun m => m.issue c (Instr.uses (.eret c)) (bodyEret))

/-- TRAP (R205, R221); the code is in the word at FIP. -/
def execTrap (c : CoreId) (_code : BitVec 14) (s : State) : Host.Outcome State Fault Refusal :=
  s.act (fun m => m.issue c (Instr.uses (.trap c _code)) (bodyTrap))

/-- BANKRD (R202). -/
def execBankrd (c : CoreId) (rd : BitVec 5) (n : BitVec 5) (sel : BitVec 9) (s : State) : Host.Outcome State Fault Refusal :=
  s.act (fun m => m.issue c (Instr.uses (.bankrd c rd n sel)) (bodyBankrd rd.toNat n.toNat sel.toNat))

/-- BANKWR (R202). -/
def execBankwr (c : CoreId) (rd : BitVec 5) (n : BitVec 5) (sel : BitVec 9) (s : State) : Host.Outcome State Fault Refusal :=
  s.act (fun m => m.issue c (Instr.uses (.bankwr c rd n sel)) (bodyBankwr rd.toNat n.toNat sel.toNat))

/-- CTXSAVE.LO (R198 to R201). -/
def execCtxsaveLo (c : CoreId) (kl kb : KReg) (n : BitVec 5) (s : State) : Host.Outcome State Fault Refusal :=
  s.act (fun m => m.issue c (Instr.uses (.ctxsaveLo c kl kb n)) (bodyCtxsave 0 kl kb n.toNat))

/-- CTXSAVE.HI (R198 to R201). -/
def execCtxsaveHi (c : CoreId) (kb : KReg) (n : BitVec 5) (s : State) : Host.Outcome State Fault Refusal :=
  s.act (fun m => m.issue c (Instr.uses (.ctxsaveHi c kb n)) (bodyCtxsave 1 0 kb n.toNat))

/-- CTXLOAD.LO (R198 to R201). -/
def execCtxloadLo (c : CoreId) (kd kb : KReg) (n : BitVec 5) (s : State) : Host.Outcome State Fault Refusal :=
  s.act (fun m => m.issue c (Instr.uses (.ctxloadLo c kd kb n)) (bodyCtxload 2 kd kb n.toNat))

/-- CTXLOAD.HI (R198 to R201). -/
def execCtxloadHi (c : CoreId) (kb : KReg) (n : BitVec 5) (s : State) : Host.Outcome State Fault Refusal :=
  s.act (fun m => m.issue c (Instr.uses (.ctxloadHi c kb n)) (bodyCtxload 3 0 kb n.toNat))

end Sys2Proof.Machine
end

