-- ==== Sys2Proof/Machine/TimeOps.lean ====
section
/-!
DEFINITION. Sys2Proof/Machine/TimeOps.lean: the meanings of the commands of the time base, the schedule slots and the chess
clocks (R105 to R132), but for those of the mesh.
-/
namespace Sys2Proof.Machine

/-! ### The time base -/

/-- Whether the 10 MHz input is there and within 5 ppm, 21,474 units of 2^-32, as the module oscillator measures it (R114). -/
def clkGood (c : Clk10) : Bool := c.present && decide (c.rate.toInt.natAbs ≤ 21474)

/-- A 1PPS edge (R114). With source 3 the frequency is the 10 MHz input's; without a good one the interval is a missing one, and the
last rate is kept. -/
def Mod.ppsEdge (m : Mod) (c : Clk10) : Mod :=
  let src := m.tbSrc
  if src ≠ 3 ∧ src ≠ 4 then m
  else
    let sec := m.rd F.TB_PPS_SEC_SEC
    let off : Int := (m.now : Int) - ((sec * 1000000000 + m.rd F.TB_PPS_DELAY_DELAY : Nat) : Int)
    let m := m.wr F.TB_PPS_SEC_SEC 0 (sec + 1)
    let m := m.iff (src = 3 && clkGood c) (fun m => { m with rate10 := c.rate.toInt })
    m.iff (src = 4 || clkGood c) (fun m => m.syncOffset off)

/-- PPS_EDGE (R114). -/
def execPpsEdge (c : Clk10) (s : State) : Host.Outcome State Fault Refusal := s.act (fun m => m.ppsEdge c)

/-- TB_PHASE_WRITE (R113). -/
def execTbPhaseWrite (_w : Writer) (delta : BitVec 32) (s : State) : Host.Outcome State Fault Refusal :=
  s.act (fun m => m.tbPhase delta.toInt)

/-- TB_STEP_WRITE (R108). -/
def execTbStepWrite (_w : Writer) (t : BitVec 64) (s : State) : Host.Outcome State Fault Refusal := s.act (fun m => m.tbStep t.toNat)

/-- TB_FREQ_WRITE (R113). -/
def execTbFreqWrite (_w : Writer) (adj : BitVec 32) (s : State) : Host.Outcome State Fault Refusal := s.act (fun m => m.tbFreq adj.toNat)

/-- HOLDOVER_START (R110). -/
def execHoldoverStart (s : State) : Host.Outcome State Fault Refusal := s.act Mod.syncMissing

/-- The HOLD seconds of holdover have passed (R110). -/
def Mod.holdExpiry (m : Mod) : Mod :=
  if m.tbSrc ≠ 0 ∧ m.flag F.TB_STATUS_HOLDOVER then (m.toMono (m.holdFrom + m.rd F.TB_CTRL_HOLD * 1000000000)).setLocked false else m

/-- HOLD_EXPIRY (R110). -/
def execHoldExpiry (s : State) : Host.Outcome State Fault Refusal := s.act Mod.holdExpiry

/-- Time runs until the outstanding correction has been slewed out (R108). -/
def Mod.slewOut (m : Mod) : Mod :=
  let adj := m.freqAdj
  let rate := (if m.corr ≥ 0 then slewLimit - adj else slewLimit + adj).toNat
  if rate = 0 then m else m.advance ((m.corr.natAbs + rate - 1) / rate)

/-- SLEW_COMPLETE (R108). -/
def execSlewComplete (s : State) : Host.Outcome State Fault Refusal := s.act Mod.slewOut

/-! ### Schedule slots (R116 to R118) -/

/-- Slot `sl` yields instant `t`. -/
def Mod.slotInstant (m : Mod) (sl t : Nat) : Mod :=
  if !m.slotYields sl t then m
  else
    let m := m.toNow t
    let m := m.setSlot sl { m.slot sl with last := some t, events := (m.slot sl).events ++ [t] }
    (m.wr F.SCH_COUNT_COUNT sl (m.rd F.SCH_COUNT_COUNT sl + 1)).occur (0x100 + sl)

/-- SLOT_INSTANT (R116). -/
def execSlotInstant (sl : SlotId) (t : BitVec 64) (s : State) : Host.Outcome State Fault Refusal :=
  s.act (fun m => m.slotInstant sl t.toNat)

/-- The event of an instant the slot has yielded, at T + D, once. -/
def Mod.slotEvent (m : Mod) (sl t : Nat) : Mod :=
  let k := m.slot sl
  if !k.events.contains t then m
  else ((m.toNow (t + m.slotDelay sl t)).setSlot sl { k with events := k.events.erase t }).raise (224 + sl)

/-- SLOT_EVENT (R117); `t` is the instant T. -/
def execSlotEvent (sl : SlotId) (t : BitVec 64) (s : State) : Host.Outcome State Fault Refusal :=
  s.act (fun m => m.slotEvent sl t.toNat)

/-! ### Chess clocks -/

/-- The oldest occurrence on its way to clock `n` reaches it, 10 to 30 ns after its source (R121): `f` with the instant of TB_MONO. -/
def Mod.arrival (m : Mod) (n : Nat) (start : Bool) (f : Mod → Nat → Mod) : Mod :=
  match m.heard.find? (fun e => e.1 == n && e.2.1 == start) with
  | none => m
  | some e =>
    let m := { m with heard := m.heard.erase e }.toMono (e.2.2 + 10)
    let m := f m (Nat.min m.mono (e.2.2 + 30))
    if m.heard.any (fun x => x.2.2 == e.2.2) then m else { m with heardNow := Tbl.erase m.heardNow (e.2.2 + 30) }

/-- CLOCK_START_ARRIVAL (R121). -/
def execClockStartArrival (n : ClockId) (s : State) : Host.Outcome State Fault Refusal :=
  s.act (fun m => m.arrival n true (fun m t => m.clkStart n t))

/-- CLOCK_STOP_ARRIVAL (R121). -/
def execClockStopArrival (n : ClockId) (s : State) : Host.Outcome State Fault Refusal :=
  s.act (fun m => m.arrival n false (fun m t => m.clkStop n t))

/-- A running clock's time comes: the flag falls at LIMIT + 1 ns. -/
def Mod.flagFall (m : Mod) (n : Nat) : Mod :=
  match m.clkDue n with
  | some t => (m.toMono t).clkFall n t false false
  | none => m

/-- FLAG_FALL (R124). -/
def execFlagFall (n : ClockId) (s : State) : Host.Outcome State Fault Refusal := s.act (fun m => m.flagFall n)

/-- CLK_CMD_START (R120). -/
def execClkCmdStart (_w : Writer) (n : ClockId) (s : State) : Host.Outcome State Fault Refusal := s.act (fun m => m.clkCmdStart n)

/-- CLK_CMD_STOP (R120). -/
def execClkCmdStop (_w : Writer) (n : ClockId) (s : State) : Host.Outcome State Fault Refusal := s.act (fun m => m.clkCmdStop n)

/-- CLK_CMD_RELEASE (R126). -/
def execClkCmdRelease (_w : Writer) (n : ClockId) (s : State) : Host.Outcome State Fault Refusal := s.act (fun m => m.clkCmdRelease n)

end Sys2Proof.Machine
end

