-- ==== Sys2Proof/Machine/Dispatch.lean ====
section
/-!
DEFINITION. Sys2Proof/Machine/Dispatch.lean: which meaning each command has.
-/
namespace Sys2Proof.Machine

def exec (i : Instr) (s : State) : Host.Outcome State Fault Refusal :=
  match i with
  | .powerGood => Sys2Proof.Machine.execPowerGood s
  | .prechargeDone => Sys2Proof.Machine.execPrechargeDone s
  | .holdupCharged => Sys2Proof.Machine.execHoldupCharged s
  | .gooseRunning => Sys2Proof.Machine.execGooseRunning s
  | .spinePowerOn => Sys2Proof.Machine.execSpinePowerOn s
  | .rookFirmwareVerified v0 v1 => Sys2Proof.Machine.execRookFirmwareVerified v0 v1 s
  | .sheepdogStart va vb => Sys2Proof.Machine.execSheepdogStart va vb s
  | .carrierDescriptorRead reads verdicts => Sys2Proof.Machine.execCarrierDescriptorRead reads verdicts s
  | .position1ClaimTimeout => Sys2Proof.Machine.execPosition1ClaimTimeout s
  | .lambService => Sys2Proof.Machine.execLambService s
  | .dramSuppliesUp => Sys2Proof.Machine.execDramSuppliesUp s
  | .dramTrainingDone failed => Sys2Proof.Machine.execDramTrainingDone failed s
  | .trainingRetry failed => Sys2Proof.Machine.execTrainingRetry failed s
  | .dramFillDone => Sys2Proof.Machine.execDramFillDone s
  | .codeSectorCheck => Sys2Proof.Machine.execCodeSectorCheck s
  | .sectorReprogramDone g sector => Sys2Proof.Machine.execSectorReprogramDone g sector s
  | .fullService => Sys2Proof.Machine.execFullService s
  | .gooseWatchChange what => Sys2Proof.Machine.execGooseWatchChange what s
  | .sheepdogHeartbeatTimeout => Sys2Proof.Machine.execSheepdogHeartbeatTimeout s
  | .timeKeeperSecond => Sys2Proof.Machine.execTimeKeeperSecond s
  | .gooseRestart domainLost => Sys2Proof.Machine.execGooseRestart domainLost s
  | .hello sess major minor seq => Sys2Proof.Machine.execHello sess major minor seq s
  | .status sess seq => Sys2Proof.Machine.execStatus sess seq s
  | .logRead sess seq => Sys2Proof.Machine.execLogRead sess seq s
  | .sidebandTimeGet sess seq => Sys2Proof.Machine.execSidebandTimeGet sess seq s
  | .timeSet sess seq token t => Sys2Proof.Machine.execTimeSet sess seq token t s
  | .sidebandRegRead sess seq off wide => Sys2Proof.Machine.execSidebandRegRead sess seq off wide s
  | .sidebandSigRead sess seq ids => Sys2Proof.Machine.execSidebandSigRead sess seq ids s
  | .relay sess seq slot payload v => Sys2Proof.Machine.execRelay sess seq slot payload v s
  | .power sess seq token on => Sys2Proof.Machine.execPower sess seq token on s
  | .reset sess seq token region => Sys2Proof.Machine.execReset sess seq token region s
  | .fwRecover sess seq image v => Sys2Proof.Machine.execFwRecover sess seq image v s
  | .attest sess seq nonce => Sys2Proof.Machine.execAttest sess seq nonce s
  | .debugAuth sess seq tok => Sys2Proof.Machine.execDebugAuth sess seq tok s
  | .debugChallengeRead => Sys2Proof.Machine.execDebugChallengeRead s
  | .debugToken tok => Sys2Proof.Machine.execDebugToken tok s
  | .debugAuthExpiry => Sys2Proof.Machine.execDebugAuthExpiry s
  | .debugAccess acc => Sys2Proof.Machine.execDebugAccess acc s
  | .lifecycleTransition dest owner sigOk => Sys2Proof.Machine.execLifecycleTransition dest owner sigOk s
  | .registerWrite a => Sys2Proof.Machine.execRegisterWrite a s
  | .counterClear a => Sys2Proof.Machine.execCounterClear a s
  | .stFieldWrite a => Sys2Proof.Machine.execStFieldWrite a s
  | .configCommit => Sys2Proof.Machine.execConfigCommit s
  | .frontEndReconfigured p => Sys2Proof.Machine.execFrontEndReconfigured p s
  | .netchk w p => Sys2Proof.Machine.execNetchk w p s
  | .networkCheckDone p ohms => Sys2Proof.Machine.execNetworkCheckDone p ohms s
  | .t1lLinkUp p full sqi => Sys2Proof.Machine.execT1lLinkUp p full sqi s
  | .t1lLinkDown p => Sys2Proof.Machine.execT1lLinkDown p s
  | .transitionEnd p => Sys2Proof.Machine.execTransitionEnd p s
  | .pulseEdge p => Sys2Proof.Machine.execPulseEdge p s
  | .quadratureTransition p q => Sys2Proof.Machine.execQuadratureTransition p q s
  | .discreteChange p high => Sys2Proof.Machine.execDiscreteChange p high s
  | .discreteChangeConfirmed p => Sys2Proof.Machine.execDiscreteChangeConfirmed p s
  | .openWireDetected p present => Sys2Proof.Machine.execOpenWireDetected p present s
  | .outputDeviation p present => Sys2Proof.Machine.execOutputDeviation p present s
  | .overrange p present => Sys2Proof.Machine.execOverrange p present s
  | .diagnosticScan b moved ohms => Sys2Proof.Machine.execDiagnosticScan b moved ohms s
  | .hartCarrierDetect p mvpp => Sys2Proof.Machine.execHartCarrierDetect p mvpp s
  | .hartReceiveFrame p fr => Sys2Proof.Machine.execHartReceiveFrame p fr s
  | .hartGapTimeout p fr => Sys2Proof.Machine.execHartGapTimeout p fr s
  | .hartTransmitFrame g => Sys2Proof.Machine.execHartTransmitFrame g s
  | .hartTransmitDone p => Sys2Proof.Machine.execHartTransmitDone p s
  | .t1lFrameReceive p fr => Sys2Proof.Machine.execT1lFrameReceive p fr s
  | .tdrStart w p => Sys2Proof.Machine.execTdrStart w p s
  | .tdrAbort w p => Sys2Proof.Machine.execTdrAbort w p s
  | .tdrRunEnd p points => Sys2Proof.Machine.execTdrRunEnd p points s
  | .tdrdoneRelease w p => Sys2Proof.Machine.execTdrdoneRelease w p s
  | .dieLinkLoss d => Sys2Proof.Machine.execDieLinkLoss d s
  | .mainDieLinkLoss d => Sys2Proof.Machine.execMainDieLinkLoss d s
  | .dieLinkReturn d => Sys2Proof.Machine.execDieLinkReturn d s
  | .holdtExpiry b => Sys2Proof.Machine.execHoldtExpiry b s
  | .switchForward ingress fr => Sys2Proof.Machine.execSwitchForward ingress fr s
  | .entryAgeout e => Sys2Proof.Machine.execEntryAgeout e s
  | .fswTblRead w space index => Sys2Proof.Machine.execFswTblRead w space index s
  | .fswTblStageWrite w space index => Sys2Proof.Machine.execFswTblStageWrite w space index s
  | .fswTblStageInvalidate w space index => Sys2Proof.Machine.execFswTblStageInvalidate w space index s
  | .tableCommandComplete => Sys2Proof.Machine.execTableCommandComplete s
  | .linkTransmitSlot g => Sys2Proof.Machine.execLinkTransmitSlot g s
  | .ringIndexWrite w g ring index => Sys2Proof.Machine.execRingIndexWrite w g ring index s
  | .chainOutput p chainB t code => Sys2Proof.Machine.execChainOutput p chainB t code s
  | .commitCapture b t => Sys2Proof.Machine.execCommitCapture b t s
  | .commitApply b t => Sys2Proof.Machine.execCommitApply b t s
  | .commitStatusWrite b t => Sys2Proof.Machine.execCommitStatusWrite b t s
  | .steppedCommitApply b => Sys2Proof.Machine.execSteppedCommitApply b s
  | .ppsEdge clk10 => Sys2Proof.Machine.execPpsEdge clk10 s
  | .tbPhaseWrite w delta => Sys2Proof.Machine.execTbPhaseWrite w delta s
  | .tbStepWrite w t => Sys2Proof.Machine.execTbStepWrite w t s
  | .tbFreqWrite w adj => Sys2Proof.Machine.execTbFreqWrite w adj s
  | .holdoverStart => Sys2Proof.Machine.execHoldoverStart s
  | .holdExpiry => Sys2Proof.Machine.execHoldExpiry s
  | .grandmasterElection node => Sys2Proof.Machine.execGrandmasterElection node s
  | .timeProbeSend l => Sys2Proof.Machine.execTimeProbeSend l s
  | .timeProbe l f => Sys2Proof.Machine.execTimeProbe l f s
  | .timeEcho l f => Sys2Proof.Machine.execTimeEcho l f s
  | .timeSync l f => Sys2Proof.Machine.execTimeSync l f s
  | .slotInstant sl t => Sys2Proof.Machine.execSlotInstant sl t s
  | .slotEvent sl t => Sys2Proof.Machine.execSlotEvent sl t s
  | .clockStartArrival n => Sys2Proof.Machine.execClockStartArrival n s
  | .clockStopArrival n => Sys2Proof.Machine.execClockStopArrival n s
  | .flagFall n => Sys2Proof.Machine.execFlagFall n s
  | .clkCmdStart w n => Sys2Proof.Machine.execClkCmdStart w n s
  | .clkCmdStop w n => Sys2Proof.Machine.execClkCmdStop w n s
  | .clkCmdRelease w n => Sys2Proof.Machine.execClkCmdRelease w n s
  | .pair c a b => Sys2Proof.Machine.execPair c a b s
  | .add c rd rs1 rs2 => Sys2Proof.Machine.execAdd c rd rs1 rs2 s
  | .sub c rd rs1 rs2 => Sys2Proof.Machine.execSub c rd rs1 rs2 s
  | .and c rd rs1 rs2 => Sys2Proof.Machine.execAnd c rd rs1 rs2 s
  | .or c rd rs1 rs2 => Sys2Proof.Machine.execOr c rd rs1 rs2 s
  | .xor c rd rs1 rs2 => Sys2Proof.Machine.execXor c rd rs1 rs2 s
  | .sll c rd rs1 rs2 => Sys2Proof.Machine.execSll c rd rs1 rs2 s
  | .srl c rd rs1 rs2 => Sys2Proof.Machine.execSrl c rd rs1 rs2 s
  | .sra c rd rs1 rs2 => Sys2Proof.Machine.execSra c rd rs1 rs2 s
  | .slt c rd rs1 rs2 => Sys2Proof.Machine.execSlt c rd rs1 rs2 s
  | .sltu c rd rs1 rs2 => Sys2Proof.Machine.execSltu c rd rs1 rs2 s
  | .min c rd rs1 rs2 => Sys2Proof.Machine.execMin c rd rs1 rs2 s
  | .max c rd rs1 rs2 => Sys2Proof.Machine.execMax c rd rs1 rs2 s
  | .minu c rd rs1 rs2 => Sys2Proof.Machine.execMinu c rd rs1 rs2 s
  | .maxu c rd rs1 rs2 => Sys2Proof.Machine.execMaxu c rd rs1 rs2 s
  | .mul c rd rs1 rs2 => Sys2Proof.Machine.execMul c rd rs1 rs2 s
  | .mulh c rd rs1 rs2 => Sys2Proof.Machine.execMulh c rd rs1 rs2 s
  | .mulhu c rd rs1 rs2 => Sys2Proof.Machine.execMulhu c rd rs1 rs2 s
  | .div c rd rs1 rs2 => Sys2Proof.Machine.execDiv c rd rs1 rs2 s
  | .divu c rd rs1 rs2 => Sys2Proof.Machine.execDivu c rd rs1 rs2 s
  | .rem c rd rs1 rs2 => Sys2Proof.Machine.execRem c rd rs1 rs2 s
  | .remu c rd rs1 rs2 => Sys2Proof.Machine.execRemu c rd rs1 rs2 s
  | .addi c rd rs1 imm => Sys2Proof.Machine.execAddi c rd rs1 imm s
  | .slti c rd rs1 imm => Sys2Proof.Machine.execSlti c rd rs1 imm s
  | .sltiu c rd rs1 imm => Sys2Proof.Machine.execSltiu c rd rs1 imm s
  | .andi c rd rs1 imm => Sys2Proof.Machine.execAndi c rd rs1 imm s
  | .ori c rd rs1 imm => Sys2Proof.Machine.execOri c rd rs1 imm s
  | .xori c rd rs1 imm => Sys2Proof.Machine.execXori c rd rs1 imm s
  | .slli c rd rs1 sh => Sys2Proof.Machine.execSlli c rd rs1 sh s
  | .srli c rd rs1 sh => Sys2Proof.Machine.execSrli c rd rs1 sh s
  | .srai c rd rs1 sh => Sys2Proof.Machine.execSrai c rd rs1 sh s
  | .insi c n rd rs1 imm => Sys2Proof.Machine.execInsi c n rd rs1 imm s
  | .beq c rs1 rs2 off => Sys2Proof.Machine.execBeq c rs1 rs2 off s
  | .bne c rs1 rs2 off => Sys2Proof.Machine.execBne c rs1 rs2 off s
  | .blt c rs1 rs2 off => Sys2Proof.Machine.execBlt c rs1 rs2 off s
  | .bge c rs1 rs2 off => Sys2Proof.Machine.execBge c rs1 rs2 off s
  | .bltu c rs1 rs2 off => Sys2Proof.Machine.execBltu c rs1 rs2 off s
  | .bgeu c rs1 rs2 off => Sys2Proof.Machine.execBgeu c rs1 rs2 off s
  | .j c off => Sys2Proof.Machine.execJ c off s
  | .loop c n rs1 imm => Sys2Proof.Machine.execLoop c n rs1 imm s
  | .rep c rs1 target => Sys2Proof.Machine.execRep c rs1 target s
  | .ldb c r kb off => Sys2Proof.Machine.execLdb c r kb off s
  | .ldbu c r kb off => Sys2Proof.Machine.execLdbu c r kb off s
  | .ldh c r kb off => Sys2Proof.Machine.execLdh c r kb off s
  | .ldhu c r kb off => Sys2Proof.Machine.execLdhu c r kb off s
  | .ldw c r kb off => Sys2Proof.Machine.execLdw c r kb off s
  | .ldwu c r kb off => Sys2Proof.Machine.execLdwu c r kb off s
  | .ldd c r kb off => Sys2Proof.Machine.execLdd c r kb off s
  | .ldf c r kb off => Sys2Proof.Machine.execLdf c r kb off s
  | .stb c r kb off => Sys2Proof.Machine.execStb c r kb off s
  | .sth c r kb off => Sys2Proof.Machine.execSth c r kb off s
  | .stw c r kb off => Sys2Proof.Machine.execStw c r kb off s
  | .std c r kb off => Sys2Proof.Machine.execStd c r kb off s
  | .stf c r kb off => Sys2Proof.Machine.execStf c r kb off s
  | .ldk c kd kb off => Sys2Proof.Machine.execLdk c kd kb off s
  | .stk c ks kb off => Sys2Proof.Machine.execStk c ks kb off s
  | .lduW c r kb off => Sys2Proof.Machine.execLduW c r kb off s
  | .lduD c r kb off => Sys2Proof.Machine.execLduD c r kb off s
  | .stuW c r kb off => Sys2Proof.Machine.execStuW c r kb off s
  | .stuD c r kb off => Sys2Proof.Machine.execStuD c r kb off s
  | .amoadd c wide rd v ks => Sys2Proof.Machine.execAmoadd c wide rd v ks s
  | .amoswp c wide rd v ks => Sys2Proof.Machine.execAmoswp c wide rd v ks s
  | .cas c wide rd v ks => Sys2Proof.Machine.execCas c wide rd v ks s
  | .kcas c kd ks kt => Sys2Proof.Machine.execKcas c kd ks kt s
  | .kmove c kd ks => Sys2Proof.Machine.execKmove c kd ks s
  | .kadd c kd ks rs => Sys2Proof.Machine.execKadd c kd ks rs s
  | .kbound c kd ks rs => Sys2Proof.Machine.execKbound c kd ks rs s
  | .kboundr c kd ks rs => Sys2Proof.Machine.execKboundr c kd ks rs s
  | .krights c kd ks rs => Sys2Proof.Machine.execKrights c kd ks rs s
  | .kloc c kd ks rs => Sys2Proof.Machine.execKloc c kd ks rs s
  | .kseal c kd ks kt => Sys2Proof.Machine.execKseal c kd ks kt s
  | .kunseal c kd ks kt => Sys2Proof.Machine.execKunseal c kd ks kt s
  | .kreepoch c kd ks rs => Sys2Proof.Machine.execKreepoch c kd ks rs s
  | .ktest c rd ks kt => Sys2Proof.Machine.execKtest c rd ks kt s
  | .kget c rd ks f => Sys2Proof.Machine.execKget c rd ks f s
  | .jk c ks => Sys2Proof.Machine.execJk c ks s
  | .jkl c kd ks => Sys2Proof.Machine.execJkl c kd ks s
  | .mcpy c kd ks rs => Sys2Proof.Machine.execMcpy c kd ks rs s
  | .mset c kd rv rs => Sys2Proof.Machine.execMset c kd rv rs s
  | .ctxsaveLo c kl kb n => Sys2Proof.Machine.execCtxsaveLo c kl kb n s
  | .ctxsaveHi c kb n => Sys2Proof.Machine.execCtxsaveHi c kb n s
  | .ctxloadLo c kd kb n => Sys2Proof.Machine.execCtxloadLo c kd kb n s
  | .ctxloadHi c kb n => Sys2Proof.Machine.execCtxloadHi c kb n s
  | .fadd c single fd fs1 fs2 => Sys2Proof.Machine.execFadd c single fd fs1 fs2 s
  | .fsub c single fd fs1 fs2 => Sys2Proof.Machine.execFsub c single fd fs1 fs2 s
  | .fmul c single fd fs1 fs2 => Sys2Proof.Machine.execFmul c single fd fs1 fs2 s
  | .fma c single fd fs1 fs2 => Sys2Proof.Machine.execFma c single fd fs1 fs2 s
  | .fdiv c single fd fs1 fs2 => Sys2Proof.Machine.execFdiv c single fd fs1 fs2 s
  | .fsqrt c single fd fs1 => Sys2Proof.Machine.execFsqrt c single fd fs1 s
  | .fmin c single fd fs1 fs2 => Sys2Proof.Machine.execFmin c single fd fs1 fs2 s
  | .fmax c single fd fs1 fs2 => Sys2Proof.Machine.execFmax c single fd fs1 fs2 s
  | .fmov c fd fs1 => Sys2Proof.Machine.execFmov c fd fs1 s
  | .fneg c fd fs1 => Sys2Proof.Machine.execFneg c fd fs1 s
  | .fabs c fd fs1 => Sys2Proof.Machine.execFabs c fd fs1 s
  | .fcmpEq c single rd fs1 fs2 => Sys2Proof.Machine.execFcmpEq c single rd fs1 fs2 s
  | .fcmpLt c single rd fs1 fs2 => Sys2Proof.Machine.execFcmpLt c single rd fs1 fs2 s
  | .fcmpLe c single rd fs1 fs2 => Sys2Proof.Machine.execFcmpLe c single rd fs1 fs2 s
  | .fcmpUn c single rd fs1 fs2 => Sys2Proof.Machine.execFcmpUn c single rd fs1 fs2 s
  | .fcvtDL c single fd rs1 => Sys2Proof.Machine.execFcvtDL c single fd rs1 s
  | .fcvtLD c single rd fs1 => Sys2Proof.Machine.execFcvtLD c single rd fs1 s
  | .fcvtDS c fd fs1 => Sys2Proof.Machine.execFcvtDS c fd fs1 s
  | .fcvtSD c fd fs1 => Sys2Proof.Machine.execFcvtSD c fd fs1 s
  | .fmvX c rd fs1 => Sys2Proof.Machine.execFmvX c rd fs1 s
  | .fmvF c fd rs1 => Sys2Proof.Machine.execFmvF c fd rs1 s
  | .srd c rd num => Sys2Proof.Machine.execSrd c rd num s
  | .swr c rs1 num => Sys2Proof.Machine.execSwr c rs1 num s
  | .fence c => Sys2Proof.Machine.execFence c s
  | .gateSync c => Sys2Proof.Machine.execGateSync c s
  | .ewait c => Sys2Proof.Machine.execEwait c s
  | .ewaitWake c => Sys2Proof.Machine.execEwaitWake c s
  | .eret c => Sys2Proof.Machine.execEret c s
  | .bankrd c rd n sel => Sys2Proof.Machine.execBankrd c rd n sel s
  | .bankwr c rd n sel => Sys2Proof.Machine.execBankwr c rd n sel s
  | .trap c code => Sys2Proof.Machine.execTrap c code s
  | .interruptEntry c spillErr => Sys2Proof.Machine.execInterruptEntry c spillErr s
  | .eventLatch c src => Sys2Proof.Machine.execEventLatch c src s
  | .evdDoorbell w c => Sys2Proof.Machine.execEvdDoorbell w c s
  | .evdPendClear w c k bits => Sys2Proof.Machine.execEvdPendClear w c k bits s
  | .storeAcknowledge c => Sys2Proof.Machine.execStoreAcknowledge c s
  | .loadResponse c => Sys2Proof.Machine.execLoadResponse c s
  | .l1MissFill c fetch line epoch => Sys2Proof.Machine.execL1MissFill c fetch line epoch s
  | .sliceMissFill line errs fault => Sys2Proof.Machine.execSliceMissFill line errs fault s
  | .victimWriteAccepted sl => Sys2Proof.Machine.execVictimWriteAccepted sl s
  | .conversionDone g => Sys2Proof.Machine.execConversionDone g s
  | .wayPowerDownDone g => Sys2Proof.Machine.execWayPowerDownDone g s
  | .clean w g => Sys2Proof.Machine.execClean w g s
  | .cleanInval w g => Sys2Proof.Machine.execCleanInval w g s
  | .inval w g discard => Sys2Proof.Machine.execInval w g discard s
  | .warm w g => Sys2Proof.Machine.execWarm w g s
  | .zero w g => Sys2Proof.Machine.execZero w g s
  | .rangeOpDone g => Sys2Proof.Machine.execRangeOpDone g s
  | .csErase w g => Sys2Proof.Machine.execCsErase w g s
  | .csProgram w g => Sys2Proof.Machine.execCsProgram w g s
  | .csCommandDone g verified => Sys2Proof.Machine.execCsCommandDone g verified s
  | .refresh sub => Sys2Proof.Machine.execRefresh sub s
  | .zqCalibration sub => Sys2Proof.Machine.execZqCalibration sub s
  | .patrolScrub errs => Sys2Proof.Machine.execPatrolScrub errs s
  | .dramTemperature t sub dev => Sys2Proof.Machine.execDramTemperature t sub dev s
  | .sweepStart w hold keep rate => Sys2Proof.Machine.execSweepStart w hold keep rate s
  | .sweepPassDone pass => Sys2Proof.Machine.execSweepPassDone pass s
  | .sweepRelease w => Sys2Proof.Machine.execSweepRelease w s
  | .gateEntPendingWrite w gate e which v => Sys2Proof.Machine.execGateEntPendingWrite w gate e which v s
  | .gateEntApply w gate e ctrl => Sys2Proof.Machine.execGateEntApply w gate e ctrl s
  | .epochAdvance w gate e => Sys2Proof.Machine.execEpochAdvance w gate e s
  | .gateVqPop w => Sys2Proof.Machine.execGateVqPop w s
  | .laneSignalDetect l => Sys2Proof.Machine.execLaneSignalDetect l s
  | .pmdTrainingDone l => Sys2Proof.Machine.execPmdTrainingDone l s
  | .fecLock l => Sys2Proof.Machine.execFecLock l s
  | .linkHello l h => Sys2Proof.Machine.execLinkHello l h s
  | .attestationDone l e => Sys2Proof.Machine.execAttestationDone l e s
  | .linkUsable l => Sys2Proof.Machine.execLinkUsable l s
  | .bringupTimeout l => Sys2Proof.Machine.execBringupTimeout l s
  | .retrain w lg => Sys2Proof.Machine.execRetrain w lg s
  | .linkLost l => Sys2Proof.Machine.execLinkLost l s
  | .blockReceive l tagOk fecOk corrected => Sys2Proof.Machine.execBlockReceive l tagOk fecOk corrected s
  | .resendRequest l block => Sys2Proof.Machine.execResendRequest l block s
  | .keyRenewal l => Sys2Proof.Machine.execKeyRenewal l s
  | .flitForward l f data => Sys2Proof.Machine.execFlitForward l f data s
  | .rd l f => Sys2Proof.Machine.execRd l f s
  | .wr l f data => Sys2Proof.Machine.execWr l f data s
  | .atom l f => Sys2Proof.Machine.execAtom l f s
  | .kcasFlit l f => Sys2Proof.Machine.execKcasFlit l f s
  | .rdrun l f => Sys2Proof.Machine.execRdrun l f s
  | .wrrun l f data => Sys2Proof.Machine.execWrrun l f data s
  | .rdresp l f => Sys2Proof.Machine.execRdresp l f s
  | .runresp l f data => Sys2Proof.Machine.execRunresp l f data s
  | .ack l f => Sys2Proof.Machine.execAck l f s
  | .nack l f => Sys2Proof.Machine.execNack l f s
  | .requestTimeout tid => Sys2Proof.Machine.execRequestTimeout tid s
  | .member l m => Sys2Proof.Machine.execMember l m s
  | .gop l m => Sys2Proof.Machine.execGop l m s
  | .barrierArrive w b => Sys2Proof.Machine.execBarrierArrive w b s
  | .broadcast w len => Sys2Proof.Machine.execBroadcast w len s
  | .snapshot w => Sys2Proof.Machine.execSnapshot w s
  | .federationReset w => Sys2Proof.Machine.execFederationReset w s
  | .snapshotInstant => Sys2Proof.Machine.execSnapshotInstant s
  | .snapshotCopyDone => Sys2Proof.Machine.execSnapshotCopyDone s
  | .federationResetInstant => Sys2Proof.Machine.execFederationResetInstant s
  | .meshBcRxPop w => Sys2Proof.Machine.execMeshBcRxPop w s
  | .eth l fr => Sys2Proof.Machine.execEth l fr s
  | .gateControlEntry lg e => Sys2Proof.Machine.execGateControlEntry lg e s
  | .mxProdWrite w g index => Sys2Proof.Machine.execMxProdWrite w g index s
  | .matrixJobStart g => Sys2Proof.Machine.execMatrixJobStart g s
  | .matrixJobDone g => Sys2Proof.Machine.execMatrixJobDone g s
  | .mxEnable w g en => Sys2Proof.Machine.execMxEnable w g en s
  | .mxResume w g => Sys2Proof.Machine.execMxResume w g s
  | .mxAbort w g => Sys2Proof.Machine.execMxAbort w g s
  | .xfrStart w n => Sys2Proof.Machine.execXfrStart w n s
  | .xfrAbort w n => Sys2Proof.Machine.execXfrAbort w n s
  | .transferChunkDone n => Sys2Proof.Machine.execTransferChunkDone n s
  | .descriptorDone n => Sys2Proof.Machine.execDescriptorDone n s
  | .hostRead bar off size => Sys2Proof.Machine.execHostRead bar off size s
  | .hostWrite bar off data => Sys2Proof.Machine.execHostWrite bar off data s
  | .doorbell q index => Sys2Proof.Machine.execDoorbell q index s
  | .completionConsume q index => Sys2Proof.Machine.execCompletionConsume q index s
  | .hostReset kind => Sys2Proof.Machine.execHostReset kind s
  | .leaseExpiry => Sys2Proof.Machine.execLeaseExpiry s
  | .coalescingWindowEnd q => Sys2Proof.Machine.execCoalescingWindowEnd q s
  | .fwOutboxPost w q index => Sys2Proof.Machine.execFwOutboxPost w q index s
  | .sessionOpen q => Sys2Proof.Machine.execSessionOpen q s
  | .sessionClose q => Sys2Proof.Machine.execSessionClose q s
  | .nop q => Sys2Proof.Machine.execNop q s
  | .info q => Sys2Proof.Machine.execInfo q s
  | .lockAcquire q => Sys2Proof.Machine.execLockAcquire q s
  | .lockRelease q => Sys2Proof.Machine.execLockRelease q s
  | .lockStatus q => Sys2Proof.Machine.execLockStatus q s
  | .imgBegin q => Sys2Proof.Machine.execImgBegin q s
  | .imgWrite q => Sys2Proof.Machine.execImgWrite q s
  | .imgStage q v => Sys2Proof.Machine.execImgStage q v s
  | .imgCommit q => Sys2Proof.Machine.execImgCommit q s
  | .imgDiscard q => Sys2Proof.Machine.execImgDiscard q s
  | .takeback q => Sys2Proof.Machine.execTakeback q s
  | .history q => Sys2Proof.Machine.execHistory q s
  | .sigOpen q => Sys2Proof.Machine.execSigOpen q s
  | .sigRead q => Sys2Proof.Machine.execSigRead q s
  | .outOpen q => Sys2Proof.Machine.execOutOpen q s
  | .outWrite q => Sys2Proof.Machine.execOutWrite q s
  | .sigClose q => Sys2Proof.Machine.execSigClose q s
  | .winOpen q => Sys2Proof.Machine.execWinOpen q s
  | .winClose q => Sys2Proof.Machine.execWinClose q s
  | .evtSubscribe q => Sys2Proof.Machine.execEvtSubscribe q s
  | .evtUnsubscribe q => Sys2Proof.Machine.execEvtUnsubscribe q s
  | .msgFw q => Sys2Proof.Machine.execMsgFw q s
  | .msgRead q => Sys2Proof.Machine.execMsgRead q s
  | .diagPort q => Sys2Proof.Machine.execDiagPort q s
  | .diagTdr q => Sys2Proof.Machine.execDiagTdr q s
  | .diagErrlog q => Sys2Proof.Machine.execDiagErrlog q s
  | .regRead q => Sys2Proof.Machine.execRegRead q s
  | .timeGet q => Sys2Proof.Machine.execTimeGet q s
  | .timeStep q => Sys2Proof.Machine.execTimeStep q s
  | .timePhase q => Sys2Proof.Machine.execTimePhase q s
  | .twinStatus q => Sys2Proof.Machine.execTwinStatus q s
  | .castle q => Sys2Proof.Machine.execCastle q s
  | .fwBegin q => Sys2Proof.Machine.execFwBegin q s
  | .fwWrite q => Sys2Proof.Machine.execFwWrite q s
  | .fwActivate q => Sys2Proof.Machine.execFwActivate q s
  | .fwRestart q => Sys2Proof.Machine.execFwRestart q s
  | .fwConfirm q => Sys2Proof.Machine.execFwConfirm q s
  | .fwStatus q => Sys2Proof.Machine.execFwStatus q s
  | .sheepdogRestart => Sys2Proof.Machine.execSheepdogRestart s
  | .sheepdogReady => Sys2Proof.Machine.execSheepdogReady s
  | .trialTimeout => Sys2Proof.Machine.execTrialTimeout s
  | .federatedImageReceive from_ image slot v => Sys2Proof.Machine.execFederatedImageReceive from_ image slot v s
  | .memberStagingAnswer node ok => Sys2Proof.Machine.execMemberStagingAnswer node ok s
  | .federationHoldTimeout => Sys2Proof.Machine.execFederationHoldTimeout s
  | .prepare move digest => Sys2Proof.Machine.execPrepare move digest s
  | .prepareDone => Sys2Proof.Machine.execPrepareDone s
  | .memberAnswer node reason => Sys2Proof.Machine.execMemberAnswer node reason s
  | .answerTimeout node => Sys2Proof.Machine.execAnswerTimeout node s
  | .commitMessage at_ => Sys2Proof.Machine.execCommitMessage at_ s
  | .abortMessage discard => Sys2Proof.Machine.execAbortMessage discard s
  | .gateSectionApply => Sys2Proof.Machine.execGateSectionApply s
  | .commitReport node move late => Sys2Proof.Machine.execCommitReport node move late s
  | .orphanTimeout => Sys2Proof.Machine.execOrphanTimeout s
  | .probationEnd => Sys2Proof.Machine.execProbationEnd s
  | .takebackRequest member => Sys2Proof.Machine.execTakebackRequest member s
  | .commitDirectValues w => Sys2Proof.Machine.execCommitDirectValues w s
  | .cfgDiscard w => Sys2Proof.Machine.execCfgDiscard w s
  | .accept w => Sys2Proof.Machine.execAccept w s
  | .reject w => Sys2Proof.Machine.execReject w s
  | .cfgTakeback w moves => Sys2Proof.Machine.execCfgTakeback w moves s
  | .presenceMate => Sys2Proof.Machine.execPresenceMate s
  | .presenceLoss b => Sys2Proof.Machine.execPresenceLoss b s
  | .feedLoss => Sys2Proof.Machine.execFeedLoss s
  | .lossStandbyTimeout => Sys2Proof.Machine.execLossStandbyTimeout s
  | .holdupEnd => Sys2Proof.Machine.execHoldupEnd s
  | .twinClaimTimeout => Sys2Proof.Machine.execTwinClaimTimeout s
  | .peerClaimChange asserted => Sys2Proof.Machine.execPeerClaimChange asserted s
  | .peerClaimLostTakeover => Sys2Proof.Machine.execPeerClaimLostTakeover s
  | .heartbeatSend => Sys2Proof.Machine.execHeartbeatSend s
  | .heartbeat hb => Sys2Proof.Machine.execHeartbeat hb s
  | .heartbeatLoss => Sys2Proof.Machine.execHeartbeatLoss s
  | .mirror m => Sys2Proof.Machine.execMirror m s
  | .twinSyncStart => Sys2Proof.Machine.execTwinSyncStart s
  | .twinSyncCommit scores image slot v => Sys2Proof.Machine.execTwinSyncCommit scores image slot v s
  | .twinReady => Sys2Proof.Machine.execTwinReady s
  | .mirrorPass => Sys2Proof.Machine.execMirrorPass s
  | .mirrorPassEnd => Sys2Proof.Machine.execMirrorPassEnd s
  | .twinCmdCastle w => Sys2Proof.Machine.execTwinCmdCastle w s
  | .handoverClaim => Sys2Proof.Machine.execHandoverClaim s
  | .handover => Sys2Proof.Machine.execHandover s
  | .castlingDone => Sys2Proof.Machine.execCastlingDone s
  | .ejectPress => Sys2Proof.Machine.execEjectPress s
  | .ejectHoldTimeout => Sys2Proof.Machine.execEjectHoldTimeout s
  | .remove w => Sys2Proof.Machine.execRemove w s
  | .cancelEject w => Sys2Proof.Machine.execCancelEject w s
  | .escalation region blocks => Sys2Proof.Machine.execEscalation region blocks s
  | .release w g => Sys2Proof.Machine.execRelease w g s
  | .releaseD w => Sys2Proof.Machine.execReleaseD w s
  | .coreReset w c => Sys2Proof.Machine.execCoreReset w c s
  | .portReset w p => Sys2Proof.Machine.execPortReset w p s
  | .laneReset w l => Sys2Proof.Machine.execLaneReset w l s
  | .sliceReset w sl => Sys2Proof.Machine.execSliceReset w sl s
  | .pipelineReset w b => Sys2Proof.Machine.execPipelineReset w b s
  | .transferChannelReset w n => Sys2Proof.Machine.execTransferChannelReset w n s
  | .coreBlockReset w k => Sys2Proof.Machine.execCoreBlockReset w k s
  | .portBlockReset w b => Sys2Proof.Machine.execPortBlockReset w b s
  | .laneGroupReset w lg => Sys2Proof.Machine.execLaneGroupReset w lg s
  | .regionReset w g => Sys2Proof.Machine.execRegionReset w g s
  | .deviceReset w => Sys2Proof.Machine.execDeviceReset w s
  | .regionResetZeroed g => Sys2Proof.Machine.execRegionResetZeroed g s
  | .regionRestart g => Sys2Proof.Machine.execRegionRestart g s
  | .regionGateReapply g => Sys2Proof.Machine.execRegionGateReapply g s
  | .automaticCellReset c => Sys2Proof.Machine.execAutomaticCellReset c s
  | .fltQPop w => Sys2Proof.Machine.execFltQPop w s
  | .evrSw w bits => Sys2Proof.Machine.execEvrSw w bits s
  | .domainWakeDone d => Sys2Proof.Machine.execDomainWakeDone d s
  | .domainFault d => Sys2Proof.Machine.execDomainFault d s
  | .temperatureSample inlet junction => Sys2Proof.Machine.execTemperatureSample inlet junction s
  | .feedRangeChange b v => Sys2Proof.Machine.execFeedRangeChange b v s
  | .pwrInputWrite w => Sys2Proof.Machine.execPwrInputWrite w s
  | .illegalOpcode c word => Sys2Proof.Machine.execIllegalOpcode c word s
  | .instructionFetchFault c => Sys2Proof.Machine.execInstructionFetchFault c s
  | .creditReturn l vc => Sys2Proof.Machine.execCreditReturn l vc s
  | .commitReportTimeout => Sys2Proof.Machine.execCommitReportTimeout s
  | .spineParityError unit => Sys2Proof.Machine.execSpineParityError unit s
  | .ejectRelease => Sys2Proof.Machine.execEjectRelease s
  | .peerPresenceChange present => Sys2Proof.Machine.execPeerPresenceChange present s
  | .sidebandSessionClose sess => Sys2Proof.Machine.execSidebandSessionClose sess s
  | .hostLinkReturn => Sys2Proof.Machine.execHostLinkReturn s
  | .configurationRequest req => Sys2Proof.Machine.execConfigurationRequest req s
  | .rookVerificationDone v => Sys2Proof.Machine.execRookVerificationDone v s
  | .ethernetPortLinkChange lg up => Sys2Proof.Machine.execEthernetPortLinkChange lg up s
  | .egressFrameTransmit member => Sys2Proof.Machine.execEgressFrameTransmit member s
  | .slewComplete => Sys2Proof.Machine.execSlewComplete s
  | .chainSettlingEnd p chainB => Sys2Proof.Machine.execChainSettlingEnd p chainB s
  | .timeKeeperCountLost => Sys2Proof.Machine.execTimeKeeperCountLost s

end Sys2Proof.Machine
end

