-- ==== Sys2Proof/WellFormed.lean ====
section
/-!
DEFINITION. Sys2Proof/WellFormed.lean: which commands the outside world can send, where an operand's type admits more than
the spec does. A command with no clause of its own is well-formed whatever its operands hold. The meanings are total on
ill-formed commands too; no statement needs one.
-/
namespace Sys2Proof

/-- A list holds no value twice. -/
def noRepeats {α : Type} [DecidableEq α] : List α → Bool
  | [] => true
  | x :: xs => !xs.contains x && noRepeats xs

/-- A symbol error has a value, and a frame has one error a symbol (R261). -/
def FrameErr.wf (e : FrameErr) : Bool := e.all (fun x => x.2 != 0) && noRepeats (e.map Prod.fst)

/-- A frame a MAC accepts: 64 to 1,522 bytes with its FCS of 4 (R47, R322). -/
def EthFrame.wf (fr : EthFrame) : Bool := decide (60 ≤ fr.bytes.length) && decide (fr.bytes.length ≤ 1518)

/-- The flits that follow a header are as many as its FOLLOW announces (R303). -/
def runWf (f : Flit) (data : List Flit) : Bool := data.length == f.follow.toNat

/-- Whether a command is one the outside world can send. -/
def Instr.wf : Instr → Bool
  | .carrierDescriptorRead reads verdicts =>
    decide (1 ≤ reads.length) && decide (reads.length ≤ 3) && reads.all (fun r => decide (r.bytes.length ≤ 0x600)) &&
    noRepeats (verdicts.map Prod.fst)
  | .relay _ _ slot payload _ => slot.length == 64 && decide (payload.length ≤ 0x20000)
  | .debugAccess (.store _ data) => decide (1 ≤ data.length) && decide (data.length ≤ 8)
  | .debugAccess (.load _ size) => decide (1 ≤ size.val)
  | .diagnosticScan _ _ ohms => noRepeats (ohms.map Prod.fst)
  | .tdrRunEnd _ points => points.length == 16384
  | .switchForward _ fr => fr.wf
  | .eth _ fr => fr.wf
  | .sliceMissFill _ fill _ => FrameErr.wf fill.errs
  | .patrolScrub errs => FrameErr.wf errs
  | .sweepPassDone e => (e.pass == .dram || e.errs.isEmpty) && noRepeats (e.errs.map Prod.fst) && e.errs.all (fun x => FrameErr.wf x.2)
  | .flitForward _ f data => runWf f data
  | .wrrun _ f data => runWf f data
  | .runresp _ f data => runWf f data
  | .gop _ (.bcUp _ data) => decide (data.length ≤ 32)
  | .gop _ (.bcDown _ data) => decide (data.length ≤ 32)
  | .hostRead _ _ size => decide (1 ≤ size.val)
  | .hostWrite _ _ data => decide (1 ≤ data.length)
  | _ => true

end Sys2Proof
end

