-- ==== Sys2Proof/Claims.lean ====
section
/-!
DEFINITION. Sys2Proof/Claims.lean: the conditions and frames the statements are written with.
-/
namespace Sys2Proof.Machine

/-! ### Commands -/

/-- Command `i` answers a next state: the waiting commands stay and `P` holds of the module it leaves. -/
def Does (i : Instr) (s : State) (P : Mod → Prop) : Prop := ∃ t, exec i s = .next t ∧ t.pending = s.pending ∧ P t.mod

/-- From `m` to `t` every register but those named reads as before. -/
def OnlyRegs (l : List (Reg × Nat)) (m t : Mod) : Prop := ∀ r i, (r, i) ∉ l → t.reg r i = m.reg r i

/-- From `m` to `t` nothing but registers changes, and of these only those named; the past of traced registers follows them. -/
def OnlyRegsChange (l : List (Reg × Nat)) (m t : Mod) : Prop := OnlyRegs l m t ∧ { t with regs := m.regs, past := m.past } = m

/-! ### Mesh -/

/-- Link `l` has nothing waiting and a credit of VC 2 at hand. -/
abbrev FreeLink (m : Mod) (l : Nat) : Prop := (m.link l).waiting = [] ∧ (m.link l).used.getD 2 0 < m.credits l 2

/-! ### Cores -/

/-- Core `c` issues a word whose fetch succeeds: it runs, no deferred exception and no awaited access of its level holds the word, and the fetch
meets no fault and no error whose fault action resets the core (R141, R175, R449). -/
abbrev Ready (m : Mod) (c : Nat) : Prop :=
  m.canIssue c = true ∧ (∀ d ∈ (m.core c).due, d.level ≠ (m.core c).level) ∧ (∀ w ∈ (m.core c).waits, w.level ≠ (m.core c).level) ∧
  ((m.setCore c (m.core c).unstep).fetchFault c).2 = none ∧ ((((m.setCore c (m.core c).unstep).fetchFault c).1).core c).word = true

/-- The module once core `c` has fetched the word at ip: debug's single step used up, and the caches as the fetch leaves them (R232, R233, R290). -/
def Mod.fetched (m : Mod) (c : Nat) : Mod := ((m.setCore c (m.core c).unstep).fetchFault c).1

/-- The block once core `c` has fetched the word at ip. -/
def State.fetched (s : State) (c : Nat) : State := { s with mod := s.mod.fetched c }

/-- Core `k` as a fetched word that is no STU begins to execute: SPLIT clear (R183). -/
def Core.atIssue (k : Core) : Core := k.unsplit

/-- The module with core `c` as a fetched word begins to execute. -/
def Mod.issuing (m : Mod) (c : Nat) : Mod := m.setCore c (m.core c).atIssue

/-- From `m` to `t` core `c` becomes `k` and nothing else of the module changes; the waiting commands stay. -/
def CoreBecomes (q : List Instr) (m : Mod) (c : Nat) (k : Core) (t : State) : Prop :=
  t.pending = q ∧ t.mod.core c = k ∧ (∀ c', c' ≠ c → t.mod.core c' = m.core c') ∧ { t.mod with cores := m.cores } = m

/-- Core `k` as level `l` is entered at TB_MONO `t` for an exception or an event, which its entry notes unless it is M (R218, R219). -/
def Core.entering (k : Core) (l cause fip faddr t : Nat) (exc : Option PendExc) (src : Option (Nat × Nat × Bool)) : Core :=
  { k.enter l cause fip faddr with entry := if l = levelM then none else some ⟨k.level, t, !k.resident.contains l, exc, src⟩ }

/-- A word of core `c` that writes `v` to d register `rd` of the current level and completes in sequence. -/
def WritesD (c : CoreId) (rd : Nat) (v : Nat) (s t : State) : Prop :=
  let k := (s.mod.core c).atIssue
  CoreBecomes s.pending s.mod c (k.setD k.level rd v).next.retire t

/-- A word of core `c` that writes `v` to k register `kd` of the current level and completes in sequence. -/
def WritesK (c : CoreId) (kd : Nat) (v : Key) (s t : State) : Prop :=
  let k := (s.mod.core c).atIssue
  CoreBecomes s.pending s.mod c (k.setK k.level kd v).next.retire t

/-- A register as a 64-bit word. -/
def Mod.word (m : Mod) (c r : Nat) : BitVec 64 := BitVec.ofNat 64 (m.cd c r)

/-! ### Mailbox commands -/

/-- Command `i` is the mailbox command of opcode `op` of a pair (R365); `v` is the Rook's verdict where one is needed. -/
abbrev MailboxRow (q : PairId) (v : Verdict) (op : Nat) (i : Instr) : Prop :=
  (op, i) ∈ (
  [(0x0001, .sessionOpen q), (0x0002, .sessionClose q), (0x0003, .nop q), (0x0004, .info q), (0x0101, .lockAcquire q)] ++
  [(0x0102, .lockRelease q), (0x0103, .lockStatus q), (0x0110, .imgBegin q), (0x0111, .imgWrite q), (0x0112, .imgStage q v)] ++
  [(0x0113, .imgCommit q), (0x0114, .imgDiscard q), (0x0115, .takeback q), (0x0116, .history q), (0x0201, .sigOpen q)] ++
  [(0x0202, .sigRead q), (0x0203, .outOpen q), (0x0204, .outWrite q), (0x0205, .sigClose q), (0x0301, .winOpen q)] ++
  [(0x0302, .winClose q), (0x0401, .evtSubscribe q), (0x0402, .evtUnsubscribe q), (0x0403, .msgFw q), (0x0404, .msgRead q)] ++
  [(0x0501, .diagPort q), (0x0502, .diagTdr q), (0x0503, .diagErrlog q), (0x0504, .regRead q), (0x0601, .timeGet q)] ++
  [(0x0602, .timeStep q), (0x0603, .timePhase q), (0x0701, .twinStatus q), (0x0702, .castle q), (0x0801, .fwBegin q)] ++
  [(0x0802, .fwWrite q), (0x0803, .fwActivate q), (0x0804, .fwRestart q), (0x0805, .fwConfirm q), (0x0806, .fwStatus q)] : List (Nat × Instr))

/-- The Sheepdog may begin the first command of a pair, an `op`: nothing bars it. -/
abbrev CmdRuns (m : Mod) (q : PairId) (op : Nat) (c : Cmd) : Prop :=
  m.mayBegin q = true ∧ m.turn q = true ∧ m.twin.loss = none ∧ m.front q = some c ∧ c.lc.opcode = op ∧
  (m.takeFront q).barred c (moreFaults op (m.takeFront q) c) = none

/-! ### Lurik words -/

/-- The core a word command is presented to, and whether its operands have a place in the encodings and are not reserved there
(R172 to R174, R177, R178, R187); none for a command that is no word. -/
def lurikWord (i : Instr) : Option (CoreId × Bool) :=
  match i with
  | .pair c a b => some (c, slotLegal a && slotLegal b)
  | .add c _ _ _ => some (c, true)
  | .sub c _ _ _ => some (c, true)
  | .and c _ _ _ => some (c, true)
  | .or c _ _ _ => some (c, true)
  | .xor c _ _ _ => some (c, true)
  | .sll c _ _ _ => some (c, true)
  | .srl c _ _ _ => some (c, true)
  | .sra c _ _ _ => some (c, true)
  | .slt c _ _ _ => some (c, true)
  | .sltu c _ _ _ => some (c, true)
  | .min c _ _ _ => some (c, true)
  | .max c _ _ _ => some (c, true)
  | .minu c _ _ _ => some (c, true)
  | .maxu c _ _ _ => some (c, true)
  | .mul c _ _ _ => some (c, true)
  | .mulh c _ _ _ => some (c, true)
  | .mulhu c _ _ _ => some (c, true)
  | .div c _ _ _ => some (c, true)
  | .divu c _ _ _ => some (c, true)
  | .rem c _ _ _ => some (c, true)
  | .remu c _ _ _ => some (c, true)
  | .addi c _ _ _ => some (c, true)
  | .andi c _ _ _ => some (c, true)
  | .ori c _ _ _ => some (c, true)
  | .xori c _ _ _ => some (c, true)
  | .slti c _ _ _ => some (c, true)
  | .sltiu c _ _ _ => some (c, true)
  | .slli c _ _ _ => some (c, true)
  | .srli c _ _ _ => some (c, true)
  | .srai c _ _ _ => some (c, true)
  | .insi c n _ _ imm => some (c, n.val != 4 || decide (imm.toNat < 256))
  | .beq c _ _ _ => some (c, true)
  | .bne c _ _ _ => some (c, true)
  | .blt c _ _ _ => some (c, true)
  | .bge c _ _ _ => some (c, true)
  | .bltu c _ _ _ => some (c, true)
  | .bgeu c _ _ _ => some (c, true)
  | .j c _ => some (c, true)
  | .loop c _ _ imm => some (c, imm != 0)
  | .rep c _ _ => some (c, true)
  | .ldb c _ _ _ => some (c, true)
  | .ldbu c _ _ _ => some (c, true)
  | .ldh c _ _ _ => some (c, true)
  | .ldhu c _ _ _ => some (c, true)
  | .ldw c _ _ _ => some (c, true)
  | .ldwu c _ _ _ => some (c, true)
  | .ldd c _ _ _ => some (c, true)
  | .ldf c _ _ _ => some (c, true)
  | .stb c _ _ _ => some (c, true)
  | .sth c _ _ _ => some (c, true)
  | .stw c _ _ _ => some (c, true)
  | .std c _ _ _ => some (c, true)
  | .stf c _ _ _ => some (c, true)
  | .lduW c _ _ _ => some (c, true)
  | .lduD c _ _ _ => some (c, true)
  | .stuW c _ _ _ => some (c, true)
  | .stuD c _ _ _ => some (c, true)
  | .ldk c _ _ _ => some (c, true)
  | .stk c _ _ _ => some (c, true)
  | .kmove c _ _ => some (c, true)
  | .kadd c _ _ _ => some (c, true)
  | .kbound c _ _ _ => some (c, true)
  | .kboundr c _ _ _ => some (c, true)
  | .krights c _ _ _ => some (c, true)
  | .kloc c _ _ _ => some (c, true)
  | .kreepoch c _ _ _ => some (c, true)
  | .kseal c _ _ _ => some (c, true)
  | .kunseal c _ _ _ => some (c, true)
  | .ktest c _ _ _ => some (c, true)
  | .kget c _ _ _ => some (c, true)
  | .jk c _ => some (c, true)
  | .jkl c _ _ => some (c, true)
  | .amoadd c _ _ _ _ => some (c, true)
  | .amoswp c _ _ _ _ => some (c, true)
  | .cas c _ _ _ _ => some (c, true)
  | .kcas c _ _ _ => some (c, true)
  | .mcpy c _ _ _ => some (c, true)
  | .mset c _ _ _ => some (c, true)
  | .ctxsaveLo c _ _ _ => some (c, true)
  | .ctxsaveHi c _ _ => some (c, true)
  | .ctxloadLo c _ _ _ => some (c, true)
  | .ctxloadHi c _ _ => some (c, true)
  | .fadd c _ _ _ _ => some (c, true)
  | .fsub c _ _ _ _ => some (c, true)
  | .fmul c _ _ _ _ => some (c, true)
  | .fma c _ _ _ _ => some (c, true)
  | .fdiv c _ _ _ _ => some (c, true)
  | .fmin c _ _ _ _ => some (c, true)
  | .fmax c _ _ _ _ => some (c, true)
  | .fcmpEq c _ _ _ _ => some (c, true)
  | .fcmpLt c _ _ _ _ => some (c, true)
  | .fcmpLe c _ _ _ _ => some (c, true)
  | .fcmpUn c _ _ _ _ => some (c, true)
  | .fsqrt c _ _ _ => some (c, true)
  | .fcvtDL c _ _ _ => some (c, true)
  | .fcvtLD c _ _ _ => some (c, true)
  | .fmov c _ _ => some (c, true)
  | .fneg c _ _ => some (c, true)
  | .fabs c _ _ => some (c, true)
  | .fcvtDS c _ _ => some (c, true)
  | .fcvtSD c _ _ => some (c, true)
  | .fmvX c _ _ => some (c, true)
  | .fmvF c _ _ => some (c, true)
  | .srd c _ _ => some (c, true)
  | .swr c _ _ => some (c, true)
  | .fence c => some (c, true)
  | .gateSync c => some (c, true)
  | .ewait c => some (c, true)
  | .eret c => some (c, true)
  | .bankrd c _ _ _ => some (c, true)
  | .bankwr c _ _ _ => some (c, true)
  | .trap c _ => some (c, true)
  | _ => none

/-- A word of core `c` with operands its encoding has a place for. -/
abbrev LurikWord (c : CoreId) (i : Instr) : Prop := lurikWord i = some (c, true)

end Sys2Proof.Machine
end

