-- ==== Sys2Proof/Machine/Panel.lean ====
section
/-!
DEFINITION. Sys2Proof/Machine/Panel.lean: what DESC_VCC, the status contacts and the front panel show of the module (R482 to R484): functions of the
state, within 10 ms of its change on the hardware.
-/
namespace Sys2Proof.Machine

inductive Colour where
  | green | amber | red | blue
  deriving DecidableEq, Repr

/-- A lit indicator: its colour, and the rate at which it blinks in Hz, 0 for steady. -/
structure Lamp where
  colour : Colour
  blink : Nat := 0
  deriving DecidableEq, Repr

/-- The status contacts, conducting or open, and the indicators, none for one that is off. -/
structure Panel where
  stOk : Bool := false
  stFault : Bool := false
  pwr : Option Lamp := none
  state : Option Lamp := none
  fault : Option Lamp := none
  twin : Option Lamp := none
  remove : Option Lamp := none
  /-- DESC_VCC, on from t1 of R392 (R482) -/
  descVcc : Bool := false
  deriving DecidableEq, Repr

/-- The rows of an indicator in the order of the table of R484: the lower of two that hold governs. -/
def lampOf (rows : List (Bool × Lamp)) : Option Lamp := (rows.reverse.find? (·.1)).map Prod.snd

/-- Whether a region's or the device's hold or safe action is in force (R443, R444). -/
def Mod.holdInForce (m : Mod) : Bool := m.devSafe || (List.range 4).any (fun g => Tbl.get 0 m.rgnAct g != 0)

/-- What the contacts and indicators show: everything open and off while the module is unpowered. -/
def Mod.panel (m : Mod) : Panel :=
  if !m.phase.powered then {}
  else
    let boot := m.rd F.ROOK_STATUS_BOOT
    let mbx := m.rd F.MBX_STATE_STATE
    let role := m.rd F.TWIN_STATUS_ROLE
    let ready := m.flag F.TWIN_STATUS_READY
    let critical := m.flag F.PWR_THR_STATUS_CRITICAL
    let feeds := (m.flag F.PWR_FEED_A_OK, m.flag F.PWR_FEED_B_OK)
    { stOk := mbx == 3 && role != 3
      stFault := mbx == 4 || boot == 7 || critical || m.devSafe
      pwr := lampOf [(feeds.1 && feeds.2, ⟨.green, 0⟩), (feeds.1 != feeds.2, ⟨.green, 1⟩)]
      state := lampOf [(decide (1 ≤ boot) && decide (boot ≤ 3), ⟨.amber, 2⟩), (mbx == 2, ⟨.amber, 0⟩), (mbx == 3, ⟨.green, 0⟩), (mbx == 4 || boot == 7, ⟨.red, 0⟩)]
      fault := if m.holdInForce || critical then some ⟨.red, 0⟩ else if m.flag F.PWR_THR_STATUS_OVERTEMP then some ⟨.red, 2⟩ else none
      twin := lampOf [(role == 1, ⟨.green, 0⟩), (role == 2 && !ready, ⟨.amber, 1⟩), (role == 2 && ready, ⟨.amber, 0⟩)]
      remove := lampOf [(m.flag F.CAR_STATUS_EJECT_REQ && !m.twin.removed, ⟨.blue, 2⟩), (m.twin.removed, ⟨.blue, 0⟩)]
      descVcc := m.phase.gooseUp }

end Sys2Proof.Machine
end

