-- ==== Sys2Proof/Safety.lean ====
section
/-!
DEFINITION. Sys2Proof/Safety.lean: runs, and what a claim about them may call safe: a run on which every step answers a next
state and a condition holds throughout.
-/
namespace Sys2Proof.Machine

/-- `t` is what `n` steps from `s` reach, none of them stopping. -/
def runs : Nat → State → State → Prop
  | 0, s, t => t = s
  | n + 1, s, t => ∃ u, step s = .next u ∧ runs n u t

/-- A condition holds at every state a run from `s` reaches, and no step of it stops. -/
def SafeFrom (p : State → Prop) (s : State) : Prop :=
  ∀ n t, runs n s t → p t ∧ ∃ u, step t = .next u

end Sys2Proof.Machine
end

