-- ==== Sys2Proof/Certificates/Slice0/Obligations.lean ====
section
/-!
DEFINITION. Sys2Proof/Certificates/Slice0/Obligations.lean: the statements about the model.
-/
open Sys2Proof Sys2Proof.Machine

/-- For every command and every state, a step of the state with the command at the front of its queue is exec of the command
on the state with the queue's rest. -/
def Obligations.StepRunsFrontCommand : Prop :=
  ∀ (c : Instr) (rest : List Instr) (s : State),
    step { s with pending := c :: rest } = exec c { s with pending := rest }

/-- On an empty queue a step answers a next state in which the module oscillator has counted one nanosecond, and with the local
oscillator as source and no outstanding correction TB_NOW has moved by one as well. That an empty queue ticks at all is the
model's choice (log entry 1). -/
def Obligations.EmptyQueueIsOneNanosecond : Prop :=
  ∀ s : State, s.pending = [] →
    ∃ t, step s = .next t ∧ t.pending = [] ∧ t.mod.mono = s.mod.mono + 1 ∧ t.mod.regs = s.mod.regs ∧
      (s.mod.rd F.TB_CTRL_SRC = 0 → s.mod.corr = 0 → s.mod.acc = 0 → t.mod.now = s.mod.now + 1)

/-- Every command answers a next state, whatever the state; its effect is on the module and the waiting commands stay as they
are. What each leaves is said by the statements of its family. That a command presented while its row's condition does not hold
still answers a next state, with nothing changed, is the model's choice (log entry 11). -/
def Obligations.EveryCommandCompletes : Prop :=
  ∀ (c : Instr) (s : State), ∃ t, exec c s = .next t ∧ t.pending = s.pending

/-- Of any register and instance: after a write it reads as the value written, to 64 bits, and every other register, and every
other instance, reads as before the write. A field written reads as its bits of the value, and a field that shares no bit with
it keeps its value. -/
def Obligations.RegisterFileReadsWhatWasWritten : Prop :=
  (∀ (m : Mod) (r : Reg) (i v : Nat), (m.setReg r i v).reg r i = v % 2 ^ 64) ∧
  (∀ (m : Mod) (r r' : Reg) (i i' v : Nat), ¬(r' = r ∧ i' = i) → (m.setReg r i v).reg r' i' = m.reg r' i') ∧
  (∀ (m : Mod) (f g : Fld) (i v : Nat), f.lo + f.width ≤ 64 → g.reg = f.reg →
    (g.lo + g.width ≤ f.lo ∨ f.lo + f.width ≤ g.lo) → (m.wr f i v).rd f i = v % 2 ^ f.width ∧ (m.wr f i v).rd g i = m.rd g i)

/-- The cells of memory stay in canonical form (addresses strictly rising, none equal to what an unlisted address reads as): from every state with
canonical cells every command, and every step, leaves canonical cells, and the module at reset has them. So do the operations on memory: writing
bytes, zeroing a range, writing a frame to DRAM, cleaning or removing a line, accepting victims. Bytes written read back, and every byte
outside the written range reads as before. -/
def Obligations.MemoryKeepsItsForm : Prop :=
  (∀ (c : Instr) (s t : State), Memory.wf s.mod.mem = true → exec c s = .next t → Memory.wf t.mod.mem = true) ∧
  (∀ (s t : State), Memory.wf s.mod.mem = true → step s = .next t → Memory.wf t.mod.mem = true) ∧
  Memory.wf State.reset.mod.mem = true ∧
  (∀ (m : Mod), Memory.wf m.mem = true →
    (∀ a bs, Memory.wf (m.setBytes a bs).mem = true) ∧ (∀ a n, Memory.wf (m.zeroRange a n).mem = true) ∧
    (∀ ln d t p, Memory.wf (m.putFrame ln d t p).mem = true) ∧ (∀ ln, Memory.wf (m.cleanLine ln).mem = true) ∧
    (∀ ln, Memory.wf (m.dropLine ln).mem = true) ∧ (∀ sl, Memory.wf (m.acceptVictims sl).mem = true) ∧
    (∀ ln, Memory.wf (m.bring ln).mem = true) ∧ (∀ a bs key w, Memory.wf (m.rawWrite a bs key w).mem = true)) ∧
  (∀ (m : Mod) (a : Nat) (bs : List Byte), (m.setBytes a bs).bytes a bs.length = bs ∧
    ∀ b, b < a ∨ a + bs.length ≤ b → (m.setBytes a bs).bytes b 1 = m.bytes b 1)

/-- The word of a core instruction, written from the encoding tables, is of 32 bits and decodes to the instruction with every
operand as given. Left out are operands that the encodings have no place for or call reserved: an INSI.4 immediate above 8 bits,
a LOOP of 0 words, a slot with a reserved op or an unused field that is not 0; the word after a REP is its target. -/
def Obligations.LurikWordsRoundTrip : Prop :=
  ∀ (i : Instr) (c : CoreId), LurikWord c i → encodeWord i < 2 ^ 32 ∧
    decodeWord c (encodeWord i) (match i with
      | .rep _ _ target => target
      | _ => 0) = some i

/-- Words written out bit by bit from the encoding tables decode as they should: ADD, ADDI, BEQ, J, LDD, KBOUND, CAS.D, MCPY,
CTXSAVE.LO, FADD of binary32, SRD, ERET and a pair; the all-zero word, a reserved major and a LOOP of 0 words decode to nothing. -/
def Obligations.SampleLurikWordsDecode : Prop :=
  let D := fun w => decodeWord 0 w 0
  D 0b00000001000110010000101000000000 = some (.add 0 3 4 5) ∧
  D 0b00000010000110010011111111111111 = some (.addi 0 3 4 0x3FFF) ∧
  D 0b00010000000110010000000000000111 = some (.beq 0 3 4 7) ∧
  D 0b00010110111111111111111111111110 = some (.j 0 0xFFFFFE) ∧
  D 0b00100110001010011000000000000010 = some (.ldd 0 5 3 2) ∧
  D 0b01000000001000110010100000000010 = some (.kbound 0 2 3 5) ∧
  D 0b01000001001000110010100000000101 = some (.cas 0 true 5 2 3) ∧
  D 0b01000010001000110010100000000000 = some (.mcpy 0 2 3 5) ∧
  D 0b01000011001000110010000000000000 = some (.ctxsaveLo 0 2 3 4) ∧
  D 0b01010000000110010000101100000000 = some (.fadd 0 true 3 4 5) ∧
  D 0b01100000000110000000000100000000 = some (.srd 0 3 0x100) ∧
  D 0b01100010000000000000000000000011 = some (.eret 0) ∧
  D 0b10000100011001000001100010101100 = some (.pair 0 ⟨1, 3, 4⟩ ⟨3, 2, 22⟩) ∧
  D 0 = none ∧ D 0b00010111000000000100000000000000 = none ∧ D 0b01111111000000000000000000000000 = none

/-- ADD, SUB, AND, OR, XOR, SLL, SRL, SRA, SLT, SLTU, MIN, MAX, MINU, MAXU, MUL, MULH, MULHU, DIV, DIVU, REM, REMU on a core that
issues a word whose fetch succeeds: the command answers the next state in which rd of the current level holds the 64-bit result
(a divisor of 0 gives a quotient of all ones and a remainder equal to rs1; -2^63 by -1 gives -2^63 and 0), a write to d0 being
discarded, the word is completed, and nothing else of the module has changed: no other register, no key, no memory. The fetch that
precedes every word changes no register of the block and of no core anything but its L1 copies (and debug's single step, which it uses up). A
word that names a register which an awaited load of its level has still to write does not issue: nothing changes. -/
def Obligations.IntegerRegisterOperationsWriteTheirResult : Prop :=
  (∀ (m : Mod) (c : CoreId), Ready m c →
    (m.fetched c).regs = m.regs ∧ ∀ c' : Nat,
      { (m.fetched c).core c' with l1i := (m.core c').l1i, l1d := (m.core c').l1d, debugStep := (m.core c').debugStep } = m.core c') ∧
  (∀ (s : State) (c : CoreId) (rd rs1 rs2 : DReg) (w : Wait) (sz : Nat) (sg : Bool), w ∈ (s.mod.core c).waits →
    w.level = (s.mod.core c).level → (∃ r ∈ [rd, rs1, rs2], r ≠ 0 ∧ w.kind = .int r sz sg) → ∃ t, exec (.add c rd rs1 rs2) s = .next t ∧ t = s) ∧
  ∀ (s0 : State) (c : CoreId) (rd rs1 rs2 : DReg), Ready s0.mod c →
    let s := s0.fetched c
    let a := s.mod.word c rs1
    let b := s.mod.word c rs2
    let sh := b.toNat % 64
    let wide := fun (x y : BitVec 128) => ((x * y) >>> 64).setWidth 64
    ∀ e ∈ [(Instr.add c rd rs1 rs2, a + b), (.sub c rd rs1 rs2, a - b), (.and c rd rs1 rs2, a &&& b), (.or c rd rs1 rs2, a ||| b),
        (.xor c rd rs1 rs2, a ^^^ b), (.sll c rd rs1 rs2, a <<< sh), (.srl c rd rs1 rs2, a >>> sh), (.sra c rd rs1 rs2, a.sshiftRight sh),
        (.slt c rd rs1 rs2, if a.slt b then 1 else 0), (.sltu c rd rs1 rs2, if a < b then 1 else 0),
        (.min c rd rs1 rs2, if a.slt b then a else b), (.max c rd rs1 rs2, if a.slt b then b else a),
        (.minu c rd rs1 rs2, if a < b then a else b), (.maxu c rd rs1 rs2, if a < b then b else a),
        (.mul c rd rs1 rs2, a * b), (.mulh c rd rs1 rs2, wide (a.signExtend 128) (b.signExtend 128)),
        (.mulhu c rd rs1 rs2, wide (a.setWidth 128) (b.setWidth 128)),
        (.div c rd rs1 rs2, if b = 0 then BitVec.allOnes 64 else a.sdiv b), (.divu c rd rs1 rs2, if b = 0 then BitVec.allOnes 64 else a / b),
        (.rem c rd rs1 rs2, if b = 0 then a else a.srem b), (.remu c rd rs1 rs2, if b = 0 then a else a % b)],
      ∃ t, exec e.1 s0 = .next t ∧ WritesD c rd e.2.toNat s t

/-- ADDI, SLTI, SLTIU with the immediate sign-extended, ANDI, ORI, XORI with it zero-extended, SLLI, SRLI, SRAI, and INSI.n, which
replaces 14 bits from bit 14n (8 bits for n = 4): on a core that issues, the next state holds the result in rd (nothing in d0),
and nothing else of the module has changed but the completion of the word. -/
def Obligations.IntegerImmediateOperationsWriteTheirResult : Prop :=
  ∀ (s0 : State) (c : CoreId) (rd rs1 : DReg) (imm : BitVec 14) (sh : BitVec 6) (n : Fin 5), Ready s0.mod c →
    let s := s0.fetched c
    (n.val = 4 → imm.toNat < 256) →
    let a := s.mod.word c rs1
    let se := imm.signExtend 64
    let ze := imm.setWidth 64
    ∀ e ∈ [(Instr.addi c rd rs1 imm, a + se), (.slti c rd rs1 imm, if a.slt se then 1 else 0), (.sltiu c rd rs1 imm, if a < se then 1 else 0),
        (.andi c rd rs1 imm, a &&& ze), (.ori c rd rs1 imm, a ||| ze), (.xori c rd rs1 imm, a ^^^ ze),
        (.slli c rd rs1 sh, a <<< sh.toNat), (.srli c rd rs1 sh, a >>> sh.toNat), (.srai c rd rs1 sh, a.sshiftRight sh.toNat),
        (.insi c n rd rs1 imm, (a &&& ~~~((0x3FFF : BitVec 64) <<< (14 * n.val))) ||| (ze <<< (14 * n.val)))],
      ∃ t, exec e.1 s0 = .next t ∧ WritesD c rd e.2.toNat s t

/-- BEQ, BNE, BLT, BGE, BLTU, BGEU and J on a core that issues: where the comparison holds (always for J) the next state has the
cursor of ip moved by the offset times 4, the branch target buffer updated, the active loops the target leaves deactivated, and
one more word completed; where it does not hold the word completes in sequence. No other part of the module changes. -/
def Obligations.BranchesMoveTheInstructionKey : Prop :=
  ∀ (s0 : State) (c : CoreId) (rs1 rs2 : DReg) (off : BitVec 14) (far : BitVec 24), Ready s0.mod c →
    let s := s0.fetched c
    let a := s.mod.word c rs1
    let b := s.mod.word c rs2
    let k := (s.mod.core c).atIssue
    let dest := fun (words : Int) => k.ip.advance (4 * words)
    let taken := fun (words : Int) => { ((k.btbAfter k.ip.cursor (dest words).cursor true).leaveLoops (dest words).cursor).retire with ip := dest words }
    let passed := (k.btbAfter k.ip.cursor 0 false).next.retire
    (∀ e ∈ [(Instr.beq c rs1 rs2 off, decide (a = b)), (.bne c rs1 rs2 off, decide (a ≠ b)), (.blt c rs1 rs2 off, a.slt b),
        (.bge c rs1 rs2 off, b.sle a), (.bltu c rs1 rs2 off, decide (a < b)), (.bgeu c rs1 rs2 off, decide (b ≤ a))],
      ∃ t, exec e.1 s0 = .next t ∧ CoreBecomes s.pending s.mod c (if e.2 then taken off.toInt else passed) t) ∧
    ∃ t, exec (.j c far) s0 = .next t ∧ CoreBecomes s.pending s.mod c (taken far.toInt) t

/-- The evaluation of the loop end of the word at ip: for n from 3 down to 0, if loop n is active and LEn is the word's address, a
count above 1 is decremented and the next word is at LSn; otherwise LCn becomes 0 and loop n inactive, and the next lower n
follows. If no loop branches back the next word is at a + 4. A word that transfers control by a jump evaluates no loop end. -/
def Obligations.LoopEndEvaluation : Prop :=
  (∀ (k : Core),
    let a := k.ip.cursor
    let l := k.level
    let hit := fun (k : Core) (n : Nat) => k.lact l n && k.loopReg l 1 n == a
    let ended := fun (k : Core) (n : Nat) => if hit k n then (k.setLoopReg l 2 n 0).setSt l n 1 0 else k
    let back := fun (k : Core) (n : Nat) => { k.setLoopReg l 2 n (k.loopReg l 2 n - 1) with ip := k.ip.moveTo (k.loopReg l 0 n) }
    let k3 := { k with word := false }
    let k2 := ended k3 3
    let k1 := ended k2 2
    let k0 := ended k1 1
    k.next =
      if hit k3 3 && decide (k3.loopReg l 2 3 > 1) then back k3 3
      else if hit k2 2 && decide (k2.loopReg l 2 2 > 1) then back k2 2
      else if hit k1 1 && decide (k1.loopReg l 2 1 > 1) then back k1 1
      else if hit k0 0 && decide (k0.loopReg l 2 0 > 1) then back k0 0
      else { ended k0 0 with ip := k.ip.advance 4 }) ∧
  ∀ (m : Mod) (c w : Nat) (ip : Key), (m.core c).word = true → settle c w (.jump m ip) = m.setCore c { (m.core c).retire with ip := ip }

/-- LOOP n, rs1, imm of at least one word, where no loop numbered n or above is active and every lower active loop's body holds
this one: LSn is the next word, LEn the word imm words on, LCn the count in rs1, and the loop is active exactly when the count is
not 0; ip goes to LSn, or past the body when the count is 0. REP rs1 at an active loop's end, or of a target REP forbids or that names rs1,
raises illegal opcode, subcode REP target, and performs nothing. Otherwise with count 0 the target is skipped, the loop end of the target's
address then being evaluated, whatever the target is. With another count a word that decodes to nothing raises illegal opcode, subcode reserved, at the
target; a target whose body leads in sequence to a state has the count one lower there, ip at the REP until the count is 0 and past the target
from then on; a target that faults faults with FIP at the target and the resume ip at the REP, the count as it is; a load that awaits its data
keeps ip at the REP, its answer to count. For ADD to SLTU, MIN to MAXU and MUL the state is written out: rd holds the result. The
commands complete and no other state changes. -/
def Obligations.LoopAndRepControlTheNextWord : Prop :=
  (∀ (s0 : State) (c : CoreId) (n : Fin 4) (rs1 : DReg) (imm : BitVec 14), Ready s0.mod c →
    let s := s0.fetched c
    imm ≠ 0 →
    let k := (s.mod.core c).atIssue
    let w := k.ip.cursor
    (∀ j < 4, k.lact k.level j = true → j < n.val ∧ w + 4 * imm.toNat ≤ k.loopReg k.level 1 j) →
    let k' := ((k.setLoopReg k.level 0 n (w + 4)).setLoopReg k.level 1 n (w + 4 * imm.toNat)).setLoopReg k.level 2 n (k.d k.level rs1)
    ∃ t, exec (.loop c n rs1 imm) s0 = .next t ∧ CoreBecomes s.pending s.mod c
      (if k.d k.level rs1 = 0 then { k'.retire with ip := k.ip.advance (4 * imm.toNat + 4) }
       else { (k'.setSt k.level n 1 1).retire with ip := k.ip.advance 4 }) t) ∧
  (∀ (s0 : State) (c : CoreId) (r : DReg) (target : BitVec 32), Ready s0.mod c →
    let s := s0.fetched c
    let k := (s.mod.core c).atIssue
    let w := k.ip.cursor
    let ends := ∃ j < 4, k.lact k.level j = true ∧ k.loopReg k.level 1 j = w
    let i := decodeWord c target.toNat 0
    let forbidden := ∃ x, i = some x ∧ (repBody x = none ∨ (0, r.val) ∈ x.uses)
    let rep := Instr.rep c r target
    let at4 := { k with ip := k.ip.advance 4 }
    let m := ((s.mod.setCore c at4).fetchFault c).1
    let atRep := fun (x : Mod) => x.setCore c { x.core c with ip := k.ip }
    (ends ∨ forbidden → ∃ t, exec rep s0 = .next t ∧ t.pending = s.pending ∧ t.mod = (s.mod.issuing c).coreExc c 0x01 6 0 w) ∧
    (¬ends → ¬forbidden → k.d k.level r = 0 → ∃ t, exec rep s0 = .next t ∧ CoreBecomes s.pending s.mod c at4.next.retire t) ∧
    (¬ends → ¬forbidden → k.d k.level r ≠ 0 → ((s.mod.setCore c at4).fetchFault c).2 = none → (m.core c).word = true →
      (i = none → ∃ t, exec rep s0 = .next t ∧ t.pending = s.pending ∧
        t.mod = (atRep m).coreExc c 0x01 1 0 (w + 4) (bitAt target.toNat 31) (bitAt target.toNat 31 && slotLegal (slotAt target.toNat 16))) ∧
      (∀ x b, i = some x → repBody x = some b →
        (∀ m1, b m c = .seq m1 → (m1.core c).word = true → ∃ t, exec rep s0 = .next t ∧
          let k1 := ((m1.core c).setD (m1.core c).level r (m1.cd c r - 1)).retire
          CoreBecomes s.pending m1 c (if k1.d k1.level r = 0 then k1.next.retire else { k1 with ip := k.ip }) t) ∧
        (∀ m1 e pair slotB, b m c = .exc m1 e pair slotB → (m1.core c).word = true → ∃ t, exec rep s0 = .next t ∧ t.pending = s.pending ∧
          t.mod = (atRep m1).coreExc c e.code e.sub e.ea (w + 4) pair slotB) ∧
        (∀ m1, b m c = .sent m1 → (m1.core c).word = true → ∃ t, exec rep s0 = .next t ∧ CoreBecomes s.pending m1 c
          { m1.core c with ip := k.ip, word := false, waits := (m1.core c).waits.map (fun x =>
              if k.waits.contains x then x else { x with word := k.ip, rep := some r.val }) } t)))) ∧
  (∀ (s0 : State) (c : CoreId) (r rd a b : DReg), Ready s0.mod c →
    let s := s0.fetched c
    rd ≠ r → a ≠ r → b ≠ r →
    let k := (s.mod.core c).atIssue
    (∀ j < 4, ¬(k.lact k.level j = true ∧ k.loopReg k.level 1 j = k.ip.cursor)) →
    let at4 := { k with ip := k.ip.advance 4 }
    let m := ((s.mod.setCore c at4).fetchFault c).1
    let kt := m.core c
    let x := m.word c a
    let y := m.word c b
    let sh := y.toNat % 64
    let k1 := fun (v : Nat) => ((kt.setD kt.level rd v).setD kt.level r (kt.d kt.level r - 1)).retire
    k.d k.level r ≠ 0 → ((s.mod.setCore c at4).fetchFault c).2 = none → kt.word = true →
    ∀ e ∈ [(Instr.add c rd a b, x + y), (.sub c rd a b, x - y), (.and c rd a b, x &&& y), (.or c rd a b, x ||| y), (.xor c rd a b, x ^^^ y),
        (.sll c rd a b, x <<< sh), (.srl c rd a b, x >>> sh), (.sra c rd a b, x.sshiftRight sh), (.slt c rd a b, if x.slt y then 1 else 0),
        (.sltu c rd a b, if x < y then 1 else 0), (.min c rd a b, if x.slt y then x else y), (.max c rd a b, if x.slt y then y else x),
        (.minu c rd a b, if x < y then x else y), (.maxu c rd a b, if x < y then y else x), (.mul c rd a b, x * y)],
      ∃ t, exec (.rep c r (BitVec.ofNat 32 (encodeWord e.1))) s0 = .next t ∧
        CoreBecomes s.pending m c (if kt.d kt.level r = 1 then (k1 e.2.toNat).next.retire else { k1 e.2.toNat with ip := k.ip }) t)

/-- KMOVE, KADD, KBOUND, KBOUNDR, KRIGHTS, KLOC, KSEAL, KUNSEAL and KREEPOCH (with SYS in ip) on a core that issues, where the
derivation of the key is allowed: the next state holds the derived key in kd, its tag gone if an active sweep matches it, and
nothing else of the module has changed but the completion of the word. KTEST and KGET write their number to rd in the same way.
JK ks and JKL kd, ks on a core that issues, where the key in ks may be jumped through: the next state has that key, unsealed if
it was an entry key, as ip, through an active sweep's filter; JKL writes the ip advanced by one word, sealed as an entry key, to
kd. One more word is completed and nothing else of the module changes. -/
def Obligations.KeyOperationsWriteTheDerivedKey : Prop :=
  (∀ (s0 : State) (c : CoreId) (kd ks kt : KReg) (rs rd : DReg) (f : Fin 12), Ready s0.mod c →
     let s := s0.fetched c
     let a := s.mod.ck c ks
     let b := s.mod.ck c kt
     let n := s.mod.cd c rs
     (∀ e ∈ [(Instr.kmove c kd ks, Except.ok { a with tag := a.live }), (.kadd c kd ks rs, a.add n), (.kbound c kd ks rs, a.bound n true),
         (.kboundr c kd ks rs, a.bound n false), (.krights c kd ks rs, a.narrowRights (n % 1024)), (.kloc c kd ks rs, a.narrowLoc (n % 4)),
         (.kseal c kd ks kt, a.seal b), (.kunseal c kd ks kt, a.unseal b)],
       ∀ v, e.2 = .ok v → ∃ t, exec e.1 s0 = .next t ∧ WritesK c kd (s.mod.filterKey v) s t) ∧
     (∀ v, (s.mod.core c).sys = true → a.reepoch (n % 64) = .ok v →
       ∃ t, exec (.kreepoch c kd ks rs) s0 = .next t ∧ WritesK c kd (s.mod.filterKey v) s t) ∧
     (∃ t, exec (.ktest c rd ks kt) s0 = .next t ∧ WritesD c rd (b2n (a.test b)) s t) ∧
     ∃ t, exec (.kget c rd ks f) s0 = .next t ∧ WritesD c rd (a.get f) s t) ∧
  (∀ (s0 : State) (c : CoreId) (kd ks : KReg) (v : Key), Ready s0.mod c →
     let s := s0.fetched c
     (s.mod.ck c ks).jump = .ok v →
     let k := (s.mod.core c).atIssue
     (∃ t, exec (.jk c ks) s0 = .next t ∧ CoreBecomes s.pending s.mod c { k.retire with ip := s.mod.filterKey v } t) ∧
     ∃ t, exec (.jkl c kd ks) s0 = .next t ∧
       CoreBecomes s.pending s.mod c { (k.setK k.level kd (s.mod.filterKey k.ip.link)).retire with ip := s.mod.filterKey v } t)

/-- Monotonicity of key derivation, for every key and operand: a key made by KADD, KBOUND, KBOUNDR, KRIGHTS, KLOC, KSEAL or KREEPOCH
that is live came from a live key, its bounds lie within the source's, its rights are among the source's (KSEAL with
type 0xFE adds INV alone), and its locality is no weaker. The same holds of an advanced ip, of the target of JK and of the link
key of JKL, whose seal alone adds INV. KUNSEAL gives bounds and rights of the sealed key, a locality no weaker than either. -/
def Obligations.DerivedKeysGrantNoMore : Prop :=
  let within := fun (v k : Key) => k.live = true ∧ k.lo ≤ v.lo ∧ v.hi ≤ k.hi ∧ k.loc ≤ v.loc
  let rights := fun (v k : Key) (extra : Nat) => v.rights &&& (k.rights ||| extra) = v.rights
  ∀ (k kt v : Key) (n : Nat), v.live = true →
    ((k.add n = .ok v ∨ k.bound n true = .ok v ∨ k.bound n false = .ok v ∨ k.narrowRights n = .ok v ∨ (n < 4 ∧ k.narrowLoc n = .ok v) ∨
      (n < 64 ∧ k.reepoch n = .ok v) ∨ (∃ d : Int, k.advance d = v)) → within v k ∧ rights v k 0) ∧
    ((k.seal kt = .ok v ∨ k.link = v) → within v k ∧ rights v k rINV) ∧
    (k.jump = .ok v → within v k ∧ rights v k 0) ∧
    (k.unseal kt = .ok v → within v k ∧ rights v k 0 ∧ kt.live = true ∧ kt.loc ≤ v.loc)

/-- LDB, LDBU, LDH, LDHU, LDW, LDWU and LDD on a core that issues, where the key admits the access, the address is aligned and
the read is answered at once (by the store buffer, a cache or a local target): the next state is the one the read leaves, with rd
holding the bytes read, sign- or zero-extended, and the word completed. LDF writes its f register, the FP state made the level's
own first; LDK writes kd the granule's key with its tag as R151 and R152 let it load.
LDU.W and LDU.D on a core that issues, the key checked once over all bytes with an offset in bytes: at an aligned address one
access is made; otherwise the low part up to the boundary is read, then the high part from it. When the reads are answered at once
rd holds the bytes in order, a word sign-extended, and the word is completed.
Where the check of the key fails nothing is read: the key fault with its subcode is raised, the first of no tag, sealed, a right missing, another
node under a locality, out of bounds; at a misaligned address the alignment fault, of LDK a key fault with subcode ALIGN, LDU having none; LDF has made
the FP state its level's own before that (R227). Where the gate of a local target refuses the access, the load access fault is raised with the kind the gate gave. -/
def Obligations.LoadsWriteTheBytesRead : Prop :=
  (∀ (k : Key) (node : Nat) (off : Int) (n need : Nat),
     let a := wrapTo 64 ((k.cursor : Int) + off)
     let here := k.loc = 0 ∨ eaNode a = 0xFFF ∨ eaNode a = node
     let inside := n = 0 ∨ ((k.lo : Int) ≤ k.cursor + off ∧ (k.cursor : Int) + off + n ≤ k.hi)
     (k.live = false → k.check node off n need = .error 1) ∧
     (k.live = true → k.otype ≠ 0 → k.check node off n need = .error 2) ∧
     (k.live = true → k.otype = 0 → k.has need = false → k.check node off n need = .error 3) ∧
     (k.live = true → k.otype = 0 → k.has need = true → ¬ here → k.check node off n need = .error 7) ∧
     (k.live = true → k.otype = 0 → k.has need = true → here → ¬ inside → k.check node off n need = .error 4) ∧
     (k.live = true → k.otype = 0 → k.has need = true → here → inside → k.check node off n need = .ok a)) ∧
  (∀ (s0 : State) (c : CoreId) (r : DReg) (fd : FReg) (kd kb : KReg) (off : BitVec 15) (ea x : Nat) (m1 : Mod), Ready s0.mod c →
     let s := s0.fetched c
     let k := s.mod.ck c kb
     let m0 := s.mod.issuing c
     let raises := fun (i : Instr) (m : Mod) (code sub a : Nat) => ∃ t, exec i s0 = .next t ∧ t.pending = s.pending ∧
       t.mod = m.coreExc c code sub a (s.mod.core c).ip.cursor
     (∀ e ∈ [(Instr.ldb c r kb off, (1 : Nat), (1 : Nat), (0x03 : Nat), (0 : Nat), m0), (.ldbu c r kb off, 1, 1, 0x03, 0, m0),
         (.ldh c r kb off, 2, 2, 0x03, 0, m0), (.ldhu c r kb off, 2, 2, 0x03, 0, m0), (.ldw c r kb off, 4, 4, 0x03, 0, m0),
         (.ldwu c r kb off, 4, 4, 0x03, 0, m0), (.ldd c r kb off, 8, 8, 0x03, 0, m0), (.ldf c fd kb off, 8, 8, 0x03, 0, m0.fpOwn c),
         (.ldk c kd kb off, 16, 16, 0x02, 9, m0), (.lduW c r kb off, 4, 1, 0, 0, m0), (.lduD c r kb off, 8, 1, 0, 0, m0)],
       let d := off.toInt * e.2.2.1
       (k.check s.mod.node d e.2.1 rLD = .error x → raises e.1 e.2.2.2.2.2 0x02 x (wrapTo 64 ((k.cursor : Int) + d))) ∧
       (k.check s.mod.node d e.2.1 rLD = .ok ea → ea % e.2.2.1 ≠ 0 → raises e.1 e.2.2.2.2.2 e.2.2.2.1 e.2.2.2.2.1 ea)) ∧
     (∀ e ∈ [(Instr.ldb c r kb off, (1 : Nat)), (.ldbu c r kb off, 1), (.ldh c r kb off, 2), (.ldhu c r kb off, 2), (.ldw c r kb off, 4),
         (.ldwu c r kb off, 4), (.ldd c r kb off, 8), (.ldk c kd kb off, 16)],
       let a := ea % 2 ^ 52
       k.check s.mod.node (off.toInt * e.2) e.2 rLD = .ok ea → ea % e.2 = 0 → s.mod.isLocal ea = true → m0.sbCheck c ea e.2 (e.2 == 16) = .miss →
       ((targetOf a).cached && l1Hit (m0.core c).l1d (a / 64) k.epoch) = false →
       m0.passGate (coreAcc c (s.mod.core c).sys k.epoch a e.2 .load) = (m1, some x) → (m1.core c).word = true → raises e.1 m1 0x04 x ea)) ∧
  (∀ (s0 : State) (c : CoreId) (r : DReg) (fd : FReg) (kd kb : KReg) (off : BitVec 15) (ea : Nat) (m : Mod) (d : List Byte) (tag : Bool),
     Ready s0.mod c →
     let s := s0.fetched c
     let k := s.mod.ck c kb
     let sys := (s.mod.core c).sys
     let m0 := s.mod.issuing c
     (∀ e ∈ [(Instr.ldb c r kb off, (1 : Nat), true), (.ldbu c r kb off, 1, false), (.ldh c r kb off, 2, true), (.ldhu c r kb off, 2, false),
         (.ldw c r kb off, 4, true), (.ldwu c r kb off, 4, false), (.ldd c r kb off, 8, false)],
       let n := e.2.1
       k.check s.mod.node (off.toInt * n) n rLD = .ok ea → ea % n = 0 → d.length = n → m0.coreRead c ea n k.epoch sys = .got m d tag → (m.core c).word = true →
       ∃ t, exec e.1 s0 = .next t ∧ CoreBecomes s.pending m c ((m.core c).setD (m.core c).level r
         (if e.2.2 then ((BitVec.ofNat (8 * n) (ofLeBytes d)).signExtend 64).toNat else ofLeBytes d)).next.retire t) ∧
     (k.check s.mod.node (off.toInt * 8) 8 rLD = .ok ea → ea % 8 = 0 → (m0.fpOwn c).coreRead c ea 8 k.epoch sys = .got m d tag → (m.core c).word = true →
       ∃ t, exec (.ldf c fd kb off) s0 = .next t ∧
         CoreBecomes s.pending m c ((m.core c).setFr (m.core c).level fd (ofLeBytes d)).next.retire t) ∧
     (k.check s.mod.node (off.toInt * 16) 16 rLD = .ok ea → ea % 16 = 0 → m0.coreRead c ea 16 k.epoch sys true = .got m d tag → (m.core c).word = true →
       ∃ t, exec (.ldk c kd kb off) s0 = .next t ∧
         CoreBecomes s.pending m c ((m.core c).setK (m.core c).level kd (m.filterKey (m.loadedKey c ea k d tag))).next.retire t)) ∧
  (∀ (s0 : State) (c : CoreId) (r : DReg) (kb : KReg) (off : BitVec 15) (ea : Nat) (m m2 : Mod) (d d2 : List Byte) (tag tag2 : Bool),
     Ready s0.mod c →
     let s := s0.fetched c
     let k := s.mod.ck c kb
     let sys := (s.mod.core c).sys
     let m0 := s.mod.issuing c
     ∀ e ∈ [(Instr.lduW c r kb off, 4), (.lduD c r kb off, 8)],
       let n := e.2
       let v := fun (x : List Byte) => if n = 4 then ((BitVec.ofNat 32 (ofLeBytes x)).signExtend 64).toNat else ofLeBytes x
       let after := fun (m : Mod) (x : List Byte) => ((m.core c).setD (m.core c).level r (v x)).next.retire
       let lo := n - ea % n
       k.check s.mod.node off.toInt n rLD = .ok ea →
       (ea % n = 0 → d.length = n → m0.coreRead c ea n k.epoch sys = .got m d tag → (m.core c).word = true →
         ∃ t, exec e.1 s0 = .next t ∧ CoreBecomes s.pending m c (after m d) t) ∧
       (ea % n ≠ 0 → d.length + d2.length = n → m0.coreRead c ea lo k.epoch sys = .got m d tag →
         m.coreRead c (ea + lo) (ea % n) k.epoch sys = .got m2 d2 tag2 → (m2.core c).word = true →
         ∃ t, exec e.1 s0 = .next t ∧ CoreBecomes s.pending m2 c (after m2 (d ++ d2)) t))

/-- STB, STH, STW, STD and STF on a core that issues, with precise stores off and room in the store buffer, where the key admits the
access and the address is aligned: the next state has the low bytes of the register as the youngest entry of the core's store
buffer, with its address, epoch, word, level and privilege; the word is completed, and nothing else of the module changes: no
register and no byte of memory. STK does so with the key's 16 bytes and its tag; STU.W and STU.D with
SPLIT clear and no refused low part of an STU in mind enter one entry at an aligned address, and their low and high parts as two entries at any other.
STORE_ACKNOWLEDGE on a core whose oldest store not yet at its target is a local one: when the target takes it the next state is
what the write leaves, with the entry gone from the buffer; when a gate refuses it, the entry goes, with it the high part of the STU whose low part it is, now or when it would come, and the store access
exception of the storing level is recorded as imprecise, with the refusal's kind, the storing word and the address. With no such store nothing
changes.
Where the check of the key fails, for want of ST or for a tagged key of SK too, the key fault with its subcode is raised and nothing is stored; at a
misaligned address the alignment fault, of STK a key fault with subcode ALIGN; a tagged key for a target that stores no tags raises
TAGSTORE, and a stack-local one LOCALITY unless the key holds SKL and the address lies in the core's own scratch. -/
def Obligations.StoresEnterTheStoreBuffer : Prop :=
  (∀ (s0 : State) (c : CoreId) (r : DReg) (fs : FReg) (ks kb : KReg) (off : BitVec 15) (ea x : Nat), Ready s0.mod c →
     let s := s0.fetched c
     let k := s.mod.ck c kb
     let v := s.mod.ck c ks
     let m0 := s.mod.issuing c
     let raises := fun (i : Instr) (m : Mod) (code sub a : Nat) => ∃ t, exec i s0 = .next t ∧ t.pending = s.pending ∧
       t.mod = m.coreExc c code sub a (s.mod.core c).ip.cursor
     (∀ e ∈ [(Instr.stb c r kb off, (1 : Nat), (1 : Nat), m0), (.sth c r kb off, 2, 2, m0), (.stw c r kb off, 4, 4, m0), (.std c r kb off, 8, 8, m0),
         (.stf c fs kb off, 8, 8, m0.fpOwn c), (.stuW c r kb off, 4, 1, s.mod), (.stuD c r kb off, 8, 1, s.mod)],
       let d := off.toInt * e.2.2.1
       (k.check s.mod.node d e.2.1 rST = .error x → raises e.1 e.2.2.2 0x02 x (wrapTo 64 ((k.cursor : Int) + d))) ∧
       (k.check s.mod.node d e.2.1 rST = .ok ea → ea % e.2.2.1 ≠ 0 → raises e.1 e.2.2.2 0x03 0 ea)) ∧
     (let d := off.toInt * 16
      let chk := k.check s.mod.node d 16 (if v.live then rST ||| rSK else rST)
      let i := Instr.stk c ks kb off
      (chk = .error x → raises i m0 0x02 x (wrapTo 64 ((k.cursor : Int) + d))) ∧
      (chk = .ok ea → ea % 16 ≠ 0 → raises i m0 0x02 9 ea) ∧
      (chk = .ok ea → ea % 16 = 0 → v.live = true → s.mod.tagTarget ea = false → raises i m0 0x02 10 ea) ∧
      (chk = .ok ea → ea % 16 = 0 → v.live = true → s.mod.tagTarget ea = true → v.loc = 2 → (k.has rSKL && s.mod.ownScratch c ea) = false →
        raises i m0 0x02 7 ea))) ∧
  (∀ (s0 : State) (c : CoreId) (r : DReg) (fs : FReg) (ks kb : KReg) (off : BitVec 15) (ea : Nat), Ready s0.mod c →
     let s := s0.fetched c
     let k0 := s.mod.core c
     let k := k0.atIssue
     let key := s.mod.ck c kb
     let entry := fun (a : Nat) (d : List Byte) (tag : Option Bool) =>
       (⟨a, d, tag, key.epoch, BitVec.ofNat 64 k0.ip.cursor, k0.level, k0.sys, none, none, false⟩ : StoreEnt)
     k0.stField k0.level 21 1 = 0 → k0.sb.length < 8 →
     (∀ e ∈ [(Instr.stb c r kb off, (1 : Nat)), (.sth c r kb off, 2), (.stw c r kb off, 4), (.std c r kb off, 8)],
       key.check s.mod.node (off.toInt * e.2) e.2 rST = .ok ea → ea % e.2 = 0 →
       ∃ t, exec e.1 s0 = .next t ∧ CoreBecomes s.pending s.mod c
         (Core.next { k with sb := k.sb ++ [entry ea (leBytes e.2 (s.mod.cd c r)) none] }).retire t) ∧
     (key.check s.mod.node (off.toInt * 8) 8 rST = .ok ea → ea % 8 = 0 →
       let k := k.fpOwn k.level
       ∃ t, exec (.stf c fs kb off) s0 = .next t ∧ CoreBecomes s.pending s.mod c
         (Core.next { k with sb := k.sb ++ [entry ea (leBytes 8 (k.fr k.level fs)) none] }).retire t) ∧
     (let v := s.mod.ck c ks
      key.check s.mod.node (off.toInt * 16) 16 (if v.live then rST ||| rSK else rST) = .ok ea → ea % 16 = 0 → s.mod.keyStoreFault c ea key v = none →
       ∃ t, exec (.stk c ks kb off) s0 = .next t ∧ CoreBecomes s.pending s.mod c
         (Core.next { k with sb := k.sb ++ [entry ea v.bytes (some v.live)] }).retire t) ∧
     (∀ e ∈ [(Instr.stuW c r kb off, 4), (.stuD c r kb off, 8)],
       let n := e.2
       let d := leBytes n (s.mod.cd c r)
       let lo := n - ea % n
       let done := fun (es : List StoreEnt) => (Core.next (Core.setSt { k0 with sb := k0.sb ++ es } k0.level 4 1 0)).retire
       k0.split k0.level = false → k0.stuLost = [] → k0.sb.length < 7 → key.check s.mod.node off.toInt n rST = .ok ea →
       ∃ t, exec e.1 s0 = .next t ∧ CoreBecomes s.pending s.mod c
         (done (if ea % n = 0 then [entry ea d none] else [entry ea (d.take lo) none, { entry (ea + lo) (d.drop lo) none with high := true }])) t)) ∧
  (∀ (s : State) (c : CoreId),
     let k := s.mod.core c
     ((∀ e ∈ k.sb, e.sent ≠ none) → ∃ t, exec (.storeAcknowledge c) s = .next t ∧ t = s) ∧
     ∀ (i : Nat) (e : StoreEnt) (m : Mod) (r : Option Nat), k.sb[i]? = some e → e.sent = none → (∀ j < i, ∀ x, k.sb[j]? = some x → x.sent ≠ none) →
       s.mod.isLocal e.ea = true → s.mod.storeLocal c (e.ea % 2 ^ 52) e.data e.keyTag e.epoch e.sys = (m, r) →
       let gone := m.setCore c { m.core c with sb := (m.core c).sb.eraseIdx i }
       ∃ t, exec (.storeAcknowledge c) s = .next t ∧ t.pending = s.pending ∧
         t.mod = match r with
           | none => gone
           | some kind =>
             let g := gone.core c
             (match g.highOf i e with
               | some x => gone.setCore c { g with sb := g.sb.erase x }
               | none => if g.splitLow i e then
                   gone.setCore c { g with stuLost := (e.level, e.word.toNat) :: g.stuLost.filter (fun x => x.1 != e.level) }
                 else gone).coreImprecise c e.level 0x06 kind e.word.toNat e.ea e.slot)

/-- AMOADD, AMOSWP and CAS, in W and D forms, on a core that issues with its store buffer empty, at an aligned local address its key
admits for LD and ST and its gate for an atomic: the next state is what the one read and write at the target leaves, the new value
being old + v, v, or v where old equals the low bits of rd; rd holds the old value, a W sign-extended, and the word is completed.
KCAS compares the granule and its tag with kd, writes kt where they are equal, and returns the old key in kd.
Where the check of the key at its cursor fails, for LD and ST, or for LD, ST, LK and SK, the key fault with its subcode is raised and nothing is read or
written; at a misaligned address the alignment fault, of KCAS a key fault with subcode ALIGN; KCAS at a target that stores no tags raises
TAGSTORE, and of a stack-local new key LOCALITY unless SKL and the core's own scratch allow it. -/
def Obligations.AtomicsReturnTheOldValue : Prop :=
  (∀ (s0 : State) (c : CoreId) (wide : Bool) (rd : DReg) (v ks kd kt : KReg) (ea x : Nat), Ready s0.mod c →
     let s := s0.fetched c
     let k := s.mod.ck c ks
     let new := s.mod.ck c kt
     let n := if wide then 8 else 4
     let raises := fun (i : Instr) (code sub a : Nat) => ∃ t, exec i s0 = .next t ∧ t.pending = s.pending ∧
       t.mod = (s.mod.issuing c).coreExc c code sub a (s.mod.core c).ip.cursor
     (∀ i ∈ [Instr.amoadd c wide rd v ks, .amoswp c wide rd v ks, .cas c wide rd v ks],
       (k.check s.mod.node 0 n (rLD ||| rST) = .error x → raises i 0x02 x k.cursor) ∧
       (k.check s.mod.node 0 n (rLD ||| rST) = .ok ea → ea % n ≠ 0 → raises i 0x03 0 ea)) ∧
     (let chk := k.check s.mod.node 0 16 (rLD ||| rST ||| rLK ||| rSK)
      let i := Instr.kcas c kd ks kt
      (chk = .error x → raises i 0x02 x k.cursor) ∧
      (chk = .ok ea → ea % 16 ≠ 0 → raises i 0x02 9 ea) ∧
      (chk = .ok ea → ea % 16 = 0 → s.mod.tagTarget ea = false → raises i 0x02 10 ea) ∧
      (chk = .ok ea → ea % 16 = 0 → s.mod.tagTarget ea = true → new.live = true → new.loc = 2 → (k.has rSKL && s.mod.ownScratch c ea) = false →
        raises i 0x02 7 ea))) ∧
  ∀ (s0 : State) (c : CoreId) (wide : Bool) (rd : DReg) (v ks kd kt : KReg) (ea : Nat), Ready s0.mod c →
    let s := s0.fetched c
    (s.mod.core c).sb = [] →
    let n := if wide then 8 else 4
    let k := s.mod.ck c ks
    let sys := (s.mod.core c).sys
    let m0 := s.mod.issuing c
    let val := s.mod.cd c v
    let cmp := s.mod.cd c rd
    (k.check s.mod.node 0 n (rLD ||| rST) = .ok ea → ea % n = 0 → s.mod.isLocal ea = true →
      ∀ e ∈ [(Instr.amoadd c wide rd v ks, fun (old : Nat) => some ((old + val) % 2 ^ (8 * n))),
          (.amoswp c wide rd v ks, fun _ => some (val % 2 ^ (8 * n))),
          (.cas c wide rd v ks, fun old => if old = cmp % 2 ^ (8 * n) then some (val % 2 ^ (8 * n)) else none)],
        ∀ (m : Mod) (old : List Byte), m0.coreAtomic c ea n k.epoch sys (fun o => (e.2 (ofLeBytes o)).map (leBytes n)) = (m, .ok old) → old.length = n → (m.core c).word = true →
          ∃ t, exec e.1 s0 = .next t ∧ CoreBecomes s.pending m c ((m.core c).setD (m.core c).level rd
            (if wide then ofLeBytes old else ((BitVec.ofNat 32 (ofLeBytes old)).signExtend 64).toNat)).next.retire t) ∧
    (k.check s.mod.node 0 16 (rLD ||| rST ||| rLK ||| rSK) = .ok ea → ea % 16 = 0 → s.mod.isLocal ea = true → s.mod.tagTarget ea = true →
      let new := s.mod.ck c kt
      let cmpK := s.mod.ck c kd
      let a := ea % 2 ^ 52
      s.mod.keyStoreFault c ea k new = none → m0.passGate (coreAcc c sys k.epoch a 16 .atomic) = (m0, none) →
      let m1 := ((m0.l1dDrop c (a / 64)).rawRead a 16).1
      let g := ((m0.l1dDrop c (a / 64)).rawRead a 16).2
      g.poison = false →
      let found := Key.ofBytes g.data (m1.tagAt a)
      let m2 := if found = { cmpK with tag := cmpK.live } then m1.rawWrite a new.bytes (some ((m1.filterKey new).live && m1.keepsTag a new.loc)) none else m1
      (m2.core c).word = true → ∃ t, exec (.kcas c kd ks kt) s0 = .next t ∧
        CoreBecomes s.pending m2 c ((m2.core c).setK (m2.core c).level kd (m2.filterKey (m2.loadedKey c ea k g.data (m1.tagAt a)))).next.retire t)

/-- MCPY and MSET on a core that issues with an empty store buffer. With a count of 0 and keys that pass their checks, the word
completes and no register and no memory changes. MCPY of a register onto itself advances its cursor by the count and sets the count
to 0. A chunk of MSET at a local destination, of at most 64 bytes up to the next 64-byte boundary, which its gate takes, leaves the
destination written with the byte, the cursor advanced and the count less by the chunk; ip stays until the count is 0, and then the
word is completed.
A chunk of MCPY between two keys with a local source and destination runs upward from the cursors, at most to the next 64-byte boundary of the
destination, or, where the destination lies above the source within the count as the word's present issue begins, downward from the ends; the
direction chosen stays until the copy ends or is abandoned. The bytes read are written; of the granules
covered whole, where source and destination are congruent modulo 16, those tagged keep their tag if LK and SK allow it and a stack-local key stays in
own scratch under SKL. Upward both cursors advance by the chunk, downward they stay, and the count goes down by it. A key that fails its check, the
source's first, raises the key fault at its cursor. -/
def Obligations.BlockCopiesAdvanceByChunks : Prop :=
  (∀ (s0 : State) (c : CoreId) (kd ks rv : KReg) (rs : DReg) (src dst x : Nat) (m1 m2 : Mod) (data : List Byte), Ready s0.mod c →
     let s := s0.fetched c
     (s.mod.core c).sb = [] →
     let m0 := s.mod.issuing c
     let d := s.mod.ck c kd
     let sk := s.mod.ck c ks
     let n := s.mod.cd c rs
     let raises := fun (i : Instr) (a : Nat) => ∃ t, exec i s0 = .next t ∧ t.pending = s.pending ∧ t.mod = m0.coreExc c 0x02 x a (s.mod.core c).ip.cursor
     (sk.check s.mod.node 0 n rLD = .error x → raises (.mcpy c kd ks rs) sk.cursor) ∧
     (sk.check s.mod.node 0 n rLD = .ok src → d.check s.mod.node 0 n rST = .error x → raises (.mcpy c kd ks rs) d.cursor) ∧
     (d.check s.mod.node 0 n rST = .error x → raises (.mset c kd rv rs) d.cursor) ∧
     (sk.check s.mod.node 0 n rLD = .ok src → d.check s.mod.node 0 n rST = .ok dst → n ≠ 0 → kd ≠ ks → s.mod.isLocal src = true →
       let k0 := m0.core c
       let fresh := decide (src < dst) && decide (dst < src + n)
       let desc := match k0.copy with
         | some (l, w, desc) => if l = k0.level ∧ w = k0.ip.cursor then desc else fresh
         | none => fresh
       let up := !desc
       let len := Nat.min n (if up then 64 - dst % 64 else if (dst + n) % 64 = 0 then 64 else (dst + n) % 64)
       let part := fun (a : Nat) => if up then a else a + n - len
       (m0.setCore c { k0 with copy := some (k0.level, k0.ip.cursor, desc) }).chunkRead (coreAcc c (s.mod.core c).sys sk.epoch (part src % 2 ^ 52) len .load) = (m1, .ok (data, false)) → m1.isLocal (part dst) = true →
       let key := fun (o : Nat) => Key.ofBytes ((data.drop o).take 16) (m1.tagAt (part src % 2 ^ 52 + o))
       let keep := m1.keptGranules c (part src) (part dst) len data (sk.has rLK) (d.has rSK) (d.has rSKL)
       (∀ o, o ∈ keep ↔ (part src % 16 = part dst % 16 ∧ (part dst + o) % 16 = 0 ∧ o + 16 ≤ len) ∧ (m1.filterKey (key o)).live = true ∧
         sk.has rLK = true ∧ d.has rSK = true ∧ ((key o).loc ≠ 2 ∨ (d.has rSKL = true ∧ m1.ownScratch c (part dst + o) = true))) ∧
       (m1.chunkWrite c (m1.core c).sys d.epoch (part dst) data keep = (m2, none) →
         let p := m2.setCd c rs (m2.cd c rs - len)
         let q := p.setCk c kd ((p.ck c kd).advance len)
         let m3 := if up then q.setCk c ks ((q.ck c ks).advance len) else p
         (m3.core c).word = true → ∃ t, exec (.mcpy c kd ks rs) s0 = .next t ∧ t.pending = s.pending ∧
           t.mod = m3.setCore c (if m3.cd c rs = 0 then (m3.core c).next.retire else { m3.core c with word := false })))) ∧
  ∀ (s0 : State) (c : CoreId) (kd ks rv : KReg) (rs : DReg) (src dst : Nat), Ready s0.mod c →
    let s := s0.fetched c
    (s.mod.core c).sb = [] →
    let k := (s.mod.core c).atIssue
    let d := s.mod.ck c kd
    let sk := s.mod.ck c ks
    let n := s.mod.cd c rs
    d.check s.mod.node 0 n rST = .ok dst →
    (n = 0 → ∃ t, exec (.mset c kd rv rs) s0 = .next t ∧ CoreBecomes s.pending s.mod c k.next.retire t) ∧
    (sk.check s.mod.node 0 n rLD = .ok src →
      (n = 0 → ∃ t, exec (.mcpy c kd ks rs) s0 = .next t ∧ CoreBecomes s.pending s.mod c k.next.retire t) ∧
      (n ≠ 0 → kd = ks → ∃ t, exec (.mcpy c kd ks rs) s0 = .next t ∧
        CoreBecomes s.pending s.mod c ((k.setK k.level kd (s.mod.filterKey (d.advance n))).setD k.level rs 0).next.retire t)) ∧
    (n ≠ 0 → s.mod.isLocal dst = true →
      let len := Nat.min n (64 - dst % 64)
      ∀ m, (s.mod.issuing c).chunkWrite c (s.mod.core c).sys d.epoch dst (List.replicate len (BitVec.ofNat 8 (s.mod.cd c rv))) [] = (m, none) →
      let m1 := m.chunkProgress c kd none rs len false
      (m1.core c).word = true → ∃ t, exec (.mset c kd rv rs) s0 = .next t ∧ t.pending = s.pending ∧
        t.mod = m1.setCore c (if m1.cd c rs = 0 then (m1.core c).next.retire else { m1.core c with word := false }))

/-- FADD, FSUB, FMUL, FDIV, FMIN, FMAX, FMA, FSQRT, FCVT.D.L, FCVT.D.S and FCVT.S.D, FMOV, FNEG, FABS and FMV.F write fd; FCMP.EQ,
FCMP.LT, FCMP.LE, FCMP.UN, FCVT.L.D and FMV.X write d[rd]. On a core that issues, with the FP state made the current level's own and
no flag enabled that the operation signals, the next state holds the value (a binary32 result boxed, an unboxed operand read as the
quiet NaN), the flags are or-ed into FPCSR, the word is completed and nothing else of the module changes. Where it signals an enabled flag: with
STATUS.PA the arithmetic exception, code 0x07, is raised precisely and neither result nor flag is written; without PA the result and the flags are
written, the exception waits at its handler level, or at M as cause 0x0B where that level is not above the current one, with the word's cursor in
FIP, and the word completes; where one of that code waits there already that one only gains LOST; at level M, or with M active and no handler above,
the core halts with a cell fault of cause 0x01. -/
def Obligations.FloatingPointOperationsWriteResultAndFlags : Prop :=
  ∀ (s0 : State) (c : CoreId) (single : Bool) (fd fs1 fs2 : FReg) (rd rs1 : DReg), Ready s0.mod c →
    let s := s0.fetched c
    let k := (s.mod.core c).atIssue.fpOwn (s.mod.core c).level
    let l := k.level
    let fmt := if single then fmt32 else fmt64
    let rm := rmOf (bitsOf k.fpcsr.toNat 0 3)
    let raw := fun (r : FReg) => k.fr l r
    let x := fun (r : FReg) => if single then unbox (raw r) else raw r
    let y := fun (p : Nat × FFlags) => (fres single p.1, p.2)
    let flags := fun (k : Core) (fl : FFlags) => { k with fpcsr := k.fpcsr ||| BitVec.ofNat 32 (fl.bits * 8) }
    let quiet := fun (fl : FFlags) => fl.bits &&& bitsOf k.fpcsr.toNat 8 5 = 0
    let none' : FFlags := {}
    let trapped := fun (i : Instr) => ∃ t, exec i s0 = .next t ∧ t.pending = s.pending ∧ t.mod = (s.mod.setCore c k).coreExc c 0x07 0 0 k.ip.cursor
    let up := decide (k.handler 0x07 > l)
    let at_ := if up then k.handler 0x07 else levelM
    let code := if up then 0x07 else 0x0B
    let orig := if up then 0 else 0x07
    let late := fun (x : PendExc) => x.level = at_ ∧ bitsOf x.cause.toNat 0 8 = code ∧ bitsOf x.cause.toNat 22 8 = orig
    let noted := fun (k : Core) => { k with pendExc := k.pendExc ++ [⟨at_, BitVec.ofNat 64 (causeOf code 0 false false l orig 0 false), BitVec.ofNat 64 k.ip.cursor, 0⟩] }
    let lost := fun (k : Core) => { k with pendExc := k.pendExc.map (fun x => if late x then { x with cause := x.cause ||| BitVec.ofNat 64 (2 ^ 38) } else x) }
    let enabled := fun (i : Instr) (wrote : Core) =>
      (k.stField l 20 1 = 1 → trapped i) ∧
      (k.stField l 20 1 = 0 → l ≠ levelM → (up = true ∨ k.active.contains levelM = false) → ∃ t, exec i s0 = .next t ∧
        CoreBecomes s.pending s.mod c (if ∃ x ∈ k.pendExc, late x then lost wrote else noted wrote).next.retire t) ∧
      (k.stField l 20 1 = 0 → l = levelM ∨ (up = false ∧ k.active.contains levelM = true) → ∃ t, exec i s0 = .next t ∧ t.pending = s.pending ∧
        t.mod = (s.mod.setCore c { wrote with halted := true, haltAt := s.mod.mono, word := false }).cellFault (coreRegion c) 0x01 c 0 (wrote.bank levelM).fip.toNat)
    (∀ e ∈ [(Instr.fadd c single fd fs1 fs2, y (fmt.add rm (x fs1) (x fs2))), (.fsub c single fd fs1 fs2, y (fmt.sub rm (x fs1) (x fs2))),
        (.fmul c single fd fs1 fs2, y (fmt.mul rm (x fs1) (x fs2))), (.fdiv c single fd fs1 fs2, y (fmt.div rm (x fs1) (x fs2))),
        (.fmin c single fd fs1 fs2, y (fmt.minMaxNum false (x fs1) (x fs2))), (.fmax c single fd fs1 fs2, y (fmt.minMaxNum true (x fs1) (x fs2))),
        (.fma c single fd fs1 fs2, y (fmt.fma rm (x fd) (x fs1) (x fs2))), (.fsqrt c single fd fs1, y (fmt.sqrt rm (x fs1))),
        (.fcvtDL c single fd rs1, y (fmt.ofInt rm (signedOf 64 (s.mod.cd c rs1)))),
        (.fcvtDS c fd fs1, fmt32.convert fmt64 rm (unbox (raw fs1))),
        (.fcvtSD c fd fs1, (box (fmt64.convert fmt32 rm (raw fs1)).1, (fmt64.convert fmt32 rm (raw fs1)).2)),
        (.fmov c fd fs1, (raw fs1, none')), (.fneg c fd fs1, (fmt64.neg (raw fs1), none')), (.fabs c fd fs1, (fmt64.abs (raw fs1), none')),
        (.fmvF c fd rs1, (s.mod.cd c rs1, none'))],
      (quiet e.2.2 → ∃ t, exec e.1 s0 = .next t ∧ CoreBecomes s.pending s.mod c (flags (k.setFr l fd e.2.1) e.2.2).next.retire t) ∧
      (¬quiet e.2.2 → enabled e.1 (flags (k.setFr l fd e.2.1) e.2.2))) ∧
    let nan := fun (r : FReg) => fmt.isNaN (x r)
    let sig := fun (r : FReg) => fmt.decode (x r) == .nan true
    let nv := fun (b : Bool) => ({ nv := b } : FFlags)
    let big : Int := 9223372036854775808
    let i := fmt.toIntIn rm (-big) (big - 1) 0 (x fs1)
    ∀ e ∈ [(Instr.fcmpEq c single rd fs1 fs2, b2n (fmt.eq (x fs1) (x fs2)), nv (sig fs1 || sig fs2)),
        (.fcmpLt c single rd fs1 fs2, b2n (fmt.lt (x fs1) (x fs2)), nv (nan fs1 || nan fs2)),
        (.fcmpLe c single rd fs1 fs2, b2n (fmt.le (x fs1) (x fs2)), nv (nan fs1 || nan fs2)),
        (.fcmpUn c single rd fs1 fs2, b2n (nan fs1 || nan fs2), nv (sig fs1 || sig fs2)),
        (.fcvtLD c single rd fs1, wrapTo 64 i.1, i.2), (.fmvX c rd fs1, raw fs1, none')],
      (quiet e.2.2 → ∃ t, exec e.1 s0 = .next t ∧ CoreBecomes s.pending s.mod c (flags (k.setD l rd e.2.1) e.2.2).next.retire t) ∧
      (¬quiet e.2.2 → enabled e.1 (flags (k.setD l rd e.2.1) e.2.2))

/-- PAIR on a core that issues. Both slots read their operands as they were at issue. With both slots legal and the pair legal, and no FP flag signalled
that is enabled, NOP writes nothing, an integer op (MOV to SLTU) its 64-bit result (nothing in d0), FMOV to FMUL its f register, with the flags or-ed into
FPCSR, in binary64. BNEZ and BEQZ in slot B branch by their words where d[a] is not 0, or is 0, else the pair completes in sequence. SLDD and SLDF write
the 8 bytes at the key's cursor to d[a] or f[a], SSTD and SSTF enter them in the store buffer, and with the post-increment the key register's cursor
advances by 8; a failing key check or a misaligned cursor raises its fault for the slot, with no part performed. A reserved slot raises illegal opcode,
subcode reserved; a pair in which slot B reads or writes what slot A writes, or of two memory ops, of two FP arithmetic ops, or with a branch in slot A,
subcode illegal pair, and no part of it is performed. -/
def Obligations.PairsExecuteTogether : Prop :=
  ∀ (s0 : State) (c : CoreId) (a b : ShortOp) (m1 : Mod) (data : List Byte) (tag : Bool) (adr e : Nat), Ready s0.mod c →
    let s := s0.fetched c
    let op := fun (x : ShortOp) => x.op.toNat
    let k0 := (s.mod.core c).atIssue
    let l := k0.level
    let fp := a.isFp || b.isFp
    let k := if fp then k0.fpOwn l else k0
    let m0 := if fp then (s.mod.issuing c).fpOwn c else s.mod.issuing c
    let value := fun (x : ShortOp) =>
      let p := s.mod.word c x.a.toNat
      let q := s.mod.word c x.b.toNat
      let imm := x.b.signExtend 64
      ([0, q, p + q, p - q, p &&& q, p ||| q, p ^^^ q, p <<< (q.toNat % 64), p >>> (q.toNat % 64), p.sshiftRight (q.toNat % 64), p * q, p + imm, imm,
        p <<< x.b.toNat, p >>> x.b.toNat, p.sshiftRight x.b.toNat, (if p.slt q then 1 else 0), (if p < q then 1 else 0)] : List (BitVec 64)).getD x.op.toNat 0
    let rm := rmOf (bitsOf k.fpcsr.toNat 0 3)
    let raw := fun (r : BitVec 5) => k.fr l r.toNat
    let quietOp := fun (v : Nat) => (v, ({} : FFlags))
    let fval := fun (x : ShortOp) => if op x = 18 then quietOp (raw x.b) else if op x = 19 then quietOp (fmt64.neg (raw x.b))
      else if op x = 20 then quietOp (fmt64.abs (raw x.b)) else if op x = 21 then fmt64.add rm (raw x.a) (raw x.b)
      else if op x = 22 then fmt64.sub rm (raw x.a) (raw x.b) else fmt64.mul rm (raw x.a) (raw x.b)
    let isF := fun (x : ShortOp) => decide (18 ≤ op x) && decide (op x ≤ 23)
    let fl := fun (x : ShortOp) => if isF x then (fval x).2.bits else 0
    let quiet := fun (x : ShortOp) => fl x &&& bitsOf k.fpcsr.toNat 8 5 = 0
    let res := fun (x : ShortOp) (k : Core) => if isF x then k.setFr l x.a.toNat (fval x).1 else if op x = 0 ∨ 18 ≤ op x then k
      else k.setD l x.a.toNat (value x).toNat
    let signal := fun (n : Nat) (k : Core) => if n = 0 then k else k.setFpOf l { k.fpOf l with fpcsr := (k.fpOf l).fpcsr ||| BitVec.ofNat 32 (n * 8) }
    let both := fun (k : Core) => signal (fl b) (signal (fl a) (res b (res a k)))
    let taken := if op b = 28 then s.mod.cd c b.a.toNat ≠ 0 else s.mod.cd c b.a.toNat = 0
    let ends := fun (k : Core) =>
      let ip := k.ip.advance (4 * b.b.toInt)
      if ¬ (op b = 28 ∨ op b = 29) then k.next.retire
      else if taken then { ((k.btbAfter k.ip.cursor ip.cursor true).leaveLoops ip.cursor).retire with ip := ip }
      else (k.btbAfter k.ip.cursor 0 false).next.retire
    let raises := fun (m : Mod) (code sub ea : Nat) (slotB : Bool) => ∃ t, exec (.pair c a b) s0 = .next t ∧ t.pending = s.pending ∧
      t.mod = m.coreExc c code sub ea k0.ip.cursor true slotB
    let dst := fun (x : ShortOp) => if op x = 0 ∨ x.a = 0 then [] else [x.a.toNat]
    let srcs := fun (x : ShortOp) => if op x = 0 ∨ op x = 12 then [] else if op x = 1 then [x.b.toNat]
      else if op x ∈ [11, 13, 14, 15] then [x.a.toNat] else [x.a.toNat, x.b.toNat]
    let runs := slotLegal a = true ∧ slotLegal b = true ∧ illegalPair a b = false ∧ quiet a ∧ quiet b
    (slotLegal a = false → raises (s.mod.issuing c) 0x01 1 0 false) ∧
    (slotLegal a = true → slotLegal b = false → raises (s.mod.issuing c) 0x01 1 0 true) ∧
    (slotLegal a = true → slotLegal b = true → illegalPair a b = true → raises (s.mod.issuing c) 0x01 2 0 false) ∧
    (op a ≤ 17 → op b ≤ 17 → illegalPair a b = (dst a).any (fun r => (srcs b).contains r || (dst b).contains r)) ∧
    (op a = 28 ∨ op a = 29 ∨ (a.isMem = true ∧ b.isMem = true) ∨ (21 ≤ op a ∧ op a ≤ 23 ∧ 21 ≤ op b ∧ op b ≤ 23) → illegalPair a b = true) ∧
    (runs → a.isMem = false → b.isMem = false → ∃ t, exec (.pair c a b) s0 = .next t ∧ CoreBecomes s.pending s.mod c (ends (both k)) t) ∧
    (∀ y ∈ [(a, false), (b, true)], y.1.isMem = true → runs →
      let x := y.1
      let key := s.mod.ck c x.kr
      let load := op x = 24 ∨ op x = 26
      let chk := key.check s.mod.node 0 8 (if load then rLD else rST)
      let after := fun (m : Mod) (k : Core) =>
        let k := both k
        let k := if op x = 24 then k.setD l x.a.toNat (ofLeBytes data) else if op x = 26 then k.setFr l x.a.toNat (ofLeBytes data) else k
        if bitAt x.b.toNat 4 then k.setK l x.kr (m.filterKey ((k.k l x.kr).advance 8)) else k
      (chk = .error e → raises m0 0x02 e key.cursor y.2) ∧
      (chk = .ok adr → adr % 8 ≠ 0 → raises m0 0x03 0 adr y.2) ∧
      (load → chk = .ok adr → adr % 8 = 0 → m0.coreRead c adr 8 key.epoch k0.sys = .got m1 data tag → (m1.core c).word = true →
        ∃ t, exec (.pair c a b) s0 = .next t ∧ CoreBecomes s.pending m1 c (ends (after m1 (m1.core c))) t) ∧
      (¬ load → chk = .ok adr → adr % 8 = 0 → k.stField l 21 1 = 0 → k.sb.length < 8 →
        let v := if op x = 25 then s.mod.cd c x.a.toNat else raw x.a
        ∃ t, exec (.pair c a b) s0 = .next t ∧ CoreBecomes s.pending s.mod c (ends (after s.mod { k with
          sb := k.sb ++ [⟨adr, leBytes 8 v, none, key.epoch, BitVec.ofNat 64 k.ip.cursor, l, k.sys, some y.2, none, false⟩] })) t))

/-- SRD and SWR on a core that issues. SRD of STATUS, BANK_PIN, EXC_LEVEL, PENDING, ACTIVE, RESIDENT, FPRES, CAUSE, FIP, FADDR (with
SYS in ip), of a loop register or of RETIRED writes its value to rd; SRD of CYCLE the core cycles since the core left reset. SWR of a
loop count, of a loop start or end of a loop that is not active, of LSTAT and of STATUS writes the register. Without SYS a number
from 0x100 on raises illegal opcode, subcode privileged, and nothing is read or written; a start or end of an active loop raises
subcode loop active. -/
def Obligations.SystemRegistersReadAndWrite : Prop :=
  ∀ (s0 : State) (c : CoreId) (r : DReg) (num : BitVec 12), Ready s0.mod c →
    let s := s0.fetched c
    let k := (s.mod.core c).atIssue
    let l := k.level
    let n := num.toNat
    let v := s.mod.cd c r
    let traps := fun (i : Instr) (sub : Nat) => ∃ t, exec i s0 = .next t ∧ t.pending = s.pending ∧
      t.mod = (s.mod.issuing c).coreExc c 0x01 sub 0 k.ip.cursor
    (n ≠ 1 → n ≠ 0x20 → (n < 0x100 ∨ k.sys = true) → ∀ x, k.sysReg n = some x →
      ∃ t, exec (.srd c r num) s0 = .next t ∧ WritesD c r (x % 2 ^ 64) s t) ∧
    (∃ t, exec (.srd c r 0x020) s0 = .next t ∧ WritesD c r ((s.mod.mono - k.cyc0) * 8 / 5 % 2 ^ 64) s t) ∧
    (∀ j < 4, ∀ w < 3, n = 0x10 + 4 * w + j → (w = 2 ∨ k.lact l j = false) →
      ∃ t, exec (.swr c r num) s0 = .next t ∧ CoreBecomes s.pending s.mod c (k.setLoopReg l w j v).next.retire t) ∧
    (∃ t, exec (.swr c r 0x002) s0 = .next t ∧ CoreBecomes s.pending s.mod c (k.setSt l 0 4 v).next.retire t) ∧
    (k.sys = true → ∃ t, exec (.swr c r 0x100) s0 = .next t ∧ CoreBecomes s.pending s.mod c (k.writeStatus l v).next.retire t) ∧
    (n ≥ 0x100 → k.sys = false → traps (.srd c r num) 3 ∧ traps (.swr c r num) 3) ∧
    (∀ j < 4, ∀ w < 2, n = 0x10 + 4 * w + j → k.lact l j = true → traps (.swr c r num) 5)

/-- On a core that issues: FENCE and GATE.SYNC complete with no other effect once the store buffer is empty and nothing is awaited; while an
entry of it stays, the stores for local targets performed, or an access is awaited, they do not complete: ip stays and no word is counted. (That
GATE.SYNC waits as FENCE does is the model's choice, log entry 22.)
EWAIT completes and leaves the core waiting unless a source is pending at the current level. ERET with SYS, above level 0, returns:
the level is left and ip is the resume ip of the highest level still active, unless a pending request may be taken over that level, which it then
takes first (said where no core of a lower number is about to claim its first-claim source); at level 0 it goes on at the next word. TRAP takes the trap exception with FIP at its own word and the resume ip after it. (ERET and
TRAP are stated here for a spill that does not fail.) -/
def Obligations.OrderingAndWaitingInstructions : Prop :=
  ∀ (s0 : State) (c : CoreId) (code : BitVec 14), Ready s0.mod c →
    let s := s0.fetched c
    let k := (s.mod.core c).atIssue
    (k.sb = [] → k.waits = [] → ∀ i ∈ [Instr.fence c, .gateSync c], ∃ t, exec i s0 = .next t ∧ CoreBecomes s.pending s.mod c k.next.retire t) ∧
    (let m := (s.mod.issuing c).drain c
     (m.core c).word = true → (m.core c).sb ≠ [] ∨ (m.core c).waits ≠ [] → ∀ i ∈ [Instr.fence c, .gateSync c], ∃ t, exec i s0 = .next t ∧
       CoreBecomes s.pending m c { m.core c with word := false } t ∧ (t.mod.core c).ip = (m.core c).ip ∧ (t.mod.core c).retired = (m.core c).retired) ∧
    (∃ t, exec (.ewait c) s0 = .next t ∧
      CoreBecomes s.pending s.mod c (Core.next { k with waiting := !(k.pendEv.any (fun e => e.2 == k.level)) }).retire t) ∧
    (k.sys = true → k.level ≠ 0 →
      let m := s.mod.setCore c k.quit
      (k.quit.calls = false → m.spillFails c k.quit.level = false → ∃ t, exec (.eret c) s0 = .next t ∧
        CoreBecomes s.pending (m.spilled c k.quit.level) c k.leave.retire t ∧
        (t.mod.core c).level = maxLevel (k.active.filter (· != k.level)) ∧ (t.mod.core c).active = k.active.filter (· != k.level)) ∧
      (k.quit.calls = true →
        (∀ n, k.quit.nextSource (maxLevel k.quit.pendingLevels) = some n → s.mod.flag F.EVR_ROUTE_HI_FIRST n = true → ∀ c0 < c.val, m.claims c0 n = false) →
        let m' := m.takeLevel c (maxLevel k.quit.pendingLevels)
        ∃ t, exec (.eret c) s0 = .next t ∧ CoreBecomes s.pending m' c (m'.core c).retire t)) ∧
    (k.sys = true → k.level = 0 → ∃ t, exec (.eret c) s0 = .next t ∧ CoreBecomes s.pending s.mod c { k.retire with ip := k.ip.advance 4 } t) ∧
    (k.level ≠ levelM → k.takes (k.handler 0x08) k.level = true → s.mod.spillFails c (k.handler 0x08) = false → ∃ t, exec (.trap c code) s0 = .next t ∧
      CoreBecomes s.pending (s.mod.spilled c (k.handler 0x08)) c
        (let cause := causeOf 0x08 0 false false k.level 0 0 false
         Core.entering { k with ip := k.ip.advance 4, word := false } (k.handler 0x08) cause k.ip.cursor 0 s.mod.mono
           (some ⟨k.handler 0x08, BitVec.ofNat 64 cause, BitVec.ofNat 64 k.ip.cursor, 0⟩) none) t)

/-- A precise exception of code `code` on core c at level L, whose handler level is h: where h is above L and above the mask (or is M)
level h is entered: its CAUSE, FIP and FADDR are written, L's resume ip is kept, h becomes active and current. Otherwise, with M not
active, M is entered with cause 0x0B, the code in ORIG and FADDR 0. Where the spill that would bring h to a bank fails, M is entered with cause
0x0A from h, FADDR 0, and the resume ip of h loses its tag. At level M, or with M active and no way to enter h, the core halts and a cell fault of
cause 0x01 is recorded. Where a level is entered nothing but the core changes, and the bank image a spill writes holds good data again. -/
def Obligations.ExceptionsEnterTheirHandlerLevel : Prop :=
  ∀ (m : Mod) (c code sub faddr fip : Nat) (pair slotB : Bool),
    let k := m.core c
    let h := k.handler code
    let entered := fun (l cause fa : Nat) (m' : Mod) =>
      (m'.core c).level = l ∧ (∀ a, a ∈ (m'.core c).active ↔ a = l ∨ a ∈ k.active) ∧ ((m'.core c).bank l).cause = BitVec.ofNat 64 cause ∧
      ((m'.core c).bank l).fip = BitVec.ofNat 64 fip ∧ ((m'.core c).bank l).faddr = BitVec.ofNat 64 fa ∧
      (l ≠ k.level → ((m'.core c).bank k.level).ip = k.ip) ∧ (∀ r, (m'.core c).d l r = k.d l r) ∧ (∀ c', c' ≠ c → m'.core c' = m.core c')
    let m' := m.coreExc c code sub faddr fip pair slotB
    (k.level ≠ levelM → k.takes h k.level = true → m.spillFails c h = false →
      entered h (causeOf code sub pair slotB k.level 0 0 false) faddr m' ∧ { m' with cores := m.cores } = m.spilled c h) ∧
    (k.level ≠ levelM → k.takes h k.level = true → m.spillFails c h = true →
      entered levelM (causeOf 0x0A 0 false false h 0 0 false) 0 m' ∧ { m' with cores := m.cores } = m.unspoil (bankImage c h) 0x240 ∧
        ((m'.core c).bank h).ip.tag = false) ∧
    (k.level ≠ levelM → k.takes h k.level = false → k.active.contains levelM = false →
      entered levelM (causeOf 0x0B sub pair slotB k.level code 0 false) 0 m' ∧ { m' with cores := m.cores } = m) ∧
    (k.level = levelM ∨ (k.takes h k.level = false ∧ k.active.contains levelM = true) →
      m' = (m.setCore c { k with halted := true, haltAt := m.mono, word := false }).cellFault (coreRegion c) 0x01 c 0 (k.bank levelM).fip.toNat)

/-- BANKRD and BANKWR with SYS in ip, of a level from 0 to 8 no access of which is awaited, on a core that issues: for the selectors of d registers, loop registers,
STATUS and k registers BANKRD copies the register of level n to the register the rd field names, and BANKWR copies it back (nothing
to d0; STATUS by its write rules); the resume ip of another level is copied with selector 0x050, and of the current level raises
illegal opcode, subcode context self. Nothing else of the module changes.
CTXSAVE.LO, CTXSAVE.HI, CTXLOAD.LO and CTXLOAD.HI on a core that issues with an empty store buffer and no access of level n awaited, where the checks pass, in
their order, and give the area: a save whose granules are all stored, and a load whose granules are all read, complete at the state
the last access leaves, a load having written the registers of level n; an operand that names the current level raises illegal
opcode, subcode context self, with no access made. The LO half has 25 granules from the LINK, the HI half k0 to k15, the FP registers
when level n owns them, and the granule of FPCSR and FLAGS. -/
def Obligations.BankInstructionsReachOtherLevels : Prop :=
  (∀ (s0 : State) (c : CoreId) (r n : BitVec 5) (i : Nat), Ready s0.mod c →
     let s := s0.fetched c
     (s.mod.core c).sys = true → n.toNat ≤ 8 → (∀ w ∈ (s.mod.core c).waits, w.level ≠ n.toNat) →
     let k := (s.mod.core c).atIssue
     let l := k.level
     let lv := n.toNat
     let sel := fun (x : Nat) => BitVec.ofNat 9 x
     let ends := fun (i : Instr) (k' : Core) => ∃ t, exec i s0 = .next t ∧ CoreBecomes s.pending s.mod c k'.next.retire t
     (i < 32 → ends (.bankrd c r n (sel i)) (k.setD l r.toNat (k.d lv i)) ∧ ends (.bankwr c r n (sel i)) (k.setD lv i (k.d l r.toNat))) ∧
     (i < 12 → ends (.bankrd c r n (sel (0x20 + i))) (k.setD l r.toNat (k.loopReg lv (i / 4) (i % 4))) ∧
       ends (.bankwr c r n (sel (0x20 + i))) (k.setLoopReg lv (i / 4) (i % 4) (k.d l r.toNat))) ∧
     ends (.bankrd c r n (sel 0x2C)) (k.setD l r.toNat (k.status lv)) ∧ ends (.bankwr c r n (sel 0x2C)) (k.writeStatus lv (k.d l r.toNat)) ∧
     (i < 16 → r.toNat < 16 → ends (.bankrd c r n (sel (0x40 + i))) (k.setK l r.toNat (s.mod.filterKey (k.k lv i))) ∧
       ends (.bankwr c r n (sel (0x40 + i))) (k.setK lv i (s.mod.filterKey (k.k l r.toNat)))) ∧
     (lv ≠ l → r.toNat < 16 → ends (.bankrd c r n (sel 0x50)) (k.setK l r.toNat (s.mod.filterKey (k.bank lv).ip)) ∧
       ends (.bankwr c r n (sel 0x50)) (k.setBank lv { k.bank lv with ip := s.mod.filterKey (k.k l r.toNat) })) ∧
     (lv = l → r.toNat < 16 → ∃ t, exec (.bankrd c r n (sel 0x50)) s0 = .next t ∧ t.pending = s.pending ∧
       t.mod = (s.mod.issuing c).coreExc c 0x01 8 0 k.ip.cursor)) ∧
  (∀ (s0 : State) (c : CoreId) (kx kb : KReg) (n : BitVec 5) (area : Nat) (m : Mod), Ready s0.mod c →
     let s := s0.fetched c
     (s.mod.core c).sb = [] → (∀ w ∈ (s.mod.core c).waits, w.level ≠ n.toNat) →
     let m0 := s.mod.issuing c
     let k := (s.mod.core c).atIssue
     let ends := fun (i : Instr) => (m.core c).word = true → ∃ t, exec i s0 = .next t ∧ CoreBecomes s.pending m c (m.core c).next.retire t
     let save := rST ||| rSK ||| rSKL
     let load := rLD ||| rLK
     let fp := k.stField n.toNat 22 1 == 1
     (m0.ctxCheck c kb n.toNat save = .ok area → ctxSaveFrom c 0 n.toNat kb kx area [] (ctxOffsets false fp) m0 = .seq m → ends (.ctxsaveLo c kx kb n)) ∧
     (m0.ctxCheck c kb n.toNat save = .ok area → ctxSaveFrom c 1 n.toNat kb 0 area [] (ctxOffsets true fp) m0 = .seq m → ends (.ctxsaveHi c kb n)) ∧
     (m0.ctxCheck c kb n.toNat load = .ok area → ctxLoadFrom c 2 n.toNat kb kx area 40 [] m0 = .seq m → ends (.ctxloadLo c kx kb n)) ∧
     (m0.ctxCheck c kb n.toNat load = .ok area → ctxLoadFrom c 3 n.toNat kb 0 area 40 [] m0 = .seq m → ends (.ctxloadHi c kb n)) ∧
     (k.sys = true → n.toNat = k.level → ∀ i ∈ [Instr.ctxsaveLo c kx kb n, .ctxsaveHi c kb n, .ctxloadLo c kx kb n, .ctxloadHi c kb n],
       ∃ t, exec i s0 = .next t ∧ t.pending = s.pending ∧ t.mod = m0.coreExc c 0x01 8 0 k.ip.cursor) ∧
     (ctxOffsets false fp).length = 25 ∧ (ctxOffsets true true).length = 33 ∧ (ctxOffsets true false).length = 17)

/-- EVD_DOORBELL raises the core's own source. EVENT_LATCH of a source on its way to a core that takes it (enabled there, the core
powered and out of reset, the source not yet pending) makes it pending at the level the distributor gives it. EWAIT_WAKE ends the wait
of a running core with a source pending at its current level. INTERRUPT_ENTRY takes the highest pending level when it is above the
current one and the mask: a pending exception of that level first, which enters it with its own CAUSE, FIP and FADDR. Where the spill it needs
fails, M is entered instead with cause 0x0A, the level's resume ip loses its tag and the request stays pending. A source that arrives before the
first word of the handler issues and is above that level supersedes the entry. With no exception pending there the lowest event pending at the level
is taken: the level is entered with its source, its bit is cleared and it is recorded as last taken; of a first-claim source the entry is the claim, which
clears the bit at every other core, unless a core of a lower number claims it in the same cycle: then only the bit of this one is cleared.
EVD_PEND_CLEAR of sources that are not first-claim leaves exactly the pending sources whose bits were not written.
LOAD_RESPONSE for an integer load of s bytes whose bytes have come, in good order and under no REP: the register of the issuing
level holds them, extended, and the word counts as completed. L1_MISS_FILL of a line of the code store that the core's gate takes
whole puts the line first in the core's instruction or data cache. ILLEGAL_OPCODE of a word that decodes to nothing raises illegal
opcode, subcode reserved, at a core that issues. INSTRUCTION_FETCH_FAULT on a core that may issue raises the fault the fetch at ip meets. -/
def Obligations.EventsReachTheirCore : Prop :=
  (∀ (s : State) (c : CoreId) (w : Writer),
     let m := s.mod
     let k := m.core c
     (∃ t, exec (.evdDoorbell w c) s = .next t ∧ t = { s with mod := m.raise c }) ∧
     (∀ src : BitVec 8, (c.val, src.toNat) ∈ m.inFlight → m.latches c src.toNat = true → (∀ e ∈ k.pendEv, e.1 ≠ src.toNat) →
       ∃ t, exec (.eventLatch c src) s = .next t ∧ t.pending = s.pending ∧ t.mod.inFlight = m.inFlight.erase (c.val, src.toNat) ∧
         (t.mod.core c).pendEv = k.pendEv ++ [(src.toNat, m.evdLevel c src.toNat)] ∧ t.mod.regs = m.regs) ∧
     (k.waiting = true → k.wakes = true → m.coreRuns c = true →
       ∃ t, exec (.ewaitWake c) s = .next t ∧ CoreBecomes s.pending m c { k with waiting := false } t) ∧
     (∀ (e : PendExc) (err : Bool), m.coreRuns c = true → m.superseding c = false → k.calls = true → e.level = maxLevel k.pendingLevels →
       (m.spillFails c e.level err = false → k.pendExc.find? (·.level == e.level) = some e →
         ∃ t, exec (.interruptEntry c ⟨err, none, 0⟩) s = .next t ∧ CoreBecomes s.pending (m.spilled c e.level) c
           (Core.entering { k with pendExc := k.pendExc.erase e } e.level e.cause.toNat e.fip.toNat e.faddr.toNat m.mono (some e) none) t) ∧
       (m.spillFails c e.level err = true → e.level ≠ k.level → ∃ t, exec (.interruptEntry c ⟨err, none, 0⟩) s = .next t ∧ t.pending = s.pending ∧
         (t.mod.core c).level = levelM ∧ ((t.mod.core c).bank levelM).cause = BitVec.ofNat 64 (causeOf 0x0A 0 false false e.level 0 0 false) ∧
         ((t.mod.core c).bank e.level).ip.tag = false ∧ (t.mod.core c).pendExc = k.pendExc ∧ (t.mod.core c).pendEv = k.pendEv)) ∧
     (∀ (n : Nat) (err : Bool) (same : BitVec 32), m.coreRuns c = true → m.superseding c = false → k.calls = true →
       let l := maxLevel k.pendingLevels
       m.spillFails c l err = false → (∀ x ∈ k.pendExc, x.level ≠ l) → (n, l) ∈ k.pendEv → (∀ x ∈ k.pendEv, x.2 = l → n ≤ x.1) →
       let before := Tbl.get (0, false) k.last l
       let entered := Core.entering { k with pendEv := k.pendEv.filter (·.1 != n), last := Tbl.set (0, false) k.last l (n, true) } l
         (causeOf 0 0 false false k.level 0 n false) k.ip.cursor 0 m.mono none (some (n, before))
       (m.flag F.EVR_ROUTE_HI_FIRST n = false → ∃ t, exec (.interruptEntry c ⟨err, none, same⟩) s = .next t ∧
         CoreBecomes s.pending (m.spilled c l) c entered t) ∧
       (m.flag F.EVR_ROUTE_HI_FIRST n = true → m.deniedClaim c same.toNat = none → ∃ t, exec (.interruptEntry c ⟨err, none, same⟩) s = .next t ∧
         t.mod.core c = entered ∧ t.mod.rd F.EVR_LAST_CLAIM_SOURCE = n % 256 ∧ t.mod.rd F.EVR_LAST_CLAIM_CORE = c ∧
         ∀ c' < 32, c' ≠ c.val → ∀ x ∈ (t.mod.core c').pendEv, x.1 ≠ n) ∧
       (m.flag F.EVR_ROUTE_HI_FIRST n = true → m.deniedClaim c same.toNat = some n → ∃ t, exec (.interruptEntry c ⟨err, none, same⟩) s = .next t ∧
         t.mod = m.setCore c { k with pendEv := k.pendEv.filter (·.1 != n) })) ∧
     (∀ n : BitVec 8, m.coreRuns c = true → m.superseding c = false → k.calls = true →
       let l := maxLevel k.pendingLevels
       let m1 := m.evdArrive c n.toNat
       let l' := maxLevel (m1.core c).pendingLevels
       l < l' → (m1.core c).takes l' (m1.core c).level = true → m1.spillFails c l = false →
       ∃ t, exec (.interruptEntry c ⟨false, some n, 0⟩) s = .next t ∧ t = { s with mod := (m1.supersede c l l').takeLevel c l' }) ∧
     ∀ (j : Fin 8) (bits : BitVec 32), (∀ n : Nat, m.flag F.EVR_ROUTE_HI_FIRST n = false) →
       ∃ t, exec (.evdPendClear w c j bits) s = .next t ∧ t.pending = s.pending ∧
         ∀ e : Nat × Nat, e ∈ (t.mod.core c).pendEv ↔ e ∈ k.pendEv ∧ ¬(e.1 / 32 = j.val ∧ bits.getLsbD (e.1 % 32) = true)) ∧
  (∀ (s : State) (c : CoreId),
     let m := s.mod
     let k := m.core c
     (∀ (w : Wait) (rd sz : Nat) (sg : Bool) (d : List Byte) (tags : Nat),
       k.waits.find? (fun w => w.resp.isSome || w.fault.isSome) = some w → w.kind = .int rd sz sg → w.fault = none →
       w.resp = some (d, tags, false) → w.rep = none →
       ∃ t, exec (.loadResponse c) s = .next t ∧ CoreBecomes s.pending m c
         (Core.retire (Core.setD { k with waits := k.waits.filter (·.tid != w.tid) } w.level rd (extended (d.take sz) sg))) t) ∧
     (∀ (fetch : Bool) (line : BitVec 46) (epoch : BitVec 6) (g : Nat), targetOf (64 * line.toNat) = .code g → k.inReset = false →
       m.gateTest (coreAcc c k.sys epoch.toNat (64 * line.toNat) 64 (if fetch then .fetch else .load)) = none →
       ∃ t, exec (.l1MissFill c fetch line epoch) s = .next t ∧ t.pending = s.pending ∧
         (if fetch then (t.mod.core c).l1i else (t.mod.core c).l1d).head? = some (line.toNat, epoch.toNat) ∧ t.mod.mem = m.mem ∧ t.mod.regs = m.regs) ∧
     (∀ word : BitVec 32, Ready m c → decodeWord c word.toNat 0 = none →
       ∃ t, exec (.illegalOpcode c word) s = .next t ∧ t.pending = s.pending ∧ t.mod =
         ((m.fetched c).issuing c).coreExc c 0x01 1 0 ((m.fetched c).core c).ip.cursor (bitAt word.toNat 31) (bitAt word.toNat 31 && slotLegal (slotAt word.toNat 16))) ∧
     ∀ (e : Exc) (m' : Mod), m.canIssue c = true → k.barred [] = false → m.fetchFault c = (m', some e) →
       ∃ t, exec (.instructionFetchFault c) s = .next t ∧ t.pending = s.pending ∧ t.mod = m'.coreExc c e.code e.sub e.ea k.ip.cursor)

/-- With SRC 0 a write of TB_PHASE replaces the outstanding correction by DELTA and steps nothing. A write of TB_STEP while LOCKED is 0
or SRC is 0 makes TB_NOW the value written, drops the correction, records the step in STEP_LAST and sets STEPPED; while LOCKED is 1
under another source it changes nothing but STEP_REFUSED. With SRC 2 a write of TB_FREQ sets ADJ, clamped to 858,993 either way. With
SRC 3 or 4 a 1PPS edge moves TB_PPS_SEC to the next second; without a good 10 MHz under SRC 3 it is a missing interval and changes nothing
else, with one the frequency is that of the 10 MHz, and the offset is judged. With no rate offset, when the slew completes no correction is left
and TB_MONO has run as long as 858,993 units of 2^-32 a nanosecond need.
HOLDOVER_START with a source other than the local oscillator and out of holdover runs to four nominal intervals after the last sync interval,
sets HOLDOVER and clears SRC_OK, and clears LOCKED at once exactly when HOLD is 0. HOLD_EXPIRY in holdover runs to the end of its HOLD seconds
and clears LOCKED; out of holdover it changes nothing. With SRC 0 there is no holdover. (SRC is 0 too at a grandmaster that is no candidate: the
model's reading, log entry 81.)
SLOT_INSTANT of an instant the slot may yield (a multiple of its period, after the last one yielded and not skipped by a step
of TB_NOW) brings time to it, records it as the latest and counts it in SCH_COUNT; the same instant is not yielded again. SLOT_EVENT
of a yielded instant whose event was not raised yet raises EV(224 + slot) at T plus the slot's delay; of any other it does nothing. -/
def Obligations.TimeBaseCommandsSetTheClock : Prop :=
  ((∀ (s : State) (w : Writer) (d a : BitVec 32) (v : BitVec 64) (c : Clk10),
      let m := s.mod
      let src := m.tbSrc
      let adj : Int := if a.toInt > 858993 then 858993 else if a.toInt < -858993 then -858993 else a.toInt
      (src = 0 → ∃ t, exec (.tbPhaseWrite w d) s = .next t ∧ t = { s with mod := { m with corr := d.toInt * 4294967296 } }) ∧
      (m.flag F.TB_STATUS_LOCKED = false ∨ src = 0 → ∃ t, exec (.tbStepWrite w v) s = .next t ∧ t.pending = s.pending ∧ t.mod.now = v.toNat ∧
        t.mod.corr = 0 ∧ t.mod.mono = m.mono ∧ t.mod.flag F.TB_STATUS_STEPPED = true ∧
        t.mod.rd F.TB_STEP_LAST_DELTA = wrapTo 64 ((v.toNat : Int) - m.now) ∧ (src = 0 → t.mod.flag F.TB_STATUS_LOCKED = m.flag F.TB_STATUS_LOCKED)) ∧
      (m.flag F.TB_STATUS_LOCKED = true → src ≠ 0 → ∃ t, exec (.tbStepWrite w v) s = .next t ∧ t = { s with mod := m.put F.TB_STATUS_STEP_REFUSED 0 true }) ∧
      (src = 2 → ∃ t, exec (.tbFreqWrite w a) s = .next t ∧ t = { s with mod := m.wr F.TB_FREQ_ADJ 0 (wrapTo 32 adj) }) ∧
      (src ≠ 3 → src ≠ 4 → ∃ t, exec (.ppsEdge c) s = .next t ∧ t = s) ∧
      (src = 3 → clkGood c = false → ∃ t, exec (.ppsEdge c) s = .next t ∧ t = { s with mod := m.wr F.TB_PPS_SEC_SEC 0 (m.rd F.TB_PPS_SEC_SEC + 1) }) ∧
      (src = 4 ∨ (src = 3 ∧ clkGood c = true) →
        let off : Int := (m.now : Int) - (m.rd F.TB_PPS_SEC_SEC * 1000000000 + m.rd F.TB_PPS_DELAY_DELAY : Nat)
        let m1 := m.wr F.TB_PPS_SEC_SEC 0 (m.rd F.TB_PPS_SEC_SEC + 1)
        let m' := (if src = 3 then { m1 with rate10 := c.rate.toInt } else m1).syncOffset off
        ∃ t, exec (.ppsEdge c) s = .next t ∧ t = { s with mod := m' }) ∧
      (m.freqAdj = 0 → ∃ t, exec .slewComplete s = .next t ∧ t.pending = s.pending ∧ t.mod.corr = 0 ∧
        t.mod.mono = m.mono + (m.corr.natAbs + 858992) / 858993 ∧ t.mod.regs = m.regs)) ∧
   (∀ s : State,
      let m := s.mod
      (m.tbSrc = 0 ∨ m.flag F.TB_STATUS_HOLDOVER = true → ∃ t, exec .holdoverStart s = .next t ∧ t = s) ∧
      (m.tbSrc ≠ 0 → m.flag F.TB_STATUS_HOLDOVER = false → ∃ t, exec .holdoverStart s = .next t ∧ t.pending = s.pending ∧
        t.mod.flag F.TB_STATUS_HOLDOVER = true ∧ t.mod.flag F.TB_STATUS_SRC_OK = false ∧ t.mod.mono = Nat.max m.mono m.missAt ∧
        t.mod.now = (m.toMono m.missAt).now ∧ t.mod.holdFrom = t.mod.mono ∧
        t.mod.flag F.TB_STATUS_LOCKED = (m.flag F.TB_STATUS_LOCKED && decide (m.rd F.TB_CTRL_HOLD ≠ 0))) ∧
      (m.tbSrc ≠ 0 → m.flag F.TB_STATUS_HOLDOVER = true → ∃ t, exec .holdExpiry s = .next t ∧ t.pending = s.pending ∧ t.mod.flag F.TB_STATUS_LOCKED = false ∧
        t.mod.mono = Nat.max m.mono (m.holdFrom + m.rd F.TB_CTRL_HOLD * 1000000000)) ∧
      (m.tbSrc = 0 ∨ m.flag F.TB_STATUS_HOLDOVER = false → ∃ t, exec .holdExpiry s = .next t ∧ t = s))) ∧
  (∀ (s : State) (sl : SlotId) (t : BitVec 64),
     let m := s.mod
     (m.slotYields sl t.toNat = true → ∃ u, exec (.slotInstant sl t) s = .next u ∧ u.pending = s.pending ∧
       (u.mod.slot sl).last = some t.toNat ∧ (u.mod.slot sl).events = (m.slot sl).events ++ [t.toNat] ∧ u.mod.rd F.SCH_COUNT_COUNT sl = (m.rd F.SCH_COUNT_COUNT sl + 1) % 2 ^ 32 ∧
       u.mod.slotYields sl t.toNat = false ∧ u.mod.mono = (m.toNow t.toNat).mono) ∧
     (m.slotYields sl t.toNat = false → ∃ u, exec (.slotInstant sl t) s = .next u ∧ u = s) ∧
     (t.toNat ∉ (m.slot sl).events → ∃ u, exec (.slotEvent sl t) s = .next u ∧ u = s) ∧
     (t.toNat ∈ (m.slot sl).events →
       let m1 := m.toNow (t.toNat + m.slotDelay sl t.toNat)
       ∃ u, exec (.slotEvent sl t) s = .next u ∧
         u = { s with mod := (m1.setSlot sl { m.slot sl with events := (m.slot sl).events.erase t.toNat }).raise (224 + sl) }))

/-- An occurrence on its way to a clock arrives 10 ns after its source or as much later as the command comes, 30 ns at most; with none on its way
CLOCK_START_ARRIVAL and CLOCK_STOP_ARRIVAL do nothing. CLK_CMD_START and CLK_CMD_STOP are such sources where the software is the clock's, and nothing else.
Of a clock in mode 1, 2 or 3 whose flag is not due: a start arrival finds it stopped and begins an interval at the instant it arrives; found running,
mode 2 begins a new interval and modes 1 and 3 set RESTART_LOST and go on. A stop of a running clock (in mode 3 not before MIN, and not in the
nanosecond of a start) stops it in time: ELAPSED is the interval and FALLEN is unchanged. Of arrivals in one nanosecond a start comes after the
stop where the clock ran before them, makes an interval of 0 with the stop where it stood, and a second start is the same one. Every other
clock keeps its state. (The instant
within the 10 to 30 ns that R121 allows is the model's choice, log entry 81.) -/
def Obligations.ChessClocksMeasureIntervals : Prop :=
  ∀ (s : State) (n : ClockId) (w : Writer),
    let m := s.mod
    let k := m.clk n
    let md := m.clkMode n
    let lim := m.rd F.CLK_LIMIT_LIMIT n
    let oldest := fun (start : Bool) => m.heard.find? (fun e => e.1 == n.val && e.2.1 == start)
    let runs := fun (e : Nat × Bool × Nat) => ({ m with heard := m.heard.erase e }).toMono (e.2.2 + 10)
    let arrives := fun (start : Bool) (a : Nat) (m1 : Mod) => ∃ e, oldest start = some e ∧ m1 = runs e ∧ a = Nat.min (runs e).mono (e.2.2 + 30)
    let starts := fun (i : Instr) (a : Nat) (m1 : Mod) => i = .clockStartArrival n ∧ arrives true a m1
    let stops := fun (i : Instr) (a : Nat) (m1 : Mod) => i = .clockStopArrival n ∧ arrives false a m1
    let sent := fun (i : Instr) (software start : Bool) => ∃ t, exec i s = .next t ∧
      t = { s with mod := if software then { m with heard := m.heard ++ [(n.val, start, m.mono)] } else m }
    sent (.clkCmdStart w n) (decide (m.rd F.CLK_SRC_START n = 0x128)) true ∧ sent (.clkCmdStop w n) (decide (m.rd F.CLK_SRC_STOP n = 0x128)) false ∧
    let fresh := fun (a : Nat) => ∀ x, k.together = some x → x.at_ ≠ a
    let others := fun (m1 : Mod) (t : State) => t.pending = s.pending ∧ t.mod.mono = m1.mono ∧ t.mod.now = m1.now ∧ t.mod.heard = m1.heard ∧
      (∀ n', n' ≠ n.val → t.mod.clk n' = m.clk n') ∧ t.mod.flag F.CLK_STATUS_FALLEN n = m.flag F.CLK_STATUS_FALLEN n
    (oldest true = none → ∃ t, exec (.clockStartArrival n) s = .next t ∧ t = s) ∧
    (oldest false = none → ∃ t, exec (.clockStopArrival n) s = .next t ∧ t = s) ∧
    ((md = 1 ∨ md = 2 ∨ md = 3) →
      (∀ i a m1, starts i a m1 → k.start = none → fresh a → ∃ t, exec i s = .next t ∧ (t.mod.clk n).start = some a ∧
        t.mod.flag F.CLK_STATUS_RUNNING n = true ∧ others m1 t) ∧
      (∀ i a m1 t0, starts i a m1 → k.start = some t0 → a < t0 + lim + 1 → fresh a → ∃ t, exec i s = .next t ∧
        (t.mod.clk n).start = some (if md = 2 then a else t0) ∧ (md ≠ 2 → t.mod.flag F.CLK_STATUS_RESTART_LOST n = true) ∧ others m1 t) ∧
      (∀ i a m1 t0, stops i a m1 → k.start = some t0 → a < t0 + lim + 1 → (md = 3 → m.rd F.CLK_MIN_MIN n ≤ a - t0) →
        fresh a → m.flag F.CLK_CTRL_AUTOREL n = false →
        ∃ t, exec i s = .next t ∧ (t.mod.clk n).start = none ∧ t.mod.flag F.CLK_STATUS_RUNNING n = false ∧
          t.mod.rd F.CLK_ELAPSED_TIME n = (a - t0) % 2 ^ 40 ∧ others m1 t) ∧
      (∀ i a m1 t0 lost, starts i a m1 → k.together = some ⟨a, some t0, lost, false, true⟩ → k.start = none → ∃ t, exec i s = .next t ∧
        (t.mod.clk n).start = some a ∧ t.mod.flag F.CLK_STATUS_RUNNING n = true ∧ others m1 t) ∧
      (∀ i a m1 t0 lost x, starts i a m1 → k.together = some ⟨a, t0, lost, true, x⟩ → k.start = none → ∃ t, exec i s = .next t ∧
        (t.mod.clk n).start = none ∧ others m1 t) ∧
      ∀ i a m1 lost, stops i a m1 → k.together = some ⟨a, none, lost, true, false⟩ → k.start = some a → md ≠ 3 →
        m.flag F.CLK_CTRL_AUTOREL n = false → ∃ t, exec i s = .next t ∧ (t.mod.clk n).start = none ∧
          t.mod.rd F.CLK_ELAPSED_TIME n = 0 ∧ others m1 t)

/-- FLAG_FALL of a clock running since t0 in mode 1, 2 or 3: time runs to t1 = t0 + LIMIT + 1 of TB_MONO; the clock is stopped with
FALLEN set, RUNNING clear and ELAPSED t1 - t0, one more fall is counted (saturating), on probation in CFG_PROB_FALLS too, and every other clock,
every port and the fault records are as before; with EV_EN 1 the group's event is raised. Then the action follows: none with ACTION 0 or at a
standby; the bound ports held or driven safe, HOLDING showing it; a region fault of cause 0x06; a device fault of cause 0x07; a castling
request on a twin and a device fault elsewhere; and the clock is mirrored.
CLK_CMD.RELEASE of a clock that holds its ports or drives them safe and has no fall due ends that: the clock holds no port, HOLDING is clear, and
the status of the block's ports shows what still holds them; every other clock keeps its hold. Of a clock that holds none it changes
nothing. One that arrives after t1 and within 1 us of it, before the ports are held, cancels the hold or safe of that fall: the flag falls and
no port is held. (That FLAG_FALL is one step with its t4, and which releases fall between t1 and t4, are the model's choices, log entries 15
and 81.) -/
def Obligations.FlagFallStopsTheClockAndReports : Prop :=
  (∀ (s : State) (n : ClockId) (t0 : Nat),
     let m := s.mod
     let md := m.clkMode n
     let t1 := t0 + m.rd F.CLK_LIMIT_LIMIT n + 1
     let reported := fun (y : Mod) => y.mono = Nat.max m.mono t1 ∧ (y.clk n).start = none ∧ (y.clk n).hold = (m.clk n).hold ∧
       y.flag F.CLK_STATUS_FALLEN n = true ∧ y.flag F.CLK_STATUS_RUNNING n = false ∧
       y.rd F.CLK_ELAPSED_TIME n = (t1 - t0) % 2 ^ 40 ∧ y.rd F.CLK_FALLS_COUNT n = Nat.min (m.rd F.CLK_FALLS_COUNT n + 1) 0xFFFFFFFF ∧
       (m.rd F.CFG_MOVE_PROB_MOVE ≠ 0 → y.rd F.CFG_PROB_FALLS_COUNT = satAdd32 (m.rd F.CFG_PROB_FALLS_COUNT) 1) ∧
       (∀ n', n' ≠ n.val → y.clk n' = m.clk n') ∧ y.ports = m.ports ∧ y.fq = m.fq
     let act := m.rd F.CLK_CTRL_ACTION n
     let g := clockRegion n
     let src := 96 + n.val / 8
     (md = 1 ∨ md = 2 ∨ md = 3) → (m.clk n).start = some t0 → (m.clk n).relAt = none →
       ∃ t y, exec (.flagFall n) s = .next t ∧ t.pending = s.pending ∧ reported y ∧
         let x := if m.flag F.CLK_CTRL_EV_EN n then y.raise src else y
         let acts := fun (z : Mod) => t.mod = z.clkMirror n
         let holds := fun (safe : Bool) => acts (x.clkImpose n safe (m.rd F.CLK_BIND_BLOCK n) (m.rd F.CLK_BIND_MASK_MASK n)) ∧
           (m.rd F.CLK_BIND_MASK_MASK n ≠ 0 → t.mod.flag F.CLK_STATUS_HOLDING n = true ∧
             (t.mod.clk n).hold = some (m.rd F.CLK_BIND_BLOCK n, m.rd F.CLK_BIND_MASK_MASK n, safe))
         (m.isStandby = true ∨ act = 0 ∨ 6 ≤ act → acts x ∧ t.mod.ports = m.ports) ∧
         (m.isStandby = false → (act = 1 → holds false) ∧ (act = 2 → holds true) ∧ (act = 3 → acts (x.regionFault g 0x06 n src)) ∧
           (act = 4 ∨ (act = 5 ∧ m.flag F.CAR_STATUS_TWIN = false) → acts (x.deviceFault 0x07 n src)) ∧
           (act = 5 → m.flag F.CAR_STATUS_TWIN = true → acts (x.castleRequest 0).1))) ∧
  (∀ (s : State) (n : ClockId) (w : Writer) (b mask : Nat) (safe : Bool),
     let m := s.mod
     ((m.clk n).hold = none → (∀ e ∈ m.heard, e.1 ≠ n.val) → (∀ t1, m.clkDue n = some t1 → m.mono < t1) → ∃ t, exec (.clkCmdRelease w n) s = .next t ∧ t = s) ∧
     ((m.clk n).hold = none → (∃ t1, m.clkDue n = some t1 ∧ t1 < m.mono ∧ m.mono < t1 + 1000) → (m.rd F.CLK_CTRL_ACTION n = 1 ∨ m.rd F.CLK_CTRL_ACTION n = 2) →
       ∃ t, exec (.clkCmdRelease w n) s = .next t ∧ t.pending = s.pending ∧
       t.mod.flag F.CLK_STATUS_FALLEN n = true ∧ (t.mod.clk n).start = none ∧ (t.mod.clk n).hold = none ∧ t.mod.ports = m.ports) ∧
     ((m.clk n).hold = some (b, mask, safe) → (∀ e ∈ m.heard, e.1 ≠ n.val) → (∀ t1, m.clkDue n = some t1 → m.mono < t1) → ∃ t, exec (.clkCmdRelease w n) s = .next t ∧
       t = { s with mod := ((m.setClk n { m.clk n with hold := none }).put F.CLK_STATUS_HOLDING n false).each (blockPorts b) Mod.showHold } ∧
       (t.mod.clk n).hold = none ∧ t.mod.flag F.CLK_STATUS_HOLDING n = false ∧ ∀ n', n' ≠ n.val → t.mod.clk n' = m.clk n'))

/-- At a port p: NETCHK begins a check of a port in a mode that drives no output, heard, no standby's, not in a change before t2 and in no
check; in an output mode it does nothing. FRONT_END_RECONFIGURED, of a port before t1, ends a change to off; to a mode that drives no output
from off it begins the network check, from another mode or on a module that behaves as a standby it runs none, so that t5 is its settling time
from now; and to an output mode it drives SAFE_CODE where PORT_SAFE says so. In a quadrature pair the odd port takes its even port's t5, and waits
for it where that port is not past t2. NETWORK_CHECK_DONE inside a change records the resistance and its verdict: passed, the effective mode stays;
failed, the port is off, driving nothing, with MISMATCH and MISREASON 1. TRANSITION_END past t2 clears TRANSITION once t5 has come and no output is
awaited. No clause writes another port's state, but for what a quadrature pair shares: the level of channel B, and t5. -/
def Obligations.PortModeChangesFollowTheirSequence : Prop :=
  ∀ (s : State) (p : PortId) (w : Writer) (ohms : BitVec 24),
    let m := s.mod
    let q := m.port p
    let e := m.effMode p
    let others := fun (t : Mod) => ∀ p', p' ≠ p.val → t.port p' = m.port p'
    let odd := e = 10 ∧ p.val % 2 = 1
    let but := fun (t : Mod) => (∀ p', p' ≠ p.val → (odd → p' ≠ p.val - 1) → t.port p' = m.port p') ∧
      (odd → t.port (p.val - 1) = { m.port (p.val - 1) with levelB := false })
    let even := (m.port (p.val - 1)).phase
    let t5 := m.now + m.settleOf p e
    let noCheck := q.oldEff ≠ 0 ∨ m.asStandby = true
    (isOutMode e = false → m.asStandby = false → (m.die (portDie p)).isolated = false → (q.phase = .idle ∨ q.phase = .run) → q.checking = false →
      Does (.netchk w p) s fun t => t = m.setPort p { q with checking := true, tests := openWin q.tests m.now }) ∧
    (isOutMode e = true → Does (.netchk w p) s fun t => t = m) ∧
    (q.phase = .reconf → e = 0 → Does (.frontEndReconfigured p) s fun t => t.flag F.PORT_STATUS_TRANSITION p = false ∧
      (t.port p).phase = .idle ∧ (t.port p).t5 = m.now ∧ OnlyRegs [(.PORT_STATUS, p)] m t ∧ others t) ∧
    (q.phase = .reconf → e ≠ 0 → isOutMode e = false → q.oldEff = 0 → m.asStandby = false → Does (.frontEndReconfigured p) s fun t =>
      (t.port p).phase = .check ∧ t.regs = m.regs ∧ t.mono = m.mono ∧ but t) ∧
    (q.phase = .reconf → e ≠ 0 → e ≠ 10 → isOutMode e = false → noCheck → Does (.frontEndReconfigured p) s fun t => (t.port p).t5 = t5 ∧ t.mono = m.mono ∧
      others t ∧ (m.settleOf p e ≠ 0 → (t.port p).phase = .run ∧ t.regs = m.regs) ∧
      (m.settleOf p e = 0 → q.awaitT3 = false → (t.port p).phase = .idle ∧ t.flag F.PORT_STATUS_TRANSITION p = false)) ∧
    (q.phase = .reconf → e = 10 → p.val % 2 = 0 → noCheck → Does (.frontEndReconfigured p) s fun t => (t.port p).t5 = t5 ∧
      (m.effMode (p.val + 1) = 10 → (m.port (p.val + 1)).phase = .run → (t.port (p.val + 1)).t5 = t5) ∧
      ∀ p', p' ≠ p.val → p' ≠ p.val + 1 → t.port p' = m.port p') ∧
    (q.phase = .reconf → odd → noCheck → Does (.frontEndReconfigured p) s fun t => but t ∧
      (even = .reconf ∨ even = .check → (t.port p).phase = .run ∧ (t.port p).t5 = q.t5 ∧ t.regs = m.regs) ∧
      (even ≠ .reconf → even ≠ .check → (t.port p).t5 = (m.port (p.val - 1)).t5)) ∧
    (q.phase = .reconf → isOutMode e = true → m.rd F.PORT_SAFE_ACTION p = 1 → m.twin.lossAct ≠ 2 → noCheck → q.awaitT3 = true →
      Does (.frontEndReconfigured p) s fun t => t.rd F.PORT_OUT_CODE p = m.rd F.PORT_SAFE_SAFE_CODE p ∧ (t.port p).driving = true ∧
        (t.port p).phase = .run ∧ (t.port p).t5 = t5 ∧ OnlyRegs [(.PORT_OUT, p)] m t ∧ others t) ∧
    (q.phase = .reconf → isOutMode e = true → m.rd F.PORT_SAFE_ACTION p = 1 → m.twin.lossAct ≠ 2 → q.oldEff = 0 → m.asStandby = false →
      Does (.frontEndReconfigured p) s fun t => t.rd F.PORT_OUT_CODE p = m.rd F.PORT_SAFE_SAFE_CODE p ∧ (t.port p).driving = true ∧
        (t.port p).phase = .check ∧ OnlyRegs [(.PORT_OUT, p)] m t ∧ others t) ∧
    (q.phase = .check → ohmsPass (m.portClass p) ohms.toNat = true → Does (.networkCheckDone p ohms) s fun t =>
      t.flag F.PORT_NETCHK_PASS p = true ∧ t.rd F.PORT_NETCHK_OHMS p = ohmsReg ohms.toNat ∧ (t.port p).failed = false ∧ t.effMode p = e) ∧
    (q.phase = .check → ohmsPass (m.portClass p) ohms.toNat = false → m.effMode (pairOf p) ≠ 10 → Does (.networkCheckDone p ohms) s fun t =>
      t.flag F.PORT_NETCHK_PASS p = false ∧ t.rd F.PORT_NETCHK_OHMS p = ohmsReg ohms.toNat ∧ (t.port p).failed = true ∧
      (t.port p).phase = .idle ∧ (t.port p).driving = false ∧ t.effMode p = 0 ∧ t.flag F.PORT_STATUS_TRANSITION p = false ∧
      t.flag F.PORT_STATUS_MISMATCH p = true ∧ t.rd F.PORT_STATUS_MISREASON p = 1 ∧ others t) ∧
    (q.phase = .run → q.awaitT3 = false → q.t5 ≤ (m.toNow q.t5).now → Does (.transitionEnd p) s fun t =>
      t.flag F.PORT_STATUS_TRANSITION p = false ∧ (t.port p).phase = .idle ∧ t.mono = (m.toNow q.t5).mono ∧ OnlyRegs [(.PORT_STATUS, p)] m t ∧ others t)

/-- At a port p past t1. In link mode T1L_LINK_UP shows the link, its quality, and the full amplitude where AMPL forces it; T1L_LINK_DOWN of
a link that is up clears LINK_UP and sets PORT_FAULT bit 5; a frame that is too short, too long or bad is counted in PORT_LINK_ERR, and any
other goes to the switch as SWITCH_FORWARD of that port does. In pulse mode a level that
lasts fewer than MINPULSE sample periods, at least one, is ignored; a longer high one after a low one adds 1 to the 64-bit counter. In quadrature
mode, of an even port, one changed level, of A or of B, counts by 1, up where A leads, and a change of both counts an error and keeps the counter;
the odd port counts nothing, and channel B gives no level while its port is before t1 of a change. In discrete-in mode with a debounce time a new
state begins its stable interval, its end confirms the change, and a return to the old state drops it; with none, and in discrete-out mode, a new
state is confirmed at once. In no other effective mode does an edge, a step or a change alter the port. -/
def Obligations.LinkPulseQuadratureAndDiscretePorts : Prop :=
  ∀ (s : State) (p : PortId) (full : Bool) (sqi : BitVec 3) (fr : EthFrame) (l : Quad) (high h : Bool) (t0 per : Nat),
    let m := s.mod
    let q := m.port p
    let e := m.effMode p
    let n := fr.bytes.length + 4
    let blindB := (m.port (p.val + 1)).phase == .reconf
    q.phase ≠ .reconf → q.phase ≠ .check →
    (e = 1 → m.asStandby = false → q.tdrFrom = none → Does (.t1lLinkUp p full sqi) s fun t => t.flag F.PORT_STATUS_LINK_UP p = true ∧
      t.rd F.PORT_STATUS_SQI p = sqi.toNat ∧ (m.rd F.PORT_LINK_CTRL_AMPL p = 1 → t.flag F.PORT_STATUS_AMPL_2V4 p = true) ∧
      (m.rd F.PORT_LINK_CTRL_AMPL p = 0 → t.flag F.PORT_STATUS_AMPL_2V4 p = full) ∧ OnlyRegsChange [(.PORT_STATUS, p)] m t) ∧
    (m.flag F.PORT_STATUS_LINK_UP p = true → Does (.t1lLinkDown p) s fun t => t.flag F.PORT_STATUS_LINK_UP p = false ∧
      bitAt (t.reg .PORT_FAULT p) 5 = true ∧ t.ports = m.ports ∧ OnlyRegs [(.PORT_STATUS, p), (.PORT_FAULT, p), (.EVR_UNROUTED, 0)] m t) ∧
    (e = 1 → m.flag F.PORT_STATUS_LINK_UP p = true → (fr.fcsOk = false ∨ n < 64 ∨ n > 1522) → Does (.t1lFrameReceive p fr) s fun t =>
      t = m.count F.PORT_LINK_ERR_ERR p) ∧
    (e = 1 → m.flag F.PORT_STATUS_LINK_UP p = true → fr.fcsOk = true → 64 ≤ n → n ≤ 1522 →
      Does (.t1lFrameReceive p fr) s (fun t => t = m.switchReceive p fr) ∧ Does (.switchForward ⟨p, by omega⟩ fr) s fun t => t = m.switchReceive p fr) ∧
    (e = 7 → Nat.max 1 (m.rd F.PORT_FILTER_MINPULSE p) ≤ per → q.levelA = false → Does (.pulseEdge ⟨p, true, per⟩) s fun t =>
      t.counter p = (m.counter p + 1) % 2 ^ 64 ∧ (t.port p).levelA = true ∧
      (t.port p).edges = (m.now, 1) :: q.edges ∧ OnlyRegs [(.PORT_COUNT_LO, p), (.PORT_COUNT_HI, p)] m t) ∧
    (e = 7 → Nat.max 1 (m.rd F.PORT_FILTER_MINPULSE p) ≤ per → q.levelA = true → Does (.pulseEdge ⟨p, false, per⟩) s fun t =>
      t = m.setPort p { q with levelA := false }) ∧
    (e ≠ 7 ∨ per < Nat.max 1 (m.rd F.PORT_FILTER_MINPULSE p) ∨ high = q.levelA → Does (.pulseEdge ⟨p, high, per⟩) s fun t => t = m) ∧
    (e = 10 → p.val % 2 = 0 → l.a ≠ q.levelA → l.b = q.levelB → Does (.quadratureTransition p l) s fun t =>
      t.counter p = (if l.a ≠ q.levelB then (m.counter p + 1) % 2 ^ 64 else (m.counter p + (2 ^ 64 - 1)) % 2 ^ 64) ∧
      (t.port p).levelA = l.a ∧ OnlyRegs [(.PORT_COUNT_LO, p), (.PORT_COUNT_HI, p)] m t) ∧
    (e = 10 → p.val % 2 = 0 → blindB = false → l.a = q.levelA → l.b ≠ q.levelB → Does (.quadratureTransition p l) s fun t =>
      t.counter p = (if l.b = q.levelA then (m.counter p + 1) % 2 ^ 64 else (m.counter p + (2 ^ 64 - 1)) % 2 ^ 64) ∧
      (t.port p).levelB = l.b ∧ OnlyRegs [(.PORT_COUNT_LO, p), (.PORT_COUNT_HI, p)] m t) ∧
    (e = 10 → p.val % 2 = 0 → blindB = true → l.a = q.levelA → Does (.quadratureTransition p l) s fun t => t.port p = q ∧ t.regs = m.regs) ∧
    (e = 10 → p.val % 2 = 1 → Does (.quadratureTransition p l) s fun t => t = m) ∧
    (e = 10 → p.val % 2 = 0 → blindB = false → l.a ≠ q.levelA → l.b ≠ q.levelB → Does (.quadratureTransition p l) s fun t =>
      t.counter p = m.counter p ∧ t.rd F.PORT_LINK_ERR_ERR p = satAdd32 (m.rd F.PORT_LINK_ERR_ERR p) 1 ∧
      bitAt (t.reg .PORT_FAULT p) 6 = true ∧ (t.port p).levelA = l.a ∧ (t.port p).levelB = l.b) ∧
    (e ≠ 10 → Does (.quadratureTransition p l) s fun t => t = m) ∧
    (e = 8 → q.pendDisc = none → high ≠ q.discState → m.debounce p ≠ 0 → Does (.discreteChange p high) s fun t =>
      t = m.setPort p { q with levelA := high, pendDisc := some (high, m.now) }) ∧
    (e = 8 → q.pendDisc = some (h, t0) → m.now < t0 + m.debounce p → high = q.discState → Does (.discreteChange p high) s fun t =>
      t = m.setPort p { q with levelA := high, pendDisc := none }) ∧
    (q.pendDisc = some (h, t0) → t0 + m.debounce p ≤ m.now → Does (.discreteChangeConfirmed p) s fun t =>
      t = m.setPort p { q with pendDisc := none, disc := ⟨t0, t0 + m.debounce p, h⟩ :: q.disc }) ∧
    (e = 8 ∨ e = 9 → q.pendDisc = none → high ≠ q.discState → m.debounce p = 0 → Does (.discreteChange p high) s fun t =>
      t.port p = { q with levelA := high, disc := ⟨m.now, m.now, high⟩ :: q.disc } ∧ t.regs = m.regs ∧ ∀ p', p' ≠ p.val → t.port p' = m.port p') ∧
    (e = 8 ∨ e = 9 → q.pendDisc = none → high = q.discState → Does (.discreteChange p high) s fun t => t = m.setPort p { q with levelA := high }) ∧
    (e = 9 → m.debounce p = 0) ∧
    (e ≠ 8 → e ≠ 9 → Does (.discreteChange p high) s fun t => t = m)

/-- OPEN_WIRE_DETECTED in modes 2 and 3, OUTPUT_DEVIATION in modes 4, 5 and 9 and OVERRANGE in modes 2, 3 and 6 set their bit of PORT_STATUS
to what is present, with the sticky bit of PORT_FAULT as it appears; in other modes nothing changes. A DIAGNOSTIC_SCAN of a block with
SCAN_EN 1 and a die that is heard sets OPEN of each voltage port with the test enabled, in mode 6 or, of the VIN class, in mode 8, to whether its
input moved, keeps OPEN of any other port in mode 8, and sets LEAK of a port measured that behaves as no standby's to whether its resistance drifted by more than 5 % from its last passed check; with SCAN_EN 0 it does nothing. HART_CARRIER_DETECT in modes 3 and 5 sets
HART_CD above 120 mV, clears it below 80 mV and keeps it between. That the VIN class limits mode 8 alone, and that a port with no passed check is not
judged for LEAK, is the model's choice (log entry 79). -/
def Obligations.PortConditionsAndTheDiagnosticScan : Prop :=
  ∀ (s : State) (p : PortId) (b : BlockId) (present : Bool) (moved : BitVec 32) (j : Fin 32) (r : BitVec 24) (mv : Nat),
    let m := s.mod
    let e := m.effMode p
    let shows := fun (i : Instr) (f : Fld) (bit : Nat) (modes : List Nat) =>
      (e ∈ modes → Does i s fun t => t.flag f p = present ∧ (present = true → m.flag f p = false → bitAt (t.reg .PORT_FAULT p) bit = true) ∧
        (present = false → t.reg .PORT_FAULT p = m.reg .PORT_FAULT p) ∧ t.ports = m.ports ∧
        OnlyRegs [(.PORT_STATUS, p), (.PORT_FAULT, p), (.EVR_UNROUTED, 0)] m t) ∧ (e ∉ modes → Does i s fun t => t = m)
    shows (.openWireDetected p present) F.PORT_STATUS_OPEN 1 [2, 3] ∧
    shows (.outputDeviation p present) F.PORT_STATUS_OUTDEV 4 [4, 5, 9] ∧
    shows (.overrange p present) F.PORT_STATUS_OVERRANGE 2 [2, 3, 6] ∧
    (m.flag F.PBLK_CTRL_SCAN_EN b = false → Does (.diagnosticScan b moved [(j, r)]) s fun t => t = m) ∧
    (m.flag F.PBLK_CTRL_SCAN_EN b = true → (m.die (b / 4)).isolated = false →
      let c := 32 * b.val + j.val
      let pass := (m.port c).passOhms
      Does (.diagnosticScan b moved [(j, r)]) s fun t =>
        (m.effMode c = 6 ∨ (m.effMode c = 8 ∧ m.portClass c = 5) → m.flag F.PORT_DIAG_CTRL_OPEN c = true →
          t.flag F.PORT_STATUS_OPEN c = bitAt moved.toNat j) ∧
        (m.effMode c = 8 → m.portClass c ≠ 5 → t.flag F.PORT_STATUS_OPEN c = m.flag F.PORT_STATUS_OPEN c) ∧
        (m.effMode c ≠ 0 → m.effMode c ≤ 10 → m.asStandby = false → pass ≠ 0 → t.flag F.PORT_STATUS_LEAK c =
          decide (20 * (if r.toNat ≥ pass then r.toNat - pass else pass - r.toNat) > pass)) ∧ t.now = m.now) ∧
    (e = 3 ∨ e = 5 → Does (.hartCarrierDetect p mv) s fun t =>
      t.flag F.PORT_STATUS_HART_CD p = (if mv > 120 then true else if mv < 80 then false else m.flag F.PORT_STATUS_HART_CD p) ∧
      OnlyRegsChange [(.PORT_STATUS, p)] m t)

/-- HART_RECEIVE_FRAME of a port in mode 3 or 5, the module in full service and its region running: with 128 frames waiting the frame is
dropped and counted; else it is written into the next slot of the region's ring and the producer index moves on. HART_GAP_TIMEOUT
differs in its status bit alone. HART_TRANSMIT_FRAME takes the first slot of an idle port: a slot of length 0 ends with result 3 and
changes no port; a proper one starts transmission at that port. HART_TRANSMIT_DONE ends it with result 1 and frees the port.
RING_INDEX_WRITE moves each index where it may move, and elsewhere sets RING_ERR and moves nothing. That a slot of length 0 ends with result 3 whatever
its port is the model's order of the results (log entry 38). -/
def Obligations.HartFramesAndRingIndices : Prop :=
  ∀ (s : State) (p : PortId) (g : RegionId) (w : Writer) (fr : HartFrame) (i : Nat) (ix : BitVec 16) (x : Nat × Nat × Nat),
    let m := s.mod
    let r := portRegion p
    let e := m.effMode p
    let prod := m.rd F.SPL_RGN_HRX_PROD_INDEX r
    let cons := m.rd F.SPL_RGN_HRX_CONS_INDEX r
    let a := signalBase r + 0x2C000 + (prod % 128) * 512
    let st := fun (gap : Bool) => b2n fr.parity + 2 * b2n fr.framing + 4 * b2n gap + 8 * b2n fr.carrierLost + 16 * b2n (decide (fr.chars.length > 496))
    let took := fun (gap : Bool) (t : Mod) => t.rd F.SPL_RGN_HRX_PROD_INDEX r = (prod + 1) % 65536 ∧ t.num a 2 = Nat.min fr.chars.length 496 ∧
      t.num (a + 2) 2 = p ∧ t.num (a + 4) 2 = st gap ∧ t.num (a + 8) 8 = fr.start.toNat ∧
      t.bytes (a + 16) (Nat.min fr.chars.length 496) = fr.chars.take 496 ∧ t.flag F.SPL_BLK_STATUS_FRAME (portBlock p) = true ∧
      ∀ b, (b < a ∨ a + 512 ≤ b) → cellGet t.mem b = cellGet m.mem b
    (e = 3 ∨ e = 5 → m.phase.full = true → m.rgnDown r = false → fr.chars ≠ [] → ringAhead prod cons ≠ 128 →
      Does (.hartReceiveFrame p fr) s (took false) ∧ Does (.hartGapTimeout p fr) s (took true)) ∧
    (e = 3 ∨ e = 5 → m.phase.full = true → m.rgnDown r = false → fr.chars ≠ [] → ringAhead prod cons = 128 →
      Does (.hartReceiveFrame p fr) s fun t => t = m.count F.SPL_RGN_HRX_DROP_COUNT r) ∧
    (m.rgnDown g = false → m.htxNext g (m.htxWaiting g) [] = some i →
      let hp := m.htxPort g i
      let len := m.num (htxSlot g i) 2
      (hp / 256 = g → len = 0 → Does (.hartTransmitFrame g) s fun t => t.num (htxSlot g i + 4) 2 = 3 ∧ t.ports = m.ports ∧ t.sent = m.sent) ∧
      (hp / 256 = g → len ≠ 0 → len ≤ 496 → (m.effMode hp = 3 ∨ m.effMode hp = 5) → m.phase.full = true → m.asStandby = false →
        Does (.hartTransmitFrame g) s fun t => t = m.setPort hp { m.port hp with
          hartTx := some (i, m.now + Nat.max 5 (m.rd F.PORT_HART_CTRL_PREAMBLE hp) * 11 * 1000000000 / 1200, Nat.max 5 (m.rd F.PORT_HART_CTRL_PREAMBLE hp)) })) ∧
    ((m.port p).hartTx = some x → Does (.hartTransmitDone p) s fun t => (t.port p).hartTx = none ∧
      t.num (htxSlot r x.1 + 4) 2 = 1 ∧ t.num (htxSlot r x.1 + 8) 8 = x.2.1 % 2 ^ 64 ∧ t.sent.length = m.sent.length + 1) ∧
    (let lrx := consMoves (m.rd F.SPL_RGN_LRX_PROD_INDEX g) (m.rd F.SPL_RGN_LRX_CONS_INDEX g) ix.toNat
     let hrx := consMoves (m.rd F.SPL_RGN_HRX_PROD_INDEX g) (m.rd F.SPL_RGN_HRX_CONS_INDEX g) ix.toNat
     let ltx := prodMoves (m.rd F.SPL_RGN_LTX_PROD_INDEX g) (m.rd F.SPL_RGN_LTX_CONS_INDEX g) ix.toNat 256
     let htx := prodMoves (m.rd F.SPL_RGN_HTX_PROD_INDEX g) (m.rd F.SPL_RGN_HTX_CONS_INDEX g) ix.toNat 64
     let moves := fun (ring : FwRing) (f : Fld) => Does (.ringIndexWrite w g ring ix) s fun t => t.rd f g = ix.toNat ∧ OnlyRegsChange [(f.reg, g)] m t
     let err := fun (ring : FwRing) => Does (.ringIndexWrite w g ring ix) s fun t =>
       t.flag F.SPL_RGN_STATUS_RING_ERR g = true ∧ OnlyRegsChange [(.SPL_RGN_STATUS, g)] m t
     (lrx = true → moves .linkRxCons F.SPL_RGN_LRX_CONS_INDEX) ∧ (lrx = false → err .linkRxCons) ∧
     (hrx = true → moves .hartRxCons F.SPL_RGN_HRX_CONS_INDEX) ∧ (hrx = false → err .hartRxCons) ∧
     (ltx = true → moves .linkTxProd F.SPL_RGN_LTX_PROD_INDEX) ∧ (ltx = false → err .linkTxProd) ∧
     (htx = true → moves .hartTxProd F.SPL_RGN_HTX_PROD_INDEX) ∧ (htx = false → err .hartTxProd))

/-- TDR_START outside full service does nothing. In full service, at a port in mode 0 or 1, no standby's, whose block has no other owner and which has no run: the run begins now, the port owns
the block's buffer, TDRBUSY is set and TDRDONE clear; where another port owns the buffer only PORT_FAULT bit 7 is set. TDR_ABORT of a run
and TDR_RUN_END end it: TDRBUSY clear, TDRDONE set, ABORTED telling which; the end of a run stores the points given. TDRDONE_RELEASE
clears TDRDONE and, of the owner, frees the buffer. Without a run or result to end, nothing changes. START's clearing of TDRDONE, and what ends a run
besides its points, are the model's choices (log entries 37 and 79). -/
def Obligations.ReflectometryRunsOnePortOfABlock : Prop :=
  ∀ (s : State) (p : PortId) (w : Writer) (pts : List (BitVec 16)) (t0 : Nat),
    let m := s.mod
    let q := m.port p
    let b := portBlock p
    let other := m.flag F.PBLK_TDR_OWNER_VALID b && m.rd F.PBLK_TDR_OWNER_PORT b != p % 32
    let ended := fun (ab : Bool) (t : Mod) => t.flag F.PORT_STATUS_TDRBUSY p = false ∧ t.flag F.PORT_STATUS_TDRDONE p = true ∧
      t.flag F.PORT_TDR_RESULT_ABORTED p = ab ∧ (t.port p).tdrFrom = none
    (m.phase.full = false → Does (.tdrStart w p) s fun t => t = m) ∧
    (m.phase.full = true → m.effMode p = 0 ∨ m.effMode p = 1 → m.asStandby = false → other = false → q.tdrFrom = none → Does (.tdrStart w p) s fun t =>
      (t.port p).tdrFrom = some m.now ∧ t.flag F.PORT_STATUS_TDRBUSY p = true ∧ t.flag F.PORT_STATUS_TDRDONE p = false ∧
      t.flag F.PBLK_TDR_OWNER_VALID b = true ∧ t.rd F.PBLK_TDR_OWNER_PORT b = p % 32 ∧ t.flag F.PORT_STATUS_LINK_UP p = false ∧
      ∀ p', p' ≠ p.val → t.port p' = m.port p') ∧
    (m.phase.full = true → other = true → Does (.tdrStart w p) s fun t => bitAt (t.reg .PORT_FAULT p) 7 = true ∧ t.ports = m.ports ∧
      OnlyRegs [(.PORT_FAULT, p), (.EVR_UNROUTED, 0)] m t) ∧
    (q.tdrFrom = some t0 → m.long = [] → Does (.tdrAbort w p) s (ended true)) ∧
    (q.tdrFrom = some t0 → m.long = [] → Does (.tdrRunEnd p pts) s fun t => ended false t ∧ Tbl.get [] t.tdrBuf b = pts.take 16384) ∧
    (q.tdrFrom = none → Does (.tdrAbort w p) s (fun t => t = m) ∧ Does (.tdrRunEnd p pts) s fun t => t = m) ∧
    (m.flag F.PORT_STATUS_TDRDONE p = true → Does (.tdrdoneRelease w p) s fun t => t.flag F.PORT_STATUS_TDRDONE p = false ∧
      (m.rd F.PBLK_TDR_OWNER_PORT b = p % 32 → t.flag F.PBLK_TDR_OWNER_VALID b = false) ∧
      OnlyRegsChange [(.PORT_STATUS, p), (.PBLK_TDR_OWNER, b)] m t) ∧
    (m.flag F.PORT_STATUS_TDRDONE p = false → Does (.tdrdoneRelease w p) s fun t => t = m)

/-- DIE_LINK_LOSS at a die that is not isolated isolates it: each of its 128 ports is in effective mode off with no transition and no mismatch,
and no other die's ports change. MAIN_DIE_LINK_LOSS of a die not already lost records the instant and shows DIE_LINK 0 and DIE_LOST 1
at its four blocks. DIE_LINK_RETURN of a powered die in a running region ends the loss and shows DIE_LINK 1 and DIE_LOST 0; isolation stays
until a commit. HOLDT_EXPIRY of a lost die's block brings time to L + HOLDT ms; with no loss it does nothing. -/
def Obligations.PortDieLinkLossIsolatesTheDie : Prop :=
  ∀ (s : State) (d : DieId) (b : BlockId) (l : Nat) (p : PortId),
    let m := s.mod
    ((m.die d).isolated = false → Does (.dieLinkLoss d) s fun t => (t.die d).isolated = true ∧ (t.die d).hears = false ∧
      (portDie p = d → t.effMode p = 0 ∧ t.flag F.PORT_STATUS_TRANSITION p = false ∧ t.flag F.PORT_STATUS_MISMATCH p = false ∧ (t.port p).phase = .idle) ∧
      (portDie p ≠ d → t.port p = m.port p ∧ t.reg .PORT_STATUS p = m.reg .PORT_STATUS p ∧ t.reg .PORT_OUT p = m.reg .PORT_OUT p)) ∧
    ((m.die d).lostAt = none → Does (.mainDieLinkLoss d) s fun t => (t.die d).lostAt = some m.now ∧ (t.die d).isolated = (m.die d).isolated ∧
      (b.val / 4 = d.val → t.flag F.PBLK_CARRIER_DIE_LINK b = false ∧ t.flag F.SPL_BLK_STATUS_DIE_LOST b = true) ∧ t.ports = m.ports) ∧
    (m.rgnDown (d / 2) = false → m.domOn (56 + d) = true → Does (.dieLinkReturn d) s fun t => (t.die d).lostAt = none ∧ (t.die d).hears = true ∧
      (t.die d).isolated = (m.die d).isolated ∧
      (b.val / 4 = d.val → t.flag F.PBLK_CARRIER_DIE_LINK b = true ∧ t.flag F.SPL_BLK_STATUS_DIE_LOST b = false) ∧ t.ports = m.ports) ∧
    ((m.die (b / 4)).lostAt = some l → Does (.holdtExpiry b) s fun t => t = m.toNow (l + m.rd F.SPL_BLK_CTRL_HOLDT b * 1000000)) ∧
    ((m.die (b / 4)).lostAt = none → Does (.holdtExpiry b) s fun t => t = m)

/-- While no table command is in progress, a read puts the addressed VLAN word, or the bits of a static or invalid forwarding entry, into
FSW_TBL_DATA; a write stages the data registers' 128 bits less their reserved ones, a forwarding entry as static with age 0, but not one
with a reserved DKIND; an invalidation stages an entry of zeros; where direct writes may not stage ST_REFUSED is set and nothing is
staged; each sets BUSY, and TABLE_COMMAND_COMPLETE clears it. While BUSY is 1 each is lost: CMDLOST is set and nothing else changes. The
tables in effect do not change.
A frame that its ingress cannot take in does nothing. One that it takes at the enabled switch whose VID has no VLAN entry, or whose ingress
is no member of it, is counted in FSW_DROP_VLAN and does nothing else. With learning off, a frame to a static entry's port that is a member with its link up and room is queued at that port's egress
alone; one to an unknown address is queued at each port that is a member, is up, has room and is not its ingress. With learning on, a
unicast source not known takes entry 0 where that is not valid. ENTRY_AGEOUT of a learned entry clears it after AGE x 10 s; of a static or
invalid one, or with AGE 0, it does nothing. EGRESS_FRAME_TRANSMIT of a port sends the frame next in order and takes it from its queue.
LINK_TRANSMIT_SLOT gives a slot of length 0 result 4, one too long result 2, and a proper one result 1. The lowest free entry that learning takes,
and the VLAN word 0 that an invalidation stages whatever its INDEX, are the model's choices (log entry 80). -/
def Obligations.SwitchTableCommandsReadAndStage : Prop :=
  (∀ (s : State) (w : Writer) (sp : Bool) (ix : BitVec 13),
     let m := s.mod
     let n := ix.toNat
     let data := (upTo 4).foldl (fun a n => a + m.rd F.FSW_TBL_DATA_DATA n * 2 ^ (32 * n)) 0
     let busy := fun (t : Mod) => t.flag F.FSW_STATUS_BUSY = true ∧ t.fwd = m.fwd ∧ t.vlan = m.vlan
     (∀ c, c ∈ [Instr.fswTblRead w sp ix, .fswTblStageWrite w sp ix, .fswTblStageInvalidate w sp ix] → m.flag F.FSW_STATUS_BUSY = true →
       Does c s fun t => t = m.put F.FSW_STATUS_CMDLOST 0 true) ∧
     (∀ c, c ∈ [Instr.fswTblStageWrite w sp ix, .fswTblStageInvalidate w sp ix] → m.flag F.FSW_STATUS_BUSY = false →
       m.mayStage w.master.toNat = false → Does c s fun t => busy t ∧ t.flag F.CFG_STATUS_ST_REFUSED = true ∧ t.vlanStage = m.vlanStage ∧
         t.fwdStage = m.fwdStage) ∧
     (m.flag F.FSW_STATUS_BUSY = false →
       (Does (.fswTblRead w true ix) s fun t => busy t ∧ ∀ j, j < 4 → t.rd F.FSW_TBL_DATA_DATA j = bitsOf (m.vlanWord n) (32 * j) 32) ∧
       ((m.fwdEnt n).valid = false ∨ (m.fwdEnt n).static = true → Does (.fswTblRead w false ix) s fun t => busy t ∧
         ∀ j, j < 4 → t.rd F.FSW_TBL_DATA_DATA j = bitsOf (m.fwdEnt n).bits.toNat (32 * j) 32) ∧
       (m.mayStage w.master.toNat = true → Does (.fswTblStageWrite w true ix) s fun t => busy t ∧
         Tbl.get none t.vlanStage n = some (BitVec.ofNat 128 (vlanBits n data)) ∧ t.fwdStage = m.fwdStage) ∧
       (m.mayStage w.master.toNat = true → bitsOf data 74 3 < 5 → Does (.fswTblStageWrite w false ix) s fun t => busy t ∧ t.vlanStage = m.vlanStage ∧
         ∃ b, Tbl.get none t.fwdStage n = some b ∧ bitsOf b.toNat 61 1 = 1 ∧ bitsOf b.toNat 77 51 = 0 ∧ bitsOf b.toNat 62 2 = 0 ∧
           bitsOf b.toNat 0 61 = bitsOf data 0 61 ∧ bitsOf b.toNat 64 13 = bitsOf data 64 13) ∧
       (m.mayStage w.master.toNat = true → 5 ≤ bitsOf data 74 3 → Does (.fswTblStageWrite w false ix) s fun t => busy t ∧
         t.vlanStage = m.vlanStage ∧ t.fwdStage = m.fwdStage) ∧
       (m.mayStage w.master.toNat = true → Does (.fswTblStageInvalidate w sp ix) s fun t => busy t ∧
         (if sp then Tbl.get none t.vlanStage (n / 32 * 32) else Tbl.get none t.fwdStage n) = some 0)) ∧
     Does .tableCommandComplete s fun t => t.flag F.FSW_STATUS_BUSY = false ∧ OnlyRegsChange [(.FSW_STATUS, 0)] m t) ∧
  (∀ (s : State) (ig : Fin 1033) (k : PortId) (fr : EthFrame) (i v : Nat) (e : FwdEntry) (x : QFrame) (en : Fin 8192) (g : RegionId),
     let m := s.mod
     let tag := tagOf fr.bytes (if ig.val < 1024 then m.rd F.PORT_LINK_CTRL_PVID ig else 0) 0
     let mac := macAt fr.bytes 0
     let src := macAt fr.bytes 6
     let q := Tbl.get [] m.egress k
     let room := m.memberUp' k = true ∧ (q.map (fun y => y.bytes.length)).sum + fr.bytes.length ≤ 16384
     let age := m.rd F.FSW_CTRL_AGE
     let ent := m.fwdEnt en
     (frameGood fr = false ∨ m.ingressUp ig = false → ig.val < 1032 → Does (.switchForward ig fr) s fun t => t = m) ∧
     (m.flag F.FSW_CTRL_ENABLE = true → ig.val < 1032 → frameGood fr = true → m.ingressUp ig = true →
       (m.vlanOf tag.1 = none ∨ (m.vlanOf tag.1 = some v ∧ m.vlanHas v ig = false) → Does (.switchForward ig fr) s fun t => t = m.count F.FSW_DROP_VLAN_COUNT) ∧
       (m.vlanOf tag.1 = some v → m.vlanHas v ig = true → m.flag F.FSW_CTRL_LEARN = false → m.vlanHas v k = true → room → k.val ≠ ig.val →
         (m.fwdFind mac tag.1 = some (i, e) → e.static = true → e.fld 74 3 = 0 → e.fld 64 10 = k.val → Does (.switchForward ig fr) s fun t =>
           Tbl.get [] t.egress k = q ++ [⟨tag.2.1, fr.bytes, none⟩] ∧ t.regs = m.regs ∧ t.mem = m.mem ∧
           ∀ k', k' ≠ k.val → Tbl.get [] t.egress k' = Tbl.get [] m.egress k') ∧
         (m.fwdFind mac tag.1 = none → Does (.switchForward ig fr) s fun t => Tbl.get [] t.egress k = q ++ [⟨tag.2.1, fr.bytes, none⟩] ∧
           t.fwd = m.fwd ∧ Tbl.get [] t.egress ig.val = Tbl.get [] m.egress ig.val)) ∧
       (m.vlanOf tag.1 = some v → m.vlanHas v ig = true → m.flag F.FSW_CTRL_LEARN = true → bitAt src 40 = false → m.fwdFind src tag.1 = none →
         (m.fwdEnt 0).valid = false → Does (.switchForward ig fr) s fun t => (t.fwdEnt 0).bits = learnedBits src tag.1 ig ∧ (t.fwdEnt 0).used = m.mono)) ∧
     (ent.valid = true → ent.static = false → age ≠ 0 → Does (.entryAgeout en) s fun t => (t.fwdEnt en).valid = false ∧
       t.mono = Nat.max m.mono (ent.used + age * 10000000000) ∧ (∀ j, j ≠ en.val → t.fwdEnt j = m.fwdEnt j) ∧ OnlyRegs [(.FSW_STATUS, 0)] m t) ∧
     (ent.valid = false ∨ ent.static = true ∨ age = 0 → Does (.entryAgeout en) s fun t => t = m) ∧
     (m.memberUp' k = true → m.egressPick k q = some x → x.ts = none → Does (.egressFrameTransmit ⟨k, by omega⟩) s fun t =>
       Tbl.get [] t.egress k = q.erase x ∧ t.sent = .eth k (withFcs x.bytes) :: m.sent ∧ t.regs = m.regs ∧ t.mem = m.mem) ∧
     (m.flag F.FSW_CTRL_ENABLE = true → m.rgnDown g = false → Tbl.get 0 m.ltxTaken g = 0 →
       let cons := m.rd F.SPL_RGN_LTX_CONS_INDEX g
       let a := ltxSlot g cons
       let len := m.num a 2
       ringAhead (m.rd F.SPL_RGN_LTX_PROD_INDEX g) cons ≠ 0 → Does (.linkTransmitSlot g) s fun t =>
         (len = 0 → t.num (a + 7) 1 = 4) ∧ (len > 1518 → t.num (a + 7) 1 = 2) ∧ (len ≠ 0 → len ≤ 1514 → m.num (a + 2) 2 < 32768 → t.num (a + 7) 1 = 1)))

/-- CHAIN_OUTPUT for an instant of a chain that is on by the settings of that instant, later than the last and not skipped by a step of TB_NOW, in a powered region that is
running: each record the chain feeds is written with that instant and the next sequence number, every other record stays, and PORT_RAW
holds the clamped code while the die's link is up. Its status shows the effective mode at that instant. The records of a port that was
off then, outside a mode change and with its link up, have quality 0x01 and value NaN. For an instant that is none of the chain's nothing changes. CHAIN_SETTLING_END clears SETTLING of its chain. -/
def Obligations.ChainOutputsWriteTheirRecords : Prop :=
  ∀ (s : State) (p : PortId) (b : Bool) (at_ : BitVec 64) (code : BitVec 32),
    let m := s.mod
    let n := at_.toNat
    let per := (m.asAt n).chainPeriod p b
    (per = 0 ∨ n % per ≠ 0 ∨ m.skipped n = true → Does (.chainOutput p b at_ code) s fun t => t = m) ∧
    (per ≠ 0 → n % per = 0 → m.skipped n = false → (∀ l, Tbl.look m.chainLast (p.val * 2 + b2n b) = some l → l < n) → m.rgnDown (portRegion p) = false →
      m.domOn (40 + portRegion p) = true → Does (.chainOutput p b at_ code) s fun t =>
        let w := m.asAt n
        (∀ k, k ∈ m.dueRecords p b n → (t.sigRec k).time = n ∧ (t.sigRec k).seq = (m.sigRec k).seq + 1 ∧
          (t.sigRec k).status.toNat % 16 = w.effMode p ∧
          (w.effMode p = 0 → (m.die (portDie p)).lostAt = none → inWindows (m.port p).changes n = false →
            (t.sigRec k).quality = 0x01 ∧ (t.sigRec k).value = BitVec.ofNat 64 recNaN)) ∧
        (∀ k, k ∉ m.dueRecords p b n → t.sigRec k = m.sigRec k) ∧
        ((m.die (portDie p)).lostAt = none → t.rd F.PORT_RAW_CODE p = wrapTo 32 (clampCode code.toInt)) ∧
        t.mono = (m.toNow (n + w.chainDelay p b)).mono) ∧
    Does (.chainSettlingEnd p b) s fun t =>
      t.flag (if b then F.SPL_PORT_STATUS_SETTLING_B else F.SPL_PORT_STATUS_SETTLING_A) p = false ∧
      t.mono = (m.toNow (Tbl.get 0 m.settleEnd (p.val * 2 + b2n b))).mono ∧ OnlyRegs [(.SPL_PORT_STATUS, p)] m t

/-- COMMIT_CAPTURE of an instant the block commits at captures each port's pending record whose target has come and whose port is in an output
mode, not before t2 of a change and under no hold or safe action, a raw value being its own code; a port with nothing pending keeps its
capture. COMMIT_APPLY of the instant last captured drives the code of each capture made for it that was neither overtaken nor stepped
over; STEPPED_COMMIT_APPLY does so for those that TB_NOW stepped over. COMMIT_STATUS_WRITE writes the output status record of an applied
capture and ends it. -/
def Obligations.OutputCommitsCaptureApplyAndReport : Prop :=
  ∀ (s : State) (p : PortId) (b : BlockId) (at_ : BitVec 64) (c : Captured) (k : Nat),
    let m := s.mod
    let n := at_.toNat
    let q := m.port p
    let a := outRecord p
    let drives := fun (t : Mod) => t.rd F.PORT_OUT_CODE p = k % 2 ^ 16 ∧ (t.port p).driving = true ∧ (t.port p).committed = true ∧
      ∃ c', t.capture p = some c' ∧ c'.applied = true ∧ c'.code = some (k % 2 ^ 16) ∧ c'.result = c.result
    portBlock p = b.val →
    (m.commitsAt b n = true → Does (.commitCapture b at_) s fun t => Tbl.get 0 t.lastCapture b = n ∧
      (m.outPending p = false → t.capture p = m.capture p) ∧
      (m.outPending p = true → (m.num (a + 8) 8 = 0 ∨ m.num (a + 8) 8 ≤ n) → q.phase ≠ .reconf → q.phase ≠ .check → m.outBarred p = false →
        Tbl.get 0 t.outSeq p = m.num (a + 16) 2 ∧ ∃ c', t.capture p = some c' ∧ c'.at_ = n ∧ c'.value = BitVec.ofNat 64 (m.num a 8) ∧
          c'.applied = false ∧ c'.overridden = false ∧ c'.code = (m.outAsk p (m.num a 8) (m.num (a + 18) 2)).2)) ∧
    (m.commitsAt b n = false → Does (.commitCapture b at_) s fun t => t = m) ∧
    (Tbl.get 0 m.lastCapture b = n → n ≠ 0 → m.capture p = some c → c.at_ = n → c.stepped = false → c.applied = false → c.overridden = false →
      c.code = some k → Does (.commitApply b at_) s drives) ∧
    (m.capture p = some c → c.stepped = true → c.applied = false → c.overridden = false → c.code = some k → Does (.steppedCommitApply b) s drives) ∧
    (m.capture p = some c → c.applied = true → c.at_ = n → Does (.commitStatusWrite b at_) s fun t => t.capture p = none ∧
      Tbl.get {} t.ostat p = ⟨c.value, n, c.seq, BitVec.ofNat 16 (c.code.getD 0), BitVec.ofNat 32 c.result⟩ ∧ t.regs = m.regs ∧ t.ports = m.ports)

/-- TIME_PROBE_SEND on a usable link with a credit at hand and nothing waiting notes TB_NOW as its probe, and on one that is not usable does
nothing. TIME_PROBE on such a link answers with TIME_ECHO, which holds the probe's instant and TB_NOW of its arrival and of the echo's departure.
TIME_ECHO of the probe under way ends it and sets the link's one-way delay to half the round trip less the peer's stay, plus the asymmetry.
TIME_SYNC of the grandmaster over the link with the fewest hops to it, the lowest of equal ones, makes that lane group the parent, its hop count
one more; with SRC 1 TB_OFFSET is TB_NOW less the grandmaster's time. GRANDMASTER_ELECTION of a node that can be chosen names it in TB_GM_NODE and
shows IS_GM and ROOT exactly when it is this node; a change forgets the parent. The places of TIME_ECHO's and TIME_SYNC's fields in their payloads
are the model's (log entry 51; R325 gives their order and widths). -/
def Obligations.MeshTimeFollowsTheGrandmaster : Prop :=
  ∀ (s : State) (l : LinkId) (f : Flit) (e : Election),
    let m := s.mod
    let k := m.link l
    let node := e.node
    let py := f.payload.toNat
    let hops := Nat.min (bitsOf py 16 8 + 1) 255
    let gmt : Int := (bitsOf py 24 64 : Int) + (signedOf 64 (bitsOf py 88 64) + k.delay) / 65536
    (k.usable = true → FreeLink m l → Does (.timeProbeSend l) s fun t => (t.link l).probe = some m.now ∧ (∀ l', l' ≠ l.val → t.link l' = m.link l') ∧ t.regs = m.regs) ∧
    (k.usable = false → Does (.timeProbeSend l) s (fun t => t = m) ∧ Does (.timeProbe l f) s (fun t => t = m) ∧ Does (.timeEcho l f) s fun t => t = m) ∧
    (k.usable = true → FreeLink m l → Does (.timeProbe l f) s fun t => ∃ e, t.sent = .flit l e :: m.sent ∧
      e.ftype = 0x21 ∧ e.vc = 2 ∧ bitsOf e.payload.toNat 0 64 = bitsOf py 0 64 ∧ bitsOf e.payload.toNat 64 64 = m.now % 2 ^ 64 ∧
      bitsOf e.payload.toNat 128 64 = m.now % 2 ^ 64 ∧ t.regs = m.regs) ∧
    (k.usable = true → k.probe = some (bitsOf py 0 64) → Does (.timeEcho l f) s fun t => (t.link l).probe = none ∧
      (t.link l).delay = (((m.now : Int) - (bitsOf py 0 64 : Int)) - ((bitsOf py 128 64 : Int) - (bitsOf py 64 64 : Int))) * 32768 +
        signedOf 16 (m.rd F.TB_ASYM_ASYM (l.val / 2)) * 65536 ∧ t.regs = m.regs) ∧
    (m.linkCarries l 2 = true → m.isRoot = false → bitsOf py 0 16 = m.rd F.TB_GM_NODE_NODE →
      (∀ l' h, l' < 16 → l' ≠ l.val → m.linkCarries l' 2 = true → (m.link l').gmHops = some h → hops < h ∨ (hops = h ∧ l.val < l')) →
      Does (.timeSync l f) s fun t =>
      t.flag F.TB_STATUS_PARENT_VALID = true ∧ t.rd F.TB_STATUS_PARENT = l.val / 2 ∧ t.rd F.TB_STATUS_HOPS = hops ∧
      (m.tbSrc = 1 → t.rd F.TB_OFFSET_OFFSET = clampTo 32 ((m.now : Int) - gmt) ∧ t.flag F.TB_STATUS_SRC_OK = true) ∧
      (m.tbSrc ≠ 1 → t.now = m.now ∧ t.corr = m.corr)) ∧
    (m.electable e = true → Does (.grandmasterElection e) s fun t => t.rd F.TB_GM_NODE_NODE = node.toNat ∧
      t.flag F.TB_STATUS_IS_GM = decide (node.toNat = m.node) ∧ t.flag F.MESH_STATUS_ROOT = decide (node.toNat = m.node) ∧
      (m.rd F.TB_GM_NODE_NODE ≠ node.toNat → t.flag F.TB_STATUS_PARENT_VALID = false ∧
        t.rd F.TB_STATUS_HOPS = (if node.toNat = m.node then 0 else 0xFF))) ∧
    (m.electable e = false → Does (.grandmasterElection e) s fun t => t = m)

/-- A link in training goes from waiting to signal, trained and hello by LANE_SIGNAL_DETECT, PMD_TRAINING_DONE and FEC_LOCK, each at its own
stage. LINK_HELLO in hello goes to attestation or is refused with the first reason that holds; ATTESTATION_DONE with both Rooks
accepting makes the link attested, in state 4 with its first key; with one refusing and neither side requiring attestation, open in state
5, else refused with reason 4. LINK_USABLE of a link that is up makes it usable, and what was held back goes out;
in Ethernet mode training shows what it measured on all four lanes. BRINGUP_TIMEOUT of a link in bring-up and LINK_LOST start it
again and forget all it held; RETRAIN does so with both links of a lane group. BLOCK_RECEIVE acknowledges a good block, lets go of the blocks its
peer has acknowledged and counts corrected codewords; it counts an uncorrectable block or a tag failure and asks for the block again; RESEND_REQUEST
keeps and counts the blocks sent again; KEY_RENEWAL of an attested link takes the next key, 2^32 blocks or else an hour after the last one; and
CREDIT_RETURN with nothing waiting frees one credit, with one parcel waiting for it sends that parcel.
ETH on a usable mesh link that is up gives its credits back and hands the frame to the field switch as a frame of its lane group, and on any
other link does nothing. GATE_CONTROL_ENTRY of a lane group in Ethernet mode that runs its list brings time to that entry's next start. ETHERNET_PORT_LINK_CHANGE of one in
Ethernet mode that may train shows the change in ETH_UP; of one in another mode it does nothing. Model's choices among these: the SNR that training
shows in Ethernet mode (log entry 88), a time-out before FEC lock counted and PEER shown from the hello on (45), acknowledgements and credits (83),
the gate list of an entry and its start (84). -/
def Obligations.MeshLinksComeUpStepByStep : Prop :=
  (∀ (s : State) (l : LinkId) (g : LgId) (w : Writer) (h : Hello) (e : PeerEvidence) (n : Nat) (vc : Fin 4) (snr : List Byte) (acked : Option Nat) (q : Queued),
     let m := s.mod
     let k := m.link l
     let st := m.linkState l
     let lg := l.val / 2
     let mask := splitMask (m.rd F.MESH_LG_CTRL_SPLIT lg) (l.val % 2)
     let start := fun (j : Nat) => if m.linkThere j && m.lgTrains (j / 2) then 1 else 0
     let restarted := fun (t : Mod) => t.link l = {} ∧ t.linkState l = start l ∧ t.flag F.MESH_LINK_STATUS_ATTESTED l = false
     let own := m.acceptsPeer e
     (st = 1 → k.stage = .waiting → Does (.laneSignalDetect l) s fun t => (t.link l).stage = .signal ∧
       t.rd F.MESH_LG_STATUS_SIGNAL lg = (m.rd F.MESH_LG_STATUS_SIGNAL lg ||| mask) % 16 ∧ OnlyRegs [(.MESH_LG_STATUS, lg)] m t) ∧
     (m.lgMode lg = 2 → m.lgTrains lg = true → Does (.pmdTrainingDone ⟨l, snr⟩) s fun t =>
       (∀ i, i < 4 → t.rd F.MESH_LG_LANE_SNR (lg * 4 + i) = (snr.getD i 0).toNat) ∧ OnlyRegsChange ((upTo 4).map (fun i => (.MESH_LG_LANE, lg * 4 + i))) m t) ∧
     (m.lgMode lg ≠ 2 → st = 1 → k.stage = .signal → Does (.pmdTrainingDone ⟨l, snr⟩) s fun t => t.link l = { k with stage := .trained } ∧
       (∀ i, i < 4 → bitAt mask i = true → t.rd F.MESH_LG_LANE_SNR (lg * 4 + i) = (snr.getD i 0).toNat) ∧
       OnlyRegs ((upTo 4).map (fun i => (.MESH_LG_LANE, lg * 4 + i))) m t) ∧
     (st = 1 → k.stage = .trained → Does (.fecLock l) s fun t => (t.link l).stage = .locked ∧ t.linkState l = 2 ∧
       t.rd F.MESH_LG_STATUS_LOCK lg = (m.rd F.MESH_LG_STATUS_LOCK lg ||| mask) % 16 ∧ t.sent.head? = some (.hello l (t.helloOf l))) ∧
     (st = 2 → Does (.linkHello l h) s fun t => t.rd F.MESH_LINK_STATUS_PEER l = h.node.toNat ∧ t.rd F.MESH_LINK_STATUS_PEER_LG l = h.lg.toNat ∧
       (m.helloRefuses l h = 0 → t.linkState l = 3 ∧ (∃ x, t.sent.head? = some (.evidence l Config.identityCert x (t.link l).ephemeral)) ∧
         (t.link l).peerReqAttest = h.reqAttest ∧ (t.link l).peerNonce = h.nonce) ∧
       (m.helloRefuses l h ≠ 0 → t.linkState l = 6 ∧ t.rd F.MESH_LINK_STATUS_REASON l = m.helloRefuses l h ∧ t.link l = {})) ∧
     (st = 3 → Does (.attestationDone l e) s fun t =>
       (own = false → t.flag F.ROOK_ALERT_LINK_REJECT = true) ∧
       (own = true → e.peerAccepts = true → t.linkState l = 4 ∧ t.flag F.MESH_LINK_STATUS_ATTESTED l = true ∧ (t.link l).keyGen = 1 ∧
         (t.link l).key = Config.linkKey k.ephemeral e.ephemeral k.nonce k.peerNonce) ∧
       ((own && e.peerAccepts) = false → m.flag F.MESH_LG_CTRL_REQ_ATTEST lg = false → k.peerReqAttest = false → t.linkState l = 5 ∧ t.link l = k) ∧
       ((own && e.peerAccepts) = false → (m.flag F.MESH_LG_CTRL_REQ_ATTEST lg = true ∨ k.peerReqAttest = true) → t.linkState l = 6 ∧
         t.rd F.MESH_LINK_STATUS_REASON l = 4)) ∧
     (m.linkUp l = true → Does (.linkUsable l) s fun t => t = (m.setLink l { k with usable := true }).releaseAll ∧
       (m.heldReqs = [] → t = m.setLink l { k with usable := true })) ∧
     (m.linkUp l = false → Does (.linkUsable l) s fun t => t = m) ∧
     (st = 1 ∨ st = 2 ∨ st = 3 → Does (.bringupTimeout l) s fun t => restarted t ∧
       t.rd F.MESH_LG_RETRAINS_COUNT lg = satAdd32 (m.rd F.MESH_LG_RETRAINS_COUNT lg) 1) ∧
     (st ≠ 0 → st ≠ 6 → Does (.linkLost l) s restarted) ∧
     (st = 0 ∨ st = 6 → Does (.linkLost l) s fun t => t = m) ∧
     (Does (.retrain w g) s fun t => ∀ j, j = 2 * g.val ∨ j = 2 * g.val + 1 → t.link j = {} ∧ t.linkState j = start j) ∧
     (m.linkUp l = true →
       (Does (.blockReceive l true true ⟨n, acked⟩) s fun t =>
         t.link l = { k with tagFails := 0, blocksRx := k.blocksRx + 1, replay := k.replay.filter (fun x => acked.all (fun a => decide (a < x.1))) } ∧
         t.wire = .ack l (k.blocksRx + 1) :: m.wire ∧
         t.rd F.MESH_LG_FEC_CORR_COUNT lg = satAdd32 (m.rd F.MESH_LG_FEC_CORR_COUNT lg) n ∧ OnlyRegs [(.MESH_LG_FEC_CORR, lg)] m t) ∧
       (Does (.blockReceive l false false ⟨n, acked⟩) s fun t => t.link l = k ∧ t.wire = .again l (k.blocksRx + 1) :: m.wire ∧ t.rd F.MESH_LG_FEC_UNC_COUNT lg = satAdd32 (m.rd F.MESH_LG_FEC_UNC_COUNT lg) 1) ∧
       (Does (.blockReceive l false true ⟨n, acked⟩) s fun t => t.rd F.MESH_LG_AUTH_FAIL_COUNT lg = satAdd32 (m.rd F.MESH_LG_AUTH_FAIL_COUNT lg) 1 ∧
         (k.tagFails < 2 → t.link l = { k with tagFails := k.tagFails + 1 } ∧ t.wire = .again l (k.blocksRx + 1) :: m.wire) ∧ (k.tagFails ≥ 2 → restarted t)) ∧
       (Does (.resendRequest l n) s fun t => (t.link l).replay = k.replay.filter (fun x => n ≤ x.1) ∧
         t.rd F.MESH_LG_RESEND_COUNT lg = satAdd32 (m.rd F.MESH_LG_RESEND_COUNT lg) (k.replay.filter (fun x => n ≤ x.1)).length) ∧
       (k.waiting = [] → m.serving = [] → Does (.creditReturn l vc) s fun t =>
         t = m.setLink l { k with used := k.used.set vc (k.used.getD vc 0 - 1) }) ∧
       (k.waiting = [q] → q.vc = vc.val → q.origin = none → m.serving = [] → (k.turn.1 = 0 ∨ k.turn.1 = 3) → k.used.length = 4 →
         k.used.getD vc 0 - 1 + (q.what.flits m l).length ≤ m.credits l vc → Does (.creditReturn l vc) s fun t =>
           t.sent = (m.stampedParcel l q.what).out l :: m.sent ∧ (t.link l).waiting = [] ∧ t.regs = m.regs)) ∧
     (st = 4 →
       let next := fun (t : Mod) => t.link l = { k with keyGen := k.keyGen + 1, key := (t.link l).key, keySince := t.mono, keyTx := k.blocksTx, keyRx := k.blocksRx } ∧ t.regs = m.regs
       (k.keyWorn = true → Does (.keyRenewal l) s fun t => next t ∧ t.mono = m.mono) ∧
       (k.keyWorn = false → Does (.keyRenewal l) s fun t => next t ∧ t.mono = Nat.max m.mono (k.keySince + 3600000000000)))) ∧
  (∀ (s : State) (l : LinkId) (g : LgId) (i : Fin 64) (up : Bool) (fr : EthFrame),
     let m := s.mod
     ((m.link l).usable = true → m.lgMode (l.val / 2) = 1 → m.linkUp l = true → Does (.eth l fr) s fun t =>
       t = (m.giveCredits l 3 ((fr.bytes.length + 67) / 64)).switchReceive (1024 + l.val / 2) fr) ∧
     (((m.link l).usable && m.lgMode (l.val / 2) == 1 && m.linkUp l) = false → Does (.eth l fr) s fun t => t = m) ∧
     (∀ x : Nat × Nat × Nat, m.qbvRuns g = true → (m.gateList g)[i.val]? = some x → Does (.gateControlEntry g i) s fun t =>
       t = m.toNow (m.now + (m.rd F.MESH_TSN_CYCLE_NS g + x.1 - m.gatePhase g) % m.rd F.MESH_TSN_CYCLE_NS g)) ∧
     (m.qbvRuns g = false → Does (.gateControlEntry g i) s fun t => t = m) ∧
     (m.lgMode g = 2 → m.lgTrains g = true → m.flag F.MESH_LG_STATUS_ETH_UP g ≠ up → Does (.ethernetPortLinkChange g up) s fun t =>
       t.flag F.MESH_LG_STATUS_ETH_UP g = up ∧ OnlyRegs [(.MESH_LG_STATUS, g), (.EVR_UNROUTED, 0)] m t) ∧
     (m.lgMode g ≠ 2 → Does (.ethernetPortLinkChange g up) s fun t => t = m))

/-- A request for this module over an attested link in time: RD of bytes of one line that its gate admits is answered with the bytes read, their
keys' tags and poison; WR of a whole range without keys writes it and is acknowledged; ATOM adds, swaps or compares and swaps at an unpoisoned
place and answers the old value; KCAS writes the new key where the granule equals the compare key; RDRUN answers the lines read, WRRUN is
acknowledged when all are written. Each refused by its gate is answered with a NACK of the gate's kind, and of ATOM, RD and WR nothing
else is done. While it is served it is a request in service, and what ends with it gives its credits back. FLIT_FORWARD of a flit for another node
with a route sends it on, a run that goes on over a v1 link noted; a request that came over an open link is refused; a reserved type is
discarded and counted. That the ending service gives its credits back then is the model's choice (log entry 83), and so are the forms of the
answers that log entry 48 names: an atomic's old value at byte 0 of its ACK, a run's NACK at its first refused line. -/
def Obligations.MeshRequestsAreServedAtTheirHome : Prop :=
  ∀ (s : State) (l : LinkId) (f d : Flit) (ds : List Flit) (m1 m2 : Mod) (g : Got) (kind l2 : Nat) (ph : Bool)
      (x : BitVec 512 × Nat × Bool) (xs : List (BitVec 512 × Nat × Bool)),
    let m := s.mod
    let a := flitAddr f
    let n := flitSize f
    let p := f.payload.toNat
    let att := m.flag F.MESH_LINK_STATUS_ATTESTED l
    let bs := payBytes d.payload a n
    let in1 := m.serviceBegins l f 1
    let in2 := m.serviceBegins l f 2
    let inRun := m.serviceBegins l f (1 + ds.length)
    let ackOf := fun (t : Mod) => (t.respond (t.answerTo f 0x13 1 0 false) []).serviceEnds
    let refused := fun (t : Mod) => t = (m1.respond (nackOf m1.node f kind) []).serviceEnds
    (m.linkState l = 4 → f.dst.toNat = m.node → m.servedLate l f = false →
      (f.ftype = 0x01 → oneLine f = true →
        (in1.passGate (flitAcc f a n .load) = (m1, none) → m1.loadAs 56 a n = (m2, g) → Does (.rd l f) s fun t => t = (m2.respond
          { m2.answerTo f 0x11 1 0 false with payload := linePay a g.data, tags := BitVec.ofNat 4 (m2.leavingTags a n), poison := g.poison } []).serviceEnds) ∧
        (in1.passGate (flitAcc f a n .load) = (m1, some kind) → Does (.rd l f) s refused)) ∧
      (f.ftype = 0x02 → oneLine f = true → m.arrivingKeys att a bs d.tags.toNat = [] →
        (in2.passGate (flitAcc f a n .store) = (m1, none) → (∀ off, targetOf a ≠ .regs off) → maskRuns (bitsOf p 128 64 >>> (a % 64)) n = [(0, n)] →
          bs.length = n → Does (.wr l f d) s fun t => t = ackOf (m1.rawWrite a bs none none)) ∧
        (in2.passGate (flitAcc f a n .store) = (m1, some kind) → Does (.wr l f d) s refused)) ∧
      (f.ftype = 0x03 → ∀ op wide, amoOf (bitsOf p 72 8) = some (op, wide) → n = (if wide then 8 else 4) → a % n = 0 →
        (in1.passGate (flitAcc f a n .atomic) = (m1, none) → m1.rawRead a n = (m2, g) → g.poison = false →
          Does (.atom l f) s fun t => t = ((match op.write n (ofLeBytes g.data) (bitsOf p 128 64) (bitsOf p 192 64) with
            | some v => m2.rawWrite a (leBytes n v) none none
            | none => m2).respond { m2.answerTo f 0x13 1 0 false with payload := BitVec.ofNat 512 (ofLeBytes g.data) } []).serviceEnds) ∧
        (in1.passGate (flitAcc f a n .atomic) = (m1, some kind) → Does (.atom l f) s refused)) ∧
      (f.ftype = 0x04 → a % 16 = 0 → in1.passGate (flitAcc f a 16 .atomic) = (m1, none) → ∀ (m3 : Mod) (old : Key), m1.keyAt a = (m3, old, false) →
        let new := m1.keyArrives att ⟨BitVec.ofNat 128 (bitsOf p 256 128), f.tags.getLsbD 2⟩
        old = m1.keyArrives att ⟨BitVec.ofNat 128 (bitsOf p 128 128), f.tags.getLsbD 1⟩ →
        let m4 := m3.rawWrite a new.bytes (some (new.tag && m3.keepsTag a new.loc)) none
        Does (.kcasFlit l f) s fun t => t = (m4.respond { m4.answerTo f 0x13 1 0 false with
          payload := BitVec.ofNat 512 old.bits.toNat, tags := BitVec.ofNat 4 (b2n (m4.keyLeaves true old)) } []).serviceEnds) ∧
      (f.ftype = 0x05 → wholeRun f = true → in1.readRun f a (flitLines f) = (m1, .ok (x :: xs)) →
        let flit := fun (t : Nat) (x : BitVec 512 × Nat × Bool) => { m1.answerTo f t 3 0 false with payload := x.1, tags := BitVec.ofNat 4 x.2.1, poison := x.2.2 }
        Does (.rdrun l f) s fun t => t = (m1.respond { flit 0x12 x with follow := BitVec.ofNat 5 xs.length } (xs.map (flit 0x10))).serviceEnds) ∧
      (f.ftype = 0x06 → wholeRun f = true → ds.length = flitLines f →
        (inRun.writeRun l f a ds = (m1, none) → Does (.wrrun l f ds) s fun t => t = ackOf m1) ∧
        (inRun.writeRun l f a ds = (m1, some kind) → Does (.wrrun l f ds) s refused))) ∧
    (m.linkUp l = true → f.ftype.toNat ∉ flitTypes → Does (.flitForward l f ds) s fun t => t = (m.meshErr 0).giveCredits l f.vc.toNat 1) ∧
    (m.linkState l = 5 → f.ftype.toNat ∈ flitTypes → isRequest f.ftype.toNat = true → f.dst.toNat ≠ m.node → Does (.flitForward l f ds) s fun t =>
      t = m.openRefuse l f (1 + ds.length)) ∧
    (m.linkState l = 4 → f.ftype.toNat ∈ flitTypes → f.dst.toNat ≠ m.node → m.route f.dst.toNat f.vc.toNat f.hops.toNat f.phase (isRun f) = .ok (l2, ph) →
      m.v1Refuses l2 f = false → Does (.flitForward l f ds) s fun t => t = (m.convertRun l2 f).sendOn l2 ph f ds (some l.val))

/-- Over an attested link, in time, for a request of this module that has gone out: RDRESP, or RUNRESP with its further flits, of the last line of
a read by a core ends the request and gives the core's waiting access the bytes of its place, the tags that stay and the poison. ACK of a
store of a core ends it and takes the store out of the store buffer. NACK ends the request with the kind it carries: a waiting access of
a core has that fault. REQUEST_TIMEOUT runs time to the request's start plus MESH_RTO, sets bit 1 of MESH_ERR, counts, and ends the request
with kind 0x21; that the time-out sets bit 1 and counts as every mesh error does is the model's choice (log entry 47). A run of stores sent
as single lines ends with the last ACK. Every response gives its credits back; one that no request awaits does
nothing more, and a time-out of none changes nothing. -/
def Obligations.MeshResponsesEndTheirRequests : Prop :=
  ∀ (s : State) (l : LinkId) (f : Flit) (ds : List Flit) (r : MeshReq) (c : Nat) (e : StoreEnt),
    let m := s.mod
    let found := m.req.find? (fun x => x.tid == f.tid.toNat && x.via.isSome)
    let m1 := m.giveCredits l f.vc.toNat 1
    let mRun := m.giveCredits l f.vc.toNat (1 + ds.length)
    let att := m.flag F.MESH_LINK_STATUS_ATTESTED l
    let ended := m1.endRequest r.tid
    let endedRun := mRun.endRequest r.tid
    (m.linkState l = 4 → f.dst.toNat = m.node → f.late = false →
      (found = some r → m.pastDeadline r.deadline = false →
        (r.who = .core c → m.wantsAck r = false → r.got = [] → r.lines ≤ 1 →
          (f.ftype = 0x11 → Does (.rdresp l f) s fun t => t = ended.waitCame c r.tid
            (.data (((leBytes 64 f.payload.toNat).drop (r.addr % 64)).take r.size) (ended.keptTags att f.payload f.tags.toNat) f.poison)) ∧
          (f.ftype = 0x12 → Does (.runresp l f ds) s fun t => t = endedRun.waitCame c r.tid
            (.data ((((f :: ds).flatMap (fun x => leBytes 64 x.payload.toNat)).drop (r.addr % 64)).take r.size) (endedRun.keptTags att f.payload f.tags.toNat)
              ((f :: ds).any (·.poison))))) ∧
        (r.who = .coreStore c → f.ftype = 0x13 → 1 < r.lines → Does (.ack l f) s fun t =>
          t = { m1 with req := m.req.map (fun x => if x.tid = r.tid then { x with lines := x.lines - 1 } else x) }) ∧
        (r.who = .coreStore c → f.ftype = 0x13 → r.lines ≤ 1 → f.poison = false → (m.core c).sb.find? (fun x => x.sent == some r.tid) = some e →
          Does (.ack l f) s fun t => (t.core c).sb = (m.core c).sb.erase e ∧ (∀ x ∈ t.req, x.tid ≠ r.tid) ∧ t.mem = m.mem) ∧
        (r.who = .core c → f.ftype = 0x14 → Does (.nack l f) s fun t => t = ended.waitCame c r.tid (.failed f.status.toNat) ∧
          ∀ w ∈ (t.core c).waits, w.tid = r.tid → w.fault = some f.status.toNat)) ∧
      (found = none →
        (f.ftype = 0x11 → Does (.rdresp l f) s fun t => t = m1) ∧ (f.ftype = 0x12 → Does (.runresp l f ds) s fun t => t = mRun) ∧
        (f.ftype = 0x13 → Does (.ack l f) s fun t => t = m1) ∧ (f.ftype = 0x14 → Does (.nack l f) s fun t => t = m1))) ∧
    (m.req.find? (·.tid == f.tid.toNat) = some r → r.who = .core c → Does (.requestTimeout f.tid) s fun t =>
      t.mono = Nat.max m.mono (r.since + m.rto) ∧ bitAt (t.rd F.MESH_ERR_KIND) 1 = true ∧
      t.rd F.MESH_ERR_COUNT_COUNT = satAdd32 (m.rd F.MESH_ERR_COUNT_COUNT) 1 ∧ (∀ x ∈ t.req, x.tid ≠ r.tid) ∧
      ∀ w ∈ (t.core c).waits, w.tid = r.tid → w.fault = some 0x21) ∧
    (m.req.find? (·.tid == f.tid.toNat) = none → Does (.requestTimeout f.tid) s fun t => t = m)

/-- While an operation is in flight MESH_GOP_CMD is lost with CMDLOST. Otherwise, at a root alone, a barrier it takes part in is done at once; a
broadcast enters its own queue and is done; a snapshot and a federation reset get the instant TB_NOW + LEAD; elsewhere each goes up to the
parent and BUSY is set, at once over a link with nothing waiting and a credit at hand, else waiting for one. A barrier this module has no part in is refused. SNAPSHOT_INSTANT copies the signal memories, and a refused line
ends the snapshot as refused; SNAPSHOT_COPY_DONE records T_s in MESH_SNAP_TIME;
FEDERATION_RESET_INSTANT ends the operation at T_r, and with GRESET_EN 1 resets the module, with GRESET_EN 0 raises EV171. A broadcast, a release of an instant or the membership from the parent is taken;
a member's own entry from a child goes up. MESH_BC_RX_POP drops the oldest message. -/
def Obligations.FederationOperationsTravelTheTree : Prop :=
  ∀ (s : State) (w : Writer) (b : BitVec 4) (len : BitVec 6) (l : LinkId) (lp : Nat) (t0 : Nat) (src node : BitVec 12) (data : List Byte)
      (ident : BitVec 256) (v2 : Bool) (hops : BitVec 8) (members : List (BitVec 12 × Bool)) (m1 : Mod) (whole : Bool),
    let m := s.mod
    let bytes := ((upTo 8).flatMap (fun n => leBytes 4 (m.rd F.MESH_BC_TX_DATA n))).take len.toNat
    let busy := fun (t : Mod) => t.flag F.MESH_GOP_STATUS_BUSY = true
    let done := fun (t : Mod) => t.flag F.MESH_GOP_STATUS_BUSY = false ∧ t.flag F.MESH_GOP_STATUS_DONE = true
    let up := fun (g : GopMsg) (t : Mod) => busy t ∧ OnlyRegs [(.MESH_GOP_STATUS, 0)] m t ∧
      (FreeLink m lp → t.sent = .gop lp g :: m.sent) ∧
      ((m.link lp).waiting = [] → m.credits lp 2 ≤ (m.link lp).used.getD 2 0 → t.sent = m.sent ∧ (t.link lp).waiting = [⟨2, .gop g, none⟩])
    (m.flag F.MESH_GOP_STATUS_BUSY = true → len.toNat ≤ 32 →
      ∀ c ∈ [Instr.barrierArrive w b, .broadcast w len, .snapshot w, .federationReset w], Does c s fun t => t = m.put F.MESH_GOP_STATUS_CMDLOST 0 true) ∧
    (m.flag F.MESH_GOP_STATUS_BUSY = false → len.toNat ≤ 32 →
      (m.barPart b.toNat = false → Does (.barrierArrive w b) s fun t => t = m.put F.MESH_GOP_STATUS_REFUSED 0 true) ∧
      (m.isRoot = true → m.childLinks = [] →
        (m.barPart b.toNat = true → Does (.barrierArrive w b) s fun t => done t ∧ bitAt (t.rd F.MESH_BAR_DONE_DONE) b.toNat = true) ∧
        (m.fed.bc.length < 16 → Does (.broadcast w len) s fun t => done t ∧ t.fed.bc = m.fed.bc ++ [(m.node, bytes)]) ∧
        (m.fed.snapGuard ≤ m.now → Does (.snapshot w) s fun t => busy t ∧ t.fed.snapAt = some (m.now + m.rd F.MESH_SNAP_LEAD_LEAD) ∧
          t.fed.snapGuard = m.now + m.rd F.MESH_SNAP_LEAD_LEAD + 25000) ∧
        (Does (.federationReset w) s fun t => busy t ∧ t.fed.resetAt = some (m.now + m.rd F.MESH_SNAP_LEAD_LEAD))) ∧
      (m.isRoot = false → m.parentLink = some lp → m.childLinks = [] →
        (m.barPart b.toNat = true → Does (.barrierArrive w b) s (up (.barUp b true))) ∧
        (Does (.broadcast w len) s (up (.bcUp (BitVec.ofNat 12 m.node) bytes))) ∧
        (Does (.snapshot w) s (up (.snapUp (BitVec.ofNat 12 m.node)))) ∧
        (Does (.federationReset w) s (up (.resetUp (BitVec.ofNat 12 m.node)))))) ∧
    (m.fed.snapAt = some t0 → m.fed.snapBusy = false → (m.toNow t0).snapLines 0 8192 = (m1, whole) → Does .snapshotInstant s fun t =>
      if whole then t = { m1 with fed := { m1.fed with snapBusy := true } } else t.fed.snapAt = none ∧ t.flag F.MESH_GOP_STATUS_REFUSED = true) ∧
    (m.fed.snapAt = some t0 → m.fed.snapBusy = true → Does .snapshotCopyDone s fun t => t.rd F.MESH_SNAP_TIME_TIME = t0 % 2 ^ 64 ∧
      t.fed.snapAt = none ∧ t.fed.snapBusy = false ∧ (m.fed.own = some 3 → done t)) ∧
    (m.fed.resetAt = some t0 →
      let m' := { m.toNow t0 with fed := { m.fed with resetAt := none } }.gopEnd 4 true
      (m.flag F.MESH_CTRL_GRESET_EN = true → Does .federationResetInstant s fun t => t = m'.deviceReset 3) ∧
      (m.flag F.MESH_CTRL_GRESET_EN = false → Does .federationResetInstant s fun t => t = m'.raise 171 ∧ t.fed.resetAt = none ∧
        t.mono = (m.toNow t0).mono ∧ (m.fed.own = some 4 → done t))) ∧
    (m.fed.resetAt = none → Does .federationResetInstant s fun t => t = m) ∧
    (m.linkCarries l 2 = true → m.isMember = true →
      (m.parentLink = some l.val → m.fed.bc.length < 16 → src.toNat ≠ m.node → Does (.gop l (.bcDown src data)) s fun t =>
        t.fed.bc = m.fed.bc ++ [(src.toNat, data)]) ∧
      (m.parentLink = some l.val → Does (.gop l (.resetAt (BitVec.ofNat 64 t0))) s fun t => t.fed.resetAt = some (t0 % 2 ^ 64)) ∧
      (m.parentLink = some l.val → (∀ e ∈ members, e.1.toNat < 4095) → Does (.member l (.flood members)) s fun t =>
        ∀ n, n < 128 → t.rd F.MESH_MEMBER_MEMBER n = memberWord (members.map (fun e => (e.1.toNat, e.2))) n) ∧
      (m.parentLink = some lp → lp ≠ l.val → m.isRoot = false → FreeLink m lp → Does (.member l (.claim node ident v2 hops)) s fun t =>
        (t.link l).child = true ∧ t.sent = .member lp (.claim node ident v2 hops) :: m.sent ∧ t.regs = m.regs)) ∧
    (Does (.meshBcRxPop w) s fun t => t = { m with fed := { m.fed with bc := m.fed.bc.drop 1 } })

/-- With DRAM ready, SLICE_MISS_FILL of an absent line that needs no victim puts the frame of the line, clean, in the way of R237; of a present
line it does nothing, and one that the side buffer holds is brought from there; one that needs a dirty victim sends the victim to the controller and holds the fill; a corrected error of the line is
counted with its place. VICTIM_WRITE_ACCEPTED writes the victims of its slice to their frames and leaves none and no held fill.
CONVERSION_DONE makes the whole scratch effective, the added bytes zero, and shows CONV_DONE. WAY_POWER_DOWN_DONE empties the ways that
entered power-down and ends PD_BUSY. Without a conversion or power-down under way neither does anything.
While an operation runs, a START of any kind is lost with CMDLOST. Otherwise the operation and its master are recorded; with LEN 0 it is
done at once; INVAL without DISCARD and ZERO of a range not of whole lines are refused with reasons 1 and 2; every other start sets BUSY.
Of one line of DRAM, CLEAN writes a dirty line's frame and leaves the line clean; CLEAN_INVAL does so and leaves it in no slice, side buffer or
L1; INVAL leaves it nowhere and its frame as it was; WARM of an absent line brings its frame into the free way of R237 and leaves every L1; ZERO
leaves it zero, without tags and dirty: each that the gate admits counts it. RANGE_OP_DONE ends BUSY with DONE, and, where a line was refused, with
ERR, reason 0 and its address; with none running it does nothing. That the lines are acted on at START, COUNT then showing them, and what a
conversion shows at its end, are the model's choices (log entry 41). -/
def Obligations.SlicesFillWriteBackAndConvert : Prop :=
  (∀ (s : State) (line : BitVec 30) (w o : Nat) (k : Line) (sl : SliceId) (g : RegionId),
     let m := s.mod
     let ln := line.toNat
     let sc := sliceOf ln
     let f := m.frame ln
     let ready := m.flag F.MEM_STATUS_READY = true ∧ Tbl.look m.lines ln = none ∧ (∀ x ∈ Tbl.get [] m.held sc, x.line ≠ ln) ∧
       (∀ x ∈ Tbl.get [] m.victims sc, x.1 ≠ ln)
     let aside := (Tbl.get [] m.side sc).any (·.line == ln)
     let ways := m.rd F.SC_RGN_SCRATCH_WAYS g
     let eff := m.rd F.SC_RGN_STATUS_WAYS_EFF g
     (ready → aside = true → Does (.sliceMissFill line ⟨[], none⟩ none) s fun t => t = m.bring ln) ∧
     (ready → aside = false → m.victimOf ln = (w, none) → Does (.sliceMissFill line ⟨[], none⟩ none) s fun t =>
       Tbl.look t.lines ln = some ⟨w, f.data, f.tags, false, f.poison, 0⟩ ∧ t.mem = m.mem ∧ t.regs = m.regs) ∧
     (ready → aside = false → m.victimOf ln = (w, some (o, k)) → k.dirty = true → Does (.sliceMissFill line ⟨[], none⟩ none) s fun t =>
       Tbl.get [] t.victims sc = Tbl.get [] m.victims sc ++ [(o, k)] ∧ Tbl.get [] t.held sc = Tbl.get [] m.held sc ++ [f] ∧
       Tbl.look t.lines o = none ∧ t.mem = m.mem ∧ t.regs = m.regs) ∧
     (Tbl.look m.lines ln = some k → Does (.sliceMissFill line ⟨[], none⟩ none) s (fun t => t = m) ∧
       Does (.sliceMissFill line ⟨[], none⟩ (some .dataCorrected)) s fun t => t.lines = m.lines ∧ t.mem = m.mem ∧
         t.rd F.SC_SL_CE_COUNT sc = satAdd32 (m.rd F.SC_SL_CE_COUNT sc) 1 ∧ t.rd F.SC_SL_ERR_LOC_SET sc = setOf ln ∧
         t.rd F.SC_SL_ERR_LOC_WAY sc = k.way % 16 ∧ OnlyRegs [(.SC_SL_CE, sc), (.SC_SL_ERR_LOC, sc), (.EVR_UNROUTED, 0)] m t) ∧
     (Does (.victimWriteAccepted sl) s fun t => Tbl.get [] t.victims sl = [] ∧ Tbl.get [] t.held sl = [] ∧ t.regs = m.regs ∧
       (∀ v, Tbl.get [] m.victims sl = [v] → Tbl.get [] m.held sl = [] → t.frame v.1 = ⟨v.1, v.2.data, v.2.tags, v.2.poison⟩ ∧ t.lines = m.lines)) ∧
     (m.flag F.SC_RGN_STATUS_CONV_BUSY g = true → Does (.conversionDone g) s fun t => t.rd F.SC_RGN_STATUS_WAYS_EFF g = ways ∧
       t.flag F.SC_RGN_STATUS_CONV_BUSY g = false ∧ t.flag F.SC_RGN_STATUS_CONV_DONE g = true ∧
       (∀ a, rgnScratch g + eff * 0x80000 ≤ a → a < rgnScratch g + ways * 0x80000 → cellGet t.mem a = 0) ∧
       OnlyRegs [(.SC_RGN_STATUS, g), (.EVR_UNROUTED, 0)] m t) ∧
     (m.flag F.SC_RGN_STATUS_CONV_BUSY g = false → Does (.conversionDone g) s fun t => t = m) ∧
     (m.flag F.SC_RGN_STATUS_PD_BUSY g = true → Does (.wayPowerDownDone g) s fun t => t.flag F.SC_RGN_STATUS_PD_BUSY g = false ∧
       OnlyRegs [(.SC_RGN_STATUS, g)] m t ∧
       ((∀ j, j / 4 = g.val → Tbl.get [] m.held j = []) → ∀ e ∈ m.lines, sliceOf e.1 / 4 = g.val → e.2.way < 16 →
         bitAt (Tbl.get 0 m.pdWays g) e.2.way = true → Tbl.look t.lines e.1 = none)) ∧
     (m.flag F.SC_RGN_STATUS_PD_BUSY g = false → Does (.wayPowerDownDone g) s fun t => t = m)) ∧
  (∀ (s : State) (w : Writer) (g : RegionId) (d : Bool) (k : Line) (op ln way : Nat),
     let m := s.mod
     let busy := m.flag F.SC_RNG_STATUS_BUSY g
     let base := m.rd F.SC_RNG_BASE_BASE g
     let len := m.rd F.SC_RNG_LEN_LEN g
     let starts : List (Nat × Instr) := [(1, .clean w g), (2, .cleanInval w g), (3, .inval w g d), (4, .warm w g), (5, .zero w g)]
     let ended := fun (t : Mod) => t.flag F.SC_RNG_STATUS_BUSY g = false ∧ t.flag F.SC_RNG_STATUS_DONE g = true
     let admits := fun (kind : AccKind) => m.gateTest ⟨w.master.toNat, w.sys, 0, w.node.toNat, 64 * ln, 64, kind⟩ = none
     let counted := fun (n : Nat) (t : Mod) => t.rd F.SC_RNG_COUNT_COUNT g = 1 ∧ t.rd F.SC_RNG_SKIPPED_COUNT g = 0 ∧ Tbl.get none t.rng g = some ⟨n, none⟩
     let gone := fun (t : Mod) => Tbl.look t.lines ln = none ∧ (∀ x ∈ Tbl.get [] t.side (sliceOf ln), x.line ≠ ln) ∧
       ∀ c : CoreId, ∀ x ∈ (t.core c).l1d ++ (t.core c).l1i, x.1 ≠ ln
     let refused := fun (n : Nat) (t : Mod) => ended t ∧ t.flag F.SC_RNG_STATUS_ERR g = true ∧ t.rd F.SC_RNG_STATUS_REASON g = n ∧
       t.lines = m.lines ∧ t.mem = m.mem
     (busy = true → ∀ c ∈ starts, Does c.2 s fun t => t = m.put F.SC_RNG_STATUS_CMDLOST g true) ∧
     (busy = false →
       (len = 0 → ∀ c ∈ starts, Does c.2 s fun t => ended t ∧ t.rd F.SC_RNG_CMD_OP g = c.1 ∧ t.rd F.SC_RNG_STATUS_MASTER g = w.master.toNat ∧
         t.rd F.SC_RNG_COUNT_COUNT g = 0 ∧ t.rd F.SC_RNG_SKIPPED_COUNT g = 0 ∧ t.lines = m.lines ∧ t.mem = m.mem) ∧
       (len ≠ 0 →
         (d = false → Does (.inval w g d) s (refused 1)) ∧
         (base % 64 ≠ 0 ∨ len % 64 ≠ 0 → Does (.zero w g) s (refused 2)) ∧
         (∀ c ∈ starts, (c.1 = 3 → d = true) → (c.1 = 5 → base % 64 = 0 ∧ len % 64 = 0) →
           Does c.2 s fun t => t.flag F.SC_RNG_STATUS_BUSY g = true ∧ ∃ x, Tbl.get none t.rng g = some ⟨c.1, x⟩) ∧
         (base / 64 = ln → (base + len - 1) / 64 = ln → 64 * ln < dramTop → Tbl.look m.lines ln = some k → k.dirty = true →
           Tbl.get [] m.victims (sliceOf ln) = [] → Tbl.get [] m.held (sliceOf ln) = [] → Does (.clean w g) s fun t =>
             t.frame ln = ⟨ln, k.data, k.tags, k.poison⟩ ∧ Tbl.look t.lines ln = some { k with dirty := false } ∧
             t.rd F.SC_RNG_COUNT_COUNT g = 1 ∧ t.rd F.SC_RNG_SKIPPED_COUNT g = 0 ∧ Tbl.get none t.rng g = some ⟨1, none⟩) ∧
         (base / 64 = ln → (base + len - 1) / 64 = ln → 64 * ln < dramTop → Tbl.get [] m.victims (sliceOf ln) = [] → Tbl.get [] m.held (sliceOf ln) = [] →
           (Tbl.look m.lines ln = some k → Does (.cleanInval w g) s fun t => counted 2 t ∧ gone t ∧
             t.frame ln = if k.dirty then ⟨ln, k.data, k.tags, k.poison⟩ else m.frame ln) ∧
           (d = true → admits .rangeWrite → Does (.inval w g d) s fun t => counted 3 t ∧ gone t ∧ t.frame ln = m.frame ln) ∧
           (admits .rangeRead → Tbl.look m.lines ln = none → m.victimOf ln = (way, none) → Does (.warm w g) s fun t => counted 4 t ∧
             Tbl.look t.lines ln = some ⟨way, (m.frame ln).data, (m.frame ln).tags, false, (m.frame ln).poison, 0⟩ ∧ t.frame ln = m.frame ln ∧
             t.cores = m.cores) ∧
           (base % 64 = 0 → len % 64 = 0 → admits .rangeWrite → Does (.zero w g) s fun t => counted 5 t ∧
             ∃ x, Tbl.look t.lines ln = some x ∧ x.data = 0 ∧ x.tags = 0 ∧ x.dirty = true ∧ x.poison = false)))) ∧
     (Tbl.get none m.rng g = none → Does (.rangeOpDone g) s fun t => t = m) ∧
     (Tbl.get none m.rng g = some ⟨op, none⟩ → Does (.rangeOpDone g) s fun t => ended t ∧ Tbl.get none t.rng g = none ∧
       t.flag F.SC_RNG_STATUS_ERR g = m.flag F.SC_RNG_STATUS_ERR g ∧ OnlyRegs [(.SC_RNG_STATUS, g), (.EVR_UNROUTED, 0)] m t) ∧
     (Tbl.get none m.rng g = some ⟨op, some ln⟩ → Does (.rangeOpDone g) s fun t => ended t ∧ Tbl.get none t.rng g = none ∧
       t.flag F.SC_RNG_STATUS_ERR g = true ∧ t.rd F.SC_RNG_STATUS_REASON g = 0 ∧ t.rd F.SC_RNG_FAIL_ADDR g = 64 * ln % 2 ^ 52))

/-- CS_ERASE and CS_PROGRAM of an idle code store start with the row and data set; programming 1 over 0 is refused with reason 0; a busy store
loses the command. CS_COMMAND_DONE leaves an erased sector all FFH with its erase counted, or the row programmed; an unverified row ends with
reason 1. DRAM is supplied, trained, retried at most twice and filled with zeros in that order. REFRESH and ZQ_CALIBRATION change nothing.
PATROL_SCRUB moves on one line; before READY it reads nothing and is reported with kind 03H. DRAM_TEMPERATURE shows the hottest device, doubles refresh above 85 °C and throttles above 95 °C.
SWEEP_START takes the range, or is refused, lost, or ended at once where the range is empty; SWEEP_PASS_DONE of a region's scratch clears
exactly the tags of matched keys; of the DRAM, a frame it reads as uncorrectable loses its tags, is poisoned and recorded with SOURCE sweeper; the
last pass ends the sweep unless HOLD keeps it for SWEEP_RELEASE. -/
def Obligations.CodeStoresDramAndTheSweeper : Prop :=
  ∀ (s : State) (w : Writer) (g : RegionId) (v hold : Bool) (sector : Nat) (row : Nat) (data : BitVec 256) (sub : Fin 8) (failed : BitVec 8)
      (t0 : BitVec 8) (sc dev : BitVec 3) (keep : BitVec 6) (rate : BitVec 2) (x : Sweep) (e : PassEnd),
    let m := s.mod
    let p := e.pass
    let r := m.rd F.CS_ADDR_ROW g
    let old := m.num (codeBase g + 32 * r) 32
    let started := fun (op : Nat) (t : Mod) => Tbl.get none t.csRun g = some (op, r, m.csRow g) ∧ t.flag F.CS_STATUS_BUSY g = true ∧
      t.mem = m.mem ∧ OnlyRegs [(.CS_STATUS, g)] m t
    let csEnds := fun (t : Mod) => Tbl.get none t.csRun g = none ∧ t.flag F.CS_STATUS_BUSY g = false ∧ t.flag F.CS_STATUS_DONE g = true
    let lo := m.rd F.MEM_SWP_LO_LO
    let hi := m.rd F.MEM_SWP_HI_HI
    let all := allPasses.all (fun q => (p :: x.done).contains q)
    (m.flag F.CS_STATUS_BUSY g = true → ∀ c ∈ [Instr.csErase w g, .csProgram w g], Does c s fun t => t = m.put F.CS_STATUS_CMDLOST g true) ∧
    (m.flag F.CS_STATUS_BUSY g = false → m.twin.loss = none →
      Does (.csErase w g) s (started 1) ∧
      ((m.csRow g).toNat &&& (2 ^ 256 - 1 - old) = 0 → Does (.csProgram w g) s (started 2)) ∧
      ((m.csRow g).toNat &&& (2 ^ 256 - 1 - old) ≠ 0 → Does (.csProgram w g) s fun t => t.flag F.CS_STATUS_ERR g = true ∧
        t.rd F.CS_STATUS_REASON g = 0 ∧ t.flag F.CS_STATUS_DONE g = true ∧ t.csRun = m.csRun ∧ t.mem = m.mem)) ∧
    (Tbl.get none m.csRun g = none → Does (.csCommandDone g v) s fun t => t = m) ∧
    (Tbl.get none m.csRun g = some (1, row, data) → row < 2 ^ 18 → row / 2048 = sector → Does (.csCommandDone g v) s fun t => csEnds t ∧
      (∀ a, codeBase g + 0x10000 * sector ≤ a → a < codeBase g + 0x10000 * sector + 0x10000 → cellGet t.mem a = 0xFF) ∧
      Tbl.get 0 t.csErases (g * 128 + sector) = Nat.min 0xFFFF (Tbl.get 0 m.csErases (g * 128 + sector) + 1)) ∧
    (Tbl.get none m.csRun g = some (2, row, data) → Does (.csCommandDone g v) s fun t => csEnds t ∧
      (v = true → t.num (codeBase g + 32 * row) 32 = data.toNat ∧ t.flag F.CS_STATUS_ERR g = m.flag F.CS_STATUS_ERR g) ∧
      (v = false → t.flag F.CS_STATUS_ERR g = true ∧ t.rd F.CS_STATUS_REASON g = 1)) ∧
    (m.phase.spineUp = true → m.dramUp = false → m.flag F.PWR_THR_STATUS_CRITICAL = false →
      ((∀ x ∈ m.domRetry, x < 64) → Does .dramSuppliesUp s fun t => t.dramUp = true ∧ t.domPowered 64 = true ∧ t.domPowered 65 = true) ∧
      ((∃ x ∈ m.domRetry, 64 ≤ x) → Does .dramSuppliesUp s fun t => t = m)) ∧
    (m.dramPower = true → m.flag F.MEM_STATUS_TRAINED = false → m.flag F.MEM_STATUS_TRAIN_FAIL = false → failed = 0 → Does (.dramTrainingDone failed) s fun t =>
      t.flag F.MEM_STATUS_TRAINED = true ∧ t.rd F.MEM_STATUS_FAILMASK = 0 ∧ t.mem = m.mem) ∧
    (m.dramPower = false → Does (.dramTrainingDone failed) s (fun t => t = m) ∧ Does (.trainingRetry failed) s (fun t => t = m) ∧
      Does .dramFillDone s fun t => t = m) ∧
    (m.flag F.MEM_STATUS_TRAIN_FAIL = true → (m.trainTries ≥ 2 → Does (.trainingRetry failed) s fun t => t = m) ∧
      (m.dramPower = true → m.trainTries < 2 → failed = 0 → Does (.trainingRetry failed) s fun t => t.flag F.MEM_STATUS_TRAINED = true ∧
        t.flag F.MEM_STATUS_TRAIN_FAIL = false ∧ t.trainTries = m.trainTries + 1)) ∧
    (m.dramPower = true → m.flag F.MEM_STATUS_TRAINED = true → m.flag F.MEM_STATUS_READY = false → Does .dramFillDone s fun t => t.flag F.MEM_STATUS_READY = true ∧
      (∀ a, a < dramTop → cellGet t.mem a = 0 ∧ t.tag a = false) ∧ t.lines = [] ∧
      (m.rd F.ROOK_STATUS_BOOT = 4 → t.rd F.ROOK_STATUS_BOOT = 5)) ∧
    Does (.refresh sub) s (fun t => t = m) ∧ Does (.zqCalibration sub) s (fun t => t = m) ∧
    (m.rd F.MEM_PATROL_CTRL_PERIOD = 0 → Does (.patrolScrub []) s fun t => t = m) ∧
    (m.rd F.MEM_PATROL_CTRL_PERIOD ≠ 0 → m.flag F.MEM_STATUS_READY = false → Does (.patrolScrub []) s fun t => t.mem = m.mem ∧
      t.rd F.MEM_PATROL_POS_LINE = m.rd F.MEM_PATROL_POS_LINE ∧ (m.vq.length < 64 → ∃ r, t.vq = m.vq ++ [r] ∧ r.kind = 0x03)) ∧
    (m.rd F.MEM_PATROL_CTRL_PERIOD ≠ 0 → m.flag F.MEM_STATUS_READY = true → Does (.patrolScrub []) s fun t =>
      t.rd F.MEM_PATROL_POS_LINE = (m.rd F.MEM_PATROL_POS_LINE + 1) % 2 ^ 30 ∧ t.mem = m.mem ∧
      OnlyRegs [(.MEM_PATROL_POS, 0), (.MEM_PATROL_PASSES, 0), (.EVR_UNROUTED, 0)] m t) ∧
    (t0.toInt < 105 → Does (.dramTemperature t0 sc dev) s fun t => t.rd F.MEM_TEMP_TEMP = t0.toNat ∧ t.rd F.MEM_TEMP_SUBCH = sc.toNat ∧
      t.rd F.MEM_TEMP_DEVICE = dev.toNat ∧
      t.flag F.MEM_STATUS_REFRESH_2X = (if t0.toInt > 85 then true else if t0.toInt ≤ 82 then false else m.flag F.MEM_STATUS_REFRESH_2X) ∧
      t.flag F.MEM_STATUS_THROTTLE = (if t0.toInt > 95 then true else if t0.toInt ≤ 92 then false else m.flag F.MEM_STATUS_THROTTLE) ∧
      OnlyRegs [(.MEM_TEMP, 0), (.MEM_STATUS, 0), (.EVR_UNROUTED, 0)] m t) ∧
    (m.flag F.MEM_STATUS_READY = false → Does (.sweepStart w hold keep rate) s fun t => t.sweep = m.sweep ∧
      (m.vq.length < 64 → ∃ r, t.vq = m.vq ++ [r] ∧ r.kind = 0x03)) ∧
    (m.flag F.MEM_STATUS_READY = true → rate ≠ 3 →
      (m.sweep ≠ none → Does (.sweepStart w hold keep rate) s fun t => t.flag F.MEM_SWP_STATUS_CMDLOST = true ∧ t.sweep = m.sweep) ∧
      (m.sweep = none → keep = 0 → Does (.sweepStart w hold keep rate) s fun t => t.flag F.MEM_SWP_STATUS_ERR = true ∧ t.sweep = none) ∧
      (m.sweep = none → keep ≠ 0 → lo ≥ hi → Does (.sweepStart w hold keep rate) s fun t => t.flag F.MEM_SWP_STATUS_DONE = true ∧
        t.flag F.MEM_SWP_STATUS_PASSES_DONE = true ∧ t.sweep = none ∧ t.rd F.MEM_SWP_CLEARED_COUNT = 0) ∧
      (m.sweep = none → keep ≠ 0 → lo < hi → Does (.sweepStart w hold keep rate) s fun t =>
        t.sweep = some ⟨m.rd F.MEM_SWP_NODE_NODE, lo, hi, keep.toNat, hold, rate.toNat, m.mono, []⟩ ∧ t.side = [] ∧
        t.flag F.MEM_SWP_STATUS_ACTIVE = true ∧ t.rd F.MEM_SWP_CLEARED_COUNT = 0)) ∧
    (m.sweep = some x → p ∉ x.done →
      (p = .regionScratch g → Does (.sweepPassDone e) s fun t => t.mem = m.mem ∧ ∀ a, a % 16 = 0 → rgnScratch g ≤ a → a < rgnScratch g + 0x400000 →
        Tbl.look m.lines (a / 64) = none → t.tag a = (m.tag a && !x.matches m.node (Key.ofBytes (m.bytes a 16) true))) ∧
      (∀ (ln : BitVec 30) (er : FrameErr), p = .dram → e.errs = [(ln, er)] → (symbolErrors er).length = 8 → m.lines = [] → m.victims = [] → m.held = [] →
        Does (.sweepPassDone e) s fun t => (t.frame ln.toNat).tags = 0 ∧ (t.frame ln.toNat).poison = true ∧ t.rd F.MEM_SWP_POS_LINE = 2 ^ 30 - 1 ∧
          t.rd F.MEM_UE_COUNT_COUNT (subChannel ln.toNat) = satAdd32 (m.rd F.MEM_UE_COUNT_COUNT (subChannel ln.toNat)) 1 ∧
          (m.flag F.MEM_ERR_STATUS_CE = false → m.flag F.MEM_ERR_STATUS_UE = false → t.rd F.MEM_ERR_STATUS_SOURCE = 2 ∧ t.rd F.MEM_ERR_ADDR_LINE = ln.toNat)) ∧
      (all = false → Does (.sweepPassDone e) s fun t => t.sweep = some { x with done := p :: x.done }) ∧
      (all = true → Does (.sweepPassDone e) s fun t => t.flag F.MEM_SWP_STATUS_PASSES_DONE = true ∧
        (x.hold = true → t.sweep = some { x with done := p :: x.done }) ∧
        (x.hold = false → t.sweep = none ∧ t.flag F.MEM_SWP_STATUS_DONE = true ∧ t.flag F.MEM_SWP_STATUS_ACTIVE = false))) ∧
    (m.sweep = some x → p ∈ x.done → Does (.sweepPassDone e) s fun t => t = m) ∧
    (m.sweep = some x → m.flag F.MEM_SWP_STATUS_PASSES_DONE = true → x.hold = true → Does (.sweepRelease w) s fun t => t.sweep = none ∧
      t.flag F.MEM_SWP_STATUS_DONE = true ∧ t.flag F.MEM_SWP_STATUS_ACTIVE = false) ∧
    (m.sweep = some x → (m.flag F.MEM_SWP_STATUS_PASSES_DONE && x.hold) = false → Does (.sweepRelease w) s fun t =>
      t = m.put F.MEM_SWP_STATUS_CMDLOST 0 true)

/-- A write of BASE, TOP or MASTERS of an unlocked entry changes only its pending copy; of a locked one nothing but LOCKED_WR, LAST_ENTRY and a
report of kind 10H. A write of CTRL applies the pending copy: the entry takes base, top, masters and rights, is locked by a class while
enabled, and at gates 0 to 4 every L1 is emptied; one that would overlap an enabled entry is refused with OVERLAP and a report of kind 0FH.
EPOCH_ADVANCE steps the epoch, 63 going to 1, or sets ADV_REFUSED where the next epoch is the swept one or a sweep meets the entry. An entry
the gate does not have takes no write. GATE_VQ_POP drops the oldest report and FLT_Q_POP the oldest fault record.
An access is admitted where its target admits it and every byte does: the enabled entry that holds the byte has the master's bit, matches the node of
master 56 where it filters, holds every right the access needs and matches a nonzero epoch where it checks; a byte in no entry is admitted to a
privileged master under the default map, within its rights. The lowest refused byte gives the entry and the kind, of master, node, rights and epoch in
this order, and unmapped, register width, memory not ready, code store, atomic target come before them. A refusal leaves memory, tags and cores as they
are and appends a report of the access. The tag of a stored key is kept as KEEPLOC allows, of global keys alone where mesh remote may read. -/
def Obligations.GateEntriesArePendingUntilApplied : Prop :=
  (∀ (m : Mod) (q : Acc) (i e k a l : Nat),
    let t := targetOf q.addr
    let g := gateOf t
    let x := entIx g e
    let answer := (m.passGate q).2
    let debug := q.master = 55 ∧ (m.rd F.ROOK_DBG_SCOPE = 0 ∨ 2 < m.rd F.ROOK_DBG_SCOPE ∨ (m.rd F.ROOK_DBG_SCOPE = 1 ∧ q.kind ≠ .load))
    let listed := bitAt (m.rd F.GATE_ENT_MASTERS_MASTERS x) q.master = true
    let nodeOk := q.master ≠ 56 ∨ m.flag F.GATE_ENT_CTRL_NODE_EN x = false ∨ m.rd F.GATE_ENT_CTRL_NODE x = q.node
    let granted := fun (r : Nat) => q.kind.needs &&& r = q.kind.needs
    let epochOk := m.flag F.GATE_ENT_CTRL_EPOCH_EN x = false ∨ q.epoch = 0 ∨ q.epoch = m.rd F.GATE_ENT_EPOCH_EPOCH x
    let default := m.flag F.GATE_G_CTRL_PRIV_DEFAULT g = true ∧ m.privAt q g = true
    let byte := m.byteTest q g a
    let refuses := fun (kind : Nat) => answer = some kind
    -- one byte
    (m.entryAt g a = some e →
      (m.entBase g e ≤ a ∧ a < m.entTop g e) ∧
      (byte = none ↔ listed ∧ nodeOk ∧ granted (m.entRights g e) ∧ epochOk) ∧
      (¬ listed → byte = some (if q.master = 55 ∧ debug then 0x0A else 0x0B, e)) ∧
      (listed → ¬ nodeOk → byte = some (0x0C, e)) ∧
      (listed → nodeOk → ¬ granted (m.entRights g e) → byte = some (0x0D, e)) ∧
      (listed → nodeOk → granted (m.entRights g e) → ¬ epochOk → byte = some (0x0E, e))) ∧
    (m.entryAt g a = none →
      (byte = none ↔ default ∧ granted (defaultRights g)) ∧ (¬ default → byte = some (0x0A, 0xFFFF)) ∧
      (default → ¬ granted (defaultRights g) → byte = some (0x0D, 0xFFFF))) ∧
    -- the access
    (m.mapped t q.size = false → refuses 0x01) ∧
    (m.mapped t q.size = true →
      (t = .dram → m.flag F.MEM_STATUS_READY = false → refuses 0x03) ∧
      (∀ r, t = .code r → q.kind.writes = true → refuses 0x05) ∧
      (∀ off, t = .regs off → ¬ ((q.size = 4 ∨ q.size = 8) ∧ q.addr % q.size = 0) → refuses 0x02) ∧
      (∀ r off, t = .signal r off → q.kind = .atomic → refuses 0x07) ∧
      (∀ r off, t = .signal r off → q.kind = .store → q.master ≠ 57 + r → off < 0x20000 → 0 < q.size → q.size ≤ 64 → refuses 0x09)) ∧
    (m.targetTest q t = none → fixedAdmit q t = false →
      (answer = none ↔ ∀ j, j < q.size → m.byteTest q g (q.addr + j) = none) ∧
      (i < q.size → (∀ j, j < i → m.byteTest q g (q.addr + j) = none) → m.byteTest q g (q.addr + i) = some (k, e) → refuses k ∧
        (m.vq.length < 64 → ∃ r, (m.passGate q).1.vq = m.vq ++ [r] ∧ r.kind = k ∧ r.entry = e ∧ r.master = q.master ∧ r.epoch = q.epoch ∧ r.size = q.size ∧
          r.gate = g ∧ r.addr = (if q.master = 56 then q.node else m.node) * 2 ^ 52 + q.addr))) ∧
    (answer = none → (m.passGate q).1 = m) ∧
    ((m.passGate q).1.mem = m.mem ∧ (m.passGate q).1.tags = m.tags ∧ (m.passGate q).1.lines = m.lines ∧ (m.passGate q).1.cores = m.cores) ∧
    -- tags of stored keys
    (let here := gateOf (targetOf a)
     (m.entryAt here a = none → m.keepsTag a l = true) ∧
     (m.entryAt here a = some e →
       let y := entIx here e
       let keep := m.rd F.GATE_ENT_CTRL_KEEPLOC y
       (m.keepsTag a l = true ↔ (keep = 0 ∨ (keep = 1 ∧ l ≤ 1) ∨ (keep = 2 ∧ l = 0)) ∧
         (bitAt (m.rd F.GATE_ENT_MASTERS_MASTERS y) 56 = true → m.flag F.GATE_ENT_CTRL_RD y = true → l = 0))))) ∧
  ∀ (s : State) (w : Writer) (gate : GateId) (e : Fin 256) (v : BitVec 64) (ctrl : BitVec 32),
    let m := s.mod
    let i := entIx gate e
    let p := m.entPend gate e
    let there := e.val < gateEntries gate
    let locked := m.flag F.GATE_ENT_CTRL_LOCK i
    let next := nextEpoch (m.rd F.GATE_ENT_EPOCH_EPOCH i)
    let clash := bitAt ctrl.toNat 0 && m.wouldOverlap gate e p.base p.top
    let cls := if bitsOf ctrl.toNat 8 2 = 3 then m.rd F.GATE_ENT_CTRL_CLASS i else bitsOf ctrl.toNat 8 2
    let writes : List (EntryReg × PendEnt) := [(.base, { p with base := bitsOf v.toNat 4 48 * 16 }), (.top, { p with top := bitsOf v.toNat 4 48 * 16 }),
      (.masters, { p with masters := bitsOf v.toNat 0 61 })]
    let reported := fun (kind : Nat) (f : Fld) (t : Mod) => t.flag f gate = true ∧ t.rd F.GATE_G_STATUS_LAST_ENTRY gate = e.val ∧
      t.gatePend = m.gatePend ∧ t.reg .GATE_ENT_BASE i = m.reg .GATE_ENT_BASE i ∧ t.reg .GATE_ENT_CTRL i = m.reg .GATE_ENT_CTRL i ∧
      (m.vq.length < 64 → ∃ r, t.vq = m.vq ++ [r] ∧ r.kind = kind ∧ r.entry = e.val ∧ r.master = w.master.toNat ∧ r.epoch = w.epoch.toNat ∧
        r.addr / 2 ^ 52 = (if w.master = 56 then w.node.toNat else m.node))
    (there → locked = false →
      (∀ x ∈ writes, Does (.gateEntPendingWrite w gate e x.1 v) s fun t => t.regs = m.regs ∧ Tbl.get none t.gatePend i = some x.2 ∧
        ∀ j, j ≠ i → Tbl.get none t.gatePend j = Tbl.get none m.gatePend j) ∧
      (clash = false → Does (.gateEntApply w gate e ctrl) s fun t => t.reg .GATE_ENT_BASE i = p.base % 2 ^ 64 ∧ t.reg .GATE_ENT_TOP i = p.top % 2 ^ 64 ∧
        t.reg .GATE_ENT_MASTERS i = p.masters % 2 ^ 64 ∧ t.flag F.GATE_ENT_CTRL_EN i = bitAt ctrl.toNat 0 ∧
        t.entRights gate e = bitsOf ctrl.toNat 1 4 ∧ t.rd F.GATE_ENT_CTRL_CLASS i = cls ∧
        t.flag F.GATE_ENT_CTRL_LOCK i = (bitAt ctrl.toNat 0 && cls != 0) ∧ Tbl.get none t.gatePend i = none ∧
        (gate.val ≤ 4 → ∀ c, c < 32 → (t.core c).l1d = [] ∧ (t.core c).l1i = []) ∧
        OnlyRegs [(.GATE_ENT_BASE, i), (.GATE_ENT_TOP, i), (.GATE_ENT_MASTERS, i), (.GATE_ENT_CTRL, i)] m t ∧ t.mem = m.mem) ∧
      (clash = true → Does (.gateEntApply w gate e ctrl) s (reported 0x0F F.GATE_G_STATUS_OVERLAP))) ∧
    (there → locked = true → (∀ x ∈ writes, Does (.gateEntPendingWrite w gate e x.1 v) s (reported 0x10 F.GATE_G_STATUS_LOCKED_WR)) ∧
      Does (.gateEntApply w gate e ctrl) s (reported 0x10 F.GATE_G_STATUS_LOCKED_WR)) ∧
    (there → next ≠ m.rd F.GATE_ENT_EPOCH_SWEPT i → m.sweepOver gate e = false → Does (.epochAdvance w gate e) s fun t =>
      t.rd F.GATE_ENT_EPOCH_EPOCH i = next ∧ OnlyRegs [(.GATE_ENT_EPOCH, i)] m t) ∧
    (there → next = m.rd F.GATE_ENT_EPOCH_SWEPT i ∨ m.sweepOver gate e = true → Does (.epochAdvance w gate e) s fun t =>
      t = m.put F.GATE_ENT_EPOCH_ADV_REFUSED i true) ∧
    (¬ there → (∀ x ∈ writes, Does (.gateEntPendingWrite w gate e x.1 v) s fun t => t = m) ∧ Does (.gateEntApply w gate e ctrl) s (fun t => t = m) ∧
      Does (.epochAdvance w gate e) s fun t => t = m) ∧
    (Does (.gateVqPop w) s fun t => t = { m with vq := m.vq.drop 1 }) ∧ (Does (.fltQPop w) s fun t => t = { m with fq := m.fq.drop 1 })

/-- A register write that gate 13 refuses leaves what the refusal leaves. An admitted write of CS_DATA sets it and nothing else; an admitted
COUNTER_CLEAR of MEM_PATROL_PASSES zeroes it, and one of a register that is no counter does nothing; an admitted write of the ST field
SC_RGN_WAYPD stages it where direct values may be staged and leaves the value in effect, else it sets ST_REFUSED and stages nothing. EVR_SW
of bit j raises source 252 + j to its routed cores and the Sheepdog, and is counted as unrouted where it goes nowhere.
Of any other register without command bits an admitted write leaves every RO field as it was, sets an RW field to the value written, clears
a W1C field's bits that are written 1, and stages an ST field, its value in effect unchanged, or sets ST_REFUSED where staging is not allowed; a field
offered a reserved encoding keeps its value and the write is reported. The PRIV_DEFAULT, EV_EN and LOCK of a gate take the value written, the lock with
them, until LOCK is set, and nothing after. Bits that are reserved or write-only read 0. -/
def Obligations.RegisterWritesPassTheGate : Prop :=
  ∀ (s : State) (a : RegWrite) (w : Writer) (m1 : Mod) (k : Nat) (g : RegionId) (n : Fin 8) (j : Fin 4) (r : Reg) (i b : Nat),
    let m := s.mod
    let off := a.off.toNat
    let size := if a.wide then 8 else 4
    let acc := m.passGate ⟨a.by_.master.toNat, a.by_.sys, a.epoch.toNat, a.by_.node.toNat, regBase + off, size, .store⟩
    let one := a.wide = false ∨ wideReg off = true
    let stages := m.mayStage a.by_.master.toNat
    let inside := fun (f : Field) => decide (8 * b ≤ f.lo) && decide (f.lo + f.width ≤ 8 * b + 8 * size)
    let given := fun (f : Field) => bitsOf a.value.toNat (f.lo - 8 * b) f.width
    let bad := r.fields.any (fun f => inside f && (f.ty == .rw || (f.ty == .st && stages)) && f.reserved r i (given f))
    let whole := [Reg.GATE_ENT_BASE, .GATE_ENT_TOP, .GATE_ENT_MASTERS, .GATE_ENT_CTRL, .GATE_G_CTRL, .SPL_RGN_LRX_CONS, .SPL_RGN_LTX_PROD, .SPL_RGN_HRX_CONS,
      .SPL_RGN_HTX_PROD, .MX_PROD, .MBX_FW_IN_CONS, .MBX_FW_OUT_PROD, .TB_FREQ, .EVD_PEND, .PORT_STATUS, .PWR_INPUT]
    let src := 252 + j.val
    let cores := setBits 32 (m.rd F.EVR_ROUTE_LO_CORES src)
    (acc = (m1, some k) →
      (Does (.registerWrite a) s fun t => t = m1) ∧
      (∀ x, regAt off = some x → x.1.isCounter = true → Does (.counterClear a) s fun t => t = m1) ∧
      (∀ x, regAt off = some x → x.1.stMask ≠ 0 → Does (.stFieldWrite a) s fun t => t = m1)) ∧
    (acc = (m, none) → a.wide = false →
      (off = 0x30C020 + 0x100 * g.val + 4 * n.val → Does (.registerWrite a) s fun t =>
        t.rd F.CS_DATA_DATA (8 * g.val + n.val) = a.value.toNat % 2 ^ 32 ∧ OnlyRegs [(.CS_DATA, 8 * g.val + n.val)] m t) ∧
      (off = 0x400020 → Does (.counterClear a) s fun t => t = m.setReg .MEM_PATROL_PASSES 0 0) ∧
      (off = 0x301008 + 0x1000 * g.val →
        (m.mayStage a.by_.master.toNat = true → Does (.stFieldWrite a) s fun t => t.staged' F.SC_RGN_WAYPD_MASK g = a.value.toNat % 2 ^ 16 ∧
          OnlyRegs [] m t) ∧
        (m.mayStage a.by_.master.toNat = false → Does (.stFieldWrite a) s fun t => t.flag F.CFG_STATUS_ST_REFUSED = true ∧ t.staged = m.staged ∧
          OnlyRegs [(.CFG_STATUS, 0)] m t))) ∧
    (acc = (m, none) → regAt off = some (r, i, b) → m.regOff off = false → one → r.isCounter = false → r ∉ whole →
      (r = .MX_RING_BASE ∨ r = .MX_RING_SIZE → m.flag F.MX_CTRL_ENABLE i = false) →
      (∀ f ∈ r.fields, f.ty ≠ .wo ∧ (inside f = true ∨ f.lo + f.width ≤ 8 * b ∨ 8 * b + 8 * size ≤ f.lo)) →
      Does (.registerWrite a) s fun t => ∃ u, t = (if bad then u.reservedWrite off a.by_.master.toNat else u) ∧
        OnlyRegs [(r, i), (.CFG_STATUS, 0)] m u ∧ u.mem = m.mem ∧ u.cores = m.cores ∧
        ∀ f ∈ r.fields,
          let old := bitsOf (m.reg r i) f.lo f.width
          let now := bitsOf (u.reg r i) f.lo f.width
          (inside f = false ∨ f.ty = .ro ∨ f.ty = .st → now = old) ∧
          (inside f = true →
            (f.ty = .rw → now = if f.reserved r i (given f) then old else given f) ∧
            (f.ty = .w1c → now = old &&& (2 ^ f.width - 1 - given f)) ∧
            (f.ty = .st → stages = true → bitsOf (u.stagedReg r i) f.lo f.width =
              if f.reserved r i (given f) then bitsOf (m.stagedReg r i) f.lo f.width else given f) ∧
            (f.ty = .st → stages = false → u.staged = m.staged ∧ u.flag F.CFG_STATUS_ST_REFUSED = true))) ∧
    (acc = (m, none) → regAt off = some (.GATE_G_CTRL, i, 0) → m.regOff off = false → a.wide = false → gateEntries i ≠ 0 →
      (m.flag F.GATE_G_CTRL_LOCK i = true → Does (.registerWrite a) s fun t => t = m) ∧
      (m.flag F.GATE_G_CTRL_LOCK i = false → Does (.registerWrite a) s fun t => t.flag F.GATE_G_CTRL_PRIV_DEFAULT i = bitAt a.value.toNat 0 ∧
        t.flag F.GATE_G_CTRL_EV_EN i = bitAt a.value.toNat 1 ∧ t.flag F.GATE_G_CTRL_LOCK i = bitAt a.value.toNat 31 ∧ OnlyRegs [(.GATE_G_CTRL, i)] m t)) ∧
    (regAt off = some (r, i, b) → one → r ≠ .CFG_SVIEW_DATA → ∀ x, 8 * b ≤ x → x < 8 * b + 8 * size →
      (∀ f ∈ r.fields, f.ty ≠ .wo → x < f.lo ∨ f.lo + f.width ≤ x) → bitAt (m.regLoad 0 off size).2 (x - 8 * b) = false) ∧
    (regAt off = some (r, i, b) → r.isCounter = false → Does (.counterClear a) s fun t => t = m) ∧
    (regAt off = some (r, i, b) → r.stMask = 0 → Does (.stFieldWrite a) s fun t => t = m) ∧
    (m.flag F.EVR_ROUTE_HI_GOOSE src = false → Does (.evrSw w (1#4 <<< j.val)) s fun t =>
      t.inFlight = m.inFlight ++ cores.map (fun c => (c, src)) ∧ OnlyRegs [(.EVR_UNROUTED, 0)] m t ∧ t.mem = m.mem ∧ t.cores = m.cores ∧
      (m.flag F.EVR_ROUTE_HI_SD src = true → t.sdEvents = m.sdEvents ++ [src] ∧ t.regs = m.regs) ∧
      (m.flag F.EVR_ROUTE_HI_SD src = false → cores = [] → t.sdEvents = m.sdEvents ∧
        t.rd F.EVR_UNROUTED_COUNT = satAdd32 (m.rd F.EVR_UNROUTED_COUNT) 1)) ∧
    (Does (.evrSw w 0) s fun t => t = m)

/-- The registers of an engine that is off ignore writes. MX_PROD of a powered one moves only where the ring lets it, and elsewhere sets RING_ERR of the region. MX_ENABLE and MX_RESUME change their one bit; MX_ABORT
ends a running job with ABORTED, after the tile it is at; a job that its descriptor's read has ended keeps that ending.
MATRIX_JOB_START of an enabled, powered, idle engine that is not stopped and has a posted descriptor reads it with its tags, from the slot
of its consumer index, and is busy; otherwise it does nothing. MATRIX_JOB_DONE of a running job, once its operands are worked, frees the
engine, advances the consumer index, counts the job, shows its code, and stops the ring for a code that is not OK. -/
def Obligations.MatrixEnginesRunTheirRings : Prop :=
  ∀ (s : State) (w : Writer) (g : RegionId) (index : BitVec 16) (en : Bool) (j : MxJob) (m1 : Mod) (d : List Byte) (tags : List Bool)
      (c sub : Nat) (ad : Option Nat),
    let m := s.mod
    let slots := m.rd F.MX_RING_SIZE_SLOTS g
    let cons := m.rd F.MX_CONS_INDEX g
    let slot := cons % slots
    let at_ := 128 * m.rd F.MX_RING_BASE_BASE g + 128 * slot
    let may := m.flag F.MX_CTRL_ENABLE g && !m.flag F.MX_STATUS_STOPPED g && (m.mxJob g).isNone && m.domOn (44 + g) && !m.rgnDown g &&
      slots != 0 && m.rd F.MX_PROD_INDEX g != cons
    let worked := m.mxWorked g j
    let moves := prodMoves (m.rd F.MX_PROD_INDEX g) cons index.toNat slots
    (m.domOn (44 + g) = false → ∀ i ∈ [Instr.mxProdWrite w g index, .mxEnable w g en, .mxResume w g, .mxAbort w g], Does i s fun t => t = m) ∧
    (m.domOn (44 + g) = true → moves = true → Does (.mxProdWrite w g index) s fun t => t.rd F.MX_PROD_INDEX g = index.toNat ∧ OnlyRegsChange [(.MX_PROD, g)] m t) ∧
    (m.domOn (44 + g) = true → moves = false → Does (.mxProdWrite w g index) s fun t => t.flag F.SPL_RGN_STATUS_RING_ERR g = true ∧ OnlyRegsChange [(.SPL_RGN_STATUS, g)] m t) ∧
    (m.domOn (44 + g) = true → Does (.mxEnable w g en) s fun t => t.flag F.MX_CTRL_ENABLE g = en ∧ OnlyRegsChange [(.MX_CTRL, g)] m t) ∧
    (m.domOn (44 + g) = true → Does (.mxResume w g) s fun t => t.flag F.MX_STATUS_STOPPED g = false ∧ t.flag F.MX_STATUS_BUSY g = m.flag F.MX_STATUS_BUSY g ∧
      OnlyRegsChange [(.MX_STATUS, g)] m t) ∧
    (m.mxJob g = none → Does (.mxAbort w g) s (fun t => t = m) ∧ Does (.matrixJobDone g) s fun t => t = m) ∧
    (m.mxJob g = some j → m.domOn (44 + g) = true → Does (.mxAbort w g) s fun t => t.regs = m.regs ∧ (j.code ≠ esOK → t = m) ∧
      (j.code = esOK → ∃ k, t.mxJob g = some { j with code := esABORTED, sub := 0, cycles := none, tiles := some k })) ∧
    (may = false → Does (.matrixJobStart g) s fun t => t = m) ∧
    (may = true →
      ((m.put F.MX_STATUS_BUSY g true).engineDesc (mxMaster g) at_ 128 = (m1, .ok (d, tags)) → Does (.matrixJobStart g) s fun t =>
        t = m1.setMxJob g (some ⟨slot, at_, d, tags, esOK, 0, 0, none, none, none⟩) ∧ t.flag F.MX_STATUS_BUSY g = true ∧ t.regs = (m.put F.MX_STATUS_BUSY g true).regs) ∧
      ((m.put F.MX_STATUS_BUSY g true).engineDesc (mxMaster g) at_ 128 = (m1, .error (c, sub, ad)) → Does (.matrixJobStart g) s fun t =>
        t = m1.setMxJob g (some ⟨slot, at_, [], [], c, sub, 0, ad.map m1.globalAddr, none, none⟩))) ∧
    (m.mxJob g = some j → Does (.matrixJobDone g) s fun t => t.mxJob g = none ∧ t.flag F.MX_STATUS_BUSY g = false ∧
      t.rd F.MX_CONS_INDEX g = (worked.1.rd F.MX_CONS_INDEX g + 1) % 65536 ∧ t.rd F.MX_JOBS_COUNT g = satAdd32 (worked.1.rd F.MX_JOBS_COUNT g) 1 ∧
      t.rd F.MX_STATUS_LAST g = worked.2.code % 256 ∧ t.flag F.MX_STATUS_STOPPED g = (worked.2.code != esOK || worked.1.flag F.MX_STATUS_STOPPED g) ∧
      (∀ n, worked.2.cycles = some (n, true) → n < 2 ^ 32 → t.rd F.MX_CYCLES_CYCLES g = n) ∧
      (∀ a, worked.2.fail = some a → t.rd F.MX_FAIL_ADDR g = a % 2 ^ 64))

/-- XFR_START of a busy channel is lost with CMDLOST; otherwise the channel is busy with the descriptor of HEAD, as its read and its keys stand.
XFR_ABORT marks a running descriptor, which ends with ABORTED at once where nothing is in flight. TRANSFER_CHUNK_DONE of a channel with nothing
in flight copies the next local chunk, as its gates admit it, and counts its bytes, or ends with ACCESS and the refused part's address; after an acknowledged write it counts them, and a key cleared meanwhile ends it with KEY, after a failed
request the descriptor ends with its code and address; awaiting a response, or with the descriptor ended, it does nothing. DESCRIPTOR_DONE
writes the status and the bytes to the descriptor, shows the code, and goes on at NEXT where there is one and the code is OK, else the
channel is idle with DONE or ERR. That an acknowledged write is counted before a key cleared meanwhile ends the descriptor is the model's choice
(log entry 52). -/
def Obligations.TransferChannelsCopyInChunks : Prop :=
  ∀ (s : State) (w : Writer) (n : ChanId) (r : XfrRun) (m1 m2 : Mod) (d : List Byte) (tags : List Bool) (e : Nat × Nat × Option Nat) (c : Chunk)
      (tid kind x code sub : Nat) (ad : Option Nat) (data : List Byte) (g off : Nat),
    let m := s.mod
    let head := m.rd F.XFR_CH_HEAD_ADDR n
    let m0 := ((m.put F.XFR_CH_STATUS_BUSY n true).wr F.XFR_CH_CUR_ADDR n head).wr F.XFR_CH_DONE_BYTES n 0
    let len := descField r.desc 0x20 8
    let ks := m.descKey r.desc r.tags 0
    let kd := m.descKey r.desc r.tags 16
    let src := c.src % 2 ^ 52
    let dst := c.dst % 2 ^ 52
    let next := descField r.desc 0x28 8
    let goes := code == esOK && next != 0
    (m.phase.full = false → Does (.xfrStart w n) s fun t => t = m) ∧
    (m.phase.full = true → m.flag F.XFR_CH_STATUS_BUSY n = true → Does (.xfrStart w n) s fun t => t = m.put F.XFR_CH_STATUS_CMDLOST n true) ∧
    (m.phase.full = true → m.flag F.XFR_CH_STATUS_BUSY n = false →
      (m0.engineDesc (xfrMaster n) (64 * head) 64 = (m1, .ok (d, tags)) → Does (.xfrStart w n) s fun t =>
        t = m1.setXfr n (some ⟨64 * head, d, tags, 0, none, none, false, false, none, m1.xfrCheck d tags⟩) ∧ t.flag F.XFR_CH_STATUS_BUSY n = true ∧
        t.rd F.XFR_CH_CUR_ADDR n = head ∧ t.rd F.XFR_CH_DONE_BYTES n = 0) ∧
      (m0.engineDesc (xfrMaster n) (64 * head) 64 = (m1, .error e) → Does (.xfrStart w n) s fun t =>
        t = m1.setXfr n (some ⟨64 * head, [], [], 0, none, none, false, false, none, some (e.1, e.2.1, e.2.2.map m1.globalAddr)⟩))) ∧
    (m.xfrRun n = none → Does (.xfrAbort w n) s (fun t => t = m) ∧ Does (.transferChunkDone n) s (fun t => t = m) ∧
      Does (.descriptorDone n) s fun t => t = m) ∧
    (m.xfrRun n = some r →
      (Does (.xfrAbort w n) s fun t => t.regs = m.regs ∧ ∃ r', t.xfrRun n = some r' ∧ r'.aborting = true ∧ r'.done = r.done ∧
        (r.fin = none → r.tid = none → r'.fin = some (esABORTED, 0, none)) ∧ (r.fin ≠ none ∨ r.tid ≠ none → r'.fin = r.fin)) ∧
      (r.fin = some e → Does (.transferChunkDone n) s fun t => t = m) ∧
      (r.fin = none → m.xfrChunk r = some c →
        (r.tid = some tid → r.resp = none → Does (.transferChunkDone n) s fun t => t = m) ∧
        (r.tid = some tid → r.resp = some (.failed x kind) → Does (.transferChunkDone n) s fun t => t.regs = m.regs ∧ ∃ r', t.xfrRun n = some r' ∧
          r'.fin = some (if kind ≥ 0x20 then esMESH else esACCESS, kind, some (if r.writing then c.dst else c.src)) ∧ r'.done = r.done) ∧
        (r.tid = some tid → r.resp = some .acked → Does (.transferChunkDone n) s fun t => t.rd F.XFR_CH_DONE_BYTES n = (r.done + c.n) % 2 ^ 64 ∧
          ∃ r', t.xfrRun n = some r' ∧ r'.done = r.done + c.n ∧ r'.tid = none ∧ (ks.live = true → kd.live = true → r.done + c.n ≥ len → r'.fin = some (esOK, 0, none)) ∧
            (ks.live = true → kd.live = true → r.done + c.n < len → r.aborting = false → r'.fin = none) ∧
            (ks.live = false ∨ kd.live = false → r'.fin = some (esKEY, kfTAG, none))) ∧
        (r.tid = some tid → r.resp = some (.data data x false) → ks.live = false ∨ kd.live = false → Does (.transferChunkDone n) s fun t =>
          t.mem = m.mem ∧ ∃ r', t.xfrRun n = some r' ∧ r'.fin = some (esKEY, kfTAG, none) ∧ r'.done = r.done) ∧
        (r.tid = none → r.aborting = false → ks.live = true → kd.live = true → m.isLocal c.src = true → m.isLocal c.dst = true →
          m.chunkRead ⟨xfrMaster n, false, ks.epoch, 0, src, c.n, .load⟩ = (m1, .ok (data, false)) →
          m1.chunkGate ⟨xfrMaster n, false, kd.epoch, 0, dst, c.n, .store⟩ = (m2, none) → m1.node = m.node → m1.sweep = m.sweep →
          Does (.transferChunkDone n) s fun t => (∃ keep, t.mem = (m2.storeAs (xfrMaster n) dst data keep).mem) ∧
            ∃ r', t.xfrRun n = some r' ∧ r'.done = r.done + c.n) ∧
        (r.tid = none → r.aborting = false → ks.live = true → kd.live = true → m.isLocal c.src = true →
          m.chunkRead ⟨xfrMaster n, false, ks.epoch, 0, src, c.n, .load⟩ = (m1, .error (kind, x)) →
          Does (.transferChunkDone n) s fun t => t.mem = m.mem ∧
            ∃ r', t.xfrRun n = some r' ∧ r'.fin = some (esACCESS, kind, some (m1.globalAddr x)) ∧ r'.done = r.done)) ∧
      (r.fin = none → m.xfrChunk r = none → Does (.transferChunkDone n) s fun t => t.regs = m.regs ∧
        ∃ r', t.xfrRun n = some r' ∧ r'.fin = some (esOK, 0, none)) ∧
      (r.fin = none → Does (.descriptorDone n) s fun t => t = m) ∧
      (r.fin = some (code, sub, ad) → Does (.descriptorDone n) s fun t =>
        t.rd F.XFR_CH_STATUS_CODE n = code % 256 ∧ t.rd F.XFR_CH_STATUS_SUB n = sub % 256 ∧
        (goes = false → t.xfrRun n = none ∧ t.flag F.XFR_CH_STATUS_BUSY n = false ∧ t.rd F.XFR_CH_DONE_BYTES n = r.done % 2 ^ 64 ∧
          (code = esOK → t.flag F.XFR_CH_STATUS_DONE n = true) ∧ (code ≠ esOK → t.flag F.XFR_CH_STATUS_ERR n = true) ∧
          (descPlace r.addr 64 = true → targetOf (r.addr + 0x36) = .scratch g off →
            m.passGate ⟨xfrMaster n, false, 0, 0, r.addr + 0x36, 10, .store⟩ = (m, none) →
            t.num (r.addr + 0x36) 2 = (code + 256 * sub) % 2 ^ 16 ∧ t.num (r.addr + 0x38) 8 = r.done % 2 ^ 64)) ∧
        (goes = true → ∃ r', t.xfrRun n = some r' ∧ r'.addr = next ∧ r'.aborting = r.aborting)))

/-- A host read or write of a link that is not served does nothing, and with memory space enable 0 a read ends with Unsupported Request and a
write is dropped (the model's reading of PCI Express, log entry 86). A BAR0 read of an aligned word completes with it, another with Unsupported
Request; BAR2 reads and writes reach the mailbox memory as gate 14 admits them, and a refused one ends with Completer Abort and ABORT, or is
lost with WR_LOST; so does an access of BAR4 where no window is mapped. A write through a window reaches its place. DOORBELL and
COMPLETION_CONSUME move their index where the ring lets it, else set RING_ERR. HOST_RESET closes the pairs' sessions and resets their rings. A
CONFIGURATION_REQUEST is answered with Retry before t6, then with the register it reads, or writes it; a function level reset written there is a
host reset.
LEASE_EXPIRY frees the lock at the lease's end; COALESCING_WINDOW_END sends the held message. A Sheepdog restart closes every session and boots
the trial slot if there is one; SHEEPDOG_READY returns to service; TRIAL_TIMEOUT reverts the running slot; ROOK_VERIFICATION_DONE makes the
idle slot TRIAL or refuses the image. -/
def Obligations.HostReachesTheModuleThroughItsBars : Prop :=
  ∀ (s : State) (bar : Bar) (off : BitVec 32) (n : Fin 65) (d : List Byte) (q : PairId) (index : BitVec 16) (kind : HostResetKind) (w : Writer) (win : Win)
      (m1 : Mod) (k t0 : Nat) (x : Nat × Nat × Bool) (tag : BitVec 16) (v : Verdict) (c : LongCmd) (u : Upload)
      (acc : ConfigAcc) (reg : BitVec 10) (val : BitVec 32) (en : BitVec 4),
    let m := s.mod
    let o := off.toNat
    let a2 := mailboxBase + o
    let ea := win.base + o % 2 ^ 28
    let state := m.rd F.MBX_STATE_STATE
    let rd2 := m.passGate (hostAcc 0 a2 n .load)
    let wr2 := m.passGate (hostAcc 0 a2 d.length .store)
    let cons := consMoves (m.rd F.MBX_Q_CPL_PROD_INDEX q) (m.rd F.MBX_Q_CPL_CONS_INDEX q) index.toNat
    let prod := prodMoves (m.rd F.MBX_Q_CMD_PROD_INDEX q) (m.rd F.MBX_Q_CMD_CONS_INDEX q) index.toNat 256
    let out := prodMoves (m.rd F.MBX_FW_OUT_PROD_INDEX q) (m.rd F.MBX_FW_OUT_CONS_INDEX q) index.toNat 16
    let aborted := fun (t : Mod) => t.flag F.MBX_HOST_ERR_ABORT = true ∧ t.sent.head? = some (.hostRead [] .abort)
    let lost := fun (t : Mod) => t.flag F.MBX_HOST_ERR_WR_LOST = true ∧ t.mem = m.mem
    let restarted := fun (t : Mod) => t.rd F.MBX_STATE_STATE = 5 ∧ (∀ p, p < 5 → (t.session p).isOpen = false) ∧ t.long = []
    (m.hostServed = false → Does (.hostRead bar off n) s (fun t => t = m) ∧ Does (.hostWrite bar off d) s fun t => t = m) ∧
    (m.hostServed = true → m.memOn = false → (n.val ≠ 0 → Does (.hostRead bar off n) s fun t => t = m.hostUnsupported) ∧
      (d.length ≠ 0 → d.length ≤ 64 → Does (.hostWrite bar off d) s fun t => t.mem = m.mem ∧ t.regs = m.regs)) ∧
    (m.hostServed = true → m.memOn = true → n.val ≠ 0 →
      (bar0Ok o n = true → Does (.hostRead .bar0 off n) s fun t => t =
        m.emit (.hostRead (leBytes 4 (m.bar0Word o) ++ (if n.val = 8 then leBytes 4 (m.bar0Word (o + 4)) else [])) .ok)) ∧
      (bar0Ok o n = false → Does (.hostRead .bar0 off n) s fun t => t = m.hostUnsupported ∧ t.sent.head? = some (.hostRead [] .unsupported)) ∧
      (o + n.val ≤ 0x100000 → rd2 = (m, none) → Does (.hostRead .bar2 off n) s fun t => t = m.emit (.hostRead (m.bytes a2 n) .ok)) ∧
      (o + n.val ≤ 0x100000 → rd2 = (m1, some k) → Does (.hostRead .bar2 off n) s aborted) ∧
      (m.windowAt o n = none → Does (.hostRead .bar4 off n) s fun t => aborted t ∧ t.mem = m.mem)) ∧
    (m.hostServed = true → m.memOn = true → d.length ≠ 0 → d.length ≤ 64 →
      (bar0Ok o d.length = false → Does (.hostWrite .bar0 off d) s fun t => lost t ∧ bitAt (t.pciReg 65) 20 = true) ∧
      (o + d.length ≤ 0x100000 → wr2 = (m, none) → Does (.hostWrite .bar2 off d) s fun t => t = m.setBytes a2 d) ∧
      (o + d.length ≤ 0x100000 → wr2 = (m1, some k) → Does (.hostWrite .bar2 off d) s lost) ∧
      (m.windowAt o d.length = none → Does (.hostWrite .bar4 off d) s lost) ∧
      (m.windowAt o d.length = some win → win.wr = false → Does (.hostWrite .bar4 off d) s lost) ∧
      (m.windowAt o d.length = some win → win.wr = true → m.isLocal ea = true → ea % 64 + d.length ≤ 64 →
        m.passGate (hostAcc (win.epochAt (ea % 2 ^ 52)) (ea % 2 ^ 52) d.length .store) = (m1, none) →
        Does (.hostWrite .bar4 off d) s fun t => t = m1.storeAs 54 (ea % 2 ^ 52) d [])) ∧
    (q.val < 4 →
      (state ≠ 5 → prod = true → Does (.doorbell q index) s fun t => t.rd F.MBX_Q_CMD_PROD_INDEX q = index.toNat ∧
        OnlyRegs [(.MBX_Q_CMD_PROD, q), (.EVR_UNROUTED, 0)] m t ∧ t.mem = m.mem) ∧
      (state ≠ 5 → prod = false → Does (.doorbell q index) s fun t => t = m.put F.MBX_Q_STATUS_RING_ERR q true) ∧
      (state = 5 → Does (.doorbell q index) s fun t => t = m) ∧
      (cons = true → Does (.completionConsume q index) s fun t => t = m.wr F.MBX_Q_CPL_CONS_INDEX q index.toNat) ∧
      (cons = false → Does (.completionConsume q index) s fun t => t = m.put F.MBX_Q_STATUS_RING_ERR q true) ∧
      (out = true → Does (.fwOutboxPost w q index) s fun t => t.rd F.MBX_FW_OUT_PROD_INDEX q = index.toNat ∧ OnlyRegs [(.MBX_FW_OUT_PROD, q)] m t) ∧
      (out = false → Does (.fwOutboxPost w q index) s fun t => t = m)) ∧
    (Does (.hostReset kind) s fun t => t.host = { pci := if kind = .d3hot then [(17, 3)] else [] } ∧ (∀ y ∈ t.long, 4 ≤ y.q) ∧ ∀ p, p < 4 → (t.session p).isOpen = false ∧
      t.reg .MBX_Q_CMD_PROD p = Reg.resetVal .MBX_Q_CMD_PROD p ∧ t.reg .MBX_Q_CMD_CONS p = Reg.resetVal .MBX_Q_CMD_CONS p ∧
      t.reg .MBX_Q_CPL_PROD p = Reg.resetVal .MBX_Q_CPL_PROD p ∧ t.reg .MBX_Q_CPL_CONS p = Reg.resetVal .MBX_Q_CPL_CONS p ∧
      t.reg .MBX_Q_STATUS p = Reg.resetVal .MBX_Q_STATUS p) ∧
    (m.phase.sheepdogUp = true →
      (Does .hostLinkReturn s fun t => t = { m with host := { m.host with up := true } }) ∧
      (m.rd F.ROOK_STATUS_BOOT < 4 → Does (.configurationRequest ⟨tag, acc⟩) s fun t => t = m.emit (.config tag.toNat true 0)) ∧
      (4 ≤ m.rd F.ROOK_STATUS_BOOT →
        (Does (.configurationRequest ⟨tag, .read reg⟩) s fun t => t = m.emit (.config tag.toNat false (m.pciReg reg.toNat))) ∧
        (Does (.configurationRequest ⟨tag, .write reg val en⟩) s fun t => reg.toNat ≠ 17 → reg.toNat ≠ 20 → reg.toNat ≠ 30 →
          t = (m.emit (.config tag.toNat false 0)).setPci reg.toNat (m.pciTake reg.toNat val.toNat (enabledBits en))) ∧
        (Does (.configurationRequest ⟨tag, .write 30#10 val en⟩) s fun t => val.getLsbD 15 = true → en.getLsbD 1 = true →
          t.host = {} ∧ ∀ p, p < 4 → (t.session p).isOpen = false) ∧
        m.pciReg 0 = 0x10241EB7 ∧ m.pciReg 2 = 0x11800001) ∧
      (state ≠ 5 → Does .sheepdogRestart s fun t => restarted t ∧ t.runB = (if m.fwIdle.st = .trial then !m.runB else m.runB))) ∧
    (m.phase.sheepdogUp = false → Does .hostLinkReturn s (fun t => t = m) ∧ Does (.configurationRequest ⟨tag, acc⟩) s (fun t => t = m) ∧
      Does .sheepdogRestart s fun t => t = m) ∧
    (m.lock.leaseEnd = some t0 → Does .leaseExpiry s fun t => t.lock = {} ∧ t.mono = Nat.max m.mono t0 ∧ (m.lock.holder ≠ 0 → t.rd F.MBX_LOCK_HOLDER = 0)) ∧
    (m.lock.leaseEnd = none → Does .leaseExpiry s fun t => t = m) ∧
    (m.host.windows.find? (·.1 == q.val) = some x → Does (.coalescingWindowEnd q) s fun t => t.mono = Nat.max m.mono x.2.1 ∧
      t.host.windows = m.host.windows.erase x ∧ t.regs = m.regs ∧ (x.2.2 = false → t.sent = m.sent) ∧
      (x.2.2 = true → m.host.up = true → m.msixOn = true → bitAt (m.msixWord (4 * q.val + 3)) 0 = false → t.sent = .msix q :: m.sent)) ∧
    (m.host.windows.find? (·.1 == q.val) = none → Does (.coalescingWindowEnd q) s fun t => t = m) ∧
    (state = 5 → Does .sheepdogReady s fun t => t.rd F.MBX_STATE_STATE = m.serviceState ∧ t.bytes mailboxBase 4 = [2, 0, 1, 0] ∧ t.goose.restarted = false) ∧
    (state ≠ 5 → Does .sheepdogReady s fun t => t = m) ∧
    ((m.trialWait && m.fwRuns.st == .trial) = true → Does .trialTimeout s fun t => restarted t ∧ t.runB = !m.runB ∧
      (if m.runB then t.fwB else t.fwA).st = .reverted) ∧
    ((m.trialWait && m.fwRuns.st == .trial) = false → Does .trialTimeout s fun t => t = m) ∧
    (m.fwUp = none → Does (.rookVerificationDone v) s fun t => t = m) ∧
    (m.long.find? (·.opcode == 0x0803) = some c → m.fwUp = some u → m.twin.loss = none →
      (m.rookReason F.ROOK_SVN_SHEEPDOG v true ≠ 0 → Does (.rookVerificationDone v) s fun t => t.fwA = m.fwA ∧ t.fwB = m.fwB ∧
        t.flag F.ROOK_ALERT_VERIFY_FAIL = true ∧ t.long = m.long.erase c) ∧
      (m.rookReason F.ROOK_SVN_SHEEPDOG v true = 0 → Does (.rookVerificationDone v) s fun t => t.fwIdle.st = .trial ∧ t.fwIdle.svn = v.version.toNat ∧
        t.fwIdle.digest = v.digest.toNat ∧ t.fwRuns = m.fwRuns ∧ t.long = m.long.erase c ∧
        t.rd F.ROOK_SVN_SHEEPDOG = Nat.max (m.rd F.ROOK_SVN_SHEEPDOG) (Nat.min 63 v.version.toNat)))

/-- A mailbox command does nothing while the Sheepdog may not begin, the pair has no command, or its first is another known one. One that R364's
checks bar completes with the first that fails, in its completion slot. Otherwise: SESSION_OPEN of major 1 or 2 opens a session with the next
generation, SESSION_CLOSE ends it; NOP echoes, INFO gives the page; LOCK_ACQUIRE gives a free lock with a token that is not 0, LOCK_RELEASE frees
it, LOCK_STATUS shows it; IMG_BEGIN opens the one upload, IMG_WRITE adds bytes, IMG_STAGE is refused for a slot in use and else stages,
IMG_COMMIT needs a staged move, IMG_DISCARD and TAKEBACK discard it, HISTORY gives the scoresheet; SIG_OPEN and OUT_OPEN give handles where the
gates admit their places, SIG_READ reads, OUT_WRITE writes entries, SIG_CLOSE gives the handle up. The model's choices in this: IMG_COMMIT with
nothing staged answers STATE (log entry 27), direct values go when a staging is refused with 0x0C (log entry 26), and the order in which the
refusals are tried (log entry 54). -/
def Obligations.MailboxCommandsOfSessionsImagesAndSignals : Prop :=
  ∀ (s : State) (q : PairId) (v : Verdict) (op : Nat) (i : Instr) (c : Cmd) (a : Answer) (u : Upload) (m2 m3 : Mod) (im : List Byte) (st d slot : Nat)
      (g : Gather) (data : List Byte) (es : List Nat) (l : List (Nat × Nat × Nat × Nat)) (o : List (Nat × Nat)) (e : Option Answer) (h k : Nat) (acc : Acc),
    let m := s.mod
    let m1 := m.takeFront q
    let runs := fun (n : Nat) => CmdRuns m q n c
    let may := m.mayBegin q && m.turn q && !(m.twin.loss.isSome && flashOps.contains op)
    let ends := fun (m' : Mod) (x : Answer) (t : Mod) => t = m'.complete c.lc x
    let ids := (upTo (c.payload.length / 4)).filterMap (fun j => sigPlace (m1.runsV1 c) (c.pay (4 * j) 4))
    let ports := (upTo (c.payload.length / 2)).map (fun j => c.pay (2 * j) 2)
    let other := m1.lock.holder ≠ 0 ∧ m1.lock.holder ≠ q.val + 1
    (MailboxRow q v op i →
      (may = false ∨ m.front q = none → Does i s fun t => t = m) ∧
      (may = true → m.front q = some c → c.lc.opcode ≠ op → cmdSpec c.lc.opcode ≠ none → Does i s fun t => t = m) ∧
      (may = true → m.front q = some c → c.lc.opcode = op ∨ cmdSpec c.lc.opcode = none → m1.barred c (moreFaults op m1 c) = some a →
        Does i s fun t => ends m1 a t ∧ (q.val < 4 → a.status ≠ stOK →
          t.rd F.MBX_Q_CMD_CONS_INDEX q = (m.rd F.MBX_Q_CMD_CONS_INDEX q + 1) % 65536 ∧
          t.rd F.MBX_Q_CPL_PROD_INDEX q = (m.rd F.MBX_Q_CPL_PROD_INDEX q + 1) % 65536 ∧
          t.num (cplSlot q (m.rd F.MBX_Q_CPL_PROD_INDEX q)) 4 = c.lc.tag % 2 ^ 32 ∧
          t.num (cplSlot q (m.rd F.MBX_Q_CPL_PROD_INDEX q) + 6) 2 = a.status % 2 ^ 16))) ∧
    (runs 0x0001 →
      (c.arg 0 1 = 1 ∨ c.arg 0 1 = 2 → Does (.sessionOpen q) s fun t => t.session q = ⟨true, c.arg 0 1,
          Nat.min (c.arg 1 1) (if c.arg 0 1 = 2 then m.rd F.MBX_ID_PROTO_MIN else 3), ((m.session q).gen + 1) % 1024, []⟩ ∧
        (q.val < 4 → t.flag F.MBX_Q_STATUS_OPEN q = true ∧ t.flag F.MBX_Q_STATUS_V1 q = (c.arg 0 1 == 1))) ∧
      (c.arg 0 1 ≠ 1 → c.arg 0 1 ≠ 2 → Does (.sessionOpen q) s (ends m1 (answer stVERSION 2)))) ∧
    (runs 0x0002 → Does (.sessionClose q) s fun t => (t.session q).isOpen = false ∧ (t.session q).gen = (m.session q).gen ∧
      (q.val < 4 → m.lock.holder = q.val + 1 → t.lock.holder = 0)) ∧
    (runs 0x0003 → Does (.nop q) s (ends m1 { resp := c.payload })) ∧
    (runs 0x0004 →
      (m1.sdPasses (mailLines mailboxBase 128 .load) = (m1, none) → Does (.info q) s (ends m1 { resp := m1.bytes mailboxBase 128 })) ∧
      (m1.sdPasses (mailLines mailboxBase 128 .load) = (m2, some k) → Does (.info q) s (ends m2 (answer stACCESS k)))) ∧
    (runs 0x0101 →
      (m1.lock.holder = 0 → Does (.lockAcquire q) s fun t => t.lock.holder = q.val + 1 ∧ t.lock.token ≠ 0 ∧ t.lock.sess = c.lc.sess ∧
        t.lock.leaseEnd = some (m.mono + (if c.arg 4 2 = 0 then 60 else c.arg 4 2) * 1000000000) ∧ t.rd F.MBX_LOCK_HOLDER = q.val + 1) ∧
      (other → Does (.lockAcquire q) s (ends m1 (answer stLOCKED m1.lock.holder)))) ∧
    (runs 0x0102 → Does (.lockRelease q) s fun t => t.lock = {} ∧ (m.lock.holder ≠ 0 → t.rd F.MBX_LOCK_HOLDER = 0)) ∧
    (runs 0x0103 → Does (.lockStatus q) s (ends m1 { results := leBytes 4 m1.lock.holder ++ leBytes 4 0 ++ leBytes 8 m1.leaseInstant })) ∧
    (runs 0x0110 →
      (m.imgUp ≠ none → Does (.imgBegin q) s (ends m1 (answer stBUSY 0))) ∧
      (m.imgUp = none → m1.newHandle c.lc.q 5 .image = some (m2, h) → Does (.imgBegin q) s fun t => ∃ x, t.imgUp = some ⟨x, c.arg 0 4, []⟩ ∧
        (x, .image) ∈ (t.session q).handles)) ∧
    (runs 0x0111 →
      (m1.ownUpload c m1.imgUp = none → Does (.imgWrite q) s (ends m1 (answer stBADHANDLE 0))) ∧
      (m1.ownUpload c m1.imgUp = some u → Does (.imgWrite q) s fun t => t.imgUp = some (u.write (c.arg 0 4) c.payload) ∧ t.cfg = m.cfg)) ∧
    (runs 0x0112 → m1.ownUpload c m1.imgUp = some u → m1.uploaded u = (m2, im) →
      (1 ≤ m2.slotState (c.arg 4 1) → m2.slotState (c.arg 4 1) ≤ 3 → Does (.imgStage q v) s
        (ends (((m2.dropDirect c.lc.q).cfgReason 0x0C).stageRefused (imgMove im) c.lc.q 0x0C) (answer stCONFIG 0x0C))) ∧
      (m2.stageEverywhere im (c.arg 4 1) v c.lc.q = (m3, some (st, d)) → Does (.imgStage q v) s (ends m3 (answer st d))) ∧
      (m2.stageEverywhere im (c.arg 4 1) v c.lc.q = (m3, none) → m3.cfg.staging ≠ [] → Does (.imgStage q v) s fun t => t.long = m3.long ++ [c.lc]) ∧
      (m2.stageEverywhere im (c.arg 4 1) v c.lc.q = (m3, none) → m3.cfg.staging = [] → Does (.imgStage q v) s
        (ends m3 { results := leBytes 4 (m3.rd F.CFG_MOVE_STAGED_MOVE) }))) ∧
    (runs 0x0113 →
      (m1.slotIn 1 = none ∨ m1.cfg.staging ≠ [] → Does (.imgCommit q) s (ends m1 (answer stSTATE (m1.rd F.MBX_STATE_STATE)))) ∧
      (m1.slotIn 1 = some slot → m1.cfg.staging = [] → m1.commitBar = 0 → Does (.imgCommit q) s fun t => t.long = m.long ++ [c.lc] ∧
        ∃ x, t.cfg.commit = some x ∧ x.kind = .image ∧ x.slot = slot ∧ x.move = m1.rd F.CFG_MOVE_STAGED_MOVE ∧ x.named = c.arg 8 8) ∧
      (m1.slotIn 1 = some slot → m1.cfg.staging = [] → m1.commitBar ≠ 0 → Does (.imgCommit q) s fun t => t.cfg.commit = m.cfg.commit ∧
        t.flag F.CFG_STATUS_REFUSED = true)) ∧
    (runs 0x0114 →
      (m1.viewBusy = true → Does (.imgDiscard q) s (ends m1 (answer stCONFIG 0x11))) ∧
      (m1.viewBusy = false → m1.rd F.CFG_MOVE_STAGED_MOVE ≠ 0 → m1.slotIn 1 = some slot → Does (.imgDiscard q) s fun t =>
        t.flag F.CFG_STATUS_STAGED = false ∧ t.rd F.CFG_MOVE_STAGED_MOVE = 0 ∧ t.slotState slot = 0 ∧ t.staged = [])) ∧
    (runs 0x0115 →
      (m1.commitBar = 0 → c.arg 4 1 ≤ m1.reachSlots.length → Does (.takeback q) s fun t => (∃ y, t.long = y ++ [c.lc]) ∧
        ∃ x, t.cfg.commit = some x ∧ x.kind = .manual ∧ x.slot = m1.reachSlots.getD (c.arg 4 1 - 1) 0) ∧
      (m1.commitBar = 0 → m1.reachSlots.length < c.arg 4 1 → Does (.takeback q) s fun t => t.cfg.commit = m.cfg.commit ∧
        t.flag F.CFG_STATUS_REFUSED = true ∧ t.rd F.CFG_STATUS_REASON = 0x10)) ∧
    (runs 0x0116 → Does (.history q) s (ends m1 { resp := m1.cfg.scores.flatMap Score.bytes })) ∧
    (runs 0x0201 →
      (m1.authorities (ids.map (fun p => p.1 * 2 ^ 52 + recAddr p.2.1 p.2.2)) .load = (m2, .error k) → Does (.sigOpen q) s (ends m2 (answer stACCESS k))) ∧
      (m1.authorities (ids.map (fun p => p.1 * 2 ^ 52 + recAddr p.2.1 p.2.2)) .load = (m2, .ok es) →
        m2.newHandle c.lc.q 1 (.signals ((ids.zip es).map (fun p => (p.1.1, p.1.2.1, p.1.2.2, p.2)))) = some (m3, h) →
        Does (.sigOpen q) s (ends m3 { handle := some h, results := [] }))) ∧
    (runs 0x0202 →
      (m1.heldBy c = some (.signals l) → m1.gatherBegin (.mailbox c.lc.q) (some c.lc) (l.map (fun p => (p.1 * 2 ^ 52 + recAddr p.2.1 p.2.2.1, 32, p.2.2.2))) = (m2, .ok g) →
        g.cmd = some c.lc → g.all = some data → Does (.sigRead q) s (ends m2 { resp := data })) ∧
      (m1.heldBy c = none → Does (.sigRead q) s (ends m1 (answer stBADHANDLE 0)))) ∧
    (runs 0x0203 → m1.authorities (ports.map (fun p => 0xFFF * 2 ^ 52 + outAddr p)) .store = (m2, .ok es) →
      m2.newHandle c.lc.q 2 (.outputs (ports.zip es)) = some (m3, h) → Does (.outOpen q) s (ends m3 { handle := some h, results := [] })) ∧
    (runs 0x0204 →
      (m1.heldBy c = some (.outputs o) → m1.outRefused c o = some acc → m1.passGate acc = (m2, some k) →
        Does (.outWrite q) s (ends m2 { answer stACCESS k with results := leBytes 4 0 })) ∧
      (m1.heldBy c = some (.outputs o) → m1.outRefused c o = none → m1.outEntries c o 0 (c.payload.length / 16) = (m2, k, e) →
        Does (.outWrite q) s (ends m2 { (e.getD {}) with results := leBytes 4 k })) ∧
      (m1.heldBy c = none → Does (.outWrite q) s (ends m1 (answer stBADHANDLE 0)))) ∧
    (runs 0x0205 → m1.heldBy c = some (.signals l) → Does (.sigClose q) s fun t =>
      (t.session q).handles = (m.session q).handles.filter (·.1 != c.lc.handle))

/-- With nothing barring it: WIN_OPEN maps the lowest free window, with the epoch found, and WIN_CLOSE unmaps it; EVT_SUBSCRIBE and EVT_UNSUBSCRIBE
take and give up a subscription; MSG_FW puts a message in the inbox, or ends with NORES where it is full, MSG_READ takes messages from the outbox;
DIAG_PORT gives three registers of each port as gate 13 admits the Sheepdog, DIAG_TDR starts a run or ends with BUSY or STATE, DIAG_ERRLOG takes
violation reports; REG_READ reads a register as gate 13 admits it; TIME_GET gives the times, TIME_STEP steps or ends with STATE while locked to a source, TIME_PHASE steers;
TWIN_STATUS gives the role, CASTLE proposes a castling or ends with STATE; FW_BEGIN and FW_WRITE take an upload, FW_ACTIVATE awaits the Rook,
FW_RESTART restarts the Sheepdog, FW_CONFIRM makes a trial slot active, FW_STATUS shows the slots. The model's choices in this: the Sheepdog's
register reads pass gate 13 as master 32 (log entry 85), a window presents the epochs of the entries it meets as it is opened (log entry 57), and
the order of the refusals, with FW_CONFIRM without a trial answering STATE (log entry 54). -/
def Obligations.MailboxCommandsOfWindowsTimeAndFirmware : Prop :=
  ∀ (s : State) (q : PairId) (c : Cmd) (u : Upload) (m2 m3 m4 : Mod) (e e2 h k win val src vec : Nat) (bs : List Byte),
    let m := s.mod
    let m1 := m.takeFront q
    let sdAcc := fun (r : Reg) (n : Nat) => (⟨32, false, 0, 0, regBase + r.offset 0, n, .load⟩ : Acc)
    let runs := fun (n : Nat) => CmdRuns m q n c
    let ends := fun (m' : Mod) (x : Answer) (t : Mod) => t = m'.complete c.lc x
    let base := c.arg 0 8
    let len := c.arg 8 4
    let wr := c.arg 12 1 == 3
    let again := if wr then m2.authority base len .store else (m2, .ok e)
    let inProd := m.rd F.MBX_FW_IN_PROD_INDEX q
    let outCons := m.rd F.MBX_FW_OUT_CONS_INDEX q
    let outN := Nat.min (c.arg 0 1) ((m.rd F.MBX_FW_OUT_PROD_INDEX q + 65536 - outCons) % 65536)
    let inLines := mailLines (inboxSlot q inProd) 1024 .store
    let outLines := (upTo outN).flatMap (fun x => mailLines (outboxSlot q (outCons + x)) 1024 .load)
    let errRegs := errlogRegs (!(m.vq.take (c.arg 0 1)).isEmpty)
    let errResp := (m.vq.take (c.arg 0 1)).flatMap VioRec.bytes ++ m1.memErrBytes
    let phase := signedOf 32 (c.arg 8 4)
    let inFull := (inProd + 65536 - m.rd F.MBX_FW_IN_CONS_INDEX q) % 65536 ≥ 16
    let port := c.arg 0 2
    let dropped := fun (t : Mod) => (t.session q).handles = (m.session q).handles.filter (·.1 != c.lc.handle)
    let state := m.rd F.MBX_STATE_STATE
    let slots := leBytes 1 m.fwA.st.code ++ leBytes 1 m.fwB.st.code ++ leBytes 2 0 ++ leBytes 4 m.fwA.version ++ leBytes 4 m.fwB.version
    (runs 0x0301 →
      (m1.authority base len .load = (m2, .error k) → Does (.winOpen q) s (ends m2 (answer stACCESS k))) ∧
      (m1.authority base len .load = (m2, .ok e) → again = (m3, .ok e2) → m3.freeWindow = none → Does (.winOpen q) s (ends m3 (answer stNORES 0))) ∧
      (m1.authority base len .load = (m2, .ok e) → again = (m3, .ok e2) → m3.freeWindow = some win → m3.newHandle c.lc.q 3 (.window win) = some (m4, h) →
        Does (.winOpen q) s fun t => ∃ x, Tbl.get none t.wins win = some ⟨q, x, base, len, wr, m1.rangeEpochs base len⟩ ∧ (x, .window win) ∈ (t.session q).handles)) ∧
    (runs 0x0302 → m1.heldBy c = some (.window win) → Does (.winClose q) s fun t => Tbl.get none t.wins win = none ∧ dropped t) ∧
    (runs 0x0401 →
      (m1.heldCount Held.isSub ≥ 256 → Does (.evtSubscribe q) s (ends m1 (answer stNORES 0))) ∧
      (m1.heldCount Held.isSub < 256 → m1.newHandle c.lc.q 4 (.subscription (c.arg 0 1) (c.arg 1 1)) = some (m2, h) →
        Does (.evtSubscribe q) s fun t => ends m2 { handle := some h, results := [] } t ∧ (h, .subscription (c.arg 0 1) (c.arg 1 1)) ∈ (t.session q).handles)) ∧
    (runs 0x0402 → m1.heldBy c = some (.subscription src vec) → Does (.evtUnsubscribe q) s dropped) ∧
    (runs 0x0403 → q.val < 4 →
      (inFull → Does (.msgFw q) s (ends m1 (answer stNORES 0))) ∧
      (¬ inFull → m1.sdPasses inLines = (m2, some k) → Does (.msgFw q) s (ends m2 (answer stACCESS k))) ∧
      (¬ inFull → m1.sdPasses inLines = (m1, none) → Does (.msgFw q) s fun t => t.rd F.MBX_FW_IN_PROD_INDEX q = (inProd + 1) % 65536)) ∧
    (runs 0x0404 → q.val < 4 →
      (m1.sdPasses outLines = (m2, some k) → Does (.msgRead q) s (ends m2 (answer stACCESS k))) ∧
      (m1.sdPasses outLines = (m1, none) → Does (.msgRead q) s fun t =>
        t.rd F.MBX_FW_OUT_CONS_INDEX q = (if 1024 * outN ≤ c.lc.room then (outCons + outN) % 65536 else outCons))) ∧
    (runs 0x0501 →
      (m1.sdRead (diagRegs port (c.arg 2 2)) = (m2, .ok bs) → Does (.diagPort q) s (ends m2 { resp := bs })) ∧
      (m1.sdRead (diagRegs port (c.arg 2 2)) = (m2, .error k) → Does (.diagPort q) s (ends m2 (answer stACCESS k)))) ∧
    (runs 0x0502 →
      ((m.port port).tdrFrom ≠ none → Does (.diagTdr q) s (ends m1 (answer stBUSY 0))) ∧
      ((m.port port).tdrFrom = none → m1.asStandby = true → Does (.diagTdr q) s fun t => (t.port port).tdrFrom = none) ∧
      ((m.port port).tdrFrom = none → m1.sdPasses [sdReg .PORT_TDR_CTRL port .store] = (m2, some k) → Does (.diagTdr q) s (ends m2 (answer stACCESS k))) ∧
      ((m.port port).tdrFrom = none → m1.sdPasses [sdReg .PORT_TDR_CTRL port .store] = (m1, none) → m.phase.full = true → m1.asStandby = false →
        m1.effMode port = 0 ∨ m1.effMode port = 1 →
        (m1.flag F.PBLK_TDR_OWNER_VALID (portBlock port) && m1.rd F.PBLK_TDR_OWNER_PORT (portBlock port) != port % 32) = false →
        Does (.diagTdr q) s fun t => (t.port port).tdrFrom = some m.now ∧ { c.lc with arg := port } ∈ t.long)) ∧
    (runs 0x0503 →
      (m1.sdPasses errRegs = (m2, some k) → Does (.diagErrlog q) s (ends m2 (answer stACCESS k))) ∧
      (m1.sdPasses errRegs = (m1, none) → Does (.diagErrlog q) s fun t =>
        t.vq = if errResp.length ≤ c.lc.room then m.vq.drop (c.arg 0 1) else m.vq)) ∧
    (runs 0x0504 →
      (m1.passGate (hostAcc 0 (regBase + c.arg 0 4) (c.arg 4 1) .load) = (m2, some k) → Does (.regRead q) s (ends m2 (answer stACCESS k))) ∧
      (m1.passGate (hostAcc 0 (regBase + c.arg 0 4) (c.arg 4 1) .load) = (m2, none) → m2.regLoad 54 (c.arg 0 4) (c.arg 4 1) = (m3, val) →
        Does (.regRead q) s (ends m3 { results := leBytes 8 val }))) ∧
    (runs 0x0601 →
      (m1.gateTest (sdAcc .TB_NOW 8) = none → m1.gateTest (sdAcc .TB_MONO 8) = none → m1.gateTest (sdAcc .TB_STATUS 4) = none →
        Does (.timeGet q) s (ends m1 { results := leBytes 8 m.now ++ leBytes 8 m.mono ++ leBytes 4 (m1.regLoad 32 (Reg.TB_STATUS.offset 0) 4).2 })) ∧
      (m1.passGate (sdAcc .TB_NOW 8) = (m2, some k) → Does (.timeGet q) s (ends m2 (answer stACCESS k)))) ∧
    (runs 0x0602 →
      (m1.sdPasses [sdReg .TB_STEP 0 .store] = (m2, some k) → Does (.timeStep q) s (ends m2 (answer stACCESS k))) ∧
      (m1.sdPasses [sdReg .TB_STEP 0 .store] = (m1, none) → Does (.timeStep q) s (ends (m1.tbStep (c.arg 8 8))
        (if m1.flag F.TB_STATUS_LOCKED && m1.tbSrc != 0 then answer stSTATE state else {})))) ∧
    (runs 0x0603 →
      (phase = 0 → Does (.timePhase q) s (ends m1 {})) ∧
      (phase ≠ 0 → m1.sdPasses [sdReg .TB_PHASE 0 .store] = (m2, some k) → Does (.timePhase q) s (ends m2 (answer stACCESS k))) ∧
      (phase ≠ 0 → m1.sdPasses [sdReg .TB_PHASE 0 .store] = (m1, none) → Does (.timePhase q) s (ends (m1.tbPhase phase) {}))) ∧
    (runs 0x0701 →
      (m1.gateTest (sdAcc .TWIN_STATUS 4) = none →
        Does (.twinStatus q) s (ends m1 { results := leBytes 1 (m.rd F.TWIN_STATUS_ROLE) ++ leBytes 1 (m.rd F.TWIN_STATUS_LINK_UP) })) ∧
      (m1.passGate (sdAcc .TWIN_STATUS 4) = (m2, some k) →
        Does (.twinStatus q) s (ends m2 (answer stACCESS k)))) ∧
    (runs 0x0702 →
      (m1.castleBar (c.arg 8 8) = 0 → Does (.castle q) s fun t => t.long = m.long ++ [c.lc] ∧
        t.twin.propose = some (if c.arg 8 8 = 0 && !m1.isStandby then m1.firstGrid (m1.now + 20000) else c.arg 8 8) ∧ t.mem = m.mem) ∧
      (m1.castleBar (c.arg 8 8) ≠ 0 → Does (.castle q) s fun t => t.long = m.long ∧ t.twin.propose = m.twin.propose)) ∧
    (runs 0x0801 →
      (m.fwUp ≠ none → Does (.fwBegin q) s (ends m1 (answer stBUSY 0))) ∧
      (m.fwUp = none → m1.newHandle c.lc.q 6 .firmware = some (m2, h) → Does (.fwBegin q) s fun t => ∃ x, t.fwUp = some ⟨x, c.arg 0 4, []⟩ ∧
        (x, .firmware) ∈ (t.session q).handles)) ∧
    (runs 0x0802 →
      (m1.ownUpload c m1.fwUp = none → Does (.fwWrite q) s (ends m1 (answer stBADHANDLE 0))) ∧
      (m1.ownUpload c m1.fwUp = some u → Does (.fwWrite q) s fun t => t.fwUp = some (u.write (c.arg 0 4) c.payload) ∧ t.cfg = m.cfg)) ∧
    (runs 0x0803 →
      (m.fwUp = none → Does (.fwActivate q) s (ends m1 (answer stBADHANDLE 0))) ∧
      (m.fwUp = some u → c.lc.handle = u.handle → (m1.session q).handles.any (·.1 == u.handle) = true →
        (m.long.any (·.opcode == 0x0803) = true → Does (.fwActivate q) s (ends m1 (answer stBUSY 0))) ∧
        (m.long.any (·.opcode == 0x0803) = false → Does (.fwActivate q) s fun t => t = { m1 with long := m.long ++ [c.lc] }))) ∧
    (runs 0x0804 → Does (.fwRestart q) s fun t => t.rd F.MBX_STATE_STATE = 5 ∧ ∀ p, p < 5 → (t.session p).isOpen = false) ∧
    (runs 0x0805 →
      ((m.trialWait && m.fwRuns.st == .trial) = true → Does (.fwConfirm q) s fun t => t.trialWait = false ∧ t.fwRuns.st = .active ∧
        t.flag F.MBX_STATE_TRIAL = false ∧ t.fwIdle = m.fwIdle) ∧
      ((m.trialWait && m.fwRuns.st == .trial) = false → Does (.fwConfirm q) s (ends m1 (answer stSTATE state)))) ∧
    (runs 0x0806 → Does (.fwStatus q) s (ends m1 { results := slots }))

/-- A member refuses an image while its lock is held or that does not name it, stages what its own checks pass and reports; a standby takes its
primary's alone. The originator ends a staging with the last answer, the refusal shown as reason 9; the hold ends at its time. In a loss of
power nothing is prepared. PREPARE answers 0x0B for what is not staged, 0x0A while another commit is in progress and 0x07 on probation, else
begins the image's commit, a manual take-back, or, for a lower move than that of another's probation and for move 0, the automatic one; a member
whose prepare succeeds answers 0 and is PREPARED, one whose prepare is refused shows REFUSED and its reason; the originator with every answer
chooses C, or refuses. COMMIT sets C, late or not, and makes a take-back that it does not wait for the automatic one; ABORT and the orphan's 90 s
end it, the image's own values staged again. At C every ST register outside a region held in reset
holds its staged value (that of the move's image in a take-back), CFG_COMMIT_TIME is C, the counts of a probation are 0 and GATE sections are
due, which GATE_SECTION_APPLY applies. Reports are ticked off; a missing one fails the probation after 1 s. A probation that ends unfailed
settles; one with EXPLICIT set fails; a failed one is taken back at the next instant 10 ms ahead, by its originator, also where that has settled
it. CFG_CMD from another master than the Sheepdog is refused while the lock is held; on a standby or in a loss of power it does nothing; else it
commits direct values, discards, accepts, rejects or takes back. Model's choices among these: which PREPARE and COMMIT are an automatic take-back's
and whom one reaches (log entry 28); the standby that takes its primary's alone, CFG_CMD at a standby, and nothing staged, prepared or begun in a
loss of power (29); the chess clocks that follow a commit last, so that the instant's clause is said of the module before them (23). -/
def Obligations.ConfigurationStoresCommitTogether : Prop :=
  ∀ (s : State) (org : BitVec 12) (im : List Byte) (slot : SlotId) (v : Verdict) (m2 : Mod) (e : Nat × Nat) (node : BitVec 12) (ok late : Bool) (t0 : Nat)
      (move : BitVec 32) (digest : BitVec 256) (n r0 : Nat) (c : Commit) (reason : BitVec 8) (atC : BitVec 64) (p : Probation) (d : GateDue) (w : Writer) (moves : BitVec 3),
    let m := s.mod
    let ans := fun (x : Nat) => m.emit (.federate none (.answer x))
    let is := fun (k : Nat) => m.rd F.CFG_SLOT_MOVE_MOVE k == move.toNat && imgDigest (m.image k) == digest.toNat
    let fromTwin := m.isStandby && org.toNat == m.node ^^^ 1
    let open1 := m.cfg.commit = some c
    let none1 := m.slotIn 1 = none ∨ ∃ k, m.slotIn 1 = some k ∧ is k = false
    let whole := m.isStandby = false ∧ m.twin.loss = none
    let settled := fun (t : Mod) => t.cfg.probation = none ∧ t.rd F.CFG_MOVE_SETTLED_MOVE = p.move % 2 ^ 32 ∧ t.flag F.CFG_STATUS_SETTLED = true ∧
      t.flag F.CFG_STATUS_PROBATION = false ∧ t.rd F.CFG_MOVE_PROB_MOVE = 0 ∧ t.slotState p.slot = 3
    let barredCmd := fun (i : Instr) => w.master.toNat ≠ 32 → m.rd F.MBX_LOCK_HOLDER ≠ 0 → Does i s fun t => t = m.put F.CFG_STATUS_CMD_REFUSED 0 true
    let takesBack := fun (t : Mod) => t.flag F.CFG_STATUS_COMMIT_PENDING = true ∧ ∃ x, t.cfg.commit = some x ∧ x.kind = .automatic ∧
      x.slot = (m.slotIn 3).getD 8 ∧ x.at_ = some (nextMultiple 100000 (m.now + 10000000))
    let asks := fun (t : Mod) => t.cfg.scores.head? = some ⟨p.move, .probationEnd, m.now, p.party, 0⟩ ∧
      t.cfg.probation = some { p with failed := true, asked := true } ∧ t.sent = .federate none (.takeback p.move) :: m.sent ∧ t.regs = m.regs
    let open_ := w.master.toNat = 32 ∨ m.rd F.MBX_LOCK_HOLDER = 0
    let may := open_ ∧ whole
    let ours := (imgMembers im).any m.isOurs
    let atC1 := (m.toNow t0).clocksSettle
    let view := if c.kind.isBack then (atC1.stageValues (atC1.image c.slot)).stageBanks (atC1.image c.slot) else atC1
    -- staging
    (m.isStandby = true → fromTwin = false → Does (.federatedImageReceive org im slot v) s fun t => t = m) ∧
    (fromTwin = true → m.stageOwn im slot v partyAutomatic = (m2, none) → m2.twinPeer = none →
      Does (.federatedImageReceive org im slot v) s fun t => t = m2.emit (.federate none (.staged true))) ∧
    (m.isStandby = false → m.lock.holder ≠ 0 ∨ ours = false →
      Does (.federatedImageReceive org im slot v) s fun t => t = m.emit (.federate none (.staged false))) ∧
    (m.isStandby = false → m.lock.holder = 0 → ours = true → (m.setLock { holder := 6 }).stageOwn im slot v partyAutomatic = (m2, none) → m2.twinPeer = none →
      Does (.federatedImageReceive org im slot v) s fun t => t.cfg.fedHold = some (m2.mono + 600000000000) ∧ t.sent = .federate none (.staged true) :: m2.sent) ∧
    (m.isStandby = false → m.lock.holder = 0 → ours = true → (m.setLock { holder := 6 }).stageOwn im slot v partyAutomatic = (m2, some e) →
      Does (.federatedImageReceive org im slot v) s fun t => t.sent.head? = some (.federate none (.staged false)) ∧ t.lock.holder ≠ 6) ∧
    (m.cfg.staging.contains node.toNat = false → Does (.memberStagingAnswer node ok) s fun t => t = m) ∧
    (m.cfg.ownStage = true → m.cfg.staging.contains node.toNat = true → m.cfg.staging.erase node.toNat ≠ [] →
      Does (.memberStagingAnswer node ok) s fun t => t.cfg.staging = m.cfg.staging.erase node.toNat ∧ t.regs = m.regs ∧
        t.cfg.stagingRefused = (if m.cfg.stagingRefused = none ∧ ok = false then some node.toNat else m.cfg.stagingRefused)) ∧
    (m.cfg.ownStage = true → m.cfg.staging.contains node.toNat = true → m.cfg.staging.erase node.toNat = [] →
      (m.cfg.stagingRefused = none → ok = true → Does (.memberStagingAnswer node ok) s fun t =>
        t = { m with cfg := { m.cfg with staging := [], stagingRefused := none } }.finishLong 0x0112 { results := leBytes 4 (m.rd F.CFG_MOVE_STAGED_MOVE) }) ∧
      (m.cfg.stagingRefused ≠ none ∨ ok = false → Does (.memberStagingAnswer node ok) s fun t => t.cfg.staging = [] ∧ t.rd F.CFG_STATUS_REASON = 9)) ∧
    (m.cfg.ownStage = false → m.cfg.staging.contains node.toNat = true → Does (.memberStagingAnswer node ok) s fun t => t.cfg.staging = [] ∧
      t.sent.head? = some (.federate none (.staged ok))) ∧
    (m.cfg.fedHold = none → Does .federationHoldTimeout s fun t => t = m) ∧
    (m.cfg.fedHold = some t0 → m.lock.holder = 6 → Does .federationHoldTimeout s fun t => t.lock = {} ∧ t.cfg.fedHold = none ∧ t.mono = Nat.max m.mono t0) ∧
    -- prepare and its answers
    (open1 → c.move = move.toNat → c.digest = digest.toNat → Does (.prepare move digest) s fun t => t = m) ∧
    (m.twin.loss ≠ none → Does (.prepare move digest) s (fun t => t = m) ∧ Does .prepareDone s fun t => t = m) ∧
    (m.twin.loss = none → open1 → c.move ≠ move.toNat ∨ c.digest ≠ digest.toNat → Does (.prepare move digest) s fun t => t = (ans 0x0A).endHoldOf move.toNat) ∧
    (m.twin.loss = none → m.cfg.commit = none → m.cfg.probation = none →
      (m.slotIn 1 = some n → is n = true → Does (.prepare move digest) s fun t => ∃ x, t.cfg.commit = some x ∧
        x.kind = .image ∧ x.slot = n ∧ x.move = move.toNat ∧ x.origin = false ∧ x.own = none ∧ x.at_ = none ∧ t.cfg.fedHold = none ∧ t.regs = m.regs) ∧
      (none1 → m.reachSlots.find? is = some n → Does (.prepare move digest) s fun t => ∃ x, t.cfg.commit = some x ∧
        x.kind = .manual ∧ x.slot = n ∧ x.move = move.toNat ∧ x.passed = m.passedTo n ∧ x.origin = false ∧ x.own = none ∧ x.at_ = none ∧ t.regs = m.regs) ∧
      ((∀ k, is k = false) → move ≠ 0 → Does (.prepare move digest) s fun t => t = (ans 0x0B).endHoldOf move.toNat) ∧
      ((∀ k, is k = false) → move = 0 → Does (.prepare move digest) s fun t => ∃ x, t.cfg.commit = some x ∧ x.kind = .automatic ∧ x.slot = 8 ∧
        x.passed = (m.slotIn 3).toList ∧ x.origin = false ∧ x.own = none ∧ x.at_ = none ∧ t.regs = m.regs)) ∧
    (m.twin.loss = none → m.cfg.commit = none → m.cfg.probation = some p →
      (p.origin = false → move.toNat < p.move → Does (.prepare move digest) s fun t => ∃ x, t.cfg.commit = some x ∧ x.kind = .automatic ∧
        x.slot = (m.slotIn 3).getD 8 ∧ x.move = move.toNat ∧ x.origin = false ∧ x.own = none ∧ x.at_ = none ∧ t.regs = m.regs ∧ t.lock = m.lock ∧
        t.cfg.fedHold = m.cfg.fedHold) ∧
      (p.origin = true ∨ p.move ≤ move.toNat → Does (.prepare move digest) s fun t =>
        t = ((m.cfgRefused move.toNat .commit partyAutomatic 0x07).emit (.federate none (.answer 0x07))).endHoldOf move.toNat)) ∧
    (m.cfg.commit = none → Does .prepareDone s (fun t => t = m) ∧ Does (.memberAnswer node reason) s (fun t => t = m) ∧
      Does (.answerTimeout node) s (fun t => t = m) ∧ Does (.commitMessage atC) s (fun t => t = m) ∧ Does (.abortMessage false) s (fun t => t = m) ∧
      Does .orphanTimeout s (fun t => t = m) ∧ Does .configCommit s fun t => t = m) ∧
    (m.twin.loss = none → open1 → c.own = none → c.origin = false → c.waiting = [] → c.at_ = none → c.refusal = none → c.kind ≠ .direct →
      (m.prepare c = (m2, 0) → Does .prepareDone s fun t =>
        t = ((m2.setCommit (some { c with own := some 0 })).put F.CFG_STATUS_PREPARED 0 true).emit (.federate none (.answer 0))) ∧
      (m.prepare c = (m2, r0) → r0 ≠ 0 → Does .prepareDone s fun t => t.cfg.commit = none ∧ t.flag F.CFG_STATUS_PREPARED = false ∧
        t.flag F.CFG_STATUS_REFUSED = true ∧ t.rd F.CFG_STATUS_REASON = r0 % 2 ^ 8 ∧ .federate none (.answer r0) ∈ t.sent)) ∧
    (open1 → c.own ≠ none → Does .prepareDone s fun t => t = m) ∧
    (open1 → c.origin = true → c.own = some 0 → c.waiting = [node.toNat] → c.at_ = none → c.refusal = none →
      (reason = 0 → c.named = 0 → Does (.memberAnswer node reason) s fun t => t.flag F.CFG_STATUS_COMMIT_PENDING = true ∧
        t.cfg.commit = some { c with waiting := [], at_ := some (nextMultiple 100000 (m.now + 10000000)) }) ∧
      (reason ≠ 0 → Does (.memberAnswer node reason) s fun t => t.cfg.commit = none ∧ t.flag F.CFG_STATUS_REFUSED = true ∧
        t.rd F.CFG_STATUS_REASON = (if reason = 0x0A ∨ reason = 0x0B then reason.toNat else 9)) ∧
      Does (.answerTimeout node) s fun t => t.cfg.commit = none ∧ t.flag F.CFG_STATUS_REFUSED = true ∧ t.rd F.CFG_STATUS_REASON = 9 ∧
        t.mono = Nat.max m.mono (c.since + 60000000000)) ∧
    (open1 → c.waiting.contains node.toNat = false → Does (.memberAnswer node reason) s (fun t => t = m) ∧ Does (.answerTimeout node) s fun t => t = m) ∧
    -- the instant
    (open1 → c.origin = false → c.at_ = none → c.kind = .manual → c.own = none → m.now + 1000 ≤ atC.toNat → Does (.commitMessage atC) s fun t =>
      t.cfg.commit = some { c with kind := .automatic, at_ := some atC.toNat, late := false } ∧ t.flag F.CFG_STATUS_COMMIT_PENDING = true) ∧
    (open1 → c.origin = false → c.at_ = none → c.own = some 0 → c.waiting = [] →
      (m.now + 1000 ≤ atC.toNat → Does (.commitMessage atC) s fun t => t.cfg.commit = some { c with at_ := some atC.toNat, late := false } ∧
        t.flag F.CFG_STATUS_PREPARED = false ∧ t.flag F.CFG_STATUS_COMMIT_PENDING = true) ∧
      (atC.toNat < m.now + 1000 → Does (.commitMessage atC) s fun t => t.cfg.commit = some { c with at_ := some (nextMultiple 100000 (m.now + 1)), late := true }) ∧
      Does (.abortMessage false) s (fun t => t.cfg.commit = none ∧ t.flag F.CFG_STATUS_PREPARED = false ∧
        t.rd F.CFG_MOVE_STAGED_MOVE = m.rd F.CFG_MOVE_STAGED_MOVE ∧
        (c.kind = .image → m.slotState c.slot = 1 → t.stageImage = true ∧
          ∀ (r : Reg) (i : Nat), t.stagedReg r i &&& r.stMask = (m.stageValues (m.image c.slot)).stagedReg r i &&& r.stMask)) ∧
      Does .orphanTimeout s fun t => t.cfg.commit = none ∧ t.flag F.CFG_STATUS_ORPHAN = true ∧ t.mono = Nat.max m.mono (c.since + 90000000000)) ∧
    (open1 → c.origin = true ∨ c.at_ ≠ none → Does (.commitMessage atC) s (fun t => t = m) ∧ Does (.abortMessage false) s (fun t => t = m) ∧
      Does .orphanTimeout s fun t => t = m) ∧
    (m.viewBusy = true ∨ m.cfg.ownStage = true ∨ (m.lock.holder ≠ 6 ∧ m.isStandby = false) → Does (.abortMessage true) s fun t => t = m) ∧
    (m.viewBusy = false → m.cfg.ownStage = false → m.lock.holder = 6 → m.slotIn 1 = some n → Does (.abortMessage true) s fun t =>
      t.lock = {} ∧ t.rd F.CFG_MOVE_STAGED_MOVE = 0) ∧
    (open1 → c.at_ = none → Does .configCommit s fun t => t = m) ∧
    (open1 → c.at_ = some t0 → Does .configCommit s fun t => ∃ x y, t = x.clocksCommit y ∧ x.cfg.commit = none ∧ x.flag F.CFG_STATUS_PREPARED = false ∧
      x.flag F.CFG_STATUS_COMMIT_PENDING = false ∧ x.rd F.CFG_COMMIT_TIME_TIME = t0 % 2 ^ 64 ∧ x.rd F.CFG_PROB_FALLS_COUNT = 0 ∧
      x.rd F.CFG_PROB_VIOL_COUNT = 0 ∧ x.cfg.gateDue.map GateDue.slot = some c.slot ∧ (x.clks = [] → t = x) ∧
      (c.kind = .automatic → x.flag F.CFG_STATUS_TAKEN_BACK = true ∧ x.cfg.probation = none) ∧
      -- the values in effect at C, where no core or matrix engine switched off by it has a store of its own under way
      (c.own ≠ none → (∀ k, k < 32 → (atC1.core k).sb = []) → (∀ g, g < 4 → atC1.mxJob g = none) →
        ∀ (r : Reg) (i : Nat), r.stMask ≠ 0 → atC1.rgnHeld (keyHome (regKey r i)) = false → Tbl.look atC1.parked (regKey r i) = none →
          x.reg r i &&& r.stMask = view.stagedReg r i &&& r.stMask)) ∧
    (m.cfg.gateDue = none → Does .gateSectionApply s fun t => t = m) ∧
    (m.cfg.gateDue = some d → Does .gateSectionApply s fun t => t.cfg.gateDue = none ∧ t.fwdStage = m.fwdStage ∧ t.vlanStage = m.vlanStage ∧
      t = { { m with cfg := { m.cfg with gateDue := none }, fwdStage := d.fwd, vlanStage := d.vlan }.tablesCommit with
        fwdStage := m.fwdStage, vlanStage := m.vlanStage }.applyGates (imgGates (m.image d.slot))) ∧
    -- reports, probation, take-back
    (m.cfg.probation = none → Does (.commitReport node move late) s (fun t => t = m) ∧ Does .commitReportTimeout s (fun t => t = m) ∧
      Does .probationEnd s (fun t => t = m) ∧ (m.cfg.settledFed = none → Does (.takebackRequest (some node)) s fun t => t = m) ∧
      Does (.takebackRequest none) s (fun t => t = m) ∧
      (may → Does (.accept w) s (fun t => t = m) ∧ Does (.reject w) s fun t => t = m)) ∧
    (m.cfg.commit ≠ none ∨ m.twin.loss ≠ none → Does (.takebackRequest (some node)) s (fun t => t = m) ∧ Does (.takebackRequest none) s fun t => t = m) ∧
    (m.cfg.probation = some p →
      (p.move = move.toNat → p.unreported.contains node.toNat = true → Does (.commitReport node move late) s fun t =>
        t = { m with cfg := { m.cfg with probation := some { p with unreported := p.unreported.erase node.toNat, failed := p.failed || late } } }) ∧
      (p.move ≠ move.toNat → Does (.commitReport node move late) s fun t => t = m) ∧
      (p.unreported ≠ [] → Does .commitReportTimeout s fun t => t.cfg.probation = some { p with failed := true } ∧ t.regs = m.regs) ∧
      (m.probFailed = false → m.cfg.commit = none →
        (bitAt p.flags 1 = false → Does .probationEnd s settled) ∧
        (bitAt p.flags 1 = true → Does .probationEnd s fun t => t.cfg.probation = some { p with failed := true } ∧ t.regs = m.regs) ∧
        (may → Does (.accept w) s settled)) ∧
      (m.probFailed = true → may → Does (.accept w) s (fun t => t = m) ∧ Does (.reject w) s fun t => t = m) ∧
      (m.probFailed = false → may → Does (.reject w) s fun t =>
        t = { m with cfg := { m.cfg with probation := some { p with failed := true, party := m.cmdParty w.master.toNat } } }) ∧
      (m.probFailed = false → Does (.takebackRequest none) s fun t => t = m) ∧
      (m.cfg.commit = none → m.twin.loss = none → p.members.contains node.toNat = false → Does (.takebackRequest (some node)) s fun t => t = m) ∧
      (m.cfg.commit = none → m.twin.loss = none → p.members.contains node.toNat = true →
        (p.origin = true → Does (.takebackRequest (some node)) s takesBack) ∧
        (p.origin = false → p.asked = true → Does (.takebackRequest (some node)) s fun t => t = m) ∧
        (p.origin = false → p.asked = false → Does (.takebackRequest (some node)) s asks)) ∧
      (m.probFailed = true → m.cfg.commit = none → m.twin.loss = none →
        (p.origin = false → p.asked = true → Does (.takebackRequest none) s fun t => t = m) ∧
        (p.origin = false → p.asked = false → Does (.takebackRequest none) s asks) ∧
        (p.origin = true → Does (.takebackRequest none) s takesBack))) ∧
    -- a member's failure of a move that its originator has settled
    (m.cfg.probation = none → m.cfg.commit = none → m.twin.loss = none → m.cfg.settledFed = some (p, n) → p.members.contains node.toNat = true →
      m.rd F.CFG_MOVE_SETTLED_MOVE = p.move → m.cfg.history.head? = some n ∨ n = 8 → Does (.takebackRequest (some node)) s fun t =>
        t.flag F.CFG_STATUS_COMMIT_PENDING = true ∧ ∃ x, t.cfg.commit = some x ∧ x.kind = .automatic ∧ x.slot = n ∧ x.passed = [p.slot] ∧
        x.at_ = some (nextMultiple 100000 (m.now + 10000000))) ∧
    -- CFG_CMD
    barredCmd (.commitDirectValues w) ∧ barredCmd (.cfgDiscard w) ∧ barredCmd (.accept w) ∧ barredCmd (.reject w) ∧ barredCmd (.cfgTakeback w moves) ∧
    (open_ → ¬ whole → Does (.commitDirectValues w) s (fun t => t = m) ∧ Does (.cfgDiscard w) s (fun t => t = m) ∧ Does (.accept w) s (fun t => t = m) ∧
      Does (.reject w) s (fun t => t = m) ∧ Does (.cfgTakeback w moves) s fun t => t = m) ∧
    (may →
      (m.delta = false → Does (.commitDirectValues w) s fun t => t = m) ∧
      (m.delta = true → m.commitBar = 0 → Does (.commitDirectValues w) s fun t => ∃ x, t.cfg.commit = some x ∧ x.kind = .direct ∧
        x.move = m.cfg.highest + 1 ∧ x.named = m.rd F.CFG_COMMIT_AT_TIME ∧ x.own = none ∧ x.at_ = none) ∧
      (m.delta = true → m.commitBar = r0 → r0 ≠ 0 → Does (.commitDirectValues w) s fun t => t.flag F.CFG_STATUS_REFUSED = true ∧ t.rd F.CFG_STATUS_REASON = r0 ∧
        t.cfg.commit = m.cfg.commit) ∧
      (m.viewBusy = true → Does (.cfgDiscard w) s fun t => t = m) ∧
      (m.viewBusy = false → m.stageImage = true → Does (.cfgDiscard w) s fun t => t = m.discardImage (m.cmdParty w.master.toNat)) ∧
      (m.viewBusy = false → m.stageImage = false → m.delta = false → Does (.cfgDiscard w) s fun t => t = m.unstage) ∧
      (m.viewBusy = false → m.stageImage = false → m.delta = true → Does (.cfgDiscard w) s fun t =>
        t = (m.score 0 .discard (m.cmdParty w.master.toNat) 0).unstage) ∧
      (moves = 0 → Does (.cfgTakeback w moves) s fun t => t = m.reservedWrite (Reg.place .CFG_CMD).off w.master.toNat) ∧
      (moves ≠ 0 → m.commitBar = 0 → moves.toNat ≤ m.reachSlots.length → Does (.cfgTakeback w moves) s fun t => ∃ x, t.cfg.commit = some x ∧
        x.kind = .manual ∧ x.slot = m.reachSlots.getD (moves.toNat - 1) 0) ∧
      (moves ≠ 0 → m.commitBar = 0 → m.reachSlots.length < moves.toNat → Does (.cfgTakeback w moves) s fun t => t.rd F.CFG_STATUS_REASON = 0x10 ∧
        t.cfg.commit = none))

/-- POWER_GOOD with precharge and a feed leads to BOOT 0, GOOSE_RUNNING to 1; SPINE_POWER_ON starts TB_MONO at 0 and TB_NOW at the time keeper, 0
from an invalid one. The first copy of the Rook's firmware that verifies runs, BOOT 2, else, and on a decommissioned module, BOOT 7 with the
spine in reset; the Sheepdog's slot in turn runs, BOOT 3 and MBX_STATE 1. At t5 the descriptor's first failing check is DESC_ERR, else DESC_OK;
the role follows R426, and a position-1 module with no claim in 250 ms becomes primary. Lamb service is BOOT 4, or 5 with DRAM ready, and
MBX_STATE 2; it leaves fast ports in mode 2, link ports off, every other port in its mode, and a 1PPS source taken. The sectors that do not
match are reprogrammed one by one; full service begins at a 100 us instant of TB_NOW, BOOT 6, every ST register outside a region without power
at the move's value. Every stage waits for the one before it. So each of POWER_GOOD, PRECHARGE_DONE, HOLDUP_CHARGED, GOOSE_RUNNING, SPINE_POWER_ON,
ROOK_FIRMWARE_VERIFIED, SHEEPDOG_START, CARRIER_DESCRIPTOR_READ, POSITION_1_CLAIM_TIMEOUT, LAMB_SERVICE, CODE_SECTOR_CHECK, SECTOR_REPROGRAM_DONE and
FULL_SERVICE completes with its effect in every state that meets its condition, and changes nothing in any other. The model's choices in this:
that a command changes nothing while its condition does not hold (log entry 11), that a decommissioned module stays at BOOT 7 with its spine in
reset (log entry 65), and what the start leaves aside from the spec's words (log entry 61). The chess clocks follow the rest at C_f, so the clause on
full service says what the module x holds before them, and the state left is x with its clocks' part of the commit (log entry 23). -/
def Obligations.StartUpGoesThroughItsStages : Prop :=
  ∀ (s : State) (v0 v1 : Verdict) (reads : List DescRead) (verdicts : List (SlotId × Verdict)) (g : RegionId) (sector : Fin 128) (port : PortId),
    let m := s.mod
    let ph := m.phase
    let fed := m.flag F.PWR_FEED_A_OK || m.flag F.PWR_FEED_B_OK
    let both := m.flag F.CAR_STATUS_PRES_A && m.flag F.CAR_STATUS_PRES_B
    let boot := m.rd F.ROOK_STATUS_BOOT
    let ok := fun (f : Fld) (v : Verdict) => v.sigOk && decide (m.rd f ≤ v.version.toNat)
    let first := if m.fwIdle.st = .trial then !m.runB else m.runB
    let slot := fun (b : Bool) => { m with runB := b }.fwRuns
    let empty := fun (x : FwSlot) => x.st = .empty ∨ x.st = .invalid
    let stays := fun (i : Instr) => Does i s fun t => t = m
    let asked := m.startView.staged' F.PORT_MODE_MODE port
    let src := m.startView.staged' F.TB_CTRL_SRC
    let atF := { m.toNow (nextMultiple 100000 m.now) with phase := { ph with full := true } }.serviceDomains
    ((ph.precharged && !ph.powered && fed) = true → Does .powerGood s fun t => t.rd F.ROOK_STATUS_BOOT = 0 ∧ t.phase = { ph with powered := true } ∧
      OnlyRegs [(.ROOK_STATUS, 0)] m t) ∧
    ((ph.precharged && !ph.powered && fed) = false → stays .powerGood) ∧
    (both = true → Does .prechargeDone s fun t => t = { m with phase := { ph with precharged := true } }) ∧
    (both = false → stays .prechargeDone) ∧
    (ph.powered = true → Does .holdupCharged s fun t => t.flag F.CAR_STATUS_HOLDUP_OK = true ∧ t.rd F.PWR_HOLDUP_ENERGY = 380 ∧
      OnlyRegsChange [(.CAR_STATUS, 0), (.PWR_HOLDUP, 0)] m t) ∧
    (ph.powered = false → stays .holdupCharged) ∧
    ((ph.powered && (!ph.gooseUp || boot == 0)) = true → Does .gooseRunning s fun t => t.rd F.ROOK_STATUS_BOOT = 1 ∧ t.phase = { ph with gooseUp := true }) ∧
    ((ph.powered && (!ph.gooseUp || boot == 0)) = false → stays .gooseRunning) ∧
    ((ph.gooseUp && !ph.spineUp && !ph.held && boot != 7) = true → Does .spinePowerOn s fun t => t.mono = 0 ∧ t.now = (if m.goose.invalid then 0 else m.goose.keeper) ∧
      t.phase = { ph with spineUp := true } ∧ t.regs = m.regs ∧ t.goose = m.goose) ∧
    ((ph.gooseUp && !ph.spineUp && !ph.held && boot != 7) = false → stays .spinePowerOn) ∧
    -- the Rook and the Sheepdog
    (ph.spineUp = false ∨ boot ≠ 1 → stays (.rookFirmwareVerified v0 v1)) ∧
    (ph.spineUp = true → boot = 1 → m.rook.life = .decommissioned → Does (.rookFirmwareVerified v0 v1) s fun t => t.rd F.ROOK_STATUS_BOOT = 7 ∧
      t.phase.spineUp = false ∧ t.lock.holder = 0) ∧
    (ph.spineUp = true → boot = 1 → m.rook.life ≠ .decommissioned →
      (ok F.ROOK_SVN_ROOK v0 = true → Does (.rookFirmwareVerified v0 v1) s fun t => t.rd F.ROOK_STATUS_BOOT = 2 ∧ t.flag F.ROOK_STATUS_RK_COPY = false ∧
        t.rook.rookDigest = v0.digest.toNat ∧ t.rd F.ROOK_SVN_ROOK = Nat.max (m.rd F.ROOK_SVN_ROOK) (Nat.min 63 v0.version.toNat) % 2 ^ F.ROOK_SVN_ROOK.width) ∧
      (ok F.ROOK_SVN_ROOK v0 = false → ok F.ROOK_SVN_ROOK v1 = true → Does (.rookFirmwareVerified v0 v1) s fun t => t.rd F.ROOK_STATUS_BOOT = 2 ∧
        t.flag F.ROOK_STATUS_RK_COPY = true ∧ t.flag F.ROOK_ALERT_VERIFY_FAIL = true ∧ t.rd F.ROOK_ALERT_REASON = (if v0.sigOk then 2 else 1)) ∧
      (ok F.ROOK_SVN_ROOK v0 = false → ok F.ROOK_SVN_ROOK v1 = false → Does (.rookFirmwareVerified v0 v1) s fun t => t.rd F.ROOK_STATUS_BOOT = 7 ∧
        t.phase.spineUp = false)) ∧
    (boot ≠ 2 → stays (.sheepdogStart v0 v1)) ∧
    (boot = 2 → ¬ empty (slot first) → ok F.ROOK_SVN_SHEEPDOG (if first then v1 else v0) = true → Does (.sheepdogStart v0 v1) s fun t =>
      t.rd F.ROOK_STATUS_BOOT = 3 ∧ t.rd F.MBX_STATE_STATE = 1 ∧ t.runB = first ∧ t.phase.sheepdogUp = true ∧ t.flag F.ROOK_STATUS_SD_SLOT = first ∧
      t.trialWait = ((slot first).st == .trial)) ∧
    (boot = 2 → empty (slot false) → empty (slot true) → Does (.sheepdogStart v0 v1) s fun t => t.rd F.ROOK_STATUS_BOOT = 7 ∧ t.rd F.MBX_STATE_STATE = 4) ∧
    -- t5
    (boot ≠ 3 ∨ ph.t5done = true → stays (.carrierDescriptorRead reads verdicts)) ∧
    (boot = 3 → ph.t5done = false → Does (.carrierDescriptorRead reads verdicts) s fun t => t.phase.t5done = true ∧ t.phase.t5 = m.mono ∧
      (m.flag F.CAR_STATUS_DESC_OK = false → m.rd F.CAR_STATUS_DESC_ERR = 0 → t.rd F.CAR_STATUS_DESC_ERR = descErr (descRead reads) ∧
        t.flag F.CAR_STATUS_DESC_OK = decide (descErr (descRead reads) = 0)) ∧
      (t.phase.claimWait, t.rd F.TWIN_STATUS_ROLE) = (if m.twin.removed then (false, 3) else if t.flag F.CAR_STATUS_TWIN = false then (false, 0)
        else if t.flag F.TWIN_STATUS_PEER_PRES = false then (false, 1) else if t.flag F.TWIN_STATUS_PEER_CLAIM then (false, 2)
        else if t.flag F.CAR_STATUS_POSITION = false then (false, 1) else (true, 2))) ∧
    (ph.claimWait = true → Does .position1ClaimTimeout s fun t => t.mono = Nat.max m.mono (ph.t5 + 250000000) ∧ t.rd F.TWIN_STATUS_ROLE = 1 ∧
      t.phase.claimWait = false ∧ OnlyRegs [(.TWIN_STATUS, 0)] m t) ∧
    (ph.claimWait = false → stays .position1ClaimTimeout) ∧
    -- lamb service, full service
    (boot ≠ 3 ∨ ph.t5done = false → stays .lambService) ∧
    (boot = 3 → ph.t5done = true → Does .lambService s fun t => t.rd F.MBX_STATE_STATE = 2 ∧
      t.rd F.ROOK_STATUS_BOOT = (if m.flag F.MEM_STATUS_READY then 5 else 4) ∧
      (asked ≠ 0 → m.rgnHeld (keyHome (regKey .PORT_MODE port)) = false →
        t.rd F.PORT_MODE_MODE port = (if asked = 3 then 2 else if asked = 1 then 0 else asked)) ∧
      (src = 3 ∨ src = 4 → t.rd F.TB_CTRL_SRC = src)) ∧
    (boot ≠ 5 ∨ ph.checked = true → stays .codeSectorCheck) ∧
    (boot = 5 → ph.checked = false → Does .codeSectorCheck s fun t =>
      t = { m with phase := { ph with checked := true, reprogram := m.badSectors.map (fun x => (x.1, x.2.1)) } }) ∧
    (ph.reprogram.contains (g.val, sector.val) = false ∨ m.twin.loss ≠ none → stays (.sectorReprogramDone g sector)) ∧
    (ph.reprogram.contains (g.val, sector.val) = true → m.twin.loss = none → Does (.sectorReprogramDone g sector) s fun t =>
      (g.val, sector.val) ∉ t.phase.reprogram) ∧
    (boot ≠ 5 ∨ ph.checked = false ∨ ph.reprogram ≠ [] ∨ m.flag F.MEM_STATUS_READY = false → stays .fullService) ∧
    (boot = 5 → ph.checked = true → ph.reprogram = [] → m.flag F.MEM_STATUS_READY = true →
      -- no core or matrix engine that it may switch off has a store of its own under way
      (∀ k, k < 32 → (m.core k).sb = []) → (∀ k, k < 4 → m.mxJob k = none) → Does .fullService s fun t =>
      ∃ x y, t = x.clocksCommit y ∧ (x.clks = [] → t = x) ∧ x.rd F.ROOK_STATUS_BOOT = 6 ∧ x.phase.full = true ∧
      x.rd F.MBX_STATE_STATE = (if m.rd F.MBX_STATE_STATE = 2 then 3 else m.rd F.MBX_STATE_STATE) ∧
      (∀ n, ph.slot = some n → x.phase.back = false ∧ x.cfg.gateDue.map GateDue.slot = some n) ∧
      (m.corr = 0 → m.acc = 0 → m.freqAdj = 0 → x.now = nextMultiple 100000 m.now) ∧
      ∀ (r : Reg) (i : Nat), r.stMask ≠ 0 → atF.rgnHeld (keyHome (regKey r i)) = false → Tbl.look atF.parked (regKey r i) = none →
        x.reg r i &&& r.stMask = atF.startView.stagedReg r i &&& r.stMask)

/-- A watched change is logged; a silent Sheepdog is MBX_STATE 4 with no lock, restarted once where AUTORESTART asks; the keeper takes TB_NOW at each
full second of full service and is invalid once lost; a closed session's relays and lock go; a Goose restart closes every session. A message without a
session ends with NOSESSION, a control message on the UART with BADOP, one whose unit is down with STATE; STATUS, LOG_READ, TIME_GET, REG_READ,
SIG_READ, ATTEST answer; TIME_SET, POWER, RESET need the token where a lock can exist; RELAY needs lamb or full service; FW_RECOVER needs MBX_STATE 4.
A challenge is used up by its token; a good one sets the scope to its end, a bad one is DBG_REFUSED; debug acts on cores under scope 2, else it is
refused. A signed lifecycle arrow sets the state and the owner's digest, erases slots on RETURNED, and stops the module on DECOMMISSIONED. The model's choices in this: a control message on the UART answers BADOP, TIME_SET
under LOCKED answers STATE, the lock is freed when the Sheepdog goes silent (log entry 66), and a token that fails uses up the challenge (log entry 67). -/
def Obligations.GooseAndRookServeTheSideBand : Prop :=
  ∀ (s : State) (what : Watch) (ok lost wide on isSig : Bool) (sess : SbId) (seq : SbHead) (major minor : BitVec 8) (token : BitVec 32) (image : List Byte) (t0 : BitVec 64)
      (off : BitVec 28) (ids : List (BitVec 26)) (cmd pay : List Byte) (v : Verdict) (rgn : RegionId) (nonce : BitVec 256) (tok : DbgToken)
      (m2 m3 : Mod) (k val : Nat) (e : List Byte) (c : CoreId) (a : BitVec 64) (n : Fin 9) (d : List Byte) (dest : Lifecycle) (owner : BitVec 256) (gat : Gather),
    let m := s.mod
    let x := cmdOf 4 seq.toNat sess cmd pay
    let up := m.phase.gooseUp
    let stays := fun (i : Instr) => Does i s fun t => t = m
    let answers := fun (ty st : Nat) (p : List Byte) (t : Mod) => t = m.emit (.sideband sess ty seq.toNat st p)
    let hears := m.sbHears sess seq = true ∧ seq.unknown = none
    let msg := fun (i : Instr) (ty : Nat) (control : Bool) (need : Need) =>
      (m.sbHears sess seq = false → stays i) ∧
      (∀ x, m.sbHears sess seq = true → seq.unknown = some x →
        Does i s (answers x (if m.goose.sessions.contains sess.val then stBADOP else stNOSESSION) [])) ∧
      (hears → m.goose.sessions.contains sess.val = false → Does i s (answers ty stNOSESSION [])) ∧
      (hears → m.goose.sessions.contains sess.val = true → (control && sess.val == 0) = true → Does i s (answers ty stBADOP [])) ∧
      (hears → m.goose.sessions.contains sess.val = true → (control && sess.val == 0) = false → m.sbUp need = false → Does i s (answers ty stSTATE []))
    let served := fun (control : Bool) (need : Need) => hears ∧ m.goose.sessions.contains sess.val = true ∧ (control && sess.val == 0) = false ∧ m.sbUp need = true
    let noTok := m.sbToken sess token.toNat = false
    let isTok := m.sbToken sess token.toNat = true
    let kept := m.flag F.TB_STATUS_LOCKED && m.tbSrc != 0
    let good := m.rookReason F.ROOK_SVN_SHEEPDOG v true = 0
    let head := fun (ty st : Nat) (t : Mod) => ∃ p, t.sent.head? = some (.sideband sess ty seq.toNat st p)
    let tokenDone := fun (t : Mod) => t.rook.chal = none ∧
      (m.tokenGood tok = true → t.rd F.ROOK_DBG_SCOPE = tok.scope.toNat ∧ t.rook.dbgEnd = some (m.mono + tok.seconds.toNat * 1000000000)) ∧
      (m.tokenGood tok = false → t.flag F.ROOK_ALERT_DBG_REFUSED = true ∧ t.rd F.ROOK_DBG_SCOPE = m.rd F.ROOK_DBG_SCOPE ∧ t.rook.dbgEnd = m.rook.dbgEnd)
    let refused := fun (t : Mod) => t.sent.head? = some (.debug [] true) ∧ t.cores = m.cores ∧ t.mem = m.mem
    let acts := fun (f : Core → Core) (t : Mod) => t = (m.setCore c (f (m.core c))).emit (.debug [] false)
    let does := fun (i : Instr) (f : Core → Core) => m.phase.spineUp = true →
      (m.rd F.ROOK_DBG_SCOPE = 2 → Does i s (acts f)) ∧ (m.rd F.ROOK_DBG_SCOPE ≠ 2 → Does i s refused)
    -- watch and time keeper
    (up = false → stays (.gooseWatchChange what)) ∧
    (up = true → Does (.gooseWatchChange what) s fun t => t.goose.log.getLast? = some ⟨m.goose.keeper, .watch what⟩ ∧
      (what = .feedA ok → t.flag F.GOOSE_STATUS_FEED_A = ok) ∧ (what = .feedB ok → t.flag F.GOOSE_STATUS_FEED_B = ok)) ∧
    ((!m.phase.sheepdogUp || m.rd F.MBX_STATE_STATE == 4) = true → stays .sheepdogHeartbeatTimeout) ∧
    (m.phase.sheepdogUp = true → m.rd F.MBX_STATE_STATE ≠ 4 → m.rd F.FLT_DEV_ACT_ACT = 0 → Does .sheepdogHeartbeatTimeout s fun t => t.lock = {} ∧
      t.twin.faultNext = true ∧ t.rd F.MBX_STATE_STATE = (if m.flag F.GOOSE_CTRL_AUTORESTART && !m.goose.restarted then 5 else 4)) ∧
    (m.phase.full = true → Does .timeKeeperSecond s fun t => t.goose.keeper = t.now ∧ t.regs = m.regs) ∧
    (m.phase.full = false → stays .timeKeeperSecond) ∧
    ((m.flag F.PWR_FEED_A_OK || m.flag F.PWR_FEED_B_OK) = true → stays .timeKeeperCountLost) ∧
    ((m.flag F.PWR_FEED_A_OK || m.flag F.PWR_FEED_B_OK) = false → Does .timeKeeperCountLost s fun t => t.goose.keeper = 0 ∧ t.goose.invalid = true ∧
      t.flag F.GOOSE_STATUS_TIME_INVALID = true) ∧
    (m.goose.sessions.contains sess.val = false → stays (.sidebandSessionClose sess)) ∧
    (m.goose.sessions.contains sess.val = true → Does (.sidebandSessionClose sess) s fun t => sess.val ∉ t.goose.sessions ∧
      (∀ x ∈ t.relays, x.sess ≠ sess.val) ∧ (m.lock.holder = 5 → m.lock.sess = sess → t.lock = {})) ∧
    (Does (.gooseRestart lost) s fun t => (∀ x, x < 5 → x ∉ t.goose.sessions) ∧ t.lock.holder ≠ 5 ∧ t.goose.keeper = m.goose.keeper ∧ (t.session 4).isOpen = false ∧
      (lost = true → t.goose.log = [] ∧ t.goose.lost = 0 ∧ t.reg .GOOSE_CTRL 0 = Reg.resetVal .GOOSE_CTRL 0)) ∧
    -- messages
    (m.sbAccepts sess seq = false → stays (.hello sess major minor seq)) ∧
    (m.sbAccepts sess seq = true → seq.unknown = none → major ≠ 1 → Does (.hello sess major minor seq) s (answers 0x01 stVERSION [])) ∧
    (m.sbAccepts sess seq = true → seq.unknown = none → major = 1 → Does (.hello sess major minor seq) s fun t => sess.val ∈ t.goose.sessions ∧
      t.sent.head? = some (.sideband sess 0x01 seq.toNat stOK [1, 0])) ∧
    msg (.status sess seq) 0x02 false .nothing ∧ msg (.logRead sess seq) 0x03 false .nothing ∧ msg (.sidebandTimeGet sess seq) 0x04 false .nothing ∧
    msg (.timeSet sess seq token t0) 0x05 true .nothing ∧ msg (.sidebandRegRead sess seq off wide) 0x06 false .main ∧
    msg (.sidebandSigRead sess seq ids) 0x07 false .main ∧ msg (.relay sess seq cmd pay v) 0x08 true .main ∧ msg (.power sess seq token on) 0x09 true .nothing ∧
    msg (.reset sess seq token (some rgn)) 0x0A true .nothing ∧ msg (.reset sess seq token none) 0x0A true .nothing ∧
    msg (.fwRecover sess seq image v) 0x0B true .spine ∧ msg (.attest sess seq nonce) 0x0C false .spine ∧ msg (.debugAuth sess seq none) 0x0D true .spine ∧
    msg (.debugAuth sess seq (some tok)) 0x0D true .spine ∧
    (served false .nothing →
      Does (.status sess seq) s (answers 0x02 stOK m.sbStatus) ∧
      Does (.logRead sess seq) s (fun t => t.goose.log = m.goose.log.drop 16 ∧ t.goose.lost = 0 ∧ t.regs = m.regs ∧ head 0x03 stOK t) ∧
      Does (.sidebandTimeGet sess seq) s (answers 0x04 stOK (leBytes 8 m.goose.keeper ++ (if m.phase.spineUp then leBytes 8 m.now else [])))) ∧
    (served true .nothing →
      (noTok → Does (.timeSet sess seq token t0) s (answers 0x05 stNOLOCK []) ∧ Does (.power sess seq token on) s (answers 0x09 stNOLOCK []) ∧
        Does (.reset sess seq token none) s (answers 0x0A stNOLOCK []) ∧ Does (.reset sess seq token (some rgn)) s (answers 0x0A stNOLOCK [])) ∧
      (m.noLock = true → Does (.timeSet sess seq token t0) s fun t => t.goose.keeper = t0.toNat ∧ t.goose.invalid = false ∧ t.now = m.now ∧ head 0x05 stOK t) ∧
      (m.noLock = false → isTok → kept = true → Does (.timeSet sess seq token t0) s fun t => t.goose.keeper = m.goose.keeper ∧ head 0x05 stSTATE t) ∧
      (m.noLock = false → isTok → kept = false → Does (.timeSet sess seq token t0) s fun t => t.goose.keeper = t0.toNat ∧ t.goose.invalid = false ∧
        head 0x05 stOK t) ∧
      (isTok → Does (.power sess seq token true) s (fun t => t = { m.emit (.sideband sess 0x09 seq.toNat stOK []) with phase := { m.phase with held := false } }) ∧
        Does (.power sess seq token false) s (fun t => t.phase.held = true ∧ t.phase.spineUp = false ∧ t.phase.sheepdogUp = false ∧
          t.flag F.TWIN_STATUS_CLAIM = false) ∧
        (m.phase.spineUp = false → Does (.reset sess seq token (some rgn)) s (answers 0x0A stOK [])) ∧
        (m.phase.spineUp = true → m.rgnDown rgn = false → Does (.reset sess seq token (some rgn)) s fun t => t.rd (F.FLT_RGN_STATE_STATE rgn) = 2 ∧
          Tbl.get 0 t.rgnPhase rgn = 1) ∧
        (m.flag F.PWR_THR_STATUS_CRITICAL = false → Does (.reset sess seq token none) s fun t => t.phase.spineUp = false ∧
          t.rd F.ROOK_STATUS_BOOT = 1))) ∧
    (served false .main →
      (m.passGate ⟨33, false, 0, 0, regBase + off.toNat, if wide then 8 else 4, .load⟩ = (m2, some k) → Does (.sidebandRegRead sess seq off wide) s fun t =>
        t = m2.emit (.sideband sess 0x06 seq.toNat stACCESS (leBytes 4 k))) ∧
      (m.passGate ⟨33, false, 0, 0, regBase + off.toNat, if wide then 8 else 4, .load⟩ = (m2, none) → m2.regLoad 33 off.toNat (if wide then 8 else 4) = (m3, val) →
        Does (.sidebandRegRead sess seq off wide) s fun t => t = m3.emit (.sideband sess 0x06 seq.toNat stOK (leBytes 8 val))) ∧
      (ids.length = 0 ∨ 32 < ids.length → Does (.sidebandSigRead sess seq ids) s (answers 0x07 stBADARG [])) ∧
      (ids.length ≠ 0 → ids.length ≤ 32 → m.gatherBegin (.mailbox 5) (some ⟨5, seq.toNat, 0, 0, true, 0, 0, 1024, 0, sess⟩)
        (((ids.map BitVec.toNat).filterMap (sigPlace false)).map (fun q => (q.1 * 2 ^ 52 + recAddr q.2.1 q.2.2, 32, 0))) 33 = (m2, .ok gat) →
        gat.cmd = some ⟨5, seq.toNat, 0, 0, true, 0, 0, 1024, 0, sess⟩ → gat.all = some e → e.length ≤ 1024 →
        Does (.sidebandSigRead sess seq ids) s fun t => t = m2.emit (.sideband sess 0x07 seq.toNat stOK e))) ∧
    (served true .main →
      (m.rd F.MBX_STATE_STATE ≠ 2 → m.rd F.MBX_STATE_STATE ≠ 3 → Does (.relay sess seq cmd pay v) s (answers 0x08 stSTATE [])) ∧
      (m.rd F.MBX_STATE_STATE = 2 ∨ m.rd F.MBX_STATE_STATE = 3 → m.relays ≠ [] → Does (.relay sess seq cmd pay v) s fun t =>
        t = { m with relays := m.relays ++ [⟨sess, seq.toNat, cmd, pay⟩] }) ∧
      (m.rd F.MBX_STATE_STATE = 2 ∨ m.rd F.MBX_STATE_STATE = 3 → m.relays = [] → m.mayBegin 4 = true → m.turn 4 = true → m.twin.loss = none →
        x.lc.opcode = 3 → m.barred x (moreFaults 3 m x) = none →
        Does (.relay sess seq cmd pay v) s fun t => t = { m with served := 4 }.complete x.lc { resp := x.payload })) ∧
    (served true .spine →
      (m.rd F.MBX_STATE_STATE ≠ 4 → Does (.fwRecover sess seq image v) s (answers 0x0B stSTATE [])) ∧
      (m.rd F.MBX_STATE_STATE = 4 → good → m.phase.sheepdogUp = false → Does (.fwRecover sess seq image v) s fun t => t.rd F.ROOK_STATUS_BOOT = 2 ∧
        t.fwIdle = ⟨.trial, (Config.fwVersion image).toNat, v.version.toNat, v.digest.toNat, image⟩ ∧ head 0x0B stOK t) ∧
      (m.rd F.MBX_STATE_STATE = 4 → ¬ good → Does (.fwRecover sess seq image v) s fun t => t.flag F.ROOK_ALERT_VERIFY_FAIL = true ∧ head 0x0B stVERIFY t) ∧
      Does (.debugAuth sess seq none) s (fun t => t.rook.chal.isSome = true ∧ t.freeCtr = m.freeCtr + 1 ∧ head 0x0D stOK t) ∧
      Does (.debugAuth sess seq (some tok)) s (fun t => tokenDone t ∧ head 0x0D (if m.tokenGood tok then stOK else stVERIFY) t)) ∧
    (served false .spine →
      (m.rook.life = .decommissioned → Does (.attest sess seq nonce) s (answers 0x0C stSTATE [])) ∧
      (m.rook.life ≠ .decommissioned → m.evidence nonce.toNat = (m2, e) → Does (.attest sess seq nonce) s fun t =>
        t = { m with freeCtr := m.freeCtr + 1 }.emit (.sideband sess 0x0C seq.toNat stOK e))) ∧
    -- debug
    (m.sbUp .spine = false → stays .debugChallengeRead ∧ stays (.debugToken tok)) ∧
    (m.sbUp .spine = true → Does .debugChallengeRead s (fun t => t.rook.chal.isSome = true ∧ t.freeCtr = m.freeCtr + 1) ∧ Does (.debugToken tok) s tokenDone) ∧
    (m.rook.dbgEnd = none → stays .debugAuthExpiry) ∧
    (m.rook.dbgEnd = some k → Does .debugAuthExpiry s fun t => t.rd F.ROOK_DBG_SCOPE = 0 ∧ t.rook.dbgEnd = none ∧ t.mono = Nat.max m.mono k) ∧
    (m.phase.spineUp = false → stays (.debugAccess (.halt c)) ∧ stays (.debugAccess (.load a n)) ∧ stays (.debugAccess (.store a d))) ∧
    does (.debugAccess (.halt c)) (fun x => { x with debugHalt := true, debugStep := false, copy := none }) ∧
    does (.debugAccess (.resume c)) (fun x => { x with debugHalt := false, debugStep := false }) ∧
    does (.debugAccess (.step c)) (fun x => { x with debugStep := x.debugHalt }) ∧
    (m.phase.spineUp = true →
      (n ≠ 0 → m.passGate ⟨55, false, 0, 0, a.toNat, n, .load⟩ = (m2, some k) → Does (.debugAccess (.load a n)) s refused) ∧
      (n ≠ 0 → m.passGate ⟨55, false, 0, 0, a.toNat, n, .load⟩ = (m2, none) → Does (.debugAccess (.load a n)) s fun t =>
        t = (m2.loadAs 55 a.toNat n).1.emit (.debug (m2.loadAs 55 a.toNat n).2.data false)) ∧
      (d ≠ [] → d.length ≤ 8 → m.passGate ⟨55, false, 0, 0, a.toNat, d.length, .store⟩ = (m2, none) → Does (.debugAccess (.store a d)) s fun t =>
        t = (m2.storeAs 55 a.toNat d []).emit (.debug [] false)) ∧
      ((m.flag F.CAR_STATUS_DESC_OK || m.rd F.ROOK_DBG_SCOPE != 2) = true → Does (.debugAccess .extest) s refused) ∧
      ((m.flag F.CAR_STATUS_DESC_OK || m.rd F.ROOK_DBG_SCOPE != 2) = false → Does (.debugAccess .extest) s fun t => t = m.emit (.debug [] false))) ∧
    -- lifecycle
    (m.sbUp .spine = false ∨ lifeArrow m.rook.life dest = false → stays (.lifecycleTransition dest owner isSig)) ∧
    (m.sbUp .spine = true → lifeArrow m.rook.life dest = true →
      Does (.lifecycleTransition dest owner false) s (fun t => t.rook.life = m.rook.life ∧ t.flag F.ROOK_ALERT_VERIFY_FAIL = true ∧ t.rd F.ROOK_ALERT_REASON = 1) ∧
      Does (.lifecycleTransition dest owner true) s fun t => t.rook.life = dest ∧ t.rd F.ROOK_STATUS_LIFECYCLE = lifeCode dest ∧ t.rd F.ROOK_DBG_SCOPE = 0 ∧
        (dest ≠ .decommissioned → t.flag F.ROOK_STATUS_OWNER = (dest == .owned) ∧
          ∀ x, x < 8 → t.rd F.ROOK_OWNER_DIGEST x = if dest = .owned then bitsOf owner.toNat (32 * x) 32 else 0) ∧
        (dest = .returned → ∀ x, x < 8 → t.slotState x = 0) ∧
        (dest = .decommissioned → t.rd F.ROOK_STATUS_BOOT = 7 ∧ t.phase.spineUp = false))

/-- Presence made shows in PRES_A and PRES_B. A loss of presence or feeds of a powered module in none is logged; a primary with a ready standby sets
RELEASE, and any other module's outputs stop with lost presence, also lost after the feeds; 1 ms later a primary whose standby has not claimed stops
its own; the end of hold-up powers the module down, its Goose but with both feeds gone. A claim ends 30 us after the last heartbeat sent; a peer's
claim lost for 2 us makes a ready standby take over at the first grid instant 5 us ahead; a peer's claim makes a primary that has let go give up its
role. Heartbeats are numbered, leave with nothing waiting and a credit at hand, and retrigger a primary's claim; a standby acknowledges a proposal
before H - 2 us, and the acknowledgement fixes H; silence for 31 us is LOSS. A proposal or request that loses its standby, peer or heartbeats is
REFUSED with REASON 1, 2, or at a standby what bars it. A standby takes mirrored lines and passes; a primary's pass ends unfinished at a refused line;
synchronisation goes through SYNC 1 or 2 to 3 with READY. A castling that nothing bars is proposed, else REFUSED with REASON; the standby claims at
H - 2 us, the primary gives up claim and role, at H the standby is primary, then CASTLED with TWIN_LAST_H. The eject switch sets EJECT_REQ and, held
for 5 s with no castling asked for or agreed, leads to removal; so does REMOVE at once, after CASTLED where a castling is agreed; CANCEL_EJECT
clears the request. So each command named in the Lean completes with its effect where its condition holds, and changes nothing where it does not. The model's choices: the end of a proposal, the REASON at a standby, H of a primary that has let go as
the first grid instant from 2 us after the peer's claim, REMOVE put off by an agreed castling (log entry 70); readiness up to a claim's fall, a
synchronisation without an image (69); a command outside its condition that changes nothing (11). -/
def Obligations.TwinsMirrorAndCastle : Prop :=
  ∀ (s : State) (b asserted present : Bool) (l0 : Bool × Nat) (t0 h k : Nat) (hb : Heartbeat) (x : MirrorMsg) (a : BitVec 52) (line : BitVec 512) (m2 : Mod)
      (scores im : List Byte) (slot : SlotId) (v : Verdict) (w : Writer) (n : BitVec 32),
    let m := s.mod
    let tw := m.twin
    let role := m.rd F.TWIN_STATUS_ROLE
    let linkUp := m.flag F.TWIN_STATUS_LINK_UP
    let ready := m.flag F.TWIN_STATUS_READY
    let stays := fun (i : Instr) => Does i s fun t => t = m
    let dropped := m.put (if b then F.CAR_STATUS_PRES_B else F.CAR_STATUS_PRES_A) 0 false
    let sender := (tw.hbLast.map (fun y => m.toMono (y + 10000))).getD m
    let takes := m.isStandby = true ∧ linkUp = true
    let lostFor := fun (reason : Nat) (t : Mod) => t.twin.propose = none ∧ t.twin.asked = none ∧ t.twin.castleOnEject = false ∧
      t.flag F.TWIN_STATUS_REFUSED = true ∧ t.rd F.TWIN_STATUS_REASON = reason
    let denied := { m with twin := { tw with asked := none } }.castleBar h
    let agreedNow := tw.agreed.isSome && !tw.byLoss
    let storeLine := (m.fromTwin 3 2).passGate ⟨56, false, 0, m.peerNode, a.toNat, 64, .store⟩
    let syncs := m.phase.full && linkUp && m.rd F.TWIN_STATUS_SYNC == 0
    let total := ((upTo 8).map (fun i => m.rd F.TWIN_MIR_LEN_LEN i)).sum
    let passes := role == 1 && m.flag F.TWIN_CTRL_MIR_EN && linkUp && tw.pass.isNone && (m.slotComing (m.rd F.TWIN_CTRL_MSLOT)).isSome
    let bar := m.castleBar (m.rd F.TWIN_CASTLE_AT_TIME)
    let kept := if m.phase.spineUp then m.now else m.goose.keeper
    -- presence and feeds
    (Does .presenceMate s fun t => t.flag F.CAR_STATUS_PRES_A = true ∧ t.flag F.CAR_STATUS_PRES_B = true ∧ OnlyRegsChange [(.CAR_STATUS, 0)] m t) ∧
    (m.phase.powered = false ∨ tw.loss.any (·.1) = true → Does (.presenceLoss b) s fun t => t = dropped) ∧
    ((tw.loss.isSome || !m.phase.powered) = true → stays .feedLoss) ∧
    (m.phase.powered = true → tw.loss = some (false, t0) → Does (.presenceLoss b) s fun t => t.twin.loss = some (true, t0) ∧ t.goose.log = m.goose.log ∧
      (role ≠ 1 ∨ tw.release = false → ∀ p : PortId, (t.port p).driving = false)) ∧
    ((tw.loss.isSome || !m.phase.powered) = false →
      Does (.presenceLoss b) s (fun t => t.twin.loss = some (true, m.mono) ∧ t.goose.log.getLast? = some ⟨kept, .loss⟩ ∧
        t.flag (if b then F.CAR_STATUS_PRES_B else F.CAR_STATUS_PRES_A) = false ∧ (role ≠ 1 ∨ ready = false → ∀ p : PortId, (t.port p).driving = false)) ∧
      Does .feedLoss s fun t => t.twin.loss = some (false, m.mono) ∧ t.goose.log.getLast? = some ⟨kept, .loss⟩ ∧ t.goose.keeper = kept ∧
        (role = 1 → ready = true → t.twin.release = true)) ∧
    (tw.loss = none → stays .lossStandbyTimeout ∧ stays .holdupEnd) ∧
    (tw.loss = some l0 →
      Does .lossStandbyTimeout s (fun t => t.mono = Nat.max m.mono (l0.2 + 1000000) ∧ (role ≠ 1 ∨ m.flag F.TWIN_STATUS_PEER_CLAIM = true → t.regs = m.regs) ∧
        (role = 1 → m.flag F.TWIN_STATUS_PEER_CLAIM = false → ∀ p : PortId, (t.port p).driving = false)) ∧
      Does .holdupEnd s fun t => t.phase = { gooseUp := (m.flag F.PWR_FEED_A_OK || m.flag F.PWR_FEED_B_OK) && m.phase.gooseUp } ∧ t.panel = {} ∧ t.ports = [] ∧ t.lock = {} ∧ t.twin = {} ∧ t.flag F.TWIN_STATUS_CLAIM = false ∧
        t.flag F.CAR_STATUS_PRES_A = m.flag F.CAR_STATUS_PRES_A ∧ t.flag F.CAR_STATUS_PRES_B = m.flag F.CAR_STATUS_PRES_B ∧
        t.rd F.ROOK_STATUS_LIFECYCLE = lifeCode m.rook.life) ∧
    -- claims
    (tw.hbLast = none ∨ m.flag F.TWIN_STATUS_CLAIM = false → stays .twinClaimTimeout) ∧
    (tw.hbLast = some t0 → m.flag F.TWIN_STATUS_CLAIM = true → Does .twinClaimTimeout s fun t => t.flag F.TWIN_STATUS_CLAIM = false ∧
      t.mono = Nat.max m.mono (t0 + 30000)) ∧
    (m.flag F.TWIN_STATUS_PEER_CLAIM = asserted → stays (.peerClaimChange asserted)) ∧
    (m.flag F.TWIN_STATUS_PEER_CLAIM ≠ asserted → Does (.peerClaimChange asserted) s fun t => t.flag F.TWIN_STATUS_PEER_CLAIM = asserted ∧
      t.twin.peerFell = (if asserted then none else some m.mono) ∧
      t.twin.agreed = (if asserted && m.isStandby && tw.byLoss && !tw.claimed then none
        else if asserted && m.letGo then some (m.firstGrid (m.now + 2000)) else tw.agreed) ∧
      (asserted = true → m.letGo = true → t.rd F.TWIN_STATUS_ROLE = 2 ∧ t.flag F.TWIN_STATUS_CLAIM = false ∧ t.twin.handed = true)) ∧
    (tw.peerFell = none ∨ m.flag F.TWIN_STATUS_PEER_CLAIM = true → stays .peerClaimLostTakeover) ∧
    (tw.peerFell = some t0 → m.flag F.TWIN_STATUS_PEER_CLAIM = false → Does .peerClaimLostTakeover s fun t => t.twin.peerFell = none ∧
      t.mono = Nat.max m.mono (t0 + 2000) ∧ t.twin.agreed = (if m.isStandby && (ready || m.readyToFall) && tw.agreed.isNone then some (m.firstGrid (t.now + 5000)) else tw.agreed)) ∧
    (present = true ∨ (tw.propose = none ∧ tw.asked = none) → Does (.peerPresenceChange present) s fun t => t = m.put F.TWIN_STATUS_PEER_PRES 0 present) ∧
    (present = false → tw.propose ≠ none ∨ tw.asked ≠ none → Does (.peerPresenceChange present) s fun t => t.flag F.TWIN_STATUS_PEER_PRES = false ∧
      lostFor 1 t) ∧
    -- heartbeats
    (sender.beats = false → Does .heartbeatSend s fun t => t = sender) ∧
    (sender.beats = true → Does .heartbeatSend s fun t => t.twin.hbSeq = tw.hbSeq + 1 ∧ t.twin.hbLast = some sender.mono ∧
      (linkUp = false ∨ m.twinLink = none → t.sent = m.sent) ∧
      (linkUp = true → ∀ lt, m.twinLink = some lt → FreeLink m lt → t.sent = .heartbeat sender.heartbeatOf :: m.sent) ∧ (role = 1 → t.flag F.TWIN_STATUS_CLAIM = true) ∧
      OnlyRegs [(.TWIN_STATUS, 0)] m t) ∧
    (linkUp = false → stays (.heartbeat hb)) ∧
    (linkUp = true → Does (.heartbeat hb) s fun t => t.twin.hbRecv = some m.mono ∧
      (role = 1 → hb.role = 2 → t.flag F.TWIN_STATUS_READY = hb.ready ∧
        (tw.propose = some h → hb.castle = false → hb.ack = true → t.twin.agreed = some h ∧ t.twin.propose = none) ∧
        (tw.propose = some h → hb.castle = false → hb.ack = false → hb.ready = false ∨ h ≤ m.now → lostFor 2 t)) ∧
      (role = 2 → hb.role = 1 →
        (hb.castle = true → ready = true → tw.agreed = none → m.now + 2000 ≤ hb.h.toNat → t.twin.agreed = some hb.h.toNat ∧ t.twin.ackNext = true) ∧
        (hb.castle = false → hb.release = true → ready = true → tw.agreed = none → t.twin.agreed = some (m.firstGrid (m.now + 5000))) ∧
        (hb.castle = false → hb.release = false → tw.asked = some (k, h) → 2 ≤ k → lostFor (if denied = 0 then 3 else denied) t))) ∧
    (tw.hbRecv = none → stays .heartbeatLoss) ∧
    (tw.hbRecv = some t0 → Does .heartbeatLoss s fun t => t.flag F.TWIN_STATUS_LOSS = true ∧ t.flag F.TWIN_STATUS_READY = false ∧ t.twin.hbRecv = none ∧
      t.mono = Nat.max m.mono (t0 + 31000) ∧ (tw.propose ≠ none ∨ tw.asked ≠ none → lostFor 2 t)) ∧
    -- mirror and synchronisation
    (linkUp = false → stays (.mirror x)) ∧
    (linkUp = true → m.isStandby = false → Does (.mirror x) s fun t => t = m.fromTwin 3 (match x with
      | .line _ _ => 2
      | _ => 1)) ∧
    (takes →
      (storeLine = (m2, none) → Does (.mirror (.line a line)) s fun t => t = m2.storeAs 56 a.toNat (leBytes 64 line.toNat) []) ∧
      (storeLine = (m2, some k) → Does (.mirror (.line a line)) s fun t => t.twin.passGood = false ∧ t.mem = m.mem) ∧
      Does (.mirror (.passEnd n)) s (fun t => t.twin.passGood = true ∧ t.rd F.TWIN_MIR_PASS_PASS = (if tw.passGood then n.toNat else m.rd F.TWIN_MIR_PASS_PASS)) ∧
      Does (.mirror .full) s fun t => t = { m.fromTwin 3 1 with twin := { tw with fullSeen := true } }) ∧
    (syncs = false → stays .twinSyncStart) ∧
    (syncs = true → m.isStandby = true → Does .twinSyncStart s fun t => t.rd F.TWIN_STATUS_SYNC = 1 ∧ t.twin.passSeen = false ∧ t.twin.fullSeen = false) ∧
    (syncs = true → role = 1 → m.cfg.probation = none → m.cfg.commit = none → Does .twinSyncStart s fun t => t.rd F.TWIN_STATUS_SYNC = 2 ∧
      OnlyRegs [(.TWIN_STATUS, 0)] m t) ∧
    ((!m.isStandby || m.rd F.TWIN_STATUS_SYNC != 1 || !linkUp || tw.loss.isSome) = true → stays (.twinSyncCommit scores im slot v)) ∧
    ((!m.isStandby || m.rd F.TWIN_STATUS_SYNC != 1 || !linkUp || tw.loss.isSome) = false →
      (im ≠ [] → m.rookConfig im false v = (m2, k + 1) → Does (.twinSyncCommit scores im slot v) s fun t => t = m2) ∧
      (im = [] → Does (.twinSyncCommit scores im slot v) s fun t => t.cfg.history = [] ∧ (∀ y, y < 8 → t.slotState y = 0) ∧
        t.flag F.CFG_STATUS_COMMIT_PENDING = true ∧ ∃ y, t.cfg.commit = some y ∧ y.kind = .sync ∧ y.slot = 8 ∧ y.at_ = some (nextMultiple 100000 m.now)) ∧
      (im ≠ [] → m.rookConfig im false v = (m2, 0) → Does (.twinSyncCommit scores im slot v) s fun t => t.cfg.history = [] ∧ t.slotState slot = 1 ∧
        t.image slot = im ∧ (∀ y, y < 8 → y ≠ slot.val → t.slotState y = 0) ∧ t.flag F.CFG_STATUS_COMMIT_PENDING = true ∧ ∃ y, t.cfg.commit = some y ∧
        y.kind = .sync ∧ y.slot = slot ∧ y.at_ = some (nextMultiple 100000 m.now))) ∧
    ((m.syncDone && !ready) = false → stays .twinReady) ∧
    ((m.syncDone && !ready) = true → Does .twinReady s fun t => t.rd F.TWIN_STATUS_SYNC = 3 ∧ t.flag F.TWIN_STATUS_READY = true) ∧
    (passes = false → stays .mirrorPass) ∧
    (passes = true → Does .mirrorPass s fun t => t.flag F.TWIN_STATUS_MIR_TRUNC = decide (65536 < total) ∧
      t.twin.pass = (if m.mirrorLines.all m.mirrorAdmits then some ((m.rd F.TWIN_MIR_PASS_PASS + 1) % 2 ^ 32) else none)) ∧
    (tw.pass = none → stays .mirrorPassEnd) ∧
    (tw.pass = some k → Does .mirrorPassEnd s fun t => t.twin.pass = none ∧ t.rd F.TWIN_MIR_PASS_PASS = k % 2 ^ 32 ∧ OnlyRegs [(.TWIN_MIR_PASS, 0)] m t) ∧
    -- castling
    (bar = 0 → Does (.twinCmdCastle w) s fun t => t.regs = m.regs ∧ t.twin.propose = some (if m.rd F.TWIN_CASTLE_AT_TIME = 0 && !m.isStandby then
      m.firstGrid (m.now + 20000) else m.rd F.TWIN_CASTLE_AT_TIME)) ∧
    (bar ≠ 0 → Does (.twinCmdCastle w) s fun t => t.flag F.TWIN_STATUS_REFUSED = true ∧ t.rd F.TWIN_STATUS_REASON = bar ∧ t.twin.propose = tw.propose) ∧
    (tw.agreed = none → stays .handoverClaim ∧ stays .handover ∧ stays .castlingDone) ∧
    (tw.claimed = true → stays .handoverClaim) ∧ (tw.claimed = false → stays .handover) ∧ (tw.handed = false → stays .castlingDone) ∧
    (tw.agreed = some h →
      (tw.claimed = false → role = 2 → Does .handoverClaim s fun t => t.flag F.TWIN_STATUS_CLAIM = true ∧ t.twin.claimed = true ∧ t.rd F.TWIN_STATUS_ROLE = 2) ∧
      (tw.claimed = false → role = 1 → Does .handoverClaim s fun t => t.rd F.TWIN_STATUS_ROLE = 2 ∧ t.flag F.TWIN_STATUS_CLAIM = false ∧
        t.flag F.TWIN_STATUS_READY = false ∧ t.rd F.TWIN_STATUS_SYNC = 0 ∧ t.twin.claimed = true ∧ t.twin.handed = true) ∧
      (tw.claimed = true → tw.handed = false → Does .handover s fun t => t.rd F.TWIN_STATUS_ROLE = 1 ∧ t.flag F.TWIN_STATUS_READY = false ∧
        t.rd F.TWIN_STATUS_SYNC = 0 ∧ t.twin.handed = true ∧ t.twin.codes = [] ∧ t.twin.clocks = []) ∧
      (tw.claimed = true → tw.handed = true → Does .handover s fun t => t.rd F.TWIN_STATUS_ROLE = role ∧ t.twin = tw) ∧
      (tw.handed = true → Does .castlingDone s fun t => t.rd F.TWIN_LAST_H_TIME = h % 2 ^ 64 ∧ t.flag F.TWIN_STATUS_CASTLED = true ∧ t.twin.agreed = none ∧
        t.twin.claimed = false ∧ t.twin.handed = false ∧ t.rd F.TWIN_STATUS_ROLE = if tw.castleOnEject then 3 else role)) ∧
    -- eject and removal
    (Does .ejectPress s fun t => t.flag F.CAR_STATUS_EJECT = true ∧ t.flag F.CAR_STATUS_EJECT_REQ = true ∧ t.twin.ejectAt = some m.mono ∧
      (role = 1 → ready = true → m.flag F.TWIN_CTRL_EJECT_CASTLE = true → t.twin.castleOnEject = decide (m.castleBar 0 = 0))) ∧
    (Does .ejectRelease s fun t => t.flag F.CAR_STATUS_EJECT = false ∧ t.twin = { tw with ejectAt := none } ∧ OnlyRegs [(.CAR_STATUS, 0)] m t) ∧
    (tw.ejectAt = none → stays .ejectHoldTimeout) ∧
    (tw.ejectAt = some t0 → Does .ejectHoldTimeout s fun t => t.mono = Nat.max m.mono (t0 + 5000000000) ∧
      t.rd F.TWIN_STATUS_ROLE = if m.flag F.CAR_STATUS_EJECT_REQ && !tw.castleOnEject && !agreedNow then 3 else role) ∧
    (tw.castleOnEject = true → stays (.remove w)) ∧
    (tw.castleOnEject = false → agreedNow = true → Does (.remove w) s fun t => t = { m with twin := { tw with castleOnEject := true } }) ∧
    (tw.castleOnEject = false → agreedNow = false → role ≠ 3 → Does (.remove w) s fun t => t.rd F.TWIN_STATUS_ROLE = 3 ∧ t.twin.removed = true ∧ t.flag F.TWIN_STATUS_CLAIM = false) ∧
    (role = 3 → stays (.cancelEject w)) ∧
    (role ≠ 3 → Does (.cancelEject w) s fun t => t.flag F.CAR_STATUS_EJECT_REQ = false ∧ t.twin = { tw with castleOnEject := false } ∧
      OnlyRegs [(.CAR_STATUS, 0)] m t)

/-- In federated mode a halted core's automatic reset takes place with TB_MONO at 1 ms after the halt at the least: the core is as one that leaves
reset, or stays in reset while cores may not run or its domain has no power, it is halted no more, its scratch reads 0 and its requests are gone.
Inside a region under reset the reset is absorbed. In standalone mode, or for a core that is not halted, nothing happens. -/
def Obligations.HaltedCoreCellIsResetAfterOneMillisecond : Prop :=
  ∀ (s : State) (c : CoreId),
    let m := s.mod
    let k := m.core c
    let at1 := Nat.max m.mono (k.haltAt + 1000000)
    ((m.federated && k.halted) = true → m.rgnDown (c.val / 8) = false → Does (.automaticCellReset c) s fun t => t.mono = at1 ∧
      t.core c = (if m.coresRun && m.domOn c then freshCore c at1 else {}) ∧ (t.core c).halted = false ∧
      (∀ a, coreScratch c ≤ a → a < coreScratch c + 0x20000 → t.bytes a 1 = [0]) ∧ (∀ c' : CoreId, c' ≠ c → t.core c' = m.core c') ∧
      (∀ r ∈ t.req, r.who ≠ .core c ∧ r.who ≠ .coreStore c)) ∧
    ((m.federated && k.halted) = true → m.rgnDown (c.val / 8) = true → Does (.automaticCellReset c) s fun t => t.mono = at1 ∧
      t.flag F.FLT_RST_STATUS_ABSORBED = true ∧ t.cores = m.cores) ∧
    ((m.federated && k.halted) = false → Does (.automaticCellReset c) s fun t => t = m)

/-- A KTEST that issues completes and writes 1 to rd when both keys are tagged (a tag beside field values that decode rejects counts as none, R137),
the clipped bounds of ks lie within those of kt, its rights are a subset, its locality is of equal or higher rank, the OTYPEs are equal, and the
EPOCHs are equal or that of kt is 0; it writes 0 otherwise. Nothing else of the module changes. -/
def Obligations.KtestComparesTheAuthorityOfTwoKeys : Prop :=
  ∀ (s0 : State) (c : CoreId) (rd : DReg) (ks kt : KReg), Ready s0.mod c →
    let s := s0.fetched c
    let a := s.mod.ck c ks
    let b := s.mod.ck c kt
    let holds := (a.live = true ∧ b.live = true) ∧ (b.lo ≤ a.lo ∧ a.hi ≤ b.hi) ∧ (∀ i, i < 10 → bitAt a.rights i = true → bitAt b.rights i = true) ∧
      b.loc ≤ a.loc ∧ a.otype = b.otype ∧ (a.epoch = b.epoch ∨ b.epoch = 0)
    (holds → ∃ t, exec (.ktest c rd ks kt) s0 = .next t ∧ WritesD c rd 1 s t) ∧
    (¬ holds → ∃ t, exec (.ktest c rd ks kt) s0 = .next t ∧ WritesD c rd 0 s t)

/-- A due escalation is a region fault of cause 0x0B, recorded with its count, or a device fault with the configured action; a spine parity error is
a device fault of cause 0x0D. RELEASE ends a region's hold or safe, RELEASE_D the device's, each with what the mirror holds of it. A reset asked for by a master that is not privileged
does nothing; one inside a region under reset is absorbed; a cell's or block's is recorded and resets the containers named: cores leave reset where
they may run, else stay in it. A region reset stops its cores and engine and shows state 2, then its memories read 0, then, nothing of them under way, it restarts with state 3, and with its
GATE sections applied again shows 0. The model's choices in this: the master of a reset's record is the writer of FLT_RST and the action of a record
under FLT_DEV_ACT 2 shows as 3 (log entry 72), and what a RELEASE ends of the mirror's holds (log entry 69). A device reset, refused while CRITICAL at 105 C or more, starts the module again with DRAM and cores at reset. -/
def Obligations.FaultsEscalateAndContainersReset : Prop :=
  ∀ (s : State) (w : Writer) (g : RegionId) (blocks : Bool) (e : Option Nat × Bool × Nat) (unit : BitVec 64) (c : CoreId) (p : PortId) (lane : Fin 32)
      (sl : SliceId) (b : BlockId) (ch : ChanId) (cb dg : Fin 8),
    let m := s.mod
    let stays := fun (i : Instr) => Does i s fun t => t = m
    let due := fun (r : Option Nat) => m.escDue.find? (fun x => x.1 == r && (r.isNone || x.2.1 == blocks))
    let room := m.phase.spineUp = true ∧ m.fq.length < 64
    let act := m.rd (F.FLT_RGN_ACT_ACT g)
    let dev := m.rd F.FLT_DEV_ACT_ACT
    let hot := m.flag F.PWR_THR_STATUS_CRITICAL && decide (signedOf 16 (m.rd F.PWR_TEMP_JUNCTION) ≥ 1680)
    let priv := m.privWriter w.master.toNat w.sys
    let restarted := fun (t : Mod) => t.phase.spineUp = false ∧ t.rd F.ROOK_STATUS_BOOT = (if m.phase.gooseUp then 1 else 0) ∧ t.cores = [] ∧ t.lines = [] ∧
      (∀ a, a < dramTop → t.bytes a 1 = [0]) ∧ t.flag F.TWIN_STATUS_CLAIM = false
    let asked := fun (i : Instr) (kind index : Nat) =>
      (priv = false → stays i) ∧
      (priv = true → m.inReset kind index = true → Does i s fun t => t = m.put F.FLT_RST_STATUS_ABSORBED 0 true)
    let cell := fun (i : Instr) (kind index : Nat) => asked i kind index ∧
      (priv = true → m.inReset kind index = false → Does i s fun t => t = (m.resetRecord kind index 0 w.master.toNat).cellReset kind index)
    -- escalation
    (due (some g.val) = none → stays (.escalation (some g) blocks)) ∧ (due none = none → stays (.escalation none blocks)) ∧
    (due (some g.val) = some e → room → Does (.escalation (some g) blocks) s fun t =>
      m.faultRec 2 0x0B g 9 (if m.rgnDown g then 5 else act) e.2.2 ∈ t.fq ∧ (m.rgnDown g = false → act = 3 → t.rd (F.FLT_RGN_STATE_STATE g) = 2) ∧
      (m.rgnDown g = false → act = 1 ∨ act = 2 → act ≤ Tbl.get 0 t.rgnAct g)) ∧
    (due none = some e → room → dev = 0 → Does (.escalation none blocks) s fun t => m.faultRec 3 0x0B 0 10 0 e.2.2 ∈ t.fq) ∧
    (room → dev = 0 → Does (.spineParityError unit) s fun t => m.faultRec 3 0x0D 0 10 0 unit.toNat ∈ t.fq ∧ t.devSafe = m.devSafe) ∧
    (dev = 1 → Does (.spineParityError unit) s fun t => t.devSafe = true ∧ t.twin.faultNext = true) ∧
    (dev = 2 → hot = false → Does (.spineParityError unit) s restarted) ∧
    (Does (.release w g) s fun t => Tbl.get 0 t.rgnAct g = 0 ∧
      t.rd (F.FLT_RGN_STATE_STATE g) = (if m.rd (F.FLT_RGN_STATE_STATE g) = 1 then 0 else m.rd (F.FLT_RGN_STATE_STATE g)) ∧ OnlyRegs [(.FLT_RGN_STATE, 0)] m t ∧
      t.twin = { m.twin with forced := m.twin.forced.filter (fun e => portRegion e.1 != g) }) ∧
    (Does (.releaseD w) s fun t => t = { m with devSafe := false, twin := { m.twin with forced := m.twin.forced.filter (fun e => e.2 != 2) } }) ∧
    -- cells and blocks
    cell (.coreReset w c) 1 c ∧ cell (.portReset w p) 2 p ∧ cell (.laneReset w lane) 3 lane ∧ cell (.sliceReset w sl) 4 sl ∧ cell (.pipelineReset w b) 5 b ∧
    cell (.transferChannelReset w ch) 6 ch ∧ cell (.coreBlockReset w cb) 7 cb ∧ cell (.portBlockReset w b) 8 b ∧ cell (.laneGroupReset w dg) 9 dg ∧
    (priv = true → m.rgnDown (c.val / 8) = false → Does (.coreReset w c) s fun t =>
      t.core c = if m.coresRun && m.domOn c then freshCore c m.mono else {}) ∧
    (priv = true → m.rgnDown (cb.val / 2) = false → Does (.coreBlockReset w cb) s fun t =>
      ∀ k, k < 4 → t.core (4 * cb.val + k) = if m.coresRun && m.domOn (4 * cb.val + k) then freshCore (4 * cb.val + k) m.mono else {}) ∧
    (room → priv = true → m.rgnDown (c.val / 8) = false → Does (.coreReset w c) s fun t => m.faultRec 0 0x10 c 0 3 0 0xFFFF w.master.toNat ∈ t.fq) ∧
    -- regions
    asked (.regionReset w g) 10 g ∧
    (priv = true → m.rgnDown g = false → Does (.regionReset w g) s fun t => t.rd (F.FLT_RGN_STATE_STATE g) = 2 ∧ t.rgnDown g = true ∧
      (∀ k, k < 8 → t.core (8 * g.val + k) = {}) ∧ (∀ k : Nat, k / 8 ≠ g.val → t.core k = m.core k) ∧ t.mxJob g = none) ∧
    (Tbl.get 0 m.rgnPhase g ≠ 1 → stays (.regionResetZeroed g)) ∧
    (Tbl.get 0 m.rgnPhase g = 1 → Does (.regionResetZeroed g) s fun t => Tbl.get 0 t.rgnPhase g = 2 ∧
      (∀ a, rgnScratch g ≤ a → a < rgnScratch g + 0x400000 → t.bytes a 1 = [0]) ∧ (∀ a, signalBase g ≤ a → a < signalBase g + 0x200000 → t.bytes a 1 = [0]) ∧
      (∀ k : Nat, k / 8 = g.val → (t.core k).sb = []) ∧ t.mxJob g = none) ∧
    (Tbl.get 0 m.rgnPhase g ≠ 2 → stays (.regionRestart g)) ∧
    (Tbl.get 0 m.rgnPhase g = 2 → (∀ k : Nat, k / 8 = g.val → (m.core k).sb = []) → m.mxJob g = none → Does (.regionRestart g) s fun t => Tbl.get 0 t.rgnPhase g = 3 ∧ t.rd (F.FLT_RGN_STATE_STATE g) = 3) ∧
    (Tbl.get 0 m.rgnPhase g ≠ 3 → stays (.regionGateReapply g)) ∧
    (Tbl.get 0 m.rgnPhase g = 3 → Does (.regionGateReapply g) s fun t => Tbl.get 0 t.rgnPhase g = 0 ∧ t.rd (F.FLT_RGN_STATE_STATE g) = 0) ∧
    -- the device
    (priv = false → stays (.deviceReset w)) ∧
    (priv = true → hot = true → stays (.deviceReset w)) ∧
    (priv = true → hot = false → Does (.deviceReset w) s restarted)

/-- A domain's wake ends its waiting, and a core then leaves reset where cores run. A faulted domain, or a DRAM rail that does not reach regulation, is off with its bit of PWR_DOM_FAULT
and noted for the next commit. A reading shows in PWR_TEMP; with the spine up the throttle step is at least k from 55 + 2.5 k C on and below k under 54 + 2.5 k C,
else as it was; above 70 C of inlet or from 110 C of junction OVERTEMP is set; from 125 C CRITICAL is. A feed reads its voltage and is OK from 18 to
60 V, and the Goose shows the same. A write of PWR_INPUT clears PEAK and nothing else. -/
def Obligations.PowerFollowsDomainsFeedsAndHeat : Prop :=
  ∀ (s : State) (d : Fin 66) (e : Nat × Nat) (inlet junction : BitVec 16) (dies : List (DieId × BitVec 16)) (b : Bool)
    (v : BitVec 12) (w : Writer),
    let m := s.mod
    let step := m.rd F.PWR_THR_STATUS_STEP
    let x := inlet.toInt
    let y := junction.toInt
    (m.waking.find? (fun u => u.1 == d.val) = none → Does (.domainWakeDone d) s fun t => t = m) ∧
    (m.waking.find? (fun u => u.1 == d.val) = some e → Does (.domainWakeDone d) s fun t => (∀ u ∈ t.waking, u.1 ≠ d.val) ∧ e.2 ≤ t.mono ∧
      (d.val < 32 → (m.coresRun && m.domPowered d && !m.rgnDown (d.val / 8)) = true → t.core d = freshCore d t.mono)) ∧
    (m.domPowered d = false → m.railWaking d = false → Does (.domainFault d) s fun t => t = m) ∧
    (m.domPowered d = true ∨ m.railWaking d = true → Does (.domainFault d) s fun t => t.domPowered d = false ∧ t.domRetry.contains d.val = true ∧
      bitAt (t.rd F.PWR_DOM_FAULT_FAULT (d.val / 32)) (d.val % 32) = true) ∧
    (m.phase.spineUp = false → Does (.temperatureSample inlet ⟨junction, dies⟩) s fun t => t.rd F.PWR_TEMP_INLET = inlet.toNat ∧
      t.rd F.PWR_TEMP_JUNCTION = junction.toNat ∧ (∀ r i, r ≠ .PWR_TEMP → r ≠ .PBLK_TEMP → t.reg r i = m.reg r i) ∧
      { t with regs := m.regs, past := m.past } = m ∧ (dies = [] → OnlyRegsChange [(.PWR_TEMP, 0)] m t)) ∧
    (m.phase.spineUp = true → Does (.temperatureSample inlet ⟨junction, dies⟩) s fun t => t.rd F.PWR_TEMP_INLET = inlet.toNat ∧
      t.rd F.PWR_TEMP_JUNCTION = junction.toNat ∧
      (∀ k : Nat, 1 ≤ k → k ≤ 6 → (880 + 40 * (k : Int) ≤ x → k ≤ t.rd F.PWR_THR_STATUS_STEP) ∧ (x < 864 + 40 * (k : Int) → t.rd F.PWR_THR_STATUS_STEP < k)) ∧
      (step ≤ 6 → 864 + 40 * (step : Int) ≤ x → x < 920 + 40 * (step : Int) → t.rd F.PWR_THR_STATUS_STEP = step) ∧
      t.flag F.PWR_THR_STATUS_OVERTEMP = (decide (1120 < x) || decide (1760 ≤ y)) ∧
      t.flag F.PWR_THR_STATUS_CRITICAL = (m.flag F.PWR_THR_STATUS_CRITICAL || decide (2000 ≤ y))) ∧
    (Does (.feedRangeChange b v) s fun t =>
      t.flag (if b then F.PWR_FEED_B_OK else F.PWR_FEED_A_OK) = (decide (720 ≤ v.toNat) && decide (v.toNat ≤ 2400)) ∧
      t.flag (if b then F.GOOSE_STATUS_FEED_B else F.GOOSE_STATUS_FEED_A) = (decide (720 ≤ v.toNat) && decide (v.toNat ≤ 2400)) ∧
      t.rd (if b then F.PWR_FEED_VB else F.PWR_FEED_VA) = v.toNat ∧ OnlyRegs [(.PWR_FEED, 0), (.GOOSE_STATUS, 0), (.EVR_UNROUTED, 0)] m t) ∧
    (Does (.pwrInputWrite w) s fun t => t.rd F.PWR_INPUT_PEAK = 0 ∧ t.rd F.PWR_INPUT_W = m.rd F.PWR_INPUT_W ∧ OnlyRegsChange [(.PWR_INPUT, 0)] m t)

/-- At reset EVR_ROUTE_LO n is 2^n for n from 0 to 31 and 0 above; EVR_ROUTE_HI n has FIRST 0, GOOSE 0, and SD 1 for EV192 to EV199 and EV236 to EV251,
0 otherwise. The steps of a region reset leave every route as it was, where its cores and engine have nothing under way at its restart. An event delivered to a core in reset is gone and changes nothing of it.
The machine at reset waits for no command, and its memory is canonical. -/
def Obligations.EventRoutesAtResetAndInRegionResets : Prop :=
  (∀ n, n < 256 → State.reset.mod.reg .EVR_ROUTE_LO n = (if n < 32 then 2 ^ n else 0) ∧ State.reset.mod.flag F.EVR_ROUTE_HI_FIRST n = false ∧
    State.reset.mod.flag F.EVR_ROUTE_HI_GOOSE n = false ∧
    State.reset.mod.flag F.EVR_ROUTE_HI_SD n = ((decide (192 ≤ n) && decide (n ≤ 199)) || (decide (236 ≤ n) && decide (n ≤ 251)))) ∧
  (∀ (s : State) (w : Writer) (g : RegionId) (c : CoreId) (src : BitVec 8),
    let same := fun (t : Mod) => ∀ n, t.reg .EVR_ROUTE_LO n = s.mod.reg .EVR_ROUTE_LO n ∧ t.reg .EVR_ROUTE_HI n = s.mod.reg .EVR_ROUTE_HI n
    Does (.regionReset w g) s same ∧ Does (.regionResetZeroed g) s same ∧
    ((∀ k : Nat, k / 8 = g.val → (s.mod.core k).sb = []) → s.mod.mxJob g = none → Does (.regionRestart g) s same) ∧ Does (.regionGateReapply g) s same ∧
    ((s.mod.core c).inReset = true → Does (.eventLatch c src) s fun t => t = { s.mod with inFlight := s.mod.inFlight.erase (c.val, src.toNat) })) ∧
  State.reset.pending = [] ∧ State.reset.mod.panel = {} ∧ Memory.wf State.reset.mod.mem = true
end

