-- ==== Sys2Proof/Laws/Bits.lean ====
section
/-!
SUPPORT. Sys2Proof/Laws/Bits.lean: the laws of bit fields and of bytes.
-/
namespace Sys2Proof.Machine

theorem bitsOf_lt (n lo w : Nat) : bitsOf n lo w < 2 ^ w := Nat.mod_lt _ (Nat.two_pow_pos w)

theorem bitsOf_eq_div (n lo w : Nat) : bitsOf n lo w = n / 2 ^ lo % 2 ^ w := by
  simp [bitsOf, Nat.shiftRight_eq_div_pow]

theorem withBits_eq (n lo w v : Nat) :
    withBits n lo w v = n % 2 ^ lo + 2 ^ lo * (v % 2 ^ w + 2 ^ w * (n / 2 ^ (lo + w))) := by
  simp only [withBits, Nat.shiftRight_eq_div_pow, Nat.pow_add]
  ring

/-- A field reads as what was written to it. -/
@[simp] theorem bitsOf_withBits_self (n lo w v : Nat) : bitsOf (withBits n lo w v) lo w = v % 2 ^ w := by
  rw [bitsOf_eq_div, withBits_eq, Nat.add_mul_div_left _ _ (Nat.two_pow_pos lo), Nat.div_eq_of_lt (Nat.mod_lt _ (Nat.two_pow_pos lo)),
    Nat.zero_add, Nat.add_mul_mod_self_left, Nat.mod_mod]

theorem withBits_mod_low (n lo w v k : Nat) (h : k ≤ lo) : withBits n lo w v % 2 ^ k = n % 2 ^ k := by
  rw [withBits_eq, Nat.add_mod, Nat.mul_mod, show 2 ^ lo % 2 ^ k = 0 from Nat.mod_eq_zero_of_dvd (Nat.pow_dvd_pow 2 h)]
  simp [Nat.mod_mod_of_dvd _ (Nat.pow_dvd_pow 2 h)]

/-- A field below the one written keeps its value. -/
theorem bitsOf_withBits_below (n lo w v lo' w' : Nat) (h : lo' + w' ≤ lo) : bitsOf (withBits n lo w v) lo' w' = bitsOf n lo' w' := by
  have key : ∀ x : Nat, x / 2 ^ lo' % 2 ^ w' = x % 2 ^ (lo' + w') / 2 ^ lo' := by
    intro x
    rw [Nat.pow_add, Nat.mod_mul_right_div_self]
  rw [bitsOf_eq_div, bitsOf_eq_div, key, key, withBits_mod_low _ _ _ _ _ h]

/-- A field above the one written keeps its value. -/
theorem bitsOf_withBits_above (n lo w v lo' w' : Nat) (h : lo + w ≤ lo') : bitsOf (withBits n lo w v) lo' w' = bitsOf n lo' w' := by
  obtain ⟨d, rfl⟩ := Nat.exists_eq_add_of_le h
  have hdiv : withBits n lo w v / 2 ^ (lo + w) = n / 2 ^ (lo + w) := by
    rw [withBits_eq, Nat.pow_add, ← Nat.div_div_eq_div_mul, Nat.add_mul_div_left _ _ (Nat.two_pow_pos lo),
      Nat.div_eq_of_lt (Nat.mod_lt _ (Nat.two_pow_pos lo)), Nat.zero_add, Nat.add_mul_div_left _ _ (Nat.two_pow_pos w),
      Nat.div_eq_of_lt (Nat.mod_lt _ (Nat.two_pow_pos w)), Nat.zero_add]
  rw [bitsOf_eq_div, bitsOf_eq_div, Nat.pow_add _ (lo + w) d, ← Nat.div_div_eq_div_mul, ← Nat.div_div_eq_div_mul, hdiv]

theorem withBits_lt (n lo w v k : Nat) (hn : n < 2 ^ k) (h : lo + w ≤ k) : withBits n lo w v < 2 ^ k := by
  obtain ⟨d, rfl⟩ := Nat.exists_eq_add_of_le h
  rw [withBits_eq]
  have h1 : n % 2 ^ lo < 2 ^ lo := Nat.mod_lt _ (Nat.two_pow_pos lo)
  have h2 : v % 2 ^ w < 2 ^ w := Nat.mod_lt _ (Nat.two_pow_pos w)
  have h3 : n / 2 ^ (lo + w) < 2 ^ d := Nat.div_lt_of_lt_mul (by rw [← Nat.pow_add]; exact hn)
  have h4 : v % 2 ^ w + 2 ^ w * (n / 2 ^ (lo + w)) < 2 ^ w * 2 ^ d :=
    calc v % 2 ^ w + 2 ^ w * (n / 2 ^ (lo + w)) < 2 ^ w + 2 ^ w * (n / 2 ^ (lo + w)) := by omega
      _ = 2 ^ w * (n / 2 ^ (lo + w) + 1) := by ring
      _ ≤ 2 ^ w * 2 ^ d := Nat.mul_le_mul_left _ h3
  calc n % 2 ^ lo + 2 ^ lo * (v % 2 ^ w + 2 ^ w * (n / 2 ^ (lo + w)))
      < 2 ^ lo + 2 ^ lo * (v % 2 ^ w + 2 ^ w * (n / 2 ^ (lo + w))) := by omega
    _ = 2 ^ lo * (v % 2 ^ w + 2 ^ w * (n / 2 ^ (lo + w)) + 1) := by ring
    _ ≤ 2 ^ lo * (2 ^ w * 2 ^ d) := Nat.mul_le_mul_left _ h4
    _ = 2 ^ (lo + w + d) := by rw [← Nat.pow_add, ← Nat.pow_add, Nat.add_assoc]

@[simp] theorem length_leBytes (k n : Nat) : (leBytes k n).length = k := by
  induction k generalizing n with
  | zero => rfl
  | succ k ih => simp [leBytes, ih]

/-- Bytes of a number read back as the number. -/
theorem ofLeBytes_leBytes (k n : Nat) : ofLeBytes (leBytes k n) = n % 256 ^ k := by
  induction k generalizing n with
  | zero => simp [leBytes, ofLeBytes, Nat.mod_one]
  | succ k ih =>
    have h : ofLeBytes (leBytes (k + 1) n) = n % 256 + 256 * (n / 256 % 256 ^ k) := by
      show (BitVec.ofNat 8 n).toNat + 256 * ofLeBytes (leBytes k (n / 256)) = _
      rw [ih, BitVec.toNat_ofNat]
    rw [h, Nat.pow_succ', Nat.mod_mul]

end Sys2Proof.Machine
end

