-- ==== Sys2Proof/Laws/State.lean ====
section
/-!
SUPPORT. Sys2Proof/Laws/State.lean: which field of the module each elementary update changes: every other field reads as before.
-/
namespace Sys2Proof.Machine

/-! ### The queue and the module -/

@[simp] theorem State.act_eq (s : State) (f : Mod → Mod) : s.act f = .next { s with mod := f s.mod } := rfl

/-! ### Elementary updates, field by field -/

@[simp] theorem Mod.setReg_staged (m : Mod) (r : Reg) (i v : Nat) : (m.setReg r i v).staged = m.staged := rfl
@[simp] theorem Mod.setReg_stageImage (m : Mod) (r : Reg) (i v : Nat) : (m.setReg r i v).stageImage = m.stageImage := rfl
@[simp] theorem Mod.setReg_freeCtr (m : Mod) (r : Reg) (i v : Nat) : (m.setReg r i v).freeCtr = m.freeCtr := rfl
@[simp] theorem Mod.setReg_now (m : Mod) (r : Reg) (i v : Nat) : (m.setReg r i v).now = m.now := rfl
@[simp] theorem Mod.setReg_mono (m : Mod) (r : Reg) (i v : Nat) : (m.setReg r i v).mono = m.mono := rfl
@[simp] theorem Mod.setReg_corr (m : Mod) (r : Reg) (i v : Nat) : (m.setReg r i v).corr = m.corr := rfl
@[simp] theorem Mod.setReg_slots (m : Mod) (r : Reg) (i v : Nat) : (m.setReg r i v).slots = m.slots := rfl
@[simp] theorem Mod.setReg_clks (m : Mod) (r : Reg) (i v : Nat) : (m.setReg r i v).clks = m.clks := rfl
@[simp] theorem Mod.setReg_ports (m : Mod) (r : Reg) (i v : Nat) : (m.setReg r i v).ports = m.ports := rfl
@[simp] theorem Mod.setReg_dies (m : Mod) (r : Reg) (i v : Nat) : (m.setReg r i v).dies = m.dies := rfl
@[simp] theorem Mod.setReg_recs (m : Mod) (r : Reg) (i v : Nat) : (m.setReg r i v).recs = m.recs := rfl
@[simp] theorem Mod.setReg_ostat (m : Mod) (r : Reg) (i v : Nat) : (m.setReg r i v).ostat = m.ostat := rfl
@[simp] theorem Mod.setReg_captured (m : Mod) (r : Reg) (i v : Nat) : (m.setReg r i v).captured = m.captured := rfl
@[simp] theorem Mod.setReg_mem (m : Mod) (r : Reg) (i v : Nat) : (m.setReg r i v).mem = m.mem := rfl
@[simp] theorem Mod.setReg_tags (m : Mod) (r : Reg) (i v : Nat) : (m.setReg r i v).tags = m.tags := rfl
@[simp] theorem Mod.setReg_lines (m : Mod) (r : Reg) (i v : Nat) : (m.setReg r i v).lines = m.lines := rfl
@[simp] theorem Mod.setReg_gatePend (m : Mod) (r : Reg) (i v : Nat) : (m.setReg r i v).gatePend = m.gatePend := rfl
@[simp] theorem Mod.setReg_vq (m : Mod) (r : Reg) (i v : Nat) : (m.setReg r i v).vq = m.vq := rfl
@[simp] theorem Mod.setReg_fq (m : Mod) (r : Reg) (i v : Nat) : (m.setReg r i v).fq = m.fq := rfl
@[simp] theorem Mod.setReg_sdFaults (m : Mod) (r : Reg) (i v : Nat) : (m.setReg r i v).sdFaults = m.sdFaults := rfl
@[simp] theorem Mod.setReg_sdEvents (m : Mod) (r : Reg) (i v : Nat) : (m.setReg r i v).sdEvents = m.sdEvents := rfl
@[simp] theorem Mod.setReg_inFlight (m : Mod) (r : Reg) (i v : Nat) : (m.setReg r i v).inFlight = m.inFlight := rfl
@[simp] theorem Mod.setReg_cores (m : Mod) (r : Reg) (i v : Nat) : (m.setReg r i v).cores = m.cores := rfl
@[simp] theorem Mod.setReg_links (m : Mod) (r : Reg) (i v : Nat) : (m.setReg r i v).links = m.links := rfl
@[simp] theorem Mod.setReg_req (m : Mod) (r : Reg) (i v : Nat) : (m.setReg r i v).req = m.req := rfl
@[simp] theorem Mod.setReg_fed (m : Mod) (r : Reg) (i v : Nat) : (m.setReg r i v).fed = m.fed := rfl
@[simp] theorem Mod.setReg_mx (m : Mod) (r : Reg) (i v : Nat) : (m.setReg r i v).mx = m.mx := rfl
@[simp] theorem Mod.setReg_xfr (m : Mod) (r : Reg) (i v : Nat) : (m.setReg r i v).xfr = m.xfr := rfl
@[simp] theorem Mod.setReg_host (m : Mod) (r : Reg) (i v : Nat) : (m.setReg r i v).host = m.host := rfl
@[simp] theorem Mod.setReg_sess (m : Mod) (r : Reg) (i v : Nat) : (m.setReg r i v).sess = m.sess := rfl
@[simp] theorem Mod.setReg_wins (m : Mod) (r : Reg) (i v : Nat) : (m.setReg r i v).wins = m.wins := rfl
@[simp] theorem Mod.setReg_lock (m : Mod) (r : Reg) (i v : Nat) : (m.setReg r i v).lock = m.lock := rfl
@[simp] theorem Mod.setReg_imgUp (m : Mod) (r : Reg) (i v : Nat) : (m.setReg r i v).imgUp = m.imgUp := rfl
@[simp] theorem Mod.setReg_fwUp (m : Mod) (r : Reg) (i v : Nat) : (m.setReg r i v).fwUp = m.fwUp := rfl
@[simp] theorem Mod.setReg_long (m : Mod) (r : Reg) (i v : Nat) : (m.setReg r i v).long = m.long := rfl
@[simp] theorem Mod.setReg_cfg (m : Mod) (r : Reg) (i v : Nat) : (m.setReg r i v).cfg = m.cfg := rfl
@[simp] theorem Mod.setReg_phase (m : Mod) (r : Reg) (i v : Nat) : (m.setReg r i v).phase = m.phase := rfl
@[simp] theorem Mod.setReg_goose (m : Mod) (r : Reg) (i v : Nat) : (m.setReg r i v).goose = m.goose := rfl
@[simp] theorem Mod.setReg_rook (m : Mod) (r : Reg) (i v : Nat) : (m.setReg r i v).rook = m.rook := rfl
@[simp] theorem Mod.setReg_desc (m : Mod) (r : Reg) (i v : Nat) : (m.setReg r i v).desc = m.desc := rfl
@[simp] theorem Mod.setReg_twin (m : Mod) (r : Reg) (i v : Nat) : (m.setReg r i v).twin = m.twin := rfl
@[simp] theorem Mod.setReg_waking (m : Mod) (r : Reg) (i v : Nat) : (m.setReg r i v).waking = m.waking := rfl
@[simp] theorem Mod.setReg_sent (m : Mod) (r : Reg) (i v : Nat) : (m.setReg r i v).sent = m.sent := rfl
@[simp] theorem Mod.setReg_rgnPhase (m : Mod) (r : Reg) (i v : Nat) : (m.setReg r i v).rgnPhase = m.rgnPhase := rfl
@[simp] theorem Mod.setReg_devSafe (m : Mod) (r : Reg) (i v : Nat) : (m.setReg r i v).devSafe = m.devSafe := rfl
@[simp] theorem Mod.setReg_sweep (m : Mod) (r : Reg) (i v : Nat) : (m.setReg r i v).sweep = m.sweep := rfl
@[simp] theorem Mod.setReg_dramUp (m : Mod) (r : Reg) (i v : Nat) : (m.setReg r i v).dramUp = m.dramUp := rfl
@[simp] theorem Mod.setReg_acc (m : Mod) (r : Reg) (i v : Nat) : (m.setReg r i v).acc = m.acc := rfl
@[simp] theorem Mod.setReg_goodIv (m : Mod) (r : Reg) (i v : Nat) : (m.setReg r i v).goodIv = m.goodIv := rfl
@[simp] theorem Mod.setReg_badIv (m : Mod) (r : Reg) (i v : Nat) : (m.setReg r i v).badIv = m.badIv := rfl
@[simp] theorem Mod.setReg_skips (m : Mod) (r : Reg) (i v : Nat) : (m.setReg r i v).skips = m.skips := rfl
@[simp] theorem Mod.setReg_holdFrom (m : Mod) (r : Reg) (i v : Nat) : (m.setReg r i v).holdFrom = m.holdFrom := rfl
@[simp] theorem Mod.setReg_lastSync (m : Mod) (r : Reg) (i v : Nat) : (m.setReg r i v).lastSync = m.lastSync := rfl
@[simp] theorem Mod.setReg_rate10 (m : Mod) (r : Reg) (i v : Nat) : (m.setReg r i v).rate10 = m.rate10 := rfl
@[simp] theorem Mod.setReg_heard (m : Mod) (r : Reg) (i v : Nat) : (m.setReg r i v).heard = m.heard := rfl
@[simp] theorem Mod.setReg_fallNow (m : Mod) (r : Reg) (i v : Nat) : (m.setReg r i v).fallNow = m.fallNow := rfl
@[simp] theorem Mod.setReg_recAux (m : Mod) (r : Reg) (i v : Nat) : (m.setReg r i v).recAux = m.recAux := rfl
@[simp] theorem Mod.setReg_outSeq (m : Mod) (r : Reg) (i v : Nat) : (m.setReg r i v).outSeq = m.outSeq := rfl
@[simp] theorem Mod.setReg_lastCapture (m : Mod) (r : Reg) (i v : Nat) : (m.setReg r i v).lastCapture = m.lastCapture := rfl
@[simp] theorem Mod.setReg_lastDone (m : Mod) (r : Reg) (i v : Nat) : (m.setReg r i v).lastDone = m.lastDone := rfl
@[simp] theorem Mod.setReg_settleEnd (m : Mod) (r : Reg) (i v : Nat) : (m.setReg r i v).settleEnd = m.settleEnd := rfl
@[simp] theorem Mod.setReg_chainLast (m : Mod) (r : Reg) (i v : Nat) : (m.setReg r i v).chainLast = m.chainLast := rfl
@[simp] theorem Mod.setReg_tdrBuf (m : Mod) (r : Reg) (i v : Nat) : (m.setReg r i v).tdrBuf = m.tdrBuf := rfl
@[simp] theorem Mod.setReg_fwd (m : Mod) (r : Reg) (i v : Nat) : (m.setReg r i v).fwd = m.fwd := rfl
@[simp] theorem Mod.setReg_fwdStage (m : Mod) (r : Reg) (i v : Nat) : (m.setReg r i v).fwdStage = m.fwdStage := rfl
@[simp] theorem Mod.setReg_vlan (m : Mod) (r : Reg) (i v : Nat) : (m.setReg r i v).vlan = m.vlan := rfl
@[simp] theorem Mod.setReg_vlanStage (m : Mod) (r : Reg) (i v : Nat) : (m.setReg r i v).vlanStage = m.vlanStage := rfl
@[simp] theorem Mod.setReg_egress (m : Mod) (r : Reg) (i v : Nat) : (m.setReg r i v).egress = m.egress := rfl
@[simp] theorem Mod.setReg_htxDone (m : Mod) (r : Reg) (i v : Nat) : (m.setReg r i v).htxDone = m.htxDone := rfl
@[simp] theorem Mod.setReg_ltxTaken (m : Mod) (r : Reg) (i v : Nat) : (m.setReg r i v).ltxTaken = m.ltxTaken := rfl
@[simp] theorem Mod.setReg_ltxDone (m : Mod) (r : Reg) (i v : Nat) : (m.setReg r i v).ltxDone = m.ltxDone := rfl
@[simp] theorem Mod.setReg_dramPoison (m : Mod) (r : Reg) (i v : Nat) : (m.setReg r i v).dramPoison = m.dramPoison := rfl
@[simp] theorem Mod.setReg_spoiled (m : Mod) (r : Reg) (i v : Nat) : (m.setReg r i v).spoiled = m.spoiled := rfl
@[simp] theorem Mod.setReg_plru (m : Mod) (r : Reg) (i v : Nat) : (m.setReg r i v).plru = m.plru := rfl
@[simp] theorem Mod.setReg_side (m : Mod) (r : Reg) (i v : Nat) : (m.setReg r i v).side = m.side := rfl
@[simp] theorem Mod.setReg_victims (m : Mod) (r : Reg) (i v : Nat) : (m.setReg r i v).victims = m.victims := rfl
@[simp] theorem Mod.setReg_held (m : Mod) (r : Reg) (i v : Nat) : (m.setReg r i v).held = m.held := rfl
@[simp] theorem Mod.setReg_rng (m : Mod) (r : Reg) (i v : Nat) : (m.setReg r i v).rng = m.rng := rfl
@[simp] theorem Mod.setReg_pdWays (m : Mod) (r : Reg) (i v : Nat) : (m.setReg r i v).pdWays = m.pdWays := rfl
@[simp] theorem Mod.setReg_csRun (m : Mod) (r : Reg) (i v : Nat) : (m.setReg r i v).csRun = m.csRun := rfl
@[simp] theorem Mod.setReg_csErases (m : Mod) (r : Reg) (i v : Nat) : (m.setReg r i v).csErases = m.csErases := rfl
@[simp] theorem Mod.setReg_trainTries (m : Mod) (r : Reg) (i v : Nat) : (m.setReg r i v).trainTries = m.trainTries := rfl
@[simp] theorem Mod.setReg_dramHot (m : Mod) (r : Reg) (i v : Nat) : (m.setReg r i v).dramHot = m.dramHot := rfl
@[simp] theorem Mod.setReg_escCell (m : Mod) (r : Reg) (i v : Nat) : (m.setReg r i v).escCell = m.escCell := rfl
@[simp] theorem Mod.setReg_escBlock (m : Mod) (r : Reg) (i v : Nat) : (m.setReg r i v).escBlock = m.escBlock := rfl
@[simp] theorem Mod.setReg_escRgn (m : Mod) (r : Reg) (i v : Nat) : (m.setReg r i v).escRgn = m.escRgn := rfl
@[simp] theorem Mod.setReg_escDue (m : Mod) (r : Reg) (i v : Nat) : (m.setReg r i v).escDue = m.escDue := rfl
@[simp] theorem Mod.setReg_rgnAct (m : Mod) (r : Reg) (i v : Nat) : (m.setReg r i v).rgnAct = m.rgnAct := rfl
@[simp] theorem Mod.setReg_federated (m : Mod) (r : Reg) (i v : Nat) : (m.setReg r i v).federated = m.federated := rfl
@[simp] theorem Mod.setReg_serving (m : Mod) (r : Reg) (i v : Nat) : (m.setReg r i v).serving = m.serving := rfl
@[simp] theorem Mod.setReg_runs (m : Mod) (r : Reg) (i v : Nat) : (m.setReg r i v).runs = m.runs := rfl
@[simp] theorem Mod.setReg_heldReqs (m : Mod) (r : Reg) (i v : Nat) : (m.setReg r i v).heldReqs = m.heldReqs := rfl
@[simp] theorem Mod.setReg_nextTid (m : Mod) (r : Reg) (i v : Nat) : (m.setReg r i v).nextTid = m.nextTid := rfl
@[simp] theorem Mod.setReg_cbs (m : Mod) (r : Reg) (i v : Nat) : (m.setReg r i v).cbs = m.cbs := rfl
@[simp] theorem Mod.setReg_gathers (m : Mod) (r : Reg) (i v : Nat) : (m.setReg r i v).gathers = m.gathers := rfl
@[simp] theorem Mod.setReg_relays (m : Mod) (r : Reg) (i v : Nat) : (m.setReg r i v).relays = m.relays := rfl
@[simp] theorem Mod.setReg_served (m : Mod) (r : Reg) (i v : Nat) : (m.setReg r i v).served = m.served := rfl
@[simp] theorem Mod.setReg_fwA (m : Mod) (r : Reg) (i v : Nat) : (m.setReg r i v).fwA = m.fwA := rfl
@[simp] theorem Mod.setReg_fwB (m : Mod) (r : Reg) (i v : Nat) : (m.setReg r i v).fwB = m.fwB := rfl
@[simp] theorem Mod.setReg_runB (m : Mod) (r : Reg) (i v : Nat) : (m.setReg r i v).runB = m.runB := rfl
@[simp] theorem Mod.setReg_trialWait (m : Mod) (r : Reg) (i v : Nat) : (m.setReg r i v).trialWait = m.trialWait := rfl
@[simp] theorem Mod.setReg_laneMax (m : Mod) (r : Reg) (i v : Nat) : (m.setReg r i v).laneMax = m.laneMax := rfl
@[simp] theorem Mod.setReg_domRetry (m : Mod) (r : Reg) (i v : Nat) : (m.setReg r i v).domRetry = m.domRetry := rfl
@[simp] theorem Mod.setReg_wire (m : Mod) (r : Reg) (i v : Nat) : (m.setReg r i v).wire = m.wire := rfl
@[simp] theorem Mod.setReg_parked (m : Mod) (r : Reg) (i v : Nat) : (m.setReg r i v).parked = m.parked := rfl
@[simp] theorem Mod.setReg_resetCommits (m : Mod) (r : Reg) (i v : Nat) : (m.setReg r i v).resetCommits = m.resetCommits := rfl
@[simp] theorem Mod.setReg_heardNow (m : Mod) (r : Reg) (i v : Nat) : (m.setReg r i v).heardNow = m.heardNow := rfl

@[simp] theorem Mod.wr_staged (m : Mod) (f : Fld) (i v : Nat) : (m.wr f i v).staged = m.staged := rfl
@[simp] theorem Mod.wr_stageImage (m : Mod) (f : Fld) (i v : Nat) : (m.wr f i v).stageImage = m.stageImage := rfl
@[simp] theorem Mod.wr_freeCtr (m : Mod) (f : Fld) (i v : Nat) : (m.wr f i v).freeCtr = m.freeCtr := rfl
@[simp] theorem Mod.wr_now (m : Mod) (f : Fld) (i v : Nat) : (m.wr f i v).now = m.now := rfl
@[simp] theorem Mod.wr_mono (m : Mod) (f : Fld) (i v : Nat) : (m.wr f i v).mono = m.mono := rfl
@[simp] theorem Mod.wr_corr (m : Mod) (f : Fld) (i v : Nat) : (m.wr f i v).corr = m.corr := rfl
@[simp] theorem Mod.wr_slots (m : Mod) (f : Fld) (i v : Nat) : (m.wr f i v).slots = m.slots := rfl
@[simp] theorem Mod.wr_clks (m : Mod) (f : Fld) (i v : Nat) : (m.wr f i v).clks = m.clks := rfl
@[simp] theorem Mod.wr_ports (m : Mod) (f : Fld) (i v : Nat) : (m.wr f i v).ports = m.ports := rfl
@[simp] theorem Mod.wr_dies (m : Mod) (f : Fld) (i v : Nat) : (m.wr f i v).dies = m.dies := rfl
@[simp] theorem Mod.wr_recs (m : Mod) (f : Fld) (i v : Nat) : (m.wr f i v).recs = m.recs := rfl
@[simp] theorem Mod.wr_ostat (m : Mod) (f : Fld) (i v : Nat) : (m.wr f i v).ostat = m.ostat := rfl
@[simp] theorem Mod.wr_captured (m : Mod) (f : Fld) (i v : Nat) : (m.wr f i v).captured = m.captured := rfl
@[simp] theorem Mod.wr_mem (m : Mod) (f : Fld) (i v : Nat) : (m.wr f i v).mem = m.mem := rfl
@[simp] theorem Mod.wr_tags (m : Mod) (f : Fld) (i v : Nat) : (m.wr f i v).tags = m.tags := rfl
@[simp] theorem Mod.wr_lines (m : Mod) (f : Fld) (i v : Nat) : (m.wr f i v).lines = m.lines := rfl
@[simp] theorem Mod.wr_gatePend (m : Mod) (f : Fld) (i v : Nat) : (m.wr f i v).gatePend = m.gatePend := rfl
@[simp] theorem Mod.wr_vq (m : Mod) (f : Fld) (i v : Nat) : (m.wr f i v).vq = m.vq := rfl
@[simp] theorem Mod.wr_fq (m : Mod) (f : Fld) (i v : Nat) : (m.wr f i v).fq = m.fq := rfl
@[simp] theorem Mod.wr_sdFaults (m : Mod) (f : Fld) (i v : Nat) : (m.wr f i v).sdFaults = m.sdFaults := rfl
@[simp] theorem Mod.wr_sdEvents (m : Mod) (f : Fld) (i v : Nat) : (m.wr f i v).sdEvents = m.sdEvents := rfl
@[simp] theorem Mod.wr_inFlight (m : Mod) (f : Fld) (i v : Nat) : (m.wr f i v).inFlight = m.inFlight := rfl
@[simp] theorem Mod.wr_cores (m : Mod) (f : Fld) (i v : Nat) : (m.wr f i v).cores = m.cores := rfl
@[simp] theorem Mod.wr_links (m : Mod) (f : Fld) (i v : Nat) : (m.wr f i v).links = m.links := rfl
@[simp] theorem Mod.wr_req (m : Mod) (f : Fld) (i v : Nat) : (m.wr f i v).req = m.req := rfl
@[simp] theorem Mod.wr_fed (m : Mod) (f : Fld) (i v : Nat) : (m.wr f i v).fed = m.fed := rfl
@[simp] theorem Mod.wr_mx (m : Mod) (f : Fld) (i v : Nat) : (m.wr f i v).mx = m.mx := rfl
@[simp] theorem Mod.wr_xfr (m : Mod) (f : Fld) (i v : Nat) : (m.wr f i v).xfr = m.xfr := rfl
@[simp] theorem Mod.wr_host (m : Mod) (f : Fld) (i v : Nat) : (m.wr f i v).host = m.host := rfl
@[simp] theorem Mod.wr_sess (m : Mod) (f : Fld) (i v : Nat) : (m.wr f i v).sess = m.sess := rfl
@[simp] theorem Mod.wr_wins (m : Mod) (f : Fld) (i v : Nat) : (m.wr f i v).wins = m.wins := rfl
@[simp] theorem Mod.wr_lock (m : Mod) (f : Fld) (i v : Nat) : (m.wr f i v).lock = m.lock := rfl
@[simp] theorem Mod.wr_imgUp (m : Mod) (f : Fld) (i v : Nat) : (m.wr f i v).imgUp = m.imgUp := rfl
@[simp] theorem Mod.wr_fwUp (m : Mod) (f : Fld) (i v : Nat) : (m.wr f i v).fwUp = m.fwUp := rfl
@[simp] theorem Mod.wr_long (m : Mod) (f : Fld) (i v : Nat) : (m.wr f i v).long = m.long := rfl
@[simp] theorem Mod.wr_cfg (m : Mod) (f : Fld) (i v : Nat) : (m.wr f i v).cfg = m.cfg := rfl
@[simp] theorem Mod.wr_phase (m : Mod) (f : Fld) (i v : Nat) : (m.wr f i v).phase = m.phase := rfl
@[simp] theorem Mod.wr_goose (m : Mod) (f : Fld) (i v : Nat) : (m.wr f i v).goose = m.goose := rfl
@[simp] theorem Mod.wr_rook (m : Mod) (f : Fld) (i v : Nat) : (m.wr f i v).rook = m.rook := rfl
@[simp] theorem Mod.wr_desc (m : Mod) (f : Fld) (i v : Nat) : (m.wr f i v).desc = m.desc := rfl
@[simp] theorem Mod.wr_twin (m : Mod) (f : Fld) (i v : Nat) : (m.wr f i v).twin = m.twin := rfl
@[simp] theorem Mod.wr_waking (m : Mod) (f : Fld) (i v : Nat) : (m.wr f i v).waking = m.waking := rfl
@[simp] theorem Mod.wr_sent (m : Mod) (f : Fld) (i v : Nat) : (m.wr f i v).sent = m.sent := rfl
@[simp] theorem Mod.wr_rgnPhase (m : Mod) (f : Fld) (i v : Nat) : (m.wr f i v).rgnPhase = m.rgnPhase := rfl
@[simp] theorem Mod.wr_devSafe (m : Mod) (f : Fld) (i v : Nat) : (m.wr f i v).devSafe = m.devSafe := rfl
@[simp] theorem Mod.wr_sweep (m : Mod) (f : Fld) (i v : Nat) : (m.wr f i v).sweep = m.sweep := rfl
@[simp] theorem Mod.wr_dramUp (m : Mod) (f : Fld) (i v : Nat) : (m.wr f i v).dramUp = m.dramUp := rfl
@[simp] theorem Mod.wr_acc (m : Mod) (f : Fld) (i v : Nat) : (m.wr f i v).acc = m.acc := rfl
@[simp] theorem Mod.wr_goodIv (m : Mod) (f : Fld) (i v : Nat) : (m.wr f i v).goodIv = m.goodIv := rfl
@[simp] theorem Mod.wr_badIv (m : Mod) (f : Fld) (i v : Nat) : (m.wr f i v).badIv = m.badIv := rfl
@[simp] theorem Mod.wr_skips (m : Mod) (f : Fld) (i v : Nat) : (m.wr f i v).skips = m.skips := rfl
@[simp] theorem Mod.wr_holdFrom (m : Mod) (f : Fld) (i v : Nat) : (m.wr f i v).holdFrom = m.holdFrom := rfl
@[simp] theorem Mod.wr_lastSync (m : Mod) (f : Fld) (i v : Nat) : (m.wr f i v).lastSync = m.lastSync := rfl
@[simp] theorem Mod.wr_rate10 (m : Mod) (f : Fld) (i v : Nat) : (m.wr f i v).rate10 = m.rate10 := rfl
@[simp] theorem Mod.wr_heard (m : Mod) (f : Fld) (i v : Nat) : (m.wr f i v).heard = m.heard := rfl
@[simp] theorem Mod.wr_fallNow (m : Mod) (f : Fld) (i v : Nat) : (m.wr f i v).fallNow = m.fallNow := rfl
@[simp] theorem Mod.wr_recAux (m : Mod) (f : Fld) (i v : Nat) : (m.wr f i v).recAux = m.recAux := rfl
@[simp] theorem Mod.wr_outSeq (m : Mod) (f : Fld) (i v : Nat) : (m.wr f i v).outSeq = m.outSeq := rfl
@[simp] theorem Mod.wr_lastCapture (m : Mod) (f : Fld) (i v : Nat) : (m.wr f i v).lastCapture = m.lastCapture := rfl
@[simp] theorem Mod.wr_lastDone (m : Mod) (f : Fld) (i v : Nat) : (m.wr f i v).lastDone = m.lastDone := rfl
@[simp] theorem Mod.wr_settleEnd (m : Mod) (f : Fld) (i v : Nat) : (m.wr f i v).settleEnd = m.settleEnd := rfl
@[simp] theorem Mod.wr_chainLast (m : Mod) (f : Fld) (i v : Nat) : (m.wr f i v).chainLast = m.chainLast := rfl
@[simp] theorem Mod.wr_tdrBuf (m : Mod) (f : Fld) (i v : Nat) : (m.wr f i v).tdrBuf = m.tdrBuf := rfl
@[simp] theorem Mod.wr_fwd (m : Mod) (f : Fld) (i v : Nat) : (m.wr f i v).fwd = m.fwd := rfl
@[simp] theorem Mod.wr_fwdStage (m : Mod) (f : Fld) (i v : Nat) : (m.wr f i v).fwdStage = m.fwdStage := rfl
@[simp] theorem Mod.wr_vlan (m : Mod) (f : Fld) (i v : Nat) : (m.wr f i v).vlan = m.vlan := rfl
@[simp] theorem Mod.wr_vlanStage (m : Mod) (f : Fld) (i v : Nat) : (m.wr f i v).vlanStage = m.vlanStage := rfl
@[simp] theorem Mod.wr_egress (m : Mod) (f : Fld) (i v : Nat) : (m.wr f i v).egress = m.egress := rfl
@[simp] theorem Mod.wr_htxDone (m : Mod) (f : Fld) (i v : Nat) : (m.wr f i v).htxDone = m.htxDone := rfl
@[simp] theorem Mod.wr_ltxTaken (m : Mod) (f : Fld) (i v : Nat) : (m.wr f i v).ltxTaken = m.ltxTaken := rfl
@[simp] theorem Mod.wr_ltxDone (m : Mod) (f : Fld) (i v : Nat) : (m.wr f i v).ltxDone = m.ltxDone := rfl
@[simp] theorem Mod.wr_dramPoison (m : Mod) (f : Fld) (i v : Nat) : (m.wr f i v).dramPoison = m.dramPoison := rfl
@[simp] theorem Mod.wr_spoiled (m : Mod) (f : Fld) (i v : Nat) : (m.wr f i v).spoiled = m.spoiled := rfl
@[simp] theorem Mod.wr_plru (m : Mod) (f : Fld) (i v : Nat) : (m.wr f i v).plru = m.plru := rfl
@[simp] theorem Mod.wr_side (m : Mod) (f : Fld) (i v : Nat) : (m.wr f i v).side = m.side := rfl
@[simp] theorem Mod.wr_victims (m : Mod) (f : Fld) (i v : Nat) : (m.wr f i v).victims = m.victims := rfl
@[simp] theorem Mod.wr_held (m : Mod) (f : Fld) (i v : Nat) : (m.wr f i v).held = m.held := rfl
@[simp] theorem Mod.wr_rng (m : Mod) (f : Fld) (i v : Nat) : (m.wr f i v).rng = m.rng := rfl
@[simp] theorem Mod.wr_pdWays (m : Mod) (f : Fld) (i v : Nat) : (m.wr f i v).pdWays = m.pdWays := rfl
@[simp] theorem Mod.wr_csRun (m : Mod) (f : Fld) (i v : Nat) : (m.wr f i v).csRun = m.csRun := rfl
@[simp] theorem Mod.wr_csErases (m : Mod) (f : Fld) (i v : Nat) : (m.wr f i v).csErases = m.csErases := rfl
@[simp] theorem Mod.wr_trainTries (m : Mod) (f : Fld) (i v : Nat) : (m.wr f i v).trainTries = m.trainTries := rfl
@[simp] theorem Mod.wr_dramHot (m : Mod) (f : Fld) (i v : Nat) : (m.wr f i v).dramHot = m.dramHot := rfl
@[simp] theorem Mod.wr_escCell (m : Mod) (f : Fld) (i v : Nat) : (m.wr f i v).escCell = m.escCell := rfl
@[simp] theorem Mod.wr_escBlock (m : Mod) (f : Fld) (i v : Nat) : (m.wr f i v).escBlock = m.escBlock := rfl
@[simp] theorem Mod.wr_escRgn (m : Mod) (f : Fld) (i v : Nat) : (m.wr f i v).escRgn = m.escRgn := rfl
@[simp] theorem Mod.wr_escDue (m : Mod) (f : Fld) (i v : Nat) : (m.wr f i v).escDue = m.escDue := rfl
@[simp] theorem Mod.wr_rgnAct (m : Mod) (f : Fld) (i v : Nat) : (m.wr f i v).rgnAct = m.rgnAct := rfl
@[simp] theorem Mod.wr_federated (m : Mod) (f : Fld) (i v : Nat) : (m.wr f i v).federated = m.federated := rfl
@[simp] theorem Mod.wr_serving (m : Mod) (f : Fld) (i v : Nat) : (m.wr f i v).serving = m.serving := rfl
@[simp] theorem Mod.wr_runs (m : Mod) (f : Fld) (i v : Nat) : (m.wr f i v).runs = m.runs := rfl
@[simp] theorem Mod.wr_heldReqs (m : Mod) (f : Fld) (i v : Nat) : (m.wr f i v).heldReqs = m.heldReqs := rfl
@[simp] theorem Mod.wr_nextTid (m : Mod) (f : Fld) (i v : Nat) : (m.wr f i v).nextTid = m.nextTid := rfl
@[simp] theorem Mod.wr_cbs (m : Mod) (f : Fld) (i v : Nat) : (m.wr f i v).cbs = m.cbs := rfl
@[simp] theorem Mod.wr_gathers (m : Mod) (f : Fld) (i v : Nat) : (m.wr f i v).gathers = m.gathers := rfl
@[simp] theorem Mod.wr_relays (m : Mod) (f : Fld) (i v : Nat) : (m.wr f i v).relays = m.relays := rfl
@[simp] theorem Mod.wr_served (m : Mod) (f : Fld) (i v : Nat) : (m.wr f i v).served = m.served := rfl
@[simp] theorem Mod.wr_fwA (m : Mod) (f : Fld) (i v : Nat) : (m.wr f i v).fwA = m.fwA := rfl
@[simp] theorem Mod.wr_fwB (m : Mod) (f : Fld) (i v : Nat) : (m.wr f i v).fwB = m.fwB := rfl
@[simp] theorem Mod.wr_runB (m : Mod) (f : Fld) (i v : Nat) : (m.wr f i v).runB = m.runB := rfl
@[simp] theorem Mod.wr_trialWait (m : Mod) (f : Fld) (i v : Nat) : (m.wr f i v).trialWait = m.trialWait := rfl
@[simp] theorem Mod.wr_laneMax (m : Mod) (f : Fld) (i v : Nat) : (m.wr f i v).laneMax = m.laneMax := rfl
@[simp] theorem Mod.wr_domRetry (m : Mod) (f : Fld) (i v : Nat) : (m.wr f i v).domRetry = m.domRetry := rfl
@[simp] theorem Mod.wr_wire (m : Mod) (f : Fld) (i v : Nat) : (m.wr f i v).wire = m.wire := rfl
@[simp] theorem Mod.wr_parked (m : Mod) (f : Fld) (i v : Nat) : (m.wr f i v).parked = m.parked := rfl
@[simp] theorem Mod.wr_resetCommits (m : Mod) (f : Fld) (i v : Nat) : (m.wr f i v).resetCommits = m.resetCommits := rfl
@[simp] theorem Mod.wr_heardNow (m : Mod) (f : Fld) (i v : Nat) : (m.wr f i v).heardNow = m.heardNow := rfl

@[simp] theorem Mod.put_staged (m : Mod) (f : Fld) (i : Nat) (b : Bool) : (m.put f i b).staged = m.staged := rfl
@[simp] theorem Mod.put_stageImage (m : Mod) (f : Fld) (i : Nat) (b : Bool) : (m.put f i b).stageImage = m.stageImage := rfl
@[simp] theorem Mod.put_freeCtr (m : Mod) (f : Fld) (i : Nat) (b : Bool) : (m.put f i b).freeCtr = m.freeCtr := rfl
@[simp] theorem Mod.put_now (m : Mod) (f : Fld) (i : Nat) (b : Bool) : (m.put f i b).now = m.now := rfl
@[simp] theorem Mod.put_mono (m : Mod) (f : Fld) (i : Nat) (b : Bool) : (m.put f i b).mono = m.mono := rfl
@[simp] theorem Mod.put_corr (m : Mod) (f : Fld) (i : Nat) (b : Bool) : (m.put f i b).corr = m.corr := rfl
@[simp] theorem Mod.put_slots (m : Mod) (f : Fld) (i : Nat) (b : Bool) : (m.put f i b).slots = m.slots := rfl
@[simp] theorem Mod.put_clks (m : Mod) (f : Fld) (i : Nat) (b : Bool) : (m.put f i b).clks = m.clks := rfl
@[simp] theorem Mod.put_ports (m : Mod) (f : Fld) (i : Nat) (b : Bool) : (m.put f i b).ports = m.ports := rfl
@[simp] theorem Mod.put_dies (m : Mod) (f : Fld) (i : Nat) (b : Bool) : (m.put f i b).dies = m.dies := rfl
@[simp] theorem Mod.put_recs (m : Mod) (f : Fld) (i : Nat) (b : Bool) : (m.put f i b).recs = m.recs := rfl
@[simp] theorem Mod.put_ostat (m : Mod) (f : Fld) (i : Nat) (b : Bool) : (m.put f i b).ostat = m.ostat := rfl
@[simp] theorem Mod.put_captured (m : Mod) (f : Fld) (i : Nat) (b : Bool) : (m.put f i b).captured = m.captured := rfl
@[simp] theorem Mod.put_mem (m : Mod) (f : Fld) (i : Nat) (b : Bool) : (m.put f i b).mem = m.mem := rfl
@[simp] theorem Mod.put_tags (m : Mod) (f : Fld) (i : Nat) (b : Bool) : (m.put f i b).tags = m.tags := rfl
@[simp] theorem Mod.put_lines (m : Mod) (f : Fld) (i : Nat) (b : Bool) : (m.put f i b).lines = m.lines := rfl
@[simp] theorem Mod.put_gatePend (m : Mod) (f : Fld) (i : Nat) (b : Bool) : (m.put f i b).gatePend = m.gatePend := rfl
@[simp] theorem Mod.put_vq (m : Mod) (f : Fld) (i : Nat) (b : Bool) : (m.put f i b).vq = m.vq := rfl
@[simp] theorem Mod.put_fq (m : Mod) (f : Fld) (i : Nat) (b : Bool) : (m.put f i b).fq = m.fq := rfl
@[simp] theorem Mod.put_sdFaults (m : Mod) (f : Fld) (i : Nat) (b : Bool) : (m.put f i b).sdFaults = m.sdFaults := rfl
@[simp] theorem Mod.put_sdEvents (m : Mod) (f : Fld) (i : Nat) (b : Bool) : (m.put f i b).sdEvents = m.sdEvents := rfl
@[simp] theorem Mod.put_inFlight (m : Mod) (f : Fld) (i : Nat) (b : Bool) : (m.put f i b).inFlight = m.inFlight := rfl
@[simp] theorem Mod.put_cores (m : Mod) (f : Fld) (i : Nat) (b : Bool) : (m.put f i b).cores = m.cores := rfl
@[simp] theorem Mod.put_links (m : Mod) (f : Fld) (i : Nat) (b : Bool) : (m.put f i b).links = m.links := rfl
@[simp] theorem Mod.put_req (m : Mod) (f : Fld) (i : Nat) (b : Bool) : (m.put f i b).req = m.req := rfl
@[simp] theorem Mod.put_fed (m : Mod) (f : Fld) (i : Nat) (b : Bool) : (m.put f i b).fed = m.fed := rfl
@[simp] theorem Mod.put_mx (m : Mod) (f : Fld) (i : Nat) (b : Bool) : (m.put f i b).mx = m.mx := rfl
@[simp] theorem Mod.put_xfr (m : Mod) (f : Fld) (i : Nat) (b : Bool) : (m.put f i b).xfr = m.xfr := rfl
@[simp] theorem Mod.put_host (m : Mod) (f : Fld) (i : Nat) (b : Bool) : (m.put f i b).host = m.host := rfl
@[simp] theorem Mod.put_sess (m : Mod) (f : Fld) (i : Nat) (b : Bool) : (m.put f i b).sess = m.sess := rfl
@[simp] theorem Mod.put_wins (m : Mod) (f : Fld) (i : Nat) (b : Bool) : (m.put f i b).wins = m.wins := rfl
@[simp] theorem Mod.put_lock (m : Mod) (f : Fld) (i : Nat) (b : Bool) : (m.put f i b).lock = m.lock := rfl
@[simp] theorem Mod.put_imgUp (m : Mod) (f : Fld) (i : Nat) (b : Bool) : (m.put f i b).imgUp = m.imgUp := rfl
@[simp] theorem Mod.put_fwUp (m : Mod) (f : Fld) (i : Nat) (b : Bool) : (m.put f i b).fwUp = m.fwUp := rfl
@[simp] theorem Mod.put_long (m : Mod) (f : Fld) (i : Nat) (b : Bool) : (m.put f i b).long = m.long := rfl
@[simp] theorem Mod.put_cfg (m : Mod) (f : Fld) (i : Nat) (b : Bool) : (m.put f i b).cfg = m.cfg := rfl
@[simp] theorem Mod.put_phase (m : Mod) (f : Fld) (i : Nat) (b : Bool) : (m.put f i b).phase = m.phase := rfl
@[simp] theorem Mod.put_goose (m : Mod) (f : Fld) (i : Nat) (b : Bool) : (m.put f i b).goose = m.goose := rfl
@[simp] theorem Mod.put_rook (m : Mod) (f : Fld) (i : Nat) (b : Bool) : (m.put f i b).rook = m.rook := rfl
@[simp] theorem Mod.put_desc (m : Mod) (f : Fld) (i : Nat) (b : Bool) : (m.put f i b).desc = m.desc := rfl
@[simp] theorem Mod.put_twin (m : Mod) (f : Fld) (i : Nat) (b : Bool) : (m.put f i b).twin = m.twin := rfl
@[simp] theorem Mod.put_waking (m : Mod) (f : Fld) (i : Nat) (b : Bool) : (m.put f i b).waking = m.waking := rfl
@[simp] theorem Mod.put_sent (m : Mod) (f : Fld) (i : Nat) (b : Bool) : (m.put f i b).sent = m.sent := rfl
@[simp] theorem Mod.put_rgnPhase (m : Mod) (f : Fld) (i : Nat) (b : Bool) : (m.put f i b).rgnPhase = m.rgnPhase := rfl
@[simp] theorem Mod.put_devSafe (m : Mod) (f : Fld) (i : Nat) (b : Bool) : (m.put f i b).devSafe = m.devSafe := rfl
@[simp] theorem Mod.put_sweep (m : Mod) (f : Fld) (i : Nat) (b : Bool) : (m.put f i b).sweep = m.sweep := rfl
@[simp] theorem Mod.put_dramUp (m : Mod) (f : Fld) (i : Nat) (b : Bool) : (m.put f i b).dramUp = m.dramUp := rfl
@[simp] theorem Mod.put_acc (m : Mod) (f : Fld) (i : Nat) (b : Bool) : (m.put f i b).acc = m.acc := rfl
@[simp] theorem Mod.put_goodIv (m : Mod) (f : Fld) (i : Nat) (b : Bool) : (m.put f i b).goodIv = m.goodIv := rfl
@[simp] theorem Mod.put_badIv (m : Mod) (f : Fld) (i : Nat) (b : Bool) : (m.put f i b).badIv = m.badIv := rfl
@[simp] theorem Mod.put_skips (m : Mod) (f : Fld) (i : Nat) (b : Bool) : (m.put f i b).skips = m.skips := rfl
@[simp] theorem Mod.put_holdFrom (m : Mod) (f : Fld) (i : Nat) (b : Bool) : (m.put f i b).holdFrom = m.holdFrom := rfl
@[simp] theorem Mod.put_lastSync (m : Mod) (f : Fld) (i : Nat) (b : Bool) : (m.put f i b).lastSync = m.lastSync := rfl
@[simp] theorem Mod.put_rate10 (m : Mod) (f : Fld) (i : Nat) (b : Bool) : (m.put f i b).rate10 = m.rate10 := rfl
@[simp] theorem Mod.put_heard (m : Mod) (f : Fld) (i : Nat) (b : Bool) : (m.put f i b).heard = m.heard := rfl
@[simp] theorem Mod.put_fallNow (m : Mod) (f : Fld) (i : Nat) (b : Bool) : (m.put f i b).fallNow = m.fallNow := rfl
@[simp] theorem Mod.put_recAux (m : Mod) (f : Fld) (i : Nat) (b : Bool) : (m.put f i b).recAux = m.recAux := rfl
@[simp] theorem Mod.put_outSeq (m : Mod) (f : Fld) (i : Nat) (b : Bool) : (m.put f i b).outSeq = m.outSeq := rfl
@[simp] theorem Mod.put_lastCapture (m : Mod) (f : Fld) (i : Nat) (b : Bool) : (m.put f i b).lastCapture = m.lastCapture := rfl
@[simp] theorem Mod.put_lastDone (m : Mod) (f : Fld) (i : Nat) (b : Bool) : (m.put f i b).lastDone = m.lastDone := rfl
@[simp] theorem Mod.put_settleEnd (m : Mod) (f : Fld) (i : Nat) (b : Bool) : (m.put f i b).settleEnd = m.settleEnd := rfl
@[simp] theorem Mod.put_chainLast (m : Mod) (f : Fld) (i : Nat) (b : Bool) : (m.put f i b).chainLast = m.chainLast := rfl
@[simp] theorem Mod.put_tdrBuf (m : Mod) (f : Fld) (i : Nat) (b : Bool) : (m.put f i b).tdrBuf = m.tdrBuf := rfl
@[simp] theorem Mod.put_fwd (m : Mod) (f : Fld) (i : Nat) (b : Bool) : (m.put f i b).fwd = m.fwd := rfl
@[simp] theorem Mod.put_fwdStage (m : Mod) (f : Fld) (i : Nat) (b : Bool) : (m.put f i b).fwdStage = m.fwdStage := rfl
@[simp] theorem Mod.put_vlan (m : Mod) (f : Fld) (i : Nat) (b : Bool) : (m.put f i b).vlan = m.vlan := rfl
@[simp] theorem Mod.put_vlanStage (m : Mod) (f : Fld) (i : Nat) (b : Bool) : (m.put f i b).vlanStage = m.vlanStage := rfl
@[simp] theorem Mod.put_egress (m : Mod) (f : Fld) (i : Nat) (b : Bool) : (m.put f i b).egress = m.egress := rfl
@[simp] theorem Mod.put_htxDone (m : Mod) (f : Fld) (i : Nat) (b : Bool) : (m.put f i b).htxDone = m.htxDone := rfl
@[simp] theorem Mod.put_ltxTaken (m : Mod) (f : Fld) (i : Nat) (b : Bool) : (m.put f i b).ltxTaken = m.ltxTaken := rfl
@[simp] theorem Mod.put_ltxDone (m : Mod) (f : Fld) (i : Nat) (b : Bool) : (m.put f i b).ltxDone = m.ltxDone := rfl
@[simp] theorem Mod.put_dramPoison (m : Mod) (f : Fld) (i : Nat) (b : Bool) : (m.put f i b).dramPoison = m.dramPoison := rfl
@[simp] theorem Mod.put_spoiled (m : Mod) (f : Fld) (i : Nat) (b : Bool) : (m.put f i b).spoiled = m.spoiled := rfl
@[simp] theorem Mod.put_plru (m : Mod) (f : Fld) (i : Nat) (b : Bool) : (m.put f i b).plru = m.plru := rfl
@[simp] theorem Mod.put_side (m : Mod) (f : Fld) (i : Nat) (b : Bool) : (m.put f i b).side = m.side := rfl
@[simp] theorem Mod.put_victims (m : Mod) (f : Fld) (i : Nat) (b : Bool) : (m.put f i b).victims = m.victims := rfl
@[simp] theorem Mod.put_held (m : Mod) (f : Fld) (i : Nat) (b : Bool) : (m.put f i b).held = m.held := rfl
@[simp] theorem Mod.put_rng (m : Mod) (f : Fld) (i : Nat) (b : Bool) : (m.put f i b).rng = m.rng := rfl
@[simp] theorem Mod.put_pdWays (m : Mod) (f : Fld) (i : Nat) (b : Bool) : (m.put f i b).pdWays = m.pdWays := rfl
@[simp] theorem Mod.put_csRun (m : Mod) (f : Fld) (i : Nat) (b : Bool) : (m.put f i b).csRun = m.csRun := rfl
@[simp] theorem Mod.put_csErases (m : Mod) (f : Fld) (i : Nat) (b : Bool) : (m.put f i b).csErases = m.csErases := rfl
@[simp] theorem Mod.put_trainTries (m : Mod) (f : Fld) (i : Nat) (b : Bool) : (m.put f i b).trainTries = m.trainTries := rfl
@[simp] theorem Mod.put_dramHot (m : Mod) (f : Fld) (i : Nat) (b : Bool) : (m.put f i b).dramHot = m.dramHot := rfl
@[simp] theorem Mod.put_escCell (m : Mod) (f : Fld) (i : Nat) (b : Bool) : (m.put f i b).escCell = m.escCell := rfl
@[simp] theorem Mod.put_escBlock (m : Mod) (f : Fld) (i : Nat) (b : Bool) : (m.put f i b).escBlock = m.escBlock := rfl
@[simp] theorem Mod.put_escRgn (m : Mod) (f : Fld) (i : Nat) (b : Bool) : (m.put f i b).escRgn = m.escRgn := rfl
@[simp] theorem Mod.put_escDue (m : Mod) (f : Fld) (i : Nat) (b : Bool) : (m.put f i b).escDue = m.escDue := rfl
@[simp] theorem Mod.put_rgnAct (m : Mod) (f : Fld) (i : Nat) (b : Bool) : (m.put f i b).rgnAct = m.rgnAct := rfl
@[simp] theorem Mod.put_federated (m : Mod) (f : Fld) (i : Nat) (b : Bool) : (m.put f i b).federated = m.federated := rfl
@[simp] theorem Mod.put_serving (m : Mod) (f : Fld) (i : Nat) (b : Bool) : (m.put f i b).serving = m.serving := rfl
@[simp] theorem Mod.put_runs (m : Mod) (f : Fld) (i : Nat) (b : Bool) : (m.put f i b).runs = m.runs := rfl
@[simp] theorem Mod.put_heldReqs (m : Mod) (f : Fld) (i : Nat) (b : Bool) : (m.put f i b).heldReqs = m.heldReqs := rfl
@[simp] theorem Mod.put_nextTid (m : Mod) (f : Fld) (i : Nat) (b : Bool) : (m.put f i b).nextTid = m.nextTid := rfl
@[simp] theorem Mod.put_cbs (m : Mod) (f : Fld) (i : Nat) (b : Bool) : (m.put f i b).cbs = m.cbs := rfl
@[simp] theorem Mod.put_gathers (m : Mod) (f : Fld) (i : Nat) (b : Bool) : (m.put f i b).gathers = m.gathers := rfl
@[simp] theorem Mod.put_relays (m : Mod) (f : Fld) (i : Nat) (b : Bool) : (m.put f i b).relays = m.relays := rfl
@[simp] theorem Mod.put_served (m : Mod) (f : Fld) (i : Nat) (b : Bool) : (m.put f i b).served = m.served := rfl
@[simp] theorem Mod.put_fwA (m : Mod) (f : Fld) (i : Nat) (b : Bool) : (m.put f i b).fwA = m.fwA := rfl
@[simp] theorem Mod.put_fwB (m : Mod) (f : Fld) (i : Nat) (b : Bool) : (m.put f i b).fwB = m.fwB := rfl
@[simp] theorem Mod.put_runB (m : Mod) (f : Fld) (i : Nat) (b : Bool) : (m.put f i b).runB = m.runB := rfl
@[simp] theorem Mod.put_trialWait (m : Mod) (f : Fld) (i : Nat) (b : Bool) : (m.put f i b).trialWait = m.trialWait := rfl
@[simp] theorem Mod.put_laneMax (m : Mod) (f : Fld) (i : Nat) (b : Bool) : (m.put f i b).laneMax = m.laneMax := rfl
@[simp] theorem Mod.put_domRetry (m : Mod) (f : Fld) (i : Nat) (b : Bool) : (m.put f i b).domRetry = m.domRetry := rfl
@[simp] theorem Mod.put_wire (m : Mod) (f : Fld) (i : Nat) (b : Bool) : (m.put f i b).wire = m.wire := rfl
@[simp] theorem Mod.put_parked (m : Mod) (f : Fld) (i : Nat) (b : Bool) : (m.put f i b).parked = m.parked := rfl
@[simp] theorem Mod.put_resetCommits (m : Mod) (f : Fld) (i : Nat) (b : Bool) : (m.put f i b).resetCommits = m.resetCommits := rfl
@[simp] theorem Mod.put_heardNow (m : Mod) (f : Fld) (i : Nat) (b : Bool) : (m.put f i b).heardNow = m.heardNow := rfl

@[simp] theorem Mod.count_staged (m : Mod) (f : Fld) (i k : Nat) : (m.count f i k).staged = m.staged := rfl
@[simp] theorem Mod.count_stageImage (m : Mod) (f : Fld) (i k : Nat) : (m.count f i k).stageImage = m.stageImage := rfl
@[simp] theorem Mod.count_freeCtr (m : Mod) (f : Fld) (i k : Nat) : (m.count f i k).freeCtr = m.freeCtr := rfl
@[simp] theorem Mod.count_now (m : Mod) (f : Fld) (i k : Nat) : (m.count f i k).now = m.now := rfl
@[simp] theorem Mod.count_mono (m : Mod) (f : Fld) (i k : Nat) : (m.count f i k).mono = m.mono := rfl
@[simp] theorem Mod.count_corr (m : Mod) (f : Fld) (i k : Nat) : (m.count f i k).corr = m.corr := rfl
@[simp] theorem Mod.count_slots (m : Mod) (f : Fld) (i k : Nat) : (m.count f i k).slots = m.slots := rfl
@[simp] theorem Mod.count_clks (m : Mod) (f : Fld) (i k : Nat) : (m.count f i k).clks = m.clks := rfl
@[simp] theorem Mod.count_ports (m : Mod) (f : Fld) (i k : Nat) : (m.count f i k).ports = m.ports := rfl
@[simp] theorem Mod.count_dies (m : Mod) (f : Fld) (i k : Nat) : (m.count f i k).dies = m.dies := rfl
@[simp] theorem Mod.count_recs (m : Mod) (f : Fld) (i k : Nat) : (m.count f i k).recs = m.recs := rfl
@[simp] theorem Mod.count_ostat (m : Mod) (f : Fld) (i k : Nat) : (m.count f i k).ostat = m.ostat := rfl
@[simp] theorem Mod.count_captured (m : Mod) (f : Fld) (i k : Nat) : (m.count f i k).captured = m.captured := rfl
@[simp] theorem Mod.count_mem (m : Mod) (f : Fld) (i k : Nat) : (m.count f i k).mem = m.mem := rfl
@[simp] theorem Mod.count_tags (m : Mod) (f : Fld) (i k : Nat) : (m.count f i k).tags = m.tags := rfl
@[simp] theorem Mod.count_lines (m : Mod) (f : Fld) (i k : Nat) : (m.count f i k).lines = m.lines := rfl
@[simp] theorem Mod.count_gatePend (m : Mod) (f : Fld) (i k : Nat) : (m.count f i k).gatePend = m.gatePend := rfl
@[simp] theorem Mod.count_vq (m : Mod) (f : Fld) (i k : Nat) : (m.count f i k).vq = m.vq := rfl
@[simp] theorem Mod.count_fq (m : Mod) (f : Fld) (i k : Nat) : (m.count f i k).fq = m.fq := rfl
@[simp] theorem Mod.count_sdFaults (m : Mod) (f : Fld) (i k : Nat) : (m.count f i k).sdFaults = m.sdFaults := rfl
@[simp] theorem Mod.count_sdEvents (m : Mod) (f : Fld) (i k : Nat) : (m.count f i k).sdEvents = m.sdEvents := rfl
@[simp] theorem Mod.count_inFlight (m : Mod) (f : Fld) (i k : Nat) : (m.count f i k).inFlight = m.inFlight := rfl
@[simp] theorem Mod.count_cores (m : Mod) (f : Fld) (i k : Nat) : (m.count f i k).cores = m.cores := rfl
@[simp] theorem Mod.count_links (m : Mod) (f : Fld) (i k : Nat) : (m.count f i k).links = m.links := rfl
@[simp] theorem Mod.count_req (m : Mod) (f : Fld) (i k : Nat) : (m.count f i k).req = m.req := rfl
@[simp] theorem Mod.count_fed (m : Mod) (f : Fld) (i k : Nat) : (m.count f i k).fed = m.fed := rfl
@[simp] theorem Mod.count_mx (m : Mod) (f : Fld) (i k : Nat) : (m.count f i k).mx = m.mx := rfl
@[simp] theorem Mod.count_xfr (m : Mod) (f : Fld) (i k : Nat) : (m.count f i k).xfr = m.xfr := rfl
@[simp] theorem Mod.count_host (m : Mod) (f : Fld) (i k : Nat) : (m.count f i k).host = m.host := rfl
@[simp] theorem Mod.count_sess (m : Mod) (f : Fld) (i k : Nat) : (m.count f i k).sess = m.sess := rfl
@[simp] theorem Mod.count_wins (m : Mod) (f : Fld) (i k : Nat) : (m.count f i k).wins = m.wins := rfl
@[simp] theorem Mod.count_lock (m : Mod) (f : Fld) (i k : Nat) : (m.count f i k).lock = m.lock := rfl
@[simp] theorem Mod.count_imgUp (m : Mod) (f : Fld) (i k : Nat) : (m.count f i k).imgUp = m.imgUp := rfl
@[simp] theorem Mod.count_fwUp (m : Mod) (f : Fld) (i k : Nat) : (m.count f i k).fwUp = m.fwUp := rfl
@[simp] theorem Mod.count_long (m : Mod) (f : Fld) (i k : Nat) : (m.count f i k).long = m.long := rfl
@[simp] theorem Mod.count_cfg (m : Mod) (f : Fld) (i k : Nat) : (m.count f i k).cfg = m.cfg := rfl
@[simp] theorem Mod.count_phase (m : Mod) (f : Fld) (i k : Nat) : (m.count f i k).phase = m.phase := rfl
@[simp] theorem Mod.count_goose (m : Mod) (f : Fld) (i k : Nat) : (m.count f i k).goose = m.goose := rfl
@[simp] theorem Mod.count_rook (m : Mod) (f : Fld) (i k : Nat) : (m.count f i k).rook = m.rook := rfl
@[simp] theorem Mod.count_desc (m : Mod) (f : Fld) (i k : Nat) : (m.count f i k).desc = m.desc := rfl
@[simp] theorem Mod.count_twin (m : Mod) (f : Fld) (i k : Nat) : (m.count f i k).twin = m.twin := rfl
@[simp] theorem Mod.count_waking (m : Mod) (f : Fld) (i k : Nat) : (m.count f i k).waking = m.waking := rfl
@[simp] theorem Mod.count_sent (m : Mod) (f : Fld) (i k : Nat) : (m.count f i k).sent = m.sent := rfl
@[simp] theorem Mod.count_rgnPhase (m : Mod) (f : Fld) (i k : Nat) : (m.count f i k).rgnPhase = m.rgnPhase := rfl
@[simp] theorem Mod.count_devSafe (m : Mod) (f : Fld) (i k : Nat) : (m.count f i k).devSafe = m.devSafe := rfl
@[simp] theorem Mod.count_sweep (m : Mod) (f : Fld) (i k : Nat) : (m.count f i k).sweep = m.sweep := rfl
@[simp] theorem Mod.count_dramUp (m : Mod) (f : Fld) (i k : Nat) : (m.count f i k).dramUp = m.dramUp := rfl
@[simp] theorem Mod.count_acc (m : Mod) (f : Fld) (i k : Nat) : (m.count f i k).acc = m.acc := rfl
@[simp] theorem Mod.count_goodIv (m : Mod) (f : Fld) (i k : Nat) : (m.count f i k).goodIv = m.goodIv := rfl
@[simp] theorem Mod.count_badIv (m : Mod) (f : Fld) (i k : Nat) : (m.count f i k).badIv = m.badIv := rfl
@[simp] theorem Mod.count_skips (m : Mod) (f : Fld) (i k : Nat) : (m.count f i k).skips = m.skips := rfl
@[simp] theorem Mod.count_holdFrom (m : Mod) (f : Fld) (i k : Nat) : (m.count f i k).holdFrom = m.holdFrom := rfl
@[simp] theorem Mod.count_lastSync (m : Mod) (f : Fld) (i k : Nat) : (m.count f i k).lastSync = m.lastSync := rfl
@[simp] theorem Mod.count_rate10 (m : Mod) (f : Fld) (i k : Nat) : (m.count f i k).rate10 = m.rate10 := rfl
@[simp] theorem Mod.count_heard (m : Mod) (f : Fld) (i k : Nat) : (m.count f i k).heard = m.heard := rfl
@[simp] theorem Mod.count_fallNow (m : Mod) (f : Fld) (i k : Nat) : (m.count f i k).fallNow = m.fallNow := rfl
@[simp] theorem Mod.count_recAux (m : Mod) (f : Fld) (i k : Nat) : (m.count f i k).recAux = m.recAux := rfl
@[simp] theorem Mod.count_outSeq (m : Mod) (f : Fld) (i k : Nat) : (m.count f i k).outSeq = m.outSeq := rfl
@[simp] theorem Mod.count_lastCapture (m : Mod) (f : Fld) (i k : Nat) : (m.count f i k).lastCapture = m.lastCapture := rfl
@[simp] theorem Mod.count_lastDone (m : Mod) (f : Fld) (i k : Nat) : (m.count f i k).lastDone = m.lastDone := rfl
@[simp] theorem Mod.count_settleEnd (m : Mod) (f : Fld) (i k : Nat) : (m.count f i k).settleEnd = m.settleEnd := rfl
@[simp] theorem Mod.count_chainLast (m : Mod) (f : Fld) (i k : Nat) : (m.count f i k).chainLast = m.chainLast := rfl
@[simp] theorem Mod.count_tdrBuf (m : Mod) (f : Fld) (i k : Nat) : (m.count f i k).tdrBuf = m.tdrBuf := rfl
@[simp] theorem Mod.count_fwd (m : Mod) (f : Fld) (i k : Nat) : (m.count f i k).fwd = m.fwd := rfl
@[simp] theorem Mod.count_fwdStage (m : Mod) (f : Fld) (i k : Nat) : (m.count f i k).fwdStage = m.fwdStage := rfl
@[simp] theorem Mod.count_vlan (m : Mod) (f : Fld) (i k : Nat) : (m.count f i k).vlan = m.vlan := rfl
@[simp] theorem Mod.count_vlanStage (m : Mod) (f : Fld) (i k : Nat) : (m.count f i k).vlanStage = m.vlanStage := rfl
@[simp] theorem Mod.count_egress (m : Mod) (f : Fld) (i k : Nat) : (m.count f i k).egress = m.egress := rfl
@[simp] theorem Mod.count_htxDone (m : Mod) (f : Fld) (i k : Nat) : (m.count f i k).htxDone = m.htxDone := rfl
@[simp] theorem Mod.count_ltxTaken (m : Mod) (f : Fld) (i k : Nat) : (m.count f i k).ltxTaken = m.ltxTaken := rfl
@[simp] theorem Mod.count_ltxDone (m : Mod) (f : Fld) (i k : Nat) : (m.count f i k).ltxDone = m.ltxDone := rfl
@[simp] theorem Mod.count_dramPoison (m : Mod) (f : Fld) (i k : Nat) : (m.count f i k).dramPoison = m.dramPoison := rfl
@[simp] theorem Mod.count_spoiled (m : Mod) (f : Fld) (i k : Nat) : (m.count f i k).spoiled = m.spoiled := rfl
@[simp] theorem Mod.count_plru (m : Mod) (f : Fld) (i k : Nat) : (m.count f i k).plru = m.plru := rfl
@[simp] theorem Mod.count_side (m : Mod) (f : Fld) (i k : Nat) : (m.count f i k).side = m.side := rfl
@[simp] theorem Mod.count_victims (m : Mod) (f : Fld) (i k : Nat) : (m.count f i k).victims = m.victims := rfl
@[simp] theorem Mod.count_held (m : Mod) (f : Fld) (i k : Nat) : (m.count f i k).held = m.held := rfl
@[simp] theorem Mod.count_rng (m : Mod) (f : Fld) (i k : Nat) : (m.count f i k).rng = m.rng := rfl
@[simp] theorem Mod.count_pdWays (m : Mod) (f : Fld) (i k : Nat) : (m.count f i k).pdWays = m.pdWays := rfl
@[simp] theorem Mod.count_csRun (m : Mod) (f : Fld) (i k : Nat) : (m.count f i k).csRun = m.csRun := rfl
@[simp] theorem Mod.count_csErases (m : Mod) (f : Fld) (i k : Nat) : (m.count f i k).csErases = m.csErases := rfl
@[simp] theorem Mod.count_trainTries (m : Mod) (f : Fld) (i k : Nat) : (m.count f i k).trainTries = m.trainTries := rfl
@[simp] theorem Mod.count_dramHot (m : Mod) (f : Fld) (i k : Nat) : (m.count f i k).dramHot = m.dramHot := rfl
@[simp] theorem Mod.count_escCell (m : Mod) (f : Fld) (i k : Nat) : (m.count f i k).escCell = m.escCell := rfl
@[simp] theorem Mod.count_escBlock (m : Mod) (f : Fld) (i k : Nat) : (m.count f i k).escBlock = m.escBlock := rfl
@[simp] theorem Mod.count_escRgn (m : Mod) (f : Fld) (i k : Nat) : (m.count f i k).escRgn = m.escRgn := rfl
@[simp] theorem Mod.count_escDue (m : Mod) (f : Fld) (i k : Nat) : (m.count f i k).escDue = m.escDue := rfl
@[simp] theorem Mod.count_rgnAct (m : Mod) (f : Fld) (i k : Nat) : (m.count f i k).rgnAct = m.rgnAct := rfl
@[simp] theorem Mod.count_federated (m : Mod) (f : Fld) (i k : Nat) : (m.count f i k).federated = m.federated := rfl
@[simp] theorem Mod.count_serving (m : Mod) (f : Fld) (i k : Nat) : (m.count f i k).serving = m.serving := rfl
@[simp] theorem Mod.count_runs (m : Mod) (f : Fld) (i k : Nat) : (m.count f i k).runs = m.runs := rfl
@[simp] theorem Mod.count_heldReqs (m : Mod) (f : Fld) (i k : Nat) : (m.count f i k).heldReqs = m.heldReqs := rfl
@[simp] theorem Mod.count_nextTid (m : Mod) (f : Fld) (i k : Nat) : (m.count f i k).nextTid = m.nextTid := rfl
@[simp] theorem Mod.count_cbs (m : Mod) (f : Fld) (i k : Nat) : (m.count f i k).cbs = m.cbs := rfl
@[simp] theorem Mod.count_gathers (m : Mod) (f : Fld) (i k : Nat) : (m.count f i k).gathers = m.gathers := rfl
@[simp] theorem Mod.count_relays (m : Mod) (f : Fld) (i k : Nat) : (m.count f i k).relays = m.relays := rfl
@[simp] theorem Mod.count_served (m : Mod) (f : Fld) (i k : Nat) : (m.count f i k).served = m.served := rfl
@[simp] theorem Mod.count_fwA (m : Mod) (f : Fld) (i k : Nat) : (m.count f i k).fwA = m.fwA := rfl
@[simp] theorem Mod.count_fwB (m : Mod) (f : Fld) (i k : Nat) : (m.count f i k).fwB = m.fwB := rfl
@[simp] theorem Mod.count_runB (m : Mod) (f : Fld) (i k : Nat) : (m.count f i k).runB = m.runB := rfl
@[simp] theorem Mod.count_trialWait (m : Mod) (f : Fld) (i k : Nat) : (m.count f i k).trialWait = m.trialWait := rfl
@[simp] theorem Mod.count_laneMax (m : Mod) (f : Fld) (i k : Nat) : (m.count f i k).laneMax = m.laneMax := rfl
@[simp] theorem Mod.count_domRetry (m : Mod) (f : Fld) (i k : Nat) : (m.count f i k).domRetry = m.domRetry := rfl
@[simp] theorem Mod.count_wire (m : Mod) (f : Fld) (i k : Nat) : (m.count f i k).wire = m.wire := rfl
@[simp] theorem Mod.count_parked (m : Mod) (f : Fld) (i k : Nat) : (m.count f i k).parked = m.parked := rfl
@[simp] theorem Mod.count_resetCommits (m : Mod) (f : Fld) (i k : Nat) : (m.count f i k).resetCommits = m.resetCommits := rfl
@[simp] theorem Mod.count_heardNow (m : Mod) (f : Fld) (i k : Nat) : (m.count f i k).heardNow = m.heardNow := rfl

@[simp] theorem Mod.setCore_regs (m : Mod) (c : Nat) (v : Core) : (m.setCore c v).regs = m.regs := rfl
@[simp] theorem Mod.setCore_staged (m : Mod) (c : Nat) (v : Core) : (m.setCore c v).staged = m.staged := rfl
@[simp] theorem Mod.setCore_stageImage (m : Mod) (c : Nat) (v : Core) : (m.setCore c v).stageImage = m.stageImage := rfl
@[simp] theorem Mod.setCore_freeCtr (m : Mod) (c : Nat) (v : Core) : (m.setCore c v).freeCtr = m.freeCtr := rfl
@[simp] theorem Mod.setCore_now (m : Mod) (c : Nat) (v : Core) : (m.setCore c v).now = m.now := rfl
@[simp] theorem Mod.setCore_mono (m : Mod) (c : Nat) (v : Core) : (m.setCore c v).mono = m.mono := rfl
@[simp] theorem Mod.setCore_corr (m : Mod) (c : Nat) (v : Core) : (m.setCore c v).corr = m.corr := rfl
@[simp] theorem Mod.setCore_slots (m : Mod) (c : Nat) (v : Core) : (m.setCore c v).slots = m.slots := rfl
@[simp] theorem Mod.setCore_clks (m : Mod) (c : Nat) (v : Core) : (m.setCore c v).clks = m.clks := rfl
@[simp] theorem Mod.setCore_ports (m : Mod) (c : Nat) (v : Core) : (m.setCore c v).ports = m.ports := rfl
@[simp] theorem Mod.setCore_dies (m : Mod) (c : Nat) (v : Core) : (m.setCore c v).dies = m.dies := rfl
@[simp] theorem Mod.setCore_recs (m : Mod) (c : Nat) (v : Core) : (m.setCore c v).recs = m.recs := rfl
@[simp] theorem Mod.setCore_ostat (m : Mod) (c : Nat) (v : Core) : (m.setCore c v).ostat = m.ostat := rfl
@[simp] theorem Mod.setCore_captured (m : Mod) (c : Nat) (v : Core) : (m.setCore c v).captured = m.captured := rfl
@[simp] theorem Mod.setCore_mem (m : Mod) (c : Nat) (v : Core) : (m.setCore c v).mem = m.mem := rfl
@[simp] theorem Mod.setCore_tags (m : Mod) (c : Nat) (v : Core) : (m.setCore c v).tags = m.tags := rfl
@[simp] theorem Mod.setCore_lines (m : Mod) (c : Nat) (v : Core) : (m.setCore c v).lines = m.lines := rfl
@[simp] theorem Mod.setCore_gatePend (m : Mod) (c : Nat) (v : Core) : (m.setCore c v).gatePend = m.gatePend := rfl
@[simp] theorem Mod.setCore_vq (m : Mod) (c : Nat) (v : Core) : (m.setCore c v).vq = m.vq := rfl
@[simp] theorem Mod.setCore_fq (m : Mod) (c : Nat) (v : Core) : (m.setCore c v).fq = m.fq := rfl
@[simp] theorem Mod.setCore_sdFaults (m : Mod) (c : Nat) (v : Core) : (m.setCore c v).sdFaults = m.sdFaults := rfl
@[simp] theorem Mod.setCore_sdEvents (m : Mod) (c : Nat) (v : Core) : (m.setCore c v).sdEvents = m.sdEvents := rfl
@[simp] theorem Mod.setCore_inFlight (m : Mod) (c : Nat) (v : Core) : (m.setCore c v).inFlight = m.inFlight := rfl
@[simp] theorem Mod.setCore_links (m : Mod) (c : Nat) (v : Core) : (m.setCore c v).links = m.links := rfl
@[simp] theorem Mod.setCore_req (m : Mod) (c : Nat) (v : Core) : (m.setCore c v).req = m.req := rfl
@[simp] theorem Mod.setCore_fed (m : Mod) (c : Nat) (v : Core) : (m.setCore c v).fed = m.fed := rfl
@[simp] theorem Mod.setCore_mx (m : Mod) (c : Nat) (v : Core) : (m.setCore c v).mx = m.mx := rfl
@[simp] theorem Mod.setCore_xfr (m : Mod) (c : Nat) (v : Core) : (m.setCore c v).xfr = m.xfr := rfl
@[simp] theorem Mod.setCore_host (m : Mod) (c : Nat) (v : Core) : (m.setCore c v).host = m.host := rfl
@[simp] theorem Mod.setCore_sess (m : Mod) (c : Nat) (v : Core) : (m.setCore c v).sess = m.sess := rfl
@[simp] theorem Mod.setCore_wins (m : Mod) (c : Nat) (v : Core) : (m.setCore c v).wins = m.wins := rfl
@[simp] theorem Mod.setCore_lock (m : Mod) (c : Nat) (v : Core) : (m.setCore c v).lock = m.lock := rfl
@[simp] theorem Mod.setCore_imgUp (m : Mod) (c : Nat) (v : Core) : (m.setCore c v).imgUp = m.imgUp := rfl
@[simp] theorem Mod.setCore_fwUp (m : Mod) (c : Nat) (v : Core) : (m.setCore c v).fwUp = m.fwUp := rfl
@[simp] theorem Mod.setCore_long (m : Mod) (c : Nat) (v : Core) : (m.setCore c v).long = m.long := rfl
@[simp] theorem Mod.setCore_cfg (m : Mod) (c : Nat) (v : Core) : (m.setCore c v).cfg = m.cfg := rfl
@[simp] theorem Mod.setCore_phase (m : Mod) (c : Nat) (v : Core) : (m.setCore c v).phase = m.phase := rfl
@[simp] theorem Mod.setCore_goose (m : Mod) (c : Nat) (v : Core) : (m.setCore c v).goose = m.goose := rfl
@[simp] theorem Mod.setCore_rook (m : Mod) (c : Nat) (v : Core) : (m.setCore c v).rook = m.rook := rfl
@[simp] theorem Mod.setCore_desc (m : Mod) (c : Nat) (v : Core) : (m.setCore c v).desc = m.desc := rfl
@[simp] theorem Mod.setCore_twin (m : Mod) (c : Nat) (v : Core) : (m.setCore c v).twin = m.twin := rfl
@[simp] theorem Mod.setCore_waking (m : Mod) (c : Nat) (v : Core) : (m.setCore c v).waking = m.waking := rfl
@[simp] theorem Mod.setCore_sent (m : Mod) (c : Nat) (v : Core) : (m.setCore c v).sent = m.sent := rfl
@[simp] theorem Mod.setCore_rgnPhase (m : Mod) (c : Nat) (v : Core) : (m.setCore c v).rgnPhase = m.rgnPhase := rfl
@[simp] theorem Mod.setCore_devSafe (m : Mod) (c : Nat) (v : Core) : (m.setCore c v).devSafe = m.devSafe := rfl
@[simp] theorem Mod.setCore_sweep (m : Mod) (c : Nat) (v : Core) : (m.setCore c v).sweep = m.sweep := rfl
@[simp] theorem Mod.setCore_dramUp (m : Mod) (c : Nat) (v : Core) : (m.setCore c v).dramUp = m.dramUp := rfl
@[simp] theorem Mod.setCore_past (m : Mod) (c : Nat) (v : Core) : (m.setCore c v).past = m.past := rfl
@[simp] theorem Mod.setCore_acc (m : Mod) (c : Nat) (v : Core) : (m.setCore c v).acc = m.acc := rfl
@[simp] theorem Mod.setCore_goodIv (m : Mod) (c : Nat) (v : Core) : (m.setCore c v).goodIv = m.goodIv := rfl
@[simp] theorem Mod.setCore_badIv (m : Mod) (c : Nat) (v : Core) : (m.setCore c v).badIv = m.badIv := rfl
@[simp] theorem Mod.setCore_skips (m : Mod) (c : Nat) (v : Core) : (m.setCore c v).skips = m.skips := rfl
@[simp] theorem Mod.setCore_holdFrom (m : Mod) (c : Nat) (v : Core) : (m.setCore c v).holdFrom = m.holdFrom := rfl
@[simp] theorem Mod.setCore_lastSync (m : Mod) (c : Nat) (v : Core) : (m.setCore c v).lastSync = m.lastSync := rfl
@[simp] theorem Mod.setCore_rate10 (m : Mod) (c : Nat) (v : Core) : (m.setCore c v).rate10 = m.rate10 := rfl
@[simp] theorem Mod.setCore_heard (m : Mod) (c : Nat) (v : Core) : (m.setCore c v).heard = m.heard := rfl
@[simp] theorem Mod.setCore_fallNow (m : Mod) (c : Nat) (v : Core) : (m.setCore c v).fallNow = m.fallNow := rfl
@[simp] theorem Mod.setCore_recAux (m : Mod) (c : Nat) (v : Core) : (m.setCore c v).recAux = m.recAux := rfl
@[simp] theorem Mod.setCore_outSeq (m : Mod) (c : Nat) (v : Core) : (m.setCore c v).outSeq = m.outSeq := rfl
@[simp] theorem Mod.setCore_lastCapture (m : Mod) (c : Nat) (v : Core) : (m.setCore c v).lastCapture = m.lastCapture := rfl
@[simp] theorem Mod.setCore_lastDone (m : Mod) (c : Nat) (v : Core) : (m.setCore c v).lastDone = m.lastDone := rfl
@[simp] theorem Mod.setCore_settleEnd (m : Mod) (c : Nat) (v : Core) : (m.setCore c v).settleEnd = m.settleEnd := rfl
@[simp] theorem Mod.setCore_chainLast (m : Mod) (c : Nat) (v : Core) : (m.setCore c v).chainLast = m.chainLast := rfl
@[simp] theorem Mod.setCore_tdrBuf (m : Mod) (c : Nat) (v : Core) : (m.setCore c v).tdrBuf = m.tdrBuf := rfl
@[simp] theorem Mod.setCore_fwd (m : Mod) (c : Nat) (v : Core) : (m.setCore c v).fwd = m.fwd := rfl
@[simp] theorem Mod.setCore_fwdStage (m : Mod) (c : Nat) (v : Core) : (m.setCore c v).fwdStage = m.fwdStage := rfl
@[simp] theorem Mod.setCore_vlan (m : Mod) (c : Nat) (v : Core) : (m.setCore c v).vlan = m.vlan := rfl
@[simp] theorem Mod.setCore_vlanStage (m : Mod) (c : Nat) (v : Core) : (m.setCore c v).vlanStage = m.vlanStage := rfl
@[simp] theorem Mod.setCore_egress (m : Mod) (c : Nat) (v : Core) : (m.setCore c v).egress = m.egress := rfl
@[simp] theorem Mod.setCore_htxDone (m : Mod) (c : Nat) (v : Core) : (m.setCore c v).htxDone = m.htxDone := rfl
@[simp] theorem Mod.setCore_ltxTaken (m : Mod) (c : Nat) (v : Core) : (m.setCore c v).ltxTaken = m.ltxTaken := rfl
@[simp] theorem Mod.setCore_ltxDone (m : Mod) (c : Nat) (v : Core) : (m.setCore c v).ltxDone = m.ltxDone := rfl
@[simp] theorem Mod.setCore_dramPoison (m : Mod) (c : Nat) (v : Core) : (m.setCore c v).dramPoison = m.dramPoison := rfl
@[simp] theorem Mod.setCore_spoiled (m : Mod) (c : Nat) (v : Core) : (m.setCore c v).spoiled = m.spoiled := rfl
@[simp] theorem Mod.setCore_plru (m : Mod) (c : Nat) (v : Core) : (m.setCore c v).plru = m.plru := rfl
@[simp] theorem Mod.setCore_side (m : Mod) (c : Nat) (v : Core) : (m.setCore c v).side = m.side := rfl
@[simp] theorem Mod.setCore_victims (m : Mod) (c : Nat) (v : Core) : (m.setCore c v).victims = m.victims := rfl
@[simp] theorem Mod.setCore_held (m : Mod) (c : Nat) (v : Core) : (m.setCore c v).held = m.held := rfl
@[simp] theorem Mod.setCore_rng (m : Mod) (c : Nat) (v : Core) : (m.setCore c v).rng = m.rng := rfl
@[simp] theorem Mod.setCore_pdWays (m : Mod) (c : Nat) (v : Core) : (m.setCore c v).pdWays = m.pdWays := rfl
@[simp] theorem Mod.setCore_csRun (m : Mod) (c : Nat) (v : Core) : (m.setCore c v).csRun = m.csRun := rfl
@[simp] theorem Mod.setCore_csErases (m : Mod) (c : Nat) (v : Core) : (m.setCore c v).csErases = m.csErases := rfl
@[simp] theorem Mod.setCore_trainTries (m : Mod) (c : Nat) (v : Core) : (m.setCore c v).trainTries = m.trainTries := rfl
@[simp] theorem Mod.setCore_dramHot (m : Mod) (c : Nat) (v : Core) : (m.setCore c v).dramHot = m.dramHot := rfl
@[simp] theorem Mod.setCore_escCell (m : Mod) (c : Nat) (v : Core) : (m.setCore c v).escCell = m.escCell := rfl
@[simp] theorem Mod.setCore_escBlock (m : Mod) (c : Nat) (v : Core) : (m.setCore c v).escBlock = m.escBlock := rfl
@[simp] theorem Mod.setCore_escRgn (m : Mod) (c : Nat) (v : Core) : (m.setCore c v).escRgn = m.escRgn := rfl
@[simp] theorem Mod.setCore_escDue (m : Mod) (c : Nat) (v : Core) : (m.setCore c v).escDue = m.escDue := rfl
@[simp] theorem Mod.setCore_rgnAct (m : Mod) (c : Nat) (v : Core) : (m.setCore c v).rgnAct = m.rgnAct := rfl
@[simp] theorem Mod.setCore_federated (m : Mod) (c : Nat) (v : Core) : (m.setCore c v).federated = m.federated := rfl
@[simp] theorem Mod.setCore_serving (m : Mod) (c : Nat) (v : Core) : (m.setCore c v).serving = m.serving := rfl
@[simp] theorem Mod.setCore_runs (m : Mod) (c : Nat) (v : Core) : (m.setCore c v).runs = m.runs := rfl
@[simp] theorem Mod.setCore_heldReqs (m : Mod) (c : Nat) (v : Core) : (m.setCore c v).heldReqs = m.heldReqs := rfl
@[simp] theorem Mod.setCore_nextTid (m : Mod) (c : Nat) (v : Core) : (m.setCore c v).nextTid = m.nextTid := rfl
@[simp] theorem Mod.setCore_cbs (m : Mod) (c : Nat) (v : Core) : (m.setCore c v).cbs = m.cbs := rfl
@[simp] theorem Mod.setCore_gathers (m : Mod) (c : Nat) (v : Core) : (m.setCore c v).gathers = m.gathers := rfl
@[simp] theorem Mod.setCore_relays (m : Mod) (c : Nat) (v : Core) : (m.setCore c v).relays = m.relays := rfl
@[simp] theorem Mod.setCore_served (m : Mod) (c : Nat) (v : Core) : (m.setCore c v).served = m.served := rfl
@[simp] theorem Mod.setCore_fwA (m : Mod) (c : Nat) (v : Core) : (m.setCore c v).fwA = m.fwA := rfl
@[simp] theorem Mod.setCore_fwB (m : Mod) (c : Nat) (v : Core) : (m.setCore c v).fwB = m.fwB := rfl
@[simp] theorem Mod.setCore_runB (m : Mod) (c : Nat) (v : Core) : (m.setCore c v).runB = m.runB := rfl
@[simp] theorem Mod.setCore_trialWait (m : Mod) (c : Nat) (v : Core) : (m.setCore c v).trialWait = m.trialWait := rfl
@[simp] theorem Mod.setCore_laneMax (m : Mod) (c : Nat) (v : Core) : (m.setCore c v).laneMax = m.laneMax := rfl
@[simp] theorem Mod.setCore_domRetry (m : Mod) (c : Nat) (v : Core) : (m.setCore c v).domRetry = m.domRetry := rfl
@[simp] theorem Mod.setCore_wire (m : Mod) (c : Nat) (v : Core) : (m.setCore c v).wire = m.wire := rfl
@[simp] theorem Mod.setCore_parked (m : Mod) (c : Nat) (v : Core) : (m.setCore c v).parked = m.parked := rfl
@[simp] theorem Mod.setCore_resetCommits (m : Mod) (c : Nat) (v : Core) : (m.setCore c v).resetCommits = m.resetCommits := rfl
@[simp] theorem Mod.setCore_heardNow (m : Mod) (c : Nat) (v : Core) : (m.setCore c v).heardNow = m.heardNow := rfl

@[simp] theorem Mod.setPort_regs (m : Mod) (p : Nat) (v : Port) : (m.setPort p v).regs = m.regs := rfl
@[simp] theorem Mod.setPort_staged (m : Mod) (p : Nat) (v : Port) : (m.setPort p v).staged = m.staged := rfl
@[simp] theorem Mod.setPort_stageImage (m : Mod) (p : Nat) (v : Port) : (m.setPort p v).stageImage = m.stageImage := rfl
@[simp] theorem Mod.setPort_freeCtr (m : Mod) (p : Nat) (v : Port) : (m.setPort p v).freeCtr = m.freeCtr := rfl
@[simp] theorem Mod.setPort_now (m : Mod) (p : Nat) (v : Port) : (m.setPort p v).now = m.now := rfl
@[simp] theorem Mod.setPort_mono (m : Mod) (p : Nat) (v : Port) : (m.setPort p v).mono = m.mono := rfl
@[simp] theorem Mod.setPort_corr (m : Mod) (p : Nat) (v : Port) : (m.setPort p v).corr = m.corr := rfl
@[simp] theorem Mod.setPort_slots (m : Mod) (p : Nat) (v : Port) : (m.setPort p v).slots = m.slots := rfl
@[simp] theorem Mod.setPort_clks (m : Mod) (p : Nat) (v : Port) : (m.setPort p v).clks = m.clks := rfl
@[simp] theorem Mod.setPort_dies (m : Mod) (p : Nat) (v : Port) : (m.setPort p v).dies = m.dies := rfl
@[simp] theorem Mod.setPort_recs (m : Mod) (p : Nat) (v : Port) : (m.setPort p v).recs = m.recs := rfl
@[simp] theorem Mod.setPort_ostat (m : Mod) (p : Nat) (v : Port) : (m.setPort p v).ostat = m.ostat := rfl
@[simp] theorem Mod.setPort_captured (m : Mod) (p : Nat) (v : Port) : (m.setPort p v).captured = m.captured := rfl
@[simp] theorem Mod.setPort_mem (m : Mod) (p : Nat) (v : Port) : (m.setPort p v).mem = m.mem := rfl
@[simp] theorem Mod.setPort_tags (m : Mod) (p : Nat) (v : Port) : (m.setPort p v).tags = m.tags := rfl
@[simp] theorem Mod.setPort_lines (m : Mod) (p : Nat) (v : Port) : (m.setPort p v).lines = m.lines := rfl
@[simp] theorem Mod.setPort_gatePend (m : Mod) (p : Nat) (v : Port) : (m.setPort p v).gatePend = m.gatePend := rfl
@[simp] theorem Mod.setPort_vq (m : Mod) (p : Nat) (v : Port) : (m.setPort p v).vq = m.vq := rfl
@[simp] theorem Mod.setPort_fq (m : Mod) (p : Nat) (v : Port) : (m.setPort p v).fq = m.fq := rfl
@[simp] theorem Mod.setPort_sdFaults (m : Mod) (p : Nat) (v : Port) : (m.setPort p v).sdFaults = m.sdFaults := rfl
@[simp] theorem Mod.setPort_sdEvents (m : Mod) (p : Nat) (v : Port) : (m.setPort p v).sdEvents = m.sdEvents := rfl
@[simp] theorem Mod.setPort_inFlight (m : Mod) (p : Nat) (v : Port) : (m.setPort p v).inFlight = m.inFlight := rfl
@[simp] theorem Mod.setPort_cores (m : Mod) (p : Nat) (v : Port) : (m.setPort p v).cores = m.cores := rfl
@[simp] theorem Mod.setPort_links (m : Mod) (p : Nat) (v : Port) : (m.setPort p v).links = m.links := rfl
@[simp] theorem Mod.setPort_req (m : Mod) (p : Nat) (v : Port) : (m.setPort p v).req = m.req := rfl
@[simp] theorem Mod.setPort_fed (m : Mod) (p : Nat) (v : Port) : (m.setPort p v).fed = m.fed := rfl
@[simp] theorem Mod.setPort_mx (m : Mod) (p : Nat) (v : Port) : (m.setPort p v).mx = m.mx := rfl
@[simp] theorem Mod.setPort_xfr (m : Mod) (p : Nat) (v : Port) : (m.setPort p v).xfr = m.xfr := rfl
@[simp] theorem Mod.setPort_host (m : Mod) (p : Nat) (v : Port) : (m.setPort p v).host = m.host := rfl
@[simp] theorem Mod.setPort_sess (m : Mod) (p : Nat) (v : Port) : (m.setPort p v).sess = m.sess := rfl
@[simp] theorem Mod.setPort_wins (m : Mod) (p : Nat) (v : Port) : (m.setPort p v).wins = m.wins := rfl
@[simp] theorem Mod.setPort_lock (m : Mod) (p : Nat) (v : Port) : (m.setPort p v).lock = m.lock := rfl
@[simp] theorem Mod.setPort_imgUp (m : Mod) (p : Nat) (v : Port) : (m.setPort p v).imgUp = m.imgUp := rfl
@[simp] theorem Mod.setPort_fwUp (m : Mod) (p : Nat) (v : Port) : (m.setPort p v).fwUp = m.fwUp := rfl
@[simp] theorem Mod.setPort_long (m : Mod) (p : Nat) (v : Port) : (m.setPort p v).long = m.long := rfl
@[simp] theorem Mod.setPort_cfg (m : Mod) (p : Nat) (v : Port) : (m.setPort p v).cfg = m.cfg := rfl
@[simp] theorem Mod.setPort_phase (m : Mod) (p : Nat) (v : Port) : (m.setPort p v).phase = m.phase := rfl
@[simp] theorem Mod.setPort_goose (m : Mod) (p : Nat) (v : Port) : (m.setPort p v).goose = m.goose := rfl
@[simp] theorem Mod.setPort_rook (m : Mod) (p : Nat) (v : Port) : (m.setPort p v).rook = m.rook := rfl
@[simp] theorem Mod.setPort_desc (m : Mod) (p : Nat) (v : Port) : (m.setPort p v).desc = m.desc := rfl
@[simp] theorem Mod.setPort_twin (m : Mod) (p : Nat) (v : Port) : (m.setPort p v).twin = m.twin := rfl
@[simp] theorem Mod.setPort_waking (m : Mod) (p : Nat) (v : Port) : (m.setPort p v).waking = m.waking := rfl
@[simp] theorem Mod.setPort_sent (m : Mod) (p : Nat) (v : Port) : (m.setPort p v).sent = m.sent := rfl
@[simp] theorem Mod.setPort_rgnPhase (m : Mod) (p : Nat) (v : Port) : (m.setPort p v).rgnPhase = m.rgnPhase := rfl
@[simp] theorem Mod.setPort_devSafe (m : Mod) (p : Nat) (v : Port) : (m.setPort p v).devSafe = m.devSafe := rfl
@[simp] theorem Mod.setPort_sweep (m : Mod) (p : Nat) (v : Port) : (m.setPort p v).sweep = m.sweep := rfl
@[simp] theorem Mod.setPort_dramUp (m : Mod) (p : Nat) (v : Port) : (m.setPort p v).dramUp = m.dramUp := rfl
@[simp] theorem Mod.setPort_past (m : Mod) (p : Nat) (v : Port) : (m.setPort p v).past = m.past := rfl
@[simp] theorem Mod.setPort_acc (m : Mod) (p : Nat) (v : Port) : (m.setPort p v).acc = m.acc := rfl
@[simp] theorem Mod.setPort_goodIv (m : Mod) (p : Nat) (v : Port) : (m.setPort p v).goodIv = m.goodIv := rfl
@[simp] theorem Mod.setPort_badIv (m : Mod) (p : Nat) (v : Port) : (m.setPort p v).badIv = m.badIv := rfl
@[simp] theorem Mod.setPort_skips (m : Mod) (p : Nat) (v : Port) : (m.setPort p v).skips = m.skips := rfl
@[simp] theorem Mod.setPort_holdFrom (m : Mod) (p : Nat) (v : Port) : (m.setPort p v).holdFrom = m.holdFrom := rfl
@[simp] theorem Mod.setPort_lastSync (m : Mod) (p : Nat) (v : Port) : (m.setPort p v).lastSync = m.lastSync := rfl
@[simp] theorem Mod.setPort_rate10 (m : Mod) (p : Nat) (v : Port) : (m.setPort p v).rate10 = m.rate10 := rfl
@[simp] theorem Mod.setPort_heard (m : Mod) (p : Nat) (v : Port) : (m.setPort p v).heard = m.heard := rfl
@[simp] theorem Mod.setPort_fallNow (m : Mod) (p : Nat) (v : Port) : (m.setPort p v).fallNow = m.fallNow := rfl
@[simp] theorem Mod.setPort_recAux (m : Mod) (p : Nat) (v : Port) : (m.setPort p v).recAux = m.recAux := rfl
@[simp] theorem Mod.setPort_outSeq (m : Mod) (p : Nat) (v : Port) : (m.setPort p v).outSeq = m.outSeq := rfl
@[simp] theorem Mod.setPort_lastCapture (m : Mod) (p : Nat) (v : Port) : (m.setPort p v).lastCapture = m.lastCapture := rfl
@[simp] theorem Mod.setPort_lastDone (m : Mod) (p : Nat) (v : Port) : (m.setPort p v).lastDone = m.lastDone := rfl
@[simp] theorem Mod.setPort_settleEnd (m : Mod) (p : Nat) (v : Port) : (m.setPort p v).settleEnd = m.settleEnd := rfl
@[simp] theorem Mod.setPort_chainLast (m : Mod) (p : Nat) (v : Port) : (m.setPort p v).chainLast = m.chainLast := rfl
@[simp] theorem Mod.setPort_tdrBuf (m : Mod) (p : Nat) (v : Port) : (m.setPort p v).tdrBuf = m.tdrBuf := rfl
@[simp] theorem Mod.setPort_fwd (m : Mod) (p : Nat) (v : Port) : (m.setPort p v).fwd = m.fwd := rfl
@[simp] theorem Mod.setPort_fwdStage (m : Mod) (p : Nat) (v : Port) : (m.setPort p v).fwdStage = m.fwdStage := rfl
@[simp] theorem Mod.setPort_vlan (m : Mod) (p : Nat) (v : Port) : (m.setPort p v).vlan = m.vlan := rfl
@[simp] theorem Mod.setPort_vlanStage (m : Mod) (p : Nat) (v : Port) : (m.setPort p v).vlanStage = m.vlanStage := rfl
@[simp] theorem Mod.setPort_egress (m : Mod) (p : Nat) (v : Port) : (m.setPort p v).egress = m.egress := rfl
@[simp] theorem Mod.setPort_htxDone (m : Mod) (p : Nat) (v : Port) : (m.setPort p v).htxDone = m.htxDone := rfl
@[simp] theorem Mod.setPort_ltxTaken (m : Mod) (p : Nat) (v : Port) : (m.setPort p v).ltxTaken = m.ltxTaken := rfl
@[simp] theorem Mod.setPort_ltxDone (m : Mod) (p : Nat) (v : Port) : (m.setPort p v).ltxDone = m.ltxDone := rfl
@[simp] theorem Mod.setPort_dramPoison (m : Mod) (p : Nat) (v : Port) : (m.setPort p v).dramPoison = m.dramPoison := rfl
@[simp] theorem Mod.setPort_spoiled (m : Mod) (p : Nat) (v : Port) : (m.setPort p v).spoiled = m.spoiled := rfl
@[simp] theorem Mod.setPort_plru (m : Mod) (p : Nat) (v : Port) : (m.setPort p v).plru = m.plru := rfl
@[simp] theorem Mod.setPort_side (m : Mod) (p : Nat) (v : Port) : (m.setPort p v).side = m.side := rfl
@[simp] theorem Mod.setPort_victims (m : Mod) (p : Nat) (v : Port) : (m.setPort p v).victims = m.victims := rfl
@[simp] theorem Mod.setPort_held (m : Mod) (p : Nat) (v : Port) : (m.setPort p v).held = m.held := rfl
@[simp] theorem Mod.setPort_rng (m : Mod) (p : Nat) (v : Port) : (m.setPort p v).rng = m.rng := rfl
@[simp] theorem Mod.setPort_pdWays (m : Mod) (p : Nat) (v : Port) : (m.setPort p v).pdWays = m.pdWays := rfl
@[simp] theorem Mod.setPort_csRun (m : Mod) (p : Nat) (v : Port) : (m.setPort p v).csRun = m.csRun := rfl
@[simp] theorem Mod.setPort_csErases (m : Mod) (p : Nat) (v : Port) : (m.setPort p v).csErases = m.csErases := rfl
@[simp] theorem Mod.setPort_trainTries (m : Mod) (p : Nat) (v : Port) : (m.setPort p v).trainTries = m.trainTries := rfl
@[simp] theorem Mod.setPort_dramHot (m : Mod) (p : Nat) (v : Port) : (m.setPort p v).dramHot = m.dramHot := rfl
@[simp] theorem Mod.setPort_escCell (m : Mod) (p : Nat) (v : Port) : (m.setPort p v).escCell = m.escCell := rfl
@[simp] theorem Mod.setPort_escBlock (m : Mod) (p : Nat) (v : Port) : (m.setPort p v).escBlock = m.escBlock := rfl
@[simp] theorem Mod.setPort_escRgn (m : Mod) (p : Nat) (v : Port) : (m.setPort p v).escRgn = m.escRgn := rfl
@[simp] theorem Mod.setPort_escDue (m : Mod) (p : Nat) (v : Port) : (m.setPort p v).escDue = m.escDue := rfl
@[simp] theorem Mod.setPort_rgnAct (m : Mod) (p : Nat) (v : Port) : (m.setPort p v).rgnAct = m.rgnAct := rfl
@[simp] theorem Mod.setPort_federated (m : Mod) (p : Nat) (v : Port) : (m.setPort p v).federated = m.federated := rfl
@[simp] theorem Mod.setPort_serving (m : Mod) (p : Nat) (v : Port) : (m.setPort p v).serving = m.serving := rfl
@[simp] theorem Mod.setPort_runs (m : Mod) (p : Nat) (v : Port) : (m.setPort p v).runs = m.runs := rfl
@[simp] theorem Mod.setPort_heldReqs (m : Mod) (p : Nat) (v : Port) : (m.setPort p v).heldReqs = m.heldReqs := rfl
@[simp] theorem Mod.setPort_nextTid (m : Mod) (p : Nat) (v : Port) : (m.setPort p v).nextTid = m.nextTid := rfl
@[simp] theorem Mod.setPort_cbs (m : Mod) (p : Nat) (v : Port) : (m.setPort p v).cbs = m.cbs := rfl
@[simp] theorem Mod.setPort_gathers (m : Mod) (p : Nat) (v : Port) : (m.setPort p v).gathers = m.gathers := rfl
@[simp] theorem Mod.setPort_relays (m : Mod) (p : Nat) (v : Port) : (m.setPort p v).relays = m.relays := rfl
@[simp] theorem Mod.setPort_served (m : Mod) (p : Nat) (v : Port) : (m.setPort p v).served = m.served := rfl
@[simp] theorem Mod.setPort_fwA (m : Mod) (p : Nat) (v : Port) : (m.setPort p v).fwA = m.fwA := rfl
@[simp] theorem Mod.setPort_fwB (m : Mod) (p : Nat) (v : Port) : (m.setPort p v).fwB = m.fwB := rfl
@[simp] theorem Mod.setPort_runB (m : Mod) (p : Nat) (v : Port) : (m.setPort p v).runB = m.runB := rfl
@[simp] theorem Mod.setPort_trialWait (m : Mod) (p : Nat) (v : Port) : (m.setPort p v).trialWait = m.trialWait := rfl
@[simp] theorem Mod.setPort_laneMax (m : Mod) (p : Nat) (v : Port) : (m.setPort p v).laneMax = m.laneMax := rfl
@[simp] theorem Mod.setPort_domRetry (m : Mod) (p : Nat) (v : Port) : (m.setPort p v).domRetry = m.domRetry := rfl
@[simp] theorem Mod.setPort_wire (m : Mod) (p : Nat) (v : Port) : (m.setPort p v).wire = m.wire := rfl
@[simp] theorem Mod.setPort_parked (m : Mod) (p : Nat) (v : Port) : (m.setPort p v).parked = m.parked := rfl
@[simp] theorem Mod.setPort_resetCommits (m : Mod) (p : Nat) (v : Port) : (m.setPort p v).resetCommits = m.resetCommits := rfl
@[simp] theorem Mod.setPort_heardNow (m : Mod) (p : Nat) (v : Port) : (m.setPort p v).heardNow = m.heardNow := rfl

@[simp] theorem Mod.setDie_regs (m : Mod) (p : Nat) (v : Die) : (m.setDie p v).regs = m.regs := rfl
@[simp] theorem Mod.setDie_staged (m : Mod) (p : Nat) (v : Die) : (m.setDie p v).staged = m.staged := rfl
@[simp] theorem Mod.setDie_stageImage (m : Mod) (p : Nat) (v : Die) : (m.setDie p v).stageImage = m.stageImage := rfl
@[simp] theorem Mod.setDie_freeCtr (m : Mod) (p : Nat) (v : Die) : (m.setDie p v).freeCtr = m.freeCtr := rfl
@[simp] theorem Mod.setDie_now (m : Mod) (p : Nat) (v : Die) : (m.setDie p v).now = m.now := rfl
@[simp] theorem Mod.setDie_mono (m : Mod) (p : Nat) (v : Die) : (m.setDie p v).mono = m.mono := rfl
@[simp] theorem Mod.setDie_corr (m : Mod) (p : Nat) (v : Die) : (m.setDie p v).corr = m.corr := rfl
@[simp] theorem Mod.setDie_slots (m : Mod) (p : Nat) (v : Die) : (m.setDie p v).slots = m.slots := rfl
@[simp] theorem Mod.setDie_clks (m : Mod) (p : Nat) (v : Die) : (m.setDie p v).clks = m.clks := rfl
@[simp] theorem Mod.setDie_ports (m : Mod) (p : Nat) (v : Die) : (m.setDie p v).ports = m.ports := rfl
@[simp] theorem Mod.setDie_recs (m : Mod) (p : Nat) (v : Die) : (m.setDie p v).recs = m.recs := rfl
@[simp] theorem Mod.setDie_ostat (m : Mod) (p : Nat) (v : Die) : (m.setDie p v).ostat = m.ostat := rfl
@[simp] theorem Mod.setDie_captured (m : Mod) (p : Nat) (v : Die) : (m.setDie p v).captured = m.captured := rfl
@[simp] theorem Mod.setDie_mem (m : Mod) (p : Nat) (v : Die) : (m.setDie p v).mem = m.mem := rfl
@[simp] theorem Mod.setDie_tags (m : Mod) (p : Nat) (v : Die) : (m.setDie p v).tags = m.tags := rfl
@[simp] theorem Mod.setDie_lines (m : Mod) (p : Nat) (v : Die) : (m.setDie p v).lines = m.lines := rfl
@[simp] theorem Mod.setDie_gatePend (m : Mod) (p : Nat) (v : Die) : (m.setDie p v).gatePend = m.gatePend := rfl
@[simp] theorem Mod.setDie_vq (m : Mod) (p : Nat) (v : Die) : (m.setDie p v).vq = m.vq := rfl
@[simp] theorem Mod.setDie_fq (m : Mod) (p : Nat) (v : Die) : (m.setDie p v).fq = m.fq := rfl
@[simp] theorem Mod.setDie_sdFaults (m : Mod) (p : Nat) (v : Die) : (m.setDie p v).sdFaults = m.sdFaults := rfl
@[simp] theorem Mod.setDie_sdEvents (m : Mod) (p : Nat) (v : Die) : (m.setDie p v).sdEvents = m.sdEvents := rfl
@[simp] theorem Mod.setDie_inFlight (m : Mod) (p : Nat) (v : Die) : (m.setDie p v).inFlight = m.inFlight := rfl
@[simp] theorem Mod.setDie_cores (m : Mod) (p : Nat) (v : Die) : (m.setDie p v).cores = m.cores := rfl
@[simp] theorem Mod.setDie_links (m : Mod) (p : Nat) (v : Die) : (m.setDie p v).links = m.links := rfl
@[simp] theorem Mod.setDie_req (m : Mod) (p : Nat) (v : Die) : (m.setDie p v).req = m.req := rfl
@[simp] theorem Mod.setDie_fed (m : Mod) (p : Nat) (v : Die) : (m.setDie p v).fed = m.fed := rfl
@[simp] theorem Mod.setDie_mx (m : Mod) (p : Nat) (v : Die) : (m.setDie p v).mx = m.mx := rfl
@[simp] theorem Mod.setDie_xfr (m : Mod) (p : Nat) (v : Die) : (m.setDie p v).xfr = m.xfr := rfl
@[simp] theorem Mod.setDie_host (m : Mod) (p : Nat) (v : Die) : (m.setDie p v).host = m.host := rfl
@[simp] theorem Mod.setDie_sess (m : Mod) (p : Nat) (v : Die) : (m.setDie p v).sess = m.sess := rfl
@[simp] theorem Mod.setDie_wins (m : Mod) (p : Nat) (v : Die) : (m.setDie p v).wins = m.wins := rfl
@[simp] theorem Mod.setDie_lock (m : Mod) (p : Nat) (v : Die) : (m.setDie p v).lock = m.lock := rfl
@[simp] theorem Mod.setDie_imgUp (m : Mod) (p : Nat) (v : Die) : (m.setDie p v).imgUp = m.imgUp := rfl
@[simp] theorem Mod.setDie_fwUp (m : Mod) (p : Nat) (v : Die) : (m.setDie p v).fwUp = m.fwUp := rfl
@[simp] theorem Mod.setDie_long (m : Mod) (p : Nat) (v : Die) : (m.setDie p v).long = m.long := rfl
@[simp] theorem Mod.setDie_cfg (m : Mod) (p : Nat) (v : Die) : (m.setDie p v).cfg = m.cfg := rfl
@[simp] theorem Mod.setDie_phase (m : Mod) (p : Nat) (v : Die) : (m.setDie p v).phase = m.phase := rfl
@[simp] theorem Mod.setDie_goose (m : Mod) (p : Nat) (v : Die) : (m.setDie p v).goose = m.goose := rfl
@[simp] theorem Mod.setDie_rook (m : Mod) (p : Nat) (v : Die) : (m.setDie p v).rook = m.rook := rfl
@[simp] theorem Mod.setDie_desc (m : Mod) (p : Nat) (v : Die) : (m.setDie p v).desc = m.desc := rfl
@[simp] theorem Mod.setDie_twin (m : Mod) (p : Nat) (v : Die) : (m.setDie p v).twin = m.twin := rfl
@[simp] theorem Mod.setDie_waking (m : Mod) (p : Nat) (v : Die) : (m.setDie p v).waking = m.waking := rfl
@[simp] theorem Mod.setDie_sent (m : Mod) (p : Nat) (v : Die) : (m.setDie p v).sent = m.sent := rfl
@[simp] theorem Mod.setDie_rgnPhase (m : Mod) (p : Nat) (v : Die) : (m.setDie p v).rgnPhase = m.rgnPhase := rfl
@[simp] theorem Mod.setDie_devSafe (m : Mod) (p : Nat) (v : Die) : (m.setDie p v).devSafe = m.devSafe := rfl
@[simp] theorem Mod.setDie_sweep (m : Mod) (p : Nat) (v : Die) : (m.setDie p v).sweep = m.sweep := rfl
@[simp] theorem Mod.setDie_dramUp (m : Mod) (p : Nat) (v : Die) : (m.setDie p v).dramUp = m.dramUp := rfl
@[simp] theorem Mod.setDie_past (m : Mod) (p : Nat) (v : Die) : (m.setDie p v).past = m.past := rfl
@[simp] theorem Mod.setDie_acc (m : Mod) (p : Nat) (v : Die) : (m.setDie p v).acc = m.acc := rfl
@[simp] theorem Mod.setDie_goodIv (m : Mod) (p : Nat) (v : Die) : (m.setDie p v).goodIv = m.goodIv := rfl
@[simp] theorem Mod.setDie_badIv (m : Mod) (p : Nat) (v : Die) : (m.setDie p v).badIv = m.badIv := rfl
@[simp] theorem Mod.setDie_skips (m : Mod) (p : Nat) (v : Die) : (m.setDie p v).skips = m.skips := rfl
@[simp] theorem Mod.setDie_holdFrom (m : Mod) (p : Nat) (v : Die) : (m.setDie p v).holdFrom = m.holdFrom := rfl
@[simp] theorem Mod.setDie_lastSync (m : Mod) (p : Nat) (v : Die) : (m.setDie p v).lastSync = m.lastSync := rfl
@[simp] theorem Mod.setDie_rate10 (m : Mod) (p : Nat) (v : Die) : (m.setDie p v).rate10 = m.rate10 := rfl
@[simp] theorem Mod.setDie_heard (m : Mod) (p : Nat) (v : Die) : (m.setDie p v).heard = m.heard := rfl
@[simp] theorem Mod.setDie_fallNow (m : Mod) (p : Nat) (v : Die) : (m.setDie p v).fallNow = m.fallNow := rfl
@[simp] theorem Mod.setDie_recAux (m : Mod) (p : Nat) (v : Die) : (m.setDie p v).recAux = m.recAux := rfl
@[simp] theorem Mod.setDie_outSeq (m : Mod) (p : Nat) (v : Die) : (m.setDie p v).outSeq = m.outSeq := rfl
@[simp] theorem Mod.setDie_lastCapture (m : Mod) (p : Nat) (v : Die) : (m.setDie p v).lastCapture = m.lastCapture := rfl
@[simp] theorem Mod.setDie_lastDone (m : Mod) (p : Nat) (v : Die) : (m.setDie p v).lastDone = m.lastDone := rfl
@[simp] theorem Mod.setDie_settleEnd (m : Mod) (p : Nat) (v : Die) : (m.setDie p v).settleEnd = m.settleEnd := rfl
@[simp] theorem Mod.setDie_chainLast (m : Mod) (p : Nat) (v : Die) : (m.setDie p v).chainLast = m.chainLast := rfl
@[simp] theorem Mod.setDie_tdrBuf (m : Mod) (p : Nat) (v : Die) : (m.setDie p v).tdrBuf = m.tdrBuf := rfl
@[simp] theorem Mod.setDie_fwd (m : Mod) (p : Nat) (v : Die) : (m.setDie p v).fwd = m.fwd := rfl
@[simp] theorem Mod.setDie_fwdStage (m : Mod) (p : Nat) (v : Die) : (m.setDie p v).fwdStage = m.fwdStage := rfl
@[simp] theorem Mod.setDie_vlan (m : Mod) (p : Nat) (v : Die) : (m.setDie p v).vlan = m.vlan := rfl
@[simp] theorem Mod.setDie_vlanStage (m : Mod) (p : Nat) (v : Die) : (m.setDie p v).vlanStage = m.vlanStage := rfl
@[simp] theorem Mod.setDie_egress (m : Mod) (p : Nat) (v : Die) : (m.setDie p v).egress = m.egress := rfl
@[simp] theorem Mod.setDie_htxDone (m : Mod) (p : Nat) (v : Die) : (m.setDie p v).htxDone = m.htxDone := rfl
@[simp] theorem Mod.setDie_ltxTaken (m : Mod) (p : Nat) (v : Die) : (m.setDie p v).ltxTaken = m.ltxTaken := rfl
@[simp] theorem Mod.setDie_ltxDone (m : Mod) (p : Nat) (v : Die) : (m.setDie p v).ltxDone = m.ltxDone := rfl
@[simp] theorem Mod.setDie_dramPoison (m : Mod) (p : Nat) (v : Die) : (m.setDie p v).dramPoison = m.dramPoison := rfl
@[simp] theorem Mod.setDie_spoiled (m : Mod) (p : Nat) (v : Die) : (m.setDie p v).spoiled = m.spoiled := rfl
@[simp] theorem Mod.setDie_plru (m : Mod) (p : Nat) (v : Die) : (m.setDie p v).plru = m.plru := rfl
@[simp] theorem Mod.setDie_side (m : Mod) (p : Nat) (v : Die) : (m.setDie p v).side = m.side := rfl
@[simp] theorem Mod.setDie_victims (m : Mod) (p : Nat) (v : Die) : (m.setDie p v).victims = m.victims := rfl
@[simp] theorem Mod.setDie_held (m : Mod) (p : Nat) (v : Die) : (m.setDie p v).held = m.held := rfl
@[simp] theorem Mod.setDie_rng (m : Mod) (p : Nat) (v : Die) : (m.setDie p v).rng = m.rng := rfl
@[simp] theorem Mod.setDie_pdWays (m : Mod) (p : Nat) (v : Die) : (m.setDie p v).pdWays = m.pdWays := rfl
@[simp] theorem Mod.setDie_csRun (m : Mod) (p : Nat) (v : Die) : (m.setDie p v).csRun = m.csRun := rfl
@[simp] theorem Mod.setDie_csErases (m : Mod) (p : Nat) (v : Die) : (m.setDie p v).csErases = m.csErases := rfl
@[simp] theorem Mod.setDie_trainTries (m : Mod) (p : Nat) (v : Die) : (m.setDie p v).trainTries = m.trainTries := rfl
@[simp] theorem Mod.setDie_dramHot (m : Mod) (p : Nat) (v : Die) : (m.setDie p v).dramHot = m.dramHot := rfl
@[simp] theorem Mod.setDie_escCell (m : Mod) (p : Nat) (v : Die) : (m.setDie p v).escCell = m.escCell := rfl
@[simp] theorem Mod.setDie_escBlock (m : Mod) (p : Nat) (v : Die) : (m.setDie p v).escBlock = m.escBlock := rfl
@[simp] theorem Mod.setDie_escRgn (m : Mod) (p : Nat) (v : Die) : (m.setDie p v).escRgn = m.escRgn := rfl
@[simp] theorem Mod.setDie_escDue (m : Mod) (p : Nat) (v : Die) : (m.setDie p v).escDue = m.escDue := rfl
@[simp] theorem Mod.setDie_rgnAct (m : Mod) (p : Nat) (v : Die) : (m.setDie p v).rgnAct = m.rgnAct := rfl
@[simp] theorem Mod.setDie_federated (m : Mod) (p : Nat) (v : Die) : (m.setDie p v).federated = m.federated := rfl
@[simp] theorem Mod.setDie_serving (m : Mod) (p : Nat) (v : Die) : (m.setDie p v).serving = m.serving := rfl
@[simp] theorem Mod.setDie_runs (m : Mod) (p : Nat) (v : Die) : (m.setDie p v).runs = m.runs := rfl
@[simp] theorem Mod.setDie_heldReqs (m : Mod) (p : Nat) (v : Die) : (m.setDie p v).heldReqs = m.heldReqs := rfl
@[simp] theorem Mod.setDie_nextTid (m : Mod) (p : Nat) (v : Die) : (m.setDie p v).nextTid = m.nextTid := rfl
@[simp] theorem Mod.setDie_cbs (m : Mod) (p : Nat) (v : Die) : (m.setDie p v).cbs = m.cbs := rfl
@[simp] theorem Mod.setDie_gathers (m : Mod) (p : Nat) (v : Die) : (m.setDie p v).gathers = m.gathers := rfl
@[simp] theorem Mod.setDie_relays (m : Mod) (p : Nat) (v : Die) : (m.setDie p v).relays = m.relays := rfl
@[simp] theorem Mod.setDie_served (m : Mod) (p : Nat) (v : Die) : (m.setDie p v).served = m.served := rfl
@[simp] theorem Mod.setDie_fwA (m : Mod) (p : Nat) (v : Die) : (m.setDie p v).fwA = m.fwA := rfl
@[simp] theorem Mod.setDie_fwB (m : Mod) (p : Nat) (v : Die) : (m.setDie p v).fwB = m.fwB := rfl
@[simp] theorem Mod.setDie_runB (m : Mod) (p : Nat) (v : Die) : (m.setDie p v).runB = m.runB := rfl
@[simp] theorem Mod.setDie_trialWait (m : Mod) (p : Nat) (v : Die) : (m.setDie p v).trialWait = m.trialWait := rfl
@[simp] theorem Mod.setDie_laneMax (m : Mod) (p : Nat) (v : Die) : (m.setDie p v).laneMax = m.laneMax := rfl
@[simp] theorem Mod.setDie_domRetry (m : Mod) (p : Nat) (v : Die) : (m.setDie p v).domRetry = m.domRetry := rfl
@[simp] theorem Mod.setDie_wire (m : Mod) (p : Nat) (v : Die) : (m.setDie p v).wire = m.wire := rfl
@[simp] theorem Mod.setDie_parked (m : Mod) (p : Nat) (v : Die) : (m.setDie p v).parked = m.parked := rfl
@[simp] theorem Mod.setDie_resetCommits (m : Mod) (p : Nat) (v : Die) : (m.setDie p v).resetCommits = m.resetCommits := rfl
@[simp] theorem Mod.setDie_heardNow (m : Mod) (p : Nat) (v : Die) : (m.setDie p v).heardNow = m.heardNow := rfl

@[simp] theorem Mod.setClk_regs (m : Mod) (n : Nat) (v : Clk) : (m.setClk n v).regs = m.regs := rfl
@[simp] theorem Mod.setClk_staged (m : Mod) (n : Nat) (v : Clk) : (m.setClk n v).staged = m.staged := rfl
@[simp] theorem Mod.setClk_stageImage (m : Mod) (n : Nat) (v : Clk) : (m.setClk n v).stageImage = m.stageImage := rfl
@[simp] theorem Mod.setClk_freeCtr (m : Mod) (n : Nat) (v : Clk) : (m.setClk n v).freeCtr = m.freeCtr := rfl
@[simp] theorem Mod.setClk_now (m : Mod) (n : Nat) (v : Clk) : (m.setClk n v).now = m.now := rfl
@[simp] theorem Mod.setClk_mono (m : Mod) (n : Nat) (v : Clk) : (m.setClk n v).mono = m.mono := rfl
@[simp] theorem Mod.setClk_corr (m : Mod) (n : Nat) (v : Clk) : (m.setClk n v).corr = m.corr := rfl
@[simp] theorem Mod.setClk_slots (m : Mod) (n : Nat) (v : Clk) : (m.setClk n v).slots = m.slots := rfl
@[simp] theorem Mod.setClk_ports (m : Mod) (n : Nat) (v : Clk) : (m.setClk n v).ports = m.ports := rfl
@[simp] theorem Mod.setClk_dies (m : Mod) (n : Nat) (v : Clk) : (m.setClk n v).dies = m.dies := rfl
@[simp] theorem Mod.setClk_recs (m : Mod) (n : Nat) (v : Clk) : (m.setClk n v).recs = m.recs := rfl
@[simp] theorem Mod.setClk_ostat (m : Mod) (n : Nat) (v : Clk) : (m.setClk n v).ostat = m.ostat := rfl
@[simp] theorem Mod.setClk_captured (m : Mod) (n : Nat) (v : Clk) : (m.setClk n v).captured = m.captured := rfl
@[simp] theorem Mod.setClk_mem (m : Mod) (n : Nat) (v : Clk) : (m.setClk n v).mem = m.mem := rfl
@[simp] theorem Mod.setClk_tags (m : Mod) (n : Nat) (v : Clk) : (m.setClk n v).tags = m.tags := rfl
@[simp] theorem Mod.setClk_lines (m : Mod) (n : Nat) (v : Clk) : (m.setClk n v).lines = m.lines := rfl
@[simp] theorem Mod.setClk_gatePend (m : Mod) (n : Nat) (v : Clk) : (m.setClk n v).gatePend = m.gatePend := rfl
@[simp] theorem Mod.setClk_vq (m : Mod) (n : Nat) (v : Clk) : (m.setClk n v).vq = m.vq := rfl
@[simp] theorem Mod.setClk_fq (m : Mod) (n : Nat) (v : Clk) : (m.setClk n v).fq = m.fq := rfl
@[simp] theorem Mod.setClk_sdFaults (m : Mod) (n : Nat) (v : Clk) : (m.setClk n v).sdFaults = m.sdFaults := rfl
@[simp] theorem Mod.setClk_sdEvents (m : Mod) (n : Nat) (v : Clk) : (m.setClk n v).sdEvents = m.sdEvents := rfl
@[simp] theorem Mod.setClk_inFlight (m : Mod) (n : Nat) (v : Clk) : (m.setClk n v).inFlight = m.inFlight := rfl
@[simp] theorem Mod.setClk_cores (m : Mod) (n : Nat) (v : Clk) : (m.setClk n v).cores = m.cores := rfl
@[simp] theorem Mod.setClk_links (m : Mod) (n : Nat) (v : Clk) : (m.setClk n v).links = m.links := rfl
@[simp] theorem Mod.setClk_req (m : Mod) (n : Nat) (v : Clk) : (m.setClk n v).req = m.req := rfl
@[simp] theorem Mod.setClk_fed (m : Mod) (n : Nat) (v : Clk) : (m.setClk n v).fed = m.fed := rfl
@[simp] theorem Mod.setClk_mx (m : Mod) (n : Nat) (v : Clk) : (m.setClk n v).mx = m.mx := rfl
@[simp] theorem Mod.setClk_xfr (m : Mod) (n : Nat) (v : Clk) : (m.setClk n v).xfr = m.xfr := rfl
@[simp] theorem Mod.setClk_host (m : Mod) (n : Nat) (v : Clk) : (m.setClk n v).host = m.host := rfl
@[simp] theorem Mod.setClk_sess (m : Mod) (n : Nat) (v : Clk) : (m.setClk n v).sess = m.sess := rfl
@[simp] theorem Mod.setClk_wins (m : Mod) (n : Nat) (v : Clk) : (m.setClk n v).wins = m.wins := rfl
@[simp] theorem Mod.setClk_lock (m : Mod) (n : Nat) (v : Clk) : (m.setClk n v).lock = m.lock := rfl
@[simp] theorem Mod.setClk_imgUp (m : Mod) (n : Nat) (v : Clk) : (m.setClk n v).imgUp = m.imgUp := rfl
@[simp] theorem Mod.setClk_fwUp (m : Mod) (n : Nat) (v : Clk) : (m.setClk n v).fwUp = m.fwUp := rfl
@[simp] theorem Mod.setClk_long (m : Mod) (n : Nat) (v : Clk) : (m.setClk n v).long = m.long := rfl
@[simp] theorem Mod.setClk_cfg (m : Mod) (n : Nat) (v : Clk) : (m.setClk n v).cfg = m.cfg := rfl
@[simp] theorem Mod.setClk_phase (m : Mod) (n : Nat) (v : Clk) : (m.setClk n v).phase = m.phase := rfl
@[simp] theorem Mod.setClk_goose (m : Mod) (n : Nat) (v : Clk) : (m.setClk n v).goose = m.goose := rfl
@[simp] theorem Mod.setClk_rook (m : Mod) (n : Nat) (v : Clk) : (m.setClk n v).rook = m.rook := rfl
@[simp] theorem Mod.setClk_desc (m : Mod) (n : Nat) (v : Clk) : (m.setClk n v).desc = m.desc := rfl
@[simp] theorem Mod.setClk_twin (m : Mod) (n : Nat) (v : Clk) : (m.setClk n v).twin = m.twin := rfl
@[simp] theorem Mod.setClk_waking (m : Mod) (n : Nat) (v : Clk) : (m.setClk n v).waking = m.waking := rfl
@[simp] theorem Mod.setClk_sent (m : Mod) (n : Nat) (v : Clk) : (m.setClk n v).sent = m.sent := rfl
@[simp] theorem Mod.setClk_rgnPhase (m : Mod) (n : Nat) (v : Clk) : (m.setClk n v).rgnPhase = m.rgnPhase := rfl
@[simp] theorem Mod.setClk_devSafe (m : Mod) (n : Nat) (v : Clk) : (m.setClk n v).devSafe = m.devSafe := rfl
@[simp] theorem Mod.setClk_sweep (m : Mod) (n : Nat) (v : Clk) : (m.setClk n v).sweep = m.sweep := rfl
@[simp] theorem Mod.setClk_dramUp (m : Mod) (n : Nat) (v : Clk) : (m.setClk n v).dramUp = m.dramUp := rfl
@[simp] theorem Mod.setClk_past (m : Mod) (n : Nat) (v : Clk) : (m.setClk n v).past = m.past := rfl
@[simp] theorem Mod.setClk_acc (m : Mod) (n : Nat) (v : Clk) : (m.setClk n v).acc = m.acc := rfl
@[simp] theorem Mod.setClk_goodIv (m : Mod) (n : Nat) (v : Clk) : (m.setClk n v).goodIv = m.goodIv := rfl
@[simp] theorem Mod.setClk_badIv (m : Mod) (n : Nat) (v : Clk) : (m.setClk n v).badIv = m.badIv := rfl
@[simp] theorem Mod.setClk_skips (m : Mod) (n : Nat) (v : Clk) : (m.setClk n v).skips = m.skips := rfl
@[simp] theorem Mod.setClk_holdFrom (m : Mod) (n : Nat) (v : Clk) : (m.setClk n v).holdFrom = m.holdFrom := rfl
@[simp] theorem Mod.setClk_lastSync (m : Mod) (n : Nat) (v : Clk) : (m.setClk n v).lastSync = m.lastSync := rfl
@[simp] theorem Mod.setClk_rate10 (m : Mod) (n : Nat) (v : Clk) : (m.setClk n v).rate10 = m.rate10 := rfl
@[simp] theorem Mod.setClk_heard (m : Mod) (n : Nat) (v : Clk) : (m.setClk n v).heard = m.heard := rfl
@[simp] theorem Mod.setClk_fallNow (m : Mod) (n : Nat) (v : Clk) : (m.setClk n v).fallNow = m.fallNow := rfl
@[simp] theorem Mod.setClk_recAux (m : Mod) (n : Nat) (v : Clk) : (m.setClk n v).recAux = m.recAux := rfl
@[simp] theorem Mod.setClk_outSeq (m : Mod) (n : Nat) (v : Clk) : (m.setClk n v).outSeq = m.outSeq := rfl
@[simp] theorem Mod.setClk_lastCapture (m : Mod) (n : Nat) (v : Clk) : (m.setClk n v).lastCapture = m.lastCapture := rfl
@[simp] theorem Mod.setClk_lastDone (m : Mod) (n : Nat) (v : Clk) : (m.setClk n v).lastDone = m.lastDone := rfl
@[simp] theorem Mod.setClk_settleEnd (m : Mod) (n : Nat) (v : Clk) : (m.setClk n v).settleEnd = m.settleEnd := rfl
@[simp] theorem Mod.setClk_chainLast (m : Mod) (n : Nat) (v : Clk) : (m.setClk n v).chainLast = m.chainLast := rfl
@[simp] theorem Mod.setClk_tdrBuf (m : Mod) (n : Nat) (v : Clk) : (m.setClk n v).tdrBuf = m.tdrBuf := rfl
@[simp] theorem Mod.setClk_fwd (m : Mod) (n : Nat) (v : Clk) : (m.setClk n v).fwd = m.fwd := rfl
@[simp] theorem Mod.setClk_fwdStage (m : Mod) (n : Nat) (v : Clk) : (m.setClk n v).fwdStage = m.fwdStage := rfl
@[simp] theorem Mod.setClk_vlan (m : Mod) (n : Nat) (v : Clk) : (m.setClk n v).vlan = m.vlan := rfl
@[simp] theorem Mod.setClk_vlanStage (m : Mod) (n : Nat) (v : Clk) : (m.setClk n v).vlanStage = m.vlanStage := rfl
@[simp] theorem Mod.setClk_egress (m : Mod) (n : Nat) (v : Clk) : (m.setClk n v).egress = m.egress := rfl
@[simp] theorem Mod.setClk_htxDone (m : Mod) (n : Nat) (v : Clk) : (m.setClk n v).htxDone = m.htxDone := rfl
@[simp] theorem Mod.setClk_ltxTaken (m : Mod) (n : Nat) (v : Clk) : (m.setClk n v).ltxTaken = m.ltxTaken := rfl
@[simp] theorem Mod.setClk_ltxDone (m : Mod) (n : Nat) (v : Clk) : (m.setClk n v).ltxDone = m.ltxDone := rfl
@[simp] theorem Mod.setClk_dramPoison (m : Mod) (n : Nat) (v : Clk) : (m.setClk n v).dramPoison = m.dramPoison := rfl
@[simp] theorem Mod.setClk_spoiled (m : Mod) (n : Nat) (v : Clk) : (m.setClk n v).spoiled = m.spoiled := rfl
@[simp] theorem Mod.setClk_plru (m : Mod) (n : Nat) (v : Clk) : (m.setClk n v).plru = m.plru := rfl
@[simp] theorem Mod.setClk_side (m : Mod) (n : Nat) (v : Clk) : (m.setClk n v).side = m.side := rfl
@[simp] theorem Mod.setClk_victims (m : Mod) (n : Nat) (v : Clk) : (m.setClk n v).victims = m.victims := rfl
@[simp] theorem Mod.setClk_held (m : Mod) (n : Nat) (v : Clk) : (m.setClk n v).held = m.held := rfl
@[simp] theorem Mod.setClk_rng (m : Mod) (n : Nat) (v : Clk) : (m.setClk n v).rng = m.rng := rfl
@[simp] theorem Mod.setClk_pdWays (m : Mod) (n : Nat) (v : Clk) : (m.setClk n v).pdWays = m.pdWays := rfl
@[simp] theorem Mod.setClk_csRun (m : Mod) (n : Nat) (v : Clk) : (m.setClk n v).csRun = m.csRun := rfl
@[simp] theorem Mod.setClk_csErases (m : Mod) (n : Nat) (v : Clk) : (m.setClk n v).csErases = m.csErases := rfl
@[simp] theorem Mod.setClk_trainTries (m : Mod) (n : Nat) (v : Clk) : (m.setClk n v).trainTries = m.trainTries := rfl
@[simp] theorem Mod.setClk_dramHot (m : Mod) (n : Nat) (v : Clk) : (m.setClk n v).dramHot = m.dramHot := rfl
@[simp] theorem Mod.setClk_escCell (m : Mod) (n : Nat) (v : Clk) : (m.setClk n v).escCell = m.escCell := rfl
@[simp] theorem Mod.setClk_escBlock (m : Mod) (n : Nat) (v : Clk) : (m.setClk n v).escBlock = m.escBlock := rfl
@[simp] theorem Mod.setClk_escRgn (m : Mod) (n : Nat) (v : Clk) : (m.setClk n v).escRgn = m.escRgn := rfl
@[simp] theorem Mod.setClk_escDue (m : Mod) (n : Nat) (v : Clk) : (m.setClk n v).escDue = m.escDue := rfl
@[simp] theorem Mod.setClk_rgnAct (m : Mod) (n : Nat) (v : Clk) : (m.setClk n v).rgnAct = m.rgnAct := rfl
@[simp] theorem Mod.setClk_federated (m : Mod) (n : Nat) (v : Clk) : (m.setClk n v).federated = m.federated := rfl
@[simp] theorem Mod.setClk_serving (m : Mod) (n : Nat) (v : Clk) : (m.setClk n v).serving = m.serving := rfl
@[simp] theorem Mod.setClk_runs (m : Mod) (n : Nat) (v : Clk) : (m.setClk n v).runs = m.runs := rfl
@[simp] theorem Mod.setClk_heldReqs (m : Mod) (n : Nat) (v : Clk) : (m.setClk n v).heldReqs = m.heldReqs := rfl
@[simp] theorem Mod.setClk_nextTid (m : Mod) (n : Nat) (v : Clk) : (m.setClk n v).nextTid = m.nextTid := rfl
@[simp] theorem Mod.setClk_cbs (m : Mod) (n : Nat) (v : Clk) : (m.setClk n v).cbs = m.cbs := rfl
@[simp] theorem Mod.setClk_gathers (m : Mod) (n : Nat) (v : Clk) : (m.setClk n v).gathers = m.gathers := rfl
@[simp] theorem Mod.setClk_relays (m : Mod) (n : Nat) (v : Clk) : (m.setClk n v).relays = m.relays := rfl
@[simp] theorem Mod.setClk_served (m : Mod) (n : Nat) (v : Clk) : (m.setClk n v).served = m.served := rfl
@[simp] theorem Mod.setClk_fwA (m : Mod) (n : Nat) (v : Clk) : (m.setClk n v).fwA = m.fwA := rfl
@[simp] theorem Mod.setClk_fwB (m : Mod) (n : Nat) (v : Clk) : (m.setClk n v).fwB = m.fwB := rfl
@[simp] theorem Mod.setClk_runB (m : Mod) (n : Nat) (v : Clk) : (m.setClk n v).runB = m.runB := rfl
@[simp] theorem Mod.setClk_trialWait (m : Mod) (n : Nat) (v : Clk) : (m.setClk n v).trialWait = m.trialWait := rfl
@[simp] theorem Mod.setClk_laneMax (m : Mod) (n : Nat) (v : Clk) : (m.setClk n v).laneMax = m.laneMax := rfl
@[simp] theorem Mod.setClk_domRetry (m : Mod) (n : Nat) (v : Clk) : (m.setClk n v).domRetry = m.domRetry := rfl
@[simp] theorem Mod.setClk_wire (m : Mod) (n : Nat) (v : Clk) : (m.setClk n v).wire = m.wire := rfl
@[simp] theorem Mod.setClk_parked (m : Mod) (n : Nat) (v : Clk) : (m.setClk n v).parked = m.parked := rfl
@[simp] theorem Mod.setClk_resetCommits (m : Mod) (n : Nat) (v : Clk) : (m.setClk n v).resetCommits = m.resetCommits := rfl
@[simp] theorem Mod.setClk_heardNow (m : Mod) (n : Nat) (v : Clk) : (m.setClk n v).heardNow = m.heardNow := rfl

@[simp] theorem Mod.setSlot_regs (m : Mod) (n : Nat) (v : Slot) : (m.setSlot n v).regs = m.regs := rfl
@[simp] theorem Mod.setSlot_staged (m : Mod) (n : Nat) (v : Slot) : (m.setSlot n v).staged = m.staged := rfl
@[simp] theorem Mod.setSlot_stageImage (m : Mod) (n : Nat) (v : Slot) : (m.setSlot n v).stageImage = m.stageImage := rfl
@[simp] theorem Mod.setSlot_freeCtr (m : Mod) (n : Nat) (v : Slot) : (m.setSlot n v).freeCtr = m.freeCtr := rfl
@[simp] theorem Mod.setSlot_now (m : Mod) (n : Nat) (v : Slot) : (m.setSlot n v).now = m.now := rfl
@[simp] theorem Mod.setSlot_mono (m : Mod) (n : Nat) (v : Slot) : (m.setSlot n v).mono = m.mono := rfl
@[simp] theorem Mod.setSlot_corr (m : Mod) (n : Nat) (v : Slot) : (m.setSlot n v).corr = m.corr := rfl
@[simp] theorem Mod.setSlot_clks (m : Mod) (n : Nat) (v : Slot) : (m.setSlot n v).clks = m.clks := rfl
@[simp] theorem Mod.setSlot_ports (m : Mod) (n : Nat) (v : Slot) : (m.setSlot n v).ports = m.ports := rfl
@[simp] theorem Mod.setSlot_dies (m : Mod) (n : Nat) (v : Slot) : (m.setSlot n v).dies = m.dies := rfl
@[simp] theorem Mod.setSlot_recs (m : Mod) (n : Nat) (v : Slot) : (m.setSlot n v).recs = m.recs := rfl
@[simp] theorem Mod.setSlot_ostat (m : Mod) (n : Nat) (v : Slot) : (m.setSlot n v).ostat = m.ostat := rfl
@[simp] theorem Mod.setSlot_captured (m : Mod) (n : Nat) (v : Slot) : (m.setSlot n v).captured = m.captured := rfl
@[simp] theorem Mod.setSlot_mem (m : Mod) (n : Nat) (v : Slot) : (m.setSlot n v).mem = m.mem := rfl
@[simp] theorem Mod.setSlot_tags (m : Mod) (n : Nat) (v : Slot) : (m.setSlot n v).tags = m.tags := rfl
@[simp] theorem Mod.setSlot_lines (m : Mod) (n : Nat) (v : Slot) : (m.setSlot n v).lines = m.lines := rfl
@[simp] theorem Mod.setSlot_gatePend (m : Mod) (n : Nat) (v : Slot) : (m.setSlot n v).gatePend = m.gatePend := rfl
@[simp] theorem Mod.setSlot_vq (m : Mod) (n : Nat) (v : Slot) : (m.setSlot n v).vq = m.vq := rfl
@[simp] theorem Mod.setSlot_fq (m : Mod) (n : Nat) (v : Slot) : (m.setSlot n v).fq = m.fq := rfl
@[simp] theorem Mod.setSlot_sdFaults (m : Mod) (n : Nat) (v : Slot) : (m.setSlot n v).sdFaults = m.sdFaults := rfl
@[simp] theorem Mod.setSlot_sdEvents (m : Mod) (n : Nat) (v : Slot) : (m.setSlot n v).sdEvents = m.sdEvents := rfl
@[simp] theorem Mod.setSlot_inFlight (m : Mod) (n : Nat) (v : Slot) : (m.setSlot n v).inFlight = m.inFlight := rfl
@[simp] theorem Mod.setSlot_cores (m : Mod) (n : Nat) (v : Slot) : (m.setSlot n v).cores = m.cores := rfl
@[simp] theorem Mod.setSlot_links (m : Mod) (n : Nat) (v : Slot) : (m.setSlot n v).links = m.links := rfl
@[simp] theorem Mod.setSlot_req (m : Mod) (n : Nat) (v : Slot) : (m.setSlot n v).req = m.req := rfl
@[simp] theorem Mod.setSlot_fed (m : Mod) (n : Nat) (v : Slot) : (m.setSlot n v).fed = m.fed := rfl
@[simp] theorem Mod.setSlot_mx (m : Mod) (n : Nat) (v : Slot) : (m.setSlot n v).mx = m.mx := rfl
@[simp] theorem Mod.setSlot_xfr (m : Mod) (n : Nat) (v : Slot) : (m.setSlot n v).xfr = m.xfr := rfl
@[simp] theorem Mod.setSlot_host (m : Mod) (n : Nat) (v : Slot) : (m.setSlot n v).host = m.host := rfl
@[simp] theorem Mod.setSlot_sess (m : Mod) (n : Nat) (v : Slot) : (m.setSlot n v).sess = m.sess := rfl
@[simp] theorem Mod.setSlot_wins (m : Mod) (n : Nat) (v : Slot) : (m.setSlot n v).wins = m.wins := rfl
@[simp] theorem Mod.setSlot_lock (m : Mod) (n : Nat) (v : Slot) : (m.setSlot n v).lock = m.lock := rfl
@[simp] theorem Mod.setSlot_imgUp (m : Mod) (n : Nat) (v : Slot) : (m.setSlot n v).imgUp = m.imgUp := rfl
@[simp] theorem Mod.setSlot_fwUp (m : Mod) (n : Nat) (v : Slot) : (m.setSlot n v).fwUp = m.fwUp := rfl
@[simp] theorem Mod.setSlot_long (m : Mod) (n : Nat) (v : Slot) : (m.setSlot n v).long = m.long := rfl
@[simp] theorem Mod.setSlot_cfg (m : Mod) (n : Nat) (v : Slot) : (m.setSlot n v).cfg = m.cfg := rfl
@[simp] theorem Mod.setSlot_phase (m : Mod) (n : Nat) (v : Slot) : (m.setSlot n v).phase = m.phase := rfl
@[simp] theorem Mod.setSlot_goose (m : Mod) (n : Nat) (v : Slot) : (m.setSlot n v).goose = m.goose := rfl
@[simp] theorem Mod.setSlot_rook (m : Mod) (n : Nat) (v : Slot) : (m.setSlot n v).rook = m.rook := rfl
@[simp] theorem Mod.setSlot_desc (m : Mod) (n : Nat) (v : Slot) : (m.setSlot n v).desc = m.desc := rfl
@[simp] theorem Mod.setSlot_twin (m : Mod) (n : Nat) (v : Slot) : (m.setSlot n v).twin = m.twin := rfl
@[simp] theorem Mod.setSlot_waking (m : Mod) (n : Nat) (v : Slot) : (m.setSlot n v).waking = m.waking := rfl
@[simp] theorem Mod.setSlot_sent (m : Mod) (n : Nat) (v : Slot) : (m.setSlot n v).sent = m.sent := rfl
@[simp] theorem Mod.setSlot_rgnPhase (m : Mod) (n : Nat) (v : Slot) : (m.setSlot n v).rgnPhase = m.rgnPhase := rfl
@[simp] theorem Mod.setSlot_devSafe (m : Mod) (n : Nat) (v : Slot) : (m.setSlot n v).devSafe = m.devSafe := rfl
@[simp] theorem Mod.setSlot_sweep (m : Mod) (n : Nat) (v : Slot) : (m.setSlot n v).sweep = m.sweep := rfl
@[simp] theorem Mod.setSlot_dramUp (m : Mod) (n : Nat) (v : Slot) : (m.setSlot n v).dramUp = m.dramUp := rfl
@[simp] theorem Mod.setSlot_past (m : Mod) (n : Nat) (v : Slot) : (m.setSlot n v).past = m.past := rfl
@[simp] theorem Mod.setSlot_acc (m : Mod) (n : Nat) (v : Slot) : (m.setSlot n v).acc = m.acc := rfl
@[simp] theorem Mod.setSlot_goodIv (m : Mod) (n : Nat) (v : Slot) : (m.setSlot n v).goodIv = m.goodIv := rfl
@[simp] theorem Mod.setSlot_badIv (m : Mod) (n : Nat) (v : Slot) : (m.setSlot n v).badIv = m.badIv := rfl
@[simp] theorem Mod.setSlot_skips (m : Mod) (n : Nat) (v : Slot) : (m.setSlot n v).skips = m.skips := rfl
@[simp] theorem Mod.setSlot_holdFrom (m : Mod) (n : Nat) (v : Slot) : (m.setSlot n v).holdFrom = m.holdFrom := rfl
@[simp] theorem Mod.setSlot_lastSync (m : Mod) (n : Nat) (v : Slot) : (m.setSlot n v).lastSync = m.lastSync := rfl
@[simp] theorem Mod.setSlot_rate10 (m : Mod) (n : Nat) (v : Slot) : (m.setSlot n v).rate10 = m.rate10 := rfl
@[simp] theorem Mod.setSlot_heard (m : Mod) (n : Nat) (v : Slot) : (m.setSlot n v).heard = m.heard := rfl
@[simp] theorem Mod.setSlot_fallNow (m : Mod) (n : Nat) (v : Slot) : (m.setSlot n v).fallNow = m.fallNow := rfl
@[simp] theorem Mod.setSlot_recAux (m : Mod) (n : Nat) (v : Slot) : (m.setSlot n v).recAux = m.recAux := rfl
@[simp] theorem Mod.setSlot_outSeq (m : Mod) (n : Nat) (v : Slot) : (m.setSlot n v).outSeq = m.outSeq := rfl
@[simp] theorem Mod.setSlot_lastCapture (m : Mod) (n : Nat) (v : Slot) : (m.setSlot n v).lastCapture = m.lastCapture := rfl
@[simp] theorem Mod.setSlot_lastDone (m : Mod) (n : Nat) (v : Slot) : (m.setSlot n v).lastDone = m.lastDone := rfl
@[simp] theorem Mod.setSlot_settleEnd (m : Mod) (n : Nat) (v : Slot) : (m.setSlot n v).settleEnd = m.settleEnd := rfl
@[simp] theorem Mod.setSlot_chainLast (m : Mod) (n : Nat) (v : Slot) : (m.setSlot n v).chainLast = m.chainLast := rfl
@[simp] theorem Mod.setSlot_tdrBuf (m : Mod) (n : Nat) (v : Slot) : (m.setSlot n v).tdrBuf = m.tdrBuf := rfl
@[simp] theorem Mod.setSlot_fwd (m : Mod) (n : Nat) (v : Slot) : (m.setSlot n v).fwd = m.fwd := rfl
@[simp] theorem Mod.setSlot_fwdStage (m : Mod) (n : Nat) (v : Slot) : (m.setSlot n v).fwdStage = m.fwdStage := rfl
@[simp] theorem Mod.setSlot_vlan (m : Mod) (n : Nat) (v : Slot) : (m.setSlot n v).vlan = m.vlan := rfl
@[simp] theorem Mod.setSlot_vlanStage (m : Mod) (n : Nat) (v : Slot) : (m.setSlot n v).vlanStage = m.vlanStage := rfl
@[simp] theorem Mod.setSlot_egress (m : Mod) (n : Nat) (v : Slot) : (m.setSlot n v).egress = m.egress := rfl
@[simp] theorem Mod.setSlot_htxDone (m : Mod) (n : Nat) (v : Slot) : (m.setSlot n v).htxDone = m.htxDone := rfl
@[simp] theorem Mod.setSlot_ltxTaken (m : Mod) (n : Nat) (v : Slot) : (m.setSlot n v).ltxTaken = m.ltxTaken := rfl
@[simp] theorem Mod.setSlot_ltxDone (m : Mod) (n : Nat) (v : Slot) : (m.setSlot n v).ltxDone = m.ltxDone := rfl
@[simp] theorem Mod.setSlot_dramPoison (m : Mod) (n : Nat) (v : Slot) : (m.setSlot n v).dramPoison = m.dramPoison := rfl
@[simp] theorem Mod.setSlot_spoiled (m : Mod) (n : Nat) (v : Slot) : (m.setSlot n v).spoiled = m.spoiled := rfl
@[simp] theorem Mod.setSlot_plru (m : Mod) (n : Nat) (v : Slot) : (m.setSlot n v).plru = m.plru := rfl
@[simp] theorem Mod.setSlot_side (m : Mod) (n : Nat) (v : Slot) : (m.setSlot n v).side = m.side := rfl
@[simp] theorem Mod.setSlot_victims (m : Mod) (n : Nat) (v : Slot) : (m.setSlot n v).victims = m.victims := rfl
@[simp] theorem Mod.setSlot_held (m : Mod) (n : Nat) (v : Slot) : (m.setSlot n v).held = m.held := rfl
@[simp] theorem Mod.setSlot_rng (m : Mod) (n : Nat) (v : Slot) : (m.setSlot n v).rng = m.rng := rfl
@[simp] theorem Mod.setSlot_pdWays (m : Mod) (n : Nat) (v : Slot) : (m.setSlot n v).pdWays = m.pdWays := rfl
@[simp] theorem Mod.setSlot_csRun (m : Mod) (n : Nat) (v : Slot) : (m.setSlot n v).csRun = m.csRun := rfl
@[simp] theorem Mod.setSlot_csErases (m : Mod) (n : Nat) (v : Slot) : (m.setSlot n v).csErases = m.csErases := rfl
@[simp] theorem Mod.setSlot_trainTries (m : Mod) (n : Nat) (v : Slot) : (m.setSlot n v).trainTries = m.trainTries := rfl
@[simp] theorem Mod.setSlot_dramHot (m : Mod) (n : Nat) (v : Slot) : (m.setSlot n v).dramHot = m.dramHot := rfl
@[simp] theorem Mod.setSlot_escCell (m : Mod) (n : Nat) (v : Slot) : (m.setSlot n v).escCell = m.escCell := rfl
@[simp] theorem Mod.setSlot_escBlock (m : Mod) (n : Nat) (v : Slot) : (m.setSlot n v).escBlock = m.escBlock := rfl
@[simp] theorem Mod.setSlot_escRgn (m : Mod) (n : Nat) (v : Slot) : (m.setSlot n v).escRgn = m.escRgn := rfl
@[simp] theorem Mod.setSlot_escDue (m : Mod) (n : Nat) (v : Slot) : (m.setSlot n v).escDue = m.escDue := rfl
@[simp] theorem Mod.setSlot_rgnAct (m : Mod) (n : Nat) (v : Slot) : (m.setSlot n v).rgnAct = m.rgnAct := rfl
@[simp] theorem Mod.setSlot_federated (m : Mod) (n : Nat) (v : Slot) : (m.setSlot n v).federated = m.federated := rfl
@[simp] theorem Mod.setSlot_serving (m : Mod) (n : Nat) (v : Slot) : (m.setSlot n v).serving = m.serving := rfl
@[simp] theorem Mod.setSlot_runs (m : Mod) (n : Nat) (v : Slot) : (m.setSlot n v).runs = m.runs := rfl
@[simp] theorem Mod.setSlot_heldReqs (m : Mod) (n : Nat) (v : Slot) : (m.setSlot n v).heldReqs = m.heldReqs := rfl
@[simp] theorem Mod.setSlot_nextTid (m : Mod) (n : Nat) (v : Slot) : (m.setSlot n v).nextTid = m.nextTid := rfl
@[simp] theorem Mod.setSlot_cbs (m : Mod) (n : Nat) (v : Slot) : (m.setSlot n v).cbs = m.cbs := rfl
@[simp] theorem Mod.setSlot_gathers (m : Mod) (n : Nat) (v : Slot) : (m.setSlot n v).gathers = m.gathers := rfl
@[simp] theorem Mod.setSlot_relays (m : Mod) (n : Nat) (v : Slot) : (m.setSlot n v).relays = m.relays := rfl
@[simp] theorem Mod.setSlot_served (m : Mod) (n : Nat) (v : Slot) : (m.setSlot n v).served = m.served := rfl
@[simp] theorem Mod.setSlot_fwA (m : Mod) (n : Nat) (v : Slot) : (m.setSlot n v).fwA = m.fwA := rfl
@[simp] theorem Mod.setSlot_fwB (m : Mod) (n : Nat) (v : Slot) : (m.setSlot n v).fwB = m.fwB := rfl
@[simp] theorem Mod.setSlot_runB (m : Mod) (n : Nat) (v : Slot) : (m.setSlot n v).runB = m.runB := rfl
@[simp] theorem Mod.setSlot_trialWait (m : Mod) (n : Nat) (v : Slot) : (m.setSlot n v).trialWait = m.trialWait := rfl
@[simp] theorem Mod.setSlot_laneMax (m : Mod) (n : Nat) (v : Slot) : (m.setSlot n v).laneMax = m.laneMax := rfl
@[simp] theorem Mod.setSlot_domRetry (m : Mod) (n : Nat) (v : Slot) : (m.setSlot n v).domRetry = m.domRetry := rfl
@[simp] theorem Mod.setSlot_wire (m : Mod) (n : Nat) (v : Slot) : (m.setSlot n v).wire = m.wire := rfl
@[simp] theorem Mod.setSlot_parked (m : Mod) (n : Nat) (v : Slot) : (m.setSlot n v).parked = m.parked := rfl
@[simp] theorem Mod.setSlot_resetCommits (m : Mod) (n : Nat) (v : Slot) : (m.setSlot n v).resetCommits = m.resetCommits := rfl
@[simp] theorem Mod.setSlot_heardNow (m : Mod) (n : Nat) (v : Slot) : (m.setSlot n v).heardNow = m.heardNow := rfl

@[simp] theorem Mod.setLink_regs (m : Mod) (l : Nat) (v : Link) : (m.setLink l v).regs = m.regs := rfl
@[simp] theorem Mod.setLink_staged (m : Mod) (l : Nat) (v : Link) : (m.setLink l v).staged = m.staged := rfl
@[simp] theorem Mod.setLink_stageImage (m : Mod) (l : Nat) (v : Link) : (m.setLink l v).stageImage = m.stageImage := rfl
@[simp] theorem Mod.setLink_freeCtr (m : Mod) (l : Nat) (v : Link) : (m.setLink l v).freeCtr = m.freeCtr := rfl
@[simp] theorem Mod.setLink_now (m : Mod) (l : Nat) (v : Link) : (m.setLink l v).now = m.now := rfl
@[simp] theorem Mod.setLink_mono (m : Mod) (l : Nat) (v : Link) : (m.setLink l v).mono = m.mono := rfl
@[simp] theorem Mod.setLink_corr (m : Mod) (l : Nat) (v : Link) : (m.setLink l v).corr = m.corr := rfl
@[simp] theorem Mod.setLink_slots (m : Mod) (l : Nat) (v : Link) : (m.setLink l v).slots = m.slots := rfl
@[simp] theorem Mod.setLink_clks (m : Mod) (l : Nat) (v : Link) : (m.setLink l v).clks = m.clks := rfl
@[simp] theorem Mod.setLink_ports (m : Mod) (l : Nat) (v : Link) : (m.setLink l v).ports = m.ports := rfl
@[simp] theorem Mod.setLink_dies (m : Mod) (l : Nat) (v : Link) : (m.setLink l v).dies = m.dies := rfl
@[simp] theorem Mod.setLink_recs (m : Mod) (l : Nat) (v : Link) : (m.setLink l v).recs = m.recs := rfl
@[simp] theorem Mod.setLink_ostat (m : Mod) (l : Nat) (v : Link) : (m.setLink l v).ostat = m.ostat := rfl
@[simp] theorem Mod.setLink_captured (m : Mod) (l : Nat) (v : Link) : (m.setLink l v).captured = m.captured := rfl
@[simp] theorem Mod.setLink_mem (m : Mod) (l : Nat) (v : Link) : (m.setLink l v).mem = m.mem := rfl
@[simp] theorem Mod.setLink_tags (m : Mod) (l : Nat) (v : Link) : (m.setLink l v).tags = m.tags := rfl
@[simp] theorem Mod.setLink_lines (m : Mod) (l : Nat) (v : Link) : (m.setLink l v).lines = m.lines := rfl
@[simp] theorem Mod.setLink_gatePend (m : Mod) (l : Nat) (v : Link) : (m.setLink l v).gatePend = m.gatePend := rfl
@[simp] theorem Mod.setLink_vq (m : Mod) (l : Nat) (v : Link) : (m.setLink l v).vq = m.vq := rfl
@[simp] theorem Mod.setLink_fq (m : Mod) (l : Nat) (v : Link) : (m.setLink l v).fq = m.fq := rfl
@[simp] theorem Mod.setLink_sdFaults (m : Mod) (l : Nat) (v : Link) : (m.setLink l v).sdFaults = m.sdFaults := rfl
@[simp] theorem Mod.setLink_sdEvents (m : Mod) (l : Nat) (v : Link) : (m.setLink l v).sdEvents = m.sdEvents := rfl
@[simp] theorem Mod.setLink_inFlight (m : Mod) (l : Nat) (v : Link) : (m.setLink l v).inFlight = m.inFlight := rfl
@[simp] theorem Mod.setLink_cores (m : Mod) (l : Nat) (v : Link) : (m.setLink l v).cores = m.cores := rfl
@[simp] theorem Mod.setLink_req (m : Mod) (l : Nat) (v : Link) : (m.setLink l v).req = m.req := rfl
@[simp] theorem Mod.setLink_fed (m : Mod) (l : Nat) (v : Link) : (m.setLink l v).fed = m.fed := rfl
@[simp] theorem Mod.setLink_mx (m : Mod) (l : Nat) (v : Link) : (m.setLink l v).mx = m.mx := rfl
@[simp] theorem Mod.setLink_xfr (m : Mod) (l : Nat) (v : Link) : (m.setLink l v).xfr = m.xfr := rfl
@[simp] theorem Mod.setLink_host (m : Mod) (l : Nat) (v : Link) : (m.setLink l v).host = m.host := rfl
@[simp] theorem Mod.setLink_sess (m : Mod) (l : Nat) (v : Link) : (m.setLink l v).sess = m.sess := rfl
@[simp] theorem Mod.setLink_wins (m : Mod) (l : Nat) (v : Link) : (m.setLink l v).wins = m.wins := rfl
@[simp] theorem Mod.setLink_lock (m : Mod) (l : Nat) (v : Link) : (m.setLink l v).lock = m.lock := rfl
@[simp] theorem Mod.setLink_imgUp (m : Mod) (l : Nat) (v : Link) : (m.setLink l v).imgUp = m.imgUp := rfl
@[simp] theorem Mod.setLink_fwUp (m : Mod) (l : Nat) (v : Link) : (m.setLink l v).fwUp = m.fwUp := rfl
@[simp] theorem Mod.setLink_long (m : Mod) (l : Nat) (v : Link) : (m.setLink l v).long = m.long := rfl
@[simp] theorem Mod.setLink_cfg (m : Mod) (l : Nat) (v : Link) : (m.setLink l v).cfg = m.cfg := rfl
@[simp] theorem Mod.setLink_phase (m : Mod) (l : Nat) (v : Link) : (m.setLink l v).phase = m.phase := rfl
@[simp] theorem Mod.setLink_goose (m : Mod) (l : Nat) (v : Link) : (m.setLink l v).goose = m.goose := rfl
@[simp] theorem Mod.setLink_rook (m : Mod) (l : Nat) (v : Link) : (m.setLink l v).rook = m.rook := rfl
@[simp] theorem Mod.setLink_desc (m : Mod) (l : Nat) (v : Link) : (m.setLink l v).desc = m.desc := rfl
@[simp] theorem Mod.setLink_twin (m : Mod) (l : Nat) (v : Link) : (m.setLink l v).twin = m.twin := rfl
@[simp] theorem Mod.setLink_waking (m : Mod) (l : Nat) (v : Link) : (m.setLink l v).waking = m.waking := rfl
@[simp] theorem Mod.setLink_sent (m : Mod) (l : Nat) (v : Link) : (m.setLink l v).sent = m.sent := rfl
@[simp] theorem Mod.setLink_rgnPhase (m : Mod) (l : Nat) (v : Link) : (m.setLink l v).rgnPhase = m.rgnPhase := rfl
@[simp] theorem Mod.setLink_devSafe (m : Mod) (l : Nat) (v : Link) : (m.setLink l v).devSafe = m.devSafe := rfl
@[simp] theorem Mod.setLink_sweep (m : Mod) (l : Nat) (v : Link) : (m.setLink l v).sweep = m.sweep := rfl
@[simp] theorem Mod.setLink_dramUp (m : Mod) (l : Nat) (v : Link) : (m.setLink l v).dramUp = m.dramUp := rfl
@[simp] theorem Mod.setLink_past (m : Mod) (l : Nat) (v : Link) : (m.setLink l v).past = m.past := rfl
@[simp] theorem Mod.setLink_acc (m : Mod) (l : Nat) (v : Link) : (m.setLink l v).acc = m.acc := rfl
@[simp] theorem Mod.setLink_goodIv (m : Mod) (l : Nat) (v : Link) : (m.setLink l v).goodIv = m.goodIv := rfl
@[simp] theorem Mod.setLink_badIv (m : Mod) (l : Nat) (v : Link) : (m.setLink l v).badIv = m.badIv := rfl
@[simp] theorem Mod.setLink_skips (m : Mod) (l : Nat) (v : Link) : (m.setLink l v).skips = m.skips := rfl
@[simp] theorem Mod.setLink_holdFrom (m : Mod) (l : Nat) (v : Link) : (m.setLink l v).holdFrom = m.holdFrom := rfl
@[simp] theorem Mod.setLink_lastSync (m : Mod) (l : Nat) (v : Link) : (m.setLink l v).lastSync = m.lastSync := rfl
@[simp] theorem Mod.setLink_rate10 (m : Mod) (l : Nat) (v : Link) : (m.setLink l v).rate10 = m.rate10 := rfl
@[simp] theorem Mod.setLink_heard (m : Mod) (l : Nat) (v : Link) : (m.setLink l v).heard = m.heard := rfl
@[simp] theorem Mod.setLink_fallNow (m : Mod) (l : Nat) (v : Link) : (m.setLink l v).fallNow = m.fallNow := rfl
@[simp] theorem Mod.setLink_recAux (m : Mod) (l : Nat) (v : Link) : (m.setLink l v).recAux = m.recAux := rfl
@[simp] theorem Mod.setLink_outSeq (m : Mod) (l : Nat) (v : Link) : (m.setLink l v).outSeq = m.outSeq := rfl
@[simp] theorem Mod.setLink_lastCapture (m : Mod) (l : Nat) (v : Link) : (m.setLink l v).lastCapture = m.lastCapture := rfl
@[simp] theorem Mod.setLink_lastDone (m : Mod) (l : Nat) (v : Link) : (m.setLink l v).lastDone = m.lastDone := rfl
@[simp] theorem Mod.setLink_settleEnd (m : Mod) (l : Nat) (v : Link) : (m.setLink l v).settleEnd = m.settleEnd := rfl
@[simp] theorem Mod.setLink_chainLast (m : Mod) (l : Nat) (v : Link) : (m.setLink l v).chainLast = m.chainLast := rfl
@[simp] theorem Mod.setLink_tdrBuf (m : Mod) (l : Nat) (v : Link) : (m.setLink l v).tdrBuf = m.tdrBuf := rfl
@[simp] theorem Mod.setLink_fwd (m : Mod) (l : Nat) (v : Link) : (m.setLink l v).fwd = m.fwd := rfl
@[simp] theorem Mod.setLink_fwdStage (m : Mod) (l : Nat) (v : Link) : (m.setLink l v).fwdStage = m.fwdStage := rfl
@[simp] theorem Mod.setLink_vlan (m : Mod) (l : Nat) (v : Link) : (m.setLink l v).vlan = m.vlan := rfl
@[simp] theorem Mod.setLink_vlanStage (m : Mod) (l : Nat) (v : Link) : (m.setLink l v).vlanStage = m.vlanStage := rfl
@[simp] theorem Mod.setLink_egress (m : Mod) (l : Nat) (v : Link) : (m.setLink l v).egress = m.egress := rfl
@[simp] theorem Mod.setLink_htxDone (m : Mod) (l : Nat) (v : Link) : (m.setLink l v).htxDone = m.htxDone := rfl
@[simp] theorem Mod.setLink_ltxTaken (m : Mod) (l : Nat) (v : Link) : (m.setLink l v).ltxTaken = m.ltxTaken := rfl
@[simp] theorem Mod.setLink_ltxDone (m : Mod) (l : Nat) (v : Link) : (m.setLink l v).ltxDone = m.ltxDone := rfl
@[simp] theorem Mod.setLink_dramPoison (m : Mod) (l : Nat) (v : Link) : (m.setLink l v).dramPoison = m.dramPoison := rfl
@[simp] theorem Mod.setLink_spoiled (m : Mod) (l : Nat) (v : Link) : (m.setLink l v).spoiled = m.spoiled := rfl
@[simp] theorem Mod.setLink_plru (m : Mod) (l : Nat) (v : Link) : (m.setLink l v).plru = m.plru := rfl
@[simp] theorem Mod.setLink_side (m : Mod) (l : Nat) (v : Link) : (m.setLink l v).side = m.side := rfl
@[simp] theorem Mod.setLink_victims (m : Mod) (l : Nat) (v : Link) : (m.setLink l v).victims = m.victims := rfl
@[simp] theorem Mod.setLink_held (m : Mod) (l : Nat) (v : Link) : (m.setLink l v).held = m.held := rfl
@[simp] theorem Mod.setLink_rng (m : Mod) (l : Nat) (v : Link) : (m.setLink l v).rng = m.rng := rfl
@[simp] theorem Mod.setLink_pdWays (m : Mod) (l : Nat) (v : Link) : (m.setLink l v).pdWays = m.pdWays := rfl
@[simp] theorem Mod.setLink_csRun (m : Mod) (l : Nat) (v : Link) : (m.setLink l v).csRun = m.csRun := rfl
@[simp] theorem Mod.setLink_csErases (m : Mod) (l : Nat) (v : Link) : (m.setLink l v).csErases = m.csErases := rfl
@[simp] theorem Mod.setLink_trainTries (m : Mod) (l : Nat) (v : Link) : (m.setLink l v).trainTries = m.trainTries := rfl
@[simp] theorem Mod.setLink_dramHot (m : Mod) (l : Nat) (v : Link) : (m.setLink l v).dramHot = m.dramHot := rfl
@[simp] theorem Mod.setLink_escCell (m : Mod) (l : Nat) (v : Link) : (m.setLink l v).escCell = m.escCell := rfl
@[simp] theorem Mod.setLink_escBlock (m : Mod) (l : Nat) (v : Link) : (m.setLink l v).escBlock = m.escBlock := rfl
@[simp] theorem Mod.setLink_escRgn (m : Mod) (l : Nat) (v : Link) : (m.setLink l v).escRgn = m.escRgn := rfl
@[simp] theorem Mod.setLink_escDue (m : Mod) (l : Nat) (v : Link) : (m.setLink l v).escDue = m.escDue := rfl
@[simp] theorem Mod.setLink_rgnAct (m : Mod) (l : Nat) (v : Link) : (m.setLink l v).rgnAct = m.rgnAct := rfl
@[simp] theorem Mod.setLink_federated (m : Mod) (l : Nat) (v : Link) : (m.setLink l v).federated = m.federated := rfl
@[simp] theorem Mod.setLink_serving (m : Mod) (l : Nat) (v : Link) : (m.setLink l v).serving = m.serving := rfl
@[simp] theorem Mod.setLink_runs (m : Mod) (l : Nat) (v : Link) : (m.setLink l v).runs = m.runs := rfl
@[simp] theorem Mod.setLink_heldReqs (m : Mod) (l : Nat) (v : Link) : (m.setLink l v).heldReqs = m.heldReqs := rfl
@[simp] theorem Mod.setLink_nextTid (m : Mod) (l : Nat) (v : Link) : (m.setLink l v).nextTid = m.nextTid := rfl
@[simp] theorem Mod.setLink_cbs (m : Mod) (l : Nat) (v : Link) : (m.setLink l v).cbs = m.cbs := rfl
@[simp] theorem Mod.setLink_gathers (m : Mod) (l : Nat) (v : Link) : (m.setLink l v).gathers = m.gathers := rfl
@[simp] theorem Mod.setLink_relays (m : Mod) (l : Nat) (v : Link) : (m.setLink l v).relays = m.relays := rfl
@[simp] theorem Mod.setLink_served (m : Mod) (l : Nat) (v : Link) : (m.setLink l v).served = m.served := rfl
@[simp] theorem Mod.setLink_fwA (m : Mod) (l : Nat) (v : Link) : (m.setLink l v).fwA = m.fwA := rfl
@[simp] theorem Mod.setLink_fwB (m : Mod) (l : Nat) (v : Link) : (m.setLink l v).fwB = m.fwB := rfl
@[simp] theorem Mod.setLink_runB (m : Mod) (l : Nat) (v : Link) : (m.setLink l v).runB = m.runB := rfl
@[simp] theorem Mod.setLink_trialWait (m : Mod) (l : Nat) (v : Link) : (m.setLink l v).trialWait = m.trialWait := rfl
@[simp] theorem Mod.setLink_laneMax (m : Mod) (l : Nat) (v : Link) : (m.setLink l v).laneMax = m.laneMax := rfl
@[simp] theorem Mod.setLink_domRetry (m : Mod) (l : Nat) (v : Link) : (m.setLink l v).domRetry = m.domRetry := rfl
@[simp] theorem Mod.setLink_wire (m : Mod) (l : Nat) (v : Link) : (m.setLink l v).wire = m.wire := rfl
@[simp] theorem Mod.setLink_parked (m : Mod) (l : Nat) (v : Link) : (m.setLink l v).parked = m.parked := rfl
@[simp] theorem Mod.setLink_resetCommits (m : Mod) (l : Nat) (v : Link) : (m.setLink l v).resetCommits = m.resetCommits := rfl
@[simp] theorem Mod.setLink_heardNow (m : Mod) (l : Nat) (v : Link) : (m.setLink l v).heardNow = m.heardNow := rfl

@[simp] theorem Mod.setSess_regs (m : Mod) (q : Nat) (v : Sess) : (m.setSess q v).regs = m.regs := rfl
@[simp] theorem Mod.setSess_staged (m : Mod) (q : Nat) (v : Sess) : (m.setSess q v).staged = m.staged := rfl
@[simp] theorem Mod.setSess_stageImage (m : Mod) (q : Nat) (v : Sess) : (m.setSess q v).stageImage = m.stageImage := rfl
@[simp] theorem Mod.setSess_freeCtr (m : Mod) (q : Nat) (v : Sess) : (m.setSess q v).freeCtr = m.freeCtr := rfl
@[simp] theorem Mod.setSess_now (m : Mod) (q : Nat) (v : Sess) : (m.setSess q v).now = m.now := rfl
@[simp] theorem Mod.setSess_mono (m : Mod) (q : Nat) (v : Sess) : (m.setSess q v).mono = m.mono := rfl
@[simp] theorem Mod.setSess_corr (m : Mod) (q : Nat) (v : Sess) : (m.setSess q v).corr = m.corr := rfl
@[simp] theorem Mod.setSess_slots (m : Mod) (q : Nat) (v : Sess) : (m.setSess q v).slots = m.slots := rfl
@[simp] theorem Mod.setSess_clks (m : Mod) (q : Nat) (v : Sess) : (m.setSess q v).clks = m.clks := rfl
@[simp] theorem Mod.setSess_ports (m : Mod) (q : Nat) (v : Sess) : (m.setSess q v).ports = m.ports := rfl
@[simp] theorem Mod.setSess_dies (m : Mod) (q : Nat) (v : Sess) : (m.setSess q v).dies = m.dies := rfl
@[simp] theorem Mod.setSess_recs (m : Mod) (q : Nat) (v : Sess) : (m.setSess q v).recs = m.recs := rfl
@[simp] theorem Mod.setSess_ostat (m : Mod) (q : Nat) (v : Sess) : (m.setSess q v).ostat = m.ostat := rfl
@[simp] theorem Mod.setSess_captured (m : Mod) (q : Nat) (v : Sess) : (m.setSess q v).captured = m.captured := rfl
@[simp] theorem Mod.setSess_mem (m : Mod) (q : Nat) (v : Sess) : (m.setSess q v).mem = m.mem := rfl
@[simp] theorem Mod.setSess_tags (m : Mod) (q : Nat) (v : Sess) : (m.setSess q v).tags = m.tags := rfl
@[simp] theorem Mod.setSess_lines (m : Mod) (q : Nat) (v : Sess) : (m.setSess q v).lines = m.lines := rfl
@[simp] theorem Mod.setSess_gatePend (m : Mod) (q : Nat) (v : Sess) : (m.setSess q v).gatePend = m.gatePend := rfl
@[simp] theorem Mod.setSess_vq (m : Mod) (q : Nat) (v : Sess) : (m.setSess q v).vq = m.vq := rfl
@[simp] theorem Mod.setSess_fq (m : Mod) (q : Nat) (v : Sess) : (m.setSess q v).fq = m.fq := rfl
@[simp] theorem Mod.setSess_sdFaults (m : Mod) (q : Nat) (v : Sess) : (m.setSess q v).sdFaults = m.sdFaults := rfl
@[simp] theorem Mod.setSess_sdEvents (m : Mod) (q : Nat) (v : Sess) : (m.setSess q v).sdEvents = m.sdEvents := rfl
@[simp] theorem Mod.setSess_inFlight (m : Mod) (q : Nat) (v : Sess) : (m.setSess q v).inFlight = m.inFlight := rfl
@[simp] theorem Mod.setSess_cores (m : Mod) (q : Nat) (v : Sess) : (m.setSess q v).cores = m.cores := rfl
@[simp] theorem Mod.setSess_links (m : Mod) (q : Nat) (v : Sess) : (m.setSess q v).links = m.links := rfl
@[simp] theorem Mod.setSess_req (m : Mod) (q : Nat) (v : Sess) : (m.setSess q v).req = m.req := rfl
@[simp] theorem Mod.setSess_fed (m : Mod) (q : Nat) (v : Sess) : (m.setSess q v).fed = m.fed := rfl
@[simp] theorem Mod.setSess_mx (m : Mod) (q : Nat) (v : Sess) : (m.setSess q v).mx = m.mx := rfl
@[simp] theorem Mod.setSess_xfr (m : Mod) (q : Nat) (v : Sess) : (m.setSess q v).xfr = m.xfr := rfl
@[simp] theorem Mod.setSess_host (m : Mod) (q : Nat) (v : Sess) : (m.setSess q v).host = m.host := rfl
@[simp] theorem Mod.setSess_wins (m : Mod) (q : Nat) (v : Sess) : (m.setSess q v).wins = m.wins := rfl
@[simp] theorem Mod.setSess_lock (m : Mod) (q : Nat) (v : Sess) : (m.setSess q v).lock = m.lock := rfl
@[simp] theorem Mod.setSess_imgUp (m : Mod) (q : Nat) (v : Sess) : (m.setSess q v).imgUp = m.imgUp := rfl
@[simp] theorem Mod.setSess_fwUp (m : Mod) (q : Nat) (v : Sess) : (m.setSess q v).fwUp = m.fwUp := rfl
@[simp] theorem Mod.setSess_long (m : Mod) (q : Nat) (v : Sess) : (m.setSess q v).long = m.long := rfl
@[simp] theorem Mod.setSess_cfg (m : Mod) (q : Nat) (v : Sess) : (m.setSess q v).cfg = m.cfg := rfl
@[simp] theorem Mod.setSess_phase (m : Mod) (q : Nat) (v : Sess) : (m.setSess q v).phase = m.phase := rfl
@[simp] theorem Mod.setSess_goose (m : Mod) (q : Nat) (v : Sess) : (m.setSess q v).goose = m.goose := rfl
@[simp] theorem Mod.setSess_rook (m : Mod) (q : Nat) (v : Sess) : (m.setSess q v).rook = m.rook := rfl
@[simp] theorem Mod.setSess_desc (m : Mod) (q : Nat) (v : Sess) : (m.setSess q v).desc = m.desc := rfl
@[simp] theorem Mod.setSess_twin (m : Mod) (q : Nat) (v : Sess) : (m.setSess q v).twin = m.twin := rfl
@[simp] theorem Mod.setSess_waking (m : Mod) (q : Nat) (v : Sess) : (m.setSess q v).waking = m.waking := rfl
@[simp] theorem Mod.setSess_sent (m : Mod) (q : Nat) (v : Sess) : (m.setSess q v).sent = m.sent := rfl
@[simp] theorem Mod.setSess_rgnPhase (m : Mod) (q : Nat) (v : Sess) : (m.setSess q v).rgnPhase = m.rgnPhase := rfl
@[simp] theorem Mod.setSess_devSafe (m : Mod) (q : Nat) (v : Sess) : (m.setSess q v).devSafe = m.devSafe := rfl
@[simp] theorem Mod.setSess_sweep (m : Mod) (q : Nat) (v : Sess) : (m.setSess q v).sweep = m.sweep := rfl
@[simp] theorem Mod.setSess_dramUp (m : Mod) (q : Nat) (v : Sess) : (m.setSess q v).dramUp = m.dramUp := rfl
@[simp] theorem Mod.setSess_past (m : Mod) (q : Nat) (v : Sess) : (m.setSess q v).past = m.past := rfl
@[simp] theorem Mod.setSess_acc (m : Mod) (q : Nat) (v : Sess) : (m.setSess q v).acc = m.acc := rfl
@[simp] theorem Mod.setSess_goodIv (m : Mod) (q : Nat) (v : Sess) : (m.setSess q v).goodIv = m.goodIv := rfl
@[simp] theorem Mod.setSess_badIv (m : Mod) (q : Nat) (v : Sess) : (m.setSess q v).badIv = m.badIv := rfl
@[simp] theorem Mod.setSess_skips (m : Mod) (q : Nat) (v : Sess) : (m.setSess q v).skips = m.skips := rfl
@[simp] theorem Mod.setSess_holdFrom (m : Mod) (q : Nat) (v : Sess) : (m.setSess q v).holdFrom = m.holdFrom := rfl
@[simp] theorem Mod.setSess_lastSync (m : Mod) (q : Nat) (v : Sess) : (m.setSess q v).lastSync = m.lastSync := rfl
@[simp] theorem Mod.setSess_rate10 (m : Mod) (q : Nat) (v : Sess) : (m.setSess q v).rate10 = m.rate10 := rfl
@[simp] theorem Mod.setSess_heard (m : Mod) (q : Nat) (v : Sess) : (m.setSess q v).heard = m.heard := rfl
@[simp] theorem Mod.setSess_fallNow (m : Mod) (q : Nat) (v : Sess) : (m.setSess q v).fallNow = m.fallNow := rfl
@[simp] theorem Mod.setSess_recAux (m : Mod) (q : Nat) (v : Sess) : (m.setSess q v).recAux = m.recAux := rfl
@[simp] theorem Mod.setSess_outSeq (m : Mod) (q : Nat) (v : Sess) : (m.setSess q v).outSeq = m.outSeq := rfl
@[simp] theorem Mod.setSess_lastCapture (m : Mod) (q : Nat) (v : Sess) : (m.setSess q v).lastCapture = m.lastCapture := rfl
@[simp] theorem Mod.setSess_lastDone (m : Mod) (q : Nat) (v : Sess) : (m.setSess q v).lastDone = m.lastDone := rfl
@[simp] theorem Mod.setSess_settleEnd (m : Mod) (q : Nat) (v : Sess) : (m.setSess q v).settleEnd = m.settleEnd := rfl
@[simp] theorem Mod.setSess_chainLast (m : Mod) (q : Nat) (v : Sess) : (m.setSess q v).chainLast = m.chainLast := rfl
@[simp] theorem Mod.setSess_tdrBuf (m : Mod) (q : Nat) (v : Sess) : (m.setSess q v).tdrBuf = m.tdrBuf := rfl
@[simp] theorem Mod.setSess_fwd (m : Mod) (q : Nat) (v : Sess) : (m.setSess q v).fwd = m.fwd := rfl
@[simp] theorem Mod.setSess_fwdStage (m : Mod) (q : Nat) (v : Sess) : (m.setSess q v).fwdStage = m.fwdStage := rfl
@[simp] theorem Mod.setSess_vlan (m : Mod) (q : Nat) (v : Sess) : (m.setSess q v).vlan = m.vlan := rfl
@[simp] theorem Mod.setSess_vlanStage (m : Mod) (q : Nat) (v : Sess) : (m.setSess q v).vlanStage = m.vlanStage := rfl
@[simp] theorem Mod.setSess_egress (m : Mod) (q : Nat) (v : Sess) : (m.setSess q v).egress = m.egress := rfl
@[simp] theorem Mod.setSess_htxDone (m : Mod) (q : Nat) (v : Sess) : (m.setSess q v).htxDone = m.htxDone := rfl
@[simp] theorem Mod.setSess_ltxTaken (m : Mod) (q : Nat) (v : Sess) : (m.setSess q v).ltxTaken = m.ltxTaken := rfl
@[simp] theorem Mod.setSess_ltxDone (m : Mod) (q : Nat) (v : Sess) : (m.setSess q v).ltxDone = m.ltxDone := rfl
@[simp] theorem Mod.setSess_dramPoison (m : Mod) (q : Nat) (v : Sess) : (m.setSess q v).dramPoison = m.dramPoison := rfl
@[simp] theorem Mod.setSess_spoiled (m : Mod) (q : Nat) (v : Sess) : (m.setSess q v).spoiled = m.spoiled := rfl
@[simp] theorem Mod.setSess_plru (m : Mod) (q : Nat) (v : Sess) : (m.setSess q v).plru = m.plru := rfl
@[simp] theorem Mod.setSess_side (m : Mod) (q : Nat) (v : Sess) : (m.setSess q v).side = m.side := rfl
@[simp] theorem Mod.setSess_victims (m : Mod) (q : Nat) (v : Sess) : (m.setSess q v).victims = m.victims := rfl
@[simp] theorem Mod.setSess_held (m : Mod) (q : Nat) (v : Sess) : (m.setSess q v).held = m.held := rfl
@[simp] theorem Mod.setSess_rng (m : Mod) (q : Nat) (v : Sess) : (m.setSess q v).rng = m.rng := rfl
@[simp] theorem Mod.setSess_pdWays (m : Mod) (q : Nat) (v : Sess) : (m.setSess q v).pdWays = m.pdWays := rfl
@[simp] theorem Mod.setSess_csRun (m : Mod) (q : Nat) (v : Sess) : (m.setSess q v).csRun = m.csRun := rfl
@[simp] theorem Mod.setSess_csErases (m : Mod) (q : Nat) (v : Sess) : (m.setSess q v).csErases = m.csErases := rfl
@[simp] theorem Mod.setSess_trainTries (m : Mod) (q : Nat) (v : Sess) : (m.setSess q v).trainTries = m.trainTries := rfl
@[simp] theorem Mod.setSess_dramHot (m : Mod) (q : Nat) (v : Sess) : (m.setSess q v).dramHot = m.dramHot := rfl
@[simp] theorem Mod.setSess_escCell (m : Mod) (q : Nat) (v : Sess) : (m.setSess q v).escCell = m.escCell := rfl
@[simp] theorem Mod.setSess_escBlock (m : Mod) (q : Nat) (v : Sess) : (m.setSess q v).escBlock = m.escBlock := rfl
@[simp] theorem Mod.setSess_escRgn (m : Mod) (q : Nat) (v : Sess) : (m.setSess q v).escRgn = m.escRgn := rfl
@[simp] theorem Mod.setSess_escDue (m : Mod) (q : Nat) (v : Sess) : (m.setSess q v).escDue = m.escDue := rfl
@[simp] theorem Mod.setSess_rgnAct (m : Mod) (q : Nat) (v : Sess) : (m.setSess q v).rgnAct = m.rgnAct := rfl
@[simp] theorem Mod.setSess_federated (m : Mod) (q : Nat) (v : Sess) : (m.setSess q v).federated = m.federated := rfl
@[simp] theorem Mod.setSess_serving (m : Mod) (q : Nat) (v : Sess) : (m.setSess q v).serving = m.serving := rfl
@[simp] theorem Mod.setSess_runs (m : Mod) (q : Nat) (v : Sess) : (m.setSess q v).runs = m.runs := rfl
@[simp] theorem Mod.setSess_heldReqs (m : Mod) (q : Nat) (v : Sess) : (m.setSess q v).heldReqs = m.heldReqs := rfl
@[simp] theorem Mod.setSess_nextTid (m : Mod) (q : Nat) (v : Sess) : (m.setSess q v).nextTid = m.nextTid := rfl
@[simp] theorem Mod.setSess_cbs (m : Mod) (q : Nat) (v : Sess) : (m.setSess q v).cbs = m.cbs := rfl
@[simp] theorem Mod.setSess_gathers (m : Mod) (q : Nat) (v : Sess) : (m.setSess q v).gathers = m.gathers := rfl
@[simp] theorem Mod.setSess_relays (m : Mod) (q : Nat) (v : Sess) : (m.setSess q v).relays = m.relays := rfl
@[simp] theorem Mod.setSess_served (m : Mod) (q : Nat) (v : Sess) : (m.setSess q v).served = m.served := rfl
@[simp] theorem Mod.setSess_fwA (m : Mod) (q : Nat) (v : Sess) : (m.setSess q v).fwA = m.fwA := rfl
@[simp] theorem Mod.setSess_fwB (m : Mod) (q : Nat) (v : Sess) : (m.setSess q v).fwB = m.fwB := rfl
@[simp] theorem Mod.setSess_runB (m : Mod) (q : Nat) (v : Sess) : (m.setSess q v).runB = m.runB := rfl
@[simp] theorem Mod.setSess_trialWait (m : Mod) (q : Nat) (v : Sess) : (m.setSess q v).trialWait = m.trialWait := rfl
@[simp] theorem Mod.setSess_laneMax (m : Mod) (q : Nat) (v : Sess) : (m.setSess q v).laneMax = m.laneMax := rfl
@[simp] theorem Mod.setSess_domRetry (m : Mod) (q : Nat) (v : Sess) : (m.setSess q v).domRetry = m.domRetry := rfl
@[simp] theorem Mod.setSess_wire (m : Mod) (q : Nat) (v : Sess) : (m.setSess q v).wire = m.wire := rfl
@[simp] theorem Mod.setSess_parked (m : Mod) (q : Nat) (v : Sess) : (m.setSess q v).parked = m.parked := rfl
@[simp] theorem Mod.setSess_resetCommits (m : Mod) (q : Nat) (v : Sess) : (m.setSess q v).resetCommits = m.resetCommits := rfl
@[simp] theorem Mod.setSess_heardNow (m : Mod) (q : Nat) (v : Sess) : (m.setSess q v).heardNow = m.heardNow := rfl

@[simp] theorem Mod.setRec_regs (m : Mod) (k : Nat) (v : SigRec) : (m.setRec k v).regs = m.regs := rfl
@[simp] theorem Mod.setRec_staged (m : Mod) (k : Nat) (v : SigRec) : (m.setRec k v).staged = m.staged := rfl
@[simp] theorem Mod.setRec_stageImage (m : Mod) (k : Nat) (v : SigRec) : (m.setRec k v).stageImage = m.stageImage := rfl
@[simp] theorem Mod.setRec_freeCtr (m : Mod) (k : Nat) (v : SigRec) : (m.setRec k v).freeCtr = m.freeCtr := rfl
@[simp] theorem Mod.setRec_now (m : Mod) (k : Nat) (v : SigRec) : (m.setRec k v).now = m.now := rfl
@[simp] theorem Mod.setRec_mono (m : Mod) (k : Nat) (v : SigRec) : (m.setRec k v).mono = m.mono := rfl
@[simp] theorem Mod.setRec_corr (m : Mod) (k : Nat) (v : SigRec) : (m.setRec k v).corr = m.corr := rfl
@[simp] theorem Mod.setRec_slots (m : Mod) (k : Nat) (v : SigRec) : (m.setRec k v).slots = m.slots := rfl
@[simp] theorem Mod.setRec_clks (m : Mod) (k : Nat) (v : SigRec) : (m.setRec k v).clks = m.clks := rfl
@[simp] theorem Mod.setRec_ports (m : Mod) (k : Nat) (v : SigRec) : (m.setRec k v).ports = m.ports := rfl
@[simp] theorem Mod.setRec_dies (m : Mod) (k : Nat) (v : SigRec) : (m.setRec k v).dies = m.dies := rfl
@[simp] theorem Mod.setRec_ostat (m : Mod) (k : Nat) (v : SigRec) : (m.setRec k v).ostat = m.ostat := rfl
@[simp] theorem Mod.setRec_captured (m : Mod) (k : Nat) (v : SigRec) : (m.setRec k v).captured = m.captured := rfl
@[simp] theorem Mod.setRec_mem (m : Mod) (k : Nat) (v : SigRec) : (m.setRec k v).mem = m.mem := rfl
@[simp] theorem Mod.setRec_tags (m : Mod) (k : Nat) (v : SigRec) : (m.setRec k v).tags = m.tags := rfl
@[simp] theorem Mod.setRec_lines (m : Mod) (k : Nat) (v : SigRec) : (m.setRec k v).lines = m.lines := rfl
@[simp] theorem Mod.setRec_gatePend (m : Mod) (k : Nat) (v : SigRec) : (m.setRec k v).gatePend = m.gatePend := rfl
@[simp] theorem Mod.setRec_vq (m : Mod) (k : Nat) (v : SigRec) : (m.setRec k v).vq = m.vq := rfl
@[simp] theorem Mod.setRec_fq (m : Mod) (k : Nat) (v : SigRec) : (m.setRec k v).fq = m.fq := rfl
@[simp] theorem Mod.setRec_sdFaults (m : Mod) (k : Nat) (v : SigRec) : (m.setRec k v).sdFaults = m.sdFaults := rfl
@[simp] theorem Mod.setRec_sdEvents (m : Mod) (k : Nat) (v : SigRec) : (m.setRec k v).sdEvents = m.sdEvents := rfl
@[simp] theorem Mod.setRec_inFlight (m : Mod) (k : Nat) (v : SigRec) : (m.setRec k v).inFlight = m.inFlight := rfl
@[simp] theorem Mod.setRec_cores (m : Mod) (k : Nat) (v : SigRec) : (m.setRec k v).cores = m.cores := rfl
@[simp] theorem Mod.setRec_links (m : Mod) (k : Nat) (v : SigRec) : (m.setRec k v).links = m.links := rfl
@[simp] theorem Mod.setRec_req (m : Mod) (k : Nat) (v : SigRec) : (m.setRec k v).req = m.req := rfl
@[simp] theorem Mod.setRec_fed (m : Mod) (k : Nat) (v : SigRec) : (m.setRec k v).fed = m.fed := rfl
@[simp] theorem Mod.setRec_mx (m : Mod) (k : Nat) (v : SigRec) : (m.setRec k v).mx = m.mx := rfl
@[simp] theorem Mod.setRec_xfr (m : Mod) (k : Nat) (v : SigRec) : (m.setRec k v).xfr = m.xfr := rfl
@[simp] theorem Mod.setRec_host (m : Mod) (k : Nat) (v : SigRec) : (m.setRec k v).host = m.host := rfl
@[simp] theorem Mod.setRec_sess (m : Mod) (k : Nat) (v : SigRec) : (m.setRec k v).sess = m.sess := rfl
@[simp] theorem Mod.setRec_wins (m : Mod) (k : Nat) (v : SigRec) : (m.setRec k v).wins = m.wins := rfl
@[simp] theorem Mod.setRec_lock (m : Mod) (k : Nat) (v : SigRec) : (m.setRec k v).lock = m.lock := rfl
@[simp] theorem Mod.setRec_imgUp (m : Mod) (k : Nat) (v : SigRec) : (m.setRec k v).imgUp = m.imgUp := rfl
@[simp] theorem Mod.setRec_fwUp (m : Mod) (k : Nat) (v : SigRec) : (m.setRec k v).fwUp = m.fwUp := rfl
@[simp] theorem Mod.setRec_long (m : Mod) (k : Nat) (v : SigRec) : (m.setRec k v).long = m.long := rfl
@[simp] theorem Mod.setRec_cfg (m : Mod) (k : Nat) (v : SigRec) : (m.setRec k v).cfg = m.cfg := rfl
@[simp] theorem Mod.setRec_phase (m : Mod) (k : Nat) (v : SigRec) : (m.setRec k v).phase = m.phase := rfl
@[simp] theorem Mod.setRec_goose (m : Mod) (k : Nat) (v : SigRec) : (m.setRec k v).goose = m.goose := rfl
@[simp] theorem Mod.setRec_rook (m : Mod) (k : Nat) (v : SigRec) : (m.setRec k v).rook = m.rook := rfl
@[simp] theorem Mod.setRec_desc (m : Mod) (k : Nat) (v : SigRec) : (m.setRec k v).desc = m.desc := rfl
@[simp] theorem Mod.setRec_twin (m : Mod) (k : Nat) (v : SigRec) : (m.setRec k v).twin = m.twin := rfl
@[simp] theorem Mod.setRec_waking (m : Mod) (k : Nat) (v : SigRec) : (m.setRec k v).waking = m.waking := rfl
@[simp] theorem Mod.setRec_sent (m : Mod) (k : Nat) (v : SigRec) : (m.setRec k v).sent = m.sent := rfl
@[simp] theorem Mod.setRec_rgnPhase (m : Mod) (k : Nat) (v : SigRec) : (m.setRec k v).rgnPhase = m.rgnPhase := rfl
@[simp] theorem Mod.setRec_devSafe (m : Mod) (k : Nat) (v : SigRec) : (m.setRec k v).devSafe = m.devSafe := rfl
@[simp] theorem Mod.setRec_sweep (m : Mod) (k : Nat) (v : SigRec) : (m.setRec k v).sweep = m.sweep := rfl
@[simp] theorem Mod.setRec_dramUp (m : Mod) (k : Nat) (v : SigRec) : (m.setRec k v).dramUp = m.dramUp := rfl
@[simp] theorem Mod.setRec_past (m : Mod) (k : Nat) (v : SigRec) : (m.setRec k v).past = m.past := rfl
@[simp] theorem Mod.setRec_acc (m : Mod) (k : Nat) (v : SigRec) : (m.setRec k v).acc = m.acc := rfl
@[simp] theorem Mod.setRec_goodIv (m : Mod) (k : Nat) (v : SigRec) : (m.setRec k v).goodIv = m.goodIv := rfl
@[simp] theorem Mod.setRec_badIv (m : Mod) (k : Nat) (v : SigRec) : (m.setRec k v).badIv = m.badIv := rfl
@[simp] theorem Mod.setRec_skips (m : Mod) (k : Nat) (v : SigRec) : (m.setRec k v).skips = m.skips := rfl
@[simp] theorem Mod.setRec_holdFrom (m : Mod) (k : Nat) (v : SigRec) : (m.setRec k v).holdFrom = m.holdFrom := rfl
@[simp] theorem Mod.setRec_lastSync (m : Mod) (k : Nat) (v : SigRec) : (m.setRec k v).lastSync = m.lastSync := rfl
@[simp] theorem Mod.setRec_rate10 (m : Mod) (k : Nat) (v : SigRec) : (m.setRec k v).rate10 = m.rate10 := rfl
@[simp] theorem Mod.setRec_heard (m : Mod) (k : Nat) (v : SigRec) : (m.setRec k v).heard = m.heard := rfl
@[simp] theorem Mod.setRec_fallNow (m : Mod) (k : Nat) (v : SigRec) : (m.setRec k v).fallNow = m.fallNow := rfl
@[simp] theorem Mod.setRec_recAux (m : Mod) (k : Nat) (v : SigRec) : (m.setRec k v).recAux = m.recAux := rfl
@[simp] theorem Mod.setRec_outSeq (m : Mod) (k : Nat) (v : SigRec) : (m.setRec k v).outSeq = m.outSeq := rfl
@[simp] theorem Mod.setRec_lastCapture (m : Mod) (k : Nat) (v : SigRec) : (m.setRec k v).lastCapture = m.lastCapture := rfl
@[simp] theorem Mod.setRec_lastDone (m : Mod) (k : Nat) (v : SigRec) : (m.setRec k v).lastDone = m.lastDone := rfl
@[simp] theorem Mod.setRec_settleEnd (m : Mod) (k : Nat) (v : SigRec) : (m.setRec k v).settleEnd = m.settleEnd := rfl
@[simp] theorem Mod.setRec_chainLast (m : Mod) (k : Nat) (v : SigRec) : (m.setRec k v).chainLast = m.chainLast := rfl
@[simp] theorem Mod.setRec_tdrBuf (m : Mod) (k : Nat) (v : SigRec) : (m.setRec k v).tdrBuf = m.tdrBuf := rfl
@[simp] theorem Mod.setRec_fwd (m : Mod) (k : Nat) (v : SigRec) : (m.setRec k v).fwd = m.fwd := rfl
@[simp] theorem Mod.setRec_fwdStage (m : Mod) (k : Nat) (v : SigRec) : (m.setRec k v).fwdStage = m.fwdStage := rfl
@[simp] theorem Mod.setRec_vlan (m : Mod) (k : Nat) (v : SigRec) : (m.setRec k v).vlan = m.vlan := rfl
@[simp] theorem Mod.setRec_vlanStage (m : Mod) (k : Nat) (v : SigRec) : (m.setRec k v).vlanStage = m.vlanStage := rfl
@[simp] theorem Mod.setRec_egress (m : Mod) (k : Nat) (v : SigRec) : (m.setRec k v).egress = m.egress := rfl
@[simp] theorem Mod.setRec_htxDone (m : Mod) (k : Nat) (v : SigRec) : (m.setRec k v).htxDone = m.htxDone := rfl
@[simp] theorem Mod.setRec_ltxTaken (m : Mod) (k : Nat) (v : SigRec) : (m.setRec k v).ltxTaken = m.ltxTaken := rfl
@[simp] theorem Mod.setRec_ltxDone (m : Mod) (k : Nat) (v : SigRec) : (m.setRec k v).ltxDone = m.ltxDone := rfl
@[simp] theorem Mod.setRec_dramPoison (m : Mod) (k : Nat) (v : SigRec) : (m.setRec k v).dramPoison = m.dramPoison := rfl
@[simp] theorem Mod.setRec_spoiled (m : Mod) (k : Nat) (v : SigRec) : (m.setRec k v).spoiled = m.spoiled := rfl
@[simp] theorem Mod.setRec_plru (m : Mod) (k : Nat) (v : SigRec) : (m.setRec k v).plru = m.plru := rfl
@[simp] theorem Mod.setRec_side (m : Mod) (k : Nat) (v : SigRec) : (m.setRec k v).side = m.side := rfl
@[simp] theorem Mod.setRec_victims (m : Mod) (k : Nat) (v : SigRec) : (m.setRec k v).victims = m.victims := rfl
@[simp] theorem Mod.setRec_held (m : Mod) (k : Nat) (v : SigRec) : (m.setRec k v).held = m.held := rfl
@[simp] theorem Mod.setRec_rng (m : Mod) (k : Nat) (v : SigRec) : (m.setRec k v).rng = m.rng := rfl
@[simp] theorem Mod.setRec_pdWays (m : Mod) (k : Nat) (v : SigRec) : (m.setRec k v).pdWays = m.pdWays := rfl
@[simp] theorem Mod.setRec_csRun (m : Mod) (k : Nat) (v : SigRec) : (m.setRec k v).csRun = m.csRun := rfl
@[simp] theorem Mod.setRec_csErases (m : Mod) (k : Nat) (v : SigRec) : (m.setRec k v).csErases = m.csErases := rfl
@[simp] theorem Mod.setRec_trainTries (m : Mod) (k : Nat) (v : SigRec) : (m.setRec k v).trainTries = m.trainTries := rfl
@[simp] theorem Mod.setRec_dramHot (m : Mod) (k : Nat) (v : SigRec) : (m.setRec k v).dramHot = m.dramHot := rfl
@[simp] theorem Mod.setRec_escCell (m : Mod) (k : Nat) (v : SigRec) : (m.setRec k v).escCell = m.escCell := rfl
@[simp] theorem Mod.setRec_escBlock (m : Mod) (k : Nat) (v : SigRec) : (m.setRec k v).escBlock = m.escBlock := rfl
@[simp] theorem Mod.setRec_escRgn (m : Mod) (k : Nat) (v : SigRec) : (m.setRec k v).escRgn = m.escRgn := rfl
@[simp] theorem Mod.setRec_escDue (m : Mod) (k : Nat) (v : SigRec) : (m.setRec k v).escDue = m.escDue := rfl
@[simp] theorem Mod.setRec_rgnAct (m : Mod) (k : Nat) (v : SigRec) : (m.setRec k v).rgnAct = m.rgnAct := rfl
@[simp] theorem Mod.setRec_federated (m : Mod) (k : Nat) (v : SigRec) : (m.setRec k v).federated = m.federated := rfl
@[simp] theorem Mod.setRec_serving (m : Mod) (k : Nat) (v : SigRec) : (m.setRec k v).serving = m.serving := rfl
@[simp] theorem Mod.setRec_runs (m : Mod) (k : Nat) (v : SigRec) : (m.setRec k v).runs = m.runs := rfl
@[simp] theorem Mod.setRec_heldReqs (m : Mod) (k : Nat) (v : SigRec) : (m.setRec k v).heldReqs = m.heldReqs := rfl
@[simp] theorem Mod.setRec_nextTid (m : Mod) (k : Nat) (v : SigRec) : (m.setRec k v).nextTid = m.nextTid := rfl
@[simp] theorem Mod.setRec_cbs (m : Mod) (k : Nat) (v : SigRec) : (m.setRec k v).cbs = m.cbs := rfl
@[simp] theorem Mod.setRec_gathers (m : Mod) (k : Nat) (v : SigRec) : (m.setRec k v).gathers = m.gathers := rfl
@[simp] theorem Mod.setRec_relays (m : Mod) (k : Nat) (v : SigRec) : (m.setRec k v).relays = m.relays := rfl
@[simp] theorem Mod.setRec_served (m : Mod) (k : Nat) (v : SigRec) : (m.setRec k v).served = m.served := rfl
@[simp] theorem Mod.setRec_fwA (m : Mod) (k : Nat) (v : SigRec) : (m.setRec k v).fwA = m.fwA := rfl
@[simp] theorem Mod.setRec_fwB (m : Mod) (k : Nat) (v : SigRec) : (m.setRec k v).fwB = m.fwB := rfl
@[simp] theorem Mod.setRec_runB (m : Mod) (k : Nat) (v : SigRec) : (m.setRec k v).runB = m.runB := rfl
@[simp] theorem Mod.setRec_trialWait (m : Mod) (k : Nat) (v : SigRec) : (m.setRec k v).trialWait = m.trialWait := rfl
@[simp] theorem Mod.setRec_laneMax (m : Mod) (k : Nat) (v : SigRec) : (m.setRec k v).laneMax = m.laneMax := rfl
@[simp] theorem Mod.setRec_domRetry (m : Mod) (k : Nat) (v : SigRec) : (m.setRec k v).domRetry = m.domRetry := rfl
@[simp] theorem Mod.setRec_wire (m : Mod) (k : Nat) (v : SigRec) : (m.setRec k v).wire = m.wire := rfl
@[simp] theorem Mod.setRec_parked (m : Mod) (k : Nat) (v : SigRec) : (m.setRec k v).parked = m.parked := rfl
@[simp] theorem Mod.setRec_resetCommits (m : Mod) (k : Nat) (v : SigRec) : (m.setRec k v).resetCommits = m.resetCommits := rfl
@[simp] theorem Mod.setRec_heardNow (m : Mod) (k : Nat) (v : SigRec) : (m.setRec k v).heardNow = m.heardNow := rfl

@[simp] theorem Mod.setCapture_regs (m : Mod) (p : Nat) (v : Option Captured) : (m.setCapture p v).regs = m.regs := rfl
@[simp] theorem Mod.setCapture_staged (m : Mod) (p : Nat) (v : Option Captured) : (m.setCapture p v).staged = m.staged := rfl
@[simp] theorem Mod.setCapture_stageImage (m : Mod) (p : Nat) (v : Option Captured) : (m.setCapture p v).stageImage = m.stageImage := rfl
@[simp] theorem Mod.setCapture_freeCtr (m : Mod) (p : Nat) (v : Option Captured) : (m.setCapture p v).freeCtr = m.freeCtr := rfl
@[simp] theorem Mod.setCapture_now (m : Mod) (p : Nat) (v : Option Captured) : (m.setCapture p v).now = m.now := rfl
@[simp] theorem Mod.setCapture_mono (m : Mod) (p : Nat) (v : Option Captured) : (m.setCapture p v).mono = m.mono := rfl
@[simp] theorem Mod.setCapture_corr (m : Mod) (p : Nat) (v : Option Captured) : (m.setCapture p v).corr = m.corr := rfl
@[simp] theorem Mod.setCapture_slots (m : Mod) (p : Nat) (v : Option Captured) : (m.setCapture p v).slots = m.slots := rfl
@[simp] theorem Mod.setCapture_clks (m : Mod) (p : Nat) (v : Option Captured) : (m.setCapture p v).clks = m.clks := rfl
@[simp] theorem Mod.setCapture_ports (m : Mod) (p : Nat) (v : Option Captured) : (m.setCapture p v).ports = m.ports := rfl
@[simp] theorem Mod.setCapture_dies (m : Mod) (p : Nat) (v : Option Captured) : (m.setCapture p v).dies = m.dies := rfl
@[simp] theorem Mod.setCapture_recs (m : Mod) (p : Nat) (v : Option Captured) : (m.setCapture p v).recs = m.recs := rfl
@[simp] theorem Mod.setCapture_ostat (m : Mod) (p : Nat) (v : Option Captured) : (m.setCapture p v).ostat = m.ostat := rfl
@[simp] theorem Mod.setCapture_mem (m : Mod) (p : Nat) (v : Option Captured) : (m.setCapture p v).mem = m.mem := rfl
@[simp] theorem Mod.setCapture_tags (m : Mod) (p : Nat) (v : Option Captured) : (m.setCapture p v).tags = m.tags := rfl
@[simp] theorem Mod.setCapture_lines (m : Mod) (p : Nat) (v : Option Captured) : (m.setCapture p v).lines = m.lines := rfl
@[simp] theorem Mod.setCapture_gatePend (m : Mod) (p : Nat) (v : Option Captured) : (m.setCapture p v).gatePend = m.gatePend := rfl
@[simp] theorem Mod.setCapture_vq (m : Mod) (p : Nat) (v : Option Captured) : (m.setCapture p v).vq = m.vq := rfl
@[simp] theorem Mod.setCapture_fq (m : Mod) (p : Nat) (v : Option Captured) : (m.setCapture p v).fq = m.fq := rfl
@[simp] theorem Mod.setCapture_sdFaults (m : Mod) (p : Nat) (v : Option Captured) : (m.setCapture p v).sdFaults = m.sdFaults := rfl
@[simp] theorem Mod.setCapture_sdEvents (m : Mod) (p : Nat) (v : Option Captured) : (m.setCapture p v).sdEvents = m.sdEvents := rfl
@[simp] theorem Mod.setCapture_inFlight (m : Mod) (p : Nat) (v : Option Captured) : (m.setCapture p v).inFlight = m.inFlight := rfl
@[simp] theorem Mod.setCapture_cores (m : Mod) (p : Nat) (v : Option Captured) : (m.setCapture p v).cores = m.cores := rfl
@[simp] theorem Mod.setCapture_links (m : Mod) (p : Nat) (v : Option Captured) : (m.setCapture p v).links = m.links := rfl
@[simp] theorem Mod.setCapture_req (m : Mod) (p : Nat) (v : Option Captured) : (m.setCapture p v).req = m.req := rfl
@[simp] theorem Mod.setCapture_fed (m : Mod) (p : Nat) (v : Option Captured) : (m.setCapture p v).fed = m.fed := rfl
@[simp] theorem Mod.setCapture_mx (m : Mod) (p : Nat) (v : Option Captured) : (m.setCapture p v).mx = m.mx := rfl
@[simp] theorem Mod.setCapture_xfr (m : Mod) (p : Nat) (v : Option Captured) : (m.setCapture p v).xfr = m.xfr := rfl
@[simp] theorem Mod.setCapture_host (m : Mod) (p : Nat) (v : Option Captured) : (m.setCapture p v).host = m.host := rfl
@[simp] theorem Mod.setCapture_sess (m : Mod) (p : Nat) (v : Option Captured) : (m.setCapture p v).sess = m.sess := rfl
@[simp] theorem Mod.setCapture_wins (m : Mod) (p : Nat) (v : Option Captured) : (m.setCapture p v).wins = m.wins := rfl
@[simp] theorem Mod.setCapture_lock (m : Mod) (p : Nat) (v : Option Captured) : (m.setCapture p v).lock = m.lock := rfl
@[simp] theorem Mod.setCapture_imgUp (m : Mod) (p : Nat) (v : Option Captured) : (m.setCapture p v).imgUp = m.imgUp := rfl
@[simp] theorem Mod.setCapture_fwUp (m : Mod) (p : Nat) (v : Option Captured) : (m.setCapture p v).fwUp = m.fwUp := rfl
@[simp] theorem Mod.setCapture_long (m : Mod) (p : Nat) (v : Option Captured) : (m.setCapture p v).long = m.long := rfl
@[simp] theorem Mod.setCapture_cfg (m : Mod) (p : Nat) (v : Option Captured) : (m.setCapture p v).cfg = m.cfg := rfl
@[simp] theorem Mod.setCapture_phase (m : Mod) (p : Nat) (v : Option Captured) : (m.setCapture p v).phase = m.phase := rfl
@[simp] theorem Mod.setCapture_goose (m : Mod) (p : Nat) (v : Option Captured) : (m.setCapture p v).goose = m.goose := rfl
@[simp] theorem Mod.setCapture_rook (m : Mod) (p : Nat) (v : Option Captured) : (m.setCapture p v).rook = m.rook := rfl
@[simp] theorem Mod.setCapture_desc (m : Mod) (p : Nat) (v : Option Captured) : (m.setCapture p v).desc = m.desc := rfl
@[simp] theorem Mod.setCapture_twin (m : Mod) (p : Nat) (v : Option Captured) : (m.setCapture p v).twin = m.twin := rfl
@[simp] theorem Mod.setCapture_waking (m : Mod) (p : Nat) (v : Option Captured) : (m.setCapture p v).waking = m.waking := rfl
@[simp] theorem Mod.setCapture_sent (m : Mod) (p : Nat) (v : Option Captured) : (m.setCapture p v).sent = m.sent := rfl
@[simp] theorem Mod.setCapture_rgnPhase (m : Mod) (p : Nat) (v : Option Captured) : (m.setCapture p v).rgnPhase = m.rgnPhase := rfl
@[simp] theorem Mod.setCapture_devSafe (m : Mod) (p : Nat) (v : Option Captured) : (m.setCapture p v).devSafe = m.devSafe := rfl
@[simp] theorem Mod.setCapture_sweep (m : Mod) (p : Nat) (v : Option Captured) : (m.setCapture p v).sweep = m.sweep := rfl
@[simp] theorem Mod.setCapture_dramUp (m : Mod) (p : Nat) (v : Option Captured) : (m.setCapture p v).dramUp = m.dramUp := rfl
@[simp] theorem Mod.setCapture_past (m : Mod) (p : Nat) (v : Option Captured) : (m.setCapture p v).past = m.past := rfl
@[simp] theorem Mod.setCapture_acc (m : Mod) (p : Nat) (v : Option Captured) : (m.setCapture p v).acc = m.acc := rfl
@[simp] theorem Mod.setCapture_goodIv (m : Mod) (p : Nat) (v : Option Captured) : (m.setCapture p v).goodIv = m.goodIv := rfl
@[simp] theorem Mod.setCapture_badIv (m : Mod) (p : Nat) (v : Option Captured) : (m.setCapture p v).badIv = m.badIv := rfl
@[simp] theorem Mod.setCapture_skips (m : Mod) (p : Nat) (v : Option Captured) : (m.setCapture p v).skips = m.skips := rfl
@[simp] theorem Mod.setCapture_holdFrom (m : Mod) (p : Nat) (v : Option Captured) : (m.setCapture p v).holdFrom = m.holdFrom := rfl
@[simp] theorem Mod.setCapture_lastSync (m : Mod) (p : Nat) (v : Option Captured) : (m.setCapture p v).lastSync = m.lastSync := rfl
@[simp] theorem Mod.setCapture_rate10 (m : Mod) (p : Nat) (v : Option Captured) : (m.setCapture p v).rate10 = m.rate10 := rfl
@[simp] theorem Mod.setCapture_heard (m : Mod) (p : Nat) (v : Option Captured) : (m.setCapture p v).heard = m.heard := rfl
@[simp] theorem Mod.setCapture_fallNow (m : Mod) (p : Nat) (v : Option Captured) : (m.setCapture p v).fallNow = m.fallNow := rfl
@[simp] theorem Mod.setCapture_recAux (m : Mod) (p : Nat) (v : Option Captured) : (m.setCapture p v).recAux = m.recAux := rfl
@[simp] theorem Mod.setCapture_outSeq (m : Mod) (p : Nat) (v : Option Captured) : (m.setCapture p v).outSeq = m.outSeq := rfl
@[simp] theorem Mod.setCapture_lastCapture (m : Mod) (p : Nat) (v : Option Captured) : (m.setCapture p v).lastCapture = m.lastCapture := rfl
@[simp] theorem Mod.setCapture_lastDone (m : Mod) (p : Nat) (v : Option Captured) : (m.setCapture p v).lastDone = m.lastDone := rfl
@[simp] theorem Mod.setCapture_settleEnd (m : Mod) (p : Nat) (v : Option Captured) : (m.setCapture p v).settleEnd = m.settleEnd := rfl
@[simp] theorem Mod.setCapture_chainLast (m : Mod) (p : Nat) (v : Option Captured) : (m.setCapture p v).chainLast = m.chainLast := rfl
@[simp] theorem Mod.setCapture_tdrBuf (m : Mod) (p : Nat) (v : Option Captured) : (m.setCapture p v).tdrBuf = m.tdrBuf := rfl
@[simp] theorem Mod.setCapture_fwd (m : Mod) (p : Nat) (v : Option Captured) : (m.setCapture p v).fwd = m.fwd := rfl
@[simp] theorem Mod.setCapture_fwdStage (m : Mod) (p : Nat) (v : Option Captured) : (m.setCapture p v).fwdStage = m.fwdStage := rfl
@[simp] theorem Mod.setCapture_vlan (m : Mod) (p : Nat) (v : Option Captured) : (m.setCapture p v).vlan = m.vlan := rfl
@[simp] theorem Mod.setCapture_vlanStage (m : Mod) (p : Nat) (v : Option Captured) : (m.setCapture p v).vlanStage = m.vlanStage := rfl
@[simp] theorem Mod.setCapture_egress (m : Mod) (p : Nat) (v : Option Captured) : (m.setCapture p v).egress = m.egress := rfl
@[simp] theorem Mod.setCapture_htxDone (m : Mod) (p : Nat) (v : Option Captured) : (m.setCapture p v).htxDone = m.htxDone := rfl
@[simp] theorem Mod.setCapture_ltxTaken (m : Mod) (p : Nat) (v : Option Captured) : (m.setCapture p v).ltxTaken = m.ltxTaken := rfl
@[simp] theorem Mod.setCapture_ltxDone (m : Mod) (p : Nat) (v : Option Captured) : (m.setCapture p v).ltxDone = m.ltxDone := rfl
@[simp] theorem Mod.setCapture_dramPoison (m : Mod) (p : Nat) (v : Option Captured) : (m.setCapture p v).dramPoison = m.dramPoison := rfl
@[simp] theorem Mod.setCapture_spoiled (m : Mod) (p : Nat) (v : Option Captured) : (m.setCapture p v).spoiled = m.spoiled := rfl
@[simp] theorem Mod.setCapture_plru (m : Mod) (p : Nat) (v : Option Captured) : (m.setCapture p v).plru = m.plru := rfl
@[simp] theorem Mod.setCapture_side (m : Mod) (p : Nat) (v : Option Captured) : (m.setCapture p v).side = m.side := rfl
@[simp] theorem Mod.setCapture_victims (m : Mod) (p : Nat) (v : Option Captured) : (m.setCapture p v).victims = m.victims := rfl
@[simp] theorem Mod.setCapture_held (m : Mod) (p : Nat) (v : Option Captured) : (m.setCapture p v).held = m.held := rfl
@[simp] theorem Mod.setCapture_rng (m : Mod) (p : Nat) (v : Option Captured) : (m.setCapture p v).rng = m.rng := rfl
@[simp] theorem Mod.setCapture_pdWays (m : Mod) (p : Nat) (v : Option Captured) : (m.setCapture p v).pdWays = m.pdWays := rfl
@[simp] theorem Mod.setCapture_csRun (m : Mod) (p : Nat) (v : Option Captured) : (m.setCapture p v).csRun = m.csRun := rfl
@[simp] theorem Mod.setCapture_csErases (m : Mod) (p : Nat) (v : Option Captured) : (m.setCapture p v).csErases = m.csErases := rfl
@[simp] theorem Mod.setCapture_trainTries (m : Mod) (p : Nat) (v : Option Captured) : (m.setCapture p v).trainTries = m.trainTries := rfl
@[simp] theorem Mod.setCapture_dramHot (m : Mod) (p : Nat) (v : Option Captured) : (m.setCapture p v).dramHot = m.dramHot := rfl
@[simp] theorem Mod.setCapture_escCell (m : Mod) (p : Nat) (v : Option Captured) : (m.setCapture p v).escCell = m.escCell := rfl
@[simp] theorem Mod.setCapture_escBlock (m : Mod) (p : Nat) (v : Option Captured) : (m.setCapture p v).escBlock = m.escBlock := rfl
@[simp] theorem Mod.setCapture_escRgn (m : Mod) (p : Nat) (v : Option Captured) : (m.setCapture p v).escRgn = m.escRgn := rfl
@[simp] theorem Mod.setCapture_escDue (m : Mod) (p : Nat) (v : Option Captured) : (m.setCapture p v).escDue = m.escDue := rfl
@[simp] theorem Mod.setCapture_rgnAct (m : Mod) (p : Nat) (v : Option Captured) : (m.setCapture p v).rgnAct = m.rgnAct := rfl
@[simp] theorem Mod.setCapture_federated (m : Mod) (p : Nat) (v : Option Captured) : (m.setCapture p v).federated = m.federated := rfl
@[simp] theorem Mod.setCapture_serving (m : Mod) (p : Nat) (v : Option Captured) : (m.setCapture p v).serving = m.serving := rfl
@[simp] theorem Mod.setCapture_runs (m : Mod) (p : Nat) (v : Option Captured) : (m.setCapture p v).runs = m.runs := rfl
@[simp] theorem Mod.setCapture_heldReqs (m : Mod) (p : Nat) (v : Option Captured) : (m.setCapture p v).heldReqs = m.heldReqs := rfl
@[simp] theorem Mod.setCapture_nextTid (m : Mod) (p : Nat) (v : Option Captured) : (m.setCapture p v).nextTid = m.nextTid := rfl
@[simp] theorem Mod.setCapture_cbs (m : Mod) (p : Nat) (v : Option Captured) : (m.setCapture p v).cbs = m.cbs := rfl
@[simp] theorem Mod.setCapture_gathers (m : Mod) (p : Nat) (v : Option Captured) : (m.setCapture p v).gathers = m.gathers := rfl
@[simp] theorem Mod.setCapture_relays (m : Mod) (p : Nat) (v : Option Captured) : (m.setCapture p v).relays = m.relays := rfl
@[simp] theorem Mod.setCapture_served (m : Mod) (p : Nat) (v : Option Captured) : (m.setCapture p v).served = m.served := rfl
@[simp] theorem Mod.setCapture_fwA (m : Mod) (p : Nat) (v : Option Captured) : (m.setCapture p v).fwA = m.fwA := rfl
@[simp] theorem Mod.setCapture_fwB (m : Mod) (p : Nat) (v : Option Captured) : (m.setCapture p v).fwB = m.fwB := rfl
@[simp] theorem Mod.setCapture_runB (m : Mod) (p : Nat) (v : Option Captured) : (m.setCapture p v).runB = m.runB := rfl
@[simp] theorem Mod.setCapture_trialWait (m : Mod) (p : Nat) (v : Option Captured) : (m.setCapture p v).trialWait = m.trialWait := rfl
@[simp] theorem Mod.setCapture_laneMax (m : Mod) (p : Nat) (v : Option Captured) : (m.setCapture p v).laneMax = m.laneMax := rfl
@[simp] theorem Mod.setCapture_domRetry (m : Mod) (p : Nat) (v : Option Captured) : (m.setCapture p v).domRetry = m.domRetry := rfl
@[simp] theorem Mod.setCapture_wire (m : Mod) (p : Nat) (v : Option Captured) : (m.setCapture p v).wire = m.wire := rfl
@[simp] theorem Mod.setCapture_parked (m : Mod) (p : Nat) (v : Option Captured) : (m.setCapture p v).parked = m.parked := rfl
@[simp] theorem Mod.setCapture_resetCommits (m : Mod) (p : Nat) (v : Option Captured) : (m.setCapture p v).resetCommits = m.resetCommits := rfl
@[simp] theorem Mod.setCapture_heardNow (m : Mod) (p : Nat) (v : Option Captured) : (m.setCapture p v).heardNow = m.heardNow := rfl

@[simp] theorem Mod.emit_regs (m : Mod) (o : Out) : (m.emit o).regs = m.regs := rfl
@[simp] theorem Mod.emit_staged (m : Mod) (o : Out) : (m.emit o).staged = m.staged := rfl
@[simp] theorem Mod.emit_stageImage (m : Mod) (o : Out) : (m.emit o).stageImage = m.stageImage := rfl
@[simp] theorem Mod.emit_freeCtr (m : Mod) (o : Out) : (m.emit o).freeCtr = m.freeCtr := rfl
@[simp] theorem Mod.emit_now (m : Mod) (o : Out) : (m.emit o).now = m.now := rfl
@[simp] theorem Mod.emit_mono (m : Mod) (o : Out) : (m.emit o).mono = m.mono := rfl
@[simp] theorem Mod.emit_corr (m : Mod) (o : Out) : (m.emit o).corr = m.corr := rfl
@[simp] theorem Mod.emit_slots (m : Mod) (o : Out) : (m.emit o).slots = m.slots := rfl
@[simp] theorem Mod.emit_clks (m : Mod) (o : Out) : (m.emit o).clks = m.clks := rfl
@[simp] theorem Mod.emit_ports (m : Mod) (o : Out) : (m.emit o).ports = m.ports := rfl
@[simp] theorem Mod.emit_dies (m : Mod) (o : Out) : (m.emit o).dies = m.dies := rfl
@[simp] theorem Mod.emit_recs (m : Mod) (o : Out) : (m.emit o).recs = m.recs := rfl
@[simp] theorem Mod.emit_ostat (m : Mod) (o : Out) : (m.emit o).ostat = m.ostat := rfl
@[simp] theorem Mod.emit_captured (m : Mod) (o : Out) : (m.emit o).captured = m.captured := rfl
@[simp] theorem Mod.emit_mem (m : Mod) (o : Out) : (m.emit o).mem = m.mem := rfl
@[simp] theorem Mod.emit_tags (m : Mod) (o : Out) : (m.emit o).tags = m.tags := rfl
@[simp] theorem Mod.emit_lines (m : Mod) (o : Out) : (m.emit o).lines = m.lines := rfl
@[simp] theorem Mod.emit_gatePend (m : Mod) (o : Out) : (m.emit o).gatePend = m.gatePend := rfl
@[simp] theorem Mod.emit_vq (m : Mod) (o : Out) : (m.emit o).vq = m.vq := rfl
@[simp] theorem Mod.emit_fq (m : Mod) (o : Out) : (m.emit o).fq = m.fq := rfl
@[simp] theorem Mod.emit_sdFaults (m : Mod) (o : Out) : (m.emit o).sdFaults = m.sdFaults := rfl
@[simp] theorem Mod.emit_sdEvents (m : Mod) (o : Out) : (m.emit o).sdEvents = m.sdEvents := rfl
@[simp] theorem Mod.emit_inFlight (m : Mod) (o : Out) : (m.emit o).inFlight = m.inFlight := rfl
@[simp] theorem Mod.emit_cores (m : Mod) (o : Out) : (m.emit o).cores = m.cores := rfl
@[simp] theorem Mod.emit_links (m : Mod) (o : Out) : (m.emit o).links = m.links := rfl
@[simp] theorem Mod.emit_req (m : Mod) (o : Out) : (m.emit o).req = m.req := rfl
@[simp] theorem Mod.emit_fed (m : Mod) (o : Out) : (m.emit o).fed = m.fed := rfl
@[simp] theorem Mod.emit_mx (m : Mod) (o : Out) : (m.emit o).mx = m.mx := rfl
@[simp] theorem Mod.emit_xfr (m : Mod) (o : Out) : (m.emit o).xfr = m.xfr := rfl
@[simp] theorem Mod.emit_host (m : Mod) (o : Out) : (m.emit o).host = m.host := rfl
@[simp] theorem Mod.emit_sess (m : Mod) (o : Out) : (m.emit o).sess = m.sess := rfl
@[simp] theorem Mod.emit_wins (m : Mod) (o : Out) : (m.emit o).wins = m.wins := rfl
@[simp] theorem Mod.emit_lock (m : Mod) (o : Out) : (m.emit o).lock = m.lock := rfl
@[simp] theorem Mod.emit_imgUp (m : Mod) (o : Out) : (m.emit o).imgUp = m.imgUp := rfl
@[simp] theorem Mod.emit_fwUp (m : Mod) (o : Out) : (m.emit o).fwUp = m.fwUp := rfl
@[simp] theorem Mod.emit_long (m : Mod) (o : Out) : (m.emit o).long = m.long := rfl
@[simp] theorem Mod.emit_cfg (m : Mod) (o : Out) : (m.emit o).cfg = m.cfg := rfl
@[simp] theorem Mod.emit_phase (m : Mod) (o : Out) : (m.emit o).phase = m.phase := rfl
@[simp] theorem Mod.emit_goose (m : Mod) (o : Out) : (m.emit o).goose = m.goose := rfl
@[simp] theorem Mod.emit_rook (m : Mod) (o : Out) : (m.emit o).rook = m.rook := rfl
@[simp] theorem Mod.emit_desc (m : Mod) (o : Out) : (m.emit o).desc = m.desc := rfl
@[simp] theorem Mod.emit_twin (m : Mod) (o : Out) : (m.emit o).twin = m.twin := rfl
@[simp] theorem Mod.emit_waking (m : Mod) (o : Out) : (m.emit o).waking = m.waking := rfl
@[simp] theorem Mod.emit_rgnPhase (m : Mod) (o : Out) : (m.emit o).rgnPhase = m.rgnPhase := rfl
@[simp] theorem Mod.emit_devSafe (m : Mod) (o : Out) : (m.emit o).devSafe = m.devSafe := rfl
@[simp] theorem Mod.emit_sweep (m : Mod) (o : Out) : (m.emit o).sweep = m.sweep := rfl
@[simp] theorem Mod.emit_dramUp (m : Mod) (o : Out) : (m.emit o).dramUp = m.dramUp := rfl
@[simp] theorem Mod.emit_past (m : Mod) (o : Out) : (m.emit o).past = m.past := rfl
@[simp] theorem Mod.emit_acc (m : Mod) (o : Out) : (m.emit o).acc = m.acc := rfl
@[simp] theorem Mod.emit_goodIv (m : Mod) (o : Out) : (m.emit o).goodIv = m.goodIv := rfl
@[simp] theorem Mod.emit_badIv (m : Mod) (o : Out) : (m.emit o).badIv = m.badIv := rfl
@[simp] theorem Mod.emit_skips (m : Mod) (o : Out) : (m.emit o).skips = m.skips := rfl
@[simp] theorem Mod.emit_holdFrom (m : Mod) (o : Out) : (m.emit o).holdFrom = m.holdFrom := rfl
@[simp] theorem Mod.emit_lastSync (m : Mod) (o : Out) : (m.emit o).lastSync = m.lastSync := rfl
@[simp] theorem Mod.emit_rate10 (m : Mod) (o : Out) : (m.emit o).rate10 = m.rate10 := rfl
@[simp] theorem Mod.emit_heard (m : Mod) (o : Out) : (m.emit o).heard = m.heard := rfl
@[simp] theorem Mod.emit_fallNow (m : Mod) (o : Out) : (m.emit o).fallNow = m.fallNow := rfl
@[simp] theorem Mod.emit_recAux (m : Mod) (o : Out) : (m.emit o).recAux = m.recAux := rfl
@[simp] theorem Mod.emit_outSeq (m : Mod) (o : Out) : (m.emit o).outSeq = m.outSeq := rfl
@[simp] theorem Mod.emit_lastCapture (m : Mod) (o : Out) : (m.emit o).lastCapture = m.lastCapture := rfl
@[simp] theorem Mod.emit_lastDone (m : Mod) (o : Out) : (m.emit o).lastDone = m.lastDone := rfl
@[simp] theorem Mod.emit_settleEnd (m : Mod) (o : Out) : (m.emit o).settleEnd = m.settleEnd := rfl
@[simp] theorem Mod.emit_chainLast (m : Mod) (o : Out) : (m.emit o).chainLast = m.chainLast := rfl
@[simp] theorem Mod.emit_tdrBuf (m : Mod) (o : Out) : (m.emit o).tdrBuf = m.tdrBuf := rfl
@[simp] theorem Mod.emit_fwd (m : Mod) (o : Out) : (m.emit o).fwd = m.fwd := rfl
@[simp] theorem Mod.emit_fwdStage (m : Mod) (o : Out) : (m.emit o).fwdStage = m.fwdStage := rfl
@[simp] theorem Mod.emit_vlan (m : Mod) (o : Out) : (m.emit o).vlan = m.vlan := rfl
@[simp] theorem Mod.emit_vlanStage (m : Mod) (o : Out) : (m.emit o).vlanStage = m.vlanStage := rfl
@[simp] theorem Mod.emit_egress (m : Mod) (o : Out) : (m.emit o).egress = m.egress := rfl
@[simp] theorem Mod.emit_htxDone (m : Mod) (o : Out) : (m.emit o).htxDone = m.htxDone := rfl
@[simp] theorem Mod.emit_ltxTaken (m : Mod) (o : Out) : (m.emit o).ltxTaken = m.ltxTaken := rfl
@[simp] theorem Mod.emit_ltxDone (m : Mod) (o : Out) : (m.emit o).ltxDone = m.ltxDone := rfl
@[simp] theorem Mod.emit_dramPoison (m : Mod) (o : Out) : (m.emit o).dramPoison = m.dramPoison := rfl
@[simp] theorem Mod.emit_spoiled (m : Mod) (o : Out) : (m.emit o).spoiled = m.spoiled := rfl
@[simp] theorem Mod.emit_plru (m : Mod) (o : Out) : (m.emit o).plru = m.plru := rfl
@[simp] theorem Mod.emit_side (m : Mod) (o : Out) : (m.emit o).side = m.side := rfl
@[simp] theorem Mod.emit_victims (m : Mod) (o : Out) : (m.emit o).victims = m.victims := rfl
@[simp] theorem Mod.emit_held (m : Mod) (o : Out) : (m.emit o).held = m.held := rfl
@[simp] theorem Mod.emit_rng (m : Mod) (o : Out) : (m.emit o).rng = m.rng := rfl
@[simp] theorem Mod.emit_pdWays (m : Mod) (o : Out) : (m.emit o).pdWays = m.pdWays := rfl
@[simp] theorem Mod.emit_csRun (m : Mod) (o : Out) : (m.emit o).csRun = m.csRun := rfl
@[simp] theorem Mod.emit_csErases (m : Mod) (o : Out) : (m.emit o).csErases = m.csErases := rfl
@[simp] theorem Mod.emit_trainTries (m : Mod) (o : Out) : (m.emit o).trainTries = m.trainTries := rfl
@[simp] theorem Mod.emit_dramHot (m : Mod) (o : Out) : (m.emit o).dramHot = m.dramHot := rfl
@[simp] theorem Mod.emit_escCell (m : Mod) (o : Out) : (m.emit o).escCell = m.escCell := rfl
@[simp] theorem Mod.emit_escBlock (m : Mod) (o : Out) : (m.emit o).escBlock = m.escBlock := rfl
@[simp] theorem Mod.emit_escRgn (m : Mod) (o : Out) : (m.emit o).escRgn = m.escRgn := rfl
@[simp] theorem Mod.emit_escDue (m : Mod) (o : Out) : (m.emit o).escDue = m.escDue := rfl
@[simp] theorem Mod.emit_rgnAct (m : Mod) (o : Out) : (m.emit o).rgnAct = m.rgnAct := rfl
@[simp] theorem Mod.emit_federated (m : Mod) (o : Out) : (m.emit o).federated = m.federated := rfl
@[simp] theorem Mod.emit_serving (m : Mod) (o : Out) : (m.emit o).serving = m.serving := rfl
@[simp] theorem Mod.emit_runs (m : Mod) (o : Out) : (m.emit o).runs = m.runs := rfl
@[simp] theorem Mod.emit_heldReqs (m : Mod) (o : Out) : (m.emit o).heldReqs = m.heldReqs := rfl
@[simp] theorem Mod.emit_nextTid (m : Mod) (o : Out) : (m.emit o).nextTid = m.nextTid := rfl
@[simp] theorem Mod.emit_cbs (m : Mod) (o : Out) : (m.emit o).cbs = m.cbs := rfl
@[simp] theorem Mod.emit_gathers (m : Mod) (o : Out) : (m.emit o).gathers = m.gathers := rfl
@[simp] theorem Mod.emit_relays (m : Mod) (o : Out) : (m.emit o).relays = m.relays := rfl
@[simp] theorem Mod.emit_served (m : Mod) (o : Out) : (m.emit o).served = m.served := rfl
@[simp] theorem Mod.emit_fwA (m : Mod) (o : Out) : (m.emit o).fwA = m.fwA := rfl
@[simp] theorem Mod.emit_fwB (m : Mod) (o : Out) : (m.emit o).fwB = m.fwB := rfl
@[simp] theorem Mod.emit_runB (m : Mod) (o : Out) : (m.emit o).runB = m.runB := rfl
@[simp] theorem Mod.emit_trialWait (m : Mod) (o : Out) : (m.emit o).trialWait = m.trialWait := rfl
@[simp] theorem Mod.emit_laneMax (m : Mod) (o : Out) : (m.emit o).laneMax = m.laneMax := rfl
@[simp] theorem Mod.emit_domRetry (m : Mod) (o : Out) : (m.emit o).domRetry = m.domRetry := rfl
@[simp] theorem Mod.emit_wire (m : Mod) (o : Out) : (m.emit o).wire = m.wire := rfl
@[simp] theorem Mod.emit_parked (m : Mod) (o : Out) : (m.emit o).parked = m.parked := rfl
@[simp] theorem Mod.emit_resetCommits (m : Mod) (o : Out) : (m.emit o).resetCommits = m.resetCommits := rfl
@[simp] theorem Mod.emit_heardNow (m : Mod) (o : Out) : (m.emit o).heardNow = m.heardNow := rfl

@[simp] theorem Mod.setBytes_regs (m : Mod) (a : Nat) (bs : List Byte) : (m.setBytes a bs).regs = m.regs := rfl
@[simp] theorem Mod.setBytes_staged (m : Mod) (a : Nat) (bs : List Byte) : (m.setBytes a bs).staged = m.staged := rfl
@[simp] theorem Mod.setBytes_stageImage (m : Mod) (a : Nat) (bs : List Byte) : (m.setBytes a bs).stageImage = m.stageImage := rfl
@[simp] theorem Mod.setBytes_freeCtr (m : Mod) (a : Nat) (bs : List Byte) : (m.setBytes a bs).freeCtr = m.freeCtr := rfl
@[simp] theorem Mod.setBytes_now (m : Mod) (a : Nat) (bs : List Byte) : (m.setBytes a bs).now = m.now := rfl
@[simp] theorem Mod.setBytes_mono (m : Mod) (a : Nat) (bs : List Byte) : (m.setBytes a bs).mono = m.mono := rfl
@[simp] theorem Mod.setBytes_corr (m : Mod) (a : Nat) (bs : List Byte) : (m.setBytes a bs).corr = m.corr := rfl
@[simp] theorem Mod.setBytes_slots (m : Mod) (a : Nat) (bs : List Byte) : (m.setBytes a bs).slots = m.slots := rfl
@[simp] theorem Mod.setBytes_clks (m : Mod) (a : Nat) (bs : List Byte) : (m.setBytes a bs).clks = m.clks := rfl
@[simp] theorem Mod.setBytes_ports (m : Mod) (a : Nat) (bs : List Byte) : (m.setBytes a bs).ports = m.ports := rfl
@[simp] theorem Mod.setBytes_dies (m : Mod) (a : Nat) (bs : List Byte) : (m.setBytes a bs).dies = m.dies := rfl
@[simp] theorem Mod.setBytes_recs (m : Mod) (a : Nat) (bs : List Byte) : (m.setBytes a bs).recs = m.recs := rfl
@[simp] theorem Mod.setBytes_ostat (m : Mod) (a : Nat) (bs : List Byte) : (m.setBytes a bs).ostat = m.ostat := rfl
@[simp] theorem Mod.setBytes_captured (m : Mod) (a : Nat) (bs : List Byte) : (m.setBytes a bs).captured = m.captured := rfl
@[simp] theorem Mod.setBytes_tags (m : Mod) (a : Nat) (bs : List Byte) : (m.setBytes a bs).tags = m.tags := rfl
@[simp] theorem Mod.setBytes_lines (m : Mod) (a : Nat) (bs : List Byte) : (m.setBytes a bs).lines = m.lines := rfl
@[simp] theorem Mod.setBytes_gatePend (m : Mod) (a : Nat) (bs : List Byte) : (m.setBytes a bs).gatePend = m.gatePend := rfl
@[simp] theorem Mod.setBytes_vq (m : Mod) (a : Nat) (bs : List Byte) : (m.setBytes a bs).vq = m.vq := rfl
@[simp] theorem Mod.setBytes_fq (m : Mod) (a : Nat) (bs : List Byte) : (m.setBytes a bs).fq = m.fq := rfl
@[simp] theorem Mod.setBytes_sdFaults (m : Mod) (a : Nat) (bs : List Byte) : (m.setBytes a bs).sdFaults = m.sdFaults := rfl
@[simp] theorem Mod.setBytes_sdEvents (m : Mod) (a : Nat) (bs : List Byte) : (m.setBytes a bs).sdEvents = m.sdEvents := rfl
@[simp] theorem Mod.setBytes_inFlight (m : Mod) (a : Nat) (bs : List Byte) : (m.setBytes a bs).inFlight = m.inFlight := rfl
@[simp] theorem Mod.setBytes_cores (m : Mod) (a : Nat) (bs : List Byte) : (m.setBytes a bs).cores = m.cores := rfl
@[simp] theorem Mod.setBytes_links (m : Mod) (a : Nat) (bs : List Byte) : (m.setBytes a bs).links = m.links := rfl
@[simp] theorem Mod.setBytes_req (m : Mod) (a : Nat) (bs : List Byte) : (m.setBytes a bs).req = m.req := rfl
@[simp] theorem Mod.setBytes_fed (m : Mod) (a : Nat) (bs : List Byte) : (m.setBytes a bs).fed = m.fed := rfl
@[simp] theorem Mod.setBytes_mx (m : Mod) (a : Nat) (bs : List Byte) : (m.setBytes a bs).mx = m.mx := rfl
@[simp] theorem Mod.setBytes_xfr (m : Mod) (a : Nat) (bs : List Byte) : (m.setBytes a bs).xfr = m.xfr := rfl
@[simp] theorem Mod.setBytes_host (m : Mod) (a : Nat) (bs : List Byte) : (m.setBytes a bs).host = m.host := rfl
@[simp] theorem Mod.setBytes_sess (m : Mod) (a : Nat) (bs : List Byte) : (m.setBytes a bs).sess = m.sess := rfl
@[simp] theorem Mod.setBytes_wins (m : Mod) (a : Nat) (bs : List Byte) : (m.setBytes a bs).wins = m.wins := rfl
@[simp] theorem Mod.setBytes_lock (m : Mod) (a : Nat) (bs : List Byte) : (m.setBytes a bs).lock = m.lock := rfl
@[simp] theorem Mod.setBytes_imgUp (m : Mod) (a : Nat) (bs : List Byte) : (m.setBytes a bs).imgUp = m.imgUp := rfl
@[simp] theorem Mod.setBytes_fwUp (m : Mod) (a : Nat) (bs : List Byte) : (m.setBytes a bs).fwUp = m.fwUp := rfl
@[simp] theorem Mod.setBytes_long (m : Mod) (a : Nat) (bs : List Byte) : (m.setBytes a bs).long = m.long := rfl
@[simp] theorem Mod.setBytes_cfg (m : Mod) (a : Nat) (bs : List Byte) : (m.setBytes a bs).cfg = m.cfg := rfl
@[simp] theorem Mod.setBytes_phase (m : Mod) (a : Nat) (bs : List Byte) : (m.setBytes a bs).phase = m.phase := rfl
@[simp] theorem Mod.setBytes_goose (m : Mod) (a : Nat) (bs : List Byte) : (m.setBytes a bs).goose = m.goose := rfl
@[simp] theorem Mod.setBytes_rook (m : Mod) (a : Nat) (bs : List Byte) : (m.setBytes a bs).rook = m.rook := rfl
@[simp] theorem Mod.setBytes_desc (m : Mod) (a : Nat) (bs : List Byte) : (m.setBytes a bs).desc = m.desc := rfl
@[simp] theorem Mod.setBytes_twin (m : Mod) (a : Nat) (bs : List Byte) : (m.setBytes a bs).twin = m.twin := rfl
@[simp] theorem Mod.setBytes_waking (m : Mod) (a : Nat) (bs : List Byte) : (m.setBytes a bs).waking = m.waking := rfl
@[simp] theorem Mod.setBytes_sent (m : Mod) (a : Nat) (bs : List Byte) : (m.setBytes a bs).sent = m.sent := rfl
@[simp] theorem Mod.setBytes_rgnPhase (m : Mod) (a : Nat) (bs : List Byte) : (m.setBytes a bs).rgnPhase = m.rgnPhase := rfl
@[simp] theorem Mod.setBytes_devSafe (m : Mod) (a : Nat) (bs : List Byte) : (m.setBytes a bs).devSafe = m.devSafe := rfl
@[simp] theorem Mod.setBytes_sweep (m : Mod) (a : Nat) (bs : List Byte) : (m.setBytes a bs).sweep = m.sweep := rfl
@[simp] theorem Mod.setBytes_dramUp (m : Mod) (a : Nat) (bs : List Byte) : (m.setBytes a bs).dramUp = m.dramUp := rfl
@[simp] theorem Mod.setBytes_past (m : Mod) (a : Nat) (bs : List Byte) : (m.setBytes a bs).past = m.past := rfl
@[simp] theorem Mod.setBytes_acc (m : Mod) (a : Nat) (bs : List Byte) : (m.setBytes a bs).acc = m.acc := rfl
@[simp] theorem Mod.setBytes_goodIv (m : Mod) (a : Nat) (bs : List Byte) : (m.setBytes a bs).goodIv = m.goodIv := rfl
@[simp] theorem Mod.setBytes_badIv (m : Mod) (a : Nat) (bs : List Byte) : (m.setBytes a bs).badIv = m.badIv := rfl
@[simp] theorem Mod.setBytes_skips (m : Mod) (a : Nat) (bs : List Byte) : (m.setBytes a bs).skips = m.skips := rfl
@[simp] theorem Mod.setBytes_holdFrom (m : Mod) (a : Nat) (bs : List Byte) : (m.setBytes a bs).holdFrom = m.holdFrom := rfl
@[simp] theorem Mod.setBytes_lastSync (m : Mod) (a : Nat) (bs : List Byte) : (m.setBytes a bs).lastSync = m.lastSync := rfl
@[simp] theorem Mod.setBytes_rate10 (m : Mod) (a : Nat) (bs : List Byte) : (m.setBytes a bs).rate10 = m.rate10 := rfl
@[simp] theorem Mod.setBytes_heard (m : Mod) (a : Nat) (bs : List Byte) : (m.setBytes a bs).heard = m.heard := rfl
@[simp] theorem Mod.setBytes_fallNow (m : Mod) (a : Nat) (bs : List Byte) : (m.setBytes a bs).fallNow = m.fallNow := rfl
@[simp] theorem Mod.setBytes_recAux (m : Mod) (a : Nat) (bs : List Byte) : (m.setBytes a bs).recAux = m.recAux := rfl
@[simp] theorem Mod.setBytes_outSeq (m : Mod) (a : Nat) (bs : List Byte) : (m.setBytes a bs).outSeq = m.outSeq := rfl
@[simp] theorem Mod.setBytes_lastCapture (m : Mod) (a : Nat) (bs : List Byte) : (m.setBytes a bs).lastCapture = m.lastCapture := rfl
@[simp] theorem Mod.setBytes_lastDone (m : Mod) (a : Nat) (bs : List Byte) : (m.setBytes a bs).lastDone = m.lastDone := rfl
@[simp] theorem Mod.setBytes_settleEnd (m : Mod) (a : Nat) (bs : List Byte) : (m.setBytes a bs).settleEnd = m.settleEnd := rfl
@[simp] theorem Mod.setBytes_chainLast (m : Mod) (a : Nat) (bs : List Byte) : (m.setBytes a bs).chainLast = m.chainLast := rfl
@[simp] theorem Mod.setBytes_tdrBuf (m : Mod) (a : Nat) (bs : List Byte) : (m.setBytes a bs).tdrBuf = m.tdrBuf := rfl
@[simp] theorem Mod.setBytes_fwd (m : Mod) (a : Nat) (bs : List Byte) : (m.setBytes a bs).fwd = m.fwd := rfl
@[simp] theorem Mod.setBytes_fwdStage (m : Mod) (a : Nat) (bs : List Byte) : (m.setBytes a bs).fwdStage = m.fwdStage := rfl
@[simp] theorem Mod.setBytes_vlan (m : Mod) (a : Nat) (bs : List Byte) : (m.setBytes a bs).vlan = m.vlan := rfl
@[simp] theorem Mod.setBytes_vlanStage (m : Mod) (a : Nat) (bs : List Byte) : (m.setBytes a bs).vlanStage = m.vlanStage := rfl
@[simp] theorem Mod.setBytes_egress (m : Mod) (a : Nat) (bs : List Byte) : (m.setBytes a bs).egress = m.egress := rfl
@[simp] theorem Mod.setBytes_htxDone (m : Mod) (a : Nat) (bs : List Byte) : (m.setBytes a bs).htxDone = m.htxDone := rfl
@[simp] theorem Mod.setBytes_ltxTaken (m : Mod) (a : Nat) (bs : List Byte) : (m.setBytes a bs).ltxTaken = m.ltxTaken := rfl
@[simp] theorem Mod.setBytes_ltxDone (m : Mod) (a : Nat) (bs : List Byte) : (m.setBytes a bs).ltxDone = m.ltxDone := rfl
@[simp] theorem Mod.setBytes_dramPoison (m : Mod) (a : Nat) (bs : List Byte) : (m.setBytes a bs).dramPoison = m.dramPoison := rfl
@[simp] theorem Mod.setBytes_spoiled (m : Mod) (a : Nat) (bs : List Byte) : (m.setBytes a bs).spoiled = m.spoiled := rfl
@[simp] theorem Mod.setBytes_plru (m : Mod) (a : Nat) (bs : List Byte) : (m.setBytes a bs).plru = m.plru := rfl
@[simp] theorem Mod.setBytes_side (m : Mod) (a : Nat) (bs : List Byte) : (m.setBytes a bs).side = m.side := rfl
@[simp] theorem Mod.setBytes_victims (m : Mod) (a : Nat) (bs : List Byte) : (m.setBytes a bs).victims = m.victims := rfl
@[simp] theorem Mod.setBytes_held (m : Mod) (a : Nat) (bs : List Byte) : (m.setBytes a bs).held = m.held := rfl
@[simp] theorem Mod.setBytes_rng (m : Mod) (a : Nat) (bs : List Byte) : (m.setBytes a bs).rng = m.rng := rfl
@[simp] theorem Mod.setBytes_pdWays (m : Mod) (a : Nat) (bs : List Byte) : (m.setBytes a bs).pdWays = m.pdWays := rfl
@[simp] theorem Mod.setBytes_csRun (m : Mod) (a : Nat) (bs : List Byte) : (m.setBytes a bs).csRun = m.csRun := rfl
@[simp] theorem Mod.setBytes_csErases (m : Mod) (a : Nat) (bs : List Byte) : (m.setBytes a bs).csErases = m.csErases := rfl
@[simp] theorem Mod.setBytes_trainTries (m : Mod) (a : Nat) (bs : List Byte) : (m.setBytes a bs).trainTries = m.trainTries := rfl
@[simp] theorem Mod.setBytes_dramHot (m : Mod) (a : Nat) (bs : List Byte) : (m.setBytes a bs).dramHot = m.dramHot := rfl
@[simp] theorem Mod.setBytes_escCell (m : Mod) (a : Nat) (bs : List Byte) : (m.setBytes a bs).escCell = m.escCell := rfl
@[simp] theorem Mod.setBytes_escBlock (m : Mod) (a : Nat) (bs : List Byte) : (m.setBytes a bs).escBlock = m.escBlock := rfl
@[simp] theorem Mod.setBytes_escRgn (m : Mod) (a : Nat) (bs : List Byte) : (m.setBytes a bs).escRgn = m.escRgn := rfl
@[simp] theorem Mod.setBytes_escDue (m : Mod) (a : Nat) (bs : List Byte) : (m.setBytes a bs).escDue = m.escDue := rfl
@[simp] theorem Mod.setBytes_rgnAct (m : Mod) (a : Nat) (bs : List Byte) : (m.setBytes a bs).rgnAct = m.rgnAct := rfl
@[simp] theorem Mod.setBytes_federated (m : Mod) (a : Nat) (bs : List Byte) : (m.setBytes a bs).federated = m.federated := rfl
@[simp] theorem Mod.setBytes_serving (m : Mod) (a : Nat) (bs : List Byte) : (m.setBytes a bs).serving = m.serving := rfl
@[simp] theorem Mod.setBytes_runs (m : Mod) (a : Nat) (bs : List Byte) : (m.setBytes a bs).runs = m.runs := rfl
@[simp] theorem Mod.setBytes_heldReqs (m : Mod) (a : Nat) (bs : List Byte) : (m.setBytes a bs).heldReqs = m.heldReqs := rfl
@[simp] theorem Mod.setBytes_nextTid (m : Mod) (a : Nat) (bs : List Byte) : (m.setBytes a bs).nextTid = m.nextTid := rfl
@[simp] theorem Mod.setBytes_cbs (m : Mod) (a : Nat) (bs : List Byte) : (m.setBytes a bs).cbs = m.cbs := rfl
@[simp] theorem Mod.setBytes_gathers (m : Mod) (a : Nat) (bs : List Byte) : (m.setBytes a bs).gathers = m.gathers := rfl
@[simp] theorem Mod.setBytes_relays (m : Mod) (a : Nat) (bs : List Byte) : (m.setBytes a bs).relays = m.relays := rfl
@[simp] theorem Mod.setBytes_served (m : Mod) (a : Nat) (bs : List Byte) : (m.setBytes a bs).served = m.served := rfl
@[simp] theorem Mod.setBytes_fwA (m : Mod) (a : Nat) (bs : List Byte) : (m.setBytes a bs).fwA = m.fwA := rfl
@[simp] theorem Mod.setBytes_fwB (m : Mod) (a : Nat) (bs : List Byte) : (m.setBytes a bs).fwB = m.fwB := rfl
@[simp] theorem Mod.setBytes_runB (m : Mod) (a : Nat) (bs : List Byte) : (m.setBytes a bs).runB = m.runB := rfl
@[simp] theorem Mod.setBytes_trialWait (m : Mod) (a : Nat) (bs : List Byte) : (m.setBytes a bs).trialWait = m.trialWait := rfl
@[simp] theorem Mod.setBytes_laneMax (m : Mod) (a : Nat) (bs : List Byte) : (m.setBytes a bs).laneMax = m.laneMax := rfl
@[simp] theorem Mod.setBytes_domRetry (m : Mod) (a : Nat) (bs : List Byte) : (m.setBytes a bs).domRetry = m.domRetry := rfl
@[simp] theorem Mod.setBytes_wire (m : Mod) (a : Nat) (bs : List Byte) : (m.setBytes a bs).wire = m.wire := rfl
@[simp] theorem Mod.setBytes_parked (m : Mod) (a : Nat) (bs : List Byte) : (m.setBytes a bs).parked = m.parked := rfl
@[simp] theorem Mod.setBytes_resetCommits (m : Mod) (a : Nat) (bs : List Byte) : (m.setBytes a bs).resetCommits = m.resetCommits := rfl
@[simp] theorem Mod.setBytes_heardNow (m : Mod) (a : Nat) (bs : List Byte) : (m.setBytes a bs).heardNow = m.heardNow := rfl

@[simp] theorem Mod.setTag_regs (m : Mod) (a : Nat) (t : Bool) : (m.setTag a t).regs = m.regs := rfl
@[simp] theorem Mod.setTag_staged (m : Mod) (a : Nat) (t : Bool) : (m.setTag a t).staged = m.staged := rfl
@[simp] theorem Mod.setTag_stageImage (m : Mod) (a : Nat) (t : Bool) : (m.setTag a t).stageImage = m.stageImage := rfl
@[simp] theorem Mod.setTag_freeCtr (m : Mod) (a : Nat) (t : Bool) : (m.setTag a t).freeCtr = m.freeCtr := rfl
@[simp] theorem Mod.setTag_now (m : Mod) (a : Nat) (t : Bool) : (m.setTag a t).now = m.now := rfl
@[simp] theorem Mod.setTag_mono (m : Mod) (a : Nat) (t : Bool) : (m.setTag a t).mono = m.mono := rfl
@[simp] theorem Mod.setTag_corr (m : Mod) (a : Nat) (t : Bool) : (m.setTag a t).corr = m.corr := rfl
@[simp] theorem Mod.setTag_slots (m : Mod) (a : Nat) (t : Bool) : (m.setTag a t).slots = m.slots := rfl
@[simp] theorem Mod.setTag_clks (m : Mod) (a : Nat) (t : Bool) : (m.setTag a t).clks = m.clks := rfl
@[simp] theorem Mod.setTag_ports (m : Mod) (a : Nat) (t : Bool) : (m.setTag a t).ports = m.ports := rfl
@[simp] theorem Mod.setTag_dies (m : Mod) (a : Nat) (t : Bool) : (m.setTag a t).dies = m.dies := rfl
@[simp] theorem Mod.setTag_recs (m : Mod) (a : Nat) (t : Bool) : (m.setTag a t).recs = m.recs := rfl
@[simp] theorem Mod.setTag_ostat (m : Mod) (a : Nat) (t : Bool) : (m.setTag a t).ostat = m.ostat := rfl
@[simp] theorem Mod.setTag_captured (m : Mod) (a : Nat) (t : Bool) : (m.setTag a t).captured = m.captured := rfl
@[simp] theorem Mod.setTag_mem (m : Mod) (a : Nat) (t : Bool) : (m.setTag a t).mem = m.mem := rfl
@[simp] theorem Mod.setTag_lines (m : Mod) (a : Nat) (t : Bool) : (m.setTag a t).lines = m.lines := rfl
@[simp] theorem Mod.setTag_gatePend (m : Mod) (a : Nat) (t : Bool) : (m.setTag a t).gatePend = m.gatePend := rfl
@[simp] theorem Mod.setTag_vq (m : Mod) (a : Nat) (t : Bool) : (m.setTag a t).vq = m.vq := rfl
@[simp] theorem Mod.setTag_fq (m : Mod) (a : Nat) (t : Bool) : (m.setTag a t).fq = m.fq := rfl
@[simp] theorem Mod.setTag_sdFaults (m : Mod) (a : Nat) (t : Bool) : (m.setTag a t).sdFaults = m.sdFaults := rfl
@[simp] theorem Mod.setTag_sdEvents (m : Mod) (a : Nat) (t : Bool) : (m.setTag a t).sdEvents = m.sdEvents := rfl
@[simp] theorem Mod.setTag_inFlight (m : Mod) (a : Nat) (t : Bool) : (m.setTag a t).inFlight = m.inFlight := rfl
@[simp] theorem Mod.setTag_cores (m : Mod) (a : Nat) (t : Bool) : (m.setTag a t).cores = m.cores := rfl
@[simp] theorem Mod.setTag_links (m : Mod) (a : Nat) (t : Bool) : (m.setTag a t).links = m.links := rfl
@[simp] theorem Mod.setTag_req (m : Mod) (a : Nat) (t : Bool) : (m.setTag a t).req = m.req := rfl
@[simp] theorem Mod.setTag_fed (m : Mod) (a : Nat) (t : Bool) : (m.setTag a t).fed = m.fed := rfl
@[simp] theorem Mod.setTag_mx (m : Mod) (a : Nat) (t : Bool) : (m.setTag a t).mx = m.mx := rfl
@[simp] theorem Mod.setTag_xfr (m : Mod) (a : Nat) (t : Bool) : (m.setTag a t).xfr = m.xfr := rfl
@[simp] theorem Mod.setTag_host (m : Mod) (a : Nat) (t : Bool) : (m.setTag a t).host = m.host := rfl
@[simp] theorem Mod.setTag_sess (m : Mod) (a : Nat) (t : Bool) : (m.setTag a t).sess = m.sess := rfl
@[simp] theorem Mod.setTag_wins (m : Mod) (a : Nat) (t : Bool) : (m.setTag a t).wins = m.wins := rfl
@[simp] theorem Mod.setTag_lock (m : Mod) (a : Nat) (t : Bool) : (m.setTag a t).lock = m.lock := rfl
@[simp] theorem Mod.setTag_imgUp (m : Mod) (a : Nat) (t : Bool) : (m.setTag a t).imgUp = m.imgUp := rfl
@[simp] theorem Mod.setTag_fwUp (m : Mod) (a : Nat) (t : Bool) : (m.setTag a t).fwUp = m.fwUp := rfl
@[simp] theorem Mod.setTag_long (m : Mod) (a : Nat) (t : Bool) : (m.setTag a t).long = m.long := rfl
@[simp] theorem Mod.setTag_cfg (m : Mod) (a : Nat) (t : Bool) : (m.setTag a t).cfg = m.cfg := rfl
@[simp] theorem Mod.setTag_phase (m : Mod) (a : Nat) (t : Bool) : (m.setTag a t).phase = m.phase := rfl
@[simp] theorem Mod.setTag_goose (m : Mod) (a : Nat) (t : Bool) : (m.setTag a t).goose = m.goose := rfl
@[simp] theorem Mod.setTag_rook (m : Mod) (a : Nat) (t : Bool) : (m.setTag a t).rook = m.rook := rfl
@[simp] theorem Mod.setTag_desc (m : Mod) (a : Nat) (t : Bool) : (m.setTag a t).desc = m.desc := rfl
@[simp] theorem Mod.setTag_twin (m : Mod) (a : Nat) (t : Bool) : (m.setTag a t).twin = m.twin := rfl
@[simp] theorem Mod.setTag_waking (m : Mod) (a : Nat) (t : Bool) : (m.setTag a t).waking = m.waking := rfl
@[simp] theorem Mod.setTag_sent (m : Mod) (a : Nat) (t : Bool) : (m.setTag a t).sent = m.sent := rfl
@[simp] theorem Mod.setTag_rgnPhase (m : Mod) (a : Nat) (t : Bool) : (m.setTag a t).rgnPhase = m.rgnPhase := rfl
@[simp] theorem Mod.setTag_devSafe (m : Mod) (a : Nat) (t : Bool) : (m.setTag a t).devSafe = m.devSafe := rfl
@[simp] theorem Mod.setTag_sweep (m : Mod) (a : Nat) (t : Bool) : (m.setTag a t).sweep = m.sweep := rfl
@[simp] theorem Mod.setTag_dramUp (m : Mod) (a : Nat) (t : Bool) : (m.setTag a t).dramUp = m.dramUp := rfl
@[simp] theorem Mod.setTag_past (m : Mod) (a : Nat) (t : Bool) : (m.setTag a t).past = m.past := rfl
@[simp] theorem Mod.setTag_acc (m : Mod) (a : Nat) (t : Bool) : (m.setTag a t).acc = m.acc := rfl
@[simp] theorem Mod.setTag_goodIv (m : Mod) (a : Nat) (t : Bool) : (m.setTag a t).goodIv = m.goodIv := rfl
@[simp] theorem Mod.setTag_badIv (m : Mod) (a : Nat) (t : Bool) : (m.setTag a t).badIv = m.badIv := rfl
@[simp] theorem Mod.setTag_skips (m : Mod) (a : Nat) (t : Bool) : (m.setTag a t).skips = m.skips := rfl
@[simp] theorem Mod.setTag_holdFrom (m : Mod) (a : Nat) (t : Bool) : (m.setTag a t).holdFrom = m.holdFrom := rfl
@[simp] theorem Mod.setTag_lastSync (m : Mod) (a : Nat) (t : Bool) : (m.setTag a t).lastSync = m.lastSync := rfl
@[simp] theorem Mod.setTag_rate10 (m : Mod) (a : Nat) (t : Bool) : (m.setTag a t).rate10 = m.rate10 := rfl
@[simp] theorem Mod.setTag_heard (m : Mod) (a : Nat) (t : Bool) : (m.setTag a t).heard = m.heard := rfl
@[simp] theorem Mod.setTag_fallNow (m : Mod) (a : Nat) (t : Bool) : (m.setTag a t).fallNow = m.fallNow := rfl
@[simp] theorem Mod.setTag_recAux (m : Mod) (a : Nat) (t : Bool) : (m.setTag a t).recAux = m.recAux := rfl
@[simp] theorem Mod.setTag_outSeq (m : Mod) (a : Nat) (t : Bool) : (m.setTag a t).outSeq = m.outSeq := rfl
@[simp] theorem Mod.setTag_lastCapture (m : Mod) (a : Nat) (t : Bool) : (m.setTag a t).lastCapture = m.lastCapture := rfl
@[simp] theorem Mod.setTag_lastDone (m : Mod) (a : Nat) (t : Bool) : (m.setTag a t).lastDone = m.lastDone := rfl
@[simp] theorem Mod.setTag_settleEnd (m : Mod) (a : Nat) (t : Bool) : (m.setTag a t).settleEnd = m.settleEnd := rfl
@[simp] theorem Mod.setTag_chainLast (m : Mod) (a : Nat) (t : Bool) : (m.setTag a t).chainLast = m.chainLast := rfl
@[simp] theorem Mod.setTag_tdrBuf (m : Mod) (a : Nat) (t : Bool) : (m.setTag a t).tdrBuf = m.tdrBuf := rfl
@[simp] theorem Mod.setTag_fwd (m : Mod) (a : Nat) (t : Bool) : (m.setTag a t).fwd = m.fwd := rfl
@[simp] theorem Mod.setTag_fwdStage (m : Mod) (a : Nat) (t : Bool) : (m.setTag a t).fwdStage = m.fwdStage := rfl
@[simp] theorem Mod.setTag_vlan (m : Mod) (a : Nat) (t : Bool) : (m.setTag a t).vlan = m.vlan := rfl
@[simp] theorem Mod.setTag_vlanStage (m : Mod) (a : Nat) (t : Bool) : (m.setTag a t).vlanStage = m.vlanStage := rfl
@[simp] theorem Mod.setTag_egress (m : Mod) (a : Nat) (t : Bool) : (m.setTag a t).egress = m.egress := rfl
@[simp] theorem Mod.setTag_htxDone (m : Mod) (a : Nat) (t : Bool) : (m.setTag a t).htxDone = m.htxDone := rfl
@[simp] theorem Mod.setTag_ltxTaken (m : Mod) (a : Nat) (t : Bool) : (m.setTag a t).ltxTaken = m.ltxTaken := rfl
@[simp] theorem Mod.setTag_ltxDone (m : Mod) (a : Nat) (t : Bool) : (m.setTag a t).ltxDone = m.ltxDone := rfl
@[simp] theorem Mod.setTag_dramPoison (m : Mod) (a : Nat) (t : Bool) : (m.setTag a t).dramPoison = m.dramPoison := rfl
@[simp] theorem Mod.setTag_spoiled (m : Mod) (a : Nat) (t : Bool) : (m.setTag a t).spoiled = m.spoiled := rfl
@[simp] theorem Mod.setTag_plru (m : Mod) (a : Nat) (t : Bool) : (m.setTag a t).plru = m.plru := rfl
@[simp] theorem Mod.setTag_side (m : Mod) (a : Nat) (t : Bool) : (m.setTag a t).side = m.side := rfl
@[simp] theorem Mod.setTag_victims (m : Mod) (a : Nat) (t : Bool) : (m.setTag a t).victims = m.victims := rfl
@[simp] theorem Mod.setTag_held (m : Mod) (a : Nat) (t : Bool) : (m.setTag a t).held = m.held := rfl
@[simp] theorem Mod.setTag_rng (m : Mod) (a : Nat) (t : Bool) : (m.setTag a t).rng = m.rng := rfl
@[simp] theorem Mod.setTag_pdWays (m : Mod) (a : Nat) (t : Bool) : (m.setTag a t).pdWays = m.pdWays := rfl
@[simp] theorem Mod.setTag_csRun (m : Mod) (a : Nat) (t : Bool) : (m.setTag a t).csRun = m.csRun := rfl
@[simp] theorem Mod.setTag_csErases (m : Mod) (a : Nat) (t : Bool) : (m.setTag a t).csErases = m.csErases := rfl
@[simp] theorem Mod.setTag_trainTries (m : Mod) (a : Nat) (t : Bool) : (m.setTag a t).trainTries = m.trainTries := rfl
@[simp] theorem Mod.setTag_dramHot (m : Mod) (a : Nat) (t : Bool) : (m.setTag a t).dramHot = m.dramHot := rfl
@[simp] theorem Mod.setTag_escCell (m : Mod) (a : Nat) (t : Bool) : (m.setTag a t).escCell = m.escCell := rfl
@[simp] theorem Mod.setTag_escBlock (m : Mod) (a : Nat) (t : Bool) : (m.setTag a t).escBlock = m.escBlock := rfl
@[simp] theorem Mod.setTag_escRgn (m : Mod) (a : Nat) (t : Bool) : (m.setTag a t).escRgn = m.escRgn := rfl
@[simp] theorem Mod.setTag_escDue (m : Mod) (a : Nat) (t : Bool) : (m.setTag a t).escDue = m.escDue := rfl
@[simp] theorem Mod.setTag_rgnAct (m : Mod) (a : Nat) (t : Bool) : (m.setTag a t).rgnAct = m.rgnAct := rfl
@[simp] theorem Mod.setTag_federated (m : Mod) (a : Nat) (t : Bool) : (m.setTag a t).federated = m.federated := rfl
@[simp] theorem Mod.setTag_serving (m : Mod) (a : Nat) (t : Bool) : (m.setTag a t).serving = m.serving := rfl
@[simp] theorem Mod.setTag_runs (m : Mod) (a : Nat) (t : Bool) : (m.setTag a t).runs = m.runs := rfl
@[simp] theorem Mod.setTag_heldReqs (m : Mod) (a : Nat) (t : Bool) : (m.setTag a t).heldReqs = m.heldReqs := rfl
@[simp] theorem Mod.setTag_nextTid (m : Mod) (a : Nat) (t : Bool) : (m.setTag a t).nextTid = m.nextTid := rfl
@[simp] theorem Mod.setTag_cbs (m : Mod) (a : Nat) (t : Bool) : (m.setTag a t).cbs = m.cbs := rfl
@[simp] theorem Mod.setTag_gathers (m : Mod) (a : Nat) (t : Bool) : (m.setTag a t).gathers = m.gathers := rfl
@[simp] theorem Mod.setTag_relays (m : Mod) (a : Nat) (t : Bool) : (m.setTag a t).relays = m.relays := rfl
@[simp] theorem Mod.setTag_served (m : Mod) (a : Nat) (t : Bool) : (m.setTag a t).served = m.served := rfl
@[simp] theorem Mod.setTag_fwA (m : Mod) (a : Nat) (t : Bool) : (m.setTag a t).fwA = m.fwA := rfl
@[simp] theorem Mod.setTag_fwB (m : Mod) (a : Nat) (t : Bool) : (m.setTag a t).fwB = m.fwB := rfl
@[simp] theorem Mod.setTag_runB (m : Mod) (a : Nat) (t : Bool) : (m.setTag a t).runB = m.runB := rfl
@[simp] theorem Mod.setTag_trialWait (m : Mod) (a : Nat) (t : Bool) : (m.setTag a t).trialWait = m.trialWait := rfl
@[simp] theorem Mod.setTag_laneMax (m : Mod) (a : Nat) (t : Bool) : (m.setTag a t).laneMax = m.laneMax := rfl
@[simp] theorem Mod.setTag_domRetry (m : Mod) (a : Nat) (t : Bool) : (m.setTag a t).domRetry = m.domRetry := rfl
@[simp] theorem Mod.setTag_wire (m : Mod) (a : Nat) (t : Bool) : (m.setTag a t).wire = m.wire := rfl
@[simp] theorem Mod.setTag_parked (m : Mod) (a : Nat) (t : Bool) : (m.setTag a t).parked = m.parked := rfl
@[simp] theorem Mod.setTag_resetCommits (m : Mod) (a : Nat) (t : Bool) : (m.setTag a t).resetCommits = m.resetCommits := rfl
@[simp] theorem Mod.setTag_heardNow (m : Mod) (a : Nat) (t : Bool) : (m.setTag a t).heardNow = m.heardNow := rfl

end Sys2Proof.Machine
end

