-- ==== Sys2Proof/Laws/Table.lean ====
section
/-!
SUPPORT. Sys2Proof/Laws/Table.lean: the laws of sparse tables: reading after writing, and the canonical form.
-/
namespace Sys2Proof.Machine

variable {α : Type}

@[simp] theorem Tbl.get_nil (d : α) (k : Nat) : Tbl.get d [] k = d := rfl

theorem Tbl.get_erase_self (d : α) (t : Tbl α) (k : Nat) : Tbl.get d (Tbl.erase t k) k = d := by
  induction t with
  | nil => rfl
  | cons e t ih =>
    obtain ⟨k', v⟩ := e
    by_cases h : k' = k
    · simpa [Tbl.erase, h] using ih
    · have hne : (k' != k) = true := by simp [h]
      simp only [Tbl.erase, List.filter, hne] at ih ⊢
      simpa [Tbl.get, h] using ih

theorem Tbl.get_erase_ne (d : α) (t : Tbl α) {k j : Nat} (h : j ≠ k) : Tbl.get d (Tbl.erase t k) j = Tbl.get d t j := by
  induction t with
  | nil => rfl
  | cons e t ih =>
    obtain ⟨k', v⟩ := e
    by_cases hk : k' = k
    · have hb : (k' != k) = false := by simp [hk]
      have hj : k' ≠ j := fun x => h (x ▸ hk)
      simp only [Tbl.erase, List.filter, hb] at ih ⊢
      simp [Tbl.get, hj, ih]
    · have hb : (k' != k) = true := by simp [hk]
      simp only [Tbl.erase, List.filter, hb] at ih ⊢
      simp only [Tbl.get]
      split
      · rfl
      · exact ih

theorem Tbl.get_insert_ne (d : α) (t : Tbl α) {k j : Nat} (v : α) (h : j ≠ k) : Tbl.get d (Tbl.insert k v t) j = Tbl.get d t j := by
  induction t with
  | nil => simp [Tbl.insert, Tbl.get, Ne.symm h]
  | cons e t ih =>
    obtain ⟨k', w⟩ := e
    simp only [Tbl.insert]
    split
    · simp [Tbl.get, Ne.symm h]
    · simp [Tbl.get, ih]

theorem Tbl.get_insert_self (d : α) (t : Tbl α) (k : Nat) (v : α) (h : ∀ e ∈ t, e.1 ≠ k) : Tbl.get d (Tbl.insert k v t) k = v := by
  induction t with
  | nil => simp [Tbl.insert, Tbl.get]
  | cons e t ih =>
    obtain ⟨k', w⟩ := e
    have hk : k' ≠ k := h (k', w) (by simp)
    simp only [Tbl.insert]
    split
    · simp [Tbl.get]
    · simpa [Tbl.get, hk] using ih (fun e he => h e (by simp [he]))

theorem Tbl.mem_erase_ne (t : Tbl α) (k : Nat) : ∀ e ∈ Tbl.erase t k, e.1 ≠ k := by
  intro e he
  simp only [Tbl.erase, List.mem_filter] at he
  simpa using he.2

/-- A read after a write at the same key gives the value written. -/
@[simp] theorem Tbl.get_set_self [DecidableEq α] (d : α) (t : Tbl α) (k : Nat) (v : α) : Tbl.get d (Tbl.set d t k v) k = v := by
  unfold Tbl.set
  split
  · next h => rw [Tbl.get_erase_self, h]
  · exact Tbl.get_insert_self d _ k v (Tbl.mem_erase_ne t k)

/-- A write leaves every other key alone. -/
theorem Tbl.get_set_ne [DecidableEq α] (d d' : α) (t : Tbl α) {k j : Nat} (v : α) (h : j ≠ k) :
    Tbl.get d (Tbl.set d' t k v) j = Tbl.get d t j := by
  unfold Tbl.set
  split
  · exact Tbl.get_erase_ne d t h
  · rw [Tbl.get_insert_ne d _ v h, Tbl.get_erase_ne d t h]

theorem Tbl.erase_erase (t : Tbl α) (k : Nat) : Tbl.erase (Tbl.erase t k) k = Tbl.erase t k := by
  simp [Tbl.erase, List.filter_filter]

theorem Tbl.erase_insert (t : Tbl α) (k : Nat) (v : α) : Tbl.erase (Tbl.insert k v t) k = Tbl.erase t k := by
  induction t with
  | nil => simp [Tbl.insert, Tbl.erase]
  | cons e t ih =>
    obtain ⟨k', w⟩ := e
    simp only [Tbl.insert]
    split
    · simp [Tbl.erase]
    · simp only [Tbl.erase, List.filter] at ih ⊢
      rw [ih]

/-- Of two writes at one key the second alone counts. -/
theorem Tbl.set_set [DecidableEq α] (d : α) (t : Tbl α) (k : Nat) (v w : α) : Tbl.set d (Tbl.set d t k v) k w = Tbl.set d t k w := by
  have h : Tbl.erase (Tbl.set d t k v) k = Tbl.erase t k := by
    unfold Tbl.set
    split
    · exact Tbl.erase_erase t k
    · rw [Tbl.erase_insert, Tbl.erase_erase]
  simp only [Tbl.set, h] at h ⊢

/-! ### The canonical form -/

theorem Tbl.sorted_tail {e : Nat × α} {t : Tbl α} (h : Tbl.sorted (e :: t) = true) : Tbl.sorted t = true := by
  obtain ⟨k, v⟩ := e
  cases t with
  | nil => rfl
  | cons e' t =>
    obtain ⟨k', v'⟩ := e'
    simp only [Tbl.sorted, Bool.and_eq_true] at h
    exact h.2

theorem Tbl.sorted_head_lt {k : Nat} {v : α} {t : Tbl α} (h : Tbl.sorted ((k, v) :: t) = true) : ∀ e ∈ t, k < e.1 := by
  induction t generalizing k v with
  | nil => simp
  | cons e' t ih =>
    obtain ⟨k', v'⟩ := e'
    simp only [Tbl.sorted, Bool.and_eq_true, decide_eq_true_eq] at h
    intro e he
    rcases List.mem_cons.mp he with rfl | he
    · exact h.1
    · exact Nat.lt_trans h.1 (ih h.2 e he)

theorem Tbl.sorted_cons {k : Nat} {v : α} {t : Tbl α} (hs : Tbl.sorted t = true) (h : ∀ e ∈ t, k < e.1) :
    Tbl.sorted ((k, v) :: t) = true := by
  cases t with
  | nil => rfl
  | cons e t =>
    obtain ⟨k', v'⟩ := e
    simp only [Tbl.sorted, Bool.and_eq_true, decide_eq_true_eq]
    exact ⟨h (k', v') (by simp), hs⟩

theorem Tbl.sorted_filter (t : Tbl α) (p : Nat × α → Bool) (hs : Tbl.sorted t = true) : Tbl.sorted (t.filter p) = true := by
  induction t with
  | nil => rfl
  | cons e t ih =>
    obtain ⟨k, v⟩ := e
    have ht := ih (Tbl.sorted_tail hs)
    simp only [List.filter]
    split
    · exact Tbl.sorted_cons ht (fun e he => Tbl.sorted_head_lt hs e (List.mem_filter.mp he).1)
    · exact ht

theorem Tbl.mem_insert {k : Nat} {v : α} {t : Tbl α} {e : Nat × α} (h : e ∈ Tbl.insert k v t) : e = (k, v) ∨ e ∈ t := by
  induction t with
  | nil => simpa [Tbl.insert] using h
  | cons e' t ih =>
    obtain ⟨k', v'⟩ := e'
    simp only [Tbl.insert] at h
    split at h
    · simpa using h
    · rcases List.mem_cons.mp h with rfl | h
      · exact .inr (by simp)
      · rcases ih h with h | h
        · exact .inl h
        · exact .inr (by simp [h])

theorem Tbl.sorted_insert {k : Nat} (v : α) {t : Tbl α} (hs : Tbl.sorted t = true) (h : ∀ e ∈ t, e.1 ≠ k) :
    Tbl.sorted (Tbl.insert k v t) = true := by
  induction t with
  | nil => rfl
  | cons e t ih =>
    obtain ⟨k', w⟩ := e
    simp only [Tbl.insert]
    split
    · next hlt =>
      refine Tbl.sorted_cons hs (fun e he => ?_)
      rcases List.mem_cons.mp he with rfl | he
      · exact hlt
      · exact Nat.lt_trans hlt (Tbl.sorted_head_lt hs e he)
    · next hge =>
      have hne : k' ≠ k := h (k', w) (by simp)
      refine Tbl.sorted_cons (ih (Tbl.sorted_tail hs) (fun e he => h e (by simp [he]))) (fun e he => ?_)
      rcases Tbl.mem_insert he with rfl | he
      · exact Nat.lt_of_le_of_ne (Nat.le_of_not_lt hge) hne
      · exact Tbl.sorted_head_lt hs e he

/-- A write keeps the canonical form. -/
theorem Tbl.wf_set [DecidableEq α] (d : Nat → α) (t : Tbl α) (k : Nat) (v : α) (h : Tbl.wf d t = true) :
    Tbl.wf d (Tbl.set (d k) t k v) = true := by
  simp only [Tbl.wf, Bool.and_eq_true, List.all_eq_true] at h ⊢
  obtain ⟨hs, hd⟩ := h
  have he : Tbl.sorted (Tbl.erase t k) = true := Tbl.sorted_filter t _ hs
  unfold Tbl.set
  split
  · exact ⟨he, fun e hm => hd e (List.mem_filter.mp hm).1⟩
  · next hv =>
    refine ⟨Tbl.sorted_insert v he (Tbl.mem_erase_ne t k), fun e hm => ?_⟩
    rcases Tbl.mem_insert hm with rfl | hm
    · simpa using hv
    · exact hd e (List.mem_filter.mp hm).1

/-- Leaving entries out keeps the canonical form. -/
theorem Tbl.wf_filter [DecidableEq α] (d : Nat → α) (t : Tbl α) (p : Nat × α → Bool) (h : Tbl.wf d t = true) :
    Tbl.wf d (t.filter p) = true := by
  simp only [Tbl.wf, Bool.and_eq_true, List.all_eq_true] at h ⊢
  exact ⟨Tbl.sorted_filter t p h.1, fun e hm => h.2 e (List.mem_filter.mp hm).1⟩

end Sys2Proof.Machine
end

