-- ==== Sys2Proof/Laws/Registers.lean ====
section
/-!
SUPPORT. Sys2Proof/Laws/Registers.lean: the laws of the register file: a register and a field read as what was written to
them, and every other register and every other field of the register reads as before.
-/
namespace Sys2Proof.Machine

theorem Reg.ctorIdx_lt (r : Reg) : r.ctorIdx < 512 := by cases r <;> decide

theorem Reg.ctorIdx_inj {r r' : Reg} (h : r.ctorIdx = r'.ctorIdx) : r = r' := by
  have h1 := Reg.ofNat_ctorIdx r
  have h2 := Reg.ofNat_ctorIdx r'
  rw [← h1, ← h2, h]

/-- Two instances share a place in the register file only if they are one. -/
theorem regKey_inj {r r' : Reg} {i i' : Nat} (h : regKey r i = regKey r' i') : r = r' ∧ i = i' := by
  have h1 := Reg.ctorIdx_lt r
  have h2 := Reg.ctorIdx_lt r'
  simp only [regKey] at h
  have hi : i = i' := by omega
  subst hi
  exact ⟨Reg.ctorIdx_inj (by omega), rfl⟩

/-- A register reads as what was written to it, to its 64 bits. -/
@[simp] theorem Mod.reg_setReg_self (m : Mod) (r : Reg) (i v : Nat) : (m.setReg r i v).reg r i = v % 2 ^ 64 := by
  simp [Mod.reg, Mod.setReg]

/-- A write leaves every other register alone. -/
theorem Mod.reg_setReg_ne (m : Mod) {r r' : Reg} {i i' : Nat} (v : Nat) (h : ¬(r' = r ∧ i' = i)) :
    (m.setReg r i v).reg r' i' = m.reg r' i' := by
  have hk : regKey r' i' ≠ regKey r i := fun e => h (regKey_inj e)
  simp [Mod.reg, Mod.setReg, Tbl.get_set_ne _ _ _ _ hk]

/-- Registers hold 64 bits. -/
theorem Mod.reg_lt (m : Mod) (r : Reg) (i : Nat) : m.reg r i < 2 ^ 64 := BitVec.isLt _

/-- A field reads as what was written to it, to its width. -/
theorem Mod.rd_wr_self (m : Mod) (f : Fld) (i v : Nat) (h : f.lo + f.width ≤ 64) : (m.wr f i v).rd f i = v % 2 ^ f.width := by
  simp only [Mod.rd, Mod.wr, Mod.reg_setReg_self]
  rw [Nat.mod_eq_of_lt (withBits_lt _ _ _ _ _ (m.reg_lt f.reg i) h), bitsOf_withBits_self]

/-- A write of a field leaves the fields of every other register, and of every other instance, alone. -/
theorem Mod.rd_wr_reg (m : Mod) (f g : Fld) (i j v : Nat) (h : ¬(g.reg = f.reg ∧ j = i)) : (m.wr f i v).rd g j = m.rd g j := by
  simp only [Mod.rd, Mod.wr, Mod.reg_setReg_ne m _ h]

/-- A write of a field leaves the other fields of its register alone. -/
theorem Mod.rd_wr_apart (m : Mod) (f g : Fld) (i v : Nat) (hr : g.reg = f.reg) (h : f.lo + f.width ≤ 64)
    (ha : g.lo + g.width ≤ f.lo ∨ f.lo + f.width ≤ g.lo) : (m.wr f i v).rd g i = m.rd g i := by
  simp only [Mod.rd, Mod.wr, hr, Mod.reg_setReg_self]
  rw [Nat.mod_eq_of_lt (withBits_lt _ _ _ _ _ (m.reg_lt f.reg i) h)]
  rcases ha with ha | ha
  · exact bitsOf_withBits_below _ _ _ _ _ _ ha
  · exact bitsOf_withBits_above _ _ _ _ _ _ ha

theorem Mod.flag_put_self (m : Mod) (f : Fld) (i : Nat) (b : Bool) (h : f.lo + f.width ≤ 64) (hw : f.width = 1) :
    (m.put f i b).flag f i = b := by
  simp only [Mod.flag, Mod.put, Mod.rd_wr_self m f i _ h, hw]
  cases b <;> rfl

/-! ### Parts -/

@[simp] theorem Mod.core_setCore_self (m : Mod) (c : Nat) (v : Core) : (m.setCore c v).core c = v := by simp [Mod.core, Mod.setCore]
theorem Mod.core_setCore_ne (m : Mod) {c c' : Nat} (v : Core) (h : c' ≠ c) : (m.setCore c v).core c' = m.core c' := by
  simp [Mod.core, Mod.setCore, Tbl.get_set_ne _ _ _ _ h]
@[simp] theorem Mod.port_setPort_self (m : Mod) (p : Nat) (v : Port) : (m.setPort p v).port p = v := by simp [Mod.port, Mod.setPort]
theorem Mod.port_setPort_ne (m : Mod) {p p' : Nat} (v : Port) (h : p' ≠ p) : (m.setPort p v).port p' = m.port p' := by
  simp [Mod.port, Mod.setPort, Tbl.get_set_ne _ _ _ _ h]
@[simp] theorem Mod.clk_setClk_self (m : Mod) (n : Nat) (v : Clk) : (m.setClk n v).clk n = v := by simp [Mod.clk, Mod.setClk]
theorem Mod.clk_setClk_ne (m : Mod) {n n' : Nat} (v : Clk) (h : n' ≠ n) : (m.setClk n v).clk n' = m.clk n' := by
  simp [Mod.clk, Mod.setClk, Tbl.get_set_ne _ _ _ _ h]
@[simp] theorem Mod.slot_setSlot_self (m : Mod) (n : Nat) (v : Slot) : (m.setSlot n v).slot n = v := by simp [Mod.slot, Mod.setSlot]
@[simp] theorem Mod.link_setLink_self (m : Mod) (l : Nat) (v : Link) : (m.setLink l v).link l = v := by simp [Mod.link, Mod.setLink]
theorem Mod.link_setLink_ne (m : Mod) {l l' : Nat} (v : Link) (h : l' ≠ l) : (m.setLink l v).link l' = m.link l' := by
  simp [Mod.link, Mod.setLink, Tbl.get_set_ne _ _ _ _ h]
@[simp] theorem Mod.session_setSess_self (m : Mod) (q : Nat) (v : Sess) : (m.setSess q v).session q = v := by simp [Mod.session, Mod.setSess]

/-! ### What the elementary updates keep -/

@[simp] theorem Mod.reg_setCore (m : Mod) (c : Nat) (v : Core) (r : Reg) (i : Nat) : (m.setCore c v).reg r i = m.reg r i := rfl
@[simp] theorem Mod.rd_setCore (m : Mod) (c : Nat) (v : Core) (f : Fld) (i : Nat) : (m.setCore c v).rd f i = m.rd f i := rfl
@[simp] theorem Mod.flag_setCore (m : Mod) (c : Nat) (v : Core) (f : Fld) (i : Nat) : (m.setCore c v).flag f i = m.flag f i := rfl
@[simp] theorem Mod.core_wr (m : Mod) (f : Fld) (i v c : Nat) : (m.wr f i v).core c = m.core c := rfl
@[simp] theorem Mod.core_put (m : Mod) (f : Fld) (i c : Nat) (b : Bool) : (m.put f i b).core c = m.core c := rfl

end Sys2Proof.Machine
end

