-- ==== Sys2Proof/Laws/Cores.lean ====
section
/-!
SUPPORT. Sys2Proof/Laws/Cores.lean: the laws of a core's registers and of the issue of a word.
-/
namespace Sys2Proof.Machine

theorem Mod.setCore_setCore (m : Mod) (c : Nat) (v w : Core) : (m.setCore c v).setCore c w = m.setCore c w := by
  simp only [Mod.setCore, Tbl.set_set]

@[simp] theorem Mod.core_issuing (m : Mod) (c : Nat) : (m.issuing c).core c = (m.core c).atIssue := by simp [Mod.issuing]

/-- No awaited access bars a word where none is of the current level (R175). -/
theorem Core.barred_of_none {k : Core} (h : ∀ w ∈ k.waits, w.level ≠ k.level) (uses : List RegName) : k.barred uses = false := by
  simp only [Core.barred, List.any_eq_false]
  intro w hw
  simp [h w hw]

theorem find_due_none {l : List PendExc} {v : Nat} (h : ∀ d ∈ l, d.level ≠ v) : l.find? (·.level == v) = none := by
  simp only [List.find?_eq_none]
  intro d hd
  simp [h d hd]

/-- What a word whose fetch succeeds does: its body from the state in which it begins, then the end of the word. -/
theorem Mod.issue_ready {m : Mod} {c : Nat} (h : Ready m c) (uses : List RegName) (b : Body) :
    m.issue c uses b = settle c ((m.fetched c).core c).ip.cursor (b ((m.fetched c).issuing c) c) := by
  obtain ⟨h1, h2, h3, h4, h5⟩ := h
  have hd : (m.core c).unstep.due.find? (·.level == (m.core c).unstep.level) = none := find_due_none h2
  have hf : (m.setCore c (m.core c).unstep).fetchFault c = (m.fetched c, none) := Prod.ext rfl h4
  have hw : ((m.fetched c).core c).word = true := h5
  simp only [Mod.issue, h1, Core.barred_of_none h3, hd, hf, Mod.core_setCore_self, Bool.not_true, Bool.or_self, Bool.false_eq_true, if_false, hw]
  rfl

/-- An STU whose fetch succeeds keeps SPLIT (R183). -/
theorem Mod.issue_ready_stu {m : Mod} {c : Nat} (h : Ready m c) (uses : List RegName) (b : Body) :
    m.issue c uses b true = settle c ((m.fetched c).core c).ip.cursor (b (m.fetched c) c) := by
  obtain ⟨h1, h2, h3, h4, h5⟩ := h
  have hd : (m.core c).unstep.due.find? (·.level == (m.core c).unstep.level) = none := find_due_none h2
  have hf : (m.setCore c (m.core c).unstep).fetchFault c = (m.fetched c, none) := Prod.ext rfl h4
  have hw : ((m.fetched c).core c).word = true := h5
  simp only [Mod.issue, h1, Core.barred_of_none h3, hd, hf, Mod.core_setCore_self, Bool.not_true, Bool.or_self, Bool.false_eq_true, if_false, hw]
  rfl

/-- A core that cannot issue lets no word act (R213, R226). -/
theorem Mod.issue_idle {m : Mod} {c : Nat} (h : m.canIssue c = false) (uses : List RegName) (b : Body) (stu : Bool) : m.issue c uses b stu = m := by
  simp [Mod.issue, h]

/-- A word that names a register an access of its level has still to write does not issue (R175). -/
theorem Mod.issue_barred {m : Mod} {c : Nat} {uses : List RegName} (h : (m.core c).barred uses = true) (b : Body) (stu : Bool) :
    m.issue c uses b stu = m := by
  simp [Mod.issue, h]

/-! ### Banks -/

@[simp] theorem Core.bank_setBank_self (k : Core) (l : Nat) (b : Bank) : (k.setBank l b).bank l = b := by simp [Core.bank, Core.setBank]
theorem Core.bank_setBank_ne (k : Core) {l l' : Nat} (b : Bank) (h : l' ≠ l) : (k.setBank l b).bank l' = k.bank l' := by
  simp [Core.bank, Core.setBank, Tbl.get_set_ne _ _ _ _ h]

/-- d0 reads as 0 (R168). -/
@[simp] theorem Core.d_zero (k : Core) (l : Nat) : k.d l 0 = 0 := rfl
/-- Writes to d0 are discarded (R168). -/
@[simp] theorem Core.setD_zero (k : Core) (l v : Nat) : k.setD l 0 v = k := rfl
theorem Core.d_setD_self (k : Core) (l r v : Nat) (h : r ≠ 0) : (k.setD l r v).d l r = v % 2 ^ 64 := by
  simp [Core.d, Core.setD, h]
theorem Core.d_setD_ne (k : Core) (l : Nat) {r r' : Nat} (v : Nat) (h : r' ≠ r) : (k.setD l r v).d l r' = k.d l r' := by
  unfold Core.d Core.setD
  split
  · rfl
  · split
    · rfl
    · simp [Tbl.get_set_ne _ _ _ _ h]
@[simp] theorem Core.k_setK_self (k : Core) (l r : Nat) (v : Key) : (k.setK l r v).k l r = v := by simp [Core.k, Core.setK]
theorem Core.k_setK_ne (k : Core) (l : Nat) {r r' : Nat} (v : Key) (h : r' ≠ r) : (k.setK l r v).k l r' = k.k l r' := by
  simp [Core.k, Core.setK, Tbl.get_set_ne _ _ _ _ h]

theorem Core.d_lt (k : Core) (l r : Nat) : k.d l r < 2 ^ 64 := by
  unfold Core.d
  split
  · exact Nat.two_pow_pos 64
  · exact BitVec.isLt _

@[simp] theorem Core.level_setSt (k : Core) (l lo w v : Nat) : (k.setSt l lo w v).level = k.level := rfl
@[simp] theorem Core.level_atIssue (k : Core) : k.atIssue.level = k.level := rfl
@[simp] theorem Core.ip_atIssue (k : Core) : k.atIssue.ip = k.ip := rfl
@[simp] theorem Core.d_setSt (k : Core) (l lo w v l' r : Nat) : (k.setSt l lo w v).d l' r = k.d l' r := by
  unfold Core.d Core.setSt
  split
  · rfl
  · by_cases h : l' = l
    · subst h; simp
    · simp [Core.bank_setBank_ne _ _ h]
@[simp] theorem Core.k_setSt (k : Core) (l lo w v l' r : Nat) : (k.setSt l lo w v).k l' r = k.k l' r := by
  unfold Core.k Core.setSt
  by_cases h : l' = l
  · subst h; simp
  · simp [Core.bank_setBank_ne _ _ h]

/-- The operands a word reads are those of the state it was presented in. -/
@[simp] theorem Core.d_atIssue (k : Core) (l r : Nat) : k.atIssue.d l r = k.d l r := by
  simp only [Core.atIssue, Core.unsplit, Core.d_setSt]
@[simp] theorem Core.k_atIssue (k : Core) (l r : Nat) : k.atIssue.k l r = k.k l r := by
  simp only [Core.atIssue, Core.unsplit, Core.k_setSt]
@[simp] theorem Mod.cd_issuing (m : Mod) (c r : Nat) : (m.issuing c).cd c r = m.cd c r := by simp [Mod.cd]
@[simp] theorem Mod.ck_issuing (m : Mod) (c r : Nat) : (m.issuing c).ck c r = m.ck c r := by simp [Mod.ck]
@[simp] theorem Mod.rd_issuing (m : Mod) (c : Nat) (f : Fld) (i : Nat) : (m.issuing c).rd f i = m.rd f i := rfl
@[simp] theorem Mod.node_issuing (m : Mod) (c : Nat) : (m.issuing c).node = m.node := rfl
@[simp] theorem Mod.filterKey_issuing (m : Mod) (c : Nat) (k : Key) : (m.issuing c).filterKey k = m.filterKey k := rfl

/-- Setting one core changes nothing else. -/
theorem coreBecomes_setCore (q : List Instr) (m : Mod) (c : Nat) (k : Core) : CoreBecomes q m c k ⟨q, m.setCore c k⟩ :=
  ⟨rfl, by simp, fun _ h => Mod.core_setCore_ne m k h, rfl⟩

end Sys2Proof.Machine
end

