-- ==== Sys2Proof/Laws/HostSpace.lean ====
section
/-!
SUPPORT. Sys2Proof/Laws/HostSpace.lean: the laws of configuration space: a register after a write of it, and what such a write leaves unchanged.
-/
namespace Sys2Proof.Machine

theorem Mod.pciReg_setPci_self (m : Mod) (i v : Nat) :
    (m.setPci i v).pciReg i =
      (v &&& (pciWritable i ||| pciClears i)) ||| (pciReset i &&& (0xFFFFFFFF - (pciWritable i ||| pciClears i))) := by
  simp [Mod.pciReg, Mod.setPci]

theorem Mod.pciReg_setPci_ne (m : Mod) {i j : Nat} (v : Nat) (h : j ≠ i) : (m.setPci i v).pciReg j = m.pciReg j := by
  simp [Mod.pciReg, Mod.setPci, Tbl.get_set_ne _ _ _ _ h]

@[simp] theorem Mod.setPci_regs (m : Mod) (i v : Nat) : (m.setPci i v).regs = m.regs := rfl
@[simp] theorem Mod.setPci_staged (m : Mod) (i v : Nat) : (m.setPci i v).staged = m.staged := rfl
@[simp] theorem Mod.setPci_mem (m : Mod) (i v : Nat) : (m.setPci i v).mem = m.mem := rfl
@[simp] theorem Mod.setPci_tags (m : Mod) (i v : Nat) : (m.setPci i v).tags = m.tags := rfl
@[simp] theorem Mod.setPci_cores (m : Mod) (i v : Nat) : (m.setPci i v).cores = m.cores := rfl
@[simp] theorem Mod.setPci_sess (m : Mod) (i v : Nat) : (m.setPci i v).sess = m.sess := rfl
@[simp] theorem Mod.setPci_sent (m : Mod) (i v : Nat) : (m.setPci i v).sent = m.sent := rfl
@[simp] theorem Mod.setPci_table (m : Mod) (i v : Nat) : (m.setPci i v).host.table = m.host.table := rfl
@[simp] theorem Mod.setPci_pba (m : Mod) (i v : Nat) : (m.setPci i v).host.pba = m.host.pba := rfl

/-- An unsupported request answers the host and sets its error bit, and changes no register, no memory and no tag. -/
theorem Mod.hostUnsupported_keeps (m : Mod) :
    m.hostUnsupported.regs = m.regs ∧ m.hostUnsupported.mem = m.mem ∧ m.hostUnsupported.tags = m.tags ∧
      m.hostUnsupported.sent = .hostRead [] .unsupported :: m.sent := ⟨rfl, rfl, rfl, rfl⟩

end Sys2Proof.Machine
end

