-- ==== Sys2Proof/Laws/Memory.lean ====
section
/-!
SUPPORT. Sys2Proof/Laws/Memory.lean: the laws of the local memories: reading after writing, and that every memory operation
keeps the canonical form.
-/
namespace Sys2Proof.Machine

/-- A byte reads as what was written to it. -/
@[simp] theorem cellGet_cellSet_self (mem : List Host.Cell) (a : Nat) (v : Byte) : cellGet (cellSet mem a v) a = v :=
  Tbl.get_set_self _ mem a v

/-- A write leaves every other byte alone. -/
theorem cellGet_cellSet_ne (mem : List Host.Cell) {a b : Nat} (v : Byte) (h : b ≠ a) : cellGet (cellSet mem a v) b = cellGet mem b :=
  Tbl.get_set_ne _ _ mem v h

theorem cellSet_wf (mem : List Host.Cell) (a : Nat) (v : Byte) (h : Memory.wf mem = true) : Memory.wf (cellSet mem a v) = true :=
  Tbl.wf_set memDefault mem a v h

theorem cellsSet_wf (bs : List Byte) (mem : List Host.Cell) (a : Nat) (h : Memory.wf mem = true) : Memory.wf (cellsSet mem a bs) = true := by
  induction bs generalizing mem a with
  | nil => exact h
  | cons b bs ih => exact ih _ _ (cellSet_wf mem a b h)

theorem cellsClear_wf (mem : List Host.Cell) (a n : Nat) (h : Memory.wf mem = true) : Memory.wf (cellsClear mem a n) = true :=
  Tbl.wf_filter memDefault mem _ h

/-- Bytes outside the written ones keep their values. -/
theorem cellGet_cellsSet_out (bs : List Byte) (mem : List Host.Cell) (a b : Nat) (h : b < a ∨ a + bs.length ≤ b) :
    cellGet (cellsSet mem a bs) b = cellGet mem b := by
  induction bs generalizing mem a with
  | nil => rfl
  | cons x bs ih =>
    simp only [List.length_cons] at h
    rw [cellsSet, ih _ _ (by omega), cellGet_cellSet_ne _ _ (by omega)]

/-- Byte `i` of what was written reads as written. -/
theorem cellGet_cellsSet_in (bs : List Byte) (mem : List Host.Cell) (a i : Nat) (h : i < bs.length) :
    cellGet (cellsSet mem a bs) (a + i) = bs[i] := by
  induction bs generalizing mem a i with
  | nil => simp at h
  | cons x bs ih =>
    cases i with
    | zero => rw [cellsSet, cellGet_cellsSet_out _ _ _ _ (by omega)]; exact cellGet_cellSet_self mem a x
    | succ i =>
      have h' : i < bs.length := by simpa using h
      have : a + (i + 1) = (a + 1) + i := by omega
      rw [cellsSet, this, ih _ _ _ h']
      rfl

/-- Bytes written read back. -/
theorem cellsGet_cellsSet (bs : List Byte) (mem : List Host.Cell) (a : Nat) : cellsGet (cellsSet mem a bs) a bs.length = bs := by
  apply List.ext_getElem
  · simp [cellsGet]
  · intro i h1 h2
    simp only [cellsGet, List.getElem_map, List.getElem_range]
    exact cellGet_cellsSet_in bs mem a i h2

theorem Mod.setBytes_wf (m : Mod) (a : Nat) (bs : List Byte) (h : Memory.wf m.mem = true) : Memory.wf (m.setBytes a bs).mem = true :=
  cellsSet_wf bs m.mem a h

theorem Mod.setNum_wf (m : Mod) (a n v : Nat) (h : Memory.wf m.mem = true) : Memory.wf (m.setNum a n v).mem = true :=
  m.setBytes_wf a _ h

theorem Mod.zeroRange_wf (m : Mod) (a n : Nat) (h : Memory.wf m.mem = true) : Memory.wf (m.zeroRange a n).mem = true :=
  cellsClear_wf m.mem a n h

theorem Mod.scratchLost_wf (m : Mod) (k : Nat) (h : Memory.wf m.mem = true) : Memory.wf (m.scratchLost k).mem = true :=
  Tbl.wf_filter memDefault m.mem _ h

theorem Mod.each_wf {α : Type} (l : List α) (f : Mod → α → Mod) (hf : ∀ m x, Memory.wf m.mem = true → Memory.wf (f m x).mem = true)
    (m : Mod) (h : Memory.wf m.mem = true) : Memory.wf (m.each l f).mem = true := by
  induction l generalizing m with
  | nil => exact h
  | cons x l ih => exact ih _ (hf m x h)

theorem Mod.putFrame_wf (m : Mod) (ln : Nat) (d : BitVec 512) (t : BitVec 4) (p : Bool) (h : Memory.wf m.mem = true) :
    Memory.wf (m.putFrame ln d t p).mem = true := by
  show Memory.wf ((m.setNum (64 * ln) 64 d.toNat).each (upTo 4) (fun m j => m.setTag (64 * ln + 16 * j) (bitAt t.toNat j))).mem = true
  exact Mod.each_wf (upTo 4) (fun m j => m.setTag (64 * ln + 16 * j) (bitAt t.toNat j)) (fun m j hm => hm) _ (m.setNum_wf _ _ _ h)

end Sys2Proof.Machine
end

