-- ==== Sys2Proof/Tests/Slice0.lean ====
section
/-!
SUPPORT. Sys2Proof/Tests/Slice0.lean: the checks of WellFormed refuse what they should, the manual's worked examples, single steps on small
states, and states that meet the hypotheses of the statements.
-/
namespace Sys2Proof.Tests

open Sys2Proof Sys2Proof.Machine

-- One test after the other: elaborated all at once they need a thread, and its stack, each.
set_option Elab.async false

/-! ### What WellFormed refuses -/

/-- A flit of type `t` to node `dst`. -/
def flitOf (t : BitVec 6) (dst : BitVec 12) (payload : BitVec 512 := 0) (follow : BitVec 5 := 0) : Flit :=
  ⟨dst, 7, 0, t, 0, 1, 0, 0, follow, 0, false, 0, false, false, payload⟩

theorem test_wf_descriptorReads (bs : List Byte) (h : bs.length = 0x601) : (Instr.carrierDescriptorRead [] []).wf = false ∧
    (Instr.carrierDescriptorRead [⟨true, bs, none⟩] []).wf = false := by simp [Instr.wf, h]
theorem test_wf_relay (v : Verdict) : (Instr.relay 0 { seq := 0 } [] [] v).wf = false := rfl
theorem test_wf_debugAccess : (Instr.debugAccess (.store 0 [])).wf = false ∧ (Instr.debugAccess (.load 0 0)).wf = false := by decide
theorem test_wf_diagnosticScan : (Instr.diagnosticScan 0 0 [(3, 1), (3, 2)]).wf = false := by decide
theorem test_wf_tdrRunEnd : (Instr.tdrRunEnd 0 []).wf = false := by decide
theorem test_wf_ethernetFrames (a b c : List Byte) (ha : a.length = 59) (hb : b.length = 1519) (hc : c.length = 60) :
    (Instr.switchForward 0 ⟨a, true⟩).wf = false ∧ (Instr.eth 0 ⟨b, true⟩).wf = false ∧ (Instr.eth 0 ⟨c, true⟩).wf = true := by
  simp [Instr.wf, EthFrame.wf, ha, hb, hc]
theorem test_wf_symbolErrors : (Instr.patrolScrub [(3, 0)]).wf = false ∧ (Instr.patrolScrub [(3, 1), (3, 2)]).wf = false ∧
    (Instr.sliceMissFill 0 ⟨[(3, 0)], none⟩ none).wf = false := by decide
theorem test_wf_sweepPassDone : (Instr.sweepPassDone ⟨.cores, [(0, [])]⟩).wf = false ∧
    (Instr.sweepPassDone ⟨.dram, [(0, []), (0, [])]⟩).wf = false := by decide
theorem test_wf_followingFlits : (Instr.flitForward 0 (flitOf 5 0 0 1) []).wf = false ∧ (Instr.wrrun 0 (flitOf 6 0 0 1) []).wf = false ∧
    (Instr.runresp 0 (flitOf 0x12 0 0 1) []).wf = false := by decide
theorem test_wf_broadcast : (Instr.gop 0 (.bcUp 0 (List.replicate 33 0))).wf = false ∧
    (Instr.gop 0 (.bcDown 0 (List.replicate 33 0))).wf = false := by decide
theorem test_wf_hostAccesses : (Instr.hostRead .bar0 0 0).wf = false ∧ (Instr.hostWrite .bar0 0 []).wf = false := by decide

/-! ### Words and places -/

/-- The table gives no bits: no word spells a command. -/
theorem test_noWordSpellsACommand (n w : Nat) : decodeTableWord n w = none := rfl

/-- The example beside R14: port 0344. -/
theorem test_port0344 : portBlock 344 = 10 ∧ portDie 344 = 2 ∧ portRegion 344 = 1 ∧ signalBase 1 = 0x1030200000 := by decide
/-- The example beside R62: PORT_MODE of port 0344. -/
theorem test_portModeOf0344 : (regAt (0x8A1C00 + 0)).map (fun x => (x.1, x.2.1)) = some (Reg.PORT_MODE, 344) := by decide
/-- The example beside R68: the record 2 and the output record of port 0344. -/
theorem test_recordsOf0344 : signalBase 1 + 88 * 0x200 + 2 * 0x20 = 0x103020B040 ∧ outRecord 344 = 0x1030220B00 := by decide
/-- The examples of R235 and R241: slice and set of 0x4000_1234, and the place of offset 0x21_3A40 of region 1's scratch. -/
theorem test_sliceAndScratchPlace : sliceOf (0x40001234 / 64) = 13 ∧ Sys2Proof.Machine.setOf (0x40001234 / 64) = 0x048 ∧ scratchPlace 1 0x213A40 = (5, 314, 11) := by decide
/-- The table line at Kestrel Bay (R256, R258). -/
theorem test_dramPlace :
    let ln := 0x40001234 / 64
    subChannel ln = 0 ∧ burstColumn ln = 144 ∧ bankGroup ln = 0 ∧ bankOf ln = 0 ∧ rowOf ln = 1024 ∧ symbolDevice 52 = 3 ∧ symbolLine 52 = 2 := by decide

/-! ### The code of a frame (R260, R261) -/

/-- The generator's coefficients, multiplied out by hand from the roots α^0 to α^14. -/
theorem test_rsGenerator : rsGenerator = [1, 29, 196, 111, 163, 112, 74, 10, 105, 105, 139, 132, 151, 32, 134, 26] := by decide
/-- Zeros have zero check bytes, and the last message symbol alone brings the generator's own coefficients. -/
theorem test_rsCheck : rsCheck [0, 0] = List.replicate 15 0 ∧
    rsCheck [0, 0, 1] = [29, 196, 111, 163, 112, 74, 10, 105, 105, 139, 132, 151, 32, 134, 26] := by decide

/-! ### Keys: the headbox task at Kestrel Bay -/

/-- k2 of the root keys, as the supervisor's. -/
def root : Key := rootKey 0x03B 0

/-- KADD, KBOUND, KRIGHTS, KLOC and KREEPOCH in turn. -/
def derive (k : Key) (cursor len rights loc epoch : Nat) : Except Nat Key := do
  let k ← k.add cursor
  let k ← k.bound len true
  let k ← k.narrowRights rights
  let k ← k.narrowLoc loc
  if epoch = 0 then pure k else k.reepoch epoch

theorem test_pressureKey : (derive root 0x0280001030205800 32 1 1 5).toOption.map (fun k => (k.bits.toNat / 2 ^ 64, k.bits.toNat % 2 ^ 64, k.tag)) =
    some (0x0040114000205800, 0x0280001030205800, true) := by decide
theorem test_tableKey : (derive root 0x0280000040001234 200000 1 1 0).toOption.map (fun k => (k.bits.toNat / 2 ^ 64, k.lo, k.hi)) =
    some (0x00401002C350048D, 0x0280000040001234, 0x0280000040031F74) := by decide
/-- The window wrap of R137: the table key's base from another cursor. -/
theorem test_windowWrap : (derive root 0x0280000040001234 200000 1 1 0).toOption.map (fun k => (k.moveTo 0x0280000040040234).lo) =
    some 0x0280000040001234 := by decide

/-! ### A core that issues -/

/-- Core 0 out of reset, powered, with the line at its reset vector in L1. -/
def upMod : Mod :=
  (({} : Mod).setDom 0 true).setCore 0 { (freshCore 0 0).setD 0 3 5 with l1i := [(resetVector 0 % 2 ^ 52 / 64, 0)] }
/-- The block with that core. -/
def up : State := { mod := upMod }

/-- Every hypothesis "a core that issues" has this witness. -/
theorem test_ready : Ready up.mod 0 := by decide

/-- The module after a command on it, with nothing else waiting. -/
def after (i : Instr) (m : Mod) : Mod :=
  match exec i { mod := m } with
  | .next t => t.mod
  | _ => m

theorem test_add : ((after (.add 0 2 3 3) upMod).core 0).d 0 2 = 10 := by decide
theorem test_divideByZero : ((after (.divu 0 2 3 0) upMod).core 0).d 0 2 = 2 ^ 64 - 1 ∧ ((after (.remu 0 2 3 0) upMod).core 0).d 0 2 = 5 := by decide
theorem test_writeToD0 : ((after (.addi 0 0 3 1) upMod).core 0).d 0 0 = 0 := by decide
theorem test_branchTaken : ((after (.beq 0 3 3 (-1)) upMod).core 0).ip.cursor = resetVector 0 - 4 := by decide
theorem test_loop : ((after (.loop 0 1 3 2) upMod).core 0).loopReg 0 2 1 = 5 ∧ ((after (.loop 0 1 3 2) upMod).core 0).lact 0 1 = true := by decide
theorem test_kadd : ((after (.kadd 0 4 2 3) upMod).ck 0 4).cursor = 5 := by decide
theorem test_trapEntersM : ((after (.trap 0 0) upMod).core 0).level = levelM ∧ ((after (.trap 0 0) upMod).core 0).ip.tag = false := by decide
theorem test_srdCycle : ((after (.srd 0 2 0x020) upMod).core 0).d 0 2 = 0 := by decide

theorem test_lurikWord : LurikWord 0 (.addi 0 3 4 5) ∧ ¬ LurikWord 0 (.insi 0 4 3 4 0x100) ∧ ¬ LurikWord 0 (.loop 0 1 3 0) := by decide
theorem test_getOfIp : ((up.mod.core 0).ip.jump).isOk = true := by decide
theorem test_pair : let m := after (.pair 0 ⟨2, 3, 3⟩ ⟨1, 4, 2⟩) upMod
    (m.core 0).d 0 3 = 10 ∧ (m.core 0).retired = 1 := by decide
theorem test_illegalPair : ((after (.pair 0 ⟨2, 3, 3⟩ ⟨1, 4, 3⟩) upMod).core 0).level ≠ 0 := by decide
theorem test_swrLoopCount : ((after (.swr 0 3 0x018) upMod).core 0).loopReg 0 2 0 = 5 := by decide
theorem test_fenceCompletes : (upMod.core 0).sb = [] ∧ (upMod.core 0).waits = [] ∧ ((after (.fence 0) upMod).core 0).ip.cursor = resetVector 0 + 4 := by decide
theorem test_ewaitWake : let m := upMod.setCore 0 { upMod.core 0 with waiting := true, pendEv := [(7, 0)] }
    (m.core 0).wakes = true ∧ m.coreRuns 0 = true ∧ ((after (.ewaitWake 0) m).core 0).waiting = false := by decide
/-- Core 0 at level 3, above level 0. -/
def raisedMod : Mod := upMod.setCore 0 { upMod.core 0 with level := 3, active := [3, 0], resident := [3, 0] }
theorem test_eret : Ready raisedMod 0 ∧ (raisedMod.core 0).quit.calls = false ∧ raisedMod.spillFails 0 (raisedMod.core 0).quit.level = false ∧
    ((after (.eret 0) raisedMod).core 0).level = 0 := by decide
theorem test_doubleFaultHalts : let m := upMod.setCore 0 { upMod.core 0 with level := levelM, active := [levelM] }
    ((m.coreExc 0 0x01 1 0 0).core 0).halted = true := by decide
theorem test_bankReadWrite : ((after (.bankwr 0 3 2 7) upMod).core 0).d 2 7 = 5 ∧
    ((after (.bankrd 0 9 2 7) (after (.bankwr 0 3 2 7) upMod)).core 0).d 0 9 = 5 := by decide
theorem test_illegalOpcode : decodeWord 0 0 0 = none ∧ ((after (.illegalOpcode 0 0) upMod).core 0).ip.cursor ≠ (upMod.core 0).ip.cursor := by decide
theorem test_eventLatch : let m := { upMod with inFlight := [(0, 40)] }.put (F.EVD_SRC_EN 0) 10 true
    m.latches 0 40 = true ∧ ((after (.eventLatch 0 40) m).core 0).pendEv.map (·.1) = [40] := by decide
theorem test_loadResponse : let w : Wait := { tid := 3, level := 0, kind := .int 2 4 true, word := rootKey 0 0, ea := 0, rep := none, lc := [], lact := 0, resp := some ([0xFF, 0xFF, 0xFF, 0xFF], 0, false), fault := none, moot := false }
    ((after (.loadResponse 0) (upMod.setCore 0 { upMod.core 0 with waits := [w] })).core 0).d 0 2 = 2 ^ 64 - 1 := by decide
/-- An ordinary event entry: no exception is pending, 7 is the lowest source of its level. -/
theorem test_eventEntry : let m := upMod.setCore 0 { (upMod.core 0).writeStatus 0 0 with pendEv := [(7, 3)] }
    (m.core 0).calls = true ∧ m.superseding 0 = false ∧ m.spillFails 0 3 false = false ∧ m.deniedClaim 0 0 = none ∧
    ((after (.interruptEntry 0 ⟨false, none, 0⟩) m).core 0).level = 3 ∧ ((after (.interruptEntry 0 ⟨false, none, 0⟩) m).core 0).pendEv = [] := by decide
theorem test_pairBranches : ((after (.pair 0 ⟨2, 3, 3⟩ ⟨26, 3, 0⟩) upMod).core 0).retired ≤ 1 ∧
    ((after (.pair 0 ⟨30, 0, 0⟩ ⟨1, 4, 2⟩) upMod).core 0).level ≠ 0 := by decide

/-! ### Memory accesses of a core -/

/-- The core with k4 over its own scratch, all rights. -/
def scratchMod : Mod :=
  upMod.setCore 0 ((upMod.core 0).setK 0 4 ((rootKey 0x03B 0).moveTo (0xFFF0000000000000 + (coreScratch 0 : Int))))

theorem test_ready_scratch : Ready scratchMod 0 := by decide
/-- A load's key admits it, and its read is answered at once. -/
theorem test_loadIsAnswered : ((scratchMod.ck 0 4).check scratchMod.node 0 8 rLD).isOk = true ∧
    (match (scratchMod.issuing 0).coreRead 0 (0xFFF0000000000000 + coreScratch 0) 8 0 true with
      | .got _ d _ => d.length == 8
      | _ => false) = true := by decide
theorem test_storeEntersTheBuffer : (((after (.std 0 3 4 0) scratchMod).core 0).sb.map (fun e => (e.data.length, e.level, e.sent))) = [(8, 0, none)] := by decide
theorem test_storeIsForwarded : ((after (.ldd 0 2 4 0) (after (.std 0 3 4 0) scratchMod)).core 0).d 0 2 = 5 := by decide
theorem test_storeReachesItsTarget : (after (.storeAcknowledge 0) (after (.std 0 3 4 0) scratchMod)).num (coreScratch 0) 8 = 5 := by decide
theorem test_amoadd : (after (.amoadd 0 true 2 3 4) scratchMod).num (coreScratch 0) 8 = 5 := by decide
theorem test_mset : (after (.mset 0 4 3 3) scratchMod).bytes (coreScratch 0) 6 = [5, 5, 5, 5, 5, 0] := by decide

theorem test_krights : ((after (.krights 0 5 4 3) scratchMod).ck 0 5).tag = true ∧ ((after (.krights 0 5 4 3) scratchMod).ck 0 5).rights = 1 := by decide
theorem test_unalignedLoad : (after (.lduW 0 2 4 2) scratchMod).mem = [] ∧ ((after (.lduW 0 2 4 2) scratchMod).core 0).retired = 1 := by decide
theorem test_unalignedStore : (((after (.stuD 0 3 4 5) scratchMod).core 0).sb.map (fun e => e.data.length)) = [3, 5] := by decide
theorem test_contextSave : ((scratchMod.issuing 0).ctxCheck 0 4 2 (rST ||| rSK ||| rSKL)).isOk = true ∧
    ((after (.ctxsaveLo 0 4 4 2) scratchMod).core 0).retired = 1 := by decide +kernel
/-- A key without its tag, and a misaligned address. -/
theorem test_failingAccesses : let m := scratchMod.setCk 0 6 ((scratchMod.ck 0 4).advance 4)
    let cause := fun (i : Instr) => (((after i m).core 0).bank levelM).cause.toNat % 256
    cause (.ldd 0 2 5 0) = 2 ∧ cause (.ldd 0 2 6 0) = 3 ∧ cause (.std 0 3 5 0) = 2 ∧ cause (.amoadd 0 true 2 3 5) = 2 ∧ cause (.stk 0 4 6 0) = 2 := by decide +kernel
/-- A chunk of MCPY from k4 to k5, both in the core's scratch. -/
theorem test_mcpy : let m := (scratchMod.setNum (coreScratch 0) 8 0x1122334455).setCk 0 5 ((scratchMod.ck 0 4).advance 64)
    (after (.mcpy 0 5 4 3) m).bytes (coreScratch 0 + 64) 6 = [0x55, 0x44, 0x33, 0x22, 0x11, 0] ∧
    ((after (.mcpy 0 5 4 3) m).ck 0 4).cursor = (scratchMod.ck 0 4).cursor + 5 ∧ (after (.mcpy 0 5 4 3) m).cd 0 3 = 0 := by decide +kernel

/-! ### Time and chess clocks -/

/-- A block in full service. -/
def fullMod : Mod := { phase := { powered := true, gooseUp := true, spineUp := true, sheepdogUp := true, full := true } }

theorem test_stepWithNothingWaiting : (match step {} with
    | .next t => (t.mod.mono, t.mod.now)
    | _ => (0, 0)) = (1, 1) := by decide
theorem test_tbStep : (after (.tbStepWrite { master := 0, sys := true } 1000) {}).now = 1000 ∧ (after (.tbStepWrite { master := 0, sys := true } 1000) {}).flag F.TB_STATUS_STEPPED = true := by decide
theorem test_holdover : let m := ({} : Mod).wr F.TB_CTRL_SRC 0 2
    m.tbSrc ≠ 0 ∧ m.flag F.TB_STATUS_HOLDOVER = false ∧ (after .holdoverStart m).flag F.TB_STATUS_HOLDOVER = true := by decide
theorem test_slotInstant : let m := ({} : Mod).wr F.SCH_PERIOD_PERIOD 3 20
    m.slotYields 3 1000 = true ∧ m.slotYields 3 1001 = false ∧ ((after (.slotInstant 3 1000) m).slot 3).last = some 1000 ∧
      1000 ∈ ((after (.slotInstant 3 1000) m).slot 3).events := by decide

/-- Clock 256 in mode 1 with a limit of 50 ns, running since 0. -/
def clkMod : Mod :=
  ((fullMod.wr F.CLK_CTRL_MODE 256 1).wr F.CLK_LIMIT_LIMIT 256 50).setClk 256 { start := some 0 }

theorem test_clockStart : ((after (.clockStartArrival 256) { (clkMod.setClk 256 {}) with heard := [(256, true, 0)] }).clk 256).start = some 10 := by decide
theorem test_clockStop : (after (.clockStopArrival 256) { clkMod with heard := [(256, false, 7)] }).rd F.CLK_ELAPSED_TIME 256 = 17 := by decide
theorem test_flagFall : (after (.flagFall 256) clkMod).mono = 51 ∧ (after (.flagFall 256) clkMod).flag F.CLK_STATUS_FALLEN 256 = true ∧
    (after (.flagFall 256) clkMod).rd F.CLK_ELAPSED_TIME 256 = 51 := by decide
theorem test_clockRelease : let m := clkMod.setClk 256 { hold := some (20, 1, false) }
    (after (.clkCmdRelease { master := 0, sys := true } 256) m).clk 256 = {} := by decide

/-! ### Ports, pipelines and the switch -/

/-- Port 344 in mode `e`, on, with its check passed. -/
def portMod (e : Nat) (q : Port := {}) : Mod := (fullMod.wr F.PORT_STATUS_EFF_MODE 344 e).setPort 344 q

theorem test_netchk : ((after (.netchk { master := 0, sys := true } 344) (portMod 2)).port 344).checking = true ∧
    ((after (.netchk { master := 0, sys := true } 344) (portMod 4)).port 344).checking = false := by decide
theorem test_checkFails : let m := portMod 2 { phase := .check }
    ohmsPass (m.portClass 344) 0 = false ∧ (after (.networkCheckDone 344 0) m).effMode 344 = 0 ∧
      (after (.networkCheckDone 344 0) m).flag F.PORT_STATUS_MISMATCH 344 = true := by decide +kernel
theorem test_pulseEdge : (after (.pulseEdge ⟨344, true, 4⟩) (portMod 7)).counter 344 = 1 := by decide
theorem test_quadrature : (after (.quadratureTransition 344 ⟨true, false⟩) (portMod 10)).counter 344 = 1 := by decide
theorem test_linkDown : bitAt ((after (.t1lLinkDown 344) ((portMod 1).put F.PORT_STATUS_LINK_UP 344 true)).reg .PORT_FAULT 344) 5 = true := by decide
theorem test_overrange : (after (.overrange 344 true) (portMod 2)).flag F.PORT_STATUS_OVERRANGE 344 = true := by decide
theorem test_tdr : ((after (.tdrStart { master := 0, sys := true } 344) (portMod 0)).port 344).tdrFrom = some 0 ∧
    (after (.tdrAbort { master := 0, sys := true } 344) (after (.tdrStart { master := 0, sys := true } 344) (portMod 0))).flag F.PORT_STATUS_TDRDONE 344 = true := by decide
theorem test_mainDieLinkLoss : ((portMod 2).die 2).isolated = false ∧ (after (.mainDieLinkLoss 2) (portMod 2)).flag F.SPL_BLK_STATUS_DIE_LOST 10 = true := by decide
theorem test_hartDrop : let m := (portMod 3).wr F.SPL_RGN_HRX_PROD_INDEX 1 128
    ringAhead 128 0 = 128 ∧ (after (.hartReceiveFrame 344 ⟨[1], false, false, false, 0⟩) m).rd F.SPL_RGN_HRX_DROP_COUNT 1 = 1 := by decide
theorem test_tableStageAndCommand : (after (.fswTblStageInvalidate { master := 32, sys := true } false 9) {}).flag F.FSW_STATUS_BUSY = true ∧
    Tbl.get none (after (.fswTblStageInvalidate { master := 32, sys := true } false 9) {}).fwdStage 9 = some 0 := by decide
theorem test_noVlan : (after (.switchForward 344 ⟨List.replicate 60 0, true⟩) (((portMod 1).put F.PORT_STATUS_LINK_UP 344 true).put F.FSW_CTRL_ENABLE 0 true)).rd F.FSW_DROP_VLAN_COUNT = 1 := by decide
theorem test_chainOutput : let m := ((portMod 2).wr F.SPL_PORT_CHA_PERIOD 344 20).setDom 41 true
    m.chainPeriod 344 false = 1000 ∧ (after (.chainOutput 344 false 1000 7) m).rd F.PORT_RAW_CODE 344 = 7 := by decide
theorem test_commitCapture : let m := (((portMod 4).wr F.SCH_PERIOD_PERIOD 0 20).put F.SPL_BLK_CTRL_COMMIT_EN 10 true).setDom 41 true
    m.commitsAt 10 1000 = true ∧ Tbl.get 0 (after (.commitCapture 10 1000) m).lastCapture 10 = 1000 := by decide +kernel

/-! ### The mesh -/

/-- Node 40 of a federation with lane group 1 in mesh mode and link 2 attested, usable, with 4 credits on every channel. -/
def meshMod : Mod :=
  let m := ((fullMod.wr F.MESH_CTRL_NODE 0 40).put F.MESH_CTRL_ENABLE 0 true).wr F.MESH_LG_CTRL_MODE 1 1
  let m := ((m.wr F.MESH_LINK_STATUS_STATE 2 4).put F.MESH_LINK_STATUS_ATTESTED 2 true).setDom 49 true
  m.setLink 2 { usable := true, keyGen := 1 }

theorem test_freeLink : FreeLink meshMod 2 ∧ meshMod.linkUp 2 = true ∧ meshMod.linkCarries 2 2 = true := by decide
theorem test_timeProbe : ((after (.timeProbeSend 2) meshMod).link 2).probe = some 0 := by decide
theorem test_pmdTraining : let m := (meshMod.wr F.MESH_LINK_STATUS_STATE 2 1).setLink 2 { stage := .signal }
    ((after (.pmdTrainingDone ⟨2, [80, 81, 82, 83]⟩) m).link 2).stage = .trained := by decide
theorem test_blockAcknowledged : (after (.blockReceive 2 true true ⟨3, some 5⟩) meshMod).wire = [.ack 2 1] ∧
    (after (.blockReceive 2 false false ⟨0, none⟩) meshMod).wire = [.again 2 1] := by decide
theorem test_keyRenewal : ((after (.keyRenewal 2) meshMod).link 2).keyGen = 2 ∧ (after (.keyRenewal 2) meshMod).mono = 3600000000000 := by decide
theorem test_reservedFlitType : (after (.flitForward 2 (flitOf 0x3F 40) []) meshMod).rd F.MESH_ERR_COUNT_COUNT = 1 := by decide
theorem test_unawaitedResponse : ((after (.rdresp 2 (flitOf 0x11 40)) meshMod)).req = [] := by decide
theorem test_barrierWithoutPart : (after (.barrierArrive { master := 0, sys := true } 3) meshMod).flag F.MESH_GOP_STATUS_REFUSED = true := by decide
theorem test_barrierOfARoot : let m := (meshMod.put F.TB_STATUS_IS_GM 0 true).wr F.MESH_BAR_PART_PART 0 8
    m.isRoot = true ∧ m.childLinks = [] ∧ m.barPart 3 = true ∧ bitAt ((after (.barrierArrive { master := 0, sys := true } 3) m).rd F.MESH_BAR_DONE_DONE) 3 = true := by decide
theorem test_federationReset : let m := { meshMod with fed := { resetAt := some 50 } }
    (after .federationResetInstant m).fed.resetAt = none ∧ (after .federationResetInstant m).mono = 50 := by decide
theorem test_electable : meshMod.electable ⟨40, true, false⟩ = false ∧ (meshMod.put F.TB_CTRL_GM 0 true).electable ⟨40, true, false⟩ = true := by decide

/-! ### Caches, DRAM, gates -/

/-- DRAM is ready. -/
def dramMod : Mod := (fullMod.put F.MEM_STATUS_TRAINED 0 true).put F.MEM_STATUS_READY 0 true

theorem test_sliceMissFill : (dramMod.victimOf 5).2 = none ∧ (Tbl.look (after (.sliceMissFill 5 ⟨[], none⟩ none) dramMod).lines 5).isSome = true := by decide
theorem test_cleanLine : let m := { (dramMod.wr F.SC_RNG_BASE_BASE 0 0x140).wr F.SC_RNG_LEN_LEN 0 64 with lines := [(5, ⟨3, 7, 0, true, false, 0⟩)] }
    (after (.clean { master := 32, sys := true } 0) m).num 0x140 8 = 7 ∧ (after (.clean { master := 32, sys := true } 0) m).rd F.SC_RNG_COUNT_COUNT 0 = 1 := by decide +kernel
theorem test_codeErase : (after (.csErase { master := 0, sys := true } 1) fullMod).flag F.CS_STATUS_BUSY 1 = true := by decide
theorem test_patrolBeforeReady : fullMod.rd F.MEM_PATROL_CTRL_PERIOD ≠ 0 ∧ (after (.patrolScrub []) fullMod).vq.map (·.kind) = [3] := by decide
theorem test_temperature : (after (.dramTemperature 90 1 2) dramMod).flag F.MEM_STATUS_REFRESH_2X = true ∧
    (after (.dramTemperature 90 1 2) dramMod).flag F.MEM_STATUS_THROTTLE = false := by decide
theorem test_sweepStart : let m := (dramMod.wr F.MEM_SWP_LO_LO 0 1).wr F.MEM_SWP_HI_HI 0 9
    (after (.sweepStart { master := 32, sys := true } false 1 0) m).sweep.isSome = true := by decide
theorem test_epochWraps : nextEpoch 63 = 1 := by decide
theorem test_gateApply : let m := after (.gateEntPendingWrite { master := 0, sys := true } 4 3 .base 0x1000) (after (.gateEntPendingWrite { master := 0, sys := true } 4 3 .top 0x2000) fullMod)
    (after (.gateEntApply { master := 0, sys := true } 4 3 0x103) m).flag F.GATE_ENT_CTRL_LOCK (entIx 4 3) = true := by decide +kernel
/-- CLASS 3 is reserved: the previous value is kept and the write is reported (R7, R286). -/
theorem test_gateClassReserved : (after (.gateEntApply { master := 0, sys := true } 4 3 0x300) fullMod).rd F.GATE_ENT_CTRL_CLASS (entIx 4 3) = 0 := by decide +kernel
/-- A byte in no entry is admitted to a privileged master alone, and a refusal is reported. -/
theorem test_gateRefuses : let q : Acc := ⟨0, false, 0, 0, 0x1000, 8, .load⟩
    (fullMod.put F.MEM_STATUS_READY 0 true).gateTest q ≠ none ∧ (fullMod.gateTest { q with addr := regBase + 0x301008, size := 3 }).map (·.1) = some 2 ∧
    (fullMod.passGate q).1.vq.map (fun r => (r.kind, r.master, r.size)) = [(3, 0, 8)] := by decide +kernel

/-! ### Engines -/

theorem test_matrixRing : (after (.mxProdWrite { master := 0, sys := true } 1 1) ((fullMod.setDom 45 true).wr F.MX_RING_SIZE_SLOTS 1 4)).rd F.MX_PROD_INDEX 1 = 1 ∧
    (after (.mxProdWrite { master := 0, sys := true } 1 9) ((fullMod.setDom 45 true).wr F.MX_RING_SIZE_SLOTS 1 4)).flag F.SPL_RGN_STATUS_RING_ERR 1 = true := by decide
theorem test_matrixAbort : let m := (fullMod.setDom 45 true).setMxJob 1 (some ⟨0, 0, [], [], esOK, 0, 0, none, none, none⟩)
    ((after (.mxAbort { master := 0, sys := true } 1) m).mxJob 1).map (·.code) = some esABORTED := by decide
theorem test_transferLost : (after (.xfrStart { master := 0, sys := true } 2) (fullMod.put F.XFR_CH_STATUS_BUSY 2 true)).flag F.XFR_CH_STATUS_CMDLOST 2 = true := by decide
theorem test_transferEnds : let m := fullMod.setXfr 2 (some ⟨0x1010000000, List.replicate 64 0, [false, false], 0, none, none, false, false, none, some (esOK, 0, none)⟩)
    (after (.descriptorDone 2) m).flag F.XFR_CH_STATUS_DONE 2 = true ∧ (after (.descriptorDone 2) m).xfrRun 2 = none := by decide +kernel

/-! ### Host, mailbox, configuration -/

/-- The host's link is up in lamb service. -/
def hostMod : Mod := { ((fullMod.wr F.ROOK_STATUS_BOOT 0 6).wr F.MBX_STATE_STATE 0 3) with host := { up := true } }

theorem test_configurationSpace : hostMod.pciReg 0 = 0x10241EB7 ∧ hostMod.memOn = false ∧
    (after (.configurationRequest ⟨1, .write 1 0x00000002 0xF⟩) hostMod).memOn = true := by decide
theorem test_configurationRetry : (after (.configurationRequest ⟨1, .read 0⟩) fullMod).sent = [.config 1 true 0] := by decide
theorem test_hostRead : let m := after (.configurationRequest ⟨1, .write 1 0x00000002 0xF⟩) hostMod
    m.hostServed = true ∧ (after (.hostRead .bar0 0 4) m).sent.head? = some (.hostRead (leBytes 4 0x21024) .ok) := by decide +kernel
theorem test_doorbell : (after (.doorbell 1 1) hostMod).rd F.MBX_Q_CMD_PROD_INDEX 1 = 1 := by decide
/-- A NOP in the first slot of pair 1: the Sheepdog may begin it and nothing bars it but that no session is open. -/
def nopMod : Mod := (hostMod.setNum (cmdSlot 1 0) 2 3).wr F.MBX_Q_CMD_PROD_INDEX 1 1
theorem test_commandInFront : nopMod.mayBegin 1 = true ∧ nopMod.turn 1 = true ∧ (nopMod.front 1).map (fun c => c.lc.opcode) = some 3 := by decide +kernel
theorem test_commandAnswered : (after (.nop 1) nopMod).rd F.MBX_Q_CPL_PROD_INDEX 1 = 1 := by decide +kernel
theorem test_stageDirectValue : (after (.stFieldWrite ⟨{ master := 32, sys := true }, 0, 0x301008, false, 3⟩) fullMod).rd F.SC_RGN_WAYPD_MASK 0 = 0 := by decide +kernel
theorem test_prepareUnstaged : (after (.prepare 7 0) fullMod).sent.length = 1 := by decide +kernel
theorem test_commandBarred : (after (.reject { master := 1, sys := true }) (fullMod.wr F.MBX_LOCK_HOLDER 0 2)).flag F.CFG_STATUS_CMD_REFUSED = true := by decide
/-- The example "abc" of FIPS 180-4. -/
theorem test_sha256 : (sha256 [0x61, 0x62, 0x63]).map (·.toNat) =
    [0xba, 0x78, 0x16, 0xbf, 0x8f, 0x01, 0xcf, 0xea, 0x41, 0x41, 0x40, 0xde, 0x5d, 0xae, 0x22, 0x23, 0xb0, 0x03, 0x61, 0xa3, 0x96, 0x17, 0x7a, 0x9c,
     0xb4, 0x10, 0xff, 0x61, 0xf2, 0x00, 0x15, 0xad] := by decide +kernel
theorem test_accessTypes : (after (.registerWrite ⟨{ master := 32, sys := true }, 0, Reg.offset .EVR_SW 0, false, 1⟩) fullMod).reg .EVR_SW 0 = 0 := by decide +kernel

/-! ### Start-up, Goose, twin, faults, power -/

theorem test_resetIsDark : State.reset.pending = [] ∧ State.reset.mod.panel = {} := by decide
theorem test_powerGood : let m := { ({} : Mod).put F.PWR_FEED_A_OK 0 true with phase := { precharged := true } }
    (after .powerGood m).phase.powered = true := by decide
theorem test_spinePowerOn : let m : Mod := { phase := { powered := true, gooseUp := true }, goose := { keeper := 77 } }
    (after .spinePowerOn m).now = 77 := by decide
theorem test_noSession : (after (.status 1 { seq := 5 }) fullMod).sent = [.sideband 1 0x02 5 stNOSESSION []] := by decide
theorem test_hello : let m := { fullMod with rook := { anchor := true } }
    1 ∈ (after (.hello 1 1 0 { seq := 5 }) m).goose.sessions ∧ (after (.hello 1 1 0 { seq := 5 }) fullMod).goose.sessions = [] ∧
    (after (.hello 0 1 0 { seq := 5, crcOk := false }) m).goose.sessions = [] := by decide
theorem test_lifecycle : lifeArrow .provisioned .owned = true ∧ lifeArrow .provisioned .decommissioned = false := by decide
theorem test_eject : (after .ejectPress fullMod).twin.ejectAt = some 0 ∧ (after .ejectPress fullMod).flag F.CAR_STATUS_EJECT_REQ = true := by decide
theorem test_panel : let m := (fullMod.wr F.MBX_STATE_STATE 0 3).wr F.TWIN_STATUS_ROLE 0 1
    m.panel.stOk = true ∧ m.panel.stFault = false ∧ m.panel.state = some ⟨.green, 0⟩ ∧ m.panel.twin = some ⟨.green, 0⟩ := by decide
theorem test_coreReset : ((after (.coreReset { master := 32, sys := true } 9) fullMod).core 9).inReset = true := by decide +kernel
theorem test_haltedCore : let m := { upMod.setCore 0 { upMod.core 0 with halted := true, inReset := false } with federated := true }
    (after (.automaticCellReset 0) m).mono = 1000000 ∧ ((after (.automaticCellReset 0) m).core 0).halted = false := by decide +kernel
theorem test_domainFault : (upMod.domPowered 0) = true ∧ (after (.domainFault 0) upMod).domPowered 0 = false := by decide +kernel
/-- The example of R471: an inlet of 66.2 °C has step 4. -/
theorem test_throttleStep : (after (.temperatureSample (BitVec.ofNat 16 1059) ⟨1200, []⟩) fullMod).rd F.PWR_THR_STATUS_STEP = 4 := by decide +kernel
theorem test_feed : (after (.feedRangeChange true 719) fullMod).flag F.PWR_FEED_B_OK = false ∧
    (after (.feedRangeChange true 720) fullMod).flag F.PWR_FEED_B_OK = true := by decide +kernel

theorem test_lossHypotheses : fullMod.twin.loss = none ∧ fullMod.phase.powered = true ∧ fullMod.twin.castleOnEject = false ∧
    fullMod.rd F.TWIN_STATUS_ROLE ≠ 3 := by decide
theorem test_deviceActions : (fullMod.wr F.FLT_DEV_ACT_ACT 0 1).rd F.FLT_DEV_ACT_ACT = 1 ∧ (fullMod.wr F.FLT_DEV_ACT_ACT 0 2).rd F.FLT_DEV_ACT_ACT = 2 ∧
    fullMod.flag F.PWR_THR_STATUS_CRITICAL = false ∧ fullMod.phase.spineUp = true ∧ fullMod.fq.length < 64 := by decide
theorem test_escalationDue : ({ fullMod with escDue := [(some 1, true, 9)] }).escDue.find? (fun x => x.1 == some 1 && x.2.1 == true) = some (some 1, true, 9) := by decide
/-- What FULL_SERVICE and REGION_RESTART ask for. -/
theorem test_serviceHypotheses : let m := { (fullMod.wr F.ROOK_STATUS_BOOT 0 5).put F.MEM_STATUS_READY 0 true with phase := { fullMod.phase with checked := true, full := false } }
    m.phase.reprogram = [] ∧ m.twin.loss = none ∧ (∀ k, k < 32 → (m.core k).sb = []) ∧ (∀ k, k < 4 → m.mxJob k = none) ∧
    m.corr = 0 ∧ m.acc = 0 ∧ m.freqAdj = 0 := by decide +kernel
/-- A primary that has sent RELEASE gives up its role to the peer's claim. -/
theorem test_letGo : let m := { (fullMod.put F.CAR_STATUS_TWIN 0 true).wr F.TWIN_STATUS_ROLE 0 1 with twin := { release := true } }
    m.letGo = true ∧ (after (.peerClaimChange true) m).rd F.TWIN_STATUS_ROLE = 2 ∧ (after (.peerClaimChange true) m).twin.agreed.isSome = true := by decide +kernel

/-! ### Conditions of statements that take a longer way to meet -/

/-- Pair 1 with an open 2.x session that holds the lock with token 9, and a command of opcode `op` with the given 4-byte fields in its slot. -/
def cmdMod (op : Nat) (fields : List (Nat × Nat)) : Mod :=
  let m := fields.foldl (fun m f => m.setNum (cmdSlot 1 0 + f.1) 4 f.2) (hostMod.setNum (cmdSlot 1 0) 2 op)
  { (m.wr F.MBX_Q_CMD_PROD_INDEX 1 1).setSess 1 ⟨true, 2, 0, 1, []⟩ with lock := { holder := 2, token := 9 } }
/-- Whether the Sheepdog may begin that command with nothing barring it. -/
def cmdRuns (op : Nat) (fields : List (Nat × Nat)) : Bool :=
  let m := cmdMod op fields
  (m.front 1).any (fun c => decide (CmdRuns m 1 op c))
theorem test_cmdRuns : [(0x0001, [(0x20, 2)]), (0x0002, []), (0x0003, []), (0x0004, []), (0x0101, []), (0x0102, [(0x20, 9)]), (0x0103, []), (0x0110, [(0x20, 64)]),
    (0x0111, []), (0x0112, [(0x20, 9)]), (0x0113, [(0x20, 9)]), (0x0114, [(0x20, 9)]), (0x0115, [(0x20, 9), (0x24, 1)]), (0x0116, []),
    (0x0201, [(0x0C, 4)]), (0x0202, []), (0x0203, [(0x0C, 2)]), (0x0204, []), (0x0205, [])].all (fun p => cmdRuns p.1 p.2) = true := by decide +kernel
theorem test_cmdRunsOthers : [(0x0301, [(0x28, 0x1000), (0x2C, 3)]), (0x0302, []), (0x0401, [(0x20, 0x800)]), (0x0402, []), (0x0403, []), (0x0404, [(0x20, 1)]),
    (0x0501, []), (0x0502, []), (0x0503, [(0x20, 1)]), (0x0504, [(0x20, 0x1000), (0x24, 4)]), (0x0601, []), (0x0602, [(0x20, 9)]), (0x0603, [(0x20, 9)]),
    (0x0701, []), (0x0702, [(0x20, 9)]), (0x0801, [(0x20, 64)]), (0x0802, []), (0x0803, [(0x20, 9)]), (0x0804, [(0x20, 9)]), (0x0805, []), (0x0806, [])].all
      (fun p => cmdRuns p.1 p.2) = true := by decide +kernel

/-- REP of 5 with an ADD behind it in the same line: one repetition, and the words REP forbids. -/
theorem test_rep : let rep := fun (i : Instr) => Instr.rep 0 3 (BitVec.ofNat 32 (encodeWord i))
    let k := (upMod.fetched 0).core 0
    let at4 := ((upMod.fetched 0).setCore 0 { k.atIssue with ip := k.ip.advance 4 }).fetchFault 0
    k.d 0 3 = 5 ∧ at4.2 = none ∧ (at4.1.core 0).word = true ∧
    ((after (rep (.addi 0 2 2 7)) upMod).core 0).d 0 2 = 7 ∧ ((after (rep (.addi 0 2 2 7)) upMod).core 0).d 0 3 = 4 ∧
    ((after (rep (.addi 0 2 2 7)) upMod).core 0).ip = k.ip ∧ ((after (.rep 0 0 0) upMod).core 0).ip.cursor = k.ip.cursor + 8 := by decide +kernel
/-- A forbidden target, and one that names the count. -/
theorem test_repTarget : (((after (.rep 0 3 (BitVec.ofNat 32 (encodeWord (.fence 0)))) upMod).core 0).bank levelM).cause.toNat / 256 % 256 = 6 ∧
    (((after (.rep 0 3 (BitVec.ofNat 32 (encodeWord (.add 0 2 3 2)))) upMod).core 0).bank levelM).cause.toNat / 256 % 256 = 6 ∧
    ((after (.rep 0 3 0) upMod).core 0).level = levelM := by decide +kernel

/-- Core 0 with the division-by-zero trap enabled. -/
def fpMod : Mod := upMod.setCore 0 { (upMod.core 0) with fpres := 0, fpcsr := 0x1F00 }
/-- 1.0 / 0.0: without PA recorded at its handler level or M, with PA raised at once. -/
theorem test_fpTrap : let m := after (.fmvF 0 1 3) fpMod
    let i := Instr.fdiv 0 false 2 1 0
    let pa := m.setCore 0 ((m.core 0).setSt 0 20 1 1)
    ((after i m).core 0).pendExc.length = 1 ∧ ((after i pa).core 0).pendExc = [] ∧ ((after i pa).core 0).level ≠ 0 ∧ ((after i pa).core 0).fr 0 2 = 0 := by decide +kernel

/-- An access that another level awaits holds FENCE and GATE.SYNC. -/
theorem test_fenceWaits : let w : Wait := { tid := 3, level := 3, kind := .int 2 4 true, word := rootKey 0 0, ea := 0, rep := none, lc := [], lact := 0, resp := none, fault := none, moot := false }
    let m := upMod.setCore 0 { upMod.core 0 with waits := [w] }
    Ready m 0 ∧ ((((m.fetched 0).issuing 0).drain 0).core 0).word = true ∧ ((((m.fetched 0).issuing 0).drain 0).core 0).waits ≠ [] ∧
    ((after (.gateSync 0) m).core 0).ip = (m.core 0).ip := by decide +kernel

theorem test_flagFallActs : let m := fun (a : Nat) => ((clkMod.wr F.CLK_CTRL_ACTION 256 a).wr F.CLK_BIND_MASK_MASK 256 1).wr F.CFG_MOVE_PROB_MOVE 0 3
    (after (.flagFall 256) (m 1)).flag F.CLK_STATUS_HOLDING 256 = true ∧ (((after (.flagFall 256) (m 2)).clk 256).hold = some (0, 1, true)) ∧
    (after (.flagFall 256) (m 3)).fq.map (·.cause) = [6] ∧ (after (.flagFall 256) (m 4)).fq.map (·.cause) = [7] ∧
    (after (.flagFall 256) ((m 0).put F.CLK_CTRL_EV_EN 256 true)).rd F.CFG_PROB_FALLS_COUNT = 1 := by decide +kernel

/-- What reconfigures beside t1 of a port that was off: a change from an old mode, and the odd port of a quadrature pair. -/
theorem test_reconfigured : let m := portMod 4 { phase := .reconf, oldEff := 2 }
    m.settleOf 344 4 = 0 ∧ ((after (.frontEndReconfigured 344) m).port 344).phase = .idle ∧
    (let m := (portMod 10 { phase := .run, oldEff := 7, t5 := 99 }).wr F.PORT_STATUS_EFF_MODE 345 10
     let m := m.setPort 345 { phase := .reconf, oldEff := 7 }
     ((after (.frontEndReconfigured 345) m).port 345).t5 = 99) := by decide +kernel
/-- Channel B alone, and a discrete port without a debounce. -/
theorem test_quadratureB : (after (.quadratureTransition 344 ⟨false, true⟩) (portMod 10)).counter 344 = 2 ^ 64 - 1 ∧
    (after (.quadratureTransition 344 ⟨false, true⟩) ((portMod 10).setPort 345 { phase := .reconf })).counter 344 = 0 := by decide +kernel
theorem test_discrete : (((after (.discreteChange 344 true) (portMod 9)).port 344).disc = [⟨0, 0, true⟩]) ∧ (portMod 9).debounce 344 = 0 ∧
    (portMod 8).debounce 344 = 0 ∧ ((after (.discreteChange 344 true) ((portMod 8).wr F.PORT_FILTER_DEBOUNCE 344 5)).port 344).pendDisc = some (true, 0) := by decide +kernel
theorem test_scanOpen : let m := ((portMod 8).put (F.PORT_DIAG_CTRL_OPEN) 344 true).put F.PBLK_CTRL_SCAN_EN 10 true
    let vin := m.wr (F.PBLK_CLASS_CLASS 0) 43 5
    vin.portClass 344 = 5 ∧ (after (.diagnosticScan 10 (2 ^ 24) [(24, 0)]) vin).flag F.PORT_STATUS_OPEN 344 = true ∧
    (after (.diagnosticScan 10 (2 ^ 24) [(24, 0)]) m).flag F.PORT_STATUS_OPEN 344 = false := by decide +kernel
/-- The ways in of a frame that are not up, and a frame with a bad FCS. -/
theorem test_switchIngress : let m := (portMod 1).put F.FSW_CTRL_ENABLE 0 true
    m.ingressUp 344 = false ∧ (m.put F.PORT_STATUS_LINK_UP 344 true).ingressUp 344 = true ∧ frameGood ⟨List.replicate 60 0, true⟩ = true ∧
    frameGood ⟨List.replicate 60 0, false⟩ = false := by decide +kernel
/-- Lines of slice 5 under each range operation. -/
theorem test_rangeLines : let m := { (dramMod.wr F.SC_RNG_BASE_BASE 0 0x140).wr F.SC_RNG_LEN_LEN 0 64 with lines := [(5, ⟨3, 7, 0, true, false, 0⟩)] }
    let w : Writer := { master := 32, sys := true }
    (after (.cleanInval w 0) m).num 0x140 8 = 7 ∧ (after (.cleanInval w 0) m).lines = [] ∧ (after (.inval w 0 true) m).lines = [] ∧
    (after (.inval w 0 true) m).num 0x140 8 = 0 ∧ ((after (.warm w 0) { m with lines := [] }).lines.map (·.1)) = [5] ∧
    ((after (.zero w 0) m).lines.map (fun e => (e.1, e.2.data, e.2.dirty))) = [(5, 0, true)] ∧
    m.gateTest ⟨32, true, 0, 0, 0x140, 64, .rangeWrite⟩ = none ∧ m.gateTest ⟨32, true, 0, 0, 0x140, 64, .rangeRead⟩ = none := by decide +kernel

/-- A member in probation of move 9: a PREPARE of an older move is the automatic take-back, and a failure asks the originator for it. -/
def probMod : Mod :=
  { fullMod with cfg := { probation := some { move := 9, slot := 2, ends := 1000, falls := 0, viol := 0, flags := 0, federated := true, origin := false, unreported := [], members := [7], accepted := false, failed := true } } }
theorem test_prepareTakesBack : ((after (.prepare 7 0) probMod).cfg.commit.map (fun c => (c.kind, c.slot))) = some (.automatic, 8) ∧
    (after (.takebackRequest (some 7)) probMod).sent = [.federate none (.takeback 9)] ∧
    (after (.takebackRequest (some 8)) probMod).sent = [] := by decide +kernel
/-- A member's failure of a move that its originator has settled takes that move back. -/
theorem test_settledTakenBack : let p : Probation := { move := 9, slot := 2, ends := 1000, falls := 0, viol := 0, flags := 0, federated := true, origin := true, unreported := [], members := [7], accepted := false, failed := false }
    let m := { fullMod.wr F.CFG_MOVE_SETTLED_MOVE 0 9 with cfg := { settledFed := some (p, 8) } }
    ((after (.takebackRequest (some 7)) m).cfg.commit.map (fun c => (c.kind, c.slot, c.passed, c.at_))) = some (.automatic, 8, [2], some 10000000) := by decide +kernel
/-- A COMMIT before the own prepare has ended keeps its C. -/
theorem test_earlyCommit : let m := after (.prepare 7 0) probMod
    (after (.commitMessage 300000) m).cfg.commit.map (fun c => (c.own, c.at_)) = some (none, some 300000) := by decide +kernel

/-- A primary whose proposal is lost: its link silent, or its peer gone. -/
def castleMod : Mod := { (((fullMod.put F.CAR_STATUS_TWIN 0 true).wr F.TWIN_STATUS_ROLE 0 1).put F.TWIN_STATUS_PEER_PRES 0 true) with twin := { propose := some 90, castleOnEject := true, hbRecv := some 0 } }
theorem test_proposalLost : let t := after (.peerPresenceChange false) castleMod
    let u := after .heartbeatLoss castleMod
    t.rd F.TWIN_STATUS_REASON = 1 ∧ t.twin.castleOnEject = false ∧ u.rd F.TWIN_STATUS_REASON = 2 ∧ u.twin.propose = none := by decide +kernel
/-- A REMOVE while a castling is agreed waits for its hand-over. -/
theorem test_removeDeferred : let m := { castleMod with twin := { agreed := some 90 } }
    let t := after (.remove { master := 32, sys := true }) m
    t.twin.castleOnEject = true ∧ t.rd F.TWIN_STATUS_ROLE = 1 := by decide +kernel
/-- What the loss of presence during a feed loss asks for. -/
theorem test_presenceInFeedLoss : let m := { portMod 4 { driving := true } with twin := { loss := some (false, 5) } }
    m.phase.powered = true ∧ m.twin.loss = some (false, 5) ∧ m.twin.release = false := by decide
/-- A synchronisation with no settled move. -/
theorem test_syncWithoutMove : let m := ((((fullMod.put F.CAR_STATUS_TWIN 0 true).wr F.TWIN_STATUS_ROLE 0 2).put F.TWIN_STATUS_LINK_UP 0 true).wr F.TWIN_STATUS_SYNC 0 1)
    m.isStandby = true ∧ ((after (.twinSyncCommit [] [] 0 ⟨true, 0, 0⟩) m).cfg.commit.map (fun c => (c.kind, c.slot))) = some (.sync, 8) := by decide +kernel

end Sys2Proof.Tests
end

/-!
KTEST (R147): what a word that writes one d register leaves, and the comparison of two keys condition by condition.
-/
namespace Sys2Proof.Machine

/-! ### A word that writes one d register -/

@[simp] theorem Core.word_setD (k : Core) (l r v : Nat) : (k.setD l r v).word = k.word := by
  unfold Core.setD
  split <;> rfl

@[simp] theorem Core.word_atIssue (k : Core) : k.atIssue.word = k.word := rfl

@[simp] theorem Mod.core_setCd_self (m : Mod) (c r v : Nat) : (m.setCd c r v).core c = (m.core c).setD (m.core c).level r v :=
  m.core_setCore_self c _

/-- The end of a word that writes a d register and goes on in sequence. -/
theorem settle_seq_setCd {m : Mod} {c : Nat} (hw : (m.core c).word = true) (w rd v : Nat) :
    settle c w (.seq (m.setCd c rd v)) = m.setCore c ((m.core c).setD (m.core c).level rd v).next.retire := by
  simp only [settle, IOut.mod, Mod.core_setCd_self, Core.word_setD, hw, Bool.not_true, Bool.false_eq_true, if_false]
  exact m.setCore_setCore c _ _

/-- A word that issues, with a body that writes `v` to d register `rd` and goes on in sequence, changes nothing else. -/
theorem writesD_of_issue {s : State} {c : CoreId} (h : Ready s.mod c) (uses : List RegName) {body : Body} {rd v : Nat}
    (hb : body ((s.mod.fetched c).issuing c) c = .seq (((s.mod.fetched c).issuing c).setCd c rd v)) :
    WritesD c rd v (s.fetched c) { s with mod := s.mod.issue c uses body } := by
  have hw : (((s.mod.fetched c).issuing c).core c).word = true := by
    obtain ⟨_, _, _, _, hword⟩ := h
    rw [Mod.core_issuing, Core.word_atIssue]
    exact hword
  have hm : s.mod.issue c uses body = (s.mod.fetched c).setCore c
      ((((s.mod.fetched c).core c).atIssue.setD ((s.mod.fetched c).core c).atIssue.level rd v).next.retire) := by
    rw [Mod.issue_ready h, hb, settle_seq_setCd hw, Mod.core_issuing, Mod.issuing, Mod.setCore_setCore]
  rw [hm]
  exact coreBecomes_setCore _ _ _ _

/-! ### KTEST -/

theorem bitAt_eq_testBit (n i : Nat) : bitAt n i = n.testBit i := by
  rw [Nat.testBit_eq_decide_div_mod_eq, bitAt, bitsOf_eq_div, pow_one, beq_eq_decide]

theorem Key.rights_lt (k : Key) : k.rights < 2 ^ 10 := bitsOf_lt _ _ _

/-- A number below 2 ^ w keeps all its bits under a mask exactly if the mask has each of them. -/
theorem land_eq_left_iff_bitAt {n w : Nat} (hn : n < 2 ^ w) (m : Nat) :
    n &&& m = n ↔ ∀ i, i < w → bitAt n i = true → bitAt m i = true := by
  simp only [bitAt_eq_testBit]
  constructor
  · intro h i _ hi
    rw [← h, Nat.testBit_and, Bool.and_eq_true] at hi
    exact hi.2
  · intro h
    refine Nat.eq_of_testBit_eq fun i => ?_
    rw [Nat.testBit_and]
    cases hi : n.testBit i with
    | false => rfl
    | true =>
      have hlt : 2 ^ i < 2 ^ w := (Nat.ge_two_pow_of_testBit hi).trans_lt hn
      exact h i ((Nat.pow_lt_pow_iff_right Nat.one_lt_two).mp hlt) hi

/-- What KTEST compares (R147): `ks` has no more authority than `kt`. -/
theorem Key.test_iff (ks kt : Key) : ks.test kt = true ↔
    (ks.live = true ∧ kt.live = true) ∧ (kt.lo ≤ ks.lo ∧ ks.hi ≤ kt.hi) ∧
      (∀ i, i < 10 → bitAt ks.rights i = true → bitAt kt.rights i = true) ∧
      kt.loc ≤ ks.loc ∧ ks.otype = kt.otype ∧ (ks.epoch = kt.epoch ∨ kt.epoch = 0) := by
  simp only [Key.test, Bool.and_eq_true, Bool.or_eq_true, beq_iff_eq, decide_eq_true_eq,
    land_eq_left_iff_bitAt ks.rights_lt, and_assoc]
  simp only [locRank]

/-- KTEST on a core that issues writes the outcome of the comparison. -/
theorem execKtest_writesD {s : State} {c : CoreId} (h : Ready s.mod c) (rd : DReg) (ks kt : KReg) :
    ∃ t, exec (.ktest c rd ks kt) s = .next t ∧
      WritesD c rd (b2n (((s.fetched c).mod.ck c ks).test ((s.fetched c).mod.ck c kt))) (s.fetched c) t :=
  ⟨_, rfl, writesD_of_issue h _ (by simp only [bodyKtest, Mod.ck_issuing]; rfl)⟩

/-- Settles O57: the number KTEST writes is `Key.test` of the keys read, which `Key.test_iff` takes apart. -/
theorem ktestComparesTheAuthorityOfTwoKeys : Obligations.KtestComparesTheAuthorityOfTwoKeys := by
  intro s0 c rd ks kt hready s a b holds
  obtain ⟨t, ht, hwrites⟩ := execKtest_writesD hready rd ks kt
  have htest : a.test b = true ↔ holds := Key.test_iff a b
  refine ⟨fun hh => ⟨t, ht, ?_⟩, fun hh => ⟨t, ht, ?_⟩⟩
  · have hv : b2n (a.test b) = 1 := by simp [b2n, htest.mpr hh]
    exact hv ▸ hwrites
  · have hv : b2n (a.test b) = 0 := by simp [b2n, mt htest.mp hh]
    exact hv ▸ hwrites

end Sys2Proof.Machine

/-!
The reset of a core cell (R449, R450): what a report of a fault leaves as it was, and what a core's reset does to the core, its scratch,
its requests and the other cores.
-/
namespace Sys2Proof.Machine

/-! ### Parts of a table -/

/-- Leaving out entries of other keys does not change what a key reads as. -/
theorem Tbl.get_filter {α : Type} (d : α) (t : Tbl α) (p : Nat × α → Bool) (k : Nat) (h : ∀ v, p (k, v) = true) :
    Tbl.get d (t.filter p) k = Tbl.get d t k := by
  induction t with
  | nil => rfl
  | cons e t ih =>
    obtain ⟨k', v⟩ := e
    by_cases hk : k' = k
    · subst hk
      simp [List.filter, h v, Tbl.get]
    · cases hp : p (k', v) with
      | true => simp [List.filter, hp, Tbl.get, hk, ih]
      | false => simp [List.filter, hp, Tbl.get, hk, ih]

/-- A key whose entries are all left out reads as its default. -/
theorem Tbl.get_filter_out {α : Type} (d : α) (t : Tbl α) (p : Nat × α → Bool) (k : Nat) (h : ∀ v, p (k, v) = false) :
    Tbl.get d (t.filter p) k = d := by
  induction t with
  | nil => rfl
  | cons e t ih =>
    obtain ⟨k', v⟩ := e
    cases hp : p (k', v) with
    | true =>
      have hk : k' ≠ k := fun e => by rw [e, h v] at hp; cases hp
      simp [List.filter, hp, Tbl.get, hk, ih]
    | false => simp [List.filter, hp, ih]

/-- A register none of whose entries is left out of the register file keeps its value. -/
theorem Mod.reg_filter {m t : Mod} (p : Nat × BitVec 64 → Bool) (ht : t.regs = m.regs.filter p) (r : Reg) (i : Nat)
    (h : ∀ v, p (regKey r i, v) = true) : t.reg r i = m.reg r i := by
  simp only [Mod.reg, ht, Tbl.get_filter _ _ _ _ h]

/-- The number of a register stands in every key of it. -/
@[simp] theorem regKey_mod (r : Reg) (i : Nat) : regKey r i % 512 = r.ctorIdx := by
  have := Reg.ctorIdx_lt r
  simp only [regKey]
  omega

/-! ### What a report leaves as it was (R445, R453) -/

/-- The registers in which a fault's record and an event that nothing takes are counted. -/
def reportRegs : List Reg := [.FLT_Q_STATUS, .FLT_Q_LOST, .EVR_UNROUTED]

/-- From `m` to `t` faults were recorded and events raised: time, cores, requests, power, start-up and region resets stand as
before, and of the registers only those of reports change. -/
structure Mod.Reported (m t : Mod) : Prop where
  mono : t.mono = m.mono
  cores : t.cores = m.cores
  req : t.req = m.req
  phase : t.phase = m.phase
  waking : t.waking = m.waking
  rgnPhase : t.rgnPhase = m.rgnPhase
  reg : ∀ r i, r ∉ reportRegs → t.reg r i = m.reg r i

theorem Mod.Reported.refl (m : Mod) : m.Reported m := ⟨rfl, rfl, rfl, rfl, rfl, rfl, fun _ _ _ => rfl⟩

theorem Mod.Reported.trans {m n t : Mod} (h : m.Reported n) (h' : n.Reported t) : m.Reported t where
  mono := h'.mono.trans h.mono
  cores := h'.cores.trans h.cores
  req := h'.req.trans h.req
  phase := h'.phase.trans h.phase
  waking := h'.waking.trans h.waking
  rgnPhase := h'.rgnPhase.trans h.rgnPhase
  reg r i hr := (h'.reg r i hr).trans (h.reg r i hr)

theorem Mod.reported_ite {m t : Mod} {p : Prop} [Decidable p] (h : m.Reported t) : m.Reported (if p then m else t) := by
  split
  · exact .refl m
  · exact h

theorem Mod.reported_iff {m : Mod} {b : Bool} {f : Mod → Mod} (h : m.Reported (f m)) : m.Reported (m.iff b f) := by
  cases b
  · exact .refl m
  · exact h

theorem Mod.reported_wr (m : Mod) (f : Fld) (i v : Nat) (h : f.reg ∈ reportRegs) : m.Reported (m.wr f i v) :=
  ⟨rfl, rfl, rfl, rfl, rfl, rfl, fun _ _ hr => Mod.reg_setReg_ne m _ fun e => hr (e.1 ▸ h)⟩

theorem Mod.reported_msix (m : Mod) (v : Nat) : m.Reported (m.msix v) := by
  refine Mod.reported_ite ?_
  split
  · exact ⟨rfl, rfl, rfl, rfl, rfl, rfl, fun _ _ _ => rfl⟩
  · exact ⟨rfl, rfl, rfl, rfl, rfl, rfl, fun _ _ _ => rfl⟩

theorem Mod.reported_foldl_msix (l : List Nat) (m : Mod) : m.Reported (l.foldl Mod.msix m) := by
  induction l generalizing m with
  | nil => exact .refl m
  | cons v l ih => exact (m.reported_msix v).trans (ih _)

theorem Mod.reported_deliver (m : Mod) (n : Nat) : m.Reported (m.deliver n) := by
  unfold Mod.deliver
  refine .trans (.trans ?_ (Mod.reported_foldl_msix _ _)) (Mod.reported_iff (Mod.reported_wr _ _ _ _ (by decide)))
  refine .trans ?_ (Mod.reported_iff ⟨rfl, rfl, rfl, rfl, rfl, rfl, fun _ _ _ => rfl⟩)
  exact ⟨rfl, rfl, rfl, rfl, rfl, rfl, fun _ _ _ => rfl⟩

theorem Mod.reported_gooseLog (m : Mod) (w : GooseWhat) : m.Reported (m.gooseLog w) := by
  unfold Mod.gooseLog
  refine .trans ?_ (Mod.reported_iff (Mod.reported_deliver _ _))
  exact ⟨rfl, rfl, rfl, rfl, rfl, rfl, fun _ _ _ => rfl⟩

theorem Mod.reported_gooseFault (m : Mod) (r : FaultRec) : m.Reported (m.gooseFault r) :=
  (m.reported_gooseLog (.fault r)).trans ⟨rfl, rfl, rfl, rfl, rfl, rfl, fun _ _ _ => rfl⟩

theorem Mod.reported_raise (m : Mod) (n : Nat) : m.Reported (m.raise n) :=
  Mod.reported_ite ((m.reported_deliver n).trans (Mod.reported_iff (Mod.reported_gooseLog _ _)))

/-- The queue of the fault controllers takes a record, or counts it as lost. -/
theorem Mod.reported_enqueue (m : Mod) (r : FaultRec) :
    m.Reported (if m.fq.length ≥ 64 then (m.put F.FLT_Q_STATUS_OVERFLOW 0 true).count F.FLT_Q_LOST_COUNT else { m with fq := insertRec r m.fq }) := by
  split
  · exact (m.reported_wr _ _ _ (by decide)).trans (Mod.reported_wr _ _ _ _ (by decide))
  · exact ⟨rfl, rfl, rfl, rfl, rfl, rfl, fun _ _ _ => rfl⟩

theorem Mod.reported_record (m : Mod) (r : FaultRec) : m.Reported (m.record r) := by
  unfold Mod.record
  split
  · exact m.reported_gooseFault r
  · refine .trans (.trans (.trans (m.reported_enqueue r) ?_) (Mod.reported_iff (Mod.reported_gooseFault _ r)))
      (Mod.reported_iff (Mod.reported_raise _ 255))
    exact ⟨rfl, rfl, rfl, rfl, rfl, rfl, fun _ _ _ => rfl⟩

theorem Mod.reported_resetRecord (m : Mod) (kind i requester master : Nat) : m.Reported (m.resetRecord kind i requester master) :=
  m.reported_record _

/-! ### What decides whether a core runs (R393, R398, R451, R458) -/

/-- From `m` to `t` nothing changes that decides whether a core may be out of reset. -/
structure Mod.SameRun (m t : Mod) : Prop where
  phase : t.phase = m.phase
  waking : t.waking = m.waking
  rgnPhase : t.rgnPhase = m.rgnPhase
  reg : ∀ r ∈ [Reg.CFG_MOVE_PROB, .CFG_MOVE_SETTLED, .PWR_DOM_STATE], ∀ i, t.reg r i = m.reg r i

theorem Mod.SameRun.rd {m t : Mod} (h : m.SameRun t) {f : Fld} {i : Nat}
    (hf : f.reg ∈ [Reg.CFG_MOVE_PROB, .CFG_MOVE_SETTLED, .PWR_DOM_STATE]) : t.rd f i = m.rd f i := by
  rw [Mod.rd, h.reg f.reg hf i, Mod.rd]

theorem Mod.SameRun.coresRun {m t : Mod} (h : m.SameRun t) : t.coresRun = m.coresRun := by
  have hprob : t.rd F.CFG_MOVE_PROB_MOVE = m.rd F.CFG_MOVE_PROB_MOVE := h.rd (by decide)
  have hsettled : t.rd F.CFG_MOVE_SETTLED_MOVE = m.rd F.CFG_MOVE_SETTLED_MOVE := h.rd (by decide)
  have hmove : t.moveNow = m.moveNow := by rw [Mod.moveNow, hprob, hsettled, Mod.moveNow]
  rw [Mod.coresRun, h.phase, hmove, Mod.coresRun]

theorem Mod.SameRun.domOn {m t : Mod} (h : m.SameRun t) (d : Nat) : t.domOn d = m.domOn d := by
  have hon : t.rd F.PWR_DOM_STATE_ON (d / 32) = m.rd F.PWR_DOM_STATE_ON (d / 32) := h.rd (by decide)
  simp only [Mod.domOn, Mod.domPowered, h.waking, hon]

theorem Mod.SameRun.rgnDown {m t : Mod} (h : m.SameRun t) (g : Nat) : t.rgnDown g = m.rgnDown g := by
  simp only [Mod.rgnDown, h.rgnPhase]

theorem Mod.SameRun.trans {m n t : Mod} (h : m.SameRun n) (h' : n.SameRun t) : m.SameRun t where
  phase := h'.phase.trans h.phase
  waking := h'.waking.trans h.waking
  rgnPhase := h'.rgnPhase.trans h.rgnPhase
  reg r hr i := (h'.reg r hr i).trans (h.reg r hr i)

theorem Mod.Reported.sameRun {m t : Mod} (h : m.Reported t) : m.SameRun t where
  phase := h.phase
  waking := h.waking
  rgnPhase := h.rgnPhase
  reg r hr i := h.reg r i (by revert r; decide)

/-! ### Time -/

/-- TB_MONO after a wait: the instant waited for, or later where it has passed. -/
@[simp] theorem Mod.mono_toMono (m : Mod) (t : Nat) : (m.toMono t).mono = Nat.max m.mono t := by
  unfold Mod.toMono
  split
  · next h => exact (Nat.max_eq_left h).symm
  · next h =>
    have hadd : m.mono + (t - m.mono) = t := by omega
    exact hadd.trans (Nat.max_eq_right (by omega)).symm

@[simp] theorem Mod.cores_toMono (m : Mod) (t : Nat) : (m.toMono t).cores = m.cores := by
  unfold Mod.toMono
  split <;> rfl

theorem Mod.sameRun_toMono (m : Mod) (t : Nat) : m.SameRun (m.toMono t) := by
  unfold Mod.toMono
  split
  · exact ⟨rfl, rfl, rfl, fun _ _ _ => rfl⟩
  · exact ⟨rfl, rfl, rfl, fun _ _ _ => rfl⟩

/-! ### The reset of a core cell (R449) -/

/-- A gate's entries cleared: the registers that are no gate's keep their values. -/
theorem Mod.reg_gateClear (m : Mod) (gate : Nat) {r : Reg}
    (hr : r ∉ [Reg.GATE_ENT_BASE, .GATE_ENT_TOP, .GATE_ENT_MASTERS, .GATE_ENT_CTRL, .GATE_ENT_EPOCH, .GATE_G_CTRL]) (i : Nat) :
    (m.gateClear gate).reg r i = m.reg r i := by
  simp only [List.mem_cons, not_or] at hr
  obtain ⟨hbase, htop, hmasters, hctrl, hepoch, hg, -⟩ := hr
  refine (Mod.reg_setReg_ne _ _ fun e => hg e.1).trans (Mod.reg_filter _ rfl r i fun v => ?_)
  have hne : ∀ {r' : Reg}, r ≠ r' → (r.ctorIdx == r'.ctorIdx) = false := fun h => beq_false_of_ne fun e => h (Reg.ctorIdx_inj e)
  simp only [regKey_mod, hne hbase, hne htop, hne hmasters, hne hctrl, hne hepoch, Bool.or_self, Bool.false_and, Bool.not_false]

theorem Mod.reg_evdClear (m : Mod) (c : Nat) {r : Reg} (hr : r ≠ .EVD_SRC) (i : Nat) : (m.evdClear c).reg r i = m.reg r i := by
  refine Mod.reg_filter _ rfl r i fun v => ?_
  have hne : (r.ctorIdx == Reg.EVD_SRC.ctorIdx) = false := beq_false_of_ne fun e => hr (Reg.ctorIdx_inj e)
  simp only [regKey_mod, hne, Bool.false_and, Bool.not_false]

@[simp] theorem Mod.mono_l1Clear (m : Mod) (c : Nat) : (m.l1Clear c).mono = m.mono := rfl
@[simp] theorem Mod.mono_evdClear (m : Mod) (c : Nat) : (m.evdClear c).mono = m.mono := rfl
@[simp] theorem Mod.mono_zeroRange (m : Mod) (a n : Nat) : (m.zeroRange a n).mono = m.mono := rfl
@[simp] theorem Mod.mono_gateClear (m : Mod) (gate : Nat) : (m.gateClear gate).mono = m.mono := by rw [Mod.gateClear, Mod.put_mono]
@[simp] theorem Mod.req_l1Clear (m : Mod) (c : Nat) : (m.l1Clear c).req = m.req := rfl
@[simp] theorem Mod.req_evdClear (m : Mod) (c : Nat) : (m.evdClear c).req = m.req := rfl
@[simp] theorem Mod.req_zeroRange (m : Mod) (a n : Nat) : (m.zeroRange a n).req = m.req := rfl
@[simp] theorem Mod.req_gateClear (m : Mod) (gate : Nat) : (m.gateClear gate).req = m.req := by rw [Mod.gateClear, Mod.put_req]
@[simp] theorem Mod.mem_l1Clear (m : Mod) (c : Nat) : (m.l1Clear c).mem = m.mem := rfl
@[simp] theorem Mod.mem_evdClear (m : Mod) (c : Nat) : (m.evdClear c).mem = m.mem := rfl
@[simp] theorem Mod.mem_zeroRange (m : Mod) (a n : Nat) : (m.zeroRange a n).mem = cellsClear m.mem a n := rfl
@[simp] theorem Mod.mem_gateClear (m : Mod) (gate : Nat) : (m.gateClear gate).mem = m.mem := by rw [Mod.gateClear, Mod.put_mem]
@[simp] theorem Mod.cores_evdClear (m : Mod) (c : Nat) : (m.evdClear c).cores = m.cores := rfl
@[simp] theorem Mod.cores_zeroRange (m : Mod) (a n : Nat) : (m.zeroRange a n).cores = m.cores := rfl
@[simp] theorem Mod.cores_gateClear (m : Mod) (gate : Nat) : (m.gateClear gate).cores = m.cores := by rw [Mod.gateClear, Mod.put_cores]

theorem Mod.core_l1Clear_ne (m : Mod) {c c' : Nat} (h : c' ≠ c) : (m.l1Clear c).core c' = m.core c' :=
  Mod.core_setCore_ne m _ h

/-- The cores of a module as one of its cells enters reset. -/
theorem Mod.core_coreEnterReset (m : Mod) (c c' : Nat) : (m.coreEnterReset c).core c' = ((m.l1Clear c).setCore c {}).core c' := by
  simp only [Mod.core, Mod.coreEnterReset, Mod.cores_gateClear, Mod.cores_zeroRange, Mod.setCore, Mod.cores_evdClear]

@[simp] theorem Mod.core_coreEnterReset_self (m : Mod) (c : Nat) : (m.coreEnterReset c).core c = {} := by
  rw [Mod.core_coreEnterReset, Mod.core_setCore_self]

theorem Mod.core_coreEnterReset_ne (m : Mod) {c c' : Nat} (h : c' ≠ c) : (m.coreEnterReset c).core c' = m.core c' := by
  rw [Mod.core_coreEnterReset, Mod.core_setCore_ne _ _ h, Mod.core_l1Clear_ne m h]

@[simp] theorem Mod.mono_coreEnterReset (m : Mod) (c : Nat) : (m.coreEnterReset c).mono = m.mono := by
  simp only [Mod.coreEnterReset, Mod.mono_gateClear, Mod.mono_zeroRange, Mod.setCore_mono, Mod.mono_evdClear, Mod.mono_l1Clear]

@[simp] theorem Mod.mem_coreEnterReset (m : Mod) (c : Nat) : (m.coreEnterReset c).mem = cellsClear m.mem (coreScratch c) 0x20000 := by
  simp only [Mod.coreEnterReset, Mod.mem_gateClear, Mod.mem_zeroRange, Mod.setCore_mem, Mod.mem_evdClear, Mod.mem_l1Clear]

theorem Mod.req_coreEnterReset (m : Mod) (c : Nat) : ∀ r ∈ (m.coreEnterReset c).req, r.who ≠ .core c ∧ r.who ≠ .coreStore c := by
  intro r hr
  simp only [Mod.coreEnterReset, Mod.req_gateClear, Mod.req_zeroRange, List.mem_filter] at hr
  simpa using hr.2

theorem Mod.sameRun_evdClear (m : Mod) (c : Nat) : m.SameRun (m.evdClear c) :=
  ⟨rfl, rfl, rfl, fun r hr i => m.reg_evdClear c (by revert r; decide) i⟩

theorem Mod.sameRun_gateClear (m : Mod) (gate : Nat) : m.SameRun (m.gateClear gate) where
  phase := by rw [Mod.gateClear, Mod.put_phase]
  waking := by rw [Mod.gateClear, Mod.put_waking]
  rgnPhase := by rw [Mod.gateClear, Mod.put_rgnPhase]
  reg r hr i := m.reg_gateClear gate (by revert r; decide) i

theorem Mod.sameRun_coreEnterReset (m : Mod) (c : Nat) : m.SameRun (m.coreEnterReset c) := by
  have hl1 : m.SameRun (m.l1Clear c) := ⟨rfl, rfl, rfl, fun _ _ _ => rfl⟩
  have hzero : ∀ n : Mod, n.SameRun (n.zeroRange (coreScratch c) 0x20000) := fun _ => ⟨rfl, rfl, rfl, fun _ _ _ => rfl⟩
  have hcore : ∀ (n : Mod) (l : List MeshReq), n.SameRun { n.setCore c {} with req := l } := fun _ _ => ⟨rfl, rfl, rfl, fun _ _ _ => rfl⟩
  unfold Mod.coreEnterReset
  exact (hl1.trans (Mod.sameRun_evdClear _ c)).trans (((hcore _ _).trans (hzero _)).trans (Mod.sameRun_gateClear _ (16 + c)))

/-- A range that was cleared reads as bytes that nothing has written. -/
theorem Mod.bytes_of_mem_cellsClear {m t : Mod} {a n b : Nat} (ht : t.mem = cellsClear m.mem a n) (h : a ≤ b) (h' : b < a + n) :
    t.bytes b 1 = [memDefault b] := by
  have hget : cellGet (cellsClear m.mem a n) b = memDefault b :=
    Tbl.get_filter_out _ _ _ _ fun v => by simp [Nat.not_lt.mpr h, h']
  simp [Mod.bytes, cellsGet, ht, hget]

/-- The bytes of a core's scratch read 0 where nothing has written them (R249). -/
theorem memDefault_coreScratch (c : CoreId) {a : Nat} (h : coreScratch c ≤ a) : memDefault a = 0 := by
  have hout : ¬(dramTop ≤ a ∧ a < 0x1002000000) := by
    simp only [coreScratch] at h
    omega
  simp only [memDefault, hout, if_false]

theorem Mod.coreLeaveReset_eq (m : Mod) (c : Nat) : m.coreLeaveReset c =
    if m.coresRun && m.domOn c && !m.rgnDown (c / 8) then m.setCore c (freshCore c m.mono) else m := rfl

/-- Leaving reset changes nothing but the core. -/
theorem Mod.coreLeaveReset_keeps (m : Mod) (c : Nat) :
    (m.coreLeaveReset c).mono = m.mono ∧ (m.coreLeaveReset c).mem = m.mem ∧ (m.coreLeaveReset c).req = m.req ∧
      ∀ c', c' ≠ c → (m.coreLeaveReset c).core c' = m.core c' := by
  rw [Mod.coreLeaveReset_eq]
  split
  · exact ⟨rfl, rfl, rfl, fun c' h => Mod.core_setCore_ne m _ h⟩
  · exact ⟨rfl, rfl, rfl, fun _ _ => rfl⟩

/-- A core that is reset where its region is not leaves reset at once, unless cores may not run or its domain has no power. -/
theorem Mod.core_coreReset_self (m : Mod) (c : Nat) (h : m.rgnDown (c / 8) = false) :
    (m.coreReset c).core c = if m.coresRun && m.domOn c then freshCore c m.mono else {} := by
  have hrun := m.sameRun_coreEnterReset c
  rw [Mod.coreReset, Mod.coreLeaveReset_eq, hrun.coresRun, hrun.domOn, hrun.rgnDown, h, Bool.not_false, Bool.and_true]
  split
  · rw [Mod.core_setCore_self, Mod.mono_coreEnterReset]
  · exact m.core_coreEnterReset_self c

theorem Mod.core_coreReset_ne (m : Mod) {c c' : Nat} (h : c' ≠ c) : (m.coreReset c).core c' = m.core c' := by
  obtain ⟨-, -, -, hother⟩ := (m.coreEnterReset c).coreLeaveReset_keeps c
  rw [Mod.coreReset, hother c' h, m.core_coreEnterReset_ne h]

@[simp] theorem Mod.mono_coreReset (m : Mod) (c : Nat) : (m.coreReset c).mono = m.mono := by
  obtain ⟨hmono, -⟩ := (m.coreEnterReset c).coreLeaveReset_keeps c
  rw [Mod.coreReset, hmono, Mod.mono_coreEnterReset]

theorem Mod.req_coreReset (m : Mod) (c : Nat) : ∀ r ∈ (m.coreReset c).req, r.who ≠ .core c ∧ r.who ≠ .coreStore c := by
  obtain ⟨-, -, hreq, -⟩ := (m.coreEnterReset c).coreLeaveReset_keeps c
  rw [Mod.coreReset, hreq]
  exact m.req_coreEnterReset c

theorem Mod.bytes_coreReset_scratch (m : Mod) (c : CoreId) {a : Nat} (h : coreScratch c ≤ a) (h' : a < coreScratch c + 0x20000) :
    (m.coreReset c).bytes a 1 = [0] := by
  obtain ⟨-, hmem, -, -⟩ := (m.coreEnterReset c).coreLeaveReset_keeps c
  have hclear : (m.coreReset c).mem = cellsClear m.mem (coreScratch c) 0x20000 := by rw [Mod.coreReset, hmem, Mod.mem_coreEnterReset]
  rw [Mod.bytes_of_mem_cellsClear hclear h h', memDefault_coreScratch c h]

theorem halted_freshCore (c t : Nat) : (freshCore c t).halted = false := rfl

/-! ### The automatic reset of a halted core (R450) -/

/-- A core's reset that is asked for: absorbed in a region under reset (R447), else recorded and done. -/
theorem Mod.requestReset_core (m : Mod) (c : CoreId) (requester : Nat) : m.requestReset 1 c requester =
    if m.rgnDown (c.val / 8) then m.put F.FLT_RST_STATUS_ABSORBED 0 true else (m.resetRecord 1 c requester).coreReset c := by
  have hlt : ¬ c.val ≥ resetCount 1 := Nat.not_le.mpr c.isLt
  have hin : m.inReset 1 c = m.rgnDown (c.val / 8) := rfl
  have hcell : ∀ n : Mod, n.cellReset 1 c = n.coreReset c := fun _ => rfl
  rw [Mod.requestReset, if_neg hlt, hin, hcell]
  simp only [show (1 : Nat) ≠ 11 by decide, show (1 : Nat) ≠ 10 by decide, if_false]

/-- A core's reset asked for outside a region under reset: what it leaves of the core, its scratch, its requests and the other cores. -/
theorem Mod.requestReset_core_resets (m : Mod) (c : CoreId) (requester : Nat) (h : m.rgnDown (c.val / 8) = false) :
    let t := m.requestReset 1 c requester
    t.mono = m.mono ∧ t.core c = (if m.coresRun && m.domOn c then freshCore c m.mono else {}) ∧
      (∀ a, coreScratch c ≤ a → a < coreScratch c + 0x20000 → t.bytes a 1 = [0]) ∧
      (∀ c' : CoreId, c' ≠ c → t.core c' = m.core c') ∧ (∀ r ∈ t.req, r.who ≠ .core c ∧ r.who ≠ .coreStore c) := by
  have hrep := m.reported_resetRecord 1 c requester 0xFF
  have hrun := hrep.sameRun
  rw [Mod.requestReset_core, h, if_neg Bool.false_ne_true]
  refine ⟨(Mod.mono_coreReset _ c).trans hrep.mono, ?_, fun a => Mod.bytes_coreReset_scratch _ c, fun c' hc => ?_, Mod.req_coreReset _ c⟩
  · rw [Mod.core_coreReset_self _ c (by rw [hrun.rgnDown]; exact h), hrun.coresRun, hrun.domOn, hrep.mono]
  · rw [Mod.core_coreReset_ne _ fun e => hc (Fin.ext e), Mod.core, hrep.cores, Mod.core]

/-- Settles O56: time runs to the instant of the reset, which then is a core's reset like any other that is asked for. -/
theorem haltedCoreCellIsResetAfterOneMillisecond : Obligations.HaltedCoreCellIsResetAfterOneMillisecond := by
  intro s c m k at1
  have hrun : m.SameRun (m.toMono (k.haltAt + 1000000)) := m.sameRun_toMono _
  have hmono : (m.toMono (k.haltAt + 1000000)).mono = at1 := m.mono_toMono _
  have hcores : (m.toMono (k.haltAt + 1000000)).cores = m.cores := m.cores_toMono _
  have hact : exec (.automaticCellReset c) s = .next { s with mod :=
      if m.federated && k.halted then (m.toMono (k.haltAt + 1000000)).requestReset 1 c 4 else m } := rfl
  refine ⟨fun hhalt hup => ⟨_, hact, rfl, ?_⟩, fun hhalt hdown => ⟨_, hact, rfl, ?_⟩, fun hhalt => ⟨_, hact, rfl, ?_⟩⟩
  · simp only [hhalt, if_true]
    obtain ⟨ht, hcore, hscratch, hother, hreq⟩ :=
      (m.toMono (k.haltAt + 1000000)).requestReset_core_resets c 4 (by rw [hrun.rgnDown]; exact hup)
    rw [hrun.coresRun, hrun.domOn, hmono] at hcore
    refine ⟨ht.trans hmono, hcore, ?_, hscratch, fun c' hc => ?_, hreq⟩
    · rw [hcore]
      split
      · exact halted_freshCore c at1
      · rfl
    · rw [hother c' hc, Mod.core, hcores, Mod.core]
  · simp only [hhalt, if_true, Mod.requestReset_core, hrun.rgnDown, hdown]
    exact ⟨by rw [Mod.put_mono, hmono], Mod.flag_put_self _ _ 0 true (by decide) rfl, by rw [Mod.put_cores, hcores]⟩
  · simp only [hhalt, Bool.false_eq_true, if_false]

end Sys2Proof.Machine

/-!
Event routes and region resets (R451, R456): the numbers beyond a register's own that the statement speaks of too.
-/
namespace Sys2Proof.Machine

/-! ### Chains whose setting a restart leaves as it was -/

/-- A change that does nothing for any element of a list does nothing repeated over it. -/
theorem Mod.each_eq_self {α : Type} (m : Mod) (l : List α) (f : Mod → α → Mod) (h : ∀ x ∈ l, f m x = m) : m.each l f = m :=
  List.foldlRecOn (motive := (· = m)) l f rfl fun _ hb x hx => by rw [hb, h x hx]

/-- A chain whose setting is as before settles no more (R72). -/
theorem Mod.chainCommit_same (m old : Mod) (p : Nat) (b : Bool)
    (h : m.reg (if b then .SPL_PORT_CHB else .SPL_PORT_CHA) p = old.reg (if b then .SPL_PORT_CHB else .SPL_PORT_CHA) p) :
    m.chainCommit old p b = m := if_pos h

/-- The pipelines of a region none of whose chains has another setting at its restart: NOCOMMIT is shown. -/
theorem Mod.pipesRestart_same (m old : Mod) (g : Nat)
    (h : ∀ p ∈ regionPorts g, m.reg .SPL_PORT_CHA p = old.reg .SPL_PORT_CHA p ∧ m.reg .SPL_PORT_CHB p = old.reg .SPL_PORT_CHB p) :
    m.pipesRestart old g = m.each (span (8 * g) 8) Mod.showNoCommit := by
  have hchains : m.each (regionPorts g) (fun m p => (m.chainCommit old p false).chainCommit old p true) = m := by
    refine Mod.each_eq_self _ _ _ fun p hp => ?_
    obtain ⟨ha, hb⟩ := h p hp
    rw [Mod.chainCommit_same m old p false ha, Mod.chainCommit_same m old p true hb]
  rw [Mod.pipesRestart, hchains]

/-! ### A number beyond the 256 routes

The offset of EVR_ROUTE_LO number 0x30200, reckoned by its stride, is 0x301000, where region 0 has registers. A value that waits for
region 0's restart under this number's key therefore takes effect there. -/

/-- A number of EVR_ROUTE_LO whose offset falls in region 0. -/
def strayRoute : Nat := 0x30200

/-- A module whose region 0 is to restart, with a value of that number's route held for the restart. -/
def strayParked : Mod := { rgnPhase := [(0, 2)], parked := [(regKey .EVR_ROUTE_LO strayRoute, 1)] }

theorem reg_strayParked : strayParked.reg .EVR_ROUTE_LO strayRoute = 0 := by decide +kernel

theorem strayParked_idle : (∀ k : Nat, (strayParked.core k).sb = []) ∧ strayParked.mxJob 0 = none := ⟨fun _ => rfl, rfl⟩

theorem strayParked_chains : ∀ p ∈ regionPorts 0,
    (strayParked.regionRestart 0).reg .SPL_PORT_CHA p = strayParked.reg .SPL_PORT_CHA p ∧
      (strayParked.regionRestart 0).reg .SPL_PORT_CHB p = strayParked.reg .SPL_PORT_CHB p := by decide +kernel

/-- The restart of region 0 gives the stray number's route the value held for it. -/
theorem reg_restartRegion_strayParked : (strayParked.restartRegion 0).reg .EVR_ROUTE_LO strayRoute = 1 := by
  rw [Mod.restartRegion, Mod.pipesRestart_same _ _ 0 strayParked_chains]
  decide +kernel

/-- Refutes O60: the routes are claimed to stand for every number `n`, also beyond the 256 sources, and in every state, also one that
holds a value for such a number. In `strayParked`, with nothing under way in region 0, REGION_RESTART changes EVR_ROUTE_LO 0x30200 from 0 to 1. -/
theorem not_eventRoutesAtResetAndInRegionResets : ¬ Obligations.EventRoutesAtResetAndInRegionResets := by
  unfold Obligations.EventRoutesAtResetAndInRegionResets
  intro h
  obtain ⟨-, hsteps, -⟩ := h
  obtain ⟨-, -, hrestart, -⟩ := hsteps { mod := strayParked } { master := 32, sys := true } 0 0 0
  obtain ⟨hsb, hmx⟩ := strayParked_idle
  obtain ⟨t, ht, -, hsame⟩ := hrestart (fun k _ => hsb k) hmx
  have hexec : exec (.regionRestart 0) { mod := strayParked } = .next { mod := strayParked.restartRegion 0 } := rfl
  have hmod : t.mod = strayParked.restartRegion 0 := by rw [← Host.Outcome.next.inj (hexec.symm.trans ht)]
  obtain ⟨hlo, -⟩ := hsame strayRoute
  rw [hmod, reg_restartRegion_strayParked, reg_strayParked] at hlo
  exact Nat.one_ne_zero hlo

end Sys2Proof.Machine

/-!
The queue and time: what a step takes, and that every command completes (R105).
-/
namespace Sys2Proof.Machine

/-- Settles O1: both sides are the same command on the same state. -/
theorem stepRunsFrontCommand : Obligations.StepRunsFrontCommand := fun _ _ _ => rfl

/-- A command ends in a next state and leaves the queue as it is. -/
theorem exec_next (c : Instr) (s : State) : ∃ t, exec c s = .next t ∧ t.pending = s.pending := by
  cases c <;> exact ⟨_, rfl, rfl⟩

/-- Settles O3. -/
theorem everyCommandCompletes : Obligations.EveryCommandCompletes := exec_next

end Sys2Proof.Machine

/-!
The queue and time: what a step takes, and that every command completes (R105).
-/
namespace Sys2Proof.Machine

theorem Mod.gain_idle {m : Mod} (h : m.freqAdj = 0) (hc : m.corr = 0) (ha : m.acc = 0) (d : Nat) : m.gain d = (0, 0) := by
  simp [Mod.gain, h, hc, ha, slewLimit]

theorem Mod.freqAdj_of_src_zero {m : Mod} (h : m.rd F.TB_CTRL_SRC = 0) : m.freqAdj = 0 := by
  have hsrc : m.tbSrc = 0 := by
    simp [Mod.tbSrc, h]
  simp [Mod.freqAdj, hsrc]

/-- With the local oscillator and nothing left to correct TB_NOW runs as TB_MONO does (R105, R108). -/
theorem Mod.nowAfter_idle {m : Mod} (h : m.rd F.TB_CTRL_SRC = 0) (hc : m.corr = 0) (ha : m.acc = 0) (d : Nat) : m.nowAfter d = m.now + d := by
  simp only [Mod.nowAfter, Mod.gain_idle (Mod.freqAdj_of_src_zero h) hc ha]
  omega

/-- Settles O2: an empty queue lets one nanosecond pass. -/
theorem emptyQueueIsOneNanosecond : Obligations.EmptyQueueIsOneNanosecond := by
  intro s hq
  have hstep : step s = .next { s with mod := s.mod.advance 1 } := by simp [step, hq]
  exact ⟨_, hstep, hq, rfl, rfl, fun h hc ha => Mod.nowAfter_idle h hc ha 1⟩

/-- Settles O4. -/
theorem registerFileReadsWhatWasWritten : Obligations.RegisterFileReadsWhatWasWritten :=
  ⟨fun m r i v => m.reg_setReg_self r i v, fun m _ _ _ _ v h => m.reg_setReg_ne v h,
    fun m f g i v hf hr ha => ⟨m.rd_wr_self f i v hf, m.rd_wr_apart f g i v hr hf ha⟩⟩

/-- Settles O7: the decoder evaluated on each word. -/
theorem sampleLurikWordsDecode : Obligations.SampleLurikWordsDecode := by
  unfold Obligations.SampleLurikWordsDecode
  decide

/-- A core whose level has a copy under way that its word abandons. -/
def copyingCore : Core := { copy := some (0, 0, false) }

/-- Refutes O11: the next word also ends a copy its level had begun (R195), which the statement's right side keeps. In `copyingCore` no
loop is active, so that side is the core with `copy` as it was. -/
theorem not_loopEndEvaluation : ¬ Obligations.LoopEndEvaluation := by
  intro h
  have hcopy := congrArg Core.copy (h.1 copyingCore)
  revert hcopy
  decide

/-- A core that is out of reset and powered, whose line of code stands in its instruction cache, and which executes no word. -/
def issuingMod : Mod :=
  (({} : Mod).setDom 0 true).setCore 0 { freshCore 0 0 with l1i := [(resetVector 0 % 2 ^ 52 / 64, 0)] }

theorem ready_issuingMod : Ready issuingMod 0 := by decide

/-- Refutes O8: its first part claims that the fetch changes nothing of a core but its L1 copies and debug's single step. The fetch also marks
that a word executes: `word` is clear in `issuingMod` and set once core 0 has fetched. -/
theorem not_integerRegisterOperationsWriteTheirResult : ¬ Obligations.IntegerRegisterOperationsWriteTheirResult := by
  intro h
  have hword := congrArg Core.word ((h.1 issuingMod 0 ready_issuingMod).2 0)
  revert hword
  decide

end Sys2Proof.Machine

/-!
How a word of a Lurik core ends, and the integer operations on 64-bit words (R178).
-/
namespace Sys2Proof.Machine

/-! ### The ends of a word -/

theorem settle_seq {m : Mod} {c : Nat} (w : Nat) (hw : (m.core c).word = true) : settle c w (.seq m) = m.setCore c (m.core c).next.retire := by
  simp [settle, IOut.mod, hw]

theorem settle_jump {m : Mod} {c : Nat} (w : Nat) (ip : Key) (hw : (m.core c).word = true) :
    settle c w (.jump m ip) = m.setCore c { (m.core c).retire with ip := ip } := by
  simp [settle, IOut.mod, hw]

theorem settle_exc {m : Mod} {c : Nat} (w : Nat) (e : Exc) (pair slotB : Bool) (hw : (m.core c).word = true) :
    settle c w (.exc m e pair slotB) = m.coreExc c e.code e.sub e.ea w pair slotB := by
  simp [settle, IOut.mod, hw]

theorem settle_stay {m : Mod} {c : Nat} (w : Nat) (hw : (m.core c).word = true) :
    settle c w (.stay m) = m.setCore c { m.core c with word := false } := by
  simp [settle, IOut.mod, hw]

@[simp] theorem Core.word_setBank (k : Core) (l : Nat) (b : Bank) : (k.setBank l b).word = k.word := rfl
@[simp] theorem Core.word_setK (k : Core) (l r : Nat) (v : Key) : (k.setK l r v).word = k.word := rfl
@[simp] theorem Core.word_setSt (k : Core) (l lo w v : Nat) : (k.setSt l lo w v).word = k.word := rfl
@[simp] theorem Core.word_setLoopReg (k : Core) (l x n v : Nat) : (k.setLoopReg l x n v).word = k.word := rfl
@[simp] theorem Core.word_btbAfter (k : Core) (a b : Nat) (taken : Bool) : (k.btbAfter a b taken).word = k.word := by
  unfold Core.btbAfter
  split
  · rfl
  · dsimp only
    split
    · rfl
    · split
      · split <;> rfl
      · rfl

/-- The word of a core that is about to execute. -/
theorem Ready.word {m : Mod} {c : Nat} (h : Ready m c) : ((m.fetched c).core c).word = true := h.2.2.2.2

@[simp] theorem State.fetched_mod (s : State) (c : Nat) : (s.fetched c).mod = s.mod.fetched c := rfl
@[simp] theorem State.fetched_pending (s : State) (c : Nat) : (s.fetched c).pending = s.pending := rfl

theorem Mod.setCore_issuing (m : Mod) (c : Nat) (k : Core) : (m.issuing c).setCore c k = m.setCore c k := m.setCore_setCore c _ _

theorem Mod.setCd_issuing (m : Mod) (c r v : Nat) :
    (m.issuing c).setCd c r v = m.setCore c ((m.core c).atIssue.setD (m.core c).level r v) := by
  rw [Mod.setCd, Mod.core_issuing, Mod.setCore_issuing, Core.level_atIssue]

theorem Mod.setCk_issuing (m : Mod) (c r : Nat) (v : Key) :
    (m.issuing c).setCk c r v = m.setCore c ((m.core c).atIssue.setK (m.core c).level r (m.filterKey v)) := by
  rw [Mod.setCk, Mod.core_issuing, Mod.setCore_issuing, Core.level_atIssue, Mod.filterKey_issuing]

/-- A word that issues, whose body changes its core alone and goes on in sequence. -/
theorem coreBecomes_of_seq {s : State} {c : CoreId} (h : Ready s.mod c) (uses : List RegName) {body : Body} {k : Core}
    (hb : body ((s.mod.fetched c).issuing c) c = .seq ((s.mod.fetched c).setCore c k)) (hk : k.word = true) :
    CoreBecomes (s.fetched c).pending (s.fetched c).mod c k.next.retire { s with mod := s.mod.issue c uses body } := by
  rw [Mod.issue_ready h, hb, settle_seq _ (by simpa using hk), Mod.core_setCore_self, Mod.setCore_setCore]
  exact coreBecomes_setCore _ _ _ _

/-- A word that issues, whose body changes its core alone and transfers control. -/
theorem coreBecomes_of_jump {s : State} {c : CoreId} (h : Ready s.mod c) (uses : List RegName) {body : Body} {k : Core} {ip : Key}
    (hb : body ((s.mod.fetched c).issuing c) c = .jump ((s.mod.fetched c).setCore c k) ip) (hk : k.word = true) :
    CoreBecomes (s.fetched c).pending (s.fetched c).mod c { k.retire with ip := ip } { s with mod := s.mod.issue c uses body } := by
  rw [Mod.issue_ready h, hb, settle_jump _ _ (by simpa using hk), Mod.core_setCore_self, Mod.setCore_setCore]
  exact coreBecomes_setCore _ _ _ _

/-- A word that issues, whose body raises an exception before it changes anything. -/
theorem issue_of_exc {m : Mod} {c : CoreId} (h : Ready m c) (uses : List RegName) {body : Body} {e : Exc} {pair slotB : Bool}
    (hb : body ((m.fetched c).issuing c) c = .exc ((m.fetched c).issuing c) e pair slotB) :
    m.issue c uses body = ((m.fetched c).issuing c).coreExc c e.code e.sub e.ea ((m.fetched c).core c).ip.cursor pair slotB := by
  rw [Mod.issue_ready h, hb, settle_exc _ _ _ _ (by simpa using h.word)]

/-! ### Numbers and words -/

theorem signedOf_toNat {w : Nat} (x : BitVec w) : signedOf w x.toNat = x.toInt := by
  rw [signedOf, BitVec.toInt_eq_toNat_cond, Nat.mod_eq_of_lt x.isLt]
  have hx := x.isLt
  cases w with
  | zero => simp at hx; simp [hx]
  | succ w =>
    have hp : 2 ^ (w + 1) = 2 * 2 ^ w := Nat.pow_succ'
    simp only [Nat.add_sub_cancel]
    split <;> split <;> omega

theorem wrapTo_eq_ofInt (w : Nat) (z : Int) : wrapTo w z = (BitVec.ofInt w z).toNat := by
  rw [wrapTo, BitVec.toNat_ofInt]

theorem sext_toNat {w : Nat} (x : BitVec w) : sext w x.toNat = (x.signExtend 64).toNat := by
  rw [sext, signedOf_toNat, wrapTo_eq_ofInt, BitVec.signExtend]

/-- A register of the current level is a 64-bit word. -/
theorem Mod.toNat_word (m : Mod) (c r : Nat) : (m.word c r).toNat = m.cd c r :=
  Nat.mod_eq_of_lt (Core.d_lt _ _ _)

/-! ### The results of the integer operations (R178) -/

theorem b2n_decide_toNat (p : Prop) [Decidable p] : b2n (decide p) = (if p then 1 else 0 : BitVec 64).toNat := by
  by_cases h : p <;> simp [b2n, h]

theorem slt_iff_signed (a b : BitVec 64) : a.slt b = decide (signedOf 64 a.toNat < signedOf 64 b.toNat) := by
  rw [signedOf_toNat, signedOf_toNat, BitVec.slt]

section
variable (a b : BitVec 64)

theorem Alu.result_add : Alu.result .add a.toNat b.toNat = (a + b).toNat := (BitVec.toNat_add a b).symm

theorem Alu.result_sub : Alu.result .sub a.toNat b.toNat = (a - b).toNat := by
  rw [BitVec.toNat_sub]
  have ha := a.isLt
  have hb := b.isLt
  simp only [Alu.result, wrapTo]
  omega

theorem Alu.result_and : Alu.result .and a.toNat b.toNat = (a &&& b).toNat := (BitVec.toNat_and a b).symm
theorem Alu.result_or : Alu.result .or a.toNat b.toNat = (a ||| b).toNat := (BitVec.toNat_or a b).symm
theorem Alu.result_xor : Alu.result .xor a.toNat b.toNat = (a ^^^ b).toNat := (BitVec.toNat_xor a b).symm
theorem Alu.result_sll (k : Nat) : Alu.result .sll a.toNat k = (a <<< (k % 64)).toNat := BitVec.toNat_shiftLeft.symm
theorem Alu.result_srl (k : Nat) : Alu.result .srl a.toNat k = (a >>> (k % 64)).toNat := (BitVec.toNat_ushiftRight a _).symm

theorem Alu.result_sra (k : Nat) : Alu.result .sra a.toNat k = (a.sshiftRight (k % 64)).toNat := by
  rw [BitVec.sshiftRight, ← wrapTo_eq_ofInt, ← signedOf_toNat]
  rfl

theorem Alu.result_slt : Alu.result .slt a.toNat b.toNat = (if a.slt b then 1 else 0 : BitVec 64).toNat := by
  simp only [slt_iff_signed, decide_eq_true_eq]
  exact b2n_decide_toNat _

theorem Alu.result_sltu : Alu.result .sltu a.toNat b.toNat = (if a < b then 1 else 0 : BitVec 64).toNat := b2n_decide_toNat (a < b)

theorem Alu.result_min : Alu.result .min a.toNat b.toNat = (if a.slt b then a else b).toNat := by
  simp only [slt_iff_signed, decide_eq_true_eq, apply_ite BitVec.toNat]
  rfl

theorem Alu.result_max : Alu.result .max a.toNat b.toNat = (if a.slt b then b else a).toNat := by
  simp only [slt_iff_signed, decide_eq_true_eq, apply_ite BitVec.toNat]
  rfl

theorem Alu.result_minu : Alu.result .minu a.toNat b.toNat = (if a < b then a else b).toNat := by
  rw [apply_ite BitVec.toNat]
  rfl

theorem Alu.result_maxu : Alu.result .maxu a.toNat b.toNat = (if a < b then b else a).toNat := by
  rw [apply_ite BitVec.toNat]
  rfl

theorem Alu.result_mul : Alu.result .mul a.toNat b.toNat = (a * b).toNat := (BitVec.toNat_mul a b).symm

end

theorem testBit_withBits (n lo w v i : Nat) : (withBits n lo w v).testBit i =
    if i < lo then n.testBit i else if i < lo + w then v.testBit (i - lo) else n.testBit i := by
  have hlow : n % 2 ^ lo < 2 ^ lo := Nat.mod_lt _ (Nat.two_pow_pos lo)
  have hmid : v % 2 ^ w < 2 ^ w := Nat.mod_lt _ (Nat.two_pow_pos w)
  rw [withBits_eq, Nat.add_comm, Nat.testBit_two_pow_mul_add _ hlow, Nat.add_comm (v % 2 ^ w), Nat.testBit_two_pow_mul_add _ hmid,
    Nat.testBit_mod_two_pow, Nat.testBit_mod_two_pow, Nat.testBit_div_two_pow]
  by_cases h1 : i < lo
  · simp [h1]
  · by_cases h2 : i < lo + w
    · have h3 : i - lo < w := by omega
      simp [h1, h2, h3]
    · have h3 : ¬ i - lo < w := by omega
      have h4 : i - lo - w + (lo + w) = i := by omega
      simp [h1, h2, h3, h4]

/-- INSI.n on words: the 14 bits from bit 14 n, of which n = 4 has 8, replaced. -/
theorem toNat_insi (a : BitVec 64) (imm : BitVec 14) (n : Nat) :
    withBits a.toNat (14 * n) (if n = 4 then 8 else 14) imm.toNat % 2 ^ 64 =
      ((a &&& ~~~((0x3FFF : BitVec 64) <<< (14 * n))) ||| (imm.setWidth 64 <<< (14 * n))).toNat := by
  refine Nat.eq_of_testBit_eq fun i => ?_
  rw [Nat.testBit_mod_two_pow, testBit_withBits, ← BitVec.getLsbD, ← BitVec.getLsbD, ← BitVec.getLsbD]
  have hmask : ∀ j : Nat, (0x3FFF : BitVec 64).getLsbD j = decide (j < 14) := by
    intro j
    have h : (0x3FFF : BitVec 64).toNat = 2 ^ 14 - 1 := rfl
    rw [BitVec.getLsbD, h, Nat.testBit_two_pow_sub_one]
  have himm : ∀ j : Nat, 14 ≤ j → imm.getLsbD j = false := fun j hj => BitVec.getLsbD_of_ge _ _ hj
  by_cases hi : i < 64
  · simp only [BitVec.getLsbD_or, BitVec.getLsbD_and, BitVec.getLsbD_not, BitVec.getLsbD_shiftLeft, BitVec.getLsbD_setWidth, hmask, hi,
      decide_true, Bool.true_and]
    by_cases h1 : i < 14 * n
    · simp [h1]
    · have h64 : i - 14 * n < 64 := by omega
      by_cases h2 : i - 14 * n < 14
      · have h3 : i < 14 * n + (if n = 4 then 8 else 14) := by split <;> omega
        simp [h1, h2, h3, h64]
      · have h3 : ¬ i < 14 * n + (if n = 4 then 8 else 14) := by split <;> omega
        simp [h1, h2, h3, himm _ (Nat.le_of_not_lt h2)]
  · simp [hi]

end Sys2Proof.Machine

/-!
The words that write one register, and the branches (R143 to R147, R178, R186).
-/
namespace Sys2Proof.Machine

/-! ### Words that write a key register -/

/-- A word that issues, with a body that writes `v` to k register `kd` and goes on in sequence, changes nothing else. -/
theorem writesK_of_issue {s : State} {c : CoreId} (h : Ready s.mod c) (uses : List RegName) {body : Body} {kd : Nat} {v : Key}
    (hb : body ((s.mod.fetched c).issuing c) c = .seq (((s.mod.fetched c).issuing c).setCk c kd v)) :
    WritesK c kd ((s.mod.fetched c).filterKey v) (s.fetched c) { s with mod := s.mod.issue c uses body } :=
  coreBecomes_of_seq h uses (hb.trans (congrArg IOut.seq (Mod.setCk_issuing _ _ _ _))) (by simpa using h.word)

/-- A key operation whose derivation is allowed writes the derived key. -/
theorem writesK_of_keyOp {s : State} {c : CoreId} (h : Ready s.mod c) (uses : List RegName) {body : Body} {kd : Nat} {r : Except Nat Key} {v : Key}
    (hb : body ((s.mod.fetched c).issuing c) c = keyOp ((s.mod.fetched c).issuing c) c kd r) (hr : r = .ok v) :
    WritesK c kd ((s.mod.fetched c).filterKey v) (s.fetched c) { s with mod := s.mod.issue c uses body } :=
  writesK_of_issue h uses (by rw [hb, hr]; rfl)

@[simp] theorem Core.sys_atIssue (k : Core) : k.atIssue.sys = k.sys := rfl

/-! ### Integer operations with an immediate -/

/-- A word whose body writes the result of an integer operation on a register and an immediate. -/
theorem bodyAluImm_writesD {s : State} {c : CoreId} (h : Ready s.mod c) (uses : List RegName) (o : Alu) (rd rs1 : DReg) (imm : Nat) {v : BitVec 64}
    (hv : o.result ((s.fetched c).mod.word c rs1).toNat imm = v.toNat) :
    WritesD c rd v.toNat (s.fetched c) { s with mod := s.mod.issue c uses (bodyAluImm o rd rs1 imm) } := by
  refine writesD_of_issue h uses ?_
  rw [bodyAluImm, Mod.cd_issuing, ← hv, Mod.toNat_word]
  rfl

theorem toNat_mod64 (sh : BitVec 6) : sh.toNat % 64 = sh.toNat := Nat.mod_eq_of_lt sh.isLt

/-- INSI.n of an immediate that fits writes the word with its bits replaced. -/
theorem bodyInsi_eq (m : Mod) (c : Nat) (rd rs1 : DReg) (imm : BitVec 14) (n : Fin 5) (h4 : n.val = 4 → imm.toNat < 256) :
    bodyInsi n rd rs1 imm.toNat (m.issuing c) c = .seq ((m.issuing c).setCd c rd
      ((m.word c rs1 &&& ~~~((0x3FFF : BitVec 64) <<< (14 * n.val))) ||| (imm.setWidth 64 <<< (14 * n.val))).toNat) := by
  have hfits : (decide (n.val = 4) && decide (imm.toNat ≥ 256)) = false := by
    by_cases hn : n.val = 4
    · have := h4 hn
      simp [hn]
      omega
    · simp [hn]
  rw [← toNat_insi, Mod.toNat_word, bodyInsi, Mod.cd_issuing, if_neg (by simpa using hfits)]

/-- Settles O9: each operation by its result on words; the immediate is a word, sign- or zero-extended. -/
theorem integerImmediateOperationsWriteTheirResult : Obligations.IntegerImmediateOperationsWriteTheirResult := by
  intro s0 c rd rs1 imm sh n h s h4 a se ze
  have hse : sext 14 imm.toNat = se.toNat := sext_toNat imm
  have hze : imm.toNat = ze.toNat := (BitVec.toNat_setWidth_of_le (by decide)).symm
  simp only [List.forall_mem_cons, List.not_mem_nil, false_imp_iff, implies_true, and_true]
  refine ⟨⟨_, rfl, bodyAluImm_writesD h _ .add rd rs1 _ ?_⟩, ⟨_, rfl, bodyAluImm_writesD h _ .slt rd rs1 _ ?_⟩,
    ⟨_, rfl, bodyAluImm_writesD h _ .sltu rd rs1 _ ?_⟩, ⟨_, rfl, bodyAluImm_writesD h _ .and rd rs1 _ ?_⟩,
    ⟨_, rfl, bodyAluImm_writesD h _ .or rd rs1 _ ?_⟩, ⟨_, rfl, bodyAluImm_writesD h _ .xor rd rs1 _ ?_⟩,
    ⟨_, rfl, bodyAluImm_writesD h _ .sll rd rs1 _ ?_⟩, ⟨_, rfl, bodyAluImm_writesD h _ .srl rd rs1 _ ?_⟩,
    ⟨_, rfl, bodyAluImm_writesD h _ .sra rd rs1 _ ?_⟩, ⟨_, rfl, writesD_of_issue h _ ?_⟩⟩
  case refine_1 => rw [hse]; exact Alu.result_add a se
  case refine_2 => rw [hse]; exact Alu.result_slt a se
  case refine_3 => rw [hse]; exact Alu.result_sltu a se
  case refine_4 => rw [hze]; exact Alu.result_and a ze
  case refine_5 => rw [hze]; exact Alu.result_or a ze
  case refine_6 => rw [hze]; exact Alu.result_xor a ze
  case refine_7 => rw [Alu.result_sll, toNat_mod64]
  case refine_8 => rw [Alu.result_srl, toNat_mod64]
  case refine_9 => rw [Alu.result_sra, toNat_mod64]
  case refine_10 => exact bodyInsi_eq _ c rd rs1 imm n h4

end Sys2Proof.Machine

/-!
Branches and jumps, and the key operations (R143 to R147, R186).
-/
namespace Sys2Proof.Machine

/-! ### Branches -/

theorem Core.word_leaveLoops (k : Core) (t : Nat) : (k.leaveLoops t).word = k.word :=
  List.foldlRecOn (motive := fun x : Core => x.word = k.word) (upTo 4) _ rfl fun _ hb n _ => by
    split
    · exact hb
    · exact hb

/-- The core after a branch or jump by `words` that is taken. -/
def Core.branched (k : Core) (words : Int) : Core :=
  let dest := k.ip.advance (4 * words)
  { ((k.btbAfter k.ip.cursor dest.cursor true).leaveLoops dest.cursor).retire with ip := dest }

theorem takeBranch_becomes {s : State} {c : CoreId} (h : Ready s.mod c) (uses : List RegName) {body : Body} (words : Int)
    (hb : body ((s.mod.fetched c).issuing c) c = takeBranch ((s.mod.fetched c).issuing c) c words) :
    CoreBecomes (s.fetched c).pending (s.fetched c).mod c (((s.fetched c).mod.core c).atIssue.branched words)
      { s with mod := s.mod.issue c uses body } := by
  refine coreBecomes_of_jump h uses (hb.trans ?_) ?_
  · rw [takeBranch, Mod.core_issuing, Mod.setCore_issuing]
    rfl
  · rw [Core.word_leaveLoops, Core.word_btbAfter]
    simpa using h.word

/-- What a conditional branch leaves. -/
theorem bodyBranch_becomes {s : State} {c : CoreId} (h : Ready s.mod c) (uses : List RegName) (o : Cmp) (rs1 rs2 : DReg) (off : BitVec 14) {b : Bool}
    (hb : o.holds ((s.fetched c).mod.word c rs1).toNat ((s.fetched c).mod.word c rs2).toNat = b) :
    let k := ((s.fetched c).mod.core c).atIssue
    CoreBecomes (s.fetched c).pending (s.fetched c).mod c
      (if b then k.branched off.toInt else (k.btbAfter k.ip.cursor 0 false).next.retire)
      { s with mod := s.mod.issue c uses (bodyBranch o rs1 rs2 off.toNat) } := by
  rw [Mod.toNat_word, Mod.toNat_word, State.fetched_mod] at hb
  cases b with
  | true =>
    refine takeBranch_becomes h uses off.toInt ?_
    rw [bodyBranch, Mod.cd_issuing, Mod.cd_issuing, if_pos hb, signedOf_toNat]
  | false =>
    refine coreBecomes_of_seq h uses ?_ ?_
    · rw [bodyBranch, Mod.cd_issuing, Mod.cd_issuing, if_neg (by simpa using hb), Mod.core_issuing]
      exact congrArg IOut.seq (Mod.setCore_issuing _ _ _)
    · rw [Core.word_btbAfter]
      simpa using h.word

section
variable (a b : BitVec 64)

theorem Cmp.holds_eq : Cmp.holds .eq a.toNat b.toNat = decide (a = b) := by
  simp [Cmp.holds, BitVec.toNat_inj, beq_eq_decide]
theorem Cmp.holds_ne : Cmp.holds .ne a.toNat b.toNat = decide (a ≠ b) := by
  simp [Cmp.holds, bne, BitVec.toNat_inj, beq_eq_decide]
theorem Cmp.holds_lt : Cmp.holds .lt a.toNat b.toNat = a.slt b := (slt_iff_signed a b).symm
theorem Cmp.holds_ge : Cmp.holds .ge a.toNat b.toNat = b.sle a := by
  rw [Cmp.holds, signedOf_toNat, signedOf_toNat, BitVec.sle]
theorem Cmp.holds_ltu : Cmp.holds .ltu a.toNat b.toNat = decide (a < b) := rfl
theorem Cmp.holds_geu : Cmp.holds .geu a.toNat b.toNat = decide (b ≤ a) := rfl

end

/-- Settles O10. -/
theorem branchesMoveTheInstructionKey : Obligations.BranchesMoveTheInstructionKey := by
  intro s0 c rs1 rs2 off far h s a b k dest taken passed
  simp only [List.forall_mem_cons, List.not_mem_nil, false_imp_iff, implies_true, and_true]
  refine ⟨⟨⟨_, rfl, bodyBranch_becomes h _ .eq rs1 rs2 off (Cmp.holds_eq a b)⟩, ⟨_, rfl, bodyBranch_becomes h _ .ne rs1 rs2 off (Cmp.holds_ne a b)⟩,
    ⟨_, rfl, bodyBranch_becomes h _ .lt rs1 rs2 off (Cmp.holds_lt a b)⟩, ⟨_, rfl, bodyBranch_becomes h _ .ge rs1 rs2 off (Cmp.holds_ge a b)⟩,
    ⟨_, rfl, bodyBranch_becomes h _ .ltu rs1 rs2 off (Cmp.holds_ltu a b)⟩, ⟨_, rfl, bodyBranch_becomes h _ .geu rs1 rs2 off (Cmp.holds_geu a b)⟩⟩,
    ⟨_, rfl, takeBranch_becomes h _ far.toInt ?_⟩⟩
  rw [bodyJ, signedOf_toNat]

/-! ### Key operations -/

/-- The words that derive a key. -/
theorem keyOperations_writeTheDerivedKey {s0 : State} {c : CoreId} (kd ks kt : KReg) (rs rd : DReg) (f : Fin 12) (h : Ready s0.mod c) :
    let s := s0.fetched c
    let a := s.mod.ck c ks
    let b := s.mod.ck c kt
    let n := s.mod.cd c rs
    (∀ e ∈ [(Instr.kmove c kd ks, Except.ok { a with tag := a.live }), (.kadd c kd ks rs, a.add n), (.kbound c kd ks rs, a.bound n true),
        (.kboundr c kd ks rs, a.bound n false), (.krights c kd ks rs, a.narrowRights (n % 1024)), (.kloc c kd ks rs, a.narrowLoc (n % 4)),
        (.kseal c kd ks kt, a.seal b), (.kunseal c kd ks kt, a.unseal b)],
      ∀ v, e.2 = .ok v → ∃ t, exec e.1 s0 = .next t ∧ WritesK c kd (s.mod.filterKey v) s t) ∧
    (∀ v, (s.mod.core c).sys = true → a.reepoch (n % 64) = .ok v →
      ∃ t, exec (.kreepoch c kd ks rs) s0 = .next t ∧ WritesK c kd (s.mod.filterKey v) s t) ∧
    (∃ t, exec (.ktest c rd ks kt) s0 = .next t ∧ WritesD c rd (b2n (a.test b)) s t) ∧
    ∃ t, exec (.kget c rd ks f) s0 = .next t ∧ WritesD c rd (a.get f) s t := by
  intro s a b n
  have hck : ∀ r : Nat, ((s0.mod.fetched c).issuing c).ck c r = s.mod.ck c r := fun r => Mod.ck_issuing _ _ _
  have hcd : ∀ r : Nat, ((s0.mod.fetched c).issuing c).cd c r = s.mod.cd c r := fun r => Mod.cd_issuing _ _ _
  simp only [List.forall_mem_cons, List.not_mem_nil, false_imp_iff, implies_true, and_true]
  refine ⟨⟨fun v hv => ⟨_, rfl, writesK_of_issue h _ ?_⟩, fun v hv => ⟨_, rfl, writesK_of_keyOp h _ ?_ hv⟩, fun v hv => ⟨_, rfl, writesK_of_keyOp h _ ?_ hv⟩,
    fun v hv => ⟨_, rfl, writesK_of_keyOp h _ ?_ hv⟩, fun v hv => ⟨_, rfl, writesK_of_keyOp h _ ?_ hv⟩, fun v hv => ⟨_, rfl, writesK_of_keyOp h _ ?_ hv⟩,
    fun v hv => ⟨_, rfl, writesK_of_keyOp h _ ?_ hv⟩, fun v hv => ⟨_, rfl, writesK_of_keyOp h _ ?_ hv⟩⟩,
    fun v hsys hv => ⟨_, rfl, writesK_of_keyOp h _ ?_ hv⟩, execKtest_writesD h rd ks kt, ⟨_, rfl, writesD_of_issue h _ ?_⟩⟩
  case refine_1 => rw [bodyKmove, hck, ← Except.ok.inj hv]
  case refine_2 => rw [bodyKadd, hck, hcd]
  case refine_3 => rw [bodyKbound, hck, hcd]
  case refine_4 => rw [bodyKbound, hck, hcd]
  case refine_5 => rw [bodyKrights, hck, hcd]
  case refine_6 => rw [bodyKloc, hck, hcd]
  case refine_7 => rw [bodyKseal, hck, hck]
  case refine_8 => rw [bodyKunseal, hck, hck]
  case refine_9 => rw [bodyKreepoch, hck, hcd, Mod.core_issuing, Core.sys_atIssue, if_neg (by simpa [s] using hsys)]
  case refine_10 => rw [bodyKget, hck]

/-- JK and JKL through a key that may be jumped through (R145). -/
theorem keyJumps_replaceTheInstructionKey {s0 : State} {c : CoreId} (kd ks : KReg) {v : Key} (h : Ready s0.mod c) :
    let s := s0.fetched c
    (s.mod.ck c ks).jump = .ok v →
    let k := (s.mod.core c).atIssue
    (∃ t, exec (.jk c ks) s0 = .next t ∧ CoreBecomes s.pending s.mod c { k.retire with ip := s.mod.filterKey v } t) ∧
    ∃ t, exec (.jkl c kd ks) s0 = .next t ∧
      CoreBecomes s.pending s.mod c { (k.setK k.level kd (s.mod.filterKey k.ip.link)).retire with ip := s.mod.filterKey v } t := by
  intro s hv k
  have hjump : (((s0.mod.fetched c).issuing c).ck c ks).jump = .ok v := by rw [Mod.ck_issuing]; exact hv
  have hword : k.word = true := by simpa [k, s] using h.word
  refine ⟨⟨_, rfl, coreBecomes_of_jump h _ ?_ hword⟩, ⟨_, rfl, coreBecomes_of_jump h _ ?_ (by simpa using hword)⟩⟩
  · simp only [bodyJk, hjump, Mod.filterKey_issuing]
    rfl
  · simp only [bodyJkl, hjump, Mod.setCk_issuing, Mod.core_issuing, Mod.filterKey_issuing]
    rfl

/-- Settles O13. -/
theorem keyOperationsWriteTheDerivedKey : Obligations.KeyOperationsWriteTheDerivedKey :=
  ⟨fun _ _ kd ks kt rs rd f h => keyOperations_writeTheDerivedKey kd ks kt rs rd f h, fun _ _ kd ks _ h => keyJumps_replaceTheInstructionKey kd ks h⟩

end Sys2Proof.Machine

/-!
Monotonicity of key derivation (R137, R138, R142 to R145, R148).
-/
namespace Sys2Proof.Machine

/-! ### Fields of a key after one is written -/

theorem Key.field_withField_self (k : Key) {lo w : Nat} (v : Nat) (h : lo + w ≤ 128) : (k.withField lo w v).field lo w = v % 2 ^ w := by
  rw [Key.field, Key.withField, BitVec.toNat_ofNat, Nat.mod_eq_of_lt (withBits_lt _ _ _ _ _ k.bits.isLt h), bitsOf_withBits_self]

theorem Key.field_withField_apart (k : Key) {lo w lo' w' : Nat} (v : Nat) (h : lo + w ≤ 128) (ha : lo' + w' ≤ lo ∨ lo + w ≤ lo') :
    (k.withField lo w v).field lo' w' = k.field lo' w' := by
  rw [Key.field, Key.withField, BitVec.toNat_ofNat, Nat.mod_eq_of_lt (withBits_lt _ _ _ _ _ k.bits.isLt h)]
  rcases ha with ha | ha
  · exact bitsOf_withBits_below _ _ _ _ _ _ ha
  · exact bitsOf_withBits_above _ _ _ _ _ _ ha

@[simp] theorem Key.tag_withField (k : Key) (lo w v : Nat) : (k.withField lo w v).tag = k.tag := rfl
@[simp] theorem Key.field_with_tag (k : Key) (b : Bool) (lo w : Nat) : ({ k with tag := b } : Key).field lo w = k.field lo w := rfl

theorem Key.tag_of_live {k : Key} (h : k.live = true) : k.tag = true := (Bool.and_eq_true_iff.mp h).1
theorem Key.fieldsOk_of_live {k : Key} (h : k.live = true) : k.fieldsOk = true := (Bool.and_eq_true_iff.mp h).2

/-! ### Bounds -/

/-- The fields that bounds come from are the same. -/
structure Key.SameBounds (v k : Key) : Prop where
  cursor : v.cursor = k.cursor
  b : v.b = k.b
  l : v.l = k.l
  e : v.e = k.e

theorem Key.SameBounds.base {v k : Key} (h : v.SameBounds k) : v.base = k.base := by
  simp only [Key.base, Key.win, h.cursor, h.b, h.e]
  rfl

theorem Key.SameBounds.lo {v k : Key} (h : v.SameBounds k) : v.lo = k.lo := by rw [Key.lo, h.base, Key.lo]

theorem Key.SameBounds.hi {v k : Key} (h : v.SameBounds k) : v.hi = k.hi := by
  simp only [Key.hi, Key.top, h.base, h.l, h.e]

/-- A field above the bounds written leaves them. -/
theorem Key.sameBounds_withField (k : Key) {lo w : Nat} (v : Nat) (h : lo + w ≤ 128) (hlo : 102 ≤ lo) : (k.withField lo w v).SameBounds k where
  cursor := k.field_withField_apart v h (.inl (by omega))
  b := k.field_withField_apart v h (.inl (by omega))
  l := k.field_withField_apart v h (.inl (by omega))
  e := k.field_withField_apart v h (.inl (by omega))

theorem Key.SameBounds.trans {u v k : Key} (h : u.SameBounds v) (h' : v.SameBounds k) : u.SameBounds k :=
  ⟨h.cursor.trans h'.cursor, h.b.trans h'.b, h.l.trans h'.l, h.e.trans h'.e⟩

/-- A base is the place congruent to B · 2^E in the window that ends at the cursor. -/
theorem Key.base_spec (k : Key) : ∃ x : Int, k.base = k.win * x + (k.b * 2 ^ k.e : Nat) ∧ k.base ≤ k.cursor ∧ (k.cursor : Int) < k.base + k.win := by
  have hb : k.b * 2 ^ k.e < k.win := by
    rw [Key.win, Nat.add_comm, Nat.pow_add]
    exact Nat.mul_lt_mul_of_pos_right (bitsOf_lt _ _ _) (Nat.two_pow_pos _)
  have hdiv : k.win * (k.cursor / k.win) + k.cursor % k.win = k.cursor := Nat.div_add_mod _ _
  have hmod : k.cursor % k.win < k.win := Nat.mod_lt _ (Nat.two_pow_pos _)
  have hbase0 : k.cursor - k.cursor % k.win + k.b * 2 ^ k.e = k.win * (k.cursor / k.win) + k.b * 2 ^ k.e := by omega
  have hcast : ((k.win * (k.cursor / k.win) + k.b * 2 ^ k.e : Nat) : Int) = k.win * (k.cursor / k.win : Nat) + (k.b * 2 ^ k.e : Nat) := by push_cast; rfl
  have hbase : k.base = (if ((k.win * (k.cursor / k.win) + k.b * 2 ^ k.e : Nat) : Int) > k.cursor
      then ((k.win * (k.cursor / k.win) + k.b * 2 ^ k.e : Nat) : Int) - k.win
      else ((k.win * (k.cursor / k.win) + k.b * 2 ^ k.e : Nat) : Int)) := by
    rw [Key.base, hbase0]
  rw [hbase]
  split
  · next h => exact ⟨(k.cursor / k.win : Nat) - 1, by rw [hcast]; ring, by omega, by omega⟩
  · next h => exact ⟨(k.cursor / k.win : Nat), hcast, by omega, by omega⟩

/-- Two places less than a window apart that are congruent modulo the window are one. -/
theorem eq_of_window {w a b c : Int} {x y r : Int} (ha : a = w * x + r) (hb : b = w * y + r) (ha1 : a ≤ c) (ha2 : c < a + w)
    (hb1 : b ≤ c) (hb2 : c < b + w) : a = b := by
  have hw : 0 ≤ w := by omega
  have hxy : x = y := by
    rcases lt_trichotomy x y with h | h | h
    · have := mul_le_mul_of_nonneg_left (Int.add_one_le_of_lt h) hw
      rw [mul_add, mul_one] at this
      omega
    · exact h
    · have := mul_le_mul_of_nonneg_left (Int.add_one_le_of_lt h) hw
      rw [mul_add, mul_one] at this
      omega
  rw [ha, hb, hxy]

/-- A cursor moved within the window of a key keeps its base (R138). -/
theorem Key.base_eq_of_cursor {v k : Key} (hb : v.b = k.b) (he : v.e = k.e) (h1 : k.base ≤ v.cursor) (h2 : (v.cursor : Int) < k.base + k.win) :
    v.base = k.base := by
  obtain ⟨x, hx, hx1, hx2⟩ := v.base_spec
  obtain ⟨y, hy, -, -⟩ := k.base_spec
  have hwin : v.win = k.win := by rw [Key.win, Key.win, he]
  rw [hb, he, hwin] at hx
  rw [hwin] at hx2
  exact eq_of_window hx hy hx1 hx2 h1 h2

/-! ### Authority -/

/-- A key reaches no further than another that counts as tagged. -/
def Key.Within (v k : Key) : Prop := k.live = true ∧ k.lo ≤ v.lo ∧ v.hi ≤ k.hi ∧ k.loc ≤ v.loc

/-- A key holds no right but those of another and those of `extra`. -/
def Key.RightsOf (v k : Key) (extra : Nat) : Prop := v.rights &&& (k.rights ||| extra) = v.rights

theorem Key.SameBounds.within {v k : Key} (h : v.SameBounds k) (hk : k.live = true) (hloc : k.loc ≤ v.loc) : v.Within k :=
  ⟨hk, h.lo.ge, h.hi.le, hloc⟩

theorem Key.rightsOf_of_eq {v k : Key} (h : v.rights = k.rights) (extra : Nat) : v.RightsOf k extra := by
  rw [Key.RightsOf, h]
  refine Nat.eq_of_testBit_eq fun i => ?_
  rw [Nat.testBit_and, Nat.testBit_or]
  cases k.rights.testBit i <;> simp

/-- A moved key (R138). -/
theorem Key.moveTo_grantsNoMore {k : Key} {c' : Int} (h : (k.moveTo c').tag = true) :
    (k.moveTo c').Within k ∧ (k.moveTo c').rights = k.rights ∧ (k.moveTo c').loc = k.loc := by
  have hfield : ∀ lo w, 64 ≤ lo → (k.moveTo c').field lo w = k.field lo w := fun lo w hlo =>
    k.field_withField_apart (wrapTo 64 c') (by decide) (.inr (by omega))
  have hcursor : (k.moveTo c').cursor = wrapTo 64 c' % 2 ^ 64 := k.field_withField_self _ (by decide)
  simp only [Key.moveTo, Bool.and_eq_true, decide_eq_true_eq] at h
  obtain ⟨⟨⟨⟨hlive, h0⟩, h64⟩, hbase⟩, hwin⟩ := h
  have hc : ((k.moveTo c').cursor : Int) = c' := by
    rw [hcursor, wrapTo]
    omega
  have hb := Key.base_eq_of_cursor (v := k.moveTo c') (k := k) (hfield 64 16 (by decide)) (hfield 96 6 (by decide)) (by omega) (by omega)
  have htop : (k.moveTo c').top = k.top := by
    rw [Key.top, hb, Key.l, Key.e, hfield 80 16 (by decide), hfield 96 6 (by decide)]
    rfl
  have hlo : (k.moveTo c').lo = k.lo := by rw [Key.lo, hb, Key.lo]
  have hhi : (k.moveTo c').hi = k.hi := by rw [Key.hi, htop, Key.hi]
  exact ⟨⟨hlive, hlo.ge, hhi.le, (hfield 108 2 (by decide)).ge⟩, hfield 118 10 (by decide), hfield 108 2 (by decide)⟩

/-- A key of a field above the bounds written, the locality not being that field. -/
theorem Key.within_withField (k : Key) {lo w : Nat} (v : Nat) (h : lo + w ≤ 128) (hlo : 102 ≤ lo) (ha : lo + w ≤ 108 ∨ 110 ≤ lo) (hk : k.live = true) :
    (k.withField lo w v).Within k :=
  (k.sameBounds_withField v h hlo).within hk (k.field_withField_apart v h (ha.symm.imp id id)).ge

theorem kboundFit_spec (b0 t0 : Nat) : ∀ fuel e0 e b t, kboundFit b0 t0 fuel e0 = (e, b, t) → e ≤ 48 → e0 + fuel > 48 →
    b = b0 / 2 ^ e * 2 ^ e ∧ (∃ n, t = n * 2 ^ e) ∧ t0 ≤ t ∧ (t - b) / 2 ^ e ≤ 0xFFFF := by
  intro fuel
  induction fuel with
  | zero =>
    intro e0 e b t h he hf
    simp only [kboundFit, Prod.mk.injEq] at h
    omega
  | succ fuel ih =>
    intro e0 e b t h he hf
    simp only [kboundFit] at h
    split at h
    · next hfit =>
      simp only [Prod.mk.injEq] at h
      obtain ⟨rfl, rfl, rfl⟩ := h
      have hpos := Nat.two_pow_pos e0
      have hb := Nat.div_add_mod' b0 (2 ^ e0)
      have ht := Nat.div_add_mod' t0 (2 ^ e0)
      have hlt := Nat.mod_lt t0 hpos
      refine ⟨by omega, ?_, by omega, hfit⟩
      by_cases h0 : t0 % 2 ^ e0 = 0
      · exact ⟨t0 / 2 ^ e0, by rw [h0, Nat.sub_zero, Nat.mod_self]; omega⟩
      · refine ⟨t0 / 2 ^ e0 + 1, ?_⟩
        rw [Nat.mod_eq_of_lt (by omega), Nat.add_mul, Nat.one_mul]
        omega
    · exact ih (e0 + 1) e b t h he (by omega)

/-- A key with its exponent, base and length fields written (R142). -/
def Key.withBounds (k : Key) (e b t : Nat) : Key :=
  { ((k.withField 96 6 e).withField 64 16 (b / 2 ^ e)).withField 80 16 ((t - b) / 2 ^ e) with tag := true }

/-- What an allowed KBOUND or KBOUNDR gives. -/
theorem Key.bound_inv {k v : Key} {n : Nat} {ex : Bool} (h : k.bound n ex = .ok v) : k.live = true ∧
    ∃ e b t, kboundFit k.cursor (k.cursor + n) 64 0 = (e, b, t) ∧ e ≤ 48 ∧ k.lo ≤ b ∧ t ≤ k.hi ∧ v = k.withBounds e b t := by
  simp only [Key.bound] at h
  generalize hfit : kboundFit k.cursor (k.cursor + n) 64 0 = r at h
  obtain ⟨e, b, t⟩ := r
  split at h
  · cases h
  next hlive =>
  split at h
  · cases h
  split at h
  · cases h
  split at h
  · cases h
  next he =>
  split at h
  · cases h
  split at h
  · cases h
  next hmono => exact ⟨by simpa using hlive, e, b, t, rfl, by omega, by omega, by omega, (Except.ok.inj h).symm⟩

section
variable (k : Key) {e b t : Nat}

theorem Key.field_withBounds (k : Key) (e b t : Nat) {lo w : Nat} (h : lo + w ≤ 64 ∨ 102 ≤ lo) :
    (k.withBounds e b t).field lo w = k.field lo w := by
  rw [Key.withBounds, Key.field_with_tag, Key.field_withField_apart _ _ (by decide) (by omega),
    Key.field_withField_apart _ _ (by decide) (by omega), Key.field_withField_apart _ _ (by decide) (by omega)]

theorem Key.e_withBounds (he : e ≤ 48) : (k.withBounds e b t).e = e := by
  rw [Key.e, Key.withBounds, Key.field_with_tag, Key.field_withField_apart _ _ (by decide) (.inr (by decide)),
    Key.field_withField_apart _ _ (by decide) (.inr (by decide)), Key.field_withField_self _ _ (by decide)]
  exact Nat.mod_eq_of_lt (by omega)

theorem Key.b_withBounds : (k.withBounds e b t).b = b / 2 ^ e % 2 ^ 16 := by
  rw [Key.b, Key.withBounds, Key.field_with_tag, Key.field_withField_apart _ _ (by decide) (.inl (by decide)),
    Key.field_withField_self _ _ (by decide)]

theorem Key.l_withBounds (h : (t - b) / 2 ^ e ≤ 0xFFFF) : (k.withBounds e b t).l = (t - b) / 2 ^ e := by
  rw [Key.l, Key.withBounds, Key.field_with_tag, Key.field_withField_self _ _ (by decide)]
  exact Nat.mod_eq_of_lt (by omega)

/-- The base of a bounded key is its cursor rounded down. -/
theorem Key.base_withBounds (he : e ≤ 48) (hb : b = k.cursor / 2 ^ e * 2 ^ e) : (k.withBounds e b t).base = b := by
  have hvc : (k.withBounds e b t).cursor = k.cursor := k.field_withBounds e b t (.inl (by decide))
  have hwin : (k.withBounds e b t).win = 2 ^ e * 2 ^ 16 := by rw [Key.win, k.e_withBounds he, Nat.pow_add]
  have hbq : b / 2 ^ e = k.cursor / 2 ^ e := by rw [hb, Nat.mul_div_cancel _ (Nat.two_pow_pos e)]
  have hc := Nat.div_add_mod' k.cursor (2 ^ e * 2 ^ 16)
  have hsub : k.cursor - k.cursor % (2 ^ e * 2 ^ 16) = k.cursor / (2 ^ e * 2 ^ 16) * (2 ^ e * 2 ^ 16) := by omega
  have hsplit : k.cursor / (2 ^ e * 2 ^ 16) * (2 ^ e * 2 ^ 16) + k.cursor / 2 ^ e % 2 ^ 16 * 2 ^ e = b := by
    rw [← Nat.div_div_eq_div_mul, hb]
    calc k.cursor / 2 ^ e / 2 ^ 16 * (2 ^ e * 2 ^ 16) + k.cursor / 2 ^ e % 2 ^ 16 * 2 ^ e
        = (k.cursor / 2 ^ e / 2 ^ 16 * 2 ^ 16 + k.cursor / 2 ^ e % 2 ^ 16) * 2 ^ e := by ring
      _ = k.cursor / 2 ^ e * 2 ^ e := by rw [Nat.div_add_mod' (k.cursor / 2 ^ e) (2 ^ 16)]
  have hle : b ≤ k.cursor := by rw [hb]; exact Nat.div_mul_le_self _ _
  rw [Key.base, hvc, k.b_withBounds, k.e_withBounds he, hwin, hbq, hsub, hsplit, if_neg (by omega)]

end

/-- A bounded key's range is the rounded one, which lies within the source's (R142). -/
theorem Key.bound_grantsNoMore {k v : Key} {n : Nat} {ex : Bool} (hv : k.bound n ex = .ok v) : v.Within k ∧ v.rights = k.rights := by
  obtain ⟨hk, e, b, t, hfit, he, hlo, hhi, rfl⟩ := Key.bound_inv hv
  obtain ⟨hb, ⟨q, hq⟩, ht, hlen⟩ := kboundFit_spec _ _ 64 0 e b t hfit he (by decide)
  have hbase : (k.withBounds e b t).base = b := k.base_withBounds he hb
  have hbt : b ≤ t := hb ▸ (Nat.div_mul_le_self _ _).trans ((Nat.le_add_right _ _).trans ht)
  have hdiv : (t - b) / 2 ^ e * 2 ^ e = t - b := by
    rw [hq, hb, ← Nat.sub_mul, Nat.mul_div_cancel _ (Nat.two_pow_pos e)]
  have htop : (k.withBounds e b t).top = t := by
    rw [Key.top, hbase, k.l_withBounds hlen, k.e_withBounds he, hdiv, ← Nat.cast_add, Nat.add_sub_cancel' hbt]
  have hvlo : (k.withBounds e b t).lo = b := by rw [Key.lo, hbase]; rfl
  have hvhi : (k.withBounds e b t).hi ≤ t := by
    rw [Key.hi, htop]
    exact Nat.min_le_left _ _
  exact ⟨⟨hk, hvlo.symm ▸ hlo, hvhi.trans hhi, (k.field_withBounds e b t (.inr (by decide))).ge⟩, k.field_withBounds e b t (.inr (by decide))⟩

theorem Key.rightsOf_and {v k : Key} {mask : Nat} (extra : Nat) (h : v.rights = k.rights &&& mask) : v.RightsOf k extra := by
  rw [Key.RightsOf, h]
  refine Nat.eq_of_testBit_eq fun i => ?_
  rw [Nat.testBit_and, Nat.testBit_and, Nat.testBit_or]
  cases k.rights.testBit i <;> simp

theorem Key.rightsOf_or {v k : Key} {extra : Nat} (h : v.rights = k.rights ||| extra) : v.RightsOf k extra := by
  rw [Key.RightsOf, h, Nat.and_self]

/-! ### One lemma for each derivation -/

theorem Key.advance_grantsNoMore {k : Key} {d : Int} (h : (k.advance d).tag = true) : (k.advance d).Within k ∧ (k.advance d).rights = k.rights := by
  rw [Key.advance] at h ⊢
  obtain ⟨hw, hr, -⟩ := Key.moveTo_grantsNoMore h
  exact ⟨hw, hr⟩

theorem Key.add_grantsNoMore {k v : Key} {n : Nat} (h : k.add n = .ok v) (hv : v.live = true) : v.Within k ∧ v.rights = k.rights := by
  rw [Key.add] at h
  split at h
  · cases h
  · cases h
    exact Key.advance_grantsNoMore (Key.tag_of_live hv)

theorem Key.narrowRights_grantsNoMore {k v : Key} {n : Nat} (h : k.narrowRights n = .ok v) : v.Within k ∧ v.rights = k.rights &&& n := by
  rw [Key.narrowRights] at h
  split at h
  · cases h
  next hlive =>
  split at h
  · cases h
  cases h
  have hfits : k.rights &&& n < 2 ^ 10 := Nat.lt_of_le_of_lt Nat.and_le_left k.rights_lt
  exact ⟨k.within_withField _ (by decide) (by decide) (.inr (by decide)) (by simpa using hlive),
    (k.field_withField_self _ (by decide)).trans (Nat.mod_eq_of_lt hfits)⟩

theorem Key.narrowLoc_grantsNoMore {k v : Key} {n : Nat} (hn : n < 4) (h : k.narrowLoc n = .ok v) : v.Within k ∧ v.rights = k.rights := by
  rw [Key.narrowLoc] at h
  split at h
  · cases h
  next hlive =>
  split at h
  · cases h
  split at h
  · cases h
  next hloc =>
  cases h
  have hself : (k.withField 108 2 n).loc = n := (k.field_withField_self _ (by decide)).trans (Nat.mod_eq_of_lt hn)
  simp only [locRank, not_or, not_lt] at hloc
  exact ⟨(k.sameBounds_withField n (by decide) (by decide)).within (by simpa using hlive) (by rw [hself]; exact hloc.2),
    k.field_withField_apart _ (by decide) (.inr (by decide))⟩

theorem Key.reepoch_grantsNoMore {k v : Key} {n : Nat} (h : k.reepoch n = .ok v) : v.Within k ∧ v.rights = k.rights := by
  rw [Key.reepoch] at h
  split at h
  · cases h
  next hlive =>
  cases h
  exact ⟨k.within_withField _ (by decide) (by decide) (.inl (by decide)) (by simpa using hlive),
    k.field_withField_apart _ (by decide) (.inr (by decide))⟩

/-- A key with its type written, and where `inv` says so the right INV added. -/
theorem Key.sealed_grantsNoMore {k : Key} (t : Nat) (inv : Prop) [Decidable inv] (hk : k.live = true) :
    let v := k.withField 110 8 t
    let u := if inv then v.withField 118 10 (v.rights ||| rINV) else v
    u.Within k ∧ u.RightsOf k rINV := by
  intro v u
  have hv : v.SameBounds k := k.sameBounds_withField t (by decide) (by decide)
  have hvr : v.rights = k.rights := k.field_withField_apart t (by decide) (.inr (by decide))
  have hvl : v.loc = k.loc := k.field_withField_apart t (by decide) (.inl (by decide))
  by_cases h : inv
  · have hu : u = v.withField 118 10 (v.rights ||| rINV) := if_pos h
    have hfits : k.rights ||| rINV < 2 ^ 10 := Nat.or_lt_two_pow k.rights_lt (by decide)
    have hur : u.rights = k.rights ||| rINV := by
      rw [hu, hvr]
      exact (v.field_withField_self _ (by decide)).trans (Nat.mod_eq_of_lt hfits)
    have hul : u.loc = v.loc := by rw [hu]; exact v.field_withField_apart _ (by decide) (.inl (by decide))
    have hub : u.SameBounds v := by rw [hu]; exact v.sameBounds_withField _ (by decide) (by decide)
    exact ⟨(hub.trans hv).within hk (hul.trans hvl).ge, Key.rightsOf_or hur⟩
  · have hu : u = v := if_neg h
    rw [hu]
    exact ⟨hv.within hk hvl.ge, Key.rightsOf_of_eq hvr _⟩

theorem Key.seal_grantsNoMore {k kt v : Key} (h : k.seal kt = .ok v) : v.Within k ∧ v.RightsOf k rINV := by
  rw [Key.seal] at h
  split at h
  · cases h
  next hlive =>
  split at h
  · cases h
  split at h
  · cases h
  dsimp only at h
  split at h
  · cases h
  split at h
  · cases h
  cases h
  exact Key.sealed_grantsNoMore kt.cursor (kt.cursor = 0xFE) (by simpa using hlive)

theorem Key.link_grantsNoMore {k : Key} (h : k.link.live = true) : k.link.Within k ∧ k.link.RightsOf k rINV := by
  have htag : (k.advance 4).tag = true := by simpa only [Key.link, Key.tag_withField] using Key.tag_of_live h
  obtain ⟨⟨hk, hlo, hhi, hloc⟩, hr⟩ := Key.advance_grantsNoMore htag
  have hor : k.link.rights = k.rights ||| rINV := by
    have hfits : (k.advance 4).rights ||| rINV < 2 ^ 10 := Nat.or_lt_two_pow (Key.rights_lt _) (by decide)
    exact (Key.field_withField_self _ _ (by decide)).trans ((Nat.mod_eq_of_lt hfits).trans (by rw [hr]))
  have hb : k.link.SameBounds (k.advance 4) :=
    (Key.sameBounds_withField _ _ (by decide) (by decide)).trans (Key.sameBounds_withField _ _ (by decide) (by decide))
  have hl : k.link.loc = (k.advance 4).loc :=
    (Key.field_withField_apart _ _ (by decide) (.inl (by decide))).trans (Key.field_withField_apart _ _ (by decide) (.inl (by decide)))
  exact ⟨⟨hk, hlo.trans hb.lo.ge, hb.hi.le.trans hhi, hloc.trans hl.ge⟩, Key.rightsOf_or hor⟩

theorem Key.jump_grantsNoMore {k v : Key} (h : k.jump = .ok v) : v.Within k ∧ v.RightsOf k 0 := by
  rw [Key.jump] at h
  split at h
  · cases h
  next hlive =>
  have hk : k.live = true := by simpa using hlive
  split at h
  · split at h
    · cases h
      exact ⟨⟨hk, le_rfl, le_rfl, le_rfl⟩, Key.rightsOf_of_eq rfl 0⟩
    · cases h
  split at h
  · split at h
    · cases h
      have hb : ((k.withField 110 8 0).withField 118 10 (k.rights &&& 0x1FF)).SameBounds k :=
        (Key.sameBounds_withField _ _ (by decide) (by decide)).trans (k.sameBounds_withField 0 (by decide) (by decide))
      have hl : ((k.withField 110 8 0).withField 118 10 (k.rights &&& 0x1FF)).loc = k.loc :=
        (Key.field_withField_apart _ _ (by decide) (.inl (by decide))).trans (k.field_withField_apart 0 (by decide) (.inl (by decide)))
      have hfits : k.rights &&& 0x1FF < 2 ^ 10 := Nat.lt_of_le_of_lt Nat.and_le_left k.rights_lt
      exact ⟨hb.within hk hl.ge, Key.rightsOf_and 0 ((Key.field_withField_self _ _ (by decide)).trans (Nat.mod_eq_of_lt hfits))⟩
    · cases h
  · cases h

theorem Key.live_of_sealKey {kt : Key} {r : Nat} (h : kt.sealKey r = .ok ()) : kt.live = true := by
  rw [Key.sealKey] at h
  split at h
  · cases h
  next hlive => simpa using hlive

theorem Key.unseal_grantsNoMore {k kt v : Key} (h : k.unseal kt = .ok v) :
    v.Within k ∧ v.RightsOf k 0 ∧ kt.live = true ∧ kt.loc ≤ v.loc := by
  rw [Key.unseal] at h
  split at h
  · cases h
  next hlive =>
  split at h
  · cases h
  split at h
  · cases h
  next hseal =>
  split at h
  · cases h
  cases h
  have hmax : Nat.max k.loc kt.loc < 2 ^ 2 := Nat.max_lt.mpr ⟨bitsOf_lt _ _ _, bitsOf_lt _ _ _⟩
  have hl : ((k.withField 110 8 0).withField 108 2 (Nat.max k.loc kt.loc)).loc = Nat.max k.loc kt.loc :=
    (Key.field_withField_self _ _ (by decide)).trans (Nat.mod_eq_of_lt hmax)
  have hb : ((k.withField 110 8 0).withField 108 2 (Nat.max k.loc kt.loc)).SameBounds k :=
    (Key.sameBounds_withField _ _ (by decide) (by decide)).trans (k.sameBounds_withField 0 (by decide) (by decide))
  have hr : ((k.withField 110 8 0).withField 108 2 (Nat.max k.loc kt.loc)).rights = k.rights :=
    (Key.field_withField_apart _ _ (by decide) (.inr (by decide))).trans (k.field_withField_apart 0 (by decide) (.inr (by decide)))
  exact ⟨hb.within (by simpa using hlive) (by rw [hl]; exact Nat.le_max_left _ _), Key.rightsOf_of_eq hr 0, Key.live_of_sealKey hseal,
    by rw [hl]; exact Nat.le_max_right _ _⟩

/-- Settles O14: each derivation by its own lemma. -/
theorem derivedKeysGrantNoMore : Obligations.DerivedKeysGrantNoMore := by
  unfold Obligations.DerivedKeysGrantNoMore
  intro within rights k kt v n hv
  have keeps : (v.Within k ∧ v.rights = k.rights) → within v k ∧ rights v k 0 := fun h => ⟨h.1, Key.rightsOf_of_eq h.2 0⟩
  refine ⟨fun h => ?_, fun h => ?_, fun h => Key.jump_grantsNoMore h, fun h => Key.unseal_grantsNoMore h⟩
  · rcases h with h | h | h | h | ⟨hn, h⟩ | ⟨-, h⟩ | ⟨d, rfl⟩
    · exact keeps (Key.add_grantsNoMore h hv)
    · exact keeps (Key.bound_grantsNoMore h)
    · exact keeps (Key.bound_grantsNoMore h)
    · obtain ⟨hw, hr⟩ := Key.narrowRights_grantsNoMore h
      exact ⟨hw, Key.rightsOf_and 0 hr⟩
    · exact keeps (Key.narrowLoc_grantsNoMore hn h)
    · exact keeps (Key.reepoch_grantsNoMore h)
    · exact keeps (Key.advance_grantsNoMore (Key.tag_of_live hv))
  · rcases h with h | rfl
    · exact Key.seal_grantsNoMore h
    · exact Key.link_grantsNoMore hv

end Sys2Proof.Machine

/-!
Precise exceptions: the handler level entered, the escalation to M, the failed spill and the double fault (R221 to R226).
-/
namespace Sys2Proof.Machine

/-! ### What the entry of a level leaves of a core -/

theorem Core.banks_makeResident (k : Core) (l : Nat) : (k.makeResident l).banks = k.banks := by
  unfold Core.makeResident
  split
  · rfl
  split
  · rfl
  split <;> rfl

theorem Core.bank_makeResident (k : Core) (l l' : Nat) : (k.makeResident l).bank l' = k.bank l' := by
  rw [Core.bank, Core.banks_makeResident, Core.bank]

theorem Core.active_makeResident (k : Core) (l : Nat) : (k.makeResident l).active = k.active := by
  unfold Core.makeResident
  split
  · rfl
  split
  · rfl
  split <;> rfl

/-- The core as its level gives way: the accesses that are abandoned dropped, its resume ip kept. -/
def Core.leaving (k : Core) : Core :=
  Core.setBank { k with waits := k.waits.filter (fun w => !(w.level == k.level && w.kind.abandoned)) } k.level { k.bank k.level with ip := k.ip }

theorem Core.bank_leaving (k : Core) (l : Nat) : k.leaving.bank l = if l = k.level then { k.bank l with ip := k.ip } else k.bank l := by
  by_cases h : l = k.level
  · subst h
    rw [if_pos rfl]
    exact Core.bank_setBank_self _ _ _
  · rw [if_neg h]
    exact Core.bank_setBank_ne _ _ h

/-- The bank of a level after the entry of level `l`. -/
theorem Core.bank_enter (k : Core) (l cause fip faddr l' : Nat) : (k.enter l cause fip faddr).bank l' =
    if l' = l then { k.leaving.bank l with cause := BitVec.ofNat 64 cause, fip := BitVec.ofNat 64 fip, faddr := BitVec.ofNat 64 faddr }
    else k.leaving.bank l' := by
  by_cases h : l' = l
  · subst h
    rw [if_pos rfl]
    refine (Core.bank_setBank_self _ _ _).trans ?_
    rw [Core.bank_makeResident]
    rfl
  · rw [if_neg h]
    refine (Core.bank_setBank_ne _ _ h).trans ?_
    rw [Core.bank_makeResident]
    rfl

theorem Core.active_enter (k : Core) (l cause fip faddr : Nat) : (k.enter l cause fip faddr).active = l :: k.active.filter (· != l) := by
  refine congrArg (fun a : List Nat => l :: a.filter (· != l)) ?_
  exact (Core.active_makeResident _ l).trans rfl

theorem Core.d_eq_of_bank {k k' : Core} {l l' : Nat} (h : (k.bank l).d = (k'.bank l').d) (r : Nat) : k.d l r = k'.d l' r := by
  simp only [Core.d, h]

/-- Level `l` of a core is entered from its current level: what its bank then shows, the levels active, and the registers of `l`, which stay. -/
structure Core.Entered (k k' : Core) (l cause fip faddr : Nat) : Prop where
  level : k'.level = l
  active : ∀ a, a ∈ k'.active ↔ a = l ∨ a ∈ k.active
  cause : (k'.bank l).cause = BitVec.ofNat 64 cause
  fip : (k'.bank l).fip = BitVec.ofNat 64 fip
  faddr : (k'.bank l).faddr = BitVec.ofNat 64 faddr
  ip : l ≠ k.level → (k'.bank k.level).ip = k.ip
  d : ∀ r, k'.d l r = k.d l r

theorem Core.entered_enter (k : Core) (l cause fip faddr : Nat) : k.Entered (k.enter l cause fip faddr) l cause fip faddr where
  level := rfl
  active a := by
    rw [Core.active_enter, List.mem_cons, List.mem_filter]
    by_cases h : a = l <;> simp [h]
  cause := by rw [Core.bank_enter, if_pos rfl]
  fip := by rw [Core.bank_enter, if_pos rfl]
  faddr := by rw [Core.bank_enter, if_pos rfl]
  ip h := by rw [Core.bank_enter, if_neg (Ne.symm h), Core.bank_leaving, if_pos rfl]
  d r := by
    refine Core.d_eq_of_bank ?_ r
    rw [Core.bank_enter, if_pos rfl, Core.bank_leaving]
    split <;> rfl

/-- The note of an entry changes nothing else of the core. -/
theorem Core.Entered.entry {k k' : Core} {l cause fip faddr : Nat} (h : k.Entered k' l cause fip faddr) (e : Option Entry) :
    k.Entered { k' with entry := e } l cause fip faddr := ⟨h.level, h.active, h.cause, h.fip, h.faddr, h.ip, h.d⟩

/-- The core from which a level is entered may have another word bit. -/
theorem Core.Entered.word {k k' : Core} {l cause fip faddr : Nat} {b : Bool} (h : Core.Entered { k with word := b } k' l cause fip faddr) :
    k.Entered k' l cause fip faddr := ⟨h.level, h.active, h.cause, h.fip, h.faddr, h.ip, h.d⟩

/-! ### The entry of a level in the module -/

@[simp] theorem Mod.cores_unspoil (m : Mod) (a n : Nat) : (m.unspoil a n).cores = m.cores := rfl

/-- The bank image a spill writes changes no core. -/
@[simp] theorem Mod.cores_spilled (m : Mod) (c l : Nat) : (m.spilled c l).cores = m.cores := by
  simp only [Mod.spilled]
  split
  · rfl
  · split <;> rfl

/-- What a spill writes depends on the banks that are filled and pinned, and on the levels active. -/
theorem Mod.spilled_setCore (m : Mod) (c l : Nat) {k : Core} (hr : k.resident = (m.core c).resident) (hv : k.victim l = (m.core c).victim l) :
    (m.setCore c k).spilled c l = (m.spilled c l).setCore c k := by
  simp only [Mod.spilled, Mod.core_setCore_self, hr, hv]
  split
  · rfl
  · split <;> rfl

theorem Mod.spillFails_setCore (m : Mod) (c l : Nat) {k : Core} (err : Bool) (hr : k.resident = (m.core c).resident) :
    (m.setCore c k).spillFails c l err = m.spillFails c l err := by
  simp only [Mod.spillFails, Mod.core_setCore_self, hr]
  rfl

/-- A level above the eight general ones is never filled from an image. -/
theorem Mod.spillFails_levelM (m : Mod) (c : Nat) (err : Bool) : m.spillFails c levelM err = false := rfl
theorem Mod.spilled_levelM (m : Mod) (c : Nat) : m.spilled c levelM = m := rfl

/-- A level entered, its bank brought. -/
theorem Mod.enterLevel_of_spilled {m : Mod} {c l : Nat} {err : Bool} (cause fip faddr : Nat) (h : m.spillFails c l err = false) :
    ∃ k, m.enterLevel c l cause fip faddr err = (m.spilled c l).setCore c k ∧ (m.core c).Entered k l cause fip faddr := by
  rw [Mod.enterLevel, if_neg (by simpa using h)]
  have hk := (m.core c).entered_enter l cause fip faddr
  simp only [Mod.noteEntry]
  split
  · exact ⟨_, rfl, hk⟩
  · rw [Mod.core_setCore_self, Mod.setCore_setCore]
    exact ⟨_, rfl, hk.entry _⟩

theorem Core.untagIp_of_ne {k : Core} {l : Nat} (hl : l ≠ k.level) :
    k.untagIp l = k.setBank l { k.bank l with ip := { (k.bank l).ip with tag := false } } := if_neg (Ne.symm hl)

/-- A level's resume ip without its tag: no other part of the core that an entry of M keeps changes. -/
theorem Core.Entered.of_untagIp {k k' : Core} {l cause fip : Nat} (hl : l ≠ k.level) (h8 : l ≠ levelM)
    (h : (k.untagIp l).Entered k' levelM cause fip 0) : k.Entered k' levelM cause fip 0 := by
  rw [Core.untagIp_of_ne hl] at h
  refine ⟨h.level, h.active, h.cause, h.fip, h.faddr, h.ip, fun r => (h.d r).trans (Core.d_eq_of_bank ?_ r)⟩
  rw [Core.bank_setBank_ne _ _ (Ne.symm h8)]

/-- The tag of a resume ip that a failed spill has taken. -/
theorem Core.untagged_enter {k : Core} {l : Nat} (cause fip : Nat) (hl : l ≠ k.level) (h8 : l ≠ levelM) :
    (((k.untagIp l).enter levelM cause fip 0).bank l).ip.tag = false := by
  rw [Core.untagIp_of_ne hl, Core.bank_enter, if_neg h8, Core.bank_leaving]
  refine (congrArg (fun b : Bank => b.ip.tag) (if_neg hl)).trans ?_
  rw [Core.bank_setBank_self]

/-- A level whose spill fails is not entered; M is (R225). -/
theorem Mod.enterLevel_of_spillFails {m : Mod} {c l : Nat} {err : Bool} (cause fip faddr : Nat) (h : m.spillFails c l err = true)
    (hl : l ≠ (m.core c).level) : ∃ k, m.enterLevel c l cause fip faddr err = (m.unspoil (bankImage c l) 0x240).setCore c k ∧
      (m.core c).Entered k levelM (causeOf 0x0A 0 false false l 0 0 false) fip 0 ∧ (k.bank l).ip.tag = false := by
  have h8 : l ≠ levelM := fun e => by rw [e, Mod.spillFails_levelM] at h; cases h
  rw [Mod.enterLevel, if_pos h]
  exact ⟨_, rfl, ((Core.entered_enter _ _ _ _ _).of_untagIp hl h8), Core.untagged_enter _ _ hl h8⟩

/-! ### The exception -/

/-- The core once its word is over. -/
def Core.wordOver (k : Core) : Core := { k with word := false }

theorem Mod.doubleFault_setCore (m : Mod) (c : Nat) : (m.setCore c (m.core c).wordOver).doubleFault c = m.doubleFault c := by
  simp only [Mod.doubleFault, Mod.core_setCore_self, Mod.setCore_setCore]
  rfl

/-- The core as an exception of its word finds it. -/
theorem Mod.coreExc_eq (m : Mod) (c code sub faddr fip : Nat) (pair slotB : Bool) :
    let k := m.core c
    let m1 := m.setCore c k.wordOver
    let h := k.handler code
    m.coreExc c code sub faddr fip pair slotB =
      if k.level = levelM then m.doubleFault c
      else if k.takes h k.level then m1.enterLevel c h (causeOf code sub pair slotB k.level 0 0 false) fip faddr
      else if k.active.contains levelM then m.doubleFault c
      else m1.enterLevel c levelM (causeOf 0x0B sub pair slotB k.level code 0 false) fip 0 := by
  rw [← Mod.doubleFault_setCore]
  simp only [Mod.coreExc, Mod.core_setCore_self]
  rfl

/-- A level entered for an exception, its bank brought. -/
theorem Mod.enterLevel_for_exc {m : Mod} {c l : Nat} (cause fip faddr : Nat) (h : m.spillFails c l = false) :
    ∃ k, (m.setCore c (m.core c).wordOver).enterLevel c l cause fip faddr = (m.spilled c l).setCore c k ∧
      (m.core c).Entered k l cause fip faddr := by
  obtain ⟨k, hm, hk⟩ := Mod.enterLevel_of_spilled (m := m.setCore c (m.core c).wordOver) (c := c) (l := l) (err := false) cause fip faddr
    ((Mod.spillFails_setCore m c l (k := (m.core c).wordOver) false rfl).trans h)
  rw [Mod.core_setCore_self] at hk
  rw [Mod.spilled_setCore m c l (k := (m.core c).wordOver) rfl rfl, Mod.setCore_setCore] at hm
  exact ⟨k, hm, hk.word⟩

/-- A level whose spill fails as it is to be entered for an exception. -/
theorem Mod.enterLevel_for_exc_fails {m : Mod} {c l : Nat} (cause fip faddr : Nat) (h : m.spillFails c l = true) (hl : l ≠ (m.core c).level) :
    ∃ k, (m.setCore c (m.core c).wordOver).enterLevel c l cause fip faddr = (m.unspoil (bankImage c l) 0x240).setCore c k ∧
      (m.core c).Entered k levelM (causeOf 0x0A 0 false false l 0 0 false) fip 0 ∧ (k.bank l).ip.tag = false := by
  obtain ⟨k, hm, hk, htag⟩ := Mod.enterLevel_of_spillFails (m := m.setCore c (m.core c).wordOver) (c := c) (l := l) (err := false) cause fip faddr
    ((Mod.spillFails_setCore m c l (k := (m.core c).wordOver) false rfl).trans h) (by rw [Mod.core_setCore_self]; exact hl)
  rw [Mod.core_setCore_self] at hk
  exact ⟨k, hm.trans ((m.unspoil _ _).setCore_setCore c _ _), hk.word, htag⟩

/-- Settles O23: by whether the handler level may be entered, and by its spill. -/
theorem exceptionsEnterTheirHandlerLevel : Obligations.ExceptionsEnterTheirHandlerLevel := by
  intro m c code sub faddr fip pair slotB k h entered m'
  have hentered : ∀ {x : Mod} {l cause fa : Nat} {k' : Core}, x.cores = m.cores → k.Entered k' l cause fip fa → m' = x.setCore c k' →
      entered l cause fa m' ∧ { m' with cores := m.cores } = x := by
    intro x l cause fa k' hx hk' hm
    have hcore : m'.core c = k' := by rw [hm, Mod.core_setCore_self]
    refine ⟨⟨?_, ?_, ?_, ?_, ?_, ?_, ?_, fun c' hc => ?_⟩, ?_⟩
    · rw [hcore, hk'.level]
    · rw [hcore]; exact hk'.active
    · rw [hcore, hk'.cause]
    · rw [hcore, hk'.fip]
    · rw [hcore, hk'.faddr]
    · rw [hcore]; exact hk'.ip
    · rw [hcore]; exact hk'.d
    · rw [hm, Mod.core_setCore_ne _ _ hc, Mod.core, hx, Mod.core]
    · rw [hm, ← hx]
      rfl
  have hm' := m.coreExc_eq c code sub faddr fip pair slotB
  refine ⟨fun hlM htakes hspill => ?_, fun hlM htakes hspill => ?_, fun hlM htakes hact => ?_, fun hdouble => ?_⟩
  · obtain ⟨k', hk, hk'⟩ := Mod.enterLevel_for_exc (causeOf code sub pair slotB k.level 0 0 false) fip faddr hspill
    exact hentered (Mod.cores_spilled m c h) hk' (hm'.trans (by rw [if_neg hlM, if_pos htakes]; exact hk))
  · have hne : h ≠ k.level := by
      simp only [Core.takes, Bool.and_eq_true, decide_eq_true_eq] at htakes
      omega
    obtain ⟨k', hk, hk', htag⟩ := Mod.enterLevel_for_exc_fails (causeOf code sub pair slotB k.level 0 0 false) fip faddr hspill hne
    have hm : m' = (m.unspoil (bankImage c h) 0x240).setCore c k' := hm'.trans (by rw [if_neg hlM, if_pos htakes]; exact hk)
    obtain ⟨he, hrest⟩ := hentered (m.cores_unspoil _ _) hk' hm
    exact ⟨he, hrest, by rw [hm, Mod.core_setCore_self]; exact htag⟩
  · obtain ⟨k', hk, hk'⟩ := Mod.enterLevel_for_exc (causeOf 0x0B sub pair slotB k.level code 0 false) fip 0 (m.spillFails_levelM c false)
    exact hentered rfl hk' (hm'.trans (by rw [if_neg hlM, if_neg (by simpa using htakes), if_neg (by simpa using hact)]; exact hk))
  · refine hm'.trans ?_
    rcases hdouble with hlM | ⟨htakes, hact⟩
    · rw [if_pos hlM]
      rfl
    · have htakes' : ¬ k.takes h k.level = true := by simpa using htakes
      rw [if_neg htakes', if_pos hact, ite_self]
      rfl

end Sys2Proof.Machine

/-!
The encodings of the core instructions: the fields of a word of each format, and that a word decodes to its instruction (R172 to R174).
-/
namespace Sys2Proof.Machine

/-- The word of an instruction is of 32 bits and decodes to it. -/
def RoundTrips (c : CoreId) (i : Instr) : Prop := encodeWord i < 2 ^ 32 ∧ decodeWord c (encodeWord i) 0 = some i

/-- Why no word of another format is a pair. -/
theorem not_pair {w : Nat} (h : bitsOf w 31 1 = 0) : ¬ bitsOf w 31 1 = 1 := by omega

/-! ### The majors of several instructions -/

section
variable {c : CoreId} {w : Nat} (ht : bitsOf w 31 1 = 0)
include ht

theorem decodeWord_int (hM : bitsOf w 24 7 = 1) : decodeWord c w 0 = decodeInt c w := by
  unfold decodeWord
  rw [if_neg (not_pair ht), hM]
  rfl
theorem decodeWord_key (hM : bitsOf w 24 7 = 0x40) : decodeWord c w 0 = decodeKey c w := by
  unfold decodeWord
  rw [if_neg (not_pair ht), hM]
  rfl
theorem decodeWord_atomic (hM : bitsOf w 24 7 = 0x41) : decodeWord c w 0 = decodeAtomic c w := by
  unfold decodeWord
  rw [if_neg (not_pair ht), hM]
  rfl
theorem decodeWord_copy (hM : bitsOf w 24 7 = 0x42) : decodeWord c w 0 = decodeCopy c w := by
  unfold decodeWord
  rw [if_neg (not_pair ht), hM]
  rfl
theorem decodeWord_ctx (hM : bitsOf w 24 7 = 0x43) : decodeWord c w 0 = decodeCtx c w := by
  unfold decodeWord
  rw [if_neg (not_pair ht), hM]
  rfl
theorem decodeWord_fp (hM : bitsOf w 24 7 = 0x50) : decodeWord c w 0 = decodeFp c w := by
  unfold decodeWord
  rw [if_neg (not_pair ht), hM]
  rfl
theorem decodeWord_sys (hM : bitsOf w 24 7 = 0x62) : decodeWord c w 0 = decodeSys c w := by
  unfold decodeWord
  rw [if_neg (not_pair ht), hM]
  rfl

theorem decodeWord_loop (hM : bitsOf w 24 7 = 0x17) (h21 : bitsOf w 21 3 = 0) (h0 : bitsOf w 0 14 ≠ 0) :
    decodeWord c w 0 = some (.loop c (reg2 w 19) (reg5 w 14) (BitVec.ofNat 14 w)) := by
  unfold decodeWord
  rw [if_neg (not_pair ht), hM]
  exact if_pos (by simp [h21, h0])
theorem decodeWord_rep (next : BitVec 32) (hM : bitsOf w 24 7 = 0x18) (h19 : bitsOf w 19 5 = 0) (h0 : bitsOf w 0 14 = 0) :
    decodeWord c w next = some (.rep c (reg5 w 14) next) := by
  unfold decodeWord
  rw [if_neg (not_pair ht), hM]
  exact if_pos (by simp [h19, h0])

end

theorem decodeWord_pair {c : CoreId} {w : Nat} (htop : bitsOf w 31 1 = 1) (hlow : bitsOf w 0 1 = 0)
    (h : (slotLegal (slotAt w 16) && slotLegal (slotAt w 1)) = true) : decodeWord c w 0 = some (.pair c (slotAt w 16) (slotAt w 1)) := by
  unfold decodeWord
  rw [if_pos htop]
  refine if_pos ?_
  simpa [hlow] using h

/-! ### Format A: major, three registers, function -/

/-- The fields of a word of format A that say which instruction it is; `b` is its third register. -/
structure FieldsA (w M f b : Nat) : Prop where
  top : bitsOf w 31 1 = 0
  major : bitsOf w 24 7 = M
  fn : bitsOf w 0 9 = f
  rs2 : bitsOf w 9 5 = b

theorem roundTripA {c : CoreId} {i : Fin 32 → Fin 32 → Fin 32 → Instr} {M f : Nat} (hM : M < 128) (hf : f < 512) (d a b : Fin 32)
    (he : encodeWord (i d a b) = wordA M d a b f)
    (hd : ∀ w, FieldsA w M f b → decodeWord c w 0 = some (i (reg5 w 19) (reg5 w 14) (reg5 w 9))) : RoundTrips c (i d a b) := by
  obtain ⟨d, hd32⟩ := d
  obtain ⟨a, ha32⟩ := a
  obtain ⟨b, hb32⟩ := b
  rw [RoundTrips, he, hd]
  · refine ⟨by simp only [wordA]; omega, ?_⟩
    congr 2 <;> refine Fin.ext ?_ <;> simp only [reg5, wordA, bitsOf_eq_div] <;> omega
  · constructor <;> simp only [wordA, bitsOf_eq_div] <;> omega

/-! ### Format I: major, two registers, a number of 14 bits -/

structure FieldsI (w M d a n : Nat) : Prop where
  top : bitsOf w 31 1 = 0
  major : bitsOf w 24 7 = M
  rd : bitsOf w 19 5 = d
  rs1 : bitsOf w 14 5 = a
  imm : bitsOf w 0 14 = n

theorem roundTripI {c : CoreId} {k : Nat} {i : Fin 32 → Fin 32 → BitVec k → Instr} {M : Nat} (hM : M < 128) (hk : k ≤ 14) (d a : Fin 32) (n : BitVec k)
    (he : encodeWord (i d a n) = wordI M d a n.toNat)
    (hd : ∀ w, FieldsI w M d a n.toNat → decodeWord c w 0 = some (i (reg5 w 19) (reg5 w 14) (BitVec.ofNat k w))) : RoundTrips c (i d a n) := by
  obtain ⟨d, hd32⟩ := d
  obtain ⟨a, ha32⟩ := a
  have hn : n.toNat < 2 ^ 14 := n.isLt.trans_le (Nat.pow_le_pow_right (by decide) hk)
  have hlow : BitVec.ofNat k (wordI M d a n.toNat) = n := by
    have hdvd : 2 ^ k ∣ 2 ^ 14 := Nat.pow_dvd_pow 2 hk
    refine BitVec.eq_of_toNat_eq ?_
    rw [BitVec.toNat_ofNat, ← Nat.mod_mod_of_dvd _ hdvd]
    have : wordI M d a n.toNat % 2 ^ 14 = n.toNat := by simp only [wordI]; omega
    rw [this, Nat.mod_eq_of_lt n.isLt]
  rw [RoundTrips, he, hd]
  · refine ⟨by simp only [wordI]; omega, ?_⟩
    rw [hlow]
    congr 2 <;> refine Fin.ext ?_ <;> simp only [reg5, wordI, bitsOf_eq_div] <;> omega
  · constructor <;> simp only [wordI, bitsOf_eq_div] <;> omega

/-! ### Format M: major, a register, a key register, an offset of 15 bits -/

structure FieldsM (w M r : Nat) : Prop where
  top : bitsOf w 31 1 = 0
  major : bitsOf w 24 7 = M
  reg : bitsOf w 19 5 = r

theorem roundTripM {c : CoreId} {i : Fin 32 → Fin 16 → BitVec 15 → Instr} {M : Nat} (hM : M < 128) (r : Fin 32) (k : Fin 16) (n : BitVec 15)
    (he : encodeWord (i r k n) = wordM M r k n.toNat)
    (hd : ∀ w, FieldsM w M r → decodeWord c w 0 = some (i (reg5 w 19) (reg4 w 15) (BitVec.ofNat 15 w))) : RoundTrips c (i r k n) := by
  obtain ⟨r, hr⟩ := r
  obtain ⟨k, hk⟩ := k
  have hn := n.isLt
  have hlow : BitVec.ofNat 15 (wordM M r k n.toNat) = n := by
    refine BitVec.eq_of_toNat_eq ?_
    rw [BitVec.toNat_ofNat]
    simp only [wordM]
    omega
  rw [RoundTrips, he, hd]
  · refine ⟨by simp only [wordM]; omega, ?_⟩
    rw [hlow]
    congr 2 <;> refine Fin.ext ?_ <;> simp only [reg5, reg4, wordM, bitsOf_eq_div] <;> omega
  · constructor <;> simp only [wordM, bitsOf_eq_div] <;> omega

/-- The same where the register is a key register: bit 23 is reserved. -/
theorem roundTripM4 {c : CoreId} {i : Fin 16 → Fin 16 → BitVec 15 → Instr} {M : Nat} (hM : M < 128) (r : Fin 16) (k : Fin 16) (n : BitVec 15)
    (he : encodeWord (i r k n) = wordM M r k n.toNat)
    (hd : ∀ w, FieldsM w M r ∧ bitsOf w 23 1 = 0 → decodeWord c w 0 = some (i (reg4 w 19) (reg4 w 15) (BitVec.ofNat 15 w))) : RoundTrips c (i r k n) := by
  obtain ⟨r, hr⟩ := r
  obtain ⟨k, hk⟩ := k
  have hn := n.isLt
  have hlow : BitVec.ofNat 15 (wordM M r k n.toNat) = n := by
    refine BitVec.eq_of_toNat_eq ?_
    rw [BitVec.toNat_ofNat]
    simp only [wordM]
    omega
  rw [RoundTrips, he, hd]
  · refine ⟨by simp only [wordM]; omega, ?_⟩
    rw [hlow]
    congr 2 <;> refine Fin.ext ?_ <;> simp only [reg4, wordM, bitsOf_eq_div] <;> omega
  · refine ⟨?_, by simp only [wordM, bitsOf_eq_div]; omega⟩
    constructor <;> simp only [wordM, bitsOf_eq_div] <;> omega

/-! ### Format K: major, two key registers, a register, function -/

structure FieldsK (w M f d r : Nat) : Prop where
  top : bitsOf w 31 1 = 0
  major : bitsOf w 24 7 = M
  fn : bitsOf w 0 11 = f
  kd : bitsOf w 20 4 = d
  rs : bitsOf w 11 5 = r

theorem roundTripK {c : CoreId} {i : Fin 16 → Fin 16 → Fin 32 → Instr} {M f : Nat} (hM : M < 128) (hf : f < 2048) (d s : Fin 16) (r : Fin 32)
    (he : encodeWord (i d s r) = wordK M d s r f)
    (hd : ∀ w, FieldsK w M f d r → decodeWord c w 0 = some (i (reg4 w 20) (reg4 w 16) (reg5 w 11))) : RoundTrips c (i d s r) := by
  obtain ⟨d, hd16⟩ := d
  obtain ⟨s, hs16⟩ := s
  obtain ⟨r, hr32⟩ := r
  rw [RoundTrips, he, hd]
  · refine ⟨by simp only [wordK]; omega, ?_⟩
    congr 2 <;> refine Fin.ext ?_ <;> simp only [reg5, reg4, wordK, bitsOf_eq_div] <;> omega
  · constructor <;> simp only [wordK, bitsOf_eq_div] <;> omega

/-- The same where the last register is a key register. -/
theorem roundTripK4 {c : CoreId} {i : Fin 16 → Fin 16 → Fin 16 → Instr} {M f : Nat} (hM : M < 128) (hf : f < 2048) (d s r : Fin 16)
    (he : encodeWord (i d s r) = wordK M d s r f)
    (hd : ∀ w, FieldsK w M f d r → bitsOf w 15 1 = 0 → decodeWord c w 0 = some (i (reg4 w 20) (reg4 w 16) (reg4 w 11))) : RoundTrips c (i d s r) := by
  obtain ⟨d, hd16⟩ := d
  obtain ⟨s, hs16⟩ := s
  obtain ⟨r, hr16⟩ := r
  rw [RoundTrips, he, hd]
  · refine ⟨by simp only [wordK]; omega, ?_⟩
    congr 2 <;> refine Fin.ext ?_ <;> simp only [reg4, wordK, bitsOf_eq_div] <;> omega
  · constructor <;> simp only [wordK, bitsOf_eq_div] <;> omega
  · simp only [wordK, bitsOf_eq_div]
    omega

/-- A level that five bits name. -/
theorem ofNat_eq_reg5 (w lo : Nat) : BitVec.ofNat 5 (w / 2 ^ lo) = BitVec.ofFin (reg5 w lo) := by
  refine BitVec.eq_of_toNat_eq ?_
  simp only [BitVec.toNat_ofNat, BitVec.toNat_ofFin, reg5, bitsOf_eq_div]

/-! ### The instructions -/

/-- KGET of each of its twelve fields. -/
theorem roundTrip_kget (c : CoreId) (r : DReg) (s : KReg) (f : Fin 12) : RoundTrips c (.kget c r s f) := by
  match f with
  | 0 | 1 | 2 | 3 | 4 | 5 | 6 | 7 | 8 | 9 | 10 | 11 =>
    exact roundTripK (i := fun _ s r => .kget c r s _) (by decide) (by decide) 0 s r rfl fun w hw =>
      (decodeWord_key hw.top hw.major).trans (by unfold decodeKey; rw [hw.fn]; exact if_pos hw.kd)

/-- A pair of legal slots. -/
theorem roundTrip_pair (c : CoreId) (a b : ShortOp) (h : (slotLegal a && slotLegal b) = true) : RoundTrips c (.pair c a b) := by
  have hfields : ∀ x : ShortOp, x.op.toNat < 32 ∧ x.a.toNat < 32 ∧ x.b.toNat < 32 := fun x => ⟨x.op.isLt, x.a.isLt, x.b.isLt⟩
  obtain ⟨hao, haa, hab⟩ := hfields a
  obtain ⟨hbo, hba, hbb⟩ := hfields b
  have hslot : ∀ (x : ShortOp) (w lo : Nat), w / 2 ^ lo % 2 ^ 15 = slotWord x → slotAt w lo = x := by
    intro x w lo hw
    obtain ⟨hxo, hxa, hxb⟩ := hfields x
    have h10 : w / 2 ^ (lo + 10) = w / 2 ^ lo / 2 ^ 10 := by rw [Nat.pow_add, Nat.div_div_eq_div_mul]
    have h5 : w / 2 ^ (lo + 5) = w / 2 ^ lo / 2 ^ 5 := by rw [Nat.pow_add, Nat.div_div_eq_div_mul]
    obtain ⟨xo, xa, xb⟩ := x
    simp only [slotWord] at hw hxo hxa hxb
    simp only [slotAt, h10, h5, ShortOp.mk.injEq]
    refine ⟨BitVec.eq_of_toNat_eq ?_, BitVec.eq_of_toNat_eq ?_, BitVec.eq_of_toNat_eq ?_⟩ <;> rw [BitVec.toNat_ofNat] <;> omega
  have ha : slotAt (encodeWord (.pair c a b)) 16 = a := hslot a _ 16 (by simp only [encodeWord, slotWord]; omega)
  have hb : slotAt (encodeWord (.pair c a b)) 1 = b := hslot b _ 1 (by simp only [encodeWord, slotWord]; omega)
  have htop : bitsOf (encodeWord (.pair c a b)) 31 1 = 1 := by simp only [encodeWord, slotWord, bitsOf_eq_div]; omega
  have hlow : bitsOf (encodeWord (.pair c a b)) 0 1 = 0 := by simp only [encodeWord, slotWord, bitsOf_eq_div]; omega
  refine ⟨by simp only [encodeWord, slotWord]; omega, ?_⟩
  rw [decodeWord_pair htop hlow (by rw [ha, hb]; exact h), ha, hb]

/-- A jump's offset is all that follows its major. -/
theorem roundTrip_j (c : CoreId) (off : BitVec 24) : RoundTrips c (.j c off) := by
  have hoff := off.isLt
  have ht : bitsOf (encodeWord (.j c off)) 31 1 = 0 := by simp only [encodeWord, bitsOf_eq_div]; omega
  have hM : bitsOf (encodeWord (.j c off)) 24 7 = 0x16 := by simp only [encodeWord, bitsOf_eq_div]; omega
  have hlow : BitVec.ofNat 24 (encodeWord (.j c off)) = off := by
    refine BitVec.eq_of_toNat_eq ?_
    rw [BitVec.toNat_ofNat]
    simp only [encodeWord]
    omega
  refine ⟨by simp only [encodeWord]; omega, ?_⟩
  unfold decodeWord
  rw [if_neg (not_pair ht), hM]
  exact congrArg (fun x => some (Instr.j c x)) hlow

/-- A loop of at least one word. -/
theorem roundTrip_loop (c : CoreId) (n : Fin 4) (a : DReg) (imm : BitVec 14) (h : (imm != 0) = true) : RoundTrips c (.loop c n a imm) := by
  obtain ⟨n, hn⟩ := n
  obtain ⟨a, ha⟩ := a
  have himm := imm.isLt
  have hpos : imm.toNat ≠ 0 := fun e => (bne_iff_ne.mp h) (BitVec.eq_of_toNat_eq e)
  have ht : bitsOf (wordI 0x17 n a imm.toNat) 31 1 = 0 := by simp only [wordI, bitsOf_eq_div]; omega
  have hM : bitsOf (wordI 0x17 n a imm.toNat) 24 7 = 0x17 := by simp only [wordI, bitsOf_eq_div]; omega
  have h21 : bitsOf (wordI 0x17 n a imm.toNat) 21 3 = 0 := by simp only [wordI, bitsOf_eq_div]; omega
  have h0 : bitsOf (wordI 0x17 n a imm.toNat) 0 14 ≠ 0 := by simp only [wordI, bitsOf_eq_div]; omega
  have hlow : BitVec.ofNat 14 (wordI 0x17 n a imm.toNat) = imm := by
    refine BitVec.eq_of_toNat_eq ?_
    rw [BitVec.toNat_ofNat]
    simp only [wordI]
    omega
  refine ⟨by simp only [encodeWord, wordI]; omega, ?_⟩
  show decodeWord c (wordI 0x17 n a imm.toNat) 0 = _
  rw [decodeWord_loop ht hM h21 h0, hlow]
  congr 2 <;> refine Fin.ext ?_ <;> simp only [reg5, reg2, wordI, bitsOf_eq_div] <;> omega

/-- A REP, whose target is the word after it. -/
theorem roundTrip_rep (c : CoreId) (a : DReg) (target : BitVec 32) :
    encodeWord (.rep c a target) < 2 ^ 32 ∧ decodeWord c (encodeWord (.rep c a target)) target = some (.rep c a target) := by
  obtain ⟨a, ha⟩ := a
  have ht : bitsOf (wordI 0x18 0 a 0) 31 1 = 0 := by simp only [wordI, bitsOf_eq_div]; omega
  have hM : bitsOf (wordI 0x18 0 a 0) 24 7 = 0x18 := by simp only [wordI, bitsOf_eq_div]; omega
  have h19 : bitsOf (wordI 0x18 0 a 0) 19 5 = 0 := by simp only [wordI, bitsOf_eq_div]; omega
  have h0 : bitsOf (wordI 0x18 0 a 0) 0 14 = 0 := by simp only [wordI, bitsOf_eq_div]; omega
  refine ⟨by simp only [encodeWord, wordI]; omega, ?_⟩
  show decodeWord c (wordI 0x18 0 a 0) target = _
  rw [decodeWord_rep ht target hM h19 h0]
  congr 2
  refine Fin.ext ?_
  simp only [reg5, wordI, bitsOf_eq_div]
  omega

/-- An INSI, of n = 4 with an immediate of 8 bits. -/
theorem roundTrip_insi (c : CoreId) (n : Fin 5) (d a : DReg) (imm : BitVec 14) (h : (n.val != 4 || decide (imm.toNat < 256)) = true) :
    RoundTrips c (.insi c n d a imm) := by
  have h8 : ∀ w, bitsOf w 0 14 = imm.toNat → imm.toNat < 256 → bitsOf w 8 6 = 0 := by
    intro w hw hlt
    rw [bitsOf_eq_div] at hw ⊢
    omega
  match n with
  | 0 | 1 | 2 | 3 =>
    exact roundTripI (i := fun d a imm => .insi c _ d a imm) (by decide) (by decide) d a imm rfl fun w hw => by
      unfold decodeWord
      rw [if_neg (not_pair hw.top), hw.major]
      rfl
  | 4 =>
    exact roundTripI (i := fun d a imm => .insi c 4 d a imm) (by decide) (by decide) d a imm rfl fun w hw => by
      unfold decodeWord
      rw [if_neg (not_pair hw.top), hw.major]
      exact if_pos (h8 w hw.imm (by simpa using h))

/-- A context instruction of the LO half; the level stands in the last register's place. -/
theorem roundTrip_ctxLo {c : CoreId} {i : Fin 16 → Fin 16 → BitVec 5 → Instr} {f : Nat} (hf : f < 2048) (d s : Fin 16) (n : BitVec 5)
    (he : encodeWord (i d s n) = wordK 0x43 d s n.toNat f)
    (hd : ∀ w, bitsOf w 0 11 = f → decodeCtx c w = some (i (reg4 w 20) (reg4 w 16) (BitVec.ofNat 5 (w / 2 ^ 11)))) : RoundTrips c (i d s n) :=
  roundTripK (i := fun d s r => i d s (BitVec.ofFin r)) (by decide) hf d s n.toFin he fun w hw =>
    (decodeWord_ctx hw.top hw.major).trans ((hd w hw.fn).trans (by rw [ofNat_eq_reg5]))

/-- A context instruction of the HI half, which has no LINK. -/
theorem roundTrip_ctxHi {c : CoreId} {i : Fin 16 → BitVec 5 → Instr} {f : Nat} (hf : f < 2048) (s : Fin 16) (n : BitVec 5)
    (he : encodeWord (i s n) = wordK 0x43 0 s n.toNat f)
    (hd : ∀ w, bitsOf w 0 11 = f → bitsOf w 20 4 = 0 → decodeCtx c w = some (i (reg4 w 16) (BitVec.ofNat 5 (w / 2 ^ 11)))) : RoundTrips c (i s n) :=
  roundTripK (i := fun _ s r => i s (BitVec.ofFin r)) (by decide) hf 0 s n.toFin he fun w hw =>
    (decodeWord_ctx hw.top hw.major).trans ((hd w hw.fn hw.kd).trans (by rw [ofNat_eq_reg5]))

/-- A floating-point operation of one source. -/
theorem roundTrip_fp2 {c : CoreId} {i : Fin 32 → Fin 32 → Instr} {f : Nat} (hf : f < 512) (d a : Fin 32)
    (he : encodeWord (i d a) = wordA 0x50 d a 0 f)
    (hd : ∀ w, bitsOf w 0 9 = f → bitsOf w 9 5 = 0 → decodeFp c w = some (i (reg5 w 19) (reg5 w 14))) : RoundTrips c (i d a) :=
  roundTripA (i := fun d a _ => i d a) (by decide) hf d a 0 he fun w hw => (decodeWord_fp hw.top hw.major).trans (hd w hw.fn hw.rs2)

/-- BANKRD and BANKWR; register and level are five bits each, the selector stands in the function's place. -/
theorem roundTrip_bank {c : CoreId} {i : BitVec 5 → BitVec 5 → BitVec 9 → Instr} {M : Nat} (hM : M < 128) (r n : BitVec 5) (sel : BitVec 9)
    (he : encodeWord (i r n sel) = wordA M r.toNat n.toNat 0 sel.toNat)
    (hd : ∀ w, bitsOf w 31 1 = 0 → bitsOf w 24 7 = M → bitsOf w 9 5 = 0 →
      decodeWord c w 0 = some (i (BitVec.ofNat 5 (w / 2 ^ 19)) (BitVec.ofNat 5 (w / 2 ^ 14)) (BitVec.ofNat 9 w))) : RoundTrips c (i r n sel) :=
  roundTripA (i := fun r n _ => i (BitVec.ofFin r) (BitVec.ofFin n) sel) hM sel.isLt r.toFin n.toFin 0 he fun w hw => by
    have hsel : BitVec.ofNat 9 w = sel := by
      refine BitVec.eq_of_toNat_eq ?_
      have := hw.fn
      rw [bitsOf_eq_div] at this
      rw [BitVec.toNat_ofNat]
      omega
    rw [hd w hw.top hw.major hw.rs2, ofNat_eq_reg5, ofNat_eq_reg5, hsel]

/-- SRD. -/
theorem roundTrip_srd (c : CoreId) (d : DReg) (num : BitVec 12) : RoundTrips c (.srd c d num) :=
  roundTripI (i := fun d _ num => .srd c d num) (by decide) (by decide) d 0 num rfl fun w hw => by
    have himm := hw.imm
    have h12 : bitsOf w 12 2 = 0 := by
      rw [bitsOf_eq_div] at himm ⊢
      omega
    unfold decodeWord
    rw [if_neg (not_pair hw.top), hw.major]
    exact if_pos (by simp [hw.rs1, h12])

/-- SWR. -/
theorem roundTrip_swr (c : CoreId) (a : DReg) (num : BitVec 12) : RoundTrips c (.swr c a num) :=
  roundTripI (i := fun _ a num => .swr c a num) (by decide) (by decide) 0 a num rfl fun w hw => by
    have himm := hw.imm
    have h12 : bitsOf w 12 2 = 0 := by
      rw [bitsOf_eq_div] at himm ⊢
      omega
    unfold decodeWord
    rw [if_neg (not_pair hw.top), hw.major]
    exact if_pos (by simp [hw.rd, h12])

/-- TRAP. -/
theorem roundTrip_trap (c : CoreId) (code : BitVec 14) : RoundTrips c (.trap c code) :=
  roundTripI (i := fun _ _ code => .trap c code) (by decide) (by decide) 0 0 code rfl fun w hw => by
    have hrd := hw.rd
    have hrs1 := hw.rs1
    have h14 : bitsOf w 14 10 = 0 := by
      rw [bitsOf_eq_div] at hrd hrs1 ⊢
      omega
    unfold decodeWord
    rw [if_neg (not_pair hw.top), hw.major]
    exact if_pos h14

/-- Every legal word but a REP. -/
theorem roundTrips_of_lurikWord {i : Instr} {c : CoreId} (h : LurikWord c i) (hrep : ∀ a t, i ≠ .rep c a t) : RoundTrips c i := by
  cases i with
  | pair _ a b =>
    obtain ⟨rfl, hlegal⟩ := Prod.mk.inj (Option.some.inj h)
    exact roundTrip_pair _ a b hlegal
  | j =>
    cases h
    exact roundTrip_j _ _
  | loop _ n a imm =>
    obtain ⟨rfl, hpos⟩ := Prod.mk.inj (Option.some.inj h)
    exact roundTrip_loop _ n a imm hpos
  | insi _ n d a imm =>
    obtain ⟨rfl, hfits⟩ := Prod.mk.inj (Option.some.inj h)
    exact roundTrip_insi _ n d a imm hfits
  | rep _ a t =>
    cases h
    exact absurd rfl (hrep a t)
  | add _ d a b | sub _ d a b | and _ d a b | or _ d a b | xor _ d a b | sll _ d a b | srl _ d a b | sra _ d a b | slt _ d a b | sltu _ d a b
  | min _ d a b | max _ d a b | minu _ d a b | maxu _ d a b | mul _ d a b | mulh _ d a b | mulhu _ d a b | div _ d a b | divu _ d a b
  | rem _ d a b | remu _ d a b =>
    cases h
    exact roundTripA (by decide) (by decide) d a b rfl fun w hw => (decodeWord_int hw.top hw.major).trans (by unfold decodeInt; rw [hw.fn]; rfl)
  | addi _ d a n | andi _ d a n | ori _ d a n | xori _ d a n | slti _ d a n | sltiu _ d a n
  | beq _ d a n | bne _ d a n | blt _ d a n | bge _ d a n | bltu _ d a n | bgeu _ d a n =>
    cases h
    exact roundTripI (by decide) (by decide) d a n rfl fun w hw => by
      unfold decodeWord
      rw [if_neg (not_pair hw.top), hw.major]
      rfl
  | slli _ d a n | srli _ d a n | srai _ d a n =>
    cases h
    exact roundTripI (by decide) (by decide) d a n rfl fun w hw => by
      have hn := n.isLt
      have h6 : bitsOf w 6 8 = 0 := by
        have himm := hw.imm
        rw [bitsOf_eq_div] at himm ⊢
        omega
      unfold decodeWord
      rw [if_neg (not_pair hw.top), hw.major]
      exact if_pos h6
  | ldb _ r k n | ldbu _ r k n | ldh _ r k n | ldhu _ r k n | ldw _ r k n | ldwu _ r k n | ldd _ r k n | ldf _ r k n
  | stb _ r k n | sth _ r k n | stw _ r k n | std _ r k n | stf _ r k n | lduW _ r k n | lduD _ r k n | stuW _ r k n | stuD _ r k n =>
    cases h
    exact roundTripM (by decide) r k n rfl fun w hw => by
      unfold decodeWord
      rw [if_neg (not_pair hw.top), hw.major]
      rfl
  | ldk _ r k n | stk _ r k n =>
    cases h
    exact roundTripM4 (by decide) r k n rfl fun w hw => by
      unfold decodeWord
      rw [if_neg (not_pair hw.1.top), hw.1.major]
      exact if_pos hw.2
  | kadd _ d s r | kbound _ d s r | kboundr _ d s r | krights _ d s r | kloc _ d s r | kreepoch _ d s r =>
    cases h
    exact roundTripK (by decide) (by decide) d s r rfl fun w hw => (decodeWord_key hw.top hw.major).trans (by unfold decodeKey; rw [hw.fn]; rfl)
  | ktest _ r s d =>
    cases h
    exact roundTripK (i := fun d s r => .ktest _ r s d) (by decide) (by decide) d s r rfl fun w hw =>
      (decodeWord_key hw.top hw.major).trans (by unfold decodeKey; rw [hw.fn]; rfl)
  | kmove _ d s =>
    cases h
    exact roundTripK (i := fun d s _ => .kmove _ d s) (by decide) (by decide) d s 0 rfl fun w hw =>
      (decodeWord_key hw.top hw.major).trans (by unfold decodeKey; rw [hw.fn]; exact if_pos hw.rs)
  | jkl _ d s =>
    cases h
    exact roundTripK (i := fun d s _ => .jkl _ d s) (by decide) (by decide) d s 0 rfl fun w hw =>
      (decodeWord_key hw.top hw.major).trans (by unfold decodeKey; rw [hw.fn]; exact if_pos hw.rs)
  | jk _ s =>
    cases h
    exact roundTripK (i := fun _ s _ => .jk _ s) (by decide) (by decide) 0 s 0 rfl fun w hw =>
      (decodeWord_key hw.top hw.major).trans (by unfold decodeKey; rw [hw.fn]; exact if_pos (by simp [hw.kd, hw.rs]))
  | kget _ r s f =>
    cases h
    exact roundTrip_kget _ r s f
  | kseal _ d s r | kunseal _ d s r =>
    cases h
    exact roundTripK4 (by decide) (by decide) d s r rfl fun w hw h15 =>
      (decodeWord_key hw.top hw.major).trans (by unfold decodeKey; rw [hw.fn]; exact if_pos h15)
  | amoadd _ wide r v s =>
    cases h
    cases wide
    · exact roundTripK (i := fun v s r => .amoadd _ false r v s) (by decide) (by decide) v s r rfl fun w hw =>
        (decodeWord_atomic hw.top hw.major).trans (by unfold decodeAtomic; rw [hw.fn]; rfl)
    · exact roundTripK (i := fun v s r => .amoadd _ true r v s) (by decide) (by decide) v s r rfl fun w hw =>
        (decodeWord_atomic hw.top hw.major).trans (by unfold decodeAtomic; rw [hw.fn]; rfl)
  | amoswp _ wide r v s =>
    cases h
    cases wide
    · exact roundTripK (i := fun v s r => .amoswp _ false r v s) (by decide) (by decide) v s r rfl fun w hw =>
        (decodeWord_atomic hw.top hw.major).trans (by unfold decodeAtomic; rw [hw.fn]; rfl)
    · exact roundTripK (i := fun v s r => .amoswp _ true r v s) (by decide) (by decide) v s r rfl fun w hw =>
        (decodeWord_atomic hw.top hw.major).trans (by unfold decodeAtomic; rw [hw.fn]; rfl)
  | cas _ wide r v s =>
    cases h
    cases wide
    · exact roundTripK (i := fun v s r => .cas _ false r v s) (by decide) (by decide) v s r rfl fun w hw =>
        (decodeWord_atomic hw.top hw.major).trans (by unfold decodeAtomic; rw [hw.fn]; rfl)
    · exact roundTripK (i := fun v s r => .cas _ true r v s) (by decide) (by decide) v s r rfl fun w hw =>
        (decodeWord_atomic hw.top hw.major).trans (by unfold decodeAtomic; rw [hw.fn]; rfl)
  | kcas _ d s r =>
    cases h
    exact roundTripK4 (by decide) (by decide) d s r rfl fun w hw h15 =>
      (decodeWord_atomic hw.top hw.major).trans (by unfold decodeAtomic; rw [hw.fn]; exact if_pos h15)
  | mcpy _ d s r | mset _ d s r =>
    cases h
    exact roundTripK (by decide) (by decide) d s r rfl fun w hw => (decodeWord_copy hw.top hw.major).trans (by unfold decodeCopy; rw [hw.fn]; rfl)
  | ctxsaveLo _ d s n | ctxloadLo _ d s n =>
    cases h
    exact roundTrip_ctxLo (by decide) d s n rfl fun w hw => by unfold decodeCtx; rw [hw]; rfl
  | ctxsaveHi _ s n | ctxloadHi _ s n =>
    cases h
    exact roundTrip_ctxHi (by decide) s n rfl fun w hw hkd => by unfold decodeCtx; rw [hw]; exact if_pos hkd
  | fadd _ single d a b | fsub _ single d a b | fmul _ single d a b | fma _ single d a b | fdiv _ single d a b | fmin _ single d a b
  | fmax _ single d a b | fcmpEq _ single d a b | fcmpLt _ single d a b | fcmpLe _ single d a b | fcmpUn _ single d a b =>
    cases h
    cases single <;>
    exact roundTripA (by decide) (by decide) d a b rfl fun w hw => (decodeWord_fp hw.top hw.major).trans (by unfold decodeFp; rw [hw.fn]; rfl)
  | fsqrt _ single d a | fcvtDL _ single d a | fcvtLD _ single d a =>
    cases h
    cases single <;>
    exact roundTrip_fp2 (by decide) d a rfl fun w hf hb => by unfold decodeFp; rw [hf]; exact if_pos hb
  | fmov _ d a | fneg _ d a | fabs _ d a | fcvtDS _ d a | fcvtSD _ d a | fmvX _ d a | fmvF _ d a =>
    cases h
    exact roundTrip_fp2 (by decide) d a rfl fun w hf hb => by unfold decodeFp; rw [hf]; exact if_pos hb
  | srd _ d num =>
    cases h
    exact roundTrip_srd _ d num
  | swr _ a num =>
    cases h
    exact roundTrip_swr _ a num
  | fence | gateSync | ewait | eret =>
    cases h
    exact ⟨by simp [encodeWord, wordA], (decodeWord_sys (by simp [encodeWord, wordA, bitsOf_eq_div]) (by simp [encodeWord, wordA, bitsOf_eq_div])).trans
      (by simp [decodeSys, encodeWord, wordA, bitsOf_eq_div])⟩
  | bankrd _ r n sel | bankwr _ r n sel =>
    cases h
    exact roundTrip_bank (by decide) r n sel rfl fun w ht hM hb => by
      unfold decodeWord
      rw [if_neg (not_pair ht), hM]
      exact if_pos hb
  | trap _ code =>
    cases h
    exact roundTrip_trap _ code
  | _ => cases h

/-- Settles O6: the fields of each format read back from its word. -/
theorem lurikWordsRoundTrip : Obligations.LurikWordsRoundTrip := by
  unfold Obligations.LurikWordsRoundTrip
  intro i c h
  cases i with
  | rep _ a target =>
    cases h
    exact roundTrip_rep _ a target
  | _ => exact roundTrips_of_lurikWord h (fun _ _ => Instr.noConfusion)

end Sys2Proof.Machine

/-!
Refutations of the statements about stores.
-/
namespace Sys2Proof.Machine

/-- The low part of an STU, whose request has gone to another node. -/
def sentLowPart : StoreEnt := ⟨0, [0], none, 0, 0, 0, true, none, some 0, false⟩
/-- The high part of the same STU, whose target is this module. -/
def waitingHighPart : StoreEnt := ⟨0xFFF * 2 ^ 52, [0], none, 0, 0, 0, true, none, none, true⟩
/-- A module whose core 0 holds both parts. -/
def splitStoreMod : Mod := ({} : Mod).setCore 0 { sb := [sentLowPart, waitingHighPart] }

/-- Refutes O16: the high part of an STU waits in the store buffer while its low part awaits its acknowledgement (R288), so the oldest store not
yet at its target need not be performed. In `splitStoreMod` STORE_ACKNOWLEDGE leaves both entries. -/
theorem not_storesEnterTheStoreBuffer : ¬ Obligations.StoresEnterTheStoreBuffer := by
  intro h
  obtain ⟨t, ht, -, hmod⟩ := (h.2.2 ⟨[], splitStoreMod⟩ 0).2 1 waitingHighPart _ _ rfl rfl (by decide) (by decide) rfl
  cases ht
  have hsb := congrArg (fun m : Mod => (m.core 0).sb.length) hmod
  revert hsb
  decide

end Sys2Proof.Machine

/-!
Refutations of the statements about field ports.
-/
namespace Sys2Proof.Machine

/-- The odd port of a quadrature pair past t2, with nothing left to wait for but its even port, which is before t1. -/
def waitingOddPort : Mod :=
  ((({} : Mod).wr F.PORT_STATUS_EFF_MODE 1 10).setPort 0 { phase := .reconf }).setPort 1 { phase := .run }

/-- Refutes O29: the odd port of a quadrature pair waits for its even port's t5 (R32), so its transition does not end with its own t5.
In `waitingOddPort` the t5 of port 1 has come, and its sequence goes on. -/
theorem not_portModeChangesFollowTheirSequence : ¬ Obligations.PortModeChangesFollowTheirSequence := by
  intro h
  obtain ⟨-, -, -, -, -, -, -, -, -, -, -, hend⟩ := h ⟨[], waitingOddPort⟩ 1 ⟨0, true, 0, 0⟩ 0
  obtain ⟨t, ht, -, -, hphase, -⟩ := hend (by decide) (by decide) (by decide)
  cases ht
  revert hphase
  decide

end Sys2Proof.Machine

/-!
Refutations of the statements about mesh links and gates.
-/
namespace Sys2Proof.Machine

/-- A flit whose first granule is tagged, though its key is none that may leave. -/
def taggedFlit : Flit := ⟨0, 0, 0, 0x02, 0, 0, 0, 1, 0, 0, false, 0, false, false, 0⟩

/-- A module whose open link 0 keeps a block with that flit. -/
def keptTagMod : Mod := (({} : Mod).wr F.MESH_LINK_STATUS_STATE 0 5).setLink 0 { replay := [(0, [.flit taggedFlit])] }

/-- Refutes O39: a block sent again is kept with the tags that the filter leaves (R163), not as it was.
In `keptTagMod` RESEND_REQUEST of block 0 takes the tag of its flit. -/
theorem not_meshLinksComeUpStepByStep : ¬ Obligations.MeshLinksComeUpStepByStep := by
  intro h
  obtain ⟨-, -, -, -, -, -, -, -, -, -, -, -, hup, -⟩ :=
    h.1 ⟨[], keptTagMod⟩ 0 0 ⟨0, false, 0, 0⟩ ⟨0, 0, 0, 0, 0, 0, false, false, false, 0⟩ ⟨false, false, false, 0, 0, false, 0⟩ 0 0 [] none ⟨0, .flit taggedFlit, none⟩
  obtain ⟨-, -, -, hresend, -⟩ := hup (by decide)
  obtain ⟨t, ht, -, hreplay, -⟩ := hresend
  cases ht
  have hsame := congrArg (fun r => r.flatMap (fun x => x.2.map (fun p => p == .flit taggedFlit))) hreplay
  revert hsame
  decide +kernel

/-- A module in service whose fault queue is full. -/
def fullFaultQueueMod : Mod := { ({} : Mod) with phase := { spineUp := true }, fq := List.replicate 64 ⟨0, 0, 0, 0, 0, 0, 0, 0, 0, 0, 0⟩ }

/-- Refutes O45: a write of the reserved CLASS 3 is reported (R7), and a report that meets a full fault queue is counted in FLT_Q_LOST, a register
that is none of the entry's. In `fullFaultQueueMod` GATE_ENT_APPLY of CLASS 3 changes it. -/
theorem not_gateEntriesArePendingUntilApplied : ¬ Obligations.GateEntriesArePendingUntilApplied := by
  intro h
  obtain ⟨hfree, -⟩ := h.2 ⟨[], fullFaultQueueMod⟩ ⟨0, false, 0, 0⟩ 0 0 0 0x300
  obtain ⟨-, happly, -⟩ := hfree (by decide) (by decide)
  obtain ⟨t, ht, -, -, -, -, -, -, -, -, -, -, honly, -⟩ := happly (by decide)
  cases ht
  have hlost := honly .FLT_Q_LOST 0 (by decide)
  revert hlost
  decide +kernel

end Sys2Proof.Machine

/-!
What an access to memory through the caches leaves as it was (R231 to R238): all but memory, its lines and the L1 copies.
-/
namespace Sys2Proof.Machine

/-! ### Repeated changes -/

/-- What each of several changes keeps, all of them keep. -/
theorem Mod.each_keeps {α : Type} {P : Mod → Prop} {f : Mod → α → Mod} (hf : ∀ m x, P m → P (f m x)) (l : List α) {m : Mod} (h : P m) :
    P (m.each l f) := by
  induction l generalizing m with
  | nil => exact h
  | cons x xs ih => exact ih (hf m x h)

@[simp] theorem Mod.iff_false (m : Mod) (f : Mod → Mod) : m.iff false f = m := rfl
@[simp] theorem Mod.iff_true (m : Mod) (f : Mod → Mod) : m.iff true f = f m := rfl

/-- What a change keeps, the change under a condition keeps. -/
theorem Mod.iff_keeps {P : Mod → Prop} {f : Mod → Mod} {m : Mod} (c : Bool) (hf : P (f m)) (h : P m) : P (m.iff c f) := by
  cases c
  · exact h
  · exact hf

/-! ### The relation -/

/-- A core without its L1 copies. -/
def Core.uncached (k : Core) : Core := { k with l1d := [], l1i := [] }

/-- A module without memory, its lines and its cores. -/
def Mod.uncached (m : Mod) : Mod :=
  { m with mem := [], tags := [], spoiled := [], dramPoison := [], lines := [], side := [], victims := [], held := [], plru := [], cores := [] }

/-- From `m` to `t` nothing but memory, its lines and L1 copies changes. -/
structure Mod.Cached (m t : Mod) : Prop where
  rest : t.uncached = m.uncached
  core : ∀ c, (t.core c).uncached = (m.core c).uncached

theorem Mod.Cached.refl (m : Mod) : m.Cached m := ⟨rfl, fun _ => rfl⟩

theorem Mod.Cached.trans {m n t : Mod} (h : m.Cached n) (h' : n.Cached t) : m.Cached t :=
  ⟨h'.rest.trans h.rest, fun c => (h'.core c).trans (h.core c)⟩

theorem Mod.Cached.each {α : Type} {f : Mod → α → Mod} (hf : ∀ (m : Mod) x, m.Cached (f m x)) (l : List α) (m : Mod) : m.Cached (m.each l f) :=
  Mod.each_keeps (P := fun t => m.Cached t) (fun t x h => h.trans (hf t x)) l (.refl m)

theorem Mod.Cached.iff {f : Mod → Mod} {m : Mod} (c : Bool) (h : m.Cached (f m)) : m.Cached (m.iff c f) :=
  Mod.iff_keeps c h (.refl m)

/-- A change of nothing but memory and its lines. -/
theorem Mod.Cached.of_uncached {m t : Mod} (h : t.uncached = m.uncached) (hc : t.cores = m.cores) : m.Cached t :=
  ⟨h, fun c => by rw [Mod.core, Mod.core, hc]⟩

/-- A change of nothing but one core's L1 copies. -/
theorem Mod.cached_setCore (m : Mod) (c : Nat) {k : Core} (h : k.uncached = (m.core c).uncached) : m.Cached (m.setCore c k) := by
  refine ⟨rfl, fun c' => ?_⟩
  by_cases hc : c' = c
  · rw [hc, Mod.core_setCore_self, h]
  · rw [Mod.core_setCore_ne m k hc]

section
variable {m t : Mod} (h : m.Cached t)
include h

theorem Mod.Cached.regs : t.regs = m.regs := (congrArg Mod.regs h.rest :)
theorem Mod.Cached.now : t.now = m.now := (congrArg Mod.now h.rest :)
theorem Mod.Cached.sweep : t.sweep = m.sweep := (congrArg Mod.sweep h.rest :)
theorem Mod.Cached.reg (r : Reg) (i : Nat) : t.reg r i = m.reg r i := by rw [Mod.reg, Mod.reg, h.regs]
theorem Mod.Cached.rd (f : Fld) (i : Nat) : t.rd f i = m.rd f i := by rw [Mod.rd, Mod.rd, h.reg]
theorem Mod.Cached.flag (f : Fld) (i : Nat) : t.flag f i = m.flag f i := by rw [Mod.flag, Mod.flag, h.rd]
theorem Mod.Cached.node : t.node = m.node := by simp only [Mod.node, h.rd, h.flag]

end

/-! ### Frames and lines -/

theorem Mod.cached_setBytes (m : Mod) (a : Nat) (bs : List Byte) : m.Cached (m.setBytes a bs) := .of_uncached rfl rfl
theorem Mod.cached_setTag (m : Mod) (a : Nat) (t : Bool) : m.Cached (m.setTag a t) := .of_uncached rfl rfl
theorem Mod.cached_unspoil (m : Mod) (a n : Nat) : m.Cached (m.unspoil a n) := .of_uncached rfl rfl

theorem Mod.cached_dramPoison (m : Mod) (t : Tbl Bool) : m.Cached { m with dramPoison := t } := .of_uncached rfl rfl

theorem Mod.cached_putFrame (m : Mod) (ln : Nat) (data : BitVec 512) (tags : BitVec 4) (poison : Bool) :
    m.Cached (m.putFrame ln data tags poison) := by
  have htags := Mod.Cached.each (fun m j => m.cached_setTag (64 * ln + 16 * j) (bitAt tags.toNat j)) (upTo 4) (m.setNum (64 * ln) 64 data.toNat)
  exact ((m.cached_setBytes _ _).trans htags).trans (Mod.cached_dramPoison _ _)

theorem Mod.cached_l1Drop (m : Mod) (c ln : Nat) : m.Cached (m.l1Drop c ln) := m.cached_setCore c rfl

theorem Mod.cached_l1Invalidate (m : Mod) (ln : Nat) (keep : Option Nat) : m.Cached (m.l1Invalidate ln keep) := by
  have hcores : m.Cached (m.each (Tbl.keys m.cores) (fun m c => if keep = some c then
      m.setCore c { m.core c with l1i := (m.core c).l1i.filter (·.1 != ln) } else m.l1Drop c ln)) := by
    refine .each (fun m c => ?_) _ m
    split
    · exact m.cached_setCore c rfl
    · exact m.cached_l1Drop c ln
  unfold Mod.l1Invalidate
  dsimp only
  split
  · exact hcores.trans (.of_uncached rfl rfl)
  · exact hcores

theorem Mod.cached_touchWay (m : Mod) (ln w : Nat) : m.Cached (m.touchWay ln w) := .of_uncached rfl rfl
theorem Mod.cached_sideDrop (m : Mod) (ln : Nat) : m.Cached (m.sideDrop ln) := .of_uncached rfl rfl
theorem Mod.cached_lines (m : Mod) (l : Tbl Line) : m.Cached { m with lines := l } := .of_uncached rfl rfl

theorem Mod.cached_dropLine (m : Mod) (ln : Nat) : m.Cached (m.dropLine ln) :=
  ((m.cached_l1Invalidate ln none).trans (Mod.cached_sideDrop _ ln)).trans (Mod.cached_lines _ _)

theorem Mod.cached_cleanLine (m : Mod) (ln : Nat) : m.Cached (m.cleanLine ln) := by
  unfold Mod.cleanLine
  split
  · split
    · exact (m.cached_putFrame _ _ _ _).trans (Mod.cached_lines _ _)
    · exact .refl m
  · exact .refl m

theorem Mod.cached_acceptVictims (m : Mod) (sl : Nat) : m.Cached (m.acceptVictims sl) := by
  refine Mod.Cached.trans ?_ (.each (fun m f => ?_) _ _)
  · exact (Mod.Cached.each (fun m v => m.cached_putFrame _ _ _ _) _ m).trans (.of_uncached rfl rfl)
  · split
    · exact .refl m
    · dsimp only
      split
      · next o l ho =>
        exact ((Mod.Cached.iff _ (m.cached_putFrame _ _ _ _)).trans (Mod.cached_dropLine _ o)).trans
          ((Mod.cached_touchWay _ _ _).trans (Mod.cached_lines _ _))
      · exact (m.cached_touchWay _ _).trans (Mod.cached_lines _ _)

theorem Mod.cached_allocate (m : Mod) (ln : Nat) (data : BitVec 512) (tags : BitVec 4) (dirty poison : Bool) :
    m.Cached (m.allocate ln data tags dirty poison) := by
  unfold Mod.allocate
  dsimp only
  split
  · next o l ho => exact ((m.cached_cleanLine o).trans (Mod.cached_dropLine _ o)).trans ((Mod.cached_touchWay _ _ _).trans (Mod.cached_lines _ _))
  · exact (m.cached_touchWay _ _).trans (Mod.cached_lines _ _)

theorem Mod.cached_bring (m : Mod) (ln : Nat) : m.Cached (m.bring ln) := by
  refine (m.cached_acceptVictims (sliceOf ln)).trans ?_
  unfold Mod.bring
  dsimp only
  split
  · exact Mod.cached_touchWay _ _ _
  · split
    · exact (Mod.cached_sideDrop _ _).trans (Mod.cached_allocate _ _ _ _ _ _)
    · exact Mod.cached_allocate _ _ _ _ _ _

theorem Mod.cached_prefetch (m : Mod) (ln : Nat) : m.Cached (m.prefetch ln) := by
  unfold Mod.prefetch
  dsimp only
  split
  · exact .refl m
  · exact .of_uncached rfl rfl

theorem Mod.cached_prefetchAfter (m : Mod) (c ln : Nat) : m.Cached (m.prefetchAfter c ln) := by
  unfold Mod.prefetchAfter
  exact .iff _ (.each (fun m x => m.cached_prefetch x) _ m)

theorem Mod.cached_missLine (m : Mod) (c ln : Nat) : m.Cached (m.missLine c ln) := by
  unfold Mod.missLine
  exact (m.cached_bring ln).trans (.iff _ (Mod.cached_prefetchAfter _ c ln))

theorem Mod.cached_l1Fill (m : Mod) (c ln epoch : Nat) (fetch : Bool) : m.Cached (m.l1Fill c ln epoch fetch) := by
  have hcore : m.Cached (m.setCore c (if fetch then { m.core c with l1i := l1Touch (m.core c).l1i ln epoch }
      else { m.core c with l1d := l1Touch (m.core c).l1d ln epoch })) := by
    refine m.cached_setCore c ?_
    split <;> rfl
  unfold Mod.l1Fill
  dsimp only
  split
  · exact hcore.trans (Mod.cached_lines _ _)
  · exact hcore

theorem Mod.cached_l1Miss (m : Mod) (c ln epoch : Nat) (sys fetch : Bool) : m.Cached (m.l1Miss c ln epoch sys fetch) := by
  have hmiss : m.Cached (m.iff (decide (64 * ln < dramTop)) (fun m => m.missLine c ln)) := .iff _ (m.cached_missLine c ln)
  unfold Mod.l1Miss
  exact hmiss.trans (.iff _ (Mod.cached_l1Fill _ c ln epoch fetch))

/-! ### Reads and writes of a target -/

theorem Mod.cached_writeLine (m : Mod) (a : Nat) (bs : List Byte) (key : Option Bool) (writer : Option Nat) :
    m.Cached (m.writeLine a bs key writer) := by
  refine ((m.cached_acceptVictims (sliceOf (a / 64))).trans (Mod.cached_l1Invalidate _ (a / 64) writer)).trans ?_
  unfold Mod.writeLine
  dsimp only
  split
  · refine (Mod.cached_sideDrop _ (a / 64)).trans ?_
    split
    · exact (Mod.cached_touchWay _ _ _).trans (Mod.cached_lines _ _)
    · exact Mod.cached_allocate _ _ _ _ _ _
  · refine ((Mod.cached_sideDrop _ (a / 64)).trans (Mod.cached_bring _ (a / 64))).trans ?_
    split
    · exact Mod.cached_lines _ _
    · exact .refl _

theorem Mod.cached_dramRead (m : Mod) (a n : Nat) : m.Cached (m.dramRead a n).1 := m.cached_bring _

theorem Mod.cached_rawRead (m : Mod) (a n : Nat) : m.Cached (m.rawRead a n).1 := by
  unfold Mod.rawRead
  split
  · exact List.foldlRecOn (linePieces 3 a n) _ (motive := fun (r : Mod × Got) => m.Cached r.1) (Mod.Cached.refl m)
      (fun r hr p _ => hr.trans (r.1.cached_dramRead p.1 p.2))
  all_goals exact .refl m

theorem Mod.cached_keyAt (m : Mod) (a : Nat) : m.Cached (m.keyAt a).1 := m.cached_rawRead a 16

theorem Mod.cached_rawWrite (m : Mod) (a : Nat) (bs : List Byte) (key : Option Bool) (writer : Option Nat) :
    m.Cached (m.rawWrite a bs key writer) := by
  have hplain : m.Cached (((m.setBytes a bs).unspoil a bs.length).each
      (span (a / 16) ((a + bs.length - 1) / 16 + 1 - a / 16)) (fun m gr => m.setTag (16 * gr) (key.getD false))) :=
    ((m.cached_setBytes a bs).trans (Mod.cached_unspoil _ _ _)).trans (.each (fun m _ => m.cached_setTag _ _) _ _)
  unfold Mod.rawWrite
  cases targetOf a with
  | dram => exact .each (fun m p => m.cached_writeLine _ _ _ _) _ m
  | code g => exact .refl m
  | regs off => exact .refl m
  | none => exact .refl m
  | signal g off => exact m.cached_setBytes a bs
  | mailbox off => exact m.cached_setBytes a bs
  | scratch g off => exact hplain
  | coreScratch c => exact hplain

end Sys2Proof.Machine

/-!
Requests that come over the mesh (R304, R309, R311).
-/
namespace Sys2Proof.Machine

/-! ### Completing with a next state -/

/-- A command's effect is said of the module it leaves. -/
theorem does_next {i : Instr} {s : State} {m : Mod} {P : Mod → Prop} (he : exec i s = .next { s with mod := m }) (h : P m) : Does i s P :=
  ⟨_, he, rfl, h⟩

/-! ### Credits and services change nothing else -/

/-- Credits given back leave as what is signalled, and change nothing else. -/
theorem Mod.giveCredits_frame (m : Mod) (l vc n : Nat) : ∃ w, m.giveCredits l vc n = { m with wire := w } := by
  suffices h : ∀ (is : List Nat) (m : Mod), ∃ w, m.each is (fun m _ => m.signal (.credit l vc)) = { m with wire := w } from h _ m
  intro is
  induction is with
  | nil => exact fun m => ⟨m.wire, rfl⟩
  | cons i is ih =>
    intro m
    obtain ⟨w, hw⟩ := ih (m.signal (.credit l vc))
    exact ⟨w, hw⟩

/-- A request that comes into service is noted; of the rest credits alone leave. -/
theorem Mod.serviceBegins_frame (m : Mod) (l : Nat) (f : Flit) (n : Nat) :
    ∃ sv w, m.serviceBegins l f n = { m with serving := sv, wire := w } := by
  unfold Mod.serviceBegins
  dsimp only
  split
  · exact ⟨_, _, rfl⟩
  · obtain ⟨w, hw⟩ := Mod.giveCredits_frame { m with serving := _ } l f.vc.toNat n
    exact ⟨_, w, hw⟩

/-- Whether a request is late is not changed by its coming into service. -/
theorem Mod.servedLate_serviceBegins (m : Mod) (l : Nat) (f : Flit) (n l' : Nat) (f' : Flit) :
    (m.serviceBegins l f n).servedLate l' f' = m.servedLate l' f' := by
  obtain ⟨sv, w, h⟩ := m.serviceBegins_frame l f n
  rw [h]
  rfl

theorem Mod.flag_serviceBegins (m : Mod) (l : Nat) (f : Flit) (n : Nat) (x : Fld) (i : Nat) :
    (m.serviceBegins l f n).flag x i = m.flag x i := by
  obtain ⟨sv, w, h⟩ := m.serviceBegins_frame l f n
  rw [h]
  rfl

theorem Mod.arrivingKeys_serviceBegins (m : Mod) (l : Nat) (f : Flit) (n : Nat) (att : Bool) (a : Nat) (bs : List Byte) (tags : Nat) :
    (m.serviceBegins l f n).arrivingKeys att a bs tags = m.arrivingKeys att a bs tags := by
  obtain ⟨sv, w, h⟩ := m.serviceBegins_frame l f n
  rw [h]
  rfl

/-- A request for this module that comes over an attested link, in time, is in service while it is served. -/
theorem Mod.arrive_of_attested {m : Mod} {l : Nat} {f : Flit} {t : Nat} (data : List Flit) (serve : Mod → Bool → Mod)
    (hl : m.linkState l = 4) (ht : f.ftype.toNat = t) (hd : f.dst.toNat = m.node) (hlate : m.servedLate l f = false) :
    m.arrive l f data t serve = (serve (m.serviceBegins l f (1 + data.length)) false).serviceEnds := by
  simp [Mod.arrive, Mod.linkUp, hl, ht, hd, Mod.servedLate_serviceBegins, hlate, Mod.iff]

/-- A refusal in time is the NACK of its kind. -/
@[simp] theorem Mod.nackHome_false (m : Mod) (f : Flit) (k : Nat) : m.nackHome f k false = m.respond (nackOf m.node f k) [] := rfl

/-! ### A write without keys -/

/-- Bytes written within one line outside register space, no keys among them. -/
theorem Mod.storeAs_of_bytes (m : Mod) {a : Nat} (h : ∀ off, targetOf a ≠ .regs off) (bs : List Byte) (master : Nat) :
    m.storeAs master a bs [] = m.rawWrite a bs none none := by
  unfold Mod.storeAs
  split
  next off ho => exact absurd ho (h off)
  next => rfl

/-- A served WR of a whole range without keys. -/
theorem Mod.serveWr_of_admitted {m m1 : Mod} {l : Nat} {f d : Flit} (h1 : oneLine f = true)
    (hk : m.arrivingKeys (m.flag F.MESH_LINK_STATUS_ATTESTED l) (flitAddr f) (payBytes d.payload (flitAddr f) (flitSize f)) d.tags.toNat = [])
    (hg : m.passGate (flitAcc f (flitAddr f) (flitSize f) .store) = (m1, none)) (ht : ∀ off, targetOf (flitAddr f) ≠ .regs off)
    (hm : maskRuns (bitsOf f.payload.toNat 128 64 >>> (flitAddr f % 64)) (flitSize f) = [(0, flitSize f)])
    (hn : (payBytes d.payload (flitAddr f) (flitSize f)).length = flitSize f) :
    m.serveWr l f d false =
      let t := m1.rawWrite (flitAddr f) (payBytes d.payload (flitAddr f) (flitSize f)) none none
      t.respond (t.answerTo f 0x13 1 0 false) [] := by
  have htake : (payBytes d.payload (flitAddr f) (flitSize f)).take (flitSize f) = payBytes d.payload (flitAddr f) (flitSize f) :=
    List.take_of_length_le hn.le
  unfold Mod.serveWr
  simp only [h1, hk, hg, hm, List.isEmpty_nil, Bool.not_true, Bool.false_eq_true, if_false, if_true]
  cases htarget : targetOf (flitAddr f) with
  | regs off => exact absurd htarget (ht off)
  | _ => simp only [Mod.each, List.foldl_cons, List.foldl_nil, Nat.add_zero, List.drop_zero, htake, List.filter_nil, List.map_nil,
            Mod.storeAs_of_bytes m1 ht]

/-! ### The rows -/

/-- Settles O40: each request in service is its meaning on the module in which it has come into service. -/
theorem meshRequestsAreServedAtTheirHome : Obligations.MeshRequestsAreServedAtTheirHome := by
  intro s l f d ds m1 m2 g kind l2 ph x xs
  refine ⟨fun hl hd hlate => ⟨?rd, ?wr, ?atom, ?kcas, ?rdrun, ?wrrun⟩, ?reserved, ?opened, ?forwarded⟩
  case rd =>
    intro ht h1
    refine ⟨fun hg hr => does_next rfl ?_, fun hg => does_next rfl ?_⟩ <;>
      refine (Mod.arrive_of_attested [] _ hl (by rw [ht]; rfl) hd hlate).trans ?_ <;>
      simp [Mod.serveRd, *]
  case wr =>
    intro ht h1 hk
    have hk' := hk
    rw [← Mod.arrivingKeys_serviceBegins _ l f 2, ← Mod.flag_serviceBegins _ l f 2] at hk'
    refine ⟨fun hg hreg hm hn => does_next rfl ?_, fun hg => does_next rfl ?_⟩ <;>
      refine (Mod.arrive_of_attested [d] _ hl (by rw [ht]; rfl) hd hlate).trans ?_
    · exact congrArg Mod.serviceEnds (Mod.serveWr_of_admitted h1 hk' hg hreg hm hn)
    · simp [Mod.serveWr, h1, hk', hg]
  case atom =>
    intro ht op wide ho hn ha
    refine ⟨fun hg hr hp => does_next rfl ?_, fun hg => does_next rfl ?_⟩ <;>
      refine (Mod.arrive_of_attested [] _ hl (by rw [ht]; rfl) hd hlate).trans ?_
    · cases hv : op.write (flitSize f) (ofLeBytes g.data) (bitsOf f.payload.toNat 128 64) (bitsOf f.payload.toNat 192 64) <;>
        simp [Mod.serveAtom, ho, ← hn, ha, hg, hr, hp, hv, Mod.iff, Mod.answerTo, (Mod.cached_rawWrite _ _ _ _ _).node]
    · simp [Mod.serveAtom, ho, ← hn, ha, hg]
  case kcas =>
    intro ht ha hg m3 old hkey new hold m4
    refine does_next rfl ?_
    refine (Mod.arrive_of_attested [] _ hl (by rw [ht]; rfl) hd hlate).trans ?_
    simp [Mod.serveKcas, Mod.flag_serviceBegins, ha, hg, hkey, hold, Mod.iff, Mod.answerTo, m4, new]
  case rdrun =>
    intro ht hw hr
    refine does_next rfl ?_
    refine (Mod.arrive_of_attested [] _ hl (by rw [ht]; rfl) hd hlate).trans ?_
    simp [Mod.serveRdrun, hw, hr]
  case wrrun =>
    intro ht hw hlen
    refine ⟨fun hr => does_next rfl ?_, fun hr => does_next rfl ?_⟩ <;>
      refine (Mod.arrive_of_attested ds _ hl (by rw [ht]; rfl) hd hlate).trans ?_ <;>
      simp [Mod.serveWrrun, hw, ← hlen, hr]
  case reserved =>
    intro hl ht
    refine does_next rfl ?_
    simp [Mod.flitIn, hl, ht]
  case opened =>
    intro hl ht hq hd
    refine does_next rfl ?_
    simp [Mod.flitIn, Mod.linkUp, hl, ht, hq, hd]
  case forwarded =>
    intro hl ht hd hr hv
    refine does_next rfl ?_
    have huntag : s.mod.untag l = id := funext fun f => by simp [Mod.untag, hl]
    simp [Mod.flitIn, Mod.linkUp, Mod.brings, Mod.forward, hl, ht, hd, huntag, hr, hv]

end Sys2Proof.Machine

/-!
What the raising of an event, a fault record and a violation report leave as they were (R289, R445, R453, R454).
-/
namespace Sys2Proof.Machine

/-! ### Registers named -/

theorem OnlyRegs.refl (l : List (Reg × Nat)) (m : Mod) : OnlyRegs l m m := fun _ _ _ => rfl

theorem OnlyRegs.trans {l : List (Reg × Nat)} {m n t : Mod} (h : OnlyRegs l m n) (h' : OnlyRegs l n t) : OnlyRegs l m t :=
  fun r i hr => (h' r i hr).trans (h r i hr)

theorem OnlyRegs.mono {l l' : List (Reg × Nat)} {m t : Mod} (h : OnlyRegs l m t) (hl : l ⊆ l') : OnlyRegs l' m t :=
  fun r i hr => h r i (fun hm => hr (hl hm))

theorem OnlyRegs.rd {l : List (Reg × Nat)} {m t : Mod} (h : OnlyRegs l m t) {f : Fld} {i : Nat} (hf : (f.reg, i) ∉ l) : t.rd f i = m.rd f i := by
  rw [Mod.rd, Mod.rd, h _ _ hf]

theorem OnlyRegs.flag {l : List (Reg × Nat)} {m t : Mod} (h : OnlyRegs l m t) {f : Fld} {i : Nat} (hf : (f.reg, i) ∉ l) :
    t.flag f i = m.flag f i := by
  rw [Mod.flag, Mod.flag, h.rd hf]

/-- A field of a register that is not among those named, whatever the instance. -/
theorem OnlyRegs.rd_of_reg {l : List (Reg × Nat)} {m t : Mod} (h : OnlyRegs l m t) {f : Fld} (i : Nat) (hf : f.reg ∉ l.map Prod.fst) :
    t.rd f i = m.rd f i :=
  h.rd fun hm => hf (List.mem_map_of_mem (f := Prod.fst) hm)

theorem OnlyRegs.flag_of_reg {l : List (Reg × Nat)} {m t : Mod} (h : OnlyRegs l m t) {f : Fld} (i : Nat) (hf : f.reg ∉ l.map Prod.fst) :
    t.flag f i = m.flag f i :=
  h.flag fun hm => hf (List.mem_map_of_mem (f := Prod.fst) hm)

theorem onlyRegs_wr (m : Mod) (f : Fld) (i v : Nat) : OnlyRegs [(f.reg, i)] m (m.wr f i v) :=
  fun _ _ hr => Mod.reg_setReg_ne m _ (fun e => hr (by simp [e.1, e.2]))

theorem onlyRegs_put (m : Mod) (f : Fld) (i : Nat) (b : Bool) : OnlyRegs [(f.reg, i)] m (m.put f i b) := onlyRegs_wr m f i _

theorem onlyRegs_count (m : Mod) (f : Fld) (i k : Nat) : OnlyRegs [(f.reg, i)] m (m.count f i k) := onlyRegs_wr m f i _

theorem onlyRegs_of_regs {l : List (Reg × Nat)} {m t : Mod} (h : t.regs = m.regs) : OnlyRegs l m t :=
  fun r i _ => by rw [Mod.reg, Mod.reg, h]

/-! ### Fields apart -/

/-- A write of `f` does not reach `g`: they are fields of two registers, or of one and share no bit. -/
abbrev Fld.Apart (f g : Fld) : Prop :=
  g.reg ≠ f.reg ∨ (f.lo + f.width ≤ 64 ∧ (g.lo + g.width ≤ f.lo ∨ f.lo + f.width ≤ g.lo))

theorem Mod.rd_wr_of_apart (m : Mod) {f g : Fld} (i v j : Nat) (h : f.Apart g) : (m.wr f i v).rd g j = m.rd g j := by
  by_cases he : g.reg = f.reg ∧ j = i
  · obtain ⟨hr, hj⟩ := he
    obtain hne | ⟨hw, ha⟩ := h
    · exact absurd hr hne
    · rw [hj, Mod.rd_wr_apart m f g i v hr hw ha]
  · exact Mod.rd_wr_reg m f g i j v he

theorem Mod.rd_put_of_apart (m : Mod) {f g : Fld} (i j : Nat) (b : Bool) (h : f.Apart g) : (m.put f i b).rd g j = m.rd g j :=
  m.rd_wr_of_apart i _ j h

theorem Mod.rd_count_of_apart (m : Mod) {f g : Fld} (i k j : Nat) (h : f.Apart g) : (m.count f i k).rd g j = m.rd g j :=
  m.rd_wr_of_apart i _ j h

theorem Mod.flag_wr_of_apart (m : Mod) {f g : Fld} (i v j : Nat) (h : f.Apart g) : (m.wr f i v).flag g j = m.flag g j := by
  rw [Mod.flag, Mod.flag, m.rd_wr_of_apart i v j h]

theorem Mod.flag_put_of_apart (m : Mod) {f g : Fld} (i j : Nat) (b : Bool) (h : f.Apart g) : (m.put f i b).flag g j = m.flag g j :=
  m.flag_wr_of_apart i _ j h

theorem Mod.flag_count_of_apart (m : Mod) {f g : Fld} (i k j : Nat) (h : f.Apart g) : (m.count f i k).flag g j = m.flag g j :=
  m.flag_wr_of_apart i _ j h

/-- A counter of 32 bits counts up to its end. -/
theorem Mod.rd_count_self (m : Mod) (f : Fld) (i k : Nat) (h : f.lo + f.width ≤ 64) (hw : f.width = 32) :
    (m.count f i k).rd f i = satAdd32 (m.rd f i) k := by
  rw [Mod.count, m.rd_wr_self f i _ h, hw]
  exact Nat.mod_eq_of_lt (lt_of_le_of_lt (Nat.min_le_right _ _) (by decide))

/-! ### The relation -/

/-- A module without registers, the queues of reports, what is on its way to cores, clocks and the Sheepdog, and what has left. -/
def Mod.untold (m : Mod) : Mod :=
  { m with regs := [], past := [], vq := [], sdFaults := [], sdEvents := [], inFlight := [], heard := [], sent := [],
           goose := { m.goose with log := [], lost := 0 }, host := { m.host with pba := [] } }

/-- From `m` to `t` nothing but reports and events, and of the registers only those named, changes. -/
structure Mod.Told (l : List (Reg × Nat)) (m t : Mod) : Prop where
  rest : t.untold = m.untold
  regs : OnlyRegs l m t

theorem Mod.Told.refl (l : List (Reg × Nat)) (m : Mod) : m.Told l m := ⟨rfl, .refl l m⟩

theorem Mod.Told.trans {l : List (Reg × Nat)} {m n t : Mod} (h : m.Told l n) (h' : n.Told l t) : m.Told l t :=
  ⟨h'.rest.trans h.rest, h.regs.trans h'.regs⟩

theorem Mod.Told.mono {l l' : List (Reg × Nat)} {m t : Mod} (h : m.Told l t) (hl : l ⊆ l') : m.Told l' t := ⟨h.rest, h.regs.mono hl⟩

theorem Mod.Told.iff {l : List (Reg × Nat)} {m : Mod} {f : Mod → Mod} (b : Bool) (h : m.Told l (f m)) : m.Told l (m.iff b f) :=
  Mod.iff_keeps b h (.refl l m)

theorem Mod.Told.ite {l : List (Reg × Nat)} {m t : Mod} {p : Prop} [Decidable p] (h : m.Told l t) : m.Told l (if p then m else t) := by
  split
  · exact .refl l m
  · exact h

theorem Mod.Told.of_untold {l : List (Reg × Nat)} {m t : Mod} (h : t.untold = m.untold) (hr : t.regs = m.regs) : m.Told l t :=
  ⟨h, onlyRegs_of_regs hr⟩

theorem Mod.told_wr (m : Mod) (f : Fld) (i v : Nat) {l : List (Reg × Nat)} (h : (f.reg, i) ∈ l) : m.Told l (m.wr f i v) :=
  ⟨rfl, (onlyRegs_wr m f i v).mono (by simpa using h)⟩

theorem Mod.told_put (m : Mod) (f : Fld) (i : Nat) (b : Bool) {l : List (Reg × Nat)} (h : (f.reg, i) ∈ l) : m.Told l (m.put f i b) :=
  m.told_wr f i _ h

theorem Mod.told_count (m : Mod) (f : Fld) (i k : Nat) {l : List (Reg × Nat)} (h : (f.reg, i) ∈ l) : m.Told l (m.count f i k) :=
  m.told_wr f i _ h

section
variable {l : List (Reg × Nat)} {m t : Mod} (h : m.Told l t)
include h

theorem Mod.Told.mem_eq : t.mem = m.mem := (congrArg Mod.mem h.rest :)
theorem Mod.Told.tags_eq : t.tags = m.tags := (congrArg Mod.tags h.rest :)
theorem Mod.Told.lines_eq : t.lines = m.lines := (congrArg Mod.lines h.rest :)
theorem Mod.Told.cores_eq : t.cores = m.cores := (congrArg Mod.cores h.rest :)
theorem Mod.Told.mono_eq : t.mono = m.mono := (congrArg Mod.mono h.rest :)
theorem Mod.Told.now_eq : t.now = m.now := (congrArg Mod.now h.rest :)
theorem Mod.Told.links_eq : t.links = m.links := (congrArg Mod.links h.rest :)
theorem Mod.Told.xfr_eq : t.xfr = m.xfr := (congrArg Mod.xfr h.rest :)
theorem Mod.Told.mx_eq : t.mx = m.mx := (congrArg Mod.mx h.rest :)
theorem Mod.Told.lock_eq : t.lock = m.lock := (congrArg Mod.lock h.rest :)
theorem Mod.Told.sess_eq : t.sess = m.sess := (congrArg Mod.sess h.rest :)
theorem Mod.Told.long_eq : t.long = m.long := (congrArg Mod.long h.rest :)
theorem Mod.Told.cfg_eq : t.cfg = m.cfg := (congrArg Mod.cfg h.rest :)

end

/-! ### Events -/

theorem Mod.told_msix (m : Mod) (v : Nat) (l : List (Reg × Nat)) : m.Told l (m.msix v) := by
  unfold Mod.msix
  split
  · exact .refl l m
  · split <;> exact .of_untold rfl rfl

theorem Mod.told_foldl_msix (vs : List Nat) (m : Mod) (l : List (Reg × Nat)) : m.Told l (vs.foldl Mod.msix m) :=
  Mod.each_keeps (P := fun t => m.Told l t) (fun t v h => h.trans (t.told_msix v l)) vs (.refl l m)

theorem Mod.told_deliver (m : Mod) (n : Nat) : m.Told [(.EVR_UNROUTED, 0)] (m.deliver n) := by
  unfold Mod.deliver
  refine .trans (.trans (.trans ?_ (.iff _ (.of_untold rfl rfl))) (Mod.told_foldl_msix _ _ _))
    (.iff _ (Mod.told_count _ _ _ _ (by decide)))
  exact .of_untold rfl rfl

theorem Mod.told_gooseLog (m : Mod) (w : GooseWhat) : m.Told [(.EVR_UNROUTED, 0)] (m.gooseLog w) := by
  unfold Mod.gooseLog
  refine .trans ?_ (.iff _ (Mod.told_deliver _ _))
  exact .of_untold rfl rfl

theorem Mod.told_raise (m : Mod) (n : Nat) : m.Told [(.EVR_UNROUTED, 0)] (m.raise n) := by
  refine .ite ((m.told_deliver n).trans (.iff _ ?_))
  exact Mod.told_gooseLog _ _

/-! ### Violation reports -/

/-- The registers a violation report of a gate is counted in. -/
def reportedRegs (gate : Nat) : List (Reg × Nat) :=
  [(.GATE_VQ_STATUS, 0), (.GATE_VQ_LOST, 0), (.CFG_PROB_VIOL, 0), (.GATE_UNMAPPED_COUNT, 0), (.GATE_G_COUNT, gate), (.EVR_UNROUTED, 0)]

theorem Mod.told_report (m : Mod) (v : VioRec) : m.Told (reportedRegs v.gate) (m.report v) := by
  have hraise : ∀ (n : Mod) (k : Nat), n.Told (reportedRegs v.gate) (n.raise k) := fun n k => (n.told_raise k).mono (by simp [reportedRegs])
  have hq : m.Told (reportedRegs v.gate) (if m.vq.length ≥ 64 then (m.put F.GATE_VQ_STATUS_OVERFLOW 0 true).count F.GATE_VQ_LOST_COUNT
      else { m with vq := m.vq ++ [v] }) := by
    split
    · exact (m.told_put _ _ _ (by simp [reportedRegs, F.GATE_VQ_STATUS_OVERFLOW])).trans
        (Mod.told_count _ _ _ _ (by simp [reportedRegs, F.GATE_VQ_LOST_COUNT]))
    · exact .of_untold rfl rfl
  have hp : ∀ (n : Mod) (b : Bool), n.Told (reportedRegs v.gate) (n.iff b (fun m => m.count F.CFG_PROB_VIOL_COUNT)) := fun n b =>
    .iff b (n.told_count _ _ _ (by simp [reportedRegs, F.CFG_PROB_VIOL_COUNT]))
  unfold Mod.report
  dsimp only
  split
  · exact ((hq.trans (hp _ _)).trans (Mod.told_count _ _ _ _ (by simp [reportedRegs, F.GATE_UNMAPPED_COUNT_COUNT]))).trans (hraise _ _)
  · exact ((hq.trans (hp _ _)).trans (Mod.told_count _ _ _ _ (by simp [reportedRegs, F.GATE_G_COUNT_COUNT]))).trans (.iff _ (hraise _ _))

/-- The registers a refused access at an address changes. -/
def refusedRegs (a : Nat) : List (Reg × Nat) :=
  (.SPL_RGN_STATUS, gateRegion (gateOf (targetOf a))) :: reportedRegs (gateOf (targetOf a))

theorem Mod.told_violate (m : Mod) (q : Acc) (kind entry : Nat) : m.Told (refusedRegs q.addr) (m.violate q kind entry) := by
  unfold Mod.violate
  refine .trans (.iff _ (m.told_put _ _ _ ?_)) ((Mod.told_report _ _).mono ?_)
  · simp [refusedRegs, F.SPL_RGN_STATUS_ACTIVE_WR]
  · exact List.subset_cons_of_subset _ (List.Subset.refl _)

theorem Mod.told_passGate (m : Mod) (q : Acc) : m.Told (refusedRegs q.addr) (m.passGate q).1 := by
  unfold Mod.passGate
  split
  · exact .refl _ m
  · exact m.told_violate q _ _

/-- An admitted access changes nothing. -/
theorem Mod.passGate_none {m m1 : Mod} {q : Acc} (h : m.passGate q = (m1, none)) : m1 = m := by
  unfold Mod.passGate at h
  split at h
  · exact (Prod.mk.inj h).1.symm
  · exact absurd (Prod.mk.inj h).2 (by simp)

/-- A register that no refused access changes. -/
theorem not_mem_refusedRegs (a : Nat) {r : Reg} {i : Nat}
    (h : r ∉ [.SPL_RGN_STATUS, .GATE_VQ_STATUS, .GATE_VQ_LOST, .CFG_PROB_VIOL, .GATE_UNMAPPED_COUNT, .GATE_G_COUNT, .EVR_UNROUTED]) :
    (r, i) ∉ refusedRegs a := by
  simp only [List.mem_cons, List.not_mem_nil, or_false, not_or] at h
  obtain ⟨h1, h2, h3, h4, h5, h6, h7⟩ := h
  simp [refusedRegs, reportedRegs, h1, h2, h3, h4, h5, h6, h7]

end Sys2Proof.Machine

/-!
The matrix engines' registers and jobs (R330 to R340).
-/
namespace Sys2Proof.Machine

/-! ### Descriptors -/

/-- The lines of an access that are all admitted leave the module as it is. -/
theorem Mod.passLines_none {q : Acc} : ∀ {l : List (Nat × Nat)} {m m1 : Mod}, m.passLines q l = (m1, none) → m1 = m
  | [], _, _, h => (Prod.mk.inj h).1.symm
  | p :: rest, m, m1, h => by
    rw [Mod.passLines] at h
    split at h
    · exact absurd (Prod.mk.inj h).2 (by simp)
    · next m2 hp =>
      rw [← Mod.passGate_none hp]
      exact Mod.passLines_none h

/-- A descriptor read whole: nothing but lines of memory and L1 copies has changed. -/
theorem Mod.cached_engineDesc {m m1 : Mod} {master a n : Nat} {x : List Byte × List Bool} (h : m.engineDesc master a n = (m1, .ok x)) :
    m.Cached m1 := by
  unfold Mod.engineDesc at h
  split at h
  · exact absurd (Prod.mk.inj h).2 (by simp)
  · split at h
    · exact absurd (Prod.mk.inj h).2 (by simp)
    · next m2 hp =>
      dsimp only at h
      split at h
      · exact absurd (Prod.mk.inj h).2 (by simp)
      · rw [← (Prod.mk.inj h).1, Mod.passLines_none hp]
        exact m.cached_rawRead a n

/-- The registers that no engine's write to its descriptor changes. -/
theorem Mod.reg_engineWrite (m : Mod) (master a : Nat) (bs : List Byte) {r : Reg}
    (h : r ∉ [.SPL_RGN_STATUS, .GATE_VQ_STATUS, .GATE_VQ_LOST, .CFG_PROB_VIOL, .GATE_UNMAPPED_COUNT, .GATE_G_COUNT, .EVR_UNROUTED]) (i : Nat) :
    (m.engineWrite master a bs).reg r i = m.reg r i := by
  have hp := (m.told_passGate ⟨master, false, 0, 0, a, bs.length, .store⟩).regs r i (not_mem_refusedRegs a h)
  unfold Mod.engineWrite
  split
  · next m1 k hq => rwa [hq] at hp
  · next m1 hq =>
    rw [hq] at hp
    rw [(Mod.cached_rawWrite _ _ _ _ _).reg, hp]

theorem Mod.rd_engineWrite (m : Mod) (master a : Nat) (bs : List Byte) {f : Fld}
    (h : f.reg ∉ [.SPL_RGN_STATUS, .GATE_VQ_STATUS, .GATE_VQ_LOST, .CFG_PROB_VIOL, .GATE_UNMAPPED_COUNT, .GATE_G_COUNT, .EVR_UNROUTED]) (i : Nat) :
    (m.engineWrite master a bs).rd f i = m.rd f i := by
  rw [Mod.rd, Mod.rd, Mod.reg_engineWrite m master a bs h]

/-! ### Registers -/

@[simp] theorem Mod.mxJob_setMxJob (m : Mod) (g : Nat) (j : Option MxJob) : (m.setMxJob g j).mxJob g = j := Tbl.get_set_self none m.mx g j
@[simp] theorem Mod.rd_setMxJob (m : Mod) (g : Nat) (j : Option MxJob) (f : Fld) (i : Nat) : (m.setMxJob g j).rd f i = m.rd f i := rfl
@[simp] theorem Mod.flag_setMxJob (m : Mod) (g : Nat) (j : Option MxJob) (f : Fld) (i : Nat) : (m.setMxJob g j).flag f i = m.flag f i := rfl

@[simp] theorem Mod.mxJob_put (m : Mod) (f : Fld) (i : Nat) (b : Bool) (g : Nat) : (m.put f i b).mxJob g = m.mxJob g := rfl

/-- A write of one field changes its register alone. -/
theorem onlyRegsChange_wr (m : Mod) (f : Fld) (i v : Nat) : OnlyRegsChange [(f.reg, i)] m (m.wr f i v) := ⟨onlyRegs_wr m f i v, rfl⟩

/-! ### The end of a job -/

/-- The failing address of a job shown. -/
def Mod.mxFailed (m : Mod) (g : Nat) (j : MxJob) : Mod := m.iff j.fail.isSome (fun m => m.wr F.MX_FAIL_ADDR g (j.fail.getD 0))

/-- The ring advanced past a job, the job counted and its code shown. -/
def Mod.mxCounted (m : Mod) (g : Nat) (j : MxJob) (cyc : Nat) : Mod :=
  ((((m.wr F.MX_CONS_INDEX g ((m.rd F.MX_CONS_INDEX g + 1) % 65536)).count F.MX_JOBS_COUNT g).wr F.MX_CYCLES_CYCLES g cyc).put
    F.MX_STATUS_BUSY g false).wr F.MX_STATUS_LAST g j.code

/-- A job's end as the registers show it. -/
def Mod.mxShow (m : Mod) (g : Nat) (j : MxJob) (cyc : Nat) : Mod :=
  (((m.mxFailed g j).mxCounted g j cyc).setMxJob g none).iff (j.code != esOK) (fun m => m.put F.MX_STATUS_STOPPED g true)

/-- The module in which a job's end is shown. -/
def Mod.mxTold (m : Mod) (g : Nat) (j : MxJob) : Mod :=
  let r := m.mxCycles j
  r.1.iff (descPlace j.addr 128) (fun m =>
    m.engineWrite (mxMaster g) (j.addr + 4) (leBytes 4 (j.code + j.sub * 256 + j.flags * 65536) ++ leBytes 4 r.2))

theorem Mod.mxDone_eq {m : Mod} {g : Nat} {j : MxJob} (h : m.mxJob g = some j) :
    m.mxDone g = (((m.mxWorked g j).1.mxTold g (m.mxWorked g j).2).mxShow g (m.mxWorked g j).2 ((m.mxWorked g j).1.mxCycles (m.mxWorked g j).2).2).iff
      ((mxDesc (m.mxWorked g j).2.desc).irq || (m.mxWorked g j).2.code != esOK) (fun m => m.raise (172 + g)) := by
  unfold Mod.mxDone
  rw [h]
  rfl

theorem Mod.rd_mxTold (m : Mod) (g : Nat) (j : MxJob) {f : Fld}
    (h : f.reg ∉ [.SPL_RGN_STATUS, .GATE_VQ_STATUS, .GATE_VQ_LOST, .CFG_PROB_VIOL, .GATE_UNMAPPED_COUNT, .GATE_G_COUNT, .EVR_UNROUTED]) (i : Nat) :
    (m.mxTold g j).rd f i = m.rd f i := by
  have hc : (m.mxCycles j).1.rd f i = m.rd f i := by
    unfold Mod.mxCycles
    dsimp only
    split
    · split <;> rfl
    · rfl
    · rfl
  unfold Mod.mxTold
  exact Mod.iff_keeps (P := fun t => t.rd f i = m.rd f i) _ ((Mod.rd_engineWrite _ _ _ _ h i).trans hc) hc

/-- The cycles of a job that has its count by R338 and R339. -/
theorem Mod.mxCycles_exact (m : Mod) {j : MxJob} {n : Nat} (h : j.cycles = some (n, true)) (hn : n < 2 ^ 32) : (m.mxCycles j).2 = n := by
  simp only [Mod.mxCycles, h, hn, if_true]

section
variable (m : Mod) (g : Nat) (j : MxJob) (cyc : Nat)

theorem Mod.rd_mxFailed {f : Fld} (h : F.MX_FAIL_ADDR.Apart f) : (m.mxFailed g j).rd f g = m.rd f g := by
  unfold Mod.mxFailed
  cases j.fail.isSome
  · rfl
  · exact m.rd_wr_of_apart _ _ _ h

theorem Mod.mxJob_mxShow : (m.mxShow g j cyc).mxJob g = none := by
  unfold Mod.mxShow
  cases j.code != esOK
  · rw [Mod.iff_false, Mod.mxJob_setMxJob]
  · rw [Mod.iff_true, Mod.mxJob_put, Mod.mxJob_setMxJob]

/-- What the end of a job shows in every field but STOPPED. -/
theorem Mod.rd_mxShow {f : Fld} (h : F.MX_STATUS_STOPPED.Apart f) : (m.mxShow g j cyc).rd f g = ((m.mxFailed g j).mxCounted g j cyc).rd f g := by
  unfold Mod.mxShow
  cases j.code != esOK
  · rw [Mod.iff_false, Mod.rd_setMxJob]
  · rw [Mod.iff_true, Mod.rd_put_of_apart _ _ _ _ h, Mod.rd_setMxJob]

theorem Mod.rd_mxCounted {f : Fld} (h1 : F.MX_CONS_INDEX.Apart f) (h2 : F.MX_JOBS_COUNT.Apart f) (h3 : F.MX_CYCLES_CYCLES.Apart f)
    (h4 : F.MX_STATUS_BUSY.Apart f) (h5 : F.MX_STATUS_LAST.Apart f) : (m.mxCounted g j cyc).rd f g = m.rd f g := by
  rw [Mod.mxCounted, Mod.rd_wr_of_apart _ _ _ _ h5, Mod.rd_put_of_apart _ _ _ _ h4, Mod.rd_wr_of_apart _ _ _ _ h3,
    Mod.rd_count_of_apart _ _ _ _ h2, Mod.rd_wr_of_apart _ _ _ _ h1]

theorem Mod.busy_mxShow : (m.mxShow g j cyc).flag F.MX_STATUS_BUSY g = false := by
  rw [Mod.flag, Mod.rd_mxShow _ _ _ _ (by decide), Mod.mxCounted, Mod.rd_wr_of_apart _ _ _ _ (by decide)]
  exact Mod.flag_put_self _ _ _ _ (by decide) rfl

theorem Mod.cons_mxShow : (m.mxShow g j cyc).rd F.MX_CONS_INDEX g = (m.rd F.MX_CONS_INDEX g + 1) % 65536 := by
  rw [Mod.rd_mxShow _ _ _ _ (by decide), Mod.mxCounted, Mod.rd_wr_of_apart _ _ _ _ (by decide), Mod.rd_put_of_apart _ _ _ _ (by decide),
    Mod.rd_wr_of_apart _ _ _ _ (by decide), Mod.rd_count_of_apart _ _ _ _ (by decide), Mod.rd_wr_self _ _ _ _ (by decide),
    Mod.rd_mxFailed _ _ _ (by decide)]
  exact Nat.mod_mod _ _

theorem Mod.jobs_mxShow : (m.mxShow g j cyc).rd F.MX_JOBS_COUNT g = satAdd32 (m.rd F.MX_JOBS_COUNT g) 1 := by
  rw [Mod.rd_mxShow _ _ _ _ (by decide), Mod.mxCounted, Mod.rd_wr_of_apart _ _ _ _ (by decide), Mod.rd_put_of_apart _ _ _ _ (by decide),
    Mod.rd_wr_of_apart _ _ _ _ (by decide), Mod.rd_count_self _ _ _ _ (by decide) rfl, Mod.rd_wr_of_apart _ _ _ _ (by decide),
    Mod.rd_mxFailed _ _ _ (by decide)]

theorem Mod.last_mxShow : (m.mxShow g j cyc).rd F.MX_STATUS_LAST g = j.code % 256 := by
  rw [Mod.rd_mxShow _ _ _ _ (by decide), Mod.mxCounted, Mod.rd_wr_self _ _ _ _ (by decide)]
  rfl

theorem Mod.stopped_mxShow : (m.mxShow g j cyc).flag F.MX_STATUS_STOPPED g = (j.code != esOK || m.flag F.MX_STATUS_STOPPED g) := by
  unfold Mod.mxShow
  cases j.code != esOK
  · rw [Bool.false_or, Mod.iff_false, Mod.flag_setMxJob, Mod.flag, Mod.flag,
      Mod.rd_mxCounted _ _ _ _ (by decide) (by decide) (by decide) (by decide) (by decide), Mod.rd_mxFailed m g j (by decide)]
  · rw [Mod.iff_true, Mod.flag_put_self _ _ _ _ (by decide) rfl, Bool.true_or]

theorem Mod.cycles_mxShow : (m.mxShow g j cyc).rd F.MX_CYCLES_CYCLES g = cyc % 2 ^ 32 := by
  rw [Mod.rd_mxShow _ _ _ _ (by decide), Mod.mxCounted, Mod.rd_wr_of_apart _ _ _ _ (by decide), Mod.rd_put_of_apart _ _ _ _ (by decide),
    Mod.rd_wr_self _ _ _ _ (by decide)]
  rfl

theorem Mod.fail_mxShow {a : Nat} (h : j.fail = some a) : (m.mxShow g j cyc).rd F.MX_FAIL_ADDR g = a % 2 ^ 64 := by
  rw [Mod.rd_mxShow _ _ _ _ (by decide), Mod.rd_mxCounted _ _ _ _ (by decide) (by decide) (by decide) (by decide) (by decide), Mod.mxFailed, h]
  exact Mod.rd_wr_self _ _ _ _ (by decide)

end

/-! ### The rows -/

/-- What lets an engine take a descriptor (R333): it is enabled, powered, idle and not stopped, and one is posted. -/
def Mod.mxMay (m : Mod) (g : Nat) : Bool :=
  m.flag F.MX_CTRL_ENABLE g && !m.flag F.MX_STATUS_STOPPED g && (m.mxJob g).isNone && m.domOn (44 + g) && !m.rgnDown g &&
    m.rd F.MX_RING_SIZE_SLOTS g != 0 && m.rd F.MX_PROD_INDEX g != m.rd F.MX_CONS_INDEX g

theorem Mod.mxStart_bar (m : Mod) (g : Nat) :
    (!m.flag F.MX_CTRL_ENABLE g || m.flag F.MX_STATUS_STOPPED g || (m.mxJob g).isSome || !m.domOn (44 + g) || m.rgnDown g ||
      m.rd F.MX_RING_SIZE_SLOTS g == 0 || m.rd F.MX_PROD_INDEX g == m.rd F.MX_CONS_INDEX g) = !m.mxMay g := by
  simp only [Mod.mxMay, Bool.not_and, Bool.not_not, bne]
  cases m.mxJob g <;> rfl

/-- Settles O47. -/
theorem matrixEnginesRunTheirRings : Obligations.MatrixEnginesRunTheirRings := by
  intro s w g index en j m1 d tags c sub ad m slots cons slot at_ may worked moves
  have hon' : ∀ f : Mod → Mod, m.domOn (44 + g) = true → m.mxWrite g f = f m := fun f h => by simp [Mod.mxWrite, Mod.iff, h]
  refine ⟨?off, ?moves, ?ringErr, ?enable, ?resume, ?idle, ?abort, ?noStart, ?start, ?done⟩
  case off =>
    intro hoff i hi
    simp only [List.mem_cons, List.not_mem_nil, or_false] at hi
    rcases hi with rfl | rfl | rfl | rfl <;> exact does_next rfl (by simp [Mod.mxWrite, Mod.iff, hoff, m])
  case moves =>
    intro hon hm
    refine does_next (m := m.mxWrite g (fun m => m.mxProd g index.toNat)) rfl ?_
    rw [hon' _ hon, Mod.mxProd, if_pos hm]
    exact ⟨(m.rd_wr_self F.MX_PROD_INDEX g _ (by decide)).trans (Nat.mod_eq_of_lt index.isLt), onlyRegsChange_wr m F.MX_PROD_INDEX g _⟩
  case ringErr =>
    intro hon hm
    refine does_next (m := m.mxWrite g (fun m => m.mxProd g index.toNat)) rfl ?_
    rw [hon' _ hon, Mod.mxProd, if_neg (by simp [moves] at hm; simp [hm, m, cons, slots])]
    exact ⟨m.flag_put_self F.SPL_RGN_STATUS_RING_ERR g true (by decide) rfl, onlyRegsChange_wr m F.SPL_RGN_STATUS_RING_ERR g _⟩
  case enable =>
    intro hon
    refine does_next (m := m.mxWrite g (fun m => m.mxEnable g en)) rfl ?_
    rw [hon' _ hon]
    exact ⟨m.flag_put_self F.MX_CTRL_ENABLE g en (by decide) rfl, onlyRegsChange_wr m F.MX_CTRL_ENABLE g _⟩
  case resume =>
    intro hon
    refine does_next (m := m.mxWrite g (fun m => m.mxResume g)) rfl ?_
    rw [hon' _ hon]
    exact ⟨m.flag_put_self F.MX_STATUS_STOPPED g false (by decide) rfl, m.flag_put_of_apart _ _ _ (by decide),
      onlyRegsChange_wr m F.MX_STATUS_STOPPED g _⟩
  case idle =>
    intro hj
    have hab : m.mxAbort g = m := by rw [Mod.mxAbort, hj]
    refine ⟨does_next (m := m.mxWrite g (fun m => m.mxAbort g)) rfl (Mod.iff_keeps (P := (· = m)) _ hab rfl), ?_⟩
    refine does_next (m := m.mxDone g) rfl ?_
    rw [Mod.mxDone, hj]
  case abort =>
    intro hj hon
    refine does_next (m := m.mxWrite g (fun m => m.mxAbort g)) rfl ?_
    rw [hon' _ hon, Mod.mxAbort, hj]
    by_cases hc : j.code = esOK
    · refine ⟨by simp only [hc, if_true]; rfl, fun h => absurd hc h, fun _ => ⟨(Config.mxTileAt m.freeCtr).toNat + 1, ?_⟩⟩
      simp only [hc, if_true]
      exact Mod.mxJob_setMxJob _ _ _
    · exact ⟨by simp only [hc, if_false], fun _ => by simp only [hc, if_false], fun h => absurd h hc⟩
  case noStart =>
    intro hm
    refine does_next (m := m.mxStart g) rfl ?_
    rw [Mod.mxStart]
    exact if_pos ((m.mxStart_bar g).trans (congrArg (!·) (show m.mxMay g = false from hm)))
  case start =>
    intro hm
    have hbar := (m.mxStart_bar g).trans (congrArg (!·) (show m.mxMay g = true from hm))
    refine ⟨fun hd => does_next (m := m.mxStart g) rfl ?_, fun hd => does_next (m := m.mxStart g) rfl ?_⟩
    · have hregs := (Mod.cached_engineDesc hd).regs
      have hstart : m.mxStart g = m1.setMxJob g (some ⟨slot, at_, d, tags, esOK, 0, 0, none, none, none⟩) := by
        rw [Mod.mxStart]
        refine (if_neg (Bool.eq_false_iff.mp hbar)).trans ?_
        dsimp only
        rw [hd]
      rw [hstart]
      refine ⟨rfl, ?_, hregs⟩
      rw [Mod.flag_setMxJob, (Mod.cached_engineDesc hd).flag]
      exact m.flag_put_self _ _ _ (by decide) rfl
    · rw [Mod.mxStart]
      refine (if_neg (Bool.eq_false_iff.mp hbar)).trans ?_
      dsimp only
      rw [hd]
  case done =>
    intro hj
    refine does_next (m := m.mxDone g) rfl ?_
    have hshown : OnlyRegs [(.EVR_UNROUTED, 0)] ((worked.1.mxTold g worked.2).mxShow g worked.2 (worked.1.mxCycles worked.2).2) (m.mxDone g) ∧
        (m.mxDone g).mx = ((worked.1.mxTold g worked.2).mxShow g worked.2 (worked.1.mxCycles worked.2).2).mx := by
      rw [Mod.mxDone_eq hj]
      have htold := Mod.Told.iff (f := fun m => m.raise (172 + g)) ((mxDesc worked.2.desc).irq || worked.2.code != esOK)
        (Mod.told_raise ((worked.1.mxTold g worked.2).mxShow g worked.2 (worked.1.mxCycles worked.2).2) (172 + g))
      exact ⟨htold.regs, htold.mx_eq⟩
    obtain ⟨hregs, hmx⟩ := hshown
    have hjob : (m.mxDone g).mxJob g = none := by
      rw [Mod.mxJob, hmx]
      exact Mod.mxJob_mxShow _ _ _ _
    refine ⟨hjob, ?_, ?_, ?_, ?_, ?_, ?_, ?_⟩
    · rw [hregs.flag_of_reg _ (by decide), Mod.busy_mxShow]
    · rw [hregs.rd_of_reg _ (by decide), Mod.cons_mxShow, Mod.rd_mxTold _ _ _ (by decide)]
    · rw [hregs.rd_of_reg _ (by decide), Mod.jobs_mxShow, Mod.rd_mxTold _ _ _ (by decide)]
    · rw [hregs.rd_of_reg _ (by decide), Mod.last_mxShow]
    · rw [hregs.flag_of_reg _ (by decide), Mod.stopped_mxShow, Mod.flag, Mod.rd_mxTold _ _ _ (by decide), Mod.flag]
    · intro n hn hlt
      rw [hregs.rd_of_reg _ (by decide), Mod.cycles_mxShow, Mod.mxCycles_exact _ hn hlt, Nat.mod_eq_of_lt hlt]
    · intro a ha
      rw [hregs.rd_of_reg _ (by decide), Mod.fail_mxShow _ _ _ _ ha]

end Sys2Proof.Machine

/-!
The transfer channels' registers, chunks and descriptors (R341 to R346).
-/
namespace Sys2Proof.Machine

/-! ### Memory read back -/

/-- A part of what was written reads as that part. -/
theorem Mod.bytes_setBytes (m : Mod) (a : Nat) (bs : List Byte) {o n : Nat} (h : o + n ≤ bs.length) :
    (m.setBytes a bs).bytes (a + o) n = (bs.drop o).take n := by
  refine List.ext_getElem (by simp [Mod.bytes, cellsGet]; omega) fun i h1 h2 => ?_
  have hi : o + i < bs.length := by simp [Mod.bytes, cellsGet] at h1; omega
  simp only [Mod.bytes, cellsGet, Mod.setBytes, List.getElem_map, List.getElem_range, List.getElem_take, List.getElem_drop, Nat.add_assoc]
  exact cellGet_cellsSet_in bs m.mem a (o + i) hi

/-- What memory alone decides. -/
theorem Mod.num_of_mem {m t : Mod} (h : t.mem = m.mem) (a n : Nat) : t.num a n = m.num a n := by rw [Mod.num, Mod.num, Mod.bytes, Mod.bytes, h]

/-! ### Keys and accesses -/

/-- A descriptor's keys depend on the sweep and on the node alone. -/
theorem Mod.descKey_of_sweep {m t : Mod} (hs : t.sweep = m.sweep) (hn : t.node = m.node) (d : List Byte) (tags : List Bool) (off : Nat) :
    t.descKey d tags off = m.descKey d tags off := by
  rw [Mod.descKey, Mod.descKey, Mod.filterKey, Mod.filterKey, hs, hn]

theorem Mod.isLocal_of_node {m t : Mod} (hn : t.node = m.node) (ea : Nat) : t.isLocal ea = m.isLocal ea := by rw [Mod.isLocal, Mod.isLocal, hn]

theorem Mod.node_of_regs {m t : Mod} (h : t.regs = m.regs) : t.node = m.node := by
  have hrd : ∀ f i, t.rd f i = m.rd f i := fun f i => by rw [Mod.rd, Mod.rd, Mod.reg, Mod.reg, h]
  rw [Mod.node, Mod.node, Mod.flag, Mod.flag, Mod.flag, Mod.flag, hrd, hrd, hrd]

/-- A write of a field that does not name the module leaves its node as it is. -/
theorem Mod.node_wr (m : Mod) {f : Fld} (i v : Nat) (h : f.reg ∉ [.MESH_CTRL, .CAR_STATUS]) : (m.wr f i v).node = m.node := by
  simp only [List.mem_cons, List.not_mem_nil, or_false, not_or] at h
  have hc : f.Apart F.MESH_CTRL_NODE := .inl (Ne.symm h.1)
  have ht : f.Apart F.CAR_STATUS_TWIN := .inl (Ne.symm h.2)
  have hp : f.Apart F.CAR_STATUS_POSITION := .inl (Ne.symm h.2)
  simp only [Mod.node, m.rd_wr_of_apart i v _ hc, m.flag_wr_of_apart i v _ ht, m.flag_wr_of_apart i v _ hp]

theorem Mod.chunkGate_mem (m : Mod) (q : Acc) : (m.chunkGate q).1.mem = m.mem := by
  unfold Mod.chunkGate
  split
  · rfl
  · exact (m.told_violate q _ _).mem_eq

/-- A chunk whose source is refused leaves memory as it was. -/
theorem Mod.chunkRead_error_mem {m m1 : Mod} {q : Acc} {e : Nat × Nat} (h : m.chunkRead q = (m1, .error e)) : m1.mem = m.mem := by
  unfold Mod.chunkRead at h
  dsimp only at h
  split at h
  · split at h
    · next m2 k hg =>
      rw [← (Prod.mk.inj h).1]
      exact (congrArg (fun r => r.1.mem) hg).symm.trans (m.chunkGate_mem q)
    · exact absurd (Prod.mk.inj h).2 (by simp)
  · split at h
    · rw [← (Prod.mk.inj h).1]
      exact (m.told_violate _ _ _).mem_eq
    · rw [← (Prod.mk.inj h).1]
      exact (m.told_violate _ _ _).mem_eq
    · exact absurd (Prod.mk.inj h).2 (by simp)

/-- The registers that the read of a descriptor does not change, even where it is refused. -/
theorem Mod.reg_passLines {r : Reg}
    (h : r ∉ [.SPL_RGN_STATUS, .GATE_VQ_STATUS, .GATE_VQ_LOST, .CFG_PROB_VIOL, .GATE_UNMAPPED_COUNT, .GATE_G_COUNT, .EVR_UNROUTED]) (i : Nat) (q : Acc) :
    ∀ (l : List (Nat × Nat)) (m : Mod), (m.passLines q l).1.reg r i = m.reg r i
  | [], _ => rfl
  | p :: rest, m => by
    have hp := (m.told_passGate { q with addr := p.1, size := p.2 }).regs r i (not_mem_refusedRegs _ h)
    rw [Mod.passLines]
    split
    · next m2 k hg => rwa [hg] at hp
    · next m2 hg =>
      rw [hg] at hp
      exact (Mod.reg_passLines h i q rest m2).trans hp

theorem Mod.rd_engineDesc (m : Mod) (master a n : Nat) {f : Fld}
    (h : f.reg ∉ [.SPL_RGN_STATUS, .GATE_VQ_STATUS, .GATE_VQ_LOST, .CFG_PROB_VIOL, .GATE_UNMAPPED_COUNT, .GATE_G_COUNT, .EVR_UNROUTED]) (i : Nat) :
    (m.engineDesc master a n).1.rd f i = m.rd f i := by
  have hp := Mod.reg_passLines h i ⟨master, false, 0, 0, a, n, .load⟩ (linePieces 3 a n) m
  unfold Mod.engineDesc
  split
  · rfl
  · split
    · next m2 x hl =>
      rw [hl] at hp
      rw [Mod.rd, Mod.rd, hp]
    · next m2 hl =>
      rw [hl] at hp
      dsimp only
      split <;> rw [Mod.rd, Mod.rd, (m2.cached_rawRead a n).reg, hp]

/-! ### Channels -/

@[simp] theorem Mod.xfrRun_setXfr (m : Mod) (n : Nat) (r : Option XfrRun) : (m.setXfr n r).xfrRun n = r := Tbl.get_set_self none m.xfr n r
@[simp] theorem Mod.rd_setXfr (m : Mod) (n : Nat) (r : Option XfrRun) (f : Fld) (i : Nat) : (m.setXfr n r).rd f i = m.rd f i := rfl
@[simp] theorem Mod.flag_setXfr (m : Mod) (n : Nat) (r : Option XfrRun) (f : Fld) (i : Nat) : (m.setXfr n r).flag f i = m.flag f i := rfl
@[simp] theorem Mod.xfrRun_xfrEnd (m : Mod) (n : Nat) (r : XfrRun) (e : Ending) :
    (m.xfrEnd n r e).xfrRun n = some { r with tid := none, resp := none, fin := some e } := by
  rw [Mod.xfrEnd, Mod.xfrRun_setXfr]
@[simp] theorem Mod.rd_xfrEnd (m : Mod) (n : Nat) (r : XfrRun) (e : Ending) (f : Fld) (i : Nat) : (m.xfrEnd n r e).rd f i = m.rd f i := rfl
@[simp] theorem Mod.regs_setXfr (m : Mod) (n : Nat) (r : Option XfrRun) : (m.setXfr n r).regs = m.regs := rfl
@[simp] theorem Mod.sweep_setXfr (m : Mod) (n : Nat) (r : Option XfrRun) : (m.setXfr n r).sweep = m.sweep := rfl
@[simp] theorem Mod.mem_setXfr (m : Mod) (n : Nat) (r : Option XfrRun) : (m.setXfr n r).mem = m.mem := rfl
@[simp] theorem Mod.regs_xfrEnd (m : Mod) (n : Nat) (r : XfrRun) (e : Ending) : (m.xfrEnd n r e).regs = m.regs := rfl
@[simp] theorem Mod.mem_xfrEnd (m : Mod) (n : Nat) (r : XfrRun) (e : Ending) : (m.xfrEnd n r e).mem = m.mem := rfl

/-- Whether a descriptor's keys stand is not changed by what a channel shows. -/
theorem Mod.xfrKeysLive_shown (m : Mod) (n v : Nat) (x : Option XfrRun) (r : XfrRun) :
    ((m.wr F.XFR_CH_DONE_BYTES n v).setXfr n x).xfrKeysLive r =
      ((m.descKey r.desc r.tags 0).live && (m.descKey r.desc r.tags 16).live) := by
  have hs : ((m.wr F.XFR_CH_DONE_BYTES n v).setXfr n x).sweep = m.sweep := by rw [Mod.sweep_setXfr, Mod.wr_sweep]
  have hn : ((m.wr F.XFR_CH_DONE_BYTES n v).setXfr n x).node = m.node :=
    (Mod.node_of_regs (Mod.regs_setXfr _ n x)).trans (m.node_wr n v (by decide))
  rw [Mod.xfrKeysLive, Mod.descKey_of_sweep hs hn, Mod.descKey_of_sweep hs hn]

section
variable (m : Mod) (n k : Nat) (r : XfrRun)

/-- A chunk's bytes counted: the run, and how its descriptor stands then. -/
theorem Mod.xfrAdvance_eq : m.xfrAdvance n r k =
    let r' := { r with done := r.done + k, tid := none, resp := none }
    let m' := (m.wr F.XFR_CH_DONE_BYTES n (r.done + k)).setXfr n (some r')
    if !((m.descKey r.desc r.tags 0).live && (m.descKey r.desc r.tags 16).live) then m'.xfrEnd n r' (esKEY, kfTAG, none)
    else if r.done + k ≥ descField r.desc 0x20 8 then m'.xfrEnd n r' (esOK, 0, none)
    else if r.aborting then m'.xfrEnd n r' (esABORTED, 0, none)
    else m' := by
  rw [← m.xfrKeysLive_shown n (r.done + k) (some { r with done := r.done + k, tid := none, resp := none }) r]
  rfl

theorem Mod.mem_xfrAdvance : (m.xfrAdvance n r k).mem = m.mem := by
  rw [Mod.xfrAdvance_eq]
  dsimp only
  split
  · rw [Mod.mem_xfrEnd, Mod.mem_setXfr, Mod.wr_mem]
  · split
    · rw [Mod.mem_xfrEnd, Mod.mem_setXfr, Mod.wr_mem]
    · split
      · rw [Mod.mem_xfrEnd, Mod.mem_setXfr, Mod.wr_mem]
      · rw [Mod.mem_setXfr, Mod.wr_mem]

theorem Mod.rd_xfrAdvance : (m.xfrAdvance n r k).rd F.XFR_CH_DONE_BYTES n = (r.done + k) % 2 ^ 64 := by
  have h := m.rd_wr_self F.XFR_CH_DONE_BYTES n (r.done + k) (by decide)
  rw [Mod.xfrAdvance_eq]
  dsimp only
  split
  · rwa [Mod.rd_xfrEnd, Mod.rd_setXfr]
  · split
    · rwa [Mod.rd_xfrEnd, Mod.rd_setXfr]
    · split
      · rwa [Mod.rd_xfrEnd, Mod.rd_setXfr]
      · rwa [Mod.rd_setXfr]

/-- The run after a chunk's bytes are counted. -/
theorem Mod.xfrRun_xfrAdvance : ∃ r', (m.xfrAdvance n r k).xfrRun n = some r' ∧ r'.done = r.done + k ∧ r'.tid = none ∧
    ((m.descKey r.desc r.tags 0).live = false ∨ (m.descKey r.desc r.tags 16).live = false → r'.fin = some (esKEY, kfTAG, none)) ∧
    ((m.descKey r.desc r.tags 0).live = true → (m.descKey r.desc r.tags 16).live = true →
      (r.done + k ≥ descField r.desc 0x20 8 → r'.fin = some (esOK, 0, none)) ∧
      (r.done + k < descField r.desc 0x20 8 → r.aborting = false → r'.fin = r.fin)) := by
  rw [Mod.xfrAdvance_eq]
  dsimp only
  split
  next hk =>
    refine ⟨_, Mod.xfrRun_xfrEnd _ _ _ _, rfl, rfl, fun _ => rfl, fun h1 h2 => absurd hk (by simp [h1, h2])⟩
  next hk =>
    have hlive : ¬((m.descKey r.desc r.tags 0).live = false ∨ (m.descKey r.desc r.tags 16).live = false) := by
      rintro (h | h) <;> simp [h] at hk
    split
    next hd => exact ⟨_, Mod.xfrRun_xfrEnd _ _ _ _, rfl, rfl, fun h => absurd h hlive, fun _ _ => ⟨fun _ => rfl, fun h => absurd h (by omega)⟩⟩
    next hd =>
      split
      next ha => exact ⟨_, Mod.xfrRun_xfrEnd _ _ _ _, rfl, rfl, fun h => absurd h hlive, fun _ _ => ⟨fun h => absurd h hd, fun _ h => absurd h (by simp [ha])⟩⟩
      next => exact ⟨_, Mod.xfrRun_setXfr _ _ _, rfl, rfl, fun h => absurd h hlive, fun _ _ => ⟨fun h => absurd h hd, fun _ _ => rfl⟩⟩

end

end Sys2Proof.Machine

/-!
The commands of the transfer channels (R341 to R346).
-/
namespace Sys2Proof.Machine

/-! ### The end of a descriptor -/

/-- A write to region scratch leaves the bytes there. -/
theorem Mod.mem_rawWrite_scratch {m : Mod} {a g off : Nat} (ht : targetOf a = .scratch g off) (bs : List Byte) (key : Option Bool)
    (writer : Option Nat) : (m.rawWrite a bs key writer).mem = (m.setBytes a bs).mem := by
  have hkeeps := Mod.each_keeps (P := fun t => t.mem = (m.setBytes a bs).mem) (f := fun m gr => m.setTag (16 * gr) (key.getD false))
    (fun _ _ h => h) (span (a / 16) ((a + bs.length - 1) / 16 + 1 - a / 16)) (m := (m.setBytes a bs).unspoil a bs.length) rfl
  simpa only [Mod.rawWrite, ht] using hkeeps

section
variable (m : Mod) (n : Nat) (r : XfrRun) (c sub : Nat) (a : Option Nat)

/-- The status written to a descriptor in memory. -/
def Mod.xfrNoted : Mod :=
  m.iff (descPlace r.addr 64) (fun m => m.engineWrite (xfrMaster n) (r.addr + 0x36) (leBytes 2 (c + 256 * sub) ++ leBytes 8 r.done))

/-- A descriptor's end as the channel's registers show it. -/
def Mod.xfrShow : Mod :=
  (((m.wr F.XFR_CH_STATUS_CODE n c).wr F.XFR_CH_STATUS_SUB n sub).wr F.XFR_CH_DONE_BYTES n r.done).iff a.isSome
    (fun m => m.wr F.XFR_CH_FAIL_ADDR n (a.getD 0))

/-- The module before a channel goes on or ends. -/
def Mod.xfrEnded : Mod :=
  ((m.xfrNoted n r c sub).xfrShow n r c sub a).iff
    ((c == esOK && bitAt (descField r.desc 0x34 2) 0) || !(c == esOK && descField r.desc 0x28 8 != 0)) (fun m => m.raise (176 + n))

theorem Mod.rd_xfrNoted {f : Fld}
    (h : f.reg ∉ [.SPL_RGN_STATUS, .GATE_VQ_STATUS, .GATE_VQ_LOST, .CFG_PROB_VIOL, .GATE_UNMAPPED_COUNT, .GATE_G_COUNT, .EVR_UNROUTED]) (i : Nat) :
    (m.xfrNoted n r c sub).rd f i = m.rd f i :=
  Mod.iff_keeps (P := fun t => t.rd f i = m.rd f i) _ (Mod.rd_engineWrite _ _ _ _ h i) rfl

theorem Mod.rd_xfrShow {f : Fld} (h : F.XFR_CH_FAIL_ADDR.Apart f) :
    (m.xfrShow n r c sub a).rd f n = (((m.wr F.XFR_CH_STATUS_CODE n c).wr F.XFR_CH_STATUS_SUB n sub).wr F.XFR_CH_DONE_BYTES n r.done).rd f n := by
  unfold Mod.xfrShow
  cases a.isSome
  · rw [Mod.iff_false]
  · rw [Mod.iff_true, Mod.rd_wr_of_apart _ _ _ _ h]

theorem Mod.told_xfrEnded : ((m.xfrNoted n r c sub).xfrShow n r c sub a).Told [(.EVR_UNROUTED, 0)] (m.xfrEnded n r c sub a) :=
  .iff _ (Mod.told_raise _ _)

theorem Mod.code_xfrEnded : (m.xfrEnded n r c sub a).rd F.XFR_CH_STATUS_CODE n = c % 256 := by
  rw [(m.told_xfrEnded n r c sub a).regs.rd_of_reg _ (by decide), Mod.rd_xfrShow _ _ _ _ _ _ (by decide), Mod.rd_wr_of_apart _ _ _ _ (by decide),
    Mod.rd_wr_of_apart _ _ _ _ (by decide), Mod.rd_wr_self _ _ _ _ (by decide)]
  rfl

theorem Mod.sub_xfrEnded : (m.xfrEnded n r c sub a).rd F.XFR_CH_STATUS_SUB n = sub % 256 := by
  rw [(m.told_xfrEnded n r c sub a).regs.rd_of_reg _ (by decide), Mod.rd_xfrShow _ _ _ _ _ _ (by decide), Mod.rd_wr_of_apart _ _ _ _ (by decide),
    Mod.rd_wr_self _ _ _ _ (by decide)]
  rfl

theorem Mod.done_xfrEnded : (m.xfrEnded n r c sub a).rd F.XFR_CH_DONE_BYTES n = r.done % 2 ^ 64 := by
  rw [(m.told_xfrEnded n r c sub a).regs.rd_of_reg _ (by decide), Mod.rd_xfrShow _ _ _ _ _ _ (by decide), Mod.rd_wr_self _ _ _ _ (by decide)]
  rfl

theorem Mod.mem_xfrEnded : (m.xfrEnded n r c sub a).mem = (m.xfrNoted n r c sub).mem := by
  rw [(m.told_xfrEnded n r c sub a).mem_eq, Mod.xfrShow]
  cases a.isSome
  · rw [Mod.iff_false, Mod.wr_mem, Mod.wr_mem, Mod.wr_mem]
  · rw [Mod.iff_true, Mod.wr_mem, Mod.wr_mem, Mod.wr_mem, Mod.wr_mem]

/-- Status and count lie in a descriptor of region scratch whose gate takes them. -/
theorem Mod.mem_xfrNoted {g off : Nat} (hp : descPlace r.addr 64 = true) (ht : targetOf (r.addr + 0x36) = .scratch g off)
    (hg : m.passGate ⟨xfrMaster n, false, 0, 0, r.addr + 0x36, 10, .store⟩ = (m, none)) :
    (m.xfrNoted n r c sub).mem = (m.setBytes (r.addr + 0x36) (leBytes 2 (c + 256 * sub) ++ leBytes 8 r.done)).mem := by
  have hg' : m.passGate ⟨xfrMaster n, false, 0, 0, r.addr + 0x36, (leBytes 2 (c + 256 * sub) ++ leBytes 8 r.done).length, .store⟩ = (m, none) := by
    rw [List.length_append, length_leBytes, length_leBytes]
    exact hg
  rw [Mod.xfrNoted, hp, Mod.iff_true, Mod.engineWrite, hg']
  exact Mod.mem_rawWrite_scratch ht _ _ _

end

theorem Mod.xfrDone_eq {m : Mod} {n : Nat} {r : XfrRun} {c sub : Nat} {a : Option Nat} (hr : m.xfrRun n = some r) (hf : r.fin = some (c, sub, a)) :
    m.xfrDone n =
      if c == esOK && descField r.desc 0x28 8 != 0 then
        ((m.xfrEnded n r c sub a).xfrTake n (descField r.desc 0x28 8)).iff r.aborting (fun m => m.xfrAbort n)
      else if c = esOK then (((m.xfrEnded n r c sub a).setXfr n none).put F.XFR_CH_STATUS_BUSY n false).put F.XFR_CH_STATUS_DONE n true
      else (((m.xfrEnded n r c sub a).setXfr n none).put F.XFR_CH_STATUS_BUSY n false).put F.XFR_CH_STATUS_ERR n true := by
  rw [Mod.xfrDone, hr]
  dsimp only
  rw [hf]
  rfl

/-! ### The rows -/

/-- A channel takes a descriptor: its registers show where, and nothing done. -/
theorem Mod.rd_xfrTake (m : Mod) (n a : Nat) {f : Fld}
    (h : f.reg ∉ [.SPL_RGN_STATUS, .GATE_VQ_STATUS, .GATE_VQ_LOST, .CFG_PROB_VIOL, .GATE_UNMAPPED_COUNT, .GATE_G_COUNT, .EVR_UNROUTED]) (i : Nat) :
    (m.xfrTake n a).rd f i = ((m.wr F.XFR_CH_CUR_ADDR n (a / 64)).wr F.XFR_CH_DONE_BYTES n 0).rd f i := by
  have hd := ((m.wr F.XFR_CH_CUR_ADDR n (a / 64)).wr F.XFR_CH_DONE_BYTES n 0).rd_engineDesc (xfrMaster n) a 64 h i
  unfold Mod.xfrTake
  dsimp only
  split
  · next m2 e he =>
    rw [he] at hd
    rw [Mod.rd_setXfr, hd]
  · next m2 d tags he =>
    rw [he] at hd
    rw [Mod.rd_setXfr, hd]

theorem Mod.xfrRun_xfrTake (m : Mod) (n a : Nat) : ∃ r, (m.xfrTake n a).xfrRun n = some r ∧ r.addr = a ∧ r.aborting = false := by
  unfold Mod.xfrTake
  dsimp only
  split
  · exact ⟨_, Mod.xfrRun_setXfr _ _ _, rfl, rfl⟩
  · exact ⟨_, Mod.xfrRun_setXfr _ _ _, rfl, rfl⟩

theorem Mod.xfrAbort_eq {m : Mod} {n : Nat} {r : XfrRun} (hr : m.xfrRun n = some r) :
    m.xfrAbort n = m.setXfr n (some { r with aborting := true, fin := if r.fin.isNone && r.tid.isNone then some (esABORTED, 0, none) else r.fin }) := by
  rw [Mod.xfrAbort, hr]

/-- Status and count as they are read back from the descriptor. -/
theorem Mod.num_of_xfrNoted {m t : Mod} {n : Nat} {r : XfrRun} {c sub g off : Nat} (hm : t.mem = (m.xfrNoted n r c sub).mem)
    (hp : descPlace r.addr 64 = true) (ht : targetOf (r.addr + 0x36) = .scratch g off)
    (hg : m.passGate ⟨xfrMaster n, false, 0, 0, r.addr + 0x36, 10, .store⟩ = (m, none)) :
    t.num (r.addr + 0x36) 2 = (c + 256 * sub) % 2 ^ 16 ∧ t.num (r.addr + 0x38) 8 = r.done % 2 ^ 64 := by
  have hmem := hm.trans (m.mem_xfrNoted n r c sub hp ht hg)
  have hlen : (leBytes 2 (c + 256 * sub) ++ leBytes 8 r.done).length = 10 := by rw [List.length_append, length_leBytes, length_leBytes]
  have hstatus := m.bytes_setBytes (r.addr + 0x36) (leBytes 2 (c + 256 * sub) ++ leBytes 8 r.done) (o := 0) (n := 2) (by omega)
  have hcount := m.bytes_setBytes (r.addr + 0x36) (leBytes 2 (c + 256 * sub) ++ leBytes 8 r.done) (o := 2) (n := 8) (by omega)
  rw [List.drop_zero, List.take_left' (length_leBytes _ _), Nat.add_zero] at hstatus
  rw [List.drop_left' (length_leBytes _ _), List.take_of_length_le (length_leBytes _ _).le] at hcount
  rw [Mod.num_of_mem hmem, Mod.num_of_mem hmem, Mod.num, Mod.num, hstatus, show r.addr + 0x38 = r.addr + 0x36 + 2 from rfl, hcount,
    ofLeBytes_leBytes, ofLeBytes_leBytes]
  exact ⟨rfl, rfl⟩

section
variable (m : Mod) (n : Nat) (f : Fld)

/-- A channel that ends: no descriptor runs, and one bit of its status says how it ended. -/
def Mod.xfrIdle : Mod := ((m.setXfr n none).put F.XFR_CH_STATUS_BUSY n false).put f n true

theorem Mod.xfrRun_xfrIdle : (m.xfrIdle n f).xfrRun n = none := by
  rw [Mod.xfrRun, Mod.xfrIdle, Mod.put_xfr, Mod.put_xfr]
  exact Mod.xfrRun_setXfr m n none

theorem Mod.mem_xfrIdle : (m.xfrIdle n f).mem = m.mem := by rw [Mod.xfrIdle, Mod.put_mem, Mod.put_mem, Mod.mem_setXfr]

theorem Mod.rd_xfrIdle {g : Fld} (hb : F.XFR_CH_STATUS_BUSY.Apart g) (hf : f.Apart g) : (m.xfrIdle n f).rd g n = m.rd g n := by
  rw [Mod.xfrIdle, Mod.rd_put_of_apart _ _ _ _ hf, Mod.rd_put_of_apart _ _ _ _ hb, Mod.rd_setXfr]

theorem Mod.busy_xfrIdle (hf : f.Apart F.XFR_CH_STATUS_BUSY) : (m.xfrIdle n f).flag F.XFR_CH_STATUS_BUSY n = false := by
  rw [Mod.xfrIdle, Mod.flag_put_of_apart _ _ _ _ hf]
  exact Mod.flag_put_self _ _ _ _ (by decide) rfl

end

theorem Mod.rd_iff_xfrAbort (m : Mod) (n : Nat) (b : Bool) (f : Fld) (i : Nat) : (m.iff b (fun m => m.xfrAbort n)).rd f i = m.rd f i := by
  refine Mod.iff_keeps (P := fun t => t.rd f i = m.rd f i) _ ?_ rfl
  unfold Mod.xfrAbort
  split
  · rfl
  · exact Mod.rd_setXfr _ _ _ _ _

/-- A field that taking a descriptor leaves alone. -/
theorem Mod.rd_xfrTake_code (m : Mod) (n a : Nat) {f : Fld} (hc : F.XFR_CH_CUR_ADDR.Apart f) (hd : F.XFR_CH_DONE_BYTES.Apart f)
    (h : f.reg ∉ [.SPL_RGN_STATUS, .GATE_VQ_STATUS, .GATE_VQ_LOST, .CFG_PROB_VIOL, .GATE_UNMAPPED_COUNT, .GATE_G_COUNT, .EVR_UNROUTED]) (i : Nat) :
    (m.xfrTake n a).rd f i = m.rd f i := by
  rw [Mod.rd_xfrTake _ _ _ h, Mod.rd_wr_of_apart _ _ _ _ hd, Mod.rd_wr_of_apart _ _ _ _ hc]

/-- A chunk that nothing in flight holds back, of a descriptor that goes on. -/
theorem Mod.xfrStep_get {m : Mod} {n : Nat} {r : XfrRun} {c : Chunk} (hr : m.xfrRun n = some r) (hf : r.fin = none) (hc : m.xfrChunk r = some c)
    (ht : r.tid = none) (ha : r.aborting = false) (hs : (m.descKey r.desc r.tags 0).live = true) (hd : (m.descKey r.desc r.tags 16).live = true) :
    m.xfrStep n = m.xfrGet n r c := by
  have hlive : m.xfrKeysLive r = true := by simp [Mod.xfrKeysLive, hs, hd]
  rw [Mod.xfrStep, hr]
  dsimp only
  rw [hf, hc]
  dsimp only
  rw [ht]
  dsimp only
  rw [ha, hlive]
  rfl

/-- Settles O48. -/
theorem transferChannelsCopyInChunks : Obligations.TransferChannelsCopyInChunks := by
  intro s w n r m1 m2 d tags e c tid kind x code sub ad data g off m head m0 len ks kd src dst next goes
  have hstep : ∀ {P : Mod → Prop}, P (m.xfrStep n) → Does (.transferChunkDone n) s P := fun h => does_next rfl h
  have hend : ∀ {P : Mod → Prop}, P (m.xfrDone n) → Does (.descriptorDone n) s P := fun h => does_next rfl h
  refine ⟨?notFull, ?busy, ?start, ?idle, fun hr => ⟨?abort, ?ended, fun hf hc => ⟨?await, ?failed, ?acked, ?keyGone, ?copied, ?refused⟩,
    ?allCopied, ?notEnded, ?done⟩⟩
  case notFull =>
    intro hp
    refine does_next (m := m.xfrStart n) rfl ?_
    simp [Mod.xfrStart, hp]
  case busy =>
    intro hp hb
    refine does_next (m := m.xfrStart n) rfl ?_
    simp [Mod.xfrStart, hp, hb]
  case start =>
    intro hp hb
    have hstart : m.xfrStart n = (m.put F.XFR_CH_STATUS_BUSY n true).xfrTake n (64 * head) := by
      simp [Mod.xfrStart, hp, hb, head]
    have h64 : 64 * head / 64 = head := Nat.mul_div_cancel_left head (by decide)
    refine ⟨fun hd => does_next (m := m.xfrStart n) rfl ?_, fun hd => does_next (m := m.xfrStart n) rfl ?_⟩
    · refine ⟨?_, ?_, ?_, ?_⟩
      · rw [hstart, Mod.xfrTake]
        rw [h64, hd]
      · rw [hstart, Mod.flag, Mod.rd_xfrTake _ _ _ (by decide), Mod.rd_wr_of_apart _ _ _ _ (by decide), Mod.rd_wr_of_apart _ _ _ _ (by decide)]
        exact m.flag_put_self _ _ _ (by decide) rfl
      · rw [hstart, Mod.rd_xfrTake _ _ _ (by decide), Mod.rd_wr_of_apart _ _ _ _ (by decide), Mod.rd_wr_self _ _ _ _ (by decide), h64]
        exact Nat.mod_eq_of_lt (bitsOf_lt _ _ _)
      · rw [hstart, Mod.rd_xfrTake _ _ _ (by decide), Mod.rd_wr_self _ _ _ _ (by decide)]
        rfl
    · rw [hstart, Mod.xfrTake]
      rw [h64, hd]
  case idle =>
    intro hr
    refine ⟨does_next (m := m.xfrAbort n) rfl ?_, hstep ?_, hend ?_⟩
    · rw [Mod.xfrAbort, hr]
    · rw [Mod.xfrStep, hr]
    · rw [Mod.xfrDone, hr]
  case abort =>
    refine does_next (m := m.xfrAbort n) rfl ?_
    rw [Mod.xfrAbort_eq hr]
    refine ⟨Mod.regs_setXfr _ _ _, _, Mod.xfrRun_setXfr _ _ _, rfl, rfl, fun hf ht => by simp [hf, ht], fun h => ?_⟩
    rcases h with h | h
    · simp [Option.isNone_iff_eq_none, h]
    · simp [Option.isNone_iff_eq_none, h]
  case ended =>
    intro hf
    refine hstep ?_
    rw [Mod.xfrStep, hr]
    dsimp only
    rw [hf]
  case await =>
    intro ht hp
    refine hstep ?_
    rw [Mod.xfrStep, hr]
    dsimp only
    rw [hf, hc]
    dsimp only
    rw [ht, hp]
  case failed =>
    intro ht hp
    refine hstep ?_
    rw [Mod.xfrStep, hr]
    dsimp only
    rw [hf, hc]
    dsimp only
    rw [ht, hp]
    exact ⟨Mod.regs_xfrEnd _ _ _ _, _, Mod.xfrRun_xfrEnd _ _ _ _, rfl, rfl⟩
  case acked =>
    intro ht hp
    refine hstep ?_
    rw [Mod.xfrStep, hr]
    dsimp only
    rw [hf, hc]
    dsimp only
    rw [ht, hp]
    obtain ⟨r', hrun, hdone, htid, hkey, hlive⟩ := m.xfrRun_xfrAdvance n c.n r
    refine ⟨m.rd_xfrAdvance n c.n r, r', hrun, hdone, htid, fun h1 h2 => (hlive h1 h2).1, fun h1 h2 hl ha => ((hlive h1 h2).2 hl ha).trans hf, hkey⟩
  case keyGone =>
    intro ht hp hk
    refine hstep ?_
    have hlive : m.xfrKeysLive r = false := by
      rcases hk with hk | hk <;> simp [Mod.xfrKeysLive, show (m.descKey _ _ _).live = false from hk]
    rw [Mod.xfrStep, hr]
    dsimp only
    rw [hf, hc]
    dsimp only
    rw [ht, hp]
    dsimp only
    rw [hlive]
    exact ⟨Mod.mem_xfrEnd _ _ _ _, _, Mod.xfrRun_xfrEnd _ _ _ _, rfl, rfl⟩
  case copied =>
    intro ht ha hs hd hsrc hdst hread hgate hnode hsweep
    refine hstep ?_
    have hkd : m1.descKey r.desc r.tags 16 = kd := Mod.descKey_of_sweep hsweep hnode _ _ _
    rw [Mod.xfrStep_get hr hf hc ht ha hs hd, Mod.xfrGet, if_pos hsrc]
    dsimp only
    rw [hread]
    dsimp only
    rw [if_neg Bool.false_ne_true, Mod.xfrPut]
    dsimp only
    rw [if_pos ((Mod.isLocal_of_node hnode _).trans hdst), hkd, hgate]
    dsimp only
    obtain ⟨r', hrun, hdone, -⟩ := (m2.storeAs (xfrMaster n) dst data (m1.xfrKeeps r c data fun o => m1.tagAt (src + o))).xfrRun_xfrAdvance n c.n r
    exact ⟨⟨_, Mod.mem_xfrAdvance _ _ _ _⟩, r', hrun, hdone⟩
  case refused =>
    intro ht ha hs hd hsrc hread
    refine hstep ?_
    rw [Mod.xfrStep_get hr hf hc ht ha hs hd, Mod.xfrGet, if_pos hsrc]
    dsimp only
    rw [hread]
    exact ⟨(Mod.mem_xfrEnd _ _ _ _).trans (Mod.chunkRead_error_mem hread), _, Mod.xfrRun_xfrEnd _ _ _ _, rfl, rfl⟩
  case allCopied =>
    intro hf hc
    refine hstep ?_
    rw [Mod.xfrStep, hr]
    dsimp only
    rw [hf, hc]
    exact ⟨Mod.regs_xfrEnd _ _ _ _, _, Mod.xfrRun_xfrEnd _ _ _ _, rfl⟩
  case notEnded =>
    intro hf
    refine hend ?_
    rw [Mod.xfrDone, hr]
    dsimp only
    rw [hf]
  case done =>
    intro hf
    refine hend ?_
    rw [Mod.xfrDone_eq hr hf]
    have hcode := m.code_xfrEnded n r code sub ad
    have hsub := m.sub_xfrEnded n r code sub ad
    have hdone := m.done_xfrEnded n r code sub ad
    cases hg : goes
    case true =>
      rw [if_pos hg]
      obtain ⟨r', hrun, haddr, hab⟩ := (m.xfrEnded n r code sub ad).xfrRun_xfrTake n next
      refine ⟨?_, ?_, nofun, fun _ => ?_⟩
      · exact (Mod.rd_iff_xfrAbort _ _ _ _ _).trans ((Mod.rd_xfrTake_code _ _ _ (by decide) (by decide) (by decide) _).trans hcode)
      · exact (Mod.rd_iff_xfrAbort _ _ _ _ _).trans ((Mod.rd_xfrTake_code _ _ _ (by decide) (by decide) (by decide) _).trans hsub)
      · cases hra : r.aborting
        · exact ⟨r', hrun, haddr, hab⟩
        · rw [Mod.iff_true, Mod.xfrAbort_eq hrun]
          exact ⟨_, Mod.xfrRun_setXfr _ _ _, haddr, rfl⟩
    case false =>
      rw [if_neg (show ¬(code == esOK && next != 0) = true from by rw [show (code == esOK && next != 0) = false from hg]; exact Bool.false_ne_true)]
      have hnum := fun fl => Mod.num_of_xfrNoted (m := m) (t := (m.xfrEnded n r code sub ad).xfrIdle n fl) (g := g) (off := off)
        ((Mod.mem_xfrIdle _ _ _).trans (Mod.mem_xfrEnded _ _ _ _ _ _))
      split
      next hok =>
        have hrd := fun {f} hb hf => (m.xfrEnded n r code sub ad).rd_xfrIdle n F.XFR_CH_STATUS_DONE (g := f) hb hf
        exact ⟨(hrd (by decide) (by decide)).trans hcode, (hrd (by decide) (by decide)).trans hsub,
          fun _ => ⟨Mod.xfrRun_xfrIdle _ _ _, Mod.busy_xfrIdle _ _ _ (by decide), (hrd (by decide) (by decide)).trans hdone,
            fun _ => Mod.flag_put_self _ _ _ _ (by decide) rfl, fun h => absurd hok h, hnum _⟩, nofun⟩
      next hok =>
        have hrd := fun {f} hb hf => (m.xfrEnded n r code sub ad).rd_xfrIdle n F.XFR_CH_STATUS_ERR (g := f) hb hf
        exact ⟨(hrd (by decide) (by decide)).trans hcode, (hrd (by decide) (by decide)).trans hsub,
          fun _ => ⟨Mod.xfrRun_xfrIdle _ _ _, Mod.busy_xfrIdle _ _ _ (by decide), (hrd (by decide) (by decide)).trans hdone,
            fun h => absurd h hok, fun _ => Mod.flag_put_self _ _ _ _ (by decide) rfl, hnum _⟩, nofun⟩

end Sys2Proof.Machine

/-!
Refutations of the statements about mailbox commands.
-/
namespace Sys2Proof.Machine

/-- Pair 0 with an open session and a DIAG_ERRLOG that takes no record and has room for a response of 24 bytes; gate 14 admits nobody to mailbox memory. -/
def errlogMod : Mod :=
  (((({} : Mod).setNum (cmdSlot 0 0) 2 0x0503).setNum (cmdSlot 0 0 + 0x18) 4 24).wr F.MBX_Q_CMD_PROD_INDEX 0 1 |>.wr F.MBX_STATE_STATE 0 2
    |>.put F.GATE_G_CTRL_PRIV_DEFAULT 14 false).setSess 0 ⟨true, 2, 0, 0, []⟩

/-- Its command. -/
def errlogCmd : Cmd := (errlogMod.front 0).getD (cmdOf 0 0 0 [] [])

/-- Refutes O51: the bytes of a response are the Sheepdog's own accesses (R276), and where gate 14 refuses them the refusal is itself a report.
In `errlogMod` DIAG_ERRLOG takes no record, and one more is in the queue after it. -/
theorem not_mailboxCommandsOfWindowsTimeAndFirmware : ¬ Obligations.MailboxCommandsOfWindowsTimeAndFirmware := by
  intro h
  obtain ⟨-, -, -, -, -, -, -, -, herrlog, -⟩ := h ⟨[], errlogMod⟩ 0 errlogCmd ⟨0, 0, []⟩ {} {} {} 0 0 0 0 0 0 0 0 []
  obtain ⟨t, ht, -, hvq⟩ := (herrlog (by decide +kernel)).2 (by decide +kernel)
  cases ht
  have hlen := congrArg List.length hvq
  revert hlen
  decide +kernel

end Sys2Proof.Machine

/-!
SRD and SWR (R171, R190, R191, R229), and the words that end at a state other than the one they begin in.
-/
namespace Sys2Proof.Machine

/-! ### Words that end in sequence, stay or raise an exception -/

/-- A word whose body leaves `m` and goes on in sequence. -/
theorem coreBecomes_of_seq_mod {s : State} {c : CoreId} (h : Ready s.mod c) (uses : List RegName) {body : Body} {m : Mod}
    (hb : body ((s.mod.fetched c).issuing c) c = .seq m) (hw : (m.core c).word = true) :
    CoreBecomes (s.fetched c).pending m c (m.core c).next.retire { s with mod := s.mod.issue c uses body } := by
  rw [Mod.issue_ready h, hb, settle_seq _ hw]
  exact coreBecomes_setCore _ _ _ _

/-- A word whose body makes core `c` the core `k`, from the state in which it began. -/
theorem coreBecomes_of_setCore {s : State} {c : CoreId} (h : Ready s.mod c) (uses : List RegName) {body : Body} {k : Core}
    (hb : body ((s.mod.fetched c).issuing c) c = .seq (((s.mod.fetched c).issuing c).setCore c k)) (hk : k.word = true) :
    CoreBecomes (s.fetched c).pending (s.fetched c).mod c k.next.retire { s with mod := s.mod.issue c uses body } :=
  coreBecomes_of_seq h uses (hb.trans (congrArg IOut.seq (Mod.setCore_issuing _ _ _))) hk

@[simp] theorem Mod.mono_issuing (m : Mod) (c : Nat) : (m.issuing c).mono = m.mono := rfl

theorem Core.word_writeStatus (k : Core) (l v : Nat) : (k.writeStatus l v).word = k.word := by
  rw [Core.writeStatus, apply_ite Core.word]
  exact ite_self _

/-! ### System registers -/

section
variable {s0 : State} {c : CoreId} (r : DReg) (num : BitVec 12) (h : Ready s0.mod c)
include h

theorem srd_writesD {x : Nat} (h1 : num.toNat ≠ 1) (h20 : num.toNat ≠ 0x20)
    (hp : num.toNat < 0x100 ∨ ((s0.mod.fetched c).core c).atIssue.sys = true) (hx : ((s0.mod.fetched c).core c).atIssue.sysReg num.toNat = some x) :
    WritesD c r (x % 2 ^ 64) (s0.fetched c) { s0 with mod := s0.mod.issue c (Instr.uses (.srd c r num)) (bodySrd r num.toNat) } := by
  refine writesD_of_issue h _ ?_
  have hpriv : (decide (num.toNat ≥ 0x100) && !((s0.mod.fetched c).core c).atIssue.sys) = false := by
    rcases hp with hp | hp
    · simp; omega
    · simp [hp]
  have hne : (num.toNat == 1) = false := by simpa using h1
  rw [bodySrd, Mod.core_issuing, if_neg (by rw [hpriv]; decide), hne]
  dsimp only
  rw [Mod.iff_false, if_neg h20, Mod.core_issuing, hx]

theorem srd_cycle : WritesD c r (((s0.mod.fetched c).mono - ((s0.mod.fetched c).core c).atIssue.cyc0) * 8 / 5 % 2 ^ 64) (s0.fetched c)
    { s0 with mod := s0.mod.issue c (Instr.uses (.srd c r 0x020)) (bodySrd r (0x020 : BitVec 12).toNat) } := by
  refine writesD_of_issue h _ ?_
  rw [bodySrd, if_neg (by simp)]
  dsimp only
  rw [show ((0x020 : BitVec 12).toNat == 1) = false from rfl, Mod.iff_false, if_pos (show (0x020 : BitVec 12).toNat = 0x020 from rfl), Mod.cycles, Mod.core_issuing, Mod.mono_issuing]

end

section
variable {m : Mod} {c : CoreId} (r : DReg) (num : BitVec 12)

/-- A loop register is written unless it is a start or end of an active loop (R190). -/
theorem swr_loopReg {j w : Nat} (hj : j < 4) (hw : w < 3) (hn : num.toNat = 0x10 + 4 * w + j)
    (ha : w = 2 ∨ (m.core c).atIssue.lact (m.core c).atIssue.level j = false) :
    bodySwr r num.toNat (m.issuing c) c = .seq ((m.issuing c).setCore c
      ((m.core c).atIssue.setLoopReg (m.core c).atIssue.level w j (m.cd c r))) := by
  have hmod : num.toNat % 4 = j := by omega
  have hdiv : (num.toNat - 0x10) / 4 = w := by omega
  rw [bodySwr]
  dsimp only
  rw [Mod.core_issuing, Mod.cd_issuing, if_neg (by simp; omega), if_neg (by omega), if_neg (by omega), hmod, hdiv]
  by_cases h2 : w = 2
  · rw [if_neg (by omega), if_pos (by omega), h2]
  · rw [if_pos (by omega), if_neg (by simpa using ha.resolve_left h2)]

theorem swr_activeLoop {j w : Nat} (hj : j < 4) (hw : w < 2) (hn : num.toNat = 0x10 + 4 * w + j)
    (ha : (m.core c).atIssue.lact (m.core c).atIssue.level j = true) :
    bodySwr r num.toNat (m.issuing c) c = illegal (m.issuing c) 5 := by
  have hmod : num.toNat % 4 = j := by omega
  rw [bodySwr]
  dsimp only
  rw [Mod.core_issuing, if_neg (by simp; omega), if_neg (by omega), if_neg (by omega), hmod, if_pos (by omega), if_pos ha]

/-- A number from 0x100 on needs SYS (R171). -/
theorem systemRegister_privileged (hn : num.toNat ≥ 0x100) (hs : (m.core c).atIssue.sys = false) :
    bodySrd r num.toNat (m.issuing c) c = illegal (m.issuing c) 3 ∧
    bodySwr r num.toNat (m.issuing c) c = illegal (m.issuing c) 3 := by
  constructor
  · rw [bodySrd, Mod.core_issuing, if_pos (by simp [hn, hs])]
  · rw [bodySwr]
    dsimp only
    rw [Mod.core_issuing, if_pos (by simp [hn, hs])]

theorem swr_lstat : bodySwr r (0x002 : BitVec 12).toNat (m.issuing c) c =
    .seq ((m.issuing c).setCore c ((m.core c).atIssue.setSt (m.core c).atIssue.level 0 4 (m.cd c r))) := by
  rw [bodySwr]
  dsimp only
  rw [Mod.core_issuing, Mod.cd_issuing, if_neg (by simp), if_neg (by simp), if_pos (by simp)]

theorem swr_status (hs : (m.core c).atIssue.sys = true) : bodySwr r (0x100 : BitVec 12).toNat (m.issuing c) c =
    .seq ((m.issuing c).setCore c ((m.core c).atIssue.writeStatus (m.core c).atIssue.level (m.cd c r))) := by
  rw [bodySwr]
  dsimp only
  rw [Mod.core_issuing, Mod.cd_issuing, if_neg (by simpa using hs), if_neg (by simp), if_neg (by simp), if_neg (by simp), if_neg (by simp),
    if_pos (by simp)]

end

/-- Settles O21. -/
theorem systemRegistersReadAndWrite : Obligations.SystemRegistersReadAndWrite := by
  intro s0 c r num h s k l n v traps
  have hk : k.word = true := by simpa [k, s] using h.word
  refine ⟨fun h1 h20 hp x hx => ⟨_, rfl, srd_writesD r num h h1 h20 hp hx⟩, ⟨_, rfl, srd_cycle r h⟩,
    fun j hj w hw hn ha => ⟨_, rfl, coreBecomes_of_setCore h _ (swr_loopReg r num hj hw hn ha) (by simpa using hk)⟩,
    ⟨_, rfl, coreBecomes_of_setCore h _ (swr_lstat r) (by simpa using hk)⟩,
    fun hs => ⟨_, rfl, coreBecomes_of_setCore h _ (swr_status r hs) (by rw [Core.word_writeStatus]; exact hk)⟩,
    fun hn hs => ?_, fun j hj w hw hn ha => ?_⟩
  · obtain ⟨hsrd, hswr⟩ := systemRegister_privileged r num hn hs
    have h1 := issue_of_exc h (Instr.uses (.srd c r num)) hsrd
    have h2 := issue_of_exc h (Instr.uses (.swr c r num)) hswr
    exact ⟨⟨_, rfl, rfl, h1⟩, ⟨_, rfl, rfl, h2⟩⟩
  · have h1 := issue_of_exc h (Instr.uses (.swr c r num)) (swr_activeLoop r num hj hw hn ha)
    exact ⟨_, rfl, rfl, h1⟩

end Sys2Proof.Machine

/-!
Ordering, waiting, and the change of level (R205, R213, R214, R218 to R221).
-/
namespace Sys2Proof.Machine

/-- A word whose body leaves `m` and does not complete. -/
theorem coreBecomes_of_stay {s : State} {c : CoreId} (h : Ready s.mod c) (uses : List RegName) {body : Body} {m : Mod}
    (hb : body ((s.mod.fetched c).issuing c) c = .stay m) (hw : (m.core c).word = true) :
    CoreBecomes (s.fetched c).pending m c { m.core c with word := false } { s with mod := s.mod.issue c uses body } := by
  rw [Mod.issue_ready h, hb, settle_stay _ hw]
  exact coreBecomes_setCore _ _ _ _

/-- A word whose body leaves `m` and resumes core `c` at the ip it has there. -/
theorem coreBecomes_of_resume {s : State} {c : CoreId} (h : Ready s.mod c) (uses : List RegName) {body : Body} {m : Mod}
    (hb : body ((s.mod.fetched c).issuing c) c = .jump m (m.core c).ip) (hw : (m.core c).word = true) :
    CoreBecomes (s.fetched c).pending m c (m.core c).retire { s with mod := s.mod.issue c uses body } := by
  rw [Mod.issue_ready h, hb, settle_jump _ _ hw]
  exact coreBecomes_setCore _ _ _ _

/-- A word whose body makes core `c` of the module `m` the core `k` and transfers control. -/
theorem coreBecomes_of_jump_mod {s : State} {c : CoreId} (h : Ready s.mod c) (uses : List RegName) {body : Body} {m : Mod} {k : Core} {ip : Key}
    (hb : body ((s.mod.fetched c).issuing c) c = .jump (m.setCore c k) ip) (hk : k.word = true) :
    CoreBecomes (s.fetched c).pending m c { k.retire with ip := ip } { s with mod := s.mod.issue c uses body } := by
  rw [Mod.issue_ready h, hb, settle_jump _ _ (by rw [Mod.core_setCore_self]; exact hk), Mod.core_setCore_self, Mod.setCore_setCore]
  exact coreBecomes_setCore _ _ _ _

/-- A word whose body makes core `c` of the module `m` the core `k`, which goes on at its ip. -/
theorem coreBecomes_of_resume_mod {s : State} {c : CoreId} (h : Ready s.mod c) (uses : List RegName) {body : Body} {m : Mod} {k : Core}
    (hb : body ((s.mod.fetched c).issuing c) c = .jump (m.setCore c k) k.ip) (hk : k.word = true) :
    CoreBecomes (s.fetched c).pending m c k.retire { s with mod := s.mod.issue c uses body } := coreBecomes_of_jump_mod h uses hb hk

theorem settle_excAt {m : Mod} {c : Nat} (w : Nat) (e : Exc) (fip : Nat) (pair slotB : Bool) (hw : (m.core c).word = true) :
    settle c w (.excAt m e fip pair slotB) = m.coreExc c e.code e.sub e.ea fip pair slotB := by
  simp [settle, IOut.mod, hw]

/-! ### The store buffer -/

/-- With nothing in the buffer a drain does nothing. -/
theorem Mod.drain_of_empty {m : Mod} {c : Nat} (h : (m.core c).sb = []) : m.drain c = m := by
  have hn : (m.core c).nextStore = none := by rw [Core.nextStore, h]; rfl
  rw [Mod.drain, show (8 : Nat) = 7 + 1 from rfl, Mod.drainStores, hn]

@[simp] theorem Core.sb_atIssue (k : Core) : k.atIssue.sb = k.sb := rfl
@[simp] theorem Core.waits_atIssue (k : Core) : k.atIssue.waits = k.waits := rfl

theorem Mod.drain_issuing {m : Mod} {c : Nat} (h : (m.core c).sb = []) : (m.issuing c).drain c = m.issuing c :=
  Mod.drain_of_empty (by rw [Mod.core_issuing, Core.sb_atIssue, h])

theorem bodyFence_quiet {m : Mod} {c : Nat} (hsb : (m.core c).atIssue.sb = []) (hw : (m.core c).atIssue.waits = []) :
    bodyFence (m.issuing c) c = .seq ((m.issuing c).setCore c (m.core c).atIssue) := by
  rw [bodyFence, Mod.drain_issuing hsb, Mod.core_issuing, if_pos (by rw [Core.quiet, hsb, hw]; rfl), Mod.setCore_issuing]
  rfl

theorem bodyFence_waits {m : Mod} {c : Nat} (h : (((m.issuing c).drain c).core c).sb ≠ [] ∨ (((m.issuing c).drain c).core c).waits ≠ []) :
    bodyFence (m.issuing c) c = .stay ((m.issuing c).drain c) := by
  rw [bodyFence]
  refine if_neg ?_
  simp only [Core.quiet, Bool.and_eq_true, List.isEmpty_iff]
  tauto

/-! ### Levels -/

@[simp] theorem Core.word_makeResident (k : Core) (l : Nat) : (k.makeResident l).word = k.word := by
  unfold Core.makeResident
  split
  · rfl
  split
  · rfl
  split <;> rfl

@[simp] theorem Core.level_makeResident (k : Core) (l : Nat) : (k.makeResident l).level = k.level := by
  unfold Core.makeResident
  split
  · rfl
  split
  · rfl
  split <;> rfl

@[simp] theorem Core.word_enter (k : Core) (l cause fip faddr : Nat) : (k.enter l cause fip faddr).word = k.word :=
  (Core.word_makeResident _ l).trans rfl

@[simp] theorem Core.word_untagIp (k : Core) (l : Nat) : (k.untagIp l).word = k.word := by
  unfold Core.untagIp
  dsimp only
  split <;> rfl

@[simp] theorem Core.word_quit (k : Core) : k.quit.word = k.word := rfl

theorem Mod.mono_spilled (m : Mod) (c l : Nat) : (m.spilled c l).mono = m.mono := by
  simp only [Mod.spilled]
  split
  · rfl
  · split <;> rfl

/-- A level whose bank is there or can be brought is entered and the entry noted. -/
theorem Mod.noteEntry_enter (m : Mod) (c l cause fip faddr : Nat) (k : Core) (exc : Option PendExc) (src : Option (Nat × Nat × Bool)) :
    ((m.spilled c l).setCore c (k.enter l cause fip faddr)).noteEntry c k.level l (!k.resident.contains l) exc src =
      (m.spilled c l).setCore c (k.entering l cause fip faddr m.mono exc src) := by
  rw [Mod.noteEntry, Core.entering]
  split
  · rfl
  · rw [Mod.core_setCore_self, Mod.setCore_setCore]
    exact congrArg (fun x => (m.spilled c l).setCore c { k.enter l cause fip faddr with entry := some ⟨k.level, x, !k.resident.contains l, exc, src⟩ })
      (Mod.mono_spilled m c l)

/-- A level entered for an exception, its bank brought: the module it leaves. -/
theorem Mod.enterLevel_eq {m : Mod} {c l : Nat} (cause fip faddr : Nat) (h : m.spillFails c l = false) :
    m.enterLevel c l cause fip faddr = (m.spilled c l).setCore c ((m.core c).entering l cause fip faddr m.mono
      (some ⟨l, BitVec.ofNat 64 cause, BitVec.ofNat 64 fip, BitVec.ofNat 64 faddr⟩) none) := by
  rw [Mod.enterLevel, if_neg (by simpa using h)]
  exact Mod.noteEntry_enter m c l cause fip faddr (m.core c) _ _

/-- The claim of a source keeps the word of each core. -/
theorem Mod.word_claim (m : Mod) (c n c' : Nat) : ((m.claim c n).core c').word = (m.core c').word := by
  have hun : ∀ (m : Mod) (x : Nat), ((m.evdUnpend x n).core c').word = (m.core c').word := by
    intro m x
    by_cases hx : c' = x
    · rw [hx, Mod.evdUnpend, Mod.core_setCore_self]
    · rw [Mod.evdUnpend, Mod.core_setCore_ne _ _ hx]
  rw [Mod.claim]
  split
  · exact Mod.each_keeps (P := fun t => (t.core c').word = (m.core c').word) (fun t x ht => (hun t x).trans ht) _ rfl
  · rfl

theorem Mod.word_noteEntry (m : Mod) (c left l : Nat) (sp : Bool) (exc : Option PendExc) (src : Option (Nat × Nat × Bool)) :
    ((m.noteEntry c left l sp exc src).core c).word = (m.core c).word := by
  rw [Mod.noteEntry]
  split
  · rfl
  · rw [Mod.core_setCore_self]

/-- A request taken lets the word of the core go on to its end. -/
theorem Mod.word_takeLevel (m : Mod) (c l : Nat) (err : Bool) : ((m.takeLevel c l err).core c).word = (m.core c).word := by
  rw [Mod.takeLevel]
  split
  · rw [Mod.spillFailure, Mod.core_setCore_self, Core.word_enter, Core.word_untagIp]
  · split
    · rw [Mod.word_noteEntry, Mod.core_setCore_self, Core.word_enter]
    · dsimp only
      split
      · rfl
      · rw [Mod.word_claim, Mod.word_noteEntry, Mod.core_setCore_self, Core.word_enter]

/-! ### ERET -/

/-- With nothing called for no claim is denied. -/
theorem Mod.denyClaims_idle {m : Mod} {c : Nat} (fuel : Nat) (h : (m.core c).calls = false) : m.denyClaims c (fuel + 1) = m := by
  rw [Mod.denyClaims, h]
  rfl

/-- Where no core of a lower number claims the source that would be taken none is denied. -/
theorem Mod.denyClaims_free {m : Mod} {c : Nat} (fuel : Nat)
    (h : ∀ n, (m.core c).nextSource (maxLevel (m.core c).pendingLevels) = some n → m.flag F.EVR_ROUTE_HI_FIRST n = true →
      ∀ c0 < c, m.claims c0 n = false) : m.denyClaims c (fuel + 1) = m := by
  rw [Mod.denyClaims]
  split
  · next n hn =>
    refine if_neg ?_
    have hn' : (m.core c).nextSource (maxLevel (m.core c).pendingLevels) = some n := by
      split at hn
      · exact hn
      · cases hn
    simp only [Bool.and_eq_true, List.any_eq_true, not_and, not_exists, Bool.not_eq_true]
    intro hf c0 hc0
    exact h n hn' hf c0 (by simpa [upTo] using hc0)
  · rfl

section
variable {m : Mod} {c : Nat} (hs : (m.core c).atIssue.sys = true)
include hs

theorem bodyEret_level_zero (h0 : (m.core c).atIssue.level = 0) :
    bodyEret (m.issuing c) c = .jump (m.setCore c (m.core c).atIssue) ((m.core c).atIssue.ip.advance 4) := by
  rw [bodyEret, Mod.core_issuing]
  dsimp only
  rw [if_neg (by simpa using hs), if_pos h0]
  rfl

theorem bodyEret_quiet (h0 : (m.core c).atIssue.level ≠ 0) (hq : (m.core c).atIssue.quit.calls = false)
    (hsp : (m.setCore c (m.core c).atIssue.quit).spillFails c (m.core c).atIssue.quit.level = false) :
    bodyEret (m.issuing c) c = .jump (((m.setCore c (m.core c).atIssue.quit).spilled c (m.core c).atIssue.quit.level).setCore c (m.core c).atIssue.leave)
      (m.core c).atIssue.leave.ip := by
  rw [bodyEret, Mod.core_issuing]
  dsimp only
  rw [if_neg (by simpa using hs), if_neg h0, Mod.setCore_issuing,
    Mod.denyClaims_idle 255 (by rw [Mod.core_setCore_self]; exact hq), Mod.core_setCore_self, if_neg (by simpa using hq), if_neg (by simpa using hsp),
    Mod.core_setCore_self]
  rfl

theorem bodyEret_taken (h0 : (m.core c).atIssue.level ≠ 0) (hq : (m.core c).atIssue.quit.calls = true)
    (hfree : ∀ n, (m.core c).atIssue.quit.nextSource (maxLevel (m.core c).atIssue.quit.pendingLevels) = some n → m.flag F.EVR_ROUTE_HI_FIRST n = true →
      ∀ c0 < c, (m.setCore c (m.core c).atIssue.quit).claims c0 n = false) :
    let t := (m.setCore c (m.core c).atIssue.quit).takeLevel c (maxLevel (m.core c).atIssue.quit.pendingLevels)
    bodyEret (m.issuing c) c = .jump t (t.core c).ip := by
  rw [bodyEret, Mod.core_issuing]
  dsimp only
  rw [if_neg (by simpa using hs), if_neg h0, Mod.setCore_issuing,
    Mod.denyClaims_free 255 (by rw [Mod.core_setCore_self]; exact hfree), Mod.core_setCore_self, if_pos hq]

end

/-! ### TRAP -/

/-- The core with another ip. -/
def Core.atIp (k : Core) (ip : Key) : Core := { k with ip := ip }

theorem Core.handler_atIp (k : Core) (ip : Key) (code : Nat) : (k.atIp ip).handler code = k.handler code := rfl
theorem Core.level_atIp (k : Core) (ip : Key) : (k.atIp ip).level = k.level := rfl
theorem Core.takes_atIp (k : Core) (ip : Key) (h l : Nat) : (k.atIp ip).takes h l = k.takes h l := rfl
theorem Core.word_atIp (k : Core) (ip : Key) : (k.atIp ip).word = k.word := rfl
theorem Core.wordOver_atIp (k : Core) (ip : Key) : (k.atIp ip).wordOver = { k with ip := ip, word := false } := rfl
theorem Core.ip_wordOver (k : Core) : k.wordOver.ip = k.ip := rfl
theorem Core.retired_wordOver (k : Core) : k.wordOver.retired = k.retired := rfl
theorem Core.level_retire (k : Core) : k.retire.level = k.level := rfl
theorem Core.active_retire (k : Core) : k.retire.active = k.active := rfl

/-- The return leaves the highest of the levels still active. -/
theorem Core.level_leave (k : Core) : k.leave.level = maxLevel (k.active.filter (· != k.level)) := (Core.level_makeResident _ _).trans rfl
theorem Core.active_leave (k : Core) : k.leave.active = k.active.filter (· != k.level) := (Core.active_makeResident _ _).trans rfl
theorem Mod.mono_setCore (m : Mod) (c : Nat) (k : Core) : (m.setCore c k).mono = m.mono := rfl

theorem bodyTrap_eq (m : Mod) (c : Nat) : bodyTrap (m.issuing c) c =
    .excAt (m.setCore c ((m.core c).atIssue.atIp ((m.core c).atIssue.ip.advance 4))) ⟨0x08, 0, 0⟩ (m.core c).atIssue.ip.cursor false false := by
  rw [bodyTrap, Mod.core_issuing, Mod.setCore_issuing]
  rfl

/-- An exception of a word past which ip stands, taken at its handler level. -/
theorem Mod.coreExc_atIp {m : Mod} {c code fip : Nat} {k : Core} (ip : Key) (hM : k.level ≠ levelM)
    (htakes : k.takes (k.handler code) k.level = true)
    (hr : k.resident = (m.core c).resident) (hv : k.victim (k.handler code) = (m.core c).victim (k.handler code))
    (hspill : m.spillFails c (k.handler code) = false) :
    (m.setCore c (k.atIp ip)).coreExc c code 0 0 fip = (m.spilled c (k.handler code)).setCore c
      ((k.atIp ip).wordOver.entering (k.handler code) (causeOf code 0 false false k.level 0 0 false) fip 0 m.mono
        (some ⟨k.handler code, BitVec.ofNat 64 (causeOf code 0 false false k.level 0 0 false), BitVec.ofNat 64 fip, 0⟩) none) := by
  rw [Mod.coreExc_eq, Mod.core_setCore_self, Core.level_atIp, Core.handler_atIp, Core.takes_atIp, if_neg hM, if_pos htakes, Mod.setCore_setCore,
    Mod.enterLevel_eq _ _ _ ((Mod.spillFails_setCore m c _ (k := (k.atIp ip).wordOver) false hr).trans hspill),
    Mod.spilled_setCore m c _ (k := (k.atIp ip).wordOver) hr hv, Mod.setCore_setCore, Mod.core_setCore_self, Mod.mono_setCore]
  rfl

/-- The trap exception taken at its handler level (R205, R221). -/
theorem trap_becomes {s : State} {c : CoreId} (h : Ready s.mod c) (uses : List RegName) :
    let m := s.mod.fetched c
    let k := (m.core c).atIssue
    k.level ≠ levelM → k.takes (k.handler 0x08) k.level = true → m.spillFails c (k.handler 0x08) = false →
    CoreBecomes (s.fetched c).pending (m.spilled c (k.handler 0x08)) c
      (let cause := causeOf 0x08 0 false false k.level 0 0 false
       Core.entering { k with ip := k.ip.advance 4, word := false } (k.handler 0x08) cause k.ip.cursor 0 m.mono
         (some ⟨k.handler 0x08, BitVec.ofNat 64 cause, BitVec.ofNat 64 k.ip.cursor, 0⟩) none)
      { s with mod := s.mod.issue c uses bodyTrap } := by
  intro m k hM htakes hspill
  have hw : (k.atIp (k.ip.advance 4)).word = true := by
    rw [Core.word_atIp, Core.word_atIssue]
    exact h.word
  rw [Mod.issue_ready h, bodyTrap_eq, settle_excAt _ _ _ _ _ (by rw [Mod.core_setCore_self]; exact hw), Mod.coreExc_atIp _ hM htakes rfl rfl hspill,
    Core.wordOver_atIp]
  exact coreBecomes_setCore _ _ _ _

/-- Settles O22. -/
theorem orderingAndWaitingInstructions : Obligations.OrderingAndWaitingInstructions := by
  intro s0 c code h s k
  have hk : k.word = true := by simpa [k, s] using h.word
  refine ⟨fun hsb hw => ?_, fun hword hmore => ?_, ⟨_, rfl, coreBecomes_of_setCore h _ ?_ hk⟩, fun hs h0 => ⟨fun hq hsp => ?_, fun hq hfree => ?_⟩,
    fun hs h0 => ⟨_, rfl, coreBecomes_of_jump h _ (bodyEret_level_zero hs h0) hk⟩,
    fun hM htakes hspill => ⟨_, rfl, trap_becomes h _ hM htakes hspill⟩⟩
  · simp only [List.forall_mem_cons, List.not_mem_nil, false_imp_iff, implies_true, and_true]
    have hb := bodyFence_quiet (m := s0.mod.fetched c) (c := c) hsb hw
    exact ⟨⟨_, rfl, coreBecomes_of_setCore h _ hb hk⟩, ⟨_, rfl, coreBecomes_of_setCore h _ hb hk⟩⟩
  · simp only [List.forall_mem_cons, List.not_mem_nil, false_imp_iff, implies_true, and_true]
    have hb := bodyFence_waits (m := s0.mod.fetched c) (c := c) hmore
    have hfence := coreBecomes_of_stay h (Instr.uses (.fence c)) hb hword
    have hsync := coreBecomes_of_stay h (Instr.uses (.gateSync c)) hb hword
    exact ⟨⟨_, rfl, hfence, (congrArg Core.ip hfence.2.1).trans (Core.ip_wordOver _), (congrArg Core.retired hfence.2.1).trans (Core.retired_wordOver _)⟩,
      ⟨_, rfl, hsync, (congrArg Core.ip hsync.2.1).trans (Core.ip_wordOver _), (congrArg Core.retired hsync.2.1).trans (Core.retired_wordOver _)⟩⟩
  · rw [bodyEwait, Mod.core_issuing]
    rfl
  · have hb := bodyEret_quiet (m := s0.mod.fetched c) (c := c) hs h0 hq hsp
    have hw : k.leave.word = true := by rw [Core.leave, Core.word_makeResident, Core.word_quit, hk]
    have hbecomes := coreBecomes_of_resume_mod h (Instr.uses (.eret c)) hb hw
    have hcore := hbecomes.2.1
    exact ⟨_, rfl, hbecomes, (congrArg Core.level hcore).trans ((Core.level_retire _).trans (Core.level_leave _)),
      (congrArg Core.active hcore).trans ((Core.active_retire _).trans (Core.active_leave _))⟩
  · have hb := bodyEret_taken (m := s0.mod.fetched c) (c := c) hs h0 hq hfree
    refine ⟨_, rfl, coreBecomes_of_resume h _ hb ?_⟩
    rw [Mod.word_takeLevel, Mod.core_setCore_self, Core.word_quit]
    exact hk

end Sys2Proof.Machine

/-!
Bank access and the context instructions (R197 to R202).
-/
namespace Sys2Proof.Machine

/-! ### BANKRD and BANKWR -/

/-- The core once BANKRD has copied what a selector names (R202). -/
def Core.bankRead (k : Core) (m : Mod) (r n sel : Nat) : Core :=
  if sel < 0x20 then k.setD k.level r (k.d n sel)
  else if sel < 0x2C then k.setD k.level r (k.loopReg n ((sel - 0x20) / 4) (sel % 4))
  else if sel = 0x2C then k.setD k.level r (k.status n)
  else if sel < 0x50 then k.setK k.level r (m.filterKey (k.k n (sel - 0x40)))
  else k.setK k.level r (m.filterKey (k.bank n).ip)

/-- The core once BANKWR has copied a register to what a selector names (R202). -/
def Core.bankWrite (k : Core) (m : Mod) (r n sel : Nat) : Core :=
  if sel < 0x20 then k.setD n sel (k.d k.level r)
  else if sel < 0x2C then k.setLoopReg n ((sel - 0x20) / 4) (sel % 4) (k.d k.level r)
  else if sel = 0x2C then k.writeStatus n (k.d k.level r)
  else if sel < 0x50 then k.setK n (sel - 0x40) (m.filterKey (k.k k.level r))
  else k.setBank n { k.bank n with ip := m.filterKey (k.k k.level r) }

section
variable {m : Mod} {c n sel : Nat}

/-- No check bars the access of a level from 0 to 8. -/
theorem Core.bankFault_none {k : Core} {r : Nat} (hs : k.sys = true) (hn : n ≤ 8) (hsel : selOk sel = true) (hr : sel < 0x40 ∨ r < 16)
    (hself : sel ≠ 0x50 ∨ n ≠ k.level) : k.bankFault r n sel = none := by
  have h1 : (!selOk sel || (decide (sel ≥ 0x40) && decide (r ≥ 16))) = false := by
    rw [hsel]
    simp
    omega
  have h2 : (decide (n > 8) || (sel == 0x50 && n == k.level)) = false := by
    simp
    exact ⟨hn, fun h => hself.resolve_left (not_not.mpr h)⟩
  simp [Core.bankFault, h1, h2, hs]

/-- No register of a level is awaited where no access of it is. -/
theorem Core.selAwaited_of_none {k : Core} (h : ∀ w ∈ k.waits, w.level ≠ n) : k.selAwaited n sel = false := by
  have ha : k.awaits n = false := by
    simp only [Core.awaits, List.any_eq_false]
    intro w hw
    simp [h w hw]
  rw [Core.selAwaited, ha, Bool.false_or]
  by_cases hn : n = k.level
  · rw [Core.barred_of_none (fun w hw => hn ▸ h w hw), Bool.and_false]
  · simp [hn]

variable (r : Nat) (hf : (m.core c).atIssue.bankFault r n sel = none) (ha : (m.core c).atIssue.selAwaited n sel = false)
include hf ha

theorem bodyBankrd_eq : bodyBankrd r n sel (m.issuing c) c = .seq (m.setCore c ((m.core c).atIssue.bankRead m r n sel)) := by
  rw [bodyBankrd, Mod.core_issuing, hf]
  dsimp only
  rw [if_neg (by simp [ha]), Core.bankRead]
  simp only [Mod.setCd_issuing, Mod.setCk_issuing, Core.level_atIssue]
  split_ifs <;> rfl

theorem bodyBankwr_eq : bodyBankwr r n sel (m.issuing c) c =
    .seq ((m.issuing c).setCore c ((m.core c).atIssue.bankWrite m r n sel)) := by
  rw [bodyBankwr, Mod.core_issuing, Mod.cd_issuing, Mod.ck_issuing, hf]
  dsimp only
  rw [if_neg (by simp [ha]), Mod.setResume, Mod.core_issuing, Mod.filterKey_issuing, Core.bankWrite, Core.d_atIssue, Core.k_atIssue,
    Core.level_atIssue]
  split_ifs <;> rfl

end

theorem Core.word_bankRead (k : Core) (m : Mod) (r n sel : Nat) : (k.bankRead m r n sel).word = k.word := by
  rw [Core.bankRead]
  split_ifs <;> simp

theorem Core.word_bankWrite (k : Core) (m : Mod) (r n sel : Nat) : (k.bankWrite m r n sel).word = k.word := by
  rw [Core.bankWrite]
  split_ifs <;> simp [Core.word_writeStatus]

section
variable {s0 : State} {c : CoreId} (r n : BitVec 5) (h : Ready s0.mod c) (hs : ((s0.mod.fetched c).core c).sys = true) (hn : n.toNat ≤ 8)
  (hw : ∀ w ∈ ((s0.mod.fetched c).core c).waits, w.level ≠ n.toNat) {sel : Nat} (hsel : selOk sel = true)
  (hself : sel ≠ 0x50 ∨ n.toNat ≠ ((s0.mod.fetched c).core c).level) (hr : sel < 0x40 ∨ r.toNat < 16)
include h hs hn hw hsel hself hr

/-- BANKRD and BANKWR of an assigned selector (R202). -/
theorem bank_becomes {k1 k2 : Core}
    (h1 : ((s0.mod.fetched c).core c).atIssue.bankRead (s0.mod.fetched c) r.toNat n.toNat sel = k1)
    (h2 : ((s0.mod.fetched c).core c).atIssue.bankWrite (s0.mod.fetched c) r.toNat n.toNat sel = k2) :
    (∃ t, exec (.bankrd c r n (BitVec.ofNat 9 sel)) s0 = .next t ∧ CoreBecomes (s0.fetched c).pending (s0.fetched c).mod c k1.next.retire t) ∧
    ∃ t, exec (.bankwr c r n (BitVec.ofNat 9 sel)) s0 = .next t ∧ CoreBecomes (s0.fetched c).pending (s0.fetched c).mod c k2.next.retire t := by
  have hlt : sel < 512 := by
    simp only [selOk, Bool.or_eq_true, Bool.and_eq_true, decide_eq_true_eq] at hsel
    omega
  have hnum : (BitVec.ofNat 9 sel).toNat = sel := by rw [BitVec.toNat_ofNat]; omega
  have hf : ((s0.mod.fetched c).core c).atIssue.bankFault r.toNat n.toNat sel = none :=
    Core.bankFault_none (by rw [Core.sys_atIssue]; exact hs) hn hsel hr hself
  have ha : ((s0.mod.fetched c).core c).atIssue.selAwaited n.toNat sel = false := Core.selAwaited_of_none hw
  have hword := h.word
  subst h1 h2
  refine ⟨⟨_, rfl, coreBecomes_of_seq h _ (by rw [hnum]; exact bodyBankrd_eq _ hf ha) ?_⟩, ⟨_, rfl, coreBecomes_of_setCore h _ (by rw [hnum]; exact bodyBankwr_eq _ hf ha) ?_⟩⟩
  · rw [Core.word_bankRead]; exact hword
  · rw [Core.word_bankWrite]; exact hword

end

theorem selOk_d {i : Nat} (hi : i < 32) : selOk i = true := by
  simp [selOk]
  omega

theorem selOk_loopReg {i : Nat} (hi : i < 12) : selOk (0x20 + i) = true := by
  simp [selOk]
  omega

theorem selOk_k {i : Nat} (hi : i < 16) : selOk (0x40 + i) = true := by
  simp [selOk]
  omega

section
variable (k : Core) (m : Mod) (r n : Nat)

theorem Core.bankRead_d {i : Nat} (hi : i < 32) : k.bankRead m r n i = k.setD k.level r (k.d n i) := if_pos hi
theorem Core.bankWrite_d {i : Nat} (hi : i < 32) : k.bankWrite m r n i = k.setD n i (k.d k.level r) := if_pos hi

theorem Core.bankRead_loopReg {i : Nat} (hi : i < 12) : k.bankRead m r n (0x20 + i) = k.setD k.level r (k.loopReg n (i / 4) (i % 4)) := by
  have hdiv : (0x20 + i - 0x20) / 4 = i / 4 := by omega
  have hmod : (0x20 + i) % 4 = i % 4 := by omega
  rw [Core.bankRead, if_neg (by omega), if_pos (by omega), hdiv, hmod]

theorem Core.bankWrite_loopReg {i : Nat} (hi : i < 12) : k.bankWrite m r n (0x20 + i) = k.setLoopReg n (i / 4) (i % 4) (k.d k.level r) := by
  have hdiv : (0x20 + i - 0x20) / 4 = i / 4 := by omega
  have hmod : (0x20 + i) % 4 = i % 4 := by omega
  rw [Core.bankWrite, if_neg (by omega), if_pos (by omega), hdiv, hmod]

theorem Core.bankRead_k {i : Nat} (hi : i < 16) : k.bankRead m r n (0x40 + i) = k.setK k.level r (m.filterKey (k.k n i)) := by
  rw [Core.bankRead, if_neg (by omega), if_neg (by omega), if_neg (by omega), if_pos (by omega), Nat.add_sub_cancel_left]

theorem Core.bankWrite_k {i : Nat} (hi : i < 16) : k.bankWrite m r n (0x40 + i) = k.setK n i (m.filterKey (k.k k.level r)) := by
  rw [Core.bankWrite, if_neg (by omega), if_neg (by omega), if_neg (by omega), if_pos (by omega), Nat.add_sub_cancel_left]

theorem Core.bankRead_status : k.bankRead m r n 0x2C = k.setD k.level r (k.status n) := rfl
theorem Core.bankWrite_status : k.bankWrite m r n 0x2C = k.writeStatus n (k.d k.level r) := rfl
theorem Core.bankRead_ip : k.bankRead m r n 0x50 = k.setK k.level r (m.filterKey (k.bank n).ip) := rfl
theorem Core.bankWrite_ip : k.bankWrite m r n 0x50 = k.setBank n { k.bank n with ip := m.filterKey (k.k k.level r) } := rfl

end

/-- The resume ip of the current level has no selector (R202). -/
theorem Core.bankFault_self {k : Core} (r : Nat) {n : Nat} (hs : k.sys = true) (hn : n = k.level) (hr : r < 16) : k.bankFault r n 0x50 = some 8 := by
  simp [Core.bankFault, selOk, hs, hn, hr]

theorem bodyBankrd_self {m : Mod} {c n : Nat} (r : Nat) (hs : (m.core c).sys = true) (hn : n = (m.core c).level) (hr : r < 16) :
    bodyBankrd r n 0x50 (m.issuing c) c = illegal (m.issuing c) 8 := by
  rw [bodyBankrd, Mod.core_issuing, Core.bankFault_self (k := (m.core c).atIssue) _ hs hn hr]

/-! ### The context instructions -/

section
variable {m : Mod} {c n kb rights area : Nat}

/-- The checks of a context instruction pass only for another level (R199). -/
theorem Mod.ne_level_of_ctxCheck (h : m.ctxCheck c kb n rights = .ok area) : n ≠ (m.core c).level := by
  intro hn
  simp only [Mod.ctxCheck, hn, beq_self_eq_true, Bool.or_true, if_true] at h
  split at h <;> cases h

theorem Mod.ctxCheck_self (hs : (m.core c).sys = true) (hn : n = (m.core c).level) : m.ctxCheck c kb n rights = .error ⟨0x01, 8, 0⟩ := by
  simp [Mod.ctxCheck, hs, hn]

/-- A core whose store buffer is empty, and which awaits nothing of a level, holds no word for it. -/
theorem Mod.free_issuing (hsb : (m.core c).sb = []) (hword : (m.core c).word = true) (hw : ∀ w ∈ (m.core c).waits, w.level ≠ n) :
    ((m.issuing c).holdsWord c || ((m.issuing c).core c).awaits n) = false := by
  have ha : (m.core c).atIssue.awaits n = false := by
    simp only [Core.awaits, List.any_eq_false, Core.waits_atIssue]
    intro w hmem
    simp [hw w hmem]
  rw [Mod.holdsWord, Mod.core_issuing, Core.sb_atIssue, Core.word_atIssue, hsb, hword, ha]
  rfl

theorem bodyCtxsave_self (fn other : Nat) {e : Exc} (h : m.ctxCheck c kb n (rST ||| rSK ||| rSKL) = .error e) :
    bodyCtxsave fn other kb n m c = .exc m e false false := by
  rw [bodyCtxsave, h]

theorem bodyCtxload_self (fn kd : Nat) {e : Exc} (h : m.ctxCheck c kb n (rLD ||| rLK) = .error e) :
    bodyCtxload fn kd kb n m c = .exc m e false false := by
  rw [bodyCtxload, h]

variable (hsb : (m.core c).sb = []) (hword : (m.core c).word = true) (hw : ∀ w ∈ (m.core c).waits, w.level ≠ n)
include hsb hword hw

theorem bodyCtxsave_eq (fn other : Nat) (h : (m.issuing c).ctxCheck c kb n (rST ||| rSK ||| rSKL) = .ok area) :
    bodyCtxsave fn other kb n (m.issuing c) c =
      ctxSaveFrom c fn n kb other area [] (ctxOffsets (fn == 1) ((m.core c).atIssue.stField n 22 1 == 1)) (m.issuing c) := by
  rw [bodyCtxsave, h]
  dsimp only
  rw [Mod.drain_issuing hsb, if_neg (by rw [Mod.free_issuing hsb hword hw]; decide), Mod.core_issuing]

theorem bodyCtxload_eq (fn kd : Nat) (h : (m.issuing c).ctxCheck c kb n (rLD ||| rLK) = .ok area) :
    bodyCtxload fn kd kb n (m.issuing c) c = ctxLoadFrom c fn n kb kd area 40 [] (m.issuing c) := by
  rw [bodyCtxload, h]
  dsimp only
  rw [Mod.drain_issuing hsb, if_neg (by rw [Mod.free_issuing hsb hword hw]; decide)]

end

/-- Settles O24. -/
theorem bankInstructionsReachOtherLevels : Obligations.BankInstructionsReachOtherLevels := by
  refine ⟨fun s0 c r n i h => ?_, fun s0 c kx kb n area m h => ?_⟩
  · intro s hs hn hw k l lv sel ends
    have hbank := fun {x : Nat} (hx : selOk x = true) => bank_becomes r n h hs hn hw (sel := x) hx
    refine ⟨fun hi => ?_, fun hi => ?_, ?_, ?_, fun hi hr => ?_, fun hl hr => ?_, fun hl hr =>
      ⟨_, rfl, rfl, issue_of_exc h _ (bodyBankrd_self _ hs hl hr)⟩⟩
    · exact hbank (selOk_d hi) (.inl (by omega)) (.inl (by omega)) (Core.bankRead_d _ _ _ _ hi) (Core.bankWrite_d _ _ _ _ hi)
    · exact hbank (selOk_loopReg hi) (.inl (by omega)) (.inl (by omega)) (Core.bankRead_loopReg _ _ _ _ hi) (Core.bankWrite_loopReg _ _ _ _ hi)
    · exact (hbank (x := 0x2C) rfl (.inl (by decide)) (.inl (by decide)) (Core.bankRead_status _ _ _ _) rfl).1
    · exact (hbank (x := 0x2C) rfl (.inl (by decide)) (.inl (by decide)) rfl (Core.bankWrite_status _ _ _ _)).2
    · exact hbank (selOk_k hi) (.inl (by omega)) (.inr hr) (Core.bankRead_k _ _ _ _ hi) (Core.bankWrite_k _ _ _ _ hi)
    · exact hbank (x := 0x50) rfl (.inr hl) (.inr hr) (Core.bankRead_ip _ _ _ _) (Core.bankWrite_ip _ _ _ _)
  · intro s hsb hw m0 k ends save load fp
    have hword := h.word
    refine ⟨fun hc hrun hm => ⟨_, rfl, coreBecomes_of_seq_mod h _ ((bodyCtxsave_eq hsb hword hw 0 kx hc).trans hrun) hm⟩,
      fun hc hrun hm => ⟨_, rfl, coreBecomes_of_seq_mod h _ ((bodyCtxsave_eq hsb hword hw 1 0 hc).trans hrun) hm⟩,
      fun hc hrun hm => ⟨_, rfl, coreBecomes_of_seq_mod h _ ((bodyCtxload_eq hsb hword hw 2 kx hc).trans hrun) hm⟩,
      fun hc hrun hm => ⟨_, rfl, coreBecomes_of_seq_mod h _ ((bodyCtxload_eq hsb hword hw 3 0 hc).trans hrun) hm⟩, fun hs hn => ?_, rfl, rfl, rfl⟩
    have hself : ∀ rights, ((s0.mod.fetched c).issuing c).ctxCheck c kb n.toNat rights = .error ⟨0x01, 8, 0⟩ := fun rights =>
      Mod.ctxCheck_self (by rw [Mod.core_issuing]; exact hs) (by rw [Mod.core_issuing]; exact hn)
    simp only [List.forall_mem_cons, List.not_mem_nil, false_imp_iff, implies_true, and_true]
    have hlo := issue_of_exc h (Instr.uses (.ctxsaveLo c kx kb n)) (bodyCtxsave_self 0 kx (hself _))
    have hhi := issue_of_exc h (Instr.uses (.ctxsaveHi c kb n)) (bodyCtxsave_self 1 0 (hself _))
    have hloadLo := issue_of_exc h (Instr.uses (.ctxloadLo c kx kb n)) (bodyCtxload_self 2 kx (hself _))
    have hloadHi := issue_of_exc h (Instr.uses (.ctxloadHi c kb n)) (bodyCtxload_self 3 0 (hself _))
    exact ⟨⟨_, rfl, rfl, hlo⟩, ⟨_, rfl, rfl, hhi⟩, ⟨_, rfl, rfl, hloadLo⟩, ⟨_, rfl, rfl, hloadHi⟩⟩

end Sys2Proof.Machine

/-!
Loads (R139, R140, R180 to R182, R210).
-/
namespace Sys2Proof.Machine

/-! ### The check of a key -/

section
variable {k : Key} {node : Nat} {off : Int} {n need : Nat}

theorem Key.check_untagged (h : k.live = false) : k.check node off n need = .error 1 := by
  rw [Key.check, h]
  rfl

theorem Key.check_sealed (h : k.live = true) (ho : k.otype ≠ 0) : k.check node off n need = .error 2 := by
  simp [Key.check, h, ho, kfSEALED]

variable (h : k.live = true) (ho : k.otype = 0)
include h ho

theorem Key.check_rights (hr : k.has need = false) : k.check node off n need = .error 3 := by
  simp [Key.check, h, ho, hr, kfRIGHTS]

/-- Whether a key that has its tag, its seal and its rights right reaches an address (R139). -/
theorem Key.check_of_rights (hr : k.has need = true) : let a := wrapTo 64 ((k.cursor : Int) + off)
    let here := k.loc = 0 ∨ eaNode a = 0xFFF ∨ eaNode a = node
    let inside := n = 0 ∨ ((k.lo : Int) ≤ k.cursor + off ∧ (k.cursor : Int) + off + n ≤ k.hi)
    (¬ here → k.check node off n need = .error 7) ∧ (here → ¬ inside → k.check node off n need = .error 4) ∧
      (here → inside → k.check node off n need = .ok a) := by
  intro a here inside
  have hloc : (decide (k.loc ≠ 0) && decide (eaNode a ≠ 0xFFF) && decide (eaNode a ≠ node)) = !decide here := by
    simp only [here, Bool.decide_or, decide_not, Bool.not_or]
    exact Bool.and_assoc _ _ _
  have hin : (decide (n ≠ 0) && !(decide ((k.lo : Int) ≤ k.cursor + off) && decide ((k.cursor : Int) + off + n ≤ k.hi))) = !decide inside := by
    simp only [inside, Bool.decide_or, Bool.decide_and, decide_not, Bool.not_or]
  have hcheck : k.check node off n need = if (!decide here) = true then .error 7 else if (!decide inside) = true then .error 4 else .ok a := by
    rw [← hloc, ← hin, Key.check, h, hr, if_neg (by simp), if_neg (by simpa using ho), if_neg (by simp)]
    rfl
  refine ⟨fun hh => ?_, fun hh hi => ?_, fun hh hi => ?_⟩ <;> rw [hcheck]
  · rw [if_pos (by simpa using hh)]
  · rw [if_neg (by simpa using hh), if_pos (by simpa using hi)]
  · rw [if_neg (by simpa using hh), if_neg (by simpa using hi)]

end

/-! ### Values -/

theorem offM_toNat (off : BitVec 15) (s : Nat) : offM off.toNat s = off.toInt * s := by rw [offM, signedOf_toNat]

/-- Bytes read as a signed number of their size. -/
theorem extended_signed {n : Nat} {d : List Byte} (hd : d.length = n) :
    extended d true = ((BitVec.ofNat (8 * n) (ofLeBytes d)).signExtend 64).toNat := by
  subst hd
  rw [← sext_toNat, BitVec.toNat_ofNat, extended, sext, sext, signedOf, signedOf, Nat.mod_mod]
  rfl

theorem extended_unsigned (d : List Byte) : extended d false = ofLeBytes d := rfl

/-- A word whose body raises an exception once it has left another module. -/
theorem issue_of_exc_mod {m m' : Mod} {c : CoreId} (h : Ready m c) (uses : List RegName) {body : Body} {e : Exc} {pair slotB : Bool}
    (hb : body ((m.fetched c).issuing c) c = .exc m' e pair slotB) (hw : (m'.core c).word = true) :
    m.issue c uses body = m'.coreExc c e.code e.sub e.ea ((m.fetched c).core c).ip.cursor pair slotB := by
  rw [Mod.issue_ready h, hb, settle_exc _ _ _ _ hw]

/-- A word whose body makes core `c` of the module `m` the core `k` and goes on in sequence. -/
theorem coreBecomes_of_seq_setCore {s : State} {c : CoreId} (h : Ready s.mod c) (uses : List RegName) {body : Body} {m : Mod} {k : Core}
    (hb : body ((s.mod.fetched c).issuing c) c = .seq (m.setCore c k)) (hk : k.word = true) :
    CoreBecomes (s.fetched c).pending m c k.next.retire { s with mod := s.mod.issue c uses body } := by
  rw [Mod.issue_ready h, hb, settle_seq _ (by rw [Mod.core_setCore_self]; exact hk), Mod.core_setCore_self, Mod.setCore_setCore]
  exact coreBecomes_setCore _ _ _ _

theorem Core.k_setBank_k (k : Core) {l : Nat} {b : Bank} (hb : b.k = (k.bank l).k) (l' r : Nat) : (k.setBank l b).k l' r = k.k l' r := by
  by_cases hl : l' = l
  · rw [hl, Core.k, Core.k, Core.bank_setBank_self, hb]
  · rw [Core.k, Core.k, Core.bank_setBank_ne _ _ hl]

theorem Core.k_fpOwn (k : Core) (l l' r : Nat) : (k.fpOwn l).k l' r = k.k l' r := by
  rw [Core.fpOwn]
  split
  · rw [Core.k_setSt]
  · dsimp only
    rw [Core.k_setSt]
    split <;> rfl

theorem Core.word_fpOwn (k : Core) (l : Nat) : (k.fpOwn l).word = k.word := by
  rw [Core.fpOwn]
  split
  · rfl
  · dsimp only
    rw [Core.word_setSt]
    split <;> rfl

theorem Core.ip_fpOwn (k : Core) (l : Nat) : (k.fpOwn l).ip = k.ip := by
  rw [Core.fpOwn]
  split
  · rfl
  · dsimp only [Core.setSt, Core.setBank]
    split <;> rfl

theorem Core.level_fpOwn (k : Core) (l : Nat) : (k.fpOwn l).level = k.level := by
  rw [Core.fpOwn]
  split
  · rfl
  · rw [Core.level_setSt]
    dsimp only
    split <;> rfl

@[simp] theorem Mod.core_fpOwn (m : Mod) (c : Nat) : (m.fpOwn c).core c = (m.core c).fpOwn (m.core c).level := Mod.core_setCore_self _ _ _

theorem Mod.ck_fpOwn (m : Mod) (c r : Nat) : (m.fpOwn c).ck c r = m.ck c r := by
  rw [Mod.ck, Mod.core_fpOwn, Core.k_fpOwn, Core.level_fpOwn, Mod.ck]

@[simp] theorem Mod.node_setCore (m : Mod) (c : Nat) (k : Core) : (m.setCore c k).node = m.node := rfl
theorem Mod.node_fpOwn (m : Mod) (c : Nat) : (m.fpOwn c).node = m.node := rfl

/-! ### What a load does -/

section
variable {m : Mod} {c : Nat} (r : Nat) {kb : Nat} (off : BitVec 15) {x ea : Nat}

theorem bodyLoad_error {s : Nat} (signed : Bool) (h : (m.ck c kb).check m.node (off.toInt * s) s rLD = .error x) :
    bodyLoad s signed r kb off.toNat m c = .exc m ⟨0x02, x, wrapTo 64 (((m.ck c kb).cursor : Int) + off.toInt * s)⟩ false false := by
  rw [bodyLoad, offM_toNat]
  rw [h]
  rfl

theorem bodyLoad_misaligned {s : Nat} (signed : Bool) (h : (m.ck c kb).check m.node (off.toInt * s) s rLD = .ok ea) (ha : ea % s ≠ 0) :
    bodyLoad s signed r kb off.toNat m c = .exc m ⟨0x03, 0, ea⟩ false false := by
  rw [bodyLoad, offM_toNat]
  rw [h]
  exact if_pos ha

theorem bodyLoad_aligned {s : Nat} (signed : Bool) (h : (m.ck c kb).check m.node (off.toInt * s) s rLD = .ok ea) (ha : ea % s = 0) :
    bodyLoad s signed r kb off.toNat m c = match m.coreRead c ea s (m.ck c kb).epoch (m.core c).sys with
      | .got m d _ => .seq (m.setCd c r (extended d signed))
      | .fault m e => .exc m e false false
      | .sent m tid => .sent (m.await c tid (.int r s signed) ea)
      | .hold m => .stay m := by
  rw [bodyLoad, offM_toNat]
  rw [h]
  exact if_neg (not_not.mpr ha)

theorem bodyLdk_error (h : (m.ck c kb).check m.node (off.toInt * (16 : Nat)) 16 rLD = .error x) :
    bodyLdk r kb off.toNat m c = .exc m ⟨0x02, x, wrapTo 64 (((m.ck c kb).cursor : Int) + off.toInt * (16 : Nat))⟩ false false := by
  rw [bodyLdk, offM_toNat]
  rw [h]
  rfl

theorem bodyLdk_misaligned (h : (m.ck c kb).check m.node (off.toInt * (16 : Nat)) 16 rLD = .ok ea) (ha : ea % 16 ≠ 0) :
    bodyLdk r kb off.toNat m c = .exc m ⟨0x02, 9, ea⟩ false false := by
  rw [bodyLdk, offM_toNat]
  rw [h]
  exact if_pos ha

theorem bodyLdk_aligned (h : (m.ck c kb).check m.node (off.toInt * (16 : Nat)) 16 rLD = .ok ea) (ha : ea % 16 = 0) :
    bodyLdk r kb off.toNat m c = match m.coreRead c ea 16 (m.ck c kb).epoch (m.core c).sys true with
      | .got m' d t => .seq (m'.setCk c r (m'.loadedKey c ea (m.ck c kb) d t))
      | .fault m e => .exc m e false false
      | .sent m' tid => .sent (m'.await c tid (.key r ((m.ck c kb).has rLK)) ea)
      | .hold m => .stay m := by
  rw [bodyLdk, offM_toNat]
  rw [h]
  exact if_neg (not_not.mpr ha)

theorem bodyLdf_error (h : (m.ck c kb).check m.node (off.toInt * (8 : Nat)) 8 rLD = .error x) :
    bodyLdf r kb off.toNat m c =
      .exc (m.fpOwn c) ⟨0x02, x, wrapTo 64 (((m.ck c kb).cursor : Int) + off.toInt * (8 : Nat))⟩ false false := by
  rw [bodyLdf, offM_toNat]
  rw [Mod.ck_fpOwn, Mod.node_fpOwn, h]
  rfl

theorem bodyLdf_misaligned (h : (m.ck c kb).check m.node (off.toInt * (8 : Nat)) 8 rLD = .ok ea) (ha : ea % 8 ≠ 0) :
    bodyLdf r kb off.toNat m c = .exc (m.fpOwn c) ⟨0x03, 0, ea⟩ false false := by
  rw [bodyLdf, offM_toNat]
  rw [Mod.ck_fpOwn, Mod.node_fpOwn, h]
  exact if_pos ha

theorem bodyLdf_got {m' : Mod} {d : List Byte} {tag : Bool} (h : (m.ck c kb).check m.node (off.toInt * (8 : Nat)) 8 rLD = .ok ea) (ha : ea % 8 = 0)
    (hr : (m.fpOwn c).coreRead c ea 8 (m.ck c kb).epoch (m.core c).sys = .got m' d tag) :
    bodyLdf r kb off.toNat m c = .seq (m'.setCf c r (ofLeBytes d)) := by
  have hsys : ((m.fpOwn c).core c).sys = (m.core c).sys := by rw [Mod.core_fpOwn, Core.sys, Core.ip_fpOwn, Core.sys]
  rw [bodyLdf, offM_toNat]
  rw [Mod.ck_fpOwn, Mod.node_fpOwn, h]
  dsimp only
  rw [if_neg (not_not.mpr ha), hsys, hr]

theorem bodyLdu_error {s : Nat} (h : (m.ck c kb).check m.node off.toInt s rLD = .error x) :
    bodyLdu s r kb off.toNat m c = .exc m ⟨0x02, x, wrapTo 64 (((m.ck c kb).cursor : Int) + off.toInt)⟩ false false := by
  rw [bodyLdu, signedOf_toNat]
  dsimp only
  rw [h]
  rfl

theorem bodyLdu_aligned {s : Nat} {m' : Mod} {d : List Byte} {tag : Bool} (h : (m.ck c kb).check m.node off.toInt s rLD = .ok ea) (ha : ea % s = 0)
    (hr : m.coreRead c ea s (m.ck c kb).epoch (m.core c).sys = .got m' d tag) :
    bodyLdu s r kb off.toNat m c = .seq (m'.setCd c r (extended d (s == 4))) := by
  have hp : unalignedParts ea s = ((ea, s), none) := if_pos ha
  rw [bodyLdu, signedOf_toNat, h]
  dsimp only
  rw [hp]
  dsimp only
  rw [hr]

theorem bodyLdu_parts {s : Nat} {m1 m2 : Mod} {d1 d2 : List Byte} {t1 t2 : Bool} (h : (m.ck c kb).check m.node off.toInt s rLD = .ok ea)
    (ha : ea % s ≠ 0) (h1 : m.coreRead c ea (s - ea % s) (m.ck c kb).epoch (m.core c).sys = .got m1 d1 t1)
    (h2 : m1.coreRead c (ea + s - ea % s) (ea % s) (m.ck c kb).epoch (m.core c).sys = .got m2 d2 t2) :
    bodyLdu s r kb off.toNat m c = .seq (m2.setCd c r (extended (d1 ++ d2) (s == 4))) := by
  have hp : unalignedParts ea s = ((ea, s - ea % s), some (ea + s - ea % s, ea % s)) := if_neg ha
  rw [bodyLdu, signedOf_toNat, h]
  dsimp only
  rw [hp]
  dsimp only
  rw [h1]
  dsimp only
  rw [h2]

end

/-- A read of a local target whose gate refuses it (R210, R288). -/
theorem Mod.coreRead_refused {m m1 : Mod} {c ea n epoch x : Nat} {sys keyLoad : Bool} (hl : m.isLocal ea = true)
    (hsb : m.sbCheck c ea n keyLoad = .miss) (hmiss : ((targetOf (ea % 2 ^ 52)).cached && l1Hit (m.core c).l1d (ea % 2 ^ 52 / 64) epoch) = false)
    (hg : m.passGate (coreAcc c sys epoch (ea % 2 ^ 52) n .load) = (m1, some x)) :
    m.coreRead c ea n epoch sys keyLoad = .fault m1 ⟨0x04, x, ea⟩ := by
  have hload : m.coreLoadAt c ea n epoch sys = (m1, .error ⟨0x04, x, ea⟩) := by
    rw [Mod.coreLoadAt]
    dsimp only
    rw [if_neg (by simpa using hmiss), hg]
  rw [Mod.coreRead, hsb]
  dsimp only
  rw [if_pos hl, hload]

/-! ### Loads on a core that issues -/

section
variable {s0 : State} {c : CoreId} (h : Ready s0.mod c) (r : Nat) {kb : KReg} (off : BitVec 15) {ea x : Nat} {uses : List RegName}
include h

/-- A load whose check fails, or whose address is misaligned. -/
theorem load_raises {n : Nat} (signed : Bool) :
    let m := s0.mod.fetched c
    let k := m.ck c kb
    let d := off.toInt * n
    (k.check m.node d n rLD = .error x → s0.mod.issue c uses (bodyLoad n signed r kb off.toNat) =
      (m.issuing c).coreExc c 0x02 x (wrapTo 64 ((k.cursor : Int) + d)) (m.core c).ip.cursor) ∧
    (k.check m.node d n rLD = .ok ea → ea % n ≠ 0 → s0.mod.issue c uses (bodyLoad n signed r kb off.toNat) =
      (m.issuing c).coreExc c 0x03 0 ea (m.core c).ip.cursor) := by
  refine ⟨fun hc => ?_, fun hc ha => ?_⟩
  · rw [issue_of_exc h uses (bodyLoad_error r off signed (by rw [Mod.ck_issuing, Mod.node_issuing]; exact hc)), Mod.ck_issuing]
  · exact issue_of_exc h uses (bodyLoad_misaligned r off signed (by rw [Mod.ck_issuing, Mod.node_issuing]; exact hc) ha)

/-- A load whose read a local target's gate refuses. -/
theorem load_refused {n : Nat} (signed : Bool) {m1 : Mod} :
    let m := s0.mod.fetched c
    let k := m.ck c kb
    let m0 := m.issuing c
    k.check m.node (off.toInt * n) n rLD = .ok ea → ea % n = 0 → m0.coreRead c ea n k.epoch (m.core c).sys = .fault m1 ⟨0x04, x, ea⟩ →
    (m1.core c).word = true →
    s0.mod.issue c uses (bodyLoad n signed r kb off.toNat) = m1.coreExc c 0x04 x ea (m.core c).ip.cursor := by
  intro m k m0 hc ha hr hw
  refine issue_of_exc_mod (e := ⟨0x04, x, ea⟩) (pair := false) (slotB := false) h uses ?_ hw
  rw [bodyLoad_aligned r off signed (by rw [Mod.ck_issuing, Mod.node_issuing]; exact hc) ha, Mod.ck_issuing, Mod.core_issuing, Core.sys_atIssue, hr]

/-- A load whose read is answered at once. -/
theorem load_got {n : Nat} (signed : Bool) {m1 : Mod} {data : List Byte} {tag : Bool} :
    let m := s0.mod.fetched c
    let k := m.ck c kb
    k.check m.node (off.toInt * n) n rLD = .ok ea → ea % n = 0 → (m.issuing c).coreRead c ea n k.epoch (m.core c).sys = .got m1 data tag →
    (m1.core c).word = true →
    CoreBecomes (s0.fetched c).pending m1 c ((m1.core c).setD (m1.core c).level r (extended data signed)).next.retire
      { s0 with mod := s0.mod.issue c uses (bodyLoad n signed r kb off.toNat) } := by
  intro m k hc ha hr hw
  refine coreBecomes_of_seq_setCore h uses ?_ (by rw [Core.word_setD]; exact hw)
  rw [bodyLoad_aligned r off signed (by rw [Mod.ck_issuing, Mod.node_issuing]; exact hc) ha, Mod.ck_issuing, Mod.core_issuing, Core.sys_atIssue, hr]
  rfl

end

end Sys2Proof.Machine

/-!
The statement on loads (R139, R151, R180 to R182).
-/
namespace Sys2Proof.Machine

theorem Mod.check_issuing (m : Mod) (c r : Nat) (off : Int) (n need : Nat) :
    ((m.issuing c).ck c r).check (m.issuing c).node off n need = (m.ck c r).check m.node off n need := by rw [Mod.ck_issuing, Mod.node_issuing]

@[simp] theorem Core.word_setFr (k : Core) (l r v : Nat) : (k.setFr l r v).word = k.word := by
  rw [Core.setFr, Core.setFpOf, Core.word_setSt]
  split <;> rfl

/-- What a command leaves in two cases. -/
theorem next_of_cases {i : Instr} {s0 : State} {m x y : Mod} {A B D : Prop} (hi : exec i s0 = .next { s0 with mod := m })
    (hm : (A → m = x) ∧ (B → D → m = y)) :
    (A → ∃ t, exec i s0 = .next t ∧ t.pending = s0.pending ∧ t.mod = x) ∧ (B → D → ∃ t, exec i s0 = .next t ∧ t.pending = s0.pending ∧ t.mod = y) :=
  ⟨fun ha => ⟨_, hi, rfl, hm.1 ha⟩, fun hb hd => ⟨_, hi, rfl, hm.2 hb hd⟩⟩

section
variable {s0 : State} {c : CoreId} (h : Ready s0.mod c) (r : Nat) {kb : KReg} (off : BitVec 15) {ea x : Nat} {uses : List RegName}
include h

theorem ldf_raises :
    let m := s0.mod.fetched c
    let k := m.ck c kb
    let d := off.toInt * (8 : Nat)
    (k.check m.node d 8 rLD = .error x → s0.mod.issue c uses (bodyLdf r kb off.toNat) =
      ((m.issuing c).fpOwn c).coreExc c 0x02 x (wrapTo 64 ((k.cursor : Int) + d)) (m.core c).ip.cursor) ∧
    (k.check m.node d 8 rLD = .ok ea → ea % 8 ≠ 0 → s0.mod.issue c uses (bodyLdf r kb off.toNat) =
      ((m.issuing c).fpOwn c).coreExc c 0x03 0 ea (m.core c).ip.cursor) := by
  have hw : ((((s0.mod.fetched c).issuing c).fpOwn c).core c).word = true := by
    rw [Mod.core_fpOwn, Core.word_fpOwn, Mod.core_issuing, Core.word_atIssue]
    exact h.word
  refine ⟨fun hc => ?_, fun hc ha => ?_⟩
  · have hb := bodyLdf_error r off ((Mod.check_issuing _ _ _ _ _ _).trans hc)
    rw [Mod.ck_issuing] at hb
    have hx := issue_of_exc_mod h uses hb hw
    exact hx
  · have hb := bodyLdf_misaligned r off ((Mod.check_issuing _ _ _ _ _ _).trans hc) ha
    have hx := issue_of_exc_mod h uses hb hw
    exact hx

theorem ldk_raises :
    let m := s0.mod.fetched c
    let k := m.ck c kb
    let d := off.toInt * (16 : Nat)
    (k.check m.node d 16 rLD = .error x → s0.mod.issue c uses (bodyLdk r kb off.toNat) =
      (m.issuing c).coreExc c 0x02 x (wrapTo 64 ((k.cursor : Int) + d)) (m.core c).ip.cursor) ∧
    (k.check m.node d 16 rLD = .ok ea → ea % 16 ≠ 0 → s0.mod.issue c uses (bodyLdk r kb off.toNat) =
      (m.issuing c).coreExc c 0x02 9 ea (m.core c).ip.cursor) := by
  refine ⟨fun hc => ?_, fun hc ha => ?_⟩
  · rw [issue_of_exc h uses (bodyLdk_error r off (by rw [Mod.ck_issuing, Mod.node_issuing]; exact hc)), Mod.ck_issuing]
  · exact issue_of_exc h uses (bodyLdk_misaligned r off (by rw [Mod.ck_issuing, Mod.node_issuing]; exact hc) ha)

/-- An LDU whose check fails; it has no alignment fault. -/
theorem ldu_raises (n : Nat) {P : Prop} :
    let m := s0.mod.fetched c
    let k := m.ck c kb
    let d := off.toInt * (1 : Nat)
    (k.check m.node d n rLD = .error x → s0.mod.issue c uses (bodyLdu n r kb off.toNat) =
      (m.issuing c).coreExc c 0x02 x (wrapTo 64 ((k.cursor : Int) + d)) (m.core c).ip.cursor) ∧
    (k.check m.node d n rLD = .ok ea → ea % 1 ≠ 0 → P) := by
  refine ⟨fun hc => ?_, fun hc ha => absurd (Nat.mod_one ea) ha⟩
  rw [Nat.cast_one, mul_one] at hc ⊢
  rw [issue_of_exc h uses (bodyLdu_error r off (by rw [Mod.ck_issuing, Mod.node_issuing]; exact hc)), Mod.ck_issuing]

theorem ldk_refused {m1 : Mod} :
    let m := s0.mod.fetched c
    let k := m.ck c kb
    k.check m.node (off.toInt * (16 : Nat)) 16 rLD = .ok ea → ea % 16 = 0 →
    (m.issuing c).coreRead c ea 16 k.epoch (m.core c).sys true = .fault m1 ⟨0x04, x, ea⟩ → (m1.core c).word = true →
    s0.mod.issue c uses (bodyLdk r kb off.toNat) = m1.coreExc c 0x04 x ea (m.core c).ip.cursor := by
  intro m k hc ha hr hw
  refine issue_of_exc_mod (e := ⟨0x04, x, ea⟩) (pair := false) (slotB := false) h uses ?_ hw
  rw [bodyLdk_aligned r off (by rw [Mod.ck_issuing, Mod.node_issuing]; exact hc) ha, Mod.ck_issuing, Mod.core_issuing, Core.sys_atIssue, hr]

theorem ldf_got {m1 : Mod} {data : List Byte} {tag : Bool} :
    let m := s0.mod.fetched c
    let k := m.ck c kb
    k.check m.node (off.toInt * (8 : Nat)) 8 rLD = .ok ea → ea % 8 = 0 →
    ((m.issuing c).fpOwn c).coreRead c ea 8 k.epoch (m.core c).sys = .got m1 data tag → (m1.core c).word = true →
    CoreBecomes (s0.fetched c).pending m1 c ((m1.core c).setFr (m1.core c).level r (ofLeBytes data)).next.retire
      { s0 with mod := s0.mod.issue c uses (bodyLdf r kb off.toNat) } := by
  intro m k hc ha hr hw
  refine coreBecomes_of_seq_setCore h uses (bodyLdf_got r off ((Mod.check_issuing _ _ _ _ _ _).trans hc) ha (tag := tag) ?_)
    (by rw [Core.word_setFr]; exact hw)
  rw [Mod.ck_issuing, Mod.core_issuing, Core.sys_atIssue, hr]

theorem ldk_got {m1 : Mod} {data : List Byte} {tag : Bool} :
    let m := s0.mod.fetched c
    let k := m.ck c kb
    k.check m.node (off.toInt * (16 : Nat)) 16 rLD = .ok ea → ea % 16 = 0 →
    (m.issuing c).coreRead c ea 16 k.epoch (m.core c).sys true = .got m1 data tag → (m1.core c).word = true →
    CoreBecomes (s0.fetched c).pending m1 c ((m1.core c).setK (m1.core c).level r (m1.filterKey (m1.loadedKey c ea k data tag))).next.retire
      { s0 with mod := s0.mod.issue c uses (bodyLdk r kb off.toNat) } := by
  intro m k hc ha hr hw
  refine coreBecomes_of_seq_setCore h uses ?_ (by rw [Core.word_setK]; exact hw)
  rw [bodyLdk_aligned r off (by rw [Mod.ck_issuing, Mod.node_issuing]; exact hc) ha, Mod.ck_issuing, Mod.core_issuing, Core.sys_atIssue, hr]
  rfl

/-- An LDU at an aligned address makes one access, at another one two. -/
theorem ldu_got {n : Nat} (hn : n ≠ 0) {m1 m2 : Mod} {d1 d2 : List Byte} {t1 t2 : Bool} :
    let m := s0.mod.fetched c
    let k := m.ck c kb
    let after := fun (m : Mod) (x : List Byte) => ((m.core c).setD (m.core c).level r (extended x (n == 4))).next.retire
    let ends := fun (m1 : Mod) (k1 : Core) => CoreBecomes (s0.fetched c).pending m1 c k1 { s0 with mod := s0.mod.issue c uses (bodyLdu n r kb off.toNat) }
    k.check m.node off.toInt n rLD = .ok ea →
    (ea % n = 0 → (m.issuing c).coreRead c ea n k.epoch (m.core c).sys = .got m1 d1 t1 → (m1.core c).word = true → ends m1 (after m1 d1)) ∧
    (ea % n ≠ 0 → (m.issuing c).coreRead c ea (n - ea % n) k.epoch (m.core c).sys = .got m1 d1 t1 →
      m1.coreRead c (ea + (n - ea % n)) (ea % n) k.epoch (m.core c).sys = .got m2 d2 t2 → (m2.core c).word = true → ends m2 (after m2 (d1 ++ d2))) := by
  intro m k after ends hc
  have hk : ((m.issuing c).ck c kb).check (m.issuing c).node off.toInt n rLD = .ok ea := by rw [Mod.ck_issuing, Mod.node_issuing]; exact hc
  refine ⟨fun ha hr hw => ?_, fun ha h1 h2 hw => ?_⟩
  · refine coreBecomes_of_seq_setCore h uses (bodyLdu_aligned r off hk ha (tag := t1) ?_) (by rw [Core.word_setD]; exact hw)
    rw [Mod.ck_issuing, Mod.core_issuing, Core.sys_atIssue, hr]
  · have hlt := Nat.mod_lt ea (Nat.pos_of_ne_zero hn)
    have hsum : ea + n - ea % n = ea + (n - ea % n) := Nat.add_sub_assoc hlt.le _
    refine coreBecomes_of_seq_setCore h uses (bodyLdu_parts r off hk ha (t1 := t1) (t2 := t2) (m1 := m1) ?_ ?_) (by rw [Core.word_setD]; exact hw)
    · rw [Mod.ck_issuing, Mod.core_issuing, Core.sys_atIssue, h1]
    · rw [Mod.ck_issuing, Mod.core_issuing, Core.sys_atIssue, hsum, h2]

end

/-- The loads whose key or alignment check fails. -/
theorem loads_raise {s0 : State} {c : CoreId} (h : Ready s0.mod c) (r : DReg) (fd : FReg) (kd kb : KReg) (off : BitVec 15) (ea x : Nat) :
     let s := s0.fetched c
     let k := s.mod.ck c kb
     let m0 := s.mod.issuing c
     let raises := fun (i : Instr) (m : Mod) (code sub a : Nat) => ∃ t, exec i s0 = .next t ∧ t.pending = s.pending ∧
       t.mod = m.coreExc c code sub a (s.mod.core c).ip.cursor
     (∀ e ∈ [(Instr.ldb c r kb off, (1 : Nat), (1 : Nat), (0x03 : Nat), (0 : Nat), m0), (.ldbu c r kb off, 1, 1, 0x03, 0, m0),
         (.ldh c r kb off, 2, 2, 0x03, 0, m0), (.ldhu c r kb off, 2, 2, 0x03, 0, m0), (.ldw c r kb off, 4, 4, 0x03, 0, m0),
         (.ldwu c r kb off, 4, 4, 0x03, 0, m0), (.ldd c r kb off, 8, 8, 0x03, 0, m0), (.ldf c fd kb off, 8, 8, 0x03, 0, m0.fpOwn c),
         (.ldk c kd kb off, 16, 16, 0x02, 9, m0), (.lduW c r kb off, 4, 1, 0, 0, m0), (.lduD c r kb off, 8, 1, 0, 0, m0)],
       let d := off.toInt * e.2.2.1
       (k.check s.mod.node d e.2.1 rLD = .error x → raises e.1 e.2.2.2.2.2 0x02 x (wrapTo 64 ((k.cursor : Int) + d))) ∧
       (k.check s.mod.node d e.2.1 rLD = .ok ea → ea % e.2.2.1 ≠ 0 → raises e.1 e.2.2.2.2.2 e.2.2.2.1 e.2.2.2.2.1 ea)) := by
  intro s k m0 raises
  have hdata := fun {uses : List RegName} (n : Nat) (signed : Bool) => load_raises (x := x) (ea := ea) (kb := kb) (uses := uses) h r off (n := n) signed
  simp only [List.forall_mem_cons, List.not_mem_nil, false_imp_iff, implies_true, and_true]
  exact ⟨next_of_cases rfl (hdata 1 true), next_of_cases rfl (hdata 1 false), next_of_cases rfl (hdata 2 true), next_of_cases rfl (hdata 2 false),
    next_of_cases rfl (hdata 4 true), next_of_cases rfl (hdata 4 false), next_of_cases rfl (hdata 8 false), next_of_cases rfl (ldf_raises h fd off),
    next_of_cases rfl (ldk_raises h kd off), next_of_cases rfl (ldu_raises h r off 4), next_of_cases rfl (ldu_raises h r off 8)⟩

theorem Mod.isLocal_issuing (m : Mod) (c ea : Nat) : (m.issuing c).isLocal ea = m.isLocal ea := rfl

/-- An instruction that leaves the module `m`. -/
theorem next_refused {i : Instr} {s : State} {m m' : Mod} (hi : exec i s = .next { s with mod := m }) (h : m = m') :
    ∃ t, exec i s = .next t ∧ t.pending = s.pending ∧ t.mod = m' := ⟨_, hi, rfl, h⟩

/-- The loads of a local target whose gate refuses them. -/
theorem loads_refused {s0 : State} {c : CoreId} (h : Ready s0.mod c) (r : DReg) (kd kb : KReg) (off : BitVec 15) (ea x : Nat) (m1 : Mod) :
     let s := s0.fetched c
     let k := s.mod.ck c kb
     let m0 := s.mod.issuing c
     let raises := fun (i : Instr) (m : Mod) (code sub a : Nat) => ∃ t, exec i s0 = .next t ∧ t.pending = s.pending ∧
       t.mod = m.coreExc c code sub a (s.mod.core c).ip.cursor
     (∀ e ∈ [(Instr.ldb c r kb off, (1 : Nat)), (.ldbu c r kb off, 1), (.ldh c r kb off, 2), (.ldhu c r kb off, 2), (.ldw c r kb off, 4),
         (.ldwu c r kb off, 4), (.ldd c r kb off, 8), (.ldk c kd kb off, 16)],
       let a := ea % 2 ^ 52
       k.check s.mod.node (off.toInt * e.2) e.2 rLD = .ok ea → ea % e.2 = 0 → s.mod.isLocal ea = true → m0.sbCheck c ea e.2 (e.2 == 16) = .miss →
       ((targetOf a).cached && l1Hit (m0.core c).l1d (a / 64) k.epoch) = false →
       m0.passGate (coreAcc c (s.mod.core c).sys k.epoch a e.2 .load) = (m1, some x) → (m1.core c).word = true → raises e.1 m1 0x04 x ea) := by
  intro s k m0 raises
  have hdata := fun (n : Nat) (signed : Bool) {uses : List RegName} {i : Instr} (hi : exec i s0 = .next { s0 with mod := s0.mod.issue c uses (bodyLoad n signed r kb off.toNat) })
      hc ha (hl : s.mod.isLocal ea = true) hsb hmiss hg hw => next_refused hi (load_refused (x := x) (ea := ea) (kb := kb) (uses := uses) (m1 := m1) h r off (n := n) signed hc ha
      (Mod.coreRead_refused (m := m0) (keyLoad := false) ((Mod.isLocal_issuing _ _ _).trans hl) hsb hmiss hg) hw)
  have hkey := fun {uses : List RegName} {i : Instr} (hi : exec i s0 = .next { s0 with mod := s0.mod.issue c uses (bodyLdk kd kb off.toNat) })
      hc ha (hl : s.mod.isLocal ea = true) hsb hmiss hg hw => next_refused hi (ldk_refused (x := x) (ea := ea) (kb := kb) (uses := uses) (m1 := m1) h kd off hc ha
      (Mod.coreRead_refused (m := m0) (keyLoad := true) ((Mod.isLocal_issuing _ _ _).trans hl) hsb hmiss hg) hw)
  simp only [List.forall_mem_cons, List.not_mem_nil, false_imp_iff, implies_true, and_true]
  exact ⟨hdata 1 true rfl, hdata 1 false rfl, hdata 2 true rfl, hdata 2 false rfl, hdata 4 true rfl, hdata 4 false rfl, hdata 8 false rfl, hkey rfl⟩

/-- The loads whose read is answered at once. -/
theorem loads_got {s0 : State} {c : CoreId} (h : Ready s0.mod c) (r : DReg) (kb : KReg) (off : BitVec 15) (ea : Nat) (m : Mod) (d : List Byte) (tag : Bool) :
    let s := s0.fetched c
    let k := s.mod.ck c kb
    let sys := (s.mod.core c).sys
    let m0 := s.mod.issuing c
    ∀ e ∈ [(Instr.ldb c r kb off, (1 : Nat), true), (.ldbu c r kb off, 1, false), (.ldh c r kb off, 2, true), (.ldhu c r kb off, 2, false),
         (.ldw c r kb off, 4, true), (.ldwu c r kb off, 4, false), (.ldd c r kb off, 8, false)],
       let n := e.2.1
       k.check s.mod.node (off.toInt * n) n rLD = .ok ea → ea % n = 0 → d.length = n → m0.coreRead c ea n k.epoch sys = .got m d tag → (m.core c).word = true →
       ∃ t, exec e.1 s0 = .next t ∧ CoreBecomes s.pending m c ((m.core c).setD (m.core c).level r
         (if e.2.2 then ((BitVec.ofNat (8 * n) (ofLeBytes d)).signExtend 64).toNat else ofLeBytes d)).next.retire t := by
  intro s k sys m0
  have hsigned := fun {uses : List RegName} (n : Nat) hc ha (hd : d.length = n) hr hw => extended_signed hd ▸
    load_got (ea := ea) (kb := kb) (uses := uses) (m1 := m) (data := d) (tag := tag) h r off (n := n) true hc ha hr hw
  have hplain := fun {uses : List RegName} (n : Nat) hc ha hr hw =>
    load_got (ea := ea) (kb := kb) (uses := uses) (m1 := m) (data := d) (tag := tag) h r off (n := n) false hc ha hr hw
  simp only [List.forall_mem_cons, List.not_mem_nil, false_imp_iff, implies_true, and_true, if_true, Bool.false_eq_true, if_false]
  exact ⟨fun hc ha hd hr hw => ⟨_, rfl, hsigned 1 hc ha hd hr hw⟩, fun hc ha _ hr hw => ⟨_, rfl, hplain 1 hc ha hr hw⟩,
    fun hc ha hd hr hw => ⟨_, rfl, hsigned 2 hc ha hd hr hw⟩, fun hc ha _ hr hw => ⟨_, rfl, hplain 2 hc ha hr hw⟩,
    fun hc ha hd hr hw => ⟨_, rfl, hsigned 4 hc ha hd hr hw⟩, fun hc ha _ hr hw => ⟨_, rfl, hplain 4 hc ha hr hw⟩,
    fun hc ha _ hr hw => ⟨_, rfl, hplain 8 hc ha hr hw⟩⟩

/-- Settles O15. -/
theorem loadsWriteTheBytesRead : Obligations.LoadsWriteTheBytesRead := by
  refine ⟨fun k node off n need => ⟨Key.check_untagged, Key.check_sealed, Key.check_rights, fun h ho hr => (Key.check_of_rights h ho hr).1,
    fun h ho hr => (Key.check_of_rights h ho hr).2.1, fun h ho hr => (Key.check_of_rights h ho hr).2.2⟩,
    fun s0 c r fd kd kb off ea x m1 h => ⟨loads_raise h r fd kd kb off ea x, loads_refused h r kd kb off ea x m1⟩,
    fun s0 c r fd kd kb off ea m d tag h => ⟨loads_got h r kb off ea m d tag, fun hc ha hr hw => ⟨_, rfl, ldf_got h fd off hc ha hr hw⟩,
      fun hc ha hr hw => ⟨_, rfl, ldk_got h kd off hc ha hr hw⟩⟩, fun s0 c r kb off ea m m2 d d2 tag tag2 h => ?_⟩
  intro s k sys m0
  have hldu := fun {uses : List RegName} {n : Nat} (hn : n ≠ 0) => ldu_got (uses := uses) (ea := ea) (kb := kb) (m1 := m) (m2 := m2) (d1 := d) (d2 := d2) (t1 := tag)
    (t2 := tag2) h r off hn
  simp only [List.forall_mem_cons, List.not_mem_nil, false_imp_iff, implies_true, and_true, if_true]
  refine ⟨fun hc => ⟨fun ha hd hr hw => ⟨_, rfl, ?_⟩, fun ha hd h1 h2 hw => ⟨_, rfl, ?_⟩⟩,
    fun hc => ⟨fun ha _ hr hw => ⟨_, rfl, (hldu (by decide) hc).1 ha hr hw⟩, fun ha _ h1 h2 hw => ⟨_, rfl, (hldu (by decide) hc).2 ha h1 h2 hw⟩⟩⟩
  · exact extended_signed hd ▸ (hldu (by decide) hc).1 ha hr hw
  · exact extended_signed ((List.length_append).trans hd) ▸ (hldu (by decide) hc).2 ha h1 h2 hw

end Sys2Proof.Machine

/-!
Atomics (R184, R185).
-/
namespace Sys2Proof.Machine

section
variable (m : Mod) (c : Nat)

theorem Mod.tagTarget_issuing (ea : Nat) : (m.issuing c).tagTarget ea = m.tagTarget ea := rfl
theorem Mod.keyStoreFault_issuing (ea : Nat) (kb k : Key) : (m.issuing c).keyStoreFault c ea kb k = m.keyStoreFault c ea kb k := rfl

end

/-- A core whose store buffer is empty lets its word go on. -/
theorem Mod.holdsWord_issuing {m : Mod} {c : Nat} (hsb : (m.core c).sb = []) (hword : (m.core c).word = true) :
    (m.issuing c).holdsWord c = false := by
  rw [Mod.holdsWord, Mod.core_issuing, Core.sb_atIssue, Core.word_atIssue, hsb, hword]
  rfl

/-! ### The bodies -/

section
variable {m : Mod} {c : Nat} (o : Amo) (wide : Bool) (rd v ks kd kt : Nat) {ea x : Nat}

theorem bodyAtomic_error (h : (m.ck c ks).check m.node 0 (if wide then 8 else 4) (rLD ||| rST) = .error x) :
    bodyAtomic o wide rd v ks m c = .exc m ⟨0x02, x, (m.ck c ks).cursor⟩ false false := by
  rw [bodyAtomic, h]
  rfl

theorem bodyAtomic_misaligned (h : (m.ck c ks).check m.node 0 (if wide then 8 else 4) (rLD ||| rST) = .ok ea) (ha : ea % (if wide then 8 else 4) ≠ 0) :
    bodyAtomic o wide rd v ks m c = .exc m ⟨0x03, 0, ea⟩ false false := by
  rw [bodyAtomic, h]
  exact if_pos ha

theorem bodyAtomic_local (h : (m.ck c ks).check m.node 0 (if wide then 8 else 4) (rLD ||| rST) = .ok ea) (ha : ea % (if wide then 8 else 4) = 0)
    (hl : m.isLocal ea = true) (hd : m.drain c = m) (hh : m.holdsWord c = false) {m' : Mod} {old : List Byte}
    (hr : m.coreAtomic c ea (if wide then 8 else 4) (m.ck c ks).epoch (m.core c).sys
      (fun old => (o.write (if wide then 8 else 4) (ofLeBytes old) (m.cd c v) (m.cd c rd)).map (leBytes (if wide then 8 else 4))) = (m', .ok old)) :
    bodyAtomic o wide rd v ks m c = .seq (m'.setCd c rd (extended old (!wide))) := by
  rw [bodyAtomic, h]
  dsimp only
  rw [if_neg (not_not.mpr ha), hd, if_neg (by simp [hh]), if_pos hl, hr]

theorem bodyKcas_error (h : (m.ck c ks).check m.node 0 16 (rLD ||| rST ||| rLK ||| rSK) = .error x) :
    bodyKcas kd ks kt m c = .exc m ⟨0x02, x, (m.ck c ks).cursor⟩ false false := by
  rw [bodyKcas, h]
  rfl

section
variable (h : (m.ck c ks).check m.node 0 16 (rLD ||| rST ||| rLK ||| rSK) = .ok ea)
include h

theorem bodyKcas_misaligned (ha : ea % 16 ≠ 0) : bodyKcas kd ks kt m c = .exc m ⟨0x02, 9, ea⟩ false false := by
  rw [bodyKcas, h]
  exact if_pos ha

theorem bodyKcas_untagged (ha : ea % 16 = 0) (ht : m.tagTarget ea = false) : bodyKcas kd ks kt m c = .exc m ⟨0x02, 10, ea⟩ false false := by
  rw [bodyKcas, h]
  dsimp only
  rw [if_neg (not_not.mpr ha), if_pos (by simp [ht])]
  rfl

theorem bodyKcas_refused (ha : ea % 16 = 0) (ht : m.tagTarget ea = true) (hf : m.keyStoreFault c ea (m.ck c ks) (m.ck c kt) = some x) :
    bodyKcas kd ks kt m c = .exc m ⟨0x02, x, ea⟩ false false := by
  rw [bodyKcas, h]
  dsimp only
  rw [if_neg (not_not.mpr ha), if_neg (by simp [ht]), hf]
  rfl

/-- The exchange of a key at a local target. -/
theorem bodyKcas_local (ha : ea % 16 = 0) (ht : m.tagTarget ea = true) (hf : m.keyStoreFault c ea (m.ck c ks) (m.ck c kt) = none)
    (hl : m.isLocal ea = true) (hd : m.drain c = m) (hh : m.holdsWord c = false)
    (hg : m.passGate (coreAcc c (m.core c).sys (m.ck c ks).epoch (ea % 2 ^ 52) 16 .atomic) = (m, none))
    (hp : ((m.l1dDrop c (ea % 2 ^ 52 / 64)).rawRead (ea % 2 ^ 52) 16).2.poison = false) :
    let a := ea % 2 ^ 52
    let m1 := ((m.l1dDrop c (a / 64)).rawRead a 16).1
    let g := ((m.l1dDrop c (a / 64)).rawRead a 16).2
    let old := m.ck c kd
    let new := m.ck c kt
    let m2 := if Key.ofBytes g.data (m1.tagAt a) = { old with tag := old.live } then
      m1.rawWrite a new.bytes (some ((m1.filterKey new).live && m1.keepsTag a new.loc)) none else m1
    bodyKcas kd ks kt m c = .seq (m2.setCk c kd (m2.loadedKey c ea (m.ck c ks) g.data (m1.tagAt a))) := by
  intro a m1 g old new m2
  rw [bodyKcas, h]
  dsimp only
  rw [if_neg (not_not.mpr ha), if_neg (by simp [ht]), hf]
  dsimp only
  rw [hd, if_neg (by simp [hh]), if_pos hl, hg]
  dsimp only
  rw [if_neg (by rw [hp]; decide)]
  have hm2 : m1.iff (Key.ofBytes g.data (m1.tagAt a) == { old with tag := old.live })
      (fun m => m.rawWrite a new.bytes (some ((m1.filterKey new).live && m1.keepsTag a new.loc)) none) = m2 := by
    simp only [Mod.iff, beq_iff_eq]
    rfl
  exact congrArg (fun x : Mod => IOut.seq (x.setCk c kd (x.loadedKey c ea (m.ck c ks) g.data (m1.tagAt a)))) hm2

end
end

/-! ### Atomics on a core that issues -/

section
variable {s0 : State} {c : CoreId} (h : Ready s0.mod c) (o : Amo) (wide : Bool) (rd v : Nat) (ks kd kt : KReg) {ea x : Nat} {uses : List RegName}
include h

theorem atomic_raises :
    let m := s0.mod.fetched c
    let k := m.ck c ks
    let n := if wide then 8 else 4
    (k.check m.node 0 n (rLD ||| rST) = .error x → s0.mod.issue c uses (bodyAtomic o wide rd v ks) =
      (m.issuing c).coreExc c 0x02 x k.cursor (m.core c).ip.cursor) ∧
    (k.check m.node 0 n (rLD ||| rST) = .ok ea → ea % n ≠ 0 → s0.mod.issue c uses (bodyAtomic o wide rd v ks) =
      (m.issuing c).coreExc c 0x03 0 ea (m.core c).ip.cursor) := by
  refine ⟨fun hc => ?_, fun hc ha => ?_⟩
  · have hx := issue_of_exc h uses (bodyAtomic_error o wide rd v ks ((Mod.check_issuing _ _ _ _ _ _).trans hc))
    rw [Mod.ck_issuing] at hx
    exact hx
  · have hx := issue_of_exc h uses (bodyAtomic_misaligned o wide rd v ks ((Mod.check_issuing _ _ _ _ _ _).trans hc) ha)
    exact hx

theorem kcas_raises :
    let m := s0.mod.fetched c
    let k := m.ck c ks
    let new := m.ck c kt
    let chk := k.check m.node 0 16 (rLD ||| rST ||| rLK ||| rSK)
    let raises := fun (sub a : Nat) => s0.mod.issue c uses (bodyKcas kd ks kt) = (m.issuing c).coreExc c 0x02 sub a (m.core c).ip.cursor
    (chk = .error x → raises x k.cursor) ∧ (chk = .ok ea → ea % 16 ≠ 0 → raises 9 ea) ∧
    (chk = .ok ea → ea % 16 = 0 → m.tagTarget ea = false → raises 10 ea) ∧
    (chk = .ok ea → ea % 16 = 0 → m.tagTarget ea = true → new.live = true → new.loc = 2 → (k.has rSKL && m.ownScratch c ea) = false → raises 7 ea) := by
  refine ⟨fun hc => ?_, fun hc ha => ?_, fun hc ha ht => ?_, fun hc ha ht hlive hloc hskl => ?_⟩
  · have hx := issue_of_exc h uses (bodyKcas_error ks kd kt ((Mod.check_issuing _ _ _ _ _ _).trans hc))
    rw [Mod.ck_issuing] at hx
    exact hx
  · have hx := issue_of_exc h uses (bodyKcas_misaligned ks kd kt ((Mod.check_issuing _ _ _ _ _ _).trans hc) ha)
    exact hx
  · have hx := issue_of_exc h uses (bodyKcas_untagged ks kd kt ((Mod.check_issuing _ _ _ _ _ _).trans hc) ha ((Mod.tagTarget_issuing _ _ _).trans ht))
    exact hx
  · have hf : (s0.mod.fetched c).keyStoreFault c ea ((s0.mod.fetched c).ck c ks) ((s0.mod.fetched c).ck c kt) = some kfLOCALITY := by
      rw [Mod.keyStoreFault, hlive, ht, hskl]
      simp [hloc]
    have hx := issue_of_exc h uses (bodyKcas_refused ks kd kt ((Mod.check_issuing _ _ _ _ _ _).trans hc) ha ((Mod.tagTarget_issuing _ _ _).trans ht)
      (by rw [Mod.keyStoreFault_issuing, Mod.ck_issuing, Mod.ck_issuing]; exact hf))
    exact hx

variable (hsb : ((s0.mod.fetched c).core c).sb = [])
include hsb

theorem atomic_becomes {m1 : Mod} {old : List Byte} :
    let m := s0.mod.fetched c
    let k := m.ck c ks
    let n := if wide then 8 else 4
    k.check m.node 0 n (rLD ||| rST) = .ok ea → ea % n = 0 → m.isLocal ea = true →
    (m.issuing c).coreAtomic c ea n k.epoch (m.core c).sys
      (fun old => (o.write n (ofLeBytes old) (m.cd c v) (m.cd c rd)).map (leBytes n)) = (m1, .ok old) → (m1.core c).word = true →
    CoreBecomes (s0.fetched c).pending m1 c ((m1.core c).setD (m1.core c).level rd (extended old (!wide))).next.retire
      { s0 with mod := s0.mod.issue c uses (bodyAtomic o wide rd v ks) } := by
  intro m k n hc ha hl hr hw
  refine coreBecomes_of_seq_setCore h uses (bodyAtomic_local o wide rd v ks ((Mod.check_issuing _ _ _ _ _ _).trans hc) ha
    ((Mod.isLocal_issuing _ _ _).trans hl) (Mod.drain_issuing hsb) (Mod.holdsWord_issuing hsb h.word) ?_) (by rw [Core.word_setD]; exact hw)
  rw [Mod.ck_issuing, Mod.cd_issuing, Mod.cd_issuing, Mod.core_issuing, Core.sys_atIssue]
  exact hr

theorem kcas_becomes :
    let m := s0.mod.fetched c
    let m0 := m.issuing c
    let k := m.ck c ks
    k.check m.node 0 16 (rLD ||| rST ||| rLK ||| rSK) = .ok ea → ea % 16 = 0 → m.isLocal ea = true → m.tagTarget ea = true →
    let new := m.ck c kt
    let cmpK := m.ck c kd
    let a := ea % 2 ^ 52
    m.keyStoreFault c ea k new = none → m0.passGate (coreAcc c (m.core c).sys k.epoch a 16 .atomic) = (m0, none) →
    let m1 := ((m0.l1dDrop c (a / 64)).rawRead a 16).1
    let g := ((m0.l1dDrop c (a / 64)).rawRead a 16).2
    g.poison = false →
    let m2 := if Key.ofBytes g.data (m1.tagAt a) = { cmpK with tag := cmpK.live } then
      m1.rawWrite a new.bytes (some ((m1.filterKey new).live && m1.keepsTag a new.loc)) none else m1
    (m2.core c).word = true →
    CoreBecomes (s0.fetched c).pending m2 c ((m2.core c).setK (m2.core c).level kd (m2.filterKey (m2.loadedKey c ea k g.data (m1.tagAt a)))).next.retire
      { s0 with mod := s0.mod.issue c uses (bodyKcas kd ks kt) } := by
  intro m m0 k hc ha hl ht new cmpK a hf hg m1 g hp m2 hw
  have hb := bodyKcas_local ks kd kt ((Mod.check_issuing m c ks 0 16 _).trans hc) ha ((Mod.tagTarget_issuing _ _ _).trans ht)
    (by rw [Mod.keyStoreFault_issuing, Mod.ck_issuing, Mod.ck_issuing]; exact hf) ((Mod.isLocal_issuing _ _ _).trans hl) (Mod.drain_issuing hsb)
    (Mod.holdsWord_issuing hsb h.word) (by rw [Mod.ck_issuing, Mod.core_issuing, Core.sys_atIssue]; exact hg) hp
  simp only [Mod.ck_issuing] at hb
  exact coreBecomes_of_seq_setCore h uses hb (by rw [Core.word_setK]; exact hw)

end

/-- The old value of an atomic as a register takes it. -/
theorem extended_old {wide : Bool} {old : List Byte} (h : old.length = if wide then 8 else 4) :
    extended old (!wide) = if wide then ofLeBytes old else ((BitVec.ofNat 32 (ofLeBytes old)).signExtend 64).toNat := by
  cases wide with
  | true => rfl
  | false =>
    rw [if_neg Bool.false_ne_true] at h ⊢
    exact extended_signed (n := 4) h

/-- Settles O17. -/
theorem atomicsReturnTheOldValue : Obligations.AtomicsReturnTheOldValue := by
  refine ⟨fun s0 c wide rd v ks kd kt ea x h => ?_, fun s0 c wide rd v ks kd kt ea h => ?_⟩
  · intro s k new n raises
    have hamo := fun {uses : List RegName} (o : Amo) => atomic_raises (uses := uses) (x := x) (ea := ea) h o wide rd v ks
    obtain ⟨herr, halign, htag, hloc⟩ := kcas_raises (uses := Instr.uses (.kcas c kd ks kt)) (x := x) (ea := ea) h ks kd kt
    simp only [List.forall_mem_cons, List.not_mem_nil, false_imp_iff, implies_true, and_true]
    exact ⟨⟨next_of_cases rfl (hamo .add), next_of_cases rfl (hamo .swap), next_of_cases rfl (hamo .cas)⟩, fun hc => ⟨_, rfl, rfl, herr hc⟩,
      fun hc ha => ⟨_, rfl, rfl, halign hc ha⟩, fun hc ha ht => ⟨_, rfl, rfl, htag hc ha ht⟩,
      fun hc ha ht hlive h2 hskl => ⟨_, rfl, rfl, hloc hc ha ht hlive h2 hskl⟩⟩
  · intro s hsb n k sys m0 val cmp
    refine ⟨fun hc ha hl => ?_, ?_⟩
    · have hamo := fun {uses : List RegName} (o : Amo) {m1 : Mod} {old : List Byte} hr (hn : old.length = n) hw => extended_old hn ▸
        atomic_becomes (uses := uses) (m1 := m1) (old := old) h o wide rd v ks hsb hc ha hl hr hw
      simp only [List.forall_mem_cons, List.not_mem_nil, false_imp_iff, implies_true, and_true]
      exact ⟨fun m old hr hn hw => ⟨_, rfl, hamo .add hr hn hw⟩, fun m old hr hn hw => ⟨_, rfl, hamo .swap hr hn hw⟩,
        fun m old hr hn hw => ⟨_, rfl, hamo .cas hr hn hw⟩⟩
    · intro hc ha hl ht new cmpK a hf hg m1 g hp found m2 hw
      exact ⟨_, rfl, kcas_becomes h ks kd kt hsb hc ha hl ht hf hg hp hw⟩

end Sys2Proof.Machine

/-!
MCPY and MSET (R155, R194 to R196).
-/
namespace Sys2Proof.Machine

/-! ### The granules of a chunk -/

/-- The granules a chunk of at most 64 bytes covers whole (R155). -/
theorem mem_chunkGranules {src dst n o : Nat} (hn : n ≤ 64) :
    o ∈ chunkGranules src dst n ↔ src % 16 = dst % 16 ∧ (dst + o) % 16 = 0 ∧ o + 16 ≤ n := by
  rw [chunkGranules]
  split
  · next h => simp [h]
  · next h =>
    simp only [upTo, List.mem_filterMap, List.mem_range]
    constructor
    · rintro ⟨i, _, hi⟩
      split at hi
      · cases hi
        omega
      · cases hi
    · rintro ⟨hs, hd, ho⟩
      refine ⟨(o - (16 - dst % 16) % 16) / 16, by omega, ?_⟩
      have heq : (16 - dst % 16) % 16 + 16 * ((o - (16 - dst % 16) % 16) / 16) = o := by omega
      rw [heq, if_pos ho]

/-- The granules of a chunk that keep their tag (R155, R163). -/
theorem Mod.mem_keptGranules {m : Mod} {c srcA dst n o : Nat} {data : List Byte} {lk sk skl : Bool} (hn : n ≤ 64) :
    let key := fun (o : Nat) => Key.ofBytes ((data.drop o).take 16) (m.tagAt (srcA % 2 ^ 52 + o))
    o ∈ m.keptGranules c srcA dst n data lk sk skl ↔ (srcA % 16 = dst % 16 ∧ (dst + o) % 16 = 0 ∧ o + 16 ≤ n) ∧ (m.filterKey (key o)).live = true ∧
      lk = true ∧ sk = true ∧ ((key o).loc ≠ 2 ∨ (skl = true ∧ m.ownScratch c (dst + o) = true)) := by
  intro key
  rw [Mod.keptGranules, List.mem_filter, mem_chunkGranules hn, Mod.copyTag]
  simp only [Bool.and_eq_true, Bool.or_eq_true, bne_iff_ne, ne_eq, and_assoc]
  rfl

/-! ### The bodies -/

/-- The end of a chunk: the word goes on in sequence once its count is 0, and stays till then (R195). -/
def chunkEnd (m : Mod) (c rs : Nat) : IOut := if m.cd c rs = 0 then .seq m else .stay m

theorem settle_chunkEnd {m : Mod} {c : Nat} (w rs : Nat) (hw : (m.core c).word = true) :
    settle c w (chunkEnd m c rs) = m.setCore c (if m.cd c rs = 0 then (m.core c).next.retire else { m.core c with word := false }) := by
  rw [chunkEnd]
  split
  · exact settle_seq w hw
  · exact settle_stay w hw

theorem chunkOut_local {m m1 : Mod} {c kd rs n dst epoch : Nat} {src : Option Nat} {desc : Bool} {data : List Byte} {keep : List Nat}
    (hl : m.isLocal dst = true) (hw : m.chunkWrite c (m.core c).sys epoch dst data keep = (m1, none)) :
    chunkOut m c kd src rs n desc dst epoch data keep = chunkEnd (m1.chunkProgress c kd src rs n desc) c rs := by
  rw [chunkOut, if_pos hl, hw]
  rfl

section
variable {m : Mod} {c kd ks rs src dst x : Nat} (rv : Nat) (hd : m.drain c = m) (hh : m.holdsWord c = false)
include hd hh

theorem bodyMcpy_srcFails (hs : (m.ck c ks).check m.node 0 (m.cd c rs) rLD = .error x) :
    bodyMcpy kd ks rs m c = .exc m ⟨0x02, x, (m.ck c ks).cursor⟩ false false := by
  rw [bodyMcpy, hd]
  dsimp only
  rw [if_neg (by simp [hh]), hs]
  rfl

theorem bodyMset_fails (ht : (m.ck c kd).check m.node 0 (m.cd c rs) rST = .error x) :
    bodyMset kd rv rs m c = .exc m ⟨0x02, x, (m.ck c kd).cursor⟩ false false := by
  rw [bodyMset, hd]
  dsimp only
  rw [if_neg (by simp [hh]), ht]
  rfl

section
variable (ht : (m.ck c kd).check m.node 0 (m.cd c rs) rST = .ok dst)
include ht

theorem bodyMset_empty (hn : m.cd c rs = 0) : bodyMset kd rv rs m c = .seq m := by
  rw [bodyMset, hd]
  dsimp only
  rw [if_neg (by simp [hh]), ht]
  exact if_pos hn

theorem bodyMset_chunk (hn : m.cd c rs ≠ 0) : bodyMset kd rv rs m c =
    (let len := Nat.min (m.cd c rs) (64 - dst % 64)
     chunkOut m c kd none rs len false dst (m.ck c kd).epoch (List.replicate len (BitVec.ofNat 8 (m.cd c rv))) []) := by
  rw [bodyMset, hd]
  dsimp only
  rw [if_neg (by simp [hh]), ht]
  exact if_neg hn

end

variable (hs : (m.ck c ks).check m.node 0 (m.cd c rs) rLD = .ok src)
include hs

theorem bodyMcpy_dstFails (ht : (m.ck c kd).check m.node 0 (m.cd c rs) rST = .error x) :
    bodyMcpy kd ks rs m c = .exc m ⟨0x02, x, (m.ck c kd).cursor⟩ false false := by
  rw [bodyMcpy, hd]
  dsimp only
  rw [if_neg (by simp [hh]), hs, ht]
  rfl

variable (ht : (m.ck c kd).check m.node 0 (m.cd c rs) rST = .ok dst)
include ht

theorem bodyMcpy_empty (hn : m.cd c rs = 0) : bodyMcpy kd ks rs m c = .seq m := by
  rw [bodyMcpy, hd]
  dsimp only
  rw [if_neg (by simp [hh]), hs, ht]
  exact if_pos hn

theorem bodyMcpy_self (hn : m.cd c rs ≠ 0) (hk : kd = ks) :
    bodyMcpy kd ks rs m c = .seq ((m.setCk c kd ((m.ck c kd).advance (m.cd c rs))).setCd c rs 0) := by
  rw [bodyMcpy, hd]
  dsimp only
  rw [if_neg (by simp [hh]), hs, ht]
  dsimp only
  rw [if_neg hn, if_pos hk]

/-- A chunk of MCPY whose source is local (R195). -/
theorem bodyMcpy_chunk {m1 : Mod} {data : List Byte} {n len so do_ : Nat} {sys desc : Bool} {d sk : Key} (hn : m.cd c rs = n) (hn0 : n ≠ 0) (hk : kd ≠ ks)
    (hl : m.isLocal src = true) (hd' : m.ck c kd = d) (hs' : m.ck c ks = sk) (hsys : (m.core c).sys = sys) (hdesc : (m.core c).descends src dst n = desc)
    (hlen : (if desc then chunkDown (dst + n) (src + n) n false else chunkUp dst src n false) = len) (hso : (if desc then src + n - len else src) = so)
    (hdo : (if desc then dst + n - len else dst) = do_)
    (hr : (m.setCore c { m.core c with copy := some ((m.core c).level, (m.core c).ip.cursor, desc) }).chunkRead
      (coreAcc c sys sk.epoch (so % 2 ^ 52) len .load) = (m1, .ok (data, false))) :
    bodyMcpy kd ks rs m c = chunkOut m1 c kd (some ks) rs len desc do_ d.epoch data
      (m1.keptGranules c so do_ len data (sk.has rLK) (d.has rSK) (d.has rSKL)) := by
  have hremote : (!(m.setCore c { m.core c with copy := some ((m.core c).level, (m.core c).ip.cursor, desc) }).isLocal src) = false := by
    rw [Bool.not_eq_false']
    exact hl
  subst hn hd' hs' hsys hdesc hlen hso hdo
  rw [bodyMcpy, hd]
  dsimp only
  rw [if_neg (by simp [hh]), hs, ht]
  dsimp only
  rw [if_neg hn0, if_neg hk, hremote, Mod.core_setCore_self, if_neg Bool.false_ne_true]
  generalize hx : Mod.chunkRead _ _ = x
  have hx' : x = (m1, .ok (data, false)) := hx.symm.trans hr
  rw [hx']
  rfl

end

/-! ### Block copies on a core that issues -/

section
variable {s0 : State} {c : CoreId} (h : Ready s0.mod c) (kd ks rv : KReg) (rs : DReg) {src dst x : Nat} {uses : List RegName}
  (hsb : ((s0.mod.fetched c).core c).sb = [])
include h hsb

theorem mcpy_raises :
    let m := s0.mod.fetched c
    let n := m.cd c rs
    let d := m.ck c kd
    let sk := m.ck c ks
    let raises := fun (body : Body) (a : Nat) => s0.mod.issue c uses body = (m.issuing c).coreExc c 0x02 x a (m.core c).ip.cursor
    (sk.check m.node 0 n rLD = .error x → raises (bodyMcpy kd ks rs) sk.cursor) ∧
    (sk.check m.node 0 n rLD = .ok src → d.check m.node 0 n rST = .error x → raises (bodyMcpy kd ks rs) d.cursor) ∧
    (d.check m.node 0 n rST = .error x → raises (bodyMset kd rv rs) d.cursor) := by
  have hd := Mod.drain_issuing hsb
  have hh := Mod.holdsWord_issuing hsb h.word
  refine ⟨fun hs => ?_, fun hs ht => ?_, fun ht => ?_⟩
  · have hx := issue_of_exc h uses (bodyMcpy_srcFails (kd := kd) (ks := ks) (rs := rs) (x := x) hd hh (by rw [Mod.check_issuing, Mod.cd_issuing]; exact hs))
    rw [Mod.ck_issuing] at hx
    exact hx
  · have hx := issue_of_exc h uses (bodyMcpy_dstFails (kd := kd) (ks := ks) (rs := rs) (src := src) (x := x) hd hh
      (by rw [Mod.check_issuing, Mod.cd_issuing]; exact hs) (by rw [Mod.check_issuing, Mod.cd_issuing]; exact ht))
    rw [Mod.ck_issuing] at hx
    exact hx
  · have hx := issue_of_exc h uses (bodyMset_fails (kd := kd) (rs := rs) (x := x) rv hd hh (by rw [Mod.check_issuing, Mod.cd_issuing]; exact ht))
    rw [Mod.ck_issuing] at hx
    exact hx

variable (ht : ((s0.mod.fetched c).ck c kd).check (s0.mod.fetched c).node 0 ((s0.mod.fetched c).cd c rs) rST = .ok dst)
include ht

theorem mset_empty (hn : (s0.mod.fetched c).cd c rs = 0) : CoreBecomes (s0.fetched c).pending (s0.fetched c).mod c
    ((s0.fetched c).mod.core c).atIssue.next.retire { s0 with mod := s0.mod.issue c uses (bodyMset kd rv rs) } := by
  refine coreBecomes_of_seq h uses ((bodyMset_empty (rs := rs) (dst := dst) rv (Mod.drain_issuing hsb) (Mod.holdsWord_issuing hsb h.word)
    (by rw [Mod.check_issuing, Mod.cd_issuing]; exact ht) (by rw [Mod.cd_issuing]; exact hn)).trans rfl) ?_
  exact h.word

theorem mset_chunk (hn : (s0.mod.fetched c).cd c rs ≠ 0) (hl : (s0.mod.fetched c).isLocal dst = true) :
    let m := s0.mod.fetched c
    let len := Nat.min (m.cd c rs) (64 - dst % 64)
    ∀ m1, (m.issuing c).chunkWrite c (m.core c).sys (m.ck c kd).epoch dst (List.replicate len (BitVec.ofNat 8 (m.cd c rv))) [] = (m1, none) →
    let m2 := m1.chunkProgress c kd none rs len false
    (m2.core c).word = true →
      s0.mod.issue c uses (bodyMset kd rv rs) = m2.setCore c (if m2.cd c rs = 0 then (m2.core c).next.retire else { m2.core c with word := false }) := by
  intro m len m1 hw m2 hword
  have hb := bodyMset_chunk (rs := rs) (dst := dst) rv (Mod.drain_issuing hsb) (Mod.holdsWord_issuing hsb h.word)
    (by rw [Mod.check_issuing, Mod.cd_issuing]; exact ht) (by rw [Mod.cd_issuing]; exact hn)
  simp only [Mod.cd_issuing, Mod.ck_issuing] at hb
  rw [Mod.issue_ready h, hb, chunkOut_local ((Mod.isLocal_issuing _ _ _).trans hl) (by rw [Mod.core_issuing, Core.sys_atIssue]; exact hw)]
  exact settle_chunkEnd _ rs hword

variable (hs : ((s0.mod.fetched c).ck c ks).check (s0.mod.fetched c).node 0 ((s0.mod.fetched c).cd c rs) rLD = .ok src)
include hs

theorem mcpy_empty (hn : (s0.mod.fetched c).cd c rs = 0) : CoreBecomes (s0.fetched c).pending (s0.fetched c).mod c
    ((s0.fetched c).mod.core c).atIssue.next.retire { s0 with mod := s0.mod.issue c uses (bodyMcpy kd ks rs) } := by
  refine coreBecomes_of_seq h uses ((bodyMcpy_empty (rs := rs) (src := src) (dst := dst) (Mod.drain_issuing hsb) (Mod.holdsWord_issuing hsb h.word)
    (by rw [Mod.check_issuing, Mod.cd_issuing]; exact hs) (by rw [Mod.check_issuing, Mod.cd_issuing]; exact ht) (by rw [Mod.cd_issuing]; exact hn)).trans rfl) ?_
  exact h.word

theorem mcpy_self (hn : (s0.mod.fetched c).cd c rs ≠ 0) (hk : kd = ks) :
    let m := s0.mod.fetched c
    let k := (m.core c).atIssue
    CoreBecomes (s0.fetched c).pending m c
      ((k.setK k.level kd (m.filterKey ((m.ck c kd).advance (m.cd c rs)))).setD k.level rs 0).next.retire
      { s0 with mod := s0.mod.issue c uses (bodyMcpy kd ks rs) } := by
  intro m k
  have hb := bodyMcpy_self (rs := rs) (src := src) (dst := dst) (Mod.drain_issuing hsb) (Mod.holdsWord_issuing hsb h.word)
    (by rw [Mod.check_issuing, Mod.cd_issuing]; exact hs) (by rw [Mod.check_issuing, Mod.cd_issuing]; exact ht) (by rw [Mod.cd_issuing]; exact hn)
    (congrArg Fin.val hk)
  rw [Mod.ck_issuing, Mod.cd_issuing, Mod.setCk_issuing, Mod.setCd, Mod.core_setCore_self, Mod.setCore_setCore] at hb
  exact coreBecomes_of_seq h uses hb (by rw [Core.word_setD, Core.word_setK]; exact h.word)

theorem mcpy_chunk {m1 m2 : Mod} {data : List Byte} {n len so do_ : Nat} {desc : Bool} (hn : (s0.mod.fetched c).cd c rs = n) (hn0 : n ≠ 0)
    (hk : kd ≠ ks) (hl : (s0.mod.fetched c).isLocal src = true) (hdesc : (((s0.mod.fetched c).issuing c).core c).descends src dst n = desc)
    (hlen : (if desc then chunkDown (dst + n) (src + n) n false else chunkUp dst src n false) = len) (hso : (if desc then src + n - len else src) = so)
    (hdo : (if desc then dst + n - len else dst) = do_) :
    let m := s0.mod.fetched c
    let m0 := m.issuing c
    (m0.setCore c { m0.core c with copy := some ((m0.core c).level, (m0.core c).ip.cursor, desc) }).chunkRead
      (coreAcc c (m.core c).sys (m.ck c ks).epoch (so % 2 ^ 52) len .load) = (m1, .ok (data, false)) → m1.isLocal do_ = true →
    let keep := m1.keptGranules c so do_ len data ((m.ck c ks).has rLK) ((m.ck c kd).has rSK) ((m.ck c kd).has rSKL)
    m1.chunkWrite c (m1.core c).sys (m.ck c kd).epoch do_ data keep = (m2, none) →
    let m3 := m2.chunkProgress c kd (some ks.val) rs len desc
    (m3.core c).word = true →
      s0.mod.issue c uses (bodyMcpy kd ks rs) = m3.setCore c (if m3.cd c rs = 0 then (m3.core c).next.retire else { m3.core c with word := false }) := by
  intro m m0 hr hl' keep hw m3 hword
  have hb := bodyMcpy_chunk (m := m0) (c := c) (kd := kd) (ks := ks) (rs := rs) (src := src) (dst := dst) (m1 := m1) (data := data)
    (Mod.drain_issuing hsb) (Mod.holdsWord_issuing hsb h.word)
    (by rw [Mod.check_issuing, Mod.cd_issuing]; exact hs) (by rw [Mod.check_issuing, Mod.cd_issuing]; exact ht) ((Mod.cd_issuing _ _ _).trans hn) hn0
    (fun e => hk (Fin.ext e)) hl (Mod.ck_issuing _ _ _) (Mod.ck_issuing _ _ _) (by rw [Mod.core_issuing, Core.sys_atIssue]) hdesc hlen hso hdo hr
  rw [Mod.issue_ready h, hb.trans (chunkOut_local hl' hw)]
  exact settle_chunkEnd _ rs hword

end

/-- The length of a chunk by its direction. -/
theorem chunkLen_eq (desc : Bool) (src dst n : Nat) : (if desc then chunkDown (dst + n) (src + n) n false else chunkUp dst src n false) =
    Nat.min n (if !desc then 64 - dst % 64 else if (dst + n) % 64 = 0 then 64 else (dst + n) % 64) := by
  cases desc <;> rfl

theorem chunkLen_le (desc : Bool) (dst n : Nat) : Nat.min n (if !desc then 64 - dst % 64 else if (dst + n) % 64 = 0 then 64 else (dst + n) % 64) ≤ 64 := by
  refine (Nat.min_le_right _ _).trans ?_
  split_ifs <;> omega

theorem chunkPlace_eq (desc : Bool) (a n len : Nat) : (if desc then a + n - len else a) = if !desc then a else a + n - len := by
  cases desc <;> rfl

theorem chunkProgress_eq (m : Mod) (c kd ks rs len : Nat) (desc : Bool) : m.chunkProgress c kd (some ks) rs len desc =
    (let p := m.setCd c rs (m.cd c rs - len)
     let q := p.setCk c kd ((p.ck c kd).advance len)
     if !desc then q.setCk c ks ((q.ck c ks).advance len) else p) := by
  cases desc <;> rfl

/-- Settles O18. -/
theorem blockCopiesAdvanceByChunks : Obligations.BlockCopiesAdvanceByChunks := by
  refine ⟨fun s0 c kd ks rv rs src dst x m1 m2 data h => ?_, fun s0 c kd ks rv rs src dst h => ?_⟩
  · intro s hsb m0 d sk n raises
    have hraises := fun {uses : List RegName} => mcpy_raises (uses := uses) (src := src) (x := x) h kd ks rv rs hsb
    refine ⟨fun hs => ⟨_, rfl, rfl, hraises.1 hs⟩, fun hs ht => ⟨_, rfl, rfl, hraises.2.1 hs ht⟩, fun ht => ⟨_, rfl, rfl, hraises.2.2 ht⟩,
      fun hs ht hn hk hl => ?_⟩
    intro k0 fresh desc up len part hr hl' key keep
    refine ⟨fun o => Mod.mem_keptGranules (chunkLen_le desc dst n), ?_⟩
    intro hw p q m3 hword
    have hm3 := chunkProgress_eq m2 c kd ks rs len desc
    have hchunk := mcpy_chunk (uses := Instr.uses (.mcpy c kd ks rs)) (m1 := m1) (m2 := m2) (data := data) (desc := desc) (len := len) h kd ks rs hsb ht hs rfl hn hk hl rfl
      (chunkLen_eq desc src dst n) (chunkPlace_eq desc src n len) (chunkPlace_eq desc dst n len) hr hl' hw
    rw [hm3] at hchunk
    exact ⟨_, rfl, rfl, hchunk hword⟩
  · intro s hsb k d sk n ht
    refine ⟨fun hn => ⟨_, rfl, mset_empty h kd rv rs hsb ht hn⟩, fun hs => ⟨fun hn => ⟨_, rfl, mcpy_empty h kd ks rs hsb ht hs hn⟩,
      fun hn hk => ⟨_, rfl, mcpy_self h kd ks rs hsb ht hs hn hk⟩⟩, fun hn hl => ?_⟩
    intro len m hw m1 hword
    exact ⟨_, rfl, rfl, mset_chunk h kd rv rs hsb ht hn hl m hw hword⟩

end Sys2Proof.Machine

/-!
Floating point (R203, R204, R222, R224, R226, R227).
-/
namespace Sys2Proof.Machine

/-! ### The report of a cell fault changes no core -/

theorem Mod.cores_record (m : Mod) (r : FaultRec) : (m.record r).cores = m.cores := (m.reported_record r).cores

theorem Mod.cores_escCell (m : Mod) (l : List (Nat × Nat)) : ({ m with escCell := l } : Mod).cores = m.cores := rfl
theorem Mod.cores_escDue (m : Mod) (l : List (Option Nat × Bool × Nat)) : ({ m with escDue := l } : Mod).cores = m.cores := rfl

theorem Mod.cores_iff_escDue (m : Mod) (b : Bool) (l : List (Option Nat × Bool × Nat)) :
    (m.iff b (fun m => { m with escDue := m.escDue ++ l })).cores = m.cores := by
  cases b
  · rfl
  · exact Mod.cores_escDue m _

theorem Mod.cores_countCell (m : Mod) (g : Nat) : (m.countCell g).cores = m.cores := by
  unfold Mod.countCell
  split
  · exact Eq.refl m.cores
  · dsimp only
    rw [Mod.cores_iff_escDue, Mod.cores_escCell]

theorem Mod.cores_cellFault (m : Mod) (g cause index unit detail master : Nat) : (m.cellFault g cause index unit detail master).cores = m.cores := by
  rw [Mod.cellFault]
  split
  · exact Mod.cores_record _ _
  · rw [Mod.cores_countCell]
    split
    · exact Mod.iff_keeps (P := fun t => t.cores = m.cores) (f := fun m => m.count F.FLT_SUM_CELL_COUNT g) _ (Mod.count_cores _ _ _ _) rfl
    · exact Mod.cores_record _ _

/-! ### The core an operation leaves -/

/-- The core once an operation's result is written and its flags are set (R203). -/
def Core.fpDone (k : Core) (e : FpEff) : Core :=
  let k1 := if e.toD then k.setD k.level e.dst e.val else k.setFr k.level e.dst e.val
  { k1 with fpcsr := k1.fpcsr ||| BitVec.ofNat 32 (e.fl.bits * 8) }

theorem Core.fpDone_eq (k : Core) (e : FpEff) : k.fpDone e =
    { (if e.toD then k.setD k.level e.dst e.val else k.setFr k.level e.dst e.val) with
      fpcsr := (if e.toD then k.setD k.level e.dst e.val else k.setFr k.level e.dst e.val).fpcsr ||| BitVec.ofNat 32 (e.fl.bits * 8) } := rfl

/-- Two cores that take an exception in the same way. -/
structure Core.SameExc (k w : Core) : Prop where
  level : w.level = k.level
  excLevel : w.excLevel = k.excLevel
  active : w.active = k.active
  pendExc : w.pendExc = k.pendExc
  word : w.word = k.word

theorem Core.sameExc_setD (k : Core) (l r v : Nat) : k.SameExc (k.setD l r v) := by
  rw [Core.setD]
  split
  · exact ⟨rfl, rfl, rfl, rfl, rfl⟩
  · exact ⟨rfl, rfl, rfl, rfl, rfl⟩

theorem Core.sameExc_setFr (k : Core) (l r v : Nat) : k.SameExc (k.setFr l r v) := by
  rw [Core.setFr, Core.setFpOf]
  split
  · exact ⟨rfl, rfl, rfl, rfl, rfl⟩
  · exact ⟨rfl, rfl, rfl, rfl, rfl⟩

theorem Core.SameExc.fpcsr {k w : Core} (h : k.SameExc w) (v : BitVec 32) : k.SameExc { w with fpcsr := v } :=
  ⟨h.level, h.excLevel, h.active, h.pendExc, h.word⟩

theorem Core.sameExc_fpDone (k : Core) (e : FpEff) : k.SameExc (k.fpDone e) := by
  rw [Core.fpDone]
  refine Core.SameExc.fpcsr ?_ _
  split
  · exact k.sameExc_setD _ _ _
  · exact k.sameExc_setFr _ _ _

theorem FFlags.bits_lt (f : FFlags) : f.bits < 32 := by
  obtain ⟨nv, dz, of, uf, nx⟩ := f
  revert nv dz of uf nx
  decide

/-- The enables of FPCSR stay as flags are set. -/
theorem enables_or {n : Nat} (x : BitVec 32) (hn : n < 32) : bitsOf (x ||| BitVec.ofNat 32 (n * 8)).toNat 8 5 = bitsOf x.toNat 8 5 := by
  have hlt : n * 8 < 256 := by omega
  have h32 : n * 8 % 2 ^ 32 = n * 8 := Nat.mod_eq_of_lt (by omega)
  have hdiv : n * 8 / 2 ^ 8 = 0 := Nat.div_eq_of_lt (by omega)
  rw [BitVec.toNat_or, BitVec.toNat_ofNat, h32, bitsOf_eq_div, bitsOf_eq_div, Nat.or_div_two_pow, hdiv, Nat.or_zero]

theorem Core.fpOf_own {k : Core} {l : Nat} (h : k.fpres = l) : k.fpOf l = ⟨k.f, k.fpcsr⟩ := if_pos h

theorem Core.fpcsr_setFr {k : Core} {l : Nat} (r v : Nat) (h : k.fpres = l) : (k.setFr l r v).fpcsr = k.fpcsr := by
  rw [Core.setFr, Core.setFpOf, if_pos h, Core.fpOf_own h]
  rfl

theorem Core.fpcsr_setD (k : Core) (l r v : Nat) : (k.setD l r v).fpcsr = k.fpcsr := by
  rw [Core.setD]
  split <;> rfl

/-- The flags of an operation that FPCSR enables are the same before and after they are set. -/
theorem Core.enabled_fpDone {k : Core} (e : FpEff) (h : k.fpres = k.level) :
    bitsOf (k.fpDone e).fpcsr.toNat 8 5 = bitsOf k.fpcsr.toNat 8 5 := by
  rw [Core.fpDone]
  dsimp only
  rw [enables_or _ e.fl.bits_lt]
  split
  · rw [Core.fpcsr_setD]
  · rw [Core.fpcsr_setFr _ _ h]

theorem Core.fpres_fpOwn (k : Core) (l : Nat) : (k.fpOwn l).fpres = l := by
  rw [Core.fpOwn]
  split
  · next h => exact h
  · rfl

theorem Core.d_fpOwn (k : Core) (l l' r : Nat) : (k.fpOwn l).d l' r = k.d l' r := by
  rw [Core.fpOwn]
  split
  · rw [Core.d_setSt]
  · dsimp only
    rw [Core.d_setSt]
    split <;> rfl

/-! ### The end of an operation -/

/-- What an operation writes, and the imprecise exception of a flag that is enabled. -/
theorem Mod.fpWrite_setCore {m : Mod} {c fip : Nat} {k : Core} (e : FpEff) (h : k.fpres = k.level) :
    (m.setCore c k).fpWrite c fip e = if e.fl.bits &&& bitsOf k.fpcsr.toNat 8 5 ≠ 0 then
      (m.setCore c (k.fpDone e)).coreImprecise c k.level 0x07 0 fip 0 else m.setCore c (k.fpDone e) := by
  have hm : (if e.toD then (m.setCore c k).setCd c e.dst e.val else (m.setCore c k).setCf c e.dst e.val) =
      m.setCore c (if e.toD then k.setD k.level e.dst e.val else k.setFr k.level e.dst e.val) := by
    rw [Mod.setCd, Mod.setCf, Mod.core_setCore_self, Mod.setCore_setCore, Mod.setCore_setCore]
    split <;> rfl
  have hl : (if e.toD then k.setD k.level e.dst e.val else k.setFr k.level e.dst e.val).level = k.level := (k.sameExc_fpDone e).level
  have he := k.enabled_fpDone e h
  rw [Mod.fpWrite, hm, Mod.core_setCore_self, ← Core.fpDone_eq, Mod.setCore_setCore, Mod.enabledFlags, Mod.core_setCore_self, he, hl]

/-! ### The imprecise exception of an enabled flag -/

section
variable {m : Mod} {c fip : Nat} {w : Core}

/-- The core as a double fault at TB_MONO `t` halts it (R226). -/
def Core.faulted (w : Core) (t : Nat) : Core := { w with halted := true, haltAt := t, word := false }

/-- Without a level to wait at the core halts (R226). -/
theorem Mod.coreImprecise_doubleFault (hd : w.level = levelM ∨ (decide (w.handler 0x07 > w.level) = false ∧ w.active.contains levelM = true)) :
    (m.setCore c w).coreImprecise c w.level 0x07 0 fip 0 =
      (m.setCore c (w.faulted m.mono)).cellFault (coreRegion c) 0x01 c 0 (w.bank levelM).fip.toNat := by
  have hcond : (decide (w.level = levelM) || (!decide (w.handler 0x07 > w.level) && w.active.contains levelM)) = true := by
    rcases hd with h | ⟨h1, h2⟩
    · simp [h]
    · rw [h1, h2]
      simp
  rw [Mod.coreImprecise, Mod.core_setCore_self, if_pos hcond, Mod.doubleFault, Mod.core_setCore_self, Mod.setCore_setCore, Mod.mono_setCore]
  rfl

/-- What an imprecise exception of code `code` adds to those that wait: itself, at level `at_`, or LOST of the one of its code that waits there
already (R222, R224). -/
def Core.notedAt (w : Core) (at_ code orig fip : Nat) : Core :=
  let late := fun (x : PendExc) => x.level == at_ && bitsOf x.cause.toNat 0 8 == code && bitsOf x.cause.toNat 22 8 == orig
  if w.pendExc.any late then { w with pendExc := w.pendExc.map (fun x => if late x then { x with cause := x.cause ||| BitVec.ofNat 64 (2 ^ 38) } else x) }
  else { w with pendExc := w.pendExc ++ [⟨at_, BitVec.ofNat 64 (causeOf code 0 false false w.level orig 0 false), BitVec.ofNat 64 fip, 0⟩] }

/-- An imprecise arithmetic exception noted at its handler level, or escalated at M. -/
def Core.noted (w : Core) (fip : Nat) : Core :=
  if w.handler 0x07 > w.level then w.notedAt (w.handler 0x07) 0x07 0 fip else w.notedAt levelM 0x0B 0x07 fip

theorem Core.word_notedAt (w : Core) (at_ code orig fip : Nat) : (w.notedAt at_ code orig fip).word = w.word := by
  rw [Core.notedAt]
  split <;> rfl

theorem Core.word_noted (w : Core) (fip : Nat) : (w.noted fip).word = w.word := by
  rw [Core.noted]
  split <;> exact Core.word_notedAt _ _ _ _ _

theorem Mod.coreImprecise_noted (hl : w.level ≠ levelM) (hd : decide (w.handler 0x07 > w.level) = true ∨ w.active.contains levelM = false) :
    (m.setCore c w).coreImprecise c w.level 0x07 0 fip 0 = m.setCore c (w.noted fip) := by
  have hcond : ¬ (decide (w.level = levelM) || (!decide (w.handler 0x07 > w.level) && w.active.contains levelM)) = true := by
    rw [decide_eq_false hl, Bool.false_or, Bool.and_eq_true, Bool.not_eq_true']
    rintro ⟨h1, h2⟩
    rcases hd with h | h
    · rw [h] at h1
      cases h1
    · rw [h] at h2
      cases h2
  rw [Mod.coreImprecise, Mod.core_setCore_self, if_neg hcond, Core.noted]
  by_cases hup : w.handler 0x07 > w.level
  · simp only [hup, decide_true, Bool.not_true, Bool.false_eq_true, if_true, if_false, Core.notedAt]
    split_ifs
    · exact Mod.setCore_setCore _ _ _ _
    · exact Mod.setCore_setCore _ _ _ _
  · simp only [hup, decide_false, Bool.not_false, if_true, if_false, Core.notedAt]
    split_ifs
    · exact Mod.setCore_setCore _ _ _ _
    · exact Mod.setCore_setCore _ _ _ _

end

/-- The exception noted, said with propositions. -/
theorem Core.notedAt_eq {w : Core} {l : List PendExc} {v : Nat} (hl : w.pendExc = l) (hv : w.level = v) (at_ code orig fip : Nat) :
    let late := fun (x : PendExc) => x.level = at_ ∧ bitsOf x.cause.toNat 0 8 = code ∧ bitsOf x.cause.toNat 22 8 = orig
    w.notedAt at_ code orig fip = if ∃ x ∈ l, late x then
        { w with pendExc := w.pendExc.map (fun x => if late x then { x with cause := x.cause ||| BitVec.ofNat 64 (2 ^ 38) } else x) }
      else { w with pendExc := w.pendExc ++ [⟨at_, BitVec.ofNat 64 (causeOf code 0 false false v orig 0 false), BitVec.ofNat 64 fip, 0⟩] } := by
  intro late
  subst hl hv
  have hb : ∀ x : PendExc, (x.level == at_ && bitsOf x.cause.toNat 0 8 == code && bitsOf x.cause.toNat 22 8 == orig) = decide (late x) := by
    intro x
    simp only [late, Bool.decide_and, beq_eq_decide, Bool.and_assoc]
  rw [Core.notedAt]
  simp only [hb, List.any_eq_true, decide_eq_true_eq]

/-- The exception noted, said of the core before the result was written. -/
theorem Core.noted_eq {k w : Core} (h : k.SameExc w) (fip : Nat) :
    let up := decide (k.handler 0x07 > k.level)
    let at_ := if up then k.handler 0x07 else levelM
    let code := if up then 0x07 else 0x0B
    let orig := if up then 0 else 0x07
    let late := fun (x : PendExc) => x.level = at_ ∧ bitsOf x.cause.toNat 0 8 = code ∧ bitsOf x.cause.toNat 22 8 = orig
    w.noted fip = if ∃ x ∈ k.pendExc, late x then
        { w with pendExc := w.pendExc.map (fun x => if late x then { x with cause := x.cause ||| BitVec.ofNat 64 (2 ^ 38) } else x) }
      else { w with pendExc := w.pendExc ++ [⟨at_, BitVec.ofNat 64 (causeOf code 0 false false k.level orig 0 false), BitVec.ofNat 64 fip, 0⟩] } := by
  intro up at_ code orig late
  have hh : w.handler 0x07 = k.handler 0x07 := by rw [Core.handler, Core.handler, h.excLevel]
  have hn : w.noted fip = w.notedAt at_ code orig fip := by
    rw [Core.noted, hh, h.level]
    by_cases hup : k.handler 0x07 > k.level
    · simp only [at_, code, orig, up, hup, decide_true, if_true]
    · simp only [at_, code, orig, up, hup, decide_false, Bool.false_eq_true, if_false]
  exact hn.trans (Core.notedAt_eq h.pendExc h.level at_ code orig fip)

/-- A word that is over as its body ends has no further end. -/
theorem issue_of_over {m m' : Mod} {c : CoreId} (h : Ready m c) (uses : List RegName) {body : Body}
    (hb : body ((m.fetched c).issuing c) c = .seq m') (hw : (m'.core c).word = false) : m.issue c uses body = m' := by
  rw [Mod.issue_ready h, hb]
  simp [settle, IOut.mod, hw]

/-! ### An operation on a core that issues -/

theorem Mod.fpOwn_issuing (m : Mod) (c : Nat) : (m.issuing c).fpOwn c = m.setCore c ((m.core c).atIssue.fpOwn (m.core c).level) := by
  rw [Mod.fpOwn, Mod.core_issuing, Mod.setCore_issuing]
  rfl

section
variable {s0 : State} {c : CoreId} (h : Ready s0.mod c) {uses : List RegName} {f : Mod → Nat → FpEff} {e : FpEff} {k : Core}
  (hk : ((s0.mod.fetched c).core c).atIssue.fpOwn ((s0.mod.fetched c).core c).level = k) (he : f ((s0.mod.fetched c).setCore c k) c = e)

include hk in
theorem fpOwn_facts : k.fpres = k.level ∧ k.word = ((s0.mod.fetched c).core c).word ∧ k.ip = ((s0.mod.fetched c).core c).ip := by
  subst hk
  refine ⟨?_, (Core.word_fpOwn _ _).trans (Core.word_atIssue _), (Core.ip_fpOwn _ _).trans (Core.ip_atIssue _)⟩
  rw [Core.fpres_fpOwn, Core.level_fpOwn, Core.level_atIssue]

include hk he in
/-- An FP body by whether the flags trap. -/
theorem bodyFp_eq : bodyFp f ((s0.mod.fetched c).issuing c) c =
    if (k.stField k.level 20 1 == 1 && e.fl.bits &&& bitsOf k.fpcsr.toNat 8 5 != 0) = true then .exc ((s0.mod.fetched c).setCore c k) ⟨0x07, 0, 0⟩ false false
    else .seq (if e.fl.bits &&& bitsOf k.fpcsr.toNat 8 5 ≠ 0 then
      ((s0.mod.fetched c).setCore c (k.fpDone e)).coreImprecise c k.level 0x07 0 k.ip.cursor 0 else (s0.mod.fetched c).setCore c (k.fpDone e)) := by
  obtain ⟨hfp, -, -⟩ := fpOwn_facts hk
  rw [bodyFp, Mod.fpOwn_issuing, hk, he, Mod.fpTraps, Mod.enabledFlags, Mod.core_setCore_self, Mod.fpWrite_setCore e hfp]

variable {i : Instr} (hi : exec i s0 = .next { s0 with mod := s0.mod.issue c uses (bodyFp f) })
include h hk he hi

/-- An operation that signals no enabled flag. -/
theorem fp_quiet (hq : e.fl.bits &&& bitsOf k.fpcsr.toNat 8 5 = 0) :
    ∃ t, exec i s0 = .next t ∧ CoreBecomes (s0.fetched c).pending (s0.fetched c).mod c (k.fpDone e).next.retire t := by
  obtain ⟨-, hw, -⟩ := fpOwn_facts hk
  refine ⟨_, hi, coreBecomes_of_seq h uses ((bodyFp_eq hk he).trans ?_) ((k.sameExc_fpDone e).word.trans (hw.trans h.word))⟩
  rw [if_neg (by simp [hq]), if_neg (by simp [hq])]

variable (hq : ¬ (e.fl.bits &&& bitsOf k.fpcsr.toNat 8 5 = 0))
include hq

/-- One that signals an enabled flag with STATUS.PA. -/
theorem fp_trapped (hpa : k.stField k.level 20 1 = 1) : ∃ t, exec i s0 = .next t ∧ t.pending = s0.pending ∧
    t.mod = ((s0.mod.fetched c).setCore c k).coreExc c 0x07 0 0 k.ip.cursor := by
  obtain ⟨-, hw, hip⟩ := fpOwn_facts hk
  have hb := (bodyFp_eq hk he).trans (if_pos (by rw [hpa]; simpa using hq))
  have hx := issue_of_exc_mod h uses hb (by rw [Mod.core_setCore_self]; exact hw.trans h.word)
  rw [← hip] at hx
  exact ⟨_, hi, rfl, hx⟩

/-- One without, where the exception has a level to wait at. -/
theorem fp_noted (hpa : k.stField k.level 20 1 = 0) (hl : k.level ≠ levelM)
    (hd : decide (k.handler 0x07 > k.level) = true ∨ k.active.contains levelM = false) : ∃ t, exec i s0 = .next t ∧
    CoreBecomes (s0.fetched c).pending (s0.fetched c).mod c ((k.fpDone e).noted k.ip.cursor).next.retire t := by
  obtain ⟨-, hw, hip⟩ := fpOwn_facts hk
  have hs := k.sameExc_fpDone e
  have hword : ((k.fpDone e).noted k.ip.cursor).word = true := (Core.word_noted _ _).trans (hs.word.trans (hw.trans h.word))
  refine ⟨_, hi, coreBecomes_of_seq h uses ((bodyFp_eq hk he).trans ?_) hword⟩
  have hh : (k.fpDone e).handler 0x07 = k.handler 0x07 := by rw [Core.handler, Core.handler, hs.excLevel]
  have himp := Mod.coreImprecise_noted (m := s0.mod.fetched c) (c := c) (fip := k.ip.cursor) (w := k.fpDone e) (by rw [hs.level]; exact hl)
    (by rw [hh, hs.level, hs.active]; exact hd)
  rw [hs.level] at himp
  rw [if_neg (by simp [hpa]), if_pos hq, himp]

/-- One without, where it has none. -/
theorem fp_doubleFault (hpa : k.stField k.level 20 1 = 0)
    (hd : k.level = levelM ∨ (decide (k.handler 0x07 > k.level) = false ∧ k.active.contains levelM = true)) : ∃ t, exec i s0 = .next t ∧
    t.pending = s0.pending ∧ t.mod = ((s0.mod.fetched c).setCore c ((k.fpDone e).faulted (s0.mod.fetched c).mono)).cellFault
      (coreRegion c) 0x01 c 0 ((k.fpDone e).bank levelM).fip.toNat := by
  have hs := k.sameExc_fpDone e
  have hh : (k.fpDone e).handler 0x07 = k.handler 0x07 := by rw [Core.handler, Core.handler, hs.excLevel]
  have himp := Mod.coreImprecise_doubleFault (m := s0.mod.fetched c) (c := c) (fip := k.ip.cursor) (w := k.fpDone e)
    (by rw [hh, hs.level, hs.active]; exact hd)
  rw [hs.level] at himp
  refine ⟨_, hi, rfl, ?_⟩
  have hb : bodyFp f ((s0.mod.fetched c).issuing c) c = .seq (((s0.mod.fetched c).setCore c (k.fpDone e)).coreImprecise c k.level 0x07 0 k.ip.cursor 0) := by
    rw [bodyFp_eq hk he, if_neg (by simp [hpa]), if_pos hq]
  rw [himp] at hb
  refine issue_of_over h uses hb ?_
  rw [Mod.core, Mod.cores_cellFault, ← Mod.core, Mod.core_setCore_self]
  rfl

end

end Sys2Proof.Machine

/-!
The statement on floating point, operation by operation (R203, R204).
-/
namespace Sys2Proof.Machine

/-- What is claimed of an operation of a core that gives `w`, with flags `fl`. -/
def FpEnds (s0 : State) (c : CoreId) (k w : Core) (fl : FFlags) (i : Instr) : Prop :=
  let s := s0.fetched c
  let l := k.level
  let quiet := fl.bits &&& bitsOf k.fpcsr.toNat 8 5 = 0
  let trapped := ∃ t, exec i s0 = .next t ∧ t.pending = s.pending ∧ t.mod = (s.mod.setCore c k).coreExc c 0x07 0 0 k.ip.cursor
  let up := decide (k.handler 0x07 > l)
  let at_ := if up then k.handler 0x07 else levelM
  let code := if up then 0x07 else 0x0B
  let orig := if up then 0 else 0x07
  let late := fun (x : PendExc) => x.level = at_ ∧ bitsOf x.cause.toNat 0 8 = code ∧ bitsOf x.cause.toNat 22 8 = orig
  let noted := fun (k : Core) => { k with pendExc := k.pendExc ++ [⟨at_, BitVec.ofNat 64 (causeOf code 0 false false l orig 0 false), BitVec.ofNat 64 k.ip.cursor, 0⟩] }
  let lost := fun (k : Core) => { k with pendExc := k.pendExc.map (fun x => if late x then { x with cause := x.cause ||| BitVec.ofNat 64 (2 ^ 38) } else x) }
  (quiet → ∃ t, exec i s0 = .next t ∧ CoreBecomes s.pending s.mod c w.next.retire t) ∧
  (¬quiet → (k.stField l 20 1 = 1 → trapped) ∧
    (k.stField l 20 1 = 0 → l ≠ levelM → (up = true ∨ k.active.contains levelM = false) → ∃ t, exec i s0 = .next t ∧
      CoreBecomes s.pending s.mod c (if ∃ x ∈ k.pendExc, late x then lost w else noted w).next.retire t) ∧
    (k.stField l 20 1 = 0 → l = levelM ∨ (up = false ∧ k.active.contains levelM = true) → ∃ t, exec i s0 = .next t ∧ t.pending = s.pending ∧
      t.mod = (s.mod.setCore c { w with halted := true, haltAt := s.mod.mono, word := false }).cellFault (coreRegion c) 0x01 c 0 (w.bank levelM).fip.toNat))

section
variable {s0 : State} {c : CoreId} (h : Ready s0.mod c) {uses : List RegName} {f : Mod → Nat → FpEff} {e : FpEff} {k : Core}
  (hk : ((s0.mod.fetched c).core c).atIssue.fpOwn ((s0.mod.fetched c).core c).level = k) (he : f ((s0.mod.fetched c).setCore c k) c = e) {i : Instr}
  (hi : exec i s0 = .next { s0 with mod := s0.mod.issue c uses (bodyFp f) })
include h hk he hi

theorem fpEnds_fpDone (hip : (k.fpDone e).ip = k.ip) : FpEnds s0 c k (k.fpDone e) e.fl i := by
  refine ⟨fp_quiet h hk he hi, fun hq => ⟨fp_trapped h hk he hi hq, fun hpa hl hd => ?_, fp_doubleFault h hk he hi hq⟩⟩
  obtain ⟨t, ht, hb⟩ := fp_noted h hk he hi hq hpa hl hd
  rw [Core.noted_eq (k.sameExc_fpDone e) k.ip.cursor, ← hip] at hb
  exact ⟨t, ht, hb⟩

end

theorem Core.ip_setD (k : Core) (l r v : Nat) : (k.setD l r v).ip = k.ip := by
  rw [Core.setD]
  split <;> rfl

theorem Core.ip_setFr (k : Core) (l r v : Nat) : (k.setFr l r v).ip = k.ip := by
  rw [Core.setFr, Core.setFpOf]
  split <;> rfl

section
variable {s0 : State} {c : CoreId} (h : Ready s0.mod c) {uses : List RegName} {f : Mod → Nat → FpEff} {k : Core}
  (hk : ((s0.mod.fetched c).core c).atIssue.fpOwn ((s0.mod.fetched c).core c).level = k) (r v : Nat) (fl : FFlags) {i : Instr}
  (hi : exec i s0 = .next { s0 with mod := s0.mod.issue c uses (bodyFp f) })
include h hk hi

/-- An operation that writes an f register. -/
theorem fpEnds_f (he : f ((s0.mod.fetched c).setCore c k) c = ⟨false, r, v, fl⟩) :
    FpEnds s0 c k { k.setFr k.level r v with fpcsr := (k.setFr k.level r v).fpcsr ||| BitVec.ofNat 32 (fl.bits * 8) } fl i :=
  fpEnds_fpDone h hk he hi (Core.ip_setFr k k.level r v)

/-- An operation that writes a d register. -/
theorem fpEnds_d (he : f ((s0.mod.fetched c).setCore c k) c = ⟨true, r, v, fl⟩) :
    FpEnds s0 c k { k.setD k.level r v with fpcsr := (k.setD k.level r v).fpcsr ||| BitVec.ofNat 32 (fl.bits * 8) } fl i :=
  fpEnds_fpDone h hk he hi (Core.ip_setD k k.level r v)

end

/-! ### What the operations give -/

section
variable (m : Mod) (c : Nat) (k : Core)

theorem Mod.rm_setCore : (m.setCore c k).rm c = rmOf (bitsOf k.fpcsr.toNat 0 3) := by rw [Mod.rm, Mod.core_setCore_self]
theorem Mod.cf_setCore (r : Nat) : (m.setCore c k).cf c r = k.fr k.level r := by rw [Mod.cf, Mod.core_setCore_self]
theorem Mod.cd_setCore (r : Nat) : (m.setCore c k).cd c r = k.d k.level r := by rw [Mod.cd, Mod.core_setCore_self]
theorem Mod.fopnd_setCore (single : Bool) (r : Nat) :
    (m.setCore c k).fopnd c single r = if single then unbox (k.fr k.level r) else k.fr k.level r := by rw [Mod.fopnd, Mod.cf_setCore]

end

/-- The operand an f register gives in a format. -/
def Core.opnd (k : Core) (single : Bool) (r : Nat) : Nat := if single then unbox (k.fr k.level r) else k.fr k.level r

/-- The direction of a core's FPCSR. -/
def Core.dir (k : Core) : Rm := rmOf (bitsOf k.fpcsr.toNat 0 3)

section
variable (m : Mod) (c : Nat) (k : Core) (single : Bool) (fd fs1 fs2 : Nat)

theorem effFop_setCore (o : Fop) : effFop o single fd fs1 fs2 (m.setCore c k) c =
    ⟨false, fd, fres single (o.result (fmtOf single) k.dir (k.opnd single fs1) (k.opnd single fs2)).1,
      (o.result (fmtOf single) k.dir (k.opnd single fs1) (k.opnd single fs2)).2⟩ := by
  rw [effFop, Mod.rm_setCore, Mod.fopnd_setCore, Mod.fopnd_setCore]
  rfl

theorem effFma_setCore : effFma single fd fs1 fs2 (m.setCore c k) c =
    ⟨false, fd, fres single ((fmtOf single).fma k.dir (k.opnd single fd) (k.opnd single fs1) (k.opnd single fs2)).1,
      ((fmtOf single).fma k.dir (k.opnd single fd) (k.opnd single fs1) (k.opnd single fs2)).2⟩ := by
  rw [effFma, Mod.rm_setCore, Mod.fopnd_setCore, Mod.fopnd_setCore, Mod.fopnd_setCore]
  rfl

theorem effSqrt_setCore : effSqrt single fd fs1 (m.setCore c k) c =
    ⟨false, fd, fres single ((fmtOf single).sqrt k.dir (k.opnd single fs1)).1, ((fmtOf single).sqrt k.dir (k.opnd single fs1)).2⟩ := by
  rw [effSqrt, Mod.rm_setCore, Mod.fopnd_setCore]
  rfl

theorem effOfInt_setCore : effOfInt single fd fs1 (m.setCore c k) c =
    ⟨false, fd, fres single ((fmtOf single).ofInt k.dir (signedOf 64 (k.d k.level fs1))).1, ((fmtOf single).ofInt k.dir (signedOf 64 (k.d k.level fs1))).2⟩ := by
  rw [effOfInt, Mod.rm_setCore, Mod.cd_setCore]
  rfl

theorem effToDouble_setCore : effToDouble fd fs1 (m.setCore c k) c =
    ⟨false, fd, (fmt32.convert fmt64 k.dir (unbox (k.fr k.level fs1))).1, (fmt32.convert fmt64 k.dir (unbox (k.fr k.level fs1))).2⟩ := by
  rw [effToDouble, Mod.rm_setCore, Mod.fopnd_setCore]
  rfl

theorem effToSingle_setCore : effToSingle fd fs1 (m.setCore c k) c =
    ⟨false, fd, box (fmt64.convert fmt32 k.dir (k.fr k.level fs1)).1, (fmt64.convert fmt32 k.dir (k.fr k.level fs1)).2⟩ := by
  rw [effToSingle, Mod.rm_setCore, Mod.cf_setCore]
  rfl

theorem effMove_setCore (fn : Nat) : effMove fn fd fs1 (m.setCore c k) c =
    ⟨false, fd, if fn = 0 then k.fr k.level fs1 else if fn = 1 then fmt64.neg (k.fr k.level fs1) else fmt64.abs (k.fr k.level fs1), {}⟩ := by
  rw [effMove, Mod.cf_setCore]

theorem effMvF_setCore : effMvF fd fs1 (m.setCore c k) c = ⟨false, fd, k.d k.level fs1, {}⟩ := by rw [effMvF, Mod.cd_setCore]

theorem effMvX_setCore : effMvX fd fs1 (m.setCore c k) c = ⟨true, fd, k.fr k.level fs1, {}⟩ := by rw [effMvX, Mod.cf_setCore]

theorem effCmp_setCore (o : Fcmp) : effCmp o single fd fs1 fs2 (m.setCore c k) c =
    ⟨true, fd, (o.result (fmtOf single) (k.opnd single fs1) (k.opnd single fs2)).1, (o.result (fmtOf single) (k.opnd single fs1) (k.opnd single fs2)).2⟩ := by
  rw [effCmp, Mod.fopnd_setCore, Mod.fopnd_setCore]
  rfl

theorem effToInt_setCore : effToInt single fd fs1 (m.setCore c k) c =
    ⟨true, fd, wrapTo 64 ((fmtOf single).toIntIn k.dir (-9223372036854775808) (9223372036854775808 - 1) 0 (k.opnd single fs1)).1,
      ((fmtOf single).toIntIn k.dir (-9223372036854775808) (9223372036854775808 - 1) 0 (k.opnd single fs1)).2⟩ := by
  have hbig : ((2 ^ 63 : Nat) : Int) = 9223372036854775808 := by norm_num
  rw [effToInt, Mod.rm_setCore, Mod.fopnd_setCore, hbig]
  rfl

end

/-- The d registers of a level stay as its FP state becomes its own. -/
theorem Mod.d_own (m : Mod) (c r : Nat) :
    let k := (m.core c).atIssue.fpOwn (m.core c).level
    k.d k.level r = m.cd c r := by
  intro k
  rw [Core.d_fpOwn, Core.d_atIssue, Core.level_fpOwn, Core.level_atIssue, Mod.cd]

/-- Settles O19. -/
theorem floatingPointOperationsWriteResultAndFlags : Obligations.FloatingPointOperationsWriteResultAndFlags := by
  intro s0 c single fd fs1 fs2 rd rs1 h s k l fmt rm raw x y flags quiet none' trapped up at_ code orig late noted lost enabled
  have hf := fun {uses : List RegName} {f : Mod → Nat → FpEff} {i : Instr} {v : Nat} {fl : FFlags} hi he =>
    fpEnds_f (uses := uses) (f := f) (i := i) h (k := k) rfl fd v fl hi he
  have hd := fun {uses : List RegName} {f : Mod → Nat → FpEff} {i : Instr} {v : Nat} {fl : FFlags} hi he =>
    fpEnds_d (uses := uses) (f := f) (i := i) h (k := k) rfl rd v fl hi he
  have hcd : k.d k.level rs1 = s.mod.cd c rs1 := Mod.d_own _ _ _
  refine ⟨?_, ?_⟩
  · simp only [List.forall_mem_cons, List.not_mem_nil, false_imp_iff, implies_true, and_true]
    have hop := effFop_setCore (s0.mod.fetched c) c k single fd fs1 fs2
    have hmove := effMove_setCore (s0.mod.fetched c) c k fd fs1
    have hint := effOfInt_setCore (s0.mod.fetched c) c k single fd rs1
    have hmvF := effMvF_setCore (s0.mod.fetched c) c k fd rs1
    rw [hcd] at hint hmvF
    exact ⟨hf rfl (hop .add), hf rfl (hop .sub), hf rfl (hop .mul), hf rfl (hop .div), hf rfl (hop .min), hf rfl (hop .max),
      hf rfl (effFma_setCore _ _ _ _ _ _ _), hf rfl (effSqrt_setCore _ _ _ _ _ _), hf rfl hint, hf rfl (effToDouble_setCore _ _ _ _ _),
      hf rfl (effToSingle_setCore _ _ _ _ _), hf rfl (hmove 0), hf rfl (hmove 1), hf rfl (hmove 2), hf rfl hmvF⟩
  · intro nan sig nv big i
    simp only [List.forall_mem_cons, List.not_mem_nil, false_imp_iff, implies_true, and_true]
    have hcmp := effCmp_setCore (s0.mod.fetched c) c k single rd fs1 fs2
    exact ⟨hd rfl (hcmp .eq), hd rfl (hcmp .lt), hd rfl (hcmp .le), hd rfl (hcmp .un), hd rfl (effToInt_setCore _ _ _ _ _ _),
      hd rfl (effMvX_setCore _ _ _ _ _)⟩

end Sys2Proof.Machine

/-!
LOOP and REP (R187, R192, R193).
-/
namespace Sys2Proof.Machine

/-! ### LOOP -/

theorem toNat_eq_zero_iff {w : Nat} (x : BitVec w) : x.toNat = 0 ↔ x = 0 := (BitVec.toNat_eq (y := 0#w)).symm

@[simp] theorem Core.setLoopReg_mod (k : Core) (l x n v : Nat) : k.setLoopReg l x n (v % 2 ^ 64) = k.setLoopReg l x n v := by
  have h : BitVec.ofNat 64 (v % 2 ^ 64) = BitVec.ofNat 64 v := BitVec.eq_of_toNat_eq (by simp)
  simp only [Core.setLoopReg, h]

/-- The core whose loop `n` has the body of `imm` words after the word at ip and the count `cnt`. -/
def Core.looped (k : Core) (n imm cnt : Nat) : Core :=
  let w := k.ip.cursor
  ((k.setLoopReg k.level 0 n (w + 4)).setLoopReg k.level 1 n (w + 4 * imm)).setLoopReg k.level 2 n cnt

theorem Core.word_looped (k : Core) (n imm cnt : Nat) : (k.looped n imm cnt).word = k.word := rfl

section
variable {m : Mod} {c n rs1 imm : Nat}

theorem bodyLoop_eq (himm : imm ≠ 0)
    (hfree : ∀ j < 4, (m.core c).lact (m.core c).level j = true → j < n ∧ (m.core c).ip.cursor + 4 * imm ≤ (m.core c).loopReg (m.core c).level 1 j) :
    bodyLoop n rs1 imm m c =
      let k := m.core c
      if k.d k.level rs1 = 0 then .jump (m.setCore c (k.looped n imm (k.d k.level rs1))) (k.ip.advance (4 * imm + 4))
      else .jump (m.setCore c ((k.looped n imm (k.d k.level rs1)).setSt k.level n 1 1)) (k.ip.advance 4) := by
  have hany : (upTo 4).any (fun j => (m.core c).lact (m.core c).level j &&
      (decide (j ≥ n) || decide ((m.core c).loopReg (m.core c).level 1 j < (m.core c).ip.cursor + 4 * imm))) = false := by
    simp only [List.any_eq_false, Bool.and_eq_true, Bool.or_eq_true, decide_eq_true_eq, not_and, not_or]
    intro j hj ha
    have hj4 : j < 4 := List.mem_range.mp hj
    obtain ⟨hn, hle⟩ := hfree j hj4 ha
    omega
  simp only [bodyLoop, himm, hany, if_false, Bool.false_eq_true, Core.setLoopReg_mod]
  rfl

end

theorem loop_becomes {s : State} {c : CoreId} (h : Ready s.mod c) (uses : List RegName) {n : Fin 4} {rs1 : DReg} {imm : BitVec 14} (himm : imm ≠ 0)
    {k : Core} (hk : k = ((s.fetched c).mod.core c).atIssue)
    (hfree : ∀ j < 4, k.lact k.level j = true → j < n.val ∧ k.ip.cursor + 4 * imm.toNat ≤ k.loopReg k.level 1 j) :
    CoreBecomes (s.fetched c).pending (s.fetched c).mod c
      (if k.d k.level rs1 = 0 then { (k.looped n imm.toNat (k.d k.level rs1)).retire with ip := k.ip.advance (4 * imm.toNat + 4) }
        else { ((k.looped n imm.toNat (k.d k.level rs1)).setSt k.level n 1 1).retire with ip := k.ip.advance 4 })
      { s with mod := s.mod.issue c uses (bodyLoop n rs1 imm.toNat) } := by
  have hcore : ((s.mod.fetched c).issuing c).core c = k := by rw [Mod.core_issuing, hk, State.fetched_mod]
  have hw : k.word = true := by rw [hk, State.fetched_mod, Core.word_atIssue, h.word]
  have hb := bodyLoop_eq (m := (s.mod.fetched c).issuing c) (c := c) (n := n) (rs1 := rs1) (imm := imm.toNat)
    (fun h0 => himm ((toNat_eq_zero_iff imm).mp h0)) (by rw [hcore]; exact hfree)
  rw [hcore] at hb
  simp only [Mod.setCore_issuing] at hb
  by_cases hd : k.d k.level rs1 = 0
  · rw [if_pos hd] at hb ⊢
    exact coreBecomes_of_jump h uses hb (by rw [Core.word_looped, hw])
  · rw [if_neg hd] at hb ⊢
    exact coreBecomes_of_jump h uses hb (by rw [Core.word_setSt, Core.word_looped, hw])

/-! ### REP -/

/-- Whether the word at ip ends an active loop. -/
def Core.EndsLoop (k : Core) : Prop := ∃ j < 4, k.lact k.level j = true ∧ k.loopReg k.level 1 j = k.ip.cursor

/-- Whether REP with count register `r` may not repeat a target (R193). -/
def RepForbids (i : Option Instr) (r : Nat) : Prop := ∃ x, i = some x ∧ (repBody x = none ∨ (0, r) ∈ x.uses)

theorem Core.endsLoop_iff (k : Core) :
    ((upTo 4).any (fun n => k.lact k.level n && k.loopReg k.level 1 n == k.ip.cursor) = true) ↔ k.EndsLoop := by
  simp only [List.any_eq_true, Bool.and_eq_true, beq_iff_eq, Core.EndsLoop]
  exact ⟨fun ⟨j, hj, h⟩ => ⟨j, List.mem_range.mp hj, h⟩, fun ⟨j, hj, h⟩ => ⟨j, List.mem_range.mpr hj, h⟩⟩

theorem repForbids_some (x : Instr) (r : Nat) :
    ((((some x).bind fun a => repBody a).isNone || x.uses.contains (0, r)) = true) ↔ RepForbids (some x) r := by
  simp [RepForbids]

/-- Core `c` back at REP, unless its word is over. -/
def repBack (m : Mod) (c : Nat) (rep : Key) : Mod := if (m.core c).word then m.setCore c { m.core c with ip := rep } else m

/-- The end of REP after the body of its target, or for want of one: `k` is the core as REP began. -/
def repTarget (m : Mod) (c rs1 target : Nat) (k : Core) (body : Option Body) : IOut :=
  match body with
  | some b =>
    (match b m c with
    | .seq m => repDone m c rs1 k.ip
    | .exc m e pair slotB => .excAt (repBack m c k.ip) e (k.ip.cursor + 4) pair slotB
    | .sent m => .stay (m.setCore c { m.core c with
        ip := k.ip, waits := (m.core c).waits.map (fun x => if k.waits.contains x then x else { x with word := k.ip, rep := some rs1 }) })
    | .stay m => .stay (repBack m c k.ip)
    | o => o)
  | none => .excAt (repBack m c k.ip) ⟨0x01, 1, 0⟩ (k.ip.cursor + 4) (bitAt target 31) (bitAt target 31 && slotLegal (slotAt target 16))

section
variable {m : Mod} {c : CoreId} {r : DReg} {target : BitVec 32}

theorem decode_coreOf (c : CoreId) (target next : BitVec 32) :
    decodeWord ⟨c.val % 32, Nat.mod_lt _ (by decide)⟩ target.toNat next = decodeWord c target.toNat next := by
  have hc : (⟨c.val % 32, Nat.mod_lt _ (by decide)⟩ : CoreId) = c := Fin.ext (Nat.mod_eq_of_lt c.isLt)
  rw [hc]

/-- The body of REP by whether its target may be repeated here. -/
theorem bodyRep_eq (m : Mod) (c : CoreId) (r : DReg) (target : BitVec 32) :
    ((m.core c).EndsLoop ∨ RepForbids (decodeWord c target.toNat 0) r → bodyRep r target.toNat m c = illegal m 6) ∧
    (¬ (m.core c).EndsLoop → ¬ RepForbids (decodeWord c target.toNat 0) r → bodyRep r target.toNat m c =
      let k := m.core c
      if k.d k.level r = 0 then .seq (m.setCore c (k.atIp (k.ip.advance 4)))
      else
        match (m.setCore c (k.atIp (k.ip.advance 4))).fetchFault c with
        | (m, some e) => .excAt (repBack m c k.ip) e (k.ip.cursor + 4) false false
        | (m, none) =>
          if !(m.core c).word then .stay m
          else repTarget m c r target.toNat k ((decodeWord c target.toNat 0).bind repBody)) := by
  rw [bodyRep]
  simp only [decode_coreOf]
  constructor
  · rintro (h | ⟨x, hx, h⟩)
    · rw [if_pos ((Core.endsLoop_iff _).mpr h)]
    · simp only [hx]
      rw [if_pos ((repForbids_some x r).mpr ⟨x, rfl, h⟩), ite_self]
  · intro hends hforb
    rw [if_neg (fun h => hends ((Core.endsLoop_iff _).mp h))]
    cases hi : decodeWord c target.toNat 0 with
    | none => rfl
    | some x =>
      rw [hi] at hforb
      simp only
      rw [if_neg (fun h => hforb ((repForbids_some x r).mp h))]
      rfl

section
variable (hends : ¬ (m.core c).EndsLoop) (hforb : ¬ RepForbids (decodeWord c target.toNat 0) r)
include hends hforb

theorem bodyRep_skip (hd : (m.core c).d (m.core c).level r = 0) :
    bodyRep r target.toNat m c = .seq (m.setCore c ((m.core c).atIp ((m.core c).ip.advance 4))) := by
  rw [(bodyRep_eq m c r target).2 hends hforb]
  simp only [hd, if_true]

theorem bodyRep_runs (hd : (m.core c).d (m.core c).level r ≠ 0) {m1 : Mod}
    (hf : (m.setCore c ((m.core c).atIp ((m.core c).ip.advance 4))).fetchFault c = (m1, none)) (hw : (m1.core c).word = true) :
    bodyRep r target.toNat m c = repTarget m1 c r target.toNat (m.core c) ((decodeWord c target.toNat 0).bind repBody) := by
  rw [(bodyRep_eq m c r target).2 hends hforb]
  simp only [hd, if_false, hf, hw, Bool.not_true, Bool.false_eq_true]

end

end

/-! ### What REP leaves -/

/-- A fetch that meets no fault changes nothing but memory's caches. -/
theorem Mod.cached_fetchFault {m m1 : Mod} {c : Nat} (h : m.fetchFault c = (m1, none)) : m.Cached m1 := by
  rw [Mod.fetchFault] at h
  dsimp only at h
  split at h
  · cases h
  · split at h
    · cases h
    · split at h
      · cases h
      · split at h
        · obtain ⟨rfl, -⟩ := Prod.mk.inj h
          exact m.cached_setCore c rfl
        · rw [Mod.passGate] at h
          cases hg : m.gateTest (coreAcc c (m.core c).sys (m.core c).ip.epoch (_ % 2 ^ 52) 4 .fetch) with
          | some p => rw [hg] at h; cases h
          | none =>
            rw [hg] at h
            have h1 := congrArg Prod.fst h
            dsimp only at h1
            rw [apply_ite Prod.fst, ite_self] at h1
            dsimp only at h1
            exact h1 ▸ .iff _ (m.cached_l1Miss _ _ _ _ _)

theorem Core.d_uncached (k : Core) (l r : Nat) : k.uncached.d l r = k.d l r := rfl
theorem Core.level_uncached (k : Core) : k.uncached.level = k.level := rfl

/-- The registers of a core are as before where nothing but its L1 copies has changed. -/
theorem Core.d_eq_of_uncached {k k' : Core} (h : k.uncached = k'.uncached) (l r : Nat) : k.d l r = k'.d l r := by
  rw [← Core.d_uncached k, h, Core.d_uncached]

theorem Core.level_eq_of_uncached {k k' : Core} (h : k.uncached = k'.uncached) : k.level = k'.level := by
  rw [← Core.level_uncached k, h, Core.level_uncached]

theorem Core.d_atIp (k : Core) (ip : Key) (l r : Nat) : (k.atIp ip).d l r = k.d l r := rfl

theorem repBack_eq {m : Mod} {c : Nat} (rep : Key) (h : (m.core c).word = true) : repBack m c rep = m.setCore c ((m.core c).atIp rep) := by
  rw [repBack, if_pos h]
  rfl

/-- The core at the end of one repetition, which leaves the count `n` in `r`. -/
def Core.repeated (k : Core) (r n : Nat) : Core := (k.setD k.level r n).retire

/-- The core after a repetition: past the target where the count is used up, else back at REP. -/
def Core.afterRep (k : Core) (r : Nat) (rep : Key) : Core := if k.d k.level r = 0 then k.next.retire else k.atIp rep

/-- One more word completed, the present one not yet over. -/
def Core.counted (k : Core) : Core := { k with retired := k.retired + 1 }

theorem Core.next_counted (k : Core) : k.counted.next = k.retire.next := rfl
theorem Core.word_counted (k : Core) : k.counted.word = k.word := rfl
theorem Core.d_counted (k : Core) (r : Nat) : k.counted.d k.counted.level r = k.retire.d k.retire.level r := rfl

theorem repDone_eq {m : Mod} {c : Nat} (r : Nat) (rep : Key) (h : (m.core c).word = true) :
    repDone m c r rep =
      let t := m.setCd c r (m.cd c r - 1)
      let k := (t.core c).counted
      if (t.setCore c k).cd c r = 0 then .seq (t.setCore c k)
      else .stay ((t.setCore c k).setCore c (((t.setCore c k).core c).atIp rep)) := by
  rw [repDone, h]
  rfl

theorem settle_repDone {m : Mod} {c w : Nat} (r : Nat) (rep : Key) (h : (m.core c).word = true) :
    settle c w (repDone m c r rep) = m.setCore c (((m.core c).repeated r (m.cd c r - 1)).afterRep r rep) := by
  rw [repDone_eq r rep h]
  dsimp only
  rw [Mod.core_setCd_self, Core.repeated]
  generalize hx : (m.core c).setD (m.core c).level r (m.cd c r - 1) = x
  have hw : x.word = true := by rw [← hx, Core.word_setD, h]
  have ht : ∀ k : Core, (m.setCd c r (m.cd c r - 1)).setCore c k = m.setCore c k := fun k => m.setCore_setCore c _ _
  rw [ht, Mod.cd, Mod.core_setCore_self, Core.d_counted, Mod.setCore_setCore, Core.afterRep]
  by_cases h0 : x.retire.d x.retire.level r = 0
  · rw [if_pos h0, if_pos h0, settle_seq _ (by rw [Mod.core_setCore_self, Core.word_counted, hw]), Mod.core_setCore_self, Mod.setCore_setCore,
      Core.next_counted]
  · rw [if_neg h0, if_neg h0, settle_stay _ (by rw [Mod.core_setCore_self, Core.word_atIp, Core.word_counted, hw]), Mod.core_setCore_self,
      Mod.setCore_setCore]
    rfl

/-- The core that awaits the answer to a load repeated by the REP with key `rep` and count register `r`, which awaited `was` before. -/
def Core.repSent (k : Core) (rep : Key) (was : List Wait) (r : Nat) : Core :=
  { k with ip := rep, word := false, waits := k.waits.map (fun x => if was.contains x then x else { x with word := rep, rep := some r }) }

section
variable {s : State} {c : CoreId} {r : DReg} {target : BitVec 32} {k : Core} (h : Ready s.mod c) (uses : List RegName)
  (hk : k = ((s.fetched c).mod.core c).atIssue)
include h hk

theorem rep_forbidden (hf : k.EndsLoop ∨ RepForbids (decodeWord c target.toNat 0) r) :
    s.mod.issue c uses (bodyRep r target.toNat) = ((s.fetched c).mod.issuing c).coreExc c 0x01 6 0 k.ip.cursor := by
  have hcore : ((s.mod.fetched c).issuing c).core c = k := by rw [Mod.core_issuing, hk, State.fetched_mod]
  have hb := (bodyRep_eq ((s.mod.fetched c).issuing c) c r target).1 (by rw [hcore]; exact hf)
  have hx := issue_of_exc h uses hb
  rw [hk]
  exact hx

section
variable (hends : ¬ k.EndsLoop) (hforb : ¬ RepForbids (decodeWord c target.toNat 0) r)
include hends hforb

theorem rep_skips (hd : k.d k.level r = 0) :
    CoreBecomes (s.fetched c).pending (s.fetched c).mod c (k.atIp (k.ip.advance 4)).next.retire
      { s with mod := s.mod.issue c uses (bodyRep r target.toNat) } := by
  have hcore : ((s.mod.fetched c).issuing c).core c = k := by rw [Mod.core_issuing, hk, State.fetched_mod]
  have hb := bodyRep_skip (m := (s.mod.fetched c).issuing c) (c := c) (r := r) (target := target) (by rw [hcore]; exact hends) hforb
    (by rw [hcore]; exact hd)
  rw [hcore, Mod.setCore_issuing] at hb
  refine coreBecomes_of_seq h uses hb ?_
  rw [Core.word_atIp, hk, State.fetched_mod, Core.word_atIssue, h.word]

section
variable (hd : k.d k.level r ≠ 0) {m : Mod} (hm : ((s.fetched c).mod.setCore c (k.atIp (k.ip.advance 4))).fetchFault c = (m, none))
  (hw : (m.core c).word = true)
include hd hm hw

omit h in
theorem bodyRep_target : bodyRep r target.toNat ((s.mod.fetched c).issuing c) c =
    repTarget m c r target.toNat k ((decodeWord c target.toNat 0).bind repBody) := by
  have hcore : ((s.mod.fetched c).issuing c).core c = k := by rw [Mod.core_issuing, hk, State.fetched_mod]
  have hb := bodyRep_runs (m := (s.mod.fetched c).issuing c) (c := c) (r := r) (target := target) (by rw [hcore]; exact hends) hforb
    (by rw [hcore]; exact hd) (m1 := m) (by rw [hcore, Mod.setCore_issuing]; exact hm) hw
  rw [hcore] at hb
  exact hb

theorem rep_undecoded (hi : decodeWord c target.toNat 0 = none) :
    s.mod.issue c uses (bodyRep r target.toNat) = (m.setCore c ((m.core c).atIp k.ip)).coreExc c 0x01 1 0 (k.ip.cursor + 4)
      (bitAt target.toNat 31) (bitAt target.toNat 31 && slotLegal (slotAt target.toNat 16)) := by
  have hb := bodyRep_target hk hends hforb hd hm hw
  rw [hi] at hb
  rw [Mod.issue_ready h, hb]
  simp only [Option.bind_none, repTarget]
  rw [repBack_eq _ hw, settle_excAt _ _ _ _ _ (by rw [Mod.core_setCore_self, Core.word_atIp, hw])]

section
variable {x : Instr} {b : Body} (hi : decodeWord c target.toNat 0 = some x) (hx : repBody x = some b) {m1 : Mod} (hw1 : (m1.core c).word = true)
include hi hx hw1

omit hw1 in
theorem bodyRep_repeats : s.mod.issue c uses (bodyRep r target.toNat) =
    settle c ((s.mod.fetched c).core c).ip.cursor (repTarget m c r target.toNat k (some b)) := by
  have hb := bodyRep_target hk hends hforb hd hm hw
  rw [hi, Option.bind_some, hx] at hb
  rw [Mod.issue_ready h, hb]

theorem rep_repeats (hb : b m c = .seq m1) :
    CoreBecomes (s.fetched c).pending m1 c (((m1.core c).repeated r (m1.cd c r - 1)).afterRep r k.ip)
      { s with mod := s.mod.issue c uses (bodyRep r target.toNat) } := by
  rw [bodyRep_repeats h uses hk hends hforb hd hm hw hi hx, repTarget]
  simp only [hb]
  rw [settle_repDone _ _ hw1]
  exact coreBecomes_setCore _ _ _ _

theorem rep_faults {e : Exc} {pair slotB : Bool} (hb : b m c = .exc m1 e pair slotB) :
    s.mod.issue c uses (bodyRep r target.toNat) = (m1.setCore c ((m1.core c).atIp k.ip)).coreExc c e.code e.sub e.ea (k.ip.cursor + 4) pair slotB := by
  rw [bodyRep_repeats h uses hk hends hforb hd hm hw hi hx, repTarget]
  simp only [hb]
  rw [repBack_eq _ hw1, settle_excAt _ _ _ _ _ (by rw [Mod.core_setCore_self, Core.word_atIp, hw1])]

theorem rep_sends (hb : b m c = .sent m1) :
    CoreBecomes (s.fetched c).pending m1 c ((m1.core c).repSent k.ip k.waits r) { s with mod := s.mod.issue c uses (bodyRep r target.toNat) } := by
  rw [bodyRep_repeats h uses hk hends hforb hd hm hw hi hx, repTarget]
  simp only [hb]
  rw [settle_stay _ (by rw [Mod.core_setCore_self]; exact hw1), Mod.core_setCore_self, Mod.setCore_setCore]
  exact coreBecomes_setCore _ _ _ _

end

end

end

end

/-! ### REP of an integer operation -/

@[simp] theorem Core.level_setD (k : Core) (l r v : Nat) : (k.setD l r v).level = k.level := by
  unfold Core.setD
  split <;> rfl

theorem Core.d_retire (k : Core) (l r : Nat) : k.retire.d l r = k.d l r := rfl

/-- A change of core `c` from where `c` was changed alone. -/
theorem CoreBecomes.of_setCore {q : List Instr} {m : Mod} {c : Nat} {k k' : Core} {t : State} (h : CoreBecomes q (m.setCore c k') c k t) :
    CoreBecomes q m c k t := by
  obtain ⟨hq, hc, hne, hm⟩ := h
  exact ⟨hq, hc, fun c' h' => (hne c' h').trans (Mod.core_setCore_ne m k' h'), congrArg (fun x : Mod => { x with cores := m.cores }) hm⟩

/-- The fetch of the target leaves the count as it was. -/
theorem count_at_target {n m : Mod} {c r : Nat} {k : Core} (hd : k.d k.level r ≠ 0)
    (hm : (n.setCore c (k.atIp (k.ip.advance 4))).fetchFault c = (m, none)) : (m.core c).d (m.core c).level r ≠ 0 := by
  have hu : (m.core c).uncached = (k.atIp (k.ip.advance 4)).uncached := by
    rw [(Mod.cached_fetchFault hm).core c, Mod.core_setCore_self]
  rw [Core.d_eq_of_uncached hu, Core.level_eq_of_uncached hu, Core.d_atIp, Core.level_atIp]
  exact hd

section
variable {s : State} {c : CoreId} {r rd a b : DReg} {k : Core} (h : Ready s.mod c)
  (hk : k = ((s.fetched c).mod.core c).atIssue) (hends : ¬ k.EndsLoop) (hd : k.d k.level r ≠ 0) {m : Mod}
  (hm : ((s.fetched c).mod.setCore c (k.atIp (k.ip.advance 4))).fetchFault c = (m, none)) (hw : (m.core c).word = true)
  (hrd : rd ≠ r) (ha : a ≠ r) (hb : b ≠ r)
include h hk hends hd hm hw hrd ha hb

theorem rep_alu {x : Instr} {o : Alu} {v : BitVec 64} (hx : LurikWord c x) (hbody : repBody x = some (bodyAlu o rd a b))
    (huses : x.uses = [(0, rd.val), (0, a.val), (0, b.val)]) (hdec : decodeWord c (encodeWord x) 0 = some x)
    (hv : o.result (m.word c a).toNat (m.word c b).toNat = v.toNat) :
    ∃ t, exec (.rep c r (BitVec.ofNat 32 (encodeWord x))) s = .next t ∧
      CoreBecomes (s.fetched c).pending m c
        (if (m.core c).d (m.core c).level r = 1 then
          (((m.core c).setD (m.core c).level rd v.toNat).setD (m.core c).level r ((m.core c).d (m.core c).level r - 1)).retire.next.retire
        else (((m.core c).setD (m.core c).level rd v.toNat).setD (m.core c).level r ((m.core c).d (m.core c).level r - 1)).retire.atIp k.ip) t := by
  obtain ⟨hlt, -⟩ := lurikWordsRoundTrip x c hx
  have ht : decodeWord c (BitVec.ofNat 32 (encodeWord x)).toNat 0 = some x := by
    rw [BitVec.toNat_ofNat, Nat.mod_eq_of_lt hlt, hdec]
  have hforb : ¬ RepForbids (decodeWord c (BitVec.ofNat 32 (encodeWord x)).toNat 0) r := by
    rw [ht]
    rintro ⟨y, hy, hno⟩
    cases hy
    rw [hbody, huses] at hno
    simp only [reduceCtorEq, List.mem_cons, Prod.mk.injEq, true_and, List.not_mem_nil, or_false, false_or] at hno
    rcases hno with hno | hno | hno
    · exact hrd (Fin.ext hno.symm)
    · exact ha (Fin.ext hno.symm)
    · exact hb (Fin.ext hno.symm)
  have hseq : bodyAlu o rd a b m c = .seq (m.setCd c rd v.toNat) := by
    rw [← hv, Mod.toNat_word, Mod.toNat_word]
    rfl
  have hcore := Mod.core_setCd_self m c rd v.toNat
  have hne : (r : Nat) ≠ rd := fun he => hrd (Fin.ext he.symm)
  have hcount := count_at_target hd hm
  have hr0 : (r : Nat) ≠ 0 := fun he => hcount (by rw [he, Core.d_zero])
  have hlt64 := Core.d_lt (m.core c) (m.core c).level r
  refine ⟨_, rfl, ?_⟩
  have hrep := rep_repeats h (repUses c r (BitVec.ofNat 32 (encodeWord x))) hk hends hforb hd hm hw ht hbody
    (by rw [hcore, Core.word_setD, hw]) hseq
  rw [Mod.cd, hcore, Core.level_setD, Core.d_setD_ne _ _ _ hne] at hrep
  have hbecomes := CoreBecomes.of_setCore hrep
  rw [Core.repeated, Core.afterRep, Core.level_setD, Core.d_retire, Core.level_retire, Core.level_setD, Core.level_setD,
    Core.d_setD_self _ _ _ _ hr0] at hbecomes
  have hone : ((m.core c).d (m.core c).level r - 1) % 2 ^ 64 = 0 ↔ (m.core c).d (m.core c).level r = 1 := by
    rw [Nat.mod_eq_of_lt (by omega)]
    omega
  simp only [hone] at hbecomes
  exact hbecomes

end

/-- Settles O12. -/
theorem loopAndRepControlTheNextWord : Obligations.LoopAndRepControlTheNextWord := by
  refine ⟨?_, ?_, ?_⟩
  · intro s0 c n rs1 imm h s himm k w hfree k'
    exact ⟨_, rfl, loop_becomes h _ himm rfl hfree⟩
  · intro s0 c r target h s k w ends i forbidden rep at4 m atRep
    refine ⟨fun hf => ⟨_, rfl, rfl, rep_forbidden h _ rfl hf⟩, fun hends hforb hd => ⟨_, rfl, rep_skips h _ rfl hends hforb hd⟩,
      fun hends hforb hd hfetch hw => ?_⟩
    have hm : ((s0.fetched c).mod.setCore c (k.atIp (k.ip.advance 4))).fetchFault c = (m, none) := Prod.ext rfl hfetch
    refine ⟨fun hi => ⟨_, rfl, rfl, rep_undecoded h _ rfl hends hforb hd hm hw hi⟩, fun x b hi hx => ⟨?_, ?_, ?_⟩⟩
    · intro m1 hb hw1
      exact ⟨_, rfl, rep_repeats h _ rfl hends hforb hd hm hw hi hx hw1 hb⟩
    · intro m1 e pair slotB hb hw1
      exact ⟨_, rfl, rfl, rep_faults h _ rfl hends hforb hd hm hw hi hx hw1 hb⟩
    · intro m1 hb hw1
      exact ⟨_, rfl, rep_sends h _ rfl hends hforb hd hm hw hi hx hw1 hb⟩
  · intro s0 c r rd a b h s hrd ha hb k hno at4 m kt x y sh k1 hd hfetch hw
    have hends : ¬ k.EndsLoop := fun ⟨j, hj, he⟩ => hno j hj he
    have hm : ((s0.fetched c).mod.setCore c (k.atIp (k.ip.advance 4))).fetchFault c = (m, none) := Prod.ext rfl hfetch
    have halu := fun {i : Instr} {o : Alu} {v : BitVec 64} => rep_alu (x := i) (o := o) (v := v) h rfl hends hd hm hw hrd ha hb
    simp only [List.forall_mem_cons, List.not_mem_nil, false_imp_iff, implies_true, and_true]
    exact ⟨halu rfl rfl rfl (lurikWordsRoundTrip _ c rfl).2 (Alu.result_add x y), halu rfl rfl rfl (lurikWordsRoundTrip _ c rfl).2 (Alu.result_sub x y), halu rfl rfl rfl (lurikWordsRoundTrip _ c rfl).2 (Alu.result_and x y),
      halu rfl rfl rfl (lurikWordsRoundTrip _ c rfl).2 (Alu.result_or x y), halu rfl rfl rfl (lurikWordsRoundTrip _ c rfl).2 (Alu.result_xor x y), halu rfl rfl rfl (lurikWordsRoundTrip _ c rfl).2 (Alu.result_sll x _),
      halu rfl rfl rfl (lurikWordsRoundTrip _ c rfl).2 (Alu.result_srl x _), halu rfl rfl rfl (lurikWordsRoundTrip _ c rfl).2 (Alu.result_sra x _), halu rfl rfl rfl (lurikWordsRoundTrip _ c rfl).2 (Alu.result_slt x y),
      halu rfl rfl rfl (lurikWordsRoundTrip _ c rfl).2 (Alu.result_sltu x y), halu rfl rfl rfl (lurikWordsRoundTrip _ c rfl).2 (Alu.result_min x y), halu rfl rfl rfl (lurikWordsRoundTrip _ c rfl).2 (Alu.result_max x y),
      halu rfl rfl rfl (lurikWordsRoundTrip _ c rfl).2 (Alu.result_minu x y), halu rfl rfl rfl (lurikWordsRoundTrip _ c rfl).2 (Alu.result_maxu x y), halu rfl rfl rfl (lurikWordsRoundTrip _ c rfl).2 (Alu.result_mul x y)⟩

end Sys2Proof.Machine

/-!
Events, interrupts, responses and fills of a core (R213, R218 to R220, R225, R230, R233, R455).
-/
namespace Sys2Proof.Machine

/-! ### Latching and waking -/

section
variable {m : Mod} {c n : Nat}

/-- A source that a core takes becomes pending there (R230). -/
theorem Mod.evdArrive_latched (hin : (c, n) ∈ m.inFlight) (hl : m.latches c n = true) (hnew : ∀ e ∈ (m.core c).pendEv, e.1 ≠ n) :
    m.evdArrive c n = ({ m with inFlight := m.inFlight.erase (c, n) }).setCore c
      { m.core c with pendEv := (m.core c).pendEv ++ [(n, m.evdLevel c n)] } := by
  have hany : (m.core c).pendEv.any (·.1 == n) = false := by
    simp only [List.any_eq_false, beq_iff_eq]
    exact hnew
  have hcond : (({ m with inFlight := m.inFlight.erase (c, n) } : Mod).latches c n &&
      !((({ m with inFlight := m.inFlight.erase (c, n) } : Mod).core c).pendEv.any (·.1 == n))) = true := by
    show (m.latches c n && !((m.core c).pendEv.any (·.1 == n))) = true
    rw [hl, hany]
    rfl
  rw [Mod.evdArrive, if_pos (List.contains_iff_mem.mpr hin), Mod.evdLatch, if_pos hcond]
  rfl

end

/-! ### A request taken -/

theorem Mod.flag_spilled (m : Mod) (c l : Nat) (f : Fld) (i : Nat) : (m.spilled c l).flag f i = m.flag f i := by
  simp only [Mod.spilled]
  split
  · rfl
  · split <;> rfl

section
variable {m : Mod} {c l : Nat} {err : Bool}

/-- An entry that none supersedes and no other core denies takes the highest request (R213). -/
theorem Mod.interruptEntry_eq (x : EntrySpill) (hruns : m.coreRuns c = true) (hsup : m.superseding c = false)
    (hden : m.deniedClaim c x.same.toNat = none) : m.interruptEntry c x = m.enterHighest c x := by
  rw [Mod.interruptEntry, hruns, hsup, Mod.iff_false]
  dsimp only
  rw [hden]
  rfl

theorem Mod.enterHighest_prompt (same : BitVec 32) (hcalls : (m.core c).calls = true) :
    m.enterHighest c ⟨err, none, same⟩ = m.takeLevel c (maxLevel (m.core c).pendingLevels) err := by
  rw [Mod.enterHighest, if_neg (by rw [hcalls]; decide)]
  dsimp only
  rw [if_neg (by simp)]

/-- With no other core acting in the same cycle no claim is denied (R455). -/
theorem Mod.deniedClaim_zero : m.deniedClaim c 0 = none := by
  rw [Mod.deniedClaim]
  split
  · rfl
  · have hbit : ∀ i, bitAt 0 i = false := by
      intro i
      rw [bitAt_eq_testBit, Nat.zero_testBit]
    simp [hbit]

/-- A pending exception of the level is taken first (R213). -/
theorem Mod.takeLevel_exc {e : PendExc} (hspill : m.spillFails c l err = false) (he : (m.core c).pendExc.find? (·.level == l) = some e) :
    m.takeLevel c l err = (m.spilled c l).setCore c
      (Core.entering { m.core c with pendExc := (m.core c).pendExc.erase e } l e.cause.toNat e.fip.toNat e.faddr.toNat m.mono (some e) none) := by
  rw [Mod.takeLevel, if_neg (by simp [hspill]), he]
  exact Mod.noteEntry_enter m c l _ _ _ { m.core c with pendExc := (m.core c).pendExc.erase e } _ _

theorem Mod.takeLevel_fails (hspill : m.spillFails c l err = true) :
    m.takeLevel c l err = m.spillFailure c l (m.core c).ip.cursor := by
  rw [Mod.takeLevel, if_pos hspill]

/-- The lowest of the sources pending at a level. -/
theorem foldl_min_eq {l : List Nat} {n0 n : Nat} (h0 : n0 ∈ l) (hn : n ∈ l) (hle : ∀ x ∈ l, n ≤ x) : l.foldl Nat.min n0 = n := by
  refine Nat.le_antisymm ?_ ?_
  · have hdown : ∀ (l : List Nat) (a : Nat), l.foldl Nat.min a ≤ a ∧ ∀ x ∈ l, l.foldl Nat.min a ≤ x := by
      intro l
      induction l with
      | nil => exact fun a => ⟨Nat.le_refl a, fun x hx => absurd hx (List.not_mem_nil)⟩
      | cons y ys ih =>
        intro a
        obtain ⟨h1, h2⟩ := ih (a.min y)
        refine ⟨h1.trans (Nat.min_le_left a y), fun x hx => ?_⟩
        rcases List.mem_cons.mp hx with rfl | hx
        · exact h1.trans (Nat.min_le_right a x)
        · exact h2 x hx
    exact (hdown l n0).2 n hn
  · exact List.foldlRecOn (motive := fun a => n ≤ a) l Nat.min (hle n0 h0) (fun b hb a ha => Nat.le_min.mpr ⟨hb, hle a ha⟩)

/-- The sources pending at a level, of which `n` is the lowest. -/
theorem Core.lowest_source {k : Core} {l n : Nat} (hn : (n, l) ∈ k.pendEv) (hle : ∀ x ∈ k.pendEv, x.2 = l → n ≤ x.1) :
    ∃ n0, ((k.pendEv.filter (·.2 == l)).map Prod.fst).head? = some n0 ∧ ((k.pendEv.filter (·.2 == l)).map Prod.fst).foldl Nat.min n0 = n := by
  have hsrc : ∀ x, x ∈ (k.pendEv.filter (·.2 == l)).map Prod.fst ↔ (x, l) ∈ k.pendEv := by
    intro x
    simp only [List.mem_map, List.mem_filter, beq_iff_eq]
    exact ⟨fun ⟨⟨a, b⟩, ⟨h1, h2⟩, h3⟩ => by cases h2; cases h3; exact h1, fun h => ⟨(x, l), ⟨h, rfl⟩, rfl⟩⟩
  generalize (k.pendEv.filter (·.2 == l)).map Prod.fst = srcs at hsrc ⊢
  cases srcs with
  | nil => exact absurd ((hsrc n).mpr hn) (List.not_mem_nil)
  | cons n0 ns =>
    exact ⟨n0, rfl, foldl_min_eq (List.mem_cons_self) ((hsrc n).mpr hn) (fun x hx => hle _ ((hsrc x).mp hx) rfl)⟩

theorem Core.nextSource_eq {k : Core} {l n : Nat} (hexc : ∀ x ∈ k.pendExc, x.level ≠ l) (hn : (n, l) ∈ k.pendEv)
    (hle : ∀ x ∈ k.pendEv, x.2 = l → n ≤ x.1) : k.nextSource l = some n := by
  obtain ⟨n0, hhead, hmin⟩ := Core.lowest_source hn hle
  have hany : k.pendExc.any (·.level == l) = false := by
    simp only [List.any_eq_false, beq_iff_eq]
    exact hexc
  rw [Core.nextSource, hany, if_neg (by decide)]
  dsimp only
  rw [hhead, Option.map_some, hmin]

/-- A claim is denied of a first-claim source alone (R455). -/
theorem Mod.deniedClaim_free {n : Nat} (same : Nat) (hnext : (m.core c).nextSource (maxLevel (m.core c).pendingLevels) = some n)
    (h : m.flag F.EVR_ROUTE_HI_FIRST n = false) : m.deniedClaim c same = none := by
  rw [Mod.deniedClaim, hnext]
  dsimp only
  rw [h]
  rfl

/-- The core as the event of source `n` at level `l` is taken. -/
def Core.taking (k : Core) (l n : Nat) : Core :=
  { k with pendEv := k.pendEv.filter (·.1 != n), last := Tbl.set (0, false) k.last l (n, true) }

theorem Mod.takeLevel_event {n : Nat} (hspill : m.spillFails c l err = false) (hexc : ∀ x ∈ (m.core c).pendExc, x.level ≠ l)
    (hn : (n, l) ∈ (m.core c).pendEv) (hle : ∀ x ∈ (m.core c).pendEv, x.2 = l → n ≤ x.1) :
    m.takeLevel c l err = ((m.spilled c l).setCore c (((m.core c).taking l n).entering l (causeOf 0 0 false false (m.core c).level 0 n false)
      (m.core c).ip.cursor 0 m.mono none (some (n, Tbl.get (0, false) (m.core c).last l)))).claim c n := by
  have hfind : (m.core c).pendExc.find? (·.level == l) = none := by
    simp only [List.find?_eq_none, beq_iff_eq]
    exact hexc
  obtain ⟨n0, hhead, hmin⟩ := Core.lowest_source hn hle
  rw [Mod.takeLevel, if_neg (by simp [hspill]), hfind]
  dsimp only
  rw [hhead]
  dsimp only
  rw [hmin]
  exact congrArg (fun t : Mod => t.claim c n) (Mod.noteEntry_enter m c l _ _ _ ((m.core c).taking l n) _ _)

end

/-! ### What a failed spill keeps -/

theorem Core.pend_makeResident (k : Core) (l : Nat) : (k.makeResident l).pendExc = k.pendExc ∧ (k.makeResident l).pendEv = k.pendEv := by
  unfold Core.makeResident
  split
  · exact ⟨rfl, rfl⟩
  split
  · exact ⟨rfl, rfl⟩
  split <;> exact ⟨rfl, rfl⟩

theorem Core.pend_enter (k : Core) (l cause fip faddr : Nat) :
    (k.enter l cause fip faddr).pendExc = k.pendExc ∧ (k.enter l cause fip faddr).pendEv = k.pendEv := by
  obtain ⟨h1, h2⟩ := Core.pend_makeResident k.leaving l
  exact ⟨h1.trans rfl, h2.trans rfl⟩

theorem Core.pend_untagIp (k : Core) (l : Nat) : (k.untagIp l).pendExc = k.pendExc ∧ (k.untagIp l).pendEv = k.pendEv := by
  unfold Core.untagIp
  dsimp only
  split <;> exact ⟨rfl, rfl⟩

/-- M entered in place of a level whose spill failed; the requests stay pending (R225). -/
theorem Mod.spillFailure_enters {m : Mod} {c l fip : Nat} (hl : l ≠ (m.core c).level) (h8 : l ≠ levelM) :
    let k := (m.spillFailure c l fip).core c
    k.level = levelM ∧ (k.bank levelM).cause = BitVec.ofNat 64 (causeOf 0x0A 0 false false l 0 0 false) ∧ (k.bank l).ip.tag = false ∧
      k.pendExc = (m.core c).pendExc ∧ k.pendEv = (m.core c).pendEv := by
  intro k
  have hk : k = ((m.core c).untagIp l).enter levelM (causeOf 0x0A 0 false false l 0 0 false) fip 0 := Mod.core_setCore_self _ _ _
  have he := ((m.core c).untagIp l).entered_enter levelM (causeOf 0x0A 0 false false l 0 0 false) fip 0
  obtain ⟨h1, h2⟩ := Core.pend_enter ((m.core c).untagIp l) levelM (causeOf 0x0A 0 false false l 0 0 false) fip 0
  obtain ⟨h3, h4⟩ := Core.pend_untagIp (m.core c) l
  rw [hk]
  exact ⟨he.level, he.cause, Core.untagged_enter _ _ hl h8, h1.trans h3, h2.trans h4⟩

/-! ### The claim of a source -/

theorem Mod.claim_free {m : Mod} {c n : Nat} (h : m.flag F.EVR_ROUTE_HI_FIRST n = false) : m.claim c n = m := by
  rw [Mod.claim, h]
  rfl

theorem Mod.core_evdUnpend (m : Mod) (c n c' : Nat) :
    (m.evdUnpend c n).core c' = if c' = c then { m.core c with pendEv := (m.core c).pendEv.filter (·.1 != n) } else m.core c' := by
  by_cases h : c' = c
  · rw [h, if_pos rfl, Mod.evdUnpend, Mod.core_setCore_self]
  · rw [if_neg h, Mod.evdUnpend, Mod.core_setCore_ne _ _ h]

/-- A source taken from several cores is pending at none of them, and the others are as before. -/
theorem Mod.core_evdUnpend_each (l : List Nat) (m : Mod) (n c' : Nat) :
    (c' ∈ l → ∀ x ∈ ((m.each l (fun m c => m.evdUnpend c n)).core c').pendEv, x.1 ≠ n) ∧
    (c' ∉ l → (m.each l (fun m c => m.evdUnpend c n)).core c' = m.core c') := by
  induction l generalizing m with
  | nil => exact ⟨fun h => absurd h (List.not_mem_nil), fun _ => rfl⟩
  | cons c cs ih =>
    obtain ⟨hin, hout⟩ := ih (m.evdUnpend c n)
    constructor
    · intro hc x hx
      by_cases hcs : c' ∈ cs
      · exact hin hcs x hx
      · have hcc : c' = c := by simpa [hcs] using hc
        rw [show m.each (c :: cs) (fun m c => m.evdUnpend c n) = (m.evdUnpend c n).each cs (fun m c => m.evdUnpend c n) from rfl, hout hcs,
          Mod.core_evdUnpend, if_pos hcc] at hx
        simpa using (List.mem_filter.mp hx).2
    · intro hc
      obtain ⟨hne, hcs⟩ := not_or.mp (fun h => hc (List.mem_cons.mpr h))
      exact (hout hcs).trans (by rw [Mod.core_evdUnpend, if_neg hne])

/-- A first-claim source granted (R455). -/
theorem Mod.claim_first {m : Mod} {c n : Nat} (h : m.flag F.EVR_ROUTE_HI_FIRST n = true) (hc32 : c < 32) :
    (m.claim c n).core c = m.core c ∧ (m.claim c n).rd F.EVR_LAST_CLAIM_SOURCE = n % 256 ∧ (m.claim c n).rd F.EVR_LAST_CLAIM_CORE = c ∧
      ∀ c' < 32, c' ≠ c → ∀ x ∈ ((m.claim c n).core c').pendEv, x.1 ≠ n := by
  rw [Mod.claim, if_pos h]
  generalize hm : m.each ((upTo 32).filter (· != c)) (fun m c' => m.evdUnpend c' n) = m1
  have hcore : ∀ c', (((({ m1 with inFlight := m1.inFlight.filter (fun e => e.2 != n) } : Mod).wr F.EVR_LAST_CLAIM_SOURCE 0 n).wr
      F.EVR_LAST_CLAIM_CORE 0 c).put F.EVR_LAST_CLAIM_VALID 0 true).core c' = m1.core c' := fun _ => rfl
  obtain hmem : ∀ c', c' ∈ (upTo 32).filter (· != c) ↔ c' < 32 ∧ c' ≠ c := by
    intro c'
    rw [List.mem_filter, upTo, List.mem_range]
    simp
  have hself := (Mod.core_evdUnpend_each ((upTo 32).filter (· != c)) m n c).2 (fun hc => ((hmem c).mp hc).2 rfl)
  rw [hm] at hself
  refine ⟨(hcore c).trans hself, ?_, ?_, fun c' h32 hne x hx => ?_⟩
  · rw [Mod.put, Mod.rd_wr_apart _ _ _ _ _ (by decide) (by decide) (by decide), Mod.rd_wr_apart _ _ _ _ _ (by decide) (by decide) (by decide), Mod.rd_wr_self _ _ _ _ (by decide)]
    rfl
  · rw [Mod.put, Mod.rd_wr_apart _ _ _ _ _ (by decide) (by decide) (by decide), Mod.rd_wr_self _ _ _ _ (by decide)]
    exact Nat.mod_eq_of_lt hc32
  · rw [hcore] at hx
    have hin := (Mod.core_evdUnpend_each ((upTo 32).filter (· != c)) m n c').1 ((hmem c').mpr ⟨h32, hne⟩)
    rw [hm] at hin
    exact hin x hx

/-! ### Pending bits cleared by a write -/

theorem Mod.mem_evdUnpend (m : Mod) (c n : Nat) (e : Nat × Nat) : e ∈ ((m.evdUnpend c n).core c).pendEv ↔ e ∈ (m.core c).pendEv ∧ e.1 ≠ n := by
  rw [Mod.core_evdUnpend, if_pos rfl]
  simp only [List.mem_filter, bne_iff_ne]

/-- Source `n` cleared at core `c` by a write. -/
def Mod.clearPend (m : Mod) (c n : Nat) : Mod :=
  match (m.core c).pendEv.find? (·.1 == n) with
  | some e => (m.evdUnpend c n).iff (m.mayClaim c e.2) (fun m => m.claim c n)
  | none => m

theorem Mod.evdPendClear_eq (m : Mod) (c k bits : Nat) :
    m.evdPendClear c k bits = m.each (setBits 32 bits) (fun m j => m.clearPend c (32 * k + j)) := rfl

section
variable {m : Mod} (hfirst : ∀ n : Nat, m.flag F.EVR_ROUTE_HI_FIRST n = false)
include hfirst

theorem Mod.clearPend_eq (c n : Nat) : m.clearPend c n = m.evdUnpend c n ∨ (m.clearPend c n = m ∧ ∀ e ∈ (m.core c).pendEv, e.1 ≠ n) := by
  rw [Mod.clearPend]
  split
  · refine Or.inl ?_
    have hfree : (m.evdUnpend c n).claim c n = m.evdUnpend c n := Mod.claim_free (hfirst n)
    exact Mod.iff_keeps (P := fun t => t = m.evdUnpend c n) (f := fun m => m.claim c n) _ hfree rfl
  · next h =>
    simp only [List.find?_eq_none, beq_iff_eq] at h
    exact Or.inr ⟨rfl, h⟩

theorem Mod.flag_clearPend (c n n' : Nat) : (m.clearPend c n).flag F.EVR_ROUTE_HI_FIRST n' = false := by
  rcases Mod.clearPend_eq hfirst c n with h | ⟨h, -⟩
  · rw [h]
    exact hfirst n'
  · rw [h, hfirst]

theorem Mod.mem_clearPend (c n : Nat) (e : Nat × Nat) : e ∈ ((m.clearPend c n).core c).pendEv ↔ e ∈ (m.core c).pendEv ∧ e.1 ≠ n := by
  rcases Mod.clearPend_eq hfirst c n with h | ⟨h, hnone⟩
  · rw [h, Mod.mem_evdUnpend]
  · rw [h]
    exact ⟨fun he => ⟨he, hnone e he⟩, And.left⟩

/-- Of sources that are not first-claim those of the bits written are no longer pending (R230). -/
theorem Mod.mem_clearPend_each (l : List Nat) (c k : Nat) (e : Nat × Nat) :
    e ∈ ((m.each l (fun m j => m.clearPend c (32 * k + j))).core c).pendEv ↔ e ∈ (m.core c).pendEv ∧ ∀ j ∈ l, e.1 ≠ 32 * k + j := by
  induction l generalizing m with
  | nil => exact ⟨fun h => ⟨h, fun j hj => absurd hj (List.not_mem_nil)⟩, And.left⟩
  | cons j js ih =>
    refine (ih (m := m.clearPend c (32 * k + j)) (Mod.flag_clearPend hfirst c _)).trans ?_
    rw [Mod.mem_clearPend hfirst, List.forall_mem_cons, and_assoc]

end

theorem Mod.mem_evdPendClear {m : Mod} {c k : Nat} (bits : BitVec 32) (hfirst : ∀ n : Nat, m.flag F.EVR_ROUTE_HI_FIRST n = false) (e : Nat × Nat) :
    e ∈ ((m.evdPendClear c k bits.toNat).core c).pendEv ↔ e ∈ (m.core c).pendEv ∧ ¬(e.1 / 32 = k ∧ bits.getLsbD (e.1 % 32) = true) := by
  rw [Mod.evdPendClear_eq, Mod.mem_clearPend_each hfirst]
  refine and_congr_right fun _ => ?_
  have hbit : ∀ j, j ∈ setBits 32 bits.toNat ↔ j < 32 ∧ bits.getLsbD j = true := by
    intro j
    rw [setBits, List.mem_filter, List.mem_range, bitAt_eq_testBit]
    rfl
  constructor
  · rintro h ⟨hk, hb⟩
    exact h (e.1 % 32) ((hbit _).mpr ⟨Nat.mod_lt _ (by decide), hb⟩) (by omega)
  · intro h j hj he
    obtain ⟨h32, hb⟩ := (hbit j).mp hj
    exact h ⟨by omega, by rw [he, Nat.mul_add_mod, Nat.mod_eq_of_lt h32]; exact hb⟩

/-! ### Responses and fills -/

/-- The answer of an integer load writes its register and completes its word (R220). -/
theorem Mod.loadResponse_int {m : Mod} {c rd sz tags : Nat} {w : Wait} {sg : Bool} {d : List Byte}
    (hw : (m.core c).waits.find? (fun w => w.resp.isSome || w.fault.isSome) = some w) (hkind : w.kind = .int rd sz sg) (hfault : w.fault = none)
    (hresp : w.resp = some (d, tags, false)) (hrep : w.rep = none) :
    m.loadResponse c = m.setCore c (Core.retire (Core.setD { m.core c with waits := (m.core c).waits.filter (·.tid != w.tid) } w.level rd
      (extended (d.take sz) sg))) := by
  rw [Mod.loadResponse]
  dsimp only
  rw [hw]
  simp only [hfault, hresp, Option.isSome_none, Option.any_some, Bool.or_self, Bool.false_and, Bool.false_eq_true, if_false]
  rw [Mod.waitData, hkind]
  dsimp only
  rw [Mod.waitD, Mod.core_setCore_self, Mod.setCore_setCore, Mod.waitDone, Mod.core_setCore_self, hrep]
  exact Mod.setCore_setCore _ _ _ _

theorem dramTop_le_of_code {a g : Nat} (h : targetOf a = .code g) : ¬ a < dramTop := by
  intro hlt
  rw [targetOf, if_pos hlt] at h
  cases h

/-- A line of a code store that the core's gate takes whole comes first in its set of the L1 (R233). -/
theorem Mod.l1Miss_code {m : Mod} {c ln epoch g : Nat} {sys fetch : Bool} (ht : targetOf (64 * ln) = .code g)
    (hg : m.gateTest (coreAcc c sys epoch (64 * ln) 64 (if fetch then .fetch else .load)) = none) :
    m.l1Miss c ln epoch sys fetch = m.l1Fill c ln epoch fetch := by
  rw [Mod.l1Miss, decide_eq_false (dramTop_le_of_code ht)]
  simp only [Mod.iff_false, Bool.false_and, Bool.not_false, Bool.true_and, hg, Option.isNone_none, Mod.iff_true]

theorem Mod.l1Fill_rest (m : Mod) (c ln epoch : Nat) (fetch : Bool) :
    (m.l1Fill c ln epoch fetch).cores = (m.setCore c (if fetch then { m.core c with l1i := l1Touch (m.core c).l1i ln epoch }
      else { m.core c with l1d := l1Touch (m.core c).l1d ln epoch })).cores ∧
    (m.l1Fill c ln epoch fetch).mem = m.mem ∧ (m.l1Fill c ln epoch fetch).regs = m.regs := by
  rw [Mod.l1Fill]
  split <;> exact ⟨rfl, rfl, rfl⟩

theorem Mod.l1Fill_first (m : Mod) (c ln epoch : Nat) (fetch : Bool) :
    (if fetch then ((m.l1Fill c ln epoch fetch).core c).l1i else ((m.l1Fill c ln epoch fetch).core c).l1d).head? = some (ln, epoch) ∧
      (m.l1Fill c ln epoch fetch).mem = m.mem ∧ (m.l1Fill c ln epoch fetch).regs = m.regs := by
  obtain ⟨hc, hrest⟩ := m.l1Fill_rest c ln epoch fetch
  refine ⟨?_, hrest⟩
  rw [Mod.core, hc, ← Mod.core, Mod.core_setCore_self]
  cases fetch <;> rfl

/-! ### The statement -/

section
variable {s : State} {c : CoreId}

theorem interruptEntry_becomes {x : EntrySpill} {m' : Mod} {k : Core} (hm : s.mod.interruptEntry c x = m'.setCore c k) :
    ∃ t, exec (.interruptEntry c x) s = .next t ∧ CoreBecomes s.pending m' c k t := by
  refine ⟨_, rfl, ?_⟩
  show CoreBecomes s.pending m' c k { s with mod := s.mod.interruptEntry c x }
  rw [hm]
  exact coreBecomes_setCore _ _ _ _

/-- The highest request of a core that runs. -/
theorem interruptEntry_takes {m : Mod} {err : Bool} {same : BitVec 32} (hruns : m.coreRuns c = true) (hsup : m.superseding c = false)
    (hcalls : (m.core c).calls = true) (hden : m.deniedClaim c same.toNat = none) :
    m.interruptEntry c ⟨err, none, same⟩ = m.takeLevel c (maxLevel (m.core c).pendingLevels) err :=
  (Mod.interruptEntry_eq _ hruns hsup hden).trans (Mod.enterHighest_prompt same hcalls)

/-- A source that arrives during the entry and is above it supersedes it (R219). -/
theorem interruptEntry_late {m : Mod} {n : BitVec 8} (hruns : m.coreRuns c = true) (hsup : m.superseding c = false)
    (hcalls : (m.core c).calls = true) :
    let l := maxLevel (m.core c).pendingLevels
    let m1 := m.evdArrive c n.toNat
    let l' := maxLevel (m1.core c).pendingLevels
    l < l' → (m1.core c).takes l' (m1.core c).level = true → m1.spillFails c l = false →
      m.interruptEntry c ⟨false, some n, 0⟩ = (m1.supersede c l l').takeLevel c l' := by
  intro l m1 l' hl htakes hspill
  rw [Mod.interruptEntry_eq _ hruns hsup Mod.deniedClaim_zero, Mod.enterHighest, if_neg (by rw [hcalls]; decide)]
  dsimp only
  have hcond : (decide (l' > l) && (m1.core c).takes l' (m1.core c).level) = true := by rw [htakes, decide_eq_true hl]; rfl
  exact (if_pos hcond).trans (by rw [if_neg (by rw [hspill]; decide)])

theorem l1MissFill_fills {fetch : Bool} {line : BitVec 46} {epoch : BitVec 6} {g : Nat} (ht : targetOf (64 * line.toNat) = .code g)
    (hreset : (s.mod.core c).inReset = false) (hg : s.mod.gateTest (coreAcc c (s.mod.core c).sys epoch.toNat (64 * line.toNat) 64
      (if fetch then .fetch else .load)) = none) :
    exec (.l1MissFill c fetch line epoch) s = .next { s with mod := s.mod.l1Fill c line.toNat epoch.toNat fetch } := by
  refine congrArg (fun t : Mod => (Host.Outcome.next { s with mod := t } : Host.Outcome State Fault Refusal)) ((if_neg ?_).trans (Mod.l1Miss_code ht hg))
  rw [ht, hreset, hg]
  exact Bool.false_ne_true

end

/-- Settles O25: each event by the rule of its case. -/
theorem eventsReachTheirCore : Obligations.EventsReachTheirCore := by
  refine ⟨fun s c w => ?_, fun s c => ?_⟩
  · intro m k
    refine ⟨⟨_, rfl, rfl⟩, ?_, ?_, ?_, ?_, ?_, ?_⟩
    · intro src hin hl hnew
      have hm := Mod.evdArrive_latched hin hl hnew
      refine ⟨_, rfl, rfl, ?_, ?_, ?_⟩
      · exact (congrArg Mod.inFlight hm).trans rfl
      · exact (congrArg (fun t : Mod => (t.core c).pendEv) hm).trans (congrArg Core.pendEv (Mod.core_setCore_self _ _ _))
      · exact (congrArg Mod.regs hm).trans rfl
    · intro hwait hwakes hruns
      refine ⟨_, rfl, ?_⟩
      have hcond : (k.waiting && k.wakes && m.coreRuns c) = true := by rw [hwait, hwakes, hruns]; rfl
      show CoreBecomes s.pending m c _ { s with mod := m.iff (k.waiting && k.wakes && m.coreRuns c) _ }
      rw [hcond]
      exact coreBecomes_setCore _ _ _ _
    · intro e err hruns hsup hcalls he
      have htake := interruptEntry_takes (err := err) (same := 0) hruns hsup hcalls Mod.deniedClaim_zero
      rw [← he] at htake
      refine ⟨fun hspill hfind => interruptEntry_becomes (htake.trans (Mod.takeLevel_exc hspill hfind)), fun hspill hne => ⟨_, rfl, rfl, ?_⟩⟩
      have h8 : e.level ≠ levelM := fun h => by rw [h, Mod.spillFails_levelM] at hspill; cases hspill
      have hm := htake.trans (Mod.takeLevel_fails hspill)
      show ((m.interruptEntry c ⟨err, none, 0⟩).core c).level = levelM ∧ _
      have hfail := Mod.spillFailure_enters (m := m) (c := c) (fip := (m.core c).ip.cursor) hne h8
      rw [← hm] at hfail
      exact hfail
    · intro n err same hruns hsup hcalls l hspill hexc hn hle before entered
      have hnext : (m.core c).nextSource l = some n := Core.nextSource_eq hexc hn hle
      have htake := fun hden => (interruptEntry_takes (err := err) (same := same) hruns hsup hcalls hden).trans (Mod.takeLevel_event hspill hexc hn hle)
      have hflag : ∀ b, ((m.spilled c l).setCore c entered).flag F.EVR_ROUTE_HI_FIRST n = b ↔ m.flag F.EVR_ROUTE_HI_FIRST n = b := fun b => by
        rw [Mod.flag_setCore, Mod.flag_spilled]
      refine ⟨fun hfree => ?_, fun hfirst hden => ?_, fun hfirst hden => ?_⟩
      · exact interruptEntry_becomes ((htake (Mod.deniedClaim_free _ hnext hfree)).trans (Mod.claim_free ((hflag _).mpr hfree)))
      · have hm : m.interruptEntry c ⟨err, none, same⟩ = ((m.spilled c l).setCore c entered).claim c n := htake hden
        obtain ⟨hcore, hrest⟩ := Mod.claim_first ((hflag _).mpr hfirst) c.isLt
        rw [Mod.core_setCore_self] at hcore
        refine ⟨_, rfl, ?_⟩
        show (m.interruptEntry c ⟨err, none, same⟩).core c = entered ∧ _
        rw [← hm] at hcore hrest
        exact ⟨hcore, hrest⟩
      · refine ⟨_, rfl, ?_⟩
        show m.interruptEntry c ⟨err, none, same⟩ = _
        rw [Mod.interruptEntry, hruns, hsup, Mod.iff_false]
        dsimp only
        rw [hden, hcalls]
        rfl
    · intro n hruns hsup hcalls l m1 l' hl htakes hspill
      exact ⟨_, rfl, congrArg (fun t : Mod => ({ s with mod := t } : State)) (interruptEntry_late hruns hsup hcalls hl htakes hspill)⟩
    · intro j bits hfirst
      exact ⟨_, rfl, rfl, fun e => Mod.mem_evdPendClear bits hfirst e⟩
  · intro m k
    refine ⟨?_, ?_, ?_, ?_⟩
    · intro w rd sz sg d tags hw hkind hfault hresp hrep
      refine ⟨_, rfl, ?_⟩
      show CoreBecomes s.pending m c _ { s with mod := m.loadResponse c }
      rw [Mod.loadResponse_int hw hkind hfault hresp hrep]
      exact coreBecomes_setCore _ _ _ _
    · intro fetch line epoch g ht hreset hg
      exact ⟨_, l1MissFill_fills ht hreset hg, rfl, m.l1Fill_first c line.toNat epoch.toNat fetch⟩
    · intro word hready hdec
      refine ⟨_, rfl, rfl, ?_⟩
      have hx := issue_of_exc hready [] (body := fun m _ => .exc m ⟨0x01, 1, 0⟩ (bitAt word.toNat 31) (bitAt word.toNat 31 && slotLegal (slotAt word.toNat 16))) rfl
      dsimp only
      rw [hdec]
      exact hx
    · intro e m' hcan hbar hf
      refine ⟨_, rfl, rfl, ?_⟩
      have hcond : ¬ ((!m.canIssue c || k.barred []) = true) := by rw [hcan, hbar]; decide
      refine (if_neg hcond).trans ?_
      rw [hf]

end Sys2Proof.Machine

/-!
Field ports: reflectometry, links, counters and discrete states (R46 to R50, R53, R54).
-/
namespace Sys2Proof.Machine

/-! ### Registers and ports -/

theorem Mod.reg_of_regs {m t : Mod} (h : t.regs = m.regs) (r : Reg) (i : Nat) : t.reg r i = m.reg r i := by rw [Mod.reg, h, Mod.reg]
theorem Mod.rd_of_regs {m t : Mod} (h : t.regs = m.regs) (f : Fld) (i : Nat) : t.rd f i = m.rd f i := by rw [Mod.rd, Mod.reg_of_regs h, Mod.rd]
theorem Mod.flag_of_regs {m t : Mod} (h : t.regs = m.regs) (f : Fld) (i : Nat) : t.flag f i = m.flag f i := by
  rw [Mod.flag, Mod.rd_of_regs h, Mod.flag]
theorem Mod.port_of_ports {m t : Mod} (h : t.ports = m.ports) (p : Nat) : t.port p = m.port p := by rw [Mod.port, h, Mod.port]

@[simp] theorem Mod.rd_setPort (m : Mod) (p : Nat) (v : Port) (f : Fld) (i : Nat) : (m.setPort p v).rd f i = m.rd f i :=
  Mod.rd_of_regs (m.setPort_regs p v) f i
@[simp] theorem Mod.flag_setPort (m : Mod) (p : Nat) (v : Port) (f : Fld) (i : Nat) : (m.setPort p v).flag f i = m.flag f i :=
  Mod.flag_of_regs (m.setPort_regs p v) f i
@[simp] theorem Mod.effMode_setPort (m : Mod) (p : Nat) (v : Port) (p' : Nat) : (m.setPort p v).effMode p' = m.effMode p' :=
  m.rd_setPort p v _ p'
@[simp] theorem Mod.port_wr (m : Mod) (f : Fld) (i v p : Nat) : (m.wr f i v).port p = m.port p := Mod.port_of_ports (m.wr_ports f i v) p
@[simp] theorem Mod.port_put (m : Mod) (f : Fld) (i : Nat) (b : Bool) (p : Nat) : (m.put f i b).port p = m.port p :=
  Mod.port_of_ports (m.put_ports f i b) p
@[simp] theorem Mod.port_count (m : Mod) (f : Fld) (i k p : Nat) : (m.count f i k).port p = m.port p := Mod.port_of_ports (m.count_ports f i k) p

theorem Mod.setPort_setPort (m : Mod) (p : Nat) (v w : Port) : (m.setPort p v).setPort p w = m.setPort p w := by
  simp only [Mod.setPort, Tbl.set_set]

theorem Mod.Told.ports_eq {l : List (Reg × Nat)} {m t : Mod} (h : m.Told l t) : t.ports = m.ports := (congrArg Mod.ports h.rest :)

theorem Mod.Told.port_eq {l : List (Reg × Nat)} {m t : Mod} (h : m.Told l t) (p : Nat) : t.port p = m.port p := by
  rw [Mod.port, h.ports_eq, Mod.port]

theorem Mod.told_setReg (m : Mod) (r : Reg) (i v : Nat) {l : List (Reg × Nat)} (h : (r, i) ∈ l) : m.Told l (m.setReg r i v) :=
  ⟨rfl, fun r' i' hr => Mod.reg_setReg_ne m v (fun e => hr (by rw [e.1, e.2]; exact h))⟩

/-- A port's fault sets its sticky bit and may raise the block's event (R52). -/
theorem Mod.told_portFault (m : Mod) (p bit : Nat) : m.Told [(.PORT_FAULT, p), (.EVR_UNROUTED, 0)] (m.portFault p bit) := by
  have hset := m.told_setReg .PORT_FAULT p (withBits (m.reg .PORT_FAULT p) bit 1 1) (l := [(.PORT_FAULT, p), (.EVR_UNROUTED, 0)]) (by simp)
  rw [Mod.portFault]
  exact hset.trans (.iff _ ((Mod.told_raise _ _).mono (by simp)))

theorem testBit_withBits_one (n bit : Nat) : (withBits n bit 1 1).testBit bit = true := by
  rw [testBit_withBits]
  simp

theorem Mod.bitAt_portFault (m : Mod) (p : Nat) {bit : Nat} (h : bit < 64) : bitAt ((m.portFault p bit).reg .PORT_FAULT p) bit = true := by
  have hset : bitAt ((m.setReg .PORT_FAULT p (withBits (m.reg .PORT_FAULT p) bit 1 1)).reg .PORT_FAULT p) bit = true := by
    rw [Mod.reg_setReg_self, bitAt_eq_testBit, Nat.testBit_mod_two_pow, testBit_withBits_one]
    simpa using h
  rw [Mod.portFault]
  refine Mod.iff_keeps (P := fun t => bitAt (t.reg .PORT_FAULT p) bit = true) _ ?_ hset
  rw [(Mod.told_raise _ _).regs _ _ (by simp)]
  exact hset

/-- A port's fault keeps every field of other registers. -/
theorem Mod.flag_portFault (m : Mod) (p bit : Nat) {f : Fld} (i : Nat) (h : f.reg ∉ [.PORT_FAULT, .EVR_UNROUTED]) :
    (m.portFault p bit).flag f i = m.flag f i :=
  (m.told_portFault p bit).regs.flag_of_reg i h

theorem Mod.rd_portFault (m : Mod) (p bit : Nat) {f : Fld} (i : Nat) (h : f.reg ∉ [.PORT_FAULT, .EVR_UNROUTED]) :
    (m.portFault p bit).rd f i = m.rd f i :=
  (m.told_portFault p bit).regs.rd_of_reg i h

@[simp] theorem Mod.port_portFault (m : Mod) (p bit p' : Nat) : (m.portFault p bit).port p' = m.port p' := (m.told_portFault p bit).port_eq p'

/-- The end of a link changes the port's status and fault alone (R52). -/
theorem Mod.told_t1lDown (m : Mod) (p : Nat) : m.Told [(.PORT_STATUS, p), (.PORT_FAULT, p), (.EVR_UNROUTED, 0)] (m.t1lDown p) := by
  rw [Mod.t1lDown]
  split
  · exact (m.told_put _ _ _ (by simp [F.PORT_STATUS_LINK_UP])).trans ((Mod.told_portFault _ p 5).mono (by simp))
  · exact .refl _ m

theorem Mod.flag_t1lDown (m : Mod) (p : Nat) : (m.t1lDown p).flag F.PORT_STATUS_LINK_UP p = false := by
  rw [Mod.t1lDown]
  split
  · rw [Mod.flag_portFault _ _ _ _ (by decide), Mod.flag_put_self _ _ _ _ (by decide) rfl]
  · next h => exact Bool.eq_false_iff.mpr h

theorem onlyRegsChange_put (m : Mod) (f : Fld) (i : Nat) (b : Bool) : OnlyRegsChange [(f.reg, i)] m (m.put f i b) := ⟨onlyRegs_put m f i b, rfl⟩

theorem Mod.regs_past_trans {m n t : Mod} (h : { n with regs := m.regs, past := m.past } = m) (h' : { t with regs := n.regs, past := n.past } = n) :
    { t with regs := m.regs, past := m.past } = m :=
  Eq.trans (b := { n with regs := m.regs, past := m.past }) (congrArg (fun x : Mod => { x with regs := m.regs, past := m.past }) h' :) h

theorem OnlyRegsChange.trans {l : List (Reg × Nat)} {m n t : Mod} (h : OnlyRegsChange l m n) (h' : OnlyRegsChange l n t) : OnlyRegsChange l m t :=
  ⟨h.1.trans h'.1, Mod.regs_past_trans h.2 h'.2⟩

theorem OnlyRegsChange.mono {l l' : List (Reg × Nat)} {m t : Mod} (h : OnlyRegsChange l m t) (hl : l ⊆ l') : OnlyRegsChange l' m t :=
  ⟨h.1.mono hl, h.2⟩

/-! ### Reflectometry (R53, R54) -/

/-- With no command of a session in progress the end of a run answers none. -/
theorem Mod.tdrAnswer_idle {m : Mod} (p : Nat) (ok : Bool) (h : m.long = []) : m.tdrAnswer p ok = m := by
  rw [Mod.tdrAnswer, h]
  rfl

/-- Time alone. -/
theorem Mod.runNow_keeps {P : Mod → Prop} (hP : ∀ (m : Mod) (d : Nat), P m → P (m.advance d)) (t k : Nat) {m : Mod} (h : P m) : P (Mod.runNow t k m) := by
  induction k generalizing m with
  | zero => exact h
  | succ k ih =>
    rw [Mod.runNow]
    split
    · exact h
    · exact ih (hP _ _ h)

/-- A module without its clocks and what they carry. -/
def Mod.untimed (m : Mod) : Mod :=
  { m with mono := 0, now := 0, acc := 0, corr := 0, fallNow := [], heardNow := [], goose := { m.goose with keeper := 0 } }

theorem Mod.untimed_advance (m : Mod) (d : Nat) : (m.advance d).untimed = m.untimed := rfl

theorem Mod.untimed_toNow (m : Mod) (t : Nat) : (m.toNow t).untimed = m.untimed :=
  Mod.runNow_keeps (P := fun x => x.untimed = m.untimed) (fun x d h => (x.untimed_advance d).trans h) t 32 rfl

theorem Mod.untimed_toMono (m : Mod) (t : Nat) : (m.toMono t).untimed = m.untimed := by
  rw [Mod.toMono]
  split
  · rfl
  · exact Mod.untimed_advance m _

/-- An instant that has come needs no time. -/
theorem Mod.toNow_of_le {m : Mod} {t : Nat} (h : t ≤ m.now) : m.toNow t = m := by
  rw [Mod.toNow, Mod.runNow, if_pos h]

/-- The status of a run that has ended. -/
theorem tdr_ended {m : Mod} {p : Nat} {ab ok : Bool} (hlong : m.long = []) (hfrom : (m.port p).tdrFrom = none)
    (hab : m.flag F.PORT_TDR_RESULT_ABORTED p = ab) :
    let t := ((m.put F.PORT_STATUS_TDRBUSY p false).put F.PORT_STATUS_TDRDONE p true).tdrAnswer p ok
    (t.flag F.PORT_STATUS_TDRBUSY p = false ∧ t.flag F.PORT_STATUS_TDRDONE p = true ∧ t.flag F.PORT_TDR_RESULT_ABORTED p = ab ∧
      (t.port p).tdrFrom = none) ∧ t.tdrBuf = m.tdrBuf := by
  rw [Mod.tdrAnswer_idle p ok (by rw [Mod.put_long, Mod.put_long, hlong])]
  simp (disch := decide) only [Mod.flag_put_self, Mod.flag_put_of_apart, Mod.port_put, hab, hfrom]
  exact ⟨⟨trivial, trivial, trivial, trivial⟩, (Mod.put_tdrBuf _ _ _ _).trans (Mod.put_tdrBuf _ _ _ _)⟩

theorem Mod.tdrAbort_idle {m : Mod} {p : Nat} (h : (m.port p).tdrFrom = none) : m.tdrAbort p = m := by
  unfold Mod.tdrAbort
  rw [h]

theorem Mod.tdrEnd_idle {m : Mod} {p : Nat} (pts : List (BitVec 16)) (h : (m.port p).tdrFrom = none) : m.tdrEnd p pts = m := by
  unfold Mod.tdrEnd
  rw [h]

section
variable {m : Mod} {p : Nat}

theorem tdrAbort_ends {t0 : Nat} (h : (m.port p).tdrFrom = some t0) (hlong : m.long = []) :
    let t := m.tdrAbort p
    t.flag F.PORT_STATUS_TDRBUSY p = false ∧ t.flag F.PORT_STATUS_TDRDONE p = true ∧ t.flag F.PORT_TDR_RESULT_ABORTED p = true ∧
      (t.port p).tdrFrom = none := by
  obtain ⟨n, hm, hport, hnlong⟩ : ∃ n : Mod, m.tdrAbort p = (((n.put F.PORT_STATUS_TDRBUSY p false).put F.PORT_STATUS_TDRDONE p true).put
      F.PORT_TDR_RESULT_ABORTED p true).tdrAnswer p false ∧ (n.port p).tdrFrom = none ∧ n.long = [] := by
    unfold Mod.tdrAbort
    rw [h]
    generalize hx : m.fresh.2 = x
    have hxlong : x.long = [] := by rw [← hx]; exact hlong
    dsimp only
    rw [hx]
    generalize (List.range 16384).map _ = pts
    refine ⟨_, rfl, ?_, hxlong⟩
    exact congrArg Port.tdrFrom (Mod.port_setPort_self _ _ _)
  show (m.tdrAbort p).flag F.PORT_STATUS_TDRBUSY p = false ∧ _
  rw [hm, Mod.tdrAnswer_idle p false (by rw [Mod.put_long, Mod.put_long, Mod.put_long, hnlong])]
  simp (disch := decide) only [Mod.flag_put_self, Mod.flag_put_of_apart, Mod.port_put, hport, and_self]

theorem tdrEnd_ends {t0 : Nat} (pts : List (BitVec 16)) (h : (m.port p).tdrFrom = some t0) (hlong : m.long = []) :
    let t := m.tdrEnd p pts
    (t.flag F.PORT_STATUS_TDRBUSY p = false ∧ t.flag F.PORT_STATUS_TDRDONE p = true ∧ t.flag F.PORT_TDR_RESULT_ABORTED p = false ∧
      (t.port p).tdrFrom = none) ∧ Tbl.get [] t.tdrBuf (portBlock p) = pts.take 16384 := by
  obtain ⟨n, hn, hport, hnlong, hbuf⟩ : ∃ n : Mod, m.tdrEnd p pts =
      (((n.wr F.PORT_TDR_RESULT_INDEX p (largestPoint (pts.take 16384) 0 (65, 0)).1).put F.PORT_TDR_RESULT_NEG p
        (decide ((largestPoint (pts.take 16384) 0 (65, 0)).2 < 0))).put F.PORT_TDR_RESULT_ABORTED p false |>.put F.PORT_STATUS_TDRBUSY p false
        |>.put F.PORT_STATUS_TDRDONE p true).tdrAnswer p true ∧
      (n.port p).tdrFrom = none ∧ n.long = [] ∧ Tbl.get [] n.tdrBuf (portBlock p) = pts.take 16384 := by
    unfold Mod.tdrEnd
    rw [h]
    dsimp only
    generalize hx : m.toNow (t0 + 320000 * 2 ^ Nat.min 8 (m.rd F.PORT_TDR_CTRL_AVG p)) = x
    have hxlong : x.long = [] := by
      have hu := congrArg Mod.long (m.untimed_toNow (t0 + 320000 * 2 ^ Nat.min 8 (m.rd F.PORT_TDR_CTRL_AVG p)))
      rw [hx] at hu
      exact (hu :).trans hlong
    refine ⟨_, rfl, ?_, hxlong, Tbl.get_set_self _ _ _ _⟩
    exact congrArg Port.tdrFrom (Mod.port_setPort_self _ _ _)
  rw [hn]
  have hend := tdr_ended (m := ((n.wr F.PORT_TDR_RESULT_INDEX p (largestPoint (pts.take 16384) 0 (65, 0)).1).put F.PORT_TDR_RESULT_NEG p
    (decide ((largestPoint (pts.take 16384) 0 (65, 0)).2 < 0))).put F.PORT_TDR_RESULT_ABORTED p false) (p := p) (ab := false) (ok := true)
    (by rw [Mod.put_long, Mod.put_long, Mod.wr_long, hnlong]) (by rw [Mod.port_put, Mod.port_put, Mod.port_wr, hport]) (Mod.flag_put_self _ _ _ _ (by decide) rfl)
  obtain ⟨hflags, hb⟩ := hend
  refine ⟨hflags, ?_⟩
  rw [hb, Mod.put_tdrBuf, Mod.put_tdrBuf, Mod.wr_tdrBuf, hbuf]

theorem tdrRelease_frees (h : m.flag F.PORT_STATUS_TDRDONE p = true) :
    let t := m.tdrRelease p
    t.flag F.PORT_STATUS_TDRDONE p = false ∧ (m.rd F.PBLK_TDR_OWNER_PORT (portBlock p) = p % 32 → t.flag F.PBLK_TDR_OWNER_VALID (portBlock p) = false) ∧
      OnlyRegsChange [(.PORT_STATUS, p), (.PBLK_TDR_OWNER, portBlock p)] m t := by
  have hown : (m.put F.PORT_STATUS_TDRDONE p false).rd F.PBLK_TDR_OWNER_PORT (portBlock p) = m.rd F.PBLK_TDR_OWNER_PORT (portBlock p) :=
    Mod.rd_put_of_apart _ _ _ _ (by decide)
  have hput : OnlyRegsChange [(.PORT_STATUS, p), (.PBLK_TDR_OWNER, portBlock p)] m (m.put F.PORT_STATUS_TDRDONE p false) :=
    (onlyRegsChange_put m _ _ _).mono (by simp [F.PORT_STATUS_TDRDONE])
  by_cases ho : m.rd F.PBLK_TDR_OWNER_PORT (portBlock p) = p % 32
  · have hm : m.tdrRelease p = (m.put F.PORT_STATUS_TDRDONE p false).put F.PBLK_TDR_OWNER_VALID (portBlock p) false := by
      unfold Mod.tdrRelease
      rw [if_pos h]
      dsimp only
      rw [hown, ho, beq_self_eq_true, Mod.iff_true]
    rw [hm]
    simp (disch := decide) only [Mod.flag_put_self, Mod.flag_put_of_apart]
    exact ⟨trivial, fun _ => trivial, hput.trans ((onlyRegsChange_put _ _ _ _).mono (by simp [F.PBLK_TDR_OWNER_VALID]))⟩
  · have hm : m.tdrRelease p = m.put F.PORT_STATUS_TDRDONE p false := by
      unfold Mod.tdrRelease
      rw [if_pos h]
      dsimp only
      rw [hown, beq_eq_decide, decide_eq_false ho, Mod.iff_false]
    rw [hm]
    exact ⟨Mod.flag_put_self _ _ _ _ (by decide) rfl, fun h' => absurd h' ho, hput⟩

theorem tdrStart_runs (hfull : m.phase.full = true) (he : m.effMode p = 0 ∨ m.effMode p = 1) (hsb : m.asStandby = false)
    (hother : (m.flag F.PBLK_TDR_OWNER_VALID (portBlock p) && m.rd F.PBLK_TDR_OWNER_PORT (portBlock p) != p % 32) = false)
    (hfrom : (m.port p).tdrFrom = none) :
    let t := m.tdrStart p
    (t.port p).tdrFrom = some m.now ∧ t.flag F.PORT_STATUS_TDRBUSY p = true ∧ t.flag F.PORT_STATUS_TDRDONE p = false ∧
      t.flag F.PBLK_TDR_OWNER_VALID (portBlock p) = true ∧ t.rd F.PBLK_TDR_OWNER_PORT (portBlock p) = p % 32 ∧
      t.flag F.PORT_STATUS_LINK_UP p = false ∧ ∀ p', p' ≠ p → t.port p' = m.port p' := by
  intro t
  have hbar : ¬ ((m.effMode p ≠ 0 ∧ m.effMode p ≠ 1) ∨ m.asStandby = true ∨ (m.flag F.PBLK_TDR_OWNER_VALID (portBlock p) &&
      m.rd F.PBLK_TDR_OWNER_PORT (portBlock p) != p % 32) = true) := by
    rw [hsb, hother]
    rcases he with he | he <;> simp [he]
  have ht : t = (((((m.t1lDown p).setPort p { (m.t1lDown p).port p with tdrFrom := some (m.t1lDown p).now }).wr F.PBLK_TDR_OWNER_PORT (portBlock p)
      (p % 32)).put F.PBLK_TDR_OWNER_VALID (portBlock p) true).put F.PORT_STATUS_TDRBUSY p true).put F.PORT_STATUS_TDRDONE p false := by
    show m.tdrStart p = _
    unfold Mod.tdrStart
    dsimp only
    rw [if_neg (by rw [hfull]; decide), if_neg hbar, if_neg (by rw [hfrom]; decide)]
  have htold := m.told_t1lDown p
  rw [ht]
  simp (disch := decide) only [Mod.flag_put_self, Mod.flag_put_of_apart, Mod.flag_wr_of_apart, Mod.rd_put_of_apart, Mod.rd_wr_self, Mod.port_put,
    Mod.port_wr, Mod.flag_setPort, Mod.port_setPort_self, Mod.flag_t1lDown, htold.now_eq]
  refine ⟨trivial, trivial, trivial, trivial, ?_, trivial, fun p' hp => ?_⟩
  · exact Nat.mod_eq_of_lt (Nat.mod_lt _ (by decide))
  · rw [Mod.port_setPort_ne _ _ hp, htold.port_eq]

end

/-- Settles O33. -/
theorem reflectometryRunsOnePortOfABlock : Obligations.ReflectometryRunsOnePortOfABlock := by
  intro s p w pts t0 m q b other ended
  refine ⟨fun hfull => does_next rfl ?_, fun hfull he hsb hother hfrom => does_next rfl ?_, fun hfull hother => does_next rfl ?_,
    fun hfrom hlong => does_next rfl ?_, fun hfrom hlong => does_next rfl ?_, fun hfrom => ⟨does_next rfl ?_, does_next rfl ?_⟩,
    fun hdone => does_next rfl ?_, fun hdone => does_next rfl ?_⟩
  · exact if_pos (by rw [hfull]; rfl)
  · exact tdrStart_runs hfull he hsb hother hfrom
  · have hm : m.tdrStart p = m.portFault p 7 := by
      unfold Mod.tdrStart
      dsimp only
      rw [if_neg (by rw [hfull]; decide), if_pos (Or.inr (Or.inr hother))]
    show bitAt ((m.tdrStart p).reg .PORT_FAULT p) 7 = true ∧ _
    rw [show (fun m : Mod => m.tdrStart p) s.mod = m.portFault p 7 from hm, hm]
    have htold := m.told_portFault p 7
    exact ⟨m.bitAt_portFault p (by decide), htold.ports_eq, htold.regs⟩
  · exact tdrAbort_ends hfrom hlong
  · exact tdrEnd_ends pts hfrom hlong
  · exact Mod.tdrAbort_idle hfrom
  · exact Mod.tdrEnd_idle pts hfrom
  · exact tdrRelease_frees hdone
  · exact if_neg (by rw [hdone]; decide)

end Sys2Proof.Machine

/-!
Field ports: links, counted edges, quadrature and discrete states (R46 to R50).
-/
namespace Sys2Proof.Machine

/-! ### Counters (R48, R49) -/

theorem Mod.counter_eq (m : Mod) (p : Nat) : m.counter p = m.rd F.PORT_COUNT_LO_COUNT p + m.rd F.PORT_COUNT_HI_COUNT p * 2 ^ 32 := rfl

@[simp] theorem Mod.counter_setPort (m : Mod) (p : Nat) (v : Port) (p' : Nat) : (m.setPort p v).counter p' = m.counter p' := by
  simp only [Mod.counter_eq, Mod.rd_setPort]

theorem wrapTo_lt (w : Nat) (z : Int) : wrapTo w z < 2 ^ w := by
  have hpos : (0 : Int) < ((2 ^ w : Nat) : Int) := by exact_mod_cast Nat.two_pow_pos w
  have hlt := Int.emod_lt_of_pos z hpos
  rw [wrapTo]
  omega

theorem wrapTo_up (n : Nat) : wrapTo 64 ((n : Int) + 1) = (n + 1) % 2 ^ 64 := by
  rw [wrapTo]
  omega

theorem wrapTo_down (n : Nat) : wrapTo 64 ((n : Int) + -1) = (n + (2 ^ 64 - 1)) % 2 ^ 64 := by
  rw [wrapTo]
  omega

/-- A step counts, and is kept with its instant. -/
theorem Mod.countStep_counts (m : Mod) (p : Nat) (d : Int) :
    (m.countStep p d).counter p = wrapTo 64 ((m.counter p : Int) + d) ∧
      (m.countStep p d).port p = { m.port p with edges := (m.now, d) :: (m.port p).edges } ∧
      OnlyRegs [(.PORT_COUNT_LO, p), (.PORT_COUNT_HI, p)] m (m.countStep p d) := by
  have hlt := wrapTo_lt 64 ((m.counter p : Int) + d)
  unfold Mod.countStep
  generalize wrapTo 64 ((m.counter p : Int) + d) = v at hlt ⊢
  dsimp only
  refine ⟨?_, ?_, ?_⟩
  · rw [Mod.counter_setPort, Mod.counter_eq, Mod.rd_wr_of_apart _ _ _ _ (by decide), Mod.rd_wr_self _ _ _ _ (by decide),
      Mod.rd_wr_self _ _ _ _ (by decide)]
    show v % 2 ^ 32 + v / 2 ^ 32 % 2 ^ 32 * 2 ^ 32 = v
    omega
  · rw [Mod.port_setPort_self, Mod.port_wr, Mod.port_wr, Mod.wr_now, Mod.wr_now]
  · refine ((onlyRegs_wr m _ _ _).mono ?_).trans (((onlyRegs_wr _ _ _ _).mono ?_).trans (onlyRegs_of_regs (Mod.setPort_regs _ _ _)))
    · simp [F.PORT_COUNT_LO_COUNT]
    · simp [F.PORT_COUNT_HI_COUNT]

section
variable {m : Mod} {p : Nat} {high : Bool}

/-- A step of a port whose levels have just been noted. -/
theorem countStep_setPort (v : Port) (d : Int) (he : v.edges = (m.port p).edges) :
    ((m.setPort p v).countStep p d).counter p = wrapTo 64 ((m.counter p : Int) + d) ∧
      ((m.setPort p v).countStep p d).port p = { v with edges := (m.now, d) :: (m.port p).edges } ∧
      OnlyRegs [(.PORT_COUNT_LO, p), (.PORT_COUNT_HI, p)] m ((m.setPort p v).countStep p d) := by
  obtain ⟨hc, hp, hr⟩ := (m.setPort p v).countStep_counts p d
  rw [Mod.counter_setPort] at hc
  rw [Mod.port_setPort_self, Mod.setPort_now, he] at hp
  exact ⟨hc, hp, (onlyRegs_of_regs (Mod.setPort_regs m p v)).trans hr⟩

/-! ### Link mode (R46, R47) -/

theorem t1lUp_shows (hph : (m.port p).phase ≠ .reconf) (hph' : (m.port p).phase ≠ .check) (he : m.effMode p = 1) (hsb : m.asStandby = false)
    (hfrom : (m.port p).tdrFrom = none) (full : Bool) (sqi : BitVec 3) :
    let t := m.t1lUp p full sqi.toNat
    t.flag F.PORT_STATUS_LINK_UP p = true ∧ t.rd F.PORT_STATUS_SQI p = sqi.toNat ∧
      (m.rd F.PORT_LINK_CTRL_AMPL p = 1 → t.flag F.PORT_STATUS_AMPL_2V4 p = true) ∧
      (m.rd F.PORT_LINK_CTRL_AMPL p = 0 → t.flag F.PORT_STATUS_AMPL_2V4 p = full) ∧ OnlyRegsChange [(.PORT_STATUS, p)] m t := by
  intro t
  have ht : t = ((m.put F.PORT_STATUS_LINK_UP p true).put F.PORT_STATUS_AMPL_2V4 p (match m.rd F.PORT_LINK_CTRL_AMPL p with
      | 1 => true
      | 2 => false
      | _ => full)).wr F.PORT_STATUS_SQI p sqi.toNat := by
    refine if_neg ?_
    rw [he, hsb, hfrom]
    simp [hph, hph']
  have honly : OnlyRegsChange [(.PORT_STATUS, p)] m t := by
    rw [ht]
    generalize (match m.rd F.PORT_LINK_CTRL_AMPL p with
      | 1 => true
      | 2 => false
      | _ => full) = amp
    have hup : OnlyRegsChange [(.PORT_STATUS, p)] m (m.put F.PORT_STATUS_LINK_UP p true) := onlyRegsChange_put m F.PORT_STATUS_LINK_UP p true
    generalize m.put F.PORT_STATUS_LINK_UP p true = n at hup ⊢
    have hamp : OnlyRegsChange [(.PORT_STATUS, p)] n (n.put F.PORT_STATUS_AMPL_2V4 p amp) := onlyRegsChange_put n F.PORT_STATUS_AMPL_2V4 p amp
    generalize n.put F.PORT_STATUS_AMPL_2V4 p amp = n' at hamp ⊢
    exact (hup.trans hamp).trans (onlyRegsChange_wr n' F.PORT_STATUS_SQI p _)
  refine ⟨?_, ?_, fun ha => ?_, fun ha => ?_, honly⟩
  · rw [ht]
    simp (disch := decide) only [Mod.flag_put_self, Mod.flag_put_of_apart, Mod.flag_wr_of_apart]
  · rw [ht, Mod.rd_wr_self _ _ _ _ (by decide)]
    exact Nat.mod_eq_of_lt sqi.isLt
  · rw [ht, ha]
    simp (disch := decide) only [Mod.flag_put_self, Mod.flag_wr_of_apart]
  · rw [ht, ha]
    simp (disch := decide) only [Mod.flag_put_self, Mod.flag_wr_of_apart]

theorem t1lDown_shows (h : m.flag F.PORT_STATUS_LINK_UP p = true) :
    (m.t1lDown p).flag F.PORT_STATUS_LINK_UP p = false ∧ bitAt ((m.t1lDown p).reg .PORT_FAULT p) 5 = true ∧ (m.t1lDown p).ports = m.ports ∧
      OnlyRegs [(.PORT_STATUS, p), (.PORT_FAULT, p), (.EVR_UNROUTED, 0)] m (m.t1lDown p) := by
  have htold := m.told_t1lDown p
  refine ⟨m.flag_t1lDown p, ?_, htold.ports_eq, htold.regs⟩
  rw [Mod.t1lDown, if_pos h]
  exact Mod.bitAt_portFault _ p (by decide)

theorem frameGood_iff (fr : EthFrame) :
    frameGood fr = true ↔ fr.fcsOk = true ∧ 64 ≤ fr.bytes.length + 4 ∧ fr.bytes.length + 4 ≤ 1522 := by
  simp only [frameGood, Bool.and_eq_true, decide_eq_true_eq, and_assoc]
  exact and_congr_right fun _ => by omega

theorem t1lFrame_good {fr : EthFrame} (he : m.effMode p = 1) (hup : m.flag F.PORT_STATUS_LINK_UP p = true) (hg : frameGood fr = true) :
    m.t1lFrame p fr = m.switchReceive p fr := by
  rw [Mod.t1lFrame, if_neg (by rw [he, hup]; simp), hg, if_neg (by simp)]

theorem t1lFrame_bad {fr : EthFrame} (he : m.effMode p = 1) (hup : m.flag F.PORT_STATUS_LINK_UP p = true) (hg : ¬ frameGood fr = true) :
    m.t1lFrame p fr = m.count F.PORT_LINK_ERR_ERR p := by
  rw [Mod.t1lFrame, if_neg (by rw [he, hup]; simp), Bool.eq_false_iff.mpr hg, Bool.not_false, if_pos rfl]

/-! ### Pulse mode (R48) -/

theorem pulseEdge_ignored {per : Nat} (h : m.effMode p ≠ 7 ∨ per < Nat.max 1 (m.rd F.PORT_FILTER_MINPULSE p) ∨ high = (m.port p).levelA) :
    m.pulseEdge p high per = m := by
  refine if_pos ?_
  rcases h with h | h | h
  · exact .inl h
  · exact .inr (.inr (.inl h))
  · exact .inr (.inr (.inr h))

theorem pulseEdge_seen {per : Nat} (hph : (m.port p).phase ≠ .reconf) (he : m.effMode p = 7) (hper : Nat.max 1 (m.rd F.PORT_FILTER_MINPULSE p) ≤ per)
    (hl : high ≠ (m.port p).levelA) :
    m.pulseEdge p high per = if high then (m.setPort p { m.port p with levelA := high }).countStep p 1 else m.setPort p { m.port p with levelA := high } := by
  refine if_neg ?_
  rw [he]
  simp [hph, hl, Nat.not_lt.mpr hper]

/-! ### Quadrature mode (R49) -/

section
variable {l : Quad} (hph : (m.port p).phase ≠ .reconf) (he : m.effMode p = 10) (hp : p % 2 = 0)
include hph he hp

/-- The even port's counter, with channel B as it is seen. -/
theorem quadrature_even (b : Bool) (hb : b = if (m.port (p + 1)).phase == .reconf then (m.port p).levelB else l.b) :
    m.quadrature p l.a l.b =
      let t := m.setPort p { m.port p with levelA := l.a, levelB := b }
      if (l.a != (m.port p).levelA && b != (m.port p).levelB) = true then
        ((t.setPort p { t.port p with qerrs := t.now :: (m.port p).qerrs }).count F.PORT_LINK_ERR_ERR p).portFault p 6
      else if (l.a != (m.port p).levelA) = true then t.countStep p (if (l.a != (m.port p).levelB) = true then 1 else -1)
      else if (b != (m.port p).levelB) = true then t.countStep p (if (b == (m.port p).levelA) = true then 1 else -1)
      else t := by
  subst hb
  have hblind : ((m.port p).phase == .reconf) = false := beq_eq_false_iff_ne.mpr hph
  unfold Mod.quadrature
  rw [if_neg (by rw [he, hp]; decide)]
  dsimp only
  rw [hblind]
  rfl

theorem quadrature_a (ha : l.a ≠ (m.port p).levelA) (hb : l.b = (m.port p).levelB) :
    (m.quadrature p l.a l.b).counter p =
        (if l.a ≠ (m.port p).levelB then (m.counter p + 1) % 2 ^ 64 else (m.counter p + (2 ^ 64 - 1)) % 2 ^ 64) ∧
      ((m.quadrature p l.a l.b).port p).levelA = l.a ∧ OnlyRegs [(.PORT_COUNT_LO, p), (.PORT_COUNT_HI, p)] m (m.quadrature p l.a l.b) := by
  have hq := quadrature_even (l := l) hph he hp (m.port p).levelB (by rw [hb, ite_self])
  dsimp only at hq
  rw [if_neg (by simp), if_pos (by simpa using ha)] at hq
  rw [hq]
  obtain ⟨hc, hport, hr⟩ := countStep_setPort { m.port p with levelA := l.a, levelB := (m.port p).levelB }
    (if (l.a != (m.port p).levelB) = true then 1 else -1) rfl
  refine ⟨hc.trans ?_, by rw [hport], hr⟩
  by_cases hd : l.a = (m.port p).levelB
  · rw [if_neg (by simp [hd]), if_neg (by simp [hd]), wrapTo_down]
  · rw [if_pos (by simpa using hd), if_pos hd, wrapTo_up]

theorem quadrature_b (hbl : ((m.port (p + 1)).phase == .reconf) = false) (ha : l.a = (m.port p).levelA) (hb : l.b ≠ (m.port p).levelB) :
    (m.quadrature p l.a l.b).counter p =
        (if l.b = (m.port p).levelA then (m.counter p + 1) % 2 ^ 64 else (m.counter p + (2 ^ 64 - 1)) % 2 ^ 64) ∧
      ((m.quadrature p l.a l.b).port p).levelB = l.b ∧ OnlyRegs [(.PORT_COUNT_LO, p), (.PORT_COUNT_HI, p)] m (m.quadrature p l.a l.b) := by
  have hq := quadrature_even (l := l) hph he hp l.b (by rw [hbl]; rfl)
  dsimp only at hq
  rw [if_neg (by simp [ha]), if_neg (by simp [ha]), if_pos (by simpa using hb)] at hq
  rw [hq]
  obtain ⟨hc, hport, hr⟩ := countStep_setPort { m.port p with levelA := l.a, levelB := l.b }
    (if (l.b == (m.port p).levelA) = true then 1 else -1) rfl
  refine ⟨hc.trans ?_, by rw [hport], hr⟩
  by_cases hd : l.b = (m.port p).levelA
  · rw [if_pos (by simpa using hd), if_pos hd, wrapTo_up]
  · rw [if_neg (by simpa using hd), if_neg hd, wrapTo_down]

theorem quadrature_blind (hbl : ((m.port (p + 1)).phase == .reconf) = true) (ha : l.a = (m.port p).levelA) :
    (m.quadrature p l.a l.b).port p = m.port p ∧ (m.quadrature p l.a l.b).regs = m.regs := by
  have hq := quadrature_even (l := l) hph he hp (m.port p).levelB (by rw [hbl]; rfl)
  dsimp only at hq
  rw [if_neg (by simp), if_neg (by simp [ha]), if_neg (by simp)] at hq
  rw [hq, Mod.port_setPort_self, ha]
  exact ⟨rfl, Mod.setPort_regs _ _ _⟩

theorem quadrature_both (hbl : ((m.port (p + 1)).phase == .reconf) = false) (ha : l.a ≠ (m.port p).levelA) (hb : l.b ≠ (m.port p).levelB) :
    let t := m.quadrature p l.a l.b
    t.counter p = m.counter p ∧ t.rd F.PORT_LINK_ERR_ERR p = satAdd32 (m.rd F.PORT_LINK_ERR_ERR p) 1 ∧
      bitAt (t.reg .PORT_FAULT p) 6 = true ∧ (t.port p).levelA = l.a ∧ (t.port p).levelB = l.b := by
  have hq := quadrature_even (l := l) hph he hp l.b (by rw [hbl]; rfl)
  dsimp only at hq
  rw [if_pos (by simpa using ⟨ha, hb⟩), Mod.port_setPort_self, Mod.setPort_setPort] at hq
  intro t
  rw [show t = _ from hq]
  simp (disch := decide) only [Mod.counter_eq, Mod.rd_portFault, Mod.rd_count_of_apart, Mod.rd_count_self, Mod.rd_setPort, Mod.port_portFault,
    Mod.port_count, Mod.port_setPort_self, Mod.bitAt_portFault, and_self]

end

/-! ### Discrete modes (R50) -/

theorem settleDisc_none (h : (m.port p).pendDisc = none) : m.settleDisc p = m := by
  unfold Mod.settleDisc
  dsimp only
  rw [h]

theorem settleDisc_later {t0 : Nat} (h : (m.port p).pendDisc = some (high, t0)) (ht : m.now < t0 + m.debounce p) : m.settleDisc p = m := by
  unfold Mod.settleDisc
  dsimp only
  rw [h]
  exact if_neg (Nat.not_le.mpr ht)

theorem settleDisc_due {t0 : Nat} (h : (m.port p).pendDisc = some (high, t0)) (ht : t0 + m.debounce p ≤ m.now) :
    m.settleDisc p = m.setPort p { m.port p with pendDisc := none, disc := ⟨t0, t0 + m.debounce p, high⟩ :: (m.port p).disc } := by
  unfold Mod.settleDisc
  dsimp only
  rw [h]
  exact if_pos ht

@[simp] theorem Mod.debounce_setPort (m : Mod) (p : Nat) (v : Port) (p' : Nat) : (m.setPort p v).debounce p' = m.debounce p' := by
  rw [Mod.debounce, Mod.effMode_setPort, Mod.rd_setPort, Mod.debounce]

theorem discreteChange_other (he : m.effMode p ≠ 8) (he' : m.effMode p ≠ 9) : m.discreteChange p high = m :=
  if_pos (.inl ⟨he, he'⟩)

/-- A change of the input in a discrete mode, once what was due before it is settled. -/
theorem discreteChange_seen (he : m.effMode p = 8 ∨ m.effMode p = 9) (hph : (m.port p).phase ≠ .reconf) (hs : m.settleDisc p = m) :
    m.discreteChange p high =
      if high = (m.port p).discState then m.setPort p { m.port p with pendDisc := none, levelA := high }
      else (m.setPort p { m.port p with levelA := high, pendDisc := some ((m.port p).pendDisc.getD (high, m.now)) }).settleDisc p := by
  unfold Mod.discreteChange
  rw [if_neg (by rcases he with he | he <;> simp [he, hph])]
  dsimp only
  rw [hs]
  cases (m.port p).pendDisc with
  | none => rfl
  | some x => rfl

theorem discreteChange_back (he : m.effMode p = 8 ∨ m.effMode p = 9) (hph : (m.port p).phase ≠ .reconf) (hs : m.settleDisc p = m)
    (hh : high = (m.port p).discState) : m.discreteChange p high = m.setPort p { m.port p with pendDisc := none, levelA := high } := by
  rw [discreteChange_seen he hph hs, if_pos hh]

theorem discreteChange_new (he : m.effMode p = 8 ∨ m.effMode p = 9) (hph : (m.port p).phase ≠ .reconf) (hpend : (m.port p).pendDisc = none)
    (hh : high ≠ (m.port p).discState) :
    m.discreteChange p high = (m.setPort p { m.port p with levelA := high, pendDisc := some (high, m.now) }).settleDisc p := by
  rw [discreteChange_seen he hph (settleDisc_none hpend), if_neg hh, hpend, Option.getD_none]

theorem discreteChange_begins (he : m.effMode p = 8) (hph : (m.port p).phase ≠ .reconf) (hpend : (m.port p).pendDisc = none)
    (hh : high ≠ (m.port p).discState) (hd : m.debounce p ≠ 0) :
    m.discreteChange p high = m.setPort p { m.port p with levelA := high, pendDisc := some (high, m.now) } := by
  rw [discreteChange_new (.inl he) hph hpend hh]
  refine settleDisc_later (high := high) (t0 := m.now) (by rw [Mod.port_setPort_self]) ?_
  rw [Mod.setPort_now, Mod.debounce_setPort]
  omega

theorem discreteChange_at_once (he : m.effMode p = 8 ∨ m.effMode p = 9) (hph : (m.port p).phase ≠ .reconf) (hpend : (m.port p).pendDisc = none)
    (hh : high ≠ (m.port p).discState) (hd : m.debounce p = 0) :
    m.discreteChange p high = m.setPort p { m.port p with levelA := high, disc := ⟨m.now, m.now, high⟩ :: (m.port p).disc } := by
  rw [discreteChange_new he hph hpend hh, settleDisc_due (high := high) (t0 := m.now) (by rw [Mod.port_setPort_self])
    (by rw [Mod.debounce_setPort, hd, Mod.setPort_now]; exact Nat.le_refl _), Mod.setPort_setPort, Mod.port_setPort_self, Mod.debounce_setPort, hd,
    Nat.add_zero, ← hpend]

end

/-- Settles O30. -/
theorem linkPulseQuadratureAndDiscretePorts : Obligations.LinkPulseQuadratureAndDiscretePorts := by
  intro s p full sqi fr l high h t0 per m q e n blindB hph hph'
  refine ⟨fun he hsb hfrom => does_next rfl (t1lUp_shows hph hph' he hsb hfrom full sqi), fun hup => does_next rfl (t1lDown_shows hup),
    fun he hup hbad => does_next rfl (t1lFrame_bad he hup ?_), fun he hup hf h64 h1522 => ⟨does_next rfl (t1lFrame_good he hup ?_), does_next rfl rfl⟩,
    fun he hper hl => does_next rfl ?_, fun he hper hl => does_next rfl ?_, fun hi => does_next rfl (pulseEdge_ignored hi),
    fun he hp ha hb => does_next rfl (quadrature_a hph he hp ha hb), fun he hp hbl ha hb => does_next rfl (quadrature_b hph he hp hbl ha hb),
    fun he hp hbl ha => does_next rfl (quadrature_blind hph he hp hbl ha), fun _ hp => does_next rfl (if_pos (.inr hp)),
    fun he hp hbl ha hb => does_next rfl (quadrature_both hph he hp hbl ha hb), fun he => does_next rfl (if_pos (.inl he)),
    fun he hpend hh hd => does_next rfl (discreteChange_begins he hph hpend hh hd),
    fun he hpend hlt hh => does_next rfl ((discreteChange_back (.inl he) hph (settleDisc_later hpend hlt) hh).trans rfl),
    fun hpend hle => does_next rfl ?_, fun he hpend hh hd => does_next rfl ?_,
    fun he hpend hh => does_next rfl ?_, fun he => if_neg (by rw [show m.effMode p = 9 from he]; decide),
    fun he he' => does_next rfl (discreteChange_other he he')⟩
  · rw [frameGood_iff]
    rintro ⟨hf, h64, h1522⟩
    rcases hbad with hb | hb | hb
    · exact absurd (hb.symm.trans hf) (by decide)
    · exact absurd h64 (Nat.not_le.mpr hb)
    · exact absurd h1522 (Nat.not_le.mpr hb)
  · exact (frameGood_iff fr).mpr ⟨hf, h64, h1522⟩
  · have hseen := pulseEdge_seen (high := true) hph he hper (by rw [show (m.port p).levelA = false from hl]; decide)
    rw [if_pos rfl] at hseen
    obtain ⟨hc, hport, hr⟩ := countStep_setPort { m.port p with levelA := true } 1 rfl
    rw [← hseen, wrapTo_up] at hc
    rw [← hseen] at hport hr
    exact ⟨hc, congrArg Port.levelA hport, congrArg Port.edges hport, hr⟩
  · exact (pulseEdge_seen (high := false) hph he hper (by rw [show (m.port p).levelA = true from hl]; decide)).trans (if_neg (by decide))
  · show (match (m.port p).pendDisc with
      | some (_, t) => (m.toNow (t + m.debounce p)).settleDisc p
      | none => m) = _
    rw [show (m.port p).pendDisc = some (h, t0) from hpend]
    show (m.toNow (t0 + m.debounce p)).settleDisc p = _
    rw [Mod.toNow_of_le hle]
    exact settleDisc_due hpend hle
  · have hd' := discreteChange_at_once he hph hpend hh hd
    refine ⟨?_, ?_, fun p' hp' => ?_⟩
    · exact (congrArg (Mod.port · p) hd').trans (Mod.port_setPort_self _ _ _)
    · exact (congrArg Mod.regs hd').trans (Mod.setPort_regs _ _ _)
    · exact (congrArg (Mod.port · p') hd').trans (Mod.port_setPort_ne _ _ hp')
  · refine (discreteChange_back he hph (settleDisc_none hpend) hh).trans ?_
    rw [← show (m.port p).pendDisc = none from hpend]

end Sys2Proof.Machine

/-!
Field ports: conditions, the diagnostic scan and the HART carrier (R43 to R45, R52).
-/
namespace Sys2Proof.Machine

/-! ### A condition of a port (R52) -/

section
variable {m : Mod} {p : Nat} {f : Fld} {bit : Nat} {modes : List Nat} {present : Bool}

theorem condition_off (h : m.effMode p ∉ modes) : m.condition p f bit modes present = m := by
  refine if_pos ?_
  simpa using h

theorem condition_on (h : m.effMode p ∈ modes) :
    m.condition p f bit modes present = (m.put f p present).iff (present && !m.flag f p) (fun m => m.portFault p bit) := by
  refine if_neg ?_
  simpa using h

theorem told_condition (hf : f.reg = .PORT_STATUS) :
    m.Told [(.PORT_STATUS, p), (.PORT_FAULT, p), (.EVR_UNROUTED, 0)] (m.condition p f bit modes present) := by
  by_cases h : m.effMode p ∈ modes
  · rw [condition_on h]
    exact (m.told_put f p present (by simp [hf])).trans (.iff _ ((Mod.told_portFault _ p bit).mono (by simp)))
  · rw [condition_off h]
    exact .refl _ m

/-- A field of PORT_STATUS that shares no bit with the condition's. -/
theorem rd_condition_of_apart {g : Fld} (j : Nat) (hg : g.reg = .PORT_STATUS) (ha : f.Apart g) :
    (m.condition p f bit modes present).rd g j = m.rd g j := by
  by_cases h : m.effMode p ∈ modes
  · rw [condition_on h]
    refine (Mod.iff_keeps (P := fun t => t.rd g j = (m.put f p present).rd g j) _ ?_ rfl).trans (m.rd_put_of_apart p j present ha)
    exact Mod.rd_portFault _ _ _ _ (by rw [hg]; decide)
  · rw [condition_off h]

theorem flag_condition (h : m.effMode p ∈ modes) (hf : f.reg = .PORT_STATUS) (hlo : f.lo + f.width ≤ 64) (hw : f.width = 1) :
    (m.condition p f bit modes present).flag f p = present := by
  rw [condition_on h]
  refine (Mod.iff_keeps (P := fun t => t.flag f p = (m.put f p present).flag f p) _ ?_ rfl).trans (m.flag_put_self f p present hlo hw)
  exact Mod.flag_portFault _ _ _ _ (by rw [hf]; decide)

theorem flag_condition_ne {j : Nat} (hj : j ≠ p) (hf : f.reg = .PORT_STATUS) : (m.condition p f bit modes present).flag f j = m.flag f j :=
  (told_condition hf).regs.flag (by simp [hf, hj])

theorem condition_shows (hf : f.reg = .PORT_STATUS) (hlo : f.lo + f.width ≤ 64) (hw : f.width = 1) (hb : bit < 64) (h : m.effMode p ∈ modes) :
    let t := m.condition p f bit modes present
    t.flag f p = present ∧ (present = true → m.flag f p = false → bitAt (t.reg .PORT_FAULT p) bit = true) ∧
      (present = false → t.reg .PORT_FAULT p = m.reg .PORT_FAULT p) ∧ t.ports = m.ports ∧
      OnlyRegs [(.PORT_STATUS, p), (.PORT_FAULT, p), (.EVR_UNROUTED, 0)] m t := by
  have htold := told_condition (m := m) (p := p) (bit := bit) (modes := modes) (present := present) hf
  refine ⟨flag_condition h hf hlo hw, fun hp hn => ?_, fun hp => ?_, htold.ports_eq, htold.regs⟩
  · rw [condition_on h, hp, hn]
    exact Mod.bitAt_portFault _ _ hb
  · rw [condition_on h, hp]
    exact onlyRegs_put m f p false _ _ (by simp [hf])

end

/-! ### The scan (R52) -/

/-- What a scan leaves as it was: the modes, what a passed check read, the time, and all registers but those conditions show in. -/
structure Mod.Scanned (m t : Mod) : Prop where
  regs : ∀ r i, r ∉ [Reg.PORT_STATUS, .PORT_FAULT, .EVR_UNROUTED] → t.reg r i = m.reg r i
  mode : ∀ c, t.effMode c = m.effMode c
  ohms : ∀ c, (t.port c).passOhms = (m.port c).passOhms
  now : t.now = m.now

namespace Mod.Scanned

theorem refl (m : Mod) : m.Scanned m := ⟨fun _ _ _ => rfl, fun _ => rfl, fun _ => rfl, rfl⟩

theorem trans {m n t : Mod} (h : m.Scanned n) (h' : n.Scanned t) : m.Scanned t :=
  ⟨fun r i hr => (h'.regs r i hr).trans (h.regs r i hr), fun c => (h'.mode c).trans (h.mode c), fun c => (h'.ohms c).trans (h.ohms c),
    h'.now.trans h.now⟩

theorem rd {m t : Mod} (h : m.Scanned t) (f : Fld) (i : Nat) (hf : f.reg ∉ [Reg.PORT_STATUS, .PORT_FAULT, .EVR_UNROUTED]) :
    t.rd f i = m.rd f i := by
  rw [Mod.rd, Mod.rd, h.regs _ _ hf]

theorem flag {m t : Mod} (h : m.Scanned t) (f : Fld) (i : Nat) (hf : f.reg ∉ [Reg.PORT_STATUS, .PORT_FAULT, .EVR_UNROUTED]) :
    t.flag f i = m.flag f i := by
  rw [Mod.flag, Mod.flag, h.rd f i hf]

theorem asStandby {m t : Mod} (h : m.Scanned t) : t.asStandby = m.asStandby := by
  rw [Mod.asStandby, Mod.asStandby, Mod.isStandby, Mod.isStandby, Mod.mayDrive, Mod.mayDrive, Mod.isStandby, Mod.isStandby,
    h.rd _ _ (by decide), h.flag _ _ (by decide), h.flag _ _ (by decide), h.flag _ _ (by decide)]

theorem portClass {m t : Mod} (h : m.Scanned t) (c : Nat) : t.portClass c = m.portClass c :=
  h.rd _ _ (by simp [F.PBLK_CLASS_CLASS])

end Mod.Scanned

theorem Mod.scanned_condition (m : Mod) (p : Nat) {f : Fld} (bit : Nat) (modes : List Nat) (present : Bool) (hf : f.reg = .PORT_STATUS)
    (ha : f.Apart F.PORT_STATUS_EFF_MODE) : m.Scanned (m.condition p f bit modes present) := by
  have htold := told_condition (m := m) (p := p) (bit := bit) (modes := modes) (present := present) hf
  refine ⟨fun r i hr => htold.regs r i ?_, fun c => rd_condition_of_apart c rfl ha, fun c => by rw [htold.port_eq], htold.now_eq⟩
  simp only [List.mem_cons, List.not_mem_nil, or_false, not_or] at hr
  simp [hr]

theorem Mod.scanned_setPort (m : Mod) (p : Nat) (v : Port) (h : v.passOhms = (m.port p).passOhms) : m.Scanned (m.setPort p v) := by
  refine ⟨fun r i _ => Mod.reg_of_regs (m.setPort_regs p v) r i, fun c => m.effMode_setPort p v c, fun c => ?_, m.setPort_now p v⟩
  by_cases hc : c = p
  · rw [hc, Mod.port_setPort_self, h]
  · rw [Mod.port_setPort_ne _ _ hc]

theorem Mod.scanned_scanOpen (m : Mod) (p : Nat) (moved : Bool) : m.Scanned (m.scanOpen p moved) := by
  unfold Mod.scanOpen
  dsimp only
  split
  · have hset := m.scanned_setPort p { m.port p with tests := ⟨m.now, some (m.now + 100000)⟩ :: (m.port p).tests } rfl
    exact hset.trans (Mod.scanned_condition _ p (f := F.PORT_STATUS_OPEN) 1 [6, 8] moved rfl (by decide))
  · exact .refl m

theorem Mod.scanned_scanLeak (m : Mod) (p ohms : Nat) : m.Scanned (m.scanLeak p ohms) := by
  unfold Mod.scanLeak
  dsimp only
  split
  · exact .refl m
  · exact m.scanned_condition p 3 _ _ rfl (by decide)

section
variable {m : Mod} {c : Nat}

theorem scanOpen_ne {p : Nat} (moved : Bool) (hc : c ≠ p) : (m.scanOpen p moved).flag F.PORT_STATUS_OPEN c = m.flag F.PORT_STATUS_OPEN c := by
  unfold Mod.scanOpen
  dsimp only
  split
  · rw [flag_condition_ne hc rfl, Mod.flag_setPort]
  · rfl

/-- The test's result in the modes that have it. -/
theorem scanOpen_self (moved : Bool) (he : m.effMode c = 6 ∨ (m.effMode c = 8 ∧ m.portClass c = 5))
    (hen : m.flag F.PORT_DIAG_CTRL_OPEN c = true) : (m.scanOpen c moved).flag F.PORT_STATUS_OPEN c = moved := by
  unfold Mod.scanOpen
  dsimp only
  rw [if_pos (by simpa [hen] using he)]
  refine flag_condition ?_ rfl (by decide) rfl
  rw [Mod.effMode_setPort]
  rcases he with he | ⟨he, -⟩ <;> simp [he]

theorem scanOpen_other (moved : Bool) (he : m.effMode c = 8) (hcl : m.portClass c ≠ 5) : m.scanOpen c moved = m := by
  refine if_neg ?_
  simp [he, hcl]

theorem scanLeak_open (ohms p : Nat) : (m.scanLeak p ohms).flag F.PORT_STATUS_OPEN c = m.flag F.PORT_STATUS_OPEN c := by
  unfold Mod.scanLeak
  dsimp only
  split
  · rfl
  · rw [Mod.flag, rd_condition_of_apart c rfl (by decide), Mod.flag]

theorem scanLeak_self (ohms : Nat) (h0 : m.effMode c ≠ 0) (h10 : m.effMode c ≤ 10) (hsb : m.asStandby = false) (hp : (m.port c).passOhms ≠ 0) :
    (m.scanLeak c ohms).flag F.PORT_STATUS_LEAK c =
      decide (20 * (if ohms ≥ (m.port c).passOhms then ohms - (m.port c).passOhms else (m.port c).passOhms - ohms) > (m.port c).passOhms) := by
  unfold Mod.scanLeak
  dsimp only
  rw [if_neg (by simp [h0, hsb, hp])]
  refine flag_condition ?_ rfl (by decide) rfl
  simp only [List.mem_cons, List.not_mem_nil, or_false]
  omega

end

/-- A step over a list reaches what one of its members brings and the others keep. -/
theorem Mod.each_reaches {α : Type} {I Q : Mod → Prop} {f : Mod → α → Mod} {j : α} (hI : ∀ m x, I m → I (f m x)) (hj : ∀ m, I m → Q (f m j))
    (hQ : ∀ m x, x ≠ j → I m → Q m → Q (f m x)) {l : List α} (hl : j ∈ l) {m : Mod} (h : I m) : Q (m.each l f) := by
  have hkeep : ∀ (l : List α) (m : Mod), I m → Q m → Q (m.each l f) := by
    intro l
    induction l with
    | nil => exact fun _ _ hq => hq
    | cons x xs ih =>
      intro m hi hq
      refine ih (f m x) (hI m x hi) ?_
      by_cases hx : x = j
      · rw [hx]
        exact hj m hi
      · exact hQ m x hx hi hq
  induction l generalizing m with
  | nil => exact absurd hl (by simp)
  | cons x xs ih =>
    by_cases hx : x = j
    · subst hx
      exact hkeep xs _ (hI m x h) (hj m h)
    · exact ih ((List.mem_cons.mp hl).resolve_left (fun e => hx e.symm)) (hI m x h)

theorem Mod.each_singleton {α : Type} (m : Mod) (x : α) (f : Mod → α → Mod) : m.each [x] f = f m x := rfl

section
variable (m : Mod) (b : Nat) (moved : BitVec 32)

/-- The voltage open-wire tests of a block's ports. -/
def Mod.scanOpens : Mod := m.each (upTo 32) (fun m i => m.scanOpen (32 * b + i) (bitAt moved.toNat i))

theorem Mod.scanned_scanOpens : m.Scanned (m.scanOpens b moved) :=
  Mod.each_keeps (P := fun t => m.Scanned t) (fun t _ h => h.trans (t.scanned_scanOpen _ _)) _ (.refl m)

variable {m b moved} {j : Nat}

theorem scanOpens_self (hj : j < 32) (he : m.effMode (32 * b + j) = 6 ∨ (m.effMode (32 * b + j) = 8 ∧ m.portClass (32 * b + j) = 5))
    (hen : m.flag F.PORT_DIAG_CTRL_OPEN (32 * b + j) = true) :
    (m.scanOpens b moved).flag F.PORT_STATUS_OPEN (32 * b + j) = bitAt moved.toNat j := by
  refine Mod.each_reaches (I := fun t => m.Scanned t) (Q := fun t => t.flag F.PORT_STATUS_OPEN (32 * b + j) = bitAt moved.toNat j) (j := j)
    (fun t _ h => h.trans (t.scanned_scanOpen _ _)) (fun t h => ?_) (fun t i hi _ hq => ?_) (List.mem_range.mpr hj) (.refl m)
  · refine scanOpen_self _ ?_ ((h.flag _ _ (by decide)).trans hen)
    rw [h.mode, h.portClass]
    exact he
  · rw [scanOpen_ne _ (by omega), hq]

theorem scanOpens_other (he : m.effMode (32 * b + j) = 8) (hcl : m.portClass (32 * b + j) ≠ 5) :
    (m.scanOpens b moved).flag F.PORT_STATUS_OPEN (32 * b + j) = m.flag F.PORT_STATUS_OPEN (32 * b + j) := by
  refine (Mod.each_keeps (P := fun t => m.Scanned t ∧ t.flag F.PORT_STATUS_OPEN (32 * b + j) = m.flag F.PORT_STATUS_OPEN (32 * b + j))
    (fun t i h => ⟨h.1.trans (t.scanned_scanOpen _ _), ?_⟩) _ ⟨.refl m, rfl⟩).2
  obtain ⟨hs, hq⟩ := h
  by_cases hi : i = j
  · rw [hi, scanOpen_other _ (by rw [hs.mode, he]) (by rw [hs.portClass]; exact hcl), hq]
  · rw [scanOpen_ne _ (by omega), hq]

end

/-- Settles O31. -/
theorem portConditionsAndTheDiagnosticScan : Obligations.PortConditionsAndTheDiagnosticScan := by
  intro s p b present moved j r mv m e shows
  refine ⟨⟨fun he => does_next rfl ?_, fun he => does_next rfl (condition_off he)⟩, ⟨fun he => does_next rfl ?_, fun he => does_next rfl (condition_off he)⟩,
    ⟨fun he => does_next rfl ?_, fun he => does_next rfl (condition_off he)⟩, fun hen => does_next rfl ?_, fun hen hiso => ?_,
    fun he => does_next rfl ?_⟩
  · exact condition_shows rfl (by decide) rfl (by decide) he
  · exact condition_shows rfl (by decide) rfl (by decide) he
  · exact condition_shows rfl (by decide) rfl (by decide) he
  · exact if_pos (by rw [show s.mod.flag F.PBLK_CTRL_SCAN_EN b = false from hen]; rfl)
  · intro c pass
    have hscan := m.scanned_scanOpens b moved
    have hm : (if !m.flag F.PBLK_CTRL_SCAN_EN b || (m.die (b / 4)).isolated then m
        else (m.scanOpens b moved).each [(j, r)] (fun m o => m.scanLeak (32 * b + o.1) o.2.toNat)) = (m.scanOpens b moved).scanLeak c r.toNat := by
      rw [hen, hiso, if_neg (by decide), Mod.each_singleton]
    refine does_next (m := (m.scanOpens b moved).scanLeak c r.toNat) (congrArg (fun x : Mod => (.next { s with mod := x } : Host.Outcome State Fault Refusal)) hm) ?_
    refine ⟨fun he hop => ?_, fun he hcl => ?_, fun h0 h10 hsb hp => ?_, ?_⟩
    · exact (scanLeak_open _ _).trans (scanOpens_self j.isLt he hop)
    · exact (scanLeak_open _ _).trans (scanOpens_other he hcl)
    · have hl := scanLeak_self (m := m.scanOpens b moved) (c := c) r.toNat (by rw [hscan.mode]; exact h0) (by rw [hscan.mode]; exact h10)
        (by rw [hscan.asStandby, hsb]) (by rw [hscan.ohms]; exact hp)
      rw [hscan.ohms] at hl
      exact hl
    · exact ((Mod.scanned_scanLeak _ c r.toNat).now.trans hscan.now)
  · have hmode : ¬ (m.effMode p ≠ 3 ∧ m.effMode p ≠ 5) := fun hn => he.elim hn.1 hn.2
    show (if m.effMode p ≠ 3 ∧ m.effMode p ≠ 5 then m else if mv > 120 then m.put F.PORT_STATUS_HART_CD p true
      else if mv < 80 then m.put F.PORT_STATUS_HART_CD p false else m).flag _ _ = _ ∧ OnlyRegsChange _ _
        (if m.effMode p ≠ 3 ∧ m.effMode p ≠ 5 then m else if mv > 120 then m.put F.PORT_STATUS_HART_CD p true
          else if mv < 80 then m.put F.PORT_STATUS_HART_CD p false else m)
    rw [if_neg hmode]
    split
    · exact ⟨Mod.flag_put_self _ _ _ _ (by decide) rfl, onlyRegsChange_put m F.PORT_STATUS_HART_CD p true⟩
    · split
      · exact ⟨Mod.flag_put_self _ _ _ _ (by decide) rfl, onlyRegsChange_put m F.PORT_STATUS_HART_CD p false⟩
      · exact ⟨rfl, .refl _ m, rfl⟩

end Sys2Proof.Machine

/-!
Frames: what a part of the model may change, and what the answer of a command changes (R363, R366).
-/
namespace Sys2Proof.Machine

/-! ### Frames -/

/-- From `m` to `t` nothing changes but what `clear` takes away, and of the registers only those named, in any instance. -/
structure Frame (clear : Mod → Mod) (R : List Reg) (m t : Mod) : Prop where
  rest : clear t = clear m
  regs : ∀ r i, r ∉ R → t.reg r i = m.reg r i

namespace Frame

variable {clear clear' : Mod → Mod} {R R' : List Reg} {m n t : Mod}

theorem refl (clear : Mod → Mod) (R : List Reg) (m : Mod) : Frame clear R m m := ⟨rfl, fun _ _ _ => rfl⟩

theorem trans (h : Frame clear R m n) (h' : Frame clear R n t) : Frame clear R m t :=
  ⟨h'.rest.trans h.rest, fun r i hr => (h'.regs r i hr).trans (h.regs r i hr)⟩

/-- What changes less keeps within a frame that takes away more. -/
theorem coarser (h : Frame clear R m t) (hc : ∀ x, clear' (clear x) = clear' x) (hR : ∀ r ∈ R, r ∈ R') : Frame clear' R' m t :=
  ⟨by rw [← hc t, h.rest, hc], fun r i hr => h.regs r i fun hm => hr (hR r hm)⟩

theorem of_regs (h : clear t = clear m) (hr : t.regs = m.regs) : Frame clear R m t := ⟨h, fun r i _ => Mod.reg_of_regs hr r i⟩

theorem iff {f : Mod → Mod} (b : Bool) (h : Frame clear R m (f m)) : Frame clear R m (m.iff b f) := Mod.iff_keeps b h (.refl clear R m)

theorem each {α : Type} {f : Mod → α → Mod} (hf : ∀ (m : Mod) x, Frame clear R m (f m x)) (l : List α) (m : Mod) : Frame clear R m (m.each l f) :=
  Mod.each_keeps (P := fun t => Frame clear R m t) (fun t x h => h.trans (hf t x)) l (.refl clear R m)

theorem rd (h : Frame clear R m t) (f : Fld) (i : Nat) (hf : f.reg ∉ R) : t.rd f i = m.rd f i := by
  rw [Mod.rd, h.regs _ _ hf, Mod.rd]

theorem flag (h : Frame clear R m t) (f : Fld) (i : Nat) (hf : f.reg ∉ R) : t.flag f i = m.flag f i := by
  rw [Mod.flag, h.rd f i hf, Mod.flag]

end Frame

theorem Mod.Told.frame {l : List (Reg × Nat)} {m t : Mod} {clear : Mod → Mod} {R : List Reg} (h : m.Told l t)
    (hc : ∀ x : Mod, clear x.untold = clear x) (hl : ∀ e ∈ l, e.1 ∈ R) : Frame clear R m t :=
  ⟨by rw [← hc t, h.rest, hc], fun r i hr => h.regs r i fun hm => hr (hl _ hm)⟩

/-! ### Answers -/

/-- A module without what an answer changes: memory, the reports of refused accesses, messages to hosts, long commands. -/
def Mod.unanswered (m : Mod) : Mod :=
  { m.untold with mem := [], long := [], host := { m.host with pba := [], windows := [] } }

/-- The registers that an answer may change. -/
def answerRegs : List Reg :=
  [.MBX_Q_CPL_PROD, .SPL_RGN_STATUS, .GATE_VQ_STATUS, .GATE_VQ_LOST, .CFG_PROB_VIOL, .GATE_UNMAPPED_COUNT, .GATE_G_COUNT, .EVR_UNROUTED]

/-- From `m` to `t` a command was answered, or reports were made. -/
abbrev Mod.Answered (m t : Mod) : Prop := Frame Mod.unanswered answerRegs m t

theorem mem_answerRegs_of_refused (a : Nat) : ∀ e ∈ refusedRegs a, e.1 ∈ answerRegs := by
  intro e he
  simp only [refusedRegs, reportedRegs, List.mem_cons, List.not_mem_nil, or_false] at he
  rcases he with rfl | rfl | rfl | rfl | rfl | rfl | rfl <;> exact of_decide_eq_true rfl

namespace Mod

theorem Told.answered {l : List (Reg × Nat)} {m t : Mod} (h : m.Told l t) (hl : ∀ e ∈ l, e.1 ∈ answerRegs) : m.Answered t :=
  h.frame (fun _ => rfl) hl

theorem answered_of_rest {m t : Mod} (h : t.unanswered = m.unanswered) (hr : t.regs = m.regs) : m.Answered t := .of_regs h hr

theorem answered_long (m : Mod) (l : List LongCmd) : m.Answered { m with long := l } := answered_of_rest rfl rfl

theorem answered_setBytes (m : Mod) (a : Nat) (bs : List Byte) : m.Answered (m.setBytes a bs) := .of_regs rfl rfl

theorem answered_sdPass (m : Mod) (a n : Nat) (k : AccKind) : m.Answered (m.sdPass a n k).1 :=
  (m.told_passGate _).answered (mem_answerRegs_of_refused a)

theorem answered_sdWrite (m : Mod) (a : Nat) (bs : List Byte) : m.Answered (m.sdWrite a bs) := by
  refine Frame.each (fun n p => ?_) _ m
  have hpass := n.answered_sdPass p.1 p.2 .store
  cases hp : n.sdPass p.1 p.2 .store with
  | mk n' o =>
    rw [hp] at hpass
    cases o with
    | none => exact hpass.trans (answered_setBytes _ _ _)
    | some _ => exact hpass

theorem answered_msix (m : Mod) (v : Nat) : m.Answered (m.msix v) := (m.told_msix v []).answered (by simp)

theorem answered_cplMessage (m : Mod) (q : Nat) : m.Answered (m.cplMessage q) := by
  unfold cplMessage
  split
  · exact m.answered_msix q
  · split
    · exact answered_of_rest rfl rfl
    · exact (m.answered_msix q).trans (answered_of_rest rfl rfl)

theorem answered_emit (m : Mod) (o : Out) : m.Answered (m.emit o) := answered_of_rest rfl rfl

theorem answered_wr (m : Mod) (f : Fld) (i v : Nat) (h : f.reg ∈ answerRegs) : m.Answered (m.wr f i v) :=
  (m.told_wr f i v (l := [(f.reg, i)]) (by simp)).answered (by simpa using h)

theorem answered_complete (m : Mod) (c : LongCmd) (a : Answer) : m.Answered (m.complete c a) := by
  unfold complete
  dsimp only
  split
  · refine .trans (.trans (m.answered_sdWrite (payArea c.q + c.respOff) (a.resp.take c.room)) ?_) (.iff _ (answered_cplMessage _ _))
    exact (answered_setBytes _ _ _).trans (answered_wr _ _ _ _ (by decide))
  · split
    · exact m.answered_emit _
    · exact m.answered_emit _

theorem answered_finishLong (m : Mod) (op : Nat) (a : Answer) : m.Answered (m.finishLong op a) := by
  unfold finishLong
  split
  · exact (m.answered_long (m.long.erase _)).trans (answered_complete _ _ _)
  · exact .refl _ _ m

theorem answered_tdrAnswer (m : Mod) (p : Nat) (ok : Bool) : m.Answered (m.tdrAnswer p ok) := by
  unfold tdrAnswer
  split
  · exact .refl _ _ m
  · exact (m.answered_long (m.long.erase _)).trans (answered_complete _ _ _)

section
variable {m t : Mod} (h : m.Answered t)
include h

theorem Answered.ports_eq : t.ports = m.ports := (congrArg Mod.ports h.rest :)
theorem Answered.dies_eq : t.dies = m.dies := (congrArg Mod.dies h.rest :)
theorem Answered.port_eq (p : Nat) : t.port p = m.port p := port_of_ports (Answered.ports_eq h) p

end

end Mod

end Sys2Proof.Machine

/-!
Port dies: isolation, and the loss and return of a die's link (R51, R80).
-/
namespace Sys2Proof.Machine

/-! ### What a step at one port leaves of the others -/

/-- From `m` to `t` no port but `p` changes, in its state, its status and its output, and no die. -/
structure Mod.Sole (p : Nat) (m t : Mod) : Prop where
  port : ∀ p', p' ≠ p → t.port p' = m.port p'
  status : ∀ p', p' ≠ p → t.reg .PORT_STATUS p' = m.reg .PORT_STATUS p'
  out : ∀ p', p' ≠ p → t.reg .PORT_OUT p' = m.reg .PORT_OUT p'
  dies : t.dies = m.dies

namespace Mod.Sole

variable {p : Nat} {m n t : Mod}

theorem refl (p : Nat) (m : Mod) : m.Sole p m := ⟨fun _ _ => rfl, fun _ _ => rfl, fun _ _ => rfl, rfl⟩

theorem trans (h : m.Sole p n) (h' : n.Sole p t) : m.Sole p t :=
  ⟨fun q hq => (h'.port q hq).trans (h.port q hq), fun q hq => (h'.status q hq).trans (h.status q hq),
    fun q hq => (h'.out q hq).trans (h.out q hq), h'.dies.trans h.dies⟩

theorem iff {f : Mod → Mod} (b : Bool) (h : m.Sole p (f m)) : m.Sole p (m.iff b f) := Mod.iff_keeps b h (.refl p m)

theorem of_regs (hp : t.ports = m.ports) (hd : t.dies = m.dies)
    (hr : ∀ p', p' ≠ p → t.reg .PORT_STATUS p' = m.reg .PORT_STATUS p' ∧ t.reg .PORT_OUT p' = m.reg .PORT_OUT p') : m.Sole p t :=
  ⟨fun q _ => port_of_ports hp q, fun q hq => (hr q hq).1, fun q hq => (hr q hq).2, hd⟩

theorem of_eq (hp : t.ports = m.ports) (hd : t.dies = m.dies) (hr : t.regs = m.regs) : m.Sole p t :=
  of_regs hp hd fun q _ => ⟨reg_of_regs hr _ q, reg_of_regs hr _ q⟩

end Mod.Sole

namespace Mod

theorem Answered.sole {m t : Mod} (h : m.Answered t) (p : Nat) : m.Sole p t :=
  .of_regs h.ports_eq h.dies_eq fun q _ => ⟨h.regs _ q (by decide), h.regs _ q (by decide)⟩

theorem sole_setReg (m : Mod) (p : Nat) (r : Reg) (v : Nat) : m.Sole p (m.setReg r p v) :=
  .of_regs (m.setReg_ports r p v) (m.setReg_dies r p v) fun _ hq => ⟨reg_setReg_ne m v fun e => hq e.2, reg_setReg_ne m v fun e => hq e.2⟩

theorem sole_wr (m : Mod) (p : Nat) (f : Fld) (v : Nat) : m.Sole p (m.wr f p v) := m.sole_setReg p _ _
theorem sole_put (m : Mod) (p : Nat) (f : Fld) (b : Bool) : m.Sole p (m.put f p b) := m.sole_wr p f _

/-- A register that is neither a port's status nor its output, in any instance. -/
theorem sole_wr_other (m : Mod) (p : Nat) {f : Fld} (i v : Nat) (h : f.reg ∉ [Reg.PORT_STATUS, .PORT_OUT]) : m.Sole p (m.wr f i v) := by
  simp only [List.mem_cons, List.not_mem_nil, or_false, not_or] at h
  exact .of_regs (m.wr_ports f i v) (m.wr_dies f i v) fun _ _ => ⟨reg_setReg_ne m _ fun e => h.1 e.1.symm, reg_setReg_ne m _ fun e => h.2 e.1.symm⟩

theorem sole_setPort (m : Mod) (p : Nat) (v : Port) : m.Sole p (m.setPort p v) :=
  ⟨fun _ hq => port_setPort_ne m v hq, fun q _ => reg_of_regs (m.setPort_regs p v) _ q, fun q _ => reg_of_regs (m.setPort_regs p v) _ q,
    m.setPort_dies p v⟩

/-- A run's buffer is filled and its end shown. -/
theorem sole_tdrStop (m : Mod) (p : Nat) (pts : List (BitVec 16)) (v : Port) :
    m.Sole p (((({ m.setPort p v with tdrBuf := Tbl.set [] (m.setPort p v).tdrBuf (portBlock p) pts }.put F.PORT_STATUS_TDRBUSY p false).put
      F.PORT_STATUS_TDRDONE p true).put F.PORT_TDR_RESULT_ABORTED p true).tdrAnswer p false) := by
  have hset := m.sole_setPort p v
  generalize m.setPort p v = x at hset ⊢
  have hbuf : x.Sole p { x with tdrBuf := Tbl.set [] x.tdrBuf (portBlock p) pts } := .of_eq rfl rfl rfl
  generalize { x with tdrBuf := Tbl.set [] x.tdrBuf (portBlock p) pts } = y at hbuf ⊢
  have hputs := ((y.sole_put p F.PORT_STATUS_TDRBUSY false).trans (sole_put _ p F.PORT_STATUS_TDRDONE true)).trans
    (sole_put _ p F.PORT_TDR_RESULT_ABORTED true)
  exact ((hset.trans hbuf).trans hputs).trans ((answered_tdrAnswer _ p false).sole p)

theorem sole_tdrAbort (m : Mod) (p : Nat) : m.Sole p (m.tdrAbort p) := by
  have hfresh : m.Sole p m.fresh.2 := .of_eq rfl rfl rfl
  unfold tdrAbort
  split
  · exact .refl p m
  · exact hfresh.trans (sole_tdrStop m.fresh.2 p _ _)

theorem sole_htxFinish (m : Mod) (p g i result : Nat) : m.Sole p (m.htxFinish g i result) := by
  unfold htxFinish
  dsimp only
  have hset : m.Sole p (m.setNum (htxSlot g i + 4) 2 result) := (m.answered_setBytes _ _).sole p
  generalize m.setNum (htxSlot g i + 4) 2 result = n at hset ⊢
  generalize releaseFront _ _ _ = r
  obtain ⟨c, done⟩ := r
  dsimp only
  have hwr := n.sole_wr_other p (f := F.SPL_RGN_HTX_CONS_INDEX) g c (by decide)
  generalize n.wr F.SPL_RGN_HTX_CONS_INDEX g c = x at hwr ⊢
  exact (hset.trans hwr).trans (.of_eq rfl rfl rfl)

theorem sole_hartAbort (m : Mod) (p : Nat) : m.Sole p (m.hartAbort p) := by
  unfold hartAbort
  split
  · exact .refl p m
  · exact (m.sole_setPort p { m.port p with hartTx := none }).trans (sole_htxFinish _ p _ _ 4)

theorem sole_overtake (m : Mod) (p : Nat) : m.Sole p (m.overtake p) := by
  unfold overtake
  split
  · split
    · exact .refl p m
    · exact .of_eq rfl rfl rfl
  · exact .refl p m

theorem sole_drive (m : Mod) (p code : Nat) : m.Sole p (m.drive p code) := (m.sole_wr p _ code).trans (sole_setPort _ p _)

theorem sole_hiZ (m : Mod) (p : Nat) : m.Sole p (m.hiZ p) := m.sole_setPort p _

theorem sole_applySafe (m : Mod) (p : Nat) : m.Sole p (m.applySafe p) := by
  unfold applySafe
  split
  · exact m.sole_hiZ p
  · split
    · exact m.sole_drive p _
    · exact m.sole_drive p _
    · exact m.sole_hiZ p

theorem sole_endSpell (m : Mod) (p : Nat) : m.Sole p (m.endSpell p) := by
  unfold endSpell
  dsimp only
  split
  · exact .refl p m
  · exact m.sole_setPort p _

theorem sole_zeroCount (m : Mod) (p : Nat) : m.Sole p (m.zeroCount p) := by
  unfold zeroCount
  dsimp only
  exact ((m.sole_endSpell p).trans (((sole_setReg _ p .PORT_COUNT_LO 0).trans (sole_setReg _ p .PORT_COUNT_HI 0)).trans
    (sole_setReg _ p .PORT_LINK_ERR 0))).trans (sole_setPort _ p _)

theorem sole_clearDiag (m : Mod) (p e : Nat) : m.Sole p (m.clearDiag p e) := by
  unfold clearDiag
  dsimp only
  exact ((((Mod.Sole.iff _ (m.sole_put p _ false)).trans (.iff _ (sole_put _ p _ false))).trans (.iff _ (sole_put _ p _ false))).trans
    (.iff _ (sole_put _ p _ false))).trans (.iff _ (sole_put _ p _ false))

end Mod

/-! ### Isolation (R51) -/

/-- A port as its isolation at an instant leaves it. -/
def Port.isolated (q : Port) (now : Nat) : Port :=
  { q with phase := .idle, awaitT3 := false, awaitT5 := false, checking := false, changes := cutWin q.changes now, tests := closeWin q.tests now }

theorem Mod.sole_isolatePort (m : Mod) (p : Nat) : m.Sole p (m.isolatePort p) := by
  unfold isolatePort
  dsimp only
  have hgive := ((m.sole_tdrAbort p).trans (sole_hartAbort _ p)).trans (sole_overtake _ p)
  generalize ((m.tdrAbort p).hartAbort p).overtake p = x at hgive ⊢
  have hsafe : x.Sole p (if isOutMode (m.effMode p) = true then x.applySafe p else x.hiZ p) := by
    split
    · exact x.sole_applySafe p
    · exact x.sole_hiZ p
  generalize (if isOutMode (m.effMode p) = true then x.applySafe p else x.hiZ p) = y at hsafe ⊢
  have hidle := y.sole_setPort p ((y.port p).isolated y.now)
  show m.Sole p ((((((((y.setPort p ((y.port p).isolated y.now)).zeroCount p).clearDiag p 0).put F.PORT_STATUS_LINK_UP p false).wr
    F.PORT_STATUS_EFF_MODE p 0).put F.PORT_STATUS_TRANSITION p false)).put F.PORT_STATUS_MISMATCH p false)
  generalize y.setPort p ((y.port p).isolated y.now) = z at hidle ⊢
  have hshow := (((((z.sole_zeroCount p).trans (sole_clearDiag _ p 0)).trans (sole_put _ p F.PORT_STATUS_LINK_UP false)).trans
    (sole_wr _ p F.PORT_STATUS_EFF_MODE 0)).trans (sole_put _ p F.PORT_STATUS_TRANSITION false)).trans (sole_put _ p F.PORT_STATUS_MISMATCH false)
  exact ((hgive.trans hsafe).trans hidle).trans hshow

/-- What a port of an isolated die shows. -/
structure Mod.PortIsolated (m : Mod) (p : Nat) : Prop where
  mode : m.effMode p = 0
  transition : m.flag F.PORT_STATUS_TRANSITION p = false
  mismatch : m.flag F.PORT_STATUS_MISMATCH p = false
  phase : (m.port p).phase = .idle

theorem Mod.phase_zeroCount (m : Mod) (p : Nat) : ((m.zeroCount p).port p).phase = (m.port p).phase := by
  have hspell : ((m.endSpell p).port p).phase = (m.port p).phase := by
    unfold endSpell
    dsimp only
    split
    · rfl
    · rw [port_setPort_self]
  have hregs : ((((m.endSpell p).setReg .PORT_COUNT_LO p 0).setReg .PORT_COUNT_HI p 0).setReg .PORT_LINK_ERR p 0).port p = (m.endSpell p).port p := by
    rw [port_of_ports (setReg_ports _ _ _ _), port_of_ports (setReg_ports _ _ _ _), port_of_ports (setReg_ports _ _ _ _)]
  unfold zeroCount
  dsimp only
  rw [port_setPort_self, hregs]
  exact hspell

theorem Mod.port_clearDiag (m : Mod) (p e p' : Nat) : (m.clearDiag p e).port p' = m.port p' := by
  have hput : ∀ (n : Mod) (b : Bool) (f : Fld), (n.iff b (fun m => m.put f p false)).port p' = n.port p' := fun n b f =>
    iff_keeps (P := fun t => t.port p' = n.port p') b (n.port_put f p false p') rfl
  unfold clearDiag
  dsimp only
  rw [hput, hput, hput, hput, hput]

theorem Mod.portIsolated_isolatePort (m : Mod) (p : Nat) : (m.isolatePort p).PortIsolated p := by
  unfold isolatePort
  dsimp only
  generalize (if isOutMode (m.effMode p) = true then (((m.tdrAbort p).hartAbort p).overtake p).applySafe p
    else (((m.tdrAbort p).hartAbort p).overtake p).hiZ p) = y
  have hph : ((y.setPort p ((y.port p).isolated y.now)).port p).phase = .idle := by
    rw [port_setPort_self]
    rfl
  show PortIsolated ((((((((y.setPort p ((y.port p).isolated y.now)).zeroCount p).clearDiag p 0).put F.PORT_STATUS_LINK_UP p false).wr
    F.PORT_STATUS_EFF_MODE p 0).put F.PORT_STATUS_TRANSITION p false)).put F.PORT_STATUS_MISMATCH p false) p
  generalize y.setPort p ((y.port p).isolated y.now) = z at hph ⊢
  have hph' : (((z.zeroCount p).clearDiag p 0).port p).phase = .idle := by rw [port_clearDiag, phase_zeroCount, hph]
  generalize (z.zeroCount p).clearDiag p 0 = x at hph' ⊢
  refine ⟨?_, ?_, flag_put_self _ _ _ _ (by decide) rfl, ?_⟩
  · rw [effMode, rd_put_of_apart _ _ _ _ (by decide), rd_put_of_apart _ _ _ _ (by decide), rd_wr_self _ _ _ _ (by decide)]
    rfl
  · rw [flag_put_of_apart _ _ _ _ (by decide), flag_put_self _ _ _ _ (by decide) rfl]
  · rw [port_put, port_put, port_wr, port_put, hph']

/-- What isolates port `p` holds until something is done at `p`. -/
theorem Mod.Sole.portIsolated {p p' : Nat} {m t : Mod} (h : m.Sole p t) (hp : p' ≠ p) (hi : m.PortIsolated p') : t.PortIsolated p' := by
  have hstatus : ∀ f : Fld, f.reg = .PORT_STATUS → t.rd f p' = m.rd f p' := fun f hf => by rw [rd, hf, h.status p' hp, rd, hf]
  refine ⟨(hstatus F.PORT_STATUS_EFF_MODE rfl).trans hi.mode, ?_, ?_, by rw [h.port p' hp, hi.phase]⟩
  · rw [flag, hstatus _ rfl, ← flag, hi.transition]
  · rw [flag, hstatus _ rfl, ← flag, hi.mismatch]

theorem Mod.dies_isolatePorts (l : List Nat) (m : Mod) : (m.each l isolatePort).dies = m.dies :=
  each_keeps (P := fun t => t.dies = m.dies) (fun t p h => (t.sole_isolatePort p).dies.trans h) l rfl

theorem mem_diePorts {d p : Nat} : p ∈ diePorts d ↔ portDie p = d := by
  simp only [diePorts, span, List.mem_map, List.mem_range, portDie]
  constructor
  · rintro ⟨k, hk, rfl⟩
    omega
  · exact fun h => ⟨p - 128 * d, by omega, by omega⟩

theorem Mod.portIsolated_isolateDie (m : Mod) {d p : Nat} (h : portDie p = d) : (m.isolateDie d).PortIsolated p := by
  unfold isolateDie
  exact each_reaches (I := fun _ => True) (Q := fun t => t.PortIsolated p) (j := p) (fun _ _ _ => trivial) (fun t _ => t.portIsolated_isolatePort p)
    (fun t q hq _ hi => (t.sole_isolatePort q).portIsolated (fun e => hq e.symm) hi) (mem_diePorts.mpr h) trivial

theorem Mod.die_of_dies {m t : Mod} (h : t.dies = m.dies) (d : Nat) : t.die d = m.die d := by rw [die, h, die]

theorem Mod.die_setDie (m : Mod) (d : Nat) (v : Die) : (m.setDie d v).die d = v :=
  Tbl.get_set_self (α := Die) {} m.dies d v

theorem Mod.die_isolateDie (m : Mod) (d : Nat) : (m.isolateDie d).die d = { m.die d with isolated := true, hears := false } := by
  unfold isolateDie
  rw [die_of_dies (dies_isolatePorts _ _)]
  exact m.die_setDie d _

theorem Mod.isolateDie_other (m : Mod) {d p : Nat} (h : portDie p ≠ d) :
    (m.isolateDie d).port p = m.port p ∧ (m.isolateDie d).reg .PORT_STATUS p = m.reg .PORT_STATUS p ∧
      (m.isolateDie d).reg .PORT_OUT p = m.reg .PORT_OUT p := by
  have hkeep : ∀ (l : List Nat) (n : Mod), p ∉ l → (n.each l isolatePort).port p = n.port p ∧
      (n.each l isolatePort).reg .PORT_STATUS p = n.reg .PORT_STATUS p ∧ (n.each l isolatePort).reg .PORT_OUT p = n.reg .PORT_OUT p := by
    intro l
    induction l with
    | nil => exact fun n _ => ⟨rfl, rfl, rfl⟩
    | cons q qs ih =>
      intro n hn
      obtain ⟨hq, hqs⟩ := not_or.mp (fun h => hn (List.mem_cons.mpr h))
      obtain ⟨hport, hst, hout⟩ := ih (n.isolatePort q) hqs
      have hs := n.sole_isolatePort q
      exact ⟨hport.trans (hs.port p hq), hst.trans (hs.status p hq), hout.trans (hs.out p hq)⟩
  unfold isolateDie
  obtain ⟨hport, hst, hout⟩ := hkeep (diePorts d) (m.setDie d { m.die d with isolated := true, hears := false }) (fun hm => h (mem_diePorts.mp hm))
  exact ⟨hport.trans (port_of_ports (m.setDie_ports _ _) p), hst.trans (reg_of_regs (m.setDie_regs _ _) _ p), hout.trans (reg_of_regs (m.setDie_regs _ _) _ p)⟩

/-! ### The main die (R51, R80) -/

namespace Mod

theorem told_gooseFault (m : Mod) (r : FaultRec) : m.Told [(.EVR_UNROUTED, 0)] (m.gooseFault r) :=
  (m.told_gooseLog (.fault r)).trans (.of_untold rfl rfl)

/-- A module without reports and the queue of fault records. -/
def unqueued (m : Mod) : Mod := { m.untold with fq := [] }

/-- The registers that a record may change. -/
def recordRegs : List Reg := [.FLT_Q_STATUS, .FLT_Q_LOST, .EVR_UNROUTED]

/-- A fault's record (R445). -/
theorem record_frame (m : Mod) (r : FaultRec) : Frame unqueued recordRegs m (m.record r) := by
  have hq : Frame unqueued recordRegs m
      (if m.fq.length ≥ 64 then (m.put F.FLT_Q_STATUS_OVERFLOW 0 true).count F.FLT_Q_LOST_COUNT else { m with fq := insertRec r m.fq }) := by
    split
    · exact ((m.told_put _ _ _ (l := [(.FLT_Q_STATUS, 0), (.FLT_Q_LOST, 0)]) (by decide)).trans (told_count _ _ _ _ (by decide))).frame (fun _ => rfl) (by decide)
    · exact .of_regs rfl rfl
  have hgoose : ∀ n : Mod, Frame unqueued recordRegs n (n.gooseFault r) := fun n => (n.told_gooseFault r).frame (fun _ => rfl) (by decide)
  have hraise : ∀ n : Mod, Frame unqueued recordRegs n (n.raise 255) := fun n => (n.told_raise 255).frame (fun _ => rfl) (by decide)
  unfold record
  split
  · exact hgoose m
  · dsimp only
    generalize (if m.fq.length ≥ 64 then (m.put F.FLT_Q_STATUS_OVERFLOW 0 true).count F.FLT_Q_LOST_COUNT
      else { m with fq := insertRec r m.fq }) = n at hq ⊢
    have hsd : Frame unqueued recordRegs n { n with sdFaults := insertRec r n.sdFaults } := .of_regs rfl rfl
    exact ((hq.trans hsd).trans (.iff _ (hgoose _))).trans (.iff _ (hraise _))

/-- A module without reports and without what counts toward an escalation. -/
def unfaulted (m : Mod) : Mod := { m.untold with fq := [], escCell := [], escBlock := [], escRgn := [], escDue := [] }

/-- The registers a fault of a cell or block may change. -/
def faultRegs : List Reg := [.FLT_Q_STATUS, .FLT_Q_LOST, .EVR_UNROUTED, .FLT_SUM_CELL, .FLT_SUM_BLOCK]

/-- From `m` to `t` faults of cells or blocks were recorded and counted. -/
abbrev Faulted (m t : Mod) : Prop := Frame unfaulted faultRegs m t

theorem faulted_record (m : Mod) (r : FaultRec) : m.Faulted (m.record r) := (m.record_frame r).coarser (fun _ => rfl) (by decide)

theorem faulted_count (m : Mod) (f : Fld) (i : Nat) (h : f.reg ∈ faultRegs) : m.Faulted (m.count f i) :=
  (m.told_count f i 1 (l := [(f.reg, i)]) (by simp)).frame (fun _ => rfl) (by simpa using h)

theorem faulted_countBlock (m : Mod) (g : Nat) : m.Faulted (m.countBlock g) := by
  unfold countBlock
  dsimp only
  exact .trans (n := { m with escBlock := (g, m.mono) :: m.escBlock.filter (fun e => m.inWindow e.2) }) (.of_regs rfl rfl) (.iff _ (.of_regs rfl rfl))

theorem faulted_blockFault (m : Mod) (g cause index unit detail source : Nat) : m.Faulted (m.blockFault g cause index unit detail source) := by
  unfold blockFault
  split
  · exact m.faulted_record _
  · dsimp only
    refine .trans ?_ (faulted_countBlock _ g)
    split
    · exact m.faulted_count _ _ (by decide)
    · exact m.faulted_record _

section
variable {m : Mod} {d : Nat}

/-- What the loss or return of a die's link changes besides reports: the status of the die's blocks. -/
abbrev LinkShown (m t : Mod) : Prop := Frame unfaulted (faultRegs ++ [.PBLK_CARRIER, .SPL_BLK_STATUS]) m t

theorem linkShown_put (m : Mod) (f : Fld) (i : Nat) (b : Bool) (h : f.reg ∈ [Reg.PBLK_CARRIER, .SPL_BLK_STATUS]) : m.LinkShown (m.put f i b) :=
  (m.told_put f i b (l := [(f.reg, i)]) (by simp)).frame (fun _ => rfl) (by simp_all)

theorem linkShown_blockFault (m : Mod) (g cause index unit detail : Nat) : m.LinkShown (m.blockFault g cause index unit detail) :=
  (m.faulted_blockFault g cause index unit detail 0xFFFF).coarser (fun _ => rfl) (fun _ h => List.mem_append_left _ h)

theorem mem_dieBlocks {d b : Nat} : b ∈ span (4 * d) 4 ↔ b / 4 = d := by
  simp only [span, List.mem_map, List.mem_range]
  constructor
  · rintro ⟨k, hk, rfl⟩
    omega
  · exact fun h => ⟨b - 4 * d, by omega, by omega⟩

/-- A block's link and loss as they read. -/
def BlockShows (b : Nat) (up : Bool) (t : Mod) : Prop :=
  t.flag F.PBLK_CARRIER_DIE_LINK b = up ∧ t.flag F.SPL_BLK_STATUS_DIE_LOST b = !up

theorem blockShows_puts (m : Mod) (b : Nat) (up : Bool) :
    BlockShows b up ((m.put F.PBLK_CARRIER_DIE_LINK b up).put F.SPL_BLK_STATUS_DIE_LOST b (!up)) :=
  ⟨by simp (disch := decide) only [flag_put_of_apart, flag_put_self], flag_put_self _ _ _ _ (by decide) rfl⟩

theorem blockShows_puts_ne {b b' : Nat} {up : Bool} (hb : b ≠ b') (h : BlockShows b up m) (up' : Bool) :
    BlockShows b up ((m.put F.PBLK_CARRIER_DIE_LINK b' up').put F.SPL_BLK_STATUS_DIE_LOST b' (!up')) := by
  have hflag : ∀ f : Fld, ((m.put F.PBLK_CARRIER_DIE_LINK b' up').put F.SPL_BLK_STATUS_DIE_LOST b' (!up')).flag f b = m.flag f b := fun f => by
    rw [(onlyRegs_put _ F.SPL_BLK_STATUS_DIE_LOST b' _).flag (by simp [hb]), (onlyRegs_put m F.PBLK_CARRIER_DIE_LINK b' _).flag (by simp [hb])]
  exact ⟨(hflag _).trans h.1, (hflag _).trans h.2⟩

theorem BlockShows.of_faulted {b : Nat} {up : Bool} {t : Mod} (h : BlockShows b up m) (ht : m.Faulted t) : BlockShows b up t :=
  ⟨(ht.flag _ _ (by decide)).trans h.1, (ht.flag _ _ (by decide)).trans h.2⟩

theorem linkShown_linkShow (m : Mod) (d : Nat) (up : Bool) : m.LinkShown (m.linkShow d up) :=
  Frame.each (fun n b => (n.linkShown_put _ b up (by decide)).trans (linkShown_put _ _ b _ (by decide))) _ m

theorem blockShows_linkShow {b : Nat} (h : b / 4 = d) (m : Mod) (up : Bool) : BlockShows b up (m.linkShow d up) := by
  unfold linkShow
  refine each_reaches (I := fun _ => True) (Q := fun t => BlockShows b up t) (j := b) (fun _ _ _ => trivial) (fun t _ => ?_) (fun t x hx _ hq => ?_)
    (mem_dieBlocks.mpr h) trivial
  · exact t.blockShows_puts b up
  · exact blockShows_puts_ne (fun e => hx e.symm) hq up

/-- A block of a die that is lost: its status and its fault (R51). -/
def loseBlock (d : Nat) (m : Mod) (b : Nat) : Mod :=
  ((m.put F.PBLK_CARRIER_DIE_LINK b false).put F.SPL_BLK_STATUS_DIE_LOST b true).blockFault (blockRegion b) 0x04 b 7 d

theorem linkShown_loseBlock (d : Nat) (m : Mod) (b : Nat) : m.LinkShown (loseBlock d m b) :=
  ((m.linkShown_put F.PBLK_CARRIER_DIE_LINK b false (by decide)).trans (linkShown_put _ F.SPL_BLK_STATUS_DIE_LOST b true (by decide))).trans
    (linkShown_blockFault _ _ _ _ _ _)

theorem blockShows_loseBlocks {b : Nat} (h : b / 4 = d) (m : Mod) : BlockShows b false (m.each (span (4 * d) 4) (loseBlock d)) := by
  refine each_reaches (I := fun _ => True) (Q := fun t => BlockShows b false t) (j := b) (fun _ _ _ => trivial) (fun t _ => ?_)
    (fun t x hx _ hq => ?_) (mem_dieBlocks.mpr h) trivial
  · exact (t.blockShows_puts b false).of_faulted (faulted_blockFault _ _ _ _ _ _ _)
  · exact (blockShows_puts_ne (fun e => hx e.symm) hq false).of_faulted (faulted_blockFault _ _ _ _ _ _ _)

theorem LinkShown.ports_eq {t : Mod} (h : m.LinkShown t) : t.ports = m.ports := (congrArg Mod.ports h.rest :)
theorem LinkShown.die_eq {t : Mod} (h : m.LinkShown t) (d : Nat) : t.die d = m.die d := die_of_dies (congrArg Mod.dies h.rest :) d

theorem mainDieLoss_eq (h : (m.die d).lostAt = none) : m.mainDieLoss d =
    (m.setDie d { m.die d with lostAt := some m.now, cut := (m.die d).cut || m.domPowered (56 + d) }).each (span (4 * d) 4) (loseBlock d) := by
  unfold mainDieLoss
  rw [h]
  rfl

theorem mainDieLoss_shows (h : (m.die d).lostAt = none) (b : Nat) :
    let t := m.mainDieLoss d
    (t.die d).lostAt = some m.now ∧ (t.die d).isolated = (m.die d).isolated ∧
      (b / 4 = d → t.flag F.PBLK_CARRIER_DIE_LINK b = false ∧ t.flag F.SPL_BLK_STATUS_DIE_LOST b = true) ∧ t.ports = m.ports := by
  intro t
  have ht : t = _ := mainDieLoss_eq h
  have hlink := Frame.each (linkShown_loseBlock d) (span (4 * d) 4) (m.setDie d { m.die d with lostAt := some m.now, cut := (m.die d).cut || m.domPowered (56 + d) })
  have hdie : t.die d = { m.die d with lostAt := some m.now, cut := (m.die d).cut || m.domPowered (56 + d) } := by
    rw [ht, LinkShown.die_eq hlink, die_setDie]
  refine ⟨by rw [hdie], by rw [hdie], fun hb => ?_, ?_⟩
  · rw [ht]
    exact blockShows_loseBlocks hb _
  · rw [ht, LinkShown.ports_eq hlink, setDie_ports]

theorem dieHears_shows (m : Mod) (d b : Nat) :
    let t := m.dieHears d
    (t.die d).lostAt = none ∧ (t.die d).hears = true ∧ (t.die d).isolated = (m.die d).isolated ∧
      (b / 4 = d → t.flag F.PBLK_CARRIER_DIE_LINK b = true ∧ t.flag F.SPL_BLK_STATUS_DIE_LOST b = false) ∧ t.ports = m.ports := by
  intro t
  have hlink := linkShown_linkShow (m.setDie d { m.die d with hears := true, lostAt := none }) d true
  have hdie : t.die d = { m.die d with hears := true, lostAt := none } := (LinkShown.die_eq hlink d).trans (m.die_setDie d _)
  refine ⟨by rw [hdie], by rw [hdie], by rw [hdie], fun hb => blockShows_linkShow hb _ true, ?_⟩
  exact (LinkShown.ports_eq hlink).trans (m.setDie_ports d _)

theorem dieLinkUp_eq (hr : m.rgnDown (d / 2) = false) (hd : m.domOn (56 + d) = true) :
    m.dieLinkUp d = (m.setDie d { m.die d with cut := false }).dieHears d := by
  have hbar : ((m.setDie d { m.die d with cut := false }).rgnDown (d / 2) || !(m.setDie d { m.die d with cut := false }).domOn (56 + d)) = false := by
    have hr' : (m.setDie d { m.die d with cut := false }).rgnDown (d / 2) = m.rgnDown (d / 2) := rfl
    have hd' : (m.setDie d { m.die d with cut := false }).domOn (56 + d) = m.domOn (56 + d) := rfl
    rw [hr', hd', hr, hd]
    rfl
  unfold dieLinkUp
  dsimp only
  rw [hbar]
  rfl

end

end Mod

/-- A die that is not isolated yet isolates itself as its link is cut (R51). -/
theorem dieLoss_isolates {m : Mod} {d : Nat} (h : (m.die d).isolated = false) (p : Nat) :
    let x := if (m.die d).isolated then m.setDie d { m.die d with hears := false } else m.isolateDie d
    let t := x.setDie d { x.die d with cut := (x.die d).cut || x.domPowered (56 + d) }
    (t.die d).isolated = true ∧ (t.die d).hears = false ∧
      (portDie p = d → t.effMode p = 0 ∧ t.flag F.PORT_STATUS_TRANSITION p = false ∧ t.flag F.PORT_STATUS_MISMATCH p = false ∧ (t.port p).phase = .idle) ∧
      (portDie p ≠ d → t.port p = m.port p ∧ t.reg .PORT_STATUS p = m.reg .PORT_STATUS p ∧ t.reg .PORT_OUT p = m.reg .PORT_OUT p) := by
  intro x t
  have hx : x = m.isolateDie d := if_neg (by rw [h]; decide)
  have hdie : t.die d = { x.die d with cut := (x.die d).cut || x.domPowered (56 + d) } := Mod.die_setDie _ _ _
  have hregs : t.regs = x.regs := x.setDie_regs _ _
  have hports : t.ports = x.ports := x.setDie_ports _ _
  refine ⟨?_, ?_, fun hp => ?_, fun hp => ?_⟩
  · rw [hdie, hx, Mod.die_isolateDie]
  · rw [hdie, hx, Mod.die_isolateDie]
  · have hi := m.portIsolated_isolateDie hp
    rw [← hx] at hi
    refine ⟨(Mod.rd_of_regs hregs _ _).trans hi.mode, (Mod.flag_of_regs hregs _ _).trans hi.transition,
      (Mod.flag_of_regs hregs _ _).trans hi.mismatch, ?_⟩
    rw [Mod.port_of_ports hports, hi.phase]
  · obtain ⟨hport, hst, hout⟩ := m.isolateDie_other hp
    rw [← hx] at hport hst hout
    exact ⟨(Mod.port_of_ports hports p).trans hport, (Mod.reg_of_regs hregs _ p).trans hst, (Mod.reg_of_regs hregs _ p).trans hout⟩

/-- Settles O34. -/
theorem portDieLinkLossIsolatesTheDie : Obligations.PortDieLinkLossIsolatesTheDie := by
  intro s d b l p m
  refine ⟨fun hiso => does_next rfl ?_, fun hlost => does_next rfl (Mod.mainDieLoss_shows hlost b), fun hr hd => does_next rfl ?_,
    fun hl => does_next rfl ?_, fun hl => does_next rfl ?_⟩
  · exact dieLoss_isolates hiso p
  · rw [show (fun m : Mod => m.dieLinkUp d) s.mod = m.dieLinkUp d from rfl, Mod.dieLinkUp_eq hr hd]
    obtain ⟨hlost, hhears, hiso, hshow, hports⟩ := (m.setDie d { m.die d with cut := false }).dieHears_shows d b
    refine ⟨hlost, hhears, ?_, hshow, ?_⟩
    · rw [hiso, Mod.die_setDie]
    · rw [hports, Mod.setDie_ports]
  · show (match m.heldEnd b with
      | some t => m.toNow t
      | none => m) = _
    rw [Mod.heldEnd, show (m.die (b / 4)).lostAt = some l from hl]
    rfl
  · show (match m.heldEnd b with
      | some t => m.toNow t
      | none => m) = _
    rw [Mod.heldEnd, show (m.die (b / 4)).lostAt = none from hl]
    rfl

end Sys2Proof.Machine

/-!
HART frames and ring indices (R95, R98, R99).
-/
namespace Sys2Proof.Machine

/-! ### Memory read back -/

namespace Mod

theorem bytes_setBytes_out (m : Mod) (a : Nat) (bs : List Byte) {b n : Nat} (h : b + n ≤ a ∨ a + bs.length ≤ b) :
    (m.setBytes a bs).bytes b n = m.bytes b n := by
  refine List.map_congr_left fun i hi => ?_
  have hlt := List.mem_range.mp hi
  exact cellGet_cellsSet_out bs m.mem a (b + i) (by omega)

theorem num_setBytes_out (m : Mod) (a : Nat) (bs : List Byte) {b n : Nat} (h : b + n ≤ a ∨ a + bs.length ≤ b) :
    (m.setBytes a bs).num b n = m.num b n := by
  rw [num, m.bytes_setBytes_out a bs h, num]

theorem num_setNum_out (m : Mod) {a n : Nat} (v : Nat) {b k : Nat} (h : b + k ≤ a ∨ a + n ≤ b) : (m.setNum a n v).num b k = m.num b k :=
  m.num_setBytes_out a _ (by rw [length_leBytes]; exact h)

theorem num_setNum_self (m : Mod) (a n v : Nat) : (m.setNum a n v).num a n = v % 256 ^ n := by
  have hread := m.bytes_setBytes a (leBytes n v) (o := 0) (n := n) (by rw [length_leBytes, Nat.zero_add])
  rw [Nat.add_zero, List.drop_zero, List.take_of_length_le (by rw [length_leBytes])] at hread
  rw [num, setNum, hread, ofLeBytes_leBytes]

theorem cellGet_setNum_out (m : Mod) {a n : Nat} (v : Nat) {b : Nat} (h : b < a ∨ a + n ≤ b) : cellGet (m.setNum a n v).mem b = cellGet m.mem b :=
  cellGet_cellsSet_out _ m.mem a b (by rw [length_leBytes]; exact h)

/-! ### Receive rings (R98) -/

/-- A slot of a receive ring as a frame fills it. -/
def slotFilled (m : Mod) (a len p st start : Nat) (chars : List Byte) : Mod :=
  ((((m.setNum a 2 len).setNum (a + 2) 2 p).setNum (a + 4) 2 st).setNum (a + 8) 8 start).setBytes (a + 16) chars

theorem slotFilled_reads (m : Mod) (a : Nat) {len p st start : Nat} (chars : List Byte) (hlen : len < 2 ^ 16) (hp : p < 2 ^ 16) (hst : st < 2 ^ 16)
    (hstart : start < 2 ^ 64) :
    let t := m.slotFilled a len p st start chars
    t.num a 2 = len ∧ t.num (a + 2) 2 = p ∧ t.num (a + 4) 2 = st ∧ t.num (a + 8) 8 = start := by
  refine ⟨?_, ?_, ?_, ?_⟩
  · show (slotFilled m a len p st start chars).num a 2 = len
    rw [slotFilled, num_setBytes_out _ _ _ (by omega), num_setNum_out _ _ (by omega), num_setNum_out _ _ (by omega), num_setNum_out _ _ (by omega),
      num_setNum_self]
    exact Nat.mod_eq_of_lt hlen
  · show (slotFilled m a len p st start chars).num (a + 2) 2 = p
    rw [slotFilled, num_setBytes_out _ _ _ (by omega), num_setNum_out _ _ (by omega), num_setNum_out _ _ (by omega), num_setNum_self]
    exact Nat.mod_eq_of_lt hp
  · show (slotFilled m a len p st start chars).num (a + 4) 2 = st
    rw [slotFilled, num_setBytes_out _ _ _ (by omega), num_setNum_out _ _ (by omega), num_setNum_self]
    exact Nat.mod_eq_of_lt hst
  · show (slotFilled m a len p st start chars).num (a + 8) 8 = start
    rw [slotFilled, num_setBytes_out _ _ _ (by omega), num_setNum_self]
    exact Nat.mod_eq_of_lt hstart

theorem slotFilled_bytes (m : Mod) (a len p st start : Nat) (chars : List Byte) :
    (m.slotFilled a len p st start chars).bytes (a + 16) chars.length = chars := by
  have hread := ((((m.setNum a 2 len).setNum (a + 2) 2 p).setNum (a + 4) 2 st).setNum (a + 8) 8 start).bytes_setBytes (a + 16) chars (o := 0)
    (n := chars.length) (by omega)
  rw [Nat.add_zero, List.drop_zero, List.take_length] at hread
  exact hread

theorem slotFilled_out (m : Mod) (a len p st start : Nat) {chars : List Byte} {b : Nat} (hc : chars.length ≤ 496) (h : b < a ∨ a + 512 ≤ b) :
    cellGet (m.slotFilled a len p st start chars).mem b = cellGet m.mem b := by
  refine (cellGet_cellsSet_out chars _ (a + 16) b (by omega)).trans ?_
  rw [cellGet_setNum_out _ _ (by omega), cellGet_setNum_out _ _ (by omega), cellGet_setNum_out _ _ (by omega), cellGet_setNum_out _ _ (by omega)]

/-- The status a receive slot shows of a frame. -/
def frameStatus (fr : HartFrame) (gap : Bool) : Nat :=
  b2n fr.parity + 2 * b2n fr.framing + 4 * b2n gap + 8 * b2n fr.carrierLost + 16 * b2n (decide (fr.chars.length > 496))

theorem b2n_le_one (b : Bool) : b2n b ≤ 1 := by cases b <;> decide

theorem frameStatus_lt (fr : HartFrame) (gap : Bool) : frameStatus fr gap < 2 ^ 16 := by
  have hp := b2n_le_one fr.parity
  have hf := b2n_le_one fr.framing
  have hg := b2n_le_one gap
  have hc := b2n_le_one fr.carrierLost
  have hl := b2n_le_one (decide (fr.chars.length > 496))
  rw [frameStatus]
  omega

theorem told_frameQueued (m : Mod) (p : Nat) : m.Told [(.SPL_BLK_STATUS, portBlock p), (.EVR_UNROUTED, 0)] (m.frameQueued p) := by
  have hput := m.told_put F.SPL_BLK_STATUS_FRAME (portBlock p) true (l := [(.SPL_BLK_STATUS, portBlock p), (.EVR_UNROUTED, 0)])
    (by simp [F.SPL_BLK_STATUS_FRAME])
  unfold frameQueued
  exact hput.trans (.iff _ ((told_raise _ _).mono (by simp)))

theorem flag_frameQueued (m : Mod) (p : Nat) : (m.frameQueued p).flag F.SPL_BLK_STATUS_FRAME (portBlock p) = true := by
  refine iff_keeps (P := fun t => t.flag F.SPL_BLK_STATUS_FRAME (portBlock p) = true) _ ?_ (flag_put_self _ _ _ _ (by decide) rfl)
  rw [(told_raise _ _).regs.flag_of_reg _ (by decide), flag_put_self _ _ _ _ (by decide) rfl]

section
variable {m : Mod} {p : Nat} {fr : HartFrame} (he : m.effMode p = 3 ∨ m.effMode p = 5) (hfull : m.phase.full = true)
  (hdown : m.rgnDown (portRegion p) = false) (hch : fr.chars ≠ [])
include he hfull hdown hch

theorem hartReceive_open (gap : Bool) :
    m.hartReceive p fr gap =
      (let prod := m.rd F.SPL_RGN_HRX_PROD_INDEX (portRegion p)
       if ringAhead prod (m.rd F.SPL_RGN_HRX_CONS_INDEX (portRegion p)) = 128 then m.count F.SPL_RGN_HRX_DROP_COUNT (portRegion p)
       else ((m.slotFilled (signalBase (portRegion p) + 0x2C000 + (prod % 128) * 512) (Nat.min fr.chars.length 496) p (frameStatus fr gap) fr.start.toNat
        (fr.chars.take 496)).wr F.SPL_RGN_HRX_PROD_INDEX (portRegion p) ((prod + 1) % 65536)).frameQueued p) := by
  refine if_neg ?_
  rw [hfull, hdown]
  have hlen : fr.chars.length ≠ 0 := fun h => hch (List.length_eq_zero_iff.mp h)
  rcases he with he | he <;> simp [he, hlen]

theorem hartReceive_full (gap : Bool)
    (h : ringAhead (m.rd F.SPL_RGN_HRX_PROD_INDEX (portRegion p)) (m.rd F.SPL_RGN_HRX_CONS_INDEX (portRegion p)) = 128) :
    m.hartReceive p fr gap = m.count F.SPL_RGN_HRX_DROP_COUNT (portRegion p) :=
  (hartReceive_open he hfull hdown hch gap).trans (if_pos h)

theorem hartReceive_taken (gap : Bool) (hp : p < 1024)
    (h : ringAhead (m.rd F.SPL_RGN_HRX_PROD_INDEX (portRegion p)) (m.rd F.SPL_RGN_HRX_CONS_INDEX (portRegion p)) ≠ 128) :
    let prod := m.rd F.SPL_RGN_HRX_PROD_INDEX (portRegion p)
    let a := signalBase (portRegion p) + 0x2C000 + (prod % 128) * 512
    let t := m.hartReceive p fr gap
    t.rd F.SPL_RGN_HRX_PROD_INDEX (portRegion p) = (prod + 1) % 65536 ∧ t.num a 2 = Nat.min fr.chars.length 496 ∧
      t.num (a + 2) 2 = p ∧ t.num (a + 4) 2 = frameStatus fr gap ∧ t.num (a + 8) 8 = fr.start.toNat ∧
      t.bytes (a + 16) (Nat.min fr.chars.length 496) = fr.chars.take 496 ∧ t.flag F.SPL_BLK_STATUS_FRAME (portBlock p) = true ∧
      ∀ b, (b < a ∨ a + 512 ≤ b) → cellGet t.mem b = cellGet m.mem b := by
  intro prod a t
  have ht : t = ((m.slotFilled a (Nat.min fr.chars.length 496) p (frameStatus fr gap) fr.start.toNat (fr.chars.take 496)).wr F.SPL_RGN_HRX_PROD_INDEX
      (portRegion p) ((prod + 1) % 65536)).frameQueued p := (hartReceive_open he hfull hdown hch gap).trans (if_neg h)
  have hlen : (fr.chars.take 496).length = Nat.min fr.chars.length 496 := by rw [List.length_take, Nat.min_comm]
  have hmin : Nat.min fr.chars.length 496 < 2 ^ 16 := lt_of_le_of_lt (Nat.min_le_right _ _) (by decide)
  obtain ⟨hl, hport, hst, hstart⟩ := m.slotFilled_reads a (fr.chars.take 496) hmin (Nat.lt_trans hp (by decide)) (frameStatus_lt fr gap) fr.start.isLt
  have hbytes := m.slotFilled_bytes a (Nat.min fr.chars.length 496) p (frameStatus fr gap) fr.start.toNat (fr.chars.take 496)
  have hout := fun b => m.slotFilled_out a (Nat.min fr.chars.length 496) p (frameStatus fr gap) fr.start.toNat (chars := fr.chars.take 496) (b := b)
    (by rw [hlen]; exact Nat.min_le_right _ _)
  rw [hlen] at hbytes
  generalize m.slotFilled a _ p _ _ _ = n at ht hl hport hst hstart hbytes hout
  have htold := told_frameQueued (n.wr F.SPL_RGN_HRX_PROD_INDEX (portRegion p) ((prod + 1) % 65536)) p
  rw [← ht] at htold
  have hmem : t.mem = n.mem := htold.mem_eq.trans (n.wr_mem _ _ _)
  have hnum : ∀ b k, t.num b k = n.num b k := fun b k => num_of_mem hmem b k
  refine ⟨?_, by rw [hnum, hl], by rw [hnum, hport], by rw [hnum, hst], by rw [hnum, hstart], ?_, ?_, fun b hb => by rw [hmem, hout b hb]⟩
  · rw [htold.regs.rd_of_reg _ (by simp [F.SPL_RGN_HRX_PROD_INDEX]), rd_wr_self _ _ _ _ (by decide)]
    exact Nat.mod_eq_of_lt (Nat.mod_lt _ (by decide))
  · rw [bytes, hmem]
    exact hbytes
  · rw [ht, flag_frameQueued]

end

/-! ### Transmit rings (R95, R99) -/

/-- A transmit slot takes its result, and what is finished in front is released. -/
theorem htxFinish_eq {m n : Mod} {g i result : Nat} (h : m.setNum (htxSlot g i + 4) 2 result = n) :
    ∃ c done, m.htxFinish g i result = { n.wr F.SPL_RGN_HTX_CONS_INDEX g c with htxDone := done } := by
  have ht : m.htxFinish g i result = (match releaseFront 64 (n.rd F.SPL_RGN_HTX_CONS_INDEX g) (i :: Tbl.get [] n.htxDone g) with
      | (c, done) => { n.wr F.SPL_RGN_HTX_CONS_INDEX g c with htxDone := Tbl.set [] n.htxDone g done }) := by
    rw [← h]
    rfl
  rw [ht]
  generalize releaseFront _ _ _ = r
  obtain ⟨c, done⟩ := r
  exact ⟨c, Tbl.set [] n.htxDone g done, rfl⟩

theorem htxFinish_shows (m : Mod) (g i result : Nat) :
    let t := m.htxFinish g i result
    t.mem = (m.setNum (htxSlot g i + 4) 2 result).mem ∧ t.ports = m.ports ∧ t.sent = m.sent := by
  have hports : (m.setNum (htxSlot g i + 4) 2 result).ports = m.ports := m.setBytes_ports _ _
  have hsent : (m.setNum (htxSlot g i + 4) 2 result).sent = m.sent := m.setBytes_sent _ _
  generalize hn : m.setNum (htxSlot g i + 4) 2 result = n at hports hsent
  obtain ⟨c, done, ht⟩ := htxFinish_eq hn
  have hmem' := n.wr_mem F.SPL_RGN_HTX_CONS_INDEX g c
  have hports' := (n.wr_ports F.SPL_RGN_HTX_CONS_INDEX g c).trans hports
  have hsent' := (n.wr_sent F.SPL_RGN_HTX_CONS_INDEX g c).trans hsent
  generalize n.wr F.SPL_RGN_HTX_CONS_INDEX g c = x at ht hmem' hports' hsent'
  intro t
  have ht' : t = { x with htxDone := done } := ht
  rw [ht']
  exact ⟨hmem', hports', hsent'⟩

theorem htxFinish_result (m : Mod) (g i result : Nat) : (m.htxFinish g i result).num (htxSlot g i + 4) 2 = result % 256 ^ 2 := by
  obtain ⟨hmem, -, -⟩ := m.htxFinish_shows g i result
  rw [num_of_mem hmem, num_setNum_self]

section
variable {m : Mod} {g i : Nat} (hp : m.htxPort g i / 256 = g)
include hp

theorem htxTake_empty (hlen : m.num (htxSlot g i) 2 = 0) : m.htxTake g i = m.htxFinish g i 3 :=
  (if_neg (not_not.mpr hp)).trans (if_pos hlen)

theorem htxTake_starts (h0 : m.num (htxSlot g i) 2 ≠ 0) (h496 : m.num (htxSlot g i) 2 ≤ 496)
    (he : m.effMode (m.htxPort g i) = 3 ∨ m.effMode (m.htxPort g i) = 5) (hfull : m.phase.full = true) (hsb : m.asStandby = false) :
    m.htxTake g i = m.setPort (m.htxPort g i) { m.port (m.htxPort g i) with
      hartTx := some (i, m.now + Nat.max 5 (m.rd F.PORT_HART_CTRL_PREAMBLE (m.htxPort g i)) * 11 * 1000000000 / 1200,
        Nat.max 5 (m.rd F.PORT_HART_CTRL_PREAMBLE (m.htxPort g i))) } := by
  refine (if_neg (not_not.mpr hp)).trans ((if_neg h0).trans ((if_neg (Nat.not_lt.mpr h496)).trans (if_neg ?_)))
  rw [hfull, hsb]
  rcases he with he | he <;> simp [he]

end

theorem htxDone_shows {m : Mod} {p : Nat} {x : Nat × Nat × Nat} (h : (m.port p).hartTx = some x) :
    let t := m.htxDone' p
    (t.port p).hartTx = none ∧ t.num (htxSlot (portRegion p) x.1 + 4) 2 = 1 ∧ t.num (htxSlot (portRegion p) x.1 + 8) 8 = x.2.1 % 2 ^ 64 ∧
      t.sent.length = m.sent.length + 1 := by
  obtain ⟨i, t0, pre⟩ := x
  unfold htxDone'
  rw [h]
  dsimp only
  generalize Out.hart p _ = o
  generalize hn : (m.emit o).setPort p { (m.emit o).port p with hartTx := none } = n
  have hport : (n.port p).hartTx = none := by rw [← hn, port_setPort_self]
  have hsent : n.sent.length = m.sent.length + 1 := by
    rw [← hn, setPort_sent]
    rfl
  obtain ⟨hmem, hports, hsent'⟩ := (n.setNum (htxSlot (portRegion p) i + 8) 8 t0).htxFinish_shows (portRegion p) i 1
  refine ⟨?_, htxFinish_result _ _ _ _, ?_, ?_⟩
  · rw [port_of_ports (hports.trans (n.setBytes_ports _ _)), hport]
  · rw [num_of_mem hmem, num_setNum_out _ _ (by omega), num_setNum_self]
    rfl
  · rw [hsent', setNum, setBytes_sent, hsent]

end Mod

/-! ### Ring indices (R95) -/

section
variable {m : Mod} {g : Nat} {ix : BitVec 16}

/-- An index that a write moves, or the error it shows. -/
theorem ringIndex_moves {b : Bool} {f : Fld} (hw : f.width = 16) (hlo : f.lo = 0) (hb : b = true) :
    let t := if b then m.wr f g ix.toNat else m.put F.SPL_RGN_STATUS_RING_ERR g true
    t.rd f g = ix.toNat ∧ OnlyRegsChange [(f.reg, g)] m t := by
  rw [hb, if_pos rfl]
  refine ⟨(m.rd_wr_self f g _ (by omega)).trans ?_, onlyRegsChange_wr m f g _⟩
  rw [hw]
  exact Nat.mod_eq_of_lt ix.isLt

theorem ringIndex_error {b : Bool} {f : Fld} (hb : b = false) :
    let t := if b then m.wr f g ix.toNat else m.put F.SPL_RGN_STATUS_RING_ERR g true
    t.flag F.SPL_RGN_STATUS_RING_ERR g = true ∧ OnlyRegsChange [(.SPL_RGN_STATUS, g)] m t := by
  rw [hb, if_neg (by decide)]
  exact ⟨m.flag_put_self _ _ _ (by decide) rfl, onlyRegsChange_put m F.SPL_RGN_STATUS_RING_ERR g true⟩

end

/-- The modems of a running region take the next slot. -/
theorem hartTransmitFrame_next {s : State} {g : RegionId} {i : Nat} (hdown : s.mod.rgnDown g = false)
    (hnext : s.mod.htxNext g (s.mod.htxWaiting g) [] = some i) : exec (.hartTransmitFrame g) s = .next { s with mod := s.mod.htxTake g i } := by
  show execHartTransmitFrame g s = _
  unfold execHartTransmitFrame State.act
  dsimp only
  rw [hdown, hnext]
  rfl

/-- Settles O32. -/
theorem hartFramesAndRingIndices : Obligations.HartFramesAndRingIndices := by
  intro s p g w fr i ix x m r e prod cons a st took
  refine ⟨fun he hfull hdown hch hroom => ⟨does_next rfl ?_, does_next rfl ?_⟩, fun he hfull hdown hch hroom => does_next rfl ?_,
    fun hdown hnext => ⟨fun hp hlen => ?_, fun hp h0 h496 he hfull hsb => ?_⟩, fun hx => does_next rfl (Mod.htxDone_shows hx), ?_⟩
  · exact Mod.hartReceive_taken he hfull hdown hch false p.isLt hroom
  · exact Mod.hartReceive_taken he hfull hdown hch true p.isLt hroom
  · exact Mod.hartReceive_full he hfull hdown hch false hroom
  · refine does_next (m := m.htxFinish g i 3) ?_ ?_
    · exact (hartTransmitFrame_next hdown hnext).trans (congrArg (fun t : Mod => (.next { s with mod := t } : Host.Outcome State Fault Refusal))
        (Mod.htxTake_empty hp hlen))
    · obtain ⟨-, hports, hsent⟩ := m.htxFinish_shows g i 3
      exact ⟨m.htxFinish_result g i 3, hports, hsent⟩
  · exact does_next ((hartTransmitFrame_next hdown hnext).trans (congrArg (fun t : Mod => (.next { s with mod := t } : Host.Outcome State Fault Refusal))
      (Mod.htxTake_starts hp h0 h496 he hfull hsb))) rfl
  · exact ⟨fun h => does_next rfl (ringIndex_moves rfl rfl h), fun h => does_next rfl (ringIndex_error h),
      fun h => does_next rfl (ringIndex_moves rfl rfl h), fun h => does_next rfl (ringIndex_error h),
      fun h => does_next rfl (ringIndex_moves rfl rfl h), fun h => does_next rfl (ringIndex_error h),
      fun h => does_next rfl (ringIndex_moves rfl rfl h), fun h => does_next rfl (ringIndex_error h)⟩

end Sys2Proof.Machine

/-!
The time base: steps, phases, holdover and slots (R105 to R118).
-/
namespace Sys2Proof.Machine

namespace Mod

/-! ### Lock (R110) -/

/-- A module without reports, the configuration's state and the twin's. -/
def unlocked (m : Mod) : Mod := { m.untold with cfg := {}, twin := {} }

theorem frame_probFailIf (m : Mod) (bit : Nat) (R : List Reg) : Frame unlocked R m (m.probFailIf bit) := by
  have hfail : ∀ n : Mod, Frame unlocked R n n.probFail := fun n => by
    unfold probFail
    split
    · exact .of_regs rfl rfl
    · exact .refl _ _ n
  unfold probFailIf
  split
  · exact .iff _ (hfail m)
  · exact .refl _ _ m

/-- The registers that a loss of lock may change besides LOCKED. -/
def lockRegs : List Reg := [.TWIN_STATUS, .EVR_UNROUTED]

/-- LOCKED set or cleared, and what a loss of lock entails. -/
theorem setLocked_frame (m : Mod) (v : Bool) : Frame unlocked lockRegs (m.put F.TB_STATUS_LOCKED 0 v) (m.setLocked v) := by
  unfold setLocked
  generalize m.put F.TB_STATUS_LOCKED 0 v = n
  refine .iff _ ?_
  have hfail := n.frame_probFailIf 2 lockRegs
  generalize n.probFailIf 2 = x at hfail ⊢
  have htwin : Frame unlocked lockRegs x { x with twin := { n.twin with wasReady := none } } := .of_regs rfl rfl
  generalize ({ x with twin := { n.twin with wasReady := none } } : Mod) = y at htwin ⊢
  have hput : Frame unlocked lockRegs y (y.put F.TWIN_STATUS_READY 0 false) :=
    Told.frame (y.told_put F.TWIN_STATUS_READY 0 false (l := [(.TWIN_STATUS, 0)]) (by decide)) (fun _ => rfl) (by decide)
  exact (hfail.trans htwin).trans (.iff _ (hput.trans (Told.frame (told_raise _ 244) (fun _ => rfl) (by decide))))

section
variable {m : Mod} (v : Bool)

theorem flag_setLocked : (m.setLocked v).flag F.TB_STATUS_LOCKED = v :=
  ((m.setLocked_frame v).flag _ _ (by decide)).trans (flag_put_self _ _ _ _ (by decide) rfl)

theorem flag_setLocked_of_apart {f : Fld} (i : Nat) (hf : f.reg ∉ lockRegs) (ha : F.TB_STATUS_LOCKED.Apart f) :
    (m.setLocked v).flag f i = m.flag f i :=
  ((m.setLocked_frame v).flag _ _ hf).trans (flag_put_of_apart _ _ _ _ ha)

theorem rd_setLocked_of_apart {f : Fld} (i : Nat) (hf : f.reg ∉ lockRegs) (ha : F.TB_STATUS_LOCKED.Apart f) :
    (m.setLocked v).rd f i = m.rd f i :=
  ((m.setLocked_frame v).rd _ _ hf).trans (rd_put_of_apart _ _ _ _ ha)

theorem mono_setLocked : (m.setLocked v).mono = m.mono := (congrArg Mod.mono (m.setLocked_frame v).rest :).trans (m.put_mono F.TB_STATUS_LOCKED 0 v)
theorem now_setLocked : (m.setLocked v).now = m.now := (congrArg Mod.now (m.setLocked_frame v).rest :).trans (m.put_now F.TB_STATUS_LOCKED 0 v)
theorem corr_setLocked : (m.setLocked v).corr = m.corr := (congrArg Mod.corr (m.setLocked_frame v).rest :).trans (m.put_corr F.TB_STATUS_LOCKED 0 v)
theorem holdFrom_setLocked : (m.setLocked v).holdFrom = m.holdFrom :=
  (congrArg Mod.holdFrom (m.setLocked_frame v).rest :).trans (m.put_holdFrom F.TB_STATUS_LOCKED 0 v)

end

/-! ### Time keeps all but the clocks -/

theorem regs_toMono (m : Mod) (t : Nat) : (m.toMono t).regs = m.regs := (congrArg Mod.regs (m.untimed_toMono t) :)
theorem regs_toNow (m : Mod) (t : Nat) : (m.toNow t).regs = m.regs := (congrArg Mod.regs (m.untimed_toNow t) :)
theorem slot_toNow (m : Mod) (t sl : Nat) : (m.toNow t).slot sl = m.slot sl := by
  have hs : (m.toNow t).slots = m.slots := (congrArg Mod.slots (m.untimed_toNow t) :)
  rw [slot, hs, slot]

theorem tbSrc_of_regs {m t : Mod} (h : t.regs = m.regs) : t.tbSrc = m.tbSrc := by
  rw [tbSrc, flag_of_regs h, flag_of_regs h, rd_of_regs h, tbSrc]

/-! ### Steps (R108) -/

section
variable {m : Mod} {t : Nat}

/-- What a step shows before it may unlock. -/
theorem stepTime_shows (m : Mod) (t : Nat) : ∃ n : Mod, m.stepTime t = n.iff (n.tbSrc ≠ 0) (fun m => m.setLocked false) ∧ n.now = t ∧ n.corr = 0 ∧ n.mono = m.mono ∧
    n.tbSrc = m.tbSrc ∧ n.flag F.TB_STATUS_STEPPED = true ∧ n.rd F.TB_STEP_LAST_DELTA = wrapTo 64 ((t : Int) - m.now) ∧
    n.flag F.TB_STATUS_LOCKED = m.flag F.TB_STATUS_LOCKED := by
  have hlt := wrapTo_lt 64 ((t : Int) - m.now)
  unfold stepTime
  dsimp only
  generalize wrapTo 64 ((t : Int) - m.now) = d at hlt
  generalize hx : ({ m with now := t, corr := 0, acc := 0, goodIv := 0, badIv := 0, skips := _, captured := _ } : Mod) = x
  have hnow : x.now = t := by rw [← hx]
  have hcorr : x.corr = 0 := by rw [← hx]
  have hmono : x.mono = m.mono := by rw [← hx]
  have hregs : x.regs = m.regs := by rw [← hx]
  refine ⟨_, rfl, ?_, ?_, ?_, ?_, ?_, ?_, ?_⟩
  · rw [put_now, wr_now, hnow]
  · rw [put_corr, wr_corr, hcorr]
  · rw [put_mono, wr_mono, hmono]
  · rw [← tbSrc_of_regs hregs]
    simp (disch := decide) only [tbSrc, flag_put_of_apart, flag_wr_of_apart, rd_put_of_apart, rd_wr_of_apart]
  · exact flag_put_self _ _ _ _ (by decide) rfl
  · rw [rd_put_of_apart _ _ _ _ (by decide), rd_wr_self _ _ _ _ (by decide)]
    exact Nat.mod_eq_of_lt hlt
  · rw [flag_put_of_apart _ _ _ _ (by decide), flag_wr_of_apart _ _ _ _ (by decide), flag_of_regs hregs]

end

theorem tbStep_steps {m : Mod} (h : m.flag F.TB_STATUS_LOCKED = false ∨ m.tbSrc = 0) (v : Nat) :
    let t := m.tbStep v
    t.now = v ∧ t.corr = 0 ∧ t.mono = m.mono ∧ t.flag F.TB_STATUS_STEPPED = true ∧ t.rd F.TB_STEP_LAST_DELTA = wrapTo 64 ((v : Int) - m.now) ∧
      (m.tbSrc = 0 → t.flag F.TB_STATUS_LOCKED = m.flag F.TB_STATUS_LOCKED) := by
  obtain ⟨n, hn, hnow, hcorr, hmono, hsrc, hstep, hd, hlock⟩ := m.stepTime_shows v
  have ht : m.tbStep v = n.iff (n.tbSrc ≠ 0) (fun m => m.setLocked false) := by
    rw [← hn]
    refine if_pos ?_
    rcases h with h | h <;> simp [h]
  intro t
  have ht' : t = _ := ht
  by_cases h0 : m.tbSrc = 0
  · have he : t = n := by rw [ht', hsrc, h0]; rfl
    rw [he]
    exact ⟨hnow, hcorr, hmono, hstep, hd, fun _ => hlock⟩
  · have he : t = n.setLocked false := by rw [ht', hsrc, decide_eq_true h0, iff_true]
    rw [he, now_setLocked, corr_setLocked, mono_setLocked, flag_setLocked_of_apart _ _ (by decide) (by decide),
      rd_setLocked_of_apart _ _ (by decide) (by decide)]
    exact ⟨hnow, hcorr, hmono, hstep, hd, fun h => absurd h h0⟩

theorem tbStep_refused {m : Mod} (h : m.flag F.TB_STATUS_LOCKED = true) (h0 : m.tbSrc ≠ 0) (v : Nat) :
    m.tbStep v = m.put F.TB_STATUS_STEP_REFUSED 0 true := by
  refine if_neg ?_
  simp [h, h0]

theorem tbFreq_clamps {m : Mod} (h : m.tbSrc = 2) (a : BitVec 32) :
    m.tbFreq a.toNat = m.wr F.TB_FREQ_ADJ 0 (wrapTo 32 (if a.toInt > 858993 then 858993 else if a.toInt < -858993 then -858993 else a.toInt)) := by
  rw [tbFreq, if_pos h, signedOf_toNat]
  rfl

/-! ### 1PPS (R114) -/

section
variable {m : Mod} {c : Clk10}

theorem ppsEdge_other (h3 : m.tbSrc ≠ 3) (h4 : m.tbSrc ≠ 4) : m.ppsEdge c = m := if_pos ⟨h3, h4⟩

theorem ppsEdge_missing (h : m.tbSrc = 3) (hc : clkGood c = false) : m.ppsEdge c = m.wr F.TB_PPS_SEC_SEC 0 (m.rd F.TB_PPS_SEC_SEC + 1) := by
  unfold ppsEdge
  dsimp only
  rw [h, hc, if_neg (by decide), show (decide ((3 : Nat) = 3) && false) = false from rfl, iff_false,
    show (decide ((3 : Nat) = 4) || false) = false from rfl, iff_false]

theorem ppsEdge_interval (h : m.tbSrc = 4 ∨ (m.tbSrc = 3 ∧ clkGood c = true)) :
    m.ppsEdge c = (if m.tbSrc = 3 then { m.wr F.TB_PPS_SEC_SEC 0 (m.rd F.TB_PPS_SEC_SEC + 1) with rate10 := c.rate.toInt }
      else m.wr F.TB_PPS_SEC_SEC 0 (m.rd F.TB_PPS_SEC_SEC + 1)).syncOffset
        ((m.now : Int) - (m.rd F.TB_PPS_SEC_SEC * 1000000000 + m.rd F.TB_PPS_DELAY_DELAY : Nat)) := by
  unfold ppsEdge
  dsimp only
  rcases h with h | ⟨h, hc⟩
  · rw [h, if_neg (by decide), if_neg (by decide), show (decide ((4 : Nat) = 3) && clkGood c) = false from rfl, iff_false,
      show (decide ((4 : Nat) = 4) || clkGood c) = true from rfl, iff_true]
  · rw [h, hc, if_neg (by decide), if_pos rfl, show (decide ((3 : Nat) = 3) && true) = true from rfl, iff_true,
      show (decide ((3 : Nat) = 4) || true) = true from rfl, iff_true]

end

/-! ### Slewing (R108) -/

/-- With no rate offset the correction is slewed out at the limit. -/
theorem slewOut_ends {m : Mod} (h : m.freqAdj = 0) :
    m.slewOut.corr = 0 ∧ m.slewOut.mono = m.mono + (m.corr.natAbs + 858992) / 858993 ∧ m.slewOut.regs = m.regs := by
  have hrate : (if m.corr ≥ 0 then slewLimit - m.freqAdj else slewLimit + m.freqAdj).toNat = 858993 := by
    simp [h, slewLimit]
  have ht : m.slewOut = m.advance ((m.corr.natAbs + 858992) / 858993) := by
    unfold slewOut
    dsimp only
    rw [hrate, if_neg (by decide), Nat.add_sub_assoc (by decide)]
  have hroom : m.corr.natAbs ≤ 858993 * ((m.corr.natAbs + 858992) / 858993) := by omega
  generalize (m.corr.natAbs + 858992) / 858993 = d at ht hroom
  have hgain : (m.gain d).2 = m.corr := by
    have hlim : (slewLimit - 0) * (d : Int) = 858993 * d ∧ (slewLimit + 0) * (d : Int) = 858993 * d := by simp [slewLimit]
    unfold gain
    dsimp only
    rw [h, hlim.1, hlim.2]
    have hle : ((m.corr.natAbs : Nat) : Int) ≤ 858993 * (d : Int) := by exact_mod_cast hroom
    simp only [ite_self, if_pos hle]
    split <;> omega
  rw [ht]
  refine ⟨?_, rfl, rfl⟩
  show m.corr - (m.gain d).2 = 0
  rw [hgain, Int.sub_self]

/-! ### Holdover (R110) -/

section
variable {m : Mod}

theorem syncMissing_none (h : m.tbSrc = 0 ∨ m.flag F.TB_STATUS_HOLDOVER = true) : m.syncMissing = m := by
  refine if_pos ?_
  rcases h with h | h <;> simp [h]

theorem holdExpiry_none (h : m.tbSrc = 0 ∨ m.flag F.TB_STATUS_HOLDOVER = false) : m.holdExpiry = m := by
  refine if_neg ?_
  rcases h with h | h <;> simp [h]

theorem holdExpiry_unlocks (hs : m.tbSrc ≠ 0) (hh : m.flag F.TB_STATUS_HOLDOVER = true) :
    m.holdExpiry.flag F.TB_STATUS_LOCKED = false ∧ m.holdExpiry.mono = Nat.max m.mono (m.holdFrom + m.rd F.TB_CTRL_HOLD * 1000000000) := by
  have ht : m.holdExpiry = (m.toMono (m.holdFrom + m.rd F.TB_CTRL_HOLD * 1000000000)).setLocked false := if_pos ⟨hs, hh⟩
  rw [ht]
  exact ⟨flag_setLocked _, (mono_setLocked _).trans (mono_toMono _ _)⟩

/-- Holdover as it shows. -/
theorem holdover_begins (hs : m.tbSrc ≠ 0) (hh : m.flag F.TB_STATUS_HOLDOVER = false) :
    let t := m.holdover
    t.flag F.TB_STATUS_HOLDOVER = true ∧ t.flag F.TB_STATUS_SRC_OK = false ∧ t.mono = m.mono ∧ t.now = m.now ∧ t.holdFrom = m.mono ∧
      t.flag F.TB_STATUS_LOCKED = (m.flag F.TB_STATUS_LOCKED && decide (m.rd F.TB_CTRL_HOLD ≠ 0)) := by
  intro t
  obtain ⟨n, hn, hhold, hok, hmono, hnow, hfrom, hlock, hrd⟩ : ∃ n : Mod, t = n.iff (n.rd F.TB_CTRL_HOLD = 0) (fun m => m.setLocked false) ∧
      n.flag F.TB_STATUS_HOLDOVER = true ∧ n.flag F.TB_STATUS_SRC_OK = false ∧ n.mono = m.mono ∧ n.now = m.now ∧ n.holdFrom = m.mono ∧
      n.flag F.TB_STATUS_LOCKED = m.flag F.TB_STATUS_LOCKED ∧ n.rd F.TB_CTRL_HOLD = m.rd F.TB_CTRL_HOLD := by
    have ht : t = _ := if_neg (by simp [hs, hh])
    rw [ht]
    dsimp only
    generalize hx : ({ m with holdFrom := m.mono } : Mod) = x
    have hregs : x.regs = m.regs := by rw [← hx]
    have hmono : x.mono = m.mono := by rw [← hx]
    have hnow : x.now = m.now := by rw [← hx]
    have hfrom : x.holdFrom = m.mono := by rw [← hx]
    refine ⟨(x.put F.TB_STATUS_HOLDOVER 0 true).put F.TB_STATUS_SRC_OK 0 false, rfl, ?_⟩
    rw [flag_put_of_apart _ _ _ _ (by decide), flag_put_self _ _ _ _ (by decide) rfl, flag_put_self _ _ _ _ (by decide) rfl, put_mono, put_mono,
      put_now, put_now, put_holdFrom, put_holdFrom, flag_put_of_apart _ _ _ _ (by decide), flag_put_of_apart _ _ _ _ (by decide),
      rd_put_of_apart _ _ _ _ (by decide), rd_put_of_apart _ _ _ _ (by decide), flag_of_regs hregs, rd_of_regs hregs]
    exact ⟨rfl, rfl, hmono, hnow, hfrom, rfl, rfl⟩
  rw [hn]
  by_cases h0 : n.rd F.TB_CTRL_HOLD = 0
  · rw [decide_eq_true h0, iff_true, flag_setLocked_of_apart _ _ (by decide) (by decide), flag_setLocked_of_apart _ _ (by decide) (by decide),
      mono_setLocked, now_setLocked, holdFrom_setLocked, flag_setLocked, ← hrd, h0]
    exact ⟨hhold, hok, hmono, hnow, hfrom, by simp⟩
  · rw [decide_eq_false h0, iff_false, ← hrd, decide_eq_true h0, Bool.and_true]
    exact ⟨hhold, hok, hmono, hnow, hfrom, hlock⟩

theorem syncMissing_holds (hs : m.tbSrc ≠ 0) (hh : m.flag F.TB_STATUS_HOLDOVER = false) :
    let t := m.syncMissing
    t.flag F.TB_STATUS_HOLDOVER = true ∧ t.flag F.TB_STATUS_SRC_OK = false ∧ t.mono = Nat.max m.mono m.missAt ∧ t.now = (m.toMono m.missAt).now ∧
      t.holdFrom = t.mono ∧ t.flag F.TB_STATUS_LOCKED = (m.flag F.TB_STATUS_LOCKED && decide (m.rd F.TB_CTRL_HOLD ≠ 0)) := by
  intro t
  have ht : t = (m.toMono m.missAt).holdover := if_neg (by simp [hs, hh])
  have hregs := m.regs_toMono m.missAt
  obtain ⟨hhold, hok, hmono, hnow, hfrom, hlock⟩ := holdover_begins (m := m.toMono m.missAt) (by rw [tbSrc_of_regs hregs]; exact hs)
    (by rw [flag_of_regs hregs]; exact hh)
  rw [flag_of_regs hregs, rd_of_regs hregs] at hlock
  rw [ht]
  exact ⟨hhold, hok, hmono.trans (mono_toMono _ _), hnow, hfrom.trans hmono.symm, hlock⟩

end

/-! ### Slots (R116, R117) -/

section
variable {m : Mod} {sl t : Nat}

theorem slotYields_last {l : Nat} (h : (m.slot sl).last = some l) (hl : t ≤ l) : m.slotYields sl t = false := by
  unfold slotYields
  rw [h]
  simp [Nat.not_lt.mpr hl]

theorem slotInstant_yields (h : m.slotYields sl t = true) :
    let u := m.slotInstant sl t
    (u.slot sl).last = some t ∧ (u.slot sl).events = (m.slot sl).events ++ [t] ∧ u.rd F.SCH_COUNT_COUNT sl = (m.rd F.SCH_COUNT_COUNT sl + 1) % 2 ^ 32 ∧
      u.slotYields sl t = false ∧ u.mono = (m.toNow t).mono := by
  intro u
  have hslot := m.slot_toNow t sl
  have hregs := m.regs_toNow t
  have hbar : ¬ (!m.slotYields sl t) = true := by rw [h]; decide
  have hu : u = _ := if_neg hbar
  dsimp only at hu
  generalize m.toNow t = n at hu hslot hregs
  rw [hslot] at hu
  generalize hx : n.setSlot sl { m.slot sl with last := some t, events := (m.slot sl).events ++ [t] } = x at hu
  have hxs : x.slot sl = { m.slot sl with last := some t, events := (m.slot sl).events ++ [t] } := by rw [← hx, slot_setSlot_self]
  have hxr : x.rd F.SCH_COUNT_COUNT sl = m.rd F.SCH_COUNT_COUNT sl := by rw [← hx, rd_of_regs (setSlot_regs _ _ _), rd_of_regs hregs]
  have hxm : x.mono = n.mono := by rw [← hx, setSlot_mono]
  have hmono : u.mono = n.mono := by
    rw [hu]
    exact (x.wr_mono F.SCH_COUNT_COUNT sl (x.rd F.SCH_COUNT_COUNT sl + 1)).trans hxm
  have hs : u.slot sl = { m.slot sl with last := some t, events := (m.slot sl).events ++ [t] } := by
    rw [hu]
    have hslots := x.wr_slots F.SCH_COUNT_COUNT sl (x.rd F.SCH_COUNT_COUNT sl + 1)
    show Tbl.get {} (x.wr F.SCH_COUNT_COUNT sl (x.rd F.SCH_COUNT_COUNT sl + 1)).slots sl = _
    rw [hslots]
    exact hxs
  have hrd : u.rd F.SCH_COUNT_COUNT sl = (m.rd F.SCH_COUNT_COUNT sl + 1) % 2 ^ 32 := by
    rw [hu, ← hxr]
    exact x.rd_wr_self F.SCH_COUNT_COUNT sl _ (by decide)
  exact ⟨by rw [hs], by rw [hs], hrd, slotYields_last (by rw [hs]) (Nat.le_refl t), hmono⟩

theorem slotInstant_none (h : m.slotYields sl t = false) : m.slotInstant sl t = m := if_pos (by rw [h]; rfl)

theorem slotEvent_none (h : t ∉ (m.slot sl).events) : m.slotEvent sl t = m := if_pos (by simpa using h)

theorem slotEvent_raises (h : t ∈ (m.slot sl).events) :
    m.slotEvent sl t = ((m.toNow (t + m.slotDelay sl t)).setSlot sl { m.slot sl with events := (m.slot sl).events.erase t }).raise (224 + sl) :=
  if_neg (by simpa using h)

end

end Mod

theorem next_of_eq {s : State} {m t : Mod} {i : Instr} (he : exec i s = .next { s with mod := m }) (h : m = t) :
    ∃ u, exec i s = .next u ∧ u = { s with mod := t } := ⟨_, he, by rw [h]⟩

theorem next_same {s : State} {m : Mod} {i : Instr} (he : exec i s = .next { s with mod := m }) (h : m = s.mod) :
    ∃ u, exec i s = .next u ∧ u = s := ⟨_, he, by rw [h]⟩

/-- Settles O26. -/
theorem timeBaseCommandsSetTheClock : Obligations.TimeBaseCommandsSetTheClock := by
  refine ⟨⟨fun s w d a v c => ?_, fun s => ?_⟩, fun s sl t => ?_⟩
  · intro m src adj
    refine ⟨fun h => next_of_eq (m := m.tbPhase d.toInt) rfl ?_, fun h => ⟨_, rfl, rfl, Mod.tbStep_steps h v.toNat⟩,
      fun hl h0 => next_of_eq (m := m.tbStep v.toNat) rfl (Mod.tbStep_refused hl h0 _), fun h => next_of_eq (m := m.tbFreq a.toNat) rfl (Mod.tbFreq_clamps h a),
      fun h3 h4 => next_same (m := m.ppsEdge c) rfl (Mod.ppsEdge_other h3 h4), fun h hc => next_of_eq (m := m.ppsEdge c) rfl (Mod.ppsEdge_missing h hc),
      fun h => next_of_eq (m := m.ppsEdge c) rfl (Mod.ppsEdge_interval h), fun h => ⟨_, rfl, rfl, Mod.slewOut_ends h⟩⟩
    unfold Mod.tbPhase
    rw [show m.tbSrc = 0 from h]
    rfl
  · intro m
    exact ⟨fun h => next_same (m := m.syncMissing) rfl (Mod.syncMissing_none h), fun hs hh => ⟨_, rfl, rfl, Mod.syncMissing_holds hs hh⟩,
      fun hs hh => ⟨_, rfl, rfl, Mod.holdExpiry_unlocks hs hh⟩, fun h => next_same (m := m.holdExpiry) rfl (Mod.holdExpiry_none h)⟩
  · intro m
    exact ⟨fun h => ⟨_, rfl, rfl, Mod.slotInstant_yields h⟩, fun h => next_same (m := m.slotInstant sl t.toNat) rfl (Mod.slotInstant_none h),
      fun h => next_same (m := m.slotEvent sl t.toNat) rfl (Mod.slotEvent_none h),
      fun h => next_of_eq (m := m.slotEvent sl t.toNat) rfl (Mod.slotEvent_raises h)⟩

end Sys2Proof.Machine

/-!
Chess clocks: intervals and stops (R119 to R123).
-/
namespace Sys2Proof.Machine

/-! ### What a step at one clock leaves of the others -/

/-- From `m` to `t` nothing of time, of what is on its way to clocks, of the other clocks and of this one's FALLEN changes. -/
structure Mod.Ticks (n : Nat) (m t : Mod) : Prop where
  mono : t.mono = m.mono
  now : t.now = m.now
  heard : t.heard = m.heard
  clk : ∀ n', n' ≠ n → t.clk n' = m.clk n'
  fallen : t.flag F.CLK_STATUS_FALLEN n = m.flag F.CLK_STATUS_FALLEN n

namespace Mod

theorem clk_of_clks {m t : Mod} (h : t.clks = m.clks) (n : Nat) : t.clk n = m.clk n := by rw [clk, h, clk]

@[simp] theorem clk_wr (m : Mod) (f : Fld) (i v n : Nat) : (m.wr f i v).clk n = m.clk n := clk_of_clks (m.wr_clks f i v) n
@[simp] theorem clk_put (m : Mod) (f : Fld) (i : Nat) (b : Bool) (n : Nat) : (m.put f i b).clk n = m.clk n := clk_of_clks (m.put_clks f i b) n

namespace Ticks

variable {n : Nat} {m x t : Mod}

theorem refl (n : Nat) (m : Mod) : m.Ticks n m := ⟨rfl, rfl, rfl, fun _ _ => rfl, rfl⟩

theorem trans (h : m.Ticks n x) (h' : x.Ticks n t) : m.Ticks n t :=
  ⟨h'.mono.trans h.mono, h'.now.trans h.now, h'.heard.trans h.heard, fun k hk => (h'.clk k hk).trans (h.clk k hk), h'.fallen.trans h.fallen⟩

theorem of_eq (hm : t.mono = m.mono) (hn : t.now = m.now) (hh : t.heard = m.heard) (hc : t.clks = m.clks) (hr : t.regs = m.regs) : m.Ticks n t :=
  ⟨hm, hn, hh, fun k _ => clk_of_clks hc k, flag_of_regs hr _ _⟩

end Ticks

theorem ticks_setClk (m : Mod) (n : Nat) (v : Clk) : m.Ticks n (m.setClk n v) :=
  ⟨m.setClk_mono n v, m.setClk_now n v, m.setClk_heard n v, fun _ h => clk_setClk_ne m v h, flag_of_regs (m.setClk_regs n v) _ _⟩

theorem ticks_wr (m : Mod) (n : Nat) {f : Fld} (v : Nat) (h : f.Apart F.CLK_STATUS_FALLEN) : m.Ticks n (m.wr f n v) :=
  ⟨m.wr_mono f n v, m.wr_now f n v, m.wr_heard f n v, fun k _ => m.clk_wr f n v k, flag_wr_of_apart _ _ _ _ h⟩

theorem ticks_put (m : Mod) (n : Nat) {f : Fld} (b : Bool) (h : f.Apart F.CLK_STATUS_FALLEN) : m.Ticks n (m.put f n b) := m.ticks_wr n _ h

theorem ticks_fallNow (m : Mod) (n : Nat) (l : Tbl Nat) : m.Ticks n { m with fallNow := l } := .of_eq rfl rfl rfl rfl rfl

/-- A clock's record changed, and its fall forgotten. -/
theorem setClk_fallNow_shows (m : Mod) (n : Nat) (v : Clk) (l : Tbl Nat) :
    ({ m.setClk n v with fallNow := l } : Mod).clk n = v ∧ m.Ticks n { m.setClk n v with fallNow := l } ∧
      ({ m.setClk n v with fallNow := l } : Mod).regs = m.regs := by
  have hset := m.ticks_setClk n v
  have hclk := clk_setClk_self m n v
  have hregs := m.setClk_regs n v
  generalize m.setClk n v = x at hset hclk hregs ⊢
  exact ⟨hclk, hset.trans (x.ticks_fallNow n l), hregs⟩

/-! ### Intervals (R121) -/

/-- What a clock that begins an interval shows. -/
theorem clkBegin_shows (m : Mod) (n a : Nat) :
    ((m.clkBegin n a).clk n).start = some a ∧ (m.clkBegin n a).flag F.CLK_STATUS_RUNNING n = true ∧ m.Ticks n (m.clkBegin n a) := by
  obtain ⟨hclk, hticks, -⟩ := m.setClk_fallNow_shows n { m.clk n with start := some a } (Tbl.erase m.fallNow n)
  unfold clkBegin
  generalize ({ m.setClk n { m.clk n with start := some a } with fallNow := Tbl.erase m.fallNow n } : Mod) = y at hclk hticks ⊢
  exact ⟨by rw [clk_put, hclk], flag_put_self _ _ _ _ (by decide) rfl, hticks.trans (y.ticks_put n true (by decide))⟩

/-- What a clock that stops in time shows, its ports kept. -/
theorem clkStopped_shows {m : Mod} {n : Nat} (h : m.flag F.CLK_CTRL_AUTOREL n = false) (t0 a : Nat) :
    ((m.clkStopped n t0 a).clk n).start = none ∧ (m.clkStopped n t0 a).flag F.CLK_STATUS_RUNNING n = false ∧
      (m.clkStopped n t0 a).rd F.CLK_ELAPSED_TIME n = (a - t0) % 2 ^ 40 ∧ m.Ticks n (m.clkStopped n t0 a) := by
  obtain ⟨hclk, hticks, hregs⟩ := m.setClk_fallNow_shows n { m.clk n with start := none } (Tbl.erase m.fallNow n)
  unfold clkStopped
  dsimp only
  generalize ({ m.setClk n { m.clk n with start := none } with fallNow := Tbl.erase m.fallNow n } : Mod) = y at hclk hticks hregs ⊢
  have hauto : ((y.put F.CLK_STATUS_RUNNING n false).wr F.CLK_ELAPSED_TIME n (a - t0)).flag F.CLK_CTRL_AUTOREL n = false := by
    rw [flag_wr_of_apart _ _ _ _ (by decide), flag_put_of_apart _ _ _ _ (by decide), flag_of_regs hregs, h]
  rw [hauto, iff_false]
  refine ⟨by rw [clk_wr, clk_put, hclk], ?_, rd_wr_self _ _ _ _ (by decide), ?_⟩
  · rw [flag_wr_of_apart _ _ _ _ (by decide), flag_put_self _ _ _ _ (by decide) rfl]
  · exact (hticks.trans (y.ticks_put n false (by decide))).trans (ticks_wr _ n _ (by decide))

section
variable {m x : Mod} {n a : Nat}

/-- A clock that is not running has no fall due. -/
theorem clkSettle_stopped (h : (m.clk n).start = none) : m.clkSettle n a = m := by
  unfold clkSettle clkDue
  rw [h]

/-- A running clock in a mode of the three. -/
theorem clkDue_running {t0 : Nat} (hmd : m.clkMode n = 1 ∨ m.clkMode n = 2 ∨ m.clkMode n = 3) (h : (m.clk n).start = some t0) :
    m.clkDue n = some (t0 + m.rd F.CLK_LIMIT_LIMIT n + 1) := by
  unfold clkDue
  rw [h]
  exact if_pos hmd

theorem clkSettle_early {t0 : Nat} (hmd : m.clkMode n = 1 ∨ m.clkMode n = 2 ∨ m.clkMode n = 3) (h : (m.clk n).start = some t0)
    (ha : a < t0 + m.rd F.CLK_LIMIT_LIMIT n + 1) : m.clkSettle n a = m := by
  unfold clkSettle
  rw [clkDue_running hmd h]
  exact if_neg (Nat.not_le.mpr ha)

/-- The first arrival of a nanosecond. -/
theorem clkTogether_first (h : ∀ x, (m.clk n).together = some x → x.at_ ≠ a) :
    m.clkTogether n a = ⟨a, (m.clk n).start, m.flag F.CLK_STATUS_RESTART_LOST n, false, false⟩ := by
  unfold clkTogether
  cases hx : (m.clk n).together with
  | none => rfl
  | some x => exact if_neg (h x hx)

theorem clkTogether_next {x : Arrivals} (h : (m.clk n).together = some x) (ha : x.at_ = a) : m.clkTogether n a = x := by
  unfold clkTogether
  rw [h]
  exact if_pos ha

/-- A clock in which an arrival has been noted. -/
theorem noted_shows (m : Mod) (n : Nat) (x : Arrivals) :
    ((m.setClk n { m.clk n with together := some x }).clk n).start = (m.clk n).start ∧ m.Ticks n (m.setClk n { m.clk n with together := some x }) ∧
      (m.setClk n { m.clk n with together := some x }).regs = m.regs :=
  ⟨by rw [clk_setClk_self], m.ticks_setClk n _, m.setClk_regs n _⟩

/-- A start arrival at a clock in one of the three modes, no fall due. -/
theorem clkStart_noted {x : Arrivals} (hmd : m.clkMode n = 1 ∨ m.clkMode n = 2 ∨ m.clkMode n = 3) (hs : m.clkSettle n a = m)
    (hx : m.clkTogether n a = x) (hnew : x.start = false) :
    m.clkStart n a = (let t := m.setClk n { m.clk n with together := some { x with start := true } }
      match x.was, x.stop with
      | some _, false => if m.clkMode n = 2 then t.clkBegin n a else t.put F.CLK_STATUS_RESTART_LOST n true
      | none, true => (t.clkBegin n a).clkStopRun n a a
      | _, _ => t.clkBegin n a) := by
  unfold clkStart
  dsimp only
  rw [hs, hx, hnew]
  rcases hmd with hmd | hmd | hmd <;> rw [hmd] <;> rfl

theorem clkStart_again {x : Arrivals} (hmd : m.clkMode n = 1 ∨ m.clkMode n = 2 ∨ m.clkMode n = 3) (hs : m.clkSettle n a = m)
    (hx : m.clkTogether n a = x) (hold : x.start = true) : m.clkStart n a = m := by
  unfold clkStart
  dsimp only
  rw [hs, hx, hold]
  rcases hmd with hmd | hmd | hmd <;> rw [hmd] <;> rfl

/-- A stop arrival at a clock in one of the three modes, no fall due. -/
theorem clkStop_noted {x : Arrivals} (hmd : m.clkMode n = 1 ∨ m.clkMode n = 2 ∨ m.clkMode n = 3) (hs : m.clkSettle n a = m)
    (hx : m.clkTogether n a = x) (hnew : x.stop = false) :
    m.clkStop n a = (let t := m.setClk n { m.clk n with together := some { x with stop := true } }
      match x.was, x.start with
      | none, false => t
      | none, true => t.clkStopRun n a a
      | some t0, false => t.clkStopRun n t0 a
      | some t0, true =>
        (((t.setClk n { t.clk n with start := some t0 }).put F.CLK_STATUS_RESTART_LOST n x.lost).clkStopRun n t0 a).clkBegin n a) := by
  unfold clkStop
  dsimp only
  rw [hs, hx, hnew]
  rcases hmd with hmd | hmd | hmd <;> rw [hmd] <;> rfl

theorem clkMode_of (hp : x.phase = m.phase) (hr : x.regs = m.regs) : x.clkMode n = m.clkMode n := by
  rw [clkMode, hp, rd_of_regs hr, clkMode]

theorem clkStopRun_stops {t0 : Nat} (h : m.clkMode n = 3 → m.rd F.CLK_MIN_MIN n ≤ a - t0) : m.clkStopRun n t0 a = m.clkStopped n t0 a :=
  if_neg (fun hn => absurd hn.2 (Nat.not_lt.mpr (h hn.1)))

end

/-! ### The clock at an arrival (R121) -/

section
variable {m : Mod} {n a : Nat} (hmd : m.clkMode n = 1 ∨ m.clkMode n = 2 ∨ m.clkMode n = 3)
include hmd

/-- A start finds the clock stopped. -/
theorem clkStart_begins (hstart : (m.clk n).start = none) (hfresh : ∀ x, (m.clk n).together = some x → x.at_ ≠ a) :
    ((m.clkStart n a).clk n).start = some a ∧ (m.clkStart n a).flag F.CLK_STATUS_RUNNING n = true ∧ m.Ticks n (m.clkStart n a) := by
  rw [clkStart_noted hmd (clkSettle_stopped hstart) (clkTogether_first hfresh) rfl, hstart]
  obtain ⟨hs, hr, ht⟩ := (m.setClk n { m.clk n with together := some ⟨a, none, m.flag F.CLK_STATUS_RESTART_LOST n, true, false⟩ }).clkBegin_shows n a
  exact ⟨hs, hr, (m.ticks_setClk n _).trans ht⟩

/-- A start finds the clock running. -/
theorem clkStart_restarts {t0 : Nat} (hstart : (m.clk n).start = some t0) (ha : a < t0 + m.rd F.CLK_LIMIT_LIMIT n + 1)
    (hfresh : ∀ x, (m.clk n).together = some x → x.at_ ≠ a) :
    ((m.clkStart n a).clk n).start = some (if m.clkMode n = 2 then a else t0) ∧
      (m.clkMode n ≠ 2 → (m.clkStart n a).flag F.CLK_STATUS_RESTART_LOST n = true) ∧ m.Ticks n (m.clkStart n a) := by
  rw [clkStart_noted hmd (clkSettle_early hmd hstart ha) (clkTogether_first hfresh) rfl, hstart]
  obtain ⟨hns, hnt, -⟩ := m.noted_shows n ⟨a, some t0, m.flag F.CLK_STATUS_RESTART_LOST n, true, false⟩
  dsimp only at hns hnt ⊢
  generalize m.setClk n { m.clk n with together := some ⟨a, some t0, m.flag F.CLK_STATUS_RESTART_LOST n, true, false⟩ } = x at hns hnt ⊢
  by_cases h2 : m.clkMode n = 2
  · rw [if_pos h2, if_pos h2]
    obtain ⟨hs, -, ht⟩ := x.clkBegin_shows n a
    exact ⟨hs, fun h => absurd h2 h, hnt.trans ht⟩
  · rw [if_neg h2, if_neg h2]
    exact ⟨by rw [clk_put, hns, hstart], fun _ => flag_put_self _ _ _ _ (by decide) rfl, hnt.trans (x.ticks_put n true (by decide))⟩

/-- A start after a stop of the same nanosecond, where the clock ran before them. -/
theorem clkStart_afterStop {t0 : Nat} {lost : Bool} (hx : (m.clk n).together = some ⟨a, some t0, lost, false, true⟩) (hstart : (m.clk n).start = none) :
    ((m.clkStart n a).clk n).start = some a ∧ (m.clkStart n a).flag F.CLK_STATUS_RUNNING n = true ∧ m.Ticks n (m.clkStart n a) := by
  rw [clkStart_noted hmd (clkSettle_stopped hstart) (clkTogether_next hx rfl) rfl]
  obtain ⟨hs, hr, ht⟩ := (m.setClk n { m.clk n with together := some ⟨a, some t0, lost, true, true⟩ }).clkBegin_shows n a
  exact ⟨hs, hr, (m.ticks_setClk n _).trans ht⟩

/-- A stop in time. -/
theorem clkStop_stops {t0 : Nat} (hstart : (m.clk n).start = some t0) (ha : a < t0 + m.rd F.CLK_LIMIT_LIMIT n + 1)
    (hmin : m.clkMode n = 3 → m.rd F.CLK_MIN_MIN n ≤ a - t0) (hfresh : ∀ x, (m.clk n).together = some x → x.at_ ≠ a)
    (hauto : m.flag F.CLK_CTRL_AUTOREL n = false) :
    ((m.clkStop n a).clk n).start = none ∧ (m.clkStop n a).flag F.CLK_STATUS_RUNNING n = false ∧
      (m.clkStop n a).rd F.CLK_ELAPSED_TIME n = (a - t0) % 2 ^ 40 ∧ m.Ticks n (m.clkStop n a) := by
  rw [clkStop_noted hmd (clkSettle_early hmd hstart ha) (clkTogether_first hfresh) rfl, hstart]
  obtain ⟨-, hnt, hnr⟩ := m.noted_shows n ⟨a, some t0, m.flag F.CLK_STATUS_RESTART_LOST n, false, true⟩
  have hph : (m.setClk n { m.clk n with together := some ⟨a, some t0, m.flag F.CLK_STATUS_RESTART_LOST n, false, true⟩ }).phase = m.phase :=
    m.setClk_phase n _
  dsimp only at hnt hnr hph ⊢
  generalize m.setClk n { m.clk n with together := some ⟨a, some t0, m.flag F.CLK_STATUS_RESTART_LOST n, false, true⟩ } = x at hnt hnr hph ⊢
  rw [clkStopRun_stops (by rw [clkMode_of hph hnr, rd_of_regs hnr]; exact hmin)]
  obtain ⟨hs, hr, he, ht⟩ := clkStopped_shows (by rw [flag_of_regs hnr, hauto]) t0 a
  exact ⟨hs, hr, he, hnt.trans ht⟩

/-- A stop after a start of the same nanosecond, where the clock stood before them. -/
theorem clkStop_afterStart {lost : Bool} (hx : (m.clk n).together = some ⟨a, none, lost, true, false⟩) (hstart : (m.clk n).start = some a)
    (h3 : m.clkMode n ≠ 3) (hauto : m.flag F.CLK_CTRL_AUTOREL n = false) :
    ((m.clkStop n a).clk n).start = none ∧ (m.clkStop n a).rd F.CLK_ELAPSED_TIME n = 0 ∧ m.Ticks n (m.clkStop n a) := by
  rw [clkStop_noted (a := a) hmd (clkSettle_early hmd hstart (Nat.lt_succ_of_le (Nat.le_add_right _ _))) (clkTogether_next hx rfl) rfl]
  obtain ⟨-, hnt, hnr⟩ := m.noted_shows n ⟨a, none, lost, true, true⟩
  have hph : (m.setClk n { m.clk n with together := some ⟨a, none, lost, true, true⟩ }).phase = m.phase := m.setClk_phase n _
  dsimp only at hnt hnr hph ⊢
  generalize m.setClk n { m.clk n with together := some ⟨a, none, lost, true, true⟩ } = x at hnt hnr hph ⊢
  rw [clkStopRun_stops (by rw [clkMode_of hph hnr]; exact fun h => absurd h h3)]
  obtain ⟨hs, -, he, ht⟩ := clkStopped_shows (by rw [flag_of_regs hnr, hauto]) a a
  rw [Nat.sub_self] at he
  exact ⟨hs, he, hnt.trans ht⟩

end

/-! ### Arrivals (R121) -/

/-- The module as an occurrence arrives. -/
def arriving (m : Mod) (e : Nat × Bool × Nat) : Mod := ({ m with heard := m.heard.erase e } : Mod).toMono (e.2.2 + 10)

/-- The instant of TB_MONO at which an occurrence arrives. -/
def arrivedAt (m : Mod) (e : Nat × Bool × Nat) : Nat := Nat.min (m.arriving e).mono (e.2.2 + 30)

section
variable (m : Mod) (e : Nat × Bool × Nat)

theorem arriving_clk (n : Nat) : (m.arriving e).clk n = m.clk n :=
  clk_of_clks (congrArg Mod.clks (untimed_toMono { m with heard := m.heard.erase e } (e.2.2 + 10)) :) n

theorem arriving_regs : (m.arriving e).regs = m.regs := regs_toMono { m with heard := m.heard.erase e } (e.2.2 + 10)

theorem arriving_phase : (m.arriving e).phase = m.phase :=
  (congrArg Mod.phase (untimed_toMono { m with heard := m.heard.erase e } (e.2.2 + 10)) :)

end

section
variable {m : Mod} {n : Nat} {start : Bool} {f : Mod → Nat → Mod}

theorem arrival_none (h : m.heard.find? (fun e => e.1 == n && e.2.1 == start) = none) : m.arrival n start f = m := by
  unfold arrival
  rw [h]

/-- What an arrival leaves is what the clock makes of it. -/
theorem arrival_keeps {e : Nat × Bool × Nat} (h : m.heard.find? (fun e => e.1 == n && e.2.1 == start) = some e) (y : Mod)
    (hy : f (m.arriving e) (m.arrivedAt e) = y) :
    (∀ k, (m.arrival n start f).clk k = y.clk k) ∧ (m.arrival n start f).regs = y.regs ∧ y.Ticks n (m.arrival n start f) := by
  have ht : m.arrival n start f = if y.heard.any (fun x => x.2.2 == e.2.2) then y else { y with heardNow := Tbl.erase y.heardNow (e.2.2 + 30) } := by
    unfold arrival
    rw [h, ← hy]
    rfl
  rw [ht]
  split
  · exact ⟨fun _ => rfl, rfl, .refl n y⟩
  · exact ⟨fun _ => rfl, rfl, .of_eq rfl rfl rfl rfl rfl⟩

end

end Mod

/-- What an arrival leaves beside its own clock. -/
def ClockOthers (s : State) (n : Nat) (m1 : Mod) (t : State) : Prop :=
  t.pending = s.pending ∧ t.mod.mono = m1.mono ∧ t.mod.now = m1.now ∧ t.mod.heard = m1.heard ∧
    (∀ n', n' ≠ n → t.mod.clk n' = s.mod.clk n') ∧ t.mod.flag F.CLK_STATUS_FALLEN n = s.mod.flag F.CLK_STATUS_FALLEN n

section
variable {s : State} {n : ClockId} {e : Nat × Bool × Nat} {start : Bool} {f : Mod → Nat → Mod} {i : Instr} {P : Mod → Prop}

/-- An arrival whose clock comes to `y`: what is said of the clock and of the registers alone holds after it. -/
theorem arrival_next (hi : exec i s = .next { s with mod := s.mod.arrival n start f })
    (he : s.mod.heard.find? (fun e => e.1 == n.val && e.2.1 == start) = some e) (y : Mod) (hy : f (s.mod.arriving e) (s.mod.arrivedAt e) = y)
    (ht : (s.mod.arriving e).Ticks n y) :
    ∃ t, exec i s = .next t ∧ t.mod.clk n = y.clk n ∧ t.mod.regs = y.regs ∧ ClockOthers s n (s.mod.arriving e) t := by
  obtain ⟨hclk, hregs, hkeep⟩ := Mod.arrival_keeps he y hy
  have hall := ht.trans hkeep
  refine ⟨_, hi, hclk n, hregs, rfl, hall.mono, hall.now, hall.heard, fun n' hn => ?_, ?_⟩
  · exact (hall.clk n' hn).trans (Mod.arriving_clk _ _ _)
  · exact hall.fallen.trans (Mod.flag_of_regs (Mod.arriving_regs _ _) _ _)

end

/-- A software source of a clock (R120). -/
theorem clkCmd_next {s : State} {i : Instr} {b : Prop} [Decidable b] {l : List (Nat × Bool × Nat)}
    (hi : exec i s = .next { s with mod := if b then { s.mod with heard := s.mod.heard ++ l } else s.mod }) :
    ∃ t, exec i s = .next t ∧ t = { s with mod := if decide b then { s.mod with heard := s.mod.heard ++ l } else s.mod } := by
  refine ⟨_, hi, ?_⟩
  by_cases hb : b
  · rw [if_pos hb, decide_eq_true hb, if_pos rfl]
  · rw [if_neg hb, decide_eq_false hb, if_neg Bool.false_ne_true]

/-- Settles O27. -/
theorem chessClocksMeasureIntervals : Obligations.ChessClocksMeasureIntervals := by
  intro s n w m k md lim oldest runs arrives starts stops sent
  refine ⟨clkCmd_next rfl, clkCmd_next rfl, ?_⟩
  intro fresh others
  have hmode : ∀ e, (m.arriving e).clkMode n = md := fun e => Mod.clkMode_of (Mod.arriving_phase m e) (Mod.arriving_regs m e)
  have hclk : ∀ e, (m.arriving e).clk n = k := fun e => Mod.arriving_clk m e n
  have hrd : ∀ e (f : Fld), (m.arriving e).rd f n = m.rd f n := fun e f => Mod.rd_of_regs (Mod.arriving_regs m e) f n
  have hflag : ∀ e (f : Fld), (m.arriving e).flag f n = m.flag f n := fun e f => Mod.flag_of_regs (Mod.arriving_regs m e) f n
  refine ⟨fun h => next_same (m := m.arrival n true (fun m t => m.clkStart n t)) rfl (Mod.arrival_none h),
    fun h => next_same (m := m.arrival n false (fun m t => m.clkStop n t)) rfl (Mod.arrival_none h), fun hmd => ?_⟩
  have hmd' : ∀ e, (m.arriving e).clkMode n = 1 ∨ (m.arriving e).clkMode n = 2 ∨ (m.arriving e).clkMode n = 3 := fun e => by rw [hmode]; exact hmd
  refine ⟨?_, ?_, ?_, ?_, ?_, ?_⟩
  · rintro i a m1 ⟨rfl, e, he, rfl, rfl⟩ hstart hfresh
    obtain ⟨hs, hr, ht⟩ := Mod.clkStart_begins (a := m.arrivedAt e) (hmd' e) (by rw [hclk]; exact hstart) (by rw [hclk]; exact hfresh)
    obtain ⟨t, hi, hc, hregs, ho⟩ := arrival_next (i := .clockStartArrival n) (f := fun m t => m.clkStart n t) rfl he _ rfl ht
    exact ⟨t, hi, by rw [hc, hs]; rfl, (Mod.flag_of_regs hregs _ _).trans hr, ho⟩
  · rintro i a m1 t0 ⟨rfl, e, he, rfl, rfl⟩ hstart ha hfresh
    obtain ⟨hs, hr, ht⟩ := Mod.clkStart_restarts (a := m.arrivedAt e) (hmd' e) (by rw [hclk]; exact hstart) (by rw [hrd]; exact ha)
      (by rw [hclk]; exact hfresh)
    rw [hmode] at hs hr
    obtain ⟨t, hi, hc, hregs, ho⟩ := arrival_next (i := .clockStartArrival n) (f := fun m t => m.clkStart n t) rfl he _ rfl ht
    exact ⟨t, hi, by rw [hc, hs]; rfl, fun h2 => (Mod.flag_of_regs hregs _ _).trans (hr h2), ho⟩
  · rintro i a m1 t0 ⟨rfl, e, he, rfl, rfl⟩ hstart ha hmin hfresh hauto
    obtain ⟨hs, hr, hel, ht⟩ := Mod.clkStop_stops (a := m.arrivedAt e) (hmd' e) (by rw [hclk]; exact hstart) (by rw [hrd]; exact ha)
      (by rw [hmode, hrd]; exact hmin) (by rw [hclk]; exact hfresh) (by rw [hflag]; exact hauto)
    obtain ⟨t, hi, hc, hregs, ho⟩ := arrival_next (i := .clockStopArrival n) (f := fun m t => m.clkStop n t) rfl he _ rfl ht
    exact ⟨t, hi, by rw [hc, hs], (Mod.flag_of_regs hregs _ _).trans hr, (Mod.rd_of_regs hregs _ _).trans hel, ho⟩
  · rintro i a m1 t0 lost ⟨rfl, e, he, rfl, rfl⟩ htog hstart
    obtain ⟨hs, hr, ht⟩ := Mod.clkStart_afterStop (a := m.arrivedAt e) (hmd' e) (by rw [hclk]; exact htog) (by rw [hclk]; exact hstart)
    obtain ⟨t, hi, hc, hregs, ho⟩ := arrival_next (i := .clockStartArrival n) (f := fun m t => m.clkStart n t) rfl he _ rfl ht
    exact ⟨t, hi, by rw [hc, hs]; rfl, (Mod.flag_of_regs hregs _ _).trans hr, ho⟩
  · rintro i a m1 t0 lost x ⟨rfl, e, he, rfl, rfl⟩ htog hstart
    have hsame : (m.arriving e).clkStart n (m.arrivedAt e) = m.arriving e :=
      Mod.clkStart_again (hmd' e) (Mod.clkSettle_stopped (by rw [hclk]; exact hstart)) (Mod.clkTogether_next (by rw [hclk]; exact htog) rfl) rfl
    obtain ⟨t, hi, hc, -, ho⟩ := arrival_next (i := .clockStartArrival n) (f := fun m t => m.clkStart n t) rfl he (m.arriving e) hsame (.refl _ _)
    exact ⟨t, hi, by rw [hc, hclk]; exact hstart, ho⟩
  · rintro i a m1 lost ⟨rfl, e, he, rfl, rfl⟩ htog hstart h3 hauto
    obtain ⟨hs, hel, ht⟩ := Mod.clkStop_afterStart (a := m.arrivedAt e) (hmd' e) (by rw [hclk]; exact htog) (by rw [hclk]; exact hstart)
      (by rw [hmode]; exact h3) (by rw [hflag]; exact hauto)
    obtain ⟨t, hi, hc, hregs, ho⟩ := arrival_next (i := .clockStopArrival n) (f := fun m t => m.clkStop n t) rfl he _ rfl ht
    exact ⟨t, hi, by rw [hc, hs], (Mod.rd_of_regs hregs _ _).trans hel, ho⟩

end Sys2Proof.Machine

/-!
Mesh links: what the sending of parcels leaves as it was (R301, R305, R308), and the twin's mirror (R429).
-/
namespace Sys2Proof.Machine

namespace Mod

/-- A module without its links' state and what has left on them. -/
def unsent (m : Mod) : Mod := { m with links := [], sent := [], wire := [] }

theorem unsent_setLink (m : Mod) (l : Nat) (k : Link) : (m.setLink l k).unsent = m.unsent := rfl
theorem unsent_emit (m : Mod) (o : Out) : (m.emit o).unsent = m.unsent := rfl
theorem unsent_signal (m : Mod) (x : Wire) : (m.signal x).unsent = m.unsent := rfl

theorem unsent_giveCredits (m : Mod) (l vc n : Nat) : (m.giveCredits l vc n).unsent = m.unsent :=
  each_keeps (P := fun t => t.unsent = m.unsent) (fun t _ h => (t.unsent_signal _).trans h) _ rfl

theorem unsent_depart (m : Mod) (l : Nat) (w : Queued) : (m.depart l w).1.unsent = m.unsent := by
  unfold depart
  dsimp only
  generalize hk : ({ m.link l with waiting := _, used := _, probe := _ } : Link) = k
  have hsend : ((m.setLink l k).emit ((m.stampedParcel l w.what).out l)).unsent = m.unsent := (unsent_emit _ _).trans (m.unsent_setLink l k)
  generalize (m.setLink l k).emit ((m.stampedParcel l w.what).out l) = x at hsend ⊢
  split
  · exact (x.unsent_giveCredits _ _ _).trans hsend
  · exact hsend

theorem unsent_drainLink (l fuel : Nat) (m : Mod) : (m.drainLink l fuel).1.unsent = m.unsent := by
  induction fuel generalizing m with
  | zero => rfl
  | succ fuel ih =>
    rw [drainLink]
    split
    · rfl
    · next w who left _ =>
      have hturn := m.unsent_setLink l { m.link l with turn := (who, left) }
      generalize m.setLink l { m.link l with turn := (who, left) } = x at hturn ⊢
      exact (ih _).trans ((x.unsent_depart l w).trans hturn)

theorem unsent_closeBlock (m : Mod) (l : Nat) (ps : List Parcel) : (m.closeBlock l ps).unsent = m.unsent := by
  unfold closeBlock
  exact (unsent_signal _ _).trans (m.unsent_setLink l _)

theorem unsent_blocks (l : Nat) (ps : List Parcel) : ∀ (m : Mod) (open_ : List Parcel) (flits : Nat), (m.blocks l open_ flits ps).unsent = m.unsent := by
  induction ps with
  | nil =>
    intro m open_ flits
    rw [blocks]
    split
    · rfl
    · exact m.unsent_closeBlock l open_
  | cons p ps ih =>
    intro m open_ flits
    rw [blocks]
    split
    · exact (ih _ _ _).trans (m.unsent_closeBlock l open_)
    · exact ih _ _ _

theorem unsent_pump (m : Mod) (l : Nat) : (m.pump l).unsent = m.unsent := by
  unfold pump
  have hdrain := unsent_drainLink l (m.link l).waiting.length m
  generalize m.drainLink l (m.link l).waiting.length = r at hdrain ⊢
  obtain ⟨x, ps⟩ := r
  exact (unsent_blocks l ps x [] 0).trans hdrain

/-- Parcels sent change nothing but their link and what has left. -/
theorem unsent_sendParcels (m : Mod) (l : Nat) (origin : Option Nat) (ps : List Parcel) : (m.sendParcels l origin ps).unsent = m.unsent := by
  unfold sendParcels
  exact (unsent_pump _ l).trans (m.unsent_setLink l _)

theorem unsent_sendFlit (m : Mod) (l : Nat) (f : Flit) : (m.sendFlit l f).unsent = m.unsent := m.unsent_sendParcels l none _

theorem unsent_toTwin (m : Mod) (p : Parcel) : (m.toTwin p).unsent = m.unsent := by
  unfold toTwin
  split
  · exact m.unsent_sendParcels _ _ _
  · rfl

theorem unsent_mirror (m : Mod) (x : MirrorMsg) : (m.mirror x).unsent = m.unsent := by
  unfold mirror
  split
  · exact m.unsent_toTwin _
  · rfl

section
variable {m t : Mod} (h : t.unsent = m.unsent)
include h

theorem regs_of_unsent : t.regs = m.regs := (congrArg Mod.regs h :)
theorem ports_of_unsent : t.ports = m.ports := (congrArg Mod.ports h :)
theorem clks_of_unsent : t.clks = m.clks := (congrArg Mod.clks h :)

end

end Mod

end Sys2Proof.Machine

/-!
Chess clocks: flag falls and releases (R121, R124 to R126).
-/
namespace Sys2Proof.Machine

namespace Mod

/-- From `m` to `t` nothing but registers and their history changes. -/
def RegsOnly (m t : Mod) : Prop := { t with regs := m.regs, past := m.past } = m

theorem RegsOnly.refl (m : Mod) : m.RegsOnly m := rfl
theorem RegsOnly.trans {m n t : Mod} (h : m.RegsOnly n) (h' : n.RegsOnly t) : m.RegsOnly t := regs_past_trans h h'
theorem RegsOnly.iff {m : Mod} {f : Mod → Mod} (b : Bool) (h : m.RegsOnly (f m)) : m.RegsOnly (m.iff b f) := iff_keeps b h (.refl m)
theorem regsOnly_wr (m : Mod) (f : Fld) (i v : Nat) : m.RegsOnly (m.wr f i v) := rfl
theorem regsOnly_put (m : Mod) (f : Fld) (i : Nat) (b : Bool) : m.RegsOnly (m.put f i b) := rfl
theorem regsOnly_count (m : Mod) (f : Fld) (i k : Nat) : m.RegsOnly (m.count f i k) := rfl

section
variable {m t : Mod} (h : m.RegsOnly t)
include h

theorem RegsOnly.mono_eq : t.mono = m.mono := (congrArg Mod.mono h :)
theorem RegsOnly.clks_eq : t.clks = m.clks := (congrArg Mod.clks h :)
theorem RegsOnly.ports_eq : t.ports = m.ports := (congrArg Mod.ports h :)
theorem RegsOnly.fq_eq : t.fq = m.fq := (congrArg Mod.fq h :)

end

/-! ### A fall as it shows (R124) -/

/-- The registers of a clock whose flag has fallen, after an interval `el`, at `at_` of TB_NOW. -/
def fallShown (m : Mod) (n el at_ : Nat) : Mod :=
  let m := (((m.put F.CLK_STATUS_RUNNING n false).wr F.CLK_ELAPSED_TIME n el).put F.CLK_STATUS_FALLEN n true).wr F.CLK_FALL_TIME_TIME n at_
  (m.count F.CLK_FALLS_COUNT n).iff ((m.count F.CLK_FALLS_COUNT n).rd F.CFG_MOVE_PROB_MOVE ≠ 0) (fun m => m.count F.CFG_PROB_FALLS_COUNT)

theorem regsOnly_fallShown (m : Mod) (n el at_ : Nat) : m.RegsOnly (m.fallShown n el at_) := by
  refine .trans ?_ (.iff _ (regsOnly_count _ _ _ _))
  exact ((((m.regsOnly_put _ _ _).trans (regsOnly_wr _ _ _ _)).trans (regsOnly_put _ _ _ _)).trans (regsOnly_wr _ _ _ _)).trans (regsOnly_count _ _ _ _)

/-- The registers that a fall changes. -/
def fallRegs : List Reg := [.CLK_STATUS, .CLK_ELAPSED, .CLK_FALL_TIME, .CLK_FALLS, .CFG_PROB_FALLS]

theorem reg_fallShown (m : Mod) (n el at_ : Nat) {r : Reg} (i : Nat) (h : r ∉ fallRegs) : (m.fallShown n el at_).reg r i = m.reg r i := by
  have hwr : ∀ (x : Mod) (f : Fld) (j v : Nat), f.reg ∈ fallRegs → (x.wr f j v).reg r i = x.reg r i := fun x f j v hf =>
    reg_setReg_ne x _ fun e => h (e.1 ▸ hf)
  refine (iff_keeps (P := fun t => t.reg r i = _) _ (hwr _ _ _ _ (by decide)) rfl).trans ?_
  exact (hwr _ _ _ _ (by decide)).trans ((hwr _ _ _ _ (by decide)).trans ((hwr _ _ _ _ (by decide)).trans ((hwr _ _ _ _ (by decide)).trans
    (hwr _ _ _ _ (by decide)))))

theorem fallShown_shows (m : Mod) (n el at_ : Nat) :
    let y := m.fallShown n el at_
    y.flag F.CLK_STATUS_FALLEN n = true ∧ y.flag F.CLK_STATUS_RUNNING n = false ∧ y.rd F.CLK_ELAPSED_TIME n = el % 2 ^ 40 ∧
      y.rd F.CLK_FALLS_COUNT n = satAdd32 (m.rd F.CLK_FALLS_COUNT n) 1 ∧
      (m.rd F.CFG_MOVE_PROB_MOVE ≠ 0 → y.rd F.CFG_PROB_FALLS_COUNT = satAdd32 (m.rd F.CFG_PROB_FALLS_COUNT) 1) := by
  obtain ⟨x, hx, hf, hr, he, hc, hm, hp⟩ : ∃ x : Mod, m.fallShown n el at_ = x.iff (x.rd F.CFG_MOVE_PROB_MOVE ≠ 0) (fun m => m.count F.CFG_PROB_FALLS_COUNT) ∧
      x.flag F.CLK_STATUS_FALLEN n = true ∧ x.flag F.CLK_STATUS_RUNNING n = false ∧ x.rd F.CLK_ELAPSED_TIME n = el % 2 ^ 40 ∧
      x.rd F.CLK_FALLS_COUNT n = satAdd32 (m.rd F.CLK_FALLS_COUNT n) 1 ∧ x.rd F.CFG_MOVE_PROB_MOVE = m.rd F.CFG_MOVE_PROB_MOVE ∧
      x.rd F.CFG_PROB_FALLS_COUNT = m.rd F.CFG_PROB_FALLS_COUNT := by
    refine ⟨_, rfl, ?_⟩
    simp (disch := decide) only [flag_count_of_apart, flag_wr_of_apart, flag_put_of_apart, flag_put_self, rd_count_of_apart, rd_wr_of_apart,
      rd_put_of_apart, rd_wr_self, rd_count_self, and_self, and_true, true_and]
    rfl
  intro y
  rw [show y = _ from hx]
  by_cases h0 : x.rd F.CFG_MOVE_PROB_MOVE = 0
  · rw [decide_eq_false (fun h => h h0), iff_false]
    exact ⟨hf, hr, he, hc, fun h => absurd (hm.symm.trans h0) h⟩
  · rw [decide_eq_true h0, iff_true]
    refine ⟨?_, ?_, ?_, ?_, fun _ => ?_⟩
    · rw [flag_count_of_apart _ _ _ _ (by decide), hf]
    · rw [flag_count_of_apart _ _ _ _ (by decide), hr]
    · rw [rd_count_of_apart _ _ _ _ (by decide), he]
    · rw [rd_count_of_apart _ _ _ _ (by decide), hc]
    · rw [rd_count_self _ _ _ _ (by decide) rfl, hp]

/-- What a clock's flag fall is made of: the fall as it shows, its event, its action, its mirror. -/
theorem clkFall_eq (m : Mod) (n t1 : Nat) (cancelled : Bool) :
    ∃ el at_ x, (∀ t0, (m.clk n).start = some t0 → el = t1 - t0) ∧
      x = ({ m.setClk n { m.clk n with start := none, relAt := none } with fallNow := Tbl.erase m.fallNow n } : Mod).fallShown n el at_ ∧
      m.clkFall n t1 false cancelled =
        ((x.iff (x.flag F.CLK_CTRL_EV_EN n) (fun m => m.raise (96 + n / 8))).clkAction n
          (cancelled || (m.clk n).relAt.any (fun r => decide (t1 < r) && decide (r < t1 + 1000)))).clkMirror n := by
  refine ⟨(match (m.clk n).start with
    | some t => t1 - t
    | none => 0), m.fallTime n t1, _, fun t0 h => by rw [h], rfl, rfl⟩

/-! ### What holding ports leaves of the clocks (R126) -/

/-- From `m` to `t` no clock changes, in its state and in its status. -/
structure ClksKept (m t : Mod) : Prop where
  clks : t.clks = m.clks
  status : ∀ i, t.reg .CLK_STATUS i = m.reg .CLK_STATUS i

namespace ClksKept

variable {m x t : Mod}

theorem refl (m : Mod) : m.ClksKept m := ⟨rfl, fun _ => rfl⟩
theorem trans (h : m.ClksKept x) (h' : x.ClksKept t) : m.ClksKept t := ⟨h'.clks.trans h.clks, fun i => (h'.status i).trans (h.status i)⟩
theorem each {α : Type} {f : Mod → α → Mod} (hf : ∀ (m : Mod) y, m.ClksKept (f m y)) (l : List α) (m : Mod) : m.ClksKept (m.each l f) :=
  each_keeps (P := fun t => m.ClksKept t) (fun t y h => h.trans (hf t y)) l (.refl m)
theorem iff {f : Mod → Mod} (b : Bool) (h : m.ClksKept (f m)) : m.ClksKept (m.iff b f) := iff_keeps b h (.refl m)
theorem of_unsent (h : t.unsent = m.unsent) : m.ClksKept t := ⟨clks_of_unsent h, fun i => reg_of_regs (regs_of_unsent h) _ i⟩
theorem flag (h : m.ClksKept t) {f : Fld} (hf : f.reg = .CLK_STATUS) (i : Nat) : t.flag f i = m.flag f i := by
  rw [Mod.flag, Mod.rd, hf, h.status, Mod.flag, Mod.rd, hf]

end ClksKept

theorem clksKept_wr (m : Mod) {f : Fld} (i v : Nat) (h : f.reg ≠ .CLK_STATUS) : m.ClksKept (m.wr f i v) :=
  ⟨m.wr_clks f i v, fun _ => reg_setReg_ne m _ fun e => h e.1.symm⟩

theorem clksKept_setPort (m : Mod) (p : Nat) (v : Port) : m.ClksKept (m.setPort p v) :=
  ⟨m.setPort_clks p v, fun i => reg_of_regs (m.setPort_regs p v) _ i⟩

theorem clksKept_showHold (m : Mod) (p : Nat) : m.ClksKept (m.showHold p) :=
  (m.clksKept_wr p _ (by decide)).trans (clksKept_wr _ p _ (by decide))

theorem clksKept_overtake (m : Mod) (p : Nat) : m.ClksKept (m.overtake p) := by
  unfold overtake
  split
  · split
    · exact .refl m
    · exact ⟨rfl, fun _ => rfl⟩
  · exact .refl m

theorem clksKept_applySafe (m : Mod) (p : Nat) : m.ClksKept (m.applySafe p) := by
  have hdrive : ∀ code, m.ClksKept (m.drive p code) := fun code => (m.clksKept_wr p code (by decide)).trans (clksKept_setPort _ p _)
  unfold applySafe
  split
  · exact m.clksKept_setPort p _
  · split
    · exact hdrive _
    · exact hdrive _
    · exact m.clksKept_setPort p _

theorem clksKept_safePorts (m : Mod) (ps : List Nat) : m.ClksKept (m.safePorts ps) :=
  .each (fun x p => (x.clksKept_overtake p).trans (.iff _ (clksKept_applySafe _ p))) ps m

/-- Ports held or driven safe: the clock shows it. -/
theorem clkImpose_shows (m : Mod) (n : Nat) (safe : Bool) (b : Nat) {mask : Nat} (h : mask ≠ 0) :
    (m.clkImpose n safe b mask).flag F.CLK_STATUS_HOLDING n = true ∧ ((m.clkImpose n safe b mask).clk n).hold = some (b, mask, safe) := by
  obtain ⟨x, hx⟩ : ∃ x : Mod, m.clkImpose n safe b mask =
      (let y := (x.setClk n { x.clk n with hold := some (b, mask, safe) }).put F.CLK_STATUS_HOLDING n true
       let ps := (setBits 32 mask).map (32 * b + ·)
       (if safe then y.safePorts ps else y.each ps overtake).each (blockPorts b) showHold) := ⟨_, if_neg h⟩
  dsimp only at hx
  have hflag : ((x.setClk n { x.clk n with hold := some (b, mask, safe) }).put F.CLK_STATUS_HOLDING n true).flag F.CLK_STATUS_HOLDING n = true :=
    flag_put_self _ _ _ _ (by decide) rfl
  have hclk : (((x.setClk n { x.clk n with hold := some (b, mask, safe) }).put F.CLK_STATUS_HOLDING n true).clk n).hold = some (b, mask, safe) := by
    rw [clk_put, clk_setClk_self]
  generalize (x.setClk n { x.clk n with hold := some (b, mask, safe) }).put F.CLK_STATUS_HOLDING n true = y at hx hflag hclk
  have hports : y.ClksKept (if safe then y.safePorts ((setBits 32 mask).map (32 * b + ·)) else y.each ((setBits 32 mask).map (32 * b + ·)) overtake) := by
    split
    · exact y.clksKept_safePorts _
    · exact .each clksKept_overtake _ y
  have hall := hports.trans (.each clksKept_showHold (blockPorts b) _)
  rw [hx]
  exact ⟨(hall.flag rfl n).trans hflag, by rw [clk_of_clks hall.clks, hclk]⟩

theorem clksKept_clkMirror (m : Mod) (n : Nat) : m.ClksKept (m.clkMirror n) := .of_unsent (m.unsent_mirror _)

theorem ports_clkMirror (m : Mod) (n : Nat) : (m.clkMirror n).ports = m.ports := ports_of_unsent (m.unsent_mirror _)

/-! ### Actions (R124, R125) -/

section
variable {m : Mod} {n : Nat}

theorem clkAction_standby (h : m.isStandby = true) (c : Bool) : m.clkAction n c = m := if_pos h

section
variable (hs : m.isStandby = false)
include hs

theorem clkAction_none (h : m.rd F.CLK_CTRL_ACTION n = 0 ∨ 6 ≤ m.rd F.CLK_CTRL_ACTION n) (c : Bool) : m.clkAction n c = m := by
  unfold clkAction
  rw [hs, if_neg Bool.false_ne_true]
  dsimp only
  split
  · omega
  · omega
  · omega
  · omega
  · omega
  · rfl

theorem clkAction_cancelled (h : m.rd F.CLK_CTRL_ACTION n = 1 ∨ m.rd F.CLK_CTRL_ACTION n = 2) : m.clkAction n true = m := by
  unfold clkAction
  rw [hs, if_neg Bool.false_ne_true]
  rcases h with h | h <;> rw [h] <;> rfl

theorem clkAction_holds {safe : Bool} (h : m.rd F.CLK_CTRL_ACTION n = if safe then 2 else 1) :
    m.clkAction n false = m.clkImpose n safe (m.rd F.CLK_BIND_BLOCK n) (m.rd F.CLK_BIND_MASK_MASK n) := by
  unfold clkAction
  rw [hs, if_neg Bool.false_ne_true, h]
  cases safe <;> rfl

theorem clkAction_region (h : m.rd F.CLK_CTRL_ACTION n = 3) (c : Bool) : m.clkAction n c = m.regionFault (clockRegion n) 0x06 n (96 + n / 8) := by
  unfold clkAction
  rw [hs, if_neg Bool.false_ne_true, h]
  rfl

theorem clkAction_device (h : m.rd F.CLK_CTRL_ACTION n = 4 ∨ (m.rd F.CLK_CTRL_ACTION n = 5 ∧ m.flag F.CAR_STATUS_TWIN = false)) (c : Bool) :
    m.clkAction n c = m.deviceFault 0x07 n (96 + n / 8) := by
  unfold clkAction
  rw [hs, if_neg Bool.false_ne_true]
  rcases h with h | ⟨h, ht⟩
  · rw [h]
    rfl
  · rw [h, ht]
    rfl

theorem clkAction_castles (h : m.rd F.CLK_CTRL_ACTION n = 5) (ht : m.flag F.CAR_STATUS_TWIN = true) (c : Bool) :
    m.clkAction n c = (m.castleRequest 0).1 := by
  unfold clkAction
  rw [hs, if_neg Bool.false_ne_true, h, ht]
  rfl

end

end

/-! ### The fall (R124) -/

/-- A clock stopped by its fall, as it shows. -/
def fallen (m : Mod) (n el at_ : Nat) : Mod :=
  ({ m.setClk n { m.clk n with start := none, relAt := none } with fallNow := Tbl.erase m.fallNow n } : Mod).fallShown n el at_

theorem setClk_fallNow_rest (m : Mod) (n : Nat) (v : Clk) (l : Tbl Nat) :
    ({ m.setClk n v with fallNow := l } : Mod).ports = m.ports ∧ ({ m.setClk n v with fallNow := l } : Mod).fq = m.fq := by
  have hports := m.setClk_ports n v
  have hfq := m.setClk_fq n v
  generalize m.setClk n v = x at hports hfq ⊢
  exact ⟨hports, hfq⟩

theorem fallen_shows {m y : Mod} {n el at_ : Nat} (hy : y = m.fallen n el at_) :
    y.mono = m.mono ∧ y.clk n = { m.clk n with start := none, relAt := none } ∧ (∀ n', n' ≠ n → y.clk n' = m.clk n') ∧ y.ports = m.ports ∧
      y.fq = m.fq ∧ (∀ r i, r ∉ fallRegs → y.reg r i = m.reg r i) ∧
      y.flag F.CLK_STATUS_FALLEN n = true ∧ y.flag F.CLK_STATUS_RUNNING n = false ∧ y.rd F.CLK_ELAPSED_TIME n = el % 2 ^ 40 ∧
      y.rd F.CLK_FALLS_COUNT n = satAdd32 (m.rd F.CLK_FALLS_COUNT n) 1 ∧
      (m.rd F.CFG_MOVE_PROB_MOVE ≠ 0 → y.rd F.CFG_PROB_FALLS_COUNT = satAdd32 (m.rd F.CFG_PROB_FALLS_COUNT) 1) := by
  obtain ⟨hports', hfq'⟩ := m.setClk_fallNow_rest n { m.clk n with start := none, relAt := none } (Tbl.erase m.fallNow n)
  obtain ⟨hclk, hticks, hregs⟩ := m.setClk_fallNow_shows n { m.clk n with start := none, relAt := none } (Tbl.erase m.fallNow n)
  unfold fallen at hy
  generalize ({ m.setClk n { m.clk n with start := none, relAt := none } with fallNow := Tbl.erase m.fallNow n } : Mod) = z at hports' hfq' hclk hticks hregs hy
  have honly := z.regsOnly_fallShown n el at_
  obtain ⟨hf, hr, he, hc, hp⟩ := z.fallShown_shows n el at_
  rw [rd_of_regs hregs] at hc hp
  rw [rd_of_regs hregs] at hp
  subst hy
  exact ⟨honly.mono_eq.trans hticks.mono, (clk_of_clks honly.clks_eq n).trans hclk, fun n' hn => (clk_of_clks honly.clks_eq n').trans (hticks.clk n' hn),
    honly.ports_eq.trans hports', honly.fq_eq.trans hfq', fun r i h => (z.reg_fallShown n el at_ i h).trans (reg_of_regs hregs r i), hf, hr, he, hc, hp⟩

section
variable {m y : Mod} {n : Nat} (hreg : ∀ r i, r ∉ fallRegs → y.reg r i = m.reg r i)
include hreg

/-- What is read of a clock after its fall's event is as before the fall. -/
theorem rd_fallEvent {f : Fld} (i : Nat) (hf : f.reg ∉ .EVR_UNROUTED :: fallRegs) (b : Bool) : (y.iff b (fun m => m.raise (96 + n / 8))).rd f i = m.rd f i := by
  obtain ⟨hu, hf⟩ := not_or.mp (fun h => hf (List.mem_cons.mpr h))
  have hy : y.rd f i = m.rd f i := by rw [rd, hreg _ _ hf, rd]
  cases b with
  | false => exact hy
  | true =>
    rw [iff_true]
    exact ((y.told_raise _).regs.rd_of_reg i (by simpa using hu)).trans hy

theorem flag_fallEvent {f : Fld} (i : Nat) (hf : f.reg ∉ .EVR_UNROUTED :: fallRegs) (b : Bool) :
    (y.iff b (fun m => m.raise (96 + n / 8))).flag f i = m.flag f i := by
  rw [flag, rd_fallEvent hreg i hf, flag]

theorem isStandby_fallEvent (b : Bool) : (y.iff b (fun m => m.raise (96 + n / 8))).isStandby = m.isStandby := by
  rw [isStandby, rd_fallEvent hreg _ (by decide), isStandby]

end

theorem ports_fallEvent (y : Mod) (n : Nat) (b : Bool) : (y.iff b (fun m => m.raise (96 + n / 8))).ports = y.ports :=
  iff_keeps (P := fun t => t.ports = y.ports) b (y.told_raise _).ports_eq rfl

theorem clksKept_raise (y : Mod) (k : Nat) : y.ClksKept (y.raise k) :=
  ⟨(congrArg Mod.clks (y.told_raise k).rest :), fun i => (y.told_raise k).regs _ i (by simp)⟩

end Mod

/-- What FLAG_FALL reports of a clock before its event. -/
theorem flagFall_next {s : State} {n : ClockId} {t0 : Nat} (hmd : s.mod.clkMode n = 1 ∨ s.mod.clkMode n = 2 ∨ s.mod.clkMode n = 3)
    (hstart : (s.mod.clk n).start = some t0) (hrel : (s.mod.clk n).relAt = none) :
    ∃ at_, exec (.flagFall n) s = .next { s with mod :=
      let m1 := s.mod.toMono (t0 + s.mod.rd F.CLK_LIMIT_LIMIT n + 1)
      let y := m1.fallen n (t0 + s.mod.rd F.CLK_LIMIT_LIMIT n + 1 - t0) at_
      ((y.iff (y.flag F.CLK_CTRL_EV_EN n) (fun m => m.raise (96 + n / 8))).clkAction n false).clkMirror n } := by
  have hclk : (s.mod.toMono (t0 + s.mod.rd F.CLK_LIMIT_LIMIT n + 1)).clk n = s.mod.clk n :=
    Mod.clk_of_clks (congrArg Mod.clks (s.mod.untimed_toMono (t0 + s.mod.rd F.CLK_LIMIT_LIMIT n + 1)) :) n
  obtain ⟨el, at_, x, hel, hx, hfall⟩ := (s.mod.toMono (t0 + s.mod.rd F.CLK_LIMIT_LIMIT n + 1)).clkFall_eq n (t0 + s.mod.rd F.CLK_LIMIT_LIMIT n + 1) false
  rw [hclk] at hel hfall
  rw [hrel] at hfall
  have hel' := hel t0 hstart
  refine ⟨at_, ?_⟩
  have hm : s.mod.flagFall n = (s.mod.toMono (t0 + s.mod.rd F.CLK_LIMIT_LIMIT n + 1)).clkFall n (t0 + s.mod.rd F.CLK_LIMIT_LIMIT n + 1) false false := by
    unfold Mod.flagFall
    rw [Mod.clkDue_running hmd hstart]
  show Host.Outcome.next { s with mod := s.mod.flagFall n } = _
  rw [hm, hfall, hx, hel']
  rfl

end Sys2Proof.Machine

/-!
Chess clocks: what a flag's fall reports and does, and a release (R124 to R126).
-/
namespace Sys2Proof.Machine

namespace Mod

theorem blockPorts_showHold_kept (b : Nat) (m : Mod) : m.ClksKept (m.each (blockPorts b) showHold) := .each clksKept_showHold _ m

section
variable {m : Mod} {n : Nat}

theorem clkRelease_none (h : (m.clk n).hold = none) : m.clkRelease n = m := by
  unfold clkRelease
  rw [h]

theorem clkRelease_eq {b mask : Nat} {safe : Bool} (h : (m.clk n).hold = some (b, mask, safe)) : m.clkRelease n =
    ((m.setClk n { m.clk n with hold := none }).put F.CLK_STATUS_HOLDING n false).each (blockPorts b) showHold := by
  unfold clkRelease
  rw [h]

/-- A clock whose ports are released. -/
theorem clkRelease_shows {b mask : Nat} {safe : Bool} (h : (m.clk n).hold = some (b, mask, safe)) :
    ((m.clkRelease n).clk n).hold = none ∧ (m.clkRelease n).flag F.CLK_STATUS_HOLDING n = false ∧
      ∀ n', n' ≠ n → (m.clkRelease n).clk n' = m.clk n' := by
  have hclk : (((m.setClk n { m.clk n with hold := none }).put F.CLK_STATUS_HOLDING n false).clk n).hold = none := by
    rw [clk_put, clk_setClk_self]
  have hflag : ((m.setClk n { m.clk n with hold := none }).put F.CLK_STATUS_HOLDING n false).flag F.CLK_STATUS_HOLDING n = false :=
    flag_put_self _ _ _ _ (by decide) rfl
  have hother : ∀ n', n' ≠ n → ((m.setClk n { m.clk n with hold := none }).put F.CLK_STATUS_HOLDING n false).clk n' = m.clk n' := fun n' hn => by
    rw [clk_put, clk_setClk_ne _ _ hn]
  rw [clkRelease_eq h]
  generalize (m.setClk n { m.clk n with hold := none }).put F.CLK_STATUS_HOLDING n false = x at hclk hflag hother ⊢
  have hkept := blockPorts_showHold_kept b x
  exact ⟨by rw [clk_of_clks hkept.clks, hclk], (hkept.flag rfl n).trans hflag, fun n' hn => (clk_of_clks hkept.clks n').trans (hother n' hn)⟩

section
variable (hheard : ∀ e ∈ m.heard, e.1 ≠ n)
include hheard

theorem heard_none : m.heard.any (fun e => e.1 == n) = false := by
  rw [List.any_eq_false]
  exact fun e he => by simpa using hheard e he

/-- A release with no fall due. -/
theorem clkCmdRelease_undue (hdue : ∀ t1, m.clkDue n = some t1 → m.mono < t1) : m.clkCmdRelease n = m.clkRelease n := by
  unfold clkCmdRelease
  rw [heard_none hheard, iff_false]
  dsimp only
  cases hd : m.clkDue n with
  | none => rfl
  | some t1 =>
    have hlt := hdue t1 hd
    have hsettle : m.clkSettle n m.mono = m := by
      unfold clkSettle
      rw [hd]
      exact if_neg (Nat.not_le.mpr hlt)
    dsimp only
    rw [if_neg (fun h => absurd h.1 (Nat.lt_asymm hlt)), hsettle]

end

/-- What is done to a clock whose release finds an occurrence on its way. -/
theorem relAt_shows (m : Mod) (n : Nat) (b : Bool) (h : (m.clk n).hold = none) :
    ∃ x : Mod, m.iff b (fun m => m.setClk n { m.clk n with relAt := some m.mono }) = x ∧ (x.clk n).start = (m.clk n).start ∧ (x.clk n).hold = none ∧
      x.regs = m.regs ∧ x.phase = m.phase ∧ x.mono = m.mono ∧ x.ports = m.ports := by
  cases b with
  | false => exact ⟨m, rfl, rfl, h, rfl, rfl, rfl, rfl⟩
  | true =>
    refine ⟨m.setClk n { m.clk n with relAt := some m.mono }, rfl, ?_, ?_, m.setClk_regs _ _, m.setClk_phase _ _, m.setClk_mono _ _, m.setClk_ports _ _⟩
    · rw [clk_setClk_self]
    · rw [clk_setClk_self, h]

theorem clkDue_of {x : Mod} (hs : (x.clk n).start = (m.clk n).start) (hr : x.regs = m.regs) (hp : x.phase = m.phase) : x.clkDue n = m.clkDue n := by
  unfold clkDue
  rw [hs, clkMode_of hp hr, rd_of_regs hr]

/-- A release just after a fall's instant cancels the hold of that fall. -/
theorem clkCmdRelease_cancels {t1 : Nat} (hhold : (m.clk n).hold = none) (hdue : m.clkDue n = some t1) (hlt : t1 < m.mono) (hlt' : m.mono < t1 + 1000)
    (hact : m.rd F.CLK_CTRL_ACTION n = 1 ∨ m.rd F.CLK_CTRL_ACTION n = 2) :
    (m.clkCmdRelease n).flag F.CLK_STATUS_FALLEN n = true ∧ ((m.clkCmdRelease n).clk n).start = none ∧ ((m.clkCmdRelease n).clk n).hold = none ∧
      (m.clkCmdRelease n).ports = m.ports := by
  obtain ⟨x, hx, hstart, hhold', hregs, hphase, hmono, hports⟩ := m.relAt_shows n (m.heard.any (fun e => e.1 == n)) hhold
  have hm : m.clkCmdRelease n = x.clkFall n t1 false true := by
    unfold clkCmdRelease
    rw [hx]
    dsimp only
    rw [clkDue_of hstart hregs hphase, hdue]
    dsimp only
    rw [hmono, if_pos ⟨hlt, hlt'⟩, clkRelease_none hhold']
  obtain ⟨el, at_, y, -, hy, hfall⟩ := x.clkFall_eq n t1 true
  obtain ⟨-, hclk, -, hports', -, hreg, hfallen, -⟩ := fallen_shows (m := x) (y := y) (n := n) (el := el) (at_ := at_) hy
  have hact' : (y.iff (y.flag F.CLK_CTRL_EV_EN n) (fun m => m.raise (96 + n / 8))).rd F.CLK_CTRL_ACTION n = 1 ∨
      (y.iff (y.flag F.CLK_CTRL_EV_EN n) (fun m => m.raise (96 + n / 8))).rd F.CLK_CTRL_ACTION n = 2 := by
    rw [rd_fallEvent hreg _ (by decide), rd_of_regs hregs]
    exact hact
  have hev := ports_fallEvent y n (y.flag F.CLK_CTRL_EV_EN n)
  have hkept : y.ClksKept (y.iff (y.flag F.CLK_CTRL_EV_EN n) (fun m => m.raise (96 + n / 8))) := .iff _ (y.clksKept_raise _)
  rw [Bool.true_or] at hfall
  generalize y.iff (y.flag F.CLK_CTRL_EV_EN n) (fun m => m.raise (96 + n / 8)) = z at hfall hact' hev hkept
  have hz : z.clkAction n true = z := by
    cases hs : z.isStandby with
    | true => exact clkAction_standby hs true
    | false => exact clkAction_cancelled hs hact'
  rw [hz] at hfall
  have hall := hkept.trans (z.clksKept_clkMirror n)
  rw [hm, hfall]
  refine ⟨(hall.flag rfl n).trans hfallen, ?_, ?_, ?_⟩
  · rw [clk_of_clks hall.clks, hclk]
  · rw [clk_of_clks hall.clks, hclk]
    exact hhold'
  · rw [ports_clkMirror, hev, hports', hports]

end

end Mod

/-- Settles O28. -/
theorem flagFallStopsTheClockAndReports : Obligations.FlagFallStopsTheClockAndReports := by
  refine ⟨fun s n t0 => ?_, fun s n w b mask safe => ?_⟩
  · intro m md t1 reported act g src hmd hstart hrel
    obtain ⟨at_, hi⟩ := flagFall_next hmd hstart hrel
    have huntimed := m.untimed_toMono t1
    have hm1 : (m.toMono t1).mono = Nat.max m.mono t1 := m.mono_toMono t1
    have hregs1 : (m.toMono t1).regs = m.regs := m.regs_toMono t1
    have hclks1 : (m.toMono t1).clks = m.clks := (congrArg Mod.clks huntimed :)
    have hports1 : (m.toMono t1).ports = m.ports := (congrArg Mod.ports huntimed :)
    have hfq1 : (m.toMono t1).fq = m.fq := (congrArg Mod.fq huntimed :)
    dsimp only at hi
    generalize hy : (m.toMono t1).fallen n (t1 - t0) at_ = y at hi
    obtain ⟨hmono, hclk, hother, hports, hfq, hreg, hfallen, hrun, hel, hfalls, hprob⟩ := Mod.fallen_shows hy.symm
    rw [hm1] at hmono
    rw [Mod.clk_of_clks hclks1] at hclk
    rw [Mod.rd_of_regs hregs1] at hfalls hprob
    rw [Mod.rd_of_regs hregs1] at hprob
    have hreg' : ∀ r i, r ∉ Mod.fallRegs → y.reg r i = m.reg r i := fun r i h => (hreg r i h).trans (Mod.reg_of_regs hregs1 r i)
    have hev : y.flag F.CLK_CTRL_EV_EN n = m.flag F.CLK_CTRL_EV_EN n := by rw [Mod.flag, Mod.rd, hreg' _ _ (by decide), Mod.flag, Mod.rd]
    rw [hev] at hi
    refine ⟨_, y, hi, rfl, ⟨hmono, by rw [hclk], by rw [hclk], hfallen, hrun, hel, hfalls, hprob,
      fun n' hn => (hother n' hn).trans (Mod.clk_of_clks hclks1 n'), hports.trans hports1, hfq.trans hfq1⟩, ?_⟩
    have hrd := fun (f : Fld) (hf : f.reg ∉ .EVR_UNROUTED :: Mod.fallRegs) (i : Nat) =>
      Mod.rd_fallEvent (n := n.val) hreg' i hf (m.flag F.CLK_CTRL_EV_EN n)
    have hsb : (y.iff (m.flag F.CLK_CTRL_EV_EN n) (fun m => m.raise (96 + n.val / 8))).isStandby = m.isStandby := Mod.isStandby_fallEvent hreg' _
    have htwin := Mod.flag_fallEvent (n := n.val) hreg' (f := F.CAR_STATUS_TWIN) 0 (by decide) (m.flag F.CLK_CTRL_EV_EN n)
    have hxports := (Mod.ports_fallEvent y n (m.flag F.CLK_CTRL_EV_EN n)).trans (hports.trans hports1)
    have hact := hrd F.CLK_CTRL_ACTION (by decide) n
    have hblock := hrd F.CLK_BIND_BLOCK (by decide) n
    have hmask := hrd F.CLK_BIND_MASK_MASK (by decide) n
    have hx : y.iff (m.flag F.CLK_CTRL_EV_EN n) (fun m => m.raise (96 + n.val / 8)) = if m.flag F.CLK_CTRL_EV_EN n then y.raise src else y := rfl
    rw [hx] at hsb htwin hxports hact hblock hmask ⊢
    generalize (if m.flag F.CLK_CTRL_EV_EN n then y.raise src else y) = x at hsb htwin hxports hact hblock hmask ⊢
    dsimp only
    have hholds : ∀ safe : Bool, m.isStandby = false → act = (if safe then 2 else 1) →
        (x.clkAction n false).clkMirror n = (x.clkImpose n safe (m.rd F.CLK_BIND_BLOCK n) (m.rd F.CLK_BIND_MASK_MASK n)).clkMirror n ∧
          (m.rd F.CLK_BIND_MASK_MASK n ≠ 0 → ((x.clkAction n false).clkMirror n).flag F.CLK_STATUS_HOLDING n = true ∧
            (((x.clkAction n false).clkMirror n).clk n).hold = some (m.rd F.CLK_BIND_BLOCK n, m.rd F.CLK_BIND_MASK_MASK n, safe)) := by
      intro safe hs ha
      have himp := Mod.clkAction_holds (m := x) (n := n) (by rw [hsb]; exact hs) (hact.trans ha)
      rw [hblock, hmask] at himp
      rw [himp]
      refine ⟨rfl, fun h0 => ?_⟩
      obtain ⟨hflag, hhold⟩ := x.clkImpose_shows n safe (m.rd F.CLK_BIND_BLOCK n) h0
      have hkept := (x.clkImpose n safe (m.rd F.CLK_BIND_BLOCK n) (m.rd F.CLK_BIND_MASK_MASK n)).clksKept_clkMirror n
      exact ⟨(hkept.flag rfl n).trans hflag, by rw [Mod.clk_of_clks hkept.clks, hhold]⟩
    refine ⟨fun h => ?_, fun hs => ⟨hholds false hs, hholds true hs, fun h => ?_, fun h => ?_, fun h ht => ?_⟩⟩
    · have hnone : x.clkAction n false = x := by
        cases hs : x.isStandby with
        | true => exact Mod.clkAction_standby hs _
        | false => exact Mod.clkAction_none hs (by rw [hact]; exact h.resolve_left (by rw [← hsb, hs]; decide)) _
      rw [hnone]
      exact ⟨rfl, (x.ports_clkMirror n).trans hxports⟩
    · rw [Mod.clkAction_region (hsb.trans hs) (hact.trans h)]
    · rw [Mod.clkAction_device (hsb.trans hs) (h.imp (fun h => hact.trans h) (fun h => ⟨hact.trans h.1, htwin.trans h.2⟩))]
    · rw [Mod.clkAction_castles (hsb.trans hs) (hact.trans h) (htwin.trans ht)]
  · intro m
    refine ⟨fun hh hheard hdue => next_same (m := m.clkCmdRelease n) rfl ?_, fun hh hdue hact => ⟨_, rfl, rfl, ?_⟩, fun hh hheard hdue => ?_⟩
    · rw [Mod.clkCmdRelease_undue hheard hdue, Mod.clkRelease_none hh]
    · obtain ⟨t1, hd, hlt, hlt'⟩ := hdue
      exact Mod.clkCmdRelease_cancels hh hd hlt hlt' hact
    · have he : m.clkCmdRelease n = m.clkRelease n := Mod.clkCmdRelease_undue hheard hdue
      obtain ⟨hhold, hflag, hother⟩ := Mod.clkRelease_shows hh
      refine ⟨{ s with mod := m.clkCmdRelease n }, rfl, ?_, ?_⟩
      · rw [he, Mod.clkRelease_eq hh]
      · rw [he]
        exact ⟨hhold, hflag, hother⟩

end Sys2Proof.Machine

/-!
Chains of the sample pipelines: the records a chain's output writes, and the end of settling (R69 to R81).
-/
namespace Sys2Proof.Machine

/-! ### Registers as they stood at an instant (R9) -/

section
variable {α : Type}

/-- Two tables that differ at one key at most. -/
def Tbl.AgreeOff (k : Nat) (a b : Tbl α) : Prop := ∀ d j, j ≠ k → Tbl.get d a j = Tbl.get d b j

theorem Tbl.AgreeOff.set [DecidableEq α] {k : Nat} {a b : Tbl α} (h : Tbl.AgreeOff k a b) (d : α) (j : Nat) (v w : α) (hv : j ≠ k → v = w) :
    Tbl.AgreeOff k (Tbl.set d a j v) (Tbl.set d b j w) := by
  intro d' i hi
  by_cases hij : i = j
  · subst hij
    rw [hv hi]
    unfold Tbl.set
    split
    · rw [Tbl.get_erase_self, Tbl.get_erase_self]
    · rw [Tbl.get_insert_self _ _ _ _ (Tbl.mem_erase_ne _ _), Tbl.get_insert_self _ _ _ _ (Tbl.mem_erase_ne _ _)]
  · rw [Tbl.get_set_ne _ _ _ _ hij, Tbl.get_set_ne _ _ _ _ hij]
    exact h d' i hi

end

/-- One traced register put back to what it was at instant `t`. -/
def pastStep (t : Nat) (regs : Tbl (BitVec 64)) (e : Nat × List (Nat × BitVec 64)) : Tbl (BitVec 64) :=
  Tbl.set (BitVec.ofNat 64 ((allRegs.getD (e.1 % 512) .PBLK_ID).resetVal (e.1 / 512))) regs e.1
    (valueAt (Tbl.get (BitVec.ofNat 64 ((allRegs.getD (e.1 % 512) .PBLK_ID).resetVal (e.1 / 512))) regs e.1) t e.2)

theorem agreeOff_pastStep {k : Nat} {a b : Tbl (BitVec 64)} (h : Tbl.AgreeOff k a b) (t : Nat) (e : Nat × List (Nat × BitVec 64)) :
    Tbl.AgreeOff k (pastStep t a e) (pastStep t b e) :=
  h.set _ _ _ _ (fun hj => by rw [h _ _ hj])

theorem agreeOff_past {k : Nat} (t : Nat) (past : List (Nat × List (Nat × BitVec 64))) {a b : Tbl (BitVec 64)} (h : Tbl.AgreeOff k a b) :
    Tbl.AgreeOff k (past.foldl (pastStep t) a) (past.foldl (pastStep t) b) := by
  induction past generalizing a b with
  | nil => exact h
  | cons e es ih => exact ih (agreeOff_pastStep h t e)

namespace Mod

theorem regs_asAt (m : Mod) (t : Nat) : (m.asAt t).regs = m.past.foldl (pastStep t) m.regs := rfl

/-- A register apart from one that was written stood at an instant as it did before the write. -/
theorem reg_asAt {m x : Mod} {r0 : Reg} {i0 : Nat} (hp : x.past = m.past) (hr : Tbl.AgreeOff (regKey r0 i0) x.regs m.regs) (t : Nat) {r : Reg} (i : Nat)
    (h : r ≠ r0) : (x.asAt t).reg r i = (m.asAt t).reg r i := by
  have hfold := agreeOff_past t m.past hr
  rw [reg, reg, regs_asAt, regs_asAt, hp, hfold _ _ (fun e => h (regKey_inj e).1)]

theorem past_setReg (m : Mod) {r : Reg} (i v : Nat) (h : r.traced = false) : (m.setReg r i v).past = m.past := by
  rw [setReg]
  simp [h]

theorem agreeOff_setReg (m : Mod) (r : Reg) (i v : Nat) : Tbl.AgreeOff (regKey r i) (m.setReg r i v).regs m.regs := by
  intro d j hj
  rw [setReg]
  exact Tbl.get_set_ne d _ _ _ hj

/-- A code of a chain's output is shown at its port. -/
def showRaw (m : Mod) (p : Nat) (code : Int) : Mod := m.iff ((m.die (portDie p)).lostAt.isNone) (fun m => m.wr F.PORT_RAW_CODE p (wrapTo 32 code))

theorem agreeOff_showRaw (m : Mod) (p : Nat) (code : Int) : Tbl.AgreeOff (regKey .PORT_RAW p) (m.showRaw p code).regs m.regs ∧
    (m.showRaw p code).past = m.past :=
  iff_keeps (P := fun x => Tbl.AgreeOff (regKey .PORT_RAW p) x.regs m.regs ∧ x.past = m.past) _
    ⟨m.agreeOff_setReg .PORT_RAW p _, m.past_setReg (r := .PORT_RAW) p _ rfl⟩ ⟨fun _ _ _ => rfl, rfl⟩

/-! ### Records as they are written (R74, R81) -/

/-- A module without its records and what the pipelines keep of them. -/
def unrecorded (m : Mod) : Mod := { m with recs := [], recAux := [], freeCtr := 0 }

theorem sigRec_setRec_self (m : Mod) (k : Nat) (v : SigRec) : (m.setRec k v).sigRec k = v := Tbl.get_set_self _ _ _ _
theorem sigRec_setRec_ne (m : Mod) {k j : Nat} (v : SigRec) (h : j ≠ k) : (m.setRec k v).sigRec j = m.sigRec j := Tbl.get_set_ne _ _ _ _ h

section
variable {m w : Mod} {k t P q value v raw ne : Nat}

theorem unrecorded_putRecord (m w : Mod) (k t P q value v raw ne : Nat) : (m.putRecord w k t P q value v raw ne).unrecorded = m.unrecorded := by
  unfold putRecord
  dsimp only
  split <;> rfl

theorem sigRec_putRecord_ne {j : Nat} (h : j ≠ k) : (m.putRecord w k t P q value v raw ne).sigRec j = m.sigRec j := by
  unfold putRecord
  dsimp only
  split <;> exact m.sigRec_setRec_ne _ h

/-- The status of a record holds the effective mode in its low four bits. -/
theorem status_low {e : Nat} (he : e < 16) (a b c d : Nat) :
    (BitVec.ofNat 32 (e + 16 * a + 32 * b + 256 * c + 65536 * d)).toNat % 16 = e := by
  rw [BitVec.toNat_ofNat]
  omega

theorem sigRec_judged (m : Mod) (k : Nat) (x : SigRec) (a : Tbl RecAux) (c : Prop) [Decidable c] :
    (if c then { m.setRec k x with recAux := a } else m.setRec k x).sigRec k = x := by
  split <;> exact m.sigRec_setRec_self k x

theorem sigRec_putRecord (he : w.effMode (k / 16) < 16) :
    ((m.putRecord w k t P q value v raw ne).sigRec k).time = t ∧
    ((m.putRecord w k t P q value v raw ne).sigRec k).seq = (m.sigRec k).seq + 1 ∧
    ((m.putRecord w k t P q value v raw ne).sigRec k).status.toNat % 16 = w.effMode (k / 16) ∧
    ((m.putRecord w k t P q value v raw ne).sigRec k).quality = BitVec.ofNat 8 q ∧
    ((m.putRecord w k t P q value v raw ne).sigRec k).value = BitVec.ofNat 64 value := by
  unfold putRecord
  dsimp only
  rw [sigRec_judged]
  exact ⟨rfl, rfl, status_low he _ _ _ _, rfl, rfl⟩

end

theorem effMode_lt (w : Mod) (p : Nat) : w.effMode p < 16 := Nat.mod_lt _ (by decide)

/-- A port that was off, heard and in no change gives quality 0x01. -/
theorem quality_off {w : Mod} {k t : Nat} (he : w.effMode (k / 16) = 0) (hl : (w.die (portDie (k / 16))).lostAt = none)
    (hc : inWindows (w.port (k / 16)).changes t = false) (P : Nat) (i : QualIn) : w.quality k t P i = 0x01 := by
  have hund : w.undelivered k t = false := by
    unfold undelivered
    dsimp only
    rw [hl]
  unfold quality
  dsimp only
  rw [hc, hund, he]
  simp

/-- A record at its instant is put with some quality and value, quality 0x01 and no number where the port was off. -/
theorem recordAt_puts (m : Mod) (k t : Nat) (code : Int) :
    ∃ (x : Mod) (P q value v raw ne : Nat), m.recordAt k t code = x.putRecord (m.asAt t) k t P q value v raw ne ∧ x.unrecorded = m.unrecorded ∧
      x.recs = m.recs ∧ ((m.asAt t).effMode (k / 16) = 0 → (m.die (portDie (k / 16))).lostAt = none →
        inWindows (m.port (k / 16)).changes t = false → q = 0x01 ∧ value = recNaN) := by
  unfold recordAt
  dsimp only
  generalize hix : (if (m.asAt t).sourceValid k = true then _ else _ : RecIn × Mod) = ix
  have hx : ix.2.unrecorded = m.unrecorded ∧ ix.2.recs = m.recs := by
    rw [← hix]
    split
    · exact ⟨rfl, rfl⟩
    · split <;> exact ⟨rfl, rfl⟩
  generalize hq : (m.asAt t).quality k t _ _ = q
  have hoff : (m.asAt t).effMode (k / 16) = 0 → (m.die (portDie (k / 16))).lostAt = none → inWindows (m.port (k / 16)).changes t = false → q = 0x01 :=
    fun he hl hc => hq ▸ quality_off he hl hc _ _
  clear hix hq
  split
  · exact ⟨ix.2, _, _, _, _, _, _, rfl, hx.1, hx.2, fun he hl hc => absurd (hoff he hl hc) (by decide)⟩
  · exact ⟨ix.2, _, _, _, _, _, _, rfl, hx.1, hx.2, fun he hl hc => absurd (hoff he hl hc) (by decide)⟩
  · exact ⟨ix.2, _, _, _, _, _, _, rfl, hx.1, hx.2, fun _ _ _ => ⟨rfl, rfl⟩⟩
  · exact ⟨ix.2, _, _, _, _, _, _, rfl, hx.1, hx.2, fun he hl hc => absurd (hoff he hl hc) (by decide)⟩
  · exact ⟨ix.2, _, _, _, _, _, _, rfl, hx.1, hx.2, fun he hl hc => absurd (hoff he hl hc) (by decide)⟩
  · next h1 _ _ => exact ⟨ix.2, _, _, _, _, _, _, rfl, hx.1, hx.2, fun he hl hc => absurd (hoff he hl hc) h1⟩

theorem unrecorded_recordAt (m : Mod) (k t : Nat) (code : Int) : (m.recordAt k t code).unrecorded = m.unrecorded := by
  obtain ⟨x, P, q, value, v, raw, ne, h, hx, -, -⟩ := m.recordAt_puts k t code
  rw [h, unrecorded_putRecord, hx]

theorem sigRec_recordAt_ne (m : Mod) {k j : Nat} (t : Nat) (code : Int) (hj : j ≠ k) : (m.recordAt k t code).sigRec j = m.sigRec j := by
  obtain ⟨x, P, q, value, v, raw, ne, h, -, hx, -⟩ := m.recordAt_puts k t code
  rw [h, sigRec_putRecord_ne hj, sigRec, hx, sigRec]

/-- Record `k` of `t` as the output of instant `n` of `m` leaves it. -/
def RecordWritten (m : Mod) (n k : Nat) (t : Mod) : Prop :=
  (t.sigRec k).time = n ∧ (t.sigRec k).seq = (m.sigRec k).seq + 1 ∧ (t.sigRec k).status.toNat % 16 = (m.asAt n).effMode (k / 16) ∧
    ((m.asAt n).effMode (k / 16) = 0 → (m.die (portDie (k / 16))).lostAt = none → inWindows (m.port (k / 16)).changes n = false →
      (t.sigRec k).quality = 0x01 ∧ (t.sigRec k).value = BitVec.ofNat 64 recNaN)

theorem recordWritten_recordAt (m : Mod) (k n : Nat) (code : Int) : RecordWritten m n k (m.recordAt k n code) := by
  obtain ⟨x, P, q, value, v, raw, ne, h, -, hx, hoff⟩ := m.recordAt_puts k n code
  obtain ⟨htime, hseq, hstatus, hq, hv⟩ := sigRec_putRecord (m := x) (w := m.asAt n) (k := k) (t := n) (P := P) (q := q) (value := value) (v := v)
    (raw := raw) (ne := ne) (effMode_lt _ _)
  rw [RecordWritten, h]
  refine ⟨htime, ?_, hstatus, fun he hl hc => ?_⟩
  · rw [hseq, sigRec, hx, sigRec]
  · obtain ⟨rfl, rfl⟩ := hoff he hl hc
    exact ⟨hq, hv⟩

/-- What a record's writing looks at beside the record is what `unrecorded` keeps. -/
theorem RecordWritten.of_unrecorded {m m' t t' : Mod} {n k : Nat} (h : RecordWritten m' n k t') (hu : m'.unrecorded = m.unrecorded)
    (hm : m'.sigRec k = m.sigRec k) (ht : t.sigRec k = t'.sigRec k) : RecordWritten m n k t := by
  obtain ⟨htime, hseq, hstatus, hoff⟩ := h
  have hregs : m'.regs = m.regs := (congrArg Mod.regs hu :)
  have hpast : m'.past = m.past := (congrArg Mod.past hu :)
  have hdies : m'.dies = m.dies := (congrArg Mod.dies hu :)
  have hports : m'.ports = m.ports := (congrArg Mod.ports hu :)
  have hat : (m'.asAt n).effMode (k / 16) = (m.asAt n).effMode (k / 16) := by
    refine rd_of_regs ?_ _ _
    rw [regs_asAt, regs_asAt, hregs, hpast]
  have hdie : m'.die (portDie (k / 16)) = m.die (portDie (k / 16)) := by rw [die, hdies, die]
  rw [RecordWritten, ht, ← hm, ← hat, ← hdie, ← port_of_ports hports]
  exact ⟨htime, hseq, hstatus, hoff⟩

/-- Each of different records is written once. -/
theorem records_written {ks : List Nat} (hnd : ks.Nodup) (m : Mod) (n : Nat) (code : Int) :
    (m.each ks (fun m k => m.recordAt k n code)).unrecorded = m.unrecorded ∧
    (∀ k, k ∉ ks → (m.each ks (fun m k => m.recordAt k n code)).sigRec k = m.sigRec k) ∧
    ∀ k, k ∈ ks → RecordWritten m n k (m.each ks (fun m k => m.recordAt k n code)) := by
  induction ks generalizing m with
  | nil => exact ⟨rfl, fun _ _ => rfl, fun _ h => absurd h (by simp)⟩
  | cons j js ih =>
    obtain ⟨hj, hjs⟩ := List.nodup_cons.mp hnd
    obtain ⟨hu, hout, hin⟩ := ih hjs (m.recordAt j n code)
    refine ⟨hu.trans (m.unrecorded_recordAt j n code), fun k hk => ?_, fun k hk => ?_⟩
    · obtain ⟨hkj, hks⟩ := List.ne_and_not_mem_of_not_mem_cons hk
      exact (hout k hks).trans (m.sigRec_recordAt_ne n code hkj)
    · by_cases hkj : k = j
      · subst hkj
        exact (m.recordWritten_recordAt k n code).of_unrecorded rfl rfl (hout k hj)
      · exact (hin k ((List.mem_cons.mp hk).resolve_left hkj)).of_unrecorded (m.unrecorded_recordAt j n code) (m.sigRec_recordAt_ne n code hkj) rfl

/-! ### A chain's output (R71) -/

/-- A pending change of a discrete port, settled, touches that port's pending and confirmed changes alone. -/
theorem settleDisc_keeps (m : Mod) (p : Nat) : (m.settleDisc p).regs = m.regs ∧ (m.settleDisc p).past = m.past ∧ (m.settleDisc p).recs = m.recs ∧
    (m.settleDisc p).dies = m.dies ∧ (m.settleDisc p).mono = m.mono ∧ (m.settleDisc p).chainLast = m.chainLast ∧ ((m.settleDisc p).port p).changes = (m.port p).changes := by
  cases hpend : (m.port p).pendDisc with
  | none => rw [settleDisc_none hpend]; exact ⟨rfl, rfl, rfl, rfl, rfl, rfl, rfl⟩
  | some c =>
    obtain ⟨high, t0⟩ := c
    by_cases ht : t0 + m.debounce p ≤ m.now
    · rw [settleDisc_due hpend ht, port_setPort_self]
      exact ⟨rfl, rfl, rfl, rfl, rfl, rfl, rfl⟩
    · rw [settleDisc_later hpend (Nat.not_le.mp ht)]
      exact ⟨rfl, rfl, rfl, rfl, rfl, rfl, rfl⟩

/-- The module as a chain's output finds it once its delay has passed. -/
def outputReady (m : Mod) (p : Nat) (b : Bool) (t : Nat) (code : Int) : Mod :=
  let x := (m.toNow (t + (m.asAt t).chainDelay p b)).settleDisc p
  ({ x with chainLast := Tbl.put x.chainLast (p * 2 + b2n b) t } : Mod).showRaw p code

theorem iff_wr_keeps {α : Type} (g : Mod → α) (m : Mod) (c : Bool) (f : Fld) (i v : Nat) (h : g (m.wr f i v) = g m) :
    g (m.iff c (fun m => m.wr f i v)) = g m := iff_keeps (P := fun x => g x = g m) c h rfl

theorem outputReady_keeps (m : Mod) (p : Nat) (b : Bool) (t : Nat) (code : Int) :
    Tbl.AgreeOff (regKey .PORT_RAW p) (m.outputReady p b t code).regs m.regs ∧ (m.outputReady p b t code).past = m.past ∧
    (m.outputReady p b t code).recs = m.recs ∧ (m.outputReady p b t code).dies = m.dies ∧
    ((m.outputReady p b t code).port p).changes = (m.port p).changes ∧
    (m.outputReady p b t code).mono = (m.toNow (t + (m.asAt t).chainDelay p b)).mono ∧
    ((m.die (portDie p)).lostAt = none → (m.outputReady p b t code).rd F.PORT_RAW_CODE p = wrapTo 32 code) := by
  unfold outputReady
  have htime := m.untimed_toNow (t + (m.asAt t).chainDelay p b)
  generalize m.toNow (t + (m.asAt t).chainDelay p b) = x at htime
  obtain ⟨hregs, hpast, hrecs, hdies, hmono, -, hchanges⟩ := x.settleDisc_keeps p
  dsimp only
  generalize x.settleDisc p = y at *
  generalize hz : ({ y with chainLast := Tbl.put y.chainLast (p * 2 + b2n b) t } : Mod) = z
  have hzr : z.regs = m.regs := by rw [← hz]; exact hregs.trans (congrArg Mod.regs htime :)
  have hzp : z.past = m.past := by rw [← hz]; exact hpast.trans (congrArg Mod.past htime :)
  have hzc : z.recs = m.recs := by rw [← hz]; exact hrecs.trans (congrArg Mod.recs htime :)
  have hzd : z.dies = m.dies := by rw [← hz]; exact hdies.trans (congrArg Mod.dies htime :)
  have hzm : z.mono = x.mono := by rw [← hz]; exact hmono
  have hzq : (z.port p).changes = (m.port p).changes := by
    have hport : x.port p = m.port p := port_of_ports (congrArg Mod.ports htime :) p
    rw [← hport, ← hchanges, ← hz]
    rfl
  obtain ⟨hagree, hkeep⟩ := z.agreeOff_showRaw p code
  refine ⟨hzr ▸ hagree, hkeep.trans hzp, ?_, ?_, ?_, ?_, fun hl => ?_⟩
  · exact (iff_wr_keeps Mod.recs _ _ _ _ _ (wr_recs _ _ _ _)).trans hzc
  · exact (iff_wr_keeps Mod.dies _ _ _ _ _ (wr_dies _ _ _ _)).trans hzd
  · exact (iff_wr_keeps (fun x => (x.port p).changes) _ _ _ _ _ (congrArg Port.changes (port_wr _ _ _ _ _))).trans hzq
  · exact (iff_wr_keeps Mod.mono _ _ _ _ _ (wr_mono _ _ _ _)).trans hzm
  · unfold showRaw
    rw [die, hzd, ← die, hl]
    exact (rd_wr_self _ _ _ _ (by decide)).trans (Nat.mod_eq_of_lt (wrapTo_lt 32 code))

theorem dueRecords_nodup (m : Mod) (p : Nat) (b : Bool) (t : Nat) : (m.dueRecords p b t).Nodup := by
  refine (List.Nodup.filter _ (List.Nodup.map ?_ List.nodup_range)).filter _
  exact fun a b h => by simpa using h

theorem mem_dueRecords {m : Mod} {p : Nat} {b : Bool} {t k : Nat} (h : k ∈ m.dueRecords p b t) : k / 16 = p := by
  have hspan : k ∈ span (16 * p) 16 := (List.mem_filter.mp (List.mem_filter.mp h).1).1
  obtain ⟨i, hi, rfl⟩ := List.mem_map.mp hspan
  have := List.mem_range.mp hi
  omega

theorem rd_asAt_ready (m : Mod) (p : Nat) (b : Bool) (t : Nat) (code : Int) {f : Fld} (i : Nat) (h : f.reg ≠ .PORT_RAW) :
    ((m.outputReady p b t code).asAt t).rd f i = (m.asAt t).rd f i := by
  obtain ⟨hregs, hpast, -⟩ := m.outputReady_keeps p b t code
  rw [rd, rd, reg_asAt hpast hregs t i h]

theorem rd_ready (m : Mod) (p : Nat) (b : Bool) (t : Nat) (code : Int) {f : Fld} (i : Nat) (h : f.reg ≠ .PORT_RAW) :
    (m.outputReady p b t code).rd f i = m.rd f i := by
  obtain ⟨hregs, -⟩ := m.outputReady_keeps p b t code
  rw [rd, rd, reg, reg, hregs _ _ (fun e => h (regKey_inj e).1)]

theorem recLive_of_rd {x y : Mod} (h : ∀ (f : Fld) (i : Nat), f.reg ≠ .PORT_RAW → x.rd f i = y.rd f i) (k : Nat) : x.recLive k = y.recLive k := by
  unfold recLive chainPeriod flag
  simp (disch := decide) only [h]

theorem dueRecords_ready (m : Mod) (p : Nat) (b : Bool) (t : Nat) (code : Int) : (m.outputReady p b t code).dueRecords p b t = m.dueRecords p b t := by
  have hlive : ∀ k, (m.outputReady p b t code).recLive k = m.recLive k := recLive_of_rd fun f i h => m.rd_ready p b t code i h
  have hlive' : ∀ k, ((m.outputReady p b t code).asAt t).recLive k = (m.asAt t).recLive k := recLive_of_rd fun f i h => m.rd_asAt_ready p b t code i h
  have hsrc : ∀ k, ((m.outputReady p b t code).asAt t).rd F.SPL_REC_CTRL_SOURCE k = (m.asAt t).rd F.SPL_REC_CTRL_SOURCE k :=
    fun k => m.rd_asAt_ready p b t code k (by decide)
  unfold dueRecords chainRecords
  rw [funext hlive]
  simp only [hlive', hsrc]

/-- The records an output writes and the time it leaves. -/
structure OutputWritten (m : Mod) (p : Nat) (b : Bool) (n : Nat) (code : Int) (t : Mod) : Prop where
  due : ∀ k, k ∈ m.dueRecords p b n → RecordWritten (m.outputReady p b n code) n k t
  other : ∀ k, k ∉ m.dueRecords p b n → t.sigRec k = m.sigRec k
  raw : (m.die (portDie p)).lostAt = none → t.rd F.PORT_RAW_CODE p = wrapTo 32 code
  time : t.mono = (m.toNow (n + (m.asAt n).chainDelay p b)).mono

theorem outputWritten_records (m : Mod) (p : Nat) (b : Bool) (n : Nat) (code : Int) :
    OutputWritten m p b n code ((m.outputReady p b n code).each ((m.outputReady p b n code).dueRecords p b n) (fun m k => m.recordAt k n code)) := by
  obtain ⟨-, -, hrecs, -, -, hmono, hraw⟩ := m.outputReady_keeps p b n code
  have hks := m.dueRecords_ready p b n code
  obtain ⟨hu, hout, hin⟩ := records_written ((m.outputReady p b n code).dueRecords_nodup p b n) (m.outputReady p b n code) n code
  rw [hks] at hu hout hin ⊢
  generalize (m.outputReady p b n code).each (m.dueRecords p b n) _ = t at *
  refine ⟨hin, fun k hk => ?_, fun hl => ?_, ?_⟩
  · rw [hout k hk, sigRec, hrecs, sigRec]
  · have hregs : t.regs = (m.outputReady p b n code).regs := (congrArg Mod.regs hu :)
    rw [rd_of_regs hregs, hraw hl]
  · exact (congrArg Mod.mono hu :).trans hmono

/-- Nothing an event's raising changes is part of an output. -/
theorem OutputWritten.iff_raise {m t : Mod} {p : Nat} {b : Bool} {n : Nat} {code : Int} (h : OutputWritten m p b n code t) (c : Bool) (k : Nat) :
    OutputWritten m p b n code (t.iff c (fun m => m.raise k)) := by
  refine iff_keeps (P := OutputWritten m p b n code) c ?_ h
  have htold := t.told_raise k
  have hrec : ∀ j, (t.raise k).sigRec j = t.sigRec j := fun j => (congrArg (fun x : Mod => x.sigRec j) htold.rest :)
  refine ⟨fun j hj => ?_, fun j hj => (hrec j).trans (h.other j hj), fun hl => ?_, htold.mono_eq.trans h.time⟩
  · exact (h.due j hj).of_unrecorded rfl rfl (hrec j)
  · rw [htold.regs.rd_of_reg _ (by decide), h.raw hl]

theorem chainOutput_writes {m : Mod} {p : Nat} {b : Bool} {n : Nat} (code : Int) (hper : (m.asAt n).chainPeriod p b ≠ 0)
    (hn : n % (m.asAt n).chainPeriod p b = 0) (hskip : m.skipped n = false) (hlast : ∀ l, Tbl.look m.chainLast (p * 2 + b2n b) = some l → l < n)
    (hdown : m.rgnDown (portRegion p) = false) (hon : m.domOn (40 + portRegion p) = true) :
    OutputWritten m p b n (clampCode code) (m.chainOutput p b n code) := by
  have hwritten := m.outputWritten_records p b n (clampCode code)
  unfold chainOutput
  dsimp only
  cases hl : Tbl.look m.chainLast (p * 2 + b2n b) with
  | none =>
    rw [if_neg (by simp [hper, hn, hskip, hdown, hon])]
    exact hwritten.iff_raise _ _
  | some l =>
    rw [if_neg (by simp [hper, hn, hskip, hdown, hon, hlast l hl])]
    exact hwritten.iff_raise _ _

theorem chainOutput_idle {m : Mod} {p : Nat} {b : Bool} {n : Nat} (code : Int)
    (h : (m.asAt n).chainPeriod p b = 0 ∨ n % (m.asAt n).chainPeriod p b ≠ 0 ∨ m.skipped n = true) : m.chainOutput p b n code = m := by
  unfold chainOutput
  dsimp only
  rw [if_pos]
  obtain h | h | h := h
  · exact .inl h
  · exact .inr (.inl h)
  · exact .inr (.inr (.inl h))

end Mod

/-- Settles O36. -/
theorem chainOutputsWriteTheirRecords : Obligations.ChainOutputsWriteTheirRecords := by
  intro s p b at_ code
  refine ⟨fun h => does_next rfl (Mod.chainOutput_idle code.toInt h), fun hper hn hskip hlast hdown hon => ?_, ?_⟩
  · refine does_next rfl ?_
    have h := Mod.chainOutput_writes code.toInt hper hn hskip hlast hdown hon
    obtain ⟨hregs, hpast, hrecs, hdies, hchanges, -, -⟩ := s.mod.outputReady_keeps p b at_.toNat (clampCode code.toInt)
    refine ⟨fun k hk => ?_, h.other, h.raw, h.time⟩
    obtain ⟨htime, hseq, hstatus, hoff⟩ := h.due k hk
    have hat := s.mod.rd_asAt_ready p b at_.toNat (clampCode code.toInt) (f := F.PORT_STATUS_EFF_MODE) p (by decide)
    rw [Mod.mem_dueRecords hk] at hstatus hoff
    rw [Mod.sigRec, Mod.sigRec, hrecs] at hseq
    refine ⟨htime, hseq, hstatus.trans hat, fun he hl hc => hoff (hat.trans he) ?_ ?_⟩
    · rw [Mod.die, hdies]
      exact hl
    · rw [hchanges]
      exact hc
  · refine does_next rfl ?_
    dsimp only
    have hregs := s.mod.regs_toNow (Tbl.get 0 s.mod.settleEnd (p.val * 2 + b2n b))
    generalize s.mod.toNow (Tbl.get 0 s.mod.settleEnd (p.val * 2 + b2n b)) = x at *
    cases b with
    | false =>
      exact ⟨x.flag_put_self F.SPL_PORT_STATUS_SETTLING_A p false (by decide) rfl, rfl,
        (onlyRegs_of_regs hregs).trans (onlyRegs_put x F.SPL_PORT_STATUS_SETTLING_A p false)⟩
    | true =>
      exact ⟨x.flag_put_self F.SPL_PORT_STATUS_SETTLING_B p false (by decide) rfl, rfl,
        (onlyRegs_of_regs hregs).trans (onlyRegs_put x F.SPL_PORT_STATUS_SETTLING_B p false)⟩

end Sys2Proof.Machine

/-!
Output commits: captures, their application and their status records (R87 to R90, R490).
-/
namespace Sys2Proof.Machine

namespace Mod

/-! ### One step in a pass over a list -/

section
variable {α : Type} {R : Mod → Mod → Prop} {f : Mod → α → Mod} {j : α}

theorem each_apart (hrefl : ∀ m, R m m) (htrans : ∀ {a b c}, R a b → R b c → R a c) (hf : ∀ m x, x ≠ j → R m (f m x)) {l : List α} (hj : j ∉ l)
    (m : Mod) : R m (m.each l f) := by
  induction l generalizing m with
  | nil => exact hrefl m
  | cons x xs ih =>
    obtain ⟨hx, hxs⟩ := List.ne_and_not_mem_of_not_mem_cons hj
    exact htrans (hf m x (Ne.symm hx)) (ih hxs (f m x))

/-- What every other step leaves alone is as it was when its own step is taken, and stays as that step leaves it. -/
theorem each_at (hrefl : ∀ m, R m m) (htrans : ∀ {a b c}, R a b → R b c → R a c) (hf : ∀ m x, x ≠ j → R m (f m x)) {l : List α} (hnd : l.Nodup)
    (hj : j ∈ l) (m : Mod) : ∃ y, R m y ∧ R (f y j) (m.each l f) := by
  induction l generalizing m with
  | nil => exact absurd hj (by simp)
  | cons x xs ih =>
    obtain ⟨hx, hxs⟩ := List.nodup_cons.mp hnd
    by_cases hxj : x = j
    · subst hxj
      exact ⟨m, hrefl m, each_apart hrefl htrans hf hx (f m x)⟩
    · obtain ⟨y, hy, ht⟩ := ih hxs ((List.mem_cons.mp hj).resolve_left (Ne.symm hxj)) (f m x)
      exact ⟨y, htrans (hf m x hxj) hy, ht⟩

end

theorem blockPorts_nodup (b : Nat) : (blockPorts b).Nodup := by
  refine List.Nodup.map ?_ List.nodup_range
  exact fun a c h => by simpa using h

theorem mem_blockPorts {p b : Nat} (h : portBlock p = b) : p ∈ blockPorts b := by
  unfold portBlock at h
  exact List.mem_map.mpr ⟨p % 32, List.mem_range.mpr (Nat.mod_lt _ (by decide)), by omega⟩

theorem capture_setCapture_self (m : Mod) (p : Nat) (c : Option Captured) : (m.setCapture p c).capture p = c := Tbl.get_set_self _ _ _ _
theorem capture_setCapture_ne (m : Mod) {p p' : Nat} (c : Option Captured) (h : p' ≠ p) : (m.setCapture p c).capture p' = m.capture p' :=
  Tbl.get_set_ne _ _ _ _ h

/-! ### Captures (R89, R90) -/

/-- A module without its time, captures and registers. -/
def uncaptured (m : Mod) : Mod := { m.untimed with captured := [], outSeq := [], lastCapture := [], regs := [], past := [] }

/-- What a capture at another port leaves of port `p` and of the module. -/
structure CaptureApart (p : Nat) (m t : Mod) : Prop where
  frame : Frame uncaptured [.SPL_RGN_OUT_LATE, .SPL_RGN_OUT_REFUSED] m t
  capture : t.capture p = m.capture p
  seq : Tbl.get 0 t.outSeq p = Tbl.get 0 m.outSeq p

namespace CaptureApart
variable {p : Nat} {m n t : Mod}
theorem refl (p : Nat) (m : Mod) : m.CaptureApart p m := ⟨.refl _ _ m, rfl, rfl⟩
theorem trans (h : m.CaptureApart p n) (h' : n.CaptureApart p t) : m.CaptureApart p t :=
  ⟨h.frame.trans h'.frame, h'.capture.trans h.capture, h'.seq.trans h.seq⟩
end CaptureApart

theorem frame_count (m : Mod) (f : Fld) (i : Nat) (h : f.reg ∈ [Reg.SPL_RGN_OUT_LATE, .SPL_RGN_OUT_REFUSED]) :
    Frame uncaptured [.SPL_RGN_OUT_LATE, .SPL_RGN_OUT_REFUSED] m (m.count f i) :=
  ⟨rfl, fun _ _ hr => reg_setReg_ne m _ fun e => hr (e.1 ▸ h)⟩

/-- The counts of a capture's result. -/
def countResult (m : Mod) (g r : Nat) : Mod :=
  (m.iff (bitAt r 2) (fun m => m.count F.SPL_RGN_OUT_LATE_COUNT g)).iff (bitAt r 3 || bitAt r 4) (fun m => m.count F.SPL_RGN_OUT_REFUSED_COUNT g)

theorem countResult_keeps (m : Mod) (g r : Nat) : Frame uncaptured [.SPL_RGN_OUT_LATE, .SPL_RGN_OUT_REFUSED] m (m.countResult g r) ∧
    (m.countResult g r).captured = m.captured ∧ (m.countResult g r).outSeq = m.outSeq ∧ (m.countResult g r).lastCapture = m.lastCapture := by
  have hcount : ∀ (x : Mod) (f : Fld) (b : Bool), f.reg ∈ [Reg.SPL_RGN_OUT_LATE, .SPL_RGN_OUT_REFUSED] →
      Frame uncaptured [.SPL_RGN_OUT_LATE, .SPL_RGN_OUT_REFUSED] x (x.iff b (fun m => m.count f g)) ∧
      (x.iff b (fun m => m.count f g)).captured = x.captured ∧ (x.iff b (fun m => m.count f g)).outSeq = x.outSeq ∧
      (x.iff b (fun m => m.count f g)).lastCapture = x.lastCapture := by
    intro x f b hf
    cases b with
    | false => exact ⟨.refl _ _ x, rfl, rfl, rfl⟩
    | true => exact ⟨x.frame_count f g hf, x.count_captured f g 1, x.count_outSeq f g 1, x.count_lastCapture f g 1⟩
  obtain ⟨h1, hc1, hs1, hm1⟩ := hcount m F.SPL_RGN_OUT_LATE_COUNT (bitAt r 2) (by decide)
  obtain ⟨h2, hc2, hs2, hm2⟩ := hcount _ F.SPL_RGN_OUT_REFUSED_COUNT (bitAt r 3 || bitAt r 4) (by decide)
  exact ⟨h1.trans h2, hc2.trans hc1, hs2.trans hs1, hm2.trans hm1⟩

section
variable {m : Mod} {p t prev : Nat}

theorem capturePort_taken (hnew : m.outPending p = true) (htgt : m.num (outRecord p + 8) 8 = 0 ∨ m.num (outRecord p + 8) 8 ≤ t)
    (hreconf : (m.port p).phase ≠ .reconf) (hcheck : (m.port p).phase ≠ .check) (hbar : m.outBarred p = false) :
    ∃ r u, m.capturePort p t prev = (({ m with outSeq := Tbl.set 0 m.outSeq p (m.num (outRecord p + 16) 2) } : Mod).countResult (portRegion p) r).setCapture p
      (some ⟨t, u, (m.outAsk p (m.num (outRecord p) 8) (m.num (outRecord p + 18) 2)).2, bitAt r 5, BitVec.ofNat 64 (m.num (outRecord p) 8),
        BitVec.ofNat 16 (m.num (outRecord p + 16) 2), r, false, false, false⟩) := by
  have hseq : m.num (outRecord p + 16) 2 ≠ Tbl.get 0 m.outSeq p := by simpa [outPending] using hnew
  unfold capturePort
  dsimp only
  rw [if_neg (by simp only [hseq, hreconf, hcheck, hbar]; rw [gt_iff_lt]; simp; omega)]
  generalize m.outAsk p (m.num (outRecord p) 8) (m.num (outRecord p + 18) 2) = a
  obtain ⟨r0, code⟩ := a
  dsimp only
  generalize (if m.num (outRecord p + 8) 8 ≠ 0 ∧ prev ≥ m.num (outRecord p + 8) 8 then r0 + rLATE else r0) = r
  exact ⟨r, _, rfl⟩

theorem capturePort_kept (h : m.outPending p = false) : m.capturePort p t prev = m := by
  have hseq : m.num (outRecord p + 16) 2 = Tbl.get 0 m.outSeq p := by simpa [outPending] using h
  exact if_pos (.inl hseq)

/-- What a capture that is taken leaves. -/
theorem capturePort_shows (hnew : m.outPending p = true) (htgt : m.num (outRecord p + 8) 8 = 0 ∨ m.num (outRecord p + 8) 8 ≤ t)
    (hreconf : (m.port p).phase ≠ .reconf) (hcheck : (m.port p).phase ≠ .check) (hbar : m.outBarred p = false) :
    Tbl.get 0 (m.capturePort p t prev).outSeq p = m.num (outRecord p + 16) 2 ∧ ∃ c', (m.capturePort p t prev).capture p = some c' ∧ c'.at_ = t ∧
      c'.value = BitVec.ofNat 64 (m.num (outRecord p) 8) ∧ c'.applied = false ∧ c'.overridden = false ∧
      c'.code = (m.outAsk p (m.num (outRecord p) 8) (m.num (outRecord p + 18) 2)).2 := by
  obtain ⟨r, u, hr⟩ := capturePort_taken (prev := prev) hnew htgt hreconf hcheck hbar
  obtain ⟨-, -, hseq, -⟩ := countResult_keeps { m with outSeq := Tbl.set 0 m.outSeq p (m.num (outRecord p + 16) 2) } (portRegion p) r
  rw [hr, capture_setCapture_self]
  refine ⟨?_, _, rfl, rfl, rfl, rfl, rfl, rfl⟩
  rw [setCapture_outSeq, hseq]
  exact Tbl.get_set_self _ _ _ _

end

/-- A capture at another port. -/
theorem capturePort_apart {p x : Nat} (m : Mod) (t prev : Nat) (hx : x ≠ p) : m.CaptureApart p (m.capturePort x t prev) := by
  have hseq : ∀ v, m.CaptureApart p { m with outSeq := Tbl.set 0 m.outSeq x v } := fun v =>
    ⟨⟨rfl, fun _ _ _ => rfl⟩, rfl, Tbl.get_set_ne _ _ _ _ (Ne.symm hx)⟩
  have hcount : ∀ (y : Mod) g r, y.CaptureApart p (y.countResult g r) := fun y g r => by
    obtain ⟨hf, hc, hs, -⟩ := y.countResult_keeps g r
    exact ⟨hf, by rw [capture, hc, capture], by rw [hs]⟩
  have hset : ∀ (y : Mod) c, y.CaptureApart p (y.setCapture x c) := fun y c =>
    ⟨⟨rfl, fun _ _ _ => rfl⟩, y.capture_setCapture_ne c (Ne.symm hx), rfl⟩
  unfold capturePort
  dsimp only
  split
  · exact .refl p m
  · exact ((hseq _).trans (hcount _ _ _)).trans (hset _ _)

/-- What the captures of other ports leave of what port `p`'s capture reads. -/
theorem CaptureApart.reads {p : Nat} {m y : Mod} (h : m.CaptureApart p y) : y.outPending p = m.outPending p ∧ (∀ a n, y.num a n = m.num a n) ∧
    y.port p = m.port p ∧ y.outBarred p = m.outBarred p ∧ ∀ v f, y.outAsk p v f = m.outAsk p v f := by
  have hrest := h.frame.rest
  have hnum : ∀ a n, y.num a n = m.num a n := num_of_mem (congrArg Mod.mem hrest :)
  have hport : y.port p = m.port p := port_of_ports (congrArg Mod.ports hrest :) p
  have hclks : y.clks = m.clks := (congrArg Mod.clks hrest :)
  have htwin : y.twin = m.twin := (congrArg Mod.twin hrest :)
  have hact : y.rgnAct = m.rgnAct := (congrArg Mod.rgnAct hrest :)
  have hdev : y.devSafe = m.devSafe := (congrArg Mod.devSafe hrest :)
  have hrd : ∀ f i, f.reg ∉ [Reg.SPL_RGN_OUT_LATE, .SPL_RGN_OUT_REFUSED] → y.rd f i = m.rd f i := fun f i hf => h.frame.rd f i hf
  have heff : y.effMode p = m.effMode p := hrd _ _ (by decide)
  have hholds : ∀ b, y.clockHolds b = m.clockHolds b := fun b => by rw [clockHolds, hclks, clockHolds]
  refine ⟨?_, hnum, hport, ?_, fun v f => ?_⟩
  · rw [outPending, hnum, h.seq, outPending]
  · rw [outBarred, clockHeld, clockSafe, hholds, heff, hact, hdev, htwin, hrd _ _ (by decide)]
    rfl
  · rw [outAsk, heff, hrd _ _ (by decide), hrd _ _ (by decide)]
    rfl

theorem lastCapture_capturePort (m : Mod) (p t prev : Nat) : (m.capturePort p t prev).lastCapture = m.lastCapture := by
  have hcount : ∀ (x : Mod) g r, (x.countResult g r).lastCapture = x.lastCapture := fun x g r => (x.countResult_keeps g r).2.2.2
  unfold capturePort
  dsimp only
  split
  · rfl
  · exact hcount { m with outSeq := _ } _ _

/-- The capture of a block: every port's capture is what its own step takes. -/
theorem captureBlock_shows {m : Mod} {b n p : Nat} (h : m.commitsAt b n = true) (hp : portBlock p = b) :
    Tbl.get 0 (m.captureBlock b n).lastCapture b = n ∧ ∃ y, m.CaptureApart p y ∧
      (y.capturePort p n (Tbl.get 0 m.lastCapture b)).CaptureApart p (m.captureBlock b n) := by
  have htime := m.untimed_toNow (n - 1000)
  unfold captureBlock
  rw [h]
  dsimp only [Bool.not_true, Bool.false_eq_true, if_false]
  generalize m.toNow (n - 1000) = x at htime ⊢
  have hlast : x.lastCapture = m.lastCapture := (congrArg lastCapture htime :)
  have hx : m.CaptureApart p { x with lastCapture := Tbl.set 0 x.lastCapture b n } :=
    ⟨⟨(congrArg uncaptured htime :), fun r i _ => reg_of_regs (congrArg Mod.regs htime :) r i⟩,
      (congrArg (fun u : Mod => Tbl.get none u.captured p) htime :), (congrArg (fun u : Mod => Tbl.get 0 u.outSeq p) htime :)⟩
  obtain ⟨y, hy, ht⟩ := each_at (R := CaptureApart p) (.refl p) .trans (fun u q hq => u.capturePort_apart n (Tbl.get 0 m.lastCapture b) hq)
    (blockPorts_nodup b) (mem_blockPorts hp) { x with lastCapture := Tbl.set 0 x.lastCapture b n }
  rw [← hlast] at ht ⊢
  refine ⟨?_, y, hx.trans hy, ht⟩
  refine each_keeps (P := fun u => Tbl.get 0 u.lastCapture b = n) (fun u q hu => ?_) _ (Tbl.get_set_self _ _ _ _)
  rw [lastCapture_capturePort, hu]

/-! ### Application (R90, R91, R490) -/

/-- What the application at another port leaves of port `p`. -/
structure OutputApart (p : Nat) (m t : Mod) : Prop where
  capture : t.capture p = m.capture p
  port : t.port p = m.port p
  out : t.reg .PORT_OUT p = m.reg .PORT_OUT p

namespace OutputApart
variable {p : Nat} {m n t : Mod}
theorem refl (p : Nat) (m : Mod) : m.OutputApart p m := ⟨rfl, rfl, rfl⟩
theorem trans (h : m.OutputApart p n) (h' : n.OutputApart p t) : m.OutputApart p t :=
  ⟨h'.capture.trans h.capture, h'.port.trans h.port, h'.out.trans h.out⟩
theorem of_sole {x : Nat} (h : m.Sole x t) (hx : x ≠ p) (hc : t.captured = m.captured) : m.OutputApart p t :=
  ⟨by rw [Mod.capture, hc, Mod.capture], h.port p (Ne.symm hx), h.out p (Ne.symm hx)⟩
theorem of_untimed (h : t.untimed = m.untimed) : m.OutputApart p t :=
  ⟨(congrArg (fun u : Mod => Tbl.get none u.captured p) h :), port_of_ports (congrArg Mod.ports h :) p, reg_of_regs (congrArg Mod.regs h :) _ p⟩
end OutputApart

theorem captured_drive (m : Mod) (p code : Nat) : (m.drive p code).captured = m.captured := by rw [drive, setPort_captured, wr_captured]

theorem captured_applySafe (m : Mod) (p : Nat) : (m.applySafe p).captured = m.captured := by
  unfold applySafe
  split
  · exact m.setPort_captured p _
  · split
    · exact m.captured_drive p _
    · exact m.captured_drive p _
    · exact m.setPort_captured p _

theorem applyPort_apart {p x : Nat} (m : Mod) (c : Captured) (hx : x ≠ p) : m.OutputApart p (m.applyPort x c) := by
  have hset : ∀ (y : Mod) c', y.OutputApart p (y.setCapture x c') := fun y c' => ⟨y.capture_setCapture_ne c' (Ne.symm hx), rfl, rfl⟩
  have hcode : ∀ k, m.OutputApart p ((m.drive x k).setPort x { (m.drive x k).port x with committed := true }) := fun k =>
    .of_sole ((m.sole_drive x k).trans (sole_setPort _ x _)) hx
      (by rw [setPort_captured, captured_drive])
  have hsafe : m.OutputApart p (m.applySafe x) := .of_sole (m.sole_applySafe x) hx (m.captured_applySafe x)
  unfold applyPort
  dsimp only
  refine .trans ?_ (hset _ _)
  split
  · exact .refl p m
  · split
    · exact hcode _
    · split
      · exact hsafe
      · exact .refl p m

theorem applyPort_code {m : Mod} {p k : Nat} {c : Captured} (ho : c.overridden = false) (hk : c.code = some k) :
    ∃ y, y = (m.drive p k).setPort p { (m.drive p k).port p with committed := true } ∧
      m.applyPort p c = y.setCapture p (some { c with applied := true, code := some (y.rd F.PORT_OUT_CODE p) }) := by
  refine ⟨_, rfl, ?_⟩
  unfold applyPort
  simp only [ho, hk, Bool.false_eq_true, if_false, Bool.false_and]

theorem applyPort_drives {m : Mod} {p k : Nat} {c : Captured} (ho : c.overridden = false) (hk : c.code = some k) :
    (m.applyPort p c).rd F.PORT_OUT_CODE p = k % 2 ^ 16 ∧ ((m.applyPort p c).port p).driving = true ∧ ((m.applyPort p c).port p).committed = true ∧
      ∃ c', (m.applyPort p c).capture p = some c' ∧ c'.applied = true ∧ c'.code = some (k % 2 ^ 16) ∧ c'.result = c.result := by
  obtain ⟨y, hy, happly⟩ := applyPort_code (m := m) (p := p) ho hk
  have hout : y.rd F.PORT_OUT_CODE p = k % 2 ^ 16 := by
    rw [hy, rd_setPort, drive, rd_setPort]
    exact m.rd_wr_self F.PORT_OUT_CODE p k (by decide)
  have hport : (y.port p).driving = true ∧ (y.port p).committed = true := by
    rw [hy, port_setPort_self, drive, port_setPort_self]
    exact ⟨rfl, rfl⟩
  clear hy
  rw [happly, capture_setCapture_self, hout]
  exact ⟨hout, hport.1, hport.2, _, rfl, rfl, rfl, rfl⟩

/-- The step of a pass that applies captures. -/
def applyStep (ok : Captured → Bool) (m : Mod) (p : Nat) : Mod :=
  match m.capture p with
  | some c => if !c.applied && ok c then m.applyPort p c else m
  | none => m

theorem applyBlock_eq (m : Mod) (b : Nat) (ok : Captured → Bool) : m.applyBlock b ok = m.each (blockPorts b) (applyStep ok) := rfl

theorem applyStep_apart {p x : Nat} (ok : Captured → Bool) (m : Mod) (hx : x ≠ p) : m.OutputApart p (applyStep ok m x) := by
  unfold applyStep
  split
  · split
    · exact m.applyPort_apart _ hx
    · exact .refl p m
  · exact .refl p m

/-- What the driven code of port `p` comes to. -/
def Drives (p k result : Nat) (t : Mod) : Prop :=
  t.rd F.PORT_OUT_CODE p = k % 2 ^ 16 ∧ (t.port p).driving = true ∧ (t.port p).committed = true ∧
    ∃ c', t.capture p = some c' ∧ c'.applied = true ∧ c'.code = some (k % 2 ^ 16) ∧ c'.result = result

theorem Drives.of_apart {p k result : Nat} {m t : Mod} (h : m.Drives p k result) (ht : m.OutputApart p t) : t.Drives p k result := by
  obtain ⟨hout, hdriving, hcommitted, hc⟩ := h
  refine ⟨?_, ?_, ?_, ?_⟩
  · exact (congrArg (fun v => bitsOf v 0 16) ht.out).trans hout
  · rw [ht.port, hdriving]
  · rw [ht.port, hcommitted]
  · rw [ht.capture]
    exact hc

theorem drives_commitPassed {p k result : Nat} {m : Mod} (x : Nat) (h : m.Drives p k result) : (m.commitPassed x).Drives p k result := by
  have hset : ∀ (y : Mod) (v : Port), y.Drives p k result → (x = p → v.driving = (y.port p).driving ∧ v.committed = (y.port p).committed) →
      (y.setPort x v).Drives p k result := by
    intro y v hy hv
    obtain ⟨hout, hdriving, hcommitted, hc⟩ := hy
    by_cases hx : x = p
    · subst hx
      obtain ⟨hd, hcm⟩ := hv rfl
      exact ⟨hout, by rw [port_setPort_self, hd, hdriving], by rw [port_setPort_self, hcm, hcommitted], hc⟩
    · exact Drives.of_apart ⟨hout, hdriving, hcommitted, hc⟩ (.of_sole (y.sole_setPort x v) hx rfl)
  have hput : ∀ (y : Mod), y.Drives p k result → (y.put F.PORT_STATUS_TRANSITION x false).Drives p k result := by
    intro y hy
    refine hy.of_apart ⟨rfl, port_put _ _ _ _ _, ?_⟩
    exact reg_setReg_ne y _ fun e => absurd e.1 (by decide)
  unfold commitPassed
  dsimp only
  split
  · have h1 := hset m { m.port x with awaitT3 := false } h fun e => by subst e; exact ⟨rfl, rfl⟩
    generalize m.setPort x { m.port x with awaitT3 := false } = y at h1
    unfold portMaybeEnd
    dsimp only
    split
    · exact hput _ (hset y _ h1 fun e => by subst e; exact ⟨rfl, rfl⟩)
    · exact h1
  · exact h

/-- Captures applied at a block drive the code of each of its ports for which `ok` holds. -/
theorem applyBlock_drives {m x : Mod} {b p k : Nat} {c : Captured} {ok : Captured → Bool} (hx : x.untimed = m.untimed) (hp : portBlock p = b)
    (hc : m.capture p = some c) (happ : c.applied = false) (hok : ok c = true) (ho : c.overridden = false) (hk : c.code = some k) :
    ((x.applyBlock b ok).each (blockPorts b) commitPassed).Drives p k c.result := by
  obtain ⟨y, hy, ht⟩ := each_at (R := OutputApart p) (.refl p) .trans (fun u q hq => applyStep_apart ok u hq) (blockPorts_nodup b) (mem_blockPorts hp) x
  have hyc : y.capture p = some c := by rw [hy.capture, (OutputApart.of_untimed (p := p) hx).capture, hc]
  have hstep : applyStep ok y p = y.applyPort p c := by
    unfold applyStep
    rw [hyc]
    dsimp only
    rw [happ, hok]
    rfl
  have hdr : (applyStep ok y p).Drives p k c.result := hstep ▸ applyPort_drives ho hk
  rw [applyBlock_eq]
  exact each_keeps (P := Drives p k c.result) (fun u q hu => drives_commitPassed q hu) _ (hdr.of_apart ht)

/-! ### Status records (R89) -/

theorem unsent_mirrorCodes (m : Mod) (ps : List Nat) : (m.mirrorCodes ps).unsent = m.unsent := by
  unfold mirrorCodes
  dsimp only
  split
  · rfl
  · exact m.unsent_mirror _

/-- What a status record at another port leaves. -/
structure StatusApart (p : Nat) (m t : Mod) : Prop where
  capture : t.capture p = m.capture p
  ostat : Tbl.get {} t.ostat p = Tbl.get {} m.ostat p

theorem statusPort_apart {p x : Nat} (m : Mod) (t : Nat) (hx : x ≠ p) : m.StatusApart p (m.statusPort x t) := by
  unfold statusPort
  split
  · split
    · refine ⟨capture_setCapture_ne _ _ (Ne.symm hx), ?_⟩
      exact Tbl.get_set_ne _ _ _ _ (Ne.symm hx)
    · exact ⟨rfl, rfl⟩
  · exact ⟨rfl, rfl⟩

theorem statusPort_rest (m : Mod) (p t : Nat) : (m.statusPort p t).regs = m.regs ∧ (m.statusPort p t).ports = m.ports := by
  unfold statusPort
  split
  · split <;> exact ⟨rfl, rfl⟩
  · exact ⟨rfl, rfl⟩

theorem statusPort_shows {m : Mod} {p t : Nat} {c : Captured} (hc : m.capture p = some c) (happ : c.applied = true) (ht : c.at_ = t) :
    (m.statusPort p t).capture p = none ∧
      Tbl.get {} (m.statusPort p t).ostat p = ⟨c.value, t, c.seq, BitVec.ofNat 16 (c.code.getD 0), BitVec.ofNat 32 c.result⟩ := by
  unfold statusPort
  rw [hc]
  dsimp only
  rw [happ, ht, beq_self_eq_true]
  exact ⟨capture_setCapture_self _ _ _, Tbl.get_set_self _ _ _ _⟩

theorem statusBlock_shows {m : Mod} {b p t : Nat} {c : Captured} (hp : portBlock p = b) (hc : m.capture p = some c) (happ : c.applied = true)
    (ht : c.at_ = t) : (m.each (blockPorts b) (fun m p => m.statusPort p t)).capture p = none ∧
      Tbl.get {} (m.each (blockPorts b) (fun m p => m.statusPort p t)).ostat p =
        ⟨c.value, t, c.seq, BitVec.ofNat 16 (c.code.getD 0), BitVec.ofNat 32 c.result⟩ ∧
      (m.each (blockPorts b) (fun m p => m.statusPort p t)).regs = m.regs ∧ (m.each (blockPorts b) (fun m p => m.statusPort p t)).ports = m.ports := by
  obtain ⟨y, hy, hz⟩ := each_at (R := StatusApart p) (fun _ => ⟨rfl, rfl⟩) (fun h h' => ⟨h'.capture.trans h.capture, h'.ostat.trans h.ostat⟩)
    (fun u q hq => u.statusPort_apart t hq) (blockPorts_nodup b) (mem_blockPorts hp) m
  obtain ⟨hcap, hst⟩ := statusPort_shows (hy.capture.trans hc) happ ht
  obtain ⟨hregs, hports⟩ := each_keeps (P := fun u => u.regs = m.regs ∧ u.ports = m.ports)
    (fun u q hu => ⟨(u.statusPort_rest q t).1.trans hu.1, (u.statusPort_rest q t).2.trans hu.2⟩) (blockPorts b) ⟨rfl, rfl⟩
  exact ⟨hz.capture.trans hcap, hz.ostat.trans hst, hregs, hports⟩

end Mod

/-- Settles O37. -/
theorem outputCommitsCaptureApplyAndReport : Obligations.OutputCommitsCaptureApplyAndReport := by
  intro s p b at_ c k m n q a drives hp
  refine ⟨fun h => ?_, fun h => ?_, fun hlast hn hc hat hst happ ho hk => ?_, fun hc hst happ ho hk => ?_, fun hc happ hat => ?_⟩
  · refine does_next rfl ?_
    obtain ⟨hlast, y, hy, ht⟩ := Mod.captureBlock_shows h hp
    obtain ⟨hpend, hnum, hport, hbar, hask⟩ := hy.reads
    refine ⟨hlast, fun hidle => ?_, fun hnew htgt hreconf hcheck hfree => ?_⟩
    · rw [Mod.capturePort_kept (hpend.trans hidle)] at ht
      exact ht.capture.trans hy.capture
    · obtain ⟨hseq, hcap⟩ := Mod.capturePort_shows (m := y) (prev := Tbl.get 0 s.mod.lastCapture b) (hpend.trans hnew) (by rw [hnum]; exact htgt)
        (by rw [hport]; exact hreconf) (by rw [hport]; exact hcheck) (hbar.trans hfree)
      rw [hnum] at hseq
      rw [hnum, hnum, hask] at hcap
      exact ⟨ht.seq.trans hseq, ht.capture ▸ hcap⟩
  · refine does_next rfl ?_
    exact if_pos (by rw [h]; rfl)
  · refine does_next rfl ?_
    have hgo : ¬ (Tbl.get 0 s.mod.lastCapture b ≠ at_.toNat ∨ at_ = 0) := by
      rintro (h | rfl)
      · exact h hlast
      · exact hn rfl
    dsimp only
    rw [if_neg hgo]
    exact Mod.applyBlock_drives (s.mod.untimed_toNow _) hp hc happ (by rw [hat, hst, beq_self_eq_true]; rfl) ho hk
  · refine does_next rfl ?_
    dsimp only
    split
    · next hnone =>
      have hp' := List.findSome?_eq_none_iff.mp hnone p (Mod.mem_blockPorts hp)
      rw [hc] at hp'
      simp [hst, happ] at hp'
    · exact Mod.applyBlock_drives ((Mod.untimed_toNow _ _).trans (s.mod.untimed_toMono _)) hp hc happ hst ho hk
  · refine does_next rfl ?_
    obtain ⟨hcap, hstat, hregs, hports⟩ := Mod.statusBlock_shows hp hc happ hat
    dsimp only
    generalize s.mod.each (blockPorts b) (fun m p => m.statusPort p at_.toNat) = x at hcap hstat hregs hports ⊢
    have hu := x.unsent_mirrorCodes (blockPorts b)
    generalize x.mirrorCodes (blockPorts b) = y at hu ⊢
    refine Mod.iff_keeps (P := fun t => t.capture p = none ∧ Tbl.get {} t.ostat p = _ ∧ t.regs = s.mod.regs ∧ t.ports = s.mod.ports) _ ?_ ?_
    · exact ⟨(congrArg (fun u : Mod => u.capture p) hu :).trans hcap, (congrArg (fun u : Mod => Tbl.get {} u.ostat p) hu :).trans hstat,
        (congrArg Mod.regs hu :).trans hregs, (congrArg Mod.ports hu :).trans hports⟩
    · exact ⟨(congrArg (fun u : Mod => u.capture p) hu :).trans hcap, (congrArg (fun u : Mod => Tbl.get {} u.ostat p) hu :).trans hstat,
        (congrArg Mod.regs hu :).trans hregs, (congrArg Mod.ports hu :).trans hports⟩

end Sys2Proof.Machine

/-!
The field switch's tables: what the table commands read and stage, and the ageing of learned entries (R56, R59, R64, R65).
-/
namespace Sys2Proof.Machine

namespace Mod

/-! ### Table commands -/

theorem tblCmd_lost {m : Mod} (h : m.flag F.FSW_STATUS_BUSY = true) (w : Writer) (op : Nat) (sp : Bool) (i : Nat) :
    m.tblCmd w op sp i = m.put F.FSW_STATUS_CMDLOST 0 true := if_pos h

/-- The module with a table command in progress. -/
def busy (m : Mod) : Mod := m.put F.FSW_STATUS_BUSY 0 true

/-- The bits of the data registers. -/
def tblData (m : Mod) : Nat := (upTo 4).foldl (fun a n => a + m.rd F.FSW_TBL_DATA_DATA n * 2 ^ (32 * n)) 0

theorem foldl_words_lt {r : Nat → Nat} (h : ∀ n, r n < 2 ^ 32) (k : Nat) : (upTo k).foldl (fun a n => a + r n * 2 ^ (32 * n)) 0 < 2 ^ (32 * k) := by
  induction k with
  | zero => exact Nat.one_pos
  | succ k ih =>
    rw [upTo, List.range_succ, List.foldl_append, ← upTo]
    calc (upTo k).foldl (fun a n => a + r n * 2 ^ (32 * n)) 0 + r k * 2 ^ (32 * k)
        < 2 ^ (32 * k) + r k * 2 ^ (32 * k) := Nat.add_lt_add_right ih _
      _ = (r k + 1) * 2 ^ (32 * k) := by ring
      _ ≤ 2 ^ 32 * 2 ^ (32 * k) := Nat.mul_le_mul_right _ (h k)
      _ = 2 ^ (32 * (k + 1)) := by rw [← Nat.pow_add]; congr 1; omega

theorem tblData_lt (m : Mod) : m.tblData < 2 ^ 128 := foldl_words_lt (r := fun n => m.rd F.FSW_TBL_DATA_DATA n) (fun _ => bitsOf_lt _ _ _) 4

/-- What every table command leaves that is not lost. -/
def TablesKept (m t : Mod) : Prop := t.flag F.FSW_STATUS_BUSY = true ∧ t.fwd = m.fwd ∧ t.vlan = m.vlan

theorem tablesKept_busy (m : Mod) : m.TablesKept m.busy := ⟨m.flag_put_self F.FSW_STATUS_BUSY 0 true (by decide) rfl, m.put_fwd _ _ _, m.put_vlan _ _ _⟩

theorem TablesKept.of_busy {m t : Mod} (hf : t.flag F.FSW_STATUS_BUSY = m.busy.flag F.FSW_STATUS_BUSY) (hw : t.fwd = m.busy.fwd)
    (hv : t.vlan = m.busy.vlan) : m.TablesKept t := by
  obtain ⟨hb, hbw, hbv⟩ := m.tablesKept_busy
  exact ⟨hf.trans hb, hw.trans hbw, hv.trans hbv⟩

section
variable {m : Mod} (hb : m.flag F.FSW_STATUS_BUSY = false) (w : Writer) (i : Nat)
include hb

theorem tblCmd_write (sp : Bool) : m.tblCmd w 1 sp i = m.busy.stageOffer w sp i (BitVec.ofNat 128 m.tblData) := by
  unfold tblCmd
  rw [hb]
  rfl

theorem tblCmd_invalidate (sp : Bool) : m.tblCmd w 2 sp i = if !m.busy.mayStage w.master.toNat then m.busy.put F.CFG_STATUS_ST_REFUSED 0 true
    else if sp then { m.busy with vlanStage := Tbl.set none m.busy.vlanStage (i / 32 * 32) (some 0) }
    else { m.busy with fwdStage := Tbl.set none m.busy.fwdStage i (some 0) } := by
  unfold tblCmd
  rw [hb]
  rfl

/-- A value shown in the data registers. -/
def showData (m : Mod) (v : Nat) : Mod := m.each (upTo 4) (fun m n => m.wr F.FSW_TBL_DATA_DATA n (bitsOf v (32 * n) 32))

theorem tblCmd_readVlan : m.tblCmd w 0 true i = m.busy.showData (m.busy.vlanWord i) := by
  unfold tblCmd
  rw [hb]
  rfl

theorem tblCmd_readFwd (h : (m.fwdEnt i).valid = false ∨ (m.fwdEnt i).static = true) : m.tblCmd w 0 false i = m.busy.showData (m.fwdEnt i).bits.toNat := by
  have hent : m.busy.fwdEnt i = m.fwdEnt i := by rw [fwdEnt, m.tablesKept_busy.2.1, fwdEnt]
  have hage : ((m.fwdEnt i).valid && !(m.fwdEnt i).static) = false := by
    obtain h | h := h <;> simp [h]
  unfold tblCmd
  rw [hb]
  dsimp only
  rw [← busy, hent, hage]
  rfl

end

theorem mayStage_busy (m : Mod) (w : Nat) : m.busy.mayStage w = m.mayStage w := by
  have hrd : m.busy.rd F.MBX_LOCK_HOLDER = m.rd F.MBX_LOCK_HOLDER := m.rd_put_of_apart 0 0 true (.inl (by decide))
  unfold mayStage committing
  rw [hrd, busy, put_stageImage, put_cfg]

theorem showData_shows (m : Mod) (v j : Nat) (hj : j < 4) : (m.showData v).rd F.FSW_TBL_DATA_DATA j = bitsOf v (32 * j) 32 ∧
    (m.showData v).flag F.FSW_STATUS_BUSY = m.flag F.FSW_STATUS_BUSY ∧ (m.showData v).fwd = m.fwd ∧ (m.showData v).vlan = m.vlan := by
  refine ⟨?_, ?_⟩
  · have hne : ∀ (x : Mod) (n : Nat), n ≠ j → (x.wr F.FSW_TBL_DATA_DATA n (bitsOf v (32 * n) 32)).rd F.FSW_TBL_DATA_DATA j = x.rd F.FSW_TBL_DATA_DATA j :=
      fun x n hn => congrArg (fun u => bitsOf u 0 32) (reg_setReg_ne x _ fun e => hn e.2.symm)
    obtain ⟨y, -, ht⟩ := each_at (R := fun a b : Mod => b.rd F.FSW_TBL_DATA_DATA j = a.rd F.FSW_TBL_DATA_DATA j) (fun _ => rfl)
      (fun h h' => h'.trans h) hne (l := upTo 4) List.nodup_range (List.mem_range.mpr hj) m
    exact ht.trans ((y.rd_wr_self _ _ _ (by decide)).trans (Nat.mod_eq_of_lt (bitsOf_lt _ _ _)))
  · refine each_keeps (P := fun t => t.flag F.FSW_STATUS_BUSY = m.flag F.FSW_STATUS_BUSY ∧ t.fwd = m.fwd ∧ t.vlan = m.vlan) (fun x n h => ?_) _ ⟨rfl, rfl, rfl⟩
    obtain ⟨hf, hw, hv⟩ := h
    exact ⟨(x.flag_wr_of_apart n _ 0 (.inl (by decide))).trans hf, (x.wr_fwd _ _ _).trans hw, (x.wr_vlan _ _ _).trans hv⟩

theorem tablesKept_showData (m : Mod) (v : Nat) : m.TablesKept (m.busy.showData v) := by
  obtain ⟨-, hf, hw, hv⟩ := m.busy.showData_shows v 0 (by decide)
  exact .of_busy hf hw hv

/-! ### Staging (R56, R380) -/

theorem stageOffer_refused {m : Mod} {w : Writer} (h : m.mayStage w.master.toNat = false) (sp : Bool) (i : Nat) (d : BitVec 128) :
    m.stageOffer w sp i d = m.put F.CFG_STATUS_ST_REFUSED 0 true := by
  unfold stageOffer
  rw [h]
  rfl

theorem stageOffer_staged {m : Mod} {w : Writer} (h : m.mayStage w.master.toNat = true) {sp : Bool} {d : BitVec 128}
    (hd : sp = true ∨ bitsOf d.toNat 74 3 < 5) (i : Nat) : m.stageOffer w sp i d = m.stageEntry sp i d := by
  unfold stageOffer
  rw [h]
  simp only [Bool.not_true, Bool.false_eq_true, if_false]
  refine if_neg ?_
  obtain rfl | hd := hd
  · simp
  · simp [Nat.not_le.mpr hd]

theorem faulted_countCell (m : Mod) (g : Nat) : m.Faulted (m.countCell g) := by
  unfold countCell
  split
  · exact .refl _ _ m
  · dsimp only
    exact .trans (n := { m with escCell := (g, m.mono) :: m.escCell.filter (fun e => m.inWindow e.2) }) (.of_regs rfl rfl) (.iff _ (.of_regs rfl rfl))

theorem faulted_cellFault (m : Mod) (g cause index unit detail master : Nat) : m.Faulted (m.cellFault g cause index unit detail master) := by
  unfold cellFault
  split
  · exact m.faulted_record _
  · dsimp only
    refine .trans ?_ (faulted_countCell _ g)
    split
    · exact .iff _ (m.faulted_count _ _ (by decide))
    · exact m.faulted_record _

theorem stageOffer_reserved {m : Mod} {w : Writer} (h : m.mayStage w.master.toNat = true) {d : BitVec 128} (hd : 5 ≤ bitsOf d.toNat 74 3) (i : Nat) :
    m.Faulted (m.stageOffer w false i d) := by
  unfold stageOffer
  rw [h]
  simp only [Bool.not_true, Bool.false_eq_true, if_false, Bool.not_false, Bool.true_and, decide_eq_true hd, if_true]
  exact m.faulted_cellFault _ _ _ _ _ _

/-- The bits a forwarding entry is staged with. -/
theorem fwdBits_shows (data : Nat) : fwdBits data < 2 ^ 128 ∧ bitsOf (fwdBits data) 61 1 = 1 ∧ bitsOf (fwdBits data) 77 51 = 0 ∧
    bitsOf (fwdBits data) 62 2 = 0 ∧ bitsOf (fwdBits data) 0 61 = bitsOf data 0 61 ∧ bitsOf (fwdBits data) 64 13 = bitsOf data 64 13 := by
  have hlow : bitsOf (data % 2 ^ 77) 0 61 = bitsOf data 0 61 ∧ bitsOf (data % 2 ^ 77) 64 13 = bitsOf data 64 13 ∧ bitsOf (data % 2 ^ 77) 77 51 = 0 := by
    simp only [bitsOf_eq_div]
    omega
  have hlt : data % 2 ^ 77 < 2 ^ 128 := by omega
  obtain ⟨h0, h64, h77⟩ := hlow
  unfold fwdBits
  generalize data % 2 ^ 77 = a at *
  have hhigh : bitsOf (withBits (withBits (withBits a 61 1 1) 62 2 0) 96 32 0) 77 51 = 0 := by
    have h1 : bitsOf (withBits (withBits a 61 1 1) 62 2 0) 77 51 = 0 := by
      rw [bitsOf_withBits_above _ _ _ _ _ _ (by decide), bitsOf_withBits_above _ _ _ _ _ _ (by decide), h77]
    have h2 : withBits (withBits a 61 1 1) 62 2 0 < 2 ^ 128 := withBits_lt _ _ _ _ _ (withBits_lt _ _ _ _ _ hlt (by decide)) (by decide)
    generalize withBits (withBits a 61 1 1) 62 2 0 = b at h1 h2
    rw [bitsOf_eq_div] at h1 ⊢
    rw [withBits_eq]
    omega
  refine ⟨?_, ?_, hhigh, ?_, ?_, ?_⟩
  · exact withBits_lt _ _ _ _ _ (withBits_lt _ _ _ _ _ (withBits_lt _ _ _ _ _ hlt (by decide)) (by decide)) (by decide)
  · rw [bitsOf_withBits_below _ _ _ _ _ _ (by decide), bitsOf_withBits_below _ _ _ _ _ _ (by decide), bitsOf_withBits_self]
    rfl
  · rw [bitsOf_withBits_below _ _ _ _ _ _ (by decide), bitsOf_withBits_self]
    rfl
  · rw [bitsOf_withBits_below _ _ _ _ _ _ (by decide), bitsOf_withBits_below _ _ _ _ _ _ (by decide), bitsOf_withBits_below _ _ _ _ _ _ (by decide), h0]
  · rw [bitsOf_withBits_below _ _ _ _ _ _ (by decide), bitsOf_withBits_above _ _ _ _ _ _ (by decide), bitsOf_withBits_above _ _ _ _ _ _ (by decide), h64]

/-! ### Ageing (R56) -/

theorem ageOut_idle {m : Mod} {i : Nat} (h : (m.fwdEnt i).valid = false ∨ (m.fwdEnt i).static = true ∨ m.rd F.FSW_CTRL_AGE = 0) : m.ageOut i = m := by
  unfold ageOut
  refine if_pos ?_
  obtain h | h | h := h <;> simp [h]

/-- A forwarding entry taken out. -/
def dropFwd (m : Mod) (i : Nat) : Mod := ({ m with fwd := Tbl.set {} m.fwd i {} } : Mod).fswCount

theorem dropFwd_shows (m : Mod) (i : Nat) : ((m.dropFwd i).fwdEnt i).valid = false ∧ (m.dropFwd i).mono = m.mono ∧
    (∀ j, j ≠ i → (m.dropFwd i).fwdEnt j = m.fwdEnt j) ∧ OnlyRegs [(.FSW_STATUS, 0)] m (m.dropFwd i) := by
  unfold dropFwd
  generalize hy : ({ m with fwd := Tbl.set {} m.fwd i {} } : Mod) = y
  have hyf : y.fwd = Tbl.set {} m.fwd i {} := by rw [← hy]
  have hyr : y.regs = m.regs := by rw [← hy]
  have hym : y.mono = m.mono := by rw [← hy]
  clear hy
  have hent : ∀ j, y.fswCount.fwdEnt j = Tbl.get {} y.fwd j := fun j => by rw [fwdEnt, fswCount, wr_fwd]
  refine ⟨?_, (y.wr_mono _ _ _).trans hym, fun j hj => ?_, (onlyRegs_of_regs hyr).trans (onlyRegs_wr y F.FSW_STATUS_USED 0 _)⟩
  · rw [hent, hyf, Tbl.get_set_self]
    rfl
  · rw [hent, hyf, Tbl.get_set_ne _ _ _ _ hj, fwdEnt]

theorem ageOut_eq (m : Mod) (i : Nat) : m.ageOut i = if m.rd F.FSW_CTRL_AGE = 0 || !(m.fwdEnt i).valid || (m.fwdEnt i).static then m else
    (m.toMono ((m.fwdEnt i).used + m.rd F.FSW_CTRL_AGE * 10000000000)).dropFwd i := by
  rw [ageOut, dropFwd]

theorem ageOut_drops {m : Mod} {i n : Nat} (hv : (m.fwdEnt i).valid = true) (hs : (m.fwdEnt i).static = false) (ha : m.rd F.FSW_CTRL_AGE ≠ 0)
    (hn : (m.fwdEnt i).used + m.rd F.FSW_CTRL_AGE * 10000000000 = n) : m.ageOut i = (m.toMono n).dropFwd i := by
  have hgo : ¬ ((decide (m.rd F.FSW_CTRL_AGE = 0) || !(m.fwdEnt i).valid || (m.fwdEnt i).static) = true) := by simp [hv, hs, ha]
  rw [ageOut_eq, if_neg hgo, hn]

/-- What the removal of an entry at a later time leaves. -/
theorem dropFwd_later (m : Mod) (i n : Nat) : (((m.toMono n).dropFwd i).fwdEnt i).valid = false ∧ ((m.toMono n).dropFwd i).mono = Nat.max m.mono n ∧
    (∀ j, j ≠ i → ((m.toMono n).dropFwd i).fwdEnt j = m.fwdEnt j) ∧ OnlyRegs [(.FSW_STATUS, 0)] m ((m.toMono n).dropFwd i) := by
  have hmono := m.mono_toMono n
  have htime := m.untimed_toMono n
  generalize m.toMono n = x at *
  have hfwd : x.fwd = m.fwd := (congrArg Mod.fwd htime :)
  have hregs : x.regs = m.regs := (congrArg Mod.regs htime :)
  obtain ⟨hvalid, hm, hother, honly⟩ := x.dropFwd_shows i
  refine ⟨hvalid, hm.trans hmono, fun j hj => (hother j hj).trans ?_, (onlyRegs_of_regs hregs).trans honly⟩
  rw [fwdEnt, hfwd, fwdEnt]

end Mod

end Sys2Proof.Machine

/-!
The field switch's frames: where they go, what leaves an egress, and the firmware's transmit slots (R55 to R57, R97).
-/
namespace Sys2Proof.Machine

namespace Mod

/-! ### Frames that come in (R47, R55) -/

section
variable {m : Mod} {ig : Nat} {fr : EthFrame}

theorem switchReceive_kept (h : frameGood fr = false ∨ m.ingressUp ig = false) : m.switchReceive ig fr = m := by
  unfold switchReceive
  refine if_pos ?_
  obtain h | h := h <;> simp [h]

theorem switchReceive_taken (hen : m.flag F.FSW_CTRL_ENABLE = true) (hig : ig < 1032) (hg : frameGood fr = true) (hup : m.ingressUp ig = true) {vid pcp : Nat}
    {tagged : Bool} (ht : tagOf fr.bytes (if ig < 1024 then m.rd F.PORT_LINK_CTRL_PVID ig else 0) 0 = (vid, pcp, tagged)) :
    m.switchReceive ig fr = (m.switchFrame ig vid pcp tagged fr none none).1 := by
  unfold switchReceive
  rw [if_neg (by simp [hg, hup, hig]), if_neg (by simp [hen]), ht]

theorem switchFrame_dropped {vid : Nat} (h : m.vlanOf vid = none ∨ ∃ v, m.vlanOf vid = some v ∧ m.vlanHas v ig = false) (pcp : Nat) (tagged : Bool)
    (direct : Option Nat) (ts : Option (Nat × Nat)) : m.switchFrame ig vid pcp tagged fr direct ts = (m.count F.FSW_DROP_VLAN_COUNT, false) := by
  unfold switchFrame
  obtain h | ⟨v, hv, hh⟩ := h
  · rw [h]
  · rw [hv]
    dsimp only
    rw [hh]
    rfl

/-- A frame passed to each of its destinations. -/
def toMembers (m : Mod) (ig : Nat) (l : List Nat) (vid pcp : Nat) (tagged : Bool) (fr : EthFrame) (ts : Option (Nat × Nat)) : Mod :=
  m.each l (fun m k => (m.toMember ig k vid pcp tagged fr ts).1)

theorem foldl_toMember (ig vid pcp : Nat) (tagged : Bool) (fr : EthFrame) (ts : Option (Nat × Nat)) (l : List Nat) (m : Mod) (b : Bool) :
    (l.foldl (fun (r : Mod × Bool) k => ((r.1.toMember ig k vid pcp tagged fr ts).1, r.2 || (r.1.toMember ig k vid pcp tagged fr ts).2)) (m, b)).1 =
      m.toMembers ig l vid pcp tagged fr ts := by
  induction l generalizing m b with
  | nil => rfl
  | cons k ks ih => exact ih _ _

/-- The module as a frame's source address has been learned and its destination's entry is used. -/
def looked (m : Mod) (ig vid : Nat) (fr : EthFrame) : Mod := (m.learn (macAt fr.bytes 6) vid ig).touchFwd (macAt fr.bytes 0) vid

theorem switchFrame_passed {v vid pcp : Nat} {tagged : Bool} (hv : m.vlanOf vid = some v) (hh : m.vlanHas v ig = true) {l : List Nat}
    (hl : (m.looked ig vid fr).destinations ig v vid (macAt fr.bytes 0) = some l) (hne : l ≠ []) (ts : Option (Nat × Nat)) :
    (m.switchFrame ig vid pcp tagged fr none ts).1 = (m.looked ig vid fr).toMembers ig l vid pcp tagged fr ts := by
  obtain ⟨k, ks, rfl⟩ := List.exists_cons_of_ne_nil hne
  rw [← foldl_toMember (b := false)]
  unfold switchFrame
  rw [hv]
  dsimp only
  rw [hh]
  simp only [Bool.not_true, Bool.false_eq_true, if_false]
  rw [← looked, hl]

end

/-! ### Where frames go (R55, R56) -/

section
variable {m : Mod} {ig v vid mac : Nat}

theorem learn_off (h : m.flag F.FSW_CTRL_LEARN = false) (mac vid ig : Nat) : m.learn mac vid ig = m := by
  unfold learn
  rw [h]
  rfl

theorem touchFwd_none (h : m.fwdFind mac vid = none) : m.touchFwd mac vid = m := by
  unfold touchFwd
  rw [h]

theorem touchFwd_static {i : Nat} {e : FwdEntry} (h : m.fwdFind mac vid = some (i, e)) (hs : e.static = true) : m.touchFwd mac vid = m := by
  unfold touchFwd
  rw [h]
  exact if_pos hs

theorem destinations_static {k i : Nat} {e : FwdEntry} (h : m.fwdFind mac vid = some (i, e)) (hkind : e.fld 74 3 = 0) (hdest : e.fld 64 10 = k)
    (hk : m.vlanHas v k = true) (hne : k ≠ ig) : m.destinations ig v vid mac = some [k] := by
  unfold destinations
  rw [h]
  simp only [hkind, hdest]
  rw [hk, if_pos rfl, if_neg hne]

theorem destinations_unknown (h : m.fwdFind mac vid = none) :
    m.destinations ig v vid mac = some ((upTo 1033).filter (fun k => k != ig && m.vlanHas v k)) := by
  unfold destinations
  rw [h]

end

/-! ### Egress queues (R55, R57) -/

theorem cbsMove_port (m : Mod) {k : Nat} (hk : k < 1024) (q : Nat) (was now : Bool) (d : Int) : m.cbsMove k q was now d = m := by
  have hslope : m.cbsSlope k q = 0 := by
    unfold cbsSlope
    exact if_pos (by simp [hk])
  unfold cbsMove
  exact if_pos hslope

/-- A frame queued at a field port's egress. -/
theorem toMember_queued {m : Mod} {k : Nat} {fr : EthFrame} (hk : k < 1024) (hup : m.memberUp' k = true)
    (hroom : ((Tbl.get [] m.egress k).map (fun x => x.bytes.length)).sum + fr.bytes.length ≤ 16384) (ig vid pcp : Nat) (tagged : Bool)
    (ts : Option (Nat × Nat)) :
    (m.toMember ig k vid pcp tagged fr ts).1 = { m with egress := Tbl.set [] m.egress k (Tbl.get [] m.egress k ++ [⟨pcp, fr.bytes, ts⟩]) } := by
  have hlim : egressLimit k = 16384 := if_pos hk
  unfold toMember
  rw [if_neg (by omega), hup, if_neg (by simp)]
  dsimp only
  rw [hlim, if_neg (by omega), cbsMove_port m hk]

/-- A module without what a frame on its way through the switch changes beside tables. -/
def unswitched (m : Mod) : Mod := { m.untold with mem := [], egress := [], cbs := [] }

/-- The registers that a frame may change where it goes. -/
def switchRegs : List Reg := [.FSW_DROP_BUF, .FSW_DROP_NOLINK, .SPL_RGN_LRX_DROP, .SPL_RGN_LRX_PROD, .SPL_BLK_STATUS, .EVR_UNROUTED]

/-- What a frame's way to another destination leaves of the queue of `j` and of the module. -/
structure PassedBy (j : Nat) (m t : Mod) : Prop where
  frame : Frame unswitched switchRegs m t
  egress : Tbl.get [] t.egress j = Tbl.get [] m.egress j

namespace PassedBy
variable {j : Nat} {m n t : Mod}
theorem refl (j : Nat) (m : Mod) : m.PassedBy j m := ⟨.refl _ _ m, rfl⟩
theorem trans (h : m.PassedBy j n) (h' : n.PassedBy j t) : m.PassedBy j t := ⟨h.frame.trans h'.frame, h'.egress.trans h.egress⟩
theorem iff {f : Mod → Mod} (b : Bool) (h : m.PassedBy j (f m)) : m.PassedBy j (m.iff b f) := iff_keeps b h (.refl j m)
theorem of_told {l : List (Reg × Nat)} (h : m.Told l t) (hl : ∀ e ∈ l, e.1 ∈ switchRegs) : m.PassedBy j t :=
  ⟨h.frame (fun _ => rfl) hl, (congrArg (fun u : Mod => Tbl.get [] u.egress j) h.rest :)⟩
end PassedBy

theorem passedBy_count (j : Nat) (m : Mod) (f : Fld) (i : Nat) (h : f.reg ∈ switchRegs) : m.PassedBy j (m.count f i) :=
  .of_told (m.told_count f i 1 (l := [(f.reg, i)]) (by simp)) (by simpa using h)

theorem passedBy_setBytes (j : Nat) (m : Mod) (a : Nat) (bs : List Byte) : m.PassedBy j (m.setBytes a bs) := ⟨.of_regs rfl rfl, rfl⟩

theorem passedBy_setNum (j : Nat) (m : Mod) (a n v : Nat) : m.PassedBy j (m.setNum a n v) := m.passedBy_setBytes j a (leBytes n v)

theorem passedBy_toFirmware (j : Nat) (m : Mod) (ig vid pcp : Nat) (tagged : Bool) (fr : EthFrame) : m.PassedBy j (m.toFirmware ig vid pcp tagged fr) := by
  unfold toFirmware
  dsimp only
  generalize (if ig < 1024 then portRegion ig else (ig - 1024) / 2) = g
  generalize m.rxStamp ig fr.bytes = stamp
  generalize signalBase g + 0x40000 + m.rd F.SPL_RGN_LRX_PROD_INDEX g % 512 * 2048 = a
  split
  · exact .refl j m
  · split
    · exact passedBy_count j m F.FSW_DROP_BUF_COUNT 0 (by decide)
    · split
      · exact (passedBy_count j m F.FSW_DROP_BUF_COUNT 0 (by decide)).trans (passedBy_count j _ F.SPL_RGN_LRX_DROP_COUNT _ (by decide))
      · have hwr : ∀ (x : Mod) g v, x.PassedBy j (x.wr F.SPL_RGN_LRX_PROD_INDEX g v) := fun x g v =>
          .of_told (x.told_wr F.SPL_RGN_LRX_PROD_INDEX g v (l := [(.SPL_RGN_LRX_PROD, g)]) (List.mem_singleton.mpr rfl)) (by simp [switchRegs])
        refine .trans ?_ (.iff _ (.of_told (told_frameQueued _ ig) (by simp [switchRegs])))
        refine .trans ?_ (hwr _ _ _)
        refine .trans ?_ (passedBy_setBytes j _ _ _)
        exact ((((passedBy_setNum j m _ _ _).trans (passedBy_setNum j _ _ _ _)).trans (passedBy_setNum j _ _ _ _)).trans
          (passedBy_setNum j _ _ _ _)).trans (passedBy_setNum j _ _ _ _)

theorem passedBy_cbsMove (j : Nat) (m : Mod) (k q : Nat) (was now : Bool) (d : Int) : m.PassedBy j (m.cbsMove k q was now d) := by
  unfold cbsMove
  split
  · exact .refl j m
  · exact ⟨.of_regs rfl rfl, rfl⟩

theorem passedBy_toMember {j k : Nat} (m : Mod) (ig vid pcp : Nat) (tagged : Bool) (fr : EthFrame) (ts : Option (Nat × Nat)) (hk : k ≠ j) :
    m.PassedBy j (m.toMember ig k vid pcp tagged fr ts).1 := by
  unfold toMember
  split
  · exact m.passedBy_toFirmware j _ _ _ _ _
  · split
    · exact passedBy_count j m F.FSW_DROP_NOLINK_COUNT 0 (by decide)
    · dsimp only
      split
      · exact passedBy_count j m F.FSW_DROP_BUF_COUNT 0 (by decide)
      · have hcbs := m.passedBy_cbsMove j k pcp ((Tbl.get [] m.egress k).any (·.prio == pcp)) true 0
        generalize m.cbsMove k pcp ((Tbl.get [] m.egress k).any (·.prio == pcp)) true 0 = x at hcbs
        refine ⟨⟨hcbs.frame.rest, hcbs.frame.regs⟩, ?_⟩
        exact Tbl.get_set_ne _ _ _ _ (Ne.symm hk)

/-- A destination's link and queue are as they were while a frame goes elsewhere. -/
theorem PassedBy.memberUp {k : Nat} {m y : Mod} (h : m.PassedBy k y) (hk : k < 1024) : y.memberUp' k = m.memberUp' k := by
  unfold memberUp'
  rw [if_pos hk, if_pos hk, effMode, effMode, h.frame.rd _ _ (by decide), h.frame.flag _ _ (by decide)]

/-- A frame at each of its destinations. -/
theorem toMembers_queued {m : Mod} {k : Nat} {l : List Nat} {fr : EthFrame} (hnd : l.Nodup) (hl : k ∈ l) (hk : k < 1024) (hup : m.memberUp' k = true)
    (hroom : ((Tbl.get [] m.egress k).map (fun x => x.bytes.length)).sum + fr.bytes.length ≤ 16384) (ig vid pcp : Nat) (tagged : Bool)
    (ts : Option (Nat × Nat)) :
    Tbl.get [] (m.toMembers ig l vid pcp tagged fr ts).egress k = Tbl.get [] m.egress k ++ [⟨pcp, fr.bytes, ts⟩] ∧
      ∀ j, j ∉ l → m.PassedBy j (m.toMembers ig l vid pcp tagged fr ts) := by
  refine ⟨?_, fun j hj => each_apart (R := PassedBy j) (.refl j) .trans (fun u x hx => u.passedBy_toMember ig vid pcp tagged fr ts hx) hj m⟩
  obtain ⟨y, hy, ht⟩ := each_at (R := PassedBy k) (f := fun m k => (m.toMember ig k vid pcp tagged fr ts).1) (.refl k) .trans
    (fun u x hx => u.passedBy_toMember ig vid pcp tagged fr ts hx) hnd hl m
  have hq := toMember_queued hk ((hy.memberUp hk).trans hup) (by rw [hy.egress]; exact hroom) ig vid pcp tagged ts
  have hget := ht.egress
  rw [hq] at hget
  refine hget.trans ?_
  rw [← hy.egress]
  exact Tbl.get_set_self _ _ _ _

/-! ### Learning (R56) -/

/-- The entry a source address is learned with. -/
def learnt (m : Mod) (mac vid ig : Nat) : FwdEntry := { bits := learnedBits mac vid ig, used := m.mono }

/-- A forwarding entry put in. -/
def putFwd (m : Mod) (i : Nat) (e : FwdEntry) : Mod := ({ m with fwd := Tbl.set {} m.fwd i e } : Mod).fswCount

theorem putFwd_fwd (m : Mod) (i : Nat) (e : FwdEntry) : (m.putFwd i e).fwd = Tbl.set {} m.fwd i e := by rw [putFwd, fswCount, wr_fwd]
theorem putFwd_mono (m : Mod) (i : Nat) (e : FwdEntry) : (m.putFwd i e).mono = m.mono := by rw [putFwd, fswCount, wr_mono]

theorem learn_free {m : Mod} {mac vid : Nat} (hl : m.flag F.FSW_CTRL_LEARN = true) (hm : bitAt mac 40 = false) (hf : m.fwdFind mac vid = none)
    (h0 : (m.fwdEnt 0).valid = false) (ig : Nat) : m.learn mac vid ig = m.putFwd 0 (m.learnt mac vid ig) := by
  have hfind : (upTo 8192).find? (fun i => !(m.fwdEnt i).valid) = some 0 := by
    rw [upTo, List.range_succ_eq_map]
    exact List.find?_cons_of_pos (by rw [h0]; rfl)
  unfold learn
  rw [hl, hm, if_neg (by decide), hf]
  dsimp only
  rw [hfind]
  rfl

theorem eq_of_mem_set {t : Tbl FwdEntry} {i : Nat} {d v e : FwdEntry} (h : (i, e) ∈ Tbl.set d t i v) : e = v := by
  unfold Tbl.set at h
  split at h
  · exact absurd rfl (Tbl.mem_erase_ne t i _ h)
  · obtain h | h := Tbl.mem_insert h
    · exact (Prod.mk.inj h).2
    · exact absurd rfl (Tbl.mem_erase_ne t i _ h)

/-- The use of any entry leaves a new one as it was learned. -/
theorem touchFwd_learnt {x m : Mod} {e : FwdEntry} (hx : x.fwd = Tbl.set {} m.fwd 0 e) (hm : x.mono = e.used) (mac vid : Nat) :
    (x.touchFwd mac vid).fwdEnt 0 = e := by
  have h0 : x.fwdEnt 0 = e := by rw [fwdEnt, hx, Tbl.get_set_self]
  unfold touchFwd
  split
  · next i e' hfind =>
    split
    · exact h0
    · by_cases hi : i = 0
      · subst hi
        have hmem : (0, e') ∈ Tbl.set {} m.fwd 0 e := hx ▸ List.mem_of_find?_eq_some hfind
        rw [fwdEnt, Tbl.get_set_self, eq_of_mem_set hmem, hm]
      · rw [fwdEnt, Tbl.get_set_ne _ _ _ _ (Ne.symm hi)]
        exact h0
  · exact h0

theorem fwd_toMember (m : Mod) (ig k vid pcp : Nat) (tagged : Bool) (fr : EthFrame) (ts : Option (Nat × Nat)) :
    (m.toMember ig k vid pcp tagged fr ts).1.fwd = m.fwd :=
  (congrArg Mod.fwd (m.passedBy_toMember (j := k + 1) ig vid pcp tagged fr ts (Nat.lt_succ_self k).ne).frame.rest :)

/-- Where a frame goes changes no forwarding entry. -/
theorem switchFrame_fwd {m : Mod} {ig v vid : Nat} (hv : m.vlanOf vid = some v) (hh : m.vlanHas v ig = true) (pcp : Nat) (tagged : Bool) (fr : EthFrame)
    (ts : Option (Nat × Nat)) : (m.switchFrame ig vid pcp tagged fr none ts).1.fwd = (m.looked ig vid fr).fwd := by
  unfold switchFrame
  rw [hv]
  dsimp only
  rw [hh]
  simp only [Bool.not_true, Bool.false_eq_true, if_false]
  rw [← looked]
  generalize m.looked ig vid fr = x
  split
  · exact x.count_fwd _ _ _
  · exact x.count_fwd _ _ _
  · rw [foldl_toMember]
    exact each_keeps (P := fun y => y.fwd = x.fwd) (fun y k hy => (y.fwd_toMember _ _ _ _ _ _ _).trans hy) _ rfl

/-- A source address learned at the first entry, which is free. -/
theorem switchFrame_learns {m : Mod} {ig v vid : Nat} {fr : EthFrame} (hv : m.vlanOf vid = some v) (hh : m.vlanHas v ig = true)
    (hl : m.flag F.FSW_CTRL_LEARN = true) (hm : bitAt (macAt fr.bytes 6) 40 = false) (hf : m.fwdFind (macAt fr.bytes 6) vid = none)
    (h0 : (m.fwdEnt 0).valid = false) (pcp : Nat) (tagged : Bool) (ts : Option (Nat × Nat)) :
    (m.switchFrame ig vid pcp tagged fr none ts).1.fwdEnt 0 = m.learnt (macAt fr.bytes 6) vid ig := by
  rw [fwdEnt, switchFrame_fwd hv hh, looked, learn_free hl hm hf h0, ← fwdEnt]
  exact touchFwd_learnt (putFwd_fwd _ _ _) (putFwd_mono _ _ _) _ _

/-! ### What leaves an egress (R55, R97) -/

theorem egressSend_sends {m : Mod} {k : Nat} {x : QFrame} (hk : k < 1024) (hup : m.memberUp' k = true)
    (hpick : m.egressPick k (Tbl.get [] m.egress k) = some x) (hts : x.ts = none) :
    m.egressSend k = ({ m with egress := Tbl.set [] m.egress k ((Tbl.get [] m.egress k).erase x) } : Mod).emit (.eth k (withFcs x.bytes)) := by
  have h1024 : decide (k ≥ 1024) = false := decide_eq_false (by omega)
  unfold egressSend
  dsimp only
  rw [hpick, hup, if_neg (by simp; omega)]
  dsimp only
  rw [cbsMove_port _ hk, h1024, hts]
  rfl

/-! ### The firmware's transmit slots (R95, R97) -/

theorem ltxFinish_mem (m : Mod) (g i : Nat) : (m.ltxFinish g i).mem = m.mem := by
  rcases hr : releaseFront 256 (m.rd F.SPL_RGN_LTX_CONS_INDEX g) (i :: Tbl.get [] m.ltxDone g) with ⟨c, done⟩
  rw [ltxFinish]
  simp only [hr]
  rw [wr_mem]

section
variable {m : Mod} {g : Nat} (hen : m.flag F.FSW_CTRL_ENABLE = true) (hdown : m.rgnDown g = false) (htaken : Tbl.get 0 m.ltxTaken g = 0)
  (hwait : ringAhead (m.rd F.SPL_RGN_LTX_PROD_INDEX g) (m.rd F.SPL_RGN_LTX_CONS_INDEX g) ≠ 0)
include hen hdown htaken hwait

/-- The result of the oldest waiting slot, by its length. -/
theorem ltxTake_result {a len : Nat} (ha : ltxSlot g (m.rd F.SPL_RGN_LTX_CONS_INDEX g) = a) (hlen : m.num a 2 = len) :
    (len = 0 → (m.ltxTake g).num (a + 7) 1 = 4) ∧ (len > 1518 → (m.ltxTake g).num (a + 7) 1 = 2) ∧
      (len ≠ 0 → len ≤ 1514 → m.num (a + 2) 2 < 32768 → (m.ltxTake g).num (a + 7) 1 = 1) := by
  have hslot : ltxSlot g ((m.rd F.SPL_RGN_LTX_CONS_INDEX g + 0) % 65536) = a := by
    have hmod : (m.rd F.SPL_RGN_LTX_CONS_INDEX g + 0) % 65536 % 256 = m.rd F.SPL_RGN_LTX_CONS_INDEX g % 256 := by omega
    rw [← ha, ltxSlot, hmod, ltxSlot]
  unfold ltxTake
  dsimp only
  rw [hen, hdown, htaken, if_neg (by simp; omega), hslot]
  generalize (m.rd F.SPL_RGN_LTX_CONS_INDEX g + 0) % 65536 = i
  generalize hx : ({ m with ltxTaken := Tbl.set 0 m.ltxTaken g (0 + 1) } : Mod) = x
  have hnum : ∀ b n, x.num b n = m.num b n := num_of_mem (by rw [← hx])
  clear hx
  generalize x.bytes (a + 16) _ = bs
  rw [hnum, hnum, hnum, hnum, hlen]
  generalize tagOf bs _ _ = tag
  obtain ⟨vid, pcp, tagged⟩ := tag
  dsimp only
  refine ⟨fun h0 => ?_, fun hbig => ?_, fun h0 hle he => ?_⟩
  · rw [if_pos h0, num_of_mem (ltxFinish_mem _ _ _), num_setNum_self]
    rfl
  · rw [if_neg (by omega), if_pos (.inl hbig), num_of_mem ((ltxFinish_mem _ _ _).trans (count_mem _ _ _ _)), num_setNum_self]
    rfl
  · have hbit : bitAt (m.num (a + 2) 2) 15 = false := by
      rw [bitAt, bitsOf_eq_div, show m.num (a + 2) 2 / 2 ^ 15 = 0 from Nat.div_eq_of_lt he]
      rfl
    rw [if_neg h0, if_neg (by omega), hbit]
    simp only [Bool.false_eq_true, if_false]
    generalize x.switchFrame 1032 vid pcp tagged _ none _ = r
    have hone : (r.1.setNum (a + 7) 1 1).num (a + 7) 1 = 1 := num_setNum_self _ _ _ _
    generalize r.1.setNum (a + 7) 1 1 = y at hone ⊢
    split
    · exact hone
    · rw [num_of_mem (ltxFinish_mem _ _ _)]
      refine iff_keeps (P := fun t => t.num (a + 7) 1 = 1) _ ?_ hone
      rw [num_setNum_out _ _ (.inl (by omega)), hone]

end

/-! ### Table commands as they end -/

theorem TablesKept.of_regs {m x t : Mod} (h : m.TablesKept x) (hr : t.regs = x.regs) (hw : t.fwd = x.fwd) (hv : t.vlan = x.vlan) : m.TablesKept t :=
  ⟨(flag_of_regs hr _ _).trans h.1, hw.trans h.2.1, hv.trans h.2.2⟩

theorem tablesKept_vlanStage {m x : Mod} (h : m.TablesKept x) (l : Tbl (Option (BitVec 128))) : m.TablesKept { x with vlanStage := l } := h.of_regs rfl rfl rfl
theorem tablesKept_fwdStage {m x : Mod} (h : m.TablesKept x) (l : Tbl (Option (BitVec 128))) : m.TablesKept { x with fwdStage := l } := h.of_regs rfl rfl rfl

section
variable {m : Mod} (hb : m.flag F.FSW_STATUS_BUSY = false) {w : Writer} {i : Nat}
include hb

theorem tblCmd_refused {op : Nat} (hop : op = 1 ∨ op = 2) (sp : Bool) (hst : m.mayStage w.master.toNat = false) :
    m.TablesKept (m.tblCmd w op sp i) ∧ (m.tblCmd w op sp i).flag F.CFG_STATUS_ST_REFUSED = true ∧ (m.tblCmd w op sp i).vlanStage = m.vlanStage ∧
      (m.tblCmd w op sp i).fwdStage = m.fwdStage := by
  have hst' : m.busy.mayStage w.master.toNat = false := (m.mayStage_busy _).trans hst
  have hput : m.tblCmd w op sp i = m.busy.put F.CFG_STATUS_ST_REFUSED 0 true := by
    obtain rfl | rfl := hop
    · rw [tblCmd_write hb, stageOffer_refused hst']
    · rw [tblCmd_invalidate hb, hst']
      rfl
  rw [hput]
  exact ⟨.of_busy (flag_put_of_apart _ _ _ _ (.inl (by decide))) (put_fwd _ _ _ _) (put_vlan _ _ _ _), flag_put_self _ _ _ _ (by decide) rfl,
    (put_vlanStage _ _ _ _).trans (m.put_vlanStage _ _ _), (put_fwdStage _ _ _ _).trans (m.put_fwdStage _ _ _)⟩

theorem tblCmd_readVlan_shows : m.TablesKept (m.tblCmd w 0 true i) ∧
    ∀ j, j < 4 → (m.tblCmd w 0 true i).rd F.FSW_TBL_DATA_DATA j = bitsOf (m.vlanWord i) (32 * j) 32 := by
  have hword : m.busy.vlanWord i = m.vlanWord i := by rw [vlanWord, m.tablesKept_busy.2.2, vlanWord]
  rw [tblCmd_readVlan hb, hword]
  exact ⟨m.tablesKept_showData _, fun j hj => (m.busy.showData_shows _ j hj).1⟩

theorem tblCmd_readFwd_shows (h : (m.fwdEnt i).valid = false ∨ (m.fwdEnt i).static = true) : m.TablesKept (m.tblCmd w 0 false i) ∧
    ∀ j, j < 4 → (m.tblCmd w 0 false i).rd F.FSW_TBL_DATA_DATA j = bitsOf (m.fwdEnt i).bits.toNat (32 * j) 32 := by
  rw [tblCmd_readFwd hb w i h]
  exact ⟨m.tablesKept_showData _, fun j hj => (m.busy.showData_shows _ j hj).1⟩

omit hb in
theorem toNat_tblData (m : Mod) : (BitVec.ofNat 128 m.tblData).toNat = m.tblData := by rw [BitVec.toNat_ofNat, Nat.mod_eq_of_lt m.tblData_lt]

theorem tblCmd_stages (sp : Bool) (hst : m.mayStage w.master.toNat = true) (hd : sp = true ∨ bitsOf m.tblData 74 3 < 5) :
    m.tblCmd w 1 sp i = m.busy.stageEntry sp i (BitVec.ofNat 128 m.tblData) := by
  have hnat := m.toNat_tblData
  rw [tblCmd_write hb]
  exact stageOffer_staged ((m.mayStage_busy _).trans hst) (by rw [hnat]; exact hd) i

theorem tblCmd_stagesVlan (hst : m.mayStage w.master.toNat = true) : m.TablesKept (m.tblCmd w 1 true i) ∧
    Tbl.get none (m.tblCmd w 1 true i).vlanStage i = some (BitVec.ofNat 128 (vlanBits i m.tblData)) ∧ (m.tblCmd w 1 true i).fwdStage = m.fwdStage := by
  have hnat := m.toNat_tblData
  rw [tblCmd_stages hb true hst (.inl rfl)]
  have hkept := m.tablesKept_busy
  have hstage : m.busy.fwdStage = m.fwdStage := m.put_fwdStage _ _ _
  unfold stageEntry
  rw [if_pos rfl, hnat]
  generalize m.busy = x at *
  generalize BitVec.ofNat 128 (vlanBits i m.tblData) = b
  exact ⟨tablesKept_vlanStage hkept _, Tbl.get_set_self none x.vlanStage i (some b), hstage⟩

theorem tblCmd_stagesFwd (hst : m.mayStage w.master.toNat = true) (hd : bitsOf m.tblData 74 3 < 5) : m.TablesKept (m.tblCmd w 1 false i) ∧
    (m.tblCmd w 1 false i).vlanStage = m.vlanStage ∧ Tbl.get none (m.tblCmd w 1 false i).fwdStage i = some (BitVec.ofNat 128 (fwdBits m.tblData)) := by
  have hnat := m.toNat_tblData
  rw [tblCmd_stages hb false hst (.inr hd)]
  have hkept := m.tablesKept_busy
  have hstage : m.busy.vlanStage = m.vlanStage := m.put_vlanStage _ _ _
  unfold stageEntry
  rw [if_neg Bool.false_ne_true, hnat]
  generalize m.busy = x at *
  generalize BitVec.ofNat 128 (fwdBits m.tblData) = b
  exact ⟨tablesKept_fwdStage hkept _, hstage, Tbl.get_set_self none x.fwdStage i (some b)⟩

omit hb in
theorem tablesKept_faulted {x t : Mod} (hkept : m.TablesKept x) (hfault : x.Faulted t) : m.TablesKept t ∧ t.vlanStage = x.vlanStage ∧
    t.fwdStage = x.fwdStage := by
  obtain ⟨hf, hw, hv⟩ := hkept
  have hfwd : t.fwd = x.fwd := (congrArg Mod.fwd hfault.rest :)
  have hvlan : t.vlan = x.vlan := (congrArg Mod.vlan hfault.rest :)
  have hvs : t.vlanStage = x.vlanStage := (congrArg Mod.vlanStage hfault.rest :)
  have hfs : t.fwdStage = x.fwdStage := (congrArg Mod.fwdStage hfault.rest :)
  exact ⟨⟨(hfault.flag F.FSW_STATUS_BUSY 0 (by decide)).trans hf, hfwd.trans hw, hvlan.trans hv⟩, hvs, hfs⟩

theorem tblCmd_reserved (hst : m.mayStage w.master.toNat = true) (hd : 5 ≤ bitsOf m.tblData 74 3) : m.TablesKept (m.tblCmd w 1 false i) ∧
    (m.tblCmd w 1 false i).vlanStage = m.vlanStage ∧ (m.tblCmd w 1 false i).fwdStage = m.fwdStage := by
  have hnat := m.toNat_tblData
  have hfault := stageOffer_reserved (d := BitVec.ofNat 128 m.tblData) ((m.mayStage_busy _).trans hst) (by rw [hnat]; exact hd) i
  obtain ⟨hkept, hv, hf⟩ := tablesKept_faulted m.tablesKept_busy hfault
  rw [tblCmd_write hb, hv, hf]
  exact ⟨hkept, m.put_vlanStage _ _ _, m.put_fwdStage _ _ _⟩

theorem tblCmd_clears (sp : Bool) (hst : m.mayStage w.master.toNat = true) : m.TablesKept (m.tblCmd w 2 sp i) ∧
    (if sp then Tbl.get none (m.tblCmd w 2 sp i).vlanStage (i / 32 * 32) else Tbl.get none (m.tblCmd w 2 sp i).fwdStage i) = some 0 := by
  have hkept := m.tablesKept_busy
  rw [tblCmd_invalidate hb, (m.mayStage_busy _).trans hst]
  generalize m.busy = x at *
  simp only [Bool.not_true, Bool.false_eq_true, if_false]
  cases sp with
  | false => exact ⟨tablesKept_fwdStage hkept _, Tbl.get_set_self none x.fwdStage i (some 0)⟩
  | true => exact ⟨tablesKept_vlanStage hkept _, Tbl.get_set_self none x.vlanStage (i / 32 * 32) (some 0)⟩

end

/-! ### Frames as they end -/

section
variable {m : Mod} {ig : Fin 1033} {fr : EthFrame} {v vid pcp : Nat} {tagged : Bool} (hv : m.vlanOf vid = some v) (hh : m.vlanHas v ig = true)
  (hl : m.flag F.FSW_CTRL_LEARN = false) {k : Nat} (hk : k < 1024) (hvk : m.vlanHas v k = true) (hup : m.memberUp' k = true)
  (hroom : ((Tbl.get [] m.egress k).map (fun x => x.bytes.length)).sum + fr.bytes.length ≤ 16384) (hne : k ≠ ig)
include hv hh hl hk hvk hup hroom hne

theorem switchFrame_static {i : Nat} {e : FwdEntry} (hf : m.fwdFind (macAt fr.bytes 0) vid = some (i, e)) (hs : e.static = true) (hkind : e.fld 74 3 = 0)
    (hdest : e.fld 64 10 = k) (ts : Option (Nat × Nat)) : (m.switchFrame ig vid pcp tagged fr none ts).1 =
      { m with egress := Tbl.set [] m.egress k (Tbl.get [] m.egress k ++ [⟨pcp, fr.bytes, ts⟩]) } := by
  have hlook : m.looked ig vid fr = m := by rw [looked, learn_off hl, touchFwd_static hf hs]
  rw [switchFrame_passed hv hh (l := [k]) (by rw [hlook]; exact destinations_static hf hkind hdest hvk hne) (by simp), hlook]
  exact toMember_queued hk hup hroom ig vid pcp tagged ts

theorem switchFrame_floods (hf : m.fwdFind (macAt fr.bytes 0) vid = none) (ts : Option (Nat × Nat)) :
    Tbl.get [] (m.switchFrame ig vid pcp tagged fr none ts).1.egress k = Tbl.get [] m.egress k ++ [⟨pcp, fr.bytes, ts⟩] ∧
      (m.switchFrame ig vid pcp tagged fr none ts).1.fwd = m.fwd ∧
      Tbl.get [] (m.switchFrame ig vid pcp tagged fr none ts).1.egress ig = Tbl.get [] m.egress ig := by
  have hlook : m.looked ig vid fr = m := by rw [looked, learn_off hl, touchFwd_none hf]
  have hmem : k ∈ (upTo 1033).filter (fun k => k != ig.val && m.vlanHas v k) :=
    List.mem_filter.mpr ⟨List.mem_range.mpr (by omega), by simp [hne, hvk]⟩
  have hig : ig.val ∉ (upTo 1033).filter (fun k => k != ig.val && m.vlanHas v k) := fun h => by simp at h
  have hnd : ((upTo 1033).filter (fun k => k != ig.val && m.vlanHas v k)).Nodup := List.Nodup.filter _ List.nodup_range
  rw [switchFrame_passed hv hh (by rw [hlook]; exact destinations_unknown hf) (List.ne_nil_of_mem hmem), hlook]
  generalize (upTo 1033).filter (fun k => k != ig.val && m.vlanHas v k) = l at *
  obtain ⟨hq, hother⟩ := toMembers_queued hnd hmem hk hup hroom ig vid pcp tagged ts
  exact ⟨hq, (congrArg Mod.fwd (hother ig hig).frame.rest :), (hother ig hig).egress⟩

end

end Mod

/-- Settles O35. -/
theorem switchTableCommandsReadAndStage : Obligations.SwitchTableCommandsReadAndStage := by
  refine ⟨fun s w sp ix => ?_, fun s ig k fr i v e x en g => ?_⟩
  · intro m n data busy
    refine ⟨fun c hc hb => ?_, fun c hc hb hst => ?_, fun hb => ⟨?_, fun h => ?_, fun hst => ?_, fun hst hd => ?_, fun hst hd => ?_, fun hst => ?_⟩, ?_⟩
    · simp only [List.mem_cons, List.not_mem_nil, or_false] at hc
      obtain rfl | rfl | rfl := hc
      · exact does_next rfl (Mod.tblCmd_lost hb w 0 sp n)
      · exact does_next rfl (Mod.tblCmd_lost hb w 1 sp n)
      · exact does_next rfl (Mod.tblCmd_lost hb w 2 sp n)
    · simp only [List.mem_cons, List.not_mem_nil, or_false] at hc
      obtain rfl | rfl := hc
      · exact does_next rfl (Mod.tblCmd_refused hb (.inl rfl) sp hst)
      · exact does_next rfl (Mod.tblCmd_refused hb (.inr rfl) sp hst)
    · exact does_next rfl (Mod.tblCmd_readVlan_shows hb)
    · exact does_next rfl (Mod.tblCmd_readFwd_shows hb h)
    · exact does_next rfl (Mod.tblCmd_stagesVlan hb hst)
    · refine does_next rfl ?_
      obtain ⟨hkept, hvl, hfw⟩ := Mod.tblCmd_stagesFwd hb hst hd
      obtain ⟨hlt, h61, h77, h62, h0, h64⟩ := Mod.fwdBits_shows data
      have hnat : (BitVec.ofNat 128 (fwdBits data)).toNat = fwdBits data := by rw [BitVec.toNat_ofNat, Nat.mod_eq_of_lt hlt]
      refine ⟨hkept, hvl, _, hfw, ?_⟩
      rw [show m.tblData = data from rfl, hnat]
      exact ⟨h61, h77, h62, h0, h64⟩
    · exact does_next rfl (Mod.tblCmd_reserved hb hst hd)
    · exact does_next rfl (Mod.tblCmd_clears hb sp hst)
    · exact does_next rfl ⟨Mod.flag_put_self _ _ _ _ (by decide) rfl, onlyRegsChange_put _ F.FSW_STATUS_BUSY 0 _⟩
  · intro m tag mac src q room age ent
    refine ⟨fun h _ => ?_, fun hen hig hg hup => ⟨fun h => ?_, fun hv hh hl hk hroom hne => ⟨fun hf hs hkind hdest => ?_, fun hf => ?_⟩,
      fun hv hh hl hm hf h0 => ?_⟩, fun hv hs ha => ?_, fun h => ?_, fun hup hp hts => ?_, fun hen hdown htaken => ?_⟩
    · exact does_next rfl (Mod.switchReceive_kept h)
    · refine does_next rfl ?_
      have htaken := Mod.switchReceive_taken hen hig hg hup (vid := tag.1) (pcp := tag.2.1) (tagged := tag.2.2) rfl
      refine htaken.trans ?_
      rw [Mod.switchFrame_dropped (h.imp id fun h => ⟨v, h⟩)]
    · refine does_next rfl ?_
      have htaken := Mod.switchReceive_taken hen hig hg hup (vid := tag.1) (pcp := tag.2.1) (tagged := tag.2.2) rfl
      have hq := htaken.trans (Mod.switchFrame_static hv hh hl k.isLt hk hroom.1 hroom.2 hne hf hs hkind hdest none)
      dsimp only
      rw [hq]
      exact ⟨Tbl.get_set_self _ _ _ _, rfl, rfl, fun k' hk' => Tbl.get_set_ne _ _ _ _ hk'⟩
    · refine does_next rfl ?_
      have htaken := Mod.switchReceive_taken hen hig hg hup (vid := tag.1) (pcp := tag.2.1) (tagged := tag.2.2) rfl
      dsimp only
      rw [htaken]
      exact Mod.switchFrame_floods hv hh hl k.isLt hk hroom.1 hroom.2 hne hf none
    · refine does_next rfl ?_
      have htaken := Mod.switchReceive_taken hen hig hg hup (vid := tag.1) (pcp := tag.2.1) (tagged := tag.2.2) rfl
      dsimp only
      rw [htaken, Mod.switchFrame_learns hv hh hl hm hf h0]
      exact ⟨rfl, rfl⟩
    · refine does_next rfl ?_
      have hdrop := Mod.ageOut_drops hv hs ha rfl
      dsimp only
      rw [hdrop]
      exact m.dropFwd_later en _
    · exact does_next rfl (Mod.ageOut_idle h)
    · refine does_next rfl ?_
      have hsend := Mod.egressSend_sends k.isLt hup hp hts
      dsimp only
      rw [hsend]
      exact ⟨Tbl.get_set_self _ _ _ _, rfl, rfl, rfl⟩
    · intro cons a len hwait
      exact does_next rfl (Mod.ltxTake_result hen hdown htaken hwait rfl rfl)

end Sys2Proof.Machine

/-!
Sending on a mesh link, and the tree of the time parent (R111, R112, R305, R316, R325).
-/
namespace Sys2Proof.Machine

/-- A link without what sending on it changes. -/
def Link.unsending (k : Link) : Link := { k with waiting := [], used := [], probe := none, turn := (0, 0), blocksTx := 0, replay := [] }

namespace Mod

/-! ### What sending on a link keeps -/

section
variable {P : Mod → Prop} {l : Nat}
  (hlink : ∀ (t : Mod) (k : Link), P t → k.unsending = (t.link l).unsending → k.probe = (t.link l).probe ∨ k.probe = some t.now → P (t.setLink l k))
  (hemit : ∀ (t : Mod) (o : Out), P t → P (t.emit o)) (hsignal : ∀ (t : Mod) (x : Wire), P t → P (t.signal x))

include hlink hemit hsignal in
theorem depart_keeps (m : Mod) (w : Queued) (h : P m) : P (m.depart l w).1 := by
  unfold depart
  dsimp only
  generalize hk : ({ m.link l with waiting := _, used := _, probe := _ } : Link) = k
  have hset : P (m.setLink l k) := by
    refine hlink m k h (by rw [← hk]; rfl) ?_
    rw [← hk]
    dsimp only
    split
    · exact .inr rfl
    · exact .inl rfl
  have hsend := hemit _ ((m.stampedParcel l w.what).out l) hset
  split
  · exact each_keeps (fun t _ ht => hsignal t _ ht) _ hsend
  · exact hsend

include hlink hemit hsignal in
theorem drainLink_keeps (fuel : Nat) (m : Mod) (h : P m) : P (m.drainLink l fuel).1 := by
  induction fuel generalizing m with
  | zero => exact h
  | succ fuel ih =>
    rw [drainLink]
    split
    · exact h
    · exact ih _ (depart_keeps hlink hemit hsignal _ _ (hlink m _ h rfl (.inl rfl)))

include hlink hsignal in
theorem closeBlock_keeps (m : Mod) (ps : List Parcel) (h : P m) : P (m.closeBlock l ps) := hsignal _ _ (hlink m _ h rfl (.inl rfl))

include hlink hsignal in
theorem blocks_keeps (ps : List Parcel) : ∀ (m : Mod) (open_ : List Parcel) (flits : Nat), P m → P (m.blocks l open_ flits ps) := by
  induction ps with
  | nil =>
    intro m open_ flits h
    rw [blocks]
    split
    · exact h
    · exact closeBlock_keeps hlink hsignal m open_ h
  | cons p ps ih =>
    intro m open_ flits h
    rw [blocks]
    split
    · exact ih _ _ _ (closeBlock_keeps hlink hsignal m open_ h)
    · exact ih _ _ _ h

include hlink hemit hsignal in
/-- Sending on a link is made of changes to its sending state, of parcels that leave and of what is signalled. -/
theorem sendParcels_keeps (m : Mod) (origin : Option Nat) (ps : List Parcel) (h : P m) : P (m.sendParcels l origin ps) := by
  unfold sendParcels
  generalize hx : m.setLink l _ = x
  have hset : P x := by
    rw [← hx]
    exact hlink m _ h rfl (.inl rfl)
  unfold pump
  have hdrain := drainLink_keeps hlink hemit hsignal (x.link l).waiting.length x hset
  generalize x.drainLink l (x.link l).waiting.length = r at hdrain ⊢
  exact blocks_keeps hlink hsignal _ _ _ _ hdrain

end

theorem link_emit (m : Mod) (o : Out) (l : Nat) : (m.emit o).link l = m.link l := rfl
theorem link_signal (m : Mod) (x : Wire) (l : Nat) : (m.signal x).link l = m.link l := rfl
theorem link_wr (m : Mod) (f : Fld) (i v l : Nat) : (m.wr f i v).link l = m.link l := rfl
theorem link_put (m : Mod) (f : Fld) (i : Nat) (b : Bool) (l : Nat) : (m.put f i b).link l = m.link l := rfl
theorem link_giveCredits (m : Mod) (l vc n k : Nat) : (m.giveCredits l vc n).link k = m.link k := by
  obtain ⟨w, hw⟩ := m.giveCredits_frame l vc n
  rw [hw]
  rfl

/-- Sending on a link leaves every other link as it is. -/
theorem link_sendParcels_ne (m : Mod) {l l' : Nat} (h : l' ≠ l) (origin : Option Nat) (ps : List Parcel) :
    (m.sendParcels l origin ps).link l' = m.link l' :=
  sendParcels_keeps (P := fun t => t.link l' = m.link l') (fun t k ht _ _ => (link_setLink_ne t k h).trans ht) (fun _ _ ht => ht) (fun _ _ ht => ht) m
    origin ps rfl

/-- From `m` to `t` links change in their sending state alone. -/
def LinksSend (m t : Mod) : Prop := ∀ l, (t.link l).unsending = (m.link l).unsending

theorem LinksSend.refl (m : Mod) : m.LinksSend m := fun _ => rfl
theorem LinksSend.trans {m n t : Mod} (h : m.LinksSend n) (h' : n.LinksSend t) : m.LinksSend t := fun l => (h' l).trans (h l)
theorem LinksSend.of_links {m t : Mod} (h : t.links = m.links) : m.LinksSend t := fun l => by rw [link, h, link]

theorem linksSend_sendParcels (m : Mod) (l : Nat) (origin : Option Nat) (ps : List Parcel) : m.LinksSend (m.sendParcels l origin ps) := by
  refine sendParcels_keeps (P := fun t => m.LinksSend t) (fun t k ht hk _ l' => ?_) (fun _ _ ht => ht) (fun _ _ ht => ht) m origin ps (.refl m)
  by_cases hl : l' = l
  · subst hl
    rw [link_setLink_self]
    exact hk.trans (ht _)
  · rw [link_setLink_ne t k hl]
    exact ht l'

section
variable {m t : Mod} (h : m.LinksSend t) (l : Nat)
include h

theorem LinksSend.usable_eq : (t.link l).usable = (m.link l).usable := (congrArg Link.usable (h l) :)
theorem LinksSend.gmHops_eq : (t.link l).gmHops = (m.link l).gmHops := (congrArg Link.gmHops (h l) :)
theorem LinksSend.delay_eq : (t.link l).delay = (m.link l).delay := (congrArg Link.delay (h l) :)

end

/-! ### One flit on a free link -/

theorem mayLeave_only {m : Mod} {l : Nat} {q : Queued} (hw : (m.link l).waiting = [q]) (hq : (m.link l).used.getD q.vc 0 + (q.what.flits m l).length ≤ m.credits l q.vc) :
    m.mayLeave l q.vc = some q := by
  unfold mayLeave
  rw [hw, List.find?_cons_of_pos (by simp)]
  exact if_pos hq

/-- A parcel of VC 2 goes first. -/
theorem arbitrate_vc2 {m : Mod} {l : Nat} {q : Queued} (h : m.mayLeave l 2 = some q) : m.arbitrate l = some (q, (m.link l).turn.1, (m.link l).turn.2) := by
  unfold arbitrate
  rw [h]

theorem stampedParcel_setLink (m : Mod) (l j : Nat) (k : Link) (p : Parcel) : (m.setLink l k).stampedParcel j p = m.stampedParcel j p := by
  cases p <;> rfl

/-- A parcel of its own that departs: it is sent as it is stamped, and a probe notes the instant. -/
theorem depart_own (m : Mod) (l : Nat) (p : Parcel) : ∃ x : Mod, m.depart l ⟨2, p, none⟩ = (x, m.stampedParcel l p) ∧
    x.sent = (m.stampedParcel l p).out l :: m.sent ∧
    (x.link l).probe = if (m.stampedParcel l p).kind.1 = 0x20 then some m.now else (m.link l).probe := by
  refine ⟨_, rfl, rfl, ?_⟩
  rw [link_emit, link_setLink_self]

theorem closeBlock_sends (m : Mod) (l : Nat) (ps : List Parcel) :
    (m.closeBlock l ps).sent = m.sent ∧ ((m.closeBlock l ps).link l).probe = (m.link l).probe := by
  unfold closeBlock
  dsimp only
  refine ⟨rfl, ?_⟩
  rw [link_signal, link_setLink_self]

/-- The last of one parcel drained closes its block. -/
theorem blocks_single (m : Mod) (l : Nat) (p : Parcel) (h : (p.flits m l).length ≤ 16) : m.blocks l [] 0 [p] = m.closeBlock l [p] := by
  rw [blocks, if_neg (by omega), blocks]
  rfl

theorem credits_setLink (m : Mod) (l j vc : Nat) (k : Link) : (m.setLink l k).credits j vc = m.credits j vc := rfl

/-- A parcel of one flit, as it waits and as it is stamped. -/
def OneFlit (m : Mod) (l : Nat) (p : Parcel) : Prop :=
  p.kind.2 = 2 ∧ (∀ x : Mod, (p.flits x l).length = 1) ∧ ∀ x : Mod, ((m.stampedParcel l p).flits x l).length = 1

/-- The one parcel that waits, of VC 2 with a credit at hand, leaves. -/
theorem pump_only {m : Mod} {l : Nat} {p : Parcel} (hp : m.OneFlit l p) (hw : (m.link l).waiting = [⟨2, p, none⟩])
    (hc : (m.link l).used.getD 2 0 < m.credits l 2) :
    (m.pump l).sent = (m.stampedParcel l p).out l :: m.sent ∧
      ((m.pump l).link l).probe = if (m.stampedParcel l p).kind.1 = 0x20 then some m.now else (m.link l).probe := by
  obtain ⟨_, hone, hstamped⟩ := hp
  have hturn := arbitrate_vc2 (mayLeave_only (q := ⟨2, p, none⟩) hw (by dsimp only; rw [hone]; exact hc))
  have hdrain : m.drainLink l (m.link l).waiting.length =
      (let r := (m.setLink l { m.link l with turn := ((m.link l).turn.1, (m.link l).turn.2) }).depart l ⟨2, p, none⟩
       (r.1, [r.2])) := by
    rw [show (m.link l).waiting.length = 0 + 1 by rw [hw]; rfl, drainLink, hturn]
    rfl
  obtain ⟨z, hz, hsent, hprobe⟩ := (m.setLink l { m.link l with turn := ((m.link l).turn.1, (m.link l).turn.2) }).depart_own l p
  rw [stampedParcel_setLink] at hz hsent hprobe
  rw [link_setLink_self] at hprobe
  unfold pump
  rw [hdrain, hz]
  dsimp only
  rw [blocks_single z l (m.stampedParcel l p) (by rw [hstamped]; decide), (z.closeBlock_sends l _).1, (z.closeBlock_sends l _).2, hsent, hprobe]
  exact ⟨rfl, rfl⟩

/-- The one parcel that waits, of VC 2 with no credit at hand, stays. -/
theorem pump_blocked {m : Mod} {l : Nat} {p : Parcel} (hone : (p.flits m l).length = 1) (hw : (m.link l).waiting = [⟨2, p, none⟩])
    (hc : m.credits l 2 ≤ (m.link l).used.getD 2 0) : m.pump l = m := by
  have hnone : ∀ vc, m.mayLeave l vc = none := fun vc => by
    unfold mayLeave
    rw [hw]
    by_cases hvc : vc = 2
    · subst hvc
      rw [List.find?_cons_of_pos (by simp)]
      exact if_neg (by dsimp only; rw [hone]; omega)
    · rw [List.find?_cons_of_neg (by simpa using fun h => hvc h.symm)]
      rfl
  have hturn : m.arbitrate l = none := by
    unfold arbitrate
    simp only [hnone]
  unfold pump
  rw [show (m.link l).waiting.length = 0 + 1 by rw [hw]; rfl, drainLink, hturn]
  rfl

section
variable {m : Mod} {l : Nat} {p : Parcel} (hp : m.OneFlit l p)
include hp

/-- A parcel of one flit of VC 2 sent on a link with nothing waiting and a credit at hand leaves at once, as it is stamped. -/
theorem sendParcels_free (hfree : FreeLink m l) :
    (m.sendParcels l none [p]).sent = (m.stampedParcel l p).out l :: m.sent ∧
      ((m.sendParcels l none [p]).link l).probe = if (m.stampedParcel l p).kind.1 = 0x20 then some m.now else (m.link l).probe := by
  obtain ⟨hwait, hcred⟩ := hfree
  unfold sendParcels
  rw [hwait, List.map_cons, List.map_nil, List.nil_append, hp.1]
  generalize hk : ({ m.link l with waiting := [⟨2, p, none⟩] } : Link) = k
  have hkw : k.waiting = [⟨2, p, none⟩] := by rw [← hk]
  have hku : k.used = (m.link l).used := by rw [← hk]
  have hkp : k.probe = (m.link l).probe := by rw [← hk]
  have hpk : (m.setLink l k).OneFlit l p := ⟨hp.1, hp.2.1, fun x => by rw [stampedParcel_setLink]; exact hp.2.2 x⟩
  obtain ⟨hsent, hprobe⟩ := pump_only hpk (by rw [link_setLink_self, hkw]) (by rw [link_setLink_self, hku, credits_setLink]; exact hcred)
  rw [hsent, hprobe, stampedParcel_setLink, link_setLink_self, hkp]
  exact ⟨rfl, rfl⟩

/-- With no credit at hand it waits. -/
theorem sendParcels_blocked (hw : (m.link l).waiting = []) (hc : m.credits l 2 ≤ (m.link l).used.getD 2 0) :
    (m.sendParcels l none [p]).sent = m.sent ∧ ((m.sendParcels l none [p]).link l).waiting = [⟨2, p, none⟩] := by
  unfold sendParcels
  rw [hw, List.map_cons, List.map_nil, List.nil_append, hp.1]
  generalize hk : ({ m.link l with waiting := [⟨2, p, none⟩] } : Link) = k
  have hkw : k.waiting = [⟨2, p, none⟩] := by rw [← hk]
  have hku : k.used = (m.link l).used := by rw [← hk]
  rw [pump_blocked (p := p) (hp.2.1 _) (by rw [link_setLink_self, hkw]) (by rw [link_setLink_self, hku, credits_setLink]; exact hc), link_setLink_self]
  exact ⟨rfl, hkw⟩

end

/-- A flit of VC 2 sent on a link with nothing waiting and a credit at hand leaves at once, as it is stamped. -/
theorem sendFlit_free {m : Mod} {l : Nat} {f : Flit} (hf : f.vc = 2) (hfree : FreeLink m l) :
    (m.sendFlit l f).sent = .flit l (m.stamped l f) :: m.sent ∧
      ((m.sendFlit l f).link l).probe = if (m.stamped l f).ftype.toNat = 0x20 then some m.now else (m.link l).probe :=
  sendParcels_free ⟨by rw [Parcel.kind, hf]; rfl, fun _ => rfl, fun _ => rfl⟩ hfree

/-! ### What the tree of R111 and the operations that travel it keep (R315 to R317) -/

/-- A module without reports, the state of the federation's operations, the links and what has left. -/
def unfed (m : Mod) : Mod := { m.untold with fed := {}, links := [], sent := [], wire := [] }

/-- The registers that barriers and the operations in flight may change. -/
def fedRegs : List Reg := [.MESH_GOP_STATUS, .MESH_BAR_DONE, .EVR_UNROUTED]

/-- From `m` to `t` barriers and operations have moved on: reports, messages and their own registers apart, all stays; of links what makes the tree
stays. -/
structure TreeKept (m t : Mod) : Prop where
  frame : Frame unfed fedRegs m t
  usable : ∀ l, (t.link l).usable = (m.link l).usable
  gmHops : ∀ l, (t.link l).gmHops = (m.link l).gmHops
  delay : ∀ l, (t.link l).delay = (m.link l).delay

namespace TreeKept

variable {m n t : Mod}

theorem refl (m : Mod) : m.TreeKept m := ⟨.refl _ _ m, fun _ => rfl, fun _ => rfl, fun _ => rfl⟩

theorem trans (h : m.TreeKept n) (h' : n.TreeKept t) : m.TreeKept t :=
  ⟨h.frame.trans h'.frame, fun l => (h'.usable l).trans (h.usable l), fun l => (h'.gmHops l).trans (h.gmHops l),
    fun l => (h'.delay l).trans (h.delay l)⟩

theorem iff {f : Mod → Mod} (b : Bool) (h : m.TreeKept (f m)) : m.TreeKept (m.iff b f) := iff_keeps b h (.refl m)

theorem each {α : Type} {f : Mod → α → Mod} (hf : ∀ (m : Mod) x, m.TreeKept (f m x)) (l : List α) (m : Mod) : m.TreeKept (m.each l f) :=
  each_keeps (P := fun t => m.TreeKept t) (fun t x h => h.trans (hf t x)) l (.refl m)

/-- What leaves the links as they are keeps the tree. -/
theorem of_links (h : Frame unfed fedRegs m t) (hl : t.links = m.links) : m.TreeKept t :=
  ⟨h, fun l => by rw [link, hl, link], fun l => by rw [link, hl, link], fun l => by rw [link, hl, link]⟩

end TreeKept

theorem treeKept_fed (m : Mod) (x : Fed) : m.TreeKept { m with fed := x } := .of_links (.of_regs rfl rfl) rfl

theorem treeKept_wr (m : Mod) (f : Fld) (i v : Nat) (h : f.reg ∈ fedRegs) : m.TreeKept (m.wr f i v) :=
  .of_links ((m.told_wr f i v (l := [(f.reg, i)]) (by simp)).frame (fun _ => rfl) (by simpa using h)) (m.wr_links f i v)

theorem treeKept_put (m : Mod) (f : Fld) (i : Nat) (b : Bool) (h : f.reg ∈ fedRegs) : m.TreeKept (m.put f i b) := m.treeKept_wr f i _ h

theorem treeKept_raise (m : Mod) (n : Nat) : m.TreeKept (m.raise n) :=
  .of_links ((m.told_raise n).frame (fun _ => rfl) (by decide)) (m.told_raise n).links_eq

theorem treeKept_sendParcels (m : Mod) (l : Nat) (origin : Option Nat) (ps : List Parcel) : m.TreeKept (m.sendParcels l origin ps) := by
  have hu := m.unsent_sendParcels l origin ps
  have hl := m.linksSend_sendParcels l origin ps
  generalize m.sendParcels l origin ps = t at hu hl
  refine ⟨.of_regs ?_ (regs_of_unsent hu), hl.usable_eq, hl.gmHops_eq, hl.delay_eq⟩
  have hc : ∀ x : Mod, x.unsent.unfed = x.unfed := fun _ => rfl
  rw [← hc t, hu, hc]

theorem treeKept_gopUp (m : Mod) (g : GopMsg) : m.TreeKept (m.gopUp g) := by
  unfold gopUp
  split
  · exact m.treeKept_sendParcels _ _ _
  · exact .refl m

theorem treeKept_gopDown (m : Mod) (g : GopMsg) : m.TreeKept (m.gopDown g) := .each (fun x l => x.treeKept_sendParcels l _ _) _ m

theorem treeKept_memberUp (m : Mod) (x : MemberMsg) : m.TreeKept (m.memberUp x) := by
  unfold memberUp
  split
  · exact m.treeKept_sendParcels _ _ _
  · exact .refl m

theorem treeKept_memberDown (m : Mod) (x : MemberMsg) : m.TreeKept (m.memberDown x) := .each (fun y l => y.treeKept_sendParcels l _ _) _ m

theorem treeKept_barReport (m : Mod) (b : Nat) : m.TreeKept (m.barReport b) := by
  unfold barReport
  dsimp only
  split
  · exact (m.treeKept_fed _).trans (treeKept_gopUp _ _)
  · exact .refl m

theorem treeKept_gopEnd (m : Mod) (op : Nat) (done : Bool) : m.TreeKept (m.gopEnd op done) := by
  unfold gopEnd
  split
  · exact ((m.treeKept_fed _).trans (treeKept_put _ _ _ _ (by decide))).trans (.iff _ (treeKept_put _ _ _ _ (by decide)))
  · exact .refl m

theorem treeKept_barRelease (m : Mod) (b : Nat) : m.TreeKept (m.barRelease b) := by
  unfold barRelease
  dsimp only
  refine .trans (.trans (.trans ((m.treeKept_fed _).trans (treeKept_gopDown _ _)) (.iff _ ?_)) (.iff _ (treeKept_gopEnd _ _ _))) (treeKept_barReport _ _)
  exact (treeKept_wr _ _ _ _ (by decide)).trans (treeKept_raise _ _)

theorem treeKept_barCheck (m : Mod) (b : Nat) : m.TreeKept (m.barCheck b) := by
  unfold barCheck
  dsimp only
  split
  · split
    · exact m.treeKept_barRelease b
    · exact .refl m
  · exact m.treeKept_barReport b

theorem treeKept_barAgain (m : Mod) : m.TreeKept m.barAgain := by
  unfold barAgain
  dsimp only
  split
  · exact (m.treeKept_fed _).trans (.each (fun x b => x.treeKept_barCheck b) _ _)
  · exact m.treeKept_fed _

theorem treeKept_gopAbandon (m : Mod) : m.TreeKept m.gopAbandon := by
  unfold gopAbandon
  dsimp only
  refine .trans (.trans ((m.treeKept_fed _).trans (treeKept_put _ _ _ _ (by decide))) (.iff _ ?_)) (treeKept_barAgain _)
  exact (treeKept_put _ _ _ _ (by decide)).trans (treeKept_raise _ _)

theorem treeKept_subtreeClaim (m : Mod) : m.TreeKept m.subtreeClaim := .each (fun x _ => x.treeKept_memberUp _) _ m

theorem treeKept_memberClaim {m : Mod} (h : m.isRoot = false) : m.TreeKept m.memberClaim := by
  unfold memberClaim
  rw [h]
  split
  · exact .refl m
  · exact m.treeKept_memberUp _

theorem treeKept_refuseDuplicates (m : Mod) : m.TreeKept m.refuseDuplicates :=
  (m.treeKept_fed _).trans (.each (fun x _ => x.treeKept_sendParcels _ _ _) _ _)

end Mod

end Sys2Proof.Machine

/-!
Mesh time: probes, syncs and the grandmaster's election (R111, R112, R325).
-/
namespace Sys2Proof.Machine

namespace Mod

/-! ### Probes (R112) -/

/-- A probe sent on a free link notes the instant; other links and registers stay. -/
theorem probeSend_free {m : Mod} {l : Nat} (hu : (m.link l).usable = true) (hf : FreeLink m l) :
    let t := m.probeSend l
    (t.link l).probe = some m.now ∧ (∀ l', l' ≠ l → t.link l' = m.link l') ∧ t.regs = m.regs := by
  have hone := (sendFlit_free (f := m.timeFlit l 0x20 0) rfl hf).2
  have hftype : (m.stamped l (m.timeFlit l 0x20 0)).ftype.toNat = 0x20 := rfl
  rw [if_pos hftype] at hone
  have hout : ∀ l', l' ≠ l → (m.sendFlit l (m.timeFlit l 0x20 0)).link l' = m.link l' := fun l' h => m.link_sendParcels_ne h none _
  have hfirst := m.unsent_sendFlit l (m.timeFlit l 0x20 0)
  unfold probeSend
  rw [hu]
  dsimp only [Bool.not_true]
  rw [if_neg (by decide)]
  generalize m.sendFlit l (m.timeFlit l 0x20 0) = x at hone hout hfirst ⊢
  have hnow : x.now = m.now := (congrArg Mod.now hfirst :)
  refine iff_keeps (P := fun t => (t.link l).probe = some m.now ∧ (∀ l', l' ≠ l → t.link l' = m.link l') ∧ t.regs = m.regs) _ ?_
    ⟨hone, hout, regs_of_unsent hfirst⟩
  refine ⟨?_, fun l' h => (x.link_sendParcels_ne h none _).trans (hout l' h), (regs_of_unsent (x.unsent_sendFlit l _)).trans (regs_of_unsent hfirst)⟩
  have hkept : ((x.sendFlit l (x.timeFlit l 0x22 (syncPay x.node 0 x.now (-65536 * x.mono)))).link l).probe = some m.now ∧
      (x.sendFlit l (x.timeFlit l 0x22 (syncPay x.node 0 x.now (-65536 * x.mono)))).now = m.now := by
    refine sendParcels_keeps (P := fun t => (t.link l).probe = some m.now ∧ t.now = m.now) (fun t k ht _ hp => ⟨?_, (setLink_now t l k).trans ht.2⟩)
      (fun _ _ ht => ht) (fun _ _ ht => ht) x none _ ⟨hone, hnow⟩
    rw [link_setLink_self]
    rcases hp with hp | hp
    · exact hp.trans ht.1
    · exact hp.trans (congrArg some ht.2)
  exact hkept.1

theorem toNat_ofNat_withBits {n : Nat} (p : BitVec n) {lo : Nat} (v : Nat) (h : lo + 64 ≤ n) :
    (BitVec.ofNat n (withBits p.toNat lo 64 v)).toNat = withBits p.toNat lo 64 v := by
  rw [BitVec.toNat_ofNat, Nat.mod_eq_of_lt (withBits_lt _ _ _ _ _ p.isLt h)]

theorem bitsOf_payField {p : BitVec 512} {lo : Nat} (v : Nat) (h : lo + 64 ≤ 512) : bitsOf (payField p lo v).toNat lo 64 = v % 2 ^ 64 := by
  rw [payField, toNat_ofNat_withBits p v h, bitsOf_withBits_self]

theorem bitsOf_payField_below {p : BitVec 512} {lo lo' w' : Nat} (v : Nat) (h : lo + 64 ≤ 512) (h' : lo' + w' ≤ lo) :
    bitsOf (payField p lo v).toNat lo' w' = bitsOf p.toNat lo' w' := by
  rw [payField, toNat_ofNat_withBits p v h, bitsOf_withBits_below _ _ _ _ _ _ h']

/-- Two 64-bit fields side by side. -/
theorem bitsOf_two {a b n : Nat} (ha : a < 2 ^ 64) (hb : b < 2 ^ 64) (hn : 128 ≤ n) :
    bitsOf (BitVec.ofNat n (a + b * 2 ^ 64)).toNat 0 64 = a ∧ bitsOf (BitVec.ofNat n (a + b * 2 ^ 64)).toNat 64 64 = b := by
  have hlt : a + b * 2 ^ 64 < 2 ^ n := by
    have : (2 : Nat) ^ 128 ≤ 2 ^ n := Nat.pow_le_pow_right (by decide) hn
    omega
  rw [BitVec.toNat_ofNat, Nat.mod_eq_of_lt hlt, bitsOf_eq_div, bitsOf_eq_div]
  omega

/-- An echo leaves on a free link with the probe's instant, its arrival and its departure. -/
theorem echo_free {m : Mod} {l : Nat} (f : Flit) (hf : FreeLink m l) :
    let t := (m.giveCredits l 2 1).sendFlit l ((m.giveCredits l 2 1).timeFlit l 0x21 (bitsOf f.payload.toNat 0 64 + (m.giveCredits l 2 1).now % 2 ^ 64 * 2 ^ 64))
    ∃ e, t.sent = .flit l e :: m.sent ∧ e.ftype = 0x21 ∧ e.vc = 2 ∧ bitsOf e.payload.toNat 0 64 = bitsOf f.payload.toNat 0 64 ∧
      bitsOf e.payload.toNat 64 64 = m.now % 2 ^ 64 ∧ bitsOf e.payload.toNat 128 64 = m.now % 2 ^ 64 ∧ t.regs = m.regs := by
  have hcred := m.unsent_giveCredits l 2 1
  have hlink := m.link_giveCredits l 2 1 l
  have hsent : (m.giveCredits l 2 1).sent = m.sent := by
    obtain ⟨w, hw⟩ := m.giveCredits_frame l 2 1
    rw [hw]
  generalize m.giveCredits l 2 1 = x at hcred hlink hsent ⊢
  have hnow : x.now = m.now := (congrArg Mod.now hcred :)
  have hregs := regs_of_unsent hcred
  have hfree : FreeLink x l := by
    have hc : x.credits l 2 = m.credits l 2 := rd_of_regs hregs F.MESH_LINK_CRED2_VC2 l
    rw [FreeLink, hlink, hc]
    exact hf
  have ha := bitsOf_lt f.payload.toNat 0 64
  have hb := Nat.mod_lt m.now (Nat.two_pow_pos 64)
  rw [hnow]
  generalize bitsOf f.payload.toNat 0 64 = a at ha ⊢
  generalize hn : m.now % 2 ^ 64 = b at hb ⊢
  obtain ⟨h0, h64⟩ := bitsOf_two ha hb (n := 512) (by decide)
  refine ⟨x.stamped l (x.timeFlit l 0x21 (a + b * 2 ^ 64)), ?_, rfl, rfl, ?_, ?_, ?_, (regs_of_unsent (x.unsent_sendFlit l _)).trans hregs⟩
  · rw [(sendFlit_free rfl hfree).1, hsent]
  · exact (bitsOf_payField_below _ (by decide) (by decide)).trans h0
  · exact (bitsOf_payField_below _ (by decide) (by decide)).trans h64
  · exact (bitsOf_payField _ (by decide)).trans (by rw [hnow, hn])

/-- An echo of the probe under way ends it and gives the link's delay. -/
theorem echoIn_ends {m : Mod} {l : Nat} {f : Flit} (hu : (m.link l).usable = true) (hp : (m.link l).probe = some (bitsOf f.payload.toNat 0 64)) :
    let t := m.echoIn l f
    let py := f.payload.toNat
    (t.link l).probe = none ∧ (t.link l).delay = (((m.now : Int) - (bitsOf py 0 64 : Int)) - ((bitsOf py 128 64 : Int) - (bitsOf py 64 64 : Int))) * 32768 +
      signedOf 16 (m.rd F.TB_ASYM_ASYM (l / 2)) * 65536 ∧ t.regs = m.regs := by
  unfold echoIn
  rw [hu, iff_true]
  have hcred := m.unsent_giveCredits l 2 1
  have hlink := m.link_giveCredits l 2 1 l
  generalize m.giveCredits l 2 1 = x at hcred hlink ⊢
  have hnow : x.now = m.now := (congrArg Mod.now hcred :)
  have hregs := regs_of_unsent hcred
  dsimp only
  rw [hlink, hu, hp, if_pos (by simp), link_setLink_self, hnow, rd_of_regs hregs]
  exact ⟨rfl, rfl, hregs⟩

theorem echoIn_unusable {m : Mod} {l : Nat} (f : Flit) (hu : (m.link l).usable = false) : m.echoIn l f = m := by
  unfold echoIn
  rw [hu, iff_false]
  dsimp only
  rw [hu]
  rfl

/-! ### Fields that stay -/

/-- From `m` to `t` each field named, of instance 0, reads as before. -/
def FieldsKept (fs : List Fld) (m t : Mod) : Prop := ∀ f ∈ fs, t.rd f 0 = m.rd f 0

namespace FieldsKept

variable {fs : List Fld} {m n t : Mod}

theorem refl (fs : List Fld) (m : Mod) : FieldsKept fs m m := fun _ _ => rfl
theorem trans (h : FieldsKept fs m n) (h' : FieldsKept fs n t) : FieldsKept fs m t := fun f hf => (h' f hf).trans (h f hf)
theorem iff {f : Mod → Mod} (b : Bool) (h : FieldsKept fs m (f m)) : FieldsKept fs m (m.iff b f) := iff_keeps b h (.refl fs m)
theorem each {α : Type} {f : Mod → α → Mod} (hf : ∀ (m : Mod) x, FieldsKept fs m (f m x)) (l : List α) (m : Mod) : FieldsKept fs m (m.each l f) :=
  each_keeps (P := fun t => FieldsKept fs m t) (fun t x h => h.trans (hf t x)) l (.refl fs m)
theorem of_regs (h : t.regs = m.regs) : FieldsKept fs m t := fun f _ => rd_of_regs h f 0
theorem of_frame {clear : Mod → Mod} {R : List Reg} (h : Frame clear R m t) (hR : ∀ f ∈ fs, f.reg ∉ R) : FieldsKept fs m t := fun f hf => h.rd f 0 (hR f hf)
theorem flag (h : FieldsKept fs m t) {f : Fld} (hf : f ∈ fs) : t.flag f 0 = m.flag f 0 := by rw [Mod.flag, h f hf, Mod.flag]

end FieldsKept

section
variable {fs : List Fld} (m : Mod)

theorem fieldsKept_wr {f : Fld} (i v : Nat) (h : ∀ g ∈ fs, f.Apart g) : FieldsKept fs m (m.wr f i v) := fun g hg => rd_wr_of_apart m i v 0 (h g hg)
theorem fieldsKept_put {f : Fld} (i : Nat) (b : Bool) (h : ∀ g ∈ fs, f.Apart g) : FieldsKept fs m (m.put f i b) := fieldsKept_wr m i _ h
theorem fieldsKept_setLocked (v : Bool) (h : ∀ g ∈ fs, g.reg ∉ lockRegs ∧ F.TB_STATUS_LOCKED.Apart g) : FieldsKept fs m (m.setLocked v) :=
  fun g hg => rd_setLocked_of_apart v 0 (h g hg).1 (h g hg).2

theorem fieldsKept_stepTime (t : Nat) (h : ∀ g ∈ fs, g.reg ∉ lockRegs ∧ F.TB_STATUS_LOCKED.Apart g ∧ F.TB_STATUS_STEPPED.Apart g ∧ F.TB_STEP_LAST_DELTA.Apart g) :
    FieldsKept fs m (m.stepTime t) := by
  unfold stepTime
  dsimp only
  generalize hx : ({ m with now := t, corr := 0, acc := 0, goodIv := 0, badIv := 0, skips := _, captured := _ } : Mod) = x
  have hregs : x.regs = m.regs := by rw [← hx]
  refine .trans (.of_regs hregs) (.trans ?_ (.iff _ (fieldsKept_setLocked _ _ fun g hg => ⟨(h g hg).1, (h g hg).2.1⟩)))
  exact (x.fieldsKept_wr _ _ fun g hg => (h g hg).2.2.2).trans (fieldsKept_put _ _ _ fun g hg => (h g hg).2.2.1)

end

/-! ### The time parent (R111) -/

/-- The best parent is found link by link. -/
theorem bestParent_eq (m : Mod) : ∃ g : Option (Nat × Nat) → Nat → Option (Nat × Nat), m.bestParent = (upTo 16).foldl g none ∧
    (∀ b j h, (m.link j).gmHops = some h → g b j = if m.linkCarries j 2 && b.all (fun x => decide (h < x.2)) then some (j, h) else b) ∧
    ∀ b j, (m.link j).gmHops = none → g b j = b :=
  ⟨_, rfl, fun b j h hj => by simp only [hj], fun b j hj => by simp only [hj]⟩

/-- The link over which the grandmaster is nearest, the lowest of equal ones, is the best parent. -/
theorem bestParent_of_nearest {m : Mod} {l h : Nat} (hl : l < 16) (hh : (m.link l).gmHops = some h) (hc : m.linkCarries l 2 = true)
    (hbest : ∀ l' h', l' < 16 → l' ≠ l → m.linkCarries l' 2 = true → (m.link l').gmHops = some h' → h < h' ∨ (h = h' ∧ l < l')) :
    m.bestParent = some (l, h) := by
  obtain ⟨g, hg, hsome, hnone⟩ := m.bestParent_eq
  have hstep : ∀ n, n ≤ 16 → (n ≤ l → ∀ x, (upTo n).foldl g none = some x → h < x.2) ∧ (l < n → (upTo n).foldl g none = some (l, h)) := by
    intro n
    induction n with
    | zero => exact fun _ => ⟨fun _ x hx => (by cases hx), fun hn => absurd hn (Nat.not_lt_zero l)⟩
    | succ n ih =>
      intro hn
      obtain ⟨hbefore, hafter⟩ := ih (Nat.le_of_succ_le hn)
      rw [upTo, List.range_succ, List.foldl_append, List.foldl_cons, List.foldl_nil, ← upTo]
      generalize (upTo n).foldl g none = b at hbefore hafter
      refine ⟨fun hnl x hx => ?_, fun hln => ?_⟩
      · cases hj : (m.link n).gmHops with
        | none => exact hbefore (Nat.le_of_succ_le hnl) x ((hnone b n hj).symm.trans hx)
        | some h' =>
          rw [hsome b n h' hj] at hx
          split at hx
          · next hcarry =>
            have hn' : m.linkCarries n 2 = true := by
              rw [Bool.and_eq_true] at hcarry
              exact hcarry.1
            cases hx
            have := hbest n h' (by omega) (by omega) hn' hj
            show h < h'
            omega
          · exact hbefore (Nat.le_of_succ_le hnl) x hx
      · by_cases hnl : n = l
        · subst hnl
          have hall : b.all (fun x => decide (h < x.2)) = true := by
            cases hb : b with
            | none => rfl
            | some x => exact decide_eq_true (hbefore (Nat.le_refl n) x hb)
          rw [hsome b n h hh, hc, hall]
          rfl
        · have hb := hafter (by omega)
          cases hj : (m.link n).gmHops with
          | none => exact (hnone b n hj).trans hb
          | some h' =>
            have hfar : (m.linkCarries n 2 && b.all (fun x => decide (h' < x.2))) = false := by
              rw [hb]
              cases hcarry : m.linkCarries n 2 with
              | false => rfl
              | true =>
                have := hbest n h' (by omega) hnl hcarry hj
                exact decide_eq_false (by omega)
            rw [hsome b n h' hj, hfar]
            exact hb
  exact hg.trans ((hstep 16 (Nat.le_refl _)).2 hl)

/-- Whether a link carries a channel is told by its state and the registers of its lane group. -/
theorem linkCarries_of {m t : Mod} (hu : ∀ l, (t.link l).usable = (m.link l).usable)
    (hr : ∀ r i, r ∈ [Reg.MESH_LINK_STATUS, .MESH_LG_CTRL, .CAR_STATUS] → t.reg r i = m.reg r i) (l vc : Nat) : t.linkCarries l vc = m.linkCarries l vc := by
  have hstate : t.linkState l = m.linkState l := by rw [linkState, rd, hr _ _ (by decide), linkState, rd]
  have hmode : t.lgMode (l / 2) = m.lgMode (l / 2) := by rw [lgMode, rd, hr _ _ (by decide), lgMode, rd]
  have htwin : t.flag F.CAR_STATUS_TWIN = m.flag F.CAR_STATUS_TWIN := by rw [flag, rd, hr _ _ (by decide), flag, rd]
  rw [linkCarries, hu, isTwinLink, hmode, htwin, hstate, linkCarries, isTwinLink]

theorem treeKept_setChild (m : Mod) (l : Nat) (b : Bool) : m.TreeKept (m.setLink l { m.link l with child := b }) := by
  refine ⟨.of_regs rfl (setLink_regs _ _ _), fun j => ?_, fun j => ?_, fun j => ?_⟩ <;>
  · by_cases hj : j = l
    · rw [hj, link_setLink_self]
    · rw [link_setLink_ne m _ hj]

/-- What a change of parent shows, and what it keeps. -/
theorem reparent_best {m : Mod} {l h : Nat} (hr : m.isRoot = false) (hb : m.bestParent = some (l, h)) :
    (((m.put F.TB_STATUS_PARENT_VALID 0 true).wr F.TB_STATUS_PARENT 0 (l / 2)).wr F.TB_STATUS_HOPS 0 h).TreeKept m.reparent := by
  have hroot : (((m.put F.TB_STATUS_PARENT_VALID 0 true).wr F.TB_STATUS_PARENT 0 (l / 2)).wr F.TB_STATUS_HOPS 0 h).isRoot = false := by
    rw [← hr]
    simp (disch := decide) only [isRoot, flag_put_of_apart, flag_wr_of_apart]
  obtain ⟨x, hx⟩ : ∃ x, ((m.put F.TB_STATUS_PARENT_VALID 0 true).wr F.TB_STATUS_PARENT 0 (l / 2)).wr F.TB_STATUS_HOPS 0 h = x := ⟨_, rfl⟩
  have ht : m.reparent = x.iff (m.parentLink != some l) (fun m => (m.setLink l { m.link l with child := false }).memberClaim.subtreeClaim.barAgain) := by
    unfold reparent
    rw [hr, hb, ← hx]
    exact if_neg (by decide)
  rw [ht]
  rw [hx] at hroot ⊢
  refine .iff _ ?_
  have hset := x.treeKept_setChild l false
  have hroot' : (x.setLink l { x.link l with child := false }).isRoot = false :=
    (flag_of_regs (setLink_regs x l { x.link l with child := false }) F.TB_STATUS_IS_GM 0).trans hroot
  generalize x.setLink l { x.link l with child := false } = y at hset hroot' ⊢
  exact ((hset.trans (treeKept_memberClaim hroot')).trans (treeKept_subtreeClaim _)).trans (treeKept_barAgain _)

end Mod

end Sys2Proof.Machine

/-!
Mesh time: what a TIME_SYNC and an election leave (R111).
-/
namespace Sys2Proof.Machine

namespace Mod

/-! ### Syncs (R110, R111) -/

theorem clampTo_lt (w : Nat) (z : Int) : clampTo w z < 2 ^ w := wrapTo_lt w _

/-- The fields by which the tree and the last offset show. -/
def syncFlds : List Fld := [F.TB_OFFSET_OFFSET, F.TB_STATUS_SRC_OK, F.TB_STATUS_PARENT_VALID, F.TB_STATUS_PARENT, F.TB_STATUS_HOPS]

/-- The fields by which the parent shows. -/
def parentFlds : List Fld := [F.TB_STATUS_PARENT_VALID, F.TB_STATUS_PARENT, F.TB_STATUS_HOPS]

theorem parentFlds_subset {f : Fld} (h : f ∈ parentFlds) : f ∈ syncFlds := .tail _ (.tail _ h)

/-- A sync interval shows its offset, and leaves the parent. -/
theorem syncOffset_shows (m : Mod) (off : Int) :
    (m.syncOffset off).rd F.TB_OFFSET_OFFSET = clampTo 32 off ∧ (m.syncOffset off).flag F.TB_STATUS_SRC_OK = true ∧
      FieldsKept parentFlds m (m.syncOffset off) := by
  unfold syncOffset
  dsimp only
  generalize hx : ((m.wr F.TB_OFFSET_OFFSET 0 (clampTo 32 off)).put F.TB_STATUS_HOLDOVER 0 false).put F.TB_STATUS_SRC_OK 0 true = x
  have hrd : x.rd F.TB_OFFSET_OFFSET = clampTo 32 off := by
    rw [← hx, rd_put_of_apart _ _ _ _ (by decide), rd_put_of_apart _ _ _ _ (by decide), rd_wr_self _ _ _ _ (by decide)]
    exact Nat.mod_eq_of_lt (clampTo_lt _ _)
  have hok : x.flag F.TB_STATUS_SRC_OK = true := by rw [← hx, flag_put_self _ _ _ _ (by decide) rfl]
  have hkept : FieldsKept parentFlds m x := by
    rw [← hx]
    exact ((m.fieldsKept_wr _ _ (by decide)).trans (fieldsKept_put _ _ _ (by decide))).trans (fieldsKept_put _ _ _ (by decide))
  suffices h : ∀ t, FieldsKept syncFlds x t → t.rd F.TB_OFFSET_OFFSET = clampTo 32 off ∧ t.flag F.TB_STATUS_SRC_OK = true ∧ FieldsKept parentFlds m t by
    generalize hy : ({ x with goodIv := _, badIv := _, lastSync := _ } : Mod) = y
    have hxy : FieldsKept syncFlds x y := .of_regs (by rw [← hy])
    apply h
    split
    · exact hxy.trans (fieldsKept_stepTime _ _ (by decide))
    · have hcorr : FieldsKept syncFlds y (y.correct (-off)) := .of_regs rfl
      generalize y.correct (-off) = z at hcorr ⊢
      split
      · exact (hxy.trans hcorr).trans (fieldsKept_setLocked _ _ (by decide))
      · split
        · exact (hxy.trans hcorr).trans (fieldsKept_setLocked _ _ (by decide))
        · exact hxy.trans hcorr
  intro t ht
  exact ⟨(ht _ (by decide)).trans hrd, (ht.flag (by decide)).trans hok, hkept.trans fun f hf => ht f (parentFlds_subset hf)⟩

/-- The parent's link is the first of its lane group over which the grandmaster is the hops shown away. -/
theorem parentLink_eq {m : Mod} {l h : Nat} (hv : m.flag F.TB_STATUS_PARENT_VALID = true) (hp : m.rd F.TB_STATUS_PARENT = l / 2)
    (hh : m.rd F.TB_STATUS_HOPS = h) (hc : m.linkCarries l 2 = true) (hl : (m.link l).gmHops = some h)
    (hfirst : l % 2 = 1 → m.linkCarries (l - 1) 2 = true → (m.link (l - 1)).gmHops ≠ some h) : m.parentLink = some l := by
  have hself : (m.linkCarries l 2 && (m.link l).gmHops == some h) = true := by rw [hc, hl]; simp
  unfold parentLink
  rw [hv, hp, hh]
  dsimp only
  rw [if_neg (by decide)]
  rcases Nat.mod_two_eq_zero_or_one l with h2 | h2
  · rw [show 2 * (l / 2) = l by omega, List.find?_cons, hself]
  · have hother : (m.linkCarries (l - 1) 2 && (m.link (l - 1)).gmHops == some h) = false := by
      rw [Bool.and_eq_false_imp]
      exact fun ho => beq_eq_false_iff_ne.mpr (hfirst h2 ho)
    rw [show 2 * (l / 2) = l - 1 by omega, show l - 1 + 1 = l by omega, List.find?_cons, hother, List.find?_cons, hself]

/-- A change of parent to a neighbour: how it shows, and what it keeps. -/
theorem reparent_shows {m : Mod} {l h : Nat} (hr : m.isRoot = false) (hl : l < 16) (hh : h < 256) (hg : (m.link l).gmHops = some h)
    (hc : m.linkCarries l 2 = true)
    (hbest : ∀ l' h', l' < 16 → l' ≠ l → m.linkCarries l' 2 = true → (m.link l').gmHops = some h' → h < h' ∨ (h = h' ∧ l < l')) :
    let t := m.reparent
    t.flag F.TB_STATUS_PARENT_VALID = true ∧ t.rd F.TB_STATUS_PARENT = l / 2 ∧ t.rd F.TB_STATUS_HOPS = h ∧ t.parentLink = some l ∧
      t.tbSrc = m.tbSrc ∧ t.now = m.now ∧ t.corr = m.corr ∧ (t.link l).delay = (m.link l).delay := by
  have hkept := reparent_best hr (bestParent_of_nearest hl hg hc hbest)
  obtain ⟨x, hx⟩ : ∃ x, ((m.put F.TB_STATUS_PARENT_VALID 0 true).wr F.TB_STATUS_PARENT 0 (l / 2)).wr F.TB_STATUS_HOPS 0 h = x := ⟨_, rfl⟩
  rw [hx] at hkept
  have hxl : ∀ j, x.link j = m.link j := fun j => by rw [← hx, link_wr, link_wr, link_put]
  have hxr : ∀ r i, r ≠ Reg.TB_STATUS → x.reg r i = m.reg r i := fun r i hne => by
    rw [← hx]
    exact (reg_setReg_ne _ _ fun e => hne e.1).trans ((reg_setReg_ne _ _ fun e => hne e.1).trans (reg_setReg_ne _ _ fun e => hne e.1))
  have hv : x.flag F.TB_STATUS_PARENT_VALID = true := by
    rw [← hx, flag_wr_of_apart _ _ _ _ (by decide), flag_wr_of_apart _ _ _ _ (by decide), flag_put_self _ _ _ _ (by decide) rfl]
  have hp : x.rd F.TB_STATUS_PARENT = l / 2 := by
    rw [← hx, rd_wr_of_apart _ _ _ _ (by decide), rd_wr_self _ _ _ _ (by decide)]
    exact Nat.mod_eq_of_lt (show l / 2 < 8 by omega)
  have hops : x.rd F.TB_STATUS_HOPS = h := by
    rw [← hx, rd_wr_self _ _ _ _ (by decide)]
    exact Nat.mod_eq_of_lt hh
  have hsrc : x.tbSrc = m.tbSrc := by
    rw [← hx]
    simp (disch := decide) only [tbSrc, flag_wr_of_apart, flag_put_of_apart, rd_wr_of_apart, rd_put_of_apart]
  have hnow : x.now = m.now := by rw [← hx, wr_now, wr_now, put_now]
  have hcorr : x.corr = m.corr := by rw [← hx, wr_corr, wr_corr, put_corr]
  intro t
  have htx : x.TreeKept t := hkept
  have htv := (htx.frame.flag F.TB_STATUS_PARENT_VALID 0 (by decide)).trans hv
  have htp := (htx.frame.rd F.TB_STATUS_PARENT 0 (by decide)).trans hp
  have hth := (htx.frame.rd F.TB_STATUS_HOPS 0 (by decide)).trans hops
  have hcar : ∀ j, t.linkCarries j 2 = m.linkCarries j 2 := fun j =>
    linkCarries_of (fun j => (htx.usable j).trans (by rw [hxl])) (fun r i hri => by
      rcases List.mem_cons.mp hri with rfl | hri
      · exact (htx.frame.regs _ i (by decide)).trans (hxr _ i (by decide))
      · rcases List.mem_cons.mp hri with rfl | hri
        · exact (htx.frame.regs _ i (by decide)).trans (hxr _ i (by decide))
        · rw [List.mem_singleton.mp hri]
          exact (htx.frame.regs _ i (by decide)).trans (hxr _ i (by decide))) j 2
  have hgm : ∀ j, (t.link j).gmHops = (m.link j).gmHops := fun j => (htx.gmHops j).trans (by rw [hxl])
  refine ⟨htv, htp, hth, parentLink_eq htv htp hth ((hcar l).trans hc) ((hgm l).trans hg) (fun h2 ho he => ?_), ?_, ?_, ?_, ?_⟩
  · rcases hbest (l - 1) h (by omega) (by omega) ((hcar _).symm.trans ho) ((hgm _).symm.trans he) with hlt | ⟨_, hlt⟩
    · exact absurd hlt (Nat.lt_irrefl h)
    · omega
  · rw [tbSrc, htx.frame.flag _ _ (by decide), htx.frame.flag _ _ (by decide), htx.frame.rd _ _ (by decide)]
    exact hsrc
  · exact (congrArg Mod.now htx.frame.rest :).trans hnow
  · exact (congrArg Mod.corr htx.frame.rest :).trans hcorr
  · rw [htx.delay, hxl]

theorem fieldsKept_sends (fs : List Fld) (p : Nat → Mod → Bool) (f : Mod → Nat → Flit) (ls : List Nat) (m : Mod) :
    let t := m.each ls (fun m k => m.iff (p k m) (fun m => m.sendFlit k (f m k)))
    FieldsKept fs m t ∧ t.now = m.now ∧ t.corr = m.corr := by
  refine each_keeps (P := fun t => FieldsKept fs m t ∧ t.now = m.now ∧ t.corr = m.corr) (fun t k ht => ?_) ls ⟨.refl _ _, rfl, rfl⟩
  have hu := t.unsent_sendFlit k (f t k)
  refine iff_keeps (P := fun t => FieldsKept fs m t ∧ t.now = m.now ∧ t.corr = m.corr) _ ?_ ht
  obtain ⟨hf, hn, hc⟩ := ht
  generalize t.sendFlit k (f t k) = u at hu ⊢
  exact ⟨hf.trans (.of_regs (regs_of_unsent hu)), (congrArg Mod.now hu :).trans hn, (congrArg Mod.corr hu :).trans hc⟩

/-- The sync of the nearest neighbour. -/
theorem syncIn_nearest {m : Mod} {l : Nat} {f : Flit} (hl : l < 16) (hc : m.linkCarries l 2 = true) (hr : m.isRoot = false)
    (hgm : bitsOf f.payload.toNat 0 16 = m.rd F.TB_GM_NODE_NODE)
    (hbest : ∀ l' h, l' < 16 → l' ≠ l → m.linkCarries l' 2 = true → (m.link l').gmHops = some h →
      Nat.min (bitsOf f.payload.toNat 16 8 + 1) 255 < h ∨ (Nat.min (bitsOf f.payload.toNat 16 8 + 1) 255 = h ∧ l < l')) :
    let t := m.syncIn l f
    let py := f.payload.toNat
    let gmt : Int := (bitsOf py 24 64 : Int) + (signedOf 64 (bitsOf py 88 64) + (m.link l).delay) / 65536
    t.flag F.TB_STATUS_PARENT_VALID = true ∧ t.rd F.TB_STATUS_PARENT = l / 2 ∧ t.rd F.TB_STATUS_HOPS = Nat.min (bitsOf py 16 8 + 1) 255 ∧
      (m.tbSrc = 1 → t.rd F.TB_OFFSET_OFFSET = clampTo 32 ((m.now : Int) - gmt) ∧ t.flag F.TB_STATUS_SRC_OK = true) ∧
      (m.tbSrc ≠ 1 → t.now = m.now ∧ t.corr = m.corr) := by
  have hcred := m.unsent_giveCredits l 2 1
  have hlinks := m.link_giveCredits l 2 1
  unfold syncIn
  rw [hc]
  dsimp only
  rw [if_neg (by decide)]
  generalize m.giveCredits l 2 1 = x at hcred hlinks ⊢
  have hroot : x.isRoot = false := (flag_of_regs (regs_of_unsent hcred) F.TB_STATUS_IS_GM 0).trans hr
  have hgx : ¬ (x.isRoot || decide (bitsOf f.payload.toNat 0 16 ≠ x.rd F.TB_GM_NODE_NODE)) = true := by
    rw [hroot, rd_of_regs (regs_of_unsent hcred), hgm]
    simp
  have hxnow : x.now = m.now := (congrArg Mod.now hcred :)
  have hxcorr : x.corr = m.corr := (congrArg Mod.corr hcred :)
  have hxsrc : x.tbSrc = m.tbSrc := tbSrc_of_regs (regs_of_unsent hcred)
  rw [if_neg hgx]
  obtain ⟨h, hh⟩ : ∃ h, Nat.min (bitsOf f.payload.toNat 16 8 + 1) 255 = h := ⟨_, rfl⟩
  rw [hh] at hbest ⊢
  have hlt : h < 256 := hh ▸ Nat.lt_of_le_of_lt (Nat.min_le_right _ _) (by decide)
  obtain ⟨y, hy⟩ : ∃ y, x.setLink l { x.link l with gmHops := some h } = y := ⟨_, rfl⟩
  have hyl : y.link l = { m.link l with gmHops := some h } := by rw [← hy, link_setLink_self, hlinks]
  have hyo : ∀ j, j ≠ l → y.link j = m.link j := fun j hj => by rw [← hy, link_setLink_ne x _ hj, hlinks]
  have hyr : y.regs = x.regs := by rw [← hy, setLink_regs]
  have hyn : y.now = m.now := by rw [← hy, setLink_now, hxnow]
  have hyc : y.corr = m.corr := by rw [← hy, setLink_corr, hxcorr]
  have hcar : ∀ j, y.linkCarries j 2 = m.linkCarries j 2 := fun j => by
    refine linkCarries_of (fun j => ?_) (fun r i _ => reg_of_regs (hyr.trans (regs_of_unsent hcred)) r i) j 2
    by_cases hj : j = l
    · rw [hj, hyl]
    · rw [hyo j hj]
  obtain ⟨hv, hp, hops, hpl, hsrc, hnow, hcorr, hdelay⟩ := reparent_shows (m := y) ((flag_of_regs hyr F.TB_STATUS_IS_GM 0).trans hroot) hl hlt (by rw [hyl])
    ((hcar l).trans hc) (fun j h' hj hne hcj hgj => hbest j h' hj hne ((hcar j).symm.trans hcj) (by rw [← hyo j hne]; exact hgj))
  rw [hy]
  generalize y.reparent = t at hv hp hops hpl hsrc hnow hcorr hdelay ⊢
  have htsrc : t.tbSrc = m.tbSrc := hsrc.trans ((tbSrc_of_regs hyr).trans hxsrc)
  have hd : (t.link l).delay = (m.link l).delay := by rw [hdelay, hyl]
  rw [if_neg (by rw [hpl]; simp), htsrc, hd]
  generalize hg : (bitsOf f.payload.toNat 24 64 : Int) + (signedOf 64 (bitsOf f.payload.toNat 88 64) + (m.link l).delay) / 65536 = gmt
  obtain ⟨hoffset, hok, hparent⟩ := t.syncOffset_shows ((t.now : Int) - gmt)
  obtain ⟨w, hw⟩ : ∃ w, t.iff (decide (m.tbSrc = 1)) (fun m => m.syncOffset ((m.now : Int) - gmt)) = w := ⟨_, rfl⟩
  have hwp : FieldsKept parentFlds t w := by
    rw [← hw]
    exact .iff _ hparent
  have hws : (m.tbSrc = 1 → w.rd F.TB_OFFSET_OFFSET = clampTo 32 ((m.now : Int) - gmt) ∧ w.flag F.TB_STATUS_SRC_OK = true) ∧
      (m.tbSrc ≠ 1 → w.now = m.now ∧ w.corr = m.corr) := by
    rw [← hw]
    refine ⟨fun h1 => ?_, fun h1 => ?_⟩
    · rw [decide_eq_true h1, iff_true]
      rw [hnow, hyn] at hoffset hok ⊢
      exact ⟨hoffset, hok⟩
    · rw [decide_eq_false h1, iff_false]
      exact ⟨hnow.trans hyn, hcorr.trans hyc⟩
  obtain ⟨hk, hkn, hkc⟩ := fieldsKept_sends syncFlds (fun k m => k != l && m.linkCarries k 2) (fun n k => n.timeFlit k 0x22
    (syncPay (bitsOf f.payload.toNat 0 16) h (bitsOf f.payload.toNat 24 64) (signedOf 64 (bitsOf f.payload.toNat 88 64) + (m.link l).delay - 65536 * n.mono))) (upTo 16) w
  rw [hw]
  refine ⟨?_, ?_, ?_, fun h1 => ⟨?_, ?_⟩, fun h1 => ⟨hkn.trans (hws.2 h1).1, hkc.trans (hws.2 h1).2⟩⟩
  · exact (hk.flag (by decide)).trans ((hwp.flag (by decide)).trans hv)
  · exact (hk _ (by decide)).trans ((hwp _ (by decide)).trans hp)
  · exact (hk _ (by decide)).trans ((hwp _ (by decide)).trans hops)
  · exact (hk _ (by decide)).trans (hws.1 h1).1
  · exact (hk.flag (by decide)).trans (hws.1 h1).2

/-! ### Elections (R111) -/

/-- The fields by which an election shows. -/
def electFlds : List Fld :=
  [F.TB_GM_NODE_NODE, F.TB_STATUS_IS_GM, F.MESH_STATUS_ROOT, F.TB_STATUS_PARENT_VALID, F.TB_STATUS_HOPS]

theorem electKept_of_tree {m t : Mod} (h : m.TreeKept t) : FieldsKept electFlds m t := .of_frame h.frame (by decide)

theorem electKept_srcCommit (m : Mod) (old : Nat) : FieldsKept electFlds m (m.srcCommit old) := by
  unfold srcCommit
  split
  · exact .refl _ m
  · dsimp only
    generalize hx : ({ m with goodIv := 0, badIv := 0, lastSync := m.mono, rate10 := 0 } : Mod) = x
    have hput : FieldsKept electFlds m (x.put F.TB_STATUS_SRC_OK 0 false) :=
      .trans (.of_regs (by rw [← hx])) (fieldsKept_put _ _ _ (by decide))
    generalize x.put F.TB_STATUS_SRC_OK 0 false = y at hput ⊢
    split
    · exact hput.trans (fieldsKept_setLocked _ _ (by decide))
    · exact (hput.trans (fieldsKept_setLocked _ _ (by decide))).trans (fieldsKept_put _ _ _ (by decide))

theorem electKept_setMembers (m : Mod) (l : List (Nat × Bool)) : FieldsKept electFlds m (m.setMembers l) := by
  unfold setMembers
  dsimp only
  generalize hx : ({ m with fed := _ } : Mod) = x
  have hmx : FieldsKept electFlds m x := .of_regs (by rw [← hx])
  have hwords : FieldsKept electFlds x (x.each (upTo 128) (fun m n => m.wr F.MESH_MEMBER_MEMBER n (memberWord (l.filter (fun e => e.1 < 4095)) n))) :=
    .each (fun y n => y.fieldsKept_wr n _ (by decide)) _ x
  generalize x.each (upTo 128) _ = y at hwords ⊢
  have hput := ((hmx.trans hwords).trans (y.fieldsKept_wr (f := F.MESH_STATUS_MEMBERS) 0
    ((upTo 128).map (fun n => (setBits 32 (memberWord (l.filter (fun e => e.1 < 4095)) n)).length)).sum (by decide))).trans
    (fieldsKept_put _ (f := F.MESH_STATUS_V1_PRESENT) 0 ((l.filter (fun e => e.1 < 4095)).any (fun e => !e.2)) (by decide))
  split
  · exact hput
  · exact hput.trans (electKept_of_tree ((treeKept_raise _ _).trans (treeKept_gopAbandon _)))

theorem electKept_flood (m : Mod) : FieldsKept electFlds m m.flood :=
  (m.electKept_setMembers _).trans (electKept_of_tree (treeKept_memberDown _ _))

theorem electKept_holdover (m : Mod) : FieldsKept electFlds m m.holdover := by
  unfold holdover
  split
  · exact .refl _ m
  · dsimp only
    generalize hx : ({ m with holdFrom := m.mono } : Mod) = x
    have hmx : FieldsKept electFlds m x := .of_regs (by rw [← hx])
    exact ((hmx.trans (fieldsKept_put _ _ _ (by decide))).trans (fieldsKept_put _ _ _ (by decide))).trans (.iff _ (fieldsKept_setLocked _ _ (by decide)))

end Mod

end Sys2Proof.Machine

/-!
Mesh time: elections, and the statement (R111).
-/
namespace Sys2Proof.Machine

namespace Mod

/-- The forgetting of the old tree, and what follows it, keeps the new one. -/
theorem electKept_rest (m : Mod) (own held : Bool) :
    FieldsKept electFlds m ((m.gopAbandon.iff own (fun m => m.refuseDuplicates.flood)).iff held Mod.holdover) := by
  have h := electKept_of_tree m.treeKept_gopAbandon
  generalize m.gopAbandon = x at h ⊢
  exact (h.trans (.iff _ ((electKept_of_tree x.treeKept_refuseDuplicates).trans (electKept_flood _)))).trans (.iff _ (electKept_holdover _))

theorem fieldsKept_setLinks (fs : List Fld) (f : Mod → Nat → Link) (ls : List Nat) (m : Mod) :
    FieldsKept fs m (m.each ls (fun m l => m.setLink l (f m l))) :=
  .each (fun x l => .of_regs (setLink_regs x l (f x l))) ls m

/-- The module in which a chosen grandmaster is named, and its node told. -/
def gmNamed (m : Mod) (node : Nat) (own : Bool) : Mod :=
  ((m.wr F.TB_GM_NODE_NODE 0 node).put F.TB_STATUS_IS_GM 0 own).put F.MESH_STATUS_ROOT 0 own

theorem gmNamed_shows (m : Mod) {node : Nat} (own : Bool) (h : node < 4096) :
    (m.gmNamed node own).rd F.TB_GM_NODE_NODE = node ∧ (m.gmNamed node own).flag F.TB_STATUS_IS_GM = own ∧ (m.gmNamed node own).flag F.MESH_STATUS_ROOT = own := by
  refine ⟨?_, ?_, flag_put_self _ _ _ _ (by decide) rfl⟩
  · rw [gmNamed, rd_put_of_apart _ _ _ _ (by decide), rd_put_of_apart _ _ _ _ (by decide), rd_wr_self _ _ _ _ (by decide)]
    exact Nat.mod_eq_of_lt h
  · rw [gmNamed, flag_put_of_apart _ _ _ _ (by decide), flag_put_self _ _ _ _ (by decide) rfl]

/-- The old tree forgotten by the links and the registers. -/
def orphaned (m : Mod) (own : Bool) : Mod :=
  ((m.each (upTo 16) (fun m l => m.setLink l { m.link l with gmHops := none })).put F.TB_STATUS_PARENT_VALID 0 false).wr F.TB_STATUS_HOPS 0 (if own then 0 else 0xFF)

theorem orphaned_shows (m : Mod) (own : Bool) :
    (m.orphaned own).flag F.TB_STATUS_PARENT_VALID = false ∧ (m.orphaned own).rd F.TB_STATUS_HOPS = (if own then 0 else 0xFF) ∧
      FieldsKept [F.TB_GM_NODE_NODE, F.TB_STATUS_IS_GM, F.MESH_STATUS_ROOT] m (m.orphaned own) := by
  refine ⟨?_, ?_, ?_⟩
  · rw [orphaned, flag_wr_of_apart _ _ _ _ (by decide), flag_put_self _ _ _ _ (by decide) rfl]
  · rw [orphaned, rd_wr_self _ _ _ _ (by decide)]
    cases own <;> rfl
  · have h := fieldsKept_setLinks [F.TB_GM_NODE_NODE, F.TB_STATUS_IS_GM, F.MESH_STATUS_ROOT] (fun m l => { m.link l with gmHops := none }) (upTo 16) m
    exact (h.trans (fieldsKept_put _ _ _ (by decide))).trans (fieldsKept_wr _ _ _ (by decide))

/-- What an election that is possible is made of. -/
theorem elect_eq {m : Mod} {e : Election} (h : m.electable e = true) : ∃ (own gm held : Bool) (y : Mod), own = decide (e.node.toNat = m.node) ∧
    y = ((m.gmNamed e.node.toNat own).iff gm (fun m => m.put F.TB_STATUS_GM_CONFLICT 0 true)).srcCommit m.tbSrc ∧
    m.elect e = if m.rd F.TB_GM_NODE_NODE = e.node.toNat then y else
      ((y.orphaned own).gopAbandon.iff own (fun m => m.refuseDuplicates.flood)).iff held Mod.holdover := by
  obtain ⟨x, hx⟩ : ∃ x, m.gmNamed e.node.toNat (decide (e.node.toNat = m.node)) = x := ⟨_, rfl⟩
  obtain ⟨y, hy⟩ : ∃ y, (x.iff (x.flag F.TB_CTRL_GM && !decide (e.node.toNat = m.node)) (fun m => m.put F.TB_STATUS_GM_CONFLICT 0 true)).srcCommit m.tbSrc = y := ⟨_, rfl⟩
  obtain ⟨z, hz⟩ : ∃ z, (y.orphaned (decide (e.node.toNat = m.node))).gopAbandon.iff (decide (e.node.toNat = m.node)) (fun m => m.refuseDuplicates.flood) = z := ⟨_, rfl⟩
  refine ⟨_, x.flag F.TB_CTRL_GM && !decide (e.node.toNat = m.node), z.tbSrc == 1 && e.left, y, rfl, by rw [hx, hy], ?_⟩
  rw [← hz, ← hy, ← hx]
  unfold elect
  rw [h]
  exact if_neg (by decide)

/-- A grandmaster that can be chosen is named, and shown by its node alone; a change forgets the parent. -/
theorem elect_shows {m : Mod} {e : Election} (h : m.electable e = true) :
    let t := m.elect e
    t.rd F.TB_GM_NODE_NODE = e.node.toNat ∧ t.flag F.TB_STATUS_IS_GM = decide (e.node.toNat = m.node) ∧
      t.flag F.MESH_STATUS_ROOT = decide (e.node.toNat = m.node) ∧
      (m.rd F.TB_GM_NODE_NODE ≠ e.node.toNat → t.flag F.TB_STATUS_PARENT_VALID = false ∧
        t.rd F.TB_STATUS_HOPS = (if e.node.toNat = m.node then 0 else 0xFF)) := by
  obtain ⟨own, gm, held, y, hown, hy, he⟩ := elect_eq h
  obtain ⟨hgm, his, hroot⟩ := m.gmNamed_shows own e.node.isLt
  have hxy : FieldsKept electFlds (m.gmNamed e.node.toNat own) y := by
    rw [hy]
    generalize m.gmNamed e.node.toNat own = x
    have hput : FieldsKept electFlds x (x.iff gm (fun m => m.put F.TB_STATUS_GM_CONFLICT 0 true)) := .iff _ (x.fieldsKept_put _ _ (by decide))
    generalize x.iff gm (fun m => m.put F.TB_STATUS_GM_CONFLICT 0 true) = w at hput ⊢
    exact hput.trans (w.electKept_srcCommit _)
  have hif : (if e.node.toNat = m.node then 0 else 0xFF) = if own then 0 else 0xFF := by rw [hown]; simp
  rw [hif, ← hown]
  intro t
  have ht : t = _ := he
  by_cases hold : m.rd F.TB_GM_NODE_NODE = e.node.toNat
  · rw [if_pos hold] at ht
    rw [ht]
    exact ⟨(hxy _ (by decide)).trans hgm, (hxy.flag (by decide)).trans his, (hxy.flag (by decide)).trans hroot, fun hne => absurd hold hne⟩
  · rw [if_neg hold] at ht
    obtain ⟨hv, hh, hkept⟩ := y.orphaned_shows own
    have hrest := electKept_rest (y.orphaned own) own held
    rw [← ht] at hrest
    refine ⟨?_, ?_, ?_, fun _ => ⟨(hrest.flag (by decide)).trans hv, (hrest _ (by decide)).trans hh⟩⟩
    · exact (hrest _ (by decide)).trans ((hkept _ (by decide)).trans ((hxy _ (by decide)).trans hgm))
    · exact (hrest.flag (by decide)).trans ((hkept.flag (by decide)).trans ((hxy.flag (by decide)).trans his))
    · exact (hrest.flag (by decide)).trans ((hkept.flag (by decide)).trans ((hxy.flag (by decide)).trans hroot))

end Mod

/-- Settles O38. -/
theorem meshTimeFollowsTheGrandmaster : Obligations.MeshTimeFollowsTheGrandmaster := by
  intro s l f e m k node py hops gmt
  refine ⟨fun hu hf => does_next rfl (Mod.probeSend_free hu hf), fun hu => ⟨does_next rfl ?_, does_next rfl ?_, does_next rfl (Mod.echoIn_unusable f hu)⟩,
    fun hu hf => does_next rfl ?_, fun hu hp => does_next rfl (Mod.echoIn_ends hu hp),
    fun hc hr hgm hbest => does_next rfl (Mod.syncIn_nearest l.isLt hc hr hgm hbest), fun he => does_next rfl (Mod.elect_shows he), fun he => does_next rfl ?_⟩
  · exact if_pos (by rw [show (s.mod.link l).usable = false from hu]; decide)
  · exact if_neg (by rw [show (s.mod.link l).usable = false from hu]; decide)
  · have ht : ∀ x, (if (m.link l).usable = true then x else m) = x := fun x => if_pos hu
    obtain ⟨e, he⟩ := Mod.echo_free f hf
    refine ⟨e, ?_⟩
    dsimp only
    rw [ht]
    exact he
  · exact if_pos (by rw [show s.mod.electable e = false from he]; rfl)

end Sys2Proof.Machine

/-!
The federation's operations: barriers, broadcasts, snapshots, resets and membership (R315 to R320).
-/
namespace Sys2Proof.Machine

namespace Mod

/-! ### Lost and refused commands (R316) -/

theorem gopCmd_busy {m : Mod} (h : m.flag F.MESH_GOP_STATUS_BUSY = true) (op id len : Nat) :
    m.gopCmd op id len = m.put F.MESH_GOP_STATUS_CMDLOST 0 true := by
  unfold gopCmd
  rw [h]
  rfl

theorem gopCmd_barrier {m : Mod} (h : m.flag F.MESH_GOP_STATUS_BUSY = false) (b len : Nat) :
    m.gopCmd 1 b len = if !m.barPart b then m.put F.MESH_GOP_STATUS_REFUSED 0 true
      else ({ m.gopBegin 1 with fed := { (m.gopBegin 1).fed with arrived := b :: m.fed.arrived, reported := m.fed.reported.filter (· != b) } } : Mod).barCheck b := by
  unfold gopCmd
  rw [h]
  rfl

/-- The operations of R318 to R320: at the root its part, elsewhere a message up. -/
theorem gopCmd_broadcast {m : Mod} (h : m.flag F.MESH_GOP_STATUS_BUSY = false) (id len : Nat) :
    let data := ((upTo 8).flatMap (fun n => leBytes 4 (m.rd F.MESH_BC_TX_DATA n))).take len
    let x := m.gopBegin 2
    m.gopCmd 2 id len = if x.isRoot then x.bcFlood x.node data else x.gopUp (.bcUp (BitVec.ofNat 12 x.node) data) := by
  unfold gopCmd
  rw [h]
  rfl

theorem gopCmd_snapshot {m : Mod} (h : m.flag F.MESH_GOP_STATUS_BUSY = false) (id len : Nat) :
    let x := m.gopBegin 3
    m.gopCmd 3 id len = if x.isRoot then x.snapRoot x.node else x.gopUp (.snapUp (BitVec.ofNat 12 x.node)) := by
  unfold gopCmd
  rw [h]
  rfl

theorem gopCmd_reset {m : Mod} (h : m.flag F.MESH_GOP_STATUS_BUSY = false) (id len : Nat) :
    let x := m.gopBegin 4
    m.gopCmd 4 id len = if x.isRoot then x.resetRoot else x.gopUp (.resetUp (BitVec.ofNat 12 x.node)) := by
  unfold gopCmd
  rw [h]
  rfl

theorem Told.fed_eq {l : List (Reg × Nat)} {m t : Mod} (h : m.Told l t) : t.fed = m.fed := (congrArg Mod.fed h.rest :)

/-! ### An own operation begins and ends (R316) -/

/-- What the beginning of an own operation keeps: all but the operation and its status. -/
structure OwnBegun (m t : Mod) (op : Nat) : Prop where
  busy : t.flag F.MESH_GOP_STATUS_BUSY = true
  own : t.fed.own = some op
  links : t.links = m.links
  sent : t.sent = m.sent
  now : t.now = m.now
  bc : t.fed.bc = m.fed.bc
  snapGuard : t.fed.snapGuard = m.fed.snapGuard
  regs : OnlyRegs [(.MESH_GOP_STATUS, 0)] m t

theorem gopBegin_begun (m : Mod) (op : Nat) : m.OwnBegun (m.gopBegin op) op := by
  unfold gopBegin
  generalize hx : ({ m with fed := { m.fed with own := some op } } : Mod) = x
  have hr : x.regs = m.regs := by rw [← hx]
  have hl : x.links = m.links := by rw [← hx]
  have hs : x.sent = m.sent := by rw [← hx]
  have hn : x.now = m.now := by rw [← hx]
  have hf : x.fed = { m.fed with own := some op } := by rw [← hx]
  refine ⟨flag_put_self _ _ _ _ (by decide) rfl, ?_, (x.put_links _ _ _).trans hl, (x.put_sent _ _ _).trans hs, (x.put_now _ _ _).trans hn, ?_, ?_,
    (onlyRegs_of_regs hr).trans (onlyRegs_put x F.MESH_GOP_STATUS_BUSY 0 true)⟩ <;>
  rw [put_fed, hf]

section
variable {m t : Mod} {op : Nat} (h : m.OwnBegun t op)
include h

theorem OwnBegun.link_eq (l : Nat) : t.link l = m.link l := by rw [link, h.links, link]
theorem OwnBegun.rd_eq (f : Fld) (i : Nat) (hf : f.reg ≠ .MESH_GOP_STATUS) : t.rd f i = m.rd f i :=
  h.regs.rd (by simpa using fun e => absurd e hf)
theorem OwnBegun.flag_eq (f : Fld) (i : Nat) (hf : f.reg ≠ .MESH_GOP_STATUS) : t.flag f i = m.flag f i := by rw [flag, h.rd_eq f i hf, flag]
theorem OwnBegun.isRoot_eq : t.isRoot = m.isRoot := h.flag_eq _ _ (by decide)
theorem OwnBegun.node_eq : t.node = m.node := by
  rw [node, h.rd_eq _ _ (by decide), h.flag_eq _ _ (by decide), h.flag_eq _ _ (by decide), node]
theorem OwnBegun.linkCarries_eq (l vc : Nat) : t.linkCarries l vc = m.linkCarries l vc := by
  rw [linkCarries, h.link_eq, isTwinLink, linkState, lgMode, h.rd_eq _ _ (by decide), h.rd_eq _ _ (by decide), h.flag_eq _ _ (by decide), linkCarries,
    isTwinLink, linkState, lgMode]
theorem OwnBegun.childLinks_eq : t.childLinks = m.childLinks := by
  simp only [childLinks, h.link_eq, h.linkCarries_eq]
theorem OwnBegun.parentLink_eq : t.parentLink = m.parentLink := by
  simp only [parentLink, h.flag_eq _ _ (show F.TB_STATUS_PARENT_VALID.reg ≠ _ by decide), h.rd_eq _ _ (show F.TB_STATUS_PARENT.reg ≠ _ by decide),
    h.rd_eq _ _ (show F.TB_STATUS_HOPS.reg ≠ _ by decide), h.link_eq, h.linkCarries_eq]
theorem OwnBegun.freeLink_iff (l : Nat) : FreeLink t l ↔ FreeLink m l := by
  rw [FreeLink, credits, h.link_eq, h.rd_eq _ _ (by decide), FreeLink, credits]

/-- A message of this operation up to the parent: sent at once with a credit at hand, else waiting for one. -/
theorem OwnBegun.up {g : GopMsg} {lp : Nat} (hp : m.parentLink = some lp) :
    let u := t.gopUp g
    u.flag F.MESH_GOP_STATUS_BUSY = true ∧ OnlyRegs [(.MESH_GOP_STATUS, 0)] m u ∧
      (FreeLink m lp → u.sent = .gop lp g :: m.sent) ∧
      ((m.link lp).waiting = [] → m.credits lp 2 ≤ (m.link lp).used.getD 2 0 → u.sent = m.sent ∧ (u.link lp).waiting = [⟨2, .gop g, none⟩]) := by
  have hone : t.OneFlit lp (.gop g) := ⟨rfl, fun _ => rfl, fun _ => rfl⟩
  have hu : t.gopUp g = t.sendParcels lp none [.gop g] := by
    unfold gopUp
    rw [h.parentLink_eq, hp]
  have hregs := regs_of_unsent (t.unsent_sendParcels lp none [.gop g])
  have hc : t.credits lp 2 = m.credits lp 2 := h.rd_eq F.MESH_LINK_CRED2_VC2 lp (by decide)
  intro u
  rw [show u = _ from hu]
  refine ⟨(flag_of_regs hregs _ _).trans h.busy, h.regs.trans (onlyRegs_of_regs hregs), fun hf => ?_, fun hw hcr => ?_⟩
  · rw [(sendParcels_free hone ((h.freeLink_iff lp).mpr hf)).1, h.sent]
    rfl
  · rw [← h.link_eq, ← hc] at hcr
    rw [← h.link_eq] at hw
    obtain ⟨hs, hq⟩ := sendParcels_blocked hone hw hcr
    exact ⟨hs.trans h.sent, hq⟩

end

/-- The end of an own operation that is done. -/
theorem gopEnd_done {m : Mod} {op : Nat} (h : m.fed.own = some op) :
    (m.gopEnd op true).flag F.MESH_GOP_STATUS_BUSY = false ∧ (m.gopEnd op true).flag F.MESH_GOP_STATUS_DONE = true := by
  unfold gopEnd
  rw [if_pos h, iff_true]
  refine ⟨?_, flag_put_self _ _ _ _ (by decide) rfl⟩
  rw [flag_put_of_apart _ _ _ _ (by decide), flag_put_self _ _ _ _ (by decide) rfl]

/-- The end of an own operation leaves its status alone changed, and of the federation's state its being in flight. -/
structure OwnEnded (m t : Mod) : Prop where
  regs : OnlyRegs [(.MESH_GOP_STATUS, 0)] m t
  fed : ∃ o, t.fed = { m.fed with own := o }
  links : t.links = m.links
  mono : t.mono = m.mono

theorem OwnEnded.put {m t : Mod} (h : m.OwnEnded t) {f : Fld} (hf : f.reg = .MESH_GOP_STATUS) (b : Bool) : m.OwnEnded (t.put f 0 b) :=
  ⟨h.regs.trans (by rw [← hf]; exact onlyRegs_put t f 0 b), by rw [put_fed]; exact h.fed, (t.put_links _ _ _).trans h.links, (t.put_mono _ _ _).trans h.mono⟩

theorem gopEnd_ended (m : Mod) (op : Nat) (done : Bool) : m.OwnEnded (m.gopEnd op done) := by
  unfold gopEnd
  split
  · have hown : m.OwnEnded { m with fed := { m.fed with own := none } } := ⟨onlyRegs_of_regs rfl, ⟨none, rfl⟩, rfl, rfl⟩
    generalize ({ m with fed := { m.fed with own := none } } : Mod) = x at hown ⊢
    have hbusy := hown.put (f := F.MESH_GOP_STATUS_BUSY) rfl false
    exact iff_keeps (P := fun t => m.OwnEnded t) _ (hbusy.put rfl true) hbusy
  · exact ⟨.refl _ m, ⟨m.fed.own, rfl⟩, rfl, rfl⟩

/-! ### The root's part (R317 to R320) -/

/-- A message down a tree of no children goes nowhere. -/
theorem gopDown_none {m : Mod} (h : m.childLinks = []) (g : GopMsg) : m.gopDown g = m := by
  rw [gopDown, h]
  rfl

theorem childLinks_of {m t : Mod} (hl : t.links = m.links)
    (hr : ∀ r i, r ∈ [Reg.MESH_LINK_STATUS, .MESH_LG_CTRL, .CAR_STATUS] → t.reg r i = m.reg r i) : t.childLinks = m.childLinks := by
  have hlink : ∀ l, t.link l = m.link l := fun l => by rw [link, hl, link]
  have hcar : ∀ l vc, t.linkCarries l vc = m.linkCarries l vc := linkCarries_of (fun l => by rw [hlink]) hr
  simp only [childLinks, hlink, hcar]

theorem bitAt_or_self (n b : Nat) : bitAt (n ||| 2 ^ b) b = true := by
  rw [bitAt_eq_testBit, Nat.testBit_or, Nat.testBit_two_pow_self, Bool.or_true]

end Mod

end Sys2Proof.Machine

/-!
The federation's operations at the root and from the parent (R315 to R320).
-/
namespace Sys2Proof.Machine

namespace Mod

/-! ### Barriers at the root (R317) -/

theorem barReport_root {m : Mod} (h : m.isRoot = true) (b : Nat) : m.barReport b = m := by
  unfold barReport
  dsimp only
  rw [h]
  exact if_neg (by simp)

/-- The module with what was known of a barrier forgotten. -/
def barForgotten (m : Mod) (b : Nat) : Mod :=
  let arrived := m.fed.arrived.filter (· != b)
  let reported := m.fed.reported.filter (· != b)
  { m with fed := { m.fed with arrived := arrived, reports := m.fed.reports.filter (·.1 != b), reported := reported } }

theorem barRelease_eq (m : Mod) (b : Nat) :
    let y := (m.barForgotten b).gopDown (.barRelease (BitVec.ofNat 4 b))
    m.barRelease b = ((y.iff (y.barPart b) (fun m => (m.wr F.MESH_BAR_DONE_DONE 0 (m.rd F.MESH_BAR_DONE_DONE ||| 2 ^ b)).raise 168)).iff
      (m.fed.arrived.contains b) (fun m => m.gopEnd 1 true)).barReport b := rfl

theorem barDone_shows (m : Mod) {b : Nat} (hb : b < 16) :
    bitAt ((m.wr F.MESH_BAR_DONE_DONE 0 (m.rd F.MESH_BAR_DONE_DONE ||| 2 ^ b)).rd F.MESH_BAR_DONE_DONE) b = true := by
  generalize m.rd F.MESH_BAR_DONE_DONE = d
  rw [rd_wr_self _ _ _ _ (by decide), bitAt_eq_testBit, Nat.testBit_mod_two_pow, ← bitAt_eq_testBit, bitAt_or_self, Bool.and_true]
  exact decide_eq_true hb

/-- The release of a barrier at a root with no children that has arrived at it. -/
theorem barRelease_root {m : Mod} {b : Nat} (hb : b < 16) (hroot : m.isRoot = true) (hkids : m.childLinks = []) (hpart : m.barPart b = true)
    (harr : m.fed.arrived.contains b = true) (hown : m.fed.own = some 1) :
    let t := m.barRelease b
    t.flag F.MESH_GOP_STATUS_BUSY = false ∧ t.flag F.MESH_GOP_STATUS_DONE = true ∧ bitAt (t.rd F.MESH_BAR_DONE_DONE) b = true := by
  obtain ⟨y, hy⟩ : ∃ y, m.barForgotten b = y := ⟨_, rfl⟩
  have hyr : y.regs = m.regs := by rw [← hy, barForgotten]
  have hyl : y.links = m.links := by rw [← hy, barForgotten]
  have hyo : y.fed.own = some 1 := by rw [← hy, barForgotten]; exact hown
  have hyk : y.childLinks = [] := (childLinks_of hyl fun r i _ => reg_of_regs hyr r i).trans hkids
  have hyp : y.barPart b = true := by
    rw [← hpart, barPart, rd_of_regs hyr, barPart]
  obtain ⟨z, hz⟩ : ∃ z, (y.wr F.MESH_BAR_DONE_DONE 0 (y.rd F.MESH_BAR_DONE_DONE ||| 2 ^ b)).raise 168 = z := ⟨_, rfl⟩
  have hraise := (y.wr F.MESH_BAR_DONE_DONE 0 (y.rd F.MESH_BAR_DONE_DONE ||| 2 ^ b)).told_raise 168
  rw [hz] at hraise
  have hzo : z.fed.own = some 1 := by
    rw [hraise.fed_eq, wr_fed, hyo]
  have hbit : bitAt (z.rd F.MESH_BAR_DONE_DONE) b = true := by
    rw [hraise.regs.rd (by decide)]
    exact y.barDone_shows hb
  have hzroot : z.isRoot = true := by
    rw [isRoot, hraise.regs.flag (by decide), flag_wr_of_apart _ _ _ _ (by decide), flag_of_regs hyr]
    exact hroot
  have hend := z.gopEnd_ended 1 true
  obtain ⟨hbusy, hdone⟩ := gopEnd_done hzo
  have ht : m.barRelease b = z.gopEnd 1 true := by
    have heq := m.barRelease_eq b
    rw [hy] at heq
    rw [heq, gopDown_none hyk, hyp, iff_true, hz, harr, iff_true]
    exact barReport_root ((hend.regs.flag (by decide)).trans hzroot) b
  intro t
  rw [show t = _ from ht]
  exact ⟨hbusy, hdone, by rw [hend.regs.rd (by decide)]; exact hbit⟩

theorem barReady_alone {m : Mod} {b : Nat} (hkids : m.childLinks = []) (hpart : m.barPart b = true) (harr : m.fed.arrived.contains b = true) :
    m.barReady b = (true, true) := by
  unfold barReady
  rw [hkids, hpart, harr]
  rfl

section
variable {m : Mod} (hidle : m.flag F.MESH_GOP_STATUS_BUSY = false)
include hidle

/-- The own operation of a barrier begins: this module has arrived. -/
theorem gopCmd_arrives {b : Nat} (hpart : m.barPart b = true) (len : Nat) : ∃ x, m.gopCmd 1 b len = x.barCheck b ∧ m.OwnBegun x 1 ∧
    x.fed.arrived.contains b = true ∧ x.fed.reported.contains b = false ∧ x.barPart b = true := by
  have hbegun := m.gopBegin_begun 1
  rw [gopCmd_barrier hidle, hpart, if_neg (by decide)]
  generalize m.gopBegin 1 = y at hbegun ⊢
  refine ⟨_, rfl, ⟨hbegun.busy, hbegun.own, hbegun.links, hbegun.sent, hbegun.now, hbegun.bc, hbegun.snapGuard, hbegun.regs⟩, ?_, ?_, ?_⟩
  · exact List.elem_cons_self
  · rw [Bool.eq_false_iff]
    intro h
    rw [List.contains_iff_mem, List.mem_filter] at h
    simp at h
  · rw [← hpart, barPart, barPart, ← hbegun.rd_eq F.MESH_BAR_PART_PART 0 (by decide)]
    rfl

theorem barrier_root {b : Nat} (hb : b < 16) (hpart : m.barPart b = true) (hroot : m.isRoot = true) (hkids : m.childLinks = []) (len : Nat) :
    let t := m.gopCmd 1 b len
    (t.flag F.MESH_GOP_STATUS_BUSY = false ∧ t.flag F.MESH_GOP_STATUS_DONE = true) ∧ bitAt (t.rd F.MESH_BAR_DONE_DONE) b = true := by
  obtain ⟨x, hx, hbegun, harr, _, hxp⟩ := gopCmd_arrives hidle hpart len
  have hxk : x.childLinks = [] := hbegun.childLinks_eq.trans hkids
  have hxr : x.isRoot = true := hbegun.isRoot_eq.trans hroot
  have hcheck : x.barCheck b = x.barRelease b := by
    unfold barCheck
    rw [hxr, barReady_alone hxk hxp harr]
    rfl
  obtain ⟨hbusy, hdone, hbit⟩ := barRelease_root hb hxr hxk hxp harr hbegun.own
  intro t
  rw [show t = _ from hx.trans hcheck]
  exact ⟨⟨hbusy, hdone⟩, hbit⟩

/-- A module below the root reports a barrier that its subtree, itself, has reached. -/
theorem barrier_up {b : BitVec 4} {lp : Nat} (hpart : m.barPart b.toNat = true) (hroot : m.isRoot = false) (hp : m.parentLink = some lp)
    (hkids : m.childLinks = []) (len : Nat) : ∃ x, m.OwnBegun x 1 ∧ m.gopCmd 1 b.toNat len = x.gopUp (.barUp b true) := by
  obtain ⟨x, hx, hbegun, harr, hrep, hxp⟩ := gopCmd_arrives hidle hpart len
  have hxk : x.childLinks = [] := hbegun.childLinks_eq.trans hkids
  have hxr : x.isRoot = false := hbegun.isRoot_eq.trans hroot
  have hxl : x.parentLink.isSome = true := by rw [hbegun.parentLink_eq, hp]; rfl
  refine ⟨{ x with fed := { x.fed with reported := b.toNat :: x.fed.reported } }, ⟨hbegun.busy, hbegun.own, hbegun.links, hbegun.sent, hbegun.now, hbegun.bc,
    hbegun.snapGuard, hbegun.regs⟩, hx.trans ?_⟩
  have hb : BitVec.ofNat 4 b.toNat = b := by rw [BitVec.ofNat_toNat, BitVec.setWidth_eq]
  unfold barCheck
  rw [hxr, if_neg (by decide)]
  unfold barReport
  rw [barReady_alone hxk hxp harr, hxr, hrep, hxl, hb]
  rfl

end

/-! ### Broadcasts, snapshots and resets at the root (R318 to R320) -/

/-- A message delivered with room in the queue. -/
theorem bcDeliver_room {m : Mod} (h : m.fed.bc.length < 16) (src : Nat) (data : List Byte) : ∃ x, m.bcDeliver src data = x.iff (src == m.node) (fun m => m.gopEnd 2 true) ∧
    x.fed = { m.fed with bc := m.fed.bc ++ [(src, data)] } ∧ x.links = m.links ∧ OnlyRegs [(.EVR_UNROUTED, 0)] m x := by
  obtain ⟨y, hy⟩ : ∃ y, ({ m with fed := { m.fed with bc := m.fed.bc ++ [(src, data)] } } : Mod) = y := ⟨_, rfl⟩
  have hyr : y.regs = m.regs := by rw [← hy]
  have hyf : y.fed = { m.fed with bc := m.fed.bc ++ [(src, data)] } := by rw [← hy]
  have hyl : y.links = m.links := by rw [← hy]
  have hraise := y.told_raise 169
  obtain ⟨x, hx⟩ : ∃ x, y.raise 169 = x := ⟨_, rfl⟩
  rw [hx] at hraise
  have hregs : OnlyRegs [(.EVR_UNROUTED, 0)] m x := (onlyRegs_of_regs hyr).trans hraise.regs
  refine ⟨x, ?_, ?_, hraise.links_eq.trans hyl, hregs⟩
  · have hnode : x.node = m.node := by
      rw [node, hregs.rd (by decide), hregs.flag (by decide), hregs.flag (by decide), node]
    unfold bcDeliver
    rw [if_neg (by omega), hy, hx]
    dsimp only
    rw [hnode]
  · rw [hraise.fed_eq, hyf]

section
variable {m : Mod} (hidle : m.flag F.MESH_GOP_STATUS_BUSY = false) (hroot : m.isRoot = true) (hkids : m.childLinks = [])
include hidle hroot hkids

theorem broadcast_root (hroom : m.fed.bc.length < 16) (id len : Nat) :
    let t := m.gopCmd 2 id len
    (t.flag F.MESH_GOP_STATUS_BUSY = false ∧ t.flag F.MESH_GOP_STATUS_DONE = true) ∧
      t.fed.bc = m.fed.bc ++ [(m.node, ((upTo 8).flatMap (fun n => leBytes 4 (m.rd F.MESH_BC_TX_DATA n))).take len)] := by
  have hcmd := gopCmd_broadcast hidle id len
  dsimp only at hcmd
  generalize ((upTo 8).flatMap (fun n => leBytes 4 (m.rd F.MESH_BC_TX_DATA n))).take len = data at hcmd ⊢
  have hbegun := m.gopBegin_begun 2
  generalize m.gopBegin 2 = x at hcmd hbegun
  rw [hbegun.isRoot_eq.trans hroot, if_pos rfl, hbegun.node_eq] at hcmd
  obtain ⟨y, hy, hyf, hyl, hyr⟩ := bcDeliver_room (m := x) (by rw [hbegun.bc]; exact hroom) m.node data
  rw [hbegun.node_eq, beq_self_eq_true, iff_true] at hy
  have hyo : y.fed.own = some 2 := by rw [hyf]; exact hbegun.own
  have hend := y.gopEnd_ended 2 true
  obtain ⟨hbusy, hdone⟩ := gopEnd_done hyo
  generalize y.gopEnd 2 true = z at hy hend hbusy hdone
  have hzk : z.childLinks = [] := by
    rw [childLinks_of hend.links fun r i hri => hend.regs r i (by simp only [List.mem_cons, List.not_mem_nil, or_false] at hri ⊢; rcases hri with rfl | rfl | rfl <;> simp),
      childLinks_of hyl fun r i hri => hyr r i (by simp only [List.mem_cons, List.not_mem_nil, or_false] at hri ⊢; rcases hri with rfl | rfl | rfl <;> simp),
      hbegun.childLinks_eq, hkids]
  have ht : m.gopCmd 2 id len = z := by
    rw [hcmd, bcFlood, hy, gopDown_none hzk]
  obtain ⟨o, ho⟩ := hend.fed
  intro t
  rw [show t = z from ht]
  refine ⟨⟨hbusy, hdone⟩, ?_⟩
  rw [ho, hyf]
  show x.fed.bc ++ _ = _
  rw [hbegun.bc]

theorem snapshot_root (hguard : m.fed.snapGuard ≤ m.now) (id len : Nat) :
    let t := m.gopCmd 3 id len
    t.flag F.MESH_GOP_STATUS_BUSY = true ∧ t.fed.snapAt = some (m.now + m.rd F.MESH_SNAP_LEAD_LEAD) ∧
      t.fed.snapGuard = m.now + m.rd F.MESH_SNAP_LEAD_LEAD + 25000 := by
  have hcmd := gopCmd_snapshot hidle id len
  have hbegun := m.gopBegin_begun 3
  dsimp only at hcmd
  generalize m.gopBegin 3 = x at hcmd hbegun
  rw [hbegun.isRoot_eq.trans hroot, if_pos rfl] at hcmd
  have hlead : x.leadInstant = m.now + m.rd F.MESH_SNAP_LEAD_LEAD := by rw [leadInstant, hbegun.now, hbegun.rd_eq _ _ (by decide)]
  unfold snapRoot at hcmd
  rw [if_neg (by rw [hbegun.now, hbegun.snapGuard]; omega)] at hcmd
  dsimp only at hcmd
  rw [hlead] at hcmd
  obtain ⟨y, hy⟩ : ∃ y, ({ x with fed := { x.fed with snapGuard := m.now + m.rd F.MESH_SNAP_LEAD_LEAD + 25000 } } : Mod) = y := ⟨_, rfl⟩
  have hyk : y.childLinks = [] := by
    rw [← hbegun.childLinks_eq] at hkids
    exact (childLinks_of (by rw [← hy]) fun r i _ => by rw [← hy]; rfl).trans hkids
  have hyn : y.now = m.now := by rw [← hy]; exact hbegun.now
  have hyf : y.fed = { x.fed with snapGuard := m.now + m.rd F.MESH_SNAP_LEAD_LEAD + 25000 } := by rw [← hy]
  have hyr : y.regs = x.regs := by rw [← hy]
  rw [hy, gopDown_none hyk] at hcmd
  unfold snapSet at hcmd
  rw [if_neg (by dsimp only; rw [hyn]; omega)] at hcmd
  intro t
  rw [show t = _ from hcmd]
  refine ⟨?_, rfl, ?_⟩
  · rw [← hbegun.busy]
    exact flag_of_regs (show _ = x.regs from hyr) _ _
  · show y.fed.snapGuard = _
    rw [hyf]

theorem reset_root (id len : Nat) :
    let t := m.gopCmd 4 id len
    t.flag F.MESH_GOP_STATUS_BUSY = true ∧ t.fed.resetAt = some (m.now + m.rd F.MESH_SNAP_LEAD_LEAD) := by
  have hcmd := gopCmd_reset hidle id len
  have hbegun := m.gopBegin_begun 4
  dsimp only at hcmd
  generalize m.gopBegin 4 = x at hcmd hbegun
  rw [hbegun.isRoot_eq.trans hroot, if_pos rfl] at hcmd
  have hlead : x.leadInstant = m.now + m.rd F.MESH_SNAP_LEAD_LEAD := by rw [leadInstant, hbegun.now, hbegun.rd_eq _ _ (by decide)]
  unfold resetRoot at hcmd
  dsimp only at hcmd
  rw [hlead, gopDown_none (hbegun.childLinks_eq.trans hkids)] at hcmd
  intro t
  rw [show t = _ from hcmd]
  exact ⟨hbegun.busy, rfl⟩

end

end Mod

end Sys2Proof.Machine

/-!
The federation's operations: their instants, and what comes from the parent and the children (R315 to R320).
-/
namespace Sys2Proof.Machine

namespace Mod

/-! ### Instants (R319, R320) -/

/-- The copy of a snapshot at its instant: whole, or refused at a line. -/
theorem snapNow_copies {m m1 : Mod} {t0 : Nat} {whole : Bool} (hat : m.fed.snapAt = some t0) (hbusy : m.fed.snapBusy = false)
    (hl : (m.toNow t0).snapLines 0 8192 = (m1, whole)) :
    if whole then m.snapNow = { m1 with fed := { m1.fed with snapBusy := true } }
    else m.snapNow.fed.snapAt = none ∧ m.snapNow.flag F.MESH_GOP_STATUS_REFUSED = true := by
  have hnow : m.snapNow = (m.toNow t0).snapCopy := by
    unfold snapNow
    rw [hat]
    dsimp only
    rw [hbusy]
    rfl
  rw [hnow]
  unfold snapCopy
  rw [hl]
  cases whole with
  | true => rfl
  | false =>
    dsimp only
    rw [if_neg (by decide)]
    obtain ⟨x, hx⟩ : ∃ x, ({ m1 with fed := { m1.fed with snapAt := none } } : Mod) = x := ⟨_, rfl⟩
    have hxf : x.fed.snapAt = none := by rw [← hx]
    have hraise := (x.put F.MESH_GOP_STATUS_REFUSED 0 true).told_raise 170
    rw [hx]
    have hrf : ((x.put F.MESH_GOP_STATUS_REFUSED 0 true).raise 170).fed.snapAt = none := by rw [hraise.fed_eq, put_fed, hxf]
    have hrr : ((x.put F.MESH_GOP_STATUS_REFUSED 0 true).raise 170).flag F.MESH_GOP_STATUS_REFUSED = true := by
      rw [hraise.regs.flag (by decide), flag_put_self _ _ _ _ (by decide) rfl]
    generalize (x.put F.MESH_GOP_STATUS_REFUSED 0 true).raise 170 = y at hrf hrr
    unfold gopEnd
    split
    · rw [iff_false]
      refine ⟨?_, ?_⟩
      · rw [put_fed]
        exact hrf
      · rw [flag_put_of_apart _ _ _ _ (by decide)]
        exact hrr
    · exact ⟨hrf, hrr⟩

/-- The end of the copy. -/
theorem snapDone_ends {m : Mod} {t0 : Nat} (hat : m.fed.snapAt = some t0) (hbusy : m.fed.snapBusy = true) :
    let t := m.snapDone
    t.rd F.MESH_SNAP_TIME_TIME = t0 % 2 ^ 64 ∧ t.fed.snapAt = none ∧ t.fed.snapBusy = false ∧
      (m.fed.own = some 3 → t.flag F.MESH_GOP_STATUS_BUSY = false ∧ t.flag F.MESH_GOP_STATUS_DONE = true) := by
  obtain ⟨x, hx⟩ : ∃ x, ({ m with fed := { m.fed with snapAt := none, snapBusy := false } } : Mod) = x := ⟨_, rfl⟩
  have hxf : x.fed = { m.fed with snapAt := none, snapBusy := false } := by rw [← hx]
  have hraise := (x.wr F.MESH_SNAP_TIME_TIME 0 t0).told_raise 170
  have ht : m.snapDone = ((x.wr F.MESH_SNAP_TIME_TIME 0 t0).raise 170).gopEnd 3 true := by
    unfold snapDone
    rw [hat]
    dsimp only
    rw [hbusy, if_pos rfl, hx]
  have hyf : ((x.wr F.MESH_SNAP_TIME_TIME 0 t0).raise 170).fed = x.fed := by rw [hraise.fed_eq, wr_fed]
  have hyt : ((x.wr F.MESH_SNAP_TIME_TIME 0 t0).raise 170).rd F.MESH_SNAP_TIME_TIME = t0 % 2 ^ 64 := by
    rw [hraise.regs.rd (by decide)]
    exact x.rd_wr_self F.MESH_SNAP_TIME_TIME 0 t0 (by decide)
  generalize (x.wr F.MESH_SNAP_TIME_TIME 0 t0).raise 170 = y at ht hyf hyt
  have hend := y.gopEnd_ended 3 true
  obtain ⟨o, ho⟩ := hend.fed
  intro t
  rw [show t = _ from ht]
  refine ⟨(hend.regs.rd (by decide)).trans hyt, ?_, ?_, fun hown => gopEnd_done (by rw [hyf, hxf]; exact hown)⟩
  · rw [ho, hyf, hxf]
  · rw [ho, hyf, hxf]

/-- The instant of a federation reset comes: the operation ends, and the module is reset where it may be, or tells it. -/
theorem fedResetNow_eq {m : Mod} {t0 : Nat} (h : m.fed.resetAt = some t0) :
    let m' := ({ m.toNow t0 with fed := { m.fed with resetAt := none } } : Mod).gopEnd 4 true
    m.fedResetNow = if m.flag F.MESH_CTRL_GRESET_EN then m'.deviceReset 3 else m'.raise 171 := by
  intro m'
  obtain ⟨x, hx⟩ : ∃ x, ({ m.toNow t0 with fed := { m.fed with resetAt := none } } : Mod) = x := ⟨_, rfl⟩
  have hxr : x.regs = m.regs := by rw [← hx]; exact regs_toNow m t0
  have hm' : m' = x.gopEnd 4 true := by rw [← hx]
  have hflag : m'.flag F.MESH_CTRL_GRESET_EN = m.flag F.MESH_CTRL_GRESET_EN := by
    rw [hm', (x.gopEnd_ended 4 true).regs.flag (by decide), flag_of_regs hxr]
  unfold fedResetNow
  rw [h]
  dsimp only
  rw [hx, ← hm', hflag]

theorem fedReset_told {m : Mod} (t0 : Nat) :
    let m' := ({ m.toNow t0 with fed := { m.fed with resetAt := none } } : Mod).gopEnd 4 true
    (m'.raise 171).fed.resetAt = none ∧ (m'.raise 171).mono = (m.toNow t0).mono ∧
      (m.fed.own = some 4 → (m'.raise 171).flag F.MESH_GOP_STATUS_BUSY = false ∧ (m'.raise 171).flag F.MESH_GOP_STATUS_DONE = true) := by
  obtain ⟨x, hx⟩ : ∃ x, ({ m.toNow t0 with fed := { m.fed with resetAt := none } } : Mod) = x := ⟨_, rfl⟩
  have hxf : x.fed = { m.fed with resetAt := none } := by rw [← hx]
  have hxm : x.mono = (m.toNow t0).mono := by rw [← hx]
  rw [hx]
  have hend := x.gopEnd_ended 4 true
  have hdone : m.fed.own = some 4 → _ := fun hown => gopEnd_done (m := x) (op := 4) (by rw [hxf]; exact hown)
  obtain ⟨o, ho⟩ := hend.fed
  intro m'
  have hm' : m' = x.gopEnd 4 true := rfl
  rw [← hm'] at hend hdone ho
  have hraise := m'.told_raise 171
  refine ⟨?_, hraise.mono_eq.trans (hend.mono.trans hxm), fun hown => ?_⟩
  · rw [hraise.fed_eq, ho, hxf]
  · rw [hraise.regs.flag (by decide), hraise.regs.flag (by decide)]
    exact hdone hown

/-! ### From the parent and from children (R315, R316) -/

section
variable {m : Mod} {l : Nat} (hc : m.linkCarries l 2 = true) (hmem : m.isMember = true)
include hc hmem

/-- A message of the federation on a link that carries it: its credit back, then its meaning. -/
theorem gopIn_parent (hp : m.parentLink = some l) (g : GopMsg) : ∃ w, m.gopIn l g = ({ m with wire := w } : Mod).gopDownIn g := by
  obtain ⟨w, hw⟩ := m.giveCredits_frame l 2 1
  refine ⟨w, ?_⟩
  unfold gopIn
  rw [hc, iff_true, hw]
  have hcar : ({ m with wire := w } : Mod).linkCarries l 2 = true := hc
  have hmem' : ({ m with wire := w } : Mod).isMember = true := hmem
  have hp' : ({ m with wire := w } : Mod).parentLink = some l := hp
  generalize ({ m with wire := w } : Mod) = x at hcar hmem' hp' ⊢
  dsimp only
  rw [hcar, hmem', if_neg (by decide), if_pos hp']

theorem memberIn_flood (hp : m.parentLink = some l) (ms : List (BitVec 12 × Bool)) : ∃ w, m.memberIn l (.flood ms) = ({ m with wire := w } : Mod).floodIn ms := by
  obtain ⟨w, hw⟩ := m.giveCredits_frame l 2 1
  refine ⟨w, ?_⟩
  unfold memberIn
  rw [hc, iff_true, hw, hp]
  have hcar : ({ m with wire := w } : Mod).linkCarries l 2 = true := hc
  have hmem' : ({ m with wire := w } : Mod).isMember = true := hmem
  generalize ({ m with wire := w } : Mod) = x at hcar hmem' ⊢
  dsimp only
  rw [hcar, hmem', if_neg (by decide), if_pos (by simp)]

theorem memberIn_claim (hp : m.parentLink ≠ some l) (node : BitVec 12) (ident : BitVec 256) (v2 : Bool) (hops : BitVec 8) :
    ∃ w, m.memberIn l (.claim node ident v2 hops) = ({ m with wire := w } : Mod).claimIn l node ident v2 hops := by
  obtain ⟨w, hw⟩ := m.giveCredits_frame l 2 1
  refine ⟨w, ?_⟩
  unfold memberIn
  rw [hc, iff_true, hw]
  have hcar : ({ m with wire := w } : Mod).linkCarries l 2 = true := hc
  have hmem' : ({ m with wire := w } : Mod).isMember = true := hmem
  generalize ({ m with wire := w } : Mod) = x at hcar hmem' ⊢
  dsimp only
  rw [hcar, hmem', if_neg (by decide), if_neg (by simpa using hp)]

end

/-- A broadcast from the parent is put in the queue. -/
theorem bcDown_taken {m : Mod} {src : BitVec 12} (hroom : m.fed.bc.length < 16) (hsrc : src.toNat ≠ m.node) (data : List Byte) :
    (m.gopDownIn (.bcDown src data)).fed.bc = m.fed.bc ++ [(src.toNat, data)] := by
  obtain ⟨x, hx, hf, _, _⟩ := bcDeliver_room hroom src.toNat data
  rw [beq_eq_false_iff_ne.mpr hsrc, iff_false] at hx
  have hdown : (x.gopDown (.bcDown src data)).fed = x.fed := by
    refine each_keeps (P := fun t => t.fed = x.fed) (fun t l ht => ?_) _ rfl
    have hu := t.unsent_sendParcels l none [.gop (.bcDown src data)]
    generalize t.sendParcels l none [.gop (.bcDown src data)] = u at hu ⊢
    exact (congrArg Mod.fed hu :).trans ht
  show ((m.bcDeliver src.toNat data).gopDown (.bcDown src data)).fed.bc = _
  rw [hx, hdown, hf]

/-- The words of a membership are of 32 bits. -/
theorem memberWord_lt (l : List (Nat × Bool)) (n : Nat) : memberWord l n < 2 ^ 32 := by
  suffices h : ∀ a, a < 2 ^ 32 → l.foldl (fun a e => if e.1 / 32 = n then a ||| 2 ^ (e.1 % 32) else a) a < 2 ^ 32 from h 0 (by decide)
  induction l with
  | nil => exact fun a ha => ha
  | cons e l ih =>
    intro a ha
    refine ih _ ?_
    dsimp only
    split
    · exact Nat.or_lt_two_pow ha (Nat.pow_lt_pow_right (by decide) (Nat.mod_lt _ (by decide)))
    · exact ha

/-- The membership taken shows word by word. -/
theorem setMembers_shows {m : Mod} {l : List (Nat × Bool)} (hl : ∀ e ∈ l, e.1 < 4095) {n : Nat} (hn : n < 128) :
    (m.setMembers l).rd F.MESH_MEMBER_MEMBER n = memberWord l n := by
  have hself : l.filter (fun e => decide (e.1 < 4095)) = l := List.filter_eq_self.mpr fun e he => decide_eq_true (hl e he)
  unfold setMembers
  dsimp only
  rw [hself]
  generalize hx : ({ m with fed := _ } : Mod) = x
  obtain ⟨y, _, hy⟩ := each_at (R := fun a b : Mod => b.rd F.MESH_MEMBER_MEMBER n = a.rd F.MESH_MEMBER_MEMBER n) (f := fun m n => m.wr F.MESH_MEMBER_MEMBER n (memberWord l n))
    (j := n) (fun _ => rfl) (fun h h' => h'.trans h) (fun m i hi => rd_wr_reg m _ _ _ _ _ fun e => hi e.2.symm) (List.nodup_range (n := 128)) (List.mem_range.mpr hn) x
  have hword : (x.each (upTo 128) (fun m n => m.wr F.MESH_MEMBER_MEMBER n (memberWord l n))).rd F.MESH_MEMBER_MEMBER n = memberWord l n :=
    hy.trans ((y.rd_wr_self F.MESH_MEMBER_MEMBER n _ (by decide)).trans (Nat.mod_eq_of_lt (memberWord_lt l n)))
  generalize x.each (upTo 128) (fun m n => m.wr F.MESH_MEMBER_MEMBER n (memberWord l n)) = z at hword ⊢
  generalize ((upTo 128).map (fun n => (setBits 32 (memberWord l n)).length)).sum = count
  have hstatus : ((z.wr F.MESH_STATUS_MEMBERS 0 count).put F.MESH_STATUS_V1_PRESENT 0 (l.any (fun e => !e.2))).rd F.MESH_MEMBER_MEMBER n = memberWord l n := by
    rw [rd_put_of_apart _ _ _ _ (by decide), rd_wr_of_apart _ _ _ _ (by decide), hword]
  generalize (z.wr F.MESH_STATUS_MEMBERS 0 count).put F.MESH_STATUS_V1_PRESENT 0 (l.any (fun e => !e.2)) = u at hstatus ⊢
  split
  · exact hstatus
  · exact (((u.treeKept_raise 171).trans (treeKept_gopAbandon _)).frame.rd _ _ (by decide)).trans hstatus

theorem floodIn_shows {m : Mod} {ms : List (BitVec 12 × Bool)} (h : ∀ e ∈ ms, e.1.toNat < 4095) {n : Nat} (hn : n < 128) :
    (m.floodIn ms).rd F.MESH_MEMBER_MEMBER n = memberWord (ms.map (fun e => (e.1.toNat, e.2))) n := by
  unfold floodIn
  rw [(treeKept_memberDown _ _).frame.rd _ _ (by decide)]
  refine setMembers_shows (fun e he => ?_) hn
  obtain ⟨x, hx, rfl⟩ := List.mem_map.mp he
  exact h x hx

/-- A member's own entry from a child goes up, and its link is a child's. -/
theorem claimIn_up {m : Mod} {l lp : Nat} (hp : m.parentLink = some lp) (hne : lp ≠ l) (hroot : m.isRoot = false) (hf : FreeLink m lp)
    (node : BitVec 12) (ident : BitVec 256) (v2 : Bool) (hops : BitVec 8) :
    let t := m.claimIn l node ident v2 hops
    (t.link l).child = true ∧ t.sent = .member lp (.claim node ident v2 hops) :: m.sent ∧ t.regs = m.regs := by
  obtain ⟨x, hx⟩ : ∃ x, m.setLink l { m.link l with child := true } = x := ⟨_, rfl⟩
  have hkept := m.treeKept_setChild l true
  rw [hx] at hkept
  have hxr : x.regs = m.regs := by rw [← hx, setLink_regs]
  have hxs : x.sent = m.sent := by rw [← hx, setLink_sent]
  have hxc : (x.link l).child = true := by rw [← hx, link_setLink_self]
  have hxp : x.link lp = m.link lp := by rw [← hx, link_setLink_ne m _ hne]
  obtain ⟨f, hfed⟩ : ∃ f : Fed, m.claimIn l node ident v2 hops = ({ x with fed := f } : Mod).memberUp (.claim node ident v2 hops) := by
    have hxroot : x.isRoot = false := (flag_of_regs hxr F.TB_STATUS_IS_GM 0).trans hroot
    refine ⟨{ x.fed with ids := x.fed.ids.filter (fun e => !(e.node == node.toNat && e.ident == ident.toNat)) ++ [⟨node.toNat, ident.toNat, v2, hops.toNat, l⟩] }, ?_⟩
    unfold claimIn
    rw [hx]
    dsimp only
    rw [hxroot]
    rfl
  obtain ⟨y, hy⟩ : ∃ y, ({ x with fed := f } : Mod) = y := ⟨_, rfl⟩
  have hyr : y.regs = m.regs := by rw [← hy]; exact hxr
  have hyl : ∀ j, y.link j = x.link j := fun j => by rw [← hy]; rfl
  have hys : y.sent = m.sent := by rw [← hy]; exact hxs
  have hcar : ∀ j vc, y.linkCarries j vc = m.linkCarries j vc :=
    linkCarries_of (fun j => by rw [hyl]; exact hkept.usable j) fun r i _ => reg_of_regs hyr r i
  have hyp : y.parentLink = some lp := by
    rw [← hp]
    have hgm : ∀ j, (y.link j).gmHops = (m.link j).gmHops := fun j => by rw [hyl]; exact hkept.gmHops j
    simp only [parentLink, flag_of_regs hyr, rd_of_regs hyr, hcar, hgm]
  have hfree : FreeLink y lp := by
    have hcr : y.credits lp 2 = m.credits lp 2 := rd_of_regs hyr F.MESH_LINK_CRED2_VC2 lp
    rw [FreeLink, hyl, hxp, hcr]
    exact hf
  have hup : y.memberUp (.claim node ident v2 hops) = y.sendParcels lp none [.member (.claim node ident v2 hops)] := by
    unfold memberUp
    rw [hyp]
  intro t
  rw [show t = _ from hfed.trans ((congrArg (fun z => Mod.memberUp z (.claim node ident v2 hops)) hy).trans hup)]
  refine ⟨?_, ?_, (regs_of_unsent (y.unsent_sendParcels lp none _)).trans hyr⟩
  · rw [link_sendParcels_ne y (Ne.symm hne) none _, hyl, hxc]
  · rw [(sendParcels_free ⟨rfl, fun _ => rfl, fun _ => rfl⟩ hfree).1, hys]
    rfl

end Mod

/-- Settles O42. -/
theorem federationOperationsTravelTheTree : Obligations.FederationOperationsTravelTheTree := by
  intro s w b len l lp t0 src node data ident v2 hops members m1 whole m bytes busy done up
  refine ⟨fun hb hlen c hc => ?busy, fun hb hlen => ⟨?refused, ?root, ?below⟩, ?snap, ?copied, ?reset, ?noReset, fun hc hm => ⟨?bc, ?resetAt, ?flood, ?claim⟩,
    does_next rfl rfl⟩
  case busy =>
    have hlost := Mod.gopCmd_busy hb
    simp only [List.mem_cons, List.not_mem_nil, or_false] at hc
    rcases hc with rfl | rfl | rfl | rfl
    · exact does_next rfl (hlost 1 b.toNat 0)
    · exact does_next rfl ((if_pos hlen).trans (hlost 2 0 len.toNat))
    · exact does_next rfl (hlost 3 0 0)
    · exact does_next rfl (hlost 4 0 0)
  case refused =>
    intro hp
    exact does_next rfl ((Mod.gopCmd_barrier hb _ _).trans (if_pos (by rw [hp]; rfl)))
  case root =>
    intro hr hk
    refine ⟨fun hp => does_next rfl (Mod.barrier_root hb b.isLt hp hr hk 0), fun hroom => does_next rfl ?_, fun hg => does_next rfl (Mod.snapshot_root hb hr hk hg 0 0),
      does_next rfl (Mod.reset_root hb hr hk 0 0)⟩
    dsimp only
    rw [if_pos hlen]
    exact Mod.broadcast_root hb hr hk hroom 0 len.toNat
  case below =>
    intro hr hp hk
    refine ⟨fun hpart => does_next rfl ?_, does_next rfl ?_, does_next rfl ?_, does_next rfl ?_⟩
    · obtain ⟨x, hbegun, hx⟩ := Mod.barrier_up hb hpart hr hp hk 0
      dsimp only
      rw [hx]
      exact hbegun.up hp
    · have hbegun := m.gopBegin_begun 2
      have hx := Mod.gopCmd_broadcast hb 0 len.toNat
      dsimp only at hx ⊢
      rw [if_pos hlen, hx, hbegun.isRoot_eq.trans hr, hbegun.node_eq, if_neg (by decide)]
      exact hbegun.up hp
    · have hbegun := m.gopBegin_begun 3
      have hx := Mod.gopCmd_snapshot hb 0 0
      dsimp only at hx ⊢
      rw [hx, hbegun.isRoot_eq.trans hr, hbegun.node_eq, if_neg (by decide)]
      exact hbegun.up hp
    · have hbegun := m.gopBegin_begun 4
      have hx := Mod.gopCmd_reset hb 0 0
      dsimp only at hx ⊢
      rw [hx, hbegun.isRoot_eq.trans hr, hbegun.node_eq, if_neg (by decide)]
      exact hbegun.up hp
  case snap => exact fun hat hbusy hl => does_next rfl (Mod.snapNow_copies hat hbusy hl)
  case copied => exact fun hat hbusy => does_next rfl (Mod.snapDone_ends hat hbusy)
  case reset =>
    intro hat m'
    have heq := Mod.fedResetNow_eq hat
    refine ⟨fun hen => does_next rfl (heq.trans (if_pos hen)), fun hen => does_next rfl ?_⟩
    have ht : s.mod.fedResetNow = _ := heq.trans (if_neg (by rw [hen]; decide))
    exact ⟨ht, by rw [ht]; exact Mod.fedReset_told t0⟩
  case noReset =>
    intro h
    refine does_next rfl ?_
    unfold Mod.fedResetNow
    rw [show s.mod.fed.resetAt = none from h]
  case bc =>
    intro hp hroom hsrc
    obtain ⟨wire, hw⟩ := Mod.gopIn_parent hc hm hp (.bcDown src data)
    exact does_next rfl (by dsimp only; rw [hw]; exact Mod.bcDown_taken (m := { m with wire := wire }) hroom hsrc data)
  case resetAt =>
    intro hp
    obtain ⟨wire, hw⟩ := Mod.gopIn_parent hc hm hp (.resetAt (BitVec.ofNat 64 t0))
    refine does_next rfl ?_
    dsimp only
    rw [hw]
    exact congrArg some (BitVec.toNat_ofNat t0 64)
  case flood =>
    intro hp hall
    obtain ⟨wire, hw⟩ := Mod.memberIn_flood hc hm hp members
    exact does_next rfl (by dsimp only; rw [hw]; exact fun n hn => Mod.floodIn_shows hall hn)
  case claim =>
    intro hp hne hr hf
    obtain ⟨wire, hw⟩ := Mod.memberIn_claim hc hm (by rw [hp]; exact fun e => hne (Option.some.inj e)) node ident v2 hops
    exact does_next rfl (by dsimp only; rw [hw]; exact Mod.claimIn_up (m := { m with wire := wire }) hp hne hr hf node ident v2 hops)

end Sys2Proof.Machine

/-!
Responses to this module's own requests, and time-outs (R311).
-/
namespace Sys2Proof.Machine

namespace Mod

/-! ### The end of a request (R310 to R312) -/

/-- A module without its links' state, what has left on them, and the requests under way. -/
def unasked (m : Mod) : Mod := { m.unsent with req := [], heldReqs := [] }

theorem unasked_of_unsent {m t : Mod} (h : t.unsent = m.unsent) : t.unasked = m.unasked := congrArg (fun x : Mod => { x with req := [], heldReqs := [] }) h

theorem unsent_sendOn (m : Mod) (l : Nat) (ph : Bool) (f : Flit) (data : List Flit) (origin : Option Nat) :
    (m.sendOn l ph f data origin).unsent = m.unsent := by
  unfold sendOn
  dsimp only
  generalize (if m.isV1 l = true then { f with deadline := 0, late := false } else f) = g
  split
  · refine (unsent_sendParcels _ _ _ _).trans ?_
    cases origin with
    | none => rfl
    | some o => exact m.unsent_giveCredits _ _ _
  · exact m.unsent_sendParcels _ _ _

theorem req_of_unsent {m t : Mod} (h : t.unsent = m.unsent) : t.req = m.req := (congrArg Mod.req h :)

/-- From `m` to `t` requests held back may have gone out: no request has come or ended, and the rest of the module stays. -/
def HeldGone (m t : Mod) : Prop := t.unasked = m.unasked ∧ t.req.map (·.tid) = m.req.map (·.tid)

theorem heldGone_sendOn (m : Mod) (l : Nat) (ph : Bool) (f : Flit) (data : List Flit) (origin : Option Nat) : m.HeldGone (m.sendOn l ph f data origin) := by
  have h := m.unsent_sendOn l ph f data origin
  generalize m.sendOn l ph f data origin = t at h
  exact ⟨unasked_of_unsent h, by rw [req_of_unsent h]⟩

theorem HeldGone.trans {m n t : Mod} (h : m.HeldGone n) (h' : n.HeldGone t) : m.HeldGone t := ⟨h'.1.trans h.1, h'.2.trans h.2⟩

theorem heldGone_releaseHeld (m : Mod) (node : Nat) : m.HeldGone (m.releaseHeld node) := by
  unfold releaseHeld
  split
  · exact ⟨rfl, rfl⟩
  · refine each_keeps (P := fun t => m.HeldGone t) (fun t h ht => ht.trans ?_) _ ⟨rfl, rfl⟩
    split
    · exact ⟨rfl, rfl⟩
    · split
      · exact ⟨rfl, rfl⟩
      · dsimp only
        generalize hx : ({ t with heldReqs := _, req := _ } : Mod) = x
        have hgone : t.HeldGone x := by
          rw [← hx]
          refine ⟨rfl, ?_⟩
          rw [List.map_map]
          exact List.map_congr_left fun r _ => by dsimp only [Function.comp]; split <;> rfl
        split
        · exact hgone.trans (x.heldGone_sendOn _ _ _ _ _)
        · exact hgone

/-- A request ends: it alone leaves the table. -/
theorem endRequest_ends {m : Mod} {r : MeshReq} (h : r ∈ m.req) :
    (m.endRequest r.tid).unasked = m.unasked ∧ ∀ x ∈ (m.endRequest r.tid).req, x.tid ≠ r.tid := by
  obtain ⟨r', hr'⟩ : ∃ r', m.req.find? (·.tid == r.tid) = some r' := by
    cases hf : m.req.find? (·.tid == r.tid) with
    | some r' => exact ⟨r', rfl⟩
    | none => exact absurd (List.find?_eq_none.mp hf r h) (by simp)
  unfold endRequest
  rw [hr']
  dsimp only
  generalize hx : ({ m with req := _, heldReqs := _ } : Mod) = x
  have hreq : x.req = m.req.filter (·.tid != r.tid) := by rw [← hx]
  obtain ⟨hrest, htids⟩ := x.heldGone_releaseHeld r'.node
  generalize x.releaseHeld r'.node = t at hrest htids
  refine ⟨hrest.trans (by rw [← hx]; rfl), fun y hy he => ?_⟩
  have hmem : y.tid ∈ x.req.map (·.tid) := htids ▸ List.mem_map_of_mem hy
  obtain ⟨z, hz, hze⟩ := List.mem_map.mp hmem
  rw [hreq, List.mem_filter] at hz
  exact absurd (hze.trans he) (by simpa using hz.2)

section
variable {m t : Mod} (h : t.unasked = m.unasked)
include h

theorem core_of_unasked (c : Nat) : t.core c = m.core c := by
  have hc : t.cores = m.cores := (congrArg Mod.cores h :)
  rw [core, hc, core]
theorem regs_of_unasked : t.regs = m.regs := (congrArg Mod.regs h :)
theorem mem_of_unasked : t.mem = m.mem := (congrArg Mod.mem h :)
theorem mono_of_unasked : t.mono = m.mono := (congrArg Mod.mono h :)

end

/-! ### What came reaches the core -/

/-- A waiting access of a core whose request has failed has the fault. -/
theorem waitCame_failed (m : Mod) (c tid kind : Nat) {w : Wait} (hw : w ∈ ((m.waitCame c tid (.failed kind)).core c).waits) (ht : w.tid = tid) :
    w.fault = some kind := by
  unfold waitCame at hw
  rw [core_setCore_self] at hw
  obtain ⟨v, _, rfl⟩ := List.mem_map.mp hw
  dsimp only at ht ⊢
  split at ht
  · next hne => exact absurd ht hne
  · next he => rw [if_neg he]

/-- The store of a core that is acknowledged leaves its store buffer. -/
theorem storeCame_done {m : Mod} {c tid : Nat} {e : StoreEnt} (h : (m.core c).sb.find? (fun x => x.sent == some tid) = some e) (old : List Byte) (tag : Bool) :
    m.storeCame c tid (.done old tag) = m.setCore c { m.core c with sb := (m.core c).sb.erase e } := by
  unfold storeCame
  rw [h]

/-! ### Responses over an attested link (R311) -/

section
variable {m : Mod} {l : Nat} {f : Flit} {ds : List Flit} {t : Nat} {ok : Mod → MeshReq → Bool} {serve : Mod → MeshReq → Mod}
  (hl : m.linkState l = 4) (hd : f.dst.toNat = m.node) (ht : f.ftype.toNat = t)
include hl hd ht

/-- A response that no request awaits gives its credits back. -/
theorem answered_none (hf : m.req.find? (fun x => x.tid == f.tid.toNat && x.via.isSome) = none) :
    m.answered l f ds t ok serve = m.giveCredits l f.vc.toNat (1 + ds.length) := by
  obtain ⟨w, hw⟩ := m.giveCredits_frame l f.vc.toNat (1 + ds.length)
  unfold answered brings linkUp
  rw [hl, ht, hd, if_neg (by simp), if_neg (by simp), hw]
  dsimp only
  rw [hf]

/-- A response in time that its request awaits is served. -/
theorem answered_some {r : MeshReq} (hf : m.req.find? (fun x => x.tid == f.tid.toNat && x.via.isSome) = some r) (hlate : f.late = false)
    (hdl : m.pastDeadline r.deadline = false) (hok : ∀ w, ok { m with wire := w } r = true) :
    m.answered l f ds t ok serve = serve (m.giveCredits l f.vc.toNat (1 + ds.length)) r := by
  obtain ⟨w, hw⟩ := m.giveCredits_frame l f.vc.toNat (1 + ds.length)
  unfold answered brings linkUp
  rw [hl, ht, hd, if_neg (by simp), if_neg (by simp), hw]
  dsimp only
  rw [hf]
  have hpast : ({ m with wire := w } : Mod).pastDeadline r.deadline = false := hdl
  dsimp only
  rw [hok w, hlate, hpast, if_neg (by decide)]
  rfl

end

/-- The last lines of a core's read. -/
theorem linesCame_last {m : Mod} {l c : Nat} {r : MeshReq} (f : Flit) (ds : List Flit) (hw : r.who = .core c) (hg : r.got = []) (hl : r.lines ≤ 1) :
    m.linesCame l r (f :: ds) = (m.endRequest r.tid).waitCame c r.tid
      (.data ((((f :: ds).flatMap (fun x => leBytes 64 x.payload.toNat)).drop (r.addr % 64)).take r.size)
        ((m.endRequest r.tid).keptTags (m.flag F.MESH_LINK_STATUS_ATTESTED l) f.payload f.tags.toNat) ((f :: ds).any (·.poison))) := by
  unfold linesCame
  rw [hg, List.nil_append, if_neg (by rw [List.length_cons]; omega)]
  dsimp only
  unfold came
  rw [hw]

/-- The last ACK of a store of a core. -/
theorem ackCame_store {m : Mod} {l c : Nat} {r : MeshReq} {f : Flit} {e : StoreEnt} (hw : r.who = .coreStore c) (hl : r.lines ≤ 1) (hp : f.poison = false)
    (hr : r ∈ m.req) (he : (m.core c).sb.find? (fun x => x.sent == some r.tid) = some e) :
    ((m.ackCame l r f).core c).sb = (m.core c).sb.erase e ∧ (∀ x ∈ (m.ackCame l r f).req, x.tid ≠ r.tid) ∧ (m.ackCame l r f).mem = m.mem := by
  obtain ⟨hrest, hreq⟩ := endRequest_ends hr
  unfold ackCame
  dsimp only
  rw [if_neg (by omega), hp, if_neg (by decide)]
  generalize m.endRequest r.tid = x at hrest hreq ⊢
  have hx := core_of_unasked hrest c
  unfold came
  rw [hw]
  dsimp only
  rw [storeCame_done (by rw [hx]; exact he), core_setCore_self, hx]
  exact ⟨rfl, by rw [setCore_req]; exact hreq, by rw [setCore_mem]; exact mem_of_unasked hrest⟩

/-- MESH_ERR's bit and count of a refusal. -/
theorem meshErr_shows (m : Mod) : bitAt ((m.meshErr 0x21).rd F.MESH_ERR_KIND) 1 = true ∧
    (m.meshErr 0x21).rd F.MESH_ERR_COUNT_COUNT = satAdd32 (m.rd F.MESH_ERR_COUNT_COUNT) 1 ∧ (m.meshErr 0x21).mono = m.mono ∧ (m.meshErr 0x21).req = m.req := by
  have he : m.meshErr 0x21 = (m.wr F.MESH_ERR_KIND 0 (m.rd F.MESH_ERR_KIND ||| 2 ^ 1)).count F.MESH_ERR_COUNT_COUNT := rfl
  rw [he]
  generalize m.rd F.MESH_ERR_KIND = d
  refine ⟨?_, ?_, ?_, ?_⟩
  · rw [rd_count_of_apart _ _ _ _ (by decide), rd_wr_self _ _ _ _ (by decide), bitAt_eq_testBit, Nat.testBit_mod_two_pow, ← bitAt_eq_testBit,
      bitAt_or_self]
    rfl
  · rw [rd_count_self _ _ _ _ (by decide) rfl, rd_wr_of_apart _ _ _ _ (by decide)]
  · rw [count_mono, wr_mono]
  · rw [count_req, wr_req]

/-- REQUEST_TIMEOUT of a core's request (R311). -/
def requestTimeout (m : Mod) (tid : BitVec 16) : Mod :=
  ((m.req.find? (·.tid == tid.toNat)).map fun r => (((m.toMono (r.since + m.rto)).meshErr 0x21).endRequest r.tid).came r (.failed 0x21)).getD m

theorem exec_requestTimeout (tid : BitVec 16) (s : State) : exec (.requestTimeout tid) s = .next { s with mod := s.mod.requestTimeout tid } := by
  show execRequestTimeout tid s = _
  unfold execRequestTimeout State.act requestTimeout
  dsimp only
  cases s.mod.req.find? (·.tid == tid.toNat) <;> rfl

theorem requestTimeout_ends {m : Mod} {tid : BitVec 16} {r : MeshReq} {c : Nat} (hf : m.req.find? (·.tid == tid.toNat) = some r) (hw : r.who = .core c) :
    let t := m.requestTimeout tid
    t.mono = Nat.max m.mono (r.since + m.rto) ∧ bitAt (t.rd F.MESH_ERR_KIND) 1 = true ∧
      t.rd F.MESH_ERR_COUNT_COUNT = satAdd32 (m.rd F.MESH_ERR_COUNT_COUNT) 1 ∧ (∀ x ∈ t.req, x.tid ≠ r.tid) ∧
      ∀ w ∈ (t.core c).waits, w.tid = r.tid → w.fault = some 0x21 := by
  have hmono := m.mono_toMono (r.since + m.rto)
  have hregs := m.regs_toMono (r.since + m.rto)
  have hreq : (m.toMono (r.since + m.rto)).req = m.req := (congrArg Mod.req (m.untimed_toMono (r.since + m.rto)) :)
  have ht : m.requestTimeout tid = (((m.toMono (r.since + m.rto)).meshErr 0x21).endRequest r.tid).came r (.failed 0x21) := by
    unfold requestTimeout
    rw [hf]
    rfl
  generalize m.toMono (r.since + m.rto) = x at hmono hregs hreq ht
  obtain ⟨hbit, hcount, hm, hr⟩ := x.meshErr_shows
  obtain ⟨hrest, hgone⟩ := endRequest_ends (m := x.meshErr 0x21) (r := r) (by rw [hr, hreq]; exact List.mem_of_find?_eq_some hf)
  generalize (x.meshErr 0x21).endRequest r.tid = y at ht hrest hgone
  have hyr := regs_of_unasked hrest
  have hym := mono_of_unasked hrest
  have hcame : y.came r (.failed 0x21) = y.waitCame c r.tid (.failed 0x21) := by
    unfold came
    rw [hw]
  intro t
  rw [show t = _ from ht.trans hcame]
  refine ⟨?_, ?_, ?_, hgone, fun w hw' htid => waitCame_failed y c r.tid 0x21 hw' htid⟩
  · exact hym.trans (hm.trans hmono)
  · rw [← hbit]
    exact congrArg (fun n => bitAt n 1) (rd_of_regs hyr F.MESH_ERR_KIND 0)
  · exact (rd_of_regs hyr F.MESH_ERR_COUNT_COUNT 0).trans (hcount.trans (by rw [rd_of_regs hregs]))

end Mod

/-- Settles O41. -/
theorem meshResponsesEndTheirRequests : Obligations.MeshResponsesEndTheirRequests := by
  intro s l f ds r c e m found m1 mRun att ended endedRun
  have hregs : m1.regs = m.regs := Mod.regs_of_unsent (m.unsent_giveCredits _ _ _)
  have hregsRun : mRun.regs = m.regs := Mod.regs_of_unsent (m.unsent_giveCredits _ _ _)
  have hreq : m1.req = m.req := Mod.req_of_unsent (m.unsent_giveCredits _ _ _)
  have hatt : m1.flag F.MESH_LINK_STATUS_ATTESTED l = att := Mod.flag_of_regs hregs _ _
  have hattRun : mRun.flag F.MESH_LINK_STATUS_ATTESTED l = att := Mod.flag_of_regs hregsRun _ _
  refine ⟨fun hl hd hlate => ⟨fun hf hdl => ⟨?read, ?more, ?store, ?nack⟩, ?unawaited⟩, ?timeout, ?noRequest⟩
  case read =>
    intro hw hwant hg hlines
    refine ⟨fun ht => does_next rfl ?_, fun ht => does_next rfl ?_⟩
    · refine (Mod.answered_some hl hd (by rw [ht]; rfl) hf hlate hdl fun w => by
        rw [show Mod.wantsAck { m with wire := w } r = m.wantsAck r from rfl, hwant]; rfl).trans ?_
      change m1.linesCame l r [f] = _
      rw [Mod.linesCame_last f [] hw hg hlines, hatt]
      simp only [List.flatMap_cons, List.flatMap_nil, List.append_nil, List.any_cons, List.any_nil, Bool.or_false]
      rfl
    · refine (Mod.answered_some hl hd (by rw [ht]; rfl) hf hlate hdl fun w => by
        rw [show Mod.wantsAck { m with wire := w } r = m.wantsAck r from rfl, hwant]; rfl).trans ?_
      change mRun.linesCame l r (f :: ds) = _
      rw [Mod.linesCame_last f ds hw hg hlines, hattRun]
  case more =>
    intro hw ht hlines
    refine does_next rfl ((Mod.answered_some hl hd (by rw [ht]; rfl) hf hlate hdl fun w => by unfold Mod.wantsAck; rw [hw]).trans ?_)
    change m1.ackCame l r f = _
    rw [← hreq]
    exact if_pos hlines
  case store =>
    intro hw ht hlines hp he
    have hr : r ∈ m1.req := hreq ▸ List.mem_of_find?_eq_some hf
    have hcores : m1.core c = m.core c := Mod.core_of_unasked (Mod.unasked_of_unsent (m.unsent_giveCredits _ _ _)) c
    have hmem : m1.mem = m.mem := Mod.mem_of_unasked (Mod.unasked_of_unsent (m.unsent_giveCredits _ _ _))
    obtain ⟨hsb, hgone, hkept⟩ := Mod.ackCame_store (m := m1) (l := l) (f := f) hw hlines hp hr (by rw [hcores]; exact he)
    have ht' : s.mod.answered l f [] 0x13 Mod.wantsAck (fun m r => m.ackCame l r f) = m1.ackCame l r f :=
      Mod.answered_some hl hd (by rw [ht]; rfl) hf hlate hdl fun w => by unfold Mod.wantsAck; rw [hw]
    refine does_next rfl ?_
    dsimp only
    rw [ht']
    exact ⟨hsb.trans (by rw [hcores]), hgone, hkept.trans hmem⟩
  case nack =>
    intro hw ht
    have ht' : s.mod.answered l f [] 0x14 (fun _ _ => true) (fun m r => (m.endRequest r.tid).came r (.failed f.status.toNat)) =
        ended.waitCame c r.tid (.failed f.status.toNat) := by
      refine (Mod.answered_some hl hd (by rw [ht]; rfl) hf hlate hdl fun _ => rfl).trans ?_
      change ended.came r (.failed f.status.toNat) = _
      unfold Mod.came
      rw [hw]
    refine does_next rfl ⟨ht', ?_⟩
    dsimp only
    rw [ht']
    exact fun w hw' htid => Mod.waitCame_failed ended c r.tid f.status.toNat hw' htid
  case unawaited =>
    intro hf
    exact ⟨fun ht => does_next rfl (Mod.answered_none hl hd (by rw [ht]; rfl) hf), fun ht => does_next rfl (Mod.answered_none hl hd (by rw [ht]; rfl) hf),
      fun ht => does_next rfl (Mod.answered_none hl hd (by rw [ht]; rfl) hf), fun ht => does_next rfl (Mod.answered_none hl hd (by rw [ht]; rfl) hf)⟩
  case timeout =>
    intro hf hw
    exact does_next (Mod.exec_requestTimeout _ _) (Mod.requestTimeout_ends hf hw)
  case noRequest =>
    intro hf
    refine does_next rfl ?_
    dsimp only
    rw [show s.mod.req.find? (·.tid == f.tid.toNat) = none from hf]

end Sys2Proof.Machine

/-!
Lines of the system cache: tables of lines, frames, lines cleaned, dropped and brought (R231 to R239).
-/
namespace Sys2Proof.Machine

/-! ### Tables without a default -/

namespace Tbl

variable {α : Type}

theorem look_erase_self (t : Tbl α) (k : Nat) : Tbl.look (Tbl.erase t k) k = none := by
  induction t with
  | nil => rfl
  | cons e t ih =>
    by_cases h : e.1 = k
    · rw [erase, List.filter_cons_of_neg (by simpa using h)]
      exact ih
    · rw [erase, List.filter_cons_of_pos (by simpa using h), look, if_neg h]
      exact ih

theorem look_erase_ne (t : Tbl α) {k j : Nat} (h : j ≠ k) : Tbl.look (Tbl.erase t k) j = Tbl.look t j := by
  induction t with
  | nil => rfl
  | cons e t ih =>
    by_cases he : e.1 = k
    · rw [erase, List.filter_cons_of_neg (by simpa using he), look, if_neg (fun hj => h (hj.symm.trans he))]
      exact ih
    · rw [erase, List.filter_cons_of_pos (by simpa using he), look, look]
      split
      · rfl
      · exact ih

theorem look_insert_ne (t : Tbl α) {k j : Nat} (v : α) (h : j ≠ k) : Tbl.look (Tbl.insert k v t) j = Tbl.look t j := by
  induction t with
  | nil => exact if_neg h.symm
  | cons e t ih =>
    obtain ⟨k', v'⟩ := e
    rw [insert]
    split
    · rw [look, if_neg h.symm]
    · rw [look, look, ih]

theorem look_insert_self (t : Tbl α) (k : Nat) (v : α) (h : ∀ e ∈ t, e.1 ≠ k) : Tbl.look (Tbl.insert k v t) k = some v := by
  induction t with
  | nil => exact if_pos rfl
  | cons e t ih =>
    obtain ⟨k', v'⟩ := e
    rw [insert]
    split
    · exact if_pos rfl
    · rw [look, if_neg (h _ (List.mem_cons_self ..))]
      exact ih fun e he => h e (List.mem_cons_of_mem _ he)

theorem look_put_self (t : Tbl α) (k : Nat) (v : α) : Tbl.look (Tbl.put t k v) k = some v := look_insert_self _ k v (mem_erase_ne t k)

theorem look_put_ne (t : Tbl α) {k j : Nat} (v : α) (h : j ≠ k) : Tbl.look (Tbl.put t k v) j = Tbl.look t j :=
  (look_insert_ne _ v h).trans (look_erase_ne t h)

theorem look_none {t : Tbl α} {k : Nat} (h : k ∉ Tbl.keys t) : Tbl.look t k = none := by
  induction t with
  | nil => rfl
  | cons e t ih =>
    rw [keys, List.map_cons, List.mem_cons, not_or] at h
    rw [look, if_neg (Ne.symm h.1)]
    exact ih h.2

/-- A key that is not listed reads as the default. -/
theorem get_of_not_mem {d : α} {t : Tbl α} {k : Nat} (h : k ∉ Tbl.keys t) : Tbl.get d t k = d := by
  induction t with
  | nil => rfl
  | cons e t ih =>
    rw [keys, List.map_cons, List.mem_cons, not_or] at h
    rw [get, if_neg (Ne.symm h.1)]
    exact ih h.2

/-- Entries of another key stay as one key is written. -/
theorem mem_put_of_ne {t : Tbl α} {k : Nat} {v : α} {e : Nat × α} (h : e ∈ t) (hk : e.1 ≠ k) : e ∈ Tbl.put t k v := by
  have hin : ∀ {t : Tbl α}, e ∈ t → e ∈ Tbl.insert k v t := by
    intro t ht
    induction t with
    | nil => exact absurd ht (List.not_mem_nil)
    | cons x t ih =>
      obtain ⟨k', v'⟩ := x
      rw [insert]
      split
      · exact List.mem_cons_of_mem _ ht
      · rcases List.mem_cons.mp ht with rfl | ht
        · exact List.mem_cons_self ..
        · exact List.mem_cons_of_mem _ (ih ht)
  exact hin (List.mem_filter.mpr ⟨h, by simpa using hk⟩)

end Tbl

namespace Mod

/-! ### Frames (R258) -/

theorem frame_of {m t : Mod} (hmem : t.mem = m.mem) (htags : t.tags = m.tags) (hp : t.dramPoison = m.dramPoison) (ln : Nat) : t.frame ln = m.frame ln := by
  simp only [frame, num, bytes, tag, hmem, htags, hp]

theorem tag_setTag_self (m : Mod) (a : Nat) (b : Bool) : (m.setTag a b).tag a = b := Tbl.get_set_self _ _ _ _
theorem tag_setTag_ne (m : Mod) {a c : Nat} (b : Bool) (h : c / 16 ≠ a / 16) : (m.setTag a b).tag c = m.tag c := Tbl.get_set_ne _ _ _ _ h

/-- Four tags and their bits. -/
theorem tags_of_bits (x : BitVec 4) :
    BitVec.ofNat 4 (b2n (bitAt x.toNat 0) + 2 * b2n (bitAt x.toNat 1) + 4 * b2n (bitAt x.toNat 2) + 8 * b2n (bitAt x.toNat 3)) = x := by
  revert x
  decide

theorem ofNat_mod_bytes {n : Nat} (x : BitVec (8 * n)) : BitVec.ofNat (8 * n) (x.toNat % 256 ^ n) = x := by
  have h : x.toNat < 256 ^ n := by
    rw [show (256 : Nat) = 2 ^ 8 from rfl, ← Nat.pow_mul]
    exact x.isLt
  rw [Nat.mod_eq_of_lt h, BitVec.ofNat_toNat, BitVec.setWidth_eq]

theorem each_upTo_four (f : Mod → Nat → Mod) (m : Mod) : m.each (upTo 4) f = f (f (f (f m 0) 1) 2) 3 := rfl

/-- The tags of a line's four granules written. -/
def setTags (m : Mod) (ln : Nat) (tags : BitVec 4) : Mod := m.each (upTo 4) (fun m j => m.setTag (64 * ln + 16 * j) (bitAt tags.toNat j))

theorem putFrame_eq (m : Mod) (ln : Nat) (data : BitVec 512) (tags : BitVec 4) (poison : Bool) : ∃ x, (m.setNum (64 * ln) 64 data.toNat).setTags ln tags = x ∧
    m.putFrame ln data tags poison = { x with dramPoison := Tbl.set false x.dramPoison ln poison } := ⟨_, rfl, rfl⟩

theorem setTags_keeps {P : Mod → Prop} (hP : ∀ (t : Mod) a b, P t → P (t.setTag a b)) (m : Mod) (ln : Nat) (tags : BitVec 4) (h : P m) : P (m.setTags ln tags) :=
  each_keeps (fun t _ ht => hP t _ _ ht) _ h

theorem tag_setTags (m : Mod) (ln : Nat) (tags : BitVec 4) : let y := m.setTags ln tags
    y.tag (64 * ln) = bitAt tags.toNat 0 ∧ y.tag (64 * ln + 16) = bitAt tags.toNat 1 ∧ y.tag (64 * ln + 32) = bitAt tags.toNat 2 ∧
      y.tag (64 * ln + 48) = bitAt tags.toNat 3 := by
  rw [setTags, each_upTo_four]
  refine ⟨?_, ?_, ?_, tag_setTag_self _ _ _⟩
  · rw [tag_setTag_ne _ _ (by omega), tag_setTag_ne _ _ (by omega), tag_setTag_ne _ _ (by omega)]
    exact tag_setTag_self _ _ _
  · rw [tag_setTag_ne _ _ (by omega), tag_setTag_ne _ _ (by omega)]
    exact tag_setTag_self _ _ _
  · rw [tag_setTag_ne _ _ (by omega)]
    exact tag_setTag_self _ _ _

/-- A frame written reads back. -/
theorem frame_putFrame (m : Mod) (ln : Nat) (data : BitVec 512) (tags : BitVec 4) (poison : Bool) :
    (m.putFrame ln data tags poison).frame ln = ⟨ln, data, tags, poison⟩ := by
  obtain ⟨y, hy, hput⟩ := m.putFrame_eq ln data tags poison
  obtain ⟨h0, h1, h2, h3⟩ := (m.setNum (64 * ln) 64 data.toNat).tag_setTags ln tags
  have hmem : y.mem = (m.setNum (64 * ln) 64 data.toNat).mem := by
    rw [← hy]
    exact setTags_keeps (P := fun t => t.mem = _) (fun t a b ht => (t.setTag_mem a b).trans ht) _ ln tags rfl
  have hnum := m.num_setNum_self (64 * ln) 64 data.toNat
  rw [hy] at h0 h1 h2 h3
  generalize m.setNum (64 * ln) 64 data.toNat = x at hmem hnum
  obtain ⟨t, ht⟩ : ∃ t, ({ y with dramPoison := Tbl.set false y.dramPoison ln poison } : Mod) = t := ⟨_, rfl⟩
  have htm : t.mem = y.mem := by rw [← ht]
  have htt : t.tags = y.tags := by rw [← ht]
  have htp : t.dramPoison = Tbl.set false y.dramPoison ln poison := by rw [← ht]
  have hnum' : t.num (64 * ln) 64 = data.toNat % 256 ^ 64 := by
    rw [← hnum, num, bytes, htm, hmem, num, bytes]
  have htag' : ∀ a, t.tag a = y.tag a := fun a => by rw [tag, htt, tag]
  rw [hput, ht, frame, htag', htag', htag', htag', h0, h1, h2, h3, tags_of_bits, hnum', htp, Tbl.get_set_self]
  exact congrArg (fun d => SideLine.mk ln d tags poison) (ofNat_mod_bytes (n := 64) data)

theorem putFrame_keeps {P : Mod → Prop} (hb : ∀ (t : Mod) a bs, P t → P (t.setBytes a bs)) (ht : ∀ (t : Mod) a b, P t → P (t.setTag a b))
    (hp : ∀ (t : Mod) x, P t → P { t with dramPoison := x }) (m : Mod) (ln : Nat) (data : BitVec 512) (tags : BitVec 4) (poison : Bool) (h : P m) :
    P (m.putFrame ln data tags poison) := by
  obtain ⟨y, hy, hput⟩ := m.putFrame_eq ln data tags poison
  rw [hput]
  exact hp y _ (hy ▸ setTags_keeps ht _ ln tags (hb m _ _ h))

theorem putFrame_lines (m : Mod) (ln : Nat) (data : BitVec 512) (tags : BitVec 4) (poison : Bool) :
    let t := m.putFrame ln data tags poison
    t.lines = m.lines ∧ t.side = m.side ∧ t.victims = m.victims ∧ t.held = m.held ∧ t.cores = m.cores :=
  putFrame_keeps (P := fun t => t.lines = m.lines ∧ t.side = m.side ∧ t.victims = m.victims ∧ t.held = m.held ∧ t.cores = m.cores)
    (fun _ _ _ h => h) (fun _ _ _ h => h) (fun _ _ h => h) m ln data tags poison ⟨rfl, rfl, rfl, rfl, rfl⟩

/-! ### What a line's operations leave of the table of lines -/

/-- From `m` to `t` memory, its lines' frames and tags stay. -/
def FramesKept (m t : Mod) : Prop := t.mem = m.mem ∧ t.tags = m.tags ∧ t.dramPoison = m.dramPoison

theorem FramesKept.refl (m : Mod) : m.FramesKept m := ⟨rfl, rfl, rfl⟩
theorem FramesKept.trans {m n t : Mod} (h : m.FramesKept n) (h' : n.FramesKept t) : m.FramesKept t :=
  ⟨h'.1.trans h.1, h'.2.1.trans h.2.1, h'.2.2.trans h.2.2⟩
theorem FramesKept.frame {m t : Mod} (h : m.FramesKept t) (ln : Nat) : t.frame ln = m.frame ln := frame_of h.1 h.2.1 h.2.2 ln

theorem framesKept_setCore (m : Mod) (c : Nat) (k : Core) : m.FramesKept (m.setCore c k) := ⟨rfl, rfl, rfl⟩

/-- Every L1 copy of a line goes: in no core a copy is left. -/
theorem l1Copies_gone (m : Mod) (ln : Nat) : let t := m.each (Tbl.keys m.cores) (fun m c => m.l1Drop c ln)
    m.FramesKept t ∧ t.lines = m.lines ∧ t.side = m.side ∧ t.victims = m.victims ∧ t.held = m.held ∧
      ∀ c, ∀ x ∈ (t.core c).l1d ++ (t.core c).l1i, x.1 ≠ ln := by
  have hdrop : ∀ (n : Mod) (c : Nat), ∀ x ∈ ((n.l1Drop c ln).core c).l1d ++ ((n.l1Drop c ln).core c).l1i, x.1 ≠ ln := by
    intro n c x hx
    unfold l1Drop at hx
    rw [core_setCore_self] at hx
    rcases List.mem_append.mp hx with h | h <;> simpa using (List.mem_filter.mp h).2
  have hne : ∀ (n : Mod) (c c' : Nat), c' ≠ c → (n.l1Drop c ln).core c' = n.core c' := fun n c c' h => core_setCore_ne n _ h
  have hrest : let t := m.each (Tbl.keys m.cores) (fun m c => m.l1Drop c ln)
      m.FramesKept t ∧ t.lines = m.lines ∧ t.side = m.side ∧ t.victims = m.victims ∧ t.held = m.held :=
    each_keeps (P := fun t => m.FramesKept t ∧ t.lines = m.lines ∧ t.side = m.side ∧ t.victims = m.victims ∧ t.held = m.held)
      (fun t c ht => ⟨ht.1.trans (framesKept_setCore _ _ _), ht.2⟩) _ ⟨.refl m, rfl, rfl, rfl, rfl⟩
  obtain ⟨h1, h2, h3, h4, h5⟩ := hrest
  refine ⟨h1, h2, h3, h4, h5, fun c => ?_⟩
  have hclean : ∀ (l : List Nat) (n : Mod), (c ∈ l ∨ ∀ x ∈ (n.core c).l1d ++ (n.core c).l1i, x.1 ≠ ln) →
      ∀ x ∈ ((n.each l (fun m c => m.l1Drop c ln)).core c).l1d ++ ((n.each l (fun m c => m.l1Drop c ln)).core c).l1i, x.1 ≠ ln := by
    intro l
    induction l with
    | nil => exact fun n h => h.resolve_left List.not_mem_nil
    | cons d l ih =>
      intro n h
      refine ih (n.l1Drop d ln) ?_
      by_cases hd : c = d
      · subst hd
        exact .inr (hdrop n c)
      · rcases h with h | h
        · exact .inl ((List.mem_cons.mp h).resolve_left hd)
        · exact .inr (by rw [hne n d c hd]; exact h)
  refine hclean _ m ?_
  by_cases hc : c ∈ Tbl.keys m.cores
  · exact .inl hc
  · have hcore : m.core c = {} := Tbl.get_of_not_mem hc
    exact .inr (by rw [hcore]; simp)

/-- The copies of a line in every L1 gone: of the table of lines that line alone may change. -/
theorem l1Invalidate_eq (m : Mod) (ln : Nat) : ∃ ls : Tbl Line, m.l1Invalidate ln = { m.each (Tbl.keys m.cores) (fun m c => m.l1Drop c ln) with lines := ls } ∧
    (∀ j, j ≠ ln → Tbl.look ls j = Tbl.look m.lines j) ∧ (∀ e ∈ m.lines, e.1 ≠ ln → e ∈ ls) ∧ (Tbl.look m.lines ln = none → ls = m.lines) := by
  have hsame : m.each (Tbl.keys m.cores) (fun m c => if none = some c then m.setCore c { m.core c with l1i := (m.core c).l1i.filter (·.1 != ln) } else m.l1Drop c ln) =
      m.each (Tbl.keys m.cores) (fun m c => m.l1Drop c ln) := congrArg (m.each _) (funext fun _ => funext fun _ => if_neg (by simp))
  have hl := (m.l1Copies_gone ln).2.1
  unfold l1Invalidate
  dsimp only
  rw [hsame]
  generalize m.each (Tbl.keys m.cores) (fun m c => m.l1Drop c ln) = x at hl ⊢
  split
  · next l hlook =>
    refine ⟨_, rfl, fun j hj => ?_, fun e he hne => ?_, fun hnone => ?_⟩
    · rw [Tbl.look_put_ne _ _ hj, hl]
    · exact Tbl.mem_put_of_ne (hl ▸ he) hne
    · exact absurd (hlook.symm.trans (by rw [hl, hnone])) (by simp)
  · exact ⟨x.lines, rfl, fun _ _ => by rw [hl], fun e he _ => hl ▸ he, fun _ => hl⟩

/-- What a line dropped leaves: it is in no slice, side buffer or L1; every other line and every frame stays. -/
structure Dropped (m t : Mod) (ln : Nat) : Prop where
  frames : m.FramesKept t
  look : Tbl.look t.lines ln = none
  side : ∀ x ∈ Tbl.get [] t.side (sliceOf ln), x.line ≠ ln
  copies : ∀ c, ∀ x ∈ (t.core c).l1d ++ (t.core c).l1i, x.1 ≠ ln
  victims : t.victims = m.victims
  held : t.held = m.held
  others : ∀ j, j ≠ ln → Tbl.look t.lines j = Tbl.look m.lines j
  entries : ∀ e ∈ m.lines, e.1 ≠ ln → e ∈ t.lines

theorem dropLine_drops (m : Mod) (ln : Nat) : m.Dropped (m.dropLine ln) ln := by
  obtain ⟨hf, _, _, hv, hh, hgone⟩ := m.l1Copies_gone ln
  obtain ⟨ls, hls, hothers, hentries, _⟩ := m.l1Invalidate_eq ln
  unfold dropLine
  rw [hls]
  generalize m.each (Tbl.keys m.cores) (fun m c => m.l1Drop c ln) = x at hf hv hh hgone
  refine ⟨hf, Tbl.look_erase_self _ _, fun y hy => ?_, hgone, hv, hh, fun j hj => ?_, fun e he hne => ?_⟩
  · have hy' : y ∈ (Tbl.get [] x.side (sliceOf ln)).filter (·.line != ln) := by
      have hset : Tbl.get [] (({ x with lines := ls } : Mod).sideDrop ln).side (sliceOf ln) = _ := Tbl.get_set_self _ _ _ _
      exact hset ▸ hy
    simpa using (List.mem_filter.mp hy').2
  · exact (Tbl.look_erase_ne _ hj).trans (hothers j hj)
  · exact List.mem_filter.mpr ⟨hentries e he hne, by simpa using hne⟩

/-- A line cleaned: it is in its frame when it was dirty, and every other line stays. -/
theorem cleanLine_cleans (m : Mod) (ln : Nat) : let t := m.cleanLine ln
    (∀ j, j ≠ ln → Tbl.look t.lines j = Tbl.look m.lines j) ∧ (∀ e ∈ m.lines, e.1 ≠ ln → e ∈ t.lines) ∧ t.victims = m.victims ∧ t.held = m.held ∧
      t.side = m.side ∧ t.cores = m.cores := by
  unfold cleanLine
  split
  · split
    · next l hl _ =>
      obtain ⟨h1, h2, h3, h4, h5⟩ := m.putFrame_lines ln l.data l.tags l.poison
      generalize m.putFrame ln l.data l.tags l.poison = x at h1 h2 h3 h4 h5
      refine ⟨fun j hj => ?_, fun e he hne => Tbl.mem_put_of_ne (h1 ▸ he) hne, h3, h4, h2, h5⟩
      exact (Tbl.look_put_ne _ _ hj).trans (by rw [h1])
    · exact ⟨fun _ _ => rfl, fun e he _ => he, rfl, rfl, rfl, rfl⟩
  · exact ⟨fun _ _ => rfl, fun e he _ => he, rfl, rfl, rfl, rfl⟩

theorem cleanLine_dirty {m : Mod} {ln : Nat} {k : Line} (hl : Tbl.look m.lines ln = some k) (hd : k.dirty = true) : let t := m.cleanLine ln
    t.frame ln = ⟨ln, k.data, k.tags, k.poison⟩ ∧ Tbl.look t.lines ln = some { k with dirty := false } := by
  unfold cleanLine
  rw [hl]
  dsimp only
  rw [if_pos hd]
  have hframe := m.frame_putFrame ln k.data k.tags k.poison
  generalize m.putFrame ln k.data k.tags k.poison = x at hframe
  exact ⟨hframe, Tbl.look_put_self _ _ _⟩

theorem cleanLine_clean {m : Mod} {ln : Nat} {k : Line} (hl : Tbl.look m.lines ln = some k) (hd : k.dirty = false) : m.cleanLine ln = m := by
  unfold cleanLine
  rw [hl]
  dsimp only
  rw [hd]
  rfl

theorem framesKept_sideDrop (m : Mod) (ln : Nat) : m.FramesKept (m.sideDrop ln) := ⟨rfl, rfl, rfl⟩

/-! ### Victims and fills (R236) -/

/-- The victims sent from a slice in their frames. -/
def victimsWritten (m : Mod) (sl : Nat) : Mod := m.each (Tbl.get [] m.victims sl) (fun m v => m.putFrame v.1 v.2.data v.2.tags v.2.poison)

theorem victimsWritten_lines (m : Mod) (sl : Nat) : let t := m.victimsWritten sl
    t.lines = m.lines ∧ t.side = m.side ∧ t.victims = m.victims ∧ t.held = m.held ∧ t.cores = m.cores := by
  refine each_keeps (P := fun t => t.lines = m.lines ∧ t.side = m.side ∧ t.victims = m.victims ∧ t.held = m.held ∧ t.cores = m.cores)
    (fun t v ht => ?_) _ ⟨rfl, rfl, rfl, rfl, rfl⟩
  obtain ⟨h1, h2, h3, h4, h5⟩ := t.putFrame_lines v.1 v.2.data v.2.tags v.2.poison
  exact ⟨h1.trans ht.1, h2.trans ht.2.1, h3.trans ht.2.2.1, h4.trans ht.2.2.2.1, h5.trans ht.2.2.2.2⟩

/-- With no fill held, the victims accepted are written and nothing more. -/
theorem acceptVictims_unheld {m : Mod} {sl : Nat} (hh : Tbl.get [] m.held sl = []) : m.acceptVictims sl =
    { m.victimsWritten sl with victims := Tbl.set [] m.victims sl [], held := Tbl.set [] m.held sl [] } := by
  obtain ⟨_, _, hv', hh', _⟩ := m.victimsWritten_lines sl
  unfold acceptVictims
  dsimp only
  rw [← victimsWritten]
  generalize m.victimsWritten sl = x at hv' hh' ⊢
  rw [hh', hv', hh]
  rfl

/-- With nothing sent and nothing held, no victim is awaited. -/
theorem acceptVictims_none {m : Mod} {sl : Nat} (hv : Tbl.get [] m.victims sl = []) (hh : Tbl.get [] m.held sl = []) :
    m.acceptVictims sl = { m with victims := Tbl.set [] m.victims sl [], held := Tbl.set [] m.held sl [] } := by
  have hw : m.victimsWritten sl = m := by rw [victimsWritten, hv]; rfl
  rw [acceptVictims_unheld hh, hw]

/-- A line allocated in a free way. -/
theorem allocate_free {m : Mod} {ln w : Nat} (h : m.victimOf ln = (w, none)) (data : BitVec 512) (tags : BitVec 4) (dirty poison : Bool) :
    m.allocate ln data tags dirty poison = { m.touchWay ln w with lines := Tbl.put m.lines ln ⟨w, data, tags, dirty, poison, 0⟩ } := by
  unfold allocate
  rw [h]
  rfl

/-- A line allocated is there as it was given, in the way of R237. -/
theorem look_allocate (m : Mod) (ln : Nat) (data : BitVec 512) (tags : BitVec 4) (dirty poison : Bool) :
    Tbl.look (m.allocate ln data tags dirty poison).lines ln = some ⟨(m.victimOf ln).1, data, tags, dirty, poison, 0⟩ := Tbl.look_put_self _ _ _

end Mod

end Sys2Proof.Machine

/-!
Slices: fills, write-back, conversions and way power-down (R236 to R243).
-/
namespace Sys2Proof.Machine

namespace Mod

/-! ### Fills (R236) -/

theorem readFrame_none (m : Mod) (ln source : Nat) : m.readFrame ln [] source = (m, m.frame ln) := by
  unfold readFrame
  rw [show symbolErrors [] = [] by decide]
  rfl

section
variable {m : Mod} {ln : Nat}

/-- A fill of a line that its slice holds, without an error, changes nothing. -/
theorem sliceFill_present {k : Line} (h : Tbl.look m.lines ln = some k) (fill : LineFill) : m.sliceFill ln fill = m := by
  unfold sliceFill
  dsimp only
  rw [h]
  exact if_pos (by simp)

variable (hready : m.flag F.MEM_STATUS_READY = true) (hl : Tbl.look m.lines ln = none) (hh : ∀ x ∈ Tbl.get [] m.held (sliceOf ln), x.line ≠ ln)
  (hv : ∀ x ∈ Tbl.get [] m.victims (sliceOf ln), x.1 ≠ ln)
include hready hl hh hv

/-- A fill of an absent line that is nowhere on its way goes on as its side buffer and its victim say. -/
theorem sliceFill_aside (haside : (Tbl.get [] m.side (sliceOf ln)).any (·.line == ln) = true) : m.sliceFill ln ⟨[], none⟩ = m.bring ln := by
  have hh' : (Tbl.get [] m.held (sliceOf ln)).any (·.line == ln) = false := List.any_eq_false.mpr fun x hx => by simpa using hh x hx
  have hv' : (Tbl.get [] m.victims (sliceOf ln)).any (·.1 == ln) = false := List.any_eq_false.mpr fun x hx => by simpa using hv x hx
  unfold sliceFill
  dsimp only
  rw [hready, hl, hh', hv', haside, if_neg (by decide), if_pos rfl]

theorem sliceFill_free {w : Nat} (haside : (Tbl.get [] m.side (sliceOf ln)).any (·.line == ln) = false) (hw : m.victimOf ln = (w, none)) :
    m.sliceFill ln ⟨[], none⟩ = m.allocate ln (m.frame ln).data (m.frame ln).tags false (m.frame ln).poison := by
  have hh' : (Tbl.get [] m.held (sliceOf ln)).any (·.line == ln) = false := List.any_eq_false.mpr fun x hx => by simpa using hh x hx
  have hv' : (Tbl.get [] m.victims (sliceOf ln)).any (·.1 == ln) = false := List.any_eq_false.mpr fun x hx => by simpa using hv x hx
  unfold sliceFill
  dsimp only
  rw [hready, hl, hh', hv', haside, if_neg (by decide), if_neg (by decide), readFrame_none]
  dsimp only
  rw [hw]

theorem sliceFill_dirty {w o : Nat} {k : Line} (haside : (Tbl.get [] m.side (sliceOf ln)).any (·.line == ln) = false)
    (hw : m.victimOf ln = (w, some (o, k))) (hd : k.dirty = true) : ∃ x, x = (m.l1Invalidate o).dropLine o ∧ m.sliceFill ln ⟨[], none⟩ =
      { x with victims := Tbl.set [] x.victims (sliceOf ln) (Tbl.get [] x.victims (sliceOf ln) ++ [(o, k)]),
               held := Tbl.set [] x.held (sliceOf ln) (Tbl.get [] x.held (sliceOf ln) ++ [m.frame ln]) } := by
  have hh' : (Tbl.get [] m.held (sliceOf ln)).any (·.line == ln) = false := List.any_eq_false.mpr fun x hx => by simpa using hh x hx
  have hv' : (Tbl.get [] m.victims (sliceOf ln)).any (·.1 == ln) = false := List.any_eq_false.mpr fun x hx => by simpa using hv x hx
  refine ⟨_, rfl, ?_⟩
  unfold sliceFill
  dsimp only
  rw [hready, hl, hh', hv', haside, if_neg (by decide), if_neg (by decide), readFrame_none]
  dsimp only
  rw [hw]
  exact if_pos hd

end

/-- A fill into a free way: the line is there as its frame reads, and no frame changes. -/
theorem sliceFill_fills {m : Mod} {ln w : Nat} (hw : m.victimOf ln = (w, none)) (f : SideLine) : let t := m.allocate ln f.data f.tags false f.poison
    Tbl.look t.lines ln = some ⟨w, f.data, f.tags, false, f.poison, 0⟩ ∧ t.mem = m.mem ∧ t.regs = m.regs := by
  rw [allocate_free hw]
  exact ⟨Tbl.look_put_self _ _ _, rfl, rfl⟩

/-- A dirty victim goes to the controller, and the fill it displaced is held. -/
theorem victim_sent {m : Mod} {ln o : Nat} (k : Line) (f : SideLine) : let x := (m.l1Invalidate o).dropLine o
    Tbl.get [] (Tbl.set [] x.victims (sliceOf ln) (Tbl.get [] x.victims (sliceOf ln) ++ [(o, k)])) (sliceOf ln) = Tbl.get [] m.victims (sliceOf ln) ++ [(o, k)] ∧
      Tbl.get [] (Tbl.set [] x.held (sliceOf ln) (Tbl.get [] x.held (sliceOf ln) ++ [f])) (sliceOf ln) = Tbl.get [] m.held (sliceOf ln) ++ [f] ∧
      Tbl.look x.lines o = none ∧ x.mem = m.mem ∧ x.regs = m.regs := by
  intro x
  obtain ⟨hf, _, _, hv, hh, _⟩ := m.l1Copies_gone o
  obtain ⟨ls, hls, _, _, _⟩ := m.l1Invalidate_eq o
  have hreg := m.cached_l1Invalidate o none
  have hdrop := (m.l1Invalidate o).dropLine_drops o
  have hreg' := (m.l1Invalidate o).cached_dropLine o
  have hxv : x.victims = m.victims := hdrop.victims.trans (by rw [hls]; exact hv)
  have hxh : x.held = m.held := hdrop.held.trans (by rw [hls]; exact hh)
  rw [Tbl.get_set_self, Tbl.get_set_self, hxv, hxh]
  exact ⟨rfl, rfl, hdrop.look, hdrop.frames.1.trans (by rw [hls]; exact hf.1), hreg'.regs.trans hreg.regs⟩

/-- A corrected error of a line that is present: counted with its place. -/
theorem sliceFault_corrected {m : Mod} {ln : Nat} {k : Line} (h : Tbl.look m.lines ln = some k) : let t := m.sliceFault ln .dataCorrected
    t.lines = m.lines ∧ t.mem = m.mem ∧ t.rd F.SC_SL_CE_COUNT (sliceOf ln) = satAdd32 (m.rd F.SC_SL_CE_COUNT (sliceOf ln)) 1 ∧
      t.rd F.SC_SL_ERR_LOC_SET (sliceOf ln) = setOf ln ∧ t.rd F.SC_SL_ERR_LOC_WAY (sliceOf ln) = k.way % 16 ∧
      OnlyRegs [(.SC_SL_CE, sliceOf ln), (.SC_SL_ERR_LOC, sliceOf ln), (.EVR_UNROUTED, 0)] m t := by
  obtain ⟨x, hx⟩ : ∃ x, (m.count F.SC_SL_CE_COUNT (sliceOf ln)).sliceErrAt ln k.way = x := ⟨_, rfl⟩
  have ht : m.sliceFault ln .dataCorrected = x.raise 192 := by
    unfold sliceFault
    dsimp only
    rw [h, ← hx]
  have hraise := x.told_raise 192
  intro t
  rw [show t = _ from ht, hraise.regs.rd_of_reg _ (by decide), hraise.regs.rd_of_reg _ (by decide), hraise.regs.rd_of_reg _ (by decide), ← hx, sliceErrAt]
  refine ⟨?_, ?_, ?_, ?_, ?_, ?_⟩
  · rw [(told_raise _ 192).lines_eq, wr_lines, wr_lines, count_lines]
  · rw [(told_raise _ 192).mem_eq, wr_mem, wr_mem, count_mem]
  · rw [rd_wr_of_apart _ _ _ _ (by decide), rd_wr_of_apart _ _ _ _ (by decide), rd_count_self _ _ _ _ (by decide) rfl]
  · rw [rd_wr_of_apart _ _ _ _ (by decide), rd_wr_self _ _ _ _ (by decide)]
    exact Nat.mod_eq_of_lt (Nat.mod_lt _ (by decide))
  · exact rd_wr_self _ _ _ _ (by decide)
  · refine .trans (.trans ((onlyRegs_count m F.SC_SL_CE_COUNT (sliceOf ln) 1).mono (by simp [F.SC_SL_CE_COUNT])) ?_) ((told_raise _ 192).regs.mono (by simp))
    exact .trans ((onlyRegs_wr _ F.SC_SL_ERR_LOC_SET _ _).mono (by simp [F.SC_SL_ERR_LOC_SET])) ((onlyRegs_wr _ F.SC_SL_ERR_LOC_WAY _ _).mono (by simp [F.SC_SL_ERR_LOC_WAY]))

/-! ### Write-back (R236) -/

/-- The victims of a slice accepted: none is awaited there, and no fill held. -/
theorem acceptVictims_empties (m : Mod) (sl : Nat) : let t := m.acceptVictims sl
    Tbl.get [] t.victims sl = [] ∧ Tbl.get [] t.held sl = [] := by
  refine each_keeps (P := fun t => Tbl.get [] t.victims sl = [] ∧ Tbl.get [] t.held sl = []) (fun t f ht => ?_) _
    (by dsimp only; exact ⟨Tbl.get_set_self [] _ sl [], Tbl.get_set_self [] _ sl []⟩)
  split
  · exact ht
  · dsimp only
    split
    · next o l _ =>
      have hput : ∀ x : Mod, (x.victims = t.victims ∧ x.held = t.held) → Tbl.get [] (x.dropLine o).victims sl = [] ∧ Tbl.get [] (x.dropLine o).held sl = [] :=
        fun x hx => by rw [(x.dropLine_drops o).victims, (x.dropLine_drops o).held, hx.1, hx.2]; exact ht
      exact hput _ (iff_keeps (P := fun x => x.victims = t.victims ∧ x.held = t.held) _ ⟨(t.putFrame_lines _ _ _ _).2.2.1, (t.putFrame_lines _ _ _ _).2.2.2.1⟩ ⟨rfl, rfl⟩)
    · exact ht

/-- One victim and no fill: it is in its frame. -/
theorem acceptVictims_one {m : Mod} {sl : Nat} {v : Nat × Line} (hv : Tbl.get [] m.victims sl = [v]) (hh : Tbl.get [] m.held sl = []) :
    (m.acceptVictims sl).frame v.1 = ⟨v.1, v.2.data, v.2.tags, v.2.poison⟩ ∧ (m.acceptVictims sl).lines = m.lines := by
  have hw : m.victimsWritten sl = m.putFrame v.1 v.2.data v.2.tags v.2.poison := by rw [victimsWritten, hv]; rfl
  have hf := m.frame_putFrame v.1 v.2.data v.2.tags v.2.poison
  have hl := (m.victimsWritten_lines sl).1
  rw [acceptVictims_unheld hh]
  rw [← hw] at hf
  generalize m.victimsWritten sl = x at hf hl
  exact ⟨hf, hl⟩

end Mod

end Sys2Proof.Machine

/-!
Slices: conversions and way power-down (R242, R243).
-/
namespace Sys2Proof.Machine

namespace Mod

theorem cached_emptyWay (m : Mod) (g w : Nat) : m.Cached (m.emptyWay g w) :=
  (Cached.each (fun x sl => x.cached_acceptVictims sl) _ m).trans (.each (fun x ln => (x.cached_cleanLine ln).trans (cached_dropLine _ ln)) _ _)

theorem cached_zeroRange (m : Mod) (a n : Nat) : m.Cached (m.zeroRange a n) := .of_uncached rfl rfl

/-- A cell in a range zeroed reads as one that nothing has written. -/
theorem cellGet_zeroRange (m : Mod) {a n b : Nat} (h : a ≤ b) (hb : b < a + n) : cellGet (m.zeroRange a n).mem b = memDefault b := by
  rw [mem_zeroRange]
  exact Tbl.get_filter_out _ _ _ _ fun v => by simp; omega

/-! ### Conversions (R242) -/

/-- The ways added by a conversion written back and zeroed. -/
theorem conversionDone_none {m : Mod} {g : Nat} (h : m.flag F.SC_RGN_STATUS_CONV_BUSY g = false) : m.conversionDone g = m := by
  unfold conversionDone
  rw [h]
  rfl

theorem conversionDone_shows {m : Mod} {g : Nat} (h : m.flag F.SC_RGN_STATUS_CONV_BUSY g = true) : let t := m.conversionDone g
    let ways := m.rd F.SC_RGN_SCRATCH_WAYS g
    t.rd F.SC_RGN_STATUS_WAYS_EFF g = ways ∧ t.flag F.SC_RGN_STATUS_CONV_BUSY g = false ∧ t.flag F.SC_RGN_STATUS_CONV_DONE g = true ∧
      (∀ a, rgnScratch g + m.rd F.SC_RGN_STATUS_WAYS_EFF g * 0x80000 ≤ a → a < rgnScratch g + ways * 0x80000 → cellGet t.mem a = 0) ∧
      OnlyRegs [(.SC_RGN_STATUS, g), (.EVR_UNROUTED, 0)] m t := by
  intro t ways
  have hways : ways < 2 ^ 4 := bitsOf_lt _ _ _
  have ht : t = _ := if_neg (by rw [h]; decide)
  dsimp only at ht
  obtain ⟨x, hx⟩ : ∃ x, (m.each (span (16 - ways) (ways - m.rd F.SC_RGN_STATUS_WAYS_EFF g)) (fun m v => m.emptyWay g v)) = x := ⟨_, rfl⟩
  have hxc : m.Cached x := by
    rw [← hx]
    exact .each (fun y v => y.cached_emptyWay g v) _ m
  change t = ((((((m.each (span (16 - ways) (ways - m.rd F.SC_RGN_STATUS_WAYS_EFF g)) (fun m v => m.emptyWay g v)).zeroRange
    (rgnScratch g + m.rd F.SC_RGN_STATUS_WAYS_EFF g * 0x80000) ((ways - m.rd F.SC_RGN_STATUS_WAYS_EFF g) * 0x80000)).wr F.SC_RGN_STATUS_WAYS_EFF g ways).put
      F.SC_RGN_STATUS_CONV_BUSY g false).put F.SC_RGN_STATUS_CONV_DONE g true).raise (232 + g)) at ht
  rw [hx] at ht
  have hzero : ∀ a, rgnScratch g + m.rd F.SC_RGN_STATUS_WAYS_EFF g * 0x80000 ≤ a → a < rgnScratch g + ways * 0x80000 →
      cellGet (x.zeroRange (rgnScratch g + m.rd F.SC_RGN_STATUS_WAYS_EFF g * 0x80000) ((ways - m.rd F.SC_RGN_STATUS_WAYS_EFF g) * 0x80000)).mem a = 0 := by
    intro a h1 h2
    have hscratch : 0x1010000000 ≤ a := Nat.le_trans (by unfold rgnScratch; omega) h1
    rw [cellGet_zeroRange _ h1 (by rw [Nat.sub_mul]; omega)]
    exact if_neg (by omega)
  have hzc := hxc.trans (x.cached_zeroRange (rgnScratch g + m.rd F.SC_RGN_STATUS_WAYS_EFF g * 0x80000) ((ways - m.rd F.SC_RGN_STATUS_WAYS_EFF g) * 0x80000))
  generalize x.zeroRange (rgnScratch g + m.rd F.SC_RGN_STATUS_WAYS_EFF g * 0x80000) ((ways - m.rd F.SC_RGN_STATUS_WAYS_EFF g) * 0x80000) = y at ht hzero hzc
  obtain ⟨z, hz⟩ : ∃ z, ((y.wr F.SC_RGN_STATUS_WAYS_EFF g ways).put F.SC_RGN_STATUS_CONV_BUSY g false).put F.SC_RGN_STATUS_CONV_DONE g true = z := ⟨_, rfl⟩
  rw [hz] at ht
  have hraise := z.told_raise (232 + g)
  rw [ht]
  refine ⟨?_, ?_, ?_, fun a h1 h2 => ?_, ?_⟩
  · rw [hraise.regs.rd_of_reg _ (by decide), ← hz, rd_put_of_apart _ _ _ _ (by decide), rd_put_of_apart _ _ _ _ (by decide), rd_wr_self _ _ _ _ (by decide)]
    exact Nat.mod_eq_of_lt hways
  · rw [hraise.regs.flag_of_reg _ (by decide), ← hz, flag_put_of_apart _ _ _ _ (by decide), flag_put_self _ _ _ _ (by decide) rfl]
  · rw [hraise.regs.flag_of_reg _ (by decide), ← hz, flag_put_self _ _ _ _ (by decide) rfl]
  · have hmem : (z.raise (232 + g)).mem = y.mem := by rw [hraise.mem_eq, ← hz, put_mem, put_mem, wr_mem]
    rw [hmem]
    exact hzero a h1 h2
  · refine .trans (.trans (onlyRegs_of_regs hzc.regs) ?_) (hraise.regs.mono (by simp))
    rw [← hz]
    refine .trans (.trans ((onlyRegs_wr y F.SC_RGN_STATUS_WAYS_EFF g _).mono ?_) ((onlyRegs_put _ F.SC_RGN_STATUS_CONV_BUSY g _).mono ?_))
      ((onlyRegs_put _ F.SC_RGN_STATUS_CONV_DONE g _).mono ?_) <;>
    exact List.cons_subset_cons _ (List.nil_subset _)

/-! ### Way power-down (R243) -/

/-- A line of the table at the start is there still or is no more in its slice, and no fill of the region is held. -/
def StaysOrGone (g : Nat) (e : Nat × Line) (t : Mod) : Prop :=
  (∀ j, j / 4 = g → Tbl.get [] t.held j = []) ∧ (e ∈ t.lines ∨ Tbl.look t.lines e.1 = none)

theorem staysOrGone_clean {g : Nat} {e : Nat × Line} {t : Mod} (h : StaysOrGone g e t) (ln : Nat) :
    StaysOrGone g e ((t.cleanLine ln).dropLine ln) ∧ (Tbl.look t.lines e.1 = none ∨ ln = e.1 → Tbl.look ((t.cleanLine ln).dropLine ln).lines e.1 = none) := by
  obtain ⟨hcl, hce, _, hch, _, _⟩ := t.cleanLine_cleans ln
  have hd := (t.cleanLine ln).dropLine_drops ln
  generalize t.cleanLine ln = x at hcl hce hch hd ⊢
  have hheld : ∀ j, j / 4 = g → Tbl.get [] (x.dropLine ln).held j = [] := fun j hj => by rw [hd.held, hch]; exact h.1 j hj
  by_cases hln : ln = e.1
  · have hnone : Tbl.look (x.dropLine ln).lines e.1 = none := hln ▸ hd.look
    exact ⟨⟨hheld, .inr hnone⟩, fun _ => hnone⟩
  · have hlook : Tbl.look (x.dropLine ln).lines e.1 = Tbl.look t.lines e.1 := (hd.others _ (Ne.symm hln)).trans (hcl _ (Ne.symm hln))
    refine ⟨⟨hheld, ?_⟩, fun hn => hlook.trans (hn.resolve_right hln)⟩
    exact h.2.imp (fun hm => hd.entries e (hce e hm (Ne.symm hln)) (Ne.symm hln)) hlook.trans

theorem staysOrGone_accept {g : Nat} {e : Nat × Line} {t : Mod} (h : StaysOrGone g e t) {sl : Nat} (hs : sl / 4 = g) :
    StaysOrGone g e (t.acceptVictims sl) ∧ (t.acceptVictims sl).lines = t.lines := by
  obtain ⟨hl, _, _, _, _⟩ := t.victimsWritten_lines sl
  rw [acceptVictims_unheld (h.1 sl hs)]
  generalize t.victimsWritten sl = x at hl
  refine ⟨⟨fun j hj => ?_, ?_⟩, hl⟩
  · by_cases hjs : j = sl
    · rw [hjs]
      exact Tbl.get_set_self [] _ sl []
    · show Tbl.get [] (Tbl.set [] t.held sl []) j = []
      rw [Tbl.get_set_ne _ _ _ _ hjs, h.1 j hj]
  · show e ∈ x.lines ∨ Tbl.look x.lines e.1 = none
    rw [hl]
    exact h.2

/-- A way emptied: lines stay or go, and those of that way of its region go. -/
theorem staysOrGone_emptyWay {g : Nat} {e : Nat × Line} {t : Mod} (h : StaysOrGone g e t) (v : Nat) :
    StaysOrGone g e (t.emptyWay g v) ∧ (Tbl.look t.lines e.1 = none ∨ (sliceOf e.1 / 4 = g ∧ e.2.way = v) → Tbl.look (t.emptyWay g v).lines e.1 = none) := by
  obtain ⟨ls, hls⟩ : ∃ ls, (t.lines.filter (fun e => sliceOf e.1 / 4 == g && e.2.way == v)).map Prod.fst = ls := ⟨_, rfl⟩
  have haccept : ∀ (sls : List Nat), (∀ j ∈ sls, j / 4 = g) → ∀ n, StaysOrGone g e n →
      StaysOrGone g e (n.each sls acceptVictims) ∧ (n.each sls acceptVictims).lines = n.lines := by
    intro sls
    induction sls with
    | nil => exact fun _ n hn => ⟨hn, rfl⟩
    | cons j sls ih =>
      intro hj n hn
      obtain ⟨h1, h2⟩ := staysOrGone_accept hn (hj j (List.mem_cons_self ..))
      obtain ⟨h3, h4⟩ := ih (fun i hi => hj i (List.mem_cons_of_mem _ hi)) _ h1
      exact ⟨h3, h4.trans h2⟩
  have hspan : ∀ j ∈ span (4 * g) 4, j / 4 = g := by
    intro j hj
    obtain ⟨i, hi, rfl⟩ := List.mem_map.mp hj
    have := List.mem_range.mp hi
    omega
  obtain ⟨hx, hxl⟩ := haccept _ hspan t h
  have hdrops : ∀ (l : List Nat) (n : Mod), StaysOrGone g e n → StaysOrGone g e (n.each l (fun m ln => (m.cleanLine ln).dropLine ln)) ∧
      (Tbl.look n.lines e.1 = none ∨ e.1 ∈ l → Tbl.look (n.each l (fun m ln => (m.cleanLine ln).dropLine ln)).lines e.1 = none) := by
    intro l
    induction l with
    | nil => exact fun n hn => ⟨hn, fun h => h.resolve_right List.not_mem_nil⟩
    | cons ln l ih =>
      intro n hn
      obtain ⟨h1, h2⟩ := staysOrGone_clean hn ln
      obtain ⟨h3, h4⟩ := ih _ h1
      refine ⟨h3, fun hh => h4 ?_⟩
      rcases hh with hh | hh
      · exact .inl (h2 (.inl hh))
      · rcases List.mem_cons.mp hh with hh | hh
        · exact .inl (h2 (.inr hh.symm))
        · exact .inr hh
  have ht : t.emptyWay g v = (t.each (span (4 * g) 4) acceptVictims).each ls (fun m ln => (m.cleanLine ln).dropLine ln) := by
    rw [← hls]
    rfl
  rw [ht]
  obtain ⟨h1, h2⟩ := hdrops ls _ hx
  refine ⟨h1, fun hh => h2 ?_⟩
  rw [hxl]
  rcases hh with hh | ⟨hs, hw⟩
  · exact .inl hh
  · refine h.2.symm.imp id fun hm => ?_
    rw [← hls]
    exact List.mem_map.mpr ⟨e, List.mem_filter.mpr ⟨hm, by simp [hs, hw]⟩, rfl⟩

theorem powerDownDone_none {m : Mod} {g : Nat} (h : m.flag F.SC_RGN_STATUS_PD_BUSY g = false) : m.powerDownDone g = m := by
  unfold powerDownDone
  rw [h]
  rfl

theorem powerDownDone_shows {m : Mod} {g : Nat} (h : m.flag F.SC_RGN_STATUS_PD_BUSY g = true) : let t := m.powerDownDone g
    t.flag F.SC_RGN_STATUS_PD_BUSY g = false ∧ OnlyRegs [(.SC_RGN_STATUS, g)] m t ∧
      ((∀ j, j / 4 = g → Tbl.get [] m.held j = []) → ∀ e ∈ m.lines, sliceOf e.1 / 4 = g → e.2.way < 16 →
        bitAt (Tbl.get 0 m.pdWays g) e.2.way = true → Tbl.look t.lines e.1 = none) := by
  intro t
  have ht : t = _ := if_neg (by rw [h]; decide)
  obtain ⟨x, hx⟩ : ∃ x, m.each (setBits 16 (Tbl.get 0 m.pdWays g)) (fun m v => m.emptyWay g v) = x := ⟨_, rfl⟩
  have hxc : m.Cached x := by
    rw [← hx]
    exact .each (fun y v => y.cached_emptyWay g v) _ m
  obtain ⟨y, hy⟩ : ∃ y, ({ x with pdWays := Tbl.set 0 x.pdWays g 0 } : Mod) = y := ⟨_, rfl⟩
  have hyr : y.regs = x.regs := by rw [← hy]
  have hyl : y.lines = x.lines := by rw [← hy]
  change t = ({ m.each (setBits 16 (Tbl.get 0 m.pdWays g)) (fun m v => m.emptyWay g v) with pdWays := Tbl.set 0 (m.each (setBits 16 (Tbl.get 0 m.pdWays g)) (fun m v => m.emptyWay g v)).pdWays g 0 } : Mod).put F.SC_RGN_STATUS_PD_BUSY g false at ht
  rw [hx, hy] at ht
  rw [ht]
  refine ⟨flag_put_self _ _ _ _ (by decide) rfl, (onlyRegs_of_regs (hyr.trans hxc.regs)).trans (onlyRegs_put y F.SC_RGN_STATUS_PD_BUSY g false), fun hheld e he hs hw hb => ?_⟩
  rw [put_lines, hyl, ← hx]
  have hall : ∀ (l : List Nat) (n : Mod), StaysOrGone g e n → (Tbl.look n.lines e.1 = none ∨ e.2.way ∈ l) →
      Tbl.look (n.each l (fun m v => m.emptyWay g v)).lines e.1 = none := by
    intro l
    induction l with
    | nil => exact fun n _ h => h.resolve_right List.not_mem_nil
    | cons v l ih =>
      intro n hn hh
      obtain ⟨h1, h2⟩ := staysOrGone_emptyWay hn v
      refine ih _ h1 ?_
      rcases hh with hh | hh
      · exact .inl (h2 (.inl hh))
      · rcases List.mem_cons.mp hh with hh | hh
        · exact .inl (h2 (.inr ⟨hs, hh⟩))
        · exact .inr hh
  exact hall _ m ⟨hheld, .inl he⟩ (.inr (List.mem_filter.mpr ⟨List.mem_range.mpr hw, hb⟩))

end Mod

end Sys2Proof.Machine

/-!
Range operations: their start, a single line, and their end (R245 to R247).
-/
namespace Sys2Proof.Machine

namespace Mod

/-! ### A range operation's start (R246) -/

/-- The module with a range operation and its master recorded. -/
def rngBegun (m : Mod) (w : Writer) (g op : Nat) (d : Bool) : Mod :=
  ((((m.wr F.SC_RNG_CMD_OP g op).put F.SC_RNG_CMD_DISCARD g d).wr F.SC_RNG_STATUS_MASTER g w.master.toNat).wr F.SC_RNG_COUNT_COUNT g 0).wr
    F.SC_RNG_SKIPPED_COUNT g 0

/-- The registers of a range engine. -/
def rngRegs : List Reg := [.SC_RNG_CMD, .SC_RNG_STATUS, .SC_RNG_COUNT, .SC_RNG_SKIPPED, .SC_RNG_FAIL]

/-- What a table's entries give that leaves one key out is as before that key is written. -/
theorem filterMap_set {α β : Type} [DecidableEq α] {f : Nat × α → Option β} {k : Nat} (h : ∀ v, f (k, v) = none) (d : α) (t : Tbl α) (v : α) :
    (Tbl.set d t k v).filterMap f = t.filterMap f := by
  have hk : ∀ e : Nat × α, e.1 = k → f e = none := by
    rintro ⟨_, v⟩ rfl
    exact h v
  have herase : (Tbl.erase t k).filterMap f = t.filterMap f := by
    induction t with
    | nil => rfl
    | cons e t ih =>
      by_cases he : e.1 = k
      · rw [Tbl.erase, List.filter_cons_of_neg (by simpa using he), List.filterMap_cons_none (hk e he)]
        exact ih
      · rw [Tbl.erase, List.filter_cons_of_pos (by simpa using he), List.filterMap_cons, List.filterMap_cons]
        rw [Tbl.erase] at ih
        rw [ih]
  have hins : ∀ t : Tbl α, (Tbl.insert k v t).filterMap f = t.filterMap f := by
    intro t
    induction t with
    | nil => exact List.filterMap_cons_none (h v)
    | cons e t ih =>
      rw [Tbl.insert]
      split
      · exact List.filterMap_cons_none (h v)
      · rw [List.filterMap_cons, List.filterMap_cons, ih]
  rw [Tbl.set]
  split
  · exact herase
  · exact (hins _).trans herase

/-- The entries of a gate that are enabled stay as another register than their CTRL is written. -/
theorem gateEnabled_wr (m : Mod) (f : Fld) (i v : Nat) (h : f.reg ≠ .GATE_ENT_CTRL) (n : Nat) : (m.wr f i v).gateEnabled n = m.gateEnabled n := by
  refine filterMap_set (fun x => if_neg fun hx => ?_) _ _ _
  have hi : regKey f.reg i % 512 = f.reg.ctorIdx :=
    regKey_mod f.reg i
  exact h (Reg.ctorIdx_inj (hi.symm.trans hx.1))

/-- From `m` to `t` only registers of the range engines change. -/
structure RngOnly (m t : Mod) : Prop where
  rest : { t with regs := m.regs, past := m.past } = m
  regs : ∀ r i, r ∉ rngRegs → t.reg r i = m.reg r i
  gates : ∀ n, t.gateEnabled n = m.gateEnabled n

theorem RngOnly.trans {m n t : Mod} (h : m.RngOnly n) (h' : n.RngOnly t) : m.RngOnly t :=
  ⟨regs_past_trans h.rest h'.rest, fun r i hr => (h'.regs r i hr).trans (h.regs r i hr), fun n => (h'.gates n).trans (h.gates n)⟩
theorem rngOnly_wr (m : Mod) (f : Fld) (i v : Nat) (h : f.reg ∈ rngRegs) : m.RngOnly (m.wr f i v) :=
  ⟨rfl, fun _ _ hr => reg_setReg_ne m _ fun e => hr (e.1 ▸ h), m.gateEnabled_wr f i v fun e => absurd (e ▸ h) (by decide)⟩

section
variable {m t : Mod} (h : m.RngOnly t)
include h

theorem RngOnly.lines_eq : t.lines = m.lines := (congrArg Mod.lines h.rest :)
theorem RngOnly.mem_eq : t.mem = m.mem := (congrArg Mod.mem h.rest :)
theorem RngOnly.tags_eq : t.tags = m.tags := (congrArg Mod.tags h.rest :)
theorem RngOnly.dramPoison_eq : t.dramPoison = m.dramPoison := (congrArg Mod.dramPoison h.rest :)
theorem RngOnly.victims_eq : t.victims = m.victims := (congrArg Mod.victims h.rest :)
theorem RngOnly.held_eq : t.held = m.held := (congrArg Mod.held h.rest :)
theorem RngOnly.plru_eq : t.plru = m.plru := (congrArg Mod.plru h.rest :)
theorem RngOnly.cores_eq : t.cores = m.cores := (congrArg Mod.cores h.rest :)
theorem RngOnly.frame_eq (ln : Nat) : t.frame ln = m.frame ln := frame_of h.mem_eq h.tags_eq h.dramPoison_eq ln
theorem RngOnly.rd_eq (f : Fld) (i : Nat) (hf : f.reg ∉ rngRegs) : t.rd f i = m.rd f i := by rw [rd, h.regs _ _ hf, rd]

theorem RngOnly.flag_eq (f : Fld) (i : Nat) (hf : f.reg ∉ rngRegs) : t.flag f i = m.flag f i := by rw [flag, h.rd_eq f i hf, flag]

/-- What a gate answers of a line of DRAM stays. -/
theorem RngOnly.gateTest_eq {q : Acc} (hq : targetOf q.addr = .dram) : t.gateTest q = m.gateTest q := by
  have hentry : ∀ a, t.entryAt 0 a = m.entryAt 0 a := fun a => by
    simp (disch := decide) only [entryAt, entBase, entTop, h.gates, h.rd_eq] <;> rfl
  have hbyte : ∀ a, t.byteTest q 0 a = m.byteTest q 0 a := fun a => by
    simp (disch := decide) only [byteTest, hentry, entRights, privAt, dbgGrants, h.rd_eq, h.flag_eq] <;> rfl
  have htarget : t.targetTest q .dram = m.targetTest q .dram := by
    simp (disch := decide) only [targetTest, mapped, h.flag_eq] <;> rfl
  simp only [gateTest, hq, htarget, gateOf, hbyte]

theorem RngOnly.victimOf_eq (ln : Nat) : t.victimOf ln = m.victimOf ln := by
  have hs : t.setLines ln = m.setLines ln := by rw [setLines, h.lines_eq, setLines]
  have ha : ∀ g w, t.allocatable g w = m.allocatable g w := fun g w => by
    rw [allocatable, h.rd_eq _ _ (by decide), h.rd_eq _ _ (by decide), allocatable]
  simp only [victimOf, hs, ha, h.plru_eq]

end

theorem rngBegun_only (m : Mod) (w : Writer) (g op : Nat) (d : Bool) : m.RngOnly (m.rngBegun w g op d) :=
  (((rngOnly_wr m _ _ _ (by decide)).trans (rngOnly_wr _ _ _ _ (by decide))).trans (rngOnly_wr _ _ _ _ (by decide))).trans
    (rngOnly_wr _ _ _ _ (by decide)) |>.trans (rngOnly_wr _ _ _ _ (by decide))

theorem rngBegun_shows (m : Mod) (w : Writer) (g : Nat) {op : Nat} (d : Bool) (h : op ≤ 5) : let t := m.rngBegun w g op d
    t.rd F.SC_RNG_CMD_OP g = op ∧ t.rd F.SC_RNG_STATUS_MASTER g = w.master.toNat ∧ t.rd F.SC_RNG_COUNT_COUNT g = 0 ∧ t.rd F.SC_RNG_SKIPPED_COUNT g = 0 ∧
      t.flag F.SC_RNG_STATUS_BUSY g = m.flag F.SC_RNG_STATUS_BUSY g := by
  refine ⟨?_, ?_, ?_, ?_, ?_⟩
  · rw [rngBegun, rd_wr_of_apart _ _ _ _ (by decide), rd_wr_of_apart _ _ _ _ (by decide), rd_wr_of_apart _ _ _ _ (by decide),
      rd_put_of_apart _ _ _ _ (by decide), rd_wr_self _ _ _ _ (by decide)]
    exact Nat.mod_eq_of_lt (show op < 8 by omega)
  · rw [rngBegun, rd_wr_of_apart _ _ _ _ (by decide), rd_wr_of_apart _ _ _ _ (by decide), rd_wr_self _ _ _ _ (by decide)]
    exact Nat.mod_eq_of_lt w.master.isLt
  · rw [rngBegun, rd_wr_of_apart _ _ _ _ (by decide), rd_wr_self _ _ _ _ (by decide), Nat.zero_mod]
  · rw [rngBegun, rd_wr_self _ _ _ _ (by decide), Nat.zero_mod]
  · simp (disch := decide) only [rngBegun, flag_wr_of_apart, flag_put_of_apart]

/-- A range operation of region `g` recorded as under way, or none. -/
def setRng (m : Mod) (g : Nat) (r : Option RangeOp) : Mod := { m with rng := Tbl.set none m.rng g r }

/-- A range operation whose lines have been taken: what they came to, and BUSY. -/
def rngTaken (m : Mod) (g op done skip : Nat) (fail : Option Nat) : Mod :=
  (((m.wr F.SC_RNG_COUNT_COUNT g (satAdd32 0 done)).wr F.SC_RNG_SKIPPED_COUNT g (satAdd32 0 skip)).setRng g (some ⟨op, fail⟩)).put F.SC_RNG_STATUS_BUSY g true

/-- The lines of the range set up, taken in turn. -/
def rngRun (m : Mod) (w : Writer) (g op base len : Nat) : Mod :=
  let first := base / 64
  let last := (base + len - 1) / 64
  let top := Nat.min last (2 ^ 46 - 1)
  let r := m.rngLoop w op (top + 1 - first) first 0 0
  r.1.rngTaken g op r.2.1 (if r.2.2.2.isNone then r.2.2.1 + (last - top) else r.2.2.1) r.2.2.2

theorem rngRun_of {m y : Mod} {w : Writer} {g op base len done skip : Nat} {fail : Option Nat}
    (h : m.rngLoop w op (Nat.min ((base + len - 1) / 64) (2 ^ 46 - 1) + 1 - base / 64) (base / 64) 0 0 = (y, done, skip, fail)) :
    m.rngRun w g op base len = y.rngTaken g op done
      (if fail.isNone then skip + ((base + len - 1) / 64 - Nat.min ((base + len - 1) / 64) (2 ^ 46 - 1)) else skip) fail := by
  unfold rngRun
  dsimp only
  rw [h]

theorem rngStart_busy {m : Mod} {g : Nat} (h : m.flag F.SC_RNG_STATUS_BUSY g = true) (w : Writer) (op : Nat) (d : Bool) :
    m.rngStart w g op d = m.put F.SC_RNG_STATUS_CMDLOST g true := if_pos h

/-- A start of an operation that is recorded: done at once, refused, or run. -/
def rngFrom (m : Mod) (w : Writer) (g op : Nat) (d : Bool) : Mod :=
  let base := m.rd F.SC_RNG_BASE_BASE g
  let len := m.rd F.SC_RNG_LEN_LEN g
  if len = 0 then (m.put F.SC_RNG_STATUS_DONE g true).raise (232 + g)
  else if op = 0 ∨ op > 5 then m.rngRefuse g 3
  else if op = 3 ∧ !d then m.rngRefuse g 1
  else if op = 5 ∧ (base % 64 ≠ 0 ∨ len % 64 ≠ 0) then m.rngRefuse g 2
  else m.rngRun w g op base len

theorem rngStart_from {m : Mod} {g op : Nat} (hidle : m.flag F.SC_RNG_STATUS_BUSY g = false) (hop : 1 ≤ op ∧ op ≤ 5) (w : Writer) (d : Bool) :
    m.rngStart w g op d = (m.rngBegun w g op d).rngFrom w g op d := by
  have hb : (1 ≤ op && op ≤ 5) = true := by simp [hop]
  have hx : m.iff (1 ≤ op && op ≤ 5) (fun m => (m.wr F.SC_RNG_CMD_OP g op).put F.SC_RNG_CMD_DISCARD g d) =
      (m.wr F.SC_RNG_CMD_OP g op).put F.SC_RNG_CMD_DISCARD g d := by rw [hb, iff_true]
  unfold rngStart
  rewrite [hidle, if_neg (by decide), hx]
  extract_lets m1 x base len first last top
  have hs : x = m.rngBegun w g op d := rfl
  clear_value x
  rewrite [← hs, rngFrom]
  have hr : ∃ r, x.rngLoop w op (top + 1 - first) first 0 0 = r := ⟨_, rfl⟩
  obtain ⟨⟨y, done, skip, fail⟩, hr⟩ := hr
  have hrun : x.rngRun w g op (x.rd F.SC_RNG_BASE_BASE g) (x.rd F.SC_RNG_LEN_LEN g) = _ := rngRun_of hr
  rewrite [hr, hrun]
  rfl

section
variable {m : Mod} {g op : Nat} (hop : 1 ≤ op ∧ op ≤ 5)

theorem rngFrom_empty (hl : m.rd F.SC_RNG_LEN_LEN g = 0) (w : Writer) (d : Bool) :
    m.rngFrom w g op d = (m.put F.SC_RNG_STATUS_DONE g true).raise (232 + g) := by
  unfold rngFrom
  exact if_pos hl

theorem rngFrom_kept (hl : m.rd F.SC_RNG_LEN_LEN g ≠ 0) (w : Writer) : m.rngFrom w g 3 false = m.rngRefuse g 1 := by
  unfold rngFrom
  exact (if_neg hl).trans ((if_neg (by decide)).trans (if_pos (by decide)))

theorem rngFrom_partial (hl : m.rd F.SC_RNG_LEN_LEN g ≠ 0) (ha : m.rd F.SC_RNG_BASE_BASE g % 64 ≠ 0 ∨ m.rd F.SC_RNG_LEN_LEN g % 64 ≠ 0) (w : Writer) (d : Bool) :
    m.rngFrom w g 5 d = m.rngRefuse g 2 := by
  unfold rngFrom
  exact (if_neg hl).trans ((if_neg (by decide)).trans ((if_neg fun h => absurd h.1 (by decide)).trans (if_pos ⟨rfl, ha⟩)))

include hop in
theorem rngFrom_run (hl : m.rd F.SC_RNG_LEN_LEN g ≠ 0) (w : Writer) {d : Bool} (hd : op = 3 → d = true)
    (ha : op = 5 → m.rd F.SC_RNG_BASE_BASE g % 64 = 0 ∧ m.rd F.SC_RNG_LEN_LEN g % 64 = 0) :
    m.rngFrom w g op d = m.rngRun w g op (m.rd F.SC_RNG_BASE_BASE g) (m.rd F.SC_RNG_LEN_LEN g) := by
  unfold rngFrom
  refine (if_neg hl).trans ((if_neg (by omega)).trans ((if_neg ?_).trans (if_neg ?_)))
  · rintro ⟨h3, hn⟩
    rw [hd h3] at hn
    exact absurd hn (by decide)
  · rintro ⟨h5, hb | hn⟩
    exacts [hb (ha h5).1, hn (ha h5).2]

end

/-! ### A single line (R245) -/

theorem satAdd32_zero : satAdd32 0 0 = 0 := by decide
theorem satAdd32_one : satAdd32 0 1 = 1 := by decide

/-- A single line that is processed. -/
theorem rngRun_line {m y : Mod} {w : Writer} {g op ln base len : Nat} (hb : base / 64 = ln) (hl : (base + len - 1) / 64 = ln)
    (hd : 64 * ln < dramTop) (hy : m.rngLine w op ln = (y, some true)) : m.rngRun w g op base len = y.rngTaken g op 1 0 none := by
  have htop : Nat.min ln (2 ^ 46 - 1) = ln := Nat.min_eq_left (by unfold dramTop at hd; omega)
  have hloop : m.rngLoop w op (ln + 1 - ln) ln 0 0 = (y, 1, 0, none) := by
    rw [Nat.add_sub_cancel_left, rngLoop, hy]
    rfl
  unfold rngRun
  dsimp only
  rw [hb, hl, htop, hloop, Nat.sub_self]
  rfl

theorem rd_setRng (m : Mod) (g : Nat) (r : Option RangeOp) (f : Fld) (i : Nat) : (m.setRng g r).rd f i = m.rd f i := rfl

theorem rngTaken_shows (m : Mod) (g op done skip : Nat) (fail : Option Nat) : let t := m.rngTaken g op done skip fail
    t.flag F.SC_RNG_STATUS_BUSY g = true ∧ Tbl.get none t.rng g = some ⟨op, fail⟩ := by
  refine ⟨flag_put_self _ _ _ _ (by decide) rfl, ?_⟩
  rw [rngTaken, put_rng, setRng, Tbl.get_set_self]

/-- What a single line that is processed shows: counted, and not skipped. -/
theorem rngTaken_counts (m : Mod) (g op : Nat) : let t := m.rngTaken g op 1 0 none
    t.rd F.SC_RNG_COUNT_COUNT g = 1 ∧ t.rd F.SC_RNG_SKIPPED_COUNT g = 0 := by
  refine ⟨?_, ?_⟩
  · rw [rngTaken, rd_put_of_apart _ _ _ _ (by decide), rd_setRng, rd_wr_of_apart _ _ _ _ (by decide), rd_wr_self _ _ _ _ (by decide)]
    decide
  · rw [rngTaken, rd_put_of_apart _ _ _ _ (by decide), rd_setRng, rd_wr_self _ _ _ _ (by decide)]
    decide

theorem rngTaken_keeps (m : Mod) (g op done skip : Nat) (fail : Option Nat) : let t := m.rngTaken g op done skip fail
    t.lines = m.lines ∧ t.mem = m.mem ∧ t.tags = m.tags ∧ t.dramPoison = m.dramPoison ∧ t.side = m.side ∧ t.cores = m.cores := by
  refine ⟨?_, ?_, ?_, ?_, ?_, ?_⟩
  · rw [rngTaken, put_lines, setRng, wr_lines, wr_lines]
  · rw [rngTaken, put_mem, setRng, wr_mem, wr_mem]
  · rw [rngTaken, put_tags, setRng, wr_tags, wr_tags]
  · rw [rngTaken, put_dramPoison, setRng, wr_dramPoison, wr_dramPoison]
  · rw [rngTaken, put_side, setRng, wr_side, wr_side]
  · rw [rngTaken, put_cores, setRng, wr_cores, wr_cores]

/-! ### Refused, done at once, and the end -/

theorem rngRefuse_shows (m : Mod) (g : Nat) {reason : Nat} (h : reason < 4) : let t := m.rngRefuse g reason
    (t.flag F.SC_RNG_STATUS_BUSY g = m.flag F.SC_RNG_STATUS_BUSY g ∧ t.flag F.SC_RNG_STATUS_DONE g = true) ∧ t.flag F.SC_RNG_STATUS_ERR g = true ∧
      t.rd F.SC_RNG_STATUS_REASON g = reason ∧ t.lines = m.lines ∧ t.mem = m.mem := by
  refine ⟨⟨?_, flag_put_self _ _ _ _ (by decide) rfl⟩, ?_, ?_, ?_, ?_⟩
  · rw [rngRefuse, flag_put_of_apart _ _ _ _ (by decide), flag_wr_of_apart _ _ _ _ (by decide), flag_put_of_apart _ _ _ _ (by decide)]
  · rw [rngRefuse, flag_put_of_apart _ _ _ _ (by decide), flag_wr_of_apart _ _ _ _ (by decide), flag_put_self _ _ _ _ (by decide) rfl]
  · rw [rngRefuse, rd_put_of_apart _ _ _ _ (by decide), rd_wr_self _ _ _ _ (by decide)]
    exact Nat.mod_eq_of_lt h
  · rw [rngRefuse, put_lines, wr_lines, put_lines]
  · rw [rngRefuse, put_mem, wr_mem, put_mem]

theorem rngEmpty_shows (m : Mod) (g : Nat) : let t := (m.put F.SC_RNG_STATUS_DONE g true).raise (232 + g)
    (t.flag F.SC_RNG_STATUS_BUSY g = m.flag F.SC_RNG_STATUS_BUSY g ∧ t.flag F.SC_RNG_STATUS_DONE g = true) ∧ t.rd F.SC_RNG_CMD_OP g = m.rd F.SC_RNG_CMD_OP g ∧
      t.rd F.SC_RNG_STATUS_MASTER g = m.rd F.SC_RNG_STATUS_MASTER g ∧ t.rd F.SC_RNG_COUNT_COUNT g = m.rd F.SC_RNG_COUNT_COUNT g ∧
      t.rd F.SC_RNG_SKIPPED_COUNT g = m.rd F.SC_RNG_SKIPPED_COUNT g ∧ t.lines = m.lines ∧ t.mem = m.mem := by
  have hraise := (m.put F.SC_RNG_STATUS_DONE g true).told_raise (232 + g)
  intro t
  refine ⟨⟨?_, ?_⟩, ?_, ?_, ?_, ?_, ?_, ?_⟩
  · exact (hraise.regs.flag_of_reg _ (by decide)).trans (flag_put_of_apart _ _ _ _ (by decide))
  · exact (hraise.regs.flag_of_reg _ (by decide)).trans (flag_put_self _ _ _ _ (by decide) rfl)
  · exact (hraise.regs.rd_of_reg _ (by decide)).trans (rd_put_of_apart _ _ _ _ (by decide))
  · exact (hraise.regs.rd_of_reg _ (by decide)).trans (rd_put_of_apart _ _ _ _ (by decide))
  · exact (hraise.regs.rd_of_reg _ (by decide)).trans (rd_put_of_apart _ _ _ _ (by decide))
  · exact (hraise.regs.rd_of_reg _ (by decide)).trans (rd_put_of_apart _ _ _ _ (by decide))
  · exact hraise.lines_eq.trans (m.put_lines _ _ _)
  · exact hraise.mem_eq.trans (m.put_mem _ _ _)

/-- What the end of a range operation leaves: BUSY clear, DONE, and the refused line where one was. -/
theorem rngDone_eq {m : Mod} {g op : Nat} {fail : Option Nat} (h : Tbl.get none m.rng g = some ⟨op, fail⟩) :
    ∃ x : Mod, x.regs = m.regs ∧ x.rng = Tbl.set none m.rng g none ∧ m.rngDone g =
      ((fail.elim (x.put F.SC_RNG_STATUS_BUSY g false) fun ln => (((x.put F.SC_RNG_STATUS_BUSY g false).wr F.SC_RNG_FAIL_ADDR g (64 * ln)).put
        F.SC_RNG_STATUS_ERR g true).wr F.SC_RNG_STATUS_REASON g 0).put F.SC_RNG_STATUS_DONE g true).raise (232 + g) := by
  refine ⟨{ m with rng := Tbl.set none m.rng g none }, rfl, rfl, ?_⟩
  unfold rngDone
  rw [h]
  cases fail <;> rfl

end Mod

end Sys2Proof.Machine

/-!
A single line of DRAM cleaned, invalidated, warmed and zeroed by a range operation (R245).
-/
namespace Sys2Proof.Machine

namespace Mod

theorem targetOf_dram {ln : Nat} (h : 64 * ln < dramTop) : targetOf (64 * ln) = .dram := if_pos h

/-- Nothing sent and nothing held: accepting the victims of a slice leaves its lines, side buffer, copies and every frame. -/
theorem acceptVictims_idle {m : Mod} {sl : Nat} (hv : Tbl.get [] m.victims sl = []) (hh : Tbl.get [] m.held sl = []) : let t := m.acceptVictims sl
    t.lines = m.lines ∧ m.FramesKept t ∧ t.side = m.side ∧ t.cores = m.cores := by
  rw [acceptVictims_none hv hh]
  exact ⟨rfl, ⟨rfl, rfl, rfl⟩, rfl, rfl⟩

theorem passGate_admits {m : Mod} {q : Acc} (h : m.gateTest q = none) : m.passGate q = (m, none) := by rw [passGate, h]

/-! ### The line of each operation -/

section
variable {m : Mod} {ln : Nat} (hd : 64 * ln < dramTop) (w : Writer)
include hd

theorem rngLine_clean : m.rngLine w 1 ln = (((m.acceptVictims (sliceOf ln)).cleanLine ln).sideDrop ln, some true) := by
  unfold rngLine
  dsimp only
  rw [targetOf_dram hd]
  rfl

theorem rngLine_cleanInval : m.rngLine w 2 ln = (((m.acceptVictims (sliceOf ln)).cleanLine ln).dropLine ln, some true) := by
  unfold rngLine
  dsimp only
  rw [targetOf_dram hd]
  rfl

theorem rngLine_inval (h : m.gateTest ⟨w.master.toNat, w.sys, 0, w.node.toNat, 64 * ln, 64, .rangeWrite⟩ = none) :
    m.rngLine w 3 ln = ((m.acceptVictims (sliceOf ln)).dropLine ln, some true) := by
  unfold rngLine
  dsimp only
  rw [targetOf_dram hd]
  dsimp only
  rw [passGate_admits h]
  rfl

theorem rngLine_warm (h : m.gateTest ⟨w.master.toNat, w.sys, 0, w.node.toNat, 64 * ln, 64, .rangeRead⟩ = none) :
    m.rngLine w 4 ln = ((m.sideDrop ln).bring ln, some true) := by
  unfold rngLine
  dsimp only
  rw [targetOf_dram hd]
  dsimp only
  rw [passGate_admits h]
  rfl

theorem rngLine_zero (h : m.gateTest ⟨w.master.toNat, w.sys, 0, w.node.toNat, 64 * ln, 64, .rangeWrite⟩ = none) :
    m.rngLine w 5 ln = (m.writeLine (64 * ln) (List.replicate 64 0) none none, some true) := by
  unfold rngLine
  dsimp only
  rw [targetOf_dram hd]
  dsimp only
  rw [passGate_admits h]
  rfl

end

/-! ### What each line shows -/

/-- A line brought into its slice from its frame, where no slice and no side buffer holds it and a way is free. -/
theorem bring_absent {m : Mod} {ln way : Nat} (hv : Tbl.get [] m.victims (sliceOf ln) = []) (hh : Tbl.get [] m.held (sliceOf ln) = [])
    (hl : Tbl.look m.lines ln = none) (hs : (Tbl.get [] m.side (sliceOf ln)).find? (·.line == ln) = none) (hw : m.victimOf ln = (way, none)) :
    let t := m.bring ln
    Tbl.look t.lines ln = some ⟨way, (m.frame ln).data, (m.frame ln).tags, false, (m.frame ln).poison, 0⟩ ∧ m.FramesKept t ∧ t.cores = m.cores := by
  have hx := acceptVictims_none hv hh
  unfold bring
  rw [hx]
  obtain ⟨x, he⟩ : ∃ x, ({ m with victims := Tbl.set [] m.victims (sliceOf ln) [], held := Tbl.set [] m.held (sliceOf ln) [] } : Mod) = x := ⟨_, rfl⟩
  have hlx : x.lines = m.lines := by rw [← he]
  have hsx : x.side = m.side := by rw [← he]
  have hcx : x.cores = m.cores := by rw [← he]
  have hfx : m.FramesKept x := by rw [← he]; exact ⟨rfl, rfl, rfl⟩
  have hwx : x.victimOf ln = (way, none) := by rw [← he]; exact hw
  rw [he]
  dsimp only
  rw [hlx, hsx, hl, hs]
  dsimp only
  refine ⟨?_, ?_, ?_⟩
  · rw [look_allocate, hwx, hfx.frame]
  · rw [allocate_free hwx]
    exact hfx.trans ⟨rfl, rfl, rfl⟩
  · rw [allocate_free hwx]
    exact hcx

theorem find_sideDrop (m : Mod) (ln : Nat) : (Tbl.get [] (m.sideDrop ln).side (sliceOf ln)).find? (·.line == ln) = none := by
  have h : Tbl.get [] (m.sideDrop ln).side (sliceOf ln) = (Tbl.get [] m.side (sliceOf ln)).filter (·.line != ln) := Tbl.get_set_self _ _ _ _
  rw [h, List.find?_eq_none]
  intro x hx
  have hne := (List.mem_filter.mp hx).2
  simp_all

theorem ofLeBytes_zeros (n : Nat) : ofLeBytes (List.replicate n 0) = 0 := by
  induction n with
  | zero => rfl
  | succ n ih => rw [List.replicate_succ, ofLeBytes, ih]; rfl

/-- A whole line of zeros written: it is in its slice, dirty, without tags and without poison. -/
theorem writeLine_zeros (m : Mod) (ln : Nat) : ∃ x, Tbl.look (m.writeLine (64 * ln) (List.replicate 64 0) none none).lines ln = some x ∧
    x.data = 0 ∧ x.tags = 0 ∧ x.dirty = true ∧ x.poison = false := by
  have hdata : BitVec.ofNat 512 (ofLeBytes (List.replicate 64 0)) = 0 := by rw [ofLeBytes_zeros]; rfl
  have htags : tagsAfter 0 0 64 none = 0 := by decide
  have hwhole : (List.replicate 64 (0 : Byte)).length = 64 ∧ 64 * ln % 64 = 0 := ⟨List.length_replicate, by omega⟩
  unfold writeLine
  dsimp only
  rw [if_pos hwhole, hdata, htags, Nat.mul_div_cancel_left ln (by decide : 0 < 64)]
  generalize ((m.acceptVictims (sliceOf ln)).l1Invalidate ln none).sideDrop ln = x
  split
  · exact ⟨_, Tbl.look_put_self _ _ _, rfl, rfl, rfl, rfl⟩
  · exact ⟨_, x.look_allocate ln 0 0 true false, rfl, rfl, rfl, rfl⟩

/-- A line cleaned and dropped. -/
theorem clean_dropped {m : Mod} {ln : Nat} {k : Line} (hl : Tbl.look m.lines ln = some k) :
    (m.cleanLine ln).Dropped ((m.cleanLine ln).dropLine ln) ln ∧
      ((m.cleanLine ln).dropLine ln).frame ln = if k.dirty then ⟨ln, k.data, k.tags, k.poison⟩ else m.frame ln := by
  have hdrop := (m.cleanLine ln).dropLine_drops ln
  refine ⟨hdrop, ?_⟩
  rw [hdrop.frames.frame]
  cases hk : k.dirty with
  | true => exact (cleanLine_dirty hl hk).1
  | false => rw [cleanLine_clean hl hk]; rfl

end Mod

end Sys2Proof.Machine

/-!
Slices, conversions and range operations: what their commands do (R236 to R247).
-/
namespace Sys2Proof.Machine

namespace Mod

/-! ### What a range operation's start shows -/

section
variable {m : Mod} {g : Nat} (hidle : m.flag F.SC_RNG_STATUS_BUSY g = false) (w : Writer)
include hidle

theorem rngStart_empty {op : Nat} (hop : 1 ≤ op ∧ op ≤ 5) (hlen : m.rd F.SC_RNG_LEN_LEN g = 0) (d : Bool) : let t := m.rngStart w g op d
    (t.flag F.SC_RNG_STATUS_BUSY g = false ∧ t.flag F.SC_RNG_STATUS_DONE g = true) ∧ t.rd F.SC_RNG_CMD_OP g = op ∧
      t.rd F.SC_RNG_STATUS_MASTER g = w.master.toNat ∧ t.rd F.SC_RNG_COUNT_COUNT g = 0 ∧ t.rd F.SC_RNG_SKIPPED_COUNT g = 0 ∧
      t.lines = m.lines ∧ t.mem = m.mem := by
  have honly := m.rngBegun_only w g op d
  obtain ⟨hb1, hb2, hb3, hb4, hb5⟩ := m.rngBegun_shows w g d hop.2
  have hl : (m.rngBegun w g op d).rd F.SC_RNG_LEN_LEN g = 0 := (honly.rd_eq _ _ (by decide)).trans hlen
  rw [rngStart_from hidle hop, rngFrom_empty hl]
  generalize m.rngBegun w g op d = x at honly hb1 hb2 hb3 hb4 hb5
  obtain ⟨⟨h1, h2⟩, h3, h4, h5, h6, h7, h8⟩ := x.rngEmpty_shows g
  exact ⟨⟨h1.trans (hb5.trans hidle), h2⟩, h3.trans hb1, h4.trans hb2, h5.trans hb3, h6.trans hb4, h7.trans honly.lines_eq, h8.trans honly.mem_eq⟩

theorem rngStart_refused {op reason : Nat} (hop : 1 ≤ op ∧ op ≤ 5) (hr : reason < 4) {d : Bool}
    (hfrom : ∀ x : Mod, x.rd F.SC_RNG_LEN_LEN g = m.rd F.SC_RNG_LEN_LEN g → x.rd F.SC_RNG_BASE_BASE g = m.rd F.SC_RNG_BASE_BASE g →
      x.rngFrom w g op d = x.rngRefuse g reason) : let t := m.rngStart w g op d
    (t.flag F.SC_RNG_STATUS_BUSY g = false ∧ t.flag F.SC_RNG_STATUS_DONE g = true) ∧ t.flag F.SC_RNG_STATUS_ERR g = true ∧
      t.rd F.SC_RNG_STATUS_REASON g = reason ∧ t.lines = m.lines ∧ t.mem = m.mem := by
  have honly := m.rngBegun_only w g op d
  have hb5 := (m.rngBegun_shows w g d hop.2).2.2.2.2
  rw [rngStart_from hidle hop, hfrom _ (honly.rd_eq _ _ (by decide)) (honly.rd_eq _ _ (by decide))]
  generalize m.rngBegun w g op d = x at honly hb5
  obtain ⟨⟨h1, h2⟩, h3, h4, h5, h6⟩ := x.rngRefuse_shows g hr
  exact ⟨⟨h1.trans (hb5.trans hidle), h2⟩, h3, h4, h5.trans honly.lines_eq, h6.trans honly.mem_eq⟩

variable {op : Nat} (hop : 1 ≤ op ∧ op ≤ 5) (hlen : m.rd F.SC_RNG_LEN_LEN g ≠ 0) {d : Bool} (hd : op = 3 → d = true)
  (ha : op = 5 → m.rd F.SC_RNG_BASE_BASE g % 64 = 0 ∧ m.rd F.SC_RNG_LEN_LEN g % 64 = 0)
include hop hlen hd ha

/-- A start that is neither done at once nor refused. -/
theorem rngStart_run : m.rngStart w g op d = (m.rngBegun w g op d).rngRun w g op (m.rd F.SC_RNG_BASE_BASE g) (m.rd F.SC_RNG_LEN_LEN g) := by
  have honly := m.rngBegun_only w g op d
  have hb := honly.rd_eq F.SC_RNG_BASE_BASE g (by decide)
  have hl := honly.rd_eq F.SC_RNG_LEN_LEN g (by decide)
  rw [rngStart_from hidle hop, rngFrom_run hop (by rw [hl]; exact hlen) w hd (by rw [hb, hl]; exact ha), hb, hl]

theorem rngStart_busies : let t := m.rngStart w g op d
    t.flag F.SC_RNG_STATUS_BUSY g = true ∧ ∃ x, Tbl.get none t.rng g = some ⟨op, x⟩ := by
  rw [rngStart_run hidle w hop hlen hd ha]
  obtain ⟨r, hr⟩ : ∃ r, (m.rngBegun w g op d).rngLoop w op (Nat.min ((m.rd F.SC_RNG_BASE_BASE g + m.rd F.SC_RNG_LEN_LEN g - 1) / 64) (2 ^ 46 - 1) + 1 -
    m.rd F.SC_RNG_BASE_BASE g / 64) (m.rd F.SC_RNG_BASE_BASE g / 64) 0 0 = r := ⟨_, rfl⟩
  obtain ⟨y, done, skip, fail⟩ := r
  rw [rngRun_of hr]
  obtain ⟨h1, h2⟩ := y.rngTaken_shows g op done _ fail
  exact ⟨h1, fail, h2⟩

/-- The start of an operation on one line of DRAM that is processed. -/
theorem rngStart_line {ln : Nat} {y : Mod} (hb : m.rd F.SC_RNG_BASE_BASE g / 64 = ln) (hl : (m.rd F.SC_RNG_BASE_BASE g + m.rd F.SC_RNG_LEN_LEN g - 1) / 64 = ln)
    (hdram : 64 * ln < dramTop) (hy : (m.rngBegun w g op d).rngLine w op ln = (y, some true)) : m.rngStart w g op d = y.rngTaken g op 1 0 none := by
  rw [rngStart_run hidle w hop hlen hd ha, rngRun_line hb hl hdram hy]

end

/-! ### A single line of DRAM -/

theorem sideDrop_keeps (m : Mod) (ln : Nat) : let t := m.sideDrop ln
    t.victims = m.victims ∧ t.held = m.held ∧ t.lines = m.lines ∧ t.cores = m.cores := ⟨rfl, rfl, rfl, rfl⟩

theorem victimOf_sideDrop (m : Mod) (ln : Nat) : (m.sideDrop ln).victimOf ln = m.victimOf ln := by
  have hs : (m.sideDrop ln).setLines ln = m.setLines ln := rfl
  have ha : ∀ g w, (m.sideDrop ln).allocatable g w = m.allocatable g w := fun _ _ => rfl
  have hp : (m.sideDrop ln).plru = m.plru := rfl
  simp only [victimOf, hs, ha, hp]

section
variable {m : Mod} {g ln : Nat} (w : Writer) (hidle : m.flag F.SC_RNG_STATUS_BUSY g = false) (hlen : m.rd F.SC_RNG_LEN_LEN g ≠ 0)
  (hb : m.rd F.SC_RNG_BASE_BASE g / 64 = ln) (hl : (m.rd F.SC_RNG_BASE_BASE g + m.rd F.SC_RNG_LEN_LEN g - 1) / 64 = ln) (hdram : 64 * ln < dramTop)

theorem rngTaken_counted (y : Mod) (op : Nat) : let t := y.rngTaken g op 1 0 none
    t.rd F.SC_RNG_COUNT_COUNT g = 1 ∧ t.rd F.SC_RNG_SKIPPED_COUNT g = 0 ∧ Tbl.get none t.rng g = some ⟨op, none⟩ :=
  ⟨(y.rngTaken_counts g op).1, (y.rngTaken_counts g op).2, (y.rngTaken_shows g op 1 0 none).2⟩

theorem frame_rngTaken (y : Mod) (op ln : Nat) : (y.rngTaken g op 1 0 none).frame ln = y.frame ln := by
  obtain ⟨_, hmem, htags, hp, _⟩ := y.rngTaken_keeps g op 1 0 none
  exact frame_of hmem htags hp ln

/-- A line dropped stays so once it is counted. -/
theorem rngTaken_gone {x y : Mod} (hy : x.Dropped y ln) (op : Nat) : let t := y.rngTaken g op 1 0 none
    Tbl.look t.lines ln = none ∧ (∀ x ∈ Tbl.get [] t.side (sliceOf ln), x.line ≠ ln) ∧ ∀ c : CoreId, ∀ x ∈ (t.core c).l1d ++ (t.core c).l1i, x.1 ≠ ln := by
  obtain ⟨hlines, _, _, _, hside, hcores⟩ := y.rngTaken_keeps g op 1 0 none
  have hcore : ∀ c : CoreId, (y.rngTaken g op 1 0 none).core c = y.core c := fun c => by rw [core, hcores, core]
  dsimp only
  rw [hlines, hside]
  refine ⟨hy.look, hy.side, fun c => ?_⟩
  rw [hcore]
  exact hy.copies c

include hidle hlen hb hl hdram

section
variable (hv : Tbl.get [] m.victims (sliceOf ln) = []) (hh : Tbl.get [] m.held (sliceOf ln) = [])
include hv hh

theorem rngStart_clean {k : Line} (hk : Tbl.look m.lines ln = some k) (hdirty : k.dirty = true) (d : Bool) : let t := m.rngStart w g 1 d
    t.frame ln = ⟨ln, k.data, k.tags, k.poison⟩ ∧ Tbl.look t.lines ln = some { k with dirty := false } ∧
      t.rd F.SC_RNG_COUNT_COUNT g = 1 ∧ t.rd F.SC_RNG_SKIPPED_COUNT g = 0 ∧ Tbl.get none t.rng g = some ⟨1, none⟩ := by
  have honly := m.rngBegun_only w g 1 d
  rw [rngStart_line hidle w (by decide) hlen (by simp) (by simp) hb hl hdram (rngLine_clean hdram w)]
  generalize m.rngBegun w g 1 d = x at honly
  obtain ⟨hxl, _⟩ := acceptVictims_idle (m := x) (sl := sliceOf ln) (by rw [honly.victims_eq, hv]) (by rw [honly.held_eq, hh])
  obtain ⟨hframe, hlook⟩ := cleanLine_dirty (m := x.acceptVictims (sliceOf ln)) (by rw [hxl, honly.lines_eq]; exact hk) hdirty
  generalize (x.acceptVictims (sliceOf ln)).cleanLine ln = y at hframe hlook
  have hside := y.framesKept_sideDrop ln
  have hlines : (y.sideDrop ln).lines = y.lines := rfl
  generalize y.sideDrop ln = z at hside hlines
  refine ⟨?_, ?_, rngTaken_counted z 1⟩
  · rw [frame_rngTaken, hside.frame, hframe]
  · rw [(z.rngTaken_keeps g 1 1 0 none).1, hlines, hlook]

theorem rngStart_cleanInval {k : Line} (hk : Tbl.look m.lines ln = some k) (d : Bool) : let t := m.rngStart w g 2 d
    (t.rd F.SC_RNG_COUNT_COUNT g = 1 ∧ t.rd F.SC_RNG_SKIPPED_COUNT g = 0 ∧ Tbl.get none t.rng g = some ⟨2, none⟩) ∧
      (Tbl.look t.lines ln = none ∧ (∀ x ∈ Tbl.get [] t.side (sliceOf ln), x.line ≠ ln) ∧ ∀ c : CoreId, ∀ x ∈ (t.core c).l1d ++ (t.core c).l1i, x.1 ≠ ln) ∧
      t.frame ln = if k.dirty then ⟨ln, k.data, k.tags, k.poison⟩ else m.frame ln := by
  have honly := m.rngBegun_only w g 2 d
  rw [rngStart_line hidle w (by decide) hlen (by simp) (by simp) hb hl hdram (rngLine_cleanInval hdram w), ← honly.frame_eq ln]
  generalize m.rngBegun w g 2 d = x at honly
  obtain ⟨hxl, hxf, _⟩ := acceptVictims_idle (m := x) (sl := sliceOf ln) (by rw [honly.victims_eq, hv]) (by rw [honly.held_eq, hh])
  rw [← hxf.frame ln]
  generalize x.acceptVictims (sliceOf ln) = y at hxl
  obtain ⟨hdrop, hframe⟩ := clean_dropped (m := y) (by rw [hxl, honly.lines_eq]; exact hk)
  exact ⟨rngTaken_counted _ 2, rngTaken_gone hdrop 2, (frame_rngTaken _ 2 ln).trans hframe⟩

theorem rngStart_inval (hg : m.gateTest ⟨w.master.toNat, w.sys, 0, w.node.toNat, 64 * ln, 64, .rangeWrite⟩ = none) : let t := m.rngStart w g 3 true
    (t.rd F.SC_RNG_COUNT_COUNT g = 1 ∧ t.rd F.SC_RNG_SKIPPED_COUNT g = 0 ∧ Tbl.get none t.rng g = some ⟨3, none⟩) ∧
      (Tbl.look t.lines ln = none ∧ (∀ x ∈ Tbl.get [] t.side (sliceOf ln), x.line ≠ ln) ∧ ∀ c : CoreId, ∀ x ∈ (t.core c).l1d ++ (t.core c).l1i, x.1 ≠ ln) ∧
      t.frame ln = m.frame ln := by
  have honly := m.rngBegun_only w g 3 true
  rw [rngStart_line hidle w (by decide) hlen (fun _ => rfl) (by simp) hb hl hdram
    (rngLine_inval hdram w ((honly.gateTest_eq (targetOf_dram hdram)).trans hg)), ← honly.frame_eq ln]
  generalize m.rngBegun w g 3 true = x at honly
  obtain ⟨_, hxf, _⟩ := acceptVictims_idle (m := x) (sl := sliceOf ln) (by rw [honly.victims_eq, hv]) (by rw [honly.held_eq, hh])
  rw [← hxf.frame ln]
  generalize x.acceptVictims (sliceOf ln) = y
  have hdrop := y.dropLine_drops ln
  exact ⟨rngTaken_counted _ 3, rngTaken_gone hdrop 3, (frame_rngTaken _ 3 ln).trans (hdrop.frames.frame ln)⟩

theorem rngStart_warm {way : Nat} (hg : m.gateTest ⟨w.master.toNat, w.sys, 0, w.node.toNat, 64 * ln, 64, .rangeRead⟩ = none)
    (hk : Tbl.look m.lines ln = none) (hw : m.victimOf ln = (way, none)) (d : Bool) : let t := m.rngStart w g 4 d
    (t.rd F.SC_RNG_COUNT_COUNT g = 1 ∧ t.rd F.SC_RNG_SKIPPED_COUNT g = 0 ∧ Tbl.get none t.rng g = some ⟨4, none⟩) ∧
      Tbl.look t.lines ln = some ⟨way, (m.frame ln).data, (m.frame ln).tags, false, (m.frame ln).poison, 0⟩ ∧ t.frame ln = m.frame ln ∧
      t.cores = m.cores := by
  have honly := m.rngBegun_only w g 4 d
  rw [rngStart_line hidle w (by decide) hlen (by simp) (by simp) hb hl hdram
    (rngLine_warm hdram w ((honly.gateTest_eq (targetOf_dram hdram)).trans hg)), ← honly.frame_eq ln]
  have hwx := (honly.victimOf_eq ln).trans hw
  generalize m.rngBegun w g 4 d = x at honly hwx
  have hside := x.framesKept_sideDrop ln
  have hsk := x.sideDrop_keeps ln
  have hsv : Tbl.get [] (x.sideDrop ln).victims (sliceOf ln) = [] := by rw [hsk.1, honly.victims_eq, hv]
  have hsh : Tbl.get [] (x.sideDrop ln).held (sliceOf ln) = [] := by rw [hsk.2.1, honly.held_eq, hh]
  have hsl : Tbl.look (x.sideDrop ln).lines ln = none := by rw [hsk.2.2.1, honly.lines_eq, hk]
  have hss := x.find_sideDrop ln
  have hsw := (x.victimOf_sideDrop ln).trans hwx
  have hsc : (x.sideDrop ln).cores = m.cores := hsk.2.2.2.trans honly.cores_eq
  generalize x.sideDrop ln = y at hside hsk hsv hsh hsl hss hsw hsc
  obtain ⟨hlook, hframes, hcores⟩ := bring_absent hsv hsh hsl hss hsw
  rw [hside.frame] at hlook
  have hkept := hside.trans hframes
  have hkc := hcores.trans hsc
  generalize y.bring ln = z at hlook hkept hkc
  obtain ⟨ht1, _, _, _, _, ht6⟩ := z.rngTaken_keeps g 4 1 0 none
  exact ⟨rngTaken_counted z 4, by rw [ht1, hlook], by rw [frame_rngTaken, hkept.frame], ht6.trans hkc⟩

end

theorem rngStart_zero (hg : m.gateTest ⟨w.master.toNat, w.sys, 0, w.node.toNat, 64 * ln, 64, .rangeWrite⟩ = none)
    (ha : m.rd F.SC_RNG_BASE_BASE g % 64 = 0 ∧ m.rd F.SC_RNG_LEN_LEN g % 64 = 0) (d : Bool) : let t := m.rngStart w g 5 d
    (t.rd F.SC_RNG_COUNT_COUNT g = 1 ∧ t.rd F.SC_RNG_SKIPPED_COUNT g = 0 ∧ Tbl.get none t.rng g = some ⟨5, none⟩) ∧
      ∃ x, Tbl.look t.lines ln = some x ∧ x.data = 0 ∧ x.tags = 0 ∧ x.dirty = true ∧ x.poison = false := by
  have honly := m.rngBegun_only w g 5 d
  rw [rngStart_line hidle w (by decide) hlen (by simp) (fun _ => ha) hb hl hdram
    (rngLine_zero hdram w ((honly.gateTest_eq (targetOf_dram hdram)).trans hg))]
  have hzeros := (m.rngBegun w g 5 d).writeLine_zeros ln
  generalize (m.rngBegun w g 5 d).writeLine (64 * ln) (List.replicate 64 0) none none = y at hzeros
  obtain ⟨x, hx, hrest⟩ := hzeros
  exact ⟨rngTaken_counted y 5, x, (congrArg (Tbl.look · ln) (y.rngTaken_keeps g 5 1 0 none).1).trans hx, hrest⟩

end

/-! ### The end of a range operation -/

theorem Told.rng_eq {l : List (Reg × Nat)} {m t : Mod} (h : m.Told l t) : t.rng = m.rng := (congrArg Mod.rng h.rest :)

theorem rngDone_none {m : Mod} {g : Nat} (h : Tbl.get none m.rng g = none) : m.rngDone g = m := by
  unfold rngDone
  rw [h]

theorem rngDone_whole {m : Mod} {g op : Nat} (h : Tbl.get none m.rng g = some ⟨op, none⟩) : let t := m.rngDone g
    (t.flag F.SC_RNG_STATUS_BUSY g = false ∧ t.flag F.SC_RNG_STATUS_DONE g = true) ∧ Tbl.get none t.rng g = none ∧
      t.flag F.SC_RNG_STATUS_ERR g = m.flag F.SC_RNG_STATUS_ERR g ∧ OnlyRegs [(.SC_RNG_STATUS, g), (.EVR_UNROUTED, 0)] m t := by
  obtain ⟨x, hregs, hrng, heq⟩ := rngDone_eq h
  rw [heq]
  dsimp only [Option.elim]
  obtain ⟨z, hz⟩ : ∃ z, (x.put F.SC_RNG_STATUS_BUSY g false).put F.SC_RNG_STATUS_DONE g true = z := ⟨_, rfl⟩
  have hraise := z.told_raise (232 + g)
  rw [hz]
  refine ⟨⟨?_, ?_⟩, ?_, ?_, ?_⟩
  · rw [hraise.regs.flag_of_reg _ (by decide), ← hz, flag_put_of_apart _ _ _ _ (by decide), flag_put_self _ _ _ _ (by decide) rfl]
  · rw [hraise.regs.flag_of_reg _ (by decide), ← hz, flag_put_self _ _ _ _ (by decide) rfl]
  · rw [hraise.rng_eq, ← hz, put_rng, put_rng, hrng, Tbl.get_set_self]
  · rw [hraise.regs.flag_of_reg _ (by decide), ← hz, flag_put_of_apart _ _ _ _ (by decide), flag_put_of_apart _ _ _ _ (by decide), flag_of_regs hregs]
  · refine .trans (.trans (onlyRegs_of_regs hregs) ?_) (hraise.regs.mono (by simp))
    rw [← hz]
    exact .trans ((onlyRegs_put x F.SC_RNG_STATUS_BUSY g _).mono (List.cons_subset_cons _ (List.nil_subset _)))
      ((onlyRegs_put _ F.SC_RNG_STATUS_DONE g _).mono (List.cons_subset_cons _ (List.nil_subset _)))

theorem rngDone_refused {m : Mod} {g op ln : Nat} (h : Tbl.get none m.rng g = some ⟨op, some ln⟩) : let t := m.rngDone g
    (t.flag F.SC_RNG_STATUS_BUSY g = false ∧ t.flag F.SC_RNG_STATUS_DONE g = true) ∧ Tbl.get none t.rng g = none ∧
      t.flag F.SC_RNG_STATUS_ERR g = true ∧ t.rd F.SC_RNG_STATUS_REASON g = 0 ∧ t.rd F.SC_RNG_FAIL_ADDR g = 64 * ln % 2 ^ 52 := by
  obtain ⟨x, _, hrng, heq⟩ := rngDone_eq h
  rw [heq]
  dsimp only [Option.elim]
  obtain ⟨z, hz⟩ : ∃ z, ((((x.put F.SC_RNG_STATUS_BUSY g false).wr F.SC_RNG_FAIL_ADDR g (64 * ln)).put F.SC_RNG_STATUS_ERR g true).wr F.SC_RNG_STATUS_REASON g 0).put
    F.SC_RNG_STATUS_DONE g true = z := ⟨_, rfl⟩
  have hraise := z.told_raise (232 + g)
  rw [hz]
  refine ⟨⟨?_, ?_⟩, ?_, ?_, ?_, ?_⟩
  · rw [hraise.regs.flag_of_reg _ (by decide), ← hz]
    rw [flag_put_of_apart _ _ _ _ (by decide), flag_wr_of_apart _ _ _ _ (by decide), flag_put_of_apart _ _ _ _ (by decide), flag_wr_of_apart _ _ _ _ (by decide),
      flag_put_self _ _ _ _ (by decide) rfl]
  · rw [hraise.regs.flag_of_reg _ (by decide), ← hz, flag_put_self _ _ _ _ (by decide) rfl]
  · rw [hraise.rng_eq, ← hz, put_rng, wr_rng, put_rng, wr_rng, put_rng, hrng, Tbl.get_set_self]
  · rw [hraise.regs.flag_of_reg _ (by decide), ← hz, flag_put_of_apart _ _ _ _ (by decide), flag_wr_of_apart _ _ _ _ (by decide), flag_put_self _ _ _ _ (by decide) rfl]
  · rw [hraise.regs.rd_of_reg _ (by decide), ← hz, rd_put_of_apart _ _ _ _ (by decide), rd_wr_self _ _ _ _ (by decide), Nat.zero_mod]
  · rw [hraise.regs.rd_of_reg _ (by decide), ← hz, rd_put_of_apart _ _ _ _ (by decide), rd_wr_of_apart _ _ _ _ (by decide), rd_put_of_apart _ _ _ _ (by decide),
      rd_wr_self _ _ _ _ (by decide)]
    rfl

end Mod

end Sys2Proof.Machine

/-!
Slices, conversions and range operations (R236 to R247), as a whole.
-/
namespace Sys2Proof.Machine

/-- The commands that start a range operation, with their codes (R245). -/
def rangeStarts (w : Writer) (g : RegionId) (d : Bool) : List (Nat × Instr) :=
  [(1, .clean w g), (2, .cleanInval w g), (3, .inval w g d), (4, .warm w g), (5, .zero w g)]

/-- Each starts the operation of its code, an invalidation with its DISCARD. -/
theorem exec_rangeStart {w : Writer} {g : RegionId} {d : Bool} (s : State) {c : Nat × Instr} (hc : c ∈ rangeStarts w g d) :
    ∃ x, (1 ≤ c.1 ∧ c.1 ≤ 5) ∧ (c.1 = 3 → x = d) ∧ exec c.2 s = .next { s with mod := s.mod.rngStart w g c.1 x } := by
  simp only [rangeStarts, List.mem_cons, List.not_mem_nil, or_false] at hc
  rcases hc with rfl | rfl | rfl | rfl | rfl
  · exact ⟨false, by simp, by simp, rfl⟩
  · exact ⟨false, by simp, by simp, rfl⟩
  · exact ⟨d, by simp, fun _ => rfl, rfl⟩
  · exact ⟨false, by simp, by simp, rfl⟩
  · exact ⟨false, by simp, by simp, rfl⟩

theorem exec_sliceMissFill (line : BitVec 30) (s : State) :
    exec (.sliceMissFill line ⟨[], none⟩ none) s = .next { s with mod := s.mod.sliceFill line.toNat ⟨[], none⟩ } := rfl

theorem exec_sliceMissFill_corrected (line : BitVec 30) (s : State) :
    exec (.sliceMissFill line ⟨[], none⟩ (some .dataCorrected)) s =
      .next { s with mod := (s.mod.sliceFault line.toNat .dataCorrected).sliceFill line.toNat ⟨[], none⟩ } := rfl

/-- Settles O43: each command's effect is the rule about its operation on the slices, the conversions or the range engine. -/
theorem slicesFillWriteBackAndConvert : Obligations.SlicesFillWriteBackAndConvert := by
  unfold Obligations.SlicesFillWriteBackAndConvert
  refine ⟨fun s line w o k sl g => ?_, fun s w g d k op ln way => ?_⟩
  · refine ⟨?aside, ?free, ?victim, ?present, ?written, ?converted, ?unconverted, ?down, ?notDown⟩
    case aside =>
      rintro ⟨hr, hl, hh, hv⟩ ha
      exact does_next (exec_sliceMissFill line s) (Mod.sliceFill_aside hr hl hh hv ha)
    case free =>
      rintro ⟨hr, hl, hh, hv⟩ ha hw
      refine does_next (exec_sliceMissFill line s) ?_
      rw [Mod.sliceFill_free hr hl hh hv ha hw]
      exact Mod.sliceFill_fills hw _
    case victim =>
      rintro ⟨hr, hl, hh, hv⟩ ha hw hd
      refine does_next (exec_sliceMissFill line s) ?_
      obtain ⟨x, hx, hfill⟩ := Mod.sliceFill_dirty hr hl hh hv ha hw hd
      have hsent := Mod.victim_sent (m := s.mod) (ln := line.toNat) (o := o) k (s.mod.frame line.toNat)
      rw [hfill]
      rw [← hx] at hsent
      exact hsent
    case present =>
      intro hl
      refine ⟨does_next (exec_sliceMissFill line s) (Mod.sliceFill_present hl _), does_next (exec_sliceMissFill_corrected line s) ?_⟩
      have hfault := Mod.sliceFault_corrected hl
      dsimp only at hfault ⊢
      generalize s.mod.sliceFault line.toNat .dataCorrected = x at hfault
      rw [Mod.sliceFill_present (hfault.1 ▸ hl)]
      exact hfault
    case written =>
      refine does_next rfl ⟨(s.mod.acceptVictims_empties sl).1, (s.mod.acceptVictims_empties sl).2, (s.mod.cached_acceptVictims sl).regs, fun v hv hh => ?_⟩
      exact Mod.acceptVictims_one hv hh
    case converted => exact fun h => does_next rfl (Mod.conversionDone_shows h)
    case unconverted => exact fun h => does_next rfl (Mod.conversionDone_none h)
    case down => exact fun h => does_next rfl (Mod.powerDownDone_shows h)
    case notDown => exact fun h => does_next rfl (Mod.powerDownDone_none h)
  · refine ⟨fun hbusy c hc => ?busy, fun hidle => ⟨fun hlen c hc => ?empty, fun hlen => ⟨?kept, ?part, ?run, ?clean, ?lines⟩⟩, ?none, ?whole, ?refused⟩
    case busy =>
      obtain ⟨x, _, _, he⟩ := exec_rangeStart s hc
      exact does_next he (Mod.rngStart_busy hbusy w c.1 x)
    case empty =>
      obtain ⟨x, hop, _, he⟩ := exec_rangeStart s hc
      exact does_next he (Mod.rngStart_empty hidle w hop hlen x)
    case kept =>
      rintro rfl
      exact does_next rfl (Mod.rngStart_refused hidle w (by decide) (by decide) fun x hx _ => Mod.rngFrom_kept (by rw [hx]; exact hlen) w)
    case part =>
      exact fun h => does_next rfl (Mod.rngStart_refused hidle w (by decide) (by decide) fun x hx hb =>
        Mod.rngFrom_partial (by rw [hx]; exact hlen) (by rw [hx, hb]; exact h) w _)
    case run =>
      intro c hc hd ha
      obtain ⟨x, hop, h3, he⟩ := exec_rangeStart s hc
      exact does_next he (Mod.rngStart_busies hidle w hop hlen (fun h => (h3 h).trans (hd h)) ha)
    case clean =>
      exact fun hb hl hdram hk hdirty hv hh => does_next rfl (Mod.rngStart_clean w hidle hlen hb hl hdram hv hh hk hdirty _)
    case lines =>
      intro hb hl hdram hv hh
      refine ⟨fun hk => ?_, fun hd hg => ?_, fun hg hk hw => ?_, fun hb0 hl0 hg => ?_⟩
      · exact does_next rfl (Mod.rngStart_cleanInval w hidle hlen hb hl hdram hv hh hk _)
      · subst hd
        exact does_next rfl (Mod.rngStart_inval w hidle hlen hb hl hdram hv hh hg)
      · exact does_next rfl (Mod.rngStart_warm w hidle hlen hb hl hdram hv hh hg hk hw _)
      · exact does_next rfl (Mod.rngStart_zero w hidle hlen hb hl hdram hg ⟨hb0, hl0⟩ _)
    case none => exact fun h => does_next rfl (Mod.rngDone_none h)
    case whole => exact fun h => does_next rfl (Mod.rngDone_whole h)
    case refused => exact fun h => does_next rfl (Mod.rngDone_refused h)

end Sys2Proof.Machine

/-!
Code stores (R250, R251) and the queue of violation reports.
-/
namespace Sys2Proof.Machine

namespace Mod

/-! ### The queue of reports -/

/-- From `m` to `t` no report is queued. -/
def VqKept (m t : Mod) : Prop := t.vq = m.vq

theorem vqKept_of {m t : Mod} (h : t.vq = m.vq) : m.VqKept t := h
theorem vqKept_put (m : Mod) (f : Fld) (i : Nat) (b : Bool) : m.VqKept (m.put f i b) := m.put_vq f i b
theorem vqKept_count (m : Mod) (f : Fld) (i k : Nat) : m.VqKept (m.count f i k) := m.count_vq f i k
theorem VqKept.trans {m n t : Mod} (h : m.VqKept n) (h' : n.VqKept t) : m.VqKept t := Eq.trans h' h
theorem VqKept.iff {m : Mod} {f : Mod → Mod} (b : Bool) (h : m.VqKept (f m)) : m.VqKept (m.iff b f) := iff_keeps (P := m.VqKept) b h rfl
theorem VqKept.ite {m t : Mod} {p : Prop} [Decidable p] (h : m.VqKept t) : m.VqKept (if p then m else t) := by
  split
  · exact rfl
  · exact h

theorem vqKept_msix (m : Mod) (v : Nat) : m.VqKept (m.msix v) := by
  unfold msix
  split
  · exact rfl
  · split <;> exact rfl

theorem vqKept_deliver (m : Mod) (n : Nat) : m.VqKept (m.deliver n) := by
  have hmsix : ∀ (vs : List Nat) (x : Mod), x.VqKept (vs.foldl msix x) := fun vs x =>
    each_keeps (P := x.VqKept) (fun t v h => h.trans (t.vqKept_msix v)) vs rfl
  unfold deliver
  refine .trans (.trans (.trans ?_ (.iff _ (vqKept_of rfl))) (hmsix _ _)) (.iff _ (vqKept_count _ _ _ _))
  exact vqKept_of rfl

theorem vqKept_gooseLog (m : Mod) (w : GooseWhat) : m.VqKept (m.gooseLog w) := by
  unfold gooseLog
  refine .trans ?_ (.iff _ (vqKept_deliver _ _))
  exact vqKept_of rfl

theorem vqKept_raise (m : Mod) (n : Nat) : m.VqKept (m.raise n) := .ite ((m.vqKept_deliver n).trans (.iff _ (vqKept_gooseLog _ _)))

/-- A report with room in the queue is its youngest. -/
theorem vq_report {m : Mod} (h : m.vq.length < 64) (v : VioRec) : (m.report v).vq = m.vq ++ [v] := by
  obtain ⟨x, hx⟩ : ∃ x, ({ m with vq := m.vq ++ [v] } : Mod) = x := ⟨_, rfl⟩
  have hq : x.vq = m.vq ++ [v] := by rw [← hx]
  have hkept : x.VqKept (m.report v) := by
    unfold report
    dsimp only
    rw [if_neg (Nat.not_le.mpr h), hx]
    have hp : ∀ b, x.VqKept (x.iff b (fun m => m.count F.CFG_PROB_VIOL_COUNT)) := fun b => .iff b (x.vqKept_count _ _ _)
    split
    · exact ((hp _).trans (vqKept_count _ _ _ _)).trans (vqKept_raise _ _)
    · exact ((hp _).trans (vqKept_count _ _ _ _)).trans (.iff _ (vqKept_raise _ _))
  exact Eq.trans hkept hq

/-- A refused access of a kind other than 08H, with room in the queue: its report is the youngest. -/
theorem vq_violate {m : Mod} (h : m.vq.length < 64) (q : Acc) {kind : Nat} (hk : kind ≠ 0x08) (entry : Nat) :
    ∃ r, (m.violate q kind entry).vq = m.vq ++ [r] ∧ r.kind = kind := by
  have hk' : (kind == 0x08) = false := by simpa using hk
  unfold violate
  dsimp only
  rw [hk', iff_false]
  exact ⟨_, vq_report h _, rfl⟩

/-! ### Code stores: their start (R250) -/

/-- A command of a code store under way with its row and data. -/
def csBegun (m : Mod) (g op : Nat) : Mod :=
  ({ m with csRun := Tbl.set none m.csRun g (some (op, m.rd F.CS_ADDR_ROW g, m.csRow g)) }).put F.CS_STATUS_BUSY g true

theorem csBegun_shows (m : Mod) (g op : Nat) : let t := m.csBegun g op
    Tbl.get none t.csRun g = some (op, m.rd F.CS_ADDR_ROW g, m.csRow g) ∧ t.flag F.CS_STATUS_BUSY g = true ∧ t.mem = m.mem ∧
      OnlyRegs [(.CS_STATUS, g)] m t := by
  unfold csBegun
  obtain ⟨x, hx⟩ : ∃ x, ({ m with csRun := Tbl.set none m.csRun g (some (op, m.rd F.CS_ADDR_ROW g, m.csRow g)) } : Mod) = x := ⟨_, rfl⟩
  have hr : x.csRun = Tbl.set none m.csRun g (some (op, m.rd F.CS_ADDR_ROW g, m.csRow g)) := by rw [← hx]
  have hm : x.mem = m.mem := by rw [← hx]
  have hregs : x.regs = m.regs := by rw [← hx]
  rw [hx]
  refine ⟨?_, flag_put_self _ _ _ _ (by decide) rfl, hm, (onlyRegs_of_regs hregs).trans ((onlyRegs_put x F.CS_STATUS_BUSY g _).mono ?_)⟩
  · rw [put_csRun, hr, Tbl.get_set_self]
  · exact List.cons_subset_cons _ (List.nil_subset _)

theorem csCmd_busy {m : Mod} {g : Nat} (h : m.flag F.CS_STATUS_BUSY g = true) (op : Nat) : m.csCmd g op = m.put F.CS_STATUS_CMDLOST g true := if_pos h

section
variable {m : Mod} {g : Nat} (hb : m.flag F.CS_STATUS_BUSY g = false) (hl : m.twin.loss = none)
include hb hl

theorem csCmd_erase : m.csCmd g 1 = m.csBegun g 1 := by
  unfold csCmd
  rw [hb, hl, if_neg (by decide), if_neg (by decide)]
  rfl

theorem csCmd_program (h : (m.csRow g).toNat &&& (2 ^ 256 - 1 - m.num (codeBase g + 32 * m.rd F.CS_ADDR_ROW g) 32) = 0) : m.csCmd g 2 = m.csBegun g 2 := by
  unfold csCmd csBegun
  rw [hb, hl, if_neg (by decide), if_neg (by decide)]
  dsimp only
  rw [if_neg (not_not_intro h)]
  rfl

theorem csCmd_over (h : (m.csRow g).toNat &&& (2 ^ 256 - 1 - m.num (codeBase g + 32 * m.rd F.CS_ADDR_ROW g) 32) ≠ 0) : m.csCmd g 2 = m.csRefuse g 0 := by
  unfold csCmd
  rw [hb, hl, if_neg (by decide), if_neg (by decide)]
  dsimp only
  rw [if_pos h]
  rfl

end

theorem csRefuse_shows (m : Mod) (g : Nat) {reason : Nat} (h : reason < 4) : let t := m.csRefuse g reason
    t.flag F.CS_STATUS_ERR g = true ∧ t.rd F.CS_STATUS_REASON g = reason ∧ t.flag F.CS_STATUS_DONE g = true ∧ t.csRun = m.csRun ∧ t.mem = m.mem := by
  unfold csRefuse
  refine ⟨?_, ?_, flag_put_self _ _ _ _ (by decide) rfl, ?_, ?_⟩
  · rw [flag_put_of_apart _ _ _ _ (by decide), flag_wr_of_apart _ _ _ _ (by decide), flag_put_self _ _ _ _ (by decide) rfl]
  · rw [rd_put_of_apart _ _ _ _ (by decide), rd_wr_self _ _ _ _ (by decide)]
    exact Nat.mod_eq_of_lt h
  · rw [put_csRun, wr_csRun, put_csRun]
  · rw [put_mem, wr_mem, put_mem]

/-! ### Code stores: the end of a command (R250, R251) -/

theorem codeDrop_keeps (m : Mod) (a n : Nat) : let t := m.codeDrop a n
    t.mem = m.mem ∧ t.regs = m.regs ∧ t.csRun = m.csRun ∧ t.csErases = m.csErases := ⟨rfl, rfl, rfl, rfl⟩
theorem unspoil_keeps (m : Mod) (a n : Nat) : let t := m.unspoil a n
    t.mem = m.mem ∧ t.regs = m.regs ∧ t.csRun = m.csRun ∧ t.csErases = m.csErases := ⟨rfl, rfl, rfl, rfl⟩
theorem zeroRange_keeps (m : Mod) (a n : Nat) : let t := m.zeroRange a n
    t.regs = m.regs ∧ t.csRun = m.csRun ∧ t.csErases = m.csErases := ⟨rfl, rfl, rfl⟩

/-- A cell in a sector erased reads FFH, its erases are counted, and no command and no register changes. -/
theorem csErased_shows (m : Mod) {g sector : Nat} (hg : g < 4) (hs : sector < 128) : let t := m.csErased g sector
    (∀ a, codeBase g + 0x10000 * sector ≤ a → a < codeBase g + 0x10000 * sector + 0x10000 → cellGet t.mem a = 0xFF) ∧
      Tbl.get 0 t.csErases (g * 128 + sector) = Nat.min 0xFFFF (Tbl.get 0 m.csErases (g * 128 + sector) + 1) ∧ t.regs = m.regs ∧ t.csRun = m.csRun := by
  have hcell := fun a => m.cellGet_zeroRange (a := codeBase g + 0x10000 * sector) (n := 0x10000) (b := a)
  obtain ⟨z1, z2, _⟩ := m.zeroRange_keeps (codeBase g + 0x10000 * sector) 0x10000
  unfold csErased
  dsimp only
  generalize m.zeroRange (codeBase g + 0x10000 * sector) 0x10000 = x at hcell z1 z2
  obtain ⟨d1, d2, d3, _⟩ := x.codeDrop_keeps (codeBase g + 0x10000 * sector) 0x10000
  generalize x.codeDrop (codeBase g + 0x10000 * sector) 0x10000 = y at d1 d2 d3
  generalize Nat.min 0xFFFF (Tbl.get 0 m.csErases (g * 128 + sector) + 1) = k
  refine ⟨fun a h1 h2 => ?_, Tbl.get_set_self _ _ _ _, d2.trans z1, d3.trans z2⟩
  rw [d1, hcell a h1 h2]
  unfold codeBase at h1 h2
  exact if_pos (by unfold dramTop; omega)

/-- A command of a code store that has ended but for its DONE. -/
def csOver (m : Mod) (g : Nat) : Mod := ({ m with csRun := Tbl.set none m.csRun g none }).put F.CS_STATUS_BUSY g false

theorem csOver_shows (m : Mod) (g : Nat) : let t := m.csOver g
    Tbl.get none t.csRun g = none ∧ t.flag F.CS_STATUS_BUSY g = false ∧ t.flag F.CS_STATUS_ERR g = m.flag F.CS_STATUS_ERR g ∧ t.csErases = m.csErases := by
  unfold csOver
  obtain ⟨x, hx⟩ : ∃ x, ({ m with csRun := Tbl.set none m.csRun g none } : Mod) = x := ⟨_, rfl⟩
  have hr : x.csRun = Tbl.set none m.csRun g none := by rw [← hx]
  have he : x.csErases = m.csErases := by rw [← hx]
  have hregs : x.regs = m.regs := by rw [← hx]
  rw [hx]
  refine ⟨?_, flag_put_self _ _ _ _ (by decide) rfl, ?_, (put_csErases _ _ _ _).trans he⟩
  · rw [put_csRun, hr, Tbl.get_set_self]
  · rw [flag_put_of_apart _ _ _ _ (by decide), flag_of_regs hregs]

/-- The row of a program command written, or what a row that fails its verification holds. -/
def csProgrammed (m : Mod) (g row : Nat) (data : BitVec 256) (verified : Bool) : Mod :=
  if verified then ((m.setNum (codeBase g + 32 * row) 32 data.toNat).codeDrop (codeBase g + 32 * row) 32).unspoil (codeBase g + 32 * row) 32
  else ((m.fresh.2.unspoil (codeBase g + 32 * row) 32).setBytes (codeBase g + 32 * row) ((upTo 32).map (Config.codeStoreByte m.fresh.1))).codeDrop
    (codeBase g + 32 * row) 32

theorem csProgrammed_keeps (m : Mod) (g row : Nat) (data : BitVec 256) (verified : Bool) : let t := m.csProgrammed g row data verified
    t.regs = m.regs ∧ t.csRun = m.csRun := by
  have hset : ∀ (x : Mod) a bs, (x.setBytes a bs).regs = x.regs ∧ (x.setBytes a bs).csRun = x.csRun := fun _ _ _ => ⟨rfl, rfl⟩
  have hfresh : m.fresh.2.regs = m.regs ∧ m.fresh.2.csRun = m.csRun := ⟨rfl, rfl⟩
  unfold csProgrammed
  cases verified with
  | true =>
    rw [if_pos rfl, setNum]
    exact ⟨(unspoil_keeps _ _ _).2.1.trans ((codeDrop_keeps _ _ _).2.1.trans (hset _ _ _).1),
      (unspoil_keeps _ _ _).2.2.1.trans ((codeDrop_keeps _ _ _).2.2.1.trans (hset _ _ _).2)⟩
  | false =>
    rw [if_neg (by decide)]
    exact ⟨(codeDrop_keeps _ _ _).2.1.trans ((hset _ _ _).1.trans ((unspoil_keeps _ _ _).2.1.trans hfresh.1)),
      (codeDrop_keeps _ _ _).2.2.1.trans ((hset _ _ _).2.trans ((unspoil_keeps _ _ _).2.2.1.trans hfresh.2))⟩

theorem toNat_lt_bytes {n : Nat} (x : BitVec (8 * n)) : x.toNat < 256 ^ n := by
  rw [show (256 : Nat) = 2 ^ 8 from rfl, ← Nat.pow_mul]
  exact x.isLt

theorem num_csProgrammed (m : Mod) (g row : Nat) (data : BitVec 256) :
    (m.csProgrammed g row data true).num (codeBase g + 32 * row) 32 = data.toNat := by
  have hnum := m.num_setNum_self (codeBase g + 32 * row) 32 data.toNat
  rw [Nat.mod_eq_of_lt (toNat_lt_bytes (n := 32) data)] at hnum
  unfold csProgrammed
  rw [if_pos rfl, num_of_mem ((unspoil_keeps _ _ _).1.trans (codeDrop_keeps _ _ _).1), hnum]

theorem csDone_none {m : Mod} {g : Nat} (h : Tbl.get none m.csRun g = none) (v : Bool) : m.csDone g v = m := by
  unfold csDone
  rw [h]

theorem csDone_erase {m : Mod} {g row : Nat} {data : BitVec 256} (h : Tbl.get none m.csRun g = some (1, row, data)) (v : Bool) :
    m.csDone g v = ((m.csOver g).csErased g (row / 2048)).put F.CS_STATUS_DONE g true := by
  unfold csDone
  rw [h]
  rfl

theorem csDone_program {m : Mod} {g row : Nat} {data : BitVec 256} (h : Tbl.get none m.csRun g = some (2, row, data)) (v : Bool) :
    m.csDone g v = (((m.csOver g).csProgrammed g row data v).iff (!v) (fun m => (m.put F.CS_STATUS_ERR g true).wr F.CS_STATUS_REASON g 1)).put
      F.CS_STATUS_DONE g true := by
  unfold csDone csProgrammed
  generalize fresh = free
  generalize Config.codeStoreByte = byte
  generalize codeDrop = drop
  have hv : (2 == 2 && !v) = !v := Bool.true_and _
  rw [h]
  dsimp only
  rewrite [← csOver]
  generalize m.csOver g = x
  rw [if_neg (by decide : ¬ (2 : Nat) = 1), hv]

theorem csDone_erases {m : Mod} {g row sector : Nat} {data : BitVec 256} (hg : g < 4) (h : Tbl.get none m.csRun g = some (1, row, data)) (hr : row < 2 ^ 18)
    (hs : row / 2048 = sector) (v : Bool) : let t := m.csDone g v
    (Tbl.get none t.csRun g = none ∧ t.flag F.CS_STATUS_BUSY g = false ∧ t.flag F.CS_STATUS_DONE g = true) ∧
      (∀ a, codeBase g + 0x10000 * sector ≤ a → a < codeBase g + 0x10000 * sector + 0x10000 → cellGet t.mem a = 0xFF) ∧
      Tbl.get 0 t.csErases (g * 128 + sector) = Nat.min 0xFFFF (Tbl.get 0 m.csErases (g * 128 + sector) + 1) := by
  obtain ⟨h1, h2, _, h4⟩ := m.csOver_shows g
  rw [csDone_erase h v, hs, ← h4]
  generalize m.csOver g = x at h1 h2
  obtain ⟨k1, k2, k3, k4⟩ := x.csErased_shows hg (sector := sector) (by omega)
  generalize x.csErased g sector = y at k1 k2 k3 k4
  refine ⟨⟨?_, ?_, flag_put_self _ _ _ _ (by decide) rfl⟩, ?_, ?_⟩
  · rw [put_csRun, k4, h1]
  · rw [flag_put_of_apart _ _ _ _ (by decide), flag_of_regs k3, h2]
  · rw [put_mem]
    exact k1
  · rw [put_csErases, k2]

theorem csDone_programs {m : Mod} {g row : Nat} {data : BitVec 256} (h : Tbl.get none m.csRun g = some (2, row, data)) (v : Bool) : let t := m.csDone g v
    (Tbl.get none t.csRun g = none ∧ t.flag F.CS_STATUS_BUSY g = false ∧ t.flag F.CS_STATUS_DONE g = true) ∧
      (v = true → t.num (codeBase g + 32 * row) 32 = data.toNat ∧ t.flag F.CS_STATUS_ERR g = m.flag F.CS_STATUS_ERR g) ∧
      (v = false → t.flag F.CS_STATUS_ERR g = true ∧ t.rd F.CS_STATUS_REASON g = 1) := by
  obtain ⟨h1, h2, h3, _⟩ := m.csOver_shows g
  rw [csDone_program h v, ← h3]
  generalize m.csOver g = x at h1 h2
  obtain ⟨k1, k2⟩ := x.csProgrammed_keeps g row data v
  have hnum := x.num_csProgrammed g row data
  cases v with
  | true =>
    generalize x.csProgrammed g row data true = y at k1 k2 hnum
    rw [Bool.not_true, iff_false]
    refine ⟨⟨?_, ?_, flag_put_self _ _ _ _ (by decide) rfl⟩, fun _ => ⟨?_, ?_⟩, fun hf => absurd hf (by decide)⟩
    · rw [put_csRun, k2, h1]
    · rw [flag_put_of_apart _ _ _ _ (by decide), flag_of_regs k1, h2]
    · rw [num_of_mem (put_mem _ _ _ _), hnum]
    · rw [flag_put_of_apart _ _ _ _ (by decide), flag_of_regs k1]
  | false =>
    generalize x.csProgrammed g row data false = y at k1 k2
    rw [Bool.not_false, iff_true]
    refine ⟨⟨?_, ?_, flag_put_self _ _ _ _ (by decide) rfl⟩, fun hf => absurd hf (by decide), fun _ => ⟨?_, ?_⟩⟩
    · rw [put_csRun, wr_csRun, put_csRun, k2, h1]
    · rw [flag_put_of_apart _ _ _ _ (by decide), flag_wr_of_apart _ _ _ _ (by decide), flag_put_of_apart _ _ _ _ (by decide), flag_of_regs k1, h2]
    · rw [flag_put_of_apart _ _ _ _ (by decide), flag_wr_of_apart _ _ _ _ (by decide), flag_put_self _ _ _ _ (by decide) rfl]
    · rw [rd_put_of_apart _ _ _ _ (by decide), rd_wr_self _ _ _ _ (by decide)]
      rfl

end Mod

end Sys2Proof.Machine

/-!
DRAM: bring-up, patrol and temperature (R264 to R270).
-/
namespace Sys2Proof.Machine

namespace Mod

/-! ### Domains (R458) -/

theorem domPowered_setDom_self (m : Mod) (d : Nat) : (m.setDom d true).domPowered d = true := by
  have hlt : withBits (m.rd F.PWR_DOM_STATE_ON (d / 32)) (d % 32) 1 (b2n true) < 2 ^ 32 :=
    withBits_lt _ _ _ _ _ (bitsOf_lt _ _ _) (by omega)
  unfold domPowered setDom
  rw [rd_wr_self _ _ _ _ (by decide)]
  change bitAt (withBits _ _ 1 _ % 2 ^ 32) _ = true
  rw [Nat.mod_eq_of_lt hlt, bitAt, bitsOf_withBits_self]
  rfl

/-- A domain with power keeps it while another comes on. -/
theorem domPowered_setDom {m : Mod} {d : Nat} (h : m.domPowered d = true) (e : Nat) : (m.setDom e true).domPowered d = true := by
  by_cases hde : d = e
  · subst hde
    exact m.domPowered_setDom_self d
  by_cases hw : d / 32 = e / 32
  · have hlt : withBits (m.rd F.PWR_DOM_STATE_ON (e / 32)) (e % 32) 1 (b2n true) < 2 ^ 32 :=
      withBits_lt _ _ _ _ _ (bitsOf_lt _ _ _) (by omega)
    unfold domPowered setDom at *
    rw [hw, rd_wr_self _ _ _ _ (by decide)]
    change bitAt (withBits _ _ 1 _ % 2 ^ 32) _ = true
    rw [Nat.mod_eq_of_lt hlt, bitAt]
    rw [hw, bitAt] at h
    rcases Nat.lt_or_ge (d % 32) (e % 32) with hl | hl
    · rw [bitsOf_withBits_below _ _ _ _ _ _ (by omega), h]
    · rw [bitsOf_withBits_above _ _ _ _ _ _ (by omega), h]
  · unfold domPowered setDom at *
    rw [rd_wr_reg _ _ _ _ _ _ (fun hx => hw hx.2), h]

/-! ### Bring-up (R264, R266) -/

theorem slicesOn_keeps {P : Mod → Prop} (h : ∀ (t : Mod) d, P t → P (t.setDom d true)) (m : Mod) (hm : P m) : P m.slicesOn :=
  each_keeps (fun t d ht => iff_keeps _ (h t d ht) ht) _ hm

theorem dramSupplied_up {m : Mod} (hs : m.phase.spineUp = true) (hu : m.dramUp = false) (hc : m.flag F.PWR_THR_STATUS_CRITICAL = false)
    (hr : ∀ x ∈ m.domRetry, x < 64) : let t := m.dramSupplied
    t.dramUp = true ∧ t.domPowered 64 = true ∧ t.domPowered 65 = true := by
  have hany : m.domRetry.any (fun d => decide (64 ≤ d)) = false := List.any_eq_false.mpr fun d hd => by simpa using hr d hd
  have h64 := domPowered_setDom (m.domPowered_setDom_self 64) 65
  have h65 := (m.setDom 64 true).domPowered_setDom_self 65
  unfold dramSupplied
  rw [hs, hu, hc, hany, if_pos (by decide)]
  generalize (m.setDom 64 true).setDom 65 true = x at h64 h65
  obtain ⟨y, hy⟩ : ∃ y, ({ x with dramUp := true } : Mod) = y := ⟨_, rfl⟩
  have hup : y.dramUp = true := by rw [← hy]
  have hregs : y.regs = x.regs := by rw [← hy]
  have hdom : ∀ d, y.domPowered d = x.domPowered d := fun d => by rw [domPowered, rd_of_regs hregs, domPowered]
  rw [hy]
  exact slicesOn_keeps (P := fun t => t.dramUp = true ∧ t.domPowered 64 = true ∧ t.domPowered 65 = true)
    (fun t d ht => ⟨(wr_dramUp _ _ _ _).trans ht.1, domPowered_setDom ht.2.1 d, domPowered_setDom ht.2.2 d⟩) y ⟨hup, (hdom 64).trans h64, (hdom 65).trans h65⟩

theorem dramSupplied_faulted {m : Mod} (hr : ∃ x ∈ m.domRetry, 64 ≤ x) : m.dramSupplied = m := by
  have hany : m.domRetry.any (fun d => decide (64 ≤ d)) = true := List.any_eq_true.mpr (hr.imp fun d hd => ⟨hd.1, by simpa using hd.2⟩)
  unfold dramSupplied
  exact if_neg (by rw [hany]; simp)

/-- A training without a failed sub-channel. -/
theorem trained_shows (m : Mod) : let t := m.trained 0
    t.flag F.MEM_STATUS_TRAINED = true ∧ t.flag F.MEM_STATUS_TRAIN_FAIL = false ∧ t.rd F.MEM_STATUS_FAILMASK = 0 ∧ t.mem = m.mem ∧
      t.trainTries = m.trainTries := by
  obtain ⟨x, hx⟩ : ∃ x, ((m.put F.MEM_STATUS_TRAINED 0 true).put F.MEM_STATUS_TRAIN_FAIL 0 false).wr F.MEM_STATUS_FAILMASK 0 0 = x := ⟨_, rfl⟩
  have ht : m.trained 0 = x.raise 196 := by
    unfold trained
    rw [if_pos rfl, hx]
  have hraise := x.told_raise 196
  have htries : (x.raise 196).trainTries = x.trainTries := (congrArg Mod.trainTries hraise.rest :)
  intro t
  rw [show t = _ from ht]
  refine ⟨?_, ?_, ?_, ?_, ?_⟩
  · rw [hraise.regs.flag_of_reg _ (by decide), ← hx, flag_wr_of_apart _ _ _ _ (by decide), flag_put_of_apart _ _ _ _ (by decide), flag_put_self _ _ _ _ (by decide) rfl]
  · rw [hraise.regs.flag_of_reg _ (by decide), ← hx, flag_wr_of_apart _ _ _ _ (by decide), flag_put_self _ _ _ _ (by decide) rfl]
  · rw [hraise.regs.rd_of_reg _ (by decide), ← hx, rd_wr_self _ _ _ _ (by decide), Nat.zero_mod]
  · rw [hraise.mem_eq, ← hx, wr_mem, put_mem, put_mem]
  · rw [htries, ← hx, wr_trainTries, put_trainTries, put_trainTries]

/-- The start-up fill: DRAM is ready, zero, without tags and without lines in a slice. -/
theorem dramFilled_shows (m : Mod) : let t := m.dramFilled
    t.flag F.MEM_STATUS_READY = true ∧ (∀ a, a < dramTop → cellGet t.mem a = 0 ∧ t.tag a = false) ∧ t.lines = [] ∧
      t.rd F.ROOK_STATUS_BOOT = m.rd F.ROOK_STATUS_BOOT := by
  have hcell : ∀ a, a < dramTop → cellGet (m.zeroRange 0 dramTop).mem a = 0 := fun a ha =>
    (m.cellGet_zeroRange (Nat.zero_le a) (by omega)).trans (if_neg (by omega))
  have htag : ∀ a, a < dramTop → (m.zeroRange 0 dramTop).tag a = false := fun a ha =>
    Tbl.get_filter_out _ _ _ _ fun v => by simp; omega
  have hregs := (m.zeroRange_keeps 0 dramTop).1
  obtain ⟨x, hx⟩ : ∃ x, ({ m.zeroRange 0 dramTop with dramPoison := [], lines := [], plru := [], side := [], victims := [], held := [] } : Mod) = x := ⟨_, rfl⟩
  have ht : m.dramFilled = (x.put F.MEM_STATUS_READY 0 true).raise 196 := by
    unfold dramFilled
    rw [← hx]
  have hxm : x.mem = (m.zeroRange 0 dramTop).mem := by rw [← hx]
  have hxt : x.tags = (m.zeroRange 0 dramTop).tags := by rw [← hx]
  have hxl : x.lines = [] := by rw [← hx]
  have hxr : x.regs = m.regs := by rw [← hx]; exact hregs
  have hraise := (x.put F.MEM_STATUS_READY 0 true).told_raise 196
  intro t
  rw [show t = _ from ht]
  refine ⟨?_, fun a ha => ⟨?_, ?_⟩, ?_, ?_⟩
  · rw [hraise.regs.flag_of_reg _ (by decide), flag_put_self _ _ _ _ (by decide) rfl]
  · rw [hraise.mem_eq, put_mem, hxm, hcell a ha]
  · rw [tag, hraise.tags_eq, put_tags, hxt]
    exact htag a ha
  · rw [hraise.lines_eq, put_lines, hxl]
  · rw [hraise.regs.rd_of_reg _ (by decide), rd_put_of_apart _ _ _ _ (by decide), rd_of_regs hxr]

theorem bootDram_shows {m : Mod} (hr : m.flag F.MEM_STATUS_READY = true) : let t := m.bootDram
    t.flag F.MEM_STATUS_READY = true ∧ t.mem = m.mem ∧ t.tags = m.tags ∧ t.lines = m.lines ∧ (m.rd F.ROOK_STATUS_BOOT = 4 → t.rd F.ROOK_STATUS_BOOT = 5) := by
  unfold bootDram
  by_cases hb : m.rd F.ROOK_STATUS_BOOT = 4
  · rw [hb, hr, show (4 == 4 && true) = true from rfl, iff_true]
    refine ⟨(flag_wr_of_apart _ _ _ _ (by decide)).trans hr, wr_mem _ _ _ _, wr_tags _ _ _ _, wr_lines _ _ _ _, fun _ => ?_⟩
    rw [rd_wr_self _ _ _ _ (by decide)]
    rfl
  · rw [beq_eq_false_iff_ne.mpr hb, Bool.false_and, iff_false]
    exact ⟨hr, rfl, rfl, rfl, fun h => absurd h hb⟩

/-! ### Patrol (R268) -/

theorem patrol_off {m : Mod} (h : m.rd F.MEM_PATROL_CTRL_PERIOD = 0) (errs : FrameErr) : m.patrol errs = m := if_pos h

theorem patrol_unready {m : Mod} (h : m.rd F.MEM_PATROL_CTRL_PERIOD ≠ 0) (hr : m.flag F.MEM_STATUS_READY = false) (errs : FrameErr) : let t := m.patrol errs
    t.mem = m.mem ∧ t.rd F.MEM_PATROL_POS_LINE = m.rd F.MEM_PATROL_POS_LINE ∧ (m.vq.length < 64 → ∃ r, t.vq = m.vq ++ [r] ∧ r.kind = 0x03) := by
  unfold patrol
  rw [if_neg h, hr, if_pos (by decide)]
  have htold := m.told_violate ⟨Config.patrolMaster.toNat, true, 0, 0, 64 * m.rd F.MEM_PATROL_POS_LINE, 64, .load⟩ 0x03 0xFFFF
  exact ⟨htold.mem_eq, htold.regs.rd_of_reg _ (by simp [refusedRegs, reportedRegs, F.MEM_PATROL_POS_LINE]), fun hq => vq_violate hq _ (by decide) _⟩

theorem patrol_ready {m : Mod} (h : m.rd F.MEM_PATROL_CTRL_PERIOD ≠ 0) (hr : m.flag F.MEM_STATUS_READY = true) : let t := m.patrol []
    t.rd F.MEM_PATROL_POS_LINE = (m.rd F.MEM_PATROL_POS_LINE + 1) % 2 ^ 30 ∧ t.mem = m.mem ∧
      OnlyRegs [(.MEM_PATROL_POS, 0), (.MEM_PATROL_PASSES, 0), (.EVR_UNROUTED, 0)] m t := by
  obtain ⟨next, hn⟩ : ∃ next, (m.rd F.MEM_PATROL_POS_LINE + 1) % 2 ^ 30 = next := ⟨_, rfl⟩
  have hlt : next < 2 ^ 30 := hn ▸ Nat.mod_lt _ (by decide)
  obtain ⟨x, hx⟩ : ∃ x, m.wr F.MEM_PATROL_POS_LINE 0 next = x := ⟨_, rfl⟩
  have ht : m.patrol [] = x.iff (next == 0) (fun m => (m.count F.MEM_PATROL_PASSES_COUNT).raise 194) := by
    unfold patrol
    rw [if_neg h, hr, if_neg (by decide)]
    dsimp only
    rw [readFrame_none, ite_self, hn, hx]
  have htold : x.Told [(.MEM_PATROL_PASSES, 0), (.EVR_UNROUTED, 0)] (m.patrol []) := by
    rw [ht]
    exact .iff _ ((told_count _ _ _ _ (by simp [F.MEM_PATROL_PASSES_COUNT])).trans ((told_raise _ _).mono (by simp)))
  have hpos : x.rd F.MEM_PATROL_POS_LINE = next := by
    rw [← hx, rd_wr_self _ _ _ _ (by decide)]
    exact Nat.mod_eq_of_lt hlt
  refine ⟨?_, ?_, ?_⟩
  · rw [htold.regs.rd_of_reg _ (by decide), hpos, hn]
  · rw [htold.mem_eq, ← hx, wr_mem]
  · refine .trans ?_ (htold.regs.mono (List.subset_cons_self _ _))
    rw [← hx]
    exact (onlyRegs_wr m F.MEM_PATROL_POS_LINE 0 next).mono (List.cons_subset_cons _ (List.nil_subset _))

end Mod

end Sys2Proof.Machine

/-!
DRAM temperature (R270) and the tag sweeper's start and end (R271 to R273).
-/
namespace Sys2Proof.Machine

namespace Mod

/-! ### Temperature (R270) -/

/-- The hottest device shown. -/
def tempShown (m : Mod) (raw sub dev : Nat) : Mod := ((m.wr F.MEM_TEMP_TEMP 0 raw).wr F.MEM_TEMP_SUBCH 0 sub).wr F.MEM_TEMP_DEVICE 0 dev
/-- Refresh doubled above 85 degrees and no more from 82 on. -/
def refreshSet (m : Mod) (t : Int) : Mod :=
  if t > 85 then m.put F.MEM_STATUS_REFRESH_2X 0 true else if t ≤ 82 then m.put F.MEM_STATUS_REFRESH_2X 0 false else m
/-- Throttling above 95 degrees and no more from 92 on. -/
def throttleSet (m : Mod) (t : Int) : Mod :=
  if t > 95 then (m.put F.MEM_STATUS_THROTTLE 0 true).iff (!m.flag F.MEM_STATUS_THROTTLE) (fun m => m.raise 197)
  else if t ≤ 92 then m.put F.MEM_STATUS_THROTTLE 0 false else m

theorem tempShown_shows (m : Mod) {raw sub dev : Nat} (hr : raw < 2 ^ 8) (hs : sub < 2 ^ 3) (hd : dev < 2 ^ 3) : let t := m.tempShown raw sub dev
    t.rd F.MEM_TEMP_TEMP = raw ∧ t.rd F.MEM_TEMP_SUBCH = sub ∧ t.rd F.MEM_TEMP_DEVICE = dev ∧ OnlyRegs [(.MEM_TEMP, 0)] m t := by
  unfold tempShown
  refine ⟨?_, ?_, ?_, .trans (.trans (onlyRegs_wr m F.MEM_TEMP_TEMP 0 _) (onlyRegs_wr _ F.MEM_TEMP_SUBCH 0 _)) (onlyRegs_wr _ F.MEM_TEMP_DEVICE 0 _)⟩
  · rw [rd_wr_of_apart _ _ _ _ (by decide), rd_wr_of_apart _ _ _ _ (by decide), rd_wr_self _ _ _ _ (by decide)]
    exact Nat.mod_eq_of_lt hr
  · rw [rd_wr_of_apart _ _ _ _ (by decide), rd_wr_self _ _ _ _ (by decide)]
    exact Nat.mod_eq_of_lt hs
  · rw [rd_wr_self _ _ _ _ (by decide)]
    exact Nat.mod_eq_of_lt hd

theorem refreshSet_shows (m : Mod) (t : Int) : let x := m.refreshSet t
    x.flag F.MEM_STATUS_REFRESH_2X = (if t > 85 then true else if t ≤ 82 then false else m.flag F.MEM_STATUS_REFRESH_2X) ∧
      x.flag F.MEM_STATUS_THROTTLE = m.flag F.MEM_STATUS_THROTTLE ∧ OnlyRegs [(.MEM_STATUS, 0)] m x := by
  have hput : ∀ b, (m.put F.MEM_STATUS_REFRESH_2X 0 b).flag F.MEM_STATUS_REFRESH_2X = b ∧
      (m.put F.MEM_STATUS_REFRESH_2X 0 b).flag F.MEM_STATUS_THROTTLE = m.flag F.MEM_STATUS_THROTTLE ∧
      OnlyRegs [(.MEM_STATUS, 0)] m (m.put F.MEM_STATUS_REFRESH_2X 0 b) := fun b =>
    ⟨flag_put_self _ _ _ _ (by decide) rfl, flag_put_of_apart _ _ _ _ (by decide), onlyRegs_put m F.MEM_STATUS_REFRESH_2X 0 b⟩
  unfold refreshSet
  split
  · exact hput true
  · split
    · exact hput false
    · exact ⟨rfl, rfl, .refl _ m⟩

theorem throttleSet_shows (m : Mod) (t : Int) : let x := m.throttleSet t
    x.flag F.MEM_STATUS_THROTTLE = (if t > 95 then true else if t ≤ 92 then false else m.flag F.MEM_STATUS_THROTTLE) ∧
      x.flag F.MEM_STATUS_REFRESH_2X = m.flag F.MEM_STATUS_REFRESH_2X ∧ OnlyRegs [(.MEM_STATUS, 0), (.EVR_UNROUTED, 0)] m x := by
  have hput : ∀ b, (m.put F.MEM_STATUS_THROTTLE 0 b).flag F.MEM_STATUS_THROTTLE = b ∧
      (m.put F.MEM_STATUS_THROTTLE 0 b).flag F.MEM_STATUS_REFRESH_2X = m.flag F.MEM_STATUS_REFRESH_2X ∧
      OnlyRegs [(.MEM_STATUS, 0), (.EVR_UNROUTED, 0)] m (m.put F.MEM_STATUS_THROTTLE 0 b) := fun b =>
    ⟨flag_put_self _ _ _ _ (by decide) rfl, flag_put_of_apart _ _ _ _ (by decide),
      (onlyRegs_put m F.MEM_STATUS_THROTTLE 0 b).mono (List.cons_subset_cons _ (List.nil_subset _))⟩
  unfold throttleSet
  split
  · obtain ⟨h1, h2, h3⟩ := hput true
    generalize m.put F.MEM_STATUS_THROTTLE 0 true = x at h1 h2 h3
    have htold : x.Told [(.EVR_UNROUTED, 0)] (x.iff (!m.flag F.MEM_STATUS_THROTTLE) fun m => m.raise 197) := .iff _ (x.told_raise 197)
    refine ⟨(htold.regs.flag_of_reg _ (by decide)).trans h1, (htold.regs.flag_of_reg _ (by decide)).trans h2, h3.trans (htold.regs.mono (List.subset_cons_self _ _))⟩
  · split
    · exact hput false
    · exact ⟨rfl, rfl, .refl _ m⟩

theorem dramTemp_cool {m : Mod} {t : Int} {raw sub dev : Nat} (h : t < 105) : (m.dramTemp t raw sub dev).regs = (((m.tempShown raw sub dev).refreshSet t).throttleSet t).regs := by
  unfold dramTemp
  dsimp only
  rw [← tempShown, ← refreshSet, ← throttleSet, if_neg (by omega : ¬ t ≥ 105)]
  split <;> rfl

theorem dramTemp_shows {m : Mod} {t : Int} {raw sub dev : Nat} (h : t < 105) (hr : raw < 2 ^ 8) (hs : sub < 2 ^ 3) (hd : dev < 2 ^ 3) :
    let x := m.dramTemp t raw sub dev
    x.rd F.MEM_TEMP_TEMP = raw ∧ x.rd F.MEM_TEMP_SUBCH = sub ∧ x.rd F.MEM_TEMP_DEVICE = dev ∧
      x.flag F.MEM_STATUS_REFRESH_2X = (if t > 85 then true else if t ≤ 82 then false else m.flag F.MEM_STATUS_REFRESH_2X) ∧
      x.flag F.MEM_STATUS_THROTTLE = (if t > 95 then true else if t ≤ 92 then false else m.flag F.MEM_STATUS_THROTTLE) ∧
      OnlyRegs [(.MEM_TEMP, 0), (.MEM_STATUS, 0), (.EVR_UNROUTED, 0)] m x := by
  have hregs := dramTemp_cool (m := m) (raw := raw) (sub := sub) (dev := dev) h
  obtain ⟨a1, a2, a3, a4⟩ := m.tempShown_shows hr hs hd
  generalize m.tempShown raw sub dev = y at a1 a2 a3 a4 hregs
  obtain ⟨b1, b2, b3⟩ := y.refreshSet_shows t
  generalize y.refreshSet t = z at b1 b2 b3 hregs
  obtain ⟨c1, c2, c3⟩ := z.throttleSet_shows t
  generalize z.throttleSet t = u at c1 c2 c3 hregs
  intro x
  simp only [rd_of_regs hregs, flag_of_regs hregs, show x = m.dramTemp t raw sub dev from rfl]
  rw [c2, b1, c1, b2, c3.rd_of_reg _ (by decide), b3.rd_of_reg _ (by decide), c3.rd_of_reg _ (by decide), b3.rd_of_reg _ (by decide),
    c3.rd_of_reg _ (by decide), b3.rd_of_reg _ (by decide), a4.flag_of_reg _ (by decide), a4.flag_of_reg _ (by decide)]
  refine ⟨a1, a2, a3, rfl, rfl, ?_⟩
  exact (a4.mono (List.cons_subset_cons _ (List.nil_subset _))).trans ((b3.mono (by simp)).trans ((c3.mono (List.subset_cons_self _ _)).trans (onlyRegs_of_regs hregs)))

/-! ### A sweep's start (R271) -/

/-- The settings of a sweep taken. -/
def sweepSet (m : Mod) (hold : Bool) (keep rate : Nat) : Mod := ((m.wr F.MEM_SWP_CTRL_KEEP 0 keep).put F.MEM_SWP_CTRL_HOLD 0 hold).wr F.MEM_SWP_CTRL_RATE 0 rate

theorem Told.sweep_eq {l : List (Reg × Nat)} {m t : Mod} (h : m.Told l t) : t.sweep = m.sweep := (congrArg Mod.sweep h.rest :)

theorem sweepStart_unready {m : Mod} (hr : m.flag F.MEM_STATUS_READY = false) (w : Writer) (hold : Bool) (keep rate : Nat) : let t := m.sweepStart w hold keep rate
    t.sweep = m.sweep ∧ (m.vq.length < 64 → ∃ r, t.vq = m.vq ++ [r] ∧ r.kind = 0x03) := by
  unfold sweepStart
  rw [hr, if_pos (by decide)]
  exact ⟨(m.told_violate _ _ _).sweep_eq, fun hq => vq_violate hq _ (by decide) _⟩

section
variable {m : Mod} (hr : m.flag F.MEM_STATUS_READY = true) {rate : Nat} (h3 : rate ≠ 3) (w : Writer) (hold : Bool)
include hr h3

theorem sweepStart_lost (hs : m.sweep ≠ none) (keep : Nat) : let t := m.sweepStart w hold keep rate
    t.flag F.MEM_SWP_STATUS_CMDLOST = true ∧ t.sweep = m.sweep := by
  have hsome : m.sweep.isSome = true := Option.isSome_iff_ne_none.mpr hs
  have hsw : (m.sweepSet hold keep rate).sweep = m.sweep := by rw [sweepSet, wr_sweep, put_sweep, wr_sweep]
  unfold sweepStart
  rw [hr, if_neg (by decide)]
  dsimp only
  rw [beq_eq_false_iff_ne.mpr h3, iff_false, if_neg h3, ← sweepSet, hsw, if_pos hsome]
  exact ⟨flag_put_self _ _ _ _ (by decide) rfl, (put_sweep _ _ _ _).trans hsw⟩

theorem sweepStart_unkept (hs : m.sweep = none) : let t := m.sweepStart w hold 0 rate
    t.flag F.MEM_SWP_STATUS_ERR = true ∧ t.sweep = none := by
  have hsw : (m.sweepSet hold 0 rate).sweep = none := by rw [sweepSet, wr_sweep, put_sweep, wr_sweep, hs]
  unfold sweepStart
  rw [hr, if_neg (by decide)]
  dsimp only
  rw [beq_eq_false_iff_ne.mpr h3, iff_false, if_neg h3, ← sweepSet, hsw, if_neg (by simp)]
  exact ⟨flag_put_self _ _ _ _ (by decide) rfl, (put_sweep _ _ _ _).trans hsw⟩

variable {keep : Nat} (hk : keep ≠ 0) (hs : m.sweep = none)
include hk hs

theorem sweepStart_empty (hlo : m.rd F.MEM_SWP_LO_LO ≥ m.rd F.MEM_SWP_HI_HI) : let t := m.sweepStart w hold keep rate
    t.flag F.MEM_SWP_STATUS_DONE = true ∧ t.flag F.MEM_SWP_STATUS_PASSES_DONE = true ∧ t.sweep = none ∧ t.rd F.MEM_SWP_CLEARED_COUNT = 0 := by
  have hsw : (m.sweepSet hold keep rate).sweep = none := by rw [sweepSet, wr_sweep, put_sweep, wr_sweep, hs]
  have hl : (m.sweepSet hold keep rate).rd F.MEM_SWP_LO_LO = m.rd F.MEM_SWP_LO_LO := by
    rw [sweepSet, rd_wr_of_apart _ _ _ _ (by decide), rd_put_of_apart _ _ _ _ (by decide), rd_wr_of_apart _ _ _ _ (by decide)]
  have hh : (m.sweepSet hold keep rate).rd F.MEM_SWP_HI_HI = m.rd F.MEM_SWP_HI_HI := by
    rw [sweepSet, rd_wr_of_apart _ _ _ _ (by decide), rd_put_of_apart _ _ _ _ (by decide), rd_wr_of_apart _ _ _ _ (by decide)]
  unfold sweepStart
  rw [hr, if_neg (by decide)]
  dsimp only
  rw [beq_eq_false_iff_ne.mpr h3, iff_false, if_neg h3, ← sweepSet, hl, hh, hsw, if_neg (by simp), if_neg hk, if_pos hlo]
  generalize m.sweepSet hold keep rate = x at hsw
  obtain ⟨y, hy⟩ : ∃ y, ((x.wr F.MEM_SWP_CLEARED_COUNT 0 0).put F.MEM_SWP_STATUS_PASSES_DONE 0 true).put F.MEM_SWP_STATUS_DONE 0 true = y := ⟨_, rfl⟩
  have hraise := y.told_raise 195
  rw [hy]
  refine ⟨?_, ?_, ?_, ?_⟩
  · rw [hraise.regs.flag_of_reg _ (by decide), ← hy, flag_put_self _ _ _ _ (by decide) rfl]
  · rw [hraise.regs.flag_of_reg _ (by decide), ← hy, flag_put_of_apart _ _ _ _ (by decide), flag_put_self _ _ _ _ (by decide) rfl]
  · rw [hraise.sweep_eq, ← hy, put_sweep, put_sweep, wr_sweep, hsw]
  · rw [hraise.regs.rd_of_reg _ (by decide), ← hy, rd_put_of_apart _ _ _ _ (by decide), rd_put_of_apart _ _ _ _ (by decide), rd_wr_self _ _ _ _ (by decide), Nat.zero_mod]

theorem sweepStart_starts (hlo : m.rd F.MEM_SWP_LO_LO < m.rd F.MEM_SWP_HI_HI) : let t := m.sweepStart w hold keep rate
    t.sweep = some ⟨m.rd F.MEM_SWP_NODE_NODE, m.rd F.MEM_SWP_LO_LO, m.rd F.MEM_SWP_HI_HI, keep, hold, rate, m.mono, []⟩ ∧ t.side = [] ∧
      t.flag F.MEM_SWP_STATUS_ACTIVE = true ∧ t.rd F.MEM_SWP_CLEARED_COUNT = 0 := by
  have hsw : (m.sweepSet hold keep rate).sweep = none := by rw [sweepSet, wr_sweep, put_sweep, wr_sweep, hs]
  have hmono : (m.sweepSet hold keep rate).mono = m.mono := by rw [sweepSet, wr_mono, put_mono, wr_mono]
  have hrd : ∀ f : Fld, F.MEM_SWP_CTRL_KEEP.Apart f → F.MEM_SWP_CTRL_HOLD.Apart f → F.MEM_SWP_CTRL_RATE.Apart f →
      (m.sweepSet hold keep rate).rd f = m.rd f := fun f h1 h2 h3 => by
    rw [sweepSet, rd_wr_of_apart _ _ _ _ h3, rd_put_of_apart _ _ _ _ h2, rd_wr_of_apart _ _ _ _ h1]
  unfold sweepStart
  rw [hr, if_neg (by decide)]
  dsimp only
  rw [beq_eq_false_iff_ne.mpr h3, iff_false, if_neg h3, ← sweepSet, hrd F.MEM_SWP_LO_LO (by decide) (by decide) (by decide),
    hrd F.MEM_SWP_HI_HI (by decide) (by decide) (by decide), hrd F.MEM_SWP_NODE_NODE (by decide) (by decide) (by decide), ← hmono, hsw, if_neg (by simp),
    if_neg hk, if_neg (Nat.not_le.mpr hlo)]
  generalize m.sweepSet hold keep rate = x
  generalize (⟨m.rd F.MEM_SWP_NODE_NODE, m.rd F.MEM_SWP_LO_LO, m.rd F.MEM_SWP_HI_HI, keep, hold, rate, x.mono, []⟩ : Sweep) = sw
  obtain ⟨y, hy⟩ : ∃ y, ({ x with sweep := some sw, side := [] } : Mod) = y := ⟨_, rfl⟩
  have hys : y.sweep = some sw := by rw [← hy]
  have hyd : y.side = [] := by rw [← hy]
  rw [hy]
  refine ⟨?_, ?_, ?_, ?_⟩
  · rw [wr_sweep, wr_sweep, put_sweep, put_sweep, hys]
  · rw [wr_side, wr_side, put_side, put_side, hyd]
  · rw [flag_wr_of_apart _ _ _ _ (by decide), flag_wr_of_apart _ _ _ _ (by decide), flag_put_of_apart _ _ _ _ (by decide), flag_put_self _ _ _ _ (by decide) rfl]
  · rw [rd_wr_of_apart _ _ _ _ (by decide), rd_wr_self _ _ _ _ (by decide), Nat.zero_mod]

end

/-! ### A sweep's end (R273) -/

/-- The registers that the end of a sweep changes. -/
def sweepEndRegs : List Reg := [.MEM_SWP_STATUS, .EVR_UNROUTED, .GATE_ENT_EPOCH]

/-- From `m` to `t` memory, tags, poison and every register but those of a sweep's end stay. -/
def SweepEnds (m t : Mod) : Prop := t.mem = m.mem ∧ t.tags = m.tags ∧ t.dramPoison = m.dramPoison ∧ ∀ r i, r ∉ sweepEndRegs → t.reg r i = m.reg r i

theorem SweepEnds.refl (m : Mod) : m.SweepEnds m := ⟨rfl, rfl, rfl, fun _ _ _ => rfl⟩
theorem SweepEnds.trans {m n t : Mod} (h : m.SweepEnds n) (h' : n.SweepEnds t) : m.SweepEnds t :=
  ⟨h'.1.trans h.1, h'.2.1.trans h.2.1, h'.2.2.1.trans h.2.2.1, fun r i hr => (h'.2.2.2 r i hr).trans (h.2.2.2 r i hr)⟩
theorem SweepEnds.rd {m t : Mod} (h : m.SweepEnds t) (f : Fld) (i : Nat) (hf : f.reg ∉ sweepEndRegs) : t.rd f i = m.rd f i := by
  rw [Mod.rd, h.2.2.2 _ _ hf, Mod.rd]
theorem sweepEnds_wr (m : Mod) (f : Fld) (i v : Nat) (h : f.reg ∈ sweepEndRegs) : m.SweepEnds (m.wr f i v) :=
  ⟨wr_mem _ _ _ _, wr_tags _ _ _ _, wr_dramPoison _ _ _ _, fun _ _ hr => reg_setReg_ne m _ fun e => hr (e.1 ▸ h)⟩
theorem sweepEnds_raise (m : Mod) (n : Nat) : m.SweepEnds (m.raise n) := by
  have h := m.told_raise n
  exact ⟨h.mem_eq, h.tags_eq, (congrArg Mod.dramPoison h.rest :), fun r i hr => h.regs r i fun hm => hr (by simp_all [sweepEndRegs])⟩

/-- The swept epochs of gate entries noted: nothing but their registers changes. -/
theorem sweptEpochs_keeps (m : Mod) (w : Sweep) : let t := m.sweptEpochs w
    m.SweepEnds t ∧ t.sweep = m.sweep ∧ ∀ r i, r ≠ .GATE_ENT_EPOCH → t.reg r i = m.reg r i := by
  unfold sweptEpochs
  split
  · exact ⟨.refl m, rfl, fun _ _ _ => rfl⟩
  · refine each_keeps (P := fun t => m.SweepEnds t ∧ t.sweep = m.sweep ∧ ∀ r i, r ≠ .GATE_ENT_EPOCH → t.reg r i = m.reg r i)
      (fun t i ht => ?_) _ ⟨.refl m, rfl, fun _ _ _ => rfl⟩
    obtain ⟨h1, h2, h3⟩ := ht
    dsimp only
    split
    · refine ⟨h1.trans (sweepEnds_wr t _ _ _ (by decide)), (wr_sweep _ _ _ _).trans h2, fun r j hr => ?_⟩
      exact (reg_setReg_ne t _ fun e => hr e.1).trans (h3 r j hr)
    · exact ⟨h1, h2, h3⟩

theorem sweepComplete_shows (m : Mod) (w : Sweep) : let t := m.sweepComplete w
    t.sweep = none ∧ t.flag F.MEM_SWP_STATUS_DONE = true ∧ t.flag F.MEM_SWP_STATUS_ACTIVE = false ∧
      t.flag F.MEM_SWP_STATUS_PASSES_DONE = m.flag F.MEM_SWP_STATUS_PASSES_DONE ∧ m.SweepEnds t := by
  obtain ⟨x, hx⟩ : ∃ x, ({ m with sweep := none } : Mod) = x := ⟨_, rfl⟩
  have hxs : x.sweep = none := by rw [← hx]
  have hxr : x.regs = m.regs := by rw [← hx]
  have hxe : m.SweepEnds x := by
    rw [← hx]
    exact ⟨rfl, rfl, rfl, fun _ _ _ => rfl⟩
  obtain ⟨y, hy⟩ : ∃ y, (x.put F.MEM_SWP_STATUS_ACTIVE 0 false).put F.MEM_SWP_STATUS_DONE 0 true = y := ⟨_, rfl⟩
  have hye : x.SweepEnds y := by
    rw [← hy]
    exact (sweepEnds_wr x _ _ _ (by decide)).trans (sweepEnds_wr _ _ _ _ (by decide))
  have hraise := y.told_raise 195
  have hre := y.sweepEnds_raise 195
  have ht : m.sweepComplete w = (y.raise 195).sweptEpochs w := by
    unfold sweepComplete
    rw [hx]
    dsimp only
    rw [hy]
  rw [ht]
  obtain ⟨h1, h2, h3⟩ := (y.raise 195).sweptEpochs_keeps w
  generalize (y.raise 195).sweptEpochs w = t at h1 h2 h3
  have hflag : ∀ f : Fld, f.reg ≠ .GATE_ENT_EPOCH → f.reg ≠ .EVR_UNROUTED → t.flag f = y.flag f := fun f hf he => by
    rw [flag, rd, h3 _ _ hf, hraise.regs _ _ (by simp [he]), flag, rd]
  refine ⟨?_, ?_, ?_, ?_, hxe.trans (hye.trans (hre.trans h1))⟩
  · rw [h2, hraise.sweep_eq, ← hy, put_sweep, put_sweep, hxs]
  · rw [hflag _ (by decide) (by decide), ← hy, flag_put_self _ _ _ _ (by decide) rfl]
  · rw [hflag _ (by decide) (by decide), ← hy, flag_put_of_apart _ _ _ _ (by decide), flag_put_self _ _ _ _ (by decide) rfl]
  · rw [hflag _ (by decide) (by decide), ← hy, flag_put_of_apart _ _ _ _ (by decide), flag_put_of_apart _ _ _ _ (by decide), flag_of_regs hxr]

theorem sweepRelease_held {m : Mod} {x : Sweep} (hs : m.sweep = some x) (hp : m.flag F.MEM_SWP_STATUS_PASSES_DONE = true) (hh : x.hold = true) :
    m.sweepRelease = m.sweepComplete x := by
  unfold sweepRelease
  rw [hs]
  dsimp only
  rw [hp, hh, if_pos (by decide)]

theorem sweepRelease_lost {m : Mod} {x : Sweep} (hs : m.sweep = some x) (h : (m.flag F.MEM_SWP_STATUS_PASSES_DONE && x.hold) = false) :
    m.sweepRelease = m.put F.MEM_SWP_STATUS_CMDLOST 0 true := by
  unfold sweepRelease
  rw [hs]
  dsimp only
  rw [h, if_neg (by decide)]

end Mod

end Sys2Proof.Machine

/-!
Passes of the tag sweep (R162, R271 to R273).
-/
namespace Sys2Proof.Machine

namespace Mod

/-! ### The cells of a range -/

/-- A tagged granule checked by a sweep. -/
def sweepGranule (w : Sweep) (m : Mod) (g : Nat) : Mod :=
  if w.matches m.node (Key.ofBytes (m.bytes (16 * g) 16) true) then (m.setTag (16 * g) false).count F.MEM_SWP_CLEARED_COUNT else m

/-- What checking granules keeps: all but tags and the count of those cleared. -/
structure SweptOnly (m t : Mod) : Prop where
  mem : t.mem = m.mem
  lines : t.lines = m.lines
  poison : t.dramPoison = m.dramPoison
  node : t.node = m.node
  regs : OnlyRegs [(.MEM_SWP_CLEARED, 0)] m t

theorem SweptOnly.refl (m : Mod) : m.SweptOnly m := ⟨rfl, rfl, rfl, rfl, .refl _ m⟩
theorem SweptOnly.trans {m n t : Mod} (h : m.SweptOnly n) (h' : n.SweptOnly t) : m.SweptOnly t :=
  ⟨h'.mem.trans h.mem, h'.lines.trans h.lines, h'.poison.trans h.poison, h'.node.trans h.node, h.regs.trans h'.regs⟩

theorem sweepGranule_shows (w : Sweep) (m : Mod) (g : Nat) : let t := sweepGranule w m g
    m.SweptOnly t ∧ ∀ k, Tbl.get false t.tags k =
      (Tbl.get false m.tags k && !(decide (k = g) && w.matches m.node (Key.ofBytes (m.bytes (16 * k) 16) true))) := by
  unfold sweepGranule
  split
  · next h =>
    have hx : m.SweptOnly (m.setTag (16 * g) false) := ⟨rfl, rfl, rfl, rfl, .refl _ m⟩
    have htags : (m.setTag (16 * g) false).tags = Tbl.set false m.tags (16 * g / 16) false := rfl
    generalize m.setTag (16 * g) false = x at hx htags
    rw [Nat.mul_div_cancel_left g (by decide : 0 < 16)] at htags
    have hregs := onlyRegs_count x F.MEM_SWP_CLEARED_COUNT 0 1
    refine ⟨hx.trans ⟨count_mem _ _ _ _, count_lines _ _ _ _, count_dramPoison _ _ _ _, ?_, hregs⟩, fun k => ?_⟩
    · rw [node, hregs.rd_of_reg _ (by decide), hregs.flag_of_reg _ (by decide), hregs.flag_of_reg _ (by decide), node]
    · rw [count_tags, htags]
      by_cases hk : k = g
      · rw [hk, Tbl.get_set_self, h]
        simp
      · rw [Tbl.get_set_ne _ _ _ _ hk, decide_eq_false hk, Bool.false_and, Bool.not_false, Bool.and_true]
  · next h =>
    refine ⟨.refl m, fun k => ?_⟩
    by_cases hk : k = g
    · rw [hk, Bool.eq_false_iff.mpr h, Bool.and_false, Bool.not_false, Bool.and_true]
    · rw [decide_eq_false hk, Bool.false_and, Bool.not_false, Bool.and_true]

theorem sweepGranules_shows (w : Sweep) (gs : List Nat) (m : Mod) : let t := m.each gs (sweepGranule w)
    m.SweptOnly t ∧ ∀ k, Tbl.get false t.tags k =
      (Tbl.get false m.tags k && !(decide (k ∈ gs) && w.matches m.node (Key.ofBytes (m.bytes (16 * k) 16) true))) := by
  induction gs generalizing m with
  | nil => exact ⟨.refl m, fun k => by simp [each]⟩
  | cons g gs ih =>
    obtain ⟨h1, h2⟩ := sweepGranule_shows w m g
    obtain ⟨h3, h4⟩ := ih (sweepGranule w m g)
    have heach : m.each (g :: gs) (sweepGranule w) = (sweepGranule w m g).each gs (sweepGranule w) := rfl
    rw [heach]
    generalize sweepGranule w m g = x at h1 h2 h3 h4
    refine ⟨h1.trans h3, fun k => ?_⟩
    have hbytes : x.bytes (16 * k) 16 = m.bytes (16 * k) 16 := by rw [bytes, h1.mem, bytes]
    rw [h4, h2, h1.node, hbytes]
    by_cases hk : k = g
    · rw [hk, decide_eq_true rfl, decide_eq_true (List.mem_cons_self ..), Bool.true_and]
      cases w.matches m.node (Key.ofBytes (m.bytes (16 * g) 16) true) <;> simp
    · simp [hk]

/-- The granules of a range checked: those of an absent line lose their tag exactly where their key matches; no tag comes. -/
theorem sweepCells_shows (m : Mod) (w : Sweep) (a b : Nat) : let t := m.sweepCells w a b
    m.SweptOnly t ∧ (∀ c, m.tag c = false → t.tag c = false) ∧
      ∀ c, c % 16 = 0 → a ≤ c → c < b → Tbl.look m.lines (c / 64) = none → t.tag c = (m.tag c && !w.matches m.node (Key.ofBytes (m.bytes c 16) true)) := by
  obtain ⟨gs, hgs⟩ : ∃ gs, (m.tags.map Prod.fst).filter (fun g => decide (a ≤ 16 * g) && decide (16 * g < b) && (Tbl.look m.lines (g / 4)).isNone) = gs := ⟨_, rfl⟩
  have ht : m.sweepCells w a b = m.each gs (sweepGranule w) := by
    unfold sweepCells
    dsimp only
    rw [hgs]
    rfl
  obtain ⟨h1, h2⟩ := sweepGranules_shows w gs m
  rw [ht]
  refine ⟨h1, fun c hc => ?_, fun c hc ha hb hl => ?_⟩
  · rw [tag, h2]
    rw [tag] at hc
    rw [hc, Bool.false_and]
  · have h16 : 16 * (c / 16) = c := by omega
    rw [tag, h2, tag, h16]
    by_cases hm : c / 16 ∈ Tbl.keys m.tags
    · have hin : c / 16 ∈ gs := by
        rw [← hgs]
        refine List.mem_filter.mpr ⟨hm, ?_⟩
        rw [h16, show c / 16 / 4 = c / 64 by omega, hl]
        simp [ha, hb]
      rw [decide_eq_true hin, Bool.true_and]
    · rw [Tbl.get_of_not_mem hm, Bool.false_and, Bool.false_and]

/-! ### The end of a pass (R273) -/

/-- The work of a pass. -/
def sweepWork (m : Mod) (w : Sweep) (e : PassEnd) : SweepPass → Mod
  | .dram => m.sweepDram w e.errs
  | .coreScratch c => m.sweepCells w (coreScratch c) (coreScratch c + 0x20000)
  | .regionScratch g => m.sweepCells w (rgnScratch g) (rgnScratch g + 0x400000)
  | .cores => m.sweepCores w

/-- A pass noted as done, the last one ending the passes and, without HOLD, the sweep. -/
def passEnded (m : Mod) (w : Sweep) : Mod :=
  let m := { m with sweep := some w }
  if allPasses.all (fun x => w.done.contains x) then
    let m := (m.put F.MEM_SWP_STATUS_PASSES_DONE 0 true).raise 195
    if w.hold then m else m.sweepComplete w
  else m

theorem sweepPass_done {m : Mod} {x : Sweep} {e : PassEnd} (hs : m.sweep = some x) (hp : e.pass ∈ x.done) : m.sweepPass e = m := by
  unfold sweepPass
  rw [hs]
  exact if_pos (List.contains_iff_mem.mpr hp)

theorem sweepPass_eq {m : Mod} {x : Sweep} {e : PassEnd} (hs : m.sweep = some x) (hp : e.pass ∉ x.done) :
    m.sweepPass e = (m.sweepWork x e e.pass).passEnded { x with done := e.pass :: x.done } := by
  have hnot : ¬ x.done.contains e.pass = true := fun h => hp (List.contains_iff_mem.mp h)
  unfold sweepPass
  rw [hs]
  obtain ⟨pass, errs⟩ := e
  refine (if_neg hnot).trans ?_
  cases pass <;> rfl

section
variable (m : Mod) {w : Sweep}

theorem passEnded_more (h : allPasses.all (fun q => w.done.contains q) = false) : (m.passEnded w).sweep = some w ∧ m.SweepEnds (m.passEnded w) := by
  unfold passEnded
  rw [h, if_neg (by decide)]
  exact ⟨rfl, rfl, rfl, rfl, fun _ _ _ => rfl⟩

theorem passEnded_last (h : allPasses.all (fun q => w.done.contains q) = true) : let t := m.passEnded w
    t.flag F.MEM_SWP_STATUS_PASSES_DONE = true ∧ (w.hold = true → t.sweep = some w) ∧
      (w.hold = false → t.sweep = none ∧ t.flag F.MEM_SWP_STATUS_DONE = true ∧ t.flag F.MEM_SWP_STATUS_ACTIVE = false) ∧ m.SweepEnds t := by
  obtain ⟨x, hx⟩ : ∃ x, ({ m with sweep := some w } : Mod) = x := ⟨_, rfl⟩
  have hxs : x.sweep = some w := by rw [← hx]
  have hxe : m.SweepEnds x := by
    rw [← hx]
    exact ⟨rfl, rfl, rfl, fun _ _ _ => rfl⟩
  have hpe := sweepEnds_wr x F.MEM_SWP_STATUS_PASSES_DONE 0 (b2n true) (by decide)
  have hpf := x.flag_put_self F.MEM_SWP_STATUS_PASSES_DONE 0 true (by decide) rfl
  have hps := x.put_sweep F.MEM_SWP_STATUS_PASSES_DONE 0 true
  unfold passEnded
  rw [h, if_pos rfl, hx]
  dsimp only
  rw [put] at hpf hps ⊢
  generalize x.wr F.MEM_SWP_STATUS_PASSES_DONE 0 (b2n true) = y at hpe hpf hps
  have hraise := y.told_raise 195
  have hre := y.sweepEnds_raise 195
  generalize y.raise 195 = z at hraise hre
  have hzf : z.flag F.MEM_SWP_STATUS_PASSES_DONE = true := (hraise.regs.flag_of_reg _ (by decide)).trans hpf
  have hze : m.SweepEnds z := hxe.trans (hpe.trans hre)
  cases hh : w.hold with
  | true =>
    rw [if_pos rfl]
    exact ⟨hzf, fun _ => hraise.sweep_eq.trans (hps.trans hxs), fun hf => absurd hf (by decide), hze⟩
  | false =>
    rw [if_neg (by decide)]
    obtain ⟨c1, c2, c3, c4, c5⟩ := z.sweepComplete_shows w
    exact ⟨c4.trans hzf, fun hf => absurd hf (by decide), fun _ => ⟨c1, c2, c3⟩, hze.trans c5⟩

/-- Whatever its end, a pass leaves memory and every register of its work. -/
theorem passEnded_keeps (w : Sweep) : m.SweepEnds (m.passEnded w) := by
  cases h : allPasses.all (fun q => w.done.contains q) with
  | true => exact (m.passEnded_last h).2.2.2
  | false => exact (m.passEnded_more h).2

end

end Mod

end Sys2Proof.Machine

/-!
The DRAM pass of a sweep, and what the commands of code stores, DRAM and sweeper do as a whole (R250 to R274).
-/
namespace Sys2Proof.Machine

namespace Mod

/-! ### A frame read as uncorrectable (R263, R269) -/

theorem Told.dramPoison_eq {l : List (Reg × Nat)} {m t : Mod} (h : m.Told l t) : t.dramPoison = m.dramPoison := (congrArg Mod.dramPoison h.rest :)
theorem Told.wr {l : List (Reg × Nat)} {m t : Mod} (h : m.Told l t) (f : Fld) (i v : Nat) (hf : (f.reg, i) ∈ l) : m.Told l (t.wr f i v) :=
  h.trans (t.told_wr f i v hf)
theorem Told.put {l : List (Reg × Nat)} {m t : Mod} (h : m.Told l t) (f : Fld) (i : Nat) (b : Bool) (hf : (f.reg, i) ∈ l) : m.Told l (t.put f i b) :=
  h.trans (t.told_put f i b hf)

/-- The registers of an error record. -/
def memErrRegs : List (Reg × Nat) := [(.MEM_ERR_STATUS, 0), (.MEM_ERR_DEVMASK, 0), (.MEM_ERR_ADDR, 0), (.MEM_ERR_TIME, 0)]

theorem told_memRecord (m : Mod) (ln source symbols devs : Nat) (unc : Bool) : m.Told memErrRegs (m.memRecord ln source symbols devs unc) := by
  unfold memRecord
  dsimp only
  split
  · refine .wr (.wr (.wr (.wr (.wr (.wr (.put (m.told_put _ _ _ ?_) _ _ _ ?_) _ _ _ ?_) _ _ _ ?_) _ _ _ ?_) _ _ _ ?_) _ _ _ ?_) _ _ _ ?_ <;> decide
  · exact m.told_put _ _ _ (by decide)

/-- An empty record takes the error in. -/
theorem memRecord_first {m : Mod} (hc : m.flag F.MEM_ERR_STATUS_CE = false) (hu : m.flag F.MEM_ERR_STATUS_UE = false) {ln source : Nat}
    (hl : ln < 2 ^ 30) (hs : source < 4) (symbols devs : Nat) (unc : Bool) : let t := m.memRecord ln source symbols devs unc
    t.rd F.MEM_ERR_STATUS_SOURCE = source ∧ t.rd F.MEM_ERR_ADDR_LINE = ln := by
  unfold memRecord
  dsimp only
  rw [hc, hu, if_pos (by simp)]
  refine ⟨?_, ?_⟩
  · rw [rd_wr_of_apart _ _ _ _ (by decide), rd_wr_of_apart _ _ _ _ (by decide), rd_wr_of_apart _ _ _ _ (by decide), rd_wr_of_apart _ _ _ _ (by decide),
      rd_wr_of_apart _ _ _ _ (by decide), rd_wr_self _ _ _ _ (by decide)]
    exact Nat.mod_eq_of_lt (Nat.lt_of_lt_of_le hs (by decide))
  · rw [rd_wr_of_apart _ _ _ _ (by decide), rd_wr_self _ _ _ _ (by decide)]
    exact Nat.mod_eq_of_lt hl

/-- The registers an uncorrectable frame of a sub-channel changes. -/
def lostRegs (n : Nat) : List (Reg × Nat) := (.MEM_UE_COUNT, n) :: (.EVR_UNROUTED, 0) :: memErrRegs

theorem frameLost_shows (m : Mod) {ln source : Nat} (hl : ln < 2 ^ 30) (hs : source < 4) : let t := m.frameLost ln source
    m.Told (lostRegs (subChannel ln)) t ∧ t.rd F.MEM_UE_COUNT_COUNT (subChannel ln) = satAdd32 (m.rd F.MEM_UE_COUNT_COUNT (subChannel ln)) 1 ∧
      (m.flag F.MEM_ERR_STATUS_CE = false → m.flag F.MEM_ERR_STATUS_UE = false → t.rd F.MEM_ERR_STATUS_SOURCE = source ∧ t.rd F.MEM_ERR_ADDR_LINE = ln) := by
  unfold frameLost
  obtain ⟨x, hx⟩ : ∃ x, m.count F.MEM_UE_COUNT_COUNT (subChannel ln) = x := ⟨_, rfl⟩
  have hxt : m.Told (lostRegs (subChannel ln)) x := by
    rw [← hx]
    exact m.told_count _ _ _ (by simp [lostRegs, F.MEM_UE_COUNT_COUNT])
  have hxc : x.rd F.MEM_UE_COUNT_COUNT (subChannel ln) = satAdd32 (m.rd F.MEM_UE_COUNT_COUNT (subChannel ln)) 1 := by
    rw [← hx, rd_count_self _ _ _ _ (by decide) rfl]
  have hxf : ∀ f : Fld, F.MEM_UE_COUNT_COUNT.Apart f → x.flag f = m.flag f := fun f hf => by rw [← hx, flag_count_of_apart _ _ _ _ hf]
  rw [hx]
  have hraise := x.told_raise 193
  generalize x.raise 193 = y at hraise
  have hrec := y.told_memRecord ln source 8 0 true
  have hfirst := fun hc hu => memRecord_first (m := y) hc hu hl hs 8 0 true
  generalize y.memRecord ln source 8 0 true = z at hrec hfirst
  refine ⟨hxt.trans ((hraise.mono (by simp [lostRegs])).trans (hrec.mono (by intro p hp; simp [lostRegs, hp]))), ?_, fun hc hu => hfirst ?_ ?_⟩
  · rw [hrec.regs.rd_of_reg _ (by decide), hraise.regs.rd_of_reg _ (by decide), hxc]
  · rw [hraise.regs.flag_of_reg _ (by decide), hxf _ (by decide), hc]
  · rw [hraise.regs.flag_of_reg _ (by decide), hxf _ (by decide), hu]

/-- Eight symbol errors: the frame is written back without tags, poisoned, and recorded as lost. -/
theorem readFrame_lost {m : Mod} {ln source : Nat} {errs : FrameErr} (h : (symbolErrors errs).length = 8) :
    ∃ d, (m.readFrame ln errs source).1 = (m.putFrame ln d 0 true).frameLost ln source := by
  unfold readFrame
  dsimp only
  generalize symbolErrors errs = es at h
  rw [if_neg (by omega), if_neg (by omega), if_pos h]
  exact ⟨_, rfl⟩

/-! ### The DRAM pass -/

theorem regs_putFrame (m : Mod) (ln : Nat) (data : BitVec 512) (tags : BitVec 4) (poison : Bool) : (m.putFrame ln data tags poison).regs = m.regs :=
  putFrame_keeps (P := fun t => t.regs = m.regs) (fun _ _ _ h => h) (fun _ _ _ h => h) (fun _ _ h => h) m ln data tags poison rfl

/-- With no line in a slice and none sent, nothing is accepted. -/
theorem acceptVictims_all {m : Mod} (hl : m.lines = []) (hv : m.victims = []) (hh : m.held = []) : let t := m.each (upTo 16) acceptVictims
    t.lines = [] ∧ t.regs = m.regs := by
  have hset : ∀ {α : Type} [DecidableEq α] (s : Nat), Tbl.set ([] : List α) [] s [] = [] := fun s => by simp [Tbl.set, Tbl.erase]
  have h := each_keeps (P := fun t : Mod => t.lines = [] ∧ t.victims = [] ∧ t.held = [] ∧ t.regs = m.regs) (f := acceptVictims) (fun t s ht => by
    obtain ⟨h1, h2, h3, h4⟩ := ht
    rw [acceptVictims_none (by rw [h2]; rfl) (by rw [h3]; rfl)]
    exact ⟨h1, by dsimp only; rw [h2, hset], by dsimp only; rw [h3, hset], h4⟩) (upTo 16) (m := m) ⟨hl, hv, hh, rfl⟩
  exact ⟨h.1, h.2.2.2⟩

/-- No tag of a line's granules: its frame has none. -/
theorem frame_untagged {m : Mod} {ln : Nat} (h0 : m.tag (64 * ln) = false) (h1 : m.tag (64 * ln + 16) = false) (h2 : m.tag (64 * ln + 32) = false)
    (h3 : m.tag (64 * ln + 48) = false) : (m.frame ln).tags = 0 := by
  rw [frame, h0, h1, h2, h3]
  rfl

/-- Tags that a frame without any stands for. -/
theorem untagged_frame {m : Mod} {ln : Nat} (h : (m.frame ln).tags = 0) :
    m.tag (64 * ln) = false ∧ m.tag (64 * ln + 16) = false ∧ m.tag (64 * ln + 32) = false ∧ m.tag (64 * ln + 48) = false := by
  rw [frame] at h
  dsimp only at h
  generalize m.tag (64 * ln) = a at h
  generalize m.tag (64 * ln + 16) = b at h
  generalize m.tag (64 * ln + 32) = c at h
  generalize m.tag (64 * ln + 48) = d at h
  revert a b c d
  decide

/-- The DRAM pass over an uncorrectable frame, with empty slices. -/
theorem sweepDram_lost {m : Mod} (w : Sweep) {ln : BitVec 30} {er : FrameErr} (he : (symbolErrors er).length = 8) (hl : m.lines = []) (hv : m.victims = [])
    (hh : m.held = []) : let t := m.sweepDram w [(ln, er)]
    (t.frame ln.toNat).tags = 0 ∧ (t.frame ln.toNat).poison = true ∧ t.rd F.MEM_SWP_POS_LINE = 2 ^ 30 - 1 ∧
      t.rd F.MEM_UE_COUNT_COUNT (subChannel ln.toNat) = satAdd32 (m.rd F.MEM_UE_COUNT_COUNT (subChannel ln.toNat)) 1 ∧
      (m.flag F.MEM_ERR_STATUS_CE = false → m.flag F.MEM_ERR_STATUS_UE = false → t.rd F.MEM_ERR_STATUS_SOURCE = 2 ∧ t.rd F.MEM_ERR_ADDR_LINE = ln.toNat) := by
  obtain ⟨hxl, hxr⟩ := acceptVictims_all hl hv hh
  unfold sweepDram
  generalize m.each (upTo 16) acceptVictims = x at hxl hxr
  dsimp only
  have hkeys : x.each (Tbl.keys x.lines) (fun m ln => m.sweepLine w ln) = x := by rw [hxl]; rfl
  have hread : x.each [(ln, er)] (fun m e => if (Tbl.look m.lines e.1.toNat).isSome then m else (m.readFrame e.1.toNat e.2 2).1) =
      (x.readFrame ln.toNat er 2).1 := by
    have hnone : ¬ (Tbl.look x.lines ln.toNat).isSome = true := by rw [hxl]; exact Bool.false_ne_true
    rw [each, List.foldl_cons, List.foldl_nil, if_neg hnone]
  obtain ⟨d, hd⟩ := readFrame_lost (m := x) (ln := ln.toNat) (source := 2) he
  rw [hkeys, hread, hd]
  have hframe := x.frame_putFrame ln.toNat d 0 true
  have hpr := (x.regs_putFrame ln.toNat d 0 true).trans hxr
  generalize x.putFrame ln.toNat d 0 true = y at hframe hpr
  obtain ⟨hlost, hue, hrec⟩ := y.frameLost_shows (ln := ln.toNat) ln.isLt (by decide : 2 < 4)
  rw [flag_of_regs hpr, flag_of_regs hpr] at hrec
  rw [rd_of_regs hpr] at hue
  have hlp : (y.frameLost ln.toNat 2).dramPoison = y.dramPoison := hlost.dramPoison_eq
  have hlf := frame_of hlost.mem_eq hlost.tags_eq hlp ln.toNat
  generalize y.frameLost ln.toNat 2 = z at hlost hue hrec hlp hlf
  obtain ⟨hcells, htags, _⟩ := z.sweepCells_shows w 0 dramTop
  generalize z.sweepCells w 0 dramTop = u at hcells htags
  obtain ⟨t0, t1, t2, t3⟩ := untagged_frame (m := z) (ln := ln.toNat) (by rw [hlf, hframe])
  have huf : ∀ v, (u.wr F.MEM_SWP_POS_LINE 0 v).frame ln.toNat = u.frame ln.toNat := fun v => frame_of (wr_mem _ _ _ _) (wr_tags _ _ _ _) (wr_dramPoison _ _ _ _) _
  have hpoison : (u.frame ln.toNat).poison = (z.frame ln.toNat).poison := by
    rw [frame, frame]
    dsimp only
    rw [hcells.poison]
  refine ⟨?_, ?_, ?_, ?_, fun hc hu => ?_⟩
  · rw [huf]
    exact frame_untagged (htags _ t0) (htags _ t1) (htags _ t2) (htags _ t3)
  · rw [huf, hpoison, hlf, hframe]
  · rw [rd_wr_self _ _ _ _ (by decide)]
    exact Nat.mod_eq_of_lt (by decide)
  · rw [rd_wr_of_apart _ _ _ _ (by decide), hcells.regs.rd_of_reg _ (by decide), hue]
  · rw [rd_wr_of_apart _ _ _ _ (by decide), rd_wr_of_apart _ _ _ _ (by decide), hcells.regs.rd_of_reg _ (by decide), hcells.regs.rd_of_reg _ (by decide)]
    exact hrec hc hu

end Mod

end Sys2Proof.Machine

/-!
What the commands of code stores, DRAM and sweeper do as a whole (R250 to R274).
-/
namespace Sys2Proof.Machine

/-- A pass of a region's scratch: memory stays, and a tag of an absent line's granule stays exactly where its key does not match. -/
theorem Mod.sweepPass_scratch {m : Mod} {x : Sweep} {e : PassEnd} {g : RegionId} (hs : m.sweep = some x) (hp : e.pass ∉ x.done) (hg : e.pass = .regionScratch g) :
    let t := m.sweepPass e
    t.mem = m.mem ∧ ∀ a, a % 16 = 0 → rgnScratch g ≤ a → a < rgnScratch g + 0x400000 → Tbl.look m.lines (a / 64) = none →
      t.tag a = (m.tag a && !x.matches m.node (Key.ofBytes (m.bytes a 16) true)) := by
  obtain ⟨h1, _, h3⟩ := m.sweepCells_shows x (rgnScratch g) (rgnScratch g + 0x400000)
  have hend := (m.sweepCells x (rgnScratch g) (rgnScratch g + 0x400000)).passEnded_keeps { x with done := e.pass :: x.done }
  have hwork : m.sweepWork x e e.pass = m.sweepCells x (rgnScratch g) (rgnScratch g + 0x400000) := by rw [hg, Mod.sweepWork]
  rw [Mod.sweepPass_eq hs hp, hwork]
  generalize m.sweepCells x (rgnScratch g) (rgnScratch g + 0x400000) = y at h1 h3 hend
  generalize y.passEnded { x with done := e.pass :: x.done } = z at hend
  obtain ⟨hmem, htags, _, _⟩ := hend
  refine ⟨hmem.trans h1.mem, fun a ha hlo hhi hl => ?_⟩
  rw [Mod.tag, htags]
  exact h3 a ha hlo hhi hl

/-- The DRAM pass over an uncorrectable frame. -/
theorem Mod.sweepPass_dram {m : Mod} {x : Sweep} {e : PassEnd} {ln : BitVec 30} {er : FrameErr} (hs : m.sweep = some x) (hp : e.pass ∉ x.done)
    (hd : e.pass = .dram) (he : e.errs = [(ln, er)]) (h8 : (symbolErrors er).length = 8) (hl : m.lines = []) (hv : m.victims = []) (hh : m.held = []) :
    let t := m.sweepPass e
    (t.frame ln.toNat).tags = 0 ∧ (t.frame ln.toNat).poison = true ∧ t.rd F.MEM_SWP_POS_LINE = 2 ^ 30 - 1 ∧
      t.rd F.MEM_UE_COUNT_COUNT (subChannel ln.toNat) = satAdd32 (m.rd F.MEM_UE_COUNT_COUNT (subChannel ln.toNat)) 1 ∧
      (m.flag F.MEM_ERR_STATUS_CE = false → m.flag F.MEM_ERR_STATUS_UE = false → t.rd F.MEM_ERR_STATUS_SOURCE = 2 ∧ t.rd F.MEM_ERR_ADDR_LINE = ln.toNat) := by
  have hlost := Mod.sweepDram_lost x (ln := ln) h8 hl hv hh
  have hend := (m.sweepDram x [(ln, er)]).passEnded_keeps { x with done := e.pass :: x.done }
  have hwork : m.sweepWork x e e.pass = m.sweepDram x [(ln, er)] := by rw [hd, Mod.sweepWork, he]
  rw [Mod.sweepPass_eq hs hp, hwork]
  generalize m.sweepDram x [(ln, er)] = y at hlost hend
  generalize y.passEnded { x with done := e.pass :: x.done } = z at hend
  have hframe := Mod.frame_of hend.1 hend.2.1 hend.2.2.1 ln.toNat
  dsimp only at hlost ⊢
  rw [hframe, hend.rd _ _ (by decide), hend.rd _ _ (by decide), hend.rd _ _ (by decide), hend.rd _ _ (by decide)]
  exact hlost

/-- Settles O44: each command's effect is the rule about its operation on the code store, the DRAM or the sweeper. -/
theorem codeStoresDramAndTheSweeper : Obligations.CodeStoresDramAndTheSweeper := by
  unfold Obligations.CodeStoresDramAndTheSweeper
  intro s w g v hold sector row data sub failed t0 sc dev keep rate x e
  refine ⟨fun hb c hc => ?lost, fun hb hl => ?started, fun h => ?csNone, fun h hr hs => ?erased, fun h => ?programmed, fun hs hu hc => ?supplied,
    fun hp ht hf h0 => ?trained, fun hp => ?unpowered, fun hf => ?retry, fun hp ht hr => ?filled, does_next rfl rfl, does_next rfl rfl, fun h => ?patrolOff,
    fun h hr => ?patrolUnready, fun h hr => ?patrolled, fun h => ?temperature, fun hr => ?sweepUnready, fun hr h3 => ?sweepStart, fun hs hp => ?pass,
    fun hs hp => ?passDone, fun hs hp hh => ?released, fun hs h => ?notReleased⟩
  case lost =>
    simp only [List.mem_cons, List.not_mem_nil, or_false] at hc
    rcases hc with rfl | rfl
    · exact does_next rfl (Mod.csCmd_busy hb 1)
    · exact does_next rfl (Mod.csCmd_busy hb 2)
  case started =>
    refine ⟨does_next rfl ?_, fun h => does_next rfl ?_, fun h => does_next rfl ?_⟩
    · dsimp only
      rw [Mod.csCmd_erase hb hl]
      exact s.mod.csBegun_shows g 1
    · dsimp only
      rw [Mod.csCmd_program hb hl h]
      exact s.mod.csBegun_shows g 2
    · dsimp only
      rw [Mod.csCmd_over hb hl h]
      exact s.mod.csRefuse_shows g (by decide)
  case csNone => exact does_next rfl (Mod.csDone_none h v)
  case erased => exact does_next rfl (Mod.csDone_erases g.isLt h hr hs v)
  case programmed => exact does_next rfl (Mod.csDone_programs h v)
  case supplied => exact ⟨fun hr => does_next rfl (Mod.dramSupplied_up hs hu hc hr), fun hr => does_next rfl (Mod.dramSupplied_faulted hr)⟩
  case trained =>
    refine does_next rfl ?_
    subst h0
    obtain ⟨h1, _, h3, h4, _⟩ := s.mod.trained_shows
    dsimp only
    rw [hp, ht, hf, if_neg (by decide)]
    exact ⟨h1, h3, h4⟩
  case unpowered =>
    refine ⟨does_next rfl ?_, does_next rfl ?_, does_next rfl ?_⟩
    · exact if_pos (by rw [hp]; rfl)
    · exact if_pos (by rw [hp]; rfl)
    · exact if_neg (by rw [hp]; simp)
  case retry =>
    refine ⟨fun h => does_next rfl ?_, fun hp h h0 => does_next rfl ?_⟩
    · exact if_pos (by simp [h])
    · subst h0
      have hlt : decide (s.mod.trainTries ≥ 2) = false := decide_eq_false (by omega)
      obtain ⟨y, hy⟩ : ∃ y, ({ s.mod with trainTries := s.mod.trainTries + 1 } : Mod) = y := ⟨_, rfl⟩
      have hyt : y.trainTries = s.mod.trainTries + 1 := by rw [← hy]
      obtain ⟨h1, h2, _, _, h5⟩ := y.trained_shows
      dsimp only
      rw [hp, hf, hlt, if_neg (by decide), hy]
      exact ⟨h1, h2, h5.trans hyt⟩
  case filled =>
    refine does_next rfl ?_
    obtain ⟨h1, h2, h3, h4⟩ := s.mod.dramFilled_shows
    dsimp only
    rw [hp, ht, hr, if_pos (by decide), ← h4]
    generalize s.mod.dramFilled = y at h1 h2 h3
    obtain ⟨b1, b2, b3, b4, b5⟩ := Mod.bootDram_shows h1
    refine ⟨b1, fun a ha => ?_, b4.trans h3, b5⟩
    rw [b2, Mod.tag, b3]
    exact h2 a ha
  case patrolOff => exact does_next rfl (Mod.patrol_off h [])
  case patrolUnready => exact does_next rfl (Mod.patrol_unready h hr [])
  case patrolled => exact does_next rfl (Mod.patrol_ready h hr)
  case temperature => exact does_next rfl (Mod.dramTemp_shows h t0.isLt sc.isLt dev.isLt)
  case sweepUnready => exact does_next rfl (Mod.sweepStart_unready hr w hold _ _)
  case sweepStart =>
    have h3' : rate.toNat ≠ 3 := fun h => h3 (BitVec.eq_of_toNat_eq h)
    have hkeep : keep ≠ 0 → keep.toNat ≠ 0 := fun h h0 => h (BitVec.eq_of_toNat_eq h0)
    refine ⟨fun hs => ?_, fun hs hk => ?_, fun hs hk hlo => ?_, fun hs hk hlo => ?_⟩
    · exact does_next rfl (Mod.sweepStart_lost hr h3' w hold hs _)
    · subst hk
      exact does_next rfl (Mod.sweepStart_unkept hr h3' w hold hs)
    · exact does_next rfl (Mod.sweepStart_empty hr h3' w hold (hkeep hk) hs hlo)
    · exact does_next rfl (Mod.sweepStart_starts hr h3' w hold (hkeep hk) hs hlo)
  case pass =>
    refine ⟨fun hg => ?_, fun ln er hd he h8 hl hv hh => ?_, fun hall => ?_, fun hall => ?_⟩
    · exact does_next rfl (Mod.sweepPass_scratch hs hp hg)
    · exact does_next rfl (Mod.sweepPass_dram hs hp hd he h8 hl hv hh)
    · refine does_next rfl ?_
      dsimp only
      rw [Mod.sweepPass_eq hs hp]
      exact (Mod.passEnded_more _ hall).1
    · refine does_next rfl ?_
      dsimp only
      rw [Mod.sweepPass_eq hs hp]
      obtain ⟨h1, h2, h3, _⟩ := Mod.passEnded_last (s.mod.sweepWork x e e.pass) (w := { x with done := e.pass :: x.done }) hall
      exact ⟨h1, h2, h3⟩
  case passDone => exact does_next rfl (Mod.sweepPass_done hs hp)
  case released =>
    refine does_next rfl ?_
    rw [Mod.sweepRelease_held hs hp hh]
    obtain ⟨h1, h2, h3, _⟩ := s.mod.sweepComplete_shows x
    exact ⟨h1, h2, h3⟩
  case notReleased => exact does_next rfl (Mod.sweepRelease_lost hs h)

end Sys2Proof.Machine

/-!
What a write leaves of a register's fields, by their bits: the mask of the fields of some types, the fields taken from a value under a mask
(R6, R7).
-/
namespace Sys2Proof.Machine

theorem testBit_bitsOf (n lo w j : Nat) : (bitsOf n lo w).testBit j = (decide (j < w) && n.testBit (lo + j)) := by
  rw [bitsOf, Nat.testBit_mod_two_pow, Nat.testBit_shiftRight]

theorem bitsOf_congr {x y lo w : Nat} (h : ∀ j, j < w → x.testBit (lo + j) = y.testBit (lo + j)) : bitsOf x lo w = bitsOf y lo w := by
  refine Nat.eq_of_testBit_eq fun j => ?_
  rw [testBit_bitsOf, testBit_bitsOf]
  by_cases hj : j < w
  · rw [h j hj]
  · simp [hj]

theorem bitsOf_mod_of_le {lo w k : Nat} (n : Nat) (h : lo + w ≤ k) : bitsOf (n % 2 ^ k) lo w = bitsOf n lo w := by
  refine bitsOf_congr fun j hj => ?_
  rw [Nat.testBit_mod_two_pow, decide_eq_true (show lo + j < k by omega), Bool.true_and]

/-- A bit of the field `f` moved to its place. -/
theorem testBit_ones_shift (w lo x : Nat) : (((2 ^ w - 1) <<< lo).testBit x) = (decide (lo ≤ x) && decide (x < lo + w)) := by
  rw [Nat.testBit_shiftLeft, Nat.testBit_two_pow_sub_one]
  by_cases h : lo ≤ x
  · rw [decide_eq_true h]
    exact congrArg (true && ·) (decide_eq_decide.2 (by omega))
  · rw [decide_eq_false h, Bool.false_and, Bool.false_and]

theorem testBit_byteMask (b n x : Nat) : (byteMask b n).testBit x = (decide (8 * b ≤ x) && decide (x < 8 * b + 8 * n)) :=
  testBit_ones_shift _ _ _

/-! ### The fields of a register -/

/-- Two fields share no bit. -/
def Field.apart (f g : Field) : Bool := decide (f.lo + f.width ≤ g.lo) || decide (g.lo + g.width ≤ f.lo)

/-- A field has bits, all of them within 64. -/
def Field.fits (f : Field) : Bool := decide (0 < f.width) && decide (f.lo + f.width ≤ 64)

/-- Fields that fit their register and share no bit. -/
def laidOut : List Field → Bool
  | [] => true
  | f :: l => f.fits && l.all f.apart && laidOut l

theorem Reg.laidOut (r : Reg) : Machine.laidOut r.fields = true := by cases r <;> rfl

theorem Field.apart_comm (f g : Field) : f.apart g = g.apart f := Bool.or_comm _ _

theorem Field.fits_iff {f : Field} : f.fits = true ↔ 0 < f.width ∧ f.lo + f.width ≤ 64 := by
  rw [Field.fits, Bool.and_eq_true, decide_eq_true_iff, decide_eq_true_iff]

theorem Field.not_within_of_apart {f g : Field} (h : f.apart g = true) {j : Nat} (hj : j < g.width) :
    ¬ (f.lo ≤ g.lo + j ∧ g.lo + j < f.lo + f.width) := by
  rw [Field.apart, Bool.or_eq_true, decide_eq_true_iff, decide_eq_true_iff] at h
  omega

theorem laidOut_cons {f : Field} {l : List Field} (h : laidOut (f :: l) = true) : f.fits = true ∧ (∀ g ∈ l, f.apart g = true) ∧ laidOut l = true := by
  rw [laidOut, Bool.and_eq_true, Bool.and_eq_true, List.all_eq_true] at h
  exact ⟨h.1.1, h.1.2, h.2⟩

theorem fits_of_laidOut {l : List Field} (h : laidOut l = true) {f : Field} (hf : f ∈ l) : f.fits = true := by
  induction l with
  | nil => cases hf
  | cons g l ih =>
    obtain ⟨hg, -, hl⟩ := laidOut_cons h
    rcases List.mem_cons.1 hf with rfl | hf
    · exact hg
    · exact ih hl hf

theorem Reg.field_fits {r : Reg} {f : Field} (hf : f ∈ r.fields) : 0 < f.width ∧ f.lo + f.width ≤ 64 :=
  Field.fits_iff.1 (fits_of_laidOut r.laidOut hf)

/-- The bits of a field apart from the one written stay. -/
theorem bitsOf_withBits_apart {f g : Field} (h : f.apart g = true) (n v : Nat) :
    bitsOf (withBits n f.lo f.width v) g.lo g.width = bitsOf n g.lo g.width := by
  rw [Field.apart, Bool.or_eq_true, decide_eq_true_iff, decide_eq_true_iff] at h
  exact h.elim (bitsOf_withBits_above _ _ _ _ _ _) (bitsOf_withBits_below _ _ _ _ _ _)

/-! ### The fields a value gives -/

/-- A field is of the types meant and the mask meets it. -/
def Field.chosen (f : Field) (t : FTy → Bool) (mask : Nat) : Bool := t f.ty && (((2 ^ f.width - 1) <<< f.lo) &&& mask != 0)

/-- One field's part of `Reg.take`: `x` is the value that gives the bits. -/
def takeField (r : Reg) (i : Nat) (t : FTy → Bool) (x mask : Nat) (a : Nat × Bool) (f : Field) : Nat × Bool :=
  if f.chosen t mask then
    if f.reserved r i (bitsOf x f.lo f.width) then (a.1, true) else (withBits a.1 f.lo f.width (bitsOf x f.lo f.width), a.2)
  else a

theorem Reg.take_eq (r : Reg) (i : Nat) (t : FTy → Bool) (old v mask : Nat) :
    r.take i t old v mask = r.fields.foldl (takeField r i t ((old &&& ((2 ^ 64 - 1) ^^^ mask)) ||| (v &&& mask)) mask) (old, false) := rfl

section
variable (r : Reg) (i : Nat) (t : FTy → Bool) (x mask : Nat)

theorem takeField_fst (a : Nat × Bool) (f : Field) : (takeField r i t x mask a f).1 =
    if f.chosen t mask && !f.reserved r i (bitsOf x f.lo f.width) then withBits a.1 f.lo f.width (bitsOf x f.lo f.width) else a.1 := by
  cases hc : f.chosen t mask <;> cases hv : f.reserved r i (bitsOf x f.lo f.width) <;> simp [takeField, hc, hv]

theorem takeField_snd (a : Nat × Bool) (f : Field) :
    (takeField r i t x mask a f).2 = (a.2 || (f.chosen t mask && f.reserved r i (bitsOf x f.lo f.width))) := by
  cases hc : f.chosen t mask <;> cases hv : f.reserved r i (bitsOf x f.lo f.width) <;> simp [takeField, hc, hv]

theorem takeFields_snd (l : List Field) (a : Nat × Bool) : (l.foldl (takeField r i t x mask) a).2 =
    (a.2 || l.any fun f => f.chosen t mask && f.reserved r i (bitsOf x f.lo f.width)) := by
  induction l generalizing a with
  | nil => rw [List.foldl_nil, List.any_nil, Bool.or_false]
  | cons f l ih => rw [List.foldl_cons, ih, takeField_snd, List.any_cons, Bool.or_assoc]

theorem takeFields_apart {g : Field} (l : List Field) (hl : ∀ f ∈ l, f.apart g = true) (a : Nat × Bool) :
    bitsOf (l.foldl (takeField r i t x mask) a).1 g.lo g.width = bitsOf a.1 g.lo g.width := by
  induction l generalizing a with
  | nil => rfl
  | cons f l ih =>
    rw [List.foldl_cons, ih (fun f' hf => hl f' (List.mem_cons_of_mem _ hf)), takeField_fst]
    split
    · exact bitsOf_withBits_apart (hl f List.mem_cons_self) _ _
    · rfl

/-- Each field chosen has its bits of the value, but for one offered a reserved encoding. -/
theorem takeFields_bits {g : Field} {l : List Field} (h : laidOut l = true) (hg : g ∈ l) (a : Nat × Bool) :
    bitsOf (l.foldl (takeField r i t x mask) a).1 g.lo g.width =
      if g.chosen t mask && !g.reserved r i (bitsOf x g.lo g.width) then bitsOf x g.lo g.width else bitsOf a.1 g.lo g.width := by
  induction l generalizing a with
  | nil => cases hg
  | cons f l ih =>
    obtain ⟨hf, hap, hl⟩ := laidOut_cons h
    rw [List.foldl_cons]
    rcases List.mem_cons.1 hg with rfl | hg
    · rw [takeFields_apart _ _ _ _ _ l (fun f' hf' => (Field.apart_comm _ _).trans (hap f' hf')), takeField_fst]
      split
      · rw [bitsOf_withBits_self, Nat.mod_eq_of_lt (bitsOf_lt _ _ _)]
      · rfl
    · rw [ih hl hg, takeField_fst]
      congr 1
      split
      · exact bitsOf_withBits_apart (hap g hg) _ _
      · rfl

end

/-! ### The mask of the fields of some types -/

theorem testBit_maskFold (t : FTy → Bool) (l : List Field) (a x : Nat) :
    (l.foldl (fun a f => if t f.ty then a ||| ((2 ^ f.width - 1) <<< f.lo) else a) a).testBit x =
      (a.testBit x || l.any fun f => t f.ty && (decide (f.lo ≤ x) && decide (x < f.lo + f.width))) := by
  induction l generalizing a with
  | nil => rw [List.foldl_nil, List.any_nil, Bool.or_false]
  | cons f l ih =>
    rw [List.foldl_cons, ih, List.any_cons]
    cases ht : t f.ty with
    | false => simp
    | true => rw [if_pos rfl, Nat.testBit_or, testBit_ones_shift, Bool.true_and, Bool.or_assoc]

theorem Reg.testBit_maskOf (r : Reg) (t : FTy → Bool) (x : Nat) :
    (r.maskOf t).testBit x = r.fields.any fun f => t f.ty && (decide (f.lo ≤ x) && decide (x < f.lo + f.width)) := by
  rw [Reg.maskOf, testBit_maskFold, Nat.zero_testBit, Bool.false_or]

theorem any_within {l : List Field} (h : laidOut l = true) {g : Field} (hg : g ∈ l) (t : FTy → Bool) {j : Nat} (hj : j < g.width) :
    (l.any fun f => t f.ty && (decide (f.lo ≤ g.lo + j) && decide (g.lo + j < f.lo + f.width))) = t g.ty := by
  induction l with
  | nil => cases hg
  | cons f l ih =>
    obtain ⟨hf, hap, hl⟩ := laidOut_cons h
    rw [List.any_cons]
    rcases List.mem_cons.1 hg with rfl | hg
    · have hin : (decide (g.lo ≤ g.lo + j) && decide (g.lo + j < g.lo + g.width)) = true := by
        rw [Bool.and_eq_true, decide_eq_true_iff, decide_eq_true_iff]
        omega
      rw [hin, Bool.and_true]
      cases t g.ty with
      | true => exact Bool.true_or _
      | false =>
        rw [Bool.false_or, List.any_eq_false]
        intro f' hf' hw
        rw [Bool.and_eq_true, Bool.and_eq_true, decide_eq_true_iff, decide_eq_true_iff] at hw
        exact Field.not_within_of_apart ((Field.apart_comm _ _).trans (hap f' hf')) hj hw.2
    · have hout : (decide (f.lo ≤ g.lo + j) && decide (g.lo + j < f.lo + f.width)) = false := by
        rw [← Bool.not_eq_true, Bool.and_eq_true, decide_eq_true_iff, decide_eq_true_iff]
        exact Field.not_within_of_apart (hap g hg) hj
      rw [hout, Bool.and_false, Bool.false_or, ih hl hg]

/-- A bit of a field lies in the mask exactly when the field is of the types meant. -/
theorem Reg.testBit_maskOf_field {r : Reg} {g : Field} (hg : g ∈ r.fields) (t : FTy → Bool) {j : Nat} (hj : j < g.width) :
    (r.maskOf t).testBit (g.lo + j) = t g.ty := by
  rw [Reg.testBit_maskOf]
  exact any_within r.laidOut hg t hj

theorem Reg.stMask_eq (r : Reg) : r.stMask = r.maskOf (· == .st) := by
  simp only [Reg.stMask, Reg.maskOf, beq_iff_eq]

end Sys2Proof.Machine

/-!
A register write by the types of the register's fields (R6 to R8, R380).
-/
namespace Sys2Proof.Machine

/-! ### A value of `n` bytes written from byte `b` of a register -/

/-- A field lies in the `n` bytes from byte `b`. -/
def Field.inside (f : Field) (b n : Nat) : Bool := decide (8 * b ≤ f.lo) && decide (f.lo + f.width ≤ 8 * b + 8 * n)

/-- A field lies outside of the `n` bytes from byte `b`. -/
def Field.Outside (f : Field) (b n : Nat) : Prop := f.lo + f.width ≤ 8 * b ∨ 8 * b + 8 * n ≤ f.lo

/-- The bits that `value`, written from byte `b`, offers a field. -/
def Field.given (f : Field) (b value : Nat) : Nat := bitsOf value (f.lo - 8 * b) f.width

section
variable {r : Reg} {b n : Nat} {f : Field}

theorem Field.inside_iff : f.inside b n = true ↔ 8 * b ≤ f.lo ∧ f.lo + f.width ≤ 8 * b + 8 * n := by
  rw [Field.inside, Bool.and_eq_true, decide_eq_true_iff, decide_eq_true_iff]

theorem Field.Outside.not_inside (h : f.Outside b n) (hw : 0 < f.width) : f.inside b n = false := by
  rw [← Bool.not_eq_true, Field.inside_iff]
  simp only [Field.Outside] at h
  omega

theorem testBit_byteMask_inside (h : f.inside b n = true) {j : Nat} (hj : j < f.width) : (byteMask b n).testBit (f.lo + j) = true := by
  rw [Field.inside_iff] at h
  rw [testBit_byteMask, Bool.and_eq_true, decide_eq_true_iff, decide_eq_true_iff]
  omega

theorem testBit_byteMask_outside (h : f.Outside b n) {j : Nat} (hj : j < f.width) : (byteMask b n).testBit (f.lo + j) = false := by
  simp only [Field.Outside] at h
  rw [testBit_byteMask, ← Bool.not_eq_true, Bool.and_eq_true, decide_eq_true_iff, decide_eq_true_iff]
  omega

theorem Field.chosen_inside (t : FTy → Bool) (h : f.inside b n = true) (hw : 0 < f.width) : f.chosen t (byteMask b n) = t f.ty := by
  have hne : ((2 ^ f.width - 1) <<< f.lo) &&& byteMask b n ≠ 0 := by
    intro h0
    have := congrArg (Nat.testBit · (f.lo + 0)) h0
    rw [Nat.testBit_and, testBit_byteMask_inside h hw, testBit_ones_shift, Nat.zero_testBit] at this
    simp [hw] at this
  rw [Field.chosen, bne_iff_ne.2 hne, Bool.and_true]

theorem Field.chosen_outside (t : FTy → Bool) (h : f.Outside b n) : f.chosen t (byteMask b n) = false := by
  have h0 : ((2 ^ f.width - 1) <<< f.lo) &&& byteMask b n = 0 := by
    refine Nat.eq_of_testBit_eq fun x => ?_
    rw [Nat.testBit_and, testBit_ones_shift, testBit_byteMask, Nat.zero_testBit, ← Bool.not_eq_true]
    simp only [Field.Outside] at h
    simp only [Bool.and_eq_true, decide_eq_true_iff]
    omega
  rw [Field.chosen, h0]
  exact Bool.and_false _

/-- The value as it is moved to its bytes. -/
def movedTo (b n value : Nat) : Nat := (value % 2 ^ (8 * n)) <<< (8 * b)

theorem testBit_movedTo_inside (value : Nat) (h : f.inside b n = true) {j : Nat} (hj : j < f.width) :
    (movedTo b n value).testBit (f.lo + j) = (f.given b value).testBit j := by
  rw [Field.inside_iff] at h
  rw [movedTo, Nat.testBit_shiftLeft, Nat.testBit_mod_two_pow, Field.given, testBit_bitsOf, decide_eq_true hj,
    decide_eq_true (show f.lo + j ≥ 8 * b by omega), decide_eq_true (show f.lo + j - 8 * b < 8 * n by omega)]
  simp only [Bool.true_and]
  congr 1
  omega

theorem testBit_not64 (x : Nat) {p : Nat} (h : p < 64) : ((2 ^ 64 - 1) ^^^ x).testBit p = !x.testBit p := by
  rw [Nat.testBit_xor, Nat.testBit_two_pow_sub_one, decide_eq_true h, Bool.true_xor]

/-- The bits a field is offered are those of the value. -/
theorem bitsOf_mixed (old value : Nat) (h : f.inside b n = true) (h64 : f.lo + f.width ≤ 64) :
    bitsOf ((old &&& ((2 ^ 64 - 1) ^^^ byteMask b n)) ||| (movedTo b n value &&& byteMask b n)) f.lo f.width = f.given b value := by
  rw [← Nat.mod_eq_of_lt (show f.given b value < 2 ^ f.width from bitsOf_lt _ _ _)]
  refine Nat.eq_of_testBit_eq fun j => ?_
  rw [testBit_bitsOf, Nat.testBit_mod_two_pow]
  by_cases hj : j < f.width
  · rw [Nat.testBit_or, Nat.testBit_and, Nat.testBit_and, testBit_not64 _ (show f.lo + j < 64 by omega), testBit_byteMask_inside h hj,
      testBit_movedTo_inside value h hj, Bool.not_true, Bool.and_false, Bool.false_or, Bool.and_true]
  · rw [decide_eq_false hj, Bool.false_and, Bool.false_and]

/-- A field within the bytes written takes what it is offered, unless it is of no type meant or offered a reserved encoding. -/
theorem Reg.take_inside (i : Nat) (t : FTy → Bool) (old value : Nat) (hf : f ∈ r.fields) (h : f.inside b n = true) :
    bitsOf (r.take i t old (movedTo b n value) (byteMask b n)).1 f.lo f.width =
      if t f.ty && !f.reserved r i (f.given b value) then f.given b value else bitsOf old f.lo f.width := by
  obtain ⟨hw, h64⟩ := Reg.field_fits hf
  rw [Reg.take_eq, takeFields_bits _ _ _ _ _ r.laidOut hf, bitsOf_mixed _ _ h h64, Field.chosen_inside t h hw]

theorem Reg.take_outside (i : Nat) (t : FTy → Bool) (old v : Nat) (hf : f ∈ r.fields) (h : f.Outside b n) :
    bitsOf (r.take i t old v (byteMask b n)).1 f.lo f.width = bitsOf old f.lo f.width := by
  rw [Reg.take_eq, takeFields_bits _ _ _ _ _ r.laidOut hf, Field.chosen_outside t h, Bool.false_and, if_neg Bool.false_ne_true]

/-- A field of another type keeps its bits. -/
theorem Reg.take_kept (i : Nat) (t : FTy → Bool) (old v mask : Nat) (hf : f ∈ r.fields) (h : t f.ty = false) :
    bitsOf (r.take i t old v mask).1 f.lo f.width = bitsOf old f.lo f.width := by
  rw [Reg.take_eq, takeFields_bits _ _ _ _ _ r.laidOut hf, Field.chosen, h, Bool.false_and, Bool.false_and, if_neg Bool.false_ne_true]

/-- The fields of a register lie each within the bytes written or outside of them. -/
def Reg.Aligned (r : Reg) (b n : Nat) : Prop := ∀ f ∈ r.fields, f.inside b n = true ∨ f.Outside b n

theorem any_congr_mem {α : Type} {l : List α} {p q : α → Bool} (h : ∀ a ∈ l, p a = q a) : l.any p = l.any q := by
  rw [Bool.eq_iff_iff, List.any_eq_true, List.any_eq_true]
  exact exists_congr fun a => and_congr_right fun ha => by rw [h a ha]

theorem Reg.take_reserved (i : Nat) (t : FTy → Bool) (old value : Nat) (h : r.Aligned b n) :
    (r.take i t old (movedTo b n value) (byteMask b n)).2 = r.fields.any fun f => f.inside b n && t f.ty && f.reserved r i (f.given b value) := by
  rw [Reg.take_eq, takeFields_snd, Bool.false_or]
  refine any_congr_mem fun f hf => ?_
  obtain ⟨hw, h64⟩ := Reg.field_fits hf
  rcases h f hf with hin | hout
  · rw [bitsOf_mixed _ _ hin h64, Field.chosen_inside t hin hw, hin, Bool.true_and]
  · rw [Field.chosen_outside t hout, hout.not_inside hw, Bool.false_and, Bool.false_and, Bool.false_and]

theorem Reg.touches_of_inside {t : FTy → Bool} (hf : f ∈ r.fields) (ht : t f.ty = true) (h : f.inside b n = true) :
    r.touches t (byteMask b n) = true := by
  obtain ⟨hw, -⟩ := Reg.field_fits hf
  rw [Reg.touches, bne_iff_ne]
  intro h0
  have hbit := congrArg (Nat.testBit · (f.lo + 0)) h0
  rw [Nat.testBit_and, Reg.testBit_maskOf_field hf _ hw, testBit_byteMask_inside h hw, ht, Nat.zero_testBit] at hbit
  exact absurd hbit (by decide)

/-! ### The bits left in place -/

/-- The ones that a write clears: those offered to W1C fields. -/
def Reg.onesOf (r : Reg) (v mask : Nat) : Nat := r.maskOf (· == .w1c) &&& v &&& mask

theorem bitsOf_clear_kept (x v mask : Nat) (hf : f ∈ r.fields) (h : f.ty ≠ .w1c) :
    bitsOf (x &&& ((2 ^ 64 - 1) ^^^ r.onesOf v mask)) f.lo f.width = bitsOf x f.lo f.width := by
  obtain ⟨-, h64⟩ := Reg.field_fits hf
  refine bitsOf_congr fun j hj => ?_
  rw [Nat.testBit_and, testBit_not64 _ (show f.lo + j < 64 by omega), Reg.onesOf, Nat.testBit_and, Nat.testBit_and,
    Reg.testBit_maskOf_field hf _ hj, beq_eq_false_iff_ne.2 h, Bool.false_and, Bool.false_and, Bool.not_false, Bool.and_true]

theorem bitsOf_clear_outside (x v : Nat) (hf : f ∈ r.fields) (h : f.Outside b n) :
    bitsOf (x &&& ((2 ^ 64 - 1) ^^^ r.onesOf v (byteMask b n))) f.lo f.width = bitsOf x f.lo f.width := by
  obtain ⟨-, h64⟩ := Reg.field_fits hf
  refine bitsOf_congr fun j hj => ?_
  rw [Nat.testBit_and, testBit_not64 _ (show f.lo + j < 64 by omega), Reg.onesOf, Nat.testBit_and, testBit_byteMask_outside h hj,
    Bool.and_false, Bool.not_false, Bool.and_true]

/-- A W1C field written loses the bits it is offered as 1. -/
theorem bitsOf_clear_w1c (x value : Nat) (hf : f ∈ r.fields) (h : f.ty = .w1c) (hin : f.inside b n = true) :
    bitsOf (x &&& ((2 ^ 64 - 1) ^^^ r.onesOf (movedTo b n value) (byteMask b n))) f.lo f.width =
      bitsOf x f.lo f.width &&& (2 ^ f.width - 1 - f.given b value) := by
  obtain ⟨-, h64⟩ := Reg.field_fits hf
  refine Nat.eq_of_testBit_eq fun j => ?_
  rw [Nat.testBit_and (bitsOf _ _ _), testBit_bitsOf, testBit_bitsOf]
  by_cases hj : j < f.width
  · rw [Nat.testBit_and, testBit_not64 _ (show f.lo + j < 64 by omega), Reg.onesOf, Nat.testBit_and, Nat.testBit_and,
      Reg.testBit_maskOf_field hf _ hj, testBit_byteMask_inside hin hj, testBit_movedTo_inside value hin hj, h,
      show 2 ^ f.width - 1 - f.given b value = 2 ^ f.width - (f.given b value + 1) by omega,
      Nat.testBit_two_pow_sub_succ (show f.given b value < 2 ^ f.width from bitsOf_lt _ _ _), decide_eq_true hj]
    simp
  · rw [decide_eq_false hj, Bool.false_and, Bool.false_and, Bool.false_and]

end

end Sys2Proof.Machine

/-!
A register write as a whole, where no operation of the register's own takes it: the staged values, the fields and the report of a reserved
encoding (R6 to R9, R380).
-/
namespace Sys2Proof.Machine

/-! ### Staged values -/

theorem Mod.stagedBase_setReg {m : Mod} {r : Reg} {i v : Nat} (hi : m.stageImage = false) :
    (m.setReg r i v).stagedBase r i = m.stagedBase r i ∨ (m.setReg r i v).stagedBase r i = v % 2 ^ 64 ∧ m.stagedBase r i = m.reg r i := by
  simp only [Mod.stagedBase, Mod.setReg_stageImage, hi, Bool.false_eq_true, if_false, Mod.inEffect, Mod.setReg_parked, Mod.reg_setReg_self]
  cases Tbl.look m.parked (regKey r i) with
  | some x => exact .inl rfl
  | none => exact .inr ⟨rfl, rfl⟩

theorem testBit_stagedReg (m : Mod) {r : Reg} (i : Nat) {f : Field} (hf : f ∈ r.fields) (hst : f.ty = .st) {j : Nat} (hj : j < f.width) :
    (m.stagedReg r i).testBit (f.lo + j) = (Tbl.get (BitVec.ofNat 64 (m.stagedBase r i)) m.staged (regKey r i)).toNat.testBit (f.lo + j) := by
  obtain ⟨-, h64⟩ := Reg.field_fits hf
  have hmask : r.stMask.testBit (f.lo + j) = true := by rw [Reg.stMask_eq, Reg.testBit_maskOf_field hf _ hj, hst]; rfl
  rw [Mod.stagedReg, Nat.testBit_or, Nat.testBit_and, Nat.testBit_and, testBit_not64 _ (show f.lo + j < 64 by omega), hmask, Bool.not_true,
    Bool.and_false, Bool.and_true, Bool.or_false]

theorem Tbl.get_set_default {α : Type} [DecidableEq α] (d d' : α) (t : Tbl α) (k : Nat) (v : α) :
    Tbl.get d' (Tbl.set d t k v) k = if v = d then d' else v := by
  rw [Tbl.set]
  split
  · exact Tbl.get_erase_self _ _ _
  · exact Tbl.get_insert_self _ _ _ _ (Tbl.mem_erase_ne _ _)

theorem testBit_of_bitsOf_eq {x y lo w : Nat} (h : bitsOf x lo w = bitsOf y lo w) {j : Nat} (hj : j < w) : x.testBit (lo + j) = y.testBit (lo + j) := by
  have hbit := congrArg (Nat.testBit · j) h
  rw [testBit_bitsOf, testBit_bitsOf, decide_eq_true hj, Bool.true_and, Bool.true_and] at hbit
  exact hbit

theorem testBit_toNat_ofNat (x : Nat) {p : Nat} (h : p < 64) : (BitVec.ofNat 64 x).toNat.testBit p = x.testBit p := by
  rw [BitVec.toNat_ofNat, Nat.testBit_mod_two_pow, decide_eq_true h, Bool.true_and]

/-- An ST field staged, the register then written without a change of that field. -/
theorem Mod.stagedReg_setStaged_setReg {m : Mod} {r : Reg} {i x y : Nat} (hi : m.stageImage = false) {f : Field} (hf : f ∈ r.fields)
    (hst : f.ty = .st) (hy : bitsOf (y % 2 ^ 64) f.lo f.width = bitsOf (m.reg r i) f.lo f.width) :
    bitsOf (((m.setStaged r i x).setReg r i y).stagedReg r i) f.lo f.width = bitsOf x f.lo f.width := by
  obtain ⟨-, h64⟩ := Reg.field_fits hf
  refine bitsOf_congr fun j hj => ?_
  have hp : f.lo + j < 64 := by omega
  have hstaged : ((m.setStaged r i x).setReg r i y).staged =
      Tbl.set (BitVec.ofNat 64 (m.stagedBase r i)) m.staged (regKey r i) (BitVec.ofNat 64 x) := rfl
  rw [testBit_stagedReg _ i hf hst hj, hstaged, Tbl.get_set_default]
  split
  case isFalse => exact testBit_toNat_ofNat _ hp
  case isTrue heq =>
    rw [testBit_toNat_ofNat _ hp, ← testBit_toNat_ofNat x hp, heq, testBit_toNat_ofNat _ hp]
    rcases Mod.stagedBase_setReg (m := m.setStaged r i x) (r := r) (i := i) (v := y) hi with hb | ⟨hb, hb'⟩
    · rw [hb]
      rfl
    · rw [hb, show m.stagedBase r i = m.reg r i from hb']
      exact testBit_of_bitsOf_eq hy hj

/-! ### What a write does with the ST fields -/

theorem Mod.writeSt_untouched {m : Mod} {w : Writer} {r : Reg} {i v mask : Nat} (h : r.touches (· == .st) mask = false) :
    m.writeSt w r i v mask = (m, false) := by
  rw [Mod.writeSt, h]
  rfl

theorem Mod.ordinaryLane_other (m : Mod) {r : Reg} (i old x : Nat) (h : r ≠ .MESH_LG_CTRL) : m.ordinaryLane r i old x = (x, false) := by
  rw [Mod.ordinaryLane, beq_eq_false_iff_ne.2 h]
  rfl

theorem Mod.writeSt_stages {m : Mod} {w : Writer} {r : Reg} {i v mask : Nat} (h : r.touches (· == .st) mask = true)
    (hs : m.mayStage w.master.toNat = true) (hr : r ≠ .MESH_LG_CTRL) : m.writeSt w r i v mask =
      (m.setStaged r i (r.take i (· == .st) (m.stagedReg r i) v mask).1, (r.take i (· == .st) (m.stagedReg r i) v mask).2) := by
  rw [Mod.writeSt, h, if_neg (by decide), if_pos hs]
  simp only [Mod.ordinaryLane_other m i _ _ hr, Bool.or_false]

theorem Mod.writeSt_refused {m : Mod} {w : Writer} {r : Reg} {i v mask : Nat} (h : r.touches (· == .st) mask = true)
    (hs : m.mayStage w.master.toNat = false) : m.writeSt w r i v mask = (m.put F.CFG_STATUS_ST_REFUSED 0 true, false) := by
  rw [Mod.writeSt, h, if_neg (by decide), if_neg (by rw [hs]; decide)]

/-! ### The registers with an operation of their own -/

/-- The registers that an operation of their own writes whole, but for those with WO fields. -/
def wholeRegs : List Reg :=
  [.GATE_ENT_BASE, .GATE_ENT_TOP, .GATE_ENT_MASTERS, .GATE_ENT_CTRL, .GATE_G_CTRL, .SPL_RGN_LRX_CONS, .SPL_RGN_LTX_PROD, .SPL_RGN_HRX_CONS,
    .SPL_RGN_HTX_PROD, .MX_PROD, .MBX_FW_IN_CONS, .MBX_FW_OUT_PROD, .TB_FREQ, .EVD_PEND, .PORT_STATUS, .PWR_INPUT]

/-- A register without WO fields. -/
def Reg.NoCommand (r : Reg) : Prop := ∀ f ∈ r.fields, f.ty ≠ .wo

theorem not_noCommand {r : Reg} (h : (r.fields.any fun f => f.ty == .wo) = true) : ¬ r.NoCommand := by
  intro hn
  obtain ⟨f, hf, hw⟩ := List.any_eq_true.1 h
  exact hn f hf (beq_iff_eq.1 hw)

theorem Mod.writeWhole_none {m : Mod} (w : Writer) {r : Reg} {i : Nat} (v mask : Nat) (hw : r ∉ wholeRegs) (hn : r.NoCommand)
    (hx : r = .MX_RING_BASE ∨ r = .MX_RING_SIZE → m.flag F.MX_CTRL_ENABLE i = false) : m.writeWhole w r i v mask = none := by
  unfold Mod.writeWhole
  dsimp only
  split
  case h_23 => rw [hx (.inl rfl)]; rfl
  case h_24 => rw [hx (.inr rfl)]; rfl
  case h_25 => rfl
  case h_5 | h_15 | h_16 | h_18 | h_19 | h_21 => exact absurd hn (not_noCommand rfl)
  all_goals exact absurd (by decide) hw

theorem Mod.writeActs_none (m : Mod) (w : Writer) {r : Reg} (i v : Nat) (hn : r.NoCommand) : m.writeActs w r i v = m := by
  unfold Mod.writeActs
  dsimp only
  split
  case h_19 => rfl
  all_goals exact absurd hn (not_noCommand rfl)

/-! ### The write -/

section
variable {m : Mod} {w : Writer} {r : Reg} {i b n value : Nat}

/-- What a write puts in place: RW fields taken, W1C fields cleared where they are offered 1. -/
def Reg.written (r : Reg) (i old v mask : Nat) : Nat := (r.take i (· == .rw) old v mask).1 &&& ((2 ^ 64 - 1) ^^^ r.onesOf v mask)

/-- The module as a write leaves it, but for the report of a reserved encoding. -/
def Mod.wrote (m : Mod) (w : Writer) (r : Reg) (i v mask : Nat) : Mod :=
  (m.writeSt w r i v mask).1.setReg r i (r.written i ((m.writeSt w r i v mask).1.reg r i) v mask)

/-- The fields of some types that are offered a reserved encoding. -/
def Reg.refuses (r : Reg) (i b n value : Nat) (t : FTy → Bool) : Bool :=
  r.fields.any fun f => f.inside b n && t f.ty && f.reserved r i (f.given b value)

theorem Mod.writeReg_plain (off : Nat) (hc : r.isCounter = false) (hw : r ∉ wholeRegs) (hn : r.NoCommand)
    (hx : r = .MX_RING_BASE ∨ r = .MX_RING_SIZE → m.flag F.MX_CTRL_ENABLE i = false) (ha : r.Aligned b n) :
    m.writeReg w r i off (movedTo b n value) (byteMask b n) = (m.wrote w r i (movedTo b n value) (byteMask b n)).iff
      ((m.writeSt w r i (movedTo b n value) (byteMask b n)).2 || r.refuses i b n value (· == .rw)) (fun m => m.reservedWrite off w.master.toNat) := by
  have hwo : (r.take i (· == .wo) 0 (movedTo b n value) (byteMask b n)).2 = false := by
    rw [Reg.take_reserved i _ _ _ ha, List.any_eq_false]
    intro f hf
    rw [beq_eq_false_iff_ne.2 (hn f hf), Bool.and_false, Bool.false_and]
    exact Bool.false_ne_true
  rw [Mod.writeReg, hc, if_neg Bool.false_ne_true, Mod.writeWhole_none w _ _ hw hn hx]
  dsimp only
  rw [Mod.writeActs_none _ _ _ _ hn, hwo, Bool.or_false, Reg.take_reserved i (· == .rw) _ _ ha]
  rfl

/-- CFG_STATUS has no ST field. -/
theorem cfgStatus_untouched (mask : Nat) : Reg.touches .CFG_STATUS (· == .st) mask = false := by
  rw [Reg.touches, show Reg.maskOf .CFG_STATUS (· == .st) = 0 by decide, Nat.zero_and]
  rfl

/-- What the ST part of a write keeps. -/
theorem Mod.writeSt_keeps (m : Mod) (w : Writer) (v mask : Nat) (hr : r ≠ .MESH_LG_CTRL) :
    OnlyRegs [(.CFG_STATUS, 0)] m (m.writeSt w r i v mask).1 ∧ (m.writeSt w r i v mask).1.reg r i = m.reg r i ∧
      (m.writeSt w r i v mask).1.mem = m.mem ∧ (m.writeSt w r i v mask).1.cores = m.cores := by
  cases ht : r.touches (· == .st) mask with
  | false => rw [Mod.writeSt_untouched ht]; exact ⟨.refl _ _, rfl, rfl, rfl⟩
  | true =>
    cases hs : m.mayStage w.master.toNat with
    | true => rw [Mod.writeSt_stages ht hs hr]; exact ⟨fun _ _ _ => rfl, rfl, rfl, rfl⟩
    | false =>
      have hne : r ≠ .CFG_STATUS := fun e => Bool.false_ne_true ((cfgStatus_untouched mask).symm.trans (e ▸ ht))
      rw [Mod.writeSt_refused ht hs]
      exact ⟨onlyRegs_put m F.CFG_STATUS_ST_REFUSED 0 true, onlyRegs_put m F.CFG_STATUS_ST_REFUSED 0 true r i fun h =>
        hne (congrArg Prod.fst (List.mem_singleton.1 h)), rfl, rfl⟩

/-- What a write keeps outside of the register. -/
theorem Mod.wrote_keeps (m : Mod) (w : Writer) (v mask : Nat) (hr : r ≠ .MESH_LG_CTRL) :
    OnlyRegs [(r, i), (.CFG_STATUS, 0)] m (m.wrote w r i v mask) ∧ (m.wrote w r i v mask).reg r i = r.written i (m.reg r i) v mask % 2 ^ 64 ∧
      (m.wrote w r i v mask).mem = m.mem ∧ (m.wrote w r i v mask).cores = m.cores := by
  obtain ⟨hregs, hreg, hmem, hcores⟩ := m.writeSt_keeps (r := r) (i := i) w v mask hr
  refine ⟨fun r' i' h => ?_, ?_, hmem, hcores⟩
  · rw [List.mem_cons, not_or, Prod.mk.injEq] at h
    exact (Mod.reg_setReg_ne _ _ h.1).trans (hregs r' i' h.2)
  · rw [Mod.wrote, Mod.reg_setReg_self, hreg]

variable {f : Field}

theorem Reg.written_kept (old v mask : Nat) (hf : f ∈ r.fields) (hrw : f.ty ≠ .rw) (hw1 : f.ty ≠ .w1c) :
    bitsOf (r.written i old v mask) f.lo f.width = bitsOf old f.lo f.width := by
  rw [Reg.written, bitsOf_clear_kept _ _ _ hf hw1, Reg.take_kept i (· == .rw) _ _ _ hf (beq_eq_false_iff_ne.2 hrw)]

theorem Reg.written_outside (old v : Nat) (hf : f ∈ r.fields) (h : f.Outside b n) :
    bitsOf (r.written i old v (byteMask b n)) f.lo f.width = bitsOf old f.lo f.width := by
  rw [Reg.written, bitsOf_clear_outside _ _ hf h, Reg.take_outside _ _ _ _ hf h]

theorem Reg.written_rw (old value : Nat) (hf : f ∈ r.fields) (hin : f.inside b n = true) (ht : f.ty = .rw) :
    bitsOf (r.written i old (movedTo b n value) (byteMask b n)) f.lo f.width =
      if f.reserved r i (f.given b value) then bitsOf old f.lo f.width else f.given b value := by
  rw [Reg.written, bitsOf_clear_kept _ _ _ hf (by rw [ht]; decide), Reg.take_inside _ _ _ _ hf hin, ht]
  cases f.reserved r i (f.given b value) <;> rfl

theorem Reg.written_w1c (old value : Nat) (hf : f ∈ r.fields) (hin : f.inside b n = true) (ht : f.ty = .w1c) :
    bitsOf (r.written i old (movedTo b n value) (byteMask b n)) f.lo f.width = bitsOf old f.lo f.width &&& (2 ^ f.width - 1 - f.given b value) := by
  rw [Reg.written, bitsOf_clear_w1c _ _ hf ht hin, Reg.take_kept _ _ _ _ _ hf (by rw [ht]; rfl)]

/-- A field of the register written, as it then reads. -/
theorem Mod.wrote_field (m : Mod) (w : Writer) (v mask : Nat) (hr : r ≠ .MESH_LG_CTRL) (hf : f ∈ r.fields) :
    bitsOf ((m.wrote w r i v mask).reg r i) f.lo f.width = bitsOf (r.written i (m.reg r i) v mask) f.lo f.width := by
  obtain ⟨-, hreg, -, -⟩ := m.wrote_keeps (r := r) (i := i) w v mask hr
  rw [hreg, bitsOf_mod_of_le _ (Reg.field_fits hf).2]

theorem Mod.mayStage_stageImage {k : Nat} (h : m.mayStage k = true) : m.stageImage = false := by
  rw [Mod.mayStage, Bool.and_eq_true, Bool.and_eq_true, Bool.not_eq_true'] at h
  exact h.1.1

/-- An ST field is staged where direct values may be staged. -/
theorem Mod.wrote_staged (hr : r ≠ .MESH_LG_CTRL) (hf : f ∈ r.fields) (hin : f.inside b n = true) (ht : f.ty = .st)
    (hs : m.mayStage w.master.toNat = true) :
    bitsOf ((m.wrote w r i (movedTo b n value) (byteMask b n)).stagedReg r i) f.lo f.width =
      if f.reserved r i (f.given b value) then bitsOf (m.stagedReg r i) f.lo f.width else f.given b value := by
  have htouch : r.touches (· == .st) (byteMask b n) = true := Reg.touches_of_inside hf (beq_iff_eq.2 ht) hin
  have hne : f.ty ≠ .rw ∧ f.ty ≠ .w1c := by rw [ht]; decide
  rw [Mod.wrote, Mod.writeSt_stages htouch hs hr]
  dsimp only
  rw [show (m.setStaged r i (r.take i (· == .st) (m.stagedReg r i) (movedTo b n value) (byteMask b n)).1).reg r i = m.reg r i from rfl,
    Mod.stagedReg_setStaged_setReg (Mod.mayStage_stageImage hs) hf ht ((bitsOf_mod_of_le _ (Reg.field_fits hf).2).trans
      (Reg.written_kept _ _ _ hf hne.1 hne.2)), Reg.take_inside _ _ _ _ hf hin, ht]
  cases f.reserved r i (f.given b value) <;> rfl

/-- An ST field is staged nowhere where direct values may not be staged. -/
theorem Mod.wrote_refused {v : Nat} (hf : f ∈ r.fields) (hin : f.inside b n = true) (ht : f.ty = .st)
    (hs : m.mayStage w.master.toNat = false) : (m.wrote w r i v (byteMask b n)).staged = m.staged ∧
      (m.wrote w r i v (byteMask b n)).flag F.CFG_STATUS_ST_REFUSED = true := by
  have htouch : r.touches (· == .st) (byteMask b n) = true := Reg.touches_of_inside hf (beq_iff_eq.2 ht) hin
  have hne : r ≠ .CFG_STATUS := fun e => Bool.false_ne_true ((cfgStatus_untouched (byteMask b n)).symm.trans (e ▸ htouch))
  rw [Mod.wrote, Mod.writeSt_refused htouch hs]
  refine ⟨rfl, ?_⟩
  rw [Mod.flag, Mod.rd, Mod.reg_setReg_ne _ _ fun h : F.CFG_STATUS_ST_REFUSED.reg = r ∧ _ => hne h.1.symm]
  exact Mod.flag_put_self _ _ _ _ (by decide) (by decide)

theorem Reg.refuses_none {t : FTy → Bool} (h : ∀ f ∈ r.fields, f.inside b n = true → t f.ty = false) : r.refuses i b n value t = false := by
  rw [Reg.refuses, List.any_eq_false]
  intro f hf hany
  rw [Bool.and_eq_true, Bool.and_eq_true] at hany
  rw [h f hf hany.1.1] at hany
  exact Bool.false_ne_true hany.1.2

theorem Reg.refuses_or (t t' : FTy → Bool) :
    (r.refuses i b n value t || r.refuses i b n value t') = r.refuses i b n value (fun x => t' x || t x) := by
  rw [Bool.eq_iff_iff]
  simp only [Reg.refuses, Bool.or_eq_true, List.any_eq_true, Bool.and_eq_true, ← exists_or]
  exact exists_congr fun f => by tauto

/-- Whether the ST part of a write meets a reserved encoding. -/
theorem Mod.writeSt_reserved (m : Mod) (w : Writer) (i value : Nat) (hr : r ≠ .MESH_LG_CTRL) (ha : r.Aligned b n) :
    (m.writeSt w r i (movedTo b n value) (byteMask b n)).2 = r.refuses i b n value (fun t => t == .st && m.mayStage w.master.toNat) := by
  cases ht : r.touches (· == .st) (byteMask b n) with
  | false =>
    rw [Mod.writeSt_untouched ht, Reg.refuses_none fun f hf hin => ?_]
    rw [Bool.and_eq_false_iff]
    exact .inl (Bool.eq_false_iff.2 fun hst => Bool.false_ne_true (ht.symm.trans (Reg.touches_of_inside hf hst hin)))
  | true =>
    cases hs : m.mayStage w.master.toNat with
    | false => rw [Mod.writeSt_refused ht hs, Reg.refuses_none fun f _ _ => Bool.and_false _]
    | true =>
      rw [Mod.writeSt_stages ht hs hr, Reg.take_reserved i (· == .st) _ _ ha]
      simp only [Bool.and_true]
      rfl

/-- The write in whole: what it leaves, reported where a field that takes its bits is offered a reserved encoding. -/
theorem Mod.writeReg_fields (off : Nat) (hc : r.isCounter = false) (hw : r ∉ wholeRegs) (hn : r.NoCommand)
    (hx : r = .MX_RING_BASE ∨ r = .MX_RING_SIZE → m.flag F.MX_CTRL_ENABLE i = false) (ha : r.Aligned b n) (hr : r ≠ .MESH_LG_CTRL) :
    m.writeReg w r i off (movedTo b n value) (byteMask b n) = (m.wrote w r i (movedTo b n value) (byteMask b n)).iff
      (r.refuses i b n value (fun t => t == .rw || (t == .st && m.mayStage w.master.toNat))) (fun m => m.reservedWrite off w.master.toNat) := by
  rw [Mod.writeReg_plain off hc hw hn hx ha, Mod.writeSt_reserved m w i value hr ha, Reg.refuses_or]

end

end Sys2Proof.Machine

/-!
Register writes behind gate 13, the registers that stay, what reserved bits read as, and the software event sources (R6 to R8, R21, R454).
-/
namespace Sys2Proof.Machine

/-! ### The bus -/

section
variable {m m1 : Mod} {a : RegWrite} {p : Reg → Bool} {r : Reg} {i b n : Nat}

/-- The access that a register write is to its gate. -/
def writeAcc (a : RegWrite) : Acc :=
  ⟨a.by_.master.toNat, a.by_.sys, a.epoch.toNat, a.by_.node.toNat, regBase + a.off.toNat, if a.wide then 8 else 4, .store⟩

/-- The writer as the bus presents it. -/
def busWriter (a : RegWrite) : Writer := { a.by_ with epoch := a.epoch }

theorem Mod.busWrite_other (h : ((regAt a.off.toNat).all fun x => p x.1) = false) : m.busWrite a p = m := by
  rw [Mod.busWrite, h]
  rfl

theorem Mod.busWrite_refused {k : Nat} (h : ((regAt a.off.toNat).all fun x => p x.1) = true) (hg : m.passGate (writeAcc a) = (m1, some k)) :
    m.busWrite a p = m1 := by
  rw [writeAcc] at hg
  rw [Mod.busWrite, h]
  dsimp only
  rw [if_neg (by decide), hg]

theorem Mod.busWrite_admitted (h : ((regAt a.off.toNat).all fun x => p x.1) = true) (hg : m.passGate (writeAcc a) = (m, none)) :
    m.busWrite a p = m.regStore (busWriter a) a.off.toNat (if a.wide then 8 else 4) a.value.toNat := by
  rw [writeAcc] at hg
  rw [Mod.busWrite, h]
  dsimp only
  rw [if_neg (by decide), hg]
  rfl

/-- A write of one register is one write. -/
theorem Mod.regStore_one {w : Writer} {off value : Nat} (hr : regAt off = some (r, i, b)) (hoff : m.regOff off = false)
    (h1 : n = 8 → wideReg off = true) : m.regStore w off n value = m.writeReg w r i off (movedTo b n value) (byteMask b n) := by
  rw [Mod.regStore, hoff, if_neg Bool.false_ne_true, if_neg, Mod.writePart, hr]
  · rfl
  · rintro ⟨h8, hw⟩
    rw [h1 h8] at hw
    exact Bool.false_ne_true hw

theorem Mod.regLoad_one {k off : Nat} (hr : regAt off = some (r, i, b)) (hv : r ≠ .CFG_SVIEW_DATA) (hoff : m.regOff off = false)
    (h1 : n = 8 → wideReg off = true) : ∃ x, (m.regLoad k off n).2 = bitsOf (x &&& r.readMask) (8 * b) (8 * n) := by
  rw [Mod.regLoad, hoff, if_neg Bool.false_ne_true, if_neg, Mod.readPart, hr]
  · split
    case h_1 h => exact absurd (congrArg Prod.fst (Option.some.inj h)) hv
    case h_2 h => cases h; exact ⟨_, rfl⟩
    case h_3 h => exact absurd h nofun
  · rintro ⟨h8, hw⟩
    rw [h1 h8] at hw
    exact Bool.false_ne_true hw

/-- A bit of no readable field reads 0. -/
theorem Mod.regLoad_reserved {k off x : Nat} (hr : regAt off = some (r, i, b)) (hv : r ≠ .CFG_SVIEW_DATA) (h1 : n = 8 → wideReg off = true)
    (hlo : 8 * b ≤ x) (hx : ∀ f ∈ r.fields, f.ty ≠ .wo → x < f.lo ∨ f.lo + f.width ≤ x) :
    bitAt (m.regLoad k off n).2 (x - 8 * b) = false := by
  rw [bitAt_eq_testBit]
  cases hoff : m.regOff off with
  | true => rw [Mod.regLoad, hoff, if_pos rfl]; exact Nat.zero_testBit _
  | false =>
    obtain ⟨y, hy⟩ := Mod.regLoad_one (m := m) (k := k) hr hv hoff h1
    have hmask : r.readMask.testBit x = false := by
      rw [Reg.readMask, Reg.testBit_maskOf, List.any_eq_false]
      intro f hf hin
      rw [Bool.and_eq_true, Bool.and_eq_true, bne_iff_ne, decide_eq_true_iff, decide_eq_true_iff] at hin
      obtain ⟨hwo, hge, hlt⟩ := hin
      rcases hx f hf hwo with h | h <;> omega
    rw [hy, testBit_bitsOf, Nat.testBit_and, Nat.add_sub_cancel' hlo, hmask, Bool.and_false, Bool.and_false]

/-! ### Registers of their own -/

/-- A counter is cleared. -/
theorem Mod.writeReg_counter {w : Writer} {off v mask : Nat} (hc : r.isCounter = true) : m.writeReg w r i off v mask = m.setReg r i 0 := by
  rw [Mod.writeReg, hc, if_pos rfl]

theorem Mod.writeReg_gateCtrl {w : Writer} {off v mask : Nat} : m.writeReg w .GATE_G_CTRL i off v mask = m.gateCtrl i v mask := rfl

theorem Mod.gateCtrl_locked {v mask : Nat} (h : m.flag F.GATE_G_CTRL_LOCK i = true) : m.gateCtrl i v mask = m := by
  rw [Mod.gateCtrl, h, Bool.or_true, if_pos rfl]

/-- PRIV_DEFAULT, EV_EN and LOCK as a write leaves them while LOCK is clear. -/
theorem Mod.gateCtrl_unlocked {value : Nat} (he : gateEntries i ≠ 0) (h : m.flag F.GATE_G_CTRL_LOCK i = false) :
    let t := m.gateCtrl i (movedTo 0 4 value) (byteMask 0 4)
    t.flag F.GATE_G_CTRL_PRIV_DEFAULT i = bitAt value 0 ∧ t.flag F.GATE_G_CTRL_EV_EN i = bitAt value 1 ∧
      t.flag F.GATE_G_CTRL_LOCK i = bitAt value 31 ∧ OnlyRegs [(.GATE_G_CTRL, i)] m t := by
  have hg : m.gateCtrl i (movedTo 0 4 value) (byteMask 0 4) =
      m.setReg .GATE_G_CTRL i (Reg.take .GATE_G_CTRL i (· == .rwl) (m.reg .GATE_G_CTRL i) (movedTo 0 4 value) (byteMask 0 4)).1 := by
    rw [Mod.gateCtrl, h, Bool.or_false, if_neg (by rw [decide_eq_true_iff]; exact he)]
  have hbit : ∀ f ∈ Reg.fields .GATE_G_CTRL, f.ty = .rwl → f.inside 0 4 = true → f.reserved .GATE_G_CTRL i (f.given 0 value) = false →
      bitsOf ((m.gateCtrl i (movedTo 0 4 value) (byteMask 0 4)).reg .GATE_G_CTRL i) f.lo f.width = f.given 0 value := by
    intro f hf ht hin hres
    rw [hg, Mod.reg_setReg_self, bitsOf_mod_of_le _ (Reg.field_fits hf).2, Reg.take_inside _ _ _ _ hf hin, ht, hres]
    rfl
  refine ⟨?_, ?_, ?_, ?_⟩
  · exact congrArg (· == 1) (hbit ⟨0, 1, .rwl, 1, []⟩ (by decide) rfl rfl rfl)
  · exact congrArg (· == 1) (hbit ⟨1, 1, .rwl, 1, []⟩ (by decide) rfl rfl rfl)
  · exact congrArg (· == 1) (hbit ⟨31, 1, .rwl, 0, []⟩ (by decide) rfl rfl rfl)
  · rw [hg]
    exact fun r' i' h' => Mod.reg_setReg_ne _ _ fun e => h' (List.mem_singleton.2 (Prod.ext e.1 e.2))

/-! ### The offsets of three registers -/

theorem regAt_csData (g : Fin 4) (k : Fin 8) : regAt (0x30C020 + 0x100 * g.val + 4 * k.val) = some (.CS_DATA, 8 * g.val + k.val, 0) := by
  revert g k
  decide +kernel

theorem regAt_patrolPasses : regAt 0x400020 = some (.MEM_PATROL_PASSES, 0, 0) := by decide +kernel

theorem regAt_wayPd (g : Fin 4) : regAt (0x301008 + 0x1000 * g.val) = some (.SC_RGN_WAYPD, g.val, 0) := by
  revert g
  decide +kernel

theorem regOff_below {off : Nat} (h : off < 0xD00000) : m.regOff off = false := by
  rw [Mod.regOff, mxOf, if_neg (by omega)]

end

/-! ### The software event sources -/

theorem Mod.msix_keeps (m : Mod) (v : Nat) : (m.msix v).inFlight = m.inFlight ∧ (m.msix v).sdEvents = m.sdEvents ∧ (m.msix v).regs = m.regs := by
  unfold Mod.msix
  split
  · exact ⟨rfl, rfl, rfl⟩
  · split <;> exact ⟨rfl, rfl, rfl⟩

theorem Mod.foldl_msix_keeps (vs : List Nat) (m : Mod) : (vs.foldl Mod.msix m).inFlight = m.inFlight ∧ (vs.foldl Mod.msix m).sdEvents = m.sdEvents ∧
    (vs.foldl Mod.msix m).regs = m.regs :=
  Mod.each_keeps (P := fun t : Mod => t.inFlight = m.inFlight ∧ t.sdEvents = m.sdEvents ∧ t.regs = m.regs)
    (fun t v ⟨h1, h2, h3⟩ => ⟨(t.msix_keeps v).1.trans h1, (t.msix_keeps v).2.1.trans h2, (t.msix_keeps v).2.2.trans h3⟩) vs ⟨rfl, rfl, rfl⟩

/-- What a source that the Goose does not hear leaves before it is counted, and whether it is counted. -/
theorem Mod.deliver_cases {m : Mod} {n : Nat} (hg : m.flag F.EVR_ROUTE_HI_GOOSE n = false) :
    ∃ (y : Mod) (c : Bool), m.deliver n = y.iff c (fun m => m.count F.EVR_UNROUTED_COUNT) ∧ y.regs = m.regs ∧
      y.inFlight = m.inFlight ++ (setBits 32 (m.rd F.EVR_ROUTE_LO_CORES n)).map (fun c => (c, n)) ∧
      y.sdEvents = (if m.flag F.EVR_ROUTE_HI_SD n then m.sdEvents ++ [n] else m.sdEvents) ∧
      (m.flag F.EVR_ROUTE_HI_SD n = true → c = false) ∧
      (m.flag F.EVR_ROUTE_HI_SD n = false → setBits 32 (m.rd F.EVR_ROUTE_LO_CORES n) = [] → c = true) := by
  have hgoose : (m.occur n).flag F.EVR_ROUTE_HI_GOOSE n = false := hg
  have hsd : (m.occur n).flag F.EVR_ROUTE_HI_SD n = m.flag F.EVR_ROUTE_HI_SD n := rfl
  have hcores : (m.occur n).rd F.EVR_ROUTE_LO_CORES n = m.rd F.EVR_ROUTE_LO_CORES n := rfl
  unfold Mod.deliver
  simp only [hgoose, hsd, hcores, Bool.false_and, Bool.not_false, Bool.and_true]
  refine ⟨_, _, rfl, ?_, ?_, ?_, fun h => ?_, fun h hc => ?_⟩
  · rw [(Mod.foldl_msix_keeps _ _).2.2]
    cases m.flag F.EVR_ROUTE_HI_SD n <;> rfl
  · rw [(Mod.foldl_msix_keeps _ _).1]
    cases m.flag F.EVR_ROUTE_HI_SD n <;> rfl
  · rw [(Mod.foldl_msix_keeps _ _).2.1]
    cases m.flag F.EVR_ROUTE_HI_SD n <;> rfl
  · rw [h]
    exact Bool.and_false _
  · rw [h, hc]
    rfl

/-- A source that the Goose does not hear sets out for its cores and the Sheepdog; one that goes nowhere is counted. -/
theorem Mod.deliver_shows {m : Mod} {n : Nat} (hg : m.flag F.EVR_ROUTE_HI_GOOSE n = false) :
    let cores := setBits 32 (m.rd F.EVR_ROUTE_LO_CORES n)
    let t := m.deliver n
    t.inFlight = m.inFlight ++ cores.map (fun c => (c, n)) ∧
      (m.flag F.EVR_ROUTE_HI_SD n = true → t.sdEvents = m.sdEvents ++ [n] ∧ t.regs = m.regs) ∧
      (m.flag F.EVR_ROUTE_HI_SD n = false → cores = [] → t.sdEvents = m.sdEvents ∧
        t.rd F.EVR_UNROUTED_COUNT = satAdd32 (m.rd F.EVR_UNROUTED_COUNT) 1) := by
  obtain ⟨y, c, he, hregs, hfl, hsd, hyes, hno⟩ := Mod.deliver_cases hg
  dsimp only
  rw [he]
  refine ⟨Eq.trans ?_ hfl, fun h => ?_, fun h hc => ?_⟩
  · cases c with
    | false => rfl
    | true => exact Mod.count_inFlight _ _ _ _
  · rw [hyes h, Mod.iff_false, hsd, if_pos h]
    exact ⟨rfl, hregs⟩
  · rw [hno h hc, Mod.iff_true]
    refine ⟨(Mod.count_sdEvents _ _ _ _).trans (hsd.trans (if_neg (by rw [h]; decide))), ?_⟩
    rw [Mod.rd_count_self _ _ _ _ (by decide) (by decide), Mod.rd_of_regs hregs]

/-- A source of no region that the Goose does not hear is delivered. -/
theorem Mod.raise_quiet {m : Mod} {n : Nat} (hr : sourceRegion n = none) (hg : m.flag F.EVR_ROUTE_HI_GOOSE n = false) : m.raise n = m.deliver n := by
  have hg' : (m.deliver n).flag F.EVR_ROUTE_HI_GOOSE n = false := ((m.told_deliver n).regs.flag_of_reg _ (by decide)).trans hg
  rw [Mod.raise, hr, if_neg Bool.false_ne_true]
  dsimp only
  rw [hg', Bool.false_and, Bool.false_and, Mod.iff_false]

theorem setBits_evrSw (j : Fin 4) : setBits 4 (1#4 <<< j.val).toNat = [j.val] := by revert j; decide

theorem sourceRegion_evrSw (j : Fin 4) : sourceRegion (252 + j.val) = none := by revert j; decide

/-- The software sources belong to no region: one raised is delivered. -/
theorem Mod.evrSw_one (m : Mod) (j : Fin 4) (hg : m.flag F.EVR_ROUTE_HI_GOOSE (252 + j.val) = false) :
    m.evrSw (1#4 <<< j.val).toNat = m.deliver (252 + j.val) := by
  rw [Mod.evrSw, setBits_evrSw, Mod.each, List.foldl_cons, List.foldl_nil, Mod.raise_quiet (sourceRegion_evrSw j) hg]

end Sys2Proof.Machine

/-!
What each register write behind gate 13 leaves (R6 to R9, R104, R380, R454).
-/
namespace Sys2Proof.Machine

section
variable {m m1 : Mod} {a : RegWrite} {r : Reg} {i b n : Nat}

/-- The registers but those a generic write is stated of. -/
theorem not_laneCtrl (h : r.NoCommand) : r ≠ .MESH_LG_CTRL := by
  rintro rfl
  exact not_noCommand rfl h

theorem all_regAt {off : Nat} {p : Reg → Bool} (hr : regAt off = some (r, i, b)) (hp : p r = true) : ((regAt off).all fun x => p x.1) = true := by
  rw [hr]
  exact hp

/-- An admitted 4-byte write of a register. -/
theorem Mod.busWrite_four {p : Reg → Bool} (hg : m.passGate (writeAcc a) = (m, none)) (hn : a.wide = false) (hr : regAt a.off.toNat = some (r, i, b))
    (hp : p r = true) (hoff : m.regOff a.off.toNat = false) :
    m.busWrite a p = m.writeReg (busWriter a) r i a.off.toNat (movedTo b 4 a.value.toNat) (byteMask b 4) := by
  rw [Mod.busWrite_admitted (all_regAt hr hp) hg, hn]
  exact Mod.regStore_one hr hoff nofun

/-! ### A register without fields that a write takes in place -/

theorem Reg.take_none {t : FTy → Bool} (i old v mask : Nat) (h : (r.fields.all fun f => !t f.ty) = true) : (r.take i t old v mask).1 = old := by
  rw [Reg.take_eq]
  rw [List.all_eq_true] at h
  generalize (old &&& ((2 ^ 64 - 1) ^^^ mask)) ||| (v &&& mask) = x
  suffices hs : ∀ (l : List Field) (a : Nat × Bool), (∀ f ∈ l, (!t f.ty) = true) → (l.foldl (takeField r i t x mask) a).1 = a.1 from hs _ _ h
  intro l
  induction l with
  | nil => exact fun _ _ => rfl
  | cons f l ih =>
    intro a hl
    rw [List.foldl_cons, ih _ fun g hg => hl g (List.mem_cons_of_mem _ hg), takeField_fst, Field.chosen,
      (Bool.not_eq_true' _).mp (hl f List.mem_cons_self), Bool.false_and, Bool.false_and, if_neg Bool.false_ne_true]

theorem Reg.written_none (i v mask : Nat) {old : Nat} (ho : old < 2 ^ 64) (h : (r.fields.all fun f => !(f.ty == .rw)) = true)
    (h1 : r.maskOf (· == .w1c) = 0) : r.written i old v mask = old := by
  rw [Reg.written, Reg.take_none i old v mask h, Reg.onesOf, h1, Nat.zero_and, Nat.zero_and, Nat.xor_zero, Nat.and_two_pow_sub_one_eq_mod,
    Nat.mod_eq_of_lt ho]

/-- A register of ST fields alone stays as it is in effect. -/
theorem Mod.wrote_stOnly (m : Mod) (w : Writer) (v mask : Nat) (hr : r ≠ .MESH_LG_CTRL) (h : (r.fields.all fun f => !(f.ty == .rw)) = true)
    (h1 : r.maskOf (· == .w1c) = 0) : OnlyRegs [(.CFG_STATUS, 0)] m (m.wrote w r i v mask) ∧
      (m.mayStage w.master.toNat = true → OnlyRegs [] m (m.wrote w r i v mask)) := by
  obtain ⟨hregs, hreg, -, -⟩ := m.writeSt_keeps (r := r) (i := i) w v mask hr
  have hsame : ∀ r' i', (m.wrote w r i v mask).reg r' i' = (m.writeSt w r i v mask).1.reg r' i' := by
    intro r' i'
    by_cases he : r' = r ∧ i' = i
    · obtain ⟨rfl, rfl⟩ := he
      rw [Mod.wrote, Mod.reg_setReg_self, Reg.written_none _ _ _ (Mod.reg_lt _ _ _) h h1, Nat.mod_eq_of_lt (Mod.reg_lt _ _ _)]
    · rw [Mod.wrote, Mod.reg_setReg_ne _ _ he]
  refine ⟨fun r' i' hi => (hsame r' i').trans (hregs r' i' hi), fun hs r' i' _ => (hsame r' i').trans ?_⟩
  cases ht : r.touches (· == .st) mask with
  | false => rw [Mod.writeSt_untouched ht]
  | true => rw [Mod.writeSt_stages ht hs hr]; rfl

/-! ### Three registers -/

/-- A register without reserved encodings refuses none. -/
theorem Reg.refuses_plain (i b n value : Nat) (t : FTy → Bool) (h : (r.fields.all fun f => f.resv.isEmpty) = true) (hl : r ≠ .MESH_LG_CTRL)
    (hp : r ≠ .PORT_MODE) : r.refuses i b n value t = false := by
  rw [List.all_eq_true] at h
  rw [Reg.refuses, List.any_eq_false]
  intro f hf
  rw [Field.reserved, List.isEmpty_iff.1 (h f hf), resvHere, beq_eq_false_iff_ne.2 hl, beq_eq_false_iff_ne.2 hp]
  simp

theorem csData_noCommand : Reg.NoCommand .CS_DATA := by unfold Reg.NoCommand; decide

theorem wayPd_noCommand : Reg.NoCommand .SC_RGN_WAYPD := by unfold Reg.NoCommand; decide

theorem csData_aligned : Reg.Aligned .CS_DATA 0 4 := fun f hf => .inl (by revert f; decide)

theorem wayPd_aligned : Reg.Aligned .SC_RGN_WAYPD 0 4 := fun f hf => .inl (by revert f; decide)

theorem Mod.writeReg_csData (w : Writer) (off value : Nat) : let t := m.writeReg w .CS_DATA i off (movedTo 0 4 value) (byteMask 0 4)
    t.rd F.CS_DATA_DATA i = value % 2 ^ 32 ∧ OnlyRegs [(.CS_DATA, i)] m t := by
  have ht : Reg.touches .CS_DATA (· == .st) (byteMask 0 4) = false := by decide
  have hf : (⟨0, 32, .rw, 0, []⟩ : Field) ∈ Reg.fields .CS_DATA := by decide
  rw [Mod.writeReg_fields off (by decide) (by decide) csData_noCommand (fun h => absurd h (by decide)) csData_aligned (by decide),
    Reg.refuses_plain _ _ _ _ _ (by decide) (by decide) (by decide), Mod.iff_false]
  refine ⟨(Mod.wrote_field m w _ _ (by decide) hf).trans ((Reg.written_rw _ value hf rfl rfl).trans ?_), fun r' i' h => ?_⟩
  · rfl
  · rw [Mod.wrote, Mod.writeSt_untouched ht]
    exact Mod.reg_setReg_ne _ _ fun e => h (List.mem_singleton.2 (Prod.ext e.1 e.2))

/-- The ways to power down, staged or refused. -/
theorem Mod.writeReg_wayPd (w : Writer) (off value : Nat) : let t := m.writeReg w .SC_RGN_WAYPD i off (movedTo 0 4 value) (byteMask 0 4)
    (m.mayStage w.master.toNat = true → t.staged' F.SC_RGN_WAYPD_MASK i = value % 2 ^ 16 ∧ OnlyRegs [] m t) ∧
      (m.mayStage w.master.toNat = false → t.flag F.CFG_STATUS_ST_REFUSED = true ∧ t.staged = m.staged ∧ OnlyRegs [(.CFG_STATUS, 0)] m t) := by
  have hf : (⟨0, 16, .st, 0, []⟩ : Field) ∈ Reg.fields .SC_RGN_WAYPD := by decide
  obtain ⟨hregs, hstaged⟩ := m.wrote_stOnly (r := .SC_RGN_WAYPD) (i := i) w (movedTo 0 4 value) (byteMask 0 4) (by decide) (by decide) (by decide)
  rw [Mod.writeReg_fields off (by decide) (by decide) wayPd_noCommand (fun h => absurd h (by decide)) wayPd_aligned (by decide),
    Reg.refuses_plain _ _ _ _ _ (by decide) (by decide) (by decide), Mod.iff_false]
  refine ⟨fun hs => ⟨(Mod.wrote_staged (by decide) hf rfl rfl hs).trans ?_, hstaged hs⟩, fun hs => ?_⟩
  · rfl
  · obtain ⟨hst, hflag⟩ := Mod.wrote_refused (m := m) (w := w) (i := i) (v := movedTo 0 4 value) hf (b := 0) (n := 4) rfl rfl hs
    exact ⟨hflag, hst, hregs⟩

end

end Sys2Proof.Machine

/-!
Register writes behind gate 13 as a whole (R6 to R9, R104, R380, R454).
-/
namespace Sys2Proof.Machine

section
variable {s : State} {a : RegWrite} {m1 : Mod} {r : Reg} {i b n : Nat}

theorem does_registerWrite {P : Mod → Prop} (h : P (s.mod.busWrite a fun _ => true)) : Does (.registerWrite a) s P := does_next rfl h

theorem does_counterClear {P : Mod → Prop} (h : P (s.mod.busWrite a Reg.isCounter)) : Does (.counterClear a) s P := does_next rfl h

theorem does_stFieldWrite {P : Mod → Prop} (h : P (s.mod.busWrite a fun r => r.stMask != 0)) : Does (.stFieldWrite a) s P := does_next rfl h

theorem all_any (off : Nat) : ((regAt off).all fun x => (fun _ : Reg => true) x.1) = true := by
  cases regAt off <;> rfl

/-- Field `f` of a register from `m` to `u` by a write of `value` at `n` bytes from byte `b`, by a master. -/
def Mod.FieldWritten (m u : Mod) (master : Nat) (r : Reg) (i b n value : Nat) (f : Field) : Prop :=
  (f.inside b n = false ∨ f.ty = .ro ∨ f.ty = .st → bitsOf (u.reg r i) f.lo f.width = bitsOf (m.reg r i) f.lo f.width) ∧
  (f.inside b n = true →
    (f.ty = .rw → bitsOf (u.reg r i) f.lo f.width = if f.reserved r i (f.given b value) then bitsOf (m.reg r i) f.lo f.width else f.given b value) ∧
    (f.ty = .w1c → bitsOf (u.reg r i) f.lo f.width = bitsOf (m.reg r i) f.lo f.width &&& (2 ^ f.width - 1 - f.given b value)) ∧
    (f.ty = .st → m.mayStage master = true → bitsOf (u.stagedReg r i) f.lo f.width =
      if f.reserved r i (f.given b value) then bitsOf (m.stagedReg r i) f.lo f.width else f.given b value) ∧
    (f.ty = .st → m.mayStage master = false → u.staged = m.staged ∧ u.flag F.CFG_STATUS_ST_REFUSED = true))

/-- What a generic write leaves of one field. -/
theorem Mod.wrote_shows {m : Mod} {w : Writer} {f : Field} (value : Nat) (hl : r ≠ .MESH_LG_CTRL) (hf : f ∈ r.fields)
    (ha : f.inside b n = true ∨ f.Outside b n) :
    Mod.FieldWritten m (m.wrote w r i (movedTo b n value) (byteMask b n)) w.master.toNat r i b n value f := by
  have hnow := m.wrote_field (i := i) w (movedTo b n value) (byteMask b n) hl hf
  refine ⟨fun h => hnow.trans ?_, fun hin => ⟨fun ht => hnow.trans (Reg.written_rw _ _ hf hin ht), fun ht => hnow.trans (Reg.written_w1c _ _ hf hin ht),
    fun ht hs => Mod.wrote_staged hl hf hin ht hs, fun ht hs => Mod.wrote_refused hf hin ht hs⟩⟩
  rcases h with h | h | h
  · exact Reg.written_outside _ _ hf (ha.resolve_left fun hin => Bool.false_ne_true (h.symm.trans hin))
  · exact Reg.written_kept _ _ _ hf (by rw [h]; decide) (by rw [h]; decide)
  · exact Reg.written_kept _ _ _ hf (by rw [h]; decide) (by rw [h]; decide)

end

/-- What gate 13 refuses, and the registers that are no counters or have no ST fields. -/
theorem busWrites_other {s : State} {a : RegWrite} {m1 : Mod} {k : Nat} (hg : s.mod.passGate (writeAcc a) = (m1, some k)) :
    (Does (.registerWrite a) s fun t => t = m1) ∧
      (∀ x, regAt a.off.toNat = some x → x.1.isCounter = true → Does (.counterClear a) s fun t => t = m1) ∧
      (∀ x, regAt a.off.toNat = some x → x.1.stMask ≠ 0 → Does (.stFieldWrite a) s fun t => t = m1) := by
  refine ⟨does_registerWrite (Mod.busWrite_refused (all_any _) hg), fun x hx hc => ?_, fun x hx hst => ?_⟩
  · exact does_counterClear (Mod.busWrite_refused (all_regAt (r := x.1) (i := x.2.1) (b := x.2.2) hx hc) hg)
  · exact does_stFieldWrite (Mod.busWrite_refused
      (all_regAt (r := x.1) (i := x.2.1) (b := x.2.2) hx (p := fun r => r.stMask != 0) (bne_iff_ne.2 hst)) hg)

/-- The three registers whose offsets the statement names. -/
theorem busWrites_named {s : State} {a : RegWrite} (g : RegionId) (n : Fin 8) (hg : s.mod.passGate (writeAcc a) = (s.mod, none)) (hn : a.wide = false) :
    (a.off.toNat = 0x30C020 + 0x100 * g.val + 4 * n.val → Does (.registerWrite a) s fun t =>
      t.rd F.CS_DATA_DATA (8 * g.val + n.val) = a.value.toNat % 2 ^ 32 ∧ OnlyRegs [(.CS_DATA, 8 * g.val + n.val)] s.mod t) ∧
    (a.off.toNat = 0x400020 → Does (.counterClear a) s fun t => t = s.mod.setReg .MEM_PATROL_PASSES 0 0) ∧
    (a.off.toNat = 0x301008 + 0x1000 * g.val →
      (s.mod.mayStage a.by_.master.toNat = true → Does (.stFieldWrite a) s fun t => t.staged' F.SC_RGN_WAYPD_MASK g = a.value.toNat % 2 ^ 16 ∧
        OnlyRegs [] s.mod t) ∧
      (s.mod.mayStage a.by_.master.toNat = false → Does (.stFieldWrite a) s fun t => t.flag F.CFG_STATUS_ST_REFUSED = true ∧ t.staged = s.mod.staged ∧
        OnlyRegs [(.CFG_STATUS, 0)] s.mod t)) := by
  refine ⟨fun ho => does_registerWrite ?_, fun ho => does_counterClear ?_, fun ho => ?_⟩
  · rw [Mod.busWrite_four hg hn (ho ▸ regAt_csData g n) rfl (regOff_below (by omega))]
    exact Mod.writeReg_csData _ _ _
  · rw [Mod.busWrite_four hg hn (ho ▸ regAt_patrolPasses) (by decide) (regOff_below (by omega))]
    exact Mod.writeReg_counter (by decide)
  · have hb : s.mod.busWrite a (fun r => r.stMask != 0) = _ :=
      Mod.busWrite_four hg hn (ho ▸ regAt_wayPd g) (by decide) (regOff_below (by omega))
    obtain ⟨hstage, hrefuse⟩ := Mod.writeReg_wayPd (m := s.mod) (i := g.val) (busWriter a) a.off.toNat a.value.toNat
    exact ⟨fun hs => does_stFieldWrite (hb ▸ hstage hs), fun hs => does_stFieldWrite (hb ▸ hrefuse hs)⟩

/-- The control register of a gate. -/
theorem busWrites_gateCtrl {s : State} {a : RegWrite} {i : Nat} (hg : s.mod.passGate (writeAcc a) = (s.mod, none)) (hn : a.wide = false)
    (hr : regAt a.off.toNat = some (.GATE_G_CTRL, i, 0)) (hoff : s.mod.regOff a.off.toNat = false) (he : gateEntries i ≠ 0) :
    (s.mod.flag F.GATE_G_CTRL_LOCK i = true → Does (.registerWrite a) s fun t => t = s.mod) ∧
    (s.mod.flag F.GATE_G_CTRL_LOCK i = false → Does (.registerWrite a) s fun t => t.flag F.GATE_G_CTRL_PRIV_DEFAULT i = bitAt a.value.toNat 0 ∧
      t.flag F.GATE_G_CTRL_EV_EN i = bitAt a.value.toNat 1 ∧ t.flag F.GATE_G_CTRL_LOCK i = bitAt a.value.toNat 31 ∧ OnlyRegs [(.GATE_G_CTRL, i)] s.mod t) := by
  have hb : s.mod.busWrite a (fun _ => true) = s.mod.gateCtrl i (movedTo 0 4 a.value.toNat) (byteMask 0 4) :=
    (Mod.busWrite_four hg hn hr rfl hoff).trans Mod.writeReg_gateCtrl
  refine ⟨fun hl => does_registerWrite ?_, fun hl => does_registerWrite ?_⟩
  · rw [hb, Mod.gateCtrl_locked hl]
  · rw [hb]
    exact Mod.gateCtrl_unlocked he hl

/-- A register without an operation of its own, field by field. -/
theorem busWrites_fields {s : State} {a : RegWrite} {r : Reg} {i b : Nat} (hg : s.mod.passGate (writeAcc a) = (s.mod, none))
    (hr : regAt a.off.toNat = some (r, i, b)) (hoff : s.mod.regOff a.off.toNat = false) (h1 : (if a.wide then 8 else 4) = 8 → wideReg a.off.toNat = true)
    (hc : r.isCounter = false) (hw : r ∉ wholeRegs) (hx : r = .MX_RING_BASE ∨ r = .MX_RING_SIZE → s.mod.flag F.MX_CTRL_ENABLE i = false)
    (hn : r.NoCommand) (ha : r.Aligned b (if a.wide then 8 else 4)) :
    Does (.registerWrite a) s fun t => ∃ u,
      t = (if r.refuses i b (if a.wide then 8 else 4) a.value.toNat (fun x => x == .rw || (x == .st && s.mod.mayStage a.by_.master.toNat)) then
        u.reservedWrite a.off.toNat a.by_.master.toNat else u) ∧
      OnlyRegs [(r, i), (.CFG_STATUS, 0)] s.mod u ∧ u.mem = s.mod.mem ∧ u.cores = s.mod.cores ∧
      ∀ f ∈ r.fields, Mod.FieldWritten s.mod u a.by_.master.toNat r i b (if a.wide then 8 else 4) a.value.toNat f := by
  have hl := not_laneCtrl hn
  refine does_registerWrite ⟨s.mod.wrote (busWriter a) r i (movedTo b (if a.wide then 8 else 4) a.value.toNat) (byteMask b (if a.wide then 8 else 4)), ?_, ?_⟩
  · rw [Mod.busWrite_admitted (all_any _) hg, Mod.regStore_one hr hoff h1, Mod.writeReg_fields _ hc hw hn hx ha hl, Mod.iff]
    rfl
  · obtain ⟨hregs, -, hmem, hcores⟩ := s.mod.wrote_keeps (r := r) (i := i) (busWriter a)
      (movedTo b (if a.wide then 8 else 4) a.value.toNat) (byteMask b (if a.wide then 8 else 4)) hl
    exact ⟨hregs, hmem, hcores, fun f hf => Mod.wrote_shows _ hl hf (ha f hf)⟩

theorem wide_of_one {a : RegWrite} (h : a.wide = false ∨ wideReg a.off.toNat = true) :
    (if a.wide then 8 else 4) = 8 → wideReg a.off.toNat = true := by
  rcases h with h | h
  · rw [h]
    exact nofun
  · exact fun _ => h

/-- EVR_SW of one bit, not routed to the Goose. -/
theorem evrSw_shows {s : State} (w : Writer) (j : Fin 4) (hg : s.mod.flag F.EVR_ROUTE_HI_GOOSE (252 + j.val) = false) :
    Does (.evrSw w (1#4 <<< j.val)) s fun t =>
      t.inFlight = s.mod.inFlight ++ (setBits 32 (s.mod.rd F.EVR_ROUTE_LO_CORES (252 + j.val))).map (fun c => (c, 252 + j.val)) ∧
      OnlyRegs [(.EVR_UNROUTED, 0)] s.mod t ∧ t.mem = s.mod.mem ∧ t.cores = s.mod.cores ∧
      (s.mod.flag F.EVR_ROUTE_HI_SD (252 + j.val) = true → t.sdEvents = s.mod.sdEvents ++ [252 + j.val] ∧ t.regs = s.mod.regs) ∧
      (s.mod.flag F.EVR_ROUTE_HI_SD (252 + j.val) = false → setBits 32 (s.mod.rd F.EVR_ROUTE_LO_CORES (252 + j.val)) = [] →
        t.sdEvents = s.mod.sdEvents ∧ t.rd F.EVR_UNROUTED_COUNT = satAdd32 (s.mod.rd F.EVR_UNROUTED_COUNT) 1) := by
  refine does_next (m := s.mod.evrSw (1#4 <<< j.val).toNat) rfl ?_
  rw [Mod.evrSw_one _ _ hg]
  obtain ⟨hfl, hsd, hno⟩ := Mod.deliver_shows hg
  have ht := s.mod.told_deliver (252 + j.val)
  exact ⟨hfl, ht.regs, ht.mem_eq, ht.cores_eq, hsd, hno⟩

/-- Settles O46: a write passes its gate or leaves what the refusal leaves; a register of no operation of its own takes it field by field. -/
theorem registerWritesPassTheGate : Obligations.RegisterWritesPassTheGate := by
  unfold Obligations.RegisterWritesPassTheGate
  intro s a w m1 k g n j r i b m off size acc one stages inside given bad whole src cores
  have hacc : acc = m.passGate (writeAcc a) := rfl
  refine ⟨fun hg => busWrites_other (hacc.symm.trans hg), fun hg hn => busWrites_named g n (hacc.symm.trans hg) hn, fun hg hr hoff h1 hc hw hx hf => ?_,
    fun hg hr hoff hn he => busWrites_gateCtrl (hacc.symm.trans hg) hn hr hoff he, fun hr h1 hv x hlo hhi hf => ?_, fun hr hc => ?_,
    fun hr hst => ?_, fun hgoose => ?_, ?_⟩
  · exact busWrites_fields (hacc.symm.trans hg) hr hoff (wide_of_one h1) hc hw hx (fun f hf' => (hf f hf').1) (fun f hf' => (hf f hf').2)
  · exact Mod.regLoad_reserved hr hv (wide_of_one h1) hlo hf
  · exact does_counterClear (Mod.busWrite_other (by rw [hr]; exact hc))
  · exact does_stFieldWrite (Mod.busWrite_other (by rw [hr, Option.all_some, hst]; rfl))
  · exact evrSw_shows w j hgoose
  · exact does_next rfl rfl

end Sys2Proof.Machine

/-!
What the end of a mesh link and the isolation of a port die may change: reports, the mesh, the ports, the twin's state, answers to hosts, and their
registers. All else of the module stays.
-/
namespace Sys2Proof.Machine

namespace Mod

/-- A module without reports, answers, the mesh, the twin's state and the ports. -/
def unplugged (m : Mod) : Mod :=
  { m.untold with mem := [], long := [], host := { m.host with pba := [], windows := [] }, links := [], wire := [], req := [], fed := {}, twin := {},
                  ports := [], dies := [], captured := [], tdrBuf := [], htxDone := [], freeCtr := 0 }

/-- The registers that a link's end and a die's isolation may change. -/
def plugRegs : List Reg :=
  answerRegs ++ fedRegs ++ ([.MESH_LINK_STATUS, .MESH_LG_STATUS, .TB_STATUS, .TWIN_STATUS, .MESH_MEMBER, .MESH_STATUS, .PORT_STATUS, .PORT_OUT,
    .PORT_FAULT, .PORT_COUNT_LO, .PORT_COUNT_HI, .PORT_LINK_ERR, .PORT_TDR_RESULT, .SPL_RGN_HTX_CONS, .FLT_Q_STATUS, .FLT_Q_LOST, .SPL_BLK_STATUS,
    .PBLK_CARRIER] : List Reg)

/-- From `m` to `t` links ended, dies were isolated, answers and reports were made. -/
abbrev Plugged (m t : Mod) : Prop := Frame unplugged plugRegs m t

variable {m n t : Mod}

theorem Told.plugged {l : List (Reg × Nat)} (h : m.Told l t) (hl : ∀ e ∈ l, e.1 ∈ plugRegs) : m.Plugged t := h.frame (fun _ => rfl) hl

theorem plugged_of_answered (h : m.Answered t) : m.Plugged t := h.coarser (fun _ => rfl) (by decide)

theorem plugged_of_tree (h : m.TreeKept t) : m.Plugged t := h.frame.coarser (fun _ => rfl) (by decide)

theorem plugged_of_rest (h : t.unplugged = m.unplugged) (hr : t.regs = m.regs) : m.Plugged t := .of_regs h hr

theorem plugged_setReg (m : Mod) (r : Reg) (i v : Nat) (h : r ∈ plugRegs) : m.Plugged (m.setReg r i v) :=
  ⟨rfl, fun _ _ hr => reg_setReg_ne m v fun e => hr (e.1 ▸ h)⟩

theorem plugged_wr (m : Mod) (f : Fld) (i v : Nat) (h : f.reg ∈ plugRegs) : m.Plugged (m.wr f i v) := m.plugged_setReg _ _ _ h
theorem plugged_put (m : Mod) (f : Fld) (i : Nat) (b : Bool) (h : f.reg ∈ plugRegs) : m.Plugged (m.put f i b) := m.plugged_wr f i _ h
theorem plugged_raise (m : Mod) (k : Nat) : m.Plugged (m.raise k) := (m.told_raise k).plugged (by decide)
theorem plugged_emit (m : Mod) (o : Out) : m.Plugged (m.emit o) := plugged_of_rest rfl rfl
theorem plugged_fed (m : Mod) (x : Fed) : m.Plugged { m with fed := x } := plugged_of_rest rfl rfl
theorem plugged_twin (m : Mod) (x : Twin) : m.Plugged { m with twin := x } := plugged_of_rest rfl rfl
theorem plugged_req (m : Mod) (x : List MeshReq) : m.Plugged { m with req := x } := plugged_of_rest rfl rfl
theorem plugged_setNum (m : Mod) (a k v : Nat) : m.Plugged (m.setNum a k v) := plugged_of_answered (m.answered_setBytes _ _)
theorem plugged_htxDone (m : Mod) (x : Tbl (List Nat)) : m.Plugged { m with htxDone := x } := plugged_of_rest rfl rfl
theorem plugged_setLink (m : Mod) (l : Nat) (k : Link) : m.Plugged (m.setLink l k) := plugged_of_rest rfl rfl
theorem plugged_setPort (m : Mod) (p : Nat) (q : Port) : m.Plugged (m.setPort p q) := plugged_of_rest rfl rfl
theorem plugged_finishLong (m : Mod) (op : Nat) (a : Answer) : m.Plugged (m.finishLong op a) := plugged_of_answered (m.answered_finishLong op a)

theorem plugged_of_unsent (h : t.unsent = m.unsent) : m.Plugged t := by
  have hrest : ∀ x : Mod, x.unsent.unplugged = x.unplugged := fun _ => rfl
  exact plugged_of_rest (by rw [← hrest t, h, hrest]) (regs_of_unsent h)

theorem plugged_sendParcels (m : Mod) (l : Nat) (origin : Option Nat) (ps : List Parcel) : m.Plugged (m.sendParcels l origin ps) :=
  plugged_of_unsent (m.unsent_sendParcels l origin ps)

theorem plugged_memberUp (m : Mod) (x : MemberMsg) : m.Plugged (m.memberUp x) := plugged_of_tree (m.treeKept_memberUp x)
theorem plugged_memberDown (m : Mod) (x : MemberMsg) : m.Plugged (m.memberDown x) := plugged_of_tree (m.treeKept_memberDown x)

/-! ### The end of a link -/

theorem plugged_setMembers (m : Mod) (l : List (Nat × Bool)) : m.Plugged (m.setMembers l) := by
  unfold setMembers
  dsimp only
  have h : ∀ (x : Mod) (a : Fed) (w : List (Nat × Bool)) (c : Nat) (b : Bool), x.Plugged
      (((({ x with fed := a } : Mod).each (upTo 128) (fun m n => m.wr F.MESH_MEMBER_MEMBER n (memberWord w n))).wr F.MESH_STATUS_MEMBERS 0 c).put
        F.MESH_STATUS_V1_PRESENT 0 b) := fun x a w c b =>
    (((x.plugged_fed a).trans (.each (fun y k => y.plugged_wr _ _ _ (by decide)) _ _)).trans (plugged_wr _ _ _ _ (by decide))).trans
      (plugged_put _ _ _ _ (by decide))
  split
  · exact h _ _ _ _ _
  · exact ((h _ _ _ _ _).trans (plugged_raise _ 171)).trans (plugged_of_tree (treeKept_gopAbandon _))

theorem plugged_flood (m : Mod) : m.Plugged m.flood := (m.plugged_setMembers _).trans (plugged_memberDown _ _)

theorem plugged_memberClaim (m : Mod) : m.Plugged m.memberClaim := by
  unfold memberClaim
  split
  · exact .refl _ _ m
  · split
    · exact m.plugged_flood
    · exact m.plugged_memberUp _

theorem plugged_reparent (m : Mod) : m.Plugged m.reparent := by
  unfold reparent
  split
  · exact .refl _ _ m
  · split
    · exact .iff _ ((m.plugged_put _ _ _ (by decide)).trans (plugged_wr _ _ _ _ (by decide)))
    · dsimp only
      refine .trans (((m.plugged_put _ _ _ (by decide)).trans (plugged_wr _ _ _ _ (by decide))).trans (plugged_wr _ _ _ _ (by decide))) (.iff _ ?_)
      exact (((plugged_setLink _ _ _).trans (plugged_memberClaim _)).trans (plugged_of_tree (treeKept_subtreeClaim _))).trans
        (plugged_of_tree (treeKept_barAgain _))

theorem plugged_childGone (m : Mod) (l : Nat) : m.Plugged (m.childGone l) := by
  unfold childGone
  dsimp only
  split
  · exact m.plugged_fed _
  · split
    · exact (m.plugged_fed _).trans (plugged_flood _)
    · exact (m.plugged_fed _).trans (plugged_memberUp _ _)

theorem plugged_castleRefuse (m : Mod) (k : Nat) : m.Plugged (m.castleRefuse k) :=
  ((m.plugged_put _ _ _ (by decide)).trans (plugged_wr _ _ _ _ (by decide))).trans (plugged_raise _ _)

theorem plugged_proposalLost (m : Mod) (k : Nat) : m.Plugged (m.proposalLost k) := by
  unfold proposalLost
  split
  · exact .refl _ _ m
  · exact ((m.plugged_twin _).trans (plugged_castleRefuse _ _)).trans (plugged_finishLong _ _ _)

theorem plugged_twinLinkDown (m : Mod) : m.Plugged m.twinLinkDown := by
  unfold twinLinkDown
  dsimp only
  exact (((((m.plugged_put _ _ _ (by decide)).trans (plugged_put _ _ _ _ (by decide))).trans (plugged_wr _ _ _ _ (by decide))).trans
    (plugged_twin _ _)).trans (.iff _ (plugged_raise _ _))).trans (plugged_proposalLost _ _)

theorem plugged_lanesDark (m : Mod) (k mask : Nat) : m.Plugged (m.lanesDark k mask) := by
  unfold lanesDark
  dsimp only
  split
  · exact .refl _ _ m
  · exact (m.plugged_wr _ _ _ (by decide)).trans (plugged_wr _ _ _ _ (by decide))

theorem plugged_linkDrop (m : Mod) (l : Nat) : m.Plugged (m.linkDrop l) := by
  unfold linkDrop
  dsimp only
  refine .trans (.trans (.trans (.trans ?_ (plugged_lanesDark _ _ _)) (plugged_reparent _)) (.iff _ (plugged_twinLinkDown _))) (.iff _ (plugged_childGone _ _))
  exact (((m.plugged_setLink _ _).trans (plugged_req _ _)).trans (plugged_put _ _ _ _ (by decide))).trans (plugged_wr _ _ _ _ (by decide))

theorem plugged_setLinkState (m : Mod) (l v : Nat) : m.Plugged (m.setLinkState l v) := by
  unfold setLinkState
  split
  · exact .refl _ _ m
  · exact (m.plugged_wr _ _ _ (by decide)).trans (plugged_raise _ _)

theorem plugged_linkStart (m : Mod) (l : Nat) : m.Plugged (m.linkStart l) := (m.plugged_linkDrop l).trans (plugged_setLinkState _ _ _)

theorem plugged_ethDown (m : Mod) (k : Nat) : m.Plugged (m.ethDown k) := by
  unfold ethDown
  split
  · exact (((m.plugged_put _ _ _ (by decide)).trans (plugged_wr _ _ _ _ (by decide))).trans (plugged_wr _ _ _ _ (by decide))).trans (plugged_raise _ _)
  · exact .refl _ _ m

theorem plugged_lgStart (m : Mod) (k : Nat) : m.Plugged (m.lgStart k) :=
  (((Frame.iff _ (m.plugged_ethDown k)).trans (plugged_lanesDark _ _ _)).trans (plugged_linkStart _ _)).trans (plugged_linkStart _ _)

/-! ### Isolation -/

theorem plugged_portFault (m : Mod) (p bit : Nat) : m.Plugged (m.portFault p bit) := by
  unfold portFault
  exact (m.plugged_setReg .PORT_FAULT p _ (by decide)).trans (.iff _ (plugged_raise _ _))

theorem plugged_setMismatch (m : Mod) (p : Nat) (r : Option Nat) : m.Plugged (m.setMismatch p r) := by
  cases r with
  | none => exact m.plugged_put F.PORT_STATUS_MISMATCH p false (by decide)
  | some k =>
    unfold setMismatch
    exact ((m.plugged_put F.PORT_STATUS_MISMATCH p true (by decide)).trans (plugged_wr _ F.PORT_STATUS_MISREASON p k (by decide))).trans
      (.iff _ (plugged_portFault _ _ _))

theorem plugged_tdrAbort (m : Mod) (p : Nat) : m.Plugged (m.tdrAbort p) := by
  unfold tdrAbort
  split
  · exact .refl _ _ m
  · refine .trans (.trans (.trans (.trans ?_ (plugged_put _ _ _ _ (by decide))) (plugged_put _ _ _ _ (by decide))) (plugged_put _ _ _ _ (by decide)))
      (plugged_of_answered (answered_tdrAnswer _ _ _))
    exact plugged_of_rest rfl rfl

theorem plugged_htxFinish (m : Mod) (g i k : Nat) : m.Plugged (m.htxFinish g i k) := by
  unfold htxFinish
  dsimp only
  exact ((m.plugged_setNum _ _ _).trans (plugged_wr _ F.SPL_RGN_HTX_CONS_INDEX g _ (by decide))).trans (plugged_htxDone _ _)

theorem plugged_hartAbort (m : Mod) (p : Nat) : m.Plugged (m.hartAbort p) := by
  unfold hartAbort
  split
  · exact .refl _ _ m
  · exact (m.plugged_setPort _ _).trans (plugged_htxFinish _ _ _ _)

theorem plugged_drive (m : Mod) (p code : Nat) : m.Plugged (m.drive p code) := (m.plugged_wr _ _ _ (by decide)).trans (plugged_setPort _ _ _)

theorem plugged_applySafe (m : Mod) (p : Nat) : m.Plugged (m.applySafe p) := by
  unfold applySafe
  split
  · exact m.plugged_setPort _ _
  · split
    · exact m.plugged_drive _ _
    · exact m.plugged_drive _ _
    · exact m.plugged_setPort _ _

theorem plugged_overtake (m : Mod) (p : Nat) : m.Plugged (m.overtake p) := by
  unfold overtake
  split
  · split
    · exact .refl _ _ m
    · exact plugged_of_rest rfl rfl
  · exact .refl _ _ m

theorem plugged_clearDiag (m : Mod) (p e : Nat) : m.Plugged (m.clearDiag p e) := by
  have hput : ∀ (x : Mod) (b : Bool) (f : Fld), f.reg ∈ plugRegs → x.Plugged (x.iff b fun m => m.put f p false) :=
    fun x b f hf => .iff b (x.plugged_put f p false hf)
  unfold clearDiag
  dsimp only
  exact ((((hput _ _ _ (by decide)).trans (hput _ _ _ (by decide))).trans (hput _ _ _ (by decide))).trans (hput _ _ _ (by decide))).trans
    (hput _ _ _ (by decide))

theorem plugged_zeroCount (m : Mod) (p : Nat) : m.Plugged (m.zeroCount p) := by
  have hspell : m.Plugged (m.endSpell p) := by
    unfold endSpell
    dsimp only
    split
    · exact .refl _ _ m
    · exact m.plugged_setPort _ _
  exact (((hspell.trans (plugged_setReg _ _ _ _ (by decide))).trans (plugged_setReg _ _ _ _ (by decide))).trans
    (plugged_setReg _ _ _ _ (by decide))).trans (plugged_setPort _ _ _)

theorem plugged_isolatePort (m : Mod) (p : Nat) : m.Plugged (m.isolatePort p) := by
  unfold isolatePort
  dsimp only
  have hgive := ((m.plugged_tdrAbort p).trans (plugged_hartAbort _ p)).trans (plugged_overtake _ p)
  generalize ((m.tdrAbort p).hartAbort p).overtake p = x at hgive ⊢
  have hsafe : x.Plugged (if isOutMode (m.effMode p) = true then x.applySafe p else x.hiZ p) := by
    split
    · exact x.plugged_applySafe p
    · exact x.plugged_setPort p _
  generalize (if isOutMode (m.effMode p) = true then x.applySafe p else x.hiZ p) = y at hsafe ⊢
  refine (hgive.trans hsafe).trans (.trans (.trans (.trans (.trans (.trans (.trans (y.plugged_setPort _ _) (plugged_zeroCount _ _))
    (plugged_clearDiag _ _ _)) (plugged_put _ _ _ _ (by decide))) (plugged_wr _ _ _ _ (by decide))) (plugged_put _ _ _ _ (by decide)))
    (plugged_setMismatch _ _ _))

theorem plugged_isolateDie (m : Mod) (d : Nat) : m.Plugged (m.isolateDie d) :=
  Frame.trans (plugged_of_rest (t := m.setDie d { m.die d with isolated := true, hears := false }) rfl rfl)
    (.each (fun x p => x.plugged_isolatePort p) _ _)

theorem plugged_isolateDies (m : Mod) (l : List Nat) : m.Plugged (m.each l isolateDie) := .each (fun x d => x.plugged_isolateDie d) l m

theorem plugged_safePorts (m : Mod) (ps : List Nat) : m.Plugged (m.safePorts ps) :=
  .each (fun x p => (x.plugged_overtake p).trans (.iff _ (plugged_applySafe _ p))) ps m

end Mod

end Sys2Proof.Machine

/-!
What stays when links end and dies are isolated, by field; the messages of the side-band as the Goose takes them (R402, R403).
-/
namespace Sys2Proof.Machine

namespace Mod

section
variable {m t : Mod} (h : m.Plugged t)
include h

theorem Plugged.rook_eq : t.rook = m.rook := (congrArg Mod.rook h.rest :)
theorem Plugged.phase_eq : t.phase = m.phase := (congrArg Mod.phase h.rest :)
theorem Plugged.lock_eq : t.lock = m.lock := (congrArg Mod.lock h.rest :)
theorem Plugged.cores_eq : t.cores = m.cores := (congrArg Mod.cores h.rest :)
theorem Plugged.mx_eq : t.mx = m.mx := (congrArg Mod.mx h.rest :)
theorem Plugged.rgnPhase_eq : t.rgnPhase = m.rgnPhase := (congrArg Mod.rgnPhase h.rest :)
theorem Plugged.rgnAct_eq : t.rgnAct = m.rgnAct := (congrArg Mod.rgnAct h.rest :)
theorem Plugged.keeper_eq : t.goose.keeper = m.goose.keeper := (congrArg (fun x : Mod => x.goose.keeper) h.rest :)
theorem Plugged.invalid_eq : t.goose.invalid = m.goose.invalid := (congrArg (fun x : Mod => x.goose.invalid) h.rest :)
theorem Plugged.sessions_eq : t.goose.sessions = m.goose.sessions := (congrArg (fun x : Mod => x.goose.sessions) h.rest :)
theorem Plugged.mono_eq : t.mono = m.mono := (congrArg Mod.mono h.rest :)
theorem Plugged.devSafe_eq : t.devSafe = m.devSafe := (congrArg Mod.devSafe h.rest :)

end

end Mod

/-! ### Messages -/

section
variable {s : State} {i : Instr} {sess : SbId} {seq : SbHead} {ty : Nat} {control : Bool} {need : Need} {f : Mod → Mod}

/-- A message that the Goose does not serve: not heard, of an odd type, without a session, of the wrong class, or of a unit that is down. -/
theorem message_unserved (he : exec i s = .next { s with mod := s.mod.sbServe sess ty seq control need f }) :
    (s.mod.sbHears sess seq = false → Does i s fun t => t = s.mod) ∧
    (∀ x, s.mod.sbHears sess seq = true → seq.unknown = some x → Does i s fun t =>
      t = s.mod.emit (.sideband sess x seq.toNat (if s.mod.goose.sessions.contains sess.val then stBADOP else stNOSESSION) [])) ∧
    (s.mod.sbHears sess seq = true ∧ seq.unknown = none → s.mod.goose.sessions.contains sess.val = false → Does i s fun t =>
      t = s.mod.emit (.sideband sess ty seq.toNat stNOSESSION [])) ∧
    (s.mod.sbHears sess seq = true ∧ seq.unknown = none → s.mod.goose.sessions.contains sess.val = true → (control && sess.val == 0) = true →
      Does i s fun t => t = s.mod.emit (.sideband sess ty seq.toNat stBADOP [])) ∧
    (s.mod.sbHears sess seq = true ∧ seq.unknown = none → s.mod.goose.sessions.contains sess.val = true → (control && sess.val == 0) = false →
      s.mod.sbUp need = false → Does i s fun t => t = s.mod.emit (.sideband sess ty seq.toNat stSTATE [])) := by
  refine ⟨fun hh => does_next he ?_, fun x hh hu => does_next he ?_, fun ⟨hh, hu⟩ hc => does_next he ?_, fun ⟨hh, hu⟩ hc hk => does_next he ?_,
    fun ⟨hh, hu⟩ hc hk hn => does_next he ?_⟩
  · rw [Mod.sbServe, hh]
    rfl
  · rw [Mod.sbServe, hh, hu]
    rfl
  · rw [Mod.sbServe, hh, hu, hc]
    rfl
  · rw [Mod.sbServe, hh, hu, hc, hk]
    rfl
  · rw [Mod.sbServe, hh, hu, hc, hk, hn]
    rfl

/-- A message that the Goose serves. -/
theorem message_served {P : Mod → Prop} (he : exec i s = .next { s with mod := s.mod.sbServe sess ty seq control need f })
    (h : (s.mod.sbHears sess seq = true ∧ seq.unknown = none) ∧ s.mod.goose.sessions.contains sess.val = true ∧ (control && sess.val == 0) = false ∧
      s.mod.sbUp need = true) (hP : P (f s.mod)) : Does i s P := by
  obtain ⟨⟨hh, hu⟩, hc, hk, hn⟩ := h
  refine does_next he ?_
  rw [Mod.sbServe, hh, hu, hc, hk, hn]
  exact hP

end

end Sys2Proof.Machine

/-!
The lock, sessions and the Sheepdog's restart: what they change (R362, R367, R374).
-/
namespace Sys2Proof.Machine

namespace Mod

/-! ### The lock -/

/-- A module without reports, answers and what is staged. -/
def unstagedAll (m : Mod) : Mod := { m.unanswered with cfg := {}, staged := [], stageImage := false, fwdStage := [], vlanStage := [] }

/-- The registers that a change of the lock may change. -/
def lockHolderRegs : List Reg := answerRegs ++ ([.MBX_LOCK, .CFG_SLOT_STATE, .CFG_SLOT_MOVE, .CFG_STATUS, .CFG_MOVE_STAGED] : List Reg)

/-- From `m` to `t` the lock's register, what was staged, answers and reports changed. -/
abbrev Relocked (m t : Mod) : Prop := Frame unstagedAll lockHolderRegs m t

variable {m n t : Mod}

theorem relocked_of_answered (h : m.Answered t) : m.Relocked t := h.coarser (fun _ => rfl) (by decide)

theorem relocked_of_rest (h : t.unstagedAll = m.unstagedAll) (hr : t.regs = m.regs) : m.Relocked t := .of_regs h hr

theorem relocked_setReg (m : Mod) (r : Reg) (i v : Nat) (h : r ∈ lockHolderRegs) : m.Relocked (m.setReg r i v) :=
  ⟨rfl, fun _ _ hr => reg_setReg_ne m v fun e => hr (e.1 ▸ h)⟩

theorem relocked_wr (m : Mod) (f : Fld) (i v : Nat) (h : f.reg ∈ lockHolderRegs) : m.Relocked (m.wr f i v) := m.relocked_setReg _ _ _ h
theorem relocked_cfg (m : Mod) (x : Cfg) : m.Relocked { m with cfg := x } := relocked_of_rest rfl rfl
theorem relocked_unstage (m : Mod) : m.Relocked m.unstage := relocked_of_rest rfl rfl
theorem relocked_raise (m : Mod) (k : Nat) : m.Relocked (m.raise k) := relocked_of_answered ((m.told_raise k).answered (by decide))

theorem relocked_slotClear (m : Mod) (k : Nat) : m.Relocked (m.slotClear k) :=
  ((m.relocked_setReg _ _ _ (by decide)).trans (relocked_setReg _ _ _ _ (by decide))).trans (relocked_cfg _ _)

theorem relocked_dropDirect (m : Mod) (k : Nat) : m.Relocked (m.dropDirect k) := by
  unfold dropDirect
  split
  · exact .refl _ _ m
  · exact (Frame.iff _ (m.relocked_cfg _)).trans (relocked_unstage _)

theorem relocked_discardImage (m : Mod) (k : Nat) : m.Relocked (m.discardImage k) := by
  unfold discardImage
  split
  · exact .refl _ _ m
  · split
    · exact .refl _ _ m
    · dsimp only
      refine .trans (.trans (.trans (.trans (.trans (.trans (.trans ?_ (relocked_cfg _ _)) (relocked_slotClear _ _)) (relocked_wr _ _ _ _ (by decide)))
        (relocked_wr _ _ _ _ (by decide))) (relocked_unstage _)) (relocked_cfg _ _)) (.iff _ (relocked_of_answered (answered_finishLong _ _ _)))
      exact .each (fun x _ => relocked_of_answered (x.answered_emit _)) _ _

/-- A change of the lock, told from the module with the new lock. -/
theorem relocked_setLock (m : Mod) (l : Lock) (keep : Bool) : Relocked { m with lock := l } (m.setLock l keep) := by
  unfold setLock
  dsimp only
  split
  · exact .refl _ _ _
  · refine .trans (.trans (.trans (.trans ?_ (relocked_of_answered (answered_msix _ 5))) (relocked_dropDirect _ _)) (.iff _ (relocked_discardImage _ _)))
      (.iff _ (relocked_raise _ _))
    exact relocked_wr _ _ _ _ (by decide)

theorem relocked_freeLock (m : Mod) (keep : Bool) : Relocked { m with lock := {} } (m.freeLock keep) := m.relocked_setLock {} keep

theorem lock_freeLock (m : Mod) (keep : Bool) : (m.freeLock keep).lock = {} := (congrArg Mod.lock (m.relocked_freeLock keep).rest :)

/-! ### Sessions -/

/-- A module without what a session's end changes. -/
def unclosed (m : Mod) : Mod :=
  { m.unstagedAll with lock := {}, wins := [], imgUp := none, fwUp := none, gathers := [], relays := [], sess := [] }

/-- The registers that a session's end may change. -/
def closeRegs : List Reg := lockHolderRegs ++ ([.MBX_Q_STATUS, .MBX_Q_CMD_CONS] : List Reg)

/-- From `m` to `t` sessions ended. -/
abbrev Closed (m t : Mod) : Prop := Frame unclosed closeRegs m t

theorem closed_of_relocked (h : m.Relocked t) : m.Closed t := h.coarser (fun _ => rfl) (by decide)

theorem closed_of_rest (h : t.unclosed = m.unclosed) (hr : t.regs = m.regs) : m.Closed t := .of_regs h hr

theorem closed_wr (m : Mod) (f : Fld) (i v : Nat) (h : f.reg ∈ closeRegs) : m.Closed (m.wr f i v) :=
  ⟨rfl, fun _ _ hr => reg_setReg_ne m _ fun e => hr (e.1 ▸ h)⟩

theorem closed_freeLock (m : Mod) (keep : Bool) : m.Closed (m.freeLock keep) :=
  Frame.trans (closed_of_rest (t := { m with lock := {} }) rfl rfl) (closed_of_relocked (m.relocked_freeLock keep))

theorem closed_setSess (m : Mod) (q : Nat) (v : Sess) : m.Closed (m.setSess q v) := closed_of_rest rfl rfl

/-- What the end of a session lets go of. -/
def sessionGone (m : Mod) (q : Nat) : Mod :=
  let has := fun (x : Held) => (m.session q).handles.any (fun h => h.2 == x)
  { m with
    wins := m.wins.map (fun (e : Nat × Option Win) => (e.1, e.2.bind (fun w => if w.q = q then none else some w)))
    imgUp := if has .image then none else m.imgUp
    fwUp := if has .firmware then none else m.fwUp
    gathers := m.gathers.filter (fun g => match g.cmd with
      | some c => c.q != q
      | none => true)
    relays := if q = 4 then [] else m.relays }

/-- The rings of a pair whose session has ended. -/
def sessionRings (m : Mod) (q : Nat) : Mod :=
  m.iff (decide (q < 4)) (fun m =>
    ((m.put F.MBX_Q_STATUS_OPEN q false).put F.MBX_Q_STATUS_V1 q false).wr F.MBX_Q_CMD_CONS_INDEX q (m.rd F.MBX_Q_CMD_PROD_INDEX q))

/-- The module once a session has ended, but for the lock it held. -/
def sessionLeft (m : Mod) (q : Nat) : Mod := ((m.sessionGone q).setSess q { gen := (m.session q).gen }).sessionRings q

theorem closeSession_eq (m : Mod) (q : Nat) : m.closeSession q = if !(m.session q).isOpen then m else
    (m.sessionLeft q).iff (decide (q < 4) && (m.sessionLeft q).lock.holder == q + 1) (fun m => m.freeLock) := rfl

theorem closed_sessionRings (m : Mod) (q : Nat) : m.Closed (m.sessionRings q) :=
  .iff _ (((m.closed_wr _ _ _ (by decide)).trans (closed_wr _ _ _ _ (by decide))).trans (closed_wr _ _ _ _ (by decide)))

theorem lock_sessionRings (m : Mod) (q : Nat) : (m.sessionRings q).lock = m.lock := by
  unfold sessionRings
  cases decide (q < 4) with
  | false => rfl
  | true => exact (wr_lock _ _ _ _).trans ((put_lock _ _ _ _).trans (put_lock _ _ _ _))

theorem closed_sessionGone (m : Mod) (q : Nat) : m.Closed (m.sessionGone q) := closed_of_rest rfl rfl

theorem closed_sessionLeft (m : Mod) (q : Nat) : m.Closed (m.sessionLeft q) :=
  ((m.closed_sessionGone q).trans (closed_setSess _ _ _)).trans (closed_sessionRings _ _)

theorem lock_sessionGone (m : Mod) (q : Nat) : (m.sessionGone q).lock = m.lock := rfl

theorem lock_sessionLeft (m : Mod) (q : Nat) : (m.sessionLeft q).lock = m.lock :=
  (lock_sessionRings _ _).trans ((setSess_lock _ _ _).trans (m.lock_sessionGone q))

theorem closed_closeSession (m : Mod) (q : Nat) : m.Closed (m.closeSession q) := by
  have hleft := m.closed_sessionLeft q
  rw [closeSession_eq]
  generalize m.sessionLeft q = x at hleft ⊢
  split
  · exact .refl _ _ m
  · exact hleft.trans (.iff _ (x.closed_freeLock false))

/-- A session's end leaves the lock as it is, or free. -/
theorem lock_closeSession (m : Mod) (q : Nat) : (m.closeSession q).lock = m.lock ∨ (m.closeSession q).lock = {} := by
  have hlock := m.lock_sessionLeft q
  rw [closeSession_eq]
  generalize m.sessionLeft q = x at hlock ⊢
  split
  · exact .inl rfl
  · cases decide (q < 4) && x.lock.holder == q + 1 with
    | false => rw [iff_false]; exact .inl hlock
    | true => rw [iff_true]; exact .inr (x.lock_freeLock false)

end Mod

end Sys2Proof.Machine

/-!
The Goose's log and time keeper, the Sheepdog's restart, the end of side-band sessions (R362, R400 to R404).
-/
namespace Sys2Proof.Machine

namespace Mod

variable {m t : Mod}

/-! ### The log -/

theorem goose_msix (m : Mod) (v : Nat) : (m.msix v).goose = m.goose := by
  unfold msix
  split
  · rfl
  · split <;> rfl

theorem goose_foldl_msix (vs : List Nat) (m : Mod) : (vs.foldl msix m).goose = m.goose :=
  each_keeps (P := fun t : Mod => t.goose = m.goose) (fun t v h => (t.goose_msix v).trans h) vs rfl

theorem goose_deliver (m : Mod) (n : Nat) : (m.deliver n).goose = m.goose := by
  unfold deliver
  dsimp only
  refine iff_keeps (P := fun t : Mod => t.goose = m.goose) _ ((count_goose _ _ _ _).trans ?_) ?_ <;>
  · rw [goose_foldl_msix]
    exact iff_keeps (P := fun t : Mod => t.goose = m.goose) _ rfl rfl

theorem goose_gooseLog_last (m : Mod) (w : GooseWhat) : (m.gooseLog w).goose.log.getLast? = some ⟨m.goose.keeper, w⟩ := by
  unfold gooseLog
  dsimp only
  cases m.phase.spineUp with
  | false => exact List.getLast?_concat
  | true => rw [iff_true, goose_deliver]; exact List.getLast?_concat

theorem plugged_gooseLog (m : Mod) (w : GooseWhat) : m.Plugged (m.gooseLog w) := (m.told_gooseLog w).plugged (by decide)

/-! ### Time keeper and watch -/

/-- The time keeper without a feed. -/
theorem keeperLost_shows (h : (m.flag F.PWR_FEED_A_OK || m.flag F.PWR_FEED_B_OK) = false) :
    m.keeperLost.goose.keeper = 0 ∧ m.keeperLost.goose.invalid = true ∧ m.keeperLost.flag F.GOOSE_STATUS_TIME_INVALID = true := by
  rw [keeperLost, h, if_neg Bool.false_ne_true]
  exact ⟨rfl, rfl, flag_put_self m _ _ _ (by decide) rfl⟩

/-! ### Device faults without an action -/

/-- A module without reports, the mesh and the configuration's state. -/
def unnoticed (m : Mod) : Mod := { m.untold with fq := [], cfg := {}, twin := {}, links := [], wire := [], sent := [] }

theorem unnoticed_of_unsent (h : t.unsent = m.unsent) : t.unnoticed = m.unnoticed := by
  have hrest : ∀ x : Mod, x.unsent.unnoticed = x.unnoticed := fun _ => rfl
  rw [← hrest t, h, hrest]

theorem unsent_memberUp (m : Mod) (x : MemberMsg) : (m.memberUp x).unsent = m.unsent := by
  unfold memberUp
  split
  · exact m.unsent_sendParcels _ _ _
  · rfl

theorem unsent_memberDown (m : Mod) (x : MemberMsg) : (m.memberDown x).unsent = m.unsent :=
  each_keeps (P := fun t : Mod => t.unsent = m.unsent) (fun t l h => (t.unsent_sendParcels l none _).trans h) _ rfl

theorem unsent_faultNotice (m : Mod) (k : Nat) : (m.faultNotice k).unsent = m.unsent := by
  unfold faultNotice
  dsimp only
  split
  · rfl
  · split
    · exact m.unsent_memberDown _
    · exact m.unsent_memberUp _

/-- A device fault as it is recorded and noticed, before its action. -/
def faultNoted (m : Mod) (cause detail source shown : Nat) : Mod :=
  ((m.record (m.faultRec 3 cause 0 10 shown detail source)).probFailIf 0).faultNotice cause

theorem faultNoted_frame (m : Mod) (cause detail source shown : Nat) : Frame unnoticed recordRegs m (m.faultNoted cause detail source shown) :=
  (((m.record_frame _).coarser (fun _ => rfl) (by decide)).trans ((frame_probFailIf _ 0 recordRegs).coarser (fun _ => rfl) fun _ h => h)).trans
    (.of_regs (unnoticed_of_unsent (unsent_faultNotice _ _)) (regs_of_unsent (unsent_faultNotice _ _)))

/-- A device fault without an action. -/
theorem deviceFault_none (cause detail source : Nat) (h : m.rd F.FLT_DEV_ACT_ACT = 0) : m.deviceFault cause detail source =
    { m.faultNoted cause detail source 0 with twin := { (m.faultNoted cause detail source 0).twin with faultNext := true } } := by
  unfold deviceFault
  rw [h]
  rfl

end Mod

end Sys2Proof.Machine

/-!
The Sheepdog's restart, the Goose's restart and the end of a side-band session (R362, R368, R401, R404).
-/
namespace Sys2Proof.Machine

namespace Mod

variable {m t : Mod}

theorem rd_setMbxState (m : Mod) (v : Nat) (h : v < 8) : (m.setMbxState v).rd F.MBX_STATE_STATE = v := by
  unfold setMbxState
  split
  · assumption
  · rw [(answered_msix _ 4).rd _ _ (by decide), rd_wr_self _ _ _ _ (by decide)]
    exact Nat.mod_eq_of_lt h

theorem rd_setMbxState_of_ne (m : Mod) (v : Nat) (f : Fld) (i : Nat) (hf : f.reg ∉ answerRegs) (hs : f.reg ≠ .MBX_STATE) :
    (m.setMbxState v).rd f i = m.rd f i := by
  unfold setMbxState
  split
  · rfl
  · rw [(answered_msix _ 4).rd _ _ hf, rd_wr_of_apart _ _ _ _ (.inl hs)]

/-! ### The Sheepdog's restart -/

/-- A module without what the Sheepdog's restart changes. -/
def unbooted (m : Mod) : Mod := { m.unclosed with runB := false, trialWait := false }

/-- The registers that the Sheepdog's restart may change. -/
def bootRegs : List Reg := closeRegs ++ ([.MBX_STATE, .ROOK_STATUS] : List Reg)

theorem booted_wr (m : Mod) (f : Fld) (i v : Nat) (h : f.reg ∈ bootRegs) : Frame unbooted bootRegs m (m.wr f i v) :=
  ⟨rfl, fun _ _ hr => reg_setReg_ne m _ fun e => hr (e.1 ▸ h)⟩

theorem booted_sdBoot (m : Mod) : Frame unbooted bootRegs m m.sdBoot := by
  have hmsix : ∀ (x : Mod) (b : Bool), Frame unbooted bootRegs x (x.iff b (fun m => m.msix 4)) := fun x b =>
    .iff b (Frame.coarser (R := answerRegs) (x.answered_msix 4) (fun _ => rfl) (by decide))
  have hshow : ∀ (x : Mod) (b : Bool), Frame unbooted bootRegs x (x.mbxShow 5 b) := fun x b =>
    (((x.booted_wr F.MBX_STATE_STATE 0 5 (by decide)).trans (booted_wr _ F.MBX_STATE_SLOT 0 _ (by decide))).trans
      (booted_wr _ F.MBX_STATE_TRIAL 0 _ (by decide))).trans (hmsix _ _)
  unfold sdBoot
  dsimp only
  refine .trans (.trans ?_ (hshow _ _)) (booted_wr _ F.ROOK_STATUS_SD_SLOT 0 _ (by decide))
  split
  · exact .of_regs rfl rfl
  · exact .of_regs rfl rfl

theorem rd_sdBoot (m : Mod) : m.sdBoot.rd F.MBX_STATE_STATE = 5 := by
  have hshow : ∀ (x : Mod) (b : Bool), (x.mbxShow 5 b).rd F.MBX_STATE_STATE = 5 := fun x b => by
    unfold mbxShow
    dsimp only
    have hset : (((x.wr F.MBX_STATE_STATE 0 5).put F.MBX_STATE_SLOT 0 x.runB).put F.MBX_STATE_TRIAL 0 b).rd F.MBX_STATE_STATE = 5 := by
      rw [rd_put_of_apart _ _ _ _ (by decide), rd_put_of_apart _ _ _ _ (by decide)]
      exact rd_wr_self _ F.MBX_STATE_STATE 0 5 (by decide)
    exact iff_keeps (P := fun t : Mod => t.rd F.MBX_STATE_STATE = 5) _ (((answered_msix _ 4).rd F.MBX_STATE_STATE 0 (by decide)).trans hset) hset
  unfold sdBoot
  dsimp only
  rw [rd_put_of_apart _ _ _ _ (by decide)]
  exact hshow _ _

theorem closed_closeAll (m : Mod) : m.Closed (m.each (upTo 5) closeSession) := .each (fun x q => x.closed_closeSession q) _ m

/-- The restart but for the sessions and the lock. -/
theorem sheepdogRestart_frame (m : Mod) : Closed ({ m with long := [] } : Mod).sdBoot m.sheepdogRestart := by
  unfold sheepdogRestart
  dsimp only
  generalize ({ m with long := [] } : Mod).sdBoot = x
  exact x.closed_closeAll.trans (.iff _ (closed_freeLock _ false))

theorem booted_long (m : Mod) : Frame unbooted bootRegs m { m with long := [] } := .of_regs rfl rfl

theorem booted_sheepdogRestart (m : Mod) : Frame unbooted bootRegs m m.sheepdogRestart :=
  (m.booted_long.trans (booted_sdBoot _)).trans (Frame.coarser m.sheepdogRestart_frame (fun _ => rfl) (by decide))

theorem lock_sdBoot (m : Mod) : m.sdBoot.lock = m.lock := by
  have hmsix : ∀ x : Mod, (x.msix 4).lock = x.lock := fun x => (congrArg Mod.lock (x.told_msix 4 []).rest :)
  have hshow : ∀ (x : Mod) (b : Bool), (x.mbxShow 5 b).lock = x.lock := fun x b => by
    unfold mbxShow
    dsimp only
    refine iff_keeps (P := fun t : Mod => t.lock = x.lock) _ ?_ ?_
    · rw [hmsix, put_lock, put_lock, wr_lock]
    · rw [put_lock, put_lock, wr_lock]
  unfold sdBoot
  dsimp only
  rw [put_lock, hshow]
  split <;> rfl

/-- A free lock stays free. -/
theorem lock_sheepdogRestart (m : Mod) (h : m.lock = {}) : m.sheepdogRestart.lock = {} := by
  have hboot : ({ m with long := [] } : Mod).sdBoot.lock = {} := (lock_sdBoot _).trans h
  unfold sheepdogRestart
  dsimp only
  generalize ({ m with long := [] } : Mod).sdBoot = x at hboot
  refine iff_keeps (P := fun t : Mod => t.lock = {}) _ (lock_freeLock _ _) ?_
  refine each_keeps (P := fun t : Mod => t.lock = {}) (fun y q hy => ?_) _ hboot
  exact (y.lock_closeSession q).elim (fun e => e.trans hy) id

/-! ### A silent Sheepdog -/

/-- A silent Sheepdog with the lock freed, before the device fault. -/
def silenced (m : Mod) : Mod := ((m.setMbxState 4).gooseLog (.watch (.heartbeat false))).freeLock

theorem silenced_rd (m : Mod) (f : Fld) (i : Nat) (hp : f.reg ∉ plugRegs) (hl : f.reg ∉ closeRegs) (hs : f.reg ≠ .MBX_STATE)
    (ha : f.reg ∉ answerRegs) : m.silenced.rd f i = m.rd f i := by
  rw [silenced, (closed_freeLock _ false).rd f i hl, (plugged_gooseLog _ _).rd f i hp, rd_setMbxState_of_ne _ _ _ _ ha hs]

theorem silenced_rest (m : Mod) : Frame unclosed (plugRegs ++ closeRegs ++ [.MBX_STATE]) m m.silenced := by
  have hstate : Frame unclosed (plugRegs ++ closeRegs ++ [.MBX_STATE]) m (m.setMbxState 4) := by
    unfold setMbxState
    split
    · exact .refl _ _ m
    · have hset : Frame unclosed (plugRegs ++ closeRegs ++ [.MBX_STATE]) m (m.wr F.MBX_STATE_STATE 0 4) :=
        ⟨rfl, fun r i hr => reg_setReg_ne m _ fun e => hr (by rw [e.1]; decide)⟩
      exact hset.trans (Frame.coarser (clear := unanswered) (R := answerRegs) (answered_msix _ 4) (fun _ => rfl) (by decide))
  exact (hstate.trans ((Mod.told_gooseLog _ _).frame (fun _ => rfl) (by decide))).trans
    (Frame.coarser (clear := unclosed) (R := closeRegs) (closed_freeLock _ false) (fun _ => rfl) (by decide))

theorem silenced_keeps (m : Mod) : m.silenced.lock = {} ∧ m.silenced.rd F.MBX_STATE_STATE = 4 ∧ m.silenced.phase = m.phase ∧
    m.silenced.goose.restarted = m.goose.restarted := by
  refine ⟨lock_freeLock _ _, ?_, (congrArg Mod.phase m.silenced_rest.rest :), (congrArg (fun x : Mod => x.goose.restarted) m.silenced_rest.rest :)⟩
  rw [silenced, (closed_freeLock _ false).rd _ _ (by decide), (plugged_gooseLog _ _).rd _ _ (by decide)]
  exact m.rd_setMbxState 4 (by decide)

theorem twin_of_booted (h : Frame unbooted bootRegs m t) : t.twin = m.twin := (congrArg Mod.twin h.rest :)

/-- The one restart noted. -/
def noteRestart (m : Mod) : Mod := { m with goose := { m.goose with restarted := true } }

/-- A device fault noted for the next heartbeat. -/
def noteFault (m : Mod) : Mod := { m with twin := { m.twin with faultNext := true } }

/-- The restart of a silent Sheepdog where the Goose may try it. -/
def triedAgain (m : Mod) : Mod :=
  if m.phase.sheepdogUp && m.flag F.GOOSE_CTRL_AUTORESTART && !m.goose.restarted then m.noteRestart.sheepdogRestart else m

theorem sdSilent_eq (m : Mod) : m.sdSilent = if !m.phase.sheepdogUp || m.rd F.MBX_STATE_STATE == 4 then m else
    (m.silenced.deviceFault 0x0C (m.silenced.reg .MBX_STATE 0)).triedAgain := by
  unfold sdSilent
  refine ite_congr rfl (fun _ => rfl) fun _ => ?_
  extract_lets x y
  have hy : y = m.silenced.deviceFault 0x0C (m.silenced.reg .MBX_STATE 0) := rfl
  rw [← hy]
  rfl

/-- A restart tried with the lock free and a fault noticed. -/
theorem triedAgain_shows (hup : m.phase.sheepdogUp = true) (hl : m.lock = {}) (hn : m.twin.faultNext = true) (hst : m.rd F.MBX_STATE_STATE = 4) :
    m.triedAgain.lock = {} ∧ m.triedAgain.twin.faultNext = true ∧
      m.triedAgain.rd F.MBX_STATE_STATE = if m.flag F.GOOSE_CTRL_AUTORESTART && !m.goose.restarted then 5 else 4 := by
  unfold triedAgain
  rw [hup, Bool.true_and]
  split
  · have hlock : m.noteRestart.lock = {} := hl
    have htwin : m.noteRestart.twin = m.twin := rfl
    generalize m.noteRestart = x at hlock htwin
    refine ⟨x.lock_sheepdogRestart hlock, ?_, ?_⟩
    · rw [twin_of_booted x.booted_sheepdogRestart, htwin, hn]
    · exact (x.sheepdogRestart_frame.rd _ _ (by decide)).trans (rd_sdBoot _)
  · exact ⟨hl, hn, hst⟩

/-- A silent Sheepdog's fault without an action: no lock, the fault noticed, MBX_STATE 5 where it is restarted. -/
theorem sdSilent_shows (hup : m.phase.sheepdogUp = true) (hst : m.rd F.MBX_STATE_STATE ≠ 4) (hact : m.rd F.FLT_DEV_ACT_ACT = 0) :
    m.sdSilent.lock = {} ∧ m.sdSilent.twin.faultNext = true ∧
      m.sdSilent.rd F.MBX_STATE_STATE = if m.flag F.GOOSE_CTRL_AUTORESTART && !m.goose.restarted then 5 else 4 := by
  have hno : (!m.phase.sheepdogUp || m.rd F.MBX_STATE_STATE == 4) = false := by rw [hup, beq_eq_false_iff_ne.mpr hst]; rfl
  have hrest := m.silenced_rest
  obtain ⟨hlock, hstate, hphase, hagain⟩ := m.silenced_keeps
  rw [sdSilent_eq, hno, if_neg Bool.false_ne_true, ← hagain, ← hrest.flag F.GOOSE_CTRL_AUTORESTART 0 (by decide)]
  rw [← hphase] at hup
  rw [← hrest.rd F.FLT_DEV_ACT_ACT 0 (by decide)] at hact
  generalize m.silenced = x at hlock hstate hup hact ⊢
  have hdev : x.deviceFault 0x0C (x.reg .MBX_STATE 0) = (x.faultNoted 0x0C (x.reg .MBX_STATE 0) 0xFFFF 0).noteFault := deviceFault_none _ _ _ hact
  rw [hdev]
  have hfr := x.faultNoted_frame 0x0C (x.reg .MBX_STATE 0) 0xFFFF 0
  generalize x.faultNoted 0x0C (x.reg .MBX_STATE 0) 0xFFFF 0 = y at hfr ⊢
  have hya : y.goose.restarted = x.goose.restarted := (congrArg (fun x : Mod => x.goose.restarted) hfr.rest :)
  rw [← hfr.flag F.GOOSE_CTRL_AUTORESTART 0 (by decide), ← hya]
  have hyl : y.lock = {} := (congrArg Mod.lock hfr.rest :).trans hlock
  have hyp : y.phase.sheepdogUp = true := (congrArg (fun x : Mod => x.phase.sheepdogUp) hfr.rest :).trans hup
  have hys : y.rd F.MBX_STATE_STATE = 4 := (hfr.rd _ _ (by decide)).trans hstate
  exact triedAgain_shows (m := y.noteFault) hyp hyl rfl hys

/-! ### Sessions of the side-band -/

/-- The sessions but one. -/
def sessionsWithout (m : Mod) (k : Nat) : Mod := { m with goose := { m.goose with sessions := m.goose.sessions.filter (· != k) } }

/-- A session's end, told from the module without it. -/
theorem closed_sbClose (m : Mod) (k : Nat) : (m.sessionsWithout k).Closed (m.sbClose k) := by
  unfold sbClose
  split
  · next h =>
    have hall : m.goose.sessions.filter (· != k) = m.goose.sessions := List.filter_eq_self.mpr fun x hx => by
      have hne : x ≠ k := fun e => by simp [← e, hx] at h
      simpa using hne
    exact closed_of_rest (by rw [sessionsWithout, hall]) (by rw [sessionsWithout, hall])
  · dsimp only [sessionEvent]
    refine .trans (.trans ?_ (.iff _ (closed_freeLock _ false))) (.iff _ (closed_of_relocked (relocked_raise _ _)))
    exact closed_of_rest rfl rfl

theorem sessions_sbClose (m : Mod) (k : Nat) : (m.sbClose k).goose.sessions = m.goose.sessions.filter (· != k) :=
  (congrArg (fun x : Mod => x.goose.sessions) (m.closed_sbClose k).rest :)

theorem keeper_sbClose (m : Mod) (k : Nat) : (m.sbClose k).goose.keeper = m.goose.keeper :=
  (congrArg (fun x : Mod => x.goose.keeper) (m.closed_sbClose k).rest :)

theorem sbClose_none (m : Mod) (k : Nat) (h : m.goose.sessions.contains k = false) : m.sbClose k = m := by
  rw [sbClose, h]
  rfl

/-- A session that ends lets go of its relays and of the lock. -/
theorem sbClose_lets_go (m : Mod) (k : Nat) (h : m.goose.sessions.contains k = true) :
    (∀ x ∈ (m.sbClose k).relays, x.sess ≠ k) ∧ (m.lock.holder = 5 → m.lock.sess = k → (m.sbClose k).lock = {}) := by
  have hraise : ∀ x : Mod, x.sessionEvent.relays = x.relays ∧ x.sessionEvent.lock = x.lock := fun x => by
    have hev : Frame untold recordRegs x x.sessionEvent := .iff _ ((x.told_raise 249).frame (fun _ => rfl) (by decide))
    exact ⟨(congrArg Mod.relays hev.rest :), (congrArg Mod.lock hev.rest :)⟩
  unfold sbClose
  rw [h]
  dsimp only
  rw [if_neg (by decide), (hraise _).1, (hraise _).2]
  generalize hx : ({ m with goose := _, relays := _ } : Mod) = x
  have hrel : x.relays = m.relays.filter (·.sess != k) := by rw [← hx]
  have hlock : x.lock = m.lock := by rw [← hx]
  rw [← hlock]
  cases hc : x.lock.holder == 5 && x.lock.sess == k with
  | false =>
    rw [iff_false, hrel]
    refine ⟨fun y hy => by simpa using (List.mem_filter.mp hy).2, fun h5 hk => ?_⟩
    rw [h5, hk] at hc
    simp at hc
  | true =>
    have hkeep : (x.freeLock false).relays = x.relays := (congrArg Mod.relays (x.relocked_freeLock false).rest :)
    rw [iff_true, hkeep, hrel]
    exact ⟨fun y hy => by simpa using (List.mem_filter.mp hy).2, fun _ _ => lock_freeLock _ _⟩

theorem mem_sessions_each_sbClose {x : Nat} : ∀ (l : List Nat) (m : Mod), x ∈ (m.each l sbClose).goose.sessions → x ∈ m.goose.sessions ∧ x ∉ l
  | [], _, h => ⟨h, List.not_mem_nil⟩
  | k :: l, m, h => by
    obtain ⟨hx, hl⟩ := mem_sessions_each_sbClose l (m.sbClose k) h
    rw [sessions_sbClose] at hx
    obtain ⟨hm, hk⟩ := List.mem_filter.mp hx
    exact ⟨hm, fun e => (List.mem_cons.mp e).elim (fun e => by simp [e] at hk) hl⟩

/-! ### The Goose's restart -/

/-- The sessions closed at the Goose's restart. -/
def gooseAlone (m : Mod) : Mod := (m.each (upTo 5) sbClose).closeSession 4

/-- The sessions closed and the lock freed at the Goose's restart. -/
def gooseCleared (m : Mod) : Mod := m.gooseAlone.iff (m.gooseAlone.lock.holder == 5) (fun m => m.freeLock)

theorem gooseRestart_eq (m : Mod) (lost : Bool) : m.gooseRestart lost = if lost then
      { m.gooseCleared.setReg .GOOSE_CTRL 0 (Reg.resetVal .GOOSE_CTRL 0) with goose := { keeper := m.gooseCleared.goose.keeper, invalid := m.gooseCleared.goose.invalid } }
    else { m.gooseCleared with goose := { m.gooseCleared.goose with restarted := false } } := by
  unfold gooseRestart gooseCleared gooseAlone
  rfl

theorem sessionLeft_four (m : Mod) : m.sessionLeft 4 = (m.sessionGone 4).setSess 4 { gen := (m.session 4).gen } := rfl

theorem isOpen_closeSession_four (m : Mod) : ((m.closeSession 4).session 4).isOpen = false := by
  rw [closeSession_eq]
  split
  · next h => simpa using h
  · have h4 : (decide (4 < 4) && (m.sessionLeft 4).lock.holder == 4 + 1) = false := rfl
    rw [h4, iff_false, sessionLeft_four, session, setSess, Tbl.get_set_self]

theorem goose_of_closed (h : m.Closed t) : t.goose.sessions = m.goose.sessions ∧ t.goose.keeper = m.goose.keeper :=
  ⟨(congrArg (fun x : Mod => x.goose.sessions) h.rest :), (congrArg (fun x : Mod => x.goose.keeper) h.rest :)⟩

theorem sess_of_relocked (h : m.Relocked t) : t.sess = m.sess := (congrArg Mod.sess h.rest :)

theorem session_freeLock (m : Mod) (q : Nat) : (m.freeLock false).session q = m.session q := by
  have h := sess_of_relocked (m.relocked_freeLock false)
  dsimp only at h
  rw [session, session, h]

theorem keeper_closeAll (m : Mod) (l : List Nat) : (m.each l sbClose).goose.keeper = m.goose.keeper :=
  each_keeps (P := fun t : Mod => t.goose.keeper = m.goose.keeper) (fun t k h => (t.keeper_sbClose k).trans h) l rfl

theorem gooseAlone_shows (m : Mod) : (∀ x, x < 5 → x ∉ m.gooseAlone.goose.sessions) ∧ m.gooseAlone.goose.keeper = m.goose.keeper ∧
    (m.gooseAlone.session 4).isOpen = false := by
  have hmem := fun x => mem_sessions_each_sbClose (x := x) (upTo 5) m
  have hkeep := m.keeper_closeAll (upTo 5)
  unfold gooseAlone
  generalize m.each (upTo 5) sbClose = y at hmem hkeep ⊢
  obtain ⟨hs, hk⟩ := goose_of_closed (y.closed_closeSession 4)
  refine ⟨fun x hx hin => ?_, hk.trans hkeep, y.isOpen_closeSession_four⟩
  rw [hs] at hin
  exact (hmem x hin).2 (List.mem_range.mpr hx)

/-- After the sessions have closed no session of the side-band is open and the lock is no session's of it. -/
theorem gooseCleared_shows (m : Mod) : (∀ x, x < 5 → x ∉ m.gooseCleared.goose.sessions) ∧ m.gooseCleared.lock.holder ≠ 5 ∧
    m.gooseCleared.goose.keeper = m.goose.keeper ∧ (m.gooseCleared.session 4).isOpen = false := by
  obtain ⟨hsess, hkeep, hopen⟩ := m.gooseAlone_shows
  unfold gooseCleared
  generalize m.gooseAlone = x at hsess hkeep hopen ⊢
  cases h : x.lock.holder == 5 with
  | false =>
    rw [iff_false]
    exact ⟨hsess, by simpa using h, hkeep, hopen⟩
  | true =>
    obtain ⟨hs, hk⟩ := goose_of_closed (x.closed_freeLock false)
    rw [iff_true, hs, hk, session_freeLock, lock_freeLock]
    exact ⟨hsess, by decide, hkeep, hopen⟩

/-- The Goose's restart. -/
theorem gooseRestart_shows (m : Mod) (lost : Bool) : (∀ x, x < 5 → x ∉ (m.gooseRestart lost).goose.sessions) ∧ (m.gooseRestart lost).lock.holder ≠ 5 ∧
    (m.gooseRestart lost).goose.keeper = m.goose.keeper ∧ ((m.gooseRestart lost).session 4).isOpen = false ∧
    (lost = true → (m.gooseRestart lost).goose.log = [] ∧ (m.gooseRestart lost).goose.lost = 0 ∧
      (m.gooseRestart lost).reg .GOOSE_CTRL 0 = Reg.resetVal .GOOSE_CTRL 0) := by
  obtain ⟨hs, hl, hk, ho⟩ := m.gooseCleared_shows
  rw [gooseRestart_eq]
  generalize m.gooseCleared = x at hs hl hk ho ⊢
  cases lost with
  | false => exact ⟨hs, hl, hk, ho, fun h => absurd h (by decide)⟩
  | true =>
    have hreg : (x.setReg .GOOSE_CTRL 0 (Reg.resetVal .GOOSE_CTRL 0)).reg .GOOSE_CTRL 0 = Reg.resetVal .GOOSE_CTRL 0 :=
      (reg_setReg_self _ _ _ _).trans (by decide)
    rw [if_pos rfl]
    exact ⟨fun _ _ => List.not_mem_nil, hl, hk, ho, fun _ => ⟨rfl, rfl, hreg⟩⟩

end Mod

end Sys2Proof.Machine

/-!
The module as it starts, after POWER, a device reset or DECOMMISSIONED (R406, R410, R452).
-/
namespace Sys2Proof.Machine

namespace Mod

variable {m n t : Mod}

/-- The registers that the start writes. -/
def startRegs : List Reg := [.TWIN_STATUS, .ROOK_STATUS, .PBLK_CARRIER, .MBX_LOCK, .CFG_STATUS]

/-- A module with the registers that the start writes. -/
def startShown (n : Mod) (claim pres : Bool) (boot life : Nat) (owner : Bool) (holder : Nat) (settled staged : Bool) : Mod :=
  ((((((((n.put F.TWIN_STATUS_PEER_CLAIM 0 claim).put F.TWIN_STATUS_PEER_PRES 0 pres).wr F.ROOK_STATUS_BOOT 0 boot).wr F.ROOK_STATUS_LIFECYCLE 0 life).put
    F.ROOK_STATUS_OWNER 0 owner).each (upTo 32) (fun n b => n.put F.PBLK_CARRIER_DIE_LINK b false)).wr F.MBX_LOCK_HOLDER 0 holder).put
    F.CFG_STATUS_SETTLED 0 settled).put F.CFG_STATUS_STAGED 0 staged

/-- A module without registers and their past. -/
def unregistered (m : Mod) : Mod := { m with regs := [], past := [] }

theorem unregistered_wr (m : Mod) (f : Fld) (i v : Nat) : (m.wr f i v).unregistered = m.unregistered := rfl
theorem unregistered_put (m : Mod) (f : Fld) (i : Nat) (b : Bool) : (m.put f i b).unregistered = m.unregistered := rfl

theorem frame_reg_wr {R : List Reg} (m : Mod) (f : Fld) (i v : Nat) (h : f.reg ∈ R) : Frame unregistered R m (m.wr f i v) :=
  ⟨rfl, fun _ _ hr => reg_setReg_ne m _ fun e => hr (e.1 ▸ h)⟩

theorem frame_reg_put {R : List Reg} (m : Mod) (f : Fld) (i : Nat) (b : Bool) (h : f.reg ∈ R) : Frame unregistered R m (m.put f i b) := m.frame_reg_wr f i _ h

theorem startShown_frame (n : Mod) (claim pres : Bool) (boot life : Nat) (owner : Bool) (holder : Nat) (settled staged : Bool) :
    Frame unregistered startRegs n (n.startShown claim pres boot life owner holder settled staged) := by
  unfold startShown
  refine .trans (.trans (.trans (.trans (.trans (.trans (.trans (.trans (frame_reg_put _ _ _ _ (by decide)) (frame_reg_put _ _ _ _ (by decide)))
    (frame_reg_wr _ _ _ _ (by decide))) (frame_reg_wr _ _ _ _ (by decide))) (frame_reg_put _ _ _ _ (by decide)))
    (.each (fun x b => x.frame_reg_put F.PBLK_CARRIER_DIE_LINK b false (by decide)) _ _)) (frame_reg_wr _ _ _ _ (by decide)))
    (frame_reg_put _ _ _ _ (by decide))) (frame_reg_put _ _ _ _ (by decide))

theorem startShown_rd (n : Mod) (claim pres : Bool) (boot life : Nat) (owner : Bool) (holder : Nat) (settled staged : Bool) (hb : boot < 2 ^ F.ROOK_STATUS_BOOT.width)
    (hl : life < 2 ^ F.ROOK_STATUS_LIFECYCLE.width) :
    (n.startShown claim pres boot life owner holder settled staged).rd F.ROOK_STATUS_BOOT = boot ∧
    (n.startShown claim pres boot life owner holder settled staged).rd F.ROOK_STATUS_LIFECYCLE = life ∧
    (n.startShown claim pres boot life owner holder settled staged).flag F.TWIN_STATUS_CLAIM = n.flag F.TWIN_STATUS_CLAIM := by
  unfold startShown
  have heach : ∀ x : Mod, Frame unregistered [Reg.PBLK_CARRIER] x (x.each (upTo 32) (fun n b => n.put F.PBLK_CARRIER_DIE_LINK b false)) := fun x =>
    .each (fun x b => x.frame_reg_put F.PBLK_CARRIER_DIE_LINK b false (by decide)) _ _
  refine ⟨?_, ?_, ?_⟩
  · rw [rd_put_of_apart _ _ _ _ (by decide), rd_put_of_apart _ _ _ _ (by decide), rd_wr_of_apart _ _ _ _ (by decide), (heach _).rd _ _ (by decide),
      rd_put_of_apart _ _ _ _ (by decide), rd_wr_of_apart _ _ _ _ (by decide), rd_wr_self _ _ _ _ (by decide)]
    exact Nat.mod_eq_of_lt hb
  · rw [rd_put_of_apart _ _ _ _ (by decide), rd_put_of_apart _ _ _ _ (by decide), rd_wr_of_apart _ _ _ _ (by decide), (heach _).rd _ _ (by decide),
      rd_put_of_apart _ _ _ _ (by decide), rd_wr_self _ _ _ _ (by decide)]
    exact Nat.mod_eq_of_lt hl
  · rw [flag_put_of_apart _ _ _ _ (by decide), flag_put_of_apart _ _ _ _ (by decide), flag_wr_of_apart _ _ _ _ (by decide), (heach _).flag _ _ (by decide),
      flag_put_of_apart _ _ _ _ (by decide), flag_wr_of_apart _ _ _ _ (by decide), flag_wr_of_apart _ _ _ _ (by decide),
      flag_put_of_apart _ _ _ _ (by decide), flag_put_of_apart _ _ _ _ (by decide)]

/-- A module without its registers, scores and what they have of the past. -/
def unscored (m : Mod) : Mod := { m with regs := [], past := [], cfg := { m.cfg with scores := [] } }

theorem unscored_probAtStart (m : Mod) : m.probAtStart.unscored = m.unscored := by
  unfold probAtStart
  extract_lets x
  have hx : x.unscored = m.unscored := by
    dsimp only [x]
    split
    · split <;> rfl
    · rfl
  clear_value x
  split
  · exact Eq.trans rfl hx
  · exact hx

/-- The module as the start leaves it, before the registers it writes. -/
theorem atStart_shows (m : Mod) : ∃ (n : Mod) (claim pres owner settled staged : Bool) (holder : Nat),
    m.atStart = n.startShown claim pres (if m.phase.gooseUp then 1 else 0) (lifeCode m.rook.life) owner holder settled staged ∧
    n.cores = [] ∧ n.lines = [] ∧ n.mem = m.mem.filter (fun e => decide (dramTop ≤ e.1) && decide (e.1 < 0x1002000000)) ∧
    n.phase = { powered := m.phase.powered, precharged := m.phase.precharged, gooseUp := m.phase.gooseUp, held := m.phase.held } ∧
    n.rook.life = m.rook.life ∧ n.goose = m.goose ∧ n.sent = m.sent ∧
    n.regs = m.probAtStart.regs.filter (fun e => (keptAtReset.map Reg.ctorIdx).contains (e.1 % 512)) := by
  have hp := m.unscored_probAtStart
  unfold atStart
  extract_lets x ts keep lk rk n n1 n2 n3 n4 n5
  have hx : x = m.probAtStart := rfl
  rw [← hx] at hp ⊢
  clear_value x
  have hphase : x.phase = m.phase := (congrArg Mod.phase hp :)
  have hrook : x.rook = m.rook := (congrArg Mod.rook hp :)
  have hmem : x.mem = m.mem := (congrArg Mod.mem hp :)
  have hgoose : x.goose = m.goose := (congrArg Mod.goose hp :)
  have hsent : x.sent = m.sent := (congrArg Mod.sent hp :)
  rw [← hphase, ← hrook, ← hmem, ← hgoose, ← hsent]
  have hn : n.cores = [] ∧ n.lines = [] ∧ n.mem = x.mem.filter (fun e => decide (dramTop ≤ e.1) && decide (e.1 < 0x1002000000)) ∧
    n.phase = { powered := x.phase.powered, precharged := x.phase.precharged, gooseUp := x.phase.gooseUp, held := x.phase.held } ∧
    n.rook.life = x.rook.life ∧ n.goose = x.goose ∧ n.sent = x.sent ∧
    n.regs = x.regs.filter (fun e => (keptAtReset.map Reg.ctorIdx).contains (e.1 % 512)) := ⟨rfl, rfl, rfl, rfl, rfl, rfl, rfl, rfl⟩
  clear_value n
  exact ⟨n, _, _, _, _, _, _, rfl, hn⟩

theorem regKey_kept (r : Reg) (i : Nat) (v : BitVec 64) :
    (fun e : Nat × BitVec 64 => (keptAtReset.map Reg.ctorIdx).contains (e.1 % 512)) (regKey r i, v) = (keptAtReset.map Reg.ctorIdx).contains r.ctorIdx := by
  dsimp only
  rw [regKey_mod]

/-- A register that the start does not keep. -/
theorem reg_atStart (m : Mod) (r : Reg) (i : Nat) (hk : (keptAtReset.map Reg.ctorIdx).contains r.ctorIdx = false) (hs : r ∉ startRegs) :
    m.atStart.reg r i = (BitVec.ofNat 64 (r.resetVal i)).toNat := by
  obtain ⟨n, a, b, o, c, d, h, he, -, -, -, -, -, -, -, hregs⟩ := m.atStart_shows
  rw [he, (startShown_frame n _ _ _ _ _ _ _ _).regs r i hs, reg, hregs, Tbl.get_filter_out _ _ _ _ fun v => (regKey_kept r i v).trans hk]

/-- What the start shows. -/
theorem atStart_rd (m : Mod) : m.atStart.rd F.ROOK_STATUS_BOOT = (if m.phase.gooseUp then 1 else 0) ∧ m.atStart.rd F.ROOK_STATUS_LIFECYCLE = lifeCode m.rook.life ∧
    m.atStart.flag F.TWIN_STATUS_CLAIM = false := by
  obtain ⟨n, a, b, o, c, d, h, he, -, -, -, -, -, -, -, hregs⟩ := m.atStart_shows
  have hlife : lifeCode m.rook.life < 2 ^ F.ROOK_STATUS_LIFECYCLE.width := by cases m.rook.life <;> decide
  obtain ⟨h1, h2, h3⟩ := startShown_rd n a b (if m.phase.gooseUp then 1 else 0) (lifeCode m.rook.life) o h c d (by split <;> decide) hlife
  have hreg : n.reg F.TWIN_STATUS_CLAIM.reg 0 = (BitVec.ofNat 64 (F.TWIN_STATUS_CLAIM.reg.resetVal 0)).toNat := by
    rw [reg, hregs, Tbl.get_filter_out _ _ _ _ fun v => (regKey_kept _ 0 v).trans (by decide)]
  have hflag : n.flag F.TWIN_STATUS_CLAIM = false := by
    rw [flag, rd, hreg]
    decide
  rw [he, h1, h2, h3, hflag]
  exact ⟨rfl, rfl, rfl⟩

theorem unregistered_keeps (h : t.unregistered = n.unregistered) : t.cores = n.cores ∧ t.lines = n.lines ∧ t.mem = n.mem ∧ t.phase = n.phase ∧
    t.rook = n.rook ∧ t.goose = n.goose ∧ t.sent = n.sent :=
  ⟨(congrArg Mod.cores h :), (congrArg Mod.lines h :), (congrArg Mod.mem h :), (congrArg Mod.phase h :), (congrArg Mod.rook h :), (congrArg Mod.goose h :),
    (congrArg Mod.sent h :)⟩

theorem atStart_rest (m : Mod) : m.atStart.cores = [] ∧ m.atStart.lines = [] ∧
    m.atStart.mem = m.mem.filter (fun e => decide (dramTop ≤ e.1) && decide (e.1 < 0x1002000000)) ∧
    m.atStart.phase = { powered := m.phase.powered, precharged := m.phase.precharged, gooseUp := m.phase.gooseUp, held := m.phase.held } ∧
    m.atStart.rook.life = m.rook.life ∧ m.atStart.goose = m.goose ∧ m.atStart.sent = m.sent := by
  obtain ⟨n, a, b, o, c, d, h, he, hc, hl, hm, hp, hr, hg, hs, -⟩ := m.atStart_shows
  rw [he]
  obtain ⟨kc, kl, km, kp, kr, kg, ks⟩ := unregistered_keeps (startShown_frame n a b (if m.phase.gooseUp then 1 else 0) (lifeCode m.rook.life) o h c d).rest
  exact ⟨kc.trans hc, kl.trans hl, km.trans hm, kp.trans hp, (congrArg Rook.life kr).trans hr, kg.trans hg, ks.trans hs⟩

end Mod

end Sys2Proof.Machine

/-!
POWER, and resets of a region and of the device (R406, R450, R452).
-/
namespace Sys2Proof.Machine

namespace Mod

variable {m n t : Mod}

/-! ### The module started again -/

/-- The outputs safe and the claim released, before the module starts again. -/
def madeSafe (m : Mod) : Mod := (m.each (upTo 8) isolateDie).unclaim

theorem plugged_madeSafe (m : Mod) : m.Plugged m.madeSafe := (m.plugged_isolateDies _).trans (plugged_put _ _ _ _ (by decide))

theorem restart_rd (m : Mod) : m.madeSafe.atStart.rd F.ROOK_STATUS_BOOT = (if m.phase.gooseUp then 1 else 0) ∧
    m.madeSafe.atStart.rd F.ROOK_STATUS_LIFECYCLE = lifeCode m.rook.life ∧ m.madeSafe.atStart.flag F.TWIN_STATUS_CLAIM = false := by
  have hp := m.plugged_madeSafe
  rw [← hp.phase_eq, ← hp.rook_eq]
  exact m.madeSafe.atStart_rd

theorem restart_phase (m : Mod) : m.madeSafe.atStart.phase =
    { powered := m.phase.powered, precharged := m.phase.precharged, gooseUp := m.phase.gooseUp, held := m.phase.held } := by
  rw [← m.plugged_madeSafe.phase_eq]
  obtain ⟨-, -, -, hp, -⟩ := m.madeSafe.atStart_rest
  exact hp

/-- The module as a device reset leaves it. -/
def startedAgain (m : Mod) (requester master : Nat) : Mod := (m.resetRecord 11 0 requester master).madeSafe.atStart

/-- A module with the staged values of another. -/
def stagedAs (n m : Mod) : Mod := { n with staged := m.staged, stageImage := m.stageImage, fwdStage := m.fwdStage, vlanStage := m.vlanStage }

theorem startedAgain_eq (m : Mod) (requester master : Nat) (x : Mod) (hx : m.resetRecord 11 0 requester master = x) :
    m.startedAgain requester master = ((x.each (upTo 8) isolateDie).unclaim).atStart := by
  rw [startedAgain, hx, madeSafe]

theorem deviceReset_eq (m : Mod) (requester master : Nat) : m.deviceReset requester master =
    if m.flag F.PWR_THR_STATUS_CRITICAL && decide (signedOf 16 (m.rd F.PWR_TEMP_JUNCTION) ≥ 1680) then m
    else (m.startedAgain requester master).stagedAs (m.resetRecord 11 0 requester master) := by
  unfold deviceReset
  generalize hx : m.resetRecord 11 0 requester master = x
  rw [startedAgain_eq m requester master x hx]
  dsimp only
  generalize ((x.each (upTo 8) isolateDie).unclaim).atStart = y
  rfl

theorem stagedAs_keeps (n m : Mod) : (n.stagedAs m).phase = n.phase ∧ (n.stagedAs m).cores = n.cores ∧ (n.stagedAs m).lines = n.lines ∧
    (n.stagedAs m).mem = n.mem ∧ (n.stagedAs m).regs = n.regs := ⟨rfl, rfl, rfl, rfl, rfl⟩

/-- A device reset that the heat does not refuse starts the module again. -/
theorem deviceReset_shows (requester master : Nat) (h : (m.flag F.PWR_THR_STATUS_CRITICAL && decide (signedOf 16 (m.rd F.PWR_TEMP_JUNCTION) ≥ 1680)) = false) :
    (m.deviceReset requester master).phase.spineUp = false ∧ (m.deviceReset requester master).rd F.ROOK_STATUS_BOOT = (if m.phase.gooseUp then 1 else 0) ∧
    (m.deviceReset requester master).cores = [] ∧ (m.deviceReset requester master).lines = [] ∧
    (m.deviceReset requester master).mem = (m.resetRecord 11 0 requester master).madeSafe.mem.filter (fun e => decide (dramTop ≤ e.1) && decide (e.1 < 0x1002000000)) ∧
    (m.deviceReset requester master).flag F.TWIN_STATUS_CLAIM = false := by
  rw [deviceReset_eq, h, if_neg Bool.false_ne_true]
  have hrec := m.reported_resetRecord 11 0 requester master
  have hrest := (m.resetRecord 11 0 requester master).madeSafe.atStart_rest
  have hrd := (m.resetRecord 11 0 requester master).restart_rd
  unfold startedAgain
  rw [hrec.phase] at hrd
  generalize m.resetRecord 11 0 requester master = x at hrest hrd ⊢
  obtain ⟨hc, hl, hm, hp, -⟩ := hrest
  obtain ⟨hb, -, hclaim⟩ := hrd
  obtain ⟨kp, kc, kl, km, kr⟩ := x.madeSafe.atStart.stagedAs_keeps x
  rw [kp, kc, kl, km, rd_of_regs kr, flag_of_regs kr, hc, hl, hm, hp, hb, hclaim]
  exact ⟨rfl, rfl, rfl, rfl, rfl, rfl⟩

/-! ### POWER -/

/-- The main side held off, with the lock freed. -/
def heldOff (m : Mod) : Mod := { m.freeLock with phase := { m.phase with held := true } }

theorem mainPower_off_eq (m : Mod) : m.mainPower false = m.heldOff.madeSafe.atStart := by
  unfold mainPower madeSafe heldOff
  rfl

theorem mainPower_off (m : Mod) : (m.mainPower false).phase.held = true ∧ (m.mainPower false).phase.spineUp = false ∧ (m.mainPower false).phase.sheepdogUp = false ∧
    (m.mainPower false).flag F.TWIN_STATUS_CLAIM = false := by
  have hrd := m.heldOff.restart_rd
  have hp := m.heldOff.restart_phase
  have hheld : m.heldOff.phase.held = true := rfl
  rw [mainPower_off_eq]
  generalize m.heldOff = x at hrd hp hheld ⊢
  obtain ⟨-, -, hclaim⟩ := hrd
  generalize x.madeSafe.atStart = y at hp hclaim ⊢
  rw [hp]
  exact ⟨hheld, rfl, rfl, hclaim⟩

/-! ### A region's reset -/

/-- A module without what a region's reset changes. -/
def unrunning (m : Mod) : Mod := { m.unplugged with cores := [], mx := [], lines := [] }

theorem stopped_of_rest (h : t.unrunning = m.unrunning) (hr : t.regs = m.regs) : Frame unrunning plugRegs m t := .of_regs h hr

theorem stopped_of_plugged (h : m.Plugged t) : Frame unrunning plugRegs m t := h.coarser (fun _ => rfl) fun _ h => h

/-- The region's reset begins, told from its record: its state shown, its phase. -/
def regionDown (m : Mod) (g : Nat) : Mod :=
  { m.wr (F.FLT_RGN_STATE_STATE g) 0 2 with rgnPhase := Tbl.set 0 m.rgnPhase g 1, rgnAct := Tbl.set 0 m.rgnAct g 0 }

/-- The requests of a core forgotten. -/
def withoutRequests (m : Mod) (c : Nat) : Mod := { m with req := m.req.filter (fun r => r.who != Requester.core c && r.who != Requester.coreStore c) }

/-- A core of the region stops. -/
def coreDown (m : Mod) (c : Nat) : Mod := ((m.l1Clear c).setCore c {}).withoutRequests c

/-- A die of the region stops. -/
def dieDown (m : Mod) (d : Nat) : Mod := m.iff (m.domOn (56 + d)) (fun m => m.isolateDie d)

/-- The cores, the engine, the links and the dies of the region stop. -/
def regionStops (m : Mod) (g : Nat) : Mod :=
  ((((((m.each (span (8 * g) 8) coreDown).setMxJob g none).lgStart (2 * g)).lgStart (2 * g + 1)).dieDown (2 * g)).dieDown (2 * g + 1))

theorem regionReset_eq (m : Mod) (g requester master : Nat) : m.regionReset g requester master = ((m.resetRecord 10 g requester master).regionDown g).regionStops g := by
  unfold regionReset
  generalize m.resetRecord 10 g requester master = x
  rfl

theorem stopped_dieDown (m : Mod) (d : Nat) : m.Plugged (m.dieDown d) := .iff _ (m.plugged_isolateDie d)

theorem stopped_setCore (m : Mod) (c : Nat) (k : Core) : Frame unrunning plugRegs m (m.setCore c k) := stopped_of_rest rfl rfl

theorem stopped_lines (m : Mod) (l : Tbl Line) : Frame unrunning plugRegs m { m with lines := l } := stopped_of_rest rfl rfl

theorem stopped_l1Clear (m : Mod) (c : Nat) : Frame unrunning plugRegs m (m.l1Clear c) := by
  have h := m.stopped_setCore c { m.core c with l1d := [], l1i := [] }
  unfold l1Clear
  dsimp only
  generalize m.setCore c _ = x at h ⊢
  exact h.trans (stopped_lines _ _)

theorem stopped_withoutRequests (m : Mod) (c : Nat) : Frame unrunning plugRegs m (m.withoutRequests c) := stopped_of_rest rfl rfl

theorem stopped_coreDown (m : Mod) (c : Nat) : Frame unrunning plugRegs m (m.coreDown c) :=
  ((m.stopped_l1Clear c).trans (stopped_setCore _ c {})).trans (stopped_withoutRequests _ c)

theorem stopped_setMxJob (m : Mod) (g : Nat) : Frame unrunning plugRegs m (m.setMxJob g none) := stopped_of_rest rfl rfl

theorem stopped_regionStops (m : Mod) (g : Nat) : Frame unrunning plugRegs m (m.regionStops g) := by
  have hcores : Frame unrunning plugRegs m (m.each (span (8 * g) 8) coreDown) := .each (fun x c => x.stopped_coreDown c) _ m
  unfold regionStops
  generalize m.each (span (8 * g) 8) coreDown = x at hcores ⊢
  have hjob := x.stopped_setMxJob g
  generalize x.setMxJob g none = y at hjob ⊢
  have hlinks := (y.plugged_lgStart (2 * g)).trans (plugged_lgStart _ (2 * g + 1))
  generalize (y.lgStart (2 * g)).lgStart (2 * g + 1) = z at hlinks ⊢
  exact (hcores.trans hjob).trans (stopped_of_plugged (hlinks.trans ((z.stopped_dieDown (2 * g)).trans (stopped_dieDown _ (2 * g + 1)))))

theorem rgnPhase_of_stopped (h : Frame unrunning plugRegs m t) : t.rgnPhase = m.rgnPhase := (congrArg Mod.rgnPhase h.rest :)

/-- The reset of a region as its state and phase show it. -/
theorem regionReset_shows (m : Mod) (g : RegionId) (requester master : Nat) : (m.regionReset g requester master).rd (F.FLT_RGN_STATE_STATE g) = 2 ∧
    Tbl.get 0 (m.regionReset g requester master).rgnPhase g = 1 := by
  rw [regionReset_eq]
  generalize m.resetRecord 10 g requester master = x
  have hs := (x.regionDown g).stopped_regionStops g
  have hphase : Tbl.get 0 (x.regionDown g).rgnPhase g = 1 := by
    rw [regionDown, Tbl.get_set_self]
  have hstate : (x.regionDown g).rd (F.FLT_RGN_STATE_STATE g) = 2 := by
    refine Eq.trans (rd_of_regs (m := x.wr (F.FLT_RGN_STATE_STATE g) 0 2) rfl _ _) ?_
    fin_cases g <;> exact rd_wr_self _ _ _ _ (by decide)
  generalize x.regionDown g = y at hs hphase hstate ⊢
  refine ⟨?_, ?_⟩
  · rw [hs.rd _ _ (by fin_cases g <;> decide)]
    exact hstate
  · rw [rgnPhase_of_stopped hs]
    exact hphase

/-! ### RESET of the side-band -/

theorem rgnDown_of_rgnPhase (h : t.rgnPhase = m.rgnPhase) (g : Nat) : t.rgnDown g = m.rgnDown g := by rw [rgnDown, rgnDown, h]

theorem requestReset_region (g : RegionId) (requester master : Nat) (h : m.rgnDown g = false) :
    m.requestReset 10 g requester master = m.regionReset g requester master := by
  have hin : m.inReset 10 g = false := h
  rw [requestReset, if_neg (by have := g.isLt; change ¬ g.val ≥ 4; omega), hin, if_neg Bool.false_ne_true, if_neg (by decide), if_pos rfl]

theorem requestReset_device (m : Mod) (requester master : Nat) : m.requestReset 11 0 requester master = m.deviceReset requester master := by
  have hin : m.inReset 11 0 = false := rfl
  rw [requestReset, if_neg (by decide), hin, if_neg Bool.false_ne_true, if_pos rfl]

end Mod

end Sys2Proof.Machine

/-!
What the messages of the side-band leave: HELLO, LOG_READ, TIME_SET, RELAY, FW_RECOVER (R402 to R407).
-/
namespace Sys2Proof.Machine

namespace Mod

variable {m n t : Mod}

theorem emit_head (m : Mod) (o : Out) : (m.emit o).sent.head? = some o := rfl

/-! ### HELLO, LOG_READ -/

theorem sessions_sessionEvent (m : Mod) : m.sessionEvent.goose.sessions = m.goose.sessions := by
  have h : m.Plugged m.sessionEvent := .iff _ (m.plugged_raise 249)
  exact h.sessions_eq

/-- A session added where there was none. -/
def helloed (m : Mod) (k : Nat) : Mod :=
  m.iff (!m.goose.sessions.contains k) (fun m => ({ m with goose := { m.goose with sessions := m.goose.sessions ++ [k] } }).sessionEvent)

theorem mem_helloed (m : Mod) (k : Nat) : k ∈ (m.helloed k).goose.sessions := by
  unfold helloed
  cases h : m.goose.sessions.contains k with
  | true =>
    rw [Bool.not_true, iff_false]
    exact List.contains_iff_mem.mp h
  | false =>
    rw [Bool.not_false, iff_true, sessions_sessionEvent]
    exact List.mem_append_right _ (List.mem_singleton.mpr rfl)

/-! ### The time set -/

theorem goose_of_unlocked (h : t.unlocked = n.unlocked) : t.goose.keeper = n.goose.keeper ∧ t.goose.invalid = n.goose.invalid :=
  ⟨(congrArg (fun x : Mod => x.goose.keeper) h :), (congrArg (fun x : Mod => x.goose.invalid) h :)⟩

theorem goose_setLocked (m : Mod) (b : Bool) : (m.setLocked b).goose.keeper = m.goose.keeper ∧ (m.setLocked b).goose.invalid = m.goose.invalid := by
  obtain ⟨hk, hi⟩ := goose_of_unlocked (m.setLocked_frame b).rest
  rw [hk, hi, put_goose]
  exact ⟨rfl, rfl⟩

theorem goose_stepped (m : Mod) (t : Nat) : ∃ n : Mod, m.stepTime t = n.iff (n.tbSrc ≠ 0) (fun m => m.setLocked false) ∧ n.goose = m.goose := by
  unfold stepTime
  dsimp only
  generalize wrapTo 64 ((t : Int) - m.now) = d
  generalize hx : ({ m with now := t, corr := 0, acc := 0, goodIv := 0, badIv := 0, skips := _, captured := _ } : Mod) = x
  have hg : x.goose = m.goose := by rw [← hx]
  exact ⟨_, rfl, by rw [put_goose, wr_goose, hg]⟩

theorem goose_stepTime (m : Mod) (t : Nat) : (m.stepTime t).goose.keeper = m.goose.keeper ∧ (m.stepTime t).goose.invalid = m.goose.invalid := by
  obtain ⟨n, hn, hg⟩ := m.goose_stepped t
  rw [hn, ← hg]
  cases decide (n.tbSrc ≠ 0) with
  | false =>
    rw [iff_false]
    exact ⟨rfl, rfl⟩
  | true =>
    rw [iff_true]
    exact n.goose_setLocked false

theorem goose_tbStep (m : Mod) (t : Nat) : (m.tbStep t).goose.keeper = m.goose.keeper ∧ (m.tbStep t).goose.invalid = m.goose.invalid := by
  unfold tbStep
  split
  · exact m.goose_stepTime t
  · rw [put_goose]
    exact ⟨rfl, rfl⟩

/-- The time keeper set. -/
def keeperSet (m : Mod) (t : Nat) : Mod := { m.put F.GOOSE_STATUS_TIME_INVALID 0 false with goose := { m.goose with keeper := t, invalid := false } }

theorem timeSet_eq (m : Mod) (sess seq t : Nat) : m.timeSet sess seq t = if m.noLock then (m.keeperSet t).sbReply sess 0x05 seq stOK
    else if m.flag F.TB_STATUS_LOCKED && m.tbSrc != 0 then (m.tbStep t).sbReply sess 0x05 seq stSTATE
    else ((m.keeperSet t).tbStep t).sbReply sess 0x05 seq stOK := rfl

theorem timeSet_noLock (sess seq t : Nat) (h : m.noLock = true) : (m.timeSet sess seq t).goose.keeper = t ∧ (m.timeSet sess seq t).goose.invalid = false ∧
    (m.timeSet sess seq t).now = m.now ∧ ∃ p, (m.timeSet sess seq t).sent.head? = some (.sideband sess 0x05 seq stOK p) := by
  rw [timeSet_eq, h, if_pos rfl]
  exact ⟨rfl, rfl, rfl, [], rfl⟩

theorem timeSet_kept (sess seq t : Nat) (h : m.noLock = false) (hk : (m.flag F.TB_STATUS_LOCKED && m.tbSrc != 0) = true) :
    (m.timeSet sess seq t).goose.keeper = m.goose.keeper ∧ ∃ p, (m.timeSet sess seq t).sent.head? = some (.sideband sess 0x05 seq stSTATE p) := by
  rw [timeSet_eq, h, if_neg Bool.false_ne_true, hk, if_pos rfl]
  exact ⟨(m.goose_tbStep t).1, [], rfl⟩

theorem timeSet_set (sess seq t : Nat) (h : m.noLock = false) (hk : (m.flag F.TB_STATUS_LOCKED && m.tbSrc != 0) = false) :
    (m.timeSet sess seq t).goose.keeper = t ∧ (m.timeSet sess seq t).goose.invalid = false ∧
      ∃ p, (m.timeSet sess seq t).sent.head? = some (.sideband sess 0x05 seq stOK p) := by
  rw [timeSet_eq, h, if_neg Bool.false_ne_true, hk, if_neg Bool.false_ne_true]
  obtain ⟨h1, h2⟩ := (m.keeperSet t).goose_tbStep t
  exact ⟨h1, h2, [], rfl⟩

/-! ### RELAY, SIG_READ -/

/-- The side-band's pair served last. -/
def servedLast (m : Mod) : Mod := { m with served := 4 }

theorem relay_nop {sess seq : Nat} {cmd pay : List Byte} {v : Verdict} (hst : m.rd F.MBX_STATE_STATE = 2 ∨ m.rd F.MBX_STATE_STATE = 3) (hr : m.relays = [])
    (hb : m.mayBegin 4 = true) (ht : m.turn 4 = true) (hl : m.twin.loss = none) (ho : (cmdOf 4 seq sess cmd pay).lc.opcode = 3)
    (hbar : m.barred (cmdOf 4 seq sess cmd pay) (moreFaults 3 m (cmdOf 4 seq sess cmd pay)) = none) :
    m.relay sess seq cmd pay v = m.servedLast.complete (cmdOf 4 seq sess cmd pay).lc { resp := (cmdOf 4 seq sess cmd pay).payload } := by
  have hnot : ¬(m.rd F.MBX_STATE_STATE ≠ 2 ∧ m.rd F.MBX_STATE_STATE ≠ 3) := by omega
  have hrel : m.relay sess seq cmd pay v = m.servedLast.runCmd (cmdOf 4 seq sess cmd pay) (moreFaults 3) (cmdBody 3 v) := by
    unfold relay
    dsimp only
    rw [if_neg hnot, ho, if_pos (by rw [hr, hb, ht, hl]; rfl), servedLast]
  rw [hrel]
  generalize cmdOf 4 seq sess cmd pay = c at ho hbar ⊢
  have hbar' : m.servedLast.barred c (moreFaults 3 m.servedLast c) = none := hbar
  rw [runCmd, hbar']
  rfl

theorem relay_waits {sess seq : Nat} {cmd pay : List Byte} {v : Verdict} (hst : m.rd F.MBX_STATE_STATE = 2 ∨ m.rd F.MBX_STATE_STATE = 3) (hr : m.relays ≠ []) :
    m.relay sess seq cmd pay v = { m with relays := m.relays ++ [⟨sess, seq, cmd, pay⟩] } := by
  unfold relay
  dsimp only
  have hnot : ¬(m.rd F.MBX_STATE_STATE ≠ 2 ∧ m.rd F.MBX_STATE_STATE ≠ 3) := by omega
  have he : m.relays.isEmpty = false := by simpa using hr
  rw [if_neg hnot, he, Bool.false_and, Bool.false_and, Bool.false_and, if_neg Bool.false_ne_true]

theorem relay_refused {sess seq : Nat} {cmd pay : List Byte} {v : Verdict} (h2 : m.rd F.MBX_STATE_STATE ≠ 2) (h3 : m.rd F.MBX_STATE_STATE ≠ 3) :
    m.relay sess seq cmd pay v = m.emit (.sideband sess 0x08 seq stSTATE []) := by
  unfold relay
  dsimp only
  rw [if_pos ⟨h2, h3⟩, sbReply]

theorem complete_sideband (m : Mod) (c : LongCmd) (e : List Byte) (hq : c.q = 5) :
    m.complete c { resp := e } = m.emit (.sideband c.sess 0x07 c.slot stOK e) := by
  unfold complete
  dsimp only
  rw [hq, if_neg (by decide), if_neg (by decide)]
  rfl

/-! ### FW_RECOVER -/

theorem rookReason_ne {min : Fld} {v : Verdict} {b : Bool} (h : m.rookReason min v b ≠ 0) : ∃ r, m.rookReason min v b = r + 1 := ⟨_, (Nat.succ_pred h).symm⟩

theorem rookRefuse_shows (m : Mod) (k : Nat) (hk : k < 2 ^ F.ROOK_ALERT_REASON.width) : (m.rookRefuse k).flag F.ROOK_ALERT_VERIFY_FAIL = true ∧
    (m.rookRefuse k).rd F.ROOK_ALERT_REASON = k ∧ (m.rookRefuse k).rook = m.rook := by
  unfold rookRefuse
  have hp := ((m.put F.ROOK_ALERT_VERIFY_FAIL 0 true).wr F.ROOK_ALERT_REASON 0 k).plugged_raise 246
  rw [hp.flag _ _ (by decide), hp.rd _ _ (by decide), hp.rook_eq, flag_wr_of_apart _ _ _ _ (by decide), flag_put_self _ _ _ _ (by decide) rfl,
    rd_wr_self _ _ _ _ (by decide), wr_rook, put_rook]
  exact ⟨rfl, Nat.mod_eq_of_lt hk, rfl⟩

theorem fwIdle_setFwIdle (m : Mod) (x : FwSlot) : (m.setFwIdle x).fwIdle = x := by
  unfold setFwIdle fwIdle
  cases h : m.runB <;> simp

end Mod

end Sys2Proof.Machine

/-!
Debug's authorisation and accesses (R414); what the Rook's lifecycle arrows leave (R410).
-/
namespace Sys2Proof.Machine

namespace Mod

variable {m n t : Mod}

/-! ### Challenges and tokens -/

theorem frame_each_wr {R : List Reg} (f : Fld) (v : Nat → Nat) (hf : f.reg ∈ R) (l : List Nat) (m : Mod) :
    Frame unregistered R m (m.each l fun m n => m.wr f n (v n)) := .each (fun x n => x.frame_reg_wr f n (v n) hf) l m

theorem rook_of_unregistered (h : t.unregistered = m.unregistered) : t.rook = m.rook ∧ t.freeCtr = m.freeCtr :=
  ⟨(congrArg Mod.rook h :), (congrArg Mod.freeCtr h :)⟩

theorem newChallenge_shows (m : Mod) : m.newChallenge.rook.chal.isSome = true ∧ m.newChallenge.freeCtr = m.freeCtr + 1 := by
  have hwritten : ∀ (x : Mod) (c : Nat), (x.each (upTo 4) fun m n => m.wr F.ROOK_DBG_CHAL_CHAL n (bitsOf c (32 * n) 32)).rook = x.rook ∧
      (x.each (upTo 4) fun m n => m.wr F.ROOK_DBG_CHAL_CHAL n (bitsOf c (32 * n) 32)).freeCtr = x.freeCtr := fun x c =>
    rook_of_unregistered (frame_each_wr (R := [Reg.ROOK_DBG_CHAL]) F.ROOK_DBG_CHAL_CHAL (fun n => bitsOf c (32 * n) 32) (by decide) (upTo 4) x).rest
  unfold newChallenge
  dsimp only [fresh]
  rw [(hwritten _ _).1, (hwritten _ _).2]
  exact ⟨rfl, rfl⟩

theorem setScope_shows (m : Mod) (v : Nat) (hv : v < 2 ^ F.ROOK_DBG_SCOPE.width) : (m.setScope v).rd F.ROOK_DBG_SCOPE = v ∧ (m.setScope v).rook = m.rook ∧
    (m.setScope v).mono = m.mono := by
  unfold setScope
  split
  · exact ⟨‹_›, rfl, rfl⟩
  · have hp := (m.wr F.ROOK_DBG_SCOPE 0 v).plugged_raise 250
    rw [hp.rd _ _ (by decide), hp.rook_eq, hp.mono_eq, rd_wr_self _ _ _ _ (by decide), wr_rook, wr_mono]
    exact ⟨Nat.mod_eq_of_lt hv, rfl, rfl⟩

theorem rd_setScope_of_apart (m : Mod) (v : Nat) (f : Fld) (i : Nat) (hf : f.reg ∉ plugRegs) (ha : F.ROOK_DBG_SCOPE.Apart f) :
    (m.setScope v).rd f i = m.rd f i := by
  unfold setScope
  split
  · rfl
  · rw [((m.wr F.ROOK_DBG_SCOPE 0 v).plugged_raise 250).rd _ _ hf, rd_wr_of_apart _ _ _ _ ha]

/-- A token uses up its challenge; a good one sets the scope to its end, a bad one is shown. -/
theorem debugToken_shows (m : Mod) (tok : DbgToken) : (m.debugToken tok).rook.chal = none ∧
    (m.tokenGood tok = true → (m.debugToken tok).rd F.ROOK_DBG_SCOPE = tok.scope.toNat ∧
      (m.debugToken tok).rook.dbgEnd = some (m.mono + tok.seconds.toNat * 1000000000)) ∧
    (m.tokenGood tok = false → (m.debugToken tok).flag F.ROOK_ALERT_DBG_REFUSED = true ∧ (m.debugToken tok).rd F.ROOK_DBG_SCOPE = m.rd F.ROOK_DBG_SCOPE ∧
      (m.debugToken tok).rook.dbgEnd = m.rook.dbgEnd) := by
  unfold debugToken
  dsimp only
  cases hg : m.tokenGood tok with
  | true =>
    rw [if_pos rfl]
    generalize hx : ({ m with rook := _ } : Mod) = x
    have hr : x.rook.chal = none ∧ x.rook.dbgEnd = some (m.mono + tok.seconds.toNat * 1000000000) := by rw [← hx]; exact ⟨rfl, rfl⟩
    obtain ⟨h1, h2, -⟩ := x.setScope_shows tok.scope.toNat tok.scope.isLt
    rw [h1, h2]
    exact ⟨hr.1, fun _ => ⟨rfl, hr.2⟩, fun h => absurd h (by decide)⟩
  | false =>
    rw [if_neg Bool.false_ne_true]
    generalize hx : ({ m with rook := _ } : Mod) = x
    have hr : x.rook.chal = none ∧ x.rook.dbgEnd = m.rook.dbgEnd ∧ x.regs = m.regs := by rw [← hx]; exact ⟨rfl, rfl, rfl⟩
    have hp := (x.put F.ROOK_ALERT_DBG_REFUSED 0 true).plugged_raise 247
    rw [hp.rook_eq, hp.flag _ _ (by decide), hp.rd _ _ (by decide), flag_put_self _ _ _ _ (by decide) rfl, rd_put_of_apart _ _ _ _ (by decide), put_rook,
      rd_of_regs hr.2.2]
    exact ⟨hr.1, fun h => absurd h (by decide), fun _ => ⟨rfl, rfl, hr.2.1⟩⟩

theorem dbgOver_shows (m : Mod) : m.dbgOver.rd F.ROOK_DBG_SCOPE = 0 ∧ m.dbgOver.rook.dbgEnd = none ∧ m.dbgOver.mono = m.mono ∧
    m.dbgOver.rook.life = m.rook.life := by
  unfold dbgOver
  generalize hx : ({ m with rook := _ } : Mod) = x
  have hr : x.rook.dbgEnd = none ∧ x.mono = m.mono ∧ x.rook.life = m.rook.life := by rw [← hx]; exact ⟨rfl, rfl, rfl⟩
  obtain ⟨h1, h2, h3⟩ := x.setScope_shows 0 (by decide)
  rw [h1, h2, h3]
  exact ⟨rfl, hr⟩

/-! ### Accesses -/

theorem dbgRefuse_shows (m : Mod) : m.dbgRefuse.sent.head? = some (.debug [] true) ∧ m.dbgRefuse.cores = m.cores ∧ m.dbgRefuse.mem = m.mem := by
  have hc := (m.plugged_raise 251).cores_eq
  have hm : (m.raise 251).mem = m.mem := (m.told_raise 251).mem_eq
  unfold dbgRefuse
  generalize m.raise 251 = x at hc hm
  exact ⟨rfl, hc, hm⟩

theorem dbgCore_on (c : Nat) (f : Core → Core) (h : m.rd F.ROOK_DBG_SCOPE = 2) : m.dbgCore c f = (m.setCore c (f (m.core c))).emit (.debug [] false) := by
  rw [dbgCore, if_pos h]

theorem dbgCore_off (c : Nat) (f : Core → Core) (h : m.rd F.ROOK_DBG_SCOPE ≠ 2) : m.dbgCore c f = m.dbgRefuse := by
  rw [dbgCore, if_neg h]

/-! ### Lifecycle -/

/-- A field of many instances written at each of a list. -/
theorem rd_each_wr (f : Fld) (v : Nat → Nat) (hf : f.lo + f.width ≤ 64) {x : Nat} : ∀ (l : List Nat) (m : Mod), x ∈ l ∨ m.rd f x = v x % 2 ^ f.width →
    (m.each l fun m n => m.wr f n (v n)).rd f x = v x % 2 ^ f.width
  | [], _, h => h.elim (fun hx => absurd hx List.not_mem_nil) id
  | k :: l, m, h => by
    refine rd_each_wr f v hf l (m.wr f k (v k)) ?_
    by_cases hk : x = k
    · exact .inr (hk ▸ rd_wr_self m f x (v x) hf)
    · obtain hx | hx := h
      · exact .inl ((List.mem_cons.mp hx).resolve_left hk)
      · exact .inr ((rd_wr_reg m f f k x _ fun e => hk e.2).trans hx)

/-- The owner's digest written, or zeroed. -/
def digestSet (m : Mod) (owner : Nat) (on : Bool) : Mod :=
  m.each (upTo 8) (fun m n => m.wr F.ROOK_OWNER_DIGEST n (if on then bitsOf owner (32 * n) 32 else 0))

theorem digestSet_frame (m : Mod) (owner : Nat) (on : Bool) : Frame unregistered [Reg.ROOK_OWNER] m (m.digestSet owner on) :=
  frame_each_wr F.ROOK_OWNER_DIGEST (fun n => if on then bitsOf owner (32 * n) 32 else 0) (by decide) (upTo 8) m

theorem digestSet_rd (m : Mod) (owner : Nat) (on : Bool) {x : Nat} (hx : x < 8) :
    (m.digestSet owner on).rd F.ROOK_OWNER_DIGEST x = if on then bitsOf owner (32 * x) 32 else 0 := by
  rw [digestSet, rd_each_wr F.ROOK_OWNER_DIGEST (fun n => if on then bitsOf owner (32 * n) 32 else 0) (by decide) (upTo 8) m (.inl (List.mem_range.mpr hx))]
  split
  · exact Nat.mod_eq_of_lt (bitsOf_lt _ _ _)
  · rfl

/-- The trust anchor of the owner's clients, with OWNER. -/
def anchored (m : Mod) (on : Bool) : Mod := { m.put F.ROOK_STATUS_OWNER 0 on with rook := { m.rook with anchor := on } }

theorem anchored_shows (m : Mod) (on : Bool) : (m.anchored on).regs = (m.put F.ROOK_STATUS_OWNER 0 on).regs ∧ (m.anchored on).rook.life = m.rook.life :=
  ⟨rfl, rfl⟩

theorem setOwner_eq (m : Mod) (owner : Nat) (on : Bool) : m.setOwner owner on = (m.digestSet owner on).anchored on := rfl

theorem setOwner_shows (m : Mod) (owner : Nat) (on : Bool) : (m.setOwner owner on).flag F.ROOK_STATUS_OWNER = on ∧
    (∀ x, x < 8 → (m.setOwner owner on).rd F.ROOK_OWNER_DIGEST x = if on then bitsOf owner (32 * x) 32 else 0) ∧
    (m.setOwner owner on).rook.life = m.rook.life ∧ (m.setOwner owner on).rd F.ROOK_STATUS_LIFECYCLE = m.rd F.ROOK_STATUS_LIFECYCLE ∧
    (m.setOwner owner on).rd F.ROOK_DBG_SCOPE = m.rd F.ROOK_DBG_SCOPE := by
  have hrd := fun x (hx : x < 8) => m.digestSet_rd owner on hx
  have hf := m.digestSet_frame owner on
  rw [setOwner_eq]
  generalize m.digestSet owner on = y at hrd hf ⊢
  obtain ⟨hregs, hlife⟩ := y.anchored_shows on
  rw [hlife, (rook_of_unregistered hf.rest).1, flag_of_regs hregs, rd_of_regs hregs, rd_of_regs hregs, flag_put_self _ _ _ _ (by decide) rfl,
    rd_put_of_apart _ _ _ _ (by decide), rd_put_of_apart _ _ _ _ (by decide), hf.rd _ _ (by decide), hf.rd _ _ (by decide)]
  refine ⟨rfl, fun x hx => ?_, rfl, rfl, rfl⟩
  rw [rd_of_regs hregs, rd_put_of_apart _ _ _ _ (by decide), hrd x hx]

end Mod

end Sys2Proof.Machine

/-!
Lifecycle arrows: what RETURNED erases, and a decommissioned module (R410).
-/
namespace Sys2Proof.Machine

namespace Mod

variable {m n t : Mod}

/-! ### RETURNED -/

/-- A module without what RETURNED erases. -/
def unerased (m : Mod) : Mod :=
  { m.unregistered with mem := [], tags := [], spoiled := [], dramPoison := [], lines := [], plru := [], side := [], victims := [], held := [], cfg := {},
                        staged := [], stageImage := false, fwdStage := [], vlanStage := [] }

/-- The registers that RETURNED clears. -/
def eraseRegs : List Reg := [.CFG_STATUS, .CFG_MOVE_STAGED, .CFG_MOVE_SETTLED, .CFG_MOVE_PROB, .CFG_PROB_END, .CFG_SLOT_STATE, .CFG_SLOT_MOVE]

abbrev Erased (m t : Mod) : Prop := Frame unerased eraseRegs m t

theorem erased_of_rest (h : t.unerased = m.unerased) (hr : t.regs = m.regs) : m.Erased t := .of_regs h hr

theorem erased_wr (m : Mod) (f : Fld) (i v : Nat) (h : f.reg ∈ eraseRegs) : m.Erased (m.wr f i v) :=
  ⟨rfl, fun _ _ hr => reg_setReg_ne m _ fun e => hr (e.1 ▸ h)⟩

theorem erased_setReg (m : Mod) (r : Reg) (i v : Nat) (h : r ∈ eraseRegs) : m.Erased (m.setReg r i v) :=
  ⟨rfl, fun _ _ hr => reg_setReg_ne m _ fun e => hr (e.1 ▸ h)⟩

theorem erased_cfg (m : Mod) (x : Cfg) : m.Erased { m with cfg := x } := erased_of_rest rfl rfl
theorem erased_zeroRange (m : Mod) (a n : Nat) : m.Erased (m.zeroRange a n) := erased_of_rest rfl rfl
theorem erased_unstage (m : Mod) : m.Erased m.unstage := erased_of_rest rfl rfl

theorem erased_slotClear (m : Mod) (k : Nat) : m.Erased (m.slotClear k) :=
  ((m.erased_setReg _ _ _ (by decide)).trans (erased_setReg _ _ _ _ (by decide))).trans (erased_cfg _ _)

theorem erased_probClear (m : Mod) : m.Erased m.probClear :=
  (((m.erased_wr _ _ _ (by decide)).trans (erased_wr _ _ _ _ (by decide))).trans (erased_wr _ _ _ _ (by decide))).trans (erased_cfg _ _)

/-- The caches and poison of memory gone. -/
def framesOnly (m : Mod) : Mod := { m with dramPoison := [], lines := [], plru := [], side := [], victims := [], held := [] }

/-- DRAM, scratch and the slots erased. -/
def memoryErased (m : Mod) : Mod :=
  (((m.zeroRange 0 dramTop).framesOnly.each (upTo 4) fun m g => m.zeroRange (rgnScratch g) 0x400000).each (upTo 32) fun m c => m.zeroRange (coreScratch c) 0x20000)

/-- No move staged, none settled. -/
def movesCleared (m : Mod) : Mod :=
  (((m.put F.CFG_STATUS_STAGED 0 false).wr F.CFG_MOVE_STAGED_MOVE 0 0).put F.CFG_STATUS_SETTLED 0 false).wr F.CFG_MOVE_SETTLED_MOVE 0 0

/-- The history and the stagings forgotten. -/
def historyCleared (m : Mod) : Mod := { m with cfg := { m.cfg with history := [], staging := [], stagingRefused := none, ownStage := false } }

theorem eraseAll_eq (m : Mod) : m.eraseAll = (m.memoryErased.probClear.unstage.each (upTo 8) slotClear).movesCleared.historyCleared := by
  unfold eraseAll memoryErased framesOnly
  extract_lets src a b c d e
  have he : e = (c.probClear.unstage.each (upTo 8) slotClear).movesCleared := rfl
  rw [historyCleared, ← he]

theorem erased_framesOnly (m : Mod) : m.Erased m.framesOnly := erased_of_rest rfl rfl

theorem erased_memoryErased (m : Mod) : m.Erased m.memoryErased :=
  (((m.erased_zeroRange 0 dramTop).trans (erased_framesOnly _)).trans (.each (fun x _ => x.erased_zeroRange _ _) _ _)).trans
    (.each (fun x _ => x.erased_zeroRange _ _) _ _)

theorem erased_movesCleared (m : Mod) : m.Erased m.movesCleared :=
  (((m.erased_wr _ _ _ (by decide)).trans (erased_wr _ _ _ _ (by decide))).trans (erased_wr _ _ _ _ (by decide))).trans (erased_wr _ _ _ _ (by decide))

theorem erased_historyCleared (m : Mod) : m.Erased m.historyCleared := erased_cfg _ _

theorem slotState_slotClear (m : Mod) (k x : Nat) : (m.slotClear k).slotState x = if x = k then 0 else m.slotState x := by
  unfold slotClear slotState rd
  dsimp only
  generalize hy : (m.setReg .CFG_SLOT_STATE k 0).setReg .CFG_SLOT_MOVE k 0 = y
  have hreg : y.reg .CFG_SLOT_STATE x = if x = k then 0 else m.reg .CFG_SLOT_STATE x := by
    rw [← hy, reg_setReg_ne _ _ fun e => absurd e.1 (by decide)]
    split
    · next h => rw [h, reg_setReg_self]; rfl
    · next h => exact reg_setReg_ne m _ fun e => h e.2
  generalize hz : ({ y with cfg := _ } : Mod) = z
  have hzr : z.regs = y.regs := by rw [← hz]
  rw [reg_of_regs hzr]
  change bitsOf (y.reg .CFG_SLOT_STATE x) _ _ = _
  rw [hreg]
  split <;> rfl

/-- The slots of an erased module. -/
theorem slotState_eraseAll (m : Mod) {x : Nat} (hx : x < 8) : m.eraseAll.slotState x = 0 := by
  have hslots : (m.memoryErased.probClear.unstage.each (upTo 8) slotClear).slotState x = 0 := by
    refine each_reaches (I := fun _ => True) (Q := fun t : Mod => t.slotState x = 0) (j := x) (fun _ _ _ => trivial) (fun t _ => ?_) (fun t k hk _ h => ?_)
      (List.mem_range.mpr hx) trivial
    · rw [slotState_slotClear, if_pos rfl]
    · rw [slotState_slotClear, if_neg (Ne.symm hk)]
      exact h
  rw [eraseAll_eq]
  generalize m.memoryErased.probClear.unstage.each (upTo 8) slotClear = y at hslots ⊢
  have hmoves : y.movesCleared.slotState x = y.slotState x := by
    unfold movesCleared slotState
    rw [rd_wr_of_apart _ _ _ _ (by decide), rd_put_of_apart _ _ _ _ (by decide), rd_wr_of_apart _ _ _ _ (by decide), rd_put_of_apart _ _ _ _ (by decide)]
  have hregs : ∀ z : Mod, z.historyCleared.slotState x = z.slotState x := fun _ => rfl
  rw [hregs, hmoves, hslots]

theorem erased_eraseAll (m : Mod) : m.Erased m.eraseAll := by
  rw [eraseAll_eq]
  exact ((((m.erased_memoryErased.trans (erased_probClear _)).trans (erased_unstage _)).trans (.each (fun x k => x.erased_slotClear k) _ _)).trans
    (erased_movesCleared _)).trans (erased_historyCleared _)

/-! ### DECOMMISSIONED -/

theorem rookFails_shows (m : Mod) : m.rookFails.rd F.ROOK_STATUS_BOOT = 7 ∧ m.rookFails.phase.spineUp = false ∧ m.rookFails.rook = m.rook ∧
    m.rookFails.rd F.ROOK_STATUS_LIFECYCLE = m.rd F.ROOK_STATUS_LIFECYCLE ∧ m.rookFails.rd F.ROOK_DBG_SCOPE = m.rd F.ROOK_DBG_SCOPE := by
  have hf := m.relocked_freeLock false
  have hb : (m.freeLock false).rd F.ROOK_STATUS_LIFECYCLE = m.rd F.ROOK_STATUS_LIFECYCLE := (hf.rd _ _ (by decide)).trans rfl
  have hs : (m.freeLock false).rd F.ROOK_DBG_SCOPE = m.rd F.ROOK_DBG_SCOPE := (hf.rd _ _ (by decide)).trans rfl
  have hr : (m.freeLock false).rook = m.rook := (congrArg Mod.rook hf.rest :)
  unfold rookFails
  generalize m.freeLock false = x at hb hs hr ⊢
  generalize hw : x.wr F.ROOK_STATUS_BOOT 0 7 = w
  have hwb : w.rd F.ROOK_STATUS_BOOT = 7 := by rw [← hw]; exact rd_wr_self _ _ _ _ (by decide)
  have hwl : w.rd F.ROOK_STATUS_LIFECYCLE = m.rd F.ROOK_STATUS_LIFECYCLE := by rw [← hw, rd_wr_of_apart _ _ _ _ (by decide), hb]
  have hws : w.rd F.ROOK_DBG_SCOPE = m.rd F.ROOK_DBG_SCOPE := by rw [← hw, rd_wr_of_apart _ _ _ _ (by decide), hs]
  have hwr : w.rook = m.rook := by rw [← hw, wr_rook, hr]
  exact ⟨hwb, rfl, hwr, hwl, hws⟩

theorem decommission_eq (m : Mod) : m.decommission = m.freeLock.madeSafe.atStart.rookFails := rfl

theorem decommission_shows (m : Mod) : m.decommission.rd F.ROOK_STATUS_BOOT = 7 ∧ m.decommission.phase.spineUp = false ∧
    m.decommission.rook.life = m.rook.life ∧ m.decommission.rd F.ROOK_STATUS_LIFECYCLE = lifeCode m.rook.life ∧ m.decommission.rd F.ROOK_DBG_SCOPE = 0 := by
  have hf : (m.freeLock false).rook = m.rook := (congrArg Mod.rook (m.relocked_freeLock false).rest :)
  rw [decommission_eq]
  generalize m.freeLock false = x at hf ⊢
  obtain ⟨h1, h2, h3, h4, h5⟩ := x.madeSafe.atStart.rookFails_shows
  obtain ⟨-, -, -, -, hlife, -, -⟩ := x.madeSafe.atStart_rest
  obtain ⟨-, hcode, -⟩ := x.restart_rd
  rw [h1, h2, h3, h4, h5, hlife, hcode, x.plugged_madeSafe.rook_eq, hf]
  refine ⟨rfl, rfl, rfl, rfl, ?_⟩
  rw [rd, reg_atStart _ _ _ (by decide) (by decide)]
  decide

/-! ### The arrows -/

/-- A lifecycle with its code shown, the links' keys gone and debug over. -/
def lifeSet (m : Mod) (dest : Lifecycle) : Mod :=
  ({ m with rook := { m.rook with life := dest } }.wr F.ROOK_STATUS_LIFECYCLE 0 (lifeCode dest)).linkKeysErase.dbgOver

theorem plugged_linkKeysErase (m : Mod) : m.Plugged m.linkKeysErase := .each (fun x l => x.plugged_linkStart l) _ m

theorem lifeSet_shows (m : Mod) (dest : Lifecycle) : (m.lifeSet dest).rook.life = dest ∧ (m.lifeSet dest).rd F.ROOK_STATUS_LIFECYCLE = lifeCode dest ∧
    (m.lifeSet dest).rd F.ROOK_DBG_SCOPE = 0 := by
  have hcode : lifeCode dest < 2 ^ F.ROOK_STATUS_LIFECYCLE.width := by cases dest <;> decide
  unfold lifeSet
  generalize hx : ({ m with rook := _ } : Mod) = x
  have hr : x.rook.life = dest := by rw [← hx]
  have hl : (x.wr F.ROOK_STATUS_LIFECYCLE 0 (lifeCode dest)).rd F.ROOK_STATUS_LIFECYCLE = lifeCode dest :=
    (rd_wr_self _ _ _ _ (by decide)).trans (Nat.mod_eq_of_lt hcode)
  have hy : (x.wr F.ROOK_STATUS_LIFECYCLE 0 (lifeCode dest)).rook.life = dest := by rw [wr_rook, hr]
  generalize x.wr F.ROOK_STATUS_LIFECYCLE 0 (lifeCode dest) = y at hl hy ⊢
  have hp := y.plugged_linkKeysErase
  rw [← hp.rook_eq] at hy
  rw [← hp.rd _ _ (by decide)] at hl
  generalize y.linkKeysErase = z at hl hy ⊢
  obtain ⟨h1, -, -, h4⟩ := z.dbgOver_shows
  refine ⟨h4.trans hy, ?_, h1⟩
  rw [dbgOver, rd_setScope_of_apart _ _ _ _ (by decide) (by decide)]
  exact hl

end Mod

end Sys2Proof.Machine

/-!
The Goose and the Rook at the side-band: O54.
-/
namespace Sys2Proof.Machine

namespace Mod

variable {m n t : Mod}

theorem lifeMove_owned (m : Mod) (owner : Nat) : m.lifeMove .owned owner = (m.lifeSet .owned).setOwner owner true := rfl
theorem lifeMove_provisioned (m : Mod) (owner : Nat) : m.lifeMove .provisioned owner = (m.lifeSet .provisioned).setOwner 0 false := rfl
theorem lifeMove_returned (m : Mod) (owner : Nat) : m.lifeMove .returned owner = ((m.lifeSet .returned).setOwner 0 false).eraseAll := rfl
theorem lifeMove_decommissioned (m : Mod) (owner : Nat) : m.lifeMove .decommissioned owner = (m.lifeSet .decommissioned).decommission := rfl

theorem rook_of_erased (h : m.Erased t) : t.rook = m.rook := (congrArg Mod.rook h.rest :)

/-- What a lifecycle arrow shows of itself and of the owner. -/
def Moved (t : Mod) (dest : Lifecycle) (owner : Nat) : Prop :=
  t.rook.life = dest ∧ t.rd F.ROOK_STATUS_LIFECYCLE = lifeCode dest ∧ t.rd F.ROOK_DBG_SCOPE = 0 ∧ t.flag F.ROOK_STATUS_OWNER = (dest == .owned) ∧
    ∀ x, x < 8 → t.rd F.ROOK_OWNER_DIGEST x = if dest = .owned then bitsOf owner (32 * x) 32 else 0

/-- An owner enrolled, or gone, after a lifecycle was set. -/
theorem moved_setOwner (m : Mod) (dest : Lifecycle) (owner : Nat) (on : Bool) (h : on = (dest == .owned)) : ((m.lifeSet dest).setOwner owner on).Moved dest owner := by
  obtain ⟨hl, hc, hs⟩ := m.lifeSet_shows dest
  obtain ⟨ho, hx, h1, h2, h3⟩ := (m.lifeSet dest).setOwner_shows owner on
  refine ⟨h1.trans hl, h2.trans hc, h3.trans hs, ho.trans h, fun x hlt => (hx x hlt).trans ?_⟩
  rw [h]
  simp only [beq_iff_eq]

theorem moved_erased (h : m.Erased t) {dest : Lifecycle} {owner : Nat} (hm : m.Moved dest owner) : t.Moved dest owner := by
  obtain ⟨hl, hc, hs, ho, hx⟩ := hm
  refine ⟨?_, (h.rd _ _ (by decide)).trans hc, (h.rd _ _ (by decide)).trans hs, (h.flag _ _ (by decide)).trans ho, fun x hlt => (h.rd _ _ (by decide)).trans (hx x hlt)⟩
  rw [rook_of_erased h]
  exact hl

theorem Moved.zero {dest : Lifecycle} (h : dest ≠ .owned) (owner : Nat) (hm : t.Moved dest 0) : t.Moved dest owner := by
  obtain ⟨hl, hc, hs, ho, hx⟩ := hm
  refine ⟨hl, hc, hs, ho, fun x hlt => (hx x hlt).trans ?_⟩
  rw [if_neg h, if_neg h]

/-- What a lifecycle arrow leaves. -/
theorem lifeMove_shows (m : Mod) (dest : Lifecycle) (owner : Nat) : (m.lifeMove dest owner).rook.life = dest ∧
    (m.lifeMove dest owner).rd F.ROOK_STATUS_LIFECYCLE = lifeCode dest ∧ (m.lifeMove dest owner).rd F.ROOK_DBG_SCOPE = 0 ∧
    (dest ≠ .decommissioned → (m.lifeMove dest owner).flag F.ROOK_STATUS_OWNER = (dest == .owned) ∧
      ∀ x, x < 8 → (m.lifeMove dest owner).rd F.ROOK_OWNER_DIGEST x = if dest = .owned then bitsOf owner (32 * x) 32 else 0) ∧
    (dest = .returned → ∀ x, x < 8 → (m.lifeMove dest owner).slotState x = 0) ∧
    (dest = .decommissioned → (m.lifeMove dest owner).rd F.ROOK_STATUS_BOOT = 7 ∧ (m.lifeMove dest owner).phase.spineUp = false) := by
  have hmoved : ∀ t : Mod, t.Moved dest owner → dest ≠ .returned → dest ≠ .decommissioned → t.rook.life = dest ∧
      t.rd F.ROOK_STATUS_LIFECYCLE = lifeCode dest ∧ t.rd F.ROOK_DBG_SCOPE = 0 ∧
      (dest ≠ .decommissioned → t.flag F.ROOK_STATUS_OWNER = (dest == .owned) ∧
        ∀ x, x < 8 → t.rd F.ROOK_OWNER_DIGEST x = if dest = .owned then bitsOf owner (32 * x) 32 else 0) ∧
      (dest = .returned → ∀ x, x < 8 → t.slotState x = 0) ∧
      (dest = .decommissioned → t.rd F.ROOK_STATUS_BOOT = 7 ∧ t.phase.spineUp = false) := fun t ⟨hl, hc, hs, ho, hx⟩ hr hd =>
    ⟨hl, hc, hs, fun _ => ⟨ho, hx⟩, fun h => absurd h hr, fun h => absurd h hd⟩
  cases dest with
  | owned =>
    rw [lifeMove_owned]
    exact hmoved _ (m.moved_setOwner _ _ _ rfl) (by decide) (by decide)
  | provisioned =>
    rw [lifeMove_provisioned]
    exact hmoved _ (.zero (by decide) _ (m.moved_setOwner _ _ _ rfl)) (by decide) (by decide)
  | returned =>
    rw [lifeMove_returned]
    have hm : ((m.lifeSet .returned).setOwner 0 false).eraseAll.Moved .returned owner :=
      moved_erased (erased_eraseAll _) (.zero (by decide) _ (m.moved_setOwner _ _ _ rfl))
    obtain ⟨hl, hc, hs, ho, hx⟩ := hm
    exact ⟨hl, hc, hs, fun _ => ⟨ho, hx⟩, fun _ x hlt => slotState_eraseAll _ hlt, fun h => absurd h (by decide)⟩
  | decommissioned =>
    rw [lifeMove_decommissioned]
    obtain ⟨hb, hu, hl, hc, hs⟩ := (m.lifeSet .decommissioned).decommission_shows
    have hlife := (m.lifeSet_shows .decommissioned).1
    rw [hlife] at hl hc
    exact ⟨hl, hc, hs, fun h => absurd rfl h, fun h => absurd h (by decide), fun _ => ⟨hb, hu⟩⟩

/-! ### FW_RECOVER -/

theorem fwRecover_refused (sess seq : Nat) (image : List Byte) (v : Verdict) (h : m.rd F.MBX_STATE_STATE ≠ 4) :
    m.fwRecover sess seq image v = m.emit (.sideband sess 0x0B seq stSTATE []) := by
  rw [fwRecover, if_pos h, sbReply]

theorem fwRecover_bad (sess seq : Nat) (image : List Byte) (v : Verdict) (h : m.rd F.MBX_STATE_STATE = 4) (hr : m.rookReason F.ROOK_SVN_SHEEPDOG v true ≠ 0) :
    (m.fwRecover sess seq image v).flag F.ROOK_ALERT_VERIFY_FAIL = true ∧
      ∃ p, (m.fwRecover sess seq image v).sent.head? = some (.sideband sess 0x0B seq stVERIFY p) := by
  have hlt : m.rookReason F.ROOK_SVN_SHEEPDOG v true < 2 ^ F.ROOK_ALERT_REASON.width := by
    unfold rookReason
    split
    · decide
    · split <;> decide
  obtain ⟨r, hk⟩ := rookReason_ne hr
  rw [fwRecover, if_neg (fun e => e h), hk]
  rw [hk] at hlt
  dsimp only
  obtain ⟨hf, -, -⟩ := m.rookRefuse_shows (r + 1) hlt
  exact ⟨hf, leBytes 4 (r + 1), rfl⟩

/-- The image put in the idle slot, its version the new minimum. -/
def fwStored (m : Mod) (image : List Byte) (v : Verdict) : Mod :=
  (m.rookAccept F.ROOK_SVN_SHEEPDOG v).setFwIdle ⟨.trial, (Config.fwVersion image).toNat, v.version.toNat, v.digest.toNat, image⟩

theorem phase_setFwIdle (m : Mod) (x : FwSlot) : (m.setFwIdle x).phase = m.phase := by
  unfold setFwIdle
  split <;> rfl

theorem fwStored_shows (m : Mod) (image : List Byte) (v : Verdict) : (m.fwStored image v).phase = m.phase ∧
    (m.fwStored image v).fwIdle = ⟨.trial, (Config.fwVersion image).toNat, v.version.toNat, v.digest.toNat, image⟩ := by
  unfold fwStored
  rw [phase_setFwIdle, fwIdle_setFwIdle, rookAccept, wr_phase]
  exact ⟨rfl, rfl⟩

theorem fwRecover_good (sess seq : Nat) (image : List Byte) (v : Verdict) (h : m.rd F.MBX_STATE_STATE = 4) (hr : m.rookReason F.ROOK_SVN_SHEEPDOG v true = 0)
    (hd : m.phase.sheepdogUp = false) : m.fwRecover sess seq image v = ((m.fwStored image v).sbReply sess 0x0B seq stOK).wr F.ROOK_STATUS_BOOT 0 2 := by
  have hp := (m.fwStored_shows image v).1
  rw [fwRecover, if_neg (fun e => e h), hr]
  dsimp only
  unfold fwStored at hp ⊢
  generalize (m.rookAccept F.ROOK_SVN_SHEEPDOG v).setFwIdle ⟨.trial, (Config.fwVersion image).toNat, v.version.toNat, v.digest.toNat, image⟩ = x at hp ⊢
  have hx : (x.sbReply sess 0x0B seq stOK).phase = x.phase := rfl
  rw [hx, hp, hd, if_neg Bool.false_ne_true]
  rfl

theorem fwRecover_good_shows (sess seq : Nat) (image : List Byte) (v : Verdict) (h : m.rd F.MBX_STATE_STATE = 4)
    (hr : m.rookReason F.ROOK_SVN_SHEEPDOG v true = 0) (hd : m.phase.sheepdogUp = false) : (m.fwRecover sess seq image v).rd F.ROOK_STATUS_BOOT = 2 ∧
    (m.fwRecover sess seq image v).fwIdle = ⟨.trial, (Config.fwVersion image).toNat, v.version.toNat, v.digest.toNat, image⟩ ∧
    ∃ p, (m.fwRecover sess seq image v).sent.head? = some (.sideband sess 0x0B seq stOK p) := by
  have hidle := (m.fwStored_shows image v).2
  rw [fwRecover_good sess seq image v h hr hd]
  generalize m.fwStored image v = x at hidle ⊢
  have hset : (x.sbReply sess 0x0B seq stOK).fwIdle = x.fwIdle := rfl
  have hsent : (x.sbReply sess 0x0B seq stOK).sent.head? = some (.sideband sess 0x0B seq stOK []) := rfl
  generalize x.sbReply sess 0x0B seq stOK = y at hset hsent ⊢
  have hw : (y.wr F.ROOK_STATUS_BOOT 0 2).fwIdle = y.fwIdle := by rw [fwIdle, fwIdle, wr_fwA, wr_fwB, wr_runB]
  rw [rd_wr_self _ _ _ _ (by decide), hw, hset, hidle, wr_sent, hsent]
  exact ⟨rfl, rfl, [], rfl⟩

end Mod

end Sys2Proof.Machine

/-!
The Goose and the Rook at the side-band, command by command; O54 is settled.
-/
namespace Sys2Proof.Machine

section
variable {s : State} {sess : SbId} {seq : SbHead}

/-! ### Watch, heartbeat and time keeper -/

theorem watchChange_shows {what : Watch} {ok : Bool} (h : s.mod.phase.gooseUp = true) : Does (.gooseWatchChange what) s fun t =>
    t.goose.log.getLast? = some ⟨s.mod.goose.keeper, .watch what⟩ ∧ (what = .feedA ok → t.flag F.GOOSE_STATUS_FEED_A = ok) ∧
      (what = .feedB ok → t.flag F.GOOSE_STATUS_FEED_B = ok) := by
  refine does_next rfl ?_
  dsimp only
  rw [h, if_neg (by decide)]
  have hlog : ∀ x : Mod, x.goose = s.mod.goose → (x.gooseLog (.watch what)).goose.log.getLast? = some ⟨s.mod.goose.keeper, .watch what⟩ := fun x hx => by
    rw [x.goose_gooseLog_last, hx]
  have hflag : ∀ (x : Mod) (f : Fld), f.reg ∉ Mod.plugRegs → (x.gooseLog (.watch what)).flag f = x.flag f := fun x f hf => (x.plugged_gooseLog _).flag f 0 hf
  cases what with
  | feedA b =>
    refine ⟨hlog _ (Mod.put_goose _ _ _ _), fun e => ?_, nofun⟩
    rw [hflag _ _ (by decide), Mod.flag_put_self _ _ _ _ (by decide) rfl]
    exact Watch.feedA.inj e
  | feedB b =>
    refine ⟨hlog _ (Mod.put_goose _ _ _ _), nofun, fun e => ?_⟩
    rw [hflag _ _ (by decide), Mod.flag_put_self _ _ _ _ (by decide) rfl]
    exact Watch.feedB.inj e
  | holdup b => exact ⟨hlog _ rfl, nofun, nofun⟩
  | inlet b => exact ⟨hlog _ rfl, nofun, nofun⟩
  | die b => exact ⟨hlog _ rfl, nofun, nofun⟩
  | heartbeat b => exact ⟨hlog _ rfl, nofun, nofun⟩

theorem keeperSecond_shows (h : s.mod.phase.full = true) : Does .timeKeeperSecond s fun t => t.goose.keeper = t.now ∧ t.regs = s.mod.regs := by
  have hset : ∀ x : Mod, ({ x with goose := { x.goose with keeper := x.now } } : Mod).goose.keeper = ({ x with goose := { x.goose with keeper := x.now } } : Mod).now ∧
      ({ x with goose := { x.goose with keeper := x.now } } : Mod).regs = x.regs := fun _ => ⟨rfl, rfl⟩
  refine does_next rfl ?_
  dsimp only
  rw [h, if_pos rfl]
  obtain ⟨hk, hr⟩ := hset (s.mod.toNow (nextMultiple 1000000000 s.mod.now))
  exact ⟨hk, hr.trans (Mod.regs_toNow _ _)⟩

/-! ### Sessions -/

theorem hello_shows {major minor : BitVec 8} (ha : s.mod.sbAccepts sess seq = true) (hu : seq.unknown = none) (hm : major = 1) :
    Does (.hello sess major minor seq) s fun t => sess.val ∈ t.goose.sessions ∧
      t.sent.head? = some (.sideband sess 0x01 seq.toNat stOK [1, 0]) := by
  have hmem := s.mod.mem_helloed sess.val
  unfold Mod.helloed at hmem
  refine does_next rfl ?_
  dsimp only
  rw [ha, hu, if_neg (by decide)]
  dsimp only
  rw [if_neg (fun e => e hm)]
  generalize s.mod.iff _ _ = x at hmem ⊢
  exact ⟨hmem, rfl⟩

theorem hello_refused {major minor : BitVec 8} (ha : s.mod.sbAccepts sess seq = true) (hu : seq.unknown = none) (hm : major ≠ 1) :
    Does (.hello sess major minor seq) s fun t => t = s.mod.emit (.sideband sess 0x01 seq.toNat stVERSION []) := by
  refine does_next rfl ?_
  dsimp only
  rw [ha, hu, if_neg (by decide)]
  dsimp only
  rw [if_pos hm, Mod.sbReply]

theorem hello_unheard {major minor : BitVec 8} (ha : s.mod.sbAccepts sess seq = false) : Does (.hello sess major minor seq) s fun t => t = s.mod := by
  refine does_next rfl ?_
  dsimp only
  rw [ha]
  rfl

/-! ### Messages that the Goose serves itself -/

/-- A message of type `need` that the Goose serves. -/
abbrev Served (s : State) (sess : SbId) (seq : SbHead) (control : Bool) (need : Need) : Prop :=
  (s.mod.sbHears sess seq = true ∧ seq.unknown = none) ∧ s.mod.goose.sessions.contains sess.val = true ∧ (control && sess.val == 0) = false ∧ s.mod.sbUp need = true

/-- A message that needs a token and has none. -/
theorem served_noToken {i : Instr} {ty : Nat} {need : Need} {token : Nat} {f : Mod → Mod} (hs : Served s sess seq true need) (ht : s.mod.sbToken sess token = false)
    (he : exec i s = .next { s with mod := s.mod.sbServe sess ty seq true need fun m => if m.sbToken sess token then f m else m.sbReply sess ty seq.toNat stNOLOCK }) :
    Does i s fun t => t = s.mod.emit (.sideband sess ty seq.toNat stNOLOCK []) := by
  refine message_served he hs ?_
  rw [ht, if_neg Bool.false_ne_true, Mod.sbReply]

/-- A message that needs a token and has it. -/
theorem served_token {i : Instr} {ty : Nat} {need : Need} {token : Nat} {f : Mod → Mod} {P : Mod → Prop} (hs : Served s sess seq true need)
    (ht : s.mod.sbToken sess token = true) (hP : P (f s.mod))
    (he : exec i s = .next { s with mod := s.mod.sbServe sess ty seq true need fun m => if m.sbToken sess token then f m else m.sbReply sess ty seq.toNat stNOLOCK }) :
    Does i s P := by
  refine message_served he hs ?_
  rw [ht, if_pos rfl]
  exact hP

theorem gooseUp_of_served {control : Bool} {need : Need} (hs : Served s sess seq control need) : s.mod.phase.gooseUp = true := by
  obtain ⟨⟨hh, -⟩, -⟩ := hs
  exact (Bool.and_eq_true_iff.mp hh).1

/-- The Goose's own messages. -/
theorem observe_shows (hs : Served s sess seq false .nothing) :
    Does (.status sess seq) s (fun t => t = s.mod.emit (.sideband sess 0x02 seq.toNat stOK s.mod.sbStatus)) ∧
    Does (.logRead sess seq) s (fun t => t.goose.log = s.mod.goose.log.drop 16 ∧ t.goose.lost = 0 ∧ t.regs = s.mod.regs ∧
      ∃ p, t.sent.head? = some (.sideband sess 0x03 seq.toNat stOK p)) ∧
    Does (.sidebandTimeGet sess seq) s (fun t =>
      t = s.mod.emit (.sideband sess 0x04 seq.toNat stOK (leBytes 8 s.mod.goose.keeper ++ (if s.mod.phase.spineUp then leBytes 8 s.mod.now else [])))) := by
  refine ⟨message_served rfl hs rfl, message_served rfl hs ?_, message_served rfl hs rfl⟩
  unfold Mod.logRead
  exact ⟨rfl, rfl, rfl, _, rfl⟩

/-- TIME_SET, POWER and RESET without their token. -/
theorem noToken_shows {token : BitVec 32} {t0 : BitVec 64} {on : Bool} {rgn : RegionId} (hs : Served s sess seq true .nothing)
    (ht : s.mod.sbToken sess token.toNat = false) :
    Does (.timeSet sess seq token t0) s (fun t => t = s.mod.emit (.sideband sess 0x05 seq.toNat stNOLOCK [])) ∧
    Does (.power sess seq token on) s (fun t => t = s.mod.emit (.sideband sess 0x09 seq.toNat stNOLOCK [])) ∧
    Does (.reset sess seq token none) s (fun t => t = s.mod.emit (.sideband sess 0x0A seq.toNat stNOLOCK [])) ∧
    Does (.reset sess seq token (some rgn)) s (fun t => t = s.mod.emit (.sideband sess 0x0A seq.toNat stNOLOCK [])) :=
  ⟨served_noToken hs ht rfl, served_noToken hs ht rfl, served_noToken hs ht rfl, served_noToken hs ht rfl⟩

theorem power_shows {token : BitVec 32} (hs : Served s sess seq true .nothing) (ht : s.mod.sbToken sess token.toNat = true) :
    Does (.power sess seq token true) s (fun t =>
      t = { s.mod.emit (.sideband sess 0x09 seq.toNat stOK []) with phase := { s.mod.phase with held := false } }) ∧
    Does (.power sess seq token false) s (fun t => t.phase.held = true ∧ t.phase.spineUp = false ∧ t.phase.sheepdogUp = false ∧
      t.flag F.TWIN_STATUS_CLAIM = false) :=
  ⟨served_token (f := fun m => (m.sbReply sess 0x09 seq.toNat stOK).mainPower true) hs ht rfl rfl,
    served_token (f := fun m => (m.sbReply sess 0x09 seq.toNat stOK).mainPower false) hs ht (Mod.mainPower_off _) rfl⟩

theorem reset_shows {token : BitVec 32} {rgn : RegionId} (hs : Served s sess seq true .nothing) (ht : s.mod.sbToken sess token.toNat = true) :
    (s.mod.phase.spineUp = false → Does (.reset sess seq token (some rgn)) s (fun t => t = s.mod.emit (.sideband sess 0x0A seq.toNat stOK []))) ∧
    (s.mod.phase.spineUp = true → s.mod.rgnDown rgn = false → Does (.reset sess seq token (some rgn)) s fun t =>
      t.rd (F.FLT_RGN_STATE_STATE rgn) = 2 ∧ Tbl.get 0 t.rgnPhase rgn = 1) ∧
    (s.mod.flag F.PWR_THR_STATUS_CRITICAL = false → Does (.reset sess seq token none) s fun t => t.phase.spineUp = false ∧ t.rd F.ROOK_STATUS_BOOT = 1) := by
  have hup := gooseUp_of_served hs
  have hreply : ∀ m : Mod, (m.sbReply sess 0x0A seq.toNat stOK).phase = m.phase ∧ (m.sbReply sess 0x0A seq.toNat stOK).rgnDown rgn = m.rgnDown rgn ∧
      (m.sbReply sess 0x0A seq.toNat stOK).flag F.PWR_THR_STATUS_CRITICAL = m.flag F.PWR_THR_STATUS_CRITICAL := fun _ => ⟨rfl, rfl, rfl⟩
  obtain ⟨hp, hd, hc⟩ := hreply s.mod
  refine ⟨fun hsp => served_token hs ht ?_ rfl, fun hsp hr => served_token hs ht ?_ rfl, fun hcrit => served_token hs ht ?_ rfl⟩
  · dsimp only [Option.map, Mod.sbReset]
    rw [hp, hsp, Mod.iff_false, Mod.sbReply]
  · dsimp only [Option.map, Mod.sbReset]
    generalize s.mod.sbReply sess 0x0A seq.toNat stOK = x at hp hd ⊢
    rw [hp, hsp, Mod.iff_true, Mod.requestReset_region _ _ _ (hd.trans hr)]
    exact x.regionReset_shows rgn 2 33
  · dsimp only [Option.map, Mod.sbReset]
    generalize s.mod.sbReply sess 0x0A seq.toNat stOK = x at hp hc ⊢
    rw [Mod.requestReset_device]
    obtain ⟨h1, h2, -⟩ := Mod.deviceReset_shows (m := x) 2 33 (by rw [hc, hcrit]; rfl)
    refine ⟨h1, h2.trans ?_⟩
    rw [hp, hup]
    rfl

theorem timeSet_shows {token : BitVec 32} {t0 : BitVec 64} (hs : Served s sess seq true .nothing) :
    (s.mod.noLock = true → Does (.timeSet sess seq token t0) s fun t => t.goose.keeper = t0.toNat ∧ t.goose.invalid = false ∧ t.now = s.mod.now ∧
      ∃ p, t.sent.head? = some (.sideband sess 0x05 seq.toNat stOK p)) ∧
    (s.mod.noLock = false → s.mod.sbToken sess token.toNat = true → (s.mod.flag F.TB_STATUS_LOCKED && s.mod.tbSrc != 0) = true →
      Does (.timeSet sess seq token t0) s fun t => t.goose.keeper = s.mod.goose.keeper ∧ ∃ p, t.sent.head? = some (.sideband sess 0x05 seq.toNat stSTATE p)) ∧
    (s.mod.noLock = false → s.mod.sbToken sess token.toNat = true → (s.mod.flag F.TB_STATUS_LOCKED && s.mod.tbSrc != 0) = false →
      Does (.timeSet sess seq token t0) s fun t => t.goose.keeper = t0.toNat ∧ t.goose.invalid = false ∧
        ∃ p, t.sent.head? = some (.sideband sess 0x05 seq.toNat stOK p)) := by
  refine ⟨fun hn => served_token hs ?_ (Mod.timeSet_noLock _ _ _ hn) rfl, fun hn ht hk => served_token hs ht (Mod.timeSet_kept _ _ _ hn hk) rfl,
    fun hn ht hk => served_token hs ht (Mod.timeSet_set _ _ _ hn hk) rfl⟩
  rw [Mod.sbToken, hn, Bool.true_or]

/-! ### Reads -/

theorem regRead_shows {off : BitVec 28} {wide : Bool} {m2 m3 : Mod} {k val : Nat} (hs : Served s sess seq false .main) :
    (s.mod.passGate ⟨33, false, 0, 0, regBase + off.toNat, if wide then 8 else 4, .load⟩ = (m2, some k) → Does (.sidebandRegRead sess seq off wide) s fun t =>
      t = m2.emit (.sideband sess 0x06 seq.toNat stACCESS (leBytes 4 k))) ∧
    (s.mod.passGate ⟨33, false, 0, 0, regBase + off.toNat, if wide then 8 else 4, .load⟩ = (m2, none) →
      m2.regLoad 33 off.toNat (if wide then 8 else 4) = (m3, val) → Does (.sidebandRegRead sess seq off wide) s fun t =>
        t = m3.emit (.sideband sess 0x06 seq.toNat stOK (leBytes 8 val))) := by
  refine ⟨fun hg => message_served rfl hs ?_, fun hg hl => message_served rfl hs ?_⟩
  · dsimp only [Mod.sbRegRead]
    rw [hg]
    rfl
  · dsimp only [Mod.sbRegRead]
    rw [hg]
    dsimp only
    rw [hl]
    rfl

theorem sigRead_shows {ids : List (BitVec 26)} {m2 : Mod} {gat : Gather} {e : List Byte} (hs : Served s sess seq false .main) :
    (ids.length = 0 ∨ 32 < ids.length → Does (.sidebandSigRead sess seq ids) s fun t => t = s.mod.emit (.sideband sess 0x07 seq.toNat stBADARG [])) ∧
    (ids.length ≠ 0 → ids.length ≤ 32 → s.mod.gatherBegin (.mailbox 5) (some ⟨5, seq.toNat, 0, 0, true, 0, 0, 1024, 0, sess⟩)
      (((ids.map BitVec.toNat).filterMap (sigPlace false)).map (fun q => (q.1 * 2 ^ 52 + recAddr q.2.1 q.2.2, 32, 0))) 33 = (m2, .ok gat) →
      gat.cmd = some ⟨5, seq.toNat, 0, 0, true, 0, 0, 1024, 0, sess⟩ → gat.all = some e → e.length ≤ 1024 →
      Does (.sidebandSigRead sess seq ids) s fun t => t = m2.emit (.sideband sess 0x07 seq.toNat stOK e)) := by
  refine ⟨fun hl => message_served rfl hs ?_, fun h0 h32 hg hc ha _ => message_served rfl hs ?_⟩
  · have hbad : (decide ((ids.map BitVec.toNat).length = 0) || decide ((ids.map BitVec.toNat).length > 32)) = true := by
      rw [List.length_map]
      simpa using hl
    dsimp only [Mod.sbSigRead]
    rw [hbad, if_pos rfl, Mod.sbReply]
  · have hgood : (decide ((ids.map BitVec.toNat).length = 0) || decide ((ids.map BitVec.toNat).length > 32)) = false := by
      rw [List.length_map]
      simp only [Bool.or_eq_false_iff, decide_eq_false_iff_not]
      omega
    dsimp only [Mod.sbSigRead]
    rw [hgood, if_neg Bool.false_ne_true, hg]
    dsimp only [Mod.gatherEnd]
    rw [ha, hc]
    exact Mod.complete_sideband _ _ _ rfl

end

end Sys2Proof.Machine

/-!
Relay, recovery, evidence, debug and the lifecycle at the side-band; O54 is settled.
-/
namespace Sys2Proof.Machine

section
variable {s : State} {sess : SbId} {seq : SbHead}

theorem relay_shows {cmd pay : List Byte} {v : Verdict} (hs : Served s sess seq true .main) :
    (s.mod.rd F.MBX_STATE_STATE ≠ 2 → s.mod.rd F.MBX_STATE_STATE ≠ 3 → Does (.relay sess seq cmd pay v) s fun t =>
      t = s.mod.emit (.sideband sess 0x08 seq.toNat stSTATE [])) ∧
    (s.mod.rd F.MBX_STATE_STATE = 2 ∨ s.mod.rd F.MBX_STATE_STATE = 3 → s.mod.relays ≠ [] → Does (.relay sess seq cmd pay v) s fun t =>
      t = { s.mod with relays := s.mod.relays ++ [⟨sess, seq.toNat, cmd, pay⟩] }) ∧
    (s.mod.rd F.MBX_STATE_STATE = 2 ∨ s.mod.rd F.MBX_STATE_STATE = 3 → s.mod.relays = [] → s.mod.mayBegin 4 = true → s.mod.turn 4 = true →
      s.mod.twin.loss = none → (cmdOf 4 seq.toNat sess cmd pay).lc.opcode = 3 →
      s.mod.barred (cmdOf 4 seq.toNat sess cmd pay) (moreFaults 3 s.mod (cmdOf 4 seq.toNat sess cmd pay)) = none →
      Does (.relay sess seq cmd pay v) s fun t => t = ({ s.mod with served := 4 } : Mod).complete (cmdOf 4 seq.toNat sess cmd pay).lc
        { resp := (cmdOf 4 seq.toNat sess cmd pay).payload }) :=
  ⟨fun h2 h3 => message_served (f := fun m => m.relay sess seq.toNat cmd pay v) rfl hs (Mod.relay_refused h2 h3),
    fun hst hr => message_served (f := fun m => m.relay sess seq.toNat cmd pay v) rfl hs (Mod.relay_waits hst hr),
    fun hst hr hb ht hl ho hbar => message_served (f := fun m => m.relay sess seq.toNat cmd pay v) rfl hs (Mod.relay_nop hst hr hb ht hl ho hbar)⟩

/-- A token has used up its challenge, with its verdict. -/
abbrev TokenDone (m : Mod) (tok : DbgToken) (t : Mod) : Prop := t.rook.chal = none ∧
  (m.tokenGood tok = true → t.rd F.ROOK_DBG_SCOPE = tok.scope.toNat ∧ t.rook.dbgEnd = some (m.mono + tok.seconds.toNat * 1000000000)) ∧
  (m.tokenGood tok = false → t.flag F.ROOK_ALERT_DBG_REFUSED = true ∧ t.rd F.ROOK_DBG_SCOPE = m.rd F.ROOK_DBG_SCOPE ∧ t.rook.dbgEnd = m.rook.dbgEnd)

theorem tokenDone_emit {m t : Mod} {tok : DbgToken} (o : Out) (h : TokenDone m tok t) : TokenDone m tok (t.emit o) := by
  have hrook : (t.emit o).rook = t.rook := rfl
  have hregs : (t.emit o).regs = t.regs := rfl
  unfold TokenDone
  rw [hrook, Mod.rd_of_regs hregs, Mod.flag_of_regs hregs]
  exact h

theorem challenged_emit {m t : Mod} (o : Out) (h : t.rook.chal.isSome = true ∧ t.freeCtr = m.freeCtr + 1) :
    (t.emit o).rook.chal.isSome = true ∧ (t.emit o).freeCtr = m.freeCtr + 1 := h

theorem recoverAndDebug_shows {image : List Byte} {v : Verdict} {tok : DbgToken} (hs : Served s sess seq true .spine) :
    (s.mod.rd F.MBX_STATE_STATE ≠ 4 → Does (.fwRecover sess seq image v) s fun t => t = s.mod.emit (.sideband sess 0x0B seq.toNat stSTATE [])) ∧
    (s.mod.rd F.MBX_STATE_STATE = 4 → s.mod.rookReason F.ROOK_SVN_SHEEPDOG v true = 0 → s.mod.phase.sheepdogUp = false →
      Does (.fwRecover sess seq image v) s fun t => t.rd F.ROOK_STATUS_BOOT = 2 ∧
        t.fwIdle = ⟨.trial, (Config.fwVersion image).toNat, v.version.toNat, v.digest.toNat, image⟩ ∧
        ∃ p, t.sent.head? = some (.sideband sess 0x0B seq.toNat stOK p)) ∧
    (s.mod.rd F.MBX_STATE_STATE = 4 → ¬ s.mod.rookReason F.ROOK_SVN_SHEEPDOG v true = 0 → Does (.fwRecover sess seq image v) s fun t =>
      t.flag F.ROOK_ALERT_VERIFY_FAIL = true ∧ ∃ p, t.sent.head? = some (.sideband sess 0x0B seq.toNat stVERIFY p)) ∧
    Does (.debugAuth sess seq none) s (fun t => t.rook.chal.isSome = true ∧ t.freeCtr = s.mod.freeCtr + 1 ∧
      ∃ p, t.sent.head? = some (.sideband sess 0x0D seq.toNat stOK p)) ∧
    Does (.debugAuth sess seq (some tok)) s (fun t => TokenDone s.mod tok t ∧
      ∃ p, t.sent.head? = some (.sideband sess 0x0D seq.toNat (if s.mod.tokenGood tok then stOK else stVERIFY) p)) := by
  refine ⟨fun h => message_served (f := fun m => m.fwRecover sess seq.toNat image v) rfl hs (Mod.fwRecover_refused _ _ _ _ h),
    fun h hr hd => message_served (f := fun m => m.fwRecover sess seq.toNat image v) rfl hs (Mod.fwRecover_good_shows _ _ _ _ h hr hd),
    fun h hr => message_served (f := fun m => m.fwRecover sess seq.toNat image v) rfl hs (Mod.fwRecover_bad _ _ _ _ h hr),
    message_served (f := fun m => m.debugAuth sess seq.toNat none) rfl hs ?_, message_served (f := fun m => m.debugAuth sess seq.toNat (some tok)) rfl hs ?_⟩
  · obtain ⟨h1, h2⟩ := challenged_emit (.sideband sess 0x0D seq.toNat stOK s.mod.newChallenge.challengeBytes) s.mod.newChallenge_shows
    exact ⟨h1, h2, _, rfl⟩
  · exact ⟨tokenDone_emit _ (s.mod.debugToken_shows tok), _, rfl⟩

theorem evidence_fst (m : Mod) (n : Nat) : (m.evidence n).1 = { m with freeCtr := m.freeCtr + 1 } := by
  unfold Mod.evidence Mod.fresh
  rfl

theorem attest_shows {nonce : BitVec 256} {m2 : Mod} {e : List Byte} (hs : Served s sess seq false .spine) :
    (s.mod.rook.life = .decommissioned → Does (.attest sess seq nonce) s fun t => t = s.mod.emit (.sideband sess 0x0C seq.toNat stSTATE [])) ∧
    (s.mod.rook.life ≠ .decommissioned → s.mod.evidence nonce.toNat = (m2, e) → Does (.attest sess seq nonce) s fun t =>
      t = ({ s.mod with freeCtr := s.mod.freeCtr + 1 } : Mod).emit (.sideband sess 0x0C seq.toNat stOK e)) := by
  refine ⟨fun h => message_served (f := fun m => m.attest sess seq.toNat nonce.toNat) rfl hs ?_,
    fun h he => message_served (f := fun m => m.attest sess seq.toNat nonce.toNat) rfl hs ?_⟩
  · rw [Mod.attest, if_pos h, Mod.sbReply]
  · have h2 := evidence_fst s.mod nonce.toNat
    rw [he] at h2
    dsimp only at h2
    rw [Mod.attest, if_neg h, he, ← h2]
    rfl

/-! ### Debug -/

theorem debugPort_shows {tok : DbgToken} :
    (s.mod.sbUp .spine = false → (Does .debugChallengeRead s fun t => t = s.mod) ∧ Does (.debugToken tok) s fun t => t = s.mod) ∧
    (s.mod.sbUp .spine = true → (Does .debugChallengeRead s fun t => t.rook.chal.isSome = true ∧ t.freeCtr = s.mod.freeCtr + 1) ∧
      Does (.debugToken tok) s (TokenDone s.mod tok)) := by
  refine ⟨fun h => ⟨does_next rfl ?_, does_next rfl ?_⟩, fun h => ⟨does_next rfl ?_, does_next rfl ?_⟩⟩
  · dsimp only
    rw [h, Mod.iff_false]
  · dsimp only
    rw [h, Mod.iff_false]
  · dsimp only
    rw [h, Mod.iff_true]
    exact challenged_emit _ s.mod.newChallenge_shows
  · dsimp only
    rw [h, Mod.iff_true]
    exact s.mod.debugToken_shows tok

theorem debugExpiry_shows {k : Nat} :
    (s.mod.rook.dbgEnd = none → Does .debugAuthExpiry s fun t => t = s.mod) ∧
    (s.mod.rook.dbgEnd = some k → Does .debugAuthExpiry s fun t => t.rd F.ROOK_DBG_SCOPE = 0 ∧ t.rook.dbgEnd = none ∧ t.mono = Nat.max s.mod.mono k) := by
  refine ⟨fun h => does_next rfl ?_, fun h => does_next rfl ?_⟩
  · dsimp only
    rw [h]
  · dsimp only
    rw [h]
    dsimp only
    obtain ⟨h1, h2, h3, -⟩ := (s.mod.toMono k).dbgOver_shows
    exact ⟨h1, h2, h3.trans (Mod.mono_toMono _ _)⟩

/-- An access that debug is refused. -/
abbrev DebugRefused (m t : Mod) : Prop := t.sent.head? = some (.debug [] true) ∧ t.cores = m.cores ∧ t.mem = m.mem

theorem debugAccess_off {x : DebugAcc} (h : s.mod.phase.spineUp = false) : Does (.debugAccess x) s fun t => t = s.mod := by
  refine does_next rfl ?_
  dsimp only
  rw [h, Mod.iff_false]

theorem debugAccess_on {x : DebugAcc} {P : Mod → Prop} (h : s.mod.phase.spineUp = true) (hP : P (s.mod.debugAccess x)) : Does (.debugAccess x) s P := by
  refine does_next rfl ?_
  dsimp only
  rw [h, Mod.iff_true]
  exact hP

/-- A debug act on a core: done under scope 2, else refused. -/
theorem debugCore_shows {x : DebugAcc} {c : CoreId} {f : Core → Core} (he : s.mod.debugAccess x = s.mod.dbgCore c f) : s.mod.phase.spineUp = true →
    (s.mod.rd F.ROOK_DBG_SCOPE = 2 → Does (.debugAccess x) s fun t => t = (s.mod.setCore c (f (s.mod.core c))).emit (.debug [] false)) ∧
    (s.mod.rd F.ROOK_DBG_SCOPE ≠ 2 → Does (.debugAccess x) s (DebugRefused s.mod)) :=
  fun h => ⟨fun h2 => debugAccess_on h (he.trans (Mod.dbgCore_on _ _ h2)), fun h2 => debugAccess_on h (by rw [he, Mod.dbgCore_off _ _ h2]; exact s.mod.dbgRefuse_shows)⟩

theorem debugMemory_shows {a : BitVec 64} {n : Fin 9} {d : List Byte} {m2 : Mod} {k : Nat} (h : s.mod.phase.spineUp = true) :
    (n ≠ 0 → s.mod.passGate ⟨55, false, 0, 0, a.toNat, n, .load⟩ = (m2, some k) → Does (.debugAccess (.load a n)) s (DebugRefused s.mod)) ∧
    (n ≠ 0 → s.mod.passGate ⟨55, false, 0, 0, a.toNat, n, .load⟩ = (m2, none) → Does (.debugAccess (.load a n)) s fun t =>
      t = (m2.loadAs 55 a.toNat n).1.emit (.debug (m2.loadAs 55 a.toNat n).2.data false)) ∧
    (d ≠ [] → d.length ≤ 8 → s.mod.passGate ⟨55, false, 0, 0, a.toNat, d.length, .store⟩ = (m2, none) → Does (.debugAccess (.store a d)) s fun t =>
      t = (m2.storeAs 55 a.toNat d []).emit (.debug [] false)) ∧
    ((s.mod.flag F.CAR_STATUS_DESC_OK || s.mod.rd F.ROOK_DBG_SCOPE != 2) = true → Does (.debugAccess .extest) s (DebugRefused s.mod)) ∧
    ((s.mod.flag F.CAR_STATUS_DESC_OK || s.mod.rd F.ROOK_DBG_SCOPE != 2) = false → Does (.debugAccess .extest) s fun t => t = s.mod.emit (.debug [] false)) := by
  have hn0 : n ≠ 0 → ¬ n.val = 0 := fun hn e => hn (Fin.ext e)
  refine ⟨fun hn hg => debugAccess_on h ?_, fun hn hg => debugAccess_on h ?_, fun hd hl hg => debugAccess_on h ?_, fun he => debugAccess_on h ?_,
    fun he => debugAccess_on h ?_⟩
  · have ht := s.mod.told_passGate ⟨55, false, 0, 0, a.toNat, n, .load⟩
    rw [hg] at ht
    rw [Mod.debugAccess, if_neg (hn0 hn), Mod.dbgLoad, hg]
    dsimp only at ht ⊢
    obtain ⟨h1, h2, h3⟩ := m2.dbgRefuse_shows
    exact ⟨h1, h2.trans ht.cores_eq, h3.trans ht.mem_eq⟩
  · rw [Mod.debugAccess, if_neg (hn0 hn), Mod.dbgLoad, hg]
  · have hlen : ¬(d.length = 0 ∨ d.length > 8) := fun e => e.elim (fun e => hd (List.length_eq_zero_iff.mp e)) (by omega)
    rw [Mod.debugAccess, if_neg hlen, Mod.dbgStore, hg]
  · rw [Mod.debugAccess, if_pos he]
    exact s.mod.dbgRefuse_shows
  · rw [Mod.debugAccess, he, if_neg Bool.false_ne_true]

/-! ### Lifecycle -/

theorem lifecycle_shows {dest : Lifecycle} {owner : BitVec 256} (hu : s.mod.sbUp .spine = true) (ha : lifeArrow s.mod.rook.life dest = true) :
    Does (.lifecycleTransition dest owner false) s (fun t => t.rook.life = s.mod.rook.life ∧ t.flag F.ROOK_ALERT_VERIFY_FAIL = true ∧ t.rd F.ROOK_ALERT_REASON = 1) ∧
    Does (.lifecycleTransition dest owner true) s fun t => t.rook.life = dest ∧ t.rd F.ROOK_STATUS_LIFECYCLE = lifeCode dest ∧ t.rd F.ROOK_DBG_SCOPE = 0 ∧
      (dest ≠ .decommissioned → t.flag F.ROOK_STATUS_OWNER = (dest == .owned) ∧
        ∀ x, x < 8 → t.rd F.ROOK_OWNER_DIGEST x = if dest = .owned then bitsOf owner.toNat (32 * x) 32 else 0) ∧
      (dest = .returned → ∀ x, x < 8 → t.slotState x = 0) ∧
      (dest = .decommissioned → t.rd F.ROOK_STATUS_BOOT = 7 ∧ t.phase.spineUp = false) := by
  refine ⟨does_next rfl ?_, does_next rfl ?_⟩
  · dsimp only
    rw [hu, ha, if_neg (by decide), if_pos (by decide)]
    obtain ⟨h1, h2, h3⟩ := s.mod.rookRefuse_shows 1 (by decide)
    exact ⟨congrArg Rook.life h3, h1, h2⟩
  · dsimp only
    rw [hu, ha, if_neg (by decide), if_neg (by decide)]
    exact s.mod.lifeMove_shows dest owner.toNat

theorem lifecycle_stays {dest : Lifecycle} {owner : BitVec 256} {isSig : Bool} (h : s.mod.sbUp .spine = false ∨ lifeArrow s.mod.rook.life dest = false) :
    Does (.lifecycleTransition dest owner isSig) s fun t => t = s.mod := by
  refine does_next rfl ?_
  dsimp only
  rw [if_pos]
  rcases h with h | h <;> rw [h]
  · rfl
  · cases s.mod.sbUp .spine <;> rfl

end

end Sys2Proof.Machine

/-!
O54 is settled.
-/
namespace Sys2Proof.Machine

section
variable {s : State} {sess : SbId} {seq : SbHead}

theorem sidebandClose_shows : (s.mod.goose.sessions.contains sess.val = false → Does (.sidebandSessionClose sess) s fun t => t = s.mod) ∧
    (s.mod.goose.sessions.contains sess.val = true → Does (.sidebandSessionClose sess) s fun t => sess.val ∉ t.goose.sessions ∧
      (∀ x ∈ t.relays, x.sess ≠ sess.val) ∧ (s.mod.lock.holder = 5 → s.mod.lock.sess = sess → t.lock = {})) := by
  refine ⟨fun h => does_next rfl (s.mod.sbClose_none _ h), fun h => does_next (m := s.mod.sbClose sess) rfl ?_⟩
  obtain ⟨h1, h2⟩ := s.mod.sbClose_lets_go sess h
  refine ⟨fun hin => ?_, h1, h2⟩
  rw [Mod.sessions_sbClose] at hin
  simpa using (List.mem_filter.mp hin).2

theorem sheepdogTimeout_shows : ((!s.mod.phase.sheepdogUp || s.mod.rd F.MBX_STATE_STATE == 4) = true → Does .sheepdogHeartbeatTimeout s fun t => t = s.mod) ∧
    (s.mod.phase.sheepdogUp = true → s.mod.rd F.MBX_STATE_STATE ≠ 4 → s.mod.rd F.FLT_DEV_ACT_ACT = 0 → Does .sheepdogHeartbeatTimeout s fun t => t.lock = {} ∧
      t.twin.faultNext = true ∧ t.rd F.MBX_STATE_STATE = (if s.mod.flag F.GOOSE_CTRL_AUTORESTART && !s.mod.goose.restarted then 5 else 4)) := by
  refine ⟨fun h => does_next (m := s.mod.sdSilent) rfl ?_, fun hup hst hact => does_next (m := s.mod.sdSilent) rfl (Mod.sdSilent_shows hup hst hact)⟩
  rw [Mod.sdSilent_eq, h, if_pos rfl]

theorem keeperLost_does : ((s.mod.flag F.PWR_FEED_A_OK || s.mod.flag F.PWR_FEED_B_OK) = true → Does .timeKeeperCountLost s fun t => t = s.mod) ∧
    ((s.mod.flag F.PWR_FEED_A_OK || s.mod.flag F.PWR_FEED_B_OK) = false → Does .timeKeeperCountLost s fun t => t.goose.keeper = 0 ∧ t.goose.invalid = true ∧
      t.flag F.GOOSE_STATUS_TIME_INVALID = true) := by
  refine ⟨fun h => does_next (m := s.mod.keeperLost) rfl ?_, fun h => does_next (m := s.mod.keeperLost) rfl (Mod.keeperLost_shows h)⟩
  rw [Mod.keeperLost, h, if_pos rfl]

end

/-- Settles O54: each message is served or refused in turn, and what it leaves follows from what the lock, the sessions and the start keep. -/
theorem gooseAndRookServeTheSideBand : Obligations.GooseAndRookServeTheSideBand := by
  unfold Obligations.GooseAndRookServeTheSideBand
  intro s what ok lost wide on isSig sess seq major minor token image t0 off ids cmd pay v rgn nonce tok m2 m3 k val e c a n d dest owner gat
    m x up stays answers hears msg served noTok isTok kept good head tokenDone refused acts does
  refine ⟨fun hu => ?_, watchChange_shows, sheepdogTimeout_shows.1, sheepdogTimeout_shows.2, keeperSecond_shows, fun hf => ?_, keeperLost_does.1,
    keeperLost_does.2, sidebandClose_shows.1, sidebandClose_shows.2, does_next rfl (s.mod.gooseRestart_shows lost), hello_unheard, hello_refused,
    hello_shows, message_unserved rfl, message_unserved rfl, message_unserved rfl, message_unserved rfl, message_unserved rfl, message_unserved rfl,
    message_unserved rfl, message_unserved rfl, message_unserved rfl, message_unserved rfl, message_unserved rfl, message_unserved rfl,
    message_unserved rfl, message_unserved rfl, observe_shows, fun hs => ?_, fun hs => ?_, relay_shows, recoverAndDebug_shows, attest_shows,
    debugPort_shows.1, debugPort_shows.2, (debugExpiry_shows (k := k)).1, (debugExpiry_shows (k := k)).2, fun h => ⟨debugAccess_off h, debugAccess_off h, debugAccess_off h⟩,
    ?_, ?_, ?_, debugMemory_shows, lifecycle_stays, lifecycle_shows⟩
  · have hup : s.mod.phase.gooseUp = false := hu
    refine does_next rfl ?_
    dsimp only
    rw [hup]
    rfl
  · have hfull : s.mod.phase.full = false := hf
    refine does_next rfl ?_
    dsimp only
    rw [hfull]
    rfl
  · obtain ⟨h1, h2, h3⟩ := timeSet_shows (token := token) (t0 := t0) hs
    refine ⟨noToken_shows hs, h1, h2, h3, fun ht => ?_⟩
    obtain ⟨p1, p2⟩ := power_shows hs ht
    obtain ⟨r1, r2, r3⟩ := reset_shows (rgn := rgn) hs ht
    exact ⟨p1, p2, r1, r2, r3⟩
  · obtain ⟨g1, g2⟩ := sigRead_shows (ids := ids) (m2 := m2) (gat := gat) (e := e) hs
    obtain ⟨r1, r2⟩ := regRead_shows (off := off) (wide := wide) (m2 := m2) (m3 := m3) (k := k) (val := val) hs
    exact ⟨r1, r2, g1, g2⟩
  · exact debugCore_shows (x := .halt c) (f := fun x => { x with debugHalt := true, debugStep := false, copy := none }) rfl
  · exact debugCore_shows (x := .resume c) (f := fun x => { x with debugHalt := false, debugStep := false }) rfl
  · exact debugCore_shows (x := .step c) (f := fun x => { x with debugStep := x.debugHalt }) rfl

end Sys2Proof.Machine

/-!
Records in the queue; faults of a region and of the device (R441 to R445).
-/
namespace Sys2Proof.Machine

theorem mem_insertRec (r : FaultRec) (q : List FaultRec) : r ∈ insertRec r q :=
  List.mem_append_right _ (List.mem_append_right _ List.mem_cons_self)

theorem mem_insertRec_of_mem {x : FaultRec} (r : FaultRec) {q : List FaultRec} (h : x ∈ q) : x ∈ insertRec r q := by
  unfold insertRec placeRec
  dsimp only
  generalize q.length - _ = k
  generalize (fun x : FaultRec => !((some x).any r.before)) = p
  rw [← List.take_append_drop k q] at h
  refine List.mem_append.mpr ((List.mem_append.mp h).imp_right fun hd => ?_)
  rw [← List.takeWhile_append_dropWhile (p := p) (l := q.drop k)] at hd
  exact List.mem_append.mpr ((List.mem_append.mp hd).imp_right (List.mem_cons_of_mem _))

namespace Mod

variable {m n t : Mod}

theorem Plugged.fq_eq (h : m.Plugged t) : t.fq = m.fq := (congrArg Mod.fq h.rest :)

theorem fq_of_unlocked (h : t.unlocked = m.unlocked) : t.fq = m.fq := (congrArg Mod.fq h :)

/-- The queue as a record enters it where the spine runs. -/
def queued (m : Mod) (r : FaultRec) : Mod :=
  if m.fq.length ≥ 64 then (m.put F.FLT_Q_STATUS_OVERFLOW 0 true).count F.FLT_Q_LOST_COUNT else { m with fq := insertRec r m.fq }

theorem fq_record (m : Mod) (r : FaultRec) : (m.record r).fq = if m.phase.spineUp then (m.queued r).fq else m.fq := by
  have hgoose : ∀ (x : Mod) (b : Bool), (x.iff b fun m => m.gooseFault r).fq = x.fq := fun x b =>
    iff_keeps (P := fun t : Mod => t.fq = x.fq) b ((x.told_gooseFault r).plugged (by decide)).fq_eq rfl
  have hraise : ∀ (x : Mod) (b : Bool), (x.iff b fun m => m.raise 255).fq = x.fq := fun x b =>
    iff_keeps (P := fun t : Mod => t.fq = x.fq) b (x.plugged_raise 255).fq_eq rfl
  unfold record
  cases m.phase.spineUp with
  | false => exact ((m.told_gooseFault r).plugged (by decide)).fq_eq
  | true =>
    rw [Bool.not_true, if_neg Bool.false_ne_true, if_pos rfl]
    dsimp only
    rw [hraise, hgoose]
    rfl

theorem fq_queued (m : Mod) (r : FaultRec) : (m.queued r).fq = if m.fq.length ≥ 64 then m.fq else insertRec r m.fq := by
  unfold queued
  split
  · rw [count_fq, put_fq]
  · rfl

theorem mem_fq_record_of_mem {x : FaultRec} (r : FaultRec) (h : x ∈ m.fq) : x ∈ (m.record r).fq := by
  rw [fq_record, fq_queued]
  split
  · split
    · exact h
    · exact mem_insertRec_of_mem r h
  · exact h

/-- A record enters a queue with room. -/
theorem mem_fq_record (r : FaultRec) (h : m.phase.spineUp = true ∧ m.fq.length < 64) : r ∈ (m.record r).fq := by
  rw [fq_record, fq_queued, h.1, if_pos rfl, if_neg (by omega)]
  exact mem_insertRec r _

/-! ### Faults of a region -/

theorem fq_probFailIf (m : Mod) (b : Nat) : (m.probFailIf b).fq = m.fq := fq_of_unlocked (frame_probFailIf m b []).rest

/-- A module with what counts toward an escalation. -/
def withCounts (m : Mod) (l : List Nat) : Mod := { m with escRgn := l }

theorem fq_countRegion (m : Mod) : m.countRegion.fq = m.fq := by
  unfold countRegion
  dsimp only
  exact iff_keeps (P := fun t : Mod => t.fq = m.fq) _ rfl rfl

theorem fq_of_stopped (h : Frame unrunning plugRegs m t) : t.fq = m.fq := (congrArg Mod.fq h.rest :)

theorem fq_regionReset (m : Mod) (g requester master : Nat) {x : FaultRec} (h : x ∈ m.fq) : x ∈ (m.regionReset g requester master).fq := by
  have hrec : x ∈ (m.resetRecord 10 g requester master).fq := mem_fq_record_of_mem _ h
  have hdown : ∀ y : Mod, (y.regionDown g).fq = y.fq := fun y => rfl
  rw [regionReset_eq, fq_of_stopped (stopped_regionStops _ g), hdown]
  exact hrec

/-- An action of a region in effect. -/
def actedOn (m : Mod) (g act : Nat) : Mod := { m with rgnAct := Tbl.set 0 m.rgnAct g (Nat.max act (Tbl.get 0 m.rgnAct g)) }

theorem plugged_regionAct (m : Mod) (g act : Nat) : ∃ x : Mod, x.Plugged (m.regionAct g act) ∧ x.rgnAct = (m.actedOn g act).rgnAct ∧ x.fq = m.fq := by
  unfold regionAct
  dsimp only
  refine ⟨(m.actedOn g act).iff ((m.actedOn g act).rd (F.FLT_RGN_STATE_STATE g) == 0) (fun m => m.wr (F.FLT_RGN_STATE_STATE g) 0 1), ?_, ?_, ?_⟩
  · split
    · exact plugged_safePorts _ _
    · exact .each (fun x p => x.plugged_overtake p) _ _
  · exact iff_keeps (P := fun t : Mod => t.rgnAct = (m.actedOn g act).rgnAct) _ (wr_rgnAct _ _ _ _) rfl
  · exact iff_keeps (P := fun t : Mod => t.fq = m.fq) _ (wr_fq _ _ _ _) rfl

/-- A region's fault recorded and counted, before its action. -/
def regionNoted (m : Mod) (g cause act detail source : Nat) : Mod := ((m.record (m.faultRec 2 cause g 9 act detail source)).probFailIf 0).countRegion

theorem regionFault_act (m : Mod) (g cause detail source : Nat) (h : m.rgnDown g = false) : m.regionFault g cause detail source =
    if m.rd (F.FLT_RGN_ACT_ACT g) = 0 then m.regionNoted g cause (m.rd (F.FLT_RGN_ACT_ACT g)) detail source
    else if m.rd (F.FLT_RGN_ACT_ACT g) = 3 then (m.regionNoted g cause (m.rd (F.FLT_RGN_ACT_ACT g)) detail source).regionReset g 1
    else (m.regionNoted g cause (m.rd (F.FLT_RGN_ACT_ACT g)) detail source).regionAct g (m.rd (F.FLT_RGN_ACT_ACT g)) := by
  unfold regionFault regionNoted
  rw [h, if_neg Bool.false_ne_true]
  dsimp only
  generalize ((m.record (m.faultRec 2 cause g 9 (m.rd (F.FLT_RGN_ACT_ACT g) 0) detail source)).probFailIf 0).countRegion = x
  generalize m.rd (F.FLT_RGN_ACT_ACT g) 0 = a
  split
  · rfl
  · rfl
  · next h0 h3 => rw [if_neg h0, if_neg h3]

theorem mem_fq_regionNoted (m : Mod) (g cause act detail source : Nat) (h : m.phase.spineUp = true ∧ m.fq.length < 64) :
    m.faultRec 2 cause g 9 act detail source ∈ (m.regionNoted g cause act detail source).fq := by
  unfold regionNoted
  rw [fq_countRegion, fq_probFailIf]
  exact mem_fq_record _ h

/-- A region's fault: recorded, with the region's action unless it is under reset. -/
theorem regionFault_shows (g : RegionId) (cause detail source : Nat) (h : m.phase.spineUp = true ∧ m.fq.length < 64) :
    m.faultRec 2 cause g 9 (if m.rgnDown g then 5 else m.rd (F.FLT_RGN_ACT_ACT g)) detail source ∈ (m.regionFault g cause detail source).fq ∧
    (m.rgnDown g = false → m.rd (F.FLT_RGN_ACT_ACT g) = 3 → (m.regionFault g cause detail source).rd (F.FLT_RGN_STATE_STATE g) = 2) ∧
    (m.rgnDown g = false → m.rd (F.FLT_RGN_ACT_ACT g) = 1 ∨ m.rd (F.FLT_RGN_ACT_ACT g) = 2 →
      m.rd (F.FLT_RGN_ACT_ACT g) ≤ Tbl.get 0 (m.regionFault g cause detail source).rgnAct g) := by
  cases hd : m.rgnDown g with
  | true =>
    rw [if_pos rfl, regionFault, hd, if_pos rfl]
    exact ⟨mem_fq_record _ h, fun e => absurd e (by decide), fun e => absurd e (by decide)⟩
  | false =>
    rw [if_neg Bool.false_ne_true, regionFault_act m g cause detail source hd]
    have hn := m.mem_fq_regionNoted g cause (m.rd (F.FLT_RGN_ACT_ACT g)) detail source h
    generalize m.regionNoted g cause (m.rd (F.FLT_RGN_ACT_ACT g)) detail source = x at hn ⊢
    obtain ⟨y, hp, hact, hfq⟩ := x.plugged_regionAct g (m.rd (F.FLT_RGN_ACT_ACT g))
    refine ⟨?_, fun _ h3 => ?_, fun _ h12 => ?_⟩
    · split
      · exact hn
      · split
        · exact fq_regionReset x g 1 0xFF hn
        · rw [hp.fq_eq, hfq]
          exact hn
    · rw [h3, if_neg (by decide), if_pos rfl]
      exact (x.regionReset_shows g 1 0xFF).1
    · rw [if_neg (by omega), if_neg (by omega), hp.rgnAct_eq, hact, actedOn, Tbl.get_set_self]
      exact Nat.le_max_left _ _

end Mod

end Sys2Proof.Machine

/-!
Faults of the device; the module started again (R444, R452).
-/
namespace Sys2Proof.Machine

namespace Mod

variable {m n t : Mod}

theorem fq_of_unsent (h : t.unsent = m.unsent) : t.fq = m.fq := (congrArg Mod.fq h :)

theorem mem_fq_faultNoted (cause detail source shown : Nat) (h : m.phase.spineUp = true ∧ m.fq.length < 64) :
    m.faultRec 3 cause 0 10 shown detail source ∈ (m.faultNoted cause detail source shown).fq := by
  unfold faultNoted
  rw [fq_of_unsent (unsent_faultNotice _ _), fq_probFailIf]
  exact mem_fq_record _ h

theorem fq_noteFault (m : Mod) : m.noteFault.fq = m.fq := rfl

theorem deviceFault_zero (cause detail source : Nat) (h : m.rd F.FLT_DEV_ACT_ACT = 0) :
    m.deviceFault cause detail source = (m.faultNoted cause detail source 0).noteFault := deviceFault_none cause detail source h

theorem deviceFault_one (cause detail source : Nat) (h : m.rd F.FLT_DEV_ACT_ACT = 1) :
    m.deviceFault cause detail source = (m.faultNoted cause detail source 2).noteFault.deviceSafe := by
  unfold deviceFault
  rw [h]
  rfl

theorem deviceFault_two (cause detail source : Nat) (h : m.rd F.FLT_DEV_ACT_ACT = 2) :
    m.deviceFault cause detail source = (m.faultNoted cause detail source 3).noteFault.deviceSafe.deviceReset 1 := by
  unfold deviceFault
  extract_lets act mayCastle bar shown x src y
  have hact : act = 2 := h
  have hshown : shown = 3 := if_pos hact
  have hy : y = (m.faultNoted cause detail source shown).noteFault := rfl
  rw [hshown] at hy
  rw [← hy]
  clear_value y act
  split
  · exact absurd hact (by decide)
  · exact absurd hact (by decide)
  · rfl
  · next h2 => exact absurd hact h2

/-- Every port safe on the device's behalf. -/
def safed (m : Mod) : Mod := { m with devSafe := true }

theorem deviceSafe_eq (m : Mod) : m.deviceSafe = m.safed.safePorts (upTo 1024) := rfl

theorem plugged_deviceSafe (m : Mod) : m.safed.Plugged m.deviceSafe := m.safed.plugged_safePorts _

theorem devSafe_deviceSafe (m : Mod) : m.deviceSafe.devSafe = true := m.plugged_deviceSafe.devSafe_eq

theorem twin_overtake (m : Mod) (p : Nat) : (m.overtake p).twin = m.twin := by
  unfold overtake
  split
  · split <;> rfl
  · rfl

theorem twin_drive (m : Mod) (p code : Nat) : (m.drive p code).twin = m.twin := by
  unfold drive
  rw [setPort_twin, wr_twin]

theorem twin_applySafe (m : Mod) (p : Nat) : (m.applySafe p).twin = m.twin := by
  unfold applySafe
  split
  · exact m.setPort_twin _ _
  · split
    · exact m.twin_drive _ _
    · exact m.twin_drive _ _
    · exact m.setPort_twin _ _

theorem twin_safePorts (m : Mod) (l : List Nat) : (m.safePorts l).twin = m.twin := by
  refine each_keeps (P := fun t : Mod => t.twin = m.twin) (fun t p h => ?_) l rfl
  exact (iff_keeps (P := fun x : Mod => x.twin = (t.overtake p).twin) (f := fun m => m.applySafe p) _ (twin_applySafe _ p) rfl).trans ((t.twin_overtake p).trans h)

theorem twin_deviceSafe (m : Mod) : m.deviceSafe.twin = m.twin := m.safed.twin_safePorts _

/-- The region's memory and cores as a device reset leaves them. -/
theorem bytes_dram_of_mem (h : t.mem = m.mem.filter (fun e => decide (dramTop ≤ e.1) && decide (e.1 < 0x1002000000))) {a : Nat} (ha : a < dramTop) :
    t.bytes a 1 = [0] := by
  have hget : cellGet t.mem a = 0 := by
    rw [h]
    refine (Tbl.get_filter_out _ _ _ _ fun v => ?_).trans (if_neg fun e => absurd e.1 (Nat.not_le.mpr ha))
    rw [decide_eq_false (Nat.not_le.mpr ha), Bool.false_and]
  simp [bytes, cellsGet, hget]

/-- A module that has started again. -/
abbrev Restarted (m t : Mod) : Prop := t.phase.spineUp = false ∧ t.rd F.ROOK_STATUS_BOOT = (if m.phase.gooseUp then 1 else 0) ∧ t.cores = [] ∧ t.lines = [] ∧
  (∀ a, a < dramTop → t.bytes a 1 = [0]) ∧ t.flag F.TWIN_STATUS_CLAIM = false

/-- Whether the heat refuses a device reset (R471). -/
abbrev hotNow (m : Mod) : Bool := m.flag F.PWR_THR_STATUS_CRITICAL && decide (signedOf 16 (m.rd F.PWR_TEMP_JUNCTION) ≥ 1680)

theorem restarted_deviceReset (requester master : Nat) (h : m.hotNow = false) : m.Restarted (m.deviceReset requester master) := by
  obtain ⟨h1, h2, h3, h4, h5, h6⟩ := deviceReset_shows requester master h
  exact ⟨h1, h2, h3, h4, fun a ha => bytes_dram_of_mem h5 ha, h6⟩

theorem phase_of_unnoticed (h : t.unnoticed = m.unnoticed) : t.phase = m.phase ∧ t.devSafe = m.devSafe :=
  ⟨(congrArg Mod.phase h :), (congrArg Mod.devSafe h :)⟩

theorem noteFault_shows (m : Mod) : m.noteFault.phase = m.phase ∧ m.noteFault.regs = m.regs ∧ m.noteFault.devSafe = m.devSafe ∧ m.noteFault.twin.faultNext = true :=
  ⟨rfl, rfl, rfl, rfl⟩

theorem safed_shows (m : Mod) : m.safed.phase = m.phase ∧ m.safed.regs = m.regs ∧ m.safed.twin = m.twin := ⟨rfl, rfl, rfl⟩

/-- A device fault with action 2 starts the module again. -/
theorem restarted_deviceFault (cause detail source : Nat) (h : m.rd F.FLT_DEV_ACT_ACT = 2) (hh : m.hotNow = false) :
    m.Restarted (m.deviceFault cause detail source) := by
  have hfr := m.faultNoted_frame cause detail source 3
  rw [deviceFault_two cause detail source h]
  have hphase := (phase_of_unnoticed hfr.rest).1
  have hcrit := hfr.flag F.PWR_THR_STATUS_CRITICAL 0 (by decide)
  have hjun := hfr.rd F.PWR_TEMP_JUNCTION 0 (by decide)
  have hkey : ∀ x : Mod, x.phase = m.phase → x.flag F.PWR_THR_STATUS_CRITICAL = m.flag F.PWR_THR_STATUS_CRITICAL →
      x.rd F.PWR_TEMP_JUNCTION = m.rd F.PWR_TEMP_JUNCTION → m.Restarted (x.noteFault.deviceSafe.deviceReset 1) := fun x h1 h2 h3 => by
    obtain ⟨n1, n2, -, -⟩ := x.noteFault_shows
    obtain ⟨s1, s2, -⟩ := x.noteFault.safed_shows
    have hp := x.noteFault.plugged_deviceSafe
    have hcool : x.noteFault.deviceSafe.hotNow = false := by
      rw [hotNow, hp.flag _ _ (by decide), hp.rd _ _ (by decide), flag_of_regs s2, rd_of_regs s2, flag_of_regs n2, rd_of_regs n2, h2, h3]
      exact hh
    have hr := restarted_deviceReset 1 0xFF hcool
    unfold Restarted at hr ⊢
    rw [hp.phase_eq, s1, n1, h1] at hr
    exact hr
  exact hkey _ hphase hcrit hjun

end Mod

end Sys2Proof.Machine

/-!
Resets of cells, blocks and regions as they are asked for (R447, R449, R451).
-/
namespace Sys2Proof.Machine

namespace Mod

variable {m n t : Mod}

/-! ### Requests -/

theorem fltRst_unprivileged {w : Writer} {kind index : Nat} (hi : index < resetCount kind) (h : m.privWriter w.master.toNat w.sys = false) : m.fltRst w kind index = m := by
  rw [fltRst, if_neg (by omega), h, if_neg Bool.false_ne_true]

theorem fltRst_privileged {w : Writer} {kind index : Nat} (hi : index < resetCount kind) (h : m.privWriter w.master.toNat w.sys = true) :
    m.fltRst w kind index = m.requestReset kind index 0 w.master.toNat := by
  rw [fltRst, if_neg (by omega), h, if_pos rfl]

theorem requestReset_absorbed {kind index requester master : Nat} (hi : index < resetCount kind) (h : m.inReset kind index = true) :
    m.requestReset kind index requester master = m.put F.FLT_RST_STATUS_ABSORBED 0 true := by
  rw [requestReset, if_neg (by omega), h, if_pos rfl]

theorem requestReset_cell {kind index requester master : Nat} (hi : index < resetCount kind) (h : m.inReset kind index = false) (hr : kind ≠ 10) (hd : kind ≠ 11) :
    m.requestReset kind index requester master = (m.resetRecord kind index requester master).cellReset kind index := by
  rw [requestReset, if_neg (by omega), h, if_neg Bool.false_ne_true, if_neg hd, if_neg hr]

/-! ### Cores -/

theorem fq_coreReset (m : Mod) (c : Nat) : (m.coreReset c).fq = m.fq := by
  have henter : (m.coreEnterReset c).fq = m.fq := by
    unfold coreEnterReset gateClear
    rw [put_fq]
    rfl
  have hleave : ∀ x : Mod, (x.coreLeaveReset c).fq = x.fq := fun x => by
    rw [coreLeaveReset_eq]
    split <;> rfl
  exact (hleave _).trans henter

theorem sameRun_coreReset (m : Mod) (c : Nat) : m.SameRun (m.coreReset c) := by
  have hleave : ∀ x : Mod, x.SameRun (x.coreLeaveReset c) := fun x => by
    rw [coreLeaveReset_eq]
    split
    · exact ⟨rfl, rfl, rfl, fun _ _ _ => rfl⟩
    · exact ⟨rfl, rfl, rfl, fun _ _ _ => rfl⟩
  exact (m.sameRun_coreEnterReset c).trans (hleave _)

/-- The core a reset leaves: out of reset where cores run and its domain is on. -/
abbrev coreStarted (m : Mod) (c : Nat) : Core := if m.coresRun && m.domOn c then freshCore c m.mono else {}

theorem core_reset_recorded (m : Mod) (kind i requester master c : Nat) (h : m.rgnDown (c / 8) = false) :
    ((m.resetRecord kind i requester master).coreReset c).core c = m.coreStarted c := by
  have hrep := m.reported_resetRecord kind i requester master
  have hrun := hrep.sameRun
  rw [core_coreReset_self _ c (by rw [hrun.rgnDown]; exact h), hrun.coresRun, hrun.domOn, hrep.mono]

/-- The cores of a block, reset one after the other. -/
theorem core_each_coreReset {l : List Nat} {c : Nat} (hc : c ∈ l) (h : m.rgnDown (c / 8) = false) : (m.each l coreReset).core c = m.coreStarted c := by
  refine each_reaches (I := fun t : Mod => m.SameRun t ∧ t.mono = m.mono) (Q := fun t : Mod => t.core c = m.coreStarted c) (j := c)
    (fun t k ht => ⟨ht.1.trans (t.sameRun_coreReset k), (t.mono_coreReset k).trans ht.2⟩) (fun t ht => ?_) (fun t k hk _ hq => ?_) hc
    ⟨⟨rfl, rfl, rfl, fun _ _ _ => rfl⟩, rfl⟩
  · obtain ⟨hrun, hmono⟩ := ht
    rw [core_coreReset_self t c (by rw [hrun.rgnDown]; exact h), hrun.coresRun, hrun.domOn, hmono]
  · rw [core_coreReset_ne t (Ne.symm hk)]
    exact hq

/-! ### A region's cores and engine -/

theorem core_coreDown (m : Mod) (c k : Nat) : (m.coreDown c).core k = if k = c then {} else m.core k := by
  have hreq : ∀ x : Mod, (x.withoutRequests c).core k = x.core k := fun _ => rfl
  rw [coreDown, hreq]
  split
  · next h => rw [h, core_setCore_self]
  · next h => rw [core_setCore_ne _ _ h, core_l1Clear_ne m h]

theorem each_cons {α : Type} (m : Mod) (x : α) (l : List α) (f : Mod → α → Mod) : m.each (x :: l) f = (f m x).each l f := rfl

theorem core_each_coreDown (l : List Nat) (m : Mod) (k : Nat) : (m.each l coreDown).core k = if k ∈ l then {} else m.core k := by
  induction l generalizing m with
  | nil => rfl
  | cons c l ih =>
    rw [each_cons, ih, core_coreDown]
    by_cases hk : k = c <;> simp [hk]

theorem core_of_cores (h : t.cores = m.cores) (c : Nat) : t.core c = m.core c := by rw [core, h, core]

/-- The cores, the engine and what stands after them of a region that stops. -/
theorem regionStops_shows (m : Mod) (g : Nat) : (∀ k, (m.regionStops g).core k = if k ∈ span (8 * g) 8 then {} else m.core k) ∧
    (m.regionStops g).mxJob g = none := by
  have hcores := core_each_coreDown (span (8 * g) 8) m
  have hkey : ∀ x : Mod, x.Plugged ((((x.lgStart (2 * g)).lgStart (2 * g + 1)).dieDown (2 * g)).dieDown (2 * g + 1)) := fun x =>
    (((x.plugged_lgStart (2 * g)).trans (plugged_lgStart _ (2 * g + 1))).trans (stopped_dieDown _ _)).trans (stopped_dieDown _ _)
  have hjob : ∀ x : Mod, (x.setMxJob g none).cores = x.cores ∧ (x.setMxJob g none).mxJob g = none := fun x =>
    ⟨rfl, by rw [mxJob, setMxJob, Tbl.get_set_self]⟩
  unfold regionStops
  obtain ⟨h1, h2⟩ := hjob (m.each (span (8 * g) 8) coreDown)
  have hp := hkey ((m.each (span (8 * g) 8) coreDown).setMxJob g none)
  refine ⟨fun k => ?_, ?_⟩
  · rw [core_of_cores hp.cores_eq, core_of_cores h1, hcores]
  · rw [mxJob, hp.mx_eq]
    exact h2

theorem mem_span {a n k : Nat} : k ∈ span a n ↔ a ≤ k ∧ k < a + n := by
  simp only [span, List.mem_map, List.mem_range]
  constructor
  · rintro ⟨i, hi, rfl⟩
    omega
  · exact fun h => ⟨k - a, by omega, by omega⟩

/-- A region's reset stops its cores and its engine. -/
theorem regionReset_stops (m : Mod) (g : RegionId) (requester master : Nat) : (m.regionReset g requester master).rgnDown g = true ∧
    (∀ k, k < 8 → (m.regionReset g requester master).core (8 * g.val + k) = {}) ∧
    (∀ k : Nat, k / 8 ≠ g.val → (m.regionReset g requester master).core k = m.core k) ∧ (m.regionReset g requester master).mxJob g = none := by
  have hphase := (m.regionReset_shows g requester master).2
  have hcores := (m.reported_resetRecord 10 g requester master).cores
  have hdown : ∀ x : Mod, (x.regionDown g).cores = x.cores := fun _ => rfl
  rw [rgnDown, hphase]
  rw [regionReset_eq]
  obtain ⟨hc, hj⟩ := ((m.resetRecord 10 g requester master).regionDown g).regionStops_shows g
  refine ⟨rfl, fun k hk => ?_, fun k hk => ?_, hj⟩
  · rw [hc, if_pos (mem_span.mpr (by omega))]
  · rw [hc, if_neg (fun h => hk (by have := mem_span.mp h; omega)), core_of_cores (hdown _), core_of_cores hcores]

end Mod

end Sys2Proof.Machine

/-!
A region's memories zeroed, and its gates applied again (R451).
-/
namespace Sys2Proof.Machine

namespace Mod

variable {m n t : Mod}

/-- From `m` to `t` cores, memory and engines' jobs stay. -/
structure CoresKept (m t : Mod) : Prop where
  cores : t.cores = m.cores
  mem : t.mem = m.mem
  mx : t.mx = m.mx

namespace CoresKept

theorem refl (m : Mod) : m.CoresKept m := ⟨rfl, rfl, rfl⟩

theorem trans (h : m.CoresKept n) (h' : n.CoresKept t) : m.CoresKept t :=
  ⟨h'.cores.trans h.cores, h'.mem.trans h.mem, h'.mx.trans h.mx⟩

theorem each {α : Type} {f : Mod → α → Mod} (hf : ∀ (m : Mod) x, m.CoresKept (f m x)) (l : List α) (m : Mod) : m.CoresKept (m.each l f) :=
  each_keeps (P := fun t : Mod => m.CoresKept t) (fun t x h => h.trans (hf t x)) l (.refl m)

end CoresKept

theorem coresKept_setReg (m : Mod) (r : Reg) (i v : Nat) : m.CoresKept (m.setReg r i v) := ⟨rfl, rfl, rfl⟩
theorem coresKept_wr (m : Mod) (f : Fld) (i v : Nat) : m.CoresKept (m.wr f i v) := m.coresKept_setReg _ _ _
theorem coresKept_put (m : Mod) (f : Fld) (i : Nat) (b : Bool) : m.CoresKept (m.put f i b) := m.coresKept_wr _ _ _

theorem coresKept_gateClear (m : Mod) (k : Nat) : m.CoresKept (m.gateClear k) :=
  ⟨m.cores_gateClear k, m.mem_gateClear k, by rw [gateClear, put_mx]⟩

theorem coresKept_showHold (m : Mod) (p : Nat) : m.CoresKept (m.showHold p) := (m.coresKept_put _ _ _).trans (coresKept_put _ _ _ _)

/-- A clock forgotten, and its registers reset. -/
def clkCleared (m : Mod) (k : Nat) : Mod :=
  ({ m with clks := Tbl.erase m.clks k } : Mod).each [.CLK_STATUS, .CLK_FALLS, .CLK_ELAPSED, .CLK_FALL_TIME] fun m r => m.setReg r k (r.resetVal k)

theorem coresKept_clkCleared (m : Mod) (k : Nat) : m.CoresKept (m.clkCleared k) := by
  have herased : m.CoresKept { m with clks := Tbl.erase m.clks k } := ⟨rfl, rfl, rfl⟩
  exact herased.trans (.each (fun x r => x.coresKept_setReg r k (r.resetVal k)) _ _)

theorem coresKept_clkReset (m : Mod) (k : Nat) : m.CoresKept (m.clkReset k) := by
  unfold clkReset
  extract_lets h x rs y
  have hy : m.CoresKept y := m.coresKept_clkCleared k
  clear_value y h
  split
  · exact hy.trans (.each (fun x p => x.coresKept_showHold p) _ _)
  · exact hy

theorem coresKept_resetNonSt (m : Mod) (r : Reg) (i : Nat) : m.CoresKept (m.resetNonSt r i) := m.coresKept_setReg _ _ _

theorem coresKept_pipeReset (m : Mod) (b : Nat) : m.CoresKept (m.pipeReset b) := by
  unfold pipeReset
  extract_lets x y
  have hx : m.CoresKept x := ⟨rfl, rfl, rfl⟩
  have hy : x.CoresKept y := (coresKept_resetNonSt _ _ _).trans (coresKept_put _ _ _ _)
  exact (hx.trans hy).trans (y.coresKept_put _ _ _)

theorem coresKept_pipesReset (m : Mod) (g : Nat) : m.CoresKept (m.pipesReset g) := by
  unfold pipesReset
  extract_lets x y rs z
  have hx : m.CoresKept x := .each (fun n b => (n.coresKept_pipeReset b).trans (coresKept_resetNonSt _ _ b)) _ m
  have hy : x.CoresKept y := .each (fun n p => n.coresKept_resetNonSt _ p) _ _
  have hz : y.CoresKept z := .each (fun n r => n.coresKept_resetNonSt r g) _ _
  clear_value x y z
  exact ((hx.trans hy).trans hz).trans ⟨rfl, rfl, rfl⟩

theorem coresKept_parkRegion (m : Mod) (g : Nat) : m.CoresKept (m.parkRegion g) := by
  unfold parkRegion
  refine .each (fun x k => ?_) _ _
  dsimp only
  split
  · refine .trans ?_ (coresKept_setReg _ _ _ _)
    split
    · exact .refl _
    · exact ⟨rfl, rfl, rfl⟩
  · exact .refl _

/-- The registers of an engine reset. -/
def mxRegsReset (m : Mod) (g : Nat) : Mod :=
  m.each [.MX_CTRL, .MX_STATUS, .MX_RING_BASE, .MX_RING_SIZE, .MX_PROD, .MX_CONS, .MX_FAIL, .MX_JOBS, .MX_CYCLES] fun m r => m.setReg r g (r.resetVal g)

theorem mxReset_eq (m : Mod) (g : Nat) : m.mxReset g = (m.mxRegsReset g).setMxJob g none := rfl

theorem coresKept_mxRegsReset (m : Mod) (g : Nat) : m.CoresKept (m.mxRegsReset g) := .each (fun x r => x.coresKept_setReg r g (r.resetVal g)) _ m

/-- The cores of the region in reset, its scratch and signal memory zeroed. -/
def regionCleared (m : Mod) (g : Nat) : Mod := ((m.each (span (8 * g) 8) coreEnterReset).zeroRange (rgnScratch g) 0x400000).sigZero g

/-- The registers of the range operation. -/
def rangeRegs : List Reg := [.SC_RNG_BASE, .SC_RNG_LEN, .SC_RNG_CMD, .SC_RNG_STATUS, .SC_RNG_COUNT, .SC_RNG_SKIPPED, .SC_RNG_FAIL]

/-- The gates and clocks of the region cleared. -/
def gatesCleared (m : Mod) (g : Nat) : Mod := (((m.gateClear (1 + g)).gateClear (5 + g)).gateClear (9 + g)).each (span (128 * g) 128) clkReset

/-- What else of the region is reset once its engine is. -/
def restCleared (m : Mod) (g : Nat) : Mod := ((m.parkRegion g).pipesReset g).each rangeRegs fun m r => m.setReg r g (r.resetVal g)

/-- The region's reset past its zeroing. -/
def phaseTwo (m : Mod) (g : Nat) : Mod := { m with rng := Tbl.set none m.rng g none, rgnPhase := Tbl.set 0 m.rgnPhase g 2 }

theorem regionZeroed_eq (m : Mod) (g : Nat) : m.regionZeroed g = ((((m.regionCleared g).gatesCleared g).mxReset g).restCleared g).phaseTwo g := by
  unfold regionZeroed regionCleared gatesCleared restCleared phaseTwo rangeRegs
  rfl

theorem coresKept_gatesCleared (m : Mod) (g : Nat) : m.CoresKept (m.gatesCleared g) :=
  (((m.coresKept_gateClear _).trans (coresKept_gateClear _ _)).trans (coresKept_gateClear _ _)).trans (.each (fun x k => x.coresKept_clkReset k) _ _)

theorem coresKept_restCleared (m : Mod) (g : Nat) : m.CoresKept (m.restCleared g) :=
  ((m.coresKept_parkRegion g).trans (coresKept_pipesReset _ g)).trans (.each (fun x r => x.coresKept_setReg r g (r.resetVal g)) _ _)

/-- A cell that read 0 still does once a range is zeroed. -/
theorem cellGet_zeroRange_zero {a b n : Nat} (hd : memDefault a = 0) (h : cellGet m.mem a = 0) : cellGet (m.zeroRange b n).mem a = 0 := by
  by_cases hin : b ≤ a ∧ a < b + n
  · exact (cellGet_zeroRange m hin.1 hin.2).trans hd
  · refine Eq.trans ?_ h
    rw [mem_zeroRange]
    exact Tbl.get_filter _ _ _ _ fun v => by simp; omega

theorem bytes_one_of_cellGet {a : Nat} (h : cellGet t.mem a = 0) : t.bytes a 1 = [0] := by simp [bytes, cellsGet, h]

theorem mem_sigZero (m : Mod) (g : Nat) : (m.sigZero g).mem = (m.zeroRange (signalBase g) 0x200000).mem := rfl

theorem memDefault_above {a : Nat} (h : 0x1002000000 ≤ a) : memDefault a = 0 := if_neg fun e => absurd e.2 (Nat.not_lt.mpr h)

/-- The region's scratch and its signal memory read 0. -/
theorem regionCleared_zero (m : Mod) (g : RegionId) {a : Nat}
    (h : (rgnScratch g ≤ a ∧ a < rgnScratch g + 0x400000) ∨ (signalBase g ≤ a ∧ a < signalBase g + 0x200000)) : cellGet (m.regionCleared g).mem a = 0 := by
  have hd : memDefault a = 0 := memDefault_above (by simp only [rgnScratch, signalBase] at h; omega)
  unfold regionCleared
  rw [mem_sigZero]
  rcases h with h | h
  · exact cellGet_zeroRange_zero hd ((cellGet_zeroRange _ h.1 h.2).trans hd)
  · exact (cellGet_zeroRange _ h.1 h.2).trans hd

theorem core_each_coreEnterReset {l : List Nat} {c : Nat} (hc : c ∈ l) : (m.each l coreEnterReset).core c = {} := by
  refine each_reaches (I := fun _ => True) (Q := fun t : Mod => t.core c = {}) (j := c) (fun _ _ _ => trivial) (fun t _ => t.core_coreEnterReset_self c)
    (fun t k hk _ h => ?_) hc trivial
  rw [core_coreEnterReset_ne t (Ne.symm hk)]
  exact h

theorem cores_sigZero (m : Mod) (g : Nat) : (m.sigZero g).cores = m.cores := rfl

theorem cores_regionCleared (m : Mod) (g : Nat) : (m.regionCleared g).cores = (m.each (span (8 * g) 8) coreEnterReset).cores := by
  rw [regionCleared, cores_sigZero, cores_zeroRange]

theorem setMxJob_shows (m : Mod) (g : Nat) : (m.setMxJob g none).cores = m.cores ∧ (m.setMxJob g none).mem = m.mem ∧ (m.setMxJob g none).mxJob g = none :=
  ⟨rfl, rfl, by rw [mxJob, setMxJob, Tbl.get_set_self]⟩

theorem phaseTwo_shows (m : Mod) (g : Nat) : Tbl.get 0 (m.phaseTwo g).rgnPhase g = 2 ∧ (m.phaseTwo g).cores = m.cores ∧ (m.phaseTwo g).mem = m.mem ∧
    (m.phaseTwo g).mx = m.mx := ⟨by rw [phaseTwo, Tbl.get_set_self], rfl, rfl, rfl⟩

/-- The region past its zeroing. -/
theorem regionZeroed_shows (m : Mod) (g : RegionId) : Tbl.get 0 (m.regionZeroed g).rgnPhase g = 2 ∧
    (∀ a, rgnScratch g ≤ a → a < rgnScratch g + 0x400000 → (m.regionZeroed g).bytes a 1 = [0]) ∧
    (∀ a, signalBase g ≤ a → a < signalBase g + 0x200000 → (m.regionZeroed g).bytes a 1 = [0]) ∧
    (∀ k : Nat, k / 8 = g.val → ((m.regionZeroed g).core k).sb = []) ∧ (m.regionZeroed g).mxJob g = none := by
  have hzero := fun a h => m.regionCleared_zero g (a := a) h
  have hcore := fun k hk => core_each_coreEnterReset (m := m) (l := span (8 * g) 8) (c := k) hk
  have hk1 := (m.regionCleared g).coresKept_gatesCleared g
  have hk2 := ((m.regionCleared g).gatesCleared g).coresKept_mxRegsReset g
  obtain ⟨jc, jm, jj⟩ := (((m.regionCleared g).gatesCleared g).mxRegsReset g).setMxJob_shows g
  have hk3 := ((((m.regionCleared g).gatesCleared g).mxReset g).coresKept_restCleared g)
  obtain ⟨hp, pc, pm, px⟩ := ((((m.regionCleared g).gatesCleared g).mxReset g).restCleared g).phaseTwo_shows g
  rw [← mxReset_eq] at jc jm jj
  have hmem : (m.regionZeroed g).mem = (m.regionCleared g).mem := by rw [regionZeroed_eq, pm, hk3.mem, jm, hk2.mem, hk1.mem]
  have hcores : (m.regionZeroed g).cores = (m.each (span (8 * g) 8) coreEnterReset).cores := by
    rw [regionZeroed_eq, pc, hk3.cores, jc, hk2.cores, hk1.cores, cores_regionCleared]
  have hjob : (m.regionZeroed g).mxJob g = none := by
    rw [mxJob, regionZeroed_eq, px, hk3.mx]
    exact jj
  refine ⟨by rw [regionZeroed_eq]; exact hp, fun a h1 h2 => bytes_one_of_cellGet ?_, fun a h1 h2 => bytes_one_of_cellGet ?_, fun k hk => ?_, hjob⟩
  · rw [hmem]
    exact hzero a (.inl ⟨h1, h2⟩)
  · rw [hmem]
    exact hzero a (.inr ⟨h1, h2⟩)
  · rw [core_of_cores hcores, hcore k (mem_span.mpr (by omega))]

/-! ### Gates applied again -/

theorem gateReapply_none (m : Mod) (g : Nat) (h : Tbl.get 0 m.rgnPhase g ≠ 3) : m.gateReapply g = m := by rw [gateReapply, if_pos h]

/-- The region's reset over. -/
def phaseOver (m : Mod) (g : Nat) : Mod := { m with rgnPhase := Tbl.set 0 m.rgnPhase g 0 }.wr (F.FLT_RGN_STATE_STATE g) 0 0

theorem phaseOver_shows (m : Mod) (g : RegionId) : Tbl.get 0 (m.phaseOver g).rgnPhase g = 0 ∧ (m.phaseOver g).rd (F.FLT_RGN_STATE_STATE g) = 0 := by
  unfold phaseOver
  refine ⟨?_, ?_⟩
  · rw [wr_rgnPhase, Tbl.get_set_self]
  · fin_cases g <;> exact rd_wr_self _ _ _ _ (by decide)

theorem gateReapply_eq (m : Mod) (g : Nat) (h : Tbl.get 0 m.rgnPhase g = 3) : ∃ x : Mod, m.gateReapply g = x.phaseOver g := by
  rw [gateReapply, if_neg (fun e => e h)]
  exact ⟨_, rfl⟩

end Mod

end Sys2Proof.Machine

/-!
What follows a commit of configuration values (R383, R451 t5): ports, pipelines, ways, power domains and the mesh take their settings over. Staged
settings' registers, the module's state of service and the regions' phases stay, and no core or engine that was idle has work.
-/
namespace Sys2Proof.Machine

namespace Mod

variable {m n t : Mod}

/-- The registers that what follows a commit may change. None holds a staged setting. -/
def followRegs : List Reg :=
  plugRegs ++ ([.FSW_STATUS, .SPL_PORT_STATUS, .SC_RGN_STATUS, .TB_GM_NODE, .PWR_THR_STATUS, .PWR_DOM_STATE, .GATE_ENT_BASE, .GATE_ENT_TOP,
    .GATE_ENT_MASTERS, .GATE_ENT_CTRL, .GATE_ENT_EPOCH, .GATE_G_CTRL, .GATE_G_STATUS, .MX_CTRL, .MX_STATUS, .MX_RING_BASE, .MX_RING_SIZE,
    .GATE_G_COUNT, .EVD_SRC, .MX_PROD, .MX_CONS, .MX_FAIL, .MX_JOBS, .MX_CYCLES] : List Reg)

/-- From `m` to `t` a commit's settings were taken over. -/
structure Followed (m t : Mod) : Prop where
  phase : t.phase = m.phase
  rgnPhase : t.rgnPhase = m.rgnPhase
  reg : ∀ r i, r ∉ followRegs → t.reg r i = m.reg r i
  sb : ∀ k, (m.core k).sb = [] → (t.core k).sb = []
  mx : ∀ g, m.mxJob g = none → t.mxJob g = none

namespace Followed

theorem refl (m : Mod) : m.Followed m := ⟨rfl, rfl, fun _ _ _ => rfl, fun _ h => h, fun _ h => h⟩

theorem trans (h : m.Followed n) (h' : n.Followed t) : m.Followed t :=
  ⟨h'.phase.trans h.phase, h'.rgnPhase.trans h.rgnPhase, fun r i hr => (h'.reg r i hr).trans (h.reg r i hr), fun k hk => h'.sb k (h.sb k hk),
    fun g hg => h'.mx g (h.mx g hg)⟩

theorem each {α : Type} {f : Mod → α → Mod} (hf : ∀ (m : Mod) x, m.Followed (f m x)) (l : List α) (m : Mod) : m.Followed (m.each l f) :=
  each_keeps (P := fun t : Mod => m.Followed t) (fun t x h => h.trans (hf t x)) l (.refl m)

theorem iff {f : Mod → Mod} (b : Bool) (h : m.Followed (f m)) : m.Followed (m.iff b f) := iff_keeps b h (.refl m)

/-- A change that leaves the registers' file, cores and engines. -/
theorem of_rest (hp : t.phase = m.phase) (hg : t.rgnPhase = m.rgnPhase) (hr : t.regs = m.regs) (hc : t.cores = m.cores) (hx : t.mx = m.mx) : m.Followed t :=
  ⟨hp, hg, fun r i _ => reg_of_regs hr r i, fun k h => by rw [core_of_cores hc]; exact h, fun g h => by rw [mxJob, hx]; exact h⟩

theorem of_plugged (h : m.Plugged t) : m.Followed t where
  phase := h.phase_eq
  rgnPhase := h.rgnPhase_eq
  reg r i hr := h.regs r i fun hin => hr (List.mem_append_left _ hin)
  sb k hk := by rw [core_of_cores h.cores_eq]; exact hk
  mx g hg := by rw [mxJob, h.mx_eq]; exact hg

theorem of_cached (h : m.Cached t) : m.Followed t where
  phase := (congrArg Mod.phase h.rest :)
  rgnPhase := (congrArg Mod.rgnPhase h.rest :)
  reg r i _ := h.reg r i
  sb k hk := (congrArg Core.sb (h.core k) :).trans hk
  mx g hg := (congrArg (fun x : Mod => Tbl.get none x.mx g) h.rest :).trans hg

theorem rd (h : m.Followed t) (f : Fld) (i : Nat) (hf : f.reg ∉ followRegs) : t.rd f i = m.rd f i := by rw [Mod.rd, h.reg _ _ hf, Mod.rd]

end Followed

theorem followed_setReg (m : Mod) (r : Reg) (i v : Nat) (h : r ∈ followRegs) : m.Followed (m.setReg r i v) :=
  ⟨rfl, rfl, fun _ _ hr => reg_setReg_ne m v fun e => hr (e.1 ▸ h), fun _ h => h, fun _ h => h⟩

theorem followed_wr (m : Mod) (f : Fld) (i v : Nat) (h : f.reg ∈ followRegs) : m.Followed (m.wr f i v) := m.followed_setReg _ _ _ h
theorem followed_put (m : Mod) (f : Fld) (i : Nat) (b : Bool) (h : f.reg ∈ followRegs) : m.Followed (m.put f i b) := m.followed_wr f i _ h

theorem followed_setCore (m : Mod) (c : Nat) (k : Core) (h : k.sb = []) : m.Followed (m.setCore c k) :=
  ⟨rfl, rfl, fun _ _ _ => rfl, fun c' hc' => by
    by_cases e : c' = c
    · rw [e, core_setCore_self, h]
    · rw [core_setCore_ne m k e, hc'], fun _ h => h⟩

theorem followed_setMxJob (m : Mod) (g : Nat) : m.Followed (m.setMxJob g none) :=
  ⟨rfl, rfl, fun _ _ _ => rfl, fun _ h => h, fun g' hg' => by
    by_cases e : g' = g
    · rw [e, mxJob_setMxJob]
    · exact (Tbl.get_set_ne none none m.mx none e).trans hg'⟩

/-! ### Ports -/

theorem followed_fwdForget (m : Mod) (p : Nat) : m.Followed (m.fwdForget p) := by
  have hf : ∀ x, m.Followed { m with fwd := x } := fun _ => .of_rest rfl rfl rfl rfl rfl
  exact (hf _).trans (followed_wr _ _ _ _ (by decide))

theorem followed_linkDown (m : Mod) (p : Nat) (b : Bool) : m.Followed (m.iff b fun m => (m.fwdForget p).put F.PORT_STATUS_LINK_UP p false) :=
  .iff _ ((m.followed_fwdForget p).trans (followed_put _ _ _ _ (by decide)))

theorem followed_setPort (m : Mod) (p : Nat) (q : Port) : m.Followed (m.setPort p q) := .of_plugged (m.plugged_setPort p q)
theorem followed_zeroCount (m : Mod) (p : Nat) : m.Followed (m.zeroCount p) := .of_plugged (m.plugged_zeroCount p)
theorem followed_clearDiag (m : Mod) (p e : Nat) : m.Followed (m.clearDiag p e) := .of_plugged (m.plugged_clearDiag p e)
theorem followed_setMismatch (m : Mod) (p : Nat) (r : Option Nat) : m.Followed (m.setMismatch p r) := .of_plugged (m.plugged_setMismatch p r)
theorem followed_lgStart (m : Mod) (k : Nat) : m.Followed (m.lgStart k) := .of_plugged (m.plugged_lgStart k)

theorem followed_portWorkEnds (m : Mod) (p : Nat) : m.Followed (((m.tdrAbort p).hartAbort p).overtake p) :=
  .of_plugged (((m.plugged_tdrAbort p).trans (plugged_hartAbort _ p)).trans (plugged_overtake _ p))

theorem followed_portBegin (m : Mod) (p e : Nat) : m.Followed (m.portBegin p e) := by
  unfold portBegin
  extract_lets old x y z q w
  have hx : m.Followed x := m.followed_portWorkEnds p
  have hy : x.Followed y := x.followed_linkDown p _
  have hz : y.Followed z := .iff _ ((y.followed_zeroCount p).trans (followed_clearDiag _ p e))
  have hw : z.Followed w := z.followed_setPort p _
  exact (((hx.trans hy).trans hz).trans hw).trans ((w.followed_wr _ _ _ (by decide)).trans (followed_put _ _ _ _ (by decide)))

theorem followed_portReeval (m : Mod) (p : Nat) (b : Bool) : m.Followed (m.portReeval p b) := by
  unfold portReeval
  dsimp only
  have hmis := m.followed_setMismatch p (m.effOf p).2
  split
  · exact hmis
  · split
    · refine hmis.trans (.trans (.trans (.trans ?_ (followed_zeroCount _ p)) (followed_clearDiag _ p _)) (followed_wr _ _ _ _ (by decide)))
      exact .of_plugged (plugged_hartAbort _ p)
    · exact hmis.trans (followed_portBegin _ p _)

theorem followed_portReturn (m : Mod) (p : Nat) : m.Followed (m.portReturn p) := m.followed_setPort p _

theorem followed_setDie (m : Mod) (d : Nat) (x : Die) : m.Followed (m.setDie d x) := .of_rest rfl rfl rfl rfl rfl

theorem followed_linkShow (m : Mod) (d : Nat) (b : Bool) : m.Followed (m.linkShow d b) :=
  .each (fun x k => (x.followed_put _ _ _ (by decide)).trans (followed_put _ _ _ _ (by decide))) _ m

theorem followed_dieHears (m : Mod) (d : Nat) : m.Followed (m.dieHears d) := (m.followed_setDie d _).trans (followed_linkShow _ d true)

theorem followed_dieCommit (m : Mod) (d : Nat) : m.Followed (m.dieCommit d) := by
  unfold dieCommit
  split
  · exact .refl m
  · exact ((m.followed_setDie d _).trans (.each (fun x p => x.followed_portReturn p) _ _)).trans (.each (fun x p => x.followed_portReeval p false) _ _)

theorem followed_portsCommit (m : Mod) (old : List (Nat × Nat × Nat)) : m.Followed (m.portsCommit old) :=
  (Followed.each (fun x _ => .iff _ (x.followed_setPort _ _)) _ m).trans (.each (fun x _ => x.followed_portReeval _ _) _ _)

theorem followed_portStop (m : Mod) (p : Nat) : m.Followed (m.portStop p) := by
  unfold portStop
  extract_lets x q y z
  have hx : m.Followed x := m.followed_linkDown p _
  have hy : x.Followed y := x.followed_setPort p _
  have hz : y.Followed z := (y.followed_zeroCount p).trans (followed_clearDiag _ p 0)
  exact ((hx.trans hy).trans hz).trans ((z.followed_wr _ _ _ (by decide)).trans (followed_put _ _ _ _ (by decide)))

theorem followed_portDark (m : Mod) (p : Nat) : m.Followed (m.portDark p) := by
  unfold portDark
  extract_lets x y z
  have hx : m.Followed x := m.followed_portWorkEnds p
  have hy : x.Followed y := x.followed_linkDown p _
  have hz : y.Followed z := ((y.followed_portStop p).trans (followed_zeroCount _ p)).trans (followed_setMismatch _ p none)
  exact ((hx.trans hy).trans hz).trans (followed_setReg _ _ _ _ (by decide))

theorem followed_dieDark (m : Mod) (d : Nat) : m.Followed (m.dieDark d) :=
  ((m.followed_setDie d _).trans (followed_linkShow _ d false)).trans (.each (fun x p => x.followed_portDark p) _ _)

/-! ### Pipelines, slots and ways -/

theorem followed_chainCommit (m old : Mod) (p : Nat) (b : Bool) : m.Followed (m.chainCommit old p b) := by
  have hs : ∀ x, m.Followed { m with settleEnd := x } := fun _ => .of_rest rfl rfl rfl rfl rfl
  unfold chainCommit
  extract_lets r x
  split
  · exact .refl m
  · have hx : m.Followed x := hs _
    exact hx.trans (x.followed_put _ p _ (by cases b <;> decide))

theorem followed_showNoCommit (m : Mod) (b : Nat) : m.Followed (m.showNoCommit b) := m.followed_put _ _ _ (by decide)

theorem followed_pipesCommit (m old : Mod) : m.Followed (m.pipesCommit old) := by
  have ha : ∀ (y : Mod) x, y.Followed { y with recAux := x } := fun _ _ => .of_rest rfl rfl rfl rfl rfl
  unfold pipesCommit
  extract_lets x y z
  have hx : m.Followed x := .each (fun n p => n.followed_chainCommit old p false) _ m
  have hy : x.Followed y := .each (fun n p => n.followed_chainCommit old p true) _ x
  have hz : y.Followed z := ha y _
  exact ((hx.trans hy).trans hz).trans (.each (fun n b => n.followed_showNoCommit b) _ _)

theorem followed_pipesRestart (m old : Mod) (g : Nat) : m.Followed (m.pipesRestart old g) :=
  (Followed.each (fun n p => (n.followed_chainCommit old p false).trans (followed_chainCommit _ old p true)) _ m).trans
    (.each (fun n b => n.followed_showNoCommit b) _ _)

theorem followed_slotCommit (m : Mod) (sl a b : Nat) : m.Followed (m.slotCommit sl a b) := by
  unfold slotCommit
  split
  · exact .refl m
  · exact .of_rest rfl rfl rfl rfl rfl

theorem followed_emptyWay (m : Mod) (g w : Nat) : m.Followed (m.emptyWay g w) :=
  .of_cached ((Cached.each (fun x sl => x.cached_acceptVictims sl) _ m).trans (.each (fun x ln => (x.cached_cleanLine ln).trans (cached_dropLine _ ln)) _ _))

theorem followed_zeroRange (m : Mod) (a k : Nat) : m.Followed (m.zeroRange a k) := .of_rest rfl rfl rfl rfl rfl

theorem followed_waysCommit (m : Mod) (g a b : Nat) : m.Followed (m.waysCommit g a b) := by
  have hp : ∀ (y : Mod) x, y.Followed { y with pdWays := x } := fun _ _ => .of_rest rfl rfl rfl rfl rfl
  unfold waysCommit
  extract_lets w eff busy gone x y z mask u clean
  have hx : m.Followed x := .each (fun n v => n.followed_emptyWay g v) _ m
  have hy : x.Followed y := by
    unfold y
    split
    · exact (x.followed_zeroRange _ _).trans (followed_wr _ _ _ _ (by decide))
    · exact .refl x
  have hz : m.Followed z := by
    unfold z
    split
    · exact .refl m
    · exact (hx.trans hy).trans (y.followed_put _ g _ (by decide))
  have hu : z.Followed u := .each (fun n v => n.followed_emptyWay g v) _ z
  refine (hz.trans hu).trans (.iff _ ?_)
  exact (hp u (Tbl.set 0 u.pdWays g clean)).trans (followed_put _ F.SC_RGN_STATUS_PD_BUSY g (clean != 0) (by decide))

end Mod

end Sys2Proof.Machine

/-!
What follows a commit, continued: power domains, links, the time source and the shedding of heat.
-/
namespace Sys2Proof.Machine

namespace Mod

variable {m n t : Mod}

/-- A walk over a list each of whose steps keeps what follows a commit, where the steps may lean on what `m` holds. -/
theorem Followed.each_of {α : Type} {f : Mod → α → Mod} {l : List α} (hf : ∀ t : Mod, m.Followed t → ∀ x ∈ l, t.Followed (f t x)) :
    m.Followed (m.each l f) := by
  have key : ∀ (l' : List α), (∀ x ∈ l', x ∈ l) → ∀ t : Mod, m.Followed t → m.Followed (t.each l' f) := fun l' => by
    induction l' with
    | nil => exact fun _ t h => h
    | cons x xs ih =>
      intro hin t ht
      rw [each_cons]
      exact ih (fun y hy => hin y (List.mem_cons_of_mem _ hy)) _ (ht.trans (hf t ht x (hin x List.mem_cons_self)))
  exact key l (fun _ h => h) m (.refl m)

/-! ### Power domains -/

theorem followed_setDom (m : Mod) (d : Nat) (b : Bool) : m.Followed (m.setDom d b) := m.followed_wr _ _ _ (by decide)

theorem followed_waking (m : Mod) (x : List (Nat × Nat)) : m.Followed { m with waking := x } := .of_rest rfl rfl rfl rfl rfl
theorem followed_domRetry (m : Mod) (x : List Nat) : m.Followed { m with domRetry := x } := .of_rest rfl rfl rfl rfl rfl

theorem followed_domApply (m : Mod) (d : Nat) : m.Followed (m.domApply d) := by
  unfold domApply
  split
  · exact .refl m
  · exact (m.followed_setDom d true).trans (followed_waking _ _)

theorem followed_gateClear (m : Mod) (k : Nat) : m.Followed (m.gateClear k) where
  phase := (m.sameRun_gateClear k).phase
  rgnPhase := (m.sameRun_gateClear k).rgnPhase
  reg r i hr := m.reg_gateClear k (fun h => hr ((by decide : ∀ r ∈ [Reg.GATE_ENT_BASE, .GATE_ENT_TOP, .GATE_ENT_MASTERS, .GATE_ENT_CTRL, .GATE_ENT_EPOCH,
    .GATE_G_CTRL], r ∈ followRegs) r h)) i
  sb c hc := by rw [core_of_cores (m.coresKept_gateClear k).cores]; exact hc
  mx g hg := by rw [mxJob, (m.coresKept_gateClear k).mx]; exact hg

theorem followed_gateOff (m : Mod) (k : Nat) : m.Followed (m.gateOff k) :=
  (m.followed_gateClear k).trans (.each_of fun t _ r hr => t.followed_setReg r k _
    ((by decide : ∀ r ∈ [Reg.GATE_G_CTRL, .GATE_G_STATUS, .GATE_G_COUNT], r ∈ followRegs) r hr))

theorem mx_coreEnterReset (m : Mod) (c : Nat) : (m.coreEnterReset c).mx = m.mx := by
  have hrest : ∀ (x : Mod) (l : List MeshReq), (({ x with req := l } : Mod).zeroRange (coreScratch c) 0x20000).mx = x.mx := fun _ _ => rfl
  unfold coreEnterReset
  rw [(coresKept_gateClear _ _).mx, hrest]
  rfl

theorem reg_coreEnterReset (m : Mod) (c : Nat) {r : Reg} (i : Nat) (hr : r ∉ followRegs) : (m.coreEnterReset c).reg r i = m.reg r i := by
  have hl1 : ∀ x : Mod, (x.l1Clear c).regs = x.regs := fun _ => rfl
  have hrest : ∀ (x : Mod) (l : List MeshReq), (({ x.setCore c {} with req := l } : Mod).zeroRange (coreScratch c) 0x20000).regs = x.regs := fun _ _ => rfl
  unfold coreEnterReset
  rw [(followed_gateClear _ _).reg r i hr, reg_of_regs (hrest _ _), reg_evdClear _ _ (fun e => absurd hr (by rw [e]; decide)), reg_of_regs (hl1 m)]

theorem followed_coreEnterReset (m : Mod) (c : Nat) : m.Followed (m.coreEnterReset c) where
  phase := (m.sameRun_coreEnterReset c).phase
  rgnPhase := (m.sameRun_coreEnterReset c).rgnPhase
  reg r i hr := m.reg_coreEnterReset c i hr
  sb k hk := by
    by_cases e : k = c
    · rw [e, core_coreEnterReset_self]
    · rw [core_coreEnterReset_ne m e, hk]
  mx g hg := by rw [mxJob, m.mx_coreEnterReset c]; exact hg

theorem drain_empty {c : Nat} (h : (m.core c).sb = []) : m.drain c = m := by
  have hn : (m.core c).nextStore = none := by rw [Core.nextStore, h]; rfl
  rw [drain, drainStores, hn]

theorem followed_mxReset (m : Mod) (g : Nat) : m.Followed (m.mxReset g) :=
  (Followed.each_of fun t _ r hr => t.followed_setReg r g _ ((by decide : ∀ r ∈ [Reg.MX_CTRL, .MX_STATUS, .MX_RING_BASE, .MX_RING_SIZE, .MX_PROD, .MX_CONS,
    .MX_FAIL, .MX_JOBS, .MX_CYCLES], r ∈ followRegs) r hr)).trans (followed_setMxJob _ g)

theorem mxAbort_none {g : Nat} (h : m.mxJob g = none) : m.mxAbort g = m := by rw [mxAbort, h]
theorem mxDone_none {g : Nat} (h : m.mxJob g = none) : m.mxDone g = m := by rw [mxDone, h]

/-- A core's, engine's, lane group's or port die's domain whose core or engine has no store or job under way. -/
structure DomIdle (m : Mod) (d : Nat) : Prop where
  mem : d ∈ fwDomains
  core : d < 32 → (m.core d).sb = []
  engine : 44 ≤ d → d < 48 → m.mxJob (d - 44) = none

theorem DomIdle.follow {d : Nat} (h : m.DomIdle d) (hf : m.Followed t) : t.DomIdle d :=
  ⟨h.mem, fun hd => hf.sb d (h.core hd), fun h1 h2 => hf.mx _ (h.engine h1 h2)⟩

theorem followed_domContents {d : Nat} (h : m.DomIdle d) : m.Followed (m.domContents d) := by
  have hd : d < 32 ∨ (44 ≤ d ∧ d < 64) := by
    rcases List.mem_append.mp h.mem with hlow | hhigh
    · exact .inl (List.mem_range.mp hlow)
    · exact .inr (mem_span.mp hhigh)
  unfold domContents
  by_cases h32 : d < 32
  · rw [if_pos h32, drain_empty (h.core h32)]
    exact (m.followed_coreEnterReset d).trans (followed_gateOff _ _)
  · rw [if_neg h32, if_neg (show ¬ d < 40 by omega), if_neg (show ¬ d < 44 by omega)]
    by_cases h48 : d < 48
    · have hj := h.engine (by omega) h48
      rw [if_pos h48, mxAbort_none hj, mxDone_none hj]
      exact m.followed_mxReset _
    · rw [if_neg h48]
      split
      · exact .refl m
      · next h56 =>
        have h64 : d < 64 := by omega
        rw [if_pos h64]
        exact m.followed_dieDark _

theorem followed_domOff {d : Nat} (h : m.DomIdle d) : m.Followed (m.domOff d) := by
  have hc : domChildren d = [] := (by decide : ∀ d ∈ fwDomains, domChildren d = []) d h.mem
  unfold domOff
  rw [hc]
  show m.Followed (m.domOff1 d)
  unfold domOff1
  split
  · exact .refl m
  · have hcont := followed_domContents h
    exact ((hcont.trans (followed_setDom _ d false)).trans (followed_waking _ _)).trans (.iff _ (followed_lgStart _ _))

theorem followed_powerCommit (m old : Mod) (h : ∀ d ∈ fwDomains, m.DomIdle d) : m.Followed (m.powerCommit old) := by
  refine .each_of fun t ht d hd => ?_
  unfold domFollow
  dsimp only
  split
  · exact .refl t
  · split
    · exact followed_domOff ((h d hd).follow ht)
    · split
      · exact (t.followed_domRetry _).trans (followed_domApply _ d)
      · exact .refl t

theorem followed_resetCommits (m : Mod) (x : List Nat) : m.Followed { m with resetCommits := x } := .of_rest rfl rfl rfl rfl rfl

theorem followed_powerRestart {g : Nat} (h : ∀ d ∈ fwDomains, domRegion d = g → m.DomIdle d) : m.Followed (m.powerRestart g) := by
  unfold powerRestart
  split
  · exact .refl m
  · have hstart := m.followed_resetCommits (m.resetCommits.filter (· != g))
    refine hstart.trans (.each_of fun t ht d hd => ?_)
    obtain ⟨hin, hg⟩ := List.mem_filter.mp hd
    dsimp only
    split
    · exact .refl t
    · split
      · exact (t.followed_domRetry _).trans (followed_domApply _ d)
      · exact followed_domOff (((h d hin (by simpa using hg)).follow hstart).follow ht)

/-! ### Time source, mesh and heat -/

theorem followed_of_unsent (h : t.unsent = m.unsent) : m.Followed t := .of_plugged (plugged_of_unsent h)

theorem followed_setLocked (m : Mod) (b : Bool) : m.Followed (m.setLocked b) := by
  have h := m.setLocked_frame b
  refine (m.followed_put F.TB_STATUS_LOCKED 0 b (by decide)).trans ?_
  generalize m.put F.TB_STATUS_LOCKED 0 b = x at h
  generalize m.setLocked b = y at h
  exact ⟨(congrArg Mod.phase h.rest :), (congrArg Mod.rgnPhase h.rest :), fun r i hr => h.regs r i fun hin =>
    hr ((by decide : ∀ r ∈ lockRegs, r ∈ followRegs) r hin), fun k hk => (congrArg (fun x : Mod => (x.core k).sb) h.rest :).trans hk,
    fun g hg => (congrArg (fun x : Mod => x.mxJob g) h.rest :).trans hg⟩

theorem followed_srcCommit (m : Mod) (old : Nat) : m.Followed (m.srcCommit old) := by
  have hs : ∀ (x : Mod), x.Followed { x with goodIv := 0, badIv := 0, lastSync := x.mono, rate10 := 0 } := fun _ => .of_rest rfl rfl rfl rfl rfl
  unfold srcCommit
  dsimp only
  split
  · exact .refl m
  · refine .trans ((hs m).trans (followed_put _ F.TB_STATUS_SRC_OK 0 false (by decide))) ?_
    split
    · exact followed_setLocked _ _
    · exact (followed_setLocked _ _).trans (followed_put _ _ _ _ (by decide))

theorem followed_leaveGrandmaster (m : Mod) : m.Followed m.leaveGrandmaster :=
  ((((m.followed_wr _ _ _ (by decide)).trans (followed_put _ _ _ _ (by decide))).trans (followed_put _ _ _ _ (by decide))).trans
    (followed_wr _ _ _ _ (by decide))).trans (followed_srcCommit _ _)

theorem followed_barAgain (m : Mod) : m.Followed m.barAgain := by
  have hf := Followed.of_plugged (m.plugged_fed { m.fed with reported := [] })
  unfold barAgain
  dsimp only
  split
  · exact hf.trans (.each (fun x b => .of_plugged (plugged_of_tree (x.treeKept_barCheck b))) _ _)
  · exact hf

theorem followed_serving (m : Mod) (x : List Serv) : m.Followed { m with serving := x } := .of_rest rfl rfl rfl rfl rfl

theorem followed_giveCredits (m : Mod) (l vc k : Nat) : m.Followed (m.giveCredits l vc k) := followed_of_unsent (m.unsent_giveCredits l vc k)

theorem followed_serviceEnds (m : Mod) : m.Followed m.serviceEnds := by
  unfold serviceEnds
  dsimp only
  refine (m.followed_serving _).trans (.each (fun x e => ?_) _ _)
  have hg : x.Followed (x.each e.owed fun m vc => m.giveCredits e.link vc 1) := .each (fun y vc => y.followed_giveCredits _ vc 1) _ x
  split
  · exact hg
  · split
    · exact hg
    · exact hg.trans ((followed_serving _ _).trans (followed_giveCredits _ _ 0 1))

/-- A lane group starts again where its settings have changed, and a link of it that has failed does. -/
def lgFollow (old m : Mod) (k : Nat) : Mod :=
  if m.lgSettings k ≠ old.lgSettings k then (m.iff (m.lgMode k != 2) fun m => m.put F.MESH_LG_STATUS_ETH_UP k false).lgStart k
  else
    let again := fun (m : Mod) (l : Nat) => m.iff (m.linkState l == 6) (fun m => m.linkStart l)
    again (again m (2 * k)) (2 * k + 1)

/-- Membership follows the settings. -/
def membersFollow (m old : Mod) : Mod :=
  if m.isRoot then m.flood
  else
    let m := m.iff old.isMember (fun m => m.memberUp (.leave [(BitVec.ofNat 12 old.node, BitVec.ofNat 256 old.identity)]))
    if m.isMember then m.memberClaim else m.setMembers []

theorem followed_lgFollow (m old : Mod) (k : Nat) : m.Followed (lgFollow old m k) := by
  have hagain : ∀ (t : Mod) (l : Nat), t.Followed (t.iff (t.linkState l == 6) fun m => m.linkStart l) := fun t l => .iff _ (.of_plugged (t.plugged_linkStart l))
  unfold lgFollow
  split
  · exact (Followed.iff _ (m.followed_put _ _ _ (by decide))).trans (followed_lgStart _ k)
  · exact (hagain m _).trans (hagain _ _)

theorem followed_membersFollow (m old : Mod) : m.Followed (m.membersFollow old) := by
  unfold membersFollow
  split
  · exact .of_plugged m.plugged_flood
  · extract_lets x
    have hx : m.Followed x := .iff _ (.of_plugged (m.plugged_memberUp _))
    split
    · exact hx.trans (.of_plugged x.plugged_memberClaim)
    · exact hx.trans (.of_plugged (x.plugged_setMembers []))

theorem meshCommit_eq (m old : Mod) : m.meshCommit old =
    let m := m.each (upTo 8) (lgFollow old)
    let m := m.iff (m.isMember != old.isMember || m.node != old.node) fun m => m.membersFollow old
    let m := m.iff (m.isMember != old.isMember) (fun m => m.put F.MESH_STATUS_ROOT 0 (m.isRoot && m.isMember))
    let m := m.iff (old.isMember && !m.isMember) Mod.leaveGrandmaster
    let m := m.iff (m.rd F.MESH_BAR_PART_PART != old.rd F.MESH_BAR_PART_PART) Mod.barAgain
    (m.each (upTo 16) Mod.pump).serviceEnds := rfl

theorem followed_meshCommit (m old : Mod) : m.Followed (m.meshCommit old) := by
  rw [meshCommit_eq]
  extract_lets x y z u v
  have hx : m.Followed x := .each (fun t k => t.followed_lgFollow old k) _ m
  have hy : x.Followed y := .iff _ (x.followed_membersFollow old)
  have hz : y.Followed z := .iff _ (y.followed_put _ _ _ (by decide))
  have hu : z.Followed u := .iff _ z.followed_leaveGrandmaster
  have hv : u.Followed v := .iff _ u.followed_barAgain
  clear_value x y z u v
  exact ((((hx.trans hy).trans hz).trans hu).trans hv).trans
    ((Followed.each (fun t l => followed_of_unsent (t.unsent_pump l)) _ v).trans (followed_serviceEnds _))

theorem followed_shedFollow (m : Mod) : m.Followed m.shedFollow :=
  (m.followed_wr _ _ _ (by decide)).trans (.each (fun x k => x.followed_lgStart k) _ _)

theorem followed_toNow (m : Mod) (i : Nat) : m.Followed (m.toNow i) := by
  have h := m.untimed_toNow i
  generalize m.toNow i = t at h
  exact .of_rest (congrArg Mod.phase h :) (congrArg Mod.rgnPhase h :) (congrArg Mod.regs h :) (congrArg Mod.cores h :) (congrArg Mod.mx h :)

theorem followed_coreLeaveReset (m : Mod) (c : Nat) : m.Followed (m.coreLeaveReset c) := by
  rw [coreLeaveReset_eq]
  split
  · exact m.followed_setCore c _ rfl
  · exact .refl m

end Mod

end Sys2Proof.Machine

/-!
A region restarts (R451 t5): its state shows 3 through all that follows.
-/
namespace Sys2Proof.Machine

namespace Mod

variable {m n t : Mod}

/-- A region's restart begins: its phase, and its state shown. -/
def phaseThree (m : Mod) (g : Nat) : Mod := { m with rgnPhase := Tbl.set 0 m.rgnPhase g 3 }.wr (F.FLT_RGN_STATE_STATE g) 0 3

theorem phaseThree_shows (m : Mod) (g : RegionId) : Tbl.get 0 (m.phaseThree g).rgnPhase g = 3 ∧ (m.phaseThree g).rd (F.FLT_RGN_STATE_STATE g) = 3 := by
  unfold phaseThree
  refine ⟨?_, ?_⟩
  · rw [wr_rgnPhase, Tbl.get_set_self]
  · fin_cases g <;> exact rd_wr_self _ _ _ _ (by decide)

theorem phaseThree_idle (m : Mod) (g : Nat) : (m.phaseThree g).cores = m.cores ∧ (m.phaseThree g).mx = m.mx := ⟨rfl, rfl⟩

/-- A parked setting put back. -/
def unpark (m : Mod) (e : Nat × BitVec 64) : Mod :=
  m.setReg (regNo (e.1 % 512)) (e.1 / 512) ((e.2.toNat &&& (regNo (e.1 % 512)).stMask) |||
    (m.reg (regNo (e.1 % 512)) (e.1 / 512) &&& ((2 ^ 64 - 1) ^^^ (regNo (e.1 % 512)).stMask)))

/-- A module with other parked settings. -/
def withParked (m : Mod) (x : Tbl (BitVec 64)) : Mod := { m with parked := x }

theorem unparkRegion_eq (m : Mod) (g : Nat) : m.unparkRegion g =
    (m.withParked (m.parked.filter (fun e => keyHome e.1 != g))).each (m.parked.filter (fun e => keyHome e.1 == g)) unpark := rfl

/-- From `m` to `t` a region's settings were put back: its phase, the regions' states, the cores and the engines stay. -/
structure Unparked (m t : Mod) : Prop where
  rgnPhase : t.rgnPhase = m.rgnPhase
  cores : t.cores = m.cores
  mx : t.mx = m.mx
  state : t.reg .FLT_RGN_STATE 0 = m.reg .FLT_RGN_STATE 0

theorem Unparked.trans (h : m.Unparked n) (h' : n.Unparked t) : m.Unparked t :=
  ⟨h'.rgnPhase.trans h.rgnPhase, h'.cores.trans h.cores, h'.mx.trans h.mx, h'.state.trans h.state⟩

theorem unparked_unpark (m : Mod) {e : Nat × BitVec 64} (h : keyHome e.1 ≠ 4) : m.Unparked (m.unpark e) := by
  refine ⟨rfl, rfl, rfl, reg_setReg_ne m _ fun heq => h ?_⟩
  rw [keyHome, ← heq.1, ← heq.2]
  decide

theorem unparked_unparkRegion (m : Mod) (g : RegionId) : m.Unparked (m.unparkRegion g) := by
  have key : ∀ (l : List (Nat × BitVec 64)) (x : Mod), (∀ e ∈ l, keyHome e.1 = g.val) → x.Unparked (x.each l unpark) := fun l => by
    induction l with
    | nil => exact fun x _ => ⟨rfl, rfl, rfl, rfl⟩
    | cons e l ih =>
      intro x hl
      have he : keyHome e.1 ≠ 4 := by
        rw [hl e List.mem_cons_self]
        omega
      exact (x.unparked_unpark he).trans (ih _ fun e' h' => hl e' (List.mem_cons_of_mem _ h'))
  have hstart : m.Unparked (m.withParked (m.parked.filter fun e => keyHome e.1 != g)) := ⟨rfl, rfl, rfl, rfl⟩
  rw [unparkRegion_eq]
  exact hstart.trans (key _ _ fun e he => by simpa using (List.mem_filter.mp he).2)

/-- A region's die goes on. -/
def dieBack (m : Mod) (d : Nat) : Mod := m.iff (m.domOn (56 + d)) (fun m => (m.iff (!(m.die d).cut) (fun m => m.dieHears d)).dieCommit d)

theorem followed_dieBack (m : Mod) (d : Nat) : m.Followed (m.dieBack d) :=
  .iff _ ((Followed.iff _ (m.followed_dieHears d)).trans (followed_dieCommit _ d))

theorem regionRestart_eq (m : Mod) (g : Nat) : m.regionRestart g =
    let x := (m.toNow (nextMultiple 100000 m.now)).phaseThree g
    let y := x.iff (!x.rgnHeld g) (fun m => m.unparkRegion g)
    ((((y.dieBack (2 * g)).dieBack (2 * g + 1)).each (span (8 * g) 8) coreLeaveReset).lgStart (2 * g)).lgStart (2 * g + 1) := rfl

/-- The region's domains have no store or job under way where its cores and its engine have none. -/
theorem domIdle_of_region {g : RegionId} (hsb : ∀ k : Nat, k / 8 = g.val → (m.core k).sb = []) (hmx : m.mxJob g = none) {d : Nat} (hd : d ∈ fwDomains)
    (hg : domRegion d = g) : m.DomIdle d := by
  have hcore : ∀ d ∈ fwDomains, d < 32 → domRegion d = d / 8 := by decide
  have hengine : ∀ d ∈ fwDomains, 44 ≤ d → d < 48 → domRegion d = d - 44 := by decide
  refine ⟨hd, fun h => hsb d ((hcore d hd h).symm.trans hg), fun h h' => ?_⟩
  rw [← hengine d hd h h', hg]
  exact hmx

/-- A region past its zeroing restarts. -/
theorem restartRegion_shows (m : Mod) (g : RegionId) (hsb : ∀ k : Nat, k / 8 = g.val → (m.core k).sb = []) (hmx : m.mxJob g = none) :
    Tbl.get 0 (m.restartRegion g).rgnPhase g = 3 ∧ (m.restartRegion g).rd (F.FLT_RGN_STATE_STATE g) = 3 := by
  have ht := m.followed_toNow (nextMultiple 100000 m.now)
  obtain ⟨hp, hs⟩ := (m.toNow (nextMultiple 100000 m.now)).phaseThree_shows g
  obtain ⟨hc, hx⟩ := (m.toNow (nextMultiple 100000 m.now)).phaseThree_idle g
  unfold restartRegion
  rw [regionRestart_eq]
  extract_lets x y n n'
  replace hp : Tbl.get 0 x.rgnPhase g = 3 := hp
  replace hs : x.rd (F.FLT_RGN_STATE_STATE g) = 3 := hs
  have hsbx : ∀ k : Nat, k / 8 = g.val → (x.core k).sb = [] := fun k hk => by
    rw [core_of_cores hc]
    exact ht.sb k (hsb k hk)
  have hmxx : x.mxJob g = none := by
    rw [mxJob, hx]
    exact ht.mx g hmx
  have hy : x.Unparked y := iff_keeps (P := fun z => x.Unparked z) _ (x.unparked_unparkRegion g) ⟨rfl, rfl, rfl, rfl⟩
  have hn : y.Followed n := (((((y.followed_dieBack _).trans (followed_dieBack _ _)).trans (.each (fun z c => z.followed_coreLeaveReset c) _ _)).trans
    (followed_lgStart _ _)).trans (followed_lgStart _ _)).trans (followed_pipesRestart _ m g)
  have hn' : n.Followed n' := followed_waysCommit _ _ _ _
  clear_value n n' y x
  have hidle : ∀ d ∈ fwDomains, domRegion d = g → n'.DomIdle d := fun d hd hg =>
    domIdle_of_region (fun k hk => (hn.trans hn').sb k (by rw [core_of_cores hy.cores]; exact hsbx k hk))
      ((hn.trans hn').mx g (by rw [mxJob, hy.mx]; exact hmxx)) hd hg
  have hall : y.Followed (((n'.powerRestart g).meshCommit m).shedFollow) :=
    ((((hn.trans hn').trans (followed_powerRestart hidle))).trans (followed_meshCommit _ m)).trans (followed_shedFollow _)
  refine ⟨?_, ?_⟩
  · rw [hall.rgnPhase, hy.rgnPhase]
    exact hp
  · have hst : ∀ z : Mod, z.rd (F.FLT_RGN_STATE_STATE g) = bitsOf (z.reg .FLT_RGN_STATE 0) (F.FLT_RGN_STATE_STATE g).lo (F.FLT_RGN_STATE_STATE g).width := fun _ => rfl
    rw [hst, hall.reg _ _ (by decide), hy.state, ← hst]
    exact hs

end Mod

end Sys2Proof.Machine

/-!
Escalations, releases and resets as their commands leave them (R445 to R452).
-/
namespace Sys2Proof.Machine

namespace Mod

variable {m n t : Mod}

/-- A module an escalation of which is no longer due. -/
def escalated (m : Mod) (e : Option Nat × Bool × Nat) : Mod := { m with escDue := m.escDue.erase e }

/-- The escalation that is due for a container. -/
abbrev escalates (m : Mod) (blocks : Bool) (r : Option Nat) : Option (Option Nat × Bool × Nat) :=
  m.escDue.find? fun x => x.1 == r && (r.isNone || x.2.1 == blocks)

theorem escalation_none {r : Option Nat} {blocks : Bool} (h : m.escalates blocks r = none) : m.escalation r blocks = m := by
  unfold escalates at h
  unfold escalation
  rw [h]

theorem escalation_region {g : Nat} {blocks : Bool} {e : Option Nat × Bool × Nat} (h : m.escalates blocks (some g) = some e) :
    m.escalation (some g) blocks = (m.escalated e).regionFault g 0x0B e.2.2 := by
  unfold escalates at h
  unfold escalation
  rw [h]
  rfl

theorem escalation_device {blocks : Bool} {e : Option Nat × Bool × Nat} (h : m.escalates blocks none = some e) :
    m.escalation none blocks = (m.escalated e).deviceFault 0x0B e.2.2 := by
  unfold escalates at h
  unfold escalation
  rw [h]
  rfl

theorem escalated_keeps (m : Mod) (e : Option Nat × Bool × Nat) : (m.escalated e).regs = m.regs ∧ (m.escalated e).phase = m.phase ∧ (m.escalated e).fq = m.fq ∧
    (m.escalated e).rgnPhase = m.rgnPhase ∧ (m.escalated e).rgnAct = m.rgnAct := ⟨rfl, rfl, rfl, rfl, rfl⟩

theorem faultRec_escalated (m : Mod) (e : Option Nat × Bool × Nat) (level cause index unit action detail : Nat) :
    (m.escalated e).faultRec level cause index unit action detail = m.faultRec level cause index unit action detail := rfl

/-- A device fault without an action is recorded, and nothing is driven safe. -/
theorem deviceFault_records (cause detail : Nat) (h : m.phase.spineUp = true ∧ m.fq.length < 64) (hdev : m.rd F.FLT_DEV_ACT_ACT = 0) :
    m.faultRec 3 cause 0 10 0 detail ∈ (m.deviceFault cause detail).fq ∧ (m.deviceFault cause detail).devSafe = m.devSafe := by
  rw [deviceFault_zero cause detail 0xFFFF hdev]
  refine ⟨?_, ?_⟩
  · rw [fq_noteFault]
    exact mem_fq_faultNoted cause detail 0xFFFF 0 h
  · exact (noteFault_shows _).2.2.1.trans (phase_of_unnoticed (m.faultNoted_frame cause detail 0xFFFF 0).rest).2

/-- A device fault with action 1 drives the outputs safe. -/
theorem deviceFault_safe (cause detail : Nat) (hdev : m.rd F.FLT_DEV_ACT_ACT = 1) :
    (m.deviceFault cause detail).devSafe = true ∧ (m.deviceFault cause detail).twin.faultNext = true := by
  rw [deviceFault_one cause detail 0xFFFF hdev]
  refine ⟨devSafe_deviceSafe _, ?_⟩
  rw [twin_deviceSafe]
  exact (noteFault_shows _).2.2.2

/-! ### Releases -/

/-- A region whose action has ended. -/
def actEnded (m : Mod) (g : Nat) : Mod :=
  { m with rgnAct := Tbl.set 0 m.rgnAct g 0, twin := { m.twin with forced := m.twin.forced.filter (fun e => portRegion e.1 != g) } }

theorem releaseRegion_eq (m : Mod) (g : Nat) : m.releaseRegion g =
    (m.actEnded g).iff (m.rd (F.FLT_RGN_STATE_STATE g) == 1) fun m => m.wr (F.FLT_RGN_STATE_STATE g) 0 0 := rfl

theorem actEnded_shows (m : Mod) (g : Nat) : Tbl.get 0 (m.actEnded g).rgnAct g = 0 ∧ (m.actEnded g).regs = m.regs ∧
    (m.actEnded g).twin = { m.twin with forced := m.twin.forced.filter (fun e => portRegion e.1 != g) } := ⟨by rw [actEnded, Tbl.get_set_self], rfl, rfl⟩

theorem releaseRegion_shows (m : Mod) (g : RegionId) : Tbl.get 0 (m.releaseRegion g).rgnAct g = 0 ∧
    (m.releaseRegion g).rd (F.FLT_RGN_STATE_STATE g) = (if m.rd (F.FLT_RGN_STATE_STATE g) = 1 then 0 else m.rd (F.FLT_RGN_STATE_STATE g)) ∧
    OnlyRegs [(.FLT_RGN_STATE, 0)] m (m.releaseRegion g) ∧
    (m.releaseRegion g).twin = { m.twin with forced := m.twin.forced.filter (fun e => portRegion e.1 != g) } := by
  obtain ⟨ha, hr, ht⟩ := m.actEnded_shows g
  rw [releaseRegion_eq]
  by_cases h : m.rd (F.FLT_RGN_STATE_STATE g) = 1
  · rw [h, beq_self_eq_true, iff_true, if_pos rfl, wr_rgnAct, wr_twin]
    refine ⟨ha, ?_, ?_, ht⟩
    · fin_cases g <;> exact rd_wr_self _ _ _ _ (by decide)
    · have hreg : (F.FLT_RGN_STATE_STATE g).reg = .FLT_RGN_STATE := rfl
      exact (onlyRegs_of_regs hr).trans (by simpa only [hreg] using onlyRegs_wr (m.actEnded g) (F.FLT_RGN_STATE_STATE g) 0 0)
  · rw [beq_eq_false_iff_ne.mpr h, iff_false, if_neg h, rd_of_regs hr]
    exact ⟨ha, rfl, onlyRegs_of_regs hr, ht⟩

end Mod

/-! ### The commands -/

section

variable {s : State} {w : Writer}

theorem escalation_stays {r : Option RegionId} {x : Option Nat} {blocks : Bool} (hr : r.map Fin.val = x) (h : s.mod.escalates blocks x = none) :
    Does (.escalation r blocks) s fun t => t = s.mod := by
  refine does_next (m := s.mod.escalation (r.map Fin.val) blocks) rfl ?_
  rw [hr]
  exact Mod.escalation_none h

theorem escalation_region_shows {g : RegionId} {blocks : Bool} {e : Option Nat × Bool × Nat} (h : s.mod.escalates blocks (some g.val) = some e)
    (hroom : s.mod.phase.spineUp = true ∧ s.mod.fq.length < 64) : Does (.escalation (some g) blocks) s fun t =>
      s.mod.faultRec 2 0x0B g 9 (if s.mod.rgnDown g then 5 else s.mod.rd (F.FLT_RGN_ACT_ACT g)) e.2.2 ∈ t.fq ∧
      (s.mod.rgnDown g = false → s.mod.rd (F.FLT_RGN_ACT_ACT g) = 3 → t.rd (F.FLT_RGN_STATE_STATE g) = 2) ∧
      (s.mod.rgnDown g = false → s.mod.rd (F.FLT_RGN_ACT_ACT g) = 1 ∨ s.mod.rd (F.FLT_RGN_ACT_ACT g) = 2 →
        s.mod.rd (F.FLT_RGN_ACT_ACT g) ≤ Tbl.get 0 t.rgnAct g) := by
  obtain ⟨hr, hp, hq, hg, -⟩ := s.mod.escalated_keeps e
  have hshows := Mod.regionFault_shows (m := s.mod.escalated e) g 0x0B e.2.2 0xFFFF (by rw [hp, hq]; exact hroom)
  rw [Mod.rgnDown_of_rgnPhase hg, Mod.rd_of_regs hr, Mod.faultRec_escalated] at hshows
  refine does_next (m := s.mod.escalation (some g.val) blocks) rfl ?_
  rw [Mod.escalation_region h]
  exact hshows

theorem escalation_device_shows {blocks : Bool} {e : Option Nat × Bool × Nat} (h : s.mod.escalates blocks none = some e)
    (hroom : s.mod.phase.spineUp = true ∧ s.mod.fq.length < 64) (hdev : s.mod.rd F.FLT_DEV_ACT_ACT = 0) :
    Does (.escalation none blocks) s fun t => s.mod.faultRec 3 0x0B 0 10 0 e.2.2 ∈ t.fq := by
  obtain ⟨hr, hp, hq, -, -⟩ := s.mod.escalated_keeps e
  have hshows := (Mod.deviceFault_records (m := s.mod.escalated e) 0x0B e.2.2 (by rw [hp, hq]; exact hroom) (by rw [Mod.rd_of_regs hr]; exact hdev)).1
  rw [Mod.faultRec_escalated] at hshows
  refine does_next (m := s.mod.escalation none blocks) rfl ?_
  rw [Mod.escalation_device h]
  exact hshows

/-- A reset that is asked for: of a master that is not privileged, and inside a region under reset. -/
theorem reset_asked {i : Instr} {kind index : Nat} (he : exec i s = .next { s with mod := s.mod.fltRst w kind index }) (hi : index < resetCount kind) :
    (s.mod.privWriter w.master.toNat w.sys = false → Does i s fun t => t = s.mod) ∧
    (s.mod.privWriter w.master.toNat w.sys = true → s.mod.inReset kind index = true → Does i s fun t => t = s.mod.put F.FLT_RST_STATUS_ABSORBED 0 true) :=
  ⟨fun h => does_next he (Mod.fltRst_unprivileged hi h), fun h hr => does_next he ((Mod.fltRst_privileged hi h).trans (Mod.requestReset_absorbed hi hr))⟩

theorem reset_of_cell {i : Instr} {kind index : Nat} (he : exec i s = .next { s with mod := s.mod.fltRst w kind index }) (hi : index < resetCount kind)
    (hr : kind ≠ 10) (hd : kind ≠ 11) (hp : s.mod.privWriter w.master.toNat w.sys = true) (hin : s.mod.inReset kind index = false) :
    Does i s fun t => t = (s.mod.resetRecord kind index 0 w.master.toNat).cellReset kind index :=
  does_next he ((Mod.fltRst_privileged hi hp).trans (Mod.requestReset_cell hi hin hr hd))

/-- A cell's or a block's reset: not performed, absorbed, or recorded and performed. -/
theorem reset_cell {i : Instr} {kind index : Nat} (he : exec i s = .next { s with mod := s.mod.fltRst w kind index }) (hi : index < resetCount kind)
    (hr : kind ≠ 10) (hd : kind ≠ 11) :
    ((s.mod.privWriter w.master.toNat w.sys = false → Does i s fun t => t = s.mod) ∧
      (s.mod.privWriter w.master.toNat w.sys = true → s.mod.inReset kind index = true → Does i s fun t => t = s.mod.put F.FLT_RST_STATUS_ABSORBED 0 true)) ∧
    (s.mod.privWriter w.master.toNat w.sys = true → s.mod.inReset kind index = false →
      Does i s fun t => t = (s.mod.resetRecord kind index 0 w.master.toNat).cellReset kind index) :=
  ⟨reset_asked he hi, reset_of_cell he hi hr hd⟩

/-- A core's reset: the core, and the record of it. -/
theorem coreReset_shows {c : CoreId} (hp : s.mod.privWriter w.master.toNat w.sys = true) (hin : s.mod.rgnDown (c.val / 8) = false) :
    Does (.coreReset w c) s fun t => t.core c = s.mod.coreStarted c ∧
      (s.mod.phase.spineUp = true ∧ s.mod.fq.length < 64 → s.mod.faultRec 0 0x10 c 0 3 0 0xFFFF w.master.toNat ∈ t.fq) := by
  refine does_next (m := s.mod.fltRst w 1 c) rfl ?_
  have hin' : s.mod.inReset 1 c = false := hin
  rw [Mod.fltRst_privileged c.isLt hp, Mod.requestReset_cell c.isLt hin' (by decide) (by decide)]
  refine ⟨Mod.core_reset_recorded s.mod 1 c 0 _ c hin, fun hroom => ?_⟩
  have hq := Mod.fq_coreReset (s.mod.resetRecord 1 c 0 w.master.toNat) c
  refine hq ▸ ?_
  exact Mod.mem_fq_record _ hroom

theorem coreBlockReset_shows {b : Fin 8} (hp : s.mod.privWriter w.master.toNat w.sys = true) (hin : s.mod.rgnDown (b.val / 2) = false) :
    Does (.coreBlockReset w b) s fun t => ∀ k, k < 4 → t.core (4 * b.val + k) = s.mod.coreStarted (4 * b.val + k) := by
  refine does_next (m := s.mod.fltRst w 7 b) rfl fun k hk => ?_
  have hin' : s.mod.inReset 7 b = false := hin
  rw [Mod.fltRst_privileged b.isLt hp, Mod.requestReset_cell b.isLt hin' (by decide) (by decide)]
  have hrep := s.mod.reported_resetRecord 7 b 0 w.master.toNat
  have hdiv : (4 * b.val + k) / 8 = b.val / 2 := by omega
  have hcore := Mod.core_each_coreReset (m := s.mod.resetRecord 7 b 0 w.master.toNat) (l := span (4 * b.val) 4) (c := 4 * b.val + k) (Mod.mem_span.mpr (by omega))
    (by rw [hrep.sameRun.rgnDown, hdiv]; exact hin)
  refine Eq.trans hcore ?_
  rw [Mod.coreStarted, hrep.sameRun.coresRun, hrep.sameRun.domOn, hrep.mono]

theorem regionReset_command {g : RegionId} (hp : s.mod.privWriter w.master.toNat w.sys = true) (hin : s.mod.rgnDown g = false) :
    Does (.regionReset w g) s fun t => t.rd (F.FLT_RGN_STATE_STATE g) = 2 ∧ t.rgnDown g = true ∧
      (∀ k, k < 8 → t.core (8 * g.val + k) = {}) ∧ (∀ k : Nat, k / 8 ≠ g.val → t.core k = s.mod.core k) ∧ t.mxJob g = none := by
  refine does_next (m := s.mod.fltRst w 10 g) rfl ?_
  rw [Mod.fltRst_privileged g.isLt hp, Mod.requestReset_region g 0 _ hin]
  exact ⟨(s.mod.regionReset_shows g 0 _).1, s.mod.regionReset_stops g 0 _⟩

theorem deviceReset_command (hp : s.mod.privWriter w.master.toNat w.sys = true) :
    (s.mod.hotNow = true → Does (.deviceReset w) s fun t => t = s.mod) ∧ (s.mod.hotNow = false → Does (.deviceReset w) s (s.mod.Restarted)) := by
  have heq : s.mod.fltRst w 11 0 = s.mod.deviceReset 0 w.master.toNat := (Mod.fltRst_privileged (by decide) hp).trans (s.mod.requestReset_device 0 _)
  refine ⟨fun h => does_next (m := s.mod.fltRst w 11 0) rfl ?_, fun h => does_next (m := s.mod.fltRst w 11 0) rfl ?_⟩
  · rw [heq, Mod.deviceReset_eq, if_pos h]
  · rw [heq]
    exact Mod.restarted_deviceReset 0 _ h

/-- A step of a region's reset outside its phase. -/
theorem phase_stays {i : Instr} {g k : Nat} {f : Mod → Mod} (he : exec i s = .next { s with mod := s.mod.iff (Tbl.get 0 s.mod.rgnPhase g == k) f })
    (h : Tbl.get 0 s.mod.rgnPhase g ≠ k) : Does i s fun t => t = s.mod := by
  refine does_next he ?_
  rw [beq_eq_false_iff_ne.mpr h]
  rfl

theorem phase_moves {i : Instr} {g k : Nat} {f : Mod → Mod} {P : Mod → Prop} (he : exec i s = .next { s with mod := s.mod.iff (Tbl.get 0 s.mod.rgnPhase g == k) f })
    (h : Tbl.get 0 s.mod.rgnPhase g = k) (hp : P (f s.mod)) : Does i s P := by
  refine does_next he ?_
  rw [h, beq_self_eq_true]
  exact hp

theorem regionGateReapply_shows {g : RegionId} (h : Tbl.get 0 s.mod.rgnPhase g = 3) :
    Does (.regionGateReapply g) s fun t => Tbl.get 0 t.rgnPhase g = 0 ∧ t.rd (F.FLT_RGN_STATE_STATE g) = 0 := by
  obtain ⟨x, hx⟩ := Mod.gateReapply_eq s.mod g h
  refine does_next (m := s.mod.gateReapply g) rfl ?_
  rw [hx]
  exact x.phaseOver_shows g

end

/-- Settles O58: what a fault records and acts on, what a reset asked for does to its cell, block, region or device, and a region's steps back. -/
theorem faultsEscalateAndContainersReset : Obligations.FaultsEscalateAndContainersReset := by
  unfold Obligations.FaultsEscalateAndContainersReset
  intro s w g blocks e unit c p lane sl b ch cb dg m stays due room act dev hot priv restarted asked cell
  refine ⟨escalation_stays rfl, escalation_stays rfl, escalation_region_shows, escalation_device_shows, fun hr hd => ?_, fun hd => ?_, fun hd hh => ?_, ?_, ?_,
    reset_cell rfl c.isLt (by decide) (by decide), reset_cell rfl p.isLt (by decide) (by decide), reset_cell rfl lane.isLt (by decide) (by decide),
    reset_cell rfl sl.isLt (by decide) (by decide), reset_cell rfl b.isLt (by decide) (by decide), reset_cell rfl ch.isLt (by decide) (by decide),
    reset_cell rfl cb.isLt (by decide) (by decide), reset_cell rfl b.isLt (by decide) (by decide), reset_cell rfl dg.isLt (by decide) (by decide),
    fun hp hin => (coreReset_shows hp hin).imp fun t h => ⟨h.1, h.2.1, h.2.2.1⟩, coreBlockReset_shows,
    fun hr hp hin => (coreReset_shows hp hin).imp fun t h => ⟨h.1, h.2.1, h.2.2.2 hr⟩,
    reset_asked rfl g.isLt, regionReset_command, phase_stays rfl, fun h => phase_moves rfl h (s.mod.regionZeroed_shows g), phase_stays rfl,
    fun h hsb hmx => phase_moves rfl h (s.mod.restartRegion_shows g hsb hmx), fun h => does_next (m := s.mod.gateReapply g) rfl (s.mod.gateReapply_none g h),
    regionGateReapply_shows, (reset_asked rfl (by decide)).1, fun hp => (deviceReset_command hp).1, fun hp => (deviceReset_command hp).2⟩
  · exact does_next (m := s.mod.deviceFault 0x0D unit.toNat) rfl (Mod.deviceFault_records 0x0D _ hr hd)
  · exact does_next (m := s.mod.deviceFault 0x0D unit.toNat) rfl (Mod.deviceFault_safe 0x0D _ hd)
  · exact does_next (m := s.mod.deviceFault 0x0D unit.toNat) rfl (Mod.restarted_deviceFault 0x0D _ 0xFFFF hd hh)
  · exact does_next (m := s.mod.releaseRegion g) rfl (s.mod.releaseRegion_shows g)
  · exact does_next (m := s.mod.releaseDevice) rfl rfl

end Sys2Proof.Machine
